-- ==== Sys2Proof/Word.lean ====
section
/-! DEFINITION. The word types of the SX-1296 (R14: every register is 32 bits wide, little-endian) and their plainest arithmetic. -/
namespace Sys2Proof

/-- One register word (R14). -/
abbrev Word := BitVec 32

/-- One byte of a buffer, a descriptor or memory. -/
abbrev Byte := BitVec 8

end Sys2Proof
end

