-- ==== Sys2Proof/Syntax.lean ====
section
/-! DEFINITION. The commands of the SX-1296: one constructor for every row of spec/opcode_table.json. A command is an access of a register, an event on an
interface or the occurrence of a device event; its operands are what the device takes from outside at that event (assumption log 1). -/
namespace Sys2Proof

/-- The commands. -/
inductive Instr where
  -- spec/00 and spec/01 accesses, clocks and the dictionary server
  /-- A software write to a register field that has no behaviour of its own acts according to the field's access code. (R17) -/
  | registerWrite (master off : Nat) (value : BitVec 32) (high : Option (BitVec 32))
  /-- A read of the low word of a 64-bit quantity returns it and copies the high word into that function's shadow. (R15) -/
  | lowWordRead (fn off : Nat) (wide : Bool)
  /-- An access to a reserved or undefined BAR0 offset reads zero or ignores the write, completes normally and records a C0 event. (R38) -/
  | reservedAccess (master off : Nat) (write : Option (BitVec 32))
  /-- A BAR0 access of a wrong size or alignment completes with Unsupported Request and records a C0 event. (R37) -/
  | unsupportedAccess (master off : Nat) (write : Bool)
  /-- The clock monitor finds an island clock with no edge for 1 µs, or off its programmed rate for 10 µs, and reports it to the Sump with its class. (R25) -/
  | clockLoss (domain : Nat)
  /-- An SDO upload arrives over EtherCAT CoE and the dictionary server reads the object. (R43) -/
  | coeSdoUpload (index sub : Nat) (complete : Bool)
  /-- An SDO download arrives over EtherCAT CoE and the dictionary server writes the object before confirming. (R44) -/
  | coeSdoDownload (index sub : Nat) (complete : Bool) (data : List (BitVec 8))
  /-- An SDO information request returns object lists and entry descriptions. (R592) -/
  | coeSdoInformation (data : List (BitVec 8))
  /-- A lost island clock, such as the PCIe root port clock, returns to its programmed rate, and the refusal it caused ends. (R25) -/
  | clockRelock (domain : Nat)
  -- spec/02 pages and frames
  /-- A PRINT descriptor is checked, committed and claims the next unclaimed frame by its commit line. (R61) -/
  | pagePrint (fn : Nat) (desc : List (BitVec 8)) (src : Option (List (BitVec 8)))
  /-- A REISSUE descriptor commits the page again from its spooled original descriptor. (R52) -/
  | pageReissue (fn : Nat) (desc : List (BitVec 8))
  /-- A RELEASE descriptor frees the page's spool extents now, or at its final state. (R85) -/
  | pageRelease (fn : Nat) (desc : List (BitVec 8))
  /-- A CANCEL descriptor cancels a committed page that has not yet latched, and its frame prints blank. (R76) -/
  | pageCancel (fn : Nat) (desc : List (BitVec 8))
  /-- A descriptor with a bad CHECK or an invalid opcode is refused with no effect. (R53) -/
  | descriptorInvalid (fn : Nat) (desc : List (BitVec 8))
  /-- A station's latch line passes and fixes the page's tone set, screen set and stream for that station. (R66) -/
  | stationLatch (st : Nat)
  /-- A latched page's top-of-form reaches a station and raises PAGE_TOF. (R46) -/
  | pageTof (st : Nat)
  /-- A page's last line passes a station, which raises PAGE_END and, at the last station, PRINTED. (R77) -/
  | pageLastLine (st : Nat)
  /-- The page gap opens at a station, and pending shadowed tables, offsets and routes take effect. (R67) -/
  | pageGapOpen (st : Nat)
  -- spec/03 host port
  /-- A write of HIF_SQ_TAIL rings the queue's doorbell, or is recorded, ignored or puts the queue in ERROR. (R106) -/
  | sqDoorbell (fn tail : Nat)
  /-- A descriptor read completes with an error, and the queue enters ERROR with ERR_CODE 3. (R109) -/
  | descriptorReadFailed (fn how : Nat)
  /-- A write of HIF_CQ_HEAD frees ring slots, or is ignored and sets CQ_HEAD_ERR. (R113) -/
  | cqHeadWrite (fn head : Nat)
  /-- Backlog entries move to the ring in order once it has room. (R115) -/
  | backlogDrain (fn : Nat)
  /-- The TIME limit expires for the oldest unsignalled entry, and the completion vector is signalled. (R118) -/
  | cqCoalesceTimeout (fn : Nat)
  /-- ENABLE from 0 to 1 resets the pointers and makes the queue RUNNING, or is refused. (R105) -/
  | qEnable (fn : Nat)
  /-- Clearing ENABLE disables the queue only while it has no active pages and no backlog. (R121) -/
  | qDisable (fn : Nat)
  /-- A write of PAUSE pauses the queue with cause 1. (R119) -/
  | qPause (fn : Nat)
  /-- A write of RESUME returns a paused queue to RUNNING unless a C3 or C4 is in progress. (R120) -/
  | qResume (fn : Nat)
  /-- A configuration write starts an FLR: the function's writes are blocked and its work is removed from the shared engines. (R126) -/
  | flrStart (fn : Nat)
  /-- The FLR completes with the function at reset, FLR_SEEN set and PF vector 7 signalled. (R131) -/
  | flrComplete (fn : Nat)
  /-- A configuration request is answered with RRS during boot or FLR, and normally otherwise. (R100) -/
  | configRequest (fn : Nat) (write : Option (BitVec 32)) (off : Nat)
  /-- A hot reset or DL_Down resets the host interface as a PF FLR. (R134) -/
  | linkDown (hotReset : Bool)
  /-- The PCIe link returns and the endpoint is ready without a new boot. (R135) -/
  | linkUp (width speed corrected : Nat)
  /-- Unmasking a vector whose pending bit is set sends its message. (R125) -/
  | msixUnmask (fn vec : Nat)
  /-- A function enters D3hot, and its queue pauses with cause 4. (R136) -/
  | d3hotEntry (fn : Nat)
  /-- A function returns to D0, its pause ends and its backlog is written. (R136) -/
  | d0Return (fn : Nat)
  -- spec/04 Siphon
  /-- A write of SIP_CH_ASSIGN sets a channel's owner and role, or is refused. (R145) -/
  | chAssignWrite (ch : Nat) (value : BitVec 32)
  /-- A write of SIP_FN_WIN sets a VF's DRAM window, or is refused. (R151) -/
  | fnWinWrite (fn : Nat) (value : BitVec 32)
  /-- ENABLE on a HOST channel resets its ring pointers and makes it IDLE, or is refused. (R160) -/
  | chEnable (ch : Nat)
  /-- Clearing ENABLE disables an IDLE or STOPPED channel and abandons its unfetched entries. (R163) -/
  | chDisable (ch : Nat)
  /-- A write of SIP_CH_TAIL rings the channel's doorbell or stops it with RING_ERROR. (R161) -/
  | chDoorbell (ch tail : Nat)
  /-- ABORT on an ACTIVE HOST channel finishes the current burst and completes the descriptor as ABORTED. (R171) -/
  | chAbort (ch : Nat) (resume : Bool)
  /-- RESUME returns a STOPPED HOST channel to IDLE. (R173) -/
  | chResume (ch : Nat)
  /-- A channel whose tail differs from its head fetches the next descriptor. (R162) -/
  | chDescriptorFetch (ch : Nat)
  /-- A fetched or device-driven Siphon descriptor is checked and begins its transfer. (R153) -/
  | chDescriptor (ch : Nat) (desc : Option (List (BitVec 8)))
  /-- The arbiter grants a channel one burst of at most 4 KiB, and the burst moves data. (R159) -/
  | sipBurst (ch : Nat) (data : List (BitVec 8)) (offs : List (BitVec 32)) (fail : Nat)
  /-- A descriptor completes: it meets any barrier, writes its status word and raises its interrupt. (R164) -/
  | descriptorComplete (ch : Nat)
  /-- The zero-length barrier read to host memory completes, or fails with HOST_READ_ERROR. (R165) -/
  | barrierReadComplete (ch : Nat) (ok : Bool)
  -- spec/05 spool
  /-- A drive's controller reports ready, and the device identifies and admits it. (R736) -/
  | driveReady (d : Nat) (fits : Bool) (capacity : Nat)
  /-- A drive has not reported ready within its CAP.TO, and it is marked failed. (R736) -/
  | driveReadyTimeout (d : Nat)
  /-- An NVMe read, write, flush or catalogue command completes or fails. (R190) -/
  | nvmeCommandComplete (id : Nat) (result : Nat)
  /-- An NVMe command not completed after 1 s counts as a failure and is issued again. (R183) -/
  | nvmeCommandTimeout (id : Nat)
  /-- A drive reports fatal status, drops its link or fails 16 commands, and is marked failed. (R183) -/
  | driveFailed (d : Nat)
  /-- The write counter reaches 2^63, and the next epoch starts before another extent is written. (R201) -/
  | epochRollover (journalOk burnOk saltOk : Bool)
  /-- A write of SPL_QUOTA or SPL_DIRECT sets a slice's quota or direct region, or is refused. (R187) -/
  | sliceQuotaWrite (fn : Nat) (direct : Bool) (value : BitVec 32)
  /-- A non-zero write of SPL_SL_TRIM starts a trim of direct extents. (R206) -/
  | sliceTrim (fn count : Nat)
  /-- A trim finishes, sets TRIM_DONE and reports the extents skipped. (R206) -/
  | sliceTrimDone (fn : Nat)
  /-- A non-zero write of SPL_SL_ENUM_CTRL starts a listing of the function's page identifiers. (R194) -/
  | sliceEnum (fn max : Nat)
  /-- The listing ends: ENUM_CNT and ENUM_DONE are set and the slice vector is signalled. (R194) -/
  | sliceEnumDone (fn : Nat)
  /-- Training of a root-port link ends, with the link up or the drive behind it found not present. (R736) -/
  | spoolLinkTrained (d : Nat) (up : Bool)
  -- spec/06 Korip
  /-- GO starts a codec job, or continues an open L encode in WAITING. (R243) -/
  | korJobGo (slot : Nat) (flush close : Bool)
  /-- FLUSH ends the current L block of an open encode, or is held while the job runs. (R244) -/
  | korJobFlush (slot : Nat) (close : Bool)
  /-- CLOSE ends an open L encode with END and enters DONE, or is held while the job runs. (R244) -/
  | korJobClose (slot : Nat)
  /-- ABORT stops a running or waiting job with code ABORTED. (R245) -/
  | korJobAbort (slot : Nat)
  /-- An open L encode consumes its input, enters WAITING and carries out any held FLUSH or CLOSE. (R244) -/
  | korJobWaiting (slot : Nat)
  /-- A codec job completes with its code and raises KOR_JOB_DONE. (R247) -/
  | korJobDone (slot : Nat) (ecc : Option Nat)
  -- spec/07 tile composer
  /-- A page's placement list lands in DRAM, and the composer reads the named directory entries. (R265) -/
  | placementListLanded (st : Nat)
  /-- The directory entries have been read: tiles are requested for loading and the page is judged for risk. (R270) -/
  | directoryEntryRead (st : Nat) (failed : Option Nat) (tag : Bool)
  /-- A tile load from the spool into the tile store completes. (R265) -/
  | tileLoadComplete (fn tile : Nat)
  /-- A tile load that waited for room resumes when holds end. (R265) -/
  | tileLoadResume (fn tile : Nat)
  /-- Setting EN on a pin entry loads its tile range into the pinned area, or is refused. (R266) -/
  | pinEnable (entry : Nat) (value : BitVec 32)
  /-- Clearing EN on a pin entry unpins its range. (R266) -/
  | pinDisable (entry : Nat) (value : BitVec 32)
  /-- The whole range of a pin is in the pinned area, and RESIDENT becomes 1. (R266) -/
  | pinResident (entry : Nat)
  -- spec/08 Flumes
  /-- At a sweep trigger, the scheduler releases a furrow whose ring lines, lead and source data allow it. (R295) -/
  | furrowRelease (st : Nat)
  /-- A Flume completes a furrow, or a redo of one, in the output ring. (R297) -/
  | furrowComplete (flume : Nat) (ecc : Option Nat) (corrected : Bool)
  /-- A furrow's source data is still absent 150 µs before its deadline, and the page is spoiled DATA_MISSING. (R298) -/
  | furrowDataDeadline (st : Nat)
  /-- A furrow is not complete at its deadline: the sweep prints blank and the page is spoiled. (R298) -/
  | furrowLate (st : Nat)
  /-- A Flume shows no handshake for 20 µs: it is fenced and its furrow is queued for redo. (R302) -/
  | flumeStall (flume : Nat)
  /-- UNFENCE on a fenced Flume in READY runs its built-in test. (R306) -/
  | flumeUnfence (flume : Nat)
  /-- A Flume's test furrow ends, and the Flume is returned to service or stays fenced. (R305) -/
  | flumeTestDone (flume : Nat) (pass : Bool)
  /-- A station-table write enters the pending log, or is lost to a full log. (R293) -/
  | stationTableWrite (master off : Nat) (value : BitVec 32)
  /-- The pending entries of an idle station are applied. (R294) -/
  | tableLogIdleApply (st : Nat)
  -- spec/09 scan timing
  /-- A quadrature count arrives on an encoder input and advances the trackers and counters that use it. (R315) -/
  | encoderCount (n : Nat) (a b : Bool)
  /-- A photoconductor encoder is lost, and its station falls back to the web line count as a C1. (R320) -/
  | pcEncoderLost (st : Nat)
  /-- A station's line count reaches its trigger phase, which emits a sweep trigger. (R322) -/
  | sweepTrigger (st : Nat)
  /-- A beam-detect pulse arrives, and its phase error is measured and time-stamped. (R330) -/
  | bdPulse (st : Nat)
  /-- A predicted BD pulse does not arrive within ±2 % of the facet period. (R333) -/
  | bdMissed (st : Nat)
  /-- No BD arrives by the trigger plus LOSS during a printing sweep, which is a loss of lock and a C3. (R332) -/
  | lockLossTimeout (st : Nat)
  /-- After 256 revolutions in lock, the facets are identified, or FID_FAIL is set. (R334) -/
  | facetIdDone (st : Nat)
  /-- D taps after BD, pixel 0 starts and the scan window opens. (R339) -/
  | scanWindowOpen (st : Nat)
  /-- A zone of 1,500 pixels begins, and the modulator takes its zone trim. (R337) -/
  | zoneStart (st zone : Nat)
  /-- Pixel 47,999 ends, the window closes and the forwarded clock stops. (R336) -/
  | scanWindowClose (st : Nat)
  /-- A write of the requested class is refused, served at once outside RUN, or queued for a page gap. (R348) -/
  | classRequest (master : Nat) (value : BitVec 32)
  /-- A PLL starts a lock with a band search and loads its dither seed. (R343) -/
  | pllLockStart (pll : Nat)
  /-- LOCKF reaches 0.80 V and lock is declared. (R345) -/
  | pllLockDeclared (pll : Nat)
  /-- LOCKF falls below 0.60 V and loss of lock is declared. (R345) -/
  | pllLockLost (pll : Nat)
  /-- A lock attempt is not declared within 2 ms, and after three the PLL is FAILED. (R347) -/
  | pllLockTimeout (pll : Nat)
  /-- A FAILED pixel PLL of an idle station retries once per second. (R347) -/
  | pllRetry (pll : Nat)
  /-- A write of RELOCK starts a new lock of a pixel PLL. (R347) -/
  | pllRelock (pll : Nat)
  /-- Setting a beam-link port's ENABLE starts training. (R355) -/
  | blEnable (bl : Nat)
  /-- Clearing ENABLE stops the port unless a routed station is printing. (R355) -/
  | blDisable (bl : Nat)
  /-- A write of RETRAIN starts training again, including from FAILED. (R355) -/
  | blRetrain (bl : Nat)
  /-- 100 µs into training, the port starts sending ALIGN blocks. (R355) -/
  | blTrainAlign (bl : Nat)
  /-- Every 50 µs during training, the head's LINK_STATUS is read, and the port becomes UP when it reports lock. (R355) -/
  | blTrainPoll (bl : Nat)
  /-- A training attempt fails to reach UP within 10 ms, and after three the port is FAILED. (R355) -/
  | blTrainTimeout (bl : Nat)
  /-- A periodic read of the head's LINK_STATUS and LINK_ERR is made at least once per millisecond. (R356) -/
  | linkPoll (bl : Nat)
  /-- The device sends a sideband READ or WRITE request to a head. (R358) -/
  | sidebandTransaction (bl : Nat)
  /-- A head's sideband response arrives and is checked and applied. (R358) -/
  | sidebandResponse (bl : Nat) (data : List (BitVec 8))
  /-- No sideband response arrives within 4.0 µs, and the transaction is retried or the sideband is lost. (R359) -/
  | sidebandTimeout (bl : Nat)
  /-- A BUSY response is retried after 10 µs. (R359) -/
  | sidebandBusyRetry (bl : Nat)
  /-- A write of SCN_ROUTE sets a station's port and side, takes effect, waits with PEND, or is refused. (R360) -/
  | routeWrite (st : Nat) (value : BitVec 32)
  /-- A write of SCN_OFS takes effect while idle, or waits with PEND for a gap long enough. (R325) -/
  | offsetWrite (st : Nat) (value : BitVec 32)
  /-- CALREF becomes absent or present again, so CLK_STATUS.CALREF_OK changes and tap calibration stops or resumes. (R340) -/
  | calrefOkChange (present : Bool) (err : BitVec 16)
  -- spec/10 exposure and heads
  /-- Every PERIOD_MS, the device reads HEAD_STATUS, GAIN and MON from the head. (R384) -/
  | monitorRead (st : Nat)
  /-- A 1 ms ring-oscillator measurement of one replica tap completes, and a full pass updates MEAS. (R394) -/
  | tapCalMeasure (st count : Nat)
  /-- A write of SCN_CTRL.HALF outside RUN enters or leaves half-advance and scales the set-points. (R381) -/
  | halfAdvanceWrite (master : Nat) (value : BitVec 32)
  -- spec/11 inspection
  /-- All four scan-link lanes lock and deskew, and the port becomes UP. (R404) -/
  | scanLinkLock (side : Nat)
  /-- A scan-link lane loses lock, the port returns to LOCKING, and any calibration capture ends. (R404) -/
  | scanLinkLockLoss (side : Nat) (lanes : BitVec 4)
  /-- A CIS line arrives whole, is placed on the web and resampled into page rows. (R403) -/
  | cisLine (side : Nat) (lanes : List (List (Bool × BitVec 64)))
  /-- A side's result completes, is queued and gives the page its VERDICT. (R421) -/
  | inspectionResultComplete (side : Nat)
  /-- A write of INS_ACK with the head's SEQ removes the head result. (R425) -/
  | insAck (side seq : Nat)
  /-- GO with OP WHITE starts a 1,024-line capture for flat-field gains. (R432) -/
  | calWhite (side : Nat)
  /-- GO with OP CHART starts a capture for the colour matrix. (R432) -/
  | calChart (side : Nat)
  /-- A calibration capture ends and its gains or matrix are computed or refused. (R433) -/
  | calCaptureDone (side : Nat)
  /-- The audit export ends with its code and signals the side vector. (R440) -/
  | auditExportDone (fail : Nat)
  -- spec/12 loops
  /-- CMD OFF takes a loop to OFF and drives SAFE. (R445) -/
  | loopOff (lp : Nat)
  /-- CMD OPEN opens a loop after its checks, priming B1, or reopens a closed loop. (R445) -/
  | loopOpen (lp : Nat)
  /-- CMD CLOSE closes an open loop after its checks and computes its constants. (R445) -/
  | loopClose (lp : Nat)
  /-- At a sample instant, a loop evaluates its measurement and control law. (R453) -/
  | loopSample (lp : Nat) (code : BitVec 16) (ecc : Nat)
  /-- 5,000 ns after the sample instant, the output reaches its sink, or an overrun is counted. (R448) -/
  | loopOutput (lp : Nat) (late : Bool)
  /-- A scanned ADC channel is converted in round robin. (R450) -/
  | adcScanConversion (ch : Nat) (code : BitVec 16)
  /-- A PWM carrier period starts and takes its new duty. (R463) -/
  | pwmCarrierPeriod (c : Nat)
  /-- 64 facets in ACQUIRE without BD shift the coarse offset by 15 % of P. (R466) -/
  | polySearchShift (st : Nat)
  -- spec/13 axes
  /-- CMD ENABLE measures the comparator delays and energises a DISABLED axis. (R479) -/
  | axEnable (ax : Nat)
  /-- The delay measurement ends and the axis enters IDLE. (R496) -/
  | axEnableComplete (ax : Nat) (ta tb : List Nat)
  /-- CMD DISABLE sets gates 0b00 and discards REM. (R479) -/
  | axDisable (ax : Nat)
  /-- CMD MOVE_ABS plans a move to MOT_AX_TARGET, replanning any move in progress. (R481) -/
  | axMoveAbs (ax : Nat) (arm : Bool)
  /-- CMD MOVE_REL plans a move by a relative distance. (R481) -/
  | axMoveRel (ax : Nat) (arm : Bool)
  /-- CMD JOG_POS runs the axis positive at VMAX until stopped. (R479) -/
  | axJogPos (ax : Nat) (arm : Bool)
  /-- CMD JOG_NEG runs the axis negative at VMAX until stopped. (R479) -/
  | axJogNeg (ax : Nat) (arm : Bool)
  /-- CMD STOP decelerates a moving axis at DEC to STOPPED. (R484) -/
  | axStop (ax : Nat)
  /-- CMD QSTOP decelerates an axis at QDEC. (R484) -/
  | axQstop (ax : Nat)
  /-- CMD RESUME runs a stopped axis to its original target. (R485) -/
  | axResume (ax : Nat) (arm : Bool)
  /-- CMD SETPOS sets the position and the encoder reference. (R479) -/
  | axSetpos (ax : Nat)
  /-- CMD CLEAR leaves FAULT for STOPPED, resynchronising to the encoder. (R488) -/
  | axClear (ax : Nat)
  /-- The interval timer expires and the axis makes a step event, ending a move or stop when due. (R476) -/
  | axStepEvent (ax : Nat)
  /-- Every 100 µs the deviation is checked, and two excesses are a stall. (R490) -/
  | axDeviationCheck (ax : Nat)
  /-- 10 ms after the last step event, lost steps are counted and the axis may resynchronise. (R491) -/
  | axSettleCheck (ax : Nat)
  /-- After HOLD_DLY at rest, the axis drops to holding current. (R497) -/
  | axHoldTimeout (ax : Nat)
  /-- A phase comparator crosses its threshold, and the chopper switches between DRIVE and DECAY. (R495) -/
  | chopThresholdCross (ax phase : Nat)
  /-- The fast part of a MIXED decay ends and the phase goes to slow decay. (R495) -/
  | chopMixEnd (ax phase : Nat)
  /-- A DRIVE interval lasts MAX_ON without reaching U, which counts toward OPEN_LOAD. (R498) -/
  | chopMaxOnTimeout (ax phase : Nat)
  /-- BLANK × 10 ns after a gate change, the comparator is looked at again; a level already at U ends DRIVE and counts toward OVERCURRENT. (R495) -/
  | chopBlankingEnd (ax phase : Nat) (atLevel : Bool)
  -- spec/14 lateral chain, fans, turnout
  /-- An AX_GO action starts an axis's armed command. (R482) -/
  | taskAxGo (ax : Nat)
  /-- An AX_STOP action stops an axis at DEC. (R483) -/
  | taskAxStop (ax : Nat)
  /-- An AX_QSTOP action stops an axis at QDEC. (R483) -/
  | taskAxQstop (ax : Nat)
  /-- An AX_CAPTURE action latches an axis's position and encoder position. (R499) -/
  | taskAxCapture (ax : Nat)
  /-- A LOOP_INDEX action resets the zero of a loop's position source. (R458) -/
  | taskLoopIndex (lp : Nat)
  /-- An ENC_CAPTURE action copies an encoder count into TRN_ENC_CAP. (R531) -/
  | taskEncCapture (n : Nat)
  /-- A LAT_PULSE action forces a lateral output bit for CYCLES cycles. (R534) -/
  | taskLatPulse (i : Nat)
  /-- A software task's firing signals its vector and waits for ACK. (R531) -/
  | taskSwSignal (i : Nat)
  /-- A write of TRN_TK_STATE.ACK lowers a software task's pending count. (R532) -/
  | taskAck (tk n : Nat)
  /-- A write of TRN_TK_SRC or TRN_TK_CFG takes effect in the next round, and clearing EN zeroes PEND. (R533) -/
  | taskConfigWrite (tk : Nat) (source : Bool) (value : BitVec 32)
  /-- A write of TRN_SW raises software events. (R530) -/
  | swEventRaise (bits : BitVec 8)
  /-- A turnout timer's period expires and raises TIMER. (R534) -/
  | timerExpire (i : Nat)
  /-- A write of TRN_WC_HI arms a web compare. (R534) -/
  | webCompareArm (i : Nat) (value : BitVec 32)
  /-- The web line count reaches an armed compare value and raises WEB_CMP once. (R534) -/
  | webCompareFire (i : Nat)
  /-- ENABLE on a lateral port puts it in ENUM. (R511) -/
  | latPortEnable (p : Nat)
  /-- Clearing ENABLE stops the port unless a loop binds it. (R537) -/
  | latPortDisable (p : Nat)
  /-- RESCAN outside RUN enumerates the port again. (R511) -/
  | latRescan (p : Nat)
  /-- In ENUM, an ENUM frame is sent every 1 ms. (R511) -/
  | latEnumSend (p : Nat)
  /-- A good ENUM frame returns, and the port enters RUN or MISMATCH. (R509) -/
  | latEnumReturn (p : Nat) (frame : Option (List (BitVec 8)))
  /-- A cycle starts: the CYCLIC frame and at most one MBX or JOIN frame are sent. (R513) -/
  | latCycleStart (p : Nat)
  /-- A CYCLIC frame returns, and the input images update or the frame counts as bad. (R516) -/
  | latCyclicReturn (p : Nat) (frame : Option (List (BitVec 8)))
  /-- A write of an output image word is carried by the next cycle, unless a loop binds it. (R516) -/
  | latOimgWrite (p node w : Nat) (value : BitVec 32)
  /-- GO with CMD READ starts a lateral mailbox read. (R518) -/
  | latMbxRead (p : Nat)
  /-- GO with CMD WRITE starts a lateral mailbox write. (R518) -/
  | latMbxWrite (p : Nat)
  /-- An MBX frame returns with the node's STATUS, advancing or ending the transfer. (R518) -/
  | latMbxReturn (p : Nat) (frame : Option (List (BitVec 8)))
  /-- No final answer within 100 ms of ACCEPTED ends the transfer with TIMEOUT. (R518) -/
  | latMbxTimeout (p : Nat)
  /-- Every 100 ms while a node is LOST, a JOIN frame targets the next lost node. (R522) -/
  | latJoinSend (p : Nat)
  /-- A JOIN frame returns, and a node that answers ALIVE enters JOINING. (R522) -/
  | latJoinReturn (p : Nat) (frame : Option (List (BitVec 8)))
  /-- A write of DUTY sets the fan's duty, starts a kick from 0, or turns the fan OFF. (R525) -/
  | fanDutyWrite (fc : Nat) (duty : BitVec 16)
  /-- A 2 s kick ends and the fan enters RUN or WAIT. (R525) -/
  | fanKickEnd (fc rpm : Nat)
  /-- 5 s after an attempt, the fan kicks again, or enters FAULT after the third. (R525) -/
  | fanRetry (fc : Nat)
  /-- Every 100 ms the fan speed is measured from the tach period. (R524) -/
  | fanMeasure (fc rpm : Nat)
  /-- No tach edge for four expected periods drives the fan at 100 % in TACH_LOST. (R526) -/
  | fanTachLost (fc : Nat)
  /-- 10 s of good tach edges return the fan to RUN. (R527) -/
  | fanTachRecover (fc : Nat)
  /-- CLEAR in FAULT turns the fan OFF and restarts it if DUTY is non-zero. (R527) -/
  | fanClear (fc : Nat)
  -- spec/16 field network, and the calibration stores of spec/19
  /-- The MainDevice requests an AL state transition, which is made or refused with a status code. (R576) -/
  | alStateRequest (target : Nat) (station : BitVec 16) (mbxOk : Bool) (sm2 sm3 sync0 : Nat) (siiOk : Bool)
  /-- At the sync trigger, the RxPDOs of an SM2 buffer are applied as one action. (R582) -/
  | rxpdoApply (data : List (BitVec 8))
  /-- A SYNC0 edge samples the TxPDOs and measures the DC offset. (R584) -/
  | sync0Edge (dcTime : BitVec 64) (fresh : Bool)
  /-- Every 1 ms while SYNC0 is inactive, the DC offset is measured. (R586) -/
  | dcOffsetMeasure (dcTime : BitVec 64)
  /-- An FoE write in BOOT stages a firmware or SII package and checks it after the last segment. (R588) -/
  | foeWrite (name : String) (password : BitVec 32) (packet : Nat) (data : List (BitVec 8)) (last : Bool)
  /-- An FoE read request is refused with 0x8002. (R589) -/
  | foeRead (name : String)
  /-- A request for an unsupported mailbox protocol is answered with error 0x0002. (R573) -/
  | mailboxUnsupported (protocol : Nat)
  /-- An EtherCAT port's link goes up or down, and port 1 loops closed while down. (R573) -/
  | ectLinkChange (port : Nat) (up : Bool)
  /-- A write of object 0x5800:03 stores the given calibration payload as it stands. (R708) -/
  | calSetWrite (payload : List (BitVec 8))
  /-- A calibration store finishes its write and verify, or fails. (R707) -/
  | calStoreComplete (ok : Bool)
  -- spec/17 power, pace, rails, temperature, boot
  /-- A write of the requested power state starts the chain of steps toward it, or is refused. (R602) -/
  | powerStateRequest (value : Nat)
  /-- Deassertion of POR_N starts the boot timeline. (R738) -/
  | powerOnReset (strap testMode siiOk : Bool)
  /-- The PMIC reports power-good for an enable, and the next enable rises. (R606) -/
  | pmicPowerGood (enable : Nat)
  /-- A supply is not good within 2 ms, and the boot stops and lowers the enables. (R606) -/
  | pmicEnableTimeout (enable : Nat)
  /-- Every 100 ms, the PMIC outputs are polled over PMBus. (R607) -/
  | pmbusPoll (ok : Bool) (fault : Option Nat)
  /-- Every 100 µs, the pace monitors' slack is computed and the core voltage is governed. (R608) -/
  | paceEvaluate (slack : List (BitVec 16)) (vread : Nat)
  /-- Every 100 µs each rail is read and checked for UV and OV warnings and faults. (R612) -/
  | railMonitorReading (codes : List (BitVec 12))
  /-- A rail's PG input stays low for 2 µs. (R612) -/
  | railPgDrop (k : Nat)
  /-- A rail's PG input goes high, so the rail may become good, a waiting WAITPG ends and the PG-drop check re-arms after 2 µs. (R613) -/
  | railPgRise (k : Nat)
  /-- BLANK ms after a rail's EN rises, the rail's checks start to apply and the rail may become good. (R612) -/
  | railBlankEnd (k : Nat)
  /-- A write of a sequencer program word is stored, or refused if invalid. (R616) -/
  | seqProgramWrite (i : Nat) (value : BitVec 32)
  /-- Sequencer WAITPG waits for a rail to be good or for the time to pass. (R616) -/
  | seqWaitpg (expired : Bool)
  /-- A 320 µs round reads every die sensor, updates the exclusions and computes HOT. (R620) -/
  | thermalSensorRound (temps : List (BitVec 16))
  /-- DRAM training at boot step 6 ends, the XTS key is made and installed DRAM is measured, or the boot stops at the DRAM stage. (R626) -/
  | dramTrained (ok : Bool) (channel installed : Nat)
  /-- The boot ROM finishes verifying a firmware slot and starts the control cores as READY_HOST, or ends in BOOT_FAILED. (R652) -/
  | firmwareVerified (dir : Nat × Nat × Nat) (hdrA : Option (List (BitVec 8))) (payA : List (BitVec 8)) (hdrB : Option (List (BitVec 8))) (payB : List (BitVec 8)) (journalOk burnOk : Bool)
  -- spec/18 OTP, security, JTAG
  /-- OP READ_S reads a class S word. (R639) -/
  | otpReadS (addr : Nat)
  /-- OP WRITE_S programs and verifies a class S word in BLANK. (R639) -/
  | otpWriteS (addr : Nat)
  /-- OP SET_P programs class P bits, redirecting the row if needed. (R635) -/
  | otpSetP (addr : Nat)
  /-- An OTP operation ends, and BUSY falls with its code. (R639) -/
  | otpOperationDone (bad : BitVec 64) (err : Nat)
  /-- A lifecycle request to SECURED writes the keys and marker 1. (R647) -/
  | lcRequestSecured (key : Nat)
  /-- A lifecycle request to RETURNED obliterates the keys and writes marker 3. (R648) -/
  | lcRequestReturned (key : Nat)
  /-- A lifecycle transition completes, and the latches reload. (R646) -/
  | lcTransitionDone (bad : Bool)
  /-- A write of REVOKE_TO advances the token thermometer. (R659) -/
  | tokenRevoke (count : Nat)
  /-- SUBMIT, object 0x5000:03 or SEC_MBX submits a debug token for checking. (R659) -/
  | tokenSubmit (token : Option (List (BitVec 8)))
  /-- The SAMPLE/PRELOAD instruction samples or preloads the boundary cells. (R663) -/
  | jtagSamplePreload (cells : List Bool)
  /-- The SEC_MBX instruction reaches the SEC block and the OTP command path. (R663) -/
  | jtagSecMbx (write : Bool) (off : Nat) (data : BitVec 32)
  /-- The DBG_ACCESS instruction reads or writes registers within the session's reach. (R660) -/
  | jtagDbgAccess (op : Nat) (addr : BitVec 64) (data : BitVec 64)
  /-- The OTP_ACCESS instruction gives provisioning access to the OTP. (R663) -/
  | jtagOtpAccess (op addr : Nat) (data : BitVec 64)
  -- spec/19 Sump, Headgate, event records
  /-- Every 1 µs, the duplicated FLT and HDG configuration is compared, and a mismatch is a C4. (R681) -/
  | selfCheckCompare (flt hdg : Bool)
  /-- A cover interlock opens or closes, cutting its mapped outputs and raising C4 in RUN. (R689) -/
  | interlockChange (cover : Nat) (isOpen : Bool)
  /-- A polygon tach edge arrives and updates the station's speed gate. (R690) -/
  | tachEdge (enc : Nat)
  /-- No tach edge arrives within the limit, and the speed gate shuts. (R690) -/
  | speedGateTimeout (st : Nat)
  /-- An emitter line's on-time count passes HDG_ONMAX, cutting its station as a C4. (R691) -/
  | emitterOntimeExceeded (st emitter : Nat)
  /-- Every 100 µs each station's 10 ms duty is computed, and an excess cuts the station as a C3. (R692) -/
  | dutyEvaluate (onTimes : List (List Nat))
  /-- A write of a Headgate limit with its complement takes effect outside RUN, or is refused. (R694) -/
  | hdgLimitWrite (off : Nat) (value : BitVec 32)
  /-- A mirrored event record is written to the record flash ring. (R702) -/
  | recordFlashWrite (ok : Bool)
  /-- A write of EVR_RD_SEQ selects a record, which becomes READY in EVR_RD_DATA. (R704) -/
  | recordRead (seq : BitVec 32)
  /-- A clear request is checked and begins erasing the event ring. (R705) -/
  | recordClear (value : BitVec 32)
  -- spec/15 Culvert ring, and the calibration sweep of spec/11 that runs over it
  /-- A member receives XCAL_START and begins sending its features. (R567) -/
  | xcalStartMsg (east : Bool) (msg : List (BitVec 8))
  /-- The measuring device receives a member's feature list for a page. (R436) -/
  | xcalFeatures (east : Bool) (msg : List (BitVec 8))
  /-- A member receives its targets, holds them and replies. (R437) -/
  | xcalTargets (east : Bool) (msg : List (BitVec 8))
  /-- The master receives a reply that completes a step, or makes it absent. (R437) -/
  | xcalReply (east : Bool) (msg : List (BitVec 8))
  /-- Each device receives COMMIT and adopts the sweep's targets. (R437) -/
  | xcalCommit (east : Bool) (msg : List (BitVec 8))
  /-- Each device receives ABANDON and discards every target of the sweep. (R438) -/
  | xcalAbandon (east : Bool) (msg : List (BitVec 8))
  /-- ENABLE on the Culvert ring joins the device, and the last enable starts bring-up. (R542) -/
  | culEnable (on : Bool)
  /-- A Culvert port becomes UP after training. (R544) -/
  | culPortUp (east : Bool)
  /-- A Culvert port loses block lock, is wrapped and the ring folds. (R561) -/
  | culPortDown (east : Bool) (lanes : BitVec 4)
  /-- A port receives FOLD and wraps itself. (R561) -/
  | culFoldReceived (east : Bool)
  /-- INDEX arrives: a device takes its index, or the master takes the completed table. (R548) -/
  | culIndex (east : Bool) (msg : List (BitVec 8))
  /-- A member receives DELAY_REQ and answers with DELAY_RSP. (R549) -/
  | culDelayReq (east : Bool) (turn : Nat) (msg : List (BitVec 8))
  /-- The master receives DELAY_RSP and computes the path delay. (R549) -/
  | culDelayRsp (east : Bool) (msg : List (BitVec 8))
  /-- A member applies the first copy of a TIMEBASE and steers its timebase and web line count. (R550) -/
  | culTimebase (east : Bool) (wait : Nat) (msg : List (BitVec 8))
  /-- The master receives a member's STATUS. (R554) -/
  | culStatus (east : Bool) (msg : List (BitVec 8))
  /-- A device receives FAULT and raises the same class. (R555) -/
  | culFault (east : Bool) (msg : List (BitVec 8))
  /-- The master receives a member's PART_COMMIT and holds it until its take time. (R556) -/
  | culPartCommit (east : Bool) (msg : List (BitVec 8))
  /-- A member with no SCHEDULE naming its part after 1 ms sends PART_COMMIT again. (R559) -/
  | culPartResend (pageId : BitVec 64)
  /-- A member receives SCHEDULE for a frame. (R558) -/
  | culSchedule (east : Bool) (msg : List (BitVec 8))
  /-- A member receives PAGE_SPOIL and spoils its part. (R560) -/
  | culPageSpoil (east : Bool) (msg : List (BitVec 8))
  /-- A member receives a tunnelled dictionary request and answers with OD_RSP. (R566) -/
  | culOdReq (east : Bool) (msg : List (BitVec 8))
  /-- The master receives the tunnelled response and completes the SDO. (R566) -/
  | culOdRsp (east : Bool) (msg : List (BitVec 8))
  /-- The master receives FOLD_NOTICE and resends recent broadcasts and unanswered unicasts. (R562) -/
  | culFoldNotice (east : Bool) (msg : List (BitVec 8))
  /-- A device receives UNFOLD naming the SEQ at which it unwraps. (R565) -/
  | culUnfoldMsg (east : Bool) (msg : List (BitVec 8))
  /-- A Culvert message arrives that this device does not consume, and it is forwarded with HOPS raised, removed, or discarded as bad or duplicate. (R545) -/
  | culMessageForward (east : Bool) (good : Bool) (msg : List (BitVec 8))
  -- spec/00 and spec/01 accesses, clocks and the dictionary server: commands without operands
  /-- An SDO transfer that waited while another was in progress starts when the dictionary server becomes free. (R43) -/
  | sdoQueuedStart
  -- spec/02 pages and frames: commands without operands
  /-- A frame's first latch line passes and fixes its descriptor at every station. (R64) -/
  | firstLatch
  /-- In sheet mode the device raises FEED_REQUEST for the next committed page once the gap allows it. (R92) -/
  | feedRequest
  /-- No sheet edge arrives within the window of a requested feed, which is a C3. (R94) -/
  | sheetEdgeTimeout
  -- spec/03 host port: commands without operands
  /-- A PF mailbox UPLOAD request reads an object, or its first segment, as one consistent snapshot. (R139) -/
  | mbxUpload
  /-- A PF mailbox DOWNLOAD request carries an object value, or a segment of one, that takes effect at the last segment. (R139) -/
  | mbxDownload
  /-- A PF mailbox complete-access upload reads every subindex of one index. (R138) -/
  | mbxUploadComplete
  /-- A PF mailbox complete-access download writes every subindex of one index or none. (R138) -/
  | mbxDownloadComplete
  /-- A PF mailbox GET_OD_LIST request returns an object list. (R138) -/
  | mbxGetOdList
  /-- A PF mailbox GET_OBJECT_DESC request returns an object's description. (R138) -/
  | mbxGetObjectDesc
  /-- A PF mailbox GET_ENTRY_DESC request returns an entry's description. (R138) -/
  | mbxGetEntryDesc
  /-- No next segment arrives within HIF_MBX_TIMEOUT, so the transfer aborts 0x0504_0000 and releases the dictionary server. (R140) -/
  | mbxSegmentTimeout
  /-- The host interface takes its turn on a RUNNING queue whose tail differs from its head and issues the descriptor read. (R108) -/
  | sqServe
  /-- Assertion of PERST_N resets the host interface as a PF FLR, and is a C3 in RUN. (R134) -/
  | perstAssert
  /-- PERST_N is deasserted, the PCIe PHY leaves reset and the endpoint starts training toward readiness. (R135) -/
  | perstDeassert
  -- spec/05 spool: commands without operands
  /-- A write of 1 to SPL_CTRL.ENABLE starts link training and drive admission. (R736) -/
  | spoolEnable
  /-- A write of 0 to SPL_CTRL.ENABLE refuses spool writes after the open writes end. (R204) -/
  | spoolDisable
  /-- The page catalogue has been read, and RECOVERING clears. (R193) -/
  | spoolRecoveryDone
  -- spec/07 tile composer: commands without operands
  /-- After a class change, a page is judged again at its first latch line minus one. (R270) -/
  | riskReevaluate
  -- spec/08 Flumes: commands without operands
  /-- A lost furrow's redo starts on the reserve or on the first Flume to become idle. (R303) -/
  | redoStart
  /-- Every 1 ms, the underrun predictor evaluates each station's raster ring. (R307) -/
  | predictorEvaluate
  -- spec/09 scan timing: commands without operands
  /-- The web encoder gives no count for eight expected periods, or illegal transitions, which is a C4. (R320) -/
  | webEncoderLost
  /-- At the page gap after the last latched page, the class change or run-up ramp begins. (R349) -/
  | classChangeStart
  /-- The web has held speed for 100 ms and every station is LOCKED, so the new class is in force. (R349) -/
  | classSettled
  /-- Settling is not reached within TIMEOUT_MS, which is a C3. (R349) -/
  | classRampTimeout
  /-- Pending route exchanges take effect together when every station concerned is idle or in a gap. (R362) -/
  | routeExchangeApply
  -- spec/11 inspection: commands without operands
  /-- GO starts the export of a page's audit capture to the free pool. (R440) -/
  | auditExport
  -- spec/14 lateral chain, fans, turnout: commands without operands
  /-- In each 4 ns round, every enabled task counts the firings of its slots' events from the round before. (R529) -/
  | turnoutRound
  /-- A TIMER_START action restarts the period of every enabled timer. (R531) -/
  | taskTimerStart
  /-- A TOF_CAPTURE action copies the web line count and, in sheet mode, fixes a sheet's top-of-form. (R93) -/
  | taskTofCapture
  -- spec/15 Culvert ring, and the calibration sweep of spec/11 that runs over it: commands without operands
  /-- START on the master begins a cross-device calibration sweep. (R436) -/
  | xcalStart
  /-- ABORT abandons a running sweep. (R438) -/
  | xcalAbort
  /-- After the last measured verdict, the master begins collection step by step. (R437) -/
  | xcalCollect
  /-- A collection step gets no reply within 1 ms, and the sweep is abandoned. (R438) -/
  | xcalStepTimeout
  /-- A member holding targets gets neither COMMIT nor ABANDON within 10 ms and discards them. (R438) -/
  | xcalTargetTimeout
  /-- RESTART on the master starts ring bring-up outside RUN. (R548) -/
  | culRestart
  /-- UNFOLD on the master starts the unfold check at once. (R565) -/
  | culUnfold
  /-- Every 1 ms in INDEX, the master sends INDEX eastbound. (R548) -/
  | culIndexSend
  /-- Every 10 µs, the master sends TIMEBASE both ways. (R550) -/
  | culTimebaseSend
  /-- A member has applied no TIMEBASE for 30 µs. (R552) -/
  | culTimebaseLost
  /-- Every 1 ms, each member sends STATUS to the master. (R554) -/
  | culStatusSend
  /-- 20 µs after its stamp, the master takes a part into the line schedule. (R557) -/
  | culPartTake
  /-- No tunnelled response arrives within 100 ms, and the access aborts. (R566) -/
  | culTunnelTimeout
  /-- Wrapped ports have been UP for 100 ms, and the master broadcasts UNFOLD. (R565) -/
  | culUnfoldCheck
  /-- At the departure of the named TIMEBASE, the wrapped ports unwrap. (R565) -/
  | culUnwrap
  -- spec/16 field network, and the calibration stores of spec/19: commands without operands
  /-- No SM2 write arrives in the watchdog time, and the AL state falls to SAFE-OP. (R579) -/
  | sm2Watchdog
  /-- Without DC, the MainDevice's read of an SM3 buffer completes and the next TxPDO is sampled. (R584) -/
  | sm3ReadComplete
  /-- A write of 'save' to 0x1010:01 stores the settings into a calibration slot. (R593) -/
  | storeParameters
  /-- A write of 'load' to 0x1011:01 stores an empty slot so that defaults apply at the next boot. (R708) -/
  | restoreDefaults
  -- spec/17 power, pace, rails, temperature, boot: commands without operands
  /-- The step READY to RUN checks its conditions and runs up. (R603) -/
  | powerStepReadyToRun
  /-- The step RUN to READY finishes the latched pages and ramps the web to rest. (R603) -/
  | powerStepRunToReady
  /-- The step READY to STANDBY powers down the Flumes and links. (R603) -/
  | powerStepReadyToStandby
  /-- The step STANDBY to READY powers the Flumes and links up and trains them. (R603) -/
  | powerStepStandbyToReady
  /-- The step STANDBY to SLEEP stops engines, shuts the spool down and runs the down entry. (R603) -/
  | powerStepStandbyToSleep
  /-- The step SLEEP to STANDBY runs the up entry and restarts the spool. (R603) -/
  | powerStepSleepToStandby
  /-- The step SLEEP to HIBERNATE stops the control cores and lowers the core supplies. (R603) -/
  | powerStepSleepToHibernate
  /-- The step HIBERNATE to OFF lowers every PMIC enable and every rail EN. (R603) -/
  | powerStepHibernateToOff
  /-- A falling edge on WAKE_N held for 1 µs wakes the device from HIBERNATE. (R604) -/
  | wakeNFall
  /-- The always-on wake count expires and wakes the device from HIBERNATE. (R587) -/
  | dcWakeTimer
  /-- 1 s after a supply failure, the supply sequence is tried again, up to three times. (R606) -/
  | pmicRetry
  /-- VDD_AON below 0.78 V for 1 µs acts as POR_N. (R718) -/
  | vddAonLow
  /-- VDD_CORE below 0.70 V for 10 µs raises a C4. (R611) -/
  | vddCoreUndervolt
  /-- Sequencer END ends the run with its code. (R616) -/
  | seqEnd
  /-- Sequencer ENABLE sets a rail's request. (R616) -/
  | seqEnable
  /-- Sequencer DISABLE clears a rail's request and latch. (R616) -/
  | seqDisable
  /-- Sequencer WAIT waits T × 100 µs. (R616) -/
  | seqWait
  /-- Sequencer CHECK sets F from a rail condition. (R616) -/
  | seqCheck
  /-- Sequencer JUMP continues at the target. (R616) -/
  | seqJump
  /-- Sequencer JUMPIF continues at the target if F equals SENSE. (R616) -/
  | seqJumpif
  /-- A run exceeds LIMIT_MS and fails with code 0xFF. (R617) -/
  | seqLimitTimeout
  /-- The grace time ends, and the weir orders the target class or a slower one. (R621) -/
  | weirGraceExpiry
  /-- 30 s below 95 °C clears the shutdown and restarts the device. (R625) -/
  | thermalRestart
  /-- Assertion of SYS_RESET_N cuts the lasers, ends the pages as a C4 and resets everything but the always-on domain. (R730) -/
  | sysResetAssert
  /-- Deassertion of SYS_RESET_N boots from step 3. (R738) -/
  | sysResetRelease
  -- spec/18 OTP, security, JTAG: commands without operands
  /-- COMMIT advances the firmware thermometer to the running SVN. (R654) -/
  | svnCommit
  /-- A read of SEC_CHAL[0] draws a fresh 32-byte challenge. (R657) -/
  | challengeRead
  /-- The token checks end, and the token opens a session, makes a transition or is refused. (R659) -/
  | tokenCheckDone
  /-- CLOSE closes the debug session. (R661) -/
  | sessionClose
  /-- The session's LIFETIME elapses and it closes. (R661) -/
  | sessionExpired
  /-- A TRNG health test fails, which sets TRNG_FAIL. (R656) -/
  | trngHealthFail
  /-- After 1 ms of passing output, the TRNG serves requests again. (R656) -/
  | trngRecover
  /-- The BYPASS instruction selects the bypass register. (R663) -/
  | jtagBypass
  /-- The IDCODE instruction returns the device identifier. (R662) -/
  | jtagIdcode
  /-- Loading EXTEST raises a C4, and the instruction acts after Headgate cuts. (R664) -/
  | jtagExtest
  /-- Loading CLAMP raises a C4, and the instruction acts after Headgate cuts. (R664) -/
  | jtagClamp
  /-- Loading HIGHZ raises a C4, and the instruction acts after Headgate cuts. (R664) -/
  | jtagHighz
  -- spec/19 Sump, Headgate, event records: commands without operands
  /-- A fault report reaches the Sump, is classed, captured, queued and recorded, and its class effect is applied. (R674) -/
  | sumpReport
  /-- A report waits 1 µs without being taken and is lost, which raises FLT_OVR. (R680) -/
  | sumpReportLost
  /-- REARM clears the first-error capture. (R678) -/
  | sumpRearm
  /-- FLT_Q_POP removes the head of the report queue. (R679) -/
  | sumpPop
  /-- RELEASE clears a latched Sump. (R687) -/
  | sumpRelease
  /-- The quiet period passes, and the Sump recovers and releases the Headgate cuts. (R685) -/
  | sumpRecovery
  /-- A write of FLT_HB.KICK restarts the heartbeat time. (R682) -/
  | heartbeatKick
  /-- No kick arrives within the heartbeat period, which raises a C4. (R682) -/
  | heartbeatTimeout
  /-- Every half of the 1 ms period, ALIVE toggles while its conditions hold. (R683) -/
  | aliveToggle
  /-- The clear finishes erasing and CLEARING returns to 0. (R705) -/
  | recordClearDone
  deriving DecidableEq, Repr

end Sys2Proof
end

