-- ==== Sys2Proof/Decode.lean ====
section
/-! DEFINITION. The commands that words spell by the bits of spec/opcode_table.json: the table gives no row any bits, so no word spells a command. -/
namespace Sys2Proof

/-- The command that a word of the table spells: none (every row's list of fields is empty). -/
def decodeTableWord (_nbits _w : Nat) : Option Instr := none

end Sys2Proof
end

