-- ==== Sys2Proof/Config.lean ====
section
/-! DEFINITION. What one part fixes: the variant fused into it (R6), and the free values: results the spec leaves open. -/
namespace Sys2Proof

/-- The three parts sold from one die (R6). -/
inductive Variant where
  | sx1296 | sx0864 | sx0432
  deriving DecidableEq, Repr, Inhabited

/-- Stations enabled by the fuses (R6, R7). -/
def Variant.stations : Variant → Nat
  | .sx1296 => 12 | .sx0864 => 8 | .sx0432 => 4

/-- Fastest permitted speed class (R6, R7). -/
def Variant.fastest : Variant → Nat
  | .sx1296 => 0 | .sx0864 => 0 | .sx0432 => 2

/-- Inspection sides, bit 0 front and bit 1 back (R7). -/
def Variant.sides : Variant → Nat
  | .sx1296 => 3 | .sx0864 => 3 | .sx0432 => 1

/-- Tile composer present (R7). -/
def Variant.composer : Variant → Bool
  | .sx0432 => false | _ => true

/-- Variant code (R7): the PF Device ID (R99). -/
def Variant.code : Variant → Nat
  | .sx1296 => 0x1296 | .sx0864 => 0x0864 | .sx0432 => 0x0432

/-- The feature word of a part (R644). -/
def Variant.feature : Variant → Nat
  | .sx1296 => 0x1296C031 | .sx0864 => 0x08648031 | .sx0432 => 0x04324210

/-- The regions of the 96 MiB of on-chip SRAM with their sizes in bytes (R26): the division is fixed. What each holds is in State: the station rings of
furrows and raster, the tile cache, the pages under the bars, the codec slots, the control cores' tables and objects. -/
def sramRegions : List (String × Nat) := [
  ("station output buffers", 12 * 6 * 2 ^ 20), ("tile cache", 12 * 2 ^ 20), ("inspection reference buffer", 8 * 2 ^ 20),
  ("codec and fabric buffers", 2 * 2 ^ 20), ("control memory", 2 * 2 ^ 20)]

namespace Config

/-- A free value: where the spec leaves a result open, the step takes the next of these. Nothing is known of it (assumption log 3). -/
opaque freeValue : Nat → BitVec 64

/-- The match the on-chip L encoder picks at a position of its input, as length and offset: the spec fixes the bounds of its search and not its
outcome (R237). It depends only on effort, input and position (R238); a match that does not hold is not used (assumption log 3). -/
opaque lMatch : Nat → List (BitVec 8) → Nat → Nat × Nat

/-- The feed timing of R94: web lines from a FEED_REQUEST to the edge of its sheet. The spec names it and gives no value (assumption log 3). -/
opaque feedLines : Nat

end Config
end Sys2Proof
end

