-- ==== Sys2Proof/Machine/Store.lean ====
section
/-! DEFINITION. Sparse stores: lists of (key, value) pairs with strictly rising keys. Registers, objects and memories are stores. -/
namespace Sys2Proof.Machine

/-- A sparse store. -/
abbrev Store (α : Type) := List (Nat × α)

/-- The value at `k`, or `d` where the store lists none. -/
def Store.getD {α : Type} (d : α) : Store α → Nat → α
  | [], _ => d
  | (j, v) :: t, k => if j = k then v else if k < j then d else Store.getD d t k

/-- The value at `k`, if the store lists one. -/
def Store.get? {α : Type} : Store α → Nat → Option α
  | [], _ => none
  | (j, v) :: t, k => if j = k then some v else if k < j then none else Store.get? t k

/-- Remove `k`. -/
def Store.erase {α : Type} : Store α → Nat → Store α
  | [], _ => []
  | (j, v) :: t, k => if j = k then t else if k < j then (j, v) :: t else (j, v) :: Store.erase t k

/-- List `v` at `k`, keeping the keys in rising order. -/
def Store.put {α : Type} : Store α → Nat → α → Store α
  | [], k, v => [(k, v)]
  | (j, w) :: t, k, v =>
    if j = k then (k, v) :: t else if k < j then (k, v) :: (j, w) :: t else (j, w) :: Store.put t k v

/-- Write `v` at `k` of a store whose unlisted keys read `d`: writing `d` removes the entry. -/
def Store.set {α : Type} [DecidableEq α] (d : α) (s : Store α) (k : Nat) (v : α) : Store α :=
  if v = d then s.erase k else s.put k v

/-- The keys rise strictly, all above `lo`. -/
def Store.risesFrom {α : Type} : Nat → Store α → Bool
  | _, [] => true
  | lo, (j, _) :: t => decide (lo ≤ j) && Store.risesFrom (j + 1) t

/-- The canonical form of a store whose unlisted key `k` reads `d k`: keys rise strictly, and no entry equals what
its key would read unlisted. -/
def Store.wf {α : Type} [DecidableEq α] (d : Nat → α) (s : Store α) : Bool :=
  s.risesFrom 0 && s.all (fun e => decide (e.2 ≠ d e.1))

/-- Drop every entry whose key lies in `lo … hi - 1`. -/
def Store.clearRange {α : Type} (s : Store α) (lo hi : Nat) : Store α :=
  s.filter (fun e => decide (e.1 < lo ∨ hi ≤ e.1))

/-- Change the value at `k` of a store whose unlisted keys read `d`. -/
def Store.modify {α : Type} [DecidableEq α] (d : α) (s : Store α) (k : Nat) (f : α → α) : Store α :=
  s.set d k (f (s.getD d k))

/-! ## Byte memories: an unlisted address reads 0 unless a definition says otherwise -/

/-- `n` bytes from address `a` (unlisted bytes read zero). -/
def Store.bytes (m : Store Byte) (a : Nat) : Nat → List Byte
  | 0 => []
  | n + 1 => m.getD 0 a :: Store.bytes m (a + 1) n

/-- Give the span of `old` bytes at `b` a size of `new`: it is emptied, and the bytes behind it, below `lim`, move with its end. -/
def Store.moveTail (m : Store Byte) (b old new lim : Nat) : Store Byte :=
  (m.filter (fun e => decide (b + old ≤ e.1 ∧ e.1 < lim))).foldl (fun (t : Store Byte) e =>
    if e.1 - old + new < lim then t.set 0 (e.1 - old + new) e.2 else t) (m.clearRange b lim)

/-- Write `bs` from address `a` upward. -/
def Store.putBytes (m : Store Byte) (a : Nat) : List Byte → Store Byte
  | [] => m
  | b :: t => Store.putBytes (m.set 0 a b) (a + 1) t

/-! ## Little-endian numbers in byte lists -/

/-- The number that little-endian bytes spell. -/
def leNat : List Byte → Nat
  | [] => 0
  | b :: t => b.toNat + 256 * leNat t

/-- `n` little-endian bytes of a number. -/
def leBytes : Nat → Nat → List Byte
  | 0, _ => []
  | n + 1, v => BitVec.ofNat 8 v :: leBytes n (v / 256)

/-- The little-endian number in bytes `a … a + n - 1` of a list; bytes beyond its end read zero. -/
def leAt (bs : List Byte) (a n : Nat) : Nat := leNat ((bs.drop a).take n)

/-- Bit `i` of a number. -/
def bit (v i : Nat) : Bool := v / 2 ^ i % 2 = 1

/-- Bits `lo … lo + w - 1` of a number. -/
def bits (v lo w : Nat) : Nat := v / 2 ^ lo % 2 ^ w

/-- The number of set bits among bits `0 … n - 1`. -/
def popcount (v : Nat) : Nat → Nat
  | 0 => 0
  | n + 1 => popcount v n + (if bit v n then 1 else 0)

/-- The signed reading of the low `w` bits. -/
def sgn (w v : Nat) : Int :=
  let x := v % 2 ^ w
  if x < 2 ^ (w - 1) then (x : Int) else (x : Int) - 2 ^ w

/-- The low `w` bits of an integer in two's complement. -/
def unsgn (w : Nat) (i : Int) : Nat := (i % (2 ^ w : Int)).toNat

/-- Set or clear bit `i` of a number. -/
def setBit (v i : Nat) (b : Bool) : Nat := v - (if bit v i then 2 ^ i else 0) + (if b then 2 ^ i else 0)

/-- Least and greatest. -/
def clamp (lo hi v : Int) : Int := if v < lo then lo else if hi < v then hi else v

/-! ## Checks carried by descriptors -/

/-- One bit step of the reflected CRC-32C (R50). -/
def crcStep (c : BitVec 32) : BitVec 32 := if c.getLsbD 0 then (c >>> 1) ^^^ 0x82F63B78#32 else c >>> 1

/-- CRC-32C of bytes (R50: Castagnoli polynomial, reflected, initial value and final XOR 0xFFFF_FFFF). -/
def crc32c (bs : List Byte) : BitVec 32 :=
  (bs.foldl (fun c b =>
    crcStep (crcStep (crcStep (crcStep (crcStep (crcStep (crcStep (crcStep (c ^^^ b.setWidth 32)))))))))
    0xFFFFFFFF#32) ^^^ 0xFFFFFFFF#32

/-- One bit step of the CRC-24 of RFC 4880 (R700). -/
def crc24Step (c : BitVec 24) : BitVec 24 := if c.getLsbD 23 then (c <<< 1) ^^^ 0x864CFB#24 else c <<< 1

/-- CRC-24 of RFC 4880 over bytes (R700). -/
def crc24 (bs : List Byte) : BitVec 24 :=
  bs.foldl (fun c b =>
    crc24Step (crc24Step (crc24Step (crc24Step (crc24Step (crc24Step (crc24Step (crc24Step
      (c ^^^ ((BitVec.setWidth 24 b) <<< 16))))))))))
    0xB704CE#24

end Sys2Proof.Machine
end

