-- ==== Sys2Proof/Machine/Codec.lean ====
section
/-! DEFINITION. The Korip formats (spec/06): F4 and F2 blocks, decoder and encoder, and the lossless L stream. -/
namespace Sys2Proof.Machine

/-- A pixel: contone and tag (R210). -/
abbrev Pixel := Nat × Nat

/-- A contone value clamped to 0 … 255. -/
def clip8 (v : Int) : Nat := (clamp 0 255 v).toNat

/-- Bytes of a coded block (R213). -/
def blockBytes (f2 : Bool) : Nat := if f2 then 40 else 20

/-! ## Decoding one block (R214 to R221): `b` is the block's bit string, bit k worth 2^k -/

/-- The plane's prediction of pixel `i` (R217). -/
def planePred (base : Nat) (sx sy : Int) (i : Nat) : Int := (base + sx * (i % 8 : Nat) + sy * (i / 8 : Nat) + 8) / 16

/-- A PLANE block (R216, R217). -/
def decodePlane (f2 : Bool) (b : Nat) : List Pixel :=
  let t := bits b 4 2
  let base := bits b 6 12
  let sx := sgn 10 (bits b 18 10)
  let sy := sgn 10 (bits b 28 10)
  let step : Int := bits b 38 4
  (List.range 64).map (fun i =>
    let res := if f2 then sgn 4 (bits b (42 + 4 * i) 4) * step else if bit b (42 + i) then step else -step
    (clip8 (planePred base sx sy i + res), t))

/-- Width of a DETAIL code (R219). -/
def detailWidth (f2 : Bool) (tmode : Nat) : Nat := (if f2 then 4 else 2) - tmode

/-- First bit of MIN in a DETAIL block (R218). -/
def detailMin (tmode : Nat) : Nat := if tmode = 0 then 8 else if tmode = 1 then 74 else 134

/-- Tag of pixel `i` in a DETAIL block (R218). -/
def detailTag (b tmode i : Nat) : Nat :=
  if tmode = 0 then bits b 6 2
  else if tmode = 1 then (if bit b (10 + i) then bits b 8 2 else bits b 6 2)
  else bits b (6 + 2 * i) 2

/-- The contone a DETAIL code stands for (R220). -/
def detailValue (mn e w q : Nat) : Nat := min 255 (mn + (2 * q + 1) * 2 ^ e / 2 ^ (w + 1))

/-- Decode one block; none is BAD_BLOCK (R221). -/
def decodeBlock (f2 : Bool) (b : Nat) : Option (List Pixel) :=
  match bits b 0 4 with
  | 0 => some (List.replicate 64 (bits b 4 8, bits b 12 2))
  | 1 => some ((List.range 64).map (fun i => if bit b (24 + i) then (bits b 14 8, bits b 22 2) else (bits b 4 8, bits b 12 2)))
  | 2 => some (decodePlane f2 b)
  | 3 =>
    let tm := bits b 4 2
    let at_ := detailMin tm
    let e := bits b (at_ + 8) 4
    let w := detailWidth f2 tm
    if tm = 3 ∨ 8 < e then none
    else some ((List.range 64).map (fun i =>
      (detailValue (bits b at_ 8) e w (bits b (at_ + 12 + w * i) w), detailTag b tm i)))
  | _ => none

/-- The raw form of a block: 64 contones, then 16 bytes of tags (R211). -/
def rawBlock (px : List Pixel) : List Byte :=
  px.map (fun p => BitVec.ofNat 8 p.1) ++
  (List.range 16).map (fun k => BitVec.ofNat 8 ((List.range 4).foldl (fun a j => a + (px.getD (4 * k + j) (0, 0)).2 * 4 ^ j) 0))

/-- The pixels of a raw block. -/
def pixelsOf (raw : List Byte) : List Pixel :=
  (List.range 64).map (fun i => ((raw.getD i 0).toNat, bits (raw.getD (64 + i / 4) 0).toNat (2 * (i % 4)) 2))

/-- Decode coded blocks one after another into at most `lim` raw bytes: the code, the raw bytes and the input bytes decoded. -/
def decodeBlocks (f2 : Bool) : Nat → List Byte → Nat → Nat × List Byte × Nat
  | 0, _, _ => (0, [], 0)
  | n + 1, src, lim =>
    if lim < 80 then (0x22, [], 0)
    else match decodeBlock f2 (leNat (src.take (blockBytes f2))) with
      | none => (0x20, [], 0)
      | some px =>
        let r := decodeBlocks f2 n (src.drop (blockBytes f2)) (lim - 80)
        (r.1, rawBlock px ++ r.2.1, r.2.2 + blockBytes f2)

/-! ## Encoding one block (R222) -/

/-- Pack fields (value, width) from bit 0 upward (R213). -/
def packBits : List (Nat × Nat) → Nat
  | [] => 0
  | (v, w) :: t => v % 2 ^ w + 2 ^ w * packBits t

/-- Least and greatest of a list of contones. -/
def loOf (vs : List Nat) : Nat := vs.foldl min 255
def hiOf (vs : List Nat) : Nat := vs.foldl max 0

/-- The middle value of a set (R222). -/
def midOf (vs : List Nat) : Nat := (loOf vs + hiOf vs + 1) / 2

/-- The largest absolute contone error of a candidate. -/
def blockErr (f2 : Bool) (px : List Pixel) (b : Nat) : Nat :=
  match decodeBlock f2 b with
  | none => 256
  | some q => ((px.zip q).map (fun x => ((x.1.1 : Int) - x.2.1).natAbs)).foldl max 0

/-- Distinct tags in rising order. -/
def tagsOf (px : List Pixel) : List Nat := (List.range 4).filter (fun t => px.any (fun p => p.2 = t))

/-- The FLAT candidate. -/
def encFlat (px : List Pixel) : Nat := packBits [(0, 4), (midOf (px.map (·.1)), 8), ((px.getD 0 (0, 0)).2, 2)]

/-- The threshold split of one tag's pixels: the highest value of set 0 (R222). -/
def splitAt (vs : List Nat) : Nat :=
  let cand := (List.range 255).filter (fun t => vs.any (· ≤ t) && vs.any (t < ·))
  let cost := fun t => max (hiOf (vs.filter (· ≤ t)) - loOf (vs.filter (· ≤ t))) (hiOf (vs.filter (t < ·)) - loOf (vs.filter (t < ·)))
  (cand.foldl (fun (a : Nat × Nat) t => if cost t < a.2 then (t, cost t) else a) (255, 256)).1

/-- The TWO_TONE candidate. -/
def encTwoTone (px : List Pixel) : Nat :=
  let ts := tagsOf px
  let cut := splitAt (px.map (·.1))
  let inSet1 := fun (p : Pixel) => if ts.length = 2 then decide (p.2 = ts.getD 1 0) else decide (cut < p.1)
  let set0 := (px.filter (fun p => !inSet1 p)).map (·.1)
  let set1 := (px.filter inSet1).map (·.1)
  packBits ([(1, 4), (midOf set0, 8), (ts.getD 0 0, 2), (if set1.isEmpty then midOf set0 else midOf set1, 8),
    (if ts.length = 2 then ts.getD 1 0 else ts.getD 0 0, 2)] ++ px.map (fun p => (if inSet1 p then 1 else 0, 1)))

/-- A PLANE candidate with one residual step. -/
def encPlaneStep (f2 : Bool) (px : List Pixel) (base : Nat) (sx sy : Int) (step : Nat) : Nat :=
  let res := fun (i : Nat) (v : Nat) =>
    let d : Int := v - planePred base sx sy i
    if f2 then (if step = 0 then 0 else unsgn 4 (clamp (-8) 7 ((2 * d + step) / (2 * step)))) else (if 0 ≤ d then 1 else 0)
  packBits ([(2, 4), ((px.getD 0 (0, 0)).2, 2), (base, 12), (unsgn 10 sx, 10), (unsgn 10 sy, 10), (step, 4)] ++
    (px.zip (List.range 64)).map (fun x => (res x.2 x.1.1, if f2 then 4 else 1)))

/-- The PLANE candidate: the least-squares plane and the best residual step (R222). -/
def encPlane (f2 : Bool) (px : List Pixel) : Nat :=
  let ix := px.zip (List.range 64)
  let ax : Int := ix.foldl (fun (a : Int) x => a + (2 * (x.2 % 8 : Nat) - 7) * x.1.1) 0
  let ay : Int := ix.foldl (fun (a : Int) x => a + (2 * (x.2 / 8 : Nat) - 7) * x.1.1) 0
  let sum : Int := px.foldl (fun (a : Int) p => a + p.1) 0
  let sx := clamp (-512) 511 ((ax + 21) / 42)
  let sy := clamp (-512) 511 ((ay + 21) / 42)
  let base := (clamp 0 4095 ((sum - 14 * (sx + sy) + 2) / 4)).toNat
  let err := fun st => blockErr f2 px (encPlaneStep f2 px base sx sy st)
  let best := (List.range 16).foldl (fun (a : Nat × Nat) st => if err st < a.2 then (st, err st) else a) (0, 257)
  encPlaneStep f2 px base sx sy best.1

/-- The DETAIL candidate. -/
def encDetail (f2 : Bool) (px : List Pixel) : Nat :=
  let ts := tagsOf px
  let tm := if ts.length ≤ 1 then 0 else if ts.length = 2 then 1 else 2
  let w := detailWidth f2 tm
  let mn := loOf (px.map (·.1))
  let span := hiOf (px.map (·.1)) - mn
  let e := ((List.range 9).find? (fun e => span < 2 ^ e)).getD 8
  let tags := if tm = 0 then [(ts.getD 0 0, 2)]
    else if tm = 1 then [(ts.getD 0 0, 2), (ts.getD 1 0, 2)] ++ px.map (fun p => (if p.2 = ts.getD 1 0 then 1 else 0, 1))
    else px.map (fun p => (p.2, 2))
  packBits ([(3, 4), (tm, 2)] ++ tags ++ [(mn, 8), (e, 4)] ++
    px.map (fun p => (min (2 ^ w - 1) ((p.1 - mn) * 2 ^ w / 2 ^ e), w)))

/-- The on-chip encoder: the candidate with the smallest largest error, the earlier where two are equal (R222). -/
def encodeBlock (f2 : Bool) (px : List Pixel) : List Byte :=
  let n := (tagsOf px).length
  let cands := (if n ≤ 1 then [encFlat px] else []) ++ (if n ≤ 2 then [encTwoTone px] else []) ++
    (if n ≤ 1 then [encPlane f2 px] else []) ++ [encDetail f2 px]
  let best := cands.foldl (fun (a : Nat × Nat) b => let e := blockErr f2 px b; if e < a.2 then (b, e) else a) (0, 1000)
  leBytes (blockBytes f2) best.1

/-- Encode raw blocks into at most `lim` bytes: the code, the coded bytes and the input bytes encoded. -/
def encodeBlocks (f2 : Bool) : Nat → List Byte → Nat → Nat × List Byte × Nat
  | 0, _, _ => (0, [], 0)
  | n + 1, src, lim =>
    if lim < blockBytes f2 then (0x22, [], 0)
    else
      let r := encodeBlocks f2 n (src.drop 80) (lim - blockBytes f2)
      (r.1, encodeBlock f2 (pixelsOf (src.take 80)) ++ r.2.1, r.2.2 + 80)

/-! ## The L decoder (R229 to R234, R239) -/

/-- Progress of an L decoder: the output newest byte first, its length, and the blocks read. -/
structure LDec where
  rout   : List Byte := []
  len    : Nat := 0
  coded  : Nat := 0
  stored : Nat := 0
  deriving DecidableEq, Repr, Inhabited

/-- Add bytes to the output until the declared size is met; false is OUTPUT_LIMIT. -/
def LDec.emit (lim : Nat) : List Byte → LDec → Bool × LDec
  | [], d => (true, d)
  | b :: t, d => if d.len = lim then (false, d) else LDec.emit lim t { d with rout := b :: d.rout, len := d.len + 1 }

/-- Copy `n` bytes that lie `off` back, one by one. -/
def LDec.copy (lim off : Nat) : Nat → LDec → Bool × LDec
  | 0, d => (true, d)
  | n + 1, d => if d.len = lim then (false, d)
    else LDec.copy lim off n { d with rout := d.rout.getD (off - 1) 0 :: d.rout, len := d.len + 1 }

/-- The extension bytes of a match length: what they add, and the payload after them; none where the payload ends (R231). -/
def lExt : List Byte → Option (Nat × List Byte)
  | [] => none
  | b :: t => if b = 255#8 then (lExt t).map (fun r => (r.1 + 255, r.2)) else some (b.toNat, t)

/-- The tokens of one CODED payload, of which `room` decoded bytes are still to come: a code (0 where the block ends well), the state and the payload
bytes left. -/
def lTokens (lim : Nat) : Nat → List Byte → Nat → LDec → Nat × LDec × List Byte
  | 0, p, _, d => (0x21, d, p)
  | fuel + 1, p, room, d =>
    if room = 0 then (if p.isEmpty then 0 else 0x21, d, p)
    else match p with
    | [] => (0x21, d, p)
    | t :: p =>
      if t.toNat < 0x80 then
        let n := t.toNat + 1
        if room < n ∨ p.length < n then (0x21, d, p)
        else
          let r := d.emit lim (p.take n)
          if r.1 then lTokens lim fuel (p.drop n) (room - n) r.2 else (0x22, r.2, p)
      else
        match (if t = 255#8 then lExt p else some (0, p)) with
        | none => (0x21, d, [])
        | some (x, p) =>
          let n := t.toNat % 128 + 4 + x
          let off := leNat (p.take 2) + 1
          if p.length < 2 ∨ room < n ∨ d.len < off then (0x21, d, p)
          else
            let r := d.copy lim off n
            if r.1 then lTokens lim fuel (p.drop 2) (room - n) r.2 else (0x22, r.2, p)

/-- The blocks of an L stream: the code (0 at END, 4 where the input ends at a block boundary), the state and the input left. -/
def lBlocks (lim : Nat) : Nat → List Byte → LDec → Nat × LDec × List Byte
  | 0, src, d => (0x21, d, src)
  | fuel + 1, src, d =>
    if src.isEmpty then (0x04, d, src)
    else if src.length < 8 then (0x21, d, src)
    else
      let decLen := leAt src 0 4
      let word := leAt src 4 4
      let kind := bits word 30 2
      let pay := bits word 0 17
      let rest := src.drop 8
      if bits word 17 13 ≠ 0 ∨ kind = 3 then (0x21, d, src)
      else if kind = 2 then (if decLen = 0 ∧ pay = 0 then (0, d, rest) else (0x21, d, src))
      else if decLen < 1 ∨ 65536 < decLen ∨ rest.length < pay then (0x21, d, src)
      else if kind = 0 then
        if pay ≠ decLen then (0x21, d, src)
        else
          let r := d.emit lim (rest.take pay)
          if r.1 then lBlocks lim fuel (rest.drop pay) { r.2 with stored := r.2.stored + 1 } else (0x22, r.2, rest)
      else if pay < 1 ∨ decLen ≤ pay then (0x21, d, src)
      else
        let r := lTokens lim (pay + 1) (rest.take pay) decLen d
        if r.1 = 0 then lBlocks lim fuel (rest.drop pay) { r.2.1 with coded := r.2.1.coded + 1 }
        else (r.1, r.2.1, r.2.2 ++ rest.drop pay)

/-- Decode an L stream into at most `lim` bytes (R239). -/
def decodeL (src : List Byte) (lim : Nat) : Nat × LDec × List Byte :=
  if src.length < 8 ∨ leAt src 0 2 ≠ 0x4B4C ∨ leAt src 2 1 ≠ 1 ∨ leAt src 3 5 ≠ 0 then (0x21, {}, src)
  else lBlocks lim (src.length + 1) (src.drop 8) {}

/-! ## The L encoder (R231, R235 to R238) -/

/-- A literal run as tokens of at most 128 bytes. -/
def lLiterals : Nat → List Byte → List Byte
  | 0, _ => []
  | fuel + 1, bs => if bs.isEmpty then []
    else let h := bs.take 128
      BitVec.ofNat 8 (h.length - 1) :: h ++ lLiterals fuel (bs.drop 128)

/-- The extension bytes of a long match. -/
def lExtBytes : Nat → Nat → List Byte
  | 0, v => [BitVec.ofNat 8 v]
  | fuel + 1, v => if v < 255 then [BitVec.ofNat 8 v] else 255#8 :: lExtBytes fuel (v - 255)

/-- A match token (R231). -/
def lMatchToken (n off : Nat) : List Byte :=
  (if n < 131 then [BitVec.ofNat 8 (0x80 + (n - 4))] else 255#8 :: lExtBytes n (n - 131)) ++ leBytes 2 (off - 1)

/-- Does a match of `n` bytes at `pos`, `off` back, hold in `all`, within the block that ends at `stop` (R231, R232)? -/
def matchHolds (all : List Byte) (pos stop n off : Nat) : Bool :=
  decide (4 ≤ n ∧ pos + n ≤ stop ∧ 1 ≤ off ∧ off ≤ pos ∧ off ≤ 65536) &&
  (List.range n).all (fun k => all.getD (pos + k) 0 = all.getD (pos + k - off) 0)

/-- The payload of a block `pos … stop - 1` of `all`, as the encoder's match choices make it; `lit` is the literal run so far, newest first. -/
def lPayload (eff : Nat) (all : List Byte) (stop : Nat) : Nat → Nat → List Byte → List Byte
  | 0, _, lit => lLiterals stop lit.reverse
  | fuel + 1, pos, lit =>
    if stop ≤ pos then lLiterals stop lit.reverse
    else
      let m := Config.lMatch eff (all.take stop) pos
      if matchHolds all pos stop m.1 m.2 then
        lLiterals stop lit.reverse ++ lMatchToken m.1 m.2 ++ lPayload eff all stop fuel (pos + m.1) []
      else lPayload eff all stop fuel (pos + 1) (all.getD pos 0 :: lit)

/-- One encoded block: CODED where the payload is shorter than the data, STORED otherwise (R235). -/
def lBlock (eff : Nat) (all : List Byte) (a stop : Nat) : Bool × List Byte :=
  let n := stop - a
  let pay := lPayload eff all stop n a []
  if pay.length < n then (true, leBytes 4 n ++ leBytes 4 (2 ^ 30 + pay.length) ++ pay)
  else (false, leBytes 4 n ++ leBytes 4 n ++ (all.drop a).take n)

/-- The header of an L stream (R229) and its END block (R230). -/
def lHeader : List Byte := leBytes 2 0x4B4C ++ leBytes 1 1 ++ leBytes 5 0
def lEnd : List Byte := leBytes 4 0 ++ leBytes 4 (2 * 2 ^ 30)

/-- The end of the next block cut from input `a … len - 1`: a full block, or what remains when the block is ended now (R235, R236). -/
def lNext (a len : Nat) (endNow : Bool) : Option Nat :=
  if a + 65536 ≤ len then some (a + 65536) else if endNow && decide (a < len) then some len else none

end Sys2Proof.Machine
end

