-- ==== Sys2Proof/Machine/Crypto.lean ====
section
/-! DEFINITION. The ciphers the spec names by their standards: SHA-384 and HMAC (FIPS 180-4, FIPS 198-1), the KDF of SP 800-108 (R195), AES-256 (FIPS 197),
GCM (SP 800-38D, R196), XTS (IEEE 1619, R207) and ECDSA over P-384 (FIPS 186-4, R650). Keys, data and digests are lists of bytes. -/
namespace Sys2Proof.Machine

/-- The big-endian number that bytes spell. -/
def beNat (bs : List Byte) : Nat := leNat bs.reverse

/-- `n` big-endian bytes of a number. -/
def beBytes (n v : Nat) : List Byte := (leBytes n v).reverse

/-- Bytewise exclusive or. -/
def xorBytes (a b : List Byte) : List Byte := List.zipWith (fun x y => x ^^^ y) a b

/-! ## SHA-384 and HMAC -/

/-- The round constants of SHA-512. -/
def shaK : List (BitVec 64) :=
  [0x428A2F98D728AE22#64, 0x7137449123EF65CD#64, 0xB5C0FBCFEC4D3B2F#64, 0xE9B5DBA58189DBBC#64] ++
  [0x3956C25BF348B538#64, 0x59F111F1B605D019#64, 0x923F82A4AF194F9B#64, 0xAB1C5ED5DA6D8118#64] ++
  [0xD807AA98A3030242#64, 0x12835B0145706FBE#64, 0x243185BE4EE4B28C#64, 0x550C7DC3D5FFB4E2#64] ++
  [0x72BE5D74F27B896F#64, 0x80DEB1FE3B1696B1#64, 0x9BDC06A725C71235#64, 0xC19BF174CF692694#64] ++
  [0xE49B69C19EF14AD2#64, 0xEFBE4786384F25E3#64, 0x0FC19DC68B8CD5B5#64, 0x240CA1CC77AC9C65#64] ++
  [0x2DE92C6F592B0275#64, 0x4A7484AA6EA6E483#64, 0x5CB0A9DCBD41FBD4#64, 0x76F988DA831153B5#64] ++
  [0x983E5152EE66DFAB#64, 0xA831C66D2DB43210#64, 0xB00327C898FB213F#64, 0xBF597FC7BEEF0EE4#64] ++
  [0xC6E00BF33DA88FC2#64, 0xD5A79147930AA725#64, 0x06CA6351E003826F#64, 0x142929670A0E6E70#64] ++
  [0x27B70A8546D22FFC#64, 0x2E1B21385C26C926#64, 0x4D2C6DFC5AC42AED#64, 0x53380D139D95B3DF#64] ++
  [0x650A73548BAF63DE#64, 0x766A0ABB3C77B2A8#64, 0x81C2C92E47EDAEE6#64, 0x92722C851482353B#64] ++
  [0xA2BFE8A14CF10364#64, 0xA81A664BBC423001#64, 0xC24B8B70D0F89791#64, 0xC76C51A30654BE30#64] ++
  [0xD192E819D6EF5218#64, 0xD69906245565A910#64, 0xF40E35855771202A#64, 0x106AA07032BBD1B8#64] ++
  [0x19A4C116B8D2D0C8#64, 0x1E376C085141AB53#64, 0x2748774CDF8EEB99#64, 0x34B0BCB5E19B48A8#64] ++
  [0x391C0CB3C5C95A63#64, 0x4ED8AA4AE3418ACB#64, 0x5B9CCA4F7763E373#64, 0x682E6FF3D6B2B8A3#64] ++
  [0x748F82EE5DEFB2FC#64, 0x78A5636F43172F60#64, 0x84C87814A1F0AB72#64, 0x8CC702081A6439EC#64] ++
  [0x90BEFFFA23631E28#64, 0xA4506CEBDE82BDE9#64, 0xBEF9A3F7B2C67915#64, 0xC67178F2E372532B#64] ++
  [0xCA273ECEEA26619C#64, 0xD186B8C721C0C207#64, 0xEADA7DD6CDE0EB1E#64, 0xF57D4F7FEE6ED178#64] ++
  [0x06F067AA72176FBA#64, 0x0A637DC5A2C898A6#64, 0x113F9804BEF90DAE#64, 0x1B710B35131C471B#64] ++
  [0x28DB77F523047D84#64, 0x32CAAB7B40C72493#64, 0x3C9EBE0A15C9BEBC#64, 0x431D67C49C100D4C#64] ++
  [0x4CC5D4BECB3E42B6#64, 0x597F299CFC657E2A#64, 0x5FCB6FAB3AD6FAEC#64, 0x6C44198C4A475817#64]

/-- The initial hash value of SHA-384. -/
def sha384Init : List (BitVec 64) :=
  [0xCBBB9D5DC1059ED8#64, 0x629A292A367CD507#64, 0x9159015A3070DD17#64, 0x152FECD8F70E5939#64,
   0x67332667FFC00B31#64, 0x8EB44A8768581511#64, 0xDB0C2E0D64F98FA7#64, 0x47B5481DBEFA4FA4#64]

/-- The message schedule, newest word first, extended by `n` words. -/
def shaSchedule : Nat → List (BitVec 64) → List (BitVec 64)
  | 0, w => w
  | n + 1, w =>
    let a := w.getD 14 0
    let b := w.getD 1 0
    let s0 := a.rotateRight 1 ^^^ a.rotateRight 8 ^^^ (a >>> 7)
    let s1 := b.rotateRight 19 ^^^ b.rotateRight 61 ^^^ (b >>> 6)
    shaSchedule n ((w.getD 15 0 + s0 + w.getD 6 0 + s1) :: w)

/-- One round over the eight working variables, with its constant and schedule word. -/
def shaRound (v : List (BitVec 64)) (k : BitVec 64) : List (BitVec 64) :=
  let a := v.getD 0 0
  let b := v.getD 1 0
  let c := v.getD 2 0
  let e := v.getD 4 0
  let t1 := v.getD 7 0 + (e.rotateRight 14 ^^^ e.rotateRight 18 ^^^ e.rotateRight 41) + ((e &&& v.getD 5 0) ^^^ (~~~e &&& v.getD 6 0)) + k
  let t2 := (a.rotateRight 28 ^^^ a.rotateRight 34 ^^^ a.rotateRight 39) + ((a &&& b) ^^^ (a &&& c) ^^^ (b &&& c))
  [t1 + t2, a, b, c, v.getD 3 0 + t1, e, v.getD 5 0, v.getD 6 0]

/-- The hash value after each of `n` 128-byte blocks. -/
def shaBlocks : Nat → List Byte → List (BitVec 64) → List (BitVec 64)
  | 0, _, h => h
  | n + 1, m, h =>
    let w := (List.range 16).map (fun i => BitVec.ofNat 64 (beNat ((m.drop (8 * i)).take 8)))
    let ws := (shaSchedule 64 w.reverse).reverse
    let v := (List.zipWith (fun k x => k + x) shaK ws).foldl shaRound h
    shaBlocks n (m.drop 128) (List.zipWith (fun x y => x + y) h v)

/-- SHA-384 of bytes. -/
def sha384 (m : List Byte) : List Byte :=
  let pad := (239 - m.length % 128) % 128
  let p := m ++ [0x80#8] ++ List.replicate pad 0 ++ beBytes 16 (8 * m.length)
  ((shaBlocks (p.length / 128) p sha384Init).flatMap (fun x => beBytes 8 x.toNat)).take 48

/-- HMAC-SHA-384 of bytes under a key. -/
def hmac384 (key m : List Byte) : List Byte :=
  let k := (if 128 < key.length then sha384 key else key)
  let k := k ++ List.replicate (128 - k.length) 0
  sha384 (k.map (· ^^^ 0x5C#8) ++ sha384 (k.map (· ^^^ 0x36#8) ++ m))

/-- 256 bits of the KDF in counter mode: one block of HMAC-SHA-384 over counter, label, zero, context and length, counter and length in 32 bits (R195;
PRESUMED: SP 800-108 leaves those two widths to its user; assumption log 103). -/
def kdf256 (key label ctx : List Byte) : List Byte := (hmac384 key (beBytes 4 1 ++ label ++ [0] ++ ctx ++ beBytes 4 256)).take 32

/-! ## AES-256 -/

/-- Multiply by x in GF(2^8). -/
def xtime (b : Byte) : Byte := (b <<< 1) ^^^ (if b.getLsbD 7 then 0x1B#8 else 0)

/-- Multiply in GF(2^8), over the low `n` bits of the second factor. -/
def gfMul (a b : Byte) : Nat → Byte
  | 0 => 0
  | n + 1 => (if b.getLsbD 0 then a else 0) ^^^ gfMul (xtime a) (b >>> 1) n

/-- A power in GF(2^8), over the low `n` bits of the exponent. -/
def gfPow (a : Byte) : Nat → Nat → Byte
  | 0, _ => 1
  | n + 1, e =>
    let h := gfPow a n (e / 2)
    let q := gfMul h h 8
    if e % 2 = 1 then gfMul a q 8 else q

/-- The S-box: the inverse, then the affine map. -/
def aesS (a : Byte) : Byte :=
  let i := gfPow a 8 254
  i ^^^ i.rotateLeft 1 ^^^ i.rotateLeft 2 ^^^ i.rotateLeft 3 ^^^ i.rotateLeft 4 ^^^ 0x63#8

/-- The key schedule, newest word first, extended by `n` words. -/
def aesSchedule : Nat → List (List Byte) → List (List Byte)
  | 0, w => w
  | n + 1, w =>
    let i := w.length
    let t := w.getD 0 []
    let t := if i % 8 = 0 then xorBytes ((t.drop 1 ++ t.take 1).map aesS) [gfPow 2 3 (i / 8 - 1), 0, 0, 0] else if i % 8 = 4 then t.map aesS else t
    aesSchedule n (xorBytes (w.getD 7 []) t :: w)

/-- The 15 round keys of a 32-byte key. -/
def aesKeys (key : List Byte) : List (List Byte) :=
  let w := (aesSchedule 52 ((List.range 8).map (fun i => (key.drop (4 * i)).take 4)).reverse).reverse.flatten
  (List.range 15).map (fun r => (w.drop (16 * r)).take 16)

/-- SubBytes and ShiftRows of a 16-byte state, columns first. -/
def aesSubShift (b : List Byte) : List Byte :=
  (List.range 16).map (fun i => aesS (b.getD (4 * ((i / 4 + i % 4) % 4) + i % 4) 0))

/-- MixColumns. -/
def aesMix (b : List Byte) : List Byte :=
  (List.range 16).map (fun i =>
    let at' := fun (j : Nat) => b.getD (i / 4 * 4 + (i + j) % 4) 0
    xtime (at' 0) ^^^ xtime (at' 1) ^^^ at' 1 ^^^ at' 2 ^^^ at' 3)

/-- AES-256 of a 16-byte block. -/
def aes256 (keys : List (List Byte)) (b : List Byte) : List Byte :=
  let s := ((keys.drop 1).take 13).foldl (fun s k => xorBytes (aesMix (aesSubShift s)) k) (xorBytes b (keys.getD 0 []))
  xorBytes (aesSubShift s) (keys.getD 14 [])

/-! ## GCM -/

/-- Multiply in GF(2^128) in the bit order of GCM, over the `n` leading bits of the first factor that remain. -/
def ghMul (x v : BitVec 128) : Nat → BitVec 128
  | 0 => 0
  | n + 1 => (if x.getMsbD 0 then v else 0) ^^^ ghMul (x <<< 1) ((v >>> 1) ^^^ (if v.getLsbD 0 then 0xE1#128 <<< 120 else 0)) n

/-- GHASH over `n` 16-byte blocks; a short last block counts as padded with zeros. -/
def ghash (h : BitVec 128) : Nat → List Byte → BitVec 128 → BitVec 128
  | 0, _, y => y
  | n + 1, m, y => ghash h n (m.drop 16) (ghMul (y ^^^ BitVec.ofNat 128 (beNat ((m ++ List.replicate 16 0).take 16))) h 128)

/-- Counter mode over `n` 16-byte blocks, from counter `c` under a 12-byte nonce. -/
def gcmCtr (keys : List (List Byte)) (iv : List Byte) : Nat → Nat → List Byte → List Byte
  | 0, _, _ => []
  | n + 1, c, m => xorBytes (m.take 16) (aes256 keys (iv ++ beBytes 4 c)) ++ gcmCtr keys iv n (c + 1) (m.drop 16)

/-- AES-256-GCM with a 96-bit nonce: ciphertext and 128-bit tag. -/
def gcmSeal (key iv aad m : List Byte) : List Byte × List Byte :=
  let keys := aesKeys key
  let h := BitVec.ofNat 128 (beNat (aes256 keys (List.replicate 16 0)))
  let ct := gcmCtr keys iv ((m.length + 15) / 16) 2 m
  let y := ghash h ((ct.length + 15) / 16) ct (ghash h ((aad.length + 15) / 16) aad 0)
  let y := ghash h 1 (beBytes 8 (8 * aad.length) ++ beBytes 8 (8 * ct.length)) y
  (ct, xorBytes (beBytes 16 y.toNat) (aes256 keys (iv ++ beBytes 4 1)))

/-! ## XTS -/

/-- Double a tweak in GF(2^128), as 16 little-endian bytes. -/
def xtsDouble (t : List Byte) : List Byte :=
  let v := leNat t
  leBytes 16 (if v < 2 ^ 127 then 2 * v else (2 * v - 2 ^ 128).xor 0x87)

/-- Encrypt `n` 16-byte blocks of a data unit under a tweak. -/
def xtsBlocks (keys : List (List Byte)) : Nat → List Byte → List Byte → List Byte
  | 0, _, _ => []
  | n + 1, t, m => xorBytes (aes256 keys (xorBytes (m.take 16) t)) t ++ xtsBlocks keys n (xtsDouble t) (m.drop 16)

/-- AES-256-XTS of a 64-byte data unit under a 64-byte key pair and the unit's number. -/
def xtsUnit (pair : List Byte) (unit : Nat) (m : List Byte) : List Byte :=
  xtsBlocks (aesKeys (pair.take 32)) 4 (aes256 (aesKeys (pair.drop 32)) (leBytes 16 unit)) m

/-! ## ECDSA P-384 (FIPS 186-4): R650, R658 -/

/-- The field prime, the group order and the coefficient b of P-384; a is −3. -/
def ecP : Nat := 2 ^ 384 - 2 ^ 128 - 2 ^ 96 + 2 ^ 32 - 1
def ecN : Nat := 0xFFFFFFFFFFFFFFFFFFFFFFFFFFFFFFFFFFFFFFFFFFFFFFFFC7634D81F4372DDF581A0DB248B0A77AECEC196ACCC52973
def ecB : Nat := 0xB3312FA7E23EE7E4988E056BE3F82D19181D9C6EFE8141120314088F5013875AC656398D8A2ED19D2A85C8EDD3EC2AEF

/-- A point in Jacobian coordinates: (x, y, z) stands for (x / z², y / z³); z = 0 is the point at infinity. -/
abbrev EcPoint := Nat × Nat × Nat

/-- The base point. -/
def ecG : EcPoint :=
  (0xAA87CA22BE8B05378EB1C71EF320AD746E1D3B628BA79B9859F741E082542A385502F25DBF55296C3A545E3872760AB7,
   0x3617DE4A96262C6F5D9E98BF9292DC29F8F41DBD289A147CE9DA3113B5F0B8C00A60B1CE1D7E819D7A431D7C90EA0E5F, 1)

/-- Product and difference in the field. -/
def ecMul (a b : Nat) : Nat := a * b % ecP
def ecSub (a b : Nat) : Nat := (a + ecP - b) % ecP

/-- Twice a point. -/
def ecDouble (q : EcPoint) : EcPoint :=
  let d := ecMul q.2.2 q.2.2
  let g := ecMul q.2.1 q.2.1
  let b := ecMul q.1 g
  let a := 3 * ecMul (ecSub q.1 d) (q.1 + d) % ecP
  let x := ecSub (ecMul a a) (8 * b % ecP)
  (x, ecSub (ecMul a (ecSub (4 * b % ecP) x)) (8 * ecMul g g % ecP), 2 * ecMul q.2.1 q.2.2 % ecP)

/-- The sum of two points. -/
def ecAdd (q r : EcPoint) : EcPoint :=
  if q.2.2 = 0 then r
  else if r.2.2 = 0 then q
  else
    let zq := ecMul q.2.2 q.2.2
    let zr := ecMul r.2.2 r.2.2
    let u := ecMul q.1 zr
    let s := ecMul (ecMul q.2.1 r.2.2) zr
    let h := ecSub (ecMul r.1 zq) u
    let t := ecSub (ecMul (ecMul r.2.1 q.2.2) zq) s
    if h = 0 then (if t = 0 then ecDouble q else (1, 1, 0))
    else
      let hh := ecMul h h
      let hhh := ecMul h hh
      let v := ecMul u hh
      let x := ecSub (ecSub (ecMul t t) hhh) (2 * v % ecP)
      (x, ecSub (ecMul t (ecSub v x)) (ecMul s hhh), ecMul (ecMul q.2.2 r.2.2) h)

/-- A multiple of a point, over the low `n` bits of the factor. -/
def ecTimes (q : EcPoint) : Nat → Nat → EcPoint
  | 0, _ => (1, 1, 0)
  | n + 1, k =>
    let h := ecDouble (ecTimes q n (k / 2))
    if k % 2 = 1 then ecAdd h q else h

/-- A power modulo `m`, over the low `n` bits of the exponent. -/
def modPow (m b : Nat) : Nat → Nat → Nat
  | 0, _ => 1
  | n + 1, e =>
    let h := modPow m b n (e / 2)
    if e % 2 = 1 then h * h % m * b % m else h * h % m

/-- Is `sig`, r then s, a signature of the SHA-384 `z` under the public key `key`, X then Y, each 48 bytes big-endian? -/
def ecdsaOk (key z sig : List Byte) : Bool :=
  let x := beNat (key.take 48)
  let y := beNat (key.drop 48)
  let r := beNat (sig.take 48)
  let s := beNat (sig.drop 48)
  if key.length ≠ 96 ∨ sig.length ≠ 96 ∨ ecP ≤ x ∨ ecP ≤ y ∨ ecMul y y ≠ (ecMul (ecMul x x) x + ecP - 3 * x % ecP + ecB) % ecP ∨ r = 0 ∨ ecN ≤ r ∨
      s = 0 ∨ ecN ≤ s then false
  else
    let w := modPow ecN s 384 (ecN - 2)
    let q := ecAdd (ecTimes ecG 384 (beNat z * w % ecN)) (ecTimes (x, y, 1) 384 (r * w % ecN))
    -- x / z² = r modulo the order, for one of r and r + n
    let z2 := ecMul q.2.2 q.2.2
    decide (q.2.2 ≠ 0) && (ecMul r z2 = q.1 || (decide (r + ecN < ecP) && ecMul (r + ecN) z2 = q.1))

/-- The public key and the signature of a package header or a token (R650, R658), against the hash that the fuses hold: 0 both pass, 1 the key is not
the one whose hash it is, 2 the signature is not valid. -/
def signCode (root : Option (List Byte)) (b : List Byte) : Nat :=
  let key := (b.drop 80).take 96
  if root ≠ some (sha384 key) then 1 else if ecdsaOk key (sha384 (b.take 176)) ((b.drop 176).take 96) then 0 else 2

end Sys2Proof.Machine
end

