-- ==== Sys2Proof/Machine/Regs.lean ====
section
/-! DEFINITION. The fields of every BAR0 register, each under its manual name: the register's BAR0 offset (the block base of R36 plus the
offset of the block's register table), the field's lowest bit and its width. The last component of a name is the field; `word` is the whole register. -/
namespace Sys2Proof.Machine

/-- One register field: BAR0 offset of its register, lowest bit, width. -/
structure Fld where
  off : Nat
  lo : Nat
  w : Nat
  deriving DecidableEq, Repr

/-- Offset of HIF_REV. -/
abbrev HIF_REV.word : Nat := 0x4
abbrev HIF_REV.DIE_REV : Fld := ⟨0x4, 8, 8⟩
abbrev HIF_DEV_STATE.BOOT_ERR : Fld := ⟨0x8, 4, 4⟩
abbrev HIF_DEV_STATE.STATE : Fld := ⟨0x8, 0, 4⟩
abbrev HIF_LINK_STATUS.WIDTH : Fld := ⟨0xc, 16, 5⟩
abbrev HIF_LINK_STATUS.SPEED : Fld := ⟨0xc, 12, 4⟩
abbrev HIF_LINK_STATUS.UP : Fld := ⟨0xc, 0, 1⟩
abbrev HIF_FN_EVENTS.FLR_SEEN : Fld := ⟨0x10, 0, 16⟩
abbrev HIF_FN_STATE.QUEUE_ON : Fld := ⟨0x14, 0, 16⟩
abbrev HIF_LINK_CNT.DL_DOWN : Fld := ⟨0x18, 16, 16⟩
abbrev HIF_LINK_CNT.PERST : Fld := ⟨0x18, 0, 16⟩
abbrev HIF_AER_CNT.UNCORR : Fld := ⟨0x1c, 16, 16⟩
abbrev HIF_AER_CNT.CORR : Fld := ⟨0x1c, 0, 16⟩
/-- Offset of HIF_MBX_CTRL. -/
abbrev HIF_MBX_CTRL.word : Nat := 0x100
abbrev HIF_MBX_STATUS.OVERRUN : Fld := ⟨0x104, 2, 1⟩
abbrev HIF_MBX_STATUS.DONE : Fld := ⟨0x104, 1, 1⟩
abbrev HIF_MBX_STATUS.BUSY : Fld := ⟨0x104, 0, 1⟩
/-- Offset of HIF_MBX_TIMEOUT. -/
abbrev HIF_MBX_TIMEOUT.word : Nat := 0x108
/-- Offset of HIF_MBX_REQ. -/
abbrev HIF_MBX_REQ.word (i : Nat) : Nat := 0x1000 + i * 0x4
/-- Offset of HIF_MBX_RSP. -/
abbrev HIF_MBX_RSP.word (i : Nat) : Nat := 0x1400 + i * 0x4
/-- Offset of HIF_SQ_BASE_LO. -/
abbrev HIF_SQ_BASE_LO.word (i : Nat) : Nat := 0x10000 + i * 0x100
abbrev HIF_SQ_SIZE.LOG2 (i : Nat) : Fld := ⟨0x10008 + i * 0x100, 0, 4⟩
abbrev HIF_SQ_TAIL.TAIL (i : Nat) : Fld := ⟨0x1000c + i * 0x100, 0, 12⟩
abbrev HIF_SQ_HEAD.HEAD (i : Nat) : Fld := ⟨0x10010 + i * 0x100, 0, 12⟩
abbrev HIF_CQ_BASE_LO.ADDR (i : Nat) : Fld := ⟨0x10014 + i * 0x100, 12, 20⟩
abbrev HIF_CQ_BASE_HI.ADDR (i : Nat) : Fld := ⟨0x10018 + i * 0x100, 0, 32⟩
abbrev HIF_CQ_SIZE.LOG2 (i : Nat) : Fld := ⟨0x1001c + i * 0x100, 0, 5⟩
/-- Offset of HIF_CQ_HEAD. -/
abbrev HIF_CQ_HEAD.word (i : Nat) : Nat := 0x10020 + i * 0x100
abbrev HIF_CQ_HEAD.HEAD (i : Nat) : Fld := ⟨0x10020 + i * 0x100, 0, 16⟩
abbrev HIF_CQ_TAIL.PHASE (i : Nat) : Fld := ⟨0x10024 + i * 0x100, 16, 1⟩
abbrev HIF_CQ_TAIL.TAIL (i : Nat) : Fld := ⟨0x10024 + i * 0x100, 0, 16⟩
abbrev HIF_Q_CTRL.RESUME (i : Nat) : Fld := ⟨0x10028 + i * 0x100, 2, 1⟩
abbrev HIF_Q_CTRL.PAUSE (i : Nat) : Fld := ⟨0x10028 + i * 0x100, 1, 1⟩
abbrev HIF_Q_CTRL.ENABLE (i : Nat) : Fld := ⟨0x10028 + i * 0x100, 0, 1⟩
/-- Offset of HIF_Q_STATUS. -/
abbrev HIF_Q_STATUS.word (i : Nat) : Nat := 0x1002c + i * 0x100
abbrev HIF_Q_STATUS.CTRL_REFUSED (i : Nat) : Fld := ⟨0x1002c + i * 0x100, 15, 1⟩
abbrev HIF_Q_STATUS.CQ_HEAD_ERR (i : Nat) : Fld := ⟨0x1002c + i * 0x100, 14, 1⟩
abbrev HIF_Q_STATUS.LIMIT (i : Nat) : Fld := ⟨0x1002c + i * 0x100, 13, 1⟩
abbrev HIF_Q_STATUS.BACKLOG (i : Nat) : Fld := ⟨0x1002c + i * 0x100, 12, 1⟩
abbrev HIF_Q_STATUS.ERR_CODE (i : Nat) : Fld := ⟨0x1002c + i * 0x100, 8, 4⟩
abbrev HIF_Q_STATUS.PAUSE_CAUSE (i : Nat) : Fld := ⟨0x1002c + i * 0x100, 4, 4⟩
abbrev HIF_Q_STATUS.STATE (i : Nat) : Fld := ⟨0x1002c + i * 0x100, 0, 2⟩
abbrev HIF_CQ_COAL.COUNT (i : Nat) : Fld := ⟨0x10030 + i * 0x100, 16, 8⟩
abbrev HIF_CQ_COAL.TIME (i : Nat) : Fld := ⟨0x10030 + i * 0x100, 0, 16⟩
abbrev HIF_Q_LOAD.BACKLOG (i : Nat) : Fld := ⟨0x10034 + i * 0x100, 11, 17⟩
abbrev HIF_Q_LOAD.ACTIVE (i : Nat) : Fld := ⟨0x10034 + i * 0x100, 0, 11⟩
abbrev HIF_Q_ACCEPTED.COUNT (i : Nat) : Fld := ⟨0x10038 + i * 0x100, 0, 32⟩
abbrev HIF_Q_REFUSED.COUNT (i : Nat) : Fld := ⟨0x1003c + i * 0x100, 0, 32⟩
/-- Offset of SIP_CTRL. -/
abbrev SIP_CTRL.word : Nat := 0x100000
abbrev SIP_CTRL.LOW_SHARE : Fld := ⟨0x100000, 0, 8⟩
/-- Offset of SIP_STATUS. -/
abbrev SIP_STATUS.word : Nat := 0x100004
abbrev SIP_STATUS.WIN_REFUSED : Fld := ⟨0x100004, 2, 1⟩
abbrev SIP_STATUS.ASSIGN_REFUSED : Fld := ⟨0x100004, 1, 1⟩
abbrev SIP_STATUS.ENGINE_SHORT : Fld := ⟨0x100004, 0, 1⟩
abbrev SIP_ACTIVE_LO.CH : Fld := ⟨0x100008, 0, 32⟩
abbrev SIP_ACTIVE_HI.CH : Fld := ⟨0x10000c, 0, 32⟩
/-- Offset of SIP_CH_ASSIGN. -/
abbrev SIP_CH_ASSIGN.word (i : Nat) : Nat := 0x100100 + i * 0x4
abbrev SIP_CH_ASSIGN.SPOOL_OK (i : Nat) : Fld := ⟨0x100100 + i * 0x4, 21, 1⟩
abbrev SIP_CH_ASSIGN.TILE_OK (i : Nat) : Fld := ⟨0x100100 + i * 0x4, 20, 1⟩
abbrev SIP_CH_ASSIGN.WEIGHT (i : Nat) : Fld := ⟨0x100100 + i * 0x4, 16, 4⟩
abbrev SIP_CH_ASSIGN.VEC (i : Nat) : Fld := ⟨0x100100 + i * 0x4, 8, 6⟩
abbrev SIP_CH_ASSIGN.ROLE (i : Nat) : Fld := ⟨0x100100 + i * 0x4, 4, 2⟩
abbrev SIP_CH_ASSIGN.FN (i : Nat) : Fld := ⟨0x100100 + i * 0x4, 0, 4⟩
/-- Offset of SIP_FN_WIN. -/
abbrev SIP_FN_WIN.word (i : Nat) : Nat := 0x100200 + i * 0x4
abbrev SIP_FN_WIN.SIZE (i : Nat) : Fld := ⟨0x100200 + i * 0x4, 16, 12⟩
abbrev SIP_FN_WIN.BASE (i : Nat) : Fld := ⟨0x100200 + i * 0x4, 0, 12⟩
/-- Offset of SIP_CH_RING_LO. -/
abbrev SIP_CH_RING_LO.word (i : Nat) : Nat := 0x110000 + i * 0x400
abbrev SIP_CH_RING_SIZE.LOG2 (i : Nat) : Fld := ⟨0x110008 + i * 0x400, 0, 4⟩
/-- Offset of SIP_CH_TAIL. -/
abbrev SIP_CH_TAIL.word (i : Nat) : Nat := 0x11000c + i * 0x400
abbrev SIP_CH_TAIL.TAIL (i : Nat) : Fld := ⟨0x11000c + i * 0x400, 0, 12⟩
abbrev SIP_CH_HEAD.HEAD (i : Nat) : Fld := ⟨0x110010 + i * 0x400, 0, 12⟩
/-- Offset of SIP_CH_CTRL. -/
abbrev SIP_CH_CTRL.word (i : Nat) : Nat := 0x110014 + i * 0x400
abbrev SIP_CH_CTRL.RESUME (i : Nat) : Fld := ⟨0x110014 + i * 0x400, 2, 1⟩
abbrev SIP_CH_CTRL.ABORT (i : Nat) : Fld := ⟨0x110014 + i * 0x400, 1, 1⟩
abbrev SIP_CH_CTRL.ENABLE (i : Nat) : Fld := ⟨0x110014 + i * 0x400, 0, 1⟩
abbrev SIP_CH_STATE.LAST_CODE (i : Nat) : Fld := ⟨0x110018 + i * 0x400, 8, 8⟩
abbrev SIP_CH_STATE.CTRL_REFUSED (i : Nat) : Fld := ⟨0x110018 + i * 0x400, 5, 1⟩
abbrev SIP_CH_STATE.ABORT_LATE (i : Nat) : Fld := ⟨0x110018 + i * 0x400, 4, 1⟩
abbrev SIP_CH_STATE.STATE (i : Nat) : Fld := ⟨0x110018 + i * 0x400, 0, 2⟩
abbrev SIP_CH_RESIDUE.RESIDUE (i : Nat) : Fld := ⟨0x11001c + i * 0x400, 0, 32⟩
abbrev SIP_CH_LAST_SEQ.SEQ (i : Nat) : Fld := ⟨0x110020 + i * 0x400, 0, 16⟩
abbrev SIP_CH_DONE_CNT.COUNT (i : Nat) : Fld := ⟨0x110024 + i * 0x400, 0, 32⟩
abbrev SIP_CH_ERR_CNT.COUNT (i : Nat) : Fld := ⟨0x110028 + i * 0x400, 0, 32⟩
/-- Offset of SIP_CH_BYTES_LO. -/
abbrev SIP_CH_BYTES_LO.word (i : Nat) : Nat := 0x11002c + i * 0x400
/-- Offset of SPL_CTRL. -/
abbrev SPL_CTRL.word : Nat := 0x200000
abbrev SPL_CTRL.LAYOUT : Fld := ⟨0x200000, 2, 2⟩
abbrev SPL_CTRL.MIRROR : Fld := ⟨0x200000, 1, 1⟩
abbrev SPL_CTRL.ENABLE : Fld := ⟨0x200000, 0, 1⟩
abbrev SPL_STATUS.SSD_FAILED : Fld := ⟨0x200004, 12, 4⟩
abbrev SPL_STATUS.SSD_PRESENT : Fld := ⟨0x200004, 8, 4⟩
abbrev SPL_STATUS.REFUSE_CAUSE : Fld := ⟨0x200004, 4, 4⟩
abbrev SPL_STATUS.RECOVERING : Fld := ⟨0x200004, 1, 1⟩
abbrev SPL_STATUS.WRITE_REFUSED : Fld := ⟨0x200004, 0, 1⟩
/-- Offset of SPL_EPOCH. -/
abbrev SPL_EPOCH.word : Nat := 0x200008
/-- Offset of SPL_CTR_LO. -/
abbrev SPL_CTR_LO.word : Nat := 0x20000c
abbrev SPL_THERMO.BURNED : Fld := ⟨0x200014, 0, 12⟩
abbrev SPL_CAP_TOTAL.EXTENTS : Fld := ⟨0x200018, 0, 30⟩
abbrev SPL_CAP_FREE.EXTENTS : Fld := ⟨0x20001c, 0, 30⟩
abbrev SPL_PAGES_HELD.PAGES : Fld := ⟨0x200020, 0, 21⟩
abbrev SPL_ERR_CNT.TAG_FAIL : Fld := ⟨0x200024, 16, 16⟩
abbrev SPL_ERR_CNT.IO_ERR : Fld := ⟨0x200024, 0, 16⟩
/-- Offset of SPL_QUOTA. -/
abbrev SPL_QUOTA.word (i : Nat) : Nat := 0x200100 + i * 0x4
abbrev SPL_QUOTA.EXTENTS (i : Nat) : Fld := ⟨0x200100 + i * 0x4, 0, 30⟩
/-- Offset of SPL_DIRECT. -/
abbrev SPL_DIRECT.word (i : Nat) : Nat := 0x200200 + i * 0x4
abbrev SPL_DIRECT.EXTENTS (i : Nat) : Fld := ⟨0x200200 + i * 0x4, 0, 30⟩
abbrev SPL_SL_QUOTA.EXTENTS (i : Nat) : Fld := ⟨0x210000 + i * 0x1000, 0, 30⟩
abbrev SPL_SL_DIRECT.EXTENTS (i : Nat) : Fld := ⟨0x210004 + i * 0x1000, 0, 30⟩
abbrev SPL_SL_USED.EXTENTS (i : Nat) : Fld := ⟨0x210008 + i * 0x1000, 0, 30⟩
abbrev SPL_SL_PAGES.PAGES (i : Nat) : Fld := ⟨0x21000c + i * 0x1000, 0, 21⟩
/-- Offset of SPL_SL_STATUS. -/
abbrev SPL_SL_STATUS.word (i : Nat) : Nat := 0x210010 + i * 0x1000
abbrev SPL_SL_STATUS.CFG_REFUSED (i : Nat) : Fld := ⟨0x210010 + i * 0x1000, 5, 1⟩
abbrev SPL_SL_STATUS.TRIM_DONE (i : Nat) : Fld := ⟨0x210010 + i * 0x1000, 4, 1⟩
abbrev SPL_SL_STATUS.ENUM_DONE (i : Nat) : Fld := ⟨0x210010 + i * 0x1000, 3, 1⟩
abbrev SPL_SL_STATUS.TAG_FAIL (i : Nat) : Fld := ⟨0x210010 + i * 0x1000, 2, 1⟩
abbrev SPL_SL_STATUS.QUOTA_HIT (i : Nat) : Fld := ⟨0x210010 + i * 0x1000, 1, 1⟩
abbrev SPL_SL_STATUS.WRITE_REFUSED (i : Nat) : Fld := ⟨0x210010 + i * 0x1000, 0, 1⟩
abbrev SPL_SL_TRIM_START.EXTENT (i : Nat) : Fld := ⟨0x210014 + i * 0x1000, 0, 30⟩
/-- Offset of SPL_SL_TRIM. -/
abbrev SPL_SL_TRIM.word (i : Nat) : Nat := 0x210018 + i * 0x1000
abbrev SPL_SL_TRIM_DONE.SKIPPED (i : Nat) : Fld := ⟨0x21001c + i * 0x1000, 0, 30⟩
abbrev SPL_SL_ENUM_LO.ADDR (i : Nat) : Fld := ⟨0x210020 + i * 0x1000, 6, 26⟩
abbrev SPL_SL_ENUM_HI.ADDR (i : Nat) : Fld := ⟨0x210024 + i * 0x1000, 0, 32⟩
/-- Offset of SPL_SL_ENUM_CTRL. -/
abbrev SPL_SL_ENUM_CTRL.word (i : Nat) : Nat := 0x210028 + i * 0x1000
/-- Offset of SPL_SL_ENUM_CNT. -/
abbrev SPL_SL_ENUM_CNT.word (i : Nat) : Nat := 0x21002c + i * 0x1000
abbrev SPL_SL_ENUM_CNT.COUNT (i : Nat) : Fld := ⟨0x21002c + i * 0x1000, 0, 21⟩
/-- Offset of KOR_CTRL. -/
abbrev KOR_CTRL.word : Nat := 0x300000
abbrev KOR_CTRL.AUDIT_EFFORT : Fld := ⟨0x300000, 0, 3⟩
abbrev KOR_STATUS.WAITING : Fld := ⟨0x300004, 8, 8⟩
abbrev KOR_STATUS.RUNNING : Fld := ⟨0x300004, 0, 8⟩
abbrev KOR_DEC_ERR.BAD_STREAM : Fld := ⟨0x300008, 16, 16⟩
abbrev KOR_DEC_ERR.BAD_BLOCK : Fld := ⟨0x300008, 0, 16⟩
abbrev KOR_LIM_ERR.SHORT_OUTPUT : Fld := ⟨0x30000c, 16, 16⟩
abbrev KOR_LIM_ERR.OUTPUT_LIMIT : Fld := ⟨0x30000c, 0, 16⟩
abbrev KOR_JOB_SRC_LO.ADDR (i : Nat) : Fld := ⟨0x310000 + i * 0x100, 6, 26⟩
abbrev KOR_JOB_SRC_HI.ADDR (i : Nat) : Fld := ⟨0x310004 + i * 0x100, 0, 32⟩
abbrev KOR_JOB_DST_LO.ADDR (i : Nat) : Fld := ⟨0x310008 + i * 0x100, 6, 26⟩
abbrev KOR_JOB_DST_HI.ADDR (i : Nat) : Fld := ⟨0x31000c + i * 0x100, 0, 32⟩
abbrev KOR_JOB_LEN.BYTES (i : Nat) : Fld := ⟨0x310010 + i * 0x100, 0, 32⟩
abbrev KOR_JOB_LIMIT.BYTES (i : Nat) : Fld := ⟨0x310014 + i * 0x100, 0, 32⟩
abbrev KOR_JOB_CFG.OPEN (i : Nat) : Fld := ⟨0x310018 + i * 0x100, 8, 1⟩
abbrev KOR_JOB_CFG.EFFORT (i : Nat) : Fld := ⟨0x310018 + i * 0x100, 4, 3⟩
abbrev KOR_JOB_CFG.MODE (i : Nat) : Fld := ⟨0x310018 + i * 0x100, 1, 2⟩
abbrev KOR_JOB_CFG.OP (i : Nat) : Fld := ⟨0x310018 + i * 0x100, 0, 1⟩
/-- Offset of KOR_JOB_CTRL. -/
abbrev KOR_JOB_CTRL.word (i : Nat) : Nat := 0x31001c + i * 0x100
abbrev KOR_JOB_CTRL.ABORT (i : Nat) : Fld := ⟨0x31001c + i * 0x100, 3, 1⟩
abbrev KOR_JOB_CTRL.CLOSE (i : Nat) : Fld := ⟨0x31001c + i * 0x100, 2, 1⟩
abbrev KOR_JOB_CTRL.FLUSH (i : Nat) : Fld := ⟨0x31001c + i * 0x100, 1, 1⟩
abbrev KOR_JOB_CTRL.GO (i : Nat) : Fld := ⟨0x31001c + i * 0x100, 0, 1⟩
abbrev KOR_JOB_STATUS.CODE (i : Nat) : Fld := ⟨0x310020 + i * 0x100, 8, 8⟩
abbrev KOR_JOB_STATUS.CTRL_REFUSED (i : Nat) : Fld := ⟨0x310020 + i * 0x100, 4, 1⟩
abbrev KOR_JOB_STATUS.STATE (i : Nat) : Fld := ⟨0x310020 + i * 0x100, 0, 2⟩
abbrev KOR_JOB_IN_DONE.BYTES (i : Nat) : Fld := ⟨0x310024 + i * 0x100, 0, 32⟩
abbrev KOR_JOB_OUT_DONE.BYTES (i : Nat) : Fld := ⟨0x310028 + i * 0x100, 0, 32⟩
/-- Offset of KOR_JOB_BLOCKS. -/
abbrev KOR_JOB_BLOCKS.word (i : Nat) : Nat := 0x31002c + i * 0x100
abbrev KOR_JOB_BLOCKS.STORED (i : Nat) : Fld := ⟨0x31002c + i * 0x100, 16, 16⟩
abbrev KOR_JOB_BLOCKS.CODED (i : Nat) : Fld := ⟨0x31002c + i * 0x100, 0, 16⟩
/-- Offset of CMP_MERGE. -/
abbrev CMP_MERGE.word : Nat := 0x400000
abbrev CMP_STATUS.CTRL_REFUSED : Fld := ⟨0x400004, 4, 1⟩
abbrev CMP_STATUS.PIN_ERR : Fld := ⟨0x400004, 3, 1⟩
abbrev CMP_STATUS.PIN_FULL : Fld := ⟨0x400004, 2, 1⟩
abbrev CMP_STATUS.RISK : Fld := ⟨0x400004, 1, 1⟩
abbrev CMP_STATUS.STORE_FULL : Fld := ⟨0x400004, 0, 1⟩
/-- Offset of CMP_BUDGET. -/
abbrev CMP_BUDGET.word : Nat := 0x400008
abbrev CMP_BUDGET.BYTES : Fld := ⟨0x400008, 0, 32⟩
abbrev CMP_STORE_USED.UNITS : Fld := ⟨0x40000c, 0, 27⟩
/-- Offset of CMP_PIN_USED. -/
abbrev CMP_PIN_USED.word : Nat := 0x400010
abbrev CMP_PIN_USED.BYTES : Fld := ⟨0x400010, 0, 23⟩
/-- Offset of CMP_PAGES. -/
abbrev CMP_PAGES.word : Nat := 0x400014
abbrev CMP_PAGES.COUNT : Fld := ⟨0x400014, 0, 32⟩
abbrev CMP_MISS_CNT.SPOILED : Fld := ⟨0x400018, 16, 16⟩
abbrev CMP_MISS_CNT.DROPPED : Fld := ⟨0x400018, 0, 16⟩
abbrev CMP_LAST_ERR.CODE : Fld := ⟨0x40001c, 24, 8⟩
abbrev CMP_LAST_ERR.FN : Fld := ⟨0x40001c, 18, 4⟩
abbrev CMP_LAST_ERR.TILE : Fld := ⟨0x40001c, 0, 18⟩
/-- Offset of CMP_PIN_ID. -/
abbrev CMP_PIN_ID.word (i : Nat) : Nat := 0x400100 + i * 0x8
abbrev CMP_PIN_ID.EN (i : Nat) : Fld := ⟨0x400100 + i * 0x8, 31, 1⟩
abbrev CMP_PIN_ID.RESIDENT (i : Nat) : Fld := ⟨0x400100 + i * 0x8, 30, 1⟩
abbrev CMP_PIN_ID.FN (i : Nat) : Fld := ⟨0x400100 + i * 0x8, 18, 4⟩
abbrev CMP_PIN_ID.TILE (i : Nat) : Fld := ⟨0x400100 + i * 0x8, 0, 18⟩
abbrev CMP_PIN_CNT.COUNT (i : Nat) : Fld := ⟨0x400104 + i * 0x8, 0, 13⟩
/-- Offset of FLM_FREEBOARD. -/
abbrev FLM_FREEBOARD.word : Nat := 0x800000
abbrev FLM_FREEBOARD.DEPTH : Fld := ⟨0x800000, 0, 2⟩
abbrev FLM_STATUS.REQ : Fld := ⟨0x800004, 16, 5⟩
abbrev FLM_STATUS.LIVE : Fld := ⟨0x800004, 8, 5⟩
abbrev FLM_STATUS.RESERVE : Fld := ⟨0x800004, 4, 1⟩
abbrev FLM_STATUS.CAP_SHORT : Fld := ⟨0x800004, 3, 1⟩
abbrev FLM_STATUS.LOG_FULL : Fld := ⟨0x800004, 2, 1⟩
abbrev FLM_STATUS.CTRL_REFUSED : Fld := ⟨0x800004, 1, 1⟩
abbrev FLM_STATUS.SCHED_RUN : Fld := ⟨0x800004, 0, 1⟩
/-- Offset of FLM_FENCED. -/
abbrev FLM_FENCED.word : Nat := 0x800008
abbrev FLM_FENCED.MASK : Fld := ⟨0x800008, 0, 16⟩
/-- Offset of FLM_RETIRED. -/
abbrev FLM_RETIRED.word : Nat := 0x80000c
abbrev FLM_RETIRED.MASK : Fld := ⟨0x80000c, 0, 16⟩
abbrev FLM_REDO_CNT.LOST : Fld := ⟨0x800010, 16, 16⟩
abbrev FLM_REDO_CNT.REDONE : Fld := ⟨0x800010, 0, 16⟩
abbrev FLM_LOG_PEND.ENTRIES : Fld := ⟨0x800014, 0, 19⟩
abbrev FLM_LOG_PEND.word : Nat := 0x800014
/-- Offset of FLM_PRED_CFG. -/
abbrev FLM_PRED_CFG.word : Nat := 0x800018
abbrev FLM_PRED_CFG.GUARD_MS : Fld := ⟨0x800018, 16, 16⟩
abbrev FLM_PRED_CFG.RAMP_MS : Fld := ⟨0x800018, 0, 16⟩
abbrev FLM_PRED_STATUS.TARGET : Fld := ⟨0x80001c, 16, 3⟩
abbrev FLM_PRED_STATUS.ACTIVE : Fld := ⟨0x80001c, 15, 1⟩
abbrev FLM_PRED_STATUS.STATIONS : Fld := ⟨0x80001c, 0, 12⟩
/-- Offset of FLM_SLICE_CTRL. -/
abbrev FLM_SLICE_CTRL.word (i : Nat) : Nat := 0x801000 + i * 0x10
abbrev FLM_SLICE_CTRL.UNFENCE (i : Nat) : Fld := ⟨0x801000 + i * 0x10, 0, 1⟩
/-- Offset of FLM_SLICE_STATE. -/
abbrev FLM_SLICE_STATE.word (i : Nat) : Nat := 0x801004 + i * 0x10
abbrev FLM_SLICE_STATE.ST (i : Nat) : Fld := ⟨0x801004 + i * 0x10, 20, 4⟩
abbrev FLM_SLICE_STATE.FENCES (i : Nat) : Fld := ⟨0x801004 + i * 0x10, 16, 2⟩
abbrev FLM_SLICE_STATE.STATE (i : Nat) : Fld := ⟨0x801004 + i * 0x10, 0, 3⟩
abbrev FLM_SLICE_DONE.COUNT (i : Nat) : Fld := ⟨0x801008 + i * 0x10, 0, 32⟩
/-- Offset of FLM_UPS. -/
abbrev FLM_UPS.word (i : Nat) : Nat := 0x802000 + i * 0x20
abbrev FLM_UPS.EDGE_THR (i : Nat) : Fld := ⟨0x802000 + i * 0x20, 8, 8⟩
abbrev FLM_UPS.MODE3 (i : Nat) : Fld := ⟨0x802000 + i * 0x20, 6, 2⟩
abbrev FLM_UPS.MODE2 (i : Nat) : Fld := ⟨0x802000 + i * 0x20, 4, 2⟩
abbrev FLM_UPS.MODE1 (i : Nat) : Fld := ⟨0x802000 + i * 0x20, 2, 2⟩
abbrev FLM_UPS.MODE0 (i : Nat) : Fld := ⟨0x802000 + i * 0x20, 0, 2⟩
abbrev FLM_FB.MIN (i : Nat) : Fld := ⟨0x802004 + i * 0x20, 2, 2⟩
abbrev FLM_FB.NOW (i : Nat) : Fld := ⟨0x802004 + i * 0x20, 0, 2⟩
abbrev FLM_ST_ERR.MISSING (i : Nat) : Fld := ⟨0x802008 + i * 0x20, 16, 16⟩
abbrev FLM_ST_ERR.LOST (i : Nat) : Fld := ⟨0x802008 + i * 0x20, 0, 16⟩
abbrev FLM_PRED.TEMPTY_MS (i : Nat) : Fld := ⟨0x80200c + i * 0x20, 16, 16⟩
abbrev FLM_PRED.INFLOW (i : Nat) : Fld := ⟨0x80200c + i * 0x20, 0, 16⟩
abbrev FLM_SCRSEL.CELL3 (i j : Nat) : Fld := ⟨0x803000 + i * 0x40 + j * 0x4, 9, 3⟩
abbrev FLM_SCRSEL.CELL2 (i j : Nat) : Fld := ⟨0x803000 + i * 0x40 + j * 0x4, 6, 3⟩
abbrev FLM_SCRSEL.CELL1 (i j : Nat) : Fld := ⟨0x803000 + i * 0x40 + j * 0x4, 3, 3⟩
abbrev FLM_SCRSEL.CELL0 (i j : Nat) : Fld := ⟨0x803000 + i * 0x40 + j * 0x4, 0, 3⟩
abbrev FLM_CELL_GEOM.SHIFT (i j : Nat) : Fld := ⟨0x804000 + i * 0x40 + j * 0x8, 16, 6⟩
abbrev FLM_CELL_GEOM.H (i j : Nat) : Fld := ⟨0x804000 + i * 0x40 + j * 0x8, 8, 6⟩
abbrev FLM_CELL_GEOM.W (i j : Nat) : Fld := ⟨0x804000 + i * 0x40 + j * 0x8, 0, 6⟩
abbrev FLM_CELL_RAMP.RAMP (i j : Nat) : Fld := ⟨0x804004 + i * 0x40 + j * 0x8, 0, 12⟩
abbrev FLM_TONE.LEVEL (i j k l : Nat) : Fld := ⟨0x900000 + i * 0x10000 + j * 0x1000 + k * 0x400 + l * 0x4, 0, 12⟩
abbrev FLM_CELL.JUST (i j k l : Nat) : Fld := ⟨0xa00000 + i * 0x20000 + j * 0x4000 + k * 0x100 + l * 0x4, 12, 1⟩
abbrev FLM_CELL.BASE (i j k l : Nat) : Fld := ⟨0xa00000 + i * 0x20000 + j * 0x4000 + k * 0x100 + l * 0x4, 0, 12⟩
/-- Offset of SCN_CTRL. -/
abbrev SCN_CTRL.word : Nat := 0xc00000
abbrev SCN_CTRL.SLEW : Fld := ⟨0xc00000, 16, 8⟩
abbrev SCN_CTRL.FOLLOW : Fld := ⟨0xc00000, 8, 1⟩
abbrev SCN_CTRL.HALF : Fld := ⟨0xc00000, 7, 1⟩
abbrev SCN_CTRL.CLASS : Fld := ⟨0xc00000, 0, 3⟩
/-- Offset of SCN_STATE. -/
abbrev SCN_STATE.word : Nat := 0xc00004
abbrev SCN_STATE.REFUSE : Fld := ⟨0xc00004, 8, 2⟩
abbrev SCN_STATE.CLASS_NOW : Fld := ⟨0xc00004, 4, 3⟩
abbrev SCN_STATE.STATE : Fld := ⟨0xc00004, 0, 2⟩
/-- Offset of SCN_RAMP. -/
abbrev SCN_RAMP.word : Nat := 0xc00008
abbrev SCN_RAMP.TIMEOUT_MS : Fld := ⟨0xc00008, 16, 16⟩
abbrev SCN_RAMP.RATE : Fld := ⟨0xc00008, 0, 16⟩
/-- Offset of SCN_WEB_CFG. -/
abbrev SCN_WEB_CFG.word : Nat := 0xc0000c
abbrev SCN_WEB_CFG.SRC : Fld := ⟨0xc0000c, 24, 2⟩
abbrev SCN_WEB_CFG.DIR : Fld := ⟨0xc0000c, 8, 1⟩
abbrev SCN_WEB_CFG.ENC : Fld := ⟨0xc0000c, 0, 5⟩
/-- Offset of SCN_WEB_SCALE. -/
abbrev SCN_WEB_SCALE.word : Nat := 0xc00010
abbrev SCN_WEB_SCALE.SCALE : Fld := ⟨0xc00010, 0, 32⟩
/-- Offset of SCN_WEB_LINE_LO. -/
abbrev SCN_WEB_LINE_LO.word : Nat := 0xc00014
/-- Offset of SCN_WEB_LINE_HI. -/
abbrev SCN_WEB_LINE_HI.word : Nat := 0xc00018
abbrev SCN_WEB_SPEED.SPEED : Fld := ⟨0xc0001c, 0, 32⟩
abbrev SCN_ENC_ERR.QUAD : Fld := ⟨0xc00020, 16, 16⟩
abbrev SCN_ENC_ERR.LOST : Fld := ⟨0xc00020, 0, 16⟩
abbrev SCN_FID_CFG.MIN_SEP_PS : Fld := ⟨0xc00024, 0, 16⟩
/-- Offset of SCN_ROUTE. -/
abbrev SCN_ROUTE.word (i : Nat) : Nat := 0xc10000 + i * 0x1000
abbrev SCN_ROUTE.PEND (i : Nat) : Fld := ⟨0xc10000 + i * 0x1000, 31, 1⟩
abbrev SCN_ROUTE.SIDE (i : Nat) : Fld := ⟨0xc10000 + i * 0x1000, 8, 1⟩
abbrev SCN_ROUTE.PORT (i : Nat) : Fld := ⟨0xc10000 + i * 0x1000, 0, 4⟩
/-- Offset of SCN_OFS. -/
abbrev SCN_OFS.word (i : Nat) : Nat := 0xc10004 + i * 0x1000
abbrev SCN_OFS.PEND (i : Nat) : Fld := ⟨0xc10004 + i * 0x1000, 31, 1⟩
abbrev SCN_OFS.LINES (i : Nat) : Fld := ⟨0xc10004 + i * 0x1000, 0, 22⟩
abbrev SCN_TRK.SRC (i : Nat) : Fld := ⟨0xc10008 + i * 0x1000, 8, 2⟩
abbrev SCN_TRK.PC_ENC (i : Nat) : Fld := ⟨0xc10008 + i * 0x1000, 0, 5⟩
abbrev SCN_PC_SCALE.SCALE (i : Nat) : Fld := ⟨0xc1000c + i * 0x1000, 0, 32⟩
/-- Offset of SCN_SOL. -/
abbrev SCN_SOL.word (i : Nat) : Nat := 0xc10010 + i * 0x1000
abbrev SCN_SOL.TAPS (i : Nat) : Fld := ⟨0xc10010 + i * 0x1000, 0, 20⟩
abbrev SCN_LOCK.LOSS_NS (i : Nat) : Fld := ⟨0xc10014 + i * 0x1000, 16, 16⟩
abbrev SCN_LOCK.WIN_NS (i : Nat) : Fld := ⟨0xc10014 + i * 0x1000, 0, 16⟩
abbrev SCN_PHASE.ERR (i : Nat) : Fld := ⟨0xc10018 + i * 0x1000, 0, 16⟩
abbrev SCN_ST_STATE.ROUTE_REFUSED (i : Nat) : Fld := ⟨0xc1001c + i * 0x1000, 16, 1⟩
abbrev SCN_ST_STATE.TRIM_CLAMP (i : Nat) : Fld := ⟨0xc1001c + i * 0x1000, 15, 1⟩
abbrev SCN_ST_STATE.DLY_CLAMP (i : Nat) : Fld := ⟨0xc1001c + i * 0x1000, 14, 1⟩
abbrev SCN_ST_STATE.OFS_CLAMP (i : Nat) : Fld := ⟨0xc1001c + i * 0x1000, 13, 1⟩
abbrev SCN_ST_STATE.MOVE (i : Nat) : Fld := ⟨0xc1001c + i * 0x1000, 12, 1⟩
abbrev SCN_ST_STATE.FID_FAIL (i : Nat) : Fld := ⟨0xc1001c + i * 0x1000, 11, 1⟩
abbrev SCN_ST_STATE.FACET (i : Nat) : Fld := ⟨0xc1001c + i * 0x1000, 8, 3⟩
abbrev SCN_ST_STATE.TRK (i : Nat) : Fld := ⟨0xc1001c + i * 0x1000, 4, 2⟩
abbrev SCN_ST_STATE.POLY (i : Nat) : Fld := ⟨0xc1001c + i * 0x1000, 0, 3⟩
/-- Offset of SCN_SKEW. -/
abbrev SCN_SKEW.word (i : Nat) : Nat := 0xc10020 + i * 0x1000
abbrev SCN_SKEW.BASE (i : Nat) : Fld := ⟨0xc10020 + i * 0x1000, 16, 4⟩
abbrev SCN_SKEW.SLOPE (i : Nat) : Fld := ⟨0xc10020 + i * 0x1000, 0, 12⟩
abbrev SCN_BD_CNT.LOCK_LOSS (i : Nat) : Fld := ⟨0xc10024 + i * 0x1000, 16, 16⟩
abbrev SCN_BD_CNT.MISS (i : Nat) : Fld := ⟨0xc10024 + i * 0x1000, 0, 16⟩
/-- Offset of SCN_FACET_DLY. -/
abbrev SCN_FACET_DLY.word (i j : Nat) : Nat := 0xc10040 + i * 0x1000 + j * 0x4
abbrev SCN_FACET_DLY.TAPS (i j : Nat) : Fld := ⟨0xc10040 + i * 0x1000 + j * 0x4, 0, 13⟩
/-- Offset of SCN_FACET_TRIM. -/
abbrev SCN_FACET_TRIM.word (i j : Nat) : Nat := 0xc10060 + i * 0x1000 + j * 0x4
abbrev SCN_FACET_TRIM.TRIM (i j : Nat) : Fld := ⟨0xc10060 + i * 0x1000 + j * 0x4, 0, 16⟩
/-- Offset of SCN_ZONE_TRIM. -/
abbrev SCN_ZONE_TRIM.word (i j : Nat) : Nat := 0xc10080 + i * 0x1000 + j * 0x4
abbrev SCN_ZONE_TRIM.TRIM (i j : Nat) : Fld := ⟨0xc10080 + i * 0x1000 + j * 0x4, 0, 16⟩
/-- Offset of SCN_BOW. -/
abbrev SCN_BOW.word (i j : Nat) : Nat := 0xc10100 + i * 0x1000 + j * 0x4
/-- Offset of SCN_BL_CTRL. -/
abbrev SCN_BL_CTRL.word (i : Nat) : Nat := 0xc40000 + i * 0x100
abbrev SCN_BL_CTRL.REVERSE (i : Nat) : Fld := ⟨0xc40000 + i * 0x100, 2, 1⟩
abbrev SCN_BL_CTRL.RETRAIN (i : Nat) : Fld := ⟨0xc40000 + i * 0x100, 1, 1⟩
abbrev SCN_BL_CTRL.ENABLE (i : Nat) : Fld := ⟨0xc40000 + i * 0x100, 0, 1⟩
abbrev SCN_BL_STATUS.LANE_LOCK (i : Nat) : Fld := ⟨0xc40004 + i * 0x100, 8, 8⟩
abbrev SCN_BL_STATUS.CAUSE (i : Nat) : Fld := ⟨0xc40004 + i * 0x100, 4, 4⟩
abbrev SCN_BL_STATUS.STATE (i : Nat) : Fld := ⟨0xc40004 + i * 0x100, 0, 3⟩
abbrev SCN_BL_ERR.TRAIN_FAIL (i : Nat) : Fld := ⟨0xc40008 + i * 0x100, 24, 8⟩
abbrev SCN_BL_ERR.LANE_LOSS (i : Nat) : Fld := ⟨0xc40008 + i * 0x100, 16, 8⟩
abbrev SCN_BL_ERR.GROUP (i : Nat) : Fld := ⟨0xc40008 + i * 0x100, 0, 16⟩
abbrev SCN_SB_ERR.FAIL (i : Nat) : Fld := ⟨0xc4000c + i * 0x100, 16, 16⟩
abbrev SCN_SB_ERR.RETRY (i : Nat) : Fld := ⟨0xc4000c + i * 0x100, 0, 16⟩
abbrev SCN_BL_SWEEPS.COUNT (i : Nat) : Fld := ⟨0xc40010 + i * 0x100, 0, 32⟩
/-- Offset of CLK_STATUS. -/
abbrev CLK_STATUS.word : Nat := 0x2e00000
abbrev CLK_STATUS.CALREF_OK : Fld := ⟨0x2e00000, 17, 1⟩
abbrev CLK_STATUS.REFCLK_OK : Fld := ⟨0x2e00000, 16, 1⟩
abbrev CLK_STATUS.LOCKED : Fld := ⟨0x2e00000, 0, 16⟩
/-- Offset of CLK_CALREF. -/
abbrev CLK_CALREF.word : Nat := 0x2e00004
abbrev CLK_CALREF.ERR : Fld := ⟨0x2e00004, 0, 16⟩
abbrev CLK_PLL_CFG.ODIV (i : Nat) : Fld := ⟨0x2e10000 + i * 0x20, 20, 4⟩
abbrev CLK_PLL_CFG.DITHER (i : Nat) : Fld := ⟨0x2e10000 + i * 0x20, 16, 1⟩
abbrev CLK_PLL_CFG.N_INT (i : Nat) : Fld := ⟨0x2e10000 + i * 0x20, 0, 8⟩
abbrev CLK_PLL_FRAC.FRAC (i : Nat) : Fld := ⟨0x2e10004 + i * 0x20, 0, 24⟩
abbrev CLK_PLL_SEED.SEED (i : Nat) : Fld := ⟨0x2e10008 + i * 0x20, 0, 16⟩
abbrev CLK_PLL_CTRL.RELOCK (i : Nat) : Fld := ⟨0x2e1000c + i * 0x20, 0, 1⟩
abbrev CLK_PLL_STATE.FAILS (i : Nat) : Fld := ⟨0x2e10010 + i * 0x20, 24, 8⟩
abbrev CLK_PLL_STATE.LOCKS (i : Nat) : Fld := ⟨0x2e10010 + i * 0x20, 16, 8⟩
abbrev CLK_PLL_STATE.BAND (i : Nat) : Fld := ⟨0x2e10010 + i * 0x20, 8, 5⟩
abbrev CLK_PLL_STATE.LOCKF (i : Nat) : Fld := ⟨0x2e10010 + i * 0x20, 3, 1⟩
abbrev CLK_PLL_STATE.STATE (i : Nat) : Fld := ⟨0x2e10010 + i * 0x20, 0, 3⟩
abbrev EXP_CTRL.CAL_EN : Fld := ⟨0x1000000, 0, 1⟩
abbrev EXP_STATUS.CAL_RUN : Fld := ⟨0x1000004, 2, 1⟩
abbrev EXP_STATUS.CTRL_REFUSED : Fld := ⟨0x1000004, 1, 1⟩
abbrev EXP_STATUS.HALF_ACTIVE : Fld := ⟨0x1000004, 0, 1⟩
/-- Offset of EXP_MON_CFG. -/
abbrev EXP_MON_CFG.word : Nat := 0x1000008
abbrev EXP_MON_CFG.DEAD_PCT : Fld := ⟨0x1000008, 16, 8⟩
abbrev EXP_MON_CFG.PERIOD_MS : Fld := ⟨0x1000008, 0, 16⟩
/-- Offset of EXP_HALF. -/
abbrev EXP_HALF.word : Nat := 0x100000c
abbrev EXP_HALF.PCT : Fld := ⟨0x100000c, 0, 8⟩
/-- Offset of EXP_WIN. -/
abbrev EXP_WIN.word (i : Nat) : Nat := 0x1010000 + i * 0x1000
abbrev EXP_WIN.PEND (i : Nat) : Fld := ⟨0x1010000 + i * 0x1000, 31, 1⟩
abbrev EXP_WIN.WORK (i : Nat) : Fld := ⟨0x1010000 + i * 0x1000, 16, 4⟩
abbrev EXP_WIN.AUTO (i : Nat) : Fld := ⟨0x1010000 + i * 0x1000, 8, 1⟩
abbrev EXP_WIN.OFS (i : Nat) : Fld := ⟨0x1010000 + i * 0x1000, 0, 4⟩
abbrev EXP_HEAD_CFG.BD_EMIT (i : Nat) : Fld := ⟨0x1010004 + i * 0x1000, 16, 7⟩
abbrev EXP_HEAD_CFG.WSCALE (i : Nat) : Fld := ⟨0x1010004 + i * 0x1000, 8, 8⟩
abbrev EXP_HEAD_CFG.APC_EN (i : Nat) : Fld := ⟨0x1010004 + i * 0x1000, 0, 1⟩
abbrev EXP_PWR.APC_RANGE (i : Nat) : Fld := ⟨0x1010008 + i * 0x1000, 16, 12⟩
abbrev EXP_PWR.PCT (i : Nat) : Fld := ⟨0x1010008 + i * 0x1000, 0, 8⟩
abbrev EXP_HEAD_STATE.BD_NOW (i : Nat) : Fld := ⟨0x101000c + i * 0x1000, 24, 7⟩
abbrev EXP_HEAD_STATE.TEMP (i : Nat) : Fld := ⟨0x101000c + i * 0x1000, 16, 8⟩
abbrev EXP_HEAD_STATE.APC_FAULT (i : Nat) : Fld := ⟨0x101000c + i * 0x1000, 12, 1⟩
abbrev EXP_HEAD_STATE.POWER_RANK (i : Nat) : Fld := ⟨0x101000c + i * 0x1000, 8, 4⟩
abbrev EXP_HEAD_STATE.SPEED_RANK (i : Nat) : Fld := ⟨0x101000c + i * 0x1000, 4, 3⟩
abbrev EXP_HEAD_STATE.NEW (i : Nat) : Fld := ⟨0x101000c + i * 0x1000, 3, 1⟩
abbrev EXP_HEAD_STATE.STATE (i : Nat) : Fld := ⟨0x101000c + i * 0x1000, 0, 3⟩
abbrev EXP_COVER.HIDDEN (i : Nat) : Fld := ⟨0x1010010 + i * 0x1000, 24, 8⟩
abbrev EXP_COVER.UNCOVERED (i : Nat) : Fld := ⟨0x1010010 + i * 0x1000, 16, 8⟩
abbrev EXP_COVER.PARTIAL (i : Nat) : Fld := ⟨0x1010010 + i * 0x1000, 8, 8⟩
abbrev EXP_COVER.FILLED (i : Nat) : Fld := ⟨0x1010010 + i * 0x1000, 0, 8⟩
abbrev EXP_CAL.SETTLING (i : Nat) : Fld := ⟨0x1010014 + i * 0x1000, 17, 1⟩
abbrev EXP_CAL.VALID (i : Nat) : Fld := ⟨0x1010014 + i * 0x1000, 16, 1⟩
abbrev EXP_CAL.PASSES (i : Nat) : Fld := ⟨0x1010014 + i * 0x1000, 0, 16⟩
abbrev EXP_CAL_MAX.ERR_PS (i : Nat) : Fld := ⟨0x1010018 + i * 0x1000, 0, 16⟩
abbrev EXP_DET_CNT.DETECTED (i : Nat) : Fld := ⟨0x101001c + i * 0x1000, 16, 8⟩
abbrev EXP_DET_CNT.CLAMP (i : Nat) : Fld := ⟨0x101001c + i * 0x1000, 0, 16⟩
/-- Offset of EXP_DEAD. -/
abbrev EXP_DEAD.word (i j : Nat) : Nat := 0x1010020 + i * 0x1000 + j * 0x4
abbrev EXP_DEAD.DEAD (i j : Nat) : Fld := ⟨0x1010020 + i * 0x1000 + j * 0x4, 0, 32⟩
abbrev EXP_DEAD2.DEAD (i : Nat) : Fld := ⟨0x1010028 + i * 0x1000, 0, 8⟩
/-- Offset of EXP_FILL. -/
abbrev EXP_FILL.word (i j : Nat) : Nat := 0x1010030 + i * 0x1000 + j * 0x4
abbrev EXP_CUR_ADJ.ADJ (i j : Nat) : Fld := ⟨0x1010100 + i * 0x1000 + j * 0x4, 0, 16⟩
abbrev EXP_CUR.SENT (i j : Nat) : Fld := ⟨0x1010300 + i * 0x1000 + j * 0x4, 16, 12⟩
abbrev EXP_CUR.TGT (i j : Nat) : Fld := ⟨0x1010300 + i * 0x1000 + j * 0x4, 0, 12⟩
abbrev EXP_MON.VALID (i j : Nat) : Fld := ⟨0x1010500 + i * 0x1000 + j * 0x4, 31, 1⟩
abbrev EXP_MON.MON (i j : Nat) : Fld := ⟨0x1010500 + i * 0x1000 + j * 0x4, 0, 12⟩
abbrev EXP_TAP.MEAS (i j : Nat) : Fld := ⟨0x1010700 + i * 0x1000 + j * 0x4, 16, 12⟩
abbrev EXP_TAP.N (i j : Nat) : Fld := ⟨0x1010700 + i * 0x1000 + j * 0x4, 0, 12⟩
/-- Offset of EXP_HMEM. -/
abbrev EXP_HMEM.word (i j : Nat) : Nat := 0x1010800 + i * 0x1000 + j * 0x4
abbrev EXP_HMEM.BYTES (i j : Nat) : Fld := ⟨0x1010800 + i * 0x1000 + j * 0x4, 0, 32⟩
/-- Offset of INS_CTRL. -/
abbrev INS_CTRL.word : Nat := 0x1800000
abbrev INS_CTRL.EN1 : Fld := ⟨0x1800000, 1, 1⟩
abbrev INS_CTRL.EN0 : Fld := ⟨0x1800000, 0, 1⟩
/-- Offset of INS_STATUS. -/
abbrev INS_STATUS.word : Nat := 0x1800004
abbrev INS_STATUS.MODEL_OK : Fld := ⟨0x1800004, 1, 2⟩
abbrev INS_STATUS.CTRL_REFUSED : Fld := ⟨0x1800004, 0, 1⟩
/-- Offset of INS_XCAL_CTRL. -/
abbrev INS_XCAL_CTRL.word : Nat := 0x1800010
abbrev INS_XCAL_CTRL.PAGES : Fld := ⟨0x1800010, 16, 4⟩
abbrev INS_XCAL_CTRL.MEAS : Fld := ⟨0x1800010, 8, 4⟩
abbrev INS_XCAL_CTRL.SIDE : Fld := ⟨0x1800010, 2, 1⟩
abbrev INS_XCAL_CTRL.ABORT : Fld := ⟨0x1800010, 1, 1⟩
abbrev INS_XCAL_CTRL.START : Fld := ⟨0x1800010, 0, 1⟩
abbrev INS_XCAL_STATUS.ABSENT : Fld := ⟨0x1800014, 16, 8⟩
abbrev INS_XCAL_STATUS.STEPS : Fld := ⟨0x1800014, 8, 4⟩
abbrev INS_XCAL_STATUS.STATE : Fld := ⟨0x1800014, 0, 3⟩
/-- Offset of INS_AUDIT_CTRL. -/
abbrev INS_AUDIT_CTRL.word : Nat := 0x1800020
abbrev INS_AUDIT_CTRL.CODE : Fld := ⟨0x1800020, 16, 8⟩
abbrev INS_AUDIT_CTRL.STATE : Fld := ⟨0x1800020, 8, 2⟩
abbrev INS_AUDIT_CTRL.FN : Fld := ⟨0x1800020, 4, 4⟩
abbrev INS_AUDIT_CTRL.SIDE : Fld := ⟨0x1800020, 1, 1⟩
abbrev INS_AUDIT_CTRL.GO : Fld := ⟨0x1800020, 0, 1⟩
/-- Offset of INS_AUDIT_PAGE_LO. -/
abbrev INS_AUDIT_PAGE_LO.word : Nat := 0x1800024
abbrev INS_AUDIT_DST_LO.ADDR : Fld := ⟨0x180002c, 6, 26⟩
abbrev INS_AUDIT_DST_HI.ADDR : Fld := ⟨0x1800030, 0, 32⟩
abbrev INS_AUDIT_LIMIT.BYTES : Fld := ⟨0x1800034, 0, 32⟩
/-- Offset of INS_AUDIT_DONE. -/
abbrev INS_AUDIT_DONE.word : Nat := 0x1800038
abbrev INS_AUDIT_DONE.BYTES : Fld := ⟨0x1800038, 0, 32⟩
abbrev INS_CIS_CFG.FLIP (i : Nat) : Fld := ⟨0x1810000 + i * 0x10000, 31, 1⟩
abbrev INS_CIS_CFG.LAT (i : Nat) : Fld := ⟨0x1810000 + i * 0x10000, 18, 10⟩
abbrev INS_CIS_CFG.BLUR (i : Nat) : Fld := ⟨0x1810000 + i * 0x10000, 16, 2⟩
abbrev INS_CIS_CFG.X0 (i : Nat) : Fld := ⟨0x1810000 + i * 0x10000, 0, 16⟩
/-- Offset of INS_CIS_DIST. -/
abbrev INS_CIS_DIST.word (i : Nat) : Nat := 0x1810004 + i * 0x10000
abbrev INS_CIS_DIST.LINES (i : Nat) : Fld := ⟨0x1810004 + i * 0x10000, 0, 22⟩
abbrev INS_LINK.RATE (i : Nat) : Fld := ⟨0x1810008 + i * 0x10000, 16, 16⟩
abbrev INS_LINK.LANE_LOCK (i : Nat) : Fld := ⟨0x1810008 + i * 0x10000, 8, 4⟩
abbrev INS_LINK.RATE_LOW (i : Nat) : Fld := ⟨0x1810008 + i * 0x10000, 4, 1⟩
abbrev INS_LINK.STATE (i : Nat) : Fld := ⟨0x1810008 + i * 0x10000, 0, 2⟩
abbrev INS_LINK_ERR.BAD_LINES (i : Nat) : Fld := ⟨0x181000c + i * 0x10000, 16, 16⟩
abbrev INS_LINK_ERR.LOCK_LOSS (i : Nat) : Fld := ⟨0x181000c + i * 0x10000, 0, 16⟩
abbrev INS_MAP_CH.CH (i : Nat) : Fld := ⟨0x1810010 + i * 0x10000, 0, 24⟩
abbrev INS_MAP_INCL.INCL (i : Nat) : Fld := ⟨0x1810014 + i * 0x10000, 0, 12⟩
abbrev INS_THR_SPOT.AREA_S (i : Nat) : Fld := ⟨0x1810018 + i * 0x10000, 20, 10⟩
abbrev INS_THR_SPOT.AREA_M (i : Nat) : Fld := ⟨0x1810018 + i * 0x10000, 12, 8⟩
abbrev INS_THR_SPOT.MAG (i : Nat) : Fld := ⟨0x1810018 + i * 0x10000, 0, 12⟩
abbrev INS_THR_STREAK.LEN_S (i : Nat) : Fld := ⟨0x181001c + i * 0x10000, 24, 8⟩
abbrev INS_THR_STREAK.LEN_M (i : Nat) : Fld := ⟨0x181001c + i * 0x10000, 16, 8⟩
abbrev INS_THR_STREAK.MAG (i : Nat) : Fld := ⟨0x181001c + i * 0x10000, 0, 10⟩
abbrev INS_THR_LINE.SW_S (i : Nat) : Fld := ⟨0x1810020 + i * 0x10000, 24, 8⟩
abbrev INS_THR_LINE.SW_M (i : Nat) : Fld := ⟨0x1810020 + i * 0x10000, 16, 8⟩
abbrev INS_THR_LINE.PCT (i : Nat) : Fld := ⟨0x1810020 + i * 0x10000, 0, 6⟩
abbrev INS_THR_REG.DEN_S (i : Nat) : Fld := ⟨0x1810024 + i * 0x10000, 24, 8⟩
abbrev INS_THR_REG.DEN_M (i : Nat) : Fld := ⟨0x1810024 + i * 0x10000, 16, 8⟩
abbrev INS_THR_REG.REG_S (i : Nat) : Fld := ⟨0x1810024 + i * 0x10000, 8, 8⟩
abbrev INS_THR_REG.REG_M (i : Nat) : Fld := ⟨0x1810024 + i * 0x10000, 0, 8⟩
abbrev INS_SEV.SPOIL_EN (i : Nat) : Fld := ⟨0x1810028 + i * 0x10000, 1, 6⟩
abbrev INS_CORR.REF_ST (i : Nat) : Fld := ⟨0x181002c + i * 0x10000, 28, 4⟩
abbrev INS_CORR.AVG (i : Nat) : Fld := ⟨0x181002c + i * 0x10000, 20, 4⟩
abbrev INS_CORR.EN (i : Nat) : Fld := ⟨0x181002c + i * 0x10000, 0, 8⟩
abbrev INS_CORR_DB.DEN (i : Nat) : Fld := ⟨0x1810030 + i * 0x10000, 16, 8⟩
abbrev INS_CORR_DB.TAP (i : Nat) : Fld := ⟨0x1810030 + i * 0x10000, 8, 8⟩
abbrev INS_CORR_DB.REG (i : Nat) : Fld := ⟨0x1810030 + i * 0x10000, 0, 8⟩
abbrev INS_CORR_CNT.HELD (i : Nat) : Fld := ⟨0x1810034 + i * 0x10000, 16, 16⟩
abbrev INS_CORR_CNT.STEPS (i : Nat) : Fld := ⟨0x1810034 + i * 0x10000, 0, 16⟩
/-- Offset of INS_CAL_CTRL. -/
abbrev INS_CAL_CTRL.word (i : Nat) : Nat := 0x1810038 + i * 0x10000
abbrev INS_CAL_CTRL.OP (i : Nat) : Fld := ⟨0x1810038 + i * 0x10000, 1, 2⟩
abbrev INS_CAL_CTRL.GO (i : Nat) : Fld := ⟨0x1810038 + i * 0x10000, 0, 1⟩
abbrev INS_CAL_STATUS.CODE (i : Nat) : Fld := ⟨0x181003c + i * 0x10000, 8, 8⟩
abbrev INS_CAL_STATUS.VALID_CHART (i : Nat) : Fld := ⟨0x181003c + i * 0x10000, 2, 1⟩
abbrev INS_CAL_STATUS.VALID_WHITE (i : Nat) : Fld := ⟨0x181003c + i * 0x10000, 1, 1⟩
abbrev INS_CAL_STATUS.BUSY (i : Nat) : Fld := ⟨0x181003c + i * 0x10000, 0, 1⟩
/-- Offset of INS_RESULT. -/
abbrev INS_RESULT.word (i : Nat) : Nat := 0x1810040 + i * 0x10000
abbrev INS_RESULT.READY (i : Nat) : Fld := ⟨0x1810040 + i * 0x10000, 31, 1⟩
abbrev INS_RESULT.VERDICT (i : Nat) : Fld := ⟨0x1810040 + i * 0x10000, 24, 2⟩
abbrev INS_RESULT.NDEF (i : Nat) : Fld := ⟨0x1810040 + i * 0x10000, 16, 8⟩
abbrev INS_RESULT.SEQ (i : Nat) : Fld := ⟨0x1810040 + i * 0x10000, 0, 16⟩
/-- Offset of INS_RES_PAGE_LO. -/
abbrev INS_RES_PAGE_LO.word (i : Nat) : Nat := 0x1810044 + i * 0x10000
/-- Offset of INS_RES_INFO. -/
abbrev INS_RES_INFO.word (i : Nat) : Nat := 0x181004c + i * 0x10000
abbrev INS_RES_INFO.FN (i : Nat) : Fld := ⟨0x181004c + i * 0x10000, 28, 4⟩
abbrev INS_RES_INFO.MORE (i : Nat) : Fld := ⟨0x181004c + i * 0x10000, 20, 8⟩
abbrev INS_RES_INFO.NOT_INSP (i : Nat) : Fld := ⟨0x181004c + i * 0x10000, 16, 1⟩
abbrev INS_RES_INFO.DY (i : Nat) : Fld := ⟨0x181004c + i * 0x10000, 8, 8⟩
abbrev INS_RES_INFO.DX (i : Nat) : Fld := ⟨0x181004c + i * 0x10000, 0, 8⟩
/-- Offset of INS_ACK. -/
abbrev INS_ACK.word (i : Nat) : Nat := 0x1810050 + i * 0x10000
abbrev INS_RES_Q.LOST (i : Nat) : Fld := ⟨0x1810054 + i * 0x10000, 16, 16⟩
abbrev INS_RES_Q.QUEUED (i : Nat) : Fld := ⟨0x1810054 + i * 0x10000, 0, 9⟩
/-- Offset of INS_RES_REG. -/
abbrev INS_RES_REG.word (i j : Nat) : Nat := 0x1810080 + i * 0x10000 + j * 0x4
abbrev INS_RES_REG.DY (i j : Nat) : Fld := ⟨0x1810080 + i * 0x10000 + j * 0x4, 16, 16⟩
abbrev INS_RES_REG.DX (i j : Nat) : Fld := ⟨0x1810080 + i * 0x10000 + j * 0x4, 0, 16⟩
/-- Offset of INS_DEF_A. -/
abbrev INS_DEF_A.word (i j : Nat) : Nat := 0x1810100 + i * 0x10000 + j * 0x8
/-- Offset of INS_DEF_B. -/
abbrev INS_DEF_B.word (i j : Nat) : Nat := 0x1810104 + i * 0x10000 + j * 0x8
abbrev LPE_LOAD_EVAL.RATE : Fld := ⟨0x1c00000, 0, 32⟩
abbrev LPE_LOAD_ADC.RATE : Fld := ⟨0x1c00004, 0, 32⟩
/-- Offset of LPE_ACTIVE_LO. -/
abbrev LPE_ACTIVE_LO.word : Nat := 0x1c00008
/-- Offset of LPE_FAULT_LO. -/
abbrev LPE_FAULT_LO.word : Nat := 0x1c00010
abbrev LPE_ADC_SCAN.MASK : Fld := ⟨0x1c00018, 0, 32⟩
/-- Offset of LPE_WR_ERR. -/
abbrev LPE_WR_ERR.word : Nat := 0x1c0001c
abbrev LPE_WR_ERR.CMD : Fld := ⟨0x1c0001c, 16, 16⟩
abbrev LPE_WR_ERR.WRITE : Fld := ⟨0x1c0001c, 0, 16⟩
abbrev LPE_PWM_CFG.INV (i : Nat) : Fld := ⟨0x1c01000 + i * 0x8, 1, 1⟩
abbrev LPE_PWM_DUTY.BOUND (i : Nat) : Fld := ⟨0x1c01004 + i * 0x8, 16, 1⟩
abbrev LPE_PWM_DUTY.DUTY (i : Nat) : Fld := ⟨0x1c01004 + i * 0x8, 0, 16⟩
/-- Offset of LPE_ADC_VAL. -/
abbrev LPE_ADC_VAL.word (i : Nat) : Nat := 0x1c02000 + i * 0x4
abbrev LPE_ADC_VAL.BOUND (i : Nat) : Fld := ⟨0x1c02000 + i * 0x4, 16, 1⟩
abbrev LPE_ADC_VAL.CODE (i : Nat) : Fld := ⟨0x1c02000 + i * 0x4, 0, 16⟩
/-- Offset of LPE_LP_CMD. -/
abbrev LPE_LP_CMD.word (i : Nat) : Nat := 0x1c10000 + i * 0x100
abbrev LPE_LP_CMD.CMD (i : Nat) : Fld := ⟨0x1c10000 + i * 0x100, 0, 2⟩
abbrev LPE_LP_STATUS.REFUSE (i : Nat) : Fld := ⟨0x1c10004 + i * 0x100, 28, 4⟩
abbrev LPE_LP_STATUS.FAULT (i : Nat) : Fld := ⟨0x1c10004 + i * 0x100, 24, 4⟩
abbrev LPE_LP_STATUS.RAMPING (i : Nat) : Fld := ⟨0x1c10004 + i * 0x100, 5, 1⟩
abbrev LPE_LP_STATUS.SAT (i : Nat) : Fld := ⟨0x1c10004 + i * 0x100, 4, 1⟩
abbrev LPE_LP_STATUS.CMD_REFUSED (i : Nat) : Fld := ⟨0x1c10004 + i * 0x100, 3, 1⟩
abbrev LPE_LP_STATUS.WR_ERR (i : Nat) : Fld := ⟨0x1c10004 + i * 0x100, 2, 1⟩
abbrev LPE_LP_STATUS.STATE (i : Nat) : Fld := ⟨0x1c10004 + i * 0x100, 0, 2⟩
/-- Offset of LPE_LP_CFG. -/
abbrev LPE_LP_CFG.word (i : Nat) : Nat := 0x1c10008 + i * 0x100
abbrev LPE_LP_CFG.PERIOD_US (i : Nat) : Fld := ⟨0x1c10008 + i * 0x100, 16, 16⟩
abbrev LPE_LP_CFG.STOP (i : Nat) : Fld := ⟨0x1c10008 + i * 0x100, 14, 2⟩
abbrev LPE_LP_CFG.FCLASS (i : Nat) : Fld := ⟨0x1c10008 + i * 0x100, 12, 2⟩
abbrev LPE_LP_CFG.SP_SRC (i : Nat) : Fld := ⟨0x1c10008 + i * 0x100, 10, 2⟩
abbrev LPE_LP_CFG.SP_LOOP (i : Nat) : Fld := ⟨0x1c10008 + i * 0x100, 4, 6⟩
abbrev LPE_LP_CFG.B2_EN (i : Nat) : Fld := ⟨0x1c10008 + i * 0x100, 3, 1⟩
abbrev LPE_LP_CFG.B1_EN (i : Nat) : Fld := ⟨0x1c10008 + i * 0x100, 2, 1⟩
abbrev LPE_LP_CFG.FF_EN (i : Nat) : Fld := ⟨0x1c10008 + i * 0x100, 1, 1⟩
abbrev LPE_LP_IN.KIND (i : Nat) : Fld := ⟨0x1c1000c + i * 0x100, 28, 4⟩
abbrev LPE_LP_IN.TYPE (i : Nat) : Fld := ⟨0x1c1000c + i * 0x100, 24, 4⟩
abbrev LPE_LP_IN.PORT (i : Nat) : Fld := ⟨0x1c1000c + i * 0x100, 22, 2⟩
abbrev LPE_LP_IN.NODE (i : Nat) : Fld := ⟨0x1c1000c + i * 0x100, 14, 8⟩
abbrev LPE_LP_IN.BYTE (i : Nat) : Fld := ⟨0x1c1000c + i * 0x100, 8, 6⟩
abbrev LPE_LP_IN.INDEX (i : Nat) : Fld := ⟨0x1c1000c + i * 0x100, 0, 8⟩
abbrev LPE_LP_OUT.KIND (i : Nat) : Fld := ⟨0x1c10010 + i * 0x100, 28, 4⟩
abbrev LPE_LP_OUT.TYPE (i : Nat) : Fld := ⟨0x1c10010 + i * 0x100, 24, 4⟩
abbrev LPE_LP_OUT.PORT (i : Nat) : Fld := ⟨0x1c10010 + i * 0x100, 22, 2⟩
abbrev LPE_LP_OUT.NODE (i : Nat) : Fld := ⟨0x1c10010 + i * 0x100, 14, 8⟩
abbrev LPE_LP_OUT.BYTE (i : Nat) : Fld := ⟨0x1c10010 + i * 0x100, 8, 6⟩
abbrev LPE_LP_OUT.INDEX (i : Nat) : Fld := ⟨0x1c10010 + i * 0x100, 0, 8⟩
abbrev LPE_LP_POS.KIND (i : Nat) : Fld := ⟨0x1c10014 + i * 0x100, 28, 4⟩
abbrev LPE_LP_POS.PER_REV (i : Nat) : Fld := ⟨0x1c10014 + i * 0x100, 8, 20⟩
abbrev LPE_LP_POS.INDEX (i : Nat) : Fld := ⟨0x1c10014 + i * 0x100, 0, 5⟩
abbrev LPE_LP_TIME.DEV_MS (i : Nat) : Fld := ⟨0x1c10018 + i * 0x100, 0, 16⟩
abbrev LPE_LP_CNT.OVERRUN (i : Nat) : Fld := ⟨0x1c1001c + i * 0x100, 16, 16⟩
abbrev LPE_LP_CNT.FAULTS (i : Nat) : Fld := ⟨0x1c1001c + i * 0x100, 0, 16⟩
/-- Offset of LPE_LP_SP. -/
abbrev LPE_LP_SP.word (i : Nat) : Nat := 0x1c10020 + i * 0x100
/-- Offset of LPE_LP_MANUAL. -/
abbrev LPE_LP_MANUAL.word (i : Nat) : Nat := 0x1c10024 + i * 0x100
/-- Offset of LPE_LP_RAMP. -/
abbrev LPE_LP_RAMP.word (i : Nat) : Nat := 0x1c10028 + i * 0x100
/-- Offset of LPE_LP_KP. -/
abbrev LPE_LP_KP.word (i : Nat) : Nat := 0x1c1002c + i * 0x100
/-- Offset of LPE_LP_KI. -/
abbrev LPE_LP_KI.word (i : Nat) : Nat := 0x1c10030 + i * 0x100
/-- Offset of LPE_LP_KD. -/
abbrev LPE_LP_KD.word (i : Nat) : Nat := 0x1c10034 + i * 0x100
/-- Offset of LPE_LP_TF. -/
abbrev LPE_LP_TF.word (i : Nat) : Nat := 0x1c10038 + i * 0x100
/-- Offset of LPE_LP_IN_GAIN. -/
abbrev LPE_LP_IN_GAIN.word (i : Nat) : Nat := 0x1c1003c + i * 0x100
/-- Offset of LPE_LP_IN_OFS. -/
abbrev LPE_LP_IN_OFS.word (i : Nat) : Nat := 0x1c10040 + i * 0x100
/-- Offset of LPE_LP_U_MIN. -/
abbrev LPE_LP_U_MIN.word (i : Nat) : Nat := 0x1c10044 + i * 0x100
/-- Offset of LPE_LP_U_MAX. -/
abbrev LPE_LP_U_MAX.word (i : Nat) : Nat := 0x1c10048 + i * 0x100
/-- Offset of LPE_LP_SAFE. -/
abbrev LPE_LP_SAFE.word (i : Nat) : Nat := 0x1c1004c + i * 0x100
/-- Offset of LPE_LP_FF0. -/
abbrev LPE_LP_FF0.word (i : Nat) : Nat := 0x1c10050 + i * 0x100
/-- Offset of LPE_LP_FRIC_SCALE. -/
abbrev LPE_LP_FRIC_SCALE.word (i : Nat) : Nat := 0x1c10054 + i * 0x100
/-- Offset of LPE_LP_COG_SCALE. -/
abbrev LPE_LP_COG_SCALE.word (i : Nat) : Nat := 0x1c10058 + i * 0x100
/-- Offset of LPE_LP_Y_MIN. -/
abbrev LPE_LP_Y_MIN.word (i : Nat) : Nat := 0x1c1005c + i * 0x100
/-- Offset of LPE_LP_Y_MAX. -/
abbrev LPE_LP_Y_MAX.word (i : Nat) : Nat := 0x1c10060 + i * 0x100
/-- Offset of LPE_LP_DEV. -/
abbrev LPE_LP_DEV.word (i : Nat) : Nat := 0x1c10064 + i * 0x100
/-- Offset of LPE_LP_STOP_SP. -/
abbrev LPE_LP_STOP_SP.word (i : Nat) : Nat := 0x1c10068 + i * 0x100
/-- Offset of LPE_LP_STOP_RAMP. -/
abbrev LPE_LP_STOP_RAMP.word (i : Nat) : Nat := 0x1c1006c + i * 0x100
/-- Offset of LPE_LP_POS_OFS. -/
abbrev LPE_LP_POS_OFS.word (i : Nat) : Nat := 0x1c10070 + i * 0x100
/-- Offset of LPE_LP_B1B0. -/
abbrev LPE_LP_B1B0.word (i : Nat) : Nat := 0x1c10074 + i * 0x100
/-- Offset of LPE_LP_B1B1. -/
abbrev LPE_LP_B1B1.word (i : Nat) : Nat := 0x1c10078 + i * 0x100
/-- Offset of LPE_LP_B1B2. -/
abbrev LPE_LP_B1B2.word (i : Nat) : Nat := 0x1c1007c + i * 0x100
/-- Offset of LPE_LP_B1A1. -/
abbrev LPE_LP_B1A1.word (i : Nat) : Nat := 0x1c10080 + i * 0x100
/-- Offset of LPE_LP_B1A2. -/
abbrev LPE_LP_B1A2.word (i : Nat) : Nat := 0x1c10084 + i * 0x100
/-- Offset of LPE_LP_B2B0. -/
abbrev LPE_LP_B2B0.word (i : Nat) : Nat := 0x1c10088 + i * 0x100
/-- Offset of LPE_LP_B2B1. -/
abbrev LPE_LP_B2B1.word (i : Nat) : Nat := 0x1c1008c + i * 0x100
/-- Offset of LPE_LP_B2B2. -/
abbrev LPE_LP_B2B2.word (i : Nat) : Nat := 0x1c10090 + i * 0x100
/-- Offset of LPE_LP_B2A1. -/
abbrev LPE_LP_B2A1.word (i : Nat) : Nat := 0x1c10094 + i * 0x100
/-- Offset of LPE_LP_B2A2. -/
abbrev LPE_LP_B2A2.word (i : Nat) : Nat := 0x1c10098 + i * 0x100
/-- Offset of LPE_LP_R_NOW. -/
abbrev LPE_LP_R_NOW.word (i : Nat) : Nat := 0x1c100a0 + i * 0x100
/-- Offset of LPE_LP_Y_NOW. -/
abbrev LPE_LP_Y_NOW.word (i : Nat) : Nat := 0x1c100a4 + i * 0x100
/-- Offset of LPE_LP_U_NOW. -/
abbrev LPE_LP_U_NOW.word (i : Nat) : Nat := 0x1c100a8 + i * 0x100
/-- Offset of LPE_LP_I_NOW. -/
abbrev LPE_LP_I_NOW.word (i : Nat) : Nat := 0x1c100ac + i * 0x100
/-- Offset of LPE_FRIC. -/
abbrev LPE_FRIC.word (i j : Nat) : Nat := 0x1d00000 + i * 0x2000 + j * 0x4
/-- Offset of LPE_COG. -/
abbrev LPE_COG.word (i j : Nat) : Nat := 0x1d01000 + i * 0x2000 + j * 0x4
abbrev MOT_ACTIVE.AXES : Fld := ⟨0x2000000, 0, 24⟩
abbrev MOT_FAULT.AXES : Fld := ⟨0x2000004, 0, 24⟩
abbrev MOT_STATUS.CTRL_REFUSED : Fld := ⟨0x2000008, 0, 1⟩
abbrev MOT_USTEP_TAB.VALUE (i : Nat) : Fld := ⟨0x2000100 + i * 0x4, 0, 8⟩
/-- Offset of MOT_AX_CMD. -/
abbrev MOT_AX_CMD.word (i : Nat) : Nat := 0x2010000 + i * 0x100
abbrev MOT_AX_CMD.ARM (i : Nat) : Fld := ⟨0x2010000 + i * 0x100, 8, 1⟩
abbrev MOT_AX_CMD.CMD (i : Nat) : Fld := ⟨0x2010000 + i * 0x100, 0, 4⟩
abbrev MOT_AX_STATUS.REFUSE (i : Nat) : Fld := ⟨0x2010004 + i * 0x100, 28, 4⟩
abbrev MOT_AX_STATUS.FAULT (i : Nat) : Fld := ⟨0x2010004 + i * 0x100, 24, 4⟩
abbrev MOT_AX_STATUS.POS_LOST (i : Nat) : Fld := ⟨0x2010004 + i * 0x100, 12, 1⟩
abbrev MOT_AX_STATUS.GO_UNARMED (i : Nat) : Fld := ⟨0x2010004 + i * 0x100, 11, 1⟩
abbrev MOT_AX_STATUS.CMD_REFUSED (i : Nat) : Fld := ⟨0x2010004 + i * 0x100, 10, 1⟩
abbrev MOT_AX_STATUS.AT_LIMIT (i : Nat) : Fld := ⟨0x2010004 + i * 0x100, 9, 1⟩
abbrev MOT_AX_STATUS.ARMED (i : Nat) : Fld := ⟨0x2010004 + i * 0x100, 8, 1⟩
abbrev MOT_AX_STATUS.HOLD (i : Nat) : Fld := ⟨0x2010004 + i * 0x100, 7, 1⟩
abbrev MOT_AX_STATUS.JOG (i : Nat) : Fld := ⟨0x2010004 + i * 0x100, 6, 1⟩
abbrev MOT_AX_STATUS.STATE (i : Nat) : Fld := ⟨0x2010004 + i * 0x100, 0, 3⟩
/-- Offset of MOT_AX_CFG. -/
abbrev MOT_AX_CFG.word (i : Nat) : Nat := 0x2010008 + i * 0x100
abbrev MOT_AX_CFG.FCLASS (i : Nat) : Fld := ⟨0x2010008 + i * 0x100, 30, 2⟩
abbrev MOT_AX_CFG.SAFE (i : Nat) : Fld := ⟨0x2010008 + i * 0x100, 29, 1⟩
abbrev MOT_AX_CFG.ENC_CORR (i : Nat) : Fld := ⟨0x2010008 + i * 0x100, 28, 1⟩
abbrev MOT_AX_CFG.ENC_DIR (i : Nat) : Fld := ⟨0x2010008 + i * 0x100, 27, 1⟩
abbrev MOT_AX_CFG.ENC_EN (i : Nat) : Fld := ⟨0x2010008 + i * 0x100, 26, 1⟩
abbrev MOT_AX_CFG.ENC (i : Nat) : Fld := ⟨0x2010008 + i * 0x100, 21, 5⟩
abbrev MOT_AX_CFG.LIM_EN (i : Nat) : Fld := ⟨0x2010008 + i * 0x100, 20, 1⟩
abbrev MOT_AX_CFG.DECAY (i : Nat) : Fld := ⟨0x2010008 + i * 0x100, 18, 2⟩
abbrev MOT_AX_CFG.DIR (i : Nat) : Fld := ⟨0x2010008 + i * 0x100, 17, 1⟩
abbrev MOT_AX_CFG.MSTEP (i : Nat) : Fld := ⟨0x2010008 + i * 0x100, 12, 3⟩
/-- Offset of MOT_AX_VMAX. -/
abbrev MOT_AX_VMAX.word (i : Nat) : Nat := 0x201000c + i * 0x100
abbrev MOT_AX_VMAX.VALUE (i : Nat) : Fld := ⟨0x201000c + i * 0x100, 0, 32⟩
/-- Offset of MOT_AX_VSTART. -/
abbrev MOT_AX_VSTART.word (i : Nat) : Nat := 0x2010010 + i * 0x100
abbrev MOT_AX_VSTART.VALUE (i : Nat) : Fld := ⟨0x2010010 + i * 0x100, 0, 32⟩
/-- Offset of MOT_AX_ACC. -/
abbrev MOT_AX_ACC.word (i : Nat) : Nat := 0x2010014 + i * 0x100
abbrev MOT_AX_ACC.VALUE (i : Nat) : Fld := ⟨0x2010014 + i * 0x100, 0, 32⟩
/-- Offset of MOT_AX_DEC. -/
abbrev MOT_AX_DEC.word (i : Nat) : Nat := 0x2010018 + i * 0x100
abbrev MOT_AX_DEC.VALUE (i : Nat) : Fld := ⟨0x2010018 + i * 0x100, 0, 32⟩
/-- Offset of MOT_AX_QDEC. -/
abbrev MOT_AX_QDEC.word (i : Nat) : Nat := 0x201001c + i * 0x100
abbrev MOT_AX_QDEC.VALUE (i : Nat) : Fld := ⟨0x201001c + i * 0x100, 0, 32⟩
/-- Offset of MOT_AX_JERK. -/
abbrev MOT_AX_JERK.word (i : Nat) : Nat := 0x2010020 + i * 0x100
abbrev MOT_AX_JERK.VALUE (i : Nat) : Fld := ⟨0x2010020 + i * 0x100, 0, 32⟩
/-- Offset of MOT_AX_TARGET. -/
abbrev MOT_AX_TARGET.word (i : Nat) : Nat := 0x2010024 + i * 0x100
abbrev MOT_AX_TARGET.VALUE (i : Nat) : Fld := ⟨0x2010024 + i * 0x100, 0, 32⟩
/-- Offset of MOT_AX_TGT_NOW. -/
abbrev MOT_AX_TGT_NOW.word (i : Nat) : Nat := 0x2010028 + i * 0x100
/-- Offset of MOT_AX_POS. -/
abbrev MOT_AX_POS.word (i : Nat) : Nat := 0x201002c + i * 0x100
abbrev MOT_AX_POS.VALUE (i : Nat) : Fld := ⟨0x201002c + i * 0x100, 0, 32⟩
/-- Offset of MOT_AX_ENC_POS. -/
abbrev MOT_AX_ENC_POS.word (i : Nat) : Nat := 0x2010030 + i * 0x100
/-- Offset of MOT_AX_REM. -/
abbrev MOT_AX_REM.word (i : Nat) : Nat := 0x2010034 + i * 0x100
/-- Offset of MOT_AX_VEL. -/
abbrev MOT_AX_VEL.word (i : Nat) : Nat := 0x2010038 + i * 0x100
/-- Offset of MOT_AX_LIM_LO. -/
abbrev MOT_AX_LIM_LO.word (i : Nat) : Nat := 0x201003c + i * 0x100
/-- Offset of MOT_AX_LIM_HI. -/
abbrev MOT_AX_LIM_HI.word (i : Nat) : Nat := 0x2010040 + i * 0x100
abbrev MOT_AX_ENC_SCALE.SCALE (i : Nat) : Fld := ⟨0x2010044 + i * 0x100, 0, 32⟩
abbrev MOT_AX_DEVWIN.WIN (i : Nat) : Fld := ⟨0x2010048 + i * 0x100, 0, 16⟩
/-- Offset of MOT_AX_DEV_NOW. -/
abbrev MOT_AX_DEV_NOW.word (i : Nat) : Nat := 0x201004c + i * 0x100
/-- Offset of MOT_AX_CUR. -/
abbrev MOT_AX_CUR.word (i : Nat) : Nat := 0x2010050 + i * 0x100
abbrev MOT_AX_CUR.I_RUN (i : Nat) : Fld := ⟨0x2010050 + i * 0x100, 24, 8⟩
abbrev MOT_AX_CUR.I_HOLD (i : Nat) : Fld := ⟨0x2010050 + i * 0x100, 16, 8⟩
abbrev MOT_AX_CUR.HYST (i : Nat) : Fld := ⟨0x2010050 + i * 0x100, 8, 8⟩
abbrev MOT_AX_OFS.B_DN (i : Nat) : Fld := ⟨0x2010058 + i * 0x100, 24, 8⟩
abbrev MOT_AX_OFS.B_UP (i : Nat) : Fld := ⟨0x2010058 + i * 0x100, 16, 8⟩
abbrev MOT_AX_OFS.A_DN (i : Nat) : Fld := ⟨0x2010058 + i * 0x100, 8, 8⟩
abbrev MOT_AX_OFS.A_UP (i : Nat) : Fld := ⟨0x2010058 + i * 0x100, 0, 8⟩
abbrev MOT_AX_TD.TD_B (i : Nat) : Fld := ⟨0x201005c + i * 0x100, 16, 16⟩
abbrev MOT_AX_TD.TD_A (i : Nat) : Fld := ⟨0x201005c + i * 0x100, 0, 16⟩
/-- Offset of MOT_AX_CMP. -/
abbrev MOT_AX_CMP.word (i : Nat) : Nat := 0x2010060 + i * 0x100
/-- Offset of MOT_AX_CAP_POS. -/
abbrev MOT_AX_CAP_POS.word (i : Nat) : Nat := 0x2010064 + i * 0x100
/-- Offset of MOT_AX_CAP_ENC. -/
abbrev MOT_AX_CAP_ENC.word (i : Nat) : Nat := 0x2010068 + i * 0x100
abbrev MOT_AX_CNT.LOST (i : Nat) : Fld := ⟨0x201006c + i * 0x100, 16, 16⟩
abbrev MOT_AX_CNT.STALL (i : Nat) : Fld := ⟨0x201006c + i * 0x100, 0, 16⟩
abbrev LAT_STATUS.CTRL_REFUSED : Fld := ⟨0x2400000, 0, 1⟩
/-- Offset of LAT_PORT_CTRL. -/
abbrev LAT_PORT_CTRL.word (i : Nat) : Nat := 0x2410000 + i * 0x1000
abbrev LAT_PORT_CTRL.RESCAN (i : Nat) : Fld := ⟨0x2410000 + i * 0x1000, 1, 1⟩
abbrev LAT_PORT_CTRL.ENABLE (i : Nat) : Fld := ⟨0x2410000 + i * 0x1000, 0, 1⟩
abbrev LAT_PORT_CFG.BRK_CLASS (i : Nat) : Fld := ⟨0x2410004 + i * 0x1000, 30, 2⟩
abbrev LAT_PORT_CFG.CYCLE_US (i : Nat) : Fld := ⟨0x2410004 + i * 0x1000, 16, 10⟩
abbrev LAT_PORT_CFG.EXPECT_N (i : Nat) : Fld := ⟨0x2410004 + i * 0x1000, 0, 9⟩
abbrev LAT_PORT_STATUS.NODES (i : Nat) : Fld := ⟨0x2410008 + i * 0x1000, 23, 9⟩
abbrev LAT_PORT_STATUS.CYCLE_NOW (i : Nat) : Fld := ⟨0x2410008 + i * 0x1000, 13, 10⟩
abbrev LAT_PORT_STATUS.SAFE_ALL (i : Nat) : Fld := ⟨0x2410008 + i * 0x1000, 3, 1⟩
abbrev LAT_PORT_STATUS.STATE (i : Nat) : Fld := ⟨0x2410008 + i * 0x1000, 0, 3⟩
abbrev LAT_PORT_RING.RING_NS (i : Nat) : Fld := ⟨0x241000c + i * 0x1000, 0, 16⟩
abbrev LAT_PORT_CYC.COUNT (i : Nat) : Fld := ⟨0x2410010 + i * 0x1000, 0, 32⟩
abbrev LAT_PORT_ERR.BAD_FRAMES (i : Nat) : Fld := ⟨0x2410014 + i * 0x1000, 16, 16⟩
abbrev LAT_PORT_ERR.BREAKS (i : Nat) : Fld := ⟨0x2410014 + i * 0x1000, 8, 8⟩
abbrev LAT_PORT_ERR.NODE_LOSSES (i : Nat) : Fld := ⟨0x2410014 + i * 0x1000, 0, 8⟩
/-- Offset of LAT_MBX_CTRL. -/
abbrev LAT_MBX_CTRL.word (i : Nat) : Nat := 0x2410018 + i * 0x1000
abbrev LAT_MBX_CTRL.NODE (i : Nat) : Fld := ⟨0x2410018 + i * 0x1000, 24, 8⟩
abbrev LAT_MBX_CTRL.LEN (i : Nat) : Fld := ⟨0x2410018 + i * 0x1000, 16, 8⟩
abbrev LAT_MBX_CTRL.CMD (i : Nat) : Fld := ⟨0x2410018 + i * 0x1000, 1, 2⟩
abbrev LAT_MBX_CTRL.GO (i : Nat) : Fld := ⟨0x2410018 + i * 0x1000, 0, 1⟩
abbrev LAT_MBX_STATUS.CODE (i : Nat) : Fld := ⟨0x241001c + i * 0x1000, 8, 8⟩
abbrev LAT_MBX_STATUS.OVERRUN (i : Nat) : Fld := ⟨0x241001c + i * 0x1000, 2, 1⟩
abbrev LAT_MBX_STATUS.DONE (i : Nat) : Fld := ⟨0x241001c + i * 0x1000, 1, 1⟩
abbrev LAT_MBX_STATUS.BUSY (i : Nat) : Fld := ⟨0x241001c + i * 0x1000, 0, 1⟩
abbrev LAT_MBX_ADDR.NADDR (i : Nat) : Fld := ⟨0x2410020 + i * 0x1000, 0, 32⟩
/-- Offset of LAT_MBX_DATA. -/
abbrev LAT_MBX_DATA.word (i j : Nat) : Nat := 0x2410100 + i * 0x1000 + j * 0x4
/-- Offset of LAT_NODE. -/
abbrev LAT_NODE.word (i j : Nat) : Nat := 0x2420000 + i * 0x400 + j * 0x4
abbrev LAT_NODE.LOST_CLASS (i j : Nat) : Fld := ⟨0x2420000 + i * 0x400 + j * 0x4, 30, 2⟩
abbrev LAT_NODE.MISS (i j : Nat) : Fld := ⟨0x2420000 + i * 0x400 + j * 0x4, 22, 8⟩
abbrev LAT_NODE.STATE (i j : Nat) : Fld := ⟨0x2420000 + i * 0x400 + j * 0x4, 20, 2⟩
abbrev LAT_NODE.ILEN (i j : Nat) : Fld := ⟨0x2420000 + i * 0x400 + j * 0x4, 7, 7⟩
abbrev LAT_NODE.OLEN (i j : Nat) : Fld := ⟨0x2420000 + i * 0x400 + j * 0x4, 0, 7⟩
/-- Offset of LAT_NODE_ID. -/
abbrev LAT_NODE_ID.word (i j : Nat) : Nat := 0x2421000 + i * 0x400 + j * 0x4
abbrev LAT_NODE_ID.PRODUCT (i j : Nat) : Fld := ⟨0x2421000 + i * 0x400 + j * 0x4, 0, 32⟩
/-- Offset of LAT_EXPECT. -/
abbrev LAT_EXPECT.word (i j : Nat) : Nat := 0x2422000 + i * 0x400 + j * 0x4
abbrev LAT_EXPECT.PRODUCT (i j : Nat) : Fld := ⟨0x2422000 + i * 0x400 + j * 0x4, 0, 32⟩
/-- Offset of LAT_FAN_CFG. -/
abbrev LAT_FAN_CFG.word (i : Nat) : Nat := 0x2430000 + i * 0x10
abbrev LAT_FAN_CFG.FCLASS (i : Nat) : Fld := ⟨0x2430000 + i * 0x10, 30, 2⟩
abbrev LAT_FAN_CFG.TKIND (i : Nat) : Fld := ⟨0x2430000 + i * 0x10, 28, 2⟩
abbrev LAT_FAN_CFG.TSRC (i : Nat) : Fld := ⟨0x2430000 + i * 0x10, 22, 6⟩
abbrev LAT_FAN_CFG.ESC_DEG (i : Nat) : Fld := ⟨0x2430000 + i * 0x10, 16, 6⟩
abbrev LAT_FAN_CFG.RPM_MAX (i : Nat) : Fld := ⟨0x2430000 + i * 0x10, 0, 14⟩
/-- Offset of LAT_FAN_CTRL. -/
abbrev LAT_FAN_CTRL.word (i : Nat) : Nat := 0x2430004 + i * 0x10
abbrev LAT_FAN_CTRL.CLEAR (i : Nat) : Fld := ⟨0x2430004 + i * 0x10, 31, 1⟩
abbrev LAT_FAN_CTRL.DUTY (i : Nat) : Fld := ⟨0x2430004 + i * 0x10, 0, 16⟩
abbrev LAT_FAN_STATUS.RPM (i : Nat) : Fld := ⟨0x2430008 + i * 0x10, 16, 16⟩
abbrev LAT_FAN_STATUS.WARN (i : Nat) : Fld := ⟨0x2430008 + i * 0x10, 8, 1⟩
abbrev LAT_FAN_STATUS.ATTEMPT (i : Nat) : Fld := ⟨0x2430008 + i * 0x10, 4, 2⟩
abbrev LAT_FAN_STATUS.STATE (i : Nat) : Fld := ⟨0x2430008 + i * 0x10, 0, 3⟩
/-- Offset of LAT_OIMG. -/
abbrev LAT_OIMG.word (i j k : Nat) : Nat := 0x2500000 + i * 0x4000 + j * 0x40 + k * 0x4
/-- Offset of LAT_IIMG. -/
abbrev LAT_IIMG.word (i j k : Nat) : Nat := 0x2510000 + i * 0x4000 + j * 0x40 + k * 0x4
/-- Offset of TRN_STATUS. -/
abbrev TRN_STATUS.word : Nat := 0x2600000
abbrev TRN_STATUS.CTRL_REFUSED : Fld := ⟨0x2600000, 1, 1⟩
abbrev TRN_STATUS.OVF_ANY : Fld := ⟨0x2600000, 0, 1⟩
/-- Offset of TRN_SW. -/
abbrev TRN_SW.word : Nat := 0x2600004
abbrev TRN_SW.RAISE : Fld := ⟨0x2600004, 0, 8⟩
abbrev TRN_TIMER.EN (i : Nat) : Fld := ⟨0x2600010 + i * 0x4, 31, 1⟩
abbrev TRN_TIMER.ONESHOT (i : Nat) : Fld := ⟨0x2600010 + i * 0x4, 30, 1⟩
abbrev TRN_TIMER.PERIOD_US (i : Nat) : Fld := ⟨0x2600010 + i * 0x4, 0, 20⟩
abbrev TRN_EC_CFG.EDGE (i : Nat) : Fld := ⟨0x2600100 + i * 0x8, 30, 2⟩
abbrev TRN_EC_CFG.INPUT (i : Nat) : Fld := ⟨0x2600100 + i * 0x8, 0, 5⟩
/-- Offset of TRN_EC_VAL. -/
abbrev TRN_EC_VAL.word (i : Nat) : Nat := 0x2600104 + i * 0x8
/-- Offset of TRN_ENC_CNT. -/
abbrev TRN_ENC_CNT.word (i : Nat) : Nat := 0x2600200 + i * 0x4
/-- Offset of TRN_ENC_CAP. -/
abbrev TRN_ENC_CAP.word (i : Nat) : Nat := 0x2600280 + i * 0x4
/-- Offset of TRN_LB_CFG. -/
abbrev TRN_LB_CFG.word (i : Nat) : Nat := 0x2600300 + i * 0x4
abbrev TRN_LB_CFG.EDGE (i : Nat) : Fld := ⟨0x2600300 + i * 0x4, 30, 2⟩
abbrev TRN_LB_CFG.PORT (i : Nat) : Fld := ⟨0x2600300 + i * 0x4, 24, 2⟩
abbrev TRN_LB_CFG.NODE (i : Nat) : Fld := ⟨0x2600300 + i * 0x4, 16, 8⟩
abbrev TRN_LB_CFG.BYTE (i : Nat) : Fld := ⟨0x2600300 + i * 0x4, 8, 6⟩
abbrev TRN_LB_CFG.BIT (i : Nat) : Fld := ⟨0x2600300 + i * 0x4, 0, 3⟩
/-- Offset of TRN_WC_LO. -/
abbrev TRN_WC_LO.word (i : Nat) : Nat := 0x2600400 + i * 0x8
/-- Offset of TRN_WC_HI. -/
abbrev TRN_WC_HI.word (i : Nat) : Nat := 0x2600404 + i * 0x8
abbrev TRN_LP_CFG.CYCLES (i : Nat) : Fld := ⟨0x2600500 + i * 0x4, 24, 8⟩
abbrev TRN_LP_CFG.LEVEL (i : Nat) : Fld := ⟨0x2600500 + i * 0x4, 23, 1⟩
abbrev TRN_LP_CFG.PORT (i : Nat) : Fld := ⟨0x2600500 + i * 0x4, 20, 2⟩
abbrev TRN_LP_CFG.NODE (i : Nat) : Fld := ⟨0x2600500 + i * 0x4, 12, 8⟩
abbrev TRN_LP_CFG.BYTE (i : Nat) : Fld := ⟨0x2600500 + i * 0x4, 6, 6⟩
abbrev TRN_LP_CFG.BIT (i : Nat) : Fld := ⟨0x2600500 + i * 0x4, 0, 3⟩
/-- Offset of TRN_TOF_LO. -/
abbrev TRN_TOF_LO.word : Nat := 0x2600700
/-- Offset of TRN_TK_SRC. -/
abbrev TRN_TK_SRC.word (i : Nat) : Nat := 0x2610000 + i * 0x20
/-- Offset of TRN_TK_CFG. -/
abbrev TRN_TK_CFG.word (i : Nat) : Nat := 0x2610004 + i * 0x20
abbrev TRN_TK_CFG.EN (i : Nat) : Fld := ⟨0x2610004 + i * 0x20, 8, 1⟩
abbrev TRN_TK_CFG.IRQ (i : Nat) : Fld := ⟨0x2610004 + i * 0x20, 5, 1⟩
abbrev TRN_TK_CFG.ONESHOT (i : Nat) : Fld := ⟨0x2610004 + i * 0x20, 4, 1⟩
abbrev TRN_TK_CFG.SLOT_EN (i : Nat) : Fld := ⟨0x2610004 + i * 0x20, 0, 4⟩
/-- Offset of TRN_TK_STATE. -/
abbrev TRN_TK_STATE.word (i : Nat) : Nat := 0x2610008 + i * 0x20
abbrev TRN_TK_STATE.ACK (i : Nat) : Fld := ⟨0x2610008 + i * 0x20, 8, 4⟩
abbrev TRN_TK_STATE.OVF (i : Nat) : Fld := ⟨0x2610008 + i * 0x20, 4, 1⟩
abbrev TRN_TK_STATE.PEND (i : Nat) : Fld := ⟨0x2610008 + i * 0x20, 0, 4⟩
abbrev TRN_TK_CNT.LOST (i : Nat) : Fld := ⟨0x261000c + i * 0x20, 16, 16⟩
abbrev TRN_TK_CNT.FIRED (i : Nat) : Fld := ⟨0x261000c + i * 0x20, 0, 16⟩
/-- Offset of TRN_TK_STAMP_LO. -/
abbrev TRN_TK_STAMP_LO.word (i : Nat) : Nat := 0x2610010 + i * 0x20
/-- Offset of CUL_CTRL. -/
abbrev CUL_CTRL.word : Nat := 0x2800000
abbrev CUL_CTRL.UNFOLD : Fld := ⟨0x2800000, 2, 1⟩
abbrev CUL_CTRL.RESTART : Fld := ⟨0x2800000, 1, 1⟩
abbrev CUL_CTRL.ENABLE : Fld := ⟨0x2800000, 0, 1⟩
/-- Offset of CUL_STATUS. -/
abbrev CUL_STATUS.word : Nat := 0x2800004
abbrev CUL_STATUS.INDEX : Fld := ⟨0x2800004, 20, 4⟩
abbrev CUL_STATUS.MASTER : Fld := ⟨0x2800004, 19, 1⟩
abbrev CUL_STATUS.CTRL_REFUSED : Fld := ⟨0x2800004, 16, 1⟩
abbrev CUL_STATUS.STATE : Fld := ⟨0x2800004, 0, 4⟩
abbrev CUL_MEMBERS.N : Fld := ⟨0x2800008, 28, 4⟩
abbrev CUL_MEMBERS.FOLD_AT : Fld := ⟨0x2800008, 24, 4⟩
abbrev CUL_MEMBERS.ABSENT : Fld := ⟨0x2800008, 16, 8⟩
abbrev CUL_MEMBERS.PRESENT : Fld := ⟨0x2800008, 0, 8⟩
abbrev CUL_LINE.STATIONS : Fld := ⟨0x280000c, 8, 8⟩
abbrev CUL_LINE.CLASSES : Fld := ⟨0x280000c, 0, 5⟩
abbrev CUL_PORT_E.LANE_LOCK : Fld := ⟨0x2800010, 8, 4⟩
abbrev CUL_PORT_E.STATE : Fld := ⟨0x2800010, 0, 3⟩
abbrev CUL_PORT_W.LANE_LOCK : Fld := ⟨0x2800014, 8, 4⟩
abbrev CUL_PORT_W.STATE : Fld := ⟨0x2800014, 0, 3⟩
abbrev CUL_TB.OFFSET : Fld := ⟨0x2800018, 16, 16⟩
abbrev CUL_TB.DIR : Fld := ⟨0x2800018, 1, 1⟩
abbrev CUL_TB.LOCKED : Fld := ⟨0x2800018, 0, 1⟩
abbrev CUL_ERR.BAD_MSG : Fld := ⟨0x280001c, 16, 16⟩
abbrev CUL_ERR.FOLDS : Fld := ⟨0x280001c, 8, 8⟩
abbrev CUL_ERR.SPLITS : Fld := ⟨0x280001c, 0, 8⟩
abbrev CUL_ERR2.RESENT : Fld := ⟨0x2800020, 16, 16⟩
abbrev CUL_ERR2.TB_MISS : Fld := ⟨0x2800020, 0, 16⟩
abbrev CUL_DLY_E.NS (i : Nat) : Fld := ⟨0x2800100 + i * 0x8, 0, 20⟩
abbrev CUL_DLY_W.NS (i : Nat) : Fld := ⟨0x2800104 + i * 0x8, 0, 20⟩
/-- Offset of CUL_DEV. -/
abbrev CUL_DEV.word (i : Nat) : Nat := 0x2800200 + i * 0x4
abbrev CUL_DEV.STATIONS (i : Nat) : Fld := ⟨0x2800200 + i * 0x4, 8, 8⟩
abbrev CUL_DEV.FASTEST (i : Nat) : Fld := ⟨0x2800200 + i * 0x4, 0, 3⟩
/-- Offset of ECT_CTRL. -/
abbrev ECT_CTRL.word : Nat := 0x2a00000
abbrev ECT_CTRL.WD_CLASS : Fld := ⟨0x2a00000, 4, 2⟩
abbrev ECT_CTRL.PORT1_EN : Fld := ⟨0x2a00000, 1, 1⟩
abbrev ECT_CTRL.ENABLE : Fld := ⟨0x2a00000, 0, 1⟩
/-- Offset of ECT_STATUS. -/
abbrev ECT_STATUS.word : Nat := 0x2a00004
abbrev ECT_STATUS.AL_CODE : Fld := ⟨0x2a00004, 16, 16⟩
abbrev ECT_STATUS.LINK1 : Fld := ⟨0x2a00004, 9, 1⟩
abbrev ECT_STATUS.LINK0 : Fld := ⟨0x2a00004, 8, 1⟩
abbrev ECT_STATUS.ERR_IND : Fld := ⟨0x2a00004, 4, 1⟩
abbrev ECT_STATUS.AL_STATE : Fld := ⟨0x2a00004, 0, 4⟩
abbrev ECT_ADDR.ALIAS : Fld := ⟨0x2a00008, 16, 16⟩
abbrev ECT_ADDR.STATION : Fld := ⟨0x2a00008, 0, 16⟩
abbrev ECT_SYNC.CYCLE_NS : Fld := ⟨0x2a0000c, 0, 32⟩
/-- Offset of ECT_DC_OFS_LO. -/
abbrev ECT_DC_OFS_LO.word : Nat := 0x2a00010
/-- Offset of ECT_SYNC_TB_LO. -/
abbrev ECT_SYNC_TB_LO.word : Nat := 0x2a00018
/-- Offset of ECT_WAKE_LO. -/
abbrev ECT_WAKE_LO.word : Nat := 0x2a00020
/-- Offset of ECT_WAKE_HI. -/
abbrev ECT_WAKE_HI.word : Nat := 0x2a00024
/-- Offset of ECT_ERR. -/
abbrev ECT_ERR.word : Nat := 0x2a00028
abbrev ECT_ERR.WD : Fld := ⟨0x2a00028, 8, 8⟩
abbrev ECT_ERR.LINK_LOSS : Fld := ⟨0x2a00028, 0, 8⟩
abbrev ECT_ERR2.PDO_REFUSED : Fld := ⟨0x2a0002c, 16, 16⟩
abbrev ECT_ERR2.SYNC_ERR : Fld := ⟨0x2a0002c, 8, 8⟩
abbrev ECT_ERR2.STATE_ERR : Fld := ⟨0x2a0002c, 0, 8⟩
/-- Offset of PWR_STATE. -/
abbrev PWR_STATE.word : Nat := 0x2c00000
abbrev PWR_STATE.CAUSE : Fld := ⟨0x2c00000, 20, 4⟩
abbrev PWR_STATE.REFUSED : Fld := ⟨0x2c00000, 19, 1⟩
abbrev PWR_STATE.STEPPING : Fld := ⟨0x2c00000, 18, 1⟩
abbrev PWR_STATE.NOW : Fld := ⟨0x2c00000, 8, 3⟩
abbrev PWR_STATE.REQ : Fld := ⟨0x2c00000, 0, 3⟩
/-- Offset of PWR_STATUS. -/
abbrev PWR_STATUS.word : Nat := 0x2c00004
abbrev PWR_STATUS.CTRL_REFUSED : Fld := ⟨0x2c00004, 0, 1⟩
/-- Offset of PWR_SEQ_CFG. -/
abbrev PWR_SEQ_CFG.word : Nat := 0x2c00008
abbrev PWR_SEQ_CFG.DOWN_ENTRY : Fld := ⟨0x2c00008, 8, 6⟩
abbrev PWR_SEQ_CFG.UP_ENTRY : Fld := ⟨0x2c00008, 2, 6⟩
abbrev PWR_SEQ_CFG.FCLASS : Fld := ⟨0x2c00008, 0, 2⟩
abbrev PWR_SEQ_STATUS.CODE : Fld := ⟨0x2c0000c, 24, 8⟩
abbrev PWR_SEQ_STATUS.PC : Fld := ⟨0x2c0000c, 16, 6⟩
abbrev PWR_SEQ_STATUS.F : Fld := ⟨0x2c0000c, 2, 1⟩
abbrev PWR_SEQ_STATUS.STATE : Fld := ⟨0x2c0000c, 0, 2⟩
/-- Offset of PWR_AVS. -/
abbrev PWR_AVS.word : Nat := 0x2c00010
abbrev PWR_AVS.VMAX : Fld := ⟨0x2c00010, 11, 11⟩
abbrev PWR_AVS.VMIN : Fld := ⟨0x2c00010, 0, 11⟩
abbrev PWR_AVS_STATUS.VREAD : Fld := ⟨0x2c00014, 16, 11⟩
abbrev PWR_AVS_STATUS.VSET : Fld := ⟨0x2c00014, 0, 11⟩
abbrev PWR_AVS_ERR.MISMATCH : Fld := ⟨0x2c00018, 31, 1⟩
abbrev PWR_AVS_ERR.WRITES : Fld := ⟨0x2c00018, 0, 16⟩
/-- Offset of PWR_PMIC. -/
abbrev PWR_PMIC.word : Nat := 0x2c0001c
abbrev PWR_PMIC.BUS_ERR : Fld := ⟨0x2c0001c, 15, 1⟩
abbrev PWR_PMIC.EN : Fld := ⟨0x2c0001c, 7, 4⟩
abbrev PWR_BOOT.CAUSE : Fld := ⟨0x2c00020, 16, 8⟩
abbrev PWR_BOOT.STAGE : Fld := ⟨0x2c00020, 0, 4⟩
abbrev PWR_RAIL_REQ.REQ : Fld := ⟨0x2c00024, 0, 32⟩
abbrev PWR_RAIL_EN.EN : Fld := ⟨0x2c00028, 0, 32⟩
abbrev PWR_RAIL_GOOD.GOOD : Fld := ⟨0x2c0002c, 0, 32⟩
/-- Offset of PWR_SEQ_PROG. -/
abbrev PWR_SEQ_PROG.word (i : Nat) : Nat := 0x2c00100 + i * 0x4
abbrev PWR_SEQ_PROG.WORD (i : Nat) : Fld := ⟨0x2c00100 + i * 0x4, 0, 32⟩
abbrev PWR_PACE.SLACK (i : Nat) : Fld := ⟨0x2c00200 + i * 0x4, 0, 16⟩
/-- Offset of PWR_RAIL_CFG. -/
abbrev PWR_RAIL_CFG.word (i : Nat) : Nat := 0x2c10000 + i * 0x20
abbrev PWR_RAIL_CFG.SCALE (i : Nat) : Fld := ⟨0x2c10000 + i * 0x20, 16, 16⟩
abbrev PWR_RAIL_CFG.BLANK (i : Nat) : Fld := ⟨0x2c10000 + i * 0x20, 8, 8⟩
abbrev PWR_RAIL_CFG.KEEP (i : Nat) : Fld := ⟨0x2c10000 + i * 0x20, 7, 1⟩
abbrev PWR_RAIL_CFG.C4_OFF (i : Nat) : Fld := ⟨0x2c10000 + i * 0x20, 6, 1⟩
abbrev PWR_RAIL_CFG.FAULT_ACT (i : Nat) : Fld := ⟨0x2c10000 + i * 0x20, 5, 1⟩
abbrev PWR_RAIL_CFG.PG_EN (i : Nat) : Fld := ⟨0x2c10000 + i * 0x20, 4, 1⟩
abbrev PWR_RAIL_CFG.MON_EN (i : Nat) : Fld := ⟨0x2c10000 + i * 0x20, 3, 1⟩
abbrev PWR_RAIL_CFG.FCLASS (i : Nat) : Fld := ⟨0x2c10000 + i * 0x20, 0, 2⟩
/-- Offset of PWR_RAIL_DEP. -/
abbrev PWR_RAIL_DEP.word (i : Nat) : Nat := 0x2c10004 + i * 0x20
abbrev PWR_RAIL_DEP.MASK (i : Nat) : Fld := ⟨0x2c10004 + i * 0x20, 0, 32⟩
/-- Offset of PWR_RAIL_UV. -/
abbrev PWR_RAIL_UV.word (i : Nat) : Nat := 0x2c10008 + i * 0x20
abbrev PWR_RAIL_UV.WARN (i : Nat) : Fld := ⟨0x2c10008 + i * 0x20, 16, 16⟩
abbrev PWR_RAIL_UV.FAULT (i : Nat) : Fld := ⟨0x2c10008 + i * 0x20, 0, 16⟩
/-- Offset of PWR_RAIL_OV. -/
abbrev PWR_RAIL_OV.word (i : Nat) : Nat := 0x2c1000c + i * 0x20
abbrev PWR_RAIL_OV.WARN (i : Nat) : Fld := ⟨0x2c1000c + i * 0x20, 16, 16⟩
abbrev PWR_RAIL_OV.FAULT (i : Nat) : Fld := ⟨0x2c1000c + i * 0x20, 0, 16⟩
abbrev PWR_RAIL_STATUS.MV (i : Nat) : Fld := ⟨0x2c10010 + i * 0x20, 16, 16⟩
abbrev PWR_RAIL_STATUS.DEP_DROP (i : Nat) : Fld := ⟨0x2c10010 + i * 0x20, 3, 1⟩
abbrev PWR_RAIL_STATUS.LATCH (i : Nat) : Fld := ⟨0x2c10010 + i * 0x20, 2, 1⟩
abbrev PWR_RAIL_STATUS.PG (i : Nat) : Fld := ⟨0x2c10010 + i * 0x20, 1, 1⟩
abbrev PWR_RAIL_STATUS.GOOD (i : Nat) : Fld := ⟨0x2c10010 + i * 0x20, 0, 1⟩
/-- Offset of PWR_RAIL_CNT1. -/
abbrev PWR_RAIL_CNT1.word (i : Nat) : Nat := 0x2c10014 + i * 0x20
abbrev PWR_RAIL_CNT1.FAULT (i : Nat) : Fld := ⟨0x2c10014 + i * 0x20, 16, 16⟩
abbrev PWR_RAIL_CNT1.WARN (i : Nat) : Fld := ⟨0x2c10014 + i * 0x20, 0, 16⟩
/-- Offset of PWR_RAIL_CNT2. -/
abbrev PWR_RAIL_CNT2.word (i : Nat) : Nat := 0x2c10018 + i * 0x20
abbrev PWR_RAIL_CNT2.PGDROP (i : Nat) : Fld := ⟨0x2c10018 + i * 0x20, 16, 16⟩
abbrev PWR_RAIL_CNT2.STARTS (i : Nat) : Fld := ⟨0x2c10018 + i * 0x20, 0, 16⟩
/-- Offset of THM_CFG. -/
abbrev THM_CFG.word : Nat := 0x2d00000
abbrev THM_CFG.HYST : Fld := ⟨0x2d00000, 16, 8⟩
abbrev THM_CFG.CRIT : Fld := ⟨0x2d00000, 8, 8⟩
abbrev THM_CFG.WARN : Fld := ⟨0x2d00000, 0, 8⟩
/-- Offset of THM_GRACE. -/
abbrev THM_GRACE.word : Nat := 0x2d00004
abbrev THM_GRACE.MS : Fld := ⟨0x2d00004, 0, 16⟩
abbrev THM_STATUS.HOT_S : Fld := ⟨0x2d00008, 16, 5⟩
abbrev THM_STATUS.HOT : Fld := ⟨0x2d00008, 0, 16⟩
abbrev THM_WEIR.ENFORCED : Fld := ⟨0x2d0000c, 16, 16⟩
abbrev THM_WEIR.TARGET : Fld := ⟨0x2d0000c, 8, 3⟩
abbrev THM_WEIR.REQ : Fld := ⟨0x2d0000c, 4, 1⟩
abbrev THM_WEIR.ACTIVE : Fld := ⟨0x2d0000c, 0, 4⟩
abbrev THM_SHUT.ACTIVE : Fld := ⟨0x2d00010, 31, 1⟩
abbrev THM_SHUT.SENSOR : Fld := ⟨0x2d00010, 16, 5⟩
abbrev THM_SHUT.COUNT : Fld := ⟨0x2d00010, 0, 16⟩
abbrev THM_SENS.EN (i : Nat) : Fld := ⟨0x2d00100 + i * 0x4, 31, 1⟩
abbrev THM_SENS.FAULTY (i : Nat) : Fld := ⟨0x2d00100 + i * 0x4, 30, 1⟩
abbrev THM_SENS.EXCLUDED (i : Nat) : Fld := ⟨0x2d00100 + i * 0x4, 29, 1⟩
abbrev THM_SENS.TEMP (i : Nat) : Fld := ⟨0x2d00100 + i * 0x4, 0, 16⟩
/-- Offset of THM_CAL. -/
abbrev THM_CAL.word (i : Nat) : Nat := 0x2d00200 + i * 0x4
/-- Offset of OTP_FEATURE. -/
abbrev OTP_FEATURE.word : Nat := 0x3000000
abbrev OTP_FEATURE.FEATURE : Fld := ⟨0x3000000, 0, 32⟩
/-- Offset of OTP_STATUS. -/
abbrev OTP_STATUS.word : Nat := 0x3000004
abbrev OTP_STATUS.CODE : Fld := ⟨0x3000004, 16, 8⟩
abbrev OTP_STATUS.CTRL_REFUSED : Fld := ⟨0x3000004, 3, 1⟩
abbrev OTP_STATUS.FEAT_BAD : Fld := ⟨0x3000004, 2, 1⟩
abbrev OTP_STATUS.INTERNAL : Fld := ⟨0x3000004, 1, 1⟩
abbrev OTP_STATUS.BUSY : Fld := ⟨0x3000004, 0, 1⟩
abbrev OTP_ECC.UNCORR : Fld := ⟨0x3000008, 16, 16⟩
abbrev OTP_ECC.CORR : Fld := ⟨0x3000008, 0, 16⟩
abbrev OTP_SPARE.USED : Fld := ⟨0x300000c, 0, 6⟩
/-- Offset of OTP_CMD. -/
abbrev OTP_CMD.word : Nat := 0x3000010
abbrev OTP_CMD.OP : Fld := ⟨0x3000010, 28, 4⟩
abbrev OTP_CMD.ADDR : Fld := ⟨0x3000010, 0, 11⟩
/-- Offset of OTP_DATA_LO. -/
abbrev OTP_DATA_LO.word : Nat := 0x3000014
/-- Offset of OTP_P_ROW. -/
abbrev OTP_P_ROW.word (i : Nat) : Nat := 0x3010000 + i * 0x4
/-- Offset of SEC_LC. -/
abbrev SEC_LC.word : Nat := 0x3200000
abbrev SEC_LC.KEY : Fld := ⟨0x3200000, 24, 8⟩
abbrev SEC_LC.TARGET : Fld := ⟨0x3200000, 16, 2⟩
abbrev SEC_LC.DAMAGED : Fld := ⟨0x3200000, 2, 1⟩
abbrev SEC_LC.STATE : Fld := ⟨0x3200000, 0, 2⟩
/-- Offset of SEC_STATUS. -/
abbrev SEC_STATUS.word : Nat := 0x3200004
abbrev SEC_STATUS.TRNG_FAIL : Fld := ⟨0x3200004, 3, 1⟩
abbrev SEC_STATUS.FALLBACK : Fld := ⟨0x3200004, 2, 1⟩
abbrev SEC_STATUS.SLOT : Fld := ⟨0x3200004, 1, 1⟩
abbrev SEC_STATUS.CTRL_REFUSED : Fld := ⟨0x3200004, 0, 1⟩
abbrev SEC_SVN.COMMITTED : Fld := ⟨0x3200008, 16, 16⟩
abbrev SEC_SVN.RUNNING : Fld := ⟨0x3200008, 0, 16⟩
/-- Offset of SEC_SVN_CTRL. -/
abbrev SEC_SVN_CTRL.word : Nat := 0x320000c
abbrev SEC_SVN_CTRL.COMMIT : Fld := ⟨0x320000c, 0, 1⟩
/-- Offset of SEC_TOKEN_EPOCH. -/
abbrev SEC_TOKEN_EPOCH.word : Nat := 0x3200010
abbrev SEC_TOKEN_EPOCH.REVOKE_TO : Fld := ⟨0x3200010, 16, 9⟩
abbrev SEC_TOKEN_EPOCH.COUNT : Fld := ⟨0x3200010, 0, 9⟩
/-- Offset of SEC_DBG_CTRL. -/
abbrev SEC_DBG_CTRL.word : Nat := 0x3200014
abbrev SEC_DBG_CTRL.CLOSE : Fld := ⟨0x3200014, 1, 1⟩
abbrev SEC_DBG_CTRL.SUBMIT : Fld := ⟨0x3200014, 0, 1⟩
abbrev SEC_DBG_STATUS.REMAIN_S : Fld := ⟨0x3200018, 16, 16⟩
abbrev SEC_DBG_STATUS.CLOSE_CAUSE : Fld := ⟨0x3200018, 12, 4⟩
abbrev SEC_DBG_STATUS.CODE : Fld := ⟨0x3200018, 8, 4⟩
abbrev SEC_DBG_STATUS.LEVEL : Fld := ⟨0x3200018, 2, 2⟩
abbrev SEC_DBG_STATUS.STATE : Fld := ⟨0x3200018, 0, 2⟩
abbrev SEC_DBG_CNT.REFUSED : Fld := ⟨0x320001c, 16, 16⟩
abbrev SEC_DBG_CNT.OPENED : Fld := ⟨0x320001c, 0, 16⟩
/-- Offset of SEC_CHAL. -/
abbrev SEC_CHAL.word (i : Nat) : Nat := 0x3200100 + i * 0x4
/-- Offset of SEC_TOKEN. -/
abbrev SEC_TOKEN.word (i : Nat) : Nat := 0x3200200 + i * 0x4
/-- Offset of SEC_UID_LO. -/
abbrev SEC_UID_LO.word : Nat := 0x3200400
/-- Offset of FLT_CTRL. -/
abbrev FLT_CTRL.word : Nat := 0x3400000
abbrev FLT_CTRL.RELEASE : Fld := ⟨0x3400000, 10, 1⟩
abbrev FLT_CTRL.REARM : Fld := ⟨0x3400000, 9, 1⟩
abbrev FLT_CTRL.Q_MIN : Fld := ⟨0x3400000, 6, 3⟩
abbrev FLT_CTRL.FE_MIN : Fld := ⟨0x3400000, 3, 3⟩
/-- Offset of FLT_STATUS. -/
abbrev FLT_STATUS.word : Nat := 0x3400004
abbrev FLT_STATUS.QUEUED : Fld := ⟨0x3400004, 16, 7⟩
abbrev FLT_STATUS.SELF_FAIL : Fld := ⟨0x3400004, 7, 1⟩
abbrev FLT_STATUS.LATCHED : Fld := ⟨0x3400004, 6, 1⟩
abbrev FLT_STATUS.FE_VALID : Fld := ⟨0x3400004, 5, 1⟩
abbrev FLT_STATUS.QUIET : Fld := ⟨0x3400004, 4, 1⟩
abbrev FLT_STATUS.ACTIVE : Fld := ⟨0x3400004, 0, 3⟩
/-- Offset of FLT_QUIET. -/
abbrev FLT_QUIET.word : Nat := 0x3400008
abbrev FLT_QUIET.MS : Fld := ⟨0x3400008, 0, 16⟩
/-- Offset of FLT_RECOV_CFG. -/
abbrev FLT_RECOV_CFG.word : Nat := 0x340000c
abbrev FLT_RECOV_CFG.N : Fld := ⟨0x340000c, 16, 8⟩
abbrev FLT_RECOV_CFG.WINDOW_S : Fld := ⟨0x340000c, 0, 16⟩
/-- Offset of FLT_RECOV_CNT. -/
abbrev FLT_RECOV_CNT.word : Nat := 0x3400010
abbrev FLT_RECOV_CNT.TOTAL : Fld := ⟨0x3400010, 16, 16⟩
abbrev FLT_RECOV_CNT.IN_WINDOW : Fld := ⟨0x3400010, 0, 8⟩
/-- Offset of FLT_HB. -/
abbrev FLT_HB.word : Nat := 0x3400014
abbrev FLT_HB.KICK : Fld := ⟨0x3400014, 0, 1⟩
/-- Offset of FLT_HB_CFG. -/
abbrev FLT_HB_CFG.word : Nat := 0x3400018
abbrev FLT_HB_CFG.EN : Fld := ⟨0x3400018, 16, 1⟩
abbrev FLT_HB_CFG.MS : Fld := ⟨0x3400018, 0, 16⟩
/-- Offset of FLT_FE_INFO. -/
abbrev FLT_FE_INFO.word : Nat := 0x3400020
abbrev FLT_FE_INFO.INFO : Fld := ⟨0x3400020, 0, 32⟩
/-- Offset of FLT_FE_ADDR_LO. -/
abbrev FLT_FE_ADDR_LO.word : Nat := 0x3400024
/-- Offset of FLT_FE_ADDR_HI. -/
abbrev FLT_FE_ADDR_HI.word : Nat := 0x3400028
/-- Offset of FLT_FE_STAMP_LO. -/
abbrev FLT_FE_STAMP_LO.word : Nat := 0x340002c
/-- Offset of FLT_FE_STAMP_HI. -/
abbrev FLT_FE_STAMP_HI.word : Nat := 0x3400030
/-- Offset of FLT_FE_PARAM. -/
abbrev FLT_FE_PARAM.word : Nat := 0x3400034
abbrev FLT_FE_PARAM.PARAM : Fld := ⟨0x3400034, 0, 32⟩
abbrev FLT_Q_INFO.INFO : Fld := ⟨0x3400040, 0, 32⟩
/-- Offset of FLT_Q_ADDR_LO. -/
abbrev FLT_Q_ADDR_LO.word : Nat := 0x3400044
/-- Offset of FLT_Q_STAMP_LO. -/
abbrev FLT_Q_STAMP_LO.word : Nat := 0x340004c
abbrev FLT_Q_PARAM.PARAM : Fld := ⟨0x3400054, 0, 32⟩
/-- Offset of FLT_Q_POP. -/
abbrev FLT_Q_POP.word : Nat := 0x3400058
abbrev FLT_Q_POP.POP : Fld := ⟨0x3400058, 0, 1⟩
abbrev FLT_CNT.COUNT (i : Nat) : Fld := ⟨0x3400100 + i * 0x4, 0, 32⟩
abbrev FLT_OVR.LOST (i : Nat) : Fld := ⟨0x3400120 + i * 0x4, 0, 16⟩
abbrev HDG_STATUS.CTRL_REFUSED : Fld := ⟨0x1400000, 20, 1⟩
abbrev HDG_STATUS.IL_OPEN : Fld := ⟨0x1400000, 16, 4⟩
abbrev HDG_STATUS.FUSER_KILL : Fld := ⟨0x1400000, 15, 1⟩
abbrev HDG_STATUS.HV_KILL : Fld := ⟨0x1400000, 14, 1⟩
abbrev HDG_STATUS.LASER_EN : Fld := ⟨0x1400000, 0, 12⟩
/-- Offset of HDG_ONMAX. -/
abbrev HDG_ONMAX.word (i : Nat) : Nat := 0x1400010 + i * 0x4
/-- Offset of HDG_DUTY. -/
abbrev HDG_DUTY.word : Nat := 0x1400024
abbrev HDG_DUTY.PCT : Fld := ⟨0x1400024, 0, 16⟩
/-- Offset of HDG_IL_MAP. -/
abbrev HDG_IL_MAP.word (i : Nat) : Nat := 0x1400030 + i * 0x4
abbrev HDG_IL_MAP.NVAL (i : Nat) : Fld := ⟨0x1400030 + i * 0x4, 16, 14⟩
abbrev HDG_IL_MAP.MAP (i : Nat) : Fld := ⟨0x1400030 + i * 0x4, 0, 14⟩
/-- Offset of HDG_ST_CFG. -/
abbrev HDG_ST_CFG.word (i : Nat) : Nat := 0x1400040 + i * 0x4
abbrev HDG_ST_CFG.PPR (i : Nat) : Fld := ⟨0x1400040 + i * 0x4, 5, 11⟩
abbrev HDG_ST_CFG.TACH (i : Nat) : Fld := ⟨0x1400040 + i * 0x4, 0, 5⟩
abbrev HDG_ST_STATUS.EMITTER (i : Nat) : Fld := ⟨0x1400080 + i * 0x4, 16, 8⟩
abbrev HDG_ST_STATUS.LAST_CAUSE (i : Nat) : Fld := ⟨0x1400080 + i * 0x4, 8, 4⟩
abbrev HDG_ST_STATUS.SLOW (i : Nat) : Fld := ⟨0x1400080 + i * 0x4, 3, 1⟩
abbrev HDG_ST_STATUS.CUT (i : Nat) : Fld := ⟨0x1400080 + i * 0x4, 2, 1⟩
abbrev HDG_ST_STATUS.IL (i : Nat) : Fld := ⟨0x1400080 + i * 0x4, 1, 1⟩
abbrev HDG_ST_STATUS.EN (i : Nat) : Fld := ⟨0x1400080 + i * 0x4, 0, 1⟩
abbrev HDG_DUTY_NOW.DUTY (i : Nat) : Fld := ⟨0x14000c0 + i * 0x4, 0, 16⟩
abbrev HDG_CNT.ONTIME : Fld := ⟨0x1400100, 24, 8⟩
abbrev HDG_CNT.DUTY : Fld := ⟨0x1400100, 16, 8⟩
abbrev HDG_CNT.IL : Fld := ⟨0x1400100, 8, 8⟩
abbrev HDG_CNT.SLOW_FIRE : Fld := ⟨0x1400100, 0, 8⟩
abbrev EVR_STATUS.CTRL_REFUSED : Fld := ⟨0x3600000, 4, 1⟩
abbrev EVR_STATUS.NOR_FAIL : Fld := ⟨0x3600000, 3, 1⟩
abbrev EVR_STATUS.LW_PENDING : Fld := ⟨0x3600000, 2, 1⟩
abbrev EVR_STATUS.CLEARING : Fld := ⟨0x3600000, 1, 1⟩
abbrev EVR_STATUS.FLUSHING : Fld := ⟨0x3600000, 0, 1⟩
/-- Offset of EVR_NEWEST. -/
abbrev EVR_NEWEST.word : Nat := 0x3600004
abbrev EVR_NEWEST.SEQ : Fld := ⟨0x3600004, 0, 32⟩
/-- Offset of EVR_OLDEST. -/
abbrev EVR_OLDEST.word : Nat := 0x3600008
abbrev EVR_OLDEST.SEQ : Fld := ⟨0x3600008, 0, 32⟩
/-- Offset of EVR_OPSEC. -/
abbrev EVR_OPSEC.word : Nat := 0x360000c
abbrev EVR_OPSEC.SECONDS : Fld := ⟨0x360000c, 0, 32⟩
/-- Offset of EVR_CYCLES. -/
abbrev EVR_CYCLES.word : Nat := 0x3600010
abbrev EVR_CYCLES.COUNT : Fld := ⟨0x3600010, 0, 32⟩
/-- Offset of EVR_RD_SEQ. -/
abbrev EVR_RD_SEQ.word : Nat := 0x3600014
abbrev EVR_RD_STATUS.BAD : Fld := ⟨0x3600018, 2, 1⟩
abbrev EVR_RD_STATUS.GONE : Fld := ⟨0x3600018, 1, 1⟩
abbrev EVR_RD_STATUS.READY : Fld := ⟨0x3600018, 0, 1⟩
/-- Offset of EVR_RD_DATA. -/
abbrev EVR_RD_DATA.word (i : Nat) : Nat := 0x3600020 + i * 0x4
/-- Offset of EVR_CLEAR. -/
abbrev EVR_CLEAR.word : Nat := 0x3600040
abbrev EVR_CNT.LOST : Fld := ⟨0x3600044, 16, 16⟩
abbrev EVR_CNT.BAD : Fld := ⟨0x3600044, 0, 16⟩
abbrev EVR_CAL_STATUS.BUSY : Fld := ⟨0x3600050, 31, 1⟩
abbrev EVR_CAL_STATUS.SKIPPED : Fld := ⟨0x3600050, 16, 8⟩
abbrev EVR_CAL_STATUS.VALID : Fld := ⟨0x3600050, 1, 1⟩
abbrev EVR_CAL_STATUS.SLOT : Fld := ⟨0x3600050, 0, 1⟩
/-- Offset of EVR_CAL_SEQ. -/
abbrev EVR_CAL_SEQ.word : Nat := 0x3600054

end Sys2Proof.Machine
end

