-- ==== Sys2Proof/Machine/RegTable.lean ====
section
/-! DEFINITION. The register tables: for every BAR0 register its offset, its instances (count and stride per index), and each field's lowest
bit, width, access code (R17) and reset value, block by block in the order of R36. Reserved spans are not listed: they read their table value 0 and
ignore writes (R16). -/
namespace Sys2Proof.Machine

/-- The access codes of R17. -/
inductive Acc where
  | rw | ro | wo | w1c | w1s | rc | rwo
  deriving DecidableEq, Repr

/-- One field of a register: lowest bit, width, access code, reset value. -/
structure FieldRow where
  lo : Nat
  w : Nat
  acc : Acc
  rst : Nat
  deriving DecidableEq, Repr

/-- One register of a block: BAR0 offset of its first instance, instances as (count, stride) from the widest stride to the narrowest, fields. -/
structure RegRow where
  off : Nat
  dims : List (Nat × Nat)
  fields : List FieldRow
  deriving DecidableEq, Repr

/-- The HIF registers. -/
def regTableHIF : List RegRow := [
  ⟨0x0, [], [⟨16, 16, .ro, 0⟩, ⟨0, 16, .ro, 0x1e9b⟩]⟩,  -- HIF_ID
  ⟨0x4, [], [⟨8, 8, .ro, 0⟩, ⟨0, 8, .ro, 0⟩]⟩,  -- HIF_REV
  ⟨0x8, [], [⟨4, 4, .ro, 0⟩, ⟨0, 4, .ro, 0⟩]⟩,  -- HIF_DEV_STATE
  ⟨0xc, [], [⟨16, 5, .ro, 0⟩, ⟨12, 4, .ro, 0⟩, ⟨0, 1, .ro, 0⟩]⟩,  -- HIF_LINK_STATUS
  ⟨0x10, [], [⟨0, 16, .w1c, 0⟩]⟩,  -- HIF_FN_EVENTS
  ⟨0x14, [], [⟨0, 16, .ro, 0⟩]⟩,  -- HIF_FN_STATE
  ⟨0x18, [], [⟨16, 16, .rw, 0⟩, ⟨0, 16, .rw, 0⟩]⟩,  -- HIF_LINK_CNT
  ⟨0x1c, [], [⟨16, 16, .rw, 0⟩, ⟨0, 16, .rw, 0⟩]⟩,  -- HIF_AER_CNT
  ⟨0x100, [], [⟨0, 1, .wo, 0⟩]⟩,  -- HIF_MBX_CTRL
  ⟨0x104, [], [⟨2, 1, .w1c, 0⟩, ⟨1, 1, .w1c, 0⟩, ⟨0, 1, .ro, 0⟩]⟩,  -- HIF_MBX_STATUS
  ⟨0x108, [], [⟨0, 16, .rw, 0x64⟩]⟩,  -- HIF_MBX_TIMEOUT
  ⟨0x1000, [(256, 0x4)], [⟨0, 32, .rw, 0⟩]⟩,  -- HIF_MBX_REQ
  ⟨0x1400, [(256, 0x4)], [⟨0, 32, .ro, 0⟩]⟩,  -- HIF_MBX_RSP
  ⟨0x10000, [(16, 0x100)], [⟨12, 20, .rwo, 0⟩]⟩,  -- HIF_SQ_BASE_LO
  ⟨0x10004, [(16, 0x100)], [⟨0, 32, .rwo, 0⟩]⟩,  -- HIF_SQ_BASE_HI
  ⟨0x10008, [(16, 0x100)], [⟨0, 4, .rwo, 4⟩]⟩,  -- HIF_SQ_SIZE
  ⟨0x1000c, [(16, 0x100)], [⟨0, 12, .rw, 0⟩]⟩,  -- HIF_SQ_TAIL
  ⟨0x10010, [(16, 0x100)], [⟨0, 12, .ro, 0⟩]⟩,  -- HIF_SQ_HEAD
  ⟨0x10014, [(16, 0x100)], [⟨12, 20, .rwo, 0⟩]⟩,  -- HIF_CQ_BASE_LO
  ⟨0x10018, [(16, 0x100)], [⟨0, 32, .rwo, 0⟩]⟩,  -- HIF_CQ_BASE_HI
  ⟨0x1001c, [(16, 0x100)], [⟨0, 5, .rwo, 6⟩]⟩,  -- HIF_CQ_SIZE
  ⟨0x10020, [(16, 0x100)], [⟨0, 16, .rw, 0⟩]⟩,  -- HIF_CQ_HEAD
  ⟨0x10024, [(16, 0x100)], [⟨16, 1, .ro, 1⟩, ⟨0, 16, .ro, 0⟩]⟩,  -- HIF_CQ_TAIL
  ⟨0x10028, [(16, 0x100)], [⟨2, 1, .wo, 0⟩, ⟨1, 1, .wo, 0⟩, ⟨0, 1, .rw, 0⟩]⟩,  -- HIF_Q_CTRL
  ⟨0x1002c, [(16, 0x100)], [⟨15, 1, .w1c, 0⟩, ⟨14, 1, .w1c, 0⟩, ⟨13, 1, .ro, 0⟩, ⟨12, 1, .ro, 0⟩, ⟨8, 4, .ro, 0⟩, ⟨4, 4, .ro, 0⟩, ⟨0, 2, .ro, 0⟩]⟩,  -- HIF_Q_STATUS
  ⟨0x10030, [(16, 0x100)], [⟨16, 8, .rw, 0⟩, ⟨0, 16, .rw, 0⟩]⟩,  -- HIF_CQ_COAL
  ⟨0x10034, [(16, 0x100)], [⟨11, 17, .ro, 0⟩, ⟨0, 11, .ro, 0⟩]⟩,  -- HIF_Q_LOAD
  ⟨0x10038, [(16, 0x100)], [⟨0, 32, .rw, 0⟩]⟩,  -- HIF_Q_ACCEPTED
  ⟨0x1003c, [(16, 0x100)], [⟨0, 32, .rw, 0⟩]⟩,  -- HIF_Q_REFUSED
  ⟨0xe0000, [(8192, 0x4)], [⟨0, 32, .rw, 0⟩]⟩,  -- HIF_MSIX_TABLE
  ⟨0xf0000, [(64, 0x4)], [⟨0, 32, .ro, 0⟩]⟩  -- HIF_MSIX_PBA
  ]

/-- The SIP registers. -/
def regTableSIP : List RegRow := [
  ⟨0x100000, [], [⟨0, 8, .rw, 0xa⟩]⟩,  -- SIP_CTRL
  ⟨0x100004, [], [⟨2, 1, .w1c, 0⟩, ⟨1, 1, .w1c, 0⟩, ⟨0, 1, .ro, 0⟩]⟩,  -- SIP_STATUS
  ⟨0x100008, [], [⟨0, 32, .ro, 0⟩]⟩,  -- SIP_ACTIVE_LO
  ⟨0x10000c, [], [⟨0, 32, .ro, 0⟩]⟩,  -- SIP_ACTIVE_HI
  ⟨0x100100, [(64, 0x4)], [⟨21, 1, .rwo, 1⟩, ⟨20, 1, .rwo, 1⟩, ⟨16, 4, .rwo, 1⟩, ⟨8, 6, .rwo, 8⟩, ⟨4, 2, .rwo, 0⟩, ⟨0, 4, .rwo, 0⟩]⟩,  -- SIP_CH_ASSIGN
  ⟨0x100204, [(15, 0x4)], [⟨16, 12, .rw, 0⟩, ⟨0, 12, .rw, 0⟩]⟩,  -- SIP_FN_WIN
  ⟨0x110000, [(64, 0x400)], [⟨12, 20, .rwo, 0⟩]⟩,  -- SIP_CH_RING_LO
  ⟨0x110004, [(64, 0x400)], [⟨0, 32, .rwo, 0⟩]⟩,  -- SIP_CH_RING_HI
  ⟨0x110008, [(64, 0x400)], [⟨0, 4, .rwo, 4⟩]⟩,  -- SIP_CH_RING_SIZE
  ⟨0x11000c, [(64, 0x400)], [⟨0, 12, .rw, 0⟩]⟩,  -- SIP_CH_TAIL
  ⟨0x110010, [(64, 0x400)], [⟨0, 12, .ro, 0⟩]⟩,  -- SIP_CH_HEAD
  ⟨0x110014, [(64, 0x400)], [⟨2, 1, .wo, 0⟩, ⟨1, 1, .wo, 0⟩, ⟨0, 1, .rw, 0⟩]⟩,  -- SIP_CH_CTRL
  ⟨0x110018, [(64, 0x400)], [⟨8, 8, .ro, 0⟩, ⟨5, 1, .w1c, 0⟩, ⟨4, 1, .w1c, 0⟩, ⟨0, 2, .ro, 0⟩]⟩,  -- SIP_CH_STATE
  ⟨0x11001c, [(64, 0x400)], [⟨0, 32, .ro, 0⟩]⟩,  -- SIP_CH_RESIDUE
  ⟨0x110020, [(64, 0x400)], [⟨0, 16, .ro, 0⟩]⟩,  -- SIP_CH_LAST_SEQ
  ⟨0x110024, [(64, 0x400)], [⟨0, 32, .rw, 0⟩]⟩,  -- SIP_CH_DONE_CNT
  ⟨0x110028, [(64, 0x400)], [⟨0, 32, .rw, 0⟩]⟩,  -- SIP_CH_ERR_CNT
  ⟨0x11002c, [(64, 0x400)], [⟨0, 32, .ro, 0⟩]⟩,  -- SIP_CH_BYTES_LO
  ⟨0x110030, [(64, 0x400)], [⟨0, 32, .ro, 0⟩]⟩  -- SIP_CH_BYTES_HI
  ]

/-- The SPL registers. -/
def regTableSPL : List RegRow := [
  ⟨0x200000, [], [⟨2, 2, .rwo, 0⟩, ⟨1, 1, .rwo, 0⟩, ⟨0, 1, .rw, 0⟩]⟩,  -- SPL_CTRL
  ⟨0x200004, [], [⟨12, 4, .ro, 0⟩, ⟨8, 4, .ro, 0⟩, ⟨4, 4, .ro, 1⟩, ⟨1, 1, .ro, 0⟩, ⟨0, 1, .ro, 1⟩]⟩,  -- SPL_STATUS
  ⟨0x200008, [], [⟨0, 32, .ro, 0⟩]⟩,  -- SPL_EPOCH
  ⟨0x20000c, [], [⟨0, 32, .ro, 0⟩]⟩,  -- SPL_CTR_LO
  ⟨0x200010, [], [⟨0, 32, .ro, 0⟩]⟩,  -- SPL_CTR_HI
  ⟨0x200014, [], [⟨0, 12, .ro, 0⟩]⟩,  -- SPL_THERMO
  ⟨0x200018, [], [⟨0, 30, .ro, 0⟩]⟩,  -- SPL_CAP_TOTAL
  ⟨0x20001c, [], [⟨0, 30, .ro, 0⟩]⟩,  -- SPL_CAP_FREE
  ⟨0x200020, [], [⟨0, 21, .ro, 0⟩]⟩,  -- SPL_PAGES_HELD
  ⟨0x200024, [], [⟨16, 16, .rw, 0⟩, ⟨0, 16, .rw, 0⟩]⟩,  -- SPL_ERR_CNT
  ⟨0x200100, [(16, 0x4)], [⟨0, 30, .rw, 0⟩]⟩,  -- SPL_QUOTA
  ⟨0x200200, [(16, 0x4)], [⟨0, 30, .rw, 0⟩]⟩,  -- SPL_DIRECT
  ⟨0x210000, [(16, 0x1000)], [⟨0, 30, .ro, 0⟩]⟩,  -- SPL_SL_QUOTA
  ⟨0x210004, [(16, 0x1000)], [⟨0, 30, .ro, 0⟩]⟩,  -- SPL_SL_DIRECT
  ⟨0x210008, [(16, 0x1000)], [⟨0, 30, .ro, 0⟩]⟩,  -- SPL_SL_USED
  ⟨0x21000c, [(16, 0x1000)], [⟨0, 21, .ro, 0⟩]⟩,  -- SPL_SL_PAGES
  ⟨0x210010, [(16, 0x1000)], [⟨5, 1, .w1c, 0⟩, ⟨4, 1, .w1c, 0⟩, ⟨3, 1, .w1c, 0⟩, ⟨2, 1, .w1c, 0⟩, ⟨1, 1, .w1c, 0⟩, ⟨0, 1, .ro, 1⟩]⟩,  -- SPL_SL_STATUS
  ⟨0x210014, [(16, 0x1000)], [⟨0, 30, .rw, 0⟩]⟩,  -- SPL_SL_TRIM_START
  ⟨0x210018, [(16, 0x1000)], [⟨0, 30, .wo, 0⟩]⟩,  -- SPL_SL_TRIM
  ⟨0x21001c, [(16, 0x1000)], [⟨0, 30, .ro, 0⟩]⟩,  -- SPL_SL_TRIM_DONE
  ⟨0x210020, [(16, 0x1000)], [⟨6, 26, .rw, 0⟩]⟩,  -- SPL_SL_ENUM_LO
  ⟨0x210024, [(16, 0x1000)], [⟨0, 32, .rw, 0⟩]⟩,  -- SPL_SL_ENUM_HI
  ⟨0x210028, [(16, 0x1000)], [⟨0, 21, .wo, 0⟩]⟩,  -- SPL_SL_ENUM_CTRL
  ⟨0x21002c, [(16, 0x1000)], [⟨0, 21, .ro, 0⟩]⟩  -- SPL_SL_ENUM_CNT
  ]

/-- The KOR registers. -/
def regTableKOR : List RegRow := [
  ⟨0x300000, [], [⟨0, 3, .rw, 2⟩]⟩,  -- KOR_CTRL
  ⟨0x300004, [], [⟨8, 8, .ro, 0⟩, ⟨0, 8, .ro, 0⟩]⟩,  -- KOR_STATUS
  ⟨0x300008, [], [⟨16, 16, .rw, 0⟩, ⟨0, 16, .rw, 0⟩]⟩,  -- KOR_DEC_ERR
  ⟨0x30000c, [], [⟨16, 16, .rw, 0⟩, ⟨0, 16, .rw, 0⟩]⟩,  -- KOR_LIM_ERR
  ⟨0x310000, [(8, 0x100)], [⟨6, 26, .rwo, 0⟩]⟩,  -- KOR_JOB_SRC_LO
  ⟨0x310004, [(8, 0x100)], [⟨0, 32, .rwo, 0⟩]⟩,  -- KOR_JOB_SRC_HI
  ⟨0x310008, [(8, 0x100)], [⟨6, 26, .rwo, 0⟩]⟩,  -- KOR_JOB_DST_LO
  ⟨0x31000c, [(8, 0x100)], [⟨0, 32, .rwo, 0⟩]⟩,  -- KOR_JOB_DST_HI
  ⟨0x310010, [(8, 0x100)], [⟨0, 32, .rwo, 0⟩]⟩,  -- KOR_JOB_LEN
  ⟨0x310014, [(8, 0x100)], [⟨0, 32, .rwo, 0⟩]⟩,  -- KOR_JOB_LIMIT
  ⟨0x310018, [(8, 0x100)], [⟨8, 1, .rwo, 0⟩, ⟨4, 3, .rwo, 2⟩, ⟨1, 2, .rwo, 0⟩, ⟨0, 1, .rwo, 0⟩]⟩,  -- KOR_JOB_CFG
  ⟨0x31001c, [(8, 0x100)], [⟨3, 1, .wo, 0⟩, ⟨2, 1, .wo, 0⟩, ⟨1, 1, .wo, 0⟩, ⟨0, 1, .wo, 0⟩]⟩,  -- KOR_JOB_CTRL
  ⟨0x310020, [(8, 0x100)], [⟨8, 8, .ro, 0⟩, ⟨4, 1, .w1c, 0⟩, ⟨0, 2, .ro, 0⟩]⟩,  -- KOR_JOB_STATUS
  ⟨0x310024, [(8, 0x100)], [⟨0, 32, .ro, 0⟩]⟩,  -- KOR_JOB_IN_DONE
  ⟨0x310028, [(8, 0x100)], [⟨0, 32, .ro, 0⟩]⟩,  -- KOR_JOB_OUT_DONE
  ⟨0x31002c, [(8, 0x100)], [⟨16, 16, .ro, 0⟩, ⟨0, 16, .ro, 0⟩]⟩  -- KOR_JOB_BLOCKS
  ]

/-- The CMP registers. -/
def regTableCMP : List RegRow := [
  ⟨0x400000, [], [⟨8, 4, .rw, 1⟩, ⟨6, 2, .rw, 3⟩, ⟨4, 2, .rw, 2⟩, ⟨2, 2, .rw, 1⟩, ⟨0, 2, .rw, 0⟩]⟩,  -- CMP_MERGE
  ⟨0x400004, [], [⟨4, 1, .w1c, 0⟩, ⟨3, 1, .w1c, 0⟩, ⟨2, 1, .w1c, 0⟩, ⟨1, 1, .w1c, 0⟩, ⟨0, 1, .ro, 0⟩]⟩,  -- CMP_STATUS
  ⟨0x400008, [], [⟨0, 32, .ro, 0⟩]⟩,  -- CMP_BUDGET
  ⟨0x40000c, [], [⟨0, 27, .ro, 0⟩]⟩,  -- CMP_STORE_USED
  ⟨0x400010, [], [⟨0, 23, .ro, 0⟩]⟩,  -- CMP_PIN_USED
  ⟨0x400014, [], [⟨0, 32, .rw, 0⟩]⟩,  -- CMP_PAGES
  ⟨0x400018, [], [⟨16, 16, .rw, 0⟩, ⟨0, 16, .rw, 0⟩]⟩,  -- CMP_MISS_CNT
  ⟨0x40001c, [], [⟨24, 8, .ro, 0⟩, ⟨18, 4, .ro, 0⟩, ⟨0, 18, .ro, 0⟩]⟩,  -- CMP_LAST_ERR
  ⟨0x400100, [(16, 0x8)], [⟨31, 1, .rwo, 0⟩, ⟨30, 1, .ro, 0⟩, ⟨18, 4, .rwo, 0⟩, ⟨0, 18, .rwo, 0⟩]⟩,  -- CMP_PIN_ID
  ⟨0x400104, [(16, 0x8)], [⟨0, 13, .rwo, 1⟩]⟩  -- CMP_PIN_CNT
  ]

/-- The FLM registers. -/
def regTableFLM : List RegRow := [
  ⟨0x800000, [], [⟨0, 2, .rwo, 3⟩]⟩,  -- FLM_FREEBOARD
  ⟨0x800004, [], [⟨16, 5, .ro, 0⟩, ⟨8, 5, .ro, 0x10⟩, ⟨4, 1, .ro, 0⟩, ⟨3, 1, .ro, 0⟩, ⟨2, 1, .w1c, 0⟩, ⟨1, 1, .w1c, 0⟩, ⟨0, 1, .ro, 0⟩]⟩,  -- FLM_STATUS
  ⟨0x800008, [], [⟨0, 16, .ro, 0⟩]⟩,  -- FLM_FENCED
  ⟨0x80000c, [], [⟨0, 16, .ro, 0⟩]⟩,  -- FLM_RETIRED
  ⟨0x800010, [], [⟨16, 16, .rw, 0⟩, ⟨0, 16, .rw, 0⟩]⟩,  -- FLM_REDO_CNT
  ⟨0x800014, [], [⟨0, 19, .ro, 0⟩]⟩,  -- FLM_LOG_PEND
  ⟨0x800018, [], [⟨16, 16, .rw, 0x1f4⟩, ⟨0, 16, .rw, 0x7d0⟩]⟩,  -- FLM_PRED_CFG
  ⟨0x80001c, [], [⟨16, 3, .ro, 7⟩, ⟨15, 1, .ro, 0⟩, ⟨0, 12, .ro, 0⟩]⟩,  -- FLM_PRED_STATUS
  ⟨0x801000, [(16, 0x10)], [⟨0, 1, .wo, 0⟩]⟩,  -- FLM_SLICE_CTRL
  ⟨0x801004, [(16, 0x10)], [⟨20, 4, .ro, 0xf⟩, ⟨16, 2, .ro, 0⟩, ⟨0, 3, .ro, 0⟩]⟩,  -- FLM_SLICE_STATE
  ⟨0x801008, [(16, 0x10)], [⟨0, 32, .rw, 0⟩]⟩,  -- FLM_SLICE_DONE
  ⟨0x802000, [(12, 0x20)], [⟨8, 8, .rw, 0x40⟩, ⟨6, 2, .rw, 2⟩, ⟨4, 2, .rw, 2⟩, ⟨2, 2, .rw, 1⟩, ⟨0, 2, .rw, 0⟩]⟩,  -- FLM_UPS
  ⟨0x802004, [(12, 0x20)], [⟨2, 2, .rw, 3⟩, ⟨0, 2, .ro, 0⟩]⟩,  -- FLM_FB
  ⟨0x802008, [(12, 0x20)], [⟨16, 16, .rw, 0⟩, ⟨0, 16, .rw, 0⟩]⟩,  -- FLM_ST_ERR
  ⟨0x80200c, [(12, 0x20)], [⟨16, 16, .ro, 0xffff⟩, ⟨0, 16, .ro, 0⟩]⟩,  -- FLM_PRED
  ⟨0x803000, [(12, 0x40), (16, 0x4)], [⟨9, 3, .rw, 0⟩, ⟨6, 3, .rw, 0⟩, ⟨3, 3, .rw, 0⟩, ⟨0, 3, .rw, 0⟩]⟩,  -- FLM_SCRSEL
  ⟨0x804000, [(12, 0x40), (8, 0x8)], [⟨16, 6, .rw, 0⟩, ⟨8, 6, .rw, 0⟩, ⟨0, 6, .rw, 0⟩]⟩,  -- FLM_CELL_GEOM
  ⟨0x804004, [(12, 0x40), (8, 0x8)], [⟨0, 12, .rw, 0xff0⟩]⟩,  -- FLM_CELL_RAMP
  ⟨0x900000, [(12, 0x10000), (16, 0x1000), (4, 0x400), (256, 0x4)], [⟨0, 12, .rw, 0⟩]⟩,  -- FLM_TONE
  ⟨0xa00000, [(12, 0x20000), (8, 0x4000), (64, 0x100), (64, 0x4)], [⟨12, 1, .rw, 0⟩, ⟨0, 12, .rw, 0⟩]⟩  -- FLM_CELL
  ]

/-- The SCN registers. -/
def regTableSCN : List RegRow := [
  ⟨0xc00000, [], [⟨16, 8, .rw, 0x10⟩, ⟨8, 1, .rw, 1⟩, ⟨7, 1, .rwo, 0⟩, ⟨0, 3, .rw, 0⟩]⟩,  -- SCN_CTRL
  ⟨0xc00004, [], [⟨8, 2, .ro, 0⟩, ⟨4, 3, .ro, 0⟩, ⟨0, 2, .ro, 0⟩]⟩,  -- SCN_STATE
  ⟨0xc00008, [], [⟨16, 16, .rw, 0x1388⟩, ⟨0, 16, .rw, 0x4e2⟩]⟩,  -- SCN_RAMP
  ⟨0xc0000c, [], [⟨24, 2, .rwo, 0⟩, ⟨16, 3, .rwo, 3⟩, ⟨8, 1, .rwo, 0⟩, ⟨0, 5, .rwo, 0x1b⟩]⟩,  -- SCN_WEB_CFG
  ⟨0xc00010, [], [⟨0, 32, .rwo, 0x10000000⟩]⟩,  -- SCN_WEB_SCALE
  ⟨0xc00014, [], [⟨0, 32, .ro, 0⟩]⟩,  -- SCN_WEB_LINE_LO
  ⟨0xc00018, [], [⟨0, 32, .ro, 0⟩]⟩,  -- SCN_WEB_LINE_HI
  ⟨0xc0001c, [], [⟨0, 32, .ro, 0⟩]⟩,  -- SCN_WEB_SPEED
  ⟨0xc00020, [], [⟨16, 16, .rw, 0⟩, ⟨0, 16, .rw, 0⟩]⟩,  -- SCN_ENC_ERR
  ⟨0xc00024, [], [⟨0, 16, .rw, 0x7d0⟩]⟩,  -- SCN_FID_CFG
  ⟨0xc10000, [(12, 0x1000)], [⟨31, 1, .ro, 0⟩, ⟨8, 1, .rw, 0⟩, ⟨0, 4, .rw, 0⟩]⟩,  -- SCN_ROUTE
  ⟨0xc10004, [(12, 0x1000)], [⟨31, 1, .ro, 0⟩, ⟨0, 22, .rw, 0⟩]⟩,  -- SCN_OFS
  ⟨0xc10008, [(12, 0x1000)], [⟨8, 2, .rwo, 0⟩, ⟨0, 5, .rwo, 0⟩]⟩,  -- SCN_TRK
  ⟨0xc1000c, [(12, 0x1000)], [⟨0, 32, .rwo, 0x10000000⟩]⟩,  -- SCN_PC_SCALE
  ⟨0xc10010, [(12, 0x1000)], [⟨0, 20, .rw, 0x50000⟩]⟩,  -- SCN_SOL
  ⟨0xc10014, [(12, 0x1000)], [⟨16, 16, .rw, 0x1f4⟩, ⟨0, 16, .rw, 0xc8⟩]⟩,  -- SCN_LOCK
  ⟨0xc10018, [(12, 0x1000)], [⟨0, 16, .ro, 0⟩]⟩,  -- SCN_PHASE
  ⟨0xc1001c, [(12, 0x1000)], [⟨16, 1, .w1c, 0⟩, ⟨15, 1, .w1c, 0⟩, ⟨14, 1, .w1c, 0⟩, ⟨13, 1, .w1c, 0⟩, ⟨12, 1, .ro, 0⟩, ⟨11, 1, .ro, 0⟩, ⟨8, 3, .ro, 0⟩, ⟨4, 2, .ro, 0⟩, ⟨0, 3, .ro, 0⟩]⟩,  -- SCN_ST_STATE
  ⟨0xc10020, [(12, 0x1000)], [⟨16, 4, .rw, 0⟩, ⟨0, 12, .rw, 0⟩]⟩,  -- SCN_SKEW
  ⟨0xc10024, [(12, 0x1000)], [⟨16, 16, .rw, 0⟩, ⟨0, 16, .rw, 0⟩]⟩,  -- SCN_BD_CNT
  ⟨0xc10040, [(12, 0x1000), (8, 0x4)], [⟨0, 13, .rw, 0⟩]⟩,  -- SCN_FACET_DLY
  ⟨0xc10060, [(12, 0x1000), (8, 0x4)], [⟨0, 16, .rw, 0⟩]⟩,  -- SCN_FACET_TRIM
  ⟨0xc10080, [(12, 0x1000), (32, 0x4)], [⟨0, 16, .rw, 0⟩]⟩,  -- SCN_ZONE_TRIM
  ⟨0xc10100, [(12, 0x1000), (94, 0x4)], [⟨0, 32, .rw, 0⟩]⟩,  -- SCN_BOW
  ⟨0xc40000, [(12, 0x100)], [⟨2, 1, .rwo, 0⟩, ⟨1, 1, .wo, 0⟩, ⟨0, 1, .rw, 0⟩]⟩,  -- SCN_BL_CTRL
  ⟨0xc40004, [(12, 0x100)], [⟨8, 8, .ro, 0⟩, ⟨4, 4, .ro, 0⟩, ⟨0, 3, .ro, 0⟩]⟩,  -- SCN_BL_STATUS
  ⟨0xc40008, [(12, 0x100)], [⟨24, 8, .rw, 0⟩, ⟨16, 8, .rw, 0⟩, ⟨0, 16, .rw, 0⟩]⟩,  -- SCN_BL_ERR
  ⟨0xc4000c, [(12, 0x100)], [⟨16, 16, .rw, 0⟩, ⟨0, 16, .rw, 0⟩]⟩,  -- SCN_SB_ERR
  ⟨0xc40010, [(12, 0x100)], [⟨0, 32, .rw, 0⟩]⟩  -- SCN_BL_SWEEPS
  ]

/-- The CLK registers. -/
def regTableCLK : List RegRow := [
  ⟨0x2e00000, [], [⟨17, 1, .ro, 0⟩, ⟨16, 1, .ro, 0⟩, ⟨0, 16, .ro, 0⟩]⟩,  -- CLK_STATUS
  ⟨0x2e00004, [], [⟨0, 16, .ro, 0⟩]⟩,  -- CLK_CALREF
  ⟨0x2e10000, [(16, 0x20)], [⟨20, 4, .ro, 0⟩, ⟨16, 1, .rw, 0⟩, ⟨0, 8, .ro, 0⟩]⟩,  -- CLK_PLL_CFG
  ⟨0x2e10004, [(16, 0x20)], [⟨0, 24, .ro, 0⟩]⟩,  -- CLK_PLL_FRAC
  ⟨0x2e10008, [(16, 0x20)], [⟨0, 16, .rw, 0⟩]⟩,  -- CLK_PLL_SEED
  ⟨0x2e1000c, [(16, 0x20)], [⟨0, 1, .wo, 0⟩]⟩,  -- CLK_PLL_CTRL
  ⟨0x2e10010, [(16, 0x20)], [⟨24, 8, .rw, 0⟩, ⟨16, 8, .rw, 0⟩, ⟨8, 5, .ro, 0⟩, ⟨3, 1, .ro, 0⟩, ⟨0, 3, .ro, 0⟩]⟩  -- CLK_PLL_STATE
  ]

/-- The EXP registers. -/
def regTableEXP : List RegRow := [
  ⟨0x1000000, [], [⟨0, 1, .rw, 1⟩]⟩,  -- EXP_CTRL
  ⟨0x1000004, [], [⟨2, 1, .ro, 0⟩, ⟨1, 1, .w1c, 0⟩, ⟨0, 1, .ro, 0⟩]⟩,  -- EXP_STATUS
  ⟨0x1000008, [], [⟨16, 8, .rw, 0x19⟩, ⟨0, 16, .rw, 0xa⟩]⟩,  -- EXP_MON_CFG
  ⟨0x100000c, [], [⟨0, 8, .rwo, 0x32⟩]⟩,  -- EXP_HALF
  ⟨0x1010000, [(12, 0x1000)], [⟨31, 1, .ro, 0⟩, ⟨16, 4, .ro, 4⟩, ⟨8, 1, .rw, 1⟩, ⟨0, 4, .rw, 4⟩]⟩,  -- EXP_WIN
  ⟨0x1010004, [(12, 0x1000)], [⟨16, 7, .rw, 0x24⟩, ⟨8, 8, .rw, 0xff⟩, ⟨0, 1, .rw, 1⟩]⟩,  -- EXP_HEAD_CFG
  ⟨0x1010008, [(12, 0x1000)], [⟨16, 12, .rw, 0x19a⟩, ⟨0, 8, .rw, 0x64⟩]⟩,  -- EXP_PWR
  ⟨0x101000c, [(12, 0x1000)], [⟨24, 7, .ro, 0x24⟩, ⟨16, 8, .ro, 0⟩, ⟨12, 1, .ro, 0⟩, ⟨8, 4, .ro, 0⟩, ⟨4, 3, .ro, 0⟩, ⟨3, 1, .w1c, 0⟩, ⟨0, 3, .ro, 0⟩]⟩,  -- EXP_HEAD_STATE
  ⟨0x1010010, [(12, 0x1000)], [⟨24, 8, .ro, 0⟩, ⟨16, 8, .ro, 0⟩, ⟨8, 8, .ro, 0⟩, ⟨0, 8, .ro, 0⟩]⟩,  -- EXP_COVER
  ⟨0x1010014, [(12, 0x1000)], [⟨17, 1, .ro, 0⟩, ⟨16, 1, .ro, 0⟩, ⟨0, 16, .rw, 0⟩]⟩,  -- EXP_CAL
  ⟨0x1010018, [(12, 0x1000)], [⟨0, 16, .ro, 0xffff⟩]⟩,  -- EXP_CAL_MAX
  ⟨0x101001c, [(12, 0x1000)], [⟨16, 8, .rw, 0⟩, ⟨0, 16, .rw, 0⟩]⟩,  -- EXP_DET_CNT
  ⟨0x1010020, [(12, 0x1000), (2, 0x4)], [⟨0, 32, .rw, 0⟩]⟩,  -- EXP_DEAD
  ⟨0x1010028, [(12, 0x1000)], [⟨0, 8, .rw, 0⟩]⟩,  -- EXP_DEAD2
  ⟨0x1010030, [(12, 0x1000), (2, 0x4)], [⟨0, 32, .rw, 0⟩]⟩,  -- EXP_FILL
  ⟨0x1010100, [(12, 0x1000), (72, 0x4)], [⟨0, 16, .rw, 0⟩]⟩,  -- EXP_CUR_ADJ
  ⟨0x1010300, [(12, 0x1000), (72, 0x4)], [⟨16, 12, .ro, 0⟩, ⟨0, 12, .ro, 0⟩]⟩,  -- EXP_CUR
  ⟨0x1010500, [(12, 0x1000), (72, 0x4)], [⟨31, 1, .ro, 0⟩, ⟨0, 12, .ro, 0⟩]⟩,  -- EXP_MON
  ⟨0x1010700, [(12, 0x1000), (64, 0x4)], [⟨16, 12, .ro, 0⟩, ⟨0, 12, .ro, 0⟩]⟩,  -- EXP_TAP
  ⟨0x1010800, [(12, 0x1000), (64, 0x4)], [⟨0, 32, .ro, 0⟩]⟩  -- EXP_HMEM
  ]

/-- The INS registers. -/
def regTableINS : List RegRow := [
  ⟨0x1800000, [], [⟨1, 1, .rw, 0⟩, ⟨0, 1, .rw, 0⟩]⟩,  -- INS_CTRL
  ⟨0x1800004, [], [⟨1, 2, .ro, 0⟩, ⟨0, 1, .w1c, 0⟩]⟩,  -- INS_STATUS
  ⟨0x1800010, [], [⟨16, 4, .rw, 4⟩, ⟨8, 4, .rw, 0⟩, ⟨2, 1, .rw, 0⟩, ⟨1, 1, .wo, 0⟩, ⟨0, 1, .wo, 0⟩]⟩,  -- INS_XCAL_CTRL
  ⟨0x1800014, [], [⟨16, 8, .ro, 0⟩, ⟨8, 4, .ro, 0⟩, ⟨0, 3, .ro, 0⟩]⟩,  -- INS_XCAL_STATUS
  ⟨0x1800020, [], [⟨16, 8, .ro, 0⟩, ⟨8, 2, .ro, 0⟩, ⟨4, 4, .rw, 0⟩, ⟨1, 1, .rw, 0⟩, ⟨0, 1, .wo, 0⟩]⟩,  -- INS_AUDIT_CTRL
  ⟨0x1800024, [], [⟨0, 32, .rw, 0⟩]⟩,  -- INS_AUDIT_PAGE_LO
  ⟨0x1800028, [], [⟨0, 32, .rw, 0⟩]⟩,  -- INS_AUDIT_PAGE_HI
  ⟨0x180002c, [], [⟨6, 26, .rw, 0⟩]⟩,  -- INS_AUDIT_DST_LO
  ⟨0x1800030, [], [⟨0, 32, .rw, 0⟩]⟩,  -- INS_AUDIT_DST_HI
  ⟨0x1800034, [], [⟨0, 32, .rw, 0⟩]⟩,  -- INS_AUDIT_LIMIT
  ⟨0x1800038, [], [⟨0, 32, .ro, 0⟩]⟩,  -- INS_AUDIT_DONE
  ⟨0x1810000, [(2, 0x10000)], [⟨31, 1, .rw, 0⟩, ⟨18, 10, .rw, 0⟩, ⟨16, 2, .rw, 1⟩, ⟨0, 16, .rw, 0⟩]⟩,  -- INS_CIS_CFG
  ⟨0x1810004, [(2, 0x10000)], [⟨0, 22, .rw, 0⟩]⟩,  -- INS_CIS_DIST
  ⟨0x1810008, [(2, 0x10000)], [⟨16, 16, .ro, 0⟩, ⟨8, 4, .ro, 0⟩, ⟨4, 1, .ro, 0⟩, ⟨0, 2, .ro, 0⟩]⟩,  -- INS_LINK
  ⟨0x181000c, [(2, 0x10000)], [⟨16, 16, .rw, 0⟩, ⟨0, 16, .rw, 0⟩]⟩,  -- INS_LINK_ERR
  ⟨0x1810010, [(2, 0x10000)], [⟨0, 24, .rw, 0x1b1b1b⟩]⟩,  -- INS_MAP_CH
  ⟨0x1810014, [(2, 0x10000)], [⟨0, 12, .rw, 0⟩]⟩,  -- INS_MAP_INCL
  ⟨0x1810018, [(2, 0x10000)], [⟨20, 10, .rw, 0x90⟩, ⟨12, 8, .rw, 0x10⟩, ⟨0, 12, .rw, 0x190⟩]⟩,  -- INS_THR_SPOT
  ⟨0x181001c, [(2, 0x10000)], [⟨24, 8, .rw, 0x40⟩, ⟨16, 8, .rw, 4⟩, ⟨0, 10, .rw, 0x96⟩]⟩,  -- INS_THR_STREAK
  ⟨0x1810020, [(2, 0x10000)], [⟨24, 8, .rw, 0x40⟩, ⟨16, 8, .rw, 8⟩, ⟨0, 6, .rw, 0xc⟩]⟩,  -- INS_THR_LINE
  ⟨0x1810024, [(2, 0x10000)], [⟨24, 8, .rw, 0xf⟩, ⟨16, 8, .rw, 5⟩, ⟨8, 8, .rw, 0x18⟩, ⟨0, 8, .rw, 8⟩]⟩,  -- INS_THR_REG
  ⟨0x1810028, [(2, 0x10000)], [⟨1, 6, .rw, 0x3f⟩]⟩,  -- INS_SEV
  ⟨0x181002c, [(2, 0x10000)], [⟨28, 4, .rw, 0⟩, ⟨20, 4, .rw, 1⟩, ⟨0, 8, .rw, 0x7f⟩]⟩,  -- INS_CORR
  ⟨0x1810030, [(2, 0x10000)], [⟨16, 8, .rw, 0xa⟩, ⟨8, 8, .rw, 4⟩, ⟨0, 8, .rw, 3⟩]⟩,  -- INS_CORR_DB
  ⟨0x1810034, [(2, 0x10000)], [⟨16, 16, .rw, 0⟩, ⟨0, 16, .rw, 0⟩]⟩,  -- INS_CORR_CNT
  ⟨0x1810038, [(2, 0x10000)], [⟨1, 2, .wo, 0⟩, ⟨0, 1, .wo, 0⟩]⟩,  -- INS_CAL_CTRL
  ⟨0x181003c, [(2, 0x10000)], [⟨8, 8, .ro, 0⟩, ⟨2, 1, .ro, 0⟩, ⟨1, 1, .ro, 0⟩, ⟨0, 1, .ro, 0⟩]⟩,  -- INS_CAL_STATUS
  ⟨0x1810040, [(2, 0x10000)], [⟨31, 1, .ro, 0⟩, ⟨24, 2, .ro, 0⟩, ⟨16, 8, .ro, 0⟩, ⟨0, 16, .ro, 0⟩]⟩,  -- INS_RESULT
  ⟨0x1810044, [(2, 0x10000)], [⟨0, 32, .ro, 0⟩]⟩,  -- INS_RES_PAGE_LO
  ⟨0x1810048, [(2, 0x10000)], [⟨0, 32, .ro, 0⟩]⟩,  -- INS_RES_PAGE_HI
  ⟨0x181004c, [(2, 0x10000)], [⟨28, 4, .ro, 0⟩, ⟨20, 8, .ro, 0⟩, ⟨16, 1, .ro, 0⟩, ⟨8, 8, .ro, 0⟩, ⟨0, 8, .ro, 0⟩]⟩,  -- INS_RES_INFO
  ⟨0x1810050, [(2, 0x10000)], [⟨0, 16, .wo, 0⟩]⟩,  -- INS_ACK
  ⟨0x1810054, [(2, 0x10000)], [⟨16, 16, .rw, 0⟩, ⟨0, 9, .ro, 0⟩]⟩,  -- INS_RES_Q
  ⟨0x1810080, [(2, 0x10000), (12, 0x4)], [⟨16, 16, .ro, 0⟩, ⟨0, 16, .ro, 0⟩]⟩,  -- INS_RES_REG
  ⟨0x1810100, [(2, 0x10000), (64, 0x8)], [⟨28, 4, .ro, 0⟩, ⟨24, 4, .ro, 0⟩, ⟨22, 2, .ro, 0⟩, ⟨16, 6, .ro, 0⟩, ⟨0, 16, .ro, 0⟩]⟩,  -- INS_DEF_A
  ⟨0x1810104, [(2, 0x10000), (64, 0x8)], [⟨16, 14, .ro, 0⟩, ⟨0, 16, .ro, 0⟩]⟩  -- INS_DEF_B
  ]

/-- The LPE registers. -/
def regTableLPE : List RegRow := [
  ⟨0x1c00000, [], [⟨0, 32, .ro, 0⟩]⟩,  -- LPE_LOAD_EVAL
  ⟨0x1c00004, [], [⟨0, 32, .ro, 0⟩]⟩,  -- LPE_LOAD_ADC
  ⟨0x1c00008, [], [⟨0, 32, .ro, 0⟩]⟩,  -- LPE_ACTIVE_LO
  ⟨0x1c0000c, [], [⟨0, 32, .ro, 0⟩]⟩,  -- LPE_ACTIVE_HI
  ⟨0x1c00010, [], [⟨0, 32, .ro, 0⟩]⟩,  -- LPE_FAULT_LO
  ⟨0x1c00014, [], [⟨0, 32, .ro, 0⟩]⟩,  -- LPE_FAULT_HI
  ⟨0x1c00018, [], [⟨0, 32, .rw, 0⟩]⟩,  -- LPE_ADC_SCAN
  ⟨0x1c0001c, [], [⟨16, 16, .rw, 0⟩, ⟨0, 16, .rw, 0⟩]⟩,  -- LPE_WR_ERR
  ⟨0x1c01000, [(32, 0x8)], [⟨16, 16, .rw, 0xa⟩, ⟨1, 1, .rw, 0⟩]⟩,  -- LPE_PWM_CFG
  ⟨0x1c01004, [(32, 0x8)], [⟨16, 1, .ro, 0⟩, ⟨0, 16, .rw, 0⟩]⟩,  -- LPE_PWM_DUTY
  ⟨0x1c02000, [(32, 0x4)], [⟨16, 1, .ro, 0⟩, ⟨0, 16, .ro, 0⟩]⟩,  -- LPE_ADC_VAL
  ⟨0x1c10000, [(64, 0x100)], [⟨0, 2, .wo, 0⟩]⟩,  -- LPE_LP_CMD
  ⟨0x1c10004, [(64, 0x100)], [⟨28, 4, .ro, 0⟩, ⟨24, 4, .ro, 0⟩, ⟨5, 1, .ro, 0⟩, ⟨4, 1, .ro, 0⟩, ⟨3, 1, .w1c, 0⟩, ⟨2, 1, .w1c, 0⟩, ⟨0, 2, .ro, 0⟩]⟩,  -- LPE_LP_STATUS
  ⟨0x1c10008, [(64, 0x100)], [⟨16, 16, .rwo, 0x3e8⟩, ⟨14, 2, .rwo, 0⟩, ⟨12, 2, .rwo, 0⟩, ⟨10, 2, .rwo, 0⟩, ⟨4, 6, .rwo, 0⟩, ⟨3, 1, .rwo, 0⟩, ⟨2, 1, .rwo, 0⟩, ⟨1, 1, .rwo, 0⟩]⟩,  -- LPE_LP_CFG
  ⟨0x1c1000c, [(64, 0x100)], [⟨28, 4, .rwo, 0⟩, ⟨24, 4, .rwo, 0⟩, ⟨22, 2, .rwo, 0⟩, ⟨14, 8, .rwo, 0⟩, ⟨8, 6, .rwo, 0⟩, ⟨0, 8, .rwo, 0⟩]⟩,  -- LPE_LP_IN
  ⟨0x1c10010, [(64, 0x100)], [⟨28, 4, .rwo, 0⟩, ⟨24, 4, .rwo, 0⟩, ⟨22, 2, .rwo, 0⟩, ⟨14, 8, .rwo, 0⟩, ⟨8, 6, .rwo, 0⟩, ⟨0, 8, .rwo, 0⟩]⟩,  -- LPE_LP_OUT
  ⟨0x1c10014, [(64, 0x100)], [⟨28, 4, .rwo, 0⟩, ⟨8, 20, .rwo, 1⟩, ⟨0, 5, .rwo, 0⟩]⟩,  -- LPE_LP_POS
  ⟨0x1c10018, [(64, 0x100)], [⟨0, 16, .rwo, 0x64⟩]⟩,  -- LPE_LP_TIME
  ⟨0x1c1001c, [(64, 0x100)], [⟨16, 16, .rw, 0⟩, ⟨0, 16, .rw, 0⟩]⟩,  -- LPE_LP_CNT
  ⟨0x1c10020, [(64, 0x100)], [⟨0, 32, .rw, 0⟩]⟩,  -- LPE_LP_SP
  ⟨0x1c10024, [(64, 0x100)], [⟨0, 32, .rw, 0⟩]⟩,  -- LPE_LP_MANUAL
  ⟨0x1c10028, [(64, 0x100)], [⟨0, 32, .rwo, 0x3f800000⟩]⟩,  -- LPE_LP_RAMP
  ⟨0x1c1002c, [(64, 0x100)], [⟨0, 32, .rwo, 0⟩]⟩,  -- LPE_LP_KP
  ⟨0x1c10030, [(64, 0x100)], [⟨0, 32, .rwo, 0⟩]⟩,  -- LPE_LP_KI
  ⟨0x1c10034, [(64, 0x100)], [⟨0, 32, .rwo, 0⟩]⟩,  -- LPE_LP_KD
  ⟨0x1c10038, [(64, 0x100)], [⟨0, 32, .rwo, 0⟩]⟩,  -- LPE_LP_TF
  ⟨0x1c1003c, [(64, 0x100)], [⟨0, 32, .rwo, 0x3f800000⟩]⟩,  -- LPE_LP_IN_GAIN
  ⟨0x1c10040, [(64, 0x100)], [⟨0, 32, .rwo, 0⟩]⟩,  -- LPE_LP_IN_OFS
  ⟨0x1c10044, [(64, 0x100)], [⟨0, 32, .rwo, 0⟩]⟩,  -- LPE_LP_U_MIN
  ⟨0x1c10048, [(64, 0x100)], [⟨0, 32, .rwo, 0⟩]⟩,  -- LPE_LP_U_MAX
  ⟨0x1c1004c, [(64, 0x100)], [⟨0, 32, .rwo, 0⟩]⟩,  -- LPE_LP_SAFE
  ⟨0x1c10050, [(64, 0x100)], [⟨0, 32, .rwo, 0⟩]⟩,  -- LPE_LP_FF0
  ⟨0x1c10054, [(64, 0x100)], [⟨0, 32, .rwo, 0⟩]⟩,  -- LPE_LP_FRIC_SCALE
  ⟨0x1c10058, [(64, 0x100)], [⟨0, 32, .rwo, 0⟩]⟩,  -- LPE_LP_COG_SCALE
  ⟨0x1c1005c, [(64, 0x100)], [⟨0, 32, .rwo, 0xff800000⟩]⟩,  -- LPE_LP_Y_MIN
  ⟨0x1c10060, [(64, 0x100)], [⟨0, 32, .rwo, 0x7f800000⟩]⟩,  -- LPE_LP_Y_MAX
  ⟨0x1c10064, [(64, 0x100)], [⟨0, 32, .rwo, 0x7f800000⟩]⟩,  -- LPE_LP_DEV
  ⟨0x1c10068, [(64, 0x100)], [⟨0, 32, .rwo, 0⟩]⟩,  -- LPE_LP_STOP_SP
  ⟨0x1c1006c, [(64, 0x100)], [⟨0, 32, .rwo, 0x3f800000⟩]⟩,  -- LPE_LP_STOP_RAMP
  ⟨0x1c10070, [(64, 0x100)], [⟨0, 32, .rwo, 0⟩]⟩,  -- LPE_LP_POS_OFS
  ⟨0x1c10074, [(64, 0x100)], [⟨0, 32, .rwo, 0x3f800000⟩]⟩,  -- LPE_LP_B1B0
  ⟨0x1c10078, [(64, 0x100)], [⟨0, 32, .rwo, 0⟩]⟩,  -- LPE_LP_B1B1
  ⟨0x1c1007c, [(64, 0x100)], [⟨0, 32, .rwo, 0⟩]⟩,  -- LPE_LP_B1B2
  ⟨0x1c10080, [(64, 0x100)], [⟨0, 32, .rwo, 0⟩]⟩,  -- LPE_LP_B1A1
  ⟨0x1c10084, [(64, 0x100)], [⟨0, 32, .rwo, 0⟩]⟩,  -- LPE_LP_B1A2
  ⟨0x1c10088, [(64, 0x100)], [⟨0, 32, .rwo, 0x3f800000⟩]⟩,  -- LPE_LP_B2B0
  ⟨0x1c1008c, [(64, 0x100)], [⟨0, 32, .rwo, 0⟩]⟩,  -- LPE_LP_B2B1
  ⟨0x1c10090, [(64, 0x100)], [⟨0, 32, .rwo, 0⟩]⟩,  -- LPE_LP_B2B2
  ⟨0x1c10094, [(64, 0x100)], [⟨0, 32, .rwo, 0⟩]⟩,  -- LPE_LP_B2A1
  ⟨0x1c10098, [(64, 0x100)], [⟨0, 32, .rwo, 0⟩]⟩,  -- LPE_LP_B2A2
  ⟨0x1c100a0, [(64, 0x100)], [⟨0, 32, .ro, 0⟩]⟩,  -- LPE_LP_R_NOW
  ⟨0x1c100a4, [(64, 0x100)], [⟨0, 32, .ro, 0⟩]⟩,  -- LPE_LP_Y_NOW
  ⟨0x1c100a8, [(64, 0x100)], [⟨0, 32, .ro, 0⟩]⟩,  -- LPE_LP_U_NOW
  ⟨0x1c100ac, [(64, 0x100)], [⟨0, 32, .ro, 0⟩]⟩,  -- LPE_LP_I_NOW
  ⟨0x1d00000, [(64, 0x2000), (1024, 0x4)], [⟨0, 32, .rwo, 0⟩]⟩,  -- LPE_FRIC
  ⟨0x1d01000, [(64, 0x2000), (1024, 0x4)], [⟨0, 32, .rwo, 0⟩]⟩  -- LPE_COG
  ]

/-- The MOT registers. -/
def regTableMOT : List RegRow := [
  ⟨0x2000000, [], [⟨0, 24, .ro, 0⟩]⟩,  -- MOT_ACTIVE
  ⟨0x2000004, [], [⟨0, 24, .ro, 0⟩]⟩,  -- MOT_FAULT
  ⟨0x2000008, [], [⟨0, 1, .w1c, 0⟩]⟩,  -- MOT_STATUS
  ⟨0x2000100, [(65, 0x4)], [⟨0, 8, .rwo, 0⟩]⟩,  -- MOT_USTEP_TAB
  ⟨0x2010000, [(24, 0x100)], [⟨8, 1, .wo, 0⟩, ⟨0, 4, .wo, 0⟩]⟩,  -- MOT_AX_CMD
  ⟨0x2010004, [(24, 0x100)], [⟨28, 4, .ro, 0⟩, ⟨24, 4, .ro, 0⟩, ⟨12, 1, .ro, 0⟩, ⟨11, 1, .w1c, 0⟩, ⟨10, 1, .w1c, 0⟩, ⟨9, 1, .ro, 0⟩, ⟨8, 1, .ro, 0⟩, ⟨7, 1, .ro, 0⟩, ⟨6, 1, .ro, 0⟩, ⟨0, 3, .ro, 0⟩]⟩,  -- MOT_AX_STATUS
  ⟨0x2010008, [(24, 0x100)], [⟨30, 2, .rwo, 0⟩, ⟨29, 1, .rwo, 0⟩, ⟨28, 1, .rwo, 0⟩, ⟨27, 1, .rwo, 0⟩, ⟨26, 1, .rwo, 0⟩, ⟨21, 5, .rwo, 0⟩, ⟨20, 1, .rwo, 0⟩, ⟨18, 2, .rwo, 0⟩, ⟨17, 1, .rwo, 0⟩, ⟨12, 3, .rwo, 0⟩]⟩,  -- MOT_AX_CFG
  ⟨0x201000c, [(24, 0x100)], [⟨0, 32, .rw, 0xfa00⟩]⟩,  -- MOT_AX_VMAX
  ⟨0x2010010, [(24, 0x100)], [⟨0, 32, .rw, 0⟩]⟩,  -- MOT_AX_VSTART
  ⟨0x2010014, [(24, 0x100)], [⟨0, 32, .rw, 0x9c400⟩]⟩,  -- MOT_AX_ACC
  ⟨0x2010018, [(24, 0x100)], [⟨0, 32, .rw, 0x9c400⟩]⟩,  -- MOT_AX_DEC
  ⟨0x201001c, [(24, 0x100)], [⟨0, 32, .rw, 0x61a800⟩]⟩,  -- MOT_AX_QDEC
  ⟨0x2010020, [(24, 0x100)], [⟨0, 32, .rw, 0⟩]⟩,  -- MOT_AX_JERK
  ⟨0x2010024, [(24, 0x100)], [⟨0, 32, .rw, 0⟩]⟩,  -- MOT_AX_TARGET
  ⟨0x2010028, [(24, 0x100)], [⟨0, 32, .ro, 0⟩]⟩,  -- MOT_AX_TGT_NOW
  ⟨0x201002c, [(24, 0x100)], [⟨0, 32, .ro, 0⟩]⟩,  -- MOT_AX_POS
  ⟨0x2010030, [(24, 0x100)], [⟨0, 32, .ro, 0⟩]⟩,  -- MOT_AX_ENC_POS
  ⟨0x2010034, [(24, 0x100)], [⟨0, 32, .ro, 0⟩]⟩,  -- MOT_AX_REM
  ⟨0x2010038, [(24, 0x100)], [⟨0, 32, .ro, 0⟩]⟩,  -- MOT_AX_VEL
  ⟨0x201003c, [(24, 0x100)], [⟨0, 32, .rw, 0x80000000⟩]⟩,  -- MOT_AX_LIM_LO
  ⟨0x2010040, [(24, 0x100)], [⟨0, 32, .rw, 0x7fffffff⟩]⟩,  -- MOT_AX_LIM_HI
  ⟨0x2010044, [(24, 0x100)], [⟨0, 32, .rwo, 0x10000⟩]⟩,  -- MOT_AX_ENC_SCALE
  ⟨0x2010048, [(24, 0x100)], [⟨0, 16, .rw, 0x100⟩]⟩,  -- MOT_AX_DEVWIN
  ⟨0x201004c, [(24, 0x100)], [⟨0, 32, .ro, 0⟩]⟩,  -- MOT_AX_DEV_NOW
  ⟨0x2010050, [(24, 0x100)], [⟨24, 8, .rw, 0x80⟩, ⟨16, 8, .rw, 0x40⟩, ⟨8, 8, .rw, 0x10⟩, ⟨0, 8, .rw, 0xa⟩]⟩,  -- MOT_AX_CUR
  ⟨0x2010054, [(24, 0x100)], [⟨24, 8, .rw, 0x32⟩, ⟨16, 8, .rw, 0x14⟩, ⟨8, 8, .rw, 0x14⟩, ⟨0, 8, .rw, 0x64⟩]⟩,  -- MOT_AX_CHOP
  ⟨0x2010058, [(24, 0x100)], [⟨24, 8, .ro, 0⟩, ⟨16, 8, .ro, 0⟩, ⟨8, 8, .ro, 0⟩, ⟨0, 8, .ro, 0⟩]⟩,  -- MOT_AX_OFS
  ⟨0x201005c, [(24, 0x100)], [⟨16, 16, .ro, 0⟩, ⟨0, 16, .ro, 0⟩]⟩,  -- MOT_AX_TD
  ⟨0x2010060, [(24, 0x100)], [⟨0, 32, .rw, 0⟩]⟩,  -- MOT_AX_CMP
  ⟨0x2010064, [(24, 0x100)], [⟨0, 32, .ro, 0⟩]⟩,  -- MOT_AX_CAP_POS
  ⟨0x2010068, [(24, 0x100)], [⟨0, 32, .ro, 0⟩]⟩,  -- MOT_AX_CAP_ENC
  ⟨0x201006c, [(24, 0x100)], [⟨16, 16, .rw, 0⟩, ⟨0, 16, .rw, 0⟩]⟩  -- MOT_AX_CNT
  ]

/-- The LAT registers. -/
def regTableLAT : List RegRow := [
  ⟨0x2400000, [], [⟨0, 1, .w1c, 0⟩]⟩,  -- LAT_STATUS
  ⟨0x2410000, [(4, 0x1000)], [⟨1, 1, .wo, 0⟩, ⟨0, 1, .rw, 0⟩]⟩,  -- LAT_PORT_CTRL
  ⟨0x2410004, [(4, 0x1000)], [⟨30, 2, .rw, 2⟩, ⟨16, 10, .rw, 0x64⟩, ⟨0, 9, .rwo, 0⟩]⟩,  -- LAT_PORT_CFG
  ⟨0x2410008, [(4, 0x1000)], [⟨23, 9, .ro, 0⟩, ⟨13, 10, .ro, 0⟩, ⟨3, 1, .ro, 0⟩, ⟨0, 3, .ro, 0⟩]⟩,  -- LAT_PORT_STATUS
  ⟨0x241000c, [(4, 0x1000)], [⟨0, 16, .ro, 0⟩]⟩,  -- LAT_PORT_RING
  ⟨0x2410010, [(4, 0x1000)], [⟨0, 32, .ro, 0⟩]⟩,  -- LAT_PORT_CYC
  ⟨0x2410014, [(4, 0x1000)], [⟨16, 16, .rw, 0⟩, ⟨8, 8, .rw, 0⟩, ⟨0, 8, .rw, 0⟩]⟩,  -- LAT_PORT_ERR
  ⟨0x2410018, [(4, 0x1000)], [⟨24, 8, .rw, 0⟩, ⟨16, 8, .rw, 1⟩, ⟨1, 2, .rw, 1⟩, ⟨0, 1, .wo, 0⟩]⟩,  -- LAT_MBX_CTRL
  ⟨0x241001c, [(4, 0x1000)], [⟨8, 8, .ro, 0⟩, ⟨2, 1, .w1c, 0⟩, ⟨1, 1, .w1c, 0⟩, ⟨0, 1, .ro, 0⟩]⟩,  -- LAT_MBX_STATUS
  ⟨0x2410020, [(4, 0x1000)], [⟨0, 32, .rw, 0⟩]⟩,  -- LAT_MBX_ADDR
  ⟨0x2410100, [(4, 0x1000), (32, 0x4)], [⟨0, 32, .rw, 0⟩]⟩,  -- LAT_MBX_DATA
  ⟨0x2420000, [(4, 0x400), (256, 0x4)], [⟨30, 2, .rw, 0⟩, ⟨22, 8, .rw, 0⟩, ⟨20, 2, .ro, 0⟩, ⟨7, 7, .ro, 0⟩, ⟨0, 7, .ro, 0⟩]⟩,  -- LAT_NODE
  ⟨0x2421000, [(4, 0x400), (256, 0x4)], [⟨0, 32, .ro, 0⟩]⟩,  -- LAT_NODE_ID
  ⟨0x2422000, [(4, 0x400), (256, 0x4)], [⟨0, 32, .rwo, 0⟩]⟩,  -- LAT_EXPECT
  ⟨0x2430000, [(8, 0x10)], [⟨30, 2, .rw, 0⟩, ⟨28, 2, .rw, 0⟩, ⟨22, 6, .rw, 0⟩, ⟨16, 6, .rw, 5⟩, ⟨14, 2, .rw, 1⟩, ⟨0, 14, .rw, 0⟩]⟩,  -- LAT_FAN_CFG
  ⟨0x2430004, [(8, 0x10)], [⟨31, 1, .wo, 0⟩, ⟨0, 16, .rw, 0⟩]⟩,  -- LAT_FAN_CTRL
  ⟨0x2430008, [(8, 0x10)], [⟨16, 16, .ro, 0⟩, ⟨8, 1, .w1c, 0⟩, ⟨4, 2, .ro, 0⟩, ⟨0, 3, .ro, 0⟩]⟩,  -- LAT_FAN_STATUS
  ⟨0x2500000, [(4, 0x4000), (256, 0x40), (16, 0x4)], [⟨0, 32, .rw, 0⟩]⟩,  -- LAT_OIMG
  ⟨0x2510000, [(4, 0x4000), (256, 0x40), (16, 0x4)], [⟨0, 32, .ro, 0⟩]⟩  -- LAT_IIMG
  ]

/-- The TRN registers. -/
def regTableTRN : List RegRow := [
  ⟨0x2600000, [], [⟨1, 1, .w1c, 0⟩, ⟨0, 1, .ro, 0⟩]⟩,  -- TRN_STATUS
  ⟨0x2600004, [], [⟨0, 8, .wo, 0⟩]⟩,  -- TRN_SW
  ⟨0x2600010, [(4, 0x4)], [⟨31, 1, .rw, 0⟩, ⟨30, 1, .rw, 0⟩, ⟨0, 20, .rw, 0x3e8⟩]⟩,  -- TRN_TIMER
  ⟨0x2600100, [(16, 0x8)], [⟨30, 2, .rw, 0⟩, ⟨0, 5, .rw, 0⟩]⟩,  -- TRN_EC_CFG
  ⟨0x2600104, [(16, 0x8)], [⟨0, 32, .rw, 0⟩]⟩,  -- TRN_EC_VAL
  ⟨0x2600200, [(28, 0x4)], [⟨0, 32, .rw, 0⟩]⟩,  -- TRN_ENC_CNT
  ⟨0x2600280, [(28, 0x4)], [⟨0, 32, .ro, 0⟩]⟩,  -- TRN_ENC_CAP
  ⟨0x2600300, [(32, 0x4)], [⟨30, 2, .rw, 0⟩, ⟨24, 2, .rw, 0⟩, ⟨16, 8, .rw, 0⟩, ⟨8, 6, .rw, 0⟩, ⟨0, 3, .rw, 0⟩]⟩,  -- TRN_LB_CFG
  ⟨0x2600400, [(8, 0x8)], [⟨0, 32, .rw, 0⟩]⟩,  -- TRN_WC_LO
  ⟨0x2600404, [(8, 0x8)], [⟨0, 32, .rw, 0⟩]⟩,  -- TRN_WC_HI
  ⟨0x2600500, [(8, 0x4)], [⟨24, 8, .rw, 1⟩, ⟨23, 1, .rw, 1⟩, ⟨20, 2, .rw, 0⟩, ⟨12, 8, .rw, 0⟩, ⟨6, 6, .rw, 0⟩, ⟨0, 3, .rw, 0⟩]⟩,  -- TRN_LP_CFG
  ⟨0x2600700, [], [⟨0, 32, .ro, 0⟩]⟩,  -- TRN_TOF_LO
  ⟨0x2600704, [], [⟨0, 32, .ro, 0⟩]⟩,  -- TRN_TOF_HI
  ⟨0x2610000, [(256, 0x20)], [⟨0, 32, .rw, 0⟩]⟩,  -- TRN_TK_SRC
  ⟨0x2610004, [(256, 0x20)], [⟨8, 1, .rw, 0⟩, ⟨5, 1, .rw, 0⟩, ⟨4, 1, .rw, 0⟩, ⟨0, 4, .rw, 0⟩]⟩,  -- TRN_TK_CFG
  ⟨0x2610008, [(256, 0x20)], [⟨8, 4, .wo, 0⟩, ⟨4, 1, .w1c, 0⟩, ⟨0, 4, .ro, 0⟩]⟩,  -- TRN_TK_STATE
  ⟨0x261000c, [(256, 0x20)], [⟨16, 16, .rw, 0⟩, ⟨0, 16, .rw, 0⟩]⟩,  -- TRN_TK_CNT
  ⟨0x2610010, [(256, 0x20)], [⟨0, 32, .ro, 0⟩]⟩,  -- TRN_TK_STAMP_LO
  ⟨0x2610014, [(256, 0x20)], [⟨0, 32, .ro, 0⟩]⟩  -- TRN_TK_STAMP_HI
  ]

/-- The CUL registers. -/
def regTableCUL : List RegRow := [
  ⟨0x2800000, [], [⟨2, 1, .wo, 0⟩, ⟨1, 1, .wo, 0⟩, ⟨0, 1, .rw, 0⟩]⟩,  -- CUL_CTRL
  ⟨0x2800004, [], [⟨20, 4, .ro, 0xf⟩, ⟨19, 1, .ro, 0⟩, ⟨16, 1, .w1c, 0⟩, ⟨0, 4, .ro, 0⟩]⟩,  -- CUL_STATUS
  ⟨0x2800008, [], [⟨28, 4, .ro, 0⟩, ⟨24, 4, .ro, 0xf⟩, ⟨16, 8, .ro, 0⟩, ⟨0, 8, .ro, 0⟩]⟩,  -- CUL_MEMBERS
  ⟨0x280000c, [], [⟨8, 8, .ro, 0⟩, ⟨0, 5, .ro, 0⟩]⟩,  -- CUL_LINE
  ⟨0x2800010, [], [⟨8, 4, .ro, 0⟩, ⟨0, 3, .ro, 0⟩]⟩,  -- CUL_PORT_E
  ⟨0x2800014, [], [⟨8, 4, .ro, 0⟩, ⟨0, 3, .ro, 0⟩]⟩,  -- CUL_PORT_W
  ⟨0x2800018, [], [⟨16, 16, .ro, 0⟩, ⟨1, 1, .ro, 0⟩, ⟨0, 1, .ro, 0⟩]⟩,  -- CUL_TB
  ⟨0x280001c, [], [⟨16, 16, .rw, 0⟩, ⟨8, 8, .rw, 0⟩, ⟨0, 8, .rw, 0⟩]⟩,  -- CUL_ERR
  ⟨0x2800020, [], [⟨16, 16, .rw, 0⟩, ⟨0, 16, .rw, 0⟩]⟩,  -- CUL_ERR2
  ⟨0x2800100, [(8, 0x8)], [⟨0, 20, .ro, 0xfffff⟩]⟩,  -- CUL_DLY_E
  ⟨0x2800104, [(8, 0x8)], [⟨0, 20, .ro, 0xfffff⟩]⟩,  -- CUL_DLY_W
  ⟨0x2800200, [(8, 0x4)], [⟨16, 16, .ro, 0⟩, ⟨8, 8, .ro, 0⟩, ⟨0, 3, .ro, 0⟩]⟩  -- CUL_DEV
  ]

/-- The ECT registers. -/
def regTableECT : List RegRow := [
  ⟨0x2a00000, [], [⟨4, 2, .rw, 2⟩, ⟨1, 1, .rw, 1⟩, ⟨0, 1, .rw, 1⟩]⟩,  -- ECT_CTRL
  ⟨0x2a00004, [], [⟨16, 16, .ro, 0⟩, ⟨9, 1, .ro, 0⟩, ⟨8, 1, .ro, 0⟩, ⟨4, 1, .ro, 0⟩, ⟨0, 4, .ro, 1⟩]⟩,  -- ECT_STATUS
  ⟨0x2a00008, [], [⟨16, 16, .ro, 0⟩, ⟨0, 16, .ro, 0⟩]⟩,  -- ECT_ADDR
  ⟨0x2a0000c, [], [⟨0, 32, .ro, 0⟩]⟩,  -- ECT_SYNC
  ⟨0x2a00010, [], [⟨0, 32, .ro, 0⟩]⟩,  -- ECT_DC_OFS_LO
  ⟨0x2a00014, [], [⟨0, 32, .ro, 0⟩]⟩,  -- ECT_DC_OFS_HI
  ⟨0x2a00018, [], [⟨0, 32, .ro, 0⟩]⟩,  -- ECT_SYNC_TB_LO
  ⟨0x2a0001c, [], [⟨0, 32, .ro, 0⟩]⟩,  -- ECT_SYNC_TB_HI
  ⟨0x2a00020, [], [⟨0, 32, .rw, 0⟩]⟩,  -- ECT_WAKE_LO
  ⟨0x2a00024, [], [⟨0, 32, .rw, 0⟩]⟩,  -- ECT_WAKE_HI
  ⟨0x2a00028, [], [⟨16, 16, .rw, 0⟩, ⟨8, 8, .rw, 0⟩, ⟨0, 8, .rw, 0⟩]⟩,  -- ECT_ERR
  ⟨0x2a0002c, [], [⟨16, 16, .rw, 0⟩, ⟨8, 8, .rw, 0⟩, ⟨0, 8, .rw, 0⟩]⟩  -- ECT_ERR2
  ]

/-- The PWR registers. -/
def regTablePWR : List RegRow := [
  ⟨0x2c00000, [], [⟨20, 4, .ro, 0⟩, ⟨19, 1, .w1c, 0⟩, ⟨18, 1, .ro, 0⟩, ⟨8, 3, .ro, 4⟩, ⟨0, 3, .rw, 2⟩]⟩,  -- PWR_STATE
  ⟨0x2c00004, [], [⟨0, 1, .w1c, 0⟩]⟩,  -- PWR_STATUS
  ⟨0x2c00008, [], [⟨16, 16, .rwo, 0x2710⟩, ⟨8, 6, .rwo, 0⟩, ⟨2, 6, .rwo, 0⟩, ⟨0, 2, .rwo, 2⟩]⟩,  -- PWR_SEQ_CFG
  ⟨0x2c0000c, [], [⟨24, 8, .ro, 0⟩, ⟨16, 6, .ro, 0⟩, ⟨2, 1, .ro, 0⟩, ⟨0, 2, .ro, 0⟩]⟩,  -- PWR_SEQ_STATUS
  ⟨0x2c00010, [], [⟨11, 11, .rw, 0x3b6⟩, ⟨0, 11, .rw, 0x320⟩]⟩,  -- PWR_AVS
  ⟨0x2c00014, [], [⟨16, 11, .ro, 0⟩, ⟨0, 11, .ro, 0x352⟩]⟩,  -- PWR_AVS_STATUS
  ⟨0x2c00018, [], [⟨31, 1, .ro, 0⟩, ⟨0, 16, .rw, 0⟩]⟩,  -- PWR_AVS_ERR
  ⟨0x2c0001c, [], [⟨15, 1, .w1c, 0⟩, ⟨7, 4, .ro, 0⟩, ⟨0, 7, .rwo, 0x40⟩]⟩,  -- PWR_PMIC
  ⟨0x2c00020, [], [⟨16, 8, .ro, 0⟩, ⟨0, 4, .ro, 0⟩]⟩,  -- PWR_BOOT
  ⟨0x2c00024, [], [⟨0, 32, .ro, 0⟩]⟩,  -- PWR_RAIL_REQ
  ⟨0x2c00028, [], [⟨0, 32, .ro, 0⟩]⟩,  -- PWR_RAIL_EN
  ⟨0x2c0002c, [], [⟨0, 32, .ro, 0⟩]⟩,  -- PWR_RAIL_GOOD
  ⟨0x2c00100, [(64, 0x4)], [⟨0, 32, .rwo, 0⟩]⟩,  -- PWR_SEQ_PROG
  ⟨0x2c00200, [(20, 0x4)], [⟨0, 16, .ro, 0⟩]⟩,  -- PWR_PACE
  ⟨0x2c10000, [(32, 0x20)], [⟨16, 16, .rwo, 0⟩, ⟨8, 8, .rwo, 0xa⟩, ⟨7, 1, .rwo, 0⟩, ⟨6, 1, .rwo, 0⟩, ⟨5, 1, .rwo, 0⟩, ⟨4, 1, .rwo, 0⟩, ⟨3, 1, .rwo, 0⟩, ⟨0, 2, .rwo, 0⟩]⟩,  -- PWR_RAIL_CFG
  ⟨0x2c10004, [(32, 0x20)], [⟨0, 32, .rwo, 0⟩]⟩,  -- PWR_RAIL_DEP
  ⟨0x2c10008, [(32, 0x20)], [⟨16, 16, .rw, 0⟩, ⟨0, 16, .rw, 0⟩]⟩,  -- PWR_RAIL_UV
  ⟨0x2c1000c, [(32, 0x20)], [⟨16, 16, .rw, 0xffff⟩, ⟨0, 16, .rw, 0xffff⟩]⟩,  -- PWR_RAIL_OV
  ⟨0x2c10010, [(32, 0x20)], [⟨16, 16, .ro, 0⟩, ⟨3, 1, .w1c, 0⟩, ⟨2, 1, .ro, 0⟩, ⟨1, 1, .ro, 0⟩, ⟨0, 1, .ro, 0⟩]⟩,  -- PWR_RAIL_STATUS
  ⟨0x2c10014, [(32, 0x20)], [⟨16, 16, .rw, 0⟩, ⟨0, 16, .rw, 0⟩]⟩,  -- PWR_RAIL_CNT1
  ⟨0x2c10018, [(32, 0x20)], [⟨16, 16, .rw, 0⟩, ⟨0, 16, .rw, 0⟩]⟩  -- PWR_RAIL_CNT2
  ]

/-- The THM registers. -/
def regTableTHM : List RegRow := [
  ⟨0x2d00000, [], [⟨16, 8, .rw, 5⟩, ⟨8, 8, .rw, 0x76⟩, ⟨0, 8, .rw, 0x64⟩]⟩,  -- THM_CFG
  ⟨0x2d00004, [], [⟨0, 16, .rw, 0x7d0⟩]⟩,  -- THM_GRACE
  ⟨0x2d00008, [], [⟨16, 5, .ro, 0⟩, ⟨0, 16, .ro, 0⟩]⟩,  -- THM_STATUS
  ⟨0x2d0000c, [], [⟨16, 16, .rw, 0⟩, ⟨8, 3, .ro, 7⟩, ⟨4, 1, .ro, 0⟩, ⟨0, 4, .ro, 0⟩]⟩,  -- THM_WEIR
  ⟨0x2d00010, [], [⟨31, 1, .ro, 0⟩, ⟨16, 5, .ro, 0⟩, ⟨0, 16, .ro, 0⟩]⟩,  -- THM_SHUT
  ⟨0x2d00100, [(32, 0x4)], [⟨31, 1, .rw, 1⟩, ⟨30, 1, .w1c, 0⟩, ⟨29, 1, .ro, 0⟩, ⟨0, 16, .ro, 0⟩]⟩,  -- THM_SENS
  ⟨0x2d00200, [(32, 0x4)], [⟨16, 16, .ro, 0⟩, ⟨0, 16, .ro, 0⟩]⟩  -- THM_CAL
  ]

/-- The OTP registers. -/
def regTableOTP : List RegRow := [
  ⟨0x3000000, [], [⟨0, 32, .ro, 0⟩]⟩,  -- OTP_FEATURE
  ⟨0x3000004, [], [⟨16, 8, .ro, 0⟩, ⟨3, 1, .w1c, 0⟩, ⟨2, 1, .ro, 0⟩, ⟨1, 1, .ro, 0⟩, ⟨0, 1, .ro, 0⟩]⟩,  -- OTP_STATUS
  ⟨0x3000008, [], [⟨16, 16, .ro, 0⟩, ⟨0, 16, .ro, 0⟩]⟩,  -- OTP_ECC
  ⟨0x300000c, [], [⟨0, 6, .ro, 0⟩]⟩,  -- OTP_SPARE
  ⟨0x3000010, [], [⟨28, 4, .wo, 0⟩, ⟨0, 11, .wo, 0⟩]⟩,  -- OTP_CMD
  ⟨0x3000014, [], [⟨0, 32, .rw, 0⟩]⟩,  -- OTP_DATA_LO
  ⟨0x3000018, [], [⟨0, 32, .rw, 0⟩]⟩,  -- OTP_DATA_HI
  ⟨0x3010000, [(1536, 0x4)], [⟨0, 32, .ro, 0⟩]⟩  -- OTP_P_ROW
  ]

/-- The SEC registers. -/
def regTableSEC : List RegRow := [
  ⟨0x3200000, [], [⟨24, 8, .wo, 0⟩, ⟨16, 2, .wo, 0⟩, ⟨2, 1, .ro, 0⟩, ⟨0, 2, .ro, 0⟩]⟩,  -- SEC_LC
  ⟨0x3200004, [], [⟨3, 1, .ro, 0⟩, ⟨2, 1, .ro, 0⟩, ⟨1, 1, .ro, 0⟩, ⟨0, 1, .w1c, 0⟩]⟩,  -- SEC_STATUS
  ⟨0x3200008, [], [⟨16, 16, .ro, 0⟩, ⟨0, 16, .ro, 0⟩]⟩,  -- SEC_SVN
  ⟨0x320000c, [], [⟨0, 1, .wo, 0⟩]⟩,  -- SEC_SVN_CTRL
  ⟨0x3200010, [], [⟨16, 9, .wo, 0⟩, ⟨0, 9, .ro, 0⟩]⟩,  -- SEC_TOKEN_EPOCH
  ⟨0x3200014, [], [⟨1, 1, .wo, 0⟩, ⟨0, 1, .wo, 0⟩]⟩,  -- SEC_DBG_CTRL
  ⟨0x3200018, [], [⟨16, 16, .ro, 0⟩, ⟨12, 4, .ro, 0⟩, ⟨8, 4, .ro, 0⟩, ⟨2, 2, .ro, 0⟩, ⟨0, 2, .ro, 0⟩]⟩,  -- SEC_DBG_STATUS
  ⟨0x320001c, [], [⟨16, 16, .ro, 0⟩, ⟨0, 16, .ro, 0⟩]⟩,  -- SEC_DBG_CNT
  ⟨0x3200100, [(8, 0x4)], [⟨0, 32, .ro, 0⟩]⟩,  -- SEC_CHAL
  ⟨0x3200200, [(68, 0x4)], [⟨0, 32, .rw, 0⟩]⟩,  -- SEC_TOKEN
  ⟨0x3200400, [], [⟨0, 32, .ro, 0⟩]⟩,  -- SEC_UID_LO
  ⟨0x3200404, [], [⟨0, 32, .ro, 0⟩]⟩  -- SEC_UID_HI
  ]

/-- The FLT registers. -/
def regTableFLT : List RegRow := [
  ⟨0x3400000, [], [⟨10, 1, .wo, 0⟩, ⟨9, 1, .wo, 0⟩, ⟨6, 3, .rw, 0⟩, ⟨3, 3, .rw, 2⟩]⟩,  -- FLT_CTRL
  ⟨0x3400004, [], [⟨16, 7, .ro, 0⟩, ⟨7, 1, .ro, 0⟩, ⟨6, 1, .ro, 0⟩, ⟨5, 1, .ro, 0⟩, ⟨4, 1, .ro, 0⟩, ⟨0, 3, .ro, 0⟩]⟩,  -- FLT_STATUS
  ⟨0x3400008, [], [⟨0, 16, .rw, 0x1f4⟩]⟩,  -- FLT_QUIET
  ⟨0x340000c, [], [⟨16, 8, .rw, 3⟩, ⟨0, 16, .rw, 0x258⟩]⟩,  -- FLT_RECOV_CFG
  ⟨0x3400010, [], [⟨16, 16, .rw, 0⟩, ⟨0, 8, .ro, 0⟩]⟩,  -- FLT_RECOV_CNT
  ⟨0x3400014, [], [⟨0, 1, .wo, 0⟩]⟩,  -- FLT_HB
  ⟨0x3400018, [], [⟨16, 1, .rw, 1⟩, ⟨0, 16, .rw, 0x64⟩]⟩,  -- FLT_HB_CFG
  ⟨0x3400020, [], [⟨0, 32, .ro, 0⟩]⟩,  -- FLT_FE_INFO
  ⟨0x3400024, [], [⟨0, 32, .ro, 0⟩]⟩,  -- FLT_FE_ADDR_LO
  ⟨0x3400028, [], [⟨0, 32, .ro, 0⟩]⟩,  -- FLT_FE_ADDR_HI
  ⟨0x340002c, [], [⟨0, 32, .ro, 0⟩]⟩,  -- FLT_FE_STAMP_LO
  ⟨0x3400030, [], [⟨0, 32, .ro, 0⟩]⟩,  -- FLT_FE_STAMP_HI
  ⟨0x3400034, [], [⟨0, 32, .ro, 0⟩]⟩,  -- FLT_FE_PARAM
  ⟨0x3400040, [], [⟨0, 32, .ro, 0⟩]⟩,  -- FLT_Q_INFO
  ⟨0x3400044, [], [⟨0, 32, .ro, 0⟩]⟩,  -- FLT_Q_ADDR_LO
  ⟨0x3400048, [], [⟨0, 32, .ro, 0⟩]⟩,  -- FLT_Q_ADDR_HI
  ⟨0x340004c, [], [⟨0, 32, .ro, 0⟩]⟩,  -- FLT_Q_STAMP_LO
  ⟨0x3400050, [], [⟨0, 32, .ro, 0⟩]⟩,  -- FLT_Q_STAMP_HI
  ⟨0x3400054, [], [⟨0, 32, .ro, 0⟩]⟩,  -- FLT_Q_PARAM
  ⟨0x3400058, [], [⟨0, 1, .wo, 0⟩]⟩,  -- FLT_Q_POP
  ⟨0x3400100, [(5, 0x4)], [⟨0, 32, .rw, 0⟩]⟩,  -- FLT_CNT
  ⟨0x3400120, [(5, 0x4)], [⟨0, 16, .rw, 0⟩]⟩  -- FLT_OVR
  ]

/-- The HDG registers. -/
def regTableHDG : List RegRow := [
  ⟨0x1400000, [], [⟨20, 1, .w1c, 0⟩, ⟨16, 4, .ro, 0⟩, ⟨15, 1, .ro, 1⟩, ⟨14, 1, .ro, 1⟩, ⟨0, 12, .ro, 0⟩]⟩,  -- HDG_STATUS
  ⟨0x1400010, [(5, 0x4)], [⟨16, 16, .rwo, 0⟩, ⟨0, 16, .rwo, 0⟩]⟩,  -- HDG_ONMAX
  ⟨0x1400024, [], [⟨16, 16, .rwo, 0xffb9⟩, ⟨0, 16, .rwo, 0x46⟩]⟩,  -- HDG_DUTY
  ⟨0x1400030, [(4, 0x4)], [⟨16, 14, .rwo, 0⟩, ⟨0, 14, .rwo, 0x3fff⟩]⟩,  -- HDG_IL_MAP
  ⟨0x1400040, [(12, 0x4)], [⟨16, 16, .rwo, 0⟩, ⟨5, 11, .rwo, 8⟩, ⟨0, 5, .rwo, 0⟩]⟩,  -- HDG_ST_CFG
  ⟨0x1400080, [(12, 0x4)], [⟨16, 8, .ro, 0⟩, ⟨8, 4, .ro, 0⟩, ⟨3, 1, .ro, 1⟩, ⟨2, 1, .ro, 0⟩, ⟨1, 1, .ro, 0⟩, ⟨0, 1, .ro, 0⟩]⟩,  -- HDG_ST_STATUS
  ⟨0x14000c0, [(12, 0x4)], [⟨0, 16, .ro, 0⟩]⟩,  -- HDG_DUTY_NOW
  ⟨0x1400100, [], [⟨24, 8, .rw, 0⟩, ⟨16, 8, .rw, 0⟩, ⟨8, 8, .rw, 0⟩, ⟨0, 8, .rw, 0⟩]⟩  -- HDG_CNT
  ]

/-- The EVR registers. -/
def regTableEVR : List RegRow := [
  ⟨0x3600000, [], [⟨4, 1, .w1c, 0⟩, ⟨3, 1, .ro, 0⟩, ⟨2, 1, .ro, 0⟩, ⟨1, 1, .ro, 0⟩, ⟨0, 1, .ro, 0⟩]⟩,  -- EVR_STATUS
  ⟨0x3600004, [], [⟨0, 32, .ro, 0⟩]⟩,  -- EVR_NEWEST
  ⟨0x3600008, [], [⟨0, 32, .ro, 0⟩]⟩,  -- EVR_OLDEST
  ⟨0x360000c, [], [⟨0, 32, .ro, 0⟩]⟩,  -- EVR_OPSEC
  ⟨0x3600010, [], [⟨0, 32, .ro, 0⟩]⟩,  -- EVR_CYCLES
  ⟨0x3600014, [], [⟨0, 32, .rw, 0⟩]⟩,  -- EVR_RD_SEQ
  ⟨0x3600018, [], [⟨2, 1, .ro, 0⟩, ⟨1, 1, .ro, 0⟩, ⟨0, 1, .ro, 0⟩]⟩,  -- EVR_RD_STATUS
  ⟨0x3600020, [(8, 0x4)], [⟨0, 32, .ro, 0⟩]⟩,  -- EVR_RD_DATA
  ⟨0x3600040, [], [⟨8, 8, .wo, 0⟩, ⟨0, 1, .wo, 0⟩]⟩,  -- EVR_CLEAR
  ⟨0x3600044, [], [⟨16, 16, .rw, 0⟩, ⟨0, 16, .rw, 0⟩]⟩,  -- EVR_CNT
  ⟨0x3600050, [], [⟨31, 1, .ro, 0⟩, ⟨16, 8, .ro, 0⟩, ⟨1, 1, .ro, 0⟩, ⟨0, 1, .ro, 0⟩]⟩,  -- EVR_CAL_STATUS
  ⟨0x3600054, [], [⟨0, 32, .ro, 0⟩]⟩  -- EVR_CAL_SEQ
  ]

end Sys2Proof.Machine
end

