-- ==== Sys2Proof/Machine/RegReset.lean ====
section
/-! DEFINITION. The reset value of every register: the sum of its fields' reset values, and what depends on the variant or on the instance. -/
namespace Sys2Proof.Machine

/-- Is `d` the offset of an instance, given the (count, stride) pairs from the widest stride to the narrowest? -/
def dimHit : List (Nat × Nat) → Nat → Bool
  | [], d => d = 0
  | (n, s) :: t, d => decide (d / s < n) && dimHit t (d % s)

/-- Does a register row hold BAR0 offset `off`? -/
def RegRow.hit (r : RegRow) (off : Nat) : Bool := decide (r.off ≤ off) && dimHit r.dims (off - r.off)

/-- The register tables block by block, each with the first offset after its span (R36). -/
def blockTables : List (Nat × List RegRow) := [
  (0x100000, regTableHIF), (0x200000, regTableSIP), (0x300000, regTableSPL), (0x400000, regTableKOR),
  (0x800000, regTableCMP), (0xC00000, regTableFLM), (0x1000000, regTableSCN), (0x1400000, regTableEXP),
  (0x1800000, regTableHDG), (0x1C00000, regTableINS), (0x2000000, regTableLPE), (0x2400000, regTableMOT),
  (0x2600000, regTableLAT), (0x2800000, regTableTRN), (0x2A00000, regTableCUL), (0x2C00000, regTableECT),
  (0x2D00000, regTablePWR), (0x2E00000, regTableTHM), (0x3000000, regTableCLK), (0x3200000, regTableOTP),
  (0x3400000, regTableSEC), (0x3600000, regTableFLT), (0x3800000, regTableEVR)]

/-- The register table of the block whose span holds `off`. -/
def tableOf : List (Nat × List RegRow) → Nat → List RegRow
  | [], _ => []
  | (e, t) :: r, off => if off < e then t else tableOf r off

/-- The register at BAR0 offset `off`, if its block's chapter defines one. -/
def findReg (off : Nat) : Option RegRow := (tableOf blockTables off).find? (fun r => r.hit off)

/-- Settings of the pixel PLLs by class: ODIV, N_INT, FRAC (R341). -/
def pixelPll : Nat → Nat × Nat × Nat
  | 0 => (4, 69, 0xD1745D) | 1 => (4, 52, 0x5D1746) | 2 => (5, 69, 0xD1745D) | 3 => (6, 69, 0xD1745D) | _ => (7, 69, 0xD1745D)

/-- N_INT of the system PLLs 12 to 15 (R342). -/
def systemPllN : Nat → Nat
  | 12 => 50 | 13 => 64 | 14 => 50 | _ => 40

/-- Flumes required by enabled stations and class (R300). -/
def flumesRequired (stations cls : Nat) : Nat :=
  if stations = 12 then (match cls with | 0 => 10 | 1 => 7 | 2 => 5 | 3 => 3 | _ => 2)
  else if stations = 8 then (match cls with | 0 => 7 | 1 => 5 | 2 => 4 | 3 => 2 | _ => 1)
  else (match cls with | 0 => 4 | 1 => 3 | 2 => 2 | 3 => 1 | _ => 1)

/-- The 65 reset values round(255 × sin(k × 90° / 64)) of MOT_USTEP_TAB. -/
def ustepSine : List Nat :=
  [0, 6, 13, 19, 25, 31, 37, 44, 50, 56, 62, 68, 74, 80, 86, 92, 98, 103, 109, 115, 120, 126, 131, 136, 142, 147, 152, 157, 162, 167, 171, 176, 180, 185, 189, 193, 197, 201, 205, 208, 212, 215, 219, 222, 225, 228, 231, 233, 236, 238, 240, 242, 244, 246, 247, 249, 250, 251, 252, 253, 254, 254, 255, 255, 255]

/-- HDG_ONMAX[c].US at reset (spec/19, Headgate registers). -/
def onMaxReset : Nat → Nat
  | 0 => 116 | 1 => 154 | 2 => 231 | 3 => 462 | _ => 924

/-- What the variant and the instance add to a register's reset value (spec/03 to spec/19, reset columns). -/
def resetExtra (v : Variant) (off : Nat) : Nat :=
  if off < 0x400000 then
    if off = 0 then v.code * 2 ^ 16
    else if 0xE0000 ≤ off ∧ off < 0xE8000 then (if off % 16 = 12 then 1 else 0)
    else if 0x100100 ≤ off ∧ off < 0x100200 then
      let ch := (off - 0x100100) / 4
      (if ch < 4 then 1 else if ch < 56 then 0 else if ch < 60 then 2 else 3) * 2 ^ 4
    else if 0x110000 ≤ off ∧ off < 0x120000 ∧ off % 0x400 = 0x14 then
      let ch := (off - 0x110000) / 0x400
      if 4 ≤ ch ∧ ch < 56 then 0 else 1
    else 0
  else if off < 0xC00000 then
    if off = 0x400008 then (match v with | .sx1296 => 282222 | .sx0864 => 423333 | .sx0432 => 0)
    else if off = 0x800004 then flumesRequired v.stations v.fastest * 2 ^ 16
    else if 0x900000 ≤ off ∧ off < 0x9C0000 then (off % 0x400) / 4 * 16
    else 0
  else if off < 0x1C00000 then
    if off = 0xC00000 then v.fastest
    else if off = 0xC00004 then v.fastest * 2 ^ 4
    else if 0xC10000 ≤ off ∧ off < 0xC1C000 ∧ off % 0x1000 = 0 then
      let st := (off - 0xC10000) / 0x1000
      (if st < 6 then 0 else 1) * 2 ^ 8 + st
    else if 0x1010000 ≤ off ∧ off < 0x101C000 ∧ off % 0x1000 = 0x30 then 0x43322110
    else if 0x1010000 ≤ off ∧ off < 0x101C000 ∧ off % 0x1000 = 0x34 then 0x87766554
    else if 0x1400010 ≤ off ∧ off < 0x1400024 then
      let us := onMaxReset ((off - 0x1400010) / 4)
      (0xFFFF - us) * 2 ^ 16 + us
    else if 0x1400040 ≤ off ∧ off < 0x1400070 then
      let st := (off - 0x1400040) / 4
      (0xFEFF - st) * 2 ^ 16 + st
    else if off = 0x1810014 then 0x03F
    else if off = 0x1820014 then 0xFC0
    else if off = 0x182002C then 6 * 2 ^ 28
    else 0
  else if off < 0x2400000 then
    if 0x2000100 ≤ off ∧ off ≤ 0x2000200 then ustepSine.getD ((off - 0x2000100) / 4) 0
    else if 0x2010000 ≤ off ∧ off < 0x2011800 ∧ off % 0x100 = 8 then (off - 0x2010000) / 0x100 * 2 ^ 21
    else 0
  else if 0x2E10000 ≤ off ∧ off < 0x2E10200 then
    let pll := (off - 0x2E10000) / 0x20
    let p := pixelPll v.fastest
    if off % 0x20 = 0 then
      if pll < 12 then p.1 * 2 ^ 20 + 2 ^ 16 + p.2.1 else systemPllN pll
    else if off % 0x20 = 4 then (if pll < 12 then p.2.2 else 0)
    else if off % 0x20 = 8 then 0x5A00 + pll
    else 0
  else if off = 0x2800004 then 2 ^ 19
  else if off = 0x3000000 then v.feature
  else if 0x4000000 ≤ off then (if off % 0x40000 / 0x1000 = 0x20 ∧ off % 16 = 12 then 1 else 0)
  else 0

/-- The reset value of the register at `off`; 0 where no register is defined. -/
def resetNat (v : Variant) (off : Nat) : Nat :=
  match findReg off with
  | some r => (r.fields.foldl (fun a f => a + f.rst * 2 ^ f.lo) 0) + resetExtra v off
  | none => if 0x4000000 ≤ off then resetExtra v off else 0

/-- The reset value of the register at `off`, as a word. -/
def resetWord (v : Variant) (off : Nat) : Word := BitVec.ofNat 32 (resetNat v off)

end Sys2Proof.Machine
end

