-- ==== Sys2Proof/Machine/State.lean ====
section
/-! DEFINITION. The state of the SX-1296: everything the spec gives the block, as plain data, with the queue of waiting commands. -/
namespace Sys2Proof.Machine

/-! ### Reports, records and what leaves the device -/

/-- A fault report on its way to the Sump (R675). -/
structure Report where
  cls    : Nat := 0                         -- class 0 to 4 (R672)
  access : Nat := 0
  master : Nat := 0xFF
  src    : Nat := 0
  cause  : Nat := 0
  addr   : BitVec 64 := 0
  param  : BitVec 32 := 0
  stamp  : BitVec 64 := 0
  deriving DecidableEq, Repr, Inhabited

/-- An event record (R700); its CRC and MARK are computed from the rest. -/
structure EvrRec where
  seq    : BitVec 32 := 0
  cause  : Nat := 0
  master : Nat := 0xFF
  severity : Nat := 0
  access : Nat := 0
  lastWords : Bool := false
  source : Nat := 0
  opsec  : BitVec 32 := 0
  cycles : BitVec 32 := 0
  p0 : BitVec 32 := 0
  p1 : BitVec 32 := 0
  p2 : BitVec 32 := 0
  deriving DecidableEq, Repr, Inhabited

/-- What the device sends out: messages, frames, posted writes and wires (assumption log 5). -/
inductive Output where
  | hostWrite (fn : Nat) (addr : BitVec 64) (data : List (BitVec 8))   -- a posted memory write with fn's requester ID
  | hostZeroRead (fn : Nat) (addr : BitVec 64)                         -- the zero-length barrier read of R165
  | hostData (fn attr : Nat) (addr : BitVec 64) (data : List (BitVec 8))   -- one data TLP of Siphon toward the host (R154, R159); attr bit 0 No Snoop, bit 1 Relaxed Ordering
  | msix (fn vec : Nat) (addr : BitVec 64) (data : BitVec 32)          -- an MSI-X message
  | completion (kind : Nat) (data : BitVec 32)                         -- a PCIe completion: 0 normal, 1 UR, 2 RRS
  | sdo (abort : Nat) (data : List (BitVec 8))                         -- a CoE response
  | sideband (bl : Nat) (data : List (BitVec 8))                       -- a sideband request
  | lane (bl lane : Nat) (blocks : List (Bool × BitVec 64))            -- payloads of a beam-link lane, before line coding; true: data block
  | clock (bl : Nat) (on : Bool)                                       -- the forwarded clock leaves idle, or returns to it
  | lateral (port : Nat) (data : List (BitVec 8))                      -- a lateral frame
  | culvert (east : Bool) (data : List (BitVec 8))                     -- a Culvert message
  | ect (data : List (BitVec 8))                                       -- an EtherCAT mailbox response
  | pmic (addr : Nat) (data : List (BitVec 8))                         -- an AVSBus or PMBus frame
  | nvme (drive : Nat) (op : Nat)                                      -- an NVMe command: 0 write, 1 flush, 2 deallocate, 3 shutdown, 4 read, 5 Identify, 6 Get Log Page, 7 Set Features, 8 create an I/O queue pair
  | bootFlash (off : Nat) (data : List (BitVec 8))                     -- bytes written to the boot flash
  | debug (status : Nat) (data : BitVec 64)                            -- what a JTAG instruction shifts out
  | wire (name : Nat) (level : Bool)                                   -- a pin driven to a level
  | boundary (highZ : Bool) (cells : List Bool)                        -- EXTEST or CLAMP drives the balls from the cells, HIGHZ releases them; LASER_EN, HV_KILL, FUSER_KILL and ALIVE excepted (R664)
  deriving DecidableEq, Repr, Inhabited

/-! ### Pages and frames (spec/02) -/

/-- The 64-byte page descriptor's fields (R50), as read from a submission queue. -/
structure PageDesc where
  pageId    : BitVec 64 := 0
  opcode    : Nat := 0
  speed     : Nat := 0
  stations  : BitVec 16 := 0
  inspect   : BitVec 8 := 0
  format    : Nat := 0
  toneSet   : Nat := 0
  screenSet : Nat := 0
  length    : Nat := 0
  gap       : Nat := 0
  flags     : BitVec 16 := 0
  srcAddr   : BitVec 64 := 0
  srcLen    : Nat := 0
  jobId     : BitVec 32 := 0
  hostTag   : BitVec 64 := 0
  resvZero  : Bool := true
  checkOk   : Bool := true
  deriving DecidableEq, Repr, Inhabited

/-- One 16-byte source table entry (R51). -/
structure SourceEntry where
  addr   : BitVec 64 := 0
  len    : Nat := 0
  layers : Nat := 1
  resvZero : Bool := true
  deriving DecidableEq, Repr, Inhabited

/-- Where a committed page stands (R61 to R81). -/
inductive PagePhase where
  | waiting                                  -- committed, no frame claimed yet
  | claimed                                  -- a frame is claimed, first latch line not passed
  | latched                                  -- first latch line passed (R64)
  | printed                                  -- last line printed, inspection outstanding
  | final (code : Nat) (reason : Nat)        -- a final state of R77
  deriving DecidableEq, Repr, Inhabited

/-- One page the device holds (R55 to R87). -/
structure Page where
  seq        : Nat := 0                      -- commit number: unique, in commit order
  auto       : Bool := false                 -- this printing is an automatic reprint (R82)
  fn         : Nat := 0
  desc       : PageDesc := {}
  src        : List SourceEntry := []
  commitLine : Option Nat := none            -- none: "before the first frame" (R58)
  phase      : PagePhase := .waiting
  last       : Bool := false                 -- FLAGS.LAST of the descriptor that committed this printing
  reprints   : Nat := 0                      -- automatic reprints so far (R82)
  reissued   : Bool := false                 -- this printing is a REISSUE (source is the spool)
  releaseReq : Bool := false                 -- a RELEASE waits for the final state (R85)
  muted      : Bool := false                 -- its function was reset: no events are written (R89)
  heard      : Bool := false                 -- released after that reset: its RELEASED is written
  flr        : Bool := false                 -- reset while latched: missing data spoils FUNCTION_RESET
  spoil      : Option Nat := none            -- spoiled, with its reason (R74, R80)
  latchedSt  : BitVec 12 := 0                -- stations whose latch line has passed (R66)
  tofSt      : BitVec 12 := 0                -- stations the top-of-form has reached (R46)
  doneSt     : BitVec 12 := 0                -- stations whose last line has passed
  verdicts   : List (Nat × Nat) := []        -- (side, verdict) results so far (R421)
  feedReq    : Bool := false                 -- sheet mode: its feed has been requested (R92)
  deriving DecidableEq, Repr, Inhabited

/-- One frame on the web (R45). -/
structure Frame where
  tof     : Nat := 0                         -- T, in web line count
  len     : Nat := 0
  pitch   : Nat := 0
  page    : Option Nat := none               -- commit number of its page; none: blank
  blank   : Bool := false                    -- prints blank: unclaimed, cancelled or dropped page
  firstLatch : Nat := 0                      -- R47
  latched : Bool := false                    -- its first latch line has passed
  remain  : Nat := 0                         -- sheet mode: the remainder of R93 absorbed in the offsets
  line    : Option (BitVec 64) := none       -- PAGE_ID of a frame that SCHEDULE laid down, 0 for a blank one (R558)
  fixed   : Bool := true                     -- a scheduled frame that still takes a part committed here
  deriving DecidableEq, Repr, Inhabited

/-- A station stream or placement list of a page, as landed in the station's raster ring (R28, R51). -/
structure Stream where
  page   : Nat := 0                          -- commit number
  st     : Nat := 0
  len    : Nat := 0                          -- STREAM_LEN
  layers : Nat := 1
  data   : List (BitVec 8) := []             -- bytes landed, in order (R167)
  used   : Nat := 0                          -- bytes no longer needed by the Flumes
  dead   : Bool := false                     -- its transfer was abandoned (R179)
  copy   : Option Nat := none                -- the page copy that takes the same bytes, by its number (R190)
  deriving DecidableEq, Repr, Inhabited

/-- The line's pages and frames. -/
structure Pages where
  pages    : List Page := []                 -- in commit order
  frames   : List Frame := []                -- in top-of-form order
  nextSeq  : Nat := 1                        -- the next commit number; 0 is no page's
  nextTof  : Option Nat := none              -- T of the next unclaimed frame; none while no run
  lastWasLast : Bool := false                -- the last page claimed carried FLAGS.LAST (R63)
  followsDrop : Bool := false                -- the last frame placed carried a cancelled or dropped page (R63)
  streams  : List Stream := []
  refuse97  : Bool := false                  -- RUN was refused under R97
  refuse326 : Bool := false                  -- RUN was refused under R326
  wantClass : Option Nat := none             -- the class the first waiting page asks for (R69)
  sheetReq : List (Nat × Nat) := []          -- requested feeds awaiting their edge: commit number, line of the request (R92, R94)
  deriving DecidableEq, Repr, Inhabited

/-! ### Host interface (spec/03) -/

/-- A completion entry (R111); `delayed` and `reprint` are FLAGS bits, the phase is given when the entry is written. -/
structure CqEntry where
  pageId  : BitVec 64 := 0
  hostTag : BitVec 64 := 0
  stamp   : BitVec 64 := 0
  status  : Nat := 0
  reason  : Nat := 0
  station : Nat := 0xFF
  reprint : Bool := false
  delayed : Bool := false
  deriving DecidableEq, Repr, Inhabited

/-- What a function holds beside its registers. -/
structure FnState where
  backlog  : List CqEntry := []             -- R115, oldest first
  seq      : Nat := 0                       -- entries since the queue was enabled (R111)
  unsig    : Nat := 0                       -- entries written and not yet signalled (R118)
  d3       : Bool := false                  -- in D3hot (R136)
  also     : Nat := 0                       -- pause cause that came while the pause of D3hot stood (R88, R120)
  inFlr    : Bool := false                  -- an FLR is in progress (R126)
  msixEn   : Bool := false                  -- MSI-X Enable of configuration space
  msixMask : Bool := false                  -- MSI-X Function Mask
  shadow   : Option (Nat × BitVec 32) := none   -- high-word shadow of R15: the offset of the high word it stands for, and the word
  devCtl   : BitVec 16 := 0x2810            -- Device Control of configuration space: payload and request sizes, ordering attributes
  deriving DecidableEq, Repr, Inhabited

/-- What an SDO transfer asks of the dictionary server (R43, R592). -/
inductive SdoOp where
  | upload (index sub : Nat) (complete : Bool)
  | download (index sub : Nat) (complete : Bool) (data : List (BitVec 8))
  | info (data : List (BitVec 8))
  deriving DecidableEq, Repr, Inhabited

/-- A transfer at the dictionary server: over CoE, by the PF mailbox with its request as it stood at GO, or through the ring's tunnel. -/
inductive SdoReq where
  | coe (op : SdoOp)
  | mailbox (req : List (BitVec 8))
  | ring (src index sub cmd : Nat) (data : List (BitVec 8))
  deriving DecidableEq, Repr, Inhabited

/-- A segmented mailbox transfer in progress (R139, R140). -/
structure MbxXfer where
  cmd    : Nat := 0
  index  : Nat := 0
  sub    : Nat := 0
  total  : Nat := 0
  done   : Nat := 0                         -- bytes transferred so far
  data   : List (BitVec 8) := []            -- the snapshot, or the bytes received so far
  deriving DecidableEq, Repr, Inhabited

/-- A tunnelled access that waits for its response (R566). -/
structure Tunnel where
  dev    : Nat := 0
  index  : Nat := 0
  sub    : Nat := 0
  upload : Bool := true
  deriving DecidableEq, Repr, Inhabited

/-- The host port. -/
structure Hif where
  fns      : Store FnState := []
  fetching : Option Nat := none             -- the queue whose descriptor is being read (R107)
  lastFn   : Nat := 15                      -- the function served last (R59)
  xfer     : Option MbxXfer := none
  sdoWait  : List SdoReq := []              -- transfers waiting, in order of arrival (R43)
  hold     : Option SdoReq := none          -- a transfer that waits for a calibration store or for a tunnelled response
  tunnel   : Option Tunnel := none          -- the tunnelled access for which it waits; none: it waits for a store
  vfEnable : Bool := false
  bar      : BitVec 64 := 0                 -- base address in BAR0/BAR1 of the PF (R99)
  vfBar    : BitVec 64 := 0                 -- base address in the SR-IOV VF BAR0/BAR1 (R99)
  numVfs   : Nat := 0
  perst    : Bool := false                  -- PERST_N deasserted
  memEn    : Bool := false
  dropRsp  : Bool := false                  -- the response of the mailbox transfer in progress is discarded (R132)
  clkDown  : Bool := false                  -- the endpoint clock was lost: the host port is down until PERST_N (R25)
  deriving DecidableEq, Repr, Inhabited

/-! ### Siphon (spec/04) -/

/-- A Siphon descriptor's fields (R153). -/
structure SipDesc where
  src : Nat := 0
  dst : Nat := 0
  idx : Nat := 0
  status : Nat := 0
  count : Nat := 0
  elem : Nat := 0
  spaces : BitVec 8 := 0
  modes : BitVec 8 := 0
  flags : BitVec 16 := 0
  seq : Nat := 0
  resvZero : Bool := true
  checkOk : Bool := true
  deriving DecidableEq, Repr, Inhabited

/-- What a device-driven descriptor moves (R144). -/
inductive SipJob where
  | ingest (page st : Nat)                  -- a station stream or placement list from the host (R149)
  | reissue (page st : Nat)                 -- the same, from the page's spooled copy
  | tileLoad (fn tile : Nat)                -- spool to tile store (R265)
  | stage (copy ext : Nat)                  -- an extent of a page's copy, spool to staging region
  | compose (flume : Nat)                   -- a page block row's blocks, tile store to streaming area, for a Flume's furrow (R267)
  | pin (entry : Nat)                       -- a pinned range, tile store to pinned area (R266)
  deriving DecidableEq, Repr, Inhabited

/-- A spool extent that a descriptor needs: read whole and verified before a byte of it goes on (R198). -/
structure SpoolRead where
  ext  : Nat := 0
  data : List (BitVec 8) := []              -- its payload, as it stood when the read was issued (R206)
  good : Bool := true                       -- header CHECK and tag match (R196, R197)
  done : Bool := false                      -- the read has completed
  deriving DecidableEq, Repr, Inhabited

/-- A descriptor in hand on a channel. -/
structure SipXfer where
  desc  : SipDesc := {}
  job   : Option SipJob := none             -- none: a HOST channel's ring descriptor
  moved : Nat := 0                          -- bytes (INC, FIXED) or elements (INDEX) moved
  lastDst : Nat := 0                        -- last written destination address (R165)
  code  : Option Nat := none                -- decided completion code; none while data moves
  started : Bool := false                   -- the descriptor passed its checks
  pattern : Option (List (BitVec 8)) := none  -- the unit of a FIXED source, once read (R156)
  reads : List SpoolRead := []              -- the spool extents its next burst needs
  barrierWait : Bool := false               -- the zero-length read is outstanding (R165)
  barrierMet : Bool := false
  abortReq : Bool := false                  -- ABORT written while ACTIVE (R171)
  abortLate : Bool := false                 -- R172
  deriving DecidableEq, Repr, Inhabited

/-- What a channel holds beside its registers. -/
structure SipChan where
  fetching : Bool := false                  -- its ring entry is being read (R162)
  xfer : Option SipXfer := none
  ringErr : Bool := false                   -- RING_ERROR stops it after the descriptor in hand (R161)
  todo : List (SipJob × SipDesc) := []      -- device-driven descriptors waiting
  deriving DecidableEq, Repr, Inhabited

/-- Siphon. -/
structure Sip where
  chans : Store SipChan := []
  ingestLast : Store Nat := []              -- per function, the channel that took its last stream (R149)
  held : Bool := false                      -- device-driven channels stopped by a C3 or C4 (R174)
  off : Bool := false                       -- stopped for SLEEP and not powered again (R175)
  hiLast : Nat := 63                        -- the arbiter (R170): the channel served last in each level,
  hiLeft : Nat := 0                         --   the bursts left of its turn,
  loLast : Nat := 63
  loLeft : Nat := 0
  sinceLow : Nat := 0                       --   and the grants to the high level since the low one had its last, while a HOST channel waits
  deriving DecidableEq, Repr, Inhabited

/-! ### Spool (spec/05) -/

/-- A drive behind the root port (R181 to R183). -/
structure Drive where
  linkDone : Bool := false                  -- training of its link has ended (R736 step 2)
  linkUp   : Bool := false
  decided  : Bool := false                  -- admitted, failed or found not present
  capacity : Nat := 0                       -- extents it adds to the managed space
  fails    : List Nat := []                 -- when commands to it failed, within the last second (R183)
  queues   : Nat := 0                       -- I/O queue pairs created (R181)
  salts    : List (BitVec 32 × List (BitVec 8)) := []  -- its salt table: epochs with their salts (R199, R203)
  deriving DecidableEq, Repr, Inhabited

/-- Progress of a page copy (R190). -/
inductive CopyStage where
  | writing | flushing | catalogue | catalogueFlush | complete | incomplete
  deriving DecidableEq, Repr, Inhabited

/-- An extent on the drives: what its header records (R197), and the drives that hold it. The bytes themselves are those of its owner (R189, R186). -/
structure Extent where
  counter : Nat := 0
  epoch   : BitVec 32 := 0
  kind    : Nat := 1                        -- 1 page copy, 2 audit capture, 3 direct extent
  fn      : Nat := 0
  owner   : BitVec 64 := 0                  -- page identifier, or direct extent index
  index   : Nat := 0
  length  : Nat := 65536                    -- payload bytes that count
  tag     : List (BitVec 8) := []           -- GCM tag
  drives  : BitVec 4 := 0
  deriving DecidableEq, Repr, Inhabited

/-- A page's spooled copy (R189 to R193). -/
structure Copy where
  key     : Nat := 0                        -- number of the copy
  fn      : Nat := 0
  pageId  : BitVec 64 := 0
  desc    : PageDesc := {}
  src     : List SourceEntry := []
  streams : List (List (BitVec 8)) := []    -- station streams, in source-table order
  extents : Nat := 0                        -- R189
  landed  : Nat := 0                        -- bytes of the copy whose ingest has landed
  issued  : Nat := 0                        -- extent writes issued
  written : Nat := 0                        -- extent writes completed
  stage   : CopyStage := .writing
  drives  : BitVec 4 := 0                   -- drives that hold an extent of it
  heads   : List Extent := []               -- its extents, as issued
  staged  : List Nat := []                  -- its extents read back into the staging region, verified (R198)
  releaseWait : Bool := false               -- RELEASED follows when its open write ends (R192)
  deriving DecidableEq, Repr, Inhabited

/-- An audit capture of one side of a page: the L stream that encodes its rows (R439). -/
structure Audit where
  key      : Nat := 0
  fn       : Nat := 0
  pageId   : BitVec 64 := 0
  side     : Nat := 0
  data     : List (BitVec 8) := []
  extents  : Nat := 0
  issued   : Nat := 0                       -- extent writes issued
  heads    : List Extent := []
  drives   : BitVec 4 := 0
  complete : Bool := false
  deriving DecidableEq, Repr, Inhabited

/-- What an outstanding NVMe command does. -/
inductive NvmeOp where
  | writeExtent (copy ext : Nat)
  | flush (copy : Nat)
  | catEntry (copy : Nat)
  | catFlush (copy : Nat)
  | writeDirect (fn ext : Nat)
  | writeAudit (audit : Nat)
  | barrierFlush (ch : Nat)
  | shutdownFlush                           -- the Flush before the shutdown notification (R204)
  | read (ch ext : Nat)                     -- an extent for the descriptor in hand on a channel
  deriving DecidableEq, Repr, Inhabited

/-- An outstanding NVMe command. -/
structure NvmeCmd where
  id    : Nat := 0
  drive : Nat := 0
  op    : NvmeOp := .shutdownFlush
  deriving DecidableEq, Repr, Inhabited

/-- A direct extent with a drive extent allocated to it (R186). -/
structure DirectExt where
  fn : Nat := 0
  ext : Nat := 0
  inFlight : Bool := false                  -- its write has begun and has not completed (R206)
  waits : Bool := false                     -- it is staged whole and waits to be sealed (R201)
  head : Option Extent := none              -- its last sealed write
  deriving DecidableEq, Repr, Inhabited

/-- A record of the epoch journal in the record flash (R199). -/
structure JournalRec where
  epoch : BitVec 32 := 0
  salt  : List (BitVec 8) := []
  mac   : List (BitVec 8) := []
  deriving DecidableEq, Repr, Inhabited

/-- The spool. -/
structure Spl where
  drives   : Store Drive := []
  copies   : List Copy := []
  audits   : List Audit := []
  nextKey  : Nat := 0
  cmds     : List NvmeCmd := []
  nextCmd  : Nat := 0
  direct   : List DirectExt := []
  starting : Bool := false                  -- R736 steps 1 to 4 run
  catalogue : List Copy := []               -- copies on the drives that recovery has not read yet (R193)
  salt     : List (BitVec 8) := []          -- the salt of the current epoch
  epochOk  : Bool := false                  -- R200: every step of R199 has succeeded
  journalOk : Bool := false                 -- the journal record of the current epoch is written and read back
  exhausted : Bool := false                 -- R202
  saltFull : Bool := false                  -- R203
  rootDown : Bool := false                  -- root port clock lost (R25)
  asleep   : Bool := false                  -- SLEEP or deeper
  closing  : Nat := 0                       -- on the way to SLEEP: 1 open writes end, 2 the drives flush, 3 they have their shutdown notification (R204)
  journal  : Option JournalRec := none      -- the last record of the journal (R199)
  trims    : Store Nat := []                -- running trims per function: extents skipped
  enums    : Store Nat := []                -- running listings per function: maximum
  stripe   : Nat := 0                       -- extents placed so far (stripe order)
  deriving DecidableEq, Repr, Inhabited

/-! ### Codec jobs (spec/06) -/

/-- What a codec slot holds beside its registers: an open L encode's input and its held controls (R244). -/
structure KorJob where
  input : List (BitVec 8) := []             -- input consumed so far, in order
  mark  : Nat := 0                          -- input bytes in blocks already ended
  flush : Bool := false                     -- FLUSH held until WAITING
  close : Bool := false                     -- CLOSE held until WAITING
  deriving DecidableEq, Repr, Inhabited

/-- The job engine's slots. -/
structure Kor where
  jobs : Store KorJob := []
  deriving DecidableEq, Repr, Inhabited

/-! ### Tile composer (spec/07) -/

/-- An entry of a function's tile directory, as read (R253, R254). -/
structure DirEntry where
  valid : Bool := false
  f2 : Bool := false
  w : Nat := 0
  h : Nat := 0
  first : Nat := 0
  deriving DecidableEq, Repr, Inhabited

/-- A tile in the tile store, or on its way to it. -/
structure TileRes where
  fn    : Nat := 0
  tile  : Nat := 0
  first : Nat := 0                          -- FIRST of its directory entry
  exts  : Nat := 0                          -- extents of its blocks
  size  : Nat := 0                          -- bytes of its blocks
  loading : Bool := true
  stale : Bool := false                     -- a write reached it while it loaded: loaded again (R256)
  waits : Bool := false                     -- its load waits for room (R265)
  again : Bool := false                     -- a write reached it: it is loaded again once the write is staged (R256)
  place : List Nat := []                    -- its 4 KiB units of the tile-store region, in order
  got : Nat := 0                            -- bytes loaded
  err : Option Nat := none                  -- the code its load met
  deriving DecidableEq, Repr, Inhabited

/-- One placement of a list, with the function whose slice its tile belongs to (R257 to R260). -/
structure Placement where
  fn : Nat := 0
  tile : Nat := 0
  col : Nat := 0
  row : Nat := 0
  layer : Nat := 0
  dir : DirEntry := {}                      -- its tile's directory entry, once read
  deriving DecidableEq, Repr, Inhabited

/-- A station's placement list that has landed. -/
structure PList where
  page : Nat := 0                           -- commit number
  st : Nat := 0
  layers : Nat := 1
  modes : Nat := 0                          -- LAYER_MODE
  entries : List Placement := []
  read : Bool := false                      -- its directory entries have been read
  deriving DecidableEq, Repr, Inhabited

/-- What a pin entry holds in the pinned area: nothing unless its range was accepted (R266). -/
structure Pin where
  accepted : Bool := false
  bytes : Nat := 0
  copied : Bool := false                    -- its range has been copied to the pinned area
  deriving DecidableEq, Repr, Inhabited

/-- A composed furrow that a Flume has been given: its blocks on their way through the streaming area, and its index tables (R267). -/
structure Fill where
  flume : Nat := 0                          -- also its place in the streaming area
  page : Nat := 0
  st : Nat := 0
  k : Nat := 0
  rows : List (List (List (BitVec 8))) := []  -- page block rows read by the Flume: each layer's 3,000 blocks
  tables : List (List (BitVec 32)) := []    -- each layer's offsets so far (R157)
  deriving DecidableEq, Repr, Inhabited

/-- The tile composer. -/
structure Cmp where
  store : List TileRes := []                -- least recently used first
  lists : List PList := []
  judged : Store (Nat × Bool) := []         -- composed pages evaluated, by commit number: the class they were judged at, and the risk found
  fills : List Fill := []
  pins : Store Pin := []
  merge : Store (BitVec 32) := []           -- each station's working copy of CMP_MERGE (R264)
  repin : Bool := false                     -- pins load again once the spool serves after SLEEP or deeper (R276)
  deriving DecidableEq, Repr, Inhabited

/-! ### Flumes (spec/08) -/

/-- A furrow in the schedule or in a station's output ring. -/
structure Furrow where
  page  : Nat := 0                          -- commit number
  st    : Nat := 0
  k     : Nat := 0
  flume : Option Nat := none                -- the Flume that works on it
  redo  : Bool := false
  done  : Bool := false                     -- complete in the ring
  blank : Bool := false                     -- written blank (R227)
  codes : List (List (BitVec 5)) := []      -- pulse codes of its 64 page lines, 48,000 each
  last  : List (Nat × Nat) := []            -- the boundary line: its last merged host line (R285)
  deriving DecidableEq, Repr, Inhabited

/-- A pending write to a station table (R293). -/
structure LogEntry where
  st  : Nat := 0
  off : Nat := 0
  val : BitVec 32 := 0
  deriving DecidableEq, Repr, Inhabited

/-- The Flumes and the furrow scheduler. -/
structure Flm where
  furrows : List Furrow := []
  next    : Store Nat := []                 -- next furrow to release, by commit number × 16 + station
  lost    : List (Nat × Nat × Nat) := []    -- furrows queued for redo: page, station, index (R302)
  log     : List LogEntry := []
  landed  : Store Nat := []                 -- bytes landed per station since boot (R307)
  hist    : Store (List Nat) := []          -- landed at the last 50 evaluations, newest first
  calm    : Nat := 0                        -- consecutive evaluations that allow UNDERRUN to clear (R309)
  deriving DecidableEq, Repr, Inhabited

/-! ### Scan timing and the beam links (spec/09) -/

/-- The sweep a station is in, from its trigger on. -/
structure SweepNow where
  page  : Option Nat := none                -- page whose lines it carries, by commit number
  k     : Nat := 0                          -- sweep number of the page
  print : Bool := false                     -- sent with PRINT set
  facet : Nat := 0
  deriving DecidableEq, Repr, Inhabited

/-- What a station's scan path holds beside its registers. -/
structure ScnSt where
  trig    : Option Nat := none              -- position of the next trigger, in 1/16 line of the station line count
  trigAt  : Nat := 0                        -- time of the last trigger, ns
  bd      : List Nat := []                  -- times of the last nine BD pulses, ns, newest first
  err     : Int := 0                        -- phase error e of the last BD pulse, ns (R330)
  bdSeen  : Bool := false                   -- BD has come since the last trigger
  acqAt   : Nat := 0                        -- entry to ACQUIRE, or the last shift of the search there (R466)
  inWin   : Nat := 0                        -- consecutive facets within WIN (R331)
  missRun : Nat := 0                        -- consecutive missed pulses (R333)
  facets  : Nat := 0                        -- BD intervals since entry to LOCKED
  fidSum  : List Nat := []                  -- sums of the intervals by position modulo 8 (R334)
  facet0  : Option Nat := none              -- position of facet 0, once identified
  moving  : Int := 0                        -- 1/16 lines of a trigger move still to make (R324)
  corr    : Int := 0                        -- photoconductor correction of R319, in 2^-16 line
  follow  : Int := 0                        -- W of R338
  zone    : Nat := 0
  word    : Int := 0                        -- modulator word F + Z + W (R337)
  delay   : Nat := 0                        -- D of the sweep, in taps (R339)
  isOpen  : Bool := false                   -- the scan window is open
  sweep   : SweepNow := {}
  ofsPage : Nat := 0                        -- page that has recorded its OFS_CLAMP event, plus 1 (R329)
  deriving DecidableEq, Repr, Inhabited

/-- A sideband transaction (R358); its class is the order of R392. -/
structure SbReq where
  prio  : Nat := 0
  write : Bool := false
  addr  : Nat := 0
  len   : Nat := 1                          -- words
  data  : List (BitVec 32) := []
  deriving DecidableEq, Repr, Inhabited

/-- A beam-link port beside its registers. -/
structure BlPort where
  attempts : Nat := 0                       -- failed training attempts (R355)
  sweepNo  : Nat := 0                       -- sweeps since the link came up, modulo 65,536
  groups   : Nat := 0                       -- LINK_ERR groups at the last poll
  losses   : Nat := 0                       -- LINK_ERR lane losses at the last poll
  laneBad  : Bool := false                  -- a lane error: PRINT-clear sweeps until the page gap retrains the port (R357)
  queue    : List SbReq := []
  cur      : Option SbReq := none           -- the transaction in flight
  tag      : Nat := 0
  fails    : Nat := 0                       -- failed attempts of the transaction in flight
  busy     : Bool := false                  -- BUSY was answered: retried after 10 µs (R359)
  orderErr : Bool := false                  -- the last poll of this attempt reported a lane order error (R355)
  deriving DecidableEq, Repr, Inhabited

/-- A PLL beside its registers. -/
structure PllSt where
  attempts : Nat := 0                       -- failed lock attempts in a row (R347)
  lfsr : BitVec 16 := 0                     -- dither LFSR as loaded (R344)
  dither : Bool := false
  deriving DecidableEq, Repr, Inhabited

/-- Scan timing beside its registers. -/
structure Scn where
  pos     : Int := 0                        -- web position of the tracking loop, in 2^-28 line
  sub     : Nat := 0                        -- its highest value so far, in 1/16 line
  webLine : Nat := 0                        -- web line count, 64 bits (R45, R316)
  hist    : List (Nat × Int) := []          -- times and positions of the counts of the last 1 ms (SCN_WEB_SPEED)
  spFrom  : Nat := 0                        -- web speed set-point, µm/s: it moves from one value to another from a time on (R349)
  spTo    : Nat := 0
  spAt    : Nat := 0
  asks    : Store Nat := []                 -- classes asked for by the weir conditions, by condition (R34)
  hostAsk : Option Nat := none              -- class requested by the host for the next gap (R348)
  sts     : Store ScnSt := []
  ports   : Store BlPort := []
  plls    : Store PllSt := []
  calrefSaid : Bool := false                -- the C1 of R340 has been recorded
  clkLost : List Nat := []                  -- island clocks lost, by number (R25; assumption log 61)
  deriving DecidableEq, Repr, Inhabited

/-! ### Emitters and heads (spec/10) -/

/-- The exposure path of a station beside its registers. -/
structure ExpSt where
  low    : Store Nat := []                  -- consecutive valid monitor reads below the threshold, by emitter (R379)
  mon    : Store Nat := []                  -- last valid monitor code, by emitter (R430)
  calT   : Nat := 0                         -- next tap of the calibration pass (R394)
  count0 : Nat := 0                         -- oscillations of the return path alone
  meas   : List Nat := []                   -- N'(t) measured so far in this pass, newest first
  err    : Nat := 0                         -- largest tap error of this pass, ps
  passed : Bool := false                    -- a whole pass has been made since POR_N
  gain   : Nat := 0x8000                 -- APC gain at the last monitor read (R384)
  serial : Option (List (BitVec 8)) := none -- head serial recorded in the calibration store (R386)
  deriving DecidableEq, Repr, Inhabited

/-- The exposure block. -/
structure Exp where
  sts : Store ExpSt := []
  deriving DecidableEq, Repr, Inhabited

/-! ### Inspection (spec/11) -/

/-- A good CIS line: its place on the web in 2^-16 line (R406), its stamp, its 54,000 bytes (R403). -/
structure CisLine where
  pos   : Int := 0
  stamp : Nat := 0
  px    : List (BitVec 8) := []
  deriving DecidableEq, Repr, Inhabited

/-- A defect (R416, R422). -/
structure Defect where
  code    : Nat := 0
  station : Nat := 0xF
  sev     : Nat := 1                        -- 1 MARGINAL, 2 SPOIL
  line    : Nat := 0
  row     : Nat := 0
  col     : Nat := 0
  extent  : Int := 0
  deriving DecidableEq, Repr, Inhabited

/-- Working values of a station's corrected items while it printed a page: V_p of R428. -/
structure InsVals where
  win   : Nat := 4
  base  : Nat := 0
  ofs   : Nat := 0
  slope : Int := 0
  bow   : List (BitVec 32) := []
  sol   : Nat := 0
  dly   : List Int := []
  adj   : List Int := []
  fill  : List Nat := []
  dead  : Nat := 0
  deriving DecidableEq, Repr, Inhabited

/-- What R419 measures of a station on one side of a page: dy and dx per band in quarter units, dx per facet, density errors in tenths of a percent. -/
structure InsMeas where
  bands : List (Option (Int × Int)) := []
  facet : List (Option Int) := []
  den   : Option Int := none
  phase : List (Option Int) := []
  deriving DecidableEq, Repr, Inhabited

/-- A streak, or a light sweep line, that may go on: where, from which furrow or sweep, how many (R416). -/
structure InsRun where
  st    : Nat := 0xF
  at'   : Nat := 0                          -- column, or sweep line
  first : Nat := 0
  last  : Nat := 0
  who   : Nat := 0xF                        -- the station it is attributed to (R418)
  deriving DecidableEq, Repr, Inhabited

/-- One side of a page under inspection (R406 to R423). -/
structure InsPage where
  page   : Nat := 0                         -- commit number
  side   : Nat := 0
  tof    : Nat := 0                         -- T of its frame, and the sheet's remainder (R406)
  remain : Nat := 0
  on     : Bool := false                    -- INS_CTRL enabled the side at the page's first latch line (R420)
  sts    : BitVec 12 := 0                   -- taking stations (R409)
  vals   : Store InsVals := []              -- by station
  caps   : List (Nat × List Nat) := []      -- calibrated rows: row number, 36,000 codes
  stamp0 : Nat := 0                         -- stamp of row 0 (R439)
  audit  : Nat := 0                         -- its audit stream: 0 not begun, 1 being encoded, 2 ended or discarded (R240)
  effort : Nat := 0                         -- the L effort that the stream took at its start
  linkLost : Bool := false                  -- the port was not UP for some row
  done   : Nat := 0                         -- furrows compared
  lost   : List Nat := []                   -- rows that compared as invalid
  defects : List Defect := []
  streaks : List InsRun := []
  lights  : List InsRun := []
  solid  : List (Nat × Nat) := []           -- station and band where an area fit for a feature was seen (R419)
  shifts : List (Int × Int) := []           -- common shift of each furrow, down and along (R415)
  deriving DecidableEq, Repr, Inhabited

/-- A queued result (R424). -/
structure InsResult where
  seq     : Nat := 0
  verdict : Nat := 0
  pageId  : BitVec 64 := 0
  fn      : Nat := 0
  more    : Nat := 0
  notInsp : Bool := false
  dy      : Int := 0
  dx      : Int := 0
  regs    : List (Option Int × Option Int) := []
  defects : List Defect := []
  deriving DecidableEq, Repr, Inhabited

/-- A scanner calibration: gains with 14 fraction bits, 36,000 of them or none for unity; a matrix with offsets, 12 values or none for the identity. -/
structure CisCal where
  gains  : List Nat := []
  matrix : List (BitVec 32) := []
  deriving DecidableEq, Repr, Inhabited

/-- One side of the inspection block beside its registers. -/
structure InsSide where
  last   : Option CisLine := none           -- the last good line since the port came up
  lseq   : Option (BitVec 32) := none
  downAt : Option Int := some 0             -- place on the web at which the port left UP; none while UP
  pages  : List InsPage := []
  queue  : List InsResult := []             -- oldest first
  seq    : Nat := 0                         -- complete results since POR_N
  model  : List (BitVec 8) := []            -- R413
  chart  : List (BitVec 8) := []            -- R433
  cal    : CisCal := {}
  newCal : Option CisCal := none            -- completed, effective at the next page gap (R433)
  capOp  : Nat := 0                         -- operation of the capture in progress
  capLines : List CisLine := []
  deriving DecidableEq, Repr, Inhabited

/-- What the correction loop holds of one item: the last targets, with the error each came from, newest first (R428). -/
abbrev InsTargets := List (Int × Int)

/-- Inspection. -/
structure Ins where
  sides   : Store InsSide := []
  targets : Store InsTargets := []          -- by (side × 16 + station) × 2^14 + item × 2^11 + index
  swept   : Store Int := []                 -- targets of a committed calibration sweep, by the same key (R437)
  touched : List Nat := []                  -- corrected registers that software has written since their station's last gap (R429)
  sweepSide : Option Nat := none            -- side of a calibration sweep that runs (R436)
  standing : List (Nat × Nat × List Nat × Nat) := []   -- side, station, sweep lines of a MISSING_LINE, pages in a row (R430)
  deriving DecidableEq, Repr, Inhabited

/-! ### Encoder inputs and loops (spec/12) -/

/-- An encoder input: decoded at four counts per cycle (R315, R458, R488). -/
structure EncIn where
  a    : Bool := false                      -- levels of the pins at the last change
  b    : Bool := false
  cnt  : Int := 0                           -- quadrature count since boot
  dir  : Int := 0                           -- sign of the latest count
  at'  : Nat := 0                           -- time of the latest count, ns
  gap  : Nat := 0                           -- time between the last two counts
  fg   : Int := 0                           -- rising edges on A (FG, R458)
  fgAt : Nat := 0
  fgGap : Nat := 0
  ill  : List Nat := []                     -- times of the illegal transitions of the last 1 ms, newest first
  deriving DecidableEq, Repr, Inhabited

/-- A loop beside its registers (R453 to R455). -/
structure Loop where
  r  : BitVec 32 := 0
  yp : BitVec 32 := 0                       -- y_prev
  i  : BitVec 32 := 0
  d  : BitVec 32 := 0
  u  : BitVec 32 := 0                       -- output of the latest evaluation
  y  : BitVec 32 := 0
  b1s : BitVec 32 × BitVec 32 := (0, 0)     -- s1, s2 of filter 1
  b2s : BitVec 32 × BitVec 32 := (0, 0)
  dr    : BitVec 32 := 0                    -- constants of R454
  dstop : BitVec 32 := 0
  kit   : BitVec 32 := 0
  ad    : BitVec 32 := 0
  bd    : BitVec 32 := 0
  g1    : BitVec 32 := 0x3F800000
  g2    : BitVec 32 := 0x3F800000
  prime  : Bool := false                    -- opened from OFF: filter 1 is primed at the next sample
  first  : Bool := false                    -- closed: the next sample is the first CLOSED one
  stopping : Bool := false                  -- following STOP_SP (R469)
  late   : Nat := 0                         -- consecutive overruns
  dev    : Option Nat := none               -- time since which |r − y| has exceeded DEV
  due    : Option (BitVec 32) := none       -- output on its way to the sink
  zero   : Int := 0                         -- count at the zero of θ (R458)
  open0  : Int := 0                         -- encoder count at OPEN (ENC_POS)
  cnt    : Int := 0                         -- encoder count at the last sample (ENC_SPEED)
  pcnt   : Int := 0                         -- position count at the last sample
  ofs    : BitVec 32 := 0                   -- coarse offset of a polygon loop, in revolutions (R465)
  onBd   : Bool := false                    -- the last measurement was of BD
  anchor : Bool := false                    -- re-anchor at the next sample (R466)
  deriving DecidableEq, Repr, Inhabited

/-- The loop engine and the encoder inputs. -/
structure Lpe where
  loops : Store Loop := []
  enc   : Store EncIn := []
  pwm   : Store Nat := []                   -- duty in force of each PWM output (R463)
  scan  : Nat := 0                          -- channel after the one scanned last (R450)
  safe  : Store Nat := []                   -- SAFE duty of the loop last bound to a PWM output (R470)
  deriving DecidableEq, Repr, Inhabited

/-! ### Stepper axes (spec/13) -/

/-- The chopper of one phase (R494 to R498). -/
structure Phase where
  gates : Nat := 0                          -- IN1, IN2
  drive : Bool := false                     -- in DRIVE
  fast  : Bool := false                     -- in the fast part of a decay
  blank : Bool := false                     -- within the blanking interval
  tUp   : Option Nat := none                -- time of the last toggle at U
  tLow  : Option Nat := none                -- time of the last toggle at L
  cycles : List (Nat × Nat) := []           -- offsets up and down of the last 8 full cycles, newest first (R496)
  overs : Nat := 0                          -- consecutive DRIVE intervals at U at the end of blanking
  openN : Nat := 0                          -- consecutive DRIVE intervals of MAX_ON
  deriving DecidableEq, Repr, Inhabited

/-- A motion command that ARM holds (R482). -/
structure Held where
  jog  : Int := 0                           -- direction of a jog, 0: a move
  target : Int := 0
  deriving DecidableEq, Repr, Inhabited

/-- An axis beside its registers. -/
structure Axis where
  enabling : Bool := false                  -- ENABLE measures the delays (R496)
  dir    : Int := 1                         -- direction of the motion in progress
  target : Int := 0                         -- target in force; of a jog with limits, the last whole step before the limit
  ends   : Bool := true                     -- the motion has an end of its own: a move, or a jog toward a limit
  jog    : Int := 0                         -- direction of the jog in progress or stopped, 0: a move
  vmax   : Nat := 0                         -- profile as taken at acceptance (R475)
  vstart : Nat := 0
  acc    : Nat := 0
  dec    : Nat := 0
  jerk   : Nat := 0
  step   : Nat := 64                        -- s
  v2     : Nat := 0                         -- square of the profile's velocity at the last step event
  stopReq : Option Nat := none              -- a stop waits for the next step event: its deceleration (R484)
  rest   : Option Int := none               -- where the deceleration in progress comes to rest
  restDec : Nat := 0
  next   : Option Int := none               -- target of the move that follows the reversal (R481)
  held   : Option Held := none
  dev    : Nat := 0                         -- consecutive checks beyond the window (R490)
  settle : Bool := false                    -- the check of R491 is due
  resync : Bool := false                    -- resynchronises 10 ms after its last step event (R490)
  asleep : Bool := false                    -- enters DISABLED when it has come to rest (R501)
  run    : Bool := false                    -- running current (R497)
  off    : Bool := true                     -- gates 0b00
  encRef : Int := 0                         -- encoder count at the last synchronisation
  posRef : Int := 0                         -- MOT_AX_POS at it
  phA    : Phase := {}
  phB    : Phase := {}
  deriving DecidableEq, Repr, Inhabited

/-- The stepper axes. -/
structure Mot where
  axes : Store Axis := []
  deriving DecidableEq, Repr, Inhabited

/-! ### Lateral chain, fans and turnout (spec/14) -/

/-- A mailbox transfer in progress on a lateral port (R518). -/
structure LatMbx where
  cmd   : Nat := 1
  node  : Nat := 0
  addr  : Nat := 0
  len   : Nat := 1
  data  : List (BitVec 8) := []
  tag   : Nat := 0
  polling : Bool := false                   -- ACCEPTED came: POLL is sent
  since : Nat := 0                          -- time of ACCEPTED
  fails : Nat := 0
  sent  : Bool := false                     -- a frame of it is on the ring
  own   : Bool := false                     -- the device's own read of a joining node's descriptor (R522)
  deriving DecidableEq, Repr, Inhabited

/-- A forced output bit in progress (R534). -/
structure LatPulse where
  i    : Nat := 0
  left : Nat := 0                           -- cycles still to carry it
  node : Nat := 0
  byte : Nat := 0
  bit  : Nat := 0
  level : Bool := true
  deriving DecidableEq, Repr, Inhabited

/-- A lateral port beside its registers. -/
structure LatPort where
  seq    : Nat := 0                         -- cycles of the port (R507)
  enumAt : Option Nat := none               -- time at which the ENUM frame on the ring was sent
  away   : Bool := false                    -- a CYCLIC frame is on the ring
  bad    : Nat := 0                         -- consecutive cycles without a good returned frame
  good   : Nat := 0                         -- consecutive good cycles
  descs  : List (List (BitVec 8)) := []     -- enumerated descriptors
  silent : Store Nat := []                  -- consecutive good cycles without ALIVE, by node (R521)
  fresh  : Store Nat := []                  -- time of each node's last image update, plus 1
  mbx    : Option LatMbx := none
  tag    : Nat := 0
  joins  : List Nat := []                   -- joining nodes whose descriptors are still to be read
  brk    : List Nat := []                   -- nodes lost by the break of the ring alone (R523)
  joinTo : Nat := 0                         -- node named by the last JOIN
  joinDue : Bool := false                   -- a JOIN waits for a free slot
  pulses : List LatPulse := []
  deriving DecidableEq, Repr, Inhabited

/-- A fan channel beside its registers. -/
structure FanCh where
  drive : Nat := 0                          -- duty driven now, 0 to 65,536
  temp  : Option (Nat × Nat) := none        -- kind and value of its source at the loss of its tach: 1 a die sensor in 0.1 °C, 2 a loop's y
  kickAt : Nat := 0                         -- time at which the last attempt began (R525)
  deriving DecidableEq, Repr, Inhabited

/-- The lateral chain and the fans. -/
structure Lat where
  ports : Store LatPort := []
  fans  : Store FanCh := []
  deriving DecidableEq, Repr, Inhabited

/-- The turnout matrix beside its registers. -/
structure Trn where
  events : List Nat := []                   -- events that have occurred in the present round (R529)
  srcOld : Store Word := []                 -- TRN_TK_SRC before the writes of the present round, by task (R533)
  owed   : Store Nat := []                  -- signals of a software task still to be sent
  armed  : List Nat := []                   -- armed web compares (R534)
  cancelled : List Nat := []                -- axes whose held command a stop has cancelled in this round (R483)
  timers : Store Nat := []                  -- start of each timer's period, ns
  deriving DecidableEq, Repr, Inhabited

/-! ### Culvert ring (spec/15) -/

/-- A part of a line page that the master holds (R556). -/
structure CulPart where
  dev    : Nat := 0
  pageId : BitVec 64 := 0
  stamp  : Nat := 0
  line   : Option Nat := none               -- commit line; none: before the first frame of the next run
  minOfs : Nat := 0
  len    : Nat := 0
  gap    : Nat := 0
  speed  : Nat := 0xFF
  last   : Bool := false
  deriving DecidableEq, Repr, Inhabited

/-- A line page at the master (R557). -/
structure LinePage where
  pageId : BitVec 64 := 0
  parts  : List CulPart := []
  tof    : Option Nat := none               -- T once it is claimed
  latch  : Nat := 0
  late   : Bool := false
  fedAt  : Option Nat := none               -- sheet mode: the line at which its feed was requested (R559)
  frame  : Nat := 0                         -- its FRAME number
  deriving DecidableEq, Repr, Inhabited

/-- The last STATUS of a member (R554). -/
structure CulStat where
  engine : Nat := 0
  locked : Bool := false
  fault  : Bool := false
  weir   : Nat := 7
  deriving DecidableEq, Repr, Inhabited

/-- The path delay measurement in progress (R549). -/
structure CulDelay where
  dev   : Nat := 1
  east  : Bool := true
  round : Nat := 1
  sent  : Nat := 0                          -- when the request left
  sum   : Nat := 0                          -- round trips less TURN so far
  deriving DecidableEq, Repr, Inhabited

/-- The Culvert block beside its registers. -/
structure Cul where
  seqs    : Store Nat := []                 -- next SEQ by MTYPE
  seen    : List (Nat × Nat × Nat) := []    -- (SRC, MTYPE, SEQ) consumed, newest first, at most 256
  sent    : List (Nat × List (BitVec 8)) := []  -- broadcasts sent, with their time (R562)
  owed    : List (List (BitVec 8)) := []    -- unicasts sent and not answered (R562)
  backE   : Bool := false                   -- a wrapped port has been UP again since (R565)
  backW   : Bool := false
  backAt  : Nat := 0                        -- time at which the last of them came back
  delay   : Option CulDelay := none
  stats   : Store CulStat := []             -- by device
  heard   : BitVec 8 := 0                   -- members whose STATUS has come since TIMEBASE started
  tbSeq   : Option Nat := none              -- SEQ of the last TIMEBASE sent or applied
  tbAt    : Nat := 0
  tbSpeed : Int := 0                        -- its SPEED, µm/s
  path    : Store Nat := []                 -- the path delays a member goes by, 0 east and 1 west: free values
  steer   : Int := 0                        -- offset still to be steered away, ns
  steerAcc : Nat := 0                       -- 200 ppm steering, in 10^-6 ns
  unfold  : Option Nat := none              -- SEQ at whose departure the ports unwrap
  check   : Bool := false                   -- the unfold check has been asked for
  ending  : Option Nat := none              -- TIMEBASE messages sent with ENGINE 2 (R569)
  held    : Option Nat := none              -- index held before a RESTART (R565)
  parts   : List CulPart := []              -- parts that wait for their take time
  lines   : List LinePage := []             -- line pages, in the order started
  frames  : Nat := 0                        -- frames scheduled since the run began
  xsweep  : Nat := 0                        -- SWEEP_ID of the last sweep
  xrun    : Bool := false                   -- a sweep is in progress on this device
  xmeas   : Nat := 0                        -- its measuring device
  xpages  : Nat := 0                        -- measured pages left
  xfeats  : List (Nat × List (BitVec 8)) := []   -- feature lists received, by sender
  xstep   : Nat := 0                        -- device of the step in progress
  xheld   : Option (List (Nat × Option Nat × Option Nat)) := none   -- targets held: station, offset, start delay
  deriving DecidableEq, Repr, Inhabited

/-! ### Field network (spec/16) -/

/-- An FoE transfer in progress (R588). -/
structure Foe where
  sii    : Bool := false                    -- "SX-SII", else "SX-FW"
  packet : Nat := 1                         -- the packet number that comes next
  data   : List (BitVec 8) := []
  deriving DecidableEq, Repr, Inhabited

/-- The EtherCAT SubDevice beside its registers. -/
structure Ect where
  foe    : Option Foe := none
  siiOk  : Bool := true                     -- the SII identity words equal object 0x1018 (R574)
  outs   : List (BitVec 8) := []            -- the last SM2 buffer
  ins    : List (BitVec 8) := []            -- the TxPDO image sampled last (R584)
  deriving DecidableEq, Repr, Inhabited

/-! ### Power, boot and temperature (spec/17) -/

/-- What the boot fixes until the next reset: the DRAM division of R28, in MiB. -/
structure Boot where
  dramOk  : Bool := false                   -- the sizes fit the installed capacity and meet their minima
  ring    : Nat := 0                        -- per enabled station
  tiles   : Nat := 0
  capture : Nat := 0                        -- per side enabled by the fuses
  staging : Nat := 0
  installed : Nat := 0
  testMode : Bool := false                  -- TEST_MODE was high at POR_N: no boot starts (R729)
  strap    : Bool := true                   -- CSC_MASTER as sampled at POR_N (R547, R729)
  running  : Bool := false                  -- a boot is in progress
  stopped  : Bool := false                  -- a boot stop of R606 or R626: nothing follows until a reset
  fw       : Nat := 0                       -- the firmware version in force, as object 0x1018:03 shows it (R594)
  slot     : Nat := 0                       -- the boot-flash slot in force: 0 A, 1 B (R651)
  dirSeq   : Nat := 0                       -- SEQ of its directory record
  dirRec   : Nat := 0                       -- which of the two directory records that is
  cores    : Bool := false                  -- the control cores run (boot step 7)
  xts      : List (BitVec 8) := []          -- the key pair of the DRAM cipher, made at boot step 6 (R207)
  dramDone : Bool := false                  -- boot step 6 is done
  sysReset : Bool := false                  -- SYS_RESET_N is asserted (R730)
  deriving DecidableEq, Repr, Inhabited

/-- What the rail logic keeps of rail k beside its registers (R612 to R615). -/
structure Rail where
  blanked : Bool := false                   -- BLANK ms have passed since EN rose
  uvW : Nat := 0                            -- readings in a row beyond each level
  ovW : Nat := 0
  uvF : Nat := 0
  ovF : Nat := 0
  hitUvW : Bool := false                    -- the check has fired and not re-armed
  hitOvW : Bool := false
  hitUvF : Bool := false
  hitOvF : Bool := false
  hitPg  : Bool := false
  deriving DecidableEq, Repr, Inhabited

/-- A die sensor beside its register (R620, R624). -/
structure Sensor where
  far    : Nat := 0                         -- rounds in a row more than 20 °C from the median
  near   : Nat := 0                         -- rounds in a row fit for readmission
  hot    : Nat := 0                         -- rounds in a row at 125 °C or more
  byDev  : Bool := false                    -- excluded by the device
  deriving DecidableEq, Repr, Inhabited

/-- Power, pace and temperature. -/
structure Pwr where
  enable  : Option Nat := none              -- PMIC enable whose power-good is awaited (R606)
  tries   : Nat := 0                        -- failed attempts of the supply sequence
  retry   : Bool := false                   -- the 1 s before the next attempt runs
  supCause : Option Nat := none             -- PWR_BOOT.CAUSE left by a supply failure
  pmbusUsed : Bool := false                 -- a PMBus transaction has taken place since POR_N
  avsFails : Nat := 0                       -- read-backs in a row off by more than 15 mV (R609)
  over20  : Nat := 0                        -- evaluations in a row with S_min above 20 %
  slow    : Nat := 0                        -- evaluations in a row with S_min below 0 at VMAX (R611)
  fast    : Nat := 0                        -- evaluations in a row with S_min above 10 %
  rails   : Store Rail := []
  seqUp   : Bool := false                   -- the run in progress is an up run
  seqKeep : Option Nat := none              -- code of a failed up run whose down entry runs (R617)
  seqWords : Nat := 0                       -- words in a row with no WAIT or WAITPG
  dcWake  : Bool := false                   -- the always-on wake count runs (R587)
  sensors : Store Sensor := []
  grace   : Bool := false                   -- the grace time of R621 runs
  changed : Bool := false                   -- it runs after a class change
  ordered : Bool := false                   -- the thermal target is ordered, not only asked for
  cool    : Nat := 0                        -- rounds in a row with HOT below WARN - HYST (R622)
  crit    : Bool := false                   -- HOT was at or above CRIT in the last round
  inForce : Nat := 0                        -- the class last put in force
  runUp   : Bool := false                   -- the step READY to RUN is under way: the run-up (R349, R602)
  deriving DecidableEq, Repr, Inhabited

/-! ### OTP, secure boot and debug (spec/18) -/

/-- A class S word: 64 data bits; its check bits show as `err`: 0 none, 1 a single-bit error, 2 damaged (R631, R632). -/
structure OtpWord where
  written : Bool := false
  data    : BitVec 64 := 0
  err     : Nat := 0
  deriving DecidableEq, Repr, Inhabited

/-- What the OTP controller works on (R639 to R641). -/
inductive OtpOp where
  | readS (word : Nat)
  | writeS (word : Nat) (data : BitVec 64)
  | setP (row : Nat) (bits : BitVec 32)
  | thermo (base rows count : Nat)          -- advance a thermometer to a count (R638)
  | transition (target : Nat)               -- key writes, obliteration and marker of a lifecycle transition (R646)
  deriving DecidableEq, Repr, Inhabited

/-- The fuses and their controller. -/
structure Otp where
  words : Store OtpWord := []               -- class S, by word
  rows  : Store (BitVec 32) := []           -- class P rows
  spare : Store (BitVec 32) := []           -- class P spare rows
  op    : Option OtpOp := none              -- operation in progress
  code  : Nat := 0                          -- the code it is bound to end with, where it may not run (R639, R640)
  queue : List OtpOp := []                  -- internal burns and transitions that wait
  deriving DecidableEq, Repr, Inhabited

/-- Security. -/
structure Sec where
  chal    : Option (List (BitVec 8)) := none  -- the latest challenge, unspent (R657)
  chalAt  : Option Nat := none              -- when the latest was issued
  trngAt  : Option Nat := none              -- when the TRNG last failed a health test (R656)
  refused : Nat := 0                        -- tokens refused since the boot ROM last ran
  token   : Option (List (BitVec 8)) := none  -- the token under check
  opened  : Nat := 0                        -- when the session opened
  life    : Nat := 0                        -- its LIFETIME in s
  halted  : Bool := false                   -- a debug session holds the control cores halted
  deriving DecidableEq, Repr, Inhabited

/-- The TAP (R662 to R664). -/
structure Tap where
  ir      : BitVec 8 := 1#8                 -- instruction in force: IDCODE at TAP reset
  cells   : List Bool := []                 -- preloaded boundary cells
  dr      : BitVec 64 := 0                  -- the register of address and data of SEC_MBX
  deriving DecidableEq, Repr, Inhabited

/-! ### Sump, Headgate, event recorder (spec/19) -/

/-- The Sump beside its registers. -/
structure Flt where
  queue   : List Report := []               -- FLT_Q, oldest first (R679)
  recovs  : List Nat := []                  -- stamps of the recoveries in the window (R686)
  quietAt : Option Nat := none              -- since when the conditions of R684 have held
  kickAt  : Nat := 0                        -- the last heartbeat (R682)
  deriving DecidableEq, Repr, Inhabited

/-- What Headgate keeps of a station. -/
structure HdgSt where
  last    : Option Nat := none              -- stamp of the last tach edge (R690)
  shut    : Bool := true                    -- the speed gate is shut
  slowSaid : Bool := false                  -- SLOW_FIRE has been counted for this closing
  low     : Nat := 10                       -- steps of 100 µs in a row with every emitter line low, up to 10 (R693)
  hist    : List Nat := []                  -- on-time of the last 100 steps of 100 µs, newest first, in 20 ns ticks over the 72 lines (R692)
  deriving DecidableEq, Repr, Inhabited

/-- Headgate. -/
structure Hdg where
  sts   : Store HdgSt := []
  alive : Bool := false                     -- level of ALIVE (R683)
  deriving DecidableEq, Repr, Inhabited

/-- A calibration slot (R706). -/
structure CalSlot where
  valid : Bool := false
  seq   : BitVec 32 := 0
  data  : List (BitVec 8) := []
  deriving DecidableEq, Repr, Inhabited

/-- The event recorder, the record flash and the always-on SRAM. -/
structure Evr where
  next   : BitVec 32 := 0                   -- SEQ of the next record; 0 with an empty ring (R703)
  mirror : List EvrRec := []                -- the 512-record mirror, oldest first (R702)
  unwritten : Nat := 0                      -- the newest records of the mirror not yet in flash
  flash  : Store EvrRec := []               -- valid records of the ring, by slot
  badSlots : List Nat := []                 -- slots inside the ring that hold an invalid record
  lastWords : List (EvrRec × Bool) := []    -- the always-on ring of 16; true: flushed (R697)
  slotA  : CalSlot := {}
  slotB  : CalSlot := {}
  stores : List (List (BitVec 8)) := []     -- calibration stores in progress and waiting, payloads (R707)
  deriving DecidableEq, Repr, Inhabited

/-- Something that another command of the same arbitration round must know of (R698): what it was, its argument, and when it was. -/
structure Mark where
  what : Nat
  arg  : Nat
  time : Nat
  deriving DecidableEq, Repr, Inhabited

/-- The state of the SX-1296. -/
structure State where
  variant : Variant := .sx1296              -- the fused part (R6)
  now     : BitVec 64 := 0                  -- the timebase, in nanoseconds
  regs    : Store Word := []                -- every BAR0 register, by offset; unlisted: its reset value
  work    : Store Word := []                -- working copies of the shadowed registers, by offset (R735)
  objs    : Store Nat := []                 -- dictionary objects that are no register, by index × 256 + subindex
  dram    : Store Byte := []                -- DRAM, by address; unlisted bytes read 0
  tile    : Store Byte := []                -- the 12 MiB tile cache (R26); unlisted bytes read 0
  spool   : Store Byte := []                -- direct extents, by (function × 2^30 + extent) × 65,536 + byte; unlisted bytes read 0 (R186)
  pages   : Pages := {}
  hif     : Hif := {}
  sip     : Sip := {}
  kor     : Kor := {}
  cmp     : Cmp := {}
  flm     : Flm := {}
  spl     : Spl := {}
  scn     : Scn := {}
  exp     : Exp := {}
  ins     : Ins := {}
  lpe     : Lpe := {}
  mot     : Mot := {}
  lat     : Lat := {}
  trn     : Trn := {}
  cul     : Cul := {}
  ect     : Ect := {}
  boot    : Boot := {}
  pwr     : Pwr := {}
  otp     : Otp := {}
  sec     : Sec := {}
  tap     : Tap := {}
  flt     : Flt := {}
  hdg     : Hdg := {}
  evr     : Evr := {}
  marks   : List Mark := []                 -- what the present arbitration rounds have seen (R698)
  waiting : List Report := []               -- reports raised and not yet taken by the Sump, oldest first (R680)
  out     : List Output := []               -- what the device has sent, oldest first
  freeCtr : Nat := 0                        -- the model's own: the next free value
  pending : List Instr := []                -- commands that wait, first in, first out
  deriving DecidableEq, Repr, Inhabited

/-- Why a command stops the machine: every command answers a next state, so no command raises one. -/
inductive Fault where
  /-- Raised by nobody: it only gives the type a value. Safe. -/
  | none
  deriving DecidableEq, Repr

/-- Why a command has no meaning. -/
inductive Refusal where
  /-- Raised by an arm of exec for a command that is not modelled yet, by its mnemonic; there is none. Safe. -/
  | notModelled (mnemonic : String)
  deriving DecidableEq, Repr

/-- The part at the deassertion of POR_N: every register at its reset value (assumption log 2). -/
def State.reset : State :=
  -- the only fuses set: the feature word of the SX-1296, with its complement (R644; assumption log 2)
  { otp := { words := [(4, { written := true, data := 0xED693FCE1296C031 })] } }

end Sys2Proof.Machine
end

