-- ==== Sys2Proof/Machine/Ops.lean ====
section
/-! DEFINITION. The named operations that every meaning uses: reading and writing register fields, objects and memories, raising reports, signalling
vectors, writing records, drawing free values. -/
namespace Sys2Proof.Machine

/-! ## Registers -/

/-- The word of the register at BAR0 offset `off` (for a shadowed register, its shadow: R735). -/
def State.word (s : State) (off : Nat) : Word := s.regs.getD (resetWord s.variant off) off

/-- Store a word in the register at `off`. -/
def State.setWord (s : State) (off : Nat) (w : Word) : State :=
  { s with regs := s.regs.set (resetWord s.variant off) off w }

/-- A word with the field of width `n` at bit `lo` replaced by `v`. -/
def putField (w : Word) (lo n v : Nat) : Word :=
  let m : Word := BitVec.ofNat 32 (2 ^ n - 1) <<< lo
  (w &&& ~~~ m) ||| ((BitVec.ofNat 32 v <<< lo) &&& m)

/-- One number for a field: its register's offset and its lowest bit. -/
def Fld.key (x : Fld) : Nat := x.off * 32 + x.lo

/-- The field of width `n` at bit `lo` of a word. -/
def getField (w : Word) (lo n : Nat) : Nat := w.toNat / 2 ^ lo % 2 ^ n

/-- The value of a register field. -/
def State.f (s : State) (x : Fld) : Nat := getField (s.word x.off) x.lo x.w

/-- The value of a one-bit field as a Bool. -/
def State.b (s : State) (x : Fld) : Bool := s.f x = 1

/-- Write a register field. -/
def State.setF (s : State) (x : Fld) (v : Nat) : State := s.setWord x.off (putField (s.word x.off) x.lo x.w v)

/-- Write a one-bit field. -/
def State.setB (s : State) (x : Fld) (v : Bool) : State := s.setF x (if v then 1 else 0)

/-- The signed value of a field. -/
def State.fi (s : State) (x : Fld) : Int := sgn x.w (s.f x)

/-! ## Arbitration rounds (R698) -/

/-- What a mark stands for: a write by the dictionary server (argument: offset × 2^32 + bits written). -/
abbrev mkDict : Nat := 0
/-- A C3 or C4 paused the queues (argument: its pause cause). -/
abbrev mkPause : Nat := 1
/-- An FLR of a function (argument) began. -/
abbrev mkFlr : Nat := 2
/-- A codec job (argument: its slot) completed. -/
abbrev mkJob : Nat := 3
/-- READY of an inspection side (argument) has risen. -/
abbrev mkReady : Nat := 4
/-- A loop left a state (argument: 4 × loop + state). -/
abbrev mkLoop : Nat := 5
/-- A written command of an axis (argument) has started or armed a motion. -/
abbrev mkAxis : Nat := 6
/-- The ACK of a software task (argument) was taken by the turnout's round. -/
abbrev mkAck : Nat := 7
/-- OTP_CMD started an operation. -/
abbrev mkOtp : Nat := 8
/-- Hardware set a W1C status bit (argument: offset × 32 + bit). -/
abbrev mkSet : Nat := 9
/-- A counter was raised (argument: ((offset × 32 + lowest bit) × 2, + 1 where it wraps) × 2^32 + by how much). -/
abbrev mkInc : Nat := 10
/-- Software wrote configuration (argument: offset × 2^32 + bits written). -/
abbrev mkSoft : Nat := 11
/-- The Sump took a report (argument: 1 where it entered the queue). -/
abbrev mkTake : Nat := 12
/-- Hardware lowered a low-water mark (argument: (offset × 32 + lowest bit) × 2^32 + to what). -/
abbrev mkLow : Nat := 13

/-- Note something for the rest of its arbitration round; what is older than the longest round, 20 ns, is forgotten. -/
def State.mark (s : State) (what arg : Nat) : State :=
  { s with marks := ⟨what, arg, s.now.toNat⟩ :: s.marks.filter (fun m => decide (m.time / 20 = s.now.toNat / 20)) }

/-- What the present round of `ns` nanoseconds has seen of a kind. -/
def State.roundOf (s : State) (ns what : Nat) : List Nat :=
  (s.marks.filter (fun m => m.what = what && decide (m.time / ns = s.now.toNat / ns))).map (fun m => m.arg)

/-! ## Counters, status bits and configuration that hardware writes (R699) -/

/-- Raise a counter that saturates. -/
def State.satInc (s : State) (x : Fld) (n : Nat := 1) : State :=
  (s.setF x (min (s.f x + n) (2 ^ x.w - 1))).mark mkInc (x.key * 2 * 2 ^ 32 + n)

/-- Raise a counter that wraps. -/
def State.wrapInc (s : State) (x : Fld) (n : Nat := 1) : State :=
  (s.setF x ((s.f x + n) % 2 ^ x.w)).mark mkInc ((x.key * 2 + 1) * 2 ^ 32 + n)

/-- Hardware sets a W1C status bit: it stands against a clear of its round (R699). -/
def State.raise (s : State) (x : Fld) : State := (s.setF x 1).mark mkSet x.key

/-- Hardware lowers a low-water mark (R699). -/
def State.lower (s : State) (x : Fld) (n : Nat) : State :=
  if n < s.f x then (s.setF x n).mark mkLow (x.key * 2 ^ 32 + n) else s

/-- Has software written a field of configuration in this round of 4 ns? -/
def State.softly (s : State) (x : Fld) : Bool :=
  (s.roundOf 4 mkSoft).any (fun a => decide (a / 2 ^ 32 = x.off) && decide (bits (a % 2 ^ 32) x.lo x.w ≠ 0))

/-- Hardware writes a field of configuration; a software write of its round stands (R699). -/
def State.hwF (s : State) (x : Fld) (v : Nat) : State := if s.softly x then s else s.setF x v

/-- Write a 64-bit quantity into its two registers, low word first (R15). -/
def State.set64 (s : State) (lo : Nat) (v : Nat) : State :=
  (s.setWord lo (BitVec.ofNat 32 v)).setWord (lo + 4) (BitVec.ofNat 32 (v / 2 ^ 32))

/-- A 64-bit quantity of two registers (R15). -/
def State.get64 (s : State) (lo : Nat) : Nat := (s.word lo).toNat + 2 ^ 32 * (s.word (lo + 4)).toNat

/-- Return every register with offset in `lo … hi - 1` to its reset value. -/
def State.resetRegs (s : State) (lo hi : Nat) : State := { s with regs := s.regs.clearRange lo hi }

/-- A memory is in canonical form: addresses rise strictly, and no byte that is listed reads as an unlisted one does, which is 0. -/
abbrev Memory.wf (m : Store Byte) : Bool := Store.wf (fun _ => 0) m

/-- The registers, working copies and memories are in canonical form: keys rise strictly, and no entry equals what its key reads unlisted. -/
structure State.Canonical (s : State) : Prop where
  regs  : s.regs.wf (resetWord s.variant) = true
  work  : s.work.wf (resetWord s.variant) = true
  dram  : Memory.wf s.dram = true
  tile  : Memory.wf s.tile = true
  spool : Memory.wf s.spool = true

/-! ## Working copies of shadowed registers (R735) -/

/-- The working copy of a shadowed register. -/
def State.wword (s : State) (off : Nat) : Word := s.work.getD (resetWord s.variant off) off

/-- A field of a working copy. -/
def State.wf (s : State) (x : Fld) : Nat := getField (s.wword x.off) x.lo x.w

/-- Store a working copy. -/
def State.setWork (s : State) (off : Nat) (w : Word) : State :=
  { s with work := s.work.set (resetWord s.variant off) off w }

/-- Move a shadow to its working copy. -/
def State.takeShadow (s : State) (off : Nat) : State := s.setWork off (s.word off)

/-- Move the shadows of `n` registers from `off`, `stride` apart, to their working copies. -/
def State.takeShadows (s : State) (off stride : Nat) : Nat → State
  | 0 => s
  | n + 1 => (s.takeShadow off).takeShadows (off + stride) stride n

/-! ## Free values -/

/-- The next free value: a result that the spec leaves open (assumption log 3). -/
def State.free (s : State) : BitVec 64 := Config.freeValue s.freeCtr

/-- Advance past one free value. -/
def State.drew (s : State) : State := { s with freeCtr := s.freeCtr + 1 }

/-- Draw `n` free values: the state behind them, and their 8·`n` bytes. -/
def State.drawn (s : State) : Nat → State × List Byte
  | 0 => (s, [])
  | n + 1 => let r := s.drew.drawn n; (r.1, leBytes 8 s.free.toNat ++ r.2)

/-! ## Reports to the Sump (R674 to R677) -/

/-- Raise a report; it waits until the Sump takes it. -/
def State.report (s : State) (src cls cause : Nat) (param : Nat := 0) (addr : Nat := 0) (access : Nat := 0)
    (master : Nat := 0xFF) : State :=
  let r : Report := ⟨cls, access, master, src, cause, BitVec.ofNat 64 addr, BitVec.ofNat 32 param, s.now⟩
  { s with waiting := s.waiting ++ [r] }

/-- The report of an access: ACCESS 1 read, 2 write, 6 SDO (R675). The parameter of the generic causes is the value written (R677). -/
def State.reportAccess (s : State) (src cause access master addr value : Nat) : State :=
  s.report src 0 cause value addr access master

/-- Add something to what the device has sent. -/
def State.emit (s : State) (o : Output) : State := { s with out := s.out ++ [o] }

/-! ## Wires (assumption log 5) -/

abbrev wireLaser (st : Nat) : Nat := 100 + st
abbrev wireHv : Nat := 120
abbrev wireFuser : Nat := 121
abbrev wireAlive : Nat := 122
abbrev wirePmic (i : Nat) : Nat := 130 + i
abbrev wireRail (k : Nat) : Nat := 140 + k
abbrev wireSsd (d : Nat) : Nat := 180 + d

/-- Drive an output, where its level changes. -/
def State.drivePin (s : State) (name : Nat) (old new : Bool) : State := if old = new then s else s.emit (.wire name new)

/-- SPL_CTRL.ENABLE takes a value; SSD_PERST_N of the drives follow it (R726). -/
def State.setSpool (s : State) (on : Bool) : State :=
  ((List.range 4).foldl (fun (t : State) d => t.drivePin (wireSsd d) (s.b SPL_CTRL.ENABLE) on) s).setB SPL_CTRL.ENABLE on

/-- A turnout event occurs (R529, R530): it counts in the next round, once however often it occurs in this one. -/
def State.event (s : State) (ev : Nat) : State :=
  if s.trn.events.contains ev then s else { s with trn := { s.trn with events := s.trn.events ++ [ev] } }

/-- L[st], the station line count: the web line count, with the photoconductor correction where the station blends it (R319). -/
def State.lineAt (s : State) (st : Nat) : Nat :=
  if s.f (SCN_ST_STATE.TRK st) = 1 then ((s.scn.webLine : Int) + (s.scn.sts.getD {} st).corr / 65536).toNat else s.scn.webLine

/-- Software has written a register that the correction loop also writes (R35, R429). -/
def State.touch (s : State) (off : Nat) : State :=
  if s.ins.touched.contains off then s else { s with ins := { s.ins with touched := off :: s.ins.touched } }

/-! ## Variant and power -/

/-- Is the station enabled by the fuses (R6)? -/
def State.stationOn (s : State) (st : Nat) : Bool := decide (st < s.variant.stations)

/-- Power state codes (R601). -/
abbrev pwrOFF : Nat := 0
abbrev pwrHIBERNATE : Nat := 1
abbrev pwrREADY : Nat := 2
abbrev pwrSTANDBY : Nat := 3
abbrev pwrSLEEP : Nat := 4
abbrev pwrRUN : Nat := 5

/-- The power state (PWR_STATE.NOW). -/
def State.power (s : State) : Nat := s.f PWR_STATE.NOW

/-- Is the engine in RUN? -/
def State.inRun (s : State) : Bool := s.power = pwrRUN

/-- RUN, READY or STANDBY. -/
def State.awake (s : State) : Bool := s.power = pwrRUN || s.power = pwrREADY || s.power = pwrSTANDBY

/-- Is a C3 or C4 in progress (FLT_STATUS.ACTIVE)? -/
def State.stopActive (s : State) : Bool := decide (3 ≤ s.f FLT_STATUS.ACTIVE)

/-- SRC code of the block that owns a BAR0 offset (R36, R675); HIF for the reserved span (R38). -/
def srcOf (off : Nat) : Nat :=
  if off < 0x100000 then 0x01 else if off < 0x200000 then 0x02 else if off < 0x300000 then 0x03
  else if off < 0x400000 then 0x04 else if off < 0x800000 then 0x05 else if off < 0xC00000 then 0x06
  else if off < 0x1000000 then 0x07 else if off < 0x1400000 then 0x08 else if off < 0x1800000 then 0x09
  else if off < 0x1C00000 then 0x0A else if off < 0x2000000 then 0x0B else if off < 0x2400000 then 0x0C
  else if off < 0x2600000 then 0x0D else if off < 0x2800000 then 0x0E else if off < 0x2A00000 then 0x0F
  else if off < 0x2C00000 then 0x10 else if off < 0x2D00000 then 0x11 else if off < 0x2E00000 then 0x12
  else if off < 0x3000000 then 0x13 else if off < 0x3200000 then 0x14 else if off < 0x3400000 then 0x15
  else if off < 0x3600000 then 0x16 else if off < 0x3800000 then 0x17 else 0x01

/-- Is the step out of RUN in progress? No further frame is latched then (R603). -/
def State.leaving (s : State) : Bool := s.inRun && s.b PWR_STATE.STEPPING && !s.pwr.runUp && decide (s.f PWR_STATE.REQ ≠ pwrRUN)

/-- Is the block that owns an offset powered down in the present state (R39, R312, R601, R628, R670, R671, R712)? After a failed boot
only HIF, OTP, SEC, FLT and EVR respond (R101). Siphon and the codec engine answer so from their stop for SLEEP on (R175, R249). -/
def State.poweredDown (s : State) (off : Nat) : Bool :=
  let b := srcOf off
  if s.f HIF_DEV_STATE.STATE = 2 then !(b = 0x01 || b = 0x14 || b = 0x15 || b = 0x16 || b = 0x17)
  else if s.sip.off && (b = 0x02 || b = 0x04) then true
  else if s.power = pwrRUN ∨ s.power = pwrREADY then false
  else if s.power = pwrSTANDBY then b = 0x0F || b = 0x06
  else if s.power = pwrSLEEP then b = 0x02 || b = 0x03 || b = 0x04 || b = 0x05 || b = 0x06 || b = 0x07 || b = 0x08 || b = 0x0A || b = 0x0B || b = 0x0C || b = 0x0E || b = 0x0F
  else if s.power = pwrHIBERNATE then !(b = 0x09 || b = 0x11 || b = 0x12 || b = 0x14 || b = 0x16 || b = 0x17)
  else true

/-- The boot stops (R101, R626): the endpoint enumerates as BOOT_FAILED with a code, and nothing follows until a reset. -/
def State.bootStop (s : State) (code : Nat) : State :=
  { (s.setF HIF_DEV_STATE.STATE 2).setF HIF_DEV_STATE.BOOT_ERR code with boot := { s.boot with running := false, stopped := true } }

/-- A write to a block that is powered down: ignored, as a C0 event (R39). -/
def State.darkWrite (s : State) (off value : Nat) (master : Nat := 0) : State :=
  s.reportAccess (srcOf off) 0x03 2 master off value

/-! ## Dictionary objects that are no register -/

/-- Default values of the objects that are no register (R96, R570, R594, R596 and the other object tables). -/
def objReset (v : Variant) (k : Nat) : Nat :=
  match k with
  | 0x210102 => 3072 | 0x210103 => 256 | 0x210105 => 256 | 0x210107 => 2 | 0x210108 => 0xFF
  | 0x210201 => 256 | 0x210202 => 4096 | 0x210203 => (match v with | .sx0432 => 0 | _ => 32768) | 0x210204 => 1024 | 0x210205 => 8192
  | 0x3C2001 => 1
  | _ => 0

/-- The value of object `index:sub`. -/
def State.obj (s : State) (index sub : Nat) : Nat := s.objs.getD (objReset s.variant (index * 256 + sub)) (index * 256 + sub)

/-- Set object `index:sub`. -/
def State.setObj (s : State) (index sub v : Nat) : State :=
  { s with objs := s.objs.set (objReset s.variant (index * 256 + sub)) (index * 256 + sub) v }

/-! ## Functions, vectors and MSI-X (R123 to R125) -/

/-- What function `fn` holds beside its registers. -/
def State.fn (s : State) (fn : Nat) : FnState := s.hif.fns.getD {} fn

/-- Change what function `fn` holds. -/
def State.setFn (s : State) (fn : Nat) (x : FnState) : State :=
  { s with hif := { s.hif with fns := s.hif.fns.set {} fn x } }

/-- First word of a function's MSI-X table: the PF's of R123, a VF's at 0x2_0000 of its window (R102), kept above the BAR0 map. -/
def msixTable (fn : Nat) : Nat := if fn = 0 then 0xE0000 else 0x4000000 + fn * 0x40000 + 0x20000

/-- First word of a function's pending bit array. -/
def msixPba (fn : Nat) : Nat := if fn = 0 then 0xF0000 else 0x4000000 + fn * 0x40000 + 0x21000

/-- Vectors of a function (R98). -/
def msixCount (fn : Nat) : Nat := if fn = 0 then 2048 else 64

/-- Is a vector masked, by its own mask bit or by the function mask? -/
def State.vecMasked (s : State) (fn vec : Nat) : Bool :=
  (s.fn fn).msixMask || bit (s.word (msixTable fn + vec * 16 + 12)).toNat 0

/-- Signal a vector: a message, or its pending bit while it is masked (R125). With MSI-X disabled, or while an FLR of the function runs, nothing is sent. -/
def State.signal (s : State) (fn vec : Nat) : State :=
  if ¬ (s.fn fn).msixEn ∨ (s.fn fn).inFlr ∨ msixCount fn ≤ vec then s
  else if s.vecMasked fn vec then
    let o := msixPba fn + vec / 32 * 4
    s.setWord o (s.word o ||| BitVec.ofNat 32 (2 ^ (vec % 32)))
  else
    s.emit (.msix fn vec (BitVec.ofNat 64 (s.get64 (msixTable fn + vec * 16))) (s.word (msixTable fn + vec * 16 + 8)))

/-- Signal a PF vector. -/
def State.pf (s : State) (vec : Nat) : State := s.signal 0 vec

/-! ## Event records (R700 to R702) -/

/-- Write a record into the mirror under the next sequence number (R702): the mirror keeps the newest 512, and a record that leaves it
unwritten raises EVR_CNT.LOST. -/
def State.record (s : State) (source cause severity : Nat) (p0 p1 p2 : Nat := 0) (master : Nat := 0xFF)
    (access : Nat := 0) (lastWords : Bool := false) : State :=
  let seq := s.evr.next.toNat
  let r : EvrRec := ⟨s.evr.next, cause, master, severity, access, lastWords, source, s.word EVR_OPSEC.word,
    s.word EVR_CYCLES.word, BitVec.ofNat 32 p0, BitVec.ofNat 32 p1, BitVec.ofNat 32 p2⟩
  let full := decide (512 ≤ s.evr.mirror.length)
  let lost := full && decide (s.evr.mirror.length ≤ s.evr.unwritten)
  let m := (if full then s.evr.mirror.drop 1 else s.evr.mirror) ++ [r]
  let s1 := { s with evr := { s.evr with next := s.evr.next + 1, mirror := m, unwritten := min (s.evr.unwritten + 1) m.length } }
  let s2 := (s1.setF EVR_NEWEST.SEQ seq).setF EVR_STATUS.FLUSHING 1
  if lost then s2.satInc EVR_CNT.LOST else s2

/-- Page a 64-bit identifier as the address of a report (R677). -/
def idAddr (id : BitVec 64) : Nat := id.toNat

end Sys2Proof.Machine
end

