-- ==== Sys2Proof/Machine/Fuses.lean ====
section
/-! DEFINITION. The fuses (R631 to R638, R643 to R645): words, rows, redirection, thermometers, markers, feature enables. -/
namespace Sys2Proof.Machine

/-! ## Fuses (R631 to R638, R645) -/

/-- A class S word. -/
def State.otpWord (s : State) (n : Nat) : OtpWord := s.otp.words.getD {} n

/-- Change a class S word. -/
def State.setOtpWord (s : State) (n : Nat) (w : OtpWord) : State := { s with otp := { s.otp with words := s.otp.words.set {} n w } }

/-- The spare row that stands for class P row `r`: the redirection entry with the highest word number (R636). -/
def State.spareOf (s : State) (r : Nat) : Option Nat :=
  (List.range 32).foldl (fun (a : Option Nat) i =>
    let w := s.otpWord (32 + i)
    if w.written && decide (bits w.data.toNat 0 11 = r) then some (bits w.data.toNat 16 5) else a) none

/-- What class P row `r` reads, after redirection (R635 to R637). -/
def State.otpRow (s : State) (r : Nat) : BitVec 32 :=
  match s.spareOf r with
  | some k => s.otp.spare.getD 0 k
  | none => s.otp.rows.getD 0 r

/-- Set bits of class P row `r`, where they now stand. -/
def State.setOtpRow (s : State) (r : Nat) (m : BitVec 32) : State :=
  let v := s.otpRow r ||| m
  let s := match s.spareOf r with
    | some k => { s with otp := { s.otp with spare := s.otp.spare.set 0 k v } }
    | none => { s with otp := { s.otp with rows := s.otp.rows.set 0 r v } }
  s.setWord (OTP_P_ROW.word r) v

/-- Highest set bit of a row plus one; 0 where none is set. -/
def topBit (v : Nat) : Nat := (List.range 32).foldl (fun (a : Nat) i => if bit v i then i + 1 else a) 0

/-- The count of the thermometer of `n` rows from row `base` (R638). -/
def State.thermo (s : State) (base n : Nat) : Nat :=
  (List.range n).foldl (fun (a : Nat) i =>
    let t := topBit (s.otpRow (base + i)).toNat
    if t = 0 then a else 32 * i + t) 0

/-- Advance the thermometer of `n` rows from row `base` to a count: the bits from its count on are set (R638). -/
def State.thermoTo (s : State) (base n count : Nat) : State :=
  let c := s.thermo base n
  (List.range n).foldl (fun (s : State) (i : Nat) =>
    let m := (List.range 32).foldl (fun (a : Nat) j => if c ≤ 32 * i + j ∧ 32 * i + j < count then a + 2 ^ j else a) 0
    if m = 0 then s else s.setOtpRow (base + i) (BitVec.ofNat 32 m)) s

/-- Rows of each thermometer (R637). -/
abbrev rowsFirmware : Nat := 384
abbrev rowsSii : Nat := 416
abbrev rowsToken : Nat := 424
abbrev rowsEpoch : Nat := 432

/-- Is a lifecycle marker set: its word reads all ones, or is damaged or neither all zeros nor all ones, for markers 1 and 3 (R643, R645)? -/
def State.marker (s : State) (n : Nat) : Bool :=
  let w := s.otpWord n
  let whole := decide (w.err ≠ 2) && w.written && decide (w.data = BitVec.allOnes 64)
  if n = 2 then whole
  else whole || (w.written && (decide (w.err = 2) || decide (w.data ≠ 0)))

/-- The lifecycle state that the markers spell: 0 BLANK, 1 SECURED, 2 FIELD_DEBUG, 3 RETURNED (R645). -/
def State.lifecycle (s : State) : Nat := if s.marker 3 then 3 else if s.marker 2 then 2 else if s.marker 1 then 1 else 0

/-- Is the feature word unwritten, damaged, or made of halves that are not complements (R643)? -/
def State.featBad (s : State) : Bool :=
  let w := s.otpWord 4
  !w.written || decide (w.err = 2) || decide (bits w.data.toNat 0 32 + bits w.data.toNat 32 32 ≠ 2 ^ 32 - 1)

/-- The variant that the feature word spells (R643, R644); a word that spells none of the three parts is taken as the SX-0432 set (assumption log 2). -/
def State.featVariant (s : State) : Variant :=
  let w := bits (s.otpWord 4).data.toNat 0 32
  if s.featBad then .sx0432 else if w = Variant.feature .sx1296 then .sx1296 else if w = Variant.feature .sx0864 then .sx0864 else .sx0432

/-- The feature enables that the latches hold, and that OTP_FEATURE reports beside object 0x2000 (R7, R642 to R644). -/
def State.feature (s : State) : Nat := s.featVariant.feature

/-- Show what the fuses hold in the registers that report it (R644, R654, R659, R670, R671): UID, thermometers, spare rows. -/
def State.otpShow (s : State) : State :=
  let s := (s.set64 SEC_UID_LO.word (s.otpWord 0).data.toNat).setF SEC_SVN.COMMITTED (s.thermo rowsFirmware 32)
  let s := (s.setF SEC_TOKEN_EPOCH.COUNT (s.thermo rowsToken 8)).setF SPL_THERMO.BURNED (s.thermo rowsEpoch 64)
  s.setF OTP_SPARE.USED ((List.range 32).filter (fun k => (s.otp.spare.getD 0 k) ≠ 0)).length

/-- Power fails during an operation (R640): a word being written reads as written and may be damaged; of a row's bits some are set. -/
def State.otpCut (s : State) : State :=
  let s1 := match s.otp.op with
    | some (.writeS w d) =>
      if s.otp.code ≠ 0 then s else (s.setOtpWord w { written := true, data := d, err := if s.free.getLsbD 0 then 2 else 0 }).drew
    | some (.setP r b) => if s.otp.code ≠ 0 then s else (s.setOtpRow r (b &&& BitVec.ofNat 32 s.free.toNat)).drew
    | _ => s
  { s1 with otp := { s1.otp with op := none, code := 0, queue := [] } }

end Sys2Proof.Machine
end

