-- ==== Sys2Proof/Machine/HostOps.lean ====
section
/-! DEFINITION. The completion rings and the queue registers of spec/03, as operations: writing an entry, the backlog, signalling. -/
namespace Sys2Proof.Machine

/-- Queue states of HIF_Q_STATUS.STATE. -/
abbrev qDISABLED : Nat := 0
abbrev qRUNNING : Nat := 1
abbrev qPAUSED : Nat := 2
abbrev qERROR : Nat := 3

/-- State of function `fn`'s queue. -/
def State.qState (s : State) (fn : Nat) : Nat := s.f (HIF_Q_STATUS.STATE fn)

/-- Is a page active: from ACCEPTED until its final state (R116)? -/
def Page.active (p : Page) : Bool :=
  match p.phase with
  | .final _ _ => false
  | _ => true

/-- Active pages of a function (R116). -/
def State.activePages (s : State) (fn : Nat) : Nat :=
  (s.pages.pages.filter (fun p => p.fn = fn && p.active && !p.muted)).length

/-- Bring HIF_Q_LOAD, LIMIT, BACKLOG and HIF_FN_STATE of a function in line with what it holds. -/
def State.syncQueue (s : State) (fn : Nat) : State :=
  let a := s.activePages fn
  let n := (s.fn fn).backlog.length
  let s := s.setF (HIF_Q_LOAD.ACTIVE fn) a
  let s := s.setF (HIF_Q_LOAD.BACKLOG fn) n
  let s := s.setB (HIF_Q_STATUS.LIMIT fn) (decide (1024 ≤ a))
  let s := s.setB (HIF_Q_STATUS.BACKLOG fn) (decide (0 < n))
  s.setF HIF_FN_STATE.QUEUE_ON (setBit (s.f HIF_FN_STATE.QUEUE_ON) fn (decide (s.qState fn ≠ qDISABLED)))

/-- Bring every function's queue registers in line. -/
def State.syncQueues (s : State) : State := (List.range 16).foldl (fun s fn => s.syncQueue fn) s

/-- Slots of the completion ring. -/
def State.cqSlots (s : State) (fn : Nat) : Nat := 2 ^ s.f (HIF_CQ_SIZE.LOG2 fn)

/-- Slots of the submission ring. -/
def State.sqSlots (s : State) (fn : Nat) : Nat := 2 ^ s.f (HIF_SQ_SIZE.LOG2 fn)

/-- Is the completion ring full: would advancing the tail make it equal to the head (R112)? -/
def State.ringFull (s : State) (fn : Nat) : Bool :=
  (s.f (HIF_CQ_TAIL.TAIL fn) + 1) % s.cqSlots fn = s.f (HIF_CQ_HEAD.HEAD fn)

/-- The 32 bytes of a completion entry (R111). -/
def entryBytes (e : CqEntry) (phase : Bool) (sqHead seq : Nat) : List Byte :=
  leBytes 8 e.pageId.toNat ++ leBytes 8 e.hostTag.toNat ++ leBytes 8 e.stamp.toNat ++
  leBytes 1 e.status ++ leBytes 1 e.reason ++ leBytes 1 e.station ++
  leBytes 1 ((if phase then 1 else 0) + (if e.reprint then 2 else 0) + (if e.delayed then 4 else 0)) ++
  leBytes 2 sqHead ++ leBytes 2 seq

/-- Write an entry at the ring's tail with one posted write (R112, R114) and signal the completion vector as R118 says. Where only one of COUNT and TIME
is 0, it is taken as switched off and the other alone coalesces (DESIGN CHOICE, unsafe: R118 speaks of both being 0; assumption log 101). -/
def State.writeEntry (s : State) (fn : Nat) (e : CqEntry) : State :=
  let tail := s.f (HIF_CQ_TAIL.TAIL fn)
  let phase := s.b (HIF_CQ_TAIL.PHASE fn)
  let base := s.f (HIF_CQ_BASE_HI.ADDR fn) * 2 ^ 32 + s.f (HIF_CQ_BASE_LO.ADDR fn) * 2 ^ 12
  let x := s.fn fn
  let s := s.emit (.hostWrite fn (BitVec.ofNat 64 (base + 32 * tail)) (entryBytes e phase (s.f (HIF_SQ_HEAD.HEAD fn)) (x.seq % 65536)))
  let tail' := (tail + 1) % s.cqSlots fn
  let s := s.setF (HIF_CQ_TAIL.TAIL fn) tail'
  let s := if tail' = 0 then s.setB (HIF_CQ_TAIL.PHASE fn) (!phase) else s
  let count := s.f (HIF_CQ_COAL.COUNT fn)
  let time := s.f (HIF_CQ_COAL.TIME fn)
  let now := decide (count = 0 ∧ time = 0) || decide (0 < count ∧ count ≤ x.unsig + 1)
  let s := s.setFn fn { x with seq := x.seq + 1, unsig := if now then 0 else x.unsig + 1 }
  if now then s.signal fn 0 else s

/-- Is a function in D3hot, or the PF of a VF (R119, R136)? -/
def State.inD3 (s : State) (fn : Nat) : Bool := (s.fn fn).d3 || (s.fn 0).d3

/-- Deliver an entry: to the ring, or to the backlog while the ring is full, the backlog holds entries or the function is in D3hot
(R115, R136). Nothing is written for a function under FLR (R126) or with its queue disabled. -/
def State.post (s : State) (fn : Nat) (e : CqEntry) : State :=
  let x := s.fn fn
  if x.inFlr || s.qState fn = qDISABLED then s
  else if x.backlog.isEmpty && !s.ringFull fn && !s.inD3 fn then s.writeEntry fn e
  else (s.setFn fn { x with backlog := x.backlog ++ [{ e with delayed := true }] }).syncQueue fn

/-- Move backlog entries to the ring in order while it has room (R115). -/
def State.drainBacklog (s : State) (fn : Nat) : Nat → State
  | 0 => s
  | n + 1 =>
    match (s.fn fn).backlog with
    | [] => s
    | e :: t =>
      if s.ringFull fn || s.inD3 fn then s
      else ((s.setFn fn { s.fn fn with backlog := t }).writeEntry fn e).drainBacklog fn n

/-- Pause a RUNNING queue with a cause; the first cause stands (R119). One that comes while D3hot holds the queue is kept until D0. -/
def State.pauseQueue (s : State) (fn cause : Nat) : State :=
  if s.qState fn = qRUNNING then
    ((s.setF (HIF_Q_STATUS.STATE fn) qPAUSED).setF (HIF_Q_STATUS.PAUSE_CAUSE fn) cause).signal fn 1
  else if s.qState fn = qPAUSED ∧ s.f (HIF_Q_STATUS.PAUSE_CAUSE fn) = 4 ∧ (s.fn fn).also = 0 ∧ cause ≠ 4 then
    s.setFn fn { s.fn fn with also := cause }
  else s

/-- Put a queue in ERROR with a code (R106, R109). -/
def State.errorQueue (s : State) (fn code : Nat) : State :=
  (((s.setF (HIF_Q_STATUS.STATE fn) qERROR).setF (HIF_Q_STATUS.ERR_CODE fn) code).setF (HIF_Q_STATUS.PAUSE_CAUSE fn) 0).signal fn 1

end Sys2Proof.Machine
end

