-- ==== Sys2Proof/Machine/SpoolBase.lean ====
section
/-! DEFINITION. What pages need of the spool (spec/05): drives and capacity, refusal, salts and keys, extents and copies, allocated, found and freed. -/
namespace Sys2Proof.Machine

/-- Are spool writes refused (R204)? -/
def State.splRefused (s : State) : Bool := s.b SPL_STATUS.WRITE_REFUSED

/-- Signal a slice's vector: VF vector 2, or PF vector 452 (spec/05, SPL registers). -/
def State.sliceVector (s : State) (fn : Nat) : State := if fn = 0 then s.pf 452 else s.signal fn 2

/-! ## Drives -/

def State.drive (s : State) (d : Nat) : Drive := s.spl.drives.getD {} d
def State.setDrive (s : State) (d : Nat) (x : Drive) : State := { s with spl := { s.spl with drives := s.spl.drives.set {} d x } }

/-- Present drives that are not failed. -/
def State.usableDrives (s : State) : List Nat :=
  (List.range 4).filter (fun d => bit (s.f SPL_STATUS.SSD_PRESENT) d && !bit (s.f SPL_STATUS.SSD_FAILED) d)

/-- The drives of a mask that take commands: present, not failed (R183) and not shut down (R204). -/
def State.drivesOf (s : State) (m : BitVec 4) : List Nat := if s.spl.closing = 3 then [] else s.usableDrives.filter (fun d => m.getLsbD d)

/-- Send Dataset Management deallocate to the drives of a mask (R192). -/
def State.unmap (s : State) (m : BitVec 4) : State := (s.drivesOf m).foldl (fun s d => s.emit (.nvme d 2)) s

/-- The extents on the drives that some holder still counts. -/
def Spl.extents (x : Spl) : List Extent :=
  x.copies.flatMap (fun c => c.heads) ++ x.audits.flatMap (fun a => a.heads) ++ x.direct.filterMap (fun d => d.head)

/-- Extents managed on the drives admitted and not failed, to at most 976,562,500: in mirror mode a pair counts what both its drives hold, and keeps
it while one survives (R183, R184). -/
def State.managed (s : State) : Nat :=
  let cap := fun (d : Nat) => (s.drive d).capacity
  let n := if s.b SPL_CTRL.MIRROR then
      (List.range 2).foldl (fun (a : Nat) p =>
        match [2 * p, 2 * p + 1].filter (fun d => bit (s.f SPL_STATUS.SSD_PRESENT) d) with
        | [] => a
        | d :: t => if s.usableDrives.any (fun e => e / 2 = p) then a + t.foldl (fun (m : Nat) e => min m (cap e)) (cap d) else a) 0
    else s.usableDrives.foldl (fun (a : Nat) d => a + cap d) 0
  min 976562500 n

/-- Extents that lie on failed drives alone: still charged, and part of no capacity (R183). -/
def State.deadHeld (s : State) : Nat :=
  let up := s.usableDrives
  (s.spl.extents.filter (fun e => e.drives ≠ 0 && !up.any (fun d => e.drives.getLsbD d))).length

/-- Extents charged to all slices. -/
def State.allUsed (s : State) : Nat := (List.range 16).foldl (fun a fn => a + s.f (SPL_SL_USED.EXTENTS fn)) 0

/-- Show the capacity managed and what of it is not allocated (R184). -/
def State.syncCap (s : State) : State :=
  (s.setF SPL_CAP_TOTAL.EXTENTS s.managed).setF SPL_CAP_FREE.EXTENTS (s.managed - (s.allUsed - s.deadHeld))

/-! ## Refusal (R204) -/

/-- Is cause 6 NO_DRIVE present: no usable drive, or in mirror mode no pair whole; while the spool starts, no pair with a drive (R204, R736)? -/
def State.noDrive (s : State) : Bool :=
  let u := s.usableDrives
  u.isEmpty || (s.b SPL_CTRL.MIRROR && !s.spl.starting && !(List.range 2).any (fun p => u.contains (2 * p) && u.contains (2 * p + 1)))

/-- The causes of R204 that hold, in rising number. While the spool starts, cause 2 shows only once a drive is admitted (R736). In BLANK, where ENABLE
cannot be set and no key exists, the cause is 2 (R649, R666). -/
def State.refuseCauses (s : State) : List Nat :=
  let on := s.b SPL_CTRL.ENABLE
  (if on then [] else if s.f SEC_LC.STATE = 0 then [2] else [1]) ++
  (if on && !s.spl.epochOk && !s.spl.exhausted && !(s.spl.starting && s.noDrive) then [2] else []) ++
  (if s.spl.exhausted then [3] else []) ++ (if on && s.spl.saltFull then [4] else []) ++ (if s.spl.rootDown then [5] else []) ++
  (if on && s.noDrive then [6] else []) ++ (if s.spl.asleep then [7] else [])

/-- The slice copies of WRITE_REFUSED. -/
def State.syncRefused (s : State) (v : Bool) : State :=
  (List.range 16).foldl (fun s fn => s.setB (SPL_SL_STATUS.WRITE_REFUSED fn) v) s

/-- Show the causes that hold in SPL_STATUS (R204): the cause that set WRITE_REFUSED stays while it holds, else the lowest. A change signals PF vector
452. -/
def State.showRefusal (s : State) : State :=
  let cs := s.refuseCauses
  let old := s.f SPL_STATUS.REFUSE_CAUSE
  let new := if cs.contains old then old else cs.headD 0
  let is := !cs.isEmpty
  if old = new && s.b SPL_STATUS.WRITE_REFUSED = is then s
  else (((s.setF SPL_STATUS.REFUSE_CAUSE new).setB SPL_STATUS.WRITE_REFUSED is).syncRefused is).pf 452

/-! ## Epochs, salts and keys (R195, R196, R199, R203) -/

/-- Epochs that some allocated extent carries, and the current one: a salt table frees every other entry (R203). -/
def State.epochInUse (s : State) (e : BitVec 32) : Bool :=
  s.word SPL_EPOCH.word = e || s.spl.extents.any (fun x => x.epoch = e) || s.spl.catalogue.any (fun c => c.heads.any (fun x => x.epoch = e))

/-- Write the current epoch's salt to every admitted drive's table (R199); a table without a free entry refuses writes (R203). -/
def State.writeSalts (s : State) : State :=
  let e := s.word SPL_EPOCH.word
  let tab := fun (d : Nat) => (s.drive d).salts.filter (fun x => x.1 ≠ e && s.epochInUse x.1)
  let full := s.usableDrives.any (fun d => decide (65536 ≤ (tab d).length))
  let put : State → Nat → State := fun s d => s.setDrive d { s.drive d with salts := tab d ++ (if full then [] else [(e, s.spl.salt)]) }
  let t := s.usableDrives.foldl put s
  { t with spl := { t.spl with saltFull := full, epochOk := t.spl.journalOk } }

/-- A release may have freed an entry that the current epoch waits for (R203). -/
def State.retrySalts (s : State) : State := if s.spl.saltFull then s.writeSalts.showRefusal else s

/-- Words of class S as a key, byte 0 in bits 7:0 of the first. -/
def State.otpKey (s : State) (w : Nat) : List Byte := ((List.range 4).map (· + w)).flatMap (fun i => leBytes 8 (s.otpWord i).data.toNat)

/-- The spool root key and the journal's MAC key as the cipher block reads them: the path is cut in RETURNED (R195, R633, R634). -/
def State.rootKey (s : State) : List Byte := if s.lifecycle = 3 then List.replicate 32 0 else s.otpKey 20
def State.macKey (s : State) : List Byte := if s.lifecycle = 3 then List.replicate 32 0 else s.otpKey 24

/-- The data key of an epoch under its salt (R195). -/
def State.epochKey (s : State) (e : BitVec 32) (salt : List Byte) : List Byte :=
  kdf256 s.rootKey [0x53, 0x58, 0x2D, 0x53, 0x50, 0x4F, 0x4F, 0x4C] (beBytes 4 e.toNat ++ salt)

/-- The MAC of a journal record over its epoch and salt: HMAC-SHA-384 truncated to 128 bits (R199, R633; the order of the two is a DESIGN CHOICE of
assumption log 103). -/
def State.journalMac (s : State) (e : BitVec 32) (salt : List Byte) : List Byte := (hmac384 s.macKey (beBytes 4 e.toNat ++ salt)).take 16

/-- The low part of the last journal record, where its MAC holds (R199). -/
def State.journalLow (s : State) : Option Nat :=
  s.spl.journal.bind (fun r => if r.mac = s.journalMac r.epoch r.salt then some (r.epoch.toNat % 1048576) else none)

/-- Bytes 0 to 31 of an extent's header, which are authenticated (R196, R197). -/
def Extent.aad (x : Extent) : List Byte :=
  leBytes 8 x.counter ++ leBytes 4 x.epoch.toNat ++ leBytes 1 x.kind ++ leBytes 1 x.fn ++ leBytes 2 0 ++ leBytes 8 x.owner.toNat ++
  leBytes 4 x.index ++ leBytes 4 x.length

/-- The 64 bytes of an extent's header (R197). -/
def Extent.header (x : Extent) : List Byte :=
  let b := x.aad ++ x.tag ++ List.replicate 12 0
  b ++ leBytes 4 (crc32c b).toNat

/-- An extent's ciphertext and tag under a data key (R196): the nonce is epoch and counter, big-endian. -/
def Extent.sealed (x : Extent) (key payload : List Byte) : List Byte × List Byte :=
  gcmSeal key (beBytes 4 x.epoch.toNat ++ beBytes 8 x.counter) x.aad payload

/-- The salt of an extent's epoch: that of the current epoch, or the entry of a drive that holds the extent (R200). -/
def State.saltOf (s : State) (x : Extent) : List Byte :=
  if x.epoch = s.word SPL_EPOCH.word then s.spl.salt
  else (((s.drivesOf x.drives).flatMap (fun d => (s.drive d).salts)).find? (fun e => e.1 = x.epoch)).elim [] (fun e => e.2)

/-- Does an extent that reads as `payload` match its tag (R198)? -/
def State.verified (s : State) (x : Extent) (payload : List Byte) : Bool := (x.sealed (s.epochKey x.epoch (s.saltOf x)) payload).2 = x.tag

/-! ## Copies -/

/-- Extents of a page's copy (R189). -/
def copyExtents (srcLen : Nat) (src : List SourceEntry) : Nat :=
  (64 + srcLen + (src.foldl (fun a e => a + e.len) 0) + 65535) / 65536

/-- Can the slice and the drives hold `n` more extents (R185, R187)? -/
def State.canAlloc (s : State) (fn n : Nat) : Bool :=
  decide (s.f (SPL_SL_USED.EXTENTS fn) + n ≤ s.f (SPL_QUOTA.EXTENTS fn) ∧ n ≤ s.f SPL_CAP_FREE.EXTENTS)

/-- Charge `n` extents to a slice. -/
def State.alloc (s : State) (fn n : Nat) : State := (s.setF (SPL_SL_USED.EXTENTS fn) (s.f (SPL_SL_USED.EXTENTS fn) + n)).syncCap

/-- Give `n` extents of a slice back, which their holder has let go; an epoch may end with them (R203). -/
def State.dealloc (s : State) (fn n : Nat) : State :=
  ((s.setF (SPL_SL_USED.EXTENTS fn) (s.f (SPL_SL_USED.EXTENTS fn) - n)).syncCap).retrySalts

/-- The copy of a function's page, if the spool holds one. -/
def State.findCopy (s : State) (fn : Nat) (id : BitVec 64) : Option Copy :=
  s.spl.copies.find? (fun c => c.fn = fn && c.pageId = id)

/-- The copy of a number. -/
def State.copy? (s : State) (key : Nat) : Option Copy := s.spl.copies.find? (fun c => c.key = key)

/-- Is the page's copy complete (R190)? -/
def State.copyComplete (s : State) (fn : Nat) (id : BitVec 64) : Bool :=
  match s.findCopy fn id with
  | some c => c.stage = .complete
  | none => false

/-- Count the pages with a copy held or being written (SPL_PAGES_HELD, SPL_SL_PAGES). -/
def State.syncCopies (s : State) (fn : Nat) : State :=
  (s.setF SPL_PAGES_HELD.PAGES s.spl.copies.length).setF (SPL_SL_PAGES.PAGES fn) (s.spl.copies.filter (fun c => c.fn = fn)).length

/-- Does a command write or flush a copy? -/
def NvmeOp.ofCopy (o : NvmeOp) (key : Nat) : Bool :=
  match o with
  | .writeExtent k _ => k = key | .flush k => k = key | .catEntry k => k = key | .catFlush k => k = key
  | _ => false

/-- Has a copy a write still open, or the page's audit captures one (R192)? -/
def State.copyBusy (s : State) (key : Nat) : Bool :=
  s.spl.cmds.any (fun c => c.op.ofCopy key || match c.op with
    | .writeAudit k => s.spl.audits.any (fun a => a.key = k && s.spl.copies.any (fun d => d.key = key && d.fn = a.fn && d.pageId = a.pageId))
    | _ => false)

/-- Let an audit capture go: its extents are free and deallocated. -/
def State.freeAudit (s : State) (a : Audit) : State :=
  (({ s with spl := { s.spl with audits := s.spl.audits.filter (fun b => b.key ≠ a.key),
                                 cmds := s.spl.cmds.filter (fun x => x.op ≠ .writeAudit a.key) } } : State).dealloc a.fn a.extents).unmap a.drives

/-- Free a page's audit captures (R192). -/
def State.freeAudits (s : State) (fn : Nat) (id : BitVec 64) : State :=
  (s.spl.audits.filter (fun a => a.fn = fn && a.pageId = id)).foldl (fun s a => s.freeAudit a) s

/-- Free the extents of a page's copy and forget it (R192): the drives get a deallocate. -/
def State.freeCopy (s : State) (fn : Nat) (id : BitVec 64) : State :=
  match s.findCopy fn id with
  | none => s
  | some c =>
    let s := { s with spl := { s.spl with copies := s.spl.copies.filter (fun d => d.key ≠ c.key),
                                          cmds := s.spl.cmds.filter (fun x => !x.op.ofCopy c.key) } }
    ((s.dealloc fn c.extents).unmap c.drives).syncCopies fn

/-- Reserve a page's copy at commit (R188). -/
def State.newCopy (s : State) (fn : Nat) (d : PageDesc) (src : List SourceEntry) : State :=
  let n := copyExtents d.srcLen src
  let c : Copy := { key := s.spl.nextKey, fn := fn, pageId := d.pageId, desc := d, src := src, extents := n,
                    streams := src.map (fun _ => []), landed := 64 + d.srcLen }
  let s := s.alloc fn n
  let s := { s with spl := { s.spl with copies := s.spl.copies ++ [c], nextKey := s.spl.nextKey + 1 } }
  s.syncCopies fn

/-- Change a copy. -/
def State.modCopy (s : State) (key : Nat) (g : Copy → Copy) : State :=
  { s with spl := { s.spl with copies := s.spl.copies.map (fun c => if c.key = key then g c else c) } }

/-- The 64 bytes of a page descriptor (R50). -/
def PageDesc.bytes (d : PageDesc) : List Byte :=
  let b := leBytes 8 d.pageId.toNat ++ leBytes 1 d.opcode ++ leBytes 1 d.speed ++ leBytes 2 d.stations.toNat ++ leBytes 1 d.inspect.toNat ++
    leBytes 1 d.format ++ leBytes 1 d.toneSet ++ leBytes 1 d.screenSet ++ leBytes 4 d.length ++ leBytes 2 d.gap ++ leBytes 2 d.flags.toNat ++
    leBytes 8 d.srcAddr.toNat ++ leBytes 4 d.srcLen ++ leBytes 4 d.jobId.toNat ++ leBytes 8 d.hostTag.toNat ++ leBytes 12 0
  b ++ leBytes 4 (crc32c b).toNat

/-- The 16 bytes of a source table entry (R51). -/
def SourceEntry.bytes (e : SourceEntry) : List Byte := leBytes 8 e.addr.toNat ++ leBytes 4 e.len ++ leBytes 1 e.layers ++ leBytes 3 0

/-- Bytes of a copy that count (R189). -/
def Copy.bytes (c : Copy) : Nat := 64 + c.desc.srcLen + c.src.foldl (fun a e => a + e.len) 0

/-- How much of the streams has landed without a gap, in source-table order. -/
def landedRun : List SourceEntry → List (List Byte) → Nat
  | e :: es, x :: xs => if e.len ≤ x.length then e.len + landedRun es xs else x.length
  | _, _ => 0

/-- How much of a copy's byte sequence is there without a gap (R189, R190). -/
def Copy.solid (c : Copy) : Nat := 64 + c.desc.srcLen + landedRun c.src c.streams

/-- A copy's byte sequence: descriptor, source table, streams (R189). -/
def Copy.content (c : Copy) : List Byte := c.desc.bytes ++ c.src.flatMap SourceEntry.bytes ++ c.streams.flatten

/-- Payload bytes of extent `i` of a copy that count, and the extent padded with zeros (R189). -/
def Copy.extLength (c : Copy) (i : Nat) : Nat := min 65536 (c.bytes - 65536 * i)
def Copy.extPayload (c : Copy) (i : Nat) : List Byte := (((c.content.drop (65536 * i)).take 65536) ++ List.replicate 65536 0).take 65536

end Sys2Proof.Machine
end

