-- ==== Sys2Proof/Machine/CulBase.lean ====
section
/-! DEFINITION. The Culvert ring's messages (R543 to R545, R561, R568): their bytes, their sequence numbers, the way they leave, and who is on the ring. -/
namespace Sys2Proof.Machine

/-- Ring states (CUL_STATUS.STATE). -/
abbrev culOFF : Nat := 0
abbrev culTRAIN : Nat := 1
abbrev culINDEX : Nat := 2
abbrev culDELAY : Nat := 3
abbrev culLOCKING : Nat := 4
abbrev culRING : Nat := 5
abbrev culFOLDED : Nat := 6
abbrev culSPLIT : Nat := 7
abbrev culCONFLICT : Nat := 8

def State.culState (s : State) : Nat := s.f CUL_STATUS.STATE
def State.culIndex (s : State) : Nat := s.f CUL_STATUS.INDEX

/-- Is the device on a ring in RING or FOLDED? -/
def State.ringUp (s : State) : Bool := s.b CUL_CTRL.ENABLE && (s.culState = culRING || s.culState = culFOLDED)

/-- Is it the master of that ring? -/
def State.ringMaster (s : State) : Bool := s.ringUp && s.b CUL_STATUS.MASTER

/-- Is it a member of that ring? -/
def State.ringMember (s : State) : Bool := s.ringUp && !s.b CUL_STATUS.MASTER

/-- Enter a ring state. -/
def State.setCul (s : State) (v : Nat) : State := if s.culState = v then s else (s.setF CUL_STATUS.STATE v).pf 450

/-- Report of the ring (R572): bits 3:0 the device concerned, bits 7:4 the port. -/
def State.culReport (s : State) (cls cause dev : Nat) (port : Nat := 0) (addr : Nat := 0) : State := s.report 0x0F cls cause (port * 16 + dev % 16) addr

/-! ## Messages: MTYPE, SRC with DST in the upper half, HOPS, SEQ in two bytes, NBLK, FLAGS, then the payload -/

def msgType (m : List Byte) : Nat := leAt m 0 1
def msgSrc (m : List Byte) : Nat := leAt m 1 1 % 16
def msgDst (m : List Byte) : Nat := leAt m 1 1 / 16
def msgHops (m : List Byte) : Nat := leAt m 2 1
def msgSeq (m : List Byte) : Nat := leAt m 3 2
def msgWrapped (m : List Byte) : Bool := bit (leAt m 6 1) 0
def msgBody (m : List Byte) : List Byte := m.drop 7

/-- The payload length of a type in data blocks; none where it varies (R548, R550, R567). -/
def msgBlocks : Nat → Option Nat
  | 0x01 => some 5 | 0x02 => some 1 | 0x03 => some 1 | 0x10 => some 4 | 0x11 => some 1 | 0x12 => some 1 | 0x20 => some 5 | 0x21 => some 5
  | 0x22 => some 2 | 0x30 => some 1 | 0x34 => some 1 | 0x35 => some 1 | 0x50 => some 1 | 0x51 => some 1 | _ => none

/-- The message types of R567. -/
def msgKnown (t : Nat) : Bool :=
  [0x01, 0x02, 0x03, 0x10, 0x11, 0x12, 0x20, 0x21, 0x22, 0x30, 0x31, 0x32, 0x33, 0x34, 0x35, 0x40, 0x41, 0x50, 0x51].contains t

/-- Is a message one that R543, R544 and R567 let through? -/
def msgOk (m : List Byte) : Bool :=
  msgKnown (msgType m) && decide (msgHops m < 16) && decide (leAt m 5 1 ≤ 160) && decide ((msgBody m).length = 8 * leAt m 5 1) && decide (7 ≤ m.length) &&
  (match msgBlocks (msgType m) with | some n => decide (leAt m 5 1 = n) | none => true)

/-- Pad a payload with zeros to whole blocks (R544). -/
def padBlocks (b : List Byte) : List Byte := b ++ List.replicate ((8 - b.length % 8) % 8) 0

/-- Is a port wrapped, or without a link? -/
def State.portState (s : State) (east : Bool) : Nat := if east then s.f CUL_PORT_E.STATE else s.f CUL_PORT_W.STATE
def State.setPortState (s : State) (east : Bool) (v : Nat) : State :=
  let s1 := if east then s.setF CUL_PORT_E.STATE v else s.setF CUL_PORT_W.STATE v
  if s.portState east = v then s else s1.pf 450

/-- Put a message out of a port: a wrapped port turns it back into the other direction with WRAPPED set (R561); with no port left it is lost. -/
def State.culOut (s : State) (east : Bool) (m : List Byte) : State :=
  if s.portState east = 2 then s.emit (.culvert east m)
  else if s.portState east = 3 ∧ s.portState (!east) = 2 then s.emit (.culvert (!east) (m.take 6 ++ leBytes 1 (leAt m 6 1 / 2 * 2 + 1) ++ m.drop 7))
  else s

/-- A new message of this device: the SEQ of its type goes on (R543). -/
def State.culMake (s : State) (mtype dst : Nat) (body : List Byte) : List Byte × State :=
  let b := padBlocks body
  let q := s.cul.seqs.getD 0 mtype
  (leBytes 1 mtype ++ leBytes 1 (s.culIndex + 16 * dst) ++ leBytes 1 0 ++ leBytes 2 q ++ leBytes 1 (b.length / 8) ++ leBytes 1 0 ++ b,
   { s with cul := { s.cul with seqs := s.cul.seqs.set 0 mtype ((q + 1) % 65536) } })

/-- Broadcast eastbound, kept for 100 µs to be sent again at a fold (R562). -/
def State.culBroadcast (s : State) (mtype : Nat) (body : List Byte) : State :=
  let (m, s) := s.culMake mtype 15 body
  let t := s.now.toNat
  { s with cul := { s.cul with sent := (s.cul.sent.filter (fun (x : Nat × List Byte) => decide (t ≤ x.1 + 100000))) ++ [(t, m)] } }.culOut true m

/-- Send to one device, eastbound unless told otherwise; `wait` keeps the message until it is answered (R562). -/
def State.culSend (s : State) (mtype dst : Nat) (body : List Byte) (east : Bool := true) (wait : Bool := false) : State :=
  let (m, s) := s.culMake mtype dst body
  let s := if wait then { s with cul := { s.cul with owed := s.cul.owed ++ [m] } } else s
  s.culOut east m

/-- The kept unicast of a type to a device is answered. -/
def State.culAnswered (s : State) (mtype dst : Nat) : State :=
  { s with cul := { s.cul with owed := s.cul.owed.filter (fun (m : List Byte) => !(decide (msgType m = mtype) && decide (msgDst m = dst))) } }

/-- Forward a message in its direction: HOPS goes up by one (R545). -/
def State.culForward (s : State) (east : Bool) (m : List Byte) : State :=
  s.culOut east (m.take 2 ++ leBytes 1 (msgHops m + 1) ++ m.drop 3)

/-- FAULT, both ways (R555): the class, the block and the cause of a C3 or C4 that this device raises. -/
def State.culFaultOut (s : State) (r : Report) : State :=
  if !s.b CUL_CTRL.ENABLE || decide (s.culIndex = 15) then s
  else
    let (m, s) := s.culMake 0x12 15 (leBytes 1 s.culIndex ++ leBytes 1 r.cls ++ leBytes 1 r.src ++ leBytes 1 r.cause ++ leBytes 4 r.param.toNat)
    (s.culOut true m).culOut false m

/-- States of a calibration sweep (INS_XCAL_STATUS.STATE). -/
abbrev xcIDLE : Nat := 0
abbrev xcMEASURING : Nat := 1
abbrev xcCOLLECTING : Nat := 2
abbrev xcCOMMITTED : Nat := 3
abbrev xcABANDONED : Nat := 4

/-- A sweep is abandoned (R438): the master tells every device, and nothing of it is applied. -/
def State.xcalAbandon (s : State) (absent : Nat) : State :=
  if !s.cul.xrun then s
  else
    let s := if s.b CUL_STATUS.MASTER then s.culBroadcast 0x35 (leBytes 8 (s.cul.xsweep % 256)) else s
    let s := if s.b CUL_STATUS.MASTER then (s.setF INS_XCAL_STATUS.STATE xcABANDONED).setF INS_XCAL_STATUS.ABSENT absent else s
    { s with cul := { s.cul with xrun := false, xheld := none, xfeats := [], xpages := 0 }, ins := { s.ins with sweepSide := none } }

/-- `n` free bytes. -/
def State.freeBytes (s : State) : Nat → List Byte × State
  | 0 => ([], s)
  | n + 1 =>
    let r := s.drew.freeBytes n
    (BitVec.setWidth 8 s.free :: r.1, r.2)

/-- XCAL_FEATURES (R436, R568): during a sweep a device other than MEAS sends MEAS the features of a page of the swept side. Which features its part of
the page holds and their centroids follow from the cutting of R419, which the spec leaves open: free values. -/
def State.sendFeatures (s : State) (pageId : BitVec 64) (inspected : Bool) : State :=
  if !s.cul.xrun || !inspected || decide (s.cul.xmeas = s.culIndex) then s
  else
    let n := s.free.toNat % 80
    let (b, s) := s.drew.freeBytes (11 * n)
    let entry := fun (i : Nat) => (b.drop (11 * i)).take 3 ++ leBytes 1 0 ++ (b.drop (11 * i + 3)).take 8 ++ leBytes 4 0
    s.culSend 0x31 s.cul.xmeas (leBytes 8 pageId.toNat ++ leBytes 2 n ++ leBytes 1 (s.cul.xsweep % 256) ++ leBytes 5 0 ++ ((List.range n).map entry).flatten)

/-- Devices that are indexed and not absent, other than this one. -/
def State.culOthers (s : State) : List Nat :=
  (List.range 8).filter (fun d => bit (s.f CUL_MEMBERS.PRESENT) d && !bit (s.f CUL_MEMBERS.ABSENT) d && decide (d ≠ s.culIndex))

/-! ## Messages that arrive (R544, R545, R567) -/

/-- Does the device take part in the ring at all? -/
def State.culHears (s : State) : Bool := s.b CUL_CTRL.ENABLE && decide (s.culState ≠ culOFF)

/-- Is a message one of this device's own that is back in the direction in which it was sent: unturned, or turned twice, which takes it over each of the
N − 1 unbroken links twice (R545, R561)? -/
def State.ownBack (s : State) (m : List Byte) : Bool :=
  decide (msgSrc m = s.culIndex) && (!msgWrapped m || decide (2 * s.f CUL_MEMBERS.N ≤ msgHops m + 3))

/-- What becomes of a message of a type: bad, removed, passed on; and whether this device takes it. A message already taken is passed on and not taken again. -/
def State.culTake (s : State) (mtype : Nat) (east : Bool) (m : List Byte) : Bool × State :=
  if !s.culHears || decide (7 ≤ m.length ∧ msgType m ≠ mtype) then (false, s)
  else if !msgOk m then (false, s.satInc CUL_ERR.BAD_MSG)
  else if s.ownBack m then (false, s)
  else
    let key := (msgSrc m, msgType m, msgSeq m)
    let mine := msgDst m = s.culIndex
    let seen := s.cul.seen.contains key
    let s := if mine then s else s.culForward east m
    if !(mine || msgDst m = 15) || decide (msgSrc m = s.culIndex) || seen then (false, s)
    else (true, { s with cul := { s.cul with seen := (key :: s.cul.seen).take 256 } })

end Sys2Proof.Machine
end

