-- ==== Sys2Proof/Machine/PageOps.lean ====
section
/-! DEFINITION. Pages, frames and page events (spec/02) as operations: the checks of R53, committing, claiming frames, final states. -/
namespace Sys2Proof.Machine

/-! ## Descriptors -/

/-- The fields of a 64-byte page descriptor (R50). -/
def parsePage (d : List Byte) : PageDesc :=
  { pageId := BitVec.ofNat 64 (leAt d 0 8), opcode := leAt d 8 1, speed := leAt d 9 1, stations := BitVec.ofNat 16 (leAt d 10 2),
    inspect := BitVec.ofNat 8 (leAt d 12 1), format := leAt d 13 1, toneSet := leAt d 14 1, screenSet := leAt d 15 1,
    length := leAt d 16 4, gap := leAt d 20 2, flags := BitVec.ofNat 16 (leAt d 22 2), srcAddr := BitVec.ofNat 64 (leAt d 24 8),
    srcLen := leAt d 32 4, jobId := BitVec.ofNat 32 (leAt d 36 4), hostTag := BitVec.ofNat 64 (leAt d 40 8),
    resvZero := decide (leAt d 48 12 = 0), checkOk := decide (crc32c (d.take 60) = BitVec.ofNat 32 (leAt d 60 4)) }

/-- The entries of a source table (R51). -/
def parseSource : Nat → List Byte → List SourceEntry
  | 0, _ => []
  | n + 1, b => { addr := BitVec.ofNat 64 (leAt b 0 8), len := leAt b 8 4, layers := leAt b 12 1, resvZero := decide (leAt b 13 3 = 0) }
      :: parseSource n (b.drop 16)

/-- Stations named by a page, in rising order. -/
def stationList (m : BitVec 16) : List Nat := (List.range 12).filter (fun st => m.getLsbD st)

/-- FLAGS.LAST, NO_SPOOL and REPRINT_ON_SPOIL. -/
def PageDesc.last (d : PageDesc) : Bool := d.flags.getLsbD 0
def PageDesc.noSpool (d : PageDesc) : Bool := d.flags.getLsbD 1
def PageDesc.reprintOnSpoil (d : PageDesc) : Bool := d.flags.getLsbD 2

/-- Is the page inspected: INSPECT bit 0 or 1? -/
def PageDesc.inspected (d : PageDesc) : Bool := d.inspect.getLsbD 0 || d.inspect.getLsbD 1

/-! ## Weir and engine conditions -/

/-- Is any weir condition active (THM_WEIR.ACTIVE)? -/
def State.weirActive (s : State) : Bool := s.f THM_WEIR.ACTIVE ≠ 0

/-- The class that this device's weir orders for the next page gap: the slowest asked for; THERMAL orders only when its grace time has ended (R34, R621). -/
def State.ownOrder (s : State) : Option Nat :=
  let l := s.scn.asks.filter (fun e => decide (e.1 ≠ 0) || s.pwr.ordered)
  if l.isEmpty then none else some (l.foldl (fun (a : Nat) e => max a e.2) 0)

/-- The class that the weir orders; on a ring the master counts every member's order too (R554). -/
def State.weirOrder (s : State) : Option Nat :=
  let others := if s.ringMaster then (s.culOthers.map (fun d => (s.cul.stats.getD {} d).weir)).filter (fun c => decide (c < 5)) else []
  let l := (match s.ownOrder with | some c => [c] | none => []) ++ others
  if l.isEmpty then none else some (l.foldl (fun (a : Nat) c => max a c) 0)

/-- The fastest class that the weir's orders leave. -/
def State.weirFloor (s : State) : Nat := s.weirOrder.getD 0

/-- The class in force (SCN_STATE.CLASS_NOW). -/
def State.classNow (s : State) : Nat := s.f SCN_STATE.CLASS_NOW

/-- Is the engine settled at a class (SCN_STATE.STATE = 2)? -/
def State.settled (s : State) : Bool := s.f SCN_STATE.STATE = 2

/-- Is the engine ramping between speed classes? -/
def State.ramping (s : State) : Bool := s.f SCN_STATE.STATE = 1

/-- Sheet mode (object 0x2101:01). -/
def State.sheetMode (s : State) : Bool := s.obj 0x2101 1 = 1

/-- Does the gap of object 0x2101:03 fall below what sheet mode needs for the trigger slew (R326)? -/
def State.gapBelowSlew (s : State) : Bool :=
  let slew := max 1 (s.f SCN_CTRL.SLEW)
  decide (s.obj 0x2101 3 < 64 * (2 + (512 + slew - 1) / slew))

/-- Is a refusal of R97, R147 or R326 standing, or do the DRAM regions of R28 not fit (check 4 of R53)? -/
def State.configInvalid (s : State) (prints : Bool) : Bool :=
  !s.boot.dramOk ||
  (prints && ((s.pages.refuse97 && s.sheetMode && decide (s.obj 0x2101 4 < 2560)) || s.b SIP_STATUS.ENGINE_SHORT ||
    (s.pages.refuse326 && s.sheetMode && s.gapBelowSlew)))

/-! ## The checks of R53 -/

/-- Block rows of a page's host raster (R212) and its furrows (R278). -/
def PageDesc.rows (d : PageDesc) : Nat := (d.length + 15) / 16
def PageDesc.furrows (d : PageDesc) : Nat := (d.length + 63) / 64

/-- The length that check 2 asks of a station stream (R224, R225, R257). -/
def streamLenOk (d : PageDesc) (n : Nat) : Bool :=
  match d.format with
  | 0 => n = d.rows * 60000
  | 1 => n = d.rows * 120000
  | 2 => decide (4 + 4 * d.furrows ≤ n ∧ n ≤ 4 + 4 * d.furrows + d.rows * 120000)
  | _ => decide (48 ≤ n ∧ (n - 32) % 16 = 0 ∧ n ≤ 32 + 16 * 65536)

/-- Field ranges and reserved bits of a PRINT (check 2), with its source table. -/
def printRangesOk (s : State) (d : PageDesc) (src : Option (List SourceEntry)) : Bool :=
  let n := (stationList d.stations).length
  d.resvZero && d.pageId ≠ 0 && (d.speed ≤ 4 || d.speed = 0xFF) && decide (1 ≤ n) && decide (d.stations.toNat < 4096) &&
  decide (d.inspect.toNat < 8) && decide (d.format ≤ 3) && decide (d.toneSet ≤ 15) && decide (d.screenSet ≤ 15) &&
  decide (1024 ≤ d.length ∧ d.length ≤ 262144) && decide (s.obj 0x2101 3 ≤ d.gap) && decide (d.flags.toNat < 8) &&
  !(d.noSpool && d.reprintOnSpoil) && decide (d.srcAddr.toNat % 64 = 0) && decide (d.srcLen = 16 * n) &&
  match src with
  | none => false
  | some es => es.all (fun e => e.resvZero && streamLenOk d e.len && (if d.format = 3 then decide (1 ≤ e.layers ∧ e.layers ≤ 4) else decide (e.layers = 1)))

/-- A REISSUE, RELEASE or CANCEL: every field but PAGE_ID, OPCODE, FLAGS.LAST and CHECK is zero (R52). -/
def namedRangesOk (d : PageDesc) : Bool :=
  d.resvZero && d.pageId ≠ 0 && d.speed = 0 && d.stations = 0 && d.inspect = 0 && d.format = 0 && d.toneSet = 0 && d.screenSet = 0 &&
  d.length = 0 && d.gap = 0 && decide (d.flags.toNat < 2) && d.srcAddr = 0 && d.srcLen = 0 && d.jobId = 0 && d.hostTag = 0

/-- Do the fuses permit what a PRINT names (R9)? -/
def featuresOk (s : State) (d : PageDesc) : Bool :=
  (stationList d.stations).all (fun st => s.stationOn st) && (d.speed = 0xFF || decide (s.variant.fastest ≤ d.speed)) &&
  !(d.inspect.getLsbD 1 && !bit s.variant.sides 1) && !(d.format = 3 && !s.variant.composer)

/-- The page a function holds under an identifier, if any: also one that a reset of the function has muted, until it is released (R55). -/
def State.findPage (s : State) (fn : Nat) (id : BitVec 64) : Option Page :=
  s.pages.pages.find? (fun p => p.fn = fn && p.desc.pageId = id)

/-- Is the page in a final state? -/
def Page.isFinal (p : Page) : Bool := !p.active

/-- Does the page's final state let a PRINT replace it (R55: SPOILED or DROPPED)? -/
def Page.replaceable (p : Page) : Bool :=
  match p.phase with
  | .final c _ => c = 0x10 || c = 0x11
  | _ => false

/-- Check 7: the identifier rules in the order of R57. -/
def idCheck (s : State) (fn : Nat) (d : PageDesc) : Option Nat :=
  let held := s.findPage fn d.pageId
  let copy := s.findCopy fn d.pageId
  if d.opcode ≠ 1 ∧ held.isNone ∧ copy.isNone then some 0x27
  else if d.opcode = 1 then
    match held with
    | some p => if p.replaceable then none else some 0x26
    | none => if copy.isSome then some 0x26 else none
  else if d.opcode = 2 then
    if held.any (fun p => p.active) then some 0x26
    else if s.copyComplete fn d.pageId then none else some 0x28
  else none

/-- Check 8: spool space for a PRINT without NO_SPOOL (R188, R204). The space of a copy that the PRINT replaces under R55 does not count as free yet
(DESIGN CHOICE, unsafe: the spec does not say whether it does; assumption log 96). -/
def spoolOk (s : State) (fn : Nat) (d : PageDesc) (src : List SourceEntry) : Bool :=
  d.noSpool || (!s.splRefused && s.canAlloc fn (copyExtents d.srcLen src) && decide (s.f SPL_PAGES_HELD.PAGES < 1048576))

/-- The checks of R53 in their order: the status of the first failure. -/
def descCheck (s : State) (fn : Nat) (d : PageDesc) (src : Option (List SourceEntry)) : Option Nat :=
  if ¬ d.checkOk then some 0x24
  else if ¬ (if d.opcode = 1 then printRangesOk s d src else if d.opcode ≤ 4 ∧ 1 < d.opcode then namedRangesOk d else false) then some 0x25
  else if d.opcode = 1 ∧ ¬ featuresOk s d then some 0x20
  else if s.configInvalid (d.opcode ≤ 2) then some 0x21
  else if d.opcode = 1 ∧ s.weirActive ∧ d.speed ≠ 0xFF ∧ d.speed < s.classNow then some 0x22
  else if ¬ s.awake then some 0x23
  else if (d.opcode = 2 ∨ d.opcode = 3) ∧ s.b SPL_STATUS.RECOVERING then some 0x23
  else match idCheck s fn d with
    | some c => some c
    | none =>
      if d.opcode = 1 ∧ ¬ spoolOk s fn d (src.getD []) then some 0x29
      else if d.opcode = 4 ∧ ¬ (s.findPage fn d.pageId).any (fun p => p.phase = .waiting || p.phase = .claimed) then some 0x2A
      else none

/-! ## Page events (R77 to R79) -/

/-- Is a status always delivered, or enabled in object 0x2101:08 (R78)? -/
def State.eventOn (s : State) (p : Page) (status : Nat) : Bool :=
  if status = 1 ∨ status = 2 ∨ status = 7 ∨ (status = 3 ∧ p.desc.inspected) then bit (s.obj 0x2101 8) status else true

/-- Deliver a page event on the submitting function's ring (R77); a muted page delivers nothing. -/
def State.pageEvent (s : State) (p : Page) (status reason : Nat) (station : Nat := 0xFF) : State :=
  if p.muted || !s.eventOn p status then s
  else s.post p.fn { pageId := p.desc.pageId, hostTag := p.desc.hostTag, stamp := s.now, status := status, reason := reason,
                     station := station, reprint := p.auto }

/-- The completion entry of a descriptor itself: ACCEPTED or a refusal, with the tag of that descriptor (R111). -/
def State.descEvent (s : State) (fn : Nat) (d : PageDesc) (status : Nat) : State :=
  s.post fn { pageId := d.pageId, hostTag := d.hostTag, stamp := s.now, status := status }

/-- Change a page. -/
def State.modPage (s : State) (seq : Nat) (g : Page → Page) : State :=
  { s with pages := { s.pages with pages := s.pages.pages.map (fun p => if p.seq = seq then g p else p) } }

/-- The page of a commit number. -/
def State.page? (s : State) (seq : Nat) : Option Page := s.pages.pages.find? (fun p => p.seq = seq)

/-- Forget a page. -/
def State.dropPage (s : State) (seq : Nat) : State :=
  { s with pages := { s.pages with pages := s.pages.pages.filter (fun p => p.seq ≠ seq) } }

/-- The frame that carries a page. -/
def State.frameOf (s : State) (seq : Nat) : Option Frame := s.pages.frames.find? (fun f => f.page = some seq)

/-- Change the frame that carries a page. -/
def State.modFrame (s : State) (seq : Nat) (g : Frame → Frame) : State :=
  { s with pages := { s.pages with frames := s.pages.frames.map (fun f => if f.page = some seq then g f else f) } }

/-! ## Offsets and frames -/

/-- O[st]: the working registration start offset (R46, R321). -/
def State.ofs (s : State) (st : Nat) : Nat := s.wf (SCN_OFS.LINES st)

/-- The station with the smallest offset among a list; the lower index where two are equal (R47). -/
def State.firstStation (s : State) : List Nat → Option Nat
  | [] => none
  | st :: t =>
    match s.firstStation t with
    | none => some st
    | some u => if s.ofs u < s.ofs st then some u else some st

/-- All enabled stations. -/
def State.enabledStations (s : State) : List Nat := List.range s.variant.stations

/-- The web line at which a frame's top-of-form, at `tof`, reaches a station: the offset in force with the window's 4 − w (R46, R370). -/
def State.expoAt (s : State) (tof st : Nat) : Nat := tof + s.ofs st + 4 - s.f (EXP_WIN.WORK st)

/-- The first latch line of a frame at T whose page names the stations (R46, R47). -/
def State.latchLine (s : State) (tof : Nat) (sts : List Nat) : Nat :=
  (match s.firstStation sts with
    | some st => s.expoAt tof st
    | none => tof) - 2048

/-- The line at which a frame's top-of-form reaches a station; in sheet mode the sheet's remainder is taken off (R323, R370). -/
def State.topAt (s : State) (f : Frame) (st : Nat) : Nat := s.expoAt f.tof st - f.remain

/-- Round up to a multiple of 64 lines (R45). -/
def up64 (n : Nat) : Nat := (n + 63) / 64 * 64

/-- The event of a blank frame: C0 after LAST, while ramping, or after a cancelled or dropped page; otherwise a C2 counted in object
0x2101:0B (R63, R737). -/
def State.blankEvent (s : State) (tof : Nat) (c0 : Bool) : State :=
  if c0 then s.report 0x01 0 0x41 0 tof
  else (s.report 0x01 2 0x41 0 tof).setObj 0x2101 0x0B ((s.obj 0x2101 0x0B + 1) % 2 ^ 32)

/-- SCHEDULE of a frame, broadcast by the master (R558, R568). -/
def State.sendSchedule (s : State) (id t latch pitch status rem frame : Nat) : State :=
  s.culBroadcast 0x21 (leBytes 8 id ++ leBytes 8 t ++ leBytes 8 latch ++ leBytes 4 pitch ++ leBytes 1 s.classNow ++ leBytes 1 status ++
    leBytes 2 rem ++ leBytes 4 frame ++ leBytes 4 0)

/-- Make the next unclaimed frame blank (R62, R63); on a ring the master schedules it on every device (R557, R558). -/
def State.blankFrame (s : State) : State :=
  match s.pages.nextTof with
  | none => s
  | some t =>
    let pitch := s.obj 0x2101 2
    let c0 := s.pages.lastWasLast || s.ramping || s.pages.followsDrop
    let f : Frame := { tof := t, len := pitch, pitch := pitch, blank := true, latched := true, firstLatch := s.latchLine t s.enabledStations }
    let s := { s with pages := { s.pages with frames := s.pages.frames ++ [f], nextTof := some (t + pitch), followsDrop := false } }
    let s := if s.ringMaster then
        { s with cul := { s.cul with frames := s.cul.frames + 1 } }.sendSchedule 0 t f.firstLatch pitch 0 0 (s.cul.frames + 1)
      else s
    s.blankEvent t c0

/-- The class a page asks for that is not in force (R69); a weir condition holds the line at its class (R70). -/
def State.wantsClass (s : State) (p : Page) : Option Nat :=
  if p.desc.speed = 0xFF then none
  else
    let c := max p.desc.speed s.weirFloor
    if c = s.classNow then none else some c

/-- Give the next unclaimed frame to a page (R48, R61). -/
def State.claimFrame (s : State) (p : Page) (t : Nat) : State :=
  let pitch := up64 (p.desc.length + p.desc.gap)
  let f : Frame := { tof := t, len := p.desc.length, pitch := pitch, page := some p.seq,
                     firstLatch := s.latchLine t (stationList p.desc.stations) }
  let s := { s with pages := { s.pages with frames := s.pages.frames ++ [f], nextTof := some (t + pitch),
                                            lastWasLast := p.last, followsDrop := false } }
  s.modPage p.seq (fun q => { q with phase := .claimed })

/-- The first committed page that has no frame yet. -/
def State.firstWaiting (s : State) : Option Page := s.pages.pages.find? (fun p => p.phase = .waiting)

/-- Let waiting pages claim frames in commit order (R60, R61): while the line is settled in web mode, the first waiting page takes the next
unclaimed frame if its commit line, or the present line where the page waited for a class (R69), is before that frame's first latch line;
otherwise that frame prints blank and the page is tested on the frame after it. A page that asks for another class waits for it. -/
def State.claimAll (s : State) : Nat → State
  | 0 => s
  | n + 1 =>
    match s.firstWaiting, s.pages.nextTof with
    | some p, some t =>
      if !s.inRun || !s.settled || s.sheetMode then s
      else match s.wantsClass p with
        | some c => { s with pages := { s.pages with wantClass := some c } }
        | none =>
          let l := s.latchLine t (stationList p.desc.stations)
          if max (p.commitLine.getD 0) s.scn.webLine + 1 ≤ l then (s.claimFrame p t).claimAll n
          else s.blankFrame.claimAll n
    | _, _ => s

/-! ## Frames of the line (R556 to R560) -/

/-- Smallest offset over the parts of a line page. -/
def LinePage.minOfs (l : LinePage) : Nat :=
  match l.parts with
  | [] => 0
  | p :: t => t.foldl (fun (a : Nat) q => min a q.minOfs) p.minOfs

/-- The first latch line of a line page at T (R46, R47, R557). -/
def LinePage.latchAt (l : LinePage) (t : Nat) : Nat := t + l.minOfs - 2048

/-- The pitch of a line page: that of the first part taken (R48, R568). -/
def LinePage.pitch (l : LinePage) : Nat := match l.parts with | [] => 64 | p :: _ => up64 (p.len + p.gap)

/-- Is a class permitted: by the fuses (R10), and on a ring's master by every member (R11, R553)? -/
def State.permits (s : State) (c : Nat) : Bool :=
  decide (s.variant.fastest ≤ c) && (!s.ringMaster || bit (s.f CUL_LINE.CLASSES) c)

/-- The slowest class that a part of a line page names (R554); none where no part names one. -/
def LinePage.named (l : LinePage) : Option Nat :=
  match (l.parts.map (fun p => p.speed)).filter (fun c => decide (c ≠ 0xFF)) with
  | [] => none
  | c :: t => some (t.foldl (fun (a : Nat) x => max a x) c)

/-- Does a line page name a class that the line does not permit (R10, R11)? Its request is refused, and it prints at the class in force. -/
def State.lineRefused (s : State) (l : LinePage) : Bool := l.named.any (fun c => !s.permits c)

/-- The class that a line page asks for and that is not in force: the slowest named by any part (R69, R70, R554), where the line permits it (R11). -/
def State.lineClass (s : State) (l : LinePage) : Option Nat :=
  match l.named with
  | none => none
  | some n =>
    let c := max n s.weirFloor
    if !s.permits n || c = s.classNow then none else some c

def State.modLine (s : State) (id : BitVec 64) (g : LinePage → LinePage) : State :=
  { s with cul := { s.cul with lines := s.cul.lines.map (fun l => if l.pageId = id then g l else l) } }

/-- The committed part of a line page that this device holds and that has no frame. -/
def State.partPage (s : State) (id : BitVec 64) : Option Page := s.pages.pages.find? (fun p => p.desc.pageId = id && p.phase = .waiting)

/-- Lay down a scheduled frame on this device (R558): its part, where one is committed, is claimed. -/
def State.layFrame (s : State) (id : BitVec 64) (t latch pitch rem : Nat) : State :=
  let page := if id = 0 then none else (s.partPage id).filter (fun p => decide (p.commitLine.getD 0 + 1 ≤ latch))
  let f : Frame := { tof := t, len := (page.map (fun p => p.desc.length)).getD pitch, pitch := pitch, page := page.map (fun p => p.seq),
                     blank := page.isNone, firstLatch := latch, remain := rem, line := some id, fixed := decide (id = 0) }
  let s := { s with pages := { s.pages with frames := s.pages.frames ++ [f] } }
  match page with
  | some p => s.modPage p.seq (fun q => { q with phase := .claimed })
  | none => s

/-- The master claims a frame at T for a line page and broadcasts its SCHEDULE (R557, R558); a sheet's remainder is taken off the offsets (R323). -/
def State.claimLine (s : State) (l : LinePage) (t rem : Nat) : State :=
  let n := s.cul.frames + 1
  let s := { s with cul := { s.cul with frames := n } }.modLine l.pageId (fun x => { x with tof := some t, latch := x.latchAt t - rem, frame := n })
  let s := s.layFrame l.pageId t (l.latchAt t - rem) l.pitch rem
  let s := { s with pages := { s.pages with lastWasLast := l.parts.any (fun p => p.last), followsDrop := false } }
  s.sendSchedule l.pageId.toNat t (l.latchAt t - rem) l.pitch 0 rem n

/-- Line pages claim frames in the order in which the master starts them (R557). -/
def State.lineClaims (s : State) : Nat → State
  | 0 => s
  | n + 1 =>
    match s.cul.lines.find? (fun l => l.tof.isNone && !l.late), s.pages.nextTof with
    | some l, some t =>
      if !s.inRun || !s.settled || s.sheetMode then s
      else match s.lineClass l with
        | some c => { s with pages := { s.pages with wantClass := some c } }
        | none =>
          let line := match l.parts.head? with | some p => p.line.getD 0 | none => 0
          if max line s.scn.webLine + 1 ≤ l.latchAt t then
            let s := (if s.lineRefused l then s.setF SCN_STATE.REFUSE 1 else s).claimLine l t 0
            { s with pages := { s.pages with nextTof := some (t + l.pitch) } }.lineClaims n
          else s.blankFrame.lineClaims n
    | _, _ => s

/-- Let the waiting pages claim their frames: on a ring, line pages at the master alone (R556, R557). -/
def State.claims (s : State) : State :=
  if s.ringMember then s
  else if s.ringMaster then s.lineClaims (2 * (s.cul.lines.filter (fun l => l.tof.isNone)).length)
  else s.claimAll (2 * (s.pages.pages.filter (fun p => p.phase = .waiting)).length)

/-- PART_COMMIT of a page (R556, R568). -/
def State.partOf (s : State) (p : Page) : CulPart :=
  { dev := s.culIndex, pageId := p.desc.pageId, stamp := s.now.toNat, line := p.commitLine,
    minOfs := match s.firstStation (stationList p.desc.stations) with | some st => s.ofs st | none => 0,
    len := p.desc.length, gap := p.desc.gap, speed := p.desc.speed, last := p.last }

/-- The bytes of PART_COMMIT (R568). -/
def CulPart.bytes (p : CulPart) (again : Bool) : List Byte :=
  leBytes 8 p.pageId.toNat ++ leBytes 8 p.stamp ++ leBytes 8 (p.line.getD (2 ^ 64 - 1)) ++ leBytes 4 p.minOfs ++ leBytes 4 p.len ++ leBytes 2 p.gap ++
  leBytes 1 p.speed ++ leBytes 1 ((if p.last then 1 else 0) + (if again then 2 else 0)) ++ leBytes 4 0

/-- A part committed on the ring: the master's own waits with the others; a member sends PART_COMMIT, and takes a frame scheduled for it whose
first latch line lies after its commit line (R556 to R558). -/
def State.commitPart (s : State) (p : Page) : State :=
  let x := s.partOf p
  if s.ringMaster then { s with cul := { s.cul with parts := s.cul.parts ++ [x] } }
  else
    let s := s.culSend 0x20 0 (x.bytes false) true true
    match s.pages.frames.find? (fun f => f.line = some p.desc.pageId && !f.fixed && f.page.isNone && !f.latched && decide (p.commitLine.getD 0 + 1 ≤ f.firstLatch)) with
    | some f =>
      let put : Frame → Frame := fun g => if g.tof = f.tof then { g with page := some p.seq, blank := false, len := p.desc.length } else g
      let s := { s with pages := { s.pages with frames := s.pages.frames.map put } }
      s.modPage p.seq (fun q => { q with phase := .claimed })
    | none => s

/-- The commit line at this instant (R58): outside RUN, before the first frame. -/
def State.commitLine (s : State) : Option Nat := if s.inRun then some s.scn.webLine else none

/-! ## Streams: the raster of committed pages on its way to the rings -/

/-- Put a job at the end of a channel's device-driven descriptors. -/
def State.sipPush (s : State) (ch : Nat) (j : SipJob) (d : SipDesc) : State :=
  let c := s.sip.chans.getD {} ch
  { s with sip := { s.sip with chans := s.sip.chans.set {} ch { c with todo := c.todo ++ [(j, d)] } } }

/-- Channels of a role owned by a function, in rising order. -/
def State.channelsOf (s : State) (role fn : Nat) : List Nat :=
  (List.range 64).filter (fun ch => s.f (SIP_CH_ASSIGN.ROLE ch) = role && s.f (SIP_CH_ASSIGN.FN ch) = fn)

/-- The channel after the last one used, in rising order and around (R149). -/
def nextChannel (chs : List Nat) (last : Option Nat) : Option Nat :=
  match last with
  | none => chs.head?
  | some l => ((chs.filter (fun c => l < c)).head?).orElse (fun _ => chs.head?)

/-- Give a device-driven descriptor to the next channel of a role and owner; `key` counts what goes around together: a function's streams, or 16 plus the
role. -/
def State.pushJob (s : State) (role own key : Nat) (j : SipJob) (d : SipDesc) : State :=
  match nextChannel (s.channelsOf role own) (s.sip.ingestLast.get? key) with
  | none => s
  | some ch => ({ s with sip := { s.sip with ingestLast := s.sip.ingestLast.put key ch } } : State).sipPush ch j d

/-- Give one station stream to an INGEST channel of the owner (R144, R149): a PRINT's from the host, a REISSUE's from the staging region. -/
def State.pushStream (s : State) (p : Page) (st : Nat) (e : SourceEntry) : State :=
  let copy := if p.reissued || p.desc.noSpool then none else (s.findCopy p.fn p.desc.pageId).map (fun c => c.key)
  let x : Stream := { page := p.seq, st := st, len := e.len, layers := e.layers, copy := copy }
  let s := { s with pages := { s.pages with streams := s.pages.streams ++ [x] } }
  if p.reissued then s.pushJob 1 p.fn p.fn (.reissue p.seq st) { count := e.len, spaces := 5 }
  else s.pushJob 1 p.fn p.fn (.ingest p.seq st) { src := e.addr.toNat, count := e.len, spaces := 4 }

/-- Change every channel's device-driven descriptors that wait: keep those of `keep`. -/
def State.keepJobs (s : State) (keep : SipJob → Bool) : State :=
  { s with sip := { s.sip with chans := s.sip.chans.map (fun e => (e.1, { e.2 with todo := e.2.todo.filter (fun t => keep t.1) })) } }

/-- Bring a copy's extents back into the staging region on SPOOL channels (R144). -/
def State.stageCopy (s : State) (c : Copy) : State :=
  let s := (s.keepJobs (fun j => match j with | .stage k _ => k ≠ c.key | _ => true)).modCopy c.key (fun c => { c with staged := [] })
  (List.range c.extents).foldl (fun s i => s.pushJob 3 0 19 (.stage c.key i) { src := i * 65536, count := c.extLength i, spaces := 7 }) s

/-- Block rows of furrow `k` (R212, R278). -/
def PageDesc.furrowRows (d : PageDesc) (k : Nat) : Nat := min 4 (d.rows - 4 * k)

/-- Bytes of a block row of FORMAT 0 or 1. -/
def PageDesc.rowBytes (d : PageDesc) : Nat := if d.format = 1 then 120000 else 60000

/-- OFFSET[k] of a FORMAT 2 stream; past the last, the stream's length (R225). -/
def lOffset (d : PageDesc) (x : Stream) (k : Nat) : Nat := if k < d.furrows then leAt x.data (4 + 4 * k) 4 else x.len

/-- First byte of furrow `k`'s source in its stream. -/
def sourceAt (d : PageDesc) (x : Stream) (k : Nat) : Nat :=
  if d.format = 2 then (if k = 0 then 0 else min (lOffset d x k) x.len) else if d.format = 3 then 0 else 4 * k * d.rowBytes

/-- End of furrow `k`'s source in its stream. An OFFSET past the stream's end fails when the furrow is decoded (R225, R227). -/
def sourceEnd (d : PageDesc) (x : Stream) (k : Nat) : Nat :=
  if d.format = 2 then min (lOffset d x (k + 1)) x.len else if d.format = 3 then x.len else (4 * k + d.furrowRows k) * d.rowBytes

/-- The stream of a page at a station. -/
def State.streamOf (s : State) (seq st : Nat) : Option Stream := s.pages.streams.find? (fun x => x.page = seq && x.st = st)

/-- Bytes that a station's raster ring holds: landed and still needed by the Flumes or by the inspection reference, and the index tables of composed
furrows (R28, R267, R411). -/
def State.ringHeld (s : State) (st : Nat) : Nat :=
  s.pages.streams.foldl (fun (a : Nat) (x : Stream) => if x.st = st then a + (x.data.length - x.used) else a) 0 +
  s.cmp.fills.foldl (fun (a : Nat) (x : Fill) => if x.st = st then a + 48000 * x.tables.length else a) 0

/-- Bytes up to `b` of a stream are no longer needed. -/
def State.useStream (s : State) (seq st b : Nat) : State :=
  { s with pages := { s.pages with streams := s.pages.streams.map (fun (x : Stream) =>
      if x.page = seq && x.st = st then { x with used := max x.used (min b x.data.length) } else x) } }

/-- Free the oldest furrow that only the inspection reference still holds (R411): none where no ring data is held so. -/
def State.freeHeld (s : State) (st : Nat) : Option State :=
  ((s.pages.streams.filter (fun (x : Stream) => x.st = st)).filterMap (fun (x : Stream) =>
    match s.page? x.page with
    | none => none
    | some p =>
      let k := ((List.range p.desc.furrows).find? (fun k => decide (x.used < sourceEnd p.desc x k))).getD p.desc.furrows
      if p.desc.inspected && decide (k < s.flm.next.getD 0 (p.seq * 16 + st)) &&
          !s.flm.furrows.any (fun f => f.page = p.seq && f.st = st && f.k = k && f.flume.isSome)
      then some (s.useStream x.page st (sourceEnd p.desc x k)) else none)).head?

/-- Make room for `n` bytes in a station's raster ring by freeing held furrows, oldest first (R411). -/
def State.ringRoom (s : State) (st n : Nat) : Nat → State
  | 0 => s
  | fuel + 1 =>
    if s.ringHeld st + n ≤ s.boot.ring * 1048576 then s
    else match s.freeHeld st with
      | some t => t.ringRoom st n fuel
      | none => s

/-- Start the transfers of a committed page, in rising station order; a function without an INGEST channel records NO_INGEST (R149). -/
def State.startStreams (s : State) (p : Page) : State :=
  let s := if (s.channelsOf 1 p.fn).isEmpty then s.report 0x02 0 0x40 (p.fn * 256) (idAddr p.desc.pageId) else s
  let s := match s.findCopy p.fn p.desc.pageId with
    | some c => if p.reissued then s.stageCopy c else s
    | none => s
  ((stationList p.desc.stations).zip p.src).foldl (fun s x => s.pushStream p x.1 x.2) s

/-- Forget a page's streams and the transfers that feed them. -/
def State.dropStreams (s : State) (seq : Nat) : State :=
  let s := { s with pages := { s.pages with streams := s.pages.streams.filter (fun x => x.page ≠ seq) } }
  s.keepJobs (fun j => match j with | .ingest p _ => p ≠ seq | .reissue p _ => p ≠ seq | _ => true)

/-! ## Committing (R58) -/

/-- Commit a page: give it the next commit number, start its transfers and let it claim a frame. -/
def State.commitPage (s : State) (p : Page) : State :=
  let p := { p with seq := s.pages.nextSeq, commitLine := s.commitLine, phase := .waiting }
  let s := { s with pages := { s.pages with pages := s.pages.pages ++ [p], nextSeq := s.pages.nextSeq + 1 } }
  let s := s.startStreams p
  if s.ringUp then (s.commitPart p).claims else s.claims

/-! ## Final states (R79 to R85) -/

/-- Carry out a RELEASE: free the extents, deliver RELEASED and forget the page (R84, R85). RELEASED waits for an open write (R192). -/
def State.releaseNow (s : State) (p : Page) : State :=
  match s.findCopy p.fn p.desc.pageId with
  | some c =>
    if s.copyBusy c.key then s.modCopy c.key (fun c => { c with releaseWait := true })
    else ((((s.freeCopy p.fn p.desc.pageId).freeAudits p.fn p.desc.pageId).pageEvent p 0x05 0).dropPage p.seq).syncQueue p.fn
  | none => (((s.freeAudits p.fn p.desc.pageId).pageEvent p 0x05 0).dropPage p.seq).syncQueue p.fn

/-- Does the page get an automatic reprint at this final state (R82, R87)? A page whose copy is lost has nothing to be printed from (R56; log 16). -/
def State.reprints (s : State) (p : Page) (code reason : Nat) : Bool :=
  p.desc.reprintOnSpoil && !p.muted && !p.releaseReq &&
  ((code = 4 && reason = 2) || (code = 0x10 && reason ≠ 4 && reason ≠ 8)) &&
  decide (p.reprints < s.obj 0x2101 7) && (s.findCopy p.fn p.desc.pageId).any (fun c => c.stage ≠ .incomplete)

/-- Write a page's final state (R77, R79): the event on its ring, or a record where its function was reset (R129); then the automatic reprint
(R82) or the RELEASE that waits for it (R85). A page already in a final state gets no second one. Object 0x2101:0A counts SPOILED and VERDICT SPOIL
(R96; DEDUCED: R80 names both as spoiled; assumption log 39). -/
def State.finalState (s : State) (seq code reason : Nat) (station : Nat := 0xFF) : State :=
  match s.page? seq with
  | none => s
  | some p =>
    if p.isFinal then s
    else
      let s := if code = 0x10 ∨ (code = 4 ∧ reason = 2) then s.setObj 0x2101 0x0A ((s.obj 0x2101 0x0A + 1) % 2 ^ 32) else s
      let s := if p.muted then
          s.record 0x01 0x20 5 (p.desc.pageId.toNat) (p.desc.pageId.toNat / 2 ^ 32) (code + reason * 2 ^ 8 + station * 2 ^ 16) p.fn
        else s.pageEvent p code reason station
      let s := (s.modPage seq (fun q => { q with phase := .final code reason })).syncQueue p.fn
      if s.reprints p code reason then
        let q := { p with auto := true, reprints := p.reprints + 1, reissued := true, spoil := none, latchedSt := 0, tofSt := 0, doneSt := 0,
                          verdicts := [], feedReq := false }
        let s := s.dropPage seq
        let s := s.pageEvent q 0x07 0
        (s.commitPage q).syncQueue p.fn
      else if p.releaseReq then s.releaseNow { p with muted := p.muted && !p.heard }
      else s

/-- Spoil a page (R74, R80): the rest of it prints blank, the C2 is reported with the spoil reason as its cause, and the final state is SPOILED. -/
def State.spoilPage (s : State) (seq reason src param : Nat) (station : Nat := 0xFF) (addr : Option Nat := none)
    (cause : Option Nat := none) : State :=
  match s.page? seq with
  | none => s
  | some p =>
    if p.isFinal || p.spoil.isSome then s
    else
      let s := s.report src 2 (cause.getD reason) param (addr.getD (idAddr p.desc.pageId))
      let s := s.modPage seq (fun q => { q with spoil := some reason })
      let s := s.modFrame seq (fun f => { f with blank := true })
      s.finalState seq 0x10 reason station

/-- Would a blank frame placed now follow the frame of a page that goes: no page has claimed a frame behind it (R63)? -/
def State.followsGone (s : State) (seq : Nat) : Bool :=
  match s.frameOf seq with
  | none => true
  | some f => s.pages.followsDrop || !s.pages.frames.any (fun g => decide (f.tof < g.tof) && g.page.isSome)

/-- On a ring's master, a part of this device's own whose sheet is not fed yet leaves its line page (R95). -/
def State.withdrawPart (s : State) (id : BitVec 64) : State :=
  if !s.ringMaster then s
  else
    let mine := fun (x : CulPart) => x.dev = s.culIndex && x.pageId = id
    let lines := s.cul.lines.map (fun l => if l.tof.isNone && l.fedAt.isNone then { l with parts := l.parts.filter (fun x => !mine x) } else l)
    { s with cul := { s.cul with parts := s.cul.parts.filter (fun x => !mine x), lines := lines.filter (fun l => !l.parts.isEmpty) } }

/-- Take a committed, unlatched page out: its frame, if it has one, prints blank with the page's pitch (R76, R89). -/
def State.withdraw (s : State) (seq code : Nat) : State :=
  let after := s.followsGone seq
  let s := match s.page? seq with
    | some p => s.withdrawPart p.desc.pageId
    | none => s
  let s := s.modFrame seq (fun f => { f with page := none, blank := true })
  let s := { s with pages := { s.pages with followsDrop := after } }
  (s.finalState seq code 0).dropStreams seq

end Sys2Proof.Machine
end

