-- ==== Sys2Proof/Machine/SipOps.lean ====
section
/-! DEFINITION. Siphon (spec/04) as operations: channels, spaces and their limits, moving one burst, completion. -/
namespace Sys2Proof.Machine

/-! ## DRAM regions (R28) and memories -/

/-- One MiB. -/
abbrev MiB : Nat := 1048576

/-- First byte of the station rings, tile store, capture, staging and free pool, and the end of DRAM (R28). -/
def State.ringBase (_ : State) : Nat := 256 * MiB
def State.tileBase (s : State) : Nat := s.ringBase + s.variant.stations * s.boot.ring * MiB
def State.captureBase (s : State) : Nat := s.tileBase + s.boot.tiles * MiB
def State.stagingBase (s : State) : Nat := s.captureBase + popcount s.variant.sides 2 * s.boot.capture * MiB
def State.freeBase (s : State) : Nat := s.stagingBase + s.boot.staging * MiB
def State.dramEnd (s : State) : Nat := s.boot.installed * MiB

/-- Bytes of the tile cache (R26). -/
abbrev tileBytes : Nat := 12 * MiB

/-- Does `lo … hi - 1` lie inside `a … b - 1`? -/
def inside (lo hi a b : Nat) : Bool := decide (a ≤ lo ∧ hi ≤ b)

/-- Key of byte `off` of a function's direct region in the spool memory. -/
def spoolKey (fn off : Nat) : Nat := fn * 2 ^ 46 + off

/-- A VF's DRAM window as first byte and end; none where it is empty or lies partly outside the free pool (R151). -/
def State.vfWindow (s : State) (fn : Nat) : Option (Nat × Nat) :=
  let a := s.f (SIP_FN_WIN.BASE fn) * 64 * MiB
  let n := s.f (SIP_FN_WIN.SIZE fn) * 64 * MiB
  if n ≠ 0 ∧ s.freeBase ≤ a ∧ a + n ≤ s.dramEnd then some (a, a + n) else none

/-- The absolute DRAM address of a function's address (R150). -/
def State.dramAddr (s : State) (fn a : Nat) : Nat := if fn = 0 then a else s.f (SIP_FN_WIN.BASE fn) * 64 * MiB + a

/-- Space codes of R150. -/
abbrev spHOST : Nat := 0
abbrev spDRAM : Nat := 1
abbrev spTILE : Nat := 2
abbrev spSPOOL : Nat := 3

/-- May a HOST channel of `fn` reach `n` bytes at `a` of a space, writing or reading? Answers 0, or SPACE_DENIED 0x12 or RANGE 0x13
(R150 to R152). An address of DRAM outside the regions permitted to the PF answers RANGE (DEDUCED, unsafe: R178's RANGE names it, and R150 has "any other
use" SPACE_DENIED; assumption log 20). -/
def State.spanCode (s : State) (ch fn space a n : Nat) (write : Bool) : Nat :=
  if space = spHOST then (if a + n ≤ 2 ^ 64 then 0 else 0x13)
  else if space = spDRAM then
    if fn = 0 then
      if write then (if inside a (a + n) s.freeBase s.dramEnd || inside a (a + n) s.tileBase s.captureBase then 0 else 0x13)
      else (if inside a (a + n) s.ringBase s.dramEnd then 0 else 0x13)
    else match s.vfWindow fn with
      | some (lo, hi) => if lo + a + n ≤ hi then 0 else 0x13
      | none => 0x13
  else if space = spTILE then
    if fn ≠ 0 ∨ ¬ s.b (SIP_CH_ASSIGN.TILE_OK ch) then 0x12 else if a + n ≤ tileBytes then 0 else 0x13
  else if ¬ s.b (SIP_CH_ASSIGN.SPOOL_OK ch) then 0x12
  else if a + n ≤ s.f (SPL_DIRECT.EXTENTS fn) * 65536 then 0 else 0x13

/-- `n` bytes of a device space for a function. -/
def State.readSpace (s : State) (fn space a n : Nat) : List Byte :=
  if space = spDRAM then s.dram.bytes (s.dramAddr fn a) n
  else if space = spTILE then s.tile.bytes a n
  else s.spool.bytes (spoolKey fn a) n

/-! ## Channels -/

/-- Channel states of SIP_CH_STATE.STATE. -/
abbrev chDISABLED : Nat := 0
abbrev chIDLE : Nat := 1
abbrev chACTIVE : Nat := 2
abbrev chSTOPPED : Nat := 3

def State.chan (s : State) (ch : Nat) : SipChan := s.sip.chans.getD {} ch
def State.setChan (s : State) (ch : Nat) (c : SipChan) : State := { s with sip := { s.sip with chans := s.sip.chans.set {} ch c } }
def State.chState (s : State) (ch : Nat) : Nat := s.f (SIP_CH_STATE.STATE ch)
def State.chRole (s : State) (ch : Nat) : Nat := s.f (SIP_CH_ASSIGN.ROLE ch)
def State.chOwner (s : State) (ch : Nat) : Nat := s.f (SIP_CH_ASSIGN.FN ch)

/-- Put a channel in a state, with its bit of SIP_ACTIVE. -/
def State.setCh (s : State) (ch st : Nat) : State :=
  let s := s.setF (SIP_CH_STATE.STATE ch) st
  let o := if ch < 32 then SIP_ACTIVE_LO.CH else SIP_ACTIVE_HI.CH
  s.setF o (setBit (s.f o) (ch % 32) (decide (st = chACTIVE)))

/-- Raise a channel's interrupt (R144). -/
def State.chIrq (s : State) (ch : Nat) : State :=
  let fn := s.chOwner ch
  if s.chRole ch ≤ 1 ∧ fn ≠ 0 then s.signal fn (s.f (SIP_CH_ASSIGN.VEC ch)) else s.pf (8 + ch)

/-- The parameter of a Siphon report (R677). -/
def State.sipParam (s : State) (ch : Nat) : Nat := s.chOwner ch * 256 + ch

/-- The fields of a 64-byte Siphon descriptor (R153). -/
def parseSip (d : List Byte) : SipDesc :=
  { src := leAt d 0 8, dst := leAt d 8 8, idx := leAt d 16 8, status := leAt d 24 8, count := leAt d 32 4, elem := leAt d 36 2,
    spaces := BitVec.ofNat 8 (leAt d 38 1), modes := BitVec.ofNat 8 (leAt d 39 1), flags := BitVec.ofNat 16 (leAt d 40 2),
    seq := leAt d 42 2, resvZero := decide (leAt d 44 4 = 0 ∧ leAt d 56 4 = 0),
    checkOk := decide (crc32c (d.take 60) = BitVec.ofNat 32 (leAt d 60 4)) }

def SipDesc.srcSpace (d : SipDesc) : Nat := bits d.spaces.toNat 0 2
def SipDesc.dstSpace (d : SipDesc) : Nat := bits d.spaces.toNat 2 2
def SipDesc.idxSpace (d : SipDesc) : Nat := bits d.spaces.toNat 4 2
def SipDesc.stSpace (d : SipDesc) : Nat := bits d.spaces.toNat 6 2
def SipDesc.srcMode (d : SipDesc) : Nat := bits d.modes.toNat 0 2
def SipDesc.dstMode (d : SipDesc) : Nat := bits d.modes.toNat 2 2

/-- Destination bytes of a descriptor (R155). -/
def SipDesc.dstBytes (d : SipDesc) : Nat := if d.srcMode = 2 then d.count * d.elem else d.count

/-- Field ranges of R153 and the cases of R154. -/
def SipDesc.wellFormed (d : SipDesc) : Bool :=
  d.resvZero && d.srcMode ≠ 3 && decide (d.dstMode ≤ 1) && decide (d.modes.toNat < 16) && decide (d.flags.toNat < 16) &&
  decide (1 ≤ d.count) && decide (d.status % 16 = 0) && decide (d.idx % 4 = 0) &&
  (if d.srcMode = 2 then decide (d.count ≤ 16777216 ∧ d.idxSpace ≤ 1 ∧ d.count * d.elem ≤ 0xFFFFFFFF) else decide (d.idx = 0)) &&
  (if d.srcMode ≠ 0 ∨ d.dstMode ≠ 0 then decide (4 ≤ d.elem ∧ d.elem ≤ 4096 ∧ d.elem % 4 = 0) else decide (d.elem = 0)) &&
  !(d.srcMode = 1 && d.count % d.elem ≠ 0) &&
  !(d.srcSpace = spTILE && (d.src % 4 ≠ 0 || (d.srcMode ≠ 2 && d.count % 4 ≠ 0))) &&
  !(d.dstSpace = spTILE && (d.dst % 4 ≠ 0 || d.dstBytes % 4 ≠ 0)) &&
  !(d.stSpace = spTILE && d.status % 4 ≠ 0) && d.stSpace ≠ spSPOOL

/-- Limits of spool space (R152): extent-aligned whole-extent writes, 64-byte aligned reads, INC only. -/
def SipDesc.spoolOk (d : SipDesc) : Bool :=
  (d.srcSpace ≠ spSPOOL || (d.srcMode = 0 && d.src % 64 = 0)) &&
  (d.dstSpace ≠ spSPOOL || (d.dstMode = 0 && d.dst % 65536 = 0 && d.dstBytes % 65536 = 0))

/-- The checks of a HOST channel's descriptor: the first code of R178 that applies, 0 if none. -/
def State.sipCheck (s : State) (ch : Nat) (d : SipDesc) : Nat :=
  let fn := s.chOwner ch
  if ¬ d.checkOk then 0x10
  else if ¬ d.wellFormed then 0x11
  else
    let codes := [
      if d.srcMode = 2 then (if d.srcSpace = spDRAM ∧ fn = 0 then 0 else s.spanCode ch fn d.srcSpace 0 0 false)
      else s.spanCode ch fn d.srcSpace d.src (if d.srcMode = 1 then d.elem else d.count) false,
      s.spanCode ch fn d.dstSpace d.dst (if d.dstMode = 1 then d.elem else d.dstBytes) true,
      if d.srcMode = 2 then s.spanCode ch fn d.idxSpace d.idx (4 * d.count) false else 0,
      if d.status = 0 then 0 else s.spanCode ch fn d.stSpace d.status 16 true]
    if codes.contains 0x12 then 0x12
    else if codes.any (· ≠ 0) ∨ ¬ d.spoolOk then 0x13
    else 0

/-- May the status word be written to memory (R178)? -/
def State.statusAllowed (s : State) (ch : Nat) (x : SipXfer) (code : Nat) : Bool :=
  x.job.isNone && code ≠ 0x10 && code ≠ 0x20 && x.desc.status ≠ 0 && decide (x.desc.status % 16 = 0) && x.desc.stSpace ≠ spSPOOL &&
  s.spanCode ch (s.chOwner ch) x.desc.stSpace x.desc.status 16 true = 0

/-- Cut bytes toward the host at the payload size and at 4 KiB boundaries (R159). -/
def splitTlp (mps : Nat) : Nat → Nat → List Byte → List (Nat × List Byte)
  | 0, _, _ => []
  | n + 1, a, bs =>
    let k := min mps (4096 - a % 4096)
    if bs.isEmpty then [] else (a, bs.take k) :: splitTlp mps n (a + k) (bs.drop k)

/-- Max Payload Size in force, for every function the PF's: 128, 256 or 512 bytes (R98). -/
def State.maxPayload (s : State) : Nat := 128 * 2 ^ min 2 (bits (s.fn 0).devCtl.toNat 5 3)

/-- The ordering attributes of a descriptor's data TLPs (R154): bit 0 No Snoop, bit 1 Relaxed Ordering, each where Device Control enables it (PRESUMED: the
PCIe base specification; assumption log 50). -/
def State.dataAttr (s : State) (d : SipDesc) : Nat :=
  (if d.flags.getLsbD 3 && (s.fn 0).devCtl.getLsbD 11 then 1 else 0) + (if d.flags.getLsbD 2 && (s.fn 0).devCtl.getLsbD 4 then 2 else 0)

/-- Send data toward the host in as many TLPs as it takes (R159). -/
def State.sendData (s : State) (fn attr a : Nat) (bs : List Byte) : State :=
  (splitTlp s.maxPayload bs.length a bs).foldl (fun s t => s.emit (.hostData fn attr (BitVec.ofNat 64 t.1) t.2)) s

/-- Write bytes into a device space, or send them to the host. -/
def State.writeSpace (s : State) (fn space a : Nat) (bs : List Byte) : State :=
  if space = spHOST then s.emit (.hostWrite fn (BitVec.ofNat 64 a) bs)
  else if space = spDRAM then { s with dram := s.dram.putBytes (s.dramAddr fn a) bs }
  else if space = spTILE then { s with tile := s.tile.putBytes a bs }
  else { s with spool := s.spool.putBytes (spoolKey fn a) bs }

/-- Write a descriptor's data (R154, R159). -/
def State.writeData (s : State) (fn : Nat) (d : SipDesc) (a : Nat) (bs : List Byte) : State :=
  if d.dstSpace = spHOST then s.sendData fn (s.dataAttr d) a bs else s.writeSpace fn d.dstSpace a bs

/-- The residue of a descriptor: bytes not moved, or elements in INDEX mode (R171). -/
def SipXfer.residue (x : SipXfer) : Nat := x.desc.count - x.moved

/-- Is a code recorded as a C0 (R178)? FAULT_STOP is recorded by its C3 or C4, and what hits page data by the C2 of the page. -/
def sipReports (job : Option SipJob) (code : Nat) : Bool :=
  decide (code = 0x03 ∨ 0x10 ≤ code) && match job with
    | some (.ingest _ _) => decide (code ≠ 0x30)
    | some (.reissue _ _) => decide (code ≠ 0x30 ∧ code ≠ 0x31)
    | some (.stage _ _) => decide (code ≠ 0x30 ∧ code ≠ 0x31)
    | some (.compose _) => decide (code ≠ 0x30)
    | _ => true

/-- The reads of spool extents that a channel has asked for go with its descriptor. -/
def State.dropReads (s : State) (ch : Nat) : State :=
  { s with spl := { s.spl with cmds := s.spl.cmds.filter (fun c => match c.op with | .read k _ => k ≠ ch | _ => true) } }

/-- Write a descriptor's result to the channel registers and, where allowed, its status word to memory; raise the interrupt; report; advance the ring
(R162, R164, R177, R178). The channel then is IDLE, or STOPPED on a HOST channel after anything but a plain OK. -/
def State.finishDesc (s : State) (ch : Nat) (x : SipXfer) (code : Nat) : State :=
  let fn := s.chOwner ch
  let residue := if code = 0 then 0 else x.residue
  let late := x.abortLate && code = 0
  let s := s.dropReads ch
  let s := if s.statusAllowed ch x code then
      s.writeSpace fn x.desc.stSpace x.desc.status
        (leBytes 4 residue ++ leBytes 1 code ++ leBytes 1 (1 + (if x.barrierMet then 2 else 0) + (if late then 4 else 0)) ++
         leBytes 2 x.desc.seq ++ leBytes 8 s.now.toNat)
    else s
  let s := ((s.setF (SIP_CH_STATE.LAST_CODE ch) code).setF (SIP_CH_RESIDUE.RESIDUE ch) residue).setF (SIP_CH_LAST_SEQ.SEQ ch) x.desc.seq
  let s := if code = 0 then s.wrapInc (SIP_CH_DONE_CNT.COUNT ch) else if 0x10 ≤ code then s.wrapInc (SIP_CH_ERR_CNT.COUNT ch) else s
  let s := if late then s.raise (SIP_CH_STATE.ABORT_LATE ch) else s
  let s := if code = 0 && x.desc.flags.getLsbD 1 && !late then s else s.chIrq ch
  let s := if sipReports x.job code then s.report 0x02 0 code (s.sipParam ch) else s
  let c := s.chan ch
  if x.job.isNone then
    let s := s.setF (SIP_CH_HEAD.HEAD ch) ((s.f (SIP_CH_HEAD.HEAD ch) + 1) % 2 ^ s.f (SIP_CH_RING_SIZE.LOG2 ch))
    let s := (s.setChan ch { c with xfer := none, ringErr := false }).setCh ch (if code = 0 && !late && !c.ringErr then chIDLE else chSTOPPED)
    if c.ringErr then
      (((s.setF (SIP_CH_STATE.LAST_CODE ch) 0x15).wrapInc (SIP_CH_ERR_CNT.COUNT ch)).chIrq ch).report 0x02 0 0x15 (s.sipParam ch)
    else s
  else (s.setChan ch { c with xfer := none }).setCh ch (if s.sip.held then chSTOPPED else chIDLE)

/-- Must a descriptor that ends still wait: for its barrier (R164, R165), or for the sealed write of an extent begun in the spool? -/
def SipXfer.mustWait (x : SipXfer) : Bool :=
  x.job.isNone && x.started && decide (x.moved ≠ 0) &&
  ((x.desc.flags.getLsbD 0 && (x.desc.dstSpace = spHOST || x.desc.dstSpace = spSPOOL)) || (x.desc.dstSpace = spSPOOL && x.moved % 65536 ≠ 0))

/-- Does a descriptor's barrier hold as soon as its data is written (R165: DRAM, TILE)? -/
def SipXfer.barrierNow (x : SipXfer) : Bool :=
  x.job.isNone && x.started && decide (x.moved ≠ 0) && x.desc.flags.getLsbD 0 && (x.desc.dstSpace = spDRAM || x.desc.dstSpace = spTILE)

/-- Stop every ACTIVE channel with a code (R174, R175): HOST channels complete with it, once a barrier they must meet is met, and enter STOPPED;
device-driven channels discard their descriptors and wait. -/
def State.stopChannels (s : State) (code : Nat) : State :=
  let s := { s with sip := { s.sip with held := true, off := s.sip.off || code = 0x03 } }
  (List.range 64).foldl (fun s ch =>
    let s := match (s.chan ch).xfer with
      | some x =>
        if s.chState ch ≠ chACTIVE then s
        else if x.mustWait then s.setChan ch { s.chan ch with xfer := some { x with code := some code, abortLate := false } }
        else s.finishDesc ch { x with abortLate := false, barrierMet := x.barrierMet || x.barrierNow } code
      | none => s
    if s.chRole ch = 0 then s.setChan ch { s.chan ch with fetching := false }
    else s.setChan ch { s.chan ch with todo := [], fetching := false }) s

/-- Device-driven channels return to IDLE, and the block answers again (R174, R175). -/
def State.resumeChannels (s : State) : State :=
  let s := { s with sip := { s.sip with held := false, off := false } }
  (List.range 64).foldl (fun s ch => if s.chRole ch ≠ 0 ∧ s.chState ch = chSTOPPED then s.setCh ch chIDLE else s) s

/-- Does a job belong to a function (R176)? A tile's load belongs to the function of its tile, a fill to the page that it serves. -/
def State.jobFn (s : State) (j : SipJob) : Option Nat :=
  match j with
  | .ingest p _ => (s.page? p).map (fun q => q.fn)
  | .reissue p _ => (s.page? p).map (fun q => q.fn)
  | .stage key _ => (s.copy? key).map (fun c => c.fn)
  | .tileLoad _ _ => none
  | .compose _ => none
  | .pin _ => none

/-- Drop device-driven descriptors, waiting or in hand, but those of `keep`. -/
def State.dropJobs (s : State) (keep : SipJob → Bool) : State :=
  (List.range 64).foldl (fun s ch =>
    let c := s.chan ch
    match c.xfer with
    | some x =>
      if x.job.any (fun j => !keep j) then (((s.dropReads ch).setChan ch { c with xfer := none }).setCh ch (if s.sip.held then chSTOPPED else chIDLE)) else s
    | none => s) (s.keepJobs keep)

/-- Return a function's channels to their reset state (R127, R176): the per-channel registers reset; ownership stays. COMPOSE and SPOOL channels
discard only the function's work: its copies' extents here, its tiles' loads with the composer (R275). -/
def State.resetChannels (s : State) (fn : Nat) : State :=
  let s := s.dropJobs (fun j => s.jobFn j ≠ some fn)
  (List.range 64).foldl (fun s ch =>
    if s.chRole ch ≤ 1 ∧ s.chOwner ch = fn then
      let o := SIP_CH_RING_LO.word ch
      let s := ((s.dropReads ch).setCh ch chDISABLED).setChan ch {}
      (s.resetRegs o (o + 0x34)).setB (SIP_CH_CTRL.ENABLE ch) (s.chRole ch ≠ 0)
    else s) s

/-- Channels assigned to a role. -/
def State.roleCount (s : State) (role : Nat) : Nat := ((List.range 64).filter (fun ch => s.chRole ch = role)).length

/-- Fewer COMPOSE or SPOOL channels than R147 asks for. -/
def State.engineShort (s : State) : Bool := (s.variant.composer && decide (s.roleCount 2 < 2)) || decide (s.roleCount 3 < 3)

/-- The refusal of R147 ends once the shortfall is corrected. -/
def State.endEngineShort (s : State) : State := if s.b SIP_STATUS.ENGINE_SHORT && !s.engineShort then s.setF SIP_STATUS.ENGINE_SHORT 0 else s

end Sys2Proof.Machine
end

