-- ==== Sys2Proof/Machine/SpoolOps.lean ====
section
/-! DEFINITION. The spool (spec/05) as operations: refusals that begin, writing and reading extents, copies completing or lost. -/
namespace Sys2Proof.Machine

/-- Links of a layout (R181). -/
def layoutLinks : Nat → Nat
  | 0 => 1 | 1 => 2 | 2 => 3 | _ => 4

/-- The drives that an extent goes to, by its place in the stripe: one drive, or in mirror mode every surviving drive of one pair (R182). -/
def State.extentDrives (s : State) (n : Nat) : List Nat :=
  let u := s.usableDrives
  if s.b SPL_CTRL.MIRROR then
    let pairs := (List.range 2).filter (fun p => u.any (fun d => d / 2 = p))
    match pairs[n % max 1 pairs.length]? with
    | some p => u.filter (fun d => d / 2 = p)
    | none => []
  else match u[n % max 1 u.length]? with
    | some d => [d]
    | none => []

/-! ## Copies lost, refusals that begin -/

/-- Carry out a RELEASE that waited for a copy's open writes (R192): the copy is gone, or is freed now. -/
def State.releaseHeld (s : State) (c : Copy) : State :=
  match s.findPage c.fn c.pageId with
  | some p => s.releaseNow p
  | none => s.releaseNow { fn := c.fn, desc := c.desc, phase := .final 3 0 }

/-- Lose a copy (R191): before the page's final state a C2 SPOOL_LOST spoils it; after it, or with no such page, a C0 carries the identifier. A RELEASE
that waited is carried out (R192). -/
def State.loseCopy (s : State) (key : Nat) : State :=
  match s.copy? key with
  | none => s
  | some c =>
    let s := s.freeCopy c.fn c.pageId
    let s := match s.findPage c.fn c.pageId with
      | some p => if p.active then s.spoilPage p.seq 0x08 0x03 c.fn else s.report 0x03 0 0x0F c.fn (idAddr c.pageId)
      | none => s.report 0x03 0 0x0F c.fn (idAddr c.pageId)
    if c.releaseWait then s.releaseHeld c else s

/-- Is the copy still open: not complete, and not found incomplete? -/
def Copy.isOpen (c : Copy) : Bool := c.stage ≠ .complete && c.stage ≠ .incomplete

/-- Bring SPL_STATUS in line with the causes that hold (R204). A refusal that begins is a C0 and loses every open copy (R191). -/
def State.refreshRefusal (s : State) : State :=
  let was := s.b SPL_STATUS.WRITE_REFUSED
  let s := s.showRefusal
  if s.b SPL_STATUS.WRITE_REFUSED && !was then
    let s := s.report 0x03 0 0x0F
    (s.spl.copies.filter Copy.isOpen).foldl (fun s c => s.loseCopy c.key) s
  else s

/-! ## Commands to the drives -/

/-- The kind of command that does an operation: 0 write, 1 flush, 4 read. -/
def NvmeOp.kind : NvmeOp → Nat
  | .writeExtent _ _ => 0 | .flush _ => 1 | .catEntry _ => 0 | .catFlush _ => 1 | .writeDirect _ _ => 0 | .writeAudit _ => 0
  | .barrierFlush _ => 1 | .shutdownFlush => 1 | .read _ _ => 4

/-- Issue an NVMe command to a drive. -/
def State.issueCmd (s : State) (d : Nat) (op : NvmeOp) : State :=
  let c : NvmeCmd := ⟨s.spl.nextCmd, d, op⟩
  { s with spl := { s.spl with cmds := s.spl.cmds ++ [c], nextCmd := s.spl.nextCmd + 1 } }.emit (.nvme d op.kind)

/-- Issue one command to each of several drives. -/
def State.issueAll (s : State) (ds : List Nat) (op : NvmeOp) : State := ds.foldl (fun s d => s.issueCmd d op) s

/-- The write counter has reached its end and the next epoch must start first (R201). -/
def State.ctrSpent (s : State) : Bool := decide (2 ^ 63 ≤ s.get64 SPL_CTR_LO.word)

/-- May the next extent be sealed: the epoch has counters left (R201), and the queues of its drives, 8 of 1,024 entries, have room (R181)? -/
def State.canSeal (s : State) : Bool :=
  !s.ctrSpent && (s.extentDrives s.spl.stripe).all (fun d => decide ((s.spl.cmds.filter (fun c => c.drive = d)).length < 8 * 1023))

/-- Seal one extent under the next write counter and write it to its drives (R182, R196): answers the state and the extent as its header records it. -/
def State.issueExtent (s : State) (op : NvmeOp) (x : Extent) (payload : List Byte) : State × Extent :=
  let ds := s.extentDrives s.spl.stripe
  let x := { x with counter := s.get64 SPL_CTR_LO.word, epoch := s.word SPL_EPOCH.word,
                    drives := ds.foldl (fun m d => m ||| BitVec.ofNat 4 (2 ^ d)) 0 }
  let x := { x with tag := (x.sealed (s.epochKey x.epoch s.spl.salt) payload).2 }
  let s := { s with spl := { s.spl with stripe := s.spl.stripe + 1 } }
  ((s.set64 SPL_CTR_LO.word (s.get64 SPL_CTR_LO.word + 1)).issueAll ds op, x)

/-! ## Page copies and audit captures -/

/-- Issue the extent writes of a copy that its landed bytes allow, in the order of R189 (R190). -/
def State.copyAdvance (s : State) (key : Nat) : Nat → State
  | 0 => s
  | n + 1 =>
    match s.copy? key with
    | none => s
    | some c =>
      if c.stage = .writing && !s.splRefused && s.b SPL_CTRL.ENABLE && s.canSeal && decide (c.issued < c.extents) &&
          decide (min c.bytes ((c.issued + 1) * 65536) ≤ c.solid) then
        let r := s.issueExtent (.writeExtent key c.issued) { fn := c.fn, owner := c.pageId, index := c.issued, length := c.extLength c.issued }
          (c.extPayload c.issued)
        (r.1.modCopy key (fun c => { c with issued := c.issued + 1, heads := c.heads ++ [r.2], drives := c.drives ||| r.2.drives })).copyAdvance key n
      else s

/-- Bytes of a station's stream have landed: the page's copy takes them as well (R190). -/
def State.copyLand (s : State) (key st : Nat) (bs : List Byte) : State :=
  match s.copy? key with
  | none => s
  | some c =>
    if !c.isOpen then s
    else
      let k := ((stationList c.desc.stations).takeWhile (fun u => u ≠ st)).length
      let s := s.modCopy c.key (fun c => { c with streams := c.streams.modify k (· ++ bs), landed := c.landed + bs.length })
      s.copyAdvance c.key (c.extents + 1)

/-- The stage after a copy's outstanding commands have ended (R190): flush every drive written, write the catalogue entry, flush it, complete. -/
def State.copyNext (s : State) (key : Nat) : State :=
  match s.copy? key with
  | none => s
  | some c =>
    if s.spl.cmds.any (fun x => x.op.ofCopy key) then s
    else
      let ds := s.drivesOf c.drives
      match c.stage with
      | .writing =>
        if c.written < c.extents then s else (s.modCopy key (fun c => { c with stage := .flushing })).issueAll ds (.flush key)
      | .flushing => (s.modCopy key (fun c => { c with stage := .catalogue })).issueAll (ds.take 1) (.catEntry key)
      | .catalogue => (s.modCopy key (fun c => { c with stage := .catalogueFlush })).issueAll (ds.take 1) (.catFlush key)
      | .catalogueFlush => s.modCopy key (fun c => { c with stage := .complete })
      | _ => s

/-- A copy's RELEASE that waited for its open writes is carried out (R192). -/
def State.releaseWaiting (s : State) (key : Nat) : State :=
  match s.copy? key with
  | some c => if c.releaseWait && !s.copyBusy key then s.releaseHeld c else s
  | none => s

/-- Mark a copy incomplete, with the C0 of R183 where it was complete. -/
def State.breakCopy (s : State) (c : Copy) : State :=
  if c.stage = .complete then
    (s.modCopy c.key (fun c => { c with stage := .incomplete })).report 0x03 0 0x40 c.fn (idAddr c.pageId)
  else s

/-- Change an audit capture. -/
def State.modAudit (s : State) (key : Nat) (g : Audit → Audit) : State :=
  { s with spl := { s.spl with audits := s.spl.audits.map (fun a => if a.key = key then g a else a) } }

/-- Issue the extent writes of an audit capture that have not been issued: they wait while no extent may be sealed (R201). -/
def State.auditAdvance (s : State) (key : Nat) : Nat → State
  | 0 => s
  | n + 1 =>
    match s.spl.audits.find? (fun a => a.key = key) with
    | none => s
    | some a =>
      if decide (a.issued < a.extents) && !s.splRefused && s.canSeal then
        let b := (a.data.drop (65536 * a.issued)).take 65536
        let r := s.issueExtent (.writeAudit key) { kind := 2, fn := a.fn, owner := a.pageId, index := a.issued, length := b.length }
          ((b ++ List.replicate 65536 0).take 65536)
        (r.1.modAudit key (fun a => { a with issued := a.issued + 1, heads := a.heads ++ [r.2], drives := a.drives ||| r.2.drives })).auditAdvance key n
      else s

/-! ## Direct extents -/

/-- Change a direct extent. -/
def State.modDirect (s : State) (fn ext : Nat) (g : DirectExt → DirectExt) : State :=
  { s with spl := { s.spl with direct := s.spl.direct.map (fun d => if d.fn = fn && d.ext = ext then g d else d) } }

/-- A Siphon write begins a direct extent: it is in flight from here (R206), and allocated if this is its first write (R186). Answers none where it cannot
be allocated (R188). -/
def State.allocDirect (s : State) (fn ext : Nat) : Option State :=
  if s.spl.direct.any (fun d => d.fn = fn && d.ext = ext) then some (s.modDirect fn ext (fun d => { d with inFlight := true }))
  else if s.canAlloc fn 1 then
    some (({ s with spl := { s.spl with direct := s.spl.direct ++ [{ fn := fn, ext := ext, inFlight := true }] } } : State).alloc fn 1)
  else none

/-- A direct extent's 64 KiB are staged: its sealed write is issued under a new counter (R196), or waits until one may be (R201). -/
def State.sealDirect (s : State) (fn ext : Nat) : State :=
  if !s.canSeal then s.modDirect fn ext (fun d => { d with waits := true })
  else
    let r := s.issueExtent (.writeDirect fn ext) { kind := 3, fn := fn, owner := BitVec.ofNat 64 ext } (s.spool.bytes (spoolKey fn (ext * 65536)) 65536)
    r.1.modDirect fn ext (fun d => { d with waits := false, head := some r.2 })

/-- Issue every write that waited and may go on. -/
def State.sealAll (s : State) : State :=
  let s := s.spl.copies.foldl (fun (s : State) c => s.copyAdvance c.key (c.extents + 1)) s
  let s := s.spl.audits.foldl (fun (s : State) a => s.auditAdvance a.key (a.extents + 1)) s
  (s.spl.direct.filter (fun d => d.waits)).foldl (fun (s : State) d => if s.splRefused then s else s.sealDirect d.fn d.ext) s

/-! ## Reads (R198, R205) -/

/-- A read of a spool extent fails (R205): a tag or header that does not match is counted and shown in the slice; a drive's error is counted as such. -/
def State.readFailed (s : State) (fn : Nat) (tag : Bool) : State :=
  if tag then ((s.satInc SPL_ERR_CNT.TAG_FAIL).raise (SPL_SL_STATUS.TAG_FAIL fn)).sliceVector fn else s.satInc SPL_ERR_CNT.IO_ERR

/-- The spool extents that the next burst of a channel's descriptor needs: of the page's copy, or of the direct region. -/
def SipXfer.needs (x : SipXfer) : List Nat :=
  let n := min 4096 (x.desc.count - x.moved)
  let a := x.desc.src + x.moved
  let span := if n = 0 then [] else if a / 65536 = (a + n - 1) / 65536 then [a / 65536] else [a / 65536, a / 65536 + 1]
  match x.job with
  | none => if x.desc.srcSpace = spSPOOL then span else []
  | some (.tileLoad _ _) => span
  | some (.stage _ _) => span
  | _ => []

/-- Does a channel's descriptor have what it needs of the spool? -/
def SipXfer.hasReads (x : SipXfer) : Bool := x.needs.all (fun e => x.reads.any (fun r => r.ext = e && r.done))

/-- The function whose slice a descriptor reads. -/
def State.readFn (s : State) (ch : Nat) (x : SipXfer) : Nat :=
  match x.job with
  | some (.tileLoad fn _) => fn
  | some (.stage key _) => ((s.copy? key).map (fun c => c.fn)).getD 0
  | _ => s.chOwner ch

/-- What an extent of a descriptor reads as, with its header: of a copy, or of the direct region; no header where nothing needs to be read from a drive (never
written, or still in the staging region). -/
def State.readSource (s : State) (ch : Nat) (x : SipXfer) (e : Nat) : List Byte × Option Extent :=
  match x.job with
  | some (.stage key _) =>
    match s.copy? key with
    | some c => if c.stage = .incomplete then ([], some {}) else (c.extPayload e, some ((c.heads[e]?).getD {}))
    | none => ([], some {})
  | _ =>
    let fn := s.readFn ch x
    let d := s.spl.direct.find? (fun d => d.fn = fn && d.ext = e)
    (s.spool.bytes (spoolKey fn (e * 65536)) 65536, d.bind (fun d => if d.inFlight then none else d.head))

/-- A read of an extent for the descriptor in hand on a channel ends (R205). One that failed delivers no byte: its descriptor completes with SPOOL_READ_ERROR, a
copy that it belongs to becomes incomplete, and a tile's load fails. -/
def State.endRead (s : State) (ch e : Nat) (good : Bool) : State :=
  match (s.chan ch).xfer with
  | none => s
  | some x =>
    let x := { x with reads := x.reads.map (fun r => if r.ext = e then { r with done := true, good := good } else r) }
    if good then s.setChan ch { s.chan ch with xfer := some x }
    else
      let s := s.setChan ch { s.chan ch with xfer := some { x with code := some (x.code.getD 0x31) } }
      match x.job with
      | some (.stage key _) => s.modCopy key (fun c => { c with stage := .incomplete })
      | some (.tileLoad fn tile) =>
        { s with cmp := { s.cmp with store := s.cmp.store.map (fun t => if t.fn = fn && t.tile = tile then { t with err := some 0x31 } else t) } }
      | _ => s

/-- Read one extent for a descriptor: a command to a drive that holds it, whole; verified when it completes. An extent that no drive can give any more fails. -/
def State.readExtent (s : State) (ch : Nat) (x : SipXfer) (e : Nat) : State :=
  let put := fun (s : State) (r : SpoolRead) => s.setChan ch { s.chan ch with xfer := some { x with reads := x.reads ++ [r] } }
  let r := s.readSource ch x e
  match r.2 with
  | none => put s { ext := e, data := r.1, done := true }
  | some h =>
    match (s.drivesOf h.drives).head? with
    | none => ((put s { ext := e }).satInc SPL_ERR_CNT.IO_ERR).endRead ch e false
    | some d => (put s { ext := e, data := r.1, good := s.verified h r.1 }).issueCmd d (.read ch e)

/-- Issue the reads that the descriptor in hand on a channel needs and has not asked for; those of earlier bursts are let go. -/
def State.readAhead (s : State) (ch : Nat) : State :=
  match (s.chan ch).xfer with
  | none => s
  | some x =>
    if !x.started || x.code.isSome then s
    else
      let s := s.setChan ch { s.chan ch with xfer := some { x with reads := x.reads.filter (fun r => x.needs.contains r.ext) } }
      x.needs.foldl (fun (s : State) e => match (s.chan ch).xfer with
        | some y => if y.reads.any (fun r => r.ext = e) then s else s.readExtent ch y e
        | none => s) s

end Sys2Proof.Machine
end

