-- ==== Sys2Proof/Machine/CmpBase.lean ====
section
/-! DEFINITION. The tile directory in the direct region (R252 to R256), the tile store (R265), and what a write to a direct extent does to stored tiles. -/
namespace Sys2Proof.Machine

/-! ## The directory -/

/-- Bytes of a tile's blocks (R252). -/
def DirEntry.size (e : DirEntry) : Nat := e.w * e.h * blockBytes e.f2

/-- Extents of a tile's blocks (R254). -/
def DirEntry.exts (e : DirEntry) : Nat := (e.size + 65535) / 65536

/-- The directory entry of a tile as it stands, judged by R254. -/
def State.dirEntry (s : State) (fn tile : Nat) : DirEntry :=
  let b := s.spool.bytes (spoolKey fn (tile / 2048 * 65536 + tile % 2048 * 32)) 32
  let fl := leAt b 0 1
  let e : DirEntry := { f2 := bit fl 1, w := leAt b 4 2, h := leAt b 6 2, first := leAt b 8 4 }
  { e with valid := bit fl 0 && decide (fl < 4 ∧ leAt b 1 3 = 0 ∧ leAt b 12 4 = 0 ∧ leAt b 24 8 = 0) &&
      decide (1 ≤ e.w ∧ e.w ≤ 3000 ∧ 1 ≤ e.h ∧ e.h ≤ 16384 ∧ 128 ≤ e.first ∧ e.first + e.exts ≤ s.f (SPL_DIRECT.EXTENTS fn)) &&
      decide (tile < 262144) }

/-! ## Holds -/

/-- The tile range of a pin entry, as function, first tile and count. -/
def State.pinRange (s : State) (i : Nat) : Nat × Nat × Nat :=
  (s.f (CMP_PIN_ID.FN i), s.f (CMP_PIN_ID.TILE i), s.f (CMP_PIN_CNT.COUNT i))

/-- What a pin entry holds in the pinned area. -/
def State.pinOf (s : State) (i : Nat) : Pin := s.cmp.pins.getD {} i
def State.setPin (s : State) (i : Nat) (x : Pin) : State := { s with cmp := { s.cmp with pins := s.cmp.pins.set {} i x } }

/-- Does an accepted pin with EN set hold a tile (R266)? -/
def State.pinnedBy (s : State) (i fn tile : Nat) : Bool :=
  let r := s.pinRange i
  s.b (CMP_PIN_ID.EN i) && (s.pinOf i).accepted && fn = r.1 && decide (r.2.1 ≤ tile ∧ tile < r.2.1 + r.2.2)

/-- Is a tile held: named by a page not yet in a final state, or pinned (R265, R266)? -/
def State.tileHeld (s : State) (fn tile : Nat) : Bool :=
  s.cmp.lists.any (fun l => (s.page? l.page).any (fun p => p.active) && l.entries.any (fun e => e.fn = fn && e.tile = tile)) ||
  (List.range 16).any (fun i => s.pinnedBy i fn tile)

/-! ## The tile store (R265) -/

/-- 4 KiB units of a tile. -/
def TileRes.units (t : TileRes) : Nat := (t.size + 4095) / 4096

/-- Units of the tile store in use. -/
def unitsOf (l : List TileRes) : Nat := l.foldl (fun a t => if t.waits then a else a + t.units) 0

/-- The DRAM address of byte `a` of a stored tile. -/
def State.tileAddr (s : State) (t : TileRes) (a : Nat) : Nat := s.tileBase + t.place.getD (a / 4096) 0 * 4096 + a % 4096

/-- `n` bytes of a stored tile. -/
def State.tileBytes (s : State) (t : TileRes) (a n : Nat) : List Byte := (List.range n).map (fun i => s.dram.getD 0 (s.tileAddr t (a + i)))

/-- The stored copy of a tile. -/
def State.stored (s : State) (fn tile : Nat) : Option TileRes := s.cmp.store.find? (fun t => t.fn = fn && t.tile = tile)

/-- Is a tile resident in the tile store? -/
def State.tileResident (s : State) (fn tile : Nat) : Bool := (s.stored fn tile).any (fun t => !t.loading && !t.waits)

/-- Show the tile store in CMP_STORE_USED and CMP_STATUS.STORE_FULL. -/
def State.syncStore (s : State) : State :=
  (s.setF CMP_STORE_USED.UNITS (unitsOf s.cmp.store)).setB CMP_STATUS.STORE_FULL (s.cmp.store.any (fun t => t.waits))

/-- Put the store in place of the old one; loads of tiles that are no longer on their way into it are dropped. -/
def State.setStore (s : State) (l : List TileRes) : State :=
  (({ s with cmp := { s.cmp with store := l } } : State).syncStore).dropJobs (fun j => match j with
    | .tileLoad f t => l.any (fun x => x.fn = f && x.tile = t && x.loading && !x.waits && !x.again)
    | _ => true)

/-- Change a stored tile. -/
def State.modTile (s : State) (fn tile : Nat) (g : TileRes → TileRes) : State :=
  { s with cmp := { s.cmp with store := s.cmp.store.map (fun t => if t.fn = fn && t.tile = tile then g t else t) } }

/-- Evict the least recently used tiles that are not held until `need` units are free of `cap`; none where that cannot be. -/
def State.makeRoom (s : State) (cap need : Nat) : Nat → List TileRes → Option (List TileRes)
  | 0, l => if unitsOf l + need ≤ cap then some l else none
  | n + 1, l =>
    if unitsOf l + need ≤ cap then some l
    else match l.find? (fun t => !t.waits && !s.tileHeld t.fn t.tile) with
      | none => none
      | some v => s.makeRoom cap need n (l.filter (fun t => !(t.fn = v.fn && t.tile = v.tile)))

/-- The lowest `need` unused units from `u` upward (which of the free units a tile takes is a DESIGN CHOICE; assumption log 104). -/
def takeFree (used : List Nat) : Nat → Nat → Nat → List Nat
  | 0, _, _ => []
  | fuel + 1, u, need =>
    if need = 0 then [] else if used.contains u then takeFree used fuel (u + 1) need else u :: takeFree used fuel (u + 1) (need - 1)

/-- Load a tile by its directory entry as it stands, on a SPOOL channel, if there is room; otherwise it waits (R256, R265). -/
def State.startLoad (s : State) (fn tile : Nat) : State :=
  let rest := s.cmp.store.filter (fun x => !(x.fn = fn && x.tile = tile))
  let e := s.dirEntry fn tile
  let t : TileRes := { fn := fn, tile := tile, first := e.first, exts := e.exts, size := e.size }
  let cap := s.boot.tiles * 256
  if !e.valid then s.setStore rest
  else match s.makeRoom cap t.units rest.length rest with
    | none => s.setStore (rest ++ [{ t with waits := true }])
    | some l =>
      let s := (s.setStore l).setStore (l ++ [{ t with place := takeFree (l.flatMap (fun x => x.place)) cap 0 t.units }])
      s.pushJob 3 0 19 (.tileLoad fn tile) { src := e.first * 65536, count := e.size, spaces := 7 }

/-- Want a tile in the store: use the copy there, or load it. -/
def State.wantTile (s : State) (fn tile : Nat) : State :=
  match s.stored fn tile with
  | some t => if t.waits then s else s.setStore (s.cmp.store.filter (fun x => !(x.fn = fn && x.tile = tile)) ++ [t])
  | none => s.startLoad fn tile

/-- A write reaches direct extent `ext` of `fn`: every stored copy of a tile whose entry or blocks lie in it is invalid. One being loaded is loaded again when
that load ends, one that is held once the write is staged, and the others leave the store (R256). A pin that holds such a tile is no longer resident. -/
def State.invalidateTiles (s : State) (fn ext : Nat) : State :=
  let hit := fun (t : TileRes) => t.fn = fn && (decide (t.tile / 2048 = ext) || decide (t.first ≤ ext ∧ ext < t.first + t.exts))
  let s1 := (List.range 16).foldl (fun s i =>
    if s.cmp.store.any (fun t => hit t && s.pinnedBy i t.fn t.tile) then (s.setPin i { s.pinOf i with copied := false }).setF (CMP_PIN_ID.RESIDENT i) 0 else s) s
  s1.setStore (s.cmp.store.filterMap (fun t =>
    if !hit t then some t else if t.loading then some { t with stale := true }
    else if s.tileHeld t.fn t.tile then some { t with loading := true, again := true } else none))

/-- Load the tiles of a function again that a write had reached (R256). -/
def State.reloadTiles (s : State) (fn : Nat) : State :=
  (s.cmp.store.filter (fun t => t.fn = fn && t.again)).foldl (fun s t => s.startLoad t.fn t.tile) s

/-- Pages that are gone hold no tile: loads that no one wants any more are dropped (R128, R275). -/
def State.dropLoads (s : State) (gone : List Nat) : State :=
  let s := { s with cmp := { s.cmp with lists := s.cmp.lists.filter (fun l => !gone.contains l.page) } }
  s.setStore (s.cmp.store.filter (fun t => !t.loading || s.tileHeld t.fn t.tile))

/-! ## Failures (R271, R272) -/

/-- Show a composition failure in CMP_LAST_ERR. -/
def State.lastErr (s : State) (code fn tile : Nat) : State := ((s.setF CMP_LAST_ERR.CODE code).setF CMP_LAST_ERR.FN fn).setF CMP_LAST_ERR.TILE tile

/-- A page ends DROPPED with a composer code, a C0 (R271). -/
def State.dropComposed (s : State) (p : Page) (code tile : Nat) : State :=
  (((s.lastErr code p.fn tile).satInc CMP_MISS_CNT.DROPPED).report 0x05 0 code (p.fn * 2 ^ 18 + tile) (idAddr p.desc.pageId)).withdraw p.seq 0x11

/-- A page's composition fails with a code: DROPPED before its first latch line, SPOILED at or after it, at `station` where the failure is one station's.
STORE_ERROR takes MEMORY_ERROR (R271, R272). -/
def State.failCompose (s : State) (seq code tile : Nat) (station : Nat := 0xFF) : State :=
  match s.page? seq with
  | none => s
  | some p =>
    if p.isFinal then s
    else if (p.phase = .waiting || p.phase = .claimed) && (s.frameOf seq).all (fun f => decide (s.scn.webLine < f.firstLatch)) then s.dropComposed p code tile
    else ((s.lastErr code p.fn tile).satInc CMP_MISS_CNT.SPOILED).spoilPage seq (if code = 0x47 then 0x07 else 0x01) 0x05 (p.fn * 2 ^ 18 + tile) station none
      (some code)

end Sys2Proof.Machine
end

