-- ==== Sys2Proof/Machine/Fill.lean ====
section
/-! DEFINITION. The tile cache (R266, R267): the pinned area, and the blocks of composed furrows on their way through the streaming area to the Flumes. -/
namespace Sys2Proof.Machine

/-! ## Pins -/

/-- Is the tile in the range of a resident pin? Answers the entry. -/
def State.residentPin (s : State) (fn tile : Nat) : Option Nat :=
  (List.range 16).find? (fun i => s.pinnedBy i fn tile && s.b (CMP_PIN_ID.RESIDENT i))
def State.pinResident (s : State) (fn tile : Nat) : Bool := (s.residentPin fn tile).isSome

/-- The tiles of a pin entry. -/
def State.pinTiles (s : State) (i : Nat) : List Nat := let r := s.pinRange i; (List.range r.2.2).map (· + r.2.1)

/-- Where an entry's range begins in the 4 MiB pinned area: behind those of the entries below it (DESIGN CHOICE; assumption log 104). -/
def State.pinBase (s : State) (i : Nat) : Nat := (List.range i).foldl (fun (a : Nat) j => a + (s.pinOf j).bytes) 0

/-- Where a tile of a resident pin begins in the tile cache. -/
def State.pinnedAt (s : State) (i fn tile : Nat) : Nat :=
  ((s.pinTiles i).takeWhile (fun t => t ≠ tile)).foldl (fun (a : Nat) t => a + ((s.stored fn t).map (fun x => x.size)).getD 0) (s.pinBase i)

/-- Give an entry its bytes of the pinned area, or none: what lies behind moves with them. -/
def State.setPinBytes (s : State) (i n : Nat) : State :=
  let x := s.pinOf i
  let b := s.pinBase i
  let s := ({ s with tile := s.tile.moveTail b x.bytes n 4194304 } : State).setPin i ⟨decide (n ≠ 0), n, false⟩
  s.setF CMP_PIN_USED.BYTES (s.f CMP_PIN_USED.BYTES + n - x.bytes)

/-- All bytes of a pin's range in the tile store, in order. -/
def State.pinBytes (s : State) (i : Nat) : List Byte :=
  (s.pinTiles i).flatMap (fun t => match s.stored (s.pinRange i).1 t with
    | some x => s.tileBytes x 0 x.size
    | none => [])

/-- Copy the ranges that have become resident in the tile store on to the pinned area, on COMPOSE channels (R266). -/
def State.pinCopies (s : State) : State :=
  (List.range 16).foldl (fun s i =>
    let x := s.pinOf i
    if s.b (CMP_PIN_ID.EN i) && x.accepted && !x.copied && (s.pinTiles i).all (fun t => s.tileResident (s.pinRange i).1 t) then
      (s.dropJobs (fun j => j ≠ .pin i)).pushJob 2 0 18 (.pin i) { count := x.bytes, spaces := 9 }
    else s) s

/-! ## Placements (R260, R261) -/

/-- The landed placement list of a page at a station. -/
def State.listOf (s : State) (seq st : Nat) : Option PList := s.cmp.lists.find? (fun l => l.page = seq && l.st = st)

/-- Does a placement cover a page block? -/
def Placement.covers (e : Placement) (row col : Nat) : Bool := decide (e.row ≤ row ∧ row < e.row + e.dir.h ∧ e.col ≤ col ∧ col < e.col + e.dir.w)

/-- The placement that gives a layer its block at a page block: the last that covers it; none leaves it uncovered. -/
def PList.top (l : PList) (layer row col : Nat) : Option Placement := (l.entries.filter (fun e => e.layer = layer && e.covers row col)).getLast?

/-- Byte of a page block in its tile (R252). -/
def Placement.byteAt (e : Placement) (row col : Nat) : Nat := ((row - e.row) * e.dir.w + (col - e.col)) * blockBytes e.dir.f2

/-- Block size of a layer (R267). -/
def PList.layerBytes (l : PList) (layer : Nat) : Nat := blockBytes (bit l.modes layer)

/-! ## Fills (R267) -/

/-- First byte of a Flume's part of the streaming area: 480,000 bytes each (DESIGN CHOICE; assumption log 104). -/
def streamBase (flume : Nat) : Nat := 4194304 + flume * 480000

def State.fillAt (s : State) (flume : Nat) : Option Fill := s.cmp.fills.find? (fun x => x.flume = flume)
def State.modFill (s : State) (flume : Nat) (g : Fill → Fill) : State :=
  { s with cmp := { s.cmp with fills := s.cmp.fills.map (fun x => if x.flume = flume then g x else x) } }

/-- What a page block row of a furrow needs, layer by layer and column by column: each block's offset in the tile cache, none where no placement covers it, and
the bytes that are copied there from the tile store: those of a resident pin are read in place. -/
def State.rowPlan (s : State) (l : PList) (flume row : Nat) : List (List (Option Nat)) × List Byte :=
  ((List.range l.layers).foldl (fun (a : List (List (Option Nat)) × List Byte) y =>
    let r := (List.range 3000).foldl (fun (b : List (Option Nat) × List Byte) c =>
      match l.top y row c with
      | none => (b.1 ++ [none], b.2)
      | some e => match s.residentPin e.fn e.tile with
        | some i => (b.1 ++ [some (s.pinnedAt i e.fn e.tile + e.byteAt row c)], b.2)
        | none =>
          let m := match s.stored e.fn e.tile with
            | some t => s.tileBytes t (e.byteAt row c) (l.layerBytes y)
            | none => List.replicate (l.layerBytes y) 0
          (b.1 ++ [some (streamBase flume + b.2.length)], b.2 ++ m)) ([], a.2)
    (a.1 ++ [r.1], r.2)) ([], []))

/-- The Flume reads a page block row's blocks of every layer through its table: a null offset yields a zero block. -/
def State.readRow (s : State) (l : PList) (offs : List (List (Option Nat))) : List (List Byte) :=
  (List.range l.layers).map (fun y => (offs.getD y []).flatMap (fun o => match o with
    | some a => s.tile.bytes a (l.layerBytes y)
    | none => List.replicate (l.layerBytes y) 0))

/-- A page block row is in the streaming area: its offsets join the index tables, and the Flume reads it. -/
def State.rowDone (s : State) (x : Fill) (l : PList) (offs : List (List (Option Nat))) : State :=
  let words := offs.map (fun r => r.map (fun o => match o with | some a => BitVec.ofNat 32 a | none => 0xFFFFFFFF#32))
  let tabs := (List.range l.layers).map (fun y => x.tables.getD y [] ++ words.getD y [])
  let rows := x.rows ++ [s.readRow l offs]
  s.modFill x.flume (fun x => { x with tables := tabs, rows := rows })

/-- Rows of a furrow of a fill's page. -/
def State.fillRows (s : State) (x : Fill) : Nat := ((s.page? x.page).map (fun p => p.desc.furrowRows x.k)).getD 0

/-- Go on with a fill: the next page block row is copied on a COMPOSE channel; one that copies nothing is there at once. -/
def State.fillNext (s : State) (flume : Nat) : Nat → State
  | 0 => s
  | n + 1 =>
    match s.fillAt flume with
    | none => s
    | some x => match s.listOf x.page x.st with
      | none => s
      | some l =>
        if s.fillRows x ≤ x.rows.length then s
        else
          let p := s.rowPlan l flume (4 * x.k + x.rows.length)
          if p.2.isEmpty then (s.rowDone x l p.1).fillNext flume n
          else s.pushJob 2 0 18 (.compose flume) { count := p.2.length, spaces := 9 }

/-- A Flume's fill ends, and its copies with it. -/
def State.dropFill (s : State) (flume : Nat) : State :=
  ({ s with cmp := { s.cmp with fills := s.cmp.fills.filter (fun x => x.flume ≠ flume) } } : State).dropJobs (fun j => j ≠ .compose flume)

/-- A Flume is given a furrow of a composed page. -/
def State.startFill (s : State) (flume seq st k : Nat) : State :=
  let s := s.dropFill flume
  ({ s with cmp := { s.cmp with fills := s.cmp.fills ++ [{ flume := flume, page := seq, st := st, k := k }] } } : State).fillNext flume 5

/-- One burst of a fill (R267): bytes from the tile store into the streaming area; with the last the row is there. An uncorrectable error at the tile store fails
the page with STORE_ERROR, at its tile (R272). -/
def State.fillBurst (s : State) (ch : Nat) (x : SipXfer) (flume fail : Nat) : State :=
  let put := fun (s : State) (x : SipXfer) => s.setChan ch { s.chan ch with xfer := some x }
  match s.fillAt flume with
  | none => put s { x with code := some 0 }
  | some f => match s.listOf f.page f.st with
    | none => put s { x with code := some 0 }
    | some l =>
      let row := 4 * f.k + f.rows.length
      if fail ≠ 0 then
        let tile := ((l.entries.find? (fun e => decide (e.row ≤ row ∧ row < e.row + e.dir.h) && !s.pinResident e.fn e.tile)).map (fun e => e.tile)).getD 0x3FFFF
        put (s.failCompose f.page 0x47 tile f.st) { x with code := some fail }
      else
        let p := s.rowPlan l flume row
        let n := min 4096 (x.desc.count - x.moved)
        let s := { s with tile := s.tile.putBytes (streamBase flume + x.moved) ((p.2.drop x.moved).take n) }
        let m := x.moved + n
        let s := put s { x with moved := m, code := if m = x.desc.count then some 0 else none }
        if m = x.desc.count then (s.rowDone f l p.1).fillNext flume 5 else s

/-- One burst of a pinned range's copy (R266); an error at the tile store is STORE_ERROR (R272). -/
def State.pinBurst (s : State) (ch : Nat) (x : SipXfer) (i fail : Nat) : State :=
  let put := fun (s : State) (x : SipXfer) => s.setChan ch { s.chan ch with xfer := some x }
  if fail ≠ 0 then
    let r := s.pinRange i
    put ((s.lastErr 0x47 r.1 r.2.1).report 0x05 0 0x47 (r.1 * 2 ^ 18 + r.2.1)) { x with code := some fail }
  else
    let n := min 4096 (x.desc.count - x.moved)
    let s := { s with tile := s.tile.putBytes (s.pinBase i + x.moved) (((s.pinBytes i).drop x.moved).take n) }
    let m := x.moved + n
    let s := if m = x.desc.count then s.setPin i { s.pinOf i with copied := true } else s
    put s { x with moved := m, code := if m = x.desc.count then some 0 else none }

end Sys2Proof.Machine
end

