-- ==== Sys2Proof/Machine/KorBase.lean ====
section
/-! DEFINITION. The codec slots' registers (spec/06): state, failure counts, the end of a job. -/
namespace Sys2Proof.Machine

/-- Slot states of KOR_JOB_STATUS.STATE. -/
abbrev jobIDLE : Nat := 0
abbrev jobRUNNING : Nat := 1
abbrev jobWAITING : Nat := 2
abbrev jobDONE : Nat := 3

def State.job (s : State) (j : Nat) : KorJob := s.kor.jobs.getD {} j
def State.setJob (s : State) (j : Nat) (x : KorJob) : State := { s with kor := { s.kor with jobs := s.kor.jobs.set {} j x } }
def State.jobState (s : State) (j : Nat) : Nat := s.f (KOR_JOB_STATUS.STATE j)
def State.jobRefused (s : State) (j : Nat) : State := s.raise (KOR_JOB_STATUS.CTRL_REFUSED j)

/-- Put a slot in a state, with its bits of KOR_STATUS. -/
def State.setJobState (s : State) (j st : Nat) : State :=
  let s := s.setF (KOR_JOB_STATUS.STATE j) st
  let s := s.setF KOR_STATUS.RUNNING (setBit (s.f KOR_STATUS.RUNNING) j (decide (st = jobRUNNING)))
  s.setF KOR_STATUS.WAITING (setBit (s.f KOR_STATUS.WAITING) j (decide (st = jobWAITING)))

/-- Count a codec failure in KOR_DEC_ERR or KOR_LIM_ERR (R250, R251). -/
def State.codecCount (s : State) (code : Nat) : State :=
  if code = 0x20 then s.satInc KOR_DEC_ERR.BAD_BLOCK
  else if code = 0x21 then s.satInc KOR_DEC_ERR.BAD_STREAM
  else if code = 0x22 then s.satInc KOR_LIM_ERR.OUTPUT_LIMIT
  else if code = 0x23 then s.satInc KOR_LIM_ERR.SHORT_OUTPUT
  else s

/-- End a job with a code: DONE, its C0 where R250 gives one, and the turnout event KOR_JOB_DONE (R247). -/
def State.endJob (s : State) (j code : Nat) : State :=
  let s := ((s.setJobState j jobDONE).setF (KOR_JOB_STATUS.CODE j) code).setJob j {}
  let s := if code = 0x03 ∨ 0x10 ≤ code then s.report 0x04 0 code j else s
  let s := (s.codecCount code).event (96 + j)
  if code = 0x01 then s else s.mark mkJob j

end Sys2Proof.Machine
end

