-- ==== Sys2Proof/Machine/InsBase.lean ====
section
/-! DEFINITION. What the pages need of inspection (spec/11): a page's sides at its first latch line, the stations that take part, the values in force. -/
namespace Sys2Proof.Machine

/-- What a side of the inspection block holds beside its registers. -/
def State.insSide (s : State) (side : Nat) : InsSide := s.ins.sides.getD {} side
def State.setInsSide (s : State) (side : Nat) (x : InsSide) : State := { s with ins := { s.ins with sides := s.ins.sides.set {} side x } }
def State.modInsSide (s : State) (side : Nat) (g : InsSide → InsSide) : State := s.setInsSide side (g (s.insSide side))

/-- Is a side enabled by the fuses (R6)? -/
def State.sideOn (s : State) (side : Nat) : Bool := decide (side < 2) && bit s.variant.sides side

/-- INS_CTRL.ENs. -/
def State.sideEnabled (s : State) (side : Nat) : Bool := if side = 0 then s.b INS_CTRL.EN0 else s.b INS_CTRL.EN1

/-- The sides of a page's INSPECT bits. -/
def PageDesc.insSides (d : PageDesc) : List Nat := (List.range 2).filter (fun i => d.inspect.getLsbD i)

/-- At a page's first latch line each side takes INS_CTRL (R420). -/
def State.insFirstLatch (s : State) (f : Frame) (p : Page) : State :=
  p.desc.insSides.foldl (fun s i => s.modInsSide i (fun x => { x with pages := x.pages ++ [{ page := p.seq, side := i, tof := f.tof, remain := f.remain, on := s.sideEnabled i }] })) s

/-- Change a page side under inspection. -/
def State.modInsPage (s : State) (seq side : Nat) (g : InsPage → InsPage) : State :=
  s.modInsSide side (fun x => { x with pages := x.pages.map (fun y => if y.page = seq then g y else y) })

/-- At a station's latch line: does it take part in the reference of its side (R409)? -/
def State.insStationLatch (s : State) (p : Page) (st : Nat) : State :=
  let side := s.wf (SCN_ROUTE.SIDE st)
  if bit (s.f (INS_MAP_INCL.INCL side)) st then s.modInsPage p.seq side (fun y => { y with sts := y.sts ||| BitVec.ofNat 12 (2 ^ st) }) else s

/-- The working values of a station's corrected items (R428). -/
def State.insVals (s : State) (st : Nat) : InsVals :=
  { win := s.f (EXP_WIN.WORK st), base := s.wf (SCN_SKEW.BASE st), ofs := s.wf (SCN_OFS.LINES st), slope := sgn 12 (s.wf (SCN_SKEW.SLOPE st)),
    bow := (List.range 94).map (fun j => s.wword (SCN_BOW.word st j)), sol := s.wf (SCN_SOL.TAPS st),
    dly := (List.range 8).map (fun f => sgn 13 (s.wf (SCN_FACET_DLY.TAPS st f))),
    adj := (List.range 72).map (fun e => s.fi (EXP_CUR_ADJ.ADJ st e)),
    fill := (List.range 16).map (fun m => bits (s.wword (EXP_FILL.word st (m / 8))).toNat (4 * (m % 8)) 4),
    dead := s.wf (EXP_DEAD.DEAD st 0) + 2 ^ 32 * s.wf (EXP_DEAD.DEAD st 1) + 2 ^ 64 * s.wf (EXP_DEAD2.DEAD st) }

/-- At a page's top-of-form at a station the values in force are recorded for each side that inspects the page (R428). -/
def State.insPageTof (s : State) (p : Page) (st : Nat) : State :=
  p.desc.insSides.foldl (fun s i => s.modInsPage p.seq i (fun y => { y with vals := y.vals.put st (s.insVals st) })) s

/-- A side's audit stream is cut: it is discarded as a C0, and its codec slot rests (R191, R249; assumption log 39). -/
def State.auditCut (s : State) (y : InsPage) : State :=
  if y.audit ≠ 1 then s
  else
    let p := (s.page? y.page).getD {}
    ((s.setJobState (6 + y.side) jobIDLE).report 0x03 0 0x0F p.fn (idAddr p.desc.pageId)).modInsPage y.page y.side (fun z => { z with audit := 2 })

/-- The audit streams that run are discarded (R249). -/
def State.auditsCut (s : State) : State := (List.range 2).foldl (fun s i => (s.insSide i).pages.foldl (fun s y => s.auditCut y) s) s

/-- Forget what inspection holds of a page, and its ring data (R86, R423). -/
def State.insDrop (s : State) (seq : Nat) : State :=
  let s := (List.range 2).foldl (fun s i => ((s.insSide i).pages.filter (fun y => y.page = seq)).foldl (fun s y => s.auditCut y) s) s
  ((List.range 2).foldl (fun s i => s.modInsSide i (fun x => { x with pages := x.pages.filter (fun y => y.page ≠ seq) })) s).dropStreams seq

end Sys2Proof.Machine
end

