-- ==== Sys2Proof/Machine/Pages.lean ====
section
/-! DEFINITION. The meanings of the page commands (spec/02): descriptors, frames and their lines. -/
namespace Sys2Proof.Machine

/-- What a meaning answers: every command has an effect. -/
abbrev Ans := Host.Outcome State Fault Refusal

/-- The read of the entry at the head of `fn`'s queue has completed: the head moves past it (R107). -/
def State.entryRead (s : State) (fn : Nat) : State :=
  { s with hif := { s.hif with fetching := none } }.setF (HIF_SQ_HEAD.HEAD fn) ((s.f (HIF_SQ_HEAD.HEAD fn) + 1) % s.sqSlots fn)

/-- Is the descriptor read of `fn`'s queue outstanding? -/
def State.reading (s : State) (fn : Nat) : Bool := s.hif.fetching = some fn

/-- Refuse a descriptor: its completion status and the count (R53, HIF_Q_REFUSED). -/
def State.refuse (s : State) (fn : Nat) (d : PageDesc) (status : Nat) : State :=
  (s.descEvent fn d status).wrapInc (HIF_Q_REFUSED.COUNT fn)

/-- Accept a descriptor: ACCEPTED and the count (R58, HIF_Q_ACCEPTED). -/
def State.accept (s : State) (fn : Nat) (d : PageDesc) : State :=
  (s.descEvent fn d 0x00).wrapInc (HIF_Q_ACCEPTED.COUNT fn)

/-- A page known only by its spooled copy (R130, R193), as a page in a final state. -/
def copyPage (c : Copy) : Page := { fn := c.fn, desc := c.desc, src := c.src, phase := .final 3 0 }

/-- The page a REISSUE, RELEASE or CANCEL names. -/
def State.namedPage (s : State) (fn : Nat) (d : PageDesc) : Option Page :=
  match s.findPage fn d.pageId with
  | some p => some p
  | none => (s.findCopy fn d.pageId).map copyPage

/-- A page that has its ACCEPTED: its cascade part is committed where the device is a member (R556), and it takes its place. -/
def State.acceptPage (s : State) (fn : Nat) (d : PageDesc) (p : Page) : State :=
  ((s.accept fn d).commitPage p).syncQueue fn

/-- PAGE_PRINT (R50, R51, R53 to R61): a PRINT descriptor is checked, committed and claims a frame. A page it replaces under R55 goes with its copy. -/
def execPagePrint (fn : Nat) (desc : List (BitVec 8)) (src : Option (List (BitVec 8))) (s : State) : Ans :=
  let d := parsePage desc
  if !s.reading fn || d.opcode ≠ 1 then .next s
  else
    let es := src.map (parseSource (stationList d.stations).length)
    let s := s.entryRead fn
    match descCheck s fn d es with
    | some c => .next (s.refuse fn d c)
    | none =>
      let s := match s.findPage fn d.pageId with
        | some p => ((s.freeCopy fn d.pageId).freeAudits fn d.pageId).dropPage p.seq
        | none => s
      let p : Page := { fn := fn, desc := d, src := es.getD [], last := d.last }
      let s := if d.noSpool then s else s.newCopy fn d (es.getD [])
      .next (s.acceptPage fn d p)

/-- PAGE_REISSUE (R52, R56, R57): the page is committed again from its spooled original descriptor; only LAST comes from the REISSUE. -/
def execPageReissue (fn : Nat) (desc : List (BitVec 8)) (s : State) : Ans :=
  let d := parsePage desc
  if !s.reading fn || d.opcode ≠ 2 then .next s
  else
    let s := s.entryRead fn
    match descCheck s fn d none, s.namedPage fn d with
    | some c, _ => .next (s.refuse fn d c)
    | none, none => .next s
    | none, some p =>
      let s := if (s.findPage fn d.pageId).isSome then s.dropPage p.seq else s
      .next (s.acceptPage fn d { p with last := d.last, reissued := true, auto := false, spoil := none, latchedSt := 0, tofSt := 0, doneSt := 0,
                                        verdicts := [], feedReq := false, releaseReq := false, muted := false, flr := false, heard := false })

/-- PAGE_RELEASE (R84, R85): a page in a final state is released now; any other when it reaches its final state. An automatic reprint that is still to
be printed is cancelled: its series ends CANCELLED (DEDUCED from R76, R79; assumption log 97). -/
def execPageRelease (fn : Nat) (desc : List (BitVec 8)) (s : State) : Ans :=
  let d := parsePage desc
  if !s.reading fn || d.opcode ≠ 3 then .next s
  else
    let s := s.entryRead fn
    match descCheck s fn d none, s.namedPage fn d with
    | some c, _ => .next (s.refuse fn d c)
    | none, none => .next s
    | none, some p =>
      let s := s.accept fn d
      if p.isFinal then .next (s.releaseNow { p with muted := false })
      else
        let s := s.modPage p.seq (fun q => { q with releaseReq := true, heard := true })
        if p.auto && (p.phase = .waiting || p.phase = .claimed) then .next ((s.withdraw p.seq 0x06).claims.syncQueue fn)
        else .next s

/-- PAGE_CANCEL (R76): the page ends CANCELLED and its frame prints blank with the page's pitch. -/
def execPageCancel (fn : Nat) (desc : List (BitVec 8)) (s : State) : Ans :=
  let d := parsePage desc
  if !s.reading fn || d.opcode ≠ 4 then .next s
  else
    let s := s.entryRead fn
    match descCheck s fn d none, s.namedPage fn d with
    | some c, _ => .next (s.refuse fn d c)
    | none, none => .next s
    | none, some p => .next (((s.accept fn d).withdraw p.seq 0x06).claims.syncQueue fn)

/-- DESCRIPTOR_INVALID (R53): a bad CHECK or an invalid opcode refuses the descriptor, with no other effect. -/
def execDescriptorInvalid (fn : Nat) (desc : List (BitVec 8)) (s : State) : Ans :=
  let d := parsePage desc
  if !s.reading fn || (d.checkOk && 1 ≤ d.opcode && d.opcode ≤ 4) then .next s
  else .next ((s.entryRead fn).refuse fn d (if d.checkOk then 0x25 else 0x24))

/-- Frames that still lie on the web: blank frames that have passed every enabled station are forgotten. -/
def State.sweepFrames (s : State) : State :=
  let far := (s.enabledStations.map s.ofs).foldl max 0
  { s with pages := { s.pages with frames := s.pages.frames.filter (fun f =>
      !(f.page.isNone && f.latched && decide (f.tof + f.pitch + far < s.scn.webLine))) } }

/-- The frame that latches next: of those that have not latched, the one with the smallest first latch line. -/
def State.nextLatch (s : State) : Option Frame :=
  match s.pages.frames.filter (fun f => !f.latched) with
  | [] => none
  | f :: t => some (t.foldl (fun (a : Frame) g => if g.firstLatch < a.firstLatch then g else a) f)

/-- Is the next unclaimed frame to be made blank: its first latch line, with the smallest offset of all enabled stations, is reached (R62), and no frame
that is to latch comes before it? -/
def State.blankDue (s : State) : Bool :=
  match s.pages.nextTof with
  | none => false
  | some t =>
    let l := s.latchLine t s.enabledStations
    s.inRun && !s.sheetMode && !s.ringMember && decide (l ≤ s.scn.webLine) && s.nextLatch.all (fun f => decide (l < f.firstLatch))

/-- FIRST_LATCH (R62 to R64, R70): the first latch line of a frame has been reached by the web line count, the lowest line first. A claimed frame's page is fixed and
reports LATCHED; a frame whose page was cancelled or dropped prints blank (R63), as does that of a composed page at risk (R270, R271); an unclaimed frame is
made blank (R62). -/
def execFirstLatch (s : State) : Ans :=
  let s := s.sweepFrames
  if s.leaving then .next s
  else if s.blankDue then .next ((s.blankFrame.event 153).claims)
  else match s.nextLatch with
  | some f =>
    if s.scn.webLine < f.firstLatch then .next s
    else
      let s : State := match f.page.bind s.page? with
        | some p => if (s.cmp.judged.get? p.seq).any (fun (j : Nat × Bool) => j.2) && p.phase = .claimed then s.dropComposed p 0x45 0x3FFFF else s
        | none => s
      let f := (s.pages.frames.find? (fun g => g.tof = f.tof)).getD f
      let mark := fun (g : Frame) => if g.tof = f.tof then { g with latched := true } else g
      let s := { s with pages := { s.pages with frames := s.pages.frames.map mark } }.event 153
      match f.page.bind s.page? with
      | none => .next ((if f.line.isSome then s else s.blankEvent f.tof true).claims)
      | some p =>
        let first := (s.firstStation (stationList p.desc.stations)).getD 0
        let s := s.modPage p.seq (fun q => if q.isFinal then q else { q with phase := .latched })
        .next ((if p.isFinal then s else (s.insFirstLatch f p).pageEvent p 0x01 0 first).claims)
  | none => .next s

/-- The frame with a latched page that `st` prints next among those not marked in `done`. -/
def State.frameAt (s : State) (st : Nat) (done : Page → BitVec 12) : Option (Frame × Page) :=
  (s.pages.frames.filterMap (fun f => (f.page.bind s.page?).map (fun p => (f, p)))).find?
    (fun x => x.1.latched && x.2.desc.stations.getLsbD st && !(done x.2).getLsbD st)

/-- Mark a station in a mask. -/
def markSt (m : BitVec 12) (st : Nat) : BitVec 12 := m ||| BitVec.ofNat 12 (2 ^ st)

/-- STATION_LATCH (R66): the station's latch line T + O − 2,048 has passed; tone set, screen set and stream are fixed for it. -/
def execStationLatch (st : Nat) (s : State) : Ans :=
  match s.frameAt st (·.latchedSt) with
  | none => .next s
  | some (f, p) =>
    if s.lineAt st + 2048 < s.topAt f st then .next s
    else
      let s := if decide (p.desc.format = 3) && decide (s.firstStation (stationList p.desc.stations) = some st) then s.wrapInc CMP_PAGES.COUNT else s
      .next ((s.modPage p.seq (fun q => { q with latchedSt := markSt q.latchedSt st })).insStationLatch p st)

/-- PAGE_TOF (R46, R73): the top-of-form reaches the station, which raises PAGE_TOF; at the first station the page counts as started. STARTED is taken as
tied to that station and carries it; PRINTED, which follows the last of several stations, carries 0xFF (DEDUCED from R111; assumption log 98). -/
def execPageTof (st : Nat) (s : State) : Ans :=
  match s.frameAt st (·.tofSt) with
  | none => .next s
  | some (f, p) =>
    if s.lineAt st < s.topAt f st then .next s
    else
      let s := ((s.modPage p.seq (fun q => { q with tofSt := markSt q.tofSt st })).insPageTof p st).event (104 + st)
      if s.firstStation (stationList p.desc.stations) = some st ∧ ¬ p.isFinal then .next (s.pageEvent p 0x02 0 st) else .next s

/-- PAGE_LAST_LINE (R77, R79): the last line passes the station, which raises PAGE_END; at the last named station the page is PRINTED: final
unless it is inspected, and then its VERDICT is awaited. -/
def execPageLastLine (st : Nat) (s : State) : Ans :=
  match s.frameAt st (·.doneSt) with
  | none => .next s
  | some (f, p) =>
    if s.lineAt st < s.topAt f st + f.len then .next s
    else
      let m := markSt p.doneSt st
      let s := (s.modPage p.seq (fun q => { q with doneSt := m })).event (116 + st)
      let s := if p.desc.inspected && !p.isFinal then s
        else { s with pages := { s.pages with streams := s.pages.streams.filter (fun x => !(x.page = p.seq && x.st = st)) } }
      if (stationList p.desc.stations).any (fun u => !m.getLsbD u) then .next s
      else
        let s := s.modFrame p.seq (fun g => { g with page := none, blank := true })
        let s := s.sendFeatures p.desc.pageId (s.ins.sweepSide.any (fun i => p.desc.inspect.getLsbD i))
        if p.isFinal then .next s
        else if p.desc.inspected then .next ((s.modPage p.seq (fun q => { q with phase := .printed })).pageEvent p 0x03 0)
        else .next (s.finalState p.seq 0x03 0)

/-- Ends of the sheets before the next one, in web lines: of those whose edge has come, and, as predicted, of those that have been asked for (R94). -/
def State.sheetEnds (s : State) : List Nat :=
  let ask := fun (line len : Nat) => line + Config.feedLines + s.obj 0x2101 4 + len
  s.pages.frames.map (fun f => f.tof - f.remain + f.len) ++
  s.pages.sheetReq.map (fun x => ask x.2 (((s.page? x.1).map (fun p => p.desc.length)).getD 0)) ++
  s.cul.lines.filterMap (fun l => if l.tof.isNone then l.fedAt.map (fun a => ask a ((l.parts.head?.map (fun p => p.len)).getD 0)) else none)

/-- Does a feed asked for now leave the gap of object 0x2101:03 after the previous sheet's page (R92)? -/
def State.feedDue (s : State) : Bool :=
  s.sheetEnds.all (fun e => decide (e + s.obj 0x2101 3 ≤ s.scn.webLine + Config.feedLines + s.obj 0x2101 4))

/-- FEED_REQUEST (R92, R95): in sheet mode, the next committed page's sheet is asked for, in commit order, once the gap after the previous one is left. -/
def execFeedRequest (s : State) : Ans :=
  if s.ringMember then .next s
  else if s.ringMaster then
    match s.cul.lines.find? (fun l => l.tof.isNone && !l.late && l.fedAt.isNone) with
    | none => .next s
    | some l =>
      if !s.sheetMode || !s.inRun then .next s
      else match s.lineClass l with
        | some c => .next { s with pages := { s.pages with wantClass := some c } }
        | none =>
          if !s.settled || !s.feedDue then .next s
          else
            let s := if s.lineRefused l then s.setF SCN_STATE.REFUSE 1 else s
            .next ((s.modLine l.pageId (fun x => { x with fedAt := some s.scn.webLine })).event 152)
  else match s.pages.pages.find? (fun p => p.phase = .waiting && !p.feedReq) with
  | none => .next s
  | some p =>
    if !s.sheetMode || !s.inRun then .next s
    else match s.wantsClass p with
      | some c => .next { s with pages := { s.pages with wantClass := some c } }
      | none =>
        if !s.settled || !s.feedDue then .next s
        else
          let s := s.modPage p.seq (fun q => { q with feedReq := true })
          .next ({ s with pages := { s.pages with sheetReq := s.pages.sheetReq ++ [(p.seq, s.scn.webLine)] } }.event 152)

/-- Has the window of object 0x2101:05, centred on the position predicted for a feed asked for at a line, passed (R94)? -/
def State.edgeMissed (s : State) (line : Nat) : Bool := decide (2 * (line + Config.feedLines) + s.obj 0x2101 5 < 2 * s.scn.webLine)

/-- Does an edge at the present line fall in that window? -/
def State.edgeInWindow (s : State) (line : Nat) : Bool :=
  !s.edgeMissed line && decide (2 * (line + Config.feedLines) ≤ 2 * s.scn.webLine + s.obj 0x2101 5)

/-- SHEET_EDGE_TIMEOUT (R94): no edge in the window of a requested feed, a C3; the pages follow R86 when the Sump acts. -/
def execSheetEdgeTimeout (s : State) : Ans :=
  if s.ringMaster then
    if s.sheetMode && s.cul.lines.any (fun l => l.tof.isNone && !l.late && l.fedAt.any s.edgeMissed) then .next (s.report 0x01 3 0x0F) else .next s
  else match s.pages.sheetReq with
  | [] => .next s
  | x :: t =>
    if !s.sheetMode || !s.edgeMissed x.2 then .next s
    else .next ({ s with pages := { s.pages with sheetReq := t } }.report 0x01 3 0x0F)

end Sys2Proof.Machine
end

