-- ==== Sys2Proof/Machine/Rate.lean ====
section
/-! DEFINITION. Speed classes and what scales with them (R13), the weir's conditions (R34, R621), and the Flume capacity (R300, R301). -/
namespace Sys2Proof.Machine

/-- Web speed of a class in µm/s (R13). -/
def webSpeed : Nat → Nat
  | 0 => 4000000 | 1 => 3000000 | 2 => 2000000 | 3 => 1000000 | _ => 500000

/-- Facet period of a class in nanoseconds: 64 lines of 1/2400 inch at its web speed, (2032 / 3) µm, rounded down (R13). -/
def facetNs (c : Nat) : Nat := 2032000000000 / (3 * webSpeed c)

/-- Time of `lines` line periods at a class in milliseconds; twice as long in half-advance (R348). -/
def State.linesMs (s : State) (c lines : Nat) : Nat :=
  lines * 127 * 1000 / (12 * webSpeed c) * (if s.b SCN_CTRL.HALF then 2 else 1)

/-- The tile-store budget of a class (R269). -/
def State.budget (s : State) (c : Nat) : Nat :=
  if s.variant.composer then 40640000000000 / (3 * s.variant.stations * webSpeed c) else 0

/-- Bring TARGET in line with the classes that the weir conditions ask for: the slowest of them (R34). -/
def State.syncWeir (s : State) : State :=
  s.setF THM_WEIR.TARGET (if s.scn.asks.isEmpty then 7 else s.scn.asks.foldl (fun a e => max a e.2) 0)

/-- Make a weir condition active: bit 0 THERMAL, 1 UNDERRUN, 2 CAPACITY, 3 PACE; one that becomes active raises WEIR (R530). -/
def State.weirOn (s : State) (cond : Nat) : State :=
  let s1 := s.setF THM_WEIR.ACTIVE (setBit (s.f THM_WEIR.ACTIVE) cond true)
  if bit (s.f THM_WEIR.ACTIVE) cond then s1 else s1.event 159

/-- A weir condition asks for a class at the next page gap (R33, R34). -/
def State.weirAsk (s : State) (cond cls : Nat) : State :=
  { s with scn := { s.scn with asks := s.scn.asks.put cond cls } }.syncWeir

/-- A weir condition clears. Clearing never raises the class (R622). -/
def State.weirOff (s : State) (cond : Nat) : State :=
  { s.setF THM_WEIR.ACTIVE (setBit (s.f THM_WEIR.ACTIVE) cond false) with scn := { s.scn with asks := s.scn.asks.erase cond } }.syncWeir

/-- Live Flumes: neither fenced nor retired (R300). -/
def State.liveFlumes (s : State) : Nat := 16 - popcount (s.f FLM_FENCED.MASK) 16

/-- The fastest class whose need is at most the live Flumes (R301). -/
def State.classFor (s : State) : Option Nat :=
  (List.range 5).find? (fun c => s.variant.fastest ≤ c && decide (flumesRequired s.variant.stations c ≤ s.liveFlumes))

/-- Compare LIVE with REQ (R300, R301): below REQ, CAPACITY is active and a slower class is asked for; below the need of class 4, a C3. -/
def State.checkCapacity (s : State) : State :=
  let live := s.liveFlumes
  let s := s.setF FLM_STATUS.LIVE live
  if live < s.f FLM_STATUS.REQ then
    let s := (s.setF FLM_STATUS.CAP_SHORT 1).weirOn 2
    match s.classFor with
    | some c => s.weirAsk 2 c
    | none => (s.weirAsk 2 4).report 0x06 3 0x43 0xFF0000
  else if s.b FLM_STATUS.CAP_SHORT then (s.setF FLM_STATUS.CAP_SHORT 0).weirOff 2
  else s

/-- A class change starts the grace time of an active THERMAL again (R621), and the 10 ms of PACE (R611). -/
def State.classChanged (s : State) (c : Nat) : State :=
  if s.pwr.inForce = c then s
  else
    let hot := bit (s.f THM_WEIR.ACTIVE) 0
    { s with pwr := { s.pwr with inForce := c, grace := s.pwr.grace || hot, changed := s.pwr.changed || hot, slow := 0 } }

/-- A class takes force: CLASS_NOW, REQ (R311), the budget (R269). -/
def State.setClass (s0 : State) (c : Nat) : State :=
  let s := s0.classChanged c
  (((s.setF SCN_STATE.CLASS_NOW c).setF FLM_STATUS.REQ (flumesRequired s.variant.stations c)).setF CMP_BUDGET.BYTES (s.budget c)).checkCapacity

/-! ## Frames at a station -/

/-- Has a station a latched page that it has not finished (R361)? -/
def State.stationBusy (s : State) (st : Nat) : Bool :=
  s.pages.frames.any (fun f => f.latched && (f.page.bind s.page?).any (fun p => p.desc.stations.getLsbD st && !p.doneSt.getLsbD st))

/-- Is a station printing: between the first and the last sweep that carries a line of a latched page? -/
def State.printing (s : State) (st : Nat) : Bool :=
  s.pages.frames.any (fun f => (f.page.bind s.page?).any (fun p =>
    f.latched && p.desc.stations.getLsbD st && !p.doneSt.getLsbD st && decide (s.topAt f st ≤ s.lineAt st)))

end Sys2Proof.Machine
end

