-- ==== Sys2Proof/Machine/Composer.lean ====
section
/-! DEFINITION. The tile composer (spec/07): placement lists, tile loads, risk, pins; its commands' meanings. -/
namespace Sys2Proof.Machine

/-! ## Placement lists (R257 to R262) -/

/-- The entries of a landed placement list, for a page of function `fn`. -/
def parsePlacements (fn : Nat) : Nat → List Byte → List Placement
  | 0, _ => []
  | n + 1, b =>
    let t := leAt b 0 4
    { fn := if bit t 31 then 0 else fn, tile := bits t 0 18, col := leAt b 4 2, row := leAt b 8 4, layer := leAt b 12 1 } :: parsePlacements fn n (b.drop 16)

/-- Do an entry's bytes keep the table of R257? -/
def entryOk (rows layers : Nat) (b : List Byte) : Bool :=
  decide (bits (leAt b 0 4) 18 13 = 0 ∧ leAt b 4 2 < 3000 ∧ leAt b 6 2 = 0 ∧ leAt b 8 4 < rows ∧ leAt b 12 1 < layers ∧ leAt b 13 3 = 0)

/-- Do all entries keep R257, in non-decreasing ROW order (R258)? -/
def entriesOk (rows layers : Nat) : Nat → List Byte → Nat → Bool
  | 0, _, _ => true
  | n + 1, b, prev => entryOk rows layers b && decide (prev ≤ leAt b 8 4) && entriesOk rows layers n (b.drop 16) (leAt b 8 4)

/-- Does the header keep R257? -/
def listHeaderOk (d : PageDesc) (layers len : Nat) (b : List Byte) : Bool :=
  decide (leAt b 0 4 = 0x4C504D43 ∧ leAt b 4 1 = 1 ∧ leAt b 5 1 = layers ∧ leAt b 6 1 < 2 ^ layers ∧ leAt b 7 1 = 0 ∧
    leAt b 8 4 = (len - 32) / 16 ∧ leAt b 12 4 = d.rows ∧ leAt b 16 16 = 0)

/-- The block rows that a placement covers, clipped to the page (R260). -/
def Placement.rows (e : Placement) (rows : Nat) : Nat × Nat := (e.row, min rows (e.row + e.dir.h))

/-- Does a placement cover furrow `k`? -/
def Placement.inFurrow (e : Placement) (rows k : Nat) : Bool :=
  let r := e.rows rows
  decide (r.1 < 4 * k + 4 ∧ 4 * k < r.2)

/-- Is every furrow covered by at most 512 placements (R262)? -/
def coverOk (d : PageDesc) (es : List Placement) : Bool :=
  (List.range d.furrows).all (fun k => decide ((es.filter (fun e => e.inFurrow d.rows k)).length ≤ 512))

/-! ## Risk (R269, R270) -/

/-- Columns of a tile's block row that fall on the page (R260). -/
def Placement.cols (e : Placement) : Nat := min e.dir.w (3000 - e.col)

/-- The tile block rows that furrow `k` reads through a placement, as (function, tile, tile row, bytes). -/
def Placement.reads (e : Placement) (rows k : Nat) : List (Nat × Nat × Nat × Nat) :=
  ((List.range 4).filter (fun i => decide (e.row ≤ 4 * k + i ∧ 4 * k + i < min rows (e.row + e.dir.h)))).map
    (fun i => (e.fn, e.tile, 4 * k + i - e.row, e.cols * blockBytes e.dir.f2))

/-- The cost of a furrow: bytes of the distinct pairs of tile and tile block row read from the tile store; resident pins cost nothing (R269). -/
def State.furrowCost (s : State) (rows k : Nat) (es : List Placement) : Nat :=
  let reads := (es.filter (fun e => !s.pinResident e.fn e.tile)).flatMap (fun e => e.reads rows k)
  let keys := (reads.map (fun r => (r.1, r.2.1, r.2.2.1))).eraseDups
  keys.foldl (fun a key => a + ((reads.filter (fun r => (r.1, r.2.1, r.2.2.1) = key)).map (fun r => r.2.2.2)).foldl max 0) 0

/-- Is a page at risk at the class in force (R269)? -/
def State.atRisk (s : State) (p : Page) : Bool :=
  (s.cmp.lists.filter (fun l => l.page = p.seq)).any (fun l =>
    (List.range p.desc.furrows).any (fun k => decide (s.f CMP_BUDGET.BYTES < s.furrowCost p.desc.rows k l.entries)))

/-- Judge a page at the class in force (R270). The result stands until a later evaluation, or until the page's first latch line; a page that has passed it fails
at once. -/
def State.judge (s : State) (p : Page) : State :=
  let risk := s.atRisk p
  let s := { s with cmp := { s.cmp with judged := s.cmp.judged.put p.seq (s.classNow, risk) } }
  if !risk then s
  else
    let s := s.raise CMP_STATUS.RISK
    if p.phase = .waiting || p.phase = .claimed then s else s.failCompose p.seq 0x45 0x3FFFF

/-- Have all the page's lists landed and their entries been read? -/
def State.listsRead (s : State) (p : Page) : Bool :=
  (stationList p.desc.stations).all (fun st => s.cmp.lists.any (fun l => l.page = p.seq && l.st = st && l.read))

/-- The active page whose placement list for a station has landed whole and is not yet in `lists`, in commit order. -/
def State.freshList (s : State) (st : Nat) : Option (Page × Stream) :=
  (s.pages.pages.filterMap (fun p =>
    if p.active && p.desc.format = 3 && !s.cmp.lists.any (fun l => l.page = p.seq && l.st = st) then
      (s.pages.streams.find? (fun x => x.page = p.seq && x.st = st && decide (x.len ≤ x.data.length))).map (fun x => (p, x))
    else none)).head?

/-- PLACEMENT_LIST_LANDED (R257 to R262, R265): the list is examined; its tiles are held, and their directory entries are to be read. -/
def execPlacementListLanded (st : Nat) (s : State) : Host.Outcome State Fault Refusal :=
  match s.freshList st with
  | none => .next s
  | some (p, x) =>
    let n := (x.len - 32) / 16
    let body := x.data.drop 32
    let es := parsePlacements p.fn n body
    let l : PList := { page := p.seq, st := st, layers := x.layers, modes := leAt x.data 6 1, entries := es }
    let keep := s.cmp.lists.filter (fun l => (s.page? l.page).any (fun q => q.active))
    let put := fun (s : State) => { s with cmp := { s.cmp with lists := keep ++ [l] } }
    if !listHeaderOk p.desc x.layers x.len x.data then .next ((put s).failCompose p.seq 0x40 0x3FFFF)
    else if !entriesOk p.desc.rows x.layers n body 0 then .next ((put s).failCompose p.seq 0x41 0x3FFFF)
    else .next (put s)

/-- DIRECTORY_ENTRY_READ (R254, R258, R262, R265, R270): the entries that a list names have been read, or the read of entry `failed` failed, by its tag or by
the drive (R205). Valid tiles are wanted in the store; the page is judged once all its lists are read. -/
def execDirectoryEntryRead (st : Nat) (failed : Option Nat) (tag : Bool) (s : State) : Host.Outcome State Fault Refusal :=
  match s.cmp.lists.find? (fun l => l.st = st && !l.read && (s.page? l.page).any (fun p => p.active)) with
  | none => .next s
  | some l =>
    match s.page? l.page with
    | none => .next s
    | some p =>
      let es := l.entries.map (fun e => { e with dir := s.dirEntry e.fn e.tile })
      let mark := fun (x : PList) => if x.page = l.page && x.st = st then { x with read := true, entries := es } else x
      let s := { s with cmp := { s.cmp with lists := s.cmp.lists.map mark } }
      match failed.bind (fun i => es[i]?) with
      | some e => .next (((s.readFailed e.fn tag).report 0x03 0 0x0F e.fn).failCompose p.seq 0x44 e.tile)
      | none =>
        match es.find? (fun e => !e.dir.valid) with
        | some e => .next (s.failCompose p.seq 0x42 e.tile)
        | none =>
          match es.find? (fun e => e.dir.f2 ≠ bit l.modes e.layer) with
          | some e => .next (s.failCompose p.seq 0x43 e.tile)
          | none =>
            if !coverOk p.desc es then .next (s.failCompose p.seq 0x41 0x3FFFF)
            else
              let s := es.foldl (fun s e => s.wantTile e.fn e.tile) s
              .next (if s.listsRead p then s.judge p else s)

/-- TILE_LOAD_COMPLETE (R256, R265, R272): a load ends: all of the tile has landed, or its read failed. A stale copy is loaded again; a failed read fails every
page that names the tile. Ranges of pins that are there now go on to the pinned area. -/
def execTileLoadComplete (fn tile : Nat) (s : State) : Host.Outcome State Fault Refusal :=
  match s.stored fn tile with
  | none => .next s
  | some t =>
    if !t.loading || t.waits || t.again then .next s
    else match t.err with
      | some c =>
        let s := s.setStore (s.cmp.store.filter (fun x => !(x.fn = fn && x.tile = tile)))
        let hit := (s.cmp.lists.filter (fun l => l.entries.any (fun e => e.fn = fn && e.tile = tile))).map (fun l => l.page)
        .next (hit.eraseDups.foldl (fun s q => s.failCompose q (if c = 0x30 then 0x47 else 0x44) tile) s)
      | none =>
        if t.got < t.size then .next s
        else if t.stale then .next (s.startLoad fn tile)
        else .next ((s.modTile fn tile (fun x => { x with loading := false })).pinCopies)

/-- TILE_LOAD_RESUME (R265): a load that waited starts if room can be made now. -/
def execTileLoadResume (fn tile : Nat) (s : State) : Host.Outcome State Fault Refusal :=
  match s.stored fn tile with
  | none => .next s
  | some t => .next (if t.waits then s.startLoad fn tile else s)

/-- RISK_REEVALUATE (R270): at a page's first latch line minus one, where it was judged at another class, it is judged again. A page at risk by the result that
stands is dropped (R271). -/
def execRiskReevaluate (s : State) : Host.Outcome State Fault Refusal :=
  match s.nextLatch with
  | none => .next s
  | some f =>
    match f.page.bind s.page? with
    | none => .next s
    | some p =>
      match s.cmp.judged.get? p.seq with
      | none => .next s
      | some j =>
        if s.scn.webLine + 1 < f.firstLatch || p.isFinal then .next s
        else
          let s := if j.1 = s.classNow then s else s.judge p
          .next (if (s.cmp.judged.get? p.seq).any (fun j => j.2) then s.failCompose p.seq 0x45 0x3FFFF else s)

/-! ## Pins (R266) -/

/-- Unpin an entry: its bytes leave the pinned area. -/
def State.unpin (s : State) (i : Nat) : State := ((s.setPinBytes i 0).setF (CMP_PIN_ID.RESIDENT i) 0).dropJobs (fun j => j ≠ .pin i)

/-- Take a pin entry into use: its range is loaded, unless a tile of it is invalid or it does not fit (R266). -/
def State.pin (s : State) (i : Nat) : State :=
  let fn := (s.pinRange i).1
  let es := (s.pinTiles i).map (fun t => s.dirEntry fn t)
  let bytes := es.foldl (fun a e => a + e.size) 0
  if es.any (fun e => !e.valid) then s.raise CMP_STATUS.PIN_ERR
  else if 4194304 < s.f CMP_PIN_USED.BYTES + bytes then s.raise CMP_STATUS.PIN_FULL
  else ((s.pinTiles i).foldl (fun s t => s.wantTile fn t) (s.setPinBytes i bytes)).pinCopies

/-- May a pin entry be written now (R266)? -/
def State.pinOpen (s : State) : Bool := s.power = pwrREADY || s.power = pwrSTANDBY

/-- A write of CMP_PIN_ID reaches an entry: a powered-down block takes it, or it is refused. -/
def State.pinWrite (s : State) (i : Nat) (value : BitVec 32) : Option State :=
  let off := CMP_PIN_ID.word i
  if 16 ≤ i then some s
  else if s.poweredDown off then some (s.darkWrite off value.toNat)
  else if !s.pinOpen then some (s.raise CMP_STATUS.CTRL_REFUSED)
  else none

/-- PIN_ENABLE (R266): CMP_PIN_ID is written with EN 1; a write that changes nothing is no change (R17). -/
def execPinEnable (entry : Nat) (value : BitVec 32) (s : State) : Host.Outcome State Fault Refusal :=
  let off := CMP_PIN_ID.word entry
  if (s.word off ^^^ value) &&& 0x803FFFFF#32 = 0 ∧ ¬ s.poweredDown off then .next s
  else match s.pinWrite entry value with
    | some t => .next t
    | none =>
      if !value.getLsbD 31 then .next s
      else .next (((s.unpin entry).setWord off (value &&& 0x803FFFFF#32)).pin entry)

/-- PIN_DISABLE (R266): CMP_PIN_ID is written with EN 0; the range is unpinned. -/
def execPinDisable (entry : Nat) (value : BitVec 32) (s : State) : Host.Outcome State Fault Refusal :=
  let off := CMP_PIN_ID.word entry
  if (s.word off ^^^ value) &&& 0x803FFFFF#32 = 0 ∧ ¬ s.poweredDown off then .next s
  else match s.pinWrite entry value with
    | some t => .next t
    | none =>
      if value.getLsbD 31 then .next s
      else .next ((s.unpin entry).setWord off (value &&& 0x003FFFFF#32))

/-- CMP_PIN_CNT of an entry takes a value: a range in use is unpinned and pinned anew (R266). -/
def State.pinCount (s : State) (i v : Nat) : State :=
  if s.b (CMP_PIN_ID.EN i) then ((s.unpin i).setF (CMP_PIN_CNT.COUNT i) v).pin i else s.setF (CMP_PIN_CNT.COUNT i) v

/-- PIN_RESIDENT (R266): the whole range is in the store and has been copied to the pinned area. -/
def execPinResident (entry : Nat) (s : State) : Host.Outcome State Fault Refusal :=
  let fn := (s.pinRange entry).1
  if entry < 16 ∧ s.b (CMP_PIN_ID.EN entry) ∧ (s.pinOf entry).accepted ∧
      (s.pinOf entry).copied ∧ (s.pinTiles entry).all (fun t => s.tileResident fn t) then .next (s.setF (CMP_PIN_ID.RESIDENT entry) 1)
  else .next s

/-- Entry to SLEEP or deeper empties the tile store and the tile cache (R276). -/
def State.composerSleep (s : State) : State :=
  let s := (List.range 16).foldl (fun s i => s.unpin i) s
  ({ s with tile := [], cmp := { s.cmp with lists := [], fills := [], repin := true } }.setStore []).dropJobs (fun j => match j with
    | .compose _ => false
    | _ => true)

/-- After a return from SLEEP or deeper, once the spool serves again, every pin with EN set loads again (R276). -/
def State.composerWake (s : State) : State :=
  if !s.cmp.repin then s
  else (List.range 16).foldl (fun s i => if s.b (CMP_PIN_ID.EN i) && !(s.pinOf i).accepted then s.pin i else s) { s with cmp := { s.cmp with repin := false } }

end Sys2Proof.Machine
end

