-- ==== Sys2Proof/Machine/Pipeline.lean ====
section
/-! DEFINITION. What a Flume computes (spec/08): source data, decode, merge, upsampling, tone, screen, and the whole-line offsets of the ring. -/
namespace Sys2Proof.Machine

/-! ## Source data (R68, R167, R224, R225, R268) -/

/-- Is furrow `k`'s source data present (R68, R268)? -/
def State.dataThere (s : State) (p : Page) (st k : Nat) : Bool :=
  if p.desc.format = 3 then
    match s.listOf p.seq st with
    | none => false
    | some l => l.read && (l.entries.filter (fun e => e.inFurrow p.desc.rows k)).all (fun e => s.tileResident e.fn e.tile || s.pinResident e.fn e.tile)
  else match s.streamOf p.seq st with
    | none => false
    | some x =>
      decide (sourceEnd p.desc x k ≤ x.data.length) && (p.desc.format ≠ 2 || decide (4 + 4 * p.desc.furrows ≤ x.data.length))

/-! ## Decode and merge -/

/-- Host lines of decoded blocks, 3,000 to a block row: eight lines for each row. -/
def hostLines (blocks : List (List Pixel)) : Nat → List (List Pixel)
  | 0 => []
  | n + 1 =>
    let row := blocks.take 3000
    (List.range 8).map (fun y => row.flatMap (fun b => (b.drop (8 * y)).take 8)) ++ hostLines (blocks.drop 3000) n

/-- Raw blocks as blocks of pixels. -/
def rawBlocks : Nat → List Byte → List (List Pixel)
  | 0, _ => []
  | n + 1, b => pixelsOf (b.take 80) :: rawBlocks n (b.drop 80)

/-- Coded blocks of an F4 or F2 furrow, decoded; a bad one fails the furrow (R221, R227). -/
def decodeRun (f2 : Bool) : Nat → List Byte → Option (List (List Pixel))
  | 0, _ => some []
  | n + 1, b =>
    match decodeBlock f2 (leNat (b.take (blockBytes f2))), decodeRun f2 n (b.drop (blockBytes f2)) with
    | some px, some t => some (px :: t)
    | _, _ => none

/-- Does a FORMAT 2 stream's header keep R225 for furrow `k`? -/
def lHeaderOk (d : PageDesc) (x : Stream) (k : Nat) : Bool :=
  decide (leAt x.data 0 4 = d.furrows ∧ lOffset d x 0 = 4 + 4 * d.furrows ∧ lOffset d x k < lOffset d x (k + 1) ∧ lOffset d x (k + 1) ≤ x.len)

/-- The host lines of a FORMAT 2 furrow: its substream decoded to exactly its raw size, or a code (R225, R227, R233, R234). -/
def decodeSub (d : PageDesc) (x : Stream) (k : Nat) : Nat × List (List Pixel) :=
  let rows := d.furrowRows k
  let size := rows * 240000
  if !lHeaderOk d x k then (0x21, [])
  else
    let r := decodeL ((x.data.drop (lOffset d x k)).take (lOffset d x (k + 1) - lOffset d x k)) size
    if r.1 = 0x04 then (0x21, [])
    else if r.1 ≠ 0 then (r.1, [])
    else if r.2.1.len < size then (0x23, [])
    else (0, hostLines (rawBlocks (rows * 3000) r.2.1.rout.reverse) rows)

/-- Merge one pixel of the layers, bottom first (R263). -/
def mergePixel (m : BitVec 32) (ls : List Pixel) : Pixel :=
  let clear := fun (t : Nat) => m.getLsbD (8 + t)
  let prio := fun (t : Nat) => getField m (2 * t) 2
  let pick := ls.foldl (fun (a : Option Pixel) p => if clear p.2 then a else match a with
    | none => some p
    | some q => if prio q.2 ≤ prio p.2 then some p else some q) none
  pick.getD (ls.getD 0 (0, 0))

/-- The working copy of CMP_MERGE at a station (R264). -/
def State.mergeOf (s : State) (st : Nat) : BitVec 32 := s.cmp.merge.getD (resetWord s.variant CMP_MERGE.word) st

/-- Merge blocks of the layers, bottom first, pixel by pixel (R263). -/
def State.mergeBlocks (s : State) (st : Nat) (bs : List (List Pixel)) : List Pixel :=
  (List.range 64).map (fun i => mergePixel (s.mergeOf st) (bs.map (fun b => b.getD i (0, 0))))

/-- The merged blocks of a composed furrow, in block order, from what the Flume has read through the index tables; none where a block does not decode
(R227, R263, R267). -/
def State.composed (s : State) (l : PList) (x : Fill) : Option (List (List Pixel)) :=
  (x.rows.mapM (fun r => ((List.range l.layers).mapM (fun y => decodeRun (bit l.modes y) 3000 (r.getD y []))).map (fun ls =>
    (List.range 3000).map (fun c => s.mergeBlocks x.st (ls.map (fun b => b.getD c [])))))).map List.flatten

/-- The fill of a composed furrow, once all its rows have been read. -/
def State.filled (s : State) (seq st k : Nat) : Option Fill :=
  (s.cmp.fills.find? (fun x => x.page = seq && x.st = st && x.k = k)).filter (fun x => decide (s.fillRows x ≤ x.rows.length))

/-- The host lines of a furrow, or the codec code that fails it (R284). -/
def State.furrowLines (s : State) (p : Page) (st k : Nat) : Nat × List (List Pixel) :=
  let d := p.desc
  if d.format = 3 then
    match (s.listOf p.seq st).bind (fun l => (s.filled p.seq st k).bind (s.composed l)) with
    | some bs => (0, hostLines bs (d.furrowRows k))
    | none => (0x20, [])
  else match s.streamOf p.seq st with
    | none => (0x20, [])
    | some x =>
      if d.format = 2 then decodeSub d x k
      else match decodeRun (d.format = 1) (d.furrowRows k * 3000) (x.data.drop (sourceAt d x k)) with
        | some bs => (0, hostLines bs (d.furrowRows k))
        | none => (0x20, [])

/-! ## Upsampling (R286 to R288) -/

/-- |a − b|. -/
def dist (a b : Nat) : Nat := if a ≤ b then b - a else a - b

/-- One output pixel (2x + a, 2y + b) of a host pixel and its left, upper and diagonal neighbours. -/
def upsample (mode thr : Nat) (c l u d : Pixel) (a b : Nat) : Pixel :=
  let avg2 := fun (p q : Nat) => (p + q + 1) / 2
  let avg4 := (c.1 + l.1 + u.1 + d.1 + 2) / 4
  if mode = 0 ∨ (a = 1 ∧ b = 1) then c
  else if mode = 1 then
    if b = 1 then (avg2 c.1 l.1, c.2) else if a = 1 then (avg2 c.1 u.1, c.2) else (avg4, c.2)
  else if b = 1 then (if dist l.1 c.1 < thr then avg2 c.1 l.1 else c.1, c.2)
  else if a = 1 then (if dist u.1 c.1 < thr then avg2 c.1 u.1 else c.1, c.2)
  else if dist l.1 u.1 < thr ∧ l.2 = u.2 ∧ thr ≤ dist l.1 c.1 ∧ thr ≤ dist u.1 c.1 then (avg2 l.1 u.1, l.2)
  else if 0 < thr ∧ dist l.1 c.1 < thr ∧ dist u.1 c.1 < thr ∧ dist d.1 c.1 < thr then (avg4, c.2)
  else c

/-- Upsampling mode and threshold of a tag, from the station's working FLM_UPS (R289). -/
def State.upsMode (s : State) (st tag : Nat) : Nat :=
  match tag with
  | 0 => s.wf (FLM_UPS.MODE0 st) | 1 => s.wf (FLM_UPS.MODE1 st) | 2 => s.wf (FLM_UPS.MODE2 st) | _ => s.wf (FLM_UPS.MODE3 st)

/-! ## Tone and screen (R290 to R292) -/

/-- The cell that a screen set gives a tag. -/
def State.cellOf (s : State) (st set tag : Nat) : Nat :=
  match tag with
  | 0 => s.f (FLM_SCRSEL.CELL0 st set) | 1 => s.f (FLM_SCRSEL.CELL1 st set)
  | 2 => s.f (FLM_SCRSEL.CELL2 st set) | _ => s.f (FLM_SCRSEL.CELL3 st set)

/-- The pulse code of a level against a threshold (R291, R292). -/
def pulseCode (level base ramp : Nat) (just : Bool) : BitVec 5 :=
  if level ≤ base then 0
  else
    let w := min 15 (((level - base) * 15 + ramp / 2) / ramp)
    if w = 0 then 0 else BitVec.ofNat 5 ((if just then 16 else 0) + w)

/-- The pulse code of an output pixel at scan position `x` on page line `ln` (R290, R291). -/
def State.screen (s : State) (d : PageDesc) (st x ln : Nat) (p : Pixel) : BitVec 5 :=
  let level := s.f (FLM_TONE.LEVEL st d.toneSet p.2 p.1)
  let c := s.cellOf st d.screenSet p.2
  let w := s.f (FLM_CELL_GEOM.W st c) + 1
  let h := s.f (FLM_CELL_GEOM.H st c) + 1
  let xc := (x + s.f (FLM_CELL_GEOM.SHIFT st c) * (ln / h)) % w
  let yc := ln % h
  pulseCode level (s.f (FLM_CELL.BASE st c yc xc)) (s.f (FLM_CELL_RAMP.RAMP st c)) (s.b (FLM_CELL.JUST st c yc xc))

/-- The pulse codes of furrow `k`: 64 page lines of 48,000 codes, from its host lines and the boundary line above them (R284 to R292). -/
def State.furrowCodes (s : State) (d : PageDesc) (st k : Nat) (lines : List (List Pixel)) (above : List Pixel) : List (List (BitVec 5)) :=
  let px := fun (y x : Nat) => (lines.getD y []).getD x (0, 0)
  (List.range 64).map (fun i => (List.range 48000).map (fun col =>
    let x := col / 2
    let y := i / 2
    let c := px y x
    let up := fun (xx : Nat) (dflt : Pixel) => if y = 0 then (if k = 0 then dflt else above.getD xx dflt) else px (y - 1) xx
    let l := if x = 0 then c else px y (x - 1)
    let u := up x c
    let dg := if x = 0 then c else up (x - 1) c
    s.screen d st col (64 * k + i) (upsample (s.upsMode st c.2) (s.wf (FLM_UPS.EDGE_THR st)) c l u dg (col % 2) (i % 2))))

/-! ## The ring's offsets (R281, R282, R328) -/

/-- BOW(g): field g mod 8 of the station's working SCN_BOW word g div 8, signed (R328). -/
def State.bowAt (s : State) (st g : Nat) : Int := sgn 4 (bits (s.wword (SCN_BOW.word st (g / 8))).toNat (4 * (g % 8)) 4)

/-- The offset of column group `g` before clamping. -/
def State.offRaw (s : State) (st g : Nat) : Int :=
  s.wf (SCN_SKEW.BASE st) + (sgn 12 (s.wf (SCN_SKEW.SLOPE st)) * (g : Int) + 2048) / 4096 + s.bowAt st g

/-- off(g), 0 to 15 lines (R328). -/
def State.offOf (s : State) (st g : Nat) : Nat := (clamp 0 15 (s.offRaw st g)).toNat

/-- A furrow of a page in the station's output ring. -/
def State.furrowAt (s : State) (seq st k : Nat) : Option Furrow :=
  s.flm.furrows.find? (fun f => f.page = seq && f.st = st && f.k = k)

/-- Ring length in lines (R280). -/
def State.ringLines (s : State) : Nat := 64 * s.f FLM_FREEBOARD.DEPTH + 16

/-- The code of page line `ln` at scan position `x` as it stands in the ring; 0 outside the page, and in a blank furrow (R282). -/
def State.ringCode (s : State) (p : Page) (st x : Nat) (ln : Int) : BitVec 5 :=
  if ln < 0 ∨ (p.desc.length : Int) ≤ ln then 0
  else
    let n := ln.toNat
    match s.furrowAt p.seq st (n / 64) with
    | some f => if f.done && !f.blank then (f.codes.getD (n % 64) []).getD x 0 else 0
    | none => 0

/-- Sweep line `l` of sweep `sw` at scan position `x`: ring line 64 sw + l, or 32 sw + l in half-advance, less the column group's offset (R282, R283). -/
def State.sweepCode (s : State) (p : Page) (st sw l x : Nat) : BitVec 5 :=
  let step := if s.b SCN_CTRL.HALF then 32 else 64
  s.ringCode p st x ((step * sw + l : Int) - s.offOf st (x / 64))

end Sys2Proof.Machine
end

