-- ==== Sys2Proof/Machine/BeamOps.lean ====
section
/-! DEFINITION. Stations, beam-link ports, the sideband and the heads' exposure state (spec/09, spec/10) as operations. -/
namespace Sys2Proof.Machine

/-! ## Station paths -/

/-- What a station's scan path holds beside its registers. -/
def State.scnSt (s : State) (st : Nat) : ScnSt := s.scn.sts.getD {} st
def State.setScnSt (s : State) (st : Nat) (x : ScnSt) : State := { s with scn := { s.scn with sts := s.scn.sts.set {} st x } }
def State.modScnSt (s : State) (st : Nat) (g : ScnSt → ScnSt) : State := s.setScnSt st (g (s.scnSt st))

/-- What a port holds beside its registers. -/
def State.port (s : State) (bl : Nat) : BlPort := s.scn.ports.getD {} bl
def State.setPort (s : State) (bl : Nat) (x : BlPort) : State := { s with scn := { s.scn with ports := s.scn.ports.set {} bl x } }
def State.modPort (s : State) (bl : Nat) (g : BlPort → BlPort) : State := s.setPort bl (g (s.port bl))

/-- What a station's exposure path holds beside its registers. -/
def State.expSt (s : State) (st : Nat) : ExpSt := s.exp.sts.getD {} st
def State.setExpSt (s : State) (st : Nat) (x : ExpSt) : State := { s with exp := { sts := s.exp.sts.set {} st x } }

/-- The port of a station's working route (R360). -/
def State.portOf (s : State) (st : Nat) : Nat := s.wf (SCN_ROUTE.PORT st)

/-- The station routed to a port (R360). -/
def State.stationOf (s : State) (bl : Nat) : Option Nat := s.enabledStations.find? (fun st => s.portOf st = bl)

/-- Facet period of the class in force, ns; half-advance leaves it as it is (R348). -/
def State.period (s : State) : Nat := facetNs s.classNow

/-- A time given at class 0, scaled to the facet period of the class in force (R331). -/
def State.scaled (s : State) (x : Nat) : Nat := x * s.period / facetNs 0

/-- Polygon states of SCN_ST_STATE.POLY (R331). -/
abbrev polySTOPPED : Nat := 0
abbrev polySPEED : Nat := 1
abbrev polyACQUIRE : Nat := 2
abbrev polyLOCKED : Nat := 3
abbrev polyLOST : Nat := 4

def State.poly (s : State) (st : Nat) : Nat := s.f (SCN_ST_STATE.POLY st)

/-- A report of the scan block; parameter by R677, with the station's vector (R365). -/
def State.scnReport (s : State) (cls cause st : Nat) (low : Nat := 0xFF) : State :=
  (s.report 0x07 cls cause (st * 256 + low)).pf (72 + st)

/-- A report of the exposure path, with the station's vector (R398). -/
def State.expReport (s : State) (cls cause st : Nat) (e : Nat := 0xFF) : State :=
  (s.report 0x08 cls cause (st * 256 + e)).pf (72 + st)

/-- Port states of SCN_BL_STATUS.STATE (R355). -/
abbrev blDOWN : Nat := 0
abbrev blTRAIN : Nat := 1
abbrev blALIGN : Nat := 2
abbrev blUP : Nat := 3
abbrev blFAILED : Nat := 4

def State.blState (s : State) (bl : Nat) : Nat := s.f (SCN_BL_STATUS.STATE bl)

/-! ## The sideband (R358, R359, R392) -/

/-- One bit step of the sideband's CRC-16 (R358). -/
def crc16Step (c : BitVec 16) : BitVec 16 := if c.getLsbD 15 then (c <<< 1) ^^^ 0x1021#16 else c <<< 1

/-- CRC-16, polynomial 0x1021, initial value 0xFFFF, no reflection, no final XOR (R358). -/
def crc16 (bs : List Byte) : BitVec 16 :=
  bs.foldl (fun c b => crc16Step (crc16Step (crc16Step (crc16Step (crc16Step (crc16Step (crc16Step (crc16Step
    (c ^^^ ((BitVec.setWidth 16 b) <<< 8)))))))))) 0xFFFF#16

/-- The bytes of a request between K28.5 and K29.7 (R358). -/
def sbRequest (r : SbReq) (tag : Nat) : List Byte :=
  let b := leBytes 1 (if r.write then 2 else 1) ++ leBytes 1 tag ++ leBytes 3 r.addr ++ leBytes 1 r.len ++
    (if r.write then (r.data.map (fun w => leBytes 4 w.toNat)).flatten else [])
  b ++ leBytes 2 (crc16 b).toNat

/-- Queue a transaction behind those of its class and the classes before it (R392). -/
def State.sbQueue (s : State) (bl : Nat) (r : SbReq) : State :=
  s.modPort bl (fun p => { p with queue := p.queue.filter (fun q => q.prio ≤ r.prio) ++ [r] ++ p.queue.filter (fun q => r.prio < q.prio) })

/-- A link poll: LINK_STATUS and LINK_ERR in one read (R356). -/
def pollReq : SbReq := { prio := 0, addr := 0, len := 2 }

/-- Queue a link poll, if none waits. -/
def State.queuePoll (s : State) (bl : Nat) : State :=
  if (s.port bl).queue.contains pollReq || (s.port bl).cur = some pollReq then s else s.sbQueue bl pollReq

/-- Queue a write of consecutive head registers on the port of a station whose head answers. -/
def State.headWrite (s : State) (st prio addr : Nat) (data : List (BitVec 32)) : State :=
  if s.blState (s.portOf st) ≠ blUP then s
  else s.sbQueue (s.portOf st) { prio := prio, write := true, addr := addr, len := data.length, data := data }

/-- BD_WIN of a polygon state, OPEN and CLOSE in counts of 8 ns to the nearest (R390). -/
def State.bdWin (s : State) (poly : Nat) : BitVec 32 :=
  let p := s.period
  let near := fun (num den : Nat) => (2 * num + 8 * den) / (16 * den)
  if poly = polySTOPPED then 0
  else if poly = polyLOCKED then
    let n := near (1000 * p) (facetNs 0)
    BitVec.ofNat 32 (n * 65536 + n)
  else BitVec.ofNat 32 (near (15 * p) 100 * 65536 + near (5 * p) 100)

/-- Send BD_WIN for a station's polygon state and the class in force (R390). -/
def State.sendBdWin (s : State) (st : Nat) : State := s.headWrite st 2 0x114 [s.bdWin (s.poly st)]

/-- A class change sends every station's BD_WIN (R390). -/
def State.sendBdWins (s : State) : State := s.enabledStations.foldl (fun s st => s.sendBdWin st) s

/-- A polygon changes state (R331, R365, R390). -/
def State.setPoly (s : State) (st v : Nat) : State :=
  if s.poly st = v then s
  else
    let s := (s.setF (SCN_ST_STATE.POLY st) v).modScnSt st (fun x => { x with inWin := 0, missRun := 0, facets := 0, fidSum := [], facet0 := none,
                                                                                           acqAt := if v = polyACQUIRE then s.now.toNat else x.acqAt })
    let s := s.setF (SCN_ST_STATE.FACET st) 0
    let s := if v = polyLOCKED then s.setF (SCN_ST_STATE.FID_FAIL st) 0 else s
    (s.pf (72 + st)).sendBdWin st

/-- Loss of lock (R332): a C3 and LOST while the station prints, else a C1 and ACQUIRE. -/
def State.lockLoss (s : State) (st : Nat) : State :=
  let s := s.satInc (SCN_BD_CNT.LOCK_LOSS st)
  if s.printing st then ((s.setPoly st polyLOST).modScnSt st (fun x => { x with isOpen := false })).scnReport 3 0x12 st (s.f (SCN_ST_STATE.FACET st))
  else (s.setPoly st polyACQUIRE).scnReport 1 0x13 st (s.f (SCN_ST_STATE.FACET st))

/-! ## Emitters (R370 to R383) -/

/-- The dead set of a station, bit e for emitter e (R378). -/
def State.dead (s : State) (st : Nat) : Nat :=
  s.f (EXP_DEAD.DEAD st 0) + 2 ^ 32 * s.f (EXP_DEAD.DEAD st 1) + 2 ^ 64 * s.f (EXP_DEAD2.DEAD st)

/-- The working dead set (R376). -/
def State.wdead (s : State) (st : Nat) : Nat :=
  s.wf (EXP_DEAD.DEAD st 0) + 2 ^ 32 * s.wf (EXP_DEAD.DEAD st 1) + 2 ^ 64 * s.wf (EXP_DEAD2.DEAD st)

/-- The device writes a station's dead set; a register of it that software writes in the same round keeps what software wrote (R699). -/
def State.setDead (s : State) (st d : Nat) : State :=
  ((s.hwF (EXP_DEAD.DEAD st 0) (d % 2 ^ 32)).hwF (EXP_DEAD.DEAD st 1) (d / 2 ^ 32 % 2 ^ 32)).hwF (EXP_DEAD2.DEAD st) (d / 2 ^ 64 % 256)

/-- Dead emitters among `lo … lo + n - 1`. -/
def deadIn (d lo n : Nat) : Nat := popcount (bits d lo n) n

/-- The conditions of R373 for a window offset. -/
def winRule (d w rule : Nat) : Bool :=
  let ends := bit d w || bit d (w + 63)
  let edge := (List.range 72).any (fun e => (e < 8 || 63 < e) && bit d e && decide (w ≤ e ∧ e < w + 64))
  match rule with
  | 1 => deadIn d w 64 = 0 && !ends
  | 2 => !edge && !ends
  | _ => (List.range 9).all (fun v => decide (deadIn d w 64 ≤ deadIn d v 64))

/-- The offset that AUTO chooses: the first condition that any offset meets, nearest 4, the lower on ties (R373). -/
def autoWindow (d : Nat) : Nat :=
  let order := [4, 3, 5, 2, 6, 1, 7, 0, 8]
  match order.find? (fun w => winRule d w 1) with
  | some w => w
  | none => match order.find? (fun w => winRule d w 2) with
    | some w => w
    | none => (order.find? (fun w => winRule d w 3)).getD 4

/-- Class of a dead emitter in the window: live neighbours inside it (R375). -/
def liveNeighbours (d w e : Nat) : Nat :=
  (if decide (w < e) && !bit d (e - 1) then 1 else 0) + (if decide (e < w + 63) && !bit d (e + 1) then 1 else 0)

/-- EXP_COVER of a station for the working dead set and window; a C1 where one is PARTIAL or UNCOVERED (R375). -/
def State.setCover (s : State) (st : Nat) : State :=
  let d := s.wdead st
  let w := s.f (EXP_WIN.WORK st)
  let deadOnes := (List.range 72).filter (fun e => bit d e)
  let inside := deadOnes.filter (fun e => decide (w ≤ e ∧ e < w + 64))
  let n := fun k => (inside.filter (fun e => liveNeighbours d w e = k)).length
  let s := (((s.setF (EXP_COVER.FILLED st) (n 2)).setF (EXP_COVER.PARTIAL st) (n 1)).setF (EXP_COVER.UNCOVERED st) (n 0)).setF
    (EXP_COVER.HIDDEN st) (deadOnes.length - inside.length)
  match inside.find? (fun e => liveNeighbours d w e < 2) with
  | some e => s.expReport 1 0x11 st e
  | none => s

/-- The cover is counted where the working dead set or the window is another than in `old` (R375). -/
def State.coverFrom (s : State) (st : Nat) (old : State) : State :=
  if s.wdead st = old.wdead st ∧ s.f (EXP_WIN.WORK st) = old.f (EXP_WIN.WORK st) then s else s.setCover st

/-- The emitter that lights the BD sensor: the requested one, or the nearest live one, the lower on ties (R391). -/
def State.bdEmitter (s : State) (st : Nat) : Nat :=
  let want := s.f (EXP_HEAD_CFG.BD_EMIT st)
  let d := s.dead st
  let order := want :: (List.range 71).flatMap (fun i => (if i < want then [want - 1 - i] else []) ++ (if want + 1 + i < 72 then [want + 1 + i] else []))
  (order.find? (fun e => !bit d e)).getD want

/-- Bring BD_NOW in line and send BD_EMIT where it changes (R391). -/
def State.syncBdEmit (s : State) (st : Nat) : State :=
  let e := s.bdEmitter st
  if s.f (EXP_HEAD_STATE.BD_NOW st) = e then s else (s.setF (EXP_HEAD_STATE.BD_NOW st) e).headWrite st 1 0x110 [BitVec.ofNat 32 e]

/-- A field of head memory as last read, `n` bytes from byte `a` (R385). -/
def State.hmem (s : State) (st a n : Nat) : Nat :=
  leAt ((List.range 64).flatMap (fun i => leBytes 4 (s.f (EXP_HMEM.BYTES st i)))) a n

/-- I_MAX of a station's head. -/
def State.iMax (s : State) (st : Nat) : Nat := s.hmem st 32 2

/-- Factory set-point of an emitter. -/
def State.curNom (s : State) (st e : Nat) : Nat := s.hmem st (56 + 2 * e) 2

/-- MON_TGT of a station's head, to the nearest (R381). -/
def State.monTgt (s : State) (st : Nat) : Nat :=
  let a := s.hmem st 34 2 * s.f (EXP_PWR.PCT st)
  min 4095 (if s.b SCN_CTRL.HALF then (a * s.f EXP_HALF.PCT + 5000) / 10000 else (a + 50) / 100)

/-- HEAD_CTRL of a station (R388). -/
def State.headCtrl (s : State) (st : Nat) : BitVec 32 :=
  BitVec.ofNat 32 (s.f (EXP_HEAD_CFG.APC_EN st) + 2 * s.f SCN_CTRL.HALF + 256 * s.f (EXP_HEAD_CFG.WSCALE st))

/-- The set-points that the head is to hold now: 0 for a dead emitter, else its target (R383, outside RUN). -/
def State.wantCur (s : State) (st e : Nat) : Nat := if bit (s.dead st) e then 0 else s.f (EXP_CUR.TGT st e)

/-- Queue the set-points that differ from those sent: at most two transactions, from the first to the last changed word of each (R392). -/
def State.sendCur (s : State) (st : Nat) (want : Nat → Nat) : State :=
  let part := fun (s : State) (lo n : Nat) =>
    let ch := ((List.range n).map (· + lo)).filter (fun e => want e ≠ s.f (EXP_CUR.SENT st e))
    match ch.head?, ch.getLast? with
    | some a, some b => s.headWrite st 1 (0x200 + 4 * a) ((List.range (b + 1 - a)).map (fun i => BitVec.ofNat 32 (want (a + i))))
    | _, _ => s
  part (part s 0 64) 64 8

/-- At a page gap in RUN: SENT moves toward TGT by at most 1 % (R383). -/
def State.slewCur (s : State) (st e : Nat) : Nat :=
  if bit (s.dead st) e then 0
  else
    let sent := s.f (EXP_CUR.SENT st e)
    let t := s.f (EXP_CUR.TGT st e)
    if sent = 0 then t
    else
      let m := max 1 (sent / 100)
      if sent < t then min t (sent + m) else max t (sent - m)

/-- The offset and window that wait take effect as the working values (R325, R372). -/
def State.applyMove (s : State) (st : Nat) : State :=
  let ofs := s.f (SCN_OFS.LINES st)
  let win := s.f (EXP_WIN.OFS st)
  let s := if s.ofs st = ofs then s
    else ((s.setWork (SCN_OFS.word st) (BitVec.ofNat 32 ofs)).pf (72 + st))
  let s := s.setF (SCN_OFS.PEND st) 0
  let s := if s.f (EXP_WIN.WORK st) = win then s else (s.setF (EXP_WIN.WORK st) win).pf (72 + st)
  s.setF (EXP_WIN.PEND st) 0

/-- An offset or window has been asked for: at once while the station is idle, its triggers then falling at the new phase; else it waits (R325, R372). -/
def State.askMove (s : State) (st : Nat) : State :=
  if !s.stationBusy st then ((s.applyMove st).coverFrom st s).modScnSt st (fun x => { x with trig := none, moving := 0 })
  else
    let s := s.setB (SCN_OFS.PEND st) (decide (s.f (SCN_OFS.LINES st) ≠ s.ofs st))
    s.setB (EXP_WIN.PEND st) (decide (s.f (EXP_WIN.OFS st) ≠ s.f (EXP_WIN.WORK st)))

/-- Everything that waits on a new dead set: the window that AUTO asks for and the BD emitter (R373, R391). -/
def State.deadChanged (s : State) (st : Nat) : State :=
  let w := autoWindow (s.dead st)
  let s := if s.b (EXP_WIN.AUTO st) ∧ s.f (EXP_WIN.OFS st) ≠ w then (s.hwF (EXP_WIN.OFS st) w).askMove st else s
  s.syncBdEmit st

/-- A station takes its exposure tables: dead set, fill table (R376). -/
def State.takeExposure (s : State) (st : Nat) : State := (s.takeShadows (EXP_DEAD.word st 0) 4 3).takeShadows (EXP_FILL.word st 0) 4 2

/-! ## Training (R355) -/

/-- A port changes state (R365); its head is absent unless the port is UP (R386). -/
def State.setBl (s : State) (bl v : Nat) : State :=
  if s.blState bl = v then s
  else
    let s := s.setF (SCN_BL_STATUS.STATE bl) v
    match s.stationOf bl with
    | some st => (if v = blUP then s else s.setF (EXP_HEAD_STATE.STATE st) 0).pf (72 + st)
    | none => s

/-- Start one training attempt. -/
def State.train (s : State) (bl : Nat) : State :=
  (s.modPort bl (fun p => { p with queue := [], cur := none, fails := 0, busy := false, laneBad := false, orderErr := false })).setBl bl blTRAIN

/-- Start training afresh (R355, R357). -/
def State.retrain (s : State) (bl : Nat) : State := (s.modPort bl (fun p => { p with attempts := 0 })).train bl

/-- A port fault with no page to spoil: a C1, and the port retrains (R357). -/
def State.portIdleFault (s : State) (bl cause : Nat) : State :=
  match s.stationOf bl with
  | some st => (s.scnReport 1 cause st bl).retrain bl
  | none => s.retrain bl

/-- Is the station routed to a port printing? -/
def State.blPrinting (s : State) (bl : Nat) : Bool := (s.stationOf bl).any s.printing

/-- Read head memory (R386). -/
def State.readHead (s : State) (st : Nat) : State :=
  (s.setF (EXP_HEAD_STATE.STATE st) 1).sbQueue (s.portOf st) { prio := 4, addr := 0x10000, len := 64 }

/-- A port comes up: head memory is read (R386). -/
def State.portUp (s : State) (bl : Nat) : State :=
  let s := (s.modPort bl (fun p => { p with attempts := 0, sweepNo := 0 })).setBl bl blUP
  match s.stationOf bl with
  | some st => s.readHead st
  | none => s

/-! ## Responses (R356, R357, R378 to R386) -/

/-- Spoil the page a station prints, for a beam-link error (R357). -/
def State.linkSpoil (s : State) (seq st bl cause : Nat) : State :=
  (s.spoilPage seq 0x01 0x07 (st * 256 + bl) st none (some cause)).pf (72 + st)

/-- A link poll has been answered (R355 to R357). -/
def State.pollDone (s : State) (bl : Nat) (status err : BitVec 32) : State :=
  let p := s.port bl
  let lock := status.toNat % 256
  let order := status.getLsbD 9
  let groups := err.toNat % 65536
  let losses := err.toNat / 65536 % 256
  let s := s.setF (SCN_BL_STATUS.LANE_LOCK bl) lock
  if s.blState bl = blALIGN then
    let s := s.setPort bl { p with orderErr := order, groups := groups, losses := losses }
    if lock = 255 ∧ status.getLsbD 8 ∧ ¬ order then s.portUp bl else s
  else if s.blState bl = blUP then
    let s := s.setPort bl { p with groups := groups, losses := losses }
    let s := s.satInc (SCN_BL_ERR.GROUP bl) (groups - p.groups)
    let s := s.satInc (SCN_BL_ERR.LANE_LOSS bl) (losses - p.losses)
    let page := (s.stationOf bl).bind (fun st => (s.scnSt st).sweep.page.map (fun q => (st, q)))
    let bad := decide (lock ≠ 255) || order
    let s := if bad then s.setF (SCN_BL_STATUS.CAUSE bl) (if order then 2 else 4) else s
    match page with
    | some (st, q) =>
      let s := if p.groups < groups then s.linkSpoil q st bl 0x1B else s
      if bad && !p.laneBad then (s.linkSpoil q st bl 0x1C).modPort bl (fun p => { p with laneBad := true }) else s
    | none =>
      if bad then s.portIdleFault bl 0x1C
      else if p.groups < groups then s.portIdleFault bl 0x1B else s
  else s

/-- Is head memory valid: MAGIC, VERSION, EMITTERS, reserved bytes, CHECK, ranges (R385, R386)? -/
def headValid (m : List Byte) : Bool :=
  let f := leAt m
  f 0 4 = 0x48444D31 && f 4 1 = 1 && f 5 1 = 72 && f 6 2 = 0 && f 54 2 = 0 && f 200 52 = 0 &&
  decide (crc32c (m.take 252) = BitVec.ofNat 32 (f 252 4)) && decide (f 28 1 ≤ 4) && decide (f 29 1 ≤ 15) &&
  decide (1 ≤ f 30 2 ∧ f 30 2 ≤ 1000) && decide (1 ≤ f 32 2 ∧ f 32 2 ≤ 4095) && decide (1 ≤ f 34 2 ∧ f 34 2 ≤ 4095)

/-- Head memory has been read (R386): the head is identified, its dead set, ranks and targets are loaded and everything is sent; or its memory is bad. -/
def State.identify (s : State) (st : Nat) (words : List (BitVec 32)) : State :=
  let m := (words.map (fun w => leBytes 4 w.toNat)).flatten
  let s := (List.range 64).foldl (fun s i => s.setF (EXP_HMEM.BYTES st i) (words.getD i 0).toNat) s
  if !headValid m then (s.setF (EXP_HEAD_STATE.STATE st) 3).expReport 1 0x12 st
  else
    let serial := (m.drop 8).take 16
    let s := (s.setF (EXP_HEAD_STATE.STATE st) 2).pf (72 + st)
    let s := (s.setF (EXP_HEAD_STATE.SPEED_RANK st) (leAt m 28 1)).setF (EXP_HEAD_STATE.POWER_RANK st) (leAt m 29 1)
    let isNew := (s.expSt st).serial.any (fun x => decide (x ≠ serial))
    let s := if isNew then (s.raise (EXP_HEAD_STATE.NEW st)).expReport 0 0x13 st else s
    let s := s.setDead st (leAt m 36 9)
    let s := (List.range 72).foldl (fun s e => s.setF (EXP_CUR.TGT st e) (s.curNom st e % 4096)) s
    let s := s.deadChanged st
    let s := s.headWrite st 1 0x100 [s.headCtrl st]
    let s := s.headWrite st 1 0x108 [BitVec.ofNat 32 (s.monTgt st)]
    let s := s.headWrite st 1 0x10C [BitVec.ofNat 32 (s.f (EXP_PWR.APC_RANGE st))]
    let s := s.headWrite st 1 0x110 [BitVec.ofNat 32 (s.f (EXP_HEAD_STATE.BD_NOW st))]
    let s := s.sendBdWin st
    let all := (List.range 72).map (fun e => BitVec.ofNat 32 (s.wantCur st e))
    let s := (s.headWrite st 1 0x200 (all.take 64)).headWrite st 1 0x300 (all.drop 64)
    if s.stationBusy st then s else (s.takeExposure st).coverFrom st s

/-- One monitor word: EXP_MON, the target of R382, and the test of R379. An emitter that gives no light has no stated target: a free value. -/
def State.monitorWord (s : State) (st e : Nat) (w : BitVec 32) : State :=
  let mon := w.toNat % 4096
  let valid := w.getLsbD 31
  let s := (s.setB (EXP_MON.VALID st e) valid).setF (EXP_MON.MON st e) mon
  if !valid || s.f (EXP_HEAD_STATE.STATE st) ≠ 2 then s
  else
    let tgt := s.monTgt st
    let x := s.expSt st
    let low := decide (mon * 100 < tgt * s.f EXP_MON_CFG.DEAD_PCT)
    let n := if low then x.low.getD 0 e + 1 else 0
    let s := s.setExpSt st { x with low := x.low.set 0 e n, mon := x.mon.put e mon }
    let wasDead := bit (s.dead st) e
    let s :=
      if wasDead then s
      else if mon = 0 then s.drew.setF (EXP_CUR.TGT st e) (max 1 (s.free.toNat % (s.iMax st + 1)))
      else
        let adj : Int := 1000 + s.fi (EXP_CUR_ADJ.ADJ st e)
        let num : Int := s.f (EXP_CUR.SENT st e) * tgt * adj
        let den : Int := 1000 * mon
        let r := (2 * num + den) / (2 * den)
        let s := s.setF (EXP_CUR.TGT st e) (clamp 1 (s.iMax st) r).toNat
        if (s.iMax st : Int) < r then (s.satInc (EXP_DET_CNT.CLAMP st)).expReport 0 0x15 st e else s
    if !wasDead && decide (3 ≤ n) then
      (((s.setDead st (setBit (s.dead st) e true)).satInc (EXP_DET_CNT.DETECTED st)).expReport 1 0x10 st e).deadChanged st
    else s

/-- HEAD_STATUS has been read (R384). -/
def State.headStatus (s : State) (st : Nat) (w : BitVec 32) : State :=
  let fault := w.getLsbD 2
  let rose := fault && !s.b (EXP_HEAD_STATE.APC_FAULT st)
  let s := (s.setB (EXP_HEAD_STATE.APC_FAULT st) fault).setF (EXP_HEAD_STATE.TEMP st) (w.toNat / 256 % 256)
  if rose then s.expReport 1 0x14 st else s

/-- Apply a read that has been answered. -/
def State.readDone (s : State) (bl : Nat) (r : SbReq) (ws : List (BitVec 32)) : State :=
  if r.addr = 0 then s.pollDone bl (ws.getD 0 0) (ws.getD 1 0)
  else match s.stationOf bl with
    | none => s
    | some st =>
      if r.addr = 0x104 then s.headStatus st (ws.getD 0 0)
      else if r.addr = 0x118 then s.setExpSt st { s.expSt st with gain := (ws.getD 0 0).toNat % 65536 }
      else if r.addr = 0x10000 then s.identify st ws
      else if 0x400 ≤ r.addr ∧ r.addr < 0x520 then
        let s := (List.range r.len).foldl (fun s i => s.monitorWord st ((r.addr - 0x400) / 4 + i) (ws.getD i 0)) s
        if s.inRun then s else s.sendCur st (s.wantCur st)
      else s

/-- A write goes out: the set-points it carries are those last sent (R382). -/
def State.noteSent (s : State) (bl : Nat) (r : SbReq) : State :=
  match s.stationOf bl with
  | none => s
  | some st =>
    if r.write ∧ 0x200 ≤ r.addr ∧ r.addr < 0x320 then
      (List.range r.len).foldl (fun s i => s.setF (EXP_CUR.SENT st ((r.addr - 0x200) / 4 + i)) ((r.data.getD i 0).toNat % 4096)) s
    else s

/-- An attempt of the transaction in flight has failed: two retries, then the sideband is lost (R359). -/
def State.sbFailed (s : State) (bl : Nat) : State :=
  let p := s.port bl
  match p.cur with
  | none => s
  | some r =>
    if p.fails + 1 < 3 then
      ((s.setPort bl { p with fails := p.fails + 1, busy := false }).satInc (SCN_SB_ERR.RETRY bl)).emit (.sideband bl (sbRequest r p.tag))
    else
      let s := (s.satInc (SCN_SB_ERR.FAIL bl)).setF (SCN_BL_STATUS.CAUSE bl) 3
      let s := match s.stationOf bl with
        | some st => s.scnReport (if s.printing st then 3 else 1) 0x1E st bl
        | none => s.report 0x07 1 0x1E (0xFF00 + bl)
      if s.blState bl = blUP then s.retrain bl else s.train bl

/-! ## Taps (R393 to R397) -/

/-- N(t) of a station. -/
def State.tapN (s : State) (st t : Nat) : Nat := s.f (EXP_TAP.N st t)

/-- SETTLING: some N(t) differs from its N′(t) (R395). -/
def State.syncTaps (s : State) (st : Nat) : State :=
  let differ := (List.range 64).any (fun t => s.tapN st t ≠ s.f (EXP_TAP.MEAS st t))
  let s := s.setB (EXP_CAL.SETTLING st) ((s.expSt st).passed && differ)
  if (s.expSt st).passed && !differ then s.setF (EXP_CAL.VALID st) 1 else s

/-- One element toward N′(t) for each tap, held where the strict rise of N would break (R395). -/
def State.stepTaps (s : State) (st : Nat) : State :=
  if !(s.expSt st).passed then s
  else
    let old := (List.range 64).map (s.tapN st)
    let s := (List.range 64).foldl (fun s t =>
      let n := old.getD t 0
      let m := s.f (EXP_TAP.MEAS st t)
      let up := t = 63 || decide (n + 1 < old.getD (t + 1) 0)
      let down := t = 0 || decide (old.getD (t - 1) 0 + 1 < n)
      if n < m && up then s.setF (EXP_TAP.N st t) (n + 1)
      else if m < n && down then s.setF (EXP_TAP.N st t) (n - 1) else s) s
    s.syncTaps st

/-- A class change scales every N(t) by the ratio of the pixel periods, to the nearest (R397). -/
def State.scaleTaps (s : State) (old new : Nat) : State :=
  s.enabledStations.foldl (fun s st =>
    ((List.range 64).foldl (fun s t =>
      s.setF (EXP_TAP.N st t) (min 4095 ((2 * s.tapN st t * webSpeed old + webSpeed new) / (2 * webSpeed new)))) s).syncTaps st) s

end Sys2Proof.Machine
end

