-- ==== Sys2Proof/Machine/F32.lean ====
section
/-! DEFINITION. IEEE 754 binary32 as R451 has it: each result rounded to nearest, ties to even; subnormal operands and results replaced by zero of the same
sign. Finite values are handled as exact fractions and rounded once. -/
namespace Sys2Proof.Machine

/-- A binary32 value, as its bits. -/
abbrev F32 := BitVec 32

namespace Flt

def zero : F32 := 0x00000000#32
def one : F32 := 0x3F800000#32
def qnan : F32 := 0x7FC00000#32
def inf (neg : Bool) : F32 := if neg then 0xFF800000#32 else 0x7F800000#32

/-- The sign bit, the biased exponent, the fraction. -/
def neg (x : F32) : Bool := x.getLsbD 31
def expo (x : F32) : Nat := x.toNat / 2 ^ 23 % 256
def frac (x : F32) : Nat := x.toNat % 2 ^ 23

def isFinite (x : F32) : Bool := expo x ≠ 255
def isNaN (x : F32) : Bool := expo x = 255 && frac x ≠ 0
def isInf (x : F32) : Bool := expo x = 255 && frac x = 0

/-- Zero or subnormal: both stand for zero (R451). -/
def isZero (x : F32) : Bool := expo x = 0

/-- Zero of a sign. -/
def szero (n : Bool) : F32 := if n then 0x80000000#32 else zero

/-- A finite value as a fraction: numerator and denominator. -/
def toRat (x : F32) : Int × Nat :=
  if isZero x then (0, 1)
  else
    let m : Int := 2 ^ 23 + frac x
    let m := if neg x then -m else m
    let e := expo x
    if 150 ≤ e then (m * 2 ^ (e - 150), 1) else (m, 2 ^ (150 - e))

/-- Division rounded to nearest, ties to even. -/
def divRne (a b : Nat) : Nat :=
  let q := a / b
  let r := a % b
  if 2 * r < b then q else if b < 2 * r then q + 1 else if q % 2 = 0 then q else q + 1

/-- The binary32 value nearest `num / den`; `z` is the sign of an exact zero. -/
def ofRat (num : Int) (den : Nat) (z : Bool := false) : F32 :=
  if num = 0 ∨ den = 0 then szero z
  else
    let n := decide (num < 0)
    let a := num.natAbs
    -- biased exponent `k` of the leading bit, offset by 400 so that it stays a natural number
    let k0 := Nat.log2 a + 400 - Nat.log2 den
    let ge := fun (k : Nat) => if 400 ≤ k then decide (den * 2 ^ (k - 400) ≤ a) else decide (den ≤ a * 2 ^ (400 - k))
    let k := if ge k0 then k0 else k0 - 1
    let k := if k < 400 - 126 then 400 - 126 else k
    let m := if 423 ≤ k then divRne a (den * 2 ^ (k - 423)) else divRne (a * 2 ^ (423 - k)) den
    let k := if m = 2 ^ 24 then k + 1 else k
    let m := if m = 2 ^ 24 then 2 ^ 23 else m
    if m < 2 ^ 23 then szero n
    else if 400 + 128 ≤ k then inf n
    else BitVec.ofNat 32 ((if n then 2 ^ 31 else 0) + (k + 127 - 400) * 2 ^ 23 + (m - 2 ^ 23))

/-- The binary32 value nearest an integer. -/
def ofInt (i : Int) : F32 := ofRat i 1

def negate (x : F32) : F32 := x ^^^ 0x80000000#32

/-- x + y. -/
def add (x y : F32) : F32 :=
  if isNaN x || isNaN y then qnan
  else if isInf x then (if isInf y && neg x ≠ neg y then qnan else x)
  else if isInf y then y
  else
    let a := toRat x
    let b := toRat y
    ofRat (a.1 * b.2 + b.1 * a.2) (a.2 * b.2) (neg x && neg y && isZero x && isZero y)

/-- x − y. -/
def sub (x y : F32) : F32 := if isNaN y then qnan else add x (negate y)

/-- x × y. -/
def mul (x y : F32) : F32 :=
  let n := xor (neg x) (neg y)
  if isNaN x || isNaN y then qnan
  else if isInf x || isInf y then (if isZero x || isZero y then qnan else inf n)
  else
    let a := toRat x
    let b := toRat y
    ofRat (a.1 * b.1) (a.2 * b.2) n

/-- x / y. -/
def div (x y : F32) : F32 :=
  let n := xor (neg x) (neg y)
  if isNaN x || isNaN y || (isInf x && isInf y) || (isZero x && isZero y) then qnan
  else if isInf x || isZero y then inf n
  else if isInf y || isZero x then szero n
  else
    let a := toRat x
    let b := toRat y
    let num := a.1 * b.2
    ofRat (if b.1 < 0 then -num else num) (a.2 * b.1.natAbs) n

/-- x < y; false where either is not a number. -/
def lt (x y : F32) : Bool :=
  if isNaN x || isNaN y then false
  else if isInf x then neg x && !(isInf y && neg y)
  else if isInf y then !neg y
  else
    let a := toRat x
    let b := toRat y
    decide (a.1 * b.2 < b.1 * a.2)

/-- x ≤ y. -/
def le (x y : F32) : Bool := !isNaN x && !isNaN y && !lt y x

/-- Equal values; −0 equals +0 (R451). -/
def eq (x y : F32) : Bool := le x y && le y x

/-- clamp(x, lo, hi) of R451. -/
def clampF (x lo hi : F32) : F32 := if lt x lo then lo else if lt hi x then hi else x

/-- |x|. -/
def absF (x : F32) : F32 := x &&& 0x7FFFFFFF#32

/-- The integer nearest a finite value, halves away from zero. -/
def round (x : F32) : Int :=
  let a := toRat x
  if a.1 < 0 then -((2 * a.1.natAbs + a.2) / (2 * a.2) : Nat) else ((2 * a.1.natAbs + a.2) / (2 * a.2) : Nat)

/-- The greatest integer not above a finite value. -/
def floor (x : F32) : Int :=
  let a := toRat x
  a.1 / (a.2 : Int)

end Flt
end Sys2Proof.Machine
end

