-- ==== Sys2Proof/Machine/LoopBase.lean ====
section
/-! DEFINITION. Loops, encoder inputs and lateral images as stored data: accessors and the bindings between them (spec/12, spec/14). -/
namespace Sys2Proof.Machine

/-! ## Loops and encoder inputs -/

def State.loop (s : State) (lp : Nat) : Loop := s.lpe.loops.getD {} lp
def State.setLoop (s : State) (lp : Nat) (x : Loop) : State := { s with lpe := { s.lpe with loops := s.lpe.loops.set {} lp x } }
def State.modLoop (s : State) (lp : Nat) (g : Loop → Loop) : State := s.setLoop lp (g (s.loop lp))

/-- The state of an encoder input. -/
def State.encIn (s : State) (n : Nat) : EncIn := s.lpe.enc.getD {} n
def State.setEncIn (s : State) (n : Nat) (x : EncIn) : State := { s with lpe := { s.lpe with enc := s.lpe.enc.set {} n x } }

/-- Loop states (R444). -/
abbrev lpOFF : Nat := 0
abbrev lpOPEN : Nat := 1
abbrev lpCLOSED : Nat := 2
abbrev lpFAULT : Nat := 3

def State.lpState (s : State) (lp : Nat) : Nat := s.f (LPE_LP_STATUS.STATE lp)

/-- Is the loop OPEN or CLOSED? -/
def State.lpRuns (s : State) (lp : Nat) : Bool := s.lpState lp = lpOPEN || s.lpState lp = lpCLOSED

/-- The loop numbers. -/
def loopList : List Nat := List.range 64

/-- Loops that are not OFF. -/
def State.lpOn (s : State) : List Nat := loopList.filter (fun lp => s.lpState lp ≠ lpOFF)

/-- A polygon phase loop (R464)? -/
def State.lpPoly (s : State) (lp : Nat) : Bool := s.f (LPE_LP_IN.KIND lp) = 4

/-- The polygon loop of a station, if one is not OFF. -/
def State.polyLoop (s : State) (st : Nat) : Option Nat := s.lpOn.find? (fun lp => s.lpPoly lp && s.f (LPE_LP_IN.INDEX lp) = st)

/-- Is a station's polygon loop CLOSED (R464)? -/
def State.polyClosed (s : State) (st : Nat) : Bool := (s.polyLoop st).any (fun lp => s.lpState lp = lpCLOSED)

/-- Does a loop read an encoder input, as measurement or as position source (R458, R459)? -/
def State.lpReadsEnc (s : State) (lp n : Nat) : Bool :=
  let k := s.f (LPE_LP_IN.KIND lp)
  let p := s.f (LPE_LP_POS.KIND lp)
  ((k = 2 || k = 3) && s.f (LPE_LP_IN.INDEX lp) = n) || ((p = 1 || p = 2) && s.f (LPE_LP_POS.INDEX lp) = n)

/-! ## Lateral images (R512, R516, R539) -/

/-- Nodes enumerated on a lateral port. -/
def State.latNodes (s : State) (p : Nat) : Nat := s.f (LAT_PORT_STATUS.NODES p)

/-- A byte of a node's input image. -/
def State.inByte (s : State) (p node b : Nat) : Nat := bits (s.word (LAT_IIMG.word p node (b / 4))).toNat (8 * (b % 4)) 8

/-- A byte of a node's output image. -/
def State.outByte (s : State) (p node b : Nat) : Nat := bits (s.word (LAT_OIMG.word p node (b / 4))).toNat (8 * (b % 4)) 8

/-- Bytes of a node's input image, as a little-endian number. -/
def State.inNat (s : State) (p node b n : Nat) : Nat := (List.range n).foldl (fun (a : Nat) i => a + s.inByte p node (b + i) * 2 ^ (8 * i)) 0

/-- Write bytes into a node's output image. -/
def State.putOut (s : State) (p node b : Nat) (bs : List Byte) : State :=
  (List.range bs.length).foldl (fun s i =>
    let a := b + i
    s.setF ⟨LAT_OIMG.word p node (a / 4), 8 * (a % 4), 8⟩ (bs.getD i 0).toNat) s

/-- Width of a lateral field type in bytes (R459, R460). -/
def fieldWidth (ty : Nat) : Nat := if ty = 2 then 4 else 2

/-- The lateral output field of a loop: port, node, first byte, width. -/
def State.lpOutField (s : State) (lp : Nat) : Option (Nat × Nat × Nat × Nat) :=
  if s.f (LPE_LP_OUT.KIND lp) = 2 then
    some (s.f (LPE_LP_OUT.PORT lp), s.f (LPE_LP_OUT.NODE lp), s.f (LPE_LP_OUT.BYTE lp), fieldWidth (s.f (LPE_LP_OUT.TYPE lp)))
  else none

/-- Is a byte of a node's output image bound to a loop that is not OFF (R516)? -/
def State.outBound (s : State) (p node b : Nat) : Bool :=
  s.lpOn.any (fun lp => (s.lpOutField lp).any (fun x => decide (x.1 = p ∧ x.2.1 = node ∧ x.2.2.1 ≤ b ∧ b < x.2.2.1 + x.2.2.2)))

/-- Does a loop that is not OFF bind a lateral port, as source or as sink (R537)? -/
def State.latBound (s : State) (p : Nat) : Bool :=
  s.lpOn.any (fun lp => (s.f (LPE_LP_OUT.KIND lp) = 2 && s.f (LPE_LP_OUT.PORT lp) = p) || (s.f (LPE_LP_IN.KIND lp) = 5 && s.f (LPE_LP_IN.PORT lp) = p))

/-- Lateral port states (R511, R523). -/
abbrev latOFF : Nat := 0
abbrev latENUM : Nat := 1
abbrev latMISMATCH : Nat := 2
abbrev latRUN : Nat := 3
abbrev latBROKEN : Nat := 4

/-- Lateral node states. -/
abbrev nodeABSENT : Nat := 0
abbrev nodeOK : Nat := 1
abbrev nodeLOST : Nat := 2
abbrev nodeJOINING : Nat := 3

/-- What a lateral port holds beside its registers. -/
def State.latPort (s : State) (p : Nat) : LatPort := s.lat.ports.getD {} p
def State.setLatPort (s : State) (p : Nat) (x : LatPort) : State := { s with lat := { s.lat with ports := s.lat.ports.set {} p x } }
def State.modLatPort (s : State) (p : Nat) (g : LatPort → LatPort) : State := s.setLatPort p (g (s.latPort p))

/-- Axis states (R478). -/
abbrev axDISABLED : Nat := 0
abbrev axIDLE : Nat := 1
abbrev axMOVING : Nat := 2
abbrev axSTOPPING : Nat := 3
abbrev axSTOPPED : Nat := 4
abbrev axFAULT : Nat := 5

def State.axState (s : State) (ax : Nat) : Nat := s.f (MOT_AX_STATUS.STATE ax)

/-- The axis numbers. -/
def axisList : List Nat := List.range 24

/-- Is an encoder input assigned to an enabled axis (R459, R489)? -/
def State.encOnAxis (s : State) (n : Nat) : Bool :=
  axisList.any (fun ax => s.axState ax ≠ axDISABLED && s.b (MOT_AX_CFG.ENC_EN ax) && s.f (MOT_AX_CFG.ENC ax) = n)

/-! ## Web speed (R349, R462) -/

/-- The web speed set-point now, µm/s: it moves at RATE toward the speed last asked for (R349). -/
def State.webSet (s : State) : Nat :=
  let d := s.f SCN_RAMP.RATE * (s.now.toNat - s.scn.spAt) / 1000000
  if s.scn.spFrom ≤ s.scn.spTo then min s.scn.spTo (s.scn.spFrom + d) else max s.scn.spTo (s.scn.spFrom - d)

/-- Ask for another web speed from now on. -/
def State.askSpeed (s : State) (v : Nat) : State := { s with scn := { s.scn with spFrom := s.webSet, spTo := v, spAt := s.now.toNat } }

/-- Bring SCN_WEB_SPEED in line with the last millisecond: the way between the position 1 ms ago and now (SCN registers); a line is 127/12 µm. -/
def State.syncSpeed (s : State) : State :=
  let t0 := s.now.toNat - 1000000
  let p0 := match s.scn.hist.find? (fun h => h.1 ≤ t0) with
    | some h => h.2
    | none => (s.scn.hist.getLast?.map (fun h => h.2)).getD s.scn.pos
  s.setF SCN_WEB_SPEED.SPEED (min (2 ^ 32 - 1) ((s.scn.pos - p0).natAbs * 127000 / (12 * 2 ^ 28)))

end Sys2Proof.Machine
end

