-- ==== Sys2Proof/Machine/MotOps.lean ====
section
/-! DEFINITION. Stepper axes as operations: profiles, step events, stops, encoders, the current chopper, faults (spec/13). -/
namespace Sys2Proof.Machine

/-! ## Axes -/

def State.axis (s : State) (ax : Nat) : Axis := s.mot.axes.getD {} ax
def State.setAxis (s : State) (ax : Nat) (x : Axis) : State := { s with mot := { axes := s.mot.axes.set {} ax x } }
def State.modAxis (s : State) (ax : Nat) (g : Axis → Axis) : State := s.setAxis ax (g (s.axis ax))

/-- MOT_AX_POS. -/
def State.axPos (s : State) (ax : Nat) : Int := sgn 32 (s.word (MOT_AX_POS.word ax)).toNat

/-- The signed value of a 32-bit register. -/
def State.i32 (s : State) (off : Nat) : Int := sgn 32 (s.word off).toNat

/-- Write a signed value into a 32-bit register. -/
def State.setI32 (s : State) (off : Nat) (v : Int) : State := s.setWord off (BitVec.ofInt 32 v)

/-- Step size s in usteps (R474). -/
def State.axStepSize (s : State) (ax : Nat) : Nat := 64 / 2 ^ s.f (MOT_AX_CFG.MSTEP ax)

/-- Does the axis have an encoder (R488)? -/
def State.axEnc (s : State) (ax : Nat) : Bool := s.b (MOT_AX_CFG.ENC_EN ax)

/-- A mask of axes in some states. -/
def State.axMask (s : State) (l : List Nat) : Nat := axisList.foldl (fun (a : Nat) ax => if l.contains (s.axState ax) then a + 2 ^ ax else a) 0

/-- The axis changes state; MOT_ACTIVE and MOT_FAULT follow. -/
def State.axTo (s : State) (ax v : Nat) : State :=
  let s := s.setF (MOT_AX_STATUS.STATE ax) v
  (s.setF MOT_ACTIVE.AXES (s.axMask [axMOVING, axSTOPPING])).setF MOT_FAULT.AXES (s.axMask [axFAULT])

/-! ## Encoders (R488, R490) -/

/-- Counts of the axis's encoder, in the sense that ENC_DIR selects. -/
def State.axCount (s : State) (ax : Nat) : Int :=
  let c := (s.encIn (s.f (MOT_AX_CFG.ENC ax))).cnt
  if s.b (MOT_AX_CFG.ENC_DIR ax) then -c else c

/-- MOT_AX_ENC_POS: counts since the synchronisation, scaled and rounded to nearest, plus the position at it. -/
def State.axEncPos (s : State) (ax : Nat) : Int :=
  let x := s.axis ax
  ((s.axCount ax - x.encRef) * (s.f (MOT_AX_ENC_SCALE.SCALE ax) : Int) + 32768) / 65536 + x.posRef

/-- The deviation. -/
def State.axDev (s : State) (ax : Nat) : Int := s.axPos ax - s.axEncPos ax

/-- Show the encoder position and the deviation. -/
def State.axShowEnc (s : State) (ax : Nat) : State :=
  if !s.axEnc ax then s
  else (s.setI32 (MOT_AX_ENC_POS.word ax) (s.axEncPos ax)).setI32 (MOT_AX_DEV_NOW.word ax) (s.axDev ax)

/-- Synchronise the encoder position with MOT_AX_POS. -/
def State.axSync (s : State) (ax : Nat) : State :=
  (s.modAxis ax (fun x => { x with encRef := s.axCount ax, posRef := s.axPos ax, dev := 0 })).axShowEnc ax

/-! ## The chopper (R493 to R496) -/

/-- sn(m) (R493). -/
def State.axSine (s : State) (m : Nat) : Int :=
  let t := fun (k : Nat) => (s.f (MOT_USTEP_TAB.VALUE k) : Int)
  if m ≤ 64 then t m else if m ≤ 128 then t (128 - m) else if m ≤ 192 then -t (m - 128) else -t (256 - m)

/-- I: the current code in force (R493, R497). -/
def State.axCurrent (s : State) (ax : Nat) : Nat := if (s.axis ax).run then s.f (MOT_AX_CUR.I_RUN ax) else s.f (MOT_AX_CUR.I_HOLD ax)

/-- The code of a phase, 0 A and 1 B (R493). -/
def State.axCode (s : State) (ax ph : Nat) : Int :=
  let m := (s.axPos ax % 256).toNat
  let i : Int := s.axCurrent ax
  if ph = 0 then i * s.axSine ((m + 64) % 256) / 255
  else
    let b := i * s.axSine m / 255
    if s.b (MOT_AX_CFG.DIR ax) then -b else b

def State.phase (s : State) (ax ph : Nat) : Phase := if ph = 0 then (s.axis ax).phA else (s.axis ax).phB
def State.setPhase (s : State) (ax ph : Nat) (p : Phase) : State :=
  s.modAxis ax (fun x => if ph = 0 then { x with phA := p } else { x with phB := p })

/-- Wire number of a gate output: IN1 (k = 0) or IN2 of a phase of an axis. -/
def gateWire (ax ph k : Nat) : Nat := 1000 + 4 * ax + 2 * ph + k

/-- Put a phase's gates at a pair of levels, with the dead time at 0b00 between two other states; blanking starts (R494, R495). -/
def State.gates (s : State) (ax ph g : Nat) : State :=
  let p := s.phase ax ph
  if p.gates = g then s
  else
    let put := fun (s : State) (g : Nat) => (s.emit (.wire (gateWire ax ph 0) (bit g 1))).emit (.wire (gateWire ax ph 1) (bit g 0))
    let s := if p.gates ≠ 0 ∧ g ≠ 0 then put s 0 else s
    (put s g).setPhase ax ph { p with gates := g, blank := true }

/-- Gates that drive current of a sign. -/
def driveGates (c : Int) : Nat := if 0 ≤ c then 2 else 1

/-- A phase starts a DRIVE interval. -/
def State.startDrive (s : State) (ax ph : Nat) : State :=
  let s := s.gates ax ph (driveGates (s.axCode ax ph))
  s.setPhase ax ph { s.phase ax ph with drive := true, fast := false }

/-- A phase starts to decay in the form that DECAY selects (R495). -/
def State.startDecay (s : State) (ax ph : Nat) : State :=
  let k := s.f (MOT_AX_CFG.DECAY ax)
  let opp := driveGates (if 0 ≤ s.axCode ax ph then -1 else 1)
  let s := s.gates ax ph (if k = 0 then 3 else opp)
  s.setPhase ax ph { s.phase ax ph with drive := false, fast := decide (k = 2) }

/-- Bring a phase in line with its code and the axis's bridges. -/
def State.setCode (s : State) (ax ph : Nat) : State :=
  let c := s.axCode ax ph
  let p := s.phase ax ph
  let idle := { p with drive := false, fast := false, tUp := none, tLow := none, overs := 0, openN := 0 }
  if (s.axis ax).off then (s.setPhase ax ph idle).gates ax ph 0
  else if c = 0 then (s.setPhase ax ph idle).gates ax ph 3
  else if p.drive ∧ p.gates = driveGates c then s
  else if ¬ p.drive ∧ (p.tUp.isSome ∨ p.fast) ∧ p.gates ≠ 0 ∧ (p.gates = 3 ∨ p.gates = driveGates (-c)) then s
  else s.startDrive ax ph

/-- Both phases. -/
def State.setCodes (s : State) (ax : Nat) : State := (s.setCode ax 0).setCode ax 1

/-- Bridges: gates open, or a current. -/
def State.bridges (s : State) (ax : Nat) (off run : Bool) : State := (s.modAxis ax (fun x => { x with off := off, run := run })).setCodes ax

/-! ## Ends of a motion -/

/-- PF vector 166 + ax (R500). -/
def State.axVec (s : State) (ax : Nat) : State := s.pf (166 + ax)

/-- What a motion leaves when it has ended. -/
def Axis.halted (x : Axis) : Axis := { x with v2 := 0, stopReq := none, rest := none, next := none, settle := true }

/-- Cancel a held command (R482). -/
def State.unhold (s : State) (ax : Nat) : State := (s.modAxis ax (fun x => { x with held := none })).setF (MOT_AX_STATUS.ARMED ax) 0

/-- In an entry to SLEEP, an axis at rest is DISABLED, keeping its position and REM, with POS_LOST set (R501). -/
def State.axSleep (s : State) (ax : Nat) : State :=
  let s := ((s.modAxis ax (fun x => { x with asleep := false, settle := false, resync := false, enabling := false })).unhold ax).axTo ax axDISABLED
  (s.setF (MOT_AX_STATUS.POS_LOST ax) 1).bridges ax true false

/-- A move has reached its target (R485, R499). -/
def State.axDone (s : State) (ax : Nat) : State :=
  let s := ((s.modAxis ax Axis.halted).axTo ax axIDLE).setI32 (MOT_AX_VEL.word ax) 0
  let s := ((s.setI32 (MOT_AX_REM.word ax) 0).event ax).axVec ax
  if (s.axis ax).asleep then s.axSleep ax else s

/-- The remaining distance: the target in force less the position; 0 for a jog (R484, R485). -/
def State.axRemain (s : State) (ax : Nat) : Int := if (s.axis ax).jog ≠ 0 then 0 else s.i32 (MOT_AX_TGT_NOW.word ax) - s.axPos ax

/-- The axis comes to rest in STOPPED (R484, R492, R499). -/
def State.axRest (s : State) (ax : Nat) (atLimit : Bool) : State :=
  let r := s.axRemain ax
  let s := ((s.modAxis ax Axis.halted).axTo ax axSTOPPED).setI32 (MOT_AX_VEL.word ax) 0
  let s := (((s.setI32 (MOT_AX_REM.word ax) r).setB (MOT_AX_STATUS.AT_LIMIT ax) atLimit).event (24 + ax)).axVec ax
  if (s.axis ax).asleep then s.axSleep ax else s

/-- An axis fault: 1 STALL, 2 OVERCURRENT, 3 OPEN_LOAD, 4 ENC_LOST (R498). -/
def State.axFault (s : State) (ax code : Nat) : State :=
  if s.axState ax = axDISABLED ∨ s.axState ax = axFAULT then s
  else
    let r := s.axRemain ax
    let s := ((s.modAxis ax (fun x => { x.halted with resync := decide (code = 1) })).unhold ax).axTo ax axFAULT
    let s := (s.setI32 (MOT_AX_REM.word ax) r).setI32 (MOT_AX_VEL.word ax) 0
    let s := (s.setF (MOT_AX_STATUS.FAULT ax) code).bridges ax (code = 2 || code = 3) false
    ((s.report 0x0C (s.f (MOT_AX_CFG.FCLASS ax) + 1) code ax).event (48 + ax)).axVec ax

/-! ## Profiles (R475 to R477, R481, R492) -/

/-- Do the profile registers break R477? -/
def State.axRateBad (s : State) (ax : Nat) : Bool :=
  let v := s.f (MOT_AX_VMAX.VALUE ax)
  decide (200000 * 64 < v * 2 ^ s.f (MOT_AX_CFG.MSTEP ax)) || v = 0 || s.f (MOT_AX_ACC.VALUE ax) = 0 || s.f (MOT_AX_DEC.VALUE ax) = 0 ||
    decide (v < s.f (MOT_AX_VSTART.VALUE ax))

/-- Is a position outside the limits in force (R492)? -/
def State.axOutside (s : State) (ax : Nat) (p : Int) : Bool :=
  s.b (MOT_AX_CFG.LIM_EN ax) && decide (p < s.i32 (MOT_AX_LIM_LO.word ax) ∨ s.i32 (MOT_AX_LIM_HI.word ax) < p)

/-- The profile as the registers stand. -/
def State.axProfile (s : State) (ax : Nat) (x : Axis) : Axis :=
  { x with vmax := s.f (MOT_AX_VMAX.VALUE ax), vstart := s.f (MOT_AX_VSTART.VALUE ax), acc := s.f (MOT_AX_ACC.VALUE ax),
           dec := s.f (MOT_AX_DEC.VALUE ax), jerk := s.f (MOT_AX_JERK.VALUE ax), step := s.axStepSize ax }

/-- A motion starts from rest: `jog` its direction, or 0 for a move to `t` (R475, R485, R492, R497). -/
def State.axStart (s : State) (ax : Nat) (jog t : Int) : State :=
  let pos := s.axPos ax
  let z := s.axStepSize ax
  let lim := s.b (MOT_AX_CFG.LIM_EN ax)
  let dir : Int := if jog ≠ 0 then jog else if pos ≤ t then 1 else -1
  let edge := if 0 < jog then pos + (s.i32 (MOT_AX_LIM_HI.word ax) - pos) / z * z else pos - (pos - s.i32 (MOT_AX_LIM_LO.word ax)) / z * z
  let x := s.axProfile ax (s.axis ax)
  let x := { x with dir := dir, jog := jog, target := if jog = 0 then t else edge, ends := decide (jog = 0) || lim, v2 := x.vstart ^ 2, stopReq := none,
                    rest := none, next := none, settle := false, resync := false }
  let s := (s.setAxis ax x).setI32 (MOT_AX_REM.word ax) 0
  let s := if jog = 0 then s.setI32 (MOT_AX_TGT_NOW.word ax) t else s
  let s := ((s.setB (MOT_AX_STATUS.JOG ax) (decide (jog ≠ 0))).setF (MOT_AX_STATUS.AT_LIMIT ax) 0).setF (MOT_AX_STATUS.HOLD ax) 0
  let s := ((s.axTo ax axMOVING).setI32 (MOT_AX_VEL.word ax) (dir * x.vstart)).bridges ax false true
  if jog = 0 ∧ t = pos then s.axDone ax else s

/-- Whole steps to rest from a squared velocity at a deceleration; with a jerk limit the S-curve takes longer by an amount the spec leaves open (R475, R484). -/
def State.axStopSteps (s : State) (x : Axis) (dec : Nat) : Nat × State :=
  let num := x.v2 - x.vstart ^ 2
  let den := 2 * dec * x.step
  let n := if den = 0 then 0 else (num + den - 1) / den
  if x.jerk = 0 ∨ num = 0 then (n, s) else (n + s.free.toNat % 2 ^ 20, s.drew)

/-- Replan a motion in progress to a new target (R481): straight on where the axis can come to rest by then, else with a reversal. -/
def State.axReplan (s : State) (ax : Nat) (t : Int) : State :=
  let pos := s.axPos ax
  let x := s.axProfile ax (s.axis ax)
  let r := s.axStopSteps x x.dec
  let s := r.2
  let stop := pos + x.dir * ((r.1 * x.step : Nat) : Int)
  let x := { x with jog := 0, ends := true, stopReq := none }
  let x := if 0 ≤ (t - stop) * x.dir then { x with target := t, next := none } else { x with target := stop, next := some t }
  let s := ((s.setAxis ax x).setI32 (MOT_AX_TGT_NOW.word ax) t).setF (MOT_AX_STATUS.JOG ax) 0
  if x.next.isSome ∧ stop = pos then s.axStart ax 0 t else if x.next.isNone ∧ t = pos then s.axDone ax else s

/-- Squared velocity after one step (R475): up at ACC, down at DEC, never above VMAX nor above what still comes to VSTART at the end; with a jerk limit the
S-curve is not fixed by the spec. -/
def State.axSpeed (s : State) (x : Axis) (left : Nat) : Nat × State :=
  if x.jerk ≠ 0 then (s.free.toNat % (x.vmax ^ 2 + 1), s.drew)
  else if x.rest.isSome then (max (x.vstart ^ 2) (x.v2 - 2 * x.restDec * x.step), s)
  else
    let cap := if x.ends then min (x.vmax ^ 2) (x.vstart ^ 2 + 2 * x.dec * left) else x.vmax ^ 2
    (if cap < x.v2 then max cap (x.v2 - 2 * x.dec * x.step) else min cap (x.v2 + 2 * x.acc * x.step), s)

/-- Greatest natural number whose square is at most `n`, by bisection over 33 bits. -/
def isqrt (n : Nat) : Nat := (List.range 33).foldl (fun (r : Nat) i => let c := r + 2 ^ (32 - i); if c * c ≤ n then c else r) 0

/-- Is the motion's deceleration to be planned at this event (R484)? It starts here, unless the rest point lies at or beyond the target. -/
def State.axBeginStop (s : State) (ax dec : Nat) : State :=
  let x := s.axis ax
  let pos := s.axPos ax
  let r := s.axStopSteps x dec
  let s := r.2
  let rest := pos + x.dir * ((r.1 * x.step : Nat) : Int)
  let beyond := decide (0 ≤ (rest - x.target) * x.dir) && x.ends && x.next.isNone
  if beyond && x.jog = 0 then (s.setAxis ax { x with stopReq := none, rest := none }).axTo ax axMOVING
  else
    let rest := if beyond then x.target else rest
    let s := s.setAxis ax { x with stopReq := none, rest := some rest, restDec := dec }
    if rest = pos then s.axRest ax (x.jog ≠ 0 && beyond) else s

/-- A step event (R474, R476, R484, R499). -/
def State.axStepEvent (s : State) (ax : Nat) : State :=
  let x := s.axis ax
  let pos := s.axPos ax
  let goal : Option Int := match x.rest with
    | some r => some r
    | none => if x.ends then some x.target else none
  let far := match goal with
    | some g => (g - pos).natAbs
    | none => x.step
  let pos' := pos + x.dir * (min x.step far : Nat)
  let v := s.axSpeed x (far - x.step)
  let s := v.2
  let cmp := s.i32 (MOT_AX_CMP.word ax)
  let hit := decide ((pos < cmp ∧ cmp ≤ pos') ∨ (cmp < pos ∧ pos' ≤ cmp))
  let s := (s.setAxis ax { x with v2 := v.1 }).setI32 (MOT_AX_POS.word ax) pos'
  let s := s.setI32 (MOT_AX_VEL.word ax) (x.dir * (isqrt v.1 : Nat))
  let s := ((if hit then s.event (72 + ax) else s).axShowEnc ax).setCodes ax
  if goal = some pos' then
    match x.rest, x.next with
    | some r, _ => s.axRest ax (x.jog ≠ 0 && x.ends && r = x.target)
    | none, some t => s.axStart ax 0 t
    | none, none => if x.jog ≠ 0 then s.axRest ax true else s.axDone ax
  else match x.stopReq with
    | some dec => s.axBeginStop ax dec
    | none => s

/-! ## C3, C4, SLEEP (R486, R501) -/

/-- QDEC; 0 is taken as DEC (R475 registers). -/
def State.axQdec (s : State) (ax : Nat) : Nat := if s.f (MOT_AX_QDEC.VALUE ax) = 0 then (s.axis ax).dec else s.f (MOT_AX_QDEC.VALUE ax)

/-- A stop of a moving axis, which is STOPPING from then on; a held command is cancelled (R482, R484). -/
def State.axAskStop (s : State) (ax dec : Nat) : State :=
  let s := if (s.axis ax).held.isSome then { s with trn := { s.trn with cancelled := s.trn.cancelled ++ [ax] } }.unhold ax else s
  if s.axState ax = axMOVING ∨ s.axState ax = axSTOPPING then (s.modAxis ax (fun x => { x with stopReq := some dec })).axTo ax axSTOPPING else s

/-- A C3 or C4 (R482, R486). -/
def State.axesStop (s : State) (cls : Nat) : State :=
  axisList.foldl (fun s ax =>
    if cls = 3 then s.axAskStop ax (s.axQdec ax)
    else
      let s := s.unhold ax
      let s := if s.axState ax = axMOVING ∨ s.axState ax = axSTOPPING then s.axRest ax false else s
      if s.axState ax = axDISABLED ∨ s.axState ax = axFAULT then s else s.bridges ax (s.f (MOT_AX_CFG.SAFE ax) = 1) false) s

/-- Entry to SLEEP: an axis that moves stops as on QSTOP and is DISABLED when at rest, every other at once (R501). -/
def State.axesSleep (s : State) : State :=
  axisList.foldl (fun s ax =>
    if s.axState ax = axMOVING ∨ s.axState ax = axSTOPPING then (s.axAskStop ax (s.axQdec ax)).modAxis ax (fun x => { x with asleep := true })
    else s.axSleep ax) s

end Sys2Proof.Machine
end

