-- ==== Sys2Proof/Machine/Axes.lean ====
section
/-! DEFINITION. The meanings of the axis and chopper commands (spec/13). -/
namespace Sys2Proof.Machine

/-! ## Acceptance (R479, R480, R487, R501) -/

/-- Refuse a command: 1 STATE, 2 LIMIT, 3 RATE, 4 ALIGN, 5 ENC_CONFLICT, 6 POWER, 7 FAULT_ACTIVE. -/
def State.axRefuse (s : State) (ax code : Nat) : State := ((s.raise (MOT_AX_STATUS.CMD_REFUSED ax)).setF (MOT_AX_STATUS.REFUSE ax) code).axVec ax

/-- What every command meets first: a dark block, and a C3 or C4 in progress unless the command may pass it. The answer is the state refused with. -/
def State.axGuard (s : State) (ax cmd : Nat) (pass : Bool) : Option State :=
  if 24 ≤ ax then some s
  else if s.poweredDown (MOT_AX_CMD.word ax) then
    let s := s.darkWrite (MOT_AX_CMD.word ax) cmd
    some (if s.power = pwrSLEEP then s.axRefuse ax 6 else s)
  else if s.stopActive && !pass then some (s.axRefuse ax 7)
  else none

/-- At rest with holding or running current: IDLE or STOPPED. -/
def State.axRests (s : State) (ax : Nat) : Bool := s.axState ax = axIDLE || s.axState ax = axSTOPPED

/-- Hold an armed command (R482). -/
def State.axHold (s : State) (ax : Nat) (h : Held) : State := (s.modAxis ax (fun x => { x with held := some h })).setF (MOT_AX_STATUS.ARMED ax) 1

/-- Start or replan a move to `t`, if it passes its checks (R475, R477, R479, R481, R482, R492). -/
def State.axMove (s : State) (ax : Nat) (t : Int) (arm : Bool) : State :=
  if !s.axRests ax && s.axState ax ≠ axMOVING then s.axRefuse ax 1
  else if s.axRateBad ax then s.axRefuse ax 3
  else if (t - s.axPos ax) % (s.axStepSize ax : Int) ≠ 0 then s.axRefuse ax 4
  else if s.axOutside ax t then s.axRefuse ax 2
  else if arm then s.axHold ax ⟨0, t⟩
  else if s.axState ax = axMOVING then s.axReplan ax t
  else s.axStart ax 0 t

/-- Does the axis stand at or beyond the limit of a direction (R492)? -/
def State.axAtLimit (s : State) (ax : Nat) (dir : Int) : Bool :=
  s.b (MOT_AX_CFG.LIM_EN ax) &&
    (if 0 < dir then decide (s.i32 (MOT_AX_LIM_HI.word ax) ≤ s.axPos ax) else decide (s.axPos ax ≤ s.i32 (MOT_AX_LIM_LO.word ax)))

/-- Start a jog, if it passes its checks (R479, R482, R492). -/
def State.axJog (s : State) (ax : Nat) (dir : Int) (arm : Bool) : State :=
  if !s.axRests ax then s.axRefuse ax 1
  else if s.axRateBad ax then s.axRefuse ax 3
  else if s.axAtLimit ax dir then s.axRefuse ax 2
  else if arm then s.axHold ax ⟨dir, 0⟩
  else s.axStart ax dir 0

/-- Does a STOP or QSTOP of an axis, written or fired, wait in the round (R483)? -/
def State.axStopWaits (s : State) (ax : Nat) : Bool :=
  s.pending.any (fun c => match c with
    | .axStop a => a = ax
    | .axQstop a => a = ax
    | .registerWrite _ off v _ => off = MOT_AX_CMD.word ax && (bits v.toNat 0 4 = 7 || bits v.toNat 0 4 = 8)
    | .taskAxStop a => a = ax && decide (0 < s.f (TRN_TK_STATE.PEND (24 + ax)))
    | .taskAxQstop a => a = ax && decide (0 < s.f (TRN_TK_STATE.PEND (48 + ax)))
    | _ => false)

/-- Does a C3 or C4 reach the Sump in this round (R483)? -/
def State.stopReports (s : State) : Bool := s.pending.contains .sumpReport && s.waiting.any (fun r => decide (3 ≤ r.cls))

/-- The answer of a command that the guard lets pass. In one round a C3 or C4 and the stops come first (R483): one that still waits turns the command away
as it would have found the axis. -/
def State.axDo (s : State) (ax cmd : Nat) (pass : Bool) (g : State → State) : Host.Outcome State Fault Refusal :=
  match s.axGuard ax cmd pass with
  | some t => .next t
  | none =>
    if pass then .next (g s)
    else if s.stopReports then .next (s.axRefuse ax 7)
    else if s.axState ax = axMOVING && s.axStopWaits ax then .next (s.axRefuse ax 1)
    else .next (if s.axRests ax then (g s).mark mkAxis ax else g s)

/-- Has a written command of this round already started or armed a motion that the round's stops come before (R483)? -/
def State.axNew (s : State) (ax : Nat) : Bool := (s.roundOf 4 mkAxis).contains ax

/-! ## Commands (R479) -/

/-- Is the encoder of an axis taken by another user (R489)? -/
def State.axEncTaken (s : State) (ax : Nat) : Bool :=
  let n := s.f (MOT_AX_CFG.ENC ax)
  s.axEnc ax && (s.f SCN_WEB_CFG.ENC = n || s.enabledStations.any (fun st => s.f (SCN_TRK.SRC st) = 1 && s.f (SCN_TRK.PC_ENC st) = n) ||
    axisList.any (fun b => b ≠ ax && (s.axState b ≠ axDISABLED || (s.axis b).enabling) && s.axEnc b && s.f (MOT_AX_CFG.ENC b) = n) ||
    s.lpOn.any (fun lp => s.lpReadsEnc lp n))

/-- AX_ENABLE (R479, R489, R496): the delay measurement starts. -/
def execAxEnable (ax : Nat) (s : State) : Host.Outcome State Fault Refusal :=
  s.axDo ax 1 false (fun s =>
    if s.axState ax ≠ axDISABLED ∨ (s.axis ax).enabling then s.axRefuse ax 1
    else if s.axEncTaken ax then s.axRefuse ax 5
    else s.modAxis ax (fun x => { x with enabling := true }))

/-- The mean of some measured delays, to the nearest nanosecond. -/
def meanDelay (l : List Nat) : Nat := if l.isEmpty then 0 else (2 * l.foldl (· + ·) 0 + l.length) / (2 * l.length)

/-- AX_ENABLE_COMPLETE (R478, R479, R488, R496): the delays are written, the phases energised, the axis IDLE. -/
def execAxEnableComplete (ax : Nat) (ta tb : List Nat) (s : State) : Host.Outcome State Fault Refusal :=
  if !(s.axis ax).enabling then .next s
  else
    let s := (s.setF (MOT_AX_TD.TD_A ax) (min 65535 (meanDelay ta))).setF (MOT_AX_TD.TD_B ax) (min 65535 (meanDelay tb))
    let s := ((s.modAxis ax (fun x => { x with enabling := false, jog := 0 })).axTo ax axIDLE).bridges ax false false
    .next (if s.axEnc ax then s.axSync ax else s)

/-- AX_DISABLE (R479). -/
def execAxDisable (ax : Nat) (s : State) : Host.Outcome State Fault Refusal :=
  s.axDo ax 2 true (fun s =>
    if !s.axRests ax && s.axState ax ≠ axFAULT then s.axRefuse ax 1
    else ((s.axTo ax axDISABLED).setI32 (MOT_AX_REM.word ax) 0).bridges ax true false)

/-- AX_MOVE_ABS (R479, R481). -/
def execAxMoveAbs (ax : Nat) (arm : Bool) (s : State) : Host.Outcome State Fault Refusal :=
  s.axDo ax 3 false (fun s => s.axMove ax (s.i32 (MOT_AX_TARGET.word ax)) arm)

/-- AX_MOVE_REL (R479, R481): relative to the position at rest, to the target in force while a move runs. -/
def execAxMoveRel (ax : Nat) (arm : Bool) (s : State) : Host.Outcome State Fault Refusal :=
  s.axDo ax 4 false (fun s =>
    let base := if s.axState ax = axMOVING ∧ (s.axis ax).jog = 0 then s.i32 (MOT_AX_TGT_NOW.word ax) else s.axPos ax
    s.axMove ax (base + s.i32 (MOT_AX_TARGET.word ax)) arm)

/-- AX_JOG_POS (R479). -/
def execAxJogPos (ax : Nat) (arm : Bool) (s : State) : Host.Outcome State Fault Refusal := s.axDo ax 5 false (fun s => s.axJog ax 1 arm)

/-- AX_JOG_NEG (R479). -/
def execAxJogNeg (ax : Nat) (arm : Bool) (s : State) : Host.Outcome State Fault Refusal := s.axDo ax 6 false (fun s => s.axJog ax (-1) arm)

/-- A STOP (R479, R482, R484): in IDLE, STOPPED and DISABLED without effect but on a held command. -/
def State.axStopCmd (s : State) (ax : Nat) : State :=
  if s.axNew ax then s
  else if s.axState ax = axSTOPPING ∨ s.axState ax = axFAULT then s.axRefuse ax 1 else s.axAskStop ax (s.axis ax).dec

/-- A QSTOP (R479, R484). -/
def State.axQstopCmd (s : State) (ax : Nat) : State :=
  if s.axNew ax then s else if s.axState ax = axFAULT then s.axRefuse ax 1 else s.axAskStop ax (s.axQdec ax)

/-- AX_STOP (R484). -/
def execAxStop (ax : Nat) (s : State) : Host.Outcome State Fault Refusal := s.axDo ax 7 true (fun s => s.axStopCmd ax)

/-- AX_QSTOP (R484). -/
def execAxQstop (ax : Nat) (s : State) : Host.Outcome State Fault Refusal := s.axDo ax 8 true (fun s => s.axQstopCmd ax)

/-- AX_RESUME (R482, R485, R492): to the target in force when the stop came; a stopped jog starts again. -/
def execAxResume (ax : Nat) (arm : Bool) (s : State) : Host.Outcome State Fault Refusal :=
  s.axDo ax 9 false (fun s =>
    let j := (s.axis ax).jog
    let t := s.i32 (MOT_AX_TGT_NOW.word ax)
    if s.axState ax ≠ axSTOPPED then s.axRefuse ax 1
    else if j ≠ 0 then s.axJog ax j arm
    else if s.axRateBad ax then s.axRefuse ax 3
    else if s.axOutside ax t then s.axRefuse ax 2
    else if arm then s.axHold ax ⟨0, t⟩
    else s.axStart ax 0 t)

/-- AX_SETPOS (R479, R488, R501). -/
def execAxSetpos (ax : Nat) (s : State) : Host.Outcome State Fault Refusal :=
  s.axDo ax 10 false (fun s =>
    if !s.axRests ax then s.axRefuse ax 1
    else
      let s := (s.setWord (MOT_AX_POS.word ax) (s.word (MOT_AX_TARGET.word ax))).setI32 (MOT_AX_REM.word ax) 0
      let s := ((s.modAxis ax (fun x => { x with jog := 0 })).setF (MOT_AX_STATUS.POS_LOST ax) 0).axTo ax axIDLE
      let s := s.setCodes ax
      if s.axEnc ax then s.axSync ax else s)

/-- Resynchronise: the position takes the encoder position, rounded to the nearest whole step (R490). -/
def State.axResync (s : State) (ax : Nat) : State :=
  let z : Int := s.axStepSize ax
  let p := s.axPos ax
  let d := s.axEncPos ax - p
  let s := (s.setI32 (MOT_AX_POS.word ax) (p + (2 * d + z) / (2 * z) * z)).setCodes ax
  let s := (s.modAxis ax (fun x => { x with resync := false })).axSync ax
  if s.axState ax = axSTOPPED ∨ s.axState ax = axFAULT then s.setI32 (MOT_AX_REM.word ax) (s.axRemain ax) else s

/-- AX_CLEAR (R479, R488, R498). -/
def execAxClear (ax : Nat) (s : State) : Host.Outcome State Fault Refusal :=
  s.axDo ax 11 false (fun s =>
    if s.axState ax ≠ axFAULT then s.axRefuse ax 1
    else
      let s := ((s.setF (MOT_AX_STATUS.FAULT ax) 0).axTo ax axSTOPPED).bridges ax false false
      let s := if s.axEnc ax then s.axResync ax else s
      s.setI32 (MOT_AX_REM.word ax) (s.axRemain ax))

/-! ## Events of an axis -/

/-- AX_STEP_EVENT (R474, R476, R484, R492, R499). -/
def execAxStepEvent (ax : Nat) (s : State) : Host.Outcome State Fault Refusal :=
  if 24 ≤ ax ∨ (s.axState ax ≠ axMOVING ∧ s.axState ax ≠ axSTOPPING) then .next s else .next (s.axStepEvent ax)

/-- AX_DEVIATION_CHECK (R490). -/
def execAxDeviationCheck (ax : Nat) (s : State) : Host.Outcome State Fault Refusal :=
  if 24 ≤ ax ∨ s.axState ax = axDISABLED ∨ !s.axEnc ax then .next s
  else
    let s := s.axShowEnc ax
    let n := if s.f (MOT_AX_DEVWIN.WIN ax) < (s.axDev ax).natAbs then (s.axis ax).dev + 1 else 0
    let s := s.modAxis ax (fun x => { x with dev := n })
    .next (if n = 2 ∧ s.axState ax ≠ axFAULT then (s.satInc (MOT_AX_CNT.STALL ax)).axFault ax 1 else s)

/-- AX_SETTLE_CHECK (R490, R491): 10 ms after the last step event. -/
def execAxSettleCheck (ax : Nat) (s : State) : Host.Outcome State Fault Refusal :=
  let x := s.axis ax
  if 24 ≤ ax ∨ !s.axEnc ax then .next s
  else if x.resync && s.axState ax = axFAULT then .next (s.axResync ax)
  else if !x.settle || !s.axRests ax then .next s
  else
    let d := (s.axDev ax).natAbs
    let s := s.modAxis ax (fun x => { x with settle := false })
    if d < 64 then .next s
    else
      let s := (s.satInc (MOT_AX_CNT.LOST ax) (d / 64)).report 0x0C 0 0x0F ax
      .next (if s.b (MOT_AX_CFG.ENC_CORR ax) then s.axResync ax else s)

/-- AX_HOLD_TIMEOUT (R497). -/
def execAxHoldTimeout (ax : Nat) (s : State) : Host.Outcome State Fault Refusal :=
  if 24 ≤ ax ∨ !s.axRests ax ∨ s.b (MOT_AX_STATUS.HOLD ax) then .next s
  else .next (((s.modAxis ax (fun x => { x with run := false })).setF (MOT_AX_STATUS.HOLD ax) 1).setCodes ax)

/-! ## The chopper (R495, R496, R498) -/

/-- Does a phase chop? -/
def State.chops (s : State) (ax ph : Nat) : Bool := decide (ax < 24 ∧ ph < 2) && !(s.axis ax).off && s.axCode ax ph ≠ 0

/-- OFS_UP and OFS_DN fields of a phase. -/
def ofsUp (ax ph : Nat) : Fld := if ph = 0 then MOT_AX_OFS.A_UP ax else MOT_AX_OFS.B_UP ax
def ofsDn (ax ph : Nat) : Fld := if ph = 0 then MOT_AX_OFS.A_DN ax else MOT_AX_OFS.B_DN ax

/-- Upper and lower thresholds of a phase (R495). -/
def State.thresholds (s : State) (ax ph : Nat) : Nat × Nat :=
  let c : Int := (s.axCode ax ph).natAbs
  let h : Int := s.f (MOT_AX_CUR.HYST ax) / 2
  ((clamp 0 255 (c + h - s.f (ofsUp ax ph))).toNat, (clamp 0 255 (c - h + s.f (ofsDn ax ph))).toNat)

/-- The end of a full cycle: the offsets of R496, each the mean of the last eight cycles, held to 0 to H/2. -/
def State.chopCycle (s : State) (ax ph tr tf : Nat) : State :=
  let th := s.thresholds ax ph
  let td := if ph = 0 then s.f (MOT_AX_TD.TD_A ax) else s.f (MOT_AX_TD.TD_B ax)
  let near := fun (t : Nat) => if t = 0 then 0 else (2 * (th.1 - th.2) * td + t) / (2 * t)
  let p := s.phase ax ph
  let l := ((near tr, near tf) :: p.cycles).take 8
  let h := s.f (MOT_AX_CUR.HYST ax) / 2
  let mean := fun (g : Nat × Nat → Nat) => min h ((2 * (l.map g).foldl (· + ·) 0 + l.length) / (2 * l.length))
  ((s.setPhase ax ph { p with cycles := l }).setF (ofsUp ax ph) (mean (fun x => x.1))).setF (ofsDn ax ph) (mean (fun x => x.2))

/-- The comparator toggles at the threshold in force: U ends DRIVE, L ends DECAY (R495, R496). -/
def State.chopToggle (s : State) (ax ph : Nat) : State :=
  let p := s.phase ax ph
  let t := s.now.toNat
  if p.drive then (s.setPhase ax ph { p with tUp := some t, openN := 0 }).startDecay ax ph
  else
    let s := match p.tLow, p.tUp with
      | some a, some b => s.chopCycle ax ph (b - a) (t - b)
      | _, _ => s
    (s.setPhase ax ph { s.phase ax ph with tLow := some t }).startDrive ax ph

/-- CHOP_THRESHOLD_CROSS (R495, R496): ignored within the blanking interval. -/
def execChopThresholdCross (ax phase : Nat) (s : State) : Host.Outcome State Fault Refusal :=
  if !s.chops ax phase || (s.phase ax phase).blank then .next s else .next (s.chopToggle ax phase)

/-- CHOP_MIX_END (R495): the fast part of a MIXED decay ends. -/
def execChopMixEnd (ax phase : Nat) (s : State) : Host.Outcome State Fault Refusal :=
  let p := s.phase ax phase
  if !s.chops ax phase || !p.fast then .next s else .next ((s.setPhase ax phase { p with fast := false }).gates ax phase 3)

/-- CHOP_MAX_ON_TIMEOUT (R498): a DRIVE interval has lasted MAX_ON without reaching U; the third in a row with |c| ≥ 32 is OPEN_LOAD. -/
def execChopMaxOnTimeout (ax phase : Nat) (s : State) : Host.Outcome State Fault Refusal :=
  let p := s.phase ax phase
  if !s.chops ax phase || !p.drive || decide ((s.axCode ax phase).natAbs < 32) then .next s
  else
    let s := s.setPhase ax phase { p with openN := p.openN + 1 }
    .next (if 3 ≤ p.openN + 1 then s.axFault ax 3 else s)

/-- CHOP_BLANKING_END (R495, R498): the comparator is looked at again; `atLevel`: it already shows the threshold in force. In DRIVE that counts toward
OVERCURRENT. -/
def execChopBlankingEnd (ax phase : Nat) (atLevel : Bool) (s : State) : Host.Outcome State Fault Refusal :=
  let p := s.phase ax phase
  if decide (24 ≤ ax ∨ 2 ≤ phase) || !p.blank then .next s
  else
    let n := if p.drive then (if atLevel then p.overs + 1 else 0) else p.overs
    let s := s.setPhase ax phase { p with blank := false, overs := n }
    if p.drive && decide (3 ≤ n) then .next (s.axFault ax 2)
    else .next (if atLevel && s.chops ax phase then s.chopToggle ax phase else s)

end Sys2Proof.Machine
end

