-- ==== Sys2Proof/Machine/Exposure.lean ====
section
/-! DEFINITION. The meanings of the exposure commands (spec/10): monitor reads, tap calibration, half-advance. -/
namespace Sys2Proof.Machine

/-- MONITOR_READ (R384): HEAD_STATUS, GAIN and MON[0] to MON[71] are asked for. -/
def execMonitorRead (st : Nat) (s : State) : Host.Outcome State Fault Refusal :=
  let bl := s.portOf st
  if !s.stationOn st || s.poweredDown (EXP_WIN.word st) || s.blState bl ≠ blUP || s.f (EXP_HEAD_STATE.STATE st) ≠ 2 then .next s
  else if (s.port bl).queue.any (fun q => q.prio = 3) then .next s
  else
    let rd := fun (s : State) (addr len : Nat) => s.sbQueue bl { prio := 3, addr := addr, len := len }
    .next (rd (rd (rd (rd s 0x104 1) 0x118 1) 0x400 64) 0x500 8)

/-- N′(t) from N(t), the ring's oscillations with the return path alone and with tap t over 1 ms, and the class's pixel period; the tap's error in ps.
Tpx is 11 / 4,800 µs at class 0. A measurement whose period is not longer than the return path's has no stated result. -/
def tapMeasure (n t c0 c cls : Nat) : Nat × Nat :=
  let num := 500000000 * (c0 - c)
  let den := c * c0
  let idealNum := t * 11000000 * 4000000
  let idealDen := 4800 * 64 * webSpeed cls
  let top := n * idealNum * den
  let bot := idealDen * num
  let n' := min 4095 (max 1 ((2 * top + bot) / (2 * bot)))
  let a := num * idealDen
  let b := idealNum * den
  (n', (2 * dist a b + den * idealDen) / (2 * den * idealDen))

/-- TAP_CAL_MEASURE (R394, R395): one 1 ms measurement of a station's replica ends; tap 0 stands for the return path alone. After the 64th, MEAS, PASSES and
ERR_PS are written, and an idle station takes the result. -/
def execTapCalMeasure (st count : Nat) (s : State) : Host.Outcome State Fault Refusal :=
  if !s.stationOn st || s.poweredDown (EXP_WIN.word st) || !s.b EXP_CTRL.CAL_EN || !s.b CLK_STATUS.CALREF_OK then
    .next (if s.stationOn st then (s.setExpSt st { s.expSt st with calT := 0, meas := [], err := 0 }).setF EXP_STATUS.CAL_RUN 0 else s)
  else
    let x := s.expSt st
    if x.calT = 0 then .next ((s.setExpSt st { x with calT := 1, count0 := count, meas := [0], err := 0 }).setF EXP_STATUS.CAL_RUN 1)
    else
      let ok := decide (0 < count ∧ count < x.count0)
      let r := if ok then tapMeasure (s.tapN st x.calT) x.calT x.count0 count s.classNow
        else (max 1 (s.free.toNat % 4096), (s.free.toNat / 4096) % 65536)
      let s := if ok then s else s.drew
      let meas := r.1 :: x.meas
      let err := max x.err (min 65535 r.2)
      if x.calT < 63 then .next (s.setExpSt st { x with calT := x.calT + 1, meas := meas, err := err })
      else
        let l := meas.reverse
        let s := (List.range 64).foldl (fun s t => s.setF (EXP_TAP.MEAS st t) (l.getD t 0)) s
        let s := (s.wrapInc (EXP_CAL.PASSES st)).setF (EXP_CAL_MAX.ERR_PS st) err
        let s := s.setExpSt st { x with calT := 0, meas := [], err := 0, passed := true }
        let s := s.setB EXP_STATUS.CAL_RUN (s.enabledStations.any (fun u => 0 < (s.expSt u).calT))
        .next (if s.stationBusy st then s.syncTaps st
          else ((List.range 64).foldl (fun s t => s.setF (EXP_TAP.N st t) (s.f (EXP_TAP.MEAS st t))) s).syncTaps st)

/-- Half-advance is entered or left: every set-point sent is scaled at once, with MON_TGT and HEAD_CTRL (R381). -/
def State.halfChanged (s : State) (half : Bool) : State :=
  let pct := s.f EXP_HALF.PCT
  s.enabledStations.foldl (fun s st =>
    if s.f (EXP_HEAD_STATE.STATE st) ≠ 2 then s
    else
      let s := (s.headWrite st 1 0x100 [s.headCtrl st]).headWrite st 1 0x108 [BitVec.ofNat 32 (s.monTgt st)]
      let s := (List.range 72).foldl (fun s e =>
        let v := s.f (EXP_CUR.SENT st e)
        if v = 0 ∨ bit (s.dead st) e then s
        else
          let n := if half then (2 * v * pct + 100) / 200 else (2 * v * 100 + pct) / (2 * pct)
          s.setF (EXP_CUR.TGT st e) (max 1 (min (s.iMax st) n))) s
      s.sendCur st (s.wantCur st)) s

/-- HALF_ADVANCE_WRITE (R322, R381): HALF is written outside RUN; in RUN it keeps its value (R17). -/
def execHalfAdvanceWrite (master : Nat) (value : BitVec 32) (s : State) : Host.Outcome State Fault Refusal :=
  let half := value.getLsbD 7
  if s.poweredDown SCN_CTRL.word then .next (s.darkWrite SCN_CTRL.word value.toNat master)
  else if s.inRun ∨ half = s.b SCN_CTRL.HALF then .next s
  else
    let s := (s.setB SCN_CTRL.HALF half).setB EXP_STATUS.HALF_ACTIVE half
    let s := { s with scn := { s.scn with sts := s.scn.sts.map (fun (e : Nat × ScnSt) => (e.1, { e.2 with trig := none, moving := 0 })) } }
    .next (s.halfChanged half)

end Sys2Proof.Machine
end

