-- ==== Sys2Proof/Machine/Korip.lean ====
section
/-! DEFINITION. The meanings of the codec job commands (spec/06). -/
namespace Sys2Proof.Machine

/-- Source, destination, length and limit of a slot. -/
def State.jobSrc (s : State) (j : Nat) : Nat := s.f (KOR_JOB_SRC_HI.ADDR j) * 2 ^ 32 + s.f (KOR_JOB_SRC_LO.ADDR j) * 64
def State.jobDst (s : State) (j : Nat) : Nat := s.f (KOR_JOB_DST_HI.ADDR j) * 2 ^ 32 + s.f (KOR_JOB_DST_LO.ADDR j) * 64
def State.jobLen (s : State) (j : Nat) : Nat := s.f (KOR_JOB_LEN.BYTES j)
def State.jobLimit (s : State) (j : Nat) : Nat := s.f (KOR_JOB_LIMIT.BYTES j)
def State.jobOpen (s : State) (j : Nat) : Bool := s.b (KOR_JOB_CFG.OPEN j)

/-- Does a job's span keep R241? -/
def State.jobSpanOk (s : State) (j : Nat) : Bool :=
  s.spanCode 0 0 spDRAM (s.jobSrc j) (s.jobLen j) false = 0 && s.spanCode 0 0 spDRAM (s.jobDst j) (s.jobLimit j) true = 0

/-- Does a job's set-up break R242 (BAD_JOB)? -/
def State.badJob (s : State) (j : Nat) : Bool :=
  let enc := s.b (KOR_JOB_CFG.OP j)
  let mode := s.f (KOR_JOB_CFG.MODE j)
  let n := s.jobLen j
  let unit := if enc then 80 else if mode = 1 then 40 else 20
  mode = 3 || (s.jobOpen j && !(enc && mode = 2)) || (decide (mode ≤ 1) && (n = 0 || n % unit ≠ 0)) ||
  (mode = 2 && !enc && decide (n < 16))

/-- Write a job's next output bytes to DRAM (R247). -/
def State.jobWrite (s : State) (j : Nat) (bs : List Byte) : State :=
  let done := s.f (KOR_JOB_OUT_DONE.BYTES j)
  { s with dram := s.dram.putBytes (s.jobDst j + done) bs }.setF (KOR_JOB_OUT_DONE.BYTES j) (done + bs.length)

/-- What a whole job without OPEN does: its code, output, input consumed, and the L blocks coded and stored. -/
structure JobRun where
  code   : Nat := 0
  out    : List Byte := []
  used   : Nat := 0
  coded  : Nat := 0
  stored : Nat := 0
  deriving DecidableEq, Repr, Inhabited

/-- Encode input from `a` on in blocks, ending the last one; within the limit (R235, R242). `fuel` bounds the blocks. -/
def lEncodeAll (eff : Nat) (all : List Byte) (lim : Nat) : Nat → Nat → JobRun → JobRun
  | 0, _, r => r
  | fuel + 1, a, r =>
    match lNext a all.length true with
    | none => if lim < r.out.length + 8 then { r with code := 0x22 } else { r with out := r.out ++ lEnd }
    | some b =>
      let k := lBlock eff all a b
      if lim < r.out.length + k.2.length then { r with code := 0x22 }
      else lEncodeAll eff all lim fuel b { r with out := r.out ++ k.2, used := b, coded := r.coded + (if k.1 then 1 else 0),
                                                  stored := r.stored + (if k.1 then 0 else 1) }

/-- Run a job over `src`. -/
def runJob (enc : Bool) (mode eff lim : Nat) (src : List Byte) : JobRun :=
  if mode ≤ 1 then
    let f2 := decide (mode = 1)
    let r := if enc then encodeBlocks f2 (src.length / 80) src lim else decodeBlocks f2 (src.length / blockBytes f2) src lim
    ⟨r.1, r.2.1, r.2.2, 0, 0⟩
  else if enc then
    if lim < 8 then ⟨0x22, [], 0, 0, 0⟩
    else lEncodeAll eff src lim (src.length / 65536 + 2) 0 ⟨0, lHeader, 0, 0, 0⟩
  else
    let r := decodeL src lim
    ⟨r.1, r.2.1.rout.reverse, src.length - r.2.2.length, r.2.1.coded, r.2.1.stored⟩

/-- The run of slot `j` over the first `n` bytes of its input. -/
def State.runSlot (s : State) (j n : Nat) : JobRun :=
  runJob (s.b (KOR_JOB_CFG.OP j)) (s.f (KOR_JOB_CFG.MODE j)) (s.f (KOR_JOB_CFG.EFFORT j)) (s.jobLimit j) (s.dram.bytes (s.jobSrc j) n)

/-- Put a run's results in the slot's registers and memory. -/
def State.showRun (s : State) (j : Nat) (r : JobRun) : State :=
  let s := (s.jobWrite j r.out).setF (KOR_JOB_IN_DONE.BYTES j) r.used
  (s.setF (KOR_JOB_BLOCKS.CODED j) (min r.coded 65535)).setF (KOR_JOB_BLOCKS.STORED j) (min r.stored 65535)

/-- A write of KOR_JOB_CTRL reaches slot `j`: a powered-down block, a device slot (R240) or a stop (R249) takes it. -/
def State.jobCtrl (s : State) (j value : Nat) : Option State :=
  let off := KOR_JOB_CTRL.word j
  if 8 ≤ j then some s
  else if s.poweredDown off then some (s.darkWrite off value)
  else if 6 ≤ j then some (s.reportAccess 0x04 0x05 2 0 off value)
  else none

/-- Carry out GO on a slot (R241 to R244, R249). -/
def State.jobGo (s : State) (j : Nat) : State :=
  let st := s.jobState j
  if s.stopActive ∨ st = jobRUNNING then s.jobRefused j
  else if st = jobWAITING then
    if s.jobLen j ≤ s.f (KOR_JOB_IN_DONE.BYTES j) then s.jobRefused j
    else if s.jobSpanOk j then s.setJobState j jobRUNNING
    else s.endJob j 0x11
  else
    let s := ((s.setF (KOR_JOB_IN_DONE.BYTES j) 0).setF (KOR_JOB_OUT_DONE.BYTES j) 0).setWord (KOR_JOB_BLOCKS.word j) 0
    let s := s.setJob j {}
    if s.badJob j then s.endJob j 0x10
    else if !s.jobSpanOk j then s.endJob j 0x11
    else s.setJobState j jobRUNNING

/-- Emit the blocks of an open encode that are ready; `endNow` ends the block that is filling (R235, R236). The first output carries the header. -/
def State.openEmit (s : State) (j : Nat) (endNow : Bool) : Nat → State
  | 0 => s
  | fuel + 1 =>
    let x := s.job j
    match lNext x.mark x.input.length endNow with
    | none => s
    | some b =>
      let k := lBlock (s.f (KOR_JOB_CFG.EFFORT j)) x.input x.mark b
      if s.jobLimit j < s.f (KOR_JOB_OUT_DONE.BYTES j) + k.2.length then s.endJob j 0x22
      else
        let s := (s.jobWrite j k.2).setJob j { x with mark := b }
        let s := if k.1 then s.satInc (KOR_JOB_BLOCKS.CODED j) else s.satInc (KOR_JOB_BLOCKS.STORED j)
        s.openEmit j endNow fuel

/-- Blocks an open encode can have to emit. -/
def State.openFuel (s : State) (j : Nat) : Nat := (s.job j).input.length / 65536 + 1

/-- FLUSH in WAITING (R236, R244, R247); the slot stays in WAITING. On an empty block it has no effect. -/
def State.doFlush (s : State) (j : Nat) : State :=
  let empty := decide ((s.job j).input.length ≤ (s.job j).mark)
  let s := s.setJob j { s.job j with flush := false }
  if empty then s else
  let s := s.openEmit j true (s.openFuel j)
  if s.jobState j = jobWAITING then s.event (96 + j) else s

/-- CLOSE in WAITING (R244): the block ends, END is written and the job is DONE with OK. -/
def State.doClose (s : State) (j : Nat) : State :=
  let s := s.openEmit j true (s.openFuel j)
  if s.jobState j ≠ jobWAITING then s
  else if s.jobLimit j < s.f (KOR_JOB_OUT_DONE.BYTES j) + 8 then s.endJob j 0x22
  else (s.jobWrite j lEnd).endJob j 0

/-- FLUSH written to a slot (R244): done in WAITING, held while RUNNING, refused elsewhere. -/
def State.jobFlush (s : State) (j : Nat) : State :=
  if !s.jobOpen j then s.jobRefused j
  else if s.jobState j = jobWAITING then s.doFlush j
  else if s.jobState j = jobRUNNING then s.setJob j { s.job j with flush := true }
  else s.jobRefused j

/-- CLOSE written to a slot (R244). -/
def State.jobClose (s : State) (j : Nat) : State :=
  if !s.jobOpen j then s.jobRefused j
  else if s.jobState j = jobWAITING then s.doClose j
  else if s.jobState j = jobRUNNING then s.setJob j { s.job j with close := true }
  else s.jobRefused j

/-- KOR_JOB_GO (R241 to R245): GO starts or continues a job; FLUSH and CLOSE of the same write follow it. -/
def execKorJobGo (slot : Nat) (flush close : Bool) (s : State) : Host.Outcome State Fault Refusal :=
  match s.jobCtrl slot (1 + (if flush then 2 else 0) + (if close then 4 else 0)) with
  | some t => .next t
  | none =>
    let s := s.jobGo slot
    let s := if flush then s.jobFlush slot else s
    .next (if close then s.jobClose slot else s)

/-- KOR_JOB_FLUSH (R236, R244, R245). -/
def execKorJobFlush (slot : Nat) (close : Bool) (s : State) : Host.Outcome State Fault Refusal :=
  match s.jobCtrl slot (2 + (if close then 4 else 0)) with
  | some t => .next t
  | none => .next (let s := s.jobFlush slot; if close then s.jobClose slot else s)

/-- KOR_JOB_CLOSE (R244). -/
def execKorJobClose (slot : Nat) (s : State) : Host.Outcome State Fault Refusal :=
  match s.jobCtrl slot 4 with
  | some t => .next t
  | none => .next (s.jobClose slot)

/-- How far a stopped job got over its first `n` input bytes is open (R245, R249, R250): a free part of its output has been written. -/
def State.cutJob (s : State) (j code n : Nat) : State :=
  if s.jobState j = jobRUNNING ∧ ¬ s.jobOpen j then
    let r := s.runSlot j n
    let unit := if s.f (KOR_JOB_CFG.MODE j) = 2 then 1 else if s.b (KOR_JOB_CFG.OP j) then blockBytes (s.f (KOR_JOB_CFG.MODE j) = 1) else 80
    let part := fun (v n : Nat) => v % (n + 1)
    let out := r.out.take (part s.free.toNat (r.out.length / unit) * unit)
    let used := part s.drew.free.toNat r.used
    let coded := part s.drew.drew.free.toNat r.coded
    let stored := part s.drew.drew.drew.free.toNat r.stored
    (s.drew.drew.drew.drew.showRun j ⟨code, out, used, coded, stored⟩).endJob j code
  else s.endJob j code

/-- Does a slot's job complete in this round: it has, or it is to with a command that waits, for which no time passes (R245; assumption log 10)? -/
def State.jobEndsNow (s : State) (j : Nat) : Bool :=
  (s.roundOf 4 mkJob).contains j || s.pending.any (fun c => match c with | .korJobDone k _ => k = j | _ => false)

/-- KOR_JOB_ABORT (R245): a RUNNING or WAITING slot stops with ABORTED; the other controls of the write are cancelled. In the round in which the job completes it
has no effect. -/
def execKorJobAbort (slot : Nat) (s : State) : Host.Outcome State Fault Refusal :=
  match s.jobCtrl slot 8 with
  | some t => .next t
  | none => .next (if s.jobEndsNow slot then s else if s.jobState slot = jobRUNNING ∨ s.jobState slot = jobWAITING then s.cutJob slot 0x01 (s.jobLen slot) else s.jobRefused slot)

/-- KOR_JOB_WAITING (R244, R247): an open encode has consumed its input. It enters WAITING; a held FLUSH and then a held CLOSE are carried out. -/
def execKorJobWaiting (slot : Nat) (s : State) : Host.Outcome State Fault Refusal :=
  if 6 ≤ slot ∨ s.jobState slot ≠ jobRUNNING ∨ ¬ s.jobOpen slot then .next s
  else
    let x := s.job slot
    let n := s.jobLen slot
    let more := s.dram.bytes (s.jobSrc slot + x.input.length) (n - x.input.length)
    let s := (s.setJob slot { x with input := x.input ++ more }).setF (KOR_JOB_IN_DONE.BYTES slot) n
    let s := if s.f (KOR_JOB_OUT_DONE.BYTES slot) = 0 then
        (if s.jobLimit slot < 8 then s.endJob slot 0x22 else s.jobWrite slot lHeader) else s
    let s := if s.jobState slot = jobRUNNING then s.openEmit slot false (s.openFuel slot) else s
    if s.jobState slot ≠ jobRUNNING then .next s
    else
      let s := (s.setJobState slot jobWAITING).event (96 + slot)
      let s := if x.flush then s.doFlush slot else s
      .next (if x.close && s.jobState slot = jobWAITING then s.doClose slot else s)

/-- KOR_JOB_DONE (R242, R246, R247, R250): a job without OPEN has run to its end. `ecc` is the input byte at which a source read met an uncorrectable
error: the job ends there with DRAM_UNCORRECTABLE, also an open one. -/
def execKorJobDone (slot : Nat) (ecc : Option Nat) (s : State) : Host.Outcome State Fault Refusal :=
  if 6 ≤ slot ∨ s.jobState slot ≠ jobRUNNING then .next s
  else
    let bad := match ecc with
      | some k => decide (k < s.jobLen slot)
      | none => false
    if s.jobOpen slot then .next (if bad then s.endJob slot 0x30 else s)
    else if bad then
      .next (s.cutJob slot 0x30 (ecc.getD 0))
    else
      let r := s.runSlot slot (s.jobLen slot)
      .next ((s.showRun slot r).endJob slot r.code)

/-- A C3 or C4, or entry to SLEEP, stops the jobs of slots 0 to 5 (R249). -/
def State.stopJobs (s : State) (code : Nat) : State :=
  (List.range 6).foldl (fun s j => if s.jobState j = jobRUNNING ∨ s.jobState j = jobWAITING then s.cutJob j code (s.jobLen j) else s) s

end Sys2Proof.Machine
end

