-- ==== Sys2Proof/Machine/Flumes.lean ====
section
/-! DEFINITION. The Flumes and the furrow schedule (spec/08): release, completion, fences and redos, station tables, the underrun predictor. -/
namespace Sys2Proof.Machine

/-! ## Slices -/

abbrev flIDLE : Nat := 0
abbrev flBUSY : Nat := 1
abbrev flRESERVE : Nat := 2
abbrev flFENCED : Nat := 3
abbrev flTESTING : Nat := 4
abbrev flRETIRED : Nat := 5
abbrev flOFF : Nat := 6

def State.flState (s : State) (n : Nat) : Nat := s.f (FLM_SLICE_STATE.STATE n)

/-- Put a Flume in a state, holding a furrow of station `st` (0xF: none). -/
def State.setFl (s : State) (n st : Nat) (station : Nat := 0xF) : State :=
  (s.setF (FLM_SLICE_STATE.STATE n) st).setF (FLM_SLICE_STATE.ST n) station

/-- The Flumes in a state, in rising number. -/
def State.flumesIn (s : State) (st : Nat) : List Nat := (List.range 16).filter (fun n => s.flState n = st)

/-- Keep one idle Flume in reserve while LIVE exceeds REQ (R300). Which idle Flume becomes the reserve is open: a free value. -/
def State.nameReserve (s : State) : State :=
  let held := s.flumesIn flRESERVE
  let want := decide (s.f FLM_STATUS.REQ + 1 ≤ s.liveFlumes)
  let s := if !want then held.foldl (fun s n => s.setFl n flIDLE) s
    else if held.isEmpty then
      let idle := s.flumesIn flIDLE
      match idle with
      | [] => s
      | [n] => s.setFl n flRESERVE
      | _ => s.drew.setFl (idle.getD (s.free.toNat % idle.length) 0) flRESERVE
    else s
  s.setB FLM_STATUS.RESERVE (!(s.flumesIn flRESERVE).isEmpty)

/-- Report of a Flume: parameter by R677. -/
def flParam (n st : Nat) : Nat := n * 65536 + st * 256

/-- Put a furrow's entry. -/
def State.setFurrows (s : State) (l : List Furrow) : State := { s with flm := { s.flm with furrows := l } }
def State.modFurrow (s : State) (seq st k : Nat) (g : Furrow → Furrow) : State :=
  s.setFurrows (s.flm.furrows.map (fun f => if f.page = seq && f.st = st && f.k = k then g f else f))

/-- Number of the next furrow to release of a page at a station. -/
def State.nextFurrow (s : State) (seq st : Nat) : Nat := s.flm.next.getD 0 (seq * 16 + st)

/-- The line of furrow `k`'s deadline: the trigger of the first sweep that reads its lines (R279, R283). -/
def State.deadline (s : State) (f : Frame) (st k : Nat) : Nat :=
  s.topAt f st + 64 * k - (if s.b SCN_CTRL.HALF ∧ 0 < k then 32 else 0)

/-- The trigger of the last sweep that reads a line of furrow `k` where no offset moves it: its own, or in half-advance the one after it (R283). -/
def State.lastSweep (s : State) (f : Frame) (st k : Nat) : Nat := s.topAt f st + 64 * k + (if s.b SCN_CTRL.HALF then 32 else 0)

/-- Frames whose page is fixed for a station and prints there: its latch line has passed, it is not spoiled (R66, R74). -/
def State.printFrames (s : State) (st : Nat) : List (Frame × Page) :=
  (s.pages.frames.filterMap (fun f => (f.page.bind s.page?).map (fun p => (f, p)))).filter
    (fun x => x.1.latched && x.2.desc.stations.getLsbD st && x.2.latchedSt.getLsbD st && x.2.spoil.isNone && !x.1.blank)

/-- The furrow to be released next at a station: of the first printing page with furrows left. -/
def State.releaseNext (s : State) (st : Nat) : Option (Frame × Page × Nat) :=
  ((s.printFrames st).find? (fun x => decide (s.nextFurrow x.2.seq st < x.2.desc.furrows))).map
    (fun x => (x.1, x.2, s.nextFurrow x.2.seq st))

/-- Furrows that no sweep reads any more leave the ring (R283). -/
def State.dropPrinted (s : State) (st : Nat) : State :=
  s.setFurrows (s.flm.furrows.filter (fun f => f.st ≠ st || f.flume.isSome ||
    match s.frameOf f.page with
    | none => false
    | some fr => decide (s.lineAt st < s.topAt fr st + 64 * (f.k + 2) + 16)))

/-- Give a furrow to a Flume; the composer begins to fetch a composed one (R267). -/
def State.assign (s : State) (n seq st k : Nat) (redo : Bool) : State :=
  let s := s.setFl n flBUSY st
  let s := s.setFurrows (s.flm.furrows ++ [{ page := seq, st := st, k := k, flume := some n, redo := redo }])
  if (s.page? seq).any (fun (p : Page) => p.desc.format = 3) then s.startFill n seq st k else s

/-- May a station's next furrow be released (R295): the trigger lies at most DEPTH + 1 facet periods before its deadline, its ring lines are free or being read,
and its source data is present? Answers the lines left to its deadline. -/
def State.mayRelease (s : State) (st : Nat) : Option Int :=
  (s.releaseNext st).bind (fun x =>
    let depth := s.f FLM_FREEBOARD.DEPTH
    let facet := if s.b SCN_CTRL.HALF then 32 else 64
    let lead := decide (s.deadline x.1 st x.2.2 ≤ s.lineAt st + facet * (depth + 1))
    let ring := decide (x.2.2 < depth) || decide (s.lastSweep x.1 st (x.2.2 - depth) ≤ s.lineAt st)
    if lead && ring && s.dataThere x.2.1 st x.2.2 then some ((s.deadline x.1 st x.2.2 : Int) - s.lineAt st) else none)

/-- The station whose furrow is released next: that with the earliest deadline, of equal ones the lowest station (R296). -/
def State.releaseTurn (s : State) : Option Nat :=
  (s.enabledStations.foldl (fun (a : Option (Nat × Int)) st => match a, s.mayRelease st with
    | none, some d => some (st, d)
    | some b, some d => if d < b.2 then some (st, d) else some b
    | a, none => a) none).map (fun b => b.1)

/-- FURROW_RELEASE (R267, R279, R283, R295, R296): the scheduler gives a furrow to the lowest idle Flume, if no redo waits. The command names the station whose
turn it is, and has no effect where it is another's. -/
def execFurrowRelease (st : Nat) (s : State) : Host.Outcome State Fault Refusal :=
  match s.releaseNext st, (s.flumesIn flIDLE).head? with
  | some (_, p, k), some n =>
    if !s.inRun || s.stopActive || !s.flm.lost.isEmpty || s.releaseTurn ≠ some st then .next s
    else
      let s := (s.dropPrinted st).assign n p.seq st k false
      .next ({ s with flm := { s.flm with next := s.flm.next.put (p.seq * 16 + st) (k + 1) } }.setF FLM_STATUS.SCHED_RUN 1)
  | _, _ => .next s

/-- The boundary line above furrow `k`: none where the furrow before it has not written it yet (R285). -/
def State.boundary (s : State) (seq st k : Nat) : Option (List Pixel) :=
  if k = 0 then some [] else match s.furrowAt seq st (k - 1) with
    | some f => if f.done then some f.last else none
    | none => none

/-- A Flume is free again: the reserve is named if none is held (R300). -/
def State.freeFlume (s : State) (n : Nat) : State := (s.setFl n flIDLE).nameReserve

/-- FURROW_COMPLETE (R221, R227, R239, R263, R284 to R292, R297, R303): a Flume ends its furrow. Malformed data is written blank and spoils the page; an
uncorrectable error at memory address `ecc` spoils it with MEMORY_ERROR (R737). `corrected`: an SRAM error met and corrected, a C1 (R27). The record's furrow
index stands in bits 31:16 of the parameter (DESIGN CHOICE, unsafe: R227 names no place; assumption log 105). -/
def execFurrowComplete (flume : Nat) (ecc : Option Nat) (corrected : Bool) (s : State) : Host.Outcome State Fault Refusal :=
  match s.flm.furrows.find? (fun f => f.flume = some flume) with
  | none => .next s
  | some f =>
    if s.flState flume ≠ flBUSY then .next s
    else match s.page? f.page, s.boundary f.page f.st f.k with
      | none, _ => .next (((s.dropFill flume).setFurrows (s.flm.furrows.filter (fun g => g.flume ≠ some flume))).freeFlume flume)
      | _, none => .next s
      | some p, some above =>
        if p.desc.format = 3 ∧ p.spoil.isNone ∧ ecc.isNone ∧ (s.listOf f.page f.st).isSome ∧ (s.filled f.page f.st f.k).isNone then .next s
        else
        let r := s.furrowLines p f.st f.k
        let bad := r.1 ≠ 0 || ecc.isSome || p.spoil.isSome
        let codes := if bad then [] else s.furrowCodes p.desc f.st f.k r.2 above
        let last := r.2.getD 31 []
        let inTime := (s.frameOf f.page).any (fun fr => decide (s.lineAt f.st ≤ s.deadline fr f.st f.k))
        let s := s.modFurrow f.page f.st f.k (fun g => { g with flume := none, done := true, blank := bad, codes := codes, last := last })
        let s := (s.wrapInc (FLM_SLICE_DONE.COUNT flume)).event (128 + f.st)
        let s := if f.redo && inTime then s.satInc FLM_REDO_CNT.REDONE else s
        let s := (s.dropFill flume).freeFlume flume
        let s := match s.streamOf f.page f.st with
          | some x => if p.desc.inspected then s else s.useStream f.page f.st (sourceEnd p.desc x f.k)
          | none => s
        let s := if corrected then s.report 0x06 1 0x0B (flParam flume f.st) else s
        match ecc with
        | some a =>
          if p.desc.format = 3 then .next (s.failCompose p.seq 0x47 0x3FFFF f.st)
          else .next (s.spoilPage p.seq 0x07 0x06 (flParam flume f.st) f.st (some a))
        | none =>
          if r.1 = 0 then .next s
          else .next ((s.codecCount r.1).spoilPage p.seq 0x01 0x04 (f.k * 65536 + f.st * 256 + 0x10 + flume) f.st none (some r.1))

/-- Does a deadline of a furrow lie at most 150 µs ahead at the class in force (R298)? -/
def State.deadlineNear (s : State) (f : Frame) (st k : Nat) : Bool :=
  decide (((s.deadline f st k : Int) - s.lineAt st) * 3175000 ≤ 45 * (webSpeed s.classNow : Int))

/-- FURROW_DATA_DEADLINE (R75, R179, R271, R298): the source data of a station's next furrow is still absent 150 µs before its deadline; the page is spoiled
DATA_MISSING, or FUNCTION_RESET where its function was reset (R80). -/
def execFurrowDataDeadline (st : Nat) (s : State) : Host.Outcome State Fault Refusal :=
  match s.releaseNext st with
  | none => .next s
  | some (f, p, k) =>
    if s.dataThere p st k || !s.deadlineNear f st k then .next s
    else
      let s := s.satInc (FLM_ST_ERR.MISSING st)
      if p.flr then .next (s.spoilPage p.seq 0x05 0x06 (flParam 0xFF st) st)
      else if p.desc.format = 3 then
        let tile := ((s.listOf p.seq st).bind (fun l => (l.entries.filter (fun e => e.inFurrow p.desc.rows k)).find?
          (fun e => !(s.tileResident e.fn e.tile || s.pinResident e.fn e.tile)))).map (fun e => e.tile)
        .next (s.failCompose p.seq 0x46 (tile.getD 0x3FFFF) st)
      else .next (s.spoilPage p.seq 0x01 0x06 (flParam 0xFF st) st)

/-- A furrow of a station that is not complete at its deadline. -/
def State.lateFurrow (s : State) (st : Nat) : Option (Page × Nat) :=
  ((s.printFrames st).filterMap (fun x =>
    ((List.range x.2.desc.furrows).find? (fun k => decide (s.deadline x.1 st k ≤ s.lineAt st) &&
      decide (s.lineAt st < s.deadline x.1 st k + 64) && !(s.furrowAt x.2.seq st k).any (fun f => f.done))).map (fun k => (x.2, k)))).head?

/-- FURROW_LATE (R74, R298, R303): a furrow is not complete at its deadline; the sweep prints blank and the page is spoiled FURROW_LOST. -/
def execFurrowLate (st : Nat) (s : State) : Host.Outcome State Fault Refusal :=
  match s.lateFurrow st with
  | none => .next s
  | some (p, k) =>
    let f := s.furrowAt p.seq st k
    let redo := f.any (fun f => f.redo) || s.flm.lost.contains (p.seq, st, k)
    let s := if redo then s.satInc FLM_REDO_CNT.LOST else s
    let s := { s with flm := { s.flm with lost := s.flm.lost.filter (fun x => x ≠ (p.seq, st, k)) } }
    .next ((s.satInc (FLM_ST_ERR.LOST st)).spoilPage p.seq 0x02 0x06 (flParam ((f.bind (fun f => f.flume)).getD 0xFF) st) st)

/-- Fence a Flume; the third fence since POR_N retires it (R302, R306). -/
def State.fence (s : State) (n : Nat) : State :=
  let k := min 3 (s.f (FLM_SLICE_STATE.FENCES n) + 1)
  let s := s.setF FLM_FENCED.MASK (setBit (s.f FLM_FENCED.MASK) n true)
  let s := s.setF (FLM_SLICE_STATE.FENCES n) k
  let s := if k = 3 then (s.setF FLM_RETIRED.MASK (setBit (s.f FLM_RETIRED.MASK) n true)).setFl n flRETIRED else s.setFl n flFENCED
  s.checkCapacity.nameReserve

/-- FLUME_STALL (R301, R302, R306): the Flume is fenced, its furrow and its boundary line are lost and queued for redo. The record's furrow index stands in bits
7:0 of the parameter and, its upper part, in bits 31:24 (DESIGN CHOICE, unsafe: R302 names no place; assumption log 105). -/
def execFlumeStall (flume : Nat) (s : State) : Host.Outcome State Fault Refusal :=
  match s.flm.furrows.find? (fun f => f.flume = some flume) with
  | none => .next s
  | some f =>
    if 16 ≤ flume ∨ s.flState flume ≠ flBUSY then .next s
    else
      let id := (s.page? f.page).map (fun p => idAddr p.desc.pageId)
      let s := (s.dropFill flume).setFurrows (s.flm.furrows.filter (fun g => g.flume ≠ some flume))
      let s := (s.report 0x06 1 0x40 (f.k / 256 * 2 ^ 24 + flParam flume f.st + f.k % 256) (id.getD 0)).pf (84 + flume)
      let s := { s with flm := { s.flm with lost := s.flm.lost ++ [(f.page, f.st, f.k)] } }
      .next (s.fence flume)

/-- REDO_START (R296, R303): the first lost furrow goes to the reserve, or to the lowest idle Flume. -/
def execRedoStart (s : State) : Host.Outcome State Fault Refusal :=
  match s.flm.lost with
  | [] => .next s
  | (seq, st, k) :: t =>
    match (s.flumesIn flRESERVE ++ s.flumesIn flIDLE).head? with
    | none => .next s
    | some n =>
      let s := { s with flm := { s.flm with lost := t } }
      .next ((s.assign n seq st k true).nameReserve)

/-- FLUME_UNFENCE (R306): in READY, a fenced Flume runs its test; anything else is refused. -/
def execFlumeUnfence (flume : Nat) (s : State) : Host.Outcome State Fault Refusal :=
  let off := FLM_SLICE_CTRL.word flume
  if 16 ≤ flume then .next s
  else if s.poweredDown off then .next (s.darkWrite off 1)
  else if s.power = pwrREADY ∧ s.flState flume = flFENCED then .next (s.setFl flume flTESTING)
  else .next (s.raise FLM_STATUS.CTRL_REFUSED)

/-- FLUME_TEST_DONE (R305, R306): a test passes and the Flume serves, or it fails: fenced with a C1, or still fenced. -/
def execFlumeTestDone (flume : Nat) (pass : Bool) (s : State) : Host.Outcome State Fault Refusal :=
  if 16 ≤ flume ∨ s.flState flume ≠ flTESTING then .next s
  else if pass then
    let s := s.setF FLM_FENCED.MASK (setBit (s.f FLM_FENCED.MASK) flume false)
    .next ((s.setFl flume flIDLE).checkCapacity.nameReserve)
  else
    let s := s.report 0x06 1 0x41 (flParam flume 0)
    if bit (s.f FLM_FENCED.MASK) flume then .next (s.setFl flume flFENCED) else .next (s.fence flume)

/-- The Flumes' tests at a boot and on the way from STANDBY to READY (R305, R603): every Flume that is not fenced is under test. -/
def State.startTests (s : State) : State :=
  (List.range 16).foldl (fun s n => if bit (s.f FLM_FENCED.MASK) n then s else s.setFl n flTESTING) s

/-- The Flumes lose power (R312): fenced and retired states stay. -/
def State.flumesOff (s : State) : State :=
  let s := (List.range 16).foldl (fun s n => if bit (s.f FLM_FENCED.MASK) n then s else s.setFl n flOFF) s
  (s.setF FLM_STATUS.RESERVE 0).setF FLM_STATUS.SCHED_RUN 0

/-- A C3 or C4 (R310): nothing more is released, the Flumes drop their furrows and the rings empty. -/
def State.stopFlumes (s : State) : State :=
  let s := (s.flumesIn flBUSY).foldl (fun s n => s.setFl n flIDLE) s
  ({ s with flm := { s.flm with furrows := [], lost := [], next := [] } }.setF FLM_STATUS.SCHED_RUN 0).nameReserve

/-! ## Station tables (R293, R294) -/

/-- The station of a station-table register, if the offset names one. -/
def tableStation (off : Nat) : Option Nat :=
  if 0x803000 ≤ off ∧ off < 0x803300 then some ((off - 0x803000) / 0x40)
  else if 0x804000 ≤ off ∧ off < 0x804300 then some ((off - 0x804000) / 0x40)
  else if 0x900000 ≤ off ∧ off < 0x9C0000 then some ((off - 0x900000) / 0x10000)
  else if 0xA00000 ≤ off ∧ off < 0xB80000 then some ((off - 0xA00000) / 0x20000)
  else none

/-- Bits of a station-table register that hold a value. -/
def tableMask (off : Nat) : BitVec 32 :=
  if off < 0x804000 then 0xFFF#32
  else if off < 0x900000 then (if off % 8 = 0 then 0x3F3F3F#32 else 0xFFF#32)
  else if off < 0xA00000 then 0xFFF#32 else 0x1FFF#32

/-- Are the station tables out of reach: the block is powered down, but in STANDBY and SLEEP they answer (R312)? -/
def State.tablesDark (s : State) (off : Nat) : Bool :=
  s.poweredDown off && (s.f HIF_DEV_STATE.STATE = 2 || !(s.power = pwrSTANDBY || s.power = pwrSLEEP))

/-- STATION_TABLE_WRITE (R8, R39, R293, R312): the write enters the pending log, or is lost to a full one; a ramp of 0 is refused. -/
def execStationTableWrite (master off : Nat) (value : BitVec 32) (s : State) : Host.Outcome State Fault Refusal :=
  match tableStation off with
  | none => .next s
  | some st =>
    if s.tablesDark off then .next (s.darkWrite off value.toNat master)
    else if !s.stationOn st then .next (s.reportAccess 0x06 0x04 2 master off value.toNat)
    else if 0x804000 ≤ off ∧ off < 0x900000 ∧ off % 8 = 4 ∧ value &&& 0xFFF#32 = 0 then .next (s.raise FLM_STATUS.CTRL_REFUSED)
    else if 262144 ≤ s.flm.log.length then .next (s.raise FLM_STATUS.LOG_FULL)
    else
      let s := { s with flm := { s.flm with log := s.flm.log ++ [(⟨st, off, value &&& tableMask off⟩ : LogEntry)] } }
      .next (s.setF FLM_LOG_PEND.ENTRIES s.flm.log.length)

/-- Apply every pending entry of a station, in log order (R294). -/
def State.applyLog (s : State) (st : Nat) : State :=
  let mine := s.flm.log.filter (fun e => e.st = st)
  let s := mine.foldl (fun s e => s.setWord e.off e.val) s
  let s := { s with flm := { s.flm with log := s.flm.log.filter (fun e => e.st ≠ st) } }
  s.setF FLM_LOG_PEND.ENTRIES s.flm.log.length

/-- Do a station's pending entries fit a gap of `ns` nanoseconds, at 200 entries per µs (R294)? -/
def State.logFits (s : State) (st ns : Nat) : Bool := decide ((s.flm.log.filter (fun e => e.st = st)).length * 5 ≤ ns)

/-- TABLE_LOG_IDLE_APPLY (R294): an idle station takes all its pending entries. -/
def execTableLogIdleApply (st : Nat) (s : State) : Host.Outcome State Fault Refusal :=
  if s.stationBusy st then .next s else .next (s.applyLog st)

/-! ## The underrun predictor (R307 to R309) -/

/-- Pages whose raster at a station the predictor counts, in commit order. -/
def State.rasterPages (s : State) (st : Nat) : List (Page × Stream) :=
  (s.pages.pages.filter (fun p => p.active && p.desc.format ≠ 3 && p.spoil.isNone)).filterMap
    (fun p => (s.streamOf p.seq st).map (fun x => (p, x)))

/-- Bytes of the pages' furrows not yet released: landed contiguously from the next furrow, and in all. -/
def State.aheadNeed (s : State) (st : Nat) : List (Page × Stream) → Nat × Nat
  | [] => (0, 0)
  | (p, x) :: t =>
    let k := s.nextFurrow p.seq st
    let a := if k < p.desc.furrows then sourceAt p.desc x k else x.len
    let r := s.aheadNeed st t
    let whole := decide (x.len ≤ x.data.length)
    (x.data.length - a + (if whole then r.1 else 0), x.len - a + r.2)

/-- What one evaluation finds at a station: none is "clear"; otherwise t_empty and t_lim in ms, and the class to order. -/
structure Forecast where
  empty : Nat := 0                          -- t_empty, ms
  limit : Nat := 0                          -- t_lim, ms
  fasterOk : Bool := false                  -- at the next faster class, t_empty exceeds twice its t_lim (R309)
  target : Nat := 4
  deriving DecidableEq, Repr, Inhabited

/-- Ring bytes of the next furrow to be released at a station. -/
def State.nextBytes (s : State) (st : Nat) : List (Page × Stream) → Nat
  | [] => 0
  | (p, x) :: t =>
    let k := s.nextFurrow p.seq st
    if k < p.desc.furrows then sourceEnd p.desc x k - sourceAt p.desc x k else s.nextBytes st t

/-- t_empty in ms for inflow `r` (bytes in 50 ms) and consumption `b` bytes per facet period of class `c`; none where the inflow keeps up. -/
def emptyMs (ahead r b c : Nat) : Option Nat :=
  if 150 * webSpeed c * b ≤ 2032000 * r then none
  else some (ahead * 50 * 2032000 / (150 * webSpeed c * b - 2032000 * r))

/-- One evaluation of a station (R307), with inflow `r` in bytes per 50 ms. -/
def State.forecast (s : State) (st r : Nat) : Option Forecast :=
  let ps := s.rasterPages st
  let an := s.aheadNeed st ps
  let c := s.classNow
  let b := s.nextBytes st ps
  if an.2 ≤ an.1 then none
  else match emptyMs an.1 r b c with
    | none => none
    | some e =>
      let ends := (s.printFrames st).map (fun x => s.topAt x.1 st + x.1.len)
      let lines := ends.foldl max 0 - s.lineAt st
      let lim := fun (c : Nat) => s.linesMs c lines + s.f FLM_PRED_CFG.RAMP_MS + s.f FLM_PRED_CFG.GUARD_MS
      let faster := match emptyMs an.1 r b (c - 1) with
        | none => true
        | some e' => decide (2 * lim (c - 1) < e')
      let tgt := ((List.range 5).find? (fun k => s.variant.fastest ≤ k && (emptyMs 1 r b k).isNone)).getD 4
      some ⟨e, lim c, faster, tgt⟩

/-- One evaluation at one station: its registers, its order (R307, R308), and whether it lets UNDERRUN clear (R309). -/
def State.predictStation (s : State) (st : Nat) : State × Bool × Option Nat :=
  let now := s.flm.landed.getD 0 st
  let h := s.flm.hist.getD [] st
  let r := now - h.getD 49 0
  let s := { s with flm := { s.flm with hist := s.flm.hist.set [] st ((now :: h).take 50) } }
  let s := s.setF (FLM_PRED.INFLOW st) (min 65535 (r / 50000))
  match s.forecast st r with
  | none => (s.setF (FLM_PRED.TEMPTY_MS st) 0xFFFF, true, none)
  | some x =>
    let s := s.setF (FLM_PRED.TEMPTY_MS st) (min x.empty 65534)
    (s, x.fasterOk, if x.empty < x.limit then some x.target else none)

/-- The predictor goes on to the next station: the state, whether every station so far is calm, and the stations at risk with the class each asks for. -/
def predictNext (a : State × Bool × List (Nat × Nat)) (st : Nat) : State × Bool × List (Nat × Nat) :=
  let r := a.1.predictStation st
  (r.1, a.2.1 && r.2.1, match r.2.2 with
    | some c => a.2.2 ++ [(st, c)]
    | none => a.2.2)

/-- The predictor over every enabled station. -/
def State.predictAll (s : State) : State × Bool × List (Nat × Nat) := s.enabledStations.foldl predictNext (s, true, [])

/-- PREDICTOR_EVALUATE (R307 to R309): every enabled station is evaluated; orders go to the slowest of their targets; UNDERRUN clears after 1,000
evaluations that allow it. -/
def execPredictorEvaluate (s : State) : Host.Outcome State Fault Refusal :=
  if s.power < pwrREADY ∨ s.poweredDown FLM_PRED_CFG.word then .next s
  else
    let r := s.predictAll
    let s := r.1
    let calm := if r.2.1 then s.flm.calm + 1 else 0
    let s := { s with flm := { s.flm with calm := calm } }
    let stand := s.f FLM_PRED_STATUS.STATIONS
    let old := s.f FLM_PRED_STATUS.TARGET
    let cls : Nat := r.2.2.foldl (fun (a : Nat) (x : Nat × Nat) => max a x.2) 0
    let fresh := r.2.2.any (fun x => !bit stand x.1) || (!r.2.2.isEmpty && old ≠ 7 && decide (old < cls))
    if fresh then
      let mask := r.2.2.foldl (fun m x => setBit m x.1 true) stand
      let tgt := if old = 7 then cls else max old cls
      let s := ((s.setF FLM_PRED_STATUS.STATIONS mask).setF FLM_PRED_STATUS.ACTIVE 1).setF FLM_PRED_STATUS.TARGET tgt
      let s := (r.2.2.filter (fun x => !bit stand x.1)).foldl (fun s x => s.report 0x06 0 0x42 (flParam 0xFF x.1)) s
      .next (((s.weirOn 1).weirAsk 1 tgt).pf 5)
    else if s.b FLM_PRED_STATUS.ACTIVE ∧ 1000 ≤ calm then
      let s := ((s.setF FLM_PRED_STATUS.STATIONS 0).setF FLM_PRED_STATUS.ACTIVE 0).setF FLM_PRED_STATUS.TARGET 7
      .next ((s.weirOff 1).pf 5)
    else .next s

end Sys2Proof.Machine
end

