-- ==== Sys2Proof/Machine/InsOps.lean ====
section
/-! DEFINITION. Inspection (spec/11) as operations: lines and rows, calibration, the reference, comparison, defects, results, correction targets. -/
namespace Sys2Proof.Machine

/-! ## Lines and rows (R402 to R408) -/

/-- Code `i` of a line: pixel i / 3, colour i mod 3, 12 bits each from bit 0 up (R403). -/
def lineCode (px : List Byte) (i : Nat) : Nat := leAt px (3 * i / 2) 2 / (if i % 2 = 0 then 1 else 16) % 4096

/-- The place of the web at an instant, in 2^-16 line: that of the last encoder count before it (R406). -/
def State.posAt (s : State) (t : Nat) : Int :=
  match s.scn.hist.filter (fun h => h.1 ≤ t) with
  | [] => match s.scn.hist.getLast? with
    | some h => h.2 / 4096
    | none => s.scn.pos / 4096
  | h :: _ => h.2 / 4096

/-- CRC-8 of R350 over a LINE_START's bytes 0 to 6. -/
def lineCrc8 (bs : List Byte) : BitVec 8 :=
  let step := fun (c : BitVec 8) => if c.getLsbD 7 then (c <<< 1) ^^^ 0x07#8 else c <<< 1
  bs.foldl (fun c b => step (step (step (step (step (step (step (step (c ^^^ b))))))))) 0#8

/-- Control TYPEs that a lane may carry (R402). -/
def cisTypeOk (t : Nat) : Bool := t = 0x1E || t = 0x4B || t = 0x55 || t = 0x66

/-- One lane of a line: LINE_START, its data blocks, LINE_END; answers LSEQ and the payloads where every check of R402, R403 and R405 holds. -/
def laneLine (lane : Nat) (bs : List (Bool × BitVec 64)) : Option (BitVec 32 × List (BitVec 64)) :=
  match bs.head?, bs.getLast? with
  | some a, some z =>
    let data := (bs.drop 1).dropLast
    let want := if lane < 2 then 1688 else 1687
    let ab := leBytes 8 a.2.toNat
    let zb := leBytes 8 z.2.toNat
    let pay := (data.filter (fun x => x.1)).map (fun x => x.2)
    let crc := crc32c ((pay.map (fun w => leBytes 8 w.toNat)).flatten)
    if !a.1 && !z.1 && (data.all (fun x => x.1 || cisTypeOk (x.2.toNat % 256))) && leAt ab 0 1 = 0x55 && leAt ab 1 1 = lane &&
        decide (lineCrc8 (ab.take 7) = BitVec.ofNat 8 (leAt ab 7 1)) && leAt zb 0 1 = 0x66 && leAt zb 1 1 = lane &&
        decide (pay.length = want) && leAt zb 2 2 = want && decide (crc = BitVec.ofNat 32 (leAt zb 4 4))
    then some (BitVec.ofNat 32 (leAt ab 3 4), pay) else none
  | _, _ => none

/-- A line from its four lanes: data block j travels on lane j mod 4 (R403). -/
def cisBytes (lanes : List (List (Bool × BitVec 64))) : Option (BitVec 32 × List Byte) :=
  match (List.range 4).mapM (fun l => laneLine l (lanes.getD l [])) with
  | some [a, b, c, d] =>
    if a.1 = b.1 ∧ a.1 = c.1 ∧ a.1 = d.1 then
      let ls := [a.2, b.2, c.2, d.2]
      some (a.1, ((List.range 6750).flatMap (fun j => leBytes 8 ((ls.getD (j % 4) []).getD (j / 4) 0).toNat)).take 54000)
    else none
  | _ => none

/-- Gain of a column and colour, with 14 fraction bits. -/
def CisCal.gain (c : CisCal) (i : Nat) : Nat := c.gains.getD i 16384

/-- A flat-fielded code. -/
def CisCal.flat (c : CisCal) (i v : Nat) : Nat := (v * c.gain i + 8192) / 16384

/-- Value of a matrix entry as a fraction: row r, columns R, G, B and the offset (R432). -/
def CisCal.entry (c : CisCal) (r k : Nat) : Int × Nat :=
  match c.matrix[4 * r + k]? with
  | some x => Flt.toRat x
  | none => (if r = k then 1 else 0, 1)

/-- A calibrated colour of a pixel, to the nearest, 0 to 4,095 (R408). -/
def CisCal.colour (c : CisCal) (r : Nat) (f : Nat → Nat) : Nat :=
  let t := (List.range 4).foldl (fun (a : Int × Nat) (k : Nat) =>
    let e := c.entry r k
    let v : Int := if k < 3 then f k else 1
    (a.1 * e.2 + e.1 * v * a.2, a.2 * e.2)) (0, 1)
  (clamp 0 4095 ((2 * t.1 + t.2) / (2 * t.2))).toNat

/-- A row between two good lines, resampled to page columns and calibrated (R406 to R408); a colour that no capture pixel reaches reads 4096, which marks
it as excluded. `at'` is the row's place. -/
def State.cisRow (s : State) (side : Nat) (a b : CisLine) (at' : Int) : List Nat :=
  let den := b.pos - a.pos
  let x0 := s.fi (INS_CIS_CFG.X0 side)
  let flip := s.b (INS_CIS_CFG.FLIP side)
  let cal := (s.insSide side).cal
  let between := fun (i : Nat) =>
    let u : Int := lineCode a.px i
    let v : Int := lineCode b.px i
    if den = 0 then u else u + (2 * (v - u) * (at' - a.pos) + den) / (2 * den)
  (List.range 12000).flatMap (fun (c : Nat) =>
    let n16 : Int := 16 * (c : Int) + x0
    let n := n16 / 16
    let w := n16 % 16
    let n2 := if w = 0 then n else n + 1
    if n < 0 ∨ 11999 < n2 then [4096, 4096, 4096]
    else
      let px := fun (m : Int) (k : Nat) => between (3 * (if flip then 11999 - m.toNat else m.toNat) + k)
      let raw := fun (k : Nat) => ((px n k * (16 - w) + px n2 k * w + 8) / 16).toNat
      let col := fun (k : Nat) => 3 * (if flip then 11999 - n.toNat else n.toNat) + k
      let f := fun (k : Nat) => cal.flat (col k) (raw k)
      [cal.colour 0 f, cal.colour 1 f, cal.colour 2 f])

/-- Rows of a page at 600 dpi (R406). -/
def PageDesc.cisRows (d : PageDesc) : Nat := (d.length + 3) / 4

/-- The place of row `r` of a page at the bar, in 2^-16 line (R406). -/
def State.rowPos (s : State) (y : InsPage) (r : Nat) : Int :=
  65536 * ((y.tof : Int) + s.f (INS_CIS_DIST.LINES y.side) - y.remain + 4 * r) + 98304

/-! ## The reference (R409 to R413) -/

/-- A taking station's value at row r and column c: the mean of four host pixels (R410). -/
def stValue (lines : List (List Pixel)) (r c : Nat) : Nat :=
  let v := fun (y x : Nat) => ((lines.getD y []).getD x (0, 0)).1
  let y := 2 * (r % 16)
  (v y (2 * c) + v y (2 * c + 1) + v (y + 1) (2 * c) + v (y + 1) (2 * c + 1) + 2) / 4

/-- The decoded host lines of furrow `k` for a side's taking stations; none where a station's ring data is gone (R411). -/
def State.insLines (s : State) (p : Page) (y : InsPage) (k : Nat) : Option (List (Nat × List (List Pixel))) :=
  (stationList (y.sts.setWidth 16)).mapM (fun st =>
    let held := if p.desc.format = 3 then (s.listOf p.seq st).isSome
      else (s.streamOf p.seq st).any (fun x => decide (x.used ≤ sourceAt p.desc x k ∧ sourceEnd p.desc x k ≤ x.data.length))
    if held then
      let r := s.furrowLines p st k
      if r.1 = 0 then some (st, r.2) else none
    else none)

/-- Model channel of a station (R409). -/
def State.chanOf (s : State) (side st : Nat) : Nat := bits (s.f (INS_MAP_CH.CH side)) (2 * st) 2

/-- The four channels of a pixel; `bump` raises one station's value (R410, R418). -/
def State.channels (s : State) (side : Nat) (ls : List (Nat × List (List Pixel))) (r c : Nat) (bump : Nat × Nat := (99, 0)) : List Nat :=
  (List.range 4).map (fun a => min 255 ((ls.filter (fun x => s.chanOf side x.1 = a)).foldl
    (fun (t : Nat) x => t + stValue x.2 r c + (if x.1 = bump.1 then bump.2 else 0)) 0))

/-- A channel's cell: its lower node's index, the distance into it, its span (R412). -/
def nodeOf (a v : Nat) : Nat × Nat × Nat :=
  if a < 3 then
    if v < 240 then (v / 16, v % 16, 16) else (15, v - 240, 15)
  else (min 2 (v / 85), v - 85 * min 2 (v / 85), 85)

/-- A colour of a model entry (R413). -/
def modelAt (m : List Byte) (i0 i1 i2 i3 k : Nat) : Nat := leAt m (6 * (((i3 * 17 + i2) * 17 + i1) * 17 + i0) + 2 * k) 2 % 4096

/-- The predicted colour `k` for four channels: multilinear interpolation, to the nearest (R412). -/
def predictColour (m : List Byte) (ch : List Nat) (k : Nat) : Nat :=
  let n := (List.range 4).map (fun a => nodeOf a (ch.getD a 0))
  let g := fun (a : Nat) => n.getD a (0, 0, 1)
  let den := (g 0).2.2 * (g 1).2.2 * (g 2).2.2 * (g 3).2.2
  let sum := (List.range 16).foldl (fun (t : Nat) (corner : Nat) =>
    let up := fun (a : Nat) => corner / 2 ^ a % 2
    let w := fun (a : Nat) => if up a = 1 then (g a).2.1 else (g a).2.2 - (g a).2.1
    t + w 0 * w 1 * w 2 * w 3 * modelAt m ((g 0).1 + up 0) ((g 1).1 + up 1) ((g 2).1 + up 2) ((g 3).1 + up 3) k) 0
  min 4095 ((2 * sum + den) / (2 * den))

/-- The furrow of a row. -/
def furrowOfRow (r : Nat) : Nat := r / 16

/-- The predicted colour at a page's row and column, before the blur; rows and columns beyond an edge repeat it. -/
def State.predictAt (s : State) (p : Page) (y : InsPage) (lines : Nat → Option (List (Nat × List (List Pixel)))) (r c : Int) (k : Nat) : Nat :=
  let r := (clamp 0 (p.desc.cisRows - 1) r).toNat
  let c := (clamp 0 11999 c).toNat
  match lines (furrowOfRow r) with
  | some ls => predictColour (s.insSide y.side).model (s.channels y.side ls r c) k
  | none => 0

/-- The predicted colour, with the kernel of BLUR along the row and then down the columns, each to the nearest (R412). -/
def State.reference (s : State) (p : Page) (y : InsPage) (lines : Nat → Option (List (Nat × List (List Pixel)))) (r c k : Nat) : Nat :=
  if s.f (INS_CIS_CFG.BLUR y.side) ≠ 1 then s.predictAt p y lines r c k
  else
    let row := fun (rr : Int) => (s.predictAt p y lines rr ((c : Int) - 1) k + 2 * s.predictAt p y lines rr c k + s.predictAt p y lines rr ((c : Int) + 1) k + 2) / 4
    (row ((r : Int) - 1) + 2 * row r + row ((r : Int) + 1) + 2) / 4

/-! ## Comparison (R415 to R418) -/

/-- A captured colour; none where the row is invalid or the column excluded. -/
def InsPage.cap (y : InsPage) (r c : Int) (k : Nat) : Option Nat :=
  if r < 0 ∨ c < 0 ∨ 11999 < c then none
  else match y.caps.find? (fun x => (x.1 : Int) = r) with
    | none => none
    | some x => let v := x.2.getD (3 * c.toNat + k) 4096; if v = 4096 then none else some v

/-- One compared pixel: row in the page, column, the differences, the three predicted colours. -/
structure InsDiff where
  r : Nat
  c : Nat
  d : List Int
  ref : List Nat
  deriving DecidableEq, Repr

/-- |a| of the largest colour difference (R415). -/
def InsDiff.mag (x : InsDiff) : Nat := x.d.foldl (fun (a : Nat) (v : Int) => max a v.natAbs) 0
def InsDiff.sum (x : InsDiff) : Int := x.d.foldl (· + ·) 0

/-- The valid pixels of a furrow under a shift: capture minus prediction. -/
def State.diffs (s : State) (p : Page) (y : InsPage) (lines : Nat → Option (List (Nat × List (List Pixel)))) (rows : List Nat) (sy sx : Int) : List InsDiff :=
  rows.flatMap (fun (r : Nat) => (List.range 12000).filterMap (fun (c : Nat) =>
    match (List.range 3).mapM (fun (k : Nat) => y.cap ((r : Int) + sy) ((c : Int) + sx) k) with
    | none => none
    | some v =>
      let ref := (List.range 3).map (s.reference p y lines r c)
      some ⟨r, c, (v.zip ref).map (fun x => (x.1 : Int) - x.2), ref⟩))

/-- Every shift within ±8 pixels, down and along. -/
def shiftList : List (Int × Int) := (List.range 17).flatMap (fun (a : Nat) => (List.range 17).map (fun (b : Nat) => (((a : Nat) : Int) - 8, ((b : Nat) : Int) - 8)))

/-- Sum of absolute differences. -/
def sad (l : List InsDiff) : Nat := l.foldl (fun (a : Nat) x => a + x.d.foldl (fun (b : Nat) (v : Int) => b + v.natAbs) 0) 0

/-- 8-connected components. -/
def components (l : List (Nat × Nat)) : List (List (Nat × Nat)) :=
  l.foldl (fun (cs : List (List (Nat × Nat))) p =>
    let near := fun (q : Nat × Nat) => decide (dist p.1 q.1 ≤ 1 ∧ dist p.2 q.2 ≤ 1)
    let touch := cs.filter (fun c => c.any near)
    (p :: touch.flatten) :: cs.filter (fun c => !c.any near)) []

/-- Severity of a size against the two limits; a type whose SPOIL_EN bit is clear is never worse than MARGINAL; 0: no defect (R416). -/
def State.severity (s : State) (side code : Nat) (size m sp : Nat) : Nat :=
  if sp ≤ size then (if bit (s.f (INS_SEV.SPOIL_EN side)) (code - 1) then 2 else 1) else if m ≤ size then 1 else 0

/-- The station whose raised value best explains the differences of some pixels; 0xF below a correlation of 0.5 (R418). -/
def State.attribute' (s : State) (y : InsPage) (ls : List (Nat × List (List Pixel))) (px : List InsDiff) : Nat :=
  let m := (s.insSide y.side).model
  let score := fun (st : Nat) =>
    px.foldl (fun (a : Int × Int × Int) x =>
      (List.range 3).foldl (fun (a : Int × Int × Int) (k : Nat) =>
        let e : Int := (predictColour m (s.channels y.side ls x.r x.c (st, 32)) k : Int) - predictColour m (s.channels y.side ls x.r x.c) k
        let d := x.d.getD k 0
        (a.1 + d * e, a.2.1 + d * d, a.2.2 + e * e)) a) (0, 0, 0)
  let best := ls.foldl (fun (b : Option (Nat × Int × Int)) x =>
    let t := score x.1
    let num := t.1 * t.1
    let den := t.2.1 * t.2.2
    if den = 0 then b
    else match b with
      | none => some (x.1, num, den)
      | some (w, n, d) => if n * den < num * d then some (x.1, num, den) else some (w, n, d)) none
  match best with
  | some (st, n, d) => if d ≤ 4 * n then st else 0xF
  | none => 0xF

/-- SPOT and VOID defects of a furrow (R416). -/
def State.spots (s : State) (y : InsPage) (ls : List (Nat × List (List Pixel))) (l : List InsDiff) : List Defect :=
  let mag := s.f (INS_THR_SPOT.MAG y.side)
  let hit := l.filter (fun x => decide (mag ≤ x.mag))
  let one : Nat → List InsDiff → List Defect := fun code px =>
    (components (px.map (fun x => (x.r, x.c)))).filterMap (fun c =>
      let sev := s.severity y.side code c.length (s.f (INS_THR_SPOT.AREA_M y.side)) (s.f (INS_THR_SPOT.AREA_S y.side))
      if sev = 0 then none
      else
        let st := s.attribute' y ls (px.filter (fun x => c.contains (x.r, x.c)))
        some ({ code := code, station := st, sev := sev, row := c.foldl (fun (a : Nat) q => min a q.1) 65535,
                col := c.foldl (fun (a : Nat) q => min a q.2) 65535, extent := c.length } : Defect))
  one 1 (hit.filter (fun x => decide (x.sum < 0))) ++
  one 2 (hit.filter (fun x => decide (0 ≤ x.sum) && (s.channels y.side ls x.r x.c).any (fun v => decide (32 ≤ v))))

/-- Columns active for STREAK in a furrow: the mean difference over the valid rows, summed over the colours, reaches MAG (R416). -/
def State.streakCols (s : State) (y : InsPage) (l : List InsDiff) : List Nat :=
  (List.range 12000).filter (fun c =>
    let px := l.filter (fun x => x.c = c)
    let t := px.foldl (fun (a : Int) x => a + x.sum) 0
    decide (px ≠ [] ∧ s.f (INS_THR_STREAK.MAG y.side) * px.length ≤ t.natAbs))

/-- Lengthen the runs that a furrow or sweep continues, and start those it begins; a run and its continuation may lie one column apart (`slack` 1). -/
def extendRuns (slack n : Nat) (runs : List InsRun) (hits : List (Nat × Nat × Nat)) : List InsRun :=
  hits.foldl (fun (rs : List InsRun) h =>
    let meets := fun (x : InsRun) => decide (x.st = h.1 ∧ dist x.at' h.2.1 ≤ slack ∧ n ≤ x.last + 1)
    if rs.any meets then rs.map (fun x => if meets x then { x with last := n } else x)
    else rs ++ [⟨h.1, h.2.1, n, n, h.2.2⟩]) runs

/-- off(g) with the values recorded for a page (R328, R417). -/
def InsVals.off (v : InsVals) (g : Nat) : Nat :=
  let bow := sgn 4 (bits (v.bow.getD (g / 8) 0).toNat (4 * (g % 8)) 4)
  (clamp 0 15 ((v.base : Int) + (v.slope * (g : Int) + 2048) / 4096 + bow)).toNat

/-- Is row `r` light for a station in column group `g`: over the pixels where its value is at least 128, lighter by PCT percent of the predicted
darkness against paper (R416)? none where no such pixel was compared. -/
def State.lightRow (s : State) (y : InsPage) (sl : List (List Pixel)) (l : List InsDiff) (r g : Nat) : Option Bool :=
  let px := l.filter (fun x => x.r = r && x.c / 16 = g && decide (128 ≤ stValue sl r x.c))
  let paper := (List.range 3).foldl (fun (a : Nat) k => a + modelAt (s.insSide y.side).model 0 0 0 0 k) 0
  if px.isEmpty then none
  else
    let light := px.foldl (fun (a : Int) x => a + x.sum) 0
    let dark := px.foldl (fun (a : Int) x => a + ((paper : Int) - (x.ref.foldl (· + ·) 0 : Nat))) 0
    some (decide (0 < light ∧ dark * s.f (INS_THR_LINE.PCT y.side) ≤ 100 * light))

/-- Sweep lines that are light in sweep `sw` of a station: those every row that holds them shows light (R416, R417). -/
def State.lightLines (s : State) (y : InsPage) (st : Nat) (sl : List (List Pixel)) (l : List InsDiff) (rows : List Nat) (sw : Nat) : List Nat :=
  let v := y.vals.getD {} st
  let seen := rows.flatMap (fun r => (List.range 750).filterMap (fun g =>
    (s.lightRow y sl l r g).map (fun b => (r, g, b))))
  (List.range 64).filter (fun ln =>
    let mine := seen.filter (fun x => (List.range 4).any (fun i => decide ((4 * x.1 + v.off x.2.1 + i) / 64 = sw ∧ (4 * x.1 + v.off x.2.1 + i) % 64 = ln)))
    !mine.isEmpty && mine.all (fun x => x.2.2))

/-- The compared pixels of a furrow in the rows that hold sweep line `ln` of sweep `sw` of a station (R417). -/
def linePixels (v : InsVals) (l : List InsDiff) (sw ln : Nat) : List InsDiff :=
  l.filter (fun x => (List.range 4).any (fun i => let n := 4 * x.r + v.off (x.c / 16) + i; decide (n / 64 = sw ∧ n % 64 = ln)))

/-- The light sweep lines that a furrow shows of sweep `sw`, each with the station whose missing ink explains it best (R416 to R418). -/
def State.lightHits (s : State) (y : InsPage) (ls : List (Nat × List (List Pixel))) (l : List InsDiff) (rows : List Nat) (sw : Nat) : List (Nat × Nat × Nat) :=
  ls.flatMap (fun x => (s.lightLines y x.1 x.2 l rows sw).map (fun ln => (x.1, ln, s.attribute' y ls (linePixels (y.vals.getD {} x.1) l sw ln))))

/-- Station and band pairs in which an area fit for a feature lies: 8 × 8 compared pixels with one station at 192 or more and every other at 0 (R419). -/
def solidBands (ls : List (Nat × List (List Pixel))) (l : List InsDiff) : List (Nat × Nat) :=
  ls.flatMap (fun x =>
    let ok := fun (r c : Nat) => l.any (fun q => q.r = r && q.c = c) && decide (192 ≤ stValue x.2 r c) && ls.all (fun z => z.1 = x.1 || stValue z.2 r c = 0)
    let rs := (l.map (fun q => q.r)).eraseDups
    (List.range 8).filterMap (fun b =>
      if rs.any (fun r => (List.range 1493).any (fun c => (List.range 8).all (fun i => (List.range 8).all (fun j => ok (r + i) (1500 * b + c + j)))))
      then some (x.1, b) else none))

/-- Compare furrow `k` of a page side (R415 to R419). Where several shifts are equally good, which one serves is open: a free value. -/
def State.compareFurrow (s : State) (p : Page) (y : InsPage) (k : Nat) : State :=
  let rows := ((List.range 16).map (fun i => 16 * k + i)).filter (fun r => decide (r < p.desc.cisRows))
  let lines := fun (j : Nat) => s.insLines p y j
  let good := if (lines k).isNone then [] else rows.filter (fun r => y.caps.any (fun x => x.1 = r))
  let ls := (lines k).getD []
  let costs := shiftList.map (fun h => (h, sad (s.diffs p y lines good h.1 h.2)))
  let least := costs.foldl (fun (a : Nat) x => min a x.2) ((costs.map (fun x => x.2)).headD 0)
  let best := (costs.filter (fun x => x.2 = least)).map (fun x => x.1)
  let pick := if best.length ≤ 1 then best.headD (0, 0) else best.getD (s.free.toNat % best.length) (0, 0)
  let s := if best.length ≤ 1 then s else s.drew
  let l := s.diffs p y lines good pick.1 pick.2
  let cols := s.streakCols y l
  -- the offsets push a furrow's last rows into the next sweep
  let lights := fun (rs : List InsRun) => extendRuns 0 (k + 1) (extendRuns 0 k rs (s.lightHits y ls l good k)) (s.lightHits y ls l good (k + 1))
  let s := s.modInsPage y.page y.side (fun z => { z with
    done := k + 1, lost := z.lost ++ rows.filter (fun r => !good.contains r), defects := z.defects ++ s.spots y ls l,
    streaks := extendRuns 1 k z.streaks (cols.map (fun c => (0xF, c, s.attribute' y ls (l.filter (fun x => x.c = c))))), lights := lights z.lights,
    solid := (z.solid ++ solidBands ls l).eraseDups, shifts := z.shifts ++ [pick] })
  -- the furrow's ring data is no longer needed on this side
  if ((List.range 2).all (fun i => i = y.side || (s.insSide i).pages.all (fun z => z.page ≠ y.page || decide (k < z.done)))) then
    (stationList p.desc.stations).foldl (fun s st => match s.streamOf p.seq st with
      | some x => s.useStream p.seq st (sourceEnd p.desc x k)
      | none => s) s
  else s

/-! ## Measurements, verdict and result (R419 to R424) -/

/-- A free signed value of at most 16 bits. -/
def State.freeInt (s : State) : Int := sgn 16 (s.free.toNat % 65536)

/-- What R419 measures of a station. The cutting of solid areas into features and their centroids are not fixed by the spec: the values are free; a band
without an area fit for a feature is unmeasured. -/
def State.measure (s : State) (y : InsPage) (st : Nat) : InsMeas × State :=
  let has := fun (b : Nat) => y.solid.contains (st, b)
  let r := (List.range 8).foldl (fun (a : List (Option (Int × Int)) × State) b =>
    if has b then
      let n := a.2.free.toNat % 2
      let dy := a.2.drew.freeInt
      let dx := a.2.drew.drew.freeInt
      (a.1 ++ [if n = 0 then none else some (dy, dx)], a.2.drew.drew.drew)
    else (a.1 ++ [none], a.2)) ([], s)
  let some' := fun (n : Nat) (s : State) => (List.range n).foldl (fun (a : List (Option Int) × State) _ =>
    if (List.range 8).any has then (a.1 ++ [if a.2.free.toNat % 2 = 0 then none else some a.2.drew.freeInt], a.2.drew.drew) else (a.1 ++ [none], a.2)) ([], s)
  let f := some' 8 r.2
  let d := some' 1 f.2
  let ph := some' 16 d.2
  (⟨r.1, f.1, d.1.getD 0 none, ph.1⟩, ph.2)

/-- Division rounded half away from zero (R428). -/
def roundDiv (n d : Int) : Int :=
  let q := (2 * n.natAbs + d.natAbs) / (2 * d.natAbs)
  if (n < 0 ∧ 0 < d) ∨ (0 < n ∧ d < 0) then -(q : Int) else q

/-- dy and dx of a station in a band less those of the reference station; none where either is unmeasured (R416, R427). -/
def bandError (ms : Store InsMeas) (st ref b : Nat) : Option (Int × Int) :=
  match ((ms.getD {} st).bands.getD b none), ((ms.getD {} ref).bands.getD b none) with
  | some v, some w => some (v.1 - w.1, v.2 - w.2)
  | _, _ => none

/-- The errors of all measured bands. -/
def bandErrors (ms : Store InsMeas) (st ref : Nat) : List (Nat × Int × Int) :=
  (List.range 8).filterMap (fun b => (bandError ms st ref b).map (fun v => (b, v.1, v.2)))

/-- REGISTRATION and DENSITY defects: for each station at most one of each, the band or value with the largest error (R416, R422). -/
def State.regDefects (s : State) (side : Nat) (sts : List Nat) (ms : Store InsMeas) : List Defect :=
  let ref := s.f (INS_CORR.REF_ST side)
  sts.flatMap (fun st =>
    let cand := (bandErrors ms st ref).flatMap (fun x => [(x.1, 0, x.2.1), (x.1, 1, x.2.2)])
    let worst := cand.foldl (fun (a : Option (Nat × Nat × Int)) x => match a with
      | none => some x
      | some w => if w.2.2.natAbs < x.2.2.natAbs then some x else some w) none
    let reg := match worst with
      | some (b, ax, e) =>
        let sev := s.severity side 5 e.natAbs (s.f (INS_THR_REG.REG_M side)) (s.f (INS_THR_REG.REG_S side))
        if sev = 0 then [] else [({ code := 5, station := st, sev := sev, line := ax, col := 1500 * b + 750, extent := e } : Defect)]
      | none => []
    let den := match (ms.getD {} st).den with
      | some e =>
        let sev := s.severity side 6 e.natAbs (10 * s.f (INS_THR_REG.DEN_M side)) (10 * s.f (INS_THR_REG.DEN_S side))
        if sev = 0 then [] else [({ code := 6, station := st, sev := sev, extent := e } : Defect)]
      | none => []
    reg ++ den)

/-- STREAK and MISSING_LINE defects from the runs of the page (R416, R417). -/
def State.runDefects (s : State) (y : InsPage) : List Defect :=
  let streaks := y.streaks.filterMap (fun x =>
    let n := x.last + 1 - x.first
    let sev := s.severity y.side 3 n (s.f (INS_THR_STREAK.LEN_M y.side)) (s.f (INS_THR_STREAK.LEN_S y.side))
    if sev = 0 then none else some ({ code := 3, station := x.who, sev := sev, row := 16 * x.first, col := x.at', extent := n } : Defect))
  -- lines light together over the same sweeps are one defect at its lowest candidate line
  let lights := (y.lights.filter (fun x => !y.lights.any (fun z => z.st = x.st && z.who = x.who && z.first = x.first && z.last = x.last && z.at' + 1 = x.at'))).filterMap (fun x =>
    let n := x.last + 1 - x.first
    let sev := s.severity y.side 4 n (s.f (INS_THR_LINE.SW_M y.side)) (s.f (INS_THR_LINE.SW_S y.side))
    if sev = 0 then none else some ({ code := 4, station := x.who, sev := sev, line := x.at', row := (64 * x.first + x.at') / 4, extent := n } : Defect))
  streaks ++ lights

/-- Is the side not inspected (R420)? -/
def State.notInspected (s : State) (p : Page) (y : InsPage) : Bool :=
  let n := y.lost.length
  let runs := y.lost.any (fun r => (List.range 17).all (fun i => y.lost.contains (r + i)))
  !y.on || !bit (s.f INS_STATUS.MODEL_OK) y.side || y.linkLost || decide (p.desc.cisRows < 1000 * n) || runs

/-- The order of a result's defects: SPOIL first, then MARGINAL, each by its earliest row (R422). -/
def sortDefects (l : List Defect) : List Defect :=
  let key := fun (d : Defect) => (if d.sev = 2 then 0 else 65536) + d.row
  l.foldl (fun (a : List Defect) d => a.filter (fun x => key x ≤ key d) ++ [d] ++ a.filter (fun x => key d < key x)) []

/-- A mean of whole numbers, rounded half away from zero; none of an empty list. -/
def meanOf (l : List Int) : Option Int := if l.isEmpty then none else some (roundDiv (l.foldl (· + ·) 0) l.length)

/-- Show the head of a side's queue in its window (R424). -/
def State.insWindow (s : State) (side : Nat) : State :=
  let x := s.insSide side
  let s := s.setF (INS_RES_Q.QUEUED side) x.queue.length
  match x.queue with
  | [] =>
    let s := s.setWord (INS_RESULT.word side) (BitVec.ofNat 32 (x.seq % 65536))
    let s := (s.set64 (INS_RES_PAGE_LO.word side) 0).setWord (INS_RES_INFO.word side) 0
    let s := (List.range 12).foldl (fun s st => s.setWord (INS_RES_REG.word side st) 0) s
    (List.range 64).foldl (fun s i => (s.setWord (INS_DEF_A.word side i) 0).setWord (INS_DEF_B.word side i) 0) s
  | h :: _ =>
    let s := ((s.setF (INS_RESULT.READY side) 1).setF (INS_RESULT.VERDICT side) h.verdict).setF (INS_RESULT.NDEF side) h.defects.length
    let s := (s.setF (INS_RESULT.SEQ side) h.seq).set64 (INS_RES_PAGE_LO.word side) h.pageId.toNat
    let s := ((s.setF (INS_RES_INFO.FN side) h.fn).setF (INS_RES_INFO.MORE side) (min 255 h.more)).setB (INS_RES_INFO.NOT_INSP side) h.notInsp
    let s := (s.setF (INS_RES_INFO.DY side) (unsgn 8 h.dy)).setF (INS_RES_INFO.DX side) (unsgn 8 h.dx)
    let v := fun (o : Option Int) => match o with
      | some i => unsgn 16 (clamp (-32767) 32767 i)
      | none => 0x8000
    let s := (List.range 12).foldl (fun s st =>
      let r := h.regs.getD st (none, none)
      (s.setF (INS_RES_REG.DY side st) (v r.1)).setF (INS_RES_REG.DX side st) (v r.2)) s
    (List.range 64).foldl (fun s i => match h.defects[i]? with
      | none => (s.setWord (INS_DEF_A.word side i) 0).setWord (INS_DEF_B.word side i) 0
      | some d =>
        let a := d.code * 2 ^ 28 + d.station * 2 ^ 24 + d.sev * 2 ^ 22 + d.line % 64 * 2 ^ 16 + d.row % 65536
        let e := if d.code = 5 ∨ d.code = 6 then unsgn 16 (clamp (-32768) 32767 d.extent) else min 65535 d.extent.toNat
        (s.setWord (INS_DEF_A.word side i) (BitVec.ofNat 32 a)).setWord (INS_DEF_B.word side i) (BitVec.ofNat 32 (d.col % 16384 * 65536 + e))) s

/-- Is an INS_ACK of the head result waiting in this arbitration round? It is applied before a result that completes in the round (R425). -/
def State.ackWaits (s : State) (side : Nat) : Bool :=
  s.pending.any (fun c => match c with
    | .insAck i q => i = side && q % 65536 = s.f (INS_RESULT.SEQ side)
    | .registerWrite _ off v _ => off = INS_ACK.word side && v.toNat % 65536 = s.f (INS_RESULT.SEQ side)
    | _ => false)

/-- Queue a result; a full queue loses it, as a C0, unless its head is acknowledged in the same round (R424 to R426). -/
def State.queueResult (s : State) (side : Nat) (r : InsResult) : State :=
  let x := s.insSide side
  let seq := (x.seq + 1) % 65536
  if 256 ≤ x.queue.length && !s.ackWaits side then
    ((s.setInsSide side { x with seq := seq }).satInc (INS_RES_Q.LOST side)).report 0x0A 0 0x41 (side * 256)
  else
    let s := (s.setInsSide side { x with seq := seq, queue := x.queue ++ [{ r with seq := seq }] }).insWindow side
    if x.queue.isEmpty then (s.mark mkReady side).pf (100 + side) else s

/-! ## The correction loop (R427 to R430) -/

/-- Key of a corrected item: side, station, item of R427, index. -/
def corrKey (side st item i : Nat) : Nat := (side * 16 + st) * 16384 + item * 2048 + i

/-- Record one target and its error, keeping the last AVG (R428). -/
def State.addTarget (s : State) (side st item i : Nat) (t e : Int) : State :=
  let k := corrKey side st item i
  let n := max 1 (s.f (INS_CORR.AVG side))
  { s with ins := { s.ins with targets := s.ins.targets.set [] k (((t, e) :: s.ins.targets.getD [] k).take n) } }

/-- The targets that one page gives a station (R428). -/
def State.pageTargets (s : State) (side st : Nat) (v : InsVals) (ms : Store InsMeas) : State :=
  let ref := s.f (INS_CORR.REF_ST side)
  let errs := bandErrors ms st ref
  let n : Int := errs.length
  let m := ms.getD {} st
  let own := (List.range 8).filterMap (fun b => (m.bands.getD b none).map (fun w => ((b : Int), w.1, w.2)))
  let k : Int := own.length
  let sb := own.foldl (fun (a : Int) x => a + x.1) 0
  let sy := own.foldl (fun (a : Int) x => a + x.2.1) 0
  let sbb := own.foldl (fun (a : Int) x => a + x.1 * x.1) 0
  let sby := own.foldl (fun (a : Int) x => a + x.1 * x.2.1) 0
  let den := k * sbb - sb * sb
  let sNum := k * sby - sb * sy
  -- offset and start delay, never for the reference station
  let s := if n = 0 ∨ st = ref then s
    else
      let ey := errs.foldl (fun (a : Int) x => a + x.2.1) 0
      let ex := errs.foldl (fun (a : Int) x => a + x.2.2) 0
      (s.addTarget side st 0 0 (v.ofs - roundDiv ey (4 * n)) (roundDiv ey n)).addTarget side st 3 0 (v.sol - roundDiv (16 * ex) n) (roundDiv ex n)
  -- skew and bow
  let s := if den = 0 then s
    else
      let s := s.addTarget side st 1 0 (v.slope - roundDiv (sNum * 4096) (den * 375)) (roundDiv sNum den)
      own.foldl (fun s x =>
        -- residual of the band after the line through the measured bands, over k × den
        let r := x.2.1 * k * den - (sy * den - sNum * sb) - sNum * x.1 * k
        (List.range 94).foldl (fun s j =>
          let g := 94 * x.1.toNat + j
          if 750 ≤ g then s
          else
            let cur := sgn 4 (bits (v.bow.getD (g / 8) 0).toNat (4 * (g % 8)) 4)
            s.addTarget side st 2 g (cur - roundDiv r (4 * k * den)) (roundDiv r (k * den))) s) s
  -- facet delays
  let s := match meanOf (own.map (fun x => x.2.2)) with
    | none => s
    | some mean => (List.range 8).foldl (fun s f => match m.facet.getD f none with
      | some d => s.addTarget side st 4 f (v.dly.getD f 0 - 16 * (d - mean)) (d - mean)
      | none => s) s
  -- emitter currents and neighbour fill
  match m.den with
  | none => s
  | some d =>
    let s := (List.range 64).foldl (fun s l => match m.phase.getD (l / 4) none with
      | some ph => s.addTarget side st 5 (v.win + l) (v.adj.getD (v.win + l) 0 + d + ph) (d + ph)
      | none => s) s
    let filled := (List.range 64).filter (fun l => bit v.dead (v.win + l) && liveNeighbours v.dead v.win (v.win + l) = 2)
    match meanOf ((filled.map (fun l => l / 4)).eraseDups.filterMap (fun j => m.phase.getD j none)) with
    | none => s
    | some e => (List.range 15).foldl (fun s i => s.addTarget side st 6 (i + 1) (v.fill.getD (i + 1) 0 + roundDiv e 50) e) s

/-- R430: an emitter behind a MISSING_LINE that stands on AVG consecutive inspected pages is marked dead: of the live emitters of its lines in the window,
the one whose last valid monitor value was lowest. -/
def State.markStanding (s : State) (y : InsPage) (ds : List Defect) : State :=
  let side := y.side
  let n := max 1 (s.f (INS_CORR.AVG side))
  let now := (ds.filter (fun d => d.code = 4)).map (fun d =>
    (d.station, (y.lights.filter (fun x => x.who = d.station && x.first = d.row * 4 / 64)).map (fun x => x.at')))
  let old := s.ins.standing.filter (fun x => x.1 = side)
  let keep := now.map (fun x =>
    let before := (old.find? (fun o => o.2.1 = x.1 && o.2.2.1 = x.2)).map (fun o => o.2.2.2)
    (side, x.1, x.2, before.getD 0 + 1))
  let s := { s with ins := { s.ins with standing := s.ins.standing.filter (fun x => x.1 ≠ side) ++ keep } }
  if !bit (s.f (INS_CORR.EN side)) 7 then s
  else (keep.filter (fun x => n ≤ x.2.2.2)).foldl (fun s x =>
    let st := x.2.1
    let w := s.f (EXP_WIN.WORK st)
    let mon := fun (e : Nat) => (s.expSt st).mon.get? e
    let live := (x.2.2.1.map (· + w)).filter (fun e => !bit (s.dead st) e && (mon e).isSome)
    let worst := live.foldl (fun (a : Option Nat) e => match a with
      | none => some e
      | some b => if (mon e).getD 0 < (mon b).getD 0 then some e else some b) none
    match worst with
    | some e => ((s.setDead st (setBit (s.dead st) e true)).expReport 1 0x10 st e).deadChanged st
    | none => s) s

/-- A corrected item: register offset's field, lowest and highest value, step, deadband (R427, R428). -/
structure CorrItem where
  fld  : Fld
  signed : Bool
  lo   : Int
  hi   : Int
  step : Nat
  db   : Nat
  deriving DecidableEq, Repr

/-- The items of R427 as register fields. -/
def State.corrItem (s : State) (side st item i : Nat) : Option CorrItem :=
  let reg := s.f (INS_CORR_DB.REG side)
  let tap := s.f (INS_CORR_DB.TAP side)
  let den := s.f (INS_CORR_DB.DEN side)
  match item with
  | 0 => some ⟨SCN_OFS.LINES st, false, 0, 4194303, 1, reg⟩
  | 1 => some ⟨SCN_SKEW.SLOPE st, true, -2048, 2047, 5, reg⟩
  | 2 => if i < 750 then some ⟨⟨SCN_BOW.word st (i / 8), 4 * (i % 8), 4⟩, true, -8, 7, 1, reg⟩ else none
  | 3 => some ⟨SCN_SOL.TAPS st, false, 0, 1048575, 1, tap⟩
  | 4 => if i < 8 then some ⟨SCN_FACET_DLY.TAPS st i, true, -4096, 4095, 1, tap⟩ else none
  | 5 => if i < 72 then some ⟨EXP_CUR_ADJ.ADJ st i, true, -500, 500, 10, den⟩ else none
  | 6 => if 1 ≤ i ∧ i < 16 then some ⟨⟨EXP_FILL.word st (i / 8), 4 * (i % 8), 4⟩, false, 0, 15, 1, den⟩ else none
  | _ => none

/-- The target in force of an item and the error it comes from: a committed sweep's target, else the means of the last AVG (R428, R437). -/
def State.targetOf (s : State) (side st item i : Nat) : Option (Int × Int) :=
  let k := corrKey side st item i
  match s.ins.swept.get? k with
  | some t => some (t, 32767)
  | none =>
    let l := s.ins.targets.getD [] k
    match meanOf (l.map (fun x => x.1)), meanOf (l.map (fun x => x.2)) with
    | some t, some e => some (t, e)
    | _, _ => none

/-- Would any off(g) of the shadow tables be clamped (R429)? -/
def State.wouldClamp (s : State) (st : Nat) : Bool :=
  (List.range 750).any (fun g =>
    let o : Int := s.f (SCN_SKEW.BASE st) + (s.fi (SCN_SKEW.SLOPE st) * (g : Int) + 2048) / 4096 + sgn 4 (bits (s.word (SCN_BOW.word st (g / 8))).toNat (4 * (g % 8)) 4)
    decide (o < 0 ∨ 15 < o))

/-- One step of one item at a station's page gap (R427 to R429): a software write since the last gap stands, and the averaged targets go (R35). -/
def State.corrStep (s : State) (side st item i : Nat) : State :=
  match s.corrItem side st item i, s.targetOf side st item i with
  | some c, some (t, e) =>
    let cur : Int := if c.signed then s.fi c.fld else s.f c.fld
    let t := clamp c.lo c.hi t
    let k := corrKey side st item i
    let held := fun (s : State) => s.satInc (INS_CORR_CNT.HELD side)
    let due := decide (t ≠ cur ∧ c.db < e.natAbs)
    if s.ins.touched.contains c.fld.off then
      let s := { s with ins := { s.ins with targets := s.ins.targets.erase k, swept := s.ins.swept.erase k } }
      if due then held s else s
    else if t = cur then { s with ins := { s.ins with swept := s.ins.swept.erase k } }
    else if !due then s
    else
      let v := cur + clamp (-(c.step : Int)) c.step (t - cur)
      if v < c.lo ∨ c.hi < v then held s
      else
        let s1 := s.hwF c.fld (unsgn c.fld.w v)
        if (item = 1 ∨ item = 2) ∧ s1.wouldClamp st then held s
        else
          let s1 := if item = 0 then s1.askMove st else s1
          s1.satInc (INS_CORR_CNT.STEPS side)
  | _, _ => s

/-- Every step of a station's page gap; the software writes since its last gap are then forgotten (R427, R429). -/
def State.corrGap (s : State) (st : Nat) : State :=
  let side := s.wf (SCN_ROUTE.SIDE st)
  let en := s.f (INS_CORR.EN side)
  let counts := [(0, 1), (1, 1), (2, 750), (3, 1), (4, 8), (5, 72), (6, 16)]
  let ref := s.f (INS_CORR.REF_ST side)
  let s := counts.foldl (fun s x =>
    if !bit en x.1 || ((x.1 = 0 || x.1 = 3) && (st = ref || s.ins.sweepSide = some side)) then s
    else (List.range x.2).foldl (fun s i => s.corrStep side st x.1 i) s) s
  let mine := fun (off : Nat) => decide (0xC10000 + st * 0x1000 ≤ off ∧ off < 0xC11000 + st * 0x1000) || decide (0x1010000 + st * 0x1000 ≤ off ∧ off < 0x1011000 + st * 0x1000)
  { s with ins := { s.ins with touched := s.ins.touched.filter (fun o => !mine o) } }

end Sys2Proof.Machine
end

