-- ==== Sys2Proof/Machine/Siphon.lean ====
section
/-! DEFINITION. The meanings of the Siphon commands (spec/04). -/
namespace Sys2Proof.Machine

/-- Give a waiting device-driven descriptor to a channel that now serves its role (R144, R149). -/
def State.moveJob (s : State) (role fn : Nat) (j : SipJob × SipDesc) : State := s.pushJob role fn (if role = 1 then fn else if role = 2 then 18 else 19) j.1 j.2

/-- CH_ASSIGN_WRITE (R144, R145, R17): owner and role change only on a DISABLED channel, or on an idle device-driven one; COMPOSE and SPOOL only for
the PF. A refused write sets ASSIGN_REFUSED; one that changes nothing is no change. Descriptors that wait on the channel go to another of their role. -/
def execChAssignWrite (ch : Nat) (value : BitVec 32) (s : State) : Ans :=
  if 64 ≤ ch then .next s
  else if s.poweredDown (SIP_CH_ASSIGN.word ch) then .next (s.darkWrite (SIP_CH_ASSIGN.word ch) value.toNat)
  else if value &&& 0x003F3F3F#32 = s.word (SIP_CH_ASSIGN.word ch) then .next s
  else
    let free := s.chState ch = chDISABLED || (s.chRole ch ≠ 0 && s.chState ch = chIDLE)
    let role := getField value 4 2
    let fn := getField value 0 4
    if free && !(2 ≤ role && fn ≠ 0) then
      let old := (s.chRole ch, s.chOwner ch)
      let jobs := (s.chan ch).todo
      let s := s.setWord (SIP_CH_ASSIGN.word ch) (value &&& 0x003F3F3F#32)
      let s := (s.setB (SIP_CH_CTRL.ENABLE ch) (role ≠ 0)).setChan ch {}
      let s := s.setCh ch (if role = 0 then chDISABLED else chIDLE)
      .next (jobs.foldl (fun s j => s.moveJob old.1 old.2 j) s).endEngineShort
    else .next (s.raise SIP_STATUS.ASSIGN_REFUSED)

/-- FN_WIN_WRITE (R151): a VF's DRAM window, only while every channel it owns is DISABLED or IDLE. A write of a window that lies partly outside the free
pool is ignored too, with WIN_REFUSED (DESIGN CHOICE, unsafe: R151 speaks of a window that lies so; assumption log 20). -/
def execFnWinWrite (fn : Nat) (value : BitVec 32) (s : State) : Ans :=
  if fn = 0 ∨ 16 ≤ fn then .next s
  else if s.poweredDown (SIP_FN_WIN.word fn) then .next (s.darkWrite (SIP_FN_WIN.word fn) value.toNat)
  else
    let quiet := (List.range 64).all (fun ch => s.chOwner ch ≠ fn || decide (s.chState ch ≤ chIDLE))
    let a := getField value 0 12 * 64 * MiB
    let n := getField value 16 12 * 64 * MiB
    if quiet && (n = 0 || (decide (s.freeBase ≤ a) && decide (a + n ≤ s.dramEnd))) then
      .next (s.setWord (SIP_FN_WIN.word fn) (value &&& 0x0FFF0FFF#32))
    else .next (s.raise SIP_STATUS.WIN_REFUSED)

/-- CH_ENABLE (R160): ring pointers 0 and IDLE, or refused where the role is not HOST or LOG2 lies outside 4 to 12. Where the role is not HOST, whose ENABLE
reads 1, a write of 1 is refused with CTRL_REFUSED as R160 says and changes nothing, as the register table says (assumption log 20). -/
def execChEnable (ch : Nat) (s : State) : Ans :=
  if ch < 64 ∧ s.poweredDown (SIP_CH_CTRL.word ch) then .next (s.darkWrite (SIP_CH_CTRL.word ch) 1)
  else if 64 ≤ ch ∨ (s.chRole ch = 0 ∧ s.b (SIP_CH_CTRL.ENABLE ch)) then .next s
  else
    let l := s.f (SIP_CH_RING_SIZE.LOG2 ch)
    if s.chRole ch = 0 ∧ 4 ≤ l ∧ l ≤ 12 then
      let s := ((s.setF (SIP_CH_HEAD.HEAD ch) 0).setF (SIP_CH_TAIL.TAIL ch) 0).setF (SIP_CH_CTRL.ENABLE ch) 1
      .next ((s.setChan ch {}).setCh ch chIDLE)
    else .next (s.raise (SIP_CH_STATE.CTRL_REFUSED ch))

/-- CH_DISABLE (R163): only an IDLE or STOPPED channel; entries left, and one that is being read, are abandoned without status. -/
def execChDisable (ch : Nat) (s : State) : Ans :=
  if ch < 64 ∧ s.poweredDown (SIP_CH_CTRL.word ch) then .next (s.darkWrite (SIP_CH_CTRL.word ch) 0)
  else if 64 ≤ ch ∨ s.chRole ch ≠ 0 ∨ ¬ s.b (SIP_CH_CTRL.ENABLE ch) then .next s
  else if s.chState ch = chACTIVE then .next (s.raise (SIP_CH_STATE.CTRL_REFUSED ch))
  else .next (((s.setF (SIP_CH_CTRL.ENABLE ch) 0).setF (SIP_CH_TAIL.TAIL ch) 0 |>.setChan ch {}).setCh ch chDISABLED)

/-- Stop a channel with RING_ERROR at once (R161). -/
def State.ringError (s : State) (ch : Nat) : State :=
  (((s.setF (SIP_CH_STATE.LAST_CODE ch) 0x15).wrapInc (SIP_CH_ERR_CNT.COUNT ch)).setCh ch chSTOPPED |>.chIrq ch).report 0x02 0 0x15 (s.sipParam ch)

/-- CH_DOORBELL (R161): the tail is taken; a value out of range, or one that moves back past entries not yet fetched, stops the channel: an ACTIVE one, whose
entry at HEAD has been fetched, after the descriptor in hand; an IDLE one at once. -/
def execChDoorbell (ch tail : Nat) (s : State) : Ans :=
  if ch < 64 ∧ s.poweredDown (SIP_CH_TAIL.word ch) then .next (s.darkWrite (SIP_CH_TAIL.word ch) tail)
  else if 64 ≤ ch ∨ s.chRole ch ≠ 0 ∨ s.chState ch = chDISABLED then .next s
  else
    let slots := 2 ^ s.f (SIP_CH_RING_SIZE.LOG2 ch)
    let base := s.f (SIP_CH_HEAD.HEAD ch) + if s.chState ch = chACTIVE then 1 else 0
    let left := (s.f (SIP_CH_TAIL.TAIL ch) + 2 * slots - base) % slots
    let bad := decide (slots ≤ tail) || decide ((tail + 2 * slots - base) % slots < left)
    if bad && s.chState ch ≠ chSTOPPED then
      if s.chState ch = chACTIVE then .next (s.setChan ch { s.chan ch with ringErr := true })
      else .next ((s.setChan ch { s.chan ch with fetching := false }).ringError ch)
    else if bad then .next s
    else .next (s.setF (SIP_CH_TAIL.TAIL ch) tail)

/-- CH_RESUME (R173): a STOPPED HOST channel returns to IDLE, unless a C3 or C4 is in progress; other roles refuse it (R171). -/
def execChResume (ch : Nat) (s : State) : Ans :=
  if ch < 64 ∧ s.poweredDown (SIP_CH_CTRL.word ch) then .next (s.darkWrite (SIP_CH_CTRL.word ch) 4)
  else if 64 ≤ ch then .next s
  else if s.chRole ch ≠ 0 then .next (s.raise (SIP_CH_STATE.CTRL_REFUSED ch))
  else if s.chState ch = chSTOPPED ∧ ¬ s.stopActive then .next (s.setCh ch chIDLE)
  else .next s

/-- CH_ABORT (R171, R172): an ACTIVE HOST channel ends its descriptor ABORTED with the residue, or, where its last burst has completed, with OK and
ABORT_LATE. Written with RESUME, ABORT wins. -/
def execChAbort (ch : Nat) (resume : Bool) (s : State) : Ans :=
  if ch < 64 ∧ s.poweredDown (SIP_CH_CTRL.word ch) then .next (s.darkWrite (SIP_CH_CTRL.word ch) (2 + if resume then 4 else 0))
  else if 64 ≤ ch then .next s
  else if s.chRole ch ≠ 0 then .next (s.raise (SIP_CH_STATE.CTRL_REFUSED ch))
  else
    let c := s.chan ch
    match c.xfer with
    | some x =>
      if s.chState ch ≠ chACTIVE then .next s
      else match x.code with
        | none => .next (s.setChan ch { c with xfer := some { x with code := some 0x01 } })
        | some 0 => .next (s.setChan ch { c with xfer := some { x with abortLate := true } })
        | some _ => .next s
    | none => .next s

/-- Non-posted requests that Siphon has outstanding to the host: descriptor reads and zero-length reads; a burst's reads end with it. At most 512 (R170). -/
def State.hostRequests (s : State) : Nat :=
  ((List.range 64).filter (fun ch => (s.chan ch).fetching || (s.chan ch).xfer.any (fun x => x.barrierWait && x.desc.dstSpace = spHOST))).length

/-- CH_DESCRIPTOR_FETCH (R162): an IDLE HOST channel whose tail differs from its head reads the entry at its head. -/
def execChDescriptorFetch (ch : Nat) (s : State) : Ans :=
  if 64 ≤ ch ∨ s.chRole ch ≠ 0 ∨ s.chState ch ≠ chIDLE ∨ (s.chan ch).fetching ∨ s.sip.off ∨ 512 ≤ s.hostRequests ∨
      s.f (SIP_CH_TAIL.TAIL ch) = s.f (SIP_CH_HEAD.HEAD ch) then .next s
  else .next (s.setChan ch { s.chan ch with fetching := true })

/-- May an extent of a page's copy be read back: it is written, or no longer to be had (R130)? -/
def State.stageReady (s : State) (key e : Nat) : Bool :=
  match s.copy? key with
  | none => true
  | some c => c.stage = .incomplete || ((c.heads[e]?).isSome && !s.spl.cmds.any (fun x => x.op = .writeExtent key e))

/-- Ask for what the descriptor in hand on a channel needs of the spool. -/
def State.fetchReads (s : State) (ch : Nat) : State :=
  match ((s.chan ch).xfer).bind (fun x => x.job) with
  | some (.stage key e) => if s.stageReady key e then s.readAhead ch else s
  | _ => s.readAhead ch

/-- CH_DESCRIPTOR (R153, R154, R150 to R152, R179): a fetched descriptor arrives, or its read failed, or a device-driven channel takes its next one;
it begins its transfer, or is to complete with the code of the check it fails. -/
def execChDescriptor (ch : Nat) (desc : Option (List (BitVec 8))) (s : State) : Ans :=
  if 64 ≤ ch ∨ s.sip.off then .next s
  else
    let c := s.chan ch
    if s.chRole ch = 0 then
      if !c.fetching || s.chState ch ≠ chIDLE then .next s
      else
        let x : SipXfer := match desc with
          | none => { code := some 0x20 }
          | some b =>
            let d := parseSip b
            let k := s.sipCheck ch d
            if k ≠ 0 then { desc := d, code := some k }
            else if d.dstSpace = spSPOOL ∧ s.splRefused then { desc := d, code := some 0x32 }
            else { desc := d, started := true }
        .next (((s.setChan ch { c with fetching := false, xfer := some x }).setCh ch chACTIVE).fetchReads ch)
    else match c.todo with
      | (j, d) :: t =>
        if c.xfer.isSome || s.sip.held then .next s
        else .next (((s.setChan ch { c with todo := t, xfer := some { desc := d, job := some j, started := true } }).setCh ch chACTIVE).fetchReads ch)
      | [] => .next s

/-- Write the units of a FIXED destination in turn: the last unit stands, a short one in its first bytes (R156). -/
def State.writeFixed (s : State) (fn : Nat) (d : SipDesc) (bs : List Byte) : Nat → State
  | 0 => s
  | n + 1 => if bs.isEmpty then s else (s.writeData fn d d.dst (bs.take d.elem)).writeFixed fn d (bs.drop d.elem) n

/-- Put destination bytes where the descriptor's mode and progress say (R155, R156). A write to the spool allocates each direct extent it begins,
invalidates the tiles that lie in it (R256) and seals it when its 64 KiB are there; answers false where an extent cannot be allocated (R188) or writes have
come to be refused (R204). -/
def State.deliver (s : State) (ch : Nat) (d : SipDesc) (done : Nat) (bs : List Byte) : State × Bool :=
  let fn := s.chOwner ch
  if d.dstSpace = spSPOOL then
    let a := d.dst + done
    let ext := a / 65536
    if s.splRefused then (s, false)
    else
      let s := if a % 65536 = 0 then s.invalidateTiles fn ext else s
      match s.allocDirect fn ext with
      | none => ((s.raise (SPL_SL_STATUS.QUOTA_HIT fn)).sliceVector fn, false)
      | some s =>
        let s := s.writeSpace fn spSPOOL a bs
        (if (a + bs.length) % 65536 = 0 then (s.sealDirect fn ext).reloadTiles fn else s, true)
  else if d.dstMode = 1 then (s.writeFixed fn d bs bs.length, true)
  else (s.writeData fn d (d.dst + done) bs, true)

/-- The offsets of the elements that a burst moves: from the host as read, or from DRAM (R157). -/
def State.burstOffsets (s : State) (ch : Nat) (x : SipXfer) (n : Nat) (offs : List (BitVec 32)) : List Nat :=
  if x.desc.idxSpace = spHOST then (offs.take n).map BitVec.toNat
  else (List.range n).map (fun i => leNat (s.readSpace (s.chOwner ch) spDRAM (x.desc.idx + 4 * (x.moved + i)) 4))

/-- The bytes of a gathered burst, element by element: a null offset gives zeros, a bad one ends the gather (R157). Host data is consumed in order. -/
def State.gather (s : State) (ch : Nat) (d : SipDesc) : List Nat → List Byte → List Byte × Nat × Bool
  | [], _ => ([], 0, true)
  | o :: t, data =>
    let fn := s.chOwner ch
    if o = 0xFFFFFFFF then
      let r := s.gather ch d t data
      (List.replicate d.elem 0 ++ r.1, r.2.1 + 1, r.2.2)
    else if o % 4 ≠ 0 ∨ s.spanCode ch fn d.srcSpace (d.src + o) d.elem false ≠ 0 then ([], 0, false)
    else if d.srcSpace = spHOST then
      let r := s.gather ch d t (data.drop d.elem)
      ((data ++ List.replicate d.elem 0).take d.elem ++ r.1, r.2.1 + 1, r.2.2)
    else
      let r := s.gather ch d t data
      (s.readSpace fn d.srcSpace (d.src + o) d.elem ++ r.1, r.2.1 + 1, r.2.2)

/-- Count destination bytes moved (SIP_CH_BYTES). -/
def State.countBytes (s : State) (ch n : Nat) : State :=
  s.set64 (SIP_CH_BYTES_LO.word ch) ((s.get64 (SIP_CH_BYTES_LO.word ch) + n) % 2 ^ 64)

/-- Bytes of a descriptor's spool source, from the extents read and verified (R198). -/
def SipXfer.readBytes (x : SipXfer) (a n : Nat) : List Byte :=
  (List.range n).map (fun i => (((x.reads.find? (fun r => r.ext = (a + i) / 65536)).map (fun r => r.data)).getD []).getD ((a + i) % 65536) 0)

/-- The address last written when `moved` destination bytes are: in FIXED mode that of the last unit's last byte (R156, R165). -/
def SipDesc.lastAt (d : SipDesc) (moved : Nat) : Nat :=
  if d.dstMode = 1 then d.dst + (if moved % d.elem = 0 then d.elem else moved % d.elem) - 1 else d.dst + moved - 1

/-- One burst of a HOST channel's descriptor (R155 to R159, R178). -/
def State.hostBurst (s : State) (ch : Nat) (x : SipXfer) (data : List Byte) (offs : List (BitVec 32)) (fail : Nat) : State :=
  let d := x.desc
  let fn := s.chOwner ch
  let put := fun (s : State) (x : SipXfer) => s.setChan ch { s.chan ch with xfer := some x }
  if d.srcMode = 2 then
    let n := min (4096 / d.elem) (d.count - x.moved)
    let os := s.burstOffsets ch x n offs
    let os := if fail = 0x22 then os.take (offs.length) else if fail = 0 then os else []
    let r := s.gather ch d os data
    let w := s.deliver ch d (x.moved * d.elem) r.1
    let moved := x.moved + r.2.1
    let code := if ¬ w.2 then some 0x32 else if ¬ r.2.2 then some 0x14 else if fail ≠ 0 then some fail
                else if moved = d.count then some 0 else none
    put (w.1.countBytes ch r.1.length) { x with moved := moved, lastDst := d.lastAt (moved * d.elem), code := code }
  else
    let unit := if d.srcMode = 1 ∨ d.dstMode = 1 then d.elem * (4096 / d.elem) else 4096
    let n := min unit (d.count - x.moved)
    if fail ≠ 0 then put s { x with code := some fail }
    else
      let pat := x.pattern.getD (if d.srcSpace = spHOST then (data ++ List.replicate d.elem 0).take d.elem else s.readSpace fn d.srcSpace d.src d.elem)
      let bs :=
        if d.srcMode = 1 then (List.range (n / d.elem)).flatMap (fun _ => pat)
        else if d.srcSpace = spHOST then (data ++ List.replicate n 0).take n
        else if d.srcSpace = spSPOOL then x.readBytes (d.src + x.moved) n
        else s.readSpace fn d.srcSpace (d.src + x.moved) n
      let x := if d.srcMode = 1 then { x with pattern := some pat } else x
      let w := s.deliver ch d x.moved bs
      if ¬ w.2 then put w.1 { x with code := some 0x32 }
      else
        let moved := x.moved + n
        put (w.1.countBytes ch n) { x with moved := moved, lastDst := d.lastAt moved, code := if moved = d.count then some 0 else none }

/-- Bytes of a stream land in its ring (R167). -/
def State.landStream (s : State) (page st : Nat) (bs : List Byte) : State :=
  let s := { s with flm := { s.flm with landed := s.flm.landed.set 0 st (s.flm.landed.getD 0 st + bs.length) } }
  { s with pages := { s.pages with streams := s.pages.streams.map (fun z =>
      if z.page = page && z.st = st then { z with data := z.data ++ bs } else z) } }

/-- A stream's transfer is abandoned: what is missing stays missing (R179). -/
def State.killStream (s : State) (page st : Nat) : State :=
  { s with pages := { s.pages with streams := s.pages.streams.map (fun z =>
      if z.page = page && z.st = st then { z with dead := true } else z) } }

/-- The page's copy that a REISSUE stream comes from, and the stream's first byte in it (R189). -/
def State.reissueAt (s : State) (page st : Nat) : Option (Copy × Nat) :=
  (s.page? page).bind (fun p => (s.findCopy p.fn p.desc.pageId).bind (fun c =>
    if c.stage = .incomplete then none
    else
      let k := ((stationList p.desc.stations).takeWhile (fun u => u ≠ st)).length
      some (c, 64 + c.desc.srcLen + (c.src.take k).foldl (fun a e => a + e.len) 0)))

/-- Are the bytes of a REISSUE stream's next burst in the staging region (R198)? A copy that is gone or incomplete lets the descriptor end. -/
def State.reissueReady (s : State) (x : SipXfer) (page st : Nat) : Bool :=
  match s.reissueAt page st with
  | none => true
  | some (c, b) =>
    let n := min 4096 (x.desc.count - x.moved)
    c.staged.contains ((b + x.moved) / 65536) && c.staged.contains ((b + x.moved + n - 1) / 65536)

/-- One burst of a device-driven descriptor: a station stream from the host (with the page's copy taking the same bytes, R190), the same stream from a
spooled copy (R130, R205), an extent of a copy on its way back, a tile's load, or a composer's copy. -/
def State.jobBurst (s : State) (ch : Nat) (x : SipXfer) (j : SipJob) (data : List Byte) (fail : Nat) : State :=
  let n := min 4096 (x.desc.count - x.moved)
  let moved := x.moved + n
  let put := fun (s : State) (x : SipXfer) => s.setChan ch { s.chan ch with xfer := some x }
  let ok : SipXfer := { x with moved := moved, code := if moved = x.desc.count then some 0 else none }
  let spoil := fun (s : State) (page st : Nat) =>
    if fail = 0x30 then s.spoilPage page 0x07 0x02 (s.sipParam ch) st none (some 0x30) else s
  match j with
  | .ingest page st =>
    if fail ≠ 0 then put (spoil (s.killStream page st) page st) { x with code := some fail }
    else
      let bs := (data ++ List.replicate n 0).take n
      let copy := (s.streamOf page st).bind (fun z => z.copy)
      let s := s.landStream page st bs
      let s := match copy with
        | some key => s.copyLand key st bs
        | none => s
      put (s.countBytes ch n) ok
  | .reissue page st =>
    match s.reissueAt page st with
    | none => put (s.killStream page st) { x with code := some 0x31 }
    | some (c, b) =>
      if fail ≠ 0 then put (spoil (s.killStream page st) page st) { x with code := some fail }
      else
        put ((s.landStream page st (((c.content.drop (b + x.moved)) ++ List.replicate n 0).take n)).countBytes ch n) ok
  | .stage key e =>
    if fail ≠ 0 then put s { x with code := some fail }
    else
      let s := if moved = x.desc.count then s.modCopy key (fun c => { c with staged := c.staged ++ [e] }) else s
      put (s.countBytes ch n) ok
  | .tileLoad fn tile =>
    if fail ≠ 0 then put (s.modTile fn tile (fun t => { t with err := some fail })) { x with code := some fail }
    else match s.stored fn tile with
      | none => put s { x with code := some 0 }
      | some t =>
        let s := { s with dram := s.dram.putBytes (s.tileAddr t x.moved) (x.readBytes (x.desc.src + x.moved) n) }
        put ((s.modTile fn tile (fun t => { t with got := moved })).countBytes ch n) ok
  | .compose flume => (s.fillBurst ch x flume fail).countBytes ch (if fail = 0 then n else 0)
  | .pin entry => (s.pinBurst ch x entry fail).countBytes ch (if fail = 0 then n else 0)

/-! ## The arbiter (R170) -/

/-- Is a channel ready for a burst: it is ACTIVE with data to move, what it needs of the spool or the staging region is there, and a raster ring it fills has
room (R411)? -/
def State.wantsBurst (s : State) (ch : Nat) : Bool :=
  s.chState ch = chACTIVE && !s.sip.off && match (s.chan ch).xfer with
    | none => false
    | some x =>
      x.started && x.code.isNone && x.hasReads &&
      let n := min 4096 (x.desc.count - x.moved)
      let room := fun (st : Nat) => decide ((s.ringRoom st n 8192).ringHeld st + n ≤ s.boot.ring * 1048576)
      match x.job with
      | some (.ingest _ st) => room st
      | some (.reissue page st) => room st && s.reissueReady x page st
      | some (.stage key e) => s.stageReady key e
      | _ => true

/-- The channel that a level serves next, round robin with WEIGHT bursts per turn, and what its turn has left then. -/
def State.nextTurn (s : State) (chs : List Nat) (last left : Nat) : Option (Nat × Nat) :=
  if left ≠ 0 ∧ chs.contains last then some (last, left - 1)
  else (((chs.filter (fun c => last < c)).head?).orElse (fun _ => chs.head?)).map (fun c => (c, max 1 (s.f (SIP_CH_ASSIGN.WEIGHT c)) - 1))

/-- Must this grant go to the low level, for it to keep LOW_SHARE percent of any 256 grants while a HOST channel waits? -/
def State.lowDue (s : State) : Bool :=
  let share := s.f SIP_CTRL.LOW_SHARE
  decide (share ≠ 0 ∧ 256 / ((256 * share + 99) / 100) ≤ s.sip.sinceLow + 1)

/-- The arbiter's next grant: the channel, and the arbiter's state after it. -/
def State.grant (s : State) : Option (Nat × Sip) :=
  let want := (List.range 64).filter s.wantsBurst
  let low := want.filter (fun c => s.chRole c = 0)
  let high := want.filter (fun c => s.chRole c ≠ 0)
  let giveLow := match s.nextTurn low s.sip.loLast s.sip.loLeft with
    | some r => some (r.1, { s.sip with loLast := r.1, loLeft := r.2, sinceLow := 0 })
    | none => none
  if s.lowDue && !low.isEmpty then giveLow
  else match s.nextTurn high s.sip.hiLast s.sip.hiLeft with
    | some r => some (r.1, { s.sip with hiLast := r.1, hiLeft := r.2, sinceLow := if low.isEmpty then 0 else s.sip.sinceLow + 1 })
    | none => giveLow

/-- SIP_BURST (R159, R167, R170): the arbiter grants one burst of at most 4,096 destination bytes. The command names the channel that the grant falls to, and
has no effect where it falls to another; `data` and `offs` are what the host answers, `fail` the error code a read or write met (0 for none). A full raster
ring takes no burst (R411). -/
def execSipBurst (ch : Nat) (data : List (BitVec 8)) (offs : List (BitVec 32)) (fail : Nat) (s : State) : Ans :=
  match s.grant, (s.chan ch).xfer with
  | some (c, sip), some x =>
    if c ≠ ch then .next s
    else
      let n := min 4096 (x.desc.count - x.moved)
      let s := { s with sip := sip }
      let s := match x.job with
        | some (.ingest _ st) => s.ringRoom st n 8192
        | some (.reissue _ st) => s.ringRoom st n 8192
        | _ => s
      .next ((match x.job with
        | none => s.hostBurst ch x data offs fail
        | some j => s.jobBurst ch x j data fail).fetchReads ch)
  | _, _ => .next s

/-- Are all the function's direct-extent writes completed (R165, SPOOL)? -/
def State.directSettled (s : State) (fn : Nat) : Bool := !s.spl.direct.any (fun d => d.fn = fn && d.inFlight)

/-- The drives that hold the direct extents a descriptor has written (R165). -/
def State.writtenDrives (s : State) (fn : Nat) (x : SipXfer) : BitVec 4 :=
  let a := x.desc.dst / 65536
  let b := (x.desc.dst + x.moved + 65535) / 65536
  (s.spl.direct.filter (fun d => d.fn = fn && decide (a ≤ d.ext ∧ d.ext < b))).foldl (fun m d => m ||| (d.head.map (fun h => h.drives)).getD 0) 0

/-- A descriptor that ends within a spool extent: what stands of the extent is sealed (DESIGN CHOICE, unsafe: the spec does not say what becomes of an extent
that is written in part; assumption log 52). -/
def State.sealPart (s : State) (fn : Nat) (x : SipXfer) : State :=
  let e := (x.desc.dst + x.moved) / 65536
  if x.job.isNone && x.desc.dstSpace = spSPOOL && x.moved % 65536 ≠ 0 && s.spl.direct.any (fun d => d.fn = fn && d.ext = e && d.inFlight && !d.waits) &&
      !s.spl.cmds.any (fun c => c.op = .writeDirect fn e) then (s.sealDirect fn e).reloadTiles fn else s

/-- DESCRIPTOR_COMPLETE (R164, R165, R177, R178): a descriptor that has its code meets its barrier, writes its status word and raises its interrupt.
Toward the host the barrier issues a zero-length read and waits; toward the spool it waits for the extent writes and a Flush of each drive written. -/
def execDescriptorComplete (ch : Nat) (s : State) : Ans :=
  if 64 ≤ ch then .next s
  else
    match (s.chan ch).xfer with
    | none => .next s
    | some x =>
      match x.code with
      | none => .next s
      | some code =>
        let s := s.sealPart (s.chOwner ch) x
        let c := s.chan ch
        if x.barrierWait then .next s
        else if x.desc.flags.getLsbD 0 && x.started && !x.barrierMet && x.moved ≠ 0 && x.job.isNone then
          if x.desc.dstSpace = spHOST then
            if 512 ≤ s.hostRequests then .next s
            else .next ((s.setChan ch { c with xfer := some { x with barrierWait := true } }).emit
              (.hostZeroRead (s.chOwner ch) (BitVec.ofNat 64 x.lastDst)))
          else if x.desc.dstSpace = spSPOOL then
            if !s.directSettled (s.chOwner ch) then .next s
            else
              let ds := s.drivesOf (s.writtenDrives (s.chOwner ch) x)
              if ds.isEmpty then .next (s.finishDesc ch { x with barrierMet := true } code)
              else .next ((s.setChan ch { c with xfer := some { x with barrierWait := true } }).issueAll ds (.barrierFlush ch))
          else .next (s.finishDesc ch { x with barrierMet := true } code)
        else .next (s.finishDesc ch x code)

/-- BARRIER_READ_COMPLETE (R165): the zero-length read answers and the descriptor completes with BARRIER_MET, or fails and it completes with
HOST_READ_ERROR. -/
def execBarrierReadComplete (ch : Nat) (ok : Bool) (s : State) : Ans :=
  if 64 ≤ ch then .next s
  else match (s.chan ch).xfer with
    | some x =>
      if !x.barrierWait || x.desc.dstSpace ≠ spHOST then .next s
      else if ok then .next (s.finishDesc ch { x with barrierMet := true, barrierWait := false } (x.code.getD 0))
      else .next (s.finishDesc ch { x with barrierWait := false, abortLate := false } 0x21)
    | none => .next s

end Sys2Proof.Machine
end

