-- ==== Sys2Proof/Machine/Spool.lean ====
section
/-! DEFINITION. The meanings of the spool commands (spec/05). -/
namespace Sys2Proof.Machine

/-! ## Epochs (R199 to R203) -/

/-- Start an epoch (R199 to R202): J is one more than the last valid journal record's low part; with no such record, or at 2^20, the next thermometer bit is
burned and J is 0. All bits burned ends it for good. A salt is drawn, the journal record is appended with its MAC and read back; the write counter starts at 0. -/
def State.startEpoch (s : State) (journalOk burnOk : Bool) : State :=
  let b := s.thermo rowsEpoch 64
  let j := s.journalLow.map (· + 1)
  let burn := j.isNone || j = some 1048576
  let failed : State := { s with spl := { s.spl with epochOk := false, journalOk := false } }
  if burn && decide (2048 ≤ b) then { failed with spl := { failed.spl with exhausted := true } }
  else if burn && !burnOk then failed
  else
    let b := if burn then b + 1 else b
    let j := if burn then 0 else j.getD 0
    let e := BitVec.ofNat 32 (b * 1048576 + j)
    let s := if burn then s.thermoTo rowsEpoch 64 b else s
    let s := ((s.setF SPL_THERMO.BURNED b).setWord SPL_EPOCH.word e).set64 SPL_CTR_LO.word 0
    let r := s.drawn 4
    let s := r.1
    let rec' : JournalRec := ⟨e, r.2, s.journalMac e r.2⟩
    { s with spl := { s.spl with salt := r.2, journal := if journalOk then some rec' else s.spl.journal, journalOk := journalOk, epochOk := false } }

/-! ## Commands and their ends -/

/-- Once no command is open, a refusal that waited takes hold; on the way to SLEEP every drive is flushed and then gets its shutdown notification
(R181, R204). -/
def State.closeSpool (s : State) : State :=
  let s := if s.spl.closing = 1 ∧ s.spl.cmds.isEmpty then
      let s : State := { s with spl := { s.spl with closing := 2 } }
      s.issueAll s.usableDrives .shutdownFlush
    else s
  if s.spl.closing = 2 ∧ s.spl.cmds.isEmpty then
    let s := s.usableDrives.foldl (fun s d => s.emit (.nvme d 3)) s
    { s with spl := { s.spl with closing := 3 } }
  else s

/-- What may go on once commands have ended: refusals that waited, writes that could not be sealed, reads that could not be issued, the way to SLEEP. -/
def State.spoolNext (s : State) : State :=
  let s := if s.spl.cmds.isEmpty then s.refreshRefusal else s
  let s := s.sealAll
  ((List.range 64).foldl (fun s ch => s.fetchReads ch) s).closeSpool

/-- A command that did its work, on every drive it was sent to (R190, R165, R198). -/
def State.cmdDone (s : State) (op : NvmeOp) : State :=
  if s.spl.cmds.any (fun c => c.op = op) then s
  else match op with
    | .writeExtent k _ =>
      ((s.modCopy k (fun c => { c with written := c.written + 1 })).copyNext k).releaseWaiting k
    | .flush k | .catEntry k | .catFlush k => (s.copyNext k).releaseWaiting k
    | .writeAudit k =>
      let s := s.modAudit k (fun a => { a with complete := decide (a.extents ≤ a.issued) })
      s.spl.copies.foldl (fun s c => s.releaseWaiting c.key) s
    | .writeDirect fn ext => s.modDirect fn ext (fun d => { d with inFlight := false })
    | .barrierFlush ch =>
      match (s.chan ch).xfer with
      | some x => if x.barrierWait then s.finishDesc ch { x with barrierMet := true, barrierWait := false } (x.code.getD 0) else s
      | none => s
    | .read ch e =>
      match (s.chan ch).xfer with
      | some x =>
        if x.reads.all (fun r => r.ext ≠ e || r.good) then s.endRead ch e true
        else (s.readFailed (s.readFn ch x) true).endRead ch e false
      | none => s
    | .shutdownFlush => s

/-- Does a descriptor in hand on a channel of `fn` write a direct extent, with its write not yet confirmed (R178)? -/
def SipXfer.writes (x : SipXfer) (ext : Nat) : Bool :=
  x.job.isNone && decide (x.desc.dstSpace = spSPOOL ∧ x.desc.dst / 65536 ≤ ext ∧ ext * 65536 < x.desc.dst + x.moved) && (x.code.isNone || x.code = some 0)

/-- A command that ended in error (R191, R178, R205): an extent, flush or catalogue write loses its copy; a direct write ends its descriptor with
SPOOL_WRITE_ERROR or is a C0; an audit capture is discarded as a C0; a read fails its descriptor. -/
def State.cmdFailed (s : State) (op : NvmeOp) : State :=
  match op with
  | .writeExtent k _ | .flush k | .catEntry k | .catFlush k => s.loseCopy k
  | .writeAudit k =>
    match s.spl.audits.find? (fun a => a.key = k) with
    | some a =>
      let s := (s.freeAudit a).report 0x03 0 0x0F a.fn (idAddr a.pageId)
      s.spl.copies.foldl (fun s c => s.releaseWaiting c.key) s
    | none => s
  | .writeDirect fn ext =>
    let s := s.modDirect fn ext (fun d => { d with inFlight := false })
    match (List.range 64).find? (fun ch => s.chOwner ch = fn && (s.chan ch).xfer.any (fun x => x.writes ext)) with
    | some ch => s.setChan ch { s.chan ch with xfer := (s.chan ch).xfer.map (fun (x : SipXfer) => { x with code := some 0x33 }) }
    | none => s.report 0x03 0 0x0F fn
  | .barrierFlush ch =>
    match (s.chan ch).xfer with
    | some x => if x.barrierWait then s.finishDesc ch { x with barrierWait := false, abortLate := false } 0x33 else s
    | none => s
  | .read ch e => s.endRead ch e false
  | .shutdownFlush => s

/-- A failed drive's command ends: the twin of a mirrored pair did its part, or reads in its place; otherwise it failed. -/
def State.cmdLost (s : State) (twin : Option Nat) (op : NvmeOp) : State :=
  if s.spl.cmds.any (fun c => c.op = op) then s
  else match twin, op with
    | some d, .read _ _ => s.issueCmd d op
    | some _, _ => s.cmdDone op
    | none, _ => s.cmdFailed op

/-- Mark a drive failed (R183): a C1; capacity falls; in stripe mode every copy with an extent on it becomes incomplete, in mirror mode one whose pair has
no drive left; open copies among them are lost. Its commands end, and it is sent nothing more. -/
def State.failDrive (s : State) (d : Nat) : State :=
  if bit (s.f SPL_STATUS.SSD_FAILED) d then s
  else
    let twin := if s.b SPL_CTRL.MIRROR then s.usableDrives.find? (fun e => e ≠ d && e / 2 = d / 2) else none
    let ops := ((s.spl.cmds.filter (fun c => c.drive = d)).map (fun c => c.op)).eraseDups
    let s := s.setF SPL_STATUS.SSD_FAILED (setBit (s.f SPL_STATUS.SSD_FAILED) d true)
    let s := (s.setDrive d { s.drive d with decided := true }).report 0x03 1 0x0F (d * 256)
    let s : State := { s with spl := { s.spl with cmds := s.spl.cmds.filter (fun c => c.drive ≠ d) } }
    let s : State := if twin.isSome then s
      else { s with spl := { s.spl with audits := s.spl.audits.map (fun a => if a.drives.getLsbD d then { a with complete := false } else a) } }
    let s := if twin.isSome then s
      else (s.spl.copies.filter (fun c => c.drives.getLsbD d)).foldl (fun s c => if c.isOpen then s.loseCopy c.key else s.breakCopy c) s
    let s := ops.foldl (fun s op => s.cmdLost twin op) s
    (s.syncCap.pf 452).refreshRefusal

/-- Count a command failure against its drive; the sixteenth within 1 s marks it failed (R183). -/
def State.countFailure (s : State) (d : Nat) : State :=
  let t := s.now.toNat
  let fails := t :: (s.drive d).fails.filter (fun u => decide (t < u + 1000000000))
  let s := (s.setDrive d { s.drive d with fails := fails }).satInc SPL_ERR_CNT.IO_ERR
  if 16 ≤ fails.length then s.failDrive d else s

/-- NVME_COMMAND_COMPLETE (R183, R190, R191, R198, R205): a command completes (`result` 0), fails (1), or, of a read, brings an extent whose header CHECK or tag
does not match (2). -/
def execNvmeCommandComplete (id result : Nat) (s : State) : Ans :=
  match s.spl.cmds.find? (fun c => c.id = id) with
  | none => .next s
  | some c =>
    let s := { s with spl := { s.spl with cmds := s.spl.cmds.filter (fun x => x.id ≠ id) } }
    let s := match result, c.op with
      | 0, op => s.cmdDone op
      | 2, .read ch e =>
        match (s.chan ch).xfer with
        | some x => (s.readFailed (s.readFn ch x) true).endRead ch e false
        | none => s
      | _, op => (s.cmdFailed op).countFailure c.drive
    .next s.spoolNext

/-- NVME_COMMAND_TIMEOUT (R183): a command not completed after 1 s counts as a failure and is issued again. -/
def execNvmeCommandTimeout (id : Nat) (s : State) : Ans :=
  match s.spl.cmds.find? (fun c => c.id = id) with
  | none => .next s
  | some c =>
    let s := s.countFailure c.drive
    .next (if s.spl.cmds.any (fun x => x.id = id) then s.emit (.nvme c.drive c.op.kind) else s.spoolNext)

/-! ## Starting (R736) and stopping (R204) -/

/-- Training of every link of the layout starts (R736): at ENABLE, and when the root port restarts after SLEEP (R603). A failed drive stays failed until the next
reset (R183). -/
def State.spoolStart (s : State) : State :=
  let links := layoutLinks (s.f SPL_CTRL.LAYOUT)
  let s := s.setF SPL_STATUS.SSD_PRESENT 0
  let s := (List.range 4).foldl (fun (s : State) d =>
    s.setDrive d { salts := (s.drive d).salts, decided := decide (links ≤ d) || bit (s.f SPL_STATUS.SSD_FAILED) d, linkDone := decide (links ≤ d) }) s
  let s := { s with spl := { s.spl with starting := true, epochOk := false, closing := 0 } }
  s.syncCap.refreshRefusal

/-- SPOOL_ENABLE (R182, R649, R736): training of every link of the layout starts, unless mirroring does not fit the layout or the lifecycle has no key. -/
def execSpoolEnable (s : State) : Ans :=
  let links := layoutLinks (s.f SPL_CTRL.LAYOUT)
  if s.poweredDown SPL_CTRL.word then .next (s.darkWrite SPL_CTRL.word 1)
  else if s.b SPL_CTRL.ENABLE then .next s
  else if (s.b SPL_CTRL.MIRROR && (links = 1 || links = 3)) || s.f SEC_LC.STATE = 0 || s.f SEC_LC.STATE = 3 then .next s
  else .next (s.setSpool true).spoolStart

/-- ENABLE falls (R204): writes are refused with cause 1 once the open writes have ended. -/
def State.spoolOff (s : State) : State :=
  let s := { s.setSpool false with spl := { s.spl with starting := false } }
  if s.spl.cmds.isEmpty then s.refreshRefusal else s

/-- SPOOL_DISABLE (R204). -/
def execSpoolDisable (s : State) : Ans :=
  if s.poweredDown SPL_CTRL.word then .next (s.darkWrite SPL_CTRL.word 0)
  else if s.b SPL_CTRL.ENABLE then .next s.spoolOff else .next s

/-- Step 4 and 5 of R736, once every drive is admitted or failed: the conditions of R182; then the salts are written and recovery starts. -/
def State.driveCheck (s : State) : State :=
  if !s.spl.starting || (List.range 4).any (fun d => !(s.drive d).decided) then s
  else
    let n := popcount (s.f SPL_STATUS.SSD_PRESENT) 4
    let s := { s with spl := { s.spl with starting := false } }
    if (s.b SPL_CTRL.MIRROR && (n = 1 || n = 3)) || n = 0 then (s.setSpool false).refreshRefusal
    else ((((if s.spl.journalOk then s.writeSalts else s).setF SPL_STATUS.RECOVERING 1).pf 452).refreshRefusal).composerWake

/-- DRIVE_READY (R181, R184, R736): the drive is identified; one that meets R181 is admitted, with its 8 queue pairs, and its extents are managed. -/
def execDriveReady (d : Nat) (fits : Bool) (capacity : Nat) (s : State) : Ans :=
  let x := s.drive d
  if 4 ≤ d ∨ ¬ s.spl.starting ∨ ¬ x.linkUp ∨ x.decided then .next s
  else
    let s := s.emit (.nvme d 5)
    if !fits then .next ((s.setDrive d { x with decided := true }).driveCheck)
    else
      let s := ([6, 7] ++ List.replicate 8 8).foldl (fun (s : State) k => s.emit (.nvme d k)) s
      let s := s.setF SPL_STATUS.SSD_PRESENT (setBit (s.f SPL_STATUS.SSD_PRESENT) d true)
      let s := s.setDrive d { x with decided := true, capacity := capacity, queues := 8 }
      .next ((s.syncCap.pf 452).refreshRefusal.driveCheck)

/-- DRIVE_READY_TIMEOUT (R736, R183): the drive is marked failed. -/
def execDriveReadyTimeout (d : Nat) (s : State) : Ans :=
  if 4 ≤ d ∨ ¬ s.spl.starting ∨ ¬ (s.drive d).linkUp ∨ (s.drive d).decided then .next s
  else .next ((s.failDrive d).driveCheck)

/-- DRIVE_FAILED (R183): fatal status, a dropped link or repeated failures mark the drive failed, admitted or not yet. -/
def execDriveFailed (d : Nat) (s : State) : Ans :=
  if 4 ≤ d ∨ ¬ (bit (s.f SPL_STATUS.SSD_PRESENT) d ∨ (s.spl.starting ∧ (s.drive d).linkUp ∧ ¬ (s.drive d).decided)) then .next s
  else .next ((s.failDrive d).driveCheck).spoolNext

/-- SPOOL_LINK_TRAINED (R736 step 2): the link is up, or the drive behind it is not present. -/
def execSpoolLinkTrained (d : Nat) (up : Bool) (s : State) : Ans :=
  let x := s.drive d
  if 4 ≤ d ∨ ¬ s.spl.starting ∨ x.linkDone then .next s
  else .next ((s.setDrive d { x with linkDone := true, linkUp := up, decided := x.decided || !up }).driveCheck)

/-! ## Recovery (R193) -/

/-- What a slice holds: its page copies, audit captures and direct extents (R185). -/
def Spl.charged (x : Spl) (fn : Nat) : Nat :=
  x.copies.foldl (fun a c => if c.fn = fn then a + c.extents else a) 0 + x.audits.foldl (fun a c => if c.fn = fn then a + c.extents else a) 0 +
  (x.direct.filter (fun d => d.fn = fn)).length

/-- Charge every slice with what it holds and count the capacity left (R184, R185). -/
def State.recharge (s : State) : State :=
  ((List.range 16).foldl (fun (s : State) fn => (s.setF (SPL_SL_USED.EXTENTS fn) (s.spl.charged fn)).syncCopies fn) s).syncCap

/-- May a copy that the catalogue lists be held again: it is complete, every extent of it lies on a drive that serves, and no copy has been written since? -/
def State.recovers (s : State) (c : Copy) : Bool :=
  c.stage = .complete && c.heads.all (fun x => s.usableDrives.any (fun d => x.drives.getLsbD d)) && (s.findCopy c.fn c.pageId).isNone

/-- SPOOL_RECOVERY_DONE (R193): the catalogue has been read; copies found incomplete are discarded, and complete ones are held again. -/
def execSpoolRecoveryDone (s : State) : Ans :=
  if !s.b SPL_STATUS.RECOVERING then .next s
  else
    let held := s.spl.catalogue.filter s.recovers
    let gone := s.spl.catalogue.filter (fun c => !s.recovers c)
    let s := gone.foldl (fun s c => s.unmap c.drives) s
    let s := { s with spl := { s.spl with copies := s.spl.copies ++ held, catalogue := [] } }
    .next ((s.recharge.retrySalts.setF SPL_STATUS.RECOVERING 0).pf 452)

/-- EPOCH_ROLLOVER (R201): the write counter has reached 2^63; the next epoch starts before another extent is written, or writes are refused. -/
def execEpochRollover (journalOk burnOk saltOk : Bool) (s : State) : Ans :=
  if !s.ctrSpent then .next s
  else
    let s := s.startEpoch journalOk burnOk
    let s := if saltOk && s.spl.journalOk then s.writeSalts else s
    .next s.refreshRefusal.sealAll

/-! ## Slices (R185 to R187, R194, R206) -/

/-- Give back direct extents of a function that satisfy `p`; their bytes read zero again (R186). -/
def State.dropDirect (s : State) (fn : Nat) (p : DirectExt → Bool) : State :=
  let gone := s.spl.direct.filter (fun d => d.fn = fn && p d)
  let s := { s with spl := { s.spl with direct := s.spl.direct.filter (fun d => !(d.fn = fn && p d)) } }
  gone.foldl (fun s d =>
    let a := spoolKey fn (d.ext * 65536)
    let s := { s with spool := s.spool.clearRange a (a + 65536) }
    (s.unmap ((d.head.map (fun h => h.drives)).getD 0)).dealloc fn 1) s

/-- SLICE_QUOTA_WRITE (R185 to R187): a direct region above the quota is refused; lowering the direct region trims what lies above it. -/
def execSliceQuotaWrite (fn : Nat) (direct : Bool) (value : BitVec 32) (s : State) : Ans :=
  let v := getField value 0 30
  if fn < 16 ∧ s.poweredDown ((if direct then SPL_DIRECT.word fn else SPL_QUOTA.word fn)) then .next (s.darkWrite ((if direct then SPL_DIRECT.word fn else SPL_QUOTA.word fn)) value.toNat)
  else if 16 ≤ fn then .next s
  else if direct then
    if s.f (SPL_QUOTA.EXTENTS fn) < v then .next (s.raise (SPL_SL_STATUS.CFG_REFUSED fn))
    else
      let s := (s.setF (SPL_DIRECT.EXTENTS fn) v).setF (SPL_SL_DIRECT.EXTENTS fn) v
      .next (s.dropDirect fn (fun d => decide (v ≤ d.ext)))
  else .next ((s.setF (SPL_QUOTA.EXTENTS fn) v).setF (SPL_SL_QUOTA.EXTENTS fn) v)

/-- SLICE_TRIM (R206): direct extents from TRIM_START whose write has completed are trimmed; those in flight stay and count as skipped. -/
def execSliceTrim (fn count : Nat) (s : State) : Ans :=
  if fn < 16 ∧ s.poweredDown (SPL_SL_TRIM.word fn) then .next (s.darkWrite (SPL_SL_TRIM.word fn) count)
  else if 16 ≤ fn ∨ count = 0 ∨ (s.spl.trims.get? fn).isSome then .next s
  else
    let a := s.f (SPL_SL_TRIM_START.EXTENT fn)
    let hit := fun (d : DirectExt) => decide (a ≤ d.ext ∧ d.ext < a + count)
    let skipped := (s.spl.direct.filter (fun d => d.fn = fn && hit d && d.inFlight)).length
    let s := s.dropDirect fn (fun d => hit d && !d.inFlight)
    .next { s with spl := { s.spl with trims := s.spl.trims.put fn skipped } }

/-- SLICE_TRIM_DONE (R206): the trim reports what it left and sets TRIM_DONE. -/
def execSliceTrimDone (fn : Nat) (s : State) : Ans :=
  match s.spl.trims.get? fn with
  | none => .next s
  | some k =>
    let s := { s with spl := { s.spl with trims := s.spl.trims.erase fn } }
    .next (((s.setF (SPL_SL_TRIM_DONE.SKIPPED fn) k).raise (SPL_SL_STATUS.TRIM_DONE fn)).sliceVector fn)

/-- SLICE_ENUM (R194): a listing of the function's page identifiers starts, unless one runs. -/
def execSliceEnum (fn max : Nat) (s : State) : Ans :=
  if fn < 16 ∧ s.poweredDown (SPL_SL_ENUM_CTRL.word fn) then .next (s.darkWrite (SPL_SL_ENUM_CTRL.word fn) max)
  else if 16 ≤ fn ∨ max = 0 ∨ (s.spl.enums.get? fn).isSome then .next s
  else .next { s with spl := { s.spl with enums := s.spl.enums.put fn max } }

/-- SLICE_ENUM_DONE (R194): the identifiers are written to host memory, the count is set and the slice vector signalled. -/
def execSliceEnumDone (fn : Nat) (s : State) : Ans :=
  match s.spl.enums.get? fn with
  | none => .next s
  | some k =>
    let ids := ((s.spl.copies.filter (fun c => c.fn = fn)).map (fun c => c.pageId)).take k
    let a := s.f (SPL_SL_ENUM_HI.ADDR fn) * 2 ^ 32 + s.f (SPL_SL_ENUM_LO.ADDR fn) * 64
    let s := { s with spl := { s.spl with enums := s.spl.enums.erase fn } }
    let s := if ids.isEmpty then s else s.emit (.hostWrite fn (BitVec.ofNat 64 a) (ids.flatMap (fun i => leBytes 8 i.toNat)))
    .next (((s.setF (SPL_SL_ENUM_CNT.COUNT fn) ids.length).raise (SPL_SL_STATUS.ENUM_DONE fn)).sliceVector fn)

end Sys2Proof.Machine
end

