-- ==== Sys2Proof/Machine/Inspect.lean ====
section
/-! DEFINITION. The meanings of the inspection commands (spec/11): scan links, CIS lines, results, calibration captures, audit exports. -/
namespace Sys2Proof.Machine

/-- INS_LINK.STATE: 0 DOWN, 1 LOCKING, 2 UP. -/
def State.insUp (s : State) (side : Nat) : Bool := s.f (INS_LINK.STATE side) = 2

/-- Does inspection run: RUN or READY (R441)? -/
def State.insRuns (s : State) : Bool := s.power = pwrRUN || s.power = pwrREADY

/-- The port of a side changes state (R426). -/
def State.setInsLink (s : State) (side v : Nat) : State :=
  if s.f (INS_LINK.STATE side) = v then s else (s.setF (INS_LINK.STATE side) v).pf (100 + side)

/-- SCAN_LINK_LOCK (R404, R420): all four lanes are locked and deskewed: the port is UP. Pages that had a row at the bar while it was not UP are marked. -/
def execScanLinkLock (side : Nat) (s : State) : Host.Outcome State Fault Refusal :=
  if !s.sideOn side || !s.insRuns || !s.sideEnabled side || s.insUp side then .next s
  else
    let s := (s.setF (INS_LINK.LANE_LOCK side) 15).setInsLink side 2
    let x := s.insSide side
    let now := s.scn.pos / 4096
    let missed := fun (y : InsPage) => x.downAt.any (fun d =>
      decide (d ≤ s.rowPos y (((s.page? y.page).map (fun p => p.desc.cisRows)).getD 1 - 1) ∧ s.rowPos y 0 ≤ now))
    .next (s.setInsSide side { x with downAt := none, last := none, lseq := none,
                                      pages := x.pages.map (fun y => if missed y then { y with linkLost := true } else y) })

/-- A calibration capture ends with a code; nothing it had is kept (R432, R434, R441). -/
def State.endCapture (s : State) (side code : Nat) : State :=
  let s := s.modInsSide side (fun x => { x with capOp := 0, capLines := [] })
  ((s.setF (INS_CAL_STATUS.BUSY side) 0).setF (INS_CAL_STATUS.CODE side) code).pf (100 + side)

/-- The port leaves UP or LOCKING for a state: what was under way ends (R434). -/
def State.insLinkDown (s : State) (side v lanes : Nat) : State :=
  let was := s.insUp side
  let s := (s.setF (INS_LINK.LANE_LOCK side) lanes).setInsLink side v
  let s := if was then s.modInsSide side (fun x => { x with downAt := some (s.scn.pos / 4096), last := none, lseq := none }) else s
  if was && s.b (INS_CAL_STATUS.BUSY side) then s.endCapture side 3 else s

/-- SCAN_LINK_LOCK_LOSS (R404, R434): a lane has lost lock: the port returns to LOCKING, and a capture ends with LINK_DOWN. -/
def execScanLinkLockLoss (side : Nat) (lanes : BitVec 4) (s : State) : Host.Outcome State Fault Refusal :=
  if !s.sideOn side || !s.insUp side || lanes = 15#4 then .next s
  else .next ((s.satInc (INS_LINK_ERR.LOCK_LOSS side)).insLinkDown side 1 lanes.toNat)

/-- The lowest line rate allowed now: the 600 dpi row rate of the class in force, half of it in half-advance (R401). -/
def State.minLineRate (s : State) : Nat := webSpeed s.classNow * 3 / 127 / (if s.b SCN_CTRL.HALF then 2 else 1)

/-- Compare the furrows of a page side whose rows, and the eight below them, have passed the bar (R415). -/
def State.compareDue (s : State) (side seq : Nat) (pos : Int) : Nat → State
  | 0 => s
  | n + 1 =>
    match (s.insSide side).pages.find? (fun y => y.page = seq), s.page? seq with
    | some y, some p =>
      if y.on && bit (s.f INS_STATUS.MODEL_OK) side && decide (16 * y.done < p.desc.cisRows) &&
          decide (s.rowPos y (min (16 * y.done + 23) (p.desc.cisRows - 1)) ≤ pos) then
        (s.compareFurrow p y y.done).compareDue side seq pos n
      else s
    | _, _ => s

/-- The line rate that a line at `stamp` gives with the one before it, and whether it is below the least for the web speed (R402). -/
def State.cisRate (s : State) (side stamp : Nat) : Option (Nat × Bool) :=
  ((s.insSide side).last).map (fun a =>
    let rate := if a.stamp < stamp then 1000000000 / (stamp - a.stamp) else 0
    (rate, decide (rate < s.minLineRate)))

/-- A good line is noted: its rate, the line itself as the last one, and its place among a calibration capture's lines. -/
def State.noteLine (s : State) (side : Nat) (lseq : BitVec 32) (b : CisLine) : State :=
  let s := match s.cisRate side b.stamp with
    | some r => (s.setF (INS_LINK.RATE side) (min 65535 (r.1 / 10))).setB (INS_LINK.RATE_LOW side) r.2
    | none => s
  let s := s.modInsSide side (fun z => { z with last := some b, lseq := some lseq })
  if s.b (INS_CAL_STATUS.BUSY side) ∧ (s.insSide side).capLines.length < 1024 then s.modInsSide side (fun z => { z with capLines := z.capLines ++ [b] }) else s

/-! ## Audit captures (R240, R439) -/

/-- The 54,000 bytes of a row in the pixel layout of R403. -/
def cisRowBytes (row : List Nat) : List Byte :=
  (List.range 18000).flatMap (fun i => leBytes 3 (min 4095 (row.getD (2 * i) 0) + 4096 * min 4095 (row.getD (2 * i + 1) 0)))

/-- The audit capture of a side of a page (R439): header, rows, invalid rows as zeros. -/
def auditBytes (p : Page) (y : InsPage) : List Byte :=
  let n := p.desc.cisRows
  leBytes 8 p.desc.pageId.toNat ++ leBytes 1 y.side ++ leBytes 1 p.fn ++ leBytes 2 0 ++ leBytes 4 n ++ leBytes 8 y.stamp0 ++ leBytes 40 0 ++
  (List.range n).flatMap (fun r => match y.caps.find? (fun x => x.1 = r) with
    | some x => cisRowBytes x.2
    | none => List.replicate 54000 0)

/-- Store an audit capture on the spool in place of an earlier one, charged to the page's slice; one that cannot be written is discarded as a C0 (R185, R191,
R439). -/
def State.storeAudit (s : State) (p : Page) (side : Nat) (data : List Byte) : State :=
  let n := (data.length + 65535) / 65536
  if s.splRefused || !s.canAlloc p.fn n then s.report 0x03 0 0x0F p.fn (idAddr p.desc.pageId)
  else
    let key := s.spl.nextKey
    let s := (s.spl.audits.filter (fun a => a.fn = p.fn && a.pageId = p.desc.pageId && a.side = side)).foldl (fun s a => s.freeAudit a) s
    let s := s.alloc p.fn n
    let new : Audit := { key := key, fn := p.fn, pageId := p.desc.pageId, side := side, data := data, extents := n }
    { s with spl := { s.spl with nextKey := key + 1, audits := s.spl.audits ++ [new] } }.auditAdvance key (n + 1)

/-- What inspection holds of a side of a page. -/
def State.insPageOf (s : State) (seq side : Nat) : Option InsPage := (s.insSide side).pages.find? (fun y => y.page = seq)

/-- A side's audit stream begins: its codec slot runs, at the effort set now (R240). -/
def State.auditStart (s : State) (y : InsPage) : State :=
  let j := 6 + y.side
  let e := s.f KOR_CTRL.AUDIT_EFFORT
  let s := ((s.setF (KOR_JOB_IN_DONE.BYTES j) 0).setF (KOR_JOB_OUT_DONE.BYTES j) 0).setWord (KOR_JOB_BLOCKS.word j) 0
  (s.setJobState j jobRUNNING).modInsPage y.page y.side (fun z => { z with audit := 1, effort := e })

/-- A side's audit stream ends with its last row: the slot is DONE and the stream goes to the spool (R240, R247, R439). -/
def State.auditEnd (s : State) (p : Page) (y : InsPage) : State :=
  let j := 6 + y.side
  let raw := auditBytes p y
  let r := lEncodeAll y.effort raw (2 * raw.length + 65536) (raw.length / 65536 + 2) 0 ⟨0, lHeader, 0, 0, 0⟩
  let s := (s.setF (KOR_JOB_IN_DONE.BYTES j) raw.length).setF (KOR_JOB_OUT_DONE.BYTES j) r.out.length
  let s := (s.setF (KOR_JOB_BLOCKS.CODED j) (min r.coded 65535)).setF (KOR_JOB_BLOCKS.STORED j) (min r.stored 65535)
  ((s.endJob j 0).modInsPage y.page y.side (fun z => { z with audit := 2 })).storeAudit p y.side r.out

/-- A row of a page with an audit capture goes to its side's codec slot: with the first the stream begins, once that of the page before it has ended; with the
last it ends. -/
def State.auditRow (s : State) (p : Page) (side r : Nat) : State :=
  if !p.desc.inspect.getLsbD 2 || s.stopActive then s
  else
    let s := (s.insSide side).pages.foldl (fun s y => if y.audit = 1 ∧ y.page ≠ p.seq then match s.page? y.page with
      | some q => s.auditEnd q y
      | none => s
      else s) s
    match s.insPageOf p.seq side with
    | none => s
    | some y =>
      let s := if y.audit = 0 then s.auditStart y else s
      if y.audit = 2 then s
      else
        let s := s.setF (KOR_JOB_IN_DONE.BYTES (6 + side)) (64 + 54000 * (r + 1))
        if r + 1 < p.desc.cisRows then s else match s.insPageOf p.seq side with
          | some y => s.auditEnd p y
          | none => s

/-- At a side's result an audit stream that still runs ends, one that no row began is made of invalid rows, or discarded in a stop (R249). -/
def State.auditLast (s : State) (p : Page) (y : InsPage) : State :=
  if !p.desc.inspect.getLsbD 2 || y.audit = 2 then s
  else if s.stopActive then (s.modInsPage y.page y.side (fun z => { z with audit := 1 })).auditCut { y with audit := 1 }
  else
    let s := if y.audit = 0 then s.auditStart y else s
    match s.insPageOf y.page y.side with
    | some y => s.auditEnd p y
    | none => s

/-- The rows of the side's pages that lie between two lines near each other are captured, and furrows whose rows are complete compared. -/
def State.rowsBetween (s : State) (side : Nat) (a b : CisLine) (near : Bool) : State :=
  (s.insSide side).pages.foldl (fun s y =>
    match s.page? y.page with
    | none => s
    | some p =>
      let from' := ((a.pos - s.rowPos y 0) / 262144 - 1).toNat
      let rs := ((List.range 4).map (from' + ·)).filter (fun r => decide (r < p.desc.cisRows ∧ a.pos < s.rowPos y r ∧ s.rowPos y r ≤ b.pos))
      let s := if y.on && near then rs.foldl (fun s r =>
          let row := s.cisRow side a b (s.rowPos y r)
          (s.modInsPage y.page side (fun z => { z with caps := z.caps ++ [(r, row)], stamp0 := if r = 0 then b.stamp else z.stamp0 })).auditRow p side r) s
        else s
      s.compareDue side y.page b.pos (p.desc.furrows + 1)) s

/-- CIS_LINE (R401 to R408, R411 to R419, R432): a line arrives whole. A bad one is counted and not used; a good one is placed on the web, taken by a
capture in progress, and closes the rows that it and the line before it straddle. -/
def execCisLine (side : Nat) (lanes : List (List (Bool × BitVec 64))) (s : State) : Host.Outcome State Fault Refusal :=
  if !s.sideOn side || !s.insRuns || !s.sideEnabled side then .next s
  else
    let x := s.insSide side
    match s.insUp side, cisBytes lanes with
    | true, some (lseq, px) =>
      if x.lseq.any (fun l => decide (lseq ≠ l + 1)) then .next (s.satInc (INS_LINK_ERR.BAD_LINES side))
      else
        let b : CisLine := ⟨s.posAt (s.now.toNat - 100 * s.f (INS_CIS_CFG.LAT side)), s.now.toNat, px⟩
        match x.last with
        | none => .next (s.noteLine side lseq b)
        | some a => .next ((s.noteLine side lseq b).rowsBetween side a b
            (decide (b.pos - a.pos ≤ 8 * 65536) && !((s.cisRate side s.now.toNat).any (fun r => r.2))))
    | _, _ => .next (s.satInc (INS_LINK_ERR.BAD_LINES side))

/-! ## Results -/

/-- The result of one side of a page (R416 to R422): verdict, defects listed and not, whether it was inspected, what was measured. -/
def State.judgeSide (s : State) (p : Page) (y : InsPage) : InsResult × Store InsMeas × State :=
  if s.notInspected p y then
    ({ verdict := 1, pageId := p.desc.pageId, fn := p.fn, notInsp := true, defects := [{ code := 7, sev := 1 }],
       regs := List.replicate 12 (none, none) }, [], s)
  else
    let sts := stationList (y.sts.setWidth 16)
    let m := sts.foldl (fun (a : Store InsMeas × State) st => let r := a.2.measure y st; (a.1.put st r.1, r.2)) ([], s)
    let s := m.2
    let ds := sortDefects (y.defects ++ s.runDefects y ++ s.regDefects y.side sts m.1)
    let ref := s.f (INS_CORR.REF_ST y.side)
    let regs := (List.range 12).map (fun st =>
      let e := if sts.contains st then bandErrors m.1 st ref else []
      (meanOf (e.map (fun x => x.2.1)), meanOf (e.map (fun x => x.2.2))))
    let v := ds.foldl (fun (a : Nat) d => max a d.sev) 0
    ({ verdict := v, pageId := p.desc.pageId, fn := p.fn, more := ds.length - 64, defects := ds.take 64, regs := regs,
       dy := (meanOf (y.shifts.map (fun x => x.1))).getD 0, dx := (meanOf (y.shifts.map (fun x => x.2))).getD 0 }, m.1, s)

/-- A page has been measured for a calibration sweep of its side (R436). -/
def State.sweepPage (s : State) (side : Nat) : State :=
  if s.cul.xrun && s.cul.xmeas = s.culIndex && s.ins.sweepSide = some side then { s with cul := { s.cul with xpages := s.cul.xpages - 1 } } else s

/-- The side's result for the page in front is made, queued and acted on (R411 to R424). A first verdict SPOIL of a page is the C2 of reason
VERDICT_SPOIL (R80; assumption log 39). -/
def State.sideResult (s : State) (side : Nat) (y0 : InsPage) (p : Page) : State :=
  let last := s.rowPos y0 (p.desc.cisRows - 1)
  let down := (s.insSide side).downAt.any (fun d => decide (d ≤ last)) || (!s.inRun && !s.insUp side)
  let s := if down then s.modInsPage p.seq side (fun y => { y with linkLost := true }) else s
  let s := s.compareDue side p.seq (last + 65536) (p.desc.furrows + 1)
  let y := ((s.insSide side).pages.head?).getD y0
  let s := s.auditLast p y
  let r := s.judgeSide p y
  let s := r.2.2
  let s := if r.1.notInsp then s.report 0x0A 2 0x40 (side * 256 + 7) (idAddr p.desc.pageId) else s
  let s := s.modInsSide side (fun x => { x with pages := x.pages.drop 1 })
  let s := s.queueResult side r.1
  let s := if r.1.notInsp then s
    else
      let s := s.sweepPage side
      let s := if r.1.verdict ≤ 1 then (stationList (y.sts.setWidth 16)).foldl (fun s st => s.pageTargets side st (y.vals.getD {} st) r.2.1) s else s
      s.markStanding y r.1.defects
  let first := decide (r.1.verdict = 2) && p.verdicts.all (fun v => decide (v.2 ≠ 2))
  let code := ((r.1.defects.find? (fun d => decide (d.sev = 2))).map (fun d => d.code)).getD 0
  let s := if first then s.report 0x0A 2 0x03 (side * 256 + code) (idAddr p.desc.pageId) else s
  s.modPage p.seq (fun q => { q with verdicts := p.verdicts ++ [(side, r.1.verdict)] })

/-- With every inspected side's verdict in, the page's final state is sent; the worst verdict counts. SPOIL sets the page's reason VERDICT_SPOIL, and
the state stays VERDICT (R80, R81). -/
def State.pageVerdict (s : State) (p : Page) : State :=
  let vs := ((s.page? p.seq).map (fun q => q.verdicts)).getD []
  if vs.length < p.desc.insSides.length then s
  else
    let worst := vs.foldl (fun (a : Nat) v => max a v.2) 0
    let s := s.insDrop p.seq
    (if worst = 2 then s.modPage p.seq (fun q => { q with spoil := some 3 }) else s).finalState p.seq 0x04 worst

/-- INSPECTION_RESULT_COMPLETE (R420 to R424, R426, R428, R430, R439, R82): the oldest page of a side has passed its bar, or the web has stopped: its result is
queued, its targets go to the loop, its audit capture to the spool; with every side of the page in, the page has its VERDICT. -/
def execInspectionResultComplete (side : Nat) (s : State) : Host.Outcome State Fault Refusal :=
  match (s.insSide side).pages.head? with
  | none => .next s
  | some y0 =>
    match s.page? y0.page with
    | none => .next (s.modInsSide side (fun x => { x with pages := x.pages.drop 1 }))
    | some p =>
      if p.isFinal then .next (s.insDrop p.seq)
      else if s.inRun && decide (s.scn.pos / 4096 < s.rowPos y0 (p.desc.cisRows - 1)) then .next s
      else .next ((s.sideResult side y0 p).pageVerdict p)

/-- INS_ACK (R8, R39, R425): the head result is removed, or the write refused; an INS_ACK comes before the result that raises READY in its round. -/
def execInsAck (side seq : Nat) (s : State) : Host.Outcome State Fault Refusal :=
  let off := INS_ACK.word side
  if s.poweredDown off ∧ s.power ≠ pwrSLEEP then .next (s.darkWrite off seq)
  else if !s.sideOn side then .next (s.reportAccess 0x0A 0x04 2 0 off seq)
  else
    let x := s.insSide side
    if s.b (INS_RESULT.READY side) && s.f (INS_RESULT.SEQ side) = seq % 65536 && !(s.roundOf 4 mkReady).contains side then
      .next ((s.setInsSide side { x with queue := x.queue.drop 1 }).insWindow side)
    else .next (s.raise INS_STATUS.CTRL_REFUSED)

/-! ## Scanner calibration (R432 to R434) -/

/-- GO of a calibration capture (R432, R441). -/
def State.calGo (s : State) (side op : Nat) : State :=
  let off := INS_CAL_CTRL.word side
  if s.poweredDown off then s.darkWrite off (2 * op + 1)
  else if !s.sideOn side then s.reportAccess 0x0A 0x04 2 0 off (2 * op + 1)
  else if s.power ≠ pwrREADY ∨ s.b (INS_CAL_STATUS.BUSY side) ∨ ¬ s.insUp side then s.raise INS_STATUS.CTRL_REFUSED
  else (s.modInsSide side (fun x => { x with capOp := op, capLines := [] })).setF (INS_CAL_STATUS.BUSY side) 1

/-- CAL_WHITE (R432). -/
def execCalWhite (side : Nat) (s : State) : Host.Outcome State Fault Refusal := .next (s.calGo side 1)

/-- CAL_CHART (R432). -/
def execCalChart (side : Nat) (s : State) : Host.Outcome State Fault Refusal := .next (s.calGo side 2)

/-- The gains of a WHITE capture, with 14 fraction bits: they bring each mean to 4,000; none where one would leave 0.5 to 2.0 (R432). -/
def whiteGains (l : List CisLine) : Option (List Nat) :=
  (List.range 36000).mapM (fun i =>
    let sum := l.foldl (fun (a : Nat) x => a + lineCode x.px i) 0
    if sum = 0 then none
    else
      let g := (2 * 4000 * 16384 * l.length + sum) / (2 * sum)
      if g ≤ 8192 ∨ 32768 ≤ g then none else some g)

/-- Mean flat-fielded colours of a patch, as a sum and a count (R432, R433). -/
def patchMean (cal : CisCal) (l : List CisLine) (e : List Byte) (k : Nat) : Int × Nat :=
  let c0 := leAt e 0 2
  let c1 := leAt e 2 2
  let r0 := leAt e 4 2
  let r1 := leAt e 6 2
  (List.range (r1 + 1 - r0)).foldl (fun (a : Int × Nat) i => match l[r0 + i]? with
    | none => a
    | some ln => (List.range (c1 + 1 - c0)).foldl (fun (a : Int × Nat) j =>
        let q := 3 * (c0 + j) + k
        (a.1 + cal.flat q (lineCode ln.px q), a.2 + 1)) a) (0, 0)

/-- The determinant of a square matrix, by its first row. -/
def det : Nat → List (List Int) → Int
  | 0, _ => 1
  | n + 1, m =>
    let top := m.headD []
    (List.range (n + 1)).foldl (fun (a : Int) j =>
      let minor := (m.drop 1).map (fun r => r.eraseIdx j)
      let t := top.getD j 0 * det n minor
      if j % 2 = 0 then a + t else a - t) 0

/-- The matrix with offsets that maps patch means to targets with the least squared error, by the normal equations; each entry rounded once to binary32;
none where the means are linearly dependent (R432, R433). A patch that covers no pixel has mean 0. -/
def chartMatrix (cal : CisCal) (l : List CisLine) (chart : List Byte) (n : Nat) : Option (List (BitVec 32)) :=
  let entry := fun (i : Nat) => (chart.drop (8 + 16 * i)).take 16
  -- means over a common denominator per patch: (R, G, B, 1) scaled by the count
  let pts := (List.range n).map (fun i =>
    let e := entry i
    let m := (List.range 3).map (patchMean cal l e)
    let cnt := max 1 (m.headD (0, 1)).2
    ((m.map (fun x => x.1)) ++ [(cnt : Int)], cnt, (List.range 3).map (fun k => (leAt e (8 + 2 * k) 2 % 4096 : Int))))
  let big := pts.foldl (fun (a : Nat) x => Nat.lcm a x.2.1) 1
  let rows := pts.map (fun x => (x.1.map (· * ((big / x.2.1 : Nat) : Int)), x.2.2))
  let dot := fun (f g : List Int × List Int → Int) => rows.foldl (fun (a : Int) x => a + f x * g x) 0
  let col := fun (i : Nat) (x : List Int × List Int) => x.1.getD i 0
  let a := (List.range 4).map (fun i => (List.range 4).map (fun j => dot (col i) (col j)))
  let d := det 4 a
  if d = 0 then none
  else some ((List.range 3).flatMap (fun k =>
    let b := (List.range 4).map (fun i => dot (col i) (fun x => x.2.getD k 0))
    (List.range 4).map (fun j =>
      let num := det 4 (a.mapIdx (fun i r => r.set j (b.getD i 0)))
      -- the unknowns multiply means scaled by `big`
      let num := num * (big : Int)
      Flt.ofRat (if d < 0 then -num else num) d.natAbs)))

/-- CAL_CAPTURE_DONE (R3, R432, R433): the capture of 1,024 lines ends. -/
def execCalCaptureDone (side : Nat) (s : State) : Host.Outcome State Fault Refusal :=
  let x := s.insSide side
  if !s.sideOn side || !s.b (INS_CAL_STATUS.BUSY side) || x.capLines.length < 1024 then .next s
  else
    let base := x.newCal.getD x.cal
    if x.capOp = 1 then
      match whiteGains x.capLines with
      | none => .next (s.endCapture side 4)
      | some g => .next (((s.setInsSide side { x with newCal := some { base with gains := g } }).setF (INS_CAL_STATUS.VALID_WHITE side) 1).endCapture side 0)
    else
      let n := leAt x.chart 0 2
      if n < 4 then .next (s.endCapture side 1)
      else match chartMatrix x.cal x.capLines x.chart n with
        | none => .next (s.endCapture side 2)
        | some m => .next (((s.setInsSide side { x with newCal := some { base with matrix := m } }).setF (INS_CAL_STATUS.VALID_CHART side) 1).endCapture side 0)

/-- A completed calibration takes effect at the page gap of a station of its side (R433). -/
def State.takeCal (s : State) (side : Nat) : State :=
  s.modInsSide side (fun x => match x.newCal with
    | some c => { x with cal := c, newCal := none }
    | none => x)

/-! ## Audit exports (R440) -/

/-- The audit capture that INS_AUDIT_PAGE, FN and SIDE name. -/
def State.auditNamed (s : State) : Option Audit :=
  let id := BitVec.ofNat 64 (s.get64 INS_AUDIT_PAGE_LO.word)
  s.spl.audits.find? (fun a => a.complete && a.pageId = id && a.fn = s.f INS_AUDIT_CTRL.FN && a.side = s.f INS_AUDIT_CTRL.SIDE)

/-- AUDIT_EXPORT (R440, R441): GO starts an export, unless one runs. -/
def execAuditExport (s : State) : Host.Outcome State Fault Refusal :=
  let off := INS_AUDIT_CTRL.word
  if s.poweredDown off then .next (s.darkWrite off 1)
  else if s.f INS_AUDIT_CTRL.STATE = 1 then .next (s.raise INS_STATUS.CTRL_REFUSED)
  else .next (s.setF INS_AUDIT_CTRL.STATE 1)

/-- End an export with a code and the bytes written. -/
def State.endAudit (s : State) (code n : Nat) : State :=
  (((s.setF INS_AUDIT_CTRL.CODE code).setF INS_AUDIT_CTRL.STATE 2).setF INS_AUDIT_DONE.BYTES n).pf (100 + s.f INS_AUDIT_CTRL.SIDE)

/-- AUDIT_EXPORT_DONE (R198, R440): the capture is verified, decrypted and copied; `fail` is not 0 where its extents do not verify or cannot be read. -/
def execAuditExportDone (fail : Nat) (s : State) : Host.Outcome State Fault Refusal :=
  if s.f INS_AUDIT_CTRL.STATE ≠ 1 then .next s
  else match s.auditNamed with
    | none => .next (s.endAudit 0x01 0)
    | some a =>
      let dst := s.f INS_AUDIT_DST_HI.ADDR * 2 ^ 32 + s.f INS_AUDIT_DST_LO.ADDR * 64
      let lim := s.f INS_AUDIT_LIMIT.BYTES
      if !(decide (s.freeBase ≤ dst ∧ dst + min a.data.length lim ≤ s.dramEnd)) then .next (s.endAudit 0x02 0)
      else if fail ≠ 0 then .next (s.endAudit 0x03 0)
      else if lim < a.data.length then .next ({ s with dram := s.dram.putBytes dst (a.data.take lim) }.endAudit 0x04 lim)
      else .next ({ s with dram := s.dram.putBytes dst a.data }.endAudit 0x00 a.data.length)

end Sys2Proof.Machine
end

