-- ==== Sys2Proof/Machine/LoopOps.lean ====
section
/-! DEFINITION. The loop engine as operations: bindings and budgets, filters, tables, position sources, the control law, faults, stops (spec/12). -/
namespace Sys2Proof.Machine

/-! ## Sinks -/

/-- round(clamp(u, lo, 1) × m) (R460). -/
def dutyCode (u lo m : F32) : Int := Flt.round (Flt.mul (Flt.clampF u lo Flt.one) m)

/-- 65,535 and 32,767 as binary32. -/
def f65535 : F32 := 0x477FFF00#32
def f32767 : F32 := 0x46FFFE00#32

/-- Drive a value into a loop's sink (R460). -/
def State.lpDrive (s : State) (lp : Nat) (u : F32) : State :=
  let k := s.f (LPE_LP_OUT.KIND lp)
  if k = 1 then s.setF (LPE_PWM_DUTY.DUTY (s.f (LPE_LP_OUT.INDEX lp))) (dutyCode u Flt.zero f65535).toNat
  else if k = 2 then
    let ty := s.f (LPE_LP_OUT.TYPE lp)
    let bs := if ty = 2 then leBytes 4 u.toNat
      else if ty = 1 then leBytes 2 (unsgn 16 (dutyCode u (Flt.negate Flt.one) f32767))
      else leBytes 2 (dutyCode u Flt.zero f65535).toNat
    s.putOut (s.f (LPE_LP_OUT.PORT lp)) (s.f (LPE_LP_OUT.NODE lp)) (s.f (LPE_LP_OUT.BYTE lp)) bs
  else s

/-- Drive a loop's SAFE value, which a PWM output also keeps for SLEEP (R444, R470). -/
def State.lpSafe (s : State) (lp : Nat) : State :=
  let u := s.word (LPE_LP_SAFE.word lp)
  let s := s.lpDrive lp u
  if s.f (LPE_LP_OUT.KIND lp) = 1 then
    { s with lpe := { s.lpe with safe := s.lpe.safe.set 0 (s.f (LPE_LP_OUT.INDEX lp)) (dutyCode u Flt.zero f65535).toNat } }
  else s

/-! ## Budgets and summaries (R449, R450) -/

/-- The sum of sample rates of some loops, as a fraction. -/
def State.lpRate (s : State) (l : List Nat) : Nat × Nat :=
  l.foldl (fun (a : Nat × Nat) lp =>
    let p := max 1 (s.f (LPE_LP_CFG.PERIOD_US lp))
    (a.1 * p + 1000000 * a.2, a.2 * p)) (0, 1)

/-- Loops in OPEN or CLOSED. -/
def State.lpRunning (s : State) : List Nat := loopList.filter s.lpRuns

/-- Does a loop read an ADC channel? -/
def State.lpAdc (s : State) (lp : Nat) : Bool := s.f (LPE_LP_IN.KIND lp) = 1

/-- A 64-bit mask of loops. -/
def loopMask (l : List Nat) : Nat := l.foldl (fun (a : Nat) lp => a + 2 ^ lp) 0

/-- Bring the summary registers in line with the loops' states. -/
def State.syncLoops (s : State) : State :=
  let run := s.lpRunning
  let ev := s.lpRate run
  let ad := s.lpRate (run.filter s.lpAdc)
  let s := (s.setF LPE_LOAD_EVAL.RATE (ev.1 / ev.2)).setF LPE_LOAD_ADC.RATE (ad.1 / ad.2)
  let s := (s.set64 LPE_ACTIVE_LO.word (loopMask run)).set64 LPE_FAULT_LO.word (loopMask (loopList.filter (fun lp => s.lpState lp = lpFAULT)))
  let s := (List.range 32).foldl (fun s c =>
    s.setB (LPE_PWM_DUTY.BOUND c) (s.lpOn.any (fun lp => s.f (LPE_LP_OUT.KIND lp) = 1 && s.f (LPE_LP_OUT.INDEX lp) = c))) s
  (List.range 32).foldl (fun s a => s.setB (LPE_ADC_VAL.BOUND a) (run.any (fun lp => s.lpAdc lp && s.f (LPE_LP_IN.INDEX lp) = a))) s

/-- The state of a loop at the start of the arbitration round (R446). -/
def State.lpStart (s : State) (lp : Nat) : Nat := ((((s.roundOf 4 mkLoop).filter (fun a => a / 4 = lp)).getLast?).map (· % 4)).getD (s.lpState lp)

/-- A loop changes state; a polygon loop takes its station's polygon with it (R464). -/
def State.lpTo (s : State) (lp v : Nat) : State :=
  let was := s.lpState lp
  let s := ((s.mark mkLoop (4 * lp + was)).setF (LPE_LP_STATUS.STATE lp) v).syncLoops
  if !s.lpPoly lp then s
  else
    let st := s.f (LPE_LP_IN.INDEX lp)
    if v = lpCLOSED ∧ was ≠ lpCLOSED then s.setPoly st polySPEED
    else if v ≠ lpCLOSED ∧ was = lpCLOSED then s.setPoly st polySTOPPED
    else s

/-- A loop enters OFF and its sink takes SAFE (R444). -/
def State.lpOff (s : State) (lp : Nat) : State :=
  let s := s.lpSafe lp
  ((s.modLoop lp (fun x => { x with due := none, first := false, prime := false, stopping := false, late := 0, dev := none })).lpTo lp lpOFF).setF
    (LPE_LP_STATUS.RAMPING lp) 0

/-! ## Faults (R468) -/

/-- Loops that read a loop, as source or set-point. -/
def State.lpReaders (s : State) (lp : Nat) : List Nat :=
  loopList.filter (fun q => s.lpRuns q && ((s.f (LPE_LP_IN.KIND q) = 6 && s.f (LPE_LP_IN.INDEX q) = lp) ||
    (s.f (LPE_LP_CFG.SP_SRC q) = 2 && s.f (LPE_LP_CFG.SP_LOOP q) = lp && !s.lpPoly q)))

/-- One loop faults: 1 NONFINITE, 2 STALE, 3 RANGE, 4 DEVIATION, 5 OVERRUN, 6 SOURCE_LOST. -/
def State.lpFail (s : State) (lp code : Nat) : State :=
  let s := s.modLoop lp (fun x => { x with due := some (s.word (LPE_LP_SAFE.word lp)), first := false, prime := false, stopping := false, late := 0, dev := none })
  let s := ((s.setF (LPE_LP_STATUS.FAULT lp) code).satInc (LPE_LP_CNT.FAULTS lp)).lpTo lp lpFAULT
  (s.report 0x0B (s.f (LPE_LP_CFG.FCLASS lp) + 1) code lp).pf (102 + lp)

/-- A fault and those it brings with it: each loop that reads a faulted one faults with SOURCE_LOST. -/
def State.lpFaults (s : State) : Nat → List (Nat × Nat) → State
  | 0, _ => s
  | _, [] => s
  | n + 1, (lp, code) :: t =>
    if s.lpRuns lp then (s.lpFail lp code).lpFaults n (t ++ (s.lpReaders lp).map (fun q => (q, 6))) else s.lpFaults n t

/-- A loop faults (R468). -/
def State.lpFault (s : State) (lp code : Nat) : State := s.lpFaults 4096 [(lp, code)]

/-- Loops whose lateral source or sink is a node that is lost fault with SOURCE_LOST (R521). -/
def State.nodeGone (s : State) (p node : Nat) : State :=
  loopList.foldl (fun s lp =>
    let src := s.f (LPE_LP_IN.KIND lp) = 5 && s.f (LPE_LP_IN.PORT lp) = p && s.f (LPE_LP_IN.NODE lp) = node
    let snk := s.f (LPE_LP_OUT.KIND lp) = 2 && s.f (LPE_LP_OUT.PORT lp) = p && s.f (LPE_LP_OUT.NODE lp) = node
    if s.lpRuns lp && (src || snk) then s.lpFault lp 6 else s) s

/-! ## Checks of OPEN and CLOSE (R445, R459 to R461) -/

/-- Is a lateral node in the enumerated range of a port, with the field inside its image? -/
def State.latFieldOk (s : State) (p node b ty image : Nat) : Bool :=
  decide (node < s.latNodes p ∧ ty ≤ 2 ∧ b + fieldWidth ty ≤ image)

/-- Do the bindings of a loop lie in range? -/
def State.lpRangeOk (s : State) (lp : Nat) : Bool :=
  let i := s.f (LPE_LP_IN.INDEX lp)
  let p := s.f (LPE_LP_IN.PORT lp)
  let nd := s.f (LPE_LP_IN.NODE lp)
  let encOk := fun (n : Nat) => decide (n < 28) && !s.encOnAxis n
  let inOk := match s.f (LPE_LP_IN.KIND lp) with
    | 0 => true
    | 1 => decide (i < 32)
    | 2 => encOk i
    | 3 => encOk i
    | 4 => s.stationOn i
    | 5 => s.latFieldOk p nd (s.f (LPE_LP_IN.BYTE lp)) (s.f (LPE_LP_IN.TYPE lp)) (s.f (LAT_NODE.ILEN p nd))
    | 6 => decide (i < 64)
    | _ => false
  let q := s.f (LPE_LP_OUT.PORT lp)
  let od := s.f (LPE_LP_OUT.NODE lp)
  let outOk := match s.f (LPE_LP_OUT.KIND lp) with
    | 0 => true
    | 1 => decide (s.f (LPE_LP_OUT.INDEX lp) < 32)
    | 2 => s.latFieldOk q od (s.f (LPE_LP_OUT.BYTE lp)) (s.f (LPE_LP_OUT.TYPE lp)) (s.f (LAT_NODE.OLEN q od))
    | _ => false
  let posOk := s.f (LPE_LP_POS.KIND lp) = 0 || encOk (s.f (LPE_LP_POS.INDEX lp))
  inOk && outOk && posOk

/-- Does a loop name a sink or a POLY input that another loop that is not OFF names (R461)? -/
def State.lpClash (s : State) (lp : Nat) : Bool :=
  (s.lpOn.filter (· ≠ lp)).any (fun q =>
    (s.lpPoly lp && s.lpPoly q && s.f (LPE_LP_IN.INDEX lp) = s.f (LPE_LP_IN.INDEX q)) ||
    (s.f (LPE_LP_OUT.KIND lp) = 1 && s.f (LPE_LP_OUT.KIND q) = 1 && s.f (LPE_LP_OUT.INDEX lp) = s.f (LPE_LP_OUT.INDEX q)) ||
    (match s.lpOutField lp, s.lpOutField q with
     | some a, some b => decide (a.1 = b.1 ∧ a.2.1 = b.2.1 ∧ a.2.2.1 < b.2.2.1 + b.2.2.2 ∧ b.2.2.1 < a.2.2.1 + a.2.2.2)
     | _, _ => false))

/-- Coefficients of a filter: b0, b1, b2, a1, a2. -/
structure Biquad where
  b0 : F32
  b1 : F32
  b2 : F32
  a1 : F32
  a2 : F32
  deriving DecidableEq, Repr

def State.lpB1 (s : State) (lp : Nat) : Biquad :=
  ⟨s.word (LPE_LP_B1B0.word lp), s.word (LPE_LP_B1B1.word lp), s.word (LPE_LP_B1B2.word lp), s.word (LPE_LP_B1A1.word lp), s.word (LPE_LP_B1A2.word lp)⟩
def State.lpB2 (s : State) (lp : Nat) : Biquad :=
  ⟨s.word (LPE_LP_B2B0.word lp), s.word (LPE_LP_B2B1.word lp), s.word (LPE_LP_B2B2.word lp), s.word (LPE_LP_B2A1.word lp), s.word (LPE_LP_B2A2.word lp)⟩

/-- 1 + a1 + a2, summed left to right (R454). -/
def Biquad.den (q : Biquad) : F32 := Flt.add (Flt.add Flt.one q.a1) q.a2

/-- The DC gain (R454). -/
def Biquad.gain (q : Biquad) : F32 := Flt.div (Flt.add (Flt.add q.b0 q.b1) q.b2) q.den

/-- The check of OPEN that fails first, 0 if none (R445). -/
def State.lpOpenCheck (s : State) (lp : Nat) : Nat :=
  let all := s.lpRunning ++ [lp]
  let ev := s.lpRate all
  let ad := s.lpRate (all.filter s.lpAdc)
  let fin := Flt.isFinite (s.word (LPE_LP_IN_GAIN.word lp)) && Flt.isFinite (s.word (LPE_LP_IN_OFS.word lp)) && Flt.isFinite (s.word (LPE_LP_SAFE.word lp))
  if !s.awake then 6
  else if !s.lpRangeOk lp || s.lpClash lp then 3
  else if 4000000 * ev.2 < ev.1 then 1
  else if s.lpAdc lp ∧ 3200000 * ad.2 < ad.1 then 2
  else if !fin || (s.b (LPE_LP_CFG.B1_EN lp) && Flt.eq (s.lpB1 lp).den Flt.zero) then 4
  else 0

/-- The REAL32 fields that CLOSE wants finite (R445). -/
def lpFiniteRegs (lp : Nat) : List Nat :=
  let base := LPE_LP_CMD.word lp
  [0x28, 0x2C, 0x30, 0x34, 0x38, 0x3C, 0x40, 0x44, 0x48, 0x4C, 0x50, 0x54, 0x58, 0x68, 0x6C, 0x70, 0x74, 0x78, 0x7C, 0x80, 0x84, 0x88, 0x8C, 0x90, 0x94,
   0x98].map (base + ·)

/-- Do the checks of CLOSE hold (R445, R454)? -/
def State.lpCloseOk (s : State) (lp : Nat) : Bool :=
  (lpFiniteRegs lp).all (fun o => Flt.isFinite (s.word o)) &&
  Flt.lt Flt.zero (s.word (LPE_LP_RAMP.word lp)) && Flt.lt Flt.zero (s.word (LPE_LP_STOP_RAMP.word lp)) &&
  Flt.le Flt.zero (s.word (LPE_LP_TF.word lp)) && Flt.le (s.word (LPE_LP_U_MIN.word lp)) (s.word (LPE_LP_U_MAX.word lp)) &&
  (!s.b (LPE_LP_CFG.B1_EN lp) || !Flt.eq (s.lpB1 lp).den Flt.zero) &&
  (!s.b (LPE_LP_CFG.B2_EN lp) || (!Flt.eq (s.lpB2 lp).den Flt.zero && !Flt.eq (s.lpB2 lp).gain Flt.zero)) &&
  (s.f (LPE_LP_CFG.SP_SRC lp) ≠ 2 || s.lpRuns (s.f (LPE_LP_CFG.SP_LOOP lp)))

/-! ## The law (R451 to R458) -/

/-- T: the binary32 value nearest PERIOD_US / 1,000,000 (R454). -/
def State.lpT (s : State) (lp : Nat) : F32 := Flt.ofRat (s.f (LPE_LP_CFG.PERIOD_US lp)) 1000000

/-- A filter step in transposed direct form II: the output and the new states. -/
def Biquad.run (q : Biquad) (x : F32) (st : F32 × F32) : F32 × F32 × F32 :=
  let out := Flt.add (Flt.mul q.b0 x) st.1
  (out, Flt.add (Flt.sub (Flt.mul q.b1 x) (Flt.mul q.a1 out)) st.2, Flt.sub (Flt.mul q.b2 x) (Flt.mul q.a2 out))

/-- The states primed with `x` as steady input, gain `g` (R455). -/
def Biquad.primed (q : Biquad) (g x : F32) : F32 × F32 :=
  let s2 := Flt.sub (Flt.mul q.b2 x) (Flt.mul (Flt.mul q.a2 g) x)
  (Flt.add (Flt.sub (Flt.mul q.b1 x) (Flt.mul (Flt.mul q.a1 g) x)) s2, s2)

/-- table(tb, θ) with linear interpolation (R457); `at'` is the offset of entry k. -/
def State.lpTable (s : State) (at' : Nat → Nat) (theta : F32) : F32 :=
  let q := Flt.mul theta 0x44800000#32
  let fl := Flt.floor q
  let k := (fl % 1024).toNat
  let a := s.word (at' k)
  let b := s.word (at' ((k + 1) % 1024))
  Flt.add a (Flt.mul (Flt.sub q (Flt.ofInt fl)) (Flt.sub b a))

/-- The position count c of a loop since its zero, as binary32 (R458). -/
def State.lpCount (s : State) (lp : Nat) : F32 :=
  let e := s.encIn (s.f (LPE_LP_POS.INDEX lp))
  let z := (s.loop lp).zero
  if s.f (LPE_LP_POS.KIND lp) = 1 then Flt.ofInt (e.cnt - z)
  else if e.fgGap = 0 then Flt.ofInt (e.fg - z)
  else Flt.ofRat ((e.fg - z) * (e.fgGap : Int) + ((s.now.toNat - e.fgAt : Nat) : Int)) e.fgGap

/-- The raw count of a loop's position source. -/
def State.lpPosCount (s : State) (lp : Nat) : Int :=
  let e := s.encIn (s.f (LPE_LP_POS.INDEX lp))
  if s.f (LPE_LP_POS.KIND lp) = 2 then e.fg else e.cnt

/-- θ of a loop (R458); a polygon loop's offset is its coarse offset (R465). -/
def State.lpTheta (s : State) (lp : Nat) : F32 :=
  let ofs := if s.lpPoly lp then (s.loop lp).ofs else s.word (LPE_LP_POS_OFS.word lp)
  let x := Flt.add (Flt.div (s.lpCount lp) (Flt.ofInt (s.f (LPE_LP_POS.PER_REV lp)))) ofs
  Flt.sub x (Flt.ofInt (Flt.floor x))

/-- dir of a loop's position source (R458): at rest where no count has come since the last sample, or no pulse for two pulse intervals. -/
def State.lpDir (s : State) (lp : Nat) : F32 :=
  let e := s.encIn (s.f (LPE_LP_POS.INDEX lp))
  if s.f (LPE_LP_POS.KIND lp) = 1 then (if e.cnt = (s.loop lp).pcnt then Flt.zero else Flt.ofInt e.dir)
  else if e.fgGap = 0 ∨ 2 * e.fgGap < s.now.toNat - e.fgAt then Flt.zero else Flt.one

/-- The feed-forward of a sample (R453, R457). -/
def State.lpFf (s : State) (lp : Nat) : F32 :=
  let ff := s.word (LPE_LP_FF0.word lp)
  if !s.b (LPE_LP_CFG.FF_EN lp) || s.f (LPE_LP_POS.KIND lp) = 0 then ff
  else
    let th := s.lpTheta lp
    let ff := Flt.add ff (Flt.mul (Flt.mul (s.word (LPE_LP_FRIC_SCALE.word lp)) (s.lpDir lp)) (s.lpTable (fun k => LPE_FRIC.word lp k) th))
    Flt.add ff (Flt.mul (s.word (LPE_LP_COG_SCALE.word lp)) (s.lpTable (fun k => LPE_COG.word lp k) th))

/-- The target of a loop (R462, R469). -/
def State.lpTarget (s : State) (lp : Nat) : F32 :=
  let sp := s.word (LPE_LP_SP.word lp)
  if (s.loop lp).stopping then s.word (LPE_LP_STOP_SP.word lp)
  else if s.lpPoly lp then Flt.zero
  else match s.f (LPE_LP_CFG.SP_SRC lp) with
    | 1 => Flt.mul sp (Flt.ofRat s.webSet 1000000)
    | 2 => Flt.mul sp (s.loop (s.f (LPE_LP_CFG.SP_LOOP lp))).u
    | _ => sp

/-- Measure a polygon loop: the phase error of the sweeping facet's BD, else the coarse error, which the spec bounds to half a facet period and otherwise
leaves open (R464); the Bool says whether BD was used. -/
def State.polyRaw (s : State) (st : Nat) : F32 × Bool × State :=
  let x := s.scnSt st
  if s.poly st = polySTOPPED then (Flt.zero, false, s)
  else if s.poly st ≠ polySPEED && x.bdSeen then (Flt.ofInt x.err, true, s)
  else
    let p := s.period
    let v : Int := (s.free.toNat % (p * 256) : Nat)
    (Flt.ofRat (v - (p * 128 : Nat)) 256, false, s.drew)

/-- The raw value of a loop (R459); ADC codes come with the sample. -/
def State.lpRaw (s : State) (lp : Nat) (code : BitVec 16) : F32 × Bool × State :=
  let i := s.f (LPE_LP_IN.INDEX lp)
  let x := s.loop lp
  match s.f (LPE_LP_IN.KIND lp) with
  | 1 => (Flt.ofRat code.toNat 65536, false, s)
  | 2 => (Flt.ofInt ((s.encIn i).cnt - x.open0), false, s)
  | 3 => (Flt.div (Flt.ofInt ((s.encIn i).cnt - x.cnt)) (s.lpT lp), false, s)
  | 4 => s.polyRaw i
  | 5 =>
    let p := s.f (LPE_LP_IN.PORT lp)
    let nd := s.f (LPE_LP_IN.NODE lp)
    let b := s.f (LPE_LP_IN.BYTE lp)
    match s.f (LPE_LP_IN.TYPE lp) with
    | 0 => (Flt.div (Flt.ofInt (s.inNat p nd b 2)) f65535, false, s)
    | 1 => (Flt.div (Flt.ofInt (sgn 16 (s.inNat p nd b 2))) f32767, false, s)
    | _ => (BitVec.ofNat 32 (s.inNat p nd b 4), false, s)
  | 6 => ((s.loop i).u, false, s)
  | _ => (Flt.zero, false, s)

/-- Is a loop's lateral source stale (R468)? -/
def State.lpStale (s : State) (lp : Nat) : Bool :=
  if s.f (LPE_LP_IN.KIND lp) ≠ 5 then false
  else
    let p := s.f (LPE_LP_IN.PORT lp)
    let lim := 1000 * max (8 * s.f (LPE_LP_CFG.PERIOD_US lp)) (3 * s.f (LAT_PORT_STATUS.CYCLE_NOW p))
    decide ((s.latPort p).fresh.getD 0 (s.f (LPE_LP_IN.NODE lp)) + lim < s.now.toNat + 1)

/-- Is a source of a loop lost: its source loop not running, its lateral node lost, its set-point loop not running, or a polygon without counts (R467, R468)? -/
def State.lpLost (s : State) (lp : Nat) : Bool :=
  let closed := s.lpState lp = lpCLOSED
  let src := s.f (LPE_LP_IN.KIND lp) = 6 && !s.lpRuns (s.f (LPE_LP_IN.INDEX lp))
  let sp := closed && !s.lpPoly lp && s.f (LPE_LP_CFG.SP_SRC lp) = 2 && !s.lpRuns (s.f (LPE_LP_CFG.SP_LOOP lp))
  let lost := fun (p nd : Nat) => s.f (LAT_NODE.STATE p nd) = nodeLOST
  let node := (s.f (LPE_LP_IN.KIND lp) = 5 && lost (s.f (LPE_LP_IN.PORT lp)) (s.f (LPE_LP_IN.NODE lp))) ||
    (s.f (LPE_LP_OUT.KIND lp) = 2 && lost (s.f (LPE_LP_OUT.PORT lp)) (s.f (LPE_LP_OUT.NODE lp)))
  let e := s.encIn (s.f (LPE_LP_POS.INDEX lp))
  let last := if s.f (LPE_LP_POS.KIND lp) = 2 then e.fgAt else e.at'
  let still := closed && s.lpPoly lp && (s.f (LPE_LP_POS.KIND lp) = 0 || decide (8 * s.period < s.now.toNat - last)) && decide (100000 < s.f SCN_WEB_SPEED.SPEED)
  src || sp || node || still

/-- The facet rate that the position source shows lies within 1 % of the set-point (R331, R464). -/
def State.atFacetRate (s : State) (lp : Nat) : Bool :=
  let e := s.encIn (s.f (LPE_LP_POS.INDEX lp))
  let gap := if s.f (LPE_LP_POS.KIND lp) = 2 then e.fgGap else e.gap
  let per := s.f (LPE_LP_POS.PER_REV lp)
  let v := s.webSet
  -- facet period that the web speed set-point asks for, × v; measured facet period × 8
  let want := facetNs 0 * webSpeed 0
  let got := gap * per
  s.f (LPE_LP_POS.KIND lp) ≠ 0 && decide (0 < gap ∧ 0 < v ∧ 100 * dist (got * v) (8 * want) ≤ got * v)

/-- What one evaluation computes. -/
structure LpEval where
  x : Loop
  u : F32
  sat : Bool
  ramping : Bool
  bad : Bool
  deriving DecidableEq, Repr

/-- The measurement path: filter 1 primed where it starts or re-anchors, then run. -/
def lpMeasure (en : Bool) (q : Biquad) (prime : Bool) (x : F32) (st : F32 × F32) : F32 × F32 × F32 :=
  if !en then (x, st)
  else
    let st := if prime then q.primed q.gain x else st
    q.run x st

/-- The evaluation of a CLOSED loop after y is known (R453 to R456). -/
def State.lpLaw (s : State) (lp : Nat) (x : Loop) (y : F32) (re : Bool) : LpEval :=
  let w := fun (o : Nat) => s.word o
  let en2 := s.b (LPE_LP_CFG.B2_EN lp)
  let ff := s.lpFf lp
  let lo := w (LPE_LP_U_MIN.word lp)
  let hi := w (LPE_LP_U_MAX.word lp)
  let x := if x.first then
      let m := Flt.clampF (w (LPE_LP_MANUAL.word lp)) lo hi
      let i := Flt.div (Flt.sub m ff) (if en2 then x.g2 else Flt.one)
      { x with r := y, yp := y, d := Flt.zero, i := i, b2s := if en2 then (s.lpB2 lp).primed x.g2 i else x.b2s }
    else if re then { x with r := y, yp := y }
    else x
  let tgt := s.lpTarget lp
  let step := if x.stopping then x.dstop else x.dr
  let gapR := Flt.sub tgt x.r
  let r := if Flt.le (Flt.absF gapR) step then tgt else Flt.add x.r (Flt.clampF gapR (Flt.negate step) step)
  let e := Flt.sub r y
  let p := Flt.mul (w (LPE_LP_KP.word lp)) e
  let d := Flt.add (Flt.mul x.ad x.d) (Flt.mul x.bd (Flt.sub x.yp y))
  let v := Flt.add (Flt.add p x.i) d
  let b := if en2 then (s.lpB2 lp).run v x.b2s else (v, x.b2s)
  let uu := Flt.add b.1 ff
  let u := Flt.clampF uu lo hi
  let ke := Flt.mul x.kit e
  let hold := (Flt.lt hi uu && Flt.lt Flt.zero ke) || (Flt.lt uu lo && Flt.lt ke Flt.zero)
  let i := if hold then x.i else Flt.add x.i ke
  let all := [r, y, e, i, d, u, ff, b.2.1, b.2.2, x.b1s.1, x.b1s.2]
  ⟨{ x with r := r, yp := y, y := y, d := d, i := i, u := u, b2s := b.2, first := false }, u, !Flt.eq u uu, !Flt.eq r tgt, all.any (fun z => !Flt.isFinite z)⟩

/-- Show an evaluation in the loop's registers. -/
def State.lpShow (s : State) (lp : Nat) (x : Loop) (sat ramping : Bool) : State :=
  let s := (s.setWord (LPE_LP_R_NOW.word lp) x.r).setWord (LPE_LP_Y_NOW.word lp) x.y
  let s := (s.setWord (LPE_LP_U_NOW.word lp) x.u).setWord (LPE_LP_I_NOW.word lp) x.i
  (s.setB (LPE_LP_STATUS.SAT lp) sat).setB (LPE_LP_STATUS.RAMPING lp) ramping

/-! ## Stops and power (R469, R470) -/

/-- A C3 or C4: each loop but the polygon loops acts by its STOP field. -/
def State.loopsStop (s : State) : State :=
  loopList.foldl (fun s lp =>
    if !s.lpRuns lp || s.lpPoly lp then s
    else match s.f (LPE_LP_CFG.STOP lp) with
      | 2 => s.lpOff lp
      | 1 => if s.lpState lp = lpCLOSED then s.modLoop lp (fun x => { x with stopping := true }) else s
      | _ => s) s

/-- The Sump reports recovery: targets return to their sources. -/
def State.loopsResume (s : State) : State := loopList.foldl (fun s lp => s.modLoop lp (fun x => { x with stopping := false })) s

/-- Entry to SLEEP: every loop enters OFF, each PWM output holds a SAFE duty. -/
def State.loopsSleep (s : State) : State :=
  let s := s.lpOn.foldl (fun s lp => s.lpOff lp) s
  { s with lpe := { s.lpe with pwm := s.lpe.safe } }

end Sys2Proof.Machine
end

