-- ==== Sys2Proof/Machine/Scan.lean ====
section
/-! DEFINITION. The meanings of the scan-timing commands (spec/09): triggers, beam detect, the scan window, classes, PLLs, routes, offsets. -/
namespace Sys2Proof.Machine

/-! ## Triggers (R322, R324, R350 to R353, R374) -/

/-- Lines between a station's triggers: 64, or 32 in half-advance (R322). -/
def State.trigStep (s : State) : Nat := if s.b SCN_CTRL.HALF then 32 else 64

/-- L[st] in 1/16 line. -/
def State.line16 (s : State) (st : Nat) : Nat :=
  if s.f (SCN_ST_STATE.TRK st) = 1 then 16 * s.lineAt st + s.scn.sub % 16 else s.scn.sub

/-- The position of the present trigger, in 1/16 line: the one that stands, or the last at the station's phase (R322, R370). -/
def State.trigNow (s : State) (st : Nat) : Nat :=
  match (s.scnSt st).trig with
  | some t => t
  | none =>
    let step := s.trigStep
    let r := (s.ofs st + 4 + step - s.f (EXP_WIN.WORK st)) % step
    let l := s.lineAt st
    16 * (l - (l + step - r) % step)

/-- The page and sweep number that a trigger at `pos` (1/16 line) starts: sweeps run on for the lines that an offset pushes past the last furrow; the
page has ended there by then, and its sweeps count on whatever the gap has moved (R282, R324). -/
def State.sweepAt (s : State) (st pos : Nat) : Option (Frame × Page × Nat) :=
  let step := s.trigStep
  let l := pos / 16
  let here := (s.pages.frames.filterMap (fun f => (f.page.bind s.page?).map (fun p => (f, p)))).filterMap (fun (x : Frame × Page) =>
    let top := s.topAt x.1 st
    if x.1.latched && x.2.desc.stations.getLsbD st && !x.2.doneSt.getLsbD st && decide (top ≤ l ∧ (l - top) / step ≤ x.2.desc.furrows * 64 / step)
    then some (x.1, x.2, (l - top) / step) else none)
  let was := (s.scnSt st).sweep
  match here.head?, was.page.bind s.page? with
  | some h, _ => some h
  | none, some p =>
    if p.doneSt.getLsbD st && decide (was.k + 1 ≤ p.desc.furrows * 64 / step) then some ((s.frameOf p.seq).getD {}, p, was.k + 1) else none
  | none, none => none

/-- Does a sweep carry a line of its page: some group has a page line among its 64 ring lines (R282, R352)? -/
def State.carries (s : State) (p : Page) (st k : Nat) : Bool :=
  (List.range 750).any (fun g => decide (s.trigStep * k < p.desc.length + s.offOf st g))

/-- The exposure stage for one column (R374). -/
def expoColumn (w dead : Nat) (fill : Nat → Nat) (cin : List (BitVec 5)) : List (BitVec 5) :=
  let code := fun (l : Nat) => (cin.getD l 0).toNat
  let isDead := fun (l : Nat) => bit dead (w + l)
  let missing := fun (l : Nat) => if isDead l then code l % 16 else 0
  (List.range 64).map (fun n =>
    if isDead n then 0
    else
      let lo := if n = 0 then 0 else missing (n - 1)
      let hi := if n = 63 then 0 else missing (n + 1)
      let addLo := if lo = 0 then 0 else fill lo
      let addHi := if hi = 0 then 0 else fill hi
      let add := addLo + addHi
      if add = 0 then cin.getD n 0
      else
        let wn := code n % 16
        let j := if 0 < wn then code n / 16 else if 0 < addLo then code (n - 1) / 16 else code (n + 1) / 16
        BitVec.ofNat 5 (16 * j + min 15 (wn + add)))

/-- FILL[m] of a station's working fill table. -/
def State.fillOf (s : State) (st m : Nat) : Nat := bits (s.wword (EXP_FILL.word st (m / 8))).toNat (4 * (m % 8)) 4

/-- The 320-bit word of a column (R351). -/
def colWord (codes : List (BitVec 5)) : BitVec 320 :=
  codes.foldr (fun c a => (a <<< 5) ||| (BitVec.setWidth 320 c)) 0

/-- CRC-8 of SWEEP_START: polynomial 0x07, initial value 0 (R350). -/
def crc8 (bs : List Byte) : BitVec 8 :=
  let step := fun (c : BitVec 8) => if c.getLsbD 7 then (c <<< 1) ^^^ 0x07#8 else c <<< 1
  bs.foldl (fun c b => step (step (step (step (step (step (step (step (c ^^^ b))))))))) 0#8

/-- A block's payload from its eight bytes (R350). -/
def payload (bs : List Byte) : BitVec 64 := BitVec.ofNat 64 (leNat bs)

/-- SWEEP_START of a lane. -/
def sweepStart (lane flags sweep facet wofs : Nat) : BitVec 64 :=
  let b := leBytes 1 0x78 ++ leBytes 1 lane ++ leBytes 1 flags ++ leBytes 2 sweep ++ leBytes 1 facet ++ leBytes 1 wofs
  payload (b ++ [crc8 b])

/-- SWEEP_END of a lane. -/
def sweepEnd (lane sweep : Nat) : BitVec 64 := payload (leBytes 1 0x87 ++ leBytes 1 lane ++ leBytes 2 sweep ++ leBytes 2 750 ++ leBytes 2 0)

/-- The blocks of one column group on one lane: 40 data blocks and the GROUP block (R351). -/
def groupBlocks (lane g : Nat) (cols : List (BitVec 320)) : List (Bool × BitVec 64) :=
  let data := (List.range 40).map (fun i =>
    let j := 8 * i + lane
    ((cols.getD (j / 5) 0) >>> (64 * (j % 5))).setWidth 64)
  let crc := crc32c ((data.map (fun w => leBytes 8 w.toNat)).flatten)
  data.map (fun w => (true, w)) ++ [(false, payload (leBytes 1 0x2D ++ leBytes 1 lane ++ leBytes 2 g ++ leBytes 4 crc.toNat))]

/-- The columns of group `g` of a sweep as the exposure stage leaves them. -/
def State.groupCols (s : State) (p : Page) (st k g : Nat) : List (BitVec 320) :=
  let w := s.f (EXP_WIN.WORK st)
  let d := s.wdead st
  (List.range 64).map (fun i => colWord (expoColumn w d (s.fillOf st) ((List.range 64).map (fun l => s.sweepCode p st k l (64 * g + i)))))

/-- Send a sweep on the eight lanes of a port; with REVERSE set, lane i is sent where lane 7 − i would be (R351, R352, R355). -/
def State.sendSweep (s : State) (bl st facet : Nat) (page : Option (Page × Nat)) (last : Bool) : State :=
  let p := s.port bl
  let flags := (if page.isSome then 1 else 0) + (if s.b SCN_CTRL.HALF then 2 else 0) + (if last then 4 else 0)
  let n := p.sweepNo
  let groups := match page with
    | some (pg, k) => (List.range 750).map (fun g => (g, s.groupCols pg st k g))
    | none => []
  let s := (List.range 8).foldl (fun s lane =>
    let blocks := (false, sweepStart lane flags n facet (s.f (EXP_WIN.WORK st))) :: (groups.map (fun x => groupBlocks lane x.1 x.2)).flatten ++
      [(false, sweepEnd lane n)]
    s.emit (.lane bl (if s.b (SCN_BL_CTRL.REVERSE bl) then 7 - lane else lane) blocks)) s
  let s := s.setPort bl { p with sweepNo := (n + 1) % 65536 }
  if page.isSome then s.wrapInc (SCN_BL_SWEEPS.COUNT bl) else s

/-- The freeboard of a station, counted just before a trigger (R299). -/
def State.countFreeboard (s : State) (st : Nat) : State :=
  let n := min 3 (s.flm.furrows.filter (fun f => f.st = st && f.done &&
    (s.frameOf f.page).any (fun fr => decide (s.lineAt st ≤ s.deadline fr st f.k)))).length
  (s.setF (FLM_FB.NOW st) n).lower (FLM_FB.MIN st) n

/-- The follow term W of R338, from the last eight facet periods; a clamp sets TRIM_CLAMP. -/
def State.followTerm (s : State) (st : Nat) : State :=
  let x := s.scnSt st
  match s.b SCN_CTRL.FOLLOW, x.bd.head?, x.bd.getLast? with
  | true, some a, some b =>
    let n := x.bd.length - 1
    if n < 8 ∨ a ≤ b then s.modScnSt st (fun x => { x with follow := 0 })
    else
      let raw : Int := ((s.period * n : Nat) - (a - b : Nat) : Int) * 2 ^ 20 / ((a - b : Nat) : Int)
      let w := clamp (-10486) 10486 raw
      let s := s.modScnSt st (fun x => { x with follow := w })
      if w = raw then s else s.raise (SCN_ST_STATE.TRIM_CLAMP st)
  | _, _, _ => s.modScnSt st (fun x => { x with follow := 0 })

/-- The facet whose tables serve: facet 0 until identification and while FID_FAIL is set (R335). -/
def State.facetNow (s : State) (st : Nat) : Nat := s.f (SCN_ST_STATE.FACET st)

/-- The facet that sweeps next (R334). -/
def State.facetNext (s : State) (st : Nat) : Nat := if (s.scnSt st).facet0.isSome then (s.facetNow st + 1) % 8 else 0

/-- The modulator word F + Z + W for facet `f` and zone `z`; a clamp is a C0 event (R337). -/
def State.modWord (s : State) (st f z : Nat) : State :=
  let raw : Int := sgn 16 (s.wf (SCN_FACET_TRIM.TRIM st f)) + sgn 16 (s.wf (SCN_ZONE_TRIM.TRIM st z)) + (s.scnSt st).follow
  let w := clamp (-20971) 20971 raw
  let s := s.modScnSt st (fun x => { x with word := w, zone := z })
  if w = raw then s else (s.raise (SCN_ST_STATE.TRIM_CLAMP st)).scnReport 0 0x18 st f

/-- Routes that wait and concern one idle station alone take effect at its trigger (R361): a change of side that leaves each side at six. -/
def State.routeAlone (s : State) (st : Nat) : State :=
  let w := s.word (SCN_ROUTE.word st)
  let sideLoad := (s.enabledStations.filter (fun u => u ≠ st && s.wf (SCN_ROUTE.SIDE u) = s.f (SCN_ROUTE.SIDE st))).length
  if s.b (SCN_ROUTE.PEND st) ∧ s.f (SCN_ROUTE.PORT st) = s.portOf st ∧ sideLoad < 6 then
    ((s.setWork (SCN_ROUTE.word st) (w &&& 0x7FFFFFFF#32)).setF (SCN_ROUTE.PEND st) 0).pf (72 + st)
  else s

/-- A trigger fires at `pos`: the freeboard is counted, a route of this station alone taken, the next trigger stands (moved by at most SLEW), the modulator
word for zone 0 is made and the SWEEP event raised (R299, R322, R324, R327, R337, R338, R361). -/
def State.fireTrigger (s : State) (st pos : Nat) : State :=
  let s := s.countFreeboard st
  let s := if s.stationBusy st then s else s.routeAlone st
  let x := s.scnSt st
  let slew : Int := s.f SCN_CTRL.SLEW
  let m := clamp (-slew) slew x.moving
  let nextPos := ((pos + 16 * s.trigStep : Nat) + m : Int).toNat
  let facet := s.facetNext st
  let s := s.modScnSt st (fun x => { x with trig := some nextPos, trigAt := s.now.toNat, bdSeen := false, moving := x.moving - m, isOpen := false })
  let s := s.setB (SCN_ST_STATE.MOVE st) (decide (x.moving - m ≠ 0))
  ((s.followTerm st).modWord st facet 0).event (140 + st)

/-- What a page at its sweep `k` meets: the port must be UP at its first sweep (R357), and the polygon in lock at every printing sweep (R332). -/
def State.sweepChecks (s : State) (st : Nat) (f : Frame) (p : Page) (k : Nat) : State :=
  let bl := s.portOf st
  let up := s.blState bl = blUP && s.f (EXP_HEAD_STATE.STATE st) ≠ 3
  let s := if k = 0 && !f.blank && !up then s.linkSpoil p.seq st bl 0x1C else s
  if !f.blank && s.carries p st k && s.poly st ≠ polyLOCKED && s.poly st ≠ polyLOST then s.lockLoss st else s

/-- May the sweep of a page carry its columns (R282, R332, R352, R357)? -/
def State.sweepPrints (s : State) (st : Nat) (f : Frame) (p : Page) (k : Nat) : Bool :=
  !f.blank && p.spoil.isNone && s.carries p st k && !(s.port (s.portOf st)).laneBad && s.poly st = polyLOCKED && s.f (CLK_PLL_STATE.STATE st) = 3

/-- The sweep's place in its page is kept, and an UP port sends it: the columns of a page that prints, else an empty sweep (R350 to R353). -/
def State.goSweep (s : State) (st : Nat) (hit : Option (Frame × Page × Nat)) : State :=
  let facet := s.facetNext st
  let page := hit.bind (fun y => if s.sweepPrints st y.1 y.2.1 y.2.2 then some y.2 else none)
  let last := page.any (fun y => !s.carries y.1 st (y.2 + 1))
  let t := s.modScnSt st (fun x => { x with sweep := ⟨hit.bind (fun y => if y.1.blank then none else some y.2.1.seq), (hit.map (fun y => y.2.2)).getD 0, page.isSome, facet⟩ })
  if t.blState (t.portOf st) = blUP then t.sendSweep (t.portOf st) st facet page last else t

/-- The sweep that starts at a trigger. -/
def State.runSweep (s : State) (st pos : Nat) : State :=
  match s.sweepAt st pos with
  | some h =>
    let s := s.sweepChecks st h.1 h.2.1 h.2.2
    s.goSweep st (s.sweepAt st pos)
  | none => s.goSweep st none

/-- SWEEP_TRIGGER (R282, R299, R322, R324, R327, R337, R338, R350 to R353, R357, R361, R370, R374): the trigger of a station fires. -/
def execSweepTrigger (st : Nat) (s : State) : Host.Outcome State Fault Refusal :=
  let pos := s.trigNow st
  if !s.stationOn st || s.poweredDown (SCN_ROUTE.word st) || decide (s.line16 st < pos) then .next s
  else .next ((s.fireTrigger st pos).runSweep st pos)

/-! ## Beam detect (R330 to R335, R339) -/

/-- The phase error of a BD pulse at this instant, wrapped into −P/2 to P/2 (R330). -/
def State.phaseError (s : State) (st : Nat) : Int :=
  let p : Int := s.period
  let d : Int := (s.now.toNat : Int) - ((s.scnSt st).trigAt : Int)
  (d + p / 2) % p - p / 2

/-- |e|, in ns. -/
def absI (e : Int) : Nat := e.natAbs

/-- In LOCKED, each BD advances the facet identity, and its interval counts until 256 revolutions are measured (R334). -/
def State.countFacet (s : State) (st : Nat) : State :=
  let x := s.scnSt st
  let n := x.facets + 1
  let iv := match x.bd with
    | a :: b :: _ => a - b
    | _ => 0
  let sums := (List.range 8).map (fun i => x.fidSum.getD i 0 + (if n % 8 = i then iv else 0))
  let s := s.setScnSt st { x with facets := n, fidSum := if n ≤ 2048 then sums else x.fidSum }
  match x.facet0 with
  | some m => s.setF (SCN_ST_STATE.FACET st) ((n + 8 - m) % 8)
  | none => s

/-- The start delay D for the sweeping facet; a clamp is a C0 event (R339). -/
def State.startDelay (s : State) (st : Nat) : State :=
  let f := s.facetNow st
  let raw : Int := s.wf (SCN_SOL.TAPS st) + sgn 13 (s.wf (SCN_FACET_DLY.TAPS st f))
  let d := clamp 65536 532480 raw
  let s := s.modScnSt st (fun x => { x with delay := d.toNat })
  if d = raw then s else (s.raise (SCN_ST_STATE.DLY_CLAMP st)).scnReport 0 0x17 st f

/-- A pulse that arrived is noted: its phase error and time, and the coarse crossing of its facet, which now equals the BD time (R330, R465). -/
def State.noteBd (s : State) (st : Nat) : State :=
  let e := s.phaseError st
  let s := s.setF (SCN_PHASE.ERR st) (unsgn 16 (clamp (-32767) 32767 e))
  let s := s.modScnSt st (fun x => { x with bd := (s.now.toNat :: x.bd).take 9, bdSeen := true, missRun := 0, err := e })
  match s.polyLoop st with
  | some lp => (s.modLoop lp (fun x => { x with ofs := Flt.ofRat (s.free.toNat % 2 ^ 24) (2 ^ 24) })).drew
  | none => s

/-- The polygon's state after a pulse with phase error `e`: 64 pulses in the window lock it; in lock the facet counts on, and an error beyond LOSS while a
page's sweep prints is a loss (R331, R332, R334). -/
def State.polyAfterBd (s : State) (st : Nat) (e : Int) : State :=
  if s.poly st = polyACQUIRE then
    let n := if absI e ≤ s.scaled (s.f (SCN_LOCK.WIN_NS st)) then (s.scnSt st).inWin + 1 else 0
    if 64 ≤ n then s.setPoly st polyLOCKED else s.modScnSt st (fun x => { x with inWin := n })
  else if s.poly st = polyLOCKED then
    let s := s.countFacet st
    if (s.scnSt st).sweep.page.isSome && s.printing st && decide (s.scaled (s.f (SCN_LOCK.LOSS_NS st)) < absI e) then s.lockLoss st else s
  else s

/-- BD_PULSE (R327, R330 to R332, R334, R339, R465): the phase error is measured, the polygon's state follows, the start delay is fixed. -/
def execBdPulse (st : Nat) (s : State) : Host.Outcome State Fault Refusal :=
  if !s.stationOn st || s.poweredDown (SCN_ROUTE.word st) then .next s
  else .next (((s.noteBd st).polyAfterBd st (s.phaseError st)).startDelay st)

/-- BD_MISSED (R333): a predicted pulse is missed; two in a row are a loss of lock. While the station prints, R332 governs. -/
def execBdMissed (st : Nat) (s : State) : Host.Outcome State Fault Refusal :=
  if !s.stationOn st || s.poly st ≠ polyLOCKED || s.printing st then .next s
  else
    let s := ((s.satInc (SCN_BD_CNT.MISS st)).scnReport 0 0x14 st (s.facetNow st)).modScnSt st (fun x => { x with missRun := x.missRun + 1 })
    .next (if 2 ≤ (s.scnSt st).missRun then s.lockLoss st else s)

/-- LOCK_LOSS_TIMEOUT (R332): no BD by the trigger plus LOSS during a printing sweep. -/
def execLockLossTimeout (st : Nat) (s : State) : Host.Outcome State Fault Refusal :=
  if !s.stationOn st || s.poly st ≠ polyLOCKED || !s.printing st || (s.scnSt st).bdSeen then .next s
  else .next (s.lockLoss st)

/-- Index of the largest element of a list. -/
def argMax (l : List Nat) : Nat :=
  ((List.range l.length).foldl (fun (a : Nat) (i : Nat) => if l.getD a 0 < l.getD i 0 then i else a) 0)

/-- FACET_ID_DONE (R334, R335): after 256 revolutions in lock the facets are identified, or FID_FAIL is set. -/
def execFacetIdDone (st : Nat) (s : State) : Host.Outcome State Fault Refusal :=
  let x := s.scnSt st
  if !s.stationOn st || s.poly st ≠ polyLOCKED || decide (x.facets < 2048) || x.facet0.isSome || s.b (SCN_ST_STATE.FID_FAIL st) then .next s
  else
    let m := argMax x.fidSum
    let top := x.fidSum.getD m 0
    let second := ((List.range 8).filter (fun i => i ≠ m)).foldl (fun (a : Nat) (i : Nat) => max a (x.fidSum.getD i 0)) 0
    if (top - second) * 1000 * facetNs 0 < s.f SCN_FID_CFG.MIN_SEP_PS * 256 * s.period then
      .next ((s.setF (SCN_ST_STATE.FID_FAIL st) 1).scnReport 1 0x15 st)
    else .next ((s.setScnSt st { x with facet0 := some m }).setF (SCN_ST_STATE.FACET st) ((x.facets + 8 - m) % 8))

/-! ## The scan window (R336, R337, R352, R356) -/

/-- SCAN_WINDOW_OPEN (R336, R339, R352): pixel 0 starts D taps after BD, unless lock was lost (R332). -/
def execScanWindowOpen (st : Nat) (s : State) : Host.Outcome State Fault Refusal :=
  let x := s.scnSt st
  if !s.stationOn st || !x.sweep.print || !x.bdSeen || x.isOpen || s.poly st ≠ polyLOCKED then .next s
  else .next (((s.modScnSt st (fun x => { x with isOpen := true })).modWord st x.sweep.facet 0).emit (.clock (s.portOf st) true))

/-- ZONE_START (R336, R337): the next zone of 1,500 pixels begins. -/
def execZoneStart (st zone : Nat) (s : State) : Host.Outcome State Fault Refusal :=
  let x := s.scnSt st
  if !s.stationOn st || !x.isOpen || decide (32 ≤ zone) || decide (zone ≠ x.zone + 1) then .next s
  else .next (s.modWord st x.sweep.facet zone)

/-- SCAN_WINDOW_CLOSE (R336, R352, R356): pixel 47,999 has ended; the forwarded clock returns to idle and the head's link registers are read. -/
def execScanWindowClose (st : Nat) (s : State) : Host.Outcome State Fault Refusal :=
  if !s.stationOn st || !(s.scnSt st).isOpen then .next s
  else .next (((s.modScnSt st (fun x => { x with isOpen := false })).emit (.clock (s.portOf st) false)).queuePoll (s.portOf st))

/-! ## Losses of encoders (R320) -/

/-- Is an encoder whose counts are `scale` 2^-28 line apart lost: above 0.1 m/s no count for eight expected periods at the speed estimated at the last
count, or more than four illegal transitions within 1 ms (R320)? A line is 127 / 12 µm. -/
def State.encLost (s : State) (n scale : Nat) : Bool :=
  let e := s.lpe.enc.getD {} n
  let t := s.now.toNat
  let v := s.f SCN_WEB_SPEED.SPEED
  decide (4 < (e.ill.filter (fun x => decide (t < x + 1000000))).length) ||
    (decide (100000 < v) && decide (8 * scale * 127 * 10 ^ 9 ≤ (t - e.at') * 12 * 2 ^ 28 * v))

/-- WEB_ENCODER_LOST (R320): a C4. Without a local encoder the loss is the cascade's. -/
def execWebEncoderLost (s : State) : Host.Outcome State Fault Refusal :=
  if s.f SCN_WEB_CFG.SRC ≠ 0 || s.poweredDown SCN_WEB_CFG.word || !s.encLost (s.f SCN_WEB_CFG.ENC) (s.f SCN_WEB_SCALE.SCALE) then .next s
  else .next ((s.satInc SCN_ENC_ERR.LOST).report 0x07 4 0x10 0xFFFF)

/-- PC_ENCODER_LOST (R320): the station falls back to the web line count. -/
def execPcEncoderLost (st : Nat) (s : State) : Host.Outcome State Fault Refusal :=
  if !s.stationOn st || s.f (SCN_ST_STATE.TRK st) ≠ 1 || s.poweredDown SCN_WEB_CFG.word ||
    !s.encLost (s.f (SCN_TRK.PC_ENC st)) (s.f (SCN_PC_SCALE.SCALE st)) then .next s
  else .next (((s.satInc SCN_ENC_ERR.LOST).setF (SCN_ST_STATE.TRK st) 2).scnReport 1 0x11 st)

/-! ## PLLs (R341 to R347) -/

/-- Bit `pll` of CLK_STATUS.LOCKED. -/
def State.setLocked (s : State) (pll : Nat) (b : Bool) : State := s.setF CLK_STATUS.LOCKED (setBit (s.f CLK_STATUS.LOCKED) pll b)

/-- A PLL searches again: not locked, SEARCH (R343). -/
def State.pllSearch (s : State) (pll : Nat) : State :=
  ((s.setF (CLK_PLL_STATE.STATE pll) 1).setF (CLK_PLL_STATE.LOCKF pll) 0).setLocked pll false

def State.modPll (s : State) (pll : Nat) (g : PllSt → PllSt) : State :=
  { s with scn := { s.scn with plls := s.scn.plls.set {} pll (g (s.scn.plls.getD {} pll)) } }

/-- The pixel PLLs take a class's settings and lock again as soon as they are powered (R341, R348). -/
def State.retunePlls (s : State) (c : Nat) : State :=
  let x := pixelPll c
  (List.range 12).foldl (fun s pll =>
    let s := ((s.setF (CLK_PLL_CFG.ODIV pll) x.1).setF (CLK_PLL_CFG.N_INT pll) x.2.1).setF (CLK_PLL_FRAC.FRAC pll) x.2.2
    if s.f (CLK_PLL_STATE.STATE pll) = 0 then s else (s.pllSearch pll).modPll pll (fun p => { p with attempts := 0 })) s

/-- The band whose centre is nearest the target: centres lie at 3,262.5 + 125 b MHz (R343). -/
def State.pllBand (s : State) (pll : Nat) : Nat :=
  let v := 100 * (s.f (CLK_PLL_CFG.N_INT pll) * 2 ^ 24 + s.f (CLK_PLL_FRAC.FRAC pll))
  min 31 ((v - 3200 * 2 ^ 24) / (125 * 2 ^ 24))

/-- PLL_LOCK_START (R343, R344): the band is chosen, the dither seed loaded (0 as 1), the loop closed. -/
def execPllLockStart (pll : Nat) (s : State) : Host.Outcome State Fault Refusal :=
  if 16 ≤ pll ∨ 2 ≤ s.f (CLK_PLL_STATE.STATE pll) then .next s
  else
    let seed := s.f (CLK_PLL_SEED.SEED pll)
    let s := s.modPll pll (fun p => { p with lfsr := BitVec.ofNat 16 (max 1 seed), dither := s.b (CLK_PLL_CFG.DITHER pll) })
    .next (((s.setF (CLK_PLL_STATE.BAND pll) (s.pllBand pll)).setF (CLK_PLL_STATE.STATE pll) 2).setF (CLK_PLL_STATE.LOCKF pll) 0)

/-- PLL_LOCK_DECLARED (R345): LOCKF has reached 0.80 V. -/
def execPllLockDeclared (pll : Nat) (s : State) : Host.Outcome State Fault Refusal :=
  if 16 ≤ pll ∨ s.f (CLK_PLL_STATE.STATE pll) ≠ 2 then .next s
  else
    let s := ((s.setF (CLK_PLL_STATE.STATE pll) 3).setF (CLK_PLL_STATE.LOCKF pll) 1).satInc (CLK_PLL_STATE.LOCKS pll)
    .next ((s.setLocked pll true).modPll pll (fun p => { p with attempts := 0 }))

/-- PLL_LOCK_LOST (R25, R345, R347): LOCKF has fallen below 0.60 V. A pixel PLL's loss is a C3 while its station prints, else a C1; the PLL searches
again. What a system PLL's loss takes with it is the clock monitor's (R25). -/
def execPllLockLost (pll : Nat) (s : State) : Host.Outcome State Fault Refusal :=
  if 16 ≤ pll ∨ s.f (CLK_PLL_STATE.STATE pll) ≠ 3 then .next s
  else
    let pr := s.printing pll
    let s := (s.pllSearch pll).modPll pll (fun p => { p with attempts := 0 })
    if 12 ≤ pll ∨ ¬ s.stationOn pll then .next s
    else if pr then .next ((s.scnReport 3 0x19 pll).modScnSt pll (fun x => { x with isOpen := false }))
    else .next (s.scnReport 1 0x1A pll)

/-- PLL_LOCK_TIMEOUT (R347, R626): an attempt has failed; the third in a row sets FAILED, and stops a boot where it is a system PLL's. -/
def execPllLockTimeout (pll : Nat) (s : State) : Host.Outcome State Fault Refusal :=
  if 16 ≤ pll ∨ s.f (CLK_PLL_STATE.STATE pll) = 0 ∨ 3 ≤ s.f (CLK_PLL_STATE.STATE pll) then .next s
  else
    let n := (s.scn.plls.getD {} pll).attempts + 1
    let s := (s.satInc (CLK_PLL_STATE.FAILS pll)).modPll pll (fun p => { p with attempts := n })
    if n < 3 then .next (s.pllSearch pll)
    else
      let s := (s.pllSearch pll).setF (CLK_PLL_STATE.STATE pll) 4
      .next (if pll < 12 then (if s.stationOn pll then s.scnReport 1 0x1A pll else s)
        else if s.boot.running then (s.setF PWR_BOOT.CAUSE (0x10 + pll)).bootStop 3 else s)

/-- PLL_RETRY (R347): a FAILED pixel PLL tries once more while its station is idle. -/
def execPllRetry (pll : Nat) (s : State) : Host.Outcome State Fault Refusal :=
  if 12 ≤ pll ∨ s.f (CLK_PLL_STATE.STATE pll) ≠ 4 ∨ s.stationBusy pll then .next s
  else .next ((s.pllSearch pll).modPll pll (fun p => { p with attempts := 2 }))

/-- PLL_RELOCK (R347): RELOCK of a pixel PLL starts a new lock; ignored for the system PLLs and while its station prints. -/
def execPllRelock (pll : Nat) (s : State) : Host.Outcome State Fault Refusal :=
  if 12 ≤ pll ∨ s.printing pll ∨ s.f (CLK_PLL_STATE.STATE pll) = 0 then .next s
  else .next ((s.pllSearch pll).modPll pll (fun p => { p with attempts := 0 }))

/-! ## Speed classes (R10, R33, R34, R348, R349) -/

/-- What a requested class is refused with: 3 INVALID, 1 FEATURE_ABSENT, 2 WEIR_ACTIVE; 0 where it is accepted (R10, R34, R348). -/
def State.classRefusal (s : State) (c : Nat) : Nat :=
  if 4 < c then 3 else if !s.permits c then 1 else if s.weirActive ∧ c < s.classNow then 2 else 0

/-- CLASS_REQUEST (R10, R34, R348): refused, served at once outside RUN, or kept for the gap after the last latched page. -/
def execClassRequest (master : Nat) (value : BitVec 32) (s : State) : Host.Outcome State Fault Refusal :=
  let c := value.toNat % 8
  if s.poweredDown SCN_CTRL.word then .next (s.darkWrite SCN_CTRL.word value.toNat master)
  else if s.ringMember then .next (s.raise CUL_STATUS.CTRL_REFUSED)
  else
    let r := s.classRefusal c
    let s := s.setF SCN_STATE.REFUSE r
    if r ≠ 0 then .next s
    else
      let s := s.setF SCN_CTRL.CLASS c
      if s.inRun then .next { s with scn := { s.scn with hostAsk := some c } }
      else if c = s.classNow then .next s
      else .next ((((s.scaleTaps s.classNow c).setClass c).retunePlls c).sendBdWins)

/-- The fastest class not faster than `c` that is permitted (R10, R11); 4 where none is. -/
def State.permitted (s : State) (c : Nat) : Nat := ((List.range 5).find? (fun k => decide (c ≤ k) && s.permits k)).getD 4

/-- The class that the line goes to next: the slower of what the host or the first waiting page asks for and what the weir orders (R34, R69), and no
faster than every device of the line permits (R11). -/
def State.nextClass (s : State) : Nat :=
  let base := match s.scn.hostAsk, s.pages.wantClass with
    | some a, some b => max a b
    | some a, none => a
    | none, some b => b
    | none, none => s.classNow
  s.permitted (match s.weirOrder with
    | some c => max base c
    | none => base)

/-- Claimed frames that no latch has fixed give their pages back; the frames that follow keep their place on the web (R33, R69). -/
def State.unclaim (s : State) : State :=
  let open' := s.pages.frames.filter (fun f => !f.latched)
  let next := match open'.head? with
    | some f => some f.tof
    | none => s.pages.nextTof
  let keep := s.pages.frames.filter (fun f => f.latched)
  let back : LinePage → LinePage := fun l => if l.tof.any (fun t => open'.any (fun f => f.tof = t)) then { l with tof := none } else l
  let s := { s with cul := { s.cul with lines := s.cul.lines.map back } }
  { s with pages := { s.pages with frames := keep, nextTof := next,
                                   pages := s.pages.pages.map (fun p => if p.phase = .claimed then { p with phase := .waiting } else p) } }

/-- The web is asked for the speed of class `c`, the polygons go to speed, and where the class changes, taps and pixel PLLs follow (R341, R349, R390,
R397). Unlatched frames give their pages back. -/
def State.classStart (s0 : State) (c : Nat) : State :=
  let old := s0.classNow
  let s := if s0.settled then s0.unclaim else s0
  let s := { s with scn := { s.scn with hostAsk := none }, pages := { s.pages with wantClass := none } }
  let s := (s.setF SCN_STATE.STATE 1).setF SCN_STATE.CLASS_NOW c
  let s := s.askSpeed (if s.b SCN_CTRL.HALF then webSpeed c / 2 else webSpeed c)
  -- a station without a closed polygon loop stays STOPPED (R464)
  let s := s.enabledStations.foldl (fun s st =>
    if s.poly st = polySPEED || !s.polyClosed st then s.pf (72 + st) else s.setPoly st polySPEED) s
  if old = c then s else ((s.scaleTaps old c).retunePlls c).sendBdWins

/-- CLASS_CHANGE_START (R33, R349): with every latched page finished at every station, the run-up or the change begins. -/
def execClassChangeStart (s : State) : Host.Outcome State Fault Refusal :=
  let c := s.nextClass
  if !s.inRun || s.leaving || s.ramping || s.enabledStations.any s.stationBusy then .next s
  else if s.settled ∧ c = s.classNow then
    .next { s with scn := { s.scn with hostAsk := none }, pages := { s.pages with wantClass := none } }
  else .next (s.classStart c)

/-- The smallest top-of-form, a multiple of 64, whose first latch line lies at least 64 lines after the web line count (R72). -/
def State.firstTof (s : State) : Nat :=
  let sts := match s.firstWaiting with
    | some p => stationList p.desc.stations
    | none => s.enabledStations
  let lead := match s.firstStation sts with
    | some st => s.ofs st + 4 - s.f (EXP_WIN.WORK st)
    | none => 0
  up64 (s.scn.webLine + 64 + 2048 - lead)

/-- Is every enabled station LOCKED? -/
def State.allLocked (s : State) : Bool := s.enabledStations.all (fun st => s.poly st = polyLOCKED)

/-- Step 6 of R349: the class is in force, and the scheduler runs. -/
def State.settle (s : State) : State :=
  let s := (s.setF SCN_STATE.STATE 2).setClass s.classNow
  let s := if s.sheetMode then s
    else match s.pages.nextTof with
      | some _ => s
      | none => { s with pages := { s.pages with nextTof := some s.firstTof } }
  let s := if s.leaving then s else { s.setB PWR_STATE.STEPPING false with pwr := { s.pwr with runUp := false } }
  ((s.setF FLM_STATUS.SCHED_RUN 1).nameReserve).claims

/-- CLASS_SETTLED (R72, R311, R349, R554): the web has held its speed and every enabled station is LOCKED, on a ring those of every member too: the class
is in force. A member takes this step from its master. -/
def execClassSettled (s : State) : Host.Outcome State Fault Refusal :=
  if !s.inRun || !s.ramping || s.ringMember || !s.allLocked || (s.ringMaster && s.culOthers.any (fun d => !(s.cul.stats.getD {} d).locked)) then .next s
  else .next s.settle

/-- CLASS_RAMP_TIMEOUT (R349): step 6 was not reached within TIMEOUT_MS. -/
def execClassRampTimeout (s : State) : Host.Outcome State Fault Refusal :=
  if !s.ramping then .next s else .next (s.report 0x07 3 0x1F 0xFFFF)

/-! ## Beam-link ports (R355 to R359) -/

/-- A port register write to a port outside the enabled range, or to a dark block (R8, R39). -/
def State.portGuard (s : State) (bl off value : Nat) : Option State :=
  if s.poweredDown off then some (s.darkWrite off value)
  else if !s.stationOn bl then some (s.reportAccess 0x07 0x04 2 0 off value) else none

/-- BL_ENABLE (R355): ENABLE starts training. -/
def execBlEnable (bl : Nat) (s : State) : Host.Outcome State Fault Refusal :=
  match s.portGuard bl (SCN_BL_CTRL.word bl) 1 with
  | some t => .next t
  | none => .next (if s.b (SCN_BL_CTRL.ENABLE bl) then s else (s.setF (SCN_BL_CTRL.ENABLE bl) 1).retrain bl)

/-- BL_DISABLE (R355): clearing ENABLE stops the port, unless its station prints. -/
def execBlDisable (bl : Nat) (s : State) : Host.Outcome State Fault Refusal :=
  match s.portGuard bl (SCN_BL_CTRL.word bl) 0 with
  | some t => .next t
  | none =>
    if s.blPrinting bl then .next s
    else .next (((s.setF (SCN_BL_CTRL.ENABLE bl) 0).modPort bl (fun p => { p with queue := [], cur := none, fails := 0, busy := false, laneBad := false })).setBl bl blDOWN)

/-- BL_RETRAIN (R355): RETRAIN starts training again, from FAILED too. -/
def execBlRetrain (bl : Nat) (s : State) : Host.Outcome State Fault Refusal :=
  match s.portGuard bl (SCN_BL_CTRL.word bl) 2 with
  | some t => .next t
  | none => .next (if s.b (SCN_BL_CTRL.ENABLE bl) then s.retrain bl else s)

/-- BL_TRAIN_ALIGN (R355 step 2). -/
def execBlTrainAlign (bl : Nat) (s : State) : Host.Outcome State Fault Refusal :=
  if s.stationOn bl ∧ s.blState bl = blTRAIN then .next (s.setBl bl blALIGN) else .next s

/-- BL_TRAIN_POLL (R355 step 3): LINK_STATUS is read. -/
def execBlTrainPoll (bl : Nat) (s : State) : Host.Outcome State Fault Refusal :=
  if s.stationOn bl ∧ s.blState bl = blALIGN then .next (s.queuePoll bl) else .next s

/-- BL_TRAIN_TIMEOUT (R355, R357): the attempt failed; the third sets FAILED. -/
def execBlTrainTimeout (bl : Nat) (s : State) : Host.Outcome State Fault Refusal :=
  if !s.stationOn bl || !(s.blState bl = blTRAIN || s.blState bl = blALIGN) then .next s
  else
    let p := s.port bl
    let s := (s.satInc (SCN_BL_ERR.TRAIN_FAIL bl)).setF (SCN_BL_STATUS.CAUSE bl) (if p.orderErr then 2 else 1)
    if p.attempts + 1 < 3 then .next ((s.setPort bl { p with attempts := p.attempts + 1 }).train bl)
    else
      let s := (s.setPort bl { p with attempts := 3, queue := [], cur := none, fails := 0, busy := false }).setBl bl blFAILED
      match s.stationOf bl with
      | some st => .next (s.scnReport (if s.stationBusy st then 3 else 1) 0x1D st bl)
      | none => .next (s.report 0x07 1 0x1D (0xFF00 + bl))

/-- LINK_POLL (R356): the periodic read of LINK_STATUS and LINK_ERR. -/
def execLinkPoll (bl : Nat) (s : State) : Host.Outcome State Fault Refusal :=
  if s.stationOn bl ∧ s.blState bl = blUP then .next (s.queuePoll bl) else .next s

/-- SIDEBAND_TRANSACTION (R358, R392): the next request goes out. -/
def execSidebandTransaction (bl : Nat) (s : State) : Host.Outcome State Fault Refusal :=
  let p := s.port bl
  match p.cur, p.queue with
  | none, r :: t =>
    if !s.stationOn bl || s.blState bl = blDOWN || s.blState bl = blFAILED then .next s
    else
      let tag := (p.tag + 1) % 256
      let s := s.setPort bl { p with queue := t, cur := some r, tag := tag, fails := 0, busy := false }
      .next ((s.noteSent bl r).emit (.sideband bl (sbRequest r tag)))
  | _, _ => .next s

/-- SIDEBAND_RESPONSE (R355 to R359, R378 to R386): the response is checked: CRC, TAG, STATUS; then applied. -/
def execSidebandResponse (bl : Nat) (data : List (BitVec 8)) (s : State) : Host.Outcome State Fault Refusal :=
  let p := s.port bl
  match p.cur with
  | none => .next s
  | some r =>
    if !s.stationOn bl || p.busy then .next s
    else
      let n := data.length - 2
      let body := data.take n
      let status := leAt body 0 1
      let good := decide (2 ≤ n) && decide (crc16 body = BitVec.ofNat 16 (leAt data n 2)) && decide (leAt body 1 1 = p.tag)
      if good && status = 3 then .next (s.setPort bl { p with busy := true })
      else if good && status = 0 && decide (n = 2 + (if r.write then 0 else 4 * r.len)) then
        let s := s.setPort bl { p with cur := none, fails := 0 }
        if r.write then .next s
        else .next (s.readDone bl r ((List.range r.len).map (fun i => BitVec.ofNat 32 (leAt body (2 + 4 * i) 4))))
      else .next (s.sbFailed bl)

/-- SIDEBAND_TIMEOUT (R359): no response within 4.0 µs. -/
def execSidebandTimeout (bl : Nat) (s : State) : Host.Outcome State Fault Refusal :=
  if !s.stationOn bl || (s.port bl).busy then .next s else .next (s.sbFailed bl)

/-- SIDEBAND_BUSY_RETRY (R359): the request answered with BUSY is sent again; it counts as no failure. -/
def execSidebandBusyRetry (bl : Nat) (s : State) : Host.Outcome State Fault Refusal :=
  let p := s.port bl
  match p.cur with
  | some r => if p.busy then .next ((s.setPort bl { p with busy := false }).emit (.sideband bl (sbRequest r p.tag))) else .next s
  | none => .next s

/-! ## Routes and offsets (R325, R360 to R363) -/

/-- May a write name a port (R360): one in the enabled range that no other station's waiting change names? Ports and stations are equal in number, so every
change of port is part of an exchange (assumption log). -/
def State.routeOk (s : State) (st port : Nat) : Bool :=
  s.stationOn port && (s.enabledStations.all (fun u => u = st || !(s.b (SCN_ROUTE.PEND u) && s.f (SCN_ROUTE.PORT u) = port && s.portOf u ≠ port)))

/-- ROUTE_WRITE (R360, R361): a route is taken to wait, or refused. -/
def execRouteWrite (st : Nat) (value : BitVec 32) (s : State) : Host.Outcome State Fault Refusal :=
  let off := SCN_ROUTE.word st
  if s.poweredDown off then .next (s.darkWrite off value.toNat)
  else if !s.stationOn st then .next (s.reportAccess 0x07 0x04 2 0 off value.toNat)
  else
    let port := value.toNat % 16
    let side := value.toNat / 256 % 2
    if !s.routeOk st port then .next (s.raise (SCN_ST_STATE.ROUTE_REFUSED st))
    else
      let s := (s.setF (SCN_ROUTE.PORT st) port).setF (SCN_ROUTE.SIDE st) side
      .next (s.setB (SCN_ROUTE.PEND st) (decide (port ≠ s.portOf st ∨ side ≠ s.wf (SCN_ROUTE.SIDE st))))

/-- The routes in force once the stations of `xs` have taken theirs: port and side. -/
def State.routeIf (s : State) (xs : List Nat) (u : Nat) : Nat × Nat :=
  if xs.contains u then (s.f (SCN_ROUTE.PORT u), s.f (SCN_ROUTE.SIDE u)) else (s.portOf u, s.wf (SCN_ROUTE.SIDE u))

/-- The largest set of stations that can change together: no port twice, no side with seven (R360, R362). -/
def State.routeSet (s : State) : Nat → List Nat → List Nat
  | 0, xs => xs
  | n + 1, xs =>
    let sts := s.enabledStations
    let ok := fun (st : Nat) =>
      let r := s.routeIf xs st
      sts.all (fun u => u = st || (s.routeIf xs u).1 ≠ r.1) &&
        (r.2 = s.wf (SCN_ROUTE.SIDE st) || decide ((sts.filter (fun u => (s.routeIf xs u).2 = r.2)).length ≤ 6))
    s.routeSet n (xs.filter ok)

/-- A station takes its route; the head on its new port is read where that port is UP (R365, R386). -/
def State.takeRoute (s : State) (st : Nat) : State :=
  let moved := decide (s.f (SCN_ROUTE.PORT st) ≠ s.portOf st)
  let s := ((s.setF (SCN_ROUTE.PEND st) 0).takeShadow (SCN_ROUTE.word st)).pf (72 + st)
  if !moved then s
  else if s.blState (s.portOf st) = blUP then s.readHead st else s.setF (EXP_HEAD_STATE.STATE st) 0

/-- Waiting routes of stations that are idle or between pages take effect, as many as can together (R361, R362). -/
def State.applyRoutes (s : State) : State :=
  let xs := s.routeSet 12 (s.enabledStations.filter (fun st => s.b (SCN_ROUTE.PEND st) && !s.printing st))
  xs.foldl (fun s st => s.takeRoute st) s

/-- ROUTE_EXCHANGE_APPLY (R360, R362). -/
def execRouteExchangeApply (s : State) : Host.Outcome State Fault Refusal := .next s.applyRoutes

/-- OFFSET_WRITE (R321, R325): the offset takes effect while the station is idle, or waits with PEND. -/
def execOffsetWrite (st : Nat) (value : BitVec 32) (s : State) : Host.Outcome State Fault Refusal :=
  let off := SCN_OFS.word st
  if s.poweredDown off then .next (s.darkWrite off value.toNat)
  else if !s.stationOn st then .next (s.reportAccess 0x07 0x04 2 0 off value.toNat)
  else .next (((s.setF (SCN_OFS.LINES st) (value.toNat % 4194304)).askMove st).touch off)

/-- CALREF_OK_CHANGE (R340): CALREF comes within, or leaves, 100 ppm of 10 MHz. -/
def execCalrefOkChange (present : Bool) (err : BitVec 16) (s : State) : Host.Outcome State Fault Refusal :=
  let s := (s.setB CLK_STATUS.CALREF_OK present).setF CLK_CALREF.ERR err.toNat
  if present then .next { s with scn := { s.scn with calrefSaid := false } }
  else if s.scn.calrefSaid then .next s
  else .next ({ s with scn := { s.scn with calrefSaid := true } }.report 0x07 1 0x20 0xFFFF)

end Sys2Proof.Machine
end

