-- ==== Sys2Proof/Machine/Gap.lean ====
section
/-! DEFINITION. What a page gap brings at a station (R67): the correction steps, the table log, the shadowed tables, offsets, windows and routes. -/
namespace Sys2Proof.Machine

/-- Whole lines from now to the top of the next frame at a station; none where no frame follows. -/
def State.gapLines (s : State) (st : Nat) : Option Nat :=
  let l := s.lineAt st
  ((s.pages.frames.map (fun f => s.topAt f st)).filter (fun t => decide (l < t))).foldl
    (fun (a : Option Nat) t => some (match a with | some b => min b (t - l) | none => t - l)) none

/-- A move reduced to less than a trigger step (R324). -/
def State.reduceMove (s : State) (d : Int) : Int :=
  let h : Int := s.trigStep / 2
  (d + h) % (2 * h) - h

/-- Gap sweeps that a move of `d` lines, already reduced, needs (R324). -/
def State.moveSweeps (s : State) (d : Int) : Nat :=
  let slew := max 1 (s.f SCN_CTRL.SLEW)
  2 + (16 * d.natAbs + slew - 1) / slew

/-- Remainder of the sheet whose lines a station swept last, and that of the sheet that comes (R323). -/
def State.remainders (s : State) (st : Nat) : Int × Int :=
  let l := s.lineAt st
  let before := (s.pages.frames.filter (fun f => decide (s.topAt f st ≤ l))).getLast?
  let next := s.pages.frames.find? (fun f => decide (l < s.topAt f st))
  let r0 : Nat := (before.map (fun f => f.remain)).getD 0
  (r0, (next.map (fun f => f.remain)).getD r0)

/-- The trigger of a station starts to move by `d` lines; an idle station's triggers fall at the new phase at once (R324, R325). -/
def State.startMove (s : State) (st : Nat) (d : Int) : State :=
  if d = 0 then s
  else (s.modScnSt st (fun x => { x with moving := 16 * d })).setF (SCN_ST_STATE.MOVE st) 1

/-- TRIGGER_MOVE and WINDOW_MOVE (R324 to R326, R372): the offset and window that wait are taken as one move where it fits the gap, with the remainder of the
sheet that comes; else the remainder alone moves. -/
def State.gapMove (s : State) (st : Nat) : State :=
  let rem := s.remainders st
  let dr : Int := rem.1 - rem.2
  let da : Int := (s.f (SCN_OFS.LINES st) : Int) - s.ofs st
  let dw : Int := (s.f (EXP_WIN.WORK st) : Int) - s.f (EXP_WIN.OFS st)
  let d := s.reduceMove (dr + da + dw)
  let fits := match s.gapLines st with
    | some n => decide (s.moveSweeps d ≤ n / s.trigStep)
    | none => true
  if !s.stationBusy st && (s.gapLines st).isNone then (s.applyMove st).modScnSt st (fun x => { x with trig := none, moving := 0 })
  else if fits then (s.applyMove st).startMove st d
  else s.startMove st (s.reduceMove dr)

/-- The shadowed tables of a station take effect (R67, R264, R289, R329). -/
def State.takeTables (s : State) (st : Nat) : State :=
  let s := { s with cmp := { s.cmp with merge := s.cmp.merge.set (resetWord s.variant CMP_MERGE.word) st (s.word CMP_MERGE.word) } }
  let s := ((s.takeShadow (FLM_UPS.word st)).takeShadow (SCN_SKEW.word st)).takeShadow (SCN_SOL.word st)
  let s := s.takeShadows (SCN_BOW.word st 0) 4 94
  let s := s.takeShadows (SCN_FACET_DLY.word st 0) 4 8
  let s := s.takeShadows (SCN_FACET_TRIM.word st 0) 4 8
  s.takeShadows (SCN_ZONE_TRIM.word st 0) 4 32

/-- A clamped column group offset sets OFS_CLAMP and is a C0 event, once for the page that comes (R329). -/
def State.checkOffsets (s : State) (st : Nat) : State :=
  let raw := (List.range 750).map (s.offRaw st)
  let next := (s.pages.frames.find? (fun f => decide (s.lineAt st < s.topAt f st))).bind (fun f => f.page)
  let tag := match next with | some q => q + 1 | none => 0
  if raw.all (fun (o : Int) => decide (0 ≤ o ∧ o ≤ 15)) then s
  else
    let s1 := s.raise (SCN_ST_STATE.OFS_CLAMP st)
    if tag = (s.scnSt st).ofsPage then s1 else (s1.modScnSt st (fun x => { x with ofsPage := tag })).scnReport 0 0x16 st

/-- PAGE_GAP_OPEN (R67): nothing of it happens while the station prints. -/
def execPageGapOpen (st : Nat) (s : State) : Host.Outcome State Fault Refusal :=
  if !s.stationOn st || s.poweredDown (SCN_OFS.word st) || s.printing st then .next s
  else
    let s := s.corrGap st
    let ns := match s.gapLines st with | some n => n / s.trigStep * s.period | none => 0
    let s := if (s.gapLines st).isNone || s.logFits st ns then s.applyLog st else s
    let old := s
    let s := (((s.takeTables st).takeExposure st).gapMove st).coverFrom st old
    let s := s.applyRoutes
    let s := s.checkOffsets st
    let s := if s.inRun ∧ s.f (EXP_HEAD_STATE.STATE st) = 2 then s.sendCur st (s.slewCur st) else s
    let s := if s.inRun then s.stepTaps st else s
    let s := s.takeCal (s.wf (SCN_ROUTE.SIDE st))
    let bl := s.portOf st
    .next (if (s.port bl).laneBad then s.retrain bl else s)

end Sys2Proof.Machine
end

