-- ==== Sys2Proof/Machine/EctOps.lean ====
section
/-! DEFINITION. The EtherCAT application layer as operations (R576 to R579): AL states, the drop to a lower state, the power bound. -/
namespace Sys2Proof.Machine

/-- AL states (ECT_STATUS.AL_STATE). -/
abbrev alINIT : Nat := 1
abbrev alPREOP : Nat := 2
abbrev alBOOT : Nat := 3
abbrev alSAFEOP : Nat := 4
abbrev alOP : Nat := 8

def State.alState (s : State) : Nat := s.f ECT_STATUS.AL_STATE

/-- Are RxPDOs assigned (object 0x1C12)? -/
def State.rxAssigned (s : State) : Bool := s.obj 0x1C12 0 ≠ 0

/-- Report of the field network (R600, R677). -/
def State.ectReport (s : State) (cls cause : Nat) : State := s.report 0x10 cls cause (s.f ECT_STATUS.AL_CODE)

/-- Put the AL state in force with a status code; PF vector 451 tells of a change and of a non-zero code (R599). -/
def State.setAl (s : State) (v code : Nat) : State :=
  let t := ((s.setF ECT_STATUS.AL_STATE v).setF ECT_STATUS.AL_CODE code).setB ECT_STATUS.ERR_IND (decide (code ≠ 0))
  if s.alState = v ∧ code = 0 then t else t.pf 451

/-- A port's link goes up or down: a change signals PF vector 451 (R599). -/
def State.linkTo (s : State) (x : Fld) (up : Bool) : State := if s.b x = up then s else (s.setB x up).pf 451

/-- The watchdog expires or OP is left while RxPDOs are assigned (R579): ECT_ERR.WD, and in RUN one event of WD_CLASS. -/
def State.pdoLost (s : State) : State :=
  if !s.rxAssigned then s
  else
    let s := s.satInc ECT_ERR.WD
    if s.inRun then s.ectReport (s.f ECT_CTRL.WD_CLASS + 1) 0x10 else s

/-- Does a transfer come over CoE? -/
def SdoReq.isCoe : SdoReq → Bool
  | .coe _ => true
  | _ => false

/-- A transition to INIT or BOOT discards what CoE has at the dictionary server, and the server is released (R578); a calibration store that runs goes on.
An FoE transfer is broken off with it. -/
def State.dropCoe (s : State) : State :=
  let held := s.hif.hold.any SdoReq.isCoe
  let hif := { s.hif with sdoWait := s.hif.sdoWait.filter (fun r => !r.isCoe), hold := if held then none else s.hif.hold,
                          tunnel := if held then none else s.hif.tunnel }
  { s with hif := hif, ect := { s.ect with foe := none } }

/-- Fall to a lower AL state with a code (R577 to R579): leaving OP loses the process data, entering INIT or BOOT discards a mailbox transfer, and at entry to INIT
the configured alias takes effect (R575). -/
def State.alDrop (s : State) (v code : Nat) : State :=
  let was := s.alState
  let s := s.setAl v code
  let s := if was = alOP ∧ v ≠ alOP then s.pdoLost else s
  let s := if v = alINIT then s.setF ECT_ADDR.ALIAS (s.obj 0x2001 1) else s
  if v = alINIT ∨ v = alBOOT then s.dropCoe else s

/-- Entry to SLEEP lowers the AL state to PRE-OP with code 0x8001; deeper states unpower the ESC (R577). -/
def State.alSleep (s : State) : State := if s.alState = alSAFEOP ∨ s.alState = alOP then s.alDrop alPREOP 0x8001 else s

end Sys2Proof.Machine
end

