-- ==== Sys2Proof/Machine/Encoders.lean ====
section
/-! DEFINITION. ENCODER_COUNT: what a change on an encoder input means to the tracking loop, the loops, the axes and the turnout (R315 to R320, R458, R488, R498, R534). -/
namespace Sys2Proof.Machine

/-- Does the tracking loop read an input: the web encoder, or a photoconductor encoder in use (R315, R319)? -/
def State.tracks (s : State) (n : Nat) : Bool :=
  (s.f SCN_WEB_CFG.SRC = 0 && s.f SCN_WEB_CFG.ENC = n) || s.enabledStations.any (fun st => s.f (SCN_TRK.SRC st) = 1 && s.f (SCN_TRK.PC_ENC st) = n)

/-- The station line counts that blend a photoconductor encoder change by an amount that the filter of R319 decides and the spec leaves open. -/
def State.blend (s : State) (hit : Nat → Bool) : State :=
  s.enabledStations.foldl (fun s st =>
    if s.f (SCN_ST_STATE.TRK st) = 1 ∧ hit st then (s.modScnSt st (fun x => { x with corr := sgn 32 s.free.toNat })).drew else s) s

/-- Move the web by `d` in 2^-28 line: the estimate, the line count, which never goes back, the speed (R45, R315, R316). -/
def State.moveWeb (s : State) (d : Int) : State :=
  let pos := s.scn.pos + d
  let sub := max s.scn.sub (pos / 16777216).toNat
  let t := s.now.toNat
  let old := s.scn.hist
  let keep := old.filter (fun h => decide (t ≤ h.1 + 1000000)) ++ (old.filter (fun h => decide (h.1 + 1000000 < t))).take 1
  let s := { s with scn := { s.scn with pos := pos, sub := sub, webLine := sub / 16, hist := (t, pos) :: keep } }
  (s.set64 SCN_WEB_LINE_LO.word (sub / 16)).syncSpeed

/-- One count for the tracking loop. -/
def State.trackCount (s : State) (n : Nat) (d : Int) : State :=
  let s := if s.f SCN_WEB_CFG.SRC = 0 ∧ s.f SCN_WEB_CFG.ENC = n then
      let d := if s.b SCN_WEB_CFG.DIR then -d else d
      (s.moveWeb (d * s.f SCN_WEB_SCALE.SCALE)).blend (fun _ => true)
    else s
  s.blend (fun st => s.f (SCN_TRK.PC_ENC st) = n)

/-- One count for the turnout: TRN_ENC_CNT, and the compares that it moves onto (R534). -/
def State.turnoutCount (s : State) (n : Nat) (d : Int) : State :=
  let v := s.i32 (TRN_ENC_CNT.word n) + d
  let s := s.setI32 (TRN_ENC_CNT.word n) v
  (List.range 16).foldl (fun s i =>
    let e := s.f (TRN_EC_CFG.EDGE i)
    if s.f (TRN_EC_CFG.INPUT i) = n ∧ s.word (TRN_EC_VAL.word i) = s.word (TRN_ENC_CNT.word n) ∧ (e = 3 ∨ (e = 1 ∧ 0 < d) ∨ (e = 2 ∧ d < 0)) then s.event (176 + i)
    else s) s

/-- ENCODER_COUNT (R315 to R319, R458, R488, R498, R534): the levels of an input change. With A ahead of B the count goes up. -/
def execEncoderCount (n : Nat) (a b : Bool) (s : State) : Host.Outcome State Fault Refusal :=
  let e := s.encIn n
  let t := s.now.toNat
  if 28 ≤ n ∨ (a = e.a ∧ b = e.b) then .next s
  else if a ≠ e.a ∧ b ≠ e.b then
    -- an illegal transition
    let ill := t :: e.ill.filter (fun x => decide (t < x + 1000000))
    let s := s.setEncIn n { e with a := a, b := b, ill := ill }
    let s := if s.awake ∧ s.tracks n then s.satInc SCN_ENC_ERR.QUAD else s
    if ill.length ≤ 4 ∨ !s.awake then .next s
    else .next (axisList.foldl (fun s ax => if s.axEnc ax && s.f (MOT_AX_CFG.ENC ax) = n then s.axFault ax 4 else s) s)
  else
    let d : Int := if (a ≠ e.a ∧ xor a e.b) ∨ (b ≠ e.b ∧ !xor b e.a) then 1 else -1
    let rise := a && !e.a
    let e := { e with a := a, b := b, cnt := e.cnt + d, dir := d, gap := t - e.at', at' := t }
    let e := if rise then { e with fg := e.fg + 1, fgGap := t - e.fgAt, fgAt := t } else e
    let s := s.setEncIn n e
    if !s.awake then .next s
    else
      let s := (s.turnoutCount n d).trackCount n d
      .next (axisList.foldl (fun s ax => if s.axEnc ax && s.f (MOT_AX_CFG.ENC ax) = n && s.axState ax ≠ axDISABLED then s.axShowEnc ax else s) s)

end Sys2Proof.Machine
end

