-- ==== Sys2Proof/Machine/Safe.lean ====
section
/-! DEFINITION. What works without the rest of the device (R696): the last-words ring, Headgate's outputs, ALIVE, and the power state. -/
namespace Sys2Proof.Machine

/-! ## Last words (R697) -/

/-- The last-words ring holds 16 records. -/
def State.lastWord (s : State) (source cause : Nat) (p0 p1 p2 : Nat := 0) (severity : Nat := 4) (master : Nat := 0xFF) (access : Nat := 0) : State :=
  let r : EvrRec := ⟨0, cause, master, severity, access, true, source, s.word EVR_OPSEC.word, s.word EVR_CYCLES.word,
    BitVec.ofNat 32 p0, BitVec.ofNat 32 p1, BitVec.ofNat 32 p2⟩
  let l := s.evr.lastWords ++ [(r, false)]
  { s with evr := { s.evr with lastWords := l.drop (l.length - 16) } }.setF EVR_STATUS.LW_PENDING 1

/-! ## Headgate's outputs (R688) -/

def State.hdgSt (s : State) (st : Nat) : HdgSt := s.hdg.sts.getD {} st
def State.setHdgSt (s : State) (st : Nat) (x : HdgSt) : State := { s with hdg := { s.hdg with sts := s.hdg.sts.set {} st x } }

/-- Does an open cover cut output `b` of HDG_IL_MAP: 0 to 11 a station, 12 HV_KILL, 13 FUSER_KILL (R689)? -/
def State.ilCuts (s : State) (b : Nat) : Bool :=
  (List.range 4).any (fun i => bit (s.f HDG_STATUS.IL_OPEN) i && bit (s.f (HDG_IL_MAP.MAP i)) b)

/-- Is LASER_EN[st] permitted (R688)? -/
def State.laserOk (s : State) (st : Nat) : Bool :=
  s.stationOn st && (s.power = pwrRUN || s.power = pwrREADY) && decide (s.f FLT_STATUS.ACTIVE ≠ 4) && !s.b (HDG_ST_STATUS.CUT st) &&
  !s.ilCuts st && !s.b (HDG_ST_STATUS.SLOW st) && !s.b THM_SHUT.ACTIVE && !s.b FLT_STATUS.SELF_FAIL && !s.boot.sysReset

/-- Is a kill output asserted: `b` 12 HV_KILL, 13 FUSER_KILL (R688)? -/
def State.killOn (s : State) (b : Nat) : Bool :=
  decide (s.f FLT_STATUS.ACTIVE = 4) || s.ilCuts b || !s.awake || s.b THM_SHUT.ACTIVE || s.b FLT_STATUS.SELF_FAIL || s.boot.sysReset

/-- Bring one laser enable in line with its gate. -/
def State.laserSync (s : State) (st : Nat) : State :=
  let s := (s.setB (HDG_ST_STATUS.IL st) (s.ilCuts st)).setB (HDG_ST_STATUS.EN st) (s.laserOk st)
  (s.drivePin (wireLaser st) (bit (s.f HDG_STATUS.LASER_EN) st) (s.laserOk st)).setF HDG_STATUS.LASER_EN
    (setBit (s.f HDG_STATUS.LASER_EN) st (s.laserOk st))

/-- Every output of Headgate follows its gate (R688); ALIVE is low while a C4 is in progress, SELF_FAIL is set or the state is below SLEEP (R683). -/
def State.hdgSync (s : State) : State :=
  let s := (List.range 12).foldl (fun (s : State) st => s.laserSync st) s
  let s := (s.drivePin wireHv (s.b HDG_STATUS.HV_KILL) (s.killOn 12)).setB HDG_STATUS.HV_KILL (s.killOn 12)
  (s.drivePin wireFuser (s.b HDG_STATUS.FUSER_KILL) (s.killOn 13)).setB HDG_STATUS.FUSER_KILL (s.killOn 13)

/-- May ALIVE toggle (R683)? -/
def State.aliveOk (s : State) : Bool :=
  s.boot.cores && decide (s.f FLT_STATUS.ACTIVE ≠ 4) && !s.b FLT_STATUS.SELF_FAIL && (s.awake || s.power = pwrSLEEP)

/-- Hold ALIVE low (R683). -/
def State.aliveStop (s : State) : State := { s.drivePin wireAlive s.hdg.alive false with hdg := { s.hdg with alive := false } }

/-- Enter a power state: Headgate's gates see it at once, PF vector 6 is signalled. -/
def State.setPower (s : State) (p : Nat) : State :=
  let s := (s.setF PWR_STATE.NOW p).hdgSync
  (if s.aliveOk then s else s.aliveStop).pf 6

/-- The highest step of the boot table reached (PWR_BOOT.STAGE). -/
def State.stageTo (s : State) (n : Nat) : State := s.setF PWR_BOOT.STAGE (max (s.f PWR_BOOT.STAGE) n)

/-- Control of a PMIC enable (R606). -/
def State.setPmicEn (s : State) (i : Nat) (v : Bool) : State :=
  (s.drivePin (wirePmic i) (bit (s.f PWR_PMIC.EN) i) v).setF PWR_PMIC.EN (setBit (s.f PWR_PMIC.EN) i v)

/-- Lower every PMIC enable, in the reverse of the order of R606. -/
def State.pmicOff (s : State) : State := [3, 2, 1, 0].foldl (fun (s : State) i => s.setPmicEn i false) s

end Sys2Proof.Machine
end

