-- ==== Sys2Proof/Machine/Rails.lean ====
section
/-! DEFINITION. The engine rails (R612 to R615): readings and checks, good, EN, latches and dependencies. -/
namespace Sys2Proof.Machine

def State.rail (s : State) (k : Nat) : Rail := s.pwr.rails.getD {} k
def State.setRail (s : State) (k : Nat) (r : Rail) : State := { s with pwr := { s.pwr with rails := s.pwr.rails.set {} k r } }

/-- Rail k's bit in one of the three rail masks. -/
def State.railReq (s : State) (k : Nat) : Bool := bit (s.f PWR_RAIL_REQ.REQ) k
def State.railEn (s : State) (k : Nat) : Bool := bit (s.f PWR_RAIL_EN.EN) k
def State.railGood (s : State) (k : Nat) : Bool := bit (s.f PWR_RAIL_GOOD.GOOD) k

/-- Does the monitor check rail k: MON_EN with a SCALE (R612, R628)? -/
def State.railMon (s : State) (k : Nat) : Bool := s.b (PWR_RAIL_CFG.MON_EN k) && decide (s.f (PWR_RAIL_CFG.SCALE k) ≠ 0)

/-- Class of the rail's events (FCLASS). -/
def State.railClass (s : State) (k : Nat) : Nat := s.f (PWR_RAIL_CFG.FCLASS k) + 1

/-- Is rail k good (R613)? -/
def State.railGoodNow (s : State) (k : Nat) : Bool :=
  let v := s.f (PWR_RAIL_STATUS.MV k)
  s.railEn k && (s.rail k).blanked && (!s.b (PWR_RAIL_CFG.PG_EN k) || s.b (PWR_RAIL_STATUS.PG k)) &&
  (!s.railMon k || (decide (s.f (PWR_RAIL_UV.FAULT k) ≤ v) && decide (v ≤ s.f (PWR_RAIL_OV.FAULT k)))) && !s.b (PWR_RAIL_STATUS.LATCH k)

/-- Are all dependencies of rail k good (R614)? -/
def State.railDeps (s : State) (k : Nat) : Bool := s.f (PWR_RAIL_DEP.MASK k) &&& s.f PWR_RAIL_GOOD.GOOD = s.f (PWR_RAIL_DEP.MASK k)

/-- May EN of rail k be high (R614)? SYS_RESET_N holds a rail without KEEP off (R730). -/
def State.railOn (s : State) (k : Nat) : Bool :=
  s.railReq k && s.railDeps k && !s.b (PWR_RAIL_STATUS.LATCH k) && !(decide (s.f FLT_STATUS.ACTIVE = 4) && s.b (PWR_RAIL_CFG.C4_OFF k)) &&
  !((s.b THM_SHUT.ACTIVE || s.boot.sysReset) && !s.b (PWR_RAIL_CFG.KEEP k))

/-- Drive EN of rail k. A rise starts the checks afresh and raises STARTS; at a fall they stop. -/
def State.railDrive (s : State) (k : Nat) (v : Bool) : State :=
  if s.railEn k = v then s
  else
    let s := (s.emit (.wire (wireRail k) v)).setF PWR_RAIL_EN.EN (setBit (s.f PWR_RAIL_EN.EN) k v)
    let s := s.setRail k { blanked := v && decide (s.f (PWR_RAIL_CFG.BLANK k) = 0) }
    if v then s.satInc (PWR_RAIL_CNT2.STARTS k) else s

/-- One pass over one rail: good, then the latch of a rail that loses a dependency while EN is high (R615), then EN. -/
def State.railPass (s : State) (k : Nat) : State :=
  let s := if s.railEn k && !s.railDeps k && !s.b (PWR_RAIL_STATUS.LATCH k) then
      ((s.setF (PWR_RAIL_STATUS.LATCH k) 1).raise (PWR_RAIL_STATUS.DEP_DROP k)).report 0x11 (s.railClass k) 0x18 k |>.pf 6
    else s
  let s := s.railDrive k (s.railOn k)
  let g := s.railGoodNow k
  (s.setB (PWR_RAIL_STATUS.GOOD k) g).setF PWR_RAIL_GOOD.GOOD (setBit (s.f PWR_RAIL_GOOD.GOOD) k g)

/-- The rail logic settles: a rail that falls takes those that depend on it with it, one level a pass (R614, R615). -/
def State.railSync (s : State) : State :=
  (List.range 33).foldl (fun (s : State) _ => (List.range 32).foldl (fun (s : State) k => s.railPass k) s) s

/-- A UV fault, OV fault or PG drop (R612, R615): the event of FCLASS, and the latch while FAULT_ACT is 1. -/
def State.railFault (s : State) (k cause : Nat) : State :=
  let s := (s.report 0x11 (s.railClass k) cause k).pf 6
  if s.b (PWR_RAIL_CFG.FAULT_ACT k) then s.setF (PWR_RAIL_STATUS.LATCH k) 1 else s

/-- A UV or OV warning (R612): a C0. -/
def State.railWarn (s : State) (k : Nat) : State := ((s.satInc (PWR_RAIL_CNT1.WARN k)).report 0x11 0 0x15 k).pf 6

/-- The four voltage checks on one reading: warnings after 4 readings in a row, faults after 2; each fires once until a reading inside its level. -/
def State.railCheck (s : State) (k v : Nat) : State :=
  let r := s.rail k
  let uw := decide (v < s.f (PWR_RAIL_UV.WARN k))
  let ow := decide (s.f (PWR_RAIL_OV.WARN k) < v)
  let uf := decide (v < s.f (PWR_RAIL_UV.FAULT k))
  let of := decide (s.f (PWR_RAIL_OV.FAULT k) < v)
  let next := fun (b : Bool) (n : Nat) => if b then n + 1 else 0
  let nuw := next uw r.uvW
  let now := next ow r.ovW
  let nuf := next uf r.uvF
  let nof := next of r.ovF
  let fuw := decide (4 ≤ nuw) && !r.hitUvW
  let fow := decide (4 ≤ now) && !r.hitOvW
  let fuf := decide (2 ≤ nuf) && !r.hitUvF
  let fof := decide (2 ≤ nof) && !r.hitOvF
  let s := s.setRail k { r with uvW := nuw, ovW := now, uvF := nuf, ovF := nof, hitUvW := uw && (r.hitUvW || fuw), hitOvW := ow && (r.hitOvW || fow),
                                hitUvF := uf && (r.hitUvF || fuf), hitOvF := of && (r.hitOvF || fof) }
  let s := if fuw then s.railWarn k else s
  let s := if fow then s.railWarn k else s
  let s := if fuf then (s.satInc (PWR_RAIL_CNT1.FAULT k)).railFault k 0x16 else s
  if fof then (s.satInc (PWR_RAIL_CNT1.FAULT k)).railFault k 0x16 else s

/-- Do the checks of rail k apply: from BLANK after EN rises until it falls (R612)? -/
def State.railChecked (s : State) (k : Nat) : Bool := s.railEn k && (s.rail k).blanked

/-- RAIL_MONITOR_READING (R612 to R615): every rail is read, V = code × SCALE / 4,096, and checked; good, latches and EN follow. -/
def execRailMonitorReading (codes : List (BitVec 12)) (s : State) : Host.Outcome State Fault Refusal :=
  if s.power = pwrOFF then .next s
  else
    let s := (List.range 32).foldl (fun (s : State) k =>
      let v := (codes.getD k 0).toNat * s.f (PWR_RAIL_CFG.SCALE k) / 4096
      let s := s.setF (PWR_RAIL_STATUS.MV k) v
      if s.railChecked k && s.railMon k then s.railCheck k v else s) s
    .next s.railSync

/-- RAIL_PG_DROP (R612): PG has been low for 2 µs. While PG_EN is 1 and the checks apply, the drop fires, once until it re-arms. -/
def execRailPgDrop (k : Nat) (s : State) : Host.Outcome State Fault Refusal :=
  if 32 ≤ k ∨ s.power = pwrOFF then .next s
  else
    let s := s.setF (PWR_RAIL_STATUS.PG k) 0
    let r := s.rail k
    let s := if s.railChecked k && s.b (PWR_RAIL_CFG.PG_EN k) && !r.hitPg then
        ((s.setRail k { r with hitPg := true }).satInc (PWR_RAIL_CNT2.PGDROP k)).railFault k 0x17
      else s
    .next s.railSync

/-- RAIL_PG_RISE (R612, R613): PG is high; the PG-drop check re-arms, and the rail may become good. -/
def execRailPgRise (k : Nat) (s : State) : Host.Outcome State Fault Refusal :=
  if 32 ≤ k ∨ s.power = pwrOFF then .next s
  else .next ((s.setF (PWR_RAIL_STATUS.PG k) 1).setRail k { s.rail k with hitPg := false }).railSync

/-- RAIL_BLANK_END (R612, R613): BLANK ms after EN rose, the checks apply and the rail may become good. -/
def execRailBlankEnd (k : Nat) (s : State) : Host.Outcome State Fault Refusal :=
  if 32 ≤ k ∨ !s.railEn k ∨ (s.rail k).blanked then .next s
  else .next (s.setRail k { s.rail k with blanked := true }).railSync

/-- Clear every request (R603: HIBERNATE to OFF drives every EN low). -/
def State.railsOff (s : State) : State := (s.setF PWR_RAIL_REQ.REQ 0).railSync

end Sys2Proof.Machine
end

