-- ==== Sys2Proof/Machine/Turnout.lean ====
section
/-! DEFINITION. The meanings of the turnout commands (spec/14): rounds, tasks, software events, timers, web compares. -/
namespace Sys2Proof.Machine

/-! ## Rounds (R529, R532, R533) -/

/-- Is a task number in use (R531)? -/
def taskUsed (tk : Nat) : Bool := decide (tk < 256) && !(decide (189 ≤ tk ∧ tk ≤ 191) || decide (201 ≤ tk ∧ tk ≤ 207))

/-- Does the turnout run (R536)? -/
def State.trnRuns (s : State) : Bool := s.awake

/-- Firings that a task counts: one for each enabled slot whose event occurred, but for slots rewritten in the round of the event (R529, R533). -/
def State.firings (s : State) (tk : Nat) : Nat :=
  let src := (s.word (TRN_TK_SRC.word tk)).toNat
  let old := match s.trn.srcOld.get? tk with
    | some w => w.toNat
    | none => src
  if !s.b (TRN_TK_CFG.EN tk) then 0
  else ((List.range 4).filter (fun k =>
    bit (s.f (TRN_TK_CFG.SLOT_EN tk)) k && bits src (8 * k) 8 = bits old (8 * k) 8 && s.trn.events.contains (bits src (8 * k) 8))).length

/-- OVF_ANY: some task has OVF set. -/
def State.syncOvf (s : State) : State :=
  s.setB TRN_STATUS.OVF_ANY ((List.range 256).any (fun tk => taskUsed tk && s.b (TRN_TK_STATE.OVF tk)))

/-- What the ACKs of a software task that wait in the round take from its PEND (R532). -/
def State.acksWaiting (s : State) (tk : Nat) : Nat :=
  if tk < 208 then 0
  else s.pending.foldl (fun (a : Nat) c => match c with
    | .taskAck t n => if t = tk then a + n else a
    | .registerWrite _ off v _ => if off = TRN_TK_STATE.word tk then a + bits v.toNat 8 4 else a
    | _ => a) 0

/-- A task counts `n` firings, after the ACKs of the round (R529, R532). -/
def State.countTask (s : State) (tk n : Nat) : State :=
  let p := s.f (TRN_TK_STATE.PEND tk) - s.acksWaiting tk + n
  let s := ((s.mark mkAck tk).wrapInc (TRN_TK_CNT.FIRED tk) n).set64 (TRN_TK_STAMP_LO.word tk) s.now.toNat
  let s := if s.b (TRN_TK_CFG.ONESHOT tk) then s.setF (TRN_TK_CFG.EN tk) 0 else s
  let s := s.setF (TRN_TK_STATE.PEND tk) (min 15 p)
  let s := if 15 < p then
      (((s.raise (TRN_TK_STATE.OVF tk)).satInc (TRN_TK_CNT.LOST tk) (p - 15)).report 0x0E 1 0x18 tk).syncOvf
    else s
  if !s.b (TRN_TK_CFG.IRQ tk) then s
  else if 208 ≤ tk then { s with trn := { s.trn with owed := s.trn.owed.set 0 tk (s.trn.owed.getD 0 tk + n) } }
  else (List.range n).foldl (fun s _ => s.pf (194 + tk)) s

/-- TURNOUT_ROUND (R529, R532, R533). -/
def execTurnoutRound (s : State) : Host.Outcome State Fault Refusal :=
  if !s.trnRuns then .next { s with trn := { s.trn with events := [], srcOld := [] } }
  else
    let hits := (List.range 256).filterMap (fun tk => if taskUsed tk ∧ s.firings tk ≠ 0 then some (tk, s.firings tk) else none)
    let s := { s with trn := { s.trn with events := [], srcOld := [], cancelled := [] } }
    .next (hits.foldl (fun s x => s.countTask x.1 x.2) s)

/-- Entry to SLEEP: every PEND becomes 0 (R536). -/
def State.trnSleep (s : State) : State :=
  let s := (List.range 256).foldl (fun s tk => if taskUsed tk then s.setF (TRN_TK_STATE.PEND tk) 0 else s) s
  { s with trn := { s.trn with events := [], srcOld := [], owed := [] } }

/-! ## Hardware tasks (R531) -/

/-- A hardware task with a firing pending acts once, which takes 1 from PEND. -/
def State.task (s : State) (tk : Nat) (g : State → State) : Host.Outcome State Fault Refusal :=
  let n := s.f (TRN_TK_STATE.PEND tk)
  if !s.trnRuns ∨ n = 0 then .next s else .next (g (s.setF (TRN_TK_STATE.PEND tk) (n - 1)))

/-- The held command of an axis starts, with the profile registers as they stand (R482); a stop of the round comes first (R483). -/
def State.axGo (s : State) (ax : Nat) : State :=
  if s.axStopWaits ax then s.unhold ax else
  match (s.axis ax).held with
  | none =>
    if s.trn.cancelled.contains ax then s
    else ((s.raise (MOT_AX_STATUS.GO_UNARMED ax)).report 0x0C 0 0x0F ax).axVec ax
  | some h =>
    let s := s.unhold ax
    if h.jog ≠ 0 then s.axJog ax h.jog false else s.axMove ax h.target false

/-- TASK_AX_GO (R482, R483). -/
def execTaskAxGo (ax : Nat) (s : State) : Host.Outcome State Fault Refusal :=
  if 24 ≤ ax then .next s else s.task ax (fun s => s.axGo ax)

/-- TASK_AX_STOP (R483, R484). -/
def execTaskAxStop (ax : Nat) (s : State) : Host.Outcome State Fault Refusal :=
  if 24 ≤ ax then .next s else s.task (24 + ax) (fun s => s.axStopCmd ax)

/-- TASK_AX_QSTOP (R483, R484). -/
def execTaskAxQstop (ax : Nat) (s : State) : Host.Outcome State Fault Refusal :=
  if 24 ≤ ax then .next s else s.task (48 + ax) (fun s => s.axQstopCmd ax)

/-- TASK_AX_CAPTURE (R499). -/
def execTaskAxCapture (ax : Nat) (s : State) : Host.Outcome State Fault Refusal :=
  if 24 ≤ ax then .next s
  else s.task (72 + ax) (fun s => (s.setI32 (MOT_AX_CAP_POS.word ax) (s.axPos ax)).setWord (MOT_AX_CAP_ENC.word ax) (s.word (MOT_AX_ENC_POS.word ax)))

/-- TASK_LOOP_INDEX (R458). -/
def execTaskLoopIndex (lp : Nat) (s : State) : Host.Outcome State Fault Refusal :=
  if 64 ≤ lp then .next s else s.task (96 + lp) (fun s => s.modLoop lp (fun x => { x with zero := s.lpPosCount lp }))

/-- TASK_ENC_CAPTURE (R531). -/
def execTaskEncCapture (n : Nat) (s : State) : Host.Outcome State Fault Refusal :=
  if 28 ≤ n then .next s else s.task (160 + n) (fun s => s.setWord (TRN_ENC_CAP.word n) (s.word (TRN_ENC_CNT.word n)))

/-- Start the period of a timer. -/
def State.startTimer (s : State) (i : Nat) : State := { s with trn := { s.trn with timers := s.trn.timers.set 0 i s.now.toNat } }

/-- TASK_TIMER_START (R531). -/
def execTaskTimerStart (s : State) : Host.Outcome State Fault Refusal :=
  s.task 188 (fun s => (List.range 4).foldl (fun s i => if s.b (TRN_TIMER.EN i) then s.startTimer i else s) s)

/-- TASK_LAT_PULSE (R534): the forced bit starts with the next cycle; while a pulse of the same number runs, the action waits. -/
def execTaskLatPulse (i : Nat) (s : State) : Host.Outcome State Fault Refusal :=
  let p := s.f (TRN_LP_CFG.PORT i)
  if 8 ≤ i ∨ (List.range 4).any (fun q => (s.latPort q).pulses.any (fun x => x.i = i)) then .next s
  else s.task (192 + i) (fun s => s.modLatPort p (fun x => { x with pulses := x.pulses ++
    [⟨i, s.f (TRN_LP_CFG.CYCLES i), s.f (TRN_LP_CFG.NODE i), s.f (TRN_LP_CFG.BYTE i), s.f (TRN_LP_CFG.BIT i), s.b (TRN_LP_CFG.LEVEL i)⟩] }))

/-- A sheet that was asked for and whose page has gone since passes blank, with the page's pitch where it is known (R76). -/
def State.blankSheet (s : State) (seq tof rem : Nat) : State :=
  let pitch := ((s.page? seq).map (fun p => up64 (p.desc.length + p.desc.gap))).getD (s.obj 0x2101 2)
  let f : Frame := { tof := tof, len := pitch, pitch := pitch, blank := true, firstLatch := s.latchLine tof s.enabledStations - rem, remain := rem }
  { s with pages := { s.pages with frames := s.pages.frames ++ [f] } }

/-- A sheet's edge (R45, R93 to R95): the sheet's top-of-form is fixed, a multiple of 64, the remainder kept for the offsets; without an open request,
or outside the window of its feed, a C3. -/
def State.sheetEdge (s : State) : State :=
  if s.ringMaster then
    match s.cul.lines.find? (fun l => l.fedAt.isSome && l.tof.isNone && !l.late) with
    | none => s.report 0x01 3 0x0F
    | some l =>
      if !l.fedAt.any s.edgeInWindow then s.report 0x01 3 0x0F
      else
        let at' := s.scn.webLine + s.obj 0x2101 4
        s.claimLine l (up64 at') (up64 at' - at')
  else match s.pages.sheetReq with
  | [] => s.report 0x01 3 0x0F
  | (seq, line) :: t =>
    if !s.edgeInWindow line then s.report 0x01 3 0x0F
    else
      let s := { s with pages := { s.pages with sheetReq := t } }
      let at' := s.scn.webLine + s.obj 0x2101 4
      let tof := up64 at'
      match (s.page? seq).filter (fun p => p.phase = .waiting) with
      | some p =>
        let s := s.claimFrame p tof
        s.modFrame seq (fun f => { f with remain := tof - at', firstLatch := f.firstLatch - (tof - at') })
      | none => s.blankSheet seq tof (tof - at')

/-- TASK_TOF_CAPTURE (R93, R531). -/
def execTaskTofCapture (s : State) : Host.Outcome State Fault Refusal :=
  s.task 200 (fun s =>
    let s := s.set64 TRN_TOF_LO.word s.scn.webLine
    if s.sheetMode && s.inRun && !s.ringMember then s.sheetEdge else s)

/-! ## Software tasks, configuration, events -/

/-- TASK_SW_SIGNAL (R529, R531): a counted firing of a software task with IRQ set signals its vector; PEND waits for ACK. -/
def execTaskSwSignal (i : Nat) (s : State) : Host.Outcome State Fault Refusal :=
  let tk := 208 + i
  let n := s.trn.owed.getD 0 tk
  if 48 ≤ i ∨ n = 0 then .next s
  else .next ({ s with trn := { s.trn with owed := s.trn.owed.set 0 tk (n - 1) } }.pf (194 + tk))

/-- A register of the turnout that is dark (R39, R536), or of a task number that is reserved: the state left behind. -/
def State.trnGuard (s : State) (off value : Nat) : Option State := if s.poweredDown off then some (s.darkWrite off value) else none

/-- TASK_ACK (R531, R532): the round that counted firings of the task has taken its ACKs already. -/
def execTaskAck (tk n : Nat) (s : State) : Host.Outcome State Fault Refusal :=
  if 256 ≤ tk ∨ !taskUsed tk then .next s
  else match s.trnGuard (TRN_TK_STATE.word tk) (n * 256) with
    | some t => .next t
    | none =>
      if tk < 208 then .next (if n = 0 then s else s.raise TRN_STATUS.CTRL_REFUSED)
      else if (s.roundOf 4 mkAck).contains tk then .next s
      else .next (s.setF (TRN_TK_STATE.PEND tk) (s.f (TRN_TK_STATE.PEND tk) - n))

/-- TASK_CONFIG_WRITE (R533): a write of TRN_TK_SRC, or of TRN_TK_CFG. -/
def execTaskConfigWrite (tk : Nat) (source : Bool) (value : BitVec 32) (s : State) : Host.Outcome State Fault Refusal :=
  let off := if source then TRN_TK_SRC.word tk else TRN_TK_CFG.word tk
  if 256 ≤ tk ∨ !taskUsed tk then .next s
  else match s.trnGuard off value.toNat with
    | some t => .next t
    | none =>
      if source then
        let s := if (s.trn.srcOld.get? tk).isSome then s else { s with trn := { s.trn with srcOld := s.trn.srcOld.put tk (s.word off) } }
        .next (s.setWord off value)
      else
        let s := s.setWord off (value &&& 0x13F#32)
        .next (if s.b (TRN_TK_CFG.EN tk) then s else s.setF (TRN_TK_STATE.PEND tk) 0)

/-- SW_EVENT_RAISE (R530): bit i of a write of TRN_SW raises SW_EVENT[i]. -/
def execSwEventRaise (bits : BitVec 8) (s : State) : Host.Outcome State Fault Refusal :=
  match s.trnGuard TRN_SW.word bits.toNat with
  | some t => .next t
  | none => .next ((List.range 8).foldl (fun s i => if bits.getLsbD i then s.event (232 + i) else s) s)

/-- TIMER_EXPIRE (R534). -/
def execTimerExpire (i : Nat) (s : State) : Host.Outcome State Fault Refusal :=
  if 4 ≤ i ∨ !s.trnRuns ∨ !s.b (TRN_TIMER.EN i) ∨ s.now.toNat < s.trn.timers.getD 0 i + s.f (TRN_TIMER.PERIOD_US i) * 1000 then .next s
  else
    let s := (s.event (172 + i)).startTimer i
    .next (if s.b (TRN_TIMER.ONESHOT i) then s.setF (TRN_TIMER.EN i) 0 else s)

/-- WEB_COMPARE_ARM (R534): a write of TRN_WC_HI, after TRN_WC_LO. -/
def execWebCompareArm (i : Nat) (value : BitVec 32) (s : State) : Host.Outcome State Fault Refusal :=
  if 8 ≤ i then .next s
  else match s.trnGuard (TRN_WC_HI.word i) value.toNat with
    | some t => .next t
    | none => .next { s.setWord (TRN_WC_HI.word i) value with trn := { s.trn with armed := s.trn.armed.filter (· ≠ i) ++ [i] } }

/-- WEB_COMPARE_FIRE (R534): the web line count is at least the value. -/
def execWebCompareFire (i : Nat) (s : State) : Host.Outcome State Fault Refusal :=
  if !s.trnRuns ∨ !s.trn.armed.contains i ∨ s.scn.webLine < s.get64 (TRN_WC_LO.word i) then .next s
  else .next ({ s with trn := { s.trn with armed := s.trn.armed.filter (· ≠ i) } }.event (224 + i))

end Sys2Proof.Machine
end

