-- ==== Sys2Proof/Machine/Power.lean ====
section
/-! DEFINITION. Power states (R601 to R605) and the sequencer (R616 to R618): requests, steps, runs of the program, and what each step stops and starts. -/
namespace Sys2Proof.Machine

/-! ## Parts of the steps -/

/-- A debug session closes with a cause (R661): CLOSE_CAUSE records it, REMAIN_S and LEVEL read 0, held cores run on. -/
def State.closeSession (s : State) (cause : Nat) : State :=
  if s.f SEC_DBG_STATUS.LEVEL ≠ 0 then
    let s := ((s.setF SEC_DBG_STATUS.STATE (if s.sec.token.isSome then 1 else 0)).setF SEC_DBG_STATUS.CLOSE_CAUSE cause).setF SEC_DBG_STATUS.REMAIN_S 0
    { s.setF SEC_DBG_STATUS.LEVEL 0 with sec := { s.sec with halted := false } }
  else s

/-- A step ends. -/
def State.stepDone (s : State) (p : Nat) : State := (s.setF PWR_STATE.STEPPING 0).setPower p

/-- A step is refused with a cause (R603): 0 none, 1 fault in progress, 2 rail not good, 3 configuration, 4 cascade member, 5 thermal. -/
def State.stepRefused (s : State) (cause : Nat) : State := ((s.raise PWR_STATE.REFUSED).setF PWR_STATE.CAUSE cause).pf 6

/-- The ring stops (R569): the block loses power, the ring's place in line is forgotten but for the index it held (R565). -/
def State.ringStop (s : State) : State :=
  if !s.b CUL_CTRL.ENABLE then s
  else
    let s := { s with cul := { held := if s.culIndex = 15 then s.cul.held else some s.culIndex, seqs := s.cul.seqs, xsweep := s.cul.xsweep } }
    let s := ((s.setPortState true 0).setPortState false 0).setF CUL_TB.LOCKED 0
    ((s.setF CUL_PORT_E.LANE_LOCK 0).setF CUL_PORT_W.LANE_LOCK 0).setCul culOFF

/-- The ring comes up (R548 step 1): every port trains. -/
def State.ringStart (s : State) : State :=
  if !s.b CUL_CTRL.ENABLE then s
  else
    let held := if s.culIndex = 15 then s.cul.held else some s.culIndex
    let s := { s with cul := { held := held, seqs := s.cul.seqs, xsweep := s.cul.xsweep } }
    let s := ((s.setPortState true 1).setPortState false 1).setF CUL_TB.LOCKED 0
    let s := ((s.setF CUL_MEMBERS.PRESENT 0).setF CUL_MEMBERS.ABSENT 0).setF CUL_MEMBERS.FOLD_AT 15
    (s.setF CUL_STATUS.INDEX 15).setCul culTRAIN

/-- READY to STANDBY: Flumes, beam links, scan links and the ring lose power. -/
def State.linksOff (s : State) : State :=
  let s := s.ringStop.flumesOff
  let s := s.enabledStations.foldl (fun (s : State) bl =>
    (s.modPort bl (fun p => { p with queue := [], cur := none, fails := 0, busy := false, laneBad := false })).setBl bl blDOWN) s
  [0, 1].foldl (fun (s : State) side => if s.sideOn side then s.insLinkDown side 0 0 else s) s

/-- STANDBY to READY: they get it back; the Flume test runs and the links and the ring train (R305, R355, R404, R548). -/
def State.linksOn (s : State) : State :=
  let s := s.startTests
  let s := s.enabledStations.foldl (fun (s : State) bl => if s.b (SCN_BL_CTRL.ENABLE bl) then s.retrain bl else s) s
  let s := [0, 1].foldl (fun (s : State) side => if s.sideOn side && s.sideEnabled side then s.setInsLink side 1 else s) s
  s.ringStart

/-- STANDBY to SLEEP: Siphon, jobs, loops, axes and turnout stop, the composer empties, the spool shuts down with a normal shutdown notification,
an open debug session closes, the AL state falls to PRE-OP (R175, R181, R249, R276, R470, R501, R536, R577, R603, R661). -/
def State.goToSleep (s : State) : State :=
  let s := ((((s.stopChannels 0x03).stopJobs 0x03).composerSleep).loopsSleep).axesSleep
  let s := s.trnSleep
  let s := ({ s with spl := { s.spl with asleep := true, starting := false, closing := 1 } }.refreshRefusal).closeSpool
  (s.closeSession 3).alSleep

/-- SLEEP to STANDBY, after the up run: Siphon, composer, root port and spool come back (R175, R276, R603). -/
def State.wakeUp (s : State) : State :=
  let s := s.resumeChannels
  let s := { s with spl := { s.spl with asleep := false, closing := 0 } }
  if s.b SPL_CTRL.ENABLE then s.spoolStart else s.refreshRefusal

/-! ## Sequencer runs (R617) -/

abbrev sqIDLE : Nat := 0
abbrev sqRUNNING : Nat := 1
abbrev sqDONE : Nat := 2
abbrev sqFAILED : Nat := 3

/-- A run starts at its entry with F 0 (R617). -/
def State.seqStart (s : State) (up : Bool) : State :=
  let s := { s with pwr := { s.pwr with seqUp := up, seqWords := 0 } }
  let s := s.setF PWR_SEQ_STATUS.PC (if up then s.f PWR_SEQ_CFG.UP_ENTRY else s.f PWR_SEQ_CFG.DOWN_ENTRY)
  (s.setF PWR_SEQ_STATUS.F 0).setF PWR_SEQ_STATUS.STATE sqRUNNING

/-- A run ends with a code. A good up run brings STANDBY; a failed one is an event of FCLASS and runs the down entry, and the device stays in SLEEP
with the code kept; a failed down run is an event with its code as the parameter, and its step completes (R617). -/
def State.seqOver (s : State) (code : Nat) : State :=
  let cls := s.f PWR_SEQ_CFG.FCLASS + 1
  if s.pwr.seqUp then
    if code = 0 then
      let s := ((s.setF PWR_SEQ_STATUS.STATE sqDONE).setF PWR_SEQ_STATUS.CODE 0).stageTo 10
      if s.power = pwrSLEEP ∧ s.b PWR_STATE.STEPPING then (s.stepDone pwrSTANDBY).wakeUp else s
    else
      let s := ((s.setF PWR_SEQ_STATUS.CODE code).report 0x11 cls 0x19).pf 6
      { s with pwr := { s.pwr with seqKeep := some code } }.seqStart false
  else
    let s := if code = 0 then s else (s.report 0x11 cls 0x19 code).pf 6
    match s.pwr.seqKeep with
    | some c =>
      let s := { s with pwr := { s.pwr with seqKeep := none } }
      ((s.setF PWR_SEQ_STATUS.STATE sqFAILED).setF PWR_SEQ_STATUS.CODE c).setF PWR_STATE.STEPPING 0
    | none =>
      let s := (s.setF PWR_SEQ_STATUS.STATE (if code = 0 then sqDONE else sqFAILED)).setF PWR_SEQ_STATUS.CODE code
      if s.power = pwrSTANDBY ∧ s.b PWR_STATE.STEPPING then s.stepDone pwrSLEEP else s

/-- A thermal shutdown stops a run at once with code 0xFD (R618). -/
def State.seqStop (s : State) : State :=
  if s.f PWR_SEQ_STATUS.STATE = sqRUNNING then
    { (s.setF PWR_SEQ_STATUS.STATE sqFAILED).setF PWR_SEQ_STATUS.CODE 0xFD with pwr := { s.pwr with seqKeep := none } }
  else s

/-- The word at the program counter. -/
def State.seqWord (s : State) : Nat := s.f (PWR_SEQ_PROG.WORD (s.f PWR_SEQ_STATUS.PC))

/-- Does the sequencer stand at a word with this opcode? -/
def State.seqAt (s : State) (op : Nat) : Bool := s.power ≠ pwrOFF && s.f PWR_SEQ_STATUS.STATE = sqRUNNING && bits s.seqWord 28 4 = op

/-- The word has run: on to `pc`, or past word 63 with code 0xFC; 1,024 words in a row with no WAIT or WAITPG end the run with 0xFE (R617). -/
def State.seqNext (s : State) (wait : Bool) (pc : Option Nat) : State :=
  let n := if wait then 0 else s.pwr.seqWords + 1
  let s := { s with pwr := { s.pwr with seqWords := n } }
  if 1024 ≤ n then s.seqOver 0xFE
  else match pc with
    | some t => s.setF PWR_SEQ_STATUS.PC t
    | none => if s.f PWR_SEQ_STATUS.PC = 63 then s.seqOver 0xFC else s.setF PWR_SEQ_STATUS.PC (s.f PWR_SEQ_STATUS.PC + 1)

/-- Is a program word one that R616 takes: a defined opcode, a defined COND, no bit outside the opcode's fields? -/
def seqWordOk (w : Nat) : Bool :=
  let f := w % 2 ^ 28
  match w / 2 ^ 28 with
  | 0 => decide (f < 256)
  | 1 => decide (f < 32)
  | 2 => decide (f < 32)
  | 3 => decide (f < 65536)
  | 4 => decide (f < 2097152)
  | 5 => decide (f % 65536 = 0) && decide (f < 16777216) && decide (bits f 21 3 < 6)
  | 6 => decide (f < 64)
  | 7 => decide (bits f 6 2 = 0) && decide (f < 512)
  | _ => false

/-- Does the program take writes: IDLE, DONE or FAILED? -/
def State.seqOpen (s : State) : Bool := s.f PWR_SEQ_STATUS.STATE ≠ sqRUNNING

/-- SEQ_PROGRAM_WRITE (R616): a valid word is stored while the sequencer rests; any other write is ignored and sets CTRL_REFUSED. -/
def execSeqProgramWrite (i : Nat) (value : BitVec 32) (s : State) : Host.Outcome State Fault Refusal :=
  let off := PWR_SEQ_PROG.word i
  if 64 ≤ i then .next (s.reportAccess 0x11 0x01 2 0 off value.toNat)
  else if s.poweredDown off then .next (s.darkWrite off value.toNat)
  else if s.word off = value then .next s
  else if s.seqOpen && seqWordOk value.toNat then .next (s.setWord off value)
  else .next (s.raise PWR_STATUS.CTRL_REFUSED)

/-- SEQ_END (R616, R617). -/
def execSeqEnd (s : State) : Host.Outcome State Fault Refusal := if s.seqAt 0 then .next (s.seqOver (bits s.seqWord 0 8)) else .next s

/-- SEQ_ENABLE (R614, R616): the rail's request is set. -/
def execSeqEnable (s : State) : Host.Outcome State Fault Refusal :=
  if s.seqAt 1 then .next (((s.setF PWR_RAIL_REQ.REQ (setBit (s.f PWR_RAIL_REQ.REQ) (bits s.seqWord 0 5) true)).railSync).seqNext false none)
  else .next s

/-- SEQ_DISABLE (R614 to R616): the rail's request and its latch are cleared. -/
def execSeqDisable (s : State) : Host.Outcome State Fault Refusal :=
  if s.seqAt 2 then
    let k := bits s.seqWord 0 5
    let s := (s.setF (PWR_RAIL_STATUS.LATCH k) 0).setF PWR_RAIL_REQ.REQ (setBit (s.f PWR_RAIL_REQ.REQ) k false)
    .next (s.railSync.seqNext false none)
  else .next s

/-- SEQ_WAIT (R616): T × 100 µs have passed. -/
def execSeqWait (s : State) : Host.Outcome State Fault Refusal := if s.seqAt 3 then .next (s.seqNext true none) else .next s

/-- SEQ_WAITPG (R616, R617): the rail is good, or the time has passed; with T = 0 the rail is tested once. -/
def execSeqWaitpg (expired : Bool) (s : State) : Host.Outcome State Fault Refusal :=
  if !s.seqAt 4 then .next s
  else
    let good := s.railGood (bits s.seqWord 16 5)
    if good || expired || bits s.seqWord 0 16 = 0 then .next ((s.setB PWR_SEQ_STATUS.F good).seqNext true none) else .next s

/-- SEQ_CHECK (R616): F = COND of the rail. -/
def execSeqCheck (s : State) : Host.Outcome State Fault Refusal :=
  if !s.seqAt 5 then .next s
  else
    let k := bits s.seqWord 16 5
    let v := s.f (PWR_RAIL_STATUS.MV k)
    let uv := s.f (PWR_RAIL_UV.WARN k)
    let ov := s.f (PWR_RAIL_OV.WARN k)
    let c := match bits s.seqWord 21 3 with
      | 0 => s.railGood k
      | 1 => s.b (PWR_RAIL_STATUS.PG k)
      | 2 => decide (uv ≤ v)
      | 3 => decide (v ≤ ov)
      | 4 => decide (uv ≤ v ∧ v ≤ ov)
      | _ => decide (10 * v < uv)
    .next ((s.setB PWR_SEQ_STATUS.F c).seqNext false none)

/-- SEQ_JUMP (R616). -/
def execSeqJump (s : State) : Host.Outcome State Fault Refusal :=
  if s.seqAt 6 then .next (s.seqNext false (some (bits s.seqWord 0 6))) else .next s

/-- SEQ_JUMPIF (R616): the jump is taken if F equals SENSE. -/
def execSeqJumpif (s : State) : Host.Outcome State Fault Refusal :=
  if s.seqAt 7 then .next (s.seqNext false (if s.b PWR_SEQ_STATUS.F = bit s.seqWord 8 then some (bits s.seqWord 0 6) else none)) else .next s

/-- SEQ_LIMIT_TIMEOUT (R617): the run is longer than LIMIT_MS. -/
def execSeqLimitTimeout (s : State) : Host.Outcome State Fault Refusal :=
  if s.power ≠ pwrOFF ∧ s.f PWR_SEQ_STATUS.STATE = sqRUNNING then .next (s.seqOver 0xFF) else .next s

/-! ## Requests and steps (R602, R603) -/

/-- POWER_STATE_REQUEST (R602, R553): a code above 5 is ignored and sets REFUSED; RUN is not for a member of the ring to ask. -/
def execPowerStateRequest (value : Nat) (s : State) : Host.Outcome State Fault Refusal :=
  if s.poweredDown PWR_STATE.word then .next (s.darkWrite PWR_STATE.word value)
  else if 5 < value then .next (s.raise PWR_STATE.REFUSED)
  else if s.ringMember ∧ value = pwrRUN then .next (s.raise CUL_STATUS.CTRL_REFUSED)
  else .next (s.setF PWR_STATE.REQ value)

/-- Place of a state in the chain RUN, READY, STANDBY, SLEEP, HIBERNATE, OFF. -/
def powerDepth : Nat → Nat
  | 5 => 0 | 2 => 1 | 3 => 2 | 4 => 3 | 1 => 4 | _ => 5

/-- Does the chain lead from the present state `p` down, or up? -/
def State.goesDown (s : State) (p : Nat) : Bool := s.power = p && decide (powerDepth p < powerDepth (s.f PWR_STATE.REQ))
def State.goesUp (s : State) (p : Nat) : Bool := s.power = p && decide (powerDepth (s.f PWR_STATE.REQ) < powerDepth p)

/-- What refuses READY to RUN (R603, R28, R97, R147, R326, R554, R649): the cause, none where the step is taken. -/
def State.runRefusal (s : State) : Option Nat :=
  if s.stopActive then some 1
  else if s.f PWR_RAIL_REQ.REQ &&& s.f PWR_RAIL_GOOD.GOOD ≠ s.f PWR_RAIL_REQ.REQ then some 2
  else if !s.boot.dramOk || s.engineShort || (s.sheetMode && decide (s.obj 0x2101 4 < 2560)) || (s.sheetMode && s.gapBelowSlew) ||
    s.f SEC_LC.STATE = 0 || s.f SEC_LC.STATE = 3 then some 3
  else if s.ringMaster && s.culOthers.any (fun d => (s.cul.stats.getD {} d).fault) then some 4
  else none

/-- The engine enters RUN: the run-up begins (R349), boot step 12. -/
def State.enterRun (s : State) (c : Nat) : State :=
  let s := (((s.setF PWR_STATE.STEPPING 1).setF SIP_STATUS.ENGINE_SHORT 0).setPower pwrRUN).stageTo 12
  let s := { s with pages := { s.pages with refuse97 := false, refuse326 := false }, pwr := { s.pwr with runUp := true } }
  s.classStart c

/-- What a refused entry to RUN leaves to be corrected: R97 and R326 refuse PRINT and REISSUE until then, R147 names too few INGEST channels. -/
def State.noteRefusal (s : State) : State :=
  let s := { s with pages := { s.pages with refuse97 := s.pages.refuse97 || (s.sheetMode && decide (s.obj 0x2101 4 < 2560)),
                                            refuse326 := s.pages.refuse326 || (s.sheetMode && s.gapBelowSlew) } }
  if s.engineShort then s.setF SIP_STATUS.ENGINE_SHORT 1 else s

/-- POWER_STEP_READY_TO_RUN (R603): checked, then the run-up begins; CLASS_SETTLED ends the step. A refusal under R97, R147 or R326 stands until it
is corrected. -/
def execPowerStepReadyToRun (s : State) : Host.Outcome State Fault Refusal :=
  if !s.goesUp pwrREADY || s.ringMember then .next s
  else match s.runRefusal with
    | some c => .next (s.noteRefusal.stepRefused c)
    | none => .next (s.enterRun s.nextClass)

/-- One turn of the step out of RUN: no frame is latched any more and unlatched frames give their pages back; with every latched page printed the web
ramps to rest; at rest the engine is in READY. -/
def State.leaveRun (s : State) : State :=
  let s := { s.syncSpeed with pwr := { s.pwr with runUp := false } }
  let s := if s.b PWR_STATE.STEPPING && !s.ramping then s else (s.setF PWR_STATE.STEPPING 1).unclaim
  if s.enabledStations.any s.stationBusy then s
  else
    let s := if s.scn.spTo = 0 then s else s.askSpeed 0
    if 10000 ≤ s.f SCN_WEB_SPEED.SPEED then s
    else
      let s := (s.setF SCN_STATE.STATE 0).setF FLM_STATUS.SCHED_RUN 0
      { s.stepDone pwrREADY with pages := { s.pages with nextTof := none, frames := [], wantClass := none, sheetReq := [],
                                                         pages := s.pages.pages.map (fun (p : Page) => { p with feedReq := false }) }, cul := { s.cul with frames := 0 } }

/-- POWER_STEP_RUN_TO_READY (R602, R603): each occurrence takes the step as far as the pages and the web allow; a run-up under way ends first. -/
def execPowerStepRunToReady (s : State) : Host.Outcome State Fault Refusal :=
  if s.goesDown pwrRUN && !s.pwr.runUp then .next s.leaveRun else .next s

/-- POWER_STEP_READY_TO_STANDBY (R569, R603): a ring's master first sends TIMEBASE with ENGINE 2 for 1 ms, 100 messages. -/
def execPowerStepReadyToStandby (s : State) : Host.Outcome State Fault Refusal :=
  let s := s.syncSpeed
  if !s.goesDown pwrREADY then .next s
  else if 10000 ≤ s.f SCN_WEB_SPEED.SPEED then .next (s.stepRefused 0)
  else if s.ringMaster ∧ (s.cul.ending.getD 0) < 100 then
    .next { s.setF PWR_STATE.STEPPING 1 with cul := { s.cul with ending := some (s.cul.ending.getD 0) } }
  else .next (s.linksOff.stepDone pwrSTANDBY)

/-- POWER_STEP_STANDBY_TO_READY (R603): boot step 11. -/
def execPowerStepStandbyToReady (s : State) : Host.Outcome State Fault Refusal :=
  if !s.goesUp pwrSTANDBY then .next s else .next (((s.stepDone pwrREADY).linksOn).stageTo 11)

/-- POWER_STEP_STANDBY_TO_SLEEP (R603): everything stops and the down entry of the program runs; the end of the run ends the step. -/
def execPowerStepStandbyToSleep (s : State) : Host.Outcome State Fault Refusal :=
  if !s.goesDown pwrSTANDBY || s.b PWR_STATE.STEPPING then .next s else .next (((s.setF PWR_STATE.STEPPING 1).goToSleep).seqStart false)

/-- POWER_STEP_SLEEP_TO_STANDBY (R603): refused while THERMAL is active; else the up entry runs, and its end ends the step. -/
def execPowerStepSleepToStandby (s : State) : Host.Outcome State Fault Refusal :=
  if !s.goesUp pwrSLEEP || s.b PWR_STATE.STEPPING || !s.boot.cores then .next s
  else if bit (s.f THM_WEIR.ACTIVE) 0 then .next (s.stepRefused 5)
  else .next (((s.setF PWR_STATE.STEPPING 1).seqStart true).stageTo 9)

end Sys2Proof.Machine
end

