-- ==== Sys2Proof/Machine/Climate.lean ====
section
/-! DEFINITION. Supplies, pace and temperature (R607 to R611, R619 to R625): the PMIC poll, the core-voltage governor, the die sensors, the thermal
condition of the weir, the critical level and the hardware shutdown. -/
namespace Sys2Proof.Machine

/-! ## PMBus and AVSBus -/

/-- PMIC enable that feeds supply `i` of the list VDD_CORE, VDD_SRAM, VDD_PLL, VDDA_SERDES, VDDH_SERDES, VDD_DDR, VDD_IO (R606). -/
def supplyEnable : Nat → Nat
  | 0 => 0 | 1 => 0 | 2 => 1 | 3 => 1 | 4 => 2 | 5 => 2 | _ => 3

/-- PMBUS_POLL (R607): `ok` is false where a transaction has failed three times in a row; `fault` names a supply that the PMIC reports. -/
def execPmbusPoll (ok : Bool) (fault : Option Nat) (s : State) : Host.Outcome State Fault Refusal :=
  if !s.boot.cores || s.power = pwrHIBERNATE || s.power = pwrOFF then .next s
  else
    let s := { s with pwr := { s.pwr with pmbusUsed := true } }
    if !ok then .next (((s.raise PWR_PMIC.BUS_ERR).report 0x11 1 0x11).pf 6)
    else match fault with
      | some i => if i = 0 ∨ 6 < i then .next s else .next ((s.report 0x11 4 0x13 (supplyEnable i * 256)).pf 6)
      | none => .next s

/-- The lowest VSET allowed now (R610). -/
def State.vMin (s : State) : Nat :=
  let v := s.f PWR_AVS.VMIN
  if s.inRun || s.power = pwrREADY || (s.b PWR_STATE.STEPPING && (s.goesUp pwrSTANDBY || s.goesUp pwrREADY)) then max v 800 else v

/-- Write a new VDD_CORE target over AVSBus (R609). -/
def State.setVset (s : State) (v : Nat) : State :=
  if v = s.f PWR_AVS_STATUS.VSET then s
  else ((s.setF PWR_AVS_STATUS.VSET v).satInc PWR_AVS_ERR.WRITES).emit (.pmic 0 (leBytes 2 v))

/-- Is the block beside pace monitor m powered: Flumes 0 to 15, Korip, composer, Siphon, comparator (R608)? -/
def State.paceOn (s : State) (m : Nat) : Bool :=
  !s.poweredDown (if m < 16 then 0x800000 else if m = 16 then 0x300000 else if m = 17 then 0x400000 else if m = 18 then 0x100000 else 0x1800000) &&
  (m < 19 || s.insRuns)

/-- The governor's write of one evaluation (R609, R610). -/
def State.govern (s : State) (smin : Int) : State :=
  let v := s.f PWR_AVS_STATUS.VSET
  let lo := s.vMin
  let hi := s.f PWR_AVS.VMAX
  let high := if 200 < smin then s.pwr.over20 + 1 else 0
  let s := { s with pwr := { s.pwr with over20 := if 10 ≤ high then 0 else high } }
  let v := if smin < 100 then v + 10 else if 10 ≤ high ∧ ¬ s.b PWR_AVS_ERR.MISMATCH then v - 5 else v
  s.setVset (min hi (max lo v))

/-- The condition PACE (R611): S_min below 0 for 10 ms, 100 evaluations, at VMAX; it clears when S_min has stayed above 10 % for 10 s. -/
def State.pace (s : State) (smin : Int) : State :=
  let slow := if smin < 0 ∧ s.f PWR_AVS_STATUS.VSET = s.f PWR_AVS.VMAX then s.pwr.slow + 1 else 0
  let fast := if 100 < smin then s.pwr.fast + 1 else 0
  let s := { s with pwr := { s.pwr with slow := slow, fast := fast } }
  let s := if slow = 100 then ((s.weirOn 3).weirAsk 3 (min 4 (s.classNow + 1))).pf 5 else s
  if fast = 100000 ∧ bit (s.f THM_WEIR.ACTIVE) 3 then (s.weirOff 3).pf 5 else s

/-- PACE_EVALUATE (R608 to R611): the slacks in 0.1 % as measured, and the read-back of VDD_CORE in mV. -/
def execPaceEvaluate (slack : List (BitVec 16)) (vread : Nat) (s : State) : Host.Outcome State Fault Refusal :=
  if !s.boot.cores || s.power = pwrHIBERNATE || s.power = pwrOFF then .next s
  else
    let on := (List.range 20).filter s.paceOn
    let s1 := (List.range 20).foldl (fun (t : State) m => t.setF (PWR_PACE.SLACK m) (if s.paceOn m then (slack.getD m 0).toNat else 0x8000)) s
    let v := s.f PWR_AVS_STATUS.VSET
    let bad := decide (v + 15 < vread ∨ vread + 15 < v)
    let n := if bad then s.pwr.avsFails + 1 else 0
    let s1 := { s1.setF PWR_AVS_STATUS.VREAD (min vread 2047) with pwr := { s.pwr with avsFails := n } }
    let s1 := if n = 3 ∧ ¬ s.b PWR_AVS_ERR.MISMATCH then ((s1.setF PWR_AVS_ERR.MISMATCH 1).report 0x11 1 0x12).pf 6 else s1
    match on.map (fun m => (slack.getD m 0).toInt) with
    | [] => .next s1
    | x :: t =>
      let smin := t.foldl (fun (a : Int) y => min a y) x
      .next ((s1.govern smin).pace smin)

/-- VDD_CORE_UNDERVOLT (R611): below 0.70 V for 10 µs, a C4. -/
def execVddCoreUndervolt (s : State) : Host.Outcome State Fault Refusal :=
  if s.power = pwrHIBERNATE ∨ s.power = pwrOFF then .next s else .next ((s.report 0x11 4 0x14).pf 6)

/-! ## Going dark -/

/-- Registers that HIBERNATE and SYS_RESET_N leave: HDG, PWR, THM, OTP, FLT and EVR, and the fenced and retired Flumes (R312, R601, R698, R730). -/
def aonKept (otp : Bool) (off : Nat) : Bool :=
  decide (0x1400000 ≤ off ∧ off < 0x1800000) || decide (0x2C00000 ≤ off ∧ off < 0x2E00000) || (otp && decide (0x3000000 ≤ off ∧ off < 0x3200000)) ||
  decide (0x3400000 ≤ off ∧ off < 0x3800000)

/-- What a power cycle leaves of the spool: the catalogue of the copies and the audits on the drives, complete or not, the salts, the journal
(R192, R193, R199). What the staging region held of a copy is gone. -/
def Spl.survives (x : Spl) : Spl :=
  { catalogue := x.catalogue ++ x.copies.map (fun c => if c.stage = .complete then { c with staged := [], releaseWait := false } else { c with stage := .incomplete }),
    audits := x.audits.filter (fun a => a.complete), nextKey := x.nextKey, direct := x.direct.filter (fun d => !d.inFlight),
    journal := x.journal, exhausted := x.exhausted, stripe := x.stripe,
    drives := x.drives.map (fun (e : Nat × Drive) => (e.1, { salts := e.2.salts })) }

/-- A calibration store is cut short: its slot, the one not in force, is left invalid (R707). -/
def Evr.cut (e : Evr) : Evr :=
  if e.stores.isEmpty then e
  else
    let inB := e.slotB.valid && (!e.slotA.valid || decide (e.slotA.seq.toNat < e.slotB.seq.toNat))
    if e.slotA.valid && !inB then { e with stores := [], slotB := {} } else { e with stores := [], slotA := {} }

/-- Everything outside the always-on domain loses its state (R601, R730); what lies in fuses, in flash and on the drives stays. -/
def State.darken (s : State) (otp : Bool) : State :=
  let s := s.otpCut.setSpool false
  let keepFl := fun (e : Nat × Word) => decide (e.1 = FLM_FENCED.word) || decide (e.1 = FLM_RETIRED.word) ||
    (decide (FLM_SLICE_STATE.word 0 ≤ e.1 ∧ e.1 < FLM_SLICE_STATE.word 16))
  let t : State := { State.reset with
    variant := s.variant, freeCtr := s.freeCtr, pending := s.pending, out := s.out, waiting := s.waiting, otp := s.otp,
    regs := s.regs.filter (fun e => aonKept otp e.1 || keepFl e), spool := s.spool, spl := s.spl.survives,
    boot := { strap := s.boot.strap }, hif := { perst := s.hif.perst }, pwr := s.pwr, flt := { s.flt with quietAt := none, recovs := [] }, hdg := { s.hdg with sts := [] }, evr := s.evr.cut,
    ect := { siiOk := s.ect.siiOk } }
  t.setF CLK_STATUS.REFCLK_OK (s.f CLK_STATUS.REFCLK_OK)

/-- The speed gates are shut and the host sees link loss once the device is dark (R690, R601). -/
def State.gatesShut (s : State) : State := (List.range 12).foldl (fun (s : State) st => s.setF (HDG_ST_STATUS.SLOW st) 1) s

/-- The composer's registers come back after HIBERNATE, with no pin resident (R276). -/
def State.keepPins (s old : State) : State :=
  let s := s.setWord CMP_MERGE.word (old.word CMP_MERGE.word)
  let s := (List.range 16).foldl (fun (s : State) i =>
    ((s.setWord (CMP_PIN_ID.word i) (old.word (CMP_PIN_ID.word i))).setF (CMP_PIN_ID.RESIDENT i) 0).setF (CMP_PIN_CNT.COUNT i) (old.f (CMP_PIN_CNT.COUNT i))) s
  { s with cmp := { merge := old.cmp.merge, repin := true } }

/-- Enter HIBERNATE: every block but the always-on domain is unpowered (R601, R603, R624). -/
def State.hibernate (s : State) : State :=
  let t := (s.closeSession 3).pmicOff.aliveStop
  let s := (t.darken true).keepPins t
  let s := ((s.gatesShut.setF PWR_STATE.STEPPING 0).setF PWR_STATE.NOW pwrHIBERNATE).hdgSync.railSync
  { s with pwr := { s.pwr with runUp := false } }

/-- DC wake (R587): object 0x2002:07 at least 100 ms ahead arms the always-on count; a time closer than that is a C0. -/
def State.armWake (s : State) : State :=
  let w : Nat := (s.wword ECT_WAKE_LO.word).toNat + 2 ^ 32 * (s.wword ECT_WAKE_HI.word).toNat
  let dc : Int := (s.now.toNat : Int) + sgn 64 (s.get64 ECT_DC_OFS_LO.word)
  if w = 0 then { s with pwr := { s.pwr with dcWake := false } }
  else if dc + 100000000 ≤ (w : Int) then { s with pwr := { s.pwr with dcWake := true } }
  else { s.ectReport 0 0x15 with pwr := { s.pwr with dcWake := false } }

/-- POWER_STEP_SLEEP_TO_HIBERNATE (R587, R603): the control cores stop, the supplies go down. -/
def execPowerStepSleepToHibernate (s : State) : Host.Outcome State Fault Refusal :=
  if !s.goesDown pwrSLEEP || s.b PWR_STATE.STEPPING then .next s else .next s.armWake.hibernate

/-- POWER_STEP_HIBERNATE_TO_OFF (R312, R603): every PMIC enable and every rail EN goes low; fenced and retired Flumes are forgotten. -/
def execPowerStepHibernateToOff (s : State) : Host.Outcome State Fault Refusal :=
  if !s.goesDown pwrHIBERNATE then .next s
  else
    let s := (s.pmicOff.railsOff).resetRegs 0x800000 0xC00000
    let s := { s with pwr := { s.pwr with dcWake := false } }
    .next (s.setF PWR_STATE.NOW pwrOFF).hdgSync

/-! ## Die temperature (R619 to R625) -/

def State.sensor (s : State) (i : Nat) : Sensor := s.pwr.sensors.getD {} i
def State.setSensor (s : State) (i : Nat) (x : Sensor) : State := { s with pwr := { s.pwr with sensors := s.pwr.sensors.set {} i x } }

/-- Last reading of a sensor, in 0.1 °C. -/
def State.temp (s : State) (i : Nat) : Int := s.fi (THM_SENS.TEMP i)

/-- Sensors that are not excluded. -/
def State.sensorsIn (s : State) : List Nat := (List.range 32).filter (fun i => !s.b (THM_SENS.EXCLUDED i))

/-- Put a number in a rising list. -/
def insertInt (x : Int) : List Int → List Int
  | [] => [x]
  | y :: t => if x ≤ y then x :: y :: t else y :: insertInt x t

/-- Twice the median of a list: of an even number, the mean of the middle two (assumption log 31). -/
def median2 (l : List Int) : Int :=
  let q := l.foldl (fun (a : List Int) x => insertInt x a) []
  q.getD ((q.length - 1) / 2) 0 + q.getD (q.length / 2) 0

/-- The device excludes a sensor: FAULTY, and a C1 (R620). -/
def State.excludeSensor (s : State) (i : Nat) : State :=
  ((((s.setF (THM_SENS.EXCLUDED i) 1).raise (THM_SENS.FAULTY i)).setSensor i { s.sensor i with byDev := true, near := 0 }).report 0x12 1 0x1A i).pf 5

/-- One sensor's exclusion in a round, against twice the median of the sensors not excluded before it (R620). -/
def State.judgeSensor (s : State) (med2 : Int) (i : Nat) : State :=
  let t := s.temp i
  let x := s.sensor i
  let range := decide (-550 ≤ t ∧ t ≤ 1500)
  let off := decide (400 < (2 * t - med2).natAbs)
  if !s.b (THM_SENS.EN i) then (s.setF (THM_SENS.EXCLUDED i) 1).setSensor i { x with far := 0, near := 0, hot := 0, byDev := false }
  else if !s.b (THM_SENS.EXCLUDED i) then
    let far := if off then x.far + 1 else 0
    let s := s.setSensor i { x with far := far, near := 0 }
    if !range || decide (3 ≤ far) then s.excludeSensor i else s
  else if !x.byDev then (s.setF (THM_SENS.EXCLUDED i) 0).setSensor i {}
  else
    let near := if range && !off then x.near + 1 else 0
    if 3 ≤ near then (s.setF (THM_SENS.EXCLUDED i) 0).setSensor i {} else s.setSensor i { x with near := near }

/-- The thermal condition of the weir begins (R621): TARGET, REQ, a C0, the grace time. -/
def State.thermalWarning (s : State) : State :=
  let s := (s.weirOn 0).weirAsk 0 (min 4 (s.classNow + 1))
  let s := ((s.setF THM_WEIR.REQ 1).report 0x12 0 0x1C (s.f THM_STATUS.HOT_S)).pf 5
  { s with pwr := { s.pwr with grace := true, changed := false, ordered := false, cool := 0 } }

/-- It clears when HOT has stayed below WARN - HYST for 10 s, 31,250 rounds (R622). -/
def State.thermalClear (s : State) : State :=
  { (((s.weirOff 0).setF THM_WEIR.REQ 0).pf 5) with pwr := { s.pwr with grace := false, ordered := false, changed := false, cool := 0 } }

/-- WARN and CRIT against HOT (R621 to R623). -/
def State.judgeHot (s : State) : State :=
  let hot := s.fi THM_STATUS.HOT
  let warn : Int := 10 * (s.f THM_CFG.WARN : Int)
  let hyst : Int := 10 * (s.f THM_CFG.HYST : Int)
  let crit : Int := 10 * (s.f THM_CFG.CRIT : Int)
  let active := bit (s.f THM_WEIR.ACTIVE) 0
  let cool := if active ∧ hot < warn - hyst then s.pwr.cool + 1 else 0
  let s := { s with pwr := { s.pwr with cool := cool } }
  let s := if !active ∧ warn ≤ hot then s.thermalWarning else if active ∧ 31250 ≤ cool then s.thermalClear else s
  let at' := decide (crit ≤ hot)
  let s := if at' && !s.pwr.crit then (s.report 0x12 3 0x1D (s.f THM_STATUS.HOT_S)).pf 5 else s
  { s with pwr := { s.pwr with crit := at' } }

/-- The hardware thermal shutdown (R624): lasers and kills through Headgate, ALIVE and last words, rails without KEEP and the sequencer, the PMIC. -/
def State.thermalShutdown (s : State) (i : Nat) : State :=
  let s := ((s.setF THM_SHUT.ACTIVE 1).setF THM_SHUT.SENSOR i).satInc THM_SHUT.COUNT
  let s := s.hdgSync.aliveStop.lastWord 0x12 0x1E 0 0 i
  let s := s.seqStop.railSync.hibernate
  { s with pwr := { s.pwr with cool := 0 } }

/-- A round of readings, in 0.1 °C, once it is known that sensors are read (R620 to R625). -/
def State.thermalRound (s : State) (temps : List (BitVec 16)) : State :=
  let before := s.sensorsIn
  let s := (List.range 32).foldl (fun (s : State) i => s.setF (THM_SENS.TEMP i) (temps.getD i 0).toNat) s
  let wasFew := decide (before.length ≤ 24)
  let med2 := median2 (before.map s.temp)
  let s := (List.range 32).foldl (fun (s : State) i => s.judgeSensor med2 i) s
  let now := s.sensorsIn
  let s := if decide (now.length ≤ 24) && !wasFew then (s.report 0x12 3 0x1B (now.headD 0)).pf 5 else s
  let s := match now with
    | [] => s
    | a :: t =>
      let h := t.foldl (fun (m : Nat) i => if s.temp m < s.temp i then i else m) a
      (s.setF THM_STATUS.HOT_S h).setF THM_STATUS.HOT (unsgn 16 (s.temp h))
  let s := (List.range 32).foldl (fun (s : State) i =>
    let x := s.sensor i
    s.setSensor i { x with hot := if 1250 ≤ s.temp i && now.contains i then x.hot + 1 else 0 }) s
  if s.b THM_SHUT.ACTIVE then { s with pwr := { s.pwr with cool := if now.all (fun i => decide (s.temp i < 950)) then s.pwr.cool + 1 else 0 } }
  else match now.find? (fun i => 2 ≤ (s.sensor i).hot) with
    | some i => s.thermalShutdown i
    | none => if s.power = pwrHIBERNATE then s else s.judgeHot

/-- THERMAL_SENSOR_ROUND (R620): nothing is read while REFCLK is lost. -/
def execThermalSensorRound (temps : List (BitVec 16)) (s : State) : Host.Outcome State Fault Refusal :=
  if s.power = pwrOFF ∨ ¬ s.b CLK_STATUS.REFCLK_OK then .next s else .next (s.thermalRound temps)

/-- WEIR_GRACE_EXPIRY (R621): the first grace time orders TARGET where the class in force is still faster; one after a class change orders the next
slower class while HOT is still at or above WARN - HYST. -/
def execWeirGraceExpiry (s : State) : Host.Outcome State Fault Refusal :=
  if !s.pwr.grace then .next s
  else
    let changed := s.pwr.changed
    let s := { s with pwr := { s.pwr with grace := false, changed := false } }
    if !bit (s.f THM_WEIR.ACTIVE) 0 then .next s
    else if changed then
      if 10 * (s.f THM_CFG.WARN : Int) - 10 * (s.f THM_CFG.HYST : Int) ≤ s.fi THM_STATUS.HOT ∧ s.classNow < 4 then
        .next { ((s.weirAsk 0 (s.classNow + 1)).satInc THM_WEIR.ENFORCED).pf 5 with pwr := { s.pwr with ordered := true } }
      else .next s
    else if s.classNow < s.scn.asks.getD 0 0 then
      .next { (s.satInc THM_WEIR.ENFORCED).pf 5 with pwr := { s.pwr with ordered := true } }
    else .next s

end Sys2Proof.Machine
end

