-- ==== Sys2Proof/Machine/Sump.lean ====
section
/-! DEFINITION. The Sump (R672 to R687): taking reports, the first error, the queue, what a C3 and a C4 stop, recovery and latching. -/
namespace Sys2Proof.Machine

/-! ## Reports, the first error and the queue -/

/-- The INFO word of a report (R675), with VALID. -/
def Report.info (r : Report) : Nat := r.cls * 2 ^ 29 + 2 ^ 28 + r.access * 2 ^ 24 + r.master * 2 ^ 16 + r.src * 2 ^ 8 + r.cause

/-- The Sump's arbitration round of a stamp: 20 ns (R680, R698). -/
def Report.round (r : Report) : Nat := r.stamp.toNat / 20

/-- Is `a` taken before `b`: the earlier round first, in one round the higher class, then the lower SRC (R680)? -/
def Report.before (a b : Report) : Bool :=
  decide (a.round < b.round) || (decide (a.round = b.round) && (decide (b.cls < a.cls) || (decide (a.cls = b.cls) && decide (a.src < b.src))))

/-- The report that is taken first. -/
def firstReport : List Report → Option Report
  | [] => none
  | r :: t => some (t.foldl (fun (a : Report) x => if x.before a then x else a) r)

/-- The report that is taken last of those of the oldest round. -/
def lastReport (l : List Report) : Option Report :=
  match firstReport l with
  | none => none
  | some r => some ((l.filter (fun x => decide (x.round = r.round))).foldl (fun (a : Report) x => if a.before x then x else a) r)

/-- Show the head of the queue in the FLT_Q window (R679). -/
def State.showQueue (s : State) : State :=
  let n := s.flt.queue.length
  let r := s.flt.queue.headD {}
  let on := decide (0 < n)
  let s := (s.setF FLT_STATUS.QUEUED n).setF FLT_Q_INFO.INFO (if on then r.info else 0)
  let s := (s.set64 FLT_Q_ADDR_LO.word (if on then r.addr.toNat else 0)).set64 FLT_Q_STAMP_LO.word (if on then r.stamp.toNat else 0)
  s.setF FLT_Q_PARAM.PARAM (if on then r.param.toNat else 0)

/-- The first-error capture takes a report that qualifies while it is empty (R678). -/
def State.capture (s : State) (r : Report) : State :=
  if s.b FLT_STATUS.FE_VALID || decide (r.cls < s.f FLT_CTRL.FE_MIN) then s
  else
    let s := (s.setF FLT_STATUS.FE_VALID 1).setF FLT_FE_INFO.INFO r.info
    ((s.set64 FLT_FE_ADDR_LO.word r.addr.toNat).set64 FLT_FE_STAMP_LO.word r.stamp.toNat).setF FLT_FE_PARAM.PARAM r.param.toNat

/-- A report of class Q_MIN or above enters the queue, counts in FLT_CNT and is recorded; where the queue is full it is lost from it (R679, R680). A pop
of the same round, a command that waits, comes first. -/
def State.enqueue (s : State) (r : Report) : State :=
  if r.cls < s.f FLT_CTRL.Q_MIN then s
  else if 64 + (s.pending.filter (fun c => c = .sumpPop)).length ≤ s.flt.queue.length then s.satInc (FLT_OVR.LOST r.cls)
  else
    let s := ({ s with flt := { s.flt with queue := s.flt.queue ++ [r] } }.mark mkTake 1).showQueue
    (s.wrapInc (FLT_CNT.COUNT r.cls)).record r.src r.cause r.cls r.addr.toNat (r.addr.toNat / 2 ^ 32) r.param.toNat r.master r.access

/-! ## What a C3 stops (R86, R88, R174, R249, R274, R310, R423, R441, R469, R486, R605, R672) -/

/-- Has the page's top-of-form passed its last CIS bar (R86, R423)? -/
def State.pastBars (s : State) (p : Page) : Bool :=
  p.desc.insSides.all (fun i => ((s.insSide i).pages.find? (fun y => y.page = p.seq)).all (fun y =>
    decide (65536 * ((y.tof : Int) + s.f (INS_CIS_DIST.LINES y.side) - y.remain) ≤ s.scn.pos / 4096)))

/-- How a page ends under R86: an unlatched one DROPPED; a latched one, and one whose verdict can no longer come, SPOILED, STOPPED_IN_PATH. -/
def State.endPage (s : State) (p : Page) : State :=
  let stopped := fun (s : State) =>
    let s := (s.modPage p.seq (fun q => { q with spoil := q.spoil.orElse (fun _ => some 4) })).modFrame p.seq (fun f => { f with blank := true })
    (s.finalState p.seq 0x10 4).insDrop p.seq
  match p.phase with
  | .waiting => s.withdraw p.seq 0x11
  | .claimed => s.withdraw p.seq 0x11
  | .latched => stopped s
  | .printed => if s.pastBars p then s else stopped s
  | .final _ _ => s.insDrop p.seq

/-- Copies whose data can no longer land are discarded (R87, R191). -/
def State.dropOpenCopies (s : State) : State :=
  (s.spl.copies.filter (fun c => c.isOpen && decide (c.landed < c.bytes))).foldl (fun (s : State) c => s.loseCopy c.key) s

/-- The composer's loads and placement lists are discarded; what the tile store and the pinned area hold stays (R274). -/
def State.composerStop (s : State) : State :=
  let s := { s with tile := s.tile.clearRange 4194304 12582912, cmp := { s.cmp with lists := [], fills := [] } }
  (s.dropJobs (fun j => match j with | .compose _ => false | .pin _ => false | _ => true)).setStore (s.cmp.store.filter (fun t => !t.loading && !t.waits))

/-- At recovery the loads of accepted pins begin again (R266; assumption log 40). -/
def State.composerResume (s : State) : State :=
  ((List.range 16).foldl (fun (s : State) i =>
    if (s.pinOf i).accepted && !s.b (CMP_PIN_ID.RESIDENT i) then
      (s.pinTiles i).foldl (fun (s : State) t => s.wantTile (s.pinRange i).1 t) s
    else s) s).pinCopies

/-- Calibration captures, audit exports and a calibration sweep end (R438, R441). -/
def State.insStop (s : State) : State :=
  let s := [0, 1].foldl (fun (s : State) i => if s.b (INS_CAL_STATUS.BUSY i) then s.endCapture i 5 else s) s
  let s := if s.f INS_AUDIT_CTRL.STATE = 1 then s.endAudit 0x05 0 else s
  s.xcalAbandon 0

/-- Work in flight is discarded: transfers, jobs, furrows, the composer's loads and lists. -/
def State.dropWork (s : State) : State := ((s.stopChannels 0x02).stopJobs 0x02).auditsCut.stopFlumes.composerStop

/-- Is a function under FLR at this instant: begun in this round, or to begin with a command that waits, for which no time passes (R133)? -/
def State.flrNow (s : State) (fn : Nat) : Bool :=
  (s.roundOf 4 mkFlr).contains fn || s.pending.any (fun c => c = .flrStart fn || c = .flrStart 0)

/-- Every page ends, and what is left of copies, captures and exports with them; pages of a function that is reset in the same round end under R89 (R133). -/
def State.endPages (s : State) : State :=
  (s.pages.pages.foldl (fun (s : State) p => if s.flrNow p.fn then s else s.endPage p) s).dropOpenCopies.insStop

/-- Feeds and classes asked for, and the master's line pages, go with the pages. -/
def State.dropAsked (s : State) : State :=
  { s with pages := { s.pages with sheetReq := [], wantClass := none }, cul := { s.cul with parts := [], lines := [] } }

/-- Every queue pauses for a C3 or C4 (R88, R119). -/
def State.pauseAll (s : State) (cls : Nat) : State :=
  ((List.range 16).foldl (fun (s : State) fn => s.pauseQueue fn (cls - 1)) s).mark mkPause (cls - 1)

/-- The engine stop: every queue pauses, work in flight is discarded, every page ends, the web ramps to rest. -/
def State.engineStop (s : State) (cls : Nat) : State :=
  let s := (s.pauseAll cls).dropWork.endPages
  let s : State := { s.dropAsked.loopsStop with pwr := { s.pwr with runUp := false } }
  let s := if s.scn.spTo = 0 then s else s.askSpeed 0
  if s.f PWR_STATE.REQ = pwrRUN then s.setF PWR_STATE.REQ pwrREADY else s

/-! ## The class in progress (R672, R674, R686, R688) -/

/-- A report that a self-check raises (R681). -/
def Report.selfCheck (r : Report) : Bool := decide (r.cause = 0x20) && (decide (r.src = 0x16) || decide (r.src = 0x09))

/-- Recoveries in the window, and FLT_RECOV_CNT.IN_WINDOW (R686). -/
def State.syncWindow (s : State) : State :=
  let l := s.flt.recovs.filter (fun t => decide (s.now.toNat ≤ t + s.f FLT_RECOV_CFG.WINDOW_S * 1000000000))
  { s with flt := { s.flt with recovs := l } }.setF FLT_RECOV_CNT.IN_WINDOW (min 255 l.length)

/-- The Sump latches (R686, R687). -/
def State.latch (s : State) (cls : Nat) : State :=
  if s.b FLT_STATUS.LATCHED then s
  else (s.setF FLT_STATUS.LATCHED 1).record 0x17 0x03 5 cls (s.f FLT_RECOV_CNT.IN_WINDOW)

/-- A C3 or C4 begins, or a C3 becomes a C4: it latches after too many recoveries, and at a self-check failure whatever their number. -/
def State.beginStop (s : State) (r : Report) : State :=
  let s := (s.setF FLT_STATUS.ACTIVE r.cls).syncWindow
  if s.f FLT_RECOV_CFG.N ≤ s.f FLT_RECOV_CNT.IN_WINDOW ∨ r.selfCheck then s.latch r.cls else s

/-- At a C4 every station that no cause of its own has cut takes the cause 4, or 5 at a self-check failure (HDG_ST_STATUS.LAST_CAUSE). -/
def State.cutCauses (s : State) (selfCheck : Bool) : State :=
  s.enabledStations.foldl (fun (s : State) st =>
    if s.b (HDG_ST_STATUS.CUT st) || s.ilCuts st then s else s.setF (HDG_ST_STATUS.LAST_CAUSE st) (if selfCheck then 5 else 4)) s

/-- Last words of a report (R697). -/
def State.reportWords (s : State) (r : Report) : State :=
  s.lastWord r.src r.cause r.addr.toNat (r.addr.toNat / 2 ^ 32) r.param.toNat r.cls r.master r.access

/-- The safe state (R672, R683, R688, R693): lasers, kills and ALIVE at once, last words, rails with C4_OFF; the exposure stages send code 0. -/
def State.safeState (s : State) (r : Report) : State :=
  (((s.cutCauses r.selfCheck).hdgSync.aliveStop).reportWords r).railSync

/-- Does the device tell its ring of a report: a C3 or C4 of its own, not one that it raises because another device did (R555)? -/
def Report.own (r : Report) : Bool := !(decide (r.src = 0x0F) && decide (r.cause = 0x15))

/-- What the class of a report does (R672, R674): a C3 or C4 restarts the quiet time; a C4 escalates a C3; a C3 during a C4 adds nothing. -/
def State.classEffect (s : State) (r : Report) : State :=
  if r.cls < 3 then s
  else
    let active := s.f FLT_STATUS.ACTIVE
    let s := { s.setF FLT_STATUS.QUIET 0 with flt := { s.flt with quietAt := none } }
    let s := if r.own then s.culFaultOut r else s
    if active = 0 then
      let s := s.beginStop r
      let s := if r.cls = 4 then s.safeState r else s
      (s.engineStop r.cls).axesStop r.cls
    else
      -- what has begun since the first stop ends as well (R88, R174)
      let s := (s.pauseAll r.cls).stopChannels 0x02
      if active = 3 ∧ r.cls = 4 then ((s.beginStop r).safeState r).axesStop 4
      else if r.selfCheck then ((s.latch r.cls).hdgSync).reportWords r
      else s

/-- EXTEST, CLAMP or HIGHZ takes effect once its C4 has cut (R664): the preloaded cells drive the balls that are not observe-only, or nothing drives them. -/
def State.boundaryTest (s : State) (r : Report) : State :=
  if r.src = 0x15 ∧ r.cause = 0x1A ∧ (s.tap.ir = 0x03#8 ∨ s.tap.ir = 0x04#8 ∨ s.tap.ir = 0x05#8) then
    s.emit (.boundary (decide (s.tap.ir = 0x05#8)) s.tap.cells)
  else s

/-- SUMP_REPORT (R672, R674, R678 to R680): the Sump takes the next report, one in 20 ns, captures, queues and records it, and applies its class. -/
def execSumpReport (s : State) : Host.Outcome State Fault Refusal :=
  match firstReport s.waiting with
  | none => .next s
  | some r =>
    if s.roundOf 20 mkTake ≠ [] then .next s
    else
      let first := !s.b FLT_STATUS.FE_VALID && decide (s.f FLT_CTRL.FE_MIN ≤ r.cls)
      let s := ({ s with waiting := s.waiting.erase r }.mark mkTake 0).event (154 + r.cls)
      let s := (s.capture r).enqueue r
      let s := if first || decide (2 ≤ r.cls) then s.pf 3 else s
      .next ((s.classEffect r).boundaryTest r)

/-- SUMP_REPORT_LOST (R674, R680): a report that has waited 1 µs is neither captured nor queued nor recorded; its class acts all the same. -/
def execSumpReportLost (s : State) : Host.Outcome State Fault Refusal :=
  match lastReport s.waiting with
  | none => .next s
  | some r =>
    if s.now.toNat < r.stamp.toNat + 1000 then .next s
    else .next ((({ s with waiting := s.waiting.erase r }.satInc (FLT_OVR.LOST r.cls)).classEffect r).boundaryTest r)

/-- SUMP_REARM (R678): the capture is empty again. -/
def execSumpRearm (s : State) : Host.Outcome State Fault Refusal :=
  if s.poweredDown FLT_CTRL.word then .next (s.darkWrite FLT_CTRL.word 0x200)
  else .next ((s.setF FLT_STATUS.FE_VALID 0).setWord FLT_FE_INFO.word (s.word FLT_FE_INFO.word &&& 0xEFFFFFFF#32))

/-- SUMP_POP (R679): the head of the queue goes; against a report of the same round the pop is first, so that it never takes that report. -/
def execSumpPop (s : State) : Host.Outcome State Fault Refusal :=
  if s.poweredDown FLT_Q_POP.word then .next (s.darkWrite FLT_Q_POP.word 1)
  else if s.flt.queue.length ≤ ((s.roundOf 20 mkTake).filter (· = 1)).length then .next s
  else .next { s with flt := { s.flt with queue := s.flt.queue.drop 1 } }.showQueue

/-- RELEASE (R687): a latched Sump is free to recover again. -/
def State.releaseLatch (s : State) : State :=
  if s.b FLT_STATUS.LATCHED then { s.setF FLT_STATUS.LATCHED 0 with flt := { s.flt with recovs := [] } }.syncWindow else s

/-- SUMP_RELEASE (R687). -/
def execSumpRelease (s : State) : Host.Outcome State Fault Refusal :=
  if s.poweredDown FLT_CTRL.word then .next (s.darkWrite FLT_CTRL.word 0x400) else .next s.releaseLatch

/-! ## Recovery (R684, R685) -/

/-- Do the conditions of R684 hold at this instant? -/
def State.quiet (s : State) : Bool :=
  s.stopActive && !s.b FLT_STATUS.LATCHED && s.waiting.all (fun r => decide (r.cls < 3)) && decide (s.syncSpeed.f SCN_WEB_SPEED.SPEED < 10000) &&
  (List.range 12).all (fun st => !s.b (HDG_ST_STATUS.CUT st) || decide (10 ≤ (s.hdgSt st).low)) &&
  (List.range 4).all (fun i => !bit (s.f HDG_STATUS.IL_OPEN) i || decide (s.f (HDG_IL_MAP.MAP i) = 0))

/-- The quiet time runs while they hold (assumption log 41). -/
def State.quietSync (s : State) : State :=
  if s.quiet then
    if s.flt.quietAt.isSome then s else { s.setF FLT_STATUS.QUIET 1 with flt := { s.flt with quietAt := some s.now.toNat } }
  else if s.flt.quietAt.isSome then { s.setF FLT_STATUS.QUIET 0 with flt := { s.flt with quietAt := none } }
  else s

/-- Has the quiet time passed? -/
def State.quietOver (s : State) : Bool :=
  s.quiet && s.flt.quietAt.any (fun t => decide (t + s.f FLT_QUIET.MS * 1000000 ≤ s.now.toNat))

/-- SUMP_RECOVERY (R174, R469, R535, R623, R685): ACTIVE clears, the cuts are released, what waited for it goes on; the queues stay paused. -/
def execSumpRecovery (s : State) : Host.Outcome State Fault Refusal :=
  if !s.quietOver then .next s
  else
    let cls := s.f FLT_STATUS.ACTIVE
    let s := (s.setF FLT_STATUS.ACTIVE 0).setF FLT_STATUS.QUIET 0
    let s := (List.range 12).foldl (fun (s : State) st => s.setF (HDG_ST_STATUS.CUT st) 0) s
    let s := ((s.hdgSync.railSync).resumeChannels.composerResume).loopsResume
    let s := { s with flt := { s.flt with quietAt := none, recovs := s.now.toNat :: s.flt.recovs } }.syncWindow
    let s := (s.satInc FLT_RECOV_CNT.TOTAL).record 0x17 0x02 5 cls (s.f FLT_RECOV_CNT.IN_WINDOW)
    let hot := decide (10 * (s.f THM_CFG.CRIT : Int) - 10 * (s.f THM_CFG.HYST : Int) ≤ s.fi THM_STATUS.HOT)
    .next (if hot then (s.report 0x12 3 0x1D (s.f THM_STATUS.HOT_S)).pf 5 else s)

/-! ## Self-checks, heartbeat, ALIVE (R681 to R683) -/

/-- A self-check failure: SELF_FAIL, the outputs at once, a C4 (R681, R688). -/
def State.selfFail (s : State) (src : Nat) : State :=
  ((s.setF FLT_STATUS.SELF_FAIL 1).hdgSync.aliveStop).report src 4 0x20

/-- Is a Headgate limit no longer beside its complement (R692, R694)? -/
def State.limitBad (s : State) : Bool :=
  let bad := fun (off : Nat) => decide ((s.word off).toNat % 65536 + (s.word off).toNat / 65536 ≠ 65535)
  (List.range 5).any (fun c => bad (HDG_ONMAX.word c)) || bad HDG_DUTY.word ||
  (List.range 4).any (fun i => decide (s.f (HDG_IL_MAP.MAP i) + s.f (HDG_IL_MAP.NVAL i) ≠ 16383)) || (List.range 12).any (fun st => bad (HDG_ST_CFG.word st))

/-- SELF_CHECK_COMPARE (R681): `flt` and `hdg` say that a stored pair of the block is no longer complementary. -/
def execSelfCheckCompare (flt hdg : Bool) (s : State) : Host.Outcome State Fault Refusal :=
  if s.power = pwrOFF then .next s
  else
    let s := s.quietSync
    if s.b FLT_STATUS.SELF_FAIL then .next s
    else if flt then .next (s.selfFail 0x16)
    else if hdg || s.limitBad then .next (s.selfFail 0x09)
    else .next s

/-- HEARTBEAT_KICK (R682). -/
def execHeartbeatKick (s : State) : Host.Outcome State Fault Refusal :=
  if s.poweredDown FLT_HB.word then .next (s.darkWrite FLT_HB.word 1) else .next { s with flt := { s.flt with kickAt := s.now.toNat } }

/-- HEARTBEAT_TIMEOUT (R682): no kick for MS while EN is 1 and the control cores run; not while a debug session holds them halted. -/
def execHeartbeatTimeout (s : State) : Host.Outcome State Fault Refusal :=
  if !s.b FLT_HB_CFG.EN || !s.boot.cores || s.sec.halted || decide (s.now.toNat < s.flt.kickAt + s.f FLT_HB_CFG.MS * 1000000) then .next s
  else .next ({ s with flt := { s.flt with kickAt := s.now.toNat } }.report 0x16 4 0x21)

/-- ALIVE_TOGGLE (R683): every half period. -/
def execAliveToggle (s : State) : Host.Outcome State Fault Refusal :=
  if s.aliveOk then .next { s.drivePin wireAlive s.hdg.alive (!s.hdg.alive) with hdg := { s.hdg with alive := !s.hdg.alive } }
  else .next s.aliveStop

end Sys2Proof.Machine
end

