-- ==== Sys2Proof/Machine/Host.lean ====
section
/-! DEFINITION. The meanings of the host-port commands (spec/03): queues, completion rings, resets of functions, the link, configuration space. -/
namespace Sys2Proof.Machine

/-- Is the function there: the PF, or a VF that VF Enable and NumVFs give? -/
def State.fnThere (s : State) (fn : Nat) : Bool := decide (fn = 0) || (s.hif.vfEnable && decide (fn ≤ s.hif.numVfs ∧ fn ≤ 15))

/-- Do memory accesses of a function reach its registers: not in D3hot, not during its FLR (R126, R136)? -/
def State.fnOpen (s : State) (fn : Nat) : Bool := decide (fn < 16) && !s.inD3 fn && !(s.fn fn).inFlr

/-! ## Queues (R104 to R110, R119 to R122) -/

/-- Entries between the head and a tail. -/
def State.sqPending (s : State) (fn tail : Nat) : Nat := (tail + s.sqSlots fn - s.f (HIF_SQ_HEAD.HEAD fn)) % s.sqSlots fn

/-- SQ_DOORBELL (R106): HIF_SQ_TAIL[fn] is written. -/
def execSqDoorbell (fn tail : Nat) (s : State) : Host.Outcome State Fault Refusal :=
  let tail := tail % 4096
  if !s.fnOpen fn || s.qState fn = qDISABLED then .next s
  else if s.sqSlots fn ≤ tail then .next (if s.qState fn = qERROR then s else s.errorQueue fn 1)
  else if s.qState fn = qRUNNING ∧ s.sqPending fn tail < s.sqPending fn (s.f (HIF_SQ_TAIL.TAIL fn)) then .next (s.errorQueue fn 2)
  else .next (s.setF (HIF_SQ_TAIL.TAIL fn) tail)

/-- Does a queue wait to be served (R108, R116)? -/
def State.sqWaits (s : State) (fn : Nat) : Bool :=
  s.qState fn = qRUNNING && decide (s.f (HIF_SQ_TAIL.TAIL fn) ≠ s.f (HIF_SQ_HEAD.HEAD fn)) && (s.fn fn).backlog.isEmpty &&
  decide (s.activePages fn < 1024) && s.fnOpen fn

/-- SQ_SERVE (R59, R107, R108): the next queue in turn has its descriptor read. -/
def execSqServe (s : State) : Host.Outcome State Fault Refusal :=
  if s.hif.fetching.isSome || s.f HIF_DEV_STATE.STATE ≠ 1 then .next s
  else match ((List.range 16).map (fun i => (s.hif.lastFn + 1 + i) % 16)).find? s.sqWaits with
    | some fn => .next { s with hif := { s.hif with fetching := some fn, lastFn := fn } }
    | none => .next s

/-- An uncorrectable error that AER logs (R98, HIF_AER_CNT): counted, a C0 event. -/
def State.aerUncorr (s : State) (fn : Nat) : State := (s.satInc HIF_AER_CNT.UNCORR).report 0x01 0 0x0F fn

/-- A correctable error that AER logs: counted, a C1 event. -/
def State.aerCorr (s : State) : State := (s.satInc HIF_AER_CNT.CORR).report 0x01 1 0x0F

/-- DESCRIPTOR_READ_FAILED (R109): the queue enters ERROR; nothing is written for the slot. `how`: 0 Unsupported Request, 1 Completer Abort, 2 a poisoned
completion, 3 a completion timeout; AER logs the last two (PRESUMED: PCIe; assumption log 12). -/
def execDescriptorReadFailed (fn : Nat) (how : Nat) (s : State) : Host.Outcome State Fault Refusal :=
  if s.hif.fetching ≠ some fn then .next s
  else
    let s := if 2 ≤ how then s.aerUncorr fn else s
    .next ({ s with hif := { s.hif with fetching := none } }.errorQueue fn 3)

/-- CQ_HEAD_WRITE (R113): a head that would pass the tail is ignored. -/
def execCqHeadWrite (fn head : Nat) (s : State) : Host.Outcome State Fault Refusal :=
  let n := s.cqSlots fn
  let tail := s.f (HIF_CQ_TAIL.TAIL fn)
  let head := head % 65536
  if !s.fnOpen fn then .next s
  else if n ≤ head ∨ (tail + n - s.f (HIF_CQ_HEAD.HEAD fn)) % n < (tail + n - head) % n then .next (s.raise (HIF_Q_STATUS.CQ_HEAD_ERR fn))
  else .next (s.setF (HIF_CQ_HEAD.HEAD fn) head)

/-- BACKLOG_DRAIN (R115): entries move to the ring in order while it has room. -/
def execBacklogDrain (fn : Nat) (s : State) : Host.Outcome State Fault Refusal :=
  if 16 ≤ fn ∨ (s.fn fn).inFlr then .next s else .next ((s.drainBacklog fn (s.fn fn).backlog.length).syncQueue fn)

/-- CQ_COALESCE_TIMEOUT (R118): TIME µs have passed since the oldest unsignalled entry was written. -/
def execCqCoalesceTimeout (fn : Nat) (s : State) : Host.Outcome State Fault Refusal :=
  if 16 ≤ fn ∨ s.f (HIF_CQ_COAL.TIME fn) = 0 ∨ (s.fn fn).unsig = 0 then .next s
  else .next ((s.setFn fn { s.fn fn with unsig := 0 }).signal fn 0)

/-- Q_ENABLE (R101, R104, R105). -/
def execQEnable (fn : Nat) (s : State) : Host.Outcome State Fault Refusal :=
  if !s.fnOpen fn || s.qState fn ≠ qDISABLED then .next s
  else
    let sq := s.f (HIF_SQ_SIZE.LOG2 fn)
    let cq := s.f (HIF_CQ_SIZE.LOG2 fn)
    if s.f HIF_DEV_STATE.STATE = 2 ∨ sq < 4 ∨ 12 < sq ∨ cq < 6 ∨ 16 < cq then .next (s.raise (HIF_Q_STATUS.CTRL_REFUSED fn))
    else
      let s := ((s.setF (HIF_SQ_HEAD.HEAD fn) 0).setF (HIF_SQ_TAIL.TAIL fn) 0).setF (HIF_CQ_HEAD.HEAD fn) 0
      let s := ((s.setF (HIF_CQ_TAIL.TAIL fn) 0).setF (HIF_CQ_TAIL.PHASE fn) 1).setF (HIF_Q_CTRL.ENABLE fn) 1
      let s := ((s.setF (HIF_Q_STATUS.STATE fn) qRUNNING).setF (HIF_Q_STATUS.ERR_CODE fn) 0).setF (HIF_Q_STATUS.PAUSE_CAUSE fn) 0
      .next ((s.setFn fn { s.fn fn with seq := 0, unsig := 0, also := 0 }).syncQueue fn)

/-- Q_DISABLE (R106, R121): only while the function has no active page and no backlog. A descriptor whose read is outstanding is dropped (DESIGN CHOICE,
unsafe: the spec does not say; assumption log 100). -/
def execQDisable (fn : Nat) (s : State) : Host.Outcome State Fault Refusal :=
  if !s.fnOpen fn || s.qState fn = qDISABLED then .next s
  else if s.activePages fn ≠ 0 ∨ (s.fn fn).backlog ≠ [] then .next (s.raise (HIF_Q_STATUS.CTRL_REFUSED fn))
  else
    let s := ((s.setF (HIF_Q_CTRL.ENABLE fn) 0).setF (HIF_Q_STATUS.STATE fn) qDISABLED).setF (HIF_Q_STATUS.PAUSE_CAUSE fn) 0
    let s := if s.hif.fetching = some fn then { s with hif := { s.hif with fetching := none } } else s
    .next ((s.setF (HIF_SQ_TAIL.TAIL fn) 0).syncQueue fn)

/-- Q_PAUSE (R119, R122): a write of PAUSE, with or without RESUME, which PAUSE beats. -/
def execQPause (fn : Nat) (s : State) : Host.Outcome State Fault Refusal :=
  if 16 ≤ fn then .next s else .next (s.pauseQueue fn 1)

/-- Q_RESUME (R120, R122): while no C3 or C4 is in progress; a pause of D3hot ends only with D3hot. -/
def execQResume (fn : Nat) (s : State) : Host.Outcome State Fault Refusal :=
  if 16 ≤ fn ∨ s.qState fn ≠ qPAUSED then .next s
  else if s.stopActive then
    -- the pause of a C3 or C4 in this round stands, with its cause (R122)
    match (s.roundOf 4 mkPause).head? with
    | some c => .next (if s.f (HIF_Q_STATUS.PAUSE_CAUSE fn) = 1 then s.setF (HIF_Q_STATUS.PAUSE_CAUSE fn) c else s)
    | none => .next s
  else if s.inD3 fn then .next s
  else .next (((s.setF (HIF_Q_STATUS.STATE fn) qRUNNING).setF (HIF_Q_STATUS.PAUSE_CAUSE fn) 0).signal fn 1)

/-! ## Function Level Reset (R126 to R133) -/

/-- How a function's pages end (R89, R129): an unlatched one is dropped, a latched one prints on unseen; none is forgotten before its release (R55). -/
def State.flrPage (s : State) (p : Page) : State :=
  match p.phase with
  | .final _ _ => s
  | .waiting => (s.modPage p.seq (fun q => { q with muted := true })).withdraw p.seq 0x11
  | .claimed => (s.modPage p.seq (fun q => { q with muted := true })).withdraw p.seq 0x11
  | _ => s.modPage p.seq (fun q => { q with muted := true, flr := true })

/-- The FLR of one function begins: its work leaves every engine (R126 to R130, R176, R275). -/
def State.flrBegin (s : State) (fn : Nat) : State :=
  let s := (s.mark mkFlr fn).setFn fn { s.fn fn with inFlr := true, backlog := [], unsig := 0 }
  let s := if s.hif.fetching = some fn then { s with hif := { s.hif with fetching := none } } else s
  let s := { s with spl := { s.spl with enums := s.spl.enums.erase fn } }
  let s := (s.spl.copies.filter (fun c => decide (c.fn = fn) && c.stage ≠ .complete)).foldl (fun (s : State) c => s.freeCopy fn c.pageId) s
  let mine := s.pages.pages.filter (fun p => decide (p.fn = fn) && !p.muted)
  let s := (mine.foldl (fun (s : State) p => s.flrPage p) s).resetChannels fn
  (s.dropLoads ((mine.filter (fun p => p.phase = .waiting || p.phase = .claimed)).map (fun p => p.seq))).claims

/-- The FLR of one function completes (R131): its registers, MSI-X table and queues are at their reset values, its slice set but for quota and
region (R209). -/
def State.flrEnd (s : State) (fn : Nat) : State :=
  let q := HIF_SQ_BASE_LO.word fn
  let s := (s.resetRegs q (q + 0x40)).resetRegs (msixTable fn) (msixTable fn + 16 * msixCount fn)
  let s := s.resetRegs (msixPba fn) (msixPba fn + msixCount fn / 8)
  let r := s.b (SPL_SL_STATUS.WRITE_REFUSED fn)
  let s := ((s.resetRegs (SPL_SL_STATUS.word fn) (SPL_SL_ENUM_CNT.word fn + 4)).setB (SPL_SL_STATUS.WRITE_REFUSED fn) r).setFn fn {}
  let s := { s with spl := { s.spl with trims := s.spl.trims.erase fn, enums := s.spl.enums.erase fn } }
  ((s.setF HIF_FN_EVENTS.FLR_SEEN (setBit (s.f HIF_FN_EVENTS.FLR_SEEN) fn true)).mark mkSet (HIF_FN_EVENTS.FLR_SEEN.key + fn)).syncQueue fn

/-- An FLR starts (R126 to R130, R132); the PF's is every function's. -/
def State.flrStart (s : State) (fn : Nat) : State :=
  if fn ≠ 0 then s.flrBegin fn
  else
    let s := (List.range 16).foldl (fun (s : State) f => s.flrBegin f) s
    { s with hif := { s.hif with vfEnable := false, dropRsp := s.b HIF_MBX_STATUS.BUSY } }

/-- FLR_START (R126 to R130, R132): the configuration write that starts an FLR. -/
def execFlrStart (fn : Nat) (s : State) : Host.Outcome State Fault Refusal :=
  if !s.fnThere fn || (s.fn fn).inFlr then .next s else .next (s.flrStart fn)

/-- Every function's FLR completes at once; the PF's configuration is reset (R132). -/
def State.flrEndAll (s : State) : State :=
  let s := (List.range 16).foldl (fun (s : State) f => s.flrEnd f) s
  { s with hif := { s.hif with vfEnable := false, numVfs := 0, memEn := false, bar := 0, vfBar := 0, lastFn := 15 } }.pf 7

/-- FLR_COMPLETE (R131, R132). -/
def execFlrComplete (fn : Nat) (s : State) : Host.Outcome State Fault Refusal :=
  if 16 ≤ fn ∨ ¬ (s.fn fn).inFlr then .next s else if fn = 0 then .next s.flrEndAll else .next ((s.flrEnd fn).pf 7)

/-! ## The link (R100, R134, R135) -/

/-- PERST_N, a hot reset or DL_Down resets the host interface as an FLR of the PF does: a C3 in RUN, else a C0 (R134). -/
def State.hostReset (s : State) : State :=
  let s := s.report 0x01 (if s.inRun then 3 else 0) 0x0F
  let s := (List.range 16).foldl (fun (s : State) f => s.flrBegin f) s
  { s with hif := { s.hif with dropRsp := s.b HIF_MBX_STATUS.BUSY } }.flrEndAll

/-- The link is down. -/
def State.linkOff (s : State) : State := ((s.setF HIF_LINK_STATUS.UP 0).setF HIF_LINK_STATUS.WIDTH 0).setF HIF_LINK_STATUS.SPEED 0

/-- PERST_ASSERT (R134). -/
def execPerstAssert (s : State) : Host.Outcome State Fault Refusal :=
  if !s.hif.perst then .next s
  else .next (({ s with hif := { s.hif with perst := false, clkDown := false } }.satInc HIF_LINK_CNT.PERST).linkOff.hostReset)

/-- PERST_DEASSERT (R100, R135). -/
def execPerstDeassert (s : State) : Host.Outcome State Fault Refusal := .next { s with hif := { s.hif with perst := true } }

/-- LINK_DOWN (R134, R734): DL_Down, or a hot reset; the link is down until it has trained again. -/
def execLinkDown (_hotReset : Bool) (s : State) : Host.Outcome State Fault Refusal :=
  if !s.b HIF_LINK_STATUS.UP then .next s else .next ((s.satInc HIF_LINK_CNT.DL_DOWN).linkOff.hostReset)

/-- LINK_UP (R98, R135, R734): the data link layer comes up at a width and a speed, which hold while it is up; `corrected` is how many correctable errors
AER has logged meanwhile. -/
def execLinkUp (width speed : Nat) (corrected : Nat) (s : State) : Host.Outcome State Fault Refusal :=
  if s.b HIF_LINK_STATUS.UP || !s.hif.perst || s.hif.clkDown || s.power = pwrHIBERNATE || !([1, 2, 4, 8, 16].contains width) ||
    decide (speed = 0 ∨ 5 < speed) then .next s
  else
    let s := (List.range corrected).foldl (fun (s : State) _ => s.aerCorr) s
    .next ((((s.setF HIF_LINK_STATUS.UP 1).setF HIF_LINK_STATUS.WIDTH width).setF HIF_LINK_STATUS.SPEED speed).pf 7)

/-! ## MSI-X (R125) -/

/-- Send the messages that wait for a vector (R125). -/
def State.sendPending (s : State) (fn vec : Nat) : State :=
  let o := msixPba fn + vec / 32 * 4
  if bit (s.word o).toNat (vec % 32) ∧ ¬ s.vecMasked fn vec then
    (s.setWord o (s.word o &&& ~~~ (BitVec.ofNat 32 (2 ^ (vec % 32))))).signal fn vec
  else s

/-- MSIX_UNMASK (R125): the mask bit of a vector is cleared. -/
def execMsixUnmask (fn vec : Nat) (s : State) : Host.Outcome State Fault Refusal :=
  if !s.fnOpen fn || decide (msixCount fn ≤ vec) then .next s
  else
    let o := msixTable fn + vec * 16 + 12
    .next ((s.setWord o (s.word o &&& 0xFFFFFFFE#32)).sendPending fn vec)

/-! ## Power management (R119, R136) -/

/-- A function enters D3hot (R119, R136): its queue, and every VF's where it is the PF, pauses. -/
def State.enterD3 (s : State) (fn : Nat) : State :=
  let s := (if fn = 0 then List.range 16 else [fn]).foldl (fun (s : State) f => s.pauseQueue f 4) s
  s.setFn fn { s.fn fn with d3 := true }

/-- D3HOT_ENTRY (R119, R136). -/
def execD3hotEntry (fn : Nat) (s : State) : Host.Outcome State Fault Refusal :=
  if !s.fnThere fn || (s.fn fn).d3 then .next s else .next (s.enterD3 fn)

/-- A queue that D3hot alone held runs again; one that a C3, a C4 or a host pause also met stays paused with that cause (R88, R119, R120). -/
def State.leaveD3 (s : State) (fn : Nat) : State :=
  if s.inD3 fn then s
  else
    let s := s.drainBacklog fn (s.fn fn).backlog.length |>.syncQueue fn
    if s.qState fn ≠ qPAUSED ∨ s.f (HIF_Q_STATUS.PAUSE_CAUSE fn) ≠ 4 then s
    else
      let x := s.fn fn
      let s := s.setFn fn { x with also := 0 }
      if x.also ≠ 0 then s.setF (HIF_Q_STATUS.PAUSE_CAUSE fn) x.also
      else ((s.setF (HIF_Q_STATUS.STATE fn) qRUNNING).setF (HIF_Q_STATUS.PAUSE_CAUSE fn) 0).signal fn 1

/-- A function returns to D0 (R120, R136): waiting entries are written, and the pause of D3hot ends. -/
def State.returnD0 (s : State) (fn : Nat) : State :=
  let s := s.setFn fn { s.fn fn with d3 := false }
  (if fn = 0 then List.range 16 else [fn]).foldl (fun (s : State) f => s.leaveD3 f) s

/-- D0_RETURN (R120, R136). -/
def execD0Return (fn : Nat) (s : State) : Host.Outcome State Fault Refusal :=
  if 16 ≤ fn ∨ ¬ (s.fn fn).d3 then .next s else .next (s.returnD0 fn)

/-! ## Configuration space (R98 to R101, R131)

R98 and R99 give what configuration space holds. The header and the bodies of the capabilities are laid out as PCIe has them (PRESUMED, unsafe), and the
capabilities stand at offsets of the model's choice (DESIGN CHOICE, unsafe): assumption logs 12 and 50. What is not listed reads 0. -/

/-- First dwords of the capabilities: power management, MSI-X, PCI Express; in extended space AER, ARI, SR-IOV (the PF's alone), data link feature (scaled
flow control), 16 GT/s, lane margining, 32 GT/s. -/
abbrev capPm : Nat := 0x40
abbrev capMsix : Nat := 0x50
abbrev capPcie : Nat := 0x60
abbrev capAer : Nat := 0x100
abbrev capAri : Nat := 0x150
abbrev capSriov : Nat := 0x160
abbrev capDlf : Nat := 0x1A0
abbrev cap16 : Nat := 0x1B0
abbrev capMargin : Nat := 0x1E0
abbrev cap32 : Nat := 0x230

/-- An extended capability's header: identifier, version, next. -/
def extCap (id version next : Nat) : Nat := id + version * 2 ^ 16 + next * 2 ^ 20

/-- VFs that SR-IOV offers: none after a failed boot (R98, R101). -/
def State.totalVfs (s : State) : Nat := if s.f HIF_DEV_STATE.STATE = 2 then 0 else 15

/-- The type 0 header of a function (R99). Subsystem identifiers come from the OTP customer area, or are 0x1E9B and the PF's Device ID. -/
def State.cfgHeader (s : State) (fn off : Nat) : Nat :=
  let row := (s.otpRow 496).toNat
  let bar := s.hif.bar.toNat
  match off with
  | 0x00 => (s.variant.code + (if fn = 0 then 0 else 1)) * 65536 + 0x1E9B
  | 0x04 => 0x100000 + (if fn = 0 ∧ s.hif.memEn then 2 else 0)
  | 0x08 => 0x118000 * 256 + s.f HIF_REV.DIE_REV
  | 0x10 => if fn = 0 then bar % 2 ^ 32 + 4 else 0
  | 0x14 => if fn = 0 then bar / 2 ^ 32 else 0
  | 0x2C => (if row / 65536 = 0 then s.variant.code else row / 65536) * 65536 + (if row % 65536 = 0 then 0x1E9B else row % 65536)
  | 0x34 => capPm
  | _ => 0

/-- Power management (D0 and D3hot, No_Soft_Reset), MSI-X and PCI Express (512-byte payloads, FLR, no transaction pending, x16 at 32 GT/s with ASPM L1,
completion timeout ranges A and B with disable, 10-bit tags): R98, R131. -/
def State.cfgCaps (s : State) (fn off : Nat) : Nat :=
  let x := s.fn fn
  match off with
  | 0x40 => 0x1 + capMsix * 256 + 3 * 2 ^ 16
  | 0x44 => 8 + (if x.d3 then 3 else 0)
  | 0x50 => 0x11 + capPcie * 256 + (msixCount fn - 1) * 2 ^ 16 + (if x.msixMask then 2 ^ 30 else 0) + (if x.msixEn then 2 ^ 31 else 0)
  | 0x54 => if fn = 0 then 0xE0000 else 0x20000
  | 0x58 => if fn = 0 then 0xF0000 else 0x21000
  | 0x60 => 0x10 + 2 * 2 ^ 16
  | 0x64 => 2 + 2 ^ 5 + 2 ^ 15 + 2 ^ 28
  | 0x68 => x.devCtl.toNat
  | 0x6C => 5 + 16 * 2 ^ 4 + 2 * 2 ^ 10
  | 0x70 => s.f HIF_LINK_STATUS.SPEED * 2 ^ 16 + s.f HIF_LINK_STATUS.WIDTH * 2 ^ 20
  | 0x84 => 3 + 2 ^ 4 + 2 ^ 16 + 2 ^ 17
  | 0x8C => 0x3E
  | _ => 0

/-- Extended space: AER with ECRC generation and checking, ARI, SR-IOV (R98, R99). -/
def State.cfgExt (s : State) (fn off : Nat) : Nat :=
  let bar := s.hif.vfBar.toNat
  if off = capAer then extCap 0x01 2 capAri
  else if off = capAer + 0x18 then 2 ^ 5 + 2 ^ 7
  else if off = capAri then extCap 0x0E 1 (if fn = 0 then capSriov else capDlf)
  else if off = capDlf then extCap 0x25 1 cap16
  else if off = cap16 then extCap 0x26 1 capMargin
  else if off = capMargin then extCap 0x27 1 cap32
  else if off = cap32 then extCap 0x2A 1 0
  else if fn ≠ 0 then 0
  else match off with
    | 0x160 => extCap 0x10 1 capDlf
    | 0x168 => if s.hif.vfEnable then 1 else 0
    | 0x16C => s.totalVfs * 65537
    | 0x170 => s.hif.numVfs
    | 0x174 => 0x10001
    | 0x178 => (s.variant.code + 1) * 65536
    | 0x17C => 0x553
    | 0x180 => 1
    | 0x184 => bar % 2 ^ 32 + 4
    | 0x188 => bar / 2 ^ 32
    | _ => 0

/-- A dword of configuration space. -/
def State.cfgRead (s : State) (fn off : Nat) : BitVec 32 :=
  let o := off / 4 * 4
  BitVec.ofNat 32 (if o < 0x40 then s.cfgHeader fn o else if o < 0x100 then s.cfgCaps fn o else s.cfgExt fn o)

/-- Replace one half of a 64-bit base address, of which the low bits below the region's size are fixed at 0. -/
def setBase (old : BitVec 64) (high : Bool) (value : BitVec 32) (size : Nat) : BitVec 64 :=
  let n := if high then value.toNat * 2 ^ 32 + old.toNat % 2 ^ 32 else old.toNat / 2 ^ 32 * 2 ^ 32 + value.toNat
  BitVec.ofNat 64 (n / size * size)

/-- VF Enable (R123): a change signals PF vector 7; clearing it resets every VF. -/
def State.setVfEnable (s : State) (on : Bool) : State :=
  if s.hif.vfEnable = on then s
  else
    let s := if s.hif.vfEnable then (List.range 15).foldl (fun (s : State) i => (s.flrBegin (i + 1)).flrEnd (i + 1)) s else s
    { s with hif := { s.hif with vfEnable := on } }.pf 7

/-- A write of configuration space that only the PF has: command, base addresses, SR-IOV. -/
def State.cfgWritePf (s : State) (off : Nat) (value : BitVec 32) : State :=
  match off with
  | 0x04 => { s with hif := { s.hif with memEn := value.getLsbD 1 } }
  | 0x10 => { s with hif := { s.hif with bar := setBase s.hif.bar false value 0x4000000 } }
  | 0x14 => { s with hif := { s.hif with bar := setBase s.hif.bar true value 0x4000000 } }
  | 0x168 => s.setVfEnable (value.getLsbD 0)
  | 0x170 => if !s.hif.vfEnable ∧ value.toNat % 65536 ≤ s.totalVfs then { s with hif := { s.hif with numVfs := value.toNat % 65536 } } else s
  | 0x184 => { s with hif := { s.hif with vfBar := setBase s.hif.vfBar false value 0x40000 } }
  | 0x188 => { s with hif := { s.hif with vfBar := setBase s.hif.vfBar true value 0x40000 } }
  | _ => s

/-- A write of a dword of configuration space: power state, MSI-X Enable and Function Mask, Device Control with the bit that starts an FLR; the rest is the
PF's, or read only. -/
def State.cfgWrite (s : State) (fn off : Nat) (value : BitVec 32) : State :=
  match off / 4 * 4 with
  | 0x44 => if value.toNat % 4 = 3 ∧ ¬ (s.fn fn).d3 then s.enterD3 fn else if value.toNat % 4 = 0 ∧ (s.fn fn).d3 then s.returnD0 fn else s
  | 0x50 =>
    let s := s.setFn fn { s.fn fn with msixEn := value.getLsbD 31, msixMask := value.getLsbD 30 }
    (List.range (msixCount fn)).foldl (fun (s : State) v => s.sendPending fn v) s
  | 0x68 =>
    let s := s.setFn fn { s.fn fn with devCtl := (value.setWidth 16) &&& 0x7FFF#16 }
    if value.getLsbD 15 then s.flrStart fn else s
  | o => if fn = 0 then s.cfgWritePf o value else s

/-- CONFIG_REQUEST (R100, R101, R126): RRS while the device boots and during the function's FLR; a function that is not there answers Unsupported
Request. -/
def execConfigRequest (fn : Nat) (write : Option (BitVec 32)) (off : Nat) (s : State) : Host.Outcome State Fault Refusal :=
  if !s.hif.perst then .next s
  else if s.f HIF_DEV_STATE.STATE = 0 ∨ (s.fn fn).inFlr then .next (s.emit (.completion 2 0))
  else if !s.fnThere fn then .next (s.emit (.completion 1 0))
  else match write with
    | some v => .next ((s.cfgWrite fn off v).emit (.completion 0 0))
    | none => .next (s.emit (.completion 0 (s.cfgRead fn off)))

end Sys2Proof.Machine
end

