-- ==== Sys2Proof/Machine/LatOps.lean ====
section
/-! DEFINITION. The lateral chain as operations: frames, port and node states, cycles, the mailbox (spec/14). -/
namespace Sys2Proof.Machine

/-! ## Frames (R505 to R508) -/

/-- A frame from its header to its CRC. -/
def State.latFrame (s : State) (p ty : Nat) (body : List Byte) : List Byte :=
  let flags := p + (if s.b (LAT_PORT_STATUS.SAFE_ALL p) then 4 else 0)
  let b := leBytes 1 ty ++ leBytes 1 flags ++ leBytes 2 (s.latPort p).seq ++ leBytes 2 (s.f (LAT_PORT_STATUS.CYCLE_NOW p)) ++ leBytes 2 (s.latNodes p) ++ body
  b ++ leBytes 4 (crc32c b).toNat

/-- A returned frame of a type and of a length in bytes from header to CRC, if it is good (R505). -/
def latGood (ty n : Nat) (frame : Option (List Byte)) : Option (List Byte) :=
  match frame with
  | none => none
  | some b => if b.length = n ∧ leAt b 0 1 = ty ∧ crc32c (b.take (n - 4)) = BitVec.ofNat 32 (leAt b (n - 4) 4) then some b else none

/-- Segment length of a node (R508, R512). -/
def State.segLen (s : State) (p node : Nat) : Nat := 4 + s.f (LAT_NODE.OLEN p node) + s.f (LAT_NODE.ILEN p node)

/-- The sum of the segment lengths of a port. -/
def State.segSum (s : State) (p : Nat) : Nat := (List.range (s.latNodes p)).foldl (fun (a : Nat) i => a + s.segLen p i) 0

/-- MIN_US (R513). -/
def State.latMinUs (s : State) (p : Nat) : Nat :=
  ((14 + s.segSum p + 8 + 162) * 10 + s.f (LAT_PORT_RING.RING_NS p) + 1000 + 999) / 1000

/-- CYCLE_NOW: 1,000 µs in SLEEP (R513, R536). -/
def State.latCycleUs (s : State) (p : Nat) : Nat :=
  if s.power = pwrSLEEP then 1000 else max (max 25 (s.f (LAT_PORT_CFG.CYCLE_US p))) (s.latMinUs p)

/-! ## States and reports (R511, R523, R530, R541) -/

/-- A report of the lateral chain. -/
def State.latReport (s : State) (cls cause p node : Nat) : State := s.report 0x0D cls cause (p * 256 + node)

/-- PF vector 190 + p. -/
def State.latVec (s : State) (p : Nat) : State := s.pf (190 + p)

/-- End a mailbox transfer of the software with a code (R518). -/
def State.mbxEnd (s : State) (p code : Nat) (data : Option (List Byte)) : State :=
  let s := s.modLatPort p (fun x => { x with mbx := none })
  let s := match data with
    | some d => (List.range 32).foldl (fun (s : State) (w : Nat) => s.setWord (LAT_MBX_DATA.word p w) (BitVec.ofNat 32 (leAt d (4 * w) 4))) s
    | none => s
  (((s.setF (LAT_MBX_STATUS.BUSY p) 0).raise (LAT_MBX_STATUS.DONE p)).setF (LAT_MBX_STATUS.CODE p) code).latVec p

/-- A port changes state, which raises LAT_PORT; outside RUN and MISMATCH a transfer ends with PORT_DOWN. -/
def State.latTo (s : State) (p v : Nat) : State :=
  if s.f (LAT_PORT_STATUS.STATE p) = v then s
  else
    let s := (s.setF (LAT_PORT_STATUS.STATE p) v).event (168 + p)
    if v = latRUN ∨ v = latMISMATCH then s
    else match (s.latPort p).mbx with
      | some m => if m.own then s.modLatPort p (fun x => { x with mbx := none }) else s.mbxEnd p 5 none
      | none => s

/-- The port enters MISMATCH, a C1 (R510, R511, R513). -/
def State.latMismatch (s : State) (p : Nat) : State := (s.latTo p latMISMATCH).latReport 1 0x11 p 0

/-- The port enters ENUM (R511). -/
def State.latEnum (s : State) (p : Nat) : State :=
  (s.modLatPort p (fun x => { x with enumAt := none, away := false, bad := 0, good := 0, joins := [], joinDue := false, brk := [] })).latTo p latENUM

/-- A node becomes LOST without an event of its own; the loops that bind it lose their source (R521). -/
def State.nodeLose (s : State) (p node : Nat) : State := (s.setF (LAT_NODE.STATE p node) nodeLOST).nodeGone p node

/-- A node is lost after three cycles without ALIVE (R521). -/
def State.nodeLost (s : State) (p node : Nat) : State :=
  let s := ((s.satInc (LAT_PORT_ERR.NODE_LOSSES p)).latVec p).event (168 + p)
  (s.latReport (s.f (LAT_NODE.LOST_CLASS p node) + 1) 0x12 p node).nodeLose p node

/-- A cycle without a good returned frame (R520, R523): a C1, and the third in a row breaks the ring. -/
def State.badCycle (s : State) (p : Nat) : State :=
  let n := (s.latPort p).bad + 1
  let s := s.modLatPort p (fun x => { x with away := false, bad := n, good := 0 })
  let s := (s.satInc (LAT_PORT_ERR.BAD_FRAMES p)).latReport 1 0x10 p 0
  if n < 3 ∨ s.f (LAT_PORT_STATUS.STATE p) ≠ latRUN then s
  else
    let nodes := List.range (s.latNodes p)
    let fresh := nodes.filter (fun i => s.f (LAT_NODE.STATE p i) ≠ nodeLOST)
    let s := (s.satInc (LAT_PORT_ERR.BREAKS p)).latTo p latBROKEN
    let s := nodes.foldl (fun s i => s.nodeLose p i) s
    let s := s.modLatPort p (fun x => { x with brk := fresh })
    s.latReport (s.f (LAT_PORT_CFG.BRK_CLASS p) + 1) 0x15 p 0

/-! ## The cyclic frame (R512, R534) -/

/-- A byte of a node's output as sent: the stored image, with the forced bits of the pulses in progress. -/
def State.sentByte (s : State) (p node b : Nat) : Nat :=
  (s.latPort p).pulses.foldl (fun (v : Nat) x => if x.node = node ∧ x.byte = b then setBit v x.bit x.level else v) (s.outByte p node b)

/-- The segment of a node. -/
def State.segment (s : State) (p node : Nat) : List Byte :=
  let ol := s.f (LAT_NODE.OLEN p node)
  let il := s.f (LAT_NODE.ILEN p node)
  let hold := if s.f (LAT_NODE.STATE p node) = nodeJOINING then 128 else 0
  leBytes 1 node ++ leBytes 1 ol ++ leBytes 1 il ++ leBytes 1 hold ++ (List.range ol).map (fun b => BitVec.ofNat 8 (s.sentByte p node b)) ++ List.replicate il 0#8

/-- Lateral bit events between the old and the new image of a node (R534). -/
def State.bitEvents (s t : State) (p node : Nat) : State :=
  (List.range 32).foldl (fun u i =>
    let e := s.f (TRN_LB_CFG.EDGE i)
    if e = 0 ∨ s.f (TRN_LB_CFG.PORT i) ≠ p ∨ s.f (TRN_LB_CFG.NODE i) ≠ node then u
    else
      let v := fun (x : State) => bit (x.inByte p node (s.f (TRN_LB_CFG.BYTE i))) (s.f (TRN_LB_CFG.BIT i))
      if (bit e 0 && !v s && v t) || (bit e 1 && v s && !v t) then u.event (192 + i) else u) t

/-- A node answered: its image is updated, all bytes together (R516), and a lost one joins or is OK again (R522, R523). -/
def State.nodeAlive (s : State) (p node : Nat) (img : List Byte) : State :=
  let t := (List.range 16).foldl (fun s w =>
    if 4 * w < img.length then s.setWord (LAT_IIMG.word p node w) (BitVec.ofNat 32 (leAt img (4 * w) 4)) else s) s
  let t := t.modLatPort p (fun x => { x with fresh := x.fresh.set 0 node (s.now.toNat + 1), silent := x.silent.set 0 node 0 })
  let t := s.bitEvents t p node
  if t.f (LAT_NODE.STATE p node) ≠ nodeLOST ∨ t.f (LAT_PORT_STATUS.STATE p) ≠ latRUN then t
  else if (t.latPort p).brk.contains node then
    ((t.modLatPort p (fun x => { x with brk := x.brk.filter (· ≠ node) })).setF (LAT_NODE.STATE p node) nodeOK).event (168 + p)
  else (t.setF (LAT_NODE.STATE p node) nodeJOINING).modLatPort p (fun x => { x with joins := x.joins ++ [node] })

/-- A node did not answer in a good cycle (R521). -/
def State.nodeSilent (s : State) (p node : Nat) : State :=
  let n := (s.latPort p).silent.getD 0 node + 1
  let s := (s.satInc (LAT_NODE.MISS p node)).modLatPort p (fun x => { x with silent := x.silent.set 0 node n })
  let st := s.f (LAT_NODE.STATE p node)
  if (st = nodeOK ∨ st = nodeJOINING) ∧ 3 ≤ n ∧ s.f (LAT_PORT_STATUS.STATE p) = latRUN then
    (s.modLatPort p (fun x => { x with joins := x.joins.filter (· ≠ node) })).nodeLost p node
  else s

/-- A good CYCLIC frame (R516, R521 to R523). -/
def State.goodCycle (s : State) (p : Nat) (b : List Byte) : State :=
  let x := s.latPort p
  let s := (s.setLatPort p { x with away := false, bad := 0, good := x.good + 1 }).wrapInc (LAT_PORT_CYC.COUNT p)
  let s := if s.f (LAT_PORT_STATUS.STATE p) = latBROKEN ∧ 16 ≤ x.good + 1 then s.latTo p latRUN else s
  ((List.range (s.latNodes p)).foldl (fun (a : State × Nat) node =>
    let s := a.1
    let ol := s.f (LAT_NODE.OLEN p node)
    let il := s.f (LAT_NODE.ILEN p node)
    let s := if bit (leAt b (a.2 + 3) 1) 0 then s.nodeAlive p node ((b.drop (a.2 + 4 + ol)).take il) else s.nodeSilent p node
    (s, a.2 + 4 + ol + il)) (s, 8)).1

/-! ## The mailbox (R517, R518, R522) -/

/-- The MBX frame of a transfer. -/
def State.mbxFrame (s : State) (p : Nat) (m : LatMbx) : List Byte :=
  let data := if m.cmd = 2 ∧ ¬ m.polling then m.data else []
  s.latFrame p 0x03 (leBytes 1 m.node ++ leBytes 1 (if m.polling then 3 else m.cmd) ++ leBytes 1 m.tag ++ leBytes 1 0 ++ leBytes 4 m.addr ++ leBytes 1 m.len ++
    leBytes 3 0 ++ (data ++ List.replicate (128 - data.length) 0#8))

/-- The end of the device's own read of a joining node's descriptor (R522). -/
def State.joinRead (s : State) (p node : Nat) (data : Option (List Byte)) : State :=
  let s := s.modLatPort p (fun x => { x with mbx := none })
  if s.f (LAT_NODE.STATE p node) ≠ nodeJOINING then s
  else match data with
    | none => s.modLatPort p (fun x => { x with joins := x.joins ++ [node] })
    | some d =>
      if leAt d 0 4 = s.f (LAT_NODE_ID.PRODUCT p node) ∧ leAt d 10 1 = s.f (LAT_NODE.OLEN p node) ∧ leAt d 11 1 = s.f (LAT_NODE.ILEN p node) then
        ((s.setF (LAT_NODE.STATE p node) nodeOK).event (168 + p)).latReport 0 0x13 p node
      else s.latReport 1 0x14 p node

/-- A transfer ends: the software's, or the device's own. -/
def State.mbxOver (s : State) (p : Nat) (m : LatMbx) (code : Nat) (data : Option (List Byte)) : State :=
  if m.own then s.joinRead p m.node (if code = 0 then data else none) else s.mbxEnd p code (if m.cmd = 1 then data else none)

/-- A request came back bad or unanswered: two more tries (R518). A POLL is sent again in every slot. -/
def State.mbxFail (s : State) (p : Nat) (m : LatMbx) : State :=
  if m.polling then s.modLatPort p (fun x => { x with mbx := some { m with sent := false } })
  else if 3 ≤ m.fails + 1 then s.mbxOver p m 1 none
  else s.modLatPort p (fun x => { x with mbx := some { m with sent := false, fails := m.fails + 1 } })

/-- The slot after the CYCLIC frame: at most one JOIN or MBX frame (R513, R518, R522). -/
def State.latSlot (s : State) (p : Nat) : State :=
  let x := s.latPort p
  let s := match x.mbx with
    | some m => if m.sent then s.mbxFail p m else s
    | none => s
  let x := s.latPort p
  if x.joinDue && s.f (LAT_PORT_STATUS.STATE p) ≠ latMISMATCH then
    (s.setLatPort p { x with joinDue := false }).emit (.lateral p (s.latFrame p 0x04 (leBytes 2 0 ++ leBytes 1 x.joinTo ++ leBytes 1 0)))
  else
    let tag := (x.tag + 1) % 256
    let x := match x.mbx, x.joins with
      | none, n :: t =>
        if s.f (LAT_PORT_STATUS.STATE p) = latRUN then { x with joins := t, tag := tag, mbx := some { node := n, len := 16, tag := tag, own := true } } else x
      | _, _ => x
    match x.mbx with
    | some m => (s.setLatPort p { x with mbx := some { m with sent := true } }).emit (.lateral p (s.mbxFrame p m))
    | none => s

end Sys2Proof.Machine
end

