-- ==== Sys2Proof/Machine/Lateral.lean ====
section
/-! DEFINITION. The meanings of the lateral chain's and the fans' commands (spec/14). -/
namespace Sys2Proof.Machine

/-! ## Ports -/

/-- A write to a lateral register that is dark, or of a port that does not exist: the state left behind. -/
def State.latGuard (s : State) (p off value : Nat) : Option State :=
  if 4 ≤ p then some s else if s.poweredDown off then some (s.darkWrite off value) else none

/-- Do the ports run: RUN, READY, STANDBY, SLEEP (R536)? -/
def State.latRuns (s : State) : Bool := s.awake || s.power = pwrSLEEP

/-- LAT_PORT_ENABLE (R511). -/
def execLatPortEnable (p : Nat) (s : State) : Host.Outcome State Fault Refusal :=
  match s.latGuard p (LAT_PORT_CTRL.word p) 1 with
  | some t => .next t
  | none =>
    let v := s.f (LAT_PORT_STATUS.STATE p)
    let s := s.setF (LAT_PORT_CTRL.ENABLE p) 1
    .next (if v = latOFF ∨ v = latMISMATCH then s.latEnum p else s)

/-- LAT_PORT_DISABLE (R537). -/
def execLatPortDisable (p : Nat) (s : State) : Host.Outcome State Fault Refusal :=
  match s.latGuard p (LAT_PORT_CTRL.word p) 0 with
  | some t => .next t
  | none =>
    if s.latBound p then .next (s.raise LAT_STATUS.CTRL_REFUSED)
    else if s.f (LAT_PORT_CTRL.ENABLE p) = 0 then .next s
    else
      let s := s.modLatPort p (fun x => { x with enumAt := none, away := false, joins := [], joinDue := false, pulses := [] })
      .next ((s.setF (LAT_PORT_CTRL.ENABLE p) 0).latTo p latOFF)

/-- LAT_RESCAN (R511). -/
def execLatRescan (p : Nat) (s : State) : Host.Outcome State Fault Refusal :=
  match s.latGuard p (LAT_PORT_CTRL.word p) 2 with
  | some t => .next t
  | none =>
    if s.inRun then .next (s.raise LAT_STATUS.CTRL_REFUSED)
    else if s.f (LAT_PORT_CTRL.ENABLE p) = 0 then .next s
    else .next (s.latEnum p)

/-- LAT_ENUM_SEND (R509, R511). -/
def execLatEnumSend (p : Nat) (s : State) : Host.Outcome State Fault Refusal :=
  if 4 ≤ p ∨ !s.latRuns ∨ s.f (LAT_PORT_STATUS.STATE p) ≠ latENUM then .next s
  else .next ((s.modLatPort p (fun x => { x with enumAt := some s.now.toNat })).emit (.lateral p (s.latFrame p 0x02 (leBytes 2 0 ++ leBytes 2 0 ++ List.replicate 4096 0#8))))

/-- Does a node descriptor keep its layout (R510)? -/
def descOk (d : List Byte) : Bool :=
  leAt d 0 4 ≠ 0 && decide (2 ≤ leAt d 10 1 ∧ leAt d 10 1 ≤ 64) && decide (2 ≤ leAt d 11 1 ∧ leAt d 11 1 ≤ 64) && leAt d 12 1 = 1 && leAt d 13 3 = 0

/-- Do the enumerated nodes meet what is expected (R511)? -/
def State.expectOk (s : State) (p : Nat) (ds : List (List Byte)) : Bool :=
  (s.f (LAT_PORT_CFG.EXPECT_N p) = 0 || s.f (LAT_PORT_CFG.EXPECT_N p) = ds.length) &&
  (List.range 256).all (fun i =>
    let e := s.f (LAT_EXPECT.PRODUCT p i)
    e = 0 || decide (ds.length ≤ i) || e = leAt (ds.getD i []) 0 4)

/-- LAT_ENUM_RETURN (R509 to R513). -/
def execLatEnumReturn (p : Nat) (frame : Option (List (BitVec 8))) (s : State) : Host.Outcome State Fault Refusal :=
  match (s.latPort p).enumAt, latGood 0x02 4112 frame with
  | some t0, some b =>
    if 4 ≤ p ∨ s.f (LAT_PORT_STATUS.STATE p) ≠ latENUM then .next s
    else
      let n := min 256 (leAt b 8 2)
      let ds := (List.range n).map (fun i => (b.drop (12 + 16 * i)).take 16)
      let s := (s.setF (LAT_PORT_RING.RING_NS p) (min 65535 (s.now.toNat - t0))).setF (LAT_PORT_STATUS.NODES p) n
      let s := s.modLatPort p (fun x => { x with enumAt := none, descs := ds, fresh := [], silent := [] })
      if !ds.all descOk || !s.expectOk p ds then .next (s.latMismatch p)
      else
        let s := (List.range 256).foldl (fun s i =>
          (s.setWord (LAT_NODE.word p i) (s.word (LAT_NODE.word p i) &&& 0xFFC00000#32)).setWord (LAT_NODE_ID.word p i) 0) s
        let s := (List.range n).foldl (fun s i =>
          let d := ds.getD i []
          let s := ((s.setF (LAT_NODE.OLEN p i) (leAt d 10 1)).setF (LAT_NODE.ILEN p i) (leAt d 11 1)).setF (LAT_NODE.STATE p i) nodeOK
          s.setWord (LAT_NODE_ID.word p i) (BitVec.ofNat 32 (leAt d 0 4))) s
        if 1000 < s.latMinUs p then .next (s.latMismatch p)
        else .next ((s.setF (LAT_PORT_STATUS.CYCLE_NOW p) (s.latCycleUs p)).latTo p latRUN)
  | _, _ => .next s

/-- Pulses after the cycle that carried them. -/
def LatPort.spend (x : LatPort) : LatPort := { x with pulses := x.pulses.filterMap (fun q => if q.left ≤ 1 then none else some { q with left := q.left - 1 }) }

/-- LAT_CYCLE_START (R512, R513, R516, R518, R520, R522, R523, R534, R535). -/
def execLatCycleStart (p : Nat) (s : State) : Host.Outcome State Fault Refusal :=
  let v := s.f (LAT_PORT_STATUS.STATE p)
  if 4 ≤ p ∨ !s.latRuns ∨ v = latOFF ∨ v = latENUM then .next s
  else if v = latMISMATCH then .next (s.latSlot p)
  else
    let s := if (s.latPort p).away then s.badCycle p else s
    let s := (s.setB (LAT_PORT_STATUS.SAFE_ALL p) (decide (s.f FLT_STATUS.ACTIVE = 4))).setF (LAT_PORT_STATUS.CYCLE_NOW p) (s.latCycleUs p)
    let body := ((List.range (s.latNodes p)).map (fun i => s.segment p i)).flatten
    let s := s.emit (.lateral p (s.latFrame p 0x01 body))
    let s := s.modLatPort p (fun x => { x.spend with away := true, seq := (x.seq + 1) % 65536 })
    .next (s.latSlot p)

/-- LAT_CYCLIC_RETURN (R516, R520 to R523, R534). -/
def execLatCyclicReturn (p : Nat) (frame : Option (List (BitVec 8))) (s : State) : Host.Outcome State Fault Refusal :=
  if 4 ≤ p ∨ !(s.latPort p).away then .next s
  else match latGood 0x01 (12 + s.segSum p) frame with
    | some b => .next (s.goodCycle p b)
    | none => .next (s.badCycle p)

/-- LAT_OIMG_WRITE (R516): bytes bound to a loop that is not OFF ignore it. -/
def execLatOimgWrite (p node w : Nat) (value : BitVec 32) (s : State) : Host.Outcome State Fault Refusal :=
  let off := LAT_OIMG.word p node w
  if 256 ≤ node ∨ 16 ≤ w then .next s
  else match s.latGuard p off value.toNat with
    | some t => .next t
    | none =>
      let bound := fun (i : Nat) => s.outBound p node (4 * w + i)
      let v := (List.range 4).foldl (fun (a : Nat) i => if bound i then a + bits (s.word off).toNat (8 * i) 8 * 2 ^ (8 * i) else a + bits value.toNat (8 * i) 8 * 2 ^ (8 * i)) 0
      let s := if (List.range 4).any bound then s.satInc LPE_WR_ERR.WRITE else s
      .next (s.setWord off (BitVec.ofNat 32 v))

/-! ## The mailbox (R518) -/

/-- GO with a command. -/
def State.latMbxGo (s : State) (p cmd : Nat) : State :=
  match s.latGuard p (LAT_MBX_CTRL.word p) (2 * cmd + 1) with
  | some t => t
  | none =>
    let v := s.f (LAT_PORT_STATUS.STATE p)
    if s.b (LAT_MBX_STATUS.BUSY p) then s.raise (LAT_MBX_STATUS.OVERRUN p)
    else
      let s := s.setF (LAT_MBX_CTRL.CMD p) cmd
      if cmd ≠ 1 ∧ cmd ≠ 2 then s.mbxEnd p 3 none
      else if v ≠ latRUN ∧ v ≠ latMISMATCH then s.mbxEnd p 5 none
      else
        let x := s.latPort p
        let data := (List.range 32).flatMap (fun w => leBytes 4 (s.word (LAT_MBX_DATA.word p w)).toNat)
        let len := s.f (LAT_MBX_CTRL.LEN p)
        let m : LatMbx := { cmd := cmd, node := s.f (LAT_MBX_CTRL.NODE p), addr := s.f (LAT_MBX_ADDR.NADDR p), len := len,
                            data := if cmd = 2 then data.take len else [], tag := (x.tag + 1) % 256 }
        -- the device's own descriptor read, if one runs, starts again afterwards
        let joins := match x.mbx with
          | some o => if o.own then x.joins ++ [o.node] else x.joins
          | none => x.joins
        (s.setLatPort p { x with mbx := some m, tag := m.tag, joins := joins }).setF (LAT_MBX_STATUS.BUSY p) 1

/-- LAT_MBX_READ (R518). -/
def execLatMbxRead (p : Nat) (s : State) : Host.Outcome State Fault Refusal := .next (s.latMbxGo p 1)

/-- LAT_MBX_WRITE (R518). -/
def execLatMbxWrite (p : Nat) (s : State) : Host.Outcome State Fault Refusal := .next (s.latMbxGo p 2)

/-- LAT_MBX_RETURN (R517, R518, R522). -/
def execLatMbxReturn (p : Nat) (frame : Option (List (BitVec 8))) (s : State) : Host.Outcome State Fault Refusal :=
  match (s.latPort p).mbx with
  | none => .next s
  | some m =>
    if 4 ≤ p ∨ !m.sent then .next s
    else match latGood 0x03 152 frame with
      | none => .next (s.mbxFail p m)
      | some b =>
        let again := fun (m : LatMbx) => s.modLatPort p (fun x => { x with mbx := some m })
        if leAt b 8 1 ≠ m.node ∨ leAt b 10 1 ≠ m.tag then .next (s.mbxFail p m)
        else match leAt b 11 1 with
          | 0 => .next (s.mbxFail p m)
          | 1 => .next (again (if m.polling then { m with sent := false } else { m with sent := false, polling := true, since := s.now.toNat }))
          | 2 => .next (s.mbxOver p m 0 (some ((b.drop 20).take 128)))
          | 4 => .next (s.mbxOver p m 2 none)
          | 5 => .next (s.mbxOver p m 3 none)
          | _ => .next (again { m with sent := false })

/-- LAT_MBX_TIMEOUT (R518): 100 ms after ACCEPTED. -/
def execLatMbxTimeout (p : Nat) (s : State) : Host.Outcome State Fault Refusal :=
  match (s.latPort p).mbx with
  | none => .next s
  | some m => if 4 ≤ p ∨ !m.polling ∨ s.now.toNat < m.since + 100000000 then .next s else .next (s.mbxOver p m 4 none)

/-- Lost nodes of a port. -/
def State.lostNodes (s : State) (p : Nat) : List Nat := (List.range (s.latNodes p)).filter (fun i => s.f (LAT_NODE.STATE p i) = nodeLOST)

/-- LAT_JOIN_SEND (R522): the next lost node in turn takes the next free slot. -/
def execLatJoinSend (p : Nat) (s : State) : Host.Outcome State Fault Refusal :=
  let l := s.lostNodes p
  let x := s.latPort p
  match (l.find? (fun i => decide (x.joinTo < i))).or l.head? with
  | none => .next s
  | some n => if 4 ≤ p ∨ !s.latRuns then .next s else .next (s.setLatPort p { x with joinTo := n, joinDue := true })

/-- LAT_JOIN_RETURN (R522): the target has taken its address again; once ALIVE it joins. -/
def execLatJoinReturn (p : Nat) (frame : Option (List (BitVec 8))) (s : State) : Host.Outcome State Fault Refusal :=
  match latGood 0x04 16 frame with
  | some b =>
    if 4 ≤ p ∨ leAt b 8 2 ≤ leAt b 10 1 then .next s
    else .next (s.modLatPort p (fun x => { x with brk := x.brk.filter (· ≠ leAt b 10 1) }))
  | none => .next s

/-! ## Fans (R524 to R528) -/

/-- Fan states. -/
abbrev fanOFF : Nat := 0
abbrev fanKICK : Nat := 1
abbrev fanWAIT : Nat := 2
abbrev fanRUN : Nat := 3
abbrev fanLOST : Nat := 4
abbrev fanFAULT : Nat := 5

def State.fan (s : State) (fc : Nat) : FanCh := s.lat.fans.getD {} fc
def State.setFan (s : State) (fc : Nat) (x : FanCh) : State := { s with lat := { s.lat with fans := s.lat.fans.set {} fc x } }
def State.fanState (s : State) (fc : Nat) : Nat := s.f (LAT_FAN_STATUS.STATE fc)

/-- A fan takes a state and drives a duty, 65,536 for 100 %. -/
def State.fanTo (s : State) (fc v drive : Nat) : State :=
  (s.setFan fc { s.fan fc with drive := drive }).setF (LAT_FAN_STATUS.STATE fc) v

/-- A kick of 2 s at 100 % (R525). -/
def State.fanKick (s : State) (fc : Nat) : State :=
  ((s.fanTo fc fanKICK 65536).setFan fc { s.fan fc with drive := 65536, kickAt := s.now.toNat }).setF (LAT_FAN_STATUS.ATTEMPT fc) (min 3 (s.f (LAT_FAN_STATUS.ATTEMPT fc) + 1))

/-- A fan fault (R525, R527, R530). -/
def State.fanFault (s : State) (fc drive : Nat) : State :=
  ((s.fanTo fc fanFAULT drive).report 0x0D (s.f (LAT_FAN_CFG.FCLASS fc) + 1) 0x17 (0x80000000 + fc * 65536)).event (160 + fc)

/-- Start from OFF (R525). -/
def State.fanStart (s : State) (fc : Nat) : State := (s.setF (LAT_FAN_STATUS.ATTEMPT fc) 0).fanKick fc

/-- FAN_DUTY_WRITE (R524, R525). -/
def execFanDutyWrite (fc : Nat) (duty : BitVec 16) (s : State) : Host.Outcome State Fault Refusal :=
  let off := LAT_FAN_CTRL.word fc
  if 8 ≤ fc then .next s
  else if s.poweredDown off then .next (s.darkWrite off duty.toNat)
  else
    let s := s.setF (LAT_FAN_CTRL.DUTY fc) duty.toNat
    let v := s.fanState fc
    if v = fanFAULT then .next s
    else if duty = 0 then .next (s.fanTo fc fanOFF 0)
    else if v = fanOFF then .next (s.fanStart fc)
    else if v = fanRUN then .next (s.fanTo fc fanRUN duty.toNat)
    else .next s

/-- More than 20 % of RPM_MAX? -/
def State.fanTurns (s : State) (fc rpm : Nat) : Bool := decide (s.f (LAT_FAN_CFG.RPM_MAX fc) < 5 * rpm)

/-- FAN_KICK_END (R525): `rpm` is the mean speed of the last 200 ms, in 10 rpm. The third failure is a fault. -/
def execFanKickEnd (fc rpm : Nat) (s : State) : Host.Outcome State Fault Refusal :=
  if 8 ≤ fc ∨ s.fanState fc ≠ fanKICK ∨ s.now.toNat < (s.fan fc).kickAt + 2000000000 then .next s
  else if s.fanTurns fc rpm then .next (s.fanTo fc fanRUN (s.f (LAT_FAN_CTRL.DUTY fc)))
  else if 3 ≤ s.f (LAT_FAN_STATUS.ATTEMPT fc) then .next (s.fanFault fc 0)
  else .next (s.fanTo fc fanWAIT 0)

/-- FAN_RETRY (R525). -/
def execFanRetry (fc : Nat) (s : State) : Host.Outcome State Fault Refusal :=
  if 8 ≤ fc ∨ s.fanState fc ≠ fanWAIT ∨ s.now.toNat < (s.fan fc).kickAt + 5000000000 then .next s else .next (s.fanKick fc)

/-- Has a fan's source risen more than ESC_DEG above what was recorded (R527)? -/
def State.fanHot (s : State) (fc : Nat) : Bool :=
  let src := s.f (LAT_FAN_CFG.TSRC fc)
  let esc := s.f (LAT_FAN_CFG.ESC_DEG fc)
  match (s.fan fc).temp with
  | none => false
  | some (1, v) => decide (sgn 16 v + 10 * (esc : Int) < sgn 16 (s.f (THM_SENS.TEMP src)))
  | some (_, v) => Flt.lt (Flt.add (BitVec.ofNat 32 v) (Flt.ofInt esc)) (s.loop src).y

/-- FAN_MEASURE (R524, R527): the speed in 10 rpm; in TACH_LOST the source is looked at. -/
def execFanMeasure (fc rpm : Nat) (s : State) : Host.Outcome State Fault Refusal :=
  if 8 ≤ fc ∨ !s.latRuns then .next s
  else
    let s := s.setF (LAT_FAN_STATUS.RPM fc) (min 65535 rpm)
    .next (if s.fanState fc = fanLOST ∧ s.fanHot fc then s.fanFault fc 65536 else s)

/-- FAN_TACH_LOST (R526, R527). -/
def execFanTachLost (fc : Nat) (s : State) : Host.Outcome State Fault Refusal :=
  if 8 ≤ fc ∨ s.fanState fc ≠ fanRUN then .next s
  else
    let k := s.f (LAT_FAN_CFG.TKIND fc)
    let src := s.f (LAT_FAN_CFG.TSRC fc)
    let t := if k = 1 then some (1, s.f (THM_SENS.TEMP src)) else if k = 2 then some (2, (s.loop src).y.toNat) else none
    let s := ((s.setFan fc { s.fan fc with temp := t }).fanTo fc fanLOST 65536).raise (LAT_FAN_STATUS.WARN fc)
    let s := ((s.report 0x0D 0 0x16 (0x80000000 + fc * 65536)).pf 5).event (160 + fc)
    .next (if k = 0 then s.fanFault fc 65536 else s)

/-- FAN_TACH_RECOVER (R527). -/
def execFanTachRecover (fc : Nat) (s : State) : Host.Outcome State Fault Refusal :=
  if 8 ≤ fc ∨ s.fanState fc ≠ fanLOST then .next s else .next (s.fanTo fc fanRUN (s.f (LAT_FAN_CTRL.DUTY fc)))

/-- FAN_CLEAR (R527). -/
def execFanClear (fc : Nat) (s : State) : Host.Outcome State Fault Refusal :=
  let off := LAT_FAN_CTRL.word fc
  if 8 ≤ fc then .next s
  else if s.poweredDown off then .next (s.darkWrite off (2 ^ 31))
  else if s.fanState fc ≠ fanFAULT then .next s
  else
    let s := s.fanTo fc fanOFF 0
    .next (if s.f (LAT_FAN_CTRL.DUTY fc) = 0 then s else s.fanStart fc)

end Sys2Proof.Machine
end

