-- ==== Sys2Proof/Machine/Loops.lean ====
section
/-! DEFINITION. The meanings of the loop commands (spec/12). -/
namespace Sys2Proof.Machine

/-! ## Commands (R444, R445) -/

/-- A loop command that is not accepted; `code` 0 leaves REFUSE as it stands. -/
def State.lpRefuse (s : State) (lp code : Nat) : State :=
  let s := (s.raise (LPE_LP_STATUS.CMD_REFUSED lp)).satInc LPE_WR_ERR.CMD
  if code = 0 then s else s.setF (LPE_LP_STATUS.REFUSE lp) code

/-- A loop command that reaches a dark block; in SLEEP an OPEN is refused with POWER too (R39, R470). -/
def State.lpDark (s : State) (lp cmd : Nat) : State :=
  let s := s.darkWrite (LPE_LP_CMD.word lp) cmd
  if s.power = pwrSLEEP ∧ cmd = 2 then s.lpRefuse lp 6 else s

/-- LOOP_OFF (R444, R445). -/
def execLoopOff (lp : Nat) (s : State) : Host.Outcome State Fault Refusal :=
  if 64 ≤ lp then .next s
  else if s.poweredDown (LPE_LP_CMD.word lp) then .next (s.lpDark lp 1)
  else if s.lpState lp = lpOFF then .next (s.lpRefuse lp 0)
  else .next (s.lpOff lp)

/-- LOOP_OPEN (R445, R449, R450, R455, R458, R461, R465). -/
def execLoopOpen (lp : Nat) (s : State) : Host.Outcome State Fault Refusal :=
  if 64 ≤ lp then .next s
  else if s.poweredDown (LPE_LP_CMD.word lp) then .next (s.lpDark lp 2)
  else if s.lpState lp = lpCLOSED then
    .next ((((s.modLoop lp (fun x => { x with first := false, stopping := false, dev := none })).setF (LPE_LP_STATUS.FAULT lp) 0).setF (LPE_LP_STATUS.RAMPING lp) 0).lpTo lp lpOPEN)
  else if s.lpState lp ≠ lpOFF then .next (s.lpRefuse lp 0)
  else
    let c := s.lpOpenCheck lp
    if c ≠ 0 then .next (s.lpRefuse lp c)
    else
      let k := (s.encIn (s.f (LPE_LP_IN.INDEX lp))).cnt
      let z := s.lpPosCount lp
      let s := s.setLoop lp { u := (s.loop lp).u, prime := true, zero := z, pcnt := z, open0 := k, cnt := k, ofs := s.word (LPE_LP_POS_OFS.word lp) }
      .next ((s.setF (LPE_LP_STATUS.FAULT lp) 0).lpTo lp lpOPEN)

/-- The constants of a loop that closes, and its soft start (R454, R455). -/
def State.lpConstants (s : State) (lp : Nat) : State :=
  let t := s.lpT lp
  let tf := s.word (LPE_LP_TF.word lp)
  let den := Flt.add tf t
  s.modLoop lp (fun x => { x with
    dr := Flt.mul (s.word (LPE_LP_RAMP.word lp)) t, dstop := Flt.mul (s.word (LPE_LP_STOP_RAMP.word lp)) t,
    kit := Flt.mul (s.word (LPE_LP_KI.word lp)) t, ad := Flt.div tf den, bd := Flt.div (s.word (LPE_LP_KD.word lp)) den,
    g1 := (s.lpB1 lp).gain, g2 := (s.lpB2 lp).gain, first := true, stopping := false, dev := none })

/-- A field of a loop was written in the round of its CLOSE: the write comes before the command, so the loop closes with the new value, or its CLOSE is
refused (R446). -/
def State.lpReclose (s : State) (lp : Nat) : State :=
  if s.lpCloseOk lp then s.lpConstants lp else (s.lpTo lp lpOPEN).lpRefuse lp 4

/-- LOOP_CLOSE (R445, R454, R455). -/
def execLoopClose (lp : Nat) (s : State) : Host.Outcome State Fault Refusal :=
  if 64 ≤ lp then .next s
  else if s.poweredDown (LPE_LP_CMD.word lp) then .next (s.lpDark lp 3)
  else if s.lpState lp ≠ lpOPEN then .next (s.lpRefuse lp 5)
  else if !s.lpCloseOk lp then .next (s.lpRefuse lp 4)
  else
    .next ((s.lpConstants lp).lpTo lp lpCLOSED)

/-! ## Samples (R447 to R468) -/

/-- Watch |r − y| against DEV (R468): since when it has exceeded it, and whether DEV_MS has passed. -/
def State.lpDeviation (s : State) (lp : Nat) (x : Loop) : Option Nat × Bool :=
  let far := Flt.lt (s.word (LPE_LP_DEV.word lp)) (Flt.absF (Flt.sub x.r x.y))
  if s.lpState lp ≠ lpCLOSED ∨ !far then (none, false)
  else
    let t0 := x.dev.getD s.now.toNat
    (some t0, decide (s.f (LPE_LP_TIME.DEV_MS lp) * 1000000 ≤ s.now.toNat - t0))

/-- The state in which a sample is taken: the converter's code is shown, and a polygon at its facet rate goes on to ACQUIRE (R327, R467). -/
def State.lpArrive (s : State) (lp : Nat) (code : BitVec 16) : State :=
  let s := if s.lpAdc lp then s.setF (LPE_ADC_VAL.CODE (s.f (LPE_LP_IN.INDEX lp))) code.toNat else s
  let st := s.f (LPE_LP_IN.INDEX lp)
  if s.lpPoly lp ∧ s.poly st = polySPEED ∧ s.atFacetRate lp then s.setPoly st polyACQUIRE else s

/-- What an evaluation makes of a raw input: the measurement, then the control law of a closed loop, or the manual output of an open one (R452 to R458). -/
def State.lpEvaluate (s : State) (lp : Nat) (m : F32 × Bool) : LpEval :=
  let x := s.loop lp
  let closed := s.lpState lp = lpCLOSED
  let re := x.anchor || (closed && !x.first && s.lpPoly lp && x.onBd ≠ m.2)
  let xin := Flt.add (Flt.mul (s.word (LPE_LP_IN_GAIN.word lp)) m.1) (s.word (LPE_LP_IN_OFS.word lp))
  let f := lpMeasure (s.b (LPE_LP_CFG.B1_EN lp)) (s.lpB1 lp) (x.prime || re) xin x.b1s
  let y := f.1
  let x := { x with b1s := f.2, prime := false, anchor := false, onBd := m.2, y := y }
  if closed then s.lpLaw lp x y re
  else
    let man := s.word (LPE_LP_MANUAL.word lp)
    let u := Flt.clampF man (s.word (LPE_LP_U_MIN.word lp)) (s.word (LPE_LP_U_MAX.word lp))
    ⟨{ x with u := u }, u, !Flt.eq u man, false, [y, u, x.b1s.1, x.b1s.2].any (fun z => !Flt.isFinite z)⟩

/-- An evaluation's result is kept and shown and its output made due, or the loop faults: 1 not finite, 3 outside its range, 4 deviating (R459, R462). -/
def State.lpConclude (s : State) (lp : Nat) (ev : LpEval) : State :=
  let z := { ev.x with cnt := (s.encIn (s.f (LPE_LP_IN.INDEX lp))).cnt, pcnt := s.lpPosCount lp }
  if ev.bad then (s.setLoop lp { z with u := (s.loop lp).u }).lpFault lp 1
  else
    let dv := s.lpDeviation lp z
    let s := (s.setLoop lp { z with dev := dv.1, due := some ev.u }).lpShow lp z ev.sat ev.ramping
    if Flt.lt z.y (s.word (LPE_LP_Y_MIN.word lp)) || Flt.lt (s.word (LPE_LP_Y_MAX.word lp)) z.y then s.lpFault lp 3
    else if dv.2 then s.lpFault lp 4
    else s

/-- LOOP_SAMPLE (R447, R450 to R459, R462 to R468): a loop is evaluated; its output waits for the sink. `ecc` is what the read of its tables in control
memory meets (R26, R27): 1 a corrected error, a C1; 2 an uncorrectable one, a C3 after which this sample gives no output (DESIGN CHOICE, unsafe:
the spec does not say what the loop then computes with; assumption log 99). -/
def execLoopSample (lp : Nat) (code : BitVec 16) (ecc : Nat) (s : State) : Host.Outcome State Fault Refusal :=
  if 64 ≤ lp ∨ !s.lpRuns lp ∨ !s.awake then .next s
  else if ecc = 2 then .next (s.report 0x0B 3 0x0C lp)
  else
    let s := if ecc = 1 then s.report 0x0B 1 0x0B lp else s
    let t := if s.lpAdc lp then s.setF (LPE_ADC_VAL.CODE (s.f (LPE_LP_IN.INDEX lp))) code.toNat else s
    if t.lpLost lp then .next (t.lpFault lp 6)
    else if t.lpStale lp then .next (t.lpFault lp 2)
    else
      let u := s.lpArrive lp code
      let m := u.lpRaw lp code
      .next (m.2.2.lpConclude lp (m.2.2.lpEvaluate lp (m.1, m.2.1)))

/-- LOOP_OUTPUT (R448, R468): the output reaches its sink, or an evaluation that is not complete is an overrun; the third in a row is a fault. -/
def execLoopOutput (lp : Nat) (late : Bool) (s : State) : Host.Outcome State Fault Refusal :=
  if 64 ≤ lp ∨ !s.awake then .next s
  else if late && s.lpRuns lp then
    let n := (s.loop lp).late + 1
    let s := (s.modLoop lp (fun x => { x with late := n, due := none })).satInc (LPE_LP_CNT.OVERRUN lp)
    .next (if 3 ≤ n then s.lpFault lp 5 else s)
  else match (s.loop lp).due with
    | none => .next s
    | some u =>
      let s := s.modLoop lp (fun x => { x with due := none, late := 0 })
      .next (if s.lpState lp = lpFAULT then s.lpSafe lp else s.lpDrive lp u)

/-- The channel whose turn the scan has: the next of LPE_ADC_SCAN after the last, round and round (R450). -/
def State.scanTurn (s : State) : Option Nat :=
  ((List.range 32).map (fun i => (s.lpe.scan + i) % 32)).find? (fun ch => bit (s.f LPE_ADC_SCAN.MASK) ch)

/-- ADC_SCAN_CONVERSION (R450): the code of the channel whose turn it is. -/
def execAdcScanConversion (ch : Nat) (code : BitVec 16) (s : State) : Host.Outcome State Fault Refusal :=
  if !s.awake || s.scanTurn ≠ some ch then .next s
  else .next ({ s with lpe := { s.lpe with scan := ch + 1 } }.setF (LPE_ADC_VAL.CODE ch) code.toNat)

/-- PWM_CARRIER_PERIOD (R460, R463): a carrier period starts with the output active and takes the duty written last. -/
def execPwmCarrierPeriod (c : Nat) (s : State) : Host.Outcome State Fault Refusal :=
  if 32 ≤ c ∨ !s.awake then .next s
  else
    let d := s.f (LPE_PWM_DUTY.DUTY c)
    let s := { s with lpe := { s.lpe with pwm := s.lpe.pwm.set 0 c d } }
    .next (s.emit (.wire (2000 + c) (xor (decide (d ≠ 0)) (s.b (LPE_PWM_CFG.INV c)))))

/-- POLY_SEARCH_SHIFT (R465, R466): 64 facets in ACQUIRE without a BD shift the coarse offset by 15 % of P, of a revolution 15/800. -/
def execPolySearchShift (st : Nat) (s : State) : Host.Outcome State Fault Refusal :=
  match s.polyLoop st with
  | none => .next s
  | some lp =>
    if s.lpState lp ≠ lpCLOSED ∨ s.poly st ≠ polyACQUIRE ∨ ((s.scnSt st).acqAt :: (s.scnSt st).bd).any (fun t => decide (s.now.toNat < t + 64 * s.period)) then .next s
    else .next ((s.modScnSt st (fun x => { x with acqAt := s.now.toNat })).modLoop lp (fun x => { x with ofs := Flt.add x.ofs (Flt.ofRat 15 800), anchor := true }))

end Sys2Proof.Machine
end

