-- ==== Sys2Proof/Machine/Headgate.lean ====
section
/-! DEFINITION. Headgate (R688 to R694): interlocks, speed gates, emitter on-time and duty, limits. -/
namespace Sys2Proof.Machine

/-- Is Headgate powered: in every state except OFF (R712)? -/
def State.hdgOn (s : State) : Bool := s.power ≠ pwrOFF

/-- Report of Headgate: bits 15:8 station, bits 7:0 emitter (R677). -/
def State.hdgReport (s : State) (cls cause st e : Nat) : State := s.report 0x09 cls cause (st * 256 + e)

/-! ## Interlocks (R689) -/

/-- INTERLOCK_CHANGE (R689): a level held for 1 µs is taken. Opening is a C4 in RUN, else a C0; the mapped outputs are cut while the cover is open. -/
def execInterlockChange (cover : Nat) (isOpen : Bool) (s : State) : Host.Outcome State Fault Refusal :=
  if 4 ≤ cover ∨ !s.hdgOn ∨ bit (s.f HDG_STATUS.IL_OPEN) cover = isOpen then .next s
  else
    let s := s.setF HDG_STATUS.IL_OPEN (setBit (s.f HDG_STATUS.IL_OPEN) cover isOpen)
    if !isOpen then .next s.hdgSync
    else
      let s := s.enabledStations.foldl (fun (s : State) st =>
        if bit (s.f (HDG_IL_MAP.MAP cover)) st then s.setF (HDG_ST_STATUS.LAST_CAUSE st) 3 else s) s
      .next (((s.satInc HDG_CNT.IL).hdgSync).hdgReport (if s.inRun then 4 else 0) 0x12 0xFF cover)

/-! ## Speed gates (R690) -/

/-- The reference class: the class in force, and during RAMPING the slower of the old class and the target (R690). -/
def State.refClass (s : State) : Nat := if s.ramping then max s.pwr.inForce s.classNow else s.classNow

/-- Is a tach interval within 16 facet periods of the reference class over PPR (R13, R690)? -/
def State.tachOk (s : State) (st gap : Nat) : Bool :=
  decide (gap * s.f (HDG_ST_CFG.PPR st) * 3 * webSpeed s.refClass ≤ 16 * 2032000000000)

/-- Open or shut a speed gate; SLOW_FIRE may count again once it shuts. -/
def State.gateTo (s : State) (st : Nat) (shut : Bool) : State :=
  if s.b (HDG_ST_STATUS.SLOW st) = shut then s
  else ((s.setHdgSt st { s.hdgSt st with slowSaid := false }).setB (HDG_ST_STATUS.SLOW st) shut).hdgSync

/-- TACH_EDGE (R690): the interval that ends with this edge decides the gate of every station whose TACH names the input. -/
def execTachEdge (enc : Nat) (s : State) : Host.Outcome State Fault Refusal :=
  if !s.hdgOn || decide (28 ≤ enc) then .next s
  else
    let t := s.now.toNat
    .next (s.enabledStations.foldl (fun (s : State) st =>
      if s.f (HDG_ST_CFG.TACH st) = enc then
        let x := s.hdgSt st
        let isOpen := x.last.any (fun l => s.tachOk st (t - l))
        (s.setHdgSt st { x with last := some t }).gateTo st (!isOpen)
      else s) s)

/-- SPEED_GATE_TIMEOUT (R690): no edge within the limit. -/
def execSpeedGateTimeout (st : Nat) (s : State) : Host.Outcome State Fault Refusal :=
  if !s.hdgOn || !s.stationOn st || (s.hdgSt st).last.any (fun l => s.tachOk st (s.now.toNat - l)) then .next s else .next (s.gateTo st true)

/-! ## Emitter lines (R690 to R693) -/

/-- EMITTER_ONTIME_EXCEEDED (R691): the station is cut, a C4. -/
def execEmitterOntimeExceeded (st emitter : Nat) (s : State) : Host.Outcome State Fault Refusal :=
  if !s.hdgOn || !s.stationOn st || decide (72 ≤ emitter) then .next s
  else
    let s := ((s.setF (HDG_ST_STATUS.CUT st) 1).setF (HDG_ST_STATUS.LAST_CAUSE st) 1).setF (HDG_ST_STATUS.EMITTER st) emitter
    let s := s.setHdgSt st { s.hdgSt st with low := 0 }
    .next (((s.satInc HDG_CNT.ONTIME).hdgSync).hdgReport 4 0x10 st emitter)

/-- One station's step of 100 µs: its lines' on-time in 20 ns ticks, by emitter (R690, R692, R693). -/
def State.dutyStep (s : State) (st : Nat) (lines : List Nat) : State :=
  let lines := (lines.take 72).map (fun n => min n 5000)
  let on := lines.foldl (· + ·) 0
  let x := s.hdgSt st
  let x := { x with hist := (on :: x.hist).take 100, low := if on = 0 then min 10 (x.low + 1) else 0 }
  let sum := x.hist.foldl (· + ·) 0
  let s := (s.setHdgSt st x).setF (HDG_DUTY_NOW.DUTY st) (sum / 36000)
  let s := match lines.findIdx? (fun n => decide (0 < n)) with
    | some e =>
      if s.b (HDG_ST_STATUS.SLOW st) && !x.slowSaid then
        ((s.setHdgSt st { x with slowSaid := true }).satInc HDG_CNT.SLOW_FIRE).hdgReport 0 0x13 st e
      else s
    | none => s
  if s.f HDG_DUTY.PCT * 360000 < sum ∧ ¬ s.b (HDG_ST_STATUS.CUT st) then
    let s := (s.setF (HDG_ST_STATUS.CUT st) 1).setF (HDG_ST_STATUS.LAST_CAUSE st) 2
    ((s.satInc HDG_CNT.DUTY).hdgSync).hdgReport 3 0x11 st 0xFF
  else s

/-- DUTY_EVALUATE (R692): every 100 µs; the operand gives each station's 72 on-times in 20 ns ticks. -/
def execDutyEvaluate (onTimes : List (List Nat)) (s : State) : Host.Outcome State Fault Refusal :=
  if !s.hdgOn then .next s
  else .next (s.enabledStations.foldl (fun (s : State) st => s.dutyStep st (onTimes.getD st [])) s).quietSync

/-! ## Limits (R694) -/

/-- Does a value lie in the range of the limit at an offset, beside its exact complement? None where the offset holds no limit. -/
def hdgLimitOk (off : Nat) (value : BitVec 32) : Option Bool :=
  let v := bits value.toNat 0 16
  let whole := decide (v + bits value.toNat 16 16 = 65535)
  if off % 4 ≠ 0 then none
  else if HDG_ONMAX.word 0 ≤ off ∧ off ≤ HDG_ONMAX.word 4 then some (whole && decide (10 ≤ v ∧ v ≤ 2000))
  else if off = HDG_DUTY.word then some (whole && decide (10 ≤ v ∧ v ≤ 90))
  else if HDG_IL_MAP.word 0 ≤ off ∧ off ≤ HDG_IL_MAP.word 3 then some (decide (bits value.toNat 0 14 + bits value.toNat 16 14 = 16383))
  else if HDG_ST_CFG.word 0 ≤ off ∧ off ≤ HDG_ST_CFG.word 11 then some (whole && decide (1 ≤ v / 32) && decide (v % 32 ≤ 27))
  else none

/-- A write of a limit that Headgate judges: one that changes nothing is accepted without effect (R17); else it takes effect outside RUN, with its
complement, in range, or is refused. -/
def State.hdgLimit (s : State) (off : Nat) (value : BitVec 32) (ok : Bool) : State :=
  let v := if HDG_IL_MAP.word 0 ≤ off ∧ off ≤ HDG_IL_MAP.word 3 then value &&& 0x3FFF3FFF#32 else value
  if s.word off = v then s
  else if s.inRun || !ok then s.raise HDG_STATUS.CTRL_REFUSED
  else (s.setWord off v).hdgSync

/-- HDG_LIMIT_WRITE (R694): `off` is the BAR0 offset of HDG_ONMAX, HDG_DUTY, HDG_IL_MAP or HDG_ST_CFG. -/
def execHdgLimitWrite (off : Nat) (value : BitVec 32) (s : State) : Host.Outcome State Fault Refusal :=
  match hdgLimitOk off value with
  | none => .next s
  | some ok =>
    if s.poweredDown off then .next (s.darkWrite off value.toNat)
    else if HDG_ST_CFG.word 0 ≤ off ∧ !s.stationOn ((off - HDG_ST_CFG.word 0) / 4) then .next (s.reportAccess 0x09 0x04 2 0 off value.toNat)
    else .next (s.hdgLimit off value ok)

end Sys2Proof.Machine
end

