-- ==== Sys2Proof/Machine/Otp.lean ====
section
/-! DEFINITION. OTP operations, lifecycle, debug tokens and sessions, the TRNG (R632 to R661). -/
namespace Sys2Proof.Machine

/-- Lifecycle states (SEC_LC.STATE: the latch of R642). -/
abbrev lcBLANK : Nat := 0
abbrev lcSECURED : Nat := 1
abbrev lcFIELD : Nat := 2
abbrev lcRETURNED : Nat := 3

def State.lc (s : State) : Nat := s.f SEC_LC.STATE

/-- Reports of OTP and SEC, numbered by R668. -/
def State.otpReport (s : State) (cls cause row : Nat) : State := s.report 0x14 cls cause (row % 2048)
def State.secReport (s : State) (cls cause code : Nat) : State := s.report 0x15 cls cause (code % 16)

/-! ## The controller (R639 to R641) -/

/-- Bring BUSY and INTERNAL in line with the operation in progress. -/
def State.otpBusy (s : State) : State :=
  let own := match s.otp.op with | some (.thermo _ _ _) => true | some (.transition _) => true | _ => false
  (s.setB OTP_STATUS.BUSY s.otp.op.isSome).setB OTP_STATUS.INTERNAL own

/-- The operation ends; an internal burn or transition that waits begins (R641). -/
def State.otpNext (s : State) : State :=
  { s with otp := { s.otp with op := s.otp.queue.head?, code := 0, queue := s.otp.queue.drop 1 } }.otpBusy

/-- An internal burn or a transition: at once, or after the operation in progress; an OTP_CMD of the same round is ignored for it (R640, R641). -/
def State.otpInternal (s : State) (x : OtpOp) : State :=
  if s.otp.op.isSome ∧ s.roundOf 4 mkOtp ≠ [] then
    { s.raise OTP_STATUS.CTRL_REFUSED with otp := { s.otp with op := some x, code := 0 }, marks := s.marks.filter (fun m => m.what ≠ mkOtp) }.otpBusy
  else if s.otp.op.isSome then { s with otp := { s.otp with queue := s.otp.queue ++ [x] } }
  else { s with otp := { s.otp with op := some x, code := 0 } }.otpBusy

/-- Is programming refused for heat: HOT above 105 °C (R640)? -/
def State.otpHot (s : State) : Bool := decide (1050 < s.fi THM_STATUS.HOT)

/-- May SET_P reach a row in the lifecycle state (R637)? -/
def State.setPOk (s : State) (r : Nat) : Bool :=
  if r < 384 then s.lc = lcBLANK else if r < 496 then false else if r < 624 then s.lc ≠ lcRETURNED else false

/-- May WRITE_S reach a word (R633, R639)? -/
def State.writeSOk (s : State) (w : Nat) : Bool := s.lc = lcBLANK && (w = 0 || w = 4 || decide (8 ≤ w ∧ w ≤ 19))

/-- The code that an operation is bound to end with: 0 where it runs; 1 STATE, 2 WRITTEN, 4 TEMP (R632, R639, R640). -/
def State.otpCode (s : State) : OtpOp → Nat
  | .readS w => if w < 256 then 0 else 1
  | .writeS w _ => if !s.writeSOk w then 1 else if (s.otpWord w).written then 2 else if s.otpHot then 4 else 0
  | .setP r _ => if !s.setPOk r then 1 else if s.otpHot then 4 else 0
  | _ => 0

/-- An operation of the PF or of JTAG begins; while BUSY is 1 it is ignored (R640). -/
def State.otpStart (s : State) (x : OtpOp) : State :=
  if s.otp.op.isSome then s.raise OTP_STATUS.CTRL_REFUSED
  else ({ s with otp := { s.otp with op := some x, code := s.otpCode x } }.mark mkOtp 0).otpBusy

/-- OTP_CMD is written (R639, R670). -/
def State.otpCmd (s : State) (op addr : Nat) (data : BitVec 64) : State :=
  match op with
  | 1 => s.otpStart (.readS (addr % 2048))
  | 2 => s.otpStart (.writeS (addr % 2048) data)
  | 4 => s.otpStart (.setP (addr % 2048) (data.setWidth 32))
  | _ => s.raise OTP_STATUS.CTRL_REFUSED

/-- The data that OTP_DATA_LO and HI hold. -/
def State.otpData (s : State) : BitVec 64 := BitVec.ofNat 64 (s.get64 OTP_DATA_LO.word)

/-- A write of OTP_CMD over the host port. -/
def State.otpCmdWrite (s : State) (op addr : Nat) : State :=
  if s.poweredDown OTP_CMD.word then s.darkWrite OTP_CMD.word (op * 2 ^ 28 + addr % 2048) else s.otpCmd op addr s.otpData

/-- OTP_READ_S (R639). -/
def execOtpReadS (addr : Nat) (s : State) : Host.Outcome State Fault Refusal := .next (s.otpCmdWrite 1 addr)

/-- OTP_WRITE_S (R639). -/
def execOtpWriteS (addr : Nat) (s : State) : Host.Outcome State Fault Refusal := .next (s.otpCmdWrite 2 addr)

/-- OTP_SET_P (R635, R639). -/
def execOtpSetP (addr : Nat) (s : State) : Host.Outcome State Fault Refusal := .next (s.otpCmdWrite 4 addr)

/-- What READ_S of a word delivers: nothing of the keys and of reserved words (R633). -/
def otpVisible (w : Nat) : Bool := decide (w ≤ 4) || decide (8 ≤ w ∧ w ≤ 19) || decide (32 ≤ w ∧ w < 64)

/-- A read of a class S word meets `err`: 0 nothing, 1 a single-bit error, 2 a double-bit error, which leaves the word damaged (R632). A damaged
word's data is a free value. -/
def State.readWord (s : State) (w err : Nat) : State :=
  let x := s.otpWord w
  let e := max x.err err
  let s := if 2 ≤ e then (((s.setOtpWord w { x with err := 2 }).satInc OTP_ECC.UNCORR).otpReport 1 0x11 w)
    else if e = 1 then (s.satInc OTP_ECC.CORR).otpReport 1 0x10 w else s
  if !otpVisible w then s.set64 OTP_DATA_LO.word 0
  else if 2 ≤ e then (s.set64 OTP_DATA_LO.word s.free.toNat).drew
  else s.set64 OTP_DATA_LO.word x.data.toNat

/-- The lowest spare row that is not used (R636). -/
def State.freeSpare (s : State) : Option Nat :=
  (List.range 32).find? (fun k => decide (s.otp.spare.getD 0 k = 0) &&
    !(List.range 32).any (fun i => (s.otpWord (32 + i)).written && decide (bits (s.otpWord (32 + i)).data.toNat 16 5 = k)))

/-- The next free redirection word (R636). -/
def State.freeEntry (s : State) : Option Nat := ((List.range 32).map (· + 32)).find? (fun w => !(s.otpWord w).written)

/-- Set bits of a row, of which those of `bad` do not take; a row with a failed bit moves to a spare row. The code: 0, or 5 NO_SPARE (R635, R636). -/
def State.programRow (s : State) (r : Nat) (m bad : BitVec 32) : Nat × State :=
  let want := s.otpRow r ||| m
  let s := s.setOtpRow r (m &&& ~~~ bad)
  if s.otpRow r = want then (0, s)
  else
    let s := s.otpReport 0 0x13 r
    match s.freeSpare, s.freeEntry with
    | some k, some w =>
      let s := { s with otp := { s.otp with spare := s.otp.spare.set 0 k want } }
      let s := s.setOtpWord w { written := true, data := BitVec.ofNat 64 (r + k * 65536) }
      (0, (s.setWord (OTP_P_ROW.word r) want).otpReport 0 0x14 r)
    | _, _ => (5, s.otpReport 1 0x15 r)

/-- Advance a thermometer row by row (R638). -/
def State.programThermo (s : State) (base n count : Nat) (bad : BitVec 32) : Nat × State :=
  let c := s.thermo base n
  (List.range n).foldl (fun (a : Nat × State) i =>
    let m := (List.range 32).foldl (fun (x : Nat) j => if c ≤ 32 * i + j ∧ 32 * i + j < count then x + 2 ^ j else x) 0
    if m = 0 then a
    else
      let r := a.2.programRow (base + i) (BitVec.ofNat 32 m) bad
      (max a.1 r.1, r.2)) (0, s)

/-- OTP_OPERATION_DONE (R632, R635, R636, R638, R639): the operation ends. `bad` names fuses that did not take, `err` what the check of a word read
found. -/
def execOtpOperationDone (bad : BitVec 64) (err : Nat) (s : State) : Host.Outcome State Fault Refusal :=
  let ended := fun (r : Nat × State) => ((r.2.setF OTP_STATUS.CODE r.1).otpNext).otpShow
  match s.otp.op with
  | none => .next s
  | some (.transition _) => .next s
  | some (.thermo base n count) => .next (ended (s.programThermo base n count (bad.setWidth 32)))
  | some x =>
    if s.otp.code ≠ 0 then .next (ended (s.otp.code, s))
    else match x with
      | .readS w => .next (ended (0, s.readWord w err))
      | .writeS w d =>
        let failed := decide (d &&& bad ≠ 0#64)
        .next (ended (if failed then 3 else 0, s.setOtpWord w { written := true, data := d, err := if failed then 2 else 0 }))
      | .setP r m => .next (ended (s.programRow r m (bad.setWidth 32)))
      | _ => .next s

/-! ## Critical bits (R642) -/

/-- The fused variant comes into force: the registers keep what they read, in the canonical form of the new reset values. -/
def State.setVariant (s : State) (v : Variant) : State :=
  { s with variant := v, regs := s.regs.filter (fun e => decide (e.2 ≠ resetWord v e.1)),
           work := s.work.filter (fun e => decide (e.2 ≠ resetWord v e.1)) }

/-- The latches load: lifecycle, feature enables with FEAT_BAD, the sensor calibration. -/
def State.latchFuses (s : State) : State :=
  let s := ((s.setVariant s.featVariant).setF OTP_FEATURE.FEATURE s.feature).setF SEC_LC.STATE s.lifecycle
  let s := (List.range 32).foldl (fun (s : State) i => s.setWord (THM_CAL.word i) (s.otpRow (16 + i))) s
  if s.featBad && !s.b OTP_STATUS.FEAT_BAD then (s.setF OTP_STATUS.FEAT_BAD 1).otpReport 1 0x12 4 else s

/-! ## Lifecycle (R645 to R649) -/

/-- A lifecycle request that is not permitted, or carries another KEY, is ignored (R646). -/
def State.lcRefused (s : State) : State := s.raise SEC_STATUS.CTRL_REFUSED

/-- Words written and not damaged that SECURED asks for (R646). -/
def State.provisioned (s : State) : Bool :=
  ((0 :: 4 :: (List.range 12).map (· + 8))).all (fun w => (s.otpWord w).written && decide ((s.otpWord w).err ≠ 2))

/-- A request for SECURED (R646). -/
def State.askSecured (s : State) (key : Nat) : State :=
  if key = 0xA5 ∧ s.lc = lcBLANK ∧ s.provisioned ∧ ¬ s.b SEC_STATUS.TRNG_FAIL then s.otpInternal (.transition lcSECURED) else s.lcRefused

/-- A request for RETURNED (R646). -/
def State.askReturned (s : State) (key : Nat) : State :=
  if key = 0xA5 ∧ s.lc ≠ lcRETURNED ∧ (s.power = pwrREADY ∨ s.power = pwrSTANDBY ∨ s.power = pwrSLEEP) then s.otpInternal (.transition lcRETURNED)
  else s.lcRefused

/-- Any request, by the TARGET it names. -/
def State.lcRequest (s : State) (key target : Nat) : State :=
  if target = lcSECURED then s.askSecured key else if target = lcRETURNED then s.askReturned key else s.lcRefused

/-- LC_REQUEST_SECURED (R646, R647). -/
def execLcRequestSecured (key : Nat) (s : State) : Host.Outcome State Fault Refusal :=
  if s.poweredDown SEC_LC.word then .next (s.darkWrite SEC_LC.word (key % 256 * 2 ^ 24 + 2 ^ 16)) else .next (s.askSecured key)

/-- LC_REQUEST_RETURNED (R646, R648). -/
def execLcRequestReturned (key : Nat) (s : State) : Host.Outcome State Fault Refusal :=
  if s.poweredDown SEC_LC.word then .next (s.darkWrite SEC_LC.word (key % 256 * 2 ^ 24 + 3 * 2 ^ 16)) else .next (s.askReturned key)

/-- Set a lifecycle marker (R645). -/
def State.setMarker (s : State) (n : Nat) : State := s.setOtpWord n { written := true, data := BitVec.allOnes 64 }

/-- A transition is made: the marker, the latches, the session closes, a C0, the record (R642, R646, R701). -/
def State.lcDone (s : State) (target : Nat) : State :=
  let old := s.lc
  let s := ((s.setMarker target).latchFuses).closeSession 5
  (s.secReport 0 0x19 0).record 0x15 0x01 6 old s.lc 0

/-- Keys of the SECURED transition (R647): every word of 20 to 27 that is not written takes 64 bits of the TRNG: free values. -/
def State.writeKeys (s : State) : State :=
  ((List.range 8).map (· + 20)).foldl (fun (s : State) w =>
    if (s.otpWord w).written then s else (s.setOtpWord w { written := true, data := s.free }).drew) s

/-- Obliteration (R648): words 20 to 27 read all ones and fail their check; the spool falls. -/
def State.obliterate (s : State) : State :=
  let s := ((List.range 8).map (· + 20)).foldl (fun (s : State) w => s.setOtpWord w { written := true, data := BitVec.allOnes 64, err := 2 }) s
  if s.b SPL_CTRL.ENABLE then s.spoolOff else s

/-- Does the table of R646 hold the transition to `t` from the state in force? A request that waited may find another state. -/
def State.lcFrom (s : State) (t : Nat) : Bool :=
  if t = lcSECURED then s.lc = lcBLANK else if t = lcRETURNED then s.lc ≠ lcRETURNED else s.lc = lcSECURED

/-- LC_TRANSITION_DONE (R646 to R648): the transition in progress completes. `bad`: a key word did not verify. -/
def execLcTransitionDone (bad : Bool) (s : State) : Host.Outcome State Fault Refusal :=
  match s.otp.op with
  | some (.transition t) =>
    if !s.lcFrom t then .next s.lcRefused.otpNext
    else if t = lcSECURED then
      let s := s.writeKeys
      let damaged := bad || ((List.range 8).map (· + 20)).any (fun w => decide ((s.otpWord w).err = 2))
      if damaged then
        let s := if bad then s.setOtpWord 20 { s.otpWord 20 with err := 2 } else s
        .next (s.setF SEC_LC.DAMAGED 1).otpNext
      else .next (s.lcDone lcSECURED).otpNext
    else if t = lcRETURNED then .next (s.obliterate.lcDone lcRETURNED).otpNext
    else .next (s.lcDone lcFIELD).otpNext
  | _ => .next s

/-! ## Thermometers that software advances (R654, R659) -/

/-- SVN_COMMIT (R654). -/
def State.svnCommit (s : State) : State :=
  let n := s.f SEC_SVN.RUNNING
  if s.thermo rowsFirmware 32 < n then s.otpInternal (.thermo rowsFirmware 32 n) else s

def execSvnCommit (s : State) : Host.Outcome State Fault Refusal :=
  if s.poweredDown SEC_SVN_CTRL.word then .next (s.darkWrite SEC_SVN_CTRL.word 1) else .next s.svnCommit

/-- TOKEN_REVOKE (R659): the token thermometer advances to REVOKE_TO, 0 to 256. -/
def execTokenRevoke (count : Nat) (s : State) : Host.Outcome State Fault Refusal :=
  let off := SEC_TOKEN_EPOCH.word
  if s.poweredDown off then .next (s.darkWrite off (count * 65536))
  else if 256 < count then .next (s.reportAccess 0x15 0x05 2 0 off (count * 65536))
  else if s.thermo rowsToken 8 < count then .next (s.otpInternal (.thermo rowsToken 8 count))
  else .next s

/-! ## Challenges and tokens (R656 to R661) -/

/-- Draw a challenge (R656, R657): 32 bytes of the TRNG, free values; zeros while it is failed, or too soon after 8 refused tokens. -/
def State.drawChallenge (s : State) : State :=
  let soon := decide (8 ≤ s.sec.refused) && s.sec.chalAt.any (fun t => decide (s.now.toNat < t + 10000000000))
  if s.b SEC_STATUS.TRNG_FAIL || soon then
    { (List.range 8).foldl (fun (s : State) i => s.setWord (SEC_CHAL.word i) 0) s with sec := { s.sec with chal := none } }
  else
    let s1 := (List.range 4).foldl (fun (s : State) i => (s.set64 (SEC_CHAL.word (2 * i)) s.free.toNat).drew) s
    let b := (List.range 8).flatMap (fun i => leBytes 4 (s1.word (SEC_CHAL.word i)).toNat)
    { s1 with sec := { s.sec with chal := some b, chalAt := some s.now.toNat } }

/-- CHALLENGE_READ (R657): a read of SEC_CHAL[0] completes with the first word of the new challenge. -/
def execChallengeRead (s : State) : Host.Outcome State Fault Refusal :=
  let off := SEC_CHAL.word 0
  if s.poweredDown off then .next ((s.reportAccess 0x15 0x03 1 0 off 0).emit (.completion 0 0))
  else
    let s := s.drawChallenge
    .next (s.emit (.completion 0 (s.word off)))

/-- The token that SEC_TOKEN holds. -/
def State.tokenBytes (s : State) : List Byte := (List.range 68).flatMap (fun i => leBytes 4 (s.word (SEC_TOKEN.word i)).toNat)

/-- The value of a root hash: six words of class S, none where one is unwritten or damaged (R633, R643). -/
def State.hashWords (s : State) (w : Nat) : Option (List Byte) :=
  if (List.range 6).all (fun i => (s.otpWord (w + i)).written && decide ((s.otpWord (w + i)).err ≠ 2)) then
    some ((List.range 6).flatMap (fun i => leBytes 8 (s.otpWord (w + i)).data.toNat))
  else none

/-- The checks of R659 in their order: the code of the first failure, 0 where all pass. `clear`: for a clear of R705. -/
def State.tokenCode (s : State) (t : List Byte) (clear : Bool) : Nat :=
  let level := leAt t 5 1
  let life := leAt t 52 4
  if !s.awake then 8
  else if (level = 1 ∨ level = 2) ∧ s.lc ≠ lcFIELD then 7
  else if level = 3 ∧ s.lc ≠ lcSECURED then 7
  else if level = 4 ∧ s.lc ≠ lcSECURED ∧ s.lc ≠ lcFIELD then 7
  else if t.length ≠ 272 ∨ leAt t 0 4 ≠ 0x4E4B5444 ∨ leAt t 4 1 ≠ 1 ∨ leAt t 6 2 ≠ 0 ∨ leAt t 56 24 ≠ 0 ∨ life = 0 ∨ 86400 < life ∨
      ¬ (if clear then level = 4 else 1 ≤ level ∧ level ≤ 3) then 1
  else if leAt t 8 8 ≠ (s.otpWord 0).data.toNat ∨ (s.otpWord 0).err = 2 then 2
  else if !(decide (s.sec.chal = some ((t.drop 16).take 32)) && s.sec.chalAt.any (fun a => decide (s.now.toNat < a + 60000000000))) then 3
  else if leAt t 48 4 < s.thermo rowsToken 8 then 4
  else match signCode (s.hashWords 14) t with
    | 0 => 0
    | 1 => 5
    | _ => 6

/-- The challenge is spent; a refused token is counted and recorded (R659). -/
def State.tokenJudged (s : State) (code : Nat) : State :=
  let s := { s.setF SEC_DBG_STATUS.CODE code with sec := { s.sec with chal := none } }
  if code = 0 then s
  else { (s.satInc SEC_DBG_CNT.REFUSED).secReport 0 0x18 code with sec := { s.sec with refused := s.sec.refused + 1 } }

/-- A submission begins, unless one is being checked. -/
def State.submit (s : State) (t : List Byte) : State :=
  if s.sec.token.isSome then s.raise SEC_STATUS.CTRL_REFUSED
  else { s.setF SEC_DBG_STATUS.STATE 1 with sec := { s.sec with token := some t } }

/-- TOKEN_SUBMIT (R659): from SEC_TOKEN, or the bytes that object 0x5000:03 or SEC_MBX carried. -/
def execTokenSubmit (token : Option (List (BitVec 8))) (s : State) : Host.Outcome State Fault Refusal :=
  let off := SEC_DBG_CTRL.word
  if s.poweredDown off then .next (s.darkWrite off 1) else .next (s.submit (token.getD s.tokenBytes))

/-- Is a session open, with a level? -/
def State.sessionLevel (s : State) : Nat := s.f SEC_DBG_STATUS.LEVEL

/-- A session opens (R659): one already open closes as REPLACED. -/
def State.openSession (s : State) (level life : Nat) : State :=
  let s := if s.sessionLevel = 0 then s else (s.setF SEC_DBG_STATUS.STATE 2).closeSession 6
  let s := ((s.setF SEC_DBG_STATUS.STATE 2).setF SEC_DBG_STATUS.LEVEL level).setF SEC_DBG_STATUS.REMAIN_S (min 65535 life)
  { s.satInc SEC_DBG_CNT.OPENED with sec := { s.sec with opened := s.now.toNat, life := life } }

/-- TOKEN_CHECK_DONE (R659): the token in hand is judged. -/
def execTokenCheckDone (s : State) : Host.Outcome State Fault Refusal :=
  match s.sec.token with
  | none => .next s
  | some t =>
    let code := s.tokenCode t false
    let s := { s.setF SEC_DBG_STATUS.STATE (if s.sessionLevel = 0 then 0 else 2) with sec := { s.sec with token := none } }
    let s := s.tokenJudged code
    if code ≠ 0 then .next s
    else if leAt t 5 1 = 3 then .next (s.otpInternal (.transition lcFIELD))
    else .next (s.openSession (leAt t 5 1) (leAt t 52 4))

/-- SESSION_CLOSE (R661): CLOSE is written. -/
def execSessionClose (s : State) : Host.Outcome State Fault Refusal :=
  let off := SEC_DBG_CTRL.word
  if s.poweredDown off then .next (s.darkWrite off 2) else .next (s.closeSession 1)

/-- SESSION_EXPIRED (R661): LIFETIME has elapsed. -/
def execSessionExpired (s : State) : Host.Outcome State Fault Refusal :=
  if s.sessionLevel = 0 ∨ s.now.toNat < s.sec.opened + s.sec.life * 1000000000 then .next s else .next (s.closeSession 2)

/-- TRNG_HEALTH_FAIL (R656): a test fails; the 1 ms of passing output begins anew. -/
def execTrngHealthFail (s : State) : Host.Outcome State Fault Refusal :=
  let s : State := { s with sec := { s.sec with trngAt := some s.now.toNat } }
  if s.b SEC_STATUS.TRNG_FAIL then .next s else .next ((s.setF SEC_STATUS.TRNG_FAIL 1).secReport 1 0x17 0)

/-- TRNG_RECOVER (R656): 1 ms of passing output since the last failing test. -/
def execTrngRecover (s : State) : Host.Outcome State Fault Refusal :=
  if s.sec.trngAt.any (fun t => decide (s.now.toNat < t + 1000000)) then .next s else .next (s.setF SEC_STATUS.TRNG_FAIL 0)

end Sys2Proof.Machine
end

