-- ==== Sys2Proof/Machine/Records.lean ====
section
/-! DEFINITION. Event records and the record flash (R700 to R707): writing, reading, clearing, the scan at boot, calibration slots. -/
namespace Sys2Proof.Machine

/-- The 32 bytes of a record (R700). -/
def EvrRec.bytes (r : EvrRec) : List Byte :=
  let b := leBytes 4 r.seq.toNat ++ leBytes 1 r.cause ++ leBytes 1 r.master ++ leBytes 1 (r.severity % 8 + r.access % 16 * 8 + (if r.lastWords then 128 else 0)) ++
    leBytes 1 r.source ++ leBytes 4 r.opsec.toNat ++ leBytes 4 r.cycles.toNat ++ leBytes 4 r.p0.toNat ++ leBytes 4 r.p1.toNat ++ leBytes 4 r.p2.toNat
  b ++ leBytes 3 (crc24 b).toNat ++ [0xA5#8]

/-- The slot of a record. -/
def EvrRec.slot (r : EvrRec) : Nat := r.seq.toNat % 65536

/-- Is `a` newer than `b`, in modulo-2^32 order? -/
def EvrRec.newer (a b : EvrRec) : Bool := decide (a.seq ≠ b.seq) && decide ((a.seq - b.seq).toNat < 2 ^ 31)

def State.setEvr (s : State) (e : Evr) : State := { s with evr := e }

/-- FLUSHING: records of the mirror await flash. -/
def State.flushing (s : State) : State := s.setB EVR_STATUS.FLUSHING (decide (0 < s.evr.unwritten))

/-- Erase the sector of 128 slots that begins at `slot`: EVR_OLDEST moves past the records that were there. -/
def State.eraseSector (s : State) (slot : Nat) (seq : BitVec 32) : State :=
  let age := (seq - BitVec.ofNat 32 (s.f EVR_OLDEST.SEQ)).toNat
  let s := s.setEvr { s.evr with flash := s.evr.flash.clearRange slot (slot + 128), badSlots := s.evr.badSlots.filter (fun k => decide (k < slot ∨ slot + 128 ≤ k)) }
  if 65408 < age ∧ age ≤ 65536 then s.setF EVR_OLDEST.SEQ ((seq + 128#32 - 65536#32).toNat) else s

/-- RECORD_FLASH_WRITE (R702): the oldest record of the mirror that is not in flash goes to its slot; `ok` false: the program or erase failed three
times. -/
def execRecordFlashWrite (ok : Bool) (s : State) : Host.Outcome State Fault Refusal :=
  if s.b EVR_STATUS.NOR_FAIL || s.b EVR_STATUS.CLEARING then .next s
  else match (s.evr.mirror.drop (s.evr.mirror.length - s.evr.unwritten)).head? with
    | none => .next s
    | some r =>
      if !ok then .next ((s.setF EVR_STATUS.NOR_FAIL 1).report 0x17 1 0x0F)
      else
        let s := if r.slot % 128 = 0 then s.eraseSector r.slot r.seq else s
        let e := s.evr
        .next (s.setEvr { e with flash := e.flash.put r.slot r, badSlots := e.badSlots.filter (fun k => k ≠ r.slot), unwritten := e.unwritten - 1 }).flushing

/-- Put the 32 bytes of a read into EVR_RD_DATA. -/
def State.showRecord (s : State) (b : List Byte) : State :=
  (List.range 8).foldl (fun (s : State) i => s.setWord (EVR_RD_DATA.word i) (BitVec.ofNat 32 (leAt b (4 * i) 4))) s

/-- A read that finds no record: what EVR_RD_DATA then holds is a free value. -/
def State.showNoRecord (s : State) : State :=
  (List.range 4).foldl (fun (s : State) i => (s.set64 (EVR_RD_DATA.word (2 * i)) s.free.toNat).drew) s

/-- Select a record (R704). -/
def State.readRecord (s : State) (seq : BitVec 32) : State :=
  let old := BitVec.ofNat 32 (s.f EVR_OLDEST.SEQ)
  let s := s.setWord EVR_RD_SEQ.word seq
  let found := fun (s : State) (gone bad : Bool) => ((s.setF EVR_RD_STATUS.READY 1).setB EVR_RD_STATUS.GONE gone).setB EVR_RD_STATUS.BAD bad
  if (s.evr.next - old).toNat ≤ (seq - old).toNat then (found s true false).showNoRecord
  else match s.evr.mirror.find? (fun r => r.seq = seq) with
    | some r => (found s false false).showRecord r.bytes
    | none =>
      match s.evr.flash.get? (seq.toNat % 65536) with
      | some r => if r.seq = seq then (found s false false).showRecord r.bytes else (found s true false).showNoRecord
      | none => (found s false true).showNoRecord

/-- RECORD_READ (R704). -/
def execRecordRead (seq : BitVec 32) (s : State) : Host.Outcome State Fault Refusal :=
  if s.poweredDown EVR_RD_SEQ.word then .next (s.darkWrite EVR_RD_SEQ.word seq.toNat) else .next (s.readRecord seq)

/-- A clear is accepted (R705): the CLEARED record stands in its sector, erased first; the older records are out of the ring. -/
def State.startClear (s : State) (epoch : Nat) : State :=
  let old := s.f EVR_OLDEST.SEQ
  let newest := s.f EVR_NEWEST.SEQ
  let s := s.setEvr { s.evr with mirror := [], unwritten := 0 }
  let seq := s.evr.next
  let s := s.record 0x17 0x04 6 old newest epoch
  let lo := seq.toNat % 65536 / 128 * 128
  let flash := s.evr.flash.clearRange lo (lo + 128)
  let s := s.setEvr { s.evr with flash := (s.evr.mirror.head?.map (fun r => flash.put r.slot r)).getD flash, unwritten := 0,
                                 badSlots := s.evr.badSlots.filter (fun k => decide (k < lo ∨ lo + 128 ≤ k)) }
  ((s.setF EVR_OLDEST.SEQ seq.toNat).setF EVR_STATUS.CLEARING 1).flushing

/-- A clear is asked for with a token (R705): accepted or not, and the state. -/
def State.askClear (s : State) (token : List Byte) : Bool × State :=
  let refused := fun (s : State) => (false, s.raise EVR_STATUS.CTRL_REFUSED)
  if s.b EVR_STATUS.CLEARING then refused s
  else if s.lc = lcBLANK ∨ s.lc = lcRETURNED then (true, s.startClear 0xFFFFFFFF)
  else
    let code := s.tokenCode token true
    let s := s.tokenJudged code
    if code ≠ 0 then refused s else (true, s.startClear (leAt token 48 4))

/-- RECORD_CLEAR (R705): EVR_CLEAR is written; the token is the one that SEC_TOKEN holds. -/
def execRecordClear (value : BitVec 32) (s : State) : Host.Outcome State Fault Refusal :=
  if s.poweredDown EVR_CLEAR.word then .next (s.darkWrite EVR_CLEAR.word value.toNat)
  else if bits value.toNat 8 8 ≠ 0xC1 ∨ !bit value.toNat 0 then .next s
  else .next (s.askClear s.tokenBytes).2

/-- What is left when every sector but that of a CLEARED record is erased. -/
def State.clearSectors (s : State) (seq : Nat) : State :=
  let lo := seq % 65536 / 128 * 128
  s.setEvr { s.evr with flash := s.evr.flash.filter (fun e => decide (lo ≤ e.1 ∧ e.1 < lo + 128)), badSlots := s.evr.badSlots.filter (fun k => decide (lo ≤ k ∧ k < lo + 128)) }

/-- RECORD_CLEAR_DONE (R705). -/
def execRecordClearDone (s : State) : Host.Outcome State Fault Refusal :=
  if s.b EVR_STATUS.CLEARING then .next (((s.clearSectors (s.f EVR_OLDEST.SEQ)).setF EVR_STATUS.CLEARING 0).flushing) else .next s

/-- The scan at boot (R703); with an empty ring the next SEQ, OPSEC and CYCLES are 0. -/
def State.scanRing (s : State) : State :=
  let recs := s.evr.flash.map (fun e => e.2)
  let s := s.setEvr { s.evr with mirror := [], unwritten := 0 }
  match recs with
  | [] => (((s.setEvr { s.evr with next := 0 }).setF EVR_NEWEST.SEQ (2 ^ 32 - 1)).setF EVR_OLDEST.SEQ 0).flushing
  | r :: t =>
    let newest := t.foldl (fun (a : EvrRec) x => if x.newer a then x else a) r
    let oldest := t.foldl (fun (a : EvrRec) x => if a.newer x then x else a) r
    let cleared := (recs.filter (fun x => decide (x.source = 0x17) && decide (x.cause = 0x04))).foldl (fun (a : Option EvrRec) x =>
      some (match a with | some y => if x.newer y then x else y | none => x)) none
    let s := s.satInc EVR_CNT.BAD s.evr.badSlots.length
    let s := match cleared with
      | some c => s.setEvr { s.evr with flash := s.evr.flash.filter (fun e => !(c.newer e.2) || decide (e.1 / 128 = c.slot / 128)) }
      | none => s
    let s := (s.setF EVR_NEWEST.SEQ newest.seq.toNat).setF EVR_OLDEST.SEQ ((cleared.getD oldest).seq.toNat)
    let s := (s.setWord EVR_OPSEC.word newest.opsec).setWord EVR_CYCLES.word (newest.cycles + 1)
    (s.setEvr { s.evr with next := newest.seq + 1 }).flushing

/-- Last-words records that are not flushed go to the ring, oldest first (R697). -/
def State.flushLastWords (s : State) : State :=
  let s := (s.evr.lastWords.filter (fun (x : EvrRec × Bool) => !x.2)).foldl (fun (s : State) x =>
    let r := x.1
    s.record r.source r.cause r.severity r.p0.toNat r.p1.toNat r.p2.toNat r.master r.access true) s
  { s with evr := { s.evr with lastWords := s.evr.lastWords.map (fun (x : EvrRec × Bool) => (x.1, true)) } }.setF EVR_STATUS.LW_PENDING 0

/-! ## Calibration slots (R706, R707, R709) -/

/-- The slot in force: the valid one with the higher SEQ; true for B. -/
def State.calSlot (s : State) : Option Bool :=
  match s.evr.slotA.valid, s.evr.slotB.valid with
  | true, true => some (decide (s.evr.slotA.seq.toNat < s.evr.slotB.seq.toNat))
  | true, false => some false
  | false, true => some true
  | false, false => none

def State.calOf (s : State) (b : Bool) : CalSlot := if b then s.evr.slotB else s.evr.slotA

/-- Show the slot in force. -/
def State.calShow (s : State) : State :=
  let s := (s.setB EVR_CAL_STATUS.BUSY (!s.evr.stores.isEmpty)).setB EVR_CAL_STATUS.VALID s.calSlot.isSome
  match s.calSlot with
  | some b => (s.setB EVR_CAL_STATUS.SLOT b).setWord EVR_CAL_SEQ.word (s.calOf b).seq
  | none => (s.setF EVR_CAL_STATUS.SLOT 0).setWord EVR_CAL_SEQ.word 0

/-- A store is asked for: it runs, or waits for the one that runs (R707). -/
def State.calStore (s : State) (payload : List Byte) : State := (s.setEvr { s.evr with stores := s.evr.stores ++ [payload] }).calShow

/-- The store in progress ends (R707): the slot not in force takes it, or is left invalid where it failed. -/
def State.calStored (s : State) (ok : Bool) : State :=
  match s.evr.stores with
  | [] => s
  | p :: rest =>
    let target := match s.calSlot with | some b => !b | none => false
    let seq := match s.calSlot with | some b => (s.calOf b).seq + 1 | none => 1
    let slot : CalSlot := { valid := ok, seq := if ok then seq else 0, data := if ok then p else [] }
    let e := { s.evr with stores := rest }
    let s := (s.setEvr (if target then { e with slotB := slot } else { e with slotA := slot })).calShow
    if ok then s.record 0x17 0x05 6 (if target then 1 else 0) seq.toNat p.length else s

/-- Split a payload into its entries: object, subindex, data; none where the lengths do not tile it (R706, R708). -/
def calEntries : Nat → List Byte → Option (List (Nat × Nat × List Byte))
  | _, [] => some []
  | 0, _ => none
  | n + 1, b =>
    let len := leAt b 4 4
    let size := 8 + (len + 3) / 4 * 4
    if b.length < size then none
    else (calEntries n (b.drop size)).map (fun t => (leAt b 0 2, leAt b 2 1, (b.drop 8).take len) :: t)

end Sys2Proof.Machine
end

