-- ==== Sys2Proof/Machine/Ring.lean ====
section
/-! DEFINITION. The Culvert ring (R542 to R555, R561 to R565, R569): bring-up, path delays, timebase, status, folds and splits. -/
namespace Sys2Proof.Machine

/-! ## Controls (R542, R548, R565, R571) -/

/-- CUL_ENABLE (R542, R548, R571): ENABLE joins the ring, and training starts; 0 is ignored in RUN. -/
def execCulEnable (on : Bool) (s : State) : Host.Outcome State Fault Refusal :=
  if s.poweredDown CUL_CTRL.word then .next (s.darkWrite CUL_CTRL.word (if on then 1 else 0))
  else if s.b CUL_CTRL.ENABLE = on then .next s
  else if on then .next (s.setF CUL_CTRL.ENABLE 1).ringStart
  else if s.inRun then .next s
  else
    let s := s.ringStop.setF CUL_CTRL.ENABLE 0
    .next ((((s.setF CUL_STATUS.INDEX 15).setF CUL_MEMBERS.PRESENT 0).setF CUL_MEMBERS.ABSENT 0).setF CUL_MEMBERS.FOLD_AT 15)

/-- CUL_RESTART (R548): bring-up starts again on the master, outside RUN. -/
def execCulRestart (s : State) : Host.Outcome State Fault Refusal :=
  if s.poweredDown CUL_CTRL.word then .next (s.darkWrite CUL_CTRL.word 2)
  else if !s.b CUL_STATUS.MASTER || !s.b CUL_CTRL.ENABLE then .next s
  else if s.inRun then .next (s.raise CUL_STATUS.CTRL_REFUSED)
  else .next s.ringStart

/-- The unfold check (R565): when every wrapped port has been UP again for 100 ms, the master names a TIMEBASE SEQ at least 1 ms ahead. -/
def State.unfoldCheck (s : State) : State :=
  if !s.ringMaster || s.culState ≠ culFOLDED || (s.portState true = 3 && !s.cul.backE) || (s.portState false = 3 && !s.cul.backW) ||
    decide (s.now.toNat < s.cul.backAt + 100000000) then s
  else
    let q := (s.cul.tbSeq.getD 0 + 101) % 65536
    { s with cul := { s.cul with check := false, unfold := some q } }.culBroadcast 0x51 (leBytes 2 q ++ leBytes 6 0)

/-- CUL_UNFOLD (R565): on the master the unfold check starts at once. -/
def execCulUnfold (s : State) : Host.Outcome State Fault Refusal :=
  if s.poweredDown CUL_CTRL.word then .next (s.darkWrite CUL_CTRL.word 4)
  else if s.b CUL_STATUS.MASTER && s.b CUL_CTRL.ENABLE && s.culState = culFOLDED then .next { s with cul := { s.cul with check := true } }.unfoldCheck
  else .next s

/-! ## Folds and splits (R561 to R565) -/

/-- The link at a port: device d's link to device d + 1 (CUL_MEMBERS.FOLD_AT). -/
def State.linkAt (s : State) (dev : Nat) (east : Bool) : Nat :=
  let n := max 1 (s.f CUL_MEMBERS.N)
  if east then dev else (dev + n - 1) % n

/-- Send messages again, and count them (R562). -/
def State.culResend (s : State) (l : List (List Byte)) : State :=
  l.foldl (fun (s : State) m => (s.culOut true m).satInc CUL_ERR2.RESENT) s

/-- A device that hears of a fold sends its unanswered unicasts again; the master also its broadcasts of the last 100 µs (R562). -/
def State.foldResend (s : State) : State :=
  let t := s.now.toNat
  let recent := (s.cul.sent.filter (fun (x : Nat × List Byte) => decide (t ≤ x.1 + 100000))).map (fun x => x.2)
  s.culResend ((if s.b CUL_STATUS.MASTER then recent else []) ++ s.cul.owed)

/-- The ring splits at a second link (R564): the devices between the two links are absent. -/
def State.ringSplit (s : State) (d e : Nat) : State :=
  let lo := min d e
  let hi := max d e
  let lost := ((List.range 8).filter (fun k => decide (lo < k ∧ k ≤ hi))).foldl (fun (a : Nat) k => a + 2 ^ k) 0
  let s := (s.setF CUL_MEMBERS.ABSENT (s.f CUL_MEMBERS.ABSENT ||| lost)).satInc CUL_ERR.SPLITS
  (s.setCul culSPLIT).culReport (if s.inRun then 3 else 1) 0x12 (lo + 1)

/-- The master learns of a broken link (R562, R564). -/
def State.foldHeard (s : State) (d : Nat) : State :=
  let at' := s.f CUL_MEMBERS.FOLD_AT
  if s.culState = culSPLIT then s
  else if at' = 15 ∨ at' = d then ((s.setF CUL_MEMBERS.FOLD_AT d).setCul culFOLDED).foldResend
  else s.ringSplit at' d

/-- A fold is counted once on a device that wraps a port or hears of it (R561). -/
def State.countFold (s : State) (link : Nat) : State := if s.f CUL_MEMBERS.FOLD_AT = link then s else s.satInc CUL_ERR.FOLDS

/-- A port wraps (R561): FOLD goes out in place of IDLE, the device records a C1 and the master is told. -/
def State.wrapPort (s : State) (east : Bool) : State :=
  let me := s.culIndex
  let port := if east then 0 else 1
  let s := (s.setPortState east 3).emit (.culvert east [0xA5#8])
  let s := { s with cul := if east then { s.cul with backE := false } else { s.cul with backW := false } }
  let s := (s.countFold (s.linkAt me east)).culReport 1 0x11 me port
  let s := (if s.culState = culRING then s.setCul culFOLDED else s).pf 450
  if s.b CUL_STATUS.MASTER then s.foldHeard (s.linkAt me east)
  else (s.setF CUL_MEMBERS.FOLD_AT (s.linkAt me east)).culSend 0x50 0 (leBytes 1 me ++ leBytes 1 port)

/-- Lane locks of a port. -/
def State.setLanes (s : State) (east : Bool) (v : Nat) : State := if east then s.setF CUL_PORT_E.LANE_LOCK v else s.setF CUL_PORT_W.LANE_LOCK v

/-- CUL_PORT_UP (R544, R548 steps 1 and 2, R565). -/
def execCulPortUp (east : Bool) (s : State) : Host.Outcome State Fault Refusal :=
  if !s.culHears then .next s
  else
    let s := s.setLanes east 15
    if s.portState east = 3 then
      let c := { s.cul with backAt := s.now.toNat }
      .next { s with cul := if east then { c with backE := true } else { c with backW := true } }
    else
      let s := s.setPortState east 2
      .next (if s.culState = culTRAIN && s.portState true = 2 && s.portState false = 2 then s.setCul culINDEX else s)

/-- CUL_PORT_DOWN (R561, R564): a port of a running ring wraps; during bring-up it trains again. -/
def execCulPortDown (east : Bool) (lanes : BitVec 4) (s : State) : Host.Outcome State Fault Refusal :=
  if !s.culHears then .next s
  else
    let s := s.setLanes east lanes.toNat
    let st := s.culState
    if st = culRING ∨ st = culFOLDED ∨ st = culSPLIT then
      if s.portState east = 3 then .next { s with cul := if east then { s.cul with backE := false } else { s.cul with backW := false } }
      else .next (s.wrapPort east)
    else
      let s := (s.setPortState east 1).setF CUL_TB.LOCKED 0
      .next (if st = culCONFLICT then s else { s with cul := { s.cul with delay := none, heard := 0 } }.setCul culTRAIN)

/-- CUL_FOLD_RECEIVED (R561): a port that receives FOLD wraps in the same way. -/
def execCulFoldReceived (east : Bool) (s : State) : Host.Outcome State Fault Refusal :=
  if s.culHears && s.portState east = 2 && (s.culState = culRING || s.culState = culFOLDED || s.culState = culSPLIT) then .next (s.wrapPort east) else .next s

/-- CUL_FOLD_NOTICE (R561, R562): the master notes the link and sends again; a member that hears it pass is FOLDED and sends again what it is owed for. -/
def execCulFoldNotice (east : Bool) (msg : List (BitVec 8)) (s : State) : Host.Outcome State Fault Refusal :=
  let r := s.culTake 0x50 east msg
  let s := r.2
  let body := msgBody msg
  let link := s.linkAt (leAt body 0 1 % 16) (leAt body 1 1 = 0)
  if r.1 then .next ((if s.culState = culRING then s.countFold link else s).foldHeard link)
  else if s.culHears && msgOk msg && msgType msg = 0x50 && s.culState = culRING then
    .next (((s.countFold link).setF CUL_MEMBERS.FOLD_AT link).setCul culFOLDED).foldResend
  else .next s

/-- CUL_UNFOLD_CHECK (R565). -/
def execCulUnfoldCheck (s : State) : Host.Outcome State Fault Refusal := .next s.unfoldCheck

/-- CUL_UNFOLD_MSG (R565). -/
def execCulUnfoldMsg (east : Bool) (msg : List (BitVec 8)) (s : State) : Host.Outcome State Fault Refusal :=
  let r := s.culTake 0x51 east msg
  if r.1 then .next { r.2 with cul := { r.2.cul with unfold := some (leAt (msgBody msg) 0 2) } } else .next r.2

/-- Has TIMEBASE SEQ `q` been reached? -/
def State.seqReached (s : State) (q : Nat) : Bool := s.cul.tbSeq.any (fun x => decide ((x + 65536 - q) % 65536 < 32768))

/-- A wrapped port that is UP again unwraps. -/
def State.unwrapPort (s : State) (east : Bool) : State :=
  if s.portState east = 3 && (if east then s.cul.backE else s.cul.backW) then s.setPortState east 2 else s

/-- CUL_UNWRAP (R565): at the departure of the named TIMEBASE the wrapped ports unwrap. -/
def execCulUnwrap (s : State) : Host.Outcome State Fault Refusal :=
  match s.cul.unfold with
  | none => .next s
  | some q =>
    if !s.culHears || !s.seqReached q then .next s
    else
      let s := (({ s with cul := { s.cul with unfold := none } }).unwrapPort true).unwrapPort false
      .next (if s.culState = culFOLDED && s.portState true = 2 && s.portState false = 2 then (s.setF CUL_MEMBERS.FOLD_AT 15).setCul culRING else s)

/-! ## Indexing (R547, R548, R565) -/

/-- This device's entry of INDEX: the values of objects 0x2000:01 to 0x2000:03. -/
def State.indexEntry (s : State) : List Byte := leBytes 2 s.variant.code ++ leBytes 1 s.variant.stations ++ leBytes 1 s.variant.fastest

/-- The payload of INDEX. -/
def indexBody (count : Nat) (final : Bool) (table : List Byte) : List Byte :=
  leBytes 1 count ++ leBytes 1 (if final then 1 else 0) ++ leBytes 2 0 ++ (table ++ List.replicate 32 0#8).take 32

/-- The ring cannot come up (R547). -/
def State.culConflict (s : State) : State := if s.culState = culCONFLICT then s else (s.setCul culCONFLICT).culReport 1 0x10 s.culIndex

/-- Copy a completed table (R548 step 4, R11): CUL_DEV, CUL_MEMBERS and CUL_LINE. -/
def State.takeTable (s : State) (body : List Byte) : State :=
  let n := min 8 (leAt body 0 1)
  let s := (List.range 8).foldl (fun (s : State) d => s.setWord (CUL_DEV.word d) (if d < n then
    BitVec.ofNat 32 (leAt body (4 + 4 * d) 2 * 65536 + leAt body (6 + 4 * d) 1 * 256 + leAt body (7 + 4 * d) 1 % 8) else 0)) s
  let s := (((s.setF CUL_MEMBERS.N n).setF CUL_MEMBERS.PRESENT (2 ^ n - 1)).setF CUL_MEMBERS.ABSENT 0).setF CUL_MEMBERS.FOLD_AT 15
  let devs := List.range n
  let sum := devs.foldl (fun (a : Nat) d => a + s.f (CUL_DEV.STATIONS d)) 0
  let cls := ((List.range 5).filter (fun c => devs.all (fun d => decide (s.f (CUL_DEV.FASTEST d) ≤ c)))).foldl (fun (a : Nat) c => a + 2 ^ c) 0
  ((s.setF CUL_LINE.STATIONS sum).setF CUL_LINE.CLASSES cls).setCul culDELAY

/-- Ask for the path delay of the round in progress (R549). -/
def State.delayAsk (s : State) : State :=
  match s.cul.delay with
  | none => s
  | some d => ({ s with cul := { s.cul with delay := some { d with sent := s.now.toNat } } }).culSend 0x02 d.dev (leBytes 4 d.round ++ leBytes 4 0) d.east

/-- The master starts to measure; alone on its ring it goes on at once. -/
def State.delayStart (s : State) : State :=
  if s.f CUL_MEMBERS.N ≤ 1 then s.setCul culLOCKING else { s with cul := { s.cul with delay := some {} } }.delayAsk

/-- CUL_INDEX_SEND (R547, R548 step 3): the master takes index 0 and sends INDEX. -/
def execCulIndexSend (s : State) : Host.Outcome State Fault Refusal :=
  if !s.culHears || !s.b CUL_STATUS.MASTER || s.culState ≠ culINDEX then .next s
  else
    let s := s.setF CUL_STATUS.INDEX 0
    let (m, s) := s.culMake 0x01 15 (indexBody 1 false s.indexEntry)
    .next (s.culOut true m)

/-- Did this master send the INDEX that has come to it: its number is the last one sent and slot 0 holds its own entry? -/
def State.ownIndex (s : State) (m : List Byte) : Bool :=
  decide ((msgSeq m + 1) % 65536 = s.cul.seqs.getD 0 0x01) && ((msgBody m).drop 4).take 4 == s.indexEntry

/-- A member's turn at INDEX: it takes COUNT as its index unless eight are taken or it held another one; then the message passes unchanged, and its HOPS
tells the master. -/
def State.takeIndex (s : State) (east : Bool) (m : List Byte) : State :=
  let body := msgBody m
  let c := leAt body 0 1
  let held := if s.culIndex = 15 then s.cul.held else some s.culIndex
  if 8 ≤ c ∨ held.any (fun h => h ≠ c) then s.culForward east m
  else
    let s := ((s.setF CUL_STATUS.INDEX c).setF CUL_TB.LOCKED 0).setCul culINDEX
    s.culForward east (m.take 7 ++ leBytes 1 (c + 1) ++ (body.drop 1).take (3 + 4 * c) ++ s.indexEntry ++ body.drop (8 + 4 * c))

/-- CUL_INDEX (R547, R548, R565). -/
def execCulIndex (east : Bool) (msg : List (BitVec 8)) (s : State) : Host.Outcome State Fault Refusal :=
  let body := msgBody msg
  if !s.culHears || decide (7 ≤ msg.length ∧ msgType msg ≠ 0x01) then .next s
  else if !msgOk msg then .next (s.satInc CUL_ERR.BAD_MSG)
  else if s.b CUL_STATUS.MASTER then
    if !s.ownIndex msg then .next s.culConflict
    else if s.culState ≠ culINDEX || msgWrapped msg || leAt body 1 1 ≠ 0 then .next s
    else if msgHops msg + 1 ≠ leAt body 0 1 then .next s.culConflict
    else
      let s := s.takeTable body
      let (m, s) := s.culMake 0x01 15 (indexBody (leAt body 0 1) true ((body.drop 4).take 32))
      .next (s.culOut true m).delayStart
  else if s.culState = culCONFLICT || s.inRun then .next (s.culForward east msg)
  else if leAt body 1 1 = 0 then .next (s.takeIndex east msg)
  else .next ((if s.culState = culINDEX && decide (s.culIndex < leAt body 0 1) then s.takeTable body else s).culForward east msg)

/-! ## Path delays (R549) -/

/-- CUL_DELAY_REQ: answered in the opposite direction with the turn time. -/
def execCulDelayReq (east : Bool) (turn : Nat) (msg : List (BitVec 8)) (s : State) : Host.Outcome State Fault Refusal :=
  let r := s.culTake 0x02 east msg
  if r.1 then .next (r.2.culSend 0x03 (msgSrc msg) ((msgBody msg).take 4 ++ leBytes 4 turn) (!east)) else .next r.2

/-- The measurement after the one that is complete: the other direction, then the next device. -/
def CulDelay.next (d : CulDelay) (n : Nat) : Option CulDelay :=
  if d.east then some { dev := d.dev, east := false } else if d.dev + 1 < n then some { dev := d.dev + 1 } else none

/-- CUL_DELAY_RSP: after eight rounds the mean of (round trip − TURN) / 2 is the path delay. -/
def execCulDelayRsp (east : Bool) (msg : List (BitVec 8)) (s : State) : Host.Outcome State Fault Refusal :=
  let r := s.culTake 0x03 east msg
  let s := r.2
  let body := msgBody msg
  match s.cul.delay with
  | none => .next s
  | some d =>
    if !r.1 || s.culState ≠ culDELAY || msgSrc msg ≠ d.dev || leAt body 0 4 ≠ d.round then .next s
    else
      let sum := d.sum + (s.now.toNat - d.sent - leAt body 4 4)
      if d.round < 8 then .next { s with cul := { s.cul with delay := some { d with round := d.round + 1, sum := sum } } }.delayAsk
      else
        let ns := min (2 ^ 20 - 2) ((sum + 8) / 16)
        let s := if d.east then s.setF (CUL_DLY_E.NS d.dev) ns else s.setF (CUL_DLY_W.NS d.dev) ns
        match d.next (s.f CUL_MEMBERS.N) with
        | some d => .next { s with cul := { s.cul with delay := some d } }.delayAsk
        | none => .next ({ s with cul := { s.cul with delay := none } }.setCul culLOCKING)

/-! ## Timebase (R550 to R553, R569) -/

/-- Is the ring past its delays: LOCKING, RING, FOLDED or SPLIT? -/
def State.culLive (s : State) : Bool :=
  s.culHears && (s.culState = culLOCKING || s.culState = culRING || s.culState = culFOLDED || s.culState = culSPLIT)

/-- The payload of TIMEBASE (R550). -/
def State.timebaseBody (s : State) : List Byte :=
  let engine := if s.cul.ending.isSome then 2 else if s.inRun then 1 else 0
  leBytes 8 s.now.toNat ++ leBytes 8 (unsgn 64 (s.scn.pos / 4096)) ++ leBytes 4 (s.f SCN_WEB_SPEED.SPEED) ++ leBytes 4 s.webSet ++ leBytes 1 s.classNow ++
    leBytes 1 (s.f SCN_STATE.STATE) ++ leBytes 1 engine ++ leBytes 1 0 ++ leBytes 4 0

/-- CUL_TIMEBASE_SEND (R550, R569): both ways with one SEQ. -/
def execCulTimebaseSend (s : State) : Host.Outcome State Fault Refusal :=
  if !s.culLive || !s.b CUL_STATUS.MASTER then .next s
  else
    let s := s.syncSpeed
    let (m, s) := s.culMake 0x10 15 s.timebaseBody
    let cul := s.cul
    let s := { s with cul := { cul with tbSeq := some (msgSeq m), tbAt := s.now.toNat, ending := cul.ending.map (fun n => n + 1) } }
    .next ((s.culOut true m).culOut false m)

/-- The path delay from the master in a direction, as this member goes by it: no message of R567 brings the master's figure, so its value is free. -/
def State.culPath (s : State) (east : Bool) : Nat × State :=
  let k := if east then 0 else 1
  match s.cul.path.get? k with
  | some v => (v, s)
  | none =>
    let v := s.free.toNat % 2 ^ 20
    (v, { s.drew with cul := { s.drew.cul with path := s.drew.cul.path.put k v } })

/-- What a member does at the master's engine state and class (R553, R569): it runs the steps of R349 at the same messages as the master. A class faster
than its fuses permit is refused (R10): the class stays, and RUN is not entered at it. -/
def State.followMaster (s : State) (cls scnState engine : Nat) : State :=
  if engine = 2 then
    if s.power = pwrREADY && decide (powerDepth (s.f PWR_STATE.REQ) < powerDepth pwrSTANDBY) then s.setF PWR_STATE.REQ pwrSTANDBY else s
  else if engine = 0 then
    if s.inRun then (s.setF PWR_STATE.REQ pwrREADY).leaveRun else s
  else if engine ≠ 1 ∨ 4 < cls then s
  else if s.power = pwrREADY then
    if decide (powerDepth pwrREADY < powerDepth (s.f PWR_STATE.REQ)) then s
    else if !s.permits cls then s.setF SCN_STATE.REFUSE 1
    else match s.runRefusal with
      | some _ => s.noteRefusal
      | none => (s.setF PWR_STATE.REQ pwrRUN).enterRun cls
  else if !s.inRun then s
  else if !s.permits cls then s.setF SCN_STATE.REFUSE 1
  else
    let s := if scnState = 1 && (s.settled || s.classNow ≠ cls) then s.classStart cls else s
    if scnState = 2 && s.ramping && s.classNow = cls then s.settle else s

/-- The web line count of a member with SRC = 1: LINE, extrapolated at SPEED from TIME to this instant (R551). -/
def State.followWeb (s : State) (line : Nat) (speed : Int) (ns : Nat) : State :=
  if s.f SCN_WEB_CFG.SRC ≠ 1 then s
  else s.moveWeb (sgn 64 line * 4096 + speed * ns * 12 * 2 ^ 28 / (127 * 1000000000) - s.scn.pos)

/-- The offset of a member's timebase (R550, R552): outside RUN the timebase takes the master's time; in RUN it is steered there, and more than 500 ns is a C3. -/
def State.takeOffset (s : State) (off : Int) : State :=
  let far := decide (500 < off.natAbs)
  let s := s.setF CUL_TB.OFFSET (unsgn 16 (clamp (-32768) 32767 off))
  if !s.inRun then
    ({ s with now := BitVec.ofInt 64 (s.now.toNat + off), cul := { s.cul with steer := 0, steerAcc := 0 } }).setF CUL_TB.LOCKED 1
  else
    let s1 := { s with cul := { s.cul with steer := off } }
    let s1 := if far && s.b CUL_TB.LOCKED then s1.culReport 3 0x14 s.culIndex else s1
    s1.setB CUL_TB.LOCKED (!far)

/-- A member applies a TIMEBASE (R550, R551, R553). -/
def State.applyTimebase (s : State) (east : Bool) (m : List Byte) : State :=
  let b := msgBody m
  let seq := msgSeq m
  let missed := match s.cul.tbSeq with | some q => (seq + 65535 - q) % 65536 | none => 0
  let s := s.satInc CUL_ERR2.TB_MISS missed
  let (path, s) := s.culPath east
  let late := path + leAt b 28 4
  let off : Int := ((leAt b 0 8 + late : Nat) : Int) - s.now.toNat
  let s := (s.setF CUL_TB.DIR (if east then 0 else 1)).takeOffset off
  let speed := sgn 32 (leAt b 16 4)
  let s := { s with cul := { s.cul with tbSeq := some seq, tbAt := s.now.toNat, tbSpeed := speed } }
  let s := if s.culState = culDELAY then s.setCul culLOCKING else s
  let s := if s.culState = culLOCKING && s.b CUL_TB.LOCKED then s.setCul culRING else s
  let s := s.followWeb (leAt b 8 8) speed late
  let s := s.followMaster (leAt b 24 1) (leAt b 25 1) (leAt b 26 1)
  let sp := leAt b 20 4
  { s with scn := { s.scn with spFrom := sp, spTo := sp, spAt := s.now.toNat } }

/-- Has the SEQ of a TIMEBASE been applied, or passed? -/
def State.tbOld (s : State) (seq : Nat) : Bool := s.cul.tbSeq.any (fun q => decide (seq = q ∨ 32768 ≤ (seq + 65536 - q) % 65536))

/-- CUL_TIMEBASE (R546, R550 to R553): passed on with the time it waited; a member applies the first unturned copy of each SEQ. -/
def execCulTimebase (east : Bool) (wait : Nat) (msg : List (BitVec 8)) (s : State) : Host.Outcome State Fault Refusal :=
  if !s.culHears || decide (7 ≤ msg.length ∧ msgType msg ≠ 0x10) then .next s
  else if !msgOk msg then .next (s.satInc CUL_ERR.BAD_MSG)
  else if s.ownBack msg then .next s
  else
    let res := leAt msg 35 4
    let s := s.culForward east (msg.take 35 ++ leBytes 4 (res + wait) ++ msg.drop 39)
    if s.b CUL_STATUS.MASTER || msgWrapped msg || !(s.culLive || s.culState = culDELAY) || s.tbOld (msgSeq msg) then .next s
    else .next (s.applyTimebase east msg)

/-- CUL_TIMEBASE_LOST (R552): a C4 while the last SPEED exceeded 0.1 m/s; else a C1 and LOCKING. -/
def execCulTimebaseLost (s : State) : Host.Outcome State Fault Refusal :=
  if !s.culLive || s.b CUL_STATUS.MASTER || s.cul.tbSeq.isNone || decide (s.now.toNat < s.cul.tbAt + 30000) then .next s
  else
    let s := { s with cul := { s.cul with tbSeq := none } }.setF CUL_TB.LOCKED 0
    if 100000 < s.cul.tbSpeed.natAbs then .next (s.culReport 4 0x13 s.culIndex)
    else .next ((s.setCul culLOCKING).culReport 1 0x13 s.culIndex)

/-! ## Status and faults (R554, R555) -/

/-- CUL_STATUS_SEND (R548 step 7, R554, R568): a member with a locked timebase reports. -/
def execCulStatusSend (s : State) : Host.Outcome State Fault Refusal :=
  if !s.culLive || s.b CUL_STATUS.MASTER || !s.b CUL_TB.LOCKED then .next s
  else
    let flags := (if s.allLocked then 1 else 0) + (if s.stopActive then 2 else 0)
    .next (s.culSend 0x11 0 (leBytes 1 s.power ++ leBytes 1 flags ++ leBytes 1 (s.ownOrder.getD 7) ++ leBytes 1 0 ++ leBytes 2 (s.cul.tbSeq.getD 0) ++ leBytes 2 0))

/-- CUL_STATUS (R548 step 7, R554): when every member has reported, the ring is up. -/
def execCulStatus (east : Bool) (msg : List (BitVec 8)) (s : State) : Host.Outcome State Fault Refusal :=
  let r := s.culTake 0x11 east msg
  let s := r.2
  let b := msgBody msg
  let d := msgSrc msg
  if !r.1 || !s.culLive || !s.b CUL_STATUS.MASTER || decide (8 ≤ d) then .next s
  else
    let x : CulStat := { engine := leAt b 0 1, locked := bit (leAt b 1 1) 0, fault := bit (leAt b 1 1) 1, weir := leAt b 2 1 % 8 }
    let s := { s with cul := { s.cul with stats := s.cul.stats.set {} d x, heard := s.cul.heard ||| BitVec.ofNat 8 (2 ^ d) } }
    if s.culState = culLOCKING && s.culOthers.all (fun k => s.cul.heard.getLsbD k) then .next ((s.setF CUL_TB.LOCKED 1).setCul culRING) else .next s

/-- CUL_FAULT (R555): the same class, with the source device recorded. -/
def execCulFault (east : Bool) (msg : List (BitVec 8)) (s : State) : Host.Outcome State Fault Refusal :=
  let r := s.culTake 0x12 east msg
  let cls := leAt (msgBody msg) 1 1
  if r.1 && (cls = 3 || cls = 4) then .next (r.2.culReport cls 0x15 (leAt (msgBody msg) 0 1)) else .next r.2

/-- CUL_MESSAGE_FORWARD (R543 to R546, R567): a message that this device does not take: bad, its own, a duplicate, or for another device. -/
def execCulMessageForward (east : Bool) (good : Bool) (msg : List (BitVec 8)) (s : State) : Host.Outcome State Fault Refusal :=
  if !s.culHears then .next s
  else if !good || !msgOk msg then .next (s.satInc CUL_ERR.BAD_MSG)
  else if s.ownBack msg then .next s
  else
    let mine := msgDst msg = s.culIndex
    let fresh := (mine || msgDst msg = 15) && msgSrc msg ≠ s.culIndex && !s.cul.seen.contains (msgSrc msg, msgType msg, msgSeq msg)
    if mine || fresh then .next s else .next (s.culForward east msg)

end Sys2Proof.Machine
end

