-- ==== Sys2Proof/Machine/Xcal.lean ====
section
/-! DEFINITION. The cross-device calibration sweep (R436 to R438, R568). -/
namespace Sys2Proof.Machine

/-- XCAL_START (R436): on the master a sweep begins; anywhere else, during one, and for no pages the write is refused. -/
def execXcalStart (s : State) : Host.Outcome State Fault Refusal :=
  let pages := s.f INS_XCAL_CTRL.PAGES
  if s.poweredDown INS_XCAL_CTRL.word then .next (s.darkWrite INS_XCAL_CTRL.word 1)
  else if !s.ringMaster || s.cul.xrun || pages = 0 then .next (s.raise INS_STATUS.CTRL_REFUSED)
  else
    let side := s.f INS_XCAL_CTRL.SIDE
    let meas := s.f INS_XCAL_CTRL.MEAS
    let id := (s.cul.xsweep + 1) % 256
    let s := ((s.setF INS_XCAL_STATUS.STATE xcMEASURING).setF INS_XCAL_STATUS.STEPS 0).setF INS_XCAL_STATUS.ABSENT 0
    let s := { s with cul := { s.cul with xsweep := id, xrun := true, xmeas := meas, xpages := pages, xfeats := [], xheld := none },
                      ins := { s.ins with sweepSide := some side } }
    .next (s.culBroadcast 0x30 (leBytes 1 pages ++ leBytes 1 side ++ leBytes 1 meas ++ leBytes 1 id ++ leBytes 4 0))

/-- XCAL_ABORT (R438). -/
def execXcalAbort (s : State) : Host.Outcome State Fault Refusal :=
  if s.poweredDown INS_XCAL_CTRL.word then .next (s.darkWrite INS_XCAL_CTRL.word 2)
  else if s.b CUL_STATUS.MASTER then .next (s.xcalAbandon 0) else .next s

/-- The targets of a station, as the measurement of the sweep gives them: free values. -/
def State.xcalTargetsOf (s : State) : Nat → List (Nat × Option Nat × Option Nat) × State
  | 0 => ([], s)
  | n + 1 =>
    let r := s.xcalTargetsOf n
    let v := r.2.free.toNat
    let x := (n, if bit v 0 then some (v / 4 % 2 ^ 22) else none, if bit v 1 then some (v / 2 ^ 24 % 2 ^ 20) else none)
    (r.1 ++ [x], r.2.drew)

/-- One 16-byte entry of XCAL_TARGETS (R568). -/
def targetBytes (x : Nat × Option Nat × Option Nat) : List Byte :=
  leBytes 1 x.1 ++ leBytes 1 ((if x.2.1.isSome then 1 else 0) + (if x.2.2.isSome then 2 else 0)) ++ leBytes 2 0 ++
    leBytes 4 (x.2.1.getD 0) ++ leBytes 4 (x.2.2.getD 0) ++ leBytes 4 0

/-- Send a device the targets of its stations: one step (R437). -/
def State.xcalStep (s : State) (d : Nat) : State :=
  let n := min 12 (s.f (CUL_DEV.STATIONS d))
  let (l, s) := s.xcalTargetsOf n
  ({ s with cul := { s.cul with xstep := d } }).culSend 0x32 d
    (leBytes 1 s.cul.xsweep ++ leBytes 1 n ++ leBytes 6 0 ++ (l.map targetBytes).flatten) true true

/-- Adopt the targets held (R437): they replace the loop's for those items, and the steps of R427 carry them out. -/
def State.xcalAdopt (s : State) : State :=
  let side := s.ins.sweepSide.getD 0
  let put := fun (m : Store Int) (x : Nat × Option Nat × Option Nat) =>
    let m := match x.2.1 with | some v => m.put (corrKey side x.1 0 0) (v : Int) | none => m
    match x.2.2 with | some v => m.put (corrKey side x.1 3 0) (v : Int) | none => m
  let swept := (s.cul.xheld.getD []).foldl put s.ins.swept
  { s with ins := { s.ins with swept := swept, sweepSide := none }, cul := { s.cul with xrun := false, xheld := none, xfeats := [], xpages := 0 } }

/-- Every step is complete (R437): COMMIT. -/
def State.xcalFinish (s : State) : State :=
  let s := s.culBroadcast 0x34 (leBytes 8 s.cul.xsweep)
  (s.setF INS_XCAL_STATUS.STATE xcCOMMITTED).xcalAdopt

/-- The next step after device `d`, or the end. -/
def State.xcalNext (s : State) (l : List Nat) : State :=
  match l with
  | d :: _ => s.xcalStep d
  | [] => s.xcalFinish

/-- XCAL_COLLECT (R437): after the verdict of the last measured page, which a master that measures counts itself, the master takes its own targets and begins
with the lowest index. -/
def execXcalCollect (s : State) : Host.Outcome State Fault Refusal :=
  if !s.cul.xrun || !s.ringMaster || s.f INS_XCAL_STATUS.STATE ≠ xcMEASURING || (s.cul.xmeas = s.culIndex && s.cul.xpages ≠ 0) then .next s
  else
    let (own, s) := s.xcalTargetsOf s.variant.stations
    let s := { s with cul := { s.cul with xheld := some own } }.setF INS_XCAL_STATUS.STATE xcCOLLECTING
    .next (s.xcalNext s.culOthers)

/-- XCAL_STEP_TIMEOUT (R438): the step's device is absent, and so is every later one beyond the same break; the sweep is abandoned. -/
def execXcalStepTimeout (s : State) : Host.Outcome State Fault Refusal :=
  if !s.cul.xrun || !s.b CUL_STATUS.MASTER || s.f INS_XCAL_STATUS.STATE ≠ xcCOLLECTING then .next s
  else
    let cut := s.f CUL_MEMBERS.FOLD_AT
    let gone := (s.culOthers.filter (fun d => decide (d = s.cul.xstep ∨ (cut < s.cul.xstep ∧ s.cul.xstep < d)))).foldl (fun (a : Nat) d => a + 2 ^ d) 0
    .next ((s.culAnswered 0x32 s.cul.xstep).xcalAbandon gone)

/-- A member forgets a sweep. -/
def State.xcalForget (s : State) : State :=
  { s with cul := { s.cul with xrun := false, xheld := none, xfeats := [], xpages := 0 }, ins := { s.ins with sweepSide := none } }

/-- XCAL_TARGET_TIMEOUT (R438): neither COMMIT nor ABANDON came within 10 ms of the reply. -/
def execXcalTargetTimeout (s : State) : Host.Outcome State Fault Refusal :=
  if s.cul.xheld.isNone || s.b CUL_STATUS.MASTER then .next s else .next s.xcalForget

/-- XCAL_START_MSG (R436): the member begins to send its features, and its loop leaves offset and start delay of that side alone. -/
def execXcalStartMsg (east : Bool) (msg : List (BitVec 8)) (s : State) : Host.Outcome State Fault Refusal :=
  let r := s.culTake 0x30 east msg
  let s := r.2
  let b := msgBody msg
  if !r.1 then .next s
  else .next { s with cul := { s.cul with xsweep := leAt b 3 1, xrun := true, xmeas := leAt b 2 1, xpages := leAt b 0 1, xfeats := [], xheld := none },
                      ins := { s.ins with sweepSide := some (leAt b 1 1 % 2) } }

/-- XCAL_FEATURES (R436): the measuring device receives a feature list of the sweep in progress. -/
def execXcalFeatures (east : Bool) (msg : List (BitVec 8)) (s : State) : Host.Outcome State Fault Refusal :=
  let r := s.culTake 0x31 east msg
  let s := r.2
  if !r.1 || !s.cul.xrun || leAt (msgBody msg) 10 1 ≠ s.cul.xsweep then .next s
  else .next { s with cul := { s.cul with xfeats := s.cul.xfeats ++ [(msgSrc msg, msgBody msg)] } }

/-- The targets of an XCAL_TARGETS; none where one lies outside its register's range or names a station that is not enabled (R568). -/
def State.readTargets (s : State) (b : List Byte) : Option (List (Nat × Option Nat × Option Nat)) :=
  let entry := fun (i : Nat) =>
    let e := (b.drop (8 + 16 * i)).take 16
    let flags := leAt e 1 1
    (leAt e 0 1, if bit flags 0 then some (leAt e 4 4) else none, if bit flags 1 then some (leAt e 8 4) else none)
  let l := (List.range (leAt b 1 1)).map entry
  if leAt b 1 1 ≤ 12 && l.all (fun x => s.stationOn x.1 && decide (x.2.1.getD 0 < 2 ^ 22) && decide (x.2.2.getD 0 < 2 ^ 20)) then some l else none

/-- XCAL_TARGETS (R437, R568): held and answered; or refused. -/
def execXcalTargets (east : Bool) (msg : List (BitVec 8)) (s : State) : Host.Outcome State Fault Refusal :=
  let r := s.culTake 0x32 east msg
  let s := r.2
  let b := msgBody msg
  if !r.1 || !s.cul.xrun || leAt b 0 1 ≠ s.cul.xsweep then .next s
  else
    let l := s.readTargets b
    let s := { s with cul := { s.cul with xheld := l } }
    .next (s.culSend 0x33 (msgSrc msg) (leBytes 1 s.cul.xsweep ++ leBytes 1 ((l.map List.length).getD 0) ++ leBytes 1 (if l.isSome then 0 else 1) ++ leBytes 5 0) (!east))

/-- XCAL_REPLY (R437, R438, R568): the step is complete, or its device is absent. -/
def execXcalReply (east : Bool) (msg : List (BitVec 8)) (s : State) : Host.Outcome State Fault Refusal :=
  let r := s.culTake 0x33 east msg
  let s := r.2
  let b := msgBody msg
  let d := msgSrc msg
  if !r.1 || !s.cul.xrun || !s.b CUL_STATUS.MASTER || s.f INS_XCAL_STATUS.STATE ≠ xcCOLLECTING || d ≠ s.cul.xstep || leAt b 0 1 ≠ s.cul.xsweep then .next s
  else
    let s := s.culAnswered 0x32 d
    if leAt b 2 1 ≠ 0 then .next (s.xcalAbandon (2 ^ d))
    else .next ((s.setF INS_XCAL_STATUS.STEPS (s.f INS_XCAL_STATUS.STEPS + 1)).xcalNext (s.culOthers.filter (fun k => decide (d < k))))

/-- XCAL_COMMIT (R437): the sweep's targets are adopted. -/
def execXcalCommit (east : Bool) (msg : List (BitVec 8)) (s : State) : Host.Outcome State Fault Refusal :=
  let r := s.culTake 0x34 east msg
  if r.1 && r.2.cul.xrun && leAt (msgBody msg) 0 1 = r.2.cul.xsweep then .next r.2.xcalAdopt else .next r.2

/-- XCAL_ABANDON (R438): every target of the sweep is discarded. -/
def execXcalAbandon (east : Bool) (msg : List (BitVec 8)) (s : State) : Host.Outcome State Fault Refusal :=
  let r := s.culTake 0x35 east msg
  if r.1 && r.2.cul.xrun && leAt (msgBody msg) 0 1 = r.2.cul.xsweep then .next r.2.xcalForget else .next r.2

end Sys2Proof.Machine
end

