-- ==== Sys2Proof/Machine/Access.lean ====
section
/-! DEFINITION. Register accesses (R8, R14 to R17, R36 to R39, R102, R142): what a write of any BAR0 register does, field by field, whoever writes it:
a function, the dictionary server, the control cores or a debug session. -/
namespace Sys2Proof.Machine

/-- The state after an operation that always goes on. -/
def after (o : Host.Outcome State Fault Refusal) (s : State) : State :=
  match o with
  | .next t => t
  | _ => s

/-- A write as it reaches a register: who writes, the offset and source block that a report of it names, the BAR0 offset, the bits written and the bits
that the write covers (all 32 for a register write, one field for a dictionary object). -/
structure Wr where
  master : Nat
  addr   : Nat
  src    : Nat
  off    : Nat
  value  : BitVec 32
  mask   : BitVec 32 := 0xFFFFFFFF#32
  deriving DecidableEq, Repr

/-- Is a field part of the write? -/
def Wr.on (w : Wr) (x : Fld) : Bool := w.mask.getLsbD x.lo

/-- What the write gives a field. -/
def Wr.get (w : Wr) (x : Fld) : Nat := getField w.value x.lo x.w

/-- Is a control bit written 1? -/
def Wr.sets (w : Wr) (x : Fld) : Bool := w.on x && w.get x = 1

/-- The whole word as it would stand: bits the write does not cover keep their value. -/
def Wr.merged (w : Wr) (s : State) : BitVec 32 := (s.word w.off &&& ~~~ w.mask) ||| (w.value &&& w.mask)

/-- What a merged word holds in a field. -/
def Wr.would (w : Wr) (s : State) (x : Fld) : Nat := getField (w.merged s) x.lo x.w

/-- A refused write, recorded as a C0 event with a generic cause (R677); ACCESS 6 for the dictionary server. -/
def State.reject (s : State) (w : Wr) (cause : Nat) : State :=
  s.reportAccess w.src cause (if w.master = 0x10 then 6 else 2) w.master w.addr w.value.toNat

/-! ## Field by field (R17) -/

/-- The word while its fields are judged: was an RWO field closed, was a value out of range? -/
structure Judged where
  word   : Word
  closed : Bool := false
  bad    : Bool := false
  deriving DecidableEq, Repr

/-- One field of a write: `opened` says whether RWO fields take writes now, `take` whether a field (by its lowest bit) may hold a value. -/
def judgeField (w : Wr) (opened : Bool) (take : Nat → Nat → Bool) (j : Judged) (f : FieldRow) : Judged :=
  let v := getField w.value f.lo f.w
  let old := getField j.word f.lo f.w
  if f.acc = .w1c then { j with word := j.word &&& ~~~ (w.value &&& w.mask &&& putField 0 f.lo f.w (2 ^ f.w - 1)) }
  else if !w.mask.getLsbD f.lo then j
  else match f.acc with
    | .rw => if take f.lo v then { j with word := putField j.word f.lo f.w v } else { j with bad := true }
    | .rwo =>
      if old = v then j
      else if !opened then { j with closed := true }
      else if take f.lo v then { j with word := putField j.word f.lo f.w v } else { j with bad := true }
    | .w1s => { j with word := putField j.word f.lo f.w (old ||| v) }
    | .ro | .wo | .rc | .w1c => j

/-- Judge every field of a register. -/
def State.judgeWrite (s : State) (w : Wr) (r : RegRow) (opened : Bool) (take : Nat → Nat → Bool) : Judged :=
  r.fields.foldl (judgeField w opened take) { word := s.word w.off }

/-- Any value may be held. -/
def takeAll : Nat → Nat → Bool := fun _ _ => true

/-- A write that acts by the access codes alone. -/
def State.plain (s : State) (w : Wr) (r : RegRow) : State := s.setWord w.off (s.judgeWrite w r true takeAll).word

/-- A write whose fields take only some values; the others are ignored without a flag. -/
def State.ranged (s : State) (w : Wr) (r : RegRow) (opened : Bool) (take : Nat → Nat → Bool) : State :=
  s.setWord w.off (s.judgeWrite w r opened take).word

/-- A write whose ignored fields set a flag. -/
def State.flagged (s : State) (w : Wr) (r : RegRow) (flag : Fld) (opened : Bool) (take : Nat → Nat → Bool) : State :=
  let j := s.judgeWrite w r opened take
  let t := s.setWord w.off j.word
  if j.closed || j.bad then t.raise flag else t

/-- Does a write keep every field in its stated range? -/
def State.within (s : State) (w : Wr) (r : RegRow) (opened : Bool) (take : Nat → Nat → Bool) : Bool := !(s.judgeWrite w r opened take).bad

/-- A write that is ignored whole, with its flag, where it breaks a stated range (spec/10, spec/11, spec/17: the paragraph before the register table);
closed RWO fields are judged one by one (R17). -/
def State.bounded (s : State) (w : Wr) (r : RegRow) (flag : Fld) (opened : Bool) (take : Nat → Nat → Bool) : State :=
  if s.within w r opened take then s.flagged w r flag opened take else s.raise flag

/-- A write ignored whole, with its flag, where a condition on the whole word fails. -/
def State.whole (s : State) (w : Wr) (r : RegRow) (flag : Fld) (ok : Bool) : State := if ok then s.plain w r else s.raise flag

/-! ## HIF (R103 to R125, R142) -/

/-- HIF_Q_CTRL of a function's own view (R105, R119 to R122). -/
def State.wrQCtrl (s : State) (w : Wr) (fn : Nat) : State :=
  let e := w.get (HIF_Q_CTRL.ENABLE fn) = 1
  let s := if w.on (HIF_Q_CTRL.ENABLE fn) && (s.b (HIF_Q_CTRL.ENABLE fn) != e) then after (if e then execQEnable fn s else execQDisable fn s) s else s
  if w.sets (HIF_Q_CTRL.PAUSE fn) then after (execQPause fn s) s
  else if w.sets (HIF_Q_CTRL.RESUME fn) then after (execQResume fn s) s else s

/-- The queue block of a function (R103, R142). A refused write of a base or size register sets CTRL_REFUSED of HIF_Q_STATUS (DEDUCED, unsafe: R17 asks for
the owning block's error flag and R104 names none for these; assumption log 102). -/
def State.wrQueue (s : State) (w : Wr) (r : RegRow) (fn : Nat) : State :=
  let o := w.off % 0x100
  let pf := decide (1 ≤ fn) && decide (w.master ≠ fn)
  if pf then
    -- another's view of a VF's block: only PAUSE and RESUME act
    if o = 0x28 && w.sets (HIF_Q_CTRL.PAUSE fn) then after (execQPause fn s) s
    else if o = 0x28 && w.sets (HIF_Q_CTRL.RESUME fn) then after (execQResume fn s) s
    else s.reject w 0x05
  else if o = 0x0C then after (execSqDoorbell fn (w.get (HIF_SQ_TAIL.TAIL fn)) s) s
  else if o = 0x20 then after (execCqHeadWrite fn (w.get (HIF_CQ_HEAD.HEAD fn)) s) s
  else if o = 0x28 then s.wrQCtrl w fn
  else s.flagged w r (HIF_Q_STATUS.CTRL_REFUSED fn) (decide (s.qState fn = qDISABLED)) takeAll

/-- A word of a function's MSI-X table (R123, R125): clearing a mask bit sends what waits. -/
def State.wrMsix (s : State) (w : Wr) (fn : Nat) : State :=
  let i := (w.off - msixTable fn) / 4
  let unmask := decide (i % 4 = 3) && (s.word w.off).getLsbD 0 && !w.value.getLsbD 0
  if unmask then
    let s := s.setWord w.off (w.value ||| 1#32)
    after (execMsixUnmask fn (i / 4) s) s
  else s.setWord w.off w.value

def State.wrHif (s : State) (w : Wr) (r : RegRow) : State :=
  if w.off = HIF_MBX_TIMEOUT.word then s.ranged w r true (fun (_ v : Nat) => decide (1 ≤ v ∧ v ≤ 60000))
  else if 0x10000 ≤ w.off ∧ w.off < 0x11000 then s.wrQueue w r ((w.off - 0x10000) / 0x100)
  else if 0xE0000 ≤ w.off ∧ w.off < 0xE8000 then s.wrMsix w 0
  else s.plain w r

/-! ## SIP (R145, R151, R160 to R173) -/

/-- Is an offset a ring register of a channel whose role is not HOST? It reads 0 and ignores writes (R180). -/
def State.ringless (s : State) (off : Nat) : Bool :=
  decide (0x110000 ≤ off ∧ off < 0x120000 ∧ off % 0x400 ≤ 0x10) && s.chRole ((off - 0x110000) / 0x400) ≠ 0

def State.wrChannel (s : State) (w : Wr) (r : RegRow) (ch : Nat) : State :=
  let o := w.off % 0x400
  if s.ringless w.off then s
  else if o = 0x0C then after (execChDoorbell ch (w.get (SIP_CH_TAIL.TAIL ch)) s) s
  else if o = 0x14 then
    let e := w.get (SIP_CH_CTRL.ENABLE ch) = 1
    let s := if w.on (SIP_CH_CTRL.ENABLE ch) && (s.b (SIP_CH_CTRL.ENABLE ch) != e || (e && s.chRole ch ≠ 0)) then
        after (if e then execChEnable ch s else execChDisable ch s) s else s
    if w.sets (SIP_CH_CTRL.ABORT ch) then after (execChAbort ch (w.sets (SIP_CH_CTRL.RESUME ch)) s) s
    else if w.sets (SIP_CH_CTRL.RESUME ch) then after (execChResume ch s) s else s
  else s.flagged w r (SIP_CH_STATE.CTRL_REFUSED ch) (decide (s.chState ch = chDISABLED)) takeAll

def State.wrSip (s : State) (w : Wr) (r : RegRow) : State :=
  if w.off = SIP_CTRL.word then s.ranged w r true (fun (_ v : Nat) => decide (v ≤ 50))
  else if 0x100100 ≤ w.off ∧ w.off < 0x100200 then after (execChAssignWrite ((w.off - 0x100100) / 4) (w.merged s) s) s
  else if 0x100200 ≤ w.off ∧ w.off < 0x100240 then after (execFnWinWrite ((w.off - 0x100200) / 4) (w.merged s) s) s
  else if 0x110000 ≤ w.off then s.wrChannel w r ((w.off - 0x110000) / 0x400)
  else s.plain w r

/-! ## SPL (R182, R185 to R194, R206) -/

def State.wrSpl (s : State) (w : Wr) (r : RegRow) : State :=
  if w.off = SPL_CTRL.word then
    let e := w.get SPL_CTRL.ENABLE = 1
    let on := s.b SPL_CTRL.ENABLE
    let t := s.ranged w r (!on) (fun (lo _ : Nat) => decide (lo ≠ 0))
    if w.on SPL_CTRL.ENABLE && (on != e) then after (if e then execSpoolEnable t else execSpoolDisable t) t else t
  else if 0x200100 ≤ w.off ∧ w.off < 0x200140 then after (execSliceQuotaWrite ((w.off - 0x200100) / 4) false (w.merged s) s) s
  else if 0x200200 ≤ w.off ∧ w.off < 0x200240 then after (execSliceQuotaWrite ((w.off - 0x200200) / 4) true (w.merged s) s) s
  else if 0x210000 ≤ w.off ∧ w.off % 0x1000 = 0x18 then after (execSliceTrim ((w.off - 0x210000) / 0x1000) (w.value.toNat % 2 ^ 30) s) s
  else if 0x210000 ≤ w.off ∧ w.off % 0x1000 = 0x28 then after (execSliceEnum ((w.off - 0x210000) / 0x1000) (w.value.toNat % 2 ^ 21) s) s
  else s.plain w r

/-! ## KOR (R241 to R249) -/

/-- KOR_JOB_CTRL (R245): ABORT first, cancelling the others; GO before FLUSH, FLUSH before CLOSE. -/
def State.wrJobCtrl (s : State) (w : Wr) (j : Nat) : State :=
  let flush := w.sets (KOR_JOB_CTRL.FLUSH j)
  let close := w.sets (KOR_JOB_CTRL.CLOSE j)
  if w.sets (KOR_JOB_CTRL.ABORT j) then after (execKorJobAbort j s) s
  else if w.sets (KOR_JOB_CTRL.GO j) then after (execKorJobGo j flush close s) s
  else if flush then after (execKorJobFlush j close s) s
  else if close then after (execKorJobClose j s) s else s

def State.wrKor (s : State) (w : Wr) (r : RegRow) : State :=
  if w.off = KOR_CTRL.word then s.ranged w r true (fun (_ v : Nat) => decide (v ≤ 3))
  else if 0x310000 ≤ w.off then
    let j := (w.off - 0x310000) / 0x100
    let o := w.off % 0x100
    let st := s.jobState j
    if 6 ≤ j then s.reject w 0x05
    else if o = 0x1C then s.wrJobCtrl w j
    else if o = 0x10 && st = jobWAITING then
      if decide (s.jobLen j < (w.merged s).toNat) then s.plain w r else s.jobRefused j
    else s.flagged w r (KOR_JOB_STATUS.CTRL_REFUSED j) (st = jobIDLE || st = jobDONE) takeAll
  else s.plain w r

/-! ## CMP (R263, R266) -/

def State.wrCmp (s : State) (w : Wr) (r : RegRow) : State :=
  if 0x400100 ≤ w.off ∧ w.off < 0x400180 then
    let i := (w.off - 0x400100) / 8
    if w.off % 8 = 0 then
      let v := w.merged s
      after (if v.getLsbD 31 then execPinEnable i v s else execPinDisable i v s) s
    else
      let t := s.flagged w r CMP_STATUS.CTRL_REFUSED s.pinOpen (fun (_ v : Nat) => decide (1 ≤ v ∧ v ≤ 4096 ∧ s.f (CMP_PIN_ID.TILE i) + v ≤ 262144))
      let n := t.f (CMP_PIN_CNT.COUNT i)
      if n = s.f (CMP_PIN_CNT.COUNT i) then t else s.pinCount i n
  else s.plain w r

/-! ## FLM (R293, R299, R306, R307) -/

/-- Does a write of FLM_UPS name mode 3 for some tag? -/
def upsBad (v : BitVec 32) : Bool := (List.range 4).any (fun t => bits v.toNat (2 * t) 2 = 3)

def State.wrFlm (s : State) (w : Wr) (r : RegRow) : State :=
  let v := w.merged s
  if w.off = FLM_FREEBOARD.word then
    s.flagged w r FLM_STATUS.CTRL_REFUSED (s.power = pwrREADY || s.power = pwrSTANDBY || s.power = pwrSLEEP) (fun (_ v : Nat) => decide (2 ≤ v))
  else if w.off = FLM_PRED_CFG.word then
    let g := bits v.toNat 16 16
    let m := bits v.toNat 0 16
    s.whole w r FLM_STATUS.CTRL_REFUSED (decide (100 ≤ g ∧ g ≤ 5000 ∧ 500 ≤ m ∧ m ≤ 10000))
  else if 0x801000 ≤ w.off ∧ w.off < 0x801100 ∧ w.off % 16 = 0 then
    if w.sets (FLM_SLICE_CTRL.UNFENCE ((w.off - 0x801000) / 16)) then after (execFlumeUnfence ((w.off - 0x801000) / 16) s) s else s
  else if 0x802000 ≤ w.off ∧ w.off < 0x802180 ∧ w.off % 32 = 0 then s.whole w r FLM_STATUS.CTRL_REFUSED (!upsBad v)
  else if (tableStation w.off).isSome then after (execStationTableWrite w.master w.off v s) s
  else s.plain w r

/-! ## SCN and CLK (R315 to R360) -/

/-- SCN_TRK was written outside RUN: the station takes the source named, one that fell back to the web only in READY (R319, R320). -/
def State.takeTrk (s : State) (st : Nat) : State :=
  let src := s.f (SCN_TRK.SRC st)
  if s.f (SCN_ST_STATE.TRK st) = 2 ∧ src = 1 ∧ s.power ≠ pwrREADY then s else s.setF (SCN_ST_STATE.TRK st) src

def State.wrScnStation (s : State) (w : Wr) (r : RegRow) (st : Nat) : State :=
  let o := w.off % 0x1000
  let v := w.merged s
  if o = 0 then after (execRouteWrite st v s) s
  else if o = 4 then after (execOffsetWrite st v s) s
  else if o = 8 then
    let t := s.ranged w r (!s.inRun) (fun (lo v : Nat) => if lo = 8 then decide (v ≤ 1) else if lo = 0 then decide (v ≤ 27) else true)
    if s.inRun then t else t.takeTrk st
  else if o = 0x0C then s.ranged w r (!s.inRun) (fun (_ v : Nat) => decide (v ≠ 0))
  else if o = 0x14 then
    let loss := bits v.toNat 16 16
    let win := bits v.toNat 0 16
    if 100 ≤ loss ∧ loss ≤ 500 ∧ 20 ≤ win ∧ win ≤ loss then s.plain w r else s
  else (s.plain w r).touch w.off

def State.wrPort (s : State) (w : Wr) (r : RegRow) (bl : Nat) : State :=
  if w.off % 0x100 = 0 then
    let e := w.get (SCN_BL_CTRL.ENABLE bl) = 1
    let on := s.b (SCN_BL_CTRL.ENABLE bl)
    let t := s.ranged w r (!on) (fun (lo _ : Nat) => decide (lo ≠ 0))
    let t := if w.on (SCN_BL_CTRL.ENABLE bl) && (on != e) then after (if e then execBlEnable bl t else execBlDisable bl t) t else t
    if w.sets (SCN_BL_CTRL.RETRAIN bl) then after (execBlRetrain bl t) t else t
  else s.plain w r

def State.wrScn (s : State) (w : Wr) (r : RegRow) : State :=
  let v := w.merged s
  if w.off = SCN_CTRL.word then
    let s := s.ranged w r true (fun (lo v : Nat) => if lo = 16 then decide (1 ≤ v ∧ v ≤ 64) else decide (lo ≠ 0 ∧ lo ≠ 7))
    let s := if w.on SCN_CTRL.HALF then after (execHalfAdvanceWrite w.master v s) s else s
    if w.on SCN_CTRL.CLASS then after (execClassRequest w.master v s) s else s
  else if w.off = SCN_RAMP.word then
    let t := bits v.toNat 16 16
    let rate := bits v.toNat 0 16
    if 1000 ≤ t ∧ t ≤ 30000 ∧ 100 ≤ rate ∧ rate ≤ 10000 then s.plain w r else s
  else if w.off = SCN_WEB_CFG.word then
    s.ranged w r (!s.inRun) (fun (lo v : Nat) => if lo = 24 then decide (v ≤ 1) else if lo = 16 then decide (v ≤ 5) else if lo = 0 then decide (v ≤ 27) else true)
  else if w.off = SCN_WEB_SCALE.word then s.ranged w r (!s.inRun) (fun (_ v : Nat) => decide (v ≠ 0))
  else if 0xC10000 ≤ w.off ∧ w.off < 0xC1C000 then s.wrScnStation w r ((w.off - 0xC10000) / 0x1000)
  else if 0xC40000 ≤ w.off ∧ w.off < 0xC40C00 then s.wrPort w r ((w.off - 0xC40000) / 0x100)
  else s.plain w r

def State.wrClk (s : State) (w : Wr) (r : RegRow) : State :=
  if 0x2E10000 ≤ w.off ∧ w.off < 0x2E10200 ∧ w.off % 0x20 = 0x0C then
    let pll := (w.off - 0x2E10000) / 0x20
    if w.sets (CLK_PLL_CTRL.RELOCK pll) then after (execPllRelock pll s) s else s
  else s.plain w r

/-! ## EXP (R371 to R394) -/

/-- Is the head of a station identified (R386)? Settings are sent to it at once; to another they go at its identification. -/
def State.headKnown (s : State) (st : Nat) : Bool := s.f (EXP_HEAD_STATE.STATE st) = 2

/-- Send one head register. -/
def State.sendHead (s : State) (st addr : Nat) (v : BitVec 32) : State := if s.headKnown st then s.headWrite st 1 addr [v] else s

/-- The dead set was written (R376, R378, R383). -/
def State.deadWritten (s : State) (st : Nat) : State :=
  let s := if s.stationBusy st then s else (s.takeExposure st).coverFrom st s
  let s := s.deadChanged st
  if s.inRun || !s.headKnown st then s else s.sendCur st (s.wantCur st)

/-- EXP_WIN (R373): OFS takes no software write while AUTO is 1. -/
def State.wrWindow (s : State) (w : Wr) (r : RegRow) (st : Nat) : State :=
  let auto := s.b (EXP_WIN.AUTO st)
  let t := s.bounded w r EXP_STATUS.CTRL_REFUSED true (fun (lo v : Nat) => decide (lo ≠ 0 ∨ auto) || decide (v ≤ 8))
  if auto then t.setF (EXP_WIN.OFS st) (s.f (EXP_WIN.OFS st))
  else if t.f (EXP_WIN.OFS st) = s.f (EXP_WIN.OFS st) then t else t.askMove st

def State.wrExpStation (s : State) (w : Wr) (r : RegRow) (st : Nat) : State :=
  let o := w.off % 0x1000
  if o = 0 then s.wrWindow w r st
  else if o = 4 then
    let ok : Nat → Nat → Bool := fun lo v => if lo = 16 then decide (v ≤ 71) else if lo = 8 then decide (127 ≤ v) else true
    let t := s.bounded w r EXP_STATUS.CTRL_REFUSED true ok
    if s.within w r true ok then (t.sendHead st 0x100 (t.headCtrl st)).syncBdEmit st else t
  else if o = 8 then
    let ok : Nat → Nat → Bool := fun lo v => if lo = 16 then decide (1 ≤ v) else decide (50 ≤ v ∧ v ≤ 120)
    let t := s.bounded w r EXP_STATUS.CTRL_REFUSED true ok
    if s.within w r true ok then
      (t.sendHead st 0x108 (BitVec.ofNat 32 (t.monTgt st))).sendHead st 0x10C (BitVec.ofNat 32 (t.f (EXP_PWR.APC_RANGE st)))
    else t
  else if 0x20 ≤ o ∧ o < 0x2C then (s.plain w r).deadWritten st
  else if 0x30 ≤ o ∧ o < 0x38 then
    let t := (s.plain w r).touch w.off
    if t.stationBusy st then t else (t.takeExposure st).coverFrom st t
  else if 0x100 ≤ o ∧ o < 0x220 then
    (s.bounded w r EXP_STATUS.CTRL_REFUSED true (fun (_ v : Nat) => decide ((sgn 16 v).natAbs ≤ 500))).touch w.off
  else s.plain w r

def State.wrExp (s : State) (w : Wr) (r : RegRow) : State :=
  if w.off = EXP_MON_CFG.word then
    s.bounded w r EXP_STATUS.CTRL_REFUSED true (fun (lo v : Nat) => if lo = 16 then decide (5 ≤ v ∧ v ≤ 75) else decide (1 ≤ v ∧ v ≤ 1000))
  else if w.off = EXP_HALF.word then
    let t := s.bounded w r EXP_STATUS.CTRL_REFUSED (!s.inRun) (fun (_ v : Nat) => decide (25 ≤ v ∧ v ≤ 100))
    if t.b EXP_STATUS.HALF_ACTIVE then
      t.enabledStations.foldl (fun (t : State) st => t.sendHead st 0x108 (BitVec.ofNat 32 (t.monTgt st))) t
    else t
  else if 0x1010000 ≤ w.off then s.wrExpStation w r ((w.off - 0x1010000) / 0x1000)
  else s.plain w r

/-! ## HDG (R694) -/

def State.wrHdg (s : State) (w : Wr) (r : RegRow) : State :=
  if 0x1400010 ≤ w.off ∧ w.off < 0x1400070 then after (execHdgLimitWrite w.off (w.merged s) s) s else s.plain w r

/-! ## INS (R404 to R441) -/

/-- INS_CTRL (R404, R441): a side enabled starts to lock; a side disabled is DOWN. -/
def State.wrInsCtrl (s : State) (w : Wr) (r : RegRow) : State :=
  let v := w.merged s
  let t := s.plain w r
  (List.range 2).foldl (fun (t : State) side =>
    let on := v.getLsbD side
    if !s.sideOn side || (s.sideEnabled side == on) then t
    else if !on then t.insLinkDown side 0 0
    else if t.insRuns then t.setInsLink side 1 else t) t

/-- Thresholds of a side's registers (R413 to R428), by offset and lowest bit. -/
def insTake (o lo v : Nat) : Bool :=
  if o = 0 then decide (lo ≠ 16 ∨ v ≤ 1)
  else if o = 0x18 ∨ o = 0x1C ∨ o = 0x20 then decide (1 ≤ v)
  else if o = 0x2C ∧ lo = 20 then decide (1 ≤ v ∧ v ≤ 8) else true

def State.wrInsSide (s : State) (w : Wr) (r : RegRow) (side : Nat) : State :=
  let o := w.off % 0x10000
  if o = 0x38 then
    if !w.sets (INS_CAL_CTRL.GO side) then s
    else match w.get (INS_CAL_CTRL.OP side) with
      | 1 => after (execCalWhite side s) s
      | 2 => after (execCalChart side s) s
      | _ => s.raise INS_STATUS.CTRL_REFUSED
  else if o = 0x50 then after (execInsAck side (w.value.toNat % 65536) s) s
  else s.bounded w r INS_STATUS.CTRL_REFUSED true (insTake o)

def State.wrIns (s : State) (w : Wr) (r : RegRow) : State :=
  if w.off = INS_CTRL.word then s.wrInsCtrl w r
  else if w.off = INS_XCAL_CTRL.word then
    let ok : Nat → Nat → Bool := fun lo v => if lo = 16 then decide (1 ≤ v) else if lo = 8 then decide (v ≤ 7) else true
    let open' := s.within w r true ok
    let s := s.bounded w r INS_STATUS.CTRL_REFUSED true ok
    if !open' then s
    else if w.sets INS_XCAL_CTRL.ABORT then after (execXcalAbort s) s
    else if w.sets INS_XCAL_CTRL.START then after (execXcalStart s) s else s
  else if w.off = INS_AUDIT_CTRL.word then
    let s := s.plain w r
    if w.sets INS_AUDIT_CTRL.GO then after (execAuditExport s) s else s
  else if w.off = INS_AUDIT_DONE.word then s
  else if 0x1810000 ≤ w.off then s.wrInsSide w r ((w.off - 0x1810000) / 0x10000)
  else s.plain w r

/-! ## LPE (R445, R446, R463) -/

/-- What the RWO fields of a loop may hold; other values are ignored (R447, R458, R462, R469). -/
def lpTake (o lo v : Nat) : Bool :=
  if o = 0x08 then (if lo = 16 then decide (10 ≤ v ∧ v ≤ 1000) else if lo = 14 ∨ lo = 10 then decide (v ≤ 2) else true)
  else if o = 0x14 then (if lo = 28 then decide (v ≤ 2) else if lo = 8 then decide (1 ≤ v) else decide (v ≤ 27)) else true

/-- A write of a loop's RWO fields, judged by the state at the start of the round (R446). -/
def State.wrLoopField (s : State) (w : Wr) (r : RegRow) (lp : Nat) (take : Nat → Nat → Bool) : State :=
  let st := s.lpStart lp
  let j := s.judgeWrite w r (st = lpOFF || st = lpOPEN) take
  let t := s.setWord w.off j.word
  if j.closed then (t.raise (LPE_LP_STATUS.WR_ERR lp)).satInc LPE_WR_ERR.WRITE
  else if t.word w.off ≠ s.word w.off ∧ st = lpOPEN ∧ s.lpState lp = lpCLOSED then t.lpReclose lp else t

def State.wrLpe (s : State) (w : Wr) (r : RegRow) : State :=
  if 0x1C01000 ≤ w.off ∧ w.off < 0x1C01100 then
    let c := (w.off - 0x1C01000) / 8
    if s.b (LPE_PWM_DUTY.BOUND c) then s.satInc LPE_WR_ERR.WRITE
    else s.ranged w r true (fun (lo v : Nat) => decide (w.off % 8 ≠ 0 ∨ lo ≠ 16) || decide (v ≠ 0))
  else if 0x1C10000 ≤ w.off ∧ w.off < 0x1C14000 then
    let lp := (w.off - 0x1C10000) / 0x100
    let o := w.off % 0x100
    if o = 0 then
      match w.get (LPE_LP_CMD.CMD lp) with
      | 1 => after (execLoopOff lp s) s
      | 2 => after (execLoopOpen lp s) s
      | 3 => after (execLoopClose lp s) s
      | _ => s
    else s.wrLoopField w r lp (lpTake o)
  else if 0x1D00000 ≤ w.off then s.wrLoopField w r ((w.off - 0x1D00000) / 0x2000) takeAll
  else s.plain w r

/-! ## MOT (R473 to R499) -/

/-- MOT_AX_CMD (R479). -/
def State.wrAxCmd (s : State) (w : Wr) (ax : Nat) : State :=
  let arm := w.sets (MOT_AX_CMD.ARM ax)
  after (match w.get (MOT_AX_CMD.CMD ax) with
    | 1 => execAxEnable ax s | 2 => execAxDisable ax s | 3 => execAxMoveAbs ax arm s | 4 => execAxMoveRel ax arm s
    | 5 => execAxJogPos ax arm s | 6 => execAxJogNeg ax arm s | 7 => execAxStop ax s | 8 => execAxQstop ax s
    | 9 => execAxResume ax arm s | 10 => execAxSetpos ax s | 11 => execAxClear ax s | _ => .next s) s

/-- What the fields of an axis may hold; other values are ignored. -/
def axTake (o lo v : Nat) : Bool :=
  if o = 0x08 then (if lo = 21 then decide (v ≤ 27) else if lo = 18 then decide (v ≠ 3) else if lo = 12 then decide (v ≠ 7) else true)
  else if o = 0x44 ∨ o = 0x48 then decide (v ≠ 0)
  else if o = 0x50 ∧ lo = 8 then decide (2 ≤ v ∧ v ≤ 64 ∧ v % 2 = 0) else true

/-- The position and velocity registers of an axis that are read only. -/
def axReadOnly (o : Nat) : Bool := [0x28, 0x2C, 0x30, 0x34, 0x38, 0x4C, 0x64, 0x68].contains o

def State.wrMot (s : State) (w : Wr) (r : RegRow) : State :=
  if 0x2000100 ≤ w.off ∧ w.off ≤ 0x2000200 then
    s.flagged w r MOT_STATUS.CTRL_REFUSED (axisList.all (fun ax => s.axState ax = axDISABLED)) takeAll
  else if 0x2010000 ≤ w.off then
    let ax := (w.off - 0x2010000) / 0x100
    let o := w.off % 0x100
    if o = 0 then s.wrAxCmd w ax
    else if axReadOnly o then s
    else if o = 0x08 ∨ o = 0x44 then
      let j := s.judgeWrite w r (s.axState ax = axDISABLED) (axTake o)
      let t := s.setWord w.off j.word
      if j.closed then t.raise MOT_STATUS.CTRL_REFUSED else t
    else s.ranged w r true (axTake o)
  else s.plain w r

/-! ## LAT (R511 to R527) -/

def State.wrLatPort (s : State) (w : Wr) (r : RegRow) (p : Nat) : State :=
  let o := w.off % 0x1000
  if o = 0 then
    let e := w.get (LAT_PORT_CTRL.ENABLE p) = 1
    let s := if w.on (LAT_PORT_CTRL.ENABLE p) then after (if e then execLatPortEnable p s else execLatPortDisable p s) s else s
    if w.sets (LAT_PORT_CTRL.RESCAN p) then after (execLatRescan p s) s else s
  else if o = 4 then
    let j := s.judgeWrite w r (!s.b (LAT_PORT_CTRL.ENABLE p)) (fun (lo v : Nat) => decide (lo ≠ 16) || decide (25 ≤ v ∧ v ≤ 1000))
    let t := s.setWord w.off j.word
    if j.closed then t.raise LAT_STATUS.CTRL_REFUSED else t
  else if o = 0x18 then
    let t := s.ranged w r true (fun (lo v : Nat) => decide (lo ≠ 16) || decide (1 ≤ v ∧ v ≤ 128))
    if w.sets (LAT_MBX_CTRL.GO p) then t.latMbxGo p (t.f (LAT_MBX_CTRL.CMD p)) else t
  else s.plain w r

def State.wrFan (s : State) (w : Wr) (r : RegRow) (fc : Nat) : State :=
  let o := w.off % 16
  if o = 0 then s.ranged w r true (fun (lo v : Nat) => if lo = 28 then decide (v ≠ 3) else if lo = 16 then decide (1 ≤ v) else true)
  else if o = 4 then
    let s := if w.on (LAT_FAN_CTRL.DUTY fc) then after (execFanDutyWrite fc (BitVec.ofNat 16 (w.get (LAT_FAN_CTRL.DUTY fc))) s) s else s
    if w.sets (LAT_FAN_CTRL.CLEAR fc) then after (execFanClear fc s) s else s
  else s.plain w r

def State.wrLat (s : State) (w : Wr) (r : RegRow) : State :=
  if 0x2410000 ≤ w.off ∧ w.off < 0x2414000 then s.wrLatPort w r ((w.off - 0x2410000) / 0x1000)
  else if 0x2422000 ≤ w.off ∧ w.off < 0x2423000 then
    s.flagged w r LAT_STATUS.CTRL_REFUSED (!s.b (LAT_PORT_CTRL.ENABLE ((w.off - 0x2422000) / 0x400))) takeAll
  else if 0x2430000 ≤ w.off ∧ w.off < 0x2430080 then s.wrFan w r ((w.off - 0x2430000) / 16)
  else if 0x2500000 ≤ w.off then
    let d := w.off - 0x2500000
    after (execLatOimgWrite (d / 0x4000) (d % 0x4000 / 0x40) (d % 0x40 / 4) (w.merged s) s) s
  else s.plain w r

/-! ## TRN (R529 to R534) -/

def State.wrTask (s : State) (w : Wr) (r : RegRow) (tk : Nat) : State :=
  let o := w.off % 0x20
  if o = 0 then after (execTaskConfigWrite tk true (w.merged s) s) s
  else if o = 4 then after (execTaskConfigWrite tk false (w.merged s) s) s
  else if o = 8 then
    let t := s.plain w r
    if w.on (TRN_TK_STATE.ACK tk) then after (execTaskAck tk (w.get (TRN_TK_STATE.ACK tk)) t) t else t
  else s.plain w r

def State.wrTrn (s : State) (w : Wr) (r : RegRow) : State :=
  if w.off = TRN_SW.word then after (execSwEventRaise (BitVec.ofNat 8 (w.get TRN_SW.RAISE)) s) s
  else if 0x2600010 ≤ w.off ∧ w.off < 0x2600020 then
    let i := (w.off - 0x2600010) / 4
    let was := s.b (TRN_TIMER.EN i)
    let t := s.ranged w r true (fun (lo v : Nat) => decide (lo ≠ 0) || decide (1 ≤ v ∧ v ≤ 1000000))
    if !was && t.b (TRN_TIMER.EN i) then t.startTimer i else t
  else if 0x2600400 ≤ w.off ∧ w.off < 0x2600440 ∧ w.off % 8 = 4 then after (execWebCompareArm ((w.off - 0x2600400) / 8) (w.merged s) s) s
  else if 0x2600500 ≤ w.off ∧ w.off < 0x2600520 then
    let v := (w.merged s).toNat
    if s.outBound (bits v 20 2) (bits v 12 8) (bits v 6 6) then s.raise TRN_STATUS.CTRL_REFUSED
    else s.ranged w r true (fun (lo v : Nat) => decide (lo ≠ 24) || decide (1 ≤ v))
  else if 0x2610000 ≤ w.off then s.wrTask w r ((w.off - 0x2610000) / 0x20)
  else s.plain w r

/-! ## CUL and ECT (R542, R548, R565, R579, R587) -/

def State.wrCul (s : State) (w : Wr) (r : RegRow) : State :=
  if w.off = CUL_CTRL.word then
    let s := if w.on CUL_CTRL.ENABLE then after (execCulEnable (w.get CUL_CTRL.ENABLE = 1) s) s else s
    let s := if w.sets CUL_CTRL.RESTART then after (execCulRestart s) s else s
    if w.sets CUL_CTRL.UNFOLD then after (execCulUnfold s) s else s
  else s.plain w r

/-- ECT_CTRL (R579, R593): ENABLE 0 forces INIT and turns both links down; it is ignored while RxPDOs are assigned and the engine is in RUN. -/
def State.wrEctCtrl (s : State) (w : Wr) (r : RegRow) : State :=
  let s := s.ranged w r true (fun (lo _ : Nat) => decide (lo ≠ 0))
  let s := if s.b ECT_CTRL.PORT1_EN then s else s.linkTo ECT_STATUS.LINK1 false
  if !w.on ECT_CTRL.ENABLE then s
  else if w.get ECT_CTRL.ENABLE = 1 then s.setF ECT_CTRL.ENABLE 1
  else if s.inRun && s.rxAssigned then s
  else ((if s.alState = alINIT then s else s.alDrop alINIT 0).setF ECT_CTRL.ENABLE 0).linkTo ECT_STATUS.LINK0 false |>.linkTo ECT_STATUS.LINK1 false

def State.wrEct (s : State) (w : Wr) (r : RegRow) : State :=
  if w.off = ECT_CTRL.word then s.wrEctCtrl w r
  else if w.off = ECT_WAKE_HI.word then (s.plain w r).takeShadow ECT_WAKE_LO.word |>.takeShadow ECT_WAKE_HI.word
  else s.plain w r

/-! ## PWR and THM (R602 to R623) -/

def State.wrRail (s : State) (w : Wr) (r : RegRow) (k : Nat) : State :=
  let o := w.off % 0x20
  let v := (w.merged s).toNat
  if o = 4 && bit v k then s.raise PWR_STATUS.CTRL_REFUSED
  else if o = 8 then s.whole w r PWR_STATUS.CTRL_REFUSED (decide (bits v 0 16 ≤ bits v 16 16))
  else if o = 0x0C then s.whole w r PWR_STATUS.CTRL_REFUSED (decide (bits v 16 16 ≤ bits v 0 16))
  else s.flagged w r PWR_STATUS.CTRL_REFUSED (!s.railReq k) takeAll

def State.wrPwr (s : State) (w : Wr) (r : RegRow) : State :=
  let v := (w.merged s).toNat
  if w.off = PWR_STATE.word then
    let s := s.ranged w r true (fun (lo _ : Nat) => decide (lo ≠ 0))
    if w.on PWR_STATE.REQ then after (execPowerStateRequest (w.get PWR_STATE.REQ) s) s else s
  else if w.off = PWR_SEQ_CFG.word then
    s.bounded w r PWR_STATUS.CTRL_REFUSED s.seqOpen (fun (lo v : Nat) => decide (lo ≠ 16) || decide (100 ≤ v ∧ v ≤ 60000))
  else if w.off = PWR_AVS.word then
    let hi := bits v 11 11
    let lo := bits v 0 11
    s.whole w r PWR_STATUS.CTRL_REFUSED (decide (750 ≤ lo ∧ lo ≤ 950 ∧ lo ≤ hi ∧ hi ≤ 950))
  else if w.off = PWR_PMIC.word then s.flagged w r PWR_STATUS.CTRL_REFUSED (!s.pwr.pmbusUsed && !s.inRun) takeAll
  else if 0x2C00100 ≤ w.off ∧ w.off < 0x2C00200 then after (execSeqProgramWrite ((w.off - 0x2C00100) / 4) (w.merged s) s) s
  else if 0x2C10000 ≤ w.off ∧ w.off < 0x2C10400 then s.wrRail w r ((w.off - 0x2C10000) / 0x20)
  else s.plain w r

def State.wrThm (s : State) (w : Wr) (r : RegRow) : State :=
  let v := (w.merged s).toNat
  if w.off = THM_CFG.word then
    let h := bits v 16 8
    let c := bits v 8 8
    let a := bits v 0 8
    if 1 ≤ h ∧ h ≤ 20 ∧ 80 ≤ a ∧ a ≤ 110 ∧ a + 5 ≤ c ∧ c ≤ 120 then s.plain w r else s
  else if w.off = THM_GRACE.word then s.ranged w r true (fun (_ v : Nat) => decide (100 ≤ v ∧ v ≤ 30000))
  else s.plain w r

/-! ## OTP, SEC, FLT and EVR -/

def State.wrOtp (s : State) (w : Wr) (r : RegRow) : State :=
  if w.off = OTP_CMD.word then s.otpCmdWrite (w.get OTP_CMD.OP) (w.get OTP_CMD.ADDR) else s.plain w r

def State.wrSec (s : State) (w : Wr) (r : RegRow) : State :=
  if w.off = SEC_LC.word then s.lcRequest (w.get SEC_LC.KEY) (w.get SEC_LC.TARGET)
  else if w.off = SEC_SVN_CTRL.word then if w.sets SEC_SVN_CTRL.COMMIT then after (execSvnCommit s) s else s
  else if w.off = SEC_TOKEN_EPOCH.word then
    if 256 < w.get SEC_TOKEN_EPOCH.REVOKE_TO then s.reject w 0x05 else after (execTokenRevoke (w.get SEC_TOKEN_EPOCH.REVOKE_TO) s) s
  else if w.off = SEC_DBG_CTRL.word then
    let s := if w.sets SEC_DBG_CTRL.CLOSE then after (execSessionClose s) s else s
    if w.sets SEC_DBG_CTRL.SUBMIT then after (execTokenSubmit none s) s else s
  else s.plain w r

/-- What the FLT configuration registers may hold; a write with a value out of range is ignored whole (R711). -/
def fltOk (off v : Nat) : Bool :=
  if off = FLT_CTRL.word then decide (bits v 6 3 ≤ 4 ∧ bits v 3 3 ≤ 4)
  else if off = FLT_QUIET.word then decide (100 ≤ bits v 0 16 ∧ bits v 0 16 ≤ 60000)
  else if off = FLT_RECOV_CFG.word then decide (1 ≤ bits v 16 8 ∧ bits v 16 8 ≤ 15 ∧ 10 ≤ bits v 0 16 ∧ bits v 0 16 ≤ 3600)
  else if off = FLT_HB_CFG.word then decide (10 ≤ bits v 0 16 ∧ bits v 0 16 ≤ 1000) else true

def State.wrFlt (s : State) (w : Wr) (r : RegRow) : State :=
  if !fltOk w.off (w.merged s).toNat then s.reject w 0x05
  else if w.off = FLT_CTRL.word then
    let s := s.plain w r
    let s := if w.sets FLT_CTRL.REARM then after (execSumpRearm s) s else s
    if w.sets FLT_CTRL.RELEASE then after (execSumpRelease s) s else s
  else if w.off = FLT_HB.word then if w.sets FLT_HB.KICK then after (execHeartbeatKick s) s else s
  else if w.off = FLT_Q_POP.word then if w.sets FLT_Q_POP.POP then after (execSumpPop s) s else s
  else s.plain w r

/-- EVR (R704, R705). -/
def State.wrEvr (s : State) (w : Wr) (r : RegRow) : State :=
  if w.off = EVR_RD_SEQ.word then after (execRecordRead (w.merged s) s) s
  else if w.off = EVR_CLEAR.word then after (execRecordClear (w.value &&& w.mask) s) s
  else s.plain w r

/-! ## Every register -/

/-- Stations, sides and ports that the fuses disable (R8). -/
def State.absentAt (s : State) (off : Nat) : Bool :=
  if off < 0x800000 then false
  else if off < 0xC00000 then
    if 0x802000 ≤ off ∧ off < 0x802180 then !s.stationOn ((off - 0x802000) / 32) else (tableStation off).any (fun st => !s.stationOn st)
  else if off < 0x1000000 then
    if 0xC10000 ≤ off ∧ off < 0xC1C000 then !s.stationOn ((off - 0xC10000) / 0x1000)
    else if 0xC40000 ≤ off ∧ off < 0xC40C00 then !s.stationOn ((off - 0xC40000) / 0x100) else false
  else if off < 0x1400000 then decide (0x1010000 ≤ off) && !s.stationOn ((off - 0x1010000) / 0x1000)
  else if off < 0x1800000 then
    if 0x1400040 ≤ off ∧ off < 0x1400070 then !s.stationOn ((off - 0x1400040) / 4)
    else if 0x1400080 ≤ off ∧ off < 0x14000B0 then !s.stationOn ((off - 0x1400080) / 4)
    else decide (0x14000C0 ≤ off ∧ off < 0x14000F0) && !s.stationOn ((off - 0x14000C0) / 4)
  else if off < 0x1C00000 then
    decide (0x1810000 ≤ off) && (!s.sideOn ((off - 0x1810000) / 0x10000) ||
      (decide (0x80 ≤ off % 0x10000 ∧ off % 0x10000 < 0xB0) && !s.stationOn ((off % 0x10000 - 0x80) / 4)))
  else false

/-- Registers that stay readable and writable in a state that powers their block down (R312, R441). -/
def State.retainedAt (s : State) (off : Nat) : Bool :=
  if s.f HIF_DEV_STATE.STATE = 2 then false
  else if off = FLM_FREEBOARD.word ∨ off = FLM_LOG_PEND.word ∨ (tableStation off).isSome then s.power = pwrSTANDBY || s.power = pwrSLEEP
  else if 0x1800000 ≤ off ∧ off < 0x1C00000 then
    let o := off % 0x10000
    (s.power = pwrSLEEP) && (off = INS_CTRL.word || (decide (0x1810000 ≤ off) && (decide (o < 0x38) || decide (0x40 ≤ o))))
  else false

/-- Does a register answer with nothing (R39)? -/
def State.darkAt (s : State) (off : Nat) : Bool := s.poweredDown off && !s.retainedAt off

/-- What a write of a defined, powered, present register does, by block. -/
def State.wrBlock (s : State) (w : Wr) (r : RegRow) : State :=
  match srcOf w.off with
  | 0x01 => s.wrHif w r | 0x02 => s.wrSip w r | 0x03 => s.wrSpl w r | 0x04 => s.wrKor w r | 0x05 => s.wrCmp w r | 0x06 => s.wrFlm w r
  | 0x07 => s.wrScn w r | 0x08 => s.wrExp w r | 0x09 => s.wrHdg w r | 0x0A => s.wrIns w r | 0x0B => s.wrLpe w r | 0x0C => s.wrMot w r
  | 0x0D => s.wrLat w r | 0x0E => s.wrTrn w r | 0x0F => s.wrCul w r | 0x10 => s.wrEct w r | 0x11 => s.wrPwr w r | 0x12 => s.wrThm w r
  | 0x13 => s.wrClk w r | 0x14 => s.wrOtp w r | 0x15 => s.wrSec w r | 0x16 => s.wrFlt w r | _ => s.wrEvr w r

/-- What an access of a BAR0 offset meets in place of a register: the generic cause of the C0 event (R8, R38, R39). -/
def State.barred (s : State) (off : Nat) : Option Nat :=
  if (findReg off).isNone then some 0x01 else if s.darkAt off then some 0x03 else if s.absentAt off then some 0x04 else none

/-- The configuration bits of a register (RW and RWO). -/
def RegRow.configBits (r : RegRow) : BitVec 32 :=
  r.fields.foldl (fun (m : BitVec 32) f => if f.acc = .rw || f.acc = .rwo then putField m f.lo f.w (2 ^ f.w - 1) else m) 0

/-- The arbitration round of a register in ns: 20 in the always-on blocks, else 4 (R698). -/
def roundNs (off : Nat) : Nat := if [0x09, 0x11, 0x12, 0x16, 0x17].contains (srcOf off) then 20 else 4

/-- W1C bits of a register that hardware has set in this round: a clear leaves them (R699). -/
def State.setNow (s : State) (off : Nat) : BitVec 32 :=
  ((s.roundOf (roundNs off) mkSet).filter (fun a => decide (a / 32 = off))).foldl (fun (m : BitVec 32) a => m ||| BitVec.ofNat 32 (2 ^ (a % 32))) 0

/-- Software's value has landed in a counter or low-water mark: what hardware counted in this round applies to it (R699). -/
def State.recount (s : State) (ns : Nat) (x : Fld) : State :=
  let s := (s.roundOf ns mkInc).foldl (fun (t : State) a =>
    if a / 2 ^ 33 = x.key then
      t.setF x (if a / 2 ^ 32 % 2 = 1 then (t.f x + a % 2 ^ 32) % 2 ^ x.w else min (t.f x + a % 2 ^ 32) (2 ^ x.w - 1))
    else t) s
  (s.roundOf ns mkLow).foldl (fun (t : State) a => if a / 2 ^ 32 = x.key then t.setF x (min (t.f x) (a % 2 ^ 32)) else t) s

/-- The counters of a register that a write covers are counted on. -/
def State.recountAll (s : State) (w : Wr) (r : RegRow) : State :=
  r.fields.foldl (fun (t : State) f => if f.acc = .rw && w.mask.getLsbD f.lo then t.recount (roundNs w.off) ⟨w.off, f.lo, f.w⟩ else t) s

/-- Configuration bits that the dictionary server has set in this round: its value stands against the host port's (R40, R698). -/
def State.dictBits (s : State) (r : RegRow) (off : Nat) : BitVec 32 :=
  (((s.roundOf (roundNs off) mkDict).filter (fun a => decide (a / 2 ^ 32 = off))).foldl (fun (m : BitVec 32) a => m ||| BitVec.ofNat 32 a) 0) &&& r.configBits

/-- A write of a register by software, against what hardware does in the same round (R698, R699). -/
def State.softWrite (s : State) (w : Wr) (r : RegRow) : State :=
  let w := { w with mask := w.mask &&& ~~~ s.setNow w.off }
  ((s.wrBlock w r).recountAll w r).mark mkSoft (w.off * 2 ^ 32 + (w.mask &&& r.configBits).toNat)

/-- A write of the register at a BAR0 offset (R8, R38, R39, R40). -/
def State.regWrite (s : State) (w : Wr) : State :=
  match s.barred w.off, findReg w.off with
  | none, some r =>
    if w.master = 0x10 then
      let t := s.softWrite w r
      t.mark mkDict (w.off * 2 ^ 32 + (w.mask &&& ~~~ (t.word w.off ^^^ w.value)).toNat)
    else s.softWrite { w with mask := w.mask &&& ~~~ s.dictBits r w.off } r
  | some c, _ => s.reject w c
  | none, none => s

/-- Where an offset of a VF window leads, and the block it belongs to (R102). -/
def State.vfTarget (s : State) (fn off : Nat) : Option Nat × Nat :=
  if off < 0x100 then (some (0x10000 + fn * 0x100 + off), 0x01)
  else if 0x10000 ≤ off ∧ off < 0x20000 then
    (if s.chOwner ((off - 0x10000) / 0x400) = fn then some (0x110000 + (off - 0x10000)) else none, 0x02)
  else if 0x20000 ≤ off ∧ off < 0x20400 then (some (msixTable fn + (off - 0x20000)), 0x01)
  else if 0x21000 ≤ off ∧ off < 0x21008 then (some (msixPba fn + (off - 0x21000)), 0x01)
  else if 0x30000 ≤ off ∧ off < 0x31000 then (some (0x210000 + fn * 0x1000 + (off - 0x30000)), 0x03)
  else (none, 0x01)

/-- A function's write at an offset of its own BAR0 or window. -/
def State.hostWriteAt (s : State) (fn off : Nat) (value : BitVec 32) : State :=
  if fn = 0 ∨ 15 < fn then s.regWrite ⟨fn, off, srcOf off, off, value, 0xFFFFFFFF#32⟩
  else
    let t := s.vfTarget fn off
    match t.1 with
    | none => s.reject ⟨fn, off, t.2, off, value, 0xFFFFFFFF#32⟩ 0x01
    | some o =>
      let w : Wr := ⟨fn, off, t.2, o, value, 0xFFFFFFFF#32⟩
      if o < 0x4000000 then s.regWrite w
      else if s.darkAt 0 then s.reject w 0x03
      else if o < msixPba fn then s.wrMsix w fn else s

/-! ## Reads -/

/-- What a read of the register at a BAR0 offset shows: nothing of a WO field, of a dark block or of an absent instance (R8, R17, R38, R39). -/
def State.regRead (s : State) (off : Nat) : BitVec 32 :=
  if (findReg off).isNone || s.darkAt off || s.absentAt off || s.ringless off then 0#32
  else if off = SCN_WEB_LINE_LO.word then BitVec.ofNat 32 s.scn.webLine
  else if off = SCN_WEB_LINE_HI.word then BitVec.ofNat 32 (s.scn.webLine / 2 ^ 32)
  else s.word off

/-- The low words of the 64-bit quantities (R15): first offset and instances. -/
def lowWords : List (Nat × List (Nat × Nat)) := [
  (0x10000, [(16, 0x100)]), (0x10014, [(16, 0x100)]), (0x100008, []), (0x110000, [(64, 0x400)]), (0x11002C, [(64, 0x400)]), (0x20000C, []),
  (0x210020, [(16, 0x1000)]), (0x310000, [(8, 0x100)]), (0x310008, [(8, 0x100)]), (0xC00014, []), (0x1800024, []), (0x180002C, []),
  (0x1810044, [(2, 0x10000)]), (0x1C00008, []), (0x1C00010, []), (0x2600400, [(8, 8)]), (0x2600700, []), (0x2610010, [(256, 0x20)]),
  (0x2A00010, []), (0x2A00018, []), (0x2A00020, []), (0x3000014, []), (0x3200400, []), (0x3400024, []), (0x340002C, []), (0x3400044, []), (0x340004C, [])]

/-- Is an offset the low word of a 64-bit quantity? -/
def isLowWord (off : Nat) : Bool := lowWords.any (fun e => decide (e.1 ≤ off) && dimHit e.2 (off - e.1))

/-- One 32-bit read at an offset of a function's BAR0 or window (R8, R15, R38, R39, R102): a low word copies its high word to the function's shadow, and the
next read of that high word returns the shadow. -/
def State.readAt (s : State) (fn off : Nat) : BitVec 32 × State :=
  let t := if fn = 0 then (some off, srcOf off) else s.vfTarget fn off
  match t.1 with
  | none => (0#32, s.reportAccess t.2 0x01 1 fn off 0)
  | some o =>
    if 0x4000000 ≤ o then (if s.darkAt 0 then (0#32, s.reportAccess t.2 0x03 1 fn off 0) else (s.word o, s))
    else match s.barred o with
      | some c => (0#32, s.reportAccess t.2 c 1 fn off 0)
      | none =>
        if isLowWord o then (s.regRead o, s.setFn fn { s.fn fn with shadow := some (o + 4, s.regRead (o + 4)) })
        else match (s.fn fn).shadow with
          | some (h, v) => if h = o then (v, s.setFn fn { s.fn fn with shadow := none }) else (s.regRead o, s)
          | none => (s.regRead o, s)

/-- An access of a wrong size or alignment (R37): Unsupported Request and a C0 event; a write is posted and has no completion. -/
def State.unsupported (s : State) (master off : Nat) (write : Bool) : State :=
  let t := s.reportAccess (if master = 0 then srcOf off else (s.vfTarget master off).2) 0x02 (if write then 2 else 1) master off 0
  if write then t else t.emit (.completion 1 0)

/-- What a function in D3hot answers to a memory read: Unsupported Request (R136); during an FLR nothing is answered. -/
def State.closedRead (s : State) (fn : Nat) : State := if fn < 16 ∧ s.inD3 fn ∧ ¬ (s.fn fn).inFlr then s.emit (.completion 1 0) else s

/-- LOW_WORD_READ (R15, R37): the table's row for a read of a register over the host port (assumption log 94). A 64-bit read is two 32-bit ones, low word
first. -/
def execLowWordRead (fn off : Nat) (wide : Bool) (s : State) : Host.Outcome State Fault Refusal :=
  if !s.fnOpen fn then .next (s.closedRead fn)
  else if off % (if wide then 8 else 4) ≠ 0 then .next (s.unsupported fn off false)
  else
    let a := s.readAt fn off
    let t := a.2.emit (.completion 0 a.1)
    if !wide then .next t
    else
      let b := t.readAt fn (off + 4)
      .next (b.2.emit (.completion 0 b.1))

/-- Where an access of a function leads: nothing defined there (R38, R102)? -/
def State.undefinedAt (s : State) (fn off : Nat) : Bool :=
  if fn = 0 then (findReg off).isNone
  else match (s.vfTarget fn off).1 with
    | none => true
    | some o => decide (o < 0x4000000) && (findReg o).isNone

/-- RESERVED_ACCESS (R38, R102): an access of an offset that no chapter defines: a read gives zero, a write is ignored, with a C0 event. -/
def execReservedAccess (master off : Nat) (write : Option (BitVec 32)) (s : State) : Host.Outcome State Fault Refusal :=
  if !s.fnOpen master then .next (if write.isNone then s.closedRead master else s)
  else if !s.undefinedAt master off then .next s
  else
    let src := if master = 0 then srcOf off else (s.vfTarget master off).2
    match write with
    | some v => .next (s.reportAccess src 0x01 2 master off v.toNat)
    | none => .next ((s.reportAccess src 0x01 1 master off 0).emit (.completion 0 0))

/-- UNSUPPORTED_ACCESS (R37): Unsupported Request, and a C0 event. -/
def execUnsupportedAccess (master off : Nat) (write : Bool) (s : State) : Host.Outcome State Fault Refusal :=
  if !s.fnOpen master then .next (if write then s else s.closedRead master) else .next (s.unsupported master off write)

/-! ## Island clocks (R24, R25) -/

/-- What a report names for an island clock (R677). Clocks are numbered: 0 to 11 the station pixel clocks, 12 beam-link lane, 13 PCIe endpoint, 14 PCIe
root port, 15 DRAM, 16 EtherCAT, 17 and 18 Culvert east and west, 19 lateral, 20 and 21 scan links, 22 timebase, 23 REFCLK, 24 JTAG (assumption log 61). -/
def clkParam (d : Nat) : Nat :=
  if d < 12 then d else match d with
    | 12 => 14 | 13 => 0x22 | 14 => 0x23 | 15 => 13 | 16 => 12 | 17 => 15 | 18 => 15 | 19 => 15 | 20 => 15 | 21 => 15 | 22 => 12 | _ => 0x3F

/-- Does an island have a clock in this state: a station the fuses enable, a block that is powered (R601)? -/
def State.clkRuns (s : State) (d : Nat) : Bool :=
  if d < 12 then s.stationOn d && !s.poweredDown SCN_CTRL.word
  else if d = 12 ∨ d = 20 ∨ d = 21 ∨ d = 17 ∨ d = 18 then s.power = pwrRUN || s.power = pwrREADY
  else if d = 14 then s.awake
  else decide (d < 24) && (s.awake || s.power = pwrSLEEP)

/-- The report of a lost clock. -/
def State.clkReport (s : State) (d cls : Nat) : State := s.report 0x13 cls 0x06 (clkParam d)

/-- CLOCK_LOSS (R25): the class of each island, and what goes with it; JTAG is not monitored. A lost pixel clock leaves its PLL to lock again. -/
def execClockLoss (domain : Nat) (s : State) : Host.Outcome State Fault Refusal :=
  if !s.clkRuns domain || s.scn.clkLost.contains domain then .next s
  else
    let s := { s with scn := { s.scn with clkLost := domain :: s.scn.clkLost } }
    if domain < 12 then
      let pr := s.printing domain
      let s := s.clkReport domain (if pr then 3 else 1)
      .next ((s.pllSearch domain).modPll domain (fun p => { p with attempts := 0 }))
    else if domain = 23 then .next ((s.setF CLK_STATUS.REFCLK_OK 0).clkReport domain 4)
    else if domain = 12 ∨ domain = 22 then .next (s.clkReport domain 4)
    else if domain = 15 then .next (s.clkReport domain 3)
    else if domain = 13 then
      let s := s.clkReport domain 3
      .next (if s.b HIF_LINK_STATUS.UP then ({ (s.satInc HIF_LINK_CNT.DL_DOWN).linkOff with hif := { s.hif with clkDown := true } } : State).hostReset
        else { s with hif := { s.hif with clkDown := true } })
    else if domain = 14 then
      let s := if s.spl.copies.any Copy.isOpen then s else s.clkReport domain 1
      .next { s with spl := { s.spl with rootDown := true } }.refreshRefusal
    else .next (s.clkReport domain 1)

/-- CLOCK_RELOCK (R25, R204): the clock is back; REFCLK reads good, the spool's refusal ends. The host port stays down until PERST_N. -/
def execClockRelock (domain : Nat) (s : State) : Host.Outcome State Fault Refusal :=
  if !s.scn.clkLost.contains domain then .next s
  else
    let s := { s with scn := { s.scn with clkLost := s.scn.clkLost.filter (fun d => d ≠ domain) } }
    if domain = 23 then .next (s.setF CLK_STATUS.REFCLK_OK 1)
    else if domain = 14 then .next { s with spl := { s.spl with rootDown := false } }.refreshRefusal
    else .next s

end Sys2Proof.Machine
end

