-- ==== Sys2Proof/Machine/Objects.lean ====
section
/-! DEFINITION. The object dictionary (R7, R41, R96, R313, R366, R399, R442, R471, R502, R538, R570, R590, R591, R594 to R598, R710): every object's type,
access, name and the register field it is the view of. -/
namespace Sys2Proof.Machine

/-- The CoE data types (R590). -/
inductive OTy where
  | bool | u8 | i16 | u16 | i32 | u32 | i64 | u64 | real | vstr | ostr
  deriving DecidableEq, Repr

/-- Bytes of a type; none where the length varies. -/
def OTy.size : OTy → Option Nat
  | .bool => some 1 | .u8 => some 1 | .i16 => some 2 | .u16 => some 2 | .i32 => some 4 | .u32 => some 4 | .i64 => some 8 | .u64 => some 8
  | .real => some 4 | .vstr => none | .ostr => none

/-- Bits of a type (R590). -/
def OTy.bits : OTy → Nat
  | .bool => 1 | .u8 => 8 | .i16 => 16 | .u16 => 16 | .i32 => 32 | .u32 => 32 | .i64 => 64 | .u64 => 64 | .real => 32 | .vstr => 0 | .ostr => 0

/-- Type code (R590). -/
def OTy.code : OTy → Nat
  | .bool => 1 | .u8 => 5 | .i16 => 3 | .u16 => 6 | .i32 => 4 | .u32 => 7 | .i64 => 0x15 | .u64 => 0x1B | .real => 8 | .vstr => 9 | .ostr => 10

/-- Access codes of objects (R17). -/
inductive OAcc where
  | ro | rw | wo | rwo
  deriving DecidableEq, Repr

/-- What an object shows: a register field, a 64-bit pair, `n` successive registers as so many bytes, a value of the dictionary's own with its range, a
constant, or something of its own kind. -/
inductive View where
  | fld (x : Fld)
  | pair (lo : Nat)
  | words (off n bytes : Nat)
  | cell (lo hi : Nat)
  | const (v : Nat)
  | own
  deriving DecidableEq, Repr

/-- One subindex of an index. -/
structure Obj where
  sub  : Nat
  ty   : OTy
  acc  : OAcc
  view : View
  name : String
  deriving DecidableEq, Repr

/-- A register as a whole. -/
def whole (off : Nat) : View := .fld ⟨off, 0, 32⟩

/-- The PDO mapping of an index (R580): 32 entries. -/
def pdoEntries : List Obj := (List.range 32).map (fun i => (⟨i + 1, .u32, .rw, .cell 0 0xFFFFFFFF, "mapping entry"⟩ : Obj))

/-- Communication objects (R594). -/
def commObjects (v : Variant) : Nat → List Obj
  | 0x1000 => [⟨0, .u32, .ro, .const 0, "device type"⟩]
  | 0x1008 => [⟨0, .vstr, .ro, .own, "device name"⟩]
  | 0x1009 => [⟨0, .vstr, .ro, .own, "hardware version"⟩]
  | 0x100A => [⟨0, .vstr, .ro, .own, "software version"⟩]
  | 0x1010 => [⟨1, .u32, .rw, .own, "store parameters"⟩]
  | 0x1011 => [⟨1, .u32, .rw, .own, "restore defaults"⟩]
  | 0x1018 => [⟨1, .u32, .ro, .const 0x6E1, "vendor identifier"⟩, ⟨2, .u32, .ro, .const v.code, "product code"⟩,
               ⟨3, .u32, .ro, .own, "revision"⟩, ⟨4, .u32, .ro, .fld ⟨SEC_UID_LO.word, 0, 32⟩, "serial number"⟩]
  | 0x1C00 => [⟨1, .u8, .ro, .const 1, "SyncManager types"⟩, ⟨2, .u8, .ro, .const 2, "SyncManager types"⟩,
               ⟨3, .u8, .ro, .const 3, "SyncManager types"⟩, ⟨4, .u8, .ro, .const 4, "SyncManager types"⟩]
  | 0x1C12 => (List.range 32).map (fun i => (⟨i + 1, .u16, .rw, .cell 0 0xFFFF, "RxPDO assign"⟩ : Obj))
  | 0x1C13 => (List.range 32).map (fun i => (⟨i + 1, .u16, .rw, .cell 0 0xFFFF, "TxPDO assign"⟩ : Obj))
  | 0x1C32 => [⟨1, .u16, .rw, .cell 0 2, "synchronisation mode"⟩, ⟨2, .u32, .rw, .cell 0 0xFFFFFFFF, "cycle time, ns"⟩,
               ⟨3, .u32, .rw, .cell 0 0xFFFFFFFF, "output shift, ns"⟩, ⟨5, .u32, .ro, .const 125000, "minimum cycle time, ns"⟩,
               ⟨12, .u16, .ro, .cell 0 0xFFFF, "cycles without new outputs"⟩]
  | 0x1C33 => [⟨1, .u16, .rw, .cell 0 2, "synchronisation mode"⟩]
  | _ => []

/-- Identity, network, engine and DRAM objects (R7, R96, R366, R595, R596). -/
def engineObjects (v : Variant) : Nat → List Obj
  | 0x2000 => [⟨1, .u16, .ro, .const v.code, "variant code"⟩, ⟨2, .u8, .ro, .const v.stations, "stations enabled"⟩,
               ⟨3, .u8, .ro, .const v.fastest, "fastest permitted speed class"⟩, ⟨4, .u8, .ro, .const v.sides, "inspection sides"⟩,
               ⟨5, .bool, .ro, .const (if v.composer then 1 else 0), "tile composer present"⟩]
  | 0x2001 => [⟨1, .u16, .rw, .cell 0 0xFFFF, "configured alias"⟩, ⟨2, .u16, .ro, .fld ECT_ADDR.ALIAS, "alias in force"⟩,
               ⟨3, .u16, .ro, .fld ECT_ADDR.STATION, "station address"⟩]
  | 0x2002 => [⟨1, .bool, .rw, .fld ECT_CTRL.PORT1_EN, "output port enable"⟩, ⟨2, .u8, .rw, .fld ECT_CTRL.WD_CLASS, "watchdog class"⟩,
               ⟨3, .u8, .ro, .fld ECT_STATUS.AL_STATE, "AL state"⟩, ⟨4, .u16, .ro, .fld ECT_STATUS.AL_CODE, "AL status code"⟩,
               ⟨5, .i64, .ro, .pair ECT_DC_OFS_LO.word, "DC offset, ns"⟩, ⟨6, .u64, .ro, .pair ECT_SYNC_TB_LO.word, "timebase at last SYNC0, ns"⟩,
               ⟨7, .u64, .rw, .pair ECT_WAKE_LO.word, "DC wake time, ns"⟩]
  | 0x2100 => [⟨1, .u8, .ro, .fld SCN_STATE.CLASS_NOW, "class in force"⟩, ⟨2, .u8, .rw, .fld SCN_CTRL.CLASS, "requested class"⟩,
               ⟨3, .u16, .rw, .fld SCN_RAMP.RATE, "web ramp rate, mm/s2"⟩, ⟨4, .u16, .rw, .fld SCN_RAMP.TIMEOUT_MS, "ramp timeout, ms"⟩,
               ⟨5, .bool, .rwo, .fld SCN_CTRL.HALF, "half-advance"⟩, ⟨6, .u8, .rw, .fld SCN_CTRL.SLEW, "trigger slew, 1/16 line per sweep"⟩,
               ⟨7, .u8, .ro, .fld SCN_STATE.STATE, "speed state"⟩]
  | 0x2101 => [⟨1, .u8, .rwo, .cell 0 1, "frame mode"⟩, ⟨2, .u32, .rwo, .cell 2560 65536, "blank frame pitch, lines"⟩,
               ⟨3, .u16, .rwo, .cell 256 65535, "minimum gap, lines"⟩, ⟨4, .u32, .rwo, .cell 0 1048576, "sheet sensor distance, lines"⟩,
               ⟨5, .u16, .rwo, .cell 64 4096, "sheet edge window, lines, full width"⟩, ⟨7, .u8, .rw, .cell 0 7, "automatic reprint limit per page"⟩,
               ⟨8, .u16, .rw, .cell 0 0xFF, "page event mask"⟩, ⟨9, .u16, .ro, .own, "frames claimed ahead of the first latch line"⟩,
               ⟨10, .u32, .ro, .cell 0 0xFFFFFFFF, "spoiled pages since reset"⟩, ⟨11, .u32, .ro, .cell 0 0xFFFFFFFF, "C2 blank frames since reset"⟩]
  | 0x2102 => [⟨1, .u32, .ro, .const 256, "firmware and control region, MiB"⟩, ⟨2, .u32, .rw, .cell 0 0xFFFFFFFF, "raster ring per enabled station, MiB"⟩,
               ⟨3, .u32, .rw, .cell 0 0xFFFFFFFF, "tile store, MiB"⟩, ⟨4, .u32, .rw, .cell 0 0xFFFFFFFF, "inspection capture per side, MiB"⟩,
               ⟨5, .u32, .rw, .cell 0 0xFFFFFFFF, "spool staging, MiB"⟩, ⟨6, .u32, .ro, .own, "installed DRAM, MiB"⟩,
               ⟨7, .u32, .ro, .own, "free pool in force, MiB"⟩, ⟨8, .bool, .ro, .own, "regions valid"⟩]
  | 0x2104 => [⟨1, .u8, .rwo, .fld FLM_FREEBOARD.DEPTH, "freeboard depth"⟩, ⟨2, .u8, .ro, .fld FLM_STATUS.LIVE, "live Flumes"⟩,
               ⟨3, .u8, .ro, .fld FLM_STATUS.REQ, "required Flumes"⟩, ⟨4, .u16, .ro, .fld FLM_FENCED.MASK, "fenced Flumes"⟩,
               ⟨5, .u16, .ro, .fld FLM_RETIRED.MASK, "retired Flumes"⟩, ⟨6, .u16, .ro, .fld FLM_REDO_CNT.REDONE, "redos completed"⟩]
  | 0x2105 => [⟨1, .u16, .rw, .fld FLM_PRED_CFG.RAMP_MS, "ramp time, ms"⟩, ⟨2, .u16, .rw, .fld FLM_PRED_CFG.GUARD_MS, "guard time, ms"⟩,
               ⟨3, .bool, .ro, .fld FLM_PRED_STATUS.ACTIVE, "underrun active"⟩, ⟨4, .u8, .ro, .fld FLM_PRED_STATUS.TARGET, "ordered class"⟩]
  | 0x2106 => [⟨1, .u8, .rwo, .fld EXP_HALF.PCT, "half-advance power, percent"⟩, ⟨2, .u16, .rw, .fld EXP_MON_CFG.PERIOD_MS, "monitor period, ms"⟩,
               ⟨3, .u8, .rw, .fld EXP_MON_CFG.DEAD_PCT, "dead threshold, percent"⟩, ⟨4, .bool, .rw, .fld EXP_CTRL.CAL_EN, "tap calibration enable"⟩]
  | _ => []

/-- The objects of station `st` (R366, R399). -/
def stationObjects (st : Nat) : List Obj := [
  ⟨1, .u8, .rw, .fld (SCN_ROUTE.PORT st), "beam-link port"⟩, ⟨2, .u8, .rw, .fld (SCN_ROUTE.SIDE st), "side"⟩,
  ⟨3, .u32, .rw, .fld (SCN_OFS.LINES st), "registration offset, lines"⟩, ⟨4, .u32, .rw, .fld (SCN_SOL.TAPS st), "start delay, taps"⟩,
  ⟨5, .u8, .ro, .fld (SCN_ST_STATE.POLY st), "polygon state"⟩, ⟨6, .i16, .ro, .fld (SCN_PHASE.ERR st), "phase error, ns"⟩,
  ⟨7, .u8, .rwo, .fld (SCN_TRK.SRC st), "tracking source"⟩, ⟨8, .u8, .rw, .fld (EXP_WIN.OFS st), "window offset requested"⟩,
  ⟨9, .bool, .rw, .fld (EXP_WIN.AUTO st), "automatic window"⟩, ⟨10, .u8, .ro, .fld (EXP_WIN.WORK st), "window offset working"⟩,
  ⟨11, .u8, .rw, .fld (EXP_PWR.PCT st), "power, percent of MON_NOM"⟩, ⟨12, .u8, .rw, .fld (EXP_HEAD_CFG.WSCALE st), "width scale"⟩,
  ⟨13, .ostr, .rw, .words (EXP_DEAD.word st 0) 3 9, "dead emitters"⟩, ⟨14, .vstr, .ro, .own, "head serial"⟩,
  ⟨15, .u8, .ro, .fld (EXP_HEAD_STATE.SPEED_RANK st), "head speed rank"⟩, ⟨16, .u8, .ro, .fld (EXP_HEAD_STATE.POWER_RANK st), "head power rank"⟩]

/-- Codec, composer and inspection objects (R442, R597). -/
def imageObjects (index : Nat) : List Obj :=
  if index = 0x2400 then [
    ⟨1, .u8, .rw, .fld KOR_CTRL.AUDIT_EFFORT, "audit effort"⟩, ⟨2, .u32, .rw, whole CMP_MERGE.word, "merge priorities and transparency"⟩,
    ⟨3, .u32, .ro, whole CMP_BUDGET.word, "tile-store budget, bytes"⟩, ⟨4, .u32, .ro, whole CMP_PIN_USED.word, "pinned bytes"⟩,
    ⟨5, .u32, .ro, whole CMP_PAGES.word, "composed pages"⟩]
  else if 0x2401 ≤ index ∧ index < 0x2411 then
    let i := index - 0x2401
    [⟨1, .u32, .rwo, whole (CMP_PIN_ID.word i), "pin range"⟩, ⟨2, .u16, .rwo, .fld (CMP_PIN_CNT.COUNT i), "pin count"⟩]
  else if index = 0x2800 then [
    ⟨1, .bool, .rw, .fld INS_CTRL.EN0, "front enable"⟩, ⟨2, .bool, .rw, .fld INS_CTRL.EN1, "back enable"⟩,
    ⟨3, .u8, .rw, .fld INS_XCAL_CTRL.PAGES, "sweep pages"⟩, ⟨4, .u8, .ro, .fld INS_XCAL_STATUS.STATE, "sweep state"⟩]
  else if index = 0x2801 ∨ index = 0x2802 then
    let i := index - 0x2801
    [⟨1, .u32, .rw, .fld (INS_CIS_DIST.LINES i), "CIS distance, lines"⟩, ⟨2, .i16, .rw, .fld (INS_CIS_CFG.X0 i), "CIS column offset, 1/16 pixel"⟩,
     ⟨3, .u16, .rw, .fld (INS_MAP_INCL.INCL i), "stations included"⟩, ⟨4, .u32, .rw, .fld (INS_MAP_CH.CH i), "station channels"⟩,
     ⟨5, .u8, .rw, .fld (INS_CORR.EN i), "correction items"⟩, ⟨6, .u8, .rw, .fld (INS_CORR.REF_ST i), "reference station"⟩,
     ⟨7, .u16, .ro, .fld (INS_RES_Q.LOST i), "results lost"⟩]
  else if index = 0x2810 ∨ index = 0x2811 then [⟨0, .ostr, .rwo, .own, "colour model"⟩]
  else if index = 0x2812 ∨ index = 0x2813 then [⟨0, .ostr, .rwo, .own, "reference chart"⟩]
  else if index = 0x2814 ∨ index = 0x2815 then [⟨0, .ostr, .ro, .own, "column gains and matrix"⟩]
  else []

/-- Successive REAL32 registers of a loop, each an RWO object: subindex, register offset in the loop, name. -/
def loopReals : List (Nat × Nat × String) := [
  (0x06, 0x28, "ramp rate, units/s"), (0x07, 0x2C, "KP"), (0x08, 0x30, "KI"), (0x09, 0x34, "KD"), (0x0A, 0x38, "TF"), (0x0B, 0x3C, "input gain"),
  (0x0C, 0x40, "input offset"), (0x0D, 0x44, "output minimum"), (0x0E, 0x48, "output maximum"), (0x0F, 0x4C, "safe value"),
  (0x10, 0x50, "constant feed-forward scale"), (0x11, 0x54, "friction feed-forward scale"), (0x12, 0x58, "cogging feed-forward scale")]

/-- The objects of loop `lp` (R471). -/
def loopObjects (lp : Nat) : List Obj :=
  let b := LPE_LP_CMD.word lp
  [⟨1, .u8, .ro, .fld (LPE_LP_STATUS.STATE lp), "state"⟩, ⟨2, .u8, .wo, .fld (LPE_LP_CMD.CMD lp), "command"⟩,
   ⟨3, .u32, .rwo, whole (LPE_LP_CFG.word lp), "configuration"⟩, ⟨4, .real, .rw, whole (b + 0x20), "set-point"⟩,
   ⟨5, .real, .rw, whole (b + 0x24), "manual output"⟩] ++
  loopReals.map (fun (e : Nat × Nat × String) => (⟨e.1, .real, .rwo, whole (b + e.2.1), e.2.2⟩ : Obj)) ++
  [⟨0x13, .u32, .rwo, whole (b + 0x0C), "input binding"⟩, ⟨0x14, .u32, .rwo, whole (b + 0x10), "output binding"⟩,
   ⟨0x15, .u32, .rwo, whole (b + 0x14), "position binding"⟩, ⟨0x16, .real, .rwo, whole (b + 0x5C), "Y_MIN"⟩,
   ⟨0x17, .real, .rwo, whole (b + 0x60), "Y_MAX"⟩, ⟨0x18, .real, .rwo, whole (b + 0x64), "DEV"⟩,
   ⟨0x19, .u16, .rwo, .fld (LPE_LP_TIME.DEV_MS lp), "deviation time, ms"⟩, ⟨0x1A, .real, .rwo, whole (b + 0x68), "stop set-point"⟩,
   ⟨0x1B, .real, .rwo, whole (b + 0x6C), "stop ramp"⟩, ⟨0x1C, .real, .rwo, whole (b + 0x70), "position offset, revolutions"⟩,
   ⟨0x1D, .ostr, .rwo, .words (b + 0x74) 5 20, "filter 1 coefficients"⟩, ⟨0x1E, .ostr, .rwo, .words (b + 0x88) 5 20, "filter 2 coefficients"⟩,
   ⟨0x1F, .ostr, .rwo, .words (LPE_FRIC.word lp 0) 1024 4096, "friction table"⟩, ⟨0x20, .ostr, .rwo, .words (LPE_COG.word lp 0) 1024 4096, "cogging table"⟩,
   ⟨0x21, .real, .ro, whole (LPE_LP_R_NOW.word lp), "set-point in force"⟩, ⟨0x22, .real, .ro, whole (LPE_LP_Y_NOW.word lp), "measurement"⟩,
   ⟨0x23, .real, .ro, whole (LPE_LP_U_NOW.word lp), "output"⟩, ⟨0x24, .u8, .ro, .fld (LPE_LP_STATUS.FAULT lp), "fault code"⟩]

/-- The objects of axis `ax` (R502). -/
def axisObjects (ax : Nat) : List Obj := [
  ⟨1, .u8, .ro, .fld (MOT_AX_STATUS.STATE ax), "state"⟩, ⟨2, .u16, .wo, .fld ⟨MOT_AX_CMD.word ax, 0, 9⟩, "command"⟩,
  ⟨3, .u32, .rwo, whole (MOT_AX_CFG.word ax), "configuration"⟩, ⟨4, .i32, .rw, whole (MOT_AX_TARGET.word ax), "target"⟩,
  ⟨5, .i32, .ro, whole (MOT_AX_POS.word ax), "position"⟩, ⟨6, .i32, .ro, whole (MOT_AX_ENC_POS.word ax), "encoder position"⟩,
  ⟨7, .i32, .ro, whole (MOT_AX_REM.word ax), "remaining distance"⟩, ⟨8, .u32, .rw, whole (MOT_AX_VMAX.word ax), "maximum velocity"⟩,
  ⟨9, .u32, .rw, whole (MOT_AX_VSTART.word ax), "start velocity"⟩, ⟨10, .u32, .rw, whole (MOT_AX_ACC.word ax), "acceleration"⟩,
  ⟨11, .u32, .rw, whole (MOT_AX_DEC.word ax), "deceleration"⟩, ⟨12, .u32, .rw, whole (MOT_AX_QDEC.word ax), "quick-stop deceleration"⟩,
  ⟨13, .u32, .rw, whole (MOT_AX_JERK.word ax), "jerk"⟩, ⟨14, .i32, .rw, whole (MOT_AX_LIM_LO.word ax), "lower limit"⟩,
  ⟨15, .i32, .rw, whole (MOT_AX_LIM_HI.word ax), "upper limit"⟩, ⟨16, .u16, .rw, .fld (MOT_AX_DEVWIN.WIN ax), "deviation window"⟩,
  ⟨17, .u32, .rw, whole (MOT_AX_CUR.word ax), "currents"⟩, ⟨18, .u8, .ro, .fld (MOT_AX_STATUS.FAULT ax), "fault code"⟩]

/-- Lateral and turnout objects (R538). -/
def latObjects (index : Nat) : List Obj :=
  if index = 0x3800 then [⟨1, .u8, .rw, .own, "port enable"⟩]
  else if 0x3801 ≤ index ∧ index < 0x3805 then
    let p := index - 0x3801
    [⟨1, .u16, .rw, .fld (LAT_PORT_CFG.CYCLE_US p), "cycle period, us"⟩, ⟨2, .u16, .rwo, .fld (LAT_PORT_CFG.EXPECT_N p), "expected nodes"⟩,
     ⟨3, .u8, .rw, .fld (LAT_PORT_CFG.BRK_CLASS p), "break class"⟩, ⟨4, .u8, .ro, .fld (LAT_PORT_STATUS.STATE p), "state"⟩,
     ⟨5, .ostr, .rwo, .words (LAT_EXPECT.word p 0) 256 1024, "expected products"⟩]
  else if 0x3820 ≤ index ∧ index < 0x3828 then
    let fc := index - 0x3820
    [⟨1, .u16, .rw, .fld (LAT_FAN_CTRL.DUTY fc), "fan duty"⟩, ⟨2, .u32, .rw, whole (LAT_FAN_CFG.word fc), "fan configuration"⟩,
     ⟨3, .u8, .ro, .fld (LAT_FAN_STATUS.STATE fc), "fan state"⟩]
  else if index = 0x3A00 then [⟨1, .u8, .wo, .fld TRN_SW.RAISE, "software events"⟩]
  else if 0x3A10 ≤ index ∧ index < 0x3A30 then [⟨1, .u32, .rw, whole (TRN_LB_CFG.word (index - 0x3A10)), "lateral bit event"⟩]
  else if 0x3B00 ≤ index ∧ index < 0x3C00 ∧ taskUsed (index - 0x3B00) then
    let tk := index - 0x3B00
    [⟨1, .u32, .rw, whole (TRN_TK_SRC.word tk), "sources"⟩, ⟨2, .u16, .rw, .fld ⟨TRN_TK_CFG.word tk, 0, 16⟩, "configuration"⟩,
     ⟨3, .u8, .ro, .fld (TRN_TK_STATE.PEND tk), "pending"⟩, ⟨4, .u16, .ro, .fld (TRN_TK_CNT.LOST tk), "lost firings"⟩]
  else []

/-- Cascade objects (R570). -/
def culObjects : Nat → List Obj
  | 0x3C00 => [⟨1, .bool, .rw, .fld CUL_CTRL.ENABLE, "ring enable"⟩, ⟨2, .u8, .ro, .fld CUL_STATUS.STATE, "ring state"⟩,
               ⟨3, .u8, .ro, .fld CUL_STATUS.INDEX, "device index"⟩, ⟨4, .bool, .ro, .fld CUL_STATUS.MASTER, "master"⟩,
               ⟨5, .u8, .ro, .fld CUL_MEMBERS.PRESENT, "members present"⟩, ⟨6, .u8, .ro, .fld CUL_MEMBERS.ABSENT, "members absent"⟩,
               ⟨7, .u8, .ro, .fld CUL_LINE.STATIONS, "line stations"⟩, ⟨8, .u8, .ro, .fld CUL_LINE.CLASSES, "permitted classes"⟩]
  | 0x3C20 => [⟨1, .u8, .rw, .cell 0 0xFF, "tunnel device"⟩, ⟨2, .u16, .rw, .cell 0 0xFFFF, "tunnel index"⟩, ⟨3, .u8, .rw, .cell 0 0xFF, "tunnel subindex"⟩,
               ⟨4, .ostr, .rw, .own, "tunnel data"⟩, ⟨5, .u32, .ro, .cell 0 0xFFFFFFFF, "tunnel abort"⟩]
  | _ => []

/-- Power, thermal, Sump, recorder, security and calibration objects (R598, R628, R670, R710). -/
def safetyObjects (index : Nat) : List Obj :=
  if 0x4010 ≤ index ∧ index < 0x4030 then
    let k := index - 0x4010
    [⟨1, .u32, .rwo, whole (PWR_RAIL_CFG.word k), "configuration"⟩, ⟨2, .u32, .rwo, whole (PWR_RAIL_DEP.word k), "dependencies"⟩,
     ⟨3, .u32, .rw, whole (PWR_RAIL_UV.word k), "UV levels"⟩, ⟨4, .u32, .rw, whole (PWR_RAIL_OV.word k), "OV levels"⟩,
     ⟨5, .u16, .ro, .fld (PWR_RAIL_STATUS.MV k), "voltage, mV"⟩, ⟨6, .u32, .ro, whole (PWR_RAIL_CNT1.word k), "counters"⟩,
     ⟨7, .u32, .ro, whole (PWR_RAIL_CNT2.word k), "counters"⟩]
  else match index with
  | 0x4000 => [⟨1, .u8, .rw, .fld PWR_STATE.REQ, "power state requested"⟩, ⟨2, .u8, .ro, .fld PWR_STATE.NOW, "power state in force"⟩,
               ⟨3, .u16, .rw, .fld PWR_AVS.VMIN, "core voltage minimum, mV"⟩, ⟨4, .u16, .ro, .fld PWR_AVS_STATUS.VSET, "core voltage target, mV"⟩]
  | 0x4080 => [⟨1, .ostr, .rwo, .words (PWR_SEQ_PROG.word 0) 64 256, "sequencer program"⟩, ⟨2, .u32, .rwo, whole PWR_SEQ_CFG.word, "sequencer configuration"⟩]
  | 0x4400 => [⟨1, .u8, .rw, .fld THM_CFG.WARN, "warning level, degC"⟩, ⟨2, .u16, .rw, .fld THM_GRACE.MS, "grace time, ms"⟩,
               ⟨3, .i16, .ro, .fld THM_STATUS.HOT, "hottest sensor, 0.1 degC"⟩, ⟨4, .u8, .rw, .fld THM_CFG.CRIT, "critical level, degC"⟩,
               ⟨5, .u8, .ro, .fld THM_WEIR.ACTIVE, "weir conditions active"⟩]
  | 0x4800 => [⟨1, .ostr, .ro, .own, "first-error capture"⟩, ⟨2, .u16, .rw, .fld FLT_QUIET.MS, "quiet period, ms"⟩,
               ⟨3, .u8, .rw, .fld FLT_RECOV_CFG.N, "recoveries before latching"⟩, ⟨4, .u16, .rw, .fld FLT_RECOV_CFG.WINDOW_S, "recovery window, s"⟩,
               ⟨5, .u8, .ro, .fld FLT_STATUS.ACTIVE, "class in progress"⟩, ⟨6, .bool, .wo, .fld FLT_CTRL.RELEASE, "latch release"⟩,
               ⟨7, .u16, .ro, .fld FLT_RECOV_CNT.TOTAL, "recoveries since POR_N"⟩, ⟨8, .u16, .rw, .fld FLT_HB_CFG.MS, "heartbeat period, ms"⟩]
  | 0x4C00 => [⟨1, .u32, .ro, whole EVR_NEWEST.word, "newest record sequence"⟩, ⟨2, .ostr, .wo, .own, "clear authorisation token"⟩,
               ⟨3, .u32, .ro, whole EVR_OLDEST.word, "oldest record sequence"⟩]
  | 0x5000 => [⟨1, .u8, .ro, .fld SEC_LC.STATE, "lifecycle state"⟩, ⟨2, .ostr, .ro, .own, "debug challenge"⟩, ⟨3, .ostr, .wo, .own, "debug token"⟩,
               ⟨4, .u8, .ro, .fld SEC_DBG_STATUS.STATE, "debug state"⟩, ⟨5, .u16, .ro, .fld SEC_SVN.RUNNING, "firmware SVN in force"⟩,
               ⟨6, .u16, .ro, .fld SEC_SVN.COMMITTED, "firmware SVN committed"⟩, ⟨7, .bool, .wo, .fld SEC_SVN_CTRL.COMMIT, "commit SVN"⟩,
               ⟨8, .u16, .ro, .fld SEC_TOKEN_EPOCH.COUNT, "token epoch"⟩, ⟨9, .u64, .ro, .pair SEC_UID_LO.word, "unique identifier"⟩,
               ⟨10, .u32, .ro, whole OTP_FEATURE.word, "feature enables"⟩, ⟨11, .u16, .wo, .own, "lifecycle request"⟩]
  | 0x5800 => [⟨1, .u8, .ro, .fld EVR_CAL_STATUS.SLOT, "calibration slot in force"⟩, ⟨2, .u32, .ro, whole EVR_CAL_SEQ.word, "slot sequence in force"⟩,
               ⟨3, .ostr, .wo, .own, "calibration set"⟩]
  | _ => []

/-- Is an index a PDO mapping object (R580)? -/
def pdoMap (index : Nat) : Bool := decide (0x1600 ≤ index ∧ index < 0x1620) || decide (0x1A00 ≤ index ∧ index < 0x1A20)

/-- Is a mapping object there: the first of each kind, or one that has been written (R594)? -/
def State.pdoThere (s : State) (index : Nat) : Bool := decide (index = 0x1600) || decide (index = 0x1A00) || decide (s.obj index 0xFF = 1)

/-- The subindexes that an index defines, beside the subindex 0 of an ARRAY or RECORD; none where the index does not exist (R41, R591). -/
def State.objects (s : State) (index : Nat) : List Obj :=
  if pdoMap index then (if s.pdoThere index then pdoEntries else [])
  else if index < 0x2000 then commObjects s.variant index
  else if index < 0x2200 then engineObjects s.variant index
  else if index < 0x220C then stationObjects (index - 0x2200)
  else if index < 0x2400 then []
  else if index < 0x3000 then imageObjects index
  else if index < 0x3040 then loopObjects (index - 0x3000)
  else if index < 0x3400 then []
  else if index < 0x3418 then axisObjects (index - 0x3400)
  else if index < 0x3800 then []
  else if index < 0x3C00 then latObjects index
  else if index < 0x4000 then culObjects index
  else if index < 0x6000 then safetyObjects index
  else []

/-- Is an index a VAR: its one object at subindex 0 (R591)? -/
def isVar (os : List Obj) : Bool := os.all (fun o => o.sub = 0)

/-- Is an index an ARRAY: the assign objects and the SyncManager types? -/
def isArray (index : Nat) : Bool := decide (index = 0x1C00) || decide (index = 0x1C12) || decide (index = 0x1C13)

/-- Subindex 0 of the PDO mapping and assign objects counts entries and may be written (R580). -/
def countsEntries (index : Nat) : Bool := pdoMap index || decide (index = 0x1C12) || decide (index = 0x1C13)

/-- The index ranges that may hold objects, in order. -/
def odRanges : List (Nat × Nat) := [
  (0x1000, 1), (0x1008, 3), (0x1010, 2), (0x1018, 1), (0x1600, 32), (0x1A00, 32), (0x1C00, 1), (0x1C12, 2), (0x1C32, 2), (0x2000, 3), (0x2100, 3),
  (0x2104, 3), (0x2200, 12), (0x2400, 17), (0x2800, 3), (0x2810, 6), (0x3000, 64), (0x3400, 24), (0x3800, 5), (0x3820, 8), (0x3A00, 1), (0x3A10, 32),
  (0x3B00, 256), (0x3C00, 1), (0x3C20, 1), (0x4000, 1), (0x4010, 32), (0x4080, 1), (0x4400, 1), (0x4800, 1), (0x4C00, 1), (0x5000, 1), (0x5800, 1)]

/-- Every index that exists. -/
def State.odList (s : State) : List Nat :=
  (odRanges.flatMap (fun (r : Nat × Nat) => (List.range r.2).map (· + r.1))).filter (fun i => !(s.objects i).isEmpty)

/-- May an object be mapped into a PDO (R581)? -/
def Obj.mappable (o : Obj) (rx : Bool) : Bool :=
  (o.ty != .vstr && o.ty != .ostr) && (o.acc = .rw || (!rx && o.acc = .ro))

/-- The first register of an object's view. -/
def View.off : View → Option Nat
  | .fld x => some x.off
  | .pair lo => some lo
  | .words off _ _ => some off
  | _ => none

/-- Objects for a station, a side, or a part the fuses leave out (R42, R597). -/
def State.objAbsent (s : State) (index sub : Nat) : Bool :=
  if 0x2200 ≤ index ∧ index < 0x220C then !s.stationOn (index - 0x2200)
  else if index = 0x2400 then decide (2 ≤ sub) && !s.variant.composer
  else if 0x2401 ≤ index ∧ index < 0x2411 then !s.variant.composer
  else if index = 0x2800 then decide (sub = 2) && !s.sideOn 1
  else if index = 0x2802 ∨ index = 0x2811 ∨ index = 0x2813 ∨ index = 0x2815 then !s.sideOn 1
  else false

end Sys2Proof.Machine
end

