-- ==== Sys2Proof/Machine/Dict.lean ====
section
/-! DEFINITION. The object dictionary at work (R17, R18, R41, R42, R141, R577, R580, R590 to R593, R708): what a read and a write of an object or of a
whole index does, and the descriptions that SDO information returns. -/
namespace Sys2Proof.Machine

/-- How an access of the dictionary ends: with an abort code or data, or, later, with a calibration store or with the response of a tunnelled access. -/
inductive OdAct where
  | done (abort : Nat) (data : List Byte)
  | store
  | tunnel (upload : Bool) (data : List Byte)
  deriving DecidableEq, Repr

/-- The address that reports of a dictionary access name (R675). -/
def odAddr (index sub : Nat) : Nat := index * 256 + sub

/-- A generic C0 event of a dictionary access, with ACCESS 6 and the dictionary server as master. -/
def State.odReport (s : State) (src cause index sub value : Nat) : State := s.reportAccess src cause 6 0x10 (odAddr index sub) value

/-! ## Finding an object (R41, R591) -/

/-- The highest subindex of an index. -/
def topSub (os : List Obj) : Nat := os.foldl (fun (a : Nat) o => max a o.sub) 0

/-- Subindex 0 of an ARRAY or RECORD. -/
def subZero (index : Nat) (os : List Obj) : Obj :=
  if countsEntries index then ⟨0, .u8, .rw, .cell 0 32, "entries"⟩ else ⟨0, .u8, .ro, .const (topSub os), "highest subindex"⟩

/-- Every object of an index, subindex 0 first. -/
def allSubs (index : Nat) (os : List Obj) : List Obj := if isVar os then os else subZero index os :: os

/-- The objects that a write may reach: a PDO mapping object that is not there yet is made by it (R594). -/
def State.objectsFor (s : State) (index : Nat) (write : Bool) : List Obj := if write && pdoMap index then pdoEntries else s.objects index

/-- The object at an index and subindex, or the abort code. -/
def State.odFind (s : State) (index sub : Nat) (write : Bool) : Except Nat Obj :=
  let os := s.objectsFor index write
  if os.isEmpty then .error 0x06020000
  else match (allSubs index os).find? (fun o => o.sub = sub) with
    | some o => .ok o
    | none => .error 0x06090011

/-- The state after an access that finds no object: an index that does not exist is a C0 event like any reserved access (R38, R41). -/
def State.odMissing (s : State) (code index sub : Nat) : State := if code = 0x06020000 then s.odReport 0x01 0x01 index sub 0 else s

/-- The register whose block an object belongs to, also for objects of their own kind. -/
def Obj.block (o : Obj) (index : Nat) : Option Nat :=
  match o.view.off with
  | some off => some off
  | none =>
    if o.view ≠ .own then none
    else if 0x2200 ≤ index ∧ index < 0x220C then some (EXP_HMEM.word (index - 0x2200) 0)
    else if 0x2810 ≤ index ∧ index < 0x2816 then some (INS_CIS_DIST.word (index % 2))
    else if index = 0x3800 then some (LAT_PORT_CTRL.word 0)
    else if index = 0x4800 then some FLT_FE_INFO.word
    else if index = 0x4C00 then some EVR_CLEAR.word
    else if index = 0x5000 then some SEC_LC.word
    else none

/-- Is an object's block powered down? -/
def State.odDark (s : State) (index : Nat) (o : Obj) : Bool := (o.block index).any s.darkAt

/-! ## Reading -/

/-- ASCII bytes of a string. -/
def ascii (t : String) : List Byte := t.toList.map (fun c => BitVec.ofNat 8 c.toNat)

/-- The name of a part (R594). -/
def partName : Variant → String
  | .sx1296 => "SX-1296" | .sx0864 => "SX-0864" | .sx0432 => "SX-0432"

/-- A hexadecimal digit. -/
def hexDigit (n : Nat) : Byte := BitVec.ofNat 8 (if n < 10 then 48 + n else 55 + n)

/-- MiB that the regions of R28 take. -/
def State.dramTaken (s : State) : Nat :=
  256 + s.boot.ring * s.variant.stations + s.boot.tiles + s.boot.capture * popcount s.variant.sides 2 + s.boot.staging

/-- Column gains and matrix of a side (R442): unity gains and the identity until a calibration. -/
def CisCal.bytes (c : CisCal) : List Byte :=
  let one := 0x3F800000#32
  let gains := if c.gains.isEmpty then List.replicate 36000 16384 else c.gains
  let matrix := if c.matrix.isEmpty then [one, 0, 0, 0, 0, one, 0, 0, 0, 0, one, 0] else c.matrix
  gains.flatMap (leBytes 2) ++ matrix.flatMap (fun (m : BitVec 32) => leBytes 4 m.toNat)

/-- Words of registers as bytes. -/
def State.wordBytes (s : State) (offs : List Nat) : List Byte := offs.flatMap (fun off => leBytes 4 (s.regRead off).toNat)

/-- An object of its own kind, as it is read. The software version's text is a free value of eight characters: the spec gives it no form. -/
def State.odOwn (s : State) (index sub : Nat) : List Byte × State :=
  let num := fun (n v : Nat) => (leBytes n v, s)
  match index with
  | 0x1008 => (ascii (partName s.variant), s)
  | 0x1009 => let r := (s.regRead HIF_REV.word).toNat / 256 % 256; ([hexDigit (r / 16), hexDigit (r % 16)], s)
  | 0x100A => s.freeBytes 8
  | 0x1010 => num 4 1
  | 0x1011 => num 4 1
  | 0x1018 => num 4 ((s.regRead HIF_REV.word).toNat / 256 % 256 * 65536 + s.boot.fw)
  | 0x2101 => num 2 (s.pages.frames.filter (fun (f : Frame) => f.page.isSome && !f.latched)).length
  | 0x2102 => match sub with
    | 6 => num 4 s.boot.installed
    | 7 => num 4 (s.boot.installed - s.dramTaken)
    | _ => num 1 (if s.boot.dramOk then 1 else 0)
  | 0x3800 => num 1 ((List.range 4).foldl (fun (a : Nat) p => a + (if (s.regRead (LAT_PORT_CTRL.word p)).getLsbD 0 then 2 ^ p else 0)) 0)
  | 0x3C20 => ([], s)
  | 0x4800 =>
    let i := s.regRead FLT_FE_INFO.word
    if i.getLsbD 28 then
      (s.wordBytes [FLT_FE_INFO.word, FLT_FE_ADDR_LO.word, FLT_FE_ADDR_HI.word, FLT_FE_STAMP_LO.word, FLT_FE_STAMP_HI.word, FLT_FE_PARAM.word], s)
    else ([], s)
  | 0x5000 => let t := s.drawChallenge; (t.wordBytes ((List.range 8).map (fun i => SEC_CHAL.word i)), t)
  | _ =>
    if 0x2200 ≤ index ∧ index < 0x220C then
      let st := index - 0x2200
      let b := s.wordBytes [EXP_HMEM.word st 2, EXP_HMEM.word st 3, EXP_HMEM.word st 4, EXP_HMEM.word st 5]
      (if b.all (fun x => x = 0) then [] else b, s)
    else if index = 0x2810 ∨ index = 0x2811 then ((s.insSide (index - 0x2810)).model, s)
    else if index = 0x2812 ∨ index = 0x2813 then ((s.insSide (index - 0x2812)).chart, s)
    else if index = 0x2814 ∨ index = 0x2815 then ((s.insSide (index - 0x2814)).cal.bytes, s)
    else ([], s)

/-- Is a type signed? -/
def OTy.signed : OTy → Bool
  | .i16 => true | .i32 => true | .i64 => true | _ => false

/-- A number as its type shows it: a signed field narrower than its type is sign-extended. -/
def OTy.show (t : OTy) (w v : Nat) : Nat := if t.signed then unsgn (8 * t.size.getD 0) (sgn w v) else v

/-- The field value that a written number gives, none where the field cannot hold it. -/
def OTy.narrow (t : OTy) (w v : Nat) : Option Nat :=
  let n := v % 2 ^ w
  if t.show w n = v then some n else none

/-- The bytes of an object as it stands. -/
def State.odBytes (s : State) (index : Nat) (o : Obj) : List Byte × State :=
  let n := o.ty.size.getD 0
  match o.view with
  | .fld x => (leBytes n (o.ty.show x.w (getField (s.regRead x.off) x.lo x.w)), s)
  | .pair lo => (leBytes 8 ((s.regRead lo).toNat + 2 ^ 32 * (s.regRead (lo + 4)).toNat), s)
  | .words off k b => ((s.wordBytes ((List.range k).map (fun i => off + 4 * i))).take b, s)
  | .cell _ _ => (leBytes n (s.obj index o.sub), s)
  | .const v => (leBytes n v, s)
  | .own => s.odOwn index o.sub

/-- Zeros as long as an object: what an absent or powered-down one reads (R39, R42). -/
def State.odZeros (s : State) (index : Nat) (o : Obj) : List Byte := List.replicate (match o.ty.size with | some n => n | none => (s.odBytes index o).1.length) 0

/-- Read one object that may be read. In SLEEP a powered-down block aborts (R577); elsewhere it reads zero (R39), as an absent instance does (R42). -/
def State.odReadObj (s : State) (index : Nat) (o : Obj) : Nat × List Byte × State :=
  if s.objAbsent index o.sub then (0, s.odZeros index o, s.odReport (srcOf ((o.block index).getD 0)) 0x04 index o.sub 0)
  else if s.odDark index o then
    if s.power = pwrSLEEP then (0x08000022, [], s) else (0, s.odZeros index o, s.odReport (srcOf ((o.block index).getD 0)) 0x03 index o.sub 0)
  else
    let r := s.odBytes index o
    (0, r.1, r.2)

/-- Read an object (R139). -/
def State.odRead (s : State) (index sub : Nat) : OdAct × State :=
  match s.odFind index sub false with
  | .error c => (.done c [], s.odMissing c index sub)
  | .ok o =>
    if o.acc = .wo then (.done 0x06010000 [], s)
    else if index = 0x3C20 ∧ sub = 4 then (.tunnel true [], s)
    else
      let r := s.odReadObj index o
      (.done r.1 r.2.1, r.2.2)

/-! ## Writing -/

/-- Does the owner of an RWO object take writes now (R17, and the chapters' own conditions)? -/
def State.odOpen (s : State) (index : Nat) (o : Obj) : Bool :=
  match srcOf ((o.block index).getD 0) with
  | 0x05 => s.pinOpen
  | 0x06 => s.power = pwrREADY || s.power = pwrSTANDBY || s.power = pwrSLEEP
  | 0x07 => !s.inRun
  | 0x08 => !s.inRun
  | 0x0A => !s.sideEnabled (index % 2)
  | 0x0B => s.lpState (index - 0x3000) = lpOFF || s.lpState (index - 0x3000) = lpOPEN
  | 0x0C => s.axState (index - 0x3400) = axDISABLED
  | 0x0D => !s.b (LAT_PORT_CTRL.ENABLE (index - 0x3801))
  | 0x11 => if index = 0x4080 then s.seqOpen else !s.railReq (index - 0x4010)
  | _ => s.power = pwrREADY || s.power = pwrSTANDBY

/-- Objects whose field need not show at once, or at all, what was written: a request, or an enable that ends elsewhere. -/
def odRequests (index sub : Nat) : Bool :=
  (decide (index = 0x2100) && decide (sub = 2)) || (decide (0x2200 ≤ index ∧ index < 0x220C) && decide (sub = 8)) || index = 0x3C00 || index = 0x4000

/-- The write of a field of a register by the dictionary server (R40). -/
def odWr (index sub off lo w v : Nat) : Wr :=
  ⟨0x10, odAddr index sub, srcOf off, off, putField 0 lo w v, putField 0 lo w (2 ^ w - 1)⟩

/-- Write a register field: what the block refuses shows in the field, and aborts. -/
def State.odWriteFld (s : State) (index : Nat) (o : Obj) (x : Fld) (v : Nat) : Nat × State :=
  let t := s.regWrite (odWr index o.sub x.off x.lo x.w v)
  if index = 0x2100 ∧ o.sub = 2 ∧ 5 ≤ v then (0x06090030, t)
  else if o.acc = .wo || t.f x = v || odRequests index o.sub then (0, t)
  else if o.acc = .rwo && !s.odOpen index o then (0x08000022, t)
  else (0x06090030, t)

/-- Write successive registers: where one word would be refused nothing but its refusal is left. -/
def State.odWriteWords (s : State) (index : Nat) (o : Obj) (off n : Nat) (data : List Byte) : Nat × State :=
  let put := fun (t : State) (i : Nat) =>
    t.regWrite (odWr index o.sub (off + 4 * i) 0 (8 * min 4 (data.length - 4 * i)) (leAt data (4 * i) 4))
  let want := fun (i : Nat) => BitVec.ofNat 32 (leAt data (4 * i) 4)
  if o.acc = .rwo && !s.odOpen index o then
    match (List.range n).find? (fun i => s.word (off + 4 * i) ≠ want i) with
    | some i => (0x08000022, put s i)
    | none => (0, s)
  else match (List.range n).find? (fun i => (put s i).word (off + 4 * i) ≠ want i) with
    | some i => (0x06090030, put s i)
    | none => (0, (List.range n).foldl put s)

/-- What a value of the dictionary's own may be beside its range (R96). -/
def State.odCellOk (s : State) (index sub v : Nat) : Bool :=
  if index = 0x2101 ∧ sub = 2 then v % 64 = 0
  else if index = 0x2101 ∧ sub = 4 then (if s.obj 0x2101 1 = 1 then decide (2560 ≤ v) else v = 0) else true

/-- The PDO mapping and assign objects take writes only in PRE-OP, entries only while subindex 0 is 0 (R580); the restore at boot sets them whatever the AL
state is. -/
def State.odPdoOk (s : State) (index sub : Nat) (boot : Bool) : Bool :=
  (boot || s.alState = alPREOP) && (decide (sub = 0) || !pdoMap index || s.obj index 0 = 0)

/-- Write a value of the dictionary's own. -/
def State.odWriteCell (s : State) (index : Nat) (o : Obj) (lo hi v : Nat) (boot : Bool) : Nat × State :=
  if countsEntries index && !s.odPdoOk index o.sub boot then (0x08000022, s)
  else if v < lo ∨ hi < v ∨ !s.odCellOk index o.sub v then (0x06090030, s)
  else if o.acc = .rwo && !s.odOpen index o && !boot then (if s.obj index o.sub = v then (0, s) else (0x08000022, s))
  else (0, if pdoMap index then (s.setObj index o.sub v).setObj index 0xFF 1 else s.setObj index o.sub v)

/-- A model or chart (R413, R433, R442): written while its side is disabled. -/
def State.odInsStore (s : State) (side : Nat) (ok : Bool) (same : Bool) (put : State → State) : Nat × State :=
  if !ok then (0x06070010, s)
  else if s.sideEnabled side then (if same then (0, s) else (0x08000022, s.raise INS_STATUS.CTRL_REFUSED))
  else (0, put s)

/-- The entry of an object in a calibration payload (R706). -/
def calEntry (index sub : Nat) (data : List Byte) : List Byte :=
  leBytes 2 index ++ leBytes 1 sub ++ leBytes 1 0 ++ leBytes 4 data.length ++ data ++ List.replicate ((4 - data.length % 4) % 4) 0

/-- Is an object stored by "save" (R593)? The tunnel's data is another device's. -/
def odStored (index : Nat) (o : Obj) : Bool :=
  if countsEntries index then true
  else decide (0x2000 ≤ index ∧ index < 0x6000) && (o.acc = .rw || o.acc = .rwo) && !(decide (index = 0x3C20) && decide (o.sub = 4))

/-- Subindexes in the order in which they are stored: entries before the subindex 0 that counts them, with a 0 put in front. -/
def storeOrder (index : Nat) (os : List Obj) : List Obj :=
  if countsEntries index then os ++ [subZero index os] else os

/-- What "save" stores: every object of R593 that can be read. -/
def State.savePayload (s : State) : List Byte :=
  s.odList.flatMap (fun index =>
    let os := s.objects index
    (if countsEntries index then calEntry index 0 [0] else []) ++
      ((storeOrder index os).filter (fun o => odStored index o && !s.objAbsent index o.sub && !s.odDark index o)).flatMap
        (fun o => calEntry index o.sub (s.odBytes index o).1))

/-- An object of its own kind is written. -/
def State.odWriteOwn (s : State) (index sub : Nat) (data : List Byte) : OdAct × State :=
  let v := leNat data
  let say := fun (r : Nat × State) => ((.done r.1 [], r.2) : OdAct × State)
  match index with
  | 0x1010 => if v = 0x65766173 then (.store, s.calStore s.savePayload) else say (0x08000020, s)
  | 0x1011 => if v = 0x64616F6C then (.store, s.calStore []) else say (0x08000020, s)
  | 0x3800 =>
    if 16 ≤ v then say (0x06090030, s)
    else say (0, (List.range 4).foldl (fun (t : State) p => t.regWrite (odWr index sub (LAT_PORT_CTRL.word p) 0 1 (if bit v p then 1 else 0))) s)
  | 0x3C20 => if 1024 < data.length then say (0x06070010, s) else (.tunnel false data, s)
  | 0x4C00 =>
    let r := s.askClear data
    say (if r.1 then 0 else 0x08000020, r.2)
  | 0x5000 =>
    if sub = 0x0B then say (0, s.lcRequest (v / 256) (v % 256 % 4))
    else if data.length ≠ 272 then say (0x06070010, s)
    else if s.sec.token.isSome then say (0x08000020, s)
    else say (0, after (execTokenSubmit (some data) s) s)
  | 0x5800 =>
    if 4194240 < data.length then say (0x06070010, s)
    else if (calEntries data.length data).isSome then (.store, s.calStore data) else say (0x06090030, s)
  | _ =>
    let side := index % 2
    let x := s.insSide side
    if index = 0x2810 ∨ index = 0x2811 then
      say (s.odInsStore side (data.length = 117912) (x.model = data) (fun (t : State) =>
        (t.setInsSide side { x with model := data }).setF INS_STATUS.MODEL_OK (setBit (t.f INS_STATUS.MODEL_OK) side true)))
    else if index = 0x2812 ∨ index = 0x2813 then
      let n := (data.length - 8) / 16
      say (s.odInsStore side (data.length = 8 + 16 * n && decide (1 ≤ n ∧ n ≤ 256)) (x.chart = data) (fun (t : State) => t.setInsSide side { x with chart := data }))
    else say (0x06010000, s)

/-- Is the length that of the object's type? A string's own length is checked where it is taken. -/
def Obj.lengthOk (o : Obj) (n : Nat) : Bool :=
  match o.ty.size, o.view with
  | some k, _ => n = k
  | none, .words _ _ b => n = b
  | none, _ => true

/-- Write one object that exists and may be written, its length checked. -/
def State.odWriteObj (s : State) (index : Nat) (o : Obj) (data : List Byte) (boot : Bool) : OdAct × State :=
  let v := leNat data
  let say := fun (r : Nat × State) => ((.done r.1 [], r.2) : OdAct × State)
  let src := srcOf ((o.block index).getD 0)
  if o.ty = .bool ∧ 2 ≤ v then say (0x06090030, s)
  else if s.objAbsent index o.sub then say (0, s.odReport src 0x04 index o.sub v)
  else if s.odDark index o then (if s.power = pwrSLEEP then say (0x08000022, s) else say (0, s.odReport src 0x03 index o.sub v))
  else match o.view with
    | .fld x => match o.ty.narrow x.w v with
      | some n => say (s.odWriteFld index o x n)
      | none => say (0x06090030, s)
    | .pair lo =>
      let t := s.regWrite (odWr index o.sub lo 0 32 (v % 2 ^ 32))
      say (0, t.regWrite (odWr index o.sub (lo + 4) 0 32 (v / 2 ^ 32)))
    | .words off n _ => say (s.odWriteWords index o off n data)
    | .cell lo hi => say (s.odWriteCell index o lo hi v boot)
    | .const _ => say (0x06010000, s)
    | .own => s.odWriteOwn index o.sub data

/-- Write an object (R139). -/
def State.odWrite (s : State) (index sub : Nat) (data : List Byte) (boot : Bool := false) : OdAct × State :=
  match s.odFind index sub true with
  | .error c => (.done c [], s.odMissing c index sub)
  | .ok o =>
    if o.acc = .ro then (.done 0x06010000 [], s)
    else if !o.lengthOk data.length then (.done 0x06070010 [], s)
    else s.odWriteObj index o data boot

/-! ## Complete access (R43, R591) -/

/-- The objects of a complete access that starts at subindex `from`: the tunnel's data is not part of one. -/
def completeSubs (index start : Nat) (os : List Obj) : List Obj :=
  (allSubs index os).filter (fun o => decide (start ≤ o.sub) && !(decide (index = 0x3C20) && decide (o.sub = 4)))

/-- The bytes that an object takes in a complete access: a WO one has its type's length in zeros, subindex 0 is padded to 16 bits. -/
def State.completeLen (s : State) (index : Nat) (os : List Obj) (o : Obj) : Nat :=
  if o.sub = 0 && !isVar os then 2
  else match o.ty.size with
    | some n => n
    | none => if o.acc = .wo then 0 else (s.odBytes index o).1.length

/-- Read every subindex of an index as one action. -/
def State.odReadAll (s : State) (index start : Nat) : OdAct × State :=
  let os := s.objects index
  if os.isEmpty then (.done 0x06020000 [], s.odMissing 0x06020000 index start)
  else if 2 ≤ start then (.done 0x06090011 [], s)
  else
    let r := (completeSubs index start os).foldl (fun (a : Nat × List Byte × State) o =>
      if a.1 ≠ 0 then a
      else
        let len := a.2.2.completeLen index os o
        if o.acc = .wo then (0, a.2.1 ++ List.replicate len 0, a.2.2)
        else
          let b := a.2.2.odReadObj index o
          (b.1, a.2.1 ++ b.2.1 ++ List.replicate (len - b.2.1.length) 0, b.2.2)) (0, [], s)
    if r.1 = 0 then (.done 0 r.2.1, r.2.2) else (.done r.1 [], s)

/-- A complete write under way: what is left of the data, how it ended so far, the state, the object that refused. -/
structure OdAll where
  left : List Byte
  act  : OdAct
  st   : State
  bad  : Option (Obj × List Byte)

/-- One object of a complete write: a read-only one takes its bytes and nothing happens. -/
def OdAll.next (index : Nat) (os : List Obj) (boot : Bool) (a : OdAll) (o : Obj) : OdAll :=
  if a.bad.isSome then a
  else
    let len := a.st.completeLen index os o
    let piece := a.left.take len
    let rest := a.left.drop len
    if o.acc = .ro then { a with left := rest }
    else
      let d := if o.sub = 0 && !isVar os then piece.take 1 else piece
      let r := a.st.odWriteObj index o d boot
      match r.1 with
      | .done 0 _ => { a with left := rest, st := r.2 }
      | .done _ _ => { a with left := rest, act := r.1, bad := some (o, d) }
      | _ => { a with left := rest, act := r.1, st := r.2 }

/-- Write every writable subindex of an index, or none: where one is refused, only its refusal is left. -/
def State.odWriteAll (s : State) (index start : Nat) (data : List Byte) : OdAct × State :=
  let os := s.objectsFor index true
  if os.isEmpty then (.done 0x06020000 [], s.odMissing 0x06020000 index start)
  else if 2 ≤ start then (.done 0x06090011 [], s)
  else
    let l := completeSubs index start os
    if l.all (fun o => o.acc = .ro) then (.done 0x06010000 [], s)
    else if data.length ≠ (l.map (s.completeLen index os)).foldl (· + ·) 0 then (.done 0x06070010 [], s)
    else
      let a : OdAll := l.foldl (OdAll.next index os false) ⟨data, .done 0 [], s, none⟩
      match a.bad with
      | none => (a.act, a.st)
      | some (o, d) =>
        let r := s.odWriteObj index o d false
        (a.act, match r.1 with | .done 0 _ => s | .done _ _ => r.2 | _ => s)

/-! ## SDO information (R592) -/

/-- Is an index in object list `t`: 1 all, 2 RxPDO-mappable, 3 TxPDO-mappable, 4 stored, 5 settings? -/
def State.inList (s : State) (t index : Nat) : Bool :=
  let os := s.objects index
  match t with
  | 1 => true
  | 2 => os.any (fun o => o.mappable true)
  | 3 => os.any (fun o => o.mappable false)
  | _ => os.any (odStored index)

/-- An object list; none for a type that R592 does not have. -/
def State.infoList (s : State) (t : Nat) : Except Nat (List Byte) :=
  if t = 0 ∨ 5 < t then .error 0x06090030 else .ok (leBytes 2 t ++ (s.odList.filter (s.inList t)).flatMap (leBytes 2))

/-- An index described: its type, highest subindex, object code and name. -/
def State.infoObject (s : State) (index : Nat) : Except Nat (List Byte) :=
  match s.objects index with
  | [] => .error 0x06020000
  | o :: t =>
    let os := o :: t
    let code := if isVar os then 7 else if isArray index then 8 else 9
    let ty := if code = 9 then 0 else o.ty.code
    .ok (leBytes 2 index ++ leBytes 2 ty ++ leBytes 1 (topSub os) ++ leBytes 1 code ++ ascii o.name)

/-- Access rights and mapping flags of an entry: read in PRE-OP, SAFE-OP, OP; write in them; RxPDO, TxPDO. -/
def Obj.rights (o : Obj) : Nat :=
  (match o.acc with | .ro => 0x07 | .rw => 0x3F | .wo => 0x38 | .rwo => 0x0F) + (if o.mappable true then 0x40 else 0) + (if o.mappable false then 0x80 else 0)

/-- An entry described: type, bit length, access, flags and name. -/
def State.infoEntry (s : State) (index sub : Nat) : Except Nat (List Byte) :=
  match s.odFind index sub false with
  | .error c => .error c
  | .ok o =>
    let bits := if o.ty = .vstr ∨ o.ty = .ostr then 8 * (s.odBytes index o).1.length else o.ty.bits
    .ok (leBytes 2 index ++ leBytes 1 sub ++ leBytes 1 0 ++ leBytes 2 o.ty.code ++ leBytes 2 bits ++ leBytes 2 o.rights ++ ascii o.name)

/-- An SDO information request over CoE: opcode, a zero byte, fragments left, data (assumption log 62). -/
def State.infoReply (s : State) (req : List Byte) : Nat × List Byte :=
  let r : Except Nat (List Byte) := match leAt req 0 1 % 128 with
    | 1 => s.infoList (leAt req 4 2)
    | 3 => s.infoObject (leAt req 4 2)
    | 5 => s.infoEntry (leAt req 4 2) (leAt req 6 1)
    | _ => .error 0x05040001
  match r with
  | .ok d => (0, leBytes 1 (leAt req 0 1 % 128 + 1) ++ leBytes 3 0 ++ d)
  | .error c => (c, [])

end Sys2Proof.Machine
end

