-- ==== Sys2Proof/Machine/Server.lean ====
section
/-! DEFINITION. The dictionary server (R40 to R44, R137 to R141, R566, R592): transfers in order of arrival, over CoE, by the PF mailbox and through the
ring's tunnel; and a register write by software. -/
namespace Sys2Proof.Machine

/-- The server runs on the control cores, which a debug session may hold. -/
def State.serverRuns (s : State) : Bool := s.boot.cores && !s.sec.halted

/-- Is a transfer in progress (R43): a segmented one counts from its first segment to its last (R140)? -/
def State.sdoBusy (s : State) : Bool := s.hif.xfer.isSome || s.hif.hold.isSome

/-! ## Mailbox responses (R137 to R141) -/

/-- The bytes of the mailbox response. -/
def State.mbxRspBytes (s : State) : List Byte := (List.range 256).flatMap (fun i => leBytes 4 (s.word (HIF_MBX_RSP.word i)).toNat)

/-- Put bytes into the mailbox response from its first byte on. -/
def State.setMbxRsp (s : State) (b : List Byte) : State :=
  let all := b ++ s.mbxRspBytes.drop b.length
  (List.range 256).foldl (fun (s : State) i => s.setWord (HIF_MBX_RSP.word i) (BitVec.ofNat 32 (leAt all (4 * i) 4))) s

/-- Complete a mailbox request: the response, DONE, vector 2 (R137). After an FLR of the PF the response is
discarded: the server holds no request, so BUSY reads 0, and nothing is signalled (R132). -/
def State.mbxRespond (s : State) (req : List Byte) (abort : Nat) (data : List Byte) (more : Bool) (total : Nat) : State :=
  if s.hif.dropRsp then ({ s with hif := { s.hif with dropRsp := false } } : State).setF HIF_MBX_STATUS.BUSY 0
  else
    let head := req.take 1 ++ leBytes 1 (if more then 1 else 0) ++ (req.drop 2).take 4 ++ leBytes 2 data.length ++ leBytes 4 total ++ leBytes 4 abort
    let s := s.setMbxRsp (head ++ data)
    ((s.setF HIF_MBX_STATUS.BUSY 0).raise HIF_MBX_STATUS.DONE).pf 2

/-- End a mailbox transfer with an abort code: the server is released, an open segmented transfer with it, whatever the fault of the request (DESIGN CHOICE,
unsafe: R141 does not say; assumption log 58). TOTAL_LEN of the response is 0 (DESIGN CHOICE, unsafe: R138 does not say). -/
def State.mbxAbort (s : State) (req : List Byte) (code : Nat) : State :=
  ({ s with hif := { s.hif with xfer := none } } : State).mbxRespond req code [] false 0

/-- The next piece of an upload (R139). -/
def State.mbxPiece (s : State) (req : List Byte) (x : MbxXfer) : State :=
  let piece := (x.data.drop x.done).take 1008
  let done := x.done + piece.length
  let more := decide (done < x.data.length)
  let s : State := { s with hif := { s.hif with xfer := if more then some { x with done := done } else none } }
  s.mbxRespond req 0 piece more x.data.length

/-- Is a mailbox command a download? -/
def mbxDownloads (cmd : Nat) : Bool := cmd = 2 || cmd = 4

/-- The server has done what a mailbox request asks: an upload must not be longer than the request accepts, else 0x0607_0010 (DESIGN CHOICE, unsafe: R141
gives no code for it; assumption log 58). -/
def State.mbxFinish (s : State) (req : List Byte) (abort : Nat) (data : List Byte) : State :=
  let total := leAt req 8 4
  if abort ≠ 0 then s.mbxAbort req abort
  else if mbxDownloads (leAt req 0 1) then ({ s with hif := { s.hif with xfer := none } } : State).mbxRespond req 0 [] false total
  else if total < data.length then s.mbxAbort req 0x06070010
  else s.mbxPiece req { cmd := leAt req 0 1, index := leAt req 2 2, sub := leAt req 4 1, total := total, data := data }

/-! ## The tunnel (R566) -/

/-- The payload of an OD_REQ or OD_RSP: index, subindex, CMD (1 upload, 2 download), length, abort code, data. -/
def tunnelBody (index sub cmd abort : Nat) (data : List Byte) : List Byte :=
  leBytes 2 index ++ leBytes 1 sub ++ leBytes 1 cmd ++ leBytes 2 data.length ++ leBytes 2 0 ++ leBytes 4 abort ++ data

/-- Answer a transfer. -/
def State.sdoAnswer (s : State) (r : SdoReq) (abort : Nat) (data : List Byte) : State :=
  match r with
  | .coe _ => s.emit (.sdo abort data)
  | .mailbox req => s.mbxFinish req abort data
  | .ring src index sub cmd _ =>
    if 1024 < data.length then s.culSend 0x41 src (tunnelBody index sub cmd 0x06070010 []) else s.culSend 0x41 src (tunnelBody index sub cmd abort data)

/-- The tunnelled access ends: object 0x3C20:05 holds the code with which the access ends. -/
def State.tunnelEnd (s : State) (r : SdoReq) (abort : Nat) (data : List Byte) : State :=
  (({ s with hif := { s.hif with hold := none, tunnel := none } } : State).setObj 0x3C20 5 abort).sdoAnswer r abort data

/-- An access of object 0x3C20:04: OD_REQ goes to the target, and the transfer waits for its response. -/
def State.tunnelStart (s : State) (r : SdoReq) (upload : Bool) (data : List Byte) : State :=
  let dev := s.obj 0x3C20 1
  let index := s.obj 0x3C20 2
  let sub := s.obj 0x3C20 3
  if !s.ringMaster || !s.culOthers.contains dev then s.tunnelEnd r 0x08000020 []
  else
    let s : State := { s with hif := { s.hif with hold := some r, tunnel := some ⟨dev, index, sub, upload⟩ } }
    s.culSend 0x40 dev (tunnelBody index sub (if upload then 1 else 2) 0 data) true true

/-! ## One transfer -/

/-- What the server does with an access: done, it answers; else the transfer is held. -/
def State.sdoConclude (s : State) (r : SdoReq) (a : OdAct) : State :=
  match a with
  | .done c d => s.sdoAnswer r c d
  | .store => { s with hif := { s.hif with xfer := none, hold := some r } }
  | .tunnel up d => ({ s with hif := { s.hif with xfer := none } } : State).tunnelStart r up d

/-- Carry out what a transfer asks. -/
def State.sdoRun (s : State) (op : SdoOp) : OdAct × State :=
  match op with
  | .upload i b c => if c then s.odReadAll i b else s.odRead i b
  | .download i b c d => if c then s.odWriteAll i b d else s.odWrite i b d
  | .info d => let r := s.infoReply d; (.done r.1 r.2, s)

/-- An answer that SDO information gives. -/
def infoAct (r : Except Nat (List Byte)) : OdAct :=
  match r with
  | .ok d => .done 0 d
  | .error c => .done c []

/-- The first request of a mailbox upload, or of a description (R138). GET_OD_LIST carries its list type in data bytes 16 and 17 (DESIGN CHOICE, unsafe: R138
gives it no place; assumption log 58). -/
def State.mbxUp (s : State) (req : List Byte) : OdAct × State :=
  let index := leAt req 2 2
  let sub := leAt req 4 1
  match leAt req 0 1 with
  | 1 => s.odRead index sub
  | 3 => s.odReadAll index sub
  | 5 => (infoAct (s.infoList (leAt req 16 2)), s)
  | 6 => (infoAct (s.infoObject index), s)
  | _ => (infoAct (s.infoEntry index sub), s)

/-- A download request brings a piece; the last one takes effect (R139). -/
def State.mbxDown (s : State) (req : List Byte) (x : MbxXfer) : State :=
  let got := x.data ++ (req.drop 16).take (leAt req 6 2)
  if bit (leAt req 1 1) 0 then
    if x.total < got.length then s.mbxAbort req 0x06070010
    else ({ s with hif := { s.hif with xfer := some { x with data := got, done := got.length } } } : State).mbxRespond req 0 [] false x.total
  else if got.length ≠ x.total then s.mbxAbort req 0x06070010
  else
    let r := if x.cmd = 2 then s.odWrite x.index x.sub got else s.odWriteAll x.index x.sub got
    r.2.sdoConclude (.mailbox req) r.1

/-- A mailbox request at the server (R139 to R141). -/
def State.mbxServe (s : State) (req : List Byte) : State :=
  let cmd := leAt req 0 1
  let index := leAt req 2 2
  let sub := leAt req 4 1
  let total := leAt req 8 4
  let ofs := leAt req 12 4
  if cmd = 0 ∨ 7 < cmd ∨ 2 ≤ leAt req 1 1 then s.mbxAbort req 0x05040001
  else if 2 ^ 20 < total then s.mbxAbort req 0x05040005
  else if 1008 < leAt req 6 2 then s.mbxAbort req 0x06070010
  else match s.hif.xfer with
    | some x =>
      if x.cmd ≠ cmd ∨ x.index ≠ index ∨ x.sub ≠ sub ∨ ofs ≠ x.done then s.mbxAbort req 0x05030000
      else if mbxDownloads cmd then s.mbxDown req x else s.mbxPiece req x
    | none =>
      if ofs ≠ 0 then s.mbxAbort req 0x05030000
      else if mbxDownloads cmd then s.mbxDown req { cmd := cmd, index := index, sub := sub, total := total }
      else let r := s.mbxUp req; r.2.sdoConclude (.mailbox req) r.1

/-- A transfer at the server. -/
def State.sdoServe (s : State) (r : SdoReq) : State :=
  match r with
  | .coe op => let a := s.sdoRun op; a.2.sdoConclude r a.1
  | .mailbox req => s.mbxServe req
  | .ring _ index sub cmd data =>
    if cmd = 1 then let a := s.odRead index sub; a.2.sdoConclude r a.1
    else if cmd = 2 then let a := s.odWrite index sub data; a.2.sdoConclude r a.1
    else s.sdoAnswer r 0x05040001 []

/-- Is a request a segment of the mailbox transfer in progress? -/
def State.mbxContinues (s : State) (r : SdoReq) : Bool :=
  match r with
  | .mailbox _ => s.hif.xfer.isSome
  | _ => false

/-- A transfer arrives: it is carried out, or waits its turn (R43). -/
def State.sdoArrive (s : State) (r : SdoReq) : State :=
  if s.serverRuns && (s.mbxContinues r || (!s.sdoBusy && s.hif.sdoWait.isEmpty)) then s.sdoServe r
  else if s.mbxContinues r then { s with hif := { s.hif with sdoWait := r :: s.hif.sdoWait } }
  else { s with hif := { s.hif with sdoWait := s.hif.sdoWait ++ [r] } }

/-- GO (R137): the request as it stands is submitted; while one is being served GO is ignored. -/
def State.mbxGo (s : State) : State :=
  if s.b HIF_MBX_STATUS.BUSY then s.raise HIF_MBX_STATUS.OVERRUN
  else
    let req := (List.range 256).flatMap (fun i => leBytes 4 (s.word (HIF_MBX_REQ.word i)).toNat)
    (s.setF HIF_MBX_STATUS.BUSY 1).sdoArrive (.mailbox req)

/-- GO with a given CMD in the request. -/
def State.mbxGoAs (s : State) (cmd : Nat) : State :=
  if !s.fnOpen 0 || s.darkAt HIF_MBX_CTRL.word || bits (s.word (HIF_MBX_REQ.word 0)).toNat 0 8 ≠ cmd then s else s.mbxGo

/-- MBX_UPLOAD (R137 to R139): GO with CMD 0x01. -/
def execMbxUpload (s : State) : Host.Outcome State Fault Refusal := .next (s.mbxGoAs 1)

/-- MBX_DOWNLOAD (R137 to R139): GO with CMD 0x02. -/
def execMbxDownload (s : State) : Host.Outcome State Fault Refusal := .next (s.mbxGoAs 2)

/-- MBX_UPLOAD_COMPLETE (R138, R591): GO with CMD 0x03. -/
def execMbxUploadComplete (s : State) : Host.Outcome State Fault Refusal := .next (s.mbxGoAs 3)

/-- MBX_DOWNLOAD_COMPLETE (R138, R591): GO with CMD 0x04. -/
def execMbxDownloadComplete (s : State) : Host.Outcome State Fault Refusal := .next (s.mbxGoAs 4)

/-- MBX_GET_OD_LIST (R138, R592): GO with CMD 0x05. -/
def execMbxGetOdList (s : State) : Host.Outcome State Fault Refusal := .next (s.mbxGoAs 5)

/-- MBX_GET_OBJECT_DESC (R138, R592): GO with CMD 0x06. -/
def execMbxGetObjectDesc (s : State) : Host.Outcome State Fault Refusal := .next (s.mbxGoAs 6)

/-- MBX_GET_ENTRY_DESC (R138, R592): GO with CMD 0x07. -/
def execMbxGetEntryDesc (s : State) : Host.Outcome State Fault Refusal := .next (s.mbxGoAs 7)

/-- MBX_SEGMENT_TIMEOUT (R140): the transfer ends with its abort code, the server is released; no request is held, so the response stands in the one
answered last. -/
def execMbxSegmentTimeout (s : State) : Host.Outcome State Fault Refusal :=
  if s.hif.xfer.isNone || s.b HIF_MBX_STATUS.BUSY then .next s else .next (s.mbxAbort s.mbxRspBytes 0x05040000)

/-! ## CoE (R43, R44, R592) -/

/-- Does the SDO server take CoE transfers: PRE-OP, SAFE-OP or OP? -/
def State.coeOpen (s : State) : Bool := s.alState = alPREOP || s.alState = alSAFEOP || s.alState = alOP

/-- COE_SDO_UPLOAD (R43). -/
def execCoeSdoUpload (index sub : Nat) (complete : Bool) (s : State) : Host.Outcome State Fault Refusal :=
  if s.coeOpen then .next (s.sdoArrive (.coe (.upload index sub complete))) else .next s

/-- COE_SDO_DOWNLOAD (R44). -/
def execCoeSdoDownload (index sub : Nat) (complete : Bool) (data : List (BitVec 8)) (s : State) : Host.Outcome State Fault Refusal :=
  if s.coeOpen then .next (s.sdoArrive (.coe (.download index sub complete data))) else .next s

/-- COE_SDO_INFORMATION (R592). -/
def execCoeSdoInformation (data : List (BitVec 8)) (s : State) : Host.Outcome State Fault Refusal :=
  if s.coeOpen then .next (s.sdoArrive (.coe (.info data))) else .next s

/-- SDO_QUEUED_START (R43): the oldest waiting transfer starts when the server is free. -/
def execSdoQueuedStart (s : State) : Host.Outcome State Fault Refusal :=
  match s.hif.sdoWait with
  | [] => .next s
  | r :: t =>
    if !s.serverRuns || (s.sdoBusy && !s.mbxContinues r) then .next s
    else .next (({ s with hif := { s.hif with sdoWait := t } } : State).sdoServe r)

/-! ## Stores (R593, R707, R708) -/

/-- STORE_PARAMETERS (R593): "save" is written to 0x1010:01 over CoE. -/
def execStoreParameters (s : State) : Host.Outcome State Fault Refusal :=
  if s.coeOpen then .next (s.sdoArrive (.coe (.download 0x1010 1 false (leBytes 4 0x65766173)))) else .next s

/-- RESTORE_DEFAULTS (R708): "load" is written to 0x1011:01 over CoE. -/
def execRestoreDefaults (s : State) : Host.Outcome State Fault Refusal :=
  if s.coeOpen then .next (s.sdoArrive (.coe (.download 0x1011 1 false (leBytes 4 0x64616F6C)))) else .next s

/-- CAL_SET_WRITE (R708): a payload is written to 0x5800:03 over CoE. -/
def execCalSetWrite (payload : List (BitVec 8)) (s : State) : Host.Outcome State Fault Refusal :=
  if s.coeOpen then .next (s.sdoArrive (.coe (.download 0x5800 3 false payload))) else .next s

/-- CAL_STORE_COMPLETE (R593, R707): the store in progress ends; the transfer that waits for the last of them is answered. -/
def execCalStoreComplete (ok : Bool) (s : State) : Host.Outcome State Fault Refusal :=
  if s.evr.stores.isEmpty then .next s
  else
    let t := s.calStored ok
    match t.hif.hold with
    | none => .next t
    | some r =>
      if t.hif.tunnel.isSome || !t.evr.stores.isEmpty then .next t
      else .next (({ t with hif := { t.hif with hold := none } } : State).sdoAnswer r (if ok then 0 else 0x06060000) [])

/-! ## Tunnelled accesses (R566) -/

/-- CUL_OD_REQ (R566): one arrival at the target's server. -/
def execCulOdReq (east : Bool) (msg : List (BitVec 8)) (s : State) : Host.Outcome State Fault Refusal :=
  let r := s.culTake 0x40 east msg
  let b := msgBody msg
  if !r.1 || !r.2.ringMember then .next r.2
  else .next (r.2.sdoArrive (.ring (msgSrc msg) (leAt b 0 2) (leAt b 2 1) (leAt b 3 1) ((b.drop 12).take (leAt b 4 2))))

/-- CUL_OD_RSP (R566): the response to the access in progress completes it. -/
def execCulOdRsp (east : Bool) (msg : List (BitVec 8)) (s : State) : Host.Outcome State Fault Refusal :=
  let r := s.culTake 0x41 east msg
  let s := r.2
  let b := msgBody msg
  match r.1, s.hif.tunnel, s.hif.hold with
  | true, some t, some q =>
    if t.dev = msgSrc msg ∧ t.index = leAt b 0 2 ∧ t.sub = leAt b 2 1 then
      .next ((s.culAnswered 0x40 t.dev).tunnelEnd q (leAt b 8 4) (if t.upload then (b.drop 12).take (leAt b 4 2) else []))
    else .next s
  | _, _, _ => .next s

/-- CUL_TUNNEL_TIMEOUT (R566): no response for 100 ms. -/
def execCulTunnelTimeout (s : State) : Host.Outcome State Fault Refusal :=
  match s.hif.tunnel, s.hif.hold with
  | some t, some q => .next ((s.culAnswered 0x40 t.dev).tunnelEnd q 0x05040000 [])
  | _, _ => .next s

/-! ## Register writes (R14, R17, R102, R142) -/

/-- One 32-bit write; GO of the mailbox submits its request. -/
def State.writeAt (s : State) (master off : Nat) (value : BitVec 32) : State :=
  let t := s.hostWriteAt master off value
  if master = 0 && off = HIF_MBX_CTRL.word && value.getLsbD 0 && !s.darkAt off then t.mbxGo else t

/-- REGISTER_WRITE (R17, R37): a write of any register by a function (masters 0 to 15, by their own BAR0), the dictionary server or the control cores. A
64-bit write (`high` its high word) is two 32-bit ones, low word first; one of wrong alignment is not carried out. -/
def execRegisterWrite (master off : Nat) (value : BitVec 32) (high : Option (BitVec 32)) (s : State) : Host.Outcome State Fault Refusal :=
  if decide (master ≤ 15) && !s.fnOpen master then .next s
  else if decide (master ≤ 15 ∧ off % (if high.isSome then 8 else 4) ≠ 0) then .next (s.unsupported master off true)
  else
    let t := s.writeAt master off value
    .next (match high with
      | some h => t.writeAt master (off + 4) h
      | none => t)

end Sys2Proof.Machine
end

