-- ==== Sys2Proof/Machine/Ect.lean ====
section
/-! DEFINITION. The EtherCAT SubDevice (R573 to R589, R600, R650, R655): AL states, process data, Distributed Clocks, FoE. -/
namespace Sys2Proof.Machine

/-- Is the ESC powered, with the field network enabled (R577, R599)? -/
def State.escOn (s : State) : Bool := (s.awake || s.power = pwrSLEEP) && s.b ECT_CTRL.ENABLE

/-! ## PDO mapping (R580, R581) -/

/-- The assigned PDOs of a direction, in order. -/
def State.pdoAssigned (s : State) (rx : Bool) : List Nat :=
  let a := if rx then 0x1C12 else 0x1C13
  (List.range (s.obj a 0)).map (fun i => s.obj a (i + 1))

/-- The entries of a PDO: index, subindex, bits. -/
def State.pdoEntriesOf (s : State) (p : Nat) : List (Nat × Nat × Nat) :=
  (List.range (s.obj p 0)).map (fun i => let e := s.obj p (i + 1); (e / 65536, e / 256 % 256, e % 256))

/-- Is an entry valid at a bit position (R580)? -/
def State.pdoEntryOk (s : State) (rx : Bool) (pos : Nat) (e : Nat × Nat × Nat) : Bool :=
  if e.1 = 0 then decide (1 ≤ e.2.2 ∧ e.2.2 ≤ 16)
  else match s.odFind e.1 e.2.1 rx with
    | .error _ => false
    | .ok o => o.mappable rx && decide (o.ty.bits = e.2.2) && (o.ty = .bool || pos % 8 = 0)

/-- Is one PDO valid, and of how many bits? -/
def State.pdoCheck (s : State) (rx : Bool) (p : Nat) : Bool × Nat :=
  let r := (s.pdoEntriesOf p).foldl (fun (a : Bool × Nat) e => (a.1 && s.pdoEntryOk rx a.2 e, a.2 + e.2.2)) (true, 0)
  let range := if rx then decide (0x1600 ≤ p ∧ p < 0x1620) else decide (0x1A00 ≤ p ∧ p < 0x1A20)
  (r.1 && range && s.pdoThere p && r.2 % 8 = 0, r.2)

/-- Bytes of the assigned PDOs of a direction. -/
def State.pdoBytes (s : State) (rx : Bool) : Nat := (s.pdoAssigned rx).foldl (fun (a : Nat) p => a + (s.pdoCheck rx p).2) 0 / 8

/-- Is the mapping of a direction valid? -/
def State.pdoValid (s : State) (rx : Bool) : Bool := (s.pdoAssigned rx).all (fun p => (s.pdoCheck rx p).1) && decide (s.pdoBytes rx ≤ 1024)

/-- Every entry of a direction with its bit position in the buffer. -/
def State.pdoLayout (s : State) (rx : Bool) : List (Nat × Nat × Nat × Nat) :=
  (((s.pdoAssigned rx).flatMap s.pdoEntriesOf).foldl (fun (a : List (Nat × Nat × Nat × Nat) × Nat) e =>
    (a.1 ++ [(a.2, e.1, e.2.1, e.2.2)], a.2 + e.2.2)) ([], 0)).1

/-- What a TxPDO carries of an object: its value, or zero for an absent instance or a block that is powered down (R581). -/
def State.pdoValue (s : State) (index sub : Nat) : Nat :=
  match s.odFind index sub false with
  | .error _ => 0
  | .ok o => if s.objAbsent index sub || s.odDark index o then 0 else leNat (s.odBytes index o).1

/-- Sample every TxPDO entry at one instant (R584). -/
def State.sampleTx (s : State) : State :=
  let v := (s.pdoLayout false).foldl (fun (a : Nat) (e : Nat × Nat × Nat × Nat) =>
    a + (if e.2.1 = 0 then 0 else s.pdoValue e.2.1 e.2.2.1 % 2 ^ e.2.2.2) * 2 ^ e.1) 0
  { s with ect := { s.ect with ins := leBytes (s.pdoBytes false) v } }

/-- Apply one RxPDO entry (R581 to R583): an unchanged value and a block that is powered down are passed over; a refused value counts. -/
def State.applyEntry (s : State) (index sub v : Nat) : State :=
  match s.odFind index sub true with
  | .error _ => s
  | .ok o =>
    let n := o.ty.size.getD 0
    if s.odDark index o || leNat (s.odBytes index o).1 = v % 2 ^ (8 * n) then s
    else
      let r := s.odWriteObj index o (leBytes n v) false
      match r.1 with
      | .done 0 _ => r.2
      | _ => (r.2.satInc ECT_ERR2.PDO_REFUSED).ectReport 0 0x13

/-! ## AL states (R574 to R577, R585) -/

/-- Synchronisation settings (R585): the code of what is wrong, none where nothing is. `sync0` is the cycle that the MainDevice has activated. -/
def State.syncCode (s : State) (sync0 : Nat) : Option Nat :=
  let mode := s.obj 0x1C32 1
  if mode ≠ s.obj 0x1C33 1 then some 0x0030
  else if mode ≠ 2 then none
  else if sync0 = 0 then some 0x0030
  else if sync0 < 125000 ∨ 100000000 < sync0 ∨ sync0 % 1000 ≠ 0 ∨ sync0 ≠ s.obj 0x1C32 2 then some 0x0035
  else if sync0 < s.obj 0x1C32 3 + 60000 then some 0x0030 else none

/-- What refuses PRE-OP to SAFE-OP (R577, R580, R585). -/
def State.safeOpCode (s : State) (sm2 sm3 sync0 : Nat) : Option Nat :=
  if s.power = pwrSLEEP then some 0x8001
  else if !s.pdoValid true then some 0x001D
  else if !s.pdoValid false then some 0x001E
  else if sm2 ≠ s.pdoBytes true ∨ sm3 ≠ s.pdoBytes false then some 0x0017
  else s.syncCode sync0

/-- Is a transition one that the standard has? -/
def alAllowed (was target : Nat) : Bool :=
  match was with
  | 1 => [1, 2, 3].contains target
  | 2 => [1, 2, 4].contains target
  | 3 => [1, 3].contains target
  | 4 => [1, 2, 4, 8].contains target
  | 8 => [1, 2, 4, 8].contains target
  | _ => decide (target = 1)

/-- What refuses a transition: the AL status code (R574 to R577). -/
def State.alCode (s : State) (target : Nat) (mbxOk : Bool) (sm2 sm3 sync0 : Nat) : Option Nat :=
  let was := s.alState
  if !alAllowed was target then some 0x0011
  else if was = alINIT ∧ target ≠ alINIT then
    if !s.ect.siiOk || s.f HIF_DEV_STATE.STATE ≠ 1 then some 0x0014
    else if target = alBOOT ∧ s.inRun then some 0x8002
    else if !mbxOk then some 0x0016 else none
  else if was = alPREOP ∧ target = alSAFEOP then s.safeOpCode sm2 sm3 sync0
  else none

/-- AL_STATE_REQUEST (R576): the transition is made, or refused with its code. `station`: the configured station address; `mbxOk`: SM0 and SM1 are as R573
states; `sm2`, `sm3`: the lengths set; `sync0`: the SYNC0 cycle activated, 0 for none; `siiOk`: the SII image loaded at a transition into INIT agrees
with object 0x1018. -/
def execAlStateRequest (target : Nat) (station : BitVec 16) (mbxOk : Bool) (sm2 sm3 sync0 : Nat) (siiOk : Bool) (s : State) : Host.Outcome State Fault Refusal :=
  if !s.escOn then .next s
  else
    let s := (s.setF ECT_ADDR.STATION station.toNat).setF ECT_SYNC.CYCLE_NS sync0
    match s.alCode target mbxOk sm2 sm3 sync0 with
    | some c => .next (((s.setAl s.alState c).satInc ECT_ERR2.STATE_ERR).ectReport 0 0x12)
    | none =>
      let s := if target < s.alState ∨ target = alBOOT then s.alDrop target 0 else s.setAl target 0
      .next (if target = alINIT then { s with ect := { s.ect with siiOk := siiOk } } else if target = alSAFEOP then s.sampleTx else s)

/-- SM2_WATCHDOG (R579): it runs while RxPDOs are assigned in SAFE-OP and OP. -/
def execSm2Watchdog (s : State) : Host.Outcome State Fault Refusal :=
  if !s.escOn || !s.rxAssigned then .next s
  else if s.alState = alOP then .next (s.alDrop alSAFEOP 0x001B)
  else if s.alState = alSAFEOP then .next (s.setAl alSAFEOP 0x001B).pdoLost
  else .next s

/-! ## Process data (R582 to R586) -/

/-- Is output exchanged under DC synchronisation? -/
def State.dcSync (s : State) : Bool := s.obj 0x1C32 1 = 2

/-- RXPDO_APPLY (R582, R583, R585): the entries of one SM2 buffer, in their order, as one action. -/
def execRxpdoApply (data : List (BitVec 8)) (s : State) : Host.Outcome State Fault Refusal :=
  if !s.escOn || s.alState ≠ alOP || !s.rxAssigned || !s.serverRuns || data.length ≠ s.pdoBytes true then .next s
  else
    let v := leNat data
    let s := { s with ect := { s.ect with outs := data } }
    .next ((s.pdoLayout true).foldl (fun (t : State) (e : Nat × Nat × Nat × Nat) =>
      if e.2.1 = 0 then t else t.applyEntry e.2.1 e.2.2.1 (bits v e.1 e.2.2.2)) s)

/-- Are process data exchanged: SAFE-OP or OP? -/
def State.pdoRuns (s : State) : Bool := s.alState = alSAFEOP || s.alState = alOP

/-- Measure the DC offset: DC system time minus timebase, to 10 ns (R586). -/
def State.measureDc (s : State) (dcTime : BitVec 64) : State :=
  let d := (dcTime - s.now).toInt
  s.set64 ECT_DC_OFS_LO.word (unsgn 64 (d / 10 * 10))

/-- SYNC0_EDGE (R584 to R586): the offset and the timebase are noted; under DC synchronisation the TxPDOs are sampled, and an edge without a new SM2
buffer (`fresh`) since the previous one counts. -/
def execSync0Edge (dcTime : BitVec 64) (fresh : Bool) (s : State) : Host.Outcome State Fault Refusal :=
  if !s.escOn || s.f ECT_SYNC.CYCLE_NS = 0 then .next s
  else
    let s := (s.measureDc dcTime).set64 ECT_SYNC_TB_LO.word s.now.toNat
    let s := if s.dcSync && s.pdoRuns then s.sampleTx else s
    if s.dcSync && s.pdoRuns && s.rxAssigned && !fresh then
      .next (((s.setObj 0x1C32 12 (min (s.obj 0x1C32 12 + 1) 0xFFFF)).satInc ECT_ERR2.SYNC_ERR).ectReport 0 0x14)
    else .next s

/-- SM3_READ_COMPLETE (R584): without DC synchronisation the next buffer is sampled. -/
def execSm3ReadComplete (s : State) : Host.Outcome State Fault Refusal :=
  if s.escOn && s.pdoRuns && !s.dcSync then .next s.sampleTx else .next s

/-- DC_OFFSET_MEASURE (R586): every 1 ms while SYNC0 is inactive. -/
def execDcOffsetMeasure (dcTime : BitVec 64) (s : State) : Host.Outcome State Fault Refusal :=
  if s.escOn && s.f ECT_SYNC.CYCLE_NS = 0 then .next (s.measureDc dcTime) else .next s

/-- ECT_LINK_CHANGE (R573, R599): port 1 stays closed while PORT1_EN is 0. -/
def execEctLinkChange (port : Nat) (up : Bool) (s : State) : Host.Outcome State Fault Refusal :=
  if !s.escOn || 2 ≤ port then .next s
  else
    let x := if port = 0 then ECT_STATUS.LINK0 else ECT_STATUS.LINK1
    if up then (if port = 1 ∧ !s.b ECT_CTRL.PORT1_EN then .next s else .next (s.linkTo x true))
    else if s.b x then .next ((s.linkTo x false).satInc ECT_ERR.LINK_LOSS) else .next s

/-! ## FoE (R588, R589, R650 to R655) -/

/-- Does a package header name this part? -/
def State.variantBit (s : State) (variants : Nat) : Bool := bit variants (match s.variant with | .sx1296 => 0 | .sx0864 => 1 | .sx0432 => 2)

/-- The code of a package header (R652): 0 passes; `payHash` is the SHA-384 of the payload. -/
def State.packageCode (s : State) (kind : Nat) (h payHash : List Byte) : Nat :=
  let len := leAt h 16 4
  let svn := leAt h 8 4
  if leAt h 0 4 ≠ 0x53465058 ∨ leAt h 4 1 ≠ 1 ∨ leAt h 5 1 ≠ kind ∨ !s.variantBit (leAt h 12 4) ∨
      ¬ (if kind = 1 then 1 ≤ len ∧ len ≤ 67108352 else len = 2048) then 3
  else if signCode (s.hashWords 8) h ≠ 0 then 1
  else if svn < (if kind = 1 then s.thermo rowsFirmware 32 else s.thermo rowsSii 8) then 2
  else if payHash ≠ (h.drop 32).take 48 then 1 else 0

/-- An FoE reply: opcode 4 acknowledges a packet, 5 is an error (assumption log 62). -/
def State.foeReply (s : State) (op v : Nat) : State := s.emit (.ect (leBytes 1 op ++ leBytes 1 0 ++ leBytes 4 v))

/-- A transfer ends with an error: what was staged is discarded. -/
def State.foeError (s : State) (code : Nat) : State := ({ s with ect := { s.ect with foe := none } } : State).foeReply 5 code

/-- Offset of a boot-flash slot (R651). -/
def slotBase (slot : Nat) : Nat := if slot = 0 then 0x0100000 else 0x4100000

/-- A directory record (R651). -/
def dirRecord (seq slot : Nat) : List Byte :=
  let b := leBytes 4 seq ++ leBytes 1 slot
  b ++ List.replicate 7 0 ++ leBytes 4 (crc32c (b ++ List.replicate 7 0)).toNat

/-- A package has passed (R651, R655): the firmware's directory record replaces the older one; an SII image is written and its SVN burned. -/
def State.foeTake (s : State) (x : Foe) : State :=
  if x.sii then
    let s := s.emit (.bootFlash 0 (x.data.drop 512))
    let svn := leAt x.data 8 4
    if s.thermo rowsSii 8 < svn then s.otpInternal (.thermo rowsSii 8 svn) else s
  else
    let slot := 1 - s.boot.slot
    let rec' := 1 - s.boot.dirRec
    let s := s.emit (.bootFlash (0x1000 + 16 * rec') (dirRecord (s.boot.dirSeq + 1) slot))
    { s with boot := { s.boot with dirSeq := s.boot.dirSeq + 1, dirRec := rec' } }

/-- FOE_WRITE (R588, R589): packet 0 is the request with its name and password, packets from 1 carry data; after the last the package is checked. -/
def execFoeWrite (name : String) (password : BitVec 32) (packet : Nat) (data : List (BitVec 8)) (last : Bool)
    (s : State) : Host.Outcome State Fault Refusal :=
  if !s.escOn || s.alState = alINIT then .next s
  else if s.alState ≠ alBOOT then .next (s.foeError 0x8008)
  else if packet = 0 then
    if name ≠ "SX-FW" ∧ name ≠ "SX-SII" then .next (s.foeError 0x8001)
    else if password ≠ 0 then .next (s.foeError 0x800A)
    else .next (({ s with ect := { s.ect with foe := some { sii := decide (name = "SX-SII") } } } : State).foeReply 4 0)
  else match s.ect.foe with
    | none => .next (s.foeError 0x8005)
    | some x =>
      if packet ≠ x.packet then .next (s.foeError 0x8005)
      else
        let got := x.data ++ data
        if (if x.sii then 512 + 2048 else 2 ^ 26) < got.length then .next (s.foeError 0x8003)
        else
          -- a firmware package is staged in the slot that is not in force
          let s := if x.sii then s else s.emit (.bootFlash (slotBase (1 - s.boot.slot) + x.data.length) data)
          let y : Foe := { x with packet := packet + 1, data := got }
          if !last then .next (({ s with ect := { s.ect with foe := some y } } : State).foeReply 4 packet)
          else if got.length ≠ 512 + leAt got 16 4 ∨ s.packageCode (if x.sii then 2 else 1) got (sha384 (got.drop 512)) ≠ 0 then .next (s.foeError 0x800B)
          else .next ((({ s with ect := { s.ect with foe := none } } : State).foeTake y).foeReply 4 packet)

/-- FOE_READ (R589). -/
def execFoeRead (name : String) (s : State) : Host.Outcome State Fault Refusal :=
  if !s.escOn || s.alState = alINIT then .next s
  else .next (s.foeReply 5 (if name = "SX-FW" ∨ name = "SX-SII" then 0x8002 else 0x8001))

/-- MAILBOX_UNSUPPORTED (R573): the mailbox error reply of code 0x0002; CoE (3) and FoE (4) are supported. -/
def execMailboxUnsupported (protocol : Nat) (s : State) : Host.Outcome State Fault Refusal :=
  if !s.escOn || s.alState = alINIT || protocol = 3 || protocol = 4 then .next s
  else .next (s.emit (.ect (leBytes 2 1 ++ leBytes 2 2)))

end Sys2Proof.Machine
end

