-- ==== Sys2Proof/Machine/Boot.lean ====
section
/-! DEFINITION. Reset and boot (R28, R100, R101, R604 to R606, R624 to R626, R642, R652, R697, R703, R709, R718, R729, R730, R738): what starts a boot, its
steps, what stops it, and what a reset leaves. -/
namespace Sys2Proof.Machine

/-! ## The supplies (R606) -/

/-- Raise a PMIC enable and wait for its power-good. -/
def State.raisePmic (s : State) (i : Nat) : State :=
  { (s.setPmicEn i true).stageTo 2 with pwr := { s.pwr with enable := some i, retry := false } }

/-- A boot starts from the supplies, for a cause (R604, R625, R738): the state in force reads SLEEP while it runs. -/
def State.bootStart (s : State) (cause : Nat) : State :=
  let s := ((s.setF PWR_BOOT.CAUSE cause).setF PWR_BOOT.STAGE 1).setF PWR_STATE.NOW pwrSLEEP
  let s := { s with now := 0, boot := { s.boot with running := true, stopped := false }, pwr := { s.pwr with tries := 0, supCause := none, dcWake := false } }
  s.hdgSync.raisePmic 0

/-- Step 3 (R342, R347, R661, R703): the boot ROM runs, the system PLLs lock, the recorder has scanned its ring; a mirror that survived the reset is its
newest part. -/
def State.bootRom (s : State) : State :=
  let s := { s.otpShow.stageTo 3 with sec := {}, pwr := { s.pwr with enable := none } }
  let s := [12, 13, 14, 15].foldl (fun (s : State) pll => (s.pllSearch pll).modPll pll (fun p => { p with attempts := 0 })) s
  if s.evr.mirror.isEmpty then s.scanRing else s.wrapInc EVR_CYCLES.COUNT

/-- PMIC_POWER_GOOD (R606): the supply is good; the next enable rises, and after the last the boot ROM runs. -/
def execPmicPowerGood (enable : Nat) (s : State) : Host.Outcome State Fault Refusal :=
  if !s.boot.running || s.pwr.enable ≠ some enable then .next s
  else if enable < 3 then .next (s.raisePmic (enable + 1)) else .next s.bootRom

/-- PMIC_ENABLE_TIMEOUT (R606, R697): the boot stops, the enables go down, last words name the supply; after the third failure the device stays as in
OFF. -/
def execPmicEnableTimeout (enable : Nat) (s : State) : Host.Outcome State Fault Refusal :=
  if !s.boot.running || s.pwr.enable ≠ some enable then .next s
  else
    let n := s.pwr.tries + 1
    let s := (s.pmicOff.lastWord 0x11 0x10 0 0 (enable * 256)).setF PWR_BOOT.CAUSE (0x30 + enable)
    let s := { s with pwr := { s.pwr with enable := none, tries := n, retry := decide (n < 3), supCause := some enable } }
    if n < 3 then .next s
    else .next ({ s.setF PWR_STATE.NOW pwrOFF with boot := { s.boot with running := false, stopped := true } } : State).hdgSync

/-- PMIC_RETRY (R606): 1 s later the sequence repeats. -/
def execPmicRetry (s : State) : Host.Outcome State Fault Refusal := if s.boot.running && s.pwr.retry then .next (s.raisePmic 0) else .next s

/-! ## What starts a boot -/

/-- WAKE_N_FALL (R604): in HIBERNATE only, and not while a thermal shutdown stands. -/
def execWakeNFall (s : State) : Host.Outcome State Fault Refusal :=
  if s.power ≠ pwrHIBERNATE || s.b THM_SHUT.ACTIVE then .next s else .next (s.bootStart 1)

/-- DC_WAKE_TIMER (R587, R604). -/
def execDcWakeTimer (s : State) : Host.Outcome State Fault Refusal :=
  if s.power ≠ pwrHIBERNATE || s.b THM_SHUT.ACTIVE || !s.pwr.dcWake then .next s else .next (s.bootStart 2)

/-- Rounds of the sensors in 30 s less the 3 % of the always-on oscillator, at 320 µs a round (R619, R625). -/
def restartRounds : Nat := 90938

/-- THERMAL_RESTART (R625): every sensor not excluded has read below 95 °C for 30 s. -/
def execThermalRestart (s : State) : Host.Outcome State Fault Refusal :=
  if !s.b THM_SHUT.ACTIVE || decide (s.pwr.cool < restartRounds) then .next s
  else .next ((s.setF THM_SHUT.ACTIVE 0).bootStart 3)

/-- Outputs at their reset levels: lasers low, kills asserted, ALIVE, rails and PMIC enables low. -/
def State.pinsDark (s : State) : State :=
  let s := (List.range 12).foldl (fun (s : State) st => s.drivePin (wireLaser st) (bit (s.f HDG_STATUS.LASER_EN) st) false) s
  let s := (s.drivePin wireHv (s.b HDG_STATUS.HV_KILL) true).drivePin wireFuser (s.b HDG_STATUS.FUSER_KILL) true
  (s.aliveStop.railsOff.pmicOff).setSpool false

/-- The part at reset beside what power does not touch: fuses, flash and drives, the wires' history and the always-on SRAM with `lw` in it (R624, R697). -/
def State.cold (s : State) (lw : List (EvrRec × Bool)) : State :=
  let e := s.evr.cut
  { State.reset with
    variant := s.featVariant, freeCtr := s.freeCtr, pending := s.pending, out := s.out, otp := s.otp, spool := s.spool, spl := s.spl.survives,
    hif := { perst := s.hif.perst },
    evr := { flash := e.flash, badSlots := e.badSlots, slotA := e.slotA, slotB := e.slotB, lastWords := lw } }

/-- What POR_N leaves; unless VDD_AON was lost, the always-on domain's last words and its count of thermal shutdowns too (R624, R697). -/
def State.porBase (s : State) (aonLost : Bool) : State :=
  let s := s.pinsDark.otpCut
  let lw := if aonLost then [] else s.evr.lastWords
  let t := s.cold lw
  let t := if lw.any (fun x => !x.2) then t.setF EVR_STATUS.LW_PENDING 1 else t
  if aonLost then t else t.setF THM_SHUT.COUNT (s.f THM_SHUT.COUNT)

/-- The factory taps (R340, R393, R395): N(t) of the ideal delay at the class of reset, from the factory element delay in 0.01 ps. -/
def State.factoryTaps (s : State) : State :=
  s.enabledStations.foldl (fun (s : State) st =>
    let d := (s.otpRow (68 + st)).toNat
    let den := 4800 * 64 * webSpeed s.classNow * d
    if d = 0 then s
    else (List.range 64).foldl (fun (s : State) t => s.setF (EXP_TAP.N st t) (min 4095 ((2 * (t * 11000000 * 4000000 * 100) + den) / (2 * den)))) s) s

/-- POWER_ON_RESET (R604, R642, R718, R729): POR_N rises. The fuses reach their latches and CSC_MASTER is sampled; a boot starts unless TEST_MODE is
high. -/
def execPowerOnReset (strap testMode siiOk : Bool) (s : State) : Host.Outcome State Fault Refusal :=
  let closed := decide (s.sessionLevel ≠ 0)
  let s := (s.porBase false).latchFuses.otpShow.factoryTaps
  let s := if closed then s.setF SEC_DBG_STATUS.CLOSE_CAUSE 4 else s
  let s := (s.setB CUL_STATUS.MASTER strap).setF CLK_STATUS.REFCLK_OK 1
  let s : State := { s with boot := { strap := strap, testMode := testMode }, ect := { siiOk := siiOk } }
  .next (if testMode then s else s.bootStart 0)

/-- VDD_AON_LOW (R718): as if POR_N had been asserted; the always-on SRAM is lost too. -/
def execVddAonLow (s : State) : Host.Outcome State Fault Refusal := .next (s.porBase true)

/-- SYS_RESET_ASSERT (R730): the outputs as in R624, last words, the engine and pages as under a C4; then every block outside the always-on domain is
reset. -/
def execSysResetAssert (s : State) : Host.Outcome State Fault Refusal :=
  if s.power = pwrHIBERNATE || s.power = pwrOFF || s.b THM_SHUT.ACTIVE || s.boot.sysReset then .next s
  else
    let closed := decide (s.sessionLevel ≠ 0)
    let s : State := { s with boot := { s.boot with sysReset := true } }
    let s := (s.hdgSync.aliveStop.lastWord 0x16 0x22).seqStop.railSync.engineStop 4
    let s := (s.darken true).gatesShut
    let s := if closed then s.setF SEC_DBG_STATUS.CLOSE_CAUSE 4 else s
    let s : State := { s with boot := { s.boot with sysReset := true }, pwr := { s.pwr with runUp := false } }
    .next (((s.setF PWR_STATE.STEPPING 0).setF PWR_STATE.NOW pwrSLEEP).setB CUL_STATUS.MASTER s.boot.strap).hdgSync.railSync

/-- SYS_RESET_RELEASE (R730): the boot starts at step 3, with cause 0. -/
def execSysResetRelease (s : State) : Host.Outcome State Fault Refusal :=
  if !s.boot.sysReset then .next s
  else
    let s : State := { s with now := 0, boot := { s.boot with sysReset := false, running := true, stopped := false } }
    .next ((s.setF PWR_BOOT.CAUSE 0).setF PWR_BOOT.STAGE 3).hdgSync.railSync.bootRom

/-! ## Steps 6 to 8 -/

/-- DRAM_TRAINED (R207, R626, R656, R734): training ends; it, or a TRNG that can make no key, may stop the boot. -/
def execDramTrained (ok : Bool) (channel installed : Nat) (s : State) : Host.Outcome State Fault Refusal :=
  if !s.boot.running || s.f PWR_BOOT.STAGE < 3 || s.boot.dramDone || !List.all [12, 13, 14, 15] (fun p => bit (s.f CLK_STATUS.LOCKED) p) then .next s
  else if !ok || s.b SEC_STATUS.TRNG_FAIL then .next ((s.setF PWR_BOOT.CAUSE (0x20 + channel % 16)).bootStop 3)
  else
    let r := s.drawn 8
    .next { r.1.stageTo 6 with boot := { s.boot with dramDone := true, installed := installed, xts := r.2 } }

/-- What the DRAM devices hold at the 64-byte unit `u`: its bytes under AES-256-XTS, the tweak being the address divided by 64 (R207). -/
def State.dramCell (s : State) (u : Nat) : List Byte := xtsUnit s.boot.xts u (s.dram.bytes (64 * u) 64)

/-- Apply one entry of the calibration slot as a dictionary download (R709), whatever block is powered down at this step; the power state asked for is never
restored (R605). Where the object refuses, EVR_CAL_STATUS.SKIPPED and a C0. -/
def State.restoreEntry (s : State) (e : Nat × Nat × List Byte) : State :=
  if e.1 = 0x4000 ∧ e.2.1 = 1 then s
  else if e.1 = 0x3C00 ∧ e.2.1 = 1 ∧ e.2.2.length = 1 ∧ leNat e.2.2 < 2 then s.setF CUL_CTRL.ENABLE (leNat e.2.2)
  else
    let r := s.odWrite e.1 e.2.1 e.2.2 true
    match r.1 with
    | .done 0 _ => r.2
    | .store => r.2
    | _ => (s.satInc EVR_CAL_STATUS.SKIPPED).report 0x17 0 0x0F

/-- Restore the calibration store (R709): CAL_RESTORED tells the slot, its sequence and what was skipped; with no valid slot, a C1. -/
def State.restoreCal (s : State) : State :=
  match s.calSlot with
  | none => (s.calShow.report 0x17 1 0x0F).record 0x17 0x06 5 0xFF 0 0
  | some b =>
    let c := s.calOf b
    let p := s.power
    -- the blocks that SLEEP powers down take their stored values too; the predictor's belong to one that STANDBY powers down
    let put := fun (s : State) (e : Nat × Nat × List Byte) => (s.setF PWR_STATE.NOW (if e.1 = 0x2105 then pwrREADY else pwrSTANDBY)).restoreEntry e
    let s := ((calEntries c.data.length c.data).getD []).foldl put (s.calShow.setF EVR_CAL_STATUS.SKIPPED 0)
    (s.setF PWR_STATE.NOW p).record 0x17 0x06 5 (if b then 1 else 0) c.seq.toNat (s.f EVR_CAL_STATUS.SKIPPED)

/-- Divide DRAM (R28): by the sizes of object 0x2102, where they meet their minima and fit. -/
def State.divideDram (s : State) : State :=
  let ring := s.obj 0x2102 2
  let tiles := s.obj 0x2102 3
  let capture := s.obj 0x2102 4
  let staging := s.obj 0x2102 5
  let sum := 256 + ring * s.variant.stations + tiles + capture * popcount s.variant.sides 2 + staging
  let ok := decide (512 ≤ ring) && (decide (1024 ≤ tiles) || (decide (tiles = 0) && !s.variant.composer)) && decide (256 ≤ capture) && decide (2048 ≤ staging) &&
    decide (sum ≤ s.boot.installed)
  let s : State := { s with boot := { s.boot with dramOk := ok, ring := ring, tiles := tiles, capture := capture, staging := staging } }
  if ok then s else s.report 0x01 0 0x0F

/-- The control cores start a package that has passed (R652): steps 7 and 8. The firmware version is the image's own, a free value. -/
def State.startCores (s : State) (slot svn : Nat) (fallback journalOk burnOk : Bool) : State :=
  let s := ((s.setF SEC_SVN.RUNNING svn).setF SEC_STATUS.SLOT slot).setB SEC_STATUS.FALLBACK fallback
  let s := if fallback then s.secReport 1 0x16 0 else s
  let s : State := { s with boot := { s.boot with slot := slot, cores := true, running := false, fw := s.free.toNat % 65536 }, flt := { s.flt with kickAt := s.now.toNat } }
  let s := (s.drew.setF HIF_DEV_STATE.STATE 1).stageTo 7
  let s := s.flushLastWords.record 0x17 0x01 5 (s.f PWR_BOOT.CAUSE) svn slot
  let s := s.restoreCal.divideDram
  let s := (s.startEpoch journalOk burnOk).stageTo 8
  let s := (s.setF ECT_ADDR.ALIAS (s.obj 0x2001 1)).setF PWR_STATE.REQ pwrREADY
  s.setPower pwrSLEEP

/-- The code of a slot (R652): its header, none where it cannot be read, and the hash of its payload. -/
def State.slotCode (s : State) (hdr : Option (List Byte)) (payHash : List Byte) : Nat :=
  match hdr with
  | none => 3
  | some h => s.packageCode 1 h payHash

/-- FIRMWARE_VERIFIED (R101, R652): the boot ROM has read the directory (`dir`: the newest valid record's slot, its SEQ and its place) and checked the
slots in order; the first that passes starts, or the boot fails with the code of the slot in force. -/
def execFirmwareVerified (dir : Nat × Nat × Nat) (hdrA : Option (List (BitVec 8))) (payA : List (BitVec 8))
    (hdrB : Option (List (BitVec 8))) (payB : List (BitVec 8)) (journalOk burnOk : Bool) (s : State) :
    Host.Outcome State Fault Refusal :=
  if !s.boot.running || !s.boot.dramDone then .next s
  else
    let s : State := { s with boot := { s.boot with dirSeq := dir.2.1, dirRec := dir.2.2 % 2 } }
    let first := dir.1 % 2
    let code := fun (slot : Nat) => if slot = 0 then s.slotCode hdrA payA else s.slotCode hdrB payB
    let svn := fun (slot : Nat) => leAt ((if slot = 0 then hdrA else hdrB).getD []) 8 4
    if code first = 0 then .next (s.startCores first (svn first) false journalOk burnOk)
    else if code (1 - first) = 0 then .next (s.startCores (1 - first) (svn (1 - first)) true journalOk burnOk)
    else .next (s.bootStop (code first))

end Sys2Proof.Machine
end

