-- ==== Sys2Proof/Machine/Jtag.lean ====
section
/-! DEFINITION. The TAP (R660, R662 to R665): its instructions, the reach of debug, accesses through it. -/
namespace Sys2Proof.Machine

/-- Is the TAP powered: RUN to SLEEP (R662)? -/
def State.tapOn (s : State) : Bool := s.awake || s.power = pwrSLEEP

/-- Put an instruction in force. -/
def State.setIr (s : State) (ir : BitVec 8) : State := { s with tap := { s.tap with ir := ir } }

/-- What an instruction shifts out: status 0 done, 1 ENGINE_RUN, 2 outside its reach (assumption log 63). -/
def State.shiftOut (s : State) (status : Nat) (data : Nat) : State := s.emit (.debug status (BitVec.ofNat 64 data))

/-- An instruction that is not available acts as BYPASS (R663). -/
def State.bypass (s : State) : State := (s.setIr 0xFF#8).shiftOut 0 0

/-- JTAG_BYPASS (R663). -/
def execJtagBypass (s : State) : Host.Outcome State Fault Refusal := if s.tapOn then .next s.bypass else .next s

/-- JTAG_IDCODE (R662). -/
def execJtagIdcode (s : State) : Host.Outcome State Fault Refusal :=
  if !s.tapOn then .next s
  else .next ((s.setIr 0x01#8).shiftOut 0 (s.f HIF_REV.DIE_REV % 16 * 2 ^ 28 + s.variant.code * 2 ^ 12 + 0x1E7))

/-- JTAG_SAMPLE_PRELOAD (R663): cells are preloaded; what the sampled pins carry is the board's, a free value here. -/
def execJtagSamplePreload (cells : List Bool) (s : State) : Host.Outcome State Fault Refusal :=
  if !s.tapOn then .next s
  else
    let s := { s.setIr 0x02#8 with tap := { s.tap with ir := 0x02#8, cells := cells } }
    .next (s.shiftOut 0 s.free.toNat).drew

/-- EXTEST, CLAMP or HIGHZ is updated into the instruction register: a C4 (R664). -/
def State.pinTest (s : State) (ir : BitVec 8) : State := if s.tapOn then (s.setIr ir).report 0x15 4 0x1A else s

/-- JTAG_EXTEST (R664). -/
def execJtagExtest (s : State) : Host.Outcome State Fault Refusal := .next (s.pinTest 0x03#8)

/-- JTAG_CLAMP (R664). -/
def execJtagClamp (s : State) : Host.Outcome State Fault Refusal := .next (s.pinTest 0x04#8)

/-- JTAG_HIGHZ (R664). -/
def execJtagHighz (s : State) : Host.Outcome State Fault Refusal := .next (s.pinTest 0x05#8)

/-! ## Reach (R660, R665) -/

abbrev reachB : Nat := 1
abbrev reachO : Nat := 2
abbrev reachC : Nat := 3
abbrev reachP : Nat := 4

/-- The debug reach in the lifecycle, debug state and power state (R665). -/
def State.reach (s : State) : Nat :=
  if !s.tapOn then 0
  else if s.lc = lcBLANK then reachP
  else if s.lc = lcRETURNED then reachC
  else if s.lc = lcSECURED then reachB
  else if s.sessionLevel = 0 then reachB
  else if s.sessionLevel = 2 ∧ ¬ s.inRun then reachC else reachO

/-- The write of a register from the TAP. -/
def tapWr (off : Nat) (v : BitVec 32) : Wr := ⟨0x11, off, srcOf off, off, v, 0xFFFFFFFF#32⟩

/-- A read of a register from the TAP: SEC_CHAL[0] draws a challenge (R657); a block that is powered down, or a station or side
that the fuses disable, answers zero (R8, R39). -/
def State.tapRead (s : State) (off : Nat) : BitVec 32 × State :=
  match s.barred off with
  | some c => (0, s.reportAccess (srcOf off) c 1 0x11 off 0)
  | none =>
    let s := if off = SEC_CHAL.word 0 then s.drawChallenge else s
    (s.regRead off, s)

/-- What SEC_MBX reaches: the SEC block and the command path of OTP. -/
def secMbxReaches (off : Nat) : Bool :=
  decide (0x3200000 ≤ off ∧ off < 0x3400000) || [OTP_CMD.word, OTP_STATUS.word, OTP_DATA_LO.word, OTP_DATA_LO.word + 4].contains off

/-- JTAG_SEC_MBX (R663): a read or a write of a register it reaches. -/
def execJtagSecMbx (write : Bool) (off : Nat) (data : BitVec 32) (s : State) : Host.Outcome State Fault Refusal :=
  if !s.tapOn then .next s
  else
    let s := { s with tap := { s.tap with ir := 0x10#8, dr := BitVec.ofNat 64 (off * 2 ^ 32 + data.toNat) } }
    if !secMbxReaches off then .next (s.shiftOut 2 0)
    else if write then .next ((s.regWrite (tapWr off data)).shiftOut 0 0)
    else
      let r := s.tapRead off
      .next (r.2.shiftOut 0 r.1.toNat)

/-- Accesses of DBG_ACCESS, under numbers of the model's own (assumption log 63). -/
abbrev dbgRegRead : Nat := 0
abbrev dbgRegWrite : Nat := 1
abbrev dbgMemRead : Nat := 2
abbrev dbgMemWrite : Nat := 3
abbrev dbgHalt : Nat := 4
abbrev dbgRun : Nat := 5
abbrev dbgStep : Nat := 6

/-- Eight bytes of installed DRAM? -/
def State.dramHas (s : State) (addr : Nat) : Bool := decide (addr + 8 ≤ s.boot.installed * 2 ^ 20)

/-- A CONTROL action (R660): register writes, memory, and holding the control cores; a step leaves them held. -/
def State.dbgControl (s : State) (op : Nat) (addr data : BitVec 64) : State :=
  if op = dbgRegWrite then (s.regWrite (tapWr addr.toNat (data.setWidth 32))).shiftOut 0 0
  else if (op = dbgMemRead ∨ op = dbgMemWrite) ∧ ¬ s.dramHas addr.toNat then s.shiftOut 2 0
  else if op = dbgMemRead then s.shiftOut 0 (leNat (s.dram.bytes addr.toNat 8))
  else if op = dbgMemWrite then ({ s with dram := s.dram.putBytes addr.toNat (leBytes 8 data.toNat) } : State).shiftOut 0 0
  else if op = dbgHalt ∨ op = dbgStep then ({ s with sec := { s.sec with halted := true } } : State).shiftOut 0 0
  else if op = dbgRun then ({ s with sec := { s.sec with halted := false } } : State).shiftOut 0 0
  else s.shiftOut 2 0

/-- JTAG_DBG_ACCESS (R660, R663, R665): with reach O reads of registers; CONTROL actions with reach C, refused with ENGINE_RUN to a CONTROL session in RUN. -/
def execJtagDbgAccess (op : Nat) (addr data : BitVec 64) (s : State) : Host.Outcome State Fault Refusal :=
  if !s.tapOn then .next s
  else if s.reach < reachO then .next s.bypass
  else
    let s := s.setIr 0x20#8
    if op = dbgRegRead then
      let r := s.tapRead addr.toNat
      .next (r.2.shiftOut 0 r.1.toNat)
    else if reachC ≤ s.reach then .next (s.dbgControl op addr data)
    else .next (s.shiftOut (if s.sessionLevel = 2 then 1 else 2) 0)

/-- JTAG_OTP_ACCESS (R639, R660, R663): with reach P. -/
def execJtagOtpAccess (op addr : Nat) (data : BitVec 64) (s : State) : Host.Outcome State Fault Refusal :=
  if !s.tapOn then .next s
  else if s.reach < reachP then .next s.bypass
  else .next (((s.setIr 0x21#8).otpCmd op addr data).shiftOut 0 0)

end Sys2Proof.Machine
end

