-- ==== Sys2Proof/Machine/Line.lean ====
section
/-! DEFINITION. Line pages over the ring (R556 to R560, R91): parts, the schedule, late parts. -/
namespace Sys2Proof.Machine

/-- The part that a PART_COMMIT carries (R568). -/
def parsePart (dev : Nat) (b : List Byte) : CulPart :=
  let line := leAt b 16 8
  { dev := dev, pageId := BitVec.ofNat 64 (leAt b 0 8), stamp := leAt b 8 8, line := if line = 2 ^ 64 - 1 then none else some line,
    minOfs := leAt b 24 4, len := leAt b 28 4, gap := leAt b 32 2, speed := leAt b 34 1, last := bit (leAt b 35 1) 0 }

/-- Is a part the one that the master already holds (R559)? -/
def CulPart.same (a b : CulPart) : Bool := a.dev = b.dev && a.pageId = b.pageId && a.stamp = b.stamp

/-- CUL_PART_COMMIT (R556, R559): the part waits until its take time; one already held is no change. -/
def execCulPartCommit (east : Bool) (msg : List (BitVec 8)) (s : State) : Host.Outcome State Fault Refusal :=
  let r := s.culTake 0x20 east msg
  let s := r.2
  let x := parsePart (msgSrc msg) (msgBody msg)
  if !r.1 || !s.ringMaster || s.cul.parts.any (fun p => p.same x) || s.cul.lines.any (fun l => l.parts.any (fun p => p.same x)) then .next s
  else .next { s with cul := { s.cul with parts := s.cul.parts ++ [x] } }

/-- The part that is taken first: stamp order, ties to the lower index (R556). -/
def firstPart : List CulPart → Option CulPart
  | [] => none
  | p :: t => some (t.foldl (fun (a : CulPart) x => if x.stamp < a.stamp ∨ (x.stamp = a.stamp ∧ x.dev < a.dev) then x else a) p)

/-- Has a line page not yet ended: unclaimed, or its frame is still on the web? -/
def State.lineOpen (s : State) (l : LinePage) : Bool :=
  match l.tof with
  | none => true
  | some t => s.pages.frames.any (fun f => f.tof = t)

/-- Spoil this device's part of a line page with CASCADE_PART_MISSING (R91, R560): a C2 per part (R572). -/
def State.spoilPart (s : State) (id : BitVec 64) : State :=
  match s.pages.pages.find? (fun p => p.desc.pageId = id && p.active) with
  | none => s
  | some p => s.spoilPage p.seq 0x06 0x0F s.culIndex

/-- PAGE_SPOIL of a line page with CASCADE_PART_MISSING (R560, R568). -/
def State.sendSpoil (s : State) (id : BitVec 64) : State := s.culBroadcast 0x22 (leBytes 8 id.toNat ++ leBytes 1 6 ++ leBytes 7 0)

/-- A part is late (R91, R557, R558, R560): the line page is lost on every device. -/
def State.lateLine (s : State) (l : LinePage) : State :=
  let s := s.modLine l.pageId (fun x => { x with late := true })
  let s := s.sendSchedule l.pageId.toNat (l.tof.getD 0) (match l.tof with | some _ => l.latch | none => 0) l.pitch 1 0 l.frame
  (s.sendSpoil l.pageId).spoilPart l.pageId

/-- A part joins a claimed line page: its first latch line is computed again, and broadcast where it changes (R557, R558). -/
def State.joinLine (s : State) (l : LinePage) (t : Nat) (x : CulPart) : State :=
  let l2 : LinePage := { l with parts := l.parts ++ [x] }
  let rem := ((s.pages.frames.find? (fun f => f.tof = t)).map (fun f => f.remain)).getD 0
  let latch := l2.latchAt t - rem
  let s := s.modLine l.pageId (fun _ => { l2 with latch := latch })
  if latch = l.latch then s
  else
    let put : Frame → Frame := fun f => if f.tof = t && !f.latched then { f with firstLatch := latch } else f
    { s with pages := { s.pages with frames := s.pages.frames.map put } }.sendSchedule l.pageId.toNat t latch l.pitch 0 rem l.frame

/-- Take one part into the line schedule (R557); a part of a page that is late already is spoiled on its member too (R91, R560). -/
def State.takePart (s : State) (x : CulPart) : State :=
  match s.cul.lines.find? (fun l => l.pageId = x.pageId) with
  | none =>
    let fresh : LinePage := { pageId := x.pageId, parts := [x] }
    { s with cul := { s.cul with lines := s.cul.lines ++ [fresh] } }.claims
  | some l =>
    if !s.lineOpen l || l.parts.any (fun p => p.dev = x.dev) then
      let fresh : LinePage := { pageId := x.pageId, parts := [x] }
      let rest := s.cul.lines.filter (fun y => y.pageId ≠ x.pageId)
      { s with cul := { s.cul with lines := rest ++ [fresh] } }.claims
    else if l.late then (s.sendSpoil x.pageId).spoilPart x.pageId
    else if l.parts.any (fun p => p.len ≠ x.len ∨ p.gap ≠ x.gap) then s.lateLine l
    else match l.tof with
      | none => (s.modLine l.pageId (fun y => { y with parts := y.parts ++ [x] })).claims
      | some t =>
        let rem := ((s.pages.frames.find? (fun f => f.tof = t)).map (fun f => f.remain)).getD 0
        let latch := ({ l with parts := l.parts ++ [x] } : LinePage).latchAt t - rem
        if (x :: l.parts).all (fun p => decide (p.line.getD 0 + 1 ≤ latch)) then s.joinLine l t x else s.lateLine l

/-- CUL_PART_TAKE (R556, R557): 20 µs after its stamp the master takes a part. -/
def execCulPartTake (s : State) : Host.Outcome State Fault Refusal :=
  match firstPart s.cul.parts with
  | none => .next s
  | some x =>
    if !s.ringMaster || decide (s.now.toNat < x.stamp + 20000) then .next s
    else .next ({ s with cul := { s.cul with parts := s.cul.parts.filter (fun p => p ≠ x) } }.takePart x)

/-- Is a kept message the PART_COMMIT of a page? -/
def isPartOf (id : BitVec 64) (m : List Byte) : Bool := msgType m = 0x20 && leAt (msgBody m) 0 8 = id.toNat

/-- CUL_PART_RESEND (R559): a committed part that no SCHEDULE has named within 1 ms is sent again, with REPEAT. -/
def execCulPartResend (pageId : BitVec 64) (s : State) : Host.Outcome State Fault Refusal :=
  match s.cul.owed.find? (isPartOf pageId) with
  | none => .next s
  | some m =>
    if !s.ringMember || (s.partPage pageId).isNone || s.pages.frames.any (fun f => f.line = some pageId) then .next s
    else
      let b := msgBody m
      let s := { s with cul := { s.cul with owed := s.cul.owed.filter (fun x => !isPartOf pageId x) } }
      .next ((s.culSend 0x20 0 (b.take 35 ++ leBytes 1 (leAt b 35 1 ||| 2) ++ b.drop 36) true true).satInc CUL_ERR2.RESENT)

/-- Take a SCHEDULE: a new frame is laid down; one that is known gets its new first latch line (R557, R558). -/
def State.takeSchedule (s : State) (b : List Byte) : State :=
  let id := BitVec.ofNat 64 (leAt b 0 8)
  let t := leAt b 8 8
  let latch := leAt b 16 8
  let s := { s with cul := { s.cul with owed := s.cul.owed.filter (fun m => !isPartOf id m), frames := leAt b 32 4 } }
  if leAt b 29 1 = 1 then s
  else if s.pages.frames.any (fun f => f.tof = t) then
    let put : Frame → Frame := fun f => if f.tof = t && !f.latched then { f with firstLatch := latch } else f
    { s with pages := { s.pages with frames := s.pages.frames.map put } }
  else s.layFrame id t latch (leAt b 24 4) (leAt b 30 2)

/-- CUL_SCHEDULE (R558). -/
def execCulSchedule (east : Bool) (msg : List (BitVec 8)) (s : State) : Host.Outcome State Fault Refusal :=
  let r := s.culTake 0x21 east msg
  if r.1 && r.2.inRun then .next (r.2.takeSchedule (msgBody msg)) else .next r.2

/-- CUL_PAGE_SPOIL (R91, R560): the part of the page named is spoiled. -/
def execCulPageSpoil (east : Bool) (msg : List (BitVec 8)) (s : State) : Host.Outcome State Fault Refusal :=
  let r := s.culTake 0x22 east msg
  if r.1 && leAt (msgBody msg) 8 1 = 6 then .next (r.2.spoilPart (BitVec.ofNat 64 (leAt (msgBody msg) 0 8))) else .next r.2

end Sys2Proof.Machine
end

