-- ==== Sys2Proof/Machine/Dispatch.lean ====
section
/-! DEFINITION. One arm per command: each calls its meaning. -/
namespace Sys2Proof.Machine

/-- The effect of a command on everything but the queue. -/
def exec (i : Instr) (s : State) : Host.Outcome State Fault Refusal :=
  match i with
  | .registerWrite master off value high => Sys2Proof.Machine.execRegisterWrite master off value high s
  | .lowWordRead fn off wide => Sys2Proof.Machine.execLowWordRead fn off wide s
  | .reservedAccess master off write => Sys2Proof.Machine.execReservedAccess master off write s
  | .unsupportedAccess master off write => Sys2Proof.Machine.execUnsupportedAccess master off write s
  | .clockLoss domain => Sys2Proof.Machine.execClockLoss domain s
  | .coeSdoUpload index sub complete => Sys2Proof.Machine.execCoeSdoUpload index sub complete s
  | .coeSdoDownload index sub complete data => Sys2Proof.Machine.execCoeSdoDownload index sub complete data s
  | .coeSdoInformation data => Sys2Proof.Machine.execCoeSdoInformation data s
  | .sdoQueuedStart => Sys2Proof.Machine.execSdoQueuedStart s
  | .clockRelock domain => Sys2Proof.Machine.execClockRelock domain s
  | .pagePrint fn desc src => Sys2Proof.Machine.execPagePrint fn desc src s
  | .pageReissue fn desc => Sys2Proof.Machine.execPageReissue fn desc s
  | .pageRelease fn desc => Sys2Proof.Machine.execPageRelease fn desc s
  | .pageCancel fn desc => Sys2Proof.Machine.execPageCancel fn desc s
  | .descriptorInvalid fn desc => Sys2Proof.Machine.execDescriptorInvalid fn desc s
  | .firstLatch => Sys2Proof.Machine.execFirstLatch s
  | .stationLatch st => Sys2Proof.Machine.execStationLatch st s
  | .pageTof st => Sys2Proof.Machine.execPageTof st s
  | .pageLastLine st => Sys2Proof.Machine.execPageLastLine st s
  | .pageGapOpen st => Sys2Proof.Machine.execPageGapOpen st s
  | .feedRequest => Sys2Proof.Machine.execFeedRequest s
  | .sheetEdgeTimeout => Sys2Proof.Machine.execSheetEdgeTimeout s
  | .mbxUpload => Sys2Proof.Machine.execMbxUpload s
  | .mbxDownload => Sys2Proof.Machine.execMbxDownload s
  | .mbxUploadComplete => Sys2Proof.Machine.execMbxUploadComplete s
  | .mbxDownloadComplete => Sys2Proof.Machine.execMbxDownloadComplete s
  | .mbxGetOdList => Sys2Proof.Machine.execMbxGetOdList s
  | .mbxGetObjectDesc => Sys2Proof.Machine.execMbxGetObjectDesc s
  | .mbxGetEntryDesc => Sys2Proof.Machine.execMbxGetEntryDesc s
  | .mbxSegmentTimeout => Sys2Proof.Machine.execMbxSegmentTimeout s
  | .sqDoorbell fn tail => Sys2Proof.Machine.execSqDoorbell fn tail s
  | .sqServe => Sys2Proof.Machine.execSqServe s
  | .descriptorReadFailed fn how => Sys2Proof.Machine.execDescriptorReadFailed fn how s
  | .cqHeadWrite fn head => Sys2Proof.Machine.execCqHeadWrite fn head s
  | .backlogDrain fn => Sys2Proof.Machine.execBacklogDrain fn s
  | .cqCoalesceTimeout fn => Sys2Proof.Machine.execCqCoalesceTimeout fn s
  | .qEnable fn => Sys2Proof.Machine.execQEnable fn s
  | .qDisable fn => Sys2Proof.Machine.execQDisable fn s
  | .qPause fn => Sys2Proof.Machine.execQPause fn s
  | .qResume fn => Sys2Proof.Machine.execQResume fn s
  | .flrStart fn => Sys2Proof.Machine.execFlrStart fn s
  | .flrComplete fn => Sys2Proof.Machine.execFlrComplete fn s
  | .configRequest fn write off => Sys2Proof.Machine.execConfigRequest fn write off s
  | .perstAssert => Sys2Proof.Machine.execPerstAssert s
  | .linkDown hotReset => Sys2Proof.Machine.execLinkDown hotReset s
  | .linkUp width speed corrected => Sys2Proof.Machine.execLinkUp width speed corrected s
  | .msixUnmask fn vec => Sys2Proof.Machine.execMsixUnmask fn vec s
  | .d3hotEntry fn => Sys2Proof.Machine.execD3hotEntry fn s
  | .d0Return fn => Sys2Proof.Machine.execD0Return fn s
  | .perstDeassert => Sys2Proof.Machine.execPerstDeassert s
  | .chAssignWrite ch value => Sys2Proof.Machine.execChAssignWrite ch value s
  | .fnWinWrite fn value => Sys2Proof.Machine.execFnWinWrite fn value s
  | .chEnable ch => Sys2Proof.Machine.execChEnable ch s
  | .chDisable ch => Sys2Proof.Machine.execChDisable ch s
  | .chDoorbell ch tail => Sys2Proof.Machine.execChDoorbell ch tail s
  | .chAbort ch resume => Sys2Proof.Machine.execChAbort ch resume s
  | .chResume ch => Sys2Proof.Machine.execChResume ch s
  | .chDescriptorFetch ch => Sys2Proof.Machine.execChDescriptorFetch ch s
  | .chDescriptor ch desc => Sys2Proof.Machine.execChDescriptor ch desc s
  | .sipBurst ch data offs fail => Sys2Proof.Machine.execSipBurst ch data offs fail s
  | .descriptorComplete ch => Sys2Proof.Machine.execDescriptorComplete ch s
  | .barrierReadComplete ch ok => Sys2Proof.Machine.execBarrierReadComplete ch ok s
  | .spoolEnable => Sys2Proof.Machine.execSpoolEnable s
  | .spoolDisable => Sys2Proof.Machine.execSpoolDisable s
  | .driveReady d fits capacity => Sys2Proof.Machine.execDriveReady d fits capacity s
  | .driveReadyTimeout d => Sys2Proof.Machine.execDriveReadyTimeout d s
  | .spoolRecoveryDone => Sys2Proof.Machine.execSpoolRecoveryDone s
  | .nvmeCommandComplete id result => Sys2Proof.Machine.execNvmeCommandComplete id result s
  | .nvmeCommandTimeout id => Sys2Proof.Machine.execNvmeCommandTimeout id s
  | .driveFailed d => Sys2Proof.Machine.execDriveFailed d s
  | .epochRollover journalOk burnOk saltOk => Sys2Proof.Machine.execEpochRollover journalOk burnOk saltOk s
  | .sliceQuotaWrite fn direct value => Sys2Proof.Machine.execSliceQuotaWrite fn direct value s
  | .sliceTrim fn count => Sys2Proof.Machine.execSliceTrim fn count s
  | .sliceTrimDone fn => Sys2Proof.Machine.execSliceTrimDone fn s
  | .sliceEnum fn max => Sys2Proof.Machine.execSliceEnum fn max s
  | .sliceEnumDone fn => Sys2Proof.Machine.execSliceEnumDone fn s
  | .spoolLinkTrained d up => Sys2Proof.Machine.execSpoolLinkTrained d up s
  | .korJobGo slot flush close => Sys2Proof.Machine.execKorJobGo slot flush close s
  | .korJobFlush slot close => Sys2Proof.Machine.execKorJobFlush slot close s
  | .korJobClose slot => Sys2Proof.Machine.execKorJobClose slot s
  | .korJobAbort slot => Sys2Proof.Machine.execKorJobAbort slot s
  | .korJobWaiting slot => Sys2Proof.Machine.execKorJobWaiting slot s
  | .korJobDone slot ecc => Sys2Proof.Machine.execKorJobDone slot ecc s
  | .placementListLanded st => Sys2Proof.Machine.execPlacementListLanded st s
  | .directoryEntryRead st failed tag => Sys2Proof.Machine.execDirectoryEntryRead st failed tag s
  | .tileLoadComplete fn tile => Sys2Proof.Machine.execTileLoadComplete fn tile s
  | .tileLoadResume fn tile => Sys2Proof.Machine.execTileLoadResume fn tile s
  | .riskReevaluate => Sys2Proof.Machine.execRiskReevaluate s
  | .pinEnable entry value => Sys2Proof.Machine.execPinEnable entry value s
  | .pinDisable entry value => Sys2Proof.Machine.execPinDisable entry value s
  | .pinResident entry => Sys2Proof.Machine.execPinResident entry s
  | .furrowRelease st => Sys2Proof.Machine.execFurrowRelease st s
  | .furrowComplete flume ecc corrected => Sys2Proof.Machine.execFurrowComplete flume ecc corrected s
  | .furrowDataDeadline st => Sys2Proof.Machine.execFurrowDataDeadline st s
  | .furrowLate st => Sys2Proof.Machine.execFurrowLate st s
  | .flumeStall flume => Sys2Proof.Machine.execFlumeStall flume s
  | .redoStart => Sys2Proof.Machine.execRedoStart s
  | .flumeUnfence flume => Sys2Proof.Machine.execFlumeUnfence flume s
  | .flumeTestDone flume pass => Sys2Proof.Machine.execFlumeTestDone flume pass s
  | .stationTableWrite master off value => Sys2Proof.Machine.execStationTableWrite master off value s
  | .tableLogIdleApply st => Sys2Proof.Machine.execTableLogIdleApply st s
  | .predictorEvaluate => Sys2Proof.Machine.execPredictorEvaluate s
  | .encoderCount n a b => Sys2Proof.Machine.execEncoderCount n a b s
  | .webEncoderLost => Sys2Proof.Machine.execWebEncoderLost s
  | .pcEncoderLost st => Sys2Proof.Machine.execPcEncoderLost st s
  | .sweepTrigger st => Sys2Proof.Machine.execSweepTrigger st s
  | .bdPulse st => Sys2Proof.Machine.execBdPulse st s
  | .bdMissed st => Sys2Proof.Machine.execBdMissed st s
  | .lockLossTimeout st => Sys2Proof.Machine.execLockLossTimeout st s
  | .facetIdDone st => Sys2Proof.Machine.execFacetIdDone st s
  | .scanWindowOpen st => Sys2Proof.Machine.execScanWindowOpen st s
  | .zoneStart st zone => Sys2Proof.Machine.execZoneStart st zone s
  | .scanWindowClose st => Sys2Proof.Machine.execScanWindowClose st s
  | .classRequest master value => Sys2Proof.Machine.execClassRequest master value s
  | .classChangeStart => Sys2Proof.Machine.execClassChangeStart s
  | .classSettled => Sys2Proof.Machine.execClassSettled s
  | .classRampTimeout => Sys2Proof.Machine.execClassRampTimeout s
  | .pllLockStart pll => Sys2Proof.Machine.execPllLockStart pll s
  | .pllLockDeclared pll => Sys2Proof.Machine.execPllLockDeclared pll s
  | .pllLockLost pll => Sys2Proof.Machine.execPllLockLost pll s
  | .pllLockTimeout pll => Sys2Proof.Machine.execPllLockTimeout pll s
  | .pllRetry pll => Sys2Proof.Machine.execPllRetry pll s
  | .pllRelock pll => Sys2Proof.Machine.execPllRelock pll s
  | .blEnable bl => Sys2Proof.Machine.execBlEnable bl s
  | .blDisable bl => Sys2Proof.Machine.execBlDisable bl s
  | .blRetrain bl => Sys2Proof.Machine.execBlRetrain bl s
  | .blTrainAlign bl => Sys2Proof.Machine.execBlTrainAlign bl s
  | .blTrainPoll bl => Sys2Proof.Machine.execBlTrainPoll bl s
  | .blTrainTimeout bl => Sys2Proof.Machine.execBlTrainTimeout bl s
  | .linkPoll bl => Sys2Proof.Machine.execLinkPoll bl s
  | .sidebandTransaction bl => Sys2Proof.Machine.execSidebandTransaction bl s
  | .sidebandResponse bl data => Sys2Proof.Machine.execSidebandResponse bl data s
  | .sidebandTimeout bl => Sys2Proof.Machine.execSidebandTimeout bl s
  | .sidebandBusyRetry bl => Sys2Proof.Machine.execSidebandBusyRetry bl s
  | .routeWrite st value => Sys2Proof.Machine.execRouteWrite st value s
  | .routeExchangeApply => Sys2Proof.Machine.execRouteExchangeApply s
  | .offsetWrite st value => Sys2Proof.Machine.execOffsetWrite st value s
  | .calrefOkChange present err => Sys2Proof.Machine.execCalrefOkChange present err s
  | .monitorRead st => Sys2Proof.Machine.execMonitorRead st s
  | .tapCalMeasure st count => Sys2Proof.Machine.execTapCalMeasure st count s
  | .halfAdvanceWrite master value => Sys2Proof.Machine.execHalfAdvanceWrite master value s
  | .scanLinkLock side => Sys2Proof.Machine.execScanLinkLock side s
  | .scanLinkLockLoss side lanes => Sys2Proof.Machine.execScanLinkLockLoss side lanes s
  | .cisLine side lanes => Sys2Proof.Machine.execCisLine side lanes s
  | .inspectionResultComplete side => Sys2Proof.Machine.execInspectionResultComplete side s
  | .insAck side seq => Sys2Proof.Machine.execInsAck side seq s
  | .calWhite side => Sys2Proof.Machine.execCalWhite side s
  | .calChart side => Sys2Proof.Machine.execCalChart side s
  | .calCaptureDone side => Sys2Proof.Machine.execCalCaptureDone side s
  | .auditExport => Sys2Proof.Machine.execAuditExport s
  | .auditExportDone fail => Sys2Proof.Machine.execAuditExportDone fail s
  | .loopOff lp => Sys2Proof.Machine.execLoopOff lp s
  | .loopOpen lp => Sys2Proof.Machine.execLoopOpen lp s
  | .loopClose lp => Sys2Proof.Machine.execLoopClose lp s
  | .loopSample lp code ecc => Sys2Proof.Machine.execLoopSample lp code ecc s
  | .loopOutput lp late => Sys2Proof.Machine.execLoopOutput lp late s
  | .adcScanConversion ch code => Sys2Proof.Machine.execAdcScanConversion ch code s
  | .pwmCarrierPeriod c => Sys2Proof.Machine.execPwmCarrierPeriod c s
  | .polySearchShift st => Sys2Proof.Machine.execPolySearchShift st s
  | .axEnable ax => Sys2Proof.Machine.execAxEnable ax s
  | .axEnableComplete ax ta tb => Sys2Proof.Machine.execAxEnableComplete ax ta tb s
  | .axDisable ax => Sys2Proof.Machine.execAxDisable ax s
  | .axMoveAbs ax arm => Sys2Proof.Machine.execAxMoveAbs ax arm s
  | .axMoveRel ax arm => Sys2Proof.Machine.execAxMoveRel ax arm s
  | .axJogPos ax arm => Sys2Proof.Machine.execAxJogPos ax arm s
  | .axJogNeg ax arm => Sys2Proof.Machine.execAxJogNeg ax arm s
  | .axStop ax => Sys2Proof.Machine.execAxStop ax s
  | .axQstop ax => Sys2Proof.Machine.execAxQstop ax s
  | .axResume ax arm => Sys2Proof.Machine.execAxResume ax arm s
  | .axSetpos ax => Sys2Proof.Machine.execAxSetpos ax s
  | .axClear ax => Sys2Proof.Machine.execAxClear ax s
  | .axStepEvent ax => Sys2Proof.Machine.execAxStepEvent ax s
  | .axDeviationCheck ax => Sys2Proof.Machine.execAxDeviationCheck ax s
  | .axSettleCheck ax => Sys2Proof.Machine.execAxSettleCheck ax s
  | .axHoldTimeout ax => Sys2Proof.Machine.execAxHoldTimeout ax s
  | .chopThresholdCross ax phase => Sys2Proof.Machine.execChopThresholdCross ax phase s
  | .chopMixEnd ax phase => Sys2Proof.Machine.execChopMixEnd ax phase s
  | .chopMaxOnTimeout ax phase => Sys2Proof.Machine.execChopMaxOnTimeout ax phase s
  | .chopBlankingEnd ax phase atLevel => Sys2Proof.Machine.execChopBlankingEnd ax phase atLevel s
  | .turnoutRound => Sys2Proof.Machine.execTurnoutRound s
  | .taskAxGo ax => Sys2Proof.Machine.execTaskAxGo ax s
  | .taskAxStop ax => Sys2Proof.Machine.execTaskAxStop ax s
  | .taskAxQstop ax => Sys2Proof.Machine.execTaskAxQstop ax s
  | .taskAxCapture ax => Sys2Proof.Machine.execTaskAxCapture ax s
  | .taskLoopIndex lp => Sys2Proof.Machine.execTaskLoopIndex lp s
  | .taskEncCapture n => Sys2Proof.Machine.execTaskEncCapture n s
  | .taskTimerStart => Sys2Proof.Machine.execTaskTimerStart s
  | .taskLatPulse n => Sys2Proof.Machine.execTaskLatPulse n s
  | .taskTofCapture => Sys2Proof.Machine.execTaskTofCapture s
  | .taskSwSignal n => Sys2Proof.Machine.execTaskSwSignal n s
  | .taskAck tk n => Sys2Proof.Machine.execTaskAck tk n s
  | .taskConfigWrite tk source value => Sys2Proof.Machine.execTaskConfigWrite tk source value s
  | .swEventRaise bits => Sys2Proof.Machine.execSwEventRaise bits s
  | .timerExpire n => Sys2Proof.Machine.execTimerExpire n s
  | .webCompareArm n value => Sys2Proof.Machine.execWebCompareArm n value s
  | .webCompareFire n => Sys2Proof.Machine.execWebCompareFire n s
  | .latPortEnable p => Sys2Proof.Machine.execLatPortEnable p s
  | .latPortDisable p => Sys2Proof.Machine.execLatPortDisable p s
  | .latRescan p => Sys2Proof.Machine.execLatRescan p s
  | .latEnumSend p => Sys2Proof.Machine.execLatEnumSend p s
  | .latEnumReturn p frame => Sys2Proof.Machine.execLatEnumReturn p frame s
  | .latCycleStart p => Sys2Proof.Machine.execLatCycleStart p s
  | .latCyclicReturn p frame => Sys2Proof.Machine.execLatCyclicReturn p frame s
  | .latOimgWrite p node w value => Sys2Proof.Machine.execLatOimgWrite p node w value s
  | .latMbxRead p => Sys2Proof.Machine.execLatMbxRead p s
  | .latMbxWrite p => Sys2Proof.Machine.execLatMbxWrite p s
  | .latMbxReturn p frame => Sys2Proof.Machine.execLatMbxReturn p frame s
  | .latMbxTimeout p => Sys2Proof.Machine.execLatMbxTimeout p s
  | .latJoinSend p => Sys2Proof.Machine.execLatJoinSend p s
  | .latJoinReturn p frame => Sys2Proof.Machine.execLatJoinReturn p frame s
  | .fanDutyWrite fc duty => Sys2Proof.Machine.execFanDutyWrite fc duty s
  | .fanKickEnd fc rpm => Sys2Proof.Machine.execFanKickEnd fc rpm s
  | .fanRetry fc => Sys2Proof.Machine.execFanRetry fc s
  | .fanMeasure fc rpm => Sys2Proof.Machine.execFanMeasure fc rpm s
  | .fanTachLost fc => Sys2Proof.Machine.execFanTachLost fc s
  | .fanTachRecover fc => Sys2Proof.Machine.execFanTachRecover fc s
  | .fanClear fc => Sys2Proof.Machine.execFanClear fc s
  | .xcalStart => Sys2Proof.Machine.execXcalStart s
  | .xcalAbort => Sys2Proof.Machine.execXcalAbort s
  | .xcalCollect => Sys2Proof.Machine.execXcalCollect s
  | .xcalStepTimeout => Sys2Proof.Machine.execXcalStepTimeout s
  | .xcalTargetTimeout => Sys2Proof.Machine.execXcalTargetTimeout s
  | .xcalStartMsg east msg => Sys2Proof.Machine.execXcalStartMsg east msg s
  | .xcalFeatures east msg => Sys2Proof.Machine.execXcalFeatures east msg s
  | .xcalTargets east msg => Sys2Proof.Machine.execXcalTargets east msg s
  | .xcalReply east msg => Sys2Proof.Machine.execXcalReply east msg s
  | .xcalCommit east msg => Sys2Proof.Machine.execXcalCommit east msg s
  | .xcalAbandon east msg => Sys2Proof.Machine.execXcalAbandon east msg s
  | .culEnable on => Sys2Proof.Machine.execCulEnable on s
  | .culRestart => Sys2Proof.Machine.execCulRestart s
  | .culUnfold => Sys2Proof.Machine.execCulUnfold s
  | .culPortUp east => Sys2Proof.Machine.execCulPortUp east s
  | .culPortDown east lanes => Sys2Proof.Machine.execCulPortDown east lanes s
  | .culFoldReceived east => Sys2Proof.Machine.execCulFoldReceived east s
  | .culIndexSend => Sys2Proof.Machine.execCulIndexSend s
  | .culIndex east msg => Sys2Proof.Machine.execCulIndex east msg s
  | .culDelayReq east turn msg => Sys2Proof.Machine.execCulDelayReq east turn msg s
  | .culDelayRsp east msg => Sys2Proof.Machine.execCulDelayRsp east msg s
  | .culTimebaseSend => Sys2Proof.Machine.execCulTimebaseSend s
  | .culTimebase east wait msg => Sys2Proof.Machine.execCulTimebase east wait msg s
  | .culTimebaseLost => Sys2Proof.Machine.execCulTimebaseLost s
  | .culStatusSend => Sys2Proof.Machine.execCulStatusSend s
  | .culStatus east msg => Sys2Proof.Machine.execCulStatus east msg s
  | .culFault east msg => Sys2Proof.Machine.execCulFault east msg s
  | .culPartCommit east msg => Sys2Proof.Machine.execCulPartCommit east msg s
  | .culPartTake => Sys2Proof.Machine.execCulPartTake s
  | .culPartResend pageId => Sys2Proof.Machine.execCulPartResend pageId s
  | .culSchedule east msg => Sys2Proof.Machine.execCulSchedule east msg s
  | .culPageSpoil east msg => Sys2Proof.Machine.execCulPageSpoil east msg s
  | .culOdReq east msg => Sys2Proof.Machine.execCulOdReq east msg s
  | .culOdRsp east msg => Sys2Proof.Machine.execCulOdRsp east msg s
  | .culTunnelTimeout => Sys2Proof.Machine.execCulTunnelTimeout s
  | .culFoldNotice east msg => Sys2Proof.Machine.execCulFoldNotice east msg s
  | .culUnfoldCheck => Sys2Proof.Machine.execCulUnfoldCheck s
  | .culUnfoldMsg east msg => Sys2Proof.Machine.execCulUnfoldMsg east msg s
  | .culUnwrap => Sys2Proof.Machine.execCulUnwrap s
  | .culMessageForward east good msg => Sys2Proof.Machine.execCulMessageForward east good msg s
  | .alStateRequest target station mbxOk sm2 sm3 sync0 siiOk => Sys2Proof.Machine.execAlStateRequest target station mbxOk sm2 sm3 sync0 siiOk s
  | .sm2Watchdog => Sys2Proof.Machine.execSm2Watchdog s
  | .rxpdoApply data => Sys2Proof.Machine.execRxpdoApply data s
  | .sync0Edge dcTime fresh => Sys2Proof.Machine.execSync0Edge dcTime fresh s
  | .sm3ReadComplete => Sys2Proof.Machine.execSm3ReadComplete s
  | .dcOffsetMeasure dcTime => Sys2Proof.Machine.execDcOffsetMeasure dcTime s
  | .foeWrite name password packet data last => Sys2Proof.Machine.execFoeWrite name password packet data last s
  | .foeRead name => Sys2Proof.Machine.execFoeRead name s
  | .mailboxUnsupported protocol => Sys2Proof.Machine.execMailboxUnsupported protocol s
  | .ectLinkChange port up => Sys2Proof.Machine.execEctLinkChange port up s
  | .storeParameters => Sys2Proof.Machine.execStoreParameters s
  | .restoreDefaults => Sys2Proof.Machine.execRestoreDefaults s
  | .calSetWrite payload => Sys2Proof.Machine.execCalSetWrite payload s
  | .calStoreComplete ok => Sys2Proof.Machine.execCalStoreComplete ok s
  | .powerStateRequest value => Sys2Proof.Machine.execPowerStateRequest value s
  | .powerStepReadyToRun => Sys2Proof.Machine.execPowerStepReadyToRun s
  | .powerStepRunToReady => Sys2Proof.Machine.execPowerStepRunToReady s
  | .powerStepReadyToStandby => Sys2Proof.Machine.execPowerStepReadyToStandby s
  | .powerStepStandbyToReady => Sys2Proof.Machine.execPowerStepStandbyToReady s
  | .powerStepStandbyToSleep => Sys2Proof.Machine.execPowerStepStandbyToSleep s
  | .powerStepSleepToStandby => Sys2Proof.Machine.execPowerStepSleepToStandby s
  | .powerStepSleepToHibernate => Sys2Proof.Machine.execPowerStepSleepToHibernate s
  | .powerStepHibernateToOff => Sys2Proof.Machine.execPowerStepHibernateToOff s
  | .wakeNFall => Sys2Proof.Machine.execWakeNFall s
  | .dcWakeTimer => Sys2Proof.Machine.execDcWakeTimer s
  | .powerOnReset strap testMode siiOk => Sys2Proof.Machine.execPowerOnReset strap testMode siiOk s
  | .pmicPowerGood enable => Sys2Proof.Machine.execPmicPowerGood enable s
  | .pmicEnableTimeout enable => Sys2Proof.Machine.execPmicEnableTimeout enable s
  | .pmicRetry => Sys2Proof.Machine.execPmicRetry s
  | .vddAonLow => Sys2Proof.Machine.execVddAonLow s
  | .pmbusPoll ok fault => Sys2Proof.Machine.execPmbusPoll ok fault s
  | .paceEvaluate slack vread => Sys2Proof.Machine.execPaceEvaluate slack vread s
  | .vddCoreUndervolt => Sys2Proof.Machine.execVddCoreUndervolt s
  | .railMonitorReading codes => Sys2Proof.Machine.execRailMonitorReading codes s
  | .railPgDrop k => Sys2Proof.Machine.execRailPgDrop k s
  | .railPgRise k => Sys2Proof.Machine.execRailPgRise k s
  | .railBlankEnd k => Sys2Proof.Machine.execRailBlankEnd k s
  | .seqProgramWrite n value => Sys2Proof.Machine.execSeqProgramWrite n value s
  | .seqEnd => Sys2Proof.Machine.execSeqEnd s
  | .seqEnable => Sys2Proof.Machine.execSeqEnable s
  | .seqDisable => Sys2Proof.Machine.execSeqDisable s
  | .seqWait => Sys2Proof.Machine.execSeqWait s
  | .seqWaitpg expired => Sys2Proof.Machine.execSeqWaitpg expired s
  | .seqCheck => Sys2Proof.Machine.execSeqCheck s
  | .seqJump => Sys2Proof.Machine.execSeqJump s
  | .seqJumpif => Sys2Proof.Machine.execSeqJumpif s
  | .seqLimitTimeout => Sys2Proof.Machine.execSeqLimitTimeout s
  | .thermalSensorRound temps => Sys2Proof.Machine.execThermalSensorRound temps s
  | .weirGraceExpiry => Sys2Proof.Machine.execWeirGraceExpiry s
  | .thermalRestart => Sys2Proof.Machine.execThermalRestart s
  | .sysResetAssert => Sys2Proof.Machine.execSysResetAssert s
  | .sysResetRelease => Sys2Proof.Machine.execSysResetRelease s
  | .dramTrained ok channel installed => Sys2Proof.Machine.execDramTrained ok channel installed s
  | .firmwareVerified dir hdrA payA hdrB payB journalOk burnOk => Sys2Proof.Machine.execFirmwareVerified dir hdrA payA hdrB payB journalOk burnOk s
  | .otpReadS addr => Sys2Proof.Machine.execOtpReadS addr s
  | .otpWriteS addr => Sys2Proof.Machine.execOtpWriteS addr s
  | .otpSetP addr => Sys2Proof.Machine.execOtpSetP addr s
  | .otpOperationDone bad err => Sys2Proof.Machine.execOtpOperationDone bad err s
  | .lcRequestSecured key => Sys2Proof.Machine.execLcRequestSecured key s
  | .lcRequestReturned key => Sys2Proof.Machine.execLcRequestReturned key s
  | .lcTransitionDone bad => Sys2Proof.Machine.execLcTransitionDone bad s
  | .svnCommit => Sys2Proof.Machine.execSvnCommit s
  | .tokenRevoke count => Sys2Proof.Machine.execTokenRevoke count s
  | .challengeRead => Sys2Proof.Machine.execChallengeRead s
  | .tokenSubmit token => Sys2Proof.Machine.execTokenSubmit token s
  | .tokenCheckDone => Sys2Proof.Machine.execTokenCheckDone s
  | .sessionClose => Sys2Proof.Machine.execSessionClose s
  | .sessionExpired => Sys2Proof.Machine.execSessionExpired s
  | .trngHealthFail => Sys2Proof.Machine.execTrngHealthFail s
  | .trngRecover => Sys2Proof.Machine.execTrngRecover s
  | .jtagBypass => Sys2Proof.Machine.execJtagBypass s
  | .jtagIdcode => Sys2Proof.Machine.execJtagIdcode s
  | .jtagSamplePreload cells => Sys2Proof.Machine.execJtagSamplePreload cells s
  | .jtagExtest => Sys2Proof.Machine.execJtagExtest s
  | .jtagClamp => Sys2Proof.Machine.execJtagClamp s
  | .jtagHighz => Sys2Proof.Machine.execJtagHighz s
  | .jtagSecMbx write off data => Sys2Proof.Machine.execJtagSecMbx write off data s
  | .jtagDbgAccess op addr data => Sys2Proof.Machine.execJtagDbgAccess op addr data s
  | .jtagOtpAccess op addr data => Sys2Proof.Machine.execJtagOtpAccess op addr data s
  | .sumpReport => Sys2Proof.Machine.execSumpReport s
  | .sumpReportLost => Sys2Proof.Machine.execSumpReportLost s
  | .sumpRearm => Sys2Proof.Machine.execSumpRearm s
  | .sumpPop => Sys2Proof.Machine.execSumpPop s
  | .sumpRelease => Sys2Proof.Machine.execSumpRelease s
  | .sumpRecovery => Sys2Proof.Machine.execSumpRecovery s
  | .selfCheckCompare flt hdg => Sys2Proof.Machine.execSelfCheckCompare flt hdg s
  | .heartbeatKick => Sys2Proof.Machine.execHeartbeatKick s
  | .heartbeatTimeout => Sys2Proof.Machine.execHeartbeatTimeout s
  | .aliveToggle => Sys2Proof.Machine.execAliveToggle s
  | .interlockChange cover isOpen => Sys2Proof.Machine.execInterlockChange cover isOpen s
  | .tachEdge enc => Sys2Proof.Machine.execTachEdge enc s
  | .speedGateTimeout st => Sys2Proof.Machine.execSpeedGateTimeout st s
  | .emitterOntimeExceeded st emitter => Sys2Proof.Machine.execEmitterOntimeExceeded st emitter s
  | .dutyEvaluate onTimes => Sys2Proof.Machine.execDutyEvaluate onTimes s
  | .hdgLimitWrite off value => Sys2Proof.Machine.execHdgLimitWrite off value s
  | .recordFlashWrite ok => Sys2Proof.Machine.execRecordFlashWrite ok s
  | .recordRead seq => Sys2Proof.Machine.execRecordRead seq s
  | .recordClear value => Sys2Proof.Machine.execRecordClear value s
  | .recordClearDone => Sys2Proof.Machine.execRecordClearDone s

end Sys2Proof.Machine
end

