-- ==== Sys2Proof/Machine/Tick.lean ====
section
/-! DEFINITION. What an idle step does (assumption log 4): one nanosecond of the timebase passes. -/
namespace Sys2Proof.Machine

/-- A member's timebase is steered toward the master's at 200 ppm at most (R550): one nanosecond in 5,000 until the offset is taken up. -/
def State.steerTick (s : State) : State :=
  if s.cul.steer = 0 then { s with now := s.now + 1 }
  else
    let acc := s.cul.steerAcc + 200
    if acc < 1000000 then { s with now := s.now + 1, cul := { s.cul with steerAcc := acc } }
    else if 0 < s.cul.steer then { s with now := s.now + 2, cul := { s.cul with steer := s.cul.steer - 1, steerAcc := acc - 1000000 } }
    else { s with now := s.now, cul := { s.cul with steer := s.cul.steer + 1, steerAcc := acc - 1000000 } }

/-- The web line count of a member that takes it from the ring runs on at the master's speed between messages (R551). -/
def State.coast (s : State) : State :=
  if s.f SCN_WEB_CFG.SRC ≠ 1 || !s.ringMember || s.cul.tbSeq.isNone then s
  else
    let pos := s.scn.pos + s.cul.tbSpeed * 12 * 2 ^ 28 / (127 * 1000000000)
    let sub := max s.scn.sub (pos / 16777216).toNat
    { s with scn := { s.scn with pos := pos, sub := sub, webLine := sub / 16 } }

/-- The seconds left of a session (SEC_DBG_STATUS.REMAIN_S). -/
def State.remain (s : State) : State :=
  if s.f SEC_DBG_STATUS.LEVEL = 0 then s
  else s.setF SEC_DBG_STATUS.REMAIN_S (min 65535 (s.sec.life - (s.now.toNat - s.sec.opened) / 1000000000))

/-- A whole second has passed: OPSEC counts outside HIBERNATE and OFF (R700). -/
def State.secondTick (s : State) : State :=
  if s.now.toNat % 1000000000 = 0 then (s.wrapInc EVR_OPSEC.SECONDS).remain else s

/-- One nanosecond. In HIBERNATE and OFF no clock of the fabric runs. -/
def State.tick (s : State) : State := if s.power = pwrHIBERNATE ∨ s.power = pwrOFF then s else s.steerTick.coast.secondTick

end Sys2Proof.Machine
end

