-- ==== Sys2Proof/WellFormed.lean ====
section
/-! DEFINITION. Which commands a sender can form: every index within the numbers the spec gives the blocks, every structure of bytes of its length. The
meanings leave the state unchanged at an index outside them (assumption log 1), so nothing rests on a command being well formed. -/
namespace Sys2Proof

/-- Is every index within the number of things the spec gives (R6 and the block chapters): functions 16, stations 12, Siphon channels 64, drives 4,
codec slots 8, pin entries 16, Flumes 16, encoder inputs 28, PLLs 16, sides 2, loops 64, scanned ADC channels 32, carriers 32, axes 24, phases 2, task inputs 256,
lateral ports 4, fans 8, rails 32. -/
def Instr.wellFormed : Instr → Bool
  -- offsets are within BAR0 of the PF, and an access is of a whole word or, aligned, of two
  | .registerWrite _ off _ high => decide (off < 0x4000000) && decide (off % (if high.isSome then 8 else 4) = 0)
  | .stationTableWrite _ off _ => decide (off < 0x4000000) && decide (off % 4 = 0)
  | .hdgLimitWrite off _ | .jtagSecMbx _ off _ => decide (off < 0x4000000) && decide (off % 4 = 0)
  | .lowWordRead fn off wide => decide (fn < 16) && decide (off < 0x4000000) && decide (off % (if wide then 8 else 4) = 0)
  | .reservedAccess master off _ => decide (master < 16) && decide (off < 0x4000000) && decide (off % 4 = 0)
  | .unsupportedAccess master off _ => decide (master < 16) && decide (off < 0x4000000)
  | .classRequest _ _ | .halfAdvanceWrite _ _ => true
  -- clock domains
  | .clockLoss d | .clockRelock d => decide (d < 24)
  -- dictionary
  | .coeSdoUpload index sub _ | .coeSdoDownload index sub _ _ => decide (index < 0x10000) && decide (sub < 256)
  | .coeSdoInformation _ | .sdoQueuedStart => true
  -- page descriptors of 64 bytes (R50)
  | .pagePrint fn desc _ => decide (fn < 16) && decide (desc.length = 64)
  | .pageReissue fn desc | .pageRelease fn desc | .pageCancel fn desc | .descriptorInvalid fn desc => decide (fn < 16) && decide (desc.length = 64)
  -- functions and their queues
  | .sqDoorbell fn _ | .cqHeadWrite fn _ | .fnWinWrite fn _ | .sliceQuotaWrite fn _ _ | .sliceTrim fn _ | .sliceEnum fn _ => decide (fn < 16)
  | .backlogDrain fn | .cqCoalesceTimeout fn | .qEnable fn | .qDisable fn | .qPause fn | .qResume fn | .flrStart fn
  | .flrComplete fn | .d3hotEntry fn | .d0Return fn | .sliceTrimDone fn | .sliceEnumDone fn => decide (fn < 16)
  | .descriptorReadFailed fn _ => decide (fn < 16)
  | .configRequest fn _ off => decide (fn < 16) && decide (off < 4096)
  | .msixUnmask fn vec => decide (fn < 16) && decide (vec < 2048)
  | .linkDown _ => true
  | .linkUp width speed _ => [1, 2, 4, 8, 16].contains width && decide (1 ≤ speed) && decide (speed ≤ 5)
  -- Siphon channels, with descriptors of 64 bytes (R153)
  | .chAssignWrite ch _ | .chDoorbell ch _ | .chAbort ch _ | .barrierReadComplete ch _ => decide (ch < 64)
  | .chEnable ch | .chDisable ch | .chResume ch | .chDescriptorFetch ch | .descriptorComplete ch => decide (ch < 64)
  | .chDescriptor ch desc => decide (ch < 64) && desc.all (fun d => d.length = 64)
  | .sipBurst ch data _ _ => decide (ch < 64) && decide (data.length ≤ 4096)
  -- spool
  | .driveReady d _ _ | .spoolLinkTrained d _ => decide (d < 4)
  | .driveReadyTimeout d | .driveFailed d => decide (d < 4)
  | .nvmeCommandComplete _ _ | .nvmeCommandTimeout _ | .epochRollover _ _ _ => true
  -- codec
  | .korJobGo slot _ _ | .korJobFlush slot _ | .korJobDone slot _ => decide (slot < 8)
  | .korJobClose slot | .korJobAbort slot | .korJobWaiting slot => decide (slot < 8)
  -- composer and Flumes
  | .directoryEntryRead st _ _ => decide (st < 12)
  | .tileLoadComplete fn tile => decide (fn < 16) && decide (tile < 0x40000)
  | .tileLoadResume fn tile => decide (fn < 16) && decide (tile < 0x40000)
  | .pinEnable entry _ | .pinDisable entry _ => decide (entry < 16)
  | .pinResident entry => decide (entry < 16)
  | .furrowComplete flume _ _ | .flumeTestDone flume _ => decide (flume < 16)
  | .flumeStall flume | .flumeUnfence flume => decide (flume < 16)
  -- stations
  | .stationLatch st | .pageTof st | .pageLastLine st | .pageGapOpen st | .placementListLanded st | .furrowRelease st | .furrowDataDeadline st
  | .furrowLate st | .tableLogIdleApply st | .pcEncoderLost st | .sweepTrigger st | .bdPulse st | .bdMissed st | .lockLossTimeout st | .facetIdDone st
  | .scanWindowOpen st | .scanWindowClose st | .monitorRead st | .polySearchShift st | .speedGateTimeout st => decide (st < 12)
  | .routeWrite st _ | .offsetWrite st _ | .tapCalMeasure st _ => decide (st < 12)
  | .zoneStart st zone => decide (st < 12) && decide (zone < 32)
  | .emitterOntimeExceeded st e => decide (st < 12) && decide (e < 72)
  -- PLLs and beam-link ports
  | .pllLockStart p | .pllLockDeclared p | .pllLockLost p | .pllLockTimeout p => decide (p < 16)
  | .pllRetry p | .pllRelock p => decide (p < 12)
  | .blEnable b | .blDisable b | .blRetrain b | .blTrainAlign b | .blTrainPoll b | .blTrainTimeout b | .linkPoll b | .sidebandTransaction b
  | .sidebandTimeout b | .sidebandBusyRetry b => decide (b < 12)
  | .sidebandResponse b _ => decide (b < 12)
  | .calrefOkChange _ _ => true
  -- inspection
  | .scanLinkLock side | .inspectionResultComplete side | .calWhite side | .calChart side | .calCaptureDone side => decide (side < 2)
  | .scanLinkLockLoss side _ | .insAck side _ => decide (side < 2)
  | .cisLine side lanes => decide (side < 2) && decide (lanes.length = 4)
  | .auditExportDone _ => true
  -- loops, encoders
  | .loopOff lp | .loopOpen lp | .loopClose lp | .taskLoopIndex lp => decide (lp < 64)
  | .loopSample lp _ _ | .loopOutput lp _ => decide (lp < 64)
  | .adcScanConversion ch _ => decide (ch < 32)
  | .pwmCarrierPeriod c => decide (c < 32)
  | .encoderCount n _ _ => decide (n < 28)
  | .taskEncCapture n | .tachEdge n => decide (n < 28)
  -- axes
  | .axEnable ax | .axDisable ax | .axStop ax | .axQstop ax | .axSetpos ax | .axClear ax | .axStepEvent ax | .axDeviationCheck ax | .axSettleCheck ax
  | .axHoldTimeout ax | .taskAxGo ax | .taskAxStop ax | .taskAxQstop ax | .taskAxCapture ax => decide (ax < 24)
  | .axEnableComplete ax ta tb => decide (ax < 24) && decide (ta.length = 16) && decide (tb.length = 16)
  | .axMoveAbs ax _ | .axMoveRel ax _ | .axJogPos ax _ | .axJogNeg ax _ | .axResume ax _ => decide (ax < 24)
  | .chopThresholdCross ax ph | .chopMixEnd ax ph | .chopMaxOnTimeout ax ph => decide (ax < 24) && decide (ph < 2)
  | .chopBlankingEnd ax ph _ => decide (ax < 24) && decide (ph < 2)
  -- turnout
  | .taskLatPulse i => decide (i < 8)
  | .taskSwSignal i => decide (i < 48)
  | .taskAck tk n => decide (tk < 256) && decide (n < 256)
  | .taskConfigWrite tk _ _ => decide (tk < 256)
  | .swEventRaise _ => true
  | .timerExpire i => decide (i < 4)
  | .webCompareArm i _ => decide (i < 8)
  | .webCompareFire i => decide (i < 8)
  -- lateral ports and fans
  | .latPortEnable p | .latPortDisable p | .latRescan p | .latEnumSend p | .latCycleStart p | .latMbxRead p | .latMbxWrite p | .latMbxTimeout p
  | .latJoinSend p => decide (p < 4)
  | .latEnumReturn p _ | .latCyclicReturn p _ | .latMbxReturn p _ | .latJoinReturn p _ => decide (p < 4)
  | .latOimgWrite p node w _ => decide (p < 4) && decide (node < 256) && decide (w < 16)
  | .fanDutyWrite fc _ | .fanKickEnd fc _ | .fanMeasure fc _ => decide (fc < 8)
  | .fanRetry fc | .fanTachLost fc | .fanTachRecover fc | .fanClear fc => decide (fc < 8)
  -- field network
  | .alStateRequest target _ _ _ _ _ _ => [1, 2, 3, 4, 8].contains target
  | .mailboxUnsupported protocol => decide (protocol < 16)
  | .ectLinkChange port _ => decide (port < 2)
  | .rxpdoApply _ | .sync0Edge _ _ | .dcOffsetMeasure _ | .foeWrite _ _ _ _ _ | .foeRead _ | .calSetWrite _ | .calStoreComplete _ => true
  -- power
  | .powerStateRequest value => decide (value ≤ 7)
  | .pmicPowerGood e | .pmicEnableTimeout e => decide (e < 4)
  | .paceEvaluate slack _ => decide (slack.length = 20)
  | .railMonitorReading codes => decide (codes.length = 32)
  | .railPgDrop k | .railPgRise k | .railBlankEnd k => decide (k < 32)
  | .seqProgramWrite i _ => decide (i < 64)
  | .powerOnReset _ _ _ | .pmbusPoll _ _ | .seqWaitpg _ | .thermalSensorRound _ | .dramTrained _ _ _ | .firmwareVerified _ _ _ _ _ _ _ => true
  -- OTP, security, JTAG
  | .otpReadS addr | .otpWriteS addr | .otpSetP addr => decide (addr < 0x10000)
  | .lcRequestSecured key | .lcRequestReturned key => decide (key < 256)
  | .tokenRevoke count => decide (count < 0x10000)
  | .otpOperationDone _ _ | .lcTransitionDone _ | .tokenSubmit _ | .tokenCheckDone | .jtagSamplePreload _ | .jtagDbgAccess _ _ _
  | .jtagOtpAccess _ _ _ => true
  -- safety and records
  | .interlockChange cover _ => decide (cover < 4)
  | .dutyEvaluate onTimes => decide (onTimes.length = 12)
  | .selfCheckCompare _ _ | .recordFlashWrite _ | .recordRead _ | .recordClear _ => true
  -- ring
  | .xcalStartMsg _ _ | .xcalFeatures _ _ | .xcalTargets _ _ | .xcalReply _ _ | .xcalCommit _ _ | .xcalAbandon _ _ | .culEnable _ | .culPortUp _
  | .culPortDown _ _ | .culFoldReceived _ | .culIndex _ _ | .culDelayReq _ _ _ | .culDelayRsp _ _ | .culTimebase _ _ _ | .culStatus _ _ | .culFault _ _
  | .culPartCommit _ _ | .culPartResend _ | .culSchedule _ _ | .culPageSpoil _ _ | .culOdReq _ _ | .culOdRsp _ _ | .culFoldNotice _ _
  | .culUnfoldMsg _ _ | .culMessageForward _ _ _ => true
  -- commands without operands
  | .firstLatch | .feedRequest | .sheetEdgeTimeout | .mbxUpload | .mbxDownload | .mbxUploadComplete | .mbxDownloadComplete | .mbxGetOdList
  | .mbxGetObjectDesc | .mbxGetEntryDesc | .mbxSegmentTimeout | .sqServe | .perstAssert | .perstDeassert | .spoolEnable | .spoolDisable
  | .spoolRecoveryDone | .riskReevaluate | .redoStart | .predictorEvaluate | .webEncoderLost | .classChangeStart | .classSettled | .classRampTimeout
  | .routeExchangeApply | .auditExport | .turnoutRound | .taskTimerStart | .taskTofCapture | .xcalStart | .xcalAbort | .xcalCollect | .xcalStepTimeout
  | .xcalTargetTimeout | .culRestart | .culUnfold | .culIndexSend | .culTimebaseSend | .culTimebaseLost | .culStatusSend | .culPartTake
  | .culTunnelTimeout | .culUnfoldCheck | .culUnwrap | .sm2Watchdog | .sm3ReadComplete | .storeParameters | .restoreDefaults | .powerStepReadyToRun
  | .powerStepRunToReady | .powerStepReadyToStandby | .powerStepStandbyToReady | .powerStepStandbyToSleep | .powerStepSleepToStandby
  | .powerStepSleepToHibernate | .powerStepHibernateToOff | .wakeNFall | .dcWakeTimer | .pmicRetry | .vddAonLow | .vddCoreUndervolt | .seqEnd
  | .seqEnable | .seqDisable | .seqWait | .seqCheck | .seqJump | .seqJumpif | .seqLimitTimeout | .weirGraceExpiry | .thermalRestart | .sysResetAssert
  | .sysResetRelease | .svnCommit | .challengeRead | .sessionClose | .sessionExpired | .trngHealthFail | .trngRecover | .jtagBypass | .jtagIdcode
  | .jtagExtest | .jtagClamp | .jtagHighz | .sumpReport | .sumpReportLost | .sumpRearm | .sumpPop | .sumpRelease | .sumpRecovery | .heartbeatKick
  | .heartbeatTimeout | .aliveToggle | .recordClearDone => true

/-- The station a command names, where it names one. -/
def Instr.station? : Instr → Option Nat
  | .stationLatch st => some st
  | .pageTof st => some st
  | .pageLastLine st => some st
  | .pageGapOpen st => some st
  | .placementListLanded st => some st
  | .directoryEntryRead st _ _ => some st
  | .furrowRelease st => some st
  | .furrowDataDeadline st => some st
  | .furrowLate st => some st
  | .tableLogIdleApply st => some st
  | .pcEncoderLost st => some st
  | .sweepTrigger st => some st
  | .bdPulse st => some st
  | .bdMissed st => some st
  | .lockLossTimeout st => some st
  | .facetIdDone st => some st
  | .scanWindowOpen st => some st
  | .zoneStart st _ => some st
  | .scanWindowClose st => some st
  | .routeWrite st _ => some st
  | .offsetWrite st _ => some st
  | .monitorRead st => some st
  | .tapCalMeasure st _ => some st
  | .polySearchShift st => some st
  | .speedGateTimeout st => some st
  | .emitterOntimeExceeded st _ => some st
  | _ => none

end Sys2Proof
end

