-- ==== Sys2Proof/Safety.lean ====
section
/-! DEFINITION. The terms in which claims are stated: a safe run, the commands that may write a byte of the DRAM, the tile cache or the spool, and what
it is for two states to agree on registers. -/
namespace Sys2Proof

/-- The commands whose meaning may write, move or discard a byte of the DRAM, the tile cache or the spool. No other command's meaning does. -/
def Instr.mayStore : Instr → Bool
  -- register, object and debug accesses, through which a job starts, an extent is dropped or a byte is written
  | .registerWrite _ _ _ _ | .coeSdoUpload _ _ _ | .coeSdoDownload _ _ _ _ | .coeSdoInformation _ | .sdoQueuedStart | .mbxUpload | .mbxDownload
  | .mbxUploadComplete | .mbxDownloadComplete | .mbxGetOdList | .mbxGetObjectDesc | .mbxGetEntryDesc | .rxpdoApply _ | .calSetWrite _ | .culOdReq _ _
  | .storeParameters | .restoreDefaults | .jtagSecMbx _ _ _ | .jtagDbgAccess _ _ _ => true
  -- transfers, drives and slices
  | .sipBurst _ _ _ _ | .descriptorComplete _ | .barrierReadComplete _ _ | .nvmeCommandComplete _ _ | .sliceQuotaWrite _ _ _ | .sliceTrim _ _
  | .nvmeCommandTimeout _ | .driveReady _ _ _ | .driveReadyTimeout _ | .driveFailed _ | .spoolLinkTrained _ _ => true
  -- pinned tiles and their copies
  | .pinEnable _ _ | .pinDisable _ _ | .tileLoadComplete _ _ | .sumpRecovery => true
  -- codec output and the audit export
  | .korJobGo _ _ _ | .korJobFlush _ _ | .korJobClose _ | .korJobAbort _ | .korJobWaiting _ | .korJobDone _ _ | .auditExportDone _ => true
  -- resets, power and the C3 and C4 that spoil open spool copies
  | .powerOnReset _ _ _ | .powerStepStandbyToSleep | .powerStepSleepToHibernate | .thermalSensorRound _ | .vddAonLow | .sysResetAssert
  | .firmwareVerified _ _ _ _ _ _ _ | .sumpReport | .sumpReportLost => true
  | _ => false

namespace Machine

/-- Every byte of the three memories the model holds is the same in both states. -/
def State.SameMemory (s t : State) : Prop :=
  (∀ a, t.dram.getD 0 a = s.dram.getD 0 a) ∧ (∀ a, t.tile.getD 0 a = s.tile.getD 0 a) ∧ (∀ a, t.spool.getD 0 a = s.spool.getD 0 a)

/-- Every register word outside the given offsets is the same in both states. -/
def State.SameWords (s t : State) (except : List Nat) : Prop := ∀ off, off ∉ except → t.word off = s.word off

/-- The register words that a command may change, for the commands that change few: none for the others. -/
def writtenWords : Instr → Option (List Nat)
  | .reservedAccess _ _ _ | .unsupportedAccess _ _ _ | .heartbeatKick | .jtagBypass | .jtagIdcode | .jtagSamplePreload _ | .swEventRaise _ => some []
  | .cqHeadWrite fn _ => some [HIF_CQ_HEAD.word fn, HIF_Q_STATUS.word fn]
  | .fnWinWrite fn _ => some [SIP_FN_WIN.word fn, SIP_STATUS.word]
  | .adcScanConversion ch _ => some [LPE_ADC_VAL.word ch]
  | .calrefOkChange _ _ => some [CLK_STATUS.word, CLK_CALREF.word]
  | .auditExport => some [INS_AUDIT_CTRL.word, INS_STATUS.word]
  | .taskEncCapture n => some [TRN_TK_STATE.word (160 + n), TRN_ENC_CAP.word n]
  | .taskAxCapture ax => some [TRN_TK_STATE.word (72 + ax), MOT_AX_CAP_POS.word ax, MOT_AX_CAP_ENC.word ax]
  | .taskLoopIndex lp => some [TRN_TK_STATE.word (96 + lp)]
  | .taskAck tk _ => some [TRN_STATUS.word, TRN_TK_STATE.word tk]
  | .taskConfigWrite tk _ _ => some [TRN_TK_SRC.word tk, TRN_TK_CFG.word tk, TRN_TK_STATE.word tk]
  | .webCompareArm i _ => some [TRN_WC_HI.word i]
  | .latOimgWrite p node w _ => some [LAT_OIMG.word p node w, LPE_WR_ERR.word]
  | .ectLinkChange _ _ => some [ECT_STATUS.word, ECT_ERR.word, msixPba 0 + 56]
  | .powerStateRequest _ => some [PWR_STATE.word, CUL_STATUS.word]
  | .seqProgramWrite i _ => some [PWR_SEQ_PROG.word i, PWR_STATUS.word]
  | .trngRecover => some [SEC_STATUS.word]
  | .sumpRearm => some [FLT_STATUS.word, FLT_FE_INFO.word]
  | _ => none

/-- A run of `n` steps that is safe: every step answers a next state, and every state of it is canonical. -/
def State.safeRun : Nat → State → Prop
  | 0, s => s.Canonical
  | n + 1, s => s.Canonical ∧ ∃ t, step s = .next t ∧ t.safeRun n

end Machine
end Sys2Proof
end

