-- ==== Sys2Proof/Certificates/Slice0/Obligations.lean ====
section
/-! DEFINITION. The statements about the device, for the provers. A statement's docstring names the rules of spec/ it rests on; where it rests on a choice
of the model's, it names the entry of the assumption log. -/
section
open Sys2Proof Sys2Proof.Machine

/-- A step runs the command at the front of the queue, on the state with the rest of the queue. -/
def Obligations.StepRunsFrontCommand : Prop :=
  ∀ (s : State) (c : Instr) (rest : List Instr), s.pending = c :: rest → step s = exec c { s with pending := rest }

/-- With no command waiting a step lets a nanosecond pass (the model's own choice, assumption log 4): the queue stays empty, and in HIBERNATE and OFF
nothing changes. -/
def Obligations.IdleStepTicks : Prop :=
  ∀ (s : State), s.pending = [] →
    step s = .next s.tick ∧ s.tick.pending = [] ∧ ((s.power = pwrHIBERNATE ∨ s.power = pwrOFF) → s.tick = s)

/-- The state after reset: no command waits and none was answered, no register, memory byte or report is there that reset does not give, and the
registers read the reset values of their tables. The values the spec does not state, and the 0 of an unlisted byte, are the model's choice (assumption
log 2 and log 6). -/
def Obligations.ResetState : Prop :=
  State.reset.Canonical ∧ State.reset.pending = [] ∧ State.reset.out = [] ∧ State.reset.waiting = [] ∧
  (∀ off, State.reset.word off = resetWord State.reset.variant off) ∧ (∀ a, State.reset.dram.getD 0 a = 0)

/-- No command stops the device: each one of the table has a next state in every state, whatever its operands. -/
def Obligations.EveryCommandRuns : Prop := ∀ (c : Instr) (s : State), ∃ t, exec c s = .next t

/-- Every step keeps the canonical form of the registers, the working copies of shadowed registers and the three memories. -/
def Obligations.StepsKeepCanonical : Prop := ∀ (s t : State), s.Canonical → step s = .next t → t.Canonical

/-- Every run from a canonical state is safe: it never stops, and every state of it is canonical. -/
def Obligations.RunsAreSafe : Prop := ∀ (n : Nat) (s : State), s.Canonical → s.safeRun n

/-- The reset state begins a safe run of any length. -/
def Obligations.ResetRunsSafely : Prop := ∀ n, State.reset.safeRun n

/-- A step takes one command off the queue and adds none: commands are taken first in, first out. -/
def Obligations.StepsTakeOneCommand : Prop := ∀ (s t : State), step s = .next t → t.pending = s.pending.tail

/-- What the device has sent stays sent, in order, and no free value is drawn twice: a step only appends to the one and raises the other. -/
def Obligations.SentStaysSent : Prop := ∀ (s t : State), step s = .next t → s.out <+: t.out ∧ s.freeCtr ≤ t.freeCtr

/-- A command that is none of those listed as storing leaves every byte of the DRAM, of the tile cache and of the spool as it was. -/
def Obligations.OthersLeaveMemory : Prop :=
  ∀ (c : Instr) (s t : State), c.mayStore = false → exec c s = .next t → s.SameMemory t

/-- Time alone leaves every byte of the three memories as it was (the model's idle step, assumption log 4). -/
def Obligations.IdleLeavesMemory : Prop := ∀ (s : State), s.SameMemory s.tick

/-- Accesses of BAR0 (R15, R17, R37, R38): a read of a low word answers it and copies the high word into the function's shadow, which the next read of
the high word answers; a 64-bit read is the two 32-bit reads, low word first; an undefined offset reads zero, ignores a write and reports a C0 with
cause 0x01; an access of a wrong size or alignment is answered Unsupported Request and reports a C0 with cause 0x02; a write of a defined register of
a block that is up is judged by that register's block, and a 64-bit write is the two 32-bit writes, low word first. -/
def Obligations.AccessesComplete : Prop :=
  (∀ (s : State) (fn off o src : Nat), s.fnOpen fn = true → off % 4 = 0 →
    (if fn = 0 then (some off, srcOf off) else s.vfTarget fn off) = (some o, src) → o < 0x4000000 → s.barred o = none → isLowWord o = true →
    exec (.lowWordRead fn off false) s =
      .next ((s.setFn fn { s.fn fn with shadow := some (o + 4, s.regRead (o + 4)) }).emit (.completion 0 (s.regRead o)))) ∧
  (∀ (s : State) (fn off o src : Nat) (v : BitVec 32), s.fnOpen fn = true → off % 4 = 0 →
    (if fn = 0 then (some off, srcOf off) else s.vfTarget fn off) = (some o, src) → o < 0x4000000 → s.barred o = none → isLowWord o = false →
    (s.fn fn).shadow = some (o, v) →
    exec (.lowWordRead fn off false) s = .next ((s.setFn fn { s.fn fn with shadow := none }).emit (.completion 0 v))) ∧
  (∀ (s t : State) (fn off : Nat), s.fnOpen fn = true → off % 8 = 0 → exec (.lowWordRead fn off false) s = .next t →
    exec (.lowWordRead fn off true) s = .next ((t.readAt fn (off + 4)).2.emit (.completion 0 (t.readAt fn (off + 4)).1))) ∧
  (∀ (s : State) (fn off : Nat), s.fnOpen fn = true → s.undefinedAt fn off = true →
    exec (.reservedAccess fn off none) s =
      .next ((s.reportAccess (if fn = 0 then srcOf off else (s.vfTarget fn off).2) 0x01 1 fn off 0).emit (.completion 0 0))) ∧
  (∀ (s : State) (fn off : Nat) (v : BitVec 32), s.fnOpen fn = true → s.undefinedAt fn off = true →
    exec (.reservedAccess fn off (some v)) s =
      .next (s.reportAccess (if fn = 0 then srcOf off else (s.vfTarget fn off).2) 0x01 2 fn off v.toNat)) ∧
  (∀ (s : State) (fn off : Nat), s.fnOpen fn = true →
    exec (.unsupportedAccess fn off false) s =
      .next ((s.reportAccess (if fn = 0 then srcOf off else (s.vfTarget fn off).2) 0x02 1 fn off 0).emit (.completion 1 0)) ∧
    exec (.unsupportedAccess fn off true) s =
      .next (s.reportAccess (if fn = 0 then srcOf off else (s.vfTarget fn off).2) 0x02 2 fn off 0)) ∧
  (∀ (s : State) (off : Nat) (r : RegRow) (v : BitVec 32), s.fnOpen 0 = true → off % 4 = 0 → findReg off = some r → s.barred off = none →
    off ≠ HIF_MBX_CTRL.word → s.marks = [] →
    exec (.registerWrite 0 off v none) s =
      .next ((s.wrBlock ⟨0, off, srcOf off, off, v, 0xFFFFFFFF#32⟩ r).recountAll ⟨0, off, srcOf off, off, v, 0xFFFFFFFF#32⟩ r |>.mark mkSoft
        (off * 2 ^ 32 + r.configBits.toNat))) ∧
  (∀ (s t : State) (fn off : Nat) (v h : BitVec 32), fn ≤ 15 → s.fnOpen fn = true → off % 8 = 0 → exec (.registerWrite fn off v none) s = .next t →
    exec (.registerWrite fn off v (some h)) s = .next (t.writeAt fn (off + 4) h))

/-- What a write does field by field (R17): in a register without behaviour of its own, written in a round in which nothing else touches it, RW and
open RWO fields take the written value, RO, WO and RC fields keep theirs, a W1C field loses the bits written with 1, a W1S field gains them, and every
other register keeps its word. -/
def Obligations.WriteFollowsAccessCodes : Prop :=
  ∀ (s : State) (off : Nat) (r : RegRow) (v : BitVec 32), s.Canonical → s.fnOpen 0 = true → off % 4 = 0 → findReg off = some r →
    s.barred off = none → off ≠ HIF_MBX_CTRL.word → s.marks = [] →
    s.wrBlock ⟨0, off, srcOf off, off, v, 0xFFFFFFFF#32⟩ r = s.plain ⟨0, off, srcOf off, off, v, 0xFFFFFFFF#32⟩ r →
    ∃ t, exec (.registerWrite 0 off v none) s = .next t ∧ (∀ a, a ≠ off → t.word a = s.word a) ∧
      ∀ g ∈ r.fields, ∀ b, g.lo ≤ b → b < g.lo + g.w → (t.word off).getLsbD b =
        (match g.acc with
        | .rw | .rwo => v.getLsbD b
        | .ro | .wo | .rc => (s.word off).getLsbD b
        | .w1c => (s.word off).getLsbD b && !v.getLsbD b
        | .w1s => (s.word off).getLsbD b || v.getLsbD b)

/-- Clocks (R25): the loss of each island clock is reported once with the class of its row of R25, and its return ends what it caused: a pixel clock
of a printing station C3 and of an idle one C1, DRAM and the PCIe endpoint C3 (the endpoint's loss takes the host link down and resets its functions),
beam link, timebase and REFCLK C4, the PCIe root port C1 when no spool write is open, every other monitored clock C1. -/
def Obligations.ClocksComplete : Prop :=
  (∀ (s : State) (d : Nat), d < 12 → s.clkRuns d = true → d ∉ s.scn.clkLost →
    exec (.clockLoss d) s =
      .next (((({ s with scn := { s.scn with clkLost := d :: s.scn.clkLost } } : State).clkReport d (if s.printing d then 3 else 1)).pllSearch d).modPll d
        (fun p => { p with attempts := 0 }))) ∧
  (∀ (s : State), s.clkRuns 23 = true → 23 ∉ s.scn.clkLost →
    exec (.clockLoss 23) s =
      .next ((({ s with scn := { s.scn with clkLost := 23 :: s.scn.clkLost } } : State).setF CLK_STATUS.REFCLK_OK 0).clkReport 23 4)) ∧
  (∀ (s : State) (d : Nat), d = 12 ∨ d = 22 → s.clkRuns d = true → d ∉ s.scn.clkLost →
    exec (.clockLoss d) s = .next (({ s with scn := { s.scn with clkLost := d :: s.scn.clkLost } } : State).clkReport d 4)) ∧
  (∀ (s : State), s.clkRuns 15 = true → 15 ∉ s.scn.clkLost →
    exec (.clockLoss 15) s = .next (({ s with scn := { s.scn with clkLost := 15 :: s.scn.clkLost } } : State).clkReport 15 3)) ∧
  (∀ (s u : State), s.clkRuns 13 = true → 13 ∉ s.scn.clkLost →
    u = ({ s with scn := { s.scn with clkLost := 13 :: s.scn.clkLost } } : State).clkReport 13 3 →
    exec (.clockLoss 13) s =
      .next (if u.b HIF_LINK_STATUS.UP then ({ (u.satInc HIF_LINK_CNT.DL_DOWN).linkOff with hif := { u.hif with clkDown := true } } : State).hostReset
        else { u with hif := { u.hif with clkDown := true } })) ∧
  (∀ (s : State), s.clkRuns 14 = true → 14 ∉ s.scn.clkLost → s.spl.copies.any Copy.isOpen = false →
    exec (.clockLoss 14) s =
      .next (({ (({ s with scn := { s.scn with clkLost := 14 :: s.scn.clkLost } } : State).clkReport 14 1) with
        spl := { s.spl with rootDown := true } } : State).refreshRefusal)) ∧
  (∀ (s : State), s.clkRuns 14 = true → 14 ∉ s.scn.clkLost → s.spl.copies.any Copy.isOpen = true →
    exec (.clockLoss 14) s =
      .next (({ s with scn := { s.scn with clkLost := 14 :: s.scn.clkLost }, spl := { s.spl with rootDown := true } } : State).refreshRefusal)) ∧
  (∀ (s : State) (d : Nat), 16 ≤ d → d ≠ 22 → d ≠ 23 → s.clkRuns d = true → d ∉ s.scn.clkLost →
    exec (.clockLoss d) s = .next (({ s with scn := { s.scn with clkLost := d :: s.scn.clkLost } } : State).clkReport d 1)) ∧
  (∀ (s : State), 23 ∈ s.scn.clkLost →
    exec (.clockRelock 23) s =
      .next (({ s with scn := { s.scn with clkLost := s.scn.clkLost.filter (fun d => d ≠ 23) } } : State).setF CLK_STATUS.REFCLK_OK 1)) ∧
  (∀ (s : State), 14 ∈ s.scn.clkLost →
    exec (.clockRelock 14) s =
      .next (({ s with scn := { s.scn with clkLost := s.scn.clkLost.filter (fun d => d ≠ 14) }, spl := { s.spl with rootDown := false } } : State).refreshRefusal)) ∧
  (∀ (s : State) (d : Nat), d ≠ 14 → d ≠ 23 → d ∈ s.scn.clkLost →
    exec (.clockRelock d) s = .next { s with scn := { s.scn with clkLost := s.scn.clkLost.filter (fun e => e ≠ d) } })

/-- The dictionary server (R43, R44, R592): an SDO transfer that arrives with the server running and free is carried out at once; one that arrives
while another runs waits behind those already waiting; the oldest waiting one starts when the server is free. -/
def Obligations.SdoTransfersComplete : Prop :=
  (∀ (s : State) (index sub : Nat) (whole : Bool), s.coeOpen = true → s.serverRuns = true → s.sdoBusy = false → s.hif.sdoWait = [] →
    exec (.coeSdoUpload index sub whole) s = .next (s.sdoServe (.coe (.upload index sub whole)))) ∧
  (∀ (s : State) (index sub : Nat) (whole : Bool) (data : List (BitVec 8)), s.coeOpen = true → s.serverRuns = true → s.sdoBusy = false →
    s.hif.sdoWait = [] →
    exec (.coeSdoDownload index sub whole data) s = .next (s.sdoServe (.coe (.download index sub whole data)))) ∧
  (∀ (s : State) (data : List (BitVec 8)), s.coeOpen = true → s.serverRuns = true → s.sdoBusy = false → s.hif.sdoWait = [] →
    exec (.coeSdoInformation data) s = .next (s.sdoServe (.coe (.info data)))) ∧
  (∀ (s : State) (index sub : Nat) (whole : Bool), s.coeOpen = true → s.sdoBusy = true →
    exec (.coeSdoUpload index sub whole) s =
      .next { s with hif := { s.hif with sdoWait := s.hif.sdoWait ++ [.coe (.upload index sub whole)] } }) ∧
  (∀ (s : State) (r : SdoReq) (rest : List SdoReq), s.hif.sdoWait = r :: rest → s.serverRuns = true → s.sdoBusy = false →
    exec .sdoQueuedStart s = .next (({ s with hif := { s.hif with sdoWait := rest } } : State).sdoServe r))

/-- Descriptors (R52, R53, R61, R76, R85): a PRINT that passes the checks of R53 frees the page it replaces, reserves its spool copy and is committed;
a REISSUE commits the held page again; a RELEASE frees a page in its final state and is kept for one that is not, whose pending automatic reprint it
withdraws (log 97); a CANCEL withdraws a page with reason 0x06; a descriptor that fails a check is refused with that check's code, one with a bad
CHECK with 0x24 and one with a bad opcode with 0x25. -/
def Obligations.DescriptorsComplete : Prop :=
  (∀ (s : State) (fn : Nat) (desc : List (BitVec 8)) (src : Option (List (BitVec 8))), s.reading fn = true → (parsePage desc).opcode = 1 →
    descCheck (s.entryRead fn) fn (parsePage desc) (src.map (parseSource (stationList (parsePage desc).stations).length)) = none →
    exec (.pagePrint fn desc src) s =
      .next ((if (parsePage desc).noSpool then
                (match (s.entryRead fn).findPage fn (parsePage desc).pageId with
                | some p => (((s.entryRead fn).freeCopy fn (parsePage desc).pageId).freeAudits fn (parsePage desc).pageId).dropPage p.seq
                | none => s.entryRead fn)
              else (match (s.entryRead fn).findPage fn (parsePage desc).pageId with
                | some p => (((s.entryRead fn).freeCopy fn (parsePage desc).pageId).freeAudits fn (parsePage desc).pageId).dropPage p.seq
                | none => s.entryRead fn).newCopy fn (parsePage desc)
                  ((src.map (parseSource (stationList (parsePage desc).stations).length)).getD [])).acceptPage fn
        (parsePage desc)
        { fn := fn, desc := parsePage desc, src := (src.map (parseSource (stationList (parsePage desc).stations).length)).getD [],
          last := (parsePage desc).last })) ∧
  (∀ (s : State) (fn c : Nat) (desc : List (BitVec 8)) (src : Option (List (BitVec 8))), s.reading fn = true → (parsePage desc).opcode = 1 →
    descCheck (s.entryRead fn) fn (parsePage desc) (src.map (parseSource (stationList (parsePage desc).stations).length)) = some c →
    exec (.pagePrint fn desc src) s = .next ((s.entryRead fn).refuse fn (parsePage desc) c)) ∧
  (∀ (s : State) (fn : Nat) (desc : List (BitVec 8)) (p : Page), s.reading fn = true → (parsePage desc).opcode = 2 →
    descCheck (s.entryRead fn) fn (parsePage desc) none = none → (s.entryRead fn).namedPage fn (parsePage desc) = some p →
    exec (.pageReissue fn desc) s =
      .next ((if ((s.entryRead fn).findPage fn (parsePage desc).pageId).isSome then (s.entryRead fn).dropPage p.seq else s.entryRead fn).acceptPage fn
        (parsePage desc)
        { p with last := (parsePage desc).last, reissued := true, auto := false, spoil := none, latchedSt := 0, tofSt := 0, doneSt := 0, verdicts := [],
                 feedReq := false, releaseReq := false, muted := false, flr := false, heard := false })) ∧
  (∀ (s : State) (fn : Nat) (desc : List (BitVec 8)) (p : Page), s.reading fn = true → (parsePage desc).opcode = 3 →
    descCheck (s.entryRead fn) fn (parsePage desc) none = none → (s.entryRead fn).namedPage fn (parsePage desc) = some p →
    exec (.pageRelease fn desc) s =
      .next (if p.isFinal then ((s.entryRead fn).accept fn (parsePage desc)).releaseNow { p with muted := false }
             else if p.auto && (p.phase = .waiting || p.phase = .claimed) then
               (((((s.entryRead fn).accept fn (parsePage desc)).modPage p.seq (fun q => { q with releaseReq := true, heard := true })).withdraw p.seq
                 0x06).claims.syncQueue fn)
             else ((s.entryRead fn).accept fn (parsePage desc)).modPage p.seq (fun q => { q with releaseReq := true, heard := true }))) ∧
  (∀ (s : State) (fn : Nat) (desc : List (BitVec 8)) (p : Page), s.reading fn = true → (parsePage desc).opcode = 4 →
    descCheck (s.entryRead fn) fn (parsePage desc) none = none → (s.entryRead fn).namedPage fn (parsePage desc) = some p →
    exec (.pageCancel fn desc) s =
      .next ((((s.entryRead fn).accept fn (parsePage desc)).withdraw p.seq 0x06).claims.syncQueue fn)) ∧
  (∀ (s : State) (fn : Nat) (desc : List (BitVec 8)), s.reading fn = true → (parsePage desc).checkOk = false →
    exec (.descriptorInvalid fn desc) s = .next ((s.entryRead fn).refuse fn (parsePage desc) 0x24)) ∧
  (∀ (s : State) (fn : Nat) (desc : List (BitVec 8)), s.reading fn = true → (parsePage desc).checkOk = true →
    (parsePage desc).opcode = 0 ∨ 5 ≤ (parsePage desc).opcode →
    exec (.descriptorInvalid fn desc) s = .next ((s.entryRead fn).refuse fn (parsePage desc) 0x25))

/-- A committed page goes down the web (R46, R64, R66, R77): a frame whose first latch line passes with no page on it is blank and latches; a page's
frame latches and raises PAGE_LATCH, each station latches it, raises PAGE_TOF when the top-of-form reaches it (status 0x02 at the first) and PAGE_END
when the last line has passed it; the first latch of a page that is not final is reported with status 0x01, and an inspected page whose last line has
passed every station is PRINTED. -/
def Obligations.PageProgressComplete : Prop :=
  (∀ (s u : State), s.sweepFrames = u → u.leaving = false → u.blankDue = true → exec .firstLatch s = .next ((u.blankFrame.event 153).claims)) ∧
  (∀ (s u w : State) (f : Frame) (p : Page), s.sweepFrames = u → u.leaving = false → u.blankDue = false → u.nextLatch = some f →
    f.firstLatch ≤ u.scn.webLine → u.pages.frames.find? (fun g => g.tof = f.tof) = some f →
    (∀ q, f.page.bind u.page? = some q → ((u.cmp.judged.get? q.seq).any (fun j => j.2) && q.phase = .claimed) = false) →
    w = ({ u with pages := { u.pages with frames := u.pages.frames.map (fun g => if g.tof = f.tof then { g with latched := true } else g) } } : State).event
      153 →
    f.page.bind w.page? = some p →
    exec .firstLatch s =
      .next ((if p.isFinal then w.modPage p.seq (fun q => if q.isFinal then q else { q with phase := .latched })
              else ((w.modPage p.seq (fun q => if q.isFinal then q else { q with phase := .latched })).insFirstLatch f p).pageEvent p 0x01 0
                ((w.firstStation (stationList p.desc.stations)).getD 0)).claims)) ∧
  (∀ (s : State) (st : Nat) (f : Frame) (p : Page), s.frameAt st (·.latchedSt) = some (f, p) → s.topAt f st ≤ s.lineAt st + 2048 → p.desc.format ≠ 3 →
    exec (.stationLatch st) s = .next ((s.modPage p.seq (fun q => { q with latchedSt := markSt q.latchedSt st })).insStationLatch p st)) ∧
  (∀ (s : State) (st : Nat) (f : Frame) (p : Page), s.frameAt st (·.latchedSt) = some (f, p) → s.topAt f st ≤ s.lineAt st + 2048 → p.desc.format = 3 →
    s.firstStation (stationList p.desc.stations) = some st →
    exec (.stationLatch st) s =
      .next (((s.wrapInc CMP_PAGES.COUNT).modPage p.seq (fun q => { q with latchedSt := markSt q.latchedSt st })).insStationLatch p st)) ∧
  (∀ (s u : State) (st : Nat) (f : Frame) (p : Page), s.frameAt st (·.tofSt) = some (f, p) → s.topAt f st ≤ s.lineAt st →
    u = ((s.modPage p.seq (fun q => { q with tofSt := markSt q.tofSt st })).insPageTof p st).event (104 + st) →
    exec (.pageTof st) s =
      .next (if u.firstStation (stationList p.desc.stations) = some st ∧ ¬ p.isFinal then u.pageEvent p 0x02 0 st else u)) ∧
  (∀ (s : State) (st : Nat) (f : Frame) (p : Page), s.frameAt st (·.doneSt) = some (f, p) → s.topAt f st + f.len ≤ s.lineAt st →
    p.desc.inspected = true → p.isFinal = false →
    exec (.pageLastLine st) s =
      .next (if (stationList p.desc.stations).any (fun u => !(markSt p.doneSt st).getLsbD u) then
               (s.modPage p.seq (fun q => { q with doneSt := markSt p.doneSt st })).event (116 + st)
             else ((((((s.modPage p.seq (fun q => { q with doneSt := markSt p.doneSt st })).event (116 + st)).modFrame p.seq
               (fun g => { g with page := none, blank := true })).sendFeatures p.desc.pageId
                 (s.ins.sweepSide.any (fun i => p.desc.inspect.getLsbD i))).modPage p.seq (fun q => { q with phase := .printed })).pageEvent p 0x03 0)))

/-- Sheets (R92, R94): the sheet of the oldest committed page is asked for with FEED_REQUEST once the gap after the sheet before it is left, and a
sheet whose edge does not come within its window is a C3. -/
def Obligations.SheetsComplete : Prop :=
  (∀ (s : State) (p : Page), s.ringMember = false → s.ringMaster = false → s.pages.pages.find? (fun p => p.phase = .waiting && !p.feedReq) = some p →
    s.sheetMode = true → s.inRun = true → s.wantsClass p = none → s.settled = true → s.feedDue = true →
    exec .feedRequest s =
      .next (({ s.modPage p.seq (fun q => { q with feedReq := true }) with
        pages := { (s.modPage p.seq (fun q => { q with feedReq := true })).pages with
          sheetReq := (s.modPage p.seq (fun q => { q with feedReq := true })).pages.sheetReq ++ [(p.seq, s.scn.webLine)] } } : State).event 152)) ∧
  (∀ (s : State) (x : Nat × Nat) (t : List (Nat × Nat)), s.ringMaster = false → s.pages.sheetReq = x :: t → s.sheetMode = true → s.edgeMissed x.2 = true →
    exec .sheetEdgeTimeout s = .next (({ s with pages := { s.pages with sheetReq := t } } : State).report 0x01 3 0x0F))

/-- Queues (R105, R106, R109, R113, R115, R118, R121): enabling a queue zeroes its pointers and makes it RUNNING, disabling an idle one makes it
DISABLED, and each is refused where its sizes or its pages forbid it; a doorbell that moves the tail forward within the ring is taken, one beyond the
ring or backward puts the queue in ERROR; a head write is taken only forward, up to the tail; a failed descriptor read puts the queue in ERROR with
code 3, an uncorrectable one (R143) counting in HIF_AER_CNT too. -/
def Obligations.QueuesComplete : Prop :=
  (∀ (s : State) (fn : Nat), s.fnOpen fn = true → s.qState fn = qDISABLED → s.f HIF_DEV_STATE.STATE ≠ 2 → 4 ≤ s.f (HIF_SQ_SIZE.LOG2 fn) →
    s.f (HIF_SQ_SIZE.LOG2 fn) ≤ 12 → 6 ≤ s.f (HIF_CQ_SIZE.LOG2 fn) → s.f (HIF_CQ_SIZE.LOG2 fn) ≤ 16 →
    ∀ u : State, u = ((((((((s.setF (HIF_SQ_HEAD.HEAD fn) 0).setF (HIF_SQ_TAIL.TAIL fn) 0).setF (HIF_CQ_HEAD.HEAD fn) 0).setF (HIF_CQ_TAIL.TAIL fn) 0).setF
        (HIF_CQ_TAIL.PHASE fn) 1).setF (HIF_Q_CTRL.ENABLE fn) 1).setF (HIF_Q_STATUS.STATE fn) qRUNNING).setF (HIF_Q_STATUS.ERR_CODE fn) 0).setF
        (HIF_Q_STATUS.PAUSE_CAUSE fn) 0 →
      exec (.qEnable fn) s = .next ((u.setFn fn { u.fn fn with seq := 0, unsig := 0, also := 0 }).syncQueue fn)) ∧
  (∀ (s : State) (fn : Nat), s.fnOpen fn = true → s.qState fn ≠ qDISABLED → s.activePages fn = 0 → (s.fn fn).backlog = [] →
    ∀ u : State, u = ((s.setF (HIF_Q_CTRL.ENABLE fn) 0).setF (HIF_Q_STATUS.STATE fn) qDISABLED).setF (HIF_Q_STATUS.PAUSE_CAUSE fn) 0 →
      exec (.qDisable fn) s =
        .next (((if s.hif.fetching = some fn then { u with hif := { u.hif with fetching := none } } else u).setF (HIF_SQ_TAIL.TAIL fn) 0).syncQueue fn)) ∧
  (∀ (s : State) (fn : Nat), s.fnOpen fn = true → s.qState fn ≠ qDISABLED → s.activePages fn ≠ 0 ∨ (s.fn fn).backlog ≠ [] →
    exec (.qDisable fn) s = .next (s.raise (HIF_Q_STATUS.CTRL_REFUSED fn))) ∧
  (∀ (s : State) (fn tail : Nat), s.fnOpen fn = true → s.qState fn = qRUNNING → tail < 4096 → tail < s.sqSlots fn →
    exec (.sqDoorbell fn tail) s =
      .next (if s.sqPending fn tail < s.sqPending fn (s.f (HIF_SQ_TAIL.TAIL fn)) then s.errorQueue fn 2 else s.setF (HIF_SQ_TAIL.TAIL fn) tail)) ∧
  (∀ (s : State) (fn tail : Nat), s.fnOpen fn = true → s.qState fn = qRUNNING → tail < 4096 → s.sqSlots fn ≤ tail →
    exec (.sqDoorbell fn tail) s = .next (s.errorQueue fn 1)) ∧
  (∀ (s : State) (fn : Nat), s.hif.fetching = some fn →
    exec (.descriptorReadFailed fn 0) s = .next (({ s with hif := { s.hif with fetching := none } } : State).errorQueue fn 3)) ∧
  (∀ (s u : State) (fn how : Nat), s.hif.fetching = some fn → 2 ≤ how → u = (s.satInc HIF_AER_CNT.UNCORR).report 0x01 0 0x0F fn →
    exec (.descriptorReadFailed fn how) s = .next (({ u with hif := { u.hif with fetching := none } } : State).errorQueue fn 3)) ∧
  (∀ (s : State) (fn head : Nat), s.fnOpen fn = true → head < 65536 → head < s.cqSlots fn →
    exec (.cqHeadWrite fn head) s =
      .next (if (s.f (HIF_CQ_TAIL.TAIL fn) + s.cqSlots fn - s.f (HIF_CQ_HEAD.HEAD fn)) % s.cqSlots fn <
                (s.f (HIF_CQ_TAIL.TAIL fn) + s.cqSlots fn - head) % s.cqSlots fn
             then s.raise (HIF_Q_STATUS.CQ_HEAD_ERR fn) else s.setF (HIF_CQ_HEAD.HEAD fn) head)) ∧
  (∀ (s : State) (fn : Nat), fn < 16 → (s.fn fn).inFlr = false →
    exec (.backlogDrain fn) s = .next ((s.drainBacklog fn (s.fn fn).backlog.length).syncQueue fn)) ∧
  (∀ (s : State) (fn : Nat), fn < 16 → s.f (HIF_CQ_COAL.TIME fn) ≠ 0 → (s.fn fn).unsig ≠ 0 →
    exec (.cqCoalesceTimeout fn) s = .next ((s.setFn fn { s.fn fn with unsig := 0 }).signal fn 0))

/-- Pausing and serving queues (R108, R119, R120, R125, R126, R131, R136): PAUSE and D3hot pause a queue, RESUME and D0 end that (of the PF, for every
function), an FLR is begun and ended (of the PF, on every function), a RUNNING queue with a descriptor is fetched from in turn, and unmasking a vector
sends what is pending on it. -/
def Obligations.QueueServiceComplete : Prop :=
  (∀ (s : State) (fn : Nat), fn < 16 → s.qState fn = qRUNNING →
    exec (.qPause fn) s = .next (((s.setF (HIF_Q_STATUS.STATE fn) qPAUSED).setF (HIF_Q_STATUS.PAUSE_CAUSE fn) 1).signal fn 1)) ∧
  (∀ (s : State) (fn : Nat), fn < 16 → s.qState fn = qPAUSED → s.stopActive = false → s.inD3 fn = false →
    exec (.qResume fn) s = .next (((s.setF (HIF_Q_STATUS.STATE fn) qRUNNING).setF (HIF_Q_STATUS.PAUSE_CAUSE fn) 0).signal fn 1)) ∧
  (∀ (s : State) (fn : Nat), s.hif.fetching = none → s.f HIF_DEV_STATE.STATE = 1 →
    ((List.range 16).map (fun i => (s.hif.lastFn + 1 + i) % 16)).find? s.sqWaits = some fn →
    exec .sqServe s = .next { s with hif := { s.hif with fetching := some fn, lastFn := fn } }) ∧
  (∀ (s : State) (fn vec : Nat), s.fnOpen fn = true → vec < msixCount fn →
    exec (.msixUnmask fn vec) s =
      .next ((s.setWord (msixTable fn + vec * 16 + 12) (s.word (msixTable fn + vec * 16 + 12) &&& 0xFFFFFFFE#32)).sendPending fn vec)) ∧
  (∀ (s : State) (fn : Nat), fn ≠ 0 → s.fnThere fn = true → (s.fn fn).d3 = false →
    exec (.d3hotEntry fn) s = .next ((s.pauseQueue fn 4).setFn fn { (s.pauseQueue fn 4).fn fn with d3 := true })) ∧
  (∀ (s u : State), s.fnThere 0 = true → (s.fn 0).d3 = false → u = (List.range 16).foldl (fun (s : State) f => s.pauseQueue f 4) s →
    exec (.d3hotEntry 0) s = .next (u.setFn 0 { u.fn 0 with d3 := true })) ∧
  (∀ (s : State) (fn : Nat), fn ≠ 0 → fn < 16 → (s.fn fn).d3 = true →
    exec (.d0Return fn) s = .next ((s.setFn fn { s.fn fn with d3 := false }).leaveD3 fn)) ∧
  (∀ (s : State), (s.fn 0).d3 = true →
    exec (.d0Return 0) s = .next ((List.range 16).foldl (fun (s : State) f => s.leaveD3 f) (s.setFn 0 { s.fn 0 with d3 := false }))) ∧
  (∀ (s : State) (fn : Nat), fn ≠ 0 → s.fnThere fn = true → (s.fn fn).inFlr = false → exec (.flrStart fn) s = .next (s.flrBegin fn)) ∧
  (∀ (s u : State), s.fnThere 0 = true → (s.fn 0).inFlr = false → u = (List.range 16).foldl (fun (s : State) f => s.flrBegin f) s →
    exec (.flrStart 0) s = .next { u with hif := { u.hif with vfEnable := false, dropRsp := u.b HIF_MBX_STATUS.BUSY } }) ∧
  (∀ (s : State) (fn : Nat), fn ≠ 0 → fn < 16 → (s.fn fn).inFlr = true → exec (.flrComplete fn) s = .next ((s.flrEnd fn).pf 7)) ∧
  (∀ (s : State), (s.fn 0).inFlr = true → exec (.flrComplete 0) s = .next s.flrEndAll)

/-- The PCIe link (R100, R134, R135): PERST and a lost link are counted and reset the host interface, a trained link shows its width and speed, and a
configuration request is answered, with RRS during boot and FLR. -/
def Obligations.LinkComplete : Prop :=
  (∀ (s : State), s.hif.perst = true →
    exec .perstAssert s =
      .next ((({ s with hif := { s.hif with perst := false, clkDown := false } } : State).satInc HIF_LINK_CNT.PERST).linkOff.hostReset)) ∧
  (∀ (s : State), exec .perstDeassert s = .next { s with hif := { s.hif with perst := true } }) ∧
  (∀ (s : State) (hot : Bool), s.b HIF_LINK_STATUS.UP = true →
    exec (.linkDown hot) s = .next ((s.satInc HIF_LINK_CNT.DL_DOWN).linkOff.hostReset)) ∧
  (∀ (s : State) (width speed : Nat), s.b HIF_LINK_STATUS.UP = false → s.hif.perst = true → s.hif.clkDown = false → s.power ≠ pwrHIBERNATE → width ∈ [1, 2, 4, 8, 16] → 1 ≤ speed →
    speed ≤ 5 →
    exec (.linkUp width speed 0) s =
      .next ((((s.setF HIF_LINK_STATUS.UP 1).setF HIF_LINK_STATUS.WIDTH width).setF HIF_LINK_STATUS.SPEED speed).pf 7)) ∧
  (∀ (s : State) (fn off : Nat) (w : Option (BitVec 32)), s.hif.perst = true → s.f HIF_DEV_STATE.STATE = 0 ∨ (s.fn fn).inFlr = true →
    exec (.configRequest fn w off) s = .next (s.emit (.completion 2 0))) ∧
  (∀ (s : State) (fn off : Nat) (v : BitVec 32), s.hif.perst = true → s.f HIF_DEV_STATE.STATE ≠ 0 → (s.fn fn).inFlr = false → s.fnThere fn = true →
    exec (.configRequest fn (some v) off) s = .next ((s.cfgWrite fn off v).emit (.completion 0 0)) ∧
    exec (.configRequest fn none off) s = .next (s.emit (.completion 0 (s.cfgRead fn off))))

/-- The mailbox (R138, R139, R140): a GO with a request of each command is given to the dictionary server, or sets OVERRUN while one is under way, and
a transfer whose next segment does not come is aborted. -/
def Obligations.MailboxComplete : Prop :=
  (∀ (s : State) (cmd : Nat) (c : Instr),
    (cmd, c) ∈ [(1, Instr.mbxUpload), (2, .mbxDownload), (3, .mbxUploadComplete), (4, .mbxDownloadComplete), (5, .mbxGetOdList), (6, .mbxGetObjectDesc),
      (7, .mbxGetEntryDesc)] →
    s.fnOpen 0 = true → s.darkAt HIF_MBX_CTRL.word = false → bits (s.word (HIF_MBX_REQ.word 0)).toNat 0 8 = cmd →
    exec c s =
      .next (if s.b HIF_MBX_STATUS.BUSY then s.raise HIF_MBX_STATUS.OVERRUN
             else (s.setF HIF_MBX_STATUS.BUSY 1).sdoArrive
               (.mailbox ((List.range 256).flatMap (fun i => leBytes 4 (s.word (HIF_MBX_REQ.word i)).toNat))))) ∧
  (∀ (s : State), s.hif.xfer.isSome = true → s.b HIF_MBX_STATUS.BUSY = false →
    exec .mbxSegmentTimeout s = .next (s.mbxAbort s.mbxRspBytes 0x05040000))

/-- Siphon channels (R145, R151, R160, R161, R163, R171, R173): an idle channel takes an owner and a role, and the descriptors that wait on it go to
the channels of its old role; a VF takes a DRAM window; a HOST channel is enabled, rung, aborted, resumed and disabled, and each is refused where its
state forbids it. -/
def Obligations.ChannelsComplete : Prop :=
  (∀ (s : State) (ch : Nat) (v : BitVec 32), ch < 64 → s.poweredDown (SIP_CH_ASSIGN.word ch) = false →
    s.chState ch = chDISABLED ∨ (s.chRole ch ≠ 0 ∧ s.chState ch = chIDLE) → getField v 4 2 < 2 ∨ getField v 0 4 = 0 →
    v &&& 0x003F3F3F#32 ≠ s.word (SIP_CH_ASSIGN.word ch) →
    exec (.chAssignWrite ch v) s =
      .next ((s.chan ch).todo.foldl (fun (t : State) j => t.moveJob (s.chRole ch) (s.chOwner ch) j)
        ((((s.setWord (SIP_CH_ASSIGN.word ch) (v &&& 0x003F3F3F#32)).setB (SIP_CH_CTRL.ENABLE ch) (getField v 4 2 ≠ 0)).setChan ch {}).setCh ch
          (if getField v 4 2 = 0 then chDISABLED else chIDLE))).endEngineShort) ∧
  (∀ (s : State) (ch : Nat) (v : BitVec 32), ch < 64 → s.poweredDown (SIP_CH_ASSIGN.word ch) = false → s.chState ch = chACTIVE →
    v &&& 0x003F3F3F#32 ≠ s.word (SIP_CH_ASSIGN.word ch) →
    exec (.chAssignWrite ch v) s = .next (s.raise SIP_STATUS.ASSIGN_REFUSED)) ∧
  (∀ (s : State) (fn : Nat) (v : BitVec 32), 1 ≤ fn → fn < 16 → s.poweredDown (SIP_FN_WIN.word fn) = false →
    (∀ ch < 64, s.chOwner ch = fn → s.chState ch ≤ chIDLE) →
    exec (.fnWinWrite fn v) s =
      .next (if getField v 16 12 * 64 * MiB = 0 ∨
                (s.freeBase ≤ getField v 0 12 * 64 * MiB ∧ getField v 0 12 * 64 * MiB + getField v 16 12 * 64 * MiB ≤ s.dramEnd)
             then s.setWord (SIP_FN_WIN.word fn) (v &&& 0x0FFF0FFF#32) else s.raise SIP_STATUS.WIN_REFUSED)) ∧
  (∀ (s : State) (ch : Nat), ch < 64 → s.poweredDown (SIP_CH_CTRL.word ch) = false → s.b (SIP_CH_CTRL.ENABLE ch) = false → s.chRole ch = 0 →
    4 ≤ s.f (SIP_CH_RING_SIZE.LOG2 ch) → s.f (SIP_CH_RING_SIZE.LOG2 ch) ≤ 12 →
    exec (.chEnable ch) s =
      .next (((((s.setF (SIP_CH_HEAD.HEAD ch) 0).setF (SIP_CH_TAIL.TAIL ch) 0).setF (SIP_CH_CTRL.ENABLE ch) 1).setChan ch {}).setCh ch chIDLE)) ∧
  (∀ (s : State) (ch : Nat), ch < 64 → s.poweredDown (SIP_CH_CTRL.word ch) = false → s.b (SIP_CH_CTRL.ENABLE ch) = true → s.chRole ch = 0 →
    s.chState ch ≠ chACTIVE →
    exec (.chDisable ch) s =
      .next ((((s.setF (SIP_CH_CTRL.ENABLE ch) 0).setF (SIP_CH_TAIL.TAIL ch) 0).setChan ch {}).setCh ch chDISABLED)) ∧
  (∀ (s : State) (ch tail : Nat), ch < 64 → s.poweredDown (SIP_CH_TAIL.word ch) = false → s.chRole ch = 0 → s.chState ch ≠ chDISABLED →
    tail < 2 ^ s.f (SIP_CH_RING_SIZE.LOG2 ch) →
    (∀ base, base = s.f (SIP_CH_HEAD.HEAD ch) + (if s.chState ch = chACTIVE then 1 else 0) →
      (s.f (SIP_CH_TAIL.TAIL ch) + 2 * 2 ^ s.f (SIP_CH_RING_SIZE.LOG2 ch) - base) % 2 ^ s.f (SIP_CH_RING_SIZE.LOG2 ch) ≤
        (tail + 2 * 2 ^ s.f (SIP_CH_RING_SIZE.LOG2 ch) - base) % 2 ^ s.f (SIP_CH_RING_SIZE.LOG2 ch)) →
    exec (.chDoorbell ch tail) s = .next (s.setF (SIP_CH_TAIL.TAIL ch) tail)) ∧
  (∀ (s : State) (ch tail : Nat), ch < 64 → s.poweredDown (SIP_CH_TAIL.word ch) = false → s.chRole ch = 0 → s.chState ch = chIDLE →
    2 ^ s.f (SIP_CH_RING_SIZE.LOG2 ch) ≤ tail →
    exec (.chDoorbell ch tail) s = .next ((s.setChan ch { s.chan ch with fetching := false }).ringError ch)) ∧
  (∀ (s : State) (ch : Nat) (go : Bool) (x : SipXfer), ch < 64 → s.poweredDown (SIP_CH_CTRL.word ch) = false → s.chRole ch = 0 →
    s.chState ch = chACTIVE → (s.chan ch).xfer = some x → x.code = none →
    exec (.chAbort ch go) s = .next (s.setChan ch { s.chan ch with xfer := some { x with code := some 0x01 } })) ∧
  (∀ (s : State) (ch : Nat), ch < 64 → s.poweredDown (SIP_CH_CTRL.word ch) = false → s.chRole ch = 0 → s.chState ch = chSTOPPED → s.stopActive = false →
    exec (.chResume ch) s = .next (s.setCh ch chIDLE)) ∧
  (∀ (s : State) (ch : Nat) (go : Bool), ch < 64 → s.poweredDown (SIP_CH_CTRL.word ch) = false → s.chRole ch ≠ 0 →
    exec (.chAbort ch go) s = .next (s.raise (SIP_CH_STATE.CTRL_REFUSED ch)) ∧
    exec (.chResume ch) s = .next (s.raise (SIP_CH_STATE.CTRL_REFUSED ch)))

/-- Siphon transfers (R153, R159, R162, R164, R165): an IDLE channel with entries fetches one, checks it and goes ACTIVE, moves its data burst by
burst as the arbiter grants, and completes it, after a barrier read where the descriptor asks for one and wrote to host memory. -/
def Obligations.TransfersComplete : Prop :=
  (∀ (s : State) (ch : Nat), ch < 64 → s.chRole ch = 0 → s.chState ch = chIDLE → (s.chan ch).fetching = false →
    s.sip.off = false → s.hostRequests < 512 → s.f (SIP_CH_TAIL.TAIL ch) ≠ s.f (SIP_CH_HEAD.HEAD ch) →
    exec (.chDescriptorFetch ch) s = .next (s.setChan ch { s.chan ch with fetching := true })) ∧
  (∀ (s : State) (ch : Nat) (b : List (BitVec 8)), ch < 64 → s.chRole ch = 0 → s.chState ch = chIDLE → (s.chan ch).fetching = true → s.sip.off = false →
    exec (.chDescriptor ch (some b)) s =
      .next (((s.setChan ch { s.chan ch with
        fetching := false,
        xfer := some (if s.sipCheck ch (parseSip b) ≠ 0 then { desc := parseSip b, code := some (s.sipCheck ch (parseSip b)) }
                      else if (parseSip b).dstSpace = spSPOOL ∧ s.splRefused = true then { desc := parseSip b, code := some 0x32 }
                      else { desc := parseSip b, started := true }) }).setCh ch chACTIVE).fetchReads ch)) ∧
  (∀ (s : State) (ch : Nat) (j : SipJob) (d : SipDesc) (t : List (SipJob × SipDesc)) (b : Option (List (BitVec 8))), ch < 64 → s.chRole ch ≠ 0 →
    (s.chan ch).todo = (j, d) :: t → (s.chan ch).xfer = none → s.sip.held = false → s.sip.off = false →
    exec (.chDescriptor ch b) s =
      .next (((s.setChan ch { s.chan ch with todo := t, xfer := some { desc := d, job := some j, started := true } }).setCh ch chACTIVE).fetchReads ch)) ∧
  (∀ (s : State) (ch fail : Nat) (x : SipXfer) (sip : Sip) (data : List (BitVec 8)) (offs : List (BitVec 32)), s.grant = some (ch, sip) →
    (s.chan ch).xfer = some x → x.job = none →
    exec (.sipBurst ch data offs fail) s = .next ((({ s with sip := sip } : State).hostBurst ch x data offs fail).fetchReads ch)) ∧
  (∀ (s : State) (ch fail st page : Nat) (x : SipXfer) (sip : Sip) (data : List (BitVec 8)) (offs : List (BitVec 32)), s.grant = some (ch, sip) →
    (s.chan ch).xfer = some x → x.job = some (.ingest page st) →
    exec (.sipBurst ch data offs fail) s =
      .next (((({ s with sip := sip } : State).ringRoom st (min 4096 (x.desc.count - x.moved)) 8192).jobBurst ch x (.ingest page st) data fail).fetchReads ch)) ∧
  (∀ (s : State) (ch code : Nat) (x : SipXfer), ch < 64 → (s.chan ch).xfer = some x → x.code = some code → x.barrierWait = false →
    x.desc.flags.getLsbD 0 = false →
    exec (.descriptorComplete ch) s = .next ((s.sealPart (s.chOwner ch) x).finishDesc ch x code)) ∧
  (∀ (s u : State) (ch code : Nat) (x : SipXfer), ch < 64 → (s.chan ch).xfer = some x → x.code = some code → x.barrierWait = false →
    x.desc.flags.getLsbD 0 = true → x.started = true → x.barrierMet = false → x.moved ≠ 0 → x.job = none → x.desc.dstSpace = spHOST →
    u = s.sealPart (s.chOwner ch) x → u.hostRequests < 512 →
    exec (.descriptorComplete ch) s =
      .next ((u.setChan ch { u.chan ch with xfer := some { x with barrierWait := true } }).emit
        (.hostZeroRead (u.chOwner ch) (BitVec.ofNat 64 x.lastDst)))) ∧
  (∀ (s : State) (ch : Nat) (x : SipXfer), ch < 64 → (s.chan ch).xfer = some x → x.barrierWait = true → x.desc.dstSpace = spHOST →
    exec (.barrierReadComplete ch true) s = .next (s.finishDesc ch { x with barrierMet := true, barrierWait := false } (x.code.getD 0)) ∧
    exec (.barrierReadComplete ch false) s = .next (s.finishDesc ch { x with barrierWait := false, abortLate := false } 0x21))

/-- Spool drives (R135, R183, R193, R201, R204, R736): enabling the spool starts its drives, a trained link and a ready drive go on with that, a drive
that is not ready in time or fails is marked failed; the spool is disabled, its catalogue is read, and a spent write counter starts the next epoch. -/
def Obligations.SpoolDrivesComplete : Prop :=
  (∀ (s : State), s.poweredDown SPL_CTRL.word = false → s.b SPL_CTRL.ENABLE = false → s.b SPL_CTRL.MIRROR = false → s.f SEC_LC.STATE ≠ 0 →
    s.f SEC_LC.STATE ≠ 3 →
    exec .spoolEnable s = .next (s.setSpool true).spoolStart) ∧
  (∀ (s : State), s.poweredDown SPL_CTRL.word = false → s.b SPL_CTRL.ENABLE = true → exec .spoolDisable s = .next s.spoolOff) ∧
  (∀ (s : State) (d : Nat) (up : Bool), d < 4 → s.spl.starting = true → (s.drive d).linkDone = false →
    exec (.spoolLinkTrained d up) s =
      .next ((s.setDrive d { s.drive d with linkDone := true, linkUp := up, decided := (s.drive d).decided || !up }).driveCheck)) ∧
  (∀ (s : State) (d cap : Nat), d < 4 → s.spl.starting = true → (s.drive d).linkUp = true → (s.drive d).decided = false →
    exec (.driveReady d false cap) s = .next (((s.emit (.nvme d 5)).setDrive d { s.drive d with decided := true }).driveCheck)) ∧
  (∀ (s u v : State) (d cap : Nat), d < 4 → s.spl.starting = true → (s.drive d).linkUp = true → (s.drive d).decided = false →
    u = ([6, 7] ++ List.replicate 8 8).foldl (fun (t : State) k => t.emit (.nvme d k)) (s.emit (.nvme d 5)) →
    v = (u.setF SPL_STATUS.SSD_PRESENT (setBit (u.f SPL_STATUS.SSD_PRESENT) d true)).setDrive d
      { s.drive d with decided := true, capacity := cap, queues := 8 } →
    exec (.driveReady d true cap) s = .next (((v.syncCap.pf 452).refreshRefusal).driveCheck)) ∧
  (∀ (s : State) (d : Nat), d < 4 → s.spl.starting = true → (s.drive d).linkUp = true → (s.drive d).decided = false →
    exec (.driveReadyTimeout d) s = .next ((s.failDrive d).driveCheck)) ∧
  (∀ (s : State) (d : Nat), d < 4 →
    bit (s.f SPL_STATUS.SSD_PRESENT) d = true ∨ (s.spl.starting = true ∧ (s.drive d).linkUp = true ∧ (s.drive d).decided = false) →
    exec (.driveFailed d) s = .next ((s.failDrive d).driveCheck).spoolNext) ∧
  (∀ (s u : State), s.b SPL_STATUS.RECOVERING = true → u = (s.spl.catalogue.filter (fun c => !s.recovers c)).foldl (fun t c => t.unmap c.drives) s →
    exec .spoolRecoveryDone s =
      .next (((({ u with spl := { u.spl with copies := u.spl.copies ++ s.spl.catalogue.filter s.recovers, catalogue := [] } } : State).recharge.retrySalts).setF
        SPL_STATUS.RECOVERING 0).pf 452)) ∧
  (∀ (s : State) (j b : Bool), s.ctrSpent = true →
    exec (.epochRollover j b false) s = .next (s.startEpoch j b).refreshRefusal.sealAll) ∧
  (∀ (s : State) (j b : Bool), s.ctrSpent = true → (s.startEpoch j b).spl.journalOk = true →
    exec (.epochRollover j b true) s = .next (s.startEpoch j b).writeSalts.refreshRefusal.sealAll)

/-- NVMe commands and slices (R183, R187, R190, R194, R206): a command ends with its work done, lost, or with a tag that does not verify, or is sent
again after its timeout as long as its drive stands; a slice takes a quota, a direct region, a trim and a listing, and each that runs ends with its
result and the slice's vector. -/
def Obligations.SlicesComplete : Prop :=
  (∀ (s u v : State) (id : Nat) (c : NvmeCmd), s.spl.cmds.find? (fun c => c.id = id) = some c →
    u = { s with spl := { s.spl with cmds := s.spl.cmds.filter (fun x => x.id ≠ id) } } →
    v = u.cmdDone c.op → exec (.nvmeCommandComplete id 0) s = .next v.spoolNext) ∧
  (∀ (s u v : State) (id : Nat) (c : NvmeCmd), s.spl.cmds.find? (fun c => c.id = id) = some c →
    u = { s with spl := { s.spl with cmds := s.spl.cmds.filter (fun x => x.id ≠ id) } } → v = (u.cmdFailed c.op).countFailure c.drive →
    exec (.nvmeCommandComplete id 1) s = .next v.spoolNext) ∧
  (∀ (s u : State) (id ch e : Nat) (c : NvmeCmd) (x : SipXfer), s.spl.cmds.find? (fun c => c.id = id) = some c → c.op = .read ch e →
    u = { s with spl := { s.spl with cmds := s.spl.cmds.filter (fun x => x.id ≠ id) } } → (u.chan ch).xfer = some x →
    exec (.nvmeCommandComplete id 2) s = .next ((u.readFailed (u.readFn ch x) true).endRead ch e false).spoolNext) ∧
  (∀ (s u : State) (id : Nat) (c : NvmeCmd), s.spl.cmds.find? (fun c => c.id = id) = some c → u = s.countFailure c.drive →
    exec (.nvmeCommandTimeout id) s = .next (if u.spl.cmds.any (fun x => x.id = id) then u.emit (.nvme c.drive c.op.kind) else u.spoolNext)) ∧
  (∀ (s : State) (fn : Nat) (v : BitVec 32), fn < 16 → s.poweredDown (SPL_QUOTA.word fn) = false →
    exec (.sliceQuotaWrite fn false v) s =
      .next ((s.setF (SPL_QUOTA.EXTENTS fn) (getField v 0 30)).setF (SPL_SL_QUOTA.EXTENTS fn) (getField v 0 30))) ∧
  (∀ (s : State) (fn : Nat) (v : BitVec 32), fn < 16 → s.poweredDown (SPL_DIRECT.word fn) = false →
    exec (.sliceQuotaWrite fn true v) s =
      .next (if s.f (SPL_QUOTA.EXTENTS fn) < getField v 0 30 then s.raise (SPL_SL_STATUS.CFG_REFUSED fn)
             else ((s.setF (SPL_DIRECT.EXTENTS fn) (getField v 0 30)).setF (SPL_SL_DIRECT.EXTENTS fn) (getField v 0 30)).dropDirect fn
               (fun d => decide (getField v 0 30 ≤ d.ext)))) ∧
  (∀ (s u : State) (fn n a : Nat), fn < 16 → s.poweredDown (SPL_SL_TRIM.word fn) = false → n ≠ 0 → s.spl.trims.get? fn = none →
    a = s.f (SPL_SL_TRIM_START.EXTENT fn) → u = s.dropDirect fn (fun d => decide (a ≤ d.ext ∧ d.ext < a + n) && !d.inFlight) →
    exec (.sliceTrim fn n) s =
      .next { u with spl := { u.spl with trims := u.spl.trims.put fn (s.spl.direct.filter
                                                   (fun d => d.fn = fn && decide (a ≤ d.ext ∧ d.ext < a + n) && d.inFlight)).length } }) ∧
  (∀ (s : State) (fn k : Nat), s.spl.trims.get? fn = some k →
    exec (.sliceTrimDone fn) s =
      .next (((({ s with spl := { s.spl with trims := s.spl.trims.erase fn } } : State).setF (SPL_SL_TRIM_DONE.SKIPPED fn) k).raise
        (SPL_SL_STATUS.TRIM_DONE fn)).sliceVector fn)) ∧
  (∀ (s : State) (fn n : Nat), fn < 16 → s.poweredDown (SPL_SL_ENUM_CTRL.word fn) = false → n ≠ 0 → s.spl.enums.get? fn = none →
    exec (.sliceEnum fn n) s = .next { s with spl := { s.spl with enums := s.spl.enums.put fn n } }) ∧
  (∀ (s u : State) (fn k : Nat) (ids : List (BitVec 64)), s.spl.enums.get? fn = some k →
    ids = ((s.spl.copies.filter (fun c => c.fn = fn)).map (fun c => c.pageId)).take k → ids ≠ [] →
    u = ({ s with spl := { s.spl with enums := s.spl.enums.erase fn } } : State).emit
      (.hostWrite fn (BitVec.ofNat 64 (s.f (SPL_SL_ENUM_HI.ADDR fn) * 2 ^ 32 + s.f (SPL_SL_ENUM_LO.ADDR fn) * 64)) (ids.flatMap (fun i => leBytes 8 i.toNat))) →
    exec (.sliceEnumDone fn) s =
      .next (((u.setF (SPL_SL_ENUM_CNT.COUNT fn) ids.length).raise (SPL_SL_STATUS.ENUM_DONE fn)).sliceVector fn))

/-- Codec jobs (R243, R244, R245, R247): GO starts a slot's job, FLUSH and CLOSE end an open encode's block and the encode, ABORT cuts a job short
with code 0x01 (one that ends in the same round keeps its end), an open encode that has consumed its input waits, and a job that is done shows what it
made and ends with its code. A write to a device slot is a C0 with cause 0x05 (R240). -/
def Obligations.CodecComplete : Prop :=
  (∀ (s : State) (j : Nat) (flush close : Bool), s.jobCtrl j (1 + (if flush then 2 else 0) + (if close then 4 else 0)) = none →
    exec (.korJobGo j flush close) s =
      .next (if close then (if flush then (s.jobGo j).jobFlush j else s.jobGo j).jobClose j else if flush then (s.jobGo j).jobFlush j else s.jobGo j)) ∧
  (∀ (s : State) (j : Nat) (close : Bool), s.jobCtrl j (2 + (if close then 4 else 0)) = none →
    exec (.korJobFlush j close) s = .next (if close then (s.jobFlush j).jobClose j else s.jobFlush j)) ∧
  (∀ (s : State) (j : Nat), s.jobCtrl j 4 = none → exec (.korJobClose j) s = .next (s.jobClose j)) ∧
  (∀ (s : State) (j : Nat), s.jobCtrl j 8 = none →
    exec (.korJobAbort j) s =
      .next (if s.jobEndsNow j then s else if s.jobState j = jobRUNNING ∨ s.jobState j = jobWAITING then s.cutJob j 0x01 (s.jobLen j)
             else s.jobRefused j)) ∧
  (∀ (s : State) (j v : Nat), j < 6 → s.poweredDown (KOR_JOB_CTRL.word j) = false → s.jobCtrl j v = none) ∧
  (∀ (s : State) (j : Nat), 6 ≤ j → j < 8 → s.poweredDown (KOR_JOB_CTRL.word j) = false →
    exec (.korJobAbort j) s = .next (s.reportAccess 0x04 0x05 2 0 (KOR_JOB_CTRL.word j) 8)) ∧
  (∀ (s : State) (j : Nat), j < 6 → s.jobState j = jobRUNNING → s.jobOpen j = false →
    exec (.korJobDone j none) s = .next ((s.showRun j (s.runSlot j (s.jobLen j))).endJob j (s.runSlot j (s.jobLen j)).code)) ∧
  (∀ (s : State) (j a : Nat), j < 6 → s.jobState j = jobRUNNING → s.jobOpen j = false → a < s.jobLen j →
    exec (.korJobDone j (some a)) s = .next (s.cutJob j 0x30 a)) ∧
  (∀ (s u v : State) (j : Nat), j < 6 → s.jobState j = jobRUNNING → s.jobOpen j = true → (s.job j).flush = false → (s.job j).close = false →
    u = (s.setJob j { s.job j with
        input := (s.job j).input ++ s.dram.bytes (s.jobSrc j + (s.job j).input.length) (s.jobLen j - (s.job j).input.length) }).setF
      (KOR_JOB_IN_DONE.BYTES j) (s.jobLen j) →
    u.f (KOR_JOB_OUT_DONE.BYTES j) ≠ 0 → u.jobState j = jobRUNNING → v = u.openEmit j false (u.openFuel j) → v.jobState j = jobRUNNING →
    exec (.korJobWaiting j) s = .next ((v.setJobState j jobWAITING).event (96 + j)))

/-- The tile composer (R64, R265, R266, R270): a placement list that has landed is kept where it is good, its directory entries are read and the page
judged, tiles are loaded, a pinned range is loaded and becomes resident, clearing EN unpins it, and a page is judged again for the class at its latch,
where a page still at risk is dropped. -/
def Obligations.ComposerComplete : Prop :=
  (∀ (s : State) (st : Nat) (p : Page) (x : Stream), s.freshList st = some (p, x) → listHeaderOk p.desc x.layers x.len x.data = true →
    entriesOk p.desc.rows x.layers ((x.len - 32) / 16) (x.data.drop 32) 0 = true →
    exec (.placementListLanded st) s =
      .next { s with cmp := { s.cmp with lists := s.cmp.lists.filter (fun l => (s.page? l.page).any (fun q => q.active)) ++
                                [{ page := p.seq, st := st, layers := x.layers, modes := leAt x.data 6 1,
                                   entries := parsePlacements p.fn ((x.len - 32) / 16) (x.data.drop 32) }] } }) ∧
  (∀ (s u v : State) (st : Nat) (l : PList) (p : Page) (es : List Placement) (tag : Bool),
    s.cmp.lists.find? (fun l => l.st = st && !l.read && (s.page? l.page).any (fun p => p.active)) = some l → s.page? l.page = some p →
    es = l.entries.map (fun e => ({ e with dir := s.dirEntry e.fn e.tile } : Placement)) →
    u = { s with cmp := { s.cmp with lists := s.cmp.lists.map (fun x => if x.page = l.page && x.st = st then { x with read := true, entries := es } else x) } } →
    es.find? (fun e => !e.dir.valid) = none → es.find? (fun e => e.dir.f2 ≠ bit l.modes e.layer) = none → coverOk p.desc es = true →
    v = es.foldl (fun s e => s.wantTile e.fn e.tile) u →
    exec (.directoryEntryRead st none tag) s = .next (if v.listsRead p then v.judge p else v)) ∧
  (∀ (s : State) (fn tile : Nat) (t : TileRes), s.stored fn tile = some t → t.loading = true → t.waits = false → t.again = false → t.err = none →
    t.size ≤ t.got →
    exec (.tileLoadComplete fn tile) s =
      .next (if t.stale then s.startLoad fn tile else (s.modTile fn tile (fun x => { x with loading := false })).pinCopies)) ∧
  (∀ (s : State) (fn tile : Nat) (t : TileRes), s.stored fn tile = some t → t.waits = true → exec (.tileLoadResume fn tile) s = .next (s.startLoad fn tile)) ∧
  (∀ (s : State) (i : Nat) (v : BitVec 32), s.pinWrite i v = none → v.getLsbD 31 = true → (s.word (CMP_PIN_ID.word i) ^^^ v) &&& 0x803FFFFF#32 ≠ 0 →
    exec (.pinEnable i v) s = .next (((s.unpin i).setWord (CMP_PIN_ID.word i) (v &&& 0x803FFFFF#32)).pin i)) ∧
  (∀ (s : State) (i : Nat) (v : BitVec 32), s.pinWrite i v = none → v.getLsbD 31 = false → (s.word (CMP_PIN_ID.word i) ^^^ v) &&& 0x803FFFFF#32 ≠ 0 →
    exec (.pinDisable i v) s = .next ((s.unpin i).setWord (CMP_PIN_ID.word i) (v &&& 0x003FFFFF#32))) ∧
  (∀ (s : State) (i : Nat), i < 16 → s.b (CMP_PIN_ID.EN i) = true → (s.pinOf i).accepted = true → (s.pinOf i).copied = true →
    (∀ t ∈ s.pinTiles i, s.tileResident (s.pinRange i).1 t = true) →
    exec (.pinResident i) s = .next (s.setF (CMP_PIN_ID.RESIDENT i) 1)) ∧
  (∀ (s u : State) (f : Frame) (p : Page) (j : Nat × Bool), s.nextLatch = some f → f.page.bind s.page? = some p →
    s.cmp.judged.get? p.seq = some j → p.isFinal = false → f.firstLatch ≤ s.scn.webLine + 1 → u = (if j.1 = s.classNow then s else s.judge p) →
    exec .riskReevaluate s = .next (if (u.cmp.judged.get? p.seq).any (fun j => j.2) then u.failCompose p.seq 0x45 0x3FFFF else u))

/-- Flumes (R293, R294, R295, R297, R298, R302, R303, R305, R306, R307): a furrow whose ring lines, lead and data allow it is released to an idle
Flume and completed; one that is late or stalls is lost or redone by another Flume; a fenced Flume is tested and returned to service; a station-table
write waits in the log and an idle station takes it; the predictor evaluates every enabled station. -/
def Obligations.FlumesComplete : Prop :=
  (∀ (s : State) (st n k : Nat) (f : Frame) (p : Page), s.releaseNext st = some (f, p, k) → (s.flumesIn flIDLE).head? = some n → s.inRun = true →
    s.stopActive = false → s.flm.lost = [] → s.releaseTurn = some st →
    exec (.furrowRelease st) s =
      .next (({ (s.dropPrinted st).assign n p.seq st k false with
        flm := { ((s.dropPrinted st).assign n p.seq st k false).flm with
                 next := ((s.dropPrinted st).assign n p.seq st k false).flm.next.put (p.seq * 16 + st) (k + 1) } } : State).setF FLM_STATUS.SCHED_RUN 1)) ∧
  (∀ (s u v w : State) (n : Nat) (f : Furrow) (p : Page) (x : Stream) (above : List Pixel) (lines : List (List Pixel)),
    s.flm.furrows.find? (fun f => f.flume = some n) = some f → s.flState n = flBUSY → s.page? f.page = some p → s.boundary f.page f.st f.k = some above →
    p.desc.format ≠ 3 ∨ (s.filled f.page f.st f.k).isSome = true → s.furrowLines p f.st f.k = (0, lines) → p.spoil = none →
    u = s.modFurrow f.page f.st f.k (fun g => { g with flume := none, done := true, blank := false,
                                                             codes := s.furrowCodes p.desc f.st f.k lines above, last := lines.getD 31 [] }) →
    v = (u.wrapInc (FLM_SLICE_DONE.COUNT n)).event (128 + f.st) →
    w = ((if f.redo && (s.frameOf f.page).any (fun fr => decide (s.lineAt f.st ≤ s.deadline fr f.st f.k)) then v.satInc FLM_REDO_CNT.REDONE else v).dropFill
          n).freeFlume n →
    w.streamOf f.page f.st = some x →
    exec (.furrowComplete n none false) s = .next (if p.desc.inspected then w else w.useStream f.page f.st (sourceEnd p.desc x f.k))) ∧
  (∀ (s : State) (n : Nat) (f : Furrow), s.flm.furrows.find? (fun f => f.flume = some n) = some f → s.flState n = flBUSY → s.page? f.page = none →
    exec (.furrowComplete n none false) s =
      .next (((s.dropFill n).setFurrows (s.flm.furrows.filter (fun g => g.flume ≠ some n))).freeFlume n)) ∧
  (∀ (s : State) (st k : Nat) (f : Frame) (p : Page), s.releaseNext st = some (f, p, k) → s.dataThere p st k = false → s.deadlineNear f st k = true →
    p.flr = false → p.desc.format ≠ 3 →
    exec (.furrowDataDeadline st) s = .next ((s.satInc (FLM_ST_ERR.MISSING st)).spoilPage p.seq 0x01 0x06 (flParam 0xFF st) st)) ∧
  (∀ (s : State) (st k : Nat) (p : Page), s.lateFurrow st = some (p, k) → s.furrowAt p.seq st k = none → s.flm.lost = [] →
    exec (.furrowLate st) s =
      .next ((({ s with flm := { s.flm with lost := [] } } : State).satInc (FLM_ST_ERR.LOST st)).spoilPage p.seq 0x02 0x06 (flParam 0xFF st) st)) ∧
  (∀ (s u : State) (n : Nat) (f : Furrow), n < 16 → s.flm.furrows.find? (fun f => f.flume = some n) = some f → s.flState n = flBUSY →
    u = (((s.dropFill n).setFurrows (s.flm.furrows.filter (fun g => g.flume ≠ some n))).report 0x06 1 0x40
      (f.k / 256 * 2 ^ 24 + flParam n f.st + f.k % 256)
      (((s.page? f.page).map (fun p => idAddr p.desc.pageId)).getD 0)).pf (84 + n) →
    exec (.flumeStall n) s = .next (({ u with flm := { u.flm with lost := u.flm.lost ++ [(f.page, f.st, f.k)] } } : State).fence n)) ∧
  (∀ (s : State) (n : Nat), n < 16 → s.poweredDown (FLM_SLICE_CTRL.word n) = false →
    exec (.flumeUnfence n) s =
      .next (if s.power = pwrREADY ∧ s.flState n = flFENCED then s.setFl n flTESTING else s.raise FLM_STATUS.CTRL_REFUSED)) ∧
  (∀ (s : State) (n : Nat), n < 16 → s.flState n = flTESTING →
    exec (.flumeTestDone n true) s =
      .next (((s.setF FLM_FENCED.MASK (setBit (s.f FLM_FENCED.MASK) n false)).setFl n flIDLE).checkCapacity.nameReserve)) ∧
  (∀ (s : State) (st off m : Nat) (v : BitVec 32), tableStation off = some st → s.tablesDark off = false → s.stationOn st = true →
    ¬ (0x804000 ≤ off ∧ off < 0x900000 ∧ off % 8 = 4 ∧ v &&& 0xFFF#32 = 0) → s.flm.log.length < 262144 →
    exec (.stationTableWrite m off v) s =
      .next (({ s with flm := { s.flm with log := s.flm.log ++ [(⟨st, off, v &&& tableMask off⟩ : LogEntry)] } } : State).setF FLM_LOG_PEND.ENTRIES
        (s.flm.log ++ [(⟨st, off, v &&& tableMask off⟩ : LogEntry)]).length)) ∧
  (∀ (s : State) (st : Nat), s.stationBusy st = false → exec (.tableLogIdleApply st) s = .next (s.applyLog st)) ∧
  (∀ (s : State) (seq st k n : Nat) (t : List (Nat × Nat × Nat)), s.flm.lost = (seq, st, k) :: t →
    (s.flumesIn flRESERVE ++ s.flumesIn flIDLE).head? = some n →
    exec .redoStart s = .next (((({ s with flm := { s.flm with lost := t } } : State).assign n seq st k true)).nameReserve)) ∧
  (∀ (s : State), pwrREADY ≤ s.power → s.poweredDown FLM_PRED_CFG.word = false → s.predictAll.2.2 = [] → s.predictAll.2.1 = false →
    exec .predictorEvaluate s = .next { s.predictAll.1 with flm := { s.predictAll.1.flm with calm := 0 } })

/-- Scan timing of a station (R67, R320, R322, R330, R332, R333, R334, R336, R337, R339): the page gap's takeovers, the trigger and the sweep it
sends, the beam-detect pulse and its absence, facet identification, the scan window and its zones, and the loss of an encoder. -/
def Obligations.ScanTimingComplete : Prop :=
  (∀ (s : State) (st : Nat), s.stationOn st = true → s.poweredDown (SCN_OFS.word st) = false → s.printing st = false →
    exec (.pageGapOpen st) s =
      (let s1 := s.corrGap st
       let ns := match s1.gapLines st with | some n => n / s1.trigStep * s1.period | none => 0
       let s2 := if (s1.gapLines st).isNone || s1.logFits st ns then s1.applyLog st else s1
       let s3 := ((((((s2.takeTables st).takeExposure st).gapMove st).coverFrom st s2).applyRoutes).checkOffsets st)
       let s4 := if s3.inRun ∧ s3.f (EXP_HEAD_STATE.STATE st) = 2 then s3.sendCur st (s3.slewCur st) else s3
       let s5 := if s4.inRun then s4.stepTaps st else s4
       let s6 := s5.takeCal (s5.wf (SCN_ROUTE.SIDE st))
       .next (if (s6.port (s6.portOf st)).laneBad then s6.retrain (s6.portOf st) else s6))) ∧
  (∀ (s : State) (st : Nat), s.stationOn st = true → s.poweredDown (SCN_ROUTE.word st) = false → s.trigNow st ≤ s.line16 st →
    exec (.sweepTrigger st) s = .next ((s.fireTrigger st (s.trigNow st)).runSweep st (s.trigNow st))) ∧
  -- a sweep of a good page with everything in order carries its columns
  (∀ (s t : State) (st pos k : Nat) (f : Frame) (p : Page), s.sweepAt st pos = some (f, p, k) → f.blank = false → p.spoil = none →
    s.carries p st k = true → (s.port (s.portOf st)).laneBad = false → s.poly st = polyLOCKED → s.f (CLK_PLL_STATE.STATE st) = 3 →
    s.blState (s.portOf st) = blUP → s.f (EXP_HEAD_STATE.STATE st) ≠ 3 →
    t = s.modScnSt st (fun x => { x with sweep := ⟨some p.seq, k, true, s.facetNext st⟩ }) →
    s.runSweep st pos =
      if t.blState (t.portOf st) = blUP then t.sendSweep (t.portOf st) st (s.facetNext st) (some (p, k)) (!s.carries p st (k + 1)) else t) ∧
  (∀ (s : State) (st : Nat), s.stationOn st = true → s.poweredDown (SCN_ROUTE.word st) = false →
    exec (.bdPulse st) s = .next (((s.noteBd st).polyAfterBd st (s.phaseError st)).startDelay st)) ∧
  -- the 64th pulse in a row inside the window locks the polygon, one outside it starts the count again
  (∀ (s : State) (st : Nat) (e : Int), s.poly st = polyACQUIRE → absI e ≤ s.scaled (s.f (SCN_LOCK.WIN_NS st)) → 63 ≤ (s.scnSt st).inWin →
    s.polyAfterBd st e = s.setPoly st polyLOCKED) ∧
  (∀ (s : State) (st : Nat) (e : Int), s.poly st = polyACQUIRE → s.scaled (s.f (SCN_LOCK.WIN_NS st)) < absI e →
    s.polyAfterBd st e = s.modScnSt st (fun x => { x with inWin := 0 })) ∧
  (∀ (s u : State) (st : Nat), s.stationOn st = true → s.poly st = polyLOCKED → s.printing st = false →
    u = ((s.satInc (SCN_BD_CNT.MISS st)).scnReport 0 0x14 st (s.facetNow st)).modScnSt st (fun x => { x with missRun := x.missRun + 1 }) →
    exec (.bdMissed st) s = .next (if 2 ≤ (u.scnSt st).missRun then u.lockLoss st else u)) ∧
  (∀ (s : State) (st : Nat), s.stationOn st = true → s.poly st = polyLOCKED → s.printing st = true → (s.scnSt st).bdSeen = false →
    exec (.lockLossTimeout st) s = .next (s.lockLoss st)) ∧
  (∀ (s : State) (st m second : Nat), s.stationOn st = true → s.poly st = polyLOCKED → 2048 ≤ (s.scnSt st).facets → (s.scnSt st).facet0 = none →
    s.b (SCN_ST_STATE.FID_FAIL st) = false → m = argMax (s.scnSt st).fidSum →
    second = ((List.range 8).filter (fun i => i ≠ m)).foldl (fun (a i : Nat) => max a ((s.scnSt st).fidSum.getD i 0)) 0 →
    exec (.facetIdDone st) s =
      .next (if ((s.scnSt st).fidSum.getD m 0 - second) * 1000 * facetNs 0 < s.f SCN_FID_CFG.MIN_SEP_PS * 256 * s.period
             then (s.setF (SCN_ST_STATE.FID_FAIL st) 1).scnReport 1 0x15 st
             else (s.setScnSt st { s.scnSt st with facet0 := some m }).setF (SCN_ST_STATE.FACET st) (((s.scnSt st).facets + 8 - m) % 8))) ∧
  (∀ (s : State) (st : Nat), s.stationOn st = true → (s.scnSt st).sweep.print = true → (s.scnSt st).bdSeen = true → (s.scnSt st).isOpen = false →
    s.poly st = polyLOCKED →
    exec (.scanWindowOpen st) s =
      .next (((s.modScnSt st (fun x => { x with isOpen := true })).modWord st (s.scnSt st).sweep.facet 0).emit (.clock (s.portOf st) true))) ∧
  (∀ (s : State) (st : Nat), s.stationOn st = true → (s.scnSt st).isOpen = true → (s.scnSt st).zone < 31 →
    exec (.zoneStart st ((s.scnSt st).zone + 1)) s = .next (s.modWord st (s.scnSt st).sweep.facet ((s.scnSt st).zone + 1))) ∧
  (∀ (s : State) (st : Nat), s.stationOn st = true → (s.scnSt st).isOpen = true →
    exec (.scanWindowClose st) s =
      .next (((s.modScnSt st (fun x => { x with isOpen := false })).emit (.clock (s.portOf st) false)).queuePoll (s.portOf st))) ∧
  (∀ (s : State), s.f SCN_WEB_CFG.SRC = 0 → s.poweredDown SCN_WEB_CFG.word = false →
    s.encLost (s.f SCN_WEB_CFG.ENC) (s.f SCN_WEB_SCALE.SCALE) = true →
    exec .webEncoderLost s = .next ((s.satInc SCN_ENC_ERR.LOST).report 0x07 4 0x10 0xFFFF)) ∧
  (∀ (s : State) (st : Nat), s.stationOn st = true → s.f (SCN_ST_STATE.TRK st) = 1 → s.poweredDown SCN_WEB_CFG.word = false →
    s.encLost (s.f (SCN_TRK.PC_ENC st)) (s.f (SCN_PC_SCALE.SCALE st)) = true →
    exec (.pcEncoderLost st) s = .next (((s.satInc SCN_ENC_ERR.LOST).setF (SCN_ST_STATE.TRK st) 2).scnReport 1 0x11 st))

/-- Phase-locked loops and speed classes (R340, R343, R345, R347, R348, R349): a lock starts, is declared, is lost, times out and is tried again; a
requested class is refused, served or kept; a class change starts with the stations idle and settles with the polygons locked. -/
def Obligations.ClassesComplete : Prop :=
  (∀ (s : State) (pll : Nat), pll < 16 → s.f (CLK_PLL_STATE.STATE pll) < 2 →
    exec (.pllLockStart pll) s =
      (let s1 := s.modPll pll (fun p => { p with lfsr := BitVec.ofNat 16 (max 1 (s.f (CLK_PLL_SEED.SEED pll))), dither := s.b (CLK_PLL_CFG.DITHER pll) })
       .next (((s1.setF (CLK_PLL_STATE.BAND pll) (s1.pllBand pll)).setF (CLK_PLL_STATE.STATE pll) 2).setF (CLK_PLL_STATE.LOCKF pll) 0))) ∧
  (∀ (s : State) (pll : Nat), pll < 16 → s.f (CLK_PLL_STATE.STATE pll) = 2 →
    exec (.pllLockDeclared pll) s =
      .next ((((((s.setF (CLK_PLL_STATE.STATE pll) 3).setF (CLK_PLL_STATE.LOCKF pll) 1).satInc (CLK_PLL_STATE.LOCKS pll)).setLocked pll true)).modPll pll
        (fun p => { p with attempts := 0 }))) ∧
  (∀ (s u : State) (pll : Nat), pll < 16 → s.f (CLK_PLL_STATE.STATE pll) = 3 → u = (s.pllSearch pll).modPll pll (fun p => { p with attempts := 0 }) →
    exec (.pllLockLost pll) s =
      .next (if 12 ≤ pll ∨ ¬ u.stationOn pll then u
             else if s.printing pll then (u.scnReport 3 0x19 pll).modScnSt pll (fun x => { x with isOpen := false }) else u.scnReport 1 0x1A pll)) ∧
  (∀ (s : State) (pll n : Nat), pll < 16 → s.f (CLK_PLL_STATE.STATE pll) ≠ 0 → s.f (CLK_PLL_STATE.STATE pll) < 3 →
    n = (s.scn.plls.getD ({} : PllSt) pll).attempts + 1 → n < 3 →
    exec (.pllLockTimeout pll) s = .next (((s.satInc (CLK_PLL_STATE.FAILS pll)).modPll pll (fun p => { p with attempts := n })).pllSearch pll)) ∧
  (∀ (s : State) (pll : Nat), pll < 12 → s.f (CLK_PLL_STATE.STATE pll) = 4 → s.stationBusy pll = false →
    exec (.pllRetry pll) s = .next ((s.pllSearch pll).modPll pll (fun p => { p with attempts := 2 }))) ∧
  (∀ (s : State) (pll : Nat), pll < 12 → s.f (CLK_PLL_STATE.STATE pll) ≠ 0 → s.printing pll = false →
    exec (.pllRelock pll) s = .next ((s.pllSearch pll).modPll pll (fun p => { p with attempts := 0 }))) ∧
  (∀ (s u : State) (m c : Nat) (v : BitVec 32), s.poweredDown SCN_CTRL.word = false → s.ringMember = false → c = v.toNat % 8 → s.classRefusal c = 0 →
    u = (s.setF SCN_STATE.REFUSE 0).setF SCN_CTRL.CLASS c →
    exec (.classRequest m v) s =
      .next (if u.inRun then { u with scn := { u.scn with hostAsk := some c } }
             else if c = u.classNow then u else (((u.scaleTaps u.classNow c).setClass c).retunePlls c).sendBdWins)) ∧
  (∀ (s : State) (m : Nat) (v : BitVec 32), s.poweredDown SCN_CTRL.word = false → s.ringMember = false → s.classRefusal (v.toNat % 8) ≠ 0 →
    exec (.classRequest m v) s = .next (s.setF SCN_STATE.REFUSE (s.classRefusal (v.toNat % 8)))) ∧
  (∀ (s : State), s.inRun = true → s.leaving = false → s.ramping = false → s.enabledStations.any s.stationBusy = false →
    ¬ (s.settled = true ∧ s.nextClass = s.classNow) → exec .classChangeStart s = .next (s.classStart s.nextClass)) ∧
  (∀ (s : State), s.inRun = true → s.ramping = true → s.ringMember = false → s.allLocked = true → s.ringMaster = false →
    exec .classSettled s = .next s.settle) ∧
  (∀ (s : State), s.ramping = true → exec .classRampTimeout s = .next (s.report 0x07 3 0x1F 0xFFFF)) ∧
  (∀ (s : State) (e : BitVec 16),
    exec (.calrefOkChange true e) s =
      .next { (s.setB CLK_STATUS.CALREF_OK true).setF CLK_CALREF.ERR e.toNat with
              scn := { ((s.setB CLK_STATUS.CALREF_OK true).setF CLK_CALREF.ERR e.toNat).scn with calrefSaid := false } })

/-- Beam-link ports (R355, R356, R358, R359): a port is enabled and trained, stopped, trained again; its training steps, its polls, and the sideband's
requests, answers, timeouts and BUSY retries. -/
def Obligations.BeamLinksComplete : Prop :=
  (∀ (s : State) (bl : Nat), s.poweredDown (SCN_BL_CTRL.word bl) = false → s.stationOn bl = true → s.b (SCN_BL_CTRL.ENABLE bl) = false →
    exec (.blEnable bl) s = .next ((s.setF (SCN_BL_CTRL.ENABLE bl) 1).retrain bl)) ∧
  (∀ (s : State) (bl : Nat), s.poweredDown (SCN_BL_CTRL.word bl) = false → s.stationOn bl = true → s.blPrinting bl = false →
    exec (.blDisable bl) s =
      .next (((s.setF (SCN_BL_CTRL.ENABLE bl) 0).modPort bl
        (fun p => { p with queue := [], cur := none, fails := 0, busy := false, laneBad := false })).setBl bl blDOWN)) ∧
  (∀ (s : State) (bl : Nat), s.poweredDown (SCN_BL_CTRL.word bl) = false → s.stationOn bl = true → s.b (SCN_BL_CTRL.ENABLE bl) = true →
    exec (.blRetrain bl) s = .next (s.retrain bl)) ∧
  (∀ (s : State) (bl : Nat), s.stationOn bl = true → s.blState bl = blTRAIN → exec (.blTrainAlign bl) s = .next (s.setBl bl blALIGN)) ∧
  (∀ (s : State) (bl : Nat), s.stationOn bl = true → s.blState bl = blALIGN → exec (.blTrainPoll bl) s = .next (s.queuePoll bl)) ∧
  (∀ (s u : State) (bl : Nat), s.stationOn bl = true → (s.blState bl = blTRAIN ∨ s.blState bl = blALIGN) → (s.port bl).attempts + 1 < 3 →
    u = (s.satInc (SCN_BL_ERR.TRAIN_FAIL bl)).setF (SCN_BL_STATUS.CAUSE bl) (if (s.port bl).orderErr then 2 else 1) →
    exec (.blTrainTimeout bl) s = .next ((u.setPort bl { s.port bl with attempts := (s.port bl).attempts + 1 }).train bl)) ∧
  (∀ (s u v : State) (bl st : Nat), s.stationOn bl = true → (s.blState bl = blTRAIN ∨ s.blState bl = blALIGN) → 3 ≤ (s.port bl).attempts + 1 →
    u = (s.satInc (SCN_BL_ERR.TRAIN_FAIL bl)).setF (SCN_BL_STATUS.CAUSE bl) (if (s.port bl).orderErr then 2 else 1) →
    v = (u.setPort bl { s.port bl with attempts := 3, queue := [], cur := none, fails := 0, busy := false }).setBl bl blFAILED →
    v.stationOf bl = some st →
    exec (.blTrainTimeout bl) s = .next (v.scnReport (if v.stationBusy st then 3 else 1) 0x1D st bl)) ∧
  (∀ (s : State) (bl : Nat), s.stationOn bl = true → s.blState bl = blUP → exec (.linkPoll bl) s = .next (s.queuePoll bl)) ∧
  (∀ (s : State) (bl : Nat) (r : SbReq) (t : List SbReq), s.stationOn bl = true → s.blState bl ≠ blDOWN → s.blState bl ≠ blFAILED →
    (s.port bl).cur = none → (s.port bl).queue = r :: t →
    exec (.sidebandTransaction bl) s =
      .next (((s.setPort bl { s.port bl with queue := t, cur := some r, tag := ((s.port bl).tag + 1) % 256, fails := 0, busy := false }).noteSent bl r).emit
        (.sideband bl (sbRequest r (((s.port bl).tag + 1) % 256))))) ∧
  -- a good answer to a read applies the words read; BUSY waits; anything else counts as a failure
  (∀ (s : State) (bl : Nat) (r : SbReq) (body : List Byte), s.stationOn bl = true → (s.port bl).busy = false → (s.port bl).cur = some r →
    r.write = false → body.length = 2 + 4 * r.len → leAt body 0 1 = 0 → leAt body 1 1 = (s.port bl).tag →
    exec (.sidebandResponse bl (body ++ leBytes 2 (crc16 body).toNat)) s =
      .next ((s.setPort bl { s.port bl with cur := none, fails := 0 }).readDone bl r
        ((List.range r.len).map (fun i => BitVec.ofNat 32 (leAt body (2 + 4 * i) 4))))) ∧
  (∀ (s : State) (bl : Nat) (r : SbReq) (body : List Byte), s.stationOn bl = true → (s.port bl).busy = false → (s.port bl).cur = some r →
    2 ≤ body.length → leAt body 0 1 = 3 → leAt body 1 1 = (s.port bl).tag →
    exec (.sidebandResponse bl (body ++ leBytes 2 (crc16 body).toNat)) s = .next (s.setPort bl { s.port bl with busy := true })) ∧
  (∀ (s : State) (bl : Nat) (r : SbReq), s.stationOn bl = true → (s.port bl).busy = false → (s.port bl).cur = some r →
    exec (.sidebandTimeout bl) s = .next (s.sbFailed bl)) ∧
  (∀ (s : State) (bl : Nat) (r : SbReq), (s.port bl).busy = true → (s.port bl).cur = some r →
    exec (.sidebandBusyRetry bl) s = .next ((s.setPort bl { s.port bl with busy := false }).emit (.sideband bl (sbRequest r (s.port bl).tag))))

/-- Routes and offsets (R325, R360, R362): a route is taken to wait, or refused and marked so; the routes that can change together do; an offset is
written, asked for as a move, and kept from the correction of the same gap (R35). -/
def Obligations.RoutesComplete : Prop :=
  (∀ (s : State) (st : Nat) (v : BitVec 32), s.poweredDown (SCN_ROUTE.word st) = false → s.stationOn st = true → s.routeOk st (v.toNat % 16) = true →
    exec (.routeWrite st v) s =
      (let u := (s.setF (SCN_ROUTE.PORT st) (v.toNat % 16)).setF (SCN_ROUTE.SIDE st) (v.toNat / 256 % 2)
       .next (u.setB (SCN_ROUTE.PEND st) (decide (v.toNat % 16 ≠ u.portOf st ∨ v.toNat / 256 % 2 ≠ u.wf (SCN_ROUTE.SIDE st)))))) ∧
  (∀ (s : State) (st : Nat) (v : BitVec 32), s.poweredDown (SCN_ROUTE.word st) = false → s.stationOn st = true → s.routeOk st (v.toNat % 16) = false →
    exec (.routeWrite st v) s = .next (s.raise (SCN_ST_STATE.ROUTE_REFUSED st))) ∧
  (∀ (s : State) (st : Nat) (v : BitVec 32), s.poweredDown (SCN_ROUTE.word st) = false → s.stationOn st = false →
    exec (.routeWrite st v) s = .next (s.reportAccess 0x07 0x04 2 0 (SCN_ROUTE.word st) v.toNat)) ∧
  (∀ (s : State), exec .routeExchangeApply s =
    .next ((s.routeSet 12 (s.enabledStations.filter (fun st => s.b (SCN_ROUTE.PEND st) && !s.printing st))).foldl (fun s st => s.takeRoute st) s)) ∧
  (∀ (s : State) (st : Nat) (v : BitVec 32), s.poweredDown (SCN_OFS.word st) = false → s.stationOn st = true →
    exec (.offsetWrite st v) s = .next (((s.setF (SCN_OFS.LINES st) (v.toNat % 4194304)).askMove st).touch (SCN_OFS.word st)))

/-- Exposure (R381, R384, R394): the monitor reads of a head, the steps of a tap calibration pass, and half-advance switched outside RUN. -/
def Obligations.ExposureComplete : Prop :=
  (∀ (s : State) (st : Nat), s.stationOn st = true → s.poweredDown (EXP_WIN.word st) = false → s.blState (s.portOf st) = blUP →
    s.f (EXP_HEAD_STATE.STATE st) = 2 → (s.port (s.portOf st)).queue.any (fun q => q.prio = 3) = false →
    exec (.monitorRead st) s =
      .next ((((s.sbQueue (s.portOf st) { prio := 3, addr := 0x104, len := 1 }).sbQueue (s.portOf st) { prio := 3, addr := 0x118, len := 1 }).sbQueue
        (s.portOf st) { prio := 3, addr := 0x400, len := 64 }).sbQueue (s.portOf st) { prio := 3, addr := 0x500, len := 8 })) ∧
  (∀ (s : State) (st n : Nat), s.stationOn st = true → s.poweredDown (EXP_WIN.word st) = false → s.b EXP_CTRL.CAL_EN = true →
    s.b CLK_STATUS.CALREF_OK = true → (s.expSt st).calT = 0 →
    exec (.tapCalMeasure st n) s =
      .next ((s.setExpSt st { s.expSt st with calT := 1, count0 := n, meas := [0], err := 0 }).setF EXP_STATUS.CAL_RUN 1)) ∧
  (∀ (s : State) (st n : Nat) (r : Nat × Nat), s.stationOn st = true → s.poweredDown (EXP_WIN.word st) = false → s.b EXP_CTRL.CAL_EN = true →
    s.b CLK_STATUS.CALREF_OK = true → (s.expSt st).calT ≠ 0 → (s.expSt st).calT < 63 → 0 < n → n < (s.expSt st).count0 →
    r = tapMeasure (s.tapN st (s.expSt st).calT) (s.expSt st).calT (s.expSt st).count0 n s.classNow →
    exec (.tapCalMeasure st n) s =
      .next (s.setExpSt st { s.expSt st with calT := (s.expSt st).calT + 1, meas := r.1 :: (s.expSt st).meas,
                                             err := max (s.expSt st).err (min 65535 r.2) })) ∧
  (∀ (s u : State) (m : Nat) (v : BitVec 32), s.poweredDown SCN_CTRL.word = false → s.inRun = false → v.getLsbD 7 ≠ s.b SCN_CTRL.HALF →
    u = (s.setB SCN_CTRL.HALF (v.getLsbD 7)).setB EXP_STATUS.HALF_ACTIVE (v.getLsbD 7) →
    exec (.halfAdvanceWrite m v) s =
      .next (({ u with scn := { u.scn with sts := u.scn.sts.map (fun (e : Nat × ScnSt) => (e.1, { e.2 with trig := none, moving := 0 })) } } : State).halfChanged
        (v.getLsbD 7)))

/-- Inspection (R403, R404, R421, R425, R432, R433, R440): the scan link locks (the pages whose rows passed while it was down are marked) and is lost,
a line of the array is taken or counted bad, a result is acknowledged, a page's side is judged, a calibration capture starts and ends, and an audit
capture is exported. -/
def Obligations.InspectionComplete : Prop :=
  (∀ (s u : State) (side : Nat), s.sideOn side = true → s.insRuns = true → s.sideEnabled side = true → s.insUp side = false →
    u = (s.setF (INS_LINK.LANE_LOCK side) 15).setInsLink side 2 →
    exec (.scanLinkLock side) s =
      .next (u.setInsSide side { u.insSide side with
        downAt := none, last := none, lseq := none,
        pages := (u.insSide side).pages.map (fun y => if (u.insSide side).downAt.any (fun d =>
          decide (d ≤ u.rowPos y (((u.page? y.page).map (fun p => p.desc.cisRows)).getD 1 - 1) ∧ u.rowPos y 0 ≤ u.scn.pos / 4096))
          then { y with linkLost := true } else y) })) ∧
  (∀ (s : State) (side : Nat) (l : BitVec 4), s.sideOn side = true → s.insUp side = true → l ≠ 15#4 →
    exec (.scanLinkLockLoss side l) s = .next ((s.satInc (INS_LINK_ERR.LOCK_LOSS side)).insLinkDown side 1 l.toNat)) ∧
  (∀ (s : State) (side : Nat) (ls : List (List (Bool × BitVec 64))) (q : BitVec 32) (px : List Byte) (a b : CisLine), s.sideOn side = true →
    s.insRuns = true → s.sideEnabled side = true → s.insUp side = true → cisBytes ls = some (q, px) → (s.insSide side).lseq = some (q - 1) →
    (s.insSide side).last = some a →
    b = ⟨s.posAt (s.now.toNat - 100 * s.f (INS_CIS_CFG.LAT side)), s.now.toNat, px⟩ →
    exec (.cisLine side ls) s =
      .next ((s.noteLine side q b).rowsBetween side a b
        (decide (b.pos - a.pos ≤ 8 * 65536) && !((s.cisRate side s.now.toNat).any (fun r => r.2))))) ∧
  (∀ (s : State) (side : Nat) (ls : List (List (Bool × BitVec 64))), s.sideOn side = true → s.insRuns = true → s.sideEnabled side = true →
    cisBytes ls = none → exec (.cisLine side ls) s = .next (s.satInc (INS_LINK_ERR.BAD_LINES side))) ∧
  (∀ (s : State) (side : Nat) (y : InsPage) (p : Page), (s.insSide side).pages.head? = some y → s.page? y.page = some p → p.isFinal = false →
    (s.inRun = true → s.rowPos y (p.desc.cisRows - 1) ≤ s.scn.pos / 4096) →
    exec (.inspectionResultComplete side) s = .next ((s.sideResult side y p).pageVerdict p)) ∧
  (∀ (s : State) (side q : Nat), s.poweredDown (INS_ACK.word side) = false → s.sideOn side = true → s.b (INS_RESULT.READY side) = true →
    s.f (INS_RESULT.SEQ side) = q % 65536 →
    side ∉ s.roundOf 4 mkReady →
    exec (.insAck side q) s = .next ((s.setInsSide side { s.insSide side with queue := (s.insSide side).queue.drop 1 }).insWindow side)) ∧
  (∀ (s : State) (side : Nat), s.poweredDown (INS_CAL_CTRL.word side) = false → s.sideOn side = true → s.power = pwrREADY →
    s.b (INS_CAL_STATUS.BUSY side) = false → s.insUp side = true →
    exec (.calWhite side) s =
      .next ((s.modInsSide side (fun x => { x with capOp := 1, capLines := [] })).setF (INS_CAL_STATUS.BUSY side) 1) ∧
    exec (.calChart side) s =
      .next ((s.modInsSide side (fun x => { x with capOp := 2, capLines := [] })).setF (INS_CAL_STATUS.BUSY side) 1)) ∧
  (∀ (s : State) (side : Nat) (g : List Nat), s.sideOn side = true → s.b (INS_CAL_STATUS.BUSY side) = true → 1024 ≤ (s.insSide side).capLines.length →
    (s.insSide side).capOp = 1 → whiteGains (s.insSide side).capLines = some g →
    exec (.calCaptureDone side) s =
      .next (((s.setInsSide side { s.insSide side with
        newCal := some { (s.insSide side).newCal.getD (s.insSide side).cal with gains := g } }).setF (INS_CAL_STATUS.VALID_WHITE side) 1).endCapture
          side 0)) ∧
  (∀ (s : State), s.poweredDown INS_AUDIT_CTRL.word = false → s.f INS_AUDIT_CTRL.STATE ≠ 1 →
    exec .auditExport s = .next (s.setF INS_AUDIT_CTRL.STATE 1)) ∧
  (∀ (s : State) (a : Audit) (d : Nat), s.f INS_AUDIT_CTRL.STATE = 1 → s.auditNamed = some a → a.data.length ≤ s.f INS_AUDIT_LIMIT.BYTES →
    d = s.f INS_AUDIT_DST_HI.ADDR * 2 ^ 32 + s.f INS_AUDIT_DST_LO.ADDR * 64 → s.freeBase ≤ d → d + a.data.length ≤ s.dramEnd →
    exec (.auditExportDone 0) s = .next ({ s with dram := s.dram.putBytes d a.data }.endAudit 0x00 a.data.length))

/-- Loops (R445, R448, R450, R453, R463, R466): a loop is switched off, opened, closed and sampled, its output reaches the sink or comes late, an
uncorrectable error of its words is a C3, the scanned channel whose turn it is is converted, a carrier period takes its duty, and a polygon that finds
no pulse shifts its search. -/
def Obligations.LoopsComplete : Prop :=
  (∀ (s : State) (lp : Nat), lp < 64 → s.poweredDown (LPE_LP_CMD.word lp) = false → s.lpState lp ≠ lpOFF → exec (.loopOff lp) s = .next (s.lpOff lp)) ∧
  (∀ (s t : State) (lp : Nat), lp < 64 → s.poweredDown (LPE_LP_CMD.word lp) = false → s.lpState lp = lpOFF → s.lpOpenCheck lp = 0 →
    t = s.setLoop lp { u := (s.loop lp).u, prime := true, zero := s.lpPosCount lp, pcnt := s.lpPosCount lp, open0 := (s.encIn (s.f (LPE_LP_IN.INDEX lp))).cnt,
                       cnt := (s.encIn (s.f (LPE_LP_IN.INDEX lp))).cnt, ofs := s.word (LPE_LP_POS_OFS.word lp) } →
    exec (.loopOpen lp) s = .next ((t.setF (LPE_LP_STATUS.FAULT lp) 0).lpTo lp lpOPEN)) ∧
  (∀ (s : State) (lp : Nat), lp < 64 → s.poweredDown (LPE_LP_CMD.word lp) = false → s.lpState lp = lpOFF → s.lpOpenCheck lp ≠ 0 →
    exec (.loopOpen lp) s = .next (s.lpRefuse lp (s.lpOpenCheck lp))) ∧
  (∀ (s : State) (lp : Nat), lp < 64 → s.poweredDown (LPE_LP_CMD.word lp) = false → s.lpState lp = lpOPEN → s.lpCloseOk lp = true →
    exec (.loopClose lp) s =
      .next ((s.modLoop lp (fun x => { x with
        dr := Flt.mul (s.word (LPE_LP_RAMP.word lp)) (s.lpT lp), dstop := Flt.mul (s.word (LPE_LP_STOP_RAMP.word lp)) (s.lpT lp),
        kit := Flt.mul (s.word (LPE_LP_KI.word lp)) (s.lpT lp),
        ad := Flt.div (s.word (LPE_LP_TF.word lp)) (Flt.add (s.word (LPE_LP_TF.word lp)) (s.lpT lp)),
        bd := Flt.div (s.word (LPE_LP_KD.word lp)) (Flt.add (s.word (LPE_LP_TF.word lp)) (s.lpT lp)),
        g1 := (s.lpB1 lp).gain, g2 := (s.lpB2 lp).gain, first := true, stopping := false, dev := none })).lpTo lp lpCLOSED)) ∧
  (∀ (s u t : State) (lp : Nat) (c : BitVec 16) (ecc : Nat), lp < 64 → ecc = 0 → s.lpRuns lp = true → s.awake = true →
    t = (if s.lpAdc lp then s.setF (LPE_ADC_VAL.CODE (s.f (LPE_LP_IN.INDEX lp))) c.toNat else s) → t.lpLost lp = false → t.lpStale lp = false →
    u = ((s.lpArrive lp c).lpRaw lp c).2.2 →
    exec (.loopSample lp c ecc) s =
      .next (u.lpConclude lp (u.lpEvaluate lp (((s.lpArrive lp c).lpRaw lp c).1, ((s.lpArrive lp c).lpRaw lp c).2.1)))) ∧
  (∀ (s : State) (lp : Nat) (c : BitVec 16), lp < 64 → s.lpRuns lp = true → s.awake = true →
    exec (.loopSample lp c 2) s = .next (s.report 0x0B 3 0x0C lp)) ∧
  (∀ (s : State) (lp : Nat) (u : F32), lp < 64 → s.awake = true → (s.loop lp).due = some u → s.lpState lp ≠ lpFAULT →
    (s.modLoop lp (fun x => { x with due := none, late := 0 })).lpState lp = s.lpState lp →
    exec (.loopOutput lp false) s = .next ((s.modLoop lp (fun x => { x with due := none, late := 0 })).lpDrive lp u)) ∧
  (∀ (s t : State) (lp : Nat), lp < 64 → s.awake = true → s.lpRuns lp = true →
    t = (s.modLoop lp (fun x => { x with late := (s.loop lp).late + 1, due := none })).satInc (LPE_LP_CNT.OVERRUN lp) →
    exec (.loopOutput lp true) s = .next (if 3 ≤ (s.loop lp).late + 1 then t.lpFault lp 5 else t)) ∧
  (∀ (s : State) (ch : Nat) (c : BitVec 16), s.awake = true → s.scanTurn = some ch →
    exec (.adcScanConversion ch c) s = .next (({ s with lpe := { s.lpe with scan := ch + 1 } } : State).setF (LPE_ADC_VAL.CODE ch) c.toNat)) ∧
  (∀ (s t : State) (c : Nat), c < 32 → s.awake = true → t = { s with lpe := { s.lpe with pwm := s.lpe.pwm.set 0 c (s.f (LPE_PWM_DUTY.DUTY c)) } } →
    exec (.pwmCarrierPeriod c) s = .next (t.emit (.wire (2000 + c) (xor (decide (s.f (LPE_PWM_DUTY.DUTY c) ≠ 0)) (t.b (LPE_PWM_CFG.INV c)))))) ∧
  (∀ (s : State) (st lp : Nat), s.polyLoop st = some lp → s.lpState lp = lpCLOSED → s.poly st = polyACQUIRE →
    ((s.scnSt st).acqAt :: (s.scnSt st).bd).any (fun t => decide (s.now.toNat < t + 64 * s.period)) = false →
    exec (.polySearchShift st) s = .next ((s.modScnSt st (fun x => { x with acqAt := s.now.toNat })).modLoop lp (fun x => { x with ofs := Flt.add x.ofs (Flt.ofRat 15 800), anchor := true })))

/-- Axes and encoders (R315, R476, R479, R481, R484, R485, R488, R490, R491, R495, R496, R497, R498): an axis is enabled, disabled, moved, jogged,
stopped, resumed, given a position and cleared; it steps, is checked against its encoder, holds; its phases chop; an encoder counts. -/
def Obligations.AxesComplete : Prop :=
  (∀ (s : State) (ax c : Nat) (p : Bool), ax < 24 → s.poweredDown (MOT_AX_CMD.word ax) = false → (s.stopActive = false ∨ p = true) → s.axGuard ax c p = none) ∧
  (∀ (s : State) (ax : Nat), s.axGuard ax 1 false = none → s.stopReports = false → s.axState ax = axDISABLED → (s.axis ax).enabling = false → s.axEncTaken ax = false →
    exec (.axEnable ax) s = .next (s.modAxis ax (fun x => { x with enabling := true }))) ∧
  (∀ (s t : State) (ax : Nat) (ta tb : List Nat), (s.axis ax).enabling = true →
    t = ((((s.setF (MOT_AX_TD.TD_A ax) (min 65535 (meanDelay ta))).setF (MOT_AX_TD.TD_B ax) (min 65535 (meanDelay tb))).modAxis ax
      (fun x => { x with enabling := false, jog := 0 })).axTo ax axIDLE).bridges ax false false →
    exec (.axEnableComplete ax ta tb) s = .next (if t.axEnc ax then t.axSync ax else t)) ∧
  (∀ (s : State) (ax : Nat), s.axGuard ax 2 true = none → (s.axRests ax = true ∨ s.axState ax = axFAULT) →
    exec (.axDisable ax) s = .next (((s.axTo ax axDISABLED).setI32 (MOT_AX_REM.word ax) 0).bridges ax true false)) ∧
  (∀ (s : State) (ax : Nat) (t : Int), s.axGuard ax 3 false = none → s.stopReports = false → s.axRests ax = true → s.axRateBad ax = false → t = s.i32 (MOT_AX_TARGET.word ax) →
    (t - s.axPos ax) % (s.axStepSize ax : Int) = 0 → s.axOutside ax t = false →
    exec (.axMoveAbs ax false) s = .next ((s.axStart ax 0 t).mark mkAxis ax) ∧
      exec (.axMoveAbs ax true) s = .next ((s.axHold ax ⟨0, t⟩).mark mkAxis ax)) ∧
  (∀ (s : State) (ax : Nat), s.axGuard ax 4 false = none → s.stopReports = false → s.axState ax ≠ axMOVING → s.axRests ax = true → s.axRateBad ax = false →
    s.i32 (MOT_AX_TARGET.word ax) % (s.axStepSize ax : Int) = 0 → s.axOutside ax (s.axPos ax + s.i32 (MOT_AX_TARGET.word ax)) = false →
    exec (.axMoveRel ax false) s = .next ((s.axStart ax 0 (s.axPos ax + s.i32 (MOT_AX_TARGET.word ax))).mark mkAxis ax)) ∧
  (∀ (s : State) (ax : Nat), s.axGuard ax 5 false = none → s.stopReports = false → s.axRests ax = true → s.axRateBad ax = false → s.axAtLimit ax 1 = false →
    exec (.axJogPos ax false) s = .next ((s.axStart ax 1 0).mark mkAxis ax)) ∧
  (∀ (s : State) (ax : Nat), s.axGuard ax 6 false = none → s.stopReports = false → s.axRests ax = true → s.axRateBad ax = false → s.axAtLimit ax (-1) = false →
    exec (.axJogNeg ax false) s = .next ((s.axStart ax (-1) 0).mark mkAxis ax)) ∧
  (∀ (s : State) (ax : Nat), s.axGuard ax 7 true = none → s.axNew ax = false → s.axState ax ≠ axSTOPPING → s.axState ax ≠ axFAULT →
    exec (.axStop ax) s = .next (s.axAskStop ax (s.axis ax).dec)) ∧
  (∀ (s : State) (ax : Nat), s.axGuard ax 8 true = none → s.axNew ax = false → s.axState ax ≠ axFAULT → exec (.axQstop ax) s = .next (s.axAskStop ax (s.axQdec ax))) ∧
  (∀ (s : State) (ax : Nat), s.axGuard ax 9 false = none → s.stopReports = false → s.axState ax = axSTOPPED → (s.axis ax).jog = 0 → s.axRateBad ax = false →
    s.axOutside ax (s.i32 (MOT_AX_TGT_NOW.word ax)) = false →
    exec (.axResume ax false) s = .next ((s.axStart ax 0 (s.i32 (MOT_AX_TGT_NOW.word ax))).mark mkAxis ax)) ∧
  (∀ (s t : State) (ax : Nat), s.axGuard ax 10 false = none → s.stopReports = false → s.axRests ax = true →
    t = (((((s.setWord (MOT_AX_POS.word ax) (s.word (MOT_AX_TARGET.word ax))).setI32 (MOT_AX_REM.word ax) 0).modAxis ax (fun x => { x with jog := 0 })).setF
      (MOT_AX_STATUS.POS_LOST ax) 0).axTo ax axIDLE).setCodes ax →
    exec (.axSetpos ax) s = .next ((if t.axEnc ax then t.axSync ax else t).mark mkAxis ax)) ∧
  (∀ (s t u : State) (ax : Nat), s.axGuard ax 11 false = none → s.stopReports = false → s.axState ax = axFAULT →
    t = ((s.setF (MOT_AX_STATUS.FAULT ax) 0).axTo ax axSTOPPED).bridges ax false false → u = (if t.axEnc ax then t.axResync ax else t) →
    exec (.axClear ax) s = .next (u.setI32 (MOT_AX_REM.word ax) (u.axRemain ax))) ∧
  (∀ (s : State) (ax : Nat), ax < 24 → (s.axState ax = axMOVING ∨ s.axState ax = axSTOPPING) → exec (.axStepEvent ax) s = .next (s.axStepEvent ax)) ∧
  (∀ (s t u : State) (ax n : Nat), ax < 24 → s.axState ax ≠ axDISABLED → s.axEnc ax = true → t = s.axShowEnc ax →
    n = (if t.f (MOT_AX_DEVWIN.WIN ax) < (t.axDev ax).natAbs then (t.axis ax).dev + 1 else 0) → u = t.modAxis ax (fun x => { x with dev := n }) →
    exec (.axDeviationCheck ax) s = .next (if n = 2 ∧ u.axState ax ≠ axFAULT then (u.satInc (MOT_AX_CNT.STALL ax)).axFault ax 1 else u)) ∧
  (∀ (s t : State) (ax : Nat), ax < 24 → s.axEnc ax = true → (s.axis ax).resync = false → (s.axis ax).settle = true → s.axRests ax = true →
    64 ≤ (s.axDev ax).natAbs →
    t = ((s.modAxis ax (fun x => { x with settle := false })).satInc (MOT_AX_CNT.LOST ax) ((s.axDev ax).natAbs / 64)).report 0x0C 0 0x0F ax →
    exec (.axSettleCheck ax) s = .next (if t.b (MOT_AX_CFG.ENC_CORR ax) then t.axResync ax else t)) ∧
  (∀ (s : State) (ax : Nat), ax < 24 → s.axRests ax = true → s.b (MOT_AX_STATUS.HOLD ax) = false →
    exec (.axHoldTimeout ax) s = .next (((s.modAxis ax (fun x => { x with run := false })).setF (MOT_AX_STATUS.HOLD ax) 1).setCodes ax)) ∧
  (∀ (s : State) (ax ph : Nat), s.chops ax ph = true → (s.phase ax ph).blank = false → exec (.chopThresholdCross ax ph) s = .next (s.chopToggle ax ph)) ∧
  (∀ (s : State) (ax ph : Nat), s.chops ax ph = true → (s.phase ax ph).fast = true →
    exec (.chopMixEnd ax ph) s = .next ((s.setPhase ax ph { s.phase ax ph with fast := false }).gates ax ph 3)) ∧
  (∀ (s t : State) (ax ph : Nat), s.chops ax ph = true → (s.phase ax ph).drive = true → 32 ≤ (s.axCode ax ph).natAbs →
    t = s.setPhase ax ph { s.phase ax ph with openN := (s.phase ax ph).openN + 1 } →
    exec (.chopMaxOnTimeout ax ph) s = .next (if 3 ≤ (s.phase ax ph).openN + 1 then t.axFault ax 3 else t)) ∧
  (∀ (s : State) (ax ph : Nat), ax < 24 → ph < 2 → (s.phase ax ph).blank = true → (s.phase ax ph).drive = true →
    exec (.chopBlankingEnd ax ph false) s = .next (s.setPhase ax ph { s.phase ax ph with blank := false, overs := 0 })) ∧
  (∀ (s : State) (n : Nat), n < 28 → (s.encIn n).a = false → (s.encIn n).b = false → s.awake = false →
    exec (.encoderCount n false true) s =
      .next (s.setEncIn n { s.encIn n with a := false, b := true, cnt := (s.encIn n).cnt - 1, dir := -1, gap := s.now.toNat - (s.encIn n).at',
                                           at' := s.now.toNat })) ∧
  (∀ (s t u : State) (n : Nat), n < 28 → (s.encIn n).a = false → (s.encIn n).b = false →
    t = s.setEncIn n { s.encIn n with a := true, b := false, cnt := (s.encIn n).cnt + 1, dir := 1, gap := s.now.toNat - (s.encIn n).at', at' := s.now.toNat,
                                      fg := (s.encIn n).fg + 1, fgGap := s.now.toNat - (s.encIn n).fgAt, fgAt := s.now.toNat } →
    t.awake = true → u = (t.turnoutCount n 1).trackCount n 1 →
    exec (.encoderCount n true false) s =
      .next (axisList.foldl (fun s ax => if s.axEnc ax && s.f (MOT_AX_CFG.ENC ax) = n && s.axState ax ≠ axDISABLED then s.axShowEnc ax else s) u))

/-- The lateral chain (R509, R511, R513, R516, R518, R522, R537): a port is enabled, disabled and scanned again; its enumeration goes out and comes
back; a cycle starts, returns good or bad; an output image byte is written; the mailbox is used, answered, times out; a lost node joins again. -/
def Obligations.LateralComplete : Prop :=
  (∀ (s : State) (p : Nat), p < 4 → s.poweredDown (LAT_PORT_CTRL.word p) = false → s.f (LAT_PORT_STATUS.STATE p) = latOFF →
    exec (.latPortEnable p) s = .next ((s.setF (LAT_PORT_CTRL.ENABLE p) 1).latEnum p)) ∧
  (∀ (s : State) (p : Nat), p < 4 → s.poweredDown (LAT_PORT_CTRL.word p) = false → s.f (LAT_PORT_CTRL.ENABLE p) ≠ 0 → s.latBound p = false →
    exec (.latPortDisable p) s =
      .next (((s.modLatPort p (fun x => { x with enumAt := none, away := false, joins := [], joinDue := false, pulses := [] })).setF
        (LAT_PORT_CTRL.ENABLE p) 0).latTo p latOFF)) ∧
  (∀ (s : State) (p : Nat), p < 4 → s.poweredDown (LAT_PORT_CTRL.word p) = false → s.inRun = false → s.f (LAT_PORT_CTRL.ENABLE p) ≠ 0 →
    exec (.latRescan p) s = .next (s.latEnum p)) ∧
  (∀ (s t : State) (p : Nat), p < 4 → s.latRuns = true → s.f (LAT_PORT_STATUS.STATE p) = latENUM →
    t = s.modLatPort p (fun x => { x with enumAt := some s.now.toNat }) →
    exec (.latEnumSend p) s = .next (t.emit (.lateral p (s.latFrame p 0x02 (leBytes 2 0 ++ leBytes 2 0 ++ List.replicate 4096 0#8))))) ∧
  (∀ (s : State) (p t0 n : Nat) (f : List Byte) (b : List Byte) (ds : List (List Byte)), p < 4 → s.f (LAT_PORT_STATUS.STATE p) = latENUM →
    (s.latPort p).enumAt = some t0 → latGood 0x02 4112 (some f) = some b → n = min 256 (leAt b 8 2) →
    ds = (List.range n).map (fun i => (b.drop (12 + 16 * i)).take 16) →
    exec (.latEnumReturn p (some f)) s =
      (let s := (s.setF (LAT_PORT_RING.RING_NS p) (min 65535 (s.now.toNat - t0))).setF (LAT_PORT_STATUS.NODES p) n
       let s := s.modLatPort p (fun x => { x with enumAt := none, descs := ds, fresh := [], silent := [] })
       let t := (List.range n).foldl (fun s i =>
         ((((s.setF (LAT_NODE.OLEN p i) (leAt (ds.getD i []) 10 1)).setF (LAT_NODE.ILEN p i) (leAt (ds.getD i []) 11 1)).setF (LAT_NODE.STATE p i) nodeOK).setWord
           (LAT_NODE_ID.word p i) (BitVec.ofNat 32 (leAt (ds.getD i []) 0 4))))
         ((List.range 256).foldl (fun s i =>
           (s.setWord (LAT_NODE.word p i) (s.word (LAT_NODE.word p i) &&& 0xFFC00000#32)).setWord (LAT_NODE_ID.word p i) 0) s)
       .next (if !ds.all descOk || !s.expectOk p ds then s.latMismatch p
              else if 1000 < t.latMinUs p then t.latMismatch p
              else (t.setF (LAT_PORT_STATUS.CYCLE_NOW p) (t.latCycleUs p)).latTo p latRUN))) ∧
  (∀ (s t u : State) (p : Nat), p < 4 → s.latRuns = true → s.f (LAT_PORT_STATUS.STATE p) ≠ latOFF → s.f (LAT_PORT_STATUS.STATE p) ≠ latENUM →
    s.f (LAT_PORT_STATUS.STATE p) ≠ latMISMATCH → t = (if (s.latPort p).away then s.badCycle p else s) →
    u = (t.setB (LAT_PORT_STATUS.SAFE_ALL p) (decide (t.f FLT_STATUS.ACTIVE = 4))).setF (LAT_PORT_STATUS.CYCLE_NOW p) (t.latCycleUs p) →
    exec (.latCycleStart p) s =
      .next (((u.emit (.lateral p (u.latFrame p 0x01 ((List.range (u.latNodes p)).map (fun i => u.segment p i)).flatten))).modLatPort p
        (fun x => { x.spend with away := true, seq := (x.seq + 1) % 65536 })).latSlot p)) ∧
  (∀ (s : State) (p : Nat) (f : Option (List Byte)), p < 4 → (s.latPort p).away = true →
    exec (.latCyclicReturn p f) s = .next (match latGood 0x01 (12 + s.segSum p) f with | some b => s.goodCycle p b | none => s.badCycle p)) ∧
  (∀ (s : State) (p n w : Nat) (v : BitVec 32), p < 4 → n < 256 → w < 16 → s.poweredDown (LAT_OIMG.word p n w) = false →
    (∀ i < 4, s.outBound p n (4 * w + i) = false) → exec (.latOimgWrite p n w v) s = .next (s.setWord (LAT_OIMG.word p n w) v)) ∧
  (∀ (s t : State) (p c : Nat) (x : LatPort) (m : LatMbx), p < 4 → (c = 1 ∨ c = 2) → s.poweredDown (LAT_MBX_CTRL.word p) = false →
    s.b (LAT_MBX_STATUS.BUSY p) = false → s.f (LAT_PORT_STATUS.STATE p) = latRUN → t = s.setF (LAT_MBX_CTRL.CMD p) c → x = t.latPort p → x.mbx = none →
    m = { cmd := c, node := t.f (LAT_MBX_CTRL.NODE p), addr := t.f (LAT_MBX_ADDR.NADDR p), len := t.f (LAT_MBX_CTRL.LEN p),
          data := if c = 2 then ((List.range 32).flatMap (fun w => leBytes 4 (t.word (LAT_MBX_DATA.word p w)).toNat)).take (t.f (LAT_MBX_CTRL.LEN p)) else [],
          tag := (x.tag + 1) % 256 } →
    exec (if c = 1 then .latMbxRead p else .latMbxWrite p) s =
      .next ((t.setLatPort p { x with mbx := some m, tag := m.tag }).setF (LAT_MBX_STATUS.BUSY p) 1)) ∧
  (∀ (s : State) (p : Nat) (m : LatMbx) (f b : List Byte), p < 4 → (s.latPort p).mbx = some m → m.sent = true → latGood 0x03 152 (some f) = some b →
    leAt b 8 1 = m.node → leAt b 10 1 = m.tag → leAt b 11 1 = 2 →
    exec (.latMbxReturn p (some f)) s = .next (s.mbxOver p m 0 (some ((b.drop 20).take 128)))) ∧
  (∀ (s : State) (p : Nat) (m : LatMbx), p < 4 → (s.latPort p).mbx = some m → m.polling = true →
    m.since + 100000000 ≤ s.now.toNat →
    exec (.latMbxTimeout p) s = .next (s.mbxOver p m 4 none)) ∧
  (∀ (s : State) (p n : Nat), p < 4 → s.latRuns = true →
    ((s.lostNodes p).find? (fun i => decide ((s.latPort p).joinTo < i))).or (s.lostNodes p).head? = some n →
    exec (.latJoinSend p) s = .next (s.setLatPort p { s.latPort p with joinTo := n, joinDue := true })) ∧
  (∀ (s : State) (p : Nat) (f b : List Byte), p < 4 → latGood 0x04 16 (some f) = some b → leAt b 10 1 < leAt b 8 2 →
    exec (.latJoinReturn p (some f)) s = .next (s.modLatPort p (fun x => { x with brk := x.brk.filter (· ≠ leAt b 10 1) })))

/-- Fans (R524, R525, R526, R527): a duty is written, a kick ends with the fan running, failed or to be tried again, a speed is measured, a tachometer
is lost and comes back, a fault is cleared. -/
def Obligations.FansComplete : Prop :=
  (∀ (s t : State) (fc : Nat) (d : BitVec 16), fc < 8 → s.poweredDown (LAT_FAN_CTRL.word fc) = false → t = s.setF (LAT_FAN_CTRL.DUTY fc) d.toNat →
    exec (.fanDutyWrite fc d) s =
      .next (if t.fanState fc = fanFAULT then t else if d = 0 then t.fanTo fc fanOFF 0 else if t.fanState fc = fanOFF then t.fanStart fc
             else if t.fanState fc = fanRUN then t.fanTo fc fanRUN d.toNat else t)) ∧
  (∀ (s : State) (fc n : Nat), fc < 8 → s.fanState fc = fanKICK → (s.fan fc).kickAt + 2000000000 ≤ s.now.toNat →
    exec (.fanKickEnd fc n) s =
      .next (if s.f (LAT_FAN_CFG.RPM_MAX fc) < 5 * n then s.fanTo fc fanRUN (s.f (LAT_FAN_CTRL.DUTY fc))
             else if 3 ≤ s.f (LAT_FAN_STATUS.ATTEMPT fc) then s.fanFault fc 0 else s.fanTo fc fanWAIT 0)) ∧
  (∀ (s : State) (fc : Nat), fc < 8 → s.fanState fc = fanWAIT → (s.fan fc).kickAt + 5000000000 ≤ s.now.toNat →
    exec (.fanRetry fc) s = .next (s.fanKick fc)) ∧
  (∀ (s t : State) (fc n : Nat), fc < 8 → s.latRuns = true → t = s.setF (LAT_FAN_STATUS.RPM fc) (min 65535 n) →
    exec (.fanMeasure fc n) s = .next (if t.fanState fc = fanLOST ∧ t.fanHot fc then t.fanFault fc 65536 else t)) ∧
  (∀ (s t : State) (fc : Nat), fc < 8 → s.fanState fc = fanRUN → s.f (LAT_FAN_CFG.TKIND fc) = 1 →
    t = s.setFan fc { s.fan fc with temp := some (1, s.f (THM_SENS.TEMP (s.f (LAT_FAN_CFG.TSRC fc)))) } →
    exec (.fanTachLost fc) s =
      .next (((((t.fanTo fc fanLOST 65536).raise (LAT_FAN_STATUS.WARN fc)).report 0x0D 0 0x16 (0x80000000 + fc * 65536)).pf 5).event (160 + fc))) ∧
  (∀ (s : State) (fc : Nat), fc < 8 → s.fanState fc = fanLOST →
    exec (.fanTachRecover fc) s = .next (s.fanTo fc fanRUN (s.f (LAT_FAN_CTRL.DUTY fc)))) ∧
  (∀ (s t : State) (fc : Nat), fc < 8 → s.poweredDown (LAT_FAN_CTRL.word fc) = false → s.fanState fc = fanFAULT → t = s.fanTo fc fanOFF 0 →
    exec (.fanClear fc) s = .next (if t.f (LAT_FAN_CTRL.DUTY fc) = 0 then t else t.fanStart fc))

/-- The turnout (R93, R458, R482, R483, R499, R529, R530, R531, R532, R533, R534): a round counts each task's firings; each hardware task acts once
for one pending firing; a software task signals; tasks are acknowledged and configured; software events, timers and web compares raise their events.
-/
def Obligations.TurnoutComplete : Prop :=
  (∀ (s : State), s.trnRuns = true →
    exec .turnoutRound s =
      .next (((List.range 256).filterMap (fun tk => if taskUsed tk ∧ s.firings tk ≠ 0 then some (tk, s.firings tk) else none)).foldl
        (fun s x => s.countTask x.1 x.2) { s with trn := { s.trn with events := [], srcOld := [], cancelled := [] } })) ∧
  (∀ (s t : State) (ax tk : Nat), ax < 24 → s.trnRuns = true → s.f (TRN_TK_STATE.PEND tk) ≠ 0 →
    t = s.setF (TRN_TK_STATE.PEND tk) (s.f (TRN_TK_STATE.PEND tk) - 1) →
    (tk = ax → exec (.taskAxGo ax) s = .next (t.axGo ax)) ∧
    (tk = 24 + ax → exec (.taskAxStop ax) s = .next (t.axStopCmd ax)) ∧
    (tk = 48 + ax → exec (.taskAxQstop ax) s = .next (t.axQstopCmd ax)) ∧
    (tk = 72 + ax → exec (.taskAxCapture ax) s =
      .next ((t.setI32 (MOT_AX_CAP_POS.word ax) (t.axPos ax)).setWord (MOT_AX_CAP_ENC.word ax) (t.word (MOT_AX_ENC_POS.word ax))))) ∧
  (∀ (s t : State) (i tk : Nat), s.trnRuns = true → s.f (TRN_TK_STATE.PEND tk) ≠ 0 → t = s.setF (TRN_TK_STATE.PEND tk) (s.f (TRN_TK_STATE.PEND tk) - 1) →
    (i < 64 → tk = 96 + i → exec (.taskLoopIndex i) s = .next (t.modLoop i (fun x => { x with zero := t.lpPosCount i }))) ∧
    (i < 28 → tk = 160 + i → exec (.taskEncCapture i) s = .next (t.setWord (TRN_ENC_CAP.word i) (t.word (TRN_ENC_CNT.word i)))) ∧
    (tk = 188 → exec .taskTimerStart s = .next ((List.range 4).foldl (fun s j => if s.b (TRN_TIMER.EN j) then s.startTimer j else s) t)) ∧
    (i < 8 → tk = 192 + i → (∀ q < 4, (s.latPort q).pulses.any (fun x => x.i = i) = false) →
      exec (.taskLatPulse i) s = .next (t.modLatPort (s.f (TRN_LP_CFG.PORT i)) (fun x => { x with pulses := x.pulses ++
        [⟨i, t.f (TRN_LP_CFG.CYCLES i), t.f (TRN_LP_CFG.NODE i), t.f (TRN_LP_CFG.BYTE i), t.f (TRN_LP_CFG.BIT i), t.b (TRN_LP_CFG.LEVEL i)⟩] }))) ∧
    (tk = 200 → exec .taskTofCapture s =
      .next (if (t.set64 TRN_TOF_LO.word t.scn.webLine).sheetMode && (t.set64 TRN_TOF_LO.word t.scn.webLine).inRun &&
                !(t.set64 TRN_TOF_LO.word t.scn.webLine).ringMember
             then (t.set64 TRN_TOF_LO.word t.scn.webLine).sheetEdge else t.set64 TRN_TOF_LO.word t.scn.webLine))) ∧
  (∀ (s : State) (i : Nat), i < 48 → s.trn.owed.getD 0 (208 + i) ≠ 0 →
    exec (.taskSwSignal i) s =
      .next ({ s with trn := { s.trn with owed := s.trn.owed.set 0 (208 + i) (s.trn.owed.getD 0 (208 + i) - 1) } }.pf (194 + (208 + i)))) ∧
  (∀ (s : State) (tk n : Nat), 208 ≤ tk → tk < 256 → s.poweredDown (TRN_TK_STATE.word tk) = false → tk ∉ s.roundOf 4 mkAck →
    exec (.taskAck tk n) s = .next (s.setF (TRN_TK_STATE.PEND tk) (s.f (TRN_TK_STATE.PEND tk) - n))) ∧
  (∀ (s t : State) (tk : Nat) (v : BitVec 32), tk < 256 → taskUsed tk = true → s.poweredDown (TRN_TK_CFG.word tk) = false →
    t = s.setWord (TRN_TK_CFG.word tk) (v &&& 0x13F#32) →
    exec (.taskConfigWrite tk false v) s = .next (if t.b (TRN_TK_CFG.EN tk) then t else t.setF (TRN_TK_STATE.PEND tk) 0)) ∧
  (∀ (s : State) (b : BitVec 8), s.poweredDown TRN_SW.word = false →
    exec (.swEventRaise b) s = .next ((List.range 8).foldl (fun s i => if b.getLsbD i then s.event (232 + i) else s) s)) ∧
  (∀ (s t : State) (i : Nat), i < 4 → s.trnRuns = true → s.b (TRN_TIMER.EN i) = true →
    s.trn.timers.getD 0 i + s.f (TRN_TIMER.PERIOD_US i) * 1000 ≤ s.now.toNat → t = (s.event (172 + i)).startTimer i →
    exec (.timerExpire i) s = .next (if t.b (TRN_TIMER.ONESHOT i) then t.setF (TRN_TIMER.EN i) 0 else t)) ∧
  (∀ (s : State) (i : Nat) (v : BitVec 32), i < 8 → s.poweredDown (TRN_WC_HI.word i) = false →
    exec (.webCompareArm i v) s =
      .next { s.setWord (TRN_WC_HI.word i) v with trn := { s.trn with armed := s.trn.armed.filter (· ≠ i) ++ [i] } }) ∧
  (∀ (s : State) (i : Nat), s.trnRuns = true → s.trn.armed.contains i = true → s.get64 (TRN_WC_LO.word i) ≤ s.scn.webLine →
    exec (.webCompareFire i) s = .next ({ s with trn := { s.trn with armed := s.trn.armed.filter (· ≠ i) } }.event (224 + i)))

/-- The ring and its ports (R542, R544, R548, R561, R562, R565): the ring is enabled, started again, told to unfold; a port comes up, goes down, wraps
at a FOLD or its notice; the unfold check, message and moment; the INDEX goes out and comes in. -/
def Obligations.RingComplete : Prop :=
  (∀ (s : State), s.poweredDown CUL_CTRL.word = false → s.b CUL_CTRL.ENABLE = false → exec (.culEnable true) s = .next (s.setF CUL_CTRL.ENABLE 1).ringStart) ∧
  (∀ (s : State), s.poweredDown CUL_CTRL.word = false → s.b CUL_CTRL.ENABLE = true → s.inRun = false →
    exec (.culEnable false) s =
      .next (((((s.ringStop.setF CUL_CTRL.ENABLE 0).setF CUL_STATUS.INDEX 15).setF CUL_MEMBERS.PRESENT 0).setF CUL_MEMBERS.ABSENT 0).setF
        CUL_MEMBERS.FOLD_AT 15)) ∧
  (∀ (s : State), s.poweredDown CUL_CTRL.word = false → s.b CUL_STATUS.MASTER = true → s.b CUL_CTRL.ENABLE = true → s.inRun = false →
    exec .culRestart s = .next s.ringStart) ∧
  (∀ (s : State), s.poweredDown CUL_CTRL.word = false → s.b CUL_STATUS.MASTER = true → s.b CUL_CTRL.ENABLE = true → s.culState = culFOLDED →
    (s.portState true = 3 ∧ s.cul.backE = false) ∨ (s.portState false = 3 ∧ s.cul.backW = false) →
    exec .culUnfold s = .next { s with cul := { s.cul with check := true } }) ∧
  (∀ (s : State) (q : Nat), s.poweredDown CUL_CTRL.word = false → s.ringMaster = true → s.b CUL_STATUS.MASTER = true → s.b CUL_CTRL.ENABLE = true →
    s.culState = culFOLDED → (s.portState true = 3 → s.cul.backE = true) → (s.portState false = 3 → s.cul.backW = true) →
    s.cul.backAt + 100000000 ≤ s.now.toNat → q = (s.cul.tbSeq.getD 0 + 101) % 65536 →
    exec .culUnfold s =
      .next ({ s with cul := { s.cul with check := false, unfold := some q } }.culBroadcast 0x51 (leBytes 2 q ++ leBytes 6 0))) ∧
  (∀ (s t : State) (e : Bool), s.culHears = true → t = s.setLanes e 15 → t.portState e ≠ 3 →
    exec (.culPortUp e) s =
      .next (if (t.setPortState e 2).culState = culTRAIN && (t.setPortState e 2).portState true = 2 && (t.setPortState e 2).portState false = 2
             then (t.setPortState e 2).setCul culINDEX else t.setPortState e 2)) ∧
  (∀ (s t : State) (e : Bool) (l : BitVec 4), s.culHears = true → t = s.setLanes e l.toNat → t.culState = culRING → t.portState e ≠ 3 →
    exec (.culPortDown e l) s = .next (t.wrapPort e)) ∧
  (∀ (s : State) (e : Bool), s.culHears = true → s.portState e = 2 → s.culState = culRING → exec (.culFoldReceived e) s = .next (s.wrapPort e)) ∧
  (∀ (s t : State) (e : Bool) (m : List Byte), s.culTake 0x50 e m = (true, t) →
    let d := t.linkAt (leAt (msgBody m) 0 1 % 16) (leAt (msgBody m) 1 1 = 0)
    exec (.culFoldNotice e m) s = .next ((if t.culState = culRING then t.countFold d else t).foldHeard d)) ∧
  (∀ (s : State) (q : Nat), s.ringMaster = true → s.culState = culFOLDED → (s.portState true = 3 → s.cul.backE = true) →
    (s.portState false = 3 → s.cul.backW = true) → s.cul.backAt + 100000000 ≤ s.now.toNat → q = (s.cul.tbSeq.getD 0 + 101) % 65536 →
    exec .culUnfoldCheck s =
      .next ({ s with cul := { s.cul with check := false, unfold := some q } }.culBroadcast 0x51 (leBytes 2 q ++ leBytes 6 0))) ∧
  (∀ (s t : State) (e : Bool) (m : List Byte), s.culTake 0x51 e m = (true, t) →
    exec (.culUnfoldMsg e m) s = .next { t with cul := { t.cul with unfold := some (leAt (msgBody m) 0 2) } }) ∧
  (∀ (s t : State) (q : Nat), s.culHears = true → s.cul.unfold = some q → s.seqReached q = true →
    t = (({ s with cul := { s.cul with unfold := none } } : State).unwrapPort true).unwrapPort false →
    exec .culUnwrap s =
      .next (if t.culState = culFOLDED && t.portState true = 2 && t.portState false = 2 then (t.setF CUL_MEMBERS.FOLD_AT 15).setCul culRING else t)) ∧
  (∀ (s t : State), s.culHears = true → s.b CUL_STATUS.MASTER = true → s.culState = culINDEX → t = s.setF CUL_STATUS.INDEX 0 →
    exec .culIndexSend s =
      .next ((t.culMake 0x01 15 (indexBody 1 false t.indexEntry)).2.culOut true (t.culMake 0x01 15 (indexBody 1 false t.indexEntry)).1)) ∧
  (∀ (s t : State) (e : Bool) (m b : List Byte), s.culHears = true → msgType m = 0x01 → msgOk m = true → s.b CUL_STATUS.MASTER = true →
    s.ownIndex m = true → s.culState = culINDEX → msgWrapped m = false → b = msgBody m → leAt b 1 1 = 0 → msgHops m + 1 = leAt b 0 1 → t = s.takeTable b →
    exec (.culIndex e m) s =
      .next ((t.culMake 0x01 15 (indexBody (leAt b 0 1) true ((b.drop 4).take 32))).2.culOut true
        (t.culMake 0x01 15 (indexBody (leAt b 0 1) true ((b.drop 4).take 32))).1).delayStart) ∧
  (∀ (s : State) (e : Bool) (m : List Byte), s.culHears = true → msgType m = 0x01 → msgOk m = true → s.b CUL_STATUS.MASTER = false →
    s.culState ≠ culCONFLICT → s.inRun = false → leAt (msgBody m) 1 1 = 0 → exec (.culIndex e m) s = .next (s.takeIndex e m))

/-- Messages of the ring (R545, R548, R549, R550, R552, R554, R555, R556, R557, R558, R559, R560): delays are asked and answered, the timebase goes
out, is taken and lost, status is sent and taken, faults are heard, messages forwarded, and the parts of a line page committed, taken, sent again,
scheduled and spoiled. -/
def Obligations.RingMessagesComplete : Prop :=
  (∀ (s t : State) (e : Bool) (n : Nat) (m : List Byte), s.culTake 0x02 e m = (true, t) →
    exec (.culDelayReq e n m) s = .next (t.culSend 0x03 (msgSrc m) ((msgBody m).take 4 ++ leBytes 4 n) (!e))) ∧
  (∀ (s t : State) (e : Bool) (m : List Byte) (d : CulDelay), s.culTake 0x03 e m = (true, t) → t.cul.delay = some d → t.culState = culDELAY →
    msgSrc m = d.dev → leAt (msgBody m) 0 4 = d.round → d.round < 8 →
    exec (.culDelayRsp e m) s =
      .next { t with cul := { t.cul with delay := some { d with round := d.round + 1, sum := d.sum + (t.now.toNat - d.sent - leAt (msgBody m) 4 4) } } }.delayAsk) ∧
  (∀ (s m : State) (q : List Byte), s.culLive = true → s.b CUL_STATUS.MASTER = true → s.syncSpeed.culMake 0x10 15 s.syncSpeed.timebaseBody = (q, m) →
    exec .culTimebaseSend s =
      .next (({ m with cul := { m.cul with tbSeq := some (msgSeq q), tbAt := m.now.toNat,
                                           ending := m.cul.ending.map (fun n => n + 1) } } : State).culOut true q |>.culOut false q)) ∧
  (∀ (s t : State) (e : Bool) (w : Nat) (m : List Byte), s.culHears = true → msgType m = 0x10 → msgOk m = true → s.ownBack m = false →
    t = s.culForward e (m.take 35 ++ leBytes 4 (leAt m 35 4 + w) ++ m.drop 39) → t.b CUL_STATUS.MASTER = false → msgWrapped m = false → t.culLive = true →
    t.tbOld (msgSeq m) = false → exec (.culTimebase e w m) s = .next (t.applyTimebase e m)) ∧
  (∀ (s t : State), s.culLive = true → s.b CUL_STATUS.MASTER = false → s.cul.tbSeq.isSome = true → s.cul.tbAt + 30000 ≤ s.now.toNat →
    t = ({ s with cul := { s.cul with tbSeq := none } } : State).setF CUL_TB.LOCKED 0 →
    exec .culTimebaseLost s =
      .next (if 100000 < s.cul.tbSpeed.natAbs then t.culReport 4 0x13 t.culIndex else (t.setCul culLOCKING).culReport 1 0x13 t.culIndex)) ∧
  (∀ (s : State), s.culLive = true → s.b CUL_STATUS.MASTER = false → s.b CUL_TB.LOCKED = true →
    exec .culStatusSend s =
      .next (s.culSend 0x11 0 (leBytes 1 s.power ++ leBytes 1 ((if s.allLocked then 1 else 0) + (if s.stopActive then 2 else 0)) ++
        leBytes 1 (s.ownOrder.getD 7) ++ leBytes 1 0 ++ leBytes 2 (s.cul.tbSeq.getD 0) ++ leBytes 2 0))) ∧
  (∀ (s t u : State) (e : Bool) (m b : List Byte), s.culTake 0x11 e m = (true, t) → t.culLive = true → t.b CUL_STATUS.MASTER = true → msgSrc m < 8 →
    b = msgBody m → t.culState ≠ culLOCKING →
    u = { t with cul := { t.cul with
        stats := t.cul.stats.set {} (msgSrc m) { engine := leAt b 0 1, locked := bit (leAt b 1 1) 0, fault := bit (leAt b 1 1) 1, weir := leAt b 2 1 % 8 },
        heard := t.cul.heard ||| BitVec.ofNat 8 (2 ^ msgSrc m) } } → u.culState = t.culState →
    exec (.culStatus e m) s = .next u) ∧
  (∀ (s t : State) (e : Bool) (m : List Byte), s.culTake 0x12 e m = (true, t) → (leAt (msgBody m) 1 1 = 3 ∨ leAt (msgBody m) 1 1 = 4) →
    exec (.culFault e m) s = .next (t.culReport (leAt (msgBody m) 1 1) 0x15 (leAt (msgBody m) 0 1))) ∧
  (∀ (s : State) (e : Bool) (m : List Byte), s.culHears = true → msgOk m = true → s.ownBack m = false → msgDst m ≠ s.culIndex → msgDst m ≠ 15 →
    exec (.culMessageForward e true m) s = .next (s.culForward e m)) ∧
  (∀ (s : State) (e : Bool) (m : List Byte), s.culHears = true → exec (.culMessageForward e false m) s = .next (s.satInc CUL_ERR.BAD_MSG)) ∧
  (∀ (s t : State) (e : Bool) (m : List Byte) (x : CulPart), s.culTake 0x20 e m = (true, t) → t.ringMaster = true → x = parsePart (msgSrc m) (msgBody m) →
    t.cul.parts.any (fun p => p.same x) = false → t.cul.lines.any (fun l => l.parts.any (fun p => p.same x)) = false →
    exec (.culPartCommit e m) s = .next { t with cul := { t.cul with parts := t.cul.parts ++ [x] } }) ∧
  (∀ (s : State) (x : CulPart), firstPart s.cul.parts = some x → s.ringMaster = true → x.stamp + 20000 ≤ s.now.toNat →
    exec .culPartTake s = .next (({ s with cul := { s.cul with parts := s.cul.parts.filter (fun p => p ≠ x) } } : State).takePart x)) ∧
  (∀ (s t : State) (i : BitVec 64) (m b : List Byte), s.cul.owed.find? (isPartOf i) = some m → s.ringMember = true → (s.partPage i).isSome = true →
    s.pages.frames.any (fun f => f.line = some i) = false → b = msgBody m →
    t = { s with cul := { s.cul with owed := s.cul.owed.filter (fun x => !isPartOf i x) } } →
    exec (.culPartResend i) s =
      .next ((t.culSend 0x20 0 (b.take 35 ++ leBytes 1 (leAt b 35 1 ||| 2) ++ b.drop 36) true true).satInc CUL_ERR2.RESENT)) ∧
  (∀ (s t : State) (e : Bool) (m : List Byte), s.culTake 0x21 e m = (true, t) → t.inRun = true →
    exec (.culSchedule e m) s = .next (t.takeSchedule (msgBody m))) ∧
  (∀ (s t : State) (e : Bool) (m : List Byte), s.culTake 0x22 e m = (true, t) → leAt (msgBody m) 8 1 = 6 →
    exec (.culPageSpoil e m) s = .next (t.spoilPart (BitVec.ofNat 64 (leAt (msgBody m) 0 8))))

/-- The calibration sweep over the ring (R436, R437, R438, R548, R567): it is started and ended, its steps and targets time out, and its messages are
taken. -/
def Obligations.SweepCalibrationComplete : Prop :=
  (∀ (s t : State), s.poweredDown INS_XCAL_CTRL.word = false → s.ringMaster = true → s.cul.xrun = false → s.f INS_XCAL_CTRL.PAGES ≠ 0 →
    t = ((s.setF INS_XCAL_STATUS.STATE xcMEASURING).setF INS_XCAL_STATUS.STEPS 0).setF INS_XCAL_STATUS.ABSENT 0 →
    exec .xcalStart s =
      .next (({ t with cul := { t.cul with xsweep := (s.cul.xsweep + 1) % 256, xrun := true, xmeas := s.f INS_XCAL_CTRL.MEAS,
                                           xpages := s.f INS_XCAL_CTRL.PAGES, xfeats := [], xheld := none },
                       ins := { t.ins with sweepSide := some (s.f INS_XCAL_CTRL.SIDE) } } : State).culBroadcast 0x30
        (leBytes 1 (s.f INS_XCAL_CTRL.PAGES) ++ leBytes 1 (s.f INS_XCAL_CTRL.SIDE) ++ leBytes 1 (s.f INS_XCAL_CTRL.MEAS) ++
          leBytes 1 ((s.cul.xsweep + 1) % 256) ++ leBytes 4 0))) ∧
  (∀ (s : State), s.poweredDown INS_XCAL_CTRL.word = false → s.b CUL_STATUS.MASTER = true → exec .xcalAbort s = .next (s.xcalAbandon 0)) ∧
  (∀ (s t : State) (own : List (Nat × Option Nat × Option Nat)), s.cul.xrun = true → s.ringMaster = true → s.f INS_XCAL_STATUS.STATE = xcMEASURING →
    (s.cul.xmeas = s.culIndex → s.cul.xpages = 0) → s.xcalTargetsOf s.variant.stations = (own, t) →
    exec .xcalCollect s =
      (let u := ({ t with cul := { t.cul with xheld := some own } } : State).setF INS_XCAL_STATUS.STATE xcCOLLECTING
       .next (u.xcalNext u.culOthers))) ∧
  (∀ (s : State), s.cul.xrun = true → s.b CUL_STATUS.MASTER = true → s.f INS_XCAL_STATUS.STATE = xcCOLLECTING →
    exec .xcalStepTimeout s =
      .next ((s.culAnswered 0x32 s.cul.xstep).xcalAbandon
        ((s.culOthers.filter
          (fun d => decide (d = s.cul.xstep ∨ (s.f CUL_MEMBERS.FOLD_AT < s.cul.xstep ∧ s.cul.xstep < d)))).foldl (fun (a : Nat) d => a + 2 ^ d) 0))) ∧
  (∀ (s : State), s.cul.xheld.isSome = true → s.b CUL_STATUS.MASTER = false → exec .xcalTargetTimeout s = .next s.xcalForget) ∧
  (∀ (s t : State) (e : Bool) (m b : List Byte), b = msgBody m → s.culTake 0x30 e m = (true, t) →
    exec (.xcalStartMsg e m) s =
      .next { t with cul := { t.cul with xsweep := leAt b 3 1, xrun := true, xmeas := leAt b 2 1, xpages := leAt b 0 1, xfeats := [], xheld := none },
                     ins := { t.ins with sweepSide := some (leAt b 1 1 % 2) } }) ∧
  (∀ (s t : State) (e : Bool) (m : List Byte), s.culTake 0x31 e m = (true, t) → t.cul.xrun = true → leAt (msgBody m) 10 1 = t.cul.xsweep →
    exec (.xcalFeatures e m) s = .next { t with cul := { t.cul with xfeats := t.cul.xfeats ++ [(msgSrc m, msgBody m)] } }) ∧
  (∀ (s t : State) (e : Bool) (m b : List Byte), s.culTake 0x32 e m = (true, t) → t.cul.xrun = true → b = msgBody m → leAt b 0 1 = t.cul.xsweep →
    exec (.xcalTargets e m) s =
      .next (({ t with cul := { t.cul with xheld := t.readTargets b } } : State).culSend 0x33 (msgSrc m)
        (leBytes 1 t.cul.xsweep ++ leBytes 1 (((t.readTargets b).map List.length).getD 0) ++ leBytes 1 (if (t.readTargets b).isSome then 0 else 1) ++
          leBytes 5 0) (!e))) ∧
  (∀ (s t : State) (e : Bool) (m b : List Byte) (d : Nat), s.culTake 0x33 e m = (true, t) → t.cul.xrun = true → t.b CUL_STATUS.MASTER = true →
    t.f INS_XCAL_STATUS.STATE = xcCOLLECTING → d = msgSrc m → d = t.cul.xstep → b = msgBody m → leAt b 0 1 = t.cul.xsweep → leAt b 2 1 = 0 →
    exec (.xcalReply e m) s =
      (let u := t.culAnswered 0x32 d
       let v := u.setF INS_XCAL_STATUS.STEPS (u.f INS_XCAL_STATUS.STEPS + 1)
       .next (v.xcalNext (u.culOthers.filter (fun k => decide (d < k)))))) ∧
  (∀ (s t : State) (e : Bool) (m : List Byte), s.culTake 0x34 e m = (true, t) → t.cul.xrun = true → leAt (msgBody m) 0 1 = t.cul.xsweep →
    exec (.xcalCommit e m) s = .next t.xcalAdopt) ∧
  (∀ (s t : State) (e : Bool) (m : List Byte), s.culTake 0x35 e m = (true, t) → t.cul.xrun = true → leAt (msgBody m) 0 1 = t.cul.xsweep →
    exec (.xcalAbandon e m) s = .next t.xcalForget)

/-- The field network (R566, R573, R576, R579, R582, R584, R586, R588, R589, R593, R707, R708): state requests are refused or granted, watchdogs and
process data act, SYNC0 and reads sample, links change, files are written and read, an unsupported mailbox is answered. -/
def Obligations.FieldNetworkComplete : Prop :=
  (∀ (s t : State) (g : Nat) (w : BitVec 16) (mo si : Bool) (a b c : Nat), s.escOn = true →
    t = (s.setF ECT_ADDR.STATION w.toNat).setF ECT_SYNC.CYCLE_NS c → t.alCode g mo a b c = none → g ≠ alINIT → g ≠ alSAFEOP →
    exec (.alStateRequest g w mo a b c si) s = .next (if g < t.alState ∨ g = alBOOT then t.alDrop g 0 else t.setAl g 0)) ∧
  (∀ (s t : State) (g code : Nat) (w : BitVec 16) (mo si : Bool) (a b c : Nat), s.escOn = true →
    t = (s.setF ECT_ADDR.STATION w.toNat).setF ECT_SYNC.CYCLE_NS c → t.alCode g mo a b c = some code →
    exec (.alStateRequest g w mo a b c si) s = .next (((t.setAl t.alState code).satInc ECT_ERR2.STATE_ERR).ectReport 0 0x12)) ∧
  (∀ (s : State), s.escOn = true → s.rxAssigned = true → s.alState = alOP → exec .sm2Watchdog s = .next (s.alDrop alSAFEOP 0x001B)) ∧
  (∀ (s : State) (d : List Byte), s.escOn = true → s.alState = alOP → s.rxAssigned = true → s.serverRuns = true → d.length = s.pdoBytes true →
    exec (.rxpdoApply d) s =
      .next ((({ s with ect := { s.ect with outs := d } } : State).pdoLayout true).foldl (fun (t : State) (e : Nat × Nat × Nat × Nat) =>
        if e.2.1 = 0 then t else t.applyEntry e.2.1 e.2.2.1 (bits (leNat d) e.1 e.2.2.2)) { s with ect := { s.ect with outs := d } })) ∧
  (∀ (s t u : State) (dc : BitVec 64) (fresh : Bool), s.escOn = true → s.f ECT_SYNC.CYCLE_NS ≠ 0 →
    t = (s.measureDc dc).set64 ECT_SYNC_TB_LO.word s.now.toNat → u = (if t.dcSync && t.pdoRuns then t.sampleTx else t) →
    (u.rxAssigned = false ∨ fresh = true) → exec (.sync0Edge dc fresh) s = .next u) ∧
  (∀ (s : State), s.escOn = true → s.pdoRuns = true → s.dcSync = false → exec .sm3ReadComplete s = .next s.sampleTx) ∧
  (∀ (s : State) (dc : BitVec 64), s.escOn = true → s.f ECT_SYNC.CYCLE_NS = 0 → exec (.dcOffsetMeasure dc) s = .next (s.measureDc dc)) ∧
  (∀ (s : State), s.escOn = true → s.b ECT_STATUS.LINK0 = false →
    exec (.ectLinkChange 0 true) s = .next ((s.setF ECT_STATUS.LINK0 1).pf 451)) ∧
  (∀ (s : State), s.escOn = true → s.b ECT_STATUS.LINK1 = true →
    exec (.ectLinkChange 1 false) s = .next (((s.setF ECT_STATUS.LINK1 0).pf 451).satInc ECT_ERR.LINK_LOSS)) ∧
  (∀ (s : State) (n : String) (d : List Byte) (l : Bool), s.escOn = true → s.alState = alBOOT → (n = "SX-FW" ∨ n = "SX-SII") →
    exec (.foeWrite n 0 0 d l) s = .next (({ s with ect := { s.ect with foe := some { sii := decide (n = "SX-SII") } } } : State).foeReply 4 0)) ∧
  (∀ (s : State) (n : String) (pw : BitVec 32) (k : Nat) (d : List Byte) (x : Foe), s.escOn = true → s.alState = alBOOT → k ≠ 0 →
    s.ect.foe = some x → x.packet = k → x.sii = true → (x.data ++ d).length ≤ 512 + 2048 →
    exec (.foeWrite n pw k d false) s =
      .next (({ s with ect := { s.ect with foe := some { x with packet := k + 1, data := x.data ++ d } } } : State).foeReply 4 k)) ∧
  (∀ (s t : State) (n : String) (pw : BitVec 32) (k : Nat) (d : List Byte) (x : Foe), s.escOn = true → s.alState = alBOOT → k ≠ 0 →
    s.ect.foe = some x → x.packet = k → x.sii = false → (x.data ++ d).length ≤ 2 ^ 26 →
    t = s.emit (.bootFlash (slotBase (1 - s.boot.slot) + x.data.length) d) →
    exec (.foeWrite n pw k d false) s =
      .next (({ t with ect := { t.ect with foe := some { x with packet := k + 1, data := x.data ++ d } } } : State).foeReply 4 k)) ∧
  (∀ (s : State) (n : String), s.escOn = true → s.alState ≠ alINIT →
    exec (.foeRead n) s = .next (s.foeReply 5 (if n = "SX-FW" ∨ n = "SX-SII" then 0x8002 else 0x8001))) ∧
  (∀ (s : State) (p : Nat), s.escOn = true → s.alState ≠ alINIT → p ≠ 3 → p ≠ 4 →
    exec (.mailboxUnsupported p) s = .next (s.emit (.ect (leBytes 2 1 ++ leBytes 2 2)))) ∧
  (∀ (s : State), s.coeOpen = true →
    exec .storeParameters s = .next (s.sdoArrive (.coe (.download 0x1010 1 false (leBytes 4 0x65766173)))) ∧
    exec .restoreDefaults s = .next (s.sdoArrive (.coe (.download 0x1011 1 false (leBytes 4 0x64616F6C))))) ∧
  (∀ (s : State) (d : List Byte), s.coeOpen = true → exec (.calSetWrite d) s = .next (s.sdoArrive (.coe (.download 0x5800 3 false d)))) ∧
  (∀ (s : State) (ok : Bool), s.evr.stores.isEmpty = false → (s.calStored ok).hif.hold = none → exec (.calStoreComplete ok) s = .next (s.calStored ok)) ∧
  (∀ (s t : State) (e : Bool) (m b : List Byte), s.culTake 0x40 e m = (true, t) → t.ringMember = true → b = msgBody m →
    exec (.culOdReq e m) s = .next (t.sdoArrive (.ring (msgSrc m) (leAt b 0 2) (leAt b 2 1) (leAt b 3 1) ((b.drop 12).take (leAt b 4 2))))) ∧
  (∀ (s u : State) (e : Bool) (m b : List Byte) (t : Tunnel) (q : SdoReq), s.culTake 0x41 e m = (true, u) → u.hif.tunnel = some t → u.hif.hold = some q →
    b = msgBody m → t.dev = msgSrc m → t.index = leAt b 0 2 → t.sub = leAt b 2 1 →
    exec (.culOdRsp e m) s =
      .next ((u.culAnswered 0x40 t.dev).tunnelEnd q (leAt b 8 4) (if t.upload then (b.drop 12).take (leAt b 4 2) else []))) ∧
  (∀ (s : State) (t : Tunnel) (q : SdoReq), s.hif.tunnel = some t → s.hif.hold = some q →
    exec .culTunnelTimeout s = .next ((s.culAnswered 0x40 t.dev).tunnelEnd q 0x05040000 []))

/-- The power sequencer (R616, R617): a program word is written or refused, and the word at the counter runs by its opcode. -/
def Obligations.SequencerComplete : Prop :=
  (∀ (s : State) (i : Nat) (v : BitVec 32), i < 64 → s.poweredDown (PWR_SEQ_PROG.word i) = false → s.word (PWR_SEQ_PROG.word i) ≠ v → s.seqOpen = true →
    seqWordOk v.toNat = true →
    exec (.seqProgramWrite i v) s = .next (s.setWord (PWR_SEQ_PROG.word i) v)) ∧
  (∀ (s : State) (i : Nat) (v : BitVec 32), i < 64 → s.poweredDown (PWR_SEQ_PROG.word i) = false → s.word (PWR_SEQ_PROG.word i) ≠ v →
    (s.seqOpen = false ∨ seqWordOk v.toNat = false) →
    exec (.seqProgramWrite i v) s = .next (s.raise PWR_STATUS.CTRL_REFUSED)) ∧
  (∀ (s : State), s.seqAt 0 = true → exec .seqEnd s = .next (s.seqOver (bits s.seqWord 0 8))) ∧
  (∀ (s : State), s.seqAt 1 = true →
    exec .seqEnable s = .next (((s.setF PWR_RAIL_REQ.REQ (setBit (s.f PWR_RAIL_REQ.REQ) (bits s.seqWord 0 5) true)).railSync).seqNext false none)) ∧
  (∀ (s t : State) (k : Nat), s.seqAt 2 = true → k = bits s.seqWord 0 5 → t = s.setF (PWR_RAIL_STATUS.LATCH k) 0 →
    exec .seqDisable s = .next ((t.setF PWR_RAIL_REQ.REQ (setBit (s.f PWR_RAIL_REQ.REQ) k false)).railSync.seqNext false none)) ∧
  (∀ (s : State), s.seqAt 3 = true → exec .seqWait s = .next (s.seqNext true none)) ∧
  (∀ (s : State) (x : Bool), s.seqAt 4 = true → (s.railGood (bits s.seqWord 16 5) = true ∨ x = true) →
    exec (.seqWaitpg x) s = .next ((s.setB PWR_SEQ_STATUS.F (s.railGood (bits s.seqWord 16 5))).seqNext true none)) ∧
  (∀ (s : State) (k : Nat), s.seqAt 5 = true → k = bits s.seqWord 16 5 → bits s.seqWord 21 3 = 4 →
    exec .seqCheck s =
      .next ((s.setB PWR_SEQ_STATUS.F (decide (s.f (PWR_RAIL_UV.WARN k) ≤ s.f (PWR_RAIL_STATUS.MV k) ∧ s.f (PWR_RAIL_STATUS.MV k) ≤ s.f (PWR_RAIL_OV.WARN k)))).seqNext
        false none)) ∧
  (∀ (s : State), s.seqAt 6 = true → exec .seqJump s = .next (s.seqNext false (some (bits s.seqWord 0 6)))) ∧
  (∀ (s : State), s.seqAt 7 = true →
    exec .seqJumpif s = .next (s.seqNext false (if s.b PWR_SEQ_STATUS.F = bit s.seqWord 8 then some (bits s.seqWord 0 6) else none))) ∧
  (∀ (s : State), s.power ≠ pwrOFF → s.f PWR_SEQ_STATUS.STATE = sqRUNNING → exec .seqLimitTimeout s = .next (s.seqOver 0xFF))

/-- Supplies, rails, temperature (R607, R608, R611, R612, R613, R620, R621): the PMIC is polled, the core supply paced and watched, a rail is
measured, loses and regains its power-good, its blanking ends; the sensors are read and the weir's grace ends. -/
def Obligations.SuppliesComplete : Prop :=
  (∀ (s t : State) (f : Option Nat), s.boot.cores = true → s.power ≠ pwrHIBERNATE → s.power ≠ pwrOFF → t = { s with pwr := { s.pwr with pmbusUsed := true } } →
    exec (.pmbusPoll false f) s = .next (((t.raise PWR_PMIC.BUS_ERR).report 0x11 1 0x11).pf 6) ∧ exec (.pmbusPoll true none) s = .next t) ∧
  (∀ (s t u : State) (sl : List (BitVec 16)) (x : Int) (r : List Int), s.boot.cores = true → s.power ≠ pwrHIBERNATE → s.power ≠ pwrOFF →
    t = (List.range 20).foldl (fun (t : State) m => t.setF (PWR_PACE.SLACK m) (if s.paceOn m then (sl.getD m 0).toNat else 0x8000)) s →
    u = { t.setF PWR_AVS_STATUS.VREAD (min (s.f PWR_AVS_STATUS.VSET) 2047) with pwr := { s.pwr with avsFails := 0 } } →
    ((List.range 20).filter s.paceOn).map (fun m => (sl.getD m 0).toInt) = x :: r →
    exec (.paceEvaluate sl (s.f PWR_AVS_STATUS.VSET)) s =
      .next ((u.govern (r.foldl (fun (a : Int) y => min a y) x)).pace (r.foldl (fun (a : Int) y => min a y) x))) ∧
  (∀ (s : State), s.power ≠ pwrHIBERNATE → s.power ≠ pwrOFF → exec .vddCoreUndervolt s = .next ((s.report 0x11 4 0x14).pf 6)) ∧
  (∀ (s : State) (cs : List (BitVec 12)), s.power ≠ pwrOFF →
    exec (.railMonitorReading cs) s =
      .next ((List.range 32).foldl (fun (s : State) k =>
        let v := (cs.getD k 0).toNat * s.f (PWR_RAIL_CFG.SCALE k) / 4096
        let t := s.setF (PWR_RAIL_STATUS.MV k) v
        if t.railChecked k && t.railMon k then t.railCheck k v else t) s).railSync) ∧
  (∀ (s t : State) (k : Nat), k < 32 → s.power ≠ pwrOFF → t = s.setF (PWR_RAIL_STATUS.PG k) 0 → t.railChecked k = true → t.b (PWR_RAIL_CFG.PG_EN k) = true →
    (t.rail k).hitPg = false →
    exec (.railPgDrop k) s =
      .next (((t.setRail k { t.rail k with hitPg := true }).satInc (PWR_RAIL_CNT2.PGDROP k)).railFault k 0x17).railSync) ∧
  (∀ (s : State) (k : Nat), k < 32 → s.power ≠ pwrOFF →
    exec (.railPgRise k) s = .next ((s.setF (PWR_RAIL_STATUS.PG k) 1).setRail k { s.rail k with hitPg := false }).railSync) ∧
  (∀ (s : State) (k : Nat), k < 32 → s.railEn k = true → (s.rail k).blanked = false →
    exec (.railBlankEnd k) s = .next (s.setRail k { s.rail k with blanked := true }).railSync) ∧
  (∀ (s : State) (ts : List (BitVec 16)), s.power ≠ pwrOFF → s.b CLK_STATUS.REFCLK_OK = true →
    exec (.thermalSensorRound ts) s = .next (s.thermalRound ts)) ∧
  (∀ (s t : State), s.pwr.grace = true → s.pwr.changed = false → t = { s with pwr := { s.pwr with grace := false, changed := false } } →
    bit (t.f THM_WEIR.ACTIVE) 0 = true → t.classNow < t.scn.asks.getD 0 0 →
    exec .weirGraceExpiry s = .next { (t.satInc THM_WEIR.ENFORCED).pf 5 with pwr := { t.pwr with ordered := true } })

/-- Power states (R587, R602, R603, R604, R625, R718): a request is written; each step goes where its conditions hold, or is refused; and the ways
into reset, hibernation and boot. -/
def Obligations.PowerStatesComplete : Prop :=
  (∀ (s : State) (v : Nat), s.poweredDown PWR_STATE.word = false → v ≤ 5 → (s.ringMember = true → v ≠ pwrRUN) →
    exec (.powerStateRequest v) s = .next (s.setF PWR_STATE.REQ v)) ∧
  (∀ (s : State) (v : Nat), s.poweredDown PWR_STATE.word = false → 5 < v → exec (.powerStateRequest v) s = .next (s.raise PWR_STATE.REFUSED)) ∧
  (∀ (s : State), s.goesUp pwrREADY = true → s.ringMember = false → s.runRefusal = none → exec .powerStepReadyToRun s = .next (s.enterRun s.nextClass)) ∧
  (∀ (s : State), s.goesDown pwrRUN = true → s.pwr.runUp = false → exec .powerStepRunToReady s = .next s.leaveRun) ∧
  (∀ (s : State), s.syncSpeed.goesDown pwrREADY = true → s.syncSpeed.f SCN_WEB_SPEED.SPEED < 10000 → s.syncSpeed.ringMaster = false →
    exec .powerStepReadyToStandby s = .next (s.syncSpeed.linksOff.stepDone pwrSTANDBY)) ∧
  (∀ (s : State), s.goesUp pwrSTANDBY = true → exec .powerStepStandbyToReady s = .next (((s.stepDone pwrREADY).linksOn).stageTo 11)) ∧
  (∀ (s : State), s.goesDown pwrSTANDBY = true → s.b PWR_STATE.STEPPING = false →
    exec .powerStepStandbyToSleep s = .next (((s.setF PWR_STATE.STEPPING 1).goToSleep).seqStart false)) ∧
  (∀ (s : State), s.goesUp pwrSLEEP = true → s.b PWR_STATE.STEPPING = false → s.boot.cores = true → bit (s.f THM_WEIR.ACTIVE) 0 = false →
    exec .powerStepSleepToStandby s = .next (((s.setF PWR_STATE.STEPPING 1).seqStart true).stageTo 9)) ∧
  (∀ (s : State), s.goesDown pwrSLEEP = true → s.b PWR_STATE.STEPPING = false → exec .powerStepSleepToHibernate s = .next s.armWake.hibernate) ∧
  (∀ (s t : State), s.goesDown pwrHIBERNATE = true → t = (s.pmicOff.railsOff).resetRegs 0x800000 0xC00000 →
    exec .powerStepHibernateToOff s =
      .next ((({ t with pwr := { t.pwr with dcWake := false } } : State).setF PWR_STATE.NOW pwrOFF).hdgSync)) ∧
  (∀ (s : State), s.power = pwrHIBERNATE → s.b THM_SHUT.ACTIVE = false → exec .wakeNFall s = .next (s.bootStart 1)) ∧
  (∀ (s : State), s.power = pwrHIBERNATE → s.b THM_SHUT.ACTIVE = false → s.pwr.dcWake = true → exec .dcWakeTimer s = .next (s.bootStart 2)) ∧
  (∀ (s : State), s.b THM_SHUT.ACTIVE = true →
    restartRounds ≤ s.pwr.cool → exec .thermalRestart s = .next ((s.setF THM_SHUT.ACTIVE 0).bootStart 3)) ∧
  (∀ (s : State), exec .vddAonLow s = .next (s.porBase true))

/-- Boot and reset (R606, R626, R652, R730, R738): a supply comes up or not, the memory is trained, the firmware verified, and a reset is asserted,
released, or is the power-on reset itself. -/
def Obligations.BootComplete : Prop :=
  (∀ (s : State) (e : Nat), s.boot.running = true → s.pwr.enable = some e →
    exec (.pmicPowerGood e) s = .next (if e < 3 then s.raisePmic (e + 1) else s.bootRom)) ∧
  (∀ (s t : State) (e : Nat), s.boot.running = true → s.pwr.enable = some e → s.pwr.tries + 1 < 3 →
    t = (s.pmicOff.lastWord 0x11 0x10 0 0 (e * 256)).setF PWR_BOOT.CAUSE (0x30 + e) →
    exec (.pmicEnableTimeout e) s =
      .next { t with pwr := { t.pwr with enable := none, tries := s.pwr.tries + 1, retry := true, supCause := some e } }) ∧
  (∀ (s : State), s.boot.running = true → s.pwr.retry = true → exec .pmicRetry s = .next (s.raisePmic 0)) ∧
  (∀ (s t : State) (ch n : Nat) (k : List Byte), s.boot.running = true → 3 ≤ s.f PWR_BOOT.STAGE → s.boot.dramDone = false →
    (∀ p ∈ [12, 13, 14, 15], bit (s.f CLK_STATUS.LOCKED) p = true) → s.b SEC_STATUS.TRNG_FAIL = false →
    s.drawn 8 = (t, k) →
    exec (.dramTrained true ch n) s =
      .next { t.stageTo 6 with boot := { s.boot with dramDone := true, installed := n, xts := k } }) ∧
  (∀ (s t : State) (dir : Nat × Nat × Nat) (ha pa pb : List Byte) (hb : Option (List Byte)) (jo bo : Bool),
    s.boot.running = true → s.boot.dramDone = true → dir.1 % 2 = 0 →
    t = { s with boot := { s.boot with dirSeq := dir.2.1, dirRec := dir.2.2 % 2 } } → t.slotCode (some ha) pa = 0 →
    exec (.firmwareVerified dir (some ha) pa hb pb jo bo) s = .next (t.startCores 0 (leAt ha 8 4) false jo bo)) ∧
  (∀ (s t : State) (dir : Nat × Nat × Nat) (hb pa pb : List Byte) (ha : Option (List Byte)) (jo bo : Bool),
    s.boot.running = true → s.boot.dramDone = true → dir.1 % 2 = 0 →
    t = { s with boot := { s.boot with dirSeq := dir.2.1, dirRec := dir.2.2 % 2 } } → t.slotCode ha pa ≠ 0 → t.slotCode (some hb) pb = 0 →
    exec (.firmwareVerified dir ha pa (some hb) pb jo bo) s = .next (t.startCores 1 (leAt hb 8 4) true jo bo)) ∧
  (∀ (s t u : State) (st tm si : Bool), t = (s.porBase false).latchFuses.otpShow.factoryTaps →
    u = ((if s.sessionLevel ≠ 0 then t.setF SEC_DBG_STATUS.CLOSE_CAUSE 4 else t).setB CUL_STATUS.MASTER st).setF CLK_STATUS.REFCLK_OK 1 →
    exec (.powerOnReset st tm si) s =
      .next (if tm then { u with boot := { strap := st, testMode := tm }, ect := { siiOk := si } }
             else ({ u with boot := { strap := st, testMode := tm }, ect := { siiOk := si } } : State).bootStart 0)) ∧
  (∀ (s t : State), s.power ≠ pwrHIBERNATE → s.power ≠ pwrOFF → s.b THM_SHUT.ACTIVE = false → s.boot.sysReset = false → s.sessionLevel = 0 →
    t = (((({ s with boot := { s.boot with sysReset := true } } : State).hdgSync.aliveStop.lastWord 0x16 0x22).seqStop.railSync.engineStop 4).darken
      true).gatesShut →
    exec .sysResetAssert s =
      .next (((({ t with boot := { t.boot with sysReset := true }, pwr := { t.pwr with runUp := false } } : State).setF PWR_STATE.STEPPING 0).setF PWR_STATE.NOW pwrSLEEP).setB
        CUL_STATUS.MASTER t.boot.strap).hdgSync.railSync) ∧
  (∀ (s t : State), s.boot.sysReset = true →
    t = { s with now := 0, boot := { s.boot with sysReset := false, running := true, stopped := false } } →
    exec .sysResetRelease s = .next ((t.setF PWR_BOOT.CAUSE 0).setF PWR_BOOT.STAGE 3).hdgSync.railSync.bootRom)

/-- OTP, life cycle, debug tokens (R635, R639, R646, R647, R648, R654, R656, R657, R659, R661): a command of the OTP port starts, an operation ends, a
life-cycle step is asked for and done, the version and the revocation rise, a challenge is drawn, a token submitted and judged, a session closed or
expired, the random source fails and recovers. -/
def Obligations.SecurityComplete : Prop :=
  (∀ (s : State) (a : Nat), s.poweredDown OTP_CMD.word = false →
    exec (.otpReadS a) s = .next (s.otpStart (.readS (a % 2048))) ∧
    exec (.otpWriteS a) s = .next (s.otpStart (.writeS (a % 2048) s.otpData)) ∧
    exec (.otpSetP a) s = .next (s.otpStart (.setP (a % 2048) (s.otpData.setWidth 32)))) ∧
  (∀ (s : State) (w : Nat) (d bad : BitVec 64) (e : Nat), s.otp.op = some (.writeS w d) → s.otp.code = 0 →
    exec (.otpOperationDone bad e) s =
      .next ((((s.setOtpWord w { written := true, data := d, err := if d &&& bad ≠ 0#64 then 2 else 0 }).setF OTP_STATUS.CODE
        (if d &&& bad ≠ 0#64 then 3 else 0)).otpNext).otpShow)) ∧
  (∀ (s : State) (k : Nat), s.poweredDown SEC_LC.word = false →
    exec (.lcRequestSecured k) s = .next (s.askSecured k) ∧ exec (.lcRequestReturned k) s = .next (s.askReturned k)) ∧
  (∀ (s : State), s.lc = lcBLANK → s.provisioned = true → s.b SEC_STATUS.TRNG_FAIL = false →
    s.askSecured 0xA5 = s.otpInternal (.transition lcSECURED)) ∧
  (∀ (s : State) (b : Bool), s.otp.op = some (.transition lcFIELD) → s.lc = lcSECURED →
    exec (.lcTransitionDone b) s = .next (s.lcDone lcFIELD).otpNext) ∧
  (∀ (s : State) (b : Bool), s.otp.op = some (.transition lcRETURNED) → s.lc ≠ lcRETURNED →
    exec (.lcTransitionDone b) s = .next (s.obliterate.lcDone lcRETURNED).otpNext) ∧
  (∀ (s : State), s.poweredDown SEC_SVN_CTRL.word = false → exec .svnCommit s = .next s.svnCommit) ∧
  (∀ (s : State) (n : Nat), s.poweredDown SEC_TOKEN_EPOCH.word = false → n ≤ 256 → s.thermo rowsToken 8 < n →
    exec (.tokenRevoke n) s = .next (s.otpInternal (.thermo rowsToken 8 n))) ∧
  (∀ (s : State), s.poweredDown (SEC_CHAL.word 0) = false →
    exec .challengeRead s = .next (s.drawChallenge.emit (.completion 0 (s.drawChallenge.word (SEC_CHAL.word 0))))) ∧
  (∀ (s : State) (t : List Byte), s.poweredDown SEC_DBG_CTRL.word = false → s.sec.token = none →
    exec (.tokenSubmit (some t)) s =
      .next { s.setF SEC_DBG_STATUS.STATE 1 with sec := { s.sec with token := some t } }) ∧
  (∀ (s u : State) (t : List Byte), s.sec.token = some t → s.tokenCode t false = 0 → leAt t 5 1 ≠ 3 →
    u = ({ s.setF SEC_DBG_STATUS.STATE (if s.sessionLevel = 0 then 0 else 2) with sec := { s.sec with token := none } } : State).tokenJudged 0 →
    exec .tokenCheckDone s = .next (u.openSession (leAt t 5 1) (leAt t 52 4))) ∧
  (∀ (s : State), s.poweredDown SEC_DBG_CTRL.word = false → exec .sessionClose s = .next (s.closeSession 1)) ∧
  (∀ (s : State), s.sessionLevel ≠ 0 → s.sec.opened + s.sec.life * 1000000000 ≤ s.now.toNat → exec .sessionExpired s = .next (s.closeSession 2)) ∧
  (∀ (s t : State), s.b SEC_STATUS.TRNG_FAIL = false → t = { s with sec := { s.sec with trngAt := some s.now.toNat } } →
    exec .trngHealthFail s = .next ((t.setF SEC_STATUS.TRNG_FAIL 1).secReport 1 0x17 0)) ∧
  (∀ (s : State), (∀ a, s.sec.trngAt = some a → a + 1000000 ≤ s.now.toNat) → exec .trngRecover s = .next (s.setF SEC_STATUS.TRNG_FAIL 0))

/-- The debug port (R660, R662, R663, R664): each instruction of the port, in the life cycles and sessions that let it act. -/
def Obligations.DebugPortComplete : Prop :=
  (∀ (s : State), s.tapOn = true → exec .jtagBypass s = .next s.bypass) ∧
  (∀ (s : State), s.tapOn = true →
    exec .jtagIdcode s = .next ((s.setIr 0x01#8).shiftOut 0 (s.f HIF_REV.DIE_REV % 16 * 2 ^ 28 + s.variant.code * 2 ^ 12 + 0x1E7))) ∧
  (∀ (s t : State) (cs : List Bool), s.tapOn = true → t = { s.setIr 0x02#8 with tap := { s.tap with ir := 0x02#8, cells := cs } } →
    exec (.jtagSamplePreload cs) s = .next (t.shiftOut 0 t.free.toNat).drew) ∧
  (∀ (s : State), s.tapOn = true →
    exec .jtagExtest s = .next ((s.setIr 0x03#8).report 0x15 4 0x1A) ∧ exec .jtagClamp s = .next ((s.setIr 0x04#8).report 0x15 4 0x1A) ∧
    exec .jtagHighz s = .next ((s.setIr 0x05#8).report 0x15 4 0x1A)) ∧
  (∀ (s t : State) (off : Nat) (d : BitVec 32), s.tapOn = true → secMbxReaches off = true →
    t = { s with tap := { s.tap with ir := 0x10#8, dr := BitVec.ofNat 64 (off * 2 ^ 32 + d.toNat) } } →
    exec (.jtagSecMbx true off d) s = .next ((t.regWrite (tapWr off d)).shiftOut 0 0) ∧
    exec (.jtagSecMbx false off d) s = .next ((t.tapRead off).2.shiftOut 0 (t.tapRead off).1.toNat)) ∧
  (∀ (s : State) (a d : BitVec 64), s.tapOn = true → reachO ≤ s.reach →
    exec (.jtagDbgAccess dbgRegRead a d) s =
      .next (((s.setIr 0x20#8).tapRead a.toNat).2.shiftOut 0 ((s.setIr 0x20#8).tapRead a.toNat).1.toNat)) ∧
  (∀ (s : State) (op : Nat) (a d : BitVec 64), s.tapOn = true → reachC ≤ s.reach → op ≠ dbgRegRead →
    (s.setIr 0x20#8).reach = s.reach → exec (.jtagDbgAccess op a d) s = .next ((s.setIr 0x20#8).dbgControl op a d)) ∧
  (∀ (s : State) (op : Nat) (a d : BitVec 64), s.tapOn = true → s.reach < reachO → exec (.jtagDbgAccess op a d) s = .next s.bypass) ∧
  (∀ (s : State) (op a : Nat) (d : BitVec 64), s.tapOn = true → reachP ≤ s.reach →
    exec (.jtagOtpAccess op a d) s = .next (((s.setIr 0x21#8).otpCmd op a d).shiftOut 0 0))

/-- Reports, safety gate, records (R674, R678, R679, R680, R681, R682, R683, R685, R687, R689, R690, R691, R692, R694, R702, R704, R705): a report is
delivered or lost, the queue and the latches are served, a stop recovers; copies are compared, the control cores' heartbeat is kept; covers, encoders,
emitters and duty drive the gate; records are kept, read and cleared. -/
def Obligations.SafetyComplete : Prop :=
  (∀ (s t : State) (r : Report), firstReport s.waiting = some r → s.roundOf 20 mkTake = [] →
    t = (((({ s with waiting := s.waiting.erase r } : State).mark mkTake 0).event (154 + r.cls)).capture r).enqueue r →
    exec .sumpReport s =
      .next ((if (!s.b FLT_STATUS.FE_VALID && decide (s.f FLT_CTRL.FE_MIN ≤ r.cls)) || decide (2 ≤ r.cls) then t.pf 3 else t).classEffect r |>.boundaryTest r)) ∧
  (∀ (s : State) (r : Report), lastReport s.waiting = some r → r.stamp.toNat + 1000 ≤ s.now.toNat →
    exec .sumpReportLost s = .next ((({ s with waiting := s.waiting.erase r } : State).satInc (FLT_OVR.LOST r.cls)).classEffect r |>.boundaryTest r)) ∧
  (∀ (s : State), s.poweredDown FLT_CTRL.word = false →
    exec .sumpRearm s = .next ((s.setF FLT_STATUS.FE_VALID 0).setWord FLT_FE_INFO.word (s.word FLT_FE_INFO.word &&& 0xEFFFFFFF#32)) ∧
    exec .sumpRelease s = .next s.releaseLatch) ∧
  (∀ (s : State), s.poweredDown FLT_Q_POP.word = false → ((s.roundOf 20 mkTake).filter (· = 1)).length < s.flt.queue.length →
    exec .sumpPop s = .next ({ s with flt := { s.flt with queue := s.flt.queue.drop 1 } } : State).showQueue) ∧
  (∀ (s t u : State), s.quietOver = true →
    t = (List.range 12).foldl (fun (s : State) st => s.setF (HDG_ST_STATUS.CUT st) 0) ((s.setF FLT_STATUS.ACTIVE 0).setF FLT_STATUS.QUIET 0) →
    u = ((t.hdgSync.railSync).resumeChannels.composerResume).loopsResume →
    exec .sumpRecovery s =
      (let v := ({ u with flt := { u.flt with quietAt := none, recovs := u.now.toNat :: u.flt.recovs } } : State).syncWindow
       let w := (v.satInc FLT_RECOV_CNT.TOTAL)
       let x := w.record 0x17 0x02 5 (s.f FLT_STATUS.ACTIVE) (v.f FLT_RECOV_CNT.IN_WINDOW)
       .next (if 10 * (x.f THM_CFG.CRIT : Int) - 10 * (x.f THM_CFG.HYST : Int) ≤ x.fi THM_STATUS.HOT
              then (x.report 0x12 3 0x1D (x.f THM_STATUS.HOT_S)).pf 5 else x))) ∧
  (∀ (s : State), s.power ≠ pwrOFF → s.quietSync.b FLT_STATUS.SELF_FAIL = false →
    exec (.selfCheckCompare true false) s = .next (s.quietSync.selfFail 0x16) ∧
    exec (.selfCheckCompare false true) s = .next (s.quietSync.selfFail 0x09)) ∧
  (∀ (s : State), s.poweredDown FLT_HB.word = false →
    exec .heartbeatKick s = .next { s with flt := { s.flt with kickAt := s.now.toNat } }) ∧
  (∀ (s : State), s.b FLT_HB_CFG.EN = true → s.boot.cores = true → s.sec.halted = false → s.flt.kickAt + s.f FLT_HB_CFG.MS * 1000000 ≤ s.now.toNat →
    exec .heartbeatTimeout s = .next (({ s with flt := { s.flt with kickAt := s.now.toNat } } : State).report 0x16 4 0x21)) ∧
  (∀ (s : State), s.aliveOk = true →
    exec .aliveToggle s = .next { s.drivePin wireAlive s.hdg.alive (!s.hdg.alive) with hdg := { s.hdg with alive := !s.hdg.alive } }) ∧
  (∀ (s t : State) (c : Nat), c < 4 → s.hdgOn = true → bit (s.f HDG_STATUS.IL_OPEN) c = false →
    t = s.setF HDG_STATUS.IL_OPEN (setBit (s.f HDG_STATUS.IL_OPEN) c true) →
    exec (.interlockChange c true) s =
      (let u := t.enabledStations.foldl (fun (s : State) st =>
         if bit (s.f (HDG_IL_MAP.MAP c)) st then s.setF (HDG_ST_STATUS.LAST_CAUSE st) 3 else s) t
       .next (((u.satInc HDG_CNT.IL).hdgSync).hdgReport (if u.inRun then 4 else 0) 0x12 0xFF c))) ∧
  (∀ (s : State) (e : Nat), s.hdgOn = true → e < 28 →
    exec (.tachEdge e) s =
      .next (s.enabledStations.foldl (fun (u : State) st =>
        if u.f (HDG_ST_CFG.TACH st) = e then
          (u.setHdgSt st { u.hdgSt st with last := some s.now.toNat }).gateTo st (!((u.hdgSt st).last.any (fun l => u.tachOk st (s.now.toNat - l))))
        else u) s)) ∧
  (∀ (s : State) (st : Nat), s.hdgOn = true → s.stationOn st = true →
    (∀ l, (s.hdgSt st).last = some l → s.tachOk st (s.now.toNat - l) = false) → exec (.speedGateTimeout st) s = .next (s.gateTo st true)) ∧
  (∀ (s t : State) (st e : Nat), s.hdgOn = true → s.stationOn st = true → e < 72 →
    t = ((s.setF (HDG_ST_STATUS.CUT st) 1).setF (HDG_ST_STATUS.LAST_CAUSE st) 1).setF (HDG_ST_STATUS.EMITTER st) e →
    exec (.emitterOntimeExceeded st e) s =
      .next ((((t.setHdgSt st { t.hdgSt st with low := 0 }).satInc HDG_CNT.ONTIME).hdgSync).hdgReport 4 0x10 st e)) ∧
  (∀ (s : State) (on : List (List Nat)), s.hdgOn = true →
    exec (.dutyEvaluate on) s = .next (s.enabledStations.foldl (fun (s : State) st => s.dutyStep st (on.getD st [])) s).quietSync) ∧
  (∀ (s : State) (v : BitVec 32), s.poweredDown HDG_DUTY.word = false → s.inRun = false → 10 ≤ v.toNat % 65536 → v.toNat % 65536 ≤ 90 →
    v.toNat / 65536 = 65535 - v.toNat % 65536 → s.word HDG_DUTY.word ≠ v →
    exec (.hdgLimitWrite HDG_DUTY.word v) s = .next (s.setWord HDG_DUTY.word v).hdgSync) ∧
  (∀ (s : State) (r : EvrRec), s.b EVR_STATUS.NOR_FAIL = false → s.b EVR_STATUS.CLEARING = false →
    (s.evr.mirror.drop (s.evr.mirror.length - s.evr.unwritten)).head? = some r →
    exec (.recordFlashWrite true) s =
      (let t := if r.slot % 128 = 0 then s.eraseSector r.slot r.seq else s
       .next (t.setEvr { t.evr with flash := t.evr.flash.put r.slot r, badSlots := t.evr.badSlots.filter (fun k => k ≠ r.slot),
                                    unwritten := t.evr.unwritten - 1 }).flushing)) ∧
  (∀ (s : State) (q : BitVec 32), s.poweredDown EVR_RD_SEQ.word = false → exec (.recordRead q) s = .next (s.readRecord q)) ∧
  (∀ (s : State), s.poweredDown EVR_CLEAR.word = false → s.b EVR_STATUS.CLEARING = false → (s.lc = lcBLANK ∨ s.lc = lcRETURNED) →
    exec (.recordClear 0xC101#32) s = .next (s.startClear 0xFFFFFFFF)) ∧
  (∀ (s : State), s.b EVR_STATUS.CLEARING = true →
    exec .recordClearDone s = .next (((s.clearSectors (s.f EVR_OLDEST.SEQ)).setF EVR_STATUS.CLEARING 0).flushing))

/-- A queue is disabled only where it has no active page and no backlog; otherwise the write is ignored and CTRL_REFUSED is set (R121). ACTIVE and
BACKLOG of HIF_Q_LOAD show the two numbers. -/
def Obligations.BusyQueueStaysOn : Prop :=
  ∀ (s : State) (fn : Nat), s.Canonical → s.fnOpen fn = true → s.qState fn ≠ qDISABLED →
    ((s.activePages fn ≠ 0 ∨ (s.fn fn).backlog ≠ []) → exec (.qDisable fn) s = .next (s.raise (HIF_Q_STATUS.CTRL_REFUSED fn))) ∧
    (s.activePages fn = 0 → (s.fn fn).backlog = [] →
      ∃ t, exec (.qDisable fn) s = .next t ∧ t.f (HIF_Q_CTRL.ENABLE fn) = 0 ∧ t.qState fn = qDISABLED)

/-- A write of 0 to a lateral port's ENABLE while a loop that is not OFF binds the port is ignored and sets LAT_STATUS.CTRL_REFUSED (R537). -/
def Obligations.BoundPortStaysOn : Prop :=
  ∀ (s : State) (p : Nat), p < 4 → s.poweredDown (LAT_PORT_CTRL.word p) = false → s.latBound p = true →
    exec (.latPortDisable p) s = .next (s.raise LAT_STATUS.CTRL_REFUSED)

/-- A request for a class faster than the fastest permitted one is refused with FEATURE_ABSENT, and the class in force stays (R10); a member of a ring
takes its class from the master and refuses every request (R34); in a state that powers the block down the write is reported (R39). -/
def Obligations.FasterClassRefused : Prop :=
  ∀ (s : State) (m : Nat) (v : BitVec 32), s.Canonical → v.toNat % 8 < s.variant.fastest →
    (s.poweredDown SCN_CTRL.word = false → s.ringMember = false →
      ∃ t, exec (.classRequest m v) s = .next t ∧ t.f SCN_STATE.REFUSE = 1 ∧ t.classNow = s.classNow ∧ s.SameWords t [SCN_STATE.word] ∧ t.scn = s.scn) ∧
    (s.poweredDown SCN_CTRL.word = false → s.ringMember = true → exec (.classRequest m v) s = .next (s.raise CUL_STATUS.CTRL_REFUSED)) ∧
    (s.poweredDown SCN_CTRL.word = true → exec (.classRequest m v) s = .next (s.darkWrite SCN_CTRL.word v.toNat m))

/-- A write of HIF_CQ_HEAD frees slots up to a head that does not pass the tail; a head that would pass it, or that names no slot, is ignored and sets
CQ_HEAD_ERR (R113). -/
def Obligations.RingHeadNeverPassesTail : Prop :=
  ∀ (s : State) (fn head : Nat), s.fnOpen fn = true → head < 65536 →
    exec (.cqHeadWrite fn head) s =
      .next (if s.cqSlots fn ≤ head ∨ (s.f (HIF_CQ_TAIL.TAIL fn) + s.cqSlots fn - s.f (HIF_CQ_HEAD.HEAD fn)) % s.cqSlots fn <
          (s.f (HIF_CQ_TAIL.TAIL fn) + s.cqSlots fn - head) % s.cqSlots fn
        then s.raise (HIF_Q_STATUS.CQ_HEAD_ERR fn)
        else s.setF (HIF_CQ_HEAD.HEAD fn) head)

/-- A PRINT descriptor whose CHECK holds and which sets both NO_SPOOL and REPRINT_ON_SPOIL is refused with BAD_DESCRIPTOR, status 0x25 (R54). -/
def Obligations.BothReprintFlagsRefused : Prop :=
  ∀ (s : State) (fn : Nat) (desc : List Byte) (src : Option (List Byte)), s.reading fn = true → (parsePage desc).opcode = 1 →
    (parsePage desc).checkOk = true → (parsePage desc).noSpool = true → (parsePage desc).reprintOnSpoil = true →
    exec (.pagePrint fn desc src) s = .next ((s.entryRead fn).refuse fn (parsePage desc) 0x25)

/-- A latched Sump is cleared only by RELEASE: RELEASE clears LATCHED and forgets the recoveries of the window; without LATCHED it has no effect; and
a latched Sump does not recover (R687). -/
def Obligations.LatchedSumpWaitsForRelease : Prop :=
  (∀ (s : State), s.Canonical → s.poweredDown FLT_CTRL.word = false → s.b FLT_STATUS.LATCHED = true →
    ∃ t, exec .sumpRelease s = .next t ∧ t.f FLT_STATUS.LATCHED = 0 ∧ t.flt.recovs = [] ∧ t.f FLT_RECOV_CNT.IN_WINDOW = 0 ∧
      s.SameWords t [FLT_STATUS.word, FLT_RECOV_CNT.word]) ∧
  (∀ (s : State), s.poweredDown FLT_CTRL.word = false → s.b FLT_STATUS.LATCHED = false → exec .sumpRelease s = .next s) ∧
  (∀ (s : State), s.b FLT_STATUS.LATCHED = true → exec .sumpRecovery s = .next s)

/-- A block that is powered down answers a read of a low word with zero and ignores a write, and each access is reported as a C0 of cause 0x03 (R39).
-/
def Obligations.DarkBlocksReadZero : Prop :=
  (∀ (s : State) (fn off o src : Nat), s.fnOpen fn = true → (if fn = 0 then (some off, srcOf off) else s.vfTarget fn off) = (some o, src) →
    off % 4 = 0 → o < 0x4000000 → (findReg o).isSome = true → s.darkAt o = true →
    exec (.lowWordRead fn off false) s = .next ((s.reportAccess src 0x03 1 fn off 0).emit (.completion 0 0))) ∧
  (∀ (s : State) (fn off o src : Nat) (v : BitVec 32), s.fnOpen fn = true → fn < 16 →
    (if fn = 0 then (some off, srcOf off) else s.vfTarget fn off) = (some o, src) → off % 4 = 0 → o < 0x4000000 → (findReg o).isSome = true →
    s.darkAt o = true → exec (.registerWrite fn off v none) s = .next (s.reportAccess src 0x03 2 fn off v.toNat))

/-- These commands change only the register words named for them: every other register, every dictionary object that is no register, the pages and
every byte of memory stay as they were. -/
def Obligations.NamedWordsOnly : Prop :=
  ∀ (c : Instr) (s t : State) (l : List Nat), s.Canonical → writtenWords c = some l → exec c s = .next t →
    s.SameWords t l ∧ t.objs = s.objs ∧ t.pages = s.pages ∧ s.SameMemory t

/-- The audit export and the debug port's memory write store only the bytes of their own: the audit's from the address the destination registers give,
as many as the capture has and the limit allows; the debug port's eight bytes at the address it is given (R440, R660). -/
def Obligations.StoredBytesOnly : Prop :=
  (∀ (s t : State) (fail a : Nat), s.Canonical → exec (.auditExportDone fail) s = .next t →
    (a < s.f INS_AUDIT_DST_HI.ADDR * 2 ^ 32 + s.f INS_AUDIT_DST_LO.ADDR * 64 ∨
      s.f INS_AUDIT_DST_HI.ADDR * 2 ^ 32 + s.f INS_AUDIT_DST_LO.ADDR * 64 + s.f INS_AUDIT_LIMIT.BYTES ≤ a) →
    t.dram.getD 0 a = s.dram.getD 0 a ∧ t.tile = s.tile ∧ t.spool = s.spool) ∧
  (∀ (s t : State) (addr data : BitVec 64) (a : Nat), s.Canonical → exec (.jtagDbgAccess dbgMemWrite addr data) s = .next t →
    (a < addr.toNat ∨ addr.toNat + 8 ≤ a) → t.dram.getD 0 a = s.dram.getD 0 a ∧ t.tile = s.tile ∧ t.spool = s.spool)

end
end

