-- ==== Sys2Proof/Laws/Store.lean ====
section
/-! SUPPORT. Laws of sparse stores: a read after a write, and the canonical form kept by every operation. -/
namespace Sys2Proof.Machine
set_option Elab.async false

theorem Store.risesFrom_mono {α : Type} {s : Store α} {a b : Nat} (h : s.risesFrom b = true) (hab : a ≤ b) : s.risesFrom a = true := by
  cases s with
  | nil => rfl
  | cons e t =>
    obtain ⟨j, v⟩ := e
    simp only [Store.risesFrom, Bool.and_eq_true, decide_eq_true_eq] at h ⊢
    exact ⟨by omega, h.2⟩

theorem Store.getD_of_rises {α : Type} {d : α} {s : Store α} {a k : Nat} (h : s.risesFrom a = true) (hk : k < a) : s.getD d k = d := by
  cases s with
  | nil => rfl
  | cons e t =>
    obtain ⟨j, v⟩ := e
    simp only [Store.risesFrom, Bool.and_eq_true, decide_eq_true_eq] at h
    have h1 : j ≠ k := by omega
    have h2 : k < j := by omega
    simp [Store.getD, h1, h2]

/-! ## put -/

theorem Store.risesFrom_put {α : Type} (s : Store α) (k : Nat) (v : α) : ∀ a, a ≤ k → s.risesFrom a = true → (s.put k v).risesFrom a = true := by
  induction s with
  | nil => intro a ha _; simp [Store.put, Store.risesFrom, ha]
  | cons e t ih =>
    obtain ⟨j, w⟩ := e
    intro a ha h
    simp only [Store.risesFrom, Bool.and_eq_true, decide_eq_true_eq] at h
    by_cases h1 : j = k
    · subst h1; simp [Store.put, Store.risesFrom, h.1, h.2]
    · by_cases h2 : k < j
      · simp only [Store.put, Store.risesFrom, h1, h2, if_true, if_false, Bool.and_eq_true, decide_eq_true_eq]
        exact ⟨ha, by omega, h.2⟩
      · simp only [Store.put, h1, h2, if_false, Store.risesFrom, Bool.and_eq_true, decide_eq_true_eq]
        exact ⟨h.1, ih (j + 1) (by omega) h.2⟩

theorem Store.mem_put {α : Type} {s : Store α} {k : Nat} {v : α} {e : Nat × α} (h : e ∈ s.put k v) : e = (k, v) ∨ e ∈ s := by
  induction s with
  | nil => simpa [Store.put] using h
  | cons x t ih =>
    obtain ⟨j, w⟩ := x
    by_cases h1 : j = k
    · simp only [Store.put, h1, if_true, List.mem_cons] at h
      exact h.imp_right (List.mem_cons_of_mem _)
    · by_cases h2 : k < j
      · simp only [Store.put, h1, h2, if_true, if_false, List.mem_cons] at h
        simpa [List.mem_cons] using h
      · simp only [Store.put, h1, h2, if_false, List.mem_cons] at h
        rcases h with h | h
        · exact .inr (by simp [h])
        · exact (ih h).imp_right (List.mem_cons_of_mem _)

theorem Store.getD_put_self {α : Type} (d : α) (s : Store α) (k : Nat) (v : α) : (s.put k v).getD d k = v := by
  induction s with
  | nil => simp [Store.put, Store.getD]
  | cons e t ih =>
    obtain ⟨j, w⟩ := e
    by_cases h1 : j = k
    · simp [Store.put, Store.getD, h1]
    · by_cases h2 : k < j
      · simp [Store.put, Store.getD, h1, h2]
      · simp [Store.put, Store.getD, h1, h2, ih]

theorem Store.getD_put_ne {α : Type} (d : α) (s : Store α) {k m : Nat} (v : α) (hm : m ≠ k) : (s.put k v).getD d m = s.getD d m := by
  induction s with
  | nil =>
    have : k ≠ m := fun h => hm h.symm
    simp [Store.put, Store.getD, this]
  | cons e t ih =>
    obtain ⟨j, w⟩ := e
    have hkm : k ≠ m := fun h => hm h.symm
    by_cases h1 : j = k
    · subst h1
      simp only [Store.put, if_true, Store.getD, hkm, if_false]
    · by_cases h2 : k < j
      · simp only [Store.put, h1, h2, if_true, if_false, Store.getD, hkm]
        by_cases h3 : m < k
        · have : j ≠ m := by omega
          have h4 : m < j := by omega
          simp [h3, this, h4]
        · simp [h3]
      · simp only [Store.put, h1, h2, if_false, Store.getD]
        by_cases h3 : j = m
        · simp [h3]
        · by_cases h4 : m < j
          · simp [h3, h4]
          · simp [h3, h4, ih]

/-! ## erase -/

theorem Store.risesFrom_erase {α : Type} (s : Store α) (k : Nat) : ∀ a, s.risesFrom a = true → (s.erase k).risesFrom a = true := by
  induction s with
  | nil => intro a _; rfl
  | cons e t ih =>
    obtain ⟨j, w⟩ := e
    intro a h
    have h' := h
    simp only [Store.risesFrom, Bool.and_eq_true, decide_eq_true_eq] at h
    by_cases h1 : j = k
    · simp only [Store.erase, h1, if_true]
      exact Store.risesFrom_mono h.2 (by omega)
    · by_cases h2 : k < j
      · simpa [Store.erase, h1, h2] using h'
      · simp only [Store.erase, h1, h2, if_false, Store.risesFrom, Bool.and_eq_true, decide_eq_true_eq]
        exact ⟨h.1, ih (j + 1) h.2⟩

theorem Store.mem_erase {α : Type} {s : Store α} {k : Nat} {e : Nat × α} (h : e ∈ s.erase k) : e ∈ s := by
  induction s with
  | nil => exact h
  | cons x t ih =>
    obtain ⟨j, w⟩ := x
    by_cases h1 : j = k
    · simp only [Store.erase, h1, if_true] at h
      exact List.mem_cons_of_mem _ h
    · by_cases h2 : k < j
      · simpa [Store.erase, h1, h2] using h
      · simp only [Store.erase, h1, h2, if_false, List.mem_cons] at h
        rcases h with h | h
        · simp [h]
        · exact List.mem_cons_of_mem _ (ih h)

theorem Store.getD_erase_self {α : Type} (d : α) (s : Store α) (k : Nat) : ∀ a, s.risesFrom a = true → (s.erase k).getD d k = d := by
  induction s with
  | nil => intro _ _; rfl
  | cons e t ih =>
    obtain ⟨j, w⟩ := e
    intro a h
    simp only [Store.risesFrom, Bool.and_eq_true, decide_eq_true_eq] at h
    by_cases h1 : j = k
    · subst h1
      simp only [Store.erase, if_true]
      exact Store.getD_of_rises h.2 (by omega)
    · by_cases h2 : k < j
      · simp [Store.erase, Store.getD, h1, h2]
      · simp [Store.erase, Store.getD, h1, h2, ih (j + 1) h.2]

theorem Store.getD_erase_ne {α : Type} (d : α) (s : Store α) {k m : Nat} (hm : m ≠ k) :
    ∀ a, s.risesFrom a = true → (s.erase k).getD d m = s.getD d m := by
  induction s with
  | nil => intro _ _; rfl
  | cons e t ih =>
    obtain ⟨j, w⟩ := e
    intro a h
    simp only [Store.risesFrom, Bool.and_eq_true, decide_eq_true_eq] at h
    by_cases h1 : j = k
    · subst h1
      have h3 : j ≠ m := fun x => hm x.symm
      simp only [Store.erase, if_true, Store.getD, h3, if_false]
      by_cases h4 : m < j
      · simp only [h4, if_true]
        exact Store.getD_of_rises h.2 (by omega)
      · simp [h4]
    · by_cases h2 : k < j
      · simp [Store.erase, h1, h2]
      · simp only [Store.erase, h1, h2, if_false, Store.getD]
        by_cases h3 : j = m
        · simp [h3]
        · by_cases h4 : m < j
          · simp [h3, h4]
          · simp [h3, h4, ih (j + 1) h.2]

/-! ## A write, a read after it, and the canonical form -/

/-- A read of what was just written. -/
theorem Store.getD_set_self {α : Type} [DecidableEq α] {d : α} {s : Store α} (k : Nat) (v : α) (h : s.risesFrom 0 = true) :
    (s.set d k v).getD d k = v := by
  unfold Store.set
  split
  · rename_i hv; rw [hv]; exact Store.getD_erase_self d s k 0 h
  · exact Store.getD_put_self d s k v

/-- A write leaves every other key alone, whatever its default. -/
theorem Store.getD_set_ne {α : Type} [DecidableEq α] {d d' : α} {s : Store α} {k m : Nat} (v : α) (h : s.risesFrom 0 = true) (hm : m ≠ k) :
    (s.set d k v).getD d' m = s.getD d' m := by
  unfold Store.set
  split
  · exact Store.getD_erase_ne d' s hm 0 h
  · exact Store.getD_put_ne d' s v hm

theorem Store.wf_iff {α : Type} [DecidableEq α] {d : Nat → α} {s : Store α} :
    s.wf d = true ↔ s.risesFrom 0 = true ∧ ∀ e ∈ s, e.2 ≠ d e.1 := by
  simp [Store.wf]

theorem Store.wf_nil {α : Type} [DecidableEq α] (d : Nat → α) : Store.wf d ([] : Store α) = true := rfl

/-- A write keeps the canonical form. -/
theorem Store.wf_set {α : Type} [DecidableEq α] {d : Nat → α} {s : Store α} (k : Nat) (v : α) (h : s.wf d = true) : (s.set (d k) k v).wf d = true := by
  rw [Store.wf_iff] at h ⊢
  unfold Store.set
  split
  · exact ⟨Store.risesFrom_erase s k 0 h.1, fun e he => h.2 e (Store.mem_erase he)⟩
  · rename_i hv
    refine ⟨Store.risesFrom_put s k v 0 (Nat.zero_le _) h.1, fun e he => ?_⟩
    rcases Store.mem_put he with he | he
    · rw [he]; exact hv
    · exact h.2 e he

theorem Store.risesFrom_filter {α : Type} (p : Nat × α → Bool) (s : Store α) : ∀ a, s.risesFrom a = true → Store.risesFrom a (s.filter p) = true := by
  induction s with
  | nil => intro _ _; rfl
  | cons e t ih =>
    obtain ⟨j, w⟩ := e
    intro a h
    simp only [Store.risesFrom, Bool.and_eq_true, decide_eq_true_eq] at h
    rw [List.filter_cons]
    split
    · simp only [Store.risesFrom, Bool.and_eq_true, decide_eq_true_eq]; exact ⟨h.1, ih _ h.2⟩
    · exact Store.risesFrom_mono (ih _ h.2) (by omega)

/-- Forgetting entries keeps the canonical form. -/
theorem Store.wf_filter {α : Type} [DecidableEq α] {d : Nat → α} {s : Store α} (p : Nat × α → Bool) (h : s.wf d = true) :
    Store.wf d (s.filter p) = true := by
  rw [Store.wf_iff] at h ⊢
  exact ⟨Store.risesFrom_filter p s 0 h.1, fun e he => h.2 e ((List.mem_filter.1 he).1)⟩

theorem Store.wf_clearRange {α : Type} [DecidableEq α] {d : Nat → α} {s : Store α} (lo hi : Nat) (h : s.wf d = true) : (s.clearRange lo hi).wf d = true :=
  Store.wf_filter _ h

/-- Where the entries that read as unlisted are dropped, the rest is canonical for another reading of unlisted keys. -/
theorem Store.wf_renew {α : Type} [DecidableEq α] {d d' : Nat → α} {s : Store α} (h : s.wf d = true) :
    Store.wf d' (s.filter (fun e => decide (e.2 ≠ d' e.1))) = true := by
  rw [Store.wf_iff] at h ⊢
  refine ⟨Store.risesFrom_filter _ s 0 h.1, fun e he => ?_⟩
  simpa using (List.mem_filter.1 he).2

/-- Writing bytes keeps the canonical form. -/
theorem Store.wf_putBytes (bs : List Byte) : ∀ (m : Store Byte) (a : Nat), m.wf (fun _ => 0) = true → (m.putBytes a bs).wf (fun _ => 0) = true := by
  induction bs with
  | nil => intro m a h; exact h
  | cons b t ih => intro m a h; exact ih _ _ (Store.wf_set (d := fun _ => 0) a b h)

/-- Moving a tail keeps the canonical form. -/
theorem Store.wf_moveTail {m : Store Byte} (b old new lim : Nat) (h : m.wf (fun _ => 0) = true) : (m.moveTail b old new lim).wf (fun _ => 0) = true := by
  unfold Store.moveTail
  generalize m.filter (fun e => decide (b + old ≤ e.1 ∧ e.1 < lim)) = l
  have h0 := Store.wf_clearRange (d := fun _ => (0 : Byte)) b lim h
  revert h0
  generalize m.clearRange b lim = t
  induction l generalizing t with
  | nil => exact id
  | cons e l ih =>
    intro ht
    refine ih _ ?_
    dsimp only
    split
    · exact Store.wf_set (d := fun _ => (0 : Byte)) _ _ ht
    · exact ht

/-- Bytes written leave every byte outside them as it was. -/
theorem Store.getD_putBytes_outside (bs : List Byte) : ∀ (m : Store Byte) (a k : Nat), m.wf (fun _ => 0) = true → (k < a ∨ a + bs.length ≤ k) →
    (m.putBytes a bs).getD 0 k = m.getD 0 k := by
  induction bs with
  | nil => intro m a k _ _; rfl
  | cons b t ih =>
    intro m a k h hk
    simp only [List.length_cons] at hk
    show ((m.set 0 a b).putBytes (a + 1) t).getD 0 k = _
    rw [ih _ _ _ (Store.wf_set (d := fun _ => 0) a b h) (by omega)]
    exact Store.getD_set_ne b (Store.wf_iff.1 h).1 (by omega)

/-- Bytes written are read back. -/
theorem Store.getD_putBytes_inside (bs : List Byte) : ∀ (m : Store Byte) (a i : Nat), m.wf (fun _ => 0) = true → i < bs.length →
    (m.putBytes a bs).getD 0 (a + i) = bs.getD i 0 := by
  induction bs with
  | nil => intro m a i _ hi; exact absurd hi (Nat.not_lt_zero _)
  | cons b t ih =>
    intro m a i h hi
    show ((m.set 0 a b).putBytes (a + 1) t).getD 0 (a + i) = _
    cases i with
    | zero =>
      rw [Store.getD_putBytes_outside t _ _ _ (Store.wf_set (d := fun _ => 0) a b h) (by omega)]
      exact Store.getD_set_self a b (Store.wf_iff.1 h).1
    | succ i =>
      have := ih (m.set 0 a b) (a + 1) i (Store.wf_set (d := fun _ => 0) a b h) (by simpa using hi)
      rw [show a + (i + 1) = a + 1 + i by omega, this]; rfl

end Sys2Proof.Machine
end

