-- ==== Sys2Proof/Laws/Keep.lean ====
section
/-! SUPPORT. What every operation of the device keeps: the queue of waiting commands, what has been sent, the free values drawn, and the canonical form
of its registers and memories. One lemma per shared operation and per meaning (Laws/Keep*.lean) says that it keeps them. -/
namespace Sys2Proof.Machine
set_option Elab.async false

/-- From `s` to `t`, the queue is the same, what was sent stays sent, no free value is drawn again, and stores stay canonical. -/
structure Keeps (s t : State) : Prop where
  queue     : t.pending = s.pending
  sent      : s.out <+: t.out
  drawn     : s.freeCtr ≤ t.freeCtr
  canonical : s.Canonical → t.Canonical

/-- An outcome keeps them where it is a next state. -/
def KeepsAns (s : State) (a : Host.Outcome State Fault Refusal) : Prop := ∀ t, a = .next t → Keeps s t

theorem Keeps.rfl' {s : State} : Keeps s s := ⟨rfl, List.prefix_rfl, Nat.le_refl _, id⟩

theorem Keeps.cut {s₀ : State} (x : State) {P : Prop} (hx : Keeps s₀ x) (h : Keeps s₀ x → P) : P := h hx

theorem Keeps.trans {s t u : State} (h : Keeps s t) (k : Keeps t u) : Keeps s u :=
  ⟨k.queue.trans h.queue, h.sent.trans k.sent, Nat.le_trans h.drawn k.drawn, fun c => k.canonical (h.canonical c)⟩

theorem KeepsAns.next {s t : State} (h : Keeps s t) : KeepsAns s (.next t) := by
  intro u hu; cases hu; exact h

theorem Keeps.ite {s a b : State} {c : Prop} [Decidable c] (ha : Keeps s a) (hb : Keeps s b) : Keeps s (if c then a else b) := by
  split
  · exact ha
  · exact hb

theorem KeepsAns.ite {s : State} {a b : Host.Outcome State Fault Refusal} {c : Prop} [Decidable c] (ha : KeepsAns s a) (hb : KeepsAns s b) :
    KeepsAns s (if c then a else b) := by
  split
  · exact ha
  · exact hb

theorem Keeps.ite_snd {s : State} {α : Type} {a b : α × State} {c : Prop} [Decidable c] (ha : Keeps s a.2) (hb : Keeps s b.2) :
    Keeps s (if c then a else b).2 := by
  split
  · exact ha
  · exact hb

theorem Keeps.ite_fst {s : State} {α : Type} {a b : State × α} {c : Prop} [Decidable c] (ha : Keeps s a.1) (hb : Keeps s b.1) :
    Keeps s (if c then a else b).1 := by
  split
  · exact ha
  · exact hb

theorem Keeps.of_fst {β : Type} {s t : State} {p : State × β} {b : β} (h : Keeps s p.1) (e : p = (t, b)) : Keeps s t := by rw [e] at h; exact h
theorem Keeps.of_snd {α : Type} {s t : State} {p : α × State} {a : α} (h : Keeps s p.2) (e : p = (a, t)) : Keeps s t := by rw [e] at h; exact h
theorem Keeps.of_thd {α β : Type} {s t : State} {p : α × β × State} {a : α} {b : β} (h : Keeps s p.2.2) (e : p = (a, b, t)) : Keeps s t := by
  rw [e] at h; exact h

theorem Keeps.foldl {s₀ s : State} {α : Type} {f : State → α → State} {l : List α} (hf : ∀ s a, Keeps s₀ s → Keeps s₀ (f s a))
    (h : Keeps s₀ s) : Keeps s₀ (l.foldl f s) := by
  induction l generalizing s with
  | nil => exact h
  | cons a l ih => exact ih (hf s a h)

theorem Keeps.foldl_snd {s₀ : State} {α β : Type} {f : β × State → α → β × State} {l : List α} {p : β × State}
    (hf : ∀ p a, Keeps s₀ p.2 → Keeps s₀ (f p a).2) (h : Keeps s₀ p.2) : Keeps s₀ (l.foldl f p).2 := by
  induction l generalizing p with
  | nil => exact h
  | cons a l ih => exact ih (hf p a h)

theorem Keeps.foldl_fst {s₀ : State} {α β : Type} {f : State × β → α → State × β} {l : List α} {p : State × β}
    (hf : ∀ p a, Keeps s₀ p.1 → Keeps s₀ (f p a).1) (h : Keeps s₀ p.1) : Keeps s₀ (l.foldl f p).1 := by
  induction l generalizing p with
  | nil => exact h
  | cons a l ih => exact ih (hf p a h)

/-- A fold over anything that carries a state. -/
theorem Keeps.foldl_by {s₀ : State} {α β : Type} (g : β → State) {f : β → α → β} {l : List α} {b : β}
    (hf : ∀ b a, Keeps s₀ (g b) → Keeps s₀ (g (f b a))) (h : Keeps s₀ (g b)) : Keeps s₀ (g (l.foldl f b)) := by
  induction l generalizing b with
  | nil => exact h
  | cons a l ih => exact ih (hf b a h)

/-- Only fields that they do not speak of change. -/
theorem Keeps.upd {s₀ s : State} (h : Keeps s₀ s) (now objs pages hif sip kor cmp flm spl scn exp ins lpe mot lat trn cul ect boot pwr otp sec tap flt hdg
    evr marks waiting) :
    Keeps s₀ { s with now := now, objs := objs, pages := pages, hif := hif, sip := sip, kor := kor, cmp := cmp, flm := flm, spl := spl,
                      scn := scn, exp := exp, ins := ins, lpe := lpe, mot := mot, lat := lat, trn := trn, cul := cul, ect := ect, boot := boot,
                      pwr := pwr, otp := otp, sec := sec, tap := tap, flt := flt, hdg := hdg, evr := evr, marks := marks, waiting := waiting } :=
  ⟨h.queue, h.sent, h.drawn, fun c => ⟨(h.canonical c).1, (h.canonical c).2, (h.canonical c).3, (h.canonical c).4, (h.canonical c).5⟩⟩

/-- A state with no register, working copy, DRAM or tile cache listed, and the rest of what they speak of kept. -/
theorem Keeps.of_nil {s₀ s t : State} (h : Keeps s₀ s) (hp : t.pending = s.pending) (ho : t.out = s.out) (hf : t.freeCtr = s.freeCtr)
    (h1 : t.regs = []) (h2 : t.work = []) (h3 : t.dram = []) (h4 : t.tile = []) (h5 : t.spool = s.spool) : Keeps s₀ t :=
  ⟨hp.trans h.queue, by rw [ho]; exact h.sent, by rw [hf]; exact h.drawn,
   fun c => ⟨by rw [h1]; exact Store.wf_nil _, by rw [h2]; exact Store.wf_nil _, by rw [h3]; exact Store.wf_nil _, by rw [h4]; exact Store.wf_nil _,
    by rw [h5]; exact (h.canonical c).5⟩⟩

/-! ## Registers -/

theorem State.setWord_keeps {s₀ s : State} (h : Keeps s₀ s) (off : Nat) (w : Word) : Keeps s₀ (s.setWord off w) :=
  ⟨h.queue, h.sent, h.drawn, fun c => ⟨Store.wf_set _ _ (h.canonical c).1, (h.canonical c).2, (h.canonical c).3, (h.canonical c).4, (h.canonical c).5⟩⟩

theorem State.setWork_keeps {s₀ s : State} (h : Keeps s₀ s) (off : Nat) (w : Word) : Keeps s₀ (s.setWork off w) :=
  ⟨h.queue, h.sent, h.drawn, fun c => ⟨(h.canonical c).1, Store.wf_set _ _ (h.canonical c).2, (h.canonical c).3, (h.canonical c).4, (h.canonical c).5⟩⟩

theorem State.resetRegs_keeps {s₀ s : State} (h : Keeps s₀ s) (lo hi : Nat) : Keeps s₀ (s.resetRegs lo hi) :=
  ⟨h.queue, h.sent, h.drawn, fun c => ⟨Store.wf_clearRange _ _ (h.canonical c).1, (h.canonical c).2, (h.canonical c).3, (h.canonical c).4, (h.canonical c).5⟩⟩

theorem State.takeShadows_keeps {s₀ : State} (off stride n : Nat) : ∀ (s : State) (_ : Keeps s₀ s), Keeps s₀ (s.takeShadows off stride n) := by
  induction n generalizing off with
  | zero => intro s h; exact h
  | succ n ih => intro s h; exact ih (off + stride) _ (State.setWork_keeps h _ _)

theorem State.drew_keeps {s₀ s : State} (h : Keeps s₀ s) : Keeps s₀ s.drew :=
  ⟨h.queue, h.sent, Nat.le_succ_of_le h.drawn, fun c => ⟨(h.canonical c).1, (h.canonical c).2, (h.canonical c).3, (h.canonical c).4, (h.canonical c).5⟩⟩

theorem State.emit_keeps {s₀ s : State} (h : Keeps s₀ s) (o : Output) : Keeps s₀ (s.emit o) :=
  ⟨h.queue, h.sent.trans (List.prefix_append _ _), h.drawn,
   fun c => ⟨(h.canonical c).1, (h.canonical c).2, (h.canonical c).3, (h.canonical c).4, (h.canonical c).5⟩⟩

/-! ## Memories -/

theorem Keeps.dram {s₀ s : State} (h : Keeps s₀ s) (a : Nat) (bs : List Byte) : Keeps s₀ { s with dram := s.dram.putBytes a bs } :=
  ⟨h.queue, h.sent, h.drawn, fun c => ⟨(h.canonical c).1, (h.canonical c).2, Store.wf_putBytes _ _ _ (h.canonical c).3, (h.canonical c).4, (h.canonical c).5⟩⟩

theorem Keeps.tile {s₀ s : State} (h : Keeps s₀ s) (a : Nat) (bs : List Byte) : Keeps s₀ { s with tile := s.tile.putBytes a bs } :=
  ⟨h.queue, h.sent, h.drawn, fun c => ⟨(h.canonical c).1, (h.canonical c).2, (h.canonical c).3, Store.wf_putBytes _ _ _ (h.canonical c).4, (h.canonical c).5⟩⟩

/-- The tile cache is emptied. -/
theorem Keeps.noTiles {s₀ s : State} (h : Keeps s₀ s) (cmp) : Keeps s₀ { s with tile := [], cmp := cmp } :=
  ⟨h.queue, h.sent, h.drawn, fun c => ⟨(h.canonical c).1, (h.canonical c).2, (h.canonical c).3, rfl, (h.canonical c).5⟩⟩

theorem Keeps.tileMove {s₀ s : State} (h : Keeps s₀ s) (b old new lim : Nat) : Keeps s₀ { s with tile := s.tile.moveTail b old new lim } :=
  ⟨h.queue, h.sent, h.drawn, fun c => ⟨(h.canonical c).1, (h.canonical c).2, (h.canonical c).3, Store.wf_moveTail _ _ _ _ (h.canonical c).4, (h.canonical c).5⟩⟩

/-- A span of the tile cache is emptied. -/
theorem Keeps.tileClear {s₀ s : State} (h : Keeps s₀ s) (lo hi : Nat) (cmp) : Keeps s₀ { s with tile := s.tile.clearRange lo hi, cmp := cmp } :=
  ⟨h.queue, h.sent, h.drawn, fun c => ⟨(h.canonical c).1, (h.canonical c).2, (h.canonical c).3, Store.wf_clearRange _ _ (h.canonical c).4, (h.canonical c).5⟩⟩

theorem Keeps.spool {s₀ s : State} (h : Keeps s₀ s) (a : Nat) (bs : List Byte) : Keeps s₀ { s with spool := s.spool.putBytes a bs } :=
  ⟨h.queue, h.sent, h.drawn, fun c => ⟨(h.canonical c).1, (h.canonical c).2, (h.canonical c).3, (h.canonical c).4, Store.wf_putBytes _ _ _ (h.canonical c).5⟩⟩

theorem Keeps.spoolClear {s₀ s : State} (h : Keeps s₀ s) (lo hi : Nat) : Keeps s₀ { s with spool := s.spool.clearRange lo hi } :=
  ⟨h.queue, h.sent, h.drawn, fun c => ⟨(h.canonical c).1, (h.canonical c).2, (h.canonical c).3, (h.canonical c).4, Store.wf_clearRange _ _ (h.canonical c).5⟩⟩

end Sys2Proof.Machine
end

