-- ==== Sys2Proof/Laws/KeepOps.lean ====
section
/-! SUPPORT. What the operations of Machine/Ops.lean keep (Laws/Keep.lean). -/
namespace Sys2Proof.Machine
set_option Elab.async false
set_option linter.all false

theorem State.setF_keeps {s₀ s : State} (h : Keeps s₀ s) (x : Fld) (v : Nat) : Keeps s₀ (State.setF s x v) := by
  unfold State.setF
  repeat' first | with_reducible assumption | with_reducible apply State.setWord_keeps

theorem State.setB_keeps {s₀ s : State} (h : Keeps s₀ s) (x : Fld) (v : Bool) : Keeps s₀ (State.setB s x v) := by
  unfold State.setB
  repeat' first | with_reducible assumption | with_reducible apply State.setF_keeps | with_reducible refine Keeps.ite ?_ ?_

theorem State.mark_keeps {s₀ s : State} (h : Keeps s₀ s) (what : Nat) (arg : Nat) : Keeps s₀ (State.mark s what arg) := by
  unfold State.mark
  try dsimp only
  repeat' first | with_reducible assumption | (with_reducible apply Keeps.upd; with_reducible assumption)

theorem State.satInc_keeps {s₀ s : State} (h : Keeps s₀ s) (x : Fld) (n : Nat) : Keeps s₀ (State.satInc s x n) := by
  unfold State.satInc
  repeat' first | with_reducible assumption | with_reducible apply State.setF_keeps | with_reducible apply State.mark_keeps

theorem State.wrapInc_keeps {s₀ s : State} (h : Keeps s₀ s) (x : Fld) (n : Nat) : Keeps s₀ (State.wrapInc s x n) := by
  unfold State.wrapInc
  repeat' first | with_reducible assumption | with_reducible apply State.setF_keeps | with_reducible apply State.mark_keeps

theorem State.raise_keeps {s₀ s : State} (h : Keeps s₀ s) (x : Fld) : Keeps s₀ (State.raise s x) := by
  unfold State.raise
  repeat' first | with_reducible assumption | with_reducible apply State.setF_keeps | with_reducible apply State.mark_keeps

theorem State.lower_keeps {s₀ s : State} (h : Keeps s₀ s) (x : Fld) (n : Nat) : Keeps s₀ (State.lower s x n) := by
  unfold State.lower
  repeat' first | with_reducible assumption | with_reducible apply State.setF_keeps | with_reducible apply State.mark_keeps | with_reducible refine Keeps.ite ?_ ?_

theorem State.hwF_keeps {s₀ s : State} (h : Keeps s₀ s) (x : Fld) (v : Nat) : Keeps s₀ (State.hwF s x v) := by
  unfold State.hwF
  repeat' first | with_reducible assumption | with_reducible apply State.setF_keeps | with_reducible refine Keeps.ite ?_ ?_

theorem State.set64_keeps {s₀ s : State} (h : Keeps s₀ s) (lo : Nat) (v : Nat) : Keeps s₀ (State.set64 s lo v) := by
  unfold State.set64
  repeat' first | with_reducible assumption | with_reducible apply State.setWord_keeps

theorem State.takeShadow_keeps {s₀ s : State} (h : Keeps s₀ s) (off : Nat) : Keeps s₀ (State.takeShadow s off) := by
  unfold State.takeShadow
  repeat' first | with_reducible assumption | with_reducible apply State.setWork_keeps

theorem State.drawn_keeps {s₀ : State}  (fuel : Nat) : ∀ (s : State) (_ : Keeps s₀ s), Keeps s₀ (State.drawn s fuel).1 := by
  induction fuel with
  | zero => intro s h; unfold State.drawn; exact h
  | succ fuel ih =>
    intro s h
    unfold State.drawn
    repeat' first | (extract_lets +onlyGivenNames z; first | (refine Keeps.cut (s₀ := s₀) z ?_ ?_; rotate_left; clear_value z; intro hz; rotate_left; subst z) | (refine Keeps.cut (s₀ := s₀) (z : _ × State).2 ?_ ?_; rotate_left; clear_value z; intro hz; rotate_left; subst z) | (refine Keeps.cut (s₀ := s₀) (z : State × _).1 ?_ ?_; rotate_left; clear_value z; intro hz; rotate_left; subst z) | (refine Keeps.cut (s₀ := s₀) (z : _ × _ × State).2.2 ?_ ?_; rotate_left; clear_value z; intro hz; rotate_left; subst z) | clear_value z) | with_reducible assumption | with_reducible apply ih | with_reducible apply State.drew_keeps | split | dsimp only

theorem State.report_keeps {s₀ s : State} (h : Keeps s₀ s) (src : Nat) (cls : Nat) (cause : Nat) (param : Nat) (addr : Nat) (access : Nat) (master : Nat) : Keeps s₀ (State.report s src cls cause param addr access master) := by
  unfold State.report
  try dsimp only
  repeat' first | with_reducible assumption | (with_reducible apply Keeps.upd; with_reducible assumption)

theorem State.reportAccess_keeps {s₀ s : State} (h : Keeps s₀ s) (src : Nat) (cause : Nat) (access : Nat) (master : Nat) (addr : Nat) (value : Nat) : Keeps s₀ (State.reportAccess s src cause access master addr value) := by
  unfold State.reportAccess
  repeat' first | with_reducible assumption | with_reducible apply State.report_keeps

theorem State.drivePin_keeps {s₀ s : State} (h : Keeps s₀ s) (name : Nat) (old : Bool) (new : Bool) : Keeps s₀ (State.drivePin s name old new) := by
  unfold State.drivePin
  repeat' first | with_reducible assumption | with_reducible apply State.emit_keeps | with_reducible refine Keeps.ite ?_ ?_

theorem State.setSpool_keeps {s₀ s : State} (h : Keeps s₀ s) (on : Bool) : Keeps s₀ (State.setSpool s on) := by
  unfold State.setSpool
  repeat' first | with_reducible assumption | with_reducible apply State.drivePin_keeps | with_reducible apply State.setB_keeps | (with_reducible apply Keeps.foldl; intro _ _ _)

theorem State.event_keeps {s₀ s : State} (h : Keeps s₀ s) (ev : Nat) : Keeps s₀ (State.event s ev) := by
  unfold State.event
  try dsimp only
  repeat' first | with_reducible assumption | with_reducible refine Keeps.ite ?_ ?_ | (with_reducible apply Keeps.upd; with_reducible assumption)

theorem State.touch_keeps {s₀ s : State} (h : Keeps s₀ s) (off : Nat) : Keeps s₀ (State.touch s off) := by
  unfold State.touch
  try dsimp only
  repeat' first | with_reducible assumption | with_reducible refine Keeps.ite ?_ ?_ | (with_reducible apply Keeps.upd; with_reducible assumption)

theorem State.bootStop_keeps {s₀ s : State} (h : Keeps s₀ s) (code : Nat) : Keeps s₀ (State.bootStop s code) := by
  unfold State.bootStop
  repeat' first | (extract_lets +onlyGivenNames z; first | (refine Keeps.cut (s₀ := s₀) z ?_ ?_; rotate_left; clear_value z; intro hz; rotate_left; subst z) | clear_value z) | with_reducible assumption | with_reducible apply State.setF_keeps | (with_reducible apply Keeps.upd; with_reducible assumption)

theorem State.darkWrite_keeps {s₀ s : State} (h : Keeps s₀ s) (off : Nat) (value : Nat) (master : Nat) : Keeps s₀ (State.darkWrite s off value master) := by
  unfold State.darkWrite
  repeat' first | with_reducible assumption | with_reducible apply State.reportAccess_keeps

theorem State.setObj_keeps {s₀ s : State} (h : Keeps s₀ s) (index : Nat) (sub : Nat) (v : Nat) : Keeps s₀ (State.setObj s index sub v) := by
  unfold State.setObj
  repeat' first | (extract_lets +onlyGivenNames z; first | (refine Keeps.cut (s₀ := s₀) z ?_ ?_; rotate_left; clear_value z; intro hz; rotate_left; subst z) | clear_value z) | with_reducible assumption | (with_reducible apply Keeps.upd; with_reducible assumption)

theorem State.setFn_keeps {s₀ s : State} (h : Keeps s₀ s) (fn : Nat) (x : FnState) : Keeps s₀ (State.setFn s fn x) := by
  unfold State.setFn
  try dsimp only
  repeat' first | with_reducible assumption | (with_reducible apply Keeps.upd; with_reducible assumption)

theorem State.signal_keeps {s₀ s : State} (h : Keeps s₀ s) (fn : Nat) (vec : Nat) : Keeps s₀ (State.signal s fn vec) := by
  unfold State.signal
  try dsimp only
  repeat' first | with_reducible assumption | with_reducible apply State.setWord_keeps | with_reducible apply State.emit_keeps | with_reducible refine Keeps.ite ?_ ?_

theorem State.pf_keeps {s₀ s : State} (h : Keeps s₀ s) (vec : Nat) : Keeps s₀ (State.pf s vec) := by
  unfold State.pf
  repeat' first | with_reducible assumption | with_reducible apply State.signal_keeps

theorem State.record_keeps {s₀ s : State} (h : Keeps s₀ s) (source : Nat) (cause : Nat) (severity : Nat) (p0 : Nat) (p1 : Nat) (p2 : Nat) (master : Nat) (access : Nat) (lastWords : Bool) : Keeps s₀ (State.record s source cause severity p0 p1 p2 master access lastWords) := by
  unfold State.record
  try dsimp only
  repeat' first | with_reducible assumption | with_reducible apply State.setF_keeps | with_reducible apply State.satInc_keeps | with_reducible refine Keeps.ite ?_ ?_ | (with_reducible apply Keeps.upd; with_reducible assumption)

end Sys2Proof.Machine
end

