-- ==== Sys2Proof/Laws/KeepFuses.lean ====
section
/-! SUPPORT. What the operations of Machine/Fuses.lean keep (Laws/Keep.lean). -/
namespace Sys2Proof.Machine
set_option Elab.async false
set_option linter.all false

theorem State.setOtpWord_keeps {s₀ s : State} (h : Keeps s₀ s) (n : Nat) (w : OtpWord) : Keeps s₀ (State.setOtpWord s n w) := by
  unfold State.setOtpWord
  try dsimp only
  repeat' first | with_reducible assumption | (with_reducible apply Keeps.upd; with_reducible assumption)

theorem State.setOtpRow_keeps {s₀ s : State} (h : Keeps s₀ s) (r : Nat) (m : BitVec 32) : Keeps s₀ (State.setOtpRow s r m) := by
  unfold State.setOtpRow
  try dsimp only
  repeat' first | with_reducible assumption | with_reducible apply State.setWord_keeps | split | (with_reducible apply Keeps.upd; with_reducible assumption)

theorem State.thermoTo_keeps {s₀ s : State} (h : Keeps s₀ s) (base : Nat) (n : Nat) (count : Nat) : Keeps s₀ (State.thermoTo s base n count) := by
  unfold State.thermoTo
  try dsimp only
  repeat' first | with_reducible assumption | with_reducible apply State.setOtpRow_keeps | (with_reducible apply Keeps.foldl; intro _ _ _) | with_reducible refine Keeps.ite ?_ ?_

theorem State.otpShow_keeps {s₀ s : State} (h : Keeps s₀ s) : Keeps s₀ (State.otpShow s) := by
  unfold State.otpShow
  repeat' first | (extract_lets +onlyGivenNames z; first | (refine Keeps.cut (s₀ := s₀) z ?_ ?_; rotate_left; clear_value z; intro hz; rotate_left; subst z) | clear_value z) | with_reducible assumption | with_reducible apply State.set64_keeps | with_reducible apply State.setF_keeps

theorem State.otpCut_keeps {s₀ s : State} (h : Keeps s₀ s) : Keeps s₀ (State.otpCut s) := by
  unfold State.otpCut
  repeat' first | (extract_lets +onlyGivenNames z; first | (refine Keeps.cut (s₀ := s₀) z ?_ ?_; rotate_left; clear_value z; intro hz; rotate_left; subst z) | clear_value z) | with_reducible assumption | with_reducible apply State.setOtpWord_keeps | with_reducible apply State.drew_keeps | with_reducible apply State.setOtpRow_keeps | with_reducible refine Keeps.ite ?_ ?_ | split | (with_reducible apply Keeps.upd; with_reducible assumption)

end Sys2Proof.Machine
end

