-- ==== Sys2Proof/Laws/KeepHostOps.lean ====
section
/-! SUPPORT. What the operations of Machine/HostOps.lean keep (Laws/Keep.lean). -/
namespace Sys2Proof.Machine
set_option Elab.async false
set_option linter.all false

theorem State.syncQueue_keeps {s₀ s : State} (h : Keeps s₀ s) (fn : Nat) : Keeps s₀ (State.syncQueue s fn) := by
  unfold State.syncQueue
  repeat' first | (extract_lets +onlyGivenNames z; first | (refine Keeps.cut (s₀ := s₀) z ?_ ?_; rotate_left; clear_value z; intro hz; rotate_left; subst z) | clear_value z) | with_reducible assumption | with_reducible apply State.setF_keeps | with_reducible apply State.setB_keeps

theorem State.syncQueues_keeps {s₀ s : State} (h : Keeps s₀ s) : Keeps s₀ (State.syncQueues s) := by
  unfold State.syncQueues
  repeat' first | with_reducible assumption | with_reducible apply State.syncQueue_keeps | (with_reducible apply Keeps.foldl; intro _ _ _)

theorem State.writeEntry_keeps {s₀ s : State} (h : Keeps s₀ s) (fn : Nat) (e : CqEntry) : Keeps s₀ (State.writeEntry s fn e) := by
  unfold State.writeEntry
  repeat' first | (extract_lets +onlyGivenNames z; first | (refine Keeps.cut (s₀ := s₀) z ?_ ?_; rotate_left; clear_value z; intro hz; rotate_left; subst z) | clear_value z) | with_reducible assumption | with_reducible apply State.emit_keeps | with_reducible apply State.setF_keeps | with_reducible apply State.setB_keeps | with_reducible apply State.setFn_keeps | with_reducible apply State.signal_keeps | with_reducible refine Keeps.ite ?_ ?_ | (with_reducible apply Keeps.upd; with_reducible assumption)

theorem State.post_keeps {s₀ s : State} (h : Keeps s₀ s) (fn : Nat) (e : CqEntry) : Keeps s₀ (State.post s fn e) := by
  unfold State.post
  try dsimp only
  repeat' first | with_reducible assumption | with_reducible apply State.writeEntry_keeps | with_reducible apply State.setFn_keeps | with_reducible apply State.syncQueue_keeps | with_reducible refine Keeps.ite ?_ ?_ | (with_reducible apply Keeps.upd; with_reducible assumption)

theorem State.drainBacklog_keeps {s₀ : State} (fn : Nat) (fuel : Nat) : ∀ (s : State) (_ : Keeps s₀ s), Keeps s₀ (State.drainBacklog s fn fuel) := by
  induction fuel generalizing fn with
  | zero => intro s h; unfold State.drainBacklog; exact h
  | succ fuel ih =>
    intro s h
    unfold State.drainBacklog
    repeat' first | (extract_lets +onlyGivenNames z; first | (refine Keeps.cut (s₀ := s₀) z ?_ ?_; rotate_left; clear_value z; intro hz; rotate_left; subst z) | clear_value z) | with_reducible assumption | with_reducible apply ih | with_reducible apply State.setFn_keeps | with_reducible apply State.writeEntry_keeps | with_reducible refine Keeps.ite ?_ ?_ | split | (with_reducible apply Keeps.upd; with_reducible assumption)

theorem State.pauseQueue_keeps {s₀ s : State} (h : Keeps s₀ s) (fn : Nat) (cause : Nat) : Keeps s₀ (State.pauseQueue s fn cause) := by
  unfold State.pauseQueue
  try dsimp only
  repeat' first | with_reducible assumption | with_reducible apply State.setF_keeps | with_reducible apply State.signal_keeps | with_reducible apply State.setFn_keeps | with_reducible refine Keeps.ite ?_ ?_ | (with_reducible apply Keeps.upd; with_reducible assumption)

theorem State.errorQueue_keeps {s₀ s : State} (h : Keeps s₀ s) (fn : Nat) (code : Nat) : Keeps s₀ (State.errorQueue s fn code) := by
  unfold State.errorQueue
  repeat' first | with_reducible assumption | with_reducible apply State.setF_keeps | with_reducible apply State.signal_keeps

end Sys2Proof.Machine
end

