-- ==== Sys2Proof/Laws/KeepSpoolBase.lean ====
section
/-! SUPPORT. What the operations of Machine/SpoolBase.lean keep (Laws/Keep.lean). -/
namespace Sys2Proof.Machine
set_option Elab.async false
set_option linter.all false

theorem State.sliceVector_keeps {s₀ s : State} (h : Keeps s₀ s) (fn : Nat) : Keeps s₀ (State.sliceVector s fn) := by
  unfold State.sliceVector
  repeat' first | with_reducible assumption | with_reducible apply State.pf_keeps | with_reducible apply State.signal_keeps | with_reducible refine Keeps.ite ?_ ?_

theorem State.setDrive_keeps {s₀ s : State} (h : Keeps s₀ s) (d : Nat) (x : Drive) : Keeps s₀ (State.setDrive s d x) := by
  unfold State.setDrive
  try dsimp only
  repeat' first | with_reducible assumption | (with_reducible apply Keeps.upd; with_reducible assumption)

theorem State.unmap_keeps {s₀ s : State} (h : Keeps s₀ s) (m : BitVec 4) : Keeps s₀ (State.unmap s m) := by
  unfold State.unmap
  repeat' first | with_reducible assumption | with_reducible apply State.emit_keeps | (with_reducible apply Keeps.foldl; intro _ _ _)

theorem State.syncCap_keeps {s₀ s : State} (h : Keeps s₀ s) : Keeps s₀ (State.syncCap s) := by
  unfold State.syncCap
  repeat' first | with_reducible assumption | with_reducible apply State.setF_keeps

theorem State.syncRefused_keeps {s₀ s : State} (h : Keeps s₀ s) (v : Bool) : Keeps s₀ (State.syncRefused s v) := by
  unfold State.syncRefused
  repeat' first | with_reducible assumption | with_reducible apply State.setB_keeps | (with_reducible apply Keeps.foldl; intro _ _ _)

theorem State.showRefusal_keeps {s₀ s : State} (h : Keeps s₀ s) : Keeps s₀ (State.showRefusal s) := by
  unfold State.showRefusal
  try dsimp only
  repeat' first | with_reducible assumption | with_reducible apply State.setF_keeps | with_reducible apply State.setB_keeps | with_reducible apply State.syncRefused_keeps | with_reducible apply State.pf_keeps | with_reducible refine Keeps.ite ?_ ?_

theorem State.writeSalts_keeps {s₀ s : State} (h : Keeps s₀ s) : Keeps s₀ (State.writeSalts s) := by
  unfold State.writeSalts
  repeat' first | (extract_lets +onlyGivenNames z; first | (refine Keeps.cut (s₀ := s₀) z ?_ ?_; rotate_left; clear_value z; intro hz; rotate_left; subst z) | (have _f := fun a => z a; clear _f; subst z; try dsimp -zeta only) | clear_value z) | with_reducible assumption | with_reducible apply State.setDrive_keeps | (with_reducible apply Keeps.foldl; intro _ _ _) | with_reducible refine Keeps.ite ?_ ?_ | (with_reducible apply Keeps.upd; with_reducible assumption)

theorem State.retrySalts_keeps {s₀ s : State} (h : Keeps s₀ s) : Keeps s₀ (State.retrySalts s) := by
  unfold State.retrySalts
  repeat' first | with_reducible assumption | with_reducible apply State.writeSalts_keeps | with_reducible apply State.showRefusal_keeps | with_reducible refine Keeps.ite ?_ ?_

theorem State.alloc_keeps {s₀ s : State} (h : Keeps s₀ s) (fn : Nat) (n : Nat) : Keeps s₀ (State.alloc s fn n) := by
  unfold State.alloc
  repeat' first | with_reducible assumption | with_reducible apply State.setF_keeps | with_reducible apply State.syncCap_keeps

theorem State.dealloc_keeps {s₀ s : State} (h : Keeps s₀ s) (fn : Nat) (n : Nat) : Keeps s₀ (State.dealloc s fn n) := by
  unfold State.dealloc
  repeat' first | with_reducible assumption | with_reducible apply State.setF_keeps | with_reducible apply State.syncCap_keeps | with_reducible apply State.retrySalts_keeps

theorem State.syncCopies_keeps {s₀ s : State} (h : Keeps s₀ s) (fn : Nat) : Keeps s₀ (State.syncCopies s fn) := by
  unfold State.syncCopies
  repeat' first | with_reducible assumption | with_reducible apply State.setF_keeps

theorem State.freeAudit_keeps {s₀ s : State} (h : Keeps s₀ s) (a : Audit) : Keeps s₀ (State.freeAudit s a) := by
  unfold State.freeAudit
  try dsimp only
  repeat' first | with_reducible assumption | with_reducible apply State.dealloc_keeps | with_reducible apply State.unmap_keeps | (with_reducible apply Keeps.upd; with_reducible assumption)

theorem State.freeAudits_keeps {s₀ s : State} (h : Keeps s₀ s) (fn : Nat) (id : BitVec 64) : Keeps s₀ (State.freeAudits s fn id) := by
  unfold State.freeAudits
  repeat' first | with_reducible assumption | with_reducible apply State.freeAudit_keeps | (with_reducible apply Keeps.foldl; intro _ _ _)

theorem State.freeCopy_keeps {s₀ s : State} (h : Keeps s₀ s) (fn : Nat) (id : BitVec 64) : Keeps s₀ (State.freeCopy s fn id) := by
  unfold State.freeCopy
  try dsimp only
  repeat' first | with_reducible assumption | with_reducible apply State.dealloc_keeps | with_reducible apply State.unmap_keeps | with_reducible apply State.syncCopies_keeps | split | (with_reducible apply Keeps.upd; with_reducible assumption)

theorem State.newCopy_keeps {s₀ s : State} (h : Keeps s₀ s) (fn : Nat) (d : PageDesc) (src : List SourceEntry) : Keeps s₀ (State.newCopy s fn d src) := by
  unfold State.newCopy
  repeat' first | (extract_lets +onlyGivenNames z; first | (refine Keeps.cut (s₀ := s₀) z ?_ ?_; rotate_left; clear_value z; intro hz; rotate_left; subst z) | clear_value z) | with_reducible assumption | with_reducible apply State.alloc_keeps | with_reducible apply State.syncCopies_keeps | (with_reducible apply Keeps.upd; with_reducible assumption)

theorem State.modCopy_keeps {s₀ s : State} (h : Keeps s₀ s) (key : Nat) (g : Copy → Copy) : Keeps s₀ (State.modCopy s key g) := by
  unfold State.modCopy
  try dsimp only
  repeat' first | with_reducible assumption | with_reducible refine Keeps.ite ?_ ?_ | (with_reducible apply Keeps.upd; with_reducible assumption)

end Sys2Proof.Machine
end

