-- ==== Sys2Proof/Laws/KeepCulBase.lean ====
section
/-! SUPPORT. What the operations of Machine/CulBase.lean keep (Laws/Keep.lean). -/
namespace Sys2Proof.Machine
set_option Elab.async false
set_option linter.all false

theorem State.setCul_keeps {s₀ s : State} (h : Keeps s₀ s) (v : Nat) : Keeps s₀ (State.setCul s v) := by
  unfold State.setCul
  repeat' first | with_reducible assumption | with_reducible apply State.setF_keeps | with_reducible apply State.pf_keeps | with_reducible refine Keeps.ite ?_ ?_

theorem State.culReport_keeps {s₀ s : State} (h : Keeps s₀ s) (cls : Nat) (cause : Nat) (dev : Nat) (port : Nat) (addr : Nat) : Keeps s₀ (State.culReport s cls cause dev port addr) := by
  unfold State.culReport
  repeat' first | with_reducible assumption | with_reducible apply State.report_keeps

theorem State.setPortState_keeps {s₀ s : State} (h : Keeps s₀ s) (east : Bool) (v : Nat) : Keeps s₀ (State.setPortState s east v) := by
  unfold State.setPortState
  try dsimp only
  repeat' first | with_reducible assumption | with_reducible apply State.setF_keeps | with_reducible apply State.pf_keeps | with_reducible refine Keeps.ite ?_ ?_

theorem State.culOut_keeps {s₀ s : State} (h : Keeps s₀ s) (east : Bool) (m : List Byte) : Keeps s₀ (State.culOut s east m) := by
  unfold State.culOut
  repeat' first | with_reducible assumption | with_reducible apply State.emit_keeps | with_reducible refine Keeps.ite ?_ ?_

theorem State.culMake_keeps {s₀ s : State} (h : Keeps s₀ s) (mtype : Nat) (dst : Nat) (body : List Byte) : Keeps s₀ (State.culMake s mtype dst body).2 := by
  unfold State.culMake
  try dsimp only
  repeat' first | with_reducible assumption | split | (with_reducible apply Keeps.upd; first | with_reducible assumption ) | dsimp only

theorem State.culBroadcast_keeps {s₀ s : State} (h : Keeps s₀ s) (mtype : Nat) (body : List Byte) : Keeps s₀ (State.culBroadcast s mtype body) := by
  unfold State.culBroadcast
  try dsimp only
  repeat' first | with_reducible assumption | with_reducible apply State.culMake_keeps | with_reducible apply State.culOut_keeps | (refine Keeps.of_snd ?_ (by assumption)) | split | (with_reducible apply Keeps.upd; first | with_reducible assumption | with_reducible apply State.culMake_keeps | with_reducible apply State.culOut_keeps) | dsimp only

theorem State.culSend_keeps {s₀ s : State} (h : Keeps s₀ s) (mtype : Nat) (dst : Nat) (body : List Byte) (east : Bool) (wait : Bool) : Keeps s₀ (State.culSend s mtype dst body east wait) := by
  unfold State.culSend
  repeat' first | (extract_lets +onlyGivenNames z; first | (refine Keeps.cut (s₀ := s₀) z ?_ ?_; rotate_left; clear_value z; intro hz; rotate_left; subst z) | (refine Keeps.cut (s₀ := s₀) (z : _ × State).2 ?_ ?_; rotate_left; clear_value z; intro hz; rotate_left; subst z) | (refine Keeps.cut (s₀ := s₀) (z : State × _).1 ?_ ?_; rotate_left; clear_value z; intro hz; rotate_left; subst z) | (refine Keeps.cut (s₀ := s₀) (z : _ × _ × State).2.2 ?_ ?_; rotate_left; clear_value z; intro hz; rotate_left; subst z) | clear_value z) | with_reducible assumption | with_reducible apply State.culMake_keeps | with_reducible apply State.culOut_keeps | (refine Keeps.of_snd ?_ (by assumption)) | with_reducible refine Keeps.ite ?_ ?_ | with_reducible refine Keeps.ite_snd ?_ ?_ | with_reducible refine Keeps.ite_fst ?_ ?_ | split | (with_reducible apply Keeps.upd; first | with_reducible assumption | with_reducible apply State.culMake_keeps | with_reducible apply State.culOut_keeps) | dsimp only

theorem State.culAnswered_keeps {s₀ s : State} (h : Keeps s₀ s) (mtype : Nat) (dst : Nat) : Keeps s₀ (State.culAnswered s mtype dst) := by
  unfold State.culAnswered
  try dsimp only
  repeat' first | with_reducible assumption | (with_reducible apply Keeps.upd; with_reducible assumption)

theorem State.culForward_keeps {s₀ s : State} (h : Keeps s₀ s) (east : Bool) (m : List Byte) : Keeps s₀ (State.culForward s east m) := by
  unfold State.culForward
  repeat' first | with_reducible assumption | with_reducible apply State.culOut_keeps

theorem State.culFaultOut_keeps {s₀ s : State} (h : Keeps s₀ s) (r : Report) : Keeps s₀ (State.culFaultOut s r) := by
  unfold State.culFaultOut
  try dsimp only
  repeat' first | with_reducible assumption | with_reducible apply State.culMake_keeps | with_reducible apply State.culOut_keeps | (refine Keeps.of_snd ?_ (by assumption)) | with_reducible refine Keeps.ite ?_ ?_ | with_reducible refine Keeps.ite_snd ?_ ?_ | with_reducible refine Keeps.ite_fst ?_ ?_ | split | dsimp only

theorem State.xcalAbandon_keeps {s₀ s : State} (h : Keeps s₀ s) (absent : Nat) : Keeps s₀ (State.xcalAbandon s absent) := by
  unfold State.xcalAbandon
  repeat' first | (extract_lets +onlyGivenNames z; first | (refine Keeps.cut (s₀ := s₀) z ?_ ?_; rotate_left; clear_value z; intro hz; rotate_left; subst z) | clear_value z) | with_reducible assumption | with_reducible apply State.culBroadcast_keeps | with_reducible apply State.setF_keeps | with_reducible refine Keeps.ite ?_ ?_ | (with_reducible apply Keeps.upd; with_reducible assumption)

theorem State.freeBytes_keeps {s₀ : State} (n : Nat) : ∀ (s : State) (_ : Keeps s₀ s), Keeps s₀ (s.freeBytes n).2 := by
  induction n with
  | zero => intro s h; exact h
  | succ n ih => intro s h; exact ih _ (State.drew_keeps h)

theorem State.sendFeatures_keeps {s₀ s : State} (h : Keeps s₀ s) (pageId : BitVec 64) (inspected : Bool) : Keeps s₀ (State.sendFeatures s pageId inspected) := by
  unfold State.sendFeatures
  try dsimp only
  repeat' first | with_reducible assumption | with_reducible apply State.drew_keeps | with_reducible apply State.freeBytes_keeps | with_reducible apply State.culSend_keeps | (refine Keeps.of_snd ?_ (by assumption)) | with_reducible refine Keeps.ite ?_ ?_ | with_reducible refine Keeps.ite_snd ?_ ?_ | with_reducible refine Keeps.ite_fst ?_ ?_ | split | dsimp only

theorem State.culTake_keeps {s₀ s : State} (h : Keeps s₀ s) (mtype : Nat) (east : Bool) (m : List Byte) : Keeps s₀ (State.culTake s mtype east m).2 := by
  unfold State.culTake
  try dsimp only
  repeat' first | with_reducible assumption | with_reducible apply State.satInc_keeps | with_reducible apply State.culForward_keeps | with_reducible refine Keeps.ite ?_ ?_ | with_reducible refine Keeps.ite_snd ?_ ?_ | with_reducible refine Keeps.ite_fst ?_ ?_ | split | (with_reducible apply Keeps.upd; first | with_reducible assumption | with_reducible apply State.satInc_keeps | with_reducible apply State.culForward_keeps) | dsimp only

end Sys2Proof.Machine
end

