-- ==== Sys2Proof/Laws/KeepPageOps.lean ====
section
/-! SUPPORT. What the operations of Machine/PageOps.lean keep (Laws/Keep.lean). -/
namespace Sys2Proof.Machine
set_option Elab.async false
set_option linter.all false

theorem State.pageEvent_keeps {s₀ s : State} (h : Keeps s₀ s) (p : Page) (status : Nat) (reason : Nat) (station : Nat) : Keeps s₀ (State.pageEvent s p status reason station) := by
  unfold State.pageEvent
  repeat' first | (extract_lets +onlyGivenNames z; first | (refine Keeps.cut (s₀ := s₀) z ?_ ?_; rotate_left; clear_value z; intro hz; rotate_left; subst z) | clear_value z) | with_reducible assumption | with_reducible apply State.post_keeps | with_reducible refine Keeps.ite ?_ ?_ | (with_reducible apply Keeps.upd; with_reducible assumption)

theorem State.descEvent_keeps {s₀ s : State} (h : Keeps s₀ s) (fn : Nat) (d : PageDesc) (status : Nat) : Keeps s₀ (State.descEvent s fn d status) := by
  unfold State.descEvent
  repeat' first | (extract_lets +onlyGivenNames z; first | (refine Keeps.cut (s₀ := s₀) z ?_ ?_; rotate_left; clear_value z; intro hz; rotate_left; subst z) | clear_value z) | with_reducible assumption | with_reducible apply State.post_keeps | (with_reducible apply Keeps.upd; with_reducible assumption)

theorem State.modPage_keeps {s₀ s : State} (h : Keeps s₀ s) (seq : Nat) (g : Page → Page) : Keeps s₀ (State.modPage s seq g) := by
  unfold State.modPage
  try dsimp only
  repeat' first | with_reducible assumption | with_reducible refine Keeps.ite ?_ ?_ | (with_reducible apply Keeps.upd; with_reducible assumption)

theorem State.dropPage_keeps {s₀ s : State} (h : Keeps s₀ s) (seq : Nat) : Keeps s₀ (State.dropPage s seq) := by
  unfold State.dropPage
  try dsimp only
  repeat' first | with_reducible assumption | (with_reducible apply Keeps.upd; with_reducible assumption)

theorem State.modFrame_keeps {s₀ s : State} (h : Keeps s₀ s) (seq : Nat) (g : Frame → Frame) : Keeps s₀ (State.modFrame s seq g) := by
  unfold State.modFrame
  try dsimp only
  repeat' first | with_reducible assumption | with_reducible refine Keeps.ite ?_ ?_ | (with_reducible apply Keeps.upd; with_reducible assumption)

theorem State.blankEvent_keeps {s₀ s : State} (h : Keeps s₀ s) (tof : Nat) (c0 : Bool) : Keeps s₀ (State.blankEvent s tof c0) := by
  unfold State.blankEvent
  repeat' first | with_reducible assumption | with_reducible apply State.report_keeps | with_reducible apply State.setObj_keeps | with_reducible refine Keeps.ite ?_ ?_

theorem State.sendSchedule_keeps {s₀ s : State} (h : Keeps s₀ s) (id : Nat) (t : Nat) (latch : Nat) (pitch : Nat) (status : Nat) (rem : Nat) (frame : Nat) : Keeps s₀ (State.sendSchedule s id t latch pitch status rem frame) := by
  unfold State.sendSchedule
  repeat' first | with_reducible assumption | with_reducible apply State.culBroadcast_keeps | with_reducible apply State.latch_keeps

theorem State.blankFrame_keeps {s₀ s : State} (h : Keeps s₀ s) : Keeps s₀ (State.blankFrame s) := by
  unfold State.blankFrame
  repeat' first | (extract_lets +onlyGivenNames z; first | (refine Keeps.cut (s₀ := s₀) z ?_ ?_; rotate_left; clear_value z; intro hz; rotate_left; subst z) | clear_value z) | with_reducible assumption | with_reducible apply State.sendSchedule_keeps | with_reducible apply State.blankEvent_keeps | with_reducible refine Keeps.ite ?_ ?_ | split | (with_reducible apply Keeps.upd; with_reducible assumption)

theorem State.claimFrame_keeps {s₀ s : State} (h : Keeps s₀ s) (p : Page) (t : Nat) : Keeps s₀ (State.claimFrame s p t) := by
  unfold State.claimFrame
  try dsimp only
  repeat' first | with_reducible assumption | with_reducible apply State.modPage_keeps | (with_reducible apply Keeps.upd; with_reducible assumption)

theorem State.claimAll_keeps {s₀ : State}  (fuel : Nat) : ∀ (s : State) (_ : Keeps s₀ s), Keeps s₀ (State.claimAll s fuel) := by
  induction fuel with
  | zero => intro s h; unfold State.claimAll; exact h
  | succ fuel ih =>
    intro s h
    unfold State.claimAll
    repeat' first | (extract_lets +onlyGivenNames z; first | (refine Keeps.cut (s₀ := s₀) z ?_ ?_; rotate_left; clear_value z; intro hz; rotate_left; subst z) | clear_value z) | with_reducible assumption | with_reducible apply ih | with_reducible apply State.claimFrame_keeps | with_reducible apply State.blankFrame_keeps | with_reducible refine Keeps.ite ?_ ?_ | split | (with_reducible apply Keeps.upd; with_reducible assumption)

theorem State.modLine_keeps {s₀ s : State} (h : Keeps s₀ s) (id : BitVec 64) (g : LinePage → LinePage) : Keeps s₀ (State.modLine s id g) := by
  unfold State.modLine
  try dsimp only
  repeat' first | with_reducible assumption | with_reducible refine Keeps.ite ?_ ?_ | (with_reducible apply Keeps.upd; with_reducible assumption)

theorem State.layFrame_keeps {s₀ s : State} (h : Keeps s₀ s) (id : BitVec 64) (t : Nat) (latch : Nat) (pitch : Nat) (rem : Nat) : Keeps s₀ (State.layFrame s id t latch pitch rem) := by
  unfold State.layFrame
  try dsimp only
  repeat' first | with_reducible assumption | with_reducible apply State.latch_keeps | with_reducible apply State.remain_keeps | with_reducible apply State.modPage_keeps | with_reducible refine Keeps.ite ?_ ?_ | split | (with_reducible apply Keeps.upd; with_reducible assumption)

theorem State.claimLine_keeps {s₀ s : State} (h : Keeps s₀ s) (l : LinePage) (t : Nat) (rem : Nat) : Keeps s₀ (State.claimLine s l t rem) := by
  unfold State.claimLine
  repeat' first | (extract_lets +onlyGivenNames z; first | (refine Keeps.cut (s₀ := s₀) z ?_ ?_; rotate_left; clear_value z; intro hz; rotate_left; subst z) | clear_value z) | with_reducible assumption | with_reducible apply State.modLine_keeps | with_reducible apply State.latch_keeps | with_reducible apply State.layFrame_keeps | with_reducible apply State.sendSchedule_keeps | (with_reducible apply Keeps.upd; with_reducible assumption)

theorem State.lineClaims_keeps {s₀ : State}  (fuel : Nat) : ∀ (s : State) (_ : Keeps s₀ s), Keeps s₀ (State.lineClaims s fuel) := by
  induction fuel with
  | zero => intro s h; unfold State.lineClaims; exact h
  | succ fuel ih =>
    intro s h
    unfold State.lineClaims
    repeat' first | (extract_lets +onlyGivenNames z; first | (refine Keeps.cut (s₀ := s₀) z ?_ ?_; rotate_left; clear_value z; intro hz; rotate_left; subst z) | clear_value z) | with_reducible assumption | with_reducible apply ih | with_reducible apply State.setF_keeps | with_reducible apply State.claimLine_keeps | with_reducible apply State.blankFrame_keeps | with_reducible refine Keeps.ite ?_ ?_ | split | (with_reducible apply Keeps.upd; with_reducible assumption)

theorem State.claims_keeps {s₀ s : State} (h : Keeps s₀ s) : Keeps s₀ (State.claims s) := by
  unfold State.claims
  repeat' first | with_reducible assumption | with_reducible apply State.lineClaims_keeps | with_reducible apply State.claimAll_keeps | with_reducible refine Keeps.ite ?_ ?_

theorem State.commitPart_keeps {s₀ s : State} (h : Keeps s₀ s) (p : Page) : Keeps s₀ (State.commitPart s p) := by
  unfold State.commitPart
  repeat' first | (extract_lets +onlyGivenNames z; first | (refine Keeps.cut (s₀ := s₀) z ?_ ?_; rotate_left; clear_value z; intro hz; rotate_left; subst z) | clear_value z) | with_reducible assumption | with_reducible apply State.culSend_keeps | with_reducible apply State.modPage_keeps | with_reducible refine Keeps.ite ?_ ?_ | split | (with_reducible apply Keeps.upd; with_reducible assumption)

theorem State.sipPush_keeps {s₀ s : State} (h : Keeps s₀ s) (ch : Nat) (j : SipJob) (d : SipDesc) : Keeps s₀ (State.sipPush s ch j d) := by
  unfold State.sipPush
  try dsimp only
  repeat' first | with_reducible assumption | (with_reducible apply Keeps.upd; with_reducible assumption)

theorem State.pushJob_keeps {s₀ s : State} (h : Keeps s₀ s) (role : Nat) (own : Nat) (key : Nat) (j : SipJob) (d : SipDesc) : Keeps s₀ (State.pushJob s role own key j d) := by
  unfold State.pushJob
  try dsimp only
  repeat' first | with_reducible assumption | with_reducible apply State.sipPush_keeps | split | (with_reducible apply Keeps.upd; with_reducible assumption)

theorem State.pushStream_keeps {s₀ s : State} (h : Keeps s₀ s) (p : Page) (st : Nat) (e : SourceEntry) : Keeps s₀ (State.pushStream s p st e) := by
  unfold State.pushStream
  try dsimp only
  repeat' first | with_reducible assumption | with_reducible apply State.pushJob_keeps | with_reducible refine Keeps.ite ?_ ?_ | (with_reducible apply Keeps.upd; with_reducible assumption)

theorem State.keepJobs_keeps {s₀ s : State} (h : Keeps s₀ s) (keep : SipJob → Bool) : Keeps s₀ (State.keepJobs s keep) := by
  unfold State.keepJobs
  try dsimp only
  repeat' first | with_reducible assumption | (with_reducible apply Keeps.upd; with_reducible assumption)

theorem State.stageCopy_keeps {s₀ s : State} (h : Keeps s₀ s) (c : Copy) : Keeps s₀ (State.stageCopy s c) := by
  unfold State.stageCopy
  try dsimp only
  repeat' first | with_reducible assumption | with_reducible apply State.keepJobs_keeps | with_reducible apply State.modCopy_keeps | with_reducible apply State.pushJob_keeps | (with_reducible apply Keeps.foldl; intro _ _ _) | split | (with_reducible apply Keeps.upd; with_reducible assumption)

theorem State.useStream_keeps {s₀ s : State} (h : Keeps s₀ s) (seq : Nat) (st : Nat) (b : Nat) : Keeps s₀ (State.useStream s seq st b) := by
  unfold State.useStream
  try dsimp only
  repeat' first | with_reducible assumption | with_reducible refine Keeps.ite ?_ ?_ | (with_reducible apply Keeps.upd; with_reducible assumption)

theorem State.freeHeld_keeps {s₀ s t : State} {st : Nat} (h : Keeps s₀ s) (e : s.freeHeld st = some t) : Keeps s₀ t := by
  unfold State.freeHeld at e
  have m := List.mem_of_head? e
  rw [List.mem_filterMap] at m
  obtain ⟨x, -, hx⟩ := m
  repeat' first | (split at hx) | (simp only [reduceCtorEq] at hx)
  all_goals (simp only [Option.some.injEq] at hx; subst hx; exact State.useStream_keeps h _ _ _)

theorem State.ringRoom_keeps {s₀ : State} (st : Nat) (n : Nat) (fuel : Nat) : ∀ (s : State) (_ : Keeps s₀ s), Keeps s₀ (State.ringRoom s st n fuel) := by
  induction fuel generalizing st n with
  | zero => intro s h; unfold State.ringRoom; exact h
  | succ fuel ih =>
    intro s h
    unfold State.ringRoom
    repeat' first | with_reducible assumption | with_reducible apply ih | (refine State.freeHeld_keeps ?_ (by assumption)) | with_reducible refine Keeps.ite ?_ ?_ | split

theorem State.startStreams_keeps {s₀ s : State} (h : Keeps s₀ s) (p : Page) : Keeps s₀ (State.startStreams s p) := by
  unfold State.startStreams
  repeat' first | (extract_lets +onlyGivenNames z; first | (refine Keeps.cut (s₀ := s₀) z ?_ ?_; rotate_left; clear_value z; intro hz; rotate_left; subst z) | clear_value z) | with_reducible assumption | with_reducible apply State.report_keeps | with_reducible apply State.stageCopy_keeps | with_reducible apply State.pushStream_keeps | (with_reducible apply Keeps.foldl; intro _ _ _) | with_reducible refine Keeps.ite ?_ ?_ | split

theorem State.dropStreams_keeps {s₀ s : State} (h : Keeps s₀ s) (seq : Nat) : Keeps s₀ (State.dropStreams s seq) := by
  unfold State.dropStreams
  try dsimp only
  repeat' first | with_reducible assumption | with_reducible apply State.keepJobs_keeps | split | (with_reducible apply Keeps.upd; with_reducible assumption)

theorem State.commitPage_keeps {s₀ s : State} (h : Keeps s₀ s) (p : Page) : Keeps s₀ (State.commitPage s p) := by
  unfold State.commitPage
  repeat' first | (extract_lets +onlyGivenNames z; first | (refine Keeps.cut (s₀ := s₀) z ?_ ?_; rotate_left; clear_value z; intro hz; rotate_left; subst z) | clear_value z) | with_reducible assumption | with_reducible apply State.startStreams_keeps | with_reducible apply State.commitPart_keeps | with_reducible apply State.claims_keeps | with_reducible refine Keeps.ite ?_ ?_ | (with_reducible apply Keeps.upd; with_reducible assumption)

theorem State.releaseNow_keeps {s₀ s : State} (h : Keeps s₀ s) (p : Page) : Keeps s₀ (State.releaseNow s p) := by
  unfold State.releaseNow
  repeat' first | (extract_lets +onlyGivenNames z; first | (refine Keeps.cut (s₀ := s₀) z ?_ ?_; rotate_left; clear_value z; intro hz; rotate_left; subst z) | clear_value z) | with_reducible assumption | with_reducible apply State.modCopy_keeps | with_reducible apply State.freeCopy_keeps | with_reducible apply State.freeAudits_keeps | with_reducible apply State.pageEvent_keeps | with_reducible apply State.dropPage_keeps | with_reducible apply State.syncQueue_keeps | with_reducible refine Keeps.ite ?_ ?_ | split | (with_reducible apply Keeps.upd; with_reducible assumption)

theorem State.finalState_keeps {s₀ s : State} (h : Keeps s₀ s) (seq : Nat) (code : Nat) (reason : Nat) (station : Nat) : Keeps s₀ (State.finalState s seq code reason station) := by
  unfold State.finalState
  repeat' first | (extract_lets +onlyGivenNames z; first | (refine Keeps.cut (s₀ := s₀) z ?_ ?_; rotate_left; clear_value z; intro hz; rotate_left; subst z) | clear_value z) | with_reducible assumption | with_reducible apply State.setObj_keeps | with_reducible apply State.record_keeps | with_reducible apply State.pageEvent_keeps | with_reducible apply State.modPage_keeps | with_reducible apply State.syncQueue_keeps | with_reducible apply State.dropPage_keeps | with_reducible apply State.commitPage_keeps | with_reducible apply State.releaseNow_keeps | with_reducible refine Keeps.ite ?_ ?_ | split | (with_reducible apply Keeps.upd; with_reducible assumption)

theorem State.spoilPage_keeps {s₀ s : State} (h : Keeps s₀ s) (seq : Nat) (reason : Nat) (src : Nat) (param : Nat) (station : Nat) (addr : Option Nat) (cause : Option Nat) : Keeps s₀ (State.spoilPage s seq reason src param station addr cause) := by
  unfold State.spoilPage
  repeat' first | (extract_lets +onlyGivenNames z; first | (refine Keeps.cut (s₀ := s₀) z ?_ ?_; rotate_left; clear_value z; intro hz; rotate_left; subst z) | clear_value z) | with_reducible assumption | with_reducible apply State.report_keeps | with_reducible apply State.modPage_keeps | with_reducible apply State.modFrame_keeps | with_reducible apply State.finalState_keeps | with_reducible refine Keeps.ite ?_ ?_ | split | (with_reducible apply Keeps.upd; with_reducible assumption)

theorem State.withdrawPart_keeps {s₀ s : State} (h : Keeps s₀ s) (id : BitVec 64) : Keeps s₀ (State.withdrawPart s id) := by
  unfold State.withdrawPart
  try dsimp only
  repeat' first | with_reducible assumption | with_reducible refine Keeps.ite ?_ ?_ | (with_reducible apply Keeps.upd; with_reducible assumption)

theorem State.withdraw_keeps {s₀ s : State} (h : Keeps s₀ s) (seq : Nat) (code : Nat) : Keeps s₀ (State.withdraw s seq code) := by
  unfold State.withdraw
  repeat' first | (extract_lets +onlyGivenNames z; first | (refine Keeps.cut (s₀ := s₀) z ?_ ?_; rotate_left; clear_value z; intro hz; rotate_left; subst z) | clear_value z) | with_reducible assumption | with_reducible apply after_keeps | with_reducible apply State.withdrawPart_keeps | with_reducible apply State.modFrame_keeps | with_reducible apply State.finalState_keeps | with_reducible apply State.dropStreams_keeps | split | (with_reducible apply Keeps.upd; with_reducible assumption)

end Sys2Proof.Machine
end

