-- ==== Sys2Proof/Laws/KeepSipOps.lean ====
section
/-! SUPPORT. What the operations of Machine/SipOps.lean keep (Laws/Keep.lean). -/
namespace Sys2Proof.Machine
set_option Elab.async false
set_option linter.all false

theorem State.setChan_keeps {s₀ s : State} (h : Keeps s₀ s) (ch : Nat) (c : SipChan) : Keeps s₀ (State.setChan s ch c) := by
  unfold State.setChan
  try dsimp only
  repeat' first | with_reducible assumption | (with_reducible apply Keeps.upd; with_reducible assumption)

theorem State.setCh_keeps {s₀ s : State} (h : Keeps s₀ s) (ch : Nat) (st : Nat) : Keeps s₀ (State.setCh s ch st) := by
  unfold State.setCh
  try dsimp only
  repeat' first | with_reducible assumption | with_reducible apply State.setF_keeps | with_reducible refine Keeps.ite ?_ ?_

theorem State.chIrq_keeps {s₀ s : State} (h : Keeps s₀ s) (ch : Nat) : Keeps s₀ (State.chIrq s ch) := by
  unfold State.chIrq
  try dsimp only
  repeat' first | with_reducible assumption | with_reducible apply State.signal_keeps | with_reducible apply State.pf_keeps | with_reducible refine Keeps.ite ?_ ?_

theorem State.sendData_keeps {s₀ s : State} (h : Keeps s₀ s) (fn : Nat) (attr : Nat) (a : Nat) (bs : List Byte) : Keeps s₀ (State.sendData s fn attr a bs) := by
  unfold State.sendData
  repeat' first | with_reducible assumption | with_reducible apply State.emit_keeps | (with_reducible apply Keeps.foldl; intro _ _ _)

theorem State.writeSpace_keeps {s₀ s : State} (h : Keeps s₀ s) (fn : Nat) (space : Nat) (a : Nat) (bs : List Byte) : Keeps s₀ (State.writeSpace s fn space a bs) := by
  unfold State.writeSpace
  repeat' first | (extract_lets +onlyGivenNames z; first | (refine Keeps.cut (s₀ := s₀) z ?_ ?_; rotate_left; clear_value z; intro hz; rotate_left; subst z) | clear_value z) | with_reducible assumption | with_reducible apply State.emit_keeps | (with_reducible apply Keeps.dram; with_reducible assumption) | (with_reducible apply Keeps.tile; with_reducible assumption) | (with_reducible apply Keeps.spool; with_reducible assumption) | with_reducible refine Keeps.ite ?_ ?_ | (with_reducible apply Keeps.upd; with_reducible assumption)

theorem State.writeData_keeps {s₀ s : State} (h : Keeps s₀ s) (fn : Nat) (d : SipDesc) (a : Nat) (bs : List Byte) : Keeps s₀ (State.writeData s fn d a bs) := by
  unfold State.writeData
  repeat' first | with_reducible assumption | with_reducible apply State.sendData_keeps | with_reducible apply State.writeSpace_keeps | with_reducible refine Keeps.ite ?_ ?_

theorem State.dropReads_keeps {s₀ s : State} (h : Keeps s₀ s) (ch : Nat) : Keeps s₀ (State.dropReads s ch) := by
  unfold State.dropReads
  try dsimp only
  repeat' first | with_reducible assumption | split | (with_reducible apply Keeps.upd; with_reducible assumption)

theorem State.finishDesc_keeps {s₀ s : State} (h : Keeps s₀ s) (ch : Nat) (x : SipXfer) (code : Nat) : Keeps s₀ (State.finishDesc s ch x code) := by
  unfold State.finishDesc
  repeat' first | (extract_lets +onlyGivenNames z; first | (refine Keeps.cut (s₀ := s₀) z ?_ ?_; rotate_left; clear_value z; intro hz; rotate_left; subst z) | clear_value z) | with_reducible assumption | with_reducible apply State.dropReads_keeps | with_reducible apply State.writeSpace_keeps | with_reducible apply State.setF_keeps | with_reducible apply State.wrapInc_keeps | with_reducible apply State.raise_keeps | with_reducible apply State.chIrq_keeps | with_reducible apply State.report_keeps | with_reducible apply State.setChan_keeps | with_reducible apply State.setCh_keeps | with_reducible refine Keeps.ite ?_ ?_ | (with_reducible apply Keeps.upd; with_reducible assumption)

theorem State.stopChannels_keeps {s₀ s : State} (h : Keeps s₀ s) (code : Nat) : Keeps s₀ (State.stopChannels s code) := by
  unfold State.stopChannels
  refine Keeps.foldl (fun s ch hs => ?_) (by with_reducible apply Keeps.upd; exact h)
  dsimp only
  repeat' first | with_reducible assumption | with_reducible apply State.finishDesc_keeps | with_reducible apply State.setChan_keeps | with_reducible refine Keeps.ite ?_ ?_ | split

theorem State.resumeChannels_keeps {s₀ s : State} (h : Keeps s₀ s) : Keeps s₀ (State.resumeChannels s) := by
  unfold State.resumeChannels
  try dsimp only
  repeat' first | with_reducible assumption | with_reducible apply State.setCh_keeps | (with_reducible apply Keeps.foldl; intro _ _ _) | with_reducible refine Keeps.ite ?_ ?_ | (with_reducible apply Keeps.upd; with_reducible assumption)

theorem State.dropJobs_keeps {s₀ s : State} (h : Keeps s₀ s) (keep : SipJob → Bool) : Keeps s₀ (State.dropJobs s keep) := by
  unfold State.dropJobs
  try dsimp only
  repeat' first | with_reducible assumption | with_reducible apply State.dropReads_keeps | with_reducible apply State.setChan_keeps | with_reducible apply State.setCh_keeps | with_reducible apply State.keepJobs_keeps | (with_reducible apply Keeps.foldl; intro _ _ _) | with_reducible refine Keeps.ite ?_ ?_ | split | (with_reducible apply Keeps.upd; with_reducible assumption)

theorem State.resetChannels_keeps {s₀ s : State} (h : Keeps s₀ s) (fn : Nat) : Keeps s₀ (State.resetChannels s fn) := by
  unfold State.resetChannels
  repeat' first | (extract_lets +onlyGivenNames z; first | (refine Keeps.cut (s₀ := s₀) z ?_ ?_; rotate_left; clear_value z; intro hz; rotate_left; subst z) | clear_value z) | with_reducible assumption | with_reducible apply State.dropJobs_keeps | with_reducible apply State.dropReads_keeps | with_reducible apply State.setCh_keeps | with_reducible apply State.setChan_keeps | with_reducible apply State.resetRegs_keeps | with_reducible apply State.setB_keeps | (with_reducible apply Keeps.foldl; intro _ _ _) | with_reducible refine Keeps.ite ?_ ?_ | (with_reducible apply Keeps.upd; with_reducible assumption)

theorem State.endEngineShort_keeps {s₀ s : State} (h : Keeps s₀ s) : Keeps s₀ (State.endEngineShort s) := by
  unfold State.endEngineShort
  repeat' first | with_reducible assumption | with_reducible apply State.setF_keeps | with_reducible refine Keeps.ite ?_ ?_

end Sys2Proof.Machine
end

