-- ==== Sys2Proof/Laws/KeepSpoolOps.lean ====
section
/-! SUPPORT. What the operations of Machine/SpoolOps.lean keep (Laws/Keep.lean). -/
namespace Sys2Proof.Machine
set_option Elab.async false
set_option linter.all false

theorem State.releaseHeld_keeps {s₀ s : State} (h : Keeps s₀ s) (c : Copy) : Keeps s₀ (State.releaseHeld s c) := by
  unfold State.releaseHeld
  try dsimp only
  repeat' first | with_reducible assumption | with_reducible apply State.releaseNow_keeps | split | (with_reducible apply Keeps.upd; with_reducible assumption)

theorem State.loseCopy_keeps {s₀ s : State} (h : Keeps s₀ s) (key : Nat) : Keeps s₀ (State.loseCopy s key) := by
  unfold State.loseCopy
  repeat' first | (extract_lets +onlyGivenNames z; first | (refine Keeps.cut (s₀ := s₀) z ?_ ?_; rotate_left; clear_value z; intro hz; rotate_left; subst z) | clear_value z) | with_reducible assumption | with_reducible apply State.freeCopy_keeps | with_reducible apply State.spoilPage_keeps | with_reducible apply State.report_keeps | with_reducible apply State.releaseHeld_keeps | with_reducible refine Keeps.ite ?_ ?_ | split

theorem State.refreshRefusal_keeps {s₀ s : State} (h : Keeps s₀ s) : Keeps s₀ (State.refreshRefusal s) := by
  unfold State.refreshRefusal
  repeat' first | (extract_lets +onlyGivenNames z; first | (refine Keeps.cut (s₀ := s₀) z ?_ ?_; rotate_left; clear_value z; intro hz; rotate_left; subst z) | clear_value z) | with_reducible assumption | with_reducible apply State.showRefusal_keeps | with_reducible apply State.report_keeps | with_reducible apply State.loseCopy_keeps | (with_reducible apply Keeps.foldl; intro _ _ _) | with_reducible refine Keeps.ite ?_ ?_

theorem State.issueCmd_keeps {s₀ s : State} (h : Keeps s₀ s) (d : Nat) (op : NvmeOp) : Keeps s₀ (State.issueCmd s d op) := by
  unfold State.issueCmd
  try dsimp only
  repeat' first | with_reducible assumption | with_reducible apply State.emit_keeps | (with_reducible apply Keeps.upd; with_reducible assumption)

theorem State.issueAll_keeps {s₀ s : State} (h : Keeps s₀ s) (ds : List Nat) (op : NvmeOp) : Keeps s₀ (State.issueAll s ds op) := by
  unfold State.issueAll
  repeat' first | with_reducible assumption | with_reducible apply State.issueCmd_keeps | (with_reducible apply Keeps.foldl; intro _ _ _)

theorem State.issueExtent_keeps {s₀ s : State} (h : Keeps s₀ s) (op : NvmeOp) (x : Extent) (payload : List Byte) : Keeps s₀ (State.issueExtent s op x payload).1 := by
  unfold State.issueExtent
  try dsimp only
  repeat' first | with_reducible assumption | with_reducible apply State.set64_keeps | with_reducible apply State.issueAll_keeps | (with_reducible apply Keeps.foldl; intro _ _ _) | (with_reducible apply Keeps.foldl_snd; intro _ _ _) | (with_reducible apply Keeps.foldl_fst; intro _ _ _) | split | (with_reducible apply Keeps.upd; first | with_reducible assumption | with_reducible apply State.set64_keeps | with_reducible apply State.issueAll_keeps) | dsimp only

theorem State.copyAdvance_keeps {s₀ : State} (key : Nat) (fuel : Nat) : ∀ (s : State) (_ : Keeps s₀ s), Keeps s₀ (State.copyAdvance s key fuel) := by
  induction fuel generalizing key with
  | zero => intro s h; unfold State.copyAdvance; exact h
  | succ fuel ih =>
    intro s h
    unfold State.copyAdvance
    repeat' first | (extract_lets +onlyGivenNames z; first | (refine Keeps.cut (s₀ := s₀) z ?_ ?_; rotate_left; clear_value z; intro hz; rotate_left; subst z) | (refine Keeps.cut (s₀ := s₀) (z : _ × State).2 ?_ ?_; rotate_left; clear_value z; intro hz; rotate_left; subst z) | (refine Keeps.cut (s₀ := s₀) (z : State × _).1 ?_ ?_; rotate_left; clear_value z; intro hz; rotate_left; subst z) | (refine Keeps.cut (s₀ := s₀) (z : _ × _ × State).2.2 ?_ ?_; rotate_left; clear_value z; intro hz; rotate_left; subst z) | clear_value z) | with_reducible assumption | with_reducible apply ih | with_reducible apply State.issueExtent_keeps | with_reducible apply State.modCopy_keeps | (refine Keeps.of_fst ?_ (by assumption)) | with_reducible refine Keeps.ite ?_ ?_ | with_reducible refine Keeps.ite_snd ?_ ?_ | with_reducible refine Keeps.ite_fst ?_ ?_ | split | (with_reducible apply Keeps.upd; first | with_reducible assumption | with_reducible apply State.issueExtent_keeps | with_reducible apply State.modCopy_keeps) | dsimp only

theorem State.copyLand_keeps {s₀ s : State} (h : Keeps s₀ s) (key : Nat) (st : Nat) (bs : List Byte) : Keeps s₀ (State.copyLand s key st bs) := by
  unfold State.copyLand
  try dsimp only
  repeat' first | with_reducible assumption | with_reducible apply State.modCopy_keeps | with_reducible apply State.copyAdvance_keeps | with_reducible refine Keeps.ite ?_ ?_ | split | (with_reducible apply Keeps.upd; with_reducible assumption)

theorem State.copyNext_keeps {s₀ s : State} (h : Keeps s₀ s) (key : Nat) : Keeps s₀ (State.copyNext s key) := by
  unfold State.copyNext
  try dsimp only
  repeat' first | with_reducible assumption | with_reducible apply State.modCopy_keeps | with_reducible apply State.flushing_keeps | with_reducible apply State.issueAll_keeps | with_reducible refine Keeps.ite ?_ ?_ | split | (with_reducible apply Keeps.upd; with_reducible assumption)

theorem State.releaseWaiting_keeps {s₀ s : State} (h : Keeps s₀ s) (key : Nat) : Keeps s₀ (State.releaseWaiting s key) := by
  unfold State.releaseWaiting
  repeat' first | with_reducible assumption | with_reducible apply State.releaseHeld_keeps | with_reducible refine Keeps.ite ?_ ?_ | split

theorem State.breakCopy_keeps {s₀ s : State} (h : Keeps s₀ s) (c : Copy) : Keeps s₀ (State.breakCopy s c) := by
  unfold State.breakCopy
  repeat' first | (extract_lets +onlyGivenNames z; first | (refine Keeps.cut (s₀ := s₀) z ?_ ?_; rotate_left; clear_value z; intro hz; rotate_left; subst z) | clear_value z) | with_reducible assumption | with_reducible apply State.modCopy_keeps | with_reducible apply State.report_keeps | with_reducible refine Keeps.ite ?_ ?_ | (with_reducible apply Keeps.upd; with_reducible assumption)

theorem State.modAudit_keeps {s₀ s : State} (h : Keeps s₀ s) (key : Nat) (g : Audit → Audit) : Keeps s₀ (State.modAudit s key g) := by
  unfold State.modAudit
  try dsimp only
  repeat' first | with_reducible assumption | with_reducible refine Keeps.ite ?_ ?_ | (with_reducible apply Keeps.upd; with_reducible assumption)

theorem State.auditAdvance_keeps {s₀ : State} (key : Nat) (fuel : Nat) : ∀ (s : State) (_ : Keeps s₀ s), Keeps s₀ (State.auditAdvance s key fuel) := by
  induction fuel generalizing key with
  | zero => intro s h; unfold State.auditAdvance; exact h
  | succ fuel ih =>
    intro s h
    unfold State.auditAdvance
    repeat' first | (extract_lets +onlyGivenNames z; first | (refine Keeps.cut (s₀ := s₀) z ?_ ?_; rotate_left; clear_value z; intro hz; rotate_left; subst z) | (refine Keeps.cut (s₀ := s₀) (z : _ × State).2 ?_ ?_; rotate_left; clear_value z; intro hz; rotate_left; subst z) | (refine Keeps.cut (s₀ := s₀) (z : State × _).1 ?_ ?_; rotate_left; clear_value z; intro hz; rotate_left; subst z) | (refine Keeps.cut (s₀ := s₀) (z : _ × _ × State).2.2 ?_ ?_; rotate_left; clear_value z; intro hz; rotate_left; subst z) | clear_value z) | with_reducible assumption | with_reducible apply ih | with_reducible apply State.issueExtent_keeps | with_reducible apply State.modAudit_keeps | (refine Keeps.of_fst ?_ (by assumption)) | with_reducible refine Keeps.ite ?_ ?_ | with_reducible refine Keeps.ite_snd ?_ ?_ | with_reducible refine Keeps.ite_fst ?_ ?_ | split | (with_reducible apply Keeps.upd; first | with_reducible assumption | with_reducible apply State.issueExtent_keeps | with_reducible apply State.modAudit_keeps) | dsimp only

theorem State.modDirect_keeps {s₀ s : State} (h : Keeps s₀ s) (fn : Nat) (ext : Nat) (g : DirectExt → DirectExt) : Keeps s₀ (State.modDirect s fn ext g) := by
  unfold State.modDirect
  try dsimp only
  repeat' first | with_reducible assumption | with_reducible refine Keeps.ite ?_ ?_ | (with_reducible apply Keeps.upd; with_reducible assumption)

theorem State.allocDirect_keeps {s₀ s t : State} {fn : Nat} {ext : Nat} (h : Keeps s₀ s) (e : State.allocDirect s fn ext = some t) : Keeps s₀ t := by
  unfold State.allocDirect at e
  repeat' first | (split at e) | (simp only [Option.some.injEq] at e) | (simp only [reduceCtorEq] at e) | subst e
  all_goals (repeat' first | (extract_lets +onlyGivenNames z; first | (refine Keeps.cut (s₀ := s₀) z ?_ ?_; rotate_left; clear_value z; intro hz; rotate_left; subst z) | clear_value z) | with_reducible assumption | with_reducible apply State.modDirect_keeps | with_reducible apply State.alloc_keeps | with_reducible refine Keeps.ite ?_ ?_ | (with_reducible apply Keeps.upd; first | with_reducible assumption | with_reducible apply State.modDirect_keeps | with_reducible apply State.alloc_keeps) | (simp only [Option.some.injEq, reduceCtorEq] at e))

theorem State.sealDirect_keeps {s₀ s : State} (h : Keeps s₀ s) (fn : Nat) (ext : Nat) : Keeps s₀ (State.sealDirect s fn ext) := by
  unfold State.sealDirect
  try dsimp only
  repeat' first | with_reducible assumption | with_reducible apply State.modDirect_keeps | with_reducible apply State.issueExtent_keeps | (refine Keeps.of_fst ?_ (by assumption)) | with_reducible refine Keeps.ite ?_ ?_ | with_reducible refine Keeps.ite_snd ?_ ?_ | with_reducible refine Keeps.ite_fst ?_ ?_ | split | (with_reducible apply Keeps.upd; first | with_reducible assumption | with_reducible apply State.modDirect_keeps | with_reducible apply State.issueExtent_keeps) | dsimp only

theorem State.sealAll_keeps {s₀ s : State} (h : Keeps s₀ s) : Keeps s₀ (State.sealAll s) := by
  unfold State.sealAll
  repeat' first | (extract_lets +onlyGivenNames z; first | (refine Keeps.cut (s₀ := s₀) z ?_ ?_; rotate_left; clear_value z; intro hz; rotate_left; subst z) | clear_value z) | with_reducible assumption | with_reducible apply State.copyAdvance_keeps | with_reducible apply State.auditAdvance_keeps | with_reducible apply State.sealDirect_keeps | (with_reducible apply Keeps.foldl; intro _ _ _) | with_reducible refine Keeps.ite ?_ ?_

theorem State.readFailed_keeps {s₀ s : State} (h : Keeps s₀ s) (fn : Nat) (tag : Bool) : Keeps s₀ (State.readFailed s fn tag) := by
  unfold State.readFailed
  repeat' first | with_reducible assumption | with_reducible apply State.satInc_keeps | with_reducible apply State.raise_keeps | with_reducible apply State.sliceVector_keeps | with_reducible refine Keeps.ite ?_ ?_

theorem State.endRead_keeps {s₀ s : State} (h : Keeps s₀ s) (ch : Nat) (e : Nat) (good : Bool) : Keeps s₀ (State.endRead s ch e good) := by
  unfold State.endRead
  repeat' first | (extract_lets +onlyGivenNames z; first | (refine Keeps.cut (s₀ := s₀) z ?_ ?_; rotate_left; clear_value z; intro hz; rotate_left; subst z) | clear_value z) | with_reducible assumption | with_reducible apply State.setChan_keeps | with_reducible apply State.modCopy_keeps | with_reducible refine Keeps.ite ?_ ?_ | split | (with_reducible apply Keeps.upd; with_reducible assumption)

theorem State.readExtent_keeps {s₀ s : State} (h : Keeps s₀ s) (ch : Nat) (x : SipXfer) (e : Nat) : Keeps s₀ (State.readExtent s ch x e) := by
  unfold State.readExtent
  try dsimp only
  repeat' first | with_reducible assumption | with_reducible apply State.setChan_keeps | with_reducible apply State.satInc_keeps | with_reducible apply State.endRead_keeps | with_reducible apply State.issueCmd_keeps | split | (with_reducible apply Keeps.upd; with_reducible assumption)

theorem State.readAhead_keeps {s₀ s : State} (h : Keeps s₀ s) (ch : Nat) : Keeps s₀ (State.readAhead s ch) := by
  unfold State.readAhead
  try dsimp only
  repeat' first | with_reducible assumption | with_reducible apply State.setChan_keeps | with_reducible apply State.readExtent_keeps | (with_reducible apply Keeps.foldl; intro _ _ _) | with_reducible refine Keeps.ite ?_ ?_ | split | (with_reducible apply Keeps.upd; with_reducible assumption)

end Sys2Proof.Machine
end

