-- ==== Sys2Proof/Laws/KeepCmpBase.lean ====
section
/-! SUPPORT. What the operations of Machine/CmpBase.lean keep (Laws/Keep.lean). -/
namespace Sys2Proof.Machine
set_option Elab.async false
set_option linter.all false

theorem State.setPin_keeps {s₀ s : State} (h : Keeps s₀ s) (i : Nat) (x : Pin) : Keeps s₀ (State.setPin s i x) := by
  unfold State.setPin
  try dsimp only
  repeat' first | with_reducible assumption | (with_reducible apply Keeps.upd; with_reducible assumption)

theorem State.syncStore_keeps {s₀ s : State} (h : Keeps s₀ s) : Keeps s₀ (State.syncStore s) := by
  unfold State.syncStore
  repeat' first | with_reducible assumption | with_reducible apply State.setF_keeps | with_reducible apply State.setB_keeps

theorem State.setStore_keeps {s₀ s : State} (h : Keeps s₀ s) (l : List TileRes) : Keeps s₀ (State.setStore s l) := by
  unfold State.setStore
  try dsimp only
  repeat' first | with_reducible assumption | with_reducible apply State.syncStore_keeps | with_reducible apply State.dropJobs_keeps | split | (with_reducible apply Keeps.upd; with_reducible assumption)

theorem State.modTile_keeps {s₀ s : State} (h : Keeps s₀ s) (fn : Nat) (tile : Nat) (g : TileRes → TileRes) : Keeps s₀ (State.modTile s fn tile g) := by
  unfold State.modTile
  try dsimp only
  repeat' first | with_reducible assumption | with_reducible refine Keeps.ite ?_ ?_ | (with_reducible apply Keeps.upd; with_reducible assumption)

theorem State.startLoad_keeps {s₀ s : State} (h : Keeps s₀ s) (fn : Nat) (tile : Nat) : Keeps s₀ (State.startLoad s fn tile) := by
  unfold State.startLoad
  try dsimp only
  repeat' first | with_reducible assumption | with_reducible apply State.setStore_keeps | with_reducible apply State.pushJob_keeps | with_reducible refine Keeps.ite ?_ ?_ | split | (with_reducible apply Keeps.upd; with_reducible assumption)

theorem State.wantTile_keeps {s₀ s : State} (h : Keeps s₀ s) (fn : Nat) (tile : Nat) : Keeps s₀ (State.wantTile s fn tile) := by
  unfold State.wantTile
  repeat' first | with_reducible assumption | with_reducible apply State.setStore_keeps | with_reducible apply State.startLoad_keeps | with_reducible refine Keeps.ite ?_ ?_ | split

theorem State.invalidateTiles_keeps {s₀ s : State} (h : Keeps s₀ s) (fn : Nat) (ext : Nat) : Keeps s₀ (State.invalidateTiles s fn ext) := by
  unfold State.invalidateTiles
  repeat' first | (extract_lets +onlyGivenNames z; first | (refine Keeps.cut (s₀ := s₀) z ?_ ?_; rotate_left; clear_value z; intro hz; rotate_left; subst z) | (have _f := fun a => z a; clear _f; subst z; try dsimp -zeta only) | clear_value z) | with_reducible assumption | with_reducible apply State.setPin_keeps | with_reducible apply State.setF_keeps | with_reducible apply State.setStore_keeps | (with_reducible apply Keeps.foldl; intro _ _ _) | with_reducible refine Keeps.ite ?_ ?_ | (with_reducible apply Keeps.upd; with_reducible assumption)

theorem State.reloadTiles_keeps {s₀ s : State} (h : Keeps s₀ s) (fn : Nat) : Keeps s₀ (State.reloadTiles s fn) := by
  unfold State.reloadTiles
  repeat' first | with_reducible assumption | with_reducible apply State.startLoad_keeps | (with_reducible apply Keeps.foldl; intro _ _ _)

theorem State.dropLoads_keeps {s₀ s : State} (h : Keeps s₀ s) (gone : List Nat) : Keeps s₀ (State.dropLoads s gone) := by
  unfold State.dropLoads
  try dsimp only
  repeat' first | with_reducible assumption | with_reducible apply State.setStore_keeps | (with_reducible apply Keeps.upd; with_reducible assumption)

theorem State.lastErr_keeps {s₀ s : State} (h : Keeps s₀ s) (code : Nat) (fn : Nat) (tile : Nat) : Keeps s₀ (State.lastErr s code fn tile) := by
  unfold State.lastErr
  repeat' first | with_reducible assumption | with_reducible apply State.setF_keeps

theorem State.dropComposed_keeps {s₀ s : State} (h : Keeps s₀ s) (p : Page) (code : Nat) (tile : Nat) : Keeps s₀ (State.dropComposed s p code tile) := by
  unfold State.dropComposed
  repeat' first | with_reducible assumption | with_reducible apply State.lastErr_keeps | with_reducible apply State.satInc_keeps | with_reducible apply State.report_keeps | with_reducible apply State.withdraw_keeps

theorem State.failCompose_keeps {s₀ s : State} (h : Keeps s₀ s) (seq : Nat) (code : Nat) (tile : Nat) (station : Nat) : Keeps s₀ (State.failCompose s seq code tile station) := by
  unfold State.failCompose
  repeat' first | with_reducible assumption | with_reducible apply State.dropComposed_keeps | with_reducible apply State.lastErr_keeps | with_reducible apply State.satInc_keeps | with_reducible apply State.spoilPage_keeps | with_reducible refine Keeps.ite ?_ ?_ | split

end Sys2Proof.Machine
end

