-- ==== Sys2Proof/Laws/KeepFill.lean ====
section
/-! SUPPORT. What the operations of Machine/Fill.lean keep (Laws/Keep.lean). -/
namespace Sys2Proof.Machine
set_option Elab.async false
set_option linter.all false

theorem State.setPinBytes_keeps {s₀ s : State} (h : Keeps s₀ s) (i : Nat) (n : Nat) : Keeps s₀ (State.setPinBytes s i n) := by
  unfold State.setPinBytes
  try dsimp only
  repeat' first | with_reducible assumption | with_reducible apply State.setPin_keeps | with_reducible apply State.setF_keeps | (with_reducible apply Keeps.tileMove; with_reducible assumption) | (with_reducible apply Keeps.upd; with_reducible assumption)

theorem State.pinCopies_keeps {s₀ s : State} (h : Keeps s₀ s) : Keeps s₀ (State.pinCopies s) := by
  unfold State.pinCopies
  try dsimp only
  repeat' first | with_reducible assumption | with_reducible apply State.dropJobs_keeps | with_reducible apply State.pin_keeps | with_reducible apply State.pushJob_keeps | (with_reducible apply Keeps.foldl; intro _ _ _) | with_reducible refine Keeps.ite ?_ ?_ | (with_reducible apply Keeps.upd; with_reducible assumption)

theorem State.modFill_keeps {s₀ s : State} (h : Keeps s₀ s) (flume : Nat) (g : Fill → Fill) : Keeps s₀ (State.modFill s flume g) := by
  unfold State.modFill
  try dsimp only
  repeat' first | with_reducible assumption | with_reducible refine Keeps.ite ?_ ?_ | (with_reducible apply Keeps.upd; with_reducible assumption)

theorem State.rowDone_keeps {s₀ s : State} (h : Keeps s₀ s) (x : Fill) (l : PList) (offs : List (List (Option Nat))) : Keeps s₀ (State.rowDone s x l offs) := by
  unfold State.rowDone
  try dsimp only
  repeat' first | with_reducible assumption | with_reducible apply State.modFill_keeps | split | (with_reducible apply Keeps.upd; with_reducible assumption)

theorem State.fillNext_keeps {s₀ : State} (flume : Nat) (fuel : Nat) : ∀ (s : State) (_ : Keeps s₀ s), Keeps s₀ (State.fillNext s flume fuel) := by
  induction fuel generalizing flume with
  | zero => intro s h; unfold State.fillNext; exact h
  | succ fuel ih =>
    intro s h
    unfold State.fillNext
    repeat' first | (extract_lets +onlyGivenNames z; first | (refine Keeps.cut (s₀ := s₀) z ?_ ?_; rotate_left; clear_value z; intro hz; rotate_left; subst z) | clear_value z) | with_reducible assumption | with_reducible apply ih | with_reducible apply State.rowDone_keeps | with_reducible apply State.pushJob_keeps | with_reducible refine Keeps.ite ?_ ?_ | split | (with_reducible apply Keeps.upd; with_reducible assumption)

theorem State.dropFill_keeps {s₀ s : State} (h : Keeps s₀ s) (flume : Nat) : Keeps s₀ (State.dropFill s flume) := by
  unfold State.dropFill
  try dsimp only
  repeat' first | with_reducible assumption | with_reducible apply State.dropJobs_keeps | (with_reducible apply Keeps.upd; with_reducible assumption)

theorem State.startFill_keeps {s₀ s : State} (h : Keeps s₀ s) (flume : Nat) (seq : Nat) (st : Nat) (k : Nat) : Keeps s₀ (State.startFill s flume seq st k) := by
  unfold State.startFill
  repeat' first | (extract_lets +onlyGivenNames z; first | (refine Keeps.cut (s₀ := s₀) z ?_ ?_; rotate_left; clear_value z; intro hz; rotate_left; subst z) | clear_value z) | with_reducible assumption | with_reducible apply State.dropFill_keeps | with_reducible apply State.fillNext_keeps | (with_reducible apply Keeps.upd; with_reducible assumption)

theorem State.fillBurst_keeps {s₀ s : State} (h : Keeps s₀ s) (ch : Nat) (x : SipXfer) (flume : Nat) (fail : Nat) : Keeps s₀ (State.fillBurst s ch x flume fail) := by
  unfold State.fillBurst
  repeat' first | (extract_lets +onlyGivenNames z; first | (refine Keeps.cut (s₀ := s₀) z ?_ ?_; rotate_left; clear_value z; intro hz; rotate_left; subst z) | (have _f := fun a => z a; clear _f; subst z; try dsimp -zeta only) | clear_value z) | with_reducible assumption | with_reducible apply State.setChan_keeps | with_reducible apply State.failCompose_keeps | with_reducible apply State.rowDone_keeps | with_reducible apply State.fillNext_keeps | (with_reducible apply Keeps.tile; with_reducible assumption) | with_reducible refine Keeps.ite ?_ ?_ | split | (with_reducible apply Keeps.upd; with_reducible assumption)

theorem State.pinBurst_keeps {s₀ s : State} (h : Keeps s₀ s) (ch : Nat) (x : SipXfer) (i : Nat) (fail : Nat) : Keeps s₀ (State.pinBurst s ch x i fail) := by
  unfold State.pinBurst
  repeat' first | (extract_lets +onlyGivenNames z; first | (refine Keeps.cut (s₀ := s₀) z ?_ ?_; rotate_left; clear_value z; intro hz; rotate_left; subst z) | (have _f := fun a => z a; clear _f; subst z; try dsimp -zeta only) | clear_value z) | with_reducible assumption | with_reducible apply State.setChan_keeps | with_reducible apply State.lastErr_keeps | with_reducible apply State.report_keeps | with_reducible apply State.setPin_keeps | (with_reducible apply Keeps.tile; with_reducible assumption) | with_reducible refine Keeps.ite ?_ ?_ | (with_reducible apply Keeps.upd; with_reducible assumption)

end Sys2Proof.Machine
end

