-- ==== Sys2Proof/Laws/KeepKorBase.lean ====
section
/-! SUPPORT. What the operations of Machine/KorBase.lean keep (Laws/Keep.lean). -/
namespace Sys2Proof.Machine
set_option Elab.async false
set_option linter.all false

theorem State.setJob_keeps {s₀ s : State} (h : Keeps s₀ s) (j : Nat) (x : KorJob) : Keeps s₀ (State.setJob s j x) := by
  unfold State.setJob
  try dsimp only
  repeat' first | with_reducible assumption | (with_reducible apply Keeps.upd; with_reducible assumption)

theorem State.jobRefused_keeps {s₀ s : State} (h : Keeps s₀ s) (j : Nat) : Keeps s₀ (State.jobRefused s j) := by
  unfold State.jobRefused
  repeat' first | with_reducible assumption | with_reducible apply State.raise_keeps

theorem State.setJobState_keeps {s₀ s : State} (h : Keeps s₀ s) (j : Nat) (st : Nat) : Keeps s₀ (State.setJobState s j st) := by
  unfold State.setJobState
  repeat' first | (extract_lets +onlyGivenNames z; first | (refine Keeps.cut (s₀ := s₀) z ?_ ?_; rotate_left; clear_value z; intro hz; rotate_left; subst z) | clear_value z) | with_reducible assumption | with_reducible apply State.setF_keeps

theorem State.codecCount_keeps {s₀ s : State} (h : Keeps s₀ s) (code : Nat) : Keeps s₀ (State.codecCount s code) := by
  unfold State.codecCount
  repeat' first | with_reducible assumption | with_reducible apply State.satInc_keeps | with_reducible refine Keeps.ite ?_ ?_

theorem State.endJob_keeps {s₀ s : State} (h : Keeps s₀ s) (j : Nat) (code : Nat) : Keeps s₀ (State.endJob s j code) := by
  unfold State.endJob
  repeat' first | (extract_lets +onlyGivenNames z; first | (refine Keeps.cut (s₀ := s₀) z ?_ ?_; rotate_left; clear_value z; intro hz; rotate_left; subst z) | clear_value z) | with_reducible assumption | with_reducible apply State.setJobState_keeps | with_reducible apply State.setF_keeps | with_reducible apply State.setJob_keeps | with_reducible apply State.report_keeps | with_reducible apply State.codecCount_keeps | with_reducible apply State.event_keeps | with_reducible apply State.mark_keeps | with_reducible refine Keeps.ite ?_ ?_ | (with_reducible apply Keeps.upd; with_reducible assumption)

end Sys2Proof.Machine
end

