-- ==== Sys2Proof/Laws/KeepInsBase.lean ====
section
/-! SUPPORT. What the operations of Machine/InsBase.lean keep (Laws/Keep.lean). -/
namespace Sys2Proof.Machine
set_option Elab.async false
set_option linter.all false

theorem State.setInsSide_keeps {s₀ s : State} (h : Keeps s₀ s) (side : Nat) (x : InsSide) : Keeps s₀ (State.setInsSide s side x) := by
  unfold State.setInsSide
  try dsimp only
  repeat' first | with_reducible assumption | (with_reducible apply Keeps.upd; with_reducible assumption)

theorem State.modInsSide_keeps {s₀ s : State} (h : Keeps s₀ s) (side : Nat) (g : InsSide → InsSide) : Keeps s₀ (State.modInsSide s side g) := by
  unfold State.modInsSide
  repeat' first | with_reducible assumption | with_reducible apply State.setInsSide_keeps

theorem State.insFirstLatch_keeps {s₀ s : State} (h : Keeps s₀ s) (f : Frame) (p : Page) : Keeps s₀ (State.insFirstLatch s f p) := by
  unfold State.insFirstLatch
  repeat' first | (extract_lets +onlyGivenNames z; first | (refine Keeps.cut (s₀ := s₀) z ?_ ?_; rotate_left; clear_value z; intro hz; rotate_left; subst z) | clear_value z) | with_reducible assumption | with_reducible apply State.modInsSide_keeps | with_reducible apply State.remain_keeps | (with_reducible apply Keeps.foldl; intro _ _ _) | (with_reducible apply Keeps.upd; with_reducible assumption)

theorem State.modInsPage_keeps {s₀ s : State} (h : Keeps s₀ s) (seq : Nat) (side : Nat) (g : InsPage → InsPage) : Keeps s₀ (State.modInsPage s seq side g) := by
  unfold State.modInsPage
  repeat' first | (extract_lets +onlyGivenNames z; first | (refine Keeps.cut (s₀ := s₀) z ?_ ?_; rotate_left; clear_value z; intro hz; rotate_left; subst z) | clear_value z) | with_reducible assumption | with_reducible apply State.modInsSide_keeps | with_reducible refine Keeps.ite ?_ ?_ | (with_reducible apply Keeps.upd; with_reducible assumption)

theorem State.insStationLatch_keeps {s₀ s : State} (h : Keeps s₀ s) (p : Page) (st : Nat) : Keeps s₀ (State.insStationLatch s p st) := by
  unfold State.insStationLatch
  try dsimp only
  repeat' first | with_reducible assumption | with_reducible apply State.modInsPage_keeps | with_reducible refine Keeps.ite ?_ ?_ | (with_reducible apply Keeps.upd; with_reducible assumption)

theorem State.insPageTof_keeps {s₀ s : State} (h : Keeps s₀ s) (p : Page) (st : Nat) : Keeps s₀ (State.insPageTof s p st) := by
  unfold State.insPageTof
  repeat' first | (extract_lets +onlyGivenNames z; first | (refine Keeps.cut (s₀ := s₀) z ?_ ?_; rotate_left; clear_value z; intro hz; rotate_left; subst z) | clear_value z) | with_reducible assumption | with_reducible apply State.modInsPage_keeps | (with_reducible apply Keeps.foldl; intro _ _ _) | (with_reducible apply Keeps.upd; with_reducible assumption)

theorem State.auditCut_keeps {s₀ s : State} (h : Keeps s₀ s) (y : InsPage) : Keeps s₀ (State.auditCut s y) := by
  unfold State.auditCut
  try dsimp only
  repeat' first | with_reducible assumption | with_reducible apply State.setJobState_keeps | with_reducible apply State.report_keeps | with_reducible apply State.modInsPage_keeps | with_reducible refine Keeps.ite ?_ ?_ | (with_reducible apply Keeps.upd; with_reducible assumption)

theorem State.auditsCut_keeps {s₀ s : State} (h : Keeps s₀ s) : Keeps s₀ (State.auditsCut s) := by
  unfold State.auditsCut
  repeat' first | with_reducible assumption | with_reducible apply State.auditCut_keeps | (with_reducible apply Keeps.foldl; intro _ _ _)

theorem State.insDrop_keeps {s₀ s : State} (h : Keeps s₀ s) (seq : Nat) : Keeps s₀ (State.insDrop s seq) := by
  unfold State.insDrop
  repeat' first | (extract_lets +onlyGivenNames z; first | (refine Keeps.cut (s₀ := s₀) z ?_ ?_; rotate_left; clear_value z; intro hz; rotate_left; subst z) | clear_value z) | with_reducible assumption | with_reducible apply State.auditCut_keeps | with_reducible apply State.modInsSide_keeps | with_reducible apply State.dropStreams_keeps | (with_reducible apply Keeps.foldl; intro _ _ _) | (with_reducible apply Keeps.upd; with_reducible assumption)

end Sys2Proof.Machine
end

