-- ==== Sys2Proof/Laws/KeepPages.lean ====
section
/-! SUPPORT. What the operations of Machine/Pages.lean keep (Laws/Keep.lean). -/
namespace Sys2Proof.Machine
set_option Elab.async false
set_option linter.all false

theorem State.entryRead_keeps {s₀ s : State} (h : Keeps s₀ s) (fn : Nat) : Keeps s₀ (State.entryRead s fn) := by
  unfold State.entryRead
  try dsimp only
  repeat' first | with_reducible assumption | with_reducible apply State.setF_keeps | (with_reducible apply Keeps.upd; with_reducible assumption)

theorem State.refuse_keeps {s₀ s : State} (h : Keeps s₀ s) (fn : Nat) (d : PageDesc) (status : Nat) : Keeps s₀ (State.refuse s fn d status) := by
  unfold State.refuse
  repeat' first | with_reducible assumption | with_reducible apply State.descEvent_keeps | with_reducible apply State.wrapInc_keeps

theorem State.accept_keeps {s₀ s : State} (h : Keeps s₀ s) (fn : Nat) (d : PageDesc) : Keeps s₀ (State.accept s fn d) := by
  unfold State.accept
  repeat' first | with_reducible assumption | with_reducible apply State.descEvent_keeps | with_reducible apply State.wrapInc_keeps

theorem State.acceptPage_keeps {s₀ s : State} (h : Keeps s₀ s) (fn : Nat) (d : PageDesc) (p : Page) : Keeps s₀ (State.acceptPage s fn d p) := by
  unfold State.acceptPage
  repeat' first | with_reducible assumption | with_reducible apply State.accept_keeps | with_reducible apply State.commitPage_keeps | with_reducible apply State.syncQueue_keeps

theorem execPagePrint_keeps {s₀ s : State} (h : Keeps s₀ s) (fn : Nat) (desc : List (BitVec 8)) (src : Option (List (BitVec 8))) : KeepsAns s₀ (execPagePrint fn desc src s) := by
  unfold execPagePrint
  repeat' first | (extract_lets +onlyGivenNames z; first | (refine Keeps.cut (s₀ := s₀) z ?_ ?_; rotate_left; clear_value z; intro hz; rotate_left; subst z) | clear_value z) | with_reducible assumption | with_reducible apply KeepsAns.next | with_reducible apply State.entryRead_keeps | with_reducible apply State.refuse_keeps | with_reducible apply State.freeCopy_keeps | with_reducible apply State.freeAudits_keeps | with_reducible apply State.dropPage_keeps | with_reducible apply State.newCopy_keeps | with_reducible apply State.acceptPage_keeps | with_reducible refine KeepsAns.ite ?_ ?_ | with_reducible refine Keeps.ite ?_ ?_ | split | (with_reducible apply Keeps.upd; with_reducible assumption)

theorem execPageReissue_keeps {s₀ s : State} (h : Keeps s₀ s) (fn : Nat) (desc : List (BitVec 8)) : KeepsAns s₀ (execPageReissue fn desc s) := by
  unfold execPageReissue
  repeat' first | (extract_lets +onlyGivenNames z; first | (refine Keeps.cut (s₀ := s₀) z ?_ ?_; rotate_left; clear_value z; intro hz; rotate_left; subst z) | clear_value z) | with_reducible assumption | with_reducible apply KeepsAns.next | with_reducible apply State.entryRead_keeps | with_reducible apply State.refuse_keeps | with_reducible apply State.dropPage_keeps | with_reducible apply State.acceptPage_keeps | with_reducible refine KeepsAns.ite ?_ ?_ | with_reducible refine Keeps.ite ?_ ?_ | split | (with_reducible apply Keeps.upd; with_reducible assumption)

theorem execPageRelease_keeps {s₀ s : State} (h : Keeps s₀ s) (fn : Nat) (desc : List (BitVec 8)) : KeepsAns s₀ (execPageRelease fn desc s) := by
  unfold execPageRelease
  repeat' first | (extract_lets +onlyGivenNames z; first | (refine Keeps.cut (s₀ := s₀) z ?_ ?_; rotate_left; clear_value z; intro hz; rotate_left; subst z) | clear_value z) | with_reducible assumption | with_reducible apply KeepsAns.next | with_reducible apply State.entryRead_keeps | with_reducible apply State.refuse_keeps | with_reducible apply State.accept_keeps | with_reducible apply State.releaseNow_keeps | with_reducible apply State.modPage_keeps | with_reducible apply State.withdraw_keeps | with_reducible apply State.claims_keeps | with_reducible apply State.syncQueue_keeps | with_reducible refine KeepsAns.ite ?_ ?_ | with_reducible refine Keeps.ite ?_ ?_ | split | (with_reducible apply Keeps.upd; with_reducible assumption)

theorem execPageCancel_keeps {s₀ s : State} (h : Keeps s₀ s) (fn : Nat) (desc : List (BitVec 8)) : KeepsAns s₀ (execPageCancel fn desc s) := by
  unfold execPageCancel
  try dsimp only
  repeat' first | with_reducible assumption | with_reducible apply KeepsAns.next | with_reducible apply State.entryRead_keeps | with_reducible apply State.refuse_keeps | with_reducible apply State.accept_keeps | with_reducible apply State.withdraw_keeps | with_reducible apply State.claims_keeps | with_reducible apply State.syncQueue_keeps | with_reducible refine KeepsAns.ite ?_ ?_ | with_reducible refine Keeps.ite ?_ ?_ | split

theorem execDescriptorInvalid_keeps {s₀ s : State} (h : Keeps s₀ s) (fn : Nat) (desc : List (BitVec 8)) : KeepsAns s₀ (execDescriptorInvalid fn desc s) := by
  unfold execDescriptorInvalid
  try dsimp only
  repeat' first | with_reducible assumption | with_reducible apply KeepsAns.next | with_reducible apply State.entryRead_keeps | with_reducible apply State.refuse_keeps | with_reducible refine KeepsAns.ite ?_ ?_ | with_reducible refine Keeps.ite ?_ ?_

theorem State.sweepFrames_keeps {s₀ s : State} (h : Keeps s₀ s) : Keeps s₀ (State.sweepFrames s) := by
  unfold State.sweepFrames
  try dsimp only
  repeat' first | with_reducible assumption | (with_reducible apply Keeps.foldl; intro _ _ _) | (with_reducible apply Keeps.upd; with_reducible assumption)

theorem execFirstLatch_keeps {s₀ s : State} (h : Keeps s₀ s) : KeepsAns s₀ (execFirstLatch s) := by
  unfold execFirstLatch
  repeat' first | (extract_lets +onlyGivenNames z; first | (refine Keeps.cut (s₀ := s₀) z ?_ ?_; rotate_left; clear_value z; intro hz; rotate_left; subst z) | (have _f := fun a => z a; clear _f; subst z; try dsimp -zeta only) | clear_value z) | with_reducible assumption | with_reducible apply KeepsAns.next | with_reducible apply State.sweepFrames_keeps | with_reducible apply State.blankFrame_keeps | with_reducible apply State.event_keeps | with_reducible apply State.claims_keeps | with_reducible apply State.dropComposed_keeps | with_reducible apply State.mark_keeps | with_reducible apply State.blankEvent_keeps | with_reducible apply State.modPage_keeps | with_reducible apply State.insFirstLatch_keeps | with_reducible apply State.pageEvent_keeps | with_reducible refine KeepsAns.ite ?_ ?_ | with_reducible refine Keeps.ite ?_ ?_ | split | (with_reducible apply Keeps.upd; with_reducible assumption)

theorem execStationLatch_keeps {s₀ s : State} (h : Keeps s₀ s) (st : Nat) : KeepsAns s₀ (execStationLatch st s) := by
  unfold execStationLatch
  try dsimp only
  repeat' first | with_reducible assumption | with_reducible apply KeepsAns.next | with_reducible apply State.wrapInc_keeps | with_reducible apply State.modPage_keeps | with_reducible apply State.insStationLatch_keeps | with_reducible refine KeepsAns.ite ?_ ?_ | with_reducible refine Keeps.ite ?_ ?_ | split | (with_reducible apply Keeps.upd; with_reducible assumption)

theorem execPageTof_keeps {s₀ s : State} (h : Keeps s₀ s) (st : Nat) : KeepsAns s₀ (execPageTof st s) := by
  unfold execPageTof
  try dsimp only
  repeat' first | with_reducible assumption | with_reducible apply KeepsAns.next | with_reducible apply State.modPage_keeps | with_reducible apply State.insPageTof_keeps | with_reducible apply State.event_keeps | with_reducible apply State.pageEvent_keeps | with_reducible refine KeepsAns.ite ?_ ?_ | with_reducible refine Keeps.ite ?_ ?_ | split | (with_reducible apply Keeps.upd; with_reducible assumption)

theorem execPageLastLine_keeps {s₀ s : State} (h : Keeps s₀ s) (st : Nat) : KeepsAns s₀ (execPageLastLine st s) := by
  unfold execPageLastLine
  repeat' first | (extract_lets +onlyGivenNames z; first | (refine Keeps.cut (s₀ := s₀) z ?_ ?_; rotate_left; clear_value z; intro hz; rotate_left; subst z) | clear_value z) | with_reducible assumption | with_reducible apply KeepsAns.next | with_reducible apply State.modPage_keeps | with_reducible apply State.event_keeps | with_reducible apply State.modFrame_keeps | with_reducible apply State.sendFeatures_keeps | with_reducible apply State.pageEvent_keeps | with_reducible apply State.finalState_keeps | with_reducible refine KeepsAns.ite ?_ ?_ | with_reducible refine Keeps.ite ?_ ?_ | split | (with_reducible apply Keeps.upd; with_reducible assumption)

theorem execFeedRequest_keeps {s₀ s : State} (h : Keeps s₀ s) : KeepsAns s₀ (execFeedRequest s) := by
  unfold execFeedRequest
  repeat' first | (extract_lets +onlyGivenNames z; first | (refine Keeps.cut (s₀ := s₀) z ?_ ?_; rotate_left; clear_value z; intro hz; rotate_left; subst z) | clear_value z) | with_reducible assumption | with_reducible apply KeepsAns.next | with_reducible apply State.setF_keeps | with_reducible apply State.modLine_keeps | with_reducible apply State.event_keeps | with_reducible apply State.modPage_keeps | with_reducible refine KeepsAns.ite ?_ ?_ | with_reducible refine Keeps.ite ?_ ?_ | split | (with_reducible apply Keeps.upd; with_reducible assumption)

theorem execSheetEdgeTimeout_keeps {s₀ s : State} (h : Keeps s₀ s) : KeepsAns s₀ (execSheetEdgeTimeout s) := by
  unfold execSheetEdgeTimeout
  try dsimp only
  repeat' first | with_reducible assumption | with_reducible apply KeepsAns.next | with_reducible apply State.report_keeps | with_reducible refine KeepsAns.ite ?_ ?_ | with_reducible refine Keeps.ite ?_ ?_ | split | (with_reducible apply Keeps.upd; with_reducible assumption)

end Sys2Proof.Machine
end

