-- ==== Sys2Proof/Laws/KeepRate.lean ====
section
/-! SUPPORT. What the operations of Machine/Rate.lean keep (Laws/Keep.lean). -/
namespace Sys2Proof.Machine
set_option Elab.async false
set_option linter.all false

theorem State.syncWeir_keeps {s₀ s : State} (h : Keeps s₀ s) : Keeps s₀ (State.syncWeir s) := by
  unfold State.syncWeir
  repeat' first | with_reducible assumption | with_reducible apply State.setF_keeps | (with_reducible apply Keeps.foldl; intro _ _ _) | with_reducible refine Keeps.ite ?_ ?_

theorem State.weirOn_keeps {s₀ s : State} (h : Keeps s₀ s) (cond : Nat) : Keeps s₀ (State.weirOn s cond) := by
  unfold State.weirOn
  try dsimp only
  repeat' first | with_reducible assumption | with_reducible apply State.setF_keeps | with_reducible apply State.event_keeps | with_reducible refine Keeps.ite ?_ ?_

theorem State.weirAsk_keeps {s₀ s : State} (h : Keeps s₀ s) (cond : Nat) (cls : Nat) : Keeps s₀ (State.weirAsk s cond cls) := by
  unfold State.weirAsk
  try dsimp only
  repeat' first | with_reducible assumption | with_reducible apply State.syncWeir_keeps | (with_reducible apply Keeps.upd; with_reducible assumption)

theorem State.weirOff_keeps {s₀ s : State} (h : Keeps s₀ s) (cond : Nat) : Keeps s₀ (State.weirOff s cond) := by
  unfold State.weirOff
  repeat' first | (extract_lets +onlyGivenNames z; first | (refine Keeps.cut (s₀ := s₀) z ?_ ?_; rotate_left; clear_value z; intro hz; rotate_left; subst z) | clear_value z) | with_reducible assumption | with_reducible apply State.setF_keeps | with_reducible apply State.syncWeir_keeps | (with_reducible apply Keeps.upd; with_reducible assumption)

theorem State.checkCapacity_keeps {s₀ s : State} (h : Keeps s₀ s) : Keeps s₀ (State.checkCapacity s) := by
  unfold State.checkCapacity
  repeat' first | (extract_lets +onlyGivenNames z; first | (refine Keeps.cut (s₀ := s₀) z ?_ ?_; rotate_left; clear_value z; intro hz; rotate_left; subst z) | clear_value z) | with_reducible assumption | with_reducible apply State.setF_keeps | with_reducible apply State.weirOn_keeps | with_reducible apply State.weirAsk_keeps | with_reducible apply State.report_keeps | with_reducible apply State.weirOff_keeps | with_reducible refine Keeps.ite ?_ ?_ | split

theorem State.classChanged_keeps {s₀ s : State} (h : Keeps s₀ s) (c : Nat) : Keeps s₀ (State.classChanged s c) := by
  unfold State.classChanged
  try dsimp only
  repeat' first | with_reducible assumption | with_reducible refine Keeps.ite ?_ ?_ | (with_reducible apply Keeps.upd; with_reducible assumption)

theorem State.setClass_keeps {s₀ s : State} (h : Keeps s₀ s) (c : Nat) : Keeps s₀ (State.setClass s c) := by
  unfold State.setClass
  try dsimp only
  repeat' first | with_reducible assumption | with_reducible apply State.classChanged_keeps | with_reducible apply State.setF_keeps | with_reducible apply State.checkCapacity_keeps

end Sys2Proof.Machine
end

