-- ==== Sys2Proof/Laws/KeepComposer.lean ====
section
/-! SUPPORT. What the operations of Machine/Composer.lean keep (Laws/Keep.lean). -/
namespace Sys2Proof.Machine
set_option Elab.async false
set_option linter.all false

theorem State.judge_keeps {s₀ s : State} (h : Keeps s₀ s) (p : Page) : Keeps s₀ (State.judge s p) := by
  unfold State.judge
  repeat' first | (extract_lets +onlyGivenNames z; first | (refine Keeps.cut (s₀ := s₀) z ?_ ?_; rotate_left; clear_value z; intro hz; rotate_left; subst z) | clear_value z) | with_reducible assumption | with_reducible apply State.raise_keeps | with_reducible apply State.failCompose_keeps | with_reducible refine Keeps.ite ?_ ?_ | (with_reducible apply Keeps.upd; with_reducible assumption)

theorem execPlacementListLanded_keeps {s₀ s : State} (h : Keeps s₀ s) (st : Nat) : KeepsAns s₀ (execPlacementListLanded st s) := by
  unfold execPlacementListLanded
  try dsimp only
  repeat' first | with_reducible assumption | with_reducible apply KeepsAns.next | with_reducible apply State.failCompose_keeps | with_reducible refine KeepsAns.ite ?_ ?_ | with_reducible refine Keeps.ite ?_ ?_ | split | (with_reducible apply Keeps.upd; with_reducible assumption)

theorem execDirectoryEntryRead_keeps {s₀ s : State} (h : Keeps s₀ s) (st : Nat) (failed : Option Nat) (tag : Bool) : KeepsAns s₀ (execDirectoryEntryRead st failed tag s) := by
  unfold execDirectoryEntryRead
  repeat' first | (extract_lets +onlyGivenNames z; first | (refine Keeps.cut (s₀ := s₀) z ?_ ?_; rotate_left; clear_value z; intro hz; rotate_left; subst z) | (have _f := fun a => z a; clear _f; subst z; try dsimp -zeta only) | clear_value z) | with_reducible assumption | with_reducible apply KeepsAns.next | with_reducible apply State.mark_keeps | with_reducible apply State.readFailed_keeps | with_reducible apply State.report_keeps | with_reducible apply State.failCompose_keeps | with_reducible apply State.wantTile_keeps | with_reducible apply State.judge_keeps | (with_reducible apply Keeps.foldl; intro _ _ _) | with_reducible refine KeepsAns.ite ?_ ?_ | with_reducible refine Keeps.ite ?_ ?_ | split | (with_reducible apply Keeps.upd; with_reducible assumption)

theorem execTileLoadComplete_keeps {s₀ s : State} (h : Keeps s₀ s) (fn : Nat) (tile : Nat) : KeepsAns s₀ (execTileLoadComplete fn tile s) := by
  unfold execTileLoadComplete
  try dsimp only
  repeat' first | with_reducible assumption | with_reducible apply KeepsAns.next | with_reducible apply State.setStore_keeps | with_reducible apply State.failCompose_keeps | with_reducible apply State.startLoad_keeps | with_reducible apply State.modTile_keeps | with_reducible apply State.pinCopies_keeps | (with_reducible apply Keeps.foldl; intro _ _ _) | with_reducible refine KeepsAns.ite ?_ ?_ | with_reducible refine Keeps.ite ?_ ?_ | split | (with_reducible apply Keeps.upd; with_reducible assumption)

theorem execTileLoadResume_keeps {s₀ s : State} (h : Keeps s₀ s) (fn : Nat) (tile : Nat) : KeepsAns s₀ (execTileLoadResume fn tile s) := by
  unfold execTileLoadResume
  repeat' first | with_reducible assumption | with_reducible apply KeepsAns.next | with_reducible apply State.startLoad_keeps | with_reducible refine KeepsAns.ite ?_ ?_ | with_reducible refine Keeps.ite ?_ ?_ | split

theorem execRiskReevaluate_keeps {s₀ s : State} (h : Keeps s₀ s) : KeepsAns s₀ (execRiskReevaluate s) := by
  unfold execRiskReevaluate
  try dsimp only
  repeat' first | with_reducible assumption | with_reducible apply KeepsAns.next | with_reducible apply State.judge_keeps | with_reducible apply State.failCompose_keeps | with_reducible refine KeepsAns.ite ?_ ?_ | with_reducible refine Keeps.ite ?_ ?_ | split

theorem State.unpin_keeps {s₀ s : State} (h : Keeps s₀ s) (i : Nat) : Keeps s₀ (State.unpin s i) := by
  unfold State.unpin
  repeat' first | with_reducible assumption | with_reducible apply State.setPinBytes_keeps | with_reducible apply State.setF_keeps | with_reducible apply State.dropJobs_keeps | with_reducible apply State.pin_keeps

theorem State.pin_keeps {s₀ s : State} (h : Keeps s₀ s) (i : Nat) : Keeps s₀ (State.pin s i) := by
  unfold State.pin
  try dsimp only
  repeat' first | with_reducible assumption | with_reducible apply State.raise_keeps | with_reducible apply State.wantTile_keeps | with_reducible apply State.setPinBytes_keeps | with_reducible apply State.pinCopies_keeps | (with_reducible apply Keeps.foldl; intro _ _ _) | with_reducible refine Keeps.ite ?_ ?_

theorem State.pinWrite_keeps {s₀ s t : State} {i : Nat} {value : BitVec 32} (h : Keeps s₀ s) (e : State.pinWrite s i value = some t) : Keeps s₀ t := by
  unfold State.pinWrite at e
  repeat' first | (split at e) | (simp only [Option.some.injEq] at e) | (simp only [reduceCtorEq] at e) | subst e
  all_goals (repeat' first | (extract_lets +onlyGivenNames z; first | (refine Keeps.cut (s₀ := s₀) z ?_ ?_; rotate_left; clear_value z; intro hz; rotate_left; subst z) | clear_value z) | with_reducible assumption | with_reducible apply State.darkWrite_keeps | with_reducible apply State.raise_keeps | with_reducible refine Keeps.ite ?_ ?_ | (simp only [Option.some.injEq, reduceCtorEq] at e))

theorem execPinEnable_keeps {s₀ s : State} (h : Keeps s₀ s) (entry : Nat) (value : BitVec 32) : KeepsAns s₀ (execPinEnable entry value s) := by
  unfold execPinEnable
  try dsimp only
  repeat' first | with_reducible assumption | with_reducible apply KeepsAns.next | (refine State.pinWrite_keeps ?_ (by assumption)) | with_reducible apply State.unpin_keeps | with_reducible apply State.setWord_keeps | with_reducible apply State.pin_keeps | with_reducible refine KeepsAns.ite ?_ ?_ | with_reducible refine Keeps.ite ?_ ?_ | split

theorem execPinDisable_keeps {s₀ s : State} (h : Keeps s₀ s) (entry : Nat) (value : BitVec 32) : KeepsAns s₀ (execPinDisable entry value s) := by
  unfold execPinDisable
  try dsimp only
  repeat' first | with_reducible assumption | with_reducible apply KeepsAns.next | (refine State.pinWrite_keeps ?_ (by assumption)) | with_reducible apply State.unpin_keeps | with_reducible apply State.setWord_keeps | with_reducible refine KeepsAns.ite ?_ ?_ | with_reducible refine Keeps.ite ?_ ?_ | split

theorem State.pinCount_keeps {s₀ s : State} (h : Keeps s₀ s) (i : Nat) (v : Nat) : Keeps s₀ (State.pinCount s i v) := by
  unfold State.pinCount
  repeat' first | with_reducible assumption | with_reducible apply State.unpin_keeps | with_reducible apply State.setF_keeps | with_reducible apply State.pin_keeps | with_reducible refine Keeps.ite ?_ ?_

theorem execPinResident_keeps {s₀ s : State} (h : Keeps s₀ s) (entry : Nat) : KeepsAns s₀ (execPinResident entry s) := by
  unfold execPinResident
  try dsimp only
  repeat' first | with_reducible assumption | with_reducible apply KeepsAns.next | with_reducible apply State.setF_keeps | with_reducible refine KeepsAns.ite ?_ ?_ | with_reducible refine Keeps.ite ?_ ?_

theorem State.composerSleep_keeps {s₀ s : State} (h : Keeps s₀ s) : Keeps s₀ (State.composerSleep s) := by
  unfold State.composerSleep
  repeat' first | (extract_lets +onlyGivenNames z; first | (refine Keeps.cut (s₀ := s₀) z ?_ ?_; rotate_left; clear_value z; intro hz; rotate_left; subst z) | clear_value z) | with_reducible assumption | with_reducible apply State.unpin_keeps | with_reducible apply State.setStore_keeps | with_reducible apply State.dropJobs_keeps | (with_reducible apply Keeps.noTiles; with_reducible assumption) | (with_reducible apply Keeps.foldl; intro _ _ _) | split | (with_reducible apply Keeps.upd; with_reducible assumption)

theorem State.composerWake_keeps {s₀ s : State} (h : Keeps s₀ s) : Keeps s₀ (State.composerWake s) := by
  unfold State.composerWake
  try dsimp only
  repeat' first | with_reducible assumption | with_reducible apply State.pin_keeps | (with_reducible apply Keeps.foldl; intro _ _ _) | with_reducible refine Keeps.ite ?_ ?_ | (with_reducible apply Keeps.upd; with_reducible assumption)

end Sys2Proof.Machine
end

