-- ==== Sys2Proof/Laws/KeepBeamOps.lean ====
section
/-! SUPPORT. What the operations of Machine/BeamOps.lean keep (Laws/Keep.lean). -/
namespace Sys2Proof.Machine
set_option Elab.async false
set_option linter.all false

theorem State.setScnSt_keeps {s₀ s : State} (h : Keeps s₀ s) (st : Nat) (x : ScnSt) : Keeps s₀ (State.setScnSt s st x) := by
  unfold State.setScnSt
  try dsimp only
  repeat' first | with_reducible assumption | (with_reducible apply Keeps.upd; with_reducible assumption)

theorem State.modScnSt_keeps {s₀ s : State} (h : Keeps s₀ s) (st : Nat) (g : ScnSt → ScnSt) : Keeps s₀ (State.modScnSt s st g) := by
  unfold State.modScnSt
  repeat' first | with_reducible assumption | with_reducible apply State.setScnSt_keeps

theorem State.setPort_keeps {s₀ s : State} (h : Keeps s₀ s) (bl : Nat) (x : BlPort) : Keeps s₀ (State.setPort s bl x) := by
  unfold State.setPort
  try dsimp only
  repeat' first | with_reducible assumption | (with_reducible apply Keeps.upd; with_reducible assumption)

theorem State.modPort_keeps {s₀ s : State} (h : Keeps s₀ s) (bl : Nat) (g : BlPort → BlPort) : Keeps s₀ (State.modPort s bl g) := by
  unfold State.modPort
  repeat' first | with_reducible assumption | with_reducible apply State.setPort_keeps

theorem State.setExpSt_keeps {s₀ s : State} (h : Keeps s₀ s) (st : Nat) (x : ExpSt) : Keeps s₀ (State.setExpSt s st x) := by
  unfold State.setExpSt
  repeat' first | (extract_lets +onlyGivenNames z; first | (refine Keeps.cut (s₀ := s₀) z ?_ ?_; rotate_left; clear_value z; intro hz; rotate_left; subst z) | clear_value z) | with_reducible assumption | (with_reducible apply Keeps.upd; with_reducible assumption)

theorem State.scnReport_keeps {s₀ s : State} (h : Keeps s₀ s) (cls : Nat) (cause : Nat) (st : Nat) (low : Nat) : Keeps s₀ (State.scnReport s cls cause st low) := by
  unfold State.scnReport
  repeat' first | with_reducible assumption | with_reducible apply State.report_keeps | with_reducible apply State.pf_keeps

theorem State.expReport_keeps {s₀ s : State} (h : Keeps s₀ s) (cls : Nat) (cause : Nat) (st : Nat) (e : Nat) : Keeps s₀ (State.expReport s cls cause st e) := by
  unfold State.expReport
  repeat' first | with_reducible assumption | with_reducible apply State.report_keeps | with_reducible apply State.pf_keeps

theorem State.sbQueue_keeps {s₀ s : State} (h : Keeps s₀ s) (bl : Nat) (r : SbReq) : Keeps s₀ (State.sbQueue s bl r) := by
  unfold State.sbQueue
  repeat' first | (extract_lets +onlyGivenNames z; first | (refine Keeps.cut (s₀ := s₀) z ?_ ?_; rotate_left; clear_value z; intro hz; rotate_left; subst z) | clear_value z) | with_reducible assumption | with_reducible apply State.modPort_keeps | (with_reducible apply Keeps.upd; with_reducible assumption)

theorem State.queuePoll_keeps {s₀ s : State} (h : Keeps s₀ s) (bl : Nat) : Keeps s₀ (State.queuePoll s bl) := by
  unfold State.queuePoll
  repeat' first | with_reducible assumption | with_reducible apply State.sbQueue_keeps | with_reducible refine Keeps.ite ?_ ?_

theorem State.headWrite_keeps {s₀ s : State} (h : Keeps s₀ s) (st : Nat) (prio : Nat) (addr : Nat) (data : List (BitVec 32)) : Keeps s₀ (State.headWrite s st prio addr data) := by
  unfold State.headWrite
  repeat' first | (extract_lets +onlyGivenNames z; first | (refine Keeps.cut (s₀ := s₀) z ?_ ?_; rotate_left; clear_value z; intro hz; rotate_left; subst z) | clear_value z) | with_reducible assumption | with_reducible apply State.sbQueue_keeps | with_reducible refine Keeps.ite ?_ ?_ | (with_reducible apply Keeps.upd; with_reducible assumption)

theorem State.sendBdWin_keeps {s₀ s : State} (h : Keeps s₀ s) (st : Nat) : Keeps s₀ (State.sendBdWin s st) := by
  unfold State.sendBdWin
  repeat' first | with_reducible assumption | with_reducible apply State.headWrite_keeps

theorem State.sendBdWins_keeps {s₀ s : State} (h : Keeps s₀ s) : Keeps s₀ (State.sendBdWins s) := by
  unfold State.sendBdWins
  repeat' first | with_reducible assumption | with_reducible apply State.sendBdWin_keeps | (with_reducible apply Keeps.foldl; intro _ _ _)

theorem State.setPoly_keeps {s₀ s : State} (h : Keeps s₀ s) (st : Nat) (v : Nat) : Keeps s₀ (State.setPoly s st v) := by
  unfold State.setPoly
  repeat' first | (extract_lets +onlyGivenNames z; first | (refine Keeps.cut (s₀ := s₀) z ?_ ?_; rotate_left; clear_value z; intro hz; rotate_left; subst z) | clear_value z) | with_reducible assumption | with_reducible apply State.setF_keeps | with_reducible apply State.modScnSt_keeps | with_reducible apply State.pf_keeps | with_reducible apply State.sendBdWin_keeps | with_reducible refine Keeps.ite ?_ ?_ | (with_reducible apply Keeps.upd; with_reducible assumption)

theorem State.lockLoss_keeps {s₀ s : State} (h : Keeps s₀ s) (st : Nat) : Keeps s₀ (State.lockLoss s st) := by
  unfold State.lockLoss
  try dsimp only
  repeat' first | with_reducible assumption | with_reducible apply State.satInc_keeps | with_reducible apply State.setPoly_keeps | with_reducible apply State.modScnSt_keeps | with_reducible apply State.scnReport_keeps | with_reducible refine Keeps.ite ?_ ?_ | (with_reducible apply Keeps.upd; with_reducible assumption)

theorem State.setDead_keeps {s₀ s : State} (h : Keeps s₀ s) (st : Nat) (d : Nat) : Keeps s₀ (State.setDead s st d) := by
  unfold State.setDead
  repeat' first | with_reducible assumption | with_reducible apply State.hwF_keeps

theorem State.setCover_keeps {s₀ s : State} (h : Keeps s₀ s) (st : Nat) : Keeps s₀ (State.setCover s st) := by
  unfold State.setCover
  try dsimp only
  repeat' first | with_reducible assumption | with_reducible apply State.setF_keeps | with_reducible apply State.expReport_keeps | split

theorem State.coverFrom_keeps {s₀ s : State} (h : Keeps s₀ s) (st : Nat) (old : State) (hold : Keeps s₀ old) : Keeps s₀ (State.coverFrom s st old) := by
  unfold State.coverFrom
  repeat' first | with_reducible assumption | with_reducible apply State.setCover_keeps | with_reducible refine Keeps.ite ?_ ?_

theorem State.syncBdEmit_keeps {s₀ s : State} (h : Keeps s₀ s) (st : Nat) : Keeps s₀ (State.syncBdEmit s st) := by
  unfold State.syncBdEmit
  try dsimp only
  repeat' first | with_reducible assumption | with_reducible apply State.setF_keeps | with_reducible apply State.headWrite_keeps | with_reducible refine Keeps.ite ?_ ?_

theorem State.sendCur_keeps {s₀ s : State} (h : Keeps s₀ s) (st : Nat) (want : Nat → Nat) : Keeps s₀ (State.sendCur s st want) := by
  unfold State.sendCur
  extract_lets part
  have hp : ∀ (s : State) lo n, Keeps s₀ s → Keeps s₀ (part s lo n) := by
    intro s lo n h
    simp only [part]
    split
    · exact State.headWrite_keeps h _ _ _ _
    · exact h
  exact hp _ _ _ (hp _ _ _ h)

theorem State.applyMove_keeps {s₀ s : State} (h : Keeps s₀ s) (st : Nat) : Keeps s₀ (State.applyMove s st) := by
  unfold State.applyMove
  repeat' first | (extract_lets +onlyGivenNames z; first | (refine Keeps.cut (s₀ := s₀) z ?_ ?_; rotate_left; clear_value z; intro hz; rotate_left; subst z) | clear_value z) | with_reducible assumption | with_reducible apply State.setWork_keeps | with_reducible apply State.pf_keeps | with_reducible apply State.setF_keeps | with_reducible refine Keeps.ite ?_ ?_

theorem State.askMove_keeps {s₀ s : State} (h : Keeps s₀ s) (st : Nat) : Keeps s₀ (State.askMove s st) := by
  unfold State.askMove
  try dsimp only
  repeat' first | with_reducible assumption | with_reducible apply State.applyMove_keeps | with_reducible apply State.coverFrom_keeps | with_reducible apply State.modScnSt_keeps | with_reducible apply State.setB_keeps | with_reducible refine Keeps.ite ?_ ?_ | (with_reducible apply Keeps.upd; with_reducible assumption)

theorem State.deadChanged_keeps {s₀ s : State} (h : Keeps s₀ s) (st : Nat) : Keeps s₀ (State.deadChanged s st) := by
  unfold State.deadChanged
  try dsimp only
  repeat' first | with_reducible assumption | with_reducible apply State.hwF_keeps | with_reducible apply State.askMove_keeps | with_reducible apply State.syncBdEmit_keeps | with_reducible refine Keeps.ite ?_ ?_

theorem State.takeExposure_keeps {s₀ s : State} (h : Keeps s₀ s) (st : Nat) : Keeps s₀ (State.takeExposure s st) := by
  unfold State.takeExposure
  repeat' first | with_reducible assumption | with_reducible apply State.takeShadows_keeps

theorem State.setBl_keeps {s₀ s : State} (h : Keeps s₀ s) (bl : Nat) (v : Nat) : Keeps s₀ (State.setBl s bl v) := by
  unfold State.setBl
  try dsimp only
  repeat' first | with_reducible assumption | with_reducible apply State.setF_keeps | with_reducible apply State.pf_keeps | with_reducible refine Keeps.ite ?_ ?_ | split

theorem State.train_keeps {s₀ s : State} (h : Keeps s₀ s) (bl : Nat) : Keeps s₀ (State.train s bl) := by
  unfold State.train
  repeat' first | (extract_lets +onlyGivenNames z; first | (refine Keeps.cut (s₀ := s₀) z ?_ ?_; rotate_left; clear_value z; intro hz; rotate_left; subst z) | clear_value z) | with_reducible assumption | with_reducible apply State.modPort_keeps | with_reducible apply State.setBl_keeps | (with_reducible apply Keeps.upd; with_reducible assumption)

theorem State.retrain_keeps {s₀ s : State} (h : Keeps s₀ s) (bl : Nat) : Keeps s₀ (State.retrain s bl) := by
  unfold State.retrain
  repeat' first | (extract_lets +onlyGivenNames z; first | (refine Keeps.cut (s₀ := s₀) z ?_ ?_; rotate_left; clear_value z; intro hz; rotate_left; subst z) | clear_value z) | with_reducible assumption | with_reducible apply State.modPort_keeps | with_reducible apply State.train_keeps | (with_reducible apply Keeps.upd; with_reducible assumption)

theorem State.portIdleFault_keeps {s₀ s : State} (h : Keeps s₀ s) (bl : Nat) (cause : Nat) : Keeps s₀ (State.portIdleFault s bl cause) := by
  unfold State.portIdleFault
  repeat' first | with_reducible assumption | with_reducible apply State.scnReport_keeps | with_reducible apply State.retrain_keeps | split

theorem State.readHead_keeps {s₀ s : State} (h : Keeps s₀ s) (st : Nat) : Keeps s₀ (State.readHead s st) := by
  unfold State.readHead
  repeat' first | (extract_lets +onlyGivenNames z; first | (refine Keeps.cut (s₀ := s₀) z ?_ ?_; rotate_left; clear_value z; intro hz; rotate_left; subst z) | clear_value z) | with_reducible assumption | with_reducible apply State.setF_keeps | with_reducible apply State.sbQueue_keeps | (with_reducible apply Keeps.upd; with_reducible assumption)

theorem State.portUp_keeps {s₀ s : State} (h : Keeps s₀ s) (bl : Nat) : Keeps s₀ (State.portUp s bl) := by
  unfold State.portUp
  try dsimp only
  repeat' first | with_reducible assumption | with_reducible apply State.modPort_keeps | with_reducible apply State.setBl_keeps | with_reducible apply State.readHead_keeps | split | (with_reducible apply Keeps.upd; with_reducible assumption)

theorem State.linkSpoil_keeps {s₀ s : State} (h : Keeps s₀ s) (seq : Nat) (st : Nat) (bl : Nat) (cause : Nat) : Keeps s₀ (State.linkSpoil s seq st bl cause) := by
  unfold State.linkSpoil
  repeat' first | with_reducible assumption | with_reducible apply State.spoilPage_keeps | with_reducible apply State.pf_keeps

theorem State.pollDone_keeps {s₀ s : State} (h : Keeps s₀ s) (bl : Nat) (status : BitVec 32) (err : BitVec 32) : Keeps s₀ (State.pollDone s bl status err) := by
  unfold State.pollDone
  repeat' first | (extract_lets +onlyGivenNames z; first | (refine Keeps.cut (s₀ := s₀) z ?_ ?_; rotate_left; clear_value z; intro hz; rotate_left; subst z) | clear_value z) | with_reducible assumption | with_reducible apply State.setF_keeps | with_reducible apply State.setPort_keeps | with_reducible apply State.portUp_keeps | with_reducible apply State.satInc_keeps | with_reducible apply State.linkSpoil_keeps | with_reducible apply State.modPort_keeps | with_reducible apply State.portIdleFault_keeps | with_reducible refine Keeps.ite ?_ ?_ | split | (with_reducible apply Keeps.upd; with_reducible assumption)

theorem State.identify_keeps {s₀ s : State} (h : Keeps s₀ s) (st : Nat) (words : List (BitVec 32)) : Keeps s₀ (State.identify s st words) := by
  unfold State.identify
  repeat' first | (extract_lets +onlyGivenNames z; first | (refine Keeps.cut (s₀ := s₀) z ?_ ?_; rotate_left; clear_value z; intro hz; rotate_left; subst z) | clear_value z) | with_reducible assumption | with_reducible apply State.setF_keeps | with_reducible apply State.expReport_keeps | with_reducible apply State.pf_keeps | with_reducible apply State.raise_keeps | with_reducible apply State.setDead_keeps | with_reducible apply State.deadChanged_keeps | with_reducible apply State.headWrite_keeps | with_reducible apply State.sendBdWin_keeps | with_reducible apply State.takeExposure_keeps | with_reducible apply State.coverFrom_keeps | (with_reducible apply Keeps.foldl; intro _ _ _) | with_reducible refine Keeps.ite ?_ ?_

theorem State.monitorWord_keeps {s₀ s : State} (h : Keeps s₀ s) (st : Nat) (e : Nat) (w : BitVec 32) : Keeps s₀ (State.monitorWord s st e w) := by
  unfold State.monitorWord
  repeat' first | (extract_lets +onlyGivenNames z; first | (refine Keeps.cut (s₀ := s₀) z ?_ ?_; rotate_left; clear_value z; intro hz; rotate_left; subst z) | clear_value z) | with_reducible assumption | with_reducible apply State.setB_keeps | with_reducible apply State.setF_keeps | with_reducible apply State.setExpSt_keeps | with_reducible apply State.drew_keeps | with_reducible apply State.satInc_keeps | with_reducible apply State.expReport_keeps | with_reducible apply State.setDead_keeps | with_reducible apply State.deadChanged_keeps | with_reducible refine Keeps.ite ?_ ?_ | (with_reducible apply Keeps.upd; with_reducible assumption)

theorem State.headStatus_keeps {s₀ s : State} (h : Keeps s₀ s) (st : Nat) (w : BitVec 32) : Keeps s₀ (State.headStatus s st w) := by
  unfold State.headStatus
  try dsimp only
  repeat' first | with_reducible assumption | with_reducible apply State.setB_keeps | with_reducible apply State.setF_keeps | with_reducible apply State.expReport_keeps | with_reducible refine Keeps.ite ?_ ?_

theorem State.readDone_keeps {s₀ s : State} (h : Keeps s₀ s) (bl : Nat) (r : SbReq) (ws : List (BitVec 32)) : Keeps s₀ (State.readDone s bl r ws) := by
  unfold State.readDone
  try dsimp only
  repeat' first | with_reducible assumption | with_reducible apply State.pollDone_keeps | with_reducible apply State.headStatus_keeps | with_reducible apply State.setExpSt_keeps | with_reducible apply State.identify_keeps | with_reducible apply State.monitorWord_keeps | with_reducible apply State.sendCur_keeps | (with_reducible apply Keeps.foldl; intro _ _ _) | with_reducible refine Keeps.ite ?_ ?_ | split | (with_reducible apply Keeps.upd; with_reducible assumption)

theorem State.noteSent_keeps {s₀ s : State} (h : Keeps s₀ s) (bl : Nat) (r : SbReq) : Keeps s₀ (State.noteSent s bl r) := by
  unfold State.noteSent
  repeat' first | with_reducible assumption | with_reducible apply State.setF_keeps | (with_reducible apply Keeps.foldl; intro _ _ _) | with_reducible refine Keeps.ite ?_ ?_ | split

theorem State.sbFailed_keeps {s₀ s : State} (h : Keeps s₀ s) (bl : Nat) : Keeps s₀ (State.sbFailed s bl) := by
  unfold State.sbFailed
  repeat' first | (extract_lets +onlyGivenNames z; first | (refine Keeps.cut (s₀ := s₀) z ?_ ?_; rotate_left; clear_value z; intro hz; rotate_left; subst z) | clear_value z) | with_reducible assumption | with_reducible apply State.setPort_keeps | with_reducible apply State.satInc_keeps | with_reducible apply State.emit_keeps | with_reducible apply State.setF_keeps | with_reducible apply State.scnReport_keeps | with_reducible apply State.report_keeps | with_reducible apply State.retrain_keeps | with_reducible apply State.train_keeps | with_reducible refine Keeps.ite ?_ ?_ | split | (with_reducible apply Keeps.upd; with_reducible assumption)

theorem State.syncTaps_keeps {s₀ s : State} (h : Keeps s₀ s) (st : Nat) : Keeps s₀ (State.syncTaps s st) := by
  unfold State.syncTaps
  try dsimp only
  repeat' first | with_reducible assumption | with_reducible apply State.setB_keeps | with_reducible apply State.setF_keeps | with_reducible refine Keeps.ite ?_ ?_

theorem State.stepTaps_keeps {s₀ s : State} (h : Keeps s₀ s) (st : Nat) : Keeps s₀ (State.stepTaps s st) := by
  unfold State.stepTaps
  try dsimp only
  repeat' first | with_reducible assumption | with_reducible apply State.setF_keeps | with_reducible apply State.syncTaps_keeps | (with_reducible apply Keeps.foldl; intro _ _ _) | with_reducible refine Keeps.ite ?_ ?_

theorem State.scaleTaps_keeps {s₀ s : State} (h : Keeps s₀ s) (old : Nat) (new : Nat) : Keeps s₀ (State.scaleTaps s old new) := by
  unfold State.scaleTaps
  repeat' first | with_reducible assumption | with_reducible apply State.setF_keeps | with_reducible apply State.syncTaps_keeps | (with_reducible apply Keeps.foldl; intro _ _ _)

end Sys2Proof.Machine
end

