-- ==== Sys2Proof/Laws/KeepLoopBase.lean ====
section
/-! SUPPORT. What the operations of Machine/LoopBase.lean keep (Laws/Keep.lean). -/
namespace Sys2Proof.Machine
set_option Elab.async false
set_option linter.all false

theorem State.setLoop_keeps {s₀ s : State} (h : Keeps s₀ s) (lp : Nat) (x : Loop) : Keeps s₀ (State.setLoop s lp x) := by
  unfold State.setLoop
  try dsimp only
  repeat' first | with_reducible assumption | (with_reducible apply Keeps.upd; with_reducible assumption)

theorem State.modLoop_keeps {s₀ s : State} (h : Keeps s₀ s) (lp : Nat) (g : Loop → Loop) : Keeps s₀ (State.modLoop s lp g) := by
  unfold State.modLoop
  repeat' first | with_reducible assumption | with_reducible apply State.setLoop_keeps

theorem State.setEncIn_keeps {s₀ s : State} (h : Keeps s₀ s) (n : Nat) (x : EncIn) : Keeps s₀ (State.setEncIn s n x) := by
  unfold State.setEncIn
  try dsimp only
  repeat' first | with_reducible assumption | (with_reducible apply Keeps.upd; with_reducible assumption)

theorem State.putOut_keeps {s₀ s : State} (h : Keeps s₀ s) (p : Nat) (node : Nat) (b : Nat) (bs : List Byte) : Keeps s₀ (State.putOut s p node b bs) := by
  unfold State.putOut
  try dsimp only
  repeat' first | with_reducible assumption | with_reducible apply State.setF_keeps | (with_reducible apply Keeps.foldl; intro _ _ _)

theorem State.setLatPort_keeps {s₀ s : State} (h : Keeps s₀ s) (p : Nat) (x : LatPort) : Keeps s₀ (State.setLatPort s p x) := by
  unfold State.setLatPort
  try dsimp only
  repeat' first | with_reducible assumption | (with_reducible apply Keeps.upd; with_reducible assumption)

theorem State.modLatPort_keeps {s₀ s : State} (h : Keeps s₀ s) (p : Nat) (g : LatPort → LatPort) : Keeps s₀ (State.modLatPort s p g) := by
  unfold State.modLatPort
  repeat' first | with_reducible assumption | with_reducible apply State.setLatPort_keeps

theorem State.askSpeed_keeps {s₀ s : State} (h : Keeps s₀ s) (v : Nat) : Keeps s₀ (State.askSpeed s v) := by
  unfold State.askSpeed
  try dsimp only
  repeat' first | with_reducible assumption | (with_reducible apply Keeps.upd; with_reducible assumption)

theorem State.syncSpeed_keeps {s₀ s : State} (h : Keeps s₀ s) : Keeps s₀ (State.syncSpeed s) := by
  unfold State.syncSpeed
  try dsimp only
  repeat' first | with_reducible assumption | with_reducible apply State.setF_keeps | split

end Sys2Proof.Machine
end

