-- ==== Sys2Proof/Laws/KeepMotOps.lean ====
section
/-! SUPPORT. What the operations of Machine/MotOps.lean keep (Laws/Keep.lean). -/
namespace Sys2Proof.Machine
set_option Elab.async false
set_option linter.all false

theorem State.setAxis_keeps {s₀ s : State} (h : Keeps s₀ s) (ax : Nat) (x : Axis) : Keeps s₀ (State.setAxis s ax x) := by
  unfold State.setAxis
  repeat' first | (extract_lets +onlyGivenNames z; first | (refine Keeps.cut (s₀ := s₀) z ?_ ?_; rotate_left; clear_value z; intro hz; rotate_left; subst z) | clear_value z) | with_reducible assumption | (with_reducible apply Keeps.upd; with_reducible assumption)

theorem State.modAxis_keeps {s₀ s : State} (h : Keeps s₀ s) (ax : Nat) (g : Axis → Axis) : Keeps s₀ (State.modAxis s ax g) := by
  unfold State.modAxis
  repeat' first | with_reducible assumption | with_reducible apply State.setAxis_keeps

theorem State.setI32_keeps {s₀ s : State} (h : Keeps s₀ s) (off : Nat) (v : Int) : Keeps s₀ (State.setI32 s off v) := by
  unfold State.setI32
  repeat' first | with_reducible assumption | with_reducible apply State.setWord_keeps

theorem State.axTo_keeps {s₀ s : State} (h : Keeps s₀ s) (ax : Nat) (v : Nat) : Keeps s₀ (State.axTo s ax v) := by
  unfold State.axTo
  try dsimp only
  repeat' first | with_reducible assumption | with_reducible apply State.setF_keeps

theorem State.axShowEnc_keeps {s₀ s : State} (h : Keeps s₀ s) (ax : Nat) : Keeps s₀ (State.axShowEnc s ax) := by
  unfold State.axShowEnc
  repeat' first | with_reducible assumption | with_reducible apply State.setI32_keeps | with_reducible refine Keeps.ite ?_ ?_

theorem State.axSync_keeps {s₀ s : State} (h : Keeps s₀ s) (ax : Nat) : Keeps s₀ (State.axSync s ax) := by
  unfold State.axSync
  repeat' first | (extract_lets +onlyGivenNames z; first | (refine Keeps.cut (s₀ := s₀) z ?_ ?_; rotate_left; clear_value z; intro hz; rotate_left; subst z) | clear_value z) | with_reducible assumption | with_reducible apply State.modAxis_keeps | with_reducible apply State.axShowEnc_keeps | (with_reducible apply Keeps.upd; with_reducible assumption)

theorem State.setPhase_keeps {s₀ s : State} (h : Keeps s₀ s) (ax : Nat) (ph : Nat) (p : Phase) : Keeps s₀ (State.setPhase s ax ph p) := by
  unfold State.setPhase
  repeat' first | (extract_lets +onlyGivenNames z; first | (refine Keeps.cut (s₀ := s₀) z ?_ ?_; rotate_left; clear_value z; intro hz; rotate_left; subst z) | clear_value z) | with_reducible assumption | with_reducible apply State.modAxis_keeps | with_reducible refine Keeps.ite ?_ ?_ | (with_reducible apply Keeps.upd; with_reducible assumption)

theorem State.gates_keeps {s₀ s : State} (h : Keeps s₀ s) (ax : Nat) (ph : Nat) (g : Nat) : Keeps s₀ (State.gates s ax ph g) := by
  unfold State.gates
  try dsimp only
  repeat' first | with_reducible assumption | with_reducible apply State.emit_keeps | with_reducible apply State.setPhase_keeps | with_reducible refine Keeps.ite ?_ ?_ | (with_reducible apply Keeps.upd; with_reducible assumption)

theorem State.startDrive_keeps {s₀ s : State} (h : Keeps s₀ s) (ax : Nat) (ph : Nat) : Keeps s₀ (State.startDrive s ax ph) := by
  unfold State.startDrive
  try dsimp only
  repeat' first | with_reducible assumption | with_reducible apply State.gates_keeps | with_reducible apply State.setPhase_keeps | (with_reducible apply Keeps.upd; with_reducible assumption)

theorem State.startDecay_keeps {s₀ s : State} (h : Keeps s₀ s) (ax : Nat) (ph : Nat) : Keeps s₀ (State.startDecay s ax ph) := by
  unfold State.startDecay
  try dsimp only
  repeat' first | with_reducible assumption | with_reducible apply State.gates_keeps | with_reducible apply State.setPhase_keeps | with_reducible refine Keeps.ite ?_ ?_ | (with_reducible apply Keeps.upd; with_reducible assumption)

theorem State.setCode_keeps {s₀ s : State} (h : Keeps s₀ s) (ax : Nat) (ph : Nat) : Keeps s₀ (State.setCode s ax ph) := by
  unfold State.setCode
  try dsimp only
  repeat' first | with_reducible assumption | with_reducible apply State.setPhase_keeps | with_reducible apply State.gates_keeps | with_reducible apply State.startDrive_keeps | with_reducible refine Keeps.ite ?_ ?_ | (with_reducible apply Keeps.upd; with_reducible assumption)

theorem State.setCodes_keeps {s₀ s : State} (h : Keeps s₀ s) (ax : Nat) : Keeps s₀ (State.setCodes s ax) := by
  unfold State.setCodes
  repeat' first | with_reducible assumption | with_reducible apply State.setCode_keeps

theorem State.bridges_keeps {s₀ s : State} (h : Keeps s₀ s) (ax : Nat) (off : Bool) (run : Bool) : Keeps s₀ (State.bridges s ax off run) := by
  unfold State.bridges
  repeat' first | (extract_lets +onlyGivenNames z; first | (refine Keeps.cut (s₀ := s₀) z ?_ ?_; rotate_left; clear_value z; intro hz; rotate_left; subst z) | clear_value z) | with_reducible assumption | with_reducible apply State.modAxis_keeps | with_reducible apply State.setCodes_keeps | (with_reducible apply Keeps.upd; with_reducible assumption)

theorem State.axVec_keeps {s₀ s : State} (h : Keeps s₀ s) (ax : Nat) : Keeps s₀ (State.axVec s ax) := by
  unfold State.axVec
  repeat' first | with_reducible assumption | with_reducible apply State.pf_keeps

theorem State.unhold_keeps {s₀ s : State} (h : Keeps s₀ s) (ax : Nat) : Keeps s₀ (State.unhold s ax) := by
  unfold State.unhold
  repeat' first | (extract_lets +onlyGivenNames z; first | (refine Keeps.cut (s₀ := s₀) z ?_ ?_; rotate_left; clear_value z; intro hz; rotate_left; subst z) | clear_value z) | with_reducible assumption | with_reducible apply State.modAxis_keeps | with_reducible apply State.setF_keeps | (with_reducible apply Keeps.upd; with_reducible assumption)

theorem State.axSleep_keeps {s₀ s : State} (h : Keeps s₀ s) (ax : Nat) : Keeps s₀ (State.axSleep s ax) := by
  unfold State.axSleep
  try dsimp only
  repeat' first | with_reducible assumption | with_reducible apply State.modAxis_keeps | with_reducible apply State.settle_keeps | with_reducible apply State.unhold_keeps | with_reducible apply State.axTo_keeps | with_reducible apply State.setF_keeps | with_reducible apply State.bridges_keeps | (with_reducible apply Keeps.upd; with_reducible assumption)

theorem State.axDone_keeps {s₀ s : State} (h : Keeps s₀ s) (ax : Nat) : Keeps s₀ (State.axDone s ax) := by
  unfold State.axDone
  repeat' first | (extract_lets +onlyGivenNames z; first | (refine Keeps.cut (s₀ := s₀) z ?_ ?_; rotate_left; clear_value z; intro hz; rotate_left; subst z) | clear_value z) | with_reducible assumption | with_reducible apply State.modAxis_keeps | with_reducible apply State.axTo_keeps | with_reducible apply State.setI32_keeps | with_reducible apply State.event_keeps | with_reducible apply State.axVec_keeps | with_reducible apply State.axSleep_keeps | with_reducible refine Keeps.ite ?_ ?_

theorem State.axRest_keeps {s₀ s : State} (h : Keeps s₀ s) (ax : Nat) (atLimit : Bool) : Keeps s₀ (State.axRest s ax atLimit) := by
  unfold State.axRest
  repeat' first | (extract_lets +onlyGivenNames z; first | (refine Keeps.cut (s₀ := s₀) z ?_ ?_; rotate_left; clear_value z; intro hz; rotate_left; subst z) | clear_value z) | with_reducible assumption | with_reducible apply State.modAxis_keeps | with_reducible apply State.axTo_keeps | with_reducible apply State.setI32_keeps | with_reducible apply State.setB_keeps | with_reducible apply State.event_keeps | with_reducible apply State.axVec_keeps | with_reducible apply State.axSleep_keeps | with_reducible refine Keeps.ite ?_ ?_

theorem State.axFault_keeps {s₀ s : State} (h : Keeps s₀ s) (ax : Nat) (code : Nat) : Keeps s₀ (State.axFault s ax code) := by
  unfold State.axFault
  repeat' first | (extract_lets +onlyGivenNames z; first | (refine Keeps.cut (s₀ := s₀) z ?_ ?_; rotate_left; clear_value z; intro hz; rotate_left; subst z) | clear_value z) | with_reducible assumption | with_reducible apply State.modAxis_keeps | with_reducible apply State.unhold_keeps | with_reducible apply State.axTo_keeps | with_reducible apply State.setI32_keeps | with_reducible apply State.setF_keeps | with_reducible apply State.bridges_keeps | with_reducible apply State.report_keeps | with_reducible apply State.event_keeps | with_reducible apply State.axVec_keeps | with_reducible refine Keeps.ite ?_ ?_ | (with_reducible apply Keeps.upd; with_reducible assumption)

theorem State.axStart_keeps {s₀ s : State} (h : Keeps s₀ s) (ax : Nat) (jog : Int) (t : Int) : Keeps s₀ (State.axStart s ax jog t) := by
  unfold State.axStart
  repeat' first | (extract_lets +onlyGivenNames z; first | (refine Keeps.cut (s₀ := s₀) z ?_ ?_; rotate_left; clear_value z; intro hz; rotate_left; subst z) | clear_value z) | with_reducible assumption | with_reducible apply State.settle_keeps | with_reducible apply State.setAxis_keeps | with_reducible apply State.setI32_keeps | with_reducible apply State.setB_keeps | with_reducible apply State.setF_keeps | with_reducible apply State.axTo_keeps | with_reducible apply State.bridges_keeps | with_reducible apply State.axDone_keeps | with_reducible refine Keeps.ite ?_ ?_ | (with_reducible apply Keeps.upd; with_reducible assumption)

theorem State.axStopSteps_keeps {s₀ s : State} (h : Keeps s₀ s) (x : Axis) (dec : Nat) : Keeps s₀ (State.axStopSteps s x dec).2 := by
  unfold State.axStopSteps
  try dsimp only
  repeat' first | with_reducible assumption | with_reducible apply State.drew_keeps | with_reducible refine Keeps.ite ?_ ?_ | with_reducible refine Keeps.ite_snd ?_ ?_ | with_reducible refine Keeps.ite_fst ?_ ?_ | split | dsimp only

theorem State.axReplan_keeps {s₀ s : State} (h : Keeps s₀ s) (ax : Nat) (t : Int) : Keeps s₀ (State.axReplan s ax t) := by
  unfold State.axReplan
  repeat' first | (extract_lets +onlyGivenNames z; first | (refine Keeps.cut (s₀ := s₀) z ?_ ?_; rotate_left; clear_value z; intro hz; rotate_left; subst z) | (refine Keeps.cut (s₀ := s₀) (z : _ × State).2 ?_ ?_; rotate_left; clear_value z; intro hz; rotate_left; subst z) | (refine Keeps.cut (s₀ := s₀) (z : State × _).1 ?_ ?_; rotate_left; clear_value z; intro hz; rotate_left; subst z) | (refine Keeps.cut (s₀ := s₀) (z : _ × _ × State).2.2 ?_ ?_; rotate_left; clear_value z; intro hz; rotate_left; subst z) | clear_value z) | with_reducible assumption | with_reducible apply State.axStopSteps_keeps | with_reducible apply State.setAxis_keeps | with_reducible apply State.setI32_keeps | with_reducible apply State.setF_keeps | with_reducible apply State.axStart_keeps | with_reducible apply State.axDone_keeps | (refine Keeps.of_snd ?_ (by assumption)) | with_reducible refine Keeps.ite ?_ ?_ | with_reducible refine Keeps.ite_snd ?_ ?_ | with_reducible refine Keeps.ite_fst ?_ ?_ | split | (with_reducible apply Keeps.upd; first | with_reducible assumption | with_reducible apply State.axStopSteps_keeps | with_reducible apply State.setAxis_keeps | with_reducible apply State.setI32_keeps | with_reducible apply State.setF_keeps | with_reducible apply State.axStart_keeps | with_reducible apply State.axDone_keeps) | dsimp only

theorem State.axSpeed_keeps {s₀ s : State} (h : Keeps s₀ s) (x : Axis) (left : Nat) : Keeps s₀ (State.axSpeed s x left).2 := by
  unfold State.axSpeed
  try dsimp only
  repeat' first | with_reducible assumption | with_reducible apply State.drew_keeps | with_reducible refine Keeps.ite ?_ ?_ | with_reducible refine Keeps.ite_snd ?_ ?_ | with_reducible refine Keeps.ite_fst ?_ ?_ | split | dsimp only

theorem State.axBeginStop_keeps {s₀ s : State} (h : Keeps s₀ s) (ax : Nat) (dec : Nat) : Keeps s₀ (State.axBeginStop s ax dec) := by
  unfold State.axBeginStop
  repeat' first | (extract_lets +onlyGivenNames z; first | (refine Keeps.cut (s₀ := s₀) z ?_ ?_; rotate_left; clear_value z; intro hz; rotate_left; subst z) | (refine Keeps.cut (s₀ := s₀) (z : _ × State).2 ?_ ?_; rotate_left; clear_value z; intro hz; rotate_left; subst z) | (refine Keeps.cut (s₀ := s₀) (z : State × _).1 ?_ ?_; rotate_left; clear_value z; intro hz; rotate_left; subst z) | (refine Keeps.cut (s₀ := s₀) (z : _ × _ × State).2.2 ?_ ?_; rotate_left; clear_value z; intro hz; rotate_left; subst z) | clear_value z) | with_reducible assumption | with_reducible apply State.axStopSteps_keeps | with_reducible apply State.setAxis_keeps | with_reducible apply State.axTo_keeps | with_reducible apply State.axRest_keeps | (refine Keeps.of_snd ?_ (by assumption)) | with_reducible refine Keeps.ite ?_ ?_ | with_reducible refine Keeps.ite_snd ?_ ?_ | with_reducible refine Keeps.ite_fst ?_ ?_ | split | (with_reducible apply Keeps.upd; first | with_reducible assumption | with_reducible apply State.axStopSteps_keeps | with_reducible apply State.setAxis_keeps | with_reducible apply State.axTo_keeps | with_reducible apply State.axRest_keeps) | dsimp only

theorem State.axStepEvent_keeps {s₀ s : State} (h : Keeps s₀ s) (ax : Nat) : Keeps s₀ (State.axStepEvent s ax) := by
  unfold State.axStepEvent
  repeat' first | (extract_lets +onlyGivenNames z; first | (refine Keeps.cut (s₀ := s₀) z ?_ ?_; rotate_left; clear_value z; intro hz; rotate_left; subst z) | (refine Keeps.cut (s₀ := s₀) (z : _ × State).2 ?_ ?_; rotate_left; clear_value z; intro hz; rotate_left; subst z) | (refine Keeps.cut (s₀ := s₀) (z : State × _).1 ?_ ?_; rotate_left; clear_value z; intro hz; rotate_left; subst z) | (refine Keeps.cut (s₀ := s₀) (z : _ × _ × State).2.2 ?_ ?_; rotate_left; clear_value z; intro hz; rotate_left; subst z) | clear_value z) | with_reducible assumption | with_reducible apply State.axSpeed_keeps | with_reducible apply State.setAxis_keeps | with_reducible apply State.setI32_keeps | with_reducible apply State.event_keeps | with_reducible apply State.axShowEnc_keeps | with_reducible apply State.setCodes_keeps | with_reducible apply State.axRest_keeps | with_reducible apply State.axStart_keeps | with_reducible apply State.axDone_keeps | with_reducible apply State.axBeginStop_keeps | (refine Keeps.of_snd ?_ (by assumption)) | with_reducible refine Keeps.ite ?_ ?_ | with_reducible refine Keeps.ite_snd ?_ ?_ | with_reducible refine Keeps.ite_fst ?_ ?_ | split | (with_reducible apply Keeps.upd; first | with_reducible assumption | with_reducible apply State.axSpeed_keeps | with_reducible apply State.setAxis_keeps | with_reducible apply State.setI32_keeps | with_reducible apply State.event_keeps | with_reducible apply State.axShowEnc_keeps | with_reducible apply State.setCodes_keeps | with_reducible apply State.axRest_keeps | with_reducible apply State.axStart_keeps | with_reducible apply State.axDone_keeps | with_reducible apply State.axBeginStop_keeps) | dsimp only

theorem State.axAskStop_keeps {s₀ s : State} (h : Keeps s₀ s) (ax : Nat) (dec : Nat) : Keeps s₀ (State.axAskStop s ax dec) := by
  unfold State.axAskStop
  try dsimp only
  repeat' first | with_reducible assumption | with_reducible apply State.unhold_keeps | with_reducible apply State.modAxis_keeps | with_reducible apply State.axTo_keeps | with_reducible refine Keeps.ite ?_ ?_ | (with_reducible apply Keeps.upd; with_reducible assumption)

theorem State.axesStop_keeps {s₀ s : State} (h : Keeps s₀ s) (cls : Nat) : Keeps s₀ (State.axesStop s cls) := by
  unfold State.axesStop
  repeat' first | (extract_lets +onlyGivenNames z; first | (refine Keeps.cut (s₀ := s₀) z ?_ ?_; rotate_left; clear_value z; intro hz; rotate_left; subst z) | clear_value z) | with_reducible assumption | with_reducible apply State.axAskStop_keeps | with_reducible apply State.unhold_keeps | with_reducible apply State.axRest_keeps | with_reducible apply State.bridges_keeps | (with_reducible apply Keeps.foldl; intro _ _ _) | with_reducible refine Keeps.ite ?_ ?_

theorem State.axesSleep_keeps {s₀ s : State} (h : Keeps s₀ s) : Keeps s₀ (State.axesSleep s) := by
  unfold State.axesSleep
  repeat' first | (extract_lets +onlyGivenNames z; first | (refine Keeps.cut (s₀ := s₀) z ?_ ?_; rotate_left; clear_value z; intro hz; rotate_left; subst z) | clear_value z) | with_reducible assumption | with_reducible apply State.axAskStop_keeps | with_reducible apply State.modAxis_keeps | with_reducible apply State.axSleep_keeps | (with_reducible apply Keeps.foldl; intro _ _ _) | with_reducible refine Keeps.ite ?_ ?_ | (with_reducible apply Keeps.upd; with_reducible assumption)

end Sys2Proof.Machine
end

