-- ==== Sys2Proof/Laws/KeepAxes.lean ====
section
/-! SUPPORT. What the operations of Machine/Axes.lean keep (Laws/Keep.lean). -/
namespace Sys2Proof.Machine
set_option Elab.async false
set_option linter.all false

theorem State.axRefuse_keeps {s₀ s : State} (h : Keeps s₀ s) (ax : Nat) (code : Nat) : Keeps s₀ (State.axRefuse s ax code) := by
  unfold State.axRefuse
  repeat' first | with_reducible assumption | with_reducible apply State.raise_keeps | with_reducible apply State.setF_keeps | with_reducible apply State.axVec_keeps

theorem State.axGuard_keeps {s₀ s t : State} {ax : Nat} {cmd : Nat} {pass : Bool} (h : Keeps s₀ s) (e : State.axGuard s ax cmd pass = some t) : Keeps s₀ t := by
  unfold State.axGuard at e
  repeat' first | (split at e) | (simp only [Option.some.injEq] at e) | (simp only [reduceCtorEq] at e) | subst e
  all_goals (repeat' first | (extract_lets +onlyGivenNames z; first | (refine Keeps.cut (s₀ := s₀) z ?_ ?_; rotate_left; clear_value z; intro hz; rotate_left; subst z) | clear_value z) | with_reducible assumption | with_reducible apply State.darkWrite_keeps | with_reducible apply State.axRefuse_keeps | with_reducible refine Keeps.ite ?_ ?_ | (simp only [Option.some.injEq, reduceCtorEq] at e))

theorem State.axHold_keeps {s₀ s : State} (h : Keeps s₀ s) (ax : Nat) (h : Held) : Keeps s₀ (State.axHold s ax h) := by
  unfold State.axHold
  repeat' first | (extract_lets +onlyGivenNames z; first | (refine Keeps.cut (s₀ := s₀) z ?_ ?_; rotate_left; clear_value z; intro hz; rotate_left; subst z) | clear_value z) | with_reducible assumption | with_reducible apply State.modAxis_keeps | with_reducible apply State.setF_keeps | (with_reducible apply Keeps.upd; with_reducible assumption)

theorem State.axMove_keeps {s₀ s : State} (h : Keeps s₀ s) (ax : Nat) (t : Int) (arm : Bool) : Keeps s₀ (State.axMove s ax t arm) := by
  unfold State.axMove
  repeat' first | with_reducible assumption | with_reducible apply State.axRefuse_keeps | with_reducible apply State.axHold_keeps | with_reducible apply State.axReplan_keeps | with_reducible apply State.axStart_keeps | with_reducible refine Keeps.ite ?_ ?_

theorem State.axJog_keeps {s₀ s : State} (h : Keeps s₀ s) (ax : Nat) (dir : Int) (arm : Bool) : Keeps s₀ (State.axJog s ax dir arm) := by
  unfold State.axJog
  repeat' first | with_reducible assumption | with_reducible apply State.axRefuse_keeps | with_reducible apply State.axHold_keeps | with_reducible apply State.axStart_keeps | with_reducible refine Keeps.ite ?_ ?_

theorem State.axDo_keeps {s₀ s : State} (h : Keeps s₀ s) (ax : Nat) (cmd : Nat) (pass : Bool) (g : State → State) (hg : ∀ t, Keeps s₀ t → Keeps s₀ (g t)) : KeepsAns s₀ (State.axDo s ax cmd pass g) := by
  unfold State.axDo
  repeat' first | with_reducible assumption | with_reducible apply KeepsAns.next | with_reducible apply hg | (refine State.axGuard_keeps ?_ (by assumption)) | with_reducible apply State.axRefuse_keeps | with_reducible apply State.mark_keeps | with_reducible refine KeepsAns.ite ?_ ?_ | with_reducible refine Keeps.ite ?_ ?_ | split

theorem execAxEnable_keeps {s₀ s : State} (h : Keeps s₀ s) (ax : Nat) : KeepsAns s₀ (execAxEnable ax s) := by
  unfold execAxEnable
  repeat' first | (extract_lets +onlyGivenNames z; first | (refine Keeps.cut (s₀ := s₀) z ?_ ?_; rotate_left; clear_value z; intro hz; rotate_left; subst z) | clear_value z) | with_reducible assumption | with_reducible apply KeepsAns.next | with_reducible apply State.axDo_keeps | with_reducible apply State.axRefuse_keeps | with_reducible apply State.modAxis_keeps | with_reducible refine KeepsAns.ite ?_ ?_ | with_reducible refine Keeps.ite ?_ ?_ | (with_reducible apply Keeps.upd; with_reducible assumption) | intro _ _

theorem execAxEnableComplete_keeps {s₀ s : State} (h : Keeps s₀ s) (ax : Nat) (ta : List Nat) (tb : List Nat) : KeepsAns s₀ (execAxEnableComplete ax ta tb s) := by
  unfold execAxEnableComplete
  repeat' first | (extract_lets +onlyGivenNames z; first | (refine Keeps.cut (s₀ := s₀) z ?_ ?_; rotate_left; clear_value z; intro hz; rotate_left; subst z) | clear_value z) | with_reducible assumption | with_reducible apply KeepsAns.next | with_reducible apply State.setF_keeps | with_reducible apply State.modAxis_keeps | with_reducible apply State.axTo_keeps | with_reducible apply State.bridges_keeps | with_reducible apply State.axSync_keeps | with_reducible refine KeepsAns.ite ?_ ?_ | with_reducible refine Keeps.ite ?_ ?_ | (with_reducible apply Keeps.upd; with_reducible assumption)

theorem execAxDisable_keeps {s₀ s : State} (h : Keeps s₀ s) (ax : Nat) : KeepsAns s₀ (execAxDisable ax s) := by
  unfold execAxDisable
  repeat' first | with_reducible assumption | with_reducible apply KeepsAns.next | with_reducible apply State.axDo_keeps | with_reducible apply State.axRefuse_keeps | with_reducible apply State.axTo_keeps | with_reducible apply State.setI32_keeps | with_reducible apply State.bridges_keeps | with_reducible refine KeepsAns.ite ?_ ?_ | with_reducible refine Keeps.ite ?_ ?_ | intro _ _

theorem execAxMoveAbs_keeps {s₀ s : State} (h : Keeps s₀ s) (ax : Nat) (arm : Bool) : KeepsAns s₀ (execAxMoveAbs ax arm s) := by
  unfold execAxMoveAbs
  repeat' first | with_reducible assumption | with_reducible apply KeepsAns.next | with_reducible apply State.axDo_keeps | with_reducible apply State.axMove_keeps | intro _ _

theorem execAxMoveRel_keeps {s₀ s : State} (h : Keeps s₀ s) (ax : Nat) (arm : Bool) : KeepsAns s₀ (execAxMoveRel ax arm s) := by
  unfold execAxMoveRel
  try dsimp only
  repeat' first | with_reducible assumption | with_reducible apply KeepsAns.next | with_reducible apply State.axDo_keeps | with_reducible apply State.axMove_keeps | with_reducible refine KeepsAns.ite ?_ ?_ | with_reducible refine Keeps.ite ?_ ?_ | intro _ _

theorem execAxJogPos_keeps {s₀ s : State} (h : Keeps s₀ s) (ax : Nat) (arm : Bool) : KeepsAns s₀ (execAxJogPos ax arm s) := by
  unfold execAxJogPos
  repeat' first | with_reducible assumption | with_reducible apply KeepsAns.next | with_reducible apply State.axDo_keeps | with_reducible apply State.axJog_keeps | intro _ _

theorem execAxJogNeg_keeps {s₀ s : State} (h : Keeps s₀ s) (ax : Nat) (arm : Bool) : KeepsAns s₀ (execAxJogNeg ax arm s) := by
  unfold execAxJogNeg
  repeat' first | with_reducible assumption | with_reducible apply KeepsAns.next | with_reducible apply State.axDo_keeps | with_reducible apply State.axJog_keeps | intro _ _

theorem State.axStopCmd_keeps {s₀ s : State} (h : Keeps s₀ s) (ax : Nat) : Keeps s₀ (State.axStopCmd s ax) := by
  unfold State.axStopCmd
  repeat' first | with_reducible assumption | with_reducible apply State.axRefuse_keeps | with_reducible apply State.axAskStop_keeps | with_reducible refine Keeps.ite ?_ ?_

theorem State.axQstopCmd_keeps {s₀ s : State} (h : Keeps s₀ s) (ax : Nat) : Keeps s₀ (State.axQstopCmd s ax) := by
  unfold State.axQstopCmd
  repeat' first | with_reducible assumption | with_reducible apply State.axRefuse_keeps | with_reducible apply State.axAskStop_keeps | with_reducible refine Keeps.ite ?_ ?_

theorem execAxStop_keeps {s₀ s : State} (h : Keeps s₀ s) (ax : Nat) : KeepsAns s₀ (execAxStop ax s) := by
  unfold execAxStop
  repeat' first | with_reducible assumption | with_reducible apply KeepsAns.next | with_reducible apply State.axDo_keeps | with_reducible apply State.axStopCmd_keeps | intro _ _

theorem execAxQstop_keeps {s₀ s : State} (h : Keeps s₀ s) (ax : Nat) : KeepsAns s₀ (execAxQstop ax s) := by
  unfold execAxQstop
  repeat' first | with_reducible assumption | with_reducible apply KeepsAns.next | with_reducible apply State.axDo_keeps | with_reducible apply State.axQstopCmd_keeps | intro _ _

theorem execAxResume_keeps {s₀ s : State} (h : Keeps s₀ s) (ax : Nat) (arm : Bool) : KeepsAns s₀ (execAxResume ax arm s) := by
  unfold execAxResume
  try dsimp only
  repeat' first | with_reducible assumption | with_reducible apply KeepsAns.next | with_reducible apply State.axDo_keeps | with_reducible apply State.axRefuse_keeps | with_reducible apply State.axJog_keeps | with_reducible apply State.axHold_keeps | with_reducible apply State.axStart_keeps | with_reducible refine KeepsAns.ite ?_ ?_ | with_reducible refine Keeps.ite ?_ ?_ | intro _ _

theorem execAxSetpos_keeps {s₀ s : State} (h : Keeps s₀ s) (ax : Nat) : KeepsAns s₀ (execAxSetpos ax s) := by
  unfold execAxSetpos
  repeat' first | (extract_lets +onlyGivenNames z; first | (refine Keeps.cut (s₀ := s₀) z ?_ ?_; rotate_left; clear_value z; intro hz; rotate_left; subst z) | clear_value z) | with_reducible assumption | with_reducible apply KeepsAns.next | with_reducible apply State.axDo_keeps | with_reducible apply State.axRefuse_keeps | with_reducible apply State.setWord_keeps | with_reducible apply State.setI32_keeps | with_reducible apply State.modAxis_keeps | with_reducible apply State.setF_keeps | with_reducible apply State.axTo_keeps | with_reducible apply State.setCodes_keeps | with_reducible apply State.axSync_keeps | with_reducible refine KeepsAns.ite ?_ ?_ | with_reducible refine Keeps.ite ?_ ?_ | (with_reducible apply Keeps.upd; with_reducible assumption) | intro _ _

theorem State.axResync_keeps {s₀ s : State} (h : Keeps s₀ s) (ax : Nat) : Keeps s₀ (State.axResync s ax) := by
  unfold State.axResync
  repeat' first | (extract_lets +onlyGivenNames z; first | (refine Keeps.cut (s₀ := s₀) z ?_ ?_; rotate_left; clear_value z; intro hz; rotate_left; subst z) | clear_value z) | with_reducible assumption | with_reducible apply State.setI32_keeps | with_reducible apply State.setCodes_keeps | with_reducible apply State.modAxis_keeps | with_reducible apply State.axSync_keeps | with_reducible refine Keeps.ite ?_ ?_ | (with_reducible apply Keeps.upd; with_reducible assumption)

theorem execAxClear_keeps {s₀ s : State} (h : Keeps s₀ s) (ax : Nat) : KeepsAns s₀ (execAxClear ax s) := by
  unfold execAxClear
  repeat' first | (extract_lets +onlyGivenNames z; first | (refine Keeps.cut (s₀ := s₀) z ?_ ?_; rotate_left; clear_value z; intro hz; rotate_left; subst z) | clear_value z) | with_reducible assumption | with_reducible apply KeepsAns.next | with_reducible apply State.axDo_keeps | with_reducible apply State.axRefuse_keeps | with_reducible apply State.setF_keeps | with_reducible apply State.axTo_keeps | with_reducible apply State.bridges_keeps | with_reducible apply State.axResync_keeps | with_reducible apply State.setI32_keeps | with_reducible refine KeepsAns.ite ?_ ?_ | with_reducible refine Keeps.ite ?_ ?_ | intro _ _

theorem execAxStepEvent_keeps {s₀ s : State} (h : Keeps s₀ s) (ax : Nat) : KeepsAns s₀ (execAxStepEvent ax s) := by
  unfold execAxStepEvent
  repeat' first | with_reducible assumption | with_reducible apply KeepsAns.next | with_reducible apply State.axStepEvent_keeps | with_reducible refine KeepsAns.ite ?_ ?_ | with_reducible refine Keeps.ite ?_ ?_

theorem execAxDeviationCheck_keeps {s₀ s : State} (h : Keeps s₀ s) (ax : Nat) : KeepsAns s₀ (execAxDeviationCheck ax s) := by
  unfold execAxDeviationCheck
  repeat' first | (extract_lets +onlyGivenNames z; first | (refine Keeps.cut (s₀ := s₀) z ?_ ?_; rotate_left; clear_value z; intro hz; rotate_left; subst z) | clear_value z) | with_reducible assumption | with_reducible apply KeepsAns.next | with_reducible apply State.axShowEnc_keeps | with_reducible apply State.modAxis_keeps | with_reducible apply State.satInc_keeps | with_reducible apply State.axFault_keeps | with_reducible refine KeepsAns.ite ?_ ?_ | with_reducible refine Keeps.ite ?_ ?_ | (with_reducible apply Keeps.upd; with_reducible assumption)

theorem execAxSettleCheck_keeps {s₀ s : State} (h : Keeps s₀ s) (ax : Nat) : KeepsAns s₀ (execAxSettleCheck ax s) := by
  unfold execAxSettleCheck
  repeat' first | (extract_lets +onlyGivenNames z; first | (refine Keeps.cut (s₀ := s₀) z ?_ ?_; rotate_left; clear_value z; intro hz; rotate_left; subst z) | clear_value z) | with_reducible assumption | with_reducible apply KeepsAns.next | with_reducible apply State.axResync_keeps | with_reducible apply State.settle_keeps | with_reducible apply State.modAxis_keeps | with_reducible apply State.satInc_keeps | with_reducible apply State.report_keeps | with_reducible refine KeepsAns.ite ?_ ?_ | with_reducible refine Keeps.ite ?_ ?_ | (with_reducible apply Keeps.upd; with_reducible assumption)

theorem execAxHoldTimeout_keeps {s₀ s : State} (h : Keeps s₀ s) (ax : Nat) : KeepsAns s₀ (execAxHoldTimeout ax s) := by
  unfold execAxHoldTimeout
  repeat' first | (extract_lets +onlyGivenNames z; first | (refine Keeps.cut (s₀ := s₀) z ?_ ?_; rotate_left; clear_value z; intro hz; rotate_left; subst z) | clear_value z) | with_reducible assumption | with_reducible apply KeepsAns.next | with_reducible apply State.modAxis_keeps | with_reducible apply State.setF_keeps | with_reducible apply State.setCodes_keeps | with_reducible refine KeepsAns.ite ?_ ?_ | with_reducible refine Keeps.ite ?_ ?_ | (with_reducible apply Keeps.upd; with_reducible assumption)

theorem State.chopCycle_keeps {s₀ s : State} (h : Keeps s₀ s) (ax : Nat) (ph : Nat) (tr : Nat) (tf : Nat) : Keeps s₀ (State.chopCycle s ax ph tr tf) := by
  unfold State.chopCycle
  try dsimp only
  repeat' first | with_reducible assumption | with_reducible apply State.setPhase_keeps | with_reducible apply State.setF_keeps | (with_reducible apply Keeps.foldl; intro _ _ _) | with_reducible refine Keeps.ite ?_ ?_ | (with_reducible apply Keeps.upd; with_reducible assumption)

theorem State.chopToggle_keeps {s₀ s : State} (h : Keeps s₀ s) (ax : Nat) (ph : Nat) : Keeps s₀ (State.chopToggle s ax ph) := by
  unfold State.chopToggle
  try dsimp only
  repeat' first | with_reducible assumption | with_reducible apply State.setPhase_keeps | with_reducible apply State.startDecay_keeps | with_reducible apply State.chopCycle_keeps | with_reducible apply State.startDrive_keeps | with_reducible refine Keeps.ite ?_ ?_ | split | (with_reducible apply Keeps.upd; with_reducible assumption)

theorem execChopThresholdCross_keeps {s₀ s : State} (h : Keeps s₀ s) (ax : Nat) (phase : Nat) : KeepsAns s₀ (execChopThresholdCross ax phase s) := by
  unfold execChopThresholdCross
  repeat' first | with_reducible assumption | with_reducible apply KeepsAns.next | with_reducible apply State.chopToggle_keeps | with_reducible refine KeepsAns.ite ?_ ?_ | with_reducible refine Keeps.ite ?_ ?_

theorem execChopMixEnd_keeps {s₀ s : State} (h : Keeps s₀ s) (ax : Nat) (phase : Nat) : KeepsAns s₀ (execChopMixEnd ax phase s) := by
  unfold execChopMixEnd
  try dsimp only
  repeat' first | with_reducible assumption | with_reducible apply KeepsAns.next | with_reducible apply State.setPhase_keeps | with_reducible apply State.gates_keeps | with_reducible refine KeepsAns.ite ?_ ?_ | with_reducible refine Keeps.ite ?_ ?_ | (with_reducible apply Keeps.upd; with_reducible assumption)

theorem execChopMaxOnTimeout_keeps {s₀ s : State} (h : Keeps s₀ s) (ax : Nat) (phase : Nat) : KeepsAns s₀ (execChopMaxOnTimeout ax phase s) := by
  unfold execChopMaxOnTimeout
  try dsimp only
  repeat' first | with_reducible assumption | with_reducible apply KeepsAns.next | with_reducible apply State.setPhase_keeps | with_reducible apply State.axFault_keeps | with_reducible refine KeepsAns.ite ?_ ?_ | with_reducible refine Keeps.ite ?_ ?_ | (with_reducible apply Keeps.upd; with_reducible assumption)

theorem execChopBlankingEnd_keeps {s₀ s : State} (h : Keeps s₀ s) (ax : Nat) (phase : Nat) (atLevel : Bool) : KeepsAns s₀ (execChopBlankingEnd ax phase atLevel s) := by
  unfold execChopBlankingEnd
  try dsimp only
  repeat' first | with_reducible assumption | with_reducible apply KeepsAns.next | with_reducible apply State.setPhase_keeps | with_reducible apply State.axFault_keeps | with_reducible apply State.chopToggle_keeps | with_reducible refine KeepsAns.ite ?_ ?_ | with_reducible refine Keeps.ite ?_ ?_ | (with_reducible apply Keeps.upd; with_reducible assumption)

end Sys2Proof.Machine
end

