-- ==== Sys2Proof/Laws/KeepExposure.lean ====
section
/-! SUPPORT. What the operations of Machine/Exposure.lean keep (Laws/Keep.lean). -/
namespace Sys2Proof.Machine
set_option Elab.async false
set_option linter.all false

theorem execMonitorRead_keeps {s₀ s : State} (h : Keeps s₀ s) (st : Nat) : KeepsAns s₀ (execMonitorRead st s) := by
  unfold execMonitorRead
  try dsimp only
  repeat' first | with_reducible assumption | with_reducible apply KeepsAns.next | with_reducible apply State.sbQueue_keeps | with_reducible refine KeepsAns.ite ?_ ?_ | with_reducible refine Keeps.ite ?_ ?_ | (with_reducible apply Keeps.upd; with_reducible assumption)

theorem execTapCalMeasure_keeps {s₀ s : State} (h : Keeps s₀ s) (st : Nat) (count : Nat) : KeepsAns s₀ (execTapCalMeasure st count s) := by
  unfold execTapCalMeasure
  repeat' first | (extract_lets +onlyGivenNames z; first | (refine Keeps.cut (s₀ := s₀) z ?_ ?_; rotate_left; clear_value z; intro hz; rotate_left; subst z) | clear_value z) | with_reducible assumption | with_reducible apply KeepsAns.next | with_reducible apply State.setExpSt_keeps | with_reducible apply State.setF_keeps | with_reducible apply State.drew_keeps | with_reducible apply State.wrapInc_keeps | with_reducible apply State.setB_keeps | with_reducible apply State.syncTaps_keeps | (with_reducible apply Keeps.foldl; intro _ _ _) | with_reducible refine KeepsAns.ite ?_ ?_ | with_reducible refine Keeps.ite ?_ ?_ | (with_reducible apply Keeps.upd; with_reducible assumption)

theorem State.halfChanged_keeps {s₀ s : State} (h : Keeps s₀ s) (half : Bool) : Keeps s₀ (State.halfChanged s half) := by
  unfold State.halfChanged
  repeat' first | (extract_lets +onlyGivenNames z; first | (refine Keeps.cut (s₀ := s₀) z ?_ ?_; rotate_left; clear_value z; intro hz; rotate_left; subst z) | clear_value z) | with_reducible assumption | with_reducible apply State.headWrite_keeps | with_reducible apply State.setF_keeps | with_reducible apply State.sendCur_keeps | (with_reducible apply Keeps.foldl; intro _ _ _) | with_reducible refine Keeps.ite ?_ ?_

theorem execHalfAdvanceWrite_keeps {s₀ s : State} (h : Keeps s₀ s) (master : Nat) (value : BitVec 32) : KeepsAns s₀ (execHalfAdvanceWrite master value s) := by
  unfold execHalfAdvanceWrite
  repeat' first | (extract_lets +onlyGivenNames z; first | (refine Keeps.cut (s₀ := s₀) z ?_ ?_; rotate_left; clear_value z; intro hz; rotate_left; subst z) | clear_value z) | with_reducible assumption | with_reducible apply KeepsAns.next | with_reducible apply State.darkWrite_keeps | with_reducible apply State.setB_keeps | with_reducible apply State.halfChanged_keeps | with_reducible refine KeepsAns.ite ?_ ?_ | with_reducible refine Keeps.ite ?_ ?_ | (with_reducible apply Keeps.upd; with_reducible assumption)

end Sys2Proof.Machine
end

