-- ==== Sys2Proof/Laws/KeepKorip.lean ====
section
/-! SUPPORT. What the operations of Machine/Korip.lean keep (Laws/Keep.lean). -/
namespace Sys2Proof.Machine
set_option Elab.async false
set_option linter.all false

theorem State.jobWrite_keeps {s₀ s : State} (h : Keeps s₀ s) (j : Nat) (bs : List Byte) : Keeps s₀ (State.jobWrite s j bs) := by
  unfold State.jobWrite
  try dsimp only
  repeat' first | with_reducible assumption | with_reducible apply State.setF_keeps | (with_reducible apply Keeps.dram; with_reducible assumption) | (with_reducible apply Keeps.upd; with_reducible assumption)

theorem State.showRun_keeps {s₀ s : State} (h : Keeps s₀ s) (j : Nat) (r : JobRun) : Keeps s₀ (State.showRun s j r) := by
  unfold State.showRun
  try dsimp only
  repeat' first | with_reducible assumption | with_reducible apply State.jobWrite_keeps | with_reducible apply State.setF_keeps

theorem State.jobCtrl_keeps {s₀ s t : State} {j : Nat} {value : Nat} (h : Keeps s₀ s) (e : State.jobCtrl s j value = some t) : Keeps s₀ t := by
  unfold State.jobCtrl at e
  repeat' first | (split at e) | (simp only [Option.some.injEq] at e) | (simp only [reduceCtorEq] at e) | subst e
  all_goals (repeat' first | (extract_lets +onlyGivenNames z; first | (refine Keeps.cut (s₀ := s₀) z ?_ ?_; rotate_left; clear_value z; intro hz; rotate_left; subst z) | clear_value z) | with_reducible assumption | with_reducible apply State.darkWrite_keeps | with_reducible apply State.reportAccess_keeps | with_reducible refine Keeps.ite ?_ ?_ | (simp only [Option.some.injEq, reduceCtorEq] at e))

theorem State.jobGo_keeps {s₀ s : State} (h : Keeps s₀ s) (j : Nat) : Keeps s₀ (State.jobGo s j) := by
  unfold State.jobGo
  repeat' first | (extract_lets +onlyGivenNames z; first | (refine Keeps.cut (s₀ := s₀) z ?_ ?_; rotate_left; clear_value z; intro hz; rotate_left; subst z) | clear_value z) | with_reducible assumption | with_reducible apply State.jobRefused_keeps | with_reducible apply State.setJobState_keeps | with_reducible apply State.endJob_keeps | with_reducible apply State.setF_keeps | with_reducible apply State.setWord_keeps | with_reducible apply State.setJob_keeps | with_reducible refine Keeps.ite ?_ ?_ | (with_reducible apply Keeps.upd; with_reducible assumption)

theorem State.openEmit_keeps {s₀ : State} (j : Nat) (endNow : Bool) (fuel : Nat) : ∀ (s : State) (_ : Keeps s₀ s), Keeps s₀ (State.openEmit s j endNow fuel) := by
  induction fuel generalizing j endNow with
  | zero => intro s h; unfold State.openEmit; exact h
  | succ fuel ih =>
    intro s h
    unfold State.openEmit
    repeat' first | (extract_lets +onlyGivenNames z; first | (refine Keeps.cut (s₀ := s₀) z ?_ ?_; rotate_left; clear_value z; intro hz; rotate_left; subst z) | clear_value z) | with_reducible assumption | with_reducible apply ih | with_reducible apply State.mark_keeps | with_reducible apply State.endJob_keeps | with_reducible apply State.jobWrite_keeps | with_reducible apply State.setJob_keeps | with_reducible apply State.satInc_keeps | with_reducible refine Keeps.ite ?_ ?_ | split | (with_reducible apply Keeps.upd; with_reducible assumption)

theorem State.doFlush_keeps {s₀ s : State} (h : Keeps s₀ s) (j : Nat) : Keeps s₀ (State.doFlush s j) := by
  unfold State.doFlush
  repeat' first | (extract_lets +onlyGivenNames z; first | (refine Keeps.cut (s₀ := s₀) z ?_ ?_; rotate_left; clear_value z; intro hz; rotate_left; subst z) | clear_value z) | with_reducible assumption | with_reducible apply State.mark_keeps | with_reducible apply State.setJob_keeps | with_reducible apply State.openEmit_keeps | with_reducible apply State.event_keeps | with_reducible refine Keeps.ite ?_ ?_ | (with_reducible apply Keeps.upd; with_reducible assumption)

theorem State.doClose_keeps {s₀ s : State} (h : Keeps s₀ s) (j : Nat) : Keeps s₀ (State.doClose s j) := by
  unfold State.doClose
  try dsimp only
  repeat' first | with_reducible assumption | with_reducible apply State.openEmit_keeps | with_reducible apply State.endJob_keeps | with_reducible apply State.jobWrite_keeps | with_reducible refine Keeps.ite ?_ ?_

theorem State.jobFlush_keeps {s₀ s : State} (h : Keeps s₀ s) (j : Nat) : Keeps s₀ (State.jobFlush s j) := by
  unfold State.jobFlush
  try dsimp only
  repeat' first | with_reducible assumption | with_reducible apply State.jobRefused_keeps | with_reducible apply State.doFlush_keeps | with_reducible apply State.setJob_keeps | with_reducible refine Keeps.ite ?_ ?_ | (with_reducible apply Keeps.upd; with_reducible assumption)

theorem State.jobClose_keeps {s₀ s : State} (h : Keeps s₀ s) (j : Nat) : Keeps s₀ (State.jobClose s j) := by
  unfold State.jobClose
  try dsimp only
  repeat' first | with_reducible assumption | with_reducible apply State.jobRefused_keeps | with_reducible apply State.doClose_keeps | with_reducible apply State.setJob_keeps | with_reducible refine Keeps.ite ?_ ?_ | (with_reducible apply Keeps.upd; with_reducible assumption)

theorem execKorJobGo_keeps {s₀ s : State} (h : Keeps s₀ s) (slot : Nat) (flush : Bool) (close : Bool) : KeepsAns s₀ (execKorJobGo slot flush close s) := by
  unfold execKorJobGo
  repeat' first | (extract_lets +onlyGivenNames z; first | (refine Keeps.cut (s₀ := s₀) z ?_ ?_; rotate_left; clear_value z; intro hz; rotate_left; subst z) | clear_value z) | with_reducible assumption | with_reducible apply KeepsAns.next | (refine State.jobCtrl_keeps ?_ (by assumption)) | with_reducible apply State.jobGo_keeps | with_reducible apply State.jobFlush_keeps | with_reducible apply State.jobClose_keeps | with_reducible refine KeepsAns.ite ?_ ?_ | with_reducible refine Keeps.ite ?_ ?_ | split

theorem execKorJobFlush_keeps {s₀ s : State} (h : Keeps s₀ s) (slot : Nat) (close : Bool) : KeepsAns s₀ (execKorJobFlush slot close s) := by
  unfold execKorJobFlush
  try dsimp only
  repeat' first | with_reducible assumption | with_reducible apply KeepsAns.next | (refine State.jobCtrl_keeps ?_ (by assumption)) | with_reducible apply State.jobFlush_keeps | with_reducible apply State.jobClose_keeps | with_reducible refine KeepsAns.ite ?_ ?_ | with_reducible refine Keeps.ite ?_ ?_ | split

theorem execKorJobClose_keeps {s₀ s : State} (h : Keeps s₀ s) (slot : Nat) : KeepsAns s₀ (execKorJobClose slot s) := by
  unfold execKorJobClose
  repeat' first | with_reducible assumption | with_reducible apply KeepsAns.next | (refine State.jobCtrl_keeps ?_ (by assumption)) | with_reducible apply State.jobClose_keeps | split

theorem State.cutJob_keeps {s₀ s : State} (h : Keeps s₀ s) (j : Nat) (code : Nat) (n : Nat) : Keeps s₀ (State.cutJob s j code n) := by
  unfold State.cutJob
  try dsimp only
  repeat' first | with_reducible assumption | with_reducible apply State.drew_keeps | with_reducible apply State.showRun_keeps | with_reducible apply State.endJob_keeps | with_reducible refine Keeps.ite ?_ ?_

theorem execKorJobAbort_keeps {s₀ s : State} (h : Keeps s₀ s) (slot : Nat) : KeepsAns s₀ (execKorJobAbort slot s) := by
  unfold execKorJobAbort
  repeat' first | with_reducible assumption | with_reducible apply KeepsAns.next | (refine State.jobCtrl_keeps ?_ (by assumption)) | with_reducible apply State.cutJob_keeps | with_reducible apply State.jobRefused_keeps | with_reducible refine KeepsAns.ite ?_ ?_ | with_reducible refine Keeps.ite ?_ ?_ | split

theorem execKorJobWaiting_keeps {s₀ s : State} (h : Keeps s₀ s) (slot : Nat) : KeepsAns s₀ (execKorJobWaiting slot s) := by
  unfold execKorJobWaiting
  repeat' first | (extract_lets +onlyGivenNames z; first | (refine Keeps.cut (s₀ := s₀) z ?_ ?_; rotate_left; clear_value z; intro hz; rotate_left; subst z) | clear_value z) | with_reducible assumption | with_reducible apply KeepsAns.next | with_reducible apply State.setJob_keeps | with_reducible apply State.setF_keeps | with_reducible apply State.endJob_keeps | with_reducible apply State.jobWrite_keeps | with_reducible apply State.openEmit_keeps | with_reducible apply State.setJobState_keeps | with_reducible apply State.event_keeps | with_reducible apply State.doFlush_keeps | with_reducible apply State.doClose_keeps | with_reducible refine KeepsAns.ite ?_ ?_ | with_reducible refine Keeps.ite ?_ ?_ | (with_reducible apply Keeps.upd; with_reducible assumption)

theorem execKorJobDone_keeps {s₀ s : State} (h : Keeps s₀ s) (slot : Nat) (ecc : Option Nat) : KeepsAns s₀ (execKorJobDone slot ecc s) := by
  unfold execKorJobDone
  try dsimp only
  repeat' first | with_reducible assumption | with_reducible apply KeepsAns.next | with_reducible apply State.endJob_keeps | with_reducible apply State.cutJob_keeps | with_reducible apply State.showRun_keeps | with_reducible refine KeepsAns.ite ?_ ?_ | with_reducible refine Keeps.ite ?_ ?_ | split

theorem State.stopJobs_keeps {s₀ s : State} (h : Keeps s₀ s) (code : Nat) : Keeps s₀ (State.stopJobs s code) := by
  unfold State.stopJobs
  repeat' first | with_reducible assumption | with_reducible apply State.cutJob_keeps | (with_reducible apply Keeps.foldl; intro _ _ _) | with_reducible refine Keeps.ite ?_ ?_

end Sys2Proof.Machine
end

