-- ==== Sys2Proof/Laws/KeepFlumes.lean ====
section
/-! SUPPORT. What the operations of Machine/Flumes.lean keep (Laws/Keep.lean). -/
namespace Sys2Proof.Machine
set_option Elab.async false
set_option linter.all false

theorem State.setFl_keeps {s₀ s : State} (h : Keeps s₀ s) (n : Nat) (st : Nat) (station : Nat) : Keeps s₀ (State.setFl s n st station) := by
  unfold State.setFl
  repeat' first | with_reducible assumption | with_reducible apply State.setF_keeps

theorem State.nameReserve_keeps {s₀ s : State} (h : Keeps s₀ s) : Keeps s₀ (State.nameReserve s) := by
  unfold State.nameReserve
  try dsimp only
  repeat' first | with_reducible assumption | with_reducible apply State.setFl_keeps | with_reducible apply State.drew_keeps | with_reducible apply State.setB_keeps | (with_reducible apply Keeps.foldl; intro _ _ _) | with_reducible refine Keeps.ite ?_ ?_ | split

theorem State.setFurrows_keeps {s₀ s : State} (h : Keeps s₀ s) (l : List Furrow) : Keeps s₀ (State.setFurrows s l) := by
  unfold State.setFurrows
  try dsimp only
  repeat' first | with_reducible assumption | (with_reducible apply Keeps.upd; with_reducible assumption)

theorem State.modFurrow_keeps {s₀ s : State} (h : Keeps s₀ s) (seq : Nat) (st : Nat) (k : Nat) (g : Furrow → Furrow) : Keeps s₀ (State.modFurrow s seq st k g) := by
  unfold State.modFurrow
  repeat' first | with_reducible assumption | with_reducible apply State.setFurrows_keeps | with_reducible refine Keeps.ite ?_ ?_

theorem State.dropPrinted_keeps {s₀ s : State} (h : Keeps s₀ s) (st : Nat) : Keeps s₀ (State.dropPrinted s st) := by
  unfold State.dropPrinted
  repeat' first | with_reducible assumption | with_reducible apply State.setFurrows_keeps | split

theorem State.assign_keeps {s₀ s : State} (h : Keeps s₀ s) (n : Nat) (seq : Nat) (st : Nat) (k : Nat) (redo : Bool) : Keeps s₀ (State.assign s n seq st k redo) := by
  unfold State.assign
  repeat' first | (extract_lets +onlyGivenNames z; first | (refine Keeps.cut (s₀ := s₀) z ?_ ?_; rotate_left; clear_value z; intro hz; rotate_left; subst z) | clear_value z) | with_reducible assumption | with_reducible apply State.setFl_keeps | with_reducible apply State.setFurrows_keeps | with_reducible apply State.startFill_keeps | with_reducible refine Keeps.ite ?_ ?_ | (with_reducible apply Keeps.upd; with_reducible assumption)

set_option maxRecDepth 4000 in
theorem execFurrowRelease_keeps {s₀ s : State} (h : Keeps s₀ s) (st : Nat) : KeepsAns s₀ (execFurrowRelease st s) := by
  unfold execFurrowRelease
  repeat' first | (extract_lets +onlyGivenNames z; first | (refine Keeps.cut (s₀ := s₀) z ?_ ?_; rotate_left; clear_value z; intro hz; rotate_left; subst z) | clear_value z) | with_reducible assumption | with_reducible apply KeepsAns.next | with_reducible apply State.dropPrinted_keeps | with_reducible apply State.assign_keeps | with_reducible apply State.setF_keeps | with_reducible refine KeepsAns.ite ?_ ?_ | with_reducible refine Keeps.ite ?_ ?_ | split | (with_reducible apply Keeps.upd; with_reducible assumption)

theorem State.freeFlume_keeps {s₀ s : State} (h : Keeps s₀ s) (n : Nat) : Keeps s₀ (State.freeFlume s n) := by
  unfold State.freeFlume
  repeat' first | with_reducible assumption | with_reducible apply State.setFl_keeps | with_reducible apply State.nameReserve_keeps

theorem execFurrowComplete_keeps {s₀ s : State} (h : Keeps s₀ s) (flume : Nat) (ecc : Option Nat) (corrected : Bool) : KeepsAns s₀ (execFurrowComplete flume ecc corrected s) := by
  unfold execFurrowComplete
  repeat' first | (extract_lets +onlyGivenNames z; first | (refine Keeps.cut (s₀ := s₀) z ?_ ?_; rotate_left; clear_value z; intro hz; rotate_left; subst z) | clear_value z) | with_reducible assumption | with_reducible apply KeepsAns.next | with_reducible apply State.dropFill_keeps | with_reducible apply State.setFurrows_keeps | with_reducible apply State.freeFlume_keeps | with_reducible apply State.modFurrow_keeps | with_reducible apply State.wrapInc_keeps | with_reducible apply State.event_keeps | with_reducible apply State.satInc_keeps | with_reducible apply State.useStream_keeps | with_reducible apply State.report_keeps | with_reducible apply State.failCompose_keeps | with_reducible apply State.spoilPage_keeps | with_reducible apply State.codecCount_keeps | with_reducible refine KeepsAns.ite ?_ ?_ | with_reducible refine Keeps.ite ?_ ?_ | split | (with_reducible apply Keeps.upd; with_reducible assumption)

set_option maxRecDepth 4000 in
theorem execFurrowDataDeadline_keeps {s₀ s : State} (h : Keeps s₀ s) (st : Nat) : KeepsAns s₀ (execFurrowDataDeadline st s) := by
  unfold execFurrowDataDeadline
  try dsimp only
  repeat' first | with_reducible assumption | with_reducible apply KeepsAns.next | with_reducible apply State.satInc_keeps | with_reducible apply State.spoilPage_keeps | with_reducible apply State.failCompose_keeps | with_reducible refine KeepsAns.ite ?_ ?_ | with_reducible refine Keeps.ite ?_ ?_ | split

theorem execFurrowLate_keeps {s₀ s : State} (h : Keeps s₀ s) (st : Nat) : KeepsAns s₀ (execFurrowLate st s) := by
  unfold execFurrowLate
  repeat' first | (extract_lets +onlyGivenNames z; first | (refine Keeps.cut (s₀ := s₀) z ?_ ?_; rotate_left; clear_value z; intro hz; rotate_left; subst z) | clear_value z) | with_reducible assumption | with_reducible apply KeepsAns.next | with_reducible apply State.satInc_keeps | with_reducible apply State.spoilPage_keeps | with_reducible refine KeepsAns.ite ?_ ?_ | with_reducible refine Keeps.ite ?_ ?_ | split | (with_reducible apply Keeps.upd; with_reducible assumption)

theorem State.fence_keeps {s₀ s : State} (h : Keeps s₀ s) (n : Nat) : Keeps s₀ (State.fence s n) := by
  unfold State.fence
  repeat' first | (extract_lets +onlyGivenNames z; first | (refine Keeps.cut (s₀ := s₀) z ?_ ?_; rotate_left; clear_value z; intro hz; rotate_left; subst z) | clear_value z) | with_reducible assumption | with_reducible apply State.setF_keeps | with_reducible apply State.setFl_keeps | with_reducible apply State.checkCapacity_keeps | with_reducible apply State.nameReserve_keeps | with_reducible refine Keeps.ite ?_ ?_

theorem execFlumeStall_keeps {s₀ s : State} (h : Keeps s₀ s) (flume : Nat) : KeepsAns s₀ (execFlumeStall flume s) := by
  unfold execFlumeStall
  repeat' first | (extract_lets +onlyGivenNames z; first | (refine Keeps.cut (s₀ := s₀) z ?_ ?_; rotate_left; clear_value z; intro hz; rotate_left; subst z) | clear_value z) | with_reducible assumption | with_reducible apply KeepsAns.next | with_reducible apply State.dropFill_keeps | with_reducible apply State.setFurrows_keeps | with_reducible apply State.report_keeps | with_reducible apply State.pf_keeps | with_reducible apply State.fence_keeps | with_reducible refine KeepsAns.ite ?_ ?_ | with_reducible refine Keeps.ite ?_ ?_ | split | (with_reducible apply Keeps.upd; with_reducible assumption)

theorem execRedoStart_keeps {s₀ s : State} (h : Keeps s₀ s) : KeepsAns s₀ (execRedoStart s) := by
  unfold execRedoStart
  try dsimp only
  repeat' first | with_reducible assumption | with_reducible apply KeepsAns.next | with_reducible apply State.assign_keeps | with_reducible apply State.nameReserve_keeps | split | (with_reducible apply Keeps.upd; with_reducible assumption)

theorem execFlumeUnfence_keeps {s₀ s : State} (h : Keeps s₀ s) (flume : Nat) : KeepsAns s₀ (execFlumeUnfence flume s) := by
  unfold execFlumeUnfence
  try dsimp only
  repeat' first | with_reducible assumption | with_reducible apply KeepsAns.next | with_reducible apply State.darkWrite_keeps | with_reducible apply State.setFl_keeps | with_reducible apply State.raise_keeps | with_reducible refine KeepsAns.ite ?_ ?_ | with_reducible refine Keeps.ite ?_ ?_

theorem execFlumeTestDone_keeps {s₀ s : State} (h : Keeps s₀ s) (flume : Nat) (pass : Bool) : KeepsAns s₀ (execFlumeTestDone flume pass s) := by
  unfold execFlumeTestDone
  repeat' first | (extract_lets +onlyGivenNames z; first | (refine Keeps.cut (s₀ := s₀) z ?_ ?_; rotate_left; clear_value z; intro hz; rotate_left; subst z) | clear_value z) | with_reducible assumption | with_reducible apply KeepsAns.next | with_reducible apply State.setF_keeps | with_reducible apply State.setFl_keeps | with_reducible apply State.checkCapacity_keeps | with_reducible apply State.nameReserve_keeps | with_reducible apply State.report_keeps | with_reducible apply State.fence_keeps | with_reducible refine KeepsAns.ite ?_ ?_ | with_reducible refine Keeps.ite ?_ ?_

theorem State.startTests_keeps {s₀ s : State} (h : Keeps s₀ s) : Keeps s₀ (State.startTests s) := by
  unfold State.startTests
  repeat' first | with_reducible assumption | with_reducible apply State.setFl_keeps | (with_reducible apply Keeps.foldl; intro _ _ _) | with_reducible refine Keeps.ite ?_ ?_

theorem State.flumesOff_keeps {s₀ s : State} (h : Keeps s₀ s) : Keeps s₀ (State.flumesOff s) := by
  unfold State.flumesOff
  try dsimp only
  repeat' first | with_reducible assumption | with_reducible apply State.setFl_keeps | with_reducible apply State.setF_keeps | (with_reducible apply Keeps.foldl; intro _ _ _) | with_reducible refine Keeps.ite ?_ ?_

theorem State.stopFlumes_keeps {s₀ s : State} (h : Keeps s₀ s) : Keeps s₀ (State.stopFlumes s) := by
  unfold State.stopFlumes
  repeat' first | (extract_lets +onlyGivenNames z; first | (refine Keeps.cut (s₀ := s₀) z ?_ ?_; rotate_left; clear_value z; intro hz; rotate_left; subst z) | clear_value z) | with_reducible assumption | with_reducible apply State.setFl_keeps | with_reducible apply State.setF_keeps | with_reducible apply State.nameReserve_keeps | (with_reducible apply Keeps.foldl; intro _ _ _) | (with_reducible apply Keeps.upd; with_reducible assumption)

theorem execStationTableWrite_keeps {s₀ s : State} (h : Keeps s₀ s) (master : Nat) (off : Nat) (value : BitVec 32) : KeepsAns s₀ (execStationTableWrite master off value s) := by
  unfold execStationTableWrite
  try dsimp only
  repeat' first | with_reducible assumption | with_reducible apply KeepsAns.next | with_reducible apply State.darkWrite_keeps | with_reducible apply State.reportAccess_keeps | with_reducible apply State.raise_keeps | with_reducible apply State.setF_keeps | with_reducible refine KeepsAns.ite ?_ ?_ | with_reducible refine Keeps.ite ?_ ?_ | split | (with_reducible apply Keeps.upd; with_reducible assumption)

theorem State.applyLog_keeps {s₀ s : State} (h : Keeps s₀ s) (st : Nat) : Keeps s₀ (State.applyLog s st) := by
  unfold State.applyLog
  repeat' first | (extract_lets +onlyGivenNames z; first | (refine Keeps.cut (s₀ := s₀) z ?_ ?_; rotate_left; clear_value z; intro hz; rotate_left; subst z) | clear_value z) | with_reducible assumption | with_reducible apply State.setWord_keeps | with_reducible apply State.setF_keeps | (with_reducible apply Keeps.foldl; intro _ _ _) | (with_reducible apply Keeps.upd; with_reducible assumption)

theorem execTableLogIdleApply_keeps {s₀ s : State} (h : Keeps s₀ s) (st : Nat) : KeepsAns s₀ (execTableLogIdleApply st s) := by
  unfold execTableLogIdleApply
  repeat' first | with_reducible assumption | with_reducible apply KeepsAns.next | with_reducible apply State.applyLog_keeps | with_reducible refine KeepsAns.ite ?_ ?_ | with_reducible refine Keeps.ite ?_ ?_

theorem State.predictStation_keeps {s₀ s : State} (h : Keeps s₀ s) (st : Nat) : Keeps s₀ (State.predictStation s st).1 := by
  unfold State.predictStation
  repeat' first | (extract_lets +onlyGivenNames z; first | (refine Keeps.cut (s₀ := s₀) z ?_ ?_; rotate_left; clear_value z; intro hz; rotate_left; subst z) | (refine Keeps.cut (s₀ := s₀) (z : _ × State).2 ?_ ?_; rotate_left; clear_value z; intro hz; rotate_left; subst z) | (refine Keeps.cut (s₀ := s₀) (z : State × _).1 ?_ ?_; rotate_left; clear_value z; intro hz; rotate_left; subst z) | (refine Keeps.cut (s₀ := s₀) (z : _ × _ × State).2.2 ?_ ?_; rotate_left; clear_value z; intro hz; rotate_left; subst z) | clear_value z) | with_reducible assumption | with_reducible apply State.setF_keeps | with_reducible refine Keeps.ite ?_ ?_ | with_reducible refine Keeps.ite_snd ?_ ?_ | with_reducible refine Keeps.ite_fst ?_ ?_ | split | (with_reducible apply Keeps.upd; first | with_reducible assumption | with_reducible apply State.setF_keeps) | dsimp only

theorem State.predictAll_keeps {s₀ s : State} (h : Keeps s₀ s) : Keeps s₀ (State.predictAll s).1 :=
  Keeps.foldl_fst (fun _ a hp => State.predictStation_keeps hp a) h

theorem execPredictorEvaluate_keeps {s₀ s : State} (h : Keeps s₀ s) : KeepsAns s₀ (execPredictorEvaluate s) := by
  unfold execPredictorEvaluate
  dsimp only
  repeat' first | (extract_lets +onlyGivenNames z; first | (refine Keeps.cut (s₀ := s₀) z ?_ ?_; rotate_left; clear_value z; intro hz; rotate_left; subst z) | (refine Keeps.cut (s₀ := s₀) (z : _ × State).2 ?_ ?_; rotate_left; clear_value z; intro hz; rotate_left; subst z) | (refine Keeps.cut (s₀ := s₀) (z : State × _).1 ?_ ?_; rotate_left; clear_value z; intro hz; rotate_left; subst z) | (refine Keeps.cut (s₀ := s₀) (z : _ × _ × State).2.2 ?_ ?_; rotate_left; clear_value z; intro hz; rotate_left; subst z) | clear_value z) | with_reducible assumption | with_reducible apply KeepsAns.next | with_reducible apply State.predictAll_keeps | with_reducible apply State.setF_keeps | with_reducible apply State.report_keeps | with_reducible apply State.weirOn_keeps | with_reducible apply State.weirAsk_keeps | with_reducible apply State.pf_keeps | with_reducible apply State.weirOff_keeps | (with_reducible apply Keeps.foldl; intro _ _ _) | (with_reducible apply Keeps.foldl_snd; intro _ _ _) | (with_reducible apply Keeps.foldl_fst; intro _ _ _) | (refine Keeps.of_fst ?_ (by assumption)) | with_reducible refine KeepsAns.ite ?_ ?_ | with_reducible refine Keeps.ite ?_ ?_ | with_reducible refine Keeps.ite_snd ?_ ?_ | with_reducible refine Keeps.ite_fst ?_ ?_ | split | (with_reducible apply Keeps.upd; first | with_reducible assumption | with_reducible apply State.predictAll_keeps | with_reducible apply State.setF_keeps | with_reducible apply State.report_keeps | with_reducible apply State.weirOn_keeps | with_reducible apply State.weirAsk_keeps | with_reducible apply State.pf_keeps | with_reducible apply State.weirOff_keeps) | dsimp only

end Sys2Proof.Machine
end

