-- ==== Sys2Proof/Laws/KeepInsOps.lean ====
section
/-! SUPPORT. What the operations of Machine/InsOps.lean keep (Laws/Keep.lean). -/
namespace Sys2Proof.Machine
set_option Elab.async false
set_option linter.all false

theorem State.compareFurrow_keeps {s₀ s : State} (h : Keeps s₀ s) (p : Page) (y : InsPage) (k : Nat) : Keeps s₀ (State.compareFurrow s p y k) := by
  unfold State.compareFurrow
  repeat' first | (extract_lets +onlyGivenNames z; first | (refine Keeps.cut (s₀ := s₀) z ?_ ?_; rotate_left; clear_value z; intro hz; rotate_left; subst z) | (have _f := fun a => z a; clear _f; subst z; try dsimp -zeta only) | clear_value z) | with_reducible assumption | with_reducible apply State.drew_keeps | with_reducible apply State.modInsPage_keeps | with_reducible apply State.useStream_keeps | (with_reducible apply Keeps.foldl; intro _ _ _) | with_reducible refine Keeps.ite ?_ ?_ | split | (with_reducible apply Keeps.upd; with_reducible assumption)

theorem State.measure_keeps {s₀ s : State} (h : Keeps s₀ s) (y : InsPage) (st : Nat) : Keeps s₀ (State.measure s y st).2 := by
  unfold State.measure
  try dsimp only
  repeat' first | with_reducible assumption | with_reducible apply State.drew_keeps | (with_reducible apply Keeps.foldl; intro _ _ _) | (with_reducible apply Keeps.foldl_snd; intro _ _ _) | (with_reducible apply Keeps.foldl_fst; intro _ _ _) | with_reducible refine Keeps.ite ?_ ?_ | with_reducible refine Keeps.ite_snd ?_ ?_ | with_reducible refine Keeps.ite_fst ?_ ?_ | split | dsimp only

theorem State.insWindow_keeps {s₀ s : State} (h : Keeps s₀ s) (side : Nat) : Keeps s₀ (State.insWindow s side) := by
  unfold State.insWindow
  repeat' first | (extract_lets +onlyGivenNames z; first | (refine Keeps.cut (s₀ := s₀) z ?_ ?_; rotate_left; clear_value z; intro hz; rotate_left; subst z) | (have _f := fun a => z a; clear _f; subst z; try dsimp -zeta only) | clear_value z) | with_reducible assumption | with_reducible apply State.setF_keeps | with_reducible apply State.setWord_keeps | with_reducible apply State.set64_keeps | with_reducible apply State.setB_keeps | (with_reducible apply Keeps.foldl; intro _ _ _) | with_reducible refine Keeps.ite ?_ ?_ | split

theorem State.queueResult_keeps {s₀ s : State} (h : Keeps s₀ s) (side : Nat) (r : InsResult) : Keeps s₀ (State.queueResult s side r) := by
  unfold State.queueResult
  try dsimp only
  repeat' first | with_reducible assumption | with_reducible apply State.setInsSide_keeps | with_reducible apply State.satInc_keeps | with_reducible apply State.report_keeps | with_reducible apply State.insWindow_keeps | with_reducible apply State.mark_keeps | with_reducible apply State.pf_keeps | with_reducible refine Keeps.ite ?_ ?_ | (with_reducible apply Keeps.upd; with_reducible assumption)

theorem State.addTarget_keeps {s₀ s : State} (h : Keeps s₀ s) (side : Nat) (st : Nat) (item : Nat) (i : Nat) (t : Int) (e : Int) : Keeps s₀ (State.addTarget s side st item i t e) := by
  unfold State.addTarget
  try dsimp only
  repeat' first | with_reducible assumption | (with_reducible apply Keeps.upd; with_reducible assumption)

theorem State.pageTargets_keeps {s₀ s : State} (h : Keeps s₀ s) (side : Nat) (st : Nat) (v : InsVals) (ms : Store InsMeas) : Keeps s₀ (State.pageTargets s side st v ms) := by
  unfold State.pageTargets
  repeat' first | (extract_lets +onlyGivenNames z; first | (refine Keeps.cut (s₀ := s₀) z ?_ ?_; rotate_left; clear_value z; intro hz; rotate_left; subst z) | clear_value z) | with_reducible assumption | with_reducible apply State.addTarget_keeps | (with_reducible apply Keeps.foldl; intro _ _ _) | with_reducible refine Keeps.ite ?_ ?_ | split | (with_reducible apply Keeps.upd; with_reducible assumption)

theorem State.markStanding_keeps {s₀ s : State} (h : Keeps s₀ s) (y : InsPage) (ds : List Defect) : Keeps s₀ (State.markStanding s y ds) := by
  unfold State.markStanding
  try dsimp only
  repeat' first | with_reducible assumption | with_reducible apply State.setDead_keeps | with_reducible apply State.expReport_keeps | with_reducible apply State.deadChanged_keeps | (with_reducible apply Keeps.foldl; intro _ _ _) | with_reducible refine Keeps.ite ?_ ?_ | split | (with_reducible apply Keeps.upd; with_reducible assumption)

theorem State.corrStep_keeps {s₀ s : State} (h : Keeps s₀ s) (side : Nat) (st : Nat) (item : Nat) (i : Nat) : Keeps s₀ (State.corrStep s side st item i) := by
  unfold State.corrStep
  try dsimp only
  repeat' first | with_reducible assumption | with_reducible apply State.satInc_keeps | with_reducible apply State.hwF_keeps | with_reducible apply State.askMove_keeps | with_reducible refine Keeps.ite ?_ ?_ | split | (with_reducible apply Keeps.upd; with_reducible assumption)

theorem State.corrGap_keeps {s₀ s : State} (h : Keeps s₀ s) (st : Nat) : Keeps s₀ (State.corrGap s st) := by
  unfold State.corrGap
  repeat' first | (extract_lets +onlyGivenNames z; first | (refine Keeps.cut (s₀ := s₀) z ?_ ?_; rotate_left; clear_value z; intro hz; rotate_left; subst z) | (have _f := fun a => z a; clear _f; subst z; try dsimp -zeta only) | clear_value z) | with_reducible assumption | with_reducible apply State.corrStep_keeps | (with_reducible apply Keeps.foldl; intro _ _ _) | with_reducible refine Keeps.ite ?_ ?_ | (with_reducible apply Keeps.upd; with_reducible assumption)

end Sys2Proof.Machine
end

