-- ==== Sys2Proof/Laws/KeepSiphon.lean ====
section
/-! SUPPORT. What the operations of Machine/Siphon.lean keep (Laws/Keep.lean). -/
namespace Sys2Proof.Machine
set_option Elab.async false
set_option linter.all false

theorem State.moveJob_keeps {s₀ s : State} (h : Keeps s₀ s) (role : Nat) (fn : Nat) (j : SipJob × SipDesc) : Keeps s₀ (State.moveJob s role fn j) := by
  unfold State.moveJob
  repeat' first | with_reducible assumption | with_reducible apply State.pushJob_keeps | with_reducible refine Keeps.ite ?_ ?_

theorem execChAssignWrite_keeps {s₀ s : State} (h : Keeps s₀ s) (ch : Nat) (value : BitVec 32) : KeepsAns s₀ (execChAssignWrite ch value s) := by
  unfold execChAssignWrite
  repeat' first | (extract_lets +onlyGivenNames z; first | (refine Keeps.cut (s₀ := s₀) z ?_ ?_; rotate_left; clear_value z; intro hz; rotate_left; subst z) | clear_value z) | with_reducible assumption | with_reducible apply KeepsAns.next | with_reducible apply State.darkWrite_keeps | with_reducible apply State.setWord_keeps | with_reducible apply State.setB_keeps | with_reducible apply State.setChan_keeps | with_reducible apply State.setCh_keeps | with_reducible apply State.moveJob_keeps | with_reducible apply State.endEngineShort_keeps | with_reducible apply State.raise_keeps | (with_reducible apply Keeps.foldl; intro _ _ _) | with_reducible refine KeepsAns.ite ?_ ?_ | with_reducible refine Keeps.ite ?_ ?_ | (with_reducible apply Keeps.upd; with_reducible assumption)

theorem execFnWinWrite_keeps {s₀ s : State} (h : Keeps s₀ s) (fn : Nat) (value : BitVec 32) : KeepsAns s₀ (execFnWinWrite fn value s) := by
  unfold execFnWinWrite
  try dsimp only
  repeat' first | with_reducible assumption | with_reducible apply KeepsAns.next | with_reducible apply State.darkWrite_keeps | with_reducible apply State.setWord_keeps | with_reducible apply State.raise_keeps | with_reducible refine KeepsAns.ite ?_ ?_ | with_reducible refine Keeps.ite ?_ ?_

theorem execChEnable_keeps {s₀ s : State} (h : Keeps s₀ s) (ch : Nat) : KeepsAns s₀ (execChEnable ch s) := by
  unfold execChEnable
  try dsimp only
  repeat' first | with_reducible assumption | with_reducible apply KeepsAns.next | with_reducible apply State.darkWrite_keeps | with_reducible apply State.setF_keeps | with_reducible apply State.setChan_keeps | with_reducible apply State.setCh_keeps | with_reducible apply State.raise_keeps | with_reducible refine KeepsAns.ite ?_ ?_ | with_reducible refine Keeps.ite ?_ ?_ | (with_reducible apply Keeps.upd; with_reducible assumption)

theorem execChDisable_keeps {s₀ s : State} (h : Keeps s₀ s) (ch : Nat) : KeepsAns s₀ (execChDisable ch s) := by
  unfold execChDisable
  repeat' first | (extract_lets +onlyGivenNames z; first | (refine Keeps.cut (s₀ := s₀) z ?_ ?_; rotate_left; clear_value z; intro hz; rotate_left; subst z) | clear_value z) | with_reducible assumption | with_reducible apply KeepsAns.next | with_reducible apply State.darkWrite_keeps | with_reducible apply State.raise_keeps | with_reducible apply State.setF_keeps | with_reducible apply State.setChan_keeps | with_reducible apply State.setCh_keeps | with_reducible refine KeepsAns.ite ?_ ?_ | with_reducible refine Keeps.ite ?_ ?_ | (with_reducible apply Keeps.upd; with_reducible assumption)

theorem State.ringError_keeps {s₀ s : State} (h : Keeps s₀ s) (ch : Nat) : Keeps s₀ (State.ringError s ch) := by
  unfold State.ringError
  repeat' first | with_reducible assumption | with_reducible apply State.setF_keeps | with_reducible apply State.wrapInc_keeps | with_reducible apply State.setCh_keeps | with_reducible apply State.chIrq_keeps | with_reducible apply State.report_keeps

theorem execChDoorbell_keeps {s₀ s : State} (h : Keeps s₀ s) (ch : Nat) (tail : Nat) : KeepsAns s₀ (execChDoorbell ch tail s) := by
  unfold execChDoorbell
  try dsimp only
  repeat' first | with_reducible assumption | with_reducible apply KeepsAns.next | with_reducible apply State.darkWrite_keeps | with_reducible apply State.setChan_keeps | with_reducible apply State.ringError_keeps | with_reducible apply State.setF_keeps | with_reducible refine KeepsAns.ite ?_ ?_ | with_reducible refine Keeps.ite ?_ ?_ | (with_reducible apply Keeps.upd; with_reducible assumption)

theorem execChResume_keeps {s₀ s : State} (h : Keeps s₀ s) (ch : Nat) : KeepsAns s₀ (execChResume ch s) := by
  unfold execChResume
  repeat' first | with_reducible assumption | with_reducible apply KeepsAns.next | with_reducible apply State.darkWrite_keeps | with_reducible apply State.raise_keeps | with_reducible apply State.setCh_keeps | with_reducible refine KeepsAns.ite ?_ ?_ | with_reducible refine Keeps.ite ?_ ?_

theorem execChAbort_keeps {s₀ s : State} (h : Keeps s₀ s) (ch : Nat) (resume : Bool) : KeepsAns s₀ (execChAbort ch resume s) := by
  unfold execChAbort
  try dsimp only
  repeat' first | with_reducible assumption | with_reducible apply KeepsAns.next | with_reducible apply State.darkWrite_keeps | with_reducible apply State.raise_keeps | with_reducible apply State.setChan_keeps | with_reducible refine KeepsAns.ite ?_ ?_ | with_reducible refine Keeps.ite ?_ ?_ | split | (with_reducible apply Keeps.upd; with_reducible assumption)

theorem execChDescriptorFetch_keeps {s₀ s : State} (h : Keeps s₀ s) (ch : Nat) : KeepsAns s₀ (execChDescriptorFetch ch s) := by
  unfold execChDescriptorFetch
  try dsimp only
  repeat' first | with_reducible assumption | with_reducible apply KeepsAns.next | with_reducible apply State.setChan_keeps | with_reducible refine KeepsAns.ite ?_ ?_ | with_reducible refine Keeps.ite ?_ ?_ | (with_reducible apply Keeps.upd; with_reducible assumption)

theorem State.fetchReads_keeps {s₀ s : State} (h : Keeps s₀ s) (ch : Nat) : Keeps s₀ (State.fetchReads s ch) := by
  unfold State.fetchReads
  repeat' first | with_reducible assumption | with_reducible apply State.readAhead_keeps | with_reducible refine Keeps.ite ?_ ?_ | split

theorem execChDescriptor_keeps {s₀ s : State} (h : Keeps s₀ s) (ch : Nat) (desc : Option (List (BitVec 8))) : KeepsAns s₀ (execChDescriptor ch desc s) := by
  unfold execChDescriptor
  try dsimp only
  repeat' first | with_reducible assumption | with_reducible apply KeepsAns.next | with_reducible apply State.setChan_keeps | with_reducible apply State.setCh_keeps | with_reducible apply State.fetchReads_keeps | with_reducible refine KeepsAns.ite ?_ ?_ | with_reducible refine Keeps.ite ?_ ?_ | split | (with_reducible apply Keeps.upd; with_reducible assumption)

theorem State.writeFixed_keeps {s₀ : State} (fn : Nat) (d : SipDesc) (bs : List Byte) (fuel : Nat) : ∀ (s : State) (_ : Keeps s₀ s), Keeps s₀ (State.writeFixed s fn d bs fuel) := by
  induction fuel generalizing fn d bs with
  | zero => intro s h; unfold State.writeFixed; exact h
  | succ fuel ih =>
    intro s h
    unfold State.writeFixed
    repeat' first | with_reducible assumption | with_reducible apply ih | with_reducible apply State.writeData_keeps | with_reducible refine Keeps.ite ?_ ?_

theorem State.deliver_keeps {s₀ s : State} (h : Keeps s₀ s) (ch : Nat) (d : SipDesc) (done : Nat) (bs : List Byte) : Keeps s₀ (State.deliver s ch d done bs).1 := by
  unfold State.deliver
  repeat' first | (extract_lets +onlyGivenNames z; first | (refine Keeps.cut (s₀ := s₀) z ?_ ?_; rotate_left; clear_value z; intro hz; rotate_left; subst z) | (refine Keeps.cut (s₀ := s₀) (z : _ × State).2 ?_ ?_; rotate_left; clear_value z; intro hz; rotate_left; subst z) | (refine Keeps.cut (s₀ := s₀) (z : State × _).1 ?_ ?_; rotate_left; clear_value z; intro hz; rotate_left; subst z) | (refine Keeps.cut (s₀ := s₀) (z : _ × _ × State).2.2 ?_ ?_; rotate_left; clear_value z; intro hz; rotate_left; subst z) | clear_value z) | with_reducible assumption | with_reducible apply State.invalidateTiles_keeps | (refine State.allocDirect_keeps ?_ (by assumption)) | with_reducible apply State.raise_keeps | with_reducible apply State.sliceVector_keeps | with_reducible apply State.writeSpace_keeps | with_reducible apply State.sealDirect_keeps | with_reducible apply State.reloadTiles_keeps | with_reducible apply State.writeFixed_keeps | with_reducible apply State.writeData_keeps | with_reducible refine Keeps.ite ?_ ?_ | with_reducible refine Keeps.ite_snd ?_ ?_ | with_reducible refine Keeps.ite_fst ?_ ?_ | split | dsimp only

theorem State.countBytes_keeps {s₀ s : State} (h : Keeps s₀ s) (ch : Nat) (n : Nat) : Keeps s₀ (State.countBytes s ch n) := by
  unfold State.countBytes
  repeat' first | with_reducible assumption | with_reducible apply State.set64_keeps

theorem State.hostBurst_keeps {s₀ s : State} (h : Keeps s₀ s) (ch : Nat) (x : SipXfer) (data : List Byte) (offs : List (BitVec 32)) (fail : Nat) : Keeps s₀ (State.hostBurst s ch x data offs fail) := by
  unfold State.hostBurst
  try dsimp only
  repeat' first | with_reducible assumption | with_reducible apply State.setChan_keeps | with_reducible apply State.deliver_keeps | with_reducible apply State.countBytes_keeps | (refine Keeps.of_fst ?_ (by assumption)) | with_reducible refine Keeps.ite ?_ ?_ | with_reducible refine Keeps.ite_snd ?_ ?_ | with_reducible refine Keeps.ite_fst ?_ ?_ | split | (with_reducible apply Keeps.upd; first | with_reducible assumption | with_reducible apply State.setChan_keeps | with_reducible apply State.deliver_keeps | with_reducible apply State.countBytes_keeps) | dsimp only

theorem State.landStream_keeps {s₀ s : State} (h : Keeps s₀ s) (page : Nat) (st : Nat) (bs : List Byte) : Keeps s₀ (State.landStream s page st bs) := by
  unfold State.landStream
  try dsimp only
  repeat' first | with_reducible assumption | with_reducible refine Keeps.ite ?_ ?_ | (with_reducible apply Keeps.upd; with_reducible assumption)

theorem State.killStream_keeps {s₀ s : State} (h : Keeps s₀ s) (page : Nat) (st : Nat) : Keeps s₀ (State.killStream s page st) := by
  unfold State.killStream
  try dsimp only
  repeat' first | with_reducible assumption | with_reducible refine Keeps.ite ?_ ?_ | (with_reducible apply Keeps.upd; with_reducible assumption)

theorem State.jobBurst_keeps {s₀ s : State} (h : Keeps s₀ s) (ch : Nat) (x : SipXfer) (j : SipJob) (data : List Byte) (fail : Nat) : Keeps s₀ (State.jobBurst s ch x j data fail) := by
  unfold State.jobBurst
  repeat' first | (extract_lets +onlyGivenNames z; first | (refine Keeps.cut (s₀ := s₀) z ?_ ?_; rotate_left; clear_value z; intro hz; rotate_left; subst z) | (have _f := fun a => z a; clear _f; subst z; try dsimp -zeta only) | clear_value z) | with_reducible assumption | with_reducible apply State.setChan_keeps | with_reducible apply State.spoilPage_keeps | with_reducible apply State.killStream_keeps | with_reducible apply State.landStream_keeps | with_reducible apply State.copyLand_keeps | with_reducible apply State.countBytes_keeps | with_reducible apply State.modCopy_keeps | with_reducible apply State.modTile_keeps | with_reducible apply State.fillBurst_keeps | with_reducible apply State.pin_keeps | with_reducible apply State.pinBurst_keeps | (with_reducible apply Keeps.dram; with_reducible assumption) | with_reducible refine Keeps.ite ?_ ?_ | split | (with_reducible apply Keeps.upd; with_reducible assumption)

theorem execSipBurst_keeps {s₀ s : State} (h : Keeps s₀ s) (ch : Nat) (data : List (BitVec 8)) (offs : List (BitVec 32)) (fail : Nat) : KeepsAns s₀ (execSipBurst ch data offs fail s) := by
  unfold execSipBurst
  repeat' first | (extract_lets +onlyGivenNames z; first | (refine Keeps.cut (s₀ := s₀) z ?_ ?_; rotate_left; clear_value z; intro hz; rotate_left; subst z) | clear_value z) | with_reducible assumption | with_reducible apply KeepsAns.next | with_reducible apply State.ringRoom_keeps | with_reducible apply State.hostBurst_keeps | with_reducible apply State.jobBurst_keeps | with_reducible apply State.fetchReads_keeps | with_reducible refine KeepsAns.ite ?_ ?_ | with_reducible refine Keeps.ite ?_ ?_ | split | (with_reducible apply Keeps.upd; with_reducible assumption)

theorem State.sealPart_keeps {s₀ s : State} (h : Keeps s₀ s) (fn : Nat) (x : SipXfer) : Keeps s₀ (State.sealPart s fn x) := by
  unfold State.sealPart
  try dsimp only
  repeat' first | with_reducible assumption | with_reducible apply State.sealDirect_keeps | with_reducible apply State.reloadTiles_keeps | with_reducible refine Keeps.ite ?_ ?_

theorem execDescriptorComplete_keeps {s₀ s : State} (h : Keeps s₀ s) (ch : Nat) : KeepsAns s₀ (execDescriptorComplete ch s) := by
  unfold execDescriptorComplete
  try dsimp only
  repeat' first | with_reducible assumption | with_reducible apply KeepsAns.next | with_reducible apply State.sealPart_keeps | with_reducible apply State.setChan_keeps | with_reducible apply State.emit_keeps | with_reducible apply State.finishDesc_keeps | with_reducible apply State.issueAll_keeps | with_reducible refine KeepsAns.ite ?_ ?_ | with_reducible refine Keeps.ite ?_ ?_ | split | (with_reducible apply Keeps.upd; with_reducible assumption)

theorem execBarrierReadComplete_keeps {s₀ s : State} (h : Keeps s₀ s) (ch : Nat) (ok : Bool) : KeepsAns s₀ (execBarrierReadComplete ch ok s) := by
  unfold execBarrierReadComplete
  repeat' first | (extract_lets +onlyGivenNames z; first | (refine Keeps.cut (s₀ := s₀) z ?_ ?_; rotate_left; clear_value z; intro hz; rotate_left; subst z) | clear_value z) | with_reducible assumption | with_reducible apply KeepsAns.next | with_reducible apply State.finishDesc_keeps | with_reducible refine KeepsAns.ite ?_ ?_ | with_reducible refine Keeps.ite ?_ ?_ | split | (with_reducible apply Keeps.upd; with_reducible assumption)

end Sys2Proof.Machine
end

