-- ==== Sys2Proof/Laws/KeepSpool.lean ====
section
/-! SUPPORT. What the operations of Machine/Spool.lean keep (Laws/Keep.lean). -/
namespace Sys2Proof.Machine
set_option Elab.async false
set_option linter.all false

theorem State.startEpoch_keeps {s₀ s : State} (h : Keeps s₀ s) (journalOk : Bool) (burnOk : Bool) : Keeps s₀ (State.startEpoch s journalOk burnOk) := by
  unfold State.startEpoch
  repeat' first | (extract_lets +onlyGivenNames z; first | (refine Keeps.cut (s₀ := s₀) z ?_ ?_; rotate_left; clear_value z; intro hz; rotate_left; subst z) | (refine Keeps.cut (s₀ := s₀) (z : _ × State).2 ?_ ?_; rotate_left; clear_value z; intro hz; rotate_left; subst z) | (refine Keeps.cut (s₀ := s₀) (z : State × _).1 ?_ ?_; rotate_left; clear_value z; intro hz; rotate_left; subst z) | (refine Keeps.cut (s₀ := s₀) (z : _ × _ × State).2.2 ?_ ?_; rotate_left; clear_value z; intro hz; rotate_left; subst z) | clear_value z) | with_reducible assumption | with_reducible apply State.thermoTo_keeps | with_reducible apply State.setF_keeps | with_reducible apply State.setWord_keeps | with_reducible apply State.set64_keeps | with_reducible apply State.drawn_keeps | (refine Keeps.of_snd ?_ (by assumption)) | with_reducible refine Keeps.ite ?_ ?_ | with_reducible refine Keeps.ite_snd ?_ ?_ | with_reducible refine Keeps.ite_fst ?_ ?_ | split | (with_reducible apply Keeps.upd; first | with_reducible assumption | with_reducible apply State.thermoTo_keeps | with_reducible apply State.setF_keeps | with_reducible apply State.setWord_keeps | with_reducible apply State.set64_keeps | with_reducible apply State.drawn_keeps) | dsimp only

theorem State.closeSpool_keeps {s₀ s : State} (h : Keeps s₀ s) : Keeps s₀ (State.closeSpool s) := by
  unfold State.closeSpool
  repeat' first | (extract_lets +onlyGivenNames z; first | (refine Keeps.cut (s₀ := s₀) z ?_ ?_; rotate_left; clear_value z; intro hz; rotate_left; subst z) | clear_value z) | with_reducible assumption | with_reducible apply State.issueAll_keeps | with_reducible apply State.emit_keeps | (with_reducible apply Keeps.foldl; intro _ _ _) | with_reducible refine Keeps.ite ?_ ?_ | (with_reducible apply Keeps.upd; with_reducible assumption)

theorem State.spoolNext_keeps {s₀ s : State} (h : Keeps s₀ s) : Keeps s₀ (State.spoolNext s) := by
  unfold State.spoolNext
  repeat' first | (extract_lets +onlyGivenNames z; first | (refine Keeps.cut (s₀ := s₀) z ?_ ?_; rotate_left; clear_value z; intro hz; rotate_left; subst z) | clear_value z) | with_reducible assumption | with_reducible apply State.refreshRefusal_keeps | with_reducible apply State.sealAll_keeps | with_reducible apply State.fetchReads_keeps | with_reducible apply State.closeSpool_keeps | (with_reducible apply Keeps.foldl; intro _ _ _) | with_reducible refine Keeps.ite ?_ ?_

theorem State.cmdDone_keeps {s₀ s : State} (h : Keeps s₀ s) (op : NvmeOp) : Keeps s₀ (State.cmdDone s op) := by
  unfold State.cmdDone
  try dsimp only
  repeat' first | with_reducible assumption | with_reducible apply State.modCopy_keeps | with_reducible apply State.copyNext_keeps | with_reducible apply State.releaseWaiting_keeps | with_reducible apply State.modAudit_keeps | with_reducible apply State.modDirect_keeps | with_reducible apply State.finishDesc_keeps | with_reducible apply State.endRead_keeps | with_reducible apply State.readFailed_keeps | (with_reducible apply Keeps.foldl; intro _ _ _) | with_reducible refine Keeps.ite ?_ ?_ | split | (with_reducible apply Keeps.upd; with_reducible assumption)

theorem State.cmdFailed_keeps {s₀ s : State} (h : Keeps s₀ s) (op : NvmeOp) : Keeps s₀ (State.cmdFailed s op) := by
  unfold State.cmdFailed
  repeat' first | (extract_lets +onlyGivenNames z; first | (refine Keeps.cut (s₀ := s₀) z ?_ ?_; rotate_left; clear_value z; intro hz; rotate_left; subst z) | clear_value z) | with_reducible assumption | with_reducible apply State.loseCopy_keeps | with_reducible apply State.freeAudit_keeps | with_reducible apply State.report_keeps | with_reducible apply State.releaseWaiting_keeps | with_reducible apply State.modDirect_keeps | with_reducible apply State.setChan_keeps | with_reducible apply State.finishDesc_keeps | with_reducible apply State.endRead_keeps | (with_reducible apply Keeps.foldl; intro _ _ _) | with_reducible refine Keeps.ite ?_ ?_ | split | (with_reducible apply Keeps.upd; with_reducible assumption)

theorem State.cmdLost_keeps {s₀ s : State} (h : Keeps s₀ s) (twin : Option Nat) (op : NvmeOp) : Keeps s₀ (State.cmdLost s twin op) := by
  unfold State.cmdLost
  repeat' first | with_reducible assumption | with_reducible apply State.issueCmd_keeps | with_reducible apply State.cmdDone_keeps | with_reducible apply State.cmdFailed_keeps | with_reducible refine Keeps.ite ?_ ?_ | split

theorem State.failDrive_keeps {s₀ s : State} (h : Keeps s₀ s) (d : Nat) : Keeps s₀ (State.failDrive s d) := by
  unfold State.failDrive
  repeat' first | (extract_lets +onlyGivenNames z; first | (refine Keeps.cut (s₀ := s₀) z ?_ ?_; rotate_left; clear_value z; intro hz; rotate_left; subst z) | clear_value z) | with_reducible assumption | with_reducible apply State.setF_keeps | with_reducible apply State.setDrive_keeps | with_reducible apply State.report_keeps | with_reducible apply State.loseCopy_keeps | with_reducible apply State.breakCopy_keeps | with_reducible apply State.cmdLost_keeps | with_reducible apply State.syncCap_keeps | with_reducible apply State.pf_keeps | with_reducible apply State.refreshRefusal_keeps | (with_reducible apply Keeps.foldl; intro _ _ _) | with_reducible refine Keeps.ite ?_ ?_ | (with_reducible apply Keeps.upd; with_reducible assumption)

theorem State.countFailure_keeps {s₀ s : State} (h : Keeps s₀ s) (d : Nat) : Keeps s₀ (State.countFailure s d) := by
  unfold State.countFailure
  try dsimp only
  repeat' first | with_reducible assumption | with_reducible apply State.setDrive_keeps | with_reducible apply State.satInc_keeps | with_reducible apply State.failDrive_keeps | with_reducible refine Keeps.ite ?_ ?_ | (with_reducible apply Keeps.upd; with_reducible assumption)

theorem execNvmeCommandComplete_keeps {s₀ s : State} (h : Keeps s₀ s) (id : Nat) (result : Nat) : KeepsAns s₀ (execNvmeCommandComplete id result s) := by
  unfold execNvmeCommandComplete
  repeat' first | (extract_lets +onlyGivenNames z; first | (refine Keeps.cut (s₀ := s₀) z ?_ ?_; rotate_left; clear_value z; intro hz; rotate_left; subst z) | clear_value z) | with_reducible assumption | with_reducible apply KeepsAns.next | with_reducible apply State.cmdDone_keeps | with_reducible apply State.readFailed_keeps | with_reducible apply State.endRead_keeps | with_reducible apply State.cmdFailed_keeps | with_reducible apply State.countFailure_keeps | with_reducible apply State.spoolNext_keeps | split | (with_reducible apply Keeps.upd; with_reducible assumption)

theorem execNvmeCommandTimeout_keeps {s₀ s : State} (h : Keeps s₀ s) (id : Nat) : KeepsAns s₀ (execNvmeCommandTimeout id s) := by
  unfold execNvmeCommandTimeout
  try dsimp only
  repeat' first | with_reducible assumption | with_reducible apply KeepsAns.next | with_reducible apply State.countFailure_keeps | with_reducible apply State.emit_keeps | with_reducible apply State.spoolNext_keeps | with_reducible refine KeepsAns.ite ?_ ?_ | with_reducible refine Keeps.ite ?_ ?_ | split

theorem State.spoolStart_keeps {s₀ s : State} (h : Keeps s₀ s) : Keeps s₀ (State.spoolStart s) := by
  unfold State.spoolStart
  repeat' first | (extract_lets +onlyGivenNames z; first | (refine Keeps.cut (s₀ := s₀) z ?_ ?_; rotate_left; clear_value z; intro hz; rotate_left; subst z) | clear_value z) | with_reducible assumption | with_reducible apply State.setF_keeps | with_reducible apply State.setDrive_keeps | with_reducible apply State.syncCap_keeps | with_reducible apply State.refreshRefusal_keeps | (with_reducible apply Keeps.foldl; intro _ _ _) | (with_reducible apply Keeps.upd; with_reducible assumption)

theorem execSpoolEnable_keeps {s₀ s : State} (h : Keeps s₀ s) : KeepsAns s₀ (execSpoolEnable s) := by
  unfold execSpoolEnable
  try dsimp only
  repeat' first | with_reducible assumption | with_reducible apply KeepsAns.next | with_reducible apply State.darkWrite_keeps | with_reducible apply State.setSpool_keeps | with_reducible apply State.spoolStart_keeps | with_reducible refine KeepsAns.ite ?_ ?_ | with_reducible refine Keeps.ite ?_ ?_

theorem State.spoolOff_keeps {s₀ s : State} (h : Keeps s₀ s) : Keeps s₀ (State.spoolOff s) := by
  unfold State.spoolOff
  repeat' first | (extract_lets +onlyGivenNames z; first | (refine Keeps.cut (s₀ := s₀) z ?_ ?_; rotate_left; clear_value z; intro hz; rotate_left; subst z) | clear_value z) | with_reducible assumption | with_reducible apply State.setSpool_keeps | with_reducible apply State.refreshRefusal_keeps | with_reducible refine Keeps.ite ?_ ?_ | (with_reducible apply Keeps.upd; with_reducible assumption)

theorem execSpoolDisable_keeps {s₀ s : State} (h : Keeps s₀ s) : KeepsAns s₀ (execSpoolDisable s) := by
  unfold execSpoolDisable
  repeat' first | with_reducible assumption | with_reducible apply KeepsAns.next | with_reducible apply State.darkWrite_keeps | with_reducible apply State.spoolOff_keeps | with_reducible refine KeepsAns.ite ?_ ?_ | with_reducible refine Keeps.ite ?_ ?_

theorem State.driveCheck_keeps {s₀ s : State} (h : Keeps s₀ s) : Keeps s₀ (State.driveCheck s) := by
  unfold State.driveCheck
  try dsimp only
  repeat' first | with_reducible assumption | with_reducible apply State.setSpool_keeps | with_reducible apply State.refreshRefusal_keeps | with_reducible apply State.writeSalts_keeps | with_reducible apply State.setF_keeps | with_reducible apply State.pf_keeps | with_reducible apply State.composerWake_keeps | with_reducible refine Keeps.ite ?_ ?_ | (with_reducible apply Keeps.upd; with_reducible assumption)

theorem execDriveReady_keeps {s₀ s : State} (h : Keeps s₀ s) (d : Nat) (fits : Bool) (capacity : Nat) : KeepsAns s₀ (execDriveReady d fits capacity s) := by
  unfold execDriveReady
  repeat' first | (extract_lets +onlyGivenNames z; first | (refine Keeps.cut (s₀ := s₀) z ?_ ?_; rotate_left; clear_value z; intro hz; rotate_left; subst z) | clear_value z) | with_reducible assumption | with_reducible apply KeepsAns.next | with_reducible apply State.emit_keeps | with_reducible apply State.setDrive_keeps | with_reducible apply State.driveCheck_keeps | with_reducible apply State.setF_keeps | with_reducible apply State.syncCap_keeps | with_reducible apply State.pf_keeps | with_reducible apply State.refreshRefusal_keeps | (with_reducible apply Keeps.foldl; intro _ _ _) | with_reducible refine KeepsAns.ite ?_ ?_ | with_reducible refine Keeps.ite ?_ ?_ | (with_reducible apply Keeps.upd; with_reducible assumption)

theorem execDriveReadyTimeout_keeps {s₀ s : State} (h : Keeps s₀ s) (d : Nat) : KeepsAns s₀ (execDriveReadyTimeout d s) := by
  unfold execDriveReadyTimeout
  repeat' first | with_reducible assumption | with_reducible apply KeepsAns.next | with_reducible apply State.failDrive_keeps | with_reducible apply State.driveCheck_keeps | with_reducible refine KeepsAns.ite ?_ ?_ | with_reducible refine Keeps.ite ?_ ?_

theorem execDriveFailed_keeps {s₀ s : State} (h : Keeps s₀ s) (d : Nat) : KeepsAns s₀ (execDriveFailed d s) := by
  unfold execDriveFailed
  repeat' first | with_reducible assumption | with_reducible apply KeepsAns.next | with_reducible apply State.failDrive_keeps | with_reducible apply State.driveCheck_keeps | with_reducible apply State.spoolNext_keeps | with_reducible refine KeepsAns.ite ?_ ?_ | with_reducible refine Keeps.ite ?_ ?_

theorem execSpoolLinkTrained_keeps {s₀ s : State} (h : Keeps s₀ s) (d : Nat) (up : Bool) : KeepsAns s₀ (execSpoolLinkTrained d up s) := by
  unfold execSpoolLinkTrained
  try dsimp only
  repeat' first | with_reducible assumption | with_reducible apply KeepsAns.next | with_reducible apply State.setDrive_keeps | with_reducible apply State.driveCheck_keeps | with_reducible refine KeepsAns.ite ?_ ?_ | with_reducible refine Keeps.ite ?_ ?_ | (with_reducible apply Keeps.upd; with_reducible assumption)

theorem State.recharge_keeps {s₀ s : State} (h : Keeps s₀ s) : Keeps s₀ (State.recharge s) := by
  unfold State.recharge
  repeat' first | with_reducible assumption | with_reducible apply State.setF_keeps | with_reducible apply State.syncCopies_keeps | with_reducible apply State.syncCap_keeps | (with_reducible apply Keeps.foldl; intro _ _ _)

theorem execSpoolRecoveryDone_keeps {s₀ s : State} (h : Keeps s₀ s) : KeepsAns s₀ (execSpoolRecoveryDone s) := by
  unfold execSpoolRecoveryDone
  repeat' first | (extract_lets +onlyGivenNames z; first | (refine Keeps.cut (s₀ := s₀) z ?_ ?_; rotate_left; clear_value z; intro hz; rotate_left; subst z) | clear_value z) | with_reducible assumption | with_reducible apply KeepsAns.next | with_reducible apply State.unmap_keeps | with_reducible apply State.recharge_keeps | with_reducible apply State.retrySalts_keeps | with_reducible apply State.setF_keeps | with_reducible apply State.pf_keeps | (with_reducible apply Keeps.foldl; intro _ _ _) | with_reducible refine KeepsAns.ite ?_ ?_ | with_reducible refine Keeps.ite ?_ ?_ | (with_reducible apply Keeps.upd; with_reducible assumption)

theorem execEpochRollover_keeps {s₀ s : State} (h : Keeps s₀ s) (journalOk : Bool) (burnOk : Bool) (saltOk : Bool) : KeepsAns s₀ (execEpochRollover journalOk burnOk saltOk s) := by
  unfold execEpochRollover
  repeat' first | (extract_lets +onlyGivenNames z; first | (refine Keeps.cut (s₀ := s₀) z ?_ ?_; rotate_left; clear_value z; intro hz; rotate_left; subst z) | clear_value z) | with_reducible assumption | with_reducible apply KeepsAns.next | with_reducible apply State.startEpoch_keeps | with_reducible apply State.writeSalts_keeps | with_reducible apply State.refreshRefusal_keeps | with_reducible apply State.sealAll_keeps | with_reducible refine KeepsAns.ite ?_ ?_ | with_reducible refine Keeps.ite ?_ ?_

theorem State.dropDirect_keeps {s₀ s : State} (h : Keeps s₀ s) (fn : Nat) (p : DirectExt → Bool) : Keeps s₀ (State.dropDirect s fn p) := by
  unfold State.dropDirect
  repeat' first | (extract_lets +onlyGivenNames z; first | (refine Keeps.cut (s₀ := s₀) z ?_ ?_; rotate_left; clear_value z; intro hz; rotate_left; subst z) | clear_value z) | with_reducible assumption | with_reducible apply State.unmap_keeps | with_reducible apply State.dealloc_keeps | (with_reducible apply Keeps.spoolClear; with_reducible assumption) | (with_reducible apply Keeps.foldl; intro _ _ _) | (with_reducible apply Keeps.upd; with_reducible assumption)

theorem execSliceQuotaWrite_keeps {s₀ s : State} (h : Keeps s₀ s) (fn : Nat) (direct : Bool) (value : BitVec 32) : KeepsAns s₀ (execSliceQuotaWrite fn direct value s) := by
  unfold execSliceQuotaWrite
  try dsimp only
  repeat' first | with_reducible assumption | with_reducible apply KeepsAns.next | with_reducible apply State.darkWrite_keeps | with_reducible apply State.raise_keeps | with_reducible apply State.setF_keeps | with_reducible apply State.dropDirect_keeps | with_reducible refine KeepsAns.ite ?_ ?_ | with_reducible refine Keeps.ite ?_ ?_

theorem execSliceTrim_keeps {s₀ s : State} (h : Keeps s₀ s) (fn : Nat) (count : Nat) : KeepsAns s₀ (execSliceTrim fn count s) := by
  unfold execSliceTrim
  repeat' first | (extract_lets +onlyGivenNames z; first | (refine Keeps.cut (s₀ := s₀) z ?_ ?_; rotate_left; clear_value z; intro hz; rotate_left; subst z) | (have _f := fun a => z a; clear _f; subst z; try dsimp -zeta only) | clear_value z) | with_reducible assumption | with_reducible apply KeepsAns.next | with_reducible apply State.darkWrite_keeps | with_reducible apply State.dropDirect_keeps | with_reducible refine KeepsAns.ite ?_ ?_ | with_reducible refine Keeps.ite ?_ ?_ | (with_reducible apply Keeps.upd; with_reducible assumption)

theorem execSliceTrimDone_keeps {s₀ s : State} (h : Keeps s₀ s) (fn : Nat) : KeepsAns s₀ (execSliceTrimDone fn s) := by
  unfold execSliceTrimDone
  try dsimp only
  repeat' first | with_reducible assumption | with_reducible apply KeepsAns.next | with_reducible apply State.setF_keeps | with_reducible apply State.raise_keeps | with_reducible apply State.sliceVector_keeps | split | (with_reducible apply Keeps.upd; with_reducible assumption)

theorem execSliceEnum_keeps {s₀ s : State} (h : Keeps s₀ s) (fn : Nat) (max : Nat) : KeepsAns s₀ (execSliceEnum fn max s) := by
  unfold execSliceEnum
  try dsimp only
  repeat' first | with_reducible assumption | with_reducible apply KeepsAns.next | with_reducible apply State.darkWrite_keeps | with_reducible refine KeepsAns.ite ?_ ?_ | with_reducible refine Keeps.ite ?_ ?_ | (with_reducible apply Keeps.upd; with_reducible assumption)

theorem execSliceEnumDone_keeps {s₀ s : State} (h : Keeps s₀ s) (fn : Nat) : KeepsAns s₀ (execSliceEnumDone fn s) := by
  unfold execSliceEnumDone
  repeat' first | (extract_lets +onlyGivenNames z; first | (refine Keeps.cut (s₀ := s₀) z ?_ ?_; rotate_left; clear_value z; intro hz; rotate_left; subst z) | clear_value z) | with_reducible assumption | with_reducible apply KeepsAns.next | with_reducible apply State.emit_keeps | with_reducible apply State.setF_keeps | with_reducible apply State.raise_keeps | with_reducible apply State.sliceVector_keeps | with_reducible refine KeepsAns.ite ?_ ?_ | with_reducible refine Keeps.ite ?_ ?_ | split | (with_reducible apply Keeps.upd; with_reducible assumption)

end Sys2Proof.Machine
end

