-- ==== Sys2Proof/Laws/KeepInspect.lean ====
section
/-! SUPPORT. What the operations of Machine/Inspect.lean keep (Laws/Keep.lean). -/
namespace Sys2Proof.Machine
set_option Elab.async false
set_option linter.all false

theorem State.setInsLink_keeps {s₀ s : State} (h : Keeps s₀ s) (side : Nat) (v : Nat) : Keeps s₀ (State.setInsLink s side v) := by
  unfold State.setInsLink
  repeat' first | with_reducible assumption | with_reducible apply State.setF_keeps | with_reducible apply State.pf_keeps | with_reducible refine Keeps.ite ?_ ?_

theorem execScanLinkLock_keeps {s₀ s : State} (h : Keeps s₀ s) (side : Nat) : KeepsAns s₀ (execScanLinkLock side s) := by
  unfold execScanLinkLock
  try dsimp only
  repeat' first | with_reducible assumption | with_reducible apply KeepsAns.next | with_reducible apply State.setF_keeps | with_reducible apply State.setInsLink_keeps | with_reducible apply State.setInsSide_keeps | with_reducible refine KeepsAns.ite ?_ ?_ | with_reducible refine Keeps.ite ?_ ?_ | (with_reducible apply Keeps.upd; with_reducible assumption)

theorem State.endCapture_keeps {s₀ s : State} (h : Keeps s₀ s) (side : Nat) (code : Nat) : Keeps s₀ (State.endCapture s side code) := by
  unfold State.endCapture
  try dsimp only
  repeat' first | with_reducible assumption | with_reducible apply State.modInsSide_keeps | with_reducible apply State.setF_keeps | with_reducible apply State.pf_keeps | (with_reducible apply Keeps.upd; with_reducible assumption)

theorem State.insLinkDown_keeps {s₀ s : State} (h : Keeps s₀ s) (side : Nat) (v : Nat) (lanes : Nat) : Keeps s₀ (State.insLinkDown s side v lanes) := by
  unfold State.insLinkDown
  repeat' first | (extract_lets +onlyGivenNames z; first | (refine Keeps.cut (s₀ := s₀) z ?_ ?_; rotate_left; clear_value z; intro hz; rotate_left; subst z) | clear_value z) | with_reducible assumption | with_reducible apply State.setF_keeps | with_reducible apply State.setInsLink_keeps | with_reducible apply State.modInsSide_keeps | with_reducible apply State.endCapture_keeps | with_reducible refine Keeps.ite ?_ ?_ | (with_reducible apply Keeps.upd; with_reducible assumption)

theorem execScanLinkLockLoss_keeps {s₀ s : State} (h : Keeps s₀ s) (side : Nat) (lanes : BitVec 4) : KeepsAns s₀ (execScanLinkLockLoss side lanes s) := by
  unfold execScanLinkLockLoss
  repeat' first | with_reducible assumption | with_reducible apply KeepsAns.next | with_reducible apply State.satInc_keeps | with_reducible apply State.insLinkDown_keeps | with_reducible refine KeepsAns.ite ?_ ?_ | with_reducible refine Keeps.ite ?_ ?_

theorem State.compareDue_keeps {s₀ : State} (side : Nat) (seq : Nat) (pos : Int) (fuel : Nat) : ∀ (s : State) (_ : Keeps s₀ s), Keeps s₀ (State.compareDue s side seq pos fuel) := by
  induction fuel generalizing side seq pos with
  | zero => intro s h; unfold State.compareDue; exact h
  | succ fuel ih =>
    intro s h
    unfold State.compareDue
    repeat' first | with_reducible assumption | with_reducible apply ih | with_reducible apply State.compareFurrow_keeps | with_reducible refine Keeps.ite ?_ ?_ | split

theorem State.noteLine_keeps {s₀ s : State} (h : Keeps s₀ s) (side : Nat) (lseq : BitVec 32) (b : CisLine) : Keeps s₀ (State.noteLine s side lseq b) := by
  unfold State.noteLine
  extract_lets u v
  have hu : Keeps s₀ u := by
    simp only [u]
    split
    · exact State.setB_keeps (State.setF_keeps h _ _) _ _
    · exact h
  have hv : Keeps s₀ v := State.modInsSide_keeps hu _ _
  exact Keeps.ite (State.modInsSide_keeps hv _ _) hv

theorem State.storeAudit_keeps {s₀ s : State} (h : Keeps s₀ s) (p : Page) (side : Nat) (data : List Byte) : Keeps s₀ (State.storeAudit s p side data) := by
  unfold State.storeAudit
  repeat' first | (extract_lets +onlyGivenNames z; first | (refine Keeps.cut (s₀ := s₀) z ?_ ?_; rotate_left; clear_value z; intro hz; rotate_left; subst z) | clear_value z) | with_reducible assumption | with_reducible apply State.report_keeps | with_reducible apply State.freeAudit_keeps | with_reducible apply State.alloc_keeps | with_reducible apply State.auditAdvance_keeps | (with_reducible apply Keeps.foldl; intro _ _ _) | with_reducible refine Keeps.ite ?_ ?_ | (with_reducible apply Keeps.upd; with_reducible assumption)

theorem State.auditStart_keeps {s₀ s : State} (h : Keeps s₀ s) (y : InsPage) : Keeps s₀ (State.auditStart s y) := by
  unfold State.auditStart
  try dsimp only
  repeat' first | with_reducible assumption | with_reducible apply State.setF_keeps | with_reducible apply State.setWord_keeps | with_reducible apply State.setJobState_keeps | with_reducible apply State.modInsPage_keeps | (with_reducible apply Keeps.upd; with_reducible assumption)

theorem State.auditEnd_keeps {s₀ s : State} (h : Keeps s₀ s) (p : Page) (y : InsPage) : Keeps s₀ (State.auditEnd s p y) := by
  unfold State.auditEnd
  repeat' first | (extract_lets +onlyGivenNames z; first | (refine Keeps.cut (s₀ := s₀) z ?_ ?_; rotate_left; clear_value z; intro hz; rotate_left; subst z) | clear_value z) | with_reducible assumption | with_reducible apply State.setF_keeps | with_reducible apply State.endJob_keeps | with_reducible apply State.modInsPage_keeps | with_reducible apply State.storeAudit_keeps | (with_reducible apply Keeps.upd; with_reducible assumption)

theorem State.auditRow_keeps {s₀ s : State} (h : Keeps s₀ s) (p : Page) (side : Nat) (r : Nat) : Keeps s₀ (State.auditRow s p side r) := by
  unfold State.auditRow
  repeat' first | (extract_lets +onlyGivenNames z; first | (refine Keeps.cut (s₀ := s₀) z ?_ ?_; rotate_left; clear_value z; intro hz; rotate_left; subst z) | clear_value z) | with_reducible assumption | with_reducible apply State.auditEnd_keeps | with_reducible apply State.auditStart_keeps | with_reducible apply State.setF_keeps | (with_reducible apply Keeps.foldl; intro _ _ _) | with_reducible refine Keeps.ite ?_ ?_ | split

theorem State.auditLast_keeps {s₀ s : State} (h : Keeps s₀ s) (p : Page) (y : InsPage) : Keeps s₀ (State.auditLast s p y) := by
  unfold State.auditLast
  try dsimp only
  repeat' first | with_reducible assumption | with_reducible apply State.modInsPage_keeps | with_reducible apply State.auditCut_keeps | with_reducible apply State.auditStart_keeps | with_reducible apply State.auditEnd_keeps | with_reducible refine Keeps.ite ?_ ?_ | split | (with_reducible apply Keeps.upd; with_reducible assumption)

theorem State.rowsBetween_keeps {s₀ s : State} (h : Keeps s₀ s) (side : Nat) (a : CisLine) (b : CisLine) (near : Bool) : Keeps s₀ (State.rowsBetween s side a b near) := by
  unfold State.rowsBetween
  try dsimp only
  repeat' first | with_reducible assumption | with_reducible apply State.modInsPage_keeps | with_reducible apply State.auditRow_keeps | with_reducible apply State.compareDue_keeps | (with_reducible apply Keeps.foldl; intro _ _ _) | with_reducible refine Keeps.ite ?_ ?_ | split | (with_reducible apply Keeps.upd; with_reducible assumption)

theorem execCisLine_keeps {s₀ s : State} (h : Keeps s₀ s) (side : Nat) (lanes : List (List (Bool × BitVec 64))) : KeepsAns s₀ (execCisLine side lanes s) := by
  unfold execCisLine
  try dsimp only
  repeat' first | with_reducible assumption | with_reducible apply KeepsAns.next | with_reducible apply State.satInc_keeps | with_reducible apply State.noteLine_keeps | with_reducible apply State.rowsBetween_keeps | with_reducible refine KeepsAns.ite ?_ ?_ | with_reducible refine Keeps.ite ?_ ?_ | split

theorem State.judgeSide_keeps {s₀ s : State} (h : Keeps s₀ s) (p : Page) (y : InsPage) : Keeps s₀ (State.judgeSide s p y).2.2 := by
  unfold State.judgeSide
  repeat' first | (extract_lets +onlyGivenNames z; first | (refine Keeps.cut (s₀ := s₀) z ?_ ?_; rotate_left; clear_value z; intro hz; rotate_left; subst z) | (refine Keeps.cut (s₀ := s₀) (z : _ × State).2 ?_ ?_; rotate_left; clear_value z; intro hz; rotate_left; subst z) | (refine Keeps.cut (s₀ := s₀) (z : State × _).1 ?_ ?_; rotate_left; clear_value z; intro hz; rotate_left; subst z) | (refine Keeps.cut (s₀ := s₀) (z : _ × _ × State).2.2 ?_ ?_; rotate_left; clear_value z; intro hz; rotate_left; subst z) | clear_value z) | with_reducible assumption | with_reducible apply State.measure_keeps | (with_reducible apply Keeps.foldl; intro _ _ _) | (with_reducible apply Keeps.foldl_snd; intro _ _ _) | (with_reducible apply Keeps.foldl_fst; intro _ _ _) | (refine Keeps.of_snd ?_ (by assumption)) | with_reducible refine Keeps.ite ?_ ?_ | with_reducible refine Keeps.ite_snd ?_ ?_ | with_reducible refine Keeps.ite_fst ?_ ?_ | split | (with_reducible apply Keeps.upd; first | with_reducible assumption | with_reducible apply State.measure_keeps) | dsimp only

theorem State.sweepPage_keeps {s₀ s : State} (h : Keeps s₀ s) (side : Nat) : Keeps s₀ (State.sweepPage s side) := by
  unfold State.sweepPage
  try dsimp only
  repeat' first | with_reducible assumption | with_reducible refine Keeps.ite ?_ ?_ | (with_reducible apply Keeps.upd; with_reducible assumption)

theorem State.sideResult_keeps {s₀ s : State} (h : Keeps s₀ s) (side : Nat) (y0 : InsPage) (p : Page) : Keeps s₀ (State.sideResult s side y0 p) := by
  unfold State.sideResult
  repeat' first | (extract_lets +onlyGivenNames z; first | (refine Keeps.cut (s₀ := s₀) z ?_ ?_; rotate_left; clear_value z; intro hz; rotate_left; subst z) | (refine Keeps.cut (s₀ := s₀) (z : _ × State).2 ?_ ?_; rotate_left; clear_value z; intro hz; rotate_left; subst z) | (refine Keeps.cut (s₀ := s₀) (z : State × _).1 ?_ ?_; rotate_left; clear_value z; intro hz; rotate_left; subst z) | (refine Keeps.cut (s₀ := s₀) (z : _ × _ × State).2.2 ?_ ?_; rotate_left; clear_value z; intro hz; rotate_left; subst z) | clear_value z) | with_reducible assumption | with_reducible apply State.modInsPage_keeps | with_reducible apply State.compareDue_keeps | with_reducible apply State.auditLast_keeps | with_reducible apply State.judgeSide_keeps | with_reducible apply State.report_keeps | with_reducible apply State.modInsSide_keeps | with_reducible apply State.queueResult_keeps | with_reducible apply State.sweepPage_keeps | with_reducible apply State.pageTargets_keeps | with_reducible apply State.markStanding_keeps | with_reducible apply State.modPage_keeps | (with_reducible apply Keeps.foldl; intro _ _ _) | (with_reducible apply Keeps.foldl_snd; intro _ _ _) | (with_reducible apply Keeps.foldl_fst; intro _ _ _) | (refine Keeps.of_thd ?_ (by assumption)) | with_reducible refine Keeps.ite ?_ ?_ | with_reducible refine Keeps.ite_snd ?_ ?_ | with_reducible refine Keeps.ite_fst ?_ ?_ | split | (with_reducible apply Keeps.upd; first | with_reducible assumption | with_reducible apply State.modInsPage_keeps | with_reducible apply State.compareDue_keeps | with_reducible apply State.auditLast_keeps | with_reducible apply State.judgeSide_keeps | with_reducible apply State.report_keeps | with_reducible apply State.modInsSide_keeps | with_reducible apply State.queueResult_keeps | with_reducible apply State.sweepPage_keeps | with_reducible apply State.pageTargets_keeps | with_reducible apply State.markStanding_keeps | with_reducible apply State.modPage_keeps) | dsimp only

theorem State.pageVerdict_keeps {s₀ s : State} (h : Keeps s₀ s) (p : Page) : Keeps s₀ (State.pageVerdict s p) := by
  unfold State.pageVerdict
  try dsimp only
  repeat' first | with_reducible assumption | with_reducible apply State.insDrop_keeps | with_reducible apply State.modPage_keeps | with_reducible apply State.finalState_keeps | (with_reducible apply Keeps.foldl; intro _ _ _) | with_reducible refine Keeps.ite ?_ ?_ | (with_reducible apply Keeps.upd; with_reducible assumption)

theorem execInspectionResultComplete_keeps {s₀ s : State} (h : Keeps s₀ s) (side : Nat) : KeepsAns s₀ (execInspectionResultComplete side s) := by
  unfold execInspectionResultComplete
  try dsimp only
  repeat' first | with_reducible assumption | with_reducible apply KeepsAns.next | with_reducible apply State.modInsSide_keeps | with_reducible apply State.insDrop_keeps | with_reducible apply State.sideResult_keeps | with_reducible apply State.pageVerdict_keeps | with_reducible refine KeepsAns.ite ?_ ?_ | with_reducible refine Keeps.ite ?_ ?_ | split | (with_reducible apply Keeps.upd; with_reducible assumption)

theorem execInsAck_keeps {s₀ s : State} (h : Keeps s₀ s) (side : Nat) (seq : Nat) : KeepsAns s₀ (execInsAck side seq s) := by
  unfold execInsAck
  try dsimp only
  repeat' first | with_reducible assumption | with_reducible apply KeepsAns.next | with_reducible apply State.darkWrite_keeps | with_reducible apply State.reportAccess_keeps | with_reducible apply State.setInsSide_keeps | with_reducible apply State.insWindow_keeps | with_reducible apply State.raise_keeps | with_reducible refine KeepsAns.ite ?_ ?_ | with_reducible refine Keeps.ite ?_ ?_ | (with_reducible apply Keeps.upd; with_reducible assumption)

theorem State.calGo_keeps {s₀ s : State} (h : Keeps s₀ s) (side : Nat) (op : Nat) : Keeps s₀ (State.calGo s side op) := by
  unfold State.calGo
  try dsimp only
  repeat' first | with_reducible assumption | with_reducible apply State.darkWrite_keeps | with_reducible apply State.reportAccess_keeps | with_reducible apply State.raise_keeps | with_reducible apply State.modInsSide_keeps | with_reducible apply State.setF_keeps | with_reducible refine Keeps.ite ?_ ?_ | (with_reducible apply Keeps.upd; with_reducible assumption)

theorem execCalWhite_keeps {s₀ s : State} (h : Keeps s₀ s) (side : Nat) : KeepsAns s₀ (execCalWhite side s) := by
  unfold execCalWhite
  repeat' first | with_reducible assumption | with_reducible apply KeepsAns.next | with_reducible apply State.calGo_keeps

theorem execCalChart_keeps {s₀ s : State} (h : Keeps s₀ s) (side : Nat) : KeepsAns s₀ (execCalChart side s) := by
  unfold execCalChart
  repeat' first | with_reducible assumption | with_reducible apply KeepsAns.next | with_reducible apply State.calGo_keeps

theorem execCalCaptureDone_keeps {s₀ s : State} (h : Keeps s₀ s) (side : Nat) : KeepsAns s₀ (execCalCaptureDone side s) := by
  unfold execCalCaptureDone
  try dsimp only
  repeat' first | with_reducible assumption | with_reducible apply KeepsAns.next | with_reducible apply State.endCapture_keeps | with_reducible apply State.setInsSide_keeps | with_reducible apply State.setF_keeps | with_reducible refine KeepsAns.ite ?_ ?_ | with_reducible refine Keeps.ite ?_ ?_ | split | (with_reducible apply Keeps.upd; with_reducible assumption)

theorem State.takeCal_keeps {s₀ s : State} (h : Keeps s₀ s) (side : Nat) : Keeps s₀ (State.takeCal s side) := by
  unfold State.takeCal
  repeat' first | (extract_lets +onlyGivenNames z; first | (refine Keeps.cut (s₀ := s₀) z ?_ ?_; rotate_left; clear_value z; intro hz; rotate_left; subst z) | clear_value z) | with_reducible assumption | with_reducible apply State.modInsSide_keeps | split | (with_reducible apply Keeps.upd; with_reducible assumption)

theorem execAuditExport_keeps {s₀ s : State} (h : Keeps s₀ s) : KeepsAns s₀ (execAuditExport s) := by
  unfold execAuditExport
  try dsimp only
  repeat' first | with_reducible assumption | with_reducible apply KeepsAns.next | with_reducible apply State.darkWrite_keeps | with_reducible apply State.raise_keeps | with_reducible apply State.setF_keeps | with_reducible refine KeepsAns.ite ?_ ?_ | with_reducible refine Keeps.ite ?_ ?_

theorem State.endAudit_keeps {s₀ s : State} (h : Keeps s₀ s) (code : Nat) (n : Nat) : Keeps s₀ (State.endAudit s code n) := by
  unfold State.endAudit
  repeat' first | with_reducible assumption | with_reducible apply State.setF_keeps | with_reducible apply State.pf_keeps

theorem execAuditExportDone_keeps {s₀ s : State} (h : Keeps s₀ s) (fail : Nat) : KeepsAns s₀ (execAuditExportDone fail s) := by
  unfold execAuditExportDone
  try dsimp only
  repeat' first | with_reducible assumption | with_reducible apply KeepsAns.next | with_reducible apply State.endAudit_keeps | (with_reducible apply Keeps.dram; with_reducible assumption) | with_reducible refine KeepsAns.ite ?_ ?_ | with_reducible refine Keeps.ite ?_ ?_ | split | (with_reducible apply Keeps.upd; with_reducible assumption)

end Sys2Proof.Machine
end

