-- ==== Sys2Proof/Laws/KeepLoopOps.lean ====
section
/-! SUPPORT. What the operations of Machine/LoopOps.lean keep (Laws/Keep.lean). -/
namespace Sys2Proof.Machine
set_option Elab.async false
set_option linter.all false

theorem State.lpDrive_keeps {s₀ s : State} (h : Keeps s₀ s) (lp : Nat) (u : F32) : Keeps s₀ (State.lpDrive s lp u) := by
  unfold State.lpDrive
  try dsimp only
  repeat' first | with_reducible assumption | with_reducible apply State.setF_keeps | with_reducible apply State.putOut_keeps | with_reducible refine Keeps.ite ?_ ?_

theorem State.lpSafe_keeps {s₀ s : State} (h : Keeps s₀ s) (lp : Nat) : Keeps s₀ (State.lpSafe s lp) := by
  unfold State.lpSafe
  repeat' first | (extract_lets +onlyGivenNames z; first | (refine Keeps.cut (s₀ := s₀) z ?_ ?_; rotate_left; clear_value z; intro hz; rotate_left; subst z) | clear_value z) | with_reducible assumption | with_reducible apply State.lpDrive_keeps | with_reducible refine Keeps.ite ?_ ?_ | (with_reducible apply Keeps.upd; with_reducible assumption)

theorem State.syncLoops_keeps {s₀ s : State} (h : Keeps s₀ s) : Keeps s₀ (State.syncLoops s) := by
  unfold State.syncLoops
  repeat' first | (extract_lets +onlyGivenNames z; first | (refine Keeps.cut (s₀ := s₀) z ?_ ?_; rotate_left; clear_value z; intro hz; rotate_left; subst z) | clear_value z) | with_reducible assumption | with_reducible apply State.setF_keeps | with_reducible apply State.set64_keeps | with_reducible apply State.setB_keeps | (with_reducible apply Keeps.foldl; intro _ _ _)

theorem State.lpTo_keeps {s₀ s : State} (h : Keeps s₀ s) (lp : Nat) (v : Nat) : Keeps s₀ (State.lpTo s lp v) := by
  unfold State.lpTo
  try dsimp only
  repeat' first | with_reducible assumption | with_reducible apply State.mark_keeps | with_reducible apply State.setF_keeps | with_reducible apply State.syncLoops_keeps | with_reducible apply State.setPoly_keeps | with_reducible refine Keeps.ite ?_ ?_

theorem State.lpOff_keeps {s₀ s : State} (h : Keeps s₀ s) (lp : Nat) : Keeps s₀ (State.lpOff s lp) := by
  unfold State.lpOff
  try dsimp only
  repeat' first | with_reducible assumption | with_reducible apply State.lpSafe_keeps | with_reducible apply State.modLoop_keeps | with_reducible apply State.lpTo_keeps | with_reducible apply State.setF_keeps | (with_reducible apply Keeps.upd; with_reducible assumption)

theorem State.lpFail_keeps {s₀ s : State} (h : Keeps s₀ s) (lp : Nat) (code : Nat) : Keeps s₀ (State.lpFail s lp code) := by
  unfold State.lpFail
  repeat' first | (extract_lets +onlyGivenNames z; first | (refine Keeps.cut (s₀ := s₀) z ?_ ?_; rotate_left; clear_value z; intro hz; rotate_left; subst z) | clear_value z) | with_reducible assumption | with_reducible apply State.modLoop_keeps | with_reducible apply State.setF_keeps | with_reducible apply State.satInc_keeps | with_reducible apply State.lpTo_keeps | with_reducible apply State.report_keeps | with_reducible apply State.pf_keeps | (with_reducible apply Keeps.upd; with_reducible assumption)

theorem State.lpFaults_keeps {s₀ : State} (fuel : Nat) (l : List (Nat × Nat)) : ∀ (s : State) (_ : Keeps s₀ s), Keeps s₀ (State.lpFaults s fuel l) := by
  induction fuel generalizing l with
  | zero => intro s h; unfold State.lpFaults; exact h
  | succ fuel ih =>
    intro s h
    cases l with
    | nil => unfold State.lpFaults; exact h
    | cons x t =>
      unfold State.lpFaults
      exact Keeps.ite (ih _ _ (State.lpFail_keeps h _ _)) (ih _ _ h)

theorem State.lpFault_keeps {s₀ s : State} (h : Keeps s₀ s) (lp : Nat) (code : Nat) : Keeps s₀ (State.lpFault s lp code) := by
  unfold State.lpFault
  repeat' first | with_reducible assumption | with_reducible apply State.lpFaults_keeps | (refine Keeps.of_snd ?_ (by assumption)) | split | dsimp only

theorem State.nodeGone_keeps {s₀ s : State} (h : Keeps s₀ s) (p : Nat) (node : Nat) : Keeps s₀ (State.nodeGone s p node) := by
  unfold State.nodeGone
  try dsimp only
  repeat' first | with_reducible assumption | with_reducible apply State.lpFault_keeps | (with_reducible apply Keeps.foldl; intro _ _ _) | with_reducible refine Keeps.ite ?_ ?_

theorem State.polyRaw_keeps {s₀ s : State} (h : Keeps s₀ s) (st : Nat) : Keeps s₀ (State.polyRaw s st).2.2 := by
  unfold State.polyRaw
  try dsimp only
  repeat' first | with_reducible assumption | with_reducible apply State.drew_keeps | with_reducible refine Keeps.ite ?_ ?_ | with_reducible refine Keeps.ite_snd ?_ ?_ | with_reducible refine Keeps.ite_fst ?_ ?_ | split | dsimp only

theorem State.lpRaw_keeps {s₀ s : State} (h : Keeps s₀ s) (lp : Nat) (code : BitVec 16) : Keeps s₀ (State.lpRaw s lp code).2.2 := by
  unfold State.lpRaw
  try dsimp only
  repeat' first | with_reducible assumption | with_reducible apply State.polyRaw_keeps | (refine Keeps.of_thd ?_ (by assumption)) | split | dsimp only

theorem State.lpShow_keeps {s₀ s : State} (h : Keeps s₀ s) (lp : Nat) (x : Loop) (sat : Bool) (ramping : Bool) : Keeps s₀ (State.lpShow s lp x sat ramping) := by
  unfold State.lpShow
  repeat' first | (extract_lets +onlyGivenNames z; first | (refine Keeps.cut (s₀ := s₀) z ?_ ?_; rotate_left; clear_value z; intro hz; rotate_left; subst z) | clear_value z) | with_reducible assumption | with_reducible apply State.setWord_keeps | with_reducible apply State.setB_keeps

theorem State.loopsStop_keeps {s₀ s : State} (h : Keeps s₀ s) : Keeps s₀ (State.loopsStop s) := by
  unfold State.loopsStop
  repeat' first | (extract_lets +onlyGivenNames z; first | (refine Keeps.cut (s₀ := s₀) z ?_ ?_; rotate_left; clear_value z; intro hz; rotate_left; subst z) | clear_value z) | with_reducible assumption | with_reducible apply State.lpOff_keeps | with_reducible apply State.modLoop_keeps | (with_reducible apply Keeps.foldl; intro _ _ _) | with_reducible refine Keeps.ite ?_ ?_ | split | (with_reducible apply Keeps.upd; with_reducible assumption)

theorem State.loopsResume_keeps {s₀ s : State} (h : Keeps s₀ s) : Keeps s₀ (State.loopsResume s) := by
  unfold State.loopsResume
  repeat' first | (extract_lets +onlyGivenNames z; first | (refine Keeps.cut (s₀ := s₀) z ?_ ?_; rotate_left; clear_value z; intro hz; rotate_left; subst z) | clear_value z) | with_reducible assumption | with_reducible apply State.modLoop_keeps | (with_reducible apply Keeps.foldl; intro _ _ _) | (with_reducible apply Keeps.upd; with_reducible assumption)

theorem State.loopsSleep_keeps {s₀ s : State} (h : Keeps s₀ s) : Keeps s₀ (State.loopsSleep s) := by
  unfold State.loopsSleep
  repeat' first | (extract_lets +onlyGivenNames z; first | (refine Keeps.cut (s₀ := s₀) z ?_ ?_; rotate_left; clear_value z; intro hz; rotate_left; subst z) | clear_value z) | with_reducible assumption | with_reducible apply State.lpOff_keeps | (with_reducible apply Keeps.foldl; intro _ _ _) | (with_reducible apply Keeps.upd; with_reducible assumption)

end Sys2Proof.Machine
end

