-- ==== Sys2Proof/Laws/KeepScan.lean ====
section
/-! SUPPORT. What the operations of Machine/Scan.lean keep (Laws/Keep.lean). -/
namespace Sys2Proof.Machine
set_option Elab.async false
set_option linter.all false

theorem State.sendSweep_keeps {s₀ s : State} (h : Keeps s₀ s) (bl : Nat) (st : Nat) (facet : Nat) (page : Option (Page × Nat)) (last : Bool) : Keeps s₀ (State.sendSweep s bl st facet page last) := by
  unfold State.sendSweep
  repeat' first | (extract_lets +onlyGivenNames z; first | (refine Keeps.cut (s₀ := s₀) z ?_ ?_; rotate_left; clear_value z; intro hz; rotate_left; subst z) | clear_value z) | with_reducible assumption | with_reducible apply State.emit_keeps | with_reducible apply State.setPort_keeps | with_reducible apply State.wrapInc_keeps | (with_reducible apply Keeps.foldl; intro _ _ _) | with_reducible refine Keeps.ite ?_ ?_ | split | (with_reducible apply Keeps.upd; with_reducible assumption)

theorem State.countFreeboard_keeps {s₀ s : State} (h : Keeps s₀ s) (st : Nat) : Keeps s₀ (State.countFreeboard s st) := by
  unfold State.countFreeboard
  try dsimp only
  repeat' first | with_reducible assumption | with_reducible apply State.setF_keeps | with_reducible apply State.lower_keeps

theorem State.followTerm_keeps {s₀ s : State} (h : Keeps s₀ s) (st : Nat) : Keeps s₀ (State.followTerm s st) := by
  unfold State.followTerm
  try dsimp only
  repeat' first | with_reducible assumption | with_reducible apply State.modScnSt_keeps | with_reducible apply State.raise_keeps | with_reducible refine Keeps.ite ?_ ?_ | split | (with_reducible apply Keeps.upd; with_reducible assumption)

theorem State.modWord_keeps {s₀ s : State} (h : Keeps s₀ s) (st : Nat) (f : Nat) (z : Nat) : Keeps s₀ (State.modWord s st f z) := by
  unfold State.modWord
  try dsimp only
  repeat' first | with_reducible assumption | with_reducible apply State.modScnSt_keeps | with_reducible apply State.raise_keeps | with_reducible apply State.scnReport_keeps | with_reducible refine Keeps.ite ?_ ?_ | (with_reducible apply Keeps.upd; with_reducible assumption)

theorem State.routeAlone_keeps {s₀ s : State} (h : Keeps s₀ s) (st : Nat) : Keeps s₀ (State.routeAlone s st) := by
  unfold State.routeAlone
  try dsimp only
  repeat' first | with_reducible assumption | with_reducible apply State.setWork_keeps | with_reducible apply State.setF_keeps | with_reducible apply State.pf_keeps | with_reducible refine Keeps.ite ?_ ?_

theorem State.fireTrigger_keeps {s₀ s : State} (h : Keeps s₀ s) (st : Nat) (pos : Nat) : Keeps s₀ (State.fireTrigger s st pos) := by
  unfold State.fireTrigger
  repeat' first | (extract_lets +onlyGivenNames z; first | (refine Keeps.cut (s₀ := s₀) z ?_ ?_; rotate_left; clear_value z; intro hz; rotate_left; subst z) | clear_value z) | with_reducible assumption | with_reducible apply State.countFreeboard_keeps | with_reducible apply State.routeAlone_keeps | with_reducible apply State.modScnSt_keeps | with_reducible apply State.setB_keeps | with_reducible apply State.followTerm_keeps | with_reducible apply State.modWord_keeps | with_reducible apply State.event_keeps | with_reducible refine Keeps.ite ?_ ?_ | (with_reducible apply Keeps.upd; with_reducible assumption)

theorem State.sweepChecks_keeps {s₀ s : State} (h : Keeps s₀ s) (st : Nat) (f : Frame) (p : Page) (k : Nat) : Keeps s₀ (State.sweepChecks s st f p k) := by
  unfold State.sweepChecks
  try dsimp only
  repeat' first | with_reducible assumption | with_reducible apply State.linkSpoil_keeps | with_reducible apply State.lockLoss_keeps | with_reducible refine Keeps.ite ?_ ?_

theorem State.goSweep_keeps {s₀ s : State} (h : Keeps s₀ s) (st : Nat) (hit : Option (Frame × Page × Nat)) : Keeps s₀ (State.goSweep s st hit) := by
  unfold State.goSweep
  try dsimp only
  repeat' first | with_reducible assumption | with_reducible apply State.modScnSt_keeps | with_reducible apply State.sendSweep_keeps | with_reducible refine Keeps.ite ?_ ?_ | (with_reducible apply Keeps.upd; with_reducible assumption)

theorem State.runSweep_keeps {s₀ s : State} (h : Keeps s₀ s) (st : Nat) (pos : Nat) : Keeps s₀ (State.runSweep s st pos) := by
  unfold State.runSweep
  try dsimp only
  repeat' first | with_reducible assumption | with_reducible apply State.sweepChecks_keeps | with_reducible apply State.goSweep_keeps | split

theorem execSweepTrigger_keeps {s₀ s : State} (h : Keeps s₀ s) (st : Nat) : KeepsAns s₀ (execSweepTrigger st s) := by
  unfold execSweepTrigger
  try dsimp only
  repeat' first | with_reducible assumption | with_reducible apply KeepsAns.next | with_reducible apply State.fireTrigger_keeps | with_reducible apply State.runSweep_keeps | with_reducible refine KeepsAns.ite ?_ ?_ | with_reducible refine Keeps.ite ?_ ?_

theorem State.countFacet_keeps {s₀ s : State} (h : Keeps s₀ s) (st : Nat) : Keeps s₀ (State.countFacet s st) := by
  unfold State.countFacet
  try dsimp only
  repeat' first | with_reducible assumption | with_reducible apply State.setScnSt_keeps | with_reducible apply State.setF_keeps | with_reducible refine Keeps.ite ?_ ?_ | split | (with_reducible apply Keeps.upd; with_reducible assumption)

theorem State.startDelay_keeps {s₀ s : State} (h : Keeps s₀ s) (st : Nat) : Keeps s₀ (State.startDelay s st) := by
  unfold State.startDelay
  try dsimp only
  repeat' first | with_reducible assumption | with_reducible apply State.modScnSt_keeps | with_reducible apply State.raise_keeps | with_reducible apply State.scnReport_keeps | with_reducible refine Keeps.ite ?_ ?_ | (with_reducible apply Keeps.upd; with_reducible assumption)

theorem State.noteBd_keeps {s₀ s : State} (h : Keeps s₀ s) (st : Nat) : Keeps s₀ (State.noteBd s st) := by
  unfold State.noteBd
  repeat' first | (extract_lets +onlyGivenNames z; first | (refine Keeps.cut (s₀ := s₀) z ?_ ?_; rotate_left; clear_value z; intro hz; rotate_left; subst z) | clear_value z) | with_reducible assumption | with_reducible apply State.setF_keeps | with_reducible apply State.modScnSt_keeps | with_reducible apply State.modLoop_keeps | with_reducible apply State.drew_keeps | split | (with_reducible apply Keeps.upd; with_reducible assumption)

theorem State.polyAfterBd_keeps {s₀ s : State} (h : Keeps s₀ s) (st : Nat) (e : Int) : Keeps s₀ (State.polyAfterBd s st e) := by
  unfold State.polyAfterBd
  try dsimp only
  repeat' first | with_reducible assumption | with_reducible apply State.setPoly_keeps | with_reducible apply State.modScnSt_keeps | with_reducible apply State.countFacet_keeps | with_reducible apply State.lockLoss_keeps | with_reducible refine Keeps.ite ?_ ?_ | (with_reducible apply Keeps.upd; with_reducible assumption)

theorem execBdPulse_keeps {s₀ s : State} (h : Keeps s₀ s) (st : Nat) : KeepsAns s₀ (execBdPulse st s) := by
  unfold execBdPulse
  repeat' first | with_reducible assumption | with_reducible apply KeepsAns.next | with_reducible apply State.noteBd_keeps | with_reducible apply State.polyAfterBd_keeps | with_reducible apply State.startDelay_keeps | with_reducible refine KeepsAns.ite ?_ ?_ | with_reducible refine Keeps.ite ?_ ?_

theorem execBdMissed_keeps {s₀ s : State} (h : Keeps s₀ s) (st : Nat) : KeepsAns s₀ (execBdMissed st s) := by
  unfold execBdMissed
  try dsimp only
  repeat' first | with_reducible assumption | with_reducible apply KeepsAns.next | with_reducible apply State.satInc_keeps | with_reducible apply State.scnReport_keeps | with_reducible apply State.modScnSt_keeps | with_reducible apply State.lockLoss_keeps | with_reducible refine KeepsAns.ite ?_ ?_ | with_reducible refine Keeps.ite ?_ ?_ | (with_reducible apply Keeps.upd; with_reducible assumption)

theorem execLockLossTimeout_keeps {s₀ s : State} (h : Keeps s₀ s) (st : Nat) : KeepsAns s₀ (execLockLossTimeout st s) := by
  unfold execLockLossTimeout
  repeat' first | with_reducible assumption | with_reducible apply KeepsAns.next | with_reducible apply State.lockLoss_keeps | with_reducible refine KeepsAns.ite ?_ ?_ | with_reducible refine Keeps.ite ?_ ?_

theorem execFacetIdDone_keeps {s₀ s : State} (h : Keeps s₀ s) (st : Nat) : KeepsAns s₀ (execFacetIdDone st s) := by
  unfold execFacetIdDone
  try dsimp only
  repeat' first | with_reducible assumption | with_reducible apply KeepsAns.next | with_reducible apply State.setF_keeps | with_reducible apply State.scnReport_keeps | with_reducible apply State.setScnSt_keeps | (with_reducible apply Keeps.foldl; intro _ _ _) | with_reducible refine KeepsAns.ite ?_ ?_ | with_reducible refine Keeps.ite ?_ ?_ | (with_reducible apply Keeps.upd; with_reducible assumption)

theorem execScanWindowOpen_keeps {s₀ s : State} (h : Keeps s₀ s) (st : Nat) : KeepsAns s₀ (execScanWindowOpen st s) := by
  unfold execScanWindowOpen
  try dsimp only
  repeat' first | with_reducible assumption | with_reducible apply KeepsAns.next | with_reducible apply State.modScnSt_keeps | with_reducible apply State.modWord_keeps | with_reducible apply State.emit_keeps | with_reducible refine KeepsAns.ite ?_ ?_ | with_reducible refine Keeps.ite ?_ ?_ | (with_reducible apply Keeps.upd; with_reducible assumption)

theorem execZoneStart_keeps {s₀ s : State} (h : Keeps s₀ s) (st : Nat) (zone : Nat) : KeepsAns s₀ (execZoneStart st zone s) := by
  unfold execZoneStart
  try dsimp only
  repeat' first | with_reducible assumption | with_reducible apply KeepsAns.next | with_reducible apply State.modWord_keeps | with_reducible refine KeepsAns.ite ?_ ?_ | with_reducible refine Keeps.ite ?_ ?_

theorem execScanWindowClose_keeps {s₀ s : State} (h : Keeps s₀ s) (st : Nat) : KeepsAns s₀ (execScanWindowClose st s) := by
  unfold execScanWindowClose
  repeat' first | (extract_lets +onlyGivenNames z; first | (refine Keeps.cut (s₀ := s₀) z ?_ ?_; rotate_left; clear_value z; intro hz; rotate_left; subst z) | clear_value z) | with_reducible assumption | with_reducible apply KeepsAns.next | with_reducible apply State.modScnSt_keeps | with_reducible apply State.emit_keeps | with_reducible apply State.queuePoll_keeps | with_reducible refine KeepsAns.ite ?_ ?_ | with_reducible refine Keeps.ite ?_ ?_ | (with_reducible apply Keeps.upd; with_reducible assumption)

theorem execWebEncoderLost_keeps {s₀ s : State} (h : Keeps s₀ s) : KeepsAns s₀ (execWebEncoderLost s) := by
  unfold execWebEncoderLost
  repeat' first | with_reducible assumption | with_reducible apply KeepsAns.next | with_reducible apply State.satInc_keeps | with_reducible apply State.report_keeps | with_reducible refine KeepsAns.ite ?_ ?_ | with_reducible refine Keeps.ite ?_ ?_

theorem execPcEncoderLost_keeps {s₀ s : State} (h : Keeps s₀ s) (st : Nat) : KeepsAns s₀ (execPcEncoderLost st s) := by
  unfold execPcEncoderLost
  repeat' first | with_reducible assumption | with_reducible apply KeepsAns.next | with_reducible apply State.satInc_keeps | with_reducible apply State.setF_keeps | with_reducible apply State.scnReport_keeps | with_reducible refine KeepsAns.ite ?_ ?_ | with_reducible refine Keeps.ite ?_ ?_

theorem State.setLocked_keeps {s₀ s : State} (h : Keeps s₀ s) (pll : Nat) (b : Bool) : Keeps s₀ (State.setLocked s pll b) := by
  unfold State.setLocked
  repeat' first | with_reducible assumption | with_reducible apply State.setF_keeps

theorem State.pllSearch_keeps {s₀ s : State} (h : Keeps s₀ s) (pll : Nat) : Keeps s₀ (State.pllSearch s pll) := by
  unfold State.pllSearch
  repeat' first | with_reducible assumption | with_reducible apply State.setF_keeps | with_reducible apply State.setLocked_keeps

theorem State.modPll_keeps {s₀ s : State} (h : Keeps s₀ s) (pll : Nat) (g : PllSt → PllSt) : Keeps s₀ (State.modPll s pll g) := by
  unfold State.modPll
  try dsimp only
  repeat' first | with_reducible assumption | (with_reducible apply Keeps.upd; with_reducible assumption)

theorem State.retunePlls_keeps {s₀ s : State} (h : Keeps s₀ s) (c : Nat) : Keeps s₀ (State.retunePlls s c) := by
  unfold State.retunePlls
  try dsimp only
  repeat' first | with_reducible assumption | with_reducible apply State.setF_keeps | with_reducible apply State.pllSearch_keeps | with_reducible apply State.modPll_keeps | (with_reducible apply Keeps.foldl; intro _ _ _) | with_reducible refine Keeps.ite ?_ ?_ | (with_reducible apply Keeps.upd; with_reducible assumption)

theorem execPllLockStart_keeps {s₀ s : State} (h : Keeps s₀ s) (pll : Nat) : KeepsAns s₀ (execPllLockStart pll s) := by
  unfold execPllLockStart
  try dsimp only
  repeat' first | with_reducible assumption | with_reducible apply KeepsAns.next | with_reducible apply State.modPll_keeps | with_reducible apply State.setF_keeps | with_reducible refine KeepsAns.ite ?_ ?_ | with_reducible refine Keeps.ite ?_ ?_ | (with_reducible apply Keeps.upd; with_reducible assumption)

theorem execPllLockDeclared_keeps {s₀ s : State} (h : Keeps s₀ s) (pll : Nat) : KeepsAns s₀ (execPllLockDeclared pll s) := by
  unfold execPllLockDeclared
  try dsimp only
  repeat' first | with_reducible assumption | with_reducible apply KeepsAns.next | with_reducible apply State.setF_keeps | with_reducible apply State.satInc_keeps | with_reducible apply State.setLocked_keeps | with_reducible apply State.modPll_keeps | with_reducible refine KeepsAns.ite ?_ ?_ | with_reducible refine Keeps.ite ?_ ?_ | (with_reducible apply Keeps.upd; with_reducible assumption)

theorem execPllLockLost_keeps {s₀ s : State} (h : Keeps s₀ s) (pll : Nat) : KeepsAns s₀ (execPllLockLost pll s) := by
  unfold execPllLockLost
  try dsimp only
  repeat' first | with_reducible assumption | with_reducible apply KeepsAns.next | with_reducible apply State.pllSearch_keeps | with_reducible apply State.modPll_keeps | with_reducible apply State.scnReport_keeps | with_reducible apply State.modScnSt_keeps | with_reducible refine KeepsAns.ite ?_ ?_ | with_reducible refine Keeps.ite ?_ ?_ | (with_reducible apply Keeps.upd; with_reducible assumption)

theorem execPllLockTimeout_keeps {s₀ s : State} (h : Keeps s₀ s) (pll : Nat) : KeepsAns s₀ (execPllLockTimeout pll s) := by
  unfold execPllLockTimeout
  repeat' first | (extract_lets +onlyGivenNames z; first | (refine Keeps.cut (s₀ := s₀) z ?_ ?_; rotate_left; clear_value z; intro hz; rotate_left; subst z) | clear_value z) | with_reducible assumption | with_reducible apply KeepsAns.next | with_reducible apply State.satInc_keeps | with_reducible apply State.modPll_keeps | with_reducible apply State.pllSearch_keeps | with_reducible apply State.setF_keeps | with_reducible apply State.scnReport_keeps | with_reducible apply State.bootStop_keeps | with_reducible refine KeepsAns.ite ?_ ?_ | with_reducible refine Keeps.ite ?_ ?_ | (with_reducible apply Keeps.upd; with_reducible assumption)

theorem execPllRetry_keeps {s₀ s : State} (h : Keeps s₀ s) (pll : Nat) : KeepsAns s₀ (execPllRetry pll s) := by
  unfold execPllRetry
  repeat' first | (extract_lets +onlyGivenNames z; first | (refine Keeps.cut (s₀ := s₀) z ?_ ?_; rotate_left; clear_value z; intro hz; rotate_left; subst z) | clear_value z) | with_reducible assumption | with_reducible apply KeepsAns.next | with_reducible apply State.pllSearch_keeps | with_reducible apply State.modPll_keeps | with_reducible refine KeepsAns.ite ?_ ?_ | with_reducible refine Keeps.ite ?_ ?_ | (with_reducible apply Keeps.upd; with_reducible assumption)

theorem execPllRelock_keeps {s₀ s : State} (h : Keeps s₀ s) (pll : Nat) : KeepsAns s₀ (execPllRelock pll s) := by
  unfold execPllRelock
  repeat' first | (extract_lets +onlyGivenNames z; first | (refine Keeps.cut (s₀ := s₀) z ?_ ?_; rotate_left; clear_value z; intro hz; rotate_left; subst z) | clear_value z) | with_reducible assumption | with_reducible apply KeepsAns.next | with_reducible apply State.pllSearch_keeps | with_reducible apply State.modPll_keeps | with_reducible refine KeepsAns.ite ?_ ?_ | with_reducible refine Keeps.ite ?_ ?_ | (with_reducible apply Keeps.upd; with_reducible assumption)

theorem execClassRequest_keeps {s₀ s : State} (h : Keeps s₀ s) (master : Nat) (value : BitVec 32) : KeepsAns s₀ (execClassRequest master value s) := by
  unfold execClassRequest
  repeat' first | (extract_lets +onlyGivenNames z; first | (refine Keeps.cut (s₀ := s₀) z ?_ ?_; rotate_left; clear_value z; intro hz; rotate_left; subst z) | clear_value z) | with_reducible assumption | with_reducible apply KeepsAns.next | with_reducible apply State.darkWrite_keeps | with_reducible apply State.raise_keeps | with_reducible apply State.setF_keeps | with_reducible apply State.scaleTaps_keeps | with_reducible apply State.setClass_keeps | with_reducible apply State.retunePlls_keeps | with_reducible apply State.sendBdWins_keeps | with_reducible refine KeepsAns.ite ?_ ?_ | with_reducible refine Keeps.ite ?_ ?_ | (with_reducible apply Keeps.upd; with_reducible assumption)

theorem State.unclaim_keeps {s₀ s : State} (h : Keeps s₀ s) : Keeps s₀ (State.unclaim s) := by
  unfold State.unclaim
  try dsimp only
  repeat' first | with_reducible assumption | with_reducible refine Keeps.ite ?_ ?_ | split | (with_reducible apply Keeps.upd; with_reducible assumption)

theorem State.classStart_keeps {s₀ s : State} (h : Keeps s₀ s) (c : Nat) : Keeps s₀ (State.classStart s c) := by
  unfold State.classStart
  repeat' first | (extract_lets +onlyGivenNames z; first | (refine Keeps.cut (s₀ := s₀) z ?_ ?_; rotate_left; clear_value z; intro hz; rotate_left; subst z) | clear_value z) | with_reducible assumption | with_reducible apply State.unclaim_keeps | with_reducible apply State.setF_keeps | with_reducible apply State.askSpeed_keeps | with_reducible apply State.pf_keeps | with_reducible apply State.setPoly_keeps | with_reducible apply State.scaleTaps_keeps | with_reducible apply State.retunePlls_keeps | with_reducible apply State.sendBdWins_keeps | (with_reducible apply Keeps.foldl; intro _ _ _) | with_reducible refine Keeps.ite ?_ ?_ | (with_reducible apply Keeps.upd; with_reducible assumption)

theorem execClassChangeStart_keeps {s₀ s : State} (h : Keeps s₀ s) : KeepsAns s₀ (execClassChangeStart s) := by
  unfold execClassChangeStart
  try dsimp only
  repeat' first | with_reducible assumption | with_reducible apply KeepsAns.next | with_reducible apply State.classStart_keeps | with_reducible refine KeepsAns.ite ?_ ?_ | with_reducible refine Keeps.ite ?_ ?_ | (with_reducible apply Keeps.upd; with_reducible assumption)

theorem State.settle_keeps {s₀ s : State} (h : Keeps s₀ s) : Keeps s₀ (State.settle s) := by
  unfold State.settle
  repeat' first | (extract_lets +onlyGivenNames z; first | (refine Keeps.cut (s₀ := s₀) z ?_ ?_; rotate_left; clear_value z; intro hz; rotate_left; subst z) | clear_value z) | with_reducible assumption | with_reducible apply State.setF_keeps | with_reducible apply State.setClass_keeps | with_reducible apply State.setB_keeps | with_reducible apply State.nameReserve_keeps | with_reducible apply State.claims_keeps | with_reducible refine Keeps.ite ?_ ?_ | split | (with_reducible apply Keeps.upd; with_reducible assumption)

theorem execClassSettled_keeps {s₀ s : State} (h : Keeps s₀ s) : KeepsAns s₀ (execClassSettled s) := by
  unfold execClassSettled
  repeat' first | (extract_lets +onlyGivenNames z; first | (refine Keeps.cut (s₀ := s₀) z ?_ ?_; rotate_left; clear_value z; intro hz; rotate_left; subst z) | clear_value z) | with_reducible assumption | with_reducible apply KeepsAns.next | with_reducible apply State.settle_keeps | with_reducible refine KeepsAns.ite ?_ ?_ | with_reducible refine Keeps.ite ?_ ?_ | (with_reducible apply Keeps.upd; with_reducible assumption)

theorem execClassRampTimeout_keeps {s₀ s : State} (h : Keeps s₀ s) : KeepsAns s₀ (execClassRampTimeout s) := by
  unfold execClassRampTimeout
  repeat' first | with_reducible assumption | with_reducible apply KeepsAns.next | with_reducible apply State.report_keeps | with_reducible refine KeepsAns.ite ?_ ?_ | with_reducible refine Keeps.ite ?_ ?_

theorem State.portGuard_keeps {s₀ s t : State} {bl : Nat} {off : Nat} {value : Nat} (h : Keeps s₀ s) (e : State.portGuard s bl off value = some t) : Keeps s₀ t := by
  unfold State.portGuard at e
  repeat' first | (split at e) | (simp only [Option.some.injEq] at e) | (simp only [reduceCtorEq] at e) | subst e
  all_goals (repeat' first | with_reducible assumption | with_reducible apply State.darkWrite_keeps | with_reducible apply State.reportAccess_keeps | with_reducible refine Keeps.ite ?_ ?_ | (simp only [Option.some.injEq, reduceCtorEq] at e))

theorem execBlEnable_keeps {s₀ s : State} (h : Keeps s₀ s) (bl : Nat) : KeepsAns s₀ (execBlEnable bl s) := by
  unfold execBlEnable
  repeat' first | with_reducible assumption | with_reducible apply KeepsAns.next | (refine State.portGuard_keeps ?_ (by assumption)) | with_reducible apply State.setF_keeps | with_reducible apply State.retrain_keeps | with_reducible refine KeepsAns.ite ?_ ?_ | with_reducible refine Keeps.ite ?_ ?_ | split

theorem execBlDisable_keeps {s₀ s : State} (h : Keeps s₀ s) (bl : Nat) : KeepsAns s₀ (execBlDisable bl s) := by
  unfold execBlDisable
  repeat' first | (extract_lets +onlyGivenNames z; first | (refine Keeps.cut (s₀ := s₀) z ?_ ?_; rotate_left; clear_value z; intro hz; rotate_left; subst z) | clear_value z) | with_reducible assumption | with_reducible apply KeepsAns.next | (refine State.portGuard_keeps ?_ (by assumption)) | with_reducible apply State.setF_keeps | with_reducible apply State.modPort_keeps | with_reducible apply State.setBl_keeps | with_reducible refine KeepsAns.ite ?_ ?_ | with_reducible refine Keeps.ite ?_ ?_ | split | (with_reducible apply Keeps.upd; with_reducible assumption)

theorem execBlRetrain_keeps {s₀ s : State} (h : Keeps s₀ s) (bl : Nat) : KeepsAns s₀ (execBlRetrain bl s) := by
  unfold execBlRetrain
  repeat' first | with_reducible assumption | with_reducible apply KeepsAns.next | (refine State.portGuard_keeps ?_ (by assumption)) | with_reducible apply State.retrain_keeps | with_reducible refine KeepsAns.ite ?_ ?_ | with_reducible refine Keeps.ite ?_ ?_ | split

theorem execBlTrainAlign_keeps {s₀ s : State} (h : Keeps s₀ s) (bl : Nat) : KeepsAns s₀ (execBlTrainAlign bl s) := by
  unfold execBlTrainAlign
  repeat' first | with_reducible assumption | with_reducible apply KeepsAns.next | with_reducible apply State.setBl_keeps | with_reducible refine KeepsAns.ite ?_ ?_ | with_reducible refine Keeps.ite ?_ ?_

theorem execBlTrainPoll_keeps {s₀ s : State} (h : Keeps s₀ s) (bl : Nat) : KeepsAns s₀ (execBlTrainPoll bl s) := by
  unfold execBlTrainPoll
  repeat' first | with_reducible assumption | with_reducible apply KeepsAns.next | with_reducible apply State.queuePoll_keeps | with_reducible refine KeepsAns.ite ?_ ?_ | with_reducible refine Keeps.ite ?_ ?_

theorem execBlTrainTimeout_keeps {s₀ s : State} (h : Keeps s₀ s) (bl : Nat) : KeepsAns s₀ (execBlTrainTimeout bl s) := by
  unfold execBlTrainTimeout
  repeat' first | (extract_lets +onlyGivenNames z; first | (refine Keeps.cut (s₀ := s₀) z ?_ ?_; rotate_left; clear_value z; intro hz; rotate_left; subst z) | clear_value z) | with_reducible assumption | with_reducible apply KeepsAns.next | with_reducible apply State.satInc_keeps | with_reducible apply State.setF_keeps | with_reducible apply State.setPort_keeps | with_reducible apply State.train_keeps | with_reducible apply State.setBl_keeps | with_reducible apply State.scnReport_keeps | with_reducible apply State.report_keeps | with_reducible refine KeepsAns.ite ?_ ?_ | with_reducible refine Keeps.ite ?_ ?_ | split | (with_reducible apply Keeps.upd; with_reducible assumption)

theorem execLinkPoll_keeps {s₀ s : State} (h : Keeps s₀ s) (bl : Nat) : KeepsAns s₀ (execLinkPoll bl s) := by
  unfold execLinkPoll
  repeat' first | with_reducible assumption | with_reducible apply KeepsAns.next | with_reducible apply State.queuePoll_keeps | with_reducible refine KeepsAns.ite ?_ ?_ | with_reducible refine Keeps.ite ?_ ?_

theorem execSidebandTransaction_keeps {s₀ s : State} (h : Keeps s₀ s) (bl : Nat) : KeepsAns s₀ (execSidebandTransaction bl s) := by
  unfold execSidebandTransaction
  try dsimp only
  repeat' first | with_reducible assumption | with_reducible apply KeepsAns.next | with_reducible apply State.setPort_keeps | with_reducible apply State.noteSent_keeps | with_reducible apply State.emit_keeps | with_reducible refine KeepsAns.ite ?_ ?_ | with_reducible refine Keeps.ite ?_ ?_ | split | (with_reducible apply Keeps.upd; with_reducible assumption)

theorem execSidebandResponse_keeps {s₀ s : State} (h : Keeps s₀ s) (bl : Nat) (data : List (BitVec 8)) : KeepsAns s₀ (execSidebandResponse bl data s) := by
  unfold execSidebandResponse
  try dsimp only
  repeat' first | with_reducible assumption | with_reducible apply KeepsAns.next | with_reducible apply State.setPort_keeps | with_reducible apply State.readDone_keeps | with_reducible apply State.sbFailed_keeps | with_reducible refine KeepsAns.ite ?_ ?_ | with_reducible refine Keeps.ite ?_ ?_ | split | (with_reducible apply Keeps.upd; with_reducible assumption)

theorem execSidebandTimeout_keeps {s₀ s : State} (h : Keeps s₀ s) (bl : Nat) : KeepsAns s₀ (execSidebandTimeout bl s) := by
  unfold execSidebandTimeout
  repeat' first | with_reducible assumption | with_reducible apply KeepsAns.next | with_reducible apply State.sbFailed_keeps | with_reducible refine KeepsAns.ite ?_ ?_ | with_reducible refine Keeps.ite ?_ ?_

theorem execSidebandBusyRetry_keeps {s₀ s : State} (h : Keeps s₀ s) (bl : Nat) : KeepsAns s₀ (execSidebandBusyRetry bl s) := by
  unfold execSidebandBusyRetry
  try dsimp only
  repeat' first | with_reducible assumption | with_reducible apply KeepsAns.next | with_reducible apply State.setPort_keeps | with_reducible apply State.emit_keeps | with_reducible refine KeepsAns.ite ?_ ?_ | with_reducible refine Keeps.ite ?_ ?_ | split | (with_reducible apply Keeps.upd; with_reducible assumption)

theorem execRouteWrite_keeps {s₀ s : State} (h : Keeps s₀ s) (st : Nat) (value : BitVec 32) : KeepsAns s₀ (execRouteWrite st value s) := by
  unfold execRouteWrite
  try dsimp only
  repeat' first | with_reducible assumption | with_reducible apply KeepsAns.next | with_reducible apply State.darkWrite_keeps | with_reducible apply State.reportAccess_keeps | with_reducible apply State.raise_keeps | with_reducible apply State.setF_keeps | with_reducible apply State.setB_keeps | with_reducible refine KeepsAns.ite ?_ ?_ | with_reducible refine Keeps.ite ?_ ?_

theorem State.takeRoute_keeps {s₀ s : State} (h : Keeps s₀ s) (st : Nat) : Keeps s₀ (State.takeRoute s st) := by
  unfold State.takeRoute
  try dsimp only
  repeat' first | with_reducible assumption | with_reducible apply State.setF_keeps | with_reducible apply State.takeShadow_keeps | with_reducible apply State.pf_keeps | with_reducible apply State.readHead_keeps | with_reducible refine Keeps.ite ?_ ?_

theorem State.applyRoutes_keeps {s₀ s : State} (h : Keeps s₀ s) : Keeps s₀ (State.applyRoutes s) := by
  unfold State.applyRoutes
  try dsimp only
  repeat' first | with_reducible assumption | with_reducible apply State.takeRoute_keeps | (with_reducible apply Keeps.foldl; intro _ _ _)

theorem execRouteExchangeApply_keeps {s₀ s : State} (h : Keeps s₀ s) : KeepsAns s₀ (execRouteExchangeApply s) := by
  unfold execRouteExchangeApply
  repeat' first | with_reducible assumption | with_reducible apply KeepsAns.next | with_reducible apply State.applyRoutes_keeps

theorem execOffsetWrite_keeps {s₀ s : State} (h : Keeps s₀ s) (st : Nat) (value : BitVec 32) : KeepsAns s₀ (execOffsetWrite st value s) := by
  unfold execOffsetWrite
  try dsimp only
  repeat' first | with_reducible assumption | with_reducible apply KeepsAns.next | with_reducible apply State.darkWrite_keeps | with_reducible apply State.reportAccess_keeps | with_reducible apply State.setF_keeps | with_reducible apply State.askMove_keeps | with_reducible apply State.touch_keeps | with_reducible refine KeepsAns.ite ?_ ?_ | with_reducible refine Keeps.ite ?_ ?_

theorem execCalrefOkChange_keeps {s₀ s : State} (h : Keeps s₀ s) (present : Bool) (err : BitVec 16) : KeepsAns s₀ (execCalrefOkChange present err s) := by
  unfold execCalrefOkChange
  repeat' first | (extract_lets +onlyGivenNames z; first | (refine Keeps.cut (s₀ := s₀) z ?_ ?_; rotate_left; clear_value z; intro hz; rotate_left; subst z) | clear_value z) | with_reducible assumption | with_reducible apply KeepsAns.next | with_reducible apply State.setB_keeps | with_reducible apply State.setF_keeps | with_reducible apply State.report_keeps | with_reducible refine KeepsAns.ite ?_ ?_ | with_reducible refine Keeps.ite ?_ ?_ | (with_reducible apply Keeps.upd; with_reducible assumption)

end Sys2Proof.Machine
end

