-- ==== Sys2Proof/Laws/KeepGap.lean ====
section
/-! SUPPORT. What the operations of Machine/Gap.lean keep (Laws/Keep.lean). -/
namespace Sys2Proof.Machine
set_option Elab.async false
set_option linter.all false

theorem State.startMove_keeps {s₀ s : State} (h : Keeps s₀ s) (st : Nat) (d : Int) : Keeps s₀ (State.startMove s st d) := by
  unfold State.startMove
  repeat' first | (extract_lets +onlyGivenNames z; first | (refine Keeps.cut (s₀ := s₀) z ?_ ?_; rotate_left; clear_value z; intro hz; rotate_left; subst z) | clear_value z) | with_reducible assumption | with_reducible apply State.modScnSt_keeps | with_reducible apply State.setF_keeps | with_reducible refine Keeps.ite ?_ ?_ | (with_reducible apply Keeps.upd; with_reducible assumption)

theorem State.gapMove_keeps {s₀ s : State} (h : Keeps s₀ s) (st : Nat) : Keeps s₀ (State.gapMove s st) := by
  unfold State.gapMove
  try dsimp only
  repeat' first | with_reducible assumption | with_reducible apply State.applyMove_keeps | with_reducible apply State.modScnSt_keeps | with_reducible apply State.startMove_keeps | with_reducible refine Keeps.ite ?_ ?_ | split | (with_reducible apply Keeps.upd; with_reducible assumption)

theorem State.takeTables_keeps {s₀ s : State} (h : Keeps s₀ s) (st : Nat) : Keeps s₀ (State.takeTables s st) := by
  unfold State.takeTables
  repeat' first | (extract_lets +onlyGivenNames z; first | (refine Keeps.cut (s₀ := s₀) z ?_ ?_; rotate_left; clear_value z; intro hz; rotate_left; subst z) | clear_value z) | with_reducible assumption | with_reducible apply State.takeShadow_keeps | with_reducible apply State.takeShadows_keeps | (with_reducible apply Keeps.upd; with_reducible assumption)

theorem State.checkOffsets_keeps {s₀ s : State} (h : Keeps s₀ s) (st : Nat) : Keeps s₀ (State.checkOffsets s st) := by
  unfold State.checkOffsets
  try dsimp only
  repeat' first | with_reducible assumption | with_reducible apply State.raise_keeps | with_reducible apply State.modScnSt_keeps | with_reducible apply State.scnReport_keeps | with_reducible refine Keeps.ite ?_ ?_ | split | (with_reducible apply Keeps.upd; with_reducible assumption)

theorem execPageGapOpen_keeps {s₀ s : State} (h : Keeps s₀ s) (st : Nat) : KeepsAns s₀ (execPageGapOpen st s) := by
  unfold execPageGapOpen
  repeat' first | (extract_lets +onlyGivenNames z; first | (refine Keeps.cut (s₀ := s₀) z ?_ ?_; rotate_left; clear_value z; intro hz; rotate_left; subst z) | clear_value z) | with_reducible assumption | with_reducible apply KeepsAns.next | with_reducible apply State.corrGap_keeps | with_reducible apply State.applyLog_keeps | with_reducible apply State.takeTables_keeps | with_reducible apply State.takeExposure_keeps | with_reducible apply State.gapMove_keeps | with_reducible apply State.coverFrom_keeps | with_reducible apply State.applyRoutes_keeps | with_reducible apply State.checkOffsets_keeps | with_reducible apply State.sendCur_keeps | with_reducible apply State.stepTaps_keeps | with_reducible apply State.takeCal_keeps | with_reducible apply State.retrain_keeps | with_reducible refine KeepsAns.ite ?_ ?_ | with_reducible refine Keeps.ite ?_ ?_ | split

end Sys2Proof.Machine
end

