-- ==== Sys2Proof/Laws/KeepEctOps.lean ====
section
/-! SUPPORT. What the operations of Machine/EctOps.lean keep (Laws/Keep.lean). -/
namespace Sys2Proof.Machine
set_option Elab.async false
set_option linter.all false

theorem State.ectReport_keeps {s₀ s : State} (h : Keeps s₀ s) (cls : Nat) (cause : Nat) : Keeps s₀ (State.ectReport s cls cause) := by
  unfold State.ectReport
  repeat' first | with_reducible assumption | with_reducible apply State.report_keeps

theorem State.setAl_keeps {s₀ s : State} (h : Keeps s₀ s) (v : Nat) (code : Nat) : Keeps s₀ (State.setAl s v code) := by
  unfold State.setAl
  try dsimp only
  repeat' first | with_reducible assumption | with_reducible apply State.setF_keeps | with_reducible apply State.setB_keeps | with_reducible apply State.pf_keeps | with_reducible refine Keeps.ite ?_ ?_

theorem State.linkTo_keeps {s₀ s : State} (h : Keeps s₀ s) (x : Fld) (up : Bool) : Keeps s₀ (State.linkTo s x up) := by
  unfold State.linkTo
  repeat' first | with_reducible assumption | with_reducible apply State.setB_keeps | with_reducible apply State.pf_keeps | with_reducible refine Keeps.ite ?_ ?_

theorem State.pdoLost_keeps {s₀ s : State} (h : Keeps s₀ s) : Keeps s₀ (State.pdoLost s) := by
  unfold State.pdoLost
  try dsimp only
  repeat' first | with_reducible assumption | with_reducible apply State.satInc_keeps | with_reducible apply State.ectReport_keeps | with_reducible refine Keeps.ite ?_ ?_

theorem State.dropCoe_keeps {s₀ s : State} (h : Keeps s₀ s) : Keeps s₀ (State.dropCoe s) := by
  unfold State.dropCoe
  try dsimp only
  repeat' first | with_reducible assumption | with_reducible refine Keeps.ite ?_ ?_ | (with_reducible apply Keeps.upd; with_reducible assumption)

theorem State.alDrop_keeps {s₀ s : State} (h : Keeps s₀ s) (v : Nat) (code : Nat) : Keeps s₀ (State.alDrop s v code) := by
  unfold State.alDrop
  repeat' first | (extract_lets +onlyGivenNames z; first | (refine Keeps.cut (s₀ := s₀) z ?_ ?_; rotate_left; clear_value z; intro hz; rotate_left; subst z) | clear_value z) | with_reducible assumption | with_reducible apply State.setAl_keeps | with_reducible apply State.pdoLost_keeps | with_reducible apply State.setF_keeps | with_reducible apply State.dropCoe_keeps | with_reducible refine Keeps.ite ?_ ?_

theorem State.alSleep_keeps {s₀ s : State} (h : Keeps s₀ s) : Keeps s₀ (State.alSleep s) := by
  unfold State.alSleep
  repeat' first | with_reducible assumption | with_reducible apply State.alDrop_keeps | with_reducible refine Keeps.ite ?_ ?_

end Sys2Proof.Machine
end

