-- ==== Sys2Proof/Laws/KeepEncoders.lean ====
section
/-! SUPPORT. What the operations of Machine/Encoders.lean keep (Laws/Keep.lean). -/
namespace Sys2Proof.Machine
set_option Elab.async false
set_option linter.all false

theorem State.blend_keeps {s₀ s : State} (h : Keeps s₀ s) (hit : Nat → Bool) : Keeps s₀ (State.blend s hit) := by
  unfold State.blend
  repeat' first | (extract_lets +onlyGivenNames z; first | (refine Keeps.cut (s₀ := s₀) z ?_ ?_; rotate_left; clear_value z; intro hz; rotate_left; subst z) | clear_value z) | with_reducible assumption | with_reducible apply State.modScnSt_keeps | with_reducible apply State.drew_keeps | (with_reducible apply Keeps.foldl; intro _ _ _) | with_reducible refine Keeps.ite ?_ ?_ | (with_reducible apply Keeps.upd; with_reducible assumption)

theorem State.moveWeb_keeps {s₀ s : State} (h : Keeps s₀ s) (d : Int) : Keeps s₀ (State.moveWeb s d) := by
  unfold State.moveWeb
  try dsimp only
  repeat' first | with_reducible assumption | with_reducible apply State.set64_keeps | with_reducible apply State.syncSpeed_keeps | (with_reducible apply Keeps.upd; with_reducible assumption)

theorem State.trackCount_keeps {s₀ s : State} (h : Keeps s₀ s) (n : Nat) (d : Int) : Keeps s₀ (State.trackCount s n d) := by
  unfold State.trackCount
  try dsimp only
  repeat' first | with_reducible assumption | with_reducible apply State.moveWeb_keeps | with_reducible apply State.blend_keeps | with_reducible refine Keeps.ite ?_ ?_

theorem State.turnoutCount_keeps {s₀ s : State} (h : Keeps s₀ s) (n : Nat) (d : Int) : Keeps s₀ (State.turnoutCount s n d) := by
  unfold State.turnoutCount
  try dsimp only
  repeat' first | with_reducible assumption | with_reducible apply State.setI32_keeps | with_reducible apply State.event_keeps | (with_reducible apply Keeps.foldl; intro _ _ _) | with_reducible refine Keeps.ite ?_ ?_

theorem execEncoderCount_keeps {s₀ s : State} (h : Keeps s₀ s) (n : Nat) (a : Bool) (b : Bool) : KeepsAns s₀ (execEncoderCount n a b s) := by
  unfold execEncoderCount
  repeat' first | (extract_lets +onlyGivenNames z; first | (refine Keeps.cut (s₀ := s₀) z ?_ ?_; rotate_left; clear_value z; intro hz; rotate_left; subst z) | clear_value z) | with_reducible assumption | with_reducible apply KeepsAns.next | with_reducible apply State.setEncIn_keeps | with_reducible apply State.satInc_keeps | with_reducible apply State.axFault_keeps | with_reducible apply State.turnoutCount_keeps | with_reducible apply State.trackCount_keeps | with_reducible apply State.axShowEnc_keeps | (with_reducible apply Keeps.foldl; intro _ _ _) | with_reducible refine KeepsAns.ite ?_ ?_ | with_reducible refine Keeps.ite ?_ ?_ | (with_reducible apply Keeps.upd; with_reducible assumption)

end Sys2Proof.Machine
end

