-- ==== Sys2Proof/Laws/KeepSafe.lean ====
section
/-! SUPPORT. What the operations of Machine/Safe.lean keep (Laws/Keep.lean). -/
namespace Sys2Proof.Machine
set_option Elab.async false
set_option linter.all false

theorem State.lastWord_keeps {s₀ s : State} (h : Keeps s₀ s) (source : Nat) (cause : Nat) (p0 : Nat) (p1 : Nat) (p2 : Nat) (severity : Nat) (master : Nat) (access : Nat) : Keeps s₀ (State.lastWord s source cause p0 p1 p2 severity master access) := by
  unfold State.lastWord
  try dsimp only
  repeat' first | with_reducible assumption | with_reducible apply State.setF_keeps | (with_reducible apply Keeps.upd; with_reducible assumption)

theorem State.setHdgSt_keeps {s₀ s : State} (h : Keeps s₀ s) (st : Nat) (x : HdgSt) : Keeps s₀ (State.setHdgSt s st x) := by
  unfold State.setHdgSt
  try dsimp only
  repeat' first | with_reducible assumption | (with_reducible apply Keeps.upd; with_reducible assumption)

theorem State.laserSync_keeps {s₀ s : State} (h : Keeps s₀ s) (st : Nat) : Keeps s₀ (State.laserSync s st) := by
  unfold State.laserSync
  try dsimp only
  repeat' first | with_reducible assumption | with_reducible apply State.setB_keeps | with_reducible apply State.drivePin_keeps | with_reducible apply State.setF_keeps

theorem State.hdgSync_keeps {s₀ s : State} (h : Keeps s₀ s) : Keeps s₀ (State.hdgSync s) := by
  unfold State.hdgSync
  repeat' first | (extract_lets +onlyGivenNames z; first | (refine Keeps.cut (s₀ := s₀) z ?_ ?_; rotate_left; clear_value z; intro hz; rotate_left; subst z) | clear_value z) | with_reducible assumption | with_reducible apply State.laserSync_keeps | with_reducible apply State.drivePin_keeps | with_reducible apply State.setB_keeps | (with_reducible apply Keeps.foldl; intro _ _ _)

theorem State.aliveStop_keeps {s₀ s : State} (h : Keeps s₀ s) : Keeps s₀ (State.aliveStop s) := by
  unfold State.aliveStop
  repeat' first | (extract_lets +onlyGivenNames z; first | (refine Keeps.cut (s₀ := s₀) z ?_ ?_; rotate_left; clear_value z; intro hz; rotate_left; subst z) | clear_value z) | with_reducible assumption | with_reducible apply State.drivePin_keeps | (with_reducible apply Keeps.upd; with_reducible assumption)

theorem State.setPower_keeps {s₀ s : State} (h : Keeps s₀ s) (p : Nat) : Keeps s₀ (State.setPower s p) := by
  unfold State.setPower
  try dsimp only
  repeat' first | with_reducible assumption | with_reducible apply State.setF_keeps | with_reducible apply State.hdgSync_keeps | with_reducible apply State.aliveStop_keeps | with_reducible apply State.pf_keeps | with_reducible refine Keeps.ite ?_ ?_

theorem State.stageTo_keeps {s₀ s : State} (h : Keeps s₀ s) (n : Nat) : Keeps s₀ (State.stageTo s n) := by
  unfold State.stageTo
  repeat' first | with_reducible assumption | with_reducible apply State.setF_keeps

theorem State.setPmicEn_keeps {s₀ s : State} (h : Keeps s₀ s) (i : Nat) (v : Bool) : Keeps s₀ (State.setPmicEn s i v) := by
  unfold State.setPmicEn
  repeat' first | with_reducible assumption | with_reducible apply State.drivePin_keeps | with_reducible apply State.setF_keeps

theorem State.pmicOff_keeps {s₀ s : State} (h : Keeps s₀ s) : Keeps s₀ (State.pmicOff s) := by
  unfold State.pmicOff
  repeat' first | with_reducible assumption | with_reducible apply State.setPmicEn_keeps | (with_reducible apply Keeps.foldl; intro _ _ _)

end Sys2Proof.Machine
end

