-- ==== Sys2Proof/Laws/KeepRails.lean ====
section
/-! SUPPORT. What the operations of Machine/Rails.lean keep (Laws/Keep.lean). -/
namespace Sys2Proof.Machine
set_option Elab.async false
set_option linter.all false

theorem State.setRail_keeps {s₀ s : State} (h : Keeps s₀ s) (k : Nat) (r : Rail) : Keeps s₀ (State.setRail s k r) := by
  unfold State.setRail
  try dsimp only
  repeat' first | with_reducible assumption | (with_reducible apply Keeps.upd; with_reducible assumption)

theorem State.railDrive_keeps {s₀ s : State} (h : Keeps s₀ s) (k : Nat) (v : Bool) : Keeps s₀ (State.railDrive s k v) := by
  unfold State.railDrive
  repeat' first | (extract_lets +onlyGivenNames z; first | (refine Keeps.cut (s₀ := s₀) z ?_ ?_; rotate_left; clear_value z; intro hz; rotate_left; subst z) | clear_value z) | with_reducible assumption | with_reducible apply State.emit_keeps | with_reducible apply State.setF_keeps | with_reducible apply State.setRail_keeps | with_reducible apply State.satInc_keeps | with_reducible refine Keeps.ite ?_ ?_ | (with_reducible apply Keeps.upd; with_reducible assumption)

theorem State.railPass_keeps {s₀ s : State} (h : Keeps s₀ s) (k : Nat) : Keeps s₀ (State.railPass s k) := by
  unfold State.railPass
  repeat' first | (extract_lets +onlyGivenNames z; first | (refine Keeps.cut (s₀ := s₀) z ?_ ?_; rotate_left; clear_value z; intro hz; rotate_left; subst z) | clear_value z) | with_reducible assumption | with_reducible apply State.setF_keeps | with_reducible apply State.raise_keeps | with_reducible apply State.report_keeps | with_reducible apply State.pf_keeps | with_reducible apply State.railDrive_keeps | with_reducible apply State.setB_keeps | with_reducible refine Keeps.ite ?_ ?_

theorem State.railSync_keeps {s₀ s : State} (h : Keeps s₀ s) : Keeps s₀ (State.railSync s) := by
  unfold State.railSync
  repeat' first | with_reducible assumption | with_reducible apply State.railPass_keeps | (with_reducible apply Keeps.foldl; intro _ _ _)

theorem State.railFault_keeps {s₀ s : State} (h : Keeps s₀ s) (k : Nat) (cause : Nat) : Keeps s₀ (State.railFault s k cause) := by
  unfold State.railFault
  try dsimp only
  repeat' first | with_reducible assumption | with_reducible apply State.report_keeps | with_reducible apply State.pf_keeps | with_reducible apply State.setF_keeps | with_reducible refine Keeps.ite ?_ ?_

theorem State.railWarn_keeps {s₀ s : State} (h : Keeps s₀ s) (k : Nat) : Keeps s₀ (State.railWarn s k) := by
  unfold State.railWarn
  repeat' first | with_reducible assumption | with_reducible apply State.satInc_keeps | with_reducible apply State.report_keeps | with_reducible apply State.pf_keeps

theorem State.railCheck_keeps {s₀ s : State} (h : Keeps s₀ s) (k : Nat) (v : Nat) : Keeps s₀ (State.railCheck s k v) := by
  unfold State.railCheck
  repeat' first | (extract_lets +onlyGivenNames z; first | (refine Keeps.cut (s₀ := s₀) z ?_ ?_; rotate_left; clear_value z; intro hz; rotate_left; subst z) | (have _f := fun a => z a; clear _f; subst z; try dsimp -zeta only) | clear_value z) | with_reducible assumption | with_reducible apply State.setRail_keeps | with_reducible apply State.railWarn_keeps | with_reducible apply State.satInc_keeps | with_reducible apply State.railFault_keeps | with_reducible refine Keeps.ite ?_ ?_ | (with_reducible apply Keeps.upd; with_reducible assumption)

theorem execRailMonitorReading_keeps {s₀ s : State} (h : Keeps s₀ s) (codes : List (BitVec 12)) : KeepsAns s₀ (execRailMonitorReading codes s) := by
  unfold execRailMonitorReading
  repeat' first | (extract_lets +onlyGivenNames z; first | (refine Keeps.cut (s₀ := s₀) z ?_ ?_; rotate_left; clear_value z; intro hz; rotate_left; subst z) | clear_value z) | with_reducible assumption | with_reducible apply KeepsAns.next | with_reducible apply State.setF_keeps | with_reducible apply State.railCheck_keeps | with_reducible apply State.railSync_keeps | (with_reducible apply Keeps.foldl; intro _ _ _) | with_reducible refine KeepsAns.ite ?_ ?_ | with_reducible refine Keeps.ite ?_ ?_

theorem execRailPgDrop_keeps {s₀ s : State} (h : Keeps s₀ s) (k : Nat) : KeepsAns s₀ (execRailPgDrop k s) := by
  unfold execRailPgDrop
  repeat' first | (extract_lets +onlyGivenNames z; first | (refine Keeps.cut (s₀ := s₀) z ?_ ?_; rotate_left; clear_value z; intro hz; rotate_left; subst z) | clear_value z) | with_reducible assumption | with_reducible apply KeepsAns.next | with_reducible apply State.setF_keeps | with_reducible apply State.setRail_keeps | with_reducible apply State.satInc_keeps | with_reducible apply State.railFault_keeps | with_reducible apply State.railSync_keeps | with_reducible refine KeepsAns.ite ?_ ?_ | with_reducible refine Keeps.ite ?_ ?_ | (with_reducible apply Keeps.upd; with_reducible assumption)

theorem execRailPgRise_keeps {s₀ s : State} (h : Keeps s₀ s) (k : Nat) : KeepsAns s₀ (execRailPgRise k s) := by
  unfold execRailPgRise
  try dsimp only
  repeat' first | with_reducible assumption | with_reducible apply KeepsAns.next | with_reducible apply State.setF_keeps | with_reducible apply State.setRail_keeps | with_reducible apply State.railSync_keeps | with_reducible refine KeepsAns.ite ?_ ?_ | with_reducible refine Keeps.ite ?_ ?_ | (with_reducible apply Keeps.upd; with_reducible assumption)

theorem execRailBlankEnd_keeps {s₀ s : State} (h : Keeps s₀ s) (k : Nat) : KeepsAns s₀ (execRailBlankEnd k s) := by
  unfold execRailBlankEnd
  try dsimp only
  repeat' first | with_reducible assumption | with_reducible apply KeepsAns.next | with_reducible apply State.setRail_keeps | with_reducible apply State.railSync_keeps | with_reducible refine KeepsAns.ite ?_ ?_ | with_reducible refine Keeps.ite ?_ ?_ | (with_reducible apply Keeps.upd; with_reducible assumption)

theorem State.railsOff_keeps {s₀ s : State} (h : Keeps s₀ s) : Keeps s₀ (State.railsOff s) := by
  unfold State.railsOff
  repeat' first | with_reducible assumption | with_reducible apply State.setF_keeps | with_reducible apply State.railSync_keeps

end Sys2Proof.Machine
end

