-- ==== Sys2Proof/Laws/KeepTurnout.lean ====
section
/-! SUPPORT. What the operations of Machine/Turnout.lean keep (Laws/Keep.lean). -/
namespace Sys2Proof.Machine
set_option Elab.async false
set_option linter.all false

theorem State.syncOvf_keeps {s₀ s : State} (h : Keeps s₀ s) : Keeps s₀ (State.syncOvf s) := by
  unfold State.syncOvf
  repeat' first | with_reducible assumption | with_reducible apply State.setB_keeps

theorem State.countTask_keeps {s₀ s : State} (h : Keeps s₀ s) (tk : Nat) (n : Nat) : Keeps s₀ (State.countTask s tk n) := by
  unfold State.countTask
  repeat' first | (extract_lets +onlyGivenNames z; first | (refine Keeps.cut (s₀ := s₀) z ?_ ?_; rotate_left; clear_value z; intro hz; rotate_left; subst z) | clear_value z) | with_reducible assumption | with_reducible apply State.mark_keeps | with_reducible apply State.wrapInc_keeps | with_reducible apply State.set64_keeps | with_reducible apply State.setF_keeps | with_reducible apply State.raise_keeps | with_reducible apply State.satInc_keeps | with_reducible apply State.report_keeps | with_reducible apply State.syncOvf_keeps | with_reducible apply State.pf_keeps | (with_reducible apply Keeps.foldl; intro _ _ _) | with_reducible refine Keeps.ite ?_ ?_ | (with_reducible apply Keeps.upd; with_reducible assumption)

theorem execTurnoutRound_keeps {s₀ s : State} (h : Keeps s₀ s) : KeepsAns s₀ (execTurnoutRound s) := by
  unfold execTurnoutRound
  try dsimp only
  repeat' first | with_reducible assumption | with_reducible apply KeepsAns.next | with_reducible apply State.countTask_keeps | (with_reducible apply Keeps.foldl; intro _ _ _) | with_reducible refine KeepsAns.ite ?_ ?_ | with_reducible refine Keeps.ite ?_ ?_ | (with_reducible apply Keeps.upd; with_reducible assumption)

theorem State.trnSleep_keeps {s₀ s : State} (h : Keeps s₀ s) : Keeps s₀ (State.trnSleep s) := by
  unfold State.trnSleep
  repeat' first | (extract_lets +onlyGivenNames z; first | (refine Keeps.cut (s₀ := s₀) z ?_ ?_; rotate_left; clear_value z; intro hz; rotate_left; subst z) | clear_value z) | with_reducible assumption | with_reducible apply State.setF_keeps | (with_reducible apply Keeps.foldl; intro _ _ _) | with_reducible refine Keeps.ite ?_ ?_ | (with_reducible apply Keeps.upd; with_reducible assumption)

theorem State.task_keeps {s₀ s : State} (h : Keeps s₀ s) (tk : Nat) (g : State → State) (hg : ∀ t, Keeps s₀ t → Keeps s₀ (g t)) : KeepsAns s₀ (State.task s tk g) := by
  unfold State.task
  try dsimp only
  repeat' first | with_reducible assumption | with_reducible apply KeepsAns.next | with_reducible apply hg | with_reducible apply State.setF_keeps | with_reducible refine KeepsAns.ite ?_ ?_ | with_reducible refine Keeps.ite ?_ ?_

theorem State.axGo_keeps {s₀ s : State} (h : Keeps s₀ s) (ax : Nat) : Keeps s₀ (State.axGo s ax) := by
  unfold State.axGo
  try dsimp only
  repeat' first | with_reducible assumption | with_reducible apply State.unhold_keeps | with_reducible apply State.raise_keeps | with_reducible apply State.report_keeps | with_reducible apply State.axVec_keeps | with_reducible apply State.axJog_keeps | with_reducible apply State.axMove_keeps | with_reducible refine Keeps.ite ?_ ?_ | split

theorem execTaskAxGo_keeps {s₀ s : State} (h : Keeps s₀ s) (ax : Nat) : KeepsAns s₀ (execTaskAxGo ax s) := by
  unfold execTaskAxGo
  repeat' first | with_reducible assumption | with_reducible apply KeepsAns.next | with_reducible apply State.task_keeps | with_reducible apply State.axGo_keeps | with_reducible refine KeepsAns.ite ?_ ?_ | with_reducible refine Keeps.ite ?_ ?_ | intro _ _

theorem execTaskAxStop_keeps {s₀ s : State} (h : Keeps s₀ s) (ax : Nat) : KeepsAns s₀ (execTaskAxStop ax s) := by
  unfold execTaskAxStop
  repeat' first | with_reducible assumption | with_reducible apply KeepsAns.next | with_reducible apply State.task_keeps | with_reducible apply State.axStopCmd_keeps | with_reducible refine KeepsAns.ite ?_ ?_ | with_reducible refine Keeps.ite ?_ ?_ | intro _ _

theorem execTaskAxQstop_keeps {s₀ s : State} (h : Keeps s₀ s) (ax : Nat) : KeepsAns s₀ (execTaskAxQstop ax s) := by
  unfold execTaskAxQstop
  repeat' first | with_reducible assumption | with_reducible apply KeepsAns.next | with_reducible apply State.task_keeps | with_reducible apply State.axQstopCmd_keeps | with_reducible refine KeepsAns.ite ?_ ?_ | with_reducible refine Keeps.ite ?_ ?_ | intro _ _

theorem execTaskAxCapture_keeps {s₀ s : State} (h : Keeps s₀ s) (ax : Nat) : KeepsAns s₀ (execTaskAxCapture ax s) := by
  unfold execTaskAxCapture
  repeat' first | with_reducible assumption | with_reducible apply KeepsAns.next | with_reducible apply State.task_keeps | with_reducible apply State.setI32_keeps | with_reducible apply State.setWord_keeps | with_reducible refine KeepsAns.ite ?_ ?_ | with_reducible refine Keeps.ite ?_ ?_ | intro _ _

theorem execTaskLoopIndex_keeps {s₀ s : State} (h : Keeps s₀ s) (lp : Nat) : KeepsAns s₀ (execTaskLoopIndex lp s) := by
  unfold execTaskLoopIndex
  repeat' first | (extract_lets +onlyGivenNames z; first | (refine Keeps.cut (s₀ := s₀) z ?_ ?_; rotate_left; clear_value z; intro hz; rotate_left; subst z) | clear_value z) | with_reducible assumption | with_reducible apply KeepsAns.next | with_reducible apply State.task_keeps | with_reducible apply State.modLoop_keeps | with_reducible refine KeepsAns.ite ?_ ?_ | with_reducible refine Keeps.ite ?_ ?_ | (with_reducible apply Keeps.upd; with_reducible assumption) | intro _ _

theorem execTaskEncCapture_keeps {s₀ s : State} (h : Keeps s₀ s) (n : Nat) : KeepsAns s₀ (execTaskEncCapture n s) := by
  unfold execTaskEncCapture
  repeat' first | with_reducible assumption | with_reducible apply KeepsAns.next | with_reducible apply State.task_keeps | with_reducible apply State.setWord_keeps | with_reducible refine KeepsAns.ite ?_ ?_ | with_reducible refine Keeps.ite ?_ ?_ | intro _ _

theorem State.startTimer_keeps {s₀ s : State} (h : Keeps s₀ s) (i : Nat) : Keeps s₀ (State.startTimer s i) := by
  unfold State.startTimer
  try dsimp only
  repeat' first | with_reducible assumption | (with_reducible apply Keeps.upd; with_reducible assumption)

theorem execTaskTimerStart_keeps {s₀ s : State} (h : Keeps s₀ s) : KeepsAns s₀ (execTaskTimerStart s) := by
  unfold execTaskTimerStart
  repeat' first | with_reducible assumption | with_reducible apply KeepsAns.next | with_reducible apply State.task_keeps | with_reducible apply State.startTimer_keeps | (with_reducible apply Keeps.foldl; intro _ _ _) | with_reducible refine KeepsAns.ite ?_ ?_ | with_reducible refine Keeps.ite ?_ ?_ | intro _ _

theorem execTaskLatPulse_keeps {s₀ s : State} (h : Keeps s₀ s) (i : Nat) : KeepsAns s₀ (execTaskLatPulse i s) := by
  unfold execTaskLatPulse
  try dsimp only
  repeat' first | with_reducible assumption | with_reducible apply KeepsAns.next | with_reducible apply State.task_keeps | with_reducible apply State.modLatPort_keeps | with_reducible refine KeepsAns.ite ?_ ?_ | with_reducible refine Keeps.ite ?_ ?_ | (with_reducible apply Keeps.upd; with_reducible assumption) | intro _ _

theorem State.blankSheet_keeps {s₀ s : State} (h : Keeps s₀ s) (seq : Nat) (tof : Nat) (rem : Nat) : Keeps s₀ (State.blankSheet s seq tof rem) := by
  unfold State.blankSheet
  try dsimp only
  repeat' first | with_reducible assumption | with_reducible apply State.remain_keeps | (with_reducible apply Keeps.upd; with_reducible assumption)

theorem State.sheetEdge_keeps {s₀ s : State} (h : Keeps s₀ s) : Keeps s₀ (State.sheetEdge s) := by
  unfold State.sheetEdge
  repeat' first | (extract_lets +onlyGivenNames z; first | (refine Keeps.cut (s₀ := s₀) z ?_ ?_; rotate_left; clear_value z; intro hz; rotate_left; subst z) | clear_value z) | with_reducible assumption | with_reducible apply State.report_keeps | with_reducible apply State.claimLine_keeps | with_reducible apply State.claimFrame_keeps | with_reducible apply State.modFrame_keeps | with_reducible apply State.remain_keeps | with_reducible apply State.blankSheet_keeps | with_reducible refine Keeps.ite ?_ ?_ | split | (with_reducible apply Keeps.upd; with_reducible assumption)

theorem execTaskTofCapture_keeps {s₀ s : State} (h : Keeps s₀ s) : KeepsAns s₀ (execTaskTofCapture s) := by
  unfold execTaskTofCapture
  try dsimp only
  repeat' first | with_reducible assumption | with_reducible apply KeepsAns.next | with_reducible apply State.task_keeps | with_reducible apply State.set64_keeps | with_reducible apply State.sheetEdge_keeps | with_reducible refine KeepsAns.ite ?_ ?_ | with_reducible refine Keeps.ite ?_ ?_ | intro _ _

theorem execTaskSwSignal_keeps {s₀ s : State} (h : Keeps s₀ s) (i : Nat) : KeepsAns s₀ (execTaskSwSignal i s) := by
  unfold execTaskSwSignal
  try dsimp only
  repeat' first | with_reducible assumption | with_reducible apply KeepsAns.next | with_reducible apply State.pf_keeps | with_reducible refine KeepsAns.ite ?_ ?_ | with_reducible refine Keeps.ite ?_ ?_ | (with_reducible apply Keeps.upd; with_reducible assumption)

theorem State.trnGuard_keeps {s₀ s t : State} {off : Nat} {value : Nat} (h : Keeps s₀ s) (e : State.trnGuard s off value = some t) : Keeps s₀ t := by
  unfold State.trnGuard at e
  repeat' first | (split at e) | (simp only [Option.some.injEq] at e) | (simp only [reduceCtorEq] at e) | subst e
  all_goals (repeat' first | with_reducible assumption | with_reducible apply State.darkWrite_keeps | with_reducible refine Keeps.ite ?_ ?_ | (simp only [Option.some.injEq, reduceCtorEq] at e))

theorem execTaskAck_keeps {s₀ s : State} (h : Keeps s₀ s) (tk : Nat) (n : Nat) : KeepsAns s₀ (execTaskAck tk n s) := by
  unfold execTaskAck
  repeat' first | with_reducible assumption | with_reducible apply KeepsAns.next | (refine State.trnGuard_keeps ?_ (by assumption)) | with_reducible apply State.raise_keeps | with_reducible apply State.setF_keeps | with_reducible refine KeepsAns.ite ?_ ?_ | with_reducible refine Keeps.ite ?_ ?_ | split

theorem execTaskConfigWrite_keeps {s₀ s : State} (h : Keeps s₀ s) (tk : Nat) (source : Bool) (value : BitVec 32) : KeepsAns s₀ (execTaskConfigWrite tk source value s) := by
  unfold execTaskConfigWrite
  repeat' first | (extract_lets +onlyGivenNames z; first | (refine Keeps.cut (s₀ := s₀) z ?_ ?_; rotate_left; clear_value z; intro hz; rotate_left; subst z) | clear_value z) | with_reducible assumption | with_reducible apply KeepsAns.next | (refine State.trnGuard_keeps ?_ (by assumption)) | with_reducible apply State.setWord_keeps | with_reducible apply State.setF_keeps | with_reducible refine KeepsAns.ite ?_ ?_ | with_reducible refine Keeps.ite ?_ ?_ | split | (with_reducible apply Keeps.upd; with_reducible assumption)

theorem execSwEventRaise_keeps {s₀ s : State} (h : Keeps s₀ s) (bits : BitVec 8) : KeepsAns s₀ (execSwEventRaise bits s) := by
  unfold execSwEventRaise
  repeat' first | with_reducible assumption | with_reducible apply KeepsAns.next | (refine State.trnGuard_keeps ?_ (by assumption)) | with_reducible apply State.event_keeps | (with_reducible apply Keeps.foldl; intro _ _ _) | with_reducible refine KeepsAns.ite ?_ ?_ | with_reducible refine Keeps.ite ?_ ?_ | split

theorem execTimerExpire_keeps {s₀ s : State} (h : Keeps s₀ s) (i : Nat) : KeepsAns s₀ (execTimerExpire i s) := by
  unfold execTimerExpire
  try dsimp only
  repeat' first | with_reducible assumption | with_reducible apply KeepsAns.next | with_reducible apply State.event_keeps | with_reducible apply State.startTimer_keeps | with_reducible apply State.setF_keeps | with_reducible refine KeepsAns.ite ?_ ?_ | with_reducible refine Keeps.ite ?_ ?_

theorem execWebCompareArm_keeps {s₀ s : State} (h : Keeps s₀ s) (i : Nat) (value : BitVec 32) : KeepsAns s₀ (execWebCompareArm i value s) := by
  unfold execWebCompareArm
  repeat' first | (extract_lets +onlyGivenNames z; first | (refine Keeps.cut (s₀ := s₀) z ?_ ?_; rotate_left; clear_value z; intro hz; rotate_left; subst z) | clear_value z) | with_reducible assumption | with_reducible apply KeepsAns.next | (refine State.trnGuard_keeps ?_ (by assumption)) | with_reducible apply State.setWord_keeps | with_reducible refine KeepsAns.ite ?_ ?_ | with_reducible refine Keeps.ite ?_ ?_ | split | (with_reducible apply Keeps.upd; with_reducible assumption)

theorem execWebCompareFire_keeps {s₀ s : State} (h : Keeps s₀ s) (i : Nat) : KeepsAns s₀ (execWebCompareFire i s) := by
  unfold execWebCompareFire
  try dsimp only
  repeat' first | with_reducible assumption | with_reducible apply KeepsAns.next | with_reducible apply State.event_keeps | with_reducible refine KeepsAns.ite ?_ ?_ | with_reducible refine Keeps.ite ?_ ?_ | (with_reducible apply Keeps.upd; with_reducible assumption)

end Sys2Proof.Machine
end

