-- ==== Sys2Proof/Laws/KeepPower.lean ====
section
/-! SUPPORT. What the operations of Machine/Power.lean keep (Laws/Keep.lean). -/
namespace Sys2Proof.Machine
set_option Elab.async false
set_option linter.all false

theorem State.closeSession_keeps {s₀ s : State} (h : Keeps s₀ s) (cause : Nat) : Keeps s₀ (State.closeSession s cause) := by
  unfold State.closeSession
  repeat' first | (extract_lets +onlyGivenNames z; first | (refine Keeps.cut (s₀ := s₀) z ?_ ?_; rotate_left; clear_value z; intro hz; rotate_left; subst z) | clear_value z) | with_reducible assumption | with_reducible apply State.setF_keeps | with_reducible refine Keeps.ite ?_ ?_ | (with_reducible apply Keeps.upd; with_reducible assumption)

theorem State.stepDone_keeps {s₀ s : State} (h : Keeps s₀ s) (p : Nat) : Keeps s₀ (State.stepDone s p) := by
  unfold State.stepDone
  repeat' first | with_reducible assumption | with_reducible apply State.setF_keeps | with_reducible apply State.setPower_keeps

theorem State.stepRefused_keeps {s₀ s : State} (h : Keeps s₀ s) (cause : Nat) : Keeps s₀ (State.stepRefused s cause) := by
  unfold State.stepRefused
  repeat' first | with_reducible assumption | with_reducible apply State.raise_keeps | with_reducible apply State.setF_keeps | with_reducible apply State.pf_keeps

theorem State.ringStop_keeps {s₀ s : State} (h : Keeps s₀ s) : Keeps s₀ (State.ringStop s) := by
  unfold State.ringStop
  repeat' first | (extract_lets +onlyGivenNames z; first | (refine Keeps.cut (s₀ := s₀) z ?_ ?_; rotate_left; clear_value z; intro hz; rotate_left; subst z) | clear_value z) | with_reducible assumption | with_reducible apply State.setPortState_keeps | with_reducible apply State.setF_keeps | with_reducible apply State.setCul_keeps | with_reducible refine Keeps.ite ?_ ?_ | (with_reducible apply Keeps.upd; with_reducible assumption)

theorem State.ringStart_keeps {s₀ s : State} (h : Keeps s₀ s) : Keeps s₀ (State.ringStart s) := by
  unfold State.ringStart
  repeat' first | (extract_lets +onlyGivenNames z; first | (refine Keeps.cut (s₀ := s₀) z ?_ ?_; rotate_left; clear_value z; intro hz; rotate_left; subst z) | clear_value z) | with_reducible assumption | with_reducible apply State.setPortState_keeps | with_reducible apply State.setF_keeps | with_reducible apply State.setCul_keeps | with_reducible refine Keeps.ite ?_ ?_ | (with_reducible apply Keeps.upd; with_reducible assumption)

theorem State.linksOff_keeps {s₀ s : State} (h : Keeps s₀ s) : Keeps s₀ (State.linksOff s) := by
  unfold State.linksOff
  repeat' first | (extract_lets +onlyGivenNames z; first | (refine Keeps.cut (s₀ := s₀) z ?_ ?_; rotate_left; clear_value z; intro hz; rotate_left; subst z) | clear_value z) | with_reducible assumption | with_reducible apply State.ringStop_keeps | with_reducible apply State.flumesOff_keeps | with_reducible apply State.modPort_keeps | with_reducible apply State.setBl_keeps | with_reducible apply State.insLinkDown_keeps | (with_reducible apply Keeps.foldl; intro _ _ _) | with_reducible refine Keeps.ite ?_ ?_ | (with_reducible apply Keeps.upd; with_reducible assumption)

theorem State.linksOn_keeps {s₀ s : State} (h : Keeps s₀ s) : Keeps s₀ (State.linksOn s) := by
  unfold State.linksOn
  repeat' first | (extract_lets +onlyGivenNames z; first | (refine Keeps.cut (s₀ := s₀) z ?_ ?_; rotate_left; clear_value z; intro hz; rotate_left; subst z) | clear_value z) | with_reducible assumption | with_reducible apply State.startTests_keeps | with_reducible apply State.retrain_keeps | with_reducible apply State.setInsLink_keeps | with_reducible apply State.ringStart_keeps | (with_reducible apply Keeps.foldl; intro _ _ _) | with_reducible refine Keeps.ite ?_ ?_

theorem State.goToSleep_keeps {s₀ s : State} (h : Keeps s₀ s) : Keeps s₀ (State.goToSleep s) := by
  unfold State.goToSleep
  repeat' first | (extract_lets +onlyGivenNames z; first | (refine Keeps.cut (s₀ := s₀) z ?_ ?_; rotate_left; clear_value z; intro hz; rotate_left; subst z) | clear_value z) | with_reducible assumption | with_reducible apply State.stopChannels_keeps | with_reducible apply State.stopJobs_keeps | with_reducible apply State.composerSleep_keeps | with_reducible apply State.loopsSleep_keeps | with_reducible apply State.axesSleep_keeps | with_reducible apply State.trnSleep_keeps | with_reducible apply State.refreshRefusal_keeps | with_reducible apply State.closeSpool_keeps | with_reducible apply State.closeSession_keeps | with_reducible apply State.alSleep_keeps | (with_reducible apply Keeps.upd; with_reducible assumption)

theorem State.wakeUp_keeps {s₀ s : State} (h : Keeps s₀ s) : Keeps s₀ (State.wakeUp s) := by
  unfold State.wakeUp
  repeat' first | (extract_lets +onlyGivenNames z; first | (refine Keeps.cut (s₀ := s₀) z ?_ ?_; rotate_left; clear_value z; intro hz; rotate_left; subst z) | clear_value z) | with_reducible assumption | with_reducible apply State.resumeChannels_keeps | with_reducible apply State.spoolStart_keeps | with_reducible apply State.refreshRefusal_keeps | with_reducible refine Keeps.ite ?_ ?_ | (with_reducible apply Keeps.upd; with_reducible assumption)

theorem State.seqStart_keeps {s₀ s : State} (h : Keeps s₀ s) (up : Bool) : Keeps s₀ (State.seqStart s up) := by
  unfold State.seqStart
  repeat' first | (extract_lets +onlyGivenNames z; first | (refine Keeps.cut (s₀ := s₀) z ?_ ?_; rotate_left; clear_value z; intro hz; rotate_left; subst z) | clear_value z) | with_reducible assumption | with_reducible apply State.setF_keeps | with_reducible refine Keeps.ite ?_ ?_ | (with_reducible apply Keeps.upd; with_reducible assumption)

theorem State.seqOver_keeps {s₀ s : State} (h : Keeps s₀ s) (code : Nat) : Keeps s₀ (State.seqOver s code) := by
  unfold State.seqOver
  repeat' first | (extract_lets +onlyGivenNames z; first | (refine Keeps.cut (s₀ := s₀) z ?_ ?_; rotate_left; clear_value z; intro hz; rotate_left; subst z) | clear_value z) | with_reducible assumption | with_reducible apply State.setF_keeps | with_reducible apply State.stageTo_keeps | with_reducible apply State.stepDone_keeps | with_reducible apply State.wakeUp_keeps | with_reducible apply State.report_keeps | with_reducible apply State.pf_keeps | with_reducible apply State.seqStart_keeps | with_reducible refine Keeps.ite ?_ ?_ | split | (with_reducible apply Keeps.upd; with_reducible assumption)

theorem State.seqStop_keeps {s₀ s : State} (h : Keeps s₀ s) : Keeps s₀ (State.seqStop s) := by
  unfold State.seqStop
  repeat' first | (extract_lets +onlyGivenNames z; first | (refine Keeps.cut (s₀ := s₀) z ?_ ?_; rotate_left; clear_value z; intro hz; rotate_left; subst z) | clear_value z) | with_reducible assumption | with_reducible apply State.setF_keeps | with_reducible refine Keeps.ite ?_ ?_ | (with_reducible apply Keeps.upd; with_reducible assumption)

theorem State.seqNext_keeps {s₀ s : State} (h : Keeps s₀ s) (wait : Bool) (pc : Option Nat) : Keeps s₀ (State.seqNext s wait pc) := by
  unfold State.seqNext
  try dsimp only
  repeat' first | with_reducible assumption | with_reducible apply State.seqOver_keeps | with_reducible apply State.setF_keeps | with_reducible refine Keeps.ite ?_ ?_ | split | (with_reducible apply Keeps.upd; with_reducible assumption)

theorem execSeqProgramWrite_keeps {s₀ s : State} (h : Keeps s₀ s) (i : Nat) (value : BitVec 32) : KeepsAns s₀ (execSeqProgramWrite i value s) := by
  unfold execSeqProgramWrite
  try dsimp only
  repeat' first | with_reducible assumption | with_reducible apply KeepsAns.next | with_reducible apply State.reportAccess_keeps | with_reducible apply State.darkWrite_keeps | with_reducible apply State.setWord_keeps | with_reducible apply State.raise_keeps | with_reducible refine KeepsAns.ite ?_ ?_ | with_reducible refine Keeps.ite ?_ ?_

theorem execSeqEnd_keeps {s₀ s : State} (h : Keeps s₀ s) : KeepsAns s₀ (execSeqEnd s) := by
  unfold execSeqEnd
  repeat' first | with_reducible assumption | with_reducible apply KeepsAns.next | with_reducible apply State.seqOver_keeps | with_reducible refine KeepsAns.ite ?_ ?_ | with_reducible refine Keeps.ite ?_ ?_

theorem execSeqEnable_keeps {s₀ s : State} (h : Keeps s₀ s) : KeepsAns s₀ (execSeqEnable s) := by
  unfold execSeqEnable
  repeat' first | with_reducible assumption | with_reducible apply KeepsAns.next | with_reducible apply State.setF_keeps | with_reducible apply State.railSync_keeps | with_reducible apply State.seqNext_keeps | with_reducible refine KeepsAns.ite ?_ ?_ | with_reducible refine Keeps.ite ?_ ?_

theorem execSeqDisable_keeps {s₀ s : State} (h : Keeps s₀ s) : KeepsAns s₀ (execSeqDisable s) := by
  unfold execSeqDisable
  try dsimp only
  repeat' first | with_reducible assumption | with_reducible apply KeepsAns.next | with_reducible apply State.setF_keeps | with_reducible apply State.railSync_keeps | with_reducible apply State.seqNext_keeps | with_reducible refine KeepsAns.ite ?_ ?_ | with_reducible refine Keeps.ite ?_ ?_

theorem execSeqWait_keeps {s₀ s : State} (h : Keeps s₀ s) : KeepsAns s₀ (execSeqWait s) := by
  unfold execSeqWait
  repeat' first | with_reducible assumption | with_reducible apply KeepsAns.next | with_reducible apply State.seqNext_keeps | with_reducible refine KeepsAns.ite ?_ ?_ | with_reducible refine Keeps.ite ?_ ?_

theorem execSeqWaitpg_keeps {s₀ s : State} (h : Keeps s₀ s) (expired : Bool) : KeepsAns s₀ (execSeqWaitpg expired s) := by
  unfold execSeqWaitpg
  try dsimp only
  repeat' first | with_reducible assumption | with_reducible apply KeepsAns.next | with_reducible apply State.setB_keeps | with_reducible apply State.seqNext_keeps | with_reducible refine KeepsAns.ite ?_ ?_ | with_reducible refine Keeps.ite ?_ ?_

theorem execSeqCheck_keeps {s₀ s : State} (h : Keeps s₀ s) : KeepsAns s₀ (execSeqCheck s) := by
  unfold execSeqCheck
  try dsimp only
  repeat' first | with_reducible assumption | with_reducible apply KeepsAns.next | with_reducible apply State.setB_keeps | with_reducible apply State.seqNext_keeps | with_reducible refine KeepsAns.ite ?_ ?_ | with_reducible refine Keeps.ite ?_ ?_ | split

theorem execSeqJump_keeps {s₀ s : State} (h : Keeps s₀ s) : KeepsAns s₀ (execSeqJump s) := by
  unfold execSeqJump
  repeat' first | with_reducible assumption | with_reducible apply KeepsAns.next | with_reducible apply State.seqNext_keeps | with_reducible refine KeepsAns.ite ?_ ?_ | with_reducible refine Keeps.ite ?_ ?_

theorem execSeqJumpif_keeps {s₀ s : State} (h : Keeps s₀ s) : KeepsAns s₀ (execSeqJumpif s) := by
  unfold execSeqJumpif
  repeat' first | with_reducible assumption | with_reducible apply KeepsAns.next | with_reducible apply State.seqNext_keeps | with_reducible refine KeepsAns.ite ?_ ?_ | with_reducible refine Keeps.ite ?_ ?_

theorem execSeqLimitTimeout_keeps {s₀ s : State} (h : Keeps s₀ s) : KeepsAns s₀ (execSeqLimitTimeout s) := by
  unfold execSeqLimitTimeout
  repeat' first | with_reducible assumption | with_reducible apply KeepsAns.next | with_reducible apply State.seqOver_keeps | with_reducible refine KeepsAns.ite ?_ ?_ | with_reducible refine Keeps.ite ?_ ?_

theorem execPowerStateRequest_keeps {s₀ s : State} (h : Keeps s₀ s) (value : Nat) : KeepsAns s₀ (execPowerStateRequest value s) := by
  unfold execPowerStateRequest
  repeat' first | with_reducible assumption | with_reducible apply KeepsAns.next | with_reducible apply State.darkWrite_keeps | with_reducible apply State.raise_keeps | with_reducible apply State.setF_keeps | with_reducible refine KeepsAns.ite ?_ ?_ | with_reducible refine Keeps.ite ?_ ?_

theorem State.enterRun_keeps {s₀ s : State} (h : Keeps s₀ s) (c : Nat) : Keeps s₀ (State.enterRun s c) := by
  unfold State.enterRun
  repeat' first | (extract_lets +onlyGivenNames z; first | (refine Keeps.cut (s₀ := s₀) z ?_ ?_; rotate_left; clear_value z; intro hz; rotate_left; subst z) | clear_value z) | with_reducible assumption | with_reducible apply State.setF_keeps | with_reducible apply State.setPower_keeps | with_reducible apply State.stageTo_keeps | with_reducible apply State.classStart_keeps | (with_reducible apply Keeps.upd; with_reducible assumption)

theorem State.noteRefusal_keeps {s₀ s : State} (h : Keeps s₀ s) : Keeps s₀ (State.noteRefusal s) := by
  unfold State.noteRefusal
  try dsimp only
  repeat' first | with_reducible assumption | with_reducible apply State.setF_keeps | with_reducible refine Keeps.ite ?_ ?_ | (with_reducible apply Keeps.upd; with_reducible assumption)

theorem execPowerStepReadyToRun_keeps {s₀ s : State} (h : Keeps s₀ s) : KeepsAns s₀ (execPowerStepReadyToRun s) := by
  unfold execPowerStepReadyToRun
  repeat' first | with_reducible assumption | with_reducible apply KeepsAns.next | with_reducible apply State.noteRefusal_keeps | with_reducible apply State.stepRefused_keeps | with_reducible apply State.enterRun_keeps | with_reducible refine KeepsAns.ite ?_ ?_ | with_reducible refine Keeps.ite ?_ ?_ | split

theorem State.leaveRun_keeps {s₀ s : State} (h : Keeps s₀ s) : Keeps s₀ (State.leaveRun s) := by
  unfold State.leaveRun
  repeat' first | (extract_lets +onlyGivenNames z; first | (refine Keeps.cut (s₀ := s₀) z ?_ ?_; rotate_left; clear_value z; intro hz; rotate_left; subst z) | clear_value z) | with_reducible assumption | with_reducible apply State.syncSpeed_keeps | with_reducible apply State.setF_keeps | with_reducible apply State.unclaim_keeps | with_reducible apply State.askSpeed_keeps | with_reducible apply State.stepDone_keeps | with_reducible refine Keeps.ite ?_ ?_ | (with_reducible apply Keeps.upd; with_reducible assumption)

theorem execPowerStepRunToReady_keeps {s₀ s : State} (h : Keeps s₀ s) : KeepsAns s₀ (execPowerStepRunToReady s) := by
  unfold execPowerStepRunToReady
  repeat' first | with_reducible assumption | with_reducible apply KeepsAns.next | with_reducible apply State.leaveRun_keeps | with_reducible refine KeepsAns.ite ?_ ?_ | with_reducible refine Keeps.ite ?_ ?_

theorem execPowerStepReadyToStandby_keeps {s₀ s : State} (h : Keeps s₀ s) : KeepsAns s₀ (execPowerStepReadyToStandby s) := by
  unfold execPowerStepReadyToStandby
  repeat' first | (extract_lets +onlyGivenNames z; first | (refine Keeps.cut (s₀ := s₀) z ?_ ?_; rotate_left; clear_value z; intro hz; rotate_left; subst z) | clear_value z) | with_reducible assumption | with_reducible apply KeepsAns.next | with_reducible apply State.syncSpeed_keeps | with_reducible apply State.stepRefused_keeps | with_reducible apply State.setF_keeps | with_reducible apply State.linksOff_keeps | with_reducible apply State.stepDone_keeps | with_reducible refine KeepsAns.ite ?_ ?_ | with_reducible refine Keeps.ite ?_ ?_ | (with_reducible apply Keeps.upd; with_reducible assumption)

theorem execPowerStepStandbyToReady_keeps {s₀ s : State} (h : Keeps s₀ s) : KeepsAns s₀ (execPowerStepStandbyToReady s) := by
  unfold execPowerStepStandbyToReady
  repeat' first | with_reducible assumption | with_reducible apply KeepsAns.next | with_reducible apply State.stepDone_keeps | with_reducible apply State.linksOn_keeps | with_reducible apply State.stageTo_keeps | with_reducible refine KeepsAns.ite ?_ ?_ | with_reducible refine Keeps.ite ?_ ?_

theorem execPowerStepStandbyToSleep_keeps {s₀ s : State} (h : Keeps s₀ s) : KeepsAns s₀ (execPowerStepStandbyToSleep s) := by
  unfold execPowerStepStandbyToSleep
  repeat' first | with_reducible assumption | with_reducible apply KeepsAns.next | with_reducible apply State.setF_keeps | with_reducible apply State.goToSleep_keeps | with_reducible apply State.seqStart_keeps | with_reducible refine KeepsAns.ite ?_ ?_ | with_reducible refine Keeps.ite ?_ ?_

theorem execPowerStepSleepToStandby_keeps {s₀ s : State} (h : Keeps s₀ s) : KeepsAns s₀ (execPowerStepSleepToStandby s) := by
  unfold execPowerStepSleepToStandby
  repeat' first | with_reducible assumption | with_reducible apply KeepsAns.next | with_reducible apply State.stepRefused_keeps | with_reducible apply State.setF_keeps | with_reducible apply State.seqStart_keeps | with_reducible apply State.stageTo_keeps | with_reducible refine KeepsAns.ite ?_ ?_ | with_reducible refine Keeps.ite ?_ ?_

end Sys2Proof.Machine
end

