-- ==== Sys2Proof/Laws/KeepClimate.lean ====
section
/-! SUPPORT. What the operations of Machine/Climate.lean keep (Laws/Keep.lean). -/
namespace Sys2Proof.Machine
set_option Elab.async false
set_option linter.all false

theorem execPmbusPoll_keeps {s₀ s : State} (h : Keeps s₀ s) (ok : Bool) (fault : Option Nat) : KeepsAns s₀ (execPmbusPoll ok fault s) := by
  unfold execPmbusPoll
  try dsimp only
  repeat' first | with_reducible assumption | with_reducible apply KeepsAns.next | with_reducible apply State.raise_keeps | with_reducible apply State.report_keeps | with_reducible apply State.pf_keeps | with_reducible refine KeepsAns.ite ?_ ?_ | with_reducible refine Keeps.ite ?_ ?_ | split | (with_reducible apply Keeps.upd; with_reducible assumption)

theorem State.setVset_keeps {s₀ s : State} (h : Keeps s₀ s) (v : Nat) : Keeps s₀ (State.setVset s v) := by
  unfold State.setVset
  repeat' first | with_reducible assumption | with_reducible apply State.setF_keeps | with_reducible apply State.satInc_keeps | with_reducible apply State.emit_keeps | with_reducible refine Keeps.ite ?_ ?_

theorem State.govern_keeps {s₀ s : State} (h : Keeps s₀ s) (smin : Int) : Keeps s₀ (State.govern s smin) := by
  unfold State.govern
  try dsimp only
  repeat' first | with_reducible assumption | with_reducible apply State.setVset_keeps | with_reducible refine Keeps.ite ?_ ?_ | (with_reducible apply Keeps.upd; with_reducible assumption)

theorem State.pace_keeps {s₀ s : State} (h : Keeps s₀ s) (smin : Int) : Keeps s₀ (State.pace s smin) := by
  unfold State.pace
  repeat' first | (extract_lets +onlyGivenNames z; first | (refine Keeps.cut (s₀ := s₀) z ?_ ?_; rotate_left; clear_value z; intro hz; rotate_left; subst z) | clear_value z) | with_reducible assumption | with_reducible apply State.weirOn_keeps | with_reducible apply State.weirAsk_keeps | with_reducible apply State.pf_keeps | with_reducible apply State.weirOff_keeps | with_reducible refine Keeps.ite ?_ ?_ | (with_reducible apply Keeps.upd; with_reducible assumption)

theorem execPaceEvaluate_keeps {s₀ s : State} (h : Keeps s₀ s) (slack : List (BitVec 16)) (vread : Nat) : KeepsAns s₀ (execPaceEvaluate slack vread s) := by
  unfold execPaceEvaluate
  repeat' first | (extract_lets +onlyGivenNames z; first | (refine Keeps.cut (s₀ := s₀) z ?_ ?_; rotate_left; clear_value z; intro hz; rotate_left; subst z) | clear_value z) | with_reducible assumption | with_reducible apply KeepsAns.next | with_reducible apply State.setF_keeps | with_reducible apply State.report_keeps | with_reducible apply State.pf_keeps | with_reducible apply State.govern_keeps | with_reducible apply State.pace_keeps | (with_reducible apply Keeps.foldl; intro _ _ _) | with_reducible refine KeepsAns.ite ?_ ?_ | with_reducible refine Keeps.ite ?_ ?_ | split | (with_reducible apply Keeps.upd; with_reducible assumption)

theorem execVddCoreUndervolt_keeps {s₀ s : State} (h : Keeps s₀ s) : KeepsAns s₀ (execVddCoreUndervolt s) := by
  unfold execVddCoreUndervolt
  repeat' first | with_reducible assumption | with_reducible apply KeepsAns.next | with_reducible apply State.report_keeps | with_reducible apply State.pf_keeps | with_reducible refine KeepsAns.ite ?_ ?_ | with_reducible refine Keeps.ite ?_ ?_

theorem State.darken_keeps {s₀ s : State} (h : Keeps s₀ s) (otp : Bool) : Keeps s₀ (State.darken s otp) := by
  unfold State.darken
  have k := State.setSpool_keeps (State.otpCut_keeps h) false
  extract_lets u keep r a b t
  refine State.setF_keeps (s₀ := s₀) (s := t) ⟨k.queue, k.sent, k.drawn, fun c => ?_⟩ _ _
  have q := k.canonical c
  exact ⟨Store.wf_filter _ q.1, Store.wf_nil _, Store.wf_nil _, Store.wf_nil _, q.5⟩

theorem State.gatesShut_keeps {s₀ s : State} (h : Keeps s₀ s) : Keeps s₀ (State.gatesShut s) := by
  unfold State.gatesShut
  repeat' first | with_reducible assumption | with_reducible apply State.setF_keeps | (with_reducible apply Keeps.foldl; intro _ _ _)

theorem State.keepPins_keeps {s₀ s : State} (h : Keeps s₀ s) (old : State) (hold : Keeps s₀ old) : Keeps s₀ (State.keepPins s old) := by
  unfold State.keepPins
  repeat' first | (extract_lets +onlyGivenNames z; first | (refine Keeps.cut (s₀ := s₀) z ?_ ?_; rotate_left; clear_value z; intro hz; rotate_left; subst z) | clear_value z) | with_reducible assumption | with_reducible apply State.setWord_keeps | with_reducible apply State.setF_keeps | (with_reducible apply Keeps.foldl; intro _ _ _) | (with_reducible apply Keeps.upd; with_reducible assumption)

theorem State.hibernate_keeps {s₀ s : State} (h : Keeps s₀ s) : Keeps s₀ (State.hibernate s) := by
  unfold State.hibernate
  repeat' first | (extract_lets +onlyGivenNames z; first | (refine Keeps.cut (s₀ := s₀) z ?_ ?_; rotate_left; clear_value z; intro hz; rotate_left; subst z) | clear_value z) | with_reducible assumption | with_reducible apply State.closeSession_keeps | with_reducible apply State.pmicOff_keeps | with_reducible apply State.aliveStop_keeps | with_reducible apply State.darken_keeps | with_reducible apply State.keepPins_keeps | with_reducible apply State.gatesShut_keeps | with_reducible apply State.setF_keeps | with_reducible apply State.hdgSync_keeps | with_reducible apply State.railSync_keeps | (with_reducible apply Keeps.upd; with_reducible assumption)

theorem State.armWake_keeps {s₀ s : State} (h : Keeps s₀ s) : Keeps s₀ (State.armWake s) := by
  unfold State.armWake
  repeat' first | (extract_lets +onlyGivenNames z; first | (refine Keeps.cut (s₀ := s₀) z ?_ ?_; rotate_left; clear_value z; intro hz; rotate_left; subst z) | clear_value z) | with_reducible assumption | with_reducible apply State.ectReport_keeps | with_reducible refine Keeps.ite ?_ ?_ | (with_reducible apply Keeps.upd; with_reducible assumption)

theorem execPowerStepSleepToHibernate_keeps {s₀ s : State} (h : Keeps s₀ s) : KeepsAns s₀ (execPowerStepSleepToHibernate s) := by
  unfold execPowerStepSleepToHibernate
  repeat' first | with_reducible assumption | with_reducible apply KeepsAns.next | with_reducible apply State.armWake_keeps | with_reducible apply State.hibernate_keeps | with_reducible refine KeepsAns.ite ?_ ?_ | with_reducible refine Keeps.ite ?_ ?_

theorem execPowerStepHibernateToOff_keeps {s₀ s : State} (h : Keeps s₀ s) : KeepsAns s₀ (execPowerStepHibernateToOff s) := by
  unfold execPowerStepHibernateToOff
  repeat' first | (extract_lets +onlyGivenNames z; first | (refine Keeps.cut (s₀ := s₀) z ?_ ?_; rotate_left; clear_value z; intro hz; rotate_left; subst z) | clear_value z) | with_reducible assumption | with_reducible apply KeepsAns.next | with_reducible apply State.pmicOff_keeps | with_reducible apply State.railsOff_keeps | with_reducible apply State.resetRegs_keeps | with_reducible apply State.setF_keeps | with_reducible apply State.hdgSync_keeps | with_reducible refine KeepsAns.ite ?_ ?_ | with_reducible refine Keeps.ite ?_ ?_ | (with_reducible apply Keeps.upd; with_reducible assumption)

theorem State.setSensor_keeps {s₀ s : State} (h : Keeps s₀ s) (i : Nat) (x : Sensor) : Keeps s₀ (State.setSensor s i x) := by
  unfold State.setSensor
  try dsimp only
  repeat' first | with_reducible assumption | (with_reducible apply Keeps.upd; with_reducible assumption)

theorem State.excludeSensor_keeps {s₀ s : State} (h : Keeps s₀ s) (i : Nat) : Keeps s₀ (State.excludeSensor s i) := by
  unfold State.excludeSensor
  try dsimp only
  repeat' first | with_reducible assumption | with_reducible apply State.setF_keeps | with_reducible apply State.raise_keeps | with_reducible apply State.setSensor_keeps | with_reducible apply State.report_keeps | with_reducible apply State.pf_keeps | (with_reducible apply Keeps.upd; with_reducible assumption)

theorem State.judgeSensor_keeps {s₀ s : State} (h : Keeps s₀ s) (med2 : Int) (i : Nat) : Keeps s₀ (State.judgeSensor s med2 i) := by
  unfold State.judgeSensor
  try dsimp only
  repeat' first | with_reducible assumption | with_reducible apply State.setF_keeps | with_reducible apply State.setSensor_keeps | with_reducible apply State.excludeSensor_keeps | with_reducible refine Keeps.ite ?_ ?_ | (with_reducible apply Keeps.upd; with_reducible assumption)

theorem State.thermalWarning_keeps {s₀ s : State} (h : Keeps s₀ s) : Keeps s₀ (State.thermalWarning s) := by
  unfold State.thermalWarning
  repeat' first | (extract_lets +onlyGivenNames z; first | (refine Keeps.cut (s₀ := s₀) z ?_ ?_; rotate_left; clear_value z; intro hz; rotate_left; subst z) | clear_value z) | with_reducible assumption | with_reducible apply State.weirOn_keeps | with_reducible apply State.weirAsk_keeps | with_reducible apply State.setF_keeps | with_reducible apply State.report_keeps | with_reducible apply State.pf_keeps | (with_reducible apply Keeps.upd; with_reducible assumption)

theorem State.thermalClear_keeps {s₀ s : State} (h : Keeps s₀ s) : Keeps s₀ (State.thermalClear s) := by
  unfold State.thermalClear
  repeat' first | (extract_lets +onlyGivenNames z; first | (refine Keeps.cut (s₀ := s₀) z ?_ ?_; rotate_left; clear_value z; intro hz; rotate_left; subst z) | clear_value z) | with_reducible assumption | with_reducible apply State.weirOff_keeps | with_reducible apply State.setF_keeps | with_reducible apply State.pf_keeps | (with_reducible apply Keeps.upd; with_reducible assumption)

theorem State.judgeHot_keeps {s₀ s : State} (h : Keeps s₀ s) : Keeps s₀ (State.judgeHot s) := by
  unfold State.judgeHot
  repeat' first | (extract_lets +onlyGivenNames z; first | (refine Keeps.cut (s₀ := s₀) z ?_ ?_; rotate_left; clear_value z; intro hz; rotate_left; subst z) | clear_value z) | with_reducible assumption | with_reducible apply State.thermalWarning_keeps | with_reducible apply State.thermalClear_keeps | with_reducible apply State.report_keeps | with_reducible apply State.pf_keeps | with_reducible refine Keeps.ite ?_ ?_ | (with_reducible apply Keeps.upd; with_reducible assumption)

theorem State.thermalShutdown_keeps {s₀ s : State} (h : Keeps s₀ s) (i : Nat) : Keeps s₀ (State.thermalShutdown s i) := by
  unfold State.thermalShutdown
  repeat' first | (extract_lets +onlyGivenNames z; first | (refine Keeps.cut (s₀ := s₀) z ?_ ?_; rotate_left; clear_value z; intro hz; rotate_left; subst z) | clear_value z) | with_reducible assumption | with_reducible apply State.setF_keeps | with_reducible apply State.satInc_keeps | with_reducible apply State.hdgSync_keeps | with_reducible apply State.aliveStop_keeps | with_reducible apply State.lastWord_keeps | with_reducible apply State.seqStop_keeps | with_reducible apply State.railSync_keeps | with_reducible apply State.hibernate_keeps | (with_reducible apply Keeps.upd; with_reducible assumption)

theorem State.thermalRound_keeps {s₀ s : State} (h : Keeps s₀ s) (temps : List (BitVec 16)) : Keeps s₀ (State.thermalRound s temps) := by
  unfold State.thermalRound
  repeat' first | (extract_lets +onlyGivenNames z; first | (refine Keeps.cut (s₀ := s₀) z ?_ ?_; rotate_left; clear_value z; intro hz; rotate_left; subst z) | clear_value z) | with_reducible assumption | with_reducible apply State.setF_keeps | with_reducible apply State.judgeSensor_keeps | with_reducible apply State.report_keeps | with_reducible apply State.pf_keeps | with_reducible apply State.setSensor_keeps | with_reducible apply State.thermalShutdown_keeps | with_reducible apply State.judgeHot_keeps | (with_reducible apply Keeps.foldl; intro _ _ _) | with_reducible refine Keeps.ite ?_ ?_ | split | (with_reducible apply Keeps.upd; with_reducible assumption)

theorem execThermalSensorRound_keeps {s₀ s : State} (h : Keeps s₀ s) (temps : List (BitVec 16)) : KeepsAns s₀ (execThermalSensorRound temps s) := by
  unfold execThermalSensorRound
  repeat' first | with_reducible assumption | with_reducible apply KeepsAns.next | with_reducible apply State.thermalRound_keeps | with_reducible refine KeepsAns.ite ?_ ?_ | with_reducible refine Keeps.ite ?_ ?_

theorem execWeirGraceExpiry_keeps {s₀ s : State} (h : Keeps s₀ s) : KeepsAns s₀ (execWeirGraceExpiry s) := by
  unfold execWeirGraceExpiry
  repeat' first | (extract_lets +onlyGivenNames z; first | (refine Keeps.cut (s₀ := s₀) z ?_ ?_; rotate_left; clear_value z; intro hz; rotate_left; subst z) | clear_value z) | with_reducible assumption | with_reducible apply KeepsAns.next | with_reducible apply State.weirAsk_keeps | with_reducible apply State.satInc_keeps | with_reducible apply State.pf_keeps | with_reducible refine KeepsAns.ite ?_ ?_ | with_reducible refine Keeps.ite ?_ ?_ | (with_reducible apply Keeps.upd; with_reducible assumption)

end Sys2Proof.Machine
end

