-- ==== Sys2Proof/Laws/KeepSump.lean ====
section
/-! SUPPORT. What the operations of Machine/Sump.lean keep (Laws/Keep.lean). -/
namespace Sys2Proof.Machine
set_option Elab.async false
set_option linter.all false

theorem State.showQueue_keeps {s₀ s : State} (h : Keeps s₀ s) : Keeps s₀ (State.showQueue s) := by
  unfold State.showQueue
  repeat' first | (extract_lets +onlyGivenNames z; first | (refine Keeps.cut (s₀ := s₀) z ?_ ?_; rotate_left; clear_value z; intro hz; rotate_left; subst z) | clear_value z) | with_reducible assumption | with_reducible apply State.setF_keeps | with_reducible apply State.set64_keeps | with_reducible refine Keeps.ite ?_ ?_ | (with_reducible apply Keeps.upd; with_reducible assumption)

theorem State.capture_keeps {s₀ s : State} (h : Keeps s₀ s) (r : Report) : Keeps s₀ (State.capture s r) := by
  unfold State.capture
  try dsimp only
  repeat' first | with_reducible assumption | with_reducible apply State.setF_keeps | with_reducible apply State.set64_keeps | with_reducible refine Keeps.ite ?_ ?_

theorem State.enqueue_keeps {s₀ s : State} (h : Keeps s₀ s) (r : Report) : Keeps s₀ (State.enqueue s r) := by
  unfold State.enqueue
  try dsimp only
  repeat' first | with_reducible assumption | with_reducible apply State.satInc_keeps | with_reducible apply State.mark_keeps | with_reducible apply State.showQueue_keeps | with_reducible apply State.wrapInc_keeps | with_reducible apply State.record_keeps | with_reducible refine Keeps.ite ?_ ?_ | (with_reducible apply Keeps.upd; with_reducible assumption)

theorem State.endPage_keeps {s₀ s : State} (h : Keeps s₀ s) (p : Page) : Keeps s₀ (State.endPage s p) := by
  unfold State.endPage
  try dsimp only
  repeat' first | with_reducible assumption | with_reducible apply State.modPage_keeps | with_reducible apply State.modFrame_keeps | with_reducible apply State.finalState_keeps | with_reducible apply State.insDrop_keeps | with_reducible apply State.withdraw_keeps | with_reducible refine Keeps.ite ?_ ?_ | split | (with_reducible apply Keeps.upd; with_reducible assumption)

theorem State.dropOpenCopies_keeps {s₀ s : State} (h : Keeps s₀ s) : Keeps s₀ (State.dropOpenCopies s) := by
  unfold State.dropOpenCopies
  repeat' first | with_reducible assumption | with_reducible apply State.loseCopy_keeps | (with_reducible apply Keeps.foldl; intro _ _ _)

theorem State.composerStop_keeps {s₀ s : State} (h : Keeps s₀ s) : Keeps s₀ (State.composerStop s) := by
  unfold State.composerStop
  try dsimp only
  repeat' first | with_reducible assumption | with_reducible apply State.dropJobs_keeps | with_reducible apply State.pin_keeps | with_reducible apply State.setStore_keeps | (with_reducible apply Keeps.tileClear; with_reducible assumption) | split | (with_reducible apply Keeps.upd; with_reducible assumption)

theorem State.composerResume_keeps {s₀ s : State} (h : Keeps s₀ s) : Keeps s₀ (State.composerResume s) := by
  unfold State.composerResume
  repeat' first | with_reducible assumption | with_reducible apply State.wantTile_keeps | with_reducible apply State.pinCopies_keeps | (with_reducible apply Keeps.foldl; intro _ _ _) | with_reducible refine Keeps.ite ?_ ?_

theorem State.insStop_keeps {s₀ s : State} (h : Keeps s₀ s) : Keeps s₀ (State.insStop s) := by
  unfold State.insStop
  repeat' first | (extract_lets +onlyGivenNames z; first | (refine Keeps.cut (s₀ := s₀) z ?_ ?_; rotate_left; clear_value z; intro hz; rotate_left; subst z) | clear_value z) | with_reducible assumption | with_reducible apply State.endCapture_keeps | with_reducible apply State.endAudit_keeps | with_reducible apply State.xcalAbandon_keeps | (with_reducible apply Keeps.foldl; intro _ _ _) | with_reducible refine Keeps.ite ?_ ?_

theorem State.dropWork_keeps {s₀ s : State} (h : Keeps s₀ s) : Keeps s₀ (State.dropWork s) := by
  unfold State.dropWork
  repeat' first | with_reducible assumption | with_reducible apply State.stopChannels_keeps | with_reducible apply State.stopJobs_keeps | with_reducible apply State.auditsCut_keeps | with_reducible apply State.stopFlumes_keeps | with_reducible apply State.composerStop_keeps

theorem State.endPages_keeps {s₀ s : State} (h : Keeps s₀ s) : Keeps s₀ (State.endPages s) := by
  unfold State.endPages
  repeat' first | with_reducible assumption | with_reducible apply State.endPage_keeps | with_reducible apply State.dropOpenCopies_keeps | with_reducible apply State.insStop_keeps | (with_reducible apply Keeps.foldl; intro _ _ _) | with_reducible refine Keeps.ite ?_ ?_

theorem State.dropAsked_keeps {s₀ s : State} (h : Keeps s₀ s) : Keeps s₀ (State.dropAsked s) := by
  unfold State.dropAsked
  try dsimp only
  repeat' first | with_reducible assumption | (with_reducible apply Keeps.upd; with_reducible assumption)

theorem State.pauseAll_keeps {s₀ s : State} (h : Keeps s₀ s) (cls : Nat) : Keeps s₀ (State.pauseAll s cls) := by
  unfold State.pauseAll
  repeat' first | with_reducible assumption | with_reducible apply State.pauseQueue_keeps | with_reducible apply State.mark_keeps | (with_reducible apply Keeps.foldl; intro _ _ _)

theorem State.engineStop_keeps {s₀ s : State} (h : Keeps s₀ s) (cls : Nat) : Keeps s₀ (State.engineStop s cls) := by
  unfold State.engineStop
  repeat' first | (extract_lets +onlyGivenNames z; first | (refine Keeps.cut (s₀ := s₀) z ?_ ?_; rotate_left; clear_value z; intro hz; rotate_left; subst z) | clear_value z) | with_reducible assumption | with_reducible apply State.pauseAll_keeps | with_reducible apply State.dropWork_keeps | with_reducible apply State.endPages_keeps | with_reducible apply State.dropAsked_keeps | with_reducible apply State.loopsStop_keeps | with_reducible apply State.askSpeed_keeps | with_reducible apply State.setF_keeps | with_reducible refine Keeps.ite ?_ ?_ | (with_reducible apply Keeps.upd; with_reducible assumption)

theorem State.syncWindow_keeps {s₀ s : State} (h : Keeps s₀ s) : Keeps s₀ (State.syncWindow s) := by
  unfold State.syncWindow
  try dsimp only
  repeat' first | with_reducible assumption | with_reducible apply State.setF_keeps | (with_reducible apply Keeps.upd; with_reducible assumption)

theorem State.latch_keeps {s₀ s : State} (h : Keeps s₀ s) (cls : Nat) : Keeps s₀ (State.latch s cls) := by
  unfold State.latch
  repeat' first | with_reducible assumption | with_reducible apply State.setF_keeps | with_reducible apply State.record_keeps | with_reducible refine Keeps.ite ?_ ?_

theorem State.beginStop_keeps {s₀ s : State} (h : Keeps s₀ s) (r : Report) : Keeps s₀ (State.beginStop s r) := by
  unfold State.beginStop
  try dsimp only
  repeat' first | with_reducible assumption | with_reducible apply State.setF_keeps | with_reducible apply State.syncWindow_keeps | with_reducible apply State.latch_keeps | with_reducible refine Keeps.ite ?_ ?_

theorem State.cutCauses_keeps {s₀ s : State} (h : Keeps s₀ s) (selfCheck : Bool) : Keeps s₀ (State.cutCauses s selfCheck) := by
  unfold State.cutCauses
  repeat' first | with_reducible assumption | with_reducible apply State.setF_keeps | (with_reducible apply Keeps.foldl; intro _ _ _) | with_reducible refine Keeps.ite ?_ ?_

theorem State.reportWords_keeps {s₀ s : State} (h : Keeps s₀ s) (r : Report) : Keeps s₀ (State.reportWords s r) := by
  unfold State.reportWords
  repeat' first | with_reducible assumption | with_reducible apply State.lastWord_keeps

theorem State.safeState_keeps {s₀ s : State} (h : Keeps s₀ s) (r : Report) : Keeps s₀ (State.safeState s r) := by
  unfold State.safeState
  repeat' first | with_reducible assumption | with_reducible apply State.cutCauses_keeps | with_reducible apply State.hdgSync_keeps | with_reducible apply State.aliveStop_keeps | with_reducible apply State.reportWords_keeps | with_reducible apply State.railSync_keeps

theorem State.classEffect_keeps {s₀ s : State} (h : Keeps s₀ s) (r : Report) : Keeps s₀ (State.classEffect s r) := by
  unfold State.classEffect
  repeat' first | (extract_lets +onlyGivenNames z; first | (refine Keeps.cut (s₀ := s₀) z ?_ ?_; rotate_left; clear_value z; intro hz; rotate_left; subst z) | clear_value z) | with_reducible assumption | with_reducible apply State.setF_keeps | with_reducible apply State.culFaultOut_keeps | with_reducible apply State.beginStop_keeps | with_reducible apply State.safeState_keeps | with_reducible apply State.engineStop_keeps | with_reducible apply State.axesStop_keeps | with_reducible apply State.pauseAll_keeps | with_reducible apply State.stopChannels_keeps | with_reducible apply State.latch_keeps | with_reducible apply State.hdgSync_keeps | with_reducible apply State.reportWords_keeps | with_reducible refine Keeps.ite ?_ ?_ | (with_reducible apply Keeps.upd; with_reducible assumption)

theorem State.boundaryTest_keeps {s₀ s : State} (h : Keeps s₀ s) (r : Report) : Keeps s₀ (State.boundaryTest s r) := by
  unfold State.boundaryTest
  repeat' first | with_reducible assumption | with_reducible apply State.emit_keeps | with_reducible refine Keeps.ite ?_ ?_

theorem execSumpReport_keeps {s₀ s : State} (h : Keeps s₀ s) : KeepsAns s₀ (execSumpReport s) := by
  unfold execSumpReport
  repeat' first | (extract_lets +onlyGivenNames z; first | (refine Keeps.cut (s₀ := s₀) z ?_ ?_; rotate_left; clear_value z; intro hz; rotate_left; subst z) | clear_value z) | with_reducible assumption | with_reducible apply KeepsAns.next | with_reducible apply State.mark_keeps | with_reducible apply State.event_keeps | with_reducible apply State.capture_keeps | with_reducible apply State.enqueue_keeps | with_reducible apply State.pf_keeps | with_reducible apply State.classEffect_keeps | with_reducible apply State.boundaryTest_keeps | with_reducible refine KeepsAns.ite ?_ ?_ | with_reducible refine Keeps.ite ?_ ?_ | split | (with_reducible apply Keeps.upd; with_reducible assumption)

theorem execSumpReportLost_keeps {s₀ s : State} (h : Keeps s₀ s) : KeepsAns s₀ (execSumpReportLost s) := by
  unfold execSumpReportLost
  repeat' first | (extract_lets +onlyGivenNames z; first | (refine Keeps.cut (s₀ := s₀) z ?_ ?_; rotate_left; clear_value z; intro hz; rotate_left; subst z) | clear_value z) | with_reducible assumption | with_reducible apply KeepsAns.next | with_reducible apply State.satInc_keeps | with_reducible apply State.classEffect_keeps | with_reducible apply State.boundaryTest_keeps | with_reducible refine KeepsAns.ite ?_ ?_ | with_reducible refine Keeps.ite ?_ ?_ | split | (with_reducible apply Keeps.upd; with_reducible assumption)

theorem execSumpRearm_keeps {s₀ s : State} (h : Keeps s₀ s) : KeepsAns s₀ (execSumpRearm s) := by
  unfold execSumpRearm
  repeat' first | with_reducible assumption | with_reducible apply KeepsAns.next | with_reducible apply State.darkWrite_keeps | with_reducible apply State.setF_keeps | with_reducible apply State.setWord_keeps | with_reducible refine KeepsAns.ite ?_ ?_ | with_reducible refine Keeps.ite ?_ ?_

theorem execSumpPop_keeps {s₀ s : State} (h : Keeps s₀ s) : KeepsAns s₀ (execSumpPop s) := by
  unfold execSumpPop
  try dsimp only
  repeat' first | with_reducible assumption | with_reducible apply KeepsAns.next | with_reducible apply State.darkWrite_keeps | with_reducible apply State.showQueue_keeps | with_reducible refine KeepsAns.ite ?_ ?_ | with_reducible refine Keeps.ite ?_ ?_ | (with_reducible apply Keeps.upd; with_reducible assumption)

theorem State.releaseLatch_keeps {s₀ s : State} (h : Keeps s₀ s) : Keeps s₀ (State.releaseLatch s) := by
  unfold State.releaseLatch
  repeat' first | (extract_lets +onlyGivenNames z; first | (refine Keeps.cut (s₀ := s₀) z ?_ ?_; rotate_left; clear_value z; intro hz; rotate_left; subst z) | clear_value z) | with_reducible assumption | with_reducible apply State.setF_keeps | with_reducible apply State.syncWindow_keeps | with_reducible refine Keeps.ite ?_ ?_ | (with_reducible apply Keeps.upd; with_reducible assumption)

theorem execSumpRelease_keeps {s₀ s : State} (h : Keeps s₀ s) : KeepsAns s₀ (execSumpRelease s) := by
  unfold execSumpRelease
  repeat' first | with_reducible assumption | with_reducible apply KeepsAns.next | with_reducible apply State.darkWrite_keeps | with_reducible apply State.releaseLatch_keeps | with_reducible refine KeepsAns.ite ?_ ?_ | with_reducible refine Keeps.ite ?_ ?_

theorem State.quietSync_keeps {s₀ s : State} (h : Keeps s₀ s) : Keeps s₀ (State.quietSync s) := by
  unfold State.quietSync
  repeat' first | (extract_lets +onlyGivenNames z; first | (refine Keeps.cut (s₀ := s₀) z ?_ ?_; rotate_left; clear_value z; intro hz; rotate_left; subst z) | clear_value z) | with_reducible assumption | with_reducible apply State.setF_keeps | with_reducible refine Keeps.ite ?_ ?_ | (with_reducible apply Keeps.upd; with_reducible assumption)

theorem execSumpRecovery_keeps {s₀ s : State} (h : Keeps s₀ s) : KeepsAns s₀ (execSumpRecovery s) := by
  unfold execSumpRecovery
  repeat' first | (extract_lets +onlyGivenNames z; first | (refine Keeps.cut (s₀ := s₀) z ?_ ?_; rotate_left; clear_value z; intro hz; rotate_left; subst z) | clear_value z) | with_reducible assumption | with_reducible apply KeepsAns.next | with_reducible apply State.setF_keeps | with_reducible apply State.hdgSync_keeps | with_reducible apply State.railSync_keeps | with_reducible apply State.resumeChannels_keeps | with_reducible apply State.composerResume_keeps | with_reducible apply State.loopsResume_keeps | with_reducible apply State.syncWindow_keeps | with_reducible apply State.satInc_keeps | with_reducible apply State.record_keeps | with_reducible apply State.report_keeps | with_reducible apply State.pf_keeps | (with_reducible apply Keeps.foldl; intro _ _ _) | with_reducible refine KeepsAns.ite ?_ ?_ | with_reducible refine Keeps.ite ?_ ?_ | (with_reducible apply Keeps.upd; with_reducible assumption)

theorem State.selfFail_keeps {s₀ s : State} (h : Keeps s₀ s) (src : Nat) : Keeps s₀ (State.selfFail s src) := by
  unfold State.selfFail
  repeat' first | with_reducible assumption | with_reducible apply State.setF_keeps | with_reducible apply State.hdgSync_keeps | with_reducible apply State.aliveStop_keeps | with_reducible apply State.report_keeps

theorem execSelfCheckCompare_keeps {s₀ s : State} (h : Keeps s₀ s) (flt : Bool) (hdg : Bool) : KeepsAns s₀ (execSelfCheckCompare flt hdg s) := by
  unfold execSelfCheckCompare
  try dsimp only
  repeat' first | with_reducible assumption | with_reducible apply KeepsAns.next | with_reducible apply State.quietSync_keeps | with_reducible apply State.selfFail_keeps | with_reducible refine KeepsAns.ite ?_ ?_ | with_reducible refine Keeps.ite ?_ ?_

theorem execHeartbeatKick_keeps {s₀ s : State} (h : Keeps s₀ s) : KeepsAns s₀ (execHeartbeatKick s) := by
  unfold execHeartbeatKick
  try dsimp only
  repeat' first | with_reducible assumption | with_reducible apply KeepsAns.next | with_reducible apply State.darkWrite_keeps | with_reducible refine KeepsAns.ite ?_ ?_ | with_reducible refine Keeps.ite ?_ ?_ | (with_reducible apply Keeps.upd; with_reducible assumption)

theorem execHeartbeatTimeout_keeps {s₀ s : State} (h : Keeps s₀ s) : KeepsAns s₀ (execHeartbeatTimeout s) := by
  unfold execHeartbeatTimeout
  try dsimp only
  repeat' first | with_reducible assumption | with_reducible apply KeepsAns.next | with_reducible apply State.report_keeps | with_reducible refine KeepsAns.ite ?_ ?_ | with_reducible refine Keeps.ite ?_ ?_ | (with_reducible apply Keeps.upd; with_reducible assumption)

theorem execAliveToggle_keeps {s₀ s : State} (h : Keeps s₀ s) : KeepsAns s₀ (execAliveToggle s) := by
  unfold execAliveToggle
  repeat' first | (extract_lets +onlyGivenNames z; first | (refine Keeps.cut (s₀ := s₀) z ?_ ?_; rotate_left; clear_value z; intro hz; rotate_left; subst z) | clear_value z) | with_reducible assumption | with_reducible apply KeepsAns.next | with_reducible apply State.drivePin_keeps | with_reducible apply State.aliveStop_keeps | with_reducible refine KeepsAns.ite ?_ ?_ | with_reducible refine Keeps.ite ?_ ?_ | (with_reducible apply Keeps.upd; with_reducible assumption)

end Sys2Proof.Machine
end

