-- ==== Sys2Proof/Laws/KeepHost.lean ====
section
/-! SUPPORT. What the operations of Machine/Host.lean keep (Laws/Keep.lean). -/
namespace Sys2Proof.Machine
set_option Elab.async false
set_option linter.all false

theorem execSqDoorbell_keeps {s₀ s : State} (h : Keeps s₀ s) (fn : Nat) (tail : Nat) : KeepsAns s₀ (execSqDoorbell fn tail s) := by
  unfold execSqDoorbell
  try dsimp only
  repeat' first | with_reducible assumption | with_reducible apply KeepsAns.next | with_reducible apply State.errorQueue_keeps | with_reducible apply State.setF_keeps | with_reducible refine KeepsAns.ite ?_ ?_ | with_reducible refine Keeps.ite ?_ ?_

theorem execSqServe_keeps {s₀ s : State} (h : Keeps s₀ s) : KeepsAns s₀ (execSqServe s) := by
  unfold execSqServe
  try dsimp only
  repeat' first | with_reducible assumption | with_reducible apply KeepsAns.next | with_reducible refine KeepsAns.ite ?_ ?_ | with_reducible refine Keeps.ite ?_ ?_ | split | (with_reducible apply Keeps.upd; with_reducible assumption)

theorem State.aerUncorr_keeps {s₀ s : State} (h : Keeps s₀ s) (fn : Nat) : Keeps s₀ (State.aerUncorr s fn) := by
  unfold State.aerUncorr
  repeat' first | with_reducible assumption | with_reducible apply State.satInc_keeps | with_reducible apply State.report_keeps

theorem State.aerCorr_keeps {s₀ s : State} (h : Keeps s₀ s) : Keeps s₀ (State.aerCorr s) := by
  unfold State.aerCorr
  repeat' first | with_reducible assumption | with_reducible apply State.satInc_keeps | with_reducible apply State.report_keeps

theorem execDescriptorReadFailed_keeps {s₀ s : State} (h : Keeps s₀ s) (fn : Nat) (how : Nat) : KeepsAns s₀ (execDescriptorReadFailed fn how s) := by
  unfold execDescriptorReadFailed
  repeat' first | (extract_lets +onlyGivenNames z; first | (refine Keeps.cut (s₀ := s₀) z ?_ ?_; rotate_left; clear_value z; intro hz; rotate_left; subst z) | clear_value z) | with_reducible assumption | with_reducible apply KeepsAns.next | with_reducible apply State.aerUncorr_keeps | with_reducible apply State.errorQueue_keeps | with_reducible refine KeepsAns.ite ?_ ?_ | with_reducible refine Keeps.ite ?_ ?_ | (with_reducible apply Keeps.upd; with_reducible assumption)

theorem execCqHeadWrite_keeps {s₀ s : State} (h : Keeps s₀ s) (fn : Nat) (head : Nat) : KeepsAns s₀ (execCqHeadWrite fn head s) := by
  unfold execCqHeadWrite
  try dsimp only
  repeat' first | with_reducible assumption | with_reducible apply KeepsAns.next | with_reducible apply State.raise_keeps | with_reducible apply State.setF_keeps | with_reducible refine KeepsAns.ite ?_ ?_ | with_reducible refine Keeps.ite ?_ ?_

theorem execBacklogDrain_keeps {s₀ s : State} (h : Keeps s₀ s) (fn : Nat) : KeepsAns s₀ (execBacklogDrain fn s) := by
  unfold execBacklogDrain
  repeat' first | with_reducible assumption | with_reducible apply KeepsAns.next | with_reducible apply State.drainBacklog_keeps | with_reducible apply State.syncQueue_keeps | with_reducible refine KeepsAns.ite ?_ ?_ | with_reducible refine Keeps.ite ?_ ?_

theorem execCqCoalesceTimeout_keeps {s₀ s : State} (h : Keeps s₀ s) (fn : Nat) : KeepsAns s₀ (execCqCoalesceTimeout fn s) := by
  unfold execCqCoalesceTimeout
  try dsimp only
  repeat' first | with_reducible assumption | with_reducible apply KeepsAns.next | with_reducible apply State.setFn_keeps | with_reducible apply State.signal_keeps | with_reducible refine KeepsAns.ite ?_ ?_ | with_reducible refine Keeps.ite ?_ ?_ | (with_reducible apply Keeps.upd; with_reducible assumption)

theorem execQEnable_keeps {s₀ s : State} (h : Keeps s₀ s) (fn : Nat) : KeepsAns s₀ (execQEnable fn s) := by
  unfold execQEnable
  repeat' first | (extract_lets +onlyGivenNames z; first | (refine Keeps.cut (s₀ := s₀) z ?_ ?_; rotate_left; clear_value z; intro hz; rotate_left; subst z) | clear_value z) | with_reducible assumption | with_reducible apply KeepsAns.next | with_reducible apply State.raise_keeps | with_reducible apply State.setF_keeps | with_reducible apply State.setFn_keeps | with_reducible apply State.syncQueue_keeps | with_reducible refine KeepsAns.ite ?_ ?_ | with_reducible refine Keeps.ite ?_ ?_ | (with_reducible apply Keeps.upd; with_reducible assumption)

theorem execQDisable_keeps {s₀ s : State} (h : Keeps s₀ s) (fn : Nat) : KeepsAns s₀ (execQDisable fn s) := by
  unfold execQDisable
  repeat' first | (extract_lets +onlyGivenNames z; first | (refine Keeps.cut (s₀ := s₀) z ?_ ?_; rotate_left; clear_value z; intro hz; rotate_left; subst z) | clear_value z) | with_reducible assumption | with_reducible apply KeepsAns.next | with_reducible apply State.raise_keeps | with_reducible apply State.setF_keeps | with_reducible apply State.syncQueue_keeps | with_reducible refine KeepsAns.ite ?_ ?_ | with_reducible refine Keeps.ite ?_ ?_ | (with_reducible apply Keeps.upd; with_reducible assumption)

theorem execQPause_keeps {s₀ s : State} (h : Keeps s₀ s) (fn : Nat) : KeepsAns s₀ (execQPause fn s) := by
  unfold execQPause
  repeat' first | with_reducible assumption | with_reducible apply KeepsAns.next | with_reducible apply State.pauseQueue_keeps | with_reducible refine KeepsAns.ite ?_ ?_ | with_reducible refine Keeps.ite ?_ ?_

theorem execQResume_keeps {s₀ s : State} (h : Keeps s₀ s) (fn : Nat) : KeepsAns s₀ (execQResume fn s) := by
  unfold execQResume
  repeat' first | with_reducible assumption | with_reducible apply KeepsAns.next | with_reducible apply State.setF_keeps | with_reducible apply State.signal_keeps | with_reducible refine KeepsAns.ite ?_ ?_ | with_reducible refine Keeps.ite ?_ ?_ | split

theorem State.flrPage_keeps {s₀ s : State} (h : Keeps s₀ s) (p : Page) : Keeps s₀ (State.flrPage s p) := by
  unfold State.flrPage
  repeat' first | (extract_lets +onlyGivenNames z; first | (refine Keeps.cut (s₀ := s₀) z ?_ ?_; rotate_left; clear_value z; intro hz; rotate_left; subst z) | clear_value z) | with_reducible assumption | with_reducible apply State.modPage_keeps | with_reducible apply State.withdraw_keeps | split | (with_reducible apply Keeps.upd; with_reducible assumption)

theorem State.flrBegin_keeps {s₀ s : State} (h : Keeps s₀ s) (fn : Nat) : Keeps s₀ (State.flrBegin s fn) := by
  unfold State.flrBegin
  repeat' first | (extract_lets +onlyGivenNames z; first | (refine Keeps.cut (s₀ := s₀) z ?_ ?_; rotate_left; clear_value z; intro hz; rotate_left; subst z) | clear_value z) | with_reducible assumption | with_reducible apply State.mark_keeps | with_reducible apply State.setFn_keeps | with_reducible apply State.freeCopy_keeps | with_reducible apply State.flrPage_keeps | with_reducible apply State.resetChannels_keeps | with_reducible apply State.dropLoads_keeps | with_reducible apply State.claims_keeps | (with_reducible apply Keeps.foldl; intro _ _ _) | with_reducible refine Keeps.ite ?_ ?_ | (with_reducible apply Keeps.upd; with_reducible assumption)

theorem State.flrEnd_keeps {s₀ s : State} (h : Keeps s₀ s) (fn : Nat) : Keeps s₀ (State.flrEnd s fn) := by
  unfold State.flrEnd
  repeat' first | (extract_lets +onlyGivenNames z; first | (refine Keeps.cut (s₀ := s₀) z ?_ ?_; rotate_left; clear_value z; intro hz; rotate_left; subst z) | clear_value z) | with_reducible assumption | with_reducible apply State.resetRegs_keeps | with_reducible apply State.setB_keeps | with_reducible apply State.setFn_keeps | with_reducible apply State.setF_keeps | with_reducible apply State.mark_keeps | with_reducible apply State.syncQueue_keeps | (with_reducible apply Keeps.upd; with_reducible assumption)

theorem State.flrStart_keeps {s₀ s : State} (h : Keeps s₀ s) (fn : Nat) : Keeps s₀ (State.flrStart s fn) := by
  unfold State.flrStart
  repeat' first | (extract_lets +onlyGivenNames z; first | (refine Keeps.cut (s₀ := s₀) z ?_ ?_; rotate_left; clear_value z; intro hz; rotate_left; subst z) | clear_value z) | with_reducible assumption | with_reducible apply State.flrBegin_keeps | (with_reducible apply Keeps.foldl; intro _ _ _) | with_reducible refine Keeps.ite ?_ ?_ | (with_reducible apply Keeps.upd; with_reducible assumption)

theorem execFlrStart_keeps {s₀ s : State} (h : Keeps s₀ s) (fn : Nat) : KeepsAns s₀ (execFlrStart fn s) := by
  unfold execFlrStart
  repeat' first | with_reducible assumption | with_reducible apply KeepsAns.next | with_reducible apply State.flrStart_keeps | with_reducible refine KeepsAns.ite ?_ ?_ | with_reducible refine Keeps.ite ?_ ?_

theorem State.flrEndAll_keeps {s₀ s : State} (h : Keeps s₀ s) : Keeps s₀ (State.flrEndAll s) := by
  unfold State.flrEndAll
  repeat' first | (extract_lets +onlyGivenNames z; first | (refine Keeps.cut (s₀ := s₀) z ?_ ?_; rotate_left; clear_value z; intro hz; rotate_left; subst z) | clear_value z) | with_reducible assumption | with_reducible apply State.flrEnd_keeps | with_reducible apply State.pf_keeps | (with_reducible apply Keeps.foldl; intro _ _ _) | (with_reducible apply Keeps.upd; with_reducible assumption)

theorem execFlrComplete_keeps {s₀ s : State} (h : Keeps s₀ s) (fn : Nat) : KeepsAns s₀ (execFlrComplete fn s) := by
  unfold execFlrComplete
  repeat' first | with_reducible assumption | with_reducible apply KeepsAns.next | with_reducible apply State.flrEndAll_keeps | with_reducible apply State.flrEnd_keeps | with_reducible apply State.pf_keeps | with_reducible refine KeepsAns.ite ?_ ?_ | with_reducible refine Keeps.ite ?_ ?_

theorem State.hostReset_keeps {s₀ s : State} (h : Keeps s₀ s) : Keeps s₀ (State.hostReset s) := by
  unfold State.hostReset
  repeat' first | (extract_lets +onlyGivenNames z; first | (refine Keeps.cut (s₀ := s₀) z ?_ ?_; rotate_left; clear_value z; intro hz; rotate_left; subst z) | clear_value z) | with_reducible assumption | with_reducible apply State.report_keeps | with_reducible apply State.flrBegin_keeps | with_reducible apply State.flrEndAll_keeps | (with_reducible apply Keeps.foldl; intro _ _ _) | with_reducible refine Keeps.ite ?_ ?_ | (with_reducible apply Keeps.upd; with_reducible assumption)

theorem State.linkOff_keeps {s₀ s : State} (h : Keeps s₀ s) : Keeps s₀ (State.linkOff s) := by
  unfold State.linkOff
  repeat' first | with_reducible assumption | with_reducible apply State.setF_keeps

theorem execPerstAssert_keeps {s₀ s : State} (h : Keeps s₀ s) : KeepsAns s₀ (execPerstAssert s) := by
  unfold execPerstAssert
  try dsimp only
  repeat' first | with_reducible assumption | with_reducible apply KeepsAns.next | with_reducible apply State.satInc_keeps | with_reducible apply State.linkOff_keeps | with_reducible apply State.hostReset_keeps | with_reducible refine KeepsAns.ite ?_ ?_ | with_reducible refine Keeps.ite ?_ ?_ | (with_reducible apply Keeps.upd; with_reducible assumption)

theorem execPerstDeassert_keeps {s₀ s : State} (h : Keeps s₀ s) : KeepsAns s₀ (execPerstDeassert s) := by
  unfold execPerstDeassert
  try dsimp only
  repeat' first | with_reducible assumption | with_reducible apply KeepsAns.next | (with_reducible apply Keeps.upd; with_reducible assumption)

theorem execLinkDown_keeps {s₀ s : State} (h : Keeps s₀ s) (_hotReset : Bool) : KeepsAns s₀ (execLinkDown _hotReset s) := by
  unfold execLinkDown
  repeat' first | with_reducible assumption | with_reducible apply KeepsAns.next | with_reducible apply State.satInc_keeps | with_reducible apply State.linkOff_keeps | with_reducible apply State.hostReset_keeps | with_reducible refine KeepsAns.ite ?_ ?_ | with_reducible refine Keeps.ite ?_ ?_

theorem execLinkUp_keeps {s₀ s : State} (h : Keeps s₀ s) (width : Nat) (speed : Nat) (corrected : Nat) : KeepsAns s₀ (execLinkUp width speed corrected s) := by
  unfold execLinkUp
  try dsimp only
  repeat' first | with_reducible assumption | with_reducible apply KeepsAns.next | with_reducible apply State.aerCorr_keeps | with_reducible apply State.setF_keeps | with_reducible apply State.pf_keeps | (with_reducible apply Keeps.foldl; intro _ _ _) | with_reducible refine KeepsAns.ite ?_ ?_ | with_reducible refine Keeps.ite ?_ ?_

theorem State.sendPending_keeps {s₀ s : State} (h : Keeps s₀ s) (fn : Nat) (vec : Nat) : Keeps s₀ (State.sendPending s fn vec) := by
  unfold State.sendPending
  try dsimp only
  repeat' first | with_reducible assumption | with_reducible apply State.setWord_keeps | with_reducible apply State.signal_keeps | with_reducible refine Keeps.ite ?_ ?_

theorem execMsixUnmask_keeps {s₀ s : State} (h : Keeps s₀ s) (fn : Nat) (vec : Nat) : KeepsAns s₀ (execMsixUnmask fn vec s) := by
  unfold execMsixUnmask
  try dsimp only
  repeat' first | with_reducible assumption | with_reducible apply KeepsAns.next | with_reducible apply State.setWord_keeps | with_reducible apply State.sendPending_keeps | with_reducible refine KeepsAns.ite ?_ ?_ | with_reducible refine Keeps.ite ?_ ?_

theorem State.enterD3_keeps {s₀ s : State} (h : Keeps s₀ s) (fn : Nat) : Keeps s₀ (State.enterD3 s fn) := by
  unfold State.enterD3
  try dsimp only
  repeat' first | with_reducible assumption | with_reducible apply State.pauseQueue_keeps | with_reducible apply State.setFn_keeps | (with_reducible apply Keeps.foldl; intro _ _ _) | with_reducible refine Keeps.ite ?_ ?_ | (with_reducible apply Keeps.upd; with_reducible assumption)

theorem execD3hotEntry_keeps {s₀ s : State} (h : Keeps s₀ s) (fn : Nat) : KeepsAns s₀ (execD3hotEntry fn s) := by
  unfold execD3hotEntry
  repeat' first | with_reducible assumption | with_reducible apply KeepsAns.next | with_reducible apply State.enterD3_keeps | with_reducible refine KeepsAns.ite ?_ ?_ | with_reducible refine Keeps.ite ?_ ?_

theorem State.leaveD3_keeps {s₀ s : State} (h : Keeps s₀ s) (fn : Nat) : Keeps s₀ (State.leaveD3 s fn) := by
  unfold State.leaveD3
  repeat' first | (extract_lets +onlyGivenNames z; first | (refine Keeps.cut (s₀ := s₀) z ?_ ?_; rotate_left; clear_value z; intro hz; rotate_left; subst z) | clear_value z) | with_reducible assumption | with_reducible apply State.drainBacklog_keeps | with_reducible apply State.syncQueue_keeps | with_reducible apply State.setFn_keeps | with_reducible apply State.setF_keeps | with_reducible apply State.signal_keeps | with_reducible refine Keeps.ite ?_ ?_ | (with_reducible apply Keeps.upd; with_reducible assumption)

theorem State.returnD0_keeps {s₀ s : State} (h : Keeps s₀ s) (fn : Nat) : Keeps s₀ (State.returnD0 s fn) := by
  unfold State.returnD0
  try dsimp only
  repeat' first | with_reducible assumption | with_reducible apply State.setFn_keeps | with_reducible apply State.leaveD3_keeps | (with_reducible apply Keeps.foldl; intro _ _ _) | with_reducible refine Keeps.ite ?_ ?_ | (with_reducible apply Keeps.upd; with_reducible assumption)

theorem execD0Return_keeps {s₀ s : State} (h : Keeps s₀ s) (fn : Nat) : KeepsAns s₀ (execD0Return fn s) := by
  unfold execD0Return
  repeat' first | with_reducible assumption | with_reducible apply KeepsAns.next | with_reducible apply State.returnD0_keeps | with_reducible refine KeepsAns.ite ?_ ?_ | with_reducible refine Keeps.ite ?_ ?_

theorem State.setVfEnable_keeps {s₀ s : State} (h : Keeps s₀ s) (on : Bool) : Keeps s₀ (State.setVfEnable s on) := by
  unfold State.setVfEnable
  repeat' first | (extract_lets +onlyGivenNames z; first | (refine Keeps.cut (s₀ := s₀) z ?_ ?_; rotate_left; clear_value z; intro hz; rotate_left; subst z) | clear_value z) | with_reducible assumption | with_reducible apply State.flrBegin_keeps | with_reducible apply State.flrEnd_keeps | with_reducible apply State.pf_keeps | (with_reducible apply Keeps.foldl; intro _ _ _) | with_reducible refine Keeps.ite ?_ ?_ | (with_reducible apply Keeps.upd; with_reducible assumption)

theorem State.cfgWritePf_keeps {s₀ s : State} (h : Keeps s₀ s) (off : Nat) (value : BitVec 32) : Keeps s₀ (State.cfgWritePf s off value) := by
  unfold State.cfgWritePf
  try dsimp only
  repeat' first | with_reducible assumption | with_reducible apply State.setVfEnable_keeps | with_reducible refine Keeps.ite ?_ ?_ | split | (with_reducible apply Keeps.upd; with_reducible assumption)

theorem State.cfgWrite_keeps {s₀ s : State} (h : Keeps s₀ s) (fn : Nat) (off : Nat) (value : BitVec 32) : Keeps s₀ (State.cfgWrite s fn off value) := by
  unfold State.cfgWrite
  repeat' first | (extract_lets +onlyGivenNames z; first | (refine Keeps.cut (s₀ := s₀) z ?_ ?_; rotate_left; clear_value z; intro hz; rotate_left; subst z) | clear_value z) | with_reducible assumption | with_reducible apply State.enterD3_keeps | with_reducible apply State.returnD0_keeps | with_reducible apply State.setFn_keeps | with_reducible apply State.sendPending_keeps | with_reducible apply State.flrStart_keeps | with_reducible apply State.cfgWritePf_keeps | (with_reducible apply Keeps.foldl; intro _ _ _) | with_reducible refine Keeps.ite ?_ ?_ | split | (with_reducible apply Keeps.upd; with_reducible assumption)

theorem execConfigRequest_keeps {s₀ s : State} (h : Keeps s₀ s) (fn : Nat) (write : Option (BitVec 32)) (off : Nat) : KeepsAns s₀ (execConfigRequest fn write off s) := by
  unfold execConfigRequest
  repeat' first | with_reducible assumption | with_reducible apply KeepsAns.next | with_reducible apply State.emit_keeps | with_reducible apply State.cfgWrite_keeps | with_reducible refine KeepsAns.ite ?_ ?_ | with_reducible refine Keeps.ite ?_ ?_ | split

end Sys2Proof.Machine
end

