-- ==== Sys2Proof/Laws/KeepLatOps.lean ====
section
/-! SUPPORT. What the operations of Machine/LatOps.lean keep (Laws/Keep.lean). -/
namespace Sys2Proof.Machine
set_option Elab.async false
set_option linter.all false

theorem State.latReport_keeps {s₀ s : State} (h : Keeps s₀ s) (cls : Nat) (cause : Nat) (p : Nat) (node : Nat) : Keeps s₀ (State.latReport s cls cause p node) := by
  unfold State.latReport
  repeat' first | with_reducible assumption | with_reducible apply State.report_keeps

theorem State.latVec_keeps {s₀ s : State} (h : Keeps s₀ s) (p : Nat) : Keeps s₀ (State.latVec s p) := by
  unfold State.latVec
  repeat' first | with_reducible assumption | with_reducible apply State.pf_keeps

theorem State.mbxEnd_keeps {s₀ s : State} (h : Keeps s₀ s) (p : Nat) (code : Nat) (data : Option (List Byte)) : Keeps s₀ (State.mbxEnd s p code data) := by
  unfold State.mbxEnd
  repeat' first | (extract_lets +onlyGivenNames z; first | (refine Keeps.cut (s₀ := s₀) z ?_ ?_; rotate_left; clear_value z; intro hz; rotate_left; subst z) | clear_value z) | with_reducible assumption | with_reducible apply State.modLatPort_keeps | with_reducible apply State.setWord_keeps | with_reducible apply State.setF_keeps | with_reducible apply State.raise_keeps | with_reducible apply State.latVec_keeps | (with_reducible apply Keeps.foldl; intro _ _ _) | split | (with_reducible apply Keeps.upd; with_reducible assumption)

theorem State.latTo_keeps {s₀ s : State} (h : Keeps s₀ s) (p : Nat) (v : Nat) : Keeps s₀ (State.latTo s p v) := by
  unfold State.latTo
  try dsimp only
  repeat' first | with_reducible assumption | with_reducible apply State.setF_keeps | with_reducible apply State.event_keeps | with_reducible apply State.modLatPort_keeps | with_reducible apply State.mbxEnd_keeps | with_reducible refine Keeps.ite ?_ ?_ | split | (with_reducible apply Keeps.upd; with_reducible assumption)

theorem State.latMismatch_keeps {s₀ s : State} (h : Keeps s₀ s) (p : Nat) : Keeps s₀ (State.latMismatch s p) := by
  unfold State.latMismatch
  repeat' first | with_reducible assumption | with_reducible apply State.latTo_keeps | with_reducible apply State.latReport_keeps

theorem State.latEnum_keeps {s₀ s : State} (h : Keeps s₀ s) (p : Nat) : Keeps s₀ (State.latEnum s p) := by
  unfold State.latEnum
  repeat' first | (extract_lets +onlyGivenNames z; first | (refine Keeps.cut (s₀ := s₀) z ?_ ?_; rotate_left; clear_value z; intro hz; rotate_left; subst z) | clear_value z) | with_reducible assumption | with_reducible apply State.modLatPort_keeps | with_reducible apply State.latTo_keeps | (with_reducible apply Keeps.upd; with_reducible assumption)

theorem State.nodeLose_keeps {s₀ s : State} (h : Keeps s₀ s) (p : Nat) (node : Nat) : Keeps s₀ (State.nodeLose s p node) := by
  unfold State.nodeLose
  repeat' first | with_reducible assumption | with_reducible apply State.setF_keeps | with_reducible apply State.nodeGone_keeps

theorem State.nodeLost_keeps {s₀ s : State} (h : Keeps s₀ s) (p : Nat) (node : Nat) : Keeps s₀ (State.nodeLost s p node) := by
  unfold State.nodeLost
  try dsimp only
  repeat' first | with_reducible assumption | with_reducible apply State.satInc_keeps | with_reducible apply State.latVec_keeps | with_reducible apply State.event_keeps | with_reducible apply State.latReport_keeps | with_reducible apply State.nodeLose_keeps

theorem State.badCycle_keeps {s₀ s : State} (h : Keeps s₀ s) (p : Nat) : Keeps s₀ (State.badCycle s p) := by
  unfold State.badCycle
  repeat' first | (extract_lets +onlyGivenNames z; first | (refine Keeps.cut (s₀ := s₀) z ?_ ?_; rotate_left; clear_value z; intro hz; rotate_left; subst z) | clear_value z) | with_reducible assumption | with_reducible apply State.modLatPort_keeps | with_reducible apply State.satInc_keeps | with_reducible apply State.latReport_keeps | with_reducible apply State.latTo_keeps | with_reducible apply State.nodeLose_keeps | (with_reducible apply Keeps.foldl; intro _ _ _) | with_reducible refine Keeps.ite ?_ ?_ | (with_reducible apply Keeps.upd; with_reducible assumption)

theorem State.bitEvents_keeps {s₀ s : State} (_h : Keeps s₀ s) (t : State) (p : Nat) (node : Nat) (ht : Keeps s₀ t) : Keeps s₀ (State.bitEvents s t p node) := by
  unfold State.bitEvents
  repeat' first | (extract_lets +onlyGivenNames z; first | (refine Keeps.cut (s₀ := s₀) z ?_ ?_; rotate_left; clear_value z; intro hz; rotate_left; subst z) | (have _f := fun a => z a; clear _f; subst z; try dsimp -zeta only) | clear_value z) | with_reducible assumption | with_reducible apply State.event_keeps | (with_reducible apply Keeps.foldl; intro _ _ _) | with_reducible refine Keeps.ite ?_ ?_

theorem State.nodeAlive_keeps {s₀ s : State} (h : Keeps s₀ s) (p : Nat) (node : Nat) (img : List Byte) : Keeps s₀ (State.nodeAlive s p node img) := by
  unfold State.nodeAlive
  try dsimp only
  repeat' first | with_reducible assumption | with_reducible apply State.setWord_keeps | with_reducible apply State.modLatPort_keeps | with_reducible apply State.bitEvents_keeps | with_reducible apply State.setF_keeps | with_reducible apply State.event_keeps | (with_reducible apply Keeps.foldl; intro _ _ _) | with_reducible refine Keeps.ite ?_ ?_ | (with_reducible apply Keeps.upd; with_reducible assumption)

theorem State.nodeSilent_keeps {s₀ s : State} (h : Keeps s₀ s) (p : Nat) (node : Nat) : Keeps s₀ (State.nodeSilent s p node) := by
  unfold State.nodeSilent
  try dsimp only
  repeat' first | with_reducible assumption | with_reducible apply State.satInc_keeps | with_reducible apply State.modLatPort_keeps | with_reducible apply State.nodeLost_keeps | with_reducible refine Keeps.ite ?_ ?_ | (with_reducible apply Keeps.upd; with_reducible assumption)

theorem State.goodCycle_keeps {s₀ s : State} (h : Keeps s₀ s) (p : Nat) (b : List Byte) : Keeps s₀ (State.goodCycle s p b) := by
  unfold State.goodCycle
  repeat' first | (extract_lets +onlyGivenNames z; first | (refine Keeps.cut (s₀ := s₀) z ?_ ?_; rotate_left; clear_value z; intro hz; rotate_left; subst z) | (refine Keeps.cut (s₀ := s₀) (z : _ × State).2 ?_ ?_; rotate_left; clear_value z; intro hz; rotate_left; subst z) | (refine Keeps.cut (s₀ := s₀) (z : State × _).1 ?_ ?_; rotate_left; clear_value z; intro hz; rotate_left; subst z) | (refine Keeps.cut (s₀ := s₀) (z : _ × _ × State).2.2 ?_ ?_; rotate_left; clear_value z; intro hz; rotate_left; subst z) | clear_value z) | with_reducible assumption | with_reducible apply State.setLatPort_keeps | with_reducible apply State.wrapInc_keeps | with_reducible apply State.latTo_keeps | with_reducible apply State.nodeAlive_keeps | with_reducible apply State.nodeSilent_keeps | (with_reducible apply Keeps.foldl; intro _ _ _) | (with_reducible apply Keeps.foldl_snd; intro _ _ _) | (with_reducible apply Keeps.foldl_fst; intro _ _ _) | with_reducible refine Keeps.ite ?_ ?_ | with_reducible refine Keeps.ite_snd ?_ ?_ | with_reducible refine Keeps.ite_fst ?_ ?_ | split | (with_reducible apply Keeps.upd; first | with_reducible assumption | with_reducible apply State.setLatPort_keeps | with_reducible apply State.wrapInc_keeps | with_reducible apply State.latTo_keeps | with_reducible apply State.nodeAlive_keeps | with_reducible apply State.nodeSilent_keeps) | dsimp only

theorem State.joinRead_keeps {s₀ s : State} (h : Keeps s₀ s) (p : Nat) (node : Nat) (data : Option (List Byte)) : Keeps s₀ (State.joinRead s p node data) := by
  unfold State.joinRead
  try dsimp only
  repeat' first | with_reducible assumption | with_reducible apply State.modLatPort_keeps | with_reducible apply State.setF_keeps | with_reducible apply State.event_keeps | with_reducible apply State.latReport_keeps | with_reducible refine Keeps.ite ?_ ?_ | split | (with_reducible apply Keeps.upd; with_reducible assumption)

theorem State.mbxOver_keeps {s₀ s : State} (h : Keeps s₀ s) (p : Nat) (m : LatMbx) (code : Nat) (data : Option (List Byte)) : Keeps s₀ (State.mbxOver s p m code data) := by
  unfold State.mbxOver
  repeat' first | with_reducible assumption | with_reducible apply State.joinRead_keeps | with_reducible apply State.mbxEnd_keeps | with_reducible refine Keeps.ite ?_ ?_

theorem State.mbxFail_keeps {s₀ s : State} (h : Keeps s₀ s) (p : Nat) (m : LatMbx) : Keeps s₀ (State.mbxFail s p m) := by
  unfold State.mbxFail
  repeat' first | (extract_lets +onlyGivenNames z; first | (refine Keeps.cut (s₀ := s₀) z ?_ ?_; rotate_left; clear_value z; intro hz; rotate_left; subst z) | clear_value z) | with_reducible assumption | with_reducible apply State.modLatPort_keeps | with_reducible apply State.mbxOver_keeps | with_reducible refine Keeps.ite ?_ ?_ | (with_reducible apply Keeps.upd; with_reducible assumption)

theorem State.latSlot_keeps {s₀ s : State} (h : Keeps s₀ s) (p : Nat) : Keeps s₀ (State.latSlot s p) := by
  unfold State.latSlot
  try dsimp only
  repeat' first | with_reducible assumption | with_reducible apply State.mbxFail_keeps | with_reducible apply State.setLatPort_keeps | with_reducible apply State.emit_keeps | with_reducible refine Keeps.ite ?_ ?_ | split | (with_reducible apply Keeps.upd; with_reducible assumption)

end Sys2Proof.Machine
end

