-- ==== Sys2Proof/Laws/KeepLateral.lean ====
section
/-! SUPPORT. What the operations of Machine/Lateral.lean keep (Laws/Keep.lean). -/
namespace Sys2Proof.Machine
set_option Elab.async false
set_option linter.all false

theorem State.latGuard_keeps {s₀ s t : State} {p : Nat} {off : Nat} {value : Nat} (h : Keeps s₀ s) (e : State.latGuard s p off value = some t) : Keeps s₀ t := by
  unfold State.latGuard at e
  repeat' first | (split at e) | (simp only [Option.some.injEq] at e) | (simp only [reduceCtorEq] at e) | subst e
  all_goals (repeat' first | with_reducible assumption | with_reducible apply State.darkWrite_keeps | with_reducible refine Keeps.ite ?_ ?_ | (simp only [Option.some.injEq, reduceCtorEq] at e))

theorem execLatPortEnable_keeps {s₀ s : State} (h : Keeps s₀ s) (p : Nat) : KeepsAns s₀ (execLatPortEnable p s) := by
  unfold execLatPortEnable
  try dsimp only
  repeat' first | with_reducible assumption | with_reducible apply KeepsAns.next | (refine State.latGuard_keeps ?_ (by assumption)) | with_reducible apply State.setF_keeps | with_reducible apply State.latEnum_keeps | with_reducible refine KeepsAns.ite ?_ ?_ | with_reducible refine Keeps.ite ?_ ?_ | split

theorem execLatPortDisable_keeps {s₀ s : State} (h : Keeps s₀ s) (p : Nat) : KeepsAns s₀ (execLatPortDisable p s) := by
  unfold execLatPortDisable
  try dsimp only
  repeat' first | with_reducible assumption | with_reducible apply KeepsAns.next | (refine State.latGuard_keeps ?_ (by assumption)) | with_reducible apply State.raise_keeps | with_reducible apply State.modLatPort_keeps | with_reducible apply State.setF_keeps | with_reducible apply State.latTo_keeps | with_reducible refine KeepsAns.ite ?_ ?_ | with_reducible refine Keeps.ite ?_ ?_ | split | (with_reducible apply Keeps.upd; with_reducible assumption)

theorem execLatRescan_keeps {s₀ s : State} (h : Keeps s₀ s) (p : Nat) : KeepsAns s₀ (execLatRescan p s) := by
  unfold execLatRescan
  repeat' first | with_reducible assumption | with_reducible apply KeepsAns.next | (refine State.latGuard_keeps ?_ (by assumption)) | with_reducible apply State.raise_keeps | with_reducible apply State.latEnum_keeps | with_reducible refine KeepsAns.ite ?_ ?_ | with_reducible refine Keeps.ite ?_ ?_ | split

theorem execLatEnumSend_keeps {s₀ s : State} (h : Keeps s₀ s) (p : Nat) : KeepsAns s₀ (execLatEnumSend p s) := by
  unfold execLatEnumSend
  repeat' first | (extract_lets +onlyGivenNames z; first | (refine Keeps.cut (s₀ := s₀) z ?_ ?_; rotate_left; clear_value z; intro hz; rotate_left; subst z) | clear_value z) | with_reducible assumption | with_reducible apply KeepsAns.next | with_reducible apply State.modLatPort_keeps | with_reducible apply State.emit_keeps | with_reducible refine KeepsAns.ite ?_ ?_ | with_reducible refine Keeps.ite ?_ ?_ | (with_reducible apply Keeps.upd; with_reducible assumption)

theorem execLatEnumReturn_keeps {s₀ s : State} (h : Keeps s₀ s) (p : Nat) (frame : Option (List (BitVec 8))) : KeepsAns s₀ (execLatEnumReturn p frame s) := by
  unfold execLatEnumReturn
  repeat' first | (extract_lets +onlyGivenNames z; first | (refine Keeps.cut (s₀ := s₀) z ?_ ?_; rotate_left; clear_value z; intro hz; rotate_left; subst z) | clear_value z) | with_reducible assumption | with_reducible apply KeepsAns.next | with_reducible apply State.setF_keeps | with_reducible apply State.modLatPort_keeps | with_reducible apply State.latMismatch_keeps | with_reducible apply State.setWord_keeps | with_reducible apply State.latTo_keeps | (with_reducible apply Keeps.foldl; intro _ _ _) | with_reducible refine KeepsAns.ite ?_ ?_ | with_reducible refine Keeps.ite ?_ ?_ | split | (with_reducible apply Keeps.upd; with_reducible assumption)

theorem execLatCycleStart_keeps {s₀ s : State} (h : Keeps s₀ s) (p : Nat) : KeepsAns s₀ (execLatCycleStart p s) := by
  unfold execLatCycleStart
  repeat' first | (extract_lets +onlyGivenNames z; first | (refine Keeps.cut (s₀ := s₀) z ?_ ?_; rotate_left; clear_value z; intro hz; rotate_left; subst z) | clear_value z) | with_reducible assumption | with_reducible apply KeepsAns.next | with_reducible apply State.latSlot_keeps | with_reducible apply State.badCycle_keeps | with_reducible apply State.setB_keeps | with_reducible apply State.setF_keeps | with_reducible apply State.emit_keeps | with_reducible apply State.modLatPort_keeps | with_reducible refine KeepsAns.ite ?_ ?_ | with_reducible refine Keeps.ite ?_ ?_ | (with_reducible apply Keeps.upd; with_reducible assumption)

theorem execLatCyclicReturn_keeps {s₀ s : State} (h : Keeps s₀ s) (p : Nat) (frame : Option (List (BitVec 8))) : KeepsAns s₀ (execLatCyclicReturn p frame s) := by
  unfold execLatCyclicReturn
  repeat' first | with_reducible assumption | with_reducible apply KeepsAns.next | with_reducible apply State.goodCycle_keeps | with_reducible apply State.badCycle_keeps | with_reducible refine KeepsAns.ite ?_ ?_ | with_reducible refine Keeps.ite ?_ ?_ | split

theorem execLatOimgWrite_keeps {s₀ s : State} (h : Keeps s₀ s) (p : Nat) (node : Nat) (w : Nat) (value : BitVec 32) : KeepsAns s₀ (execLatOimgWrite p node w value s) := by
  unfold execLatOimgWrite
  try dsimp only
  repeat' first | with_reducible assumption | with_reducible apply KeepsAns.next | (refine State.latGuard_keeps ?_ (by assumption)) | with_reducible apply State.satInc_keeps | with_reducible apply State.setWord_keeps | (with_reducible apply Keeps.foldl; intro _ _ _) | with_reducible refine KeepsAns.ite ?_ ?_ | with_reducible refine Keeps.ite ?_ ?_ | split

theorem State.latMbxGo_keeps {s₀ s : State} (h : Keeps s₀ s) (p : Nat) (cmd : Nat) : Keeps s₀ (State.latMbxGo s p cmd) := by
  unfold State.latMbxGo
  try dsimp only
  repeat' first | with_reducible assumption | (refine State.latGuard_keeps ?_ (by assumption)) | with_reducible apply State.raise_keeps | with_reducible apply State.setF_keeps | with_reducible apply State.mbxEnd_keeps | with_reducible apply State.setLatPort_keeps | with_reducible refine Keeps.ite ?_ ?_ | split | (with_reducible apply Keeps.upd; with_reducible assumption)

theorem execLatMbxRead_keeps {s₀ s : State} (h : Keeps s₀ s) (p : Nat) : KeepsAns s₀ (execLatMbxRead p s) := by
  unfold execLatMbxRead
  repeat' first | with_reducible assumption | with_reducible apply KeepsAns.next | with_reducible apply State.latMbxGo_keeps

theorem execLatMbxWrite_keeps {s₀ s : State} (h : Keeps s₀ s) (p : Nat) : KeepsAns s₀ (execLatMbxWrite p s) := by
  unfold execLatMbxWrite
  repeat' first | with_reducible assumption | with_reducible apply KeepsAns.next | with_reducible apply State.latMbxGo_keeps

theorem execLatMbxReturn_keeps {s₀ s : State} (h : Keeps s₀ s) (p : Nat) (frame : Option (List (BitVec 8))) : KeepsAns s₀ (execLatMbxReturn p frame s) := by
  unfold execLatMbxReturn
  try dsimp only
  repeat' first | with_reducible assumption | with_reducible apply KeepsAns.next | with_reducible apply State.mbxFail_keeps | with_reducible apply State.modLatPort_keeps | with_reducible apply State.mbxOver_keeps | with_reducible refine KeepsAns.ite ?_ ?_ | with_reducible refine Keeps.ite ?_ ?_ | split | (with_reducible apply Keeps.upd; with_reducible assumption)

theorem execLatMbxTimeout_keeps {s₀ s : State} (h : Keeps s₀ s) (p : Nat) : KeepsAns s₀ (execLatMbxTimeout p s) := by
  unfold execLatMbxTimeout
  repeat' first | with_reducible assumption | with_reducible apply KeepsAns.next | with_reducible apply State.mbxOver_keeps | with_reducible refine KeepsAns.ite ?_ ?_ | with_reducible refine Keeps.ite ?_ ?_ | split

theorem execLatJoinSend_keeps {s₀ s : State} (h : Keeps s₀ s) (p : Nat) : KeepsAns s₀ (execLatJoinSend p s) := by
  unfold execLatJoinSend
  try dsimp only
  repeat' first | with_reducible assumption | with_reducible apply KeepsAns.next | with_reducible apply State.setLatPort_keeps | with_reducible refine KeepsAns.ite ?_ ?_ | with_reducible refine Keeps.ite ?_ ?_ | split | (with_reducible apply Keeps.upd; with_reducible assumption)

theorem execLatJoinReturn_keeps {s₀ s : State} (h : Keeps s₀ s) (p : Nat) (frame : Option (List (BitVec 8))) : KeepsAns s₀ (execLatJoinReturn p frame s) := by
  unfold execLatJoinReturn
  repeat' first | (extract_lets +onlyGivenNames z; first | (refine Keeps.cut (s₀ := s₀) z ?_ ?_; rotate_left; clear_value z; intro hz; rotate_left; subst z) | clear_value z) | with_reducible assumption | with_reducible apply KeepsAns.next | with_reducible apply State.modLatPort_keeps | with_reducible refine KeepsAns.ite ?_ ?_ | with_reducible refine Keeps.ite ?_ ?_ | split | (with_reducible apply Keeps.upd; with_reducible assumption)

theorem State.setFan_keeps {s₀ s : State} (h : Keeps s₀ s) (fc : Nat) (x : FanCh) : Keeps s₀ (State.setFan s fc x) := by
  unfold State.setFan
  try dsimp only
  repeat' first | with_reducible assumption | (with_reducible apply Keeps.upd; with_reducible assumption)

theorem State.fanTo_keeps {s₀ s : State} (h : Keeps s₀ s) (fc : Nat) (v : Nat) (drive : Nat) : Keeps s₀ (State.fanTo s fc v drive) := by
  unfold State.fanTo
  try dsimp only
  repeat' first | with_reducible assumption | with_reducible apply State.setFan_keeps | with_reducible apply State.setF_keeps | (with_reducible apply Keeps.upd; with_reducible assumption)

theorem State.fanKick_keeps {s₀ s : State} (h : Keeps s₀ s) (fc : Nat) : Keeps s₀ (State.fanKick s fc) := by
  unfold State.fanKick
  try dsimp only
  repeat' first | with_reducible assumption | with_reducible apply State.fanTo_keeps | with_reducible apply State.setFan_keeps | with_reducible apply State.setF_keeps | (with_reducible apply Keeps.upd; with_reducible assumption)

theorem State.fanFault_keeps {s₀ s : State} (h : Keeps s₀ s) (fc : Nat) (drive : Nat) : Keeps s₀ (State.fanFault s fc drive) := by
  unfold State.fanFault
  repeat' first | with_reducible assumption | with_reducible apply State.fanTo_keeps | with_reducible apply State.report_keeps | with_reducible apply State.event_keeps

theorem State.fanStart_keeps {s₀ s : State} (h : Keeps s₀ s) (fc : Nat) : Keeps s₀ (State.fanStart s fc) := by
  unfold State.fanStart
  repeat' first | with_reducible assumption | with_reducible apply State.setF_keeps | with_reducible apply State.fanKick_keeps

theorem execFanDutyWrite_keeps {s₀ s : State} (h : Keeps s₀ s) (fc : Nat) (duty : BitVec 16) : KeepsAns s₀ (execFanDutyWrite fc duty s) := by
  unfold execFanDutyWrite
  try dsimp only
  repeat' first | with_reducible assumption | with_reducible apply KeepsAns.next | with_reducible apply State.darkWrite_keeps | with_reducible apply State.setF_keeps | with_reducible apply State.fanTo_keeps | with_reducible apply State.fanStart_keeps | with_reducible refine KeepsAns.ite ?_ ?_ | with_reducible refine Keeps.ite ?_ ?_

theorem execFanKickEnd_keeps {s₀ s : State} (h : Keeps s₀ s) (fc : Nat) (rpm : Nat) : KeepsAns s₀ (execFanKickEnd fc rpm s) := by
  unfold execFanKickEnd
  repeat' first | with_reducible assumption | with_reducible apply KeepsAns.next | with_reducible apply State.fanTo_keeps | with_reducible apply State.fanFault_keeps | with_reducible refine KeepsAns.ite ?_ ?_ | with_reducible refine Keeps.ite ?_ ?_

theorem execFanRetry_keeps {s₀ s : State} (h : Keeps s₀ s) (fc : Nat) : KeepsAns s₀ (execFanRetry fc s) := by
  unfold execFanRetry
  repeat' first | with_reducible assumption | with_reducible apply KeepsAns.next | with_reducible apply State.fanKick_keeps | with_reducible refine KeepsAns.ite ?_ ?_ | with_reducible refine Keeps.ite ?_ ?_

theorem execFanMeasure_keeps {s₀ s : State} (h : Keeps s₀ s) (fc : Nat) (rpm : Nat) : KeepsAns s₀ (execFanMeasure fc rpm s) := by
  unfold execFanMeasure
  try dsimp only
  repeat' first | with_reducible assumption | with_reducible apply KeepsAns.next | with_reducible apply State.setF_keeps | with_reducible apply State.fanFault_keeps | with_reducible refine KeepsAns.ite ?_ ?_ | with_reducible refine Keeps.ite ?_ ?_

theorem execFanTachLost_keeps {s₀ s : State} (h : Keeps s₀ s) (fc : Nat) : KeepsAns s₀ (execFanTachLost fc s) := by
  unfold execFanTachLost
  repeat' first | (extract_lets +onlyGivenNames z; first | (refine Keeps.cut (s₀ := s₀) z ?_ ?_; rotate_left; clear_value z; intro hz; rotate_left; subst z) | clear_value z) | with_reducible assumption | with_reducible apply KeepsAns.next | with_reducible apply State.setFan_keeps | with_reducible apply State.fanTo_keeps | with_reducible apply State.raise_keeps | with_reducible apply State.report_keeps | with_reducible apply State.pf_keeps | with_reducible apply State.event_keeps | with_reducible apply State.fanFault_keeps | with_reducible refine KeepsAns.ite ?_ ?_ | with_reducible refine Keeps.ite ?_ ?_ | (with_reducible apply Keeps.upd; with_reducible assumption)

theorem execFanTachRecover_keeps {s₀ s : State} (h : Keeps s₀ s) (fc : Nat) : KeepsAns s₀ (execFanTachRecover fc s) := by
  unfold execFanTachRecover
  repeat' first | with_reducible assumption | with_reducible apply KeepsAns.next | with_reducible apply State.fanTo_keeps | with_reducible refine KeepsAns.ite ?_ ?_ | with_reducible refine Keeps.ite ?_ ?_

theorem execFanClear_keeps {s₀ s : State} (h : Keeps s₀ s) (fc : Nat) : KeepsAns s₀ (execFanClear fc s) := by
  unfold execFanClear
  try dsimp only
  repeat' first | with_reducible assumption | with_reducible apply KeepsAns.next | with_reducible apply State.darkWrite_keeps | with_reducible apply State.fanTo_keeps | with_reducible apply State.fanStart_keeps | with_reducible refine KeepsAns.ite ?_ ?_ | with_reducible refine Keeps.ite ?_ ?_

end Sys2Proof.Machine
end

