-- ==== Sys2Proof/Laws/KeepLoops.lean ====
section
/-! SUPPORT. What the operations of Machine/Loops.lean keep (Laws/Keep.lean). -/
namespace Sys2Proof.Machine
set_option Elab.async false
set_option linter.all false

theorem State.lpRefuse_keeps {s₀ s : State} (h : Keeps s₀ s) (lp : Nat) (code : Nat) : Keeps s₀ (State.lpRefuse s lp code) := by
  unfold State.lpRefuse
  try dsimp only
  repeat' first | with_reducible assumption | with_reducible apply State.raise_keeps | with_reducible apply State.satInc_keeps | with_reducible apply State.setF_keeps | with_reducible refine Keeps.ite ?_ ?_

theorem State.lpDark_keeps {s₀ s : State} (h : Keeps s₀ s) (lp : Nat) (cmd : Nat) : Keeps s₀ (State.lpDark s lp cmd) := by
  unfold State.lpDark
  try dsimp only
  repeat' first | with_reducible assumption | with_reducible apply State.darkWrite_keeps | with_reducible apply State.lpRefuse_keeps | with_reducible refine Keeps.ite ?_ ?_

theorem execLoopOff_keeps {s₀ s : State} (h : Keeps s₀ s) (lp : Nat) : KeepsAns s₀ (execLoopOff lp s) := by
  unfold execLoopOff
  repeat' first | with_reducible assumption | with_reducible apply KeepsAns.next | with_reducible apply State.lpDark_keeps | with_reducible apply State.lpRefuse_keeps | with_reducible apply State.lpOff_keeps | with_reducible refine KeepsAns.ite ?_ ?_ | with_reducible refine Keeps.ite ?_ ?_

theorem execLoopOpen_keeps {s₀ s : State} (h : Keeps s₀ s) (lp : Nat) : KeepsAns s₀ (execLoopOpen lp s) := by
  unfold execLoopOpen
  try dsimp only
  repeat' first | with_reducible assumption | with_reducible apply KeepsAns.next | with_reducible apply State.lpDark_keeps | with_reducible apply State.modLoop_keeps | with_reducible apply State.setF_keeps | with_reducible apply State.lpTo_keeps | with_reducible apply State.lpRefuse_keeps | with_reducible apply State.setLoop_keeps | with_reducible refine KeepsAns.ite ?_ ?_ | with_reducible refine Keeps.ite ?_ ?_ | (with_reducible apply Keeps.upd; with_reducible assumption)

theorem State.lpConstants_keeps {s₀ s : State} (h : Keeps s₀ s) (lp : Nat) : Keeps s₀ (State.lpConstants s lp) := by
  unfold State.lpConstants
  try dsimp only
  repeat' first | with_reducible assumption | with_reducible apply State.modLoop_keeps | (with_reducible apply Keeps.upd; with_reducible assumption)

theorem State.lpReclose_keeps {s₀ s : State} (h : Keeps s₀ s) (lp : Nat) : Keeps s₀ (State.lpReclose s lp) := by
  unfold State.lpReclose
  repeat' first | with_reducible assumption | with_reducible apply State.lpConstants_keeps | with_reducible apply State.lpTo_keeps | with_reducible apply State.lpRefuse_keeps | with_reducible refine Keeps.ite ?_ ?_

theorem execLoopClose_keeps {s₀ s : State} (h : Keeps s₀ s) (lp : Nat) : KeepsAns s₀ (execLoopClose lp s) := by
  unfold execLoopClose
  repeat' first | with_reducible assumption | with_reducible apply KeepsAns.next | with_reducible apply State.lpDark_keeps | with_reducible apply State.lpRefuse_keeps | with_reducible apply State.lpConstants_keeps | with_reducible apply State.lpTo_keeps | with_reducible refine KeepsAns.ite ?_ ?_ | with_reducible refine Keeps.ite ?_ ?_

theorem State.lpArrive_keeps {s₀ s : State} (h : Keeps s₀ s) (lp : Nat) (code : BitVec 16) : Keeps s₀ (State.lpArrive s lp code) := by
  unfold State.lpArrive
  try dsimp only
  repeat' first | with_reducible assumption | with_reducible apply State.setF_keeps | with_reducible apply State.setPoly_keeps | with_reducible refine Keeps.ite ?_ ?_

theorem State.lpConclude_keeps {s₀ s : State} (h : Keeps s₀ s) (lp : Nat) (ev : LpEval) : Keeps s₀ (State.lpConclude s lp ev) := by
  unfold State.lpConclude
  try dsimp only
  repeat' first | with_reducible assumption | with_reducible apply State.setLoop_keeps | with_reducible apply State.lpFault_keeps | with_reducible apply State.lpShow_keeps | with_reducible refine Keeps.ite ?_ ?_ | (with_reducible apply Keeps.upd; with_reducible assumption)

theorem execLoopSample_keeps {s₀ s : State} (h : Keeps s₀ s) (lp : Nat) (code : BitVec 16) (ecc : Nat) : KeepsAns s₀ (execLoopSample lp code ecc s) := by
  unfold execLoopSample
  try dsimp only
  repeat' first | with_reducible assumption | with_reducible apply KeepsAns.next | with_reducible apply State.report_keeps | with_reducible apply State.setF_keeps | with_reducible apply State.lpFault_keeps | with_reducible apply State.lpArrive_keeps | with_reducible apply State.lpRaw_keeps | with_reducible apply State.lpConclude_keeps | (refine Keeps.of_thd ?_ (by assumption)) | with_reducible refine KeepsAns.ite ?_ ?_ | with_reducible refine Keeps.ite ?_ ?_ | with_reducible refine Keeps.ite_snd ?_ ?_ | with_reducible refine Keeps.ite_fst ?_ ?_ | split | dsimp only

theorem execLoopOutput_keeps {s₀ s : State} (h : Keeps s₀ s) (lp : Nat) (late : Bool) : KeepsAns s₀ (execLoopOutput lp late s) := by
  unfold execLoopOutput
  repeat' first | (extract_lets +onlyGivenNames z; first | (refine Keeps.cut (s₀ := s₀) z ?_ ?_; rotate_left; clear_value z; intro hz; rotate_left; subst z) | clear_value z) | with_reducible assumption | with_reducible apply KeepsAns.next | with_reducible apply State.modLoop_keeps | with_reducible apply State.satInc_keeps | with_reducible apply State.lpFault_keeps | with_reducible apply State.lpSafe_keeps | with_reducible apply State.lpDrive_keeps | with_reducible refine KeepsAns.ite ?_ ?_ | with_reducible refine Keeps.ite ?_ ?_ | split | (with_reducible apply Keeps.upd; with_reducible assumption)

theorem execAdcScanConversion_keeps {s₀ s : State} (h : Keeps s₀ s) (ch : Nat) (code : BitVec 16) : KeepsAns s₀ (execAdcScanConversion ch code s) := by
  unfold execAdcScanConversion
  try dsimp only
  repeat' first | with_reducible assumption | with_reducible apply KeepsAns.next | with_reducible apply State.setF_keeps | with_reducible refine KeepsAns.ite ?_ ?_ | with_reducible refine Keeps.ite ?_ ?_ | (with_reducible apply Keeps.upd; with_reducible assumption)

theorem execPwmCarrierPeriod_keeps {s₀ s : State} (h : Keeps s₀ s) (c : Nat) : KeepsAns s₀ (execPwmCarrierPeriod c s) := by
  unfold execPwmCarrierPeriod
  try dsimp only
  repeat' first | with_reducible assumption | with_reducible apply KeepsAns.next | with_reducible apply State.emit_keeps | with_reducible refine KeepsAns.ite ?_ ?_ | with_reducible refine Keeps.ite ?_ ?_ | (with_reducible apply Keeps.upd; with_reducible assumption)

theorem execPolySearchShift_keeps {s₀ s : State} (h : Keeps s₀ s) (st : Nat) : KeepsAns s₀ (execPolySearchShift st s) := by
  unfold execPolySearchShift
  repeat' first | (extract_lets +onlyGivenNames z; first | (refine Keeps.cut (s₀ := s₀) z ?_ ?_; rotate_left; clear_value z; intro hz; rotate_left; subst z) | clear_value z) | with_reducible assumption | with_reducible apply KeepsAns.next | with_reducible apply State.modScnSt_keeps | with_reducible apply State.modLoop_keeps | with_reducible refine KeepsAns.ite ?_ ?_ | with_reducible refine Keeps.ite ?_ ?_ | split | (with_reducible apply Keeps.upd; with_reducible assumption)

end Sys2Proof.Machine
end

