-- ==== Sys2Proof/Laws/KeepHeadgate.lean ====
section
/-! SUPPORT. What the operations of Machine/Headgate.lean keep (Laws/Keep.lean). -/
namespace Sys2Proof.Machine
set_option Elab.async false
set_option linter.all false

theorem State.hdgReport_keeps {s₀ s : State} (h : Keeps s₀ s) (cls : Nat) (cause : Nat) (st : Nat) (e : Nat) : Keeps s₀ (State.hdgReport s cls cause st e) := by
  unfold State.hdgReport
  repeat' first | with_reducible assumption | with_reducible apply State.report_keeps

theorem execInterlockChange_keeps {s₀ s : State} (h : Keeps s₀ s) (cover : Nat) (isOpen : Bool) : KeepsAns s₀ (execInterlockChange cover isOpen s) := by
  unfold execInterlockChange
  repeat' first | (extract_lets +onlyGivenNames z; first | (refine Keeps.cut (s₀ := s₀) z ?_ ?_; rotate_left; clear_value z; intro hz; rotate_left; subst z) | clear_value z) | with_reducible assumption | with_reducible apply KeepsAns.next | with_reducible apply State.setF_keeps | with_reducible apply State.hdgSync_keeps | with_reducible apply State.satInc_keeps | with_reducible apply State.hdgReport_keeps | (with_reducible apply Keeps.foldl; intro _ _ _) | with_reducible refine KeepsAns.ite ?_ ?_ | with_reducible refine Keeps.ite ?_ ?_

theorem State.gateTo_keeps {s₀ s : State} (h : Keeps s₀ s) (st : Nat) (shut : Bool) : Keeps s₀ (State.gateTo s st shut) := by
  unfold State.gateTo
  try dsimp only
  repeat' first | with_reducible assumption | with_reducible apply State.setHdgSt_keeps | with_reducible apply State.setB_keeps | with_reducible apply State.hdgSync_keeps | with_reducible refine Keeps.ite ?_ ?_ | (with_reducible apply Keeps.upd; with_reducible assumption)

theorem execTachEdge_keeps {s₀ s : State} (h : Keeps s₀ s) (enc : Nat) : KeepsAns s₀ (execTachEdge enc s) := by
  unfold execTachEdge
  try dsimp only
  repeat' first | with_reducible assumption | with_reducible apply KeepsAns.next | with_reducible apply State.setHdgSt_keeps | with_reducible apply State.gateTo_keeps | (with_reducible apply Keeps.foldl; intro _ _ _) | with_reducible refine KeepsAns.ite ?_ ?_ | with_reducible refine Keeps.ite ?_ ?_ | (with_reducible apply Keeps.upd; with_reducible assumption)

theorem execSpeedGateTimeout_keeps {s₀ s : State} (h : Keeps s₀ s) (st : Nat) : KeepsAns s₀ (execSpeedGateTimeout st s) := by
  unfold execSpeedGateTimeout
  repeat' first | with_reducible assumption | with_reducible apply KeepsAns.next | with_reducible apply State.gateTo_keeps | with_reducible refine KeepsAns.ite ?_ ?_ | with_reducible refine Keeps.ite ?_ ?_

theorem execEmitterOntimeExceeded_keeps {s₀ s : State} (h : Keeps s₀ s) (st : Nat) (emitter : Nat) : KeepsAns s₀ (execEmitterOntimeExceeded st emitter s) := by
  unfold execEmitterOntimeExceeded
  repeat' first | (extract_lets +onlyGivenNames z; first | (refine Keeps.cut (s₀ := s₀) z ?_ ?_; rotate_left; clear_value z; intro hz; rotate_left; subst z) | clear_value z) | with_reducible assumption | with_reducible apply KeepsAns.next | with_reducible apply State.setF_keeps | with_reducible apply State.setHdgSt_keeps | with_reducible apply State.satInc_keeps | with_reducible apply State.hdgSync_keeps | with_reducible apply State.hdgReport_keeps | with_reducible refine KeepsAns.ite ?_ ?_ | with_reducible refine Keeps.ite ?_ ?_ | (with_reducible apply Keeps.upd; with_reducible assumption)

theorem State.dutyStep_keeps {s₀ s : State} (h : Keeps s₀ s) (st : Nat) (lines : List Nat) : Keeps s₀ (State.dutyStep s st lines) := by
  unfold State.dutyStep
  try dsimp only
  repeat' first | (extract_lets +onlyGivenNames z; first | (refine Keeps.cut (s₀ := s₀) z ?_ ?_; rotate_left; clear_value z; intro hz; rotate_left; subst z) | clear_value z) | with_reducible assumption | with_reducible apply State.setHdgSt_keeps | with_reducible apply State.setF_keeps | with_reducible apply State.satInc_keeps | with_reducible apply State.hdgReport_keeps | with_reducible apply State.hdgSync_keeps | (with_reducible apply Keeps.foldl; intro _ _ _) | with_reducible refine Keeps.ite ?_ ?_ | split | (with_reducible apply Keeps.upd; with_reducible assumption)

theorem execDutyEvaluate_keeps {s₀ s : State} (h : Keeps s₀ s) (onTimes : List (List Nat)) : KeepsAns s₀ (execDutyEvaluate onTimes s) := by
  unfold execDutyEvaluate
  repeat' first | with_reducible assumption | with_reducible apply KeepsAns.next | with_reducible apply State.dutyStep_keeps | with_reducible apply State.quietSync_keeps | (with_reducible apply Keeps.foldl; intro _ _ _) | with_reducible refine KeepsAns.ite ?_ ?_ | with_reducible refine Keeps.ite ?_ ?_

theorem State.hdgLimit_keeps {s₀ s : State} (h : Keeps s₀ s) (off : Nat) (value : BitVec 32) (ok : Bool) : Keeps s₀ (State.hdgLimit s off value ok) := by
  unfold State.hdgLimit
  try dsimp only
  repeat' first | with_reducible assumption | with_reducible apply State.raise_keeps | with_reducible apply State.setWord_keeps | with_reducible apply State.hdgSync_keeps | with_reducible refine Keeps.ite ?_ ?_

theorem execHdgLimitWrite_keeps {s₀ s : State} (h : Keeps s₀ s) (off : Nat) (value : BitVec 32) : KeepsAns s₀ (execHdgLimitWrite off value s) := by
  unfold execHdgLimitWrite
  repeat' first | with_reducible assumption | with_reducible apply KeepsAns.next | with_reducible apply State.darkWrite_keeps | with_reducible apply State.reportAccess_keeps | with_reducible apply State.hdgLimit_keeps | with_reducible refine KeepsAns.ite ?_ ?_ | with_reducible refine Keeps.ite ?_ ?_ | split

end Sys2Proof.Machine
end

