-- ==== Sys2Proof/Laws/KeepOtp.lean ====
section
/-! SUPPORT. What the operations of Machine/Otp.lean keep (Laws/Keep.lean). -/
namespace Sys2Proof.Machine
set_option Elab.async false
set_option linter.all false

theorem State.otpReport_keeps {s₀ s : State} (h : Keeps s₀ s) (cls : Nat) (cause : Nat) (row : Nat) : Keeps s₀ (State.otpReport s cls cause row) := by
  unfold State.otpReport
  repeat' first | with_reducible assumption | with_reducible apply State.report_keeps

theorem State.secReport_keeps {s₀ s : State} (h : Keeps s₀ s) (cls : Nat) (cause : Nat) (code : Nat) : Keeps s₀ (State.secReport s cls cause code) := by
  unfold State.secReport
  repeat' first | with_reducible assumption | with_reducible apply State.report_keeps

theorem State.otpBusy_keeps {s₀ s : State} (h : Keeps s₀ s) : Keeps s₀ (State.otpBusy s) := by
  unfold State.otpBusy
  try dsimp only
  repeat' first | with_reducible assumption | with_reducible apply State.setB_keeps | split

theorem State.otpNext_keeps {s₀ s : State} (h : Keeps s₀ s) : Keeps s₀ (State.otpNext s) := by
  unfold State.otpNext
  try dsimp only
  repeat' first | with_reducible assumption | with_reducible apply State.otpBusy_keeps | (with_reducible apply Keeps.upd; with_reducible assumption)

theorem State.otpInternal_keeps {s₀ s : State} (h : Keeps s₀ s) (x : OtpOp) : Keeps s₀ (State.otpInternal s x) := by
  unfold State.otpInternal
  repeat' first | (extract_lets +onlyGivenNames z; first | (refine Keeps.cut (s₀ := s₀) z ?_ ?_; rotate_left; clear_value z; intro hz; rotate_left; subst z) | clear_value z) | with_reducible assumption | with_reducible apply State.raise_keeps | with_reducible apply State.otpBusy_keeps | with_reducible refine Keeps.ite ?_ ?_ | (with_reducible apply Keeps.upd; with_reducible assumption)

theorem State.otpStart_keeps {s₀ s : State} (h : Keeps s₀ s) (x : OtpOp) : Keeps s₀ (State.otpStart s x) := by
  unfold State.otpStart
  try dsimp only
  repeat' first | with_reducible assumption | with_reducible apply State.raise_keeps | with_reducible apply State.mark_keeps | with_reducible apply State.otpBusy_keeps | with_reducible refine Keeps.ite ?_ ?_ | (with_reducible apply Keeps.upd; with_reducible assumption)

theorem State.otpCmd_keeps {s₀ s : State} (h : Keeps s₀ s) (op : Nat) (addr : Nat) (data : BitVec 64) : Keeps s₀ (State.otpCmd s op addr data) := by
  unfold State.otpCmd
  repeat' first | with_reducible assumption | with_reducible apply State.otpStart_keeps | with_reducible apply State.raise_keeps | split

theorem State.otpCmdWrite_keeps {s₀ s : State} (h : Keeps s₀ s) (op : Nat) (addr : Nat) : Keeps s₀ (State.otpCmdWrite s op addr) := by
  unfold State.otpCmdWrite
  repeat' first | with_reducible assumption | with_reducible apply State.darkWrite_keeps | with_reducible apply State.otpCmd_keeps | with_reducible refine Keeps.ite ?_ ?_

theorem execOtpReadS_keeps {s₀ s : State} (h : Keeps s₀ s) (addr : Nat) : KeepsAns s₀ (execOtpReadS addr s) := by
  unfold execOtpReadS
  repeat' first | with_reducible assumption | with_reducible apply KeepsAns.next | with_reducible apply State.otpCmdWrite_keeps

theorem execOtpWriteS_keeps {s₀ s : State} (h : Keeps s₀ s) (addr : Nat) : KeepsAns s₀ (execOtpWriteS addr s) := by
  unfold execOtpWriteS
  repeat' first | with_reducible assumption | with_reducible apply KeepsAns.next | with_reducible apply State.otpCmdWrite_keeps

theorem execOtpSetP_keeps {s₀ s : State} (h : Keeps s₀ s) (addr : Nat) : KeepsAns s₀ (execOtpSetP addr s) := by
  unfold execOtpSetP
  repeat' first | with_reducible assumption | with_reducible apply KeepsAns.next | with_reducible apply State.otpCmdWrite_keeps

theorem State.readWord_keeps {s₀ s : State} (h : Keeps s₀ s) (w : Nat) (err : Nat) : Keeps s₀ (State.readWord s w err) := by
  unfold State.readWord
  try dsimp only
  repeat' first | with_reducible assumption | with_reducible apply State.setOtpWord_keeps | with_reducible apply State.satInc_keeps | with_reducible apply State.otpReport_keeps | with_reducible apply State.set64_keeps | with_reducible apply State.drew_keeps | with_reducible refine Keeps.ite ?_ ?_ | (with_reducible apply Keeps.upd; with_reducible assumption)

theorem State.programRow_keeps {s₀ s : State} (h : Keeps s₀ s) (r : Nat) (m : BitVec 32) (bad : BitVec 32) : Keeps s₀ (State.programRow s r m bad).2 := by
  unfold State.programRow
  repeat' first | (extract_lets +onlyGivenNames z; first | (refine Keeps.cut (s₀ := s₀) z ?_ ?_; rotate_left; clear_value z; intro hz; rotate_left; subst z) | (refine Keeps.cut (s₀ := s₀) (z : _ × State).2 ?_ ?_; rotate_left; clear_value z; intro hz; rotate_left; subst z) | (refine Keeps.cut (s₀ := s₀) (z : State × _).1 ?_ ?_; rotate_left; clear_value z; intro hz; rotate_left; subst z) | (refine Keeps.cut (s₀ := s₀) (z : _ × _ × State).2.2 ?_ ?_; rotate_left; clear_value z; intro hz; rotate_left; subst z) | clear_value z) | with_reducible assumption | with_reducible apply State.setOtpRow_keeps | with_reducible apply State.otpReport_keeps | with_reducible apply State.setOtpWord_keeps | with_reducible apply State.setWord_keeps | with_reducible refine Keeps.ite ?_ ?_ | with_reducible refine Keeps.ite_snd ?_ ?_ | with_reducible refine Keeps.ite_fst ?_ ?_ | split | (with_reducible apply Keeps.upd; first | with_reducible assumption | with_reducible apply State.setOtpRow_keeps | with_reducible apply State.otpReport_keeps | with_reducible apply State.setOtpWord_keeps | with_reducible apply State.setWord_keeps) | dsimp only

theorem State.programThermo_keeps {s₀ s : State} (h : Keeps s₀ s) (base : Nat) (n : Nat) (count : Nat) (bad : BitVec 32) : Keeps s₀ (State.programThermo s base n count bad).2 := by
  unfold State.programThermo
  try dsimp only
  repeat' first | with_reducible assumption | with_reducible apply State.programRow_keeps | (with_reducible apply Keeps.foldl; intro _ _ _) | (with_reducible apply Keeps.foldl_snd; intro _ _ _) | (with_reducible apply Keeps.foldl_fst; intro _ _ _) | (refine Keeps.of_snd ?_ (by assumption)) | with_reducible refine Keeps.ite ?_ ?_ | with_reducible refine Keeps.ite_snd ?_ ?_ | with_reducible refine Keeps.ite_fst ?_ ?_ | split | dsimp only

theorem execOtpOperationDone_keeps {s₀ s : State} (h : Keeps s₀ s) (bad : BitVec 64) (err : Nat) : KeepsAns s₀ (execOtpOperationDone bad err s) := by
  unfold execOtpOperationDone
  try dsimp only
  repeat' first | with_reducible assumption | with_reducible apply KeepsAns.next | with_reducible apply State.setF_keeps | with_reducible apply State.otpNext_keeps | with_reducible apply State.otpShow_keeps | with_reducible apply State.programThermo_keeps | with_reducible apply State.readWord_keeps | with_reducible apply State.setOtpWord_keeps | with_reducible apply State.programRow_keeps | (refine Keeps.of_snd ?_ (by assumption)) | with_reducible refine KeepsAns.ite ?_ ?_ | with_reducible refine Keeps.ite ?_ ?_ | with_reducible refine Keeps.ite_snd ?_ ?_ | with_reducible refine Keeps.ite_fst ?_ ?_ | split | (with_reducible apply Keeps.upd; first | with_reducible assumption | with_reducible apply State.setF_keeps | with_reducible apply State.otpNext_keeps | with_reducible apply State.otpShow_keeps | with_reducible apply State.programThermo_keeps | with_reducible apply State.readWord_keeps | with_reducible apply State.setOtpWord_keeps | with_reducible apply State.programRow_keeps) | dsimp only

theorem State.setVariant_keeps {s₀ s : State} (h : Keeps s₀ s) (v : Variant) : Keeps s₀ (State.setVariant s v) :=
  ⟨h.queue, h.sent, h.drawn, fun c => ⟨Store.wf_renew (h.canonical c).1, Store.wf_renew (h.canonical c).2, (h.canonical c).3, (h.canonical c).4, (h.canonical c).5⟩⟩

theorem State.latchFuses_keeps {s₀ s : State} (h : Keeps s₀ s) : Keeps s₀ (State.latchFuses s) := by
  unfold State.latchFuses
  repeat' first | (extract_lets +onlyGivenNames z; first | (refine Keeps.cut (s₀ := s₀) z ?_ ?_; rotate_left; clear_value z; intro hz; rotate_left; subst z) | clear_value z) | with_reducible assumption | with_reducible apply State.setVariant_keeps | with_reducible apply State.setF_keeps | with_reducible apply State.setWord_keeps | with_reducible apply State.otpReport_keeps | (with_reducible apply Keeps.foldl; intro _ _ _) | with_reducible refine Keeps.ite ?_ ?_

theorem State.lcRefused_keeps {s₀ s : State} (h : Keeps s₀ s) : Keeps s₀ (State.lcRefused s) := by
  unfold State.lcRefused
  repeat' first | with_reducible assumption | with_reducible apply State.raise_keeps

theorem State.askSecured_keeps {s₀ s : State} (h : Keeps s₀ s) (key : Nat) : Keeps s₀ (State.askSecured s key) := by
  unfold State.askSecured
  repeat' first | with_reducible assumption | with_reducible apply State.otpInternal_keeps | with_reducible apply State.lcRefused_keeps | with_reducible refine Keeps.ite ?_ ?_

theorem State.askReturned_keeps {s₀ s : State} (h : Keeps s₀ s) (key : Nat) : Keeps s₀ (State.askReturned s key) := by
  unfold State.askReturned
  repeat' first | with_reducible assumption | with_reducible apply State.otpInternal_keeps | with_reducible apply State.lcRefused_keeps | with_reducible refine Keeps.ite ?_ ?_

theorem State.lcRequest_keeps {s₀ s : State} (h : Keeps s₀ s) (key : Nat) (target : Nat) : Keeps s₀ (State.lcRequest s key target) := by
  unfold State.lcRequest
  repeat' first | with_reducible assumption | with_reducible apply State.askSecured_keeps | with_reducible apply State.askReturned_keeps | with_reducible apply State.lcRefused_keeps | with_reducible refine Keeps.ite ?_ ?_

theorem execLcRequestSecured_keeps {s₀ s : State} (h : Keeps s₀ s) (key : Nat) : KeepsAns s₀ (execLcRequestSecured key s) := by
  unfold execLcRequestSecured
  repeat' first | with_reducible assumption | with_reducible apply KeepsAns.next | with_reducible apply State.darkWrite_keeps | with_reducible apply State.askSecured_keeps | with_reducible refine KeepsAns.ite ?_ ?_ | with_reducible refine Keeps.ite ?_ ?_

theorem execLcRequestReturned_keeps {s₀ s : State} (h : Keeps s₀ s) (key : Nat) : KeepsAns s₀ (execLcRequestReturned key s) := by
  unfold execLcRequestReturned
  repeat' first | with_reducible assumption | with_reducible apply KeepsAns.next | with_reducible apply State.darkWrite_keeps | with_reducible apply State.askReturned_keeps | with_reducible refine KeepsAns.ite ?_ ?_ | with_reducible refine Keeps.ite ?_ ?_

theorem State.setMarker_keeps {s₀ s : State} (h : Keeps s₀ s) (n : Nat) : Keeps s₀ (State.setMarker s n) := by
  unfold State.setMarker
  repeat' first | (extract_lets +onlyGivenNames z; first | (refine Keeps.cut (s₀ := s₀) z ?_ ?_; rotate_left; clear_value z; intro hz; rotate_left; subst z) | clear_value z) | with_reducible assumption | with_reducible apply State.setOtpWord_keeps | (with_reducible apply Keeps.upd; with_reducible assumption)

theorem State.lcDone_keeps {s₀ s : State} (h : Keeps s₀ s) (target : Nat) : Keeps s₀ (State.lcDone s target) := by
  unfold State.lcDone
  try dsimp only
  repeat' first | with_reducible assumption | with_reducible apply State.setMarker_keeps | with_reducible apply State.latchFuses_keeps | with_reducible apply State.closeSession_keeps | with_reducible apply State.secReport_keeps | with_reducible apply State.record_keeps

theorem State.writeKeys_keeps {s₀ s : State} (h : Keeps s₀ s) : Keeps s₀ (State.writeKeys s) := by
  unfold State.writeKeys
  repeat' first | (extract_lets +onlyGivenNames z; first | (refine Keeps.cut (s₀ := s₀) z ?_ ?_; rotate_left; clear_value z; intro hz; rotate_left; subst z) | clear_value z) | with_reducible assumption | with_reducible apply State.setOtpWord_keeps | with_reducible apply State.drew_keeps | (with_reducible apply Keeps.foldl; intro _ _ _) | with_reducible refine Keeps.ite ?_ ?_ | (with_reducible apply Keeps.upd; with_reducible assumption)

theorem State.obliterate_keeps {s₀ s : State} (h : Keeps s₀ s) : Keeps s₀ (State.obliterate s) := by
  unfold State.obliterate
  try dsimp only
  repeat' first | with_reducible assumption | with_reducible apply State.setOtpWord_keeps | with_reducible apply State.spoolOff_keeps | (with_reducible apply Keeps.foldl; intro _ _ _) | with_reducible refine Keeps.ite ?_ ?_ | (with_reducible apply Keeps.upd; with_reducible assumption)

theorem execLcTransitionDone_keeps {s₀ s : State} (h : Keeps s₀ s) (bad : Bool) : KeepsAns s₀ (execLcTransitionDone bad s) := by
  unfold execLcTransitionDone
  repeat' first | (extract_lets +onlyGivenNames z; first | (refine Keeps.cut (s₀ := s₀) z ?_ ?_; rotate_left; clear_value z; intro hz; rotate_left; subst z) | clear_value z) | with_reducible assumption | with_reducible apply KeepsAns.next | with_reducible apply State.lcRefused_keeps | with_reducible apply State.otpNext_keeps | with_reducible apply State.writeKeys_keeps | with_reducible apply State.setOtpWord_keeps | with_reducible apply State.setF_keeps | with_reducible apply State.lcDone_keeps | with_reducible apply State.obliterate_keeps | with_reducible refine KeepsAns.ite ?_ ?_ | with_reducible refine Keeps.ite ?_ ?_ | split | (with_reducible apply Keeps.upd; with_reducible assumption)

theorem State.svnCommit_keeps {s₀ s : State} (h : Keeps s₀ s) : Keeps s₀ (State.svnCommit s) := by
  unfold State.svnCommit
  try dsimp only
  repeat' first | with_reducible assumption | with_reducible apply State.otpInternal_keeps | with_reducible refine Keeps.ite ?_ ?_

theorem execSvnCommit_keeps {s₀ s : State} (h : Keeps s₀ s) : KeepsAns s₀ (execSvnCommit s) := by
  unfold execSvnCommit
  repeat' first | with_reducible assumption | with_reducible apply KeepsAns.next | with_reducible apply State.darkWrite_keeps | with_reducible apply State.svnCommit_keeps | with_reducible refine KeepsAns.ite ?_ ?_ | with_reducible refine Keeps.ite ?_ ?_

theorem execTokenRevoke_keeps {s₀ s : State} (h : Keeps s₀ s) (count : Nat) : KeepsAns s₀ (execTokenRevoke count s) := by
  unfold execTokenRevoke
  try dsimp only
  repeat' first | with_reducible assumption | with_reducible apply KeepsAns.next | with_reducible apply State.darkWrite_keeps | with_reducible apply State.reportAccess_keeps | with_reducible apply State.otpInternal_keeps | with_reducible refine KeepsAns.ite ?_ ?_ | with_reducible refine Keeps.ite ?_ ?_

theorem State.drawChallenge_keeps {s₀ s : State} (h : Keeps s₀ s) : Keeps s₀ (State.drawChallenge s) := by
  unfold State.drawChallenge
  repeat' first | (extract_lets +onlyGivenNames z; first | (refine Keeps.cut (s₀ := s₀) z ?_ ?_; rotate_left; clear_value z; intro hz; rotate_left; subst z) | clear_value z) | with_reducible assumption | with_reducible apply State.setWord_keeps | with_reducible apply State.set64_keeps | with_reducible apply State.drew_keeps | (with_reducible apply Keeps.foldl; intro _ _ _) | with_reducible refine Keeps.ite ?_ ?_ | (with_reducible apply Keeps.upd; with_reducible assumption)

theorem execChallengeRead_keeps {s₀ s : State} (h : Keeps s₀ s) : KeepsAns s₀ (execChallengeRead s) := by
  unfold execChallengeRead
  try dsimp only
  repeat' first | with_reducible assumption | with_reducible apply KeepsAns.next | with_reducible apply State.reportAccess_keeps | with_reducible apply State.emit_keeps | with_reducible apply State.drawChallenge_keeps | with_reducible refine KeepsAns.ite ?_ ?_ | with_reducible refine Keeps.ite ?_ ?_

theorem State.tokenJudged_keeps {s₀ s : State} (h : Keeps s₀ s) (code : Nat) : Keeps s₀ (State.tokenJudged s code) := by
  unfold State.tokenJudged
  repeat' first | (extract_lets +onlyGivenNames z; first | (refine Keeps.cut (s₀ := s₀) z ?_ ?_; rotate_left; clear_value z; intro hz; rotate_left; subst z) | clear_value z) | with_reducible assumption | with_reducible apply State.setF_keeps | with_reducible apply State.satInc_keeps | with_reducible apply State.secReport_keeps | with_reducible refine Keeps.ite ?_ ?_ | (with_reducible apply Keeps.upd; with_reducible assumption)

theorem State.submit_keeps {s₀ s : State} (h : Keeps s₀ s) (t : List Byte) : Keeps s₀ (State.submit s t) := by
  unfold State.submit
  repeat' first | (extract_lets +onlyGivenNames z; first | (refine Keeps.cut (s₀ := s₀) z ?_ ?_; rotate_left; clear_value z; intro hz; rotate_left; subst z) | clear_value z) | with_reducible assumption | with_reducible apply State.raise_keeps | with_reducible apply State.setF_keeps | with_reducible refine Keeps.ite ?_ ?_ | (with_reducible apply Keeps.upd; with_reducible assumption)

theorem execTokenSubmit_keeps {s₀ s : State} (h : Keeps s₀ s) (token : Option (List (BitVec 8))) : KeepsAns s₀ (execTokenSubmit token s) := by
  unfold execTokenSubmit
  try dsimp only
  repeat' first | with_reducible assumption | with_reducible apply KeepsAns.next | with_reducible apply State.darkWrite_keeps | with_reducible apply State.submit_keeps | with_reducible refine KeepsAns.ite ?_ ?_ | with_reducible refine Keeps.ite ?_ ?_

theorem State.openSession_keeps {s₀ s : State} (h : Keeps s₀ s) (level : Nat) (life : Nat) : Keeps s₀ (State.openSession s level life) := by
  unfold State.openSession
  repeat' first | (extract_lets +onlyGivenNames z; first | (refine Keeps.cut (s₀ := s₀) z ?_ ?_; rotate_left; clear_value z; intro hz; rotate_left; subst z) | clear_value z) | with_reducible assumption | with_reducible apply State.setF_keeps | with_reducible apply State.closeSession_keeps | with_reducible apply State.satInc_keeps | with_reducible refine Keeps.ite ?_ ?_ | (with_reducible apply Keeps.upd; with_reducible assumption)

theorem execTokenCheckDone_keeps {s₀ s : State} (h : Keeps s₀ s) : KeepsAns s₀ (execTokenCheckDone s) := by
  unfold execTokenCheckDone
  repeat' first | (extract_lets +onlyGivenNames z; first | (refine Keeps.cut (s₀ := s₀) z ?_ ?_; rotate_left; clear_value z; intro hz; rotate_left; subst z) | clear_value z) | with_reducible assumption | with_reducible apply KeepsAns.next | with_reducible apply State.setF_keeps | with_reducible apply State.tokenJudged_keeps | with_reducible apply State.otpInternal_keeps | with_reducible apply State.openSession_keeps | with_reducible refine KeepsAns.ite ?_ ?_ | with_reducible refine Keeps.ite ?_ ?_ | split | (with_reducible apply Keeps.upd; with_reducible assumption)

theorem execSessionClose_keeps {s₀ s : State} (h : Keeps s₀ s) : KeepsAns s₀ (execSessionClose s) := by
  unfold execSessionClose
  try dsimp only
  repeat' first | with_reducible assumption | with_reducible apply KeepsAns.next | with_reducible apply State.darkWrite_keeps | with_reducible apply State.closeSession_keeps | with_reducible refine KeepsAns.ite ?_ ?_ | with_reducible refine Keeps.ite ?_ ?_

theorem execSessionExpired_keeps {s₀ s : State} (h : Keeps s₀ s) : KeepsAns s₀ (execSessionExpired s) := by
  unfold execSessionExpired
  repeat' first | with_reducible assumption | with_reducible apply KeepsAns.next | with_reducible apply State.closeSession_keeps | with_reducible refine KeepsAns.ite ?_ ?_ | with_reducible refine Keeps.ite ?_ ?_

theorem execTrngHealthFail_keeps {s₀ s : State} (h : Keeps s₀ s) : KeepsAns s₀ (execTrngHealthFail s) := by
  unfold execTrngHealthFail
  try dsimp only
  repeat' first | with_reducible assumption | with_reducible apply KeepsAns.next | with_reducible apply State.setF_keeps | with_reducible apply State.secReport_keeps | with_reducible refine KeepsAns.ite ?_ ?_ | with_reducible refine Keeps.ite ?_ ?_ | (with_reducible apply Keeps.upd; with_reducible assumption)

theorem execTrngRecover_keeps {s₀ s : State} (h : Keeps s₀ s) : KeepsAns s₀ (execTrngRecover s) := by
  unfold execTrngRecover
  repeat' first | with_reducible assumption | with_reducible apply KeepsAns.next | with_reducible apply State.setF_keeps | with_reducible refine KeepsAns.ite ?_ ?_ | with_reducible refine Keeps.ite ?_ ?_

end Sys2Proof.Machine
end

