-- ==== Sys2Proof/Laws/KeepRecords.lean ====
section
/-! SUPPORT. What the operations of Machine/Records.lean keep (Laws/Keep.lean). -/
namespace Sys2Proof.Machine
set_option Elab.async false
set_option linter.all false

theorem State.setEvr_keeps {s₀ s : State} (h : Keeps s₀ s) (e : Evr) : Keeps s₀ (State.setEvr s e) := by
  unfold State.setEvr
  repeat' first | (extract_lets +onlyGivenNames z; first | (refine Keeps.cut (s₀ := s₀) z ?_ ?_; rotate_left; clear_value z; intro hz; rotate_left; subst z) | clear_value z) | with_reducible assumption | (with_reducible apply Keeps.upd; with_reducible assumption)

theorem State.flushing_keeps {s₀ s : State} (h : Keeps s₀ s) : Keeps s₀ (State.flushing s) := by
  unfold State.flushing
  repeat' first | with_reducible assumption | with_reducible apply State.setB_keeps

theorem State.eraseSector_keeps {s₀ s : State} (h : Keeps s₀ s) (slot : Nat) (seq : BitVec 32) : Keeps s₀ (State.eraseSector s slot seq) := by
  unfold State.eraseSector
  try dsimp only
  repeat' first | with_reducible assumption | with_reducible apply State.setEvr_keeps | with_reducible apply State.setF_keeps | with_reducible refine Keeps.ite ?_ ?_ | (with_reducible apply Keeps.upd; with_reducible assumption)

theorem execRecordFlashWrite_keeps {s₀ s : State} (h : Keeps s₀ s) (ok : Bool) : KeepsAns s₀ (execRecordFlashWrite ok s) := by
  unfold execRecordFlashWrite
  try dsimp only
  repeat' first | with_reducible assumption | with_reducible apply KeepsAns.next | with_reducible apply State.setF_keeps | with_reducible apply State.report_keeps | with_reducible apply State.eraseSector_keeps | with_reducible apply State.setEvr_keeps | with_reducible apply State.flushing_keeps | with_reducible refine KeepsAns.ite ?_ ?_ | with_reducible refine Keeps.ite ?_ ?_ | split | (with_reducible apply Keeps.upd; with_reducible assumption)

theorem State.showRecord_keeps {s₀ s : State} (h : Keeps s₀ s) (b : List Byte) : Keeps s₀ (State.showRecord s b) := by
  unfold State.showRecord
  repeat' first | with_reducible assumption | with_reducible apply State.setWord_keeps | (with_reducible apply Keeps.foldl; intro _ _ _)

theorem State.showNoRecord_keeps {s₀ s : State} (h : Keeps s₀ s) : Keeps s₀ (State.showNoRecord s) := by
  unfold State.showNoRecord
  repeat' first | with_reducible assumption | with_reducible apply State.set64_keeps | with_reducible apply State.drew_keeps | (with_reducible apply Keeps.foldl; intro _ _ _)

theorem State.readRecord_keeps {s₀ s : State} (h : Keeps s₀ s) (seq : BitVec 32) : Keeps s₀ (State.readRecord s seq) := by
  unfold State.readRecord
  try dsimp only
  repeat' first | with_reducible assumption | with_reducible apply State.setWord_keeps | with_reducible apply State.setF_keeps | with_reducible apply State.setB_keeps | with_reducible apply State.showNoRecord_keeps | with_reducible apply State.showRecord_keeps | with_reducible refine Keeps.ite ?_ ?_ | split

theorem execRecordRead_keeps {s₀ s : State} (h : Keeps s₀ s) (seq : BitVec 32) : KeepsAns s₀ (execRecordRead seq s) := by
  unfold execRecordRead
  repeat' first | with_reducible assumption | with_reducible apply KeepsAns.next | with_reducible apply State.darkWrite_keeps | with_reducible apply State.readRecord_keeps | with_reducible refine KeepsAns.ite ?_ ?_ | with_reducible refine Keeps.ite ?_ ?_

theorem State.startClear_keeps {s₀ s : State} (h : Keeps s₀ s) (epoch : Nat) : Keeps s₀ (State.startClear s epoch) := by
  unfold State.startClear
  repeat' first | (extract_lets +onlyGivenNames z; first | (refine Keeps.cut (s₀ := s₀) z ?_ ?_; rotate_left; clear_value z; intro hz; rotate_left; subst z) | clear_value z) | with_reducible assumption | with_reducible apply State.setEvr_keeps | with_reducible apply State.record_keeps | with_reducible apply State.setF_keeps | with_reducible apply State.flushing_keeps | (with_reducible apply Keeps.upd; with_reducible assumption)

theorem State.askClear_keeps {s₀ s : State} (h : Keeps s₀ s) (token : List Byte) : Keeps s₀ (State.askClear s token).2 := by
  unfold State.askClear
  try dsimp only
  repeat' first | with_reducible assumption | with_reducible apply State.raise_keeps | with_reducible apply State.startClear_keeps | with_reducible apply State.tokenJudged_keeps | with_reducible refine Keeps.ite ?_ ?_ | with_reducible refine Keeps.ite_snd ?_ ?_ | with_reducible refine Keeps.ite_fst ?_ ?_ | split | dsimp only

theorem execRecordClear_keeps {s₀ s : State} (h : Keeps s₀ s) (value : BitVec 32) : KeepsAns s₀ (execRecordClear value s) := by
  unfold execRecordClear
  repeat' first | with_reducible assumption | with_reducible apply KeepsAns.next | with_reducible apply State.darkWrite_keeps | with_reducible apply State.askClear_keeps | (refine Keeps.of_snd ?_ (by assumption)) | with_reducible refine KeepsAns.ite ?_ ?_ | with_reducible refine Keeps.ite ?_ ?_ | with_reducible refine Keeps.ite_snd ?_ ?_ | with_reducible refine Keeps.ite_fst ?_ ?_ | split | dsimp only

theorem State.clearSectors_keeps {s₀ s : State} (h : Keeps s₀ s) (seq : Nat) : Keeps s₀ (State.clearSectors s seq) := by
  unfold State.clearSectors
  try dsimp only
  repeat' first | with_reducible assumption | with_reducible apply State.setEvr_keeps | (with_reducible apply Keeps.upd; with_reducible assumption)

theorem execRecordClearDone_keeps {s₀ s : State} (h : Keeps s₀ s) : KeepsAns s₀ (execRecordClearDone s) := by
  unfold execRecordClearDone
  repeat' first | with_reducible assumption | with_reducible apply KeepsAns.next | with_reducible apply State.clearSectors_keeps | with_reducible apply State.setF_keeps | with_reducible apply State.flushing_keeps | with_reducible refine KeepsAns.ite ?_ ?_ | with_reducible refine Keeps.ite ?_ ?_

theorem State.scanRing_keeps {s₀ s : State} (h : Keeps s₀ s) : Keeps s₀ (State.scanRing s) := by
  unfold State.scanRing
  repeat' first | (extract_lets +onlyGivenNames z; first | (refine Keeps.cut (s₀ := s₀) z ?_ ?_; rotate_left; clear_value z; intro hz; rotate_left; subst z) | clear_value z) | with_reducible assumption | with_reducible apply State.setEvr_keeps | with_reducible apply State.setF_keeps | with_reducible apply State.flushing_keeps | with_reducible apply State.satInc_keeps | with_reducible apply State.setWord_keeps | (with_reducible apply Keeps.foldl; intro _ _ _) | with_reducible refine Keeps.ite ?_ ?_ | split | (with_reducible apply Keeps.upd; with_reducible assumption)

theorem State.flushLastWords_keeps {s₀ s : State} (h : Keeps s₀ s) : Keeps s₀ (State.flushLastWords s) := by
  unfold State.flushLastWords
  repeat' first | (extract_lets +onlyGivenNames z; first | (refine Keeps.cut (s₀ := s₀) z ?_ ?_; rotate_left; clear_value z; intro hz; rotate_left; subst z) | clear_value z) | with_reducible assumption | with_reducible apply State.record_keeps | with_reducible apply State.setF_keeps | (with_reducible apply Keeps.foldl; intro _ _ _) | (with_reducible apply Keeps.upd; with_reducible assumption)

theorem State.calShow_keeps {s₀ s : State} (h : Keeps s₀ s) : Keeps s₀ (State.calShow s) := by
  unfold State.calShow
  try dsimp only
  repeat' first | with_reducible assumption | with_reducible apply State.setB_keeps | with_reducible apply State.setWord_keeps | with_reducible apply State.setF_keeps | split

theorem State.calStore_keeps {s₀ s : State} (h : Keeps s₀ s) (payload : List Byte) : Keeps s₀ (State.calStore s payload) := by
  unfold State.calStore
  try dsimp only
  repeat' first | with_reducible assumption | with_reducible apply State.setEvr_keeps | with_reducible apply State.calShow_keeps | (with_reducible apply Keeps.upd; with_reducible assumption)

theorem State.calStored_keeps {s₀ s : State} (h : Keeps s₀ s) (ok : Bool) : Keeps s₀ (State.calStored s ok) := by
  unfold State.calStored
  try dsimp only
  repeat' first | with_reducible assumption | with_reducible apply State.setEvr_keeps | with_reducible apply State.calShow_keeps | with_reducible apply State.record_keeps | with_reducible refine Keeps.ite ?_ ?_ | split | (with_reducible apply Keeps.upd; with_reducible assumption)

end Sys2Proof.Machine
end

