-- ==== Sys2Proof/Laws/KeepRing.lean ====
section
/-! SUPPORT. What the operations of Machine/Ring.lean keep (Laws/Keep.lean). -/
namespace Sys2Proof.Machine
set_option Elab.async false
set_option linter.all false

theorem execCulEnable_keeps {s₀ s : State} (h : Keeps s₀ s) (on : Bool) : KeepsAns s₀ (execCulEnable on s) := by
  unfold execCulEnable
  try dsimp only
  repeat' first | with_reducible assumption | with_reducible apply KeepsAns.next | with_reducible apply State.darkWrite_keeps | with_reducible apply State.setF_keeps | with_reducible apply State.ringStart_keeps | with_reducible apply State.ringStop_keeps | with_reducible refine KeepsAns.ite ?_ ?_ | with_reducible refine Keeps.ite ?_ ?_

theorem execCulRestart_keeps {s₀ s : State} (h : Keeps s₀ s) : KeepsAns s₀ (execCulRestart s) := by
  unfold execCulRestart
  repeat' first | with_reducible assumption | with_reducible apply KeepsAns.next | with_reducible apply State.darkWrite_keeps | with_reducible apply State.raise_keeps | with_reducible apply State.ringStart_keeps | with_reducible refine KeepsAns.ite ?_ ?_ | with_reducible refine Keeps.ite ?_ ?_

theorem State.unfoldCheck_keeps {s₀ s : State} (h : Keeps s₀ s) : Keeps s₀ (State.unfoldCheck s) := by
  unfold State.unfoldCheck
  try dsimp only
  repeat' first | with_reducible assumption | with_reducible apply State.culBroadcast_keeps | with_reducible refine Keeps.ite ?_ ?_ | (with_reducible apply Keeps.upd; with_reducible assumption)

theorem execCulUnfold_keeps {s₀ s : State} (h : Keeps s₀ s) : KeepsAns s₀ (execCulUnfold s) := by
  unfold execCulUnfold
  try dsimp only
  repeat' first | with_reducible assumption | with_reducible apply KeepsAns.next | with_reducible apply State.darkWrite_keeps | with_reducible apply State.unfoldCheck_keeps | with_reducible refine KeepsAns.ite ?_ ?_ | with_reducible refine Keeps.ite ?_ ?_ | (with_reducible apply Keeps.upd; with_reducible assumption)

theorem State.culResend_keeps {s₀ s : State} (h : Keeps s₀ s) (l : List (List Byte)) : Keeps s₀ (State.culResend s l) := by
  unfold State.culResend
  repeat' first | with_reducible assumption | with_reducible apply State.culOut_keeps | with_reducible apply State.satInc_keeps | (with_reducible apply Keeps.foldl; intro _ _ _)

theorem State.foldResend_keeps {s₀ s : State} (h : Keeps s₀ s) : Keeps s₀ (State.foldResend s) := by
  unfold State.foldResend
  try dsimp only
  repeat' first | with_reducible assumption | with_reducible apply State.culResend_keeps | with_reducible refine Keeps.ite ?_ ?_

theorem State.ringSplit_keeps {s₀ s : State} (h : Keeps s₀ s) (d : Nat) (e : Nat) : Keeps s₀ (State.ringSplit s d e) := by
  unfold State.ringSplit
  try dsimp only
  repeat' first | with_reducible assumption | with_reducible apply State.setF_keeps | with_reducible apply State.satInc_keeps | with_reducible apply State.setCul_keeps | with_reducible apply State.culReport_keeps | (with_reducible apply Keeps.foldl; intro _ _ _) | with_reducible refine Keeps.ite ?_ ?_

theorem State.foldHeard_keeps {s₀ s : State} (h : Keeps s₀ s) (d : Nat) : Keeps s₀ (State.foldHeard s d) := by
  unfold State.foldHeard
  try dsimp only
  repeat' first | with_reducible assumption | with_reducible apply State.setF_keeps | with_reducible apply State.setCul_keeps | with_reducible apply State.foldResend_keeps | with_reducible apply State.ringSplit_keeps | with_reducible refine Keeps.ite ?_ ?_

theorem State.countFold_keeps {s₀ s : State} (h : Keeps s₀ s) (link : Nat) : Keeps s₀ (State.countFold s link) := by
  unfold State.countFold
  repeat' first | with_reducible assumption | with_reducible apply State.satInc_keeps | with_reducible refine Keeps.ite ?_ ?_

theorem State.wrapPort_keeps {s₀ s : State} (h : Keeps s₀ s) (east : Bool) : Keeps s₀ (State.wrapPort s east) := by
  unfold State.wrapPort
  repeat' first | (extract_lets +onlyGivenNames z; first | (refine Keeps.cut (s₀ := s₀) z ?_ ?_; rotate_left; clear_value z; intro hz; rotate_left; subst z) | clear_value z) | with_reducible assumption | with_reducible apply State.setPortState_keeps | with_reducible apply State.emit_keeps | with_reducible apply State.countFold_keeps | with_reducible apply State.culReport_keeps | with_reducible apply State.setCul_keeps | with_reducible apply State.pf_keeps | with_reducible apply State.foldHeard_keeps | with_reducible apply State.setF_keeps | with_reducible apply State.culSend_keeps | with_reducible refine Keeps.ite ?_ ?_ | (with_reducible apply Keeps.upd; with_reducible assumption)

theorem State.setLanes_keeps {s₀ s : State} (h : Keeps s₀ s) (east : Bool) (v : Nat) : Keeps s₀ (State.setLanes s east v) := by
  unfold State.setLanes
  repeat' first | with_reducible assumption | with_reducible apply State.setF_keeps | with_reducible refine Keeps.ite ?_ ?_

theorem execCulPortUp_keeps {s₀ s : State} (h : Keeps s₀ s) (east : Bool) : KeepsAns s₀ (execCulPortUp east s) := by
  unfold execCulPortUp
  repeat' first | (extract_lets +onlyGivenNames z; first | (refine Keeps.cut (s₀ := s₀) z ?_ ?_; rotate_left; clear_value z; intro hz; rotate_left; subst z) | clear_value z) | with_reducible assumption | with_reducible apply KeepsAns.next | with_reducible apply State.setLanes_keeps | with_reducible apply State.setPortState_keeps | with_reducible apply State.setCul_keeps | with_reducible refine KeepsAns.ite ?_ ?_ | with_reducible refine Keeps.ite ?_ ?_ | (with_reducible apply Keeps.upd; with_reducible assumption)

theorem execCulPortDown_keeps {s₀ s : State} (h : Keeps s₀ s) (east : Bool) (lanes : BitVec 4) : KeepsAns s₀ (execCulPortDown east lanes s) := by
  unfold execCulPortDown
  repeat' first | (extract_lets +onlyGivenNames z; first | (refine Keeps.cut (s₀ := s₀) z ?_ ?_; rotate_left; clear_value z; intro hz; rotate_left; subst z) | clear_value z) | with_reducible assumption | with_reducible apply KeepsAns.next | with_reducible apply State.setLanes_keeps | with_reducible apply State.wrapPort_keeps | with_reducible apply State.setPortState_keeps | with_reducible apply State.setF_keeps | with_reducible apply State.setCul_keeps | with_reducible refine KeepsAns.ite ?_ ?_ | with_reducible refine Keeps.ite ?_ ?_ | (with_reducible apply Keeps.upd; with_reducible assumption)

theorem execCulFoldReceived_keeps {s₀ s : State} (h : Keeps s₀ s) (east : Bool) : KeepsAns s₀ (execCulFoldReceived east s) := by
  unfold execCulFoldReceived
  repeat' first | with_reducible assumption | with_reducible apply KeepsAns.next | with_reducible apply State.wrapPort_keeps | with_reducible refine KeepsAns.ite ?_ ?_ | with_reducible refine Keeps.ite ?_ ?_

theorem execCulFoldNotice_keeps {s₀ s : State} (h : Keeps s₀ s) (east : Bool) (msg : List (BitVec 8)) : KeepsAns s₀ (execCulFoldNotice east msg s) := by
  unfold execCulFoldNotice
  repeat' first | (extract_lets +onlyGivenNames z; first | (refine Keeps.cut (s₀ := s₀) z ?_ ?_; rotate_left; clear_value z; intro hz; rotate_left; subst z) | (refine Keeps.cut (s₀ := s₀) (z : _ × State).2 ?_ ?_; rotate_left; clear_value z; intro hz; rotate_left; subst z) | (refine Keeps.cut (s₀ := s₀) (z : State × _).1 ?_ ?_; rotate_left; clear_value z; intro hz; rotate_left; subst z) | (refine Keeps.cut (s₀ := s₀) (z : _ × _ × State).2.2 ?_ ?_; rotate_left; clear_value z; intro hz; rotate_left; subst z) | clear_value z) | with_reducible assumption | with_reducible apply KeepsAns.next | with_reducible apply State.culTake_keeps | with_reducible apply State.countFold_keeps | with_reducible apply State.foldHeard_keeps | with_reducible apply State.setF_keeps | with_reducible apply State.setCul_keeps | with_reducible apply State.foldResend_keeps | (refine Keeps.of_snd ?_ (by assumption)) | with_reducible refine KeepsAns.ite ?_ ?_ | with_reducible refine Keeps.ite ?_ ?_ | with_reducible refine Keeps.ite_snd ?_ ?_ | with_reducible refine Keeps.ite_fst ?_ ?_ | split | dsimp only

theorem execCulUnfoldCheck_keeps {s₀ s : State} (h : Keeps s₀ s) : KeepsAns s₀ (execCulUnfoldCheck s) := by
  unfold execCulUnfoldCheck
  repeat' first | with_reducible assumption | with_reducible apply KeepsAns.next | with_reducible apply State.unfoldCheck_keeps

theorem execCulUnfoldMsg_keeps {s₀ s : State} (h : Keeps s₀ s) (east : Bool) (msg : List (BitVec 8)) : KeepsAns s₀ (execCulUnfoldMsg east msg s) := by
  unfold execCulUnfoldMsg
  try dsimp only
  repeat' first | with_reducible assumption | with_reducible apply KeepsAns.next | with_reducible apply State.culTake_keeps | (refine Keeps.of_snd ?_ (by assumption)) | with_reducible refine KeepsAns.ite ?_ ?_ | with_reducible refine Keeps.ite ?_ ?_ | with_reducible refine Keeps.ite_snd ?_ ?_ | with_reducible refine Keeps.ite_fst ?_ ?_ | split | (with_reducible apply Keeps.upd; first | with_reducible assumption | with_reducible apply State.culTake_keeps) | dsimp only

theorem State.unwrapPort_keeps {s₀ s : State} (h : Keeps s₀ s) (east : Bool) : Keeps s₀ (State.unwrapPort s east) := by
  unfold State.unwrapPort
  repeat' first | with_reducible assumption | with_reducible apply State.setPortState_keeps | with_reducible refine Keeps.ite ?_ ?_

theorem execCulUnwrap_keeps {s₀ s : State} (h : Keeps s₀ s) : KeepsAns s₀ (execCulUnwrap s) := by
  unfold execCulUnwrap
  try dsimp only
  repeat' first | with_reducible assumption | with_reducible apply KeepsAns.next | with_reducible apply State.unwrapPort_keeps | with_reducible apply State.setF_keeps | with_reducible apply State.setCul_keeps | with_reducible refine KeepsAns.ite ?_ ?_ | with_reducible refine Keeps.ite ?_ ?_ | split | (with_reducible apply Keeps.upd; with_reducible assumption)

theorem State.culConflict_keeps {s₀ s : State} (h : Keeps s₀ s) : Keeps s₀ (State.culConflict s) := by
  unfold State.culConflict
  repeat' first | with_reducible assumption | with_reducible apply State.setCul_keeps | with_reducible apply State.culReport_keeps | with_reducible refine Keeps.ite ?_ ?_

theorem State.takeTable_keeps {s₀ s : State} (h : Keeps s₀ s) (body : List Byte) : Keeps s₀ (State.takeTable s body) := by
  unfold State.takeTable
  repeat' first | (extract_lets +onlyGivenNames z; first | (refine Keeps.cut (s₀ := s₀) z ?_ ?_; rotate_left; clear_value z; intro hz; rotate_left; subst z) | clear_value z) | with_reducible assumption | with_reducible apply State.setWord_keeps | with_reducible apply State.setF_keeps | with_reducible apply State.setCul_keeps | (with_reducible apply Keeps.foldl; intro _ _ _) | with_reducible refine Keeps.ite ?_ ?_

theorem State.delayAsk_keeps {s₀ s : State} (h : Keeps s₀ s) : Keeps s₀ (State.delayAsk s) := by
  unfold State.delayAsk
  try dsimp only
  repeat' first | with_reducible assumption | with_reducible apply State.culSend_keeps | split | (with_reducible apply Keeps.upd; with_reducible assumption)

theorem State.delayStart_keeps {s₀ s : State} (h : Keeps s₀ s) : Keeps s₀ (State.delayStart s) := by
  unfold State.delayStart
  try dsimp only
  repeat' first | with_reducible assumption | with_reducible apply State.setCul_keeps | with_reducible apply State.delayAsk_keeps | with_reducible refine Keeps.ite ?_ ?_ | (with_reducible apply Keeps.upd; with_reducible assumption)

theorem execCulIndexSend_keeps {s₀ s : State} (h : Keeps s₀ s) : KeepsAns s₀ (execCulIndexSend s) := by
  unfold execCulIndexSend
  repeat' first | (extract_lets +onlyGivenNames z; first | (refine Keeps.cut (s₀ := s₀) z ?_ ?_; rotate_left; clear_value z; intro hz; rotate_left; subst z) | (refine Keeps.cut (s₀ := s₀) (z : _ × State).2 ?_ ?_; rotate_left; clear_value z; intro hz; rotate_left; subst z) | (refine Keeps.cut (s₀ := s₀) (z : State × _).1 ?_ ?_; rotate_left; clear_value z; intro hz; rotate_left; subst z) | (refine Keeps.cut (s₀ := s₀) (z : _ × _ × State).2.2 ?_ ?_; rotate_left; clear_value z; intro hz; rotate_left; subst z) | clear_value z) | with_reducible assumption | with_reducible apply KeepsAns.next | with_reducible apply State.setF_keeps | with_reducible apply State.culMake_keeps | with_reducible apply State.culOut_keeps | (refine Keeps.of_snd ?_ (by assumption)) | with_reducible refine KeepsAns.ite ?_ ?_ | with_reducible refine Keeps.ite ?_ ?_ | with_reducible refine Keeps.ite_snd ?_ ?_ | with_reducible refine Keeps.ite_fst ?_ ?_ | split | dsimp only

theorem State.takeIndex_keeps {s₀ s : State} (h : Keeps s₀ s) (east : Bool) (m : List Byte) : Keeps s₀ (State.takeIndex s east m) := by
  unfold State.takeIndex
  try dsimp only
  repeat' first | with_reducible assumption | with_reducible apply State.culForward_keeps | with_reducible apply State.setF_keeps | with_reducible apply State.setCul_keeps | with_reducible refine Keeps.ite ?_ ?_

theorem execCulIndex_keeps {s₀ s : State} (h : Keeps s₀ s) (east : Bool) (msg : List (BitVec 8)) : KeepsAns s₀ (execCulIndex east msg s) := by
  unfold execCulIndex
  repeat' first | (extract_lets +onlyGivenNames z; first | (refine Keeps.cut (s₀ := s₀) z ?_ ?_; rotate_left; clear_value z; intro hz; rotate_left; subst z) | (refine Keeps.cut (s₀ := s₀) (z : _ × State).2 ?_ ?_; rotate_left; clear_value z; intro hz; rotate_left; subst z) | (refine Keeps.cut (s₀ := s₀) (z : State × _).1 ?_ ?_; rotate_left; clear_value z; intro hz; rotate_left; subst z) | (refine Keeps.cut (s₀ := s₀) (z : _ × _ × State).2.2 ?_ ?_; rotate_left; clear_value z; intro hz; rotate_left; subst z) | clear_value z) | with_reducible assumption | with_reducible apply KeepsAns.next | with_reducible apply State.satInc_keeps | with_reducible apply State.culConflict_keeps | with_reducible apply State.takeTable_keeps | with_reducible apply State.culMake_keeps | with_reducible apply State.culOut_keeps | with_reducible apply State.delayStart_keeps | with_reducible apply State.culForward_keeps | with_reducible apply State.takeIndex_keeps | (refine Keeps.of_snd ?_ (by assumption)) | with_reducible refine KeepsAns.ite ?_ ?_ | with_reducible refine Keeps.ite ?_ ?_ | with_reducible refine Keeps.ite_snd ?_ ?_ | with_reducible refine Keeps.ite_fst ?_ ?_ | split | dsimp only

theorem execCulDelayReq_keeps {s₀ s : State} (h : Keeps s₀ s) (east : Bool) (turn : Nat) (msg : List (BitVec 8)) : KeepsAns s₀ (execCulDelayReq east turn msg s) := by
  unfold execCulDelayReq
  try dsimp only
  repeat' first | with_reducible assumption | with_reducible apply KeepsAns.next | with_reducible apply State.culTake_keeps | with_reducible apply State.culSend_keeps | (refine Keeps.of_snd ?_ (by assumption)) | with_reducible refine KeepsAns.ite ?_ ?_ | with_reducible refine Keeps.ite ?_ ?_ | with_reducible refine Keeps.ite_snd ?_ ?_ | with_reducible refine Keeps.ite_fst ?_ ?_ | split | dsimp only

theorem execCulDelayRsp_keeps {s₀ s : State} (h : Keeps s₀ s) (east : Bool) (msg : List (BitVec 8)) : KeepsAns s₀ (execCulDelayRsp east msg s) := by
  unfold execCulDelayRsp
  repeat' first | (extract_lets +onlyGivenNames z; first | (refine Keeps.cut (s₀ := s₀) z ?_ ?_; rotate_left; clear_value z; intro hz; rotate_left; subst z) | (refine Keeps.cut (s₀ := s₀) (z : _ × State).2 ?_ ?_; rotate_left; clear_value z; intro hz; rotate_left; subst z) | (refine Keeps.cut (s₀ := s₀) (z : State × _).1 ?_ ?_; rotate_left; clear_value z; intro hz; rotate_left; subst z) | (refine Keeps.cut (s₀ := s₀) (z : _ × _ × State).2.2 ?_ ?_; rotate_left; clear_value z; intro hz; rotate_left; subst z) | clear_value z) | with_reducible assumption | with_reducible apply KeepsAns.next | with_reducible apply State.culTake_keeps | with_reducible apply State.delayAsk_keeps | with_reducible apply State.setF_keeps | with_reducible apply State.setCul_keeps | (refine Keeps.of_snd ?_ (by assumption)) | with_reducible refine KeepsAns.ite ?_ ?_ | with_reducible refine Keeps.ite ?_ ?_ | with_reducible refine Keeps.ite_snd ?_ ?_ | with_reducible refine Keeps.ite_fst ?_ ?_ | split | (with_reducible apply Keeps.upd; first | with_reducible assumption | with_reducible apply State.culTake_keeps | with_reducible apply State.delayAsk_keeps | with_reducible apply State.setF_keeps | with_reducible apply State.setCul_keeps) | dsimp only

theorem execCulTimebaseSend_keeps {s₀ s : State} (h : Keeps s₀ s) : KeepsAns s₀ (execCulTimebaseSend s) := by
  unfold execCulTimebaseSend
  repeat' first | (extract_lets +onlyGivenNames z; first | (refine Keeps.cut (s₀ := s₀) z ?_ ?_; rotate_left; clear_value z; intro hz; rotate_left; subst z) | (refine Keeps.cut (s₀ := s₀) (z : _ × State).2 ?_ ?_; rotate_left; clear_value z; intro hz; rotate_left; subst z) | (refine Keeps.cut (s₀ := s₀) (z : State × _).1 ?_ ?_; rotate_left; clear_value z; intro hz; rotate_left; subst z) | (refine Keeps.cut (s₀ := s₀) (z : _ × _ × State).2.2 ?_ ?_; rotate_left; clear_value z; intro hz; rotate_left; subst z) | clear_value z) | with_reducible assumption | with_reducible apply KeepsAns.next | with_reducible apply State.syncSpeed_keeps | with_reducible apply State.culMake_keeps | with_reducible apply State.culOut_keeps | (refine Keeps.of_snd ?_ (by assumption)) | with_reducible refine KeepsAns.ite ?_ ?_ | with_reducible refine Keeps.ite ?_ ?_ | with_reducible refine Keeps.ite_snd ?_ ?_ | with_reducible refine Keeps.ite_fst ?_ ?_ | split | (with_reducible apply Keeps.upd; first | with_reducible assumption | with_reducible apply State.syncSpeed_keeps | with_reducible apply State.culMake_keeps | with_reducible apply State.culOut_keeps) | dsimp only

theorem State.culPath_keeps {s₀ s : State} (h : Keeps s₀ s) (east : Bool) : Keeps s₀ (State.culPath s east).2 := by
  unfold State.culPath
  try dsimp only
  repeat' first | with_reducible assumption | with_reducible apply State.drew_keeps | with_reducible refine Keeps.ite ?_ ?_ | with_reducible refine Keeps.ite_snd ?_ ?_ | with_reducible refine Keeps.ite_fst ?_ ?_ | split | (with_reducible apply Keeps.upd; first | with_reducible assumption | with_reducible apply State.drew_keeps) | dsimp only

theorem State.followMaster_keeps {s₀ s : State} (h : Keeps s₀ s) (cls : Nat) (scnState : Nat) (engine : Nat) : Keeps s₀ (State.followMaster s cls scnState engine) := by
  unfold State.followMaster
  try dsimp only
  repeat' first | with_reducible assumption | with_reducible apply State.setF_keeps | with_reducible apply State.leaveRun_keeps | with_reducible apply State.noteRefusal_keeps | with_reducible apply State.enterRun_keeps | with_reducible apply State.classStart_keeps | with_reducible apply State.settle_keeps | with_reducible refine Keeps.ite ?_ ?_ | split

theorem State.followWeb_keeps {s₀ s : State} (h : Keeps s₀ s) (line : Nat) (speed : Int) (ns : Nat) : Keeps s₀ (State.followWeb s line speed ns) := by
  unfold State.followWeb
  repeat' first | with_reducible assumption | with_reducible apply State.moveWeb_keeps | with_reducible refine Keeps.ite ?_ ?_

theorem State.takeOffset_keeps {s₀ s : State} (h : Keeps s₀ s) (off : Int) : Keeps s₀ (State.takeOffset s off) := by
  unfold State.takeOffset
  repeat' first | (extract_lets +onlyGivenNames z; first | (refine Keeps.cut (s₀ := s₀) z ?_ ?_; rotate_left; clear_value z; intro hz; rotate_left; subst z) | clear_value z) | with_reducible assumption | with_reducible apply State.setF_keeps | with_reducible apply State.culReport_keeps | with_reducible apply State.setB_keeps | with_reducible refine Keeps.ite ?_ ?_ | (with_reducible apply Keeps.upd; with_reducible assumption)

theorem State.applyTimebase_keeps {s₀ s : State} (h : Keeps s₀ s) (east : Bool) (m : List Byte) : Keeps s₀ (State.applyTimebase s east m) := by
  unfold State.applyTimebase
  repeat' first | (extract_lets +onlyGivenNames z; first | (refine Keeps.cut (s₀ := s₀) z ?_ ?_; rotate_left; clear_value z; intro hz; rotate_left; subst z) | (refine Keeps.cut (s₀ := s₀) (z : _ × State).2 ?_ ?_; rotate_left; clear_value z; intro hz; rotate_left; subst z) | (refine Keeps.cut (s₀ := s₀) (z : State × _).1 ?_ ?_; rotate_left; clear_value z; intro hz; rotate_left; subst z) | (refine Keeps.cut (s₀ := s₀) (z : _ × _ × State).2.2 ?_ ?_; rotate_left; clear_value z; intro hz; rotate_left; subst z) | clear_value z) | with_reducible assumption | with_reducible apply State.satInc_keeps | with_reducible apply State.culPath_keeps | with_reducible apply State.setF_keeps | with_reducible apply State.takeOffset_keeps | with_reducible apply State.setCul_keeps | with_reducible apply State.followWeb_keeps | with_reducible apply State.followMaster_keeps | (refine Keeps.of_snd ?_ (by assumption)) | with_reducible refine Keeps.ite ?_ ?_ | with_reducible refine Keeps.ite_snd ?_ ?_ | with_reducible refine Keeps.ite_fst ?_ ?_ | split | (with_reducible apply Keeps.upd; first | with_reducible assumption | with_reducible apply State.satInc_keeps | with_reducible apply State.culPath_keeps | with_reducible apply State.setF_keeps | with_reducible apply State.takeOffset_keeps | with_reducible apply State.setCul_keeps | with_reducible apply State.followWeb_keeps | with_reducible apply State.followMaster_keeps) | dsimp only

theorem execCulTimebase_keeps {s₀ s : State} (h : Keeps s₀ s) (east : Bool) (wait : Nat) (msg : List (BitVec 8)) : KeepsAns s₀ (execCulTimebase east wait msg s) := by
  unfold execCulTimebase
  try dsimp only
  repeat' first | with_reducible assumption | with_reducible apply KeepsAns.next | with_reducible apply State.satInc_keeps | with_reducible apply State.culForward_keeps | with_reducible apply State.applyTimebase_keeps | with_reducible refine KeepsAns.ite ?_ ?_ | with_reducible refine Keeps.ite ?_ ?_

theorem execCulTimebaseLost_keeps {s₀ s : State} (h : Keeps s₀ s) : KeepsAns s₀ (execCulTimebaseLost s) := by
  unfold execCulTimebaseLost
  try dsimp only
  repeat' first | with_reducible assumption | with_reducible apply KeepsAns.next | with_reducible apply State.setF_keeps | with_reducible apply State.culReport_keeps | with_reducible apply State.setCul_keeps | with_reducible refine KeepsAns.ite ?_ ?_ | with_reducible refine Keeps.ite ?_ ?_ | (with_reducible apply Keeps.upd; with_reducible assumption)

theorem execCulStatusSend_keeps {s₀ s : State} (h : Keeps s₀ s) : KeepsAns s₀ (execCulStatusSend s) := by
  unfold execCulStatusSend
  try dsimp only
  repeat' first | with_reducible assumption | with_reducible apply KeepsAns.next | with_reducible apply State.culSend_keeps | with_reducible refine KeepsAns.ite ?_ ?_ | with_reducible refine Keeps.ite ?_ ?_

theorem execCulStatus_keeps {s₀ s : State} (h : Keeps s₀ s) (east : Bool) (msg : List (BitVec 8)) : KeepsAns s₀ (execCulStatus east msg s) := by
  unfold execCulStatus
  repeat' first | (extract_lets +onlyGivenNames z; first | (refine Keeps.cut (s₀ := s₀) z ?_ ?_; rotate_left; clear_value z; intro hz; rotate_left; subst z) | (refine Keeps.cut (s₀ := s₀) (z : _ × State).2 ?_ ?_; rotate_left; clear_value z; intro hz; rotate_left; subst z) | (refine Keeps.cut (s₀ := s₀) (z : State × _).1 ?_ ?_; rotate_left; clear_value z; intro hz; rotate_left; subst z) | (refine Keeps.cut (s₀ := s₀) (z : _ × _ × State).2.2 ?_ ?_; rotate_left; clear_value z; intro hz; rotate_left; subst z) | clear_value z) | with_reducible assumption | with_reducible apply KeepsAns.next | with_reducible apply State.culTake_keeps | with_reducible apply State.setF_keeps | with_reducible apply State.setCul_keeps | (refine Keeps.of_snd ?_ (by assumption)) | with_reducible refine KeepsAns.ite ?_ ?_ | with_reducible refine Keeps.ite ?_ ?_ | with_reducible refine Keeps.ite_snd ?_ ?_ | with_reducible refine Keeps.ite_fst ?_ ?_ | split | (with_reducible apply Keeps.upd; first | with_reducible assumption | with_reducible apply State.culTake_keeps | with_reducible apply State.setF_keeps | with_reducible apply State.setCul_keeps) | dsimp only

theorem execCulFault_keeps {s₀ s : State} (h : Keeps s₀ s) (east : Bool) (msg : List (BitVec 8)) : KeepsAns s₀ (execCulFault east msg s) := by
  unfold execCulFault
  try dsimp only
  repeat' first | with_reducible assumption | with_reducible apply KeepsAns.next | with_reducible apply State.culTake_keeps | with_reducible apply State.culReport_keeps | (refine Keeps.of_snd ?_ (by assumption)) | with_reducible refine KeepsAns.ite ?_ ?_ | with_reducible refine Keeps.ite ?_ ?_ | with_reducible refine Keeps.ite_snd ?_ ?_ | with_reducible refine Keeps.ite_fst ?_ ?_ | split | dsimp only

theorem execCulMessageForward_keeps {s₀ s : State} (h : Keeps s₀ s) (east : Bool) (good : Bool) (msg : List (BitVec 8)) : KeepsAns s₀ (execCulMessageForward east good msg s) := by
  unfold execCulMessageForward
  try dsimp only
  repeat' first | with_reducible assumption | with_reducible apply KeepsAns.next | with_reducible apply State.satInc_keeps | with_reducible apply State.culForward_keeps | with_reducible refine KeepsAns.ite ?_ ?_ | with_reducible refine Keeps.ite ?_ ?_

end Sys2Proof.Machine
end

