-- ==== Sys2Proof/Laws/KeepXcal.lean ====
section
/-! SUPPORT. What the operations of Machine/Xcal.lean keep (Laws/Keep.lean). -/
namespace Sys2Proof.Machine
set_option Elab.async false
set_option linter.all false

theorem execXcalStart_keeps {s₀ s : State} (h : Keeps s₀ s) : KeepsAns s₀ (execXcalStart s) := by
  unfold execXcalStart
  repeat' first | (extract_lets +onlyGivenNames z; first | (refine Keeps.cut (s₀ := s₀) z ?_ ?_; rotate_left; clear_value z; intro hz; rotate_left; subst z) | clear_value z) | with_reducible assumption | with_reducible apply KeepsAns.next | with_reducible apply State.darkWrite_keeps | with_reducible apply State.raise_keeps | with_reducible apply State.setF_keeps | with_reducible apply State.culBroadcast_keeps | with_reducible refine KeepsAns.ite ?_ ?_ | with_reducible refine Keeps.ite ?_ ?_ | (with_reducible apply Keeps.upd; with_reducible assumption)

theorem execXcalAbort_keeps {s₀ s : State} (h : Keeps s₀ s) : KeepsAns s₀ (execXcalAbort s) := by
  unfold execXcalAbort
  repeat' first | with_reducible assumption | with_reducible apply KeepsAns.next | with_reducible apply State.darkWrite_keeps | with_reducible apply State.xcalAbandon_keeps | with_reducible refine KeepsAns.ite ?_ ?_ | with_reducible refine Keeps.ite ?_ ?_

theorem State.xcalTargetsOf_keeps {s₀ : State}  (fuel : Nat) : ∀ (s : State) (_ : Keeps s₀ s), Keeps s₀ (State.xcalTargetsOf s fuel).2 := by
  induction fuel with
  | zero => intro s h; unfold State.xcalTargetsOf; exact h
  | succ fuel ih =>
    intro s h
    unfold State.xcalTargetsOf
    repeat' first | (extract_lets +onlyGivenNames z; first | (refine Keeps.cut (s₀ := s₀) z ?_ ?_; rotate_left; clear_value z; intro hz; rotate_left; subst z) | (refine Keeps.cut (s₀ := s₀) (z : _ × State).2 ?_ ?_; rotate_left; clear_value z; intro hz; rotate_left; subst z) | (refine Keeps.cut (s₀ := s₀) (z : State × _).1 ?_ ?_; rotate_left; clear_value z; intro hz; rotate_left; subst z) | (refine Keeps.cut (s₀ := s₀) (z : _ × _ × State).2.2 ?_ ?_; rotate_left; clear_value z; intro hz; rotate_left; subst z) | clear_value z) | with_reducible assumption | with_reducible apply ih | with_reducible apply State.drew_keeps | with_reducible refine Keeps.ite ?_ ?_ | with_reducible refine Keeps.ite_snd ?_ ?_ | with_reducible refine Keeps.ite_fst ?_ ?_ | split | dsimp only

theorem State.xcalStep_keeps {s₀ s : State} (h : Keeps s₀ s) (d : Nat) : Keeps s₀ (State.xcalStep s d) := by
  unfold State.xcalStep
  try dsimp only
  repeat' first | with_reducible assumption | with_reducible apply State.xcalTargetsOf_keeps | with_reducible apply State.culSend_keeps | (refine Keeps.of_snd ?_ (by assumption)) | split | (with_reducible apply Keeps.upd; first | with_reducible assumption | with_reducible apply State.xcalTargetsOf_keeps | with_reducible apply State.culSend_keeps) | dsimp only

theorem State.xcalAdopt_keeps {s₀ s : State} (h : Keeps s₀ s) : Keeps s₀ (State.xcalAdopt s) := by
  unfold State.xcalAdopt
  try dsimp only
  repeat' first | with_reducible assumption | (with_reducible apply Keeps.foldl; intro _ _ _) | split | (with_reducible apply Keeps.upd; with_reducible assumption)

theorem State.xcalFinish_keeps {s₀ s : State} (h : Keeps s₀ s) : Keeps s₀ (State.xcalFinish s) := by
  unfold State.xcalFinish
  try dsimp only
  repeat' first | with_reducible assumption | with_reducible apply State.culBroadcast_keeps | with_reducible apply State.setF_keeps | with_reducible apply State.xcalAdopt_keeps

theorem State.xcalNext_keeps {s₀ s : State} (h : Keeps s₀ s) (l : List Nat) : Keeps s₀ (State.xcalNext s l) := by
  unfold State.xcalNext
  repeat' first | with_reducible assumption | with_reducible apply State.xcalStep_keeps | with_reducible apply State.xcalFinish_keeps | split

theorem execXcalCollect_keeps {s₀ s : State} (h : Keeps s₀ s) : KeepsAns s₀ (execXcalCollect s) := by
  unfold execXcalCollect
  repeat' first | (extract_lets +onlyGivenNames z; first | (refine Keeps.cut (s₀ := s₀) z ?_ ?_; rotate_left; clear_value z; intro hz; rotate_left; subst z) | (refine Keeps.cut (s₀ := s₀) (z : _ × State).2 ?_ ?_; rotate_left; clear_value z; intro hz; rotate_left; subst z) | (refine Keeps.cut (s₀ := s₀) (z : State × _).1 ?_ ?_; rotate_left; clear_value z; intro hz; rotate_left; subst z) | (refine Keeps.cut (s₀ := s₀) (z : _ × _ × State).2.2 ?_ ?_; rotate_left; clear_value z; intro hz; rotate_left; subst z) | clear_value z) | with_reducible assumption | with_reducible apply KeepsAns.next | with_reducible apply State.xcalTargetsOf_keeps | with_reducible apply State.setF_keeps | with_reducible apply State.xcalNext_keeps | (refine Keeps.of_snd ?_ (by assumption)) | with_reducible refine KeepsAns.ite ?_ ?_ | with_reducible refine Keeps.ite ?_ ?_ | with_reducible refine Keeps.ite_snd ?_ ?_ | with_reducible refine Keeps.ite_fst ?_ ?_ | split | (with_reducible apply Keeps.upd; first | with_reducible assumption | with_reducible apply State.xcalTargetsOf_keeps | with_reducible apply State.setF_keeps | with_reducible apply State.xcalNext_keeps) | dsimp only

theorem execXcalStepTimeout_keeps {s₀ s : State} (h : Keeps s₀ s) : KeepsAns s₀ (execXcalStepTimeout s) := by
  unfold execXcalStepTimeout
  try dsimp only
  repeat' first | with_reducible assumption | with_reducible apply KeepsAns.next | with_reducible apply State.culAnswered_keeps | with_reducible apply State.xcalAbandon_keeps | (with_reducible apply Keeps.foldl; intro _ _ _) | with_reducible refine KeepsAns.ite ?_ ?_ | with_reducible refine Keeps.ite ?_ ?_

theorem State.xcalForget_keeps {s₀ s : State} (h : Keeps s₀ s) : Keeps s₀ (State.xcalForget s) := by
  unfold State.xcalForget
  try dsimp only
  repeat' first | with_reducible assumption | (with_reducible apply Keeps.upd; with_reducible assumption)

theorem execXcalTargetTimeout_keeps {s₀ s : State} (h : Keeps s₀ s) : KeepsAns s₀ (execXcalTargetTimeout s) := by
  unfold execXcalTargetTimeout
  repeat' first | with_reducible assumption | with_reducible apply KeepsAns.next | with_reducible apply State.xcalForget_keeps | with_reducible refine KeepsAns.ite ?_ ?_ | with_reducible refine Keeps.ite ?_ ?_

theorem execXcalStartMsg_keeps {s₀ s : State} (h : Keeps s₀ s) (east : Bool) (msg : List (BitVec 8)) : KeepsAns s₀ (execXcalStartMsg east msg s) := by
  unfold execXcalStartMsg
  repeat' first | (extract_lets +onlyGivenNames z; first | (refine Keeps.cut (s₀ := s₀) z ?_ ?_; rotate_left; clear_value z; intro hz; rotate_left; subst z) | (refine Keeps.cut (s₀ := s₀) (z : _ × State).2 ?_ ?_; rotate_left; clear_value z; intro hz; rotate_left; subst z) | (refine Keeps.cut (s₀ := s₀) (z : State × _).1 ?_ ?_; rotate_left; clear_value z; intro hz; rotate_left; subst z) | (refine Keeps.cut (s₀ := s₀) (z : _ × _ × State).2.2 ?_ ?_; rotate_left; clear_value z; intro hz; rotate_left; subst z) | clear_value z) | with_reducible assumption | with_reducible apply KeepsAns.next | with_reducible apply State.culTake_keeps | (refine Keeps.of_snd ?_ (by assumption)) | with_reducible refine KeepsAns.ite ?_ ?_ | with_reducible refine Keeps.ite ?_ ?_ | with_reducible refine Keeps.ite_snd ?_ ?_ | with_reducible refine Keeps.ite_fst ?_ ?_ | split | (with_reducible apply Keeps.upd; first | with_reducible assumption | with_reducible apply State.culTake_keeps) | dsimp only

theorem execXcalFeatures_keeps {s₀ s : State} (h : Keeps s₀ s) (east : Bool) (msg : List (BitVec 8)) : KeepsAns s₀ (execXcalFeatures east msg s) := by
  unfold execXcalFeatures
  repeat' first | (extract_lets +onlyGivenNames z; first | (refine Keeps.cut (s₀ := s₀) z ?_ ?_; rotate_left; clear_value z; intro hz; rotate_left; subst z) | (refine Keeps.cut (s₀ := s₀) (z : _ × State).2 ?_ ?_; rotate_left; clear_value z; intro hz; rotate_left; subst z) | (refine Keeps.cut (s₀ := s₀) (z : State × _).1 ?_ ?_; rotate_left; clear_value z; intro hz; rotate_left; subst z) | (refine Keeps.cut (s₀ := s₀) (z : _ × _ × State).2.2 ?_ ?_; rotate_left; clear_value z; intro hz; rotate_left; subst z) | clear_value z) | with_reducible assumption | with_reducible apply KeepsAns.next | with_reducible apply State.culTake_keeps | (refine Keeps.of_snd ?_ (by assumption)) | with_reducible refine KeepsAns.ite ?_ ?_ | with_reducible refine Keeps.ite ?_ ?_ | with_reducible refine Keeps.ite_snd ?_ ?_ | with_reducible refine Keeps.ite_fst ?_ ?_ | split | (with_reducible apply Keeps.upd; first | with_reducible assumption | with_reducible apply State.culTake_keeps) | dsimp only

theorem execXcalTargets_keeps {s₀ s : State} (h : Keeps s₀ s) (east : Bool) (msg : List (BitVec 8)) : KeepsAns s₀ (execXcalTargets east msg s) := by
  unfold execXcalTargets
  repeat' first | (extract_lets +onlyGivenNames z; first | (refine Keeps.cut (s₀ := s₀) z ?_ ?_; rotate_left; clear_value z; intro hz; rotate_left; subst z) | (refine Keeps.cut (s₀ := s₀) (z : _ × State).2 ?_ ?_; rotate_left; clear_value z; intro hz; rotate_left; subst z) | (refine Keeps.cut (s₀ := s₀) (z : State × _).1 ?_ ?_; rotate_left; clear_value z; intro hz; rotate_left; subst z) | (refine Keeps.cut (s₀ := s₀) (z : _ × _ × State).2.2 ?_ ?_; rotate_left; clear_value z; intro hz; rotate_left; subst z) | clear_value z) | with_reducible assumption | with_reducible apply KeepsAns.next | with_reducible apply State.culTake_keeps | with_reducible apply State.culSend_keeps | (refine Keeps.of_snd ?_ (by assumption)) | with_reducible refine KeepsAns.ite ?_ ?_ | with_reducible refine Keeps.ite ?_ ?_ | with_reducible refine Keeps.ite_snd ?_ ?_ | with_reducible refine Keeps.ite_fst ?_ ?_ | split | (with_reducible apply Keeps.upd; first | with_reducible assumption | with_reducible apply State.culTake_keeps | with_reducible apply State.culSend_keeps) | dsimp only

theorem execXcalReply_keeps {s₀ s : State} (h : Keeps s₀ s) (east : Bool) (msg : List (BitVec 8)) : KeepsAns s₀ (execXcalReply east msg s) := by
  unfold execXcalReply
  repeat' first | (extract_lets +onlyGivenNames z; first | (refine Keeps.cut (s₀ := s₀) z ?_ ?_; rotate_left; clear_value z; intro hz; rotate_left; subst z) | (refine Keeps.cut (s₀ := s₀) (z : _ × State).2 ?_ ?_; rotate_left; clear_value z; intro hz; rotate_left; subst z) | (refine Keeps.cut (s₀ := s₀) (z : State × _).1 ?_ ?_; rotate_left; clear_value z; intro hz; rotate_left; subst z) | (refine Keeps.cut (s₀ := s₀) (z : _ × _ × State).2.2 ?_ ?_; rotate_left; clear_value z; intro hz; rotate_left; subst z) | clear_value z) | with_reducible assumption | with_reducible apply KeepsAns.next | with_reducible apply State.culTake_keeps | with_reducible apply State.culAnswered_keeps | with_reducible apply State.xcalAbandon_keeps | with_reducible apply State.setF_keeps | with_reducible apply State.xcalNext_keeps | (refine Keeps.of_snd ?_ (by assumption)) | with_reducible refine KeepsAns.ite ?_ ?_ | with_reducible refine Keeps.ite ?_ ?_ | with_reducible refine Keeps.ite_snd ?_ ?_ | with_reducible refine Keeps.ite_fst ?_ ?_ | split | dsimp only

theorem execXcalCommit_keeps {s₀ s : State} (h : Keeps s₀ s) (east : Bool) (msg : List (BitVec 8)) : KeepsAns s₀ (execXcalCommit east msg s) := by
  unfold execXcalCommit
  try dsimp only
  repeat' first | with_reducible assumption | with_reducible apply KeepsAns.next | with_reducible apply State.culTake_keeps | with_reducible apply State.xcalAdopt_keeps | (refine Keeps.of_snd ?_ (by assumption)) | with_reducible refine KeepsAns.ite ?_ ?_ | with_reducible refine Keeps.ite ?_ ?_ | with_reducible refine Keeps.ite_snd ?_ ?_ | with_reducible refine Keeps.ite_fst ?_ ?_ | split | dsimp only

theorem execXcalAbandon_keeps {s₀ s : State} (h : Keeps s₀ s) (east : Bool) (msg : List (BitVec 8)) : KeepsAns s₀ (execXcalAbandon east msg s) := by
  unfold execXcalAbandon
  try dsimp only
  repeat' first | with_reducible assumption | with_reducible apply KeepsAns.next | with_reducible apply State.culTake_keeps | with_reducible apply State.xcalForget_keeps | (refine Keeps.of_snd ?_ (by assumption)) | with_reducible refine KeepsAns.ite ?_ ?_ | with_reducible refine Keeps.ite ?_ ?_ | with_reducible refine Keeps.ite_snd ?_ ?_ | with_reducible refine Keeps.ite_fst ?_ ?_ | split | dsimp only

end Sys2Proof.Machine
end

