-- ==== Sys2Proof/Laws/KeepAccess.lean ====
section
/-! SUPPORT. What the operations of Machine/Access.lean keep (Laws/Keep.lean). -/
namespace Sys2Proof.Machine
set_option Elab.async false
set_option linter.all false

theorem after_keeps {s₀ s : State} (h : Keeps s₀ s) (o : Host.Outcome State Fault Refusal) (ho : KeepsAns s₀ o) : Keeps s₀ (after o s) := by
  unfold after
  split
  · exact ho _ rfl
  · exact h

theorem State.reject_keeps {s₀ s : State} (h : Keeps s₀ s) (w : Wr) (cause : Nat) : Keeps s₀ (State.reject s w cause) := by
  unfold State.reject
  repeat' first | with_reducible assumption | with_reducible apply State.reportAccess_keeps | with_reducible refine Keeps.ite ?_ ?_

theorem State.plain_keeps {s₀ s : State} (h : Keeps s₀ s) (w : Wr) (r : RegRow) : Keeps s₀ (State.plain s w r) := by
  unfold State.plain
  repeat' first | with_reducible assumption | with_reducible apply State.setWord_keeps

theorem State.ranged_keeps {s₀ s : State} (h : Keeps s₀ s) (w : Wr) (r : RegRow) (opened : Bool) (take : Nat → Nat → Bool) : Keeps s₀ (State.ranged s w r opened take) := by
  unfold State.ranged
  repeat' first | with_reducible assumption | with_reducible apply State.setWord_keeps

theorem State.flagged_keeps {s₀ s : State} (h : Keeps s₀ s) (w : Wr) (r : RegRow) (flag : Fld) (opened : Bool) (take : Nat → Nat → Bool) : Keeps s₀ (State.flagged s w r flag opened take) := by
  unfold State.flagged
  try dsimp only
  repeat' first | with_reducible assumption | with_reducible apply State.setWord_keeps | with_reducible apply State.raise_keeps | with_reducible refine Keeps.ite ?_ ?_

theorem State.bounded_keeps {s₀ s : State} (h : Keeps s₀ s) (w : Wr) (r : RegRow) (flag : Fld) (opened : Bool) (take : Nat → Nat → Bool) : Keeps s₀ (State.bounded s w r flag opened take) := by
  unfold State.bounded
  repeat' first | with_reducible assumption | with_reducible apply State.flagged_keeps | with_reducible apply State.raise_keeps | with_reducible refine Keeps.ite ?_ ?_

theorem State.whole_keeps {s₀ s : State} (h : Keeps s₀ s) (w : Wr) (r : RegRow) (flag : Fld) (ok : Bool) : Keeps s₀ (State.whole s w r flag ok) := by
  unfold State.whole
  repeat' first | with_reducible assumption | with_reducible apply State.plain_keeps | with_reducible apply State.raise_keeps | with_reducible refine Keeps.ite ?_ ?_

theorem State.wrQCtrl_keeps {s₀ s : State} (h : Keeps s₀ s) (w : Wr) (fn : Nat) : Keeps s₀ (State.wrQCtrl s w fn) := by
  unfold State.wrQCtrl
  try dsimp only
  repeat' first | with_reducible assumption | with_reducible apply KeepsAns.next | with_reducible apply after_keeps | with_reducible apply execQEnable_keeps | with_reducible apply execQDisable_keeps | with_reducible apply execQPause_keeps | with_reducible apply execQResume_keeps | with_reducible refine KeepsAns.ite ?_ ?_ | with_reducible refine Keeps.ite ?_ ?_

theorem State.wrQueue_keeps {s₀ s : State} (h : Keeps s₀ s) (w : Wr) (r : RegRow) (fn : Nat) : Keeps s₀ (State.wrQueue s w r fn) := by
  unfold State.wrQueue
  try dsimp only
  repeat' first | with_reducible assumption | with_reducible apply KeepsAns.next | with_reducible apply State.pf_keeps | with_reducible apply after_keeps | with_reducible apply execQPause_keeps | with_reducible apply execQResume_keeps | with_reducible apply State.reject_keeps | with_reducible apply execSqDoorbell_keeps | with_reducible apply execCqHeadWrite_keeps | with_reducible apply State.wrQCtrl_keeps | with_reducible apply State.flagged_keeps | with_reducible refine KeepsAns.ite ?_ ?_ | with_reducible refine Keeps.ite ?_ ?_

theorem State.wrMsix_keeps {s₀ s : State} (h : Keeps s₀ s) (w : Wr) (fn : Nat) : Keeps s₀ (State.wrMsix s w fn) := by
  unfold State.wrMsix
  try dsimp only
  repeat' first | with_reducible assumption | with_reducible apply KeepsAns.next | with_reducible apply State.setWord_keeps | with_reducible apply after_keeps | with_reducible apply execMsixUnmask_keeps | with_reducible refine KeepsAns.ite ?_ ?_ | with_reducible refine Keeps.ite ?_ ?_

theorem State.wrHif_keeps {s₀ s : State} (h : Keeps s₀ s) (w : Wr) (r : RegRow) : Keeps s₀ (State.wrHif s w r) := by
  unfold State.wrHif
  repeat' first | with_reducible assumption | with_reducible apply State.ranged_keeps | with_reducible apply State.wrQueue_keeps | with_reducible apply State.wrMsix_keeps | with_reducible apply State.plain_keeps | with_reducible refine Keeps.ite ?_ ?_

theorem State.wrChannel_keeps {s₀ s : State} (h : Keeps s₀ s) (w : Wr) (r : RegRow) (ch : Nat) : Keeps s₀ (State.wrChannel s w r ch) := by
  unfold State.wrChannel
  try dsimp only
  repeat' first | with_reducible assumption | with_reducible apply KeepsAns.next | with_reducible apply after_keeps | with_reducible apply execChDoorbell_keeps | with_reducible apply execChEnable_keeps | with_reducible apply execChDisable_keeps | with_reducible apply execChAbort_keeps | with_reducible apply execChResume_keeps | with_reducible apply State.flagged_keeps | with_reducible refine KeepsAns.ite ?_ ?_ | with_reducible refine Keeps.ite ?_ ?_

theorem State.wrSip_keeps {s₀ s : State} (h : Keeps s₀ s) (w : Wr) (r : RegRow) : Keeps s₀ (State.wrSip s w r) := by
  unfold State.wrSip
  repeat' first | with_reducible assumption | with_reducible apply KeepsAns.next | with_reducible apply State.ranged_keeps | with_reducible apply after_keeps | with_reducible apply execChAssignWrite_keeps | with_reducible apply execFnWinWrite_keeps | with_reducible apply State.wrChannel_keeps | with_reducible apply State.plain_keeps | with_reducible refine KeepsAns.ite ?_ ?_ | with_reducible refine Keeps.ite ?_ ?_

theorem State.wrSpl_keeps {s₀ s : State} (h : Keeps s₀ s) (w : Wr) (r : RegRow) : Keeps s₀ (State.wrSpl s w r) := by
  unfold State.wrSpl
  try dsimp only
  repeat' first | with_reducible assumption | with_reducible apply KeepsAns.next | with_reducible apply State.ranged_keeps | with_reducible apply after_keeps | with_reducible apply execSpoolEnable_keeps | with_reducible apply execSpoolDisable_keeps | with_reducible apply execSliceQuotaWrite_keeps | with_reducible apply execSliceTrim_keeps | with_reducible apply execSliceEnum_keeps | with_reducible apply State.plain_keeps | with_reducible refine KeepsAns.ite ?_ ?_ | with_reducible refine Keeps.ite ?_ ?_

theorem State.wrJobCtrl_keeps {s₀ s : State} (h : Keeps s₀ s) (w : Wr) (j : Nat) : Keeps s₀ (State.wrJobCtrl s w j) := by
  unfold State.wrJobCtrl
  try dsimp only
  repeat' first | with_reducible assumption | with_reducible apply KeepsAns.next | with_reducible apply after_keeps | with_reducible apply execKorJobAbort_keeps | with_reducible apply execKorJobGo_keeps | with_reducible apply execKorJobFlush_keeps | with_reducible apply execKorJobClose_keeps | with_reducible refine KeepsAns.ite ?_ ?_ | with_reducible refine Keeps.ite ?_ ?_

theorem State.wrKor_keeps {s₀ s : State} (h : Keeps s₀ s) (w : Wr) (r : RegRow) : Keeps s₀ (State.wrKor s w r) := by
  unfold State.wrKor
  try dsimp only
  repeat' first | with_reducible assumption | with_reducible apply State.ranged_keeps | with_reducible apply State.reject_keeps | with_reducible apply State.wrJobCtrl_keeps | with_reducible apply State.plain_keeps | with_reducible apply State.jobRefused_keeps | with_reducible apply State.flagged_keeps | with_reducible refine Keeps.ite ?_ ?_

theorem State.wrCmp_keeps {s₀ s : State} (h : Keeps s₀ s) (w : Wr) (r : RegRow) : Keeps s₀ (State.wrCmp s w r) := by
  unfold State.wrCmp
  try dsimp only
  repeat' first | with_reducible assumption | with_reducible apply KeepsAns.next | with_reducible apply after_keeps | with_reducible apply execPinEnable_keeps | with_reducible apply execPinDisable_keeps | with_reducible apply State.flagged_keeps | with_reducible apply State.pinCount_keeps | with_reducible apply State.plain_keeps | with_reducible refine KeepsAns.ite ?_ ?_ | with_reducible refine Keeps.ite ?_ ?_

theorem State.wrFlm_keeps {s₀ s : State} (h : Keeps s₀ s) (w : Wr) (r : RegRow) : Keeps s₀ (State.wrFlm s w r) := by
  unfold State.wrFlm
  try dsimp only
  repeat' first | with_reducible assumption | with_reducible apply KeepsAns.next | with_reducible apply State.flagged_keeps | with_reducible apply State.whole_keeps | with_reducible apply after_keeps | with_reducible apply execFlumeUnfence_keeps | with_reducible apply execStationTableWrite_keeps | with_reducible apply State.plain_keeps | with_reducible refine KeepsAns.ite ?_ ?_ | with_reducible refine Keeps.ite ?_ ?_

theorem State.takeTrk_keeps {s₀ s : State} (h : Keeps s₀ s) (st : Nat) : Keeps s₀ (State.takeTrk s st) := by
  unfold State.takeTrk
  try dsimp only
  repeat' first | with_reducible assumption | with_reducible apply State.setF_keeps | with_reducible refine Keeps.ite ?_ ?_

theorem State.wrScnStation_keeps {s₀ s : State} (h : Keeps s₀ s) (w : Wr) (r : RegRow) (st : Nat) : Keeps s₀ (State.wrScnStation s w r st) := by
  unfold State.wrScnStation
  try dsimp only
  repeat' first | with_reducible assumption | with_reducible apply KeepsAns.next | with_reducible apply after_keeps | with_reducible apply execRouteWrite_keeps | with_reducible apply execOffsetWrite_keeps | with_reducible apply State.ranged_keeps | with_reducible apply State.takeTrk_keeps | with_reducible apply State.plain_keeps | with_reducible apply State.touch_keeps | with_reducible refine KeepsAns.ite ?_ ?_ | with_reducible refine Keeps.ite ?_ ?_

theorem State.wrPort_keeps {s₀ s : State} (h : Keeps s₀ s) (w : Wr) (r : RegRow) (bl : Nat) : Keeps s₀ (State.wrPort s w r bl) := by
  unfold State.wrPort
  try dsimp only
  repeat' first | with_reducible assumption | with_reducible apply KeepsAns.next | with_reducible apply State.ranged_keeps | with_reducible apply after_keeps | with_reducible apply execBlEnable_keeps | with_reducible apply execBlDisable_keeps | with_reducible apply execBlRetrain_keeps | with_reducible apply State.plain_keeps | with_reducible refine KeepsAns.ite ?_ ?_ | with_reducible refine Keeps.ite ?_ ?_

theorem State.wrScn_keeps {s₀ s : State} (h : Keeps s₀ s) (w : Wr) (r : RegRow) : Keeps s₀ (State.wrScn s w r) := by
  unfold State.wrScn
  repeat' first | (extract_lets +onlyGivenNames z; first | (refine Keeps.cut (s₀ := s₀) z ?_ ?_; rotate_left; clear_value z; intro hz; rotate_left; subst z) | clear_value z) | with_reducible assumption | with_reducible apply KeepsAns.next | with_reducible apply State.ranged_keeps | with_reducible apply after_keeps | with_reducible apply execHalfAdvanceWrite_keeps | with_reducible apply execClassRequest_keeps | with_reducible apply State.plain_keeps | with_reducible apply State.wrScnStation_keeps | with_reducible apply State.wrPort_keeps | with_reducible refine KeepsAns.ite ?_ ?_ | with_reducible refine Keeps.ite ?_ ?_

theorem State.wrClk_keeps {s₀ s : State} (h : Keeps s₀ s) (w : Wr) (r : RegRow) : Keeps s₀ (State.wrClk s w r) := by
  unfold State.wrClk
  try dsimp only
  repeat' first | with_reducible assumption | with_reducible apply KeepsAns.next | with_reducible apply after_keeps | with_reducible apply execPllRelock_keeps | with_reducible apply State.plain_keeps | with_reducible refine KeepsAns.ite ?_ ?_ | with_reducible refine Keeps.ite ?_ ?_

theorem State.sendHead_keeps {s₀ s : State} (h : Keeps s₀ s) (st : Nat) (addr : Nat) (v : BitVec 32) : Keeps s₀ (State.sendHead s st addr v) := by
  unfold State.sendHead
  repeat' first | with_reducible assumption | with_reducible apply State.headWrite_keeps | with_reducible refine Keeps.ite ?_ ?_

theorem State.deadWritten_keeps {s₀ s : State} (h : Keeps s₀ s) (st : Nat) : Keeps s₀ (State.deadWritten s st) := by
  unfold State.deadWritten
  repeat' first | (extract_lets +onlyGivenNames z; first | (refine Keeps.cut (s₀ := s₀) z ?_ ?_; rotate_left; clear_value z; intro hz; rotate_left; subst z) | clear_value z) | with_reducible assumption | with_reducible apply State.takeExposure_keeps | with_reducible apply State.coverFrom_keeps | with_reducible apply State.deadChanged_keeps | with_reducible apply State.sendCur_keeps | with_reducible refine Keeps.ite ?_ ?_

theorem State.wrWindow_keeps {s₀ s : State} (h : Keeps s₀ s) (w : Wr) (r : RegRow) (st : Nat) : Keeps s₀ (State.wrWindow s w r st) := by
  unfold State.wrWindow
  try dsimp only
  repeat' first | with_reducible assumption | with_reducible apply State.bounded_keeps | with_reducible apply State.setF_keeps | with_reducible apply State.askMove_keeps | with_reducible refine Keeps.ite ?_ ?_

theorem State.wrExpStation_keeps {s₀ s : State} (h : Keeps s₀ s) (w : Wr) (r : RegRow) (st : Nat) : Keeps s₀ (State.wrExpStation s w r st) := by
  unfold State.wrExpStation
  try dsimp only
  repeat' first | with_reducible assumption | with_reducible apply State.wrWindow_keeps | with_reducible apply State.bounded_keeps | with_reducible apply State.sendHead_keeps | with_reducible apply State.syncBdEmit_keeps | with_reducible apply State.plain_keeps | with_reducible apply State.deadWritten_keeps | with_reducible apply State.touch_keeps | with_reducible apply State.takeExposure_keeps | with_reducible apply State.coverFrom_keeps | with_reducible refine Keeps.ite ?_ ?_

theorem State.wrExp_keeps {s₀ s : State} (h : Keeps s₀ s) (w : Wr) (r : RegRow) : Keeps s₀ (State.wrExp s w r) := by
  unfold State.wrExp
  try dsimp only
  repeat' first | with_reducible assumption | with_reducible apply State.bounded_keeps | with_reducible apply State.sendHead_keeps | with_reducible apply State.wrExpStation_keeps | with_reducible apply State.plain_keeps | (with_reducible apply Keeps.foldl; intro _ _ _) | with_reducible refine Keeps.ite ?_ ?_

theorem State.wrHdg_keeps {s₀ s : State} (h : Keeps s₀ s) (w : Wr) (r : RegRow) : Keeps s₀ (State.wrHdg s w r) := by
  unfold State.wrHdg
  repeat' first | with_reducible assumption | with_reducible apply KeepsAns.next | with_reducible apply after_keeps | with_reducible apply execHdgLimitWrite_keeps | with_reducible apply State.plain_keeps | with_reducible refine KeepsAns.ite ?_ ?_ | with_reducible refine Keeps.ite ?_ ?_

theorem State.wrInsCtrl_keeps {s₀ s : State} (h : Keeps s₀ s) (w : Wr) (r : RegRow) : Keeps s₀ (State.wrInsCtrl s w r) := by
  unfold State.wrInsCtrl
  try dsimp only
  repeat' first | with_reducible assumption | with_reducible apply State.plain_keeps | with_reducible apply State.insLinkDown_keeps | with_reducible apply State.setInsLink_keeps | (with_reducible apply Keeps.foldl; intro _ _ _) | with_reducible refine Keeps.ite ?_ ?_

theorem State.wrInsSide_keeps {s₀ s : State} (h : Keeps s₀ s) (w : Wr) (r : RegRow) (side : Nat) : Keeps s₀ (State.wrInsSide s w r side) := by
  unfold State.wrInsSide
  try dsimp only
  repeat' first | with_reducible assumption | with_reducible apply KeepsAns.next | with_reducible apply after_keeps | with_reducible apply execCalWhite_keeps | with_reducible apply execCalChart_keeps | with_reducible apply State.raise_keeps | with_reducible apply execInsAck_keeps | with_reducible apply State.bounded_keeps | with_reducible refine KeepsAns.ite ?_ ?_ | with_reducible refine Keeps.ite ?_ ?_ | split

theorem State.wrIns_keeps {s₀ s : State} (h : Keeps s₀ s) (w : Wr) (r : RegRow) : Keeps s₀ (State.wrIns s w r) := by
  unfold State.wrIns
  repeat' first | (extract_lets +onlyGivenNames z; first | (refine Keeps.cut (s₀ := s₀) z ?_ ?_; rotate_left; clear_value z; intro hz; rotate_left; subst z) | clear_value z) | with_reducible assumption | with_reducible apply KeepsAns.next | with_reducible apply State.wrInsCtrl_keeps | with_reducible apply State.bounded_keeps | with_reducible apply after_keeps | with_reducible apply execXcalAbort_keeps | with_reducible apply execXcalStart_keeps | with_reducible apply State.plain_keeps | with_reducible apply execAuditExport_keeps | with_reducible apply State.wrInsSide_keeps | with_reducible refine KeepsAns.ite ?_ ?_ | with_reducible refine Keeps.ite ?_ ?_

theorem State.wrLoopField_keeps {s₀ s : State} (h : Keeps s₀ s) (w : Wr) (r : RegRow) (lp : Nat) (take : Nat → Nat → Bool) : Keeps s₀ (State.wrLoopField s w r lp take) := by
  unfold State.wrLoopField
  try dsimp only
  repeat' first | with_reducible assumption | with_reducible apply State.setWord_keeps | with_reducible apply State.raise_keeps | with_reducible apply State.satInc_keeps | with_reducible apply State.lpReclose_keeps | with_reducible refine Keeps.ite ?_ ?_

theorem State.wrLpe_keeps {s₀ s : State} (h : Keeps s₀ s) (w : Wr) (r : RegRow) : Keeps s₀ (State.wrLpe s w r) := by
  unfold State.wrLpe
  try dsimp only
  repeat' first | with_reducible assumption | with_reducible apply KeepsAns.next | with_reducible apply State.satInc_keeps | with_reducible apply State.ranged_keeps | with_reducible apply after_keeps | with_reducible apply execLoopOff_keeps | with_reducible apply execLoopOpen_keeps | with_reducible apply execLoopClose_keeps | with_reducible apply State.wrLoopField_keeps | with_reducible apply State.plain_keeps | with_reducible refine KeepsAns.ite ?_ ?_ | with_reducible refine Keeps.ite ?_ ?_ | split

theorem State.wrAxCmd_keeps {s₀ s : State} (h : Keeps s₀ s) (w : Wr) (ax : Nat) : Keeps s₀ (State.wrAxCmd s w ax) := by
  unfold State.wrAxCmd
  try dsimp only
  repeat' first | with_reducible assumption | with_reducible apply KeepsAns.next | with_reducible apply after_keeps | with_reducible apply execAxEnable_keeps | with_reducible apply execAxDisable_keeps | with_reducible apply execAxMoveAbs_keeps | with_reducible apply execAxMoveRel_keeps | with_reducible apply execAxJogPos_keeps | with_reducible apply execAxJogNeg_keeps | with_reducible apply execAxStop_keeps | with_reducible apply execAxQstop_keeps | with_reducible apply execAxResume_keeps | with_reducible apply execAxSetpos_keeps | with_reducible apply execAxClear_keeps | split

theorem State.wrMot_keeps {s₀ s : State} (h : Keeps s₀ s) (w : Wr) (r : RegRow) : Keeps s₀ (State.wrMot s w r) := by
  unfold State.wrMot
  try dsimp only
  repeat' first | with_reducible assumption | with_reducible apply State.flagged_keeps | with_reducible apply State.wrAxCmd_keeps | with_reducible apply State.setWord_keeps | with_reducible apply State.raise_keeps | with_reducible apply State.ranged_keeps | with_reducible apply State.plain_keeps | with_reducible refine Keeps.ite ?_ ?_

theorem State.wrLatPort_keeps {s₀ s : State} (h : Keeps s₀ s) (w : Wr) (r : RegRow) (p : Nat) : Keeps s₀ (State.wrLatPort s w r p) := by
  unfold State.wrLatPort
  try dsimp only
  repeat' first | with_reducible assumption | with_reducible apply KeepsAns.next | with_reducible apply after_keeps | with_reducible apply execLatPortEnable_keeps | with_reducible apply execLatPortDisable_keeps | with_reducible apply execLatRescan_keeps | with_reducible apply State.setWord_keeps | with_reducible apply State.raise_keeps | with_reducible apply State.ranged_keeps | with_reducible apply State.latMbxGo_keeps | with_reducible apply State.plain_keeps | with_reducible refine KeepsAns.ite ?_ ?_ | with_reducible refine Keeps.ite ?_ ?_

theorem State.wrFan_keeps {s₀ s : State} (h : Keeps s₀ s) (w : Wr) (r : RegRow) (fc : Nat) : Keeps s₀ (State.wrFan s w r fc) := by
  unfold State.wrFan
  try dsimp only
  repeat' first | with_reducible assumption | with_reducible apply KeepsAns.next | with_reducible apply State.ranged_keeps | with_reducible apply after_keeps | with_reducible apply execFanDutyWrite_keeps | with_reducible apply execFanClear_keeps | with_reducible apply State.plain_keeps | with_reducible refine KeepsAns.ite ?_ ?_ | with_reducible refine Keeps.ite ?_ ?_

theorem State.wrLat_keeps {s₀ s : State} (h : Keeps s₀ s) (w : Wr) (r : RegRow) : Keeps s₀ (State.wrLat s w r) := by
  unfold State.wrLat
  try dsimp only
  repeat' first | with_reducible assumption | with_reducible apply KeepsAns.next | with_reducible apply State.wrLatPort_keeps | with_reducible apply State.flagged_keeps | with_reducible apply State.wrFan_keeps | with_reducible apply after_keeps | with_reducible apply execLatOimgWrite_keeps | with_reducible apply State.plain_keeps | with_reducible refine KeepsAns.ite ?_ ?_ | with_reducible refine Keeps.ite ?_ ?_

theorem State.wrTask_keeps {s₀ s : State} (h : Keeps s₀ s) (w : Wr) (r : RegRow) (tk : Nat) : Keeps s₀ (State.wrTask s w r tk) := by
  unfold State.wrTask
  try dsimp only
  repeat' first | with_reducible assumption | with_reducible apply KeepsAns.next | with_reducible apply after_keeps | with_reducible apply execTaskConfigWrite_keeps | with_reducible apply State.plain_keeps | with_reducible apply execTaskAck_keeps | with_reducible refine KeepsAns.ite ?_ ?_ | with_reducible refine Keeps.ite ?_ ?_

theorem State.wrTrn_keeps {s₀ s : State} (h : Keeps s₀ s) (w : Wr) (r : RegRow) : Keeps s₀ (State.wrTrn s w r) := by
  unfold State.wrTrn
  try dsimp only
  repeat' first | with_reducible assumption | with_reducible apply KeepsAns.next | with_reducible apply after_keeps | with_reducible apply execSwEventRaise_keeps | with_reducible apply State.ranged_keeps | with_reducible apply State.startTimer_keeps | with_reducible apply execWebCompareArm_keeps | with_reducible apply State.raise_keeps | with_reducible apply State.wrTask_keeps | with_reducible apply State.plain_keeps | with_reducible refine KeepsAns.ite ?_ ?_ | with_reducible refine Keeps.ite ?_ ?_

theorem State.wrCul_keeps {s₀ s : State} (h : Keeps s₀ s) (w : Wr) (r : RegRow) : Keeps s₀ (State.wrCul s w r) := by
  unfold State.wrCul
  repeat' first | (extract_lets +onlyGivenNames z; first | (refine Keeps.cut (s₀ := s₀) z ?_ ?_; rotate_left; clear_value z; intro hz; rotate_left; subst z) | clear_value z) | with_reducible assumption | with_reducible apply KeepsAns.next | with_reducible apply after_keeps | with_reducible apply execCulEnable_keeps | with_reducible apply execCulRestart_keeps | with_reducible apply execCulUnfold_keeps | with_reducible apply State.plain_keeps | with_reducible refine KeepsAns.ite ?_ ?_ | with_reducible refine Keeps.ite ?_ ?_

theorem State.wrEctCtrl_keeps {s₀ s : State} (h : Keeps s₀ s) (w : Wr) (r : RegRow) : Keeps s₀ (State.wrEctCtrl s w r) := by
  unfold State.wrEctCtrl
  repeat' first | (extract_lets +onlyGivenNames z; first | (refine Keeps.cut (s₀ := s₀) z ?_ ?_; rotate_left; clear_value z; intro hz; rotate_left; subst z) | clear_value z) | with_reducible assumption | with_reducible apply State.ranged_keeps | with_reducible apply State.linkTo_keeps | with_reducible apply State.setF_keeps | with_reducible apply State.alDrop_keeps | with_reducible refine Keeps.ite ?_ ?_

theorem State.wrEct_keeps {s₀ s : State} (h : Keeps s₀ s) (w : Wr) (r : RegRow) : Keeps s₀ (State.wrEct s w r) := by
  unfold State.wrEct
  repeat' first | with_reducible assumption | with_reducible apply State.wrEctCtrl_keeps | with_reducible apply State.plain_keeps | with_reducible apply State.takeShadow_keeps | with_reducible refine Keeps.ite ?_ ?_

theorem State.wrRail_keeps {s₀ s : State} (h : Keeps s₀ s) (w : Wr) (r : RegRow) (k : Nat) : Keeps s₀ (State.wrRail s w r k) := by
  unfold State.wrRail
  try dsimp only
  repeat' first | with_reducible assumption | with_reducible apply State.raise_keeps | with_reducible apply State.whole_keeps | with_reducible apply State.flagged_keeps | with_reducible refine Keeps.ite ?_ ?_

theorem State.wrPwr_keeps {s₀ s : State} (h : Keeps s₀ s) (w : Wr) (r : RegRow) : Keeps s₀ (State.wrPwr s w r) := by
  unfold State.wrPwr
  try dsimp only
  repeat' first | with_reducible assumption | with_reducible apply KeepsAns.next | with_reducible apply State.ranged_keeps | with_reducible apply after_keeps | with_reducible apply execPowerStateRequest_keeps | with_reducible apply State.bounded_keeps | with_reducible apply State.whole_keeps | with_reducible apply State.flagged_keeps | with_reducible apply execSeqProgramWrite_keeps | with_reducible apply State.wrRail_keeps | with_reducible apply State.plain_keeps | with_reducible refine KeepsAns.ite ?_ ?_ | with_reducible refine Keeps.ite ?_ ?_

theorem State.wrThm_keeps {s₀ s : State} (h : Keeps s₀ s) (w : Wr) (r : RegRow) : Keeps s₀ (State.wrThm s w r) := by
  unfold State.wrThm
  try dsimp only
  repeat' first | with_reducible assumption | with_reducible apply State.plain_keeps | with_reducible apply State.ranged_keeps | with_reducible refine Keeps.ite ?_ ?_

theorem State.wrOtp_keeps {s₀ s : State} (h : Keeps s₀ s) (w : Wr) (r : RegRow) : Keeps s₀ (State.wrOtp s w r) := by
  unfold State.wrOtp
  repeat' first | with_reducible assumption | with_reducible apply State.otpCmdWrite_keeps | with_reducible apply State.plain_keeps | with_reducible refine Keeps.ite ?_ ?_

theorem State.wrSec_keeps {s₀ s : State} (h : Keeps s₀ s) (w : Wr) (r : RegRow) : Keeps s₀ (State.wrSec s w r) := by
  unfold State.wrSec
  try dsimp only
  repeat' first | with_reducible assumption | with_reducible apply KeepsAns.next | with_reducible apply State.lcRequest_keeps | with_reducible apply after_keeps | with_reducible apply execSvnCommit_keeps | with_reducible apply State.reject_keeps | with_reducible apply execTokenRevoke_keeps | with_reducible apply execSessionClose_keeps | with_reducible apply execTokenSubmit_keeps | with_reducible apply State.plain_keeps | with_reducible refine KeepsAns.ite ?_ ?_ | with_reducible refine Keeps.ite ?_ ?_

theorem State.wrFlt_keeps {s₀ s : State} (h : Keeps s₀ s) (w : Wr) (r : RegRow) : Keeps s₀ (State.wrFlt s w r) := by
  unfold State.wrFlt
  repeat' first | (extract_lets +onlyGivenNames z; first | (refine Keeps.cut (s₀ := s₀) z ?_ ?_; rotate_left; clear_value z; intro hz; rotate_left; subst z) | clear_value z) | with_reducible assumption | with_reducible apply KeepsAns.next | with_reducible apply State.reject_keeps | with_reducible apply State.plain_keeps | with_reducible apply after_keeps | with_reducible apply execSumpRearm_keeps | with_reducible apply execSumpRelease_keeps | with_reducible apply execHeartbeatKick_keeps | with_reducible apply execSumpPop_keeps | with_reducible refine KeepsAns.ite ?_ ?_ | with_reducible refine Keeps.ite ?_ ?_

theorem State.wrEvr_keeps {s₀ s : State} (h : Keeps s₀ s) (w : Wr) (r : RegRow) : Keeps s₀ (State.wrEvr s w r) := by
  unfold State.wrEvr
  repeat' first | with_reducible assumption | with_reducible apply KeepsAns.next | with_reducible apply after_keeps | with_reducible apply execRecordRead_keeps | with_reducible apply execRecordClear_keeps | with_reducible apply State.plain_keeps | with_reducible refine KeepsAns.ite ?_ ?_ | with_reducible refine Keeps.ite ?_ ?_

theorem State.wrBlock_keeps {s₀ s : State} (h : Keeps s₀ s) (w : Wr) (r : RegRow) : Keeps s₀ (State.wrBlock s w r) := by
  unfold State.wrBlock
  repeat' first | with_reducible assumption | with_reducible apply State.wrHif_keeps | with_reducible apply State.wrSip_keeps | with_reducible apply State.wrSpl_keeps | with_reducible apply State.wrKor_keeps | with_reducible apply State.wrCmp_keeps | with_reducible apply State.wrFlm_keeps | with_reducible apply State.wrScn_keeps | with_reducible apply State.wrExp_keeps | with_reducible apply State.wrHdg_keeps | with_reducible apply State.wrIns_keeps | with_reducible apply State.wrLpe_keeps | with_reducible apply State.wrMot_keeps | with_reducible apply State.wrLat_keeps | with_reducible apply State.wrTrn_keeps | with_reducible apply State.wrCul_keeps | with_reducible apply State.wrEct_keeps | with_reducible apply State.wrPwr_keeps | with_reducible apply State.wrThm_keeps | with_reducible apply State.wrClk_keeps | with_reducible apply State.wrOtp_keeps | with_reducible apply State.wrSec_keeps | with_reducible apply State.wrFlt_keeps | with_reducible apply State.wrEvr_keeps | split

theorem State.recount_keeps {s₀ s : State} (h : Keeps s₀ s) (ns : Nat) (x : Fld) : Keeps s₀ (State.recount s ns x) := by
  unfold State.recount
  try dsimp only
  repeat' first | with_reducible assumption | with_reducible apply State.setF_keeps | (with_reducible apply Keeps.foldl; intro _ _ _) | with_reducible refine Keeps.ite ?_ ?_

theorem State.recountAll_keeps {s₀ s : State} (h : Keeps s₀ s) (w : Wr) (r : RegRow) : Keeps s₀ (State.recountAll s w r) := by
  unfold State.recountAll
  repeat' first | with_reducible assumption | with_reducible apply State.recount_keeps | (with_reducible apply Keeps.foldl; intro _ _ _) | with_reducible refine Keeps.ite ?_ ?_

theorem State.softWrite_keeps {s₀ s : State} (h : Keeps s₀ s) (w : Wr) (r : RegRow) : Keeps s₀ (State.softWrite s w r) := by
  unfold State.softWrite
  try dsimp only
  repeat' first | with_reducible assumption | with_reducible apply State.wrBlock_keeps | with_reducible apply State.recountAll_keeps | with_reducible apply State.mark_keeps | (with_reducible apply Keeps.upd; with_reducible assumption)

theorem State.regWrite_keeps {s₀ s : State} (h : Keeps s₀ s) (w : Wr) : Keeps s₀ (State.regWrite s w) := by
  unfold State.regWrite
  try dsimp only
  repeat' first | with_reducible assumption | with_reducible apply State.softWrite_keeps | with_reducible apply State.mark_keeps | with_reducible apply State.reject_keeps | with_reducible refine Keeps.ite ?_ ?_ | split | (with_reducible apply Keeps.upd; with_reducible assumption)

theorem State.hostWriteAt_keeps {s₀ s : State} (h : Keeps s₀ s) (fn : Nat) (off : Nat) (value : BitVec 32) : Keeps s₀ (State.hostWriteAt s fn off value) := by
  unfold State.hostWriteAt
  try dsimp only
  repeat' first | with_reducible assumption | with_reducible apply State.regWrite_keeps | with_reducible apply State.reject_keeps | with_reducible apply State.wrMsix_keeps | with_reducible refine Keeps.ite ?_ ?_ | split

theorem State.readAt_keeps {s₀ s : State} (h : Keeps s₀ s) (fn : Nat) (off : Nat) : Keeps s₀ (State.readAt s fn off).2 := by
  unfold State.readAt
  try dsimp only
  repeat' first | with_reducible assumption | with_reducible apply State.reportAccess_keeps | with_reducible apply State.setFn_keeps | with_reducible refine Keeps.ite ?_ ?_ | with_reducible refine Keeps.ite_snd ?_ ?_ | with_reducible refine Keeps.ite_fst ?_ ?_ | split | (with_reducible apply Keeps.upd; first | with_reducible assumption | with_reducible apply State.reportAccess_keeps | with_reducible apply State.setFn_keeps) | dsimp only

theorem State.unsupported_keeps {s₀ s : State} (h : Keeps s₀ s) (master : Nat) (off : Nat) (write : Bool) : Keeps s₀ (State.unsupported s master off write) := by
  unfold State.unsupported
  try dsimp only
  repeat' first | with_reducible assumption | with_reducible apply State.reportAccess_keeps | with_reducible apply State.emit_keeps | with_reducible refine Keeps.ite ?_ ?_

theorem State.closedRead_keeps {s₀ s : State} (h : Keeps s₀ s) (fn : Nat) : Keeps s₀ (State.closedRead s fn) := by
  unfold State.closedRead
  repeat' first | with_reducible assumption | with_reducible apply State.emit_keeps | with_reducible refine Keeps.ite ?_ ?_

theorem execLowWordRead_keeps {s₀ s : State} (h : Keeps s₀ s) (fn : Nat) (off : Nat) (wide : Bool) : KeepsAns s₀ (execLowWordRead fn off wide s) := by
  unfold execLowWordRead
  try dsimp only
  repeat' first | with_reducible assumption | with_reducible apply KeepsAns.next | with_reducible apply State.closedRead_keeps | with_reducible apply State.unsupported_keeps | with_reducible apply State.readAt_keeps | with_reducible apply State.emit_keeps | (refine Keeps.of_snd ?_ (by assumption)) | with_reducible refine KeepsAns.ite ?_ ?_ | with_reducible refine Keeps.ite ?_ ?_ | with_reducible refine Keeps.ite_snd ?_ ?_ | with_reducible refine Keeps.ite_fst ?_ ?_ | split | dsimp only

theorem execReservedAccess_keeps {s₀ s : State} (h : Keeps s₀ s) (master : Nat) (off : Nat) (write : Option (BitVec 32)) : KeepsAns s₀ (execReservedAccess master off write s) := by
  unfold execReservedAccess
  try dsimp only
  repeat' first | with_reducible assumption | with_reducible apply KeepsAns.next | with_reducible apply State.closedRead_keeps | with_reducible apply State.reportAccess_keeps | with_reducible apply State.emit_keeps | with_reducible refine KeepsAns.ite ?_ ?_ | with_reducible refine Keeps.ite ?_ ?_ | split

theorem execUnsupportedAccess_keeps {s₀ s : State} (h : Keeps s₀ s) (master : Nat) (off : Nat) (write : Bool) : KeepsAns s₀ (execUnsupportedAccess master off write s) := by
  unfold execUnsupportedAccess
  repeat' first | with_reducible assumption | with_reducible apply KeepsAns.next | with_reducible apply State.closedRead_keeps | with_reducible apply State.unsupported_keeps | with_reducible refine KeepsAns.ite ?_ ?_ | with_reducible refine Keeps.ite ?_ ?_

theorem State.clkReport_keeps {s₀ s : State} (h : Keeps s₀ s) (d : Nat) (cls : Nat) : Keeps s₀ (State.clkReport s d cls) := by
  unfold State.clkReport
  repeat' first | with_reducible assumption | with_reducible apply State.report_keeps

theorem execClockLoss_keeps {s₀ s : State} (h : Keeps s₀ s) (domain : Nat) : KeepsAns s₀ (execClockLoss domain s) := by
  unfold execClockLoss
  repeat' first | (extract_lets +onlyGivenNames z; first | (refine Keeps.cut (s₀ := s₀) z ?_ ?_; rotate_left; clear_value z; intro hz; rotate_left; subst z) | clear_value z) | with_reducible assumption | with_reducible apply KeepsAns.next | with_reducible apply State.clkReport_keeps | with_reducible apply State.pllSearch_keeps | with_reducible apply State.modPll_keeps | with_reducible apply State.setF_keeps | with_reducible apply State.satInc_keeps | with_reducible apply State.linkOff_keeps | with_reducible apply State.hostReset_keeps | with_reducible apply State.refreshRefusal_keeps | with_reducible refine KeepsAns.ite ?_ ?_ | with_reducible refine Keeps.ite ?_ ?_ | (with_reducible apply Keeps.upd; with_reducible assumption)

theorem execClockRelock_keeps {s₀ s : State} (h : Keeps s₀ s) (domain : Nat) : KeepsAns s₀ (execClockRelock domain s) := by
  unfold execClockRelock
  try dsimp only
  repeat' first | with_reducible assumption | with_reducible apply KeepsAns.next | with_reducible apply State.setF_keeps | with_reducible apply State.refreshRefusal_keeps | with_reducible refine KeepsAns.ite ?_ ?_ | with_reducible refine Keeps.ite ?_ ?_ | (with_reducible apply Keeps.upd; with_reducible assumption)

end Sys2Proof.Machine
end

