-- ==== Sys2Proof/Laws/KeepDict.lean ====
section
/-! SUPPORT. What the operations of Machine/Dict.lean keep (Laws/Keep.lean). -/
namespace Sys2Proof.Machine
set_option Elab.async false
set_option linter.all false

theorem State.odReport_keeps {s₀ s : State} (h : Keeps s₀ s) (src : Nat) (cause : Nat) (index : Nat) (sub : Nat) (value : Nat) : Keeps s₀ (State.odReport s src cause index sub value) := by
  unfold State.odReport
  repeat' first | with_reducible assumption | with_reducible apply State.reportAccess_keeps

theorem State.odMissing_keeps {s₀ s : State} (h : Keeps s₀ s) (code : Nat) (index : Nat) (sub : Nat) : Keeps s₀ (State.odMissing s code index sub) := by
  unfold State.odMissing
  repeat' first | with_reducible assumption | with_reducible apply State.odReport_keeps | with_reducible refine Keeps.ite ?_ ?_

theorem State.odOwn_keeps {s₀ s : State} (h : Keeps s₀ s) (index : Nat) (sub : Nat) : Keeps s₀ (State.odOwn s index sub).2 := by
  unfold State.odOwn
  try dsimp only
  repeat' first | with_reducible assumption | with_reducible apply State.freeBytes_keeps | with_reducible apply State.drawChallenge_keeps | (with_reducible apply Keeps.foldl; intro _ _ _) | (with_reducible apply Keeps.foldl_snd; intro _ _ _) | (with_reducible apply Keeps.foldl_fst; intro _ _ _) | (refine Keeps.of_snd ?_ (by assumption)) | with_reducible refine Keeps.ite ?_ ?_ | with_reducible refine Keeps.ite_snd ?_ ?_ | with_reducible refine Keeps.ite_fst ?_ ?_ | split | dsimp only

theorem State.odBytes_keeps {s₀ s : State} (h : Keeps s₀ s) (index : Nat) (o : Obj) : Keeps s₀ (State.odBytes s index o).2 := by
  unfold State.odBytes
  try dsimp only
  repeat' first | with_reducible assumption | with_reducible apply State.odOwn_keeps | (refine Keeps.of_snd ?_ (by assumption)) | split | dsimp only

theorem State.odReadObj_keeps {s₀ s : State} (h : Keeps s₀ s) (index : Nat) (o : Obj) : Keeps s₀ (State.odReadObj s index o).2.2 := by
  unfold State.odReadObj
  try dsimp only
  repeat' first | with_reducible assumption | with_reducible apply State.odReport_keeps | with_reducible apply State.odBytes_keeps | (refine Keeps.of_snd ?_ (by assumption)) | with_reducible refine Keeps.ite ?_ ?_ | with_reducible refine Keeps.ite_snd ?_ ?_ | with_reducible refine Keeps.ite_fst ?_ ?_ | split | dsimp only

theorem State.odRead_keeps {s₀ s : State} (h : Keeps s₀ s) (index : Nat) (sub : Nat) : Keeps s₀ (State.odRead s index sub).2 := by
  unfold State.odRead
  try dsimp only
  repeat' first | with_reducible assumption | with_reducible apply State.odMissing_keeps | with_reducible apply State.odReadObj_keeps | (refine Keeps.of_thd ?_ (by assumption)) | with_reducible refine Keeps.ite ?_ ?_ | with_reducible refine Keeps.ite_snd ?_ ?_ | with_reducible refine Keeps.ite_fst ?_ ?_ | split | dsimp only

theorem State.odWriteFld_keeps {s₀ s : State} (h : Keeps s₀ s) (index : Nat) (o : Obj) (x : Fld) (v : Nat) : Keeps s₀ (State.odWriteFld s index o x v).2 := by
  unfold State.odWriteFld
  try dsimp only
  repeat' first | with_reducible assumption | with_reducible apply State.regWrite_keeps | with_reducible refine Keeps.ite ?_ ?_ | with_reducible refine Keeps.ite_snd ?_ ?_ | with_reducible refine Keeps.ite_fst ?_ ?_ | split | dsimp only

theorem State.odWriteWords_keeps {s₀ s : State} (h : Keeps s₀ s) (index : Nat) (o : Obj) (off : Nat) (n : Nat) (data : List Byte) : Keeps s₀ (State.odWriteWords s index o off n data).2 := by
  unfold State.odWriteWords
  try dsimp only
  repeat' first | with_reducible assumption | with_reducible apply State.regWrite_keeps | (with_reducible apply Keeps.foldl; intro _ _ _) | (with_reducible apply Keeps.foldl_snd; intro _ _ _) | (with_reducible apply Keeps.foldl_fst; intro _ _ _) | with_reducible refine Keeps.ite ?_ ?_ | with_reducible refine Keeps.ite_snd ?_ ?_ | with_reducible refine Keeps.ite_fst ?_ ?_ | split | dsimp only

theorem State.odWriteCell_keeps {s₀ s : State} (h : Keeps s₀ s) (index : Nat) (o : Obj) (lo : Nat) (hi : Nat) (v : Nat) (boot : Bool) : Keeps s₀ (State.odWriteCell s index o lo hi v boot).2 := by
  unfold State.odWriteCell
  repeat' first | with_reducible assumption | with_reducible apply State.setObj_keeps | with_reducible refine Keeps.ite ?_ ?_ | with_reducible refine Keeps.ite_snd ?_ ?_ | with_reducible refine Keeps.ite_fst ?_ ?_ | split | dsimp only

theorem State.odInsStore_keeps {s₀ s : State} (h : Keeps s₀ s) (side : Nat) (ok : Bool) (same : Bool) (put : State → State) (hput : ∀ t, Keeps s₀ t → Keeps s₀ (put t)) : Keeps s₀ (State.odInsStore s side ok same put).2 := by
  unfold State.odInsStore
  repeat' first | with_reducible assumption | with_reducible apply hput | with_reducible apply State.raise_keeps | with_reducible refine Keeps.ite ?_ ?_ | with_reducible refine Keeps.ite_snd ?_ ?_ | with_reducible refine Keeps.ite_fst ?_ ?_ | split | dsimp only

theorem State.odWriteOwn_keeps {s₀ s : State} (h : Keeps s₀ s) (index : Nat) (sub : Nat) (data : List Byte) : Keeps s₀ (State.odWriteOwn s index sub data).2 := by
  unfold State.odWriteOwn
  try dsimp only
  repeat' first | with_reducible assumption | with_reducible apply KeepsAns.next | with_reducible apply State.calStore_keeps | with_reducible apply State.regWrite_keeps | with_reducible apply State.askClear_keeps | with_reducible apply State.lcRequest_keeps | with_reducible apply after_keeps | with_reducible apply execTokenSubmit_keeps | with_reducible apply State.odInsStore_keeps | with_reducible apply State.setInsSide_keeps | with_reducible apply State.setF_keeps | (with_reducible apply Keeps.foldl; intro _ _ _) | (with_reducible apply Keeps.foldl_snd; intro _ _ _) | (with_reducible apply Keeps.foldl_fst; intro _ _ _) | (refine Keeps.of_snd ?_ (by assumption)) | with_reducible refine KeepsAns.ite ?_ ?_ | with_reducible refine Keeps.ite ?_ ?_ | with_reducible refine Keeps.ite_snd ?_ ?_ | with_reducible refine Keeps.ite_fst ?_ ?_ | split | (with_reducible apply Keeps.upd; first | with_reducible assumption | with_reducible apply State.calStore_keeps | with_reducible apply State.regWrite_keeps | with_reducible apply State.askClear_keeps | with_reducible apply State.lcRequest_keeps | with_reducible apply after_keeps | with_reducible apply execTokenSubmit_keeps | with_reducible apply State.odInsStore_keeps | with_reducible apply State.setInsSide_keeps | with_reducible apply State.setF_keeps) | dsimp only | intro _ _

theorem State.odWriteObj_keeps {s₀ s : State} (h : Keeps s₀ s) (index : Nat) (o : Obj) (data : List Byte) (boot : Bool) : Keeps s₀ (State.odWriteObj s index o data boot).2 := by
  unfold State.odWriteObj
  try dsimp only
  repeat' first | with_reducible assumption | with_reducible apply State.odReport_keeps | with_reducible apply State.odWriteFld_keeps | with_reducible apply State.regWrite_keeps | with_reducible apply State.odWriteWords_keeps | with_reducible apply State.odWriteCell_keeps | with_reducible apply State.odWriteOwn_keeps | (refine Keeps.of_snd ?_ (by assumption)) | with_reducible refine Keeps.ite ?_ ?_ | with_reducible refine Keeps.ite_snd ?_ ?_ | with_reducible refine Keeps.ite_fst ?_ ?_ | split | dsimp only

theorem State.odWrite_keeps {s₀ s : State} (h : Keeps s₀ s) (index : Nat) (sub : Nat) (data : List Byte) (boot : Bool) : Keeps s₀ (State.odWrite s index sub data boot).2 := by
  unfold State.odWrite
  repeat' first | with_reducible assumption | with_reducible apply State.odMissing_keeps | with_reducible apply State.odWriteObj_keeps | (refine Keeps.of_snd ?_ (by assumption)) | with_reducible refine Keeps.ite ?_ ?_ | with_reducible refine Keeps.ite_snd ?_ ?_ | with_reducible refine Keeps.ite_fst ?_ ?_ | split | dsimp only

theorem State.odReadAll_keeps {s₀ s : State} (h : Keeps s₀ s) (index start : Nat) : Keeps s₀ (State.odReadAll s index start).2 := by
  unfold State.odReadAll
  extract_lets os r
  have hr : Keeps s₀ r.2.2 := Keeps.foldl_by (fun b : Nat × List Byte × State => b.2.2) (fun a o ha => by
    dsimp only
    split
    · exact ha
    · split
      · exact ha
      · exact State.odReadObj_keeps ha _ _) h
  clear_value r
  repeat' first | exact hr | exact h | split | exact State.odMissing_keeps h _ _ _ | dsimp only

theorem OdAll.next_keeps {s₀ : State} (index : Nat) (os : List Obj) (boot : Bool) (a : OdAll) (o : Obj) (h : Keeps s₀ a.st) :
    Keeps s₀ (OdAll.next index os boot a o).st := by
  unfold OdAll.next
  extract_lets len piece rest d r
  have hr : Keeps s₀ r.2 := State.odWriteObj_keeps h _ _ _ _
  clear_value r
  repeat' first | exact hr | exact h | split

theorem State.odWriteAll_keeps {s₀ s : State} (h : Keeps s₀ s) (index start : Nat) (data : List Byte) : Keeps s₀ (State.odWriteAll s index start data).2 := by
  unfold State.odWriteAll
  extract_lets os l a
  have ha : Keeps s₀ a.st := Keeps.foldl_by OdAll.st (fun b o hb => OdAll.next_keeps index os false b o hb) h
  clear_value a
  repeat' first | exact ha | exact h | exact State.odWriteObj_keeps h _ _ _ _ | exact State.odMissing_keeps h _ _ _ | split | dsimp only

end Sys2Proof.Machine
end

