-- ==== Sys2Proof/Laws/KeepServer.lean ====
section
/-! SUPPORT. What the operations of Machine/Server.lean keep (Laws/Keep.lean). -/
namespace Sys2Proof.Machine
set_option Elab.async false
set_option linter.all false

theorem State.setMbxRsp_keeps {s₀ s : State} (h : Keeps s₀ s) (b : List Byte) : Keeps s₀ (State.setMbxRsp s b) := by
  unfold State.setMbxRsp
  try dsimp only
  repeat' first | with_reducible assumption | with_reducible apply State.setWord_keeps | (with_reducible apply Keeps.foldl; intro _ _ _)

theorem State.mbxRespond_keeps {s₀ s : State} (h : Keeps s₀ s) (req : List Byte) (abort : Nat) (data : List Byte) (more : Bool) (total : Nat) : Keeps s₀ (State.mbxRespond s req abort data more total) := by
  unfold State.mbxRespond
  try dsimp only
  repeat' first | with_reducible assumption | with_reducible apply State.setF_keeps | with_reducible apply State.setMbxRsp_keeps | with_reducible apply State.raise_keeps | with_reducible apply State.pf_keeps | with_reducible refine Keeps.ite ?_ ?_ | (with_reducible apply Keeps.upd; with_reducible assumption)

theorem State.mbxAbort_keeps {s₀ s : State} (h : Keeps s₀ s) (req : List Byte) (code : Nat) : Keeps s₀ (State.mbxAbort s req code) := by
  unfold State.mbxAbort
  try dsimp only
  repeat' first | with_reducible assumption | with_reducible apply State.mbxRespond_keeps | (with_reducible apply Keeps.upd; with_reducible assumption)

theorem State.mbxPiece_keeps {s₀ s : State} (h : Keeps s₀ s) (req : List Byte) (x : MbxXfer) : Keeps s₀ (State.mbxPiece s req x) := by
  unfold State.mbxPiece
  try dsimp only
  repeat' first | with_reducible assumption | with_reducible apply State.mbxRespond_keeps | with_reducible refine Keeps.ite ?_ ?_ | (with_reducible apply Keeps.upd; with_reducible assumption)

theorem State.mbxFinish_keeps {s₀ s : State} (h : Keeps s₀ s) (req : List Byte) (abort : Nat) (data : List Byte) : Keeps s₀ (State.mbxFinish s req abort data) := by
  unfold State.mbxFinish
  try dsimp only
  repeat' first | with_reducible assumption | with_reducible apply State.mbxAbort_keeps | with_reducible apply State.mbxRespond_keeps | with_reducible apply State.mbxPiece_keeps | with_reducible refine Keeps.ite ?_ ?_ | (with_reducible apply Keeps.upd; with_reducible assumption)

theorem State.sdoAnswer_keeps {s₀ s : State} (h : Keeps s₀ s) (r : SdoReq) (abort : Nat) (data : List Byte) : Keeps s₀ (State.sdoAnswer s r abort data) := by
  unfold State.sdoAnswer
  repeat' first | with_reducible assumption | with_reducible apply State.emit_keeps | with_reducible apply State.mbxFinish_keeps | with_reducible apply State.culSend_keeps | with_reducible refine Keeps.ite ?_ ?_ | split

theorem State.tunnelEnd_keeps {s₀ s : State} (h : Keeps s₀ s) (r : SdoReq) (abort : Nat) (data : List Byte) : Keeps s₀ (State.tunnelEnd s r abort data) := by
  unfold State.tunnelEnd
  try dsimp only
  repeat' first | with_reducible assumption | with_reducible apply State.setObj_keeps | with_reducible apply State.sdoAnswer_keeps | (with_reducible apply Keeps.upd; with_reducible assumption)

theorem State.tunnelStart_keeps {s₀ s : State} (h : Keeps s₀ s) (r : SdoReq) (upload : Bool) (data : List Byte) : Keeps s₀ (State.tunnelStart s r upload data) := by
  unfold State.tunnelStart
  try dsimp only
  repeat' first | with_reducible assumption | with_reducible apply State.tunnelEnd_keeps | with_reducible apply State.culSend_keeps | with_reducible refine Keeps.ite ?_ ?_ | (with_reducible apply Keeps.upd; with_reducible assumption)

theorem State.sdoConclude_keeps {s₀ s : State} (h : Keeps s₀ s) (r : SdoReq) (a : OdAct) : Keeps s₀ (State.sdoConclude s r a) := by
  unfold State.sdoConclude
  try dsimp only
  repeat' first | with_reducible assumption | with_reducible apply State.sdoAnswer_keeps | with_reducible apply State.tunnelStart_keeps | split | (with_reducible apply Keeps.upd; with_reducible assumption)

theorem State.sdoRun_keeps {s₀ s : State} (h : Keeps s₀ s) (op : SdoOp) : Keeps s₀ (State.sdoRun s op).2 := by
  unfold State.sdoRun
  try dsimp only
  repeat' first | with_reducible assumption | with_reducible apply State.odReadAll_keeps | with_reducible apply State.odRead_keeps | with_reducible apply State.odWriteAll_keeps | with_reducible apply State.odWrite_keeps | (refine Keeps.of_snd ?_ (by assumption)) | with_reducible refine Keeps.ite ?_ ?_ | with_reducible refine Keeps.ite_snd ?_ ?_ | with_reducible refine Keeps.ite_fst ?_ ?_ | split | dsimp only

theorem State.mbxUp_keeps {s₀ s : State} (h : Keeps s₀ s) (req : List Byte) : Keeps s₀ (State.mbxUp s req).2 := by
  unfold State.mbxUp
  try dsimp only
  repeat' first | with_reducible assumption | with_reducible apply State.odRead_keeps | with_reducible apply State.odReadAll_keeps | (refine Keeps.of_snd ?_ (by assumption)) | split | dsimp only

theorem State.mbxDown_keeps {s₀ s : State} (h : Keeps s₀ s) (req : List Byte) (x : MbxXfer) : Keeps s₀ (State.mbxDown s req x) := by
  unfold State.mbxDown
  try dsimp only
  repeat' first | with_reducible assumption | with_reducible apply State.mbxAbort_keeps | with_reducible apply State.mbxRespond_keeps | with_reducible apply State.odWrite_keeps | with_reducible apply State.odWriteAll_keeps | with_reducible apply State.sdoConclude_keeps | (refine Keeps.of_snd ?_ (by assumption)) | with_reducible refine Keeps.ite ?_ ?_ | with_reducible refine Keeps.ite_snd ?_ ?_ | with_reducible refine Keeps.ite_fst ?_ ?_ | split | (with_reducible apply Keeps.upd; first | with_reducible assumption | with_reducible apply State.mbxAbort_keeps | with_reducible apply State.mbxRespond_keeps | with_reducible apply State.odWrite_keeps | with_reducible apply State.odWriteAll_keeps | with_reducible apply State.sdoConclude_keeps) | dsimp only

theorem State.mbxServe_keeps {s₀ s : State} (h : Keeps s₀ s) (req : List Byte) : Keeps s₀ (State.mbxServe s req) := by
  unfold State.mbxServe
  try dsimp only
  repeat' first | with_reducible assumption | with_reducible apply State.mbxAbort_keeps | with_reducible apply State.mbxDown_keeps | with_reducible apply State.mbxPiece_keeps | with_reducible apply State.mbxUp_keeps | with_reducible apply State.sdoConclude_keeps | (refine Keeps.of_snd ?_ (by assumption)) | with_reducible refine Keeps.ite ?_ ?_ | with_reducible refine Keeps.ite_snd ?_ ?_ | with_reducible refine Keeps.ite_fst ?_ ?_ | split | (with_reducible apply Keeps.upd; first | with_reducible assumption | with_reducible apply State.mbxAbort_keeps | with_reducible apply State.mbxDown_keeps | with_reducible apply State.mbxPiece_keeps | with_reducible apply State.mbxUp_keeps | with_reducible apply State.sdoConclude_keeps) | dsimp only

theorem State.sdoServe_keeps {s₀ s : State} (h : Keeps s₀ s) (r : SdoReq) : Keeps s₀ (State.sdoServe s r) := by
  unfold State.sdoServe
  try dsimp only
  repeat' first | with_reducible assumption | with_reducible apply State.sdoRun_keeps | with_reducible apply State.sdoConclude_keeps | with_reducible apply State.mbxServe_keeps | with_reducible apply State.odRead_keeps | with_reducible apply State.odWrite_keeps | with_reducible apply State.sdoAnswer_keeps | (refine Keeps.of_snd ?_ (by assumption)) | with_reducible refine Keeps.ite ?_ ?_ | with_reducible refine Keeps.ite_snd ?_ ?_ | with_reducible refine Keeps.ite_fst ?_ ?_ | split | dsimp only

theorem State.sdoArrive_keeps {s₀ s : State} (h : Keeps s₀ s) (r : SdoReq) : Keeps s₀ (State.sdoArrive s r) := by
  unfold State.sdoArrive
  try dsimp only
  repeat' first | with_reducible assumption | with_reducible apply State.sdoServe_keeps | with_reducible refine Keeps.ite ?_ ?_ | (with_reducible apply Keeps.upd; with_reducible assumption)

theorem State.mbxGo_keeps {s₀ s : State} (h : Keeps s₀ s) : Keeps s₀ (State.mbxGo s) := by
  unfold State.mbxGo
  try dsimp only
  repeat' first | with_reducible assumption | with_reducible apply State.raise_keeps | with_reducible apply State.setF_keeps | with_reducible apply State.sdoArrive_keeps | with_reducible refine Keeps.ite ?_ ?_

theorem State.mbxGoAs_keeps {s₀ s : State} (h : Keeps s₀ s) (cmd : Nat) : Keeps s₀ (State.mbxGoAs s cmd) := by
  unfold State.mbxGoAs
  repeat' first | with_reducible assumption | with_reducible apply State.mbxGo_keeps | with_reducible refine Keeps.ite ?_ ?_

theorem execMbxUpload_keeps {s₀ s : State} (h : Keeps s₀ s) : KeepsAns s₀ (execMbxUpload s) := by
  unfold execMbxUpload
  repeat' first | with_reducible assumption | with_reducible apply KeepsAns.next | with_reducible apply State.mbxGoAs_keeps

theorem execMbxDownload_keeps {s₀ s : State} (h : Keeps s₀ s) : KeepsAns s₀ (execMbxDownload s) := by
  unfold execMbxDownload
  repeat' first | with_reducible assumption | with_reducible apply KeepsAns.next | with_reducible apply State.mbxGoAs_keeps

theorem execMbxUploadComplete_keeps {s₀ s : State} (h : Keeps s₀ s) : KeepsAns s₀ (execMbxUploadComplete s) := by
  unfold execMbxUploadComplete
  repeat' first | with_reducible assumption | with_reducible apply KeepsAns.next | with_reducible apply State.mbxGoAs_keeps

theorem execMbxDownloadComplete_keeps {s₀ s : State} (h : Keeps s₀ s) : KeepsAns s₀ (execMbxDownloadComplete s) := by
  unfold execMbxDownloadComplete
  repeat' first | with_reducible assumption | with_reducible apply KeepsAns.next | with_reducible apply State.mbxGoAs_keeps

theorem execMbxGetOdList_keeps {s₀ s : State} (h : Keeps s₀ s) : KeepsAns s₀ (execMbxGetOdList s) := by
  unfold execMbxGetOdList
  repeat' first | with_reducible assumption | with_reducible apply KeepsAns.next | with_reducible apply State.mbxGoAs_keeps

theorem execMbxGetObjectDesc_keeps {s₀ s : State} (h : Keeps s₀ s) : KeepsAns s₀ (execMbxGetObjectDesc s) := by
  unfold execMbxGetObjectDesc
  repeat' first | with_reducible assumption | with_reducible apply KeepsAns.next | with_reducible apply State.mbxGoAs_keeps

theorem execMbxGetEntryDesc_keeps {s₀ s : State} (h : Keeps s₀ s) : KeepsAns s₀ (execMbxGetEntryDesc s) := by
  unfold execMbxGetEntryDesc
  repeat' first | with_reducible assumption | with_reducible apply KeepsAns.next | with_reducible apply State.mbxGoAs_keeps

theorem execMbxSegmentTimeout_keeps {s₀ s : State} (h : Keeps s₀ s) : KeepsAns s₀ (execMbxSegmentTimeout s) := by
  unfold execMbxSegmentTimeout
  repeat' first | with_reducible assumption | with_reducible apply KeepsAns.next | with_reducible apply State.mbxAbort_keeps | with_reducible refine KeepsAns.ite ?_ ?_ | with_reducible refine Keeps.ite ?_ ?_

theorem execCoeSdoUpload_keeps {s₀ s : State} (h : Keeps s₀ s) (index : Nat) (sub : Nat) (complete : Bool) : KeepsAns s₀ (execCoeSdoUpload index sub complete s) := by
  unfold execCoeSdoUpload
  repeat' first | with_reducible assumption | with_reducible apply KeepsAns.next | with_reducible apply State.sdoArrive_keeps | with_reducible refine KeepsAns.ite ?_ ?_ | with_reducible refine Keeps.ite ?_ ?_

theorem execCoeSdoDownload_keeps {s₀ s : State} (h : Keeps s₀ s) (index : Nat) (sub : Nat) (complete : Bool) (data : List (BitVec 8)) : KeepsAns s₀ (execCoeSdoDownload index sub complete data s) := by
  unfold execCoeSdoDownload
  repeat' first | with_reducible assumption | with_reducible apply KeepsAns.next | with_reducible apply State.sdoArrive_keeps | with_reducible refine KeepsAns.ite ?_ ?_ | with_reducible refine Keeps.ite ?_ ?_

theorem execCoeSdoInformation_keeps {s₀ s : State} (h : Keeps s₀ s) (data : List (BitVec 8)) : KeepsAns s₀ (execCoeSdoInformation data s) := by
  unfold execCoeSdoInformation
  repeat' first | with_reducible assumption | with_reducible apply KeepsAns.next | with_reducible apply State.sdoArrive_keeps | with_reducible refine KeepsAns.ite ?_ ?_ | with_reducible refine Keeps.ite ?_ ?_

theorem execSdoQueuedStart_keeps {s₀ s : State} (h : Keeps s₀ s) : KeepsAns s₀ (execSdoQueuedStart s) := by
  unfold execSdoQueuedStart
  try dsimp only
  repeat' first | with_reducible assumption | with_reducible apply KeepsAns.next | with_reducible apply State.sdoServe_keeps | with_reducible refine KeepsAns.ite ?_ ?_ | with_reducible refine Keeps.ite ?_ ?_ | split | (with_reducible apply Keeps.upd; with_reducible assumption)

theorem execStoreParameters_keeps {s₀ s : State} (h : Keeps s₀ s) : KeepsAns s₀ (execStoreParameters s) := by
  unfold execStoreParameters
  repeat' first | with_reducible assumption | with_reducible apply KeepsAns.next | with_reducible apply State.sdoArrive_keeps | with_reducible refine KeepsAns.ite ?_ ?_ | with_reducible refine Keeps.ite ?_ ?_

theorem execRestoreDefaults_keeps {s₀ s : State} (h : Keeps s₀ s) : KeepsAns s₀ (execRestoreDefaults s) := by
  unfold execRestoreDefaults
  repeat' first | with_reducible assumption | with_reducible apply KeepsAns.next | with_reducible apply State.sdoArrive_keeps | with_reducible refine KeepsAns.ite ?_ ?_ | with_reducible refine Keeps.ite ?_ ?_

theorem execCalSetWrite_keeps {s₀ s : State} (h : Keeps s₀ s) (payload : List (BitVec 8)) : KeepsAns s₀ (execCalSetWrite payload s) := by
  unfold execCalSetWrite
  repeat' first | with_reducible assumption | with_reducible apply KeepsAns.next | with_reducible apply State.sdoArrive_keeps | with_reducible refine KeepsAns.ite ?_ ?_ | with_reducible refine Keeps.ite ?_ ?_

theorem execCalStoreComplete_keeps {s₀ s : State} (h : Keeps s₀ s) (ok : Bool) : KeepsAns s₀ (execCalStoreComplete ok s) := by
  unfold execCalStoreComplete
  repeat' first | (extract_lets +onlyGivenNames z; first | (refine Keeps.cut (s₀ := s₀) z ?_ ?_; rotate_left; clear_value z; intro hz; rotate_left; subst z) | clear_value z) | with_reducible assumption | with_reducible apply KeepsAns.next | with_reducible apply State.calStored_keeps | with_reducible apply State.sdoAnswer_keeps | with_reducible refine KeepsAns.ite ?_ ?_ | with_reducible refine Keeps.ite ?_ ?_ | split | (with_reducible apply Keeps.upd; with_reducible assumption)

theorem execCulOdReq_keeps {s₀ s : State} (h : Keeps s₀ s) (east : Bool) (msg : List (BitVec 8)) : KeepsAns s₀ (execCulOdReq east msg s) := by
  unfold execCulOdReq
  try dsimp only
  repeat' first | with_reducible assumption | with_reducible apply KeepsAns.next | with_reducible apply State.culTake_keeps | with_reducible apply State.sdoArrive_keeps | (refine Keeps.of_snd ?_ (by assumption)) | with_reducible refine KeepsAns.ite ?_ ?_ | with_reducible refine Keeps.ite ?_ ?_ | with_reducible refine Keeps.ite_snd ?_ ?_ | with_reducible refine Keeps.ite_fst ?_ ?_ | split | dsimp only

theorem execCulOdRsp_keeps {s₀ s : State} (h : Keeps s₀ s) (east : Bool) (msg : List (BitVec 8)) : KeepsAns s₀ (execCulOdRsp east msg s) := by
  unfold execCulOdRsp
  repeat' first | (extract_lets +onlyGivenNames z; first | (refine Keeps.cut (s₀ := s₀) z ?_ ?_; rotate_left; clear_value z; intro hz; rotate_left; subst z) | (refine Keeps.cut (s₀ := s₀) (z : _ × State).2 ?_ ?_; rotate_left; clear_value z; intro hz; rotate_left; subst z) | (refine Keeps.cut (s₀ := s₀) (z : State × _).1 ?_ ?_; rotate_left; clear_value z; intro hz; rotate_left; subst z) | (refine Keeps.cut (s₀ := s₀) (z : _ × _ × State).2.2 ?_ ?_; rotate_left; clear_value z; intro hz; rotate_left; subst z) | clear_value z) | with_reducible assumption | with_reducible apply KeepsAns.next | with_reducible apply State.culTake_keeps | with_reducible apply State.culAnswered_keeps | with_reducible apply State.tunnelEnd_keeps | (refine Keeps.of_snd ?_ (by assumption)) | with_reducible refine KeepsAns.ite ?_ ?_ | with_reducible refine Keeps.ite ?_ ?_ | with_reducible refine Keeps.ite_snd ?_ ?_ | with_reducible refine Keeps.ite_fst ?_ ?_ | split | dsimp only

theorem execCulTunnelTimeout_keeps {s₀ s : State} (h : Keeps s₀ s) : KeepsAns s₀ (execCulTunnelTimeout s) := by
  unfold execCulTunnelTimeout
  repeat' first | with_reducible assumption | with_reducible apply KeepsAns.next | with_reducible apply State.culAnswered_keeps | with_reducible apply State.tunnelEnd_keeps | split

theorem State.writeAt_keeps {s₀ s : State} (h : Keeps s₀ s) (master : Nat) (off : Nat) (value : BitVec 32) : Keeps s₀ (State.writeAt s master off value) := by
  unfold State.writeAt
  try dsimp only
  repeat' first | with_reducible assumption | with_reducible apply State.hostWriteAt_keeps | with_reducible apply State.mbxGo_keeps | with_reducible refine Keeps.ite ?_ ?_

theorem execRegisterWrite_keeps {s₀ s : State} (h : Keeps s₀ s) (master : Nat) (off : Nat) (value : BitVec 32) (high : Option (BitVec 32)) : KeepsAns s₀ (execRegisterWrite master off value high s) := by
  unfold execRegisterWrite
  try dsimp only
  repeat' first | with_reducible assumption | with_reducible apply KeepsAns.next | with_reducible apply State.unsupported_keeps | with_reducible apply State.writeAt_keeps | with_reducible refine KeepsAns.ite ?_ ?_ | with_reducible refine Keeps.ite ?_ ?_ | split

end Sys2Proof.Machine
end

