-- ==== Sys2Proof/Laws/KeepEct.lean ====
section
/-! SUPPORT. What the operations of Machine/Ect.lean keep (Laws/Keep.lean). -/
namespace Sys2Proof.Machine
set_option Elab.async false
set_option linter.all false

theorem State.sampleTx_keeps {s₀ s : State} (h : Keeps s₀ s) : Keeps s₀ (State.sampleTx s) := by
  unfold State.sampleTx
  try dsimp only
  repeat' first | with_reducible assumption | (with_reducible apply Keeps.foldl; intro _ _ _) | with_reducible refine Keeps.ite ?_ ?_ | (with_reducible apply Keeps.upd; with_reducible assumption)

theorem State.applyEntry_keeps {s₀ s : State} (h : Keeps s₀ s) (index : Nat) (sub : Nat) (v : Nat) : Keeps s₀ (State.applyEntry s index sub v) := by
  unfold State.applyEntry
  try dsimp only
  repeat' first | with_reducible assumption | with_reducible apply State.odBytes_keeps | with_reducible apply State.odWriteObj_keeps | with_reducible apply State.satInc_keeps | with_reducible apply State.ectReport_keeps | (refine Keeps.of_snd ?_ (by assumption)) | with_reducible refine Keeps.ite ?_ ?_ | with_reducible refine Keeps.ite_snd ?_ ?_ | with_reducible refine Keeps.ite_fst ?_ ?_ | split | dsimp only

theorem execAlStateRequest_keeps {s₀ s : State} (h : Keeps s₀ s) (target : Nat) (station : BitVec 16) (mbxOk : Bool) (sm2 : Nat) (sm3 : Nat) (sync0 : Nat) (siiOk : Bool) : KeepsAns s₀ (execAlStateRequest target station mbxOk sm2 sm3 sync0 siiOk s) := by
  unfold execAlStateRequest
  repeat' first | (extract_lets +onlyGivenNames z; first | (refine Keeps.cut (s₀ := s₀) z ?_ ?_; rotate_left; clear_value z; intro hz; rotate_left; subst z) | clear_value z) | with_reducible assumption | with_reducible apply KeepsAns.next | with_reducible apply State.setF_keeps | with_reducible apply State.setAl_keeps | with_reducible apply State.satInc_keeps | with_reducible apply State.ectReport_keeps | with_reducible apply State.alDrop_keeps | with_reducible apply State.sampleTx_keeps | with_reducible refine KeepsAns.ite ?_ ?_ | with_reducible refine Keeps.ite ?_ ?_ | split | (with_reducible apply Keeps.upd; with_reducible assumption)

theorem execSm2Watchdog_keeps {s₀ s : State} (h : Keeps s₀ s) : KeepsAns s₀ (execSm2Watchdog s) := by
  unfold execSm2Watchdog
  repeat' first | with_reducible assumption | with_reducible apply KeepsAns.next | with_reducible apply State.alDrop_keeps | with_reducible apply State.setAl_keeps | with_reducible apply State.pdoLost_keeps | with_reducible refine KeepsAns.ite ?_ ?_ | with_reducible refine Keeps.ite ?_ ?_

theorem execRxpdoApply_keeps {s₀ s : State} (h : Keeps s₀ s) (data : List (BitVec 8)) : KeepsAns s₀ (execRxpdoApply data s) := by
  unfold execRxpdoApply
  try dsimp only
  repeat' first | with_reducible assumption | with_reducible apply KeepsAns.next | with_reducible apply State.applyEntry_keeps | (with_reducible apply Keeps.foldl; intro _ _ _) | with_reducible refine KeepsAns.ite ?_ ?_ | with_reducible refine Keeps.ite ?_ ?_ | (with_reducible apply Keeps.upd; with_reducible assumption)

theorem State.measureDc_keeps {s₀ s : State} (h : Keeps s₀ s) (dcTime : BitVec 64) : Keeps s₀ (State.measureDc s dcTime) := by
  unfold State.measureDc
  try dsimp only
  repeat' first | with_reducible assumption | with_reducible apply State.set64_keeps

theorem execSync0Edge_keeps {s₀ s : State} (h : Keeps s₀ s) (dcTime : BitVec 64) (fresh : Bool) : KeepsAns s₀ (execSync0Edge dcTime fresh s) := by
  unfold execSync0Edge
  repeat' first | (extract_lets +onlyGivenNames z; first | (refine Keeps.cut (s₀ := s₀) z ?_ ?_; rotate_left; clear_value z; intro hz; rotate_left; subst z) | clear_value z) | with_reducible assumption | with_reducible apply KeepsAns.next | with_reducible apply State.measureDc_keeps | with_reducible apply State.set64_keeps | with_reducible apply State.sampleTx_keeps | with_reducible apply State.setObj_keeps | with_reducible apply State.satInc_keeps | with_reducible apply State.ectReport_keeps | with_reducible refine KeepsAns.ite ?_ ?_ | with_reducible refine Keeps.ite ?_ ?_

theorem execSm3ReadComplete_keeps {s₀ s : State} (h : Keeps s₀ s) : KeepsAns s₀ (execSm3ReadComplete s) := by
  unfold execSm3ReadComplete
  repeat' first | with_reducible assumption | with_reducible apply KeepsAns.next | with_reducible apply State.sampleTx_keeps | with_reducible refine KeepsAns.ite ?_ ?_ | with_reducible refine Keeps.ite ?_ ?_

theorem execDcOffsetMeasure_keeps {s₀ s : State} (h : Keeps s₀ s) (dcTime : BitVec 64) : KeepsAns s₀ (execDcOffsetMeasure dcTime s) := by
  unfold execDcOffsetMeasure
  repeat' first | with_reducible assumption | with_reducible apply KeepsAns.next | with_reducible apply State.measureDc_keeps | with_reducible refine KeepsAns.ite ?_ ?_ | with_reducible refine Keeps.ite ?_ ?_

theorem execEctLinkChange_keeps {s₀ s : State} (h : Keeps s₀ s) (port : Nat) (up : Bool) : KeepsAns s₀ (execEctLinkChange port up s) := by
  unfold execEctLinkChange
  try dsimp only
  repeat' first | with_reducible assumption | with_reducible apply KeepsAns.next | with_reducible apply State.linkTo_keeps | with_reducible apply State.satInc_keeps | with_reducible refine KeepsAns.ite ?_ ?_ | with_reducible refine Keeps.ite ?_ ?_

theorem State.foeReply_keeps {s₀ s : State} (h : Keeps s₀ s) (op : Nat) (v : Nat) : Keeps s₀ (State.foeReply s op v) := by
  unfold State.foeReply
  repeat' first | with_reducible assumption | with_reducible apply State.emit_keeps

theorem State.foeError_keeps {s₀ s : State} (h : Keeps s₀ s) (code : Nat) : Keeps s₀ (State.foeError s code) := by
  unfold State.foeError
  try dsimp only
  repeat' first | with_reducible assumption | with_reducible apply State.foeReply_keeps | (with_reducible apply Keeps.upd; with_reducible assumption)

theorem State.foeTake_keeps {s₀ s : State} (h : Keeps s₀ s) (x : Foe) : Keeps s₀ (State.foeTake s x) := by
  unfold State.foeTake
  repeat' first | (extract_lets +onlyGivenNames z; first | (refine Keeps.cut (s₀ := s₀) z ?_ ?_; rotate_left; clear_value z; intro hz; rotate_left; subst z) | clear_value z) | with_reducible assumption | with_reducible apply State.emit_keeps | with_reducible apply State.otpInternal_keeps | with_reducible refine Keeps.ite ?_ ?_ | (with_reducible apply Keeps.upd; with_reducible assumption)

theorem execFoeWrite_keeps {s₀ s : State} (h : Keeps s₀ s) (name : String) (password : BitVec 32) (packet : Nat) (data : List (BitVec 8)) (last : Bool) : KeepsAns s₀ (execFoeWrite name password packet data last s) := by
  unfold execFoeWrite
  repeat' first | (extract_lets +onlyGivenNames z; first | (refine Keeps.cut (s₀ := s₀) z ?_ ?_; rotate_left; clear_value z; intro hz; rotate_left; subst z) | clear_value z) | with_reducible assumption | with_reducible apply KeepsAns.next | with_reducible apply State.foeError_keeps | with_reducible apply State.foeReply_keeps | with_reducible apply State.emit_keeps | with_reducible apply State.foeTake_keeps | with_reducible refine KeepsAns.ite ?_ ?_ | with_reducible refine Keeps.ite ?_ ?_ | split | (with_reducible apply Keeps.upd; with_reducible assumption)

theorem execFoeRead_keeps {s₀ s : State} (h : Keeps s₀ s) (name : String) : KeepsAns s₀ (execFoeRead name s) := by
  unfold execFoeRead
  repeat' first | with_reducible assumption | with_reducible apply KeepsAns.next | with_reducible apply State.foeReply_keeps | with_reducible refine KeepsAns.ite ?_ ?_ | with_reducible refine Keeps.ite ?_ ?_

theorem execMailboxUnsupported_keeps {s₀ s : State} (h : Keeps s₀ s) (protocol : Nat) : KeepsAns s₀ (execMailboxUnsupported protocol s) := by
  unfold execMailboxUnsupported
  repeat' first | with_reducible assumption | with_reducible apply KeepsAns.next | with_reducible apply State.emit_keeps | with_reducible refine KeepsAns.ite ?_ ?_ | with_reducible refine Keeps.ite ?_ ?_

end Sys2Proof.Machine
end

