-- ==== Sys2Proof/Laws/KeepBoot.lean ====
section
/-! SUPPORT. What the operations of Machine/Boot.lean keep (Laws/Keep.lean). -/
namespace Sys2Proof.Machine
set_option Elab.async false
set_option linter.all false

theorem State.raisePmic_keeps {s₀ s : State} (h : Keeps s₀ s) (i : Nat) : Keeps s₀ (State.raisePmic s i) := by
  unfold State.raisePmic
  repeat' first | (extract_lets +onlyGivenNames z; first | (refine Keeps.cut (s₀ := s₀) z ?_ ?_; rotate_left; clear_value z; intro hz; rotate_left; subst z) | clear_value z) | with_reducible assumption | with_reducible apply State.setPmicEn_keeps | with_reducible apply State.stageTo_keeps | (with_reducible apply Keeps.upd; with_reducible assumption)

theorem State.bootStart_keeps {s₀ s : State} (h : Keeps s₀ s) (cause : Nat) : Keeps s₀ (State.bootStart s cause) := by
  unfold State.bootStart
  repeat' first | (extract_lets +onlyGivenNames z; first | (refine Keeps.cut (s₀ := s₀) z ?_ ?_; rotate_left; clear_value z; intro hz; rotate_left; subst z) | clear_value z) | with_reducible assumption | with_reducible apply State.setF_keeps | with_reducible apply State.hdgSync_keeps | with_reducible apply State.raisePmic_keeps | (with_reducible apply Keeps.upd; with_reducible assumption)

theorem State.bootRom_keeps {s₀ s : State} (h : Keeps s₀ s) : Keeps s₀ (State.bootRom s) := by
  unfold State.bootRom
  repeat' first | (extract_lets +onlyGivenNames z; first | (refine Keeps.cut (s₀ := s₀) z ?_ ?_; rotate_left; clear_value z; intro hz; rotate_left; subst z) | clear_value z) | with_reducible assumption | with_reducible apply State.otpShow_keeps | with_reducible apply State.stageTo_keeps | with_reducible apply State.pllSearch_keeps | with_reducible apply State.modPll_keeps | with_reducible apply State.scanRing_keeps | with_reducible apply State.wrapInc_keeps | (with_reducible apply Keeps.foldl; intro _ _ _) | with_reducible refine Keeps.ite ?_ ?_ | (with_reducible apply Keeps.upd; with_reducible assumption)

theorem execPmicPowerGood_keeps {s₀ s : State} (h : Keeps s₀ s) (enable : Nat) : KeepsAns s₀ (execPmicPowerGood enable s) := by
  unfold execPmicPowerGood
  repeat' first | with_reducible assumption | with_reducible apply KeepsAns.next | with_reducible apply State.raisePmic_keeps | with_reducible apply State.bootRom_keeps | with_reducible refine KeepsAns.ite ?_ ?_ | with_reducible refine Keeps.ite ?_ ?_

theorem execPmicEnableTimeout_keeps {s₀ s : State} (h : Keeps s₀ s) (enable : Nat) : KeepsAns s₀ (execPmicEnableTimeout enable s) := by
  unfold execPmicEnableTimeout
  repeat' first | (extract_lets +onlyGivenNames z; first | (refine Keeps.cut (s₀ := s₀) z ?_ ?_; rotate_left; clear_value z; intro hz; rotate_left; subst z) | clear_value z) | with_reducible assumption | with_reducible apply KeepsAns.next | with_reducible apply State.pmicOff_keeps | with_reducible apply State.lastWord_keeps | with_reducible apply State.setF_keeps | with_reducible apply State.hdgSync_keeps | with_reducible refine KeepsAns.ite ?_ ?_ | with_reducible refine Keeps.ite ?_ ?_ | (with_reducible apply Keeps.upd; with_reducible assumption)

theorem execPmicRetry_keeps {s₀ s : State} (h : Keeps s₀ s) : KeepsAns s₀ (execPmicRetry s) := by
  unfold execPmicRetry
  repeat' first | with_reducible assumption | with_reducible apply KeepsAns.next | with_reducible apply State.raisePmic_keeps | with_reducible refine KeepsAns.ite ?_ ?_ | with_reducible refine Keeps.ite ?_ ?_

theorem execWakeNFall_keeps {s₀ s : State} (h : Keeps s₀ s) : KeepsAns s₀ (execWakeNFall s) := by
  unfold execWakeNFall
  repeat' first | with_reducible assumption | with_reducible apply KeepsAns.next | with_reducible apply State.bootStart_keeps | with_reducible refine KeepsAns.ite ?_ ?_ | with_reducible refine Keeps.ite ?_ ?_

theorem execDcWakeTimer_keeps {s₀ s : State} (h : Keeps s₀ s) : KeepsAns s₀ (execDcWakeTimer s) := by
  unfold execDcWakeTimer
  repeat' first | with_reducible assumption | with_reducible apply KeepsAns.next | with_reducible apply State.bootStart_keeps | with_reducible refine KeepsAns.ite ?_ ?_ | with_reducible refine Keeps.ite ?_ ?_

theorem execThermalRestart_keeps {s₀ s : State} (h : Keeps s₀ s) : KeepsAns s₀ (execThermalRestart s) := by
  unfold execThermalRestart
  repeat' first | with_reducible assumption | with_reducible apply KeepsAns.next | with_reducible apply State.setF_keeps | with_reducible apply State.bootStart_keeps | with_reducible refine KeepsAns.ite ?_ ?_ | with_reducible refine Keeps.ite ?_ ?_

theorem State.pinsDark_keeps {s₀ s : State} (h : Keeps s₀ s) : Keeps s₀ (State.pinsDark s) := by
  unfold State.pinsDark
  repeat' first | (extract_lets +onlyGivenNames z; first | (refine Keeps.cut (s₀ := s₀) z ?_ ?_; rotate_left; clear_value z; intro hz; rotate_left; subst z) | clear_value z) | with_reducible assumption | with_reducible apply State.drivePin_keeps | with_reducible apply State.aliveStop_keeps | with_reducible apply State.railsOff_keeps | with_reducible apply State.pmicOff_keeps | with_reducible apply State.setSpool_keeps | (with_reducible apply Keeps.foldl; intro _ _ _)

theorem State.cold_keeps {s₀ s : State} (h : Keeps s₀ s) (lw : List (EvrRec × Bool)) : Keeps s₀ (State.cold s lw) :=
  Keeps.of_nil h rfl rfl rfl rfl rfl rfl rfl rfl

theorem State.porBase_keeps {s₀ s : State} (h : Keeps s₀ s) (aonLost : Bool) : Keeps s₀ (State.porBase s aonLost) := by
  unfold State.porBase
  try dsimp only
  repeat' first | with_reducible assumption | with_reducible apply State.pinsDark_keeps | with_reducible apply State.otpCut_keeps | with_reducible apply State.cold_keeps | with_reducible apply State.setF_keeps | with_reducible refine Keeps.ite ?_ ?_

theorem State.factoryTaps_keeps {s₀ s : State} (h : Keeps s₀ s) : Keeps s₀ (State.factoryTaps s) := by
  unfold State.factoryTaps
  try dsimp only
  repeat' first | with_reducible assumption | with_reducible apply State.setF_keeps | (with_reducible apply Keeps.foldl; intro _ _ _) | with_reducible refine Keeps.ite ?_ ?_

theorem execPowerOnReset_keeps {s₀ s : State} (h : Keeps s₀ s) (strap : Bool) (testMode : Bool) (siiOk : Bool) : KeepsAns s₀ (execPowerOnReset strap testMode siiOk s) := by
  unfold execPowerOnReset
  repeat' first | (extract_lets +onlyGivenNames z; first | (refine Keeps.cut (s₀ := s₀) z ?_ ?_; rotate_left; clear_value z; intro hz; rotate_left; subst z) | clear_value z) | with_reducible assumption | with_reducible apply KeepsAns.next | with_reducible apply State.porBase_keeps | with_reducible apply State.latchFuses_keeps | with_reducible apply State.otpShow_keeps | with_reducible apply State.factoryTaps_keeps | with_reducible apply State.setF_keeps | with_reducible apply State.setB_keeps | with_reducible apply State.bootStart_keeps | with_reducible refine KeepsAns.ite ?_ ?_ | with_reducible refine Keeps.ite ?_ ?_ | (with_reducible apply Keeps.upd; with_reducible assumption)

theorem execVddAonLow_keeps {s₀ s : State} (h : Keeps s₀ s) : KeepsAns s₀ (execVddAonLow s) := by
  unfold execVddAonLow
  repeat' first | with_reducible assumption | with_reducible apply KeepsAns.next | with_reducible apply State.porBase_keeps

theorem execSysResetAssert_keeps {s₀ s : State} (h : Keeps s₀ s) : KeepsAns s₀ (execSysResetAssert s) := by
  unfold execSysResetAssert
  repeat' first | (extract_lets +onlyGivenNames z; first | (refine Keeps.cut (s₀ := s₀) z ?_ ?_; rotate_left; clear_value z; intro hz; rotate_left; subst z) | clear_value z) | with_reducible assumption | with_reducible apply KeepsAns.next | with_reducible apply State.hdgSync_keeps | with_reducible apply State.aliveStop_keeps | with_reducible apply State.lastWord_keeps | with_reducible apply State.seqStop_keeps | with_reducible apply State.railSync_keeps | with_reducible apply State.engineStop_keeps | with_reducible apply State.darken_keeps | with_reducible apply State.gatesShut_keeps | with_reducible apply State.setF_keeps | with_reducible apply State.setB_keeps | with_reducible refine KeepsAns.ite ?_ ?_ | with_reducible refine Keeps.ite ?_ ?_ | (with_reducible apply Keeps.upd; with_reducible assumption)

theorem execSysResetRelease_keeps {s₀ s : State} (h : Keeps s₀ s) : KeepsAns s₀ (execSysResetRelease s) := by
  unfold execSysResetRelease
  try dsimp only
  repeat' first | with_reducible assumption | with_reducible apply KeepsAns.next | with_reducible apply State.setF_keeps | with_reducible apply State.hdgSync_keeps | with_reducible apply State.railSync_keeps | with_reducible apply State.bootRom_keeps | with_reducible refine KeepsAns.ite ?_ ?_ | with_reducible refine Keeps.ite ?_ ?_ | (with_reducible apply Keeps.upd; with_reducible assumption)

theorem execDramTrained_keeps {s₀ s : State} (h : Keeps s₀ s) (ok : Bool) (channel : Nat) (installed : Nat) : KeepsAns s₀ (execDramTrained ok channel installed s) := by
  unfold execDramTrained
  repeat' first | (extract_lets +onlyGivenNames z; first | (refine Keeps.cut (s₀ := s₀) z ?_ ?_; rotate_left; clear_value z; intro hz; rotate_left; subst z) | (refine Keeps.cut (s₀ := s₀) (z : _ × State).2 ?_ ?_; rotate_left; clear_value z; intro hz; rotate_left; subst z) | (refine Keeps.cut (s₀ := s₀) (z : State × _).1 ?_ ?_; rotate_left; clear_value z; intro hz; rotate_left; subst z) | (refine Keeps.cut (s₀ := s₀) (z : _ × _ × State).2.2 ?_ ?_; rotate_left; clear_value z; intro hz; rotate_left; subst z) | clear_value z) | with_reducible assumption | with_reducible apply KeepsAns.next | with_reducible apply State.setF_keeps | with_reducible apply State.bootStop_keeps | with_reducible apply State.drawn_keeps | with_reducible apply State.stageTo_keeps | (refine Keeps.of_snd ?_ (by assumption)) | with_reducible refine KeepsAns.ite ?_ ?_ | with_reducible refine Keeps.ite ?_ ?_ | with_reducible refine Keeps.ite_snd ?_ ?_ | with_reducible refine Keeps.ite_fst ?_ ?_ | split | (with_reducible apply Keeps.upd; first | with_reducible assumption | with_reducible apply State.setF_keeps | with_reducible apply State.bootStop_keeps | with_reducible apply State.drawn_keeps | with_reducible apply State.stageTo_keeps) | dsimp only

theorem State.restoreEntry_keeps {s₀ s : State} (h : Keeps s₀ s) (e : Nat × Nat × List Byte) : Keeps s₀ (State.restoreEntry s e) := by
  unfold State.restoreEntry
  try dsimp only
  repeat' first | with_reducible assumption | with_reducible apply State.setF_keeps | with_reducible apply State.odWrite_keeps | with_reducible apply State.satInc_keeps | with_reducible apply State.report_keeps | (refine Keeps.of_snd ?_ (by assumption)) | with_reducible refine Keeps.ite ?_ ?_ | with_reducible refine Keeps.ite_snd ?_ ?_ | with_reducible refine Keeps.ite_fst ?_ ?_ | split | dsimp only

theorem State.restoreCal_keeps {s₀ s : State} (h : Keeps s₀ s) : Keeps s₀ (State.restoreCal s) := by
  unfold State.restoreCal
  try dsimp only
  repeat' first | with_reducible assumption | with_reducible apply State.calShow_keeps | with_reducible apply State.report_keeps | with_reducible apply State.record_keeps | with_reducible apply State.setF_keeps | with_reducible apply State.restoreEntry_keeps | (with_reducible apply Keeps.foldl; intro _ _ _) | with_reducible refine Keeps.ite ?_ ?_ | split

theorem State.divideDram_keeps {s₀ s : State} (h : Keeps s₀ s) : Keeps s₀ (State.divideDram s) := by
  unfold State.divideDram
  try dsimp only
  repeat' first | with_reducible assumption | with_reducible apply State.capture_keeps | with_reducible apply State.report_keeps | with_reducible refine Keeps.ite ?_ ?_ | (with_reducible apply Keeps.upd; with_reducible assumption)

theorem State.startCores_keeps {s₀ s : State} (h : Keeps s₀ s) (slot : Nat) (svn : Nat) (fallback : Bool) (journalOk : Bool) (burnOk : Bool) : Keeps s₀ (State.startCores s slot svn fallback journalOk burnOk) := by
  unfold State.startCores
  repeat' first | (extract_lets +onlyGivenNames z; first | (refine Keeps.cut (s₀ := s₀) z ?_ ?_; rotate_left; clear_value z; intro hz; rotate_left; subst z) | clear_value z) | with_reducible assumption | with_reducible apply State.setF_keeps | with_reducible apply State.setB_keeps | with_reducible apply State.secReport_keeps | with_reducible apply State.drew_keeps | with_reducible apply State.stageTo_keeps | with_reducible apply State.flushLastWords_keeps | with_reducible apply State.record_keeps | with_reducible apply State.restoreCal_keeps | with_reducible apply State.divideDram_keeps | with_reducible apply State.startEpoch_keeps | with_reducible apply State.setPower_keeps | with_reducible refine Keeps.ite ?_ ?_ | (with_reducible apply Keeps.upd; with_reducible assumption)

theorem execFirmwareVerified_keeps {s₀ s : State} (h : Keeps s₀ s) (dir : Nat × Nat × Nat) (hdrA : Option (List (BitVec 8))) (payA : List (BitVec 8)) (hdrB : Option (List (BitVec 8))) (payB : List (BitVec 8)) (journalOk : Bool) (burnOk : Bool) : KeepsAns s₀ (execFirmwareVerified dir hdrA payA hdrB payB journalOk burnOk s) := by
  unfold execFirmwareVerified
  try dsimp only
  repeat' first | with_reducible assumption | with_reducible apply KeepsAns.next | with_reducible apply State.startCores_keeps | with_reducible apply State.bootStop_keeps | with_reducible refine KeepsAns.ite ?_ ?_ | with_reducible refine Keeps.ite ?_ ?_ | (with_reducible apply Keeps.upd; with_reducible assumption)

end Sys2Proof.Machine
end

