-- ==== Sys2Proof/Laws/KeepJtag.lean ====
section
/-! SUPPORT. What the operations of Machine/Jtag.lean keep (Laws/Keep.lean). -/
namespace Sys2Proof.Machine
set_option Elab.async false
set_option linter.all false

theorem State.setIr_keeps {s₀ s : State} (h : Keeps s₀ s) (ir : BitVec 8) : Keeps s₀ (State.setIr s ir) := by
  unfold State.setIr
  try dsimp only
  repeat' first | with_reducible assumption | (with_reducible apply Keeps.upd; with_reducible assumption)

theorem State.shiftOut_keeps {s₀ s : State} (h : Keeps s₀ s) (status : Nat) (data : Nat) : Keeps s₀ (State.shiftOut s status data) := by
  unfold State.shiftOut
  repeat' first | with_reducible assumption | with_reducible apply State.emit_keeps

theorem State.bypass_keeps {s₀ s : State} (h : Keeps s₀ s) : Keeps s₀ (State.bypass s) := by
  unfold State.bypass
  repeat' first | with_reducible assumption | with_reducible apply State.setIr_keeps | with_reducible apply State.shiftOut_keeps

theorem execJtagBypass_keeps {s₀ s : State} (h : Keeps s₀ s) : KeepsAns s₀ (execJtagBypass s) := by
  unfold execJtagBypass
  repeat' first | with_reducible assumption | with_reducible apply KeepsAns.next | with_reducible apply State.bypass_keeps | with_reducible refine KeepsAns.ite ?_ ?_ | with_reducible refine Keeps.ite ?_ ?_

theorem execJtagIdcode_keeps {s₀ s : State} (h : Keeps s₀ s) : KeepsAns s₀ (execJtagIdcode s) := by
  unfold execJtagIdcode
  repeat' first | with_reducible assumption | with_reducible apply KeepsAns.next | with_reducible apply State.setIr_keeps | with_reducible apply State.shiftOut_keeps | with_reducible refine KeepsAns.ite ?_ ?_ | with_reducible refine Keeps.ite ?_ ?_

theorem execJtagSamplePreload_keeps {s₀ s : State} (h : Keeps s₀ s) (cells : List Bool) : KeepsAns s₀ (execJtagSamplePreload cells s) := by
  unfold execJtagSamplePreload
  repeat' first | (extract_lets +onlyGivenNames z; first | (refine Keeps.cut (s₀ := s₀) z ?_ ?_; rotate_left; clear_value z; intro hz; rotate_left; subst z) | clear_value z) | with_reducible assumption | with_reducible apply KeepsAns.next | with_reducible apply State.setIr_keeps | with_reducible apply State.shiftOut_keeps | with_reducible apply State.drew_keeps | with_reducible refine KeepsAns.ite ?_ ?_ | with_reducible refine Keeps.ite ?_ ?_ | (with_reducible apply Keeps.upd; with_reducible assumption)

theorem State.pinTest_keeps {s₀ s : State} (h : Keeps s₀ s) (ir : BitVec 8) : Keeps s₀ (State.pinTest s ir) := by
  unfold State.pinTest
  repeat' first | with_reducible assumption | with_reducible apply State.setIr_keeps | with_reducible apply State.report_keeps | with_reducible refine Keeps.ite ?_ ?_

theorem execJtagExtest_keeps {s₀ s : State} (h : Keeps s₀ s) : KeepsAns s₀ (execJtagExtest s) := by
  unfold execJtagExtest
  repeat' first | with_reducible assumption | with_reducible apply KeepsAns.next | with_reducible apply State.pinTest_keeps

theorem execJtagClamp_keeps {s₀ s : State} (h : Keeps s₀ s) : KeepsAns s₀ (execJtagClamp s) := by
  unfold execJtagClamp
  repeat' first | with_reducible assumption | with_reducible apply KeepsAns.next | with_reducible apply State.pinTest_keeps

theorem execJtagHighz_keeps {s₀ s : State} (h : Keeps s₀ s) : KeepsAns s₀ (execJtagHighz s) := by
  unfold execJtagHighz
  repeat' first | with_reducible assumption | with_reducible apply KeepsAns.next | with_reducible apply State.pinTest_keeps

theorem State.tapRead_keeps {s₀ s : State} (h : Keeps s₀ s) (off : Nat) : Keeps s₀ (State.tapRead s off).2 := by
  unfold State.tapRead
  try dsimp only
  repeat' first | with_reducible assumption | with_reducible apply State.reportAccess_keeps | with_reducible apply State.drawChallenge_keeps | with_reducible refine Keeps.ite ?_ ?_ | with_reducible refine Keeps.ite_snd ?_ ?_ | with_reducible refine Keeps.ite_fst ?_ ?_ | split | dsimp only

theorem execJtagSecMbx_keeps {s₀ s : State} (h : Keeps s₀ s) (write : Bool) (off : Nat) (data : BitVec 32) : KeepsAns s₀ (execJtagSecMbx write off data s) := by
  unfold execJtagSecMbx
  repeat' first | (extract_lets +onlyGivenNames z; first | (refine Keeps.cut (s₀ := s₀) z ?_ ?_; rotate_left; clear_value z; intro hz; rotate_left; subst z) | (refine Keeps.cut (s₀ := s₀) (z : _ × State).2 ?_ ?_; rotate_left; clear_value z; intro hz; rotate_left; subst z) | (refine Keeps.cut (s₀ := s₀) (z : State × _).1 ?_ ?_; rotate_left; clear_value z; intro hz; rotate_left; subst z) | (refine Keeps.cut (s₀ := s₀) (z : _ × _ × State).2.2 ?_ ?_; rotate_left; clear_value z; intro hz; rotate_left; subst z) | clear_value z) | with_reducible assumption | with_reducible apply KeepsAns.next | with_reducible apply State.shiftOut_keeps | with_reducible apply State.regWrite_keeps | with_reducible apply State.tapRead_keeps | (refine Keeps.of_snd ?_ (by assumption)) | with_reducible refine KeepsAns.ite ?_ ?_ | with_reducible refine Keeps.ite ?_ ?_ | with_reducible refine Keeps.ite_snd ?_ ?_ | with_reducible refine Keeps.ite_fst ?_ ?_ | split | (with_reducible apply Keeps.upd; first | with_reducible assumption | with_reducible apply State.shiftOut_keeps | with_reducible apply State.regWrite_keeps | with_reducible apply State.tapRead_keeps) | dsimp only

theorem State.dbgControl_keeps {s₀ s : State} (h : Keeps s₀ s) (op : Nat) (addr : BitVec 64) (data : BitVec 64) : Keeps s₀ (State.dbgControl s op addr data) := by
  unfold State.dbgControl
  try dsimp only
  repeat' first | with_reducible assumption | with_reducible apply State.regWrite_keeps | with_reducible apply State.shiftOut_keeps | (with_reducible apply Keeps.dram; with_reducible assumption) | with_reducible refine Keeps.ite ?_ ?_ | (with_reducible apply Keeps.upd; with_reducible assumption)

theorem execJtagDbgAccess_keeps {s₀ s : State} (h : Keeps s₀ s) (op : Nat) (addr : BitVec 64) (data : BitVec 64) : KeepsAns s₀ (execJtagDbgAccess op addr data s) := by
  unfold execJtagDbgAccess
  repeat' first | (extract_lets +onlyGivenNames z; first | (refine Keeps.cut (s₀ := s₀) z ?_ ?_; rotate_left; clear_value z; intro hz; rotate_left; subst z) | (refine Keeps.cut (s₀ := s₀) (z : _ × State).2 ?_ ?_; rotate_left; clear_value z; intro hz; rotate_left; subst z) | (refine Keeps.cut (s₀ := s₀) (z : State × _).1 ?_ ?_; rotate_left; clear_value z; intro hz; rotate_left; subst z) | (refine Keeps.cut (s₀ := s₀) (z : _ × _ × State).2.2 ?_ ?_; rotate_left; clear_value z; intro hz; rotate_left; subst z) | clear_value z) | with_reducible assumption | with_reducible apply KeepsAns.next | with_reducible apply State.bypass_keeps | with_reducible apply State.setIr_keeps | with_reducible apply State.tapRead_keeps | with_reducible apply State.shiftOut_keeps | with_reducible apply State.dbgControl_keeps | (refine Keeps.of_snd ?_ (by assumption)) | with_reducible refine KeepsAns.ite ?_ ?_ | with_reducible refine Keeps.ite ?_ ?_ | with_reducible refine Keeps.ite_snd ?_ ?_ | with_reducible refine Keeps.ite_fst ?_ ?_ | split | dsimp only

theorem execJtagOtpAccess_keeps {s₀ s : State} (h : Keeps s₀ s) (op : Nat) (addr : Nat) (data : BitVec 64) : KeepsAns s₀ (execJtagOtpAccess op addr data s) := by
  unfold execJtagOtpAccess
  repeat' first | with_reducible assumption | with_reducible apply KeepsAns.next | with_reducible apply State.bypass_keeps | with_reducible apply State.setIr_keeps | with_reducible apply State.otpCmd_keeps | with_reducible apply State.shiftOut_keeps | with_reducible refine KeepsAns.ite ?_ ?_ | with_reducible refine Keeps.ite ?_ ?_

end Sys2Proof.Machine
end

