-- ==== Sys2Proof/Laws/KeepLine.lean ====
section
/-! SUPPORT. What the operations of Machine/Line.lean keep (Laws/Keep.lean). -/
namespace Sys2Proof.Machine
set_option Elab.async false
set_option linter.all false

theorem execCulPartCommit_keeps {s₀ s : State} (h : Keeps s₀ s) (east : Bool) (msg : List (BitVec 8)) : KeepsAns s₀ (execCulPartCommit east msg s) := by
  unfold execCulPartCommit
  repeat' first | (extract_lets +onlyGivenNames z; first | (refine Keeps.cut (s₀ := s₀) z ?_ ?_; rotate_left; clear_value z; intro hz; rotate_left; subst z) | (refine Keeps.cut (s₀ := s₀) (z : _ × State).2 ?_ ?_; rotate_left; clear_value z; intro hz; rotate_left; subst z) | (refine Keeps.cut (s₀ := s₀) (z : State × _).1 ?_ ?_; rotate_left; clear_value z; intro hz; rotate_left; subst z) | (refine Keeps.cut (s₀ := s₀) (z : _ × _ × State).2.2 ?_ ?_; rotate_left; clear_value z; intro hz; rotate_left; subst z) | clear_value z) | with_reducible assumption | with_reducible apply KeepsAns.next | with_reducible apply State.culTake_keeps | (refine Keeps.of_snd ?_ (by assumption)) | with_reducible refine KeepsAns.ite ?_ ?_ | with_reducible refine Keeps.ite ?_ ?_ | with_reducible refine Keeps.ite_snd ?_ ?_ | with_reducible refine Keeps.ite_fst ?_ ?_ | split | (with_reducible apply Keeps.upd; first | with_reducible assumption | with_reducible apply State.culTake_keeps) | dsimp only

theorem State.spoilPart_keeps {s₀ s : State} (h : Keeps s₀ s) (id : BitVec 64) : Keeps s₀ (State.spoilPart s id) := by
  unfold State.spoilPart
  repeat' first | with_reducible assumption | with_reducible apply State.spoilPage_keeps | split

theorem State.sendSpoil_keeps {s₀ s : State} (h : Keeps s₀ s) (id : BitVec 64) : Keeps s₀ (State.sendSpoil s id) := by
  unfold State.sendSpoil
  repeat' first | with_reducible assumption | with_reducible apply State.culBroadcast_keeps

theorem State.lateLine_keeps {s₀ s : State} (h : Keeps s₀ s) (l : LinePage) : Keeps s₀ (State.lateLine s l) := by
  unfold State.lateLine
  repeat' first | (extract_lets +onlyGivenNames z; first | (refine Keeps.cut (s₀ := s₀) z ?_ ?_; rotate_left; clear_value z; intro hz; rotate_left; subst z) | clear_value z) | with_reducible assumption | with_reducible apply State.modLine_keeps | with_reducible apply State.sendSchedule_keeps | with_reducible apply State.latch_keeps | with_reducible apply State.sendSpoil_keeps | with_reducible apply State.spoilPart_keeps | split | (with_reducible apply Keeps.upd; with_reducible assumption)

theorem State.joinLine_keeps {s₀ s : State} (h : Keeps s₀ s) (l : LinePage) (t : Nat) (x : CulPart) : Keeps s₀ (State.joinLine s l t x) := by
  unfold State.joinLine
  repeat' first | (extract_lets +onlyGivenNames z; first | (refine Keeps.cut (s₀ := s₀) z ?_ ?_; rotate_left; clear_value z; intro hz; rotate_left; subst z) | clear_value z) | with_reducible assumption | with_reducible apply State.remain_keeps | with_reducible apply State.latch_keeps | with_reducible apply State.modLine_keeps | with_reducible apply State.sendSchedule_keeps | with_reducible refine Keeps.ite ?_ ?_ | (with_reducible apply Keeps.upd; with_reducible assumption)

theorem State.takePart_keeps {s₀ s : State} (h : Keeps s₀ s) (x : CulPart) : Keeps s₀ (State.takePart s x) := by
  unfold State.takePart
  try dsimp only
  repeat' first | with_reducible assumption | with_reducible apply State.claims_keeps | with_reducible apply State.sendSpoil_keeps | with_reducible apply State.spoilPart_keeps | with_reducible apply State.lateLine_keeps | with_reducible apply State.modLine_keeps | with_reducible apply State.remain_keeps | with_reducible apply State.latch_keeps | with_reducible apply State.joinLine_keeps | with_reducible refine Keeps.ite ?_ ?_ | split | (with_reducible apply Keeps.upd; with_reducible assumption)

theorem execCulPartTake_keeps {s₀ s : State} (h : Keeps s₀ s) : KeepsAns s₀ (execCulPartTake s) := by
  unfold execCulPartTake
  try dsimp only
  repeat' first | with_reducible assumption | with_reducible apply KeepsAns.next | with_reducible apply State.takePart_keeps | with_reducible refine KeepsAns.ite ?_ ?_ | with_reducible refine Keeps.ite ?_ ?_ | split | (with_reducible apply Keeps.upd; with_reducible assumption)

theorem execCulPartResend_keeps {s₀ s : State} (h : Keeps s₀ s) (pageId : BitVec 64) : KeepsAns s₀ (execCulPartResend pageId s) := by
  unfold execCulPartResend
  try dsimp only
  repeat' first | with_reducible assumption | with_reducible apply KeepsAns.next | with_reducible apply State.culSend_keeps | with_reducible apply State.satInc_keeps | with_reducible refine KeepsAns.ite ?_ ?_ | with_reducible refine Keeps.ite ?_ ?_ | split | (with_reducible apply Keeps.upd; with_reducible assumption)

theorem State.takeSchedule_keeps {s₀ s : State} (h : Keeps s₀ s) (b : List Byte) : Keeps s₀ (State.takeSchedule s b) := by
  unfold State.takeSchedule
  try dsimp only
  repeat' first | with_reducible assumption | with_reducible apply State.latch_keeps | with_reducible apply State.layFrame_keeps | with_reducible refine Keeps.ite ?_ ?_ | (with_reducible apply Keeps.upd; with_reducible assumption)

theorem execCulSchedule_keeps {s₀ s : State} (h : Keeps s₀ s) (east : Bool) (msg : List (BitVec 8)) : KeepsAns s₀ (execCulSchedule east msg s) := by
  unfold execCulSchedule
  try dsimp only
  repeat' first | with_reducible assumption | with_reducible apply KeepsAns.next | with_reducible apply State.culTake_keeps | with_reducible apply State.takeSchedule_keeps | (refine Keeps.of_snd ?_ (by assumption)) | with_reducible refine KeepsAns.ite ?_ ?_ | with_reducible refine Keeps.ite ?_ ?_ | with_reducible refine Keeps.ite_snd ?_ ?_ | with_reducible refine Keeps.ite_fst ?_ ?_ | split | dsimp only

theorem execCulPageSpoil_keeps {s₀ s : State} (h : Keeps s₀ s) (east : Bool) (msg : List (BitVec 8)) : KeepsAns s₀ (execCulPageSpoil east msg s) := by
  unfold execCulPageSpoil
  try dsimp only
  repeat' first | with_reducible assumption | with_reducible apply KeepsAns.next | with_reducible apply State.culTake_keeps | with_reducible apply State.spoilPart_keeps | (refine Keeps.of_snd ?_ (by assumption)) | with_reducible refine KeepsAns.ite ?_ ?_ | with_reducible refine Keeps.ite ?_ ?_ | with_reducible refine Keeps.ite_snd ?_ ?_ | with_reducible refine Keeps.ite_fst ?_ ?_ | split | dsimp only

end Sys2Proof.Machine
end

