-- ==== Sys2Proof/Laws/KeepTick.lean ====
section
/-! SUPPORT. What the operations of Machine/Tick.lean keep (Laws/Keep.lean). -/
namespace Sys2Proof.Machine
set_option Elab.async false
set_option linter.all false

theorem State.steerTick_keeps {s₀ s : State} (h : Keeps s₀ s) : Keeps s₀ (State.steerTick s) := by
  unfold State.steerTick
  try dsimp only
  repeat' first | with_reducible assumption | with_reducible refine Keeps.ite ?_ ?_ | (with_reducible apply Keeps.upd; with_reducible assumption)

theorem State.coast_keeps {s₀ s : State} (h : Keeps s₀ s) : Keeps s₀ (State.coast s) := by
  unfold State.coast
  try dsimp only
  repeat' first | with_reducible assumption | with_reducible refine Keeps.ite ?_ ?_ | (with_reducible apply Keeps.upd; with_reducible assumption)

theorem State.remain_keeps {s₀ s : State} (h : Keeps s₀ s) : Keeps s₀ (State.remain s) := by
  unfold State.remain
  repeat' first | with_reducible assumption | with_reducible apply State.setF_keeps | with_reducible refine Keeps.ite ?_ ?_

theorem State.secondTick_keeps {s₀ s : State} (h : Keeps s₀ s) : Keeps s₀ (State.secondTick s) := by
  unfold State.secondTick
  repeat' first | with_reducible assumption | with_reducible apply State.wrapInc_keeps | with_reducible apply State.remain_keeps | with_reducible refine Keeps.ite ?_ ?_

theorem State.tick_keeps {s₀ s : State} (h : Keeps s₀ s) : Keeps s₀ (State.tick s) := by
  unfold State.tick
  repeat' first | with_reducible assumption | with_reducible apply State.steerTick_keeps | with_reducible apply State.coast_keeps | with_reducible apply State.secondTick_keeps | with_reducible refine Keeps.ite ?_ ?_

end Sys2Proof.Machine
end

