-- ==== Sys2Proof/Laws/PerInstr.lean ====
section
/-! SUPPORT. What holds of every command as it is formed, one lemma for each constructor. -/
namespace Sys2Proof.Laws
set_option Elab.async false

/-- A well-formed command that names a station names one of the twelve (R6). -/
def CommandForm.Statement (i : Instr) : Prop := i.wellFormed = true → ∀ st, i.station? = some st → st < 12

theorem CommandForm.registerWrite (master off : Nat) (value : BitVec 32) (high : Option (BitVec 32)) : CommandForm.Statement (.registerWrite master off value high) := fun _ _ e => nomatch e
theorem CommandForm.lowWordRead (fn off : Nat) (wide : Bool) : CommandForm.Statement (.lowWordRead fn off wide) := fun _ _ e => nomatch e
theorem CommandForm.reservedAccess (master off : Nat) (write : Option (BitVec 32)) : CommandForm.Statement (.reservedAccess master off write) := fun _ _ e => nomatch e
theorem CommandForm.unsupportedAccess (master off : Nat) (write : Bool) : CommandForm.Statement (.unsupportedAccess master off write) := fun _ _ e => nomatch e
theorem CommandForm.clockLoss (domain : Nat) : CommandForm.Statement (.clockLoss domain) := fun _ _ e => nomatch e
theorem CommandForm.coeSdoUpload (index sub : Nat) (complete : Bool) : CommandForm.Statement (.coeSdoUpload index sub complete) := fun _ _ e => nomatch e
theorem CommandForm.coeSdoDownload (index sub : Nat) (complete : Bool) (data : List (BitVec 8)) : CommandForm.Statement (.coeSdoDownload index sub complete data) := fun _ _ e => nomatch e
theorem CommandForm.coeSdoInformation (data : List (BitVec 8)) : CommandForm.Statement (.coeSdoInformation data) := fun _ _ e => nomatch e
theorem CommandForm.clockRelock (domain : Nat) : CommandForm.Statement (.clockRelock domain) := fun _ _ e => nomatch e
theorem CommandForm.pagePrint (fn : Nat) (desc : List (BitVec 8)) (src : Option (List (BitVec 8))) : CommandForm.Statement (.pagePrint fn desc src) := fun _ _ e => nomatch e
theorem CommandForm.pageReissue (fn : Nat) (desc : List (BitVec 8)) : CommandForm.Statement (.pageReissue fn desc) := fun _ _ e => nomatch e
theorem CommandForm.pageRelease (fn : Nat) (desc : List (BitVec 8)) : CommandForm.Statement (.pageRelease fn desc) := fun _ _ e => nomatch e
theorem CommandForm.pageCancel (fn : Nat) (desc : List (BitVec 8)) : CommandForm.Statement (.pageCancel fn desc) := fun _ _ e => nomatch e
theorem CommandForm.descriptorInvalid (fn : Nat) (desc : List (BitVec 8)) : CommandForm.Statement (.descriptorInvalid fn desc) := fun _ _ e => nomatch e
theorem CommandForm.stationLatch (st : Nat) : CommandForm.Statement (.stationLatch st) := by
  intro h st e; cases e; simp_all [Instr.wellFormed]
theorem CommandForm.pageTof (st : Nat) : CommandForm.Statement (.pageTof st) := by
  intro h st e; cases e; simp_all [Instr.wellFormed]
theorem CommandForm.pageLastLine (st : Nat) : CommandForm.Statement (.pageLastLine st) := by
  intro h st e; cases e; simp_all [Instr.wellFormed]
theorem CommandForm.pageGapOpen (st : Nat) : CommandForm.Statement (.pageGapOpen st) := by
  intro h st e; cases e; simp_all [Instr.wellFormed]
theorem CommandForm.sqDoorbell (fn tail : Nat) : CommandForm.Statement (.sqDoorbell fn tail) := fun _ _ e => nomatch e
theorem CommandForm.descriptorReadFailed (fn how : Nat) : CommandForm.Statement (.descriptorReadFailed fn how) := fun _ _ e => nomatch e
theorem CommandForm.cqHeadWrite (fn head : Nat) : CommandForm.Statement (.cqHeadWrite fn head) := fun _ _ e => nomatch e
theorem CommandForm.backlogDrain (fn : Nat) : CommandForm.Statement (.backlogDrain fn) := fun _ _ e => nomatch e
theorem CommandForm.cqCoalesceTimeout (fn : Nat) : CommandForm.Statement (.cqCoalesceTimeout fn) := fun _ _ e => nomatch e
theorem CommandForm.qEnable (fn : Nat) : CommandForm.Statement (.qEnable fn) := fun _ _ e => nomatch e
theorem CommandForm.qDisable (fn : Nat) : CommandForm.Statement (.qDisable fn) := fun _ _ e => nomatch e
theorem CommandForm.qPause (fn : Nat) : CommandForm.Statement (.qPause fn) := fun _ _ e => nomatch e
theorem CommandForm.qResume (fn : Nat) : CommandForm.Statement (.qResume fn) := fun _ _ e => nomatch e
theorem CommandForm.flrStart (fn : Nat) : CommandForm.Statement (.flrStart fn) := fun _ _ e => nomatch e
theorem CommandForm.flrComplete (fn : Nat) : CommandForm.Statement (.flrComplete fn) := fun _ _ e => nomatch e
theorem CommandForm.configRequest (fn : Nat) (write : Option (BitVec 32)) (off : Nat) : CommandForm.Statement (.configRequest fn write off) := fun _ _ e => nomatch e
theorem CommandForm.linkDown (hotReset : Bool) : CommandForm.Statement (.linkDown hotReset) := fun _ _ e => nomatch e
theorem CommandForm.linkUp (width speed corrected : Nat) : CommandForm.Statement (.linkUp width speed corrected) := fun _ _ e => nomatch e
theorem CommandForm.msixUnmask (fn vec : Nat) : CommandForm.Statement (.msixUnmask fn vec) := fun _ _ e => nomatch e
theorem CommandForm.d3hotEntry (fn : Nat) : CommandForm.Statement (.d3hotEntry fn) := fun _ _ e => nomatch e
theorem CommandForm.d0Return (fn : Nat) : CommandForm.Statement (.d0Return fn) := fun _ _ e => nomatch e
theorem CommandForm.chAssignWrite (ch : Nat) (value : BitVec 32) : CommandForm.Statement (.chAssignWrite ch value) := fun _ _ e => nomatch e
theorem CommandForm.fnWinWrite (fn : Nat) (value : BitVec 32) : CommandForm.Statement (.fnWinWrite fn value) := fun _ _ e => nomatch e
theorem CommandForm.chEnable (ch : Nat) : CommandForm.Statement (.chEnable ch) := fun _ _ e => nomatch e
theorem CommandForm.chDisable (ch : Nat) : CommandForm.Statement (.chDisable ch) := fun _ _ e => nomatch e
theorem CommandForm.chDoorbell (ch tail : Nat) : CommandForm.Statement (.chDoorbell ch tail) := fun _ _ e => nomatch e
theorem CommandForm.chAbort (ch : Nat) (resume : Bool) : CommandForm.Statement (.chAbort ch resume) := fun _ _ e => nomatch e
theorem CommandForm.chResume (ch : Nat) : CommandForm.Statement (.chResume ch) := fun _ _ e => nomatch e
theorem CommandForm.chDescriptorFetch (ch : Nat) : CommandForm.Statement (.chDescriptorFetch ch) := fun _ _ e => nomatch e
theorem CommandForm.chDescriptor (ch : Nat) (desc : Option (List (BitVec 8))) : CommandForm.Statement (.chDescriptor ch desc) := fun _ _ e => nomatch e
theorem CommandForm.sipBurst (ch : Nat) (data : List (BitVec 8)) (offs : List (BitVec 32)) (fail : Nat) : CommandForm.Statement (.sipBurst ch data offs fail) := fun _ _ e => nomatch e
theorem CommandForm.descriptorComplete (ch : Nat) : CommandForm.Statement (.descriptorComplete ch) := fun _ _ e => nomatch e
theorem CommandForm.barrierReadComplete (ch : Nat) (ok : Bool) : CommandForm.Statement (.barrierReadComplete ch ok) := fun _ _ e => nomatch e
theorem CommandForm.driveReady (d : Nat) (fits : Bool) (capacity : Nat) : CommandForm.Statement (.driveReady d fits capacity) := fun _ _ e => nomatch e
theorem CommandForm.driveReadyTimeout (d : Nat) : CommandForm.Statement (.driveReadyTimeout d) := fun _ _ e => nomatch e
theorem CommandForm.nvmeCommandComplete (id : Nat) (result : Nat) : CommandForm.Statement (.nvmeCommandComplete id result) := fun _ _ e => nomatch e
theorem CommandForm.nvmeCommandTimeout (id : Nat) : CommandForm.Statement (.nvmeCommandTimeout id) := fun _ _ e => nomatch e
theorem CommandForm.driveFailed (d : Nat) : CommandForm.Statement (.driveFailed d) := fun _ _ e => nomatch e
theorem CommandForm.epochRollover (journalOk burnOk saltOk : Bool) : CommandForm.Statement (.epochRollover journalOk burnOk saltOk) := fun _ _ e => nomatch e
theorem CommandForm.sliceQuotaWrite (fn : Nat) (direct : Bool) (value : BitVec 32) : CommandForm.Statement (.sliceQuotaWrite fn direct value) := fun _ _ e => nomatch e
theorem CommandForm.sliceTrim (fn count : Nat) : CommandForm.Statement (.sliceTrim fn count) := fun _ _ e => nomatch e
theorem CommandForm.sliceTrimDone (fn : Nat) : CommandForm.Statement (.sliceTrimDone fn) := fun _ _ e => nomatch e
theorem CommandForm.sliceEnum (fn max : Nat) : CommandForm.Statement (.sliceEnum fn max) := fun _ _ e => nomatch e
theorem CommandForm.sliceEnumDone (fn : Nat) : CommandForm.Statement (.sliceEnumDone fn) := fun _ _ e => nomatch e
theorem CommandForm.spoolLinkTrained (d : Nat) (up : Bool) : CommandForm.Statement (.spoolLinkTrained d up) := fun _ _ e => nomatch e
theorem CommandForm.korJobGo (slot : Nat) (flush close : Bool) : CommandForm.Statement (.korJobGo slot flush close) := fun _ _ e => nomatch e
theorem CommandForm.korJobFlush (slot : Nat) (close : Bool) : CommandForm.Statement (.korJobFlush slot close) := fun _ _ e => nomatch e
theorem CommandForm.korJobClose (slot : Nat) : CommandForm.Statement (.korJobClose slot) := fun _ _ e => nomatch e
theorem CommandForm.korJobAbort (slot : Nat) : CommandForm.Statement (.korJobAbort slot) := fun _ _ e => nomatch e
theorem CommandForm.korJobWaiting (slot : Nat) : CommandForm.Statement (.korJobWaiting slot) := fun _ _ e => nomatch e
theorem CommandForm.korJobDone (slot : Nat) (ecc : Option Nat) : CommandForm.Statement (.korJobDone slot ecc) := fun _ _ e => nomatch e
theorem CommandForm.placementListLanded (st : Nat) : CommandForm.Statement (.placementListLanded st) := by
  intro h st e; cases e; simp_all [Instr.wellFormed]
theorem CommandForm.directoryEntryRead (st : Nat) (failed : Option Nat) (tag : Bool) : CommandForm.Statement (.directoryEntryRead st failed tag) := by
  intro h st e; cases e; simp_all [Instr.wellFormed]
theorem CommandForm.tileLoadComplete (fn tile : Nat) : CommandForm.Statement (.tileLoadComplete fn tile) := fun _ _ e => nomatch e
theorem CommandForm.tileLoadResume (fn tile : Nat) : CommandForm.Statement (.tileLoadResume fn tile) := fun _ _ e => nomatch e
theorem CommandForm.pinEnable (entry : Nat) (value : BitVec 32) : CommandForm.Statement (.pinEnable entry value) := fun _ _ e => nomatch e
theorem CommandForm.pinDisable (entry : Nat) (value : BitVec 32) : CommandForm.Statement (.pinDisable entry value) := fun _ _ e => nomatch e
theorem CommandForm.pinResident (entry : Nat) : CommandForm.Statement (.pinResident entry) := fun _ _ e => nomatch e
theorem CommandForm.furrowRelease (st : Nat) : CommandForm.Statement (.furrowRelease st) := by
  intro h st e; cases e; simp_all [Instr.wellFormed]
theorem CommandForm.furrowComplete (flume : Nat) (ecc : Option Nat) (corrected : Bool) : CommandForm.Statement (.furrowComplete flume ecc corrected) := fun _ _ e => nomatch e
theorem CommandForm.furrowDataDeadline (st : Nat) : CommandForm.Statement (.furrowDataDeadline st) := by
  intro h st e; cases e; simp_all [Instr.wellFormed]
theorem CommandForm.furrowLate (st : Nat) : CommandForm.Statement (.furrowLate st) := by
  intro h st e; cases e; simp_all [Instr.wellFormed]
theorem CommandForm.flumeStall (flume : Nat) : CommandForm.Statement (.flumeStall flume) := fun _ _ e => nomatch e
theorem CommandForm.flumeUnfence (flume : Nat) : CommandForm.Statement (.flumeUnfence flume) := fun _ _ e => nomatch e
theorem CommandForm.flumeTestDone (flume : Nat) (pass : Bool) : CommandForm.Statement (.flumeTestDone flume pass) := fun _ _ e => nomatch e
theorem CommandForm.stationTableWrite (master off : Nat) (value : BitVec 32) : CommandForm.Statement (.stationTableWrite master off value) := fun _ _ e => nomatch e
theorem CommandForm.tableLogIdleApply (st : Nat) : CommandForm.Statement (.tableLogIdleApply st) := by
  intro h st e; cases e; simp_all [Instr.wellFormed]
theorem CommandForm.encoderCount (n : Nat) (a b : Bool) : CommandForm.Statement (.encoderCount n a b) := fun _ _ e => nomatch e
theorem CommandForm.pcEncoderLost (st : Nat) : CommandForm.Statement (.pcEncoderLost st) := by
  intro h st e; cases e; simp_all [Instr.wellFormed]
theorem CommandForm.sweepTrigger (st : Nat) : CommandForm.Statement (.sweepTrigger st) := by
  intro h st e; cases e; simp_all [Instr.wellFormed]
theorem CommandForm.bdPulse (st : Nat) : CommandForm.Statement (.bdPulse st) := by
  intro h st e; cases e; simp_all [Instr.wellFormed]
theorem CommandForm.bdMissed (st : Nat) : CommandForm.Statement (.bdMissed st) := by
  intro h st e; cases e; simp_all [Instr.wellFormed]
theorem CommandForm.lockLossTimeout (st : Nat) : CommandForm.Statement (.lockLossTimeout st) := by
  intro h st e; cases e; simp_all [Instr.wellFormed]
theorem CommandForm.facetIdDone (st : Nat) : CommandForm.Statement (.facetIdDone st) := by
  intro h st e; cases e; simp_all [Instr.wellFormed]
theorem CommandForm.scanWindowOpen (st : Nat) : CommandForm.Statement (.scanWindowOpen st) := by
  intro h st e; cases e; simp_all [Instr.wellFormed]
theorem CommandForm.zoneStart (st zone : Nat) : CommandForm.Statement (.zoneStart st zone) := by
  intro h st e; cases e; simp_all [Instr.wellFormed]
theorem CommandForm.scanWindowClose (st : Nat) : CommandForm.Statement (.scanWindowClose st) := by
  intro h st e; cases e; simp_all [Instr.wellFormed]
theorem CommandForm.classRequest (master : Nat) (value : BitVec 32) : CommandForm.Statement (.classRequest master value) := fun _ _ e => nomatch e
theorem CommandForm.pllLockStart (pll : Nat) : CommandForm.Statement (.pllLockStart pll) := fun _ _ e => nomatch e
theorem CommandForm.pllLockDeclared (pll : Nat) : CommandForm.Statement (.pllLockDeclared pll) := fun _ _ e => nomatch e
theorem CommandForm.pllLockLost (pll : Nat) : CommandForm.Statement (.pllLockLost pll) := fun _ _ e => nomatch e
theorem CommandForm.pllLockTimeout (pll : Nat) : CommandForm.Statement (.pllLockTimeout pll) := fun _ _ e => nomatch e
theorem CommandForm.pllRetry (pll : Nat) : CommandForm.Statement (.pllRetry pll) := fun _ _ e => nomatch e
theorem CommandForm.pllRelock (pll : Nat) : CommandForm.Statement (.pllRelock pll) := fun _ _ e => nomatch e
theorem CommandForm.blEnable (bl : Nat) : CommandForm.Statement (.blEnable bl) := fun _ _ e => nomatch e
theorem CommandForm.blDisable (bl : Nat) : CommandForm.Statement (.blDisable bl) := fun _ _ e => nomatch e
theorem CommandForm.blRetrain (bl : Nat) : CommandForm.Statement (.blRetrain bl) := fun _ _ e => nomatch e
theorem CommandForm.blTrainAlign (bl : Nat) : CommandForm.Statement (.blTrainAlign bl) := fun _ _ e => nomatch e
theorem CommandForm.blTrainPoll (bl : Nat) : CommandForm.Statement (.blTrainPoll bl) := fun _ _ e => nomatch e
theorem CommandForm.blTrainTimeout (bl : Nat) : CommandForm.Statement (.blTrainTimeout bl) := fun _ _ e => nomatch e
theorem CommandForm.linkPoll (bl : Nat) : CommandForm.Statement (.linkPoll bl) := fun _ _ e => nomatch e
theorem CommandForm.sidebandTransaction (bl : Nat) : CommandForm.Statement (.sidebandTransaction bl) := fun _ _ e => nomatch e
theorem CommandForm.sidebandResponse (bl : Nat) (data : List (BitVec 8)) : CommandForm.Statement (.sidebandResponse bl data) := fun _ _ e => nomatch e
theorem CommandForm.sidebandTimeout (bl : Nat) : CommandForm.Statement (.sidebandTimeout bl) := fun _ _ e => nomatch e
theorem CommandForm.sidebandBusyRetry (bl : Nat) : CommandForm.Statement (.sidebandBusyRetry bl) := fun _ _ e => nomatch e
theorem CommandForm.routeWrite (st : Nat) (value : BitVec 32) : CommandForm.Statement (.routeWrite st value) := by
  intro h st e; cases e; simp_all [Instr.wellFormed]
theorem CommandForm.offsetWrite (st : Nat) (value : BitVec 32) : CommandForm.Statement (.offsetWrite st value) := by
  intro h st e; cases e; simp_all [Instr.wellFormed]
theorem CommandForm.calrefOkChange (present : Bool) (err : BitVec 16) : CommandForm.Statement (.calrefOkChange present err) := fun _ _ e => nomatch e
theorem CommandForm.monitorRead (st : Nat) : CommandForm.Statement (.monitorRead st) := by
  intro h st e; cases e; simp_all [Instr.wellFormed]
theorem CommandForm.tapCalMeasure (st count : Nat) : CommandForm.Statement (.tapCalMeasure st count) := by
  intro h st e; cases e; simp_all [Instr.wellFormed]
theorem CommandForm.halfAdvanceWrite (master : Nat) (value : BitVec 32) : CommandForm.Statement (.halfAdvanceWrite master value) := fun _ _ e => nomatch e
theorem CommandForm.scanLinkLock (side : Nat) : CommandForm.Statement (.scanLinkLock side) := fun _ _ e => nomatch e
theorem CommandForm.scanLinkLockLoss (side : Nat) (lanes : BitVec 4) : CommandForm.Statement (.scanLinkLockLoss side lanes) := fun _ _ e => nomatch e
theorem CommandForm.cisLine (side : Nat) (lanes : List (List (Bool × BitVec 64))) : CommandForm.Statement (.cisLine side lanes) := fun _ _ e => nomatch e
theorem CommandForm.inspectionResultComplete (side : Nat) : CommandForm.Statement (.inspectionResultComplete side) := fun _ _ e => nomatch e
theorem CommandForm.insAck (side seq : Nat) : CommandForm.Statement (.insAck side seq) := fun _ _ e => nomatch e
theorem CommandForm.calWhite (side : Nat) : CommandForm.Statement (.calWhite side) := fun _ _ e => nomatch e
theorem CommandForm.calChart (side : Nat) : CommandForm.Statement (.calChart side) := fun _ _ e => nomatch e
theorem CommandForm.calCaptureDone (side : Nat) : CommandForm.Statement (.calCaptureDone side) := fun _ _ e => nomatch e
theorem CommandForm.auditExportDone (fail : Nat) : CommandForm.Statement (.auditExportDone fail) := fun _ _ e => nomatch e
theorem CommandForm.loopOff (lp : Nat) : CommandForm.Statement (.loopOff lp) := fun _ _ e => nomatch e
theorem CommandForm.loopOpen (lp : Nat) : CommandForm.Statement (.loopOpen lp) := fun _ _ e => nomatch e
theorem CommandForm.loopClose (lp : Nat) : CommandForm.Statement (.loopClose lp) := fun _ _ e => nomatch e
theorem CommandForm.loopSample (lp : Nat) (code : BitVec 16) (ecc : Nat) : CommandForm.Statement (.loopSample lp code ecc) := fun _ _ e => nomatch e
theorem CommandForm.loopOutput (lp : Nat) (late : Bool) : CommandForm.Statement (.loopOutput lp late) := fun _ _ e => nomatch e
theorem CommandForm.adcScanConversion (ch : Nat) (code : BitVec 16) : CommandForm.Statement (.adcScanConversion ch code) := fun _ _ e => nomatch e
theorem CommandForm.pwmCarrierPeriod (c : Nat) : CommandForm.Statement (.pwmCarrierPeriod c) := fun _ _ e => nomatch e
theorem CommandForm.polySearchShift (st : Nat) : CommandForm.Statement (.polySearchShift st) := by
  intro h st e; cases e; simp_all [Instr.wellFormed]
theorem CommandForm.axEnable (ax : Nat) : CommandForm.Statement (.axEnable ax) := fun _ _ e => nomatch e
theorem CommandForm.axEnableComplete (ax : Nat) (ta tb : List Nat) : CommandForm.Statement (.axEnableComplete ax ta tb) := fun _ _ e => nomatch e
theorem CommandForm.axDisable (ax : Nat) : CommandForm.Statement (.axDisable ax) := fun _ _ e => nomatch e
theorem CommandForm.axMoveAbs (ax : Nat) (arm : Bool) : CommandForm.Statement (.axMoveAbs ax arm) := fun _ _ e => nomatch e
theorem CommandForm.axMoveRel (ax : Nat) (arm : Bool) : CommandForm.Statement (.axMoveRel ax arm) := fun _ _ e => nomatch e
theorem CommandForm.axJogPos (ax : Nat) (arm : Bool) : CommandForm.Statement (.axJogPos ax arm) := fun _ _ e => nomatch e
theorem CommandForm.axJogNeg (ax : Nat) (arm : Bool) : CommandForm.Statement (.axJogNeg ax arm) := fun _ _ e => nomatch e
theorem CommandForm.axStop (ax : Nat) : CommandForm.Statement (.axStop ax) := fun _ _ e => nomatch e
theorem CommandForm.axQstop (ax : Nat) : CommandForm.Statement (.axQstop ax) := fun _ _ e => nomatch e
theorem CommandForm.axResume (ax : Nat) (arm : Bool) : CommandForm.Statement (.axResume ax arm) := fun _ _ e => nomatch e
theorem CommandForm.axSetpos (ax : Nat) : CommandForm.Statement (.axSetpos ax) := fun _ _ e => nomatch e
theorem CommandForm.axClear (ax : Nat) : CommandForm.Statement (.axClear ax) := fun _ _ e => nomatch e
theorem CommandForm.axStepEvent (ax : Nat) : CommandForm.Statement (.axStepEvent ax) := fun _ _ e => nomatch e
theorem CommandForm.axDeviationCheck (ax : Nat) : CommandForm.Statement (.axDeviationCheck ax) := fun _ _ e => nomatch e
theorem CommandForm.axSettleCheck (ax : Nat) : CommandForm.Statement (.axSettleCheck ax) := fun _ _ e => nomatch e
theorem CommandForm.axHoldTimeout (ax : Nat) : CommandForm.Statement (.axHoldTimeout ax) := fun _ _ e => nomatch e
theorem CommandForm.chopThresholdCross (ax phase : Nat) : CommandForm.Statement (.chopThresholdCross ax phase) := fun _ _ e => nomatch e
theorem CommandForm.chopMixEnd (ax phase : Nat) : CommandForm.Statement (.chopMixEnd ax phase) := fun _ _ e => nomatch e
theorem CommandForm.chopMaxOnTimeout (ax phase : Nat) : CommandForm.Statement (.chopMaxOnTimeout ax phase) := fun _ _ e => nomatch e
theorem CommandForm.chopBlankingEnd (ax phase : Nat) (atLevel : Bool) : CommandForm.Statement (.chopBlankingEnd ax phase atLevel) := fun _ _ e => nomatch e
theorem CommandForm.taskAxGo (ax : Nat) : CommandForm.Statement (.taskAxGo ax) := fun _ _ e => nomatch e
theorem CommandForm.taskAxStop (ax : Nat) : CommandForm.Statement (.taskAxStop ax) := fun _ _ e => nomatch e
theorem CommandForm.taskAxQstop (ax : Nat) : CommandForm.Statement (.taskAxQstop ax) := fun _ _ e => nomatch e
theorem CommandForm.taskAxCapture (ax : Nat) : CommandForm.Statement (.taskAxCapture ax) := fun _ _ e => nomatch e
theorem CommandForm.taskLoopIndex (lp : Nat) : CommandForm.Statement (.taskLoopIndex lp) := fun _ _ e => nomatch e
theorem CommandForm.taskEncCapture (n : Nat) : CommandForm.Statement (.taskEncCapture n) := fun _ _ e => nomatch e
theorem CommandForm.taskLatPulse (i : Nat) : CommandForm.Statement (.taskLatPulse i) := fun _ _ e => nomatch e
theorem CommandForm.taskSwSignal (i : Nat) : CommandForm.Statement (.taskSwSignal i) := fun _ _ e => nomatch e
theorem CommandForm.taskAck (tk n : Nat) : CommandForm.Statement (.taskAck tk n) := fun _ _ e => nomatch e
theorem CommandForm.taskConfigWrite (tk : Nat) (source : Bool) (value : BitVec 32) : CommandForm.Statement (.taskConfigWrite tk source value) := fun _ _ e => nomatch e
theorem CommandForm.swEventRaise (bits : BitVec 8) : CommandForm.Statement (.swEventRaise bits) := fun _ _ e => nomatch e
theorem CommandForm.timerExpire (i : Nat) : CommandForm.Statement (.timerExpire i) := fun _ _ e => nomatch e
theorem CommandForm.webCompareArm (i : Nat) (value : BitVec 32) : CommandForm.Statement (.webCompareArm i value) := fun _ _ e => nomatch e
theorem CommandForm.webCompareFire (i : Nat) : CommandForm.Statement (.webCompareFire i) := fun _ _ e => nomatch e
theorem CommandForm.latPortEnable (p : Nat) : CommandForm.Statement (.latPortEnable p) := fun _ _ e => nomatch e
theorem CommandForm.latPortDisable (p : Nat) : CommandForm.Statement (.latPortDisable p) := fun _ _ e => nomatch e
theorem CommandForm.latRescan (p : Nat) : CommandForm.Statement (.latRescan p) := fun _ _ e => nomatch e
theorem CommandForm.latEnumSend (p : Nat) : CommandForm.Statement (.latEnumSend p) := fun _ _ e => nomatch e
theorem CommandForm.latEnumReturn (p : Nat) (frame : Option (List (BitVec 8))) : CommandForm.Statement (.latEnumReturn p frame) := fun _ _ e => nomatch e
theorem CommandForm.latCycleStart (p : Nat) : CommandForm.Statement (.latCycleStart p) := fun _ _ e => nomatch e
theorem CommandForm.latCyclicReturn (p : Nat) (frame : Option (List (BitVec 8))) : CommandForm.Statement (.latCyclicReturn p frame) := fun _ _ e => nomatch e
theorem CommandForm.latOimgWrite (p node w : Nat) (value : BitVec 32) : CommandForm.Statement (.latOimgWrite p node w value) := fun _ _ e => nomatch e
theorem CommandForm.latMbxRead (p : Nat) : CommandForm.Statement (.latMbxRead p) := fun _ _ e => nomatch e
theorem CommandForm.latMbxWrite (p : Nat) : CommandForm.Statement (.latMbxWrite p) := fun _ _ e => nomatch e
theorem CommandForm.latMbxReturn (p : Nat) (frame : Option (List (BitVec 8))) : CommandForm.Statement (.latMbxReturn p frame) := fun _ _ e => nomatch e
theorem CommandForm.latMbxTimeout (p : Nat) : CommandForm.Statement (.latMbxTimeout p) := fun _ _ e => nomatch e
theorem CommandForm.latJoinSend (p : Nat) : CommandForm.Statement (.latJoinSend p) := fun _ _ e => nomatch e
theorem CommandForm.latJoinReturn (p : Nat) (frame : Option (List (BitVec 8))) : CommandForm.Statement (.latJoinReturn p frame) := fun _ _ e => nomatch e
theorem CommandForm.fanDutyWrite (fc : Nat) (duty : BitVec 16) : CommandForm.Statement (.fanDutyWrite fc duty) := fun _ _ e => nomatch e
theorem CommandForm.fanKickEnd (fc rpm : Nat) : CommandForm.Statement (.fanKickEnd fc rpm) := fun _ _ e => nomatch e
theorem CommandForm.fanRetry (fc : Nat) : CommandForm.Statement (.fanRetry fc) := fun _ _ e => nomatch e
theorem CommandForm.fanMeasure (fc rpm : Nat) : CommandForm.Statement (.fanMeasure fc rpm) := fun _ _ e => nomatch e
theorem CommandForm.fanTachLost (fc : Nat) : CommandForm.Statement (.fanTachLost fc) := fun _ _ e => nomatch e
theorem CommandForm.fanTachRecover (fc : Nat) : CommandForm.Statement (.fanTachRecover fc) := fun _ _ e => nomatch e
theorem CommandForm.fanClear (fc : Nat) : CommandForm.Statement (.fanClear fc) := fun _ _ e => nomatch e
theorem CommandForm.alStateRequest (target : Nat) (station : BitVec 16) (mbxOk : Bool) (sm2 sm3 sync0 : Nat) (siiOk : Bool) : CommandForm.Statement (.alStateRequest target station mbxOk sm2 sm3 sync0 siiOk) := fun _ _ e => nomatch e
theorem CommandForm.rxpdoApply (data : List (BitVec 8)) : CommandForm.Statement (.rxpdoApply data) := fun _ _ e => nomatch e
theorem CommandForm.sync0Edge (dcTime : BitVec 64) (fresh : Bool) : CommandForm.Statement (.sync0Edge dcTime fresh) := fun _ _ e => nomatch e
theorem CommandForm.dcOffsetMeasure (dcTime : BitVec 64) : CommandForm.Statement (.dcOffsetMeasure dcTime) := fun _ _ e => nomatch e
theorem CommandForm.foeWrite (name : String) (password : BitVec 32) (packet : Nat) (data : List (BitVec 8)) (last : Bool) : CommandForm.Statement (.foeWrite name password packet data last) := fun _ _ e => nomatch e
theorem CommandForm.foeRead (name : String) : CommandForm.Statement (.foeRead name) := fun _ _ e => nomatch e
theorem CommandForm.mailboxUnsupported (protocol : Nat) : CommandForm.Statement (.mailboxUnsupported protocol) := fun _ _ e => nomatch e
theorem CommandForm.ectLinkChange (port : Nat) (up : Bool) : CommandForm.Statement (.ectLinkChange port up) := fun _ _ e => nomatch e
theorem CommandForm.calSetWrite (payload : List (BitVec 8)) : CommandForm.Statement (.calSetWrite payload) := fun _ _ e => nomatch e
theorem CommandForm.calStoreComplete (ok : Bool) : CommandForm.Statement (.calStoreComplete ok) := fun _ _ e => nomatch e
theorem CommandForm.powerStateRequest (value : Nat) : CommandForm.Statement (.powerStateRequest value) := fun _ _ e => nomatch e
theorem CommandForm.powerOnReset (strap testMode siiOk : Bool) : CommandForm.Statement (.powerOnReset strap testMode siiOk) := fun _ _ e => nomatch e
theorem CommandForm.pmicPowerGood (enable : Nat) : CommandForm.Statement (.pmicPowerGood enable) := fun _ _ e => nomatch e
theorem CommandForm.pmicEnableTimeout (enable : Nat) : CommandForm.Statement (.pmicEnableTimeout enable) := fun _ _ e => nomatch e
theorem CommandForm.pmbusPoll (ok : Bool) (fault : Option Nat) : CommandForm.Statement (.pmbusPoll ok fault) := fun _ _ e => nomatch e
theorem CommandForm.paceEvaluate (slack : List (BitVec 16)) (vread : Nat) : CommandForm.Statement (.paceEvaluate slack vread) := fun _ _ e => nomatch e
theorem CommandForm.railMonitorReading (codes : List (BitVec 12)) : CommandForm.Statement (.railMonitorReading codes) := fun _ _ e => nomatch e
theorem CommandForm.railPgDrop (k : Nat) : CommandForm.Statement (.railPgDrop k) := fun _ _ e => nomatch e
theorem CommandForm.railPgRise (k : Nat) : CommandForm.Statement (.railPgRise k) := fun _ _ e => nomatch e
theorem CommandForm.railBlankEnd (k : Nat) : CommandForm.Statement (.railBlankEnd k) := fun _ _ e => nomatch e
theorem CommandForm.seqProgramWrite (i : Nat) (value : BitVec 32) : CommandForm.Statement (.seqProgramWrite i value) := fun _ _ e => nomatch e
theorem CommandForm.seqWaitpg (expired : Bool) : CommandForm.Statement (.seqWaitpg expired) := fun _ _ e => nomatch e
theorem CommandForm.thermalSensorRound (temps : List (BitVec 16)) : CommandForm.Statement (.thermalSensorRound temps) := fun _ _ e => nomatch e
theorem CommandForm.dramTrained (ok : Bool) (channel installed : Nat) : CommandForm.Statement (.dramTrained ok channel installed) := fun _ _ e => nomatch e
theorem CommandForm.firmwareVerified (dir : Nat × Nat × Nat) (hdrA : Option (List (BitVec 8))) (payA : List (BitVec 8)) (hdrB : Option (List (BitVec 8))) (payB : List (BitVec 8)) (journalOk burnOk : Bool) : CommandForm.Statement (.firmwareVerified dir hdrA payA hdrB payB journalOk burnOk) := fun _ _ e => nomatch e
theorem CommandForm.otpReadS (addr : Nat) : CommandForm.Statement (.otpReadS addr) := fun _ _ e => nomatch e
theorem CommandForm.otpWriteS (addr : Nat) : CommandForm.Statement (.otpWriteS addr) := fun _ _ e => nomatch e
theorem CommandForm.otpSetP (addr : Nat) : CommandForm.Statement (.otpSetP addr) := fun _ _ e => nomatch e
theorem CommandForm.otpOperationDone (bad : BitVec 64) (err : Nat) : CommandForm.Statement (.otpOperationDone bad err) := fun _ _ e => nomatch e
theorem CommandForm.lcRequestSecured (key : Nat) : CommandForm.Statement (.lcRequestSecured key) := fun _ _ e => nomatch e
theorem CommandForm.lcRequestReturned (key : Nat) : CommandForm.Statement (.lcRequestReturned key) := fun _ _ e => nomatch e
theorem CommandForm.lcTransitionDone (bad : Bool) : CommandForm.Statement (.lcTransitionDone bad) := fun _ _ e => nomatch e
theorem CommandForm.tokenRevoke (count : Nat) : CommandForm.Statement (.tokenRevoke count) := fun _ _ e => nomatch e
theorem CommandForm.tokenSubmit (token : Option (List (BitVec 8))) : CommandForm.Statement (.tokenSubmit token) := fun _ _ e => nomatch e
theorem CommandForm.tokenCheckDone : CommandForm.Statement .tokenCheckDone := fun _ _ e => nomatch e
theorem CommandForm.jtagSamplePreload (cells : List Bool) : CommandForm.Statement (.jtagSamplePreload cells) := fun _ _ e => nomatch e
theorem CommandForm.jtagSecMbx (write : Bool) (off : Nat) (data : BitVec 32) : CommandForm.Statement (.jtagSecMbx write off data) := fun _ _ e => nomatch e
theorem CommandForm.jtagDbgAccess (op : Nat) (addr : BitVec 64) (data : BitVec 64) : CommandForm.Statement (.jtagDbgAccess op addr data) := fun _ _ e => nomatch e
theorem CommandForm.jtagOtpAccess (op addr : Nat) (data : BitVec 64) : CommandForm.Statement (.jtagOtpAccess op addr data) := fun _ _ e => nomatch e
theorem CommandForm.selfCheckCompare (flt hdg : Bool) : CommandForm.Statement (.selfCheckCompare flt hdg) := fun _ _ e => nomatch e
theorem CommandForm.interlockChange (cover : Nat) (isOpen : Bool) : CommandForm.Statement (.interlockChange cover isOpen) := fun _ _ e => nomatch e
theorem CommandForm.tachEdge (enc : Nat) : CommandForm.Statement (.tachEdge enc) := fun _ _ e => nomatch e
theorem CommandForm.speedGateTimeout (st : Nat) : CommandForm.Statement (.speedGateTimeout st) := by
  intro h st e; cases e; simp_all [Instr.wellFormed]
theorem CommandForm.emitterOntimeExceeded (st emitter : Nat) : CommandForm.Statement (.emitterOntimeExceeded st emitter) := by
  intro h st e; cases e; simp_all [Instr.wellFormed]
theorem CommandForm.dutyEvaluate (onTimes : List (List Nat)) : CommandForm.Statement (.dutyEvaluate onTimes) := fun _ _ e => nomatch e
theorem CommandForm.hdgLimitWrite (off : Nat) (value : BitVec 32) : CommandForm.Statement (.hdgLimitWrite off value) := fun _ _ e => nomatch e
theorem CommandForm.recordFlashWrite (ok : Bool) : CommandForm.Statement (.recordFlashWrite ok) := fun _ _ e => nomatch e
theorem CommandForm.recordRead (seq : BitVec 32) : CommandForm.Statement (.recordRead seq) := fun _ _ e => nomatch e
theorem CommandForm.recordClear (value : BitVec 32) : CommandForm.Statement (.recordClear value) := fun _ _ e => nomatch e
theorem CommandForm.xcalStartMsg (east : Bool) (msg : List (BitVec 8)) : CommandForm.Statement (.xcalStartMsg east msg) := fun _ _ e => nomatch e
theorem CommandForm.xcalFeatures (east : Bool) (msg : List (BitVec 8)) : CommandForm.Statement (.xcalFeatures east msg) := fun _ _ e => nomatch e
theorem CommandForm.xcalTargets (east : Bool) (msg : List (BitVec 8)) : CommandForm.Statement (.xcalTargets east msg) := fun _ _ e => nomatch e
theorem CommandForm.xcalReply (east : Bool) (msg : List (BitVec 8)) : CommandForm.Statement (.xcalReply east msg) := fun _ _ e => nomatch e
theorem CommandForm.xcalCommit (east : Bool) (msg : List (BitVec 8)) : CommandForm.Statement (.xcalCommit east msg) := fun _ _ e => nomatch e
theorem CommandForm.xcalAbandon (east : Bool) (msg : List (BitVec 8)) : CommandForm.Statement (.xcalAbandon east msg) := fun _ _ e => nomatch e
theorem CommandForm.culEnable (on : Bool) : CommandForm.Statement (.culEnable on) := fun _ _ e => nomatch e
theorem CommandForm.culPortUp (east : Bool) : CommandForm.Statement (.culPortUp east) := fun _ _ e => nomatch e
theorem CommandForm.culPortDown (east : Bool) (lanes : BitVec 4) : CommandForm.Statement (.culPortDown east lanes) := fun _ _ e => nomatch e
theorem CommandForm.culFoldReceived (east : Bool) : CommandForm.Statement (.culFoldReceived east) := fun _ _ e => nomatch e
theorem CommandForm.culIndex (east : Bool) (msg : List (BitVec 8)) : CommandForm.Statement (.culIndex east msg) := fun _ _ e => nomatch e
theorem CommandForm.culDelayReq (east : Bool) (turn : Nat) (msg : List (BitVec 8)) : CommandForm.Statement (.culDelayReq east turn msg) := fun _ _ e => nomatch e
theorem CommandForm.culDelayRsp (east : Bool) (msg : List (BitVec 8)) : CommandForm.Statement (.culDelayRsp east msg) := fun _ _ e => nomatch e
theorem CommandForm.culTimebase (east : Bool) (wait : Nat) (msg : List (BitVec 8)) : CommandForm.Statement (.culTimebase east wait msg) := fun _ _ e => nomatch e
theorem CommandForm.culStatus (east : Bool) (msg : List (BitVec 8)) : CommandForm.Statement (.culStatus east msg) := fun _ _ e => nomatch e
theorem CommandForm.culFault (east : Bool) (msg : List (BitVec 8)) : CommandForm.Statement (.culFault east msg) := fun _ _ e => nomatch e
theorem CommandForm.culPartCommit (east : Bool) (msg : List (BitVec 8)) : CommandForm.Statement (.culPartCommit east msg) := fun _ _ e => nomatch e
theorem CommandForm.culPartResend (pageId : BitVec 64) : CommandForm.Statement (.culPartResend pageId) := fun _ _ e => nomatch e
theorem CommandForm.culSchedule (east : Bool) (msg : List (BitVec 8)) : CommandForm.Statement (.culSchedule east msg) := fun _ _ e => nomatch e
theorem CommandForm.culPageSpoil (east : Bool) (msg : List (BitVec 8)) : CommandForm.Statement (.culPageSpoil east msg) := fun _ _ e => nomatch e
theorem CommandForm.culOdReq (east : Bool) (msg : List (BitVec 8)) : CommandForm.Statement (.culOdReq east msg) := fun _ _ e => nomatch e
theorem CommandForm.culOdRsp (east : Bool) (msg : List (BitVec 8)) : CommandForm.Statement (.culOdRsp east msg) := fun _ _ e => nomatch e
theorem CommandForm.culFoldNotice (east : Bool) (msg : List (BitVec 8)) : CommandForm.Statement (.culFoldNotice east msg) := fun _ _ e => nomatch e
theorem CommandForm.culUnfoldMsg (east : Bool) (msg : List (BitVec 8)) : CommandForm.Statement (.culUnfoldMsg east msg) := fun _ _ e => nomatch e
theorem CommandForm.culMessageForward (east : Bool) (good : Bool) (msg : List (BitVec 8)) : CommandForm.Statement (.culMessageForward east good msg) := fun _ _ e => nomatch e
theorem CommandForm.sdoQueuedStart : CommandForm.Statement .sdoQueuedStart := fun _ _ e => nomatch e
theorem CommandForm.firstLatch : CommandForm.Statement .firstLatch := fun _ _ e => nomatch e
theorem CommandForm.feedRequest : CommandForm.Statement .feedRequest := fun _ _ e => nomatch e
theorem CommandForm.sheetEdgeTimeout : CommandForm.Statement .sheetEdgeTimeout := fun _ _ e => nomatch e
theorem CommandForm.mbxUpload : CommandForm.Statement .mbxUpload := fun _ _ e => nomatch e
theorem CommandForm.mbxDownload : CommandForm.Statement .mbxDownload := fun _ _ e => nomatch e
theorem CommandForm.mbxUploadComplete : CommandForm.Statement .mbxUploadComplete := fun _ _ e => nomatch e
theorem CommandForm.mbxDownloadComplete : CommandForm.Statement .mbxDownloadComplete := fun _ _ e => nomatch e
theorem CommandForm.mbxGetOdList : CommandForm.Statement .mbxGetOdList := fun _ _ e => nomatch e
theorem CommandForm.mbxGetObjectDesc : CommandForm.Statement .mbxGetObjectDesc := fun _ _ e => nomatch e
theorem CommandForm.mbxGetEntryDesc : CommandForm.Statement .mbxGetEntryDesc := fun _ _ e => nomatch e
theorem CommandForm.mbxSegmentTimeout : CommandForm.Statement .mbxSegmentTimeout := fun _ _ e => nomatch e
theorem CommandForm.sqServe : CommandForm.Statement .sqServe := fun _ _ e => nomatch e
theorem CommandForm.perstAssert : CommandForm.Statement .perstAssert := fun _ _ e => nomatch e
theorem CommandForm.perstDeassert : CommandForm.Statement .perstDeassert := fun _ _ e => nomatch e
theorem CommandForm.spoolEnable : CommandForm.Statement .spoolEnable := fun _ _ e => nomatch e
theorem CommandForm.spoolDisable : CommandForm.Statement .spoolDisable := fun _ _ e => nomatch e
theorem CommandForm.spoolRecoveryDone : CommandForm.Statement .spoolRecoveryDone := fun _ _ e => nomatch e
theorem CommandForm.riskReevaluate : CommandForm.Statement .riskReevaluate := fun _ _ e => nomatch e
theorem CommandForm.redoStart : CommandForm.Statement .redoStart := fun _ _ e => nomatch e
theorem CommandForm.predictorEvaluate : CommandForm.Statement .predictorEvaluate := fun _ _ e => nomatch e
theorem CommandForm.webEncoderLost : CommandForm.Statement .webEncoderLost := fun _ _ e => nomatch e
theorem CommandForm.classChangeStart : CommandForm.Statement .classChangeStart := fun _ _ e => nomatch e
theorem CommandForm.classSettled : CommandForm.Statement .classSettled := fun _ _ e => nomatch e
theorem CommandForm.classRampTimeout : CommandForm.Statement .classRampTimeout := fun _ _ e => nomatch e
theorem CommandForm.routeExchangeApply : CommandForm.Statement .routeExchangeApply := fun _ _ e => nomatch e
theorem CommandForm.auditExport : CommandForm.Statement .auditExport := fun _ _ e => nomatch e
theorem CommandForm.turnoutRound : CommandForm.Statement .turnoutRound := fun _ _ e => nomatch e
theorem CommandForm.taskTimerStart : CommandForm.Statement .taskTimerStart := fun _ _ e => nomatch e
theorem CommandForm.taskTofCapture : CommandForm.Statement .taskTofCapture := fun _ _ e => nomatch e
theorem CommandForm.xcalStart : CommandForm.Statement .xcalStart := fun _ _ e => nomatch e
theorem CommandForm.xcalAbort : CommandForm.Statement .xcalAbort := fun _ _ e => nomatch e
theorem CommandForm.xcalCollect : CommandForm.Statement .xcalCollect := fun _ _ e => nomatch e
theorem CommandForm.xcalStepTimeout : CommandForm.Statement .xcalStepTimeout := fun _ _ e => nomatch e
theorem CommandForm.xcalTargetTimeout : CommandForm.Statement .xcalTargetTimeout := fun _ _ e => nomatch e
theorem CommandForm.culRestart : CommandForm.Statement .culRestart := fun _ _ e => nomatch e
theorem CommandForm.culUnfold : CommandForm.Statement .culUnfold := fun _ _ e => nomatch e
theorem CommandForm.culIndexSend : CommandForm.Statement .culIndexSend := fun _ _ e => nomatch e
theorem CommandForm.culTimebaseSend : CommandForm.Statement .culTimebaseSend := fun _ _ e => nomatch e
theorem CommandForm.culTimebaseLost : CommandForm.Statement .culTimebaseLost := fun _ _ e => nomatch e
theorem CommandForm.culStatusSend : CommandForm.Statement .culStatusSend := fun _ _ e => nomatch e
theorem CommandForm.culPartTake : CommandForm.Statement .culPartTake := fun _ _ e => nomatch e
theorem CommandForm.culTunnelTimeout : CommandForm.Statement .culTunnelTimeout := fun _ _ e => nomatch e
theorem CommandForm.culUnfoldCheck : CommandForm.Statement .culUnfoldCheck := fun _ _ e => nomatch e
theorem CommandForm.culUnwrap : CommandForm.Statement .culUnwrap := fun _ _ e => nomatch e
theorem CommandForm.sm2Watchdog : CommandForm.Statement .sm2Watchdog := fun _ _ e => nomatch e
theorem CommandForm.sm3ReadComplete : CommandForm.Statement .sm3ReadComplete := fun _ _ e => nomatch e
theorem CommandForm.storeParameters : CommandForm.Statement .storeParameters := fun _ _ e => nomatch e
theorem CommandForm.restoreDefaults : CommandForm.Statement .restoreDefaults := fun _ _ e => nomatch e
theorem CommandForm.powerStepReadyToRun : CommandForm.Statement .powerStepReadyToRun := fun _ _ e => nomatch e
theorem CommandForm.powerStepRunToReady : CommandForm.Statement .powerStepRunToReady := fun _ _ e => nomatch e
theorem CommandForm.powerStepReadyToStandby : CommandForm.Statement .powerStepReadyToStandby := fun _ _ e => nomatch e
theorem CommandForm.powerStepStandbyToReady : CommandForm.Statement .powerStepStandbyToReady := fun _ _ e => nomatch e
theorem CommandForm.powerStepStandbyToSleep : CommandForm.Statement .powerStepStandbyToSleep := fun _ _ e => nomatch e
theorem CommandForm.powerStepSleepToStandby : CommandForm.Statement .powerStepSleepToStandby := fun _ _ e => nomatch e
theorem CommandForm.powerStepSleepToHibernate : CommandForm.Statement .powerStepSleepToHibernate := fun _ _ e => nomatch e
theorem CommandForm.powerStepHibernateToOff : CommandForm.Statement .powerStepHibernateToOff := fun _ _ e => nomatch e
theorem CommandForm.wakeNFall : CommandForm.Statement .wakeNFall := fun _ _ e => nomatch e
theorem CommandForm.dcWakeTimer : CommandForm.Statement .dcWakeTimer := fun _ _ e => nomatch e
theorem CommandForm.pmicRetry : CommandForm.Statement .pmicRetry := fun _ _ e => nomatch e
theorem CommandForm.vddAonLow : CommandForm.Statement .vddAonLow := fun _ _ e => nomatch e
theorem CommandForm.vddCoreUndervolt : CommandForm.Statement .vddCoreUndervolt := fun _ _ e => nomatch e
theorem CommandForm.seqEnd : CommandForm.Statement .seqEnd := fun _ _ e => nomatch e
theorem CommandForm.seqEnable : CommandForm.Statement .seqEnable := fun _ _ e => nomatch e
theorem CommandForm.seqDisable : CommandForm.Statement .seqDisable := fun _ _ e => nomatch e
theorem CommandForm.seqWait : CommandForm.Statement .seqWait := fun _ _ e => nomatch e
theorem CommandForm.seqCheck : CommandForm.Statement .seqCheck := fun _ _ e => nomatch e
theorem CommandForm.seqJump : CommandForm.Statement .seqJump := fun _ _ e => nomatch e
theorem CommandForm.seqJumpif : CommandForm.Statement .seqJumpif := fun _ _ e => nomatch e
theorem CommandForm.seqLimitTimeout : CommandForm.Statement .seqLimitTimeout := fun _ _ e => nomatch e
theorem CommandForm.weirGraceExpiry : CommandForm.Statement .weirGraceExpiry := fun _ _ e => nomatch e
theorem CommandForm.thermalRestart : CommandForm.Statement .thermalRestart := fun _ _ e => nomatch e
theorem CommandForm.sysResetAssert : CommandForm.Statement .sysResetAssert := fun _ _ e => nomatch e
theorem CommandForm.sysResetRelease : CommandForm.Statement .sysResetRelease := fun _ _ e => nomatch e
theorem CommandForm.svnCommit : CommandForm.Statement .svnCommit := fun _ _ e => nomatch e
theorem CommandForm.challengeRead : CommandForm.Statement .challengeRead := fun _ _ e => nomatch e
theorem CommandForm.sessionClose : CommandForm.Statement .sessionClose := fun _ _ e => nomatch e
theorem CommandForm.sessionExpired : CommandForm.Statement .sessionExpired := fun _ _ e => nomatch e
theorem CommandForm.trngHealthFail : CommandForm.Statement .trngHealthFail := fun _ _ e => nomatch e
theorem CommandForm.trngRecover : CommandForm.Statement .trngRecover := fun _ _ e => nomatch e
theorem CommandForm.jtagBypass : CommandForm.Statement .jtagBypass := fun _ _ e => nomatch e
theorem CommandForm.jtagIdcode : CommandForm.Statement .jtagIdcode := fun _ _ e => nomatch e
theorem CommandForm.jtagExtest : CommandForm.Statement .jtagExtest := fun _ _ e => nomatch e
theorem CommandForm.jtagClamp : CommandForm.Statement .jtagClamp := fun _ _ e => nomatch e
theorem CommandForm.jtagHighz : CommandForm.Statement .jtagHighz := fun _ _ e => nomatch e
theorem CommandForm.sumpReport : CommandForm.Statement .sumpReport := fun _ _ e => nomatch e
theorem CommandForm.sumpReportLost : CommandForm.Statement .sumpReportLost := fun _ _ e => nomatch e
theorem CommandForm.sumpRearm : CommandForm.Statement .sumpRearm := fun _ _ e => nomatch e
theorem CommandForm.sumpPop : CommandForm.Statement .sumpPop := fun _ _ e => nomatch e
theorem CommandForm.sumpRelease : CommandForm.Statement .sumpRelease := fun _ _ e => nomatch e
theorem CommandForm.sumpRecovery : CommandForm.Statement .sumpRecovery := fun _ _ e => nomatch e
theorem CommandForm.heartbeatKick : CommandForm.Statement .heartbeatKick := fun _ _ e => nomatch e
theorem CommandForm.heartbeatTimeout : CommandForm.Statement .heartbeatTimeout := fun _ _ e => nomatch e
theorem CommandForm.aliveToggle : CommandForm.Statement .aliveToggle := fun _ _ e => nomatch e
theorem CommandForm.recordClearDone : CommandForm.Statement .recordClearDone := fun _ _ e => nomatch e

end Sys2Proof.Laws
end

