-- ==== Sys2Proof/Laws/Rest.lean ====
section
/-! SUPPORT. Which operations leave every byte of the DRAM, the tile cache and the spool as it is: one lemma per shared operation and per meaning
(Laws/Rest*.lean). -/
namespace Sys2Proof.Machine
set_option Elab.async false

/-- From `s` to `t`, every byte of the memories is unchanged. -/
structure Rests (s t : State) : Prop where
  dram  : t.dram = s.dram
  tile  : t.tile = s.tile
  spool : t.spool = s.spool

/-- An outcome leaves them where it is a next state. -/
def RestsAns (s : State) (a : Host.Outcome State Fault Refusal) : Prop := ∀ t, a = .next t → Rests s t

theorem Rests.rfl' {s : State} : Rests s s := ⟨rfl, rfl, rfl⟩

theorem Rests.cut {s₀ : State} (x : State) {P : Prop} (hx : Rests s₀ x) (h : Rests s₀ x → P) : P := h hx

theorem Rests.trans {s t u : State} (h : Rests s t) (k : Rests t u) : Rests s u :=
  ⟨k.dram.trans h.dram, k.tile.trans h.tile, k.spool.trans h.spool⟩

theorem RestsAns.next {s t : State} (h : Rests s t) : RestsAns s (.next t) := by
  intro u hu; cases hu; exact h

theorem Rests.ite {s a b : State} {c : Prop} [Decidable c] (ha : Rests s a) (hb : Rests s b) : Rests s (if c then a else b) := by
  split
  · exact ha
  · exact hb

theorem RestsAns.ite {s : State} {a b : Host.Outcome State Fault Refusal} {c : Prop} [Decidable c] (ha : RestsAns s a) (hb : RestsAns s b) :
    RestsAns s (if c then a else b) := by
  split
  · exact ha
  · exact hb

theorem Rests.ite_snd {s : State} {α : Type} {a b : α × State} {c : Prop} [Decidable c] (ha : Rests s a.2) (hb : Rests s b.2) :
    Rests s (if c then a else b).2 := by
  split
  · exact ha
  · exact hb

theorem Rests.ite_fst {s : State} {α : Type} {a b : State × α} {c : Prop} [Decidable c] (ha : Rests s a.1) (hb : Rests s b.1) :
    Rests s (if c then a else b).1 := by
  split
  · exact ha
  · exact hb

theorem Rests.of_fst {β : Type} {s t : State} {p : State × β} {b : β} (h : Rests s p.1) (e : p = (t, b)) : Rests s t := by rw [e] at h; exact h
theorem Rests.of_snd {α : Type} {s t : State} {p : α × State} {a : α} (h : Rests s p.2) (e : p = (a, t)) : Rests s t := by rw [e] at h; exact h
theorem Rests.of_thd {α β : Type} {s t : State} {p : α × β × State} {a : α} {b : β} (h : Rests s p.2.2) (e : p = (a, b, t)) : Rests s t := by
  rw [e] at h; exact h

theorem Rests.foldl {s₀ s : State} {α : Type} {f : State → α → State} {l : List α} (hf : ∀ s a, Rests s₀ s → Rests s₀ (f s a))
    (h : Rests s₀ s) : Rests s₀ (l.foldl f s) := by
  induction l generalizing s with
  | nil => exact h
  | cons a l ih => exact ih (hf s a h)

theorem Rests.foldl_snd {s₀ : State} {α β : Type} {f : β × State → α → β × State} {l : List α} {p : β × State}
    (hf : ∀ p a, Rests s₀ p.2 → Rests s₀ (f p a).2) (h : Rests s₀ p.2) : Rests s₀ (l.foldl f p).2 := by
  induction l generalizing p with
  | nil => exact h
  | cons a l ih => exact ih (hf p a h)

theorem Rests.foldl_fst {s₀ : State} {α β : Type} {f : State × β → α → State × β} {l : List α} {p : State × β}
    (hf : ∀ p a, Rests s₀ p.1 → Rests s₀ (f p a).1) (h : Rests s₀ p.1) : Rests s₀ (l.foldl f p).1 := by
  induction l generalizing p with
  | nil => exact h
  | cons a l ih => exact ih (hf p a h)

/-- A fold over anything that carries a state. -/
theorem Rests.foldl_by {s₀ : State} {α β : Type} (g : β → State) {f : β → α → β} {l : List α} {b : β}
    (hf : ∀ b a, Rests s₀ (g b) → Rests s₀ (g (f b a))) (h : Rests s₀ (g b)) : Rests s₀ (g (l.foldl f b)) := by
  induction l generalizing b with
  | nil => exact h
  | cons a l ih => exact ih (hf b a h)

/-- Only other fields change. -/
theorem Rests.upd {s₀ s : State} (h : Rests s₀ s) (variant now regs work objs pages hif sip kor cmp flm spl scn exp ins lpe mot lat trn cul ect boot pwr otp sec tap flt hdg evr marks waiting out freeCtr pending) :
    Rests s₀ { s with variant := variant, now := now, regs := regs, work := work, objs := objs, pages := pages, hif := hif, sip := sip, kor := kor, cmp := cmp, flm := flm, spl := spl, scn := scn, exp := exp, ins := ins, lpe := lpe, mot := mot, lat := lat, trn := trn, cul := cul, ect := ect, boot := boot, pwr := pwr, otp := otp, sec := sec, tap := tap, flt := flt, hdg := hdg, evr := evr, marks := marks, waiting := waiting, out := out, freeCtr := freeCtr, pending := pending } :=
  ⟨h.dram, h.tile, h.spool⟩

theorem State.setWord_rests {s₀ s : State} (h : Rests s₀ s) (off : Nat) (w : Word) : Rests s₀ (s.setWord off w) := ⟨h.dram, h.tile, h.spool⟩
theorem State.setWork_rests {s₀ s : State} (h : Rests s₀ s) (off : Nat) (w : Word) : Rests s₀ (s.setWork off w) := ⟨h.dram, h.tile, h.spool⟩
theorem State.resetRegs_rests {s₀ s : State} (h : Rests s₀ s) (lo hi : Nat) : Rests s₀ (s.resetRegs lo hi) := ⟨h.dram, h.tile, h.spool⟩
theorem State.takeShadows_rests {s₀ : State} (off stride n : Nat) : ∀ (s : State) (_ : Rests s₀ s), Rests s₀ (s.takeShadows off stride n) := by
  induction n generalizing off with
  | zero => intro s h; exact h
  | succ n ih => intro s h; exact ih (off + stride) _ (State.setWork_rests h _ _)
theorem State.drew_rests {s₀ s : State} (h : Rests s₀ s) : Rests s₀ s.drew := ⟨h.dram, h.tile, h.spool⟩
theorem State.emit_rests {s₀ s : State} (h : Rests s₀ s) (o : Output) : Rests s₀ (s.emit o) := ⟨h.dram, h.tile, h.spool⟩

end Sys2Proof.Machine
end

