-- ==== Sys2Proof/Laws/RestOps.lean ====
section
/-! SUPPORT. Which operations of Machine/Ops.lean leave the memories as they are (Laws/Rest.lean). -/
namespace Sys2Proof.Machine
set_option Elab.async false
set_option linter.all false

theorem State.setF_rests {s₀ s : State} (h : Rests s₀ s) (x : Fld) (v : Nat) : Rests s₀ (State.setF s x v) := by
  unfold State.setF
  repeat' first | with_reducible assumption | with_reducible apply State.setWord_rests

theorem State.setB_rests {s₀ s : State} (h : Rests s₀ s) (x : Fld) (v : Bool) : Rests s₀ (State.setB s x v) := by
  unfold State.setB
  repeat' first | with_reducible assumption | with_reducible apply State.setF_rests | with_reducible refine Rests.ite ?_ ?_

theorem State.mark_rests {s₀ s : State} (h : Rests s₀ s) (what : Nat) (arg : Nat) : Rests s₀ (State.mark s what arg) := by
  unfold State.mark
  try dsimp only
  repeat' first | with_reducible assumption | (with_reducible apply Rests.upd; with_reducible assumption)

theorem State.satInc_rests {s₀ s : State} (h : Rests s₀ s) (x : Fld) (n : Nat) : Rests s₀ (State.satInc s x n) := by
  unfold State.satInc
  repeat' first | with_reducible assumption | with_reducible apply State.setF_rests | with_reducible apply State.mark_rests

theorem State.wrapInc_rests {s₀ s : State} (h : Rests s₀ s) (x : Fld) (n : Nat) : Rests s₀ (State.wrapInc s x n) := by
  unfold State.wrapInc
  repeat' first | with_reducible assumption | with_reducible apply State.setF_rests | with_reducible apply State.mark_rests

theorem State.raise_rests {s₀ s : State} (h : Rests s₀ s) (x : Fld) : Rests s₀ (State.raise s x) := by
  unfold State.raise
  repeat' first | with_reducible assumption | with_reducible apply State.setF_rests | with_reducible apply State.mark_rests

theorem State.lower_rests {s₀ s : State} (h : Rests s₀ s) (x : Fld) (n : Nat) : Rests s₀ (State.lower s x n) := by
  unfold State.lower
  repeat' first | with_reducible assumption | with_reducible apply State.setF_rests | with_reducible apply State.mark_rests | with_reducible refine Rests.ite ?_ ?_

theorem State.hwF_rests {s₀ s : State} (h : Rests s₀ s) (x : Fld) (v : Nat) : Rests s₀ (State.hwF s x v) := by
  unfold State.hwF
  repeat' first | with_reducible assumption | with_reducible apply State.setF_rests | with_reducible refine Rests.ite ?_ ?_

theorem State.set64_rests {s₀ s : State} (h : Rests s₀ s) (lo : Nat) (v : Nat) : Rests s₀ (State.set64 s lo v) := by
  unfold State.set64
  repeat' first | with_reducible assumption | with_reducible apply State.setWord_rests

theorem State.takeShadow_rests {s₀ s : State} (h : Rests s₀ s) (off : Nat) : Rests s₀ (State.takeShadow s off) := by
  unfold State.takeShadow
  repeat' first | with_reducible assumption | with_reducible apply State.setWork_rests

theorem State.drawn_rests {s₀ : State}  (fuel : Nat) : ∀ (s : State) (_ : Rests s₀ s), Rests s₀ (State.drawn s fuel).1 := by
  induction fuel with
  | zero => intro s h; unfold State.drawn; exact h
  | succ fuel ih =>
    intro s h
    unfold State.drawn
    repeat' first | (extract_lets +onlyGivenNames z; first | (refine Rests.cut (s₀ := s₀) z ?_ ?_; rotate_left; clear_value z; intro hz; rotate_left; subst z) | (refine Rests.cut (s₀ := s₀) (z : _ × State).2 ?_ ?_; rotate_left; clear_value z; intro hz; rotate_left; subst z) | (refine Rests.cut (s₀ := s₀) (z : State × _).1 ?_ ?_; rotate_left; clear_value z; intro hz; rotate_left; subst z) | (refine Rests.cut (s₀ := s₀) (z : _ × _ × State).2.2 ?_ ?_; rotate_left; clear_value z; intro hz; rotate_left; subst z) | clear_value z) | with_reducible assumption | with_reducible apply ih | with_reducible apply State.drew_rests | split | dsimp only

theorem State.report_rests {s₀ s : State} (h : Rests s₀ s) (src : Nat) (cls : Nat) (cause : Nat) (param : Nat) (addr : Nat) (access : Nat) (master : Nat) : Rests s₀ (State.report s src cls cause param addr access master) := by
  unfold State.report
  try dsimp only
  repeat' first | with_reducible assumption | (with_reducible apply Rests.upd; with_reducible assumption)

theorem State.reportAccess_rests {s₀ s : State} (h : Rests s₀ s) (src : Nat) (cause : Nat) (access : Nat) (master : Nat) (addr : Nat) (value : Nat) : Rests s₀ (State.reportAccess s src cause access master addr value) := by
  unfold State.reportAccess
  repeat' first | with_reducible assumption | with_reducible apply State.report_rests

theorem State.drivePin_rests {s₀ s : State} (h : Rests s₀ s) (name : Nat) (old : Bool) (new : Bool) : Rests s₀ (State.drivePin s name old new) := by
  unfold State.drivePin
  repeat' first | with_reducible assumption | with_reducible apply State.emit_rests | with_reducible refine Rests.ite ?_ ?_

theorem State.setSpool_rests {s₀ s : State} (h : Rests s₀ s) (on : Bool) : Rests s₀ (State.setSpool s on) := by
  unfold State.setSpool
  repeat' first | with_reducible assumption | with_reducible apply State.drivePin_rests | with_reducible apply State.setB_rests | (with_reducible apply Rests.foldl; intro _ _ _)

theorem State.event_rests {s₀ s : State} (h : Rests s₀ s) (ev : Nat) : Rests s₀ (State.event s ev) := by
  unfold State.event
  try dsimp only
  repeat' first | with_reducible assumption | with_reducible refine Rests.ite ?_ ?_ | (with_reducible apply Rests.upd; with_reducible assumption)

theorem State.touch_rests {s₀ s : State} (h : Rests s₀ s) (off : Nat) : Rests s₀ (State.touch s off) := by
  unfold State.touch
  try dsimp only
  repeat' first | with_reducible assumption | with_reducible refine Rests.ite ?_ ?_ | (with_reducible apply Rests.upd; with_reducible assumption)

theorem State.bootStop_rests {s₀ s : State} (h : Rests s₀ s) (code : Nat) : Rests s₀ (State.bootStop s code) := by
  unfold State.bootStop
  repeat' first | (extract_lets +onlyGivenNames z; first | (refine Rests.cut (s₀ := s₀) z ?_ ?_; rotate_left; clear_value z; intro hz; rotate_left; subst z) | clear_value z) | with_reducible assumption | with_reducible apply State.setF_rests | (with_reducible apply Rests.upd; with_reducible assumption)

theorem State.darkWrite_rests {s₀ s : State} (h : Rests s₀ s) (off : Nat) (value : Nat) (master : Nat) : Rests s₀ (State.darkWrite s off value master) := by
  unfold State.darkWrite
  repeat' first | with_reducible assumption | with_reducible apply State.reportAccess_rests

theorem State.setObj_rests {s₀ s : State} (h : Rests s₀ s) (index : Nat) (sub : Nat) (v : Nat) : Rests s₀ (State.setObj s index sub v) := by
  unfold State.setObj
  repeat' first | (extract_lets +onlyGivenNames z; first | (refine Rests.cut (s₀ := s₀) z ?_ ?_; rotate_left; clear_value z; intro hz; rotate_left; subst z) | clear_value z) | with_reducible assumption | (with_reducible apply Rests.upd; with_reducible assumption)

theorem State.setFn_rests {s₀ s : State} (h : Rests s₀ s) (fn : Nat) (x : FnState) : Rests s₀ (State.setFn s fn x) := by
  unfold State.setFn
  try dsimp only
  repeat' first | with_reducible assumption | (with_reducible apply Rests.upd; with_reducible assumption)

theorem State.signal_rests {s₀ s : State} (h : Rests s₀ s) (fn : Nat) (vec : Nat) : Rests s₀ (State.signal s fn vec) := by
  unfold State.signal
  try dsimp only
  repeat' first | with_reducible assumption | with_reducible apply State.setWord_rests | with_reducible apply State.emit_rests | with_reducible refine Rests.ite ?_ ?_

theorem State.pf_rests {s₀ s : State} (h : Rests s₀ s) (vec : Nat) : Rests s₀ (State.pf s vec) := by
  unfold State.pf
  repeat' first | with_reducible assumption | with_reducible apply State.signal_rests

theorem State.record_rests {s₀ s : State} (h : Rests s₀ s) (source : Nat) (cause : Nat) (severity : Nat) (p0 : Nat) (p1 : Nat) (p2 : Nat) (master : Nat) (access : Nat) (lastWords : Bool) : Rests s₀ (State.record s source cause severity p0 p1 p2 master access lastWords) := by
  unfold State.record
  try dsimp only
  repeat' first | with_reducible assumption | with_reducible apply State.setF_rests | with_reducible apply State.satInc_rests | with_reducible refine Rests.ite ?_ ?_ | (with_reducible apply Rests.upd; with_reducible assumption)

end Sys2Proof.Machine
end

