-- ==== Sys2Proof/Laws/RestFuses.lean ====
section
/-! SUPPORT. Which operations of Machine/Fuses.lean leave the memories as they are (Laws/Rest.lean). -/
namespace Sys2Proof.Machine
set_option Elab.async false
set_option linter.all false

theorem State.setOtpWord_rests {s₀ s : State} (h : Rests s₀ s) (n : Nat) (w : OtpWord) : Rests s₀ (State.setOtpWord s n w) := by
  unfold State.setOtpWord
  try dsimp only
  repeat' first | with_reducible assumption | (with_reducible apply Rests.upd; with_reducible assumption)

theorem State.setOtpRow_rests {s₀ s : State} (h : Rests s₀ s) (r : Nat) (m : BitVec 32) : Rests s₀ (State.setOtpRow s r m) := by
  unfold State.setOtpRow
  try dsimp only
  repeat' first | with_reducible assumption | with_reducible apply State.setWord_rests | split | (with_reducible apply Rests.upd; with_reducible assumption)

theorem State.thermoTo_rests {s₀ s : State} (h : Rests s₀ s) (base : Nat) (n : Nat) (count : Nat) : Rests s₀ (State.thermoTo s base n count) := by
  unfold State.thermoTo
  try dsimp only
  repeat' first | with_reducible assumption | with_reducible apply State.setOtpRow_rests | (with_reducible apply Rests.foldl; intro _ _ _) | with_reducible refine Rests.ite ?_ ?_

theorem State.otpShow_rests {s₀ s : State} (h : Rests s₀ s) : Rests s₀ (State.otpShow s) := by
  unfold State.otpShow
  repeat' first | (extract_lets +onlyGivenNames z; first | (refine Rests.cut (s₀ := s₀) z ?_ ?_; rotate_left; clear_value z; intro hz; rotate_left; subst z) | clear_value z) | with_reducible assumption | with_reducible apply State.set64_rests | with_reducible apply State.setF_rests

theorem State.otpCut_rests {s₀ s : State} (h : Rests s₀ s) : Rests s₀ (State.otpCut s) := by
  unfold State.otpCut
  repeat' first | (extract_lets +onlyGivenNames z; first | (refine Rests.cut (s₀ := s₀) z ?_ ?_; rotate_left; clear_value z; intro hz; rotate_left; subst z) | clear_value z) | with_reducible assumption | with_reducible apply State.setOtpWord_rests | with_reducible apply State.drew_rests | with_reducible apply State.setOtpRow_rests | with_reducible refine Rests.ite ?_ ?_ | split | (with_reducible apply Rests.upd; with_reducible assumption)

end Sys2Proof.Machine
end

