-- ==== Sys2Proof/Laws/RestHostOps.lean ====
section
/-! SUPPORT. Which operations of Machine/HostOps.lean leave the memories as they are (Laws/Rest.lean). -/
namespace Sys2Proof.Machine
set_option Elab.async false
set_option linter.all false

theorem State.syncQueue_rests {s₀ s : State} (h : Rests s₀ s) (fn : Nat) : Rests s₀ (State.syncQueue s fn) := by
  unfold State.syncQueue
  repeat' first | (extract_lets +onlyGivenNames z; first | (refine Rests.cut (s₀ := s₀) z ?_ ?_; rotate_left; clear_value z; intro hz; rotate_left; subst z) | clear_value z) | with_reducible assumption | with_reducible apply State.setF_rests | with_reducible apply State.setB_rests

theorem State.syncQueues_rests {s₀ s : State} (h : Rests s₀ s) : Rests s₀ (State.syncQueues s) := by
  unfold State.syncQueues
  repeat' first | with_reducible assumption | with_reducible apply State.syncQueue_rests | (with_reducible apply Rests.foldl; intro _ _ _)

theorem State.writeEntry_rests {s₀ s : State} (h : Rests s₀ s) (fn : Nat) (e : CqEntry) : Rests s₀ (State.writeEntry s fn e) := by
  unfold State.writeEntry
  repeat' first | (extract_lets +onlyGivenNames z; first | (refine Rests.cut (s₀ := s₀) z ?_ ?_; rotate_left; clear_value z; intro hz; rotate_left; subst z) | clear_value z) | with_reducible assumption | with_reducible apply State.emit_rests | with_reducible apply State.setF_rests | with_reducible apply State.setB_rests | with_reducible apply State.setFn_rests | with_reducible apply State.signal_rests | with_reducible refine Rests.ite ?_ ?_ | (with_reducible apply Rests.upd; with_reducible assumption)

theorem State.post_rests {s₀ s : State} (h : Rests s₀ s) (fn : Nat) (e : CqEntry) : Rests s₀ (State.post s fn e) := by
  unfold State.post
  try dsimp only
  repeat' first | with_reducible assumption | with_reducible apply State.writeEntry_rests | with_reducible apply State.setFn_rests | with_reducible apply State.syncQueue_rests | with_reducible refine Rests.ite ?_ ?_ | (with_reducible apply Rests.upd; with_reducible assumption)

theorem State.drainBacklog_rests {s₀ : State} (fn : Nat) (fuel : Nat) : ∀ (s : State) (_ : Rests s₀ s), Rests s₀ (State.drainBacklog s fn fuel) := by
  induction fuel generalizing fn with
  | zero => intro s h; unfold State.drainBacklog; exact h
  | succ fuel ih =>
    intro s h
    unfold State.drainBacklog
    repeat' first | (extract_lets +onlyGivenNames z; first | (refine Rests.cut (s₀ := s₀) z ?_ ?_; rotate_left; clear_value z; intro hz; rotate_left; subst z) | clear_value z) | with_reducible assumption | with_reducible apply ih | with_reducible apply State.setFn_rests | with_reducible apply State.writeEntry_rests | with_reducible refine Rests.ite ?_ ?_ | split | (with_reducible apply Rests.upd; with_reducible assumption)

theorem State.pauseQueue_rests {s₀ s : State} (h : Rests s₀ s) (fn : Nat) (cause : Nat) : Rests s₀ (State.pauseQueue s fn cause) := by
  unfold State.pauseQueue
  try dsimp only
  repeat' first | with_reducible assumption | with_reducible apply State.setF_rests | with_reducible apply State.signal_rests | with_reducible apply State.setFn_rests | with_reducible refine Rests.ite ?_ ?_ | (with_reducible apply Rests.upd; with_reducible assumption)

theorem State.errorQueue_rests {s₀ s : State} (h : Rests s₀ s) (fn : Nat) (code : Nat) : Rests s₀ (State.errorQueue s fn code) := by
  unfold State.errorQueue
  repeat' first | with_reducible assumption | with_reducible apply State.setF_rests | with_reducible apply State.signal_rests

end Sys2Proof.Machine
end

