-- ==== Sys2Proof/Laws/RestSpoolBase.lean ====
section
/-! SUPPORT. Which operations of Machine/SpoolBase.lean leave the memories as they are (Laws/Rest.lean). -/
namespace Sys2Proof.Machine
set_option Elab.async false
set_option linter.all false

theorem State.sliceVector_rests {s₀ s : State} (h : Rests s₀ s) (fn : Nat) : Rests s₀ (State.sliceVector s fn) := by
  unfold State.sliceVector
  repeat' first | with_reducible assumption | with_reducible apply State.pf_rests | with_reducible apply State.signal_rests | with_reducible refine Rests.ite ?_ ?_

theorem State.setDrive_rests {s₀ s : State} (h : Rests s₀ s) (d : Nat) (x : Drive) : Rests s₀ (State.setDrive s d x) := by
  unfold State.setDrive
  try dsimp only
  repeat' first | with_reducible assumption | (with_reducible apply Rests.upd; with_reducible assumption)

theorem State.unmap_rests {s₀ s : State} (h : Rests s₀ s) (m : BitVec 4) : Rests s₀ (State.unmap s m) := by
  unfold State.unmap
  repeat' first | with_reducible assumption | with_reducible apply State.emit_rests | (with_reducible apply Rests.foldl; intro _ _ _)

theorem State.syncCap_rests {s₀ s : State} (h : Rests s₀ s) : Rests s₀ (State.syncCap s) := by
  unfold State.syncCap
  repeat' first | with_reducible assumption | with_reducible apply State.setF_rests

theorem State.syncRefused_rests {s₀ s : State} (h : Rests s₀ s) (v : Bool) : Rests s₀ (State.syncRefused s v) := by
  unfold State.syncRefused
  repeat' first | with_reducible assumption | with_reducible apply State.setB_rests | (with_reducible apply Rests.foldl; intro _ _ _)

theorem State.showRefusal_rests {s₀ s : State} (h : Rests s₀ s) : Rests s₀ (State.showRefusal s) := by
  unfold State.showRefusal
  try dsimp only
  repeat' first | with_reducible assumption | with_reducible apply State.setF_rests | with_reducible apply State.setB_rests | with_reducible apply State.syncRefused_rests | with_reducible apply State.pf_rests | with_reducible refine Rests.ite ?_ ?_

theorem State.writeSalts_rests {s₀ s : State} (h : Rests s₀ s) : Rests s₀ (State.writeSalts s) := by
  unfold State.writeSalts
  repeat' first | (extract_lets +onlyGivenNames z; first | (refine Rests.cut (s₀ := s₀) z ?_ ?_; rotate_left; clear_value z; intro hz; rotate_left; subst z) | (have _f := fun a => z a; clear _f; subst z; try dsimp -zeta only) | clear_value z) | with_reducible assumption | with_reducible apply State.setDrive_rests | (with_reducible apply Rests.foldl; intro _ _ _) | with_reducible refine Rests.ite ?_ ?_ | (with_reducible apply Rests.upd; with_reducible assumption)

theorem State.retrySalts_rests {s₀ s : State} (h : Rests s₀ s) : Rests s₀ (State.retrySalts s) := by
  unfold State.retrySalts
  repeat' first | with_reducible assumption | with_reducible apply State.writeSalts_rests | with_reducible apply State.showRefusal_rests | with_reducible refine Rests.ite ?_ ?_

theorem State.alloc_rests {s₀ s : State} (h : Rests s₀ s) (fn : Nat) (n : Nat) : Rests s₀ (State.alloc s fn n) := by
  unfold State.alloc
  repeat' first | with_reducible assumption | with_reducible apply State.setF_rests | with_reducible apply State.syncCap_rests

theorem State.dealloc_rests {s₀ s : State} (h : Rests s₀ s) (fn : Nat) (n : Nat) : Rests s₀ (State.dealloc s fn n) := by
  unfold State.dealloc
  repeat' first | with_reducible assumption | with_reducible apply State.setF_rests | with_reducible apply State.syncCap_rests | with_reducible apply State.retrySalts_rests

theorem State.syncCopies_rests {s₀ s : State} (h : Rests s₀ s) (fn : Nat) : Rests s₀ (State.syncCopies s fn) := by
  unfold State.syncCopies
  repeat' first | with_reducible assumption | with_reducible apply State.setF_rests

theorem State.freeAudit_rests {s₀ s : State} (h : Rests s₀ s) (a : Audit) : Rests s₀ (State.freeAudit s a) := by
  unfold State.freeAudit
  try dsimp only
  repeat' first | with_reducible assumption | with_reducible apply State.dealloc_rests | with_reducible apply State.unmap_rests | (with_reducible apply Rests.upd; with_reducible assumption)

theorem State.freeAudits_rests {s₀ s : State} (h : Rests s₀ s) (fn : Nat) (id : BitVec 64) : Rests s₀ (State.freeAudits s fn id) := by
  unfold State.freeAudits
  repeat' first | with_reducible assumption | with_reducible apply State.freeAudit_rests | (with_reducible apply Rests.foldl; intro _ _ _)

theorem State.freeCopy_rests {s₀ s : State} (h : Rests s₀ s) (fn : Nat) (id : BitVec 64) : Rests s₀ (State.freeCopy s fn id) := by
  unfold State.freeCopy
  try dsimp only
  repeat' first | with_reducible assumption | with_reducible apply State.dealloc_rests | with_reducible apply State.unmap_rests | with_reducible apply State.syncCopies_rests | split | (with_reducible apply Rests.upd; with_reducible assumption)

theorem State.newCopy_rests {s₀ s : State} (h : Rests s₀ s) (fn : Nat) (d : PageDesc) (src : List SourceEntry) : Rests s₀ (State.newCopy s fn d src) := by
  unfold State.newCopy
  repeat' first | (extract_lets +onlyGivenNames z; first | (refine Rests.cut (s₀ := s₀) z ?_ ?_; rotate_left; clear_value z; intro hz; rotate_left; subst z) | clear_value z) | with_reducible assumption | with_reducible apply State.alloc_rests | with_reducible apply State.syncCopies_rests | (with_reducible apply Rests.upd; with_reducible assumption)

theorem State.modCopy_rests {s₀ s : State} (h : Rests s₀ s) (key : Nat) (g : Copy → Copy) : Rests s₀ (State.modCopy s key g) := by
  unfold State.modCopy
  try dsimp only
  repeat' first | with_reducible assumption | with_reducible refine Rests.ite ?_ ?_ | (with_reducible apply Rests.upd; with_reducible assumption)

end Sys2Proof.Machine
end

