-- ==== Sys2Proof/Laws/RestCulBase.lean ====
section
/-! SUPPORT. Which operations of Machine/CulBase.lean leave the memories as they are (Laws/Rest.lean). -/
namespace Sys2Proof.Machine
set_option Elab.async false
set_option linter.all false

theorem State.setCul_rests {s₀ s : State} (h : Rests s₀ s) (v : Nat) : Rests s₀ (State.setCul s v) := by
  unfold State.setCul
  repeat' first | with_reducible assumption | with_reducible apply State.setF_rests | with_reducible apply State.pf_rests | with_reducible refine Rests.ite ?_ ?_

theorem State.culReport_rests {s₀ s : State} (h : Rests s₀ s) (cls : Nat) (cause : Nat) (dev : Nat) (port : Nat) (addr : Nat) : Rests s₀ (State.culReport s cls cause dev port addr) := by
  unfold State.culReport
  repeat' first | with_reducible assumption | with_reducible apply State.report_rests

theorem State.setPortState_rests {s₀ s : State} (h : Rests s₀ s) (east : Bool) (v : Nat) : Rests s₀ (State.setPortState s east v) := by
  unfold State.setPortState
  try dsimp only
  repeat' first | with_reducible assumption | with_reducible apply State.setF_rests | with_reducible apply State.pf_rests | with_reducible refine Rests.ite ?_ ?_

theorem State.culOut_rests {s₀ s : State} (h : Rests s₀ s) (east : Bool) (m : List Byte) : Rests s₀ (State.culOut s east m) := by
  unfold State.culOut
  repeat' first | with_reducible assumption | with_reducible apply State.emit_rests | with_reducible refine Rests.ite ?_ ?_

theorem State.culMake_rests {s₀ s : State} (h : Rests s₀ s) (mtype : Nat) (dst : Nat) (body : List Byte) : Rests s₀ (State.culMake s mtype dst body).2 := by
  unfold State.culMake
  try dsimp only
  repeat' first | with_reducible assumption | split | (with_reducible apply Rests.upd; first | with_reducible assumption ) | dsimp only

theorem State.culBroadcast_rests {s₀ s : State} (h : Rests s₀ s) (mtype : Nat) (body : List Byte) : Rests s₀ (State.culBroadcast s mtype body) := by
  unfold State.culBroadcast
  try dsimp only
  repeat' first | with_reducible assumption | with_reducible apply State.culMake_rests | with_reducible apply State.culOut_rests | (refine Rests.of_snd ?_ (by assumption)) | split | (with_reducible apply Rests.upd; first | with_reducible assumption | with_reducible apply State.culMake_rests | with_reducible apply State.culOut_rests) | dsimp only

theorem State.culSend_rests {s₀ s : State} (h : Rests s₀ s) (mtype : Nat) (dst : Nat) (body : List Byte) (east : Bool) (wait : Bool) : Rests s₀ (State.culSend s mtype dst body east wait) := by
  unfold State.culSend
  repeat' first | (extract_lets +onlyGivenNames z; first | (refine Rests.cut (s₀ := s₀) z ?_ ?_; rotate_left; clear_value z; intro hz; rotate_left; subst z) | (refine Rests.cut (s₀ := s₀) (z : _ × State).2 ?_ ?_; rotate_left; clear_value z; intro hz; rotate_left; subst z) | (refine Rests.cut (s₀ := s₀) (z : State × _).1 ?_ ?_; rotate_left; clear_value z; intro hz; rotate_left; subst z) | (refine Rests.cut (s₀ := s₀) (z : _ × _ × State).2.2 ?_ ?_; rotate_left; clear_value z; intro hz; rotate_left; subst z) | clear_value z) | with_reducible assumption | with_reducible apply State.culMake_rests | with_reducible apply State.culOut_rests | (refine Rests.of_snd ?_ (by assumption)) | with_reducible refine Rests.ite ?_ ?_ | with_reducible refine Rests.ite_snd ?_ ?_ | with_reducible refine Rests.ite_fst ?_ ?_ | split | (with_reducible apply Rests.upd; first | with_reducible assumption | with_reducible apply State.culMake_rests | with_reducible apply State.culOut_rests) | dsimp only

theorem State.culAnswered_rests {s₀ s : State} (h : Rests s₀ s) (mtype : Nat) (dst : Nat) : Rests s₀ (State.culAnswered s mtype dst) := by
  unfold State.culAnswered
  try dsimp only
  repeat' first | with_reducible assumption | (with_reducible apply Rests.upd; with_reducible assumption)

theorem State.culForward_rests {s₀ s : State} (h : Rests s₀ s) (east : Bool) (m : List Byte) : Rests s₀ (State.culForward s east m) := by
  unfold State.culForward
  repeat' first | with_reducible assumption | with_reducible apply State.culOut_rests

theorem State.culFaultOut_rests {s₀ s : State} (h : Rests s₀ s) (r : Report) : Rests s₀ (State.culFaultOut s r) := by
  unfold State.culFaultOut
  try dsimp only
  repeat' first | with_reducible assumption | with_reducible apply State.culMake_rests | with_reducible apply State.culOut_rests | (refine Rests.of_snd ?_ (by assumption)) | with_reducible refine Rests.ite ?_ ?_ | with_reducible refine Rests.ite_snd ?_ ?_ | with_reducible refine Rests.ite_fst ?_ ?_ | split | dsimp only

theorem State.xcalAbandon_rests {s₀ s : State} (h : Rests s₀ s) (absent : Nat) : Rests s₀ (State.xcalAbandon s absent) := by
  unfold State.xcalAbandon
  repeat' first | (extract_lets +onlyGivenNames z; first | (refine Rests.cut (s₀ := s₀) z ?_ ?_; rotate_left; clear_value z; intro hz; rotate_left; subst z) | clear_value z) | with_reducible assumption | with_reducible apply State.culBroadcast_rests | with_reducible apply State.setF_rests | with_reducible refine Rests.ite ?_ ?_ | (with_reducible apply Rests.upd; with_reducible assumption)

theorem State.freeBytes_rests {s₀ : State} (n : Nat) : ∀ (s : State) (_ : Rests s₀ s), Rests s₀ (s.freeBytes n).2 := by
  induction n with
  | zero => intro s h; exact h
  | succ n ih => intro s h; exact ih _ (State.drew_rests h)

theorem State.sendFeatures_rests {s₀ s : State} (h : Rests s₀ s) (pageId : BitVec 64) (inspected : Bool) : Rests s₀ (State.sendFeatures s pageId inspected) := by
  unfold State.sendFeatures
  try dsimp only
  repeat' first | with_reducible assumption | with_reducible apply State.drew_rests | with_reducible apply State.freeBytes_rests | with_reducible apply State.culSend_rests | (refine Rests.of_snd ?_ (by assumption)) | with_reducible refine Rests.ite ?_ ?_ | with_reducible refine Rests.ite_snd ?_ ?_ | with_reducible refine Rests.ite_fst ?_ ?_ | split | dsimp only

theorem State.culTake_rests {s₀ s : State} (h : Rests s₀ s) (mtype : Nat) (east : Bool) (m : List Byte) : Rests s₀ (State.culTake s mtype east m).2 := by
  unfold State.culTake
  try dsimp only
  repeat' first | with_reducible assumption | with_reducible apply State.satInc_rests | with_reducible apply State.culForward_rests | with_reducible refine Rests.ite ?_ ?_ | with_reducible refine Rests.ite_snd ?_ ?_ | with_reducible refine Rests.ite_fst ?_ ?_ | split | (with_reducible apply Rests.upd; first | with_reducible assumption | with_reducible apply State.satInc_rests | with_reducible apply State.culForward_rests) | dsimp only

end Sys2Proof.Machine
end

