-- ==== Sys2Proof/Laws/RestPageOps.lean ====
section
/-! SUPPORT. Which operations of Machine/PageOps.lean leave the memories as they are (Laws/Rest.lean). -/
namespace Sys2Proof.Machine
set_option Elab.async false
set_option linter.all false

theorem State.pageEvent_rests {s₀ s : State} (h : Rests s₀ s) (p : Page) (status : Nat) (reason : Nat) (station : Nat) : Rests s₀ (State.pageEvent s p status reason station) := by
  unfold State.pageEvent
  repeat' first | (extract_lets +onlyGivenNames z; first | (refine Rests.cut (s₀ := s₀) z ?_ ?_; rotate_left; clear_value z; intro hz; rotate_left; subst z) | clear_value z) | with_reducible assumption | with_reducible apply State.post_rests | with_reducible refine Rests.ite ?_ ?_ | (with_reducible apply Rests.upd; with_reducible assumption)

theorem State.descEvent_rests {s₀ s : State} (h : Rests s₀ s) (fn : Nat) (d : PageDesc) (status : Nat) : Rests s₀ (State.descEvent s fn d status) := by
  unfold State.descEvent
  repeat' first | (extract_lets +onlyGivenNames z; first | (refine Rests.cut (s₀ := s₀) z ?_ ?_; rotate_left; clear_value z; intro hz; rotate_left; subst z) | clear_value z) | with_reducible assumption | with_reducible apply State.post_rests | (with_reducible apply Rests.upd; with_reducible assumption)

theorem State.modPage_rests {s₀ s : State} (h : Rests s₀ s) (seq : Nat) (g : Page → Page) : Rests s₀ (State.modPage s seq g) := by
  unfold State.modPage
  try dsimp only
  repeat' first | with_reducible assumption | with_reducible refine Rests.ite ?_ ?_ | (with_reducible apply Rests.upd; with_reducible assumption)

theorem State.dropPage_rests {s₀ s : State} (h : Rests s₀ s) (seq : Nat) : Rests s₀ (State.dropPage s seq) := by
  unfold State.dropPage
  try dsimp only
  repeat' first | with_reducible assumption | (with_reducible apply Rests.upd; with_reducible assumption)

theorem State.modFrame_rests {s₀ s : State} (h : Rests s₀ s) (seq : Nat) (g : Frame → Frame) : Rests s₀ (State.modFrame s seq g) := by
  unfold State.modFrame
  try dsimp only
  repeat' first | with_reducible assumption | with_reducible refine Rests.ite ?_ ?_ | (with_reducible apply Rests.upd; with_reducible assumption)

theorem State.blankEvent_rests {s₀ s : State} (h : Rests s₀ s) (tof : Nat) (c0 : Bool) : Rests s₀ (State.blankEvent s tof c0) := by
  unfold State.blankEvent
  repeat' first | with_reducible assumption | with_reducible apply State.report_rests | with_reducible apply State.setObj_rests | with_reducible refine Rests.ite ?_ ?_

theorem State.sendSchedule_rests {s₀ s : State} (h : Rests s₀ s) (id : Nat) (t : Nat) (latch : Nat) (pitch : Nat) (status : Nat) (rem : Nat) (frame : Nat) : Rests s₀ (State.sendSchedule s id t latch pitch status rem frame) := by
  unfold State.sendSchedule
  repeat' first | with_reducible assumption | with_reducible apply State.culBroadcast_rests | with_reducible apply State.latch_rests

theorem State.blankFrame_rests {s₀ s : State} (h : Rests s₀ s) : Rests s₀ (State.blankFrame s) := by
  unfold State.blankFrame
  repeat' first | (extract_lets +onlyGivenNames z; first | (refine Rests.cut (s₀ := s₀) z ?_ ?_; rotate_left; clear_value z; intro hz; rotate_left; subst z) | clear_value z) | with_reducible assumption | with_reducible apply State.sendSchedule_rests | with_reducible apply State.blankEvent_rests | with_reducible refine Rests.ite ?_ ?_ | split | (with_reducible apply Rests.upd; with_reducible assumption)

theorem State.claimFrame_rests {s₀ s : State} (h : Rests s₀ s) (p : Page) (t : Nat) : Rests s₀ (State.claimFrame s p t) := by
  unfold State.claimFrame
  try dsimp only
  repeat' first | with_reducible assumption | with_reducible apply State.modPage_rests | (with_reducible apply Rests.upd; with_reducible assumption)

theorem State.claimAll_rests {s₀ : State}  (fuel : Nat) : ∀ (s : State) (_ : Rests s₀ s), Rests s₀ (State.claimAll s fuel) := by
  induction fuel with
  | zero => intro s h; unfold State.claimAll; exact h
  | succ fuel ih =>
    intro s h
    unfold State.claimAll
    repeat' first | (extract_lets +onlyGivenNames z; first | (refine Rests.cut (s₀ := s₀) z ?_ ?_; rotate_left; clear_value z; intro hz; rotate_left; subst z) | clear_value z) | with_reducible assumption | with_reducible apply ih | with_reducible apply State.claimFrame_rests | with_reducible apply State.blankFrame_rests | with_reducible refine Rests.ite ?_ ?_ | split | (with_reducible apply Rests.upd; with_reducible assumption)

theorem State.modLine_rests {s₀ s : State} (h : Rests s₀ s) (id : BitVec 64) (g : LinePage → LinePage) : Rests s₀ (State.modLine s id g) := by
  unfold State.modLine
  try dsimp only
  repeat' first | with_reducible assumption | with_reducible refine Rests.ite ?_ ?_ | (with_reducible apply Rests.upd; with_reducible assumption)

theorem State.layFrame_rests {s₀ s : State} (h : Rests s₀ s) (id : BitVec 64) (t : Nat) (latch : Nat) (pitch : Nat) (rem : Nat) : Rests s₀ (State.layFrame s id t latch pitch rem) := by
  unfold State.layFrame
  try dsimp only
  repeat' first | with_reducible assumption | with_reducible apply State.latch_rests | with_reducible apply State.remain_rests | with_reducible apply State.modPage_rests | with_reducible refine Rests.ite ?_ ?_ | split | (with_reducible apply Rests.upd; with_reducible assumption)

theorem State.claimLine_rests {s₀ s : State} (h : Rests s₀ s) (l : LinePage) (t : Nat) (rem : Nat) : Rests s₀ (State.claimLine s l t rem) := by
  unfold State.claimLine
  repeat' first | (extract_lets +onlyGivenNames z; first | (refine Rests.cut (s₀ := s₀) z ?_ ?_; rotate_left; clear_value z; intro hz; rotate_left; subst z) | clear_value z) | with_reducible assumption | with_reducible apply State.modLine_rests | with_reducible apply State.latch_rests | with_reducible apply State.layFrame_rests | with_reducible apply State.sendSchedule_rests | (with_reducible apply Rests.upd; with_reducible assumption)

theorem State.lineClaims_rests {s₀ : State}  (fuel : Nat) : ∀ (s : State) (_ : Rests s₀ s), Rests s₀ (State.lineClaims s fuel) := by
  induction fuel with
  | zero => intro s h; unfold State.lineClaims; exact h
  | succ fuel ih =>
    intro s h
    unfold State.lineClaims
    repeat' first | (extract_lets +onlyGivenNames z; first | (refine Rests.cut (s₀ := s₀) z ?_ ?_; rotate_left; clear_value z; intro hz; rotate_left; subst z) | clear_value z) | with_reducible assumption | with_reducible apply ih | with_reducible apply State.setF_rests | with_reducible apply State.claimLine_rests | with_reducible apply State.blankFrame_rests | with_reducible refine Rests.ite ?_ ?_ | split | (with_reducible apply Rests.upd; with_reducible assumption)

theorem State.claims_rests {s₀ s : State} (h : Rests s₀ s) : Rests s₀ (State.claims s) := by
  unfold State.claims
  repeat' first | with_reducible assumption | with_reducible apply State.lineClaims_rests | with_reducible apply State.claimAll_rests | with_reducible refine Rests.ite ?_ ?_

theorem State.commitPart_rests {s₀ s : State} (h : Rests s₀ s) (p : Page) : Rests s₀ (State.commitPart s p) := by
  unfold State.commitPart
  repeat' first | (extract_lets +onlyGivenNames z; first | (refine Rests.cut (s₀ := s₀) z ?_ ?_; rotate_left; clear_value z; intro hz; rotate_left; subst z) | clear_value z) | with_reducible assumption | with_reducible apply State.culSend_rests | with_reducible apply State.modPage_rests | with_reducible refine Rests.ite ?_ ?_ | split | (with_reducible apply Rests.upd; with_reducible assumption)

theorem State.sipPush_rests {s₀ s : State} (h : Rests s₀ s) (ch : Nat) (j : SipJob) (d : SipDesc) : Rests s₀ (State.sipPush s ch j d) := by
  unfold State.sipPush
  try dsimp only
  repeat' first | with_reducible assumption | (with_reducible apply Rests.upd; with_reducible assumption)

theorem State.pushJob_rests {s₀ s : State} (h : Rests s₀ s) (role : Nat) (own : Nat) (key : Nat) (j : SipJob) (d : SipDesc) : Rests s₀ (State.pushJob s role own key j d) := by
  unfold State.pushJob
  try dsimp only
  repeat' first | with_reducible assumption | with_reducible apply State.sipPush_rests | split | (with_reducible apply Rests.upd; with_reducible assumption)

theorem State.pushStream_rests {s₀ s : State} (h : Rests s₀ s) (p : Page) (st : Nat) (e : SourceEntry) : Rests s₀ (State.pushStream s p st e) := by
  unfold State.pushStream
  try dsimp only
  repeat' first | with_reducible assumption | with_reducible apply State.pushJob_rests | with_reducible refine Rests.ite ?_ ?_ | (with_reducible apply Rests.upd; with_reducible assumption)

theorem State.keepJobs_rests {s₀ s : State} (h : Rests s₀ s) (keep : SipJob → Bool) : Rests s₀ (State.keepJobs s keep) := by
  unfold State.keepJobs
  try dsimp only
  repeat' first | with_reducible assumption | (with_reducible apply Rests.upd; with_reducible assumption)

theorem State.stageCopy_rests {s₀ s : State} (h : Rests s₀ s) (c : Copy) : Rests s₀ (State.stageCopy s c) := by
  unfold State.stageCopy
  try dsimp only
  repeat' first | with_reducible assumption | with_reducible apply State.keepJobs_rests | with_reducible apply State.modCopy_rests | with_reducible apply State.pushJob_rests | (with_reducible apply Rests.foldl; intro _ _ _) | split | (with_reducible apply Rests.upd; with_reducible assumption)

theorem State.useStream_rests {s₀ s : State} (h : Rests s₀ s) (seq : Nat) (st : Nat) (b : Nat) : Rests s₀ (State.useStream s seq st b) := by
  unfold State.useStream
  try dsimp only
  repeat' first | with_reducible assumption | with_reducible refine Rests.ite ?_ ?_ | (with_reducible apply Rests.upd; with_reducible assumption)

theorem State.freeHeld_rests {s₀ s t : State} {st : Nat} (h : Rests s₀ s) (e : s.freeHeld st = some t) : Rests s₀ t := by
  unfold State.freeHeld at e
  have m := List.mem_of_head? e
  rw [List.mem_filterMap] at m
  obtain ⟨x, -, hx⟩ := m
  repeat' first | (split at hx) | (simp only [reduceCtorEq] at hx)
  all_goals (simp only [Option.some.injEq] at hx; subst hx; exact State.useStream_rests h _ _ _)

theorem State.ringRoom_rests {s₀ : State} (st : Nat) (n : Nat) (fuel : Nat) : ∀ (s : State) (_ : Rests s₀ s), Rests s₀ (State.ringRoom s st n fuel) := by
  induction fuel generalizing st n with
  | zero => intro s h; unfold State.ringRoom; exact h
  | succ fuel ih =>
    intro s h
    unfold State.ringRoom
    repeat' first | with_reducible assumption | with_reducible apply ih | (refine State.freeHeld_rests ?_ (by assumption)) | with_reducible refine Rests.ite ?_ ?_ | split

theorem State.startStreams_rests {s₀ s : State} (h : Rests s₀ s) (p : Page) : Rests s₀ (State.startStreams s p) := by
  unfold State.startStreams
  repeat' first | (extract_lets +onlyGivenNames z; first | (refine Rests.cut (s₀ := s₀) z ?_ ?_; rotate_left; clear_value z; intro hz; rotate_left; subst z) | clear_value z) | with_reducible assumption | with_reducible apply State.report_rests | with_reducible apply State.stageCopy_rests | with_reducible apply State.pushStream_rests | (with_reducible apply Rests.foldl; intro _ _ _) | with_reducible refine Rests.ite ?_ ?_ | split

theorem State.dropStreams_rests {s₀ s : State} (h : Rests s₀ s) (seq : Nat) : Rests s₀ (State.dropStreams s seq) := by
  unfold State.dropStreams
  try dsimp only
  repeat' first | with_reducible assumption | with_reducible apply State.keepJobs_rests | split | (with_reducible apply Rests.upd; with_reducible assumption)

theorem State.commitPage_rests {s₀ s : State} (h : Rests s₀ s) (p : Page) : Rests s₀ (State.commitPage s p) := by
  unfold State.commitPage
  repeat' first | (extract_lets +onlyGivenNames z; first | (refine Rests.cut (s₀ := s₀) z ?_ ?_; rotate_left; clear_value z; intro hz; rotate_left; subst z) | clear_value z) | with_reducible assumption | with_reducible apply State.startStreams_rests | with_reducible apply State.commitPart_rests | with_reducible apply State.claims_rests | with_reducible refine Rests.ite ?_ ?_ | (with_reducible apply Rests.upd; with_reducible assumption)

theorem State.releaseNow_rests {s₀ s : State} (h : Rests s₀ s) (p : Page) : Rests s₀ (State.releaseNow s p) := by
  unfold State.releaseNow
  repeat' first | (extract_lets +onlyGivenNames z; first | (refine Rests.cut (s₀ := s₀) z ?_ ?_; rotate_left; clear_value z; intro hz; rotate_left; subst z) | clear_value z) | with_reducible assumption | with_reducible apply State.modCopy_rests | with_reducible apply State.freeCopy_rests | with_reducible apply State.freeAudits_rests | with_reducible apply State.pageEvent_rests | with_reducible apply State.dropPage_rests | with_reducible apply State.syncQueue_rests | with_reducible refine Rests.ite ?_ ?_ | split | (with_reducible apply Rests.upd; with_reducible assumption)

theorem State.finalState_rests {s₀ s : State} (h : Rests s₀ s) (seq : Nat) (code : Nat) (reason : Nat) (station : Nat) : Rests s₀ (State.finalState s seq code reason station) := by
  unfold State.finalState
  repeat' first | (extract_lets +onlyGivenNames z; first | (refine Rests.cut (s₀ := s₀) z ?_ ?_; rotate_left; clear_value z; intro hz; rotate_left; subst z) | clear_value z) | with_reducible assumption | with_reducible apply State.setObj_rests | with_reducible apply State.record_rests | with_reducible apply State.pageEvent_rests | with_reducible apply State.modPage_rests | with_reducible apply State.syncQueue_rests | with_reducible apply State.dropPage_rests | with_reducible apply State.commitPage_rests | with_reducible apply State.releaseNow_rests | with_reducible refine Rests.ite ?_ ?_ | split | (with_reducible apply Rests.upd; with_reducible assumption)

theorem State.spoilPage_rests {s₀ s : State} (h : Rests s₀ s) (seq : Nat) (reason : Nat) (src : Nat) (param : Nat) (station : Nat) (addr : Option Nat) (cause : Option Nat) : Rests s₀ (State.spoilPage s seq reason src param station addr cause) := by
  unfold State.spoilPage
  repeat' first | (extract_lets +onlyGivenNames z; first | (refine Rests.cut (s₀ := s₀) z ?_ ?_; rotate_left; clear_value z; intro hz; rotate_left; subst z) | clear_value z) | with_reducible assumption | with_reducible apply State.report_rests | with_reducible apply State.modPage_rests | with_reducible apply State.modFrame_rests | with_reducible apply State.finalState_rests | with_reducible refine Rests.ite ?_ ?_ | split | (with_reducible apply Rests.upd; with_reducible assumption)

theorem State.withdrawPart_rests {s₀ s : State} (h : Rests s₀ s) (id : BitVec 64) : Rests s₀ (State.withdrawPart s id) := by
  unfold State.withdrawPart
  try dsimp only
  repeat' first | with_reducible assumption | with_reducible refine Rests.ite ?_ ?_ | (with_reducible apply Rests.upd; with_reducible assumption)

theorem State.withdraw_rests {s₀ s : State} (h : Rests s₀ s) (seq : Nat) (code : Nat) : Rests s₀ (State.withdraw s seq code) := by
  unfold State.withdraw
  repeat' first | (extract_lets +onlyGivenNames z; first | (refine Rests.cut (s₀ := s₀) z ?_ ?_; rotate_left; clear_value z; intro hz; rotate_left; subst z) | clear_value z) | with_reducible assumption | with_reducible apply after_rests | with_reducible apply State.withdrawPart_rests | with_reducible apply State.modFrame_rests | with_reducible apply State.finalState_rests | with_reducible apply State.dropStreams_rests | split | (with_reducible apply Rests.upd; with_reducible assumption)

end Sys2Proof.Machine
end

