-- ==== Sys2Proof/Laws/RestSipOps.lean ====
section
/-! SUPPORT. Which operations of Machine/SipOps.lean leave the memories as they are (Laws/Rest.lean). -/
namespace Sys2Proof.Machine
set_option Elab.async false
set_option linter.all false

theorem State.setChan_rests {s₀ s : State} (h : Rests s₀ s) (ch : Nat) (c : SipChan) : Rests s₀ (State.setChan s ch c) := by
  unfold State.setChan
  try dsimp only
  repeat' first | with_reducible assumption | (with_reducible apply Rests.upd; with_reducible assumption)

theorem State.setCh_rests {s₀ s : State} (h : Rests s₀ s) (ch : Nat) (st : Nat) : Rests s₀ (State.setCh s ch st) := by
  unfold State.setCh
  try dsimp only
  repeat' first | with_reducible assumption | with_reducible apply State.setF_rests | with_reducible refine Rests.ite ?_ ?_

theorem State.chIrq_rests {s₀ s : State} (h : Rests s₀ s) (ch : Nat) : Rests s₀ (State.chIrq s ch) := by
  unfold State.chIrq
  try dsimp only
  repeat' first | with_reducible assumption | with_reducible apply State.signal_rests | with_reducible apply State.pf_rests | with_reducible refine Rests.ite ?_ ?_

theorem State.sendData_rests {s₀ s : State} (h : Rests s₀ s) (fn : Nat) (attr : Nat) (a : Nat) (bs : List Byte) : Rests s₀ (State.sendData s fn attr a bs) := by
  unfold State.sendData
  repeat' first | with_reducible assumption | with_reducible apply State.emit_rests | (with_reducible apply Rests.foldl; intro _ _ _)

theorem State.dropReads_rests {s₀ s : State} (h : Rests s₀ s) (ch : Nat) : Rests s₀ (State.dropReads s ch) := by
  unfold State.dropReads
  try dsimp only
  repeat' first | with_reducible assumption | split | (with_reducible apply Rests.upd; with_reducible assumption)

theorem State.resumeChannels_rests {s₀ s : State} (h : Rests s₀ s) : Rests s₀ (State.resumeChannels s) := by
  unfold State.resumeChannels
  try dsimp only
  repeat' first | with_reducible assumption | with_reducible apply State.setCh_rests | (with_reducible apply Rests.foldl; intro _ _ _) | with_reducible refine Rests.ite ?_ ?_ | (with_reducible apply Rests.upd; with_reducible assumption)

theorem State.dropJobs_rests {s₀ s : State} (h : Rests s₀ s) (keep : SipJob → Bool) : Rests s₀ (State.dropJobs s keep) := by
  unfold State.dropJobs
  try dsimp only
  repeat' first | with_reducible assumption | with_reducible apply State.dropReads_rests | with_reducible apply State.setChan_rests | with_reducible apply State.setCh_rests | with_reducible apply State.keepJobs_rests | (with_reducible apply Rests.foldl; intro _ _ _) | with_reducible refine Rests.ite ?_ ?_ | split | (with_reducible apply Rests.upd; with_reducible assumption)

theorem State.resetChannels_rests {s₀ s : State} (h : Rests s₀ s) (fn : Nat) : Rests s₀ (State.resetChannels s fn) := by
  unfold State.resetChannels
  repeat' first | (extract_lets +onlyGivenNames z; first | (refine Rests.cut (s₀ := s₀) z ?_ ?_; rotate_left; clear_value z; intro hz; rotate_left; subst z) | clear_value z) | with_reducible assumption | with_reducible apply State.dropJobs_rests | with_reducible apply State.dropReads_rests | with_reducible apply State.setCh_rests | with_reducible apply State.setChan_rests | with_reducible apply State.resetRegs_rests | with_reducible apply State.setB_rests | (with_reducible apply Rests.foldl; intro _ _ _) | with_reducible refine Rests.ite ?_ ?_ | (with_reducible apply Rests.upd; with_reducible assumption)

theorem State.endEngineShort_rests {s₀ s : State} (h : Rests s₀ s) : Rests s₀ (State.endEngineShort s) := by
  unfold State.endEngineShort
  repeat' first | with_reducible assumption | with_reducible apply State.setF_rests | with_reducible refine Rests.ite ?_ ?_

end Sys2Proof.Machine
end

