-- ==== Sys2Proof/Laws/RestSpoolOps.lean ====
section
/-! SUPPORT. Which operations of Machine/SpoolOps.lean leave the memories as they are (Laws/Rest.lean). -/
namespace Sys2Proof.Machine
set_option Elab.async false
set_option linter.all false

theorem State.releaseHeld_rests {s₀ s : State} (h : Rests s₀ s) (c : Copy) : Rests s₀ (State.releaseHeld s c) := by
  unfold State.releaseHeld
  try dsimp only
  repeat' first | with_reducible assumption | with_reducible apply State.releaseNow_rests | split | (with_reducible apply Rests.upd; with_reducible assumption)

theorem State.loseCopy_rests {s₀ s : State} (h : Rests s₀ s) (key : Nat) : Rests s₀ (State.loseCopy s key) := by
  unfold State.loseCopy
  repeat' first | (extract_lets +onlyGivenNames z; first | (refine Rests.cut (s₀ := s₀) z ?_ ?_; rotate_left; clear_value z; intro hz; rotate_left; subst z) | clear_value z) | with_reducible assumption | with_reducible apply State.freeCopy_rests | with_reducible apply State.spoilPage_rests | with_reducible apply State.report_rests | with_reducible apply State.releaseHeld_rests | with_reducible refine Rests.ite ?_ ?_ | split

theorem State.refreshRefusal_rests {s₀ s : State} (h : Rests s₀ s) : Rests s₀ (State.refreshRefusal s) := by
  unfold State.refreshRefusal
  repeat' first | (extract_lets +onlyGivenNames z; first | (refine Rests.cut (s₀ := s₀) z ?_ ?_; rotate_left; clear_value z; intro hz; rotate_left; subst z) | clear_value z) | with_reducible assumption | with_reducible apply State.showRefusal_rests | with_reducible apply State.report_rests | with_reducible apply State.loseCopy_rests | (with_reducible apply Rests.foldl; intro _ _ _) | with_reducible refine Rests.ite ?_ ?_

theorem State.issueCmd_rests {s₀ s : State} (h : Rests s₀ s) (d : Nat) (op : NvmeOp) : Rests s₀ (State.issueCmd s d op) := by
  unfold State.issueCmd
  try dsimp only
  repeat' first | with_reducible assumption | with_reducible apply State.emit_rests | (with_reducible apply Rests.upd; with_reducible assumption)

theorem State.issueAll_rests {s₀ s : State} (h : Rests s₀ s) (ds : List Nat) (op : NvmeOp) : Rests s₀ (State.issueAll s ds op) := by
  unfold State.issueAll
  repeat' first | with_reducible assumption | with_reducible apply State.issueCmd_rests | (with_reducible apply Rests.foldl; intro _ _ _)

theorem State.issueExtent_rests {s₀ s : State} (h : Rests s₀ s) (op : NvmeOp) (x : Extent) (payload : List Byte) : Rests s₀ (State.issueExtent s op x payload).1 := by
  unfold State.issueExtent
  try dsimp only
  repeat' first | with_reducible assumption | with_reducible apply State.set64_rests | with_reducible apply State.issueAll_rests | (with_reducible apply Rests.foldl; intro _ _ _) | (with_reducible apply Rests.foldl_snd; intro _ _ _) | (with_reducible apply Rests.foldl_fst; intro _ _ _) | split | (with_reducible apply Rests.upd; first | with_reducible assumption | with_reducible apply State.set64_rests | with_reducible apply State.issueAll_rests) | dsimp only

theorem State.copyAdvance_rests {s₀ : State} (key : Nat) (fuel : Nat) : ∀ (s : State) (_ : Rests s₀ s), Rests s₀ (State.copyAdvance s key fuel) := by
  induction fuel generalizing key with
  | zero => intro s h; unfold State.copyAdvance; exact h
  | succ fuel ih =>
    intro s h
    unfold State.copyAdvance
    repeat' first | (extract_lets +onlyGivenNames z; first | (refine Rests.cut (s₀ := s₀) z ?_ ?_; rotate_left; clear_value z; intro hz; rotate_left; subst z) | (refine Rests.cut (s₀ := s₀) (z : _ × State).2 ?_ ?_; rotate_left; clear_value z; intro hz; rotate_left; subst z) | (refine Rests.cut (s₀ := s₀) (z : State × _).1 ?_ ?_; rotate_left; clear_value z; intro hz; rotate_left; subst z) | (refine Rests.cut (s₀ := s₀) (z : _ × _ × State).2.2 ?_ ?_; rotate_left; clear_value z; intro hz; rotate_left; subst z) | clear_value z) | with_reducible assumption | with_reducible apply ih | with_reducible apply State.issueExtent_rests | with_reducible apply State.modCopy_rests | (refine Rests.of_fst ?_ (by assumption)) | with_reducible refine Rests.ite ?_ ?_ | with_reducible refine Rests.ite_snd ?_ ?_ | with_reducible refine Rests.ite_fst ?_ ?_ | split | (with_reducible apply Rests.upd; first | with_reducible assumption | with_reducible apply State.issueExtent_rests | with_reducible apply State.modCopy_rests) | dsimp only

theorem State.copyLand_rests {s₀ s : State} (h : Rests s₀ s) (key : Nat) (st : Nat) (bs : List Byte) : Rests s₀ (State.copyLand s key st bs) := by
  unfold State.copyLand
  try dsimp only
  repeat' first | with_reducible assumption | with_reducible apply State.modCopy_rests | with_reducible apply State.copyAdvance_rests | with_reducible refine Rests.ite ?_ ?_ | split | (with_reducible apply Rests.upd; with_reducible assumption)

theorem State.copyNext_rests {s₀ s : State} (h : Rests s₀ s) (key : Nat) : Rests s₀ (State.copyNext s key) := by
  unfold State.copyNext
  try dsimp only
  repeat' first | with_reducible assumption | with_reducible apply State.modCopy_rests | with_reducible apply State.flushing_rests | with_reducible apply State.issueAll_rests | with_reducible refine Rests.ite ?_ ?_ | split | (with_reducible apply Rests.upd; with_reducible assumption)

theorem State.releaseWaiting_rests {s₀ s : State} (h : Rests s₀ s) (key : Nat) : Rests s₀ (State.releaseWaiting s key) := by
  unfold State.releaseWaiting
  repeat' first | with_reducible assumption | with_reducible apply State.releaseHeld_rests | with_reducible refine Rests.ite ?_ ?_ | split

theorem State.breakCopy_rests {s₀ s : State} (h : Rests s₀ s) (c : Copy) : Rests s₀ (State.breakCopy s c) := by
  unfold State.breakCopy
  repeat' first | (extract_lets +onlyGivenNames z; first | (refine Rests.cut (s₀ := s₀) z ?_ ?_; rotate_left; clear_value z; intro hz; rotate_left; subst z) | clear_value z) | with_reducible assumption | with_reducible apply State.modCopy_rests | with_reducible apply State.report_rests | with_reducible refine Rests.ite ?_ ?_ | (with_reducible apply Rests.upd; with_reducible assumption)

theorem State.modAudit_rests {s₀ s : State} (h : Rests s₀ s) (key : Nat) (g : Audit → Audit) : Rests s₀ (State.modAudit s key g) := by
  unfold State.modAudit
  try dsimp only
  repeat' first | with_reducible assumption | with_reducible refine Rests.ite ?_ ?_ | (with_reducible apply Rests.upd; with_reducible assumption)

theorem State.auditAdvance_rests {s₀ : State} (key : Nat) (fuel : Nat) : ∀ (s : State) (_ : Rests s₀ s), Rests s₀ (State.auditAdvance s key fuel) := by
  induction fuel generalizing key with
  | zero => intro s h; unfold State.auditAdvance; exact h
  | succ fuel ih =>
    intro s h
    unfold State.auditAdvance
    repeat' first | (extract_lets +onlyGivenNames z; first | (refine Rests.cut (s₀ := s₀) z ?_ ?_; rotate_left; clear_value z; intro hz; rotate_left; subst z) | (refine Rests.cut (s₀ := s₀) (z : _ × State).2 ?_ ?_; rotate_left; clear_value z; intro hz; rotate_left; subst z) | (refine Rests.cut (s₀ := s₀) (z : State × _).1 ?_ ?_; rotate_left; clear_value z; intro hz; rotate_left; subst z) | (refine Rests.cut (s₀ := s₀) (z : _ × _ × State).2.2 ?_ ?_; rotate_left; clear_value z; intro hz; rotate_left; subst z) | clear_value z) | with_reducible assumption | with_reducible apply ih | with_reducible apply State.issueExtent_rests | with_reducible apply State.modAudit_rests | (refine Rests.of_fst ?_ (by assumption)) | with_reducible refine Rests.ite ?_ ?_ | with_reducible refine Rests.ite_snd ?_ ?_ | with_reducible refine Rests.ite_fst ?_ ?_ | split | (with_reducible apply Rests.upd; first | with_reducible assumption | with_reducible apply State.issueExtent_rests | with_reducible apply State.modAudit_rests) | dsimp only

theorem State.modDirect_rests {s₀ s : State} (h : Rests s₀ s) (fn : Nat) (ext : Nat) (g : DirectExt → DirectExt) : Rests s₀ (State.modDirect s fn ext g) := by
  unfold State.modDirect
  try dsimp only
  repeat' first | with_reducible assumption | with_reducible refine Rests.ite ?_ ?_ | (with_reducible apply Rests.upd; with_reducible assumption)

theorem State.allocDirect_rests {s₀ s t : State} {fn : Nat} {ext : Nat} (h : Rests s₀ s) (e : State.allocDirect s fn ext = some t) : Rests s₀ t := by
  unfold State.allocDirect at e
  repeat' first | (split at e) | (simp only [Option.some.injEq] at e) | (simp only [reduceCtorEq] at e) | subst e
  all_goals (repeat' first | (extract_lets +onlyGivenNames z; first | (refine Rests.cut (s₀ := s₀) z ?_ ?_; rotate_left; clear_value z; intro hz; rotate_left; subst z) | clear_value z) | with_reducible assumption | with_reducible apply State.modDirect_rests | with_reducible apply State.alloc_rests | with_reducible refine Rests.ite ?_ ?_ | (with_reducible apply Rests.upd; first | with_reducible assumption | with_reducible apply State.modDirect_rests | with_reducible apply State.alloc_rests) | (simp only [Option.some.injEq, reduceCtorEq] at e))

theorem State.sealDirect_rests {s₀ s : State} (h : Rests s₀ s) (fn : Nat) (ext : Nat) : Rests s₀ (State.sealDirect s fn ext) := by
  unfold State.sealDirect
  try dsimp only
  repeat' first | with_reducible assumption | with_reducible apply State.modDirect_rests | with_reducible apply State.issueExtent_rests | (refine Rests.of_fst ?_ (by assumption)) | with_reducible refine Rests.ite ?_ ?_ | with_reducible refine Rests.ite_snd ?_ ?_ | with_reducible refine Rests.ite_fst ?_ ?_ | split | (with_reducible apply Rests.upd; first | with_reducible assumption | with_reducible apply State.modDirect_rests | with_reducible apply State.issueExtent_rests) | dsimp only

theorem State.sealAll_rests {s₀ s : State} (h : Rests s₀ s) : Rests s₀ (State.sealAll s) := by
  unfold State.sealAll
  repeat' first | (extract_lets +onlyGivenNames z; first | (refine Rests.cut (s₀ := s₀) z ?_ ?_; rotate_left; clear_value z; intro hz; rotate_left; subst z) | clear_value z) | with_reducible assumption | with_reducible apply State.copyAdvance_rests | with_reducible apply State.auditAdvance_rests | with_reducible apply State.sealDirect_rests | (with_reducible apply Rests.foldl; intro _ _ _) | with_reducible refine Rests.ite ?_ ?_

theorem State.readFailed_rests {s₀ s : State} (h : Rests s₀ s) (fn : Nat) (tag : Bool) : Rests s₀ (State.readFailed s fn tag) := by
  unfold State.readFailed
  repeat' first | with_reducible assumption | with_reducible apply State.satInc_rests | with_reducible apply State.raise_rests | with_reducible apply State.sliceVector_rests | with_reducible refine Rests.ite ?_ ?_

theorem State.endRead_rests {s₀ s : State} (h : Rests s₀ s) (ch : Nat) (e : Nat) (good : Bool) : Rests s₀ (State.endRead s ch e good) := by
  unfold State.endRead
  repeat' first | (extract_lets +onlyGivenNames z; first | (refine Rests.cut (s₀ := s₀) z ?_ ?_; rotate_left; clear_value z; intro hz; rotate_left; subst z) | clear_value z) | with_reducible assumption | with_reducible apply State.setChan_rests | with_reducible apply State.modCopy_rests | with_reducible refine Rests.ite ?_ ?_ | split | (with_reducible apply Rests.upd; with_reducible assumption)

theorem State.readExtent_rests {s₀ s : State} (h : Rests s₀ s) (ch : Nat) (x : SipXfer) (e : Nat) : Rests s₀ (State.readExtent s ch x e) := by
  unfold State.readExtent
  try dsimp only
  repeat' first | with_reducible assumption | with_reducible apply State.setChan_rests | with_reducible apply State.satInc_rests | with_reducible apply State.endRead_rests | with_reducible apply State.issueCmd_rests | split | (with_reducible apply Rests.upd; with_reducible assumption)

theorem State.readAhead_rests {s₀ s : State} (h : Rests s₀ s) (ch : Nat) : Rests s₀ (State.readAhead s ch) := by
  unfold State.readAhead
  try dsimp only
  repeat' first | with_reducible assumption | with_reducible apply State.setChan_rests | with_reducible apply State.readExtent_rests | (with_reducible apply Rests.foldl; intro _ _ _) | with_reducible refine Rests.ite ?_ ?_ | split | (with_reducible apply Rests.upd; with_reducible assumption)

end Sys2Proof.Machine
end

