-- ==== Sys2Proof/Laws/RestCmpBase.lean ====
section
/-! SUPPORT. Which operations of Machine/CmpBase.lean leave the memories as they are (Laws/Rest.lean). -/
namespace Sys2Proof.Machine
set_option Elab.async false
set_option linter.all false

theorem State.setPin_rests {s₀ s : State} (h : Rests s₀ s) (i : Nat) (x : Pin) : Rests s₀ (State.setPin s i x) := by
  unfold State.setPin
  try dsimp only
  repeat' first | with_reducible assumption | (with_reducible apply Rests.upd; with_reducible assumption)

theorem State.syncStore_rests {s₀ s : State} (h : Rests s₀ s) : Rests s₀ (State.syncStore s) := by
  unfold State.syncStore
  repeat' first | with_reducible assumption | with_reducible apply State.setF_rests | with_reducible apply State.setB_rests

theorem State.setStore_rests {s₀ s : State} (h : Rests s₀ s) (l : List TileRes) : Rests s₀ (State.setStore s l) := by
  unfold State.setStore
  try dsimp only
  repeat' first | with_reducible assumption | with_reducible apply State.syncStore_rests | with_reducible apply State.dropJobs_rests | split | (with_reducible apply Rests.upd; with_reducible assumption)

theorem State.modTile_rests {s₀ s : State} (h : Rests s₀ s) (fn : Nat) (tile : Nat) (g : TileRes → TileRes) : Rests s₀ (State.modTile s fn tile g) := by
  unfold State.modTile
  try dsimp only
  repeat' first | with_reducible assumption | with_reducible refine Rests.ite ?_ ?_ | (with_reducible apply Rests.upd; with_reducible assumption)

theorem State.startLoad_rests {s₀ s : State} (h : Rests s₀ s) (fn : Nat) (tile : Nat) : Rests s₀ (State.startLoad s fn tile) := by
  unfold State.startLoad
  try dsimp only
  repeat' first | with_reducible assumption | with_reducible apply State.setStore_rests | with_reducible apply State.pushJob_rests | with_reducible refine Rests.ite ?_ ?_ | split | (with_reducible apply Rests.upd; with_reducible assumption)

theorem State.wantTile_rests {s₀ s : State} (h : Rests s₀ s) (fn : Nat) (tile : Nat) : Rests s₀ (State.wantTile s fn tile) := by
  unfold State.wantTile
  repeat' first | with_reducible assumption | with_reducible apply State.setStore_rests | with_reducible apply State.startLoad_rests | with_reducible refine Rests.ite ?_ ?_ | split

theorem State.invalidateTiles_rests {s₀ s : State} (h : Rests s₀ s) (fn : Nat) (ext : Nat) : Rests s₀ (State.invalidateTiles s fn ext) := by
  unfold State.invalidateTiles
  repeat' first | (extract_lets +onlyGivenNames z; first | (refine Rests.cut (s₀ := s₀) z ?_ ?_; rotate_left; clear_value z; intro hz; rotate_left; subst z) | (have _f := fun a => z a; clear _f; subst z; try dsimp -zeta only) | clear_value z) | with_reducible assumption | with_reducible apply State.setPin_rests | with_reducible apply State.setF_rests | with_reducible apply State.setStore_rests | (with_reducible apply Rests.foldl; intro _ _ _) | with_reducible refine Rests.ite ?_ ?_ | (with_reducible apply Rests.upd; with_reducible assumption)

theorem State.reloadTiles_rests {s₀ s : State} (h : Rests s₀ s) (fn : Nat) : Rests s₀ (State.reloadTiles s fn) := by
  unfold State.reloadTiles
  repeat' first | with_reducible assumption | with_reducible apply State.startLoad_rests | (with_reducible apply Rests.foldl; intro _ _ _)

theorem State.dropLoads_rests {s₀ s : State} (h : Rests s₀ s) (gone : List Nat) : Rests s₀ (State.dropLoads s gone) := by
  unfold State.dropLoads
  try dsimp only
  repeat' first | with_reducible assumption | with_reducible apply State.setStore_rests | (with_reducible apply Rests.upd; with_reducible assumption)

theorem State.lastErr_rests {s₀ s : State} (h : Rests s₀ s) (code : Nat) (fn : Nat) (tile : Nat) : Rests s₀ (State.lastErr s code fn tile) := by
  unfold State.lastErr
  repeat' first | with_reducible assumption | with_reducible apply State.setF_rests

theorem State.dropComposed_rests {s₀ s : State} (h : Rests s₀ s) (p : Page) (code : Nat) (tile : Nat) : Rests s₀ (State.dropComposed s p code tile) := by
  unfold State.dropComposed
  repeat' first | with_reducible assumption | with_reducible apply State.lastErr_rests | with_reducible apply State.satInc_rests | with_reducible apply State.report_rests | with_reducible apply State.withdraw_rests

theorem State.failCompose_rests {s₀ s : State} (h : Rests s₀ s) (seq : Nat) (code : Nat) (tile : Nat) (station : Nat) : Rests s₀ (State.failCompose s seq code tile station) := by
  unfold State.failCompose
  repeat' first | with_reducible assumption | with_reducible apply State.dropComposed_rests | with_reducible apply State.lastErr_rests | with_reducible apply State.satInc_rests | with_reducible apply State.spoilPage_rests | with_reducible refine Rests.ite ?_ ?_ | split

end Sys2Proof.Machine
end

