-- ==== Sys2Proof/Laws/RestFill.lean ====
section
/-! SUPPORT. Which operations of Machine/Fill.lean leave the memories as they are (Laws/Rest.lean). -/
namespace Sys2Proof.Machine
set_option Elab.async false
set_option linter.all false

theorem State.modFill_rests {s₀ s : State} (h : Rests s₀ s) (flume : Nat) (g : Fill → Fill) : Rests s₀ (State.modFill s flume g) := by
  unfold State.modFill
  try dsimp only
  repeat' first | with_reducible assumption | with_reducible refine Rests.ite ?_ ?_ | (with_reducible apply Rests.upd; with_reducible assumption)

theorem State.rowDone_rests {s₀ s : State} (h : Rests s₀ s) (x : Fill) (l : PList) (offs : List (List (Option Nat))) : Rests s₀ (State.rowDone s x l offs) := by
  unfold State.rowDone
  try dsimp only
  repeat' first | with_reducible assumption | with_reducible apply State.modFill_rests | split | (with_reducible apply Rests.upd; with_reducible assumption)

theorem State.fillNext_rests {s₀ : State} (flume : Nat) (fuel : Nat) : ∀ (s : State) (_ : Rests s₀ s), Rests s₀ (State.fillNext s flume fuel) := by
  induction fuel generalizing flume with
  | zero => intro s h; unfold State.fillNext; exact h
  | succ fuel ih =>
    intro s h
    unfold State.fillNext
    repeat' first | (extract_lets +onlyGivenNames z; first | (refine Rests.cut (s₀ := s₀) z ?_ ?_; rotate_left; clear_value z; intro hz; rotate_left; subst z) | clear_value z) | with_reducible assumption | with_reducible apply ih | with_reducible apply State.rowDone_rests | with_reducible apply State.pushJob_rests | with_reducible refine Rests.ite ?_ ?_ | split | (with_reducible apply Rests.upd; with_reducible assumption)

theorem State.dropFill_rests {s₀ s : State} (h : Rests s₀ s) (flume : Nat) : Rests s₀ (State.dropFill s flume) := by
  unfold State.dropFill
  try dsimp only
  repeat' first | with_reducible assumption | with_reducible apply State.dropJobs_rests | (with_reducible apply Rests.upd; with_reducible assumption)

theorem State.startFill_rests {s₀ s : State} (h : Rests s₀ s) (flume : Nat) (seq : Nat) (st : Nat) (k : Nat) : Rests s₀ (State.startFill s flume seq st k) := by
  unfold State.startFill
  repeat' first | (extract_lets +onlyGivenNames z; first | (refine Rests.cut (s₀ := s₀) z ?_ ?_; rotate_left; clear_value z; intro hz; rotate_left; subst z) | clear_value z) | with_reducible assumption | with_reducible apply State.dropFill_rests | with_reducible apply State.fillNext_rests | (with_reducible apply Rests.upd; with_reducible assumption)

end Sys2Proof.Machine
end

