-- ==== Sys2Proof/Laws/RestKorBase.lean ====
section
/-! SUPPORT. Which operations of Machine/KorBase.lean leave the memories as they are (Laws/Rest.lean). -/
namespace Sys2Proof.Machine
set_option Elab.async false
set_option linter.all false

theorem State.setJob_rests {s₀ s : State} (h : Rests s₀ s) (j : Nat) (x : KorJob) : Rests s₀ (State.setJob s j x) := by
  unfold State.setJob
  try dsimp only
  repeat' first | with_reducible assumption | (with_reducible apply Rests.upd; with_reducible assumption)

theorem State.jobRefused_rests {s₀ s : State} (h : Rests s₀ s) (j : Nat) : Rests s₀ (State.jobRefused s j) := by
  unfold State.jobRefused
  repeat' first | with_reducible assumption | with_reducible apply State.raise_rests

theorem State.setJobState_rests {s₀ s : State} (h : Rests s₀ s) (j : Nat) (st : Nat) : Rests s₀ (State.setJobState s j st) := by
  unfold State.setJobState
  repeat' first | (extract_lets +onlyGivenNames z; first | (refine Rests.cut (s₀ := s₀) z ?_ ?_; rotate_left; clear_value z; intro hz; rotate_left; subst z) | clear_value z) | with_reducible assumption | with_reducible apply State.setF_rests

theorem State.codecCount_rests {s₀ s : State} (h : Rests s₀ s) (code : Nat) : Rests s₀ (State.codecCount s code) := by
  unfold State.codecCount
  repeat' first | with_reducible assumption | with_reducible apply State.satInc_rests | with_reducible refine Rests.ite ?_ ?_

theorem State.endJob_rests {s₀ s : State} (h : Rests s₀ s) (j : Nat) (code : Nat) : Rests s₀ (State.endJob s j code) := by
  unfold State.endJob
  repeat' first | (extract_lets +onlyGivenNames z; first | (refine Rests.cut (s₀ := s₀) z ?_ ?_; rotate_left; clear_value z; intro hz; rotate_left; subst z) | clear_value z) | with_reducible assumption | with_reducible apply State.setJobState_rests | with_reducible apply State.setF_rests | with_reducible apply State.setJob_rests | with_reducible apply State.report_rests | with_reducible apply State.codecCount_rests | with_reducible apply State.event_rests | with_reducible apply State.mark_rests | with_reducible refine Rests.ite ?_ ?_ | (with_reducible apply Rests.upd; with_reducible assumption)

end Sys2Proof.Machine
end

