-- ==== Sys2Proof/Laws/RestInsBase.lean ====
section
/-! SUPPORT. Which operations of Machine/InsBase.lean leave the memories as they are (Laws/Rest.lean). -/
namespace Sys2Proof.Machine
set_option Elab.async false
set_option linter.all false

theorem State.setInsSide_rests {s₀ s : State} (h : Rests s₀ s) (side : Nat) (x : InsSide) : Rests s₀ (State.setInsSide s side x) := by
  unfold State.setInsSide
  try dsimp only
  repeat' first | with_reducible assumption | (with_reducible apply Rests.upd; with_reducible assumption)

theorem State.modInsSide_rests {s₀ s : State} (h : Rests s₀ s) (side : Nat) (g : InsSide → InsSide) : Rests s₀ (State.modInsSide s side g) := by
  unfold State.modInsSide
  repeat' first | with_reducible assumption | with_reducible apply State.setInsSide_rests

theorem State.insFirstLatch_rests {s₀ s : State} (h : Rests s₀ s) (f : Frame) (p : Page) : Rests s₀ (State.insFirstLatch s f p) := by
  unfold State.insFirstLatch
  repeat' first | (extract_lets +onlyGivenNames z; first | (refine Rests.cut (s₀ := s₀) z ?_ ?_; rotate_left; clear_value z; intro hz; rotate_left; subst z) | clear_value z) | with_reducible assumption | with_reducible apply State.modInsSide_rests | with_reducible apply State.remain_rests | (with_reducible apply Rests.foldl; intro _ _ _) | (with_reducible apply Rests.upd; with_reducible assumption)

theorem State.modInsPage_rests {s₀ s : State} (h : Rests s₀ s) (seq : Nat) (side : Nat) (g : InsPage → InsPage) : Rests s₀ (State.modInsPage s seq side g) := by
  unfold State.modInsPage
  repeat' first | (extract_lets +onlyGivenNames z; first | (refine Rests.cut (s₀ := s₀) z ?_ ?_; rotate_left; clear_value z; intro hz; rotate_left; subst z) | clear_value z) | with_reducible assumption | with_reducible apply State.modInsSide_rests | with_reducible refine Rests.ite ?_ ?_ | (with_reducible apply Rests.upd; with_reducible assumption)

theorem State.insStationLatch_rests {s₀ s : State} (h : Rests s₀ s) (p : Page) (st : Nat) : Rests s₀ (State.insStationLatch s p st) := by
  unfold State.insStationLatch
  try dsimp only
  repeat' first | with_reducible assumption | with_reducible apply State.modInsPage_rests | with_reducible refine Rests.ite ?_ ?_ | (with_reducible apply Rests.upd; with_reducible assumption)

theorem State.insPageTof_rests {s₀ s : State} (h : Rests s₀ s) (p : Page) (st : Nat) : Rests s₀ (State.insPageTof s p st) := by
  unfold State.insPageTof
  repeat' first | (extract_lets +onlyGivenNames z; first | (refine Rests.cut (s₀ := s₀) z ?_ ?_; rotate_left; clear_value z; intro hz; rotate_left; subst z) | clear_value z) | with_reducible assumption | with_reducible apply State.modInsPage_rests | (with_reducible apply Rests.foldl; intro _ _ _) | (with_reducible apply Rests.upd; with_reducible assumption)

theorem State.auditCut_rests {s₀ s : State} (h : Rests s₀ s) (y : InsPage) : Rests s₀ (State.auditCut s y) := by
  unfold State.auditCut
  try dsimp only
  repeat' first | with_reducible assumption | with_reducible apply State.setJobState_rests | with_reducible apply State.report_rests | with_reducible apply State.modInsPage_rests | with_reducible refine Rests.ite ?_ ?_ | (with_reducible apply Rests.upd; with_reducible assumption)

theorem State.auditsCut_rests {s₀ s : State} (h : Rests s₀ s) : Rests s₀ (State.auditsCut s) := by
  unfold State.auditsCut
  repeat' first | with_reducible assumption | with_reducible apply State.auditCut_rests | (with_reducible apply Rests.foldl; intro _ _ _)

theorem State.insDrop_rests {s₀ s : State} (h : Rests s₀ s) (seq : Nat) : Rests s₀ (State.insDrop s seq) := by
  unfold State.insDrop
  repeat' first | (extract_lets +onlyGivenNames z; first | (refine Rests.cut (s₀ := s₀) z ?_ ?_; rotate_left; clear_value z; intro hz; rotate_left; subst z) | clear_value z) | with_reducible assumption | with_reducible apply State.auditCut_rests | with_reducible apply State.modInsSide_rests | with_reducible apply State.dropStreams_rests | (with_reducible apply Rests.foldl; intro _ _ _) | (with_reducible apply Rests.upd; with_reducible assumption)

end Sys2Proof.Machine
end

