-- ==== Sys2Proof/Laws/RestPages.lean ====
section
/-! SUPPORT. Which operations of Machine/Pages.lean leave the memories as they are (Laws/Rest.lean). -/
namespace Sys2Proof.Machine
set_option Elab.async false
set_option linter.all false

theorem State.entryRead_rests {s₀ s : State} (h : Rests s₀ s) (fn : Nat) : Rests s₀ (State.entryRead s fn) := by
  unfold State.entryRead
  try dsimp only
  repeat' first | with_reducible assumption | with_reducible apply State.setF_rests | (with_reducible apply Rests.upd; with_reducible assumption)

theorem State.refuse_rests {s₀ s : State} (h : Rests s₀ s) (fn : Nat) (d : PageDesc) (status : Nat) : Rests s₀ (State.refuse s fn d status) := by
  unfold State.refuse
  repeat' first | with_reducible assumption | with_reducible apply State.descEvent_rests | with_reducible apply State.wrapInc_rests

theorem State.accept_rests {s₀ s : State} (h : Rests s₀ s) (fn : Nat) (d : PageDesc) : Rests s₀ (State.accept s fn d) := by
  unfold State.accept
  repeat' first | with_reducible assumption | with_reducible apply State.descEvent_rests | with_reducible apply State.wrapInc_rests

theorem State.acceptPage_rests {s₀ s : State} (h : Rests s₀ s) (fn : Nat) (d : PageDesc) (p : Page) : Rests s₀ (State.acceptPage s fn d p) := by
  unfold State.acceptPage
  repeat' first | with_reducible assumption | with_reducible apply State.accept_rests | with_reducible apply State.commitPage_rests | with_reducible apply State.syncQueue_rests

theorem execPagePrint_rests {s₀ s : State} (h : Rests s₀ s) (fn : Nat) (desc : List (BitVec 8)) (src : Option (List (BitVec 8))) : RestsAns s₀ (execPagePrint fn desc src s) := by
  unfold execPagePrint
  repeat' first | (extract_lets +onlyGivenNames z; first | (refine Rests.cut (s₀ := s₀) z ?_ ?_; rotate_left; clear_value z; intro hz; rotate_left; subst z) | clear_value z) | with_reducible assumption | with_reducible apply RestsAns.next | with_reducible apply State.entryRead_rests | with_reducible apply State.refuse_rests | with_reducible apply State.freeCopy_rests | with_reducible apply State.freeAudits_rests | with_reducible apply State.dropPage_rests | with_reducible apply State.newCopy_rests | with_reducible apply State.acceptPage_rests | with_reducible refine RestsAns.ite ?_ ?_ | with_reducible refine Rests.ite ?_ ?_ | split | (with_reducible apply Rests.upd; with_reducible assumption)

theorem execPageReissue_rests {s₀ s : State} (h : Rests s₀ s) (fn : Nat) (desc : List (BitVec 8)) : RestsAns s₀ (execPageReissue fn desc s) := by
  unfold execPageReissue
  repeat' first | (extract_lets +onlyGivenNames z; first | (refine Rests.cut (s₀ := s₀) z ?_ ?_; rotate_left; clear_value z; intro hz; rotate_left; subst z) | clear_value z) | with_reducible assumption | with_reducible apply RestsAns.next | with_reducible apply State.entryRead_rests | with_reducible apply State.refuse_rests | with_reducible apply State.dropPage_rests | with_reducible apply State.acceptPage_rests | with_reducible refine RestsAns.ite ?_ ?_ | with_reducible refine Rests.ite ?_ ?_ | split | (with_reducible apply Rests.upd; with_reducible assumption)

theorem execPageRelease_rests {s₀ s : State} (h : Rests s₀ s) (fn : Nat) (desc : List (BitVec 8)) : RestsAns s₀ (execPageRelease fn desc s) := by
  unfold execPageRelease
  repeat' first | (extract_lets +onlyGivenNames z; first | (refine Rests.cut (s₀ := s₀) z ?_ ?_; rotate_left; clear_value z; intro hz; rotate_left; subst z) | clear_value z) | with_reducible assumption | with_reducible apply RestsAns.next | with_reducible apply State.entryRead_rests | with_reducible apply State.refuse_rests | with_reducible apply State.accept_rests | with_reducible apply State.releaseNow_rests | with_reducible apply State.modPage_rests | with_reducible apply State.withdraw_rests | with_reducible apply State.claims_rests | with_reducible apply State.syncQueue_rests | with_reducible refine RestsAns.ite ?_ ?_ | with_reducible refine Rests.ite ?_ ?_ | split | (with_reducible apply Rests.upd; with_reducible assumption)

theorem execPageCancel_rests {s₀ s : State} (h : Rests s₀ s) (fn : Nat) (desc : List (BitVec 8)) : RestsAns s₀ (execPageCancel fn desc s) := by
  unfold execPageCancel
  try dsimp only
  repeat' first | with_reducible assumption | with_reducible apply RestsAns.next | with_reducible apply State.entryRead_rests | with_reducible apply State.refuse_rests | with_reducible apply State.accept_rests | with_reducible apply State.withdraw_rests | with_reducible apply State.claims_rests | with_reducible apply State.syncQueue_rests | with_reducible refine RestsAns.ite ?_ ?_ | with_reducible refine Rests.ite ?_ ?_ | split

theorem execDescriptorInvalid_rests {s₀ s : State} (h : Rests s₀ s) (fn : Nat) (desc : List (BitVec 8)) : RestsAns s₀ (execDescriptorInvalid fn desc s) := by
  unfold execDescriptorInvalid
  try dsimp only
  repeat' first | with_reducible assumption | with_reducible apply RestsAns.next | with_reducible apply State.entryRead_rests | with_reducible apply State.refuse_rests | with_reducible refine RestsAns.ite ?_ ?_ | with_reducible refine Rests.ite ?_ ?_

theorem State.sweepFrames_rests {s₀ s : State} (h : Rests s₀ s) : Rests s₀ (State.sweepFrames s) := by
  unfold State.sweepFrames
  try dsimp only
  repeat' first | with_reducible assumption | (with_reducible apply Rests.foldl; intro _ _ _) | (with_reducible apply Rests.upd; with_reducible assumption)

theorem execFirstLatch_rests {s₀ s : State} (h : Rests s₀ s) : RestsAns s₀ (execFirstLatch s) := by
  unfold execFirstLatch
  repeat' first | (extract_lets +onlyGivenNames z; first | (refine Rests.cut (s₀ := s₀) z ?_ ?_; rotate_left; clear_value z; intro hz; rotate_left; subst z) | (have _f := fun a => z a; clear _f; subst z; try dsimp -zeta only) | clear_value z) | with_reducible assumption | with_reducible apply RestsAns.next | with_reducible apply State.sweepFrames_rests | with_reducible apply State.blankFrame_rests | with_reducible apply State.event_rests | with_reducible apply State.claims_rests | with_reducible apply State.dropComposed_rests | with_reducible apply State.mark_rests | with_reducible apply State.blankEvent_rests | with_reducible apply State.modPage_rests | with_reducible apply State.insFirstLatch_rests | with_reducible apply State.pageEvent_rests | with_reducible refine RestsAns.ite ?_ ?_ | with_reducible refine Rests.ite ?_ ?_ | split | (with_reducible apply Rests.upd; with_reducible assumption)

theorem execStationLatch_rests {s₀ s : State} (h : Rests s₀ s) (st : Nat) : RestsAns s₀ (execStationLatch st s) := by
  unfold execStationLatch
  try dsimp only
  repeat' first | with_reducible assumption | with_reducible apply RestsAns.next | with_reducible apply State.wrapInc_rests | with_reducible apply State.modPage_rests | with_reducible apply State.insStationLatch_rests | with_reducible refine RestsAns.ite ?_ ?_ | with_reducible refine Rests.ite ?_ ?_ | split | (with_reducible apply Rests.upd; with_reducible assumption)

theorem execPageTof_rests {s₀ s : State} (h : Rests s₀ s) (st : Nat) : RestsAns s₀ (execPageTof st s) := by
  unfold execPageTof
  try dsimp only
  repeat' first | with_reducible assumption | with_reducible apply RestsAns.next | with_reducible apply State.modPage_rests | with_reducible apply State.insPageTof_rests | with_reducible apply State.event_rests | with_reducible apply State.pageEvent_rests | with_reducible refine RestsAns.ite ?_ ?_ | with_reducible refine Rests.ite ?_ ?_ | split | (with_reducible apply Rests.upd; with_reducible assumption)

theorem execPageLastLine_rests {s₀ s : State} (h : Rests s₀ s) (st : Nat) : RestsAns s₀ (execPageLastLine st s) := by
  unfold execPageLastLine
  repeat' first | (extract_lets +onlyGivenNames z; first | (refine Rests.cut (s₀ := s₀) z ?_ ?_; rotate_left; clear_value z; intro hz; rotate_left; subst z) | clear_value z) | with_reducible assumption | with_reducible apply RestsAns.next | with_reducible apply State.modPage_rests | with_reducible apply State.event_rests | with_reducible apply State.modFrame_rests | with_reducible apply State.sendFeatures_rests | with_reducible apply State.pageEvent_rests | with_reducible apply State.finalState_rests | with_reducible refine RestsAns.ite ?_ ?_ | with_reducible refine Rests.ite ?_ ?_ | split | (with_reducible apply Rests.upd; with_reducible assumption)

theorem execFeedRequest_rests {s₀ s : State} (h : Rests s₀ s) : RestsAns s₀ (execFeedRequest s) := by
  unfold execFeedRequest
  repeat' first | (extract_lets +onlyGivenNames z; first | (refine Rests.cut (s₀ := s₀) z ?_ ?_; rotate_left; clear_value z; intro hz; rotate_left; subst z) | clear_value z) | with_reducible assumption | with_reducible apply RestsAns.next | with_reducible apply State.setF_rests | with_reducible apply State.modLine_rests | with_reducible apply State.event_rests | with_reducible apply State.modPage_rests | with_reducible refine RestsAns.ite ?_ ?_ | with_reducible refine Rests.ite ?_ ?_ | split | (with_reducible apply Rests.upd; with_reducible assumption)

theorem execSheetEdgeTimeout_rests {s₀ s : State} (h : Rests s₀ s) : RestsAns s₀ (execSheetEdgeTimeout s) := by
  unfold execSheetEdgeTimeout
  try dsimp only
  repeat' first | with_reducible assumption | with_reducible apply RestsAns.next | with_reducible apply State.report_rests | with_reducible refine RestsAns.ite ?_ ?_ | with_reducible refine Rests.ite ?_ ?_ | split | (with_reducible apply Rests.upd; with_reducible assumption)

end Sys2Proof.Machine
end

