-- ==== Sys2Proof/Laws/RestRate.lean ====
section
/-! SUPPORT. Which operations of Machine/Rate.lean leave the memories as they are (Laws/Rest.lean). -/
namespace Sys2Proof.Machine
set_option Elab.async false
set_option linter.all false

theorem State.syncWeir_rests {s₀ s : State} (h : Rests s₀ s) : Rests s₀ (State.syncWeir s) := by
  unfold State.syncWeir
  repeat' first | with_reducible assumption | with_reducible apply State.setF_rests | (with_reducible apply Rests.foldl; intro _ _ _) | with_reducible refine Rests.ite ?_ ?_

theorem State.weirOn_rests {s₀ s : State} (h : Rests s₀ s) (cond : Nat) : Rests s₀ (State.weirOn s cond) := by
  unfold State.weirOn
  try dsimp only
  repeat' first | with_reducible assumption | with_reducible apply State.setF_rests | with_reducible apply State.event_rests | with_reducible refine Rests.ite ?_ ?_

theorem State.weirAsk_rests {s₀ s : State} (h : Rests s₀ s) (cond : Nat) (cls : Nat) : Rests s₀ (State.weirAsk s cond cls) := by
  unfold State.weirAsk
  try dsimp only
  repeat' first | with_reducible assumption | with_reducible apply State.syncWeir_rests | (with_reducible apply Rests.upd; with_reducible assumption)

theorem State.weirOff_rests {s₀ s : State} (h : Rests s₀ s) (cond : Nat) : Rests s₀ (State.weirOff s cond) := by
  unfold State.weirOff
  repeat' first | (extract_lets +onlyGivenNames z; first | (refine Rests.cut (s₀ := s₀) z ?_ ?_; rotate_left; clear_value z; intro hz; rotate_left; subst z) | clear_value z) | with_reducible assumption | with_reducible apply State.setF_rests | with_reducible apply State.syncWeir_rests | (with_reducible apply Rests.upd; with_reducible assumption)

theorem State.checkCapacity_rests {s₀ s : State} (h : Rests s₀ s) : Rests s₀ (State.checkCapacity s) := by
  unfold State.checkCapacity
  repeat' first | (extract_lets +onlyGivenNames z; first | (refine Rests.cut (s₀ := s₀) z ?_ ?_; rotate_left; clear_value z; intro hz; rotate_left; subst z) | clear_value z) | with_reducible assumption | with_reducible apply State.setF_rests | with_reducible apply State.weirOn_rests | with_reducible apply State.weirAsk_rests | with_reducible apply State.report_rests | with_reducible apply State.weirOff_rests | with_reducible refine Rests.ite ?_ ?_ | split

theorem State.classChanged_rests {s₀ s : State} (h : Rests s₀ s) (c : Nat) : Rests s₀ (State.classChanged s c) := by
  unfold State.classChanged
  try dsimp only
  repeat' first | with_reducible assumption | with_reducible refine Rests.ite ?_ ?_ | (with_reducible apply Rests.upd; with_reducible assumption)

theorem State.setClass_rests {s₀ s : State} (h : Rests s₀ s) (c : Nat) : Rests s₀ (State.setClass s c) := by
  unfold State.setClass
  try dsimp only
  repeat' first | with_reducible assumption | with_reducible apply State.classChanged_rests | with_reducible apply State.setF_rests | with_reducible apply State.checkCapacity_rests

end Sys2Proof.Machine
end

