-- ==== Sys2Proof/Laws/RestComposer.lean ====
section
/-! SUPPORT. Which operations of Machine/Composer.lean leave the memories as they are (Laws/Rest.lean). -/
namespace Sys2Proof.Machine
set_option Elab.async false
set_option linter.all false

theorem State.judge_rests {s₀ s : State} (h : Rests s₀ s) (p : Page) : Rests s₀ (State.judge s p) := by
  unfold State.judge
  repeat' first | (extract_lets +onlyGivenNames z; first | (refine Rests.cut (s₀ := s₀) z ?_ ?_; rotate_left; clear_value z; intro hz; rotate_left; subst z) | clear_value z) | with_reducible assumption | with_reducible apply State.raise_rests | with_reducible apply State.failCompose_rests | with_reducible refine Rests.ite ?_ ?_ | (with_reducible apply Rests.upd; with_reducible assumption)

theorem execPlacementListLanded_rests {s₀ s : State} (h : Rests s₀ s) (st : Nat) : RestsAns s₀ (execPlacementListLanded st s) := by
  unfold execPlacementListLanded
  try dsimp only
  repeat' first | with_reducible assumption | with_reducible apply RestsAns.next | with_reducible apply State.failCompose_rests | with_reducible refine RestsAns.ite ?_ ?_ | with_reducible refine Rests.ite ?_ ?_ | split | (with_reducible apply Rests.upd; with_reducible assumption)

theorem execDirectoryEntryRead_rests {s₀ s : State} (h : Rests s₀ s) (st : Nat) (failed : Option Nat) (tag : Bool) : RestsAns s₀ (execDirectoryEntryRead st failed tag s) := by
  unfold execDirectoryEntryRead
  repeat' first | (extract_lets +onlyGivenNames z; first | (refine Rests.cut (s₀ := s₀) z ?_ ?_; rotate_left; clear_value z; intro hz; rotate_left; subst z) | (have _f := fun a => z a; clear _f; subst z; try dsimp -zeta only) | clear_value z) | with_reducible assumption | with_reducible apply RestsAns.next | with_reducible apply State.mark_rests | with_reducible apply State.readFailed_rests | with_reducible apply State.report_rests | with_reducible apply State.failCompose_rests | with_reducible apply State.wantTile_rests | with_reducible apply State.judge_rests | (with_reducible apply Rests.foldl; intro _ _ _) | with_reducible refine RestsAns.ite ?_ ?_ | with_reducible refine Rests.ite ?_ ?_ | split | (with_reducible apply Rests.upd; with_reducible assumption)

theorem execTileLoadResume_rests {s₀ s : State} (h : Rests s₀ s) (fn : Nat) (tile : Nat) : RestsAns s₀ (execTileLoadResume fn tile s) := by
  unfold execTileLoadResume
  repeat' first | with_reducible assumption | with_reducible apply RestsAns.next | with_reducible apply State.startLoad_rests | with_reducible refine RestsAns.ite ?_ ?_ | with_reducible refine Rests.ite ?_ ?_ | split

theorem execRiskReevaluate_rests {s₀ s : State} (h : Rests s₀ s) : RestsAns s₀ (execRiskReevaluate s) := by
  unfold execRiskReevaluate
  try dsimp only
  repeat' first | with_reducible assumption | with_reducible apply RestsAns.next | with_reducible apply State.judge_rests | with_reducible apply State.failCompose_rests | with_reducible refine RestsAns.ite ?_ ?_ | with_reducible refine Rests.ite ?_ ?_ | split

theorem State.pinWrite_rests {s₀ s t : State} {i : Nat} {value : BitVec 32} (h : Rests s₀ s) (e : State.pinWrite s i value = some t) : Rests s₀ t := by
  unfold State.pinWrite at e
  repeat' first | (split at e) | (simp only [Option.some.injEq] at e) | (simp only [reduceCtorEq] at e) | subst e
  all_goals (repeat' first | (extract_lets +onlyGivenNames z; first | (refine Rests.cut (s₀ := s₀) z ?_ ?_; rotate_left; clear_value z; intro hz; rotate_left; subst z) | clear_value z) | with_reducible assumption | with_reducible apply State.darkWrite_rests | with_reducible apply State.raise_rests | with_reducible refine Rests.ite ?_ ?_ | (simp only [Option.some.injEq, reduceCtorEq] at e))

theorem execPinResident_rests {s₀ s : State} (h : Rests s₀ s) (entry : Nat) : RestsAns s₀ (execPinResident entry s) := by
  unfold execPinResident
  try dsimp only
  repeat' first | with_reducible assumption | with_reducible apply RestsAns.next | with_reducible apply State.setF_rests | with_reducible refine RestsAns.ite ?_ ?_ | with_reducible refine Rests.ite ?_ ?_

end Sys2Proof.Machine
end

