-- ==== Sys2Proof/Laws/RestBeamOps.lean ====
section
/-! SUPPORT. Which operations of Machine/BeamOps.lean leave the memories as they are (Laws/Rest.lean). -/
namespace Sys2Proof.Machine
set_option Elab.async false
set_option linter.all false

theorem State.setScnSt_rests {s₀ s : State} (h : Rests s₀ s) (st : Nat) (x : ScnSt) : Rests s₀ (State.setScnSt s st x) := by
  unfold State.setScnSt
  try dsimp only
  repeat' first | with_reducible assumption | (with_reducible apply Rests.upd; with_reducible assumption)

theorem State.modScnSt_rests {s₀ s : State} (h : Rests s₀ s) (st : Nat) (g : ScnSt → ScnSt) : Rests s₀ (State.modScnSt s st g) := by
  unfold State.modScnSt
  repeat' first | with_reducible assumption | with_reducible apply State.setScnSt_rests

theorem State.setPort_rests {s₀ s : State} (h : Rests s₀ s) (bl : Nat) (x : BlPort) : Rests s₀ (State.setPort s bl x) := by
  unfold State.setPort
  try dsimp only
  repeat' first | with_reducible assumption | (with_reducible apply Rests.upd; with_reducible assumption)

theorem State.modPort_rests {s₀ s : State} (h : Rests s₀ s) (bl : Nat) (g : BlPort → BlPort) : Rests s₀ (State.modPort s bl g) := by
  unfold State.modPort
  repeat' first | with_reducible assumption | with_reducible apply State.setPort_rests

theorem State.setExpSt_rests {s₀ s : State} (h : Rests s₀ s) (st : Nat) (x : ExpSt) : Rests s₀ (State.setExpSt s st x) := by
  unfold State.setExpSt
  repeat' first | (extract_lets +onlyGivenNames z; first | (refine Rests.cut (s₀ := s₀) z ?_ ?_; rotate_left; clear_value z; intro hz; rotate_left; subst z) | clear_value z) | with_reducible assumption | (with_reducible apply Rests.upd; with_reducible assumption)

theorem State.scnReport_rests {s₀ s : State} (h : Rests s₀ s) (cls : Nat) (cause : Nat) (st : Nat) (low : Nat) : Rests s₀ (State.scnReport s cls cause st low) := by
  unfold State.scnReport
  repeat' first | with_reducible assumption | with_reducible apply State.report_rests | with_reducible apply State.pf_rests

theorem State.expReport_rests {s₀ s : State} (h : Rests s₀ s) (cls : Nat) (cause : Nat) (st : Nat) (e : Nat) : Rests s₀ (State.expReport s cls cause st e) := by
  unfold State.expReport
  repeat' first | with_reducible assumption | with_reducible apply State.report_rests | with_reducible apply State.pf_rests

theorem State.sbQueue_rests {s₀ s : State} (h : Rests s₀ s) (bl : Nat) (r : SbReq) : Rests s₀ (State.sbQueue s bl r) := by
  unfold State.sbQueue
  repeat' first | (extract_lets +onlyGivenNames z; first | (refine Rests.cut (s₀ := s₀) z ?_ ?_; rotate_left; clear_value z; intro hz; rotate_left; subst z) | clear_value z) | with_reducible assumption | with_reducible apply State.modPort_rests | (with_reducible apply Rests.upd; with_reducible assumption)

theorem State.queuePoll_rests {s₀ s : State} (h : Rests s₀ s) (bl : Nat) : Rests s₀ (State.queuePoll s bl) := by
  unfold State.queuePoll
  repeat' first | with_reducible assumption | with_reducible apply State.sbQueue_rests | with_reducible refine Rests.ite ?_ ?_

theorem State.headWrite_rests {s₀ s : State} (h : Rests s₀ s) (st : Nat) (prio : Nat) (addr : Nat) (data : List (BitVec 32)) : Rests s₀ (State.headWrite s st prio addr data) := by
  unfold State.headWrite
  repeat' first | (extract_lets +onlyGivenNames z; first | (refine Rests.cut (s₀ := s₀) z ?_ ?_; rotate_left; clear_value z; intro hz; rotate_left; subst z) | clear_value z) | with_reducible assumption | with_reducible apply State.sbQueue_rests | with_reducible refine Rests.ite ?_ ?_ | (with_reducible apply Rests.upd; with_reducible assumption)

theorem State.sendBdWin_rests {s₀ s : State} (h : Rests s₀ s) (st : Nat) : Rests s₀ (State.sendBdWin s st) := by
  unfold State.sendBdWin
  repeat' first | with_reducible assumption | with_reducible apply State.headWrite_rests

theorem State.sendBdWins_rests {s₀ s : State} (h : Rests s₀ s) : Rests s₀ (State.sendBdWins s) := by
  unfold State.sendBdWins
  repeat' first | with_reducible assumption | with_reducible apply State.sendBdWin_rests | (with_reducible apply Rests.foldl; intro _ _ _)

theorem State.setPoly_rests {s₀ s : State} (h : Rests s₀ s) (st : Nat) (v : Nat) : Rests s₀ (State.setPoly s st v) := by
  unfold State.setPoly
  repeat' first | (extract_lets +onlyGivenNames z; first | (refine Rests.cut (s₀ := s₀) z ?_ ?_; rotate_left; clear_value z; intro hz; rotate_left; subst z) | clear_value z) | with_reducible assumption | with_reducible apply State.setF_rests | with_reducible apply State.modScnSt_rests | with_reducible apply State.pf_rests | with_reducible apply State.sendBdWin_rests | with_reducible refine Rests.ite ?_ ?_ | (with_reducible apply Rests.upd; with_reducible assumption)

theorem State.lockLoss_rests {s₀ s : State} (h : Rests s₀ s) (st : Nat) : Rests s₀ (State.lockLoss s st) := by
  unfold State.lockLoss
  try dsimp only
  repeat' first | with_reducible assumption | with_reducible apply State.satInc_rests | with_reducible apply State.setPoly_rests | with_reducible apply State.modScnSt_rests | with_reducible apply State.scnReport_rests | with_reducible refine Rests.ite ?_ ?_ | (with_reducible apply Rests.upd; with_reducible assumption)

theorem State.setDead_rests {s₀ s : State} (h : Rests s₀ s) (st : Nat) (d : Nat) : Rests s₀ (State.setDead s st d) := by
  unfold State.setDead
  repeat' first | with_reducible assumption | with_reducible apply State.hwF_rests

theorem State.setCover_rests {s₀ s : State} (h : Rests s₀ s) (st : Nat) : Rests s₀ (State.setCover s st) := by
  unfold State.setCover
  try dsimp only
  repeat' first | with_reducible assumption | with_reducible apply State.setF_rests | with_reducible apply State.expReport_rests | split

theorem State.coverFrom_rests {s₀ s : State} (h : Rests s₀ s) (st : Nat) (old : State) (hold : Rests s₀ old) : Rests s₀ (State.coverFrom s st old) := by
  unfold State.coverFrom
  repeat' first | with_reducible assumption | with_reducible apply State.setCover_rests | with_reducible refine Rests.ite ?_ ?_

theorem State.syncBdEmit_rests {s₀ s : State} (h : Rests s₀ s) (st : Nat) : Rests s₀ (State.syncBdEmit s st) := by
  unfold State.syncBdEmit
  try dsimp only
  repeat' first | with_reducible assumption | with_reducible apply State.setF_rests | with_reducible apply State.headWrite_rests | with_reducible refine Rests.ite ?_ ?_

theorem State.sendCur_rests {s₀ s : State} (h : Rests s₀ s) (st : Nat) (want : Nat → Nat) : Rests s₀ (State.sendCur s st want) := by
  unfold State.sendCur
  extract_lets part
  have hp : ∀ (s : State) lo n, Rests s₀ s → Rests s₀ (part s lo n) := by
    intro s lo n h
    simp only [part]
    split
    · exact State.headWrite_rests h _ _ _ _
    · exact h
  exact hp _ _ _ (hp _ _ _ h)

theorem State.applyMove_rests {s₀ s : State} (h : Rests s₀ s) (st : Nat) : Rests s₀ (State.applyMove s st) := by
  unfold State.applyMove
  repeat' first | (extract_lets +onlyGivenNames z; first | (refine Rests.cut (s₀ := s₀) z ?_ ?_; rotate_left; clear_value z; intro hz; rotate_left; subst z) | clear_value z) | with_reducible assumption | with_reducible apply State.setWork_rests | with_reducible apply State.pf_rests | with_reducible apply State.setF_rests | with_reducible refine Rests.ite ?_ ?_

theorem State.askMove_rests {s₀ s : State} (h : Rests s₀ s) (st : Nat) : Rests s₀ (State.askMove s st) := by
  unfold State.askMove
  try dsimp only
  repeat' first | with_reducible assumption | with_reducible apply State.applyMove_rests | with_reducible apply State.coverFrom_rests | with_reducible apply State.modScnSt_rests | with_reducible apply State.setB_rests | with_reducible refine Rests.ite ?_ ?_ | (with_reducible apply Rests.upd; with_reducible assumption)

theorem State.deadChanged_rests {s₀ s : State} (h : Rests s₀ s) (st : Nat) : Rests s₀ (State.deadChanged s st) := by
  unfold State.deadChanged
  try dsimp only
  repeat' first | with_reducible assumption | with_reducible apply State.hwF_rests | with_reducible apply State.askMove_rests | with_reducible apply State.syncBdEmit_rests | with_reducible refine Rests.ite ?_ ?_

theorem State.takeExposure_rests {s₀ s : State} (h : Rests s₀ s) (st : Nat) : Rests s₀ (State.takeExposure s st) := by
  unfold State.takeExposure
  repeat' first | with_reducible assumption | with_reducible apply State.takeShadows_rests

theorem State.setBl_rests {s₀ s : State} (h : Rests s₀ s) (bl : Nat) (v : Nat) : Rests s₀ (State.setBl s bl v) := by
  unfold State.setBl
  try dsimp only
  repeat' first | with_reducible assumption | with_reducible apply State.setF_rests | with_reducible apply State.pf_rests | with_reducible refine Rests.ite ?_ ?_ | split

theorem State.train_rests {s₀ s : State} (h : Rests s₀ s) (bl : Nat) : Rests s₀ (State.train s bl) := by
  unfold State.train
  repeat' first | (extract_lets +onlyGivenNames z; first | (refine Rests.cut (s₀ := s₀) z ?_ ?_; rotate_left; clear_value z; intro hz; rotate_left; subst z) | clear_value z) | with_reducible assumption | with_reducible apply State.modPort_rests | with_reducible apply State.setBl_rests | (with_reducible apply Rests.upd; with_reducible assumption)

theorem State.retrain_rests {s₀ s : State} (h : Rests s₀ s) (bl : Nat) : Rests s₀ (State.retrain s bl) := by
  unfold State.retrain
  repeat' first | (extract_lets +onlyGivenNames z; first | (refine Rests.cut (s₀ := s₀) z ?_ ?_; rotate_left; clear_value z; intro hz; rotate_left; subst z) | clear_value z) | with_reducible assumption | with_reducible apply State.modPort_rests | with_reducible apply State.train_rests | (with_reducible apply Rests.upd; with_reducible assumption)

theorem State.portIdleFault_rests {s₀ s : State} (h : Rests s₀ s) (bl : Nat) (cause : Nat) : Rests s₀ (State.portIdleFault s bl cause) := by
  unfold State.portIdleFault
  repeat' first | with_reducible assumption | with_reducible apply State.scnReport_rests | with_reducible apply State.retrain_rests | split

theorem State.readHead_rests {s₀ s : State} (h : Rests s₀ s) (st : Nat) : Rests s₀ (State.readHead s st) := by
  unfold State.readHead
  repeat' first | (extract_lets +onlyGivenNames z; first | (refine Rests.cut (s₀ := s₀) z ?_ ?_; rotate_left; clear_value z; intro hz; rotate_left; subst z) | clear_value z) | with_reducible assumption | with_reducible apply State.setF_rests | with_reducible apply State.sbQueue_rests | (with_reducible apply Rests.upd; with_reducible assumption)

theorem State.portUp_rests {s₀ s : State} (h : Rests s₀ s) (bl : Nat) : Rests s₀ (State.portUp s bl) := by
  unfold State.portUp
  try dsimp only
  repeat' first | with_reducible assumption | with_reducible apply State.modPort_rests | with_reducible apply State.setBl_rests | with_reducible apply State.readHead_rests | split | (with_reducible apply Rests.upd; with_reducible assumption)

theorem State.linkSpoil_rests {s₀ s : State} (h : Rests s₀ s) (seq : Nat) (st : Nat) (bl : Nat) (cause : Nat) : Rests s₀ (State.linkSpoil s seq st bl cause) := by
  unfold State.linkSpoil
  repeat' first | with_reducible assumption | with_reducible apply State.spoilPage_rests | with_reducible apply State.pf_rests

theorem State.pollDone_rests {s₀ s : State} (h : Rests s₀ s) (bl : Nat) (status : BitVec 32) (err : BitVec 32) : Rests s₀ (State.pollDone s bl status err) := by
  unfold State.pollDone
  repeat' first | (extract_lets +onlyGivenNames z; first | (refine Rests.cut (s₀ := s₀) z ?_ ?_; rotate_left; clear_value z; intro hz; rotate_left; subst z) | clear_value z) | with_reducible assumption | with_reducible apply State.setF_rests | with_reducible apply State.setPort_rests | with_reducible apply State.portUp_rests | with_reducible apply State.satInc_rests | with_reducible apply State.linkSpoil_rests | with_reducible apply State.modPort_rests | with_reducible apply State.portIdleFault_rests | with_reducible refine Rests.ite ?_ ?_ | split | (with_reducible apply Rests.upd; with_reducible assumption)

theorem State.identify_rests {s₀ s : State} (h : Rests s₀ s) (st : Nat) (words : List (BitVec 32)) : Rests s₀ (State.identify s st words) := by
  unfold State.identify
  repeat' first | (extract_lets +onlyGivenNames z; first | (refine Rests.cut (s₀ := s₀) z ?_ ?_; rotate_left; clear_value z; intro hz; rotate_left; subst z) | clear_value z) | with_reducible assumption | with_reducible apply State.setF_rests | with_reducible apply State.expReport_rests | with_reducible apply State.pf_rests | with_reducible apply State.raise_rests | with_reducible apply State.setDead_rests | with_reducible apply State.deadChanged_rests | with_reducible apply State.headWrite_rests | with_reducible apply State.sendBdWin_rests | with_reducible apply State.takeExposure_rests | with_reducible apply State.coverFrom_rests | (with_reducible apply Rests.foldl; intro _ _ _) | with_reducible refine Rests.ite ?_ ?_

theorem State.monitorWord_rests {s₀ s : State} (h : Rests s₀ s) (st : Nat) (e : Nat) (w : BitVec 32) : Rests s₀ (State.monitorWord s st e w) := by
  unfold State.monitorWord
  repeat' first | (extract_lets +onlyGivenNames z; first | (refine Rests.cut (s₀ := s₀) z ?_ ?_; rotate_left; clear_value z; intro hz; rotate_left; subst z) | clear_value z) | with_reducible assumption | with_reducible apply State.setB_rests | with_reducible apply State.setF_rests | with_reducible apply State.setExpSt_rests | with_reducible apply State.drew_rests | with_reducible apply State.satInc_rests | with_reducible apply State.expReport_rests | with_reducible apply State.setDead_rests | with_reducible apply State.deadChanged_rests | with_reducible refine Rests.ite ?_ ?_ | (with_reducible apply Rests.upd; with_reducible assumption)

theorem State.headStatus_rests {s₀ s : State} (h : Rests s₀ s) (st : Nat) (w : BitVec 32) : Rests s₀ (State.headStatus s st w) := by
  unfold State.headStatus
  try dsimp only
  repeat' first | with_reducible assumption | with_reducible apply State.setB_rests | with_reducible apply State.setF_rests | with_reducible apply State.expReport_rests | with_reducible refine Rests.ite ?_ ?_

theorem State.readDone_rests {s₀ s : State} (h : Rests s₀ s) (bl : Nat) (r : SbReq) (ws : List (BitVec 32)) : Rests s₀ (State.readDone s bl r ws) := by
  unfold State.readDone
  try dsimp only
  repeat' first | with_reducible assumption | with_reducible apply State.pollDone_rests | with_reducible apply State.headStatus_rests | with_reducible apply State.setExpSt_rests | with_reducible apply State.identify_rests | with_reducible apply State.monitorWord_rests | with_reducible apply State.sendCur_rests | (with_reducible apply Rests.foldl; intro _ _ _) | with_reducible refine Rests.ite ?_ ?_ | split | (with_reducible apply Rests.upd; with_reducible assumption)

theorem State.noteSent_rests {s₀ s : State} (h : Rests s₀ s) (bl : Nat) (r : SbReq) : Rests s₀ (State.noteSent s bl r) := by
  unfold State.noteSent
  repeat' first | with_reducible assumption | with_reducible apply State.setF_rests | (with_reducible apply Rests.foldl; intro _ _ _) | with_reducible refine Rests.ite ?_ ?_ | split

theorem State.sbFailed_rests {s₀ s : State} (h : Rests s₀ s) (bl : Nat) : Rests s₀ (State.sbFailed s bl) := by
  unfold State.sbFailed
  repeat' first | (extract_lets +onlyGivenNames z; first | (refine Rests.cut (s₀ := s₀) z ?_ ?_; rotate_left; clear_value z; intro hz; rotate_left; subst z) | clear_value z) | with_reducible assumption | with_reducible apply State.setPort_rests | with_reducible apply State.satInc_rests | with_reducible apply State.emit_rests | with_reducible apply State.setF_rests | with_reducible apply State.scnReport_rests | with_reducible apply State.report_rests | with_reducible apply State.retrain_rests | with_reducible apply State.train_rests | with_reducible refine Rests.ite ?_ ?_ | split | (with_reducible apply Rests.upd; with_reducible assumption)

theorem State.syncTaps_rests {s₀ s : State} (h : Rests s₀ s) (st : Nat) : Rests s₀ (State.syncTaps s st) := by
  unfold State.syncTaps
  try dsimp only
  repeat' first | with_reducible assumption | with_reducible apply State.setB_rests | with_reducible apply State.setF_rests | with_reducible refine Rests.ite ?_ ?_

theorem State.stepTaps_rests {s₀ s : State} (h : Rests s₀ s) (st : Nat) : Rests s₀ (State.stepTaps s st) := by
  unfold State.stepTaps
  try dsimp only
  repeat' first | with_reducible assumption | with_reducible apply State.setF_rests | with_reducible apply State.syncTaps_rests | (with_reducible apply Rests.foldl; intro _ _ _) | with_reducible refine Rests.ite ?_ ?_

theorem State.scaleTaps_rests {s₀ s : State} (h : Rests s₀ s) (old : Nat) (new : Nat) : Rests s₀ (State.scaleTaps s old new) := by
  unfold State.scaleTaps
  repeat' first | with_reducible assumption | with_reducible apply State.setF_rests | with_reducible apply State.syncTaps_rests | (with_reducible apply Rests.foldl; intro _ _ _)

end Sys2Proof.Machine
end

