-- ==== Sys2Proof/Laws/RestLoopBase.lean ====
section
/-! SUPPORT. Which operations of Machine/LoopBase.lean leave the memories as they are (Laws/Rest.lean). -/
namespace Sys2Proof.Machine
set_option Elab.async false
set_option linter.all false

theorem State.setLoop_rests {s₀ s : State} (h : Rests s₀ s) (lp : Nat) (x : Loop) : Rests s₀ (State.setLoop s lp x) := by
  unfold State.setLoop
  try dsimp only
  repeat' first | with_reducible assumption | (with_reducible apply Rests.upd; with_reducible assumption)

theorem State.modLoop_rests {s₀ s : State} (h : Rests s₀ s) (lp : Nat) (g : Loop → Loop) : Rests s₀ (State.modLoop s lp g) := by
  unfold State.modLoop
  repeat' first | with_reducible assumption | with_reducible apply State.setLoop_rests

theorem State.setEncIn_rests {s₀ s : State} (h : Rests s₀ s) (n : Nat) (x : EncIn) : Rests s₀ (State.setEncIn s n x) := by
  unfold State.setEncIn
  try dsimp only
  repeat' first | with_reducible assumption | (with_reducible apply Rests.upd; with_reducible assumption)

theorem State.putOut_rests {s₀ s : State} (h : Rests s₀ s) (p : Nat) (node : Nat) (b : Nat) (bs : List Byte) : Rests s₀ (State.putOut s p node b bs) := by
  unfold State.putOut
  try dsimp only
  repeat' first | with_reducible assumption | with_reducible apply State.setF_rests | (with_reducible apply Rests.foldl; intro _ _ _)

theorem State.setLatPort_rests {s₀ s : State} (h : Rests s₀ s) (p : Nat) (x : LatPort) : Rests s₀ (State.setLatPort s p x) := by
  unfold State.setLatPort
  try dsimp only
  repeat' first | with_reducible assumption | (with_reducible apply Rests.upd; with_reducible assumption)

theorem State.modLatPort_rests {s₀ s : State} (h : Rests s₀ s) (p : Nat) (g : LatPort → LatPort) : Rests s₀ (State.modLatPort s p g) := by
  unfold State.modLatPort
  repeat' first | with_reducible assumption | with_reducible apply State.setLatPort_rests

theorem State.askSpeed_rests {s₀ s : State} (h : Rests s₀ s) (v : Nat) : Rests s₀ (State.askSpeed s v) := by
  unfold State.askSpeed
  try dsimp only
  repeat' first | with_reducible assumption | (with_reducible apply Rests.upd; with_reducible assumption)

theorem State.syncSpeed_rests {s₀ s : State} (h : Rests s₀ s) : Rests s₀ (State.syncSpeed s) := by
  unfold State.syncSpeed
  try dsimp only
  repeat' first | with_reducible assumption | with_reducible apply State.setF_rests | split

end Sys2Proof.Machine
end

