-- ==== Sys2Proof/Laws/RestMotOps.lean ====
section
/-! SUPPORT. Which operations of Machine/MotOps.lean leave the memories as they are (Laws/Rest.lean). -/
namespace Sys2Proof.Machine
set_option Elab.async false
set_option linter.all false

theorem State.setAxis_rests {s₀ s : State} (h : Rests s₀ s) (ax : Nat) (x : Axis) : Rests s₀ (State.setAxis s ax x) := by
  unfold State.setAxis
  repeat' first | (extract_lets +onlyGivenNames z; first | (refine Rests.cut (s₀ := s₀) z ?_ ?_; rotate_left; clear_value z; intro hz; rotate_left; subst z) | clear_value z) | with_reducible assumption | (with_reducible apply Rests.upd; with_reducible assumption)

theorem State.modAxis_rests {s₀ s : State} (h : Rests s₀ s) (ax : Nat) (g : Axis → Axis) : Rests s₀ (State.modAxis s ax g) := by
  unfold State.modAxis
  repeat' first | with_reducible assumption | with_reducible apply State.setAxis_rests

theorem State.setI32_rests {s₀ s : State} (h : Rests s₀ s) (off : Nat) (v : Int) : Rests s₀ (State.setI32 s off v) := by
  unfold State.setI32
  repeat' first | with_reducible assumption | with_reducible apply State.setWord_rests

theorem State.axTo_rests {s₀ s : State} (h : Rests s₀ s) (ax : Nat) (v : Nat) : Rests s₀ (State.axTo s ax v) := by
  unfold State.axTo
  try dsimp only
  repeat' first | with_reducible assumption | with_reducible apply State.setF_rests

theorem State.axShowEnc_rests {s₀ s : State} (h : Rests s₀ s) (ax : Nat) : Rests s₀ (State.axShowEnc s ax) := by
  unfold State.axShowEnc
  repeat' first | with_reducible assumption | with_reducible apply State.setI32_rests | with_reducible refine Rests.ite ?_ ?_

theorem State.axSync_rests {s₀ s : State} (h : Rests s₀ s) (ax : Nat) : Rests s₀ (State.axSync s ax) := by
  unfold State.axSync
  repeat' first | (extract_lets +onlyGivenNames z; first | (refine Rests.cut (s₀ := s₀) z ?_ ?_; rotate_left; clear_value z; intro hz; rotate_left; subst z) | clear_value z) | with_reducible assumption | with_reducible apply State.modAxis_rests | with_reducible apply State.axShowEnc_rests | (with_reducible apply Rests.upd; with_reducible assumption)

theorem State.setPhase_rests {s₀ s : State} (h : Rests s₀ s) (ax : Nat) (ph : Nat) (p : Phase) : Rests s₀ (State.setPhase s ax ph p) := by
  unfold State.setPhase
  repeat' first | (extract_lets +onlyGivenNames z; first | (refine Rests.cut (s₀ := s₀) z ?_ ?_; rotate_left; clear_value z; intro hz; rotate_left; subst z) | clear_value z) | with_reducible assumption | with_reducible apply State.modAxis_rests | with_reducible refine Rests.ite ?_ ?_ | (with_reducible apply Rests.upd; with_reducible assumption)

theorem State.gates_rests {s₀ s : State} (h : Rests s₀ s) (ax : Nat) (ph : Nat) (g : Nat) : Rests s₀ (State.gates s ax ph g) := by
  unfold State.gates
  try dsimp only
  repeat' first | with_reducible assumption | with_reducible apply State.emit_rests | with_reducible apply State.setPhase_rests | with_reducible refine Rests.ite ?_ ?_ | (with_reducible apply Rests.upd; with_reducible assumption)

theorem State.startDrive_rests {s₀ s : State} (h : Rests s₀ s) (ax : Nat) (ph : Nat) : Rests s₀ (State.startDrive s ax ph) := by
  unfold State.startDrive
  try dsimp only
  repeat' first | with_reducible assumption | with_reducible apply State.gates_rests | with_reducible apply State.setPhase_rests | (with_reducible apply Rests.upd; with_reducible assumption)

theorem State.startDecay_rests {s₀ s : State} (h : Rests s₀ s) (ax : Nat) (ph : Nat) : Rests s₀ (State.startDecay s ax ph) := by
  unfold State.startDecay
  try dsimp only
  repeat' first | with_reducible assumption | with_reducible apply State.gates_rests | with_reducible apply State.setPhase_rests | with_reducible refine Rests.ite ?_ ?_ | (with_reducible apply Rests.upd; with_reducible assumption)

theorem State.setCode_rests {s₀ s : State} (h : Rests s₀ s) (ax : Nat) (ph : Nat) : Rests s₀ (State.setCode s ax ph) := by
  unfold State.setCode
  try dsimp only
  repeat' first | with_reducible assumption | with_reducible apply State.setPhase_rests | with_reducible apply State.gates_rests | with_reducible apply State.startDrive_rests | with_reducible refine Rests.ite ?_ ?_ | (with_reducible apply Rests.upd; with_reducible assumption)

theorem State.setCodes_rests {s₀ s : State} (h : Rests s₀ s) (ax : Nat) : Rests s₀ (State.setCodes s ax) := by
  unfold State.setCodes
  repeat' first | with_reducible assumption | with_reducible apply State.setCode_rests

theorem State.bridges_rests {s₀ s : State} (h : Rests s₀ s) (ax : Nat) (off : Bool) (run : Bool) : Rests s₀ (State.bridges s ax off run) := by
  unfold State.bridges
  repeat' first | (extract_lets +onlyGivenNames z; first | (refine Rests.cut (s₀ := s₀) z ?_ ?_; rotate_left; clear_value z; intro hz; rotate_left; subst z) | clear_value z) | with_reducible assumption | with_reducible apply State.modAxis_rests | with_reducible apply State.setCodes_rests | (with_reducible apply Rests.upd; with_reducible assumption)

theorem State.axVec_rests {s₀ s : State} (h : Rests s₀ s) (ax : Nat) : Rests s₀ (State.axVec s ax) := by
  unfold State.axVec
  repeat' first | with_reducible assumption | with_reducible apply State.pf_rests

theorem State.unhold_rests {s₀ s : State} (h : Rests s₀ s) (ax : Nat) : Rests s₀ (State.unhold s ax) := by
  unfold State.unhold
  repeat' first | (extract_lets +onlyGivenNames z; first | (refine Rests.cut (s₀ := s₀) z ?_ ?_; rotate_left; clear_value z; intro hz; rotate_left; subst z) | clear_value z) | with_reducible assumption | with_reducible apply State.modAxis_rests | with_reducible apply State.setF_rests | (with_reducible apply Rests.upd; with_reducible assumption)

theorem State.axSleep_rests {s₀ s : State} (h : Rests s₀ s) (ax : Nat) : Rests s₀ (State.axSleep s ax) := by
  unfold State.axSleep
  try dsimp only
  repeat' first | with_reducible assumption | with_reducible apply State.modAxis_rests | with_reducible apply State.settle_rests | with_reducible apply State.unhold_rests | with_reducible apply State.axTo_rests | with_reducible apply State.setF_rests | with_reducible apply State.bridges_rests | (with_reducible apply Rests.upd; with_reducible assumption)

theorem State.axDone_rests {s₀ s : State} (h : Rests s₀ s) (ax : Nat) : Rests s₀ (State.axDone s ax) := by
  unfold State.axDone
  repeat' first | (extract_lets +onlyGivenNames z; first | (refine Rests.cut (s₀ := s₀) z ?_ ?_; rotate_left; clear_value z; intro hz; rotate_left; subst z) | clear_value z) | with_reducible assumption | with_reducible apply State.modAxis_rests | with_reducible apply State.axTo_rests | with_reducible apply State.setI32_rests | with_reducible apply State.event_rests | with_reducible apply State.axVec_rests | with_reducible apply State.axSleep_rests | with_reducible refine Rests.ite ?_ ?_

theorem State.axRest_rests {s₀ s : State} (h : Rests s₀ s) (ax : Nat) (atLimit : Bool) : Rests s₀ (State.axRest s ax atLimit) := by
  unfold State.axRest
  repeat' first | (extract_lets +onlyGivenNames z; first | (refine Rests.cut (s₀ := s₀) z ?_ ?_; rotate_left; clear_value z; intro hz; rotate_left; subst z) | clear_value z) | with_reducible assumption | with_reducible apply State.modAxis_rests | with_reducible apply State.axTo_rests | with_reducible apply State.setI32_rests | with_reducible apply State.setB_rests | with_reducible apply State.event_rests | with_reducible apply State.axVec_rests | with_reducible apply State.axSleep_rests | with_reducible refine Rests.ite ?_ ?_

theorem State.axFault_rests {s₀ s : State} (h : Rests s₀ s) (ax : Nat) (code : Nat) : Rests s₀ (State.axFault s ax code) := by
  unfold State.axFault
  repeat' first | (extract_lets +onlyGivenNames z; first | (refine Rests.cut (s₀ := s₀) z ?_ ?_; rotate_left; clear_value z; intro hz; rotate_left; subst z) | clear_value z) | with_reducible assumption | with_reducible apply State.modAxis_rests | with_reducible apply State.unhold_rests | with_reducible apply State.axTo_rests | with_reducible apply State.setI32_rests | with_reducible apply State.setF_rests | with_reducible apply State.bridges_rests | with_reducible apply State.report_rests | with_reducible apply State.event_rests | with_reducible apply State.axVec_rests | with_reducible refine Rests.ite ?_ ?_ | (with_reducible apply Rests.upd; with_reducible assumption)

theorem State.axStart_rests {s₀ s : State} (h : Rests s₀ s) (ax : Nat) (jog : Int) (t : Int) : Rests s₀ (State.axStart s ax jog t) := by
  unfold State.axStart
  repeat' first | (extract_lets +onlyGivenNames z; first | (refine Rests.cut (s₀ := s₀) z ?_ ?_; rotate_left; clear_value z; intro hz; rotate_left; subst z) | clear_value z) | with_reducible assumption | with_reducible apply State.settle_rests | with_reducible apply State.setAxis_rests | with_reducible apply State.setI32_rests | with_reducible apply State.setB_rests | with_reducible apply State.setF_rests | with_reducible apply State.axTo_rests | with_reducible apply State.bridges_rests | with_reducible apply State.axDone_rests | with_reducible refine Rests.ite ?_ ?_ | (with_reducible apply Rests.upd; with_reducible assumption)

theorem State.axStopSteps_rests {s₀ s : State} (h : Rests s₀ s) (x : Axis) (dec : Nat) : Rests s₀ (State.axStopSteps s x dec).2 := by
  unfold State.axStopSteps
  try dsimp only
  repeat' first | with_reducible assumption | with_reducible apply State.drew_rests | with_reducible refine Rests.ite ?_ ?_ | with_reducible refine Rests.ite_snd ?_ ?_ | with_reducible refine Rests.ite_fst ?_ ?_ | split | dsimp only

theorem State.axReplan_rests {s₀ s : State} (h : Rests s₀ s) (ax : Nat) (t : Int) : Rests s₀ (State.axReplan s ax t) := by
  unfold State.axReplan
  repeat' first | (extract_lets +onlyGivenNames z; first | (refine Rests.cut (s₀ := s₀) z ?_ ?_; rotate_left; clear_value z; intro hz; rotate_left; subst z) | (refine Rests.cut (s₀ := s₀) (z : _ × State).2 ?_ ?_; rotate_left; clear_value z; intro hz; rotate_left; subst z) | (refine Rests.cut (s₀ := s₀) (z : State × _).1 ?_ ?_; rotate_left; clear_value z; intro hz; rotate_left; subst z) | (refine Rests.cut (s₀ := s₀) (z : _ × _ × State).2.2 ?_ ?_; rotate_left; clear_value z; intro hz; rotate_left; subst z) | clear_value z) | with_reducible assumption | with_reducible apply State.axStopSteps_rests | with_reducible apply State.setAxis_rests | with_reducible apply State.setI32_rests | with_reducible apply State.setF_rests | with_reducible apply State.axStart_rests | with_reducible apply State.axDone_rests | (refine Rests.of_snd ?_ (by assumption)) | with_reducible refine Rests.ite ?_ ?_ | with_reducible refine Rests.ite_snd ?_ ?_ | with_reducible refine Rests.ite_fst ?_ ?_ | split | (with_reducible apply Rests.upd; first | with_reducible assumption | with_reducible apply State.axStopSteps_rests | with_reducible apply State.setAxis_rests | with_reducible apply State.setI32_rests | with_reducible apply State.setF_rests | with_reducible apply State.axStart_rests | with_reducible apply State.axDone_rests) | dsimp only

theorem State.axSpeed_rests {s₀ s : State} (h : Rests s₀ s) (x : Axis) (left : Nat) : Rests s₀ (State.axSpeed s x left).2 := by
  unfold State.axSpeed
  try dsimp only
  repeat' first | with_reducible assumption | with_reducible apply State.drew_rests | with_reducible refine Rests.ite ?_ ?_ | with_reducible refine Rests.ite_snd ?_ ?_ | with_reducible refine Rests.ite_fst ?_ ?_ | split | dsimp only

theorem State.axBeginStop_rests {s₀ s : State} (h : Rests s₀ s) (ax : Nat) (dec : Nat) : Rests s₀ (State.axBeginStop s ax dec) := by
  unfold State.axBeginStop
  repeat' first | (extract_lets +onlyGivenNames z; first | (refine Rests.cut (s₀ := s₀) z ?_ ?_; rotate_left; clear_value z; intro hz; rotate_left; subst z) | (refine Rests.cut (s₀ := s₀) (z : _ × State).2 ?_ ?_; rotate_left; clear_value z; intro hz; rotate_left; subst z) | (refine Rests.cut (s₀ := s₀) (z : State × _).1 ?_ ?_; rotate_left; clear_value z; intro hz; rotate_left; subst z) | (refine Rests.cut (s₀ := s₀) (z : _ × _ × State).2.2 ?_ ?_; rotate_left; clear_value z; intro hz; rotate_left; subst z) | clear_value z) | with_reducible assumption | with_reducible apply State.axStopSteps_rests | with_reducible apply State.setAxis_rests | with_reducible apply State.axTo_rests | with_reducible apply State.axRest_rests | (refine Rests.of_snd ?_ (by assumption)) | with_reducible refine Rests.ite ?_ ?_ | with_reducible refine Rests.ite_snd ?_ ?_ | with_reducible refine Rests.ite_fst ?_ ?_ | split | (with_reducible apply Rests.upd; first | with_reducible assumption | with_reducible apply State.axStopSteps_rests | with_reducible apply State.setAxis_rests | with_reducible apply State.axTo_rests | with_reducible apply State.axRest_rests) | dsimp only

theorem State.axStepEvent_rests {s₀ s : State} (h : Rests s₀ s) (ax : Nat) : Rests s₀ (State.axStepEvent s ax) := by
  unfold State.axStepEvent
  repeat' first | (extract_lets +onlyGivenNames z; first | (refine Rests.cut (s₀ := s₀) z ?_ ?_; rotate_left; clear_value z; intro hz; rotate_left; subst z) | (refine Rests.cut (s₀ := s₀) (z : _ × State).2 ?_ ?_; rotate_left; clear_value z; intro hz; rotate_left; subst z) | (refine Rests.cut (s₀ := s₀) (z : State × _).1 ?_ ?_; rotate_left; clear_value z; intro hz; rotate_left; subst z) | (refine Rests.cut (s₀ := s₀) (z : _ × _ × State).2.2 ?_ ?_; rotate_left; clear_value z; intro hz; rotate_left; subst z) | clear_value z) | with_reducible assumption | with_reducible apply State.axSpeed_rests | with_reducible apply State.setAxis_rests | with_reducible apply State.setI32_rests | with_reducible apply State.event_rests | with_reducible apply State.axShowEnc_rests | with_reducible apply State.setCodes_rests | with_reducible apply State.axRest_rests | with_reducible apply State.axStart_rests | with_reducible apply State.axDone_rests | with_reducible apply State.axBeginStop_rests | (refine Rests.of_snd ?_ (by assumption)) | with_reducible refine Rests.ite ?_ ?_ | with_reducible refine Rests.ite_snd ?_ ?_ | with_reducible refine Rests.ite_fst ?_ ?_ | split | (with_reducible apply Rests.upd; first | with_reducible assumption | with_reducible apply State.axSpeed_rests | with_reducible apply State.setAxis_rests | with_reducible apply State.setI32_rests | with_reducible apply State.event_rests | with_reducible apply State.axShowEnc_rests | with_reducible apply State.setCodes_rests | with_reducible apply State.axRest_rests | with_reducible apply State.axStart_rests | with_reducible apply State.axDone_rests | with_reducible apply State.axBeginStop_rests) | dsimp only

theorem State.axAskStop_rests {s₀ s : State} (h : Rests s₀ s) (ax : Nat) (dec : Nat) : Rests s₀ (State.axAskStop s ax dec) := by
  unfold State.axAskStop
  try dsimp only
  repeat' first | with_reducible assumption | with_reducible apply State.unhold_rests | with_reducible apply State.modAxis_rests | with_reducible apply State.axTo_rests | with_reducible refine Rests.ite ?_ ?_ | (with_reducible apply Rests.upd; with_reducible assumption)

theorem State.axesStop_rests {s₀ s : State} (h : Rests s₀ s) (cls : Nat) : Rests s₀ (State.axesStop s cls) := by
  unfold State.axesStop
  repeat' first | (extract_lets +onlyGivenNames z; first | (refine Rests.cut (s₀ := s₀) z ?_ ?_; rotate_left; clear_value z; intro hz; rotate_left; subst z) | clear_value z) | with_reducible assumption | with_reducible apply State.axAskStop_rests | with_reducible apply State.unhold_rests | with_reducible apply State.axRest_rests | with_reducible apply State.bridges_rests | (with_reducible apply Rests.foldl; intro _ _ _) | with_reducible refine Rests.ite ?_ ?_

theorem State.axesSleep_rests {s₀ s : State} (h : Rests s₀ s) : Rests s₀ (State.axesSleep s) := by
  unfold State.axesSleep
  repeat' first | (extract_lets +onlyGivenNames z; first | (refine Rests.cut (s₀ := s₀) z ?_ ?_; rotate_left; clear_value z; intro hz; rotate_left; subst z) | clear_value z) | with_reducible assumption | with_reducible apply State.axAskStop_rests | with_reducible apply State.modAxis_rests | with_reducible apply State.axSleep_rests | (with_reducible apply Rests.foldl; intro _ _ _) | with_reducible refine Rests.ite ?_ ?_ | (with_reducible apply Rests.upd; with_reducible assumption)

end Sys2Proof.Machine
end

