-- ==== Sys2Proof/Laws/RestAxes.lean ====
section
/-! SUPPORT. Which operations of Machine/Axes.lean leave the memories as they are (Laws/Rest.lean). -/
namespace Sys2Proof.Machine
set_option Elab.async false
set_option linter.all false

theorem State.axRefuse_rests {s₀ s : State} (h : Rests s₀ s) (ax : Nat) (code : Nat) : Rests s₀ (State.axRefuse s ax code) := by
  unfold State.axRefuse
  repeat' first | with_reducible assumption | with_reducible apply State.raise_rests | with_reducible apply State.setF_rests | with_reducible apply State.axVec_rests

theorem State.axGuard_rests {s₀ s t : State} {ax : Nat} {cmd : Nat} {pass : Bool} (h : Rests s₀ s) (e : State.axGuard s ax cmd pass = some t) : Rests s₀ t := by
  unfold State.axGuard at e
  repeat' first | (split at e) | (simp only [Option.some.injEq] at e) | (simp only [reduceCtorEq] at e) | subst e
  all_goals (repeat' first | (extract_lets +onlyGivenNames z; first | (refine Rests.cut (s₀ := s₀) z ?_ ?_; rotate_left; clear_value z; intro hz; rotate_left; subst z) | clear_value z) | with_reducible assumption | with_reducible apply State.darkWrite_rests | with_reducible apply State.axRefuse_rests | with_reducible refine Rests.ite ?_ ?_ | (simp only [Option.some.injEq, reduceCtorEq] at e))

theorem State.axHold_rests {s₀ s : State} (h : Rests s₀ s) (ax : Nat) (h : Held) : Rests s₀ (State.axHold s ax h) := by
  unfold State.axHold
  repeat' first | (extract_lets +onlyGivenNames z; first | (refine Rests.cut (s₀ := s₀) z ?_ ?_; rotate_left; clear_value z; intro hz; rotate_left; subst z) | clear_value z) | with_reducible assumption | with_reducible apply State.modAxis_rests | with_reducible apply State.setF_rests | (with_reducible apply Rests.upd; with_reducible assumption)

theorem State.axMove_rests {s₀ s : State} (h : Rests s₀ s) (ax : Nat) (t : Int) (arm : Bool) : Rests s₀ (State.axMove s ax t arm) := by
  unfold State.axMove
  repeat' first | with_reducible assumption | with_reducible apply State.axRefuse_rests | with_reducible apply State.axHold_rests | with_reducible apply State.axReplan_rests | with_reducible apply State.axStart_rests | with_reducible refine Rests.ite ?_ ?_

theorem State.axJog_rests {s₀ s : State} (h : Rests s₀ s) (ax : Nat) (dir : Int) (arm : Bool) : Rests s₀ (State.axJog s ax dir arm) := by
  unfold State.axJog
  repeat' first | with_reducible assumption | with_reducible apply State.axRefuse_rests | with_reducible apply State.axHold_rests | with_reducible apply State.axStart_rests | with_reducible refine Rests.ite ?_ ?_

theorem State.axDo_rests {s₀ s : State} (h : Rests s₀ s) (ax : Nat) (cmd : Nat) (pass : Bool) (g : State → State) (hg : ∀ t, Rests s₀ t → Rests s₀ (g t)) : RestsAns s₀ (State.axDo s ax cmd pass g) := by
  unfold State.axDo
  repeat' first | with_reducible assumption | with_reducible apply RestsAns.next | with_reducible apply hg | (refine State.axGuard_rests ?_ (by assumption)) | with_reducible apply State.axRefuse_rests | with_reducible apply State.mark_rests | with_reducible refine RestsAns.ite ?_ ?_ | with_reducible refine Rests.ite ?_ ?_ | split

theorem execAxEnable_rests {s₀ s : State} (h : Rests s₀ s) (ax : Nat) : RestsAns s₀ (execAxEnable ax s) := by
  unfold execAxEnable
  repeat' first | (extract_lets +onlyGivenNames z; first | (refine Rests.cut (s₀ := s₀) z ?_ ?_; rotate_left; clear_value z; intro hz; rotate_left; subst z) | clear_value z) | with_reducible assumption | with_reducible apply RestsAns.next | with_reducible apply State.axDo_rests | with_reducible apply State.axRefuse_rests | with_reducible apply State.modAxis_rests | with_reducible refine RestsAns.ite ?_ ?_ | with_reducible refine Rests.ite ?_ ?_ | (with_reducible apply Rests.upd; with_reducible assumption) | intro _ _

theorem execAxEnableComplete_rests {s₀ s : State} (h : Rests s₀ s) (ax : Nat) (ta : List Nat) (tb : List Nat) : RestsAns s₀ (execAxEnableComplete ax ta tb s) := by
  unfold execAxEnableComplete
  repeat' first | (extract_lets +onlyGivenNames z; first | (refine Rests.cut (s₀ := s₀) z ?_ ?_; rotate_left; clear_value z; intro hz; rotate_left; subst z) | clear_value z) | with_reducible assumption | with_reducible apply RestsAns.next | with_reducible apply State.setF_rests | with_reducible apply State.modAxis_rests | with_reducible apply State.axTo_rests | with_reducible apply State.bridges_rests | with_reducible apply State.axSync_rests | with_reducible refine RestsAns.ite ?_ ?_ | with_reducible refine Rests.ite ?_ ?_ | (with_reducible apply Rests.upd; with_reducible assumption)

theorem execAxDisable_rests {s₀ s : State} (h : Rests s₀ s) (ax : Nat) : RestsAns s₀ (execAxDisable ax s) := by
  unfold execAxDisable
  repeat' first | with_reducible assumption | with_reducible apply RestsAns.next | with_reducible apply State.axDo_rests | with_reducible apply State.axRefuse_rests | with_reducible apply State.axTo_rests | with_reducible apply State.setI32_rests | with_reducible apply State.bridges_rests | with_reducible refine RestsAns.ite ?_ ?_ | with_reducible refine Rests.ite ?_ ?_ | intro _ _

theorem execAxMoveAbs_rests {s₀ s : State} (h : Rests s₀ s) (ax : Nat) (arm : Bool) : RestsAns s₀ (execAxMoveAbs ax arm s) := by
  unfold execAxMoveAbs
  repeat' first | with_reducible assumption | with_reducible apply RestsAns.next | with_reducible apply State.axDo_rests | with_reducible apply State.axMove_rests | intro _ _

theorem execAxMoveRel_rests {s₀ s : State} (h : Rests s₀ s) (ax : Nat) (arm : Bool) : RestsAns s₀ (execAxMoveRel ax arm s) := by
  unfold execAxMoveRel
  try dsimp only
  repeat' first | with_reducible assumption | with_reducible apply RestsAns.next | with_reducible apply State.axDo_rests | with_reducible apply State.axMove_rests | with_reducible refine RestsAns.ite ?_ ?_ | with_reducible refine Rests.ite ?_ ?_ | intro _ _

theorem execAxJogPos_rests {s₀ s : State} (h : Rests s₀ s) (ax : Nat) (arm : Bool) : RestsAns s₀ (execAxJogPos ax arm s) := by
  unfold execAxJogPos
  repeat' first | with_reducible assumption | with_reducible apply RestsAns.next | with_reducible apply State.axDo_rests | with_reducible apply State.axJog_rests | intro _ _

theorem execAxJogNeg_rests {s₀ s : State} (h : Rests s₀ s) (ax : Nat) (arm : Bool) : RestsAns s₀ (execAxJogNeg ax arm s) := by
  unfold execAxJogNeg
  repeat' first | with_reducible assumption | with_reducible apply RestsAns.next | with_reducible apply State.axDo_rests | with_reducible apply State.axJog_rests | intro _ _

theorem State.axStopCmd_rests {s₀ s : State} (h : Rests s₀ s) (ax : Nat) : Rests s₀ (State.axStopCmd s ax) := by
  unfold State.axStopCmd
  repeat' first | with_reducible assumption | with_reducible apply State.axRefuse_rests | with_reducible apply State.axAskStop_rests | with_reducible refine Rests.ite ?_ ?_

theorem State.axQstopCmd_rests {s₀ s : State} (h : Rests s₀ s) (ax : Nat) : Rests s₀ (State.axQstopCmd s ax) := by
  unfold State.axQstopCmd
  repeat' first | with_reducible assumption | with_reducible apply State.axRefuse_rests | with_reducible apply State.axAskStop_rests | with_reducible refine Rests.ite ?_ ?_

theorem execAxStop_rests {s₀ s : State} (h : Rests s₀ s) (ax : Nat) : RestsAns s₀ (execAxStop ax s) := by
  unfold execAxStop
  repeat' first | with_reducible assumption | with_reducible apply RestsAns.next | with_reducible apply State.axDo_rests | with_reducible apply State.axStopCmd_rests | intro _ _

theorem execAxQstop_rests {s₀ s : State} (h : Rests s₀ s) (ax : Nat) : RestsAns s₀ (execAxQstop ax s) := by
  unfold execAxQstop
  repeat' first | with_reducible assumption | with_reducible apply RestsAns.next | with_reducible apply State.axDo_rests | with_reducible apply State.axQstopCmd_rests | intro _ _

theorem execAxResume_rests {s₀ s : State} (h : Rests s₀ s) (ax : Nat) (arm : Bool) : RestsAns s₀ (execAxResume ax arm s) := by
  unfold execAxResume
  try dsimp only
  repeat' first | with_reducible assumption | with_reducible apply RestsAns.next | with_reducible apply State.axDo_rests | with_reducible apply State.axRefuse_rests | with_reducible apply State.axJog_rests | with_reducible apply State.axHold_rests | with_reducible apply State.axStart_rests | with_reducible refine RestsAns.ite ?_ ?_ | with_reducible refine Rests.ite ?_ ?_ | intro _ _

theorem execAxSetpos_rests {s₀ s : State} (h : Rests s₀ s) (ax : Nat) : RestsAns s₀ (execAxSetpos ax s) := by
  unfold execAxSetpos
  repeat' first | (extract_lets +onlyGivenNames z; first | (refine Rests.cut (s₀ := s₀) z ?_ ?_; rotate_left; clear_value z; intro hz; rotate_left; subst z) | clear_value z) | with_reducible assumption | with_reducible apply RestsAns.next | with_reducible apply State.axDo_rests | with_reducible apply State.axRefuse_rests | with_reducible apply State.setWord_rests | with_reducible apply State.setI32_rests | with_reducible apply State.modAxis_rests | with_reducible apply State.setF_rests | with_reducible apply State.axTo_rests | with_reducible apply State.setCodes_rests | with_reducible apply State.axSync_rests | with_reducible refine RestsAns.ite ?_ ?_ | with_reducible refine Rests.ite ?_ ?_ | (with_reducible apply Rests.upd; with_reducible assumption) | intro _ _

theorem State.axResync_rests {s₀ s : State} (h : Rests s₀ s) (ax : Nat) : Rests s₀ (State.axResync s ax) := by
  unfold State.axResync
  repeat' first | (extract_lets +onlyGivenNames z; first | (refine Rests.cut (s₀ := s₀) z ?_ ?_; rotate_left; clear_value z; intro hz; rotate_left; subst z) | clear_value z) | with_reducible assumption | with_reducible apply State.setI32_rests | with_reducible apply State.setCodes_rests | with_reducible apply State.modAxis_rests | with_reducible apply State.axSync_rests | with_reducible refine Rests.ite ?_ ?_ | (with_reducible apply Rests.upd; with_reducible assumption)

theorem execAxClear_rests {s₀ s : State} (h : Rests s₀ s) (ax : Nat) : RestsAns s₀ (execAxClear ax s) := by
  unfold execAxClear
  repeat' first | (extract_lets +onlyGivenNames z; first | (refine Rests.cut (s₀ := s₀) z ?_ ?_; rotate_left; clear_value z; intro hz; rotate_left; subst z) | clear_value z) | with_reducible assumption | with_reducible apply RestsAns.next | with_reducible apply State.axDo_rests | with_reducible apply State.axRefuse_rests | with_reducible apply State.setF_rests | with_reducible apply State.axTo_rests | with_reducible apply State.bridges_rests | with_reducible apply State.axResync_rests | with_reducible apply State.setI32_rests | with_reducible refine RestsAns.ite ?_ ?_ | with_reducible refine Rests.ite ?_ ?_ | intro _ _

theorem execAxStepEvent_rests {s₀ s : State} (h : Rests s₀ s) (ax : Nat) : RestsAns s₀ (execAxStepEvent ax s) := by
  unfold execAxStepEvent
  repeat' first | with_reducible assumption | with_reducible apply RestsAns.next | with_reducible apply State.axStepEvent_rests | with_reducible refine RestsAns.ite ?_ ?_ | with_reducible refine Rests.ite ?_ ?_

theorem execAxDeviationCheck_rests {s₀ s : State} (h : Rests s₀ s) (ax : Nat) : RestsAns s₀ (execAxDeviationCheck ax s) := by
  unfold execAxDeviationCheck
  repeat' first | (extract_lets +onlyGivenNames z; first | (refine Rests.cut (s₀ := s₀) z ?_ ?_; rotate_left; clear_value z; intro hz; rotate_left; subst z) | clear_value z) | with_reducible assumption | with_reducible apply RestsAns.next | with_reducible apply State.axShowEnc_rests | with_reducible apply State.modAxis_rests | with_reducible apply State.satInc_rests | with_reducible apply State.axFault_rests | with_reducible refine RestsAns.ite ?_ ?_ | with_reducible refine Rests.ite ?_ ?_ | (with_reducible apply Rests.upd; with_reducible assumption)

theorem execAxSettleCheck_rests {s₀ s : State} (h : Rests s₀ s) (ax : Nat) : RestsAns s₀ (execAxSettleCheck ax s) := by
  unfold execAxSettleCheck
  repeat' first | (extract_lets +onlyGivenNames z; first | (refine Rests.cut (s₀ := s₀) z ?_ ?_; rotate_left; clear_value z; intro hz; rotate_left; subst z) | clear_value z) | with_reducible assumption | with_reducible apply RestsAns.next | with_reducible apply State.axResync_rests | with_reducible apply State.settle_rests | with_reducible apply State.modAxis_rests | with_reducible apply State.satInc_rests | with_reducible apply State.report_rests | with_reducible refine RestsAns.ite ?_ ?_ | with_reducible refine Rests.ite ?_ ?_ | (with_reducible apply Rests.upd; with_reducible assumption)

theorem execAxHoldTimeout_rests {s₀ s : State} (h : Rests s₀ s) (ax : Nat) : RestsAns s₀ (execAxHoldTimeout ax s) := by
  unfold execAxHoldTimeout
  repeat' first | (extract_lets +onlyGivenNames z; first | (refine Rests.cut (s₀ := s₀) z ?_ ?_; rotate_left; clear_value z; intro hz; rotate_left; subst z) | clear_value z) | with_reducible assumption | with_reducible apply RestsAns.next | with_reducible apply State.modAxis_rests | with_reducible apply State.setF_rests | with_reducible apply State.setCodes_rests | with_reducible refine RestsAns.ite ?_ ?_ | with_reducible refine Rests.ite ?_ ?_ | (with_reducible apply Rests.upd; with_reducible assumption)

theorem State.chopCycle_rests {s₀ s : State} (h : Rests s₀ s) (ax : Nat) (ph : Nat) (tr : Nat) (tf : Nat) : Rests s₀ (State.chopCycle s ax ph tr tf) := by
  unfold State.chopCycle
  try dsimp only
  repeat' first | with_reducible assumption | with_reducible apply State.setPhase_rests | with_reducible apply State.setF_rests | (with_reducible apply Rests.foldl; intro _ _ _) | with_reducible refine Rests.ite ?_ ?_ | (with_reducible apply Rests.upd; with_reducible assumption)

theorem State.chopToggle_rests {s₀ s : State} (h : Rests s₀ s) (ax : Nat) (ph : Nat) : Rests s₀ (State.chopToggle s ax ph) := by
  unfold State.chopToggle
  try dsimp only
  repeat' first | with_reducible assumption | with_reducible apply State.setPhase_rests | with_reducible apply State.startDecay_rests | with_reducible apply State.chopCycle_rests | with_reducible apply State.startDrive_rests | with_reducible refine Rests.ite ?_ ?_ | split | (with_reducible apply Rests.upd; with_reducible assumption)

theorem execChopThresholdCross_rests {s₀ s : State} (h : Rests s₀ s) (ax : Nat) (phase : Nat) : RestsAns s₀ (execChopThresholdCross ax phase s) := by
  unfold execChopThresholdCross
  repeat' first | with_reducible assumption | with_reducible apply RestsAns.next | with_reducible apply State.chopToggle_rests | with_reducible refine RestsAns.ite ?_ ?_ | with_reducible refine Rests.ite ?_ ?_

theorem execChopMixEnd_rests {s₀ s : State} (h : Rests s₀ s) (ax : Nat) (phase : Nat) : RestsAns s₀ (execChopMixEnd ax phase s) := by
  unfold execChopMixEnd
  try dsimp only
  repeat' first | with_reducible assumption | with_reducible apply RestsAns.next | with_reducible apply State.setPhase_rests | with_reducible apply State.gates_rests | with_reducible refine RestsAns.ite ?_ ?_ | with_reducible refine Rests.ite ?_ ?_ | (with_reducible apply Rests.upd; with_reducible assumption)

theorem execChopMaxOnTimeout_rests {s₀ s : State} (h : Rests s₀ s) (ax : Nat) (phase : Nat) : RestsAns s₀ (execChopMaxOnTimeout ax phase s) := by
  unfold execChopMaxOnTimeout
  try dsimp only
  repeat' first | with_reducible assumption | with_reducible apply RestsAns.next | with_reducible apply State.setPhase_rests | with_reducible apply State.axFault_rests | with_reducible refine RestsAns.ite ?_ ?_ | with_reducible refine Rests.ite ?_ ?_ | (with_reducible apply Rests.upd; with_reducible assumption)

theorem execChopBlankingEnd_rests {s₀ s : State} (h : Rests s₀ s) (ax : Nat) (phase : Nat) (atLevel : Bool) : RestsAns s₀ (execChopBlankingEnd ax phase atLevel s) := by
  unfold execChopBlankingEnd
  try dsimp only
  repeat' first | with_reducible assumption | with_reducible apply RestsAns.next | with_reducible apply State.setPhase_rests | with_reducible apply State.axFault_rests | with_reducible apply State.chopToggle_rests | with_reducible refine RestsAns.ite ?_ ?_ | with_reducible refine Rests.ite ?_ ?_ | (with_reducible apply Rests.upd; with_reducible assumption)

end Sys2Proof.Machine
end

