-- ==== Sys2Proof/Laws/RestExposure.lean ====
section
/-! SUPPORT. Which operations of Machine/Exposure.lean leave the memories as they are (Laws/Rest.lean). -/
namespace Sys2Proof.Machine
set_option Elab.async false
set_option linter.all false

theorem execMonitorRead_rests {s₀ s : State} (h : Rests s₀ s) (st : Nat) : RestsAns s₀ (execMonitorRead st s) := by
  unfold execMonitorRead
  try dsimp only
  repeat' first | with_reducible assumption | with_reducible apply RestsAns.next | with_reducible apply State.sbQueue_rests | with_reducible refine RestsAns.ite ?_ ?_ | with_reducible refine Rests.ite ?_ ?_ | (with_reducible apply Rests.upd; with_reducible assumption)

theorem execTapCalMeasure_rests {s₀ s : State} (h : Rests s₀ s) (st : Nat) (count : Nat) : RestsAns s₀ (execTapCalMeasure st count s) := by
  unfold execTapCalMeasure
  repeat' first | (extract_lets +onlyGivenNames z; first | (refine Rests.cut (s₀ := s₀) z ?_ ?_; rotate_left; clear_value z; intro hz; rotate_left; subst z) | clear_value z) | with_reducible assumption | with_reducible apply RestsAns.next | with_reducible apply State.setExpSt_rests | with_reducible apply State.setF_rests | with_reducible apply State.drew_rests | with_reducible apply State.wrapInc_rests | with_reducible apply State.setB_rests | with_reducible apply State.syncTaps_rests | (with_reducible apply Rests.foldl; intro _ _ _) | with_reducible refine RestsAns.ite ?_ ?_ | with_reducible refine Rests.ite ?_ ?_ | (with_reducible apply Rests.upd; with_reducible assumption)

theorem State.halfChanged_rests {s₀ s : State} (h : Rests s₀ s) (half : Bool) : Rests s₀ (State.halfChanged s half) := by
  unfold State.halfChanged
  repeat' first | (extract_lets +onlyGivenNames z; first | (refine Rests.cut (s₀ := s₀) z ?_ ?_; rotate_left; clear_value z; intro hz; rotate_left; subst z) | clear_value z) | with_reducible assumption | with_reducible apply State.headWrite_rests | with_reducible apply State.setF_rests | with_reducible apply State.sendCur_rests | (with_reducible apply Rests.foldl; intro _ _ _) | with_reducible refine Rests.ite ?_ ?_

theorem execHalfAdvanceWrite_rests {s₀ s : State} (h : Rests s₀ s) (master : Nat) (value : BitVec 32) : RestsAns s₀ (execHalfAdvanceWrite master value s) := by
  unfold execHalfAdvanceWrite
  repeat' first | (extract_lets +onlyGivenNames z; first | (refine Rests.cut (s₀ := s₀) z ?_ ?_; rotate_left; clear_value z; intro hz; rotate_left; subst z) | clear_value z) | with_reducible assumption | with_reducible apply RestsAns.next | with_reducible apply State.darkWrite_rests | with_reducible apply State.setB_rests | with_reducible apply State.halfChanged_rests | with_reducible refine RestsAns.ite ?_ ?_ | with_reducible refine Rests.ite ?_ ?_ | (with_reducible apply Rests.upd; with_reducible assumption)

end Sys2Proof.Machine
end

