-- ==== Sys2Proof/Laws/RestKorip.lean ====
section
/-! SUPPORT. Which operations of Machine/Korip.lean leave the memories as they are (Laws/Rest.lean). -/
namespace Sys2Proof.Machine
set_option Elab.async false
set_option linter.all false

theorem State.jobCtrl_rests {s₀ s t : State} {j : Nat} {value : Nat} (h : Rests s₀ s) (e : State.jobCtrl s j value = some t) : Rests s₀ t := by
  unfold State.jobCtrl at e
  repeat' first | (split at e) | (simp only [Option.some.injEq] at e) | (simp only [reduceCtorEq] at e) | subst e
  all_goals (repeat' first | (extract_lets +onlyGivenNames z; first | (refine Rests.cut (s₀ := s₀) z ?_ ?_; rotate_left; clear_value z; intro hz; rotate_left; subst z) | clear_value z) | with_reducible assumption | with_reducible apply State.darkWrite_rests | with_reducible apply State.reportAccess_rests | with_reducible refine Rests.ite ?_ ?_ | (simp only [Option.some.injEq, reduceCtorEq] at e))

theorem State.jobGo_rests {s₀ s : State} (h : Rests s₀ s) (j : Nat) : Rests s₀ (State.jobGo s j) := by
  unfold State.jobGo
  repeat' first | (extract_lets +onlyGivenNames z; first | (refine Rests.cut (s₀ := s₀) z ?_ ?_; rotate_left; clear_value z; intro hz; rotate_left; subst z) | clear_value z) | with_reducible assumption | with_reducible apply State.jobRefused_rests | with_reducible apply State.setJobState_rests | with_reducible apply State.endJob_rests | with_reducible apply State.setF_rests | with_reducible apply State.setWord_rests | with_reducible apply State.setJob_rests | with_reducible refine Rests.ite ?_ ?_ | (with_reducible apply Rests.upd; with_reducible assumption)

end Sys2Proof.Machine
end

