-- ==== Sys2Proof/Laws/RestFlumes.lean ====
section
/-! SUPPORT. Which operations of Machine/Flumes.lean leave the memories as they are (Laws/Rest.lean). -/
namespace Sys2Proof.Machine
set_option Elab.async false
set_option linter.all false

theorem State.setFl_rests {s₀ s : State} (h : Rests s₀ s) (n : Nat) (st : Nat) (station : Nat) : Rests s₀ (State.setFl s n st station) := by
  unfold State.setFl
  repeat' first | with_reducible assumption | with_reducible apply State.setF_rests

theorem State.nameReserve_rests {s₀ s : State} (h : Rests s₀ s) : Rests s₀ (State.nameReserve s) := by
  unfold State.nameReserve
  try dsimp only
  repeat' first | with_reducible assumption | with_reducible apply State.setFl_rests | with_reducible apply State.drew_rests | with_reducible apply State.setB_rests | (with_reducible apply Rests.foldl; intro _ _ _) | with_reducible refine Rests.ite ?_ ?_ | split

theorem State.setFurrows_rests {s₀ s : State} (h : Rests s₀ s) (l : List Furrow) : Rests s₀ (State.setFurrows s l) := by
  unfold State.setFurrows
  try dsimp only
  repeat' first | with_reducible assumption | (with_reducible apply Rests.upd; with_reducible assumption)

theorem State.modFurrow_rests {s₀ s : State} (h : Rests s₀ s) (seq : Nat) (st : Nat) (k : Nat) (g : Furrow → Furrow) : Rests s₀ (State.modFurrow s seq st k g) := by
  unfold State.modFurrow
  repeat' first | with_reducible assumption | with_reducible apply State.setFurrows_rests | with_reducible refine Rests.ite ?_ ?_

theorem State.dropPrinted_rests {s₀ s : State} (h : Rests s₀ s) (st : Nat) : Rests s₀ (State.dropPrinted s st) := by
  unfold State.dropPrinted
  repeat' first | with_reducible assumption | with_reducible apply State.setFurrows_rests | split

theorem State.assign_rests {s₀ s : State} (h : Rests s₀ s) (n : Nat) (seq : Nat) (st : Nat) (k : Nat) (redo : Bool) : Rests s₀ (State.assign s n seq st k redo) := by
  unfold State.assign
  repeat' first | (extract_lets +onlyGivenNames z; first | (refine Rests.cut (s₀ := s₀) z ?_ ?_; rotate_left; clear_value z; intro hz; rotate_left; subst z) | clear_value z) | with_reducible assumption | with_reducible apply State.setFl_rests | with_reducible apply State.setFurrows_rests | with_reducible apply State.startFill_rests | with_reducible refine Rests.ite ?_ ?_ | (with_reducible apply Rests.upd; with_reducible assumption)

set_option maxRecDepth 4000 in
theorem execFurrowRelease_rests {s₀ s : State} (h : Rests s₀ s) (st : Nat) : RestsAns s₀ (execFurrowRelease st s) := by
  unfold execFurrowRelease
  repeat' first | (extract_lets +onlyGivenNames z; first | (refine Rests.cut (s₀ := s₀) z ?_ ?_; rotate_left; clear_value z; intro hz; rotate_left; subst z) | clear_value z) | with_reducible assumption | with_reducible apply RestsAns.next | with_reducible apply State.dropPrinted_rests | with_reducible apply State.assign_rests | with_reducible apply State.setF_rests | with_reducible refine RestsAns.ite ?_ ?_ | with_reducible refine Rests.ite ?_ ?_ | split | (with_reducible apply Rests.upd; with_reducible assumption)

theorem State.freeFlume_rests {s₀ s : State} (h : Rests s₀ s) (n : Nat) : Rests s₀ (State.freeFlume s n) := by
  unfold State.freeFlume
  repeat' first | with_reducible assumption | with_reducible apply State.setFl_rests | with_reducible apply State.nameReserve_rests

theorem execFurrowComplete_rests {s₀ s : State} (h : Rests s₀ s) (flume : Nat) (ecc : Option Nat) (corrected : Bool) : RestsAns s₀ (execFurrowComplete flume ecc corrected s) := by
  unfold execFurrowComplete
  repeat' first | (extract_lets +onlyGivenNames z; first | (refine Rests.cut (s₀ := s₀) z ?_ ?_; rotate_left; clear_value z; intro hz; rotate_left; subst z) | clear_value z) | with_reducible assumption | with_reducible apply RestsAns.next | with_reducible apply State.dropFill_rests | with_reducible apply State.setFurrows_rests | with_reducible apply State.freeFlume_rests | with_reducible apply State.modFurrow_rests | with_reducible apply State.wrapInc_rests | with_reducible apply State.event_rests | with_reducible apply State.satInc_rests | with_reducible apply State.useStream_rests | with_reducible apply State.report_rests | with_reducible apply State.failCompose_rests | with_reducible apply State.spoilPage_rests | with_reducible apply State.codecCount_rests | with_reducible refine RestsAns.ite ?_ ?_ | with_reducible refine Rests.ite ?_ ?_ | split | (with_reducible apply Rests.upd; with_reducible assumption)

set_option maxRecDepth 4000 in
theorem execFurrowDataDeadline_rests {s₀ s : State} (h : Rests s₀ s) (st : Nat) : RestsAns s₀ (execFurrowDataDeadline st s) := by
  unfold execFurrowDataDeadline
  try dsimp only
  repeat' first | with_reducible assumption | with_reducible apply RestsAns.next | with_reducible apply State.satInc_rests | with_reducible apply State.spoilPage_rests | with_reducible apply State.failCompose_rests | with_reducible refine RestsAns.ite ?_ ?_ | with_reducible refine Rests.ite ?_ ?_ | split

theorem execFurrowLate_rests {s₀ s : State} (h : Rests s₀ s) (st : Nat) : RestsAns s₀ (execFurrowLate st s) := by
  unfold execFurrowLate
  repeat' first | (extract_lets +onlyGivenNames z; first | (refine Rests.cut (s₀ := s₀) z ?_ ?_; rotate_left; clear_value z; intro hz; rotate_left; subst z) | clear_value z) | with_reducible assumption | with_reducible apply RestsAns.next | with_reducible apply State.satInc_rests | with_reducible apply State.spoilPage_rests | with_reducible refine RestsAns.ite ?_ ?_ | with_reducible refine Rests.ite ?_ ?_ | split | (with_reducible apply Rests.upd; with_reducible assumption)

theorem State.fence_rests {s₀ s : State} (h : Rests s₀ s) (n : Nat) : Rests s₀ (State.fence s n) := by
  unfold State.fence
  repeat' first | (extract_lets +onlyGivenNames z; first | (refine Rests.cut (s₀ := s₀) z ?_ ?_; rotate_left; clear_value z; intro hz; rotate_left; subst z) | clear_value z) | with_reducible assumption | with_reducible apply State.setF_rests | with_reducible apply State.setFl_rests | with_reducible apply State.checkCapacity_rests | with_reducible apply State.nameReserve_rests | with_reducible refine Rests.ite ?_ ?_

theorem execFlumeStall_rests {s₀ s : State} (h : Rests s₀ s) (flume : Nat) : RestsAns s₀ (execFlumeStall flume s) := by
  unfold execFlumeStall
  repeat' first | (extract_lets +onlyGivenNames z; first | (refine Rests.cut (s₀ := s₀) z ?_ ?_; rotate_left; clear_value z; intro hz; rotate_left; subst z) | clear_value z) | with_reducible assumption | with_reducible apply RestsAns.next | with_reducible apply State.dropFill_rests | with_reducible apply State.setFurrows_rests | with_reducible apply State.report_rests | with_reducible apply State.pf_rests | with_reducible apply State.fence_rests | with_reducible refine RestsAns.ite ?_ ?_ | with_reducible refine Rests.ite ?_ ?_ | split | (with_reducible apply Rests.upd; with_reducible assumption)

theorem execRedoStart_rests {s₀ s : State} (h : Rests s₀ s) : RestsAns s₀ (execRedoStart s) := by
  unfold execRedoStart
  try dsimp only
  repeat' first | with_reducible assumption | with_reducible apply RestsAns.next | with_reducible apply State.assign_rests | with_reducible apply State.nameReserve_rests | split | (with_reducible apply Rests.upd; with_reducible assumption)

theorem execFlumeUnfence_rests {s₀ s : State} (h : Rests s₀ s) (flume : Nat) : RestsAns s₀ (execFlumeUnfence flume s) := by
  unfold execFlumeUnfence
  try dsimp only
  repeat' first | with_reducible assumption | with_reducible apply RestsAns.next | with_reducible apply State.darkWrite_rests | with_reducible apply State.setFl_rests | with_reducible apply State.raise_rests | with_reducible refine RestsAns.ite ?_ ?_ | with_reducible refine Rests.ite ?_ ?_

theorem execFlumeTestDone_rests {s₀ s : State} (h : Rests s₀ s) (flume : Nat) (pass : Bool) : RestsAns s₀ (execFlumeTestDone flume pass s) := by
  unfold execFlumeTestDone
  repeat' first | (extract_lets +onlyGivenNames z; first | (refine Rests.cut (s₀ := s₀) z ?_ ?_; rotate_left; clear_value z; intro hz; rotate_left; subst z) | clear_value z) | with_reducible assumption | with_reducible apply RestsAns.next | with_reducible apply State.setF_rests | with_reducible apply State.setFl_rests | with_reducible apply State.checkCapacity_rests | with_reducible apply State.nameReserve_rests | with_reducible apply State.report_rests | with_reducible apply State.fence_rests | with_reducible refine RestsAns.ite ?_ ?_ | with_reducible refine Rests.ite ?_ ?_

theorem State.startTests_rests {s₀ s : State} (h : Rests s₀ s) : Rests s₀ (State.startTests s) := by
  unfold State.startTests
  repeat' first | with_reducible assumption | with_reducible apply State.setFl_rests | (with_reducible apply Rests.foldl; intro _ _ _) | with_reducible refine Rests.ite ?_ ?_

theorem State.flumesOff_rests {s₀ s : State} (h : Rests s₀ s) : Rests s₀ (State.flumesOff s) := by
  unfold State.flumesOff
  try dsimp only
  repeat' first | with_reducible assumption | with_reducible apply State.setFl_rests | with_reducible apply State.setF_rests | (with_reducible apply Rests.foldl; intro _ _ _) | with_reducible refine Rests.ite ?_ ?_

theorem State.stopFlumes_rests {s₀ s : State} (h : Rests s₀ s) : Rests s₀ (State.stopFlumes s) := by
  unfold State.stopFlumes
  repeat' first | (extract_lets +onlyGivenNames z; first | (refine Rests.cut (s₀ := s₀) z ?_ ?_; rotate_left; clear_value z; intro hz; rotate_left; subst z) | clear_value z) | with_reducible assumption | with_reducible apply State.setFl_rests | with_reducible apply State.setF_rests | with_reducible apply State.nameReserve_rests | (with_reducible apply Rests.foldl; intro _ _ _) | (with_reducible apply Rests.upd; with_reducible assumption)

theorem execStationTableWrite_rests {s₀ s : State} (h : Rests s₀ s) (master : Nat) (off : Nat) (value : BitVec 32) : RestsAns s₀ (execStationTableWrite master off value s) := by
  unfold execStationTableWrite
  try dsimp only
  repeat' first | with_reducible assumption | with_reducible apply RestsAns.next | with_reducible apply State.darkWrite_rests | with_reducible apply State.reportAccess_rests | with_reducible apply State.raise_rests | with_reducible apply State.setF_rests | with_reducible refine RestsAns.ite ?_ ?_ | with_reducible refine Rests.ite ?_ ?_ | split | (with_reducible apply Rests.upd; with_reducible assumption)

theorem State.applyLog_rests {s₀ s : State} (h : Rests s₀ s) (st : Nat) : Rests s₀ (State.applyLog s st) := by
  unfold State.applyLog
  repeat' first | (extract_lets +onlyGivenNames z; first | (refine Rests.cut (s₀ := s₀) z ?_ ?_; rotate_left; clear_value z; intro hz; rotate_left; subst z) | clear_value z) | with_reducible assumption | with_reducible apply State.setWord_rests | with_reducible apply State.setF_rests | (with_reducible apply Rests.foldl; intro _ _ _) | (with_reducible apply Rests.upd; with_reducible assumption)

theorem execTableLogIdleApply_rests {s₀ s : State} (h : Rests s₀ s) (st : Nat) : RestsAns s₀ (execTableLogIdleApply st s) := by
  unfold execTableLogIdleApply
  repeat' first | with_reducible assumption | with_reducible apply RestsAns.next | with_reducible apply State.applyLog_rests | with_reducible refine RestsAns.ite ?_ ?_ | with_reducible refine Rests.ite ?_ ?_

theorem State.predictStation_rests {s₀ s : State} (h : Rests s₀ s) (st : Nat) : Rests s₀ (State.predictStation s st).1 := by
  unfold State.predictStation
  repeat' first | (extract_lets +onlyGivenNames z; first | (refine Rests.cut (s₀ := s₀) z ?_ ?_; rotate_left; clear_value z; intro hz; rotate_left; subst z) | (refine Rests.cut (s₀ := s₀) (z : _ × State).2 ?_ ?_; rotate_left; clear_value z; intro hz; rotate_left; subst z) | (refine Rests.cut (s₀ := s₀) (z : State × _).1 ?_ ?_; rotate_left; clear_value z; intro hz; rotate_left; subst z) | (refine Rests.cut (s₀ := s₀) (z : _ × _ × State).2.2 ?_ ?_; rotate_left; clear_value z; intro hz; rotate_left; subst z) | clear_value z) | with_reducible assumption | with_reducible apply State.setF_rests | with_reducible refine Rests.ite ?_ ?_ | with_reducible refine Rests.ite_snd ?_ ?_ | with_reducible refine Rests.ite_fst ?_ ?_ | split | (with_reducible apply Rests.upd; first | with_reducible assumption | with_reducible apply State.setF_rests) | dsimp only

theorem State.predictAll_rests {s₀ s : State} (h : Rests s₀ s) : Rests s₀ (State.predictAll s).1 :=
  Rests.foldl_fst (fun _ a hp => State.predictStation_rests hp a) h

theorem execPredictorEvaluate_rests {s₀ s : State} (h : Rests s₀ s) : RestsAns s₀ (execPredictorEvaluate s) := by
  unfold execPredictorEvaluate
  dsimp only
  repeat' first | (extract_lets +onlyGivenNames z; first | (refine Rests.cut (s₀ := s₀) z ?_ ?_; rotate_left; clear_value z; intro hz; rotate_left; subst z) | (refine Rests.cut (s₀ := s₀) (z : _ × State).2 ?_ ?_; rotate_left; clear_value z; intro hz; rotate_left; subst z) | (refine Rests.cut (s₀ := s₀) (z : State × _).1 ?_ ?_; rotate_left; clear_value z; intro hz; rotate_left; subst z) | (refine Rests.cut (s₀ := s₀) (z : _ × _ × State).2.2 ?_ ?_; rotate_left; clear_value z; intro hz; rotate_left; subst z) | clear_value z) | with_reducible assumption | with_reducible apply RestsAns.next | with_reducible apply State.predictAll_rests | with_reducible apply State.setF_rests | with_reducible apply State.report_rests | with_reducible apply State.weirOn_rests | with_reducible apply State.weirAsk_rests | with_reducible apply State.pf_rests | with_reducible apply State.weirOff_rests | (with_reducible apply Rests.foldl; intro _ _ _) | (with_reducible apply Rests.foldl_snd; intro _ _ _) | (with_reducible apply Rests.foldl_fst; intro _ _ _) | (refine Rests.of_fst ?_ (by assumption)) | with_reducible refine RestsAns.ite ?_ ?_ | with_reducible refine Rests.ite ?_ ?_ | with_reducible refine Rests.ite_snd ?_ ?_ | with_reducible refine Rests.ite_fst ?_ ?_ | split | (with_reducible apply Rests.upd; first | with_reducible assumption | with_reducible apply State.predictAll_rests | with_reducible apply State.setF_rests | with_reducible apply State.report_rests | with_reducible apply State.weirOn_rests | with_reducible apply State.weirAsk_rests | with_reducible apply State.pf_rests | with_reducible apply State.weirOff_rests) | dsimp only

end Sys2Proof.Machine
end

