-- ==== Sys2Proof/Laws/RestInsOps.lean ====
section
/-! SUPPORT. Which operations of Machine/InsOps.lean leave the memories as they are (Laws/Rest.lean). -/
namespace Sys2Proof.Machine
set_option Elab.async false
set_option linter.all false

theorem State.compareFurrow_rests {s₀ s : State} (h : Rests s₀ s) (p : Page) (y : InsPage) (k : Nat) : Rests s₀ (State.compareFurrow s p y k) := by
  unfold State.compareFurrow
  repeat' first | (extract_lets +onlyGivenNames z; first | (refine Rests.cut (s₀ := s₀) z ?_ ?_; rotate_left; clear_value z; intro hz; rotate_left; subst z) | (have _f := fun a => z a; clear _f; subst z; try dsimp -zeta only) | clear_value z) | with_reducible assumption | with_reducible apply State.drew_rests | with_reducible apply State.modInsPage_rests | with_reducible apply State.useStream_rests | (with_reducible apply Rests.foldl; intro _ _ _) | with_reducible refine Rests.ite ?_ ?_ | split | (with_reducible apply Rests.upd; with_reducible assumption)

theorem State.measure_rests {s₀ s : State} (h : Rests s₀ s) (y : InsPage) (st : Nat) : Rests s₀ (State.measure s y st).2 := by
  unfold State.measure
  try dsimp only
  repeat' first | with_reducible assumption | with_reducible apply State.drew_rests | (with_reducible apply Rests.foldl; intro _ _ _) | (with_reducible apply Rests.foldl_snd; intro _ _ _) | (with_reducible apply Rests.foldl_fst; intro _ _ _) | with_reducible refine Rests.ite ?_ ?_ | with_reducible refine Rests.ite_snd ?_ ?_ | with_reducible refine Rests.ite_fst ?_ ?_ | split | dsimp only

theorem State.insWindow_rests {s₀ s : State} (h : Rests s₀ s) (side : Nat) : Rests s₀ (State.insWindow s side) := by
  unfold State.insWindow
  repeat' first | (extract_lets +onlyGivenNames z; first | (refine Rests.cut (s₀ := s₀) z ?_ ?_; rotate_left; clear_value z; intro hz; rotate_left; subst z) | (have _f := fun a => z a; clear _f; subst z; try dsimp -zeta only) | clear_value z) | with_reducible assumption | with_reducible apply State.setF_rests | with_reducible apply State.setWord_rests | with_reducible apply State.set64_rests | with_reducible apply State.setB_rests | (with_reducible apply Rests.foldl; intro _ _ _) | with_reducible refine Rests.ite ?_ ?_ | split

theorem State.queueResult_rests {s₀ s : State} (h : Rests s₀ s) (side : Nat) (r : InsResult) : Rests s₀ (State.queueResult s side r) := by
  unfold State.queueResult
  try dsimp only
  repeat' first | with_reducible assumption | with_reducible apply State.setInsSide_rests | with_reducible apply State.satInc_rests | with_reducible apply State.report_rests | with_reducible apply State.insWindow_rests | with_reducible apply State.mark_rests | with_reducible apply State.pf_rests | with_reducible refine Rests.ite ?_ ?_ | (with_reducible apply Rests.upd; with_reducible assumption)

theorem State.addTarget_rests {s₀ s : State} (h : Rests s₀ s) (side : Nat) (st : Nat) (item : Nat) (i : Nat) (t : Int) (e : Int) : Rests s₀ (State.addTarget s side st item i t e) := by
  unfold State.addTarget
  try dsimp only
  repeat' first | with_reducible assumption | (with_reducible apply Rests.upd; with_reducible assumption)

theorem State.pageTargets_rests {s₀ s : State} (h : Rests s₀ s) (side : Nat) (st : Nat) (v : InsVals) (ms : Store InsMeas) : Rests s₀ (State.pageTargets s side st v ms) := by
  unfold State.pageTargets
  repeat' first | (extract_lets +onlyGivenNames z; first | (refine Rests.cut (s₀ := s₀) z ?_ ?_; rotate_left; clear_value z; intro hz; rotate_left; subst z) | clear_value z) | with_reducible assumption | with_reducible apply State.addTarget_rests | (with_reducible apply Rests.foldl; intro _ _ _) | with_reducible refine Rests.ite ?_ ?_ | split | (with_reducible apply Rests.upd; with_reducible assumption)

theorem State.markStanding_rests {s₀ s : State} (h : Rests s₀ s) (y : InsPage) (ds : List Defect) : Rests s₀ (State.markStanding s y ds) := by
  unfold State.markStanding
  try dsimp only
  repeat' first | with_reducible assumption | with_reducible apply State.setDead_rests | with_reducible apply State.expReport_rests | with_reducible apply State.deadChanged_rests | (with_reducible apply Rests.foldl; intro _ _ _) | with_reducible refine Rests.ite ?_ ?_ | split | (with_reducible apply Rests.upd; with_reducible assumption)

theorem State.corrStep_rests {s₀ s : State} (h : Rests s₀ s) (side : Nat) (st : Nat) (item : Nat) (i : Nat) : Rests s₀ (State.corrStep s side st item i) := by
  unfold State.corrStep
  try dsimp only
  repeat' first | with_reducible assumption | with_reducible apply State.satInc_rests | with_reducible apply State.hwF_rests | with_reducible apply State.askMove_rests | with_reducible refine Rests.ite ?_ ?_ | split | (with_reducible apply Rests.upd; with_reducible assumption)

theorem State.corrGap_rests {s₀ s : State} (h : Rests s₀ s) (st : Nat) : Rests s₀ (State.corrGap s st) := by
  unfold State.corrGap
  repeat' first | (extract_lets +onlyGivenNames z; first | (refine Rests.cut (s₀ := s₀) z ?_ ?_; rotate_left; clear_value z; intro hz; rotate_left; subst z) | (have _f := fun a => z a; clear _f; subst z; try dsimp -zeta only) | clear_value z) | with_reducible assumption | with_reducible apply State.corrStep_rests | (with_reducible apply Rests.foldl; intro _ _ _) | with_reducible refine Rests.ite ?_ ?_ | (with_reducible apply Rests.upd; with_reducible assumption)

end Sys2Proof.Machine
end

