-- ==== Sys2Proof/Laws/RestSiphon.lean ====
section
/-! SUPPORT. Which operations of Machine/Siphon.lean leave the memories as they are (Laws/Rest.lean). -/
namespace Sys2Proof.Machine
set_option Elab.async false
set_option linter.all false

theorem State.moveJob_rests {s₀ s : State} (h : Rests s₀ s) (role : Nat) (fn : Nat) (j : SipJob × SipDesc) : Rests s₀ (State.moveJob s role fn j) := by
  unfold State.moveJob
  repeat' first | with_reducible assumption | with_reducible apply State.pushJob_rests | with_reducible refine Rests.ite ?_ ?_

theorem execChAssignWrite_rests {s₀ s : State} (h : Rests s₀ s) (ch : Nat) (value : BitVec 32) : RestsAns s₀ (execChAssignWrite ch value s) := by
  unfold execChAssignWrite
  repeat' first | (extract_lets +onlyGivenNames z; first | (refine Rests.cut (s₀ := s₀) z ?_ ?_; rotate_left; clear_value z; intro hz; rotate_left; subst z) | clear_value z) | with_reducible assumption | with_reducible apply RestsAns.next | with_reducible apply State.darkWrite_rests | with_reducible apply State.setWord_rests | with_reducible apply State.setB_rests | with_reducible apply State.setChan_rests | with_reducible apply State.setCh_rests | with_reducible apply State.moveJob_rests | with_reducible apply State.endEngineShort_rests | with_reducible apply State.raise_rests | (with_reducible apply Rests.foldl; intro _ _ _) | with_reducible refine RestsAns.ite ?_ ?_ | with_reducible refine Rests.ite ?_ ?_ | (with_reducible apply Rests.upd; with_reducible assumption)

theorem execFnWinWrite_rests {s₀ s : State} (h : Rests s₀ s) (fn : Nat) (value : BitVec 32) : RestsAns s₀ (execFnWinWrite fn value s) := by
  unfold execFnWinWrite
  try dsimp only
  repeat' first | with_reducible assumption | with_reducible apply RestsAns.next | with_reducible apply State.darkWrite_rests | with_reducible apply State.setWord_rests | with_reducible apply State.raise_rests | with_reducible refine RestsAns.ite ?_ ?_ | with_reducible refine Rests.ite ?_ ?_

theorem execChEnable_rests {s₀ s : State} (h : Rests s₀ s) (ch : Nat) : RestsAns s₀ (execChEnable ch s) := by
  unfold execChEnable
  try dsimp only
  repeat' first | with_reducible assumption | with_reducible apply RestsAns.next | with_reducible apply State.darkWrite_rests | with_reducible apply State.setF_rests | with_reducible apply State.setChan_rests | with_reducible apply State.setCh_rests | with_reducible apply State.raise_rests | with_reducible refine RestsAns.ite ?_ ?_ | with_reducible refine Rests.ite ?_ ?_ | (with_reducible apply Rests.upd; with_reducible assumption)

theorem execChDisable_rests {s₀ s : State} (h : Rests s₀ s) (ch : Nat) : RestsAns s₀ (execChDisable ch s) := by
  unfold execChDisable
  repeat' first | (extract_lets +onlyGivenNames z; first | (refine Rests.cut (s₀ := s₀) z ?_ ?_; rotate_left; clear_value z; intro hz; rotate_left; subst z) | clear_value z) | with_reducible assumption | with_reducible apply RestsAns.next | with_reducible apply State.darkWrite_rests | with_reducible apply State.raise_rests | with_reducible apply State.setF_rests | with_reducible apply State.setChan_rests | with_reducible apply State.setCh_rests | with_reducible refine RestsAns.ite ?_ ?_ | with_reducible refine Rests.ite ?_ ?_ | (with_reducible apply Rests.upd; with_reducible assumption)

theorem State.ringError_rests {s₀ s : State} (h : Rests s₀ s) (ch : Nat) : Rests s₀ (State.ringError s ch) := by
  unfold State.ringError
  repeat' first | with_reducible assumption | with_reducible apply State.setF_rests | with_reducible apply State.wrapInc_rests | with_reducible apply State.setCh_rests | with_reducible apply State.chIrq_rests | with_reducible apply State.report_rests

theorem execChDoorbell_rests {s₀ s : State} (h : Rests s₀ s) (ch : Nat) (tail : Nat) : RestsAns s₀ (execChDoorbell ch tail s) := by
  unfold execChDoorbell
  try dsimp only
  repeat' first | with_reducible assumption | with_reducible apply RestsAns.next | with_reducible apply State.darkWrite_rests | with_reducible apply State.setChan_rests | with_reducible apply State.ringError_rests | with_reducible apply State.setF_rests | with_reducible refine RestsAns.ite ?_ ?_ | with_reducible refine Rests.ite ?_ ?_ | (with_reducible apply Rests.upd; with_reducible assumption)

theorem execChResume_rests {s₀ s : State} (h : Rests s₀ s) (ch : Nat) : RestsAns s₀ (execChResume ch s) := by
  unfold execChResume
  repeat' first | with_reducible assumption | with_reducible apply RestsAns.next | with_reducible apply State.darkWrite_rests | with_reducible apply State.raise_rests | with_reducible apply State.setCh_rests | with_reducible refine RestsAns.ite ?_ ?_ | with_reducible refine Rests.ite ?_ ?_

theorem execChAbort_rests {s₀ s : State} (h : Rests s₀ s) (ch : Nat) (resume : Bool) : RestsAns s₀ (execChAbort ch resume s) := by
  unfold execChAbort
  try dsimp only
  repeat' first | with_reducible assumption | with_reducible apply RestsAns.next | with_reducible apply State.darkWrite_rests | with_reducible apply State.raise_rests | with_reducible apply State.setChan_rests | with_reducible refine RestsAns.ite ?_ ?_ | with_reducible refine Rests.ite ?_ ?_ | split | (with_reducible apply Rests.upd; with_reducible assumption)

theorem execChDescriptorFetch_rests {s₀ s : State} (h : Rests s₀ s) (ch : Nat) : RestsAns s₀ (execChDescriptorFetch ch s) := by
  unfold execChDescriptorFetch
  try dsimp only
  repeat' first | with_reducible assumption | with_reducible apply RestsAns.next | with_reducible apply State.setChan_rests | with_reducible refine RestsAns.ite ?_ ?_ | with_reducible refine Rests.ite ?_ ?_ | (with_reducible apply Rests.upd; with_reducible assumption)

theorem State.fetchReads_rests {s₀ s : State} (h : Rests s₀ s) (ch : Nat) : Rests s₀ (State.fetchReads s ch) := by
  unfold State.fetchReads
  repeat' first | with_reducible assumption | with_reducible apply State.readAhead_rests | with_reducible refine Rests.ite ?_ ?_ | split

theorem execChDescriptor_rests {s₀ s : State} (h : Rests s₀ s) (ch : Nat) (desc : Option (List (BitVec 8))) : RestsAns s₀ (execChDescriptor ch desc s) := by
  unfold execChDescriptor
  try dsimp only
  repeat' first | with_reducible assumption | with_reducible apply RestsAns.next | with_reducible apply State.setChan_rests | with_reducible apply State.setCh_rests | with_reducible apply State.fetchReads_rests | with_reducible refine RestsAns.ite ?_ ?_ | with_reducible refine Rests.ite ?_ ?_ | split | (with_reducible apply Rests.upd; with_reducible assumption)

theorem State.countBytes_rests {s₀ s : State} (h : Rests s₀ s) (ch : Nat) (n : Nat) : Rests s₀ (State.countBytes s ch n) := by
  unfold State.countBytes
  repeat' first | with_reducible assumption | with_reducible apply State.set64_rests

theorem State.landStream_rests {s₀ s : State} (h : Rests s₀ s) (page : Nat) (st : Nat) (bs : List Byte) : Rests s₀ (State.landStream s page st bs) := by
  unfold State.landStream
  try dsimp only
  repeat' first | with_reducible assumption | with_reducible refine Rests.ite ?_ ?_ | (with_reducible apply Rests.upd; with_reducible assumption)

theorem State.killStream_rests {s₀ s : State} (h : Rests s₀ s) (page : Nat) (st : Nat) : Rests s₀ (State.killStream s page st) := by
  unfold State.killStream
  try dsimp only
  repeat' first | with_reducible assumption | with_reducible refine Rests.ite ?_ ?_ | (with_reducible apply Rests.upd; with_reducible assumption)

theorem State.sealPart_rests {s₀ s : State} (h : Rests s₀ s) (fn : Nat) (x : SipXfer) : Rests s₀ (State.sealPart s fn x) := by
  unfold State.sealPart
  try dsimp only
  repeat' first | with_reducible assumption | with_reducible apply State.sealDirect_rests | with_reducible apply State.reloadTiles_rests | with_reducible refine Rests.ite ?_ ?_

end Sys2Proof.Machine
end

