-- ==== Sys2Proof/Laws/RestSpool.lean ====
section
/-! SUPPORT. Which operations of Machine/Spool.lean leave the memories as they are (Laws/Rest.lean). -/
namespace Sys2Proof.Machine
set_option Elab.async false
set_option linter.all false

theorem State.startEpoch_rests {s₀ s : State} (h : Rests s₀ s) (journalOk : Bool) (burnOk : Bool) : Rests s₀ (State.startEpoch s journalOk burnOk) := by
  unfold State.startEpoch
  repeat' first | (extract_lets +onlyGivenNames z; first | (refine Rests.cut (s₀ := s₀) z ?_ ?_; rotate_left; clear_value z; intro hz; rotate_left; subst z) | (refine Rests.cut (s₀ := s₀) (z : _ × State).2 ?_ ?_; rotate_left; clear_value z; intro hz; rotate_left; subst z) | (refine Rests.cut (s₀ := s₀) (z : State × _).1 ?_ ?_; rotate_left; clear_value z; intro hz; rotate_left; subst z) | (refine Rests.cut (s₀ := s₀) (z : _ × _ × State).2.2 ?_ ?_; rotate_left; clear_value z; intro hz; rotate_left; subst z) | clear_value z) | with_reducible assumption | with_reducible apply State.thermoTo_rests | with_reducible apply State.setF_rests | with_reducible apply State.setWord_rests | with_reducible apply State.set64_rests | with_reducible apply State.drawn_rests | (refine Rests.of_snd ?_ (by assumption)) | with_reducible refine Rests.ite ?_ ?_ | with_reducible refine Rests.ite_snd ?_ ?_ | with_reducible refine Rests.ite_fst ?_ ?_ | split | (with_reducible apply Rests.upd; first | with_reducible assumption | with_reducible apply State.thermoTo_rests | with_reducible apply State.setF_rests | with_reducible apply State.setWord_rests | with_reducible apply State.set64_rests | with_reducible apply State.drawn_rests) | dsimp only

theorem State.closeSpool_rests {s₀ s : State} (h : Rests s₀ s) : Rests s₀ (State.closeSpool s) := by
  unfold State.closeSpool
  repeat' first | (extract_lets +onlyGivenNames z; first | (refine Rests.cut (s₀ := s₀) z ?_ ?_; rotate_left; clear_value z; intro hz; rotate_left; subst z) | clear_value z) | with_reducible assumption | with_reducible apply State.issueAll_rests | with_reducible apply State.emit_rests | (with_reducible apply Rests.foldl; intro _ _ _) | with_reducible refine Rests.ite ?_ ?_ | (with_reducible apply Rests.upd; with_reducible assumption)

theorem State.spoolNext_rests {s₀ s : State} (h : Rests s₀ s) : Rests s₀ (State.spoolNext s) := by
  unfold State.spoolNext
  repeat' first | (extract_lets +onlyGivenNames z; first | (refine Rests.cut (s₀ := s₀) z ?_ ?_; rotate_left; clear_value z; intro hz; rotate_left; subst z) | clear_value z) | with_reducible assumption | with_reducible apply State.refreshRefusal_rests | with_reducible apply State.sealAll_rests | with_reducible apply State.fetchReads_rests | with_reducible apply State.closeSpool_rests | (with_reducible apply Rests.foldl; intro _ _ _) | with_reducible refine Rests.ite ?_ ?_

theorem State.spoolStart_rests {s₀ s : State} (h : Rests s₀ s) : Rests s₀ (State.spoolStart s) := by
  unfold State.spoolStart
  repeat' first | (extract_lets +onlyGivenNames z; first | (refine Rests.cut (s₀ := s₀) z ?_ ?_; rotate_left; clear_value z; intro hz; rotate_left; subst z) | clear_value z) | with_reducible assumption | with_reducible apply State.setF_rests | with_reducible apply State.setDrive_rests | with_reducible apply State.syncCap_rests | with_reducible apply State.refreshRefusal_rests | (with_reducible apply Rests.foldl; intro _ _ _) | (with_reducible apply Rests.upd; with_reducible assumption)

theorem execSpoolEnable_rests {s₀ s : State} (h : Rests s₀ s) : RestsAns s₀ (execSpoolEnable s) := by
  unfold execSpoolEnable
  try dsimp only
  repeat' first | with_reducible assumption | with_reducible apply RestsAns.next | with_reducible apply State.darkWrite_rests | with_reducible apply State.setSpool_rests | with_reducible apply State.spoolStart_rests | with_reducible refine RestsAns.ite ?_ ?_ | with_reducible refine Rests.ite ?_ ?_

theorem State.spoolOff_rests {s₀ s : State} (h : Rests s₀ s) : Rests s₀ (State.spoolOff s) := by
  unfold State.spoolOff
  repeat' first | (extract_lets +onlyGivenNames z; first | (refine Rests.cut (s₀ := s₀) z ?_ ?_; rotate_left; clear_value z; intro hz; rotate_left; subst z) | clear_value z) | with_reducible assumption | with_reducible apply State.setSpool_rests | with_reducible apply State.refreshRefusal_rests | with_reducible refine Rests.ite ?_ ?_ | (with_reducible apply Rests.upd; with_reducible assumption)

theorem execSpoolDisable_rests {s₀ s : State} (h : Rests s₀ s) : RestsAns s₀ (execSpoolDisable s) := by
  unfold execSpoolDisable
  repeat' first | with_reducible assumption | with_reducible apply RestsAns.next | with_reducible apply State.darkWrite_rests | with_reducible apply State.spoolOff_rests | with_reducible refine RestsAns.ite ?_ ?_ | with_reducible refine Rests.ite ?_ ?_

theorem State.recharge_rests {s₀ s : State} (h : Rests s₀ s) : Rests s₀ (State.recharge s) := by
  unfold State.recharge
  repeat' first | with_reducible assumption | with_reducible apply State.setF_rests | with_reducible apply State.syncCopies_rests | with_reducible apply State.syncCap_rests | (with_reducible apply Rests.foldl; intro _ _ _)

theorem execSpoolRecoveryDone_rests {s₀ s : State} (h : Rests s₀ s) : RestsAns s₀ (execSpoolRecoveryDone s) := by
  unfold execSpoolRecoveryDone
  repeat' first | (extract_lets +onlyGivenNames z; first | (refine Rests.cut (s₀ := s₀) z ?_ ?_; rotate_left; clear_value z; intro hz; rotate_left; subst z) | clear_value z) | with_reducible assumption | with_reducible apply RestsAns.next | with_reducible apply State.unmap_rests | with_reducible apply State.recharge_rests | with_reducible apply State.retrySalts_rests | with_reducible apply State.setF_rests | with_reducible apply State.pf_rests | (with_reducible apply Rests.foldl; intro _ _ _) | with_reducible refine RestsAns.ite ?_ ?_ | with_reducible refine Rests.ite ?_ ?_ | (with_reducible apply Rests.upd; with_reducible assumption)

theorem execEpochRollover_rests {s₀ s : State} (h : Rests s₀ s) (journalOk : Bool) (burnOk : Bool) (saltOk : Bool) : RestsAns s₀ (execEpochRollover journalOk burnOk saltOk s) := by
  unfold execEpochRollover
  repeat' first | (extract_lets +onlyGivenNames z; first | (refine Rests.cut (s₀ := s₀) z ?_ ?_; rotate_left; clear_value z; intro hz; rotate_left; subst z) | clear_value z) | with_reducible assumption | with_reducible apply RestsAns.next | with_reducible apply State.startEpoch_rests | with_reducible apply State.writeSalts_rests | with_reducible apply State.refreshRefusal_rests | with_reducible apply State.sealAll_rests | with_reducible refine RestsAns.ite ?_ ?_ | with_reducible refine Rests.ite ?_ ?_

theorem execSliceTrimDone_rests {s₀ s : State} (h : Rests s₀ s) (fn : Nat) : RestsAns s₀ (execSliceTrimDone fn s) := by
  unfold execSliceTrimDone
  try dsimp only
  repeat' first | with_reducible assumption | with_reducible apply RestsAns.next | with_reducible apply State.setF_rests | with_reducible apply State.raise_rests | with_reducible apply State.sliceVector_rests | split | (with_reducible apply Rests.upd; with_reducible assumption)

theorem execSliceEnum_rests {s₀ s : State} (h : Rests s₀ s) (fn : Nat) (max : Nat) : RestsAns s₀ (execSliceEnum fn max s) := by
  unfold execSliceEnum
  try dsimp only
  repeat' first | with_reducible assumption | with_reducible apply RestsAns.next | with_reducible apply State.darkWrite_rests | with_reducible refine RestsAns.ite ?_ ?_ | with_reducible refine Rests.ite ?_ ?_ | (with_reducible apply Rests.upd; with_reducible assumption)

theorem execSliceEnumDone_rests {s₀ s : State} (h : Rests s₀ s) (fn : Nat) : RestsAns s₀ (execSliceEnumDone fn s) := by
  unfold execSliceEnumDone
  repeat' first | (extract_lets +onlyGivenNames z; first | (refine Rests.cut (s₀ := s₀) z ?_ ?_; rotate_left; clear_value z; intro hz; rotate_left; subst z) | clear_value z) | with_reducible assumption | with_reducible apply RestsAns.next | with_reducible apply State.emit_rests | with_reducible apply State.setF_rests | with_reducible apply State.raise_rests | with_reducible apply State.sliceVector_rests | with_reducible refine RestsAns.ite ?_ ?_ | with_reducible refine Rests.ite ?_ ?_ | split | (with_reducible apply Rests.upd; with_reducible assumption)

end Sys2Proof.Machine
end

