-- ==== Sys2Proof/Laws/RestInspect.lean ====
section
/-! SUPPORT. Which operations of Machine/Inspect.lean leave the memories as they are (Laws/Rest.lean). -/
namespace Sys2Proof.Machine
set_option Elab.async false
set_option linter.all false

theorem State.setInsLink_rests {s₀ s : State} (h : Rests s₀ s) (side : Nat) (v : Nat) : Rests s₀ (State.setInsLink s side v) := by
  unfold State.setInsLink
  repeat' first | with_reducible assumption | with_reducible apply State.setF_rests | with_reducible apply State.pf_rests | with_reducible refine Rests.ite ?_ ?_

theorem execScanLinkLock_rests {s₀ s : State} (h : Rests s₀ s) (side : Nat) : RestsAns s₀ (execScanLinkLock side s) := by
  unfold execScanLinkLock
  try dsimp only
  repeat' first | with_reducible assumption | with_reducible apply RestsAns.next | with_reducible apply State.setF_rests | with_reducible apply State.setInsLink_rests | with_reducible apply State.setInsSide_rests | with_reducible refine RestsAns.ite ?_ ?_ | with_reducible refine Rests.ite ?_ ?_ | (with_reducible apply Rests.upd; with_reducible assumption)

theorem State.endCapture_rests {s₀ s : State} (h : Rests s₀ s) (side : Nat) (code : Nat) : Rests s₀ (State.endCapture s side code) := by
  unfold State.endCapture
  try dsimp only
  repeat' first | with_reducible assumption | with_reducible apply State.modInsSide_rests | with_reducible apply State.setF_rests | with_reducible apply State.pf_rests | (with_reducible apply Rests.upd; with_reducible assumption)

theorem State.insLinkDown_rests {s₀ s : State} (h : Rests s₀ s) (side : Nat) (v : Nat) (lanes : Nat) : Rests s₀ (State.insLinkDown s side v lanes) := by
  unfold State.insLinkDown
  repeat' first | (extract_lets +onlyGivenNames z; first | (refine Rests.cut (s₀ := s₀) z ?_ ?_; rotate_left; clear_value z; intro hz; rotate_left; subst z) | clear_value z) | with_reducible assumption | with_reducible apply State.setF_rests | with_reducible apply State.setInsLink_rests | with_reducible apply State.modInsSide_rests | with_reducible apply State.endCapture_rests | with_reducible refine Rests.ite ?_ ?_ | (with_reducible apply Rests.upd; with_reducible assumption)

theorem execScanLinkLockLoss_rests {s₀ s : State} (h : Rests s₀ s) (side : Nat) (lanes : BitVec 4) : RestsAns s₀ (execScanLinkLockLoss side lanes s) := by
  unfold execScanLinkLockLoss
  repeat' first | with_reducible assumption | with_reducible apply RestsAns.next | with_reducible apply State.satInc_rests | with_reducible apply State.insLinkDown_rests | with_reducible refine RestsAns.ite ?_ ?_ | with_reducible refine Rests.ite ?_ ?_

theorem State.compareDue_rests {s₀ : State} (side : Nat) (seq : Nat) (pos : Int) (fuel : Nat) : ∀ (s : State) (_ : Rests s₀ s), Rests s₀ (State.compareDue s side seq pos fuel) := by
  induction fuel generalizing side seq pos with
  | zero => intro s h; unfold State.compareDue; exact h
  | succ fuel ih =>
    intro s h
    unfold State.compareDue
    repeat' first | with_reducible assumption | with_reducible apply ih | with_reducible apply State.compareFurrow_rests | with_reducible refine Rests.ite ?_ ?_ | split

theorem State.noteLine_rests {s₀ s : State} (h : Rests s₀ s) (side : Nat) (lseq : BitVec 32) (b : CisLine) : Rests s₀ (State.noteLine s side lseq b) := by
  unfold State.noteLine
  extract_lets u v
  have hu : Rests s₀ u := by
    simp only [u]
    split
    · exact State.setB_rests (State.setF_rests h _ _) _ _
    · exact h
  have hv : Rests s₀ v := State.modInsSide_rests hu _ _
  exact Rests.ite (State.modInsSide_rests hv _ _) hv

theorem State.storeAudit_rests {s₀ s : State} (h : Rests s₀ s) (p : Page) (side : Nat) (data : List Byte) : Rests s₀ (State.storeAudit s p side data) := by
  unfold State.storeAudit
  repeat' first | (extract_lets +onlyGivenNames z; first | (refine Rests.cut (s₀ := s₀) z ?_ ?_; rotate_left; clear_value z; intro hz; rotate_left; subst z) | clear_value z) | with_reducible assumption | with_reducible apply State.report_rests | with_reducible apply State.freeAudit_rests | with_reducible apply State.alloc_rests | with_reducible apply State.auditAdvance_rests | (with_reducible apply Rests.foldl; intro _ _ _) | with_reducible refine Rests.ite ?_ ?_ | (with_reducible apply Rests.upd; with_reducible assumption)

theorem State.auditStart_rests {s₀ s : State} (h : Rests s₀ s) (y : InsPage) : Rests s₀ (State.auditStart s y) := by
  unfold State.auditStart
  try dsimp only
  repeat' first | with_reducible assumption | with_reducible apply State.setF_rests | with_reducible apply State.setWord_rests | with_reducible apply State.setJobState_rests | with_reducible apply State.modInsPage_rests | (with_reducible apply Rests.upd; with_reducible assumption)

theorem State.auditEnd_rests {s₀ s : State} (h : Rests s₀ s) (p : Page) (y : InsPage) : Rests s₀ (State.auditEnd s p y) := by
  unfold State.auditEnd
  repeat' first | (extract_lets +onlyGivenNames z; first | (refine Rests.cut (s₀ := s₀) z ?_ ?_; rotate_left; clear_value z; intro hz; rotate_left; subst z) | clear_value z) | with_reducible assumption | with_reducible apply State.setF_rests | with_reducible apply State.endJob_rests | with_reducible apply State.modInsPage_rests | with_reducible apply State.storeAudit_rests | (with_reducible apply Rests.upd; with_reducible assumption)

theorem State.auditRow_rests {s₀ s : State} (h : Rests s₀ s) (p : Page) (side : Nat) (r : Nat) : Rests s₀ (State.auditRow s p side r) := by
  unfold State.auditRow
  repeat' first | (extract_lets +onlyGivenNames z; first | (refine Rests.cut (s₀ := s₀) z ?_ ?_; rotate_left; clear_value z; intro hz; rotate_left; subst z) | clear_value z) | with_reducible assumption | with_reducible apply State.auditEnd_rests | with_reducible apply State.auditStart_rests | with_reducible apply State.setF_rests | (with_reducible apply Rests.foldl; intro _ _ _) | with_reducible refine Rests.ite ?_ ?_ | split

theorem State.auditLast_rests {s₀ s : State} (h : Rests s₀ s) (p : Page) (y : InsPage) : Rests s₀ (State.auditLast s p y) := by
  unfold State.auditLast
  try dsimp only
  repeat' first | with_reducible assumption | with_reducible apply State.modInsPage_rests | with_reducible apply State.auditCut_rests | with_reducible apply State.auditStart_rests | with_reducible apply State.auditEnd_rests | with_reducible refine Rests.ite ?_ ?_ | split | (with_reducible apply Rests.upd; with_reducible assumption)

theorem State.rowsBetween_rests {s₀ s : State} (h : Rests s₀ s) (side : Nat) (a : CisLine) (b : CisLine) (near : Bool) : Rests s₀ (State.rowsBetween s side a b near) := by
  unfold State.rowsBetween
  try dsimp only
  repeat' first | with_reducible assumption | with_reducible apply State.modInsPage_rests | with_reducible apply State.auditRow_rests | with_reducible apply State.compareDue_rests | (with_reducible apply Rests.foldl; intro _ _ _) | with_reducible refine Rests.ite ?_ ?_ | split | (with_reducible apply Rests.upd; with_reducible assumption)

theorem execCisLine_rests {s₀ s : State} (h : Rests s₀ s) (side : Nat) (lanes : List (List (Bool × BitVec 64))) : RestsAns s₀ (execCisLine side lanes s) := by
  unfold execCisLine
  try dsimp only
  repeat' first | with_reducible assumption | with_reducible apply RestsAns.next | with_reducible apply State.satInc_rests | with_reducible apply State.noteLine_rests | with_reducible apply State.rowsBetween_rests | with_reducible refine RestsAns.ite ?_ ?_ | with_reducible refine Rests.ite ?_ ?_ | split

theorem State.judgeSide_rests {s₀ s : State} (h : Rests s₀ s) (p : Page) (y : InsPage) : Rests s₀ (State.judgeSide s p y).2.2 := by
  unfold State.judgeSide
  repeat' first | (extract_lets +onlyGivenNames z; first | (refine Rests.cut (s₀ := s₀) z ?_ ?_; rotate_left; clear_value z; intro hz; rotate_left; subst z) | (refine Rests.cut (s₀ := s₀) (z : _ × State).2 ?_ ?_; rotate_left; clear_value z; intro hz; rotate_left; subst z) | (refine Rests.cut (s₀ := s₀) (z : State × _).1 ?_ ?_; rotate_left; clear_value z; intro hz; rotate_left; subst z) | (refine Rests.cut (s₀ := s₀) (z : _ × _ × State).2.2 ?_ ?_; rotate_left; clear_value z; intro hz; rotate_left; subst z) | clear_value z) | with_reducible assumption | with_reducible apply State.measure_rests | (with_reducible apply Rests.foldl; intro _ _ _) | (with_reducible apply Rests.foldl_snd; intro _ _ _) | (with_reducible apply Rests.foldl_fst; intro _ _ _) | (refine Rests.of_snd ?_ (by assumption)) | with_reducible refine Rests.ite ?_ ?_ | with_reducible refine Rests.ite_snd ?_ ?_ | with_reducible refine Rests.ite_fst ?_ ?_ | split | (with_reducible apply Rests.upd; first | with_reducible assumption | with_reducible apply State.measure_rests) | dsimp only

theorem State.sweepPage_rests {s₀ s : State} (h : Rests s₀ s) (side : Nat) : Rests s₀ (State.sweepPage s side) := by
  unfold State.sweepPage
  try dsimp only
  repeat' first | with_reducible assumption | with_reducible refine Rests.ite ?_ ?_ | (with_reducible apply Rests.upd; with_reducible assumption)

theorem State.sideResult_rests {s₀ s : State} (h : Rests s₀ s) (side : Nat) (y0 : InsPage) (p : Page) : Rests s₀ (State.sideResult s side y0 p) := by
  unfold State.sideResult
  repeat' first | (extract_lets +onlyGivenNames z; first | (refine Rests.cut (s₀ := s₀) z ?_ ?_; rotate_left; clear_value z; intro hz; rotate_left; subst z) | (refine Rests.cut (s₀ := s₀) (z : _ × State).2 ?_ ?_; rotate_left; clear_value z; intro hz; rotate_left; subst z) | (refine Rests.cut (s₀ := s₀) (z : State × _).1 ?_ ?_; rotate_left; clear_value z; intro hz; rotate_left; subst z) | (refine Rests.cut (s₀ := s₀) (z : _ × _ × State).2.2 ?_ ?_; rotate_left; clear_value z; intro hz; rotate_left; subst z) | clear_value z) | with_reducible assumption | with_reducible apply State.modInsPage_rests | with_reducible apply State.compareDue_rests | with_reducible apply State.auditLast_rests | with_reducible apply State.judgeSide_rests | with_reducible apply State.report_rests | with_reducible apply State.modInsSide_rests | with_reducible apply State.queueResult_rests | with_reducible apply State.sweepPage_rests | with_reducible apply State.pageTargets_rests | with_reducible apply State.markStanding_rests | with_reducible apply State.modPage_rests | (with_reducible apply Rests.foldl; intro _ _ _) | (with_reducible apply Rests.foldl_snd; intro _ _ _) | (with_reducible apply Rests.foldl_fst; intro _ _ _) | (refine Rests.of_thd ?_ (by assumption)) | with_reducible refine Rests.ite ?_ ?_ | with_reducible refine Rests.ite_snd ?_ ?_ | with_reducible refine Rests.ite_fst ?_ ?_ | split | (with_reducible apply Rests.upd; first | with_reducible assumption | with_reducible apply State.modInsPage_rests | with_reducible apply State.compareDue_rests | with_reducible apply State.auditLast_rests | with_reducible apply State.judgeSide_rests | with_reducible apply State.report_rests | with_reducible apply State.modInsSide_rests | with_reducible apply State.queueResult_rests | with_reducible apply State.sweepPage_rests | with_reducible apply State.pageTargets_rests | with_reducible apply State.markStanding_rests | with_reducible apply State.modPage_rests) | dsimp only

theorem State.pageVerdict_rests {s₀ s : State} (h : Rests s₀ s) (p : Page) : Rests s₀ (State.pageVerdict s p) := by
  unfold State.pageVerdict
  try dsimp only
  repeat' first | with_reducible assumption | with_reducible apply State.insDrop_rests | with_reducible apply State.modPage_rests | with_reducible apply State.finalState_rests | (with_reducible apply Rests.foldl; intro _ _ _) | with_reducible refine Rests.ite ?_ ?_ | (with_reducible apply Rests.upd; with_reducible assumption)

theorem execInspectionResultComplete_rests {s₀ s : State} (h : Rests s₀ s) (side : Nat) : RestsAns s₀ (execInspectionResultComplete side s) := by
  unfold execInspectionResultComplete
  try dsimp only
  repeat' first | with_reducible assumption | with_reducible apply RestsAns.next | with_reducible apply State.modInsSide_rests | with_reducible apply State.insDrop_rests | with_reducible apply State.sideResult_rests | with_reducible apply State.pageVerdict_rests | with_reducible refine RestsAns.ite ?_ ?_ | with_reducible refine Rests.ite ?_ ?_ | split | (with_reducible apply Rests.upd; with_reducible assumption)

theorem execInsAck_rests {s₀ s : State} (h : Rests s₀ s) (side : Nat) (seq : Nat) : RestsAns s₀ (execInsAck side seq s) := by
  unfold execInsAck
  try dsimp only
  repeat' first | with_reducible assumption | with_reducible apply RestsAns.next | with_reducible apply State.darkWrite_rests | with_reducible apply State.reportAccess_rests | with_reducible apply State.setInsSide_rests | with_reducible apply State.insWindow_rests | with_reducible apply State.raise_rests | with_reducible refine RestsAns.ite ?_ ?_ | with_reducible refine Rests.ite ?_ ?_ | (with_reducible apply Rests.upd; with_reducible assumption)

theorem State.calGo_rests {s₀ s : State} (h : Rests s₀ s) (side : Nat) (op : Nat) : Rests s₀ (State.calGo s side op) := by
  unfold State.calGo
  try dsimp only
  repeat' first | with_reducible assumption | with_reducible apply State.darkWrite_rests | with_reducible apply State.reportAccess_rests | with_reducible apply State.raise_rests | with_reducible apply State.modInsSide_rests | with_reducible apply State.setF_rests | with_reducible refine Rests.ite ?_ ?_ | (with_reducible apply Rests.upd; with_reducible assumption)

theorem execCalWhite_rests {s₀ s : State} (h : Rests s₀ s) (side : Nat) : RestsAns s₀ (execCalWhite side s) := by
  unfold execCalWhite
  repeat' first | with_reducible assumption | with_reducible apply RestsAns.next | with_reducible apply State.calGo_rests

theorem execCalChart_rests {s₀ s : State} (h : Rests s₀ s) (side : Nat) : RestsAns s₀ (execCalChart side s) := by
  unfold execCalChart
  repeat' first | with_reducible assumption | with_reducible apply RestsAns.next | with_reducible apply State.calGo_rests

theorem execCalCaptureDone_rests {s₀ s : State} (h : Rests s₀ s) (side : Nat) : RestsAns s₀ (execCalCaptureDone side s) := by
  unfold execCalCaptureDone
  try dsimp only
  repeat' first | with_reducible assumption | with_reducible apply RestsAns.next | with_reducible apply State.endCapture_rests | with_reducible apply State.setInsSide_rests | with_reducible apply State.setF_rests | with_reducible refine RestsAns.ite ?_ ?_ | with_reducible refine Rests.ite ?_ ?_ | split | (with_reducible apply Rests.upd; with_reducible assumption)

theorem State.takeCal_rests {s₀ s : State} (h : Rests s₀ s) (side : Nat) : Rests s₀ (State.takeCal s side) := by
  unfold State.takeCal
  repeat' first | (extract_lets +onlyGivenNames z; first | (refine Rests.cut (s₀ := s₀) z ?_ ?_; rotate_left; clear_value z; intro hz; rotate_left; subst z) | clear_value z) | with_reducible assumption | with_reducible apply State.modInsSide_rests | split | (with_reducible apply Rests.upd; with_reducible assumption)

theorem execAuditExport_rests {s₀ s : State} (h : Rests s₀ s) : RestsAns s₀ (execAuditExport s) := by
  unfold execAuditExport
  try dsimp only
  repeat' first | with_reducible assumption | with_reducible apply RestsAns.next | with_reducible apply State.darkWrite_rests | with_reducible apply State.raise_rests | with_reducible apply State.setF_rests | with_reducible refine RestsAns.ite ?_ ?_ | with_reducible refine Rests.ite ?_ ?_

theorem State.endAudit_rests {s₀ s : State} (h : Rests s₀ s) (code : Nat) (n : Nat) : Rests s₀ (State.endAudit s code n) := by
  unfold State.endAudit
  repeat' first | with_reducible assumption | with_reducible apply State.setF_rests | with_reducible apply State.pf_rests

end Sys2Proof.Machine
end

