-- ==== Sys2Proof/Laws/RestLoopOps.lean ====
section
/-! SUPPORT. Which operations of Machine/LoopOps.lean leave the memories as they are (Laws/Rest.lean). -/
namespace Sys2Proof.Machine
set_option Elab.async false
set_option linter.all false

theorem State.lpDrive_rests {s₀ s : State} (h : Rests s₀ s) (lp : Nat) (u : F32) : Rests s₀ (State.lpDrive s lp u) := by
  unfold State.lpDrive
  try dsimp only
  repeat' first | with_reducible assumption | with_reducible apply State.setF_rests | with_reducible apply State.putOut_rests | with_reducible refine Rests.ite ?_ ?_

theorem State.lpSafe_rests {s₀ s : State} (h : Rests s₀ s) (lp : Nat) : Rests s₀ (State.lpSafe s lp) := by
  unfold State.lpSafe
  repeat' first | (extract_lets +onlyGivenNames z; first | (refine Rests.cut (s₀ := s₀) z ?_ ?_; rotate_left; clear_value z; intro hz; rotate_left; subst z) | clear_value z) | with_reducible assumption | with_reducible apply State.lpDrive_rests | with_reducible refine Rests.ite ?_ ?_ | (with_reducible apply Rests.upd; with_reducible assumption)

theorem State.syncLoops_rests {s₀ s : State} (h : Rests s₀ s) : Rests s₀ (State.syncLoops s) := by
  unfold State.syncLoops
  repeat' first | (extract_lets +onlyGivenNames z; first | (refine Rests.cut (s₀ := s₀) z ?_ ?_; rotate_left; clear_value z; intro hz; rotate_left; subst z) | clear_value z) | with_reducible assumption | with_reducible apply State.setF_rests | with_reducible apply State.set64_rests | with_reducible apply State.setB_rests | (with_reducible apply Rests.foldl; intro _ _ _)

theorem State.lpTo_rests {s₀ s : State} (h : Rests s₀ s) (lp : Nat) (v : Nat) : Rests s₀ (State.lpTo s lp v) := by
  unfold State.lpTo
  try dsimp only
  repeat' first | with_reducible assumption | with_reducible apply State.mark_rests | with_reducible apply State.setF_rests | with_reducible apply State.syncLoops_rests | with_reducible apply State.setPoly_rests | with_reducible refine Rests.ite ?_ ?_

theorem State.lpOff_rests {s₀ s : State} (h : Rests s₀ s) (lp : Nat) : Rests s₀ (State.lpOff s lp) := by
  unfold State.lpOff
  try dsimp only
  repeat' first | with_reducible assumption | with_reducible apply State.lpSafe_rests | with_reducible apply State.modLoop_rests | with_reducible apply State.lpTo_rests | with_reducible apply State.setF_rests | (with_reducible apply Rests.upd; with_reducible assumption)

theorem State.lpFail_rests {s₀ s : State} (h : Rests s₀ s) (lp : Nat) (code : Nat) : Rests s₀ (State.lpFail s lp code) := by
  unfold State.lpFail
  repeat' first | (extract_lets +onlyGivenNames z; first | (refine Rests.cut (s₀ := s₀) z ?_ ?_; rotate_left; clear_value z; intro hz; rotate_left; subst z) | clear_value z) | with_reducible assumption | with_reducible apply State.modLoop_rests | with_reducible apply State.setF_rests | with_reducible apply State.satInc_rests | with_reducible apply State.lpTo_rests | with_reducible apply State.report_rests | with_reducible apply State.pf_rests | (with_reducible apply Rests.upd; with_reducible assumption)

theorem State.lpFaults_rests {s₀ : State} (fuel : Nat) (l : List (Nat × Nat)) : ∀ (s : State) (_ : Rests s₀ s), Rests s₀ (State.lpFaults s fuel l) := by
  induction fuel generalizing l with
  | zero => intro s h; unfold State.lpFaults; exact h
  | succ fuel ih =>
    intro s h
    cases l with
    | nil => unfold State.lpFaults; exact h
    | cons x t =>
      unfold State.lpFaults
      exact Rests.ite (ih _ _ (State.lpFail_rests h _ _)) (ih _ _ h)

theorem State.lpFault_rests {s₀ s : State} (h : Rests s₀ s) (lp : Nat) (code : Nat) : Rests s₀ (State.lpFault s lp code) := by
  unfold State.lpFault
  repeat' first | with_reducible assumption | with_reducible apply State.lpFaults_rests | (refine Rests.of_snd ?_ (by assumption)) | split | dsimp only

theorem State.nodeGone_rests {s₀ s : State} (h : Rests s₀ s) (p : Nat) (node : Nat) : Rests s₀ (State.nodeGone s p node) := by
  unfold State.nodeGone
  try dsimp only
  repeat' first | with_reducible assumption | with_reducible apply State.lpFault_rests | (with_reducible apply Rests.foldl; intro _ _ _) | with_reducible refine Rests.ite ?_ ?_

theorem State.polyRaw_rests {s₀ s : State} (h : Rests s₀ s) (st : Nat) : Rests s₀ (State.polyRaw s st).2.2 := by
  unfold State.polyRaw
  try dsimp only
  repeat' first | with_reducible assumption | with_reducible apply State.drew_rests | with_reducible refine Rests.ite ?_ ?_ | with_reducible refine Rests.ite_snd ?_ ?_ | with_reducible refine Rests.ite_fst ?_ ?_ | split | dsimp only

theorem State.lpRaw_rests {s₀ s : State} (h : Rests s₀ s) (lp : Nat) (code : BitVec 16) : Rests s₀ (State.lpRaw s lp code).2.2 := by
  unfold State.lpRaw
  try dsimp only
  repeat' first | with_reducible assumption | with_reducible apply State.polyRaw_rests | (refine Rests.of_thd ?_ (by assumption)) | split | dsimp only

theorem State.lpShow_rests {s₀ s : State} (h : Rests s₀ s) (lp : Nat) (x : Loop) (sat : Bool) (ramping : Bool) : Rests s₀ (State.lpShow s lp x sat ramping) := by
  unfold State.lpShow
  repeat' first | (extract_lets +onlyGivenNames z; first | (refine Rests.cut (s₀ := s₀) z ?_ ?_; rotate_left; clear_value z; intro hz; rotate_left; subst z) | clear_value z) | with_reducible assumption | with_reducible apply State.setWord_rests | with_reducible apply State.setB_rests

theorem State.loopsStop_rests {s₀ s : State} (h : Rests s₀ s) : Rests s₀ (State.loopsStop s) := by
  unfold State.loopsStop
  repeat' first | (extract_lets +onlyGivenNames z; first | (refine Rests.cut (s₀ := s₀) z ?_ ?_; rotate_left; clear_value z; intro hz; rotate_left; subst z) | clear_value z) | with_reducible assumption | with_reducible apply State.lpOff_rests | with_reducible apply State.modLoop_rests | (with_reducible apply Rests.foldl; intro _ _ _) | with_reducible refine Rests.ite ?_ ?_ | split | (with_reducible apply Rests.upd; with_reducible assumption)

theorem State.loopsResume_rests {s₀ s : State} (h : Rests s₀ s) : Rests s₀ (State.loopsResume s) := by
  unfold State.loopsResume
  repeat' first | (extract_lets +onlyGivenNames z; first | (refine Rests.cut (s₀ := s₀) z ?_ ?_; rotate_left; clear_value z; intro hz; rotate_left; subst z) | clear_value z) | with_reducible assumption | with_reducible apply State.modLoop_rests | (with_reducible apply Rests.foldl; intro _ _ _) | (with_reducible apply Rests.upd; with_reducible assumption)

theorem State.loopsSleep_rests {s₀ s : State} (h : Rests s₀ s) : Rests s₀ (State.loopsSleep s) := by
  unfold State.loopsSleep
  repeat' first | (extract_lets +onlyGivenNames z; first | (refine Rests.cut (s₀ := s₀) z ?_ ?_; rotate_left; clear_value z; intro hz; rotate_left; subst z) | clear_value z) | with_reducible assumption | with_reducible apply State.lpOff_rests | (with_reducible apply Rests.foldl; intro _ _ _) | (with_reducible apply Rests.upd; with_reducible assumption)

end Sys2Proof.Machine
end

