-- ==== Sys2Proof/Laws/RestScan.lean ====
section
/-! SUPPORT. Which operations of Machine/Scan.lean leave the memories as they are (Laws/Rest.lean). -/
namespace Sys2Proof.Machine
set_option Elab.async false
set_option linter.all false

theorem State.sendSweep_rests {s₀ s : State} (h : Rests s₀ s) (bl : Nat) (st : Nat) (facet : Nat) (page : Option (Page × Nat)) (last : Bool) : Rests s₀ (State.sendSweep s bl st facet page last) := by
  unfold State.sendSweep
  repeat' first | (extract_lets +onlyGivenNames z; first | (refine Rests.cut (s₀ := s₀) z ?_ ?_; rotate_left; clear_value z; intro hz; rotate_left; subst z) | clear_value z) | with_reducible assumption | with_reducible apply State.emit_rests | with_reducible apply State.setPort_rests | with_reducible apply State.wrapInc_rests | (with_reducible apply Rests.foldl; intro _ _ _) | with_reducible refine Rests.ite ?_ ?_ | split | (with_reducible apply Rests.upd; with_reducible assumption)

theorem State.countFreeboard_rests {s₀ s : State} (h : Rests s₀ s) (st : Nat) : Rests s₀ (State.countFreeboard s st) := by
  unfold State.countFreeboard
  try dsimp only
  repeat' first | with_reducible assumption | with_reducible apply State.setF_rests | with_reducible apply State.lower_rests

theorem State.followTerm_rests {s₀ s : State} (h : Rests s₀ s) (st : Nat) : Rests s₀ (State.followTerm s st) := by
  unfold State.followTerm
  try dsimp only
  repeat' first | with_reducible assumption | with_reducible apply State.modScnSt_rests | with_reducible apply State.raise_rests | with_reducible refine Rests.ite ?_ ?_ | split | (with_reducible apply Rests.upd; with_reducible assumption)

theorem State.modWord_rests {s₀ s : State} (h : Rests s₀ s) (st : Nat) (f : Nat) (z : Nat) : Rests s₀ (State.modWord s st f z) := by
  unfold State.modWord
  try dsimp only
  repeat' first | with_reducible assumption | with_reducible apply State.modScnSt_rests | with_reducible apply State.raise_rests | with_reducible apply State.scnReport_rests | with_reducible refine Rests.ite ?_ ?_ | (with_reducible apply Rests.upd; with_reducible assumption)

theorem State.routeAlone_rests {s₀ s : State} (h : Rests s₀ s) (st : Nat) : Rests s₀ (State.routeAlone s st) := by
  unfold State.routeAlone
  try dsimp only
  repeat' first | with_reducible assumption | with_reducible apply State.setWork_rests | with_reducible apply State.setF_rests | with_reducible apply State.pf_rests | with_reducible refine Rests.ite ?_ ?_

theorem State.fireTrigger_rests {s₀ s : State} (h : Rests s₀ s) (st : Nat) (pos : Nat) : Rests s₀ (State.fireTrigger s st pos) := by
  unfold State.fireTrigger
  repeat' first | (extract_lets +onlyGivenNames z; first | (refine Rests.cut (s₀ := s₀) z ?_ ?_; rotate_left; clear_value z; intro hz; rotate_left; subst z) | clear_value z) | with_reducible assumption | with_reducible apply State.countFreeboard_rests | with_reducible apply State.routeAlone_rests | with_reducible apply State.modScnSt_rests | with_reducible apply State.setB_rests | with_reducible apply State.followTerm_rests | with_reducible apply State.modWord_rests | with_reducible apply State.event_rests | with_reducible refine Rests.ite ?_ ?_ | (with_reducible apply Rests.upd; with_reducible assumption)

theorem State.sweepChecks_rests {s₀ s : State} (h : Rests s₀ s) (st : Nat) (f : Frame) (p : Page) (k : Nat) : Rests s₀ (State.sweepChecks s st f p k) := by
  unfold State.sweepChecks
  try dsimp only
  repeat' first | with_reducible assumption | with_reducible apply State.linkSpoil_rests | with_reducible apply State.lockLoss_rests | with_reducible refine Rests.ite ?_ ?_

theorem State.goSweep_rests {s₀ s : State} (h : Rests s₀ s) (st : Nat) (hit : Option (Frame × Page × Nat)) : Rests s₀ (State.goSweep s st hit) := by
  unfold State.goSweep
  try dsimp only
  repeat' first | with_reducible assumption | with_reducible apply State.modScnSt_rests | with_reducible apply State.sendSweep_rests | with_reducible refine Rests.ite ?_ ?_ | (with_reducible apply Rests.upd; with_reducible assumption)

theorem State.runSweep_rests {s₀ s : State} (h : Rests s₀ s) (st : Nat) (pos : Nat) : Rests s₀ (State.runSweep s st pos) := by
  unfold State.runSweep
  try dsimp only
  repeat' first | with_reducible assumption | with_reducible apply State.sweepChecks_rests | with_reducible apply State.goSweep_rests | split

theorem execSweepTrigger_rests {s₀ s : State} (h : Rests s₀ s) (st : Nat) : RestsAns s₀ (execSweepTrigger st s) := by
  unfold execSweepTrigger
  try dsimp only
  repeat' first | with_reducible assumption | with_reducible apply RestsAns.next | with_reducible apply State.fireTrigger_rests | with_reducible apply State.runSweep_rests | with_reducible refine RestsAns.ite ?_ ?_ | with_reducible refine Rests.ite ?_ ?_

theorem State.countFacet_rests {s₀ s : State} (h : Rests s₀ s) (st : Nat) : Rests s₀ (State.countFacet s st) := by
  unfold State.countFacet
  try dsimp only
  repeat' first | with_reducible assumption | with_reducible apply State.setScnSt_rests | with_reducible apply State.setF_rests | with_reducible refine Rests.ite ?_ ?_ | split | (with_reducible apply Rests.upd; with_reducible assumption)

theorem State.startDelay_rests {s₀ s : State} (h : Rests s₀ s) (st : Nat) : Rests s₀ (State.startDelay s st) := by
  unfold State.startDelay
  try dsimp only
  repeat' first | with_reducible assumption | with_reducible apply State.modScnSt_rests | with_reducible apply State.raise_rests | with_reducible apply State.scnReport_rests | with_reducible refine Rests.ite ?_ ?_ | (with_reducible apply Rests.upd; with_reducible assumption)

theorem State.noteBd_rests {s₀ s : State} (h : Rests s₀ s) (st : Nat) : Rests s₀ (State.noteBd s st) := by
  unfold State.noteBd
  repeat' first | (extract_lets +onlyGivenNames z; first | (refine Rests.cut (s₀ := s₀) z ?_ ?_; rotate_left; clear_value z; intro hz; rotate_left; subst z) | clear_value z) | with_reducible assumption | with_reducible apply State.setF_rests | with_reducible apply State.modScnSt_rests | with_reducible apply State.modLoop_rests | with_reducible apply State.drew_rests | split | (with_reducible apply Rests.upd; with_reducible assumption)

theorem State.polyAfterBd_rests {s₀ s : State} (h : Rests s₀ s) (st : Nat) (e : Int) : Rests s₀ (State.polyAfterBd s st e) := by
  unfold State.polyAfterBd
  try dsimp only
  repeat' first | with_reducible assumption | with_reducible apply State.setPoly_rests | with_reducible apply State.modScnSt_rests | with_reducible apply State.countFacet_rests | with_reducible apply State.lockLoss_rests | with_reducible refine Rests.ite ?_ ?_ | (with_reducible apply Rests.upd; with_reducible assumption)

theorem execBdPulse_rests {s₀ s : State} (h : Rests s₀ s) (st : Nat) : RestsAns s₀ (execBdPulse st s) := by
  unfold execBdPulse
  repeat' first | with_reducible assumption | with_reducible apply RestsAns.next | with_reducible apply State.noteBd_rests | with_reducible apply State.polyAfterBd_rests | with_reducible apply State.startDelay_rests | with_reducible refine RestsAns.ite ?_ ?_ | with_reducible refine Rests.ite ?_ ?_

theorem execBdMissed_rests {s₀ s : State} (h : Rests s₀ s) (st : Nat) : RestsAns s₀ (execBdMissed st s) := by
  unfold execBdMissed
  try dsimp only
  repeat' first | with_reducible assumption | with_reducible apply RestsAns.next | with_reducible apply State.satInc_rests | with_reducible apply State.scnReport_rests | with_reducible apply State.modScnSt_rests | with_reducible apply State.lockLoss_rests | with_reducible refine RestsAns.ite ?_ ?_ | with_reducible refine Rests.ite ?_ ?_ | (with_reducible apply Rests.upd; with_reducible assumption)

theorem execLockLossTimeout_rests {s₀ s : State} (h : Rests s₀ s) (st : Nat) : RestsAns s₀ (execLockLossTimeout st s) := by
  unfold execLockLossTimeout
  repeat' first | with_reducible assumption | with_reducible apply RestsAns.next | with_reducible apply State.lockLoss_rests | with_reducible refine RestsAns.ite ?_ ?_ | with_reducible refine Rests.ite ?_ ?_

theorem execFacetIdDone_rests {s₀ s : State} (h : Rests s₀ s) (st : Nat) : RestsAns s₀ (execFacetIdDone st s) := by
  unfold execFacetIdDone
  try dsimp only
  repeat' first | with_reducible assumption | with_reducible apply RestsAns.next | with_reducible apply State.setF_rests | with_reducible apply State.scnReport_rests | with_reducible apply State.setScnSt_rests | (with_reducible apply Rests.foldl; intro _ _ _) | with_reducible refine RestsAns.ite ?_ ?_ | with_reducible refine Rests.ite ?_ ?_ | (with_reducible apply Rests.upd; with_reducible assumption)

theorem execScanWindowOpen_rests {s₀ s : State} (h : Rests s₀ s) (st : Nat) : RestsAns s₀ (execScanWindowOpen st s) := by
  unfold execScanWindowOpen
  try dsimp only
  repeat' first | with_reducible assumption | with_reducible apply RestsAns.next | with_reducible apply State.modScnSt_rests | with_reducible apply State.modWord_rests | with_reducible apply State.emit_rests | with_reducible refine RestsAns.ite ?_ ?_ | with_reducible refine Rests.ite ?_ ?_ | (with_reducible apply Rests.upd; with_reducible assumption)

theorem execZoneStart_rests {s₀ s : State} (h : Rests s₀ s) (st : Nat) (zone : Nat) : RestsAns s₀ (execZoneStart st zone s) := by
  unfold execZoneStart
  try dsimp only
  repeat' first | with_reducible assumption | with_reducible apply RestsAns.next | with_reducible apply State.modWord_rests | with_reducible refine RestsAns.ite ?_ ?_ | with_reducible refine Rests.ite ?_ ?_

theorem execScanWindowClose_rests {s₀ s : State} (h : Rests s₀ s) (st : Nat) : RestsAns s₀ (execScanWindowClose st s) := by
  unfold execScanWindowClose
  repeat' first | (extract_lets +onlyGivenNames z; first | (refine Rests.cut (s₀ := s₀) z ?_ ?_; rotate_left; clear_value z; intro hz; rotate_left; subst z) | clear_value z) | with_reducible assumption | with_reducible apply RestsAns.next | with_reducible apply State.modScnSt_rests | with_reducible apply State.emit_rests | with_reducible apply State.queuePoll_rests | with_reducible refine RestsAns.ite ?_ ?_ | with_reducible refine Rests.ite ?_ ?_ | (with_reducible apply Rests.upd; with_reducible assumption)

theorem execWebEncoderLost_rests {s₀ s : State} (h : Rests s₀ s) : RestsAns s₀ (execWebEncoderLost s) := by
  unfold execWebEncoderLost
  repeat' first | with_reducible assumption | with_reducible apply RestsAns.next | with_reducible apply State.satInc_rests | with_reducible apply State.report_rests | with_reducible refine RestsAns.ite ?_ ?_ | with_reducible refine Rests.ite ?_ ?_

theorem execPcEncoderLost_rests {s₀ s : State} (h : Rests s₀ s) (st : Nat) : RestsAns s₀ (execPcEncoderLost st s) := by
  unfold execPcEncoderLost
  repeat' first | with_reducible assumption | with_reducible apply RestsAns.next | with_reducible apply State.satInc_rests | with_reducible apply State.setF_rests | with_reducible apply State.scnReport_rests | with_reducible refine RestsAns.ite ?_ ?_ | with_reducible refine Rests.ite ?_ ?_

theorem State.setLocked_rests {s₀ s : State} (h : Rests s₀ s) (pll : Nat) (b : Bool) : Rests s₀ (State.setLocked s pll b) := by
  unfold State.setLocked
  repeat' first | with_reducible assumption | with_reducible apply State.setF_rests

theorem State.pllSearch_rests {s₀ s : State} (h : Rests s₀ s) (pll : Nat) : Rests s₀ (State.pllSearch s pll) := by
  unfold State.pllSearch
  repeat' first | with_reducible assumption | with_reducible apply State.setF_rests | with_reducible apply State.setLocked_rests

theorem State.modPll_rests {s₀ s : State} (h : Rests s₀ s) (pll : Nat) (g : PllSt → PllSt) : Rests s₀ (State.modPll s pll g) := by
  unfold State.modPll
  try dsimp only
  repeat' first | with_reducible assumption | (with_reducible apply Rests.upd; with_reducible assumption)

theorem State.retunePlls_rests {s₀ s : State} (h : Rests s₀ s) (c : Nat) : Rests s₀ (State.retunePlls s c) := by
  unfold State.retunePlls
  try dsimp only
  repeat' first | with_reducible assumption | with_reducible apply State.setF_rests | with_reducible apply State.pllSearch_rests | with_reducible apply State.modPll_rests | (with_reducible apply Rests.foldl; intro _ _ _) | with_reducible refine Rests.ite ?_ ?_ | (with_reducible apply Rests.upd; with_reducible assumption)

theorem execPllLockStart_rests {s₀ s : State} (h : Rests s₀ s) (pll : Nat) : RestsAns s₀ (execPllLockStart pll s) := by
  unfold execPllLockStart
  try dsimp only
  repeat' first | with_reducible assumption | with_reducible apply RestsAns.next | with_reducible apply State.modPll_rests | with_reducible apply State.setF_rests | with_reducible refine RestsAns.ite ?_ ?_ | with_reducible refine Rests.ite ?_ ?_ | (with_reducible apply Rests.upd; with_reducible assumption)

theorem execPllLockDeclared_rests {s₀ s : State} (h : Rests s₀ s) (pll : Nat) : RestsAns s₀ (execPllLockDeclared pll s) := by
  unfold execPllLockDeclared
  try dsimp only
  repeat' first | with_reducible assumption | with_reducible apply RestsAns.next | with_reducible apply State.setF_rests | with_reducible apply State.satInc_rests | with_reducible apply State.setLocked_rests | with_reducible apply State.modPll_rests | with_reducible refine RestsAns.ite ?_ ?_ | with_reducible refine Rests.ite ?_ ?_ | (with_reducible apply Rests.upd; with_reducible assumption)

theorem execPllLockLost_rests {s₀ s : State} (h : Rests s₀ s) (pll : Nat) : RestsAns s₀ (execPllLockLost pll s) := by
  unfold execPllLockLost
  try dsimp only
  repeat' first | with_reducible assumption | with_reducible apply RestsAns.next | with_reducible apply State.pllSearch_rests | with_reducible apply State.modPll_rests | with_reducible apply State.scnReport_rests | with_reducible apply State.modScnSt_rests | with_reducible refine RestsAns.ite ?_ ?_ | with_reducible refine Rests.ite ?_ ?_ | (with_reducible apply Rests.upd; with_reducible assumption)

theorem execPllLockTimeout_rests {s₀ s : State} (h : Rests s₀ s) (pll : Nat) : RestsAns s₀ (execPllLockTimeout pll s) := by
  unfold execPllLockTimeout
  repeat' first | (extract_lets +onlyGivenNames z; first | (refine Rests.cut (s₀ := s₀) z ?_ ?_; rotate_left; clear_value z; intro hz; rotate_left; subst z) | clear_value z) | with_reducible assumption | with_reducible apply RestsAns.next | with_reducible apply State.satInc_rests | with_reducible apply State.modPll_rests | with_reducible apply State.pllSearch_rests | with_reducible apply State.setF_rests | with_reducible apply State.scnReport_rests | with_reducible apply State.bootStop_rests | with_reducible refine RestsAns.ite ?_ ?_ | with_reducible refine Rests.ite ?_ ?_ | (with_reducible apply Rests.upd; with_reducible assumption)

theorem execPllRetry_rests {s₀ s : State} (h : Rests s₀ s) (pll : Nat) : RestsAns s₀ (execPllRetry pll s) := by
  unfold execPllRetry
  repeat' first | (extract_lets +onlyGivenNames z; first | (refine Rests.cut (s₀ := s₀) z ?_ ?_; rotate_left; clear_value z; intro hz; rotate_left; subst z) | clear_value z) | with_reducible assumption | with_reducible apply RestsAns.next | with_reducible apply State.pllSearch_rests | with_reducible apply State.modPll_rests | with_reducible refine RestsAns.ite ?_ ?_ | with_reducible refine Rests.ite ?_ ?_ | (with_reducible apply Rests.upd; with_reducible assumption)

theorem execPllRelock_rests {s₀ s : State} (h : Rests s₀ s) (pll : Nat) : RestsAns s₀ (execPllRelock pll s) := by
  unfold execPllRelock
  repeat' first | (extract_lets +onlyGivenNames z; first | (refine Rests.cut (s₀ := s₀) z ?_ ?_; rotate_left; clear_value z; intro hz; rotate_left; subst z) | clear_value z) | with_reducible assumption | with_reducible apply RestsAns.next | with_reducible apply State.pllSearch_rests | with_reducible apply State.modPll_rests | with_reducible refine RestsAns.ite ?_ ?_ | with_reducible refine Rests.ite ?_ ?_ | (with_reducible apply Rests.upd; with_reducible assumption)

theorem execClassRequest_rests {s₀ s : State} (h : Rests s₀ s) (master : Nat) (value : BitVec 32) : RestsAns s₀ (execClassRequest master value s) := by
  unfold execClassRequest
  repeat' first | (extract_lets +onlyGivenNames z; first | (refine Rests.cut (s₀ := s₀) z ?_ ?_; rotate_left; clear_value z; intro hz; rotate_left; subst z) | clear_value z) | with_reducible assumption | with_reducible apply RestsAns.next | with_reducible apply State.darkWrite_rests | with_reducible apply State.raise_rests | with_reducible apply State.setF_rests | with_reducible apply State.scaleTaps_rests | with_reducible apply State.setClass_rests | with_reducible apply State.retunePlls_rests | with_reducible apply State.sendBdWins_rests | with_reducible refine RestsAns.ite ?_ ?_ | with_reducible refine Rests.ite ?_ ?_ | (with_reducible apply Rests.upd; with_reducible assumption)

theorem State.unclaim_rests {s₀ s : State} (h : Rests s₀ s) : Rests s₀ (State.unclaim s) := by
  unfold State.unclaim
  try dsimp only
  repeat' first | with_reducible assumption | with_reducible refine Rests.ite ?_ ?_ | split | (with_reducible apply Rests.upd; with_reducible assumption)

theorem State.classStart_rests {s₀ s : State} (h : Rests s₀ s) (c : Nat) : Rests s₀ (State.classStart s c) := by
  unfold State.classStart
  repeat' first | (extract_lets +onlyGivenNames z; first | (refine Rests.cut (s₀ := s₀) z ?_ ?_; rotate_left; clear_value z; intro hz; rotate_left; subst z) | clear_value z) | with_reducible assumption | with_reducible apply State.unclaim_rests | with_reducible apply State.setF_rests | with_reducible apply State.askSpeed_rests | with_reducible apply State.pf_rests | with_reducible apply State.setPoly_rests | with_reducible apply State.scaleTaps_rests | with_reducible apply State.retunePlls_rests | with_reducible apply State.sendBdWins_rests | (with_reducible apply Rests.foldl; intro _ _ _) | with_reducible refine Rests.ite ?_ ?_ | (with_reducible apply Rests.upd; with_reducible assumption)

theorem execClassChangeStart_rests {s₀ s : State} (h : Rests s₀ s) : RestsAns s₀ (execClassChangeStart s) := by
  unfold execClassChangeStart
  try dsimp only
  repeat' first | with_reducible assumption | with_reducible apply RestsAns.next | with_reducible apply State.classStart_rests | with_reducible refine RestsAns.ite ?_ ?_ | with_reducible refine Rests.ite ?_ ?_ | (with_reducible apply Rests.upd; with_reducible assumption)

theorem State.settle_rests {s₀ s : State} (h : Rests s₀ s) : Rests s₀ (State.settle s) := by
  unfold State.settle
  repeat' first | (extract_lets +onlyGivenNames z; first | (refine Rests.cut (s₀ := s₀) z ?_ ?_; rotate_left; clear_value z; intro hz; rotate_left; subst z) | clear_value z) | with_reducible assumption | with_reducible apply State.setF_rests | with_reducible apply State.setClass_rests | with_reducible apply State.setB_rests | with_reducible apply State.nameReserve_rests | with_reducible apply State.claims_rests | with_reducible refine Rests.ite ?_ ?_ | split | (with_reducible apply Rests.upd; with_reducible assumption)

theorem execClassSettled_rests {s₀ s : State} (h : Rests s₀ s) : RestsAns s₀ (execClassSettled s) := by
  unfold execClassSettled
  repeat' first | (extract_lets +onlyGivenNames z; first | (refine Rests.cut (s₀ := s₀) z ?_ ?_; rotate_left; clear_value z; intro hz; rotate_left; subst z) | clear_value z) | with_reducible assumption | with_reducible apply RestsAns.next | with_reducible apply State.settle_rests | with_reducible refine RestsAns.ite ?_ ?_ | with_reducible refine Rests.ite ?_ ?_ | (with_reducible apply Rests.upd; with_reducible assumption)

theorem execClassRampTimeout_rests {s₀ s : State} (h : Rests s₀ s) : RestsAns s₀ (execClassRampTimeout s) := by
  unfold execClassRampTimeout
  repeat' first | with_reducible assumption | with_reducible apply RestsAns.next | with_reducible apply State.report_rests | with_reducible refine RestsAns.ite ?_ ?_ | with_reducible refine Rests.ite ?_ ?_

theorem State.portGuard_rests {s₀ s t : State} {bl : Nat} {off : Nat} {value : Nat} (h : Rests s₀ s) (e : State.portGuard s bl off value = some t) : Rests s₀ t := by
  unfold State.portGuard at e
  repeat' first | (split at e) | (simp only [Option.some.injEq] at e) | (simp only [reduceCtorEq] at e) | subst e
  all_goals (repeat' first | with_reducible assumption | with_reducible apply State.darkWrite_rests | with_reducible apply State.reportAccess_rests | with_reducible refine Rests.ite ?_ ?_ | (simp only [Option.some.injEq, reduceCtorEq] at e))

theorem execBlEnable_rests {s₀ s : State} (h : Rests s₀ s) (bl : Nat) : RestsAns s₀ (execBlEnable bl s) := by
  unfold execBlEnable
  repeat' first | with_reducible assumption | with_reducible apply RestsAns.next | (refine State.portGuard_rests ?_ (by assumption)) | with_reducible apply State.setF_rests | with_reducible apply State.retrain_rests | with_reducible refine RestsAns.ite ?_ ?_ | with_reducible refine Rests.ite ?_ ?_ | split

theorem execBlDisable_rests {s₀ s : State} (h : Rests s₀ s) (bl : Nat) : RestsAns s₀ (execBlDisable bl s) := by
  unfold execBlDisable
  repeat' first | (extract_lets +onlyGivenNames z; first | (refine Rests.cut (s₀ := s₀) z ?_ ?_; rotate_left; clear_value z; intro hz; rotate_left; subst z) | clear_value z) | with_reducible assumption | with_reducible apply RestsAns.next | (refine State.portGuard_rests ?_ (by assumption)) | with_reducible apply State.setF_rests | with_reducible apply State.modPort_rests | with_reducible apply State.setBl_rests | with_reducible refine RestsAns.ite ?_ ?_ | with_reducible refine Rests.ite ?_ ?_ | split | (with_reducible apply Rests.upd; with_reducible assumption)

theorem execBlRetrain_rests {s₀ s : State} (h : Rests s₀ s) (bl : Nat) : RestsAns s₀ (execBlRetrain bl s) := by
  unfold execBlRetrain
  repeat' first | with_reducible assumption | with_reducible apply RestsAns.next | (refine State.portGuard_rests ?_ (by assumption)) | with_reducible apply State.retrain_rests | with_reducible refine RestsAns.ite ?_ ?_ | with_reducible refine Rests.ite ?_ ?_ | split

theorem execBlTrainAlign_rests {s₀ s : State} (h : Rests s₀ s) (bl : Nat) : RestsAns s₀ (execBlTrainAlign bl s) := by
  unfold execBlTrainAlign
  repeat' first | with_reducible assumption | with_reducible apply RestsAns.next | with_reducible apply State.setBl_rests | with_reducible refine RestsAns.ite ?_ ?_ | with_reducible refine Rests.ite ?_ ?_

theorem execBlTrainPoll_rests {s₀ s : State} (h : Rests s₀ s) (bl : Nat) : RestsAns s₀ (execBlTrainPoll bl s) := by
  unfold execBlTrainPoll
  repeat' first | with_reducible assumption | with_reducible apply RestsAns.next | with_reducible apply State.queuePoll_rests | with_reducible refine RestsAns.ite ?_ ?_ | with_reducible refine Rests.ite ?_ ?_

theorem execBlTrainTimeout_rests {s₀ s : State} (h : Rests s₀ s) (bl : Nat) : RestsAns s₀ (execBlTrainTimeout bl s) := by
  unfold execBlTrainTimeout
  repeat' first | (extract_lets +onlyGivenNames z; first | (refine Rests.cut (s₀ := s₀) z ?_ ?_; rotate_left; clear_value z; intro hz; rotate_left; subst z) | clear_value z) | with_reducible assumption | with_reducible apply RestsAns.next | with_reducible apply State.satInc_rests | with_reducible apply State.setF_rests | with_reducible apply State.setPort_rests | with_reducible apply State.train_rests | with_reducible apply State.setBl_rests | with_reducible apply State.scnReport_rests | with_reducible apply State.report_rests | with_reducible refine RestsAns.ite ?_ ?_ | with_reducible refine Rests.ite ?_ ?_ | split | (with_reducible apply Rests.upd; with_reducible assumption)

theorem execLinkPoll_rests {s₀ s : State} (h : Rests s₀ s) (bl : Nat) : RestsAns s₀ (execLinkPoll bl s) := by
  unfold execLinkPoll
  repeat' first | with_reducible assumption | with_reducible apply RestsAns.next | with_reducible apply State.queuePoll_rests | with_reducible refine RestsAns.ite ?_ ?_ | with_reducible refine Rests.ite ?_ ?_

theorem execSidebandTransaction_rests {s₀ s : State} (h : Rests s₀ s) (bl : Nat) : RestsAns s₀ (execSidebandTransaction bl s) := by
  unfold execSidebandTransaction
  try dsimp only
  repeat' first | with_reducible assumption | with_reducible apply RestsAns.next | with_reducible apply State.setPort_rests | with_reducible apply State.noteSent_rests | with_reducible apply State.emit_rests | with_reducible refine RestsAns.ite ?_ ?_ | with_reducible refine Rests.ite ?_ ?_ | split | (with_reducible apply Rests.upd; with_reducible assumption)

theorem execSidebandResponse_rests {s₀ s : State} (h : Rests s₀ s) (bl : Nat) (data : List (BitVec 8)) : RestsAns s₀ (execSidebandResponse bl data s) := by
  unfold execSidebandResponse
  try dsimp only
  repeat' first | with_reducible assumption | with_reducible apply RestsAns.next | with_reducible apply State.setPort_rests | with_reducible apply State.readDone_rests | with_reducible apply State.sbFailed_rests | with_reducible refine RestsAns.ite ?_ ?_ | with_reducible refine Rests.ite ?_ ?_ | split | (with_reducible apply Rests.upd; with_reducible assumption)

theorem execSidebandTimeout_rests {s₀ s : State} (h : Rests s₀ s) (bl : Nat) : RestsAns s₀ (execSidebandTimeout bl s) := by
  unfold execSidebandTimeout
  repeat' first | with_reducible assumption | with_reducible apply RestsAns.next | with_reducible apply State.sbFailed_rests | with_reducible refine RestsAns.ite ?_ ?_ | with_reducible refine Rests.ite ?_ ?_

theorem execSidebandBusyRetry_rests {s₀ s : State} (h : Rests s₀ s) (bl : Nat) : RestsAns s₀ (execSidebandBusyRetry bl s) := by
  unfold execSidebandBusyRetry
  try dsimp only
  repeat' first | with_reducible assumption | with_reducible apply RestsAns.next | with_reducible apply State.setPort_rests | with_reducible apply State.emit_rests | with_reducible refine RestsAns.ite ?_ ?_ | with_reducible refine Rests.ite ?_ ?_ | split | (with_reducible apply Rests.upd; with_reducible assumption)

theorem execRouteWrite_rests {s₀ s : State} (h : Rests s₀ s) (st : Nat) (value : BitVec 32) : RestsAns s₀ (execRouteWrite st value s) := by
  unfold execRouteWrite
  try dsimp only
  repeat' first | with_reducible assumption | with_reducible apply RestsAns.next | with_reducible apply State.darkWrite_rests | with_reducible apply State.reportAccess_rests | with_reducible apply State.raise_rests | with_reducible apply State.setF_rests | with_reducible apply State.setB_rests | with_reducible refine RestsAns.ite ?_ ?_ | with_reducible refine Rests.ite ?_ ?_

theorem State.takeRoute_rests {s₀ s : State} (h : Rests s₀ s) (st : Nat) : Rests s₀ (State.takeRoute s st) := by
  unfold State.takeRoute
  try dsimp only
  repeat' first | with_reducible assumption | with_reducible apply State.setF_rests | with_reducible apply State.takeShadow_rests | with_reducible apply State.pf_rests | with_reducible apply State.readHead_rests | with_reducible refine Rests.ite ?_ ?_

theorem State.applyRoutes_rests {s₀ s : State} (h : Rests s₀ s) : Rests s₀ (State.applyRoutes s) := by
  unfold State.applyRoutes
  try dsimp only
  repeat' first | with_reducible assumption | with_reducible apply State.takeRoute_rests | (with_reducible apply Rests.foldl; intro _ _ _)

theorem execRouteExchangeApply_rests {s₀ s : State} (h : Rests s₀ s) : RestsAns s₀ (execRouteExchangeApply s) := by
  unfold execRouteExchangeApply
  repeat' first | with_reducible assumption | with_reducible apply RestsAns.next | with_reducible apply State.applyRoutes_rests

theorem execOffsetWrite_rests {s₀ s : State} (h : Rests s₀ s) (st : Nat) (value : BitVec 32) : RestsAns s₀ (execOffsetWrite st value s) := by
  unfold execOffsetWrite
  try dsimp only
  repeat' first | with_reducible assumption | with_reducible apply RestsAns.next | with_reducible apply State.darkWrite_rests | with_reducible apply State.reportAccess_rests | with_reducible apply State.setF_rests | with_reducible apply State.askMove_rests | with_reducible apply State.touch_rests | with_reducible refine RestsAns.ite ?_ ?_ | with_reducible refine Rests.ite ?_ ?_

theorem execCalrefOkChange_rests {s₀ s : State} (h : Rests s₀ s) (present : Bool) (err : BitVec 16) : RestsAns s₀ (execCalrefOkChange present err s) := by
  unfold execCalrefOkChange
  repeat' first | (extract_lets +onlyGivenNames z; first | (refine Rests.cut (s₀ := s₀) z ?_ ?_; rotate_left; clear_value z; intro hz; rotate_left; subst z) | clear_value z) | with_reducible assumption | with_reducible apply RestsAns.next | with_reducible apply State.setB_rests | with_reducible apply State.setF_rests | with_reducible apply State.report_rests | with_reducible refine RestsAns.ite ?_ ?_ | with_reducible refine Rests.ite ?_ ?_ | (with_reducible apply Rests.upd; with_reducible assumption)

end Sys2Proof.Machine
end

