-- ==== Sys2Proof/Laws/RestGap.lean ====
section
/-! SUPPORT. Which operations of Machine/Gap.lean leave the memories as they are (Laws/Rest.lean). -/
namespace Sys2Proof.Machine
set_option Elab.async false
set_option linter.all false

theorem State.startMove_rests {s₀ s : State} (h : Rests s₀ s) (st : Nat) (d : Int) : Rests s₀ (State.startMove s st d) := by
  unfold State.startMove
  repeat' first | (extract_lets +onlyGivenNames z; first | (refine Rests.cut (s₀ := s₀) z ?_ ?_; rotate_left; clear_value z; intro hz; rotate_left; subst z) | clear_value z) | with_reducible assumption | with_reducible apply State.modScnSt_rests | with_reducible apply State.setF_rests | with_reducible refine Rests.ite ?_ ?_ | (with_reducible apply Rests.upd; with_reducible assumption)

theorem State.gapMove_rests {s₀ s : State} (h : Rests s₀ s) (st : Nat) : Rests s₀ (State.gapMove s st) := by
  unfold State.gapMove
  try dsimp only
  repeat' first | with_reducible assumption | with_reducible apply State.applyMove_rests | with_reducible apply State.modScnSt_rests | with_reducible apply State.startMove_rests | with_reducible refine Rests.ite ?_ ?_ | split | (with_reducible apply Rests.upd; with_reducible assumption)

theorem State.takeTables_rests {s₀ s : State} (h : Rests s₀ s) (st : Nat) : Rests s₀ (State.takeTables s st) := by
  unfold State.takeTables
  repeat' first | (extract_lets +onlyGivenNames z; first | (refine Rests.cut (s₀ := s₀) z ?_ ?_; rotate_left; clear_value z; intro hz; rotate_left; subst z) | clear_value z) | with_reducible assumption | with_reducible apply State.takeShadow_rests | with_reducible apply State.takeShadows_rests | (with_reducible apply Rests.upd; with_reducible assumption)

theorem State.checkOffsets_rests {s₀ s : State} (h : Rests s₀ s) (st : Nat) : Rests s₀ (State.checkOffsets s st) := by
  unfold State.checkOffsets
  try dsimp only
  repeat' first | with_reducible assumption | with_reducible apply State.raise_rests | with_reducible apply State.modScnSt_rests | with_reducible apply State.scnReport_rests | with_reducible refine Rests.ite ?_ ?_ | split | (with_reducible apply Rests.upd; with_reducible assumption)

theorem execPageGapOpen_rests {s₀ s : State} (h : Rests s₀ s) (st : Nat) : RestsAns s₀ (execPageGapOpen st s) := by
  unfold execPageGapOpen
  repeat' first | (extract_lets +onlyGivenNames z; first | (refine Rests.cut (s₀ := s₀) z ?_ ?_; rotate_left; clear_value z; intro hz; rotate_left; subst z) | clear_value z) | with_reducible assumption | with_reducible apply RestsAns.next | with_reducible apply State.corrGap_rests | with_reducible apply State.applyLog_rests | with_reducible apply State.takeTables_rests | with_reducible apply State.takeExposure_rests | with_reducible apply State.gapMove_rests | with_reducible apply State.coverFrom_rests | with_reducible apply State.applyRoutes_rests | with_reducible apply State.checkOffsets_rests | with_reducible apply State.sendCur_rests | with_reducible apply State.stepTaps_rests | with_reducible apply State.takeCal_rests | with_reducible apply State.retrain_rests | with_reducible refine RestsAns.ite ?_ ?_ | with_reducible refine Rests.ite ?_ ?_ | split

end Sys2Proof.Machine
end

