-- ==== Sys2Proof/Laws/RestEctOps.lean ====
section
/-! SUPPORT. Which operations of Machine/EctOps.lean leave the memories as they are (Laws/Rest.lean). -/
namespace Sys2Proof.Machine
set_option Elab.async false
set_option linter.all false

theorem State.ectReport_rests {s₀ s : State} (h : Rests s₀ s) (cls : Nat) (cause : Nat) : Rests s₀ (State.ectReport s cls cause) := by
  unfold State.ectReport
  repeat' first | with_reducible assumption | with_reducible apply State.report_rests

theorem State.setAl_rests {s₀ s : State} (h : Rests s₀ s) (v : Nat) (code : Nat) : Rests s₀ (State.setAl s v code) := by
  unfold State.setAl
  try dsimp only
  repeat' first | with_reducible assumption | with_reducible apply State.setF_rests | with_reducible apply State.setB_rests | with_reducible apply State.pf_rests | with_reducible refine Rests.ite ?_ ?_

theorem State.linkTo_rests {s₀ s : State} (h : Rests s₀ s) (x : Fld) (up : Bool) : Rests s₀ (State.linkTo s x up) := by
  unfold State.linkTo
  repeat' first | with_reducible assumption | with_reducible apply State.setB_rests | with_reducible apply State.pf_rests | with_reducible refine Rests.ite ?_ ?_

theorem State.pdoLost_rests {s₀ s : State} (h : Rests s₀ s) : Rests s₀ (State.pdoLost s) := by
  unfold State.pdoLost
  try dsimp only
  repeat' first | with_reducible assumption | with_reducible apply State.satInc_rests | with_reducible apply State.ectReport_rests | with_reducible refine Rests.ite ?_ ?_

theorem State.dropCoe_rests {s₀ s : State} (h : Rests s₀ s) : Rests s₀ (State.dropCoe s) := by
  unfold State.dropCoe
  try dsimp only
  repeat' first | with_reducible assumption | with_reducible refine Rests.ite ?_ ?_ | (with_reducible apply Rests.upd; with_reducible assumption)

theorem State.alDrop_rests {s₀ s : State} (h : Rests s₀ s) (v : Nat) (code : Nat) : Rests s₀ (State.alDrop s v code) := by
  unfold State.alDrop
  repeat' first | (extract_lets +onlyGivenNames z; first | (refine Rests.cut (s₀ := s₀) z ?_ ?_; rotate_left; clear_value z; intro hz; rotate_left; subst z) | clear_value z) | with_reducible assumption | with_reducible apply State.setAl_rests | with_reducible apply State.pdoLost_rests | with_reducible apply State.setF_rests | with_reducible apply State.dropCoe_rests | with_reducible refine Rests.ite ?_ ?_

theorem State.alSleep_rests {s₀ s : State} (h : Rests s₀ s) : Rests s₀ (State.alSleep s) := by
  unfold State.alSleep
  repeat' first | with_reducible assumption | with_reducible apply State.alDrop_rests | with_reducible refine Rests.ite ?_ ?_

end Sys2Proof.Machine
end

