-- ==== Sys2Proof/Laws/RestEncoders.lean ====
section
/-! SUPPORT. Which operations of Machine/Encoders.lean leave the memories as they are (Laws/Rest.lean). -/
namespace Sys2Proof.Machine
set_option Elab.async false
set_option linter.all false

theorem State.blend_rests {s₀ s : State} (h : Rests s₀ s) (hit : Nat → Bool) : Rests s₀ (State.blend s hit) := by
  unfold State.blend
  repeat' first | (extract_lets +onlyGivenNames z; first | (refine Rests.cut (s₀ := s₀) z ?_ ?_; rotate_left; clear_value z; intro hz; rotate_left; subst z) | clear_value z) | with_reducible assumption | with_reducible apply State.modScnSt_rests | with_reducible apply State.drew_rests | (with_reducible apply Rests.foldl; intro _ _ _) | with_reducible refine Rests.ite ?_ ?_ | (with_reducible apply Rests.upd; with_reducible assumption)

theorem State.moveWeb_rests {s₀ s : State} (h : Rests s₀ s) (d : Int) : Rests s₀ (State.moveWeb s d) := by
  unfold State.moveWeb
  try dsimp only
  repeat' first | with_reducible assumption | with_reducible apply State.set64_rests | with_reducible apply State.syncSpeed_rests | (with_reducible apply Rests.upd; with_reducible assumption)

theorem State.trackCount_rests {s₀ s : State} (h : Rests s₀ s) (n : Nat) (d : Int) : Rests s₀ (State.trackCount s n d) := by
  unfold State.trackCount
  try dsimp only
  repeat' first | with_reducible assumption | with_reducible apply State.moveWeb_rests | with_reducible apply State.blend_rests | with_reducible refine Rests.ite ?_ ?_

theorem State.turnoutCount_rests {s₀ s : State} (h : Rests s₀ s) (n : Nat) (d : Int) : Rests s₀ (State.turnoutCount s n d) := by
  unfold State.turnoutCount
  try dsimp only
  repeat' first | with_reducible assumption | with_reducible apply State.setI32_rests | with_reducible apply State.event_rests | (with_reducible apply Rests.foldl; intro _ _ _) | with_reducible refine Rests.ite ?_ ?_

theorem execEncoderCount_rests {s₀ s : State} (h : Rests s₀ s) (n : Nat) (a : Bool) (b : Bool) : RestsAns s₀ (execEncoderCount n a b s) := by
  unfold execEncoderCount
  repeat' first | (extract_lets +onlyGivenNames z; first | (refine Rests.cut (s₀ := s₀) z ?_ ?_; rotate_left; clear_value z; intro hz; rotate_left; subst z) | clear_value z) | with_reducible assumption | with_reducible apply RestsAns.next | with_reducible apply State.setEncIn_rests | with_reducible apply State.satInc_rests | with_reducible apply State.axFault_rests | with_reducible apply State.turnoutCount_rests | with_reducible apply State.trackCount_rests | with_reducible apply State.axShowEnc_rests | (with_reducible apply Rests.foldl; intro _ _ _) | with_reducible refine RestsAns.ite ?_ ?_ | with_reducible refine Rests.ite ?_ ?_ | (with_reducible apply Rests.upd; with_reducible assumption)

end Sys2Proof.Machine
end

