-- ==== Sys2Proof/Laws/RestSafe.lean ====
section
/-! SUPPORT. Which operations of Machine/Safe.lean leave the memories as they are (Laws/Rest.lean). -/
namespace Sys2Proof.Machine
set_option Elab.async false
set_option linter.all false

theorem State.lastWord_rests {s₀ s : State} (h : Rests s₀ s) (source : Nat) (cause : Nat) (p0 : Nat) (p1 : Nat) (p2 : Nat) (severity : Nat) (master : Nat) (access : Nat) : Rests s₀ (State.lastWord s source cause p0 p1 p2 severity master access) := by
  unfold State.lastWord
  try dsimp only
  repeat' first | with_reducible assumption | with_reducible apply State.setF_rests | (with_reducible apply Rests.upd; with_reducible assumption)

theorem State.setHdgSt_rests {s₀ s : State} (h : Rests s₀ s) (st : Nat) (x : HdgSt) : Rests s₀ (State.setHdgSt s st x) := by
  unfold State.setHdgSt
  try dsimp only
  repeat' first | with_reducible assumption | (with_reducible apply Rests.upd; with_reducible assumption)

theorem State.laserSync_rests {s₀ s : State} (h : Rests s₀ s) (st : Nat) : Rests s₀ (State.laserSync s st) := by
  unfold State.laserSync
  try dsimp only
  repeat' first | with_reducible assumption | with_reducible apply State.setB_rests | with_reducible apply State.drivePin_rests | with_reducible apply State.setF_rests

theorem State.hdgSync_rests {s₀ s : State} (h : Rests s₀ s) : Rests s₀ (State.hdgSync s) := by
  unfold State.hdgSync
  repeat' first | (extract_lets +onlyGivenNames z; first | (refine Rests.cut (s₀ := s₀) z ?_ ?_; rotate_left; clear_value z; intro hz; rotate_left; subst z) | clear_value z) | with_reducible assumption | with_reducible apply State.laserSync_rests | with_reducible apply State.drivePin_rests | with_reducible apply State.setB_rests | (with_reducible apply Rests.foldl; intro _ _ _)

theorem State.aliveStop_rests {s₀ s : State} (h : Rests s₀ s) : Rests s₀ (State.aliveStop s) := by
  unfold State.aliveStop
  repeat' first | (extract_lets +onlyGivenNames z; first | (refine Rests.cut (s₀ := s₀) z ?_ ?_; rotate_left; clear_value z; intro hz; rotate_left; subst z) | clear_value z) | with_reducible assumption | with_reducible apply State.drivePin_rests | (with_reducible apply Rests.upd; with_reducible assumption)

theorem State.setPower_rests {s₀ s : State} (h : Rests s₀ s) (p : Nat) : Rests s₀ (State.setPower s p) := by
  unfold State.setPower
  try dsimp only
  repeat' first | with_reducible assumption | with_reducible apply State.setF_rests | with_reducible apply State.hdgSync_rests | with_reducible apply State.aliveStop_rests | with_reducible apply State.pf_rests | with_reducible refine Rests.ite ?_ ?_

theorem State.stageTo_rests {s₀ s : State} (h : Rests s₀ s) (n : Nat) : Rests s₀ (State.stageTo s n) := by
  unfold State.stageTo
  repeat' first | with_reducible assumption | with_reducible apply State.setF_rests

theorem State.setPmicEn_rests {s₀ s : State} (h : Rests s₀ s) (i : Nat) (v : Bool) : Rests s₀ (State.setPmicEn s i v) := by
  unfold State.setPmicEn
  repeat' first | with_reducible assumption | with_reducible apply State.drivePin_rests | with_reducible apply State.setF_rests

theorem State.pmicOff_rests {s₀ s : State} (h : Rests s₀ s) : Rests s₀ (State.pmicOff s) := by
  unfold State.pmicOff
  repeat' first | with_reducible assumption | with_reducible apply State.setPmicEn_rests | (with_reducible apply Rests.foldl; intro _ _ _)

end Sys2Proof.Machine
end

