-- ==== Sys2Proof/Laws/RestRails.lean ====
section
/-! SUPPORT. Which operations of Machine/Rails.lean leave the memories as they are (Laws/Rest.lean). -/
namespace Sys2Proof.Machine
set_option Elab.async false
set_option linter.all false

theorem State.setRail_rests {s₀ s : State} (h : Rests s₀ s) (k : Nat) (r : Rail) : Rests s₀ (State.setRail s k r) := by
  unfold State.setRail
  try dsimp only
  repeat' first | with_reducible assumption | (with_reducible apply Rests.upd; with_reducible assumption)

theorem State.railDrive_rests {s₀ s : State} (h : Rests s₀ s) (k : Nat) (v : Bool) : Rests s₀ (State.railDrive s k v) := by
  unfold State.railDrive
  repeat' first | (extract_lets +onlyGivenNames z; first | (refine Rests.cut (s₀ := s₀) z ?_ ?_; rotate_left; clear_value z; intro hz; rotate_left; subst z) | clear_value z) | with_reducible assumption | with_reducible apply State.emit_rests | with_reducible apply State.setF_rests | with_reducible apply State.setRail_rests | with_reducible apply State.satInc_rests | with_reducible refine Rests.ite ?_ ?_ | (with_reducible apply Rests.upd; with_reducible assumption)

theorem State.railPass_rests {s₀ s : State} (h : Rests s₀ s) (k : Nat) : Rests s₀ (State.railPass s k) := by
  unfold State.railPass
  repeat' first | (extract_lets +onlyGivenNames z; first | (refine Rests.cut (s₀ := s₀) z ?_ ?_; rotate_left; clear_value z; intro hz; rotate_left; subst z) | clear_value z) | with_reducible assumption | with_reducible apply State.setF_rests | with_reducible apply State.raise_rests | with_reducible apply State.report_rests | with_reducible apply State.pf_rests | with_reducible apply State.railDrive_rests | with_reducible apply State.setB_rests | with_reducible refine Rests.ite ?_ ?_

theorem State.railSync_rests {s₀ s : State} (h : Rests s₀ s) : Rests s₀ (State.railSync s) := by
  unfold State.railSync
  repeat' first | with_reducible assumption | with_reducible apply State.railPass_rests | (with_reducible apply Rests.foldl; intro _ _ _)

theorem State.railFault_rests {s₀ s : State} (h : Rests s₀ s) (k : Nat) (cause : Nat) : Rests s₀ (State.railFault s k cause) := by
  unfold State.railFault
  try dsimp only
  repeat' first | with_reducible assumption | with_reducible apply State.report_rests | with_reducible apply State.pf_rests | with_reducible apply State.setF_rests | with_reducible refine Rests.ite ?_ ?_

theorem State.railWarn_rests {s₀ s : State} (h : Rests s₀ s) (k : Nat) : Rests s₀ (State.railWarn s k) := by
  unfold State.railWarn
  repeat' first | with_reducible assumption | with_reducible apply State.satInc_rests | with_reducible apply State.report_rests | with_reducible apply State.pf_rests

theorem State.railCheck_rests {s₀ s : State} (h : Rests s₀ s) (k : Nat) (v : Nat) : Rests s₀ (State.railCheck s k v) := by
  unfold State.railCheck
  repeat' first | (extract_lets +onlyGivenNames z; first | (refine Rests.cut (s₀ := s₀) z ?_ ?_; rotate_left; clear_value z; intro hz; rotate_left; subst z) | (have _f := fun a => z a; clear _f; subst z; try dsimp -zeta only) | clear_value z) | with_reducible assumption | with_reducible apply State.setRail_rests | with_reducible apply State.railWarn_rests | with_reducible apply State.satInc_rests | with_reducible apply State.railFault_rests | with_reducible refine Rests.ite ?_ ?_ | (with_reducible apply Rests.upd; with_reducible assumption)

theorem execRailMonitorReading_rests {s₀ s : State} (h : Rests s₀ s) (codes : List (BitVec 12)) : RestsAns s₀ (execRailMonitorReading codes s) := by
  unfold execRailMonitorReading
  repeat' first | (extract_lets +onlyGivenNames z; first | (refine Rests.cut (s₀ := s₀) z ?_ ?_; rotate_left; clear_value z; intro hz; rotate_left; subst z) | clear_value z) | with_reducible assumption | with_reducible apply RestsAns.next | with_reducible apply State.setF_rests | with_reducible apply State.railCheck_rests | with_reducible apply State.railSync_rests | (with_reducible apply Rests.foldl; intro _ _ _) | with_reducible refine RestsAns.ite ?_ ?_ | with_reducible refine Rests.ite ?_ ?_

theorem execRailPgDrop_rests {s₀ s : State} (h : Rests s₀ s) (k : Nat) : RestsAns s₀ (execRailPgDrop k s) := by
  unfold execRailPgDrop
  repeat' first | (extract_lets +onlyGivenNames z; first | (refine Rests.cut (s₀ := s₀) z ?_ ?_; rotate_left; clear_value z; intro hz; rotate_left; subst z) | clear_value z) | with_reducible assumption | with_reducible apply RestsAns.next | with_reducible apply State.setF_rests | with_reducible apply State.setRail_rests | with_reducible apply State.satInc_rests | with_reducible apply State.railFault_rests | with_reducible apply State.railSync_rests | with_reducible refine RestsAns.ite ?_ ?_ | with_reducible refine Rests.ite ?_ ?_ | (with_reducible apply Rests.upd; with_reducible assumption)

theorem execRailPgRise_rests {s₀ s : State} (h : Rests s₀ s) (k : Nat) : RestsAns s₀ (execRailPgRise k s) := by
  unfold execRailPgRise
  try dsimp only
  repeat' first | with_reducible assumption | with_reducible apply RestsAns.next | with_reducible apply State.setF_rests | with_reducible apply State.setRail_rests | with_reducible apply State.railSync_rests | with_reducible refine RestsAns.ite ?_ ?_ | with_reducible refine Rests.ite ?_ ?_ | (with_reducible apply Rests.upd; with_reducible assumption)

theorem execRailBlankEnd_rests {s₀ s : State} (h : Rests s₀ s) (k : Nat) : RestsAns s₀ (execRailBlankEnd k s) := by
  unfold execRailBlankEnd
  try dsimp only
  repeat' first | with_reducible assumption | with_reducible apply RestsAns.next | with_reducible apply State.setRail_rests | with_reducible apply State.railSync_rests | with_reducible refine RestsAns.ite ?_ ?_ | with_reducible refine Rests.ite ?_ ?_ | (with_reducible apply Rests.upd; with_reducible assumption)

theorem State.railsOff_rests {s₀ s : State} (h : Rests s₀ s) : Rests s₀ (State.railsOff s) := by
  unfold State.railsOff
  repeat' first | with_reducible assumption | with_reducible apply State.setF_rests | with_reducible apply State.railSync_rests

end Sys2Proof.Machine
end

