-- ==== Sys2Proof/Laws/RestTurnout.lean ====
section
/-! SUPPORT. Which operations of Machine/Turnout.lean leave the memories as they are (Laws/Rest.lean). -/
namespace Sys2Proof.Machine
set_option Elab.async false
set_option linter.all false

theorem State.syncOvf_rests {s₀ s : State} (h : Rests s₀ s) : Rests s₀ (State.syncOvf s) := by
  unfold State.syncOvf
  repeat' first | with_reducible assumption | with_reducible apply State.setB_rests

theorem State.countTask_rests {s₀ s : State} (h : Rests s₀ s) (tk : Nat) (n : Nat) : Rests s₀ (State.countTask s tk n) := by
  unfold State.countTask
  repeat' first | (extract_lets +onlyGivenNames z; first | (refine Rests.cut (s₀ := s₀) z ?_ ?_; rotate_left; clear_value z; intro hz; rotate_left; subst z) | clear_value z) | with_reducible assumption | with_reducible apply State.mark_rests | with_reducible apply State.wrapInc_rests | with_reducible apply State.set64_rests | with_reducible apply State.setF_rests | with_reducible apply State.raise_rests | with_reducible apply State.satInc_rests | with_reducible apply State.report_rests | with_reducible apply State.syncOvf_rests | with_reducible apply State.pf_rests | (with_reducible apply Rests.foldl; intro _ _ _) | with_reducible refine Rests.ite ?_ ?_ | (with_reducible apply Rests.upd; with_reducible assumption)

theorem execTurnoutRound_rests {s₀ s : State} (h : Rests s₀ s) : RestsAns s₀ (execTurnoutRound s) := by
  unfold execTurnoutRound
  try dsimp only
  repeat' first | with_reducible assumption | with_reducible apply RestsAns.next | with_reducible apply State.countTask_rests | (with_reducible apply Rests.foldl; intro _ _ _) | with_reducible refine RestsAns.ite ?_ ?_ | with_reducible refine Rests.ite ?_ ?_ | (with_reducible apply Rests.upd; with_reducible assumption)

theorem State.trnSleep_rests {s₀ s : State} (h : Rests s₀ s) : Rests s₀ (State.trnSleep s) := by
  unfold State.trnSleep
  repeat' first | (extract_lets +onlyGivenNames z; first | (refine Rests.cut (s₀ := s₀) z ?_ ?_; rotate_left; clear_value z; intro hz; rotate_left; subst z) | clear_value z) | with_reducible assumption | with_reducible apply State.setF_rests | (with_reducible apply Rests.foldl; intro _ _ _) | with_reducible refine Rests.ite ?_ ?_ | (with_reducible apply Rests.upd; with_reducible assumption)

theorem State.task_rests {s₀ s : State} (h : Rests s₀ s) (tk : Nat) (g : State → State) (hg : ∀ t, Rests s₀ t → Rests s₀ (g t)) : RestsAns s₀ (State.task s tk g) := by
  unfold State.task
  try dsimp only
  repeat' first | with_reducible assumption | with_reducible apply RestsAns.next | with_reducible apply hg | with_reducible apply State.setF_rests | with_reducible refine RestsAns.ite ?_ ?_ | with_reducible refine Rests.ite ?_ ?_

theorem State.axGo_rests {s₀ s : State} (h : Rests s₀ s) (ax : Nat) : Rests s₀ (State.axGo s ax) := by
  unfold State.axGo
  try dsimp only
  repeat' first | with_reducible assumption | with_reducible apply State.unhold_rests | with_reducible apply State.raise_rests | with_reducible apply State.report_rests | with_reducible apply State.axVec_rests | with_reducible apply State.axJog_rests | with_reducible apply State.axMove_rests | with_reducible refine Rests.ite ?_ ?_ | split

theorem execTaskAxGo_rests {s₀ s : State} (h : Rests s₀ s) (ax : Nat) : RestsAns s₀ (execTaskAxGo ax s) := by
  unfold execTaskAxGo
  repeat' first | with_reducible assumption | with_reducible apply RestsAns.next | with_reducible apply State.task_rests | with_reducible apply State.axGo_rests | with_reducible refine RestsAns.ite ?_ ?_ | with_reducible refine Rests.ite ?_ ?_ | intro _ _

theorem execTaskAxStop_rests {s₀ s : State} (h : Rests s₀ s) (ax : Nat) : RestsAns s₀ (execTaskAxStop ax s) := by
  unfold execTaskAxStop
  repeat' first | with_reducible assumption | with_reducible apply RestsAns.next | with_reducible apply State.task_rests | with_reducible apply State.axStopCmd_rests | with_reducible refine RestsAns.ite ?_ ?_ | with_reducible refine Rests.ite ?_ ?_ | intro _ _

theorem execTaskAxQstop_rests {s₀ s : State} (h : Rests s₀ s) (ax : Nat) : RestsAns s₀ (execTaskAxQstop ax s) := by
  unfold execTaskAxQstop
  repeat' first | with_reducible assumption | with_reducible apply RestsAns.next | with_reducible apply State.task_rests | with_reducible apply State.axQstopCmd_rests | with_reducible refine RestsAns.ite ?_ ?_ | with_reducible refine Rests.ite ?_ ?_ | intro _ _

theorem execTaskAxCapture_rests {s₀ s : State} (h : Rests s₀ s) (ax : Nat) : RestsAns s₀ (execTaskAxCapture ax s) := by
  unfold execTaskAxCapture
  repeat' first | with_reducible assumption | with_reducible apply RestsAns.next | with_reducible apply State.task_rests | with_reducible apply State.setI32_rests | with_reducible apply State.setWord_rests | with_reducible refine RestsAns.ite ?_ ?_ | with_reducible refine Rests.ite ?_ ?_ | intro _ _

theorem execTaskLoopIndex_rests {s₀ s : State} (h : Rests s₀ s) (lp : Nat) : RestsAns s₀ (execTaskLoopIndex lp s) := by
  unfold execTaskLoopIndex
  repeat' first | (extract_lets +onlyGivenNames z; first | (refine Rests.cut (s₀ := s₀) z ?_ ?_; rotate_left; clear_value z; intro hz; rotate_left; subst z) | clear_value z) | with_reducible assumption | with_reducible apply RestsAns.next | with_reducible apply State.task_rests | with_reducible apply State.modLoop_rests | with_reducible refine RestsAns.ite ?_ ?_ | with_reducible refine Rests.ite ?_ ?_ | (with_reducible apply Rests.upd; with_reducible assumption) | intro _ _

theorem execTaskEncCapture_rests {s₀ s : State} (h : Rests s₀ s) (n : Nat) : RestsAns s₀ (execTaskEncCapture n s) := by
  unfold execTaskEncCapture
  repeat' first | with_reducible assumption | with_reducible apply RestsAns.next | with_reducible apply State.task_rests | with_reducible apply State.setWord_rests | with_reducible refine RestsAns.ite ?_ ?_ | with_reducible refine Rests.ite ?_ ?_ | intro _ _

theorem State.startTimer_rests {s₀ s : State} (h : Rests s₀ s) (i : Nat) : Rests s₀ (State.startTimer s i) := by
  unfold State.startTimer
  try dsimp only
  repeat' first | with_reducible assumption | (with_reducible apply Rests.upd; with_reducible assumption)

theorem execTaskTimerStart_rests {s₀ s : State} (h : Rests s₀ s) : RestsAns s₀ (execTaskTimerStart s) := by
  unfold execTaskTimerStart
  repeat' first | with_reducible assumption | with_reducible apply RestsAns.next | with_reducible apply State.task_rests | with_reducible apply State.startTimer_rests | (with_reducible apply Rests.foldl; intro _ _ _) | with_reducible refine RestsAns.ite ?_ ?_ | with_reducible refine Rests.ite ?_ ?_ | intro _ _

theorem execTaskLatPulse_rests {s₀ s : State} (h : Rests s₀ s) (i : Nat) : RestsAns s₀ (execTaskLatPulse i s) := by
  unfold execTaskLatPulse
  try dsimp only
  repeat' first | with_reducible assumption | with_reducible apply RestsAns.next | with_reducible apply State.task_rests | with_reducible apply State.modLatPort_rests | with_reducible refine RestsAns.ite ?_ ?_ | with_reducible refine Rests.ite ?_ ?_ | (with_reducible apply Rests.upd; with_reducible assumption) | intro _ _

theorem State.blankSheet_rests {s₀ s : State} (h : Rests s₀ s) (seq : Nat) (tof : Nat) (rem : Nat) : Rests s₀ (State.blankSheet s seq tof rem) := by
  unfold State.blankSheet
  try dsimp only
  repeat' first | with_reducible assumption | with_reducible apply State.remain_rests | (with_reducible apply Rests.upd; with_reducible assumption)

theorem State.sheetEdge_rests {s₀ s : State} (h : Rests s₀ s) : Rests s₀ (State.sheetEdge s) := by
  unfold State.sheetEdge
  repeat' first | (extract_lets +onlyGivenNames z; first | (refine Rests.cut (s₀ := s₀) z ?_ ?_; rotate_left; clear_value z; intro hz; rotate_left; subst z) | clear_value z) | with_reducible assumption | with_reducible apply State.report_rests | with_reducible apply State.claimLine_rests | with_reducible apply State.claimFrame_rests | with_reducible apply State.modFrame_rests | with_reducible apply State.remain_rests | with_reducible apply State.blankSheet_rests | with_reducible refine Rests.ite ?_ ?_ | split | (with_reducible apply Rests.upd; with_reducible assumption)

theorem execTaskTofCapture_rests {s₀ s : State} (h : Rests s₀ s) : RestsAns s₀ (execTaskTofCapture s) := by
  unfold execTaskTofCapture
  try dsimp only
  repeat' first | with_reducible assumption | with_reducible apply RestsAns.next | with_reducible apply State.task_rests | with_reducible apply State.set64_rests | with_reducible apply State.sheetEdge_rests | with_reducible refine RestsAns.ite ?_ ?_ | with_reducible refine Rests.ite ?_ ?_ | intro _ _

theorem execTaskSwSignal_rests {s₀ s : State} (h : Rests s₀ s) (i : Nat) : RestsAns s₀ (execTaskSwSignal i s) := by
  unfold execTaskSwSignal
  try dsimp only
  repeat' first | with_reducible assumption | with_reducible apply RestsAns.next | with_reducible apply State.pf_rests | with_reducible refine RestsAns.ite ?_ ?_ | with_reducible refine Rests.ite ?_ ?_ | (with_reducible apply Rests.upd; with_reducible assumption)

theorem State.trnGuard_rests {s₀ s t : State} {off : Nat} {value : Nat} (h : Rests s₀ s) (e : State.trnGuard s off value = some t) : Rests s₀ t := by
  unfold State.trnGuard at e
  repeat' first | (split at e) | (simp only [Option.some.injEq] at e) | (simp only [reduceCtorEq] at e) | subst e
  all_goals (repeat' first | with_reducible assumption | with_reducible apply State.darkWrite_rests | with_reducible refine Rests.ite ?_ ?_ | (simp only [Option.some.injEq, reduceCtorEq] at e))

theorem execTaskAck_rests {s₀ s : State} (h : Rests s₀ s) (tk : Nat) (n : Nat) : RestsAns s₀ (execTaskAck tk n s) := by
  unfold execTaskAck
  repeat' first | with_reducible assumption | with_reducible apply RestsAns.next | (refine State.trnGuard_rests ?_ (by assumption)) | with_reducible apply State.raise_rests | with_reducible apply State.setF_rests | with_reducible refine RestsAns.ite ?_ ?_ | with_reducible refine Rests.ite ?_ ?_ | split

theorem execTaskConfigWrite_rests {s₀ s : State} (h : Rests s₀ s) (tk : Nat) (source : Bool) (value : BitVec 32) : RestsAns s₀ (execTaskConfigWrite tk source value s) := by
  unfold execTaskConfigWrite
  repeat' first | (extract_lets +onlyGivenNames z; first | (refine Rests.cut (s₀ := s₀) z ?_ ?_; rotate_left; clear_value z; intro hz; rotate_left; subst z) | clear_value z) | with_reducible assumption | with_reducible apply RestsAns.next | (refine State.trnGuard_rests ?_ (by assumption)) | with_reducible apply State.setWord_rests | with_reducible apply State.setF_rests | with_reducible refine RestsAns.ite ?_ ?_ | with_reducible refine Rests.ite ?_ ?_ | split | (with_reducible apply Rests.upd; with_reducible assumption)

theorem execSwEventRaise_rests {s₀ s : State} (h : Rests s₀ s) (bits : BitVec 8) : RestsAns s₀ (execSwEventRaise bits s) := by
  unfold execSwEventRaise
  repeat' first | with_reducible assumption | with_reducible apply RestsAns.next | (refine State.trnGuard_rests ?_ (by assumption)) | with_reducible apply State.event_rests | (with_reducible apply Rests.foldl; intro _ _ _) | with_reducible refine RestsAns.ite ?_ ?_ | with_reducible refine Rests.ite ?_ ?_ | split

theorem execTimerExpire_rests {s₀ s : State} (h : Rests s₀ s) (i : Nat) : RestsAns s₀ (execTimerExpire i s) := by
  unfold execTimerExpire
  try dsimp only
  repeat' first | with_reducible assumption | with_reducible apply RestsAns.next | with_reducible apply State.event_rests | with_reducible apply State.startTimer_rests | with_reducible apply State.setF_rests | with_reducible refine RestsAns.ite ?_ ?_ | with_reducible refine Rests.ite ?_ ?_

theorem execWebCompareArm_rests {s₀ s : State} (h : Rests s₀ s) (i : Nat) (value : BitVec 32) : RestsAns s₀ (execWebCompareArm i value s) := by
  unfold execWebCompareArm
  repeat' first | (extract_lets +onlyGivenNames z; first | (refine Rests.cut (s₀ := s₀) z ?_ ?_; rotate_left; clear_value z; intro hz; rotate_left; subst z) | clear_value z) | with_reducible assumption | with_reducible apply RestsAns.next | (refine State.trnGuard_rests ?_ (by assumption)) | with_reducible apply State.setWord_rests | with_reducible refine RestsAns.ite ?_ ?_ | with_reducible refine Rests.ite ?_ ?_ | split | (with_reducible apply Rests.upd; with_reducible assumption)

theorem execWebCompareFire_rests {s₀ s : State} (h : Rests s₀ s) (i : Nat) : RestsAns s₀ (execWebCompareFire i s) := by
  unfold execWebCompareFire
  try dsimp only
  repeat' first | with_reducible assumption | with_reducible apply RestsAns.next | with_reducible apply State.event_rests | with_reducible refine RestsAns.ite ?_ ?_ | with_reducible refine Rests.ite ?_ ?_ | (with_reducible apply Rests.upd; with_reducible assumption)

end Sys2Proof.Machine
end

