-- ==== Sys2Proof/Laws/RestPower.lean ====
section
/-! SUPPORT. Which operations of Machine/Power.lean leave the memories as they are (Laws/Rest.lean). -/
namespace Sys2Proof.Machine
set_option Elab.async false
set_option linter.all false

theorem State.closeSession_rests {s₀ s : State} (h : Rests s₀ s) (cause : Nat) : Rests s₀ (State.closeSession s cause) := by
  unfold State.closeSession
  repeat' first | (extract_lets +onlyGivenNames z; first | (refine Rests.cut (s₀ := s₀) z ?_ ?_; rotate_left; clear_value z; intro hz; rotate_left; subst z) | clear_value z) | with_reducible assumption | with_reducible apply State.setF_rests | with_reducible refine Rests.ite ?_ ?_ | (with_reducible apply Rests.upd; with_reducible assumption)

theorem State.stepDone_rests {s₀ s : State} (h : Rests s₀ s) (p : Nat) : Rests s₀ (State.stepDone s p) := by
  unfold State.stepDone
  repeat' first | with_reducible assumption | with_reducible apply State.setF_rests | with_reducible apply State.setPower_rests

theorem State.stepRefused_rests {s₀ s : State} (h : Rests s₀ s) (cause : Nat) : Rests s₀ (State.stepRefused s cause) := by
  unfold State.stepRefused
  repeat' first | with_reducible assumption | with_reducible apply State.raise_rests | with_reducible apply State.setF_rests | with_reducible apply State.pf_rests

theorem State.ringStop_rests {s₀ s : State} (h : Rests s₀ s) : Rests s₀ (State.ringStop s) := by
  unfold State.ringStop
  repeat' first | (extract_lets +onlyGivenNames z; first | (refine Rests.cut (s₀ := s₀) z ?_ ?_; rotate_left; clear_value z; intro hz; rotate_left; subst z) | clear_value z) | with_reducible assumption | with_reducible apply State.setPortState_rests | with_reducible apply State.setF_rests | with_reducible apply State.setCul_rests | with_reducible refine Rests.ite ?_ ?_ | (with_reducible apply Rests.upd; with_reducible assumption)

theorem State.ringStart_rests {s₀ s : State} (h : Rests s₀ s) : Rests s₀ (State.ringStart s) := by
  unfold State.ringStart
  repeat' first | (extract_lets +onlyGivenNames z; first | (refine Rests.cut (s₀ := s₀) z ?_ ?_; rotate_left; clear_value z; intro hz; rotate_left; subst z) | clear_value z) | with_reducible assumption | with_reducible apply State.setPortState_rests | with_reducible apply State.setF_rests | with_reducible apply State.setCul_rests | with_reducible refine Rests.ite ?_ ?_ | (with_reducible apply Rests.upd; with_reducible assumption)

theorem State.linksOff_rests {s₀ s : State} (h : Rests s₀ s) : Rests s₀ (State.linksOff s) := by
  unfold State.linksOff
  repeat' first | (extract_lets +onlyGivenNames z; first | (refine Rests.cut (s₀ := s₀) z ?_ ?_; rotate_left; clear_value z; intro hz; rotate_left; subst z) | clear_value z) | with_reducible assumption | with_reducible apply State.ringStop_rests | with_reducible apply State.flumesOff_rests | with_reducible apply State.modPort_rests | with_reducible apply State.setBl_rests | with_reducible apply State.insLinkDown_rests | (with_reducible apply Rests.foldl; intro _ _ _) | with_reducible refine Rests.ite ?_ ?_ | (with_reducible apply Rests.upd; with_reducible assumption)

theorem State.linksOn_rests {s₀ s : State} (h : Rests s₀ s) : Rests s₀ (State.linksOn s) := by
  unfold State.linksOn
  repeat' first | (extract_lets +onlyGivenNames z; first | (refine Rests.cut (s₀ := s₀) z ?_ ?_; rotate_left; clear_value z; intro hz; rotate_left; subst z) | clear_value z) | with_reducible assumption | with_reducible apply State.startTests_rests | with_reducible apply State.retrain_rests | with_reducible apply State.setInsLink_rests | with_reducible apply State.ringStart_rests | (with_reducible apply Rests.foldl; intro _ _ _) | with_reducible refine Rests.ite ?_ ?_

theorem State.wakeUp_rests {s₀ s : State} (h : Rests s₀ s) : Rests s₀ (State.wakeUp s) := by
  unfold State.wakeUp
  repeat' first | (extract_lets +onlyGivenNames z; first | (refine Rests.cut (s₀ := s₀) z ?_ ?_; rotate_left; clear_value z; intro hz; rotate_left; subst z) | clear_value z) | with_reducible assumption | with_reducible apply State.resumeChannels_rests | with_reducible apply State.spoolStart_rests | with_reducible apply State.refreshRefusal_rests | with_reducible refine Rests.ite ?_ ?_ | (with_reducible apply Rests.upd; with_reducible assumption)

theorem State.seqStart_rests {s₀ s : State} (h : Rests s₀ s) (up : Bool) : Rests s₀ (State.seqStart s up) := by
  unfold State.seqStart
  repeat' first | (extract_lets +onlyGivenNames z; first | (refine Rests.cut (s₀ := s₀) z ?_ ?_; rotate_left; clear_value z; intro hz; rotate_left; subst z) | clear_value z) | with_reducible assumption | with_reducible apply State.setF_rests | with_reducible refine Rests.ite ?_ ?_ | (with_reducible apply Rests.upd; with_reducible assumption)

theorem State.seqOver_rests {s₀ s : State} (h : Rests s₀ s) (code : Nat) : Rests s₀ (State.seqOver s code) := by
  unfold State.seqOver
  repeat' first | (extract_lets +onlyGivenNames z; first | (refine Rests.cut (s₀ := s₀) z ?_ ?_; rotate_left; clear_value z; intro hz; rotate_left; subst z) | clear_value z) | with_reducible assumption | with_reducible apply State.setF_rests | with_reducible apply State.stageTo_rests | with_reducible apply State.stepDone_rests | with_reducible apply State.wakeUp_rests | with_reducible apply State.report_rests | with_reducible apply State.pf_rests | with_reducible apply State.seqStart_rests | with_reducible refine Rests.ite ?_ ?_ | split | (with_reducible apply Rests.upd; with_reducible assumption)

theorem State.seqStop_rests {s₀ s : State} (h : Rests s₀ s) : Rests s₀ (State.seqStop s) := by
  unfold State.seqStop
  repeat' first | (extract_lets +onlyGivenNames z; first | (refine Rests.cut (s₀ := s₀) z ?_ ?_; rotate_left; clear_value z; intro hz; rotate_left; subst z) | clear_value z) | with_reducible assumption | with_reducible apply State.setF_rests | with_reducible refine Rests.ite ?_ ?_ | (with_reducible apply Rests.upd; with_reducible assumption)

theorem State.seqNext_rests {s₀ s : State} (h : Rests s₀ s) (wait : Bool) (pc : Option Nat) : Rests s₀ (State.seqNext s wait pc) := by
  unfold State.seqNext
  try dsimp only
  repeat' first | with_reducible assumption | with_reducible apply State.seqOver_rests | with_reducible apply State.setF_rests | with_reducible refine Rests.ite ?_ ?_ | split | (with_reducible apply Rests.upd; with_reducible assumption)

theorem execSeqProgramWrite_rests {s₀ s : State} (h : Rests s₀ s) (i : Nat) (value : BitVec 32) : RestsAns s₀ (execSeqProgramWrite i value s) := by
  unfold execSeqProgramWrite
  try dsimp only
  repeat' first | with_reducible assumption | with_reducible apply RestsAns.next | with_reducible apply State.reportAccess_rests | with_reducible apply State.darkWrite_rests | with_reducible apply State.setWord_rests | with_reducible apply State.raise_rests | with_reducible refine RestsAns.ite ?_ ?_ | with_reducible refine Rests.ite ?_ ?_

theorem execSeqEnd_rests {s₀ s : State} (h : Rests s₀ s) : RestsAns s₀ (execSeqEnd s) := by
  unfold execSeqEnd
  repeat' first | with_reducible assumption | with_reducible apply RestsAns.next | with_reducible apply State.seqOver_rests | with_reducible refine RestsAns.ite ?_ ?_ | with_reducible refine Rests.ite ?_ ?_

theorem execSeqEnable_rests {s₀ s : State} (h : Rests s₀ s) : RestsAns s₀ (execSeqEnable s) := by
  unfold execSeqEnable
  repeat' first | with_reducible assumption | with_reducible apply RestsAns.next | with_reducible apply State.setF_rests | with_reducible apply State.railSync_rests | with_reducible apply State.seqNext_rests | with_reducible refine RestsAns.ite ?_ ?_ | with_reducible refine Rests.ite ?_ ?_

theorem execSeqDisable_rests {s₀ s : State} (h : Rests s₀ s) : RestsAns s₀ (execSeqDisable s) := by
  unfold execSeqDisable
  try dsimp only
  repeat' first | with_reducible assumption | with_reducible apply RestsAns.next | with_reducible apply State.setF_rests | with_reducible apply State.railSync_rests | with_reducible apply State.seqNext_rests | with_reducible refine RestsAns.ite ?_ ?_ | with_reducible refine Rests.ite ?_ ?_

theorem execSeqWait_rests {s₀ s : State} (h : Rests s₀ s) : RestsAns s₀ (execSeqWait s) := by
  unfold execSeqWait
  repeat' first | with_reducible assumption | with_reducible apply RestsAns.next | with_reducible apply State.seqNext_rests | with_reducible refine RestsAns.ite ?_ ?_ | with_reducible refine Rests.ite ?_ ?_

theorem execSeqWaitpg_rests {s₀ s : State} (h : Rests s₀ s) (expired : Bool) : RestsAns s₀ (execSeqWaitpg expired s) := by
  unfold execSeqWaitpg
  try dsimp only
  repeat' first | with_reducible assumption | with_reducible apply RestsAns.next | with_reducible apply State.setB_rests | with_reducible apply State.seqNext_rests | with_reducible refine RestsAns.ite ?_ ?_ | with_reducible refine Rests.ite ?_ ?_

theorem execSeqCheck_rests {s₀ s : State} (h : Rests s₀ s) : RestsAns s₀ (execSeqCheck s) := by
  unfold execSeqCheck
  try dsimp only
  repeat' first | with_reducible assumption | with_reducible apply RestsAns.next | with_reducible apply State.setB_rests | with_reducible apply State.seqNext_rests | with_reducible refine RestsAns.ite ?_ ?_ | with_reducible refine Rests.ite ?_ ?_ | split

theorem execSeqJump_rests {s₀ s : State} (h : Rests s₀ s) : RestsAns s₀ (execSeqJump s) := by
  unfold execSeqJump
  repeat' first | with_reducible assumption | with_reducible apply RestsAns.next | with_reducible apply State.seqNext_rests | with_reducible refine RestsAns.ite ?_ ?_ | with_reducible refine Rests.ite ?_ ?_

theorem execSeqJumpif_rests {s₀ s : State} (h : Rests s₀ s) : RestsAns s₀ (execSeqJumpif s) := by
  unfold execSeqJumpif
  repeat' first | with_reducible assumption | with_reducible apply RestsAns.next | with_reducible apply State.seqNext_rests | with_reducible refine RestsAns.ite ?_ ?_ | with_reducible refine Rests.ite ?_ ?_

theorem execSeqLimitTimeout_rests {s₀ s : State} (h : Rests s₀ s) : RestsAns s₀ (execSeqLimitTimeout s) := by
  unfold execSeqLimitTimeout
  repeat' first | with_reducible assumption | with_reducible apply RestsAns.next | with_reducible apply State.seqOver_rests | with_reducible refine RestsAns.ite ?_ ?_ | with_reducible refine Rests.ite ?_ ?_

theorem execPowerStateRequest_rests {s₀ s : State} (h : Rests s₀ s) (value : Nat) : RestsAns s₀ (execPowerStateRequest value s) := by
  unfold execPowerStateRequest
  repeat' first | with_reducible assumption | with_reducible apply RestsAns.next | with_reducible apply State.darkWrite_rests | with_reducible apply State.raise_rests | with_reducible apply State.setF_rests | with_reducible refine RestsAns.ite ?_ ?_ | with_reducible refine Rests.ite ?_ ?_

theorem State.enterRun_rests {s₀ s : State} (h : Rests s₀ s) (c : Nat) : Rests s₀ (State.enterRun s c) := by
  unfold State.enterRun
  repeat' first | (extract_lets +onlyGivenNames z; first | (refine Rests.cut (s₀ := s₀) z ?_ ?_; rotate_left; clear_value z; intro hz; rotate_left; subst z) | clear_value z) | with_reducible assumption | with_reducible apply State.setF_rests | with_reducible apply State.setPower_rests | with_reducible apply State.stageTo_rests | with_reducible apply State.classStart_rests | (with_reducible apply Rests.upd; with_reducible assumption)

theorem State.noteRefusal_rests {s₀ s : State} (h : Rests s₀ s) : Rests s₀ (State.noteRefusal s) := by
  unfold State.noteRefusal
  try dsimp only
  repeat' first | with_reducible assumption | with_reducible apply State.setF_rests | with_reducible refine Rests.ite ?_ ?_ | (with_reducible apply Rests.upd; with_reducible assumption)

theorem execPowerStepReadyToRun_rests {s₀ s : State} (h : Rests s₀ s) : RestsAns s₀ (execPowerStepReadyToRun s) := by
  unfold execPowerStepReadyToRun
  repeat' first | with_reducible assumption | with_reducible apply RestsAns.next | with_reducible apply State.noteRefusal_rests | with_reducible apply State.stepRefused_rests | with_reducible apply State.enterRun_rests | with_reducible refine RestsAns.ite ?_ ?_ | with_reducible refine Rests.ite ?_ ?_ | split

theorem State.leaveRun_rests {s₀ s : State} (h : Rests s₀ s) : Rests s₀ (State.leaveRun s) := by
  unfold State.leaveRun
  repeat' first | (extract_lets +onlyGivenNames z; first | (refine Rests.cut (s₀ := s₀) z ?_ ?_; rotate_left; clear_value z; intro hz; rotate_left; subst z) | clear_value z) | with_reducible assumption | with_reducible apply State.syncSpeed_rests | with_reducible apply State.setF_rests | with_reducible apply State.unclaim_rests | with_reducible apply State.askSpeed_rests | with_reducible apply State.stepDone_rests | with_reducible refine Rests.ite ?_ ?_ | (with_reducible apply Rests.upd; with_reducible assumption)

theorem execPowerStepRunToReady_rests {s₀ s : State} (h : Rests s₀ s) : RestsAns s₀ (execPowerStepRunToReady s) := by
  unfold execPowerStepRunToReady
  repeat' first | with_reducible assumption | with_reducible apply RestsAns.next | with_reducible apply State.leaveRun_rests | with_reducible refine RestsAns.ite ?_ ?_ | with_reducible refine Rests.ite ?_ ?_

theorem execPowerStepReadyToStandby_rests {s₀ s : State} (h : Rests s₀ s) : RestsAns s₀ (execPowerStepReadyToStandby s) := by
  unfold execPowerStepReadyToStandby
  repeat' first | (extract_lets +onlyGivenNames z; first | (refine Rests.cut (s₀ := s₀) z ?_ ?_; rotate_left; clear_value z; intro hz; rotate_left; subst z) | clear_value z) | with_reducible assumption | with_reducible apply RestsAns.next | with_reducible apply State.syncSpeed_rests | with_reducible apply State.stepRefused_rests | with_reducible apply State.setF_rests | with_reducible apply State.linksOff_rests | with_reducible apply State.stepDone_rests | with_reducible refine RestsAns.ite ?_ ?_ | with_reducible refine Rests.ite ?_ ?_ | (with_reducible apply Rests.upd; with_reducible assumption)

theorem execPowerStepStandbyToReady_rests {s₀ s : State} (h : Rests s₀ s) : RestsAns s₀ (execPowerStepStandbyToReady s) := by
  unfold execPowerStepStandbyToReady
  repeat' first | with_reducible assumption | with_reducible apply RestsAns.next | with_reducible apply State.stepDone_rests | with_reducible apply State.linksOn_rests | with_reducible apply State.stageTo_rests | with_reducible refine RestsAns.ite ?_ ?_ | with_reducible refine Rests.ite ?_ ?_

theorem execPowerStepSleepToStandby_rests {s₀ s : State} (h : Rests s₀ s) : RestsAns s₀ (execPowerStepSleepToStandby s) := by
  unfold execPowerStepSleepToStandby
  repeat' first | with_reducible assumption | with_reducible apply RestsAns.next | with_reducible apply State.stepRefused_rests | with_reducible apply State.setF_rests | with_reducible apply State.seqStart_rests | with_reducible apply State.stageTo_rests | with_reducible refine RestsAns.ite ?_ ?_ | with_reducible refine Rests.ite ?_ ?_

end Sys2Proof.Machine
end

