-- ==== Sys2Proof/Laws/RestClimate.lean ====
section
/-! SUPPORT. Which operations of Machine/Climate.lean leave the memories as they are (Laws/Rest.lean). -/
namespace Sys2Proof.Machine
set_option Elab.async false
set_option linter.all false

theorem execPmbusPoll_rests {s₀ s : State} (h : Rests s₀ s) (ok : Bool) (fault : Option Nat) : RestsAns s₀ (execPmbusPoll ok fault s) := by
  unfold execPmbusPoll
  try dsimp only
  repeat' first | with_reducible assumption | with_reducible apply RestsAns.next | with_reducible apply State.raise_rests | with_reducible apply State.report_rests | with_reducible apply State.pf_rests | with_reducible refine RestsAns.ite ?_ ?_ | with_reducible refine Rests.ite ?_ ?_ | split | (with_reducible apply Rests.upd; with_reducible assumption)

theorem State.setVset_rests {s₀ s : State} (h : Rests s₀ s) (v : Nat) : Rests s₀ (State.setVset s v) := by
  unfold State.setVset
  repeat' first | with_reducible assumption | with_reducible apply State.setF_rests | with_reducible apply State.satInc_rests | with_reducible apply State.emit_rests | with_reducible refine Rests.ite ?_ ?_

theorem State.govern_rests {s₀ s : State} (h : Rests s₀ s) (smin : Int) : Rests s₀ (State.govern s smin) := by
  unfold State.govern
  try dsimp only
  repeat' first | with_reducible assumption | with_reducible apply State.setVset_rests | with_reducible refine Rests.ite ?_ ?_ | (with_reducible apply Rests.upd; with_reducible assumption)

theorem State.pace_rests {s₀ s : State} (h : Rests s₀ s) (smin : Int) : Rests s₀ (State.pace s smin) := by
  unfold State.pace
  repeat' first | (extract_lets +onlyGivenNames z; first | (refine Rests.cut (s₀ := s₀) z ?_ ?_; rotate_left; clear_value z; intro hz; rotate_left; subst z) | clear_value z) | with_reducible assumption | with_reducible apply State.weirOn_rests | with_reducible apply State.weirAsk_rests | with_reducible apply State.pf_rests | with_reducible apply State.weirOff_rests | with_reducible refine Rests.ite ?_ ?_ | (with_reducible apply Rests.upd; with_reducible assumption)

theorem execPaceEvaluate_rests {s₀ s : State} (h : Rests s₀ s) (slack : List (BitVec 16)) (vread : Nat) : RestsAns s₀ (execPaceEvaluate slack vread s) := by
  unfold execPaceEvaluate
  repeat' first | (extract_lets +onlyGivenNames z; first | (refine Rests.cut (s₀ := s₀) z ?_ ?_; rotate_left; clear_value z; intro hz; rotate_left; subst z) | clear_value z) | with_reducible assumption | with_reducible apply RestsAns.next | with_reducible apply State.setF_rests | with_reducible apply State.report_rests | with_reducible apply State.pf_rests | with_reducible apply State.govern_rests | with_reducible apply State.pace_rests | (with_reducible apply Rests.foldl; intro _ _ _) | with_reducible refine RestsAns.ite ?_ ?_ | with_reducible refine Rests.ite ?_ ?_ | split | (with_reducible apply Rests.upd; with_reducible assumption)

theorem execVddCoreUndervolt_rests {s₀ s : State} (h : Rests s₀ s) : RestsAns s₀ (execVddCoreUndervolt s) := by
  unfold execVddCoreUndervolt
  repeat' first | with_reducible assumption | with_reducible apply RestsAns.next | with_reducible apply State.report_rests | with_reducible apply State.pf_rests | with_reducible refine RestsAns.ite ?_ ?_ | with_reducible refine Rests.ite ?_ ?_

theorem State.gatesShut_rests {s₀ s : State} (h : Rests s₀ s) : Rests s₀ (State.gatesShut s) := by
  unfold State.gatesShut
  repeat' first | with_reducible assumption | with_reducible apply State.setF_rests | (with_reducible apply Rests.foldl; intro _ _ _)

theorem State.keepPins_rests {s₀ s : State} (h : Rests s₀ s) (old : State) (hold : Rests s₀ old) : Rests s₀ (State.keepPins s old) := by
  unfold State.keepPins
  repeat' first | (extract_lets +onlyGivenNames z; first | (refine Rests.cut (s₀ := s₀) z ?_ ?_; rotate_left; clear_value z; intro hz; rotate_left; subst z) | clear_value z) | with_reducible assumption | with_reducible apply State.setWord_rests | with_reducible apply State.setF_rests | (with_reducible apply Rests.foldl; intro _ _ _) | (with_reducible apply Rests.upd; with_reducible assumption)

theorem State.armWake_rests {s₀ s : State} (h : Rests s₀ s) : Rests s₀ (State.armWake s) := by
  unfold State.armWake
  repeat' first | (extract_lets +onlyGivenNames z; first | (refine Rests.cut (s₀ := s₀) z ?_ ?_; rotate_left; clear_value z; intro hz; rotate_left; subst z) | clear_value z) | with_reducible assumption | with_reducible apply State.ectReport_rests | with_reducible refine Rests.ite ?_ ?_ | (with_reducible apply Rests.upd; with_reducible assumption)

theorem execPowerStepHibernateToOff_rests {s₀ s : State} (h : Rests s₀ s) : RestsAns s₀ (execPowerStepHibernateToOff s) := by
  unfold execPowerStepHibernateToOff
  repeat' first | (extract_lets +onlyGivenNames z; first | (refine Rests.cut (s₀ := s₀) z ?_ ?_; rotate_left; clear_value z; intro hz; rotate_left; subst z) | clear_value z) | with_reducible assumption | with_reducible apply RestsAns.next | with_reducible apply State.pmicOff_rests | with_reducible apply State.railsOff_rests | with_reducible apply State.resetRegs_rests | with_reducible apply State.setF_rests | with_reducible apply State.hdgSync_rests | with_reducible refine RestsAns.ite ?_ ?_ | with_reducible refine Rests.ite ?_ ?_ | (with_reducible apply Rests.upd; with_reducible assumption)

theorem State.setSensor_rests {s₀ s : State} (h : Rests s₀ s) (i : Nat) (x : Sensor) : Rests s₀ (State.setSensor s i x) := by
  unfold State.setSensor
  try dsimp only
  repeat' first | with_reducible assumption | (with_reducible apply Rests.upd; with_reducible assumption)

theorem State.excludeSensor_rests {s₀ s : State} (h : Rests s₀ s) (i : Nat) : Rests s₀ (State.excludeSensor s i) := by
  unfold State.excludeSensor
  try dsimp only
  repeat' first | with_reducible assumption | with_reducible apply State.setF_rests | with_reducible apply State.raise_rests | with_reducible apply State.setSensor_rests | with_reducible apply State.report_rests | with_reducible apply State.pf_rests | (with_reducible apply Rests.upd; with_reducible assumption)

theorem State.judgeSensor_rests {s₀ s : State} (h : Rests s₀ s) (med2 : Int) (i : Nat) : Rests s₀ (State.judgeSensor s med2 i) := by
  unfold State.judgeSensor
  try dsimp only
  repeat' first | with_reducible assumption | with_reducible apply State.setF_rests | with_reducible apply State.setSensor_rests | with_reducible apply State.excludeSensor_rests | with_reducible refine Rests.ite ?_ ?_ | (with_reducible apply Rests.upd; with_reducible assumption)

theorem State.thermalWarning_rests {s₀ s : State} (h : Rests s₀ s) : Rests s₀ (State.thermalWarning s) := by
  unfold State.thermalWarning
  repeat' first | (extract_lets +onlyGivenNames z; first | (refine Rests.cut (s₀ := s₀) z ?_ ?_; rotate_left; clear_value z; intro hz; rotate_left; subst z) | clear_value z) | with_reducible assumption | with_reducible apply State.weirOn_rests | with_reducible apply State.weirAsk_rests | with_reducible apply State.setF_rests | with_reducible apply State.report_rests | with_reducible apply State.pf_rests | (with_reducible apply Rests.upd; with_reducible assumption)

theorem State.thermalClear_rests {s₀ s : State} (h : Rests s₀ s) : Rests s₀ (State.thermalClear s) := by
  unfold State.thermalClear
  repeat' first | (extract_lets +onlyGivenNames z; first | (refine Rests.cut (s₀ := s₀) z ?_ ?_; rotate_left; clear_value z; intro hz; rotate_left; subst z) | clear_value z) | with_reducible assumption | with_reducible apply State.weirOff_rests | with_reducible apply State.setF_rests | with_reducible apply State.pf_rests | (with_reducible apply Rests.upd; with_reducible assumption)

theorem State.judgeHot_rests {s₀ s : State} (h : Rests s₀ s) : Rests s₀ (State.judgeHot s) := by
  unfold State.judgeHot
  repeat' first | (extract_lets +onlyGivenNames z; first | (refine Rests.cut (s₀ := s₀) z ?_ ?_; rotate_left; clear_value z; intro hz; rotate_left; subst z) | clear_value z) | with_reducible assumption | with_reducible apply State.thermalWarning_rests | with_reducible apply State.thermalClear_rests | with_reducible apply State.report_rests | with_reducible apply State.pf_rests | with_reducible refine Rests.ite ?_ ?_ | (with_reducible apply Rests.upd; with_reducible assumption)

theorem execWeirGraceExpiry_rests {s₀ s : State} (h : Rests s₀ s) : RestsAns s₀ (execWeirGraceExpiry s) := by
  unfold execWeirGraceExpiry
  repeat' first | (extract_lets +onlyGivenNames z; first | (refine Rests.cut (s₀ := s₀) z ?_ ?_; rotate_left; clear_value z; intro hz; rotate_left; subst z) | clear_value z) | with_reducible assumption | with_reducible apply RestsAns.next | with_reducible apply State.weirAsk_rests | with_reducible apply State.satInc_rests | with_reducible apply State.pf_rests | with_reducible refine RestsAns.ite ?_ ?_ | with_reducible refine Rests.ite ?_ ?_ | (with_reducible apply Rests.upd; with_reducible assumption)

end Sys2Proof.Machine
end

