-- ==== Sys2Proof/Laws/RestSump.lean ====
section
/-! SUPPORT. Which operations of Machine/Sump.lean leave the memories as they are (Laws/Rest.lean). -/
namespace Sys2Proof.Machine
set_option Elab.async false
set_option linter.all false

theorem State.showQueue_rests {s₀ s : State} (h : Rests s₀ s) : Rests s₀ (State.showQueue s) := by
  unfold State.showQueue
  repeat' first | (extract_lets +onlyGivenNames z; first | (refine Rests.cut (s₀ := s₀) z ?_ ?_; rotate_left; clear_value z; intro hz; rotate_left; subst z) | clear_value z) | with_reducible assumption | with_reducible apply State.setF_rests | with_reducible apply State.set64_rests | with_reducible refine Rests.ite ?_ ?_ | (with_reducible apply Rests.upd; with_reducible assumption)

theorem State.capture_rests {s₀ s : State} (h : Rests s₀ s) (r : Report) : Rests s₀ (State.capture s r) := by
  unfold State.capture
  try dsimp only
  repeat' first | with_reducible assumption | with_reducible apply State.setF_rests | with_reducible apply State.set64_rests | with_reducible refine Rests.ite ?_ ?_

theorem State.enqueue_rests {s₀ s : State} (h : Rests s₀ s) (r : Report) : Rests s₀ (State.enqueue s r) := by
  unfold State.enqueue
  try dsimp only
  repeat' first | with_reducible assumption | with_reducible apply State.satInc_rests | with_reducible apply State.mark_rests | with_reducible apply State.showQueue_rests | with_reducible apply State.wrapInc_rests | with_reducible apply State.record_rests | with_reducible refine Rests.ite ?_ ?_ | (with_reducible apply Rests.upd; with_reducible assumption)

theorem State.endPage_rests {s₀ s : State} (h : Rests s₀ s) (p : Page) : Rests s₀ (State.endPage s p) := by
  unfold State.endPage
  try dsimp only
  repeat' first | with_reducible assumption | with_reducible apply State.modPage_rests | with_reducible apply State.modFrame_rests | with_reducible apply State.finalState_rests | with_reducible apply State.insDrop_rests | with_reducible apply State.withdraw_rests | with_reducible refine Rests.ite ?_ ?_ | split | (with_reducible apply Rests.upd; with_reducible assumption)

theorem State.dropOpenCopies_rests {s₀ s : State} (h : Rests s₀ s) : Rests s₀ (State.dropOpenCopies s) := by
  unfold State.dropOpenCopies
  repeat' first | with_reducible assumption | with_reducible apply State.loseCopy_rests | (with_reducible apply Rests.foldl; intro _ _ _)

theorem State.insStop_rests {s₀ s : State} (h : Rests s₀ s) : Rests s₀ (State.insStop s) := by
  unfold State.insStop
  repeat' first | (extract_lets +onlyGivenNames z; first | (refine Rests.cut (s₀ := s₀) z ?_ ?_; rotate_left; clear_value z; intro hz; rotate_left; subst z) | clear_value z) | with_reducible assumption | with_reducible apply State.endCapture_rests | with_reducible apply State.endAudit_rests | with_reducible apply State.xcalAbandon_rests | (with_reducible apply Rests.foldl; intro _ _ _) | with_reducible refine Rests.ite ?_ ?_

theorem State.endPages_rests {s₀ s : State} (h : Rests s₀ s) : Rests s₀ (State.endPages s) := by
  unfold State.endPages
  repeat' first | with_reducible assumption | with_reducible apply State.endPage_rests | with_reducible apply State.dropOpenCopies_rests | with_reducible apply State.insStop_rests | (with_reducible apply Rests.foldl; intro _ _ _) | with_reducible refine Rests.ite ?_ ?_

theorem State.dropAsked_rests {s₀ s : State} (h : Rests s₀ s) : Rests s₀ (State.dropAsked s) := by
  unfold State.dropAsked
  try dsimp only
  repeat' first | with_reducible assumption | (with_reducible apply Rests.upd; with_reducible assumption)

theorem State.pauseAll_rests {s₀ s : State} (h : Rests s₀ s) (cls : Nat) : Rests s₀ (State.pauseAll s cls) := by
  unfold State.pauseAll
  repeat' first | with_reducible assumption | with_reducible apply State.pauseQueue_rests | with_reducible apply State.mark_rests | (with_reducible apply Rests.foldl; intro _ _ _)

theorem State.syncWindow_rests {s₀ s : State} (h : Rests s₀ s) : Rests s₀ (State.syncWindow s) := by
  unfold State.syncWindow
  try dsimp only
  repeat' first | with_reducible assumption | with_reducible apply State.setF_rests | (with_reducible apply Rests.upd; with_reducible assumption)

theorem State.latch_rests {s₀ s : State} (h : Rests s₀ s) (cls : Nat) : Rests s₀ (State.latch s cls) := by
  unfold State.latch
  repeat' first | with_reducible assumption | with_reducible apply State.setF_rests | with_reducible apply State.record_rests | with_reducible refine Rests.ite ?_ ?_

theorem State.beginStop_rests {s₀ s : State} (h : Rests s₀ s) (r : Report) : Rests s₀ (State.beginStop s r) := by
  unfold State.beginStop
  try dsimp only
  repeat' first | with_reducible assumption | with_reducible apply State.setF_rests | with_reducible apply State.syncWindow_rests | with_reducible apply State.latch_rests | with_reducible refine Rests.ite ?_ ?_

theorem State.cutCauses_rests {s₀ s : State} (h : Rests s₀ s) (selfCheck : Bool) : Rests s₀ (State.cutCauses s selfCheck) := by
  unfold State.cutCauses
  repeat' first | with_reducible assumption | with_reducible apply State.setF_rests | (with_reducible apply Rests.foldl; intro _ _ _) | with_reducible refine Rests.ite ?_ ?_

theorem State.reportWords_rests {s₀ s : State} (h : Rests s₀ s) (r : Report) : Rests s₀ (State.reportWords s r) := by
  unfold State.reportWords
  repeat' first | with_reducible assumption | with_reducible apply State.lastWord_rests

theorem State.safeState_rests {s₀ s : State} (h : Rests s₀ s) (r : Report) : Rests s₀ (State.safeState s r) := by
  unfold State.safeState
  repeat' first | with_reducible assumption | with_reducible apply State.cutCauses_rests | with_reducible apply State.hdgSync_rests | with_reducible apply State.aliveStop_rests | with_reducible apply State.reportWords_rests | with_reducible apply State.railSync_rests

theorem State.boundaryTest_rests {s₀ s : State} (h : Rests s₀ s) (r : Report) : Rests s₀ (State.boundaryTest s r) := by
  unfold State.boundaryTest
  repeat' first | with_reducible assumption | with_reducible apply State.emit_rests | with_reducible refine Rests.ite ?_ ?_

theorem execSumpRearm_rests {s₀ s : State} (h : Rests s₀ s) : RestsAns s₀ (execSumpRearm s) := by
  unfold execSumpRearm
  repeat' first | with_reducible assumption | with_reducible apply RestsAns.next | with_reducible apply State.darkWrite_rests | with_reducible apply State.setF_rests | with_reducible apply State.setWord_rests | with_reducible refine RestsAns.ite ?_ ?_ | with_reducible refine Rests.ite ?_ ?_

theorem execSumpPop_rests {s₀ s : State} (h : Rests s₀ s) : RestsAns s₀ (execSumpPop s) := by
  unfold execSumpPop
  try dsimp only
  repeat' first | with_reducible assumption | with_reducible apply RestsAns.next | with_reducible apply State.darkWrite_rests | with_reducible apply State.showQueue_rests | with_reducible refine RestsAns.ite ?_ ?_ | with_reducible refine Rests.ite ?_ ?_ | (with_reducible apply Rests.upd; with_reducible assumption)

theorem State.releaseLatch_rests {s₀ s : State} (h : Rests s₀ s) : Rests s₀ (State.releaseLatch s) := by
  unfold State.releaseLatch
  repeat' first | (extract_lets +onlyGivenNames z; first | (refine Rests.cut (s₀ := s₀) z ?_ ?_; rotate_left; clear_value z; intro hz; rotate_left; subst z) | clear_value z) | with_reducible assumption | with_reducible apply State.setF_rests | with_reducible apply State.syncWindow_rests | with_reducible refine Rests.ite ?_ ?_ | (with_reducible apply Rests.upd; with_reducible assumption)

theorem execSumpRelease_rests {s₀ s : State} (h : Rests s₀ s) : RestsAns s₀ (execSumpRelease s) := by
  unfold execSumpRelease
  repeat' first | with_reducible assumption | with_reducible apply RestsAns.next | with_reducible apply State.darkWrite_rests | with_reducible apply State.releaseLatch_rests | with_reducible refine RestsAns.ite ?_ ?_ | with_reducible refine Rests.ite ?_ ?_

theorem State.quietSync_rests {s₀ s : State} (h : Rests s₀ s) : Rests s₀ (State.quietSync s) := by
  unfold State.quietSync
  repeat' first | (extract_lets +onlyGivenNames z; first | (refine Rests.cut (s₀ := s₀) z ?_ ?_; rotate_left; clear_value z; intro hz; rotate_left; subst z) | clear_value z) | with_reducible assumption | with_reducible apply State.setF_rests | with_reducible refine Rests.ite ?_ ?_ | (with_reducible apply Rests.upd; with_reducible assumption)

theorem State.selfFail_rests {s₀ s : State} (h : Rests s₀ s) (src : Nat) : Rests s₀ (State.selfFail s src) := by
  unfold State.selfFail
  repeat' first | with_reducible assumption | with_reducible apply State.setF_rests | with_reducible apply State.hdgSync_rests | with_reducible apply State.aliveStop_rests | with_reducible apply State.report_rests

theorem execSelfCheckCompare_rests {s₀ s : State} (h : Rests s₀ s) (flt : Bool) (hdg : Bool) : RestsAns s₀ (execSelfCheckCompare flt hdg s) := by
  unfold execSelfCheckCompare
  try dsimp only
  repeat' first | with_reducible assumption | with_reducible apply RestsAns.next | with_reducible apply State.quietSync_rests | with_reducible apply State.selfFail_rests | with_reducible refine RestsAns.ite ?_ ?_ | with_reducible refine Rests.ite ?_ ?_

theorem execHeartbeatKick_rests {s₀ s : State} (h : Rests s₀ s) : RestsAns s₀ (execHeartbeatKick s) := by
  unfold execHeartbeatKick
  try dsimp only
  repeat' first | with_reducible assumption | with_reducible apply RestsAns.next | with_reducible apply State.darkWrite_rests | with_reducible refine RestsAns.ite ?_ ?_ | with_reducible refine Rests.ite ?_ ?_ | (with_reducible apply Rests.upd; with_reducible assumption)

theorem execHeartbeatTimeout_rests {s₀ s : State} (h : Rests s₀ s) : RestsAns s₀ (execHeartbeatTimeout s) := by
  unfold execHeartbeatTimeout
  try dsimp only
  repeat' first | with_reducible assumption | with_reducible apply RestsAns.next | with_reducible apply State.report_rests | with_reducible refine RestsAns.ite ?_ ?_ | with_reducible refine Rests.ite ?_ ?_ | (with_reducible apply Rests.upd; with_reducible assumption)

theorem execAliveToggle_rests {s₀ s : State} (h : Rests s₀ s) : RestsAns s₀ (execAliveToggle s) := by
  unfold execAliveToggle
  repeat' first | (extract_lets +onlyGivenNames z; first | (refine Rests.cut (s₀ := s₀) z ?_ ?_; rotate_left; clear_value z; intro hz; rotate_left; subst z) | clear_value z) | with_reducible assumption | with_reducible apply RestsAns.next | with_reducible apply State.drivePin_rests | with_reducible apply State.aliveStop_rests | with_reducible refine RestsAns.ite ?_ ?_ | with_reducible refine Rests.ite ?_ ?_ | (with_reducible apply Rests.upd; with_reducible assumption)

end Sys2Proof.Machine
end

