-- ==== Sys2Proof/Laws/RestHost.lean ====
section
/-! SUPPORT. Which operations of Machine/Host.lean leave the memories as they are (Laws/Rest.lean). -/
namespace Sys2Proof.Machine
set_option Elab.async false
set_option linter.all false

theorem execSqDoorbell_rests {s₀ s : State} (h : Rests s₀ s) (fn : Nat) (tail : Nat) : RestsAns s₀ (execSqDoorbell fn tail s) := by
  unfold execSqDoorbell
  try dsimp only
  repeat' first | with_reducible assumption | with_reducible apply RestsAns.next | with_reducible apply State.errorQueue_rests | with_reducible apply State.setF_rests | with_reducible refine RestsAns.ite ?_ ?_ | with_reducible refine Rests.ite ?_ ?_

theorem execSqServe_rests {s₀ s : State} (h : Rests s₀ s) : RestsAns s₀ (execSqServe s) := by
  unfold execSqServe
  try dsimp only
  repeat' first | with_reducible assumption | with_reducible apply RestsAns.next | with_reducible refine RestsAns.ite ?_ ?_ | with_reducible refine Rests.ite ?_ ?_ | split | (with_reducible apply Rests.upd; with_reducible assumption)

theorem State.aerUncorr_rests {s₀ s : State} (h : Rests s₀ s) (fn : Nat) : Rests s₀ (State.aerUncorr s fn) := by
  unfold State.aerUncorr
  repeat' first | with_reducible assumption | with_reducible apply State.satInc_rests | with_reducible apply State.report_rests

theorem State.aerCorr_rests {s₀ s : State} (h : Rests s₀ s) : Rests s₀ (State.aerCorr s) := by
  unfold State.aerCorr
  repeat' first | with_reducible assumption | with_reducible apply State.satInc_rests | with_reducible apply State.report_rests

theorem execDescriptorReadFailed_rests {s₀ s : State} (h : Rests s₀ s) (fn : Nat) (how : Nat) : RestsAns s₀ (execDescriptorReadFailed fn how s) := by
  unfold execDescriptorReadFailed
  repeat' first | (extract_lets +onlyGivenNames z; first | (refine Rests.cut (s₀ := s₀) z ?_ ?_; rotate_left; clear_value z; intro hz; rotate_left; subst z) | clear_value z) | with_reducible assumption | with_reducible apply RestsAns.next | with_reducible apply State.aerUncorr_rests | with_reducible apply State.errorQueue_rests | with_reducible refine RestsAns.ite ?_ ?_ | with_reducible refine Rests.ite ?_ ?_ | (with_reducible apply Rests.upd; with_reducible assumption)

theorem execCqHeadWrite_rests {s₀ s : State} (h : Rests s₀ s) (fn : Nat) (head : Nat) : RestsAns s₀ (execCqHeadWrite fn head s) := by
  unfold execCqHeadWrite
  try dsimp only
  repeat' first | with_reducible assumption | with_reducible apply RestsAns.next | with_reducible apply State.raise_rests | with_reducible apply State.setF_rests | with_reducible refine RestsAns.ite ?_ ?_ | with_reducible refine Rests.ite ?_ ?_

theorem execBacklogDrain_rests {s₀ s : State} (h : Rests s₀ s) (fn : Nat) : RestsAns s₀ (execBacklogDrain fn s) := by
  unfold execBacklogDrain
  repeat' first | with_reducible assumption | with_reducible apply RestsAns.next | with_reducible apply State.drainBacklog_rests | with_reducible apply State.syncQueue_rests | with_reducible refine RestsAns.ite ?_ ?_ | with_reducible refine Rests.ite ?_ ?_

theorem execCqCoalesceTimeout_rests {s₀ s : State} (h : Rests s₀ s) (fn : Nat) : RestsAns s₀ (execCqCoalesceTimeout fn s) := by
  unfold execCqCoalesceTimeout
  try dsimp only
  repeat' first | with_reducible assumption | with_reducible apply RestsAns.next | with_reducible apply State.setFn_rests | with_reducible apply State.signal_rests | with_reducible refine RestsAns.ite ?_ ?_ | with_reducible refine Rests.ite ?_ ?_ | (with_reducible apply Rests.upd; with_reducible assumption)

theorem execQEnable_rests {s₀ s : State} (h : Rests s₀ s) (fn : Nat) : RestsAns s₀ (execQEnable fn s) := by
  unfold execQEnable
  repeat' first | (extract_lets +onlyGivenNames z; first | (refine Rests.cut (s₀ := s₀) z ?_ ?_; rotate_left; clear_value z; intro hz; rotate_left; subst z) | clear_value z) | with_reducible assumption | with_reducible apply RestsAns.next | with_reducible apply State.raise_rests | with_reducible apply State.setF_rests | with_reducible apply State.setFn_rests | with_reducible apply State.syncQueue_rests | with_reducible refine RestsAns.ite ?_ ?_ | with_reducible refine Rests.ite ?_ ?_ | (with_reducible apply Rests.upd; with_reducible assumption)

theorem execQDisable_rests {s₀ s : State} (h : Rests s₀ s) (fn : Nat) : RestsAns s₀ (execQDisable fn s) := by
  unfold execQDisable
  repeat' first | (extract_lets +onlyGivenNames z; first | (refine Rests.cut (s₀ := s₀) z ?_ ?_; rotate_left; clear_value z; intro hz; rotate_left; subst z) | clear_value z) | with_reducible assumption | with_reducible apply RestsAns.next | with_reducible apply State.raise_rests | with_reducible apply State.setF_rests | with_reducible apply State.syncQueue_rests | with_reducible refine RestsAns.ite ?_ ?_ | with_reducible refine Rests.ite ?_ ?_ | (with_reducible apply Rests.upd; with_reducible assumption)

theorem execQPause_rests {s₀ s : State} (h : Rests s₀ s) (fn : Nat) : RestsAns s₀ (execQPause fn s) := by
  unfold execQPause
  repeat' first | with_reducible assumption | with_reducible apply RestsAns.next | with_reducible apply State.pauseQueue_rests | with_reducible refine RestsAns.ite ?_ ?_ | with_reducible refine Rests.ite ?_ ?_

theorem execQResume_rests {s₀ s : State} (h : Rests s₀ s) (fn : Nat) : RestsAns s₀ (execQResume fn s) := by
  unfold execQResume
  repeat' first | with_reducible assumption | with_reducible apply RestsAns.next | with_reducible apply State.setF_rests | with_reducible apply State.signal_rests | with_reducible refine RestsAns.ite ?_ ?_ | with_reducible refine Rests.ite ?_ ?_ | split

theorem State.flrPage_rests {s₀ s : State} (h : Rests s₀ s) (p : Page) : Rests s₀ (State.flrPage s p) := by
  unfold State.flrPage
  repeat' first | (extract_lets +onlyGivenNames z; first | (refine Rests.cut (s₀ := s₀) z ?_ ?_; rotate_left; clear_value z; intro hz; rotate_left; subst z) | clear_value z) | with_reducible assumption | with_reducible apply State.modPage_rests | with_reducible apply State.withdraw_rests | split | (with_reducible apply Rests.upd; with_reducible assumption)

theorem State.flrBegin_rests {s₀ s : State} (h : Rests s₀ s) (fn : Nat) : Rests s₀ (State.flrBegin s fn) := by
  unfold State.flrBegin
  repeat' first | (extract_lets +onlyGivenNames z; first | (refine Rests.cut (s₀ := s₀) z ?_ ?_; rotate_left; clear_value z; intro hz; rotate_left; subst z) | clear_value z) | with_reducible assumption | with_reducible apply State.mark_rests | with_reducible apply State.setFn_rests | with_reducible apply State.freeCopy_rests | with_reducible apply State.flrPage_rests | with_reducible apply State.resetChannels_rests | with_reducible apply State.dropLoads_rests | with_reducible apply State.claims_rests | (with_reducible apply Rests.foldl; intro _ _ _) | with_reducible refine Rests.ite ?_ ?_ | (with_reducible apply Rests.upd; with_reducible assumption)

theorem State.flrEnd_rests {s₀ s : State} (h : Rests s₀ s) (fn : Nat) : Rests s₀ (State.flrEnd s fn) := by
  unfold State.flrEnd
  repeat' first | (extract_lets +onlyGivenNames z; first | (refine Rests.cut (s₀ := s₀) z ?_ ?_; rotate_left; clear_value z; intro hz; rotate_left; subst z) | clear_value z) | with_reducible assumption | with_reducible apply State.resetRegs_rests | with_reducible apply State.setB_rests | with_reducible apply State.setFn_rests | with_reducible apply State.setF_rests | with_reducible apply State.mark_rests | with_reducible apply State.syncQueue_rests | (with_reducible apply Rests.upd; with_reducible assumption)

theorem State.flrStart_rests {s₀ s : State} (h : Rests s₀ s) (fn : Nat) : Rests s₀ (State.flrStart s fn) := by
  unfold State.flrStart
  repeat' first | (extract_lets +onlyGivenNames z; first | (refine Rests.cut (s₀ := s₀) z ?_ ?_; rotate_left; clear_value z; intro hz; rotate_left; subst z) | clear_value z) | with_reducible assumption | with_reducible apply State.flrBegin_rests | (with_reducible apply Rests.foldl; intro _ _ _) | with_reducible refine Rests.ite ?_ ?_ | (with_reducible apply Rests.upd; with_reducible assumption)

theorem execFlrStart_rests {s₀ s : State} (h : Rests s₀ s) (fn : Nat) : RestsAns s₀ (execFlrStart fn s) := by
  unfold execFlrStart
  repeat' first | with_reducible assumption | with_reducible apply RestsAns.next | with_reducible apply State.flrStart_rests | with_reducible refine RestsAns.ite ?_ ?_ | with_reducible refine Rests.ite ?_ ?_

theorem State.flrEndAll_rests {s₀ s : State} (h : Rests s₀ s) : Rests s₀ (State.flrEndAll s) := by
  unfold State.flrEndAll
  repeat' first | (extract_lets +onlyGivenNames z; first | (refine Rests.cut (s₀ := s₀) z ?_ ?_; rotate_left; clear_value z; intro hz; rotate_left; subst z) | clear_value z) | with_reducible assumption | with_reducible apply State.flrEnd_rests | with_reducible apply State.pf_rests | (with_reducible apply Rests.foldl; intro _ _ _) | (with_reducible apply Rests.upd; with_reducible assumption)

theorem execFlrComplete_rests {s₀ s : State} (h : Rests s₀ s) (fn : Nat) : RestsAns s₀ (execFlrComplete fn s) := by
  unfold execFlrComplete
  repeat' first | with_reducible assumption | with_reducible apply RestsAns.next | with_reducible apply State.flrEndAll_rests | with_reducible apply State.flrEnd_rests | with_reducible apply State.pf_rests | with_reducible refine RestsAns.ite ?_ ?_ | with_reducible refine Rests.ite ?_ ?_

theorem State.hostReset_rests {s₀ s : State} (h : Rests s₀ s) : Rests s₀ (State.hostReset s) := by
  unfold State.hostReset
  repeat' first | (extract_lets +onlyGivenNames z; first | (refine Rests.cut (s₀ := s₀) z ?_ ?_; rotate_left; clear_value z; intro hz; rotate_left; subst z) | clear_value z) | with_reducible assumption | with_reducible apply State.report_rests | with_reducible apply State.flrBegin_rests | with_reducible apply State.flrEndAll_rests | (with_reducible apply Rests.foldl; intro _ _ _) | with_reducible refine Rests.ite ?_ ?_ | (with_reducible apply Rests.upd; with_reducible assumption)

theorem State.linkOff_rests {s₀ s : State} (h : Rests s₀ s) : Rests s₀ (State.linkOff s) := by
  unfold State.linkOff
  repeat' first | with_reducible assumption | with_reducible apply State.setF_rests

theorem execPerstAssert_rests {s₀ s : State} (h : Rests s₀ s) : RestsAns s₀ (execPerstAssert s) := by
  unfold execPerstAssert
  try dsimp only
  repeat' first | with_reducible assumption | with_reducible apply RestsAns.next | with_reducible apply State.satInc_rests | with_reducible apply State.linkOff_rests | with_reducible apply State.hostReset_rests | with_reducible refine RestsAns.ite ?_ ?_ | with_reducible refine Rests.ite ?_ ?_ | (with_reducible apply Rests.upd; with_reducible assumption)

theorem execPerstDeassert_rests {s₀ s : State} (h : Rests s₀ s) : RestsAns s₀ (execPerstDeassert s) := by
  unfold execPerstDeassert
  try dsimp only
  repeat' first | with_reducible assumption | with_reducible apply RestsAns.next | (with_reducible apply Rests.upd; with_reducible assumption)

theorem execLinkDown_rests {s₀ s : State} (h : Rests s₀ s) (_hotReset : Bool) : RestsAns s₀ (execLinkDown _hotReset s) := by
  unfold execLinkDown
  repeat' first | with_reducible assumption | with_reducible apply RestsAns.next | with_reducible apply State.satInc_rests | with_reducible apply State.linkOff_rests | with_reducible apply State.hostReset_rests | with_reducible refine RestsAns.ite ?_ ?_ | with_reducible refine Rests.ite ?_ ?_

theorem execLinkUp_rests {s₀ s : State} (h : Rests s₀ s) (width : Nat) (speed : Nat) (corrected : Nat) : RestsAns s₀ (execLinkUp width speed corrected s) := by
  unfold execLinkUp
  try dsimp only
  repeat' first | with_reducible assumption | with_reducible apply RestsAns.next | with_reducible apply State.aerCorr_rests | with_reducible apply State.setF_rests | with_reducible apply State.pf_rests | (with_reducible apply Rests.foldl; intro _ _ _) | with_reducible refine RestsAns.ite ?_ ?_ | with_reducible refine Rests.ite ?_ ?_

theorem State.sendPending_rests {s₀ s : State} (h : Rests s₀ s) (fn : Nat) (vec : Nat) : Rests s₀ (State.sendPending s fn vec) := by
  unfold State.sendPending
  try dsimp only
  repeat' first | with_reducible assumption | with_reducible apply State.setWord_rests | with_reducible apply State.signal_rests | with_reducible refine Rests.ite ?_ ?_

theorem execMsixUnmask_rests {s₀ s : State} (h : Rests s₀ s) (fn : Nat) (vec : Nat) : RestsAns s₀ (execMsixUnmask fn vec s) := by
  unfold execMsixUnmask
  try dsimp only
  repeat' first | with_reducible assumption | with_reducible apply RestsAns.next | with_reducible apply State.setWord_rests | with_reducible apply State.sendPending_rests | with_reducible refine RestsAns.ite ?_ ?_ | with_reducible refine Rests.ite ?_ ?_

theorem State.enterD3_rests {s₀ s : State} (h : Rests s₀ s) (fn : Nat) : Rests s₀ (State.enterD3 s fn) := by
  unfold State.enterD3
  try dsimp only
  repeat' first | with_reducible assumption | with_reducible apply State.pauseQueue_rests | with_reducible apply State.setFn_rests | (with_reducible apply Rests.foldl; intro _ _ _) | with_reducible refine Rests.ite ?_ ?_ | (with_reducible apply Rests.upd; with_reducible assumption)

theorem execD3hotEntry_rests {s₀ s : State} (h : Rests s₀ s) (fn : Nat) : RestsAns s₀ (execD3hotEntry fn s) := by
  unfold execD3hotEntry
  repeat' first | with_reducible assumption | with_reducible apply RestsAns.next | with_reducible apply State.enterD3_rests | with_reducible refine RestsAns.ite ?_ ?_ | with_reducible refine Rests.ite ?_ ?_

theorem State.leaveD3_rests {s₀ s : State} (h : Rests s₀ s) (fn : Nat) : Rests s₀ (State.leaveD3 s fn) := by
  unfold State.leaveD3
  repeat' first | (extract_lets +onlyGivenNames z; first | (refine Rests.cut (s₀ := s₀) z ?_ ?_; rotate_left; clear_value z; intro hz; rotate_left; subst z) | clear_value z) | with_reducible assumption | with_reducible apply State.drainBacklog_rests | with_reducible apply State.syncQueue_rests | with_reducible apply State.setFn_rests | with_reducible apply State.setF_rests | with_reducible apply State.signal_rests | with_reducible refine Rests.ite ?_ ?_ | (with_reducible apply Rests.upd; with_reducible assumption)

theorem State.returnD0_rests {s₀ s : State} (h : Rests s₀ s) (fn : Nat) : Rests s₀ (State.returnD0 s fn) := by
  unfold State.returnD0
  try dsimp only
  repeat' first | with_reducible assumption | with_reducible apply State.setFn_rests | with_reducible apply State.leaveD3_rests | (with_reducible apply Rests.foldl; intro _ _ _) | with_reducible refine Rests.ite ?_ ?_ | (with_reducible apply Rests.upd; with_reducible assumption)

theorem execD0Return_rests {s₀ s : State} (h : Rests s₀ s) (fn : Nat) : RestsAns s₀ (execD0Return fn s) := by
  unfold execD0Return
  repeat' first | with_reducible assumption | with_reducible apply RestsAns.next | with_reducible apply State.returnD0_rests | with_reducible refine RestsAns.ite ?_ ?_ | with_reducible refine Rests.ite ?_ ?_

theorem State.setVfEnable_rests {s₀ s : State} (h : Rests s₀ s) (on : Bool) : Rests s₀ (State.setVfEnable s on) := by
  unfold State.setVfEnable
  repeat' first | (extract_lets +onlyGivenNames z; first | (refine Rests.cut (s₀ := s₀) z ?_ ?_; rotate_left; clear_value z; intro hz; rotate_left; subst z) | clear_value z) | with_reducible assumption | with_reducible apply State.flrBegin_rests | with_reducible apply State.flrEnd_rests | with_reducible apply State.pf_rests | (with_reducible apply Rests.foldl; intro _ _ _) | with_reducible refine Rests.ite ?_ ?_ | (with_reducible apply Rests.upd; with_reducible assumption)

theorem State.cfgWritePf_rests {s₀ s : State} (h : Rests s₀ s) (off : Nat) (value : BitVec 32) : Rests s₀ (State.cfgWritePf s off value) := by
  unfold State.cfgWritePf
  try dsimp only
  repeat' first | with_reducible assumption | with_reducible apply State.setVfEnable_rests | with_reducible refine Rests.ite ?_ ?_ | split | (with_reducible apply Rests.upd; with_reducible assumption)

theorem State.cfgWrite_rests {s₀ s : State} (h : Rests s₀ s) (fn : Nat) (off : Nat) (value : BitVec 32) : Rests s₀ (State.cfgWrite s fn off value) := by
  unfold State.cfgWrite
  repeat' first | (extract_lets +onlyGivenNames z; first | (refine Rests.cut (s₀ := s₀) z ?_ ?_; rotate_left; clear_value z; intro hz; rotate_left; subst z) | clear_value z) | with_reducible assumption | with_reducible apply State.enterD3_rests | with_reducible apply State.returnD0_rests | with_reducible apply State.setFn_rests | with_reducible apply State.sendPending_rests | with_reducible apply State.flrStart_rests | with_reducible apply State.cfgWritePf_rests | (with_reducible apply Rests.foldl; intro _ _ _) | with_reducible refine Rests.ite ?_ ?_ | split | (with_reducible apply Rests.upd; with_reducible assumption)

theorem execConfigRequest_rests {s₀ s : State} (h : Rests s₀ s) (fn : Nat) (write : Option (BitVec 32)) (off : Nat) : RestsAns s₀ (execConfigRequest fn write off s) := by
  unfold execConfigRequest
  repeat' first | with_reducible assumption | with_reducible apply RestsAns.next | with_reducible apply State.emit_rests | with_reducible apply State.cfgWrite_rests | with_reducible refine RestsAns.ite ?_ ?_ | with_reducible refine Rests.ite ?_ ?_ | split

end Sys2Proof.Machine
end

