-- ==== Sys2Proof/Laws/RestLatOps.lean ====
section
/-! SUPPORT. Which operations of Machine/LatOps.lean leave the memories as they are (Laws/Rest.lean). -/
namespace Sys2Proof.Machine
set_option Elab.async false
set_option linter.all false

theorem State.latReport_rests {s₀ s : State} (h : Rests s₀ s) (cls : Nat) (cause : Nat) (p : Nat) (node : Nat) : Rests s₀ (State.latReport s cls cause p node) := by
  unfold State.latReport
  repeat' first | with_reducible assumption | with_reducible apply State.report_rests

theorem State.latVec_rests {s₀ s : State} (h : Rests s₀ s) (p : Nat) : Rests s₀ (State.latVec s p) := by
  unfold State.latVec
  repeat' first | with_reducible assumption | with_reducible apply State.pf_rests

theorem State.mbxEnd_rests {s₀ s : State} (h : Rests s₀ s) (p : Nat) (code : Nat) (data : Option (List Byte)) : Rests s₀ (State.mbxEnd s p code data) := by
  unfold State.mbxEnd
  repeat' first | (extract_lets +onlyGivenNames z; first | (refine Rests.cut (s₀ := s₀) z ?_ ?_; rotate_left; clear_value z; intro hz; rotate_left; subst z) | clear_value z) | with_reducible assumption | with_reducible apply State.modLatPort_rests | with_reducible apply State.setWord_rests | with_reducible apply State.setF_rests | with_reducible apply State.raise_rests | with_reducible apply State.latVec_rests | (with_reducible apply Rests.foldl; intro _ _ _) | split | (with_reducible apply Rests.upd; with_reducible assumption)

theorem State.latTo_rests {s₀ s : State} (h : Rests s₀ s) (p : Nat) (v : Nat) : Rests s₀ (State.latTo s p v) := by
  unfold State.latTo
  try dsimp only
  repeat' first | with_reducible assumption | with_reducible apply State.setF_rests | with_reducible apply State.event_rests | with_reducible apply State.modLatPort_rests | with_reducible apply State.mbxEnd_rests | with_reducible refine Rests.ite ?_ ?_ | split | (with_reducible apply Rests.upd; with_reducible assumption)

theorem State.latMismatch_rests {s₀ s : State} (h : Rests s₀ s) (p : Nat) : Rests s₀ (State.latMismatch s p) := by
  unfold State.latMismatch
  repeat' first | with_reducible assumption | with_reducible apply State.latTo_rests | with_reducible apply State.latReport_rests

theorem State.latEnum_rests {s₀ s : State} (h : Rests s₀ s) (p : Nat) : Rests s₀ (State.latEnum s p) := by
  unfold State.latEnum
  repeat' first | (extract_lets +onlyGivenNames z; first | (refine Rests.cut (s₀ := s₀) z ?_ ?_; rotate_left; clear_value z; intro hz; rotate_left; subst z) | clear_value z) | with_reducible assumption | with_reducible apply State.modLatPort_rests | with_reducible apply State.latTo_rests | (with_reducible apply Rests.upd; with_reducible assumption)

theorem State.nodeLose_rests {s₀ s : State} (h : Rests s₀ s) (p : Nat) (node : Nat) : Rests s₀ (State.nodeLose s p node) := by
  unfold State.nodeLose
  repeat' first | with_reducible assumption | with_reducible apply State.setF_rests | with_reducible apply State.nodeGone_rests

theorem State.nodeLost_rests {s₀ s : State} (h : Rests s₀ s) (p : Nat) (node : Nat) : Rests s₀ (State.nodeLost s p node) := by
  unfold State.nodeLost
  try dsimp only
  repeat' first | with_reducible assumption | with_reducible apply State.satInc_rests | with_reducible apply State.latVec_rests | with_reducible apply State.event_rests | with_reducible apply State.latReport_rests | with_reducible apply State.nodeLose_rests

theorem State.badCycle_rests {s₀ s : State} (h : Rests s₀ s) (p : Nat) : Rests s₀ (State.badCycle s p) := by
  unfold State.badCycle
  repeat' first | (extract_lets +onlyGivenNames z; first | (refine Rests.cut (s₀ := s₀) z ?_ ?_; rotate_left; clear_value z; intro hz; rotate_left; subst z) | clear_value z) | with_reducible assumption | with_reducible apply State.modLatPort_rests | with_reducible apply State.satInc_rests | with_reducible apply State.latReport_rests | with_reducible apply State.latTo_rests | with_reducible apply State.nodeLose_rests | (with_reducible apply Rests.foldl; intro _ _ _) | with_reducible refine Rests.ite ?_ ?_ | (with_reducible apply Rests.upd; with_reducible assumption)

theorem State.bitEvents_rests {s₀ s : State} (_h : Rests s₀ s) (t : State) (p : Nat) (node : Nat) (ht : Rests s₀ t) : Rests s₀ (State.bitEvents s t p node) := by
  unfold State.bitEvents
  repeat' first | (extract_lets +onlyGivenNames z; first | (refine Rests.cut (s₀ := s₀) z ?_ ?_; rotate_left; clear_value z; intro hz; rotate_left; subst z) | (have _f := fun a => z a; clear _f; subst z; try dsimp -zeta only) | clear_value z) | with_reducible assumption | with_reducible apply State.event_rests | (with_reducible apply Rests.foldl; intro _ _ _) | with_reducible refine Rests.ite ?_ ?_

theorem State.nodeAlive_rests {s₀ s : State} (h : Rests s₀ s) (p : Nat) (node : Nat) (img : List Byte) : Rests s₀ (State.nodeAlive s p node img) := by
  unfold State.nodeAlive
  try dsimp only
  repeat' first | with_reducible assumption | with_reducible apply State.setWord_rests | with_reducible apply State.modLatPort_rests | with_reducible apply State.bitEvents_rests | with_reducible apply State.setF_rests | with_reducible apply State.event_rests | (with_reducible apply Rests.foldl; intro _ _ _) | with_reducible refine Rests.ite ?_ ?_ | (with_reducible apply Rests.upd; with_reducible assumption)

theorem State.nodeSilent_rests {s₀ s : State} (h : Rests s₀ s) (p : Nat) (node : Nat) : Rests s₀ (State.nodeSilent s p node) := by
  unfold State.nodeSilent
  try dsimp only
  repeat' first | with_reducible assumption | with_reducible apply State.satInc_rests | with_reducible apply State.modLatPort_rests | with_reducible apply State.nodeLost_rests | with_reducible refine Rests.ite ?_ ?_ | (with_reducible apply Rests.upd; with_reducible assumption)

theorem State.goodCycle_rests {s₀ s : State} (h : Rests s₀ s) (p : Nat) (b : List Byte) : Rests s₀ (State.goodCycle s p b) := by
  unfold State.goodCycle
  repeat' first | (extract_lets +onlyGivenNames z; first | (refine Rests.cut (s₀ := s₀) z ?_ ?_; rotate_left; clear_value z; intro hz; rotate_left; subst z) | (refine Rests.cut (s₀ := s₀) (z : _ × State).2 ?_ ?_; rotate_left; clear_value z; intro hz; rotate_left; subst z) | (refine Rests.cut (s₀ := s₀) (z : State × _).1 ?_ ?_; rotate_left; clear_value z; intro hz; rotate_left; subst z) | (refine Rests.cut (s₀ := s₀) (z : _ × _ × State).2.2 ?_ ?_; rotate_left; clear_value z; intro hz; rotate_left; subst z) | clear_value z) | with_reducible assumption | with_reducible apply State.setLatPort_rests | with_reducible apply State.wrapInc_rests | with_reducible apply State.latTo_rests | with_reducible apply State.nodeAlive_rests | with_reducible apply State.nodeSilent_rests | (with_reducible apply Rests.foldl; intro _ _ _) | (with_reducible apply Rests.foldl_snd; intro _ _ _) | (with_reducible apply Rests.foldl_fst; intro _ _ _) | with_reducible refine Rests.ite ?_ ?_ | with_reducible refine Rests.ite_snd ?_ ?_ | with_reducible refine Rests.ite_fst ?_ ?_ | split | (with_reducible apply Rests.upd; first | with_reducible assumption | with_reducible apply State.setLatPort_rests | with_reducible apply State.wrapInc_rests | with_reducible apply State.latTo_rests | with_reducible apply State.nodeAlive_rests | with_reducible apply State.nodeSilent_rests) | dsimp only

theorem State.joinRead_rests {s₀ s : State} (h : Rests s₀ s) (p : Nat) (node : Nat) (data : Option (List Byte)) : Rests s₀ (State.joinRead s p node data) := by
  unfold State.joinRead
  try dsimp only
  repeat' first | with_reducible assumption | with_reducible apply State.modLatPort_rests | with_reducible apply State.setF_rests | with_reducible apply State.event_rests | with_reducible apply State.latReport_rests | with_reducible refine Rests.ite ?_ ?_ | split | (with_reducible apply Rests.upd; with_reducible assumption)

theorem State.mbxOver_rests {s₀ s : State} (h : Rests s₀ s) (p : Nat) (m : LatMbx) (code : Nat) (data : Option (List Byte)) : Rests s₀ (State.mbxOver s p m code data) := by
  unfold State.mbxOver
  repeat' first | with_reducible assumption | with_reducible apply State.joinRead_rests | with_reducible apply State.mbxEnd_rests | with_reducible refine Rests.ite ?_ ?_

theorem State.mbxFail_rests {s₀ s : State} (h : Rests s₀ s) (p : Nat) (m : LatMbx) : Rests s₀ (State.mbxFail s p m) := by
  unfold State.mbxFail
  repeat' first | (extract_lets +onlyGivenNames z; first | (refine Rests.cut (s₀ := s₀) z ?_ ?_; rotate_left; clear_value z; intro hz; rotate_left; subst z) | clear_value z) | with_reducible assumption | with_reducible apply State.modLatPort_rests | with_reducible apply State.mbxOver_rests | with_reducible refine Rests.ite ?_ ?_ | (with_reducible apply Rests.upd; with_reducible assumption)

theorem State.latSlot_rests {s₀ s : State} (h : Rests s₀ s) (p : Nat) : Rests s₀ (State.latSlot s p) := by
  unfold State.latSlot
  try dsimp only
  repeat' first | with_reducible assumption | with_reducible apply State.mbxFail_rests | with_reducible apply State.setLatPort_rests | with_reducible apply State.emit_rests | with_reducible refine Rests.ite ?_ ?_ | split | (with_reducible apply Rests.upd; with_reducible assumption)

end Sys2Proof.Machine
end

