-- ==== Sys2Proof/Laws/RestLateral.lean ====
section
/-! SUPPORT. Which operations of Machine/Lateral.lean leave the memories as they are (Laws/Rest.lean). -/
namespace Sys2Proof.Machine
set_option Elab.async false
set_option linter.all false

theorem State.latGuard_rests {s₀ s t : State} {p : Nat} {off : Nat} {value : Nat} (h : Rests s₀ s) (e : State.latGuard s p off value = some t) : Rests s₀ t := by
  unfold State.latGuard at e
  repeat' first | (split at e) | (simp only [Option.some.injEq] at e) | (simp only [reduceCtorEq] at e) | subst e
  all_goals (repeat' first | with_reducible assumption | with_reducible apply State.darkWrite_rests | with_reducible refine Rests.ite ?_ ?_ | (simp only [Option.some.injEq, reduceCtorEq] at e))

theorem execLatPortEnable_rests {s₀ s : State} (h : Rests s₀ s) (p : Nat) : RestsAns s₀ (execLatPortEnable p s) := by
  unfold execLatPortEnable
  try dsimp only
  repeat' first | with_reducible assumption | with_reducible apply RestsAns.next | (refine State.latGuard_rests ?_ (by assumption)) | with_reducible apply State.setF_rests | with_reducible apply State.latEnum_rests | with_reducible refine RestsAns.ite ?_ ?_ | with_reducible refine Rests.ite ?_ ?_ | split

theorem execLatPortDisable_rests {s₀ s : State} (h : Rests s₀ s) (p : Nat) : RestsAns s₀ (execLatPortDisable p s) := by
  unfold execLatPortDisable
  try dsimp only
  repeat' first | with_reducible assumption | with_reducible apply RestsAns.next | (refine State.latGuard_rests ?_ (by assumption)) | with_reducible apply State.raise_rests | with_reducible apply State.modLatPort_rests | with_reducible apply State.setF_rests | with_reducible apply State.latTo_rests | with_reducible refine RestsAns.ite ?_ ?_ | with_reducible refine Rests.ite ?_ ?_ | split | (with_reducible apply Rests.upd; with_reducible assumption)

theorem execLatRescan_rests {s₀ s : State} (h : Rests s₀ s) (p : Nat) : RestsAns s₀ (execLatRescan p s) := by
  unfold execLatRescan
  repeat' first | with_reducible assumption | with_reducible apply RestsAns.next | (refine State.latGuard_rests ?_ (by assumption)) | with_reducible apply State.raise_rests | with_reducible apply State.latEnum_rests | with_reducible refine RestsAns.ite ?_ ?_ | with_reducible refine Rests.ite ?_ ?_ | split

theorem execLatEnumSend_rests {s₀ s : State} (h : Rests s₀ s) (p : Nat) : RestsAns s₀ (execLatEnumSend p s) := by
  unfold execLatEnumSend
  repeat' first | (extract_lets +onlyGivenNames z; first | (refine Rests.cut (s₀ := s₀) z ?_ ?_; rotate_left; clear_value z; intro hz; rotate_left; subst z) | clear_value z) | with_reducible assumption | with_reducible apply RestsAns.next | with_reducible apply State.modLatPort_rests | with_reducible apply State.emit_rests | with_reducible refine RestsAns.ite ?_ ?_ | with_reducible refine Rests.ite ?_ ?_ | (with_reducible apply Rests.upd; with_reducible assumption)

theorem execLatEnumReturn_rests {s₀ s : State} (h : Rests s₀ s) (p : Nat) (frame : Option (List (BitVec 8))) : RestsAns s₀ (execLatEnumReturn p frame s) := by
  unfold execLatEnumReturn
  repeat' first | (extract_lets +onlyGivenNames z; first | (refine Rests.cut (s₀ := s₀) z ?_ ?_; rotate_left; clear_value z; intro hz; rotate_left; subst z) | clear_value z) | with_reducible assumption | with_reducible apply RestsAns.next | with_reducible apply State.setF_rests | with_reducible apply State.modLatPort_rests | with_reducible apply State.latMismatch_rests | with_reducible apply State.setWord_rests | with_reducible apply State.latTo_rests | (with_reducible apply Rests.foldl; intro _ _ _) | with_reducible refine RestsAns.ite ?_ ?_ | with_reducible refine Rests.ite ?_ ?_ | split | (with_reducible apply Rests.upd; with_reducible assumption)

theorem execLatCycleStart_rests {s₀ s : State} (h : Rests s₀ s) (p : Nat) : RestsAns s₀ (execLatCycleStart p s) := by
  unfold execLatCycleStart
  repeat' first | (extract_lets +onlyGivenNames z; first | (refine Rests.cut (s₀ := s₀) z ?_ ?_; rotate_left; clear_value z; intro hz; rotate_left; subst z) | clear_value z) | with_reducible assumption | with_reducible apply RestsAns.next | with_reducible apply State.latSlot_rests | with_reducible apply State.badCycle_rests | with_reducible apply State.setB_rests | with_reducible apply State.setF_rests | with_reducible apply State.emit_rests | with_reducible apply State.modLatPort_rests | with_reducible refine RestsAns.ite ?_ ?_ | with_reducible refine Rests.ite ?_ ?_ | (with_reducible apply Rests.upd; with_reducible assumption)

theorem execLatCyclicReturn_rests {s₀ s : State} (h : Rests s₀ s) (p : Nat) (frame : Option (List (BitVec 8))) : RestsAns s₀ (execLatCyclicReturn p frame s) := by
  unfold execLatCyclicReturn
  repeat' first | with_reducible assumption | with_reducible apply RestsAns.next | with_reducible apply State.goodCycle_rests | with_reducible apply State.badCycle_rests | with_reducible refine RestsAns.ite ?_ ?_ | with_reducible refine Rests.ite ?_ ?_ | split

theorem execLatOimgWrite_rests {s₀ s : State} (h : Rests s₀ s) (p : Nat) (node : Nat) (w : Nat) (value : BitVec 32) : RestsAns s₀ (execLatOimgWrite p node w value s) := by
  unfold execLatOimgWrite
  try dsimp only
  repeat' first | with_reducible assumption | with_reducible apply RestsAns.next | (refine State.latGuard_rests ?_ (by assumption)) | with_reducible apply State.satInc_rests | with_reducible apply State.setWord_rests | (with_reducible apply Rests.foldl; intro _ _ _) | with_reducible refine RestsAns.ite ?_ ?_ | with_reducible refine Rests.ite ?_ ?_ | split

theorem State.latMbxGo_rests {s₀ s : State} (h : Rests s₀ s) (p : Nat) (cmd : Nat) : Rests s₀ (State.latMbxGo s p cmd) := by
  unfold State.latMbxGo
  try dsimp only
  repeat' first | with_reducible assumption | (refine State.latGuard_rests ?_ (by assumption)) | with_reducible apply State.raise_rests | with_reducible apply State.setF_rests | with_reducible apply State.mbxEnd_rests | with_reducible apply State.setLatPort_rests | with_reducible refine Rests.ite ?_ ?_ | split | (with_reducible apply Rests.upd; with_reducible assumption)

theorem execLatMbxRead_rests {s₀ s : State} (h : Rests s₀ s) (p : Nat) : RestsAns s₀ (execLatMbxRead p s) := by
  unfold execLatMbxRead
  repeat' first | with_reducible assumption | with_reducible apply RestsAns.next | with_reducible apply State.latMbxGo_rests

theorem execLatMbxWrite_rests {s₀ s : State} (h : Rests s₀ s) (p : Nat) : RestsAns s₀ (execLatMbxWrite p s) := by
  unfold execLatMbxWrite
  repeat' first | with_reducible assumption | with_reducible apply RestsAns.next | with_reducible apply State.latMbxGo_rests

theorem execLatMbxReturn_rests {s₀ s : State} (h : Rests s₀ s) (p : Nat) (frame : Option (List (BitVec 8))) : RestsAns s₀ (execLatMbxReturn p frame s) := by
  unfold execLatMbxReturn
  try dsimp only
  repeat' first | with_reducible assumption | with_reducible apply RestsAns.next | with_reducible apply State.mbxFail_rests | with_reducible apply State.modLatPort_rests | with_reducible apply State.mbxOver_rests | with_reducible refine RestsAns.ite ?_ ?_ | with_reducible refine Rests.ite ?_ ?_ | split | (with_reducible apply Rests.upd; with_reducible assumption)

theorem execLatMbxTimeout_rests {s₀ s : State} (h : Rests s₀ s) (p : Nat) : RestsAns s₀ (execLatMbxTimeout p s) := by
  unfold execLatMbxTimeout
  repeat' first | with_reducible assumption | with_reducible apply RestsAns.next | with_reducible apply State.mbxOver_rests | with_reducible refine RestsAns.ite ?_ ?_ | with_reducible refine Rests.ite ?_ ?_ | split

theorem execLatJoinSend_rests {s₀ s : State} (h : Rests s₀ s) (p : Nat) : RestsAns s₀ (execLatJoinSend p s) := by
  unfold execLatJoinSend
  try dsimp only
  repeat' first | with_reducible assumption | with_reducible apply RestsAns.next | with_reducible apply State.setLatPort_rests | with_reducible refine RestsAns.ite ?_ ?_ | with_reducible refine Rests.ite ?_ ?_ | split | (with_reducible apply Rests.upd; with_reducible assumption)

theorem execLatJoinReturn_rests {s₀ s : State} (h : Rests s₀ s) (p : Nat) (frame : Option (List (BitVec 8))) : RestsAns s₀ (execLatJoinReturn p frame s) := by
  unfold execLatJoinReturn
  repeat' first | (extract_lets +onlyGivenNames z; first | (refine Rests.cut (s₀ := s₀) z ?_ ?_; rotate_left; clear_value z; intro hz; rotate_left; subst z) | clear_value z) | with_reducible assumption | with_reducible apply RestsAns.next | with_reducible apply State.modLatPort_rests | with_reducible refine RestsAns.ite ?_ ?_ | with_reducible refine Rests.ite ?_ ?_ | split | (with_reducible apply Rests.upd; with_reducible assumption)

theorem State.setFan_rests {s₀ s : State} (h : Rests s₀ s) (fc : Nat) (x : FanCh) : Rests s₀ (State.setFan s fc x) := by
  unfold State.setFan
  try dsimp only
  repeat' first | with_reducible assumption | (with_reducible apply Rests.upd; with_reducible assumption)

theorem State.fanTo_rests {s₀ s : State} (h : Rests s₀ s) (fc : Nat) (v : Nat) (drive : Nat) : Rests s₀ (State.fanTo s fc v drive) := by
  unfold State.fanTo
  try dsimp only
  repeat' first | with_reducible assumption | with_reducible apply State.setFan_rests | with_reducible apply State.setF_rests | (with_reducible apply Rests.upd; with_reducible assumption)

theorem State.fanKick_rests {s₀ s : State} (h : Rests s₀ s) (fc : Nat) : Rests s₀ (State.fanKick s fc) := by
  unfold State.fanKick
  try dsimp only
  repeat' first | with_reducible assumption | with_reducible apply State.fanTo_rests | with_reducible apply State.setFan_rests | with_reducible apply State.setF_rests | (with_reducible apply Rests.upd; with_reducible assumption)

theorem State.fanFault_rests {s₀ s : State} (h : Rests s₀ s) (fc : Nat) (drive : Nat) : Rests s₀ (State.fanFault s fc drive) := by
  unfold State.fanFault
  repeat' first | with_reducible assumption | with_reducible apply State.fanTo_rests | with_reducible apply State.report_rests | with_reducible apply State.event_rests

theorem State.fanStart_rests {s₀ s : State} (h : Rests s₀ s) (fc : Nat) : Rests s₀ (State.fanStart s fc) := by
  unfold State.fanStart
  repeat' first | with_reducible assumption | with_reducible apply State.setF_rests | with_reducible apply State.fanKick_rests

theorem execFanDutyWrite_rests {s₀ s : State} (h : Rests s₀ s) (fc : Nat) (duty : BitVec 16) : RestsAns s₀ (execFanDutyWrite fc duty s) := by
  unfold execFanDutyWrite
  try dsimp only
  repeat' first | with_reducible assumption | with_reducible apply RestsAns.next | with_reducible apply State.darkWrite_rests | with_reducible apply State.setF_rests | with_reducible apply State.fanTo_rests | with_reducible apply State.fanStart_rests | with_reducible refine RestsAns.ite ?_ ?_ | with_reducible refine Rests.ite ?_ ?_

theorem execFanKickEnd_rests {s₀ s : State} (h : Rests s₀ s) (fc : Nat) (rpm : Nat) : RestsAns s₀ (execFanKickEnd fc rpm s) := by
  unfold execFanKickEnd
  repeat' first | with_reducible assumption | with_reducible apply RestsAns.next | with_reducible apply State.fanTo_rests | with_reducible apply State.fanFault_rests | with_reducible refine RestsAns.ite ?_ ?_ | with_reducible refine Rests.ite ?_ ?_

theorem execFanRetry_rests {s₀ s : State} (h : Rests s₀ s) (fc : Nat) : RestsAns s₀ (execFanRetry fc s) := by
  unfold execFanRetry
  repeat' first | with_reducible assumption | with_reducible apply RestsAns.next | with_reducible apply State.fanKick_rests | with_reducible refine RestsAns.ite ?_ ?_ | with_reducible refine Rests.ite ?_ ?_

theorem execFanMeasure_rests {s₀ s : State} (h : Rests s₀ s) (fc : Nat) (rpm : Nat) : RestsAns s₀ (execFanMeasure fc rpm s) := by
  unfold execFanMeasure
  try dsimp only
  repeat' first | with_reducible assumption | with_reducible apply RestsAns.next | with_reducible apply State.setF_rests | with_reducible apply State.fanFault_rests | with_reducible refine RestsAns.ite ?_ ?_ | with_reducible refine Rests.ite ?_ ?_

theorem execFanTachLost_rests {s₀ s : State} (h : Rests s₀ s) (fc : Nat) : RestsAns s₀ (execFanTachLost fc s) := by
  unfold execFanTachLost
  repeat' first | (extract_lets +onlyGivenNames z; first | (refine Rests.cut (s₀ := s₀) z ?_ ?_; rotate_left; clear_value z; intro hz; rotate_left; subst z) | clear_value z) | with_reducible assumption | with_reducible apply RestsAns.next | with_reducible apply State.setFan_rests | with_reducible apply State.fanTo_rests | with_reducible apply State.raise_rests | with_reducible apply State.report_rests | with_reducible apply State.pf_rests | with_reducible apply State.event_rests | with_reducible apply State.fanFault_rests | with_reducible refine RestsAns.ite ?_ ?_ | with_reducible refine Rests.ite ?_ ?_ | (with_reducible apply Rests.upd; with_reducible assumption)

theorem execFanTachRecover_rests {s₀ s : State} (h : Rests s₀ s) (fc : Nat) : RestsAns s₀ (execFanTachRecover fc s) := by
  unfold execFanTachRecover
  repeat' first | with_reducible assumption | with_reducible apply RestsAns.next | with_reducible apply State.fanTo_rests | with_reducible refine RestsAns.ite ?_ ?_ | with_reducible refine Rests.ite ?_ ?_

theorem execFanClear_rests {s₀ s : State} (h : Rests s₀ s) (fc : Nat) : RestsAns s₀ (execFanClear fc s) := by
  unfold execFanClear
  try dsimp only
  repeat' first | with_reducible assumption | with_reducible apply RestsAns.next | with_reducible apply State.darkWrite_rests | with_reducible apply State.fanTo_rests | with_reducible apply State.fanStart_rests | with_reducible refine RestsAns.ite ?_ ?_ | with_reducible refine Rests.ite ?_ ?_

end Sys2Proof.Machine
end

