-- ==== Sys2Proof/Laws/RestLoops.lean ====
section
/-! SUPPORT. Which operations of Machine/Loops.lean leave the memories as they are (Laws/Rest.lean). -/
namespace Sys2Proof.Machine
set_option Elab.async false
set_option linter.all false

theorem State.lpRefuse_rests {s₀ s : State} (h : Rests s₀ s) (lp : Nat) (code : Nat) : Rests s₀ (State.lpRefuse s lp code) := by
  unfold State.lpRefuse
  try dsimp only
  repeat' first | with_reducible assumption | with_reducible apply State.raise_rests | with_reducible apply State.satInc_rests | with_reducible apply State.setF_rests | with_reducible refine Rests.ite ?_ ?_

theorem State.lpDark_rests {s₀ s : State} (h : Rests s₀ s) (lp : Nat) (cmd : Nat) : Rests s₀ (State.lpDark s lp cmd) := by
  unfold State.lpDark
  try dsimp only
  repeat' first | with_reducible assumption | with_reducible apply State.darkWrite_rests | with_reducible apply State.lpRefuse_rests | with_reducible refine Rests.ite ?_ ?_

theorem execLoopOff_rests {s₀ s : State} (h : Rests s₀ s) (lp : Nat) : RestsAns s₀ (execLoopOff lp s) := by
  unfold execLoopOff
  repeat' first | with_reducible assumption | with_reducible apply RestsAns.next | with_reducible apply State.lpDark_rests | with_reducible apply State.lpRefuse_rests | with_reducible apply State.lpOff_rests | with_reducible refine RestsAns.ite ?_ ?_ | with_reducible refine Rests.ite ?_ ?_

theorem execLoopOpen_rests {s₀ s : State} (h : Rests s₀ s) (lp : Nat) : RestsAns s₀ (execLoopOpen lp s) := by
  unfold execLoopOpen
  try dsimp only
  repeat' first | with_reducible assumption | with_reducible apply RestsAns.next | with_reducible apply State.lpDark_rests | with_reducible apply State.modLoop_rests | with_reducible apply State.setF_rests | with_reducible apply State.lpTo_rests | with_reducible apply State.lpRefuse_rests | with_reducible apply State.setLoop_rests | with_reducible refine RestsAns.ite ?_ ?_ | with_reducible refine Rests.ite ?_ ?_ | (with_reducible apply Rests.upd; with_reducible assumption)

theorem State.lpConstants_rests {s₀ s : State} (h : Rests s₀ s) (lp : Nat) : Rests s₀ (State.lpConstants s lp) := by
  unfold State.lpConstants
  try dsimp only
  repeat' first | with_reducible assumption | with_reducible apply State.modLoop_rests | (with_reducible apply Rests.upd; with_reducible assumption)

theorem State.lpReclose_rests {s₀ s : State} (h : Rests s₀ s) (lp : Nat) : Rests s₀ (State.lpReclose s lp) := by
  unfold State.lpReclose
  repeat' first | with_reducible assumption | with_reducible apply State.lpConstants_rests | with_reducible apply State.lpTo_rests | with_reducible apply State.lpRefuse_rests | with_reducible refine Rests.ite ?_ ?_

theorem execLoopClose_rests {s₀ s : State} (h : Rests s₀ s) (lp : Nat) : RestsAns s₀ (execLoopClose lp s) := by
  unfold execLoopClose
  repeat' first | with_reducible assumption | with_reducible apply RestsAns.next | with_reducible apply State.lpDark_rests | with_reducible apply State.lpRefuse_rests | with_reducible apply State.lpConstants_rests | with_reducible apply State.lpTo_rests | with_reducible refine RestsAns.ite ?_ ?_ | with_reducible refine Rests.ite ?_ ?_

theorem State.lpArrive_rests {s₀ s : State} (h : Rests s₀ s) (lp : Nat) (code : BitVec 16) : Rests s₀ (State.lpArrive s lp code) := by
  unfold State.lpArrive
  try dsimp only
  repeat' first | with_reducible assumption | with_reducible apply State.setF_rests | with_reducible apply State.setPoly_rests | with_reducible refine Rests.ite ?_ ?_

theorem State.lpConclude_rests {s₀ s : State} (h : Rests s₀ s) (lp : Nat) (ev : LpEval) : Rests s₀ (State.lpConclude s lp ev) := by
  unfold State.lpConclude
  try dsimp only
  repeat' first | with_reducible assumption | with_reducible apply State.setLoop_rests | with_reducible apply State.lpFault_rests | with_reducible apply State.lpShow_rests | with_reducible refine Rests.ite ?_ ?_ | (with_reducible apply Rests.upd; with_reducible assumption)

theorem execLoopSample_rests {s₀ s : State} (h : Rests s₀ s) (lp : Nat) (code : BitVec 16) (ecc : Nat) : RestsAns s₀ (execLoopSample lp code ecc s) := by
  unfold execLoopSample
  try dsimp only
  repeat' first | with_reducible assumption | with_reducible apply RestsAns.next | with_reducible apply State.report_rests | with_reducible apply State.setF_rests | with_reducible apply State.lpFault_rests | with_reducible apply State.lpArrive_rests | with_reducible apply State.lpRaw_rests | with_reducible apply State.lpConclude_rests | (refine Rests.of_thd ?_ (by assumption)) | with_reducible refine RestsAns.ite ?_ ?_ | with_reducible refine Rests.ite ?_ ?_ | with_reducible refine Rests.ite_snd ?_ ?_ | with_reducible refine Rests.ite_fst ?_ ?_ | split | dsimp only

theorem execLoopOutput_rests {s₀ s : State} (h : Rests s₀ s) (lp : Nat) (late : Bool) : RestsAns s₀ (execLoopOutput lp late s) := by
  unfold execLoopOutput
  repeat' first | (extract_lets +onlyGivenNames z; first | (refine Rests.cut (s₀ := s₀) z ?_ ?_; rotate_left; clear_value z; intro hz; rotate_left; subst z) | clear_value z) | with_reducible assumption | with_reducible apply RestsAns.next | with_reducible apply State.modLoop_rests | with_reducible apply State.satInc_rests | with_reducible apply State.lpFault_rests | with_reducible apply State.lpSafe_rests | with_reducible apply State.lpDrive_rests | with_reducible refine RestsAns.ite ?_ ?_ | with_reducible refine Rests.ite ?_ ?_ | split | (with_reducible apply Rests.upd; with_reducible assumption)

theorem execAdcScanConversion_rests {s₀ s : State} (h : Rests s₀ s) (ch : Nat) (code : BitVec 16) : RestsAns s₀ (execAdcScanConversion ch code s) := by
  unfold execAdcScanConversion
  try dsimp only
  repeat' first | with_reducible assumption | with_reducible apply RestsAns.next | with_reducible apply State.setF_rests | with_reducible refine RestsAns.ite ?_ ?_ | with_reducible refine Rests.ite ?_ ?_ | (with_reducible apply Rests.upd; with_reducible assumption)

theorem execPwmCarrierPeriod_rests {s₀ s : State} (h : Rests s₀ s) (c : Nat) : RestsAns s₀ (execPwmCarrierPeriod c s) := by
  unfold execPwmCarrierPeriod
  try dsimp only
  repeat' first | with_reducible assumption | with_reducible apply RestsAns.next | with_reducible apply State.emit_rests | with_reducible refine RestsAns.ite ?_ ?_ | with_reducible refine Rests.ite ?_ ?_ | (with_reducible apply Rests.upd; with_reducible assumption)

theorem execPolySearchShift_rests {s₀ s : State} (h : Rests s₀ s) (st : Nat) : RestsAns s₀ (execPolySearchShift st s) := by
  unfold execPolySearchShift
  repeat' first | (extract_lets +onlyGivenNames z; first | (refine Rests.cut (s₀ := s₀) z ?_ ?_; rotate_left; clear_value z; intro hz; rotate_left; subst z) | clear_value z) | with_reducible assumption | with_reducible apply RestsAns.next | with_reducible apply State.modScnSt_rests | with_reducible apply State.modLoop_rests | with_reducible refine RestsAns.ite ?_ ?_ | with_reducible refine Rests.ite ?_ ?_ | split | (with_reducible apply Rests.upd; with_reducible assumption)

end Sys2Proof.Machine
end

