-- ==== Sys2Proof/Laws/RestHeadgate.lean ====
section
/-! SUPPORT. Which operations of Machine/Headgate.lean leave the memories as they are (Laws/Rest.lean). -/
namespace Sys2Proof.Machine
set_option Elab.async false
set_option linter.all false

theorem State.hdgReport_rests {s₀ s : State} (h : Rests s₀ s) (cls : Nat) (cause : Nat) (st : Nat) (e : Nat) : Rests s₀ (State.hdgReport s cls cause st e) := by
  unfold State.hdgReport
  repeat' first | with_reducible assumption | with_reducible apply State.report_rests

theorem execInterlockChange_rests {s₀ s : State} (h : Rests s₀ s) (cover : Nat) (isOpen : Bool) : RestsAns s₀ (execInterlockChange cover isOpen s) := by
  unfold execInterlockChange
  repeat' first | (extract_lets +onlyGivenNames z; first | (refine Rests.cut (s₀ := s₀) z ?_ ?_; rotate_left; clear_value z; intro hz; rotate_left; subst z) | clear_value z) | with_reducible assumption | with_reducible apply RestsAns.next | with_reducible apply State.setF_rests | with_reducible apply State.hdgSync_rests | with_reducible apply State.satInc_rests | with_reducible apply State.hdgReport_rests | (with_reducible apply Rests.foldl; intro _ _ _) | with_reducible refine RestsAns.ite ?_ ?_ | with_reducible refine Rests.ite ?_ ?_

theorem State.gateTo_rests {s₀ s : State} (h : Rests s₀ s) (st : Nat) (shut : Bool) : Rests s₀ (State.gateTo s st shut) := by
  unfold State.gateTo
  try dsimp only
  repeat' first | with_reducible assumption | with_reducible apply State.setHdgSt_rests | with_reducible apply State.setB_rests | with_reducible apply State.hdgSync_rests | with_reducible refine Rests.ite ?_ ?_ | (with_reducible apply Rests.upd; with_reducible assumption)

theorem execTachEdge_rests {s₀ s : State} (h : Rests s₀ s) (enc : Nat) : RestsAns s₀ (execTachEdge enc s) := by
  unfold execTachEdge
  try dsimp only
  repeat' first | with_reducible assumption | with_reducible apply RestsAns.next | with_reducible apply State.setHdgSt_rests | with_reducible apply State.gateTo_rests | (with_reducible apply Rests.foldl; intro _ _ _) | with_reducible refine RestsAns.ite ?_ ?_ | with_reducible refine Rests.ite ?_ ?_ | (with_reducible apply Rests.upd; with_reducible assumption)

theorem execSpeedGateTimeout_rests {s₀ s : State} (h : Rests s₀ s) (st : Nat) : RestsAns s₀ (execSpeedGateTimeout st s) := by
  unfold execSpeedGateTimeout
  repeat' first | with_reducible assumption | with_reducible apply RestsAns.next | with_reducible apply State.gateTo_rests | with_reducible refine RestsAns.ite ?_ ?_ | with_reducible refine Rests.ite ?_ ?_

theorem execEmitterOntimeExceeded_rests {s₀ s : State} (h : Rests s₀ s) (st : Nat) (emitter : Nat) : RestsAns s₀ (execEmitterOntimeExceeded st emitter s) := by
  unfold execEmitterOntimeExceeded
  repeat' first | (extract_lets +onlyGivenNames z; first | (refine Rests.cut (s₀ := s₀) z ?_ ?_; rotate_left; clear_value z; intro hz; rotate_left; subst z) | clear_value z) | with_reducible assumption | with_reducible apply RestsAns.next | with_reducible apply State.setF_rests | with_reducible apply State.setHdgSt_rests | with_reducible apply State.satInc_rests | with_reducible apply State.hdgSync_rests | with_reducible apply State.hdgReport_rests | with_reducible refine RestsAns.ite ?_ ?_ | with_reducible refine Rests.ite ?_ ?_ | (with_reducible apply Rests.upd; with_reducible assumption)

theorem State.dutyStep_rests {s₀ s : State} (h : Rests s₀ s) (st : Nat) (lines : List Nat) : Rests s₀ (State.dutyStep s st lines) := by
  unfold State.dutyStep
  try dsimp only
  repeat' first | (extract_lets +onlyGivenNames z; first | (refine Rests.cut (s₀ := s₀) z ?_ ?_; rotate_left; clear_value z; intro hz; rotate_left; subst z) | clear_value z) | with_reducible assumption | with_reducible apply State.setHdgSt_rests | with_reducible apply State.setF_rests | with_reducible apply State.satInc_rests | with_reducible apply State.hdgReport_rests | with_reducible apply State.hdgSync_rests | (with_reducible apply Rests.foldl; intro _ _ _) | with_reducible refine Rests.ite ?_ ?_ | split | (with_reducible apply Rests.upd; with_reducible assumption)

theorem execDutyEvaluate_rests {s₀ s : State} (h : Rests s₀ s) (onTimes : List (List Nat)) : RestsAns s₀ (execDutyEvaluate onTimes s) := by
  unfold execDutyEvaluate
  repeat' first | with_reducible assumption | with_reducible apply RestsAns.next | with_reducible apply State.dutyStep_rests | with_reducible apply State.quietSync_rests | (with_reducible apply Rests.foldl; intro _ _ _) | with_reducible refine RestsAns.ite ?_ ?_ | with_reducible refine Rests.ite ?_ ?_

theorem State.hdgLimit_rests {s₀ s : State} (h : Rests s₀ s) (off : Nat) (value : BitVec 32) (ok : Bool) : Rests s₀ (State.hdgLimit s off value ok) := by
  unfold State.hdgLimit
  try dsimp only
  repeat' first | with_reducible assumption | with_reducible apply State.raise_rests | with_reducible apply State.setWord_rests | with_reducible apply State.hdgSync_rests | with_reducible refine Rests.ite ?_ ?_

theorem execHdgLimitWrite_rests {s₀ s : State} (h : Rests s₀ s) (off : Nat) (value : BitVec 32) : RestsAns s₀ (execHdgLimitWrite off value s) := by
  unfold execHdgLimitWrite
  repeat' first | with_reducible assumption | with_reducible apply RestsAns.next | with_reducible apply State.darkWrite_rests | with_reducible apply State.reportAccess_rests | with_reducible apply State.hdgLimit_rests | with_reducible refine RestsAns.ite ?_ ?_ | with_reducible refine Rests.ite ?_ ?_ | split

end Sys2Proof.Machine
end

