-- ==== Sys2Proof/Laws/RestOtp.lean ====
section
/-! SUPPORT. Which operations of Machine/Otp.lean leave the memories as they are (Laws/Rest.lean). -/
namespace Sys2Proof.Machine
set_option Elab.async false
set_option linter.all false

theorem State.otpReport_rests {s₀ s : State} (h : Rests s₀ s) (cls : Nat) (cause : Nat) (row : Nat) : Rests s₀ (State.otpReport s cls cause row) := by
  unfold State.otpReport
  repeat' first | with_reducible assumption | with_reducible apply State.report_rests

theorem State.secReport_rests {s₀ s : State} (h : Rests s₀ s) (cls : Nat) (cause : Nat) (code : Nat) : Rests s₀ (State.secReport s cls cause code) := by
  unfold State.secReport
  repeat' first | with_reducible assumption | with_reducible apply State.report_rests

theorem State.otpBusy_rests {s₀ s : State} (h : Rests s₀ s) : Rests s₀ (State.otpBusy s) := by
  unfold State.otpBusy
  try dsimp only
  repeat' first | with_reducible assumption | with_reducible apply State.setB_rests | split

theorem State.otpNext_rests {s₀ s : State} (h : Rests s₀ s) : Rests s₀ (State.otpNext s) := by
  unfold State.otpNext
  try dsimp only
  repeat' first | with_reducible assumption | with_reducible apply State.otpBusy_rests | (with_reducible apply Rests.upd; with_reducible assumption)

theorem State.otpInternal_rests {s₀ s : State} (h : Rests s₀ s) (x : OtpOp) : Rests s₀ (State.otpInternal s x) := by
  unfold State.otpInternal
  repeat' first | (extract_lets +onlyGivenNames z; first | (refine Rests.cut (s₀ := s₀) z ?_ ?_; rotate_left; clear_value z; intro hz; rotate_left; subst z) | clear_value z) | with_reducible assumption | with_reducible apply State.raise_rests | with_reducible apply State.otpBusy_rests | with_reducible refine Rests.ite ?_ ?_ | (with_reducible apply Rests.upd; with_reducible assumption)

theorem State.otpStart_rests {s₀ s : State} (h : Rests s₀ s) (x : OtpOp) : Rests s₀ (State.otpStart s x) := by
  unfold State.otpStart
  try dsimp only
  repeat' first | with_reducible assumption | with_reducible apply State.raise_rests | with_reducible apply State.mark_rests | with_reducible apply State.otpBusy_rests | with_reducible refine Rests.ite ?_ ?_ | (with_reducible apply Rests.upd; with_reducible assumption)

theorem State.otpCmd_rests {s₀ s : State} (h : Rests s₀ s) (op : Nat) (addr : Nat) (data : BitVec 64) : Rests s₀ (State.otpCmd s op addr data) := by
  unfold State.otpCmd
  repeat' first | with_reducible assumption | with_reducible apply State.otpStart_rests | with_reducible apply State.raise_rests | split

theorem State.otpCmdWrite_rests {s₀ s : State} (h : Rests s₀ s) (op : Nat) (addr : Nat) : Rests s₀ (State.otpCmdWrite s op addr) := by
  unfold State.otpCmdWrite
  repeat' first | with_reducible assumption | with_reducible apply State.darkWrite_rests | with_reducible apply State.otpCmd_rests | with_reducible refine Rests.ite ?_ ?_

theorem execOtpReadS_rests {s₀ s : State} (h : Rests s₀ s) (addr : Nat) : RestsAns s₀ (execOtpReadS addr s) := by
  unfold execOtpReadS
  repeat' first | with_reducible assumption | with_reducible apply RestsAns.next | with_reducible apply State.otpCmdWrite_rests

theorem execOtpWriteS_rests {s₀ s : State} (h : Rests s₀ s) (addr : Nat) : RestsAns s₀ (execOtpWriteS addr s) := by
  unfold execOtpWriteS
  repeat' first | with_reducible assumption | with_reducible apply RestsAns.next | with_reducible apply State.otpCmdWrite_rests

theorem execOtpSetP_rests {s₀ s : State} (h : Rests s₀ s) (addr : Nat) : RestsAns s₀ (execOtpSetP addr s) := by
  unfold execOtpSetP
  repeat' first | with_reducible assumption | with_reducible apply RestsAns.next | with_reducible apply State.otpCmdWrite_rests

theorem State.readWord_rests {s₀ s : State} (h : Rests s₀ s) (w : Nat) (err : Nat) : Rests s₀ (State.readWord s w err) := by
  unfold State.readWord
  try dsimp only
  repeat' first | with_reducible assumption | with_reducible apply State.setOtpWord_rests | with_reducible apply State.satInc_rests | with_reducible apply State.otpReport_rests | with_reducible apply State.set64_rests | with_reducible apply State.drew_rests | with_reducible refine Rests.ite ?_ ?_ | (with_reducible apply Rests.upd; with_reducible assumption)

theorem State.programRow_rests {s₀ s : State} (h : Rests s₀ s) (r : Nat) (m : BitVec 32) (bad : BitVec 32) : Rests s₀ (State.programRow s r m bad).2 := by
  unfold State.programRow
  repeat' first | (extract_lets +onlyGivenNames z; first | (refine Rests.cut (s₀ := s₀) z ?_ ?_; rotate_left; clear_value z; intro hz; rotate_left; subst z) | (refine Rests.cut (s₀ := s₀) (z : _ × State).2 ?_ ?_; rotate_left; clear_value z; intro hz; rotate_left; subst z) | (refine Rests.cut (s₀ := s₀) (z : State × _).1 ?_ ?_; rotate_left; clear_value z; intro hz; rotate_left; subst z) | (refine Rests.cut (s₀ := s₀) (z : _ × _ × State).2.2 ?_ ?_; rotate_left; clear_value z; intro hz; rotate_left; subst z) | clear_value z) | with_reducible assumption | with_reducible apply State.setOtpRow_rests | with_reducible apply State.otpReport_rests | with_reducible apply State.setOtpWord_rests | with_reducible apply State.setWord_rests | with_reducible refine Rests.ite ?_ ?_ | with_reducible refine Rests.ite_snd ?_ ?_ | with_reducible refine Rests.ite_fst ?_ ?_ | split | (with_reducible apply Rests.upd; first | with_reducible assumption | with_reducible apply State.setOtpRow_rests | with_reducible apply State.otpReport_rests | with_reducible apply State.setOtpWord_rests | with_reducible apply State.setWord_rests) | dsimp only

theorem State.programThermo_rests {s₀ s : State} (h : Rests s₀ s) (base : Nat) (n : Nat) (count : Nat) (bad : BitVec 32) : Rests s₀ (State.programThermo s base n count bad).2 := by
  unfold State.programThermo
  try dsimp only
  repeat' first | with_reducible assumption | with_reducible apply State.programRow_rests | (with_reducible apply Rests.foldl; intro _ _ _) | (with_reducible apply Rests.foldl_snd; intro _ _ _) | (with_reducible apply Rests.foldl_fst; intro _ _ _) | (refine Rests.of_snd ?_ (by assumption)) | with_reducible refine Rests.ite ?_ ?_ | with_reducible refine Rests.ite_snd ?_ ?_ | with_reducible refine Rests.ite_fst ?_ ?_ | split | dsimp only

theorem execOtpOperationDone_rests {s₀ s : State} (h : Rests s₀ s) (bad : BitVec 64) (err : Nat) : RestsAns s₀ (execOtpOperationDone bad err s) := by
  unfold execOtpOperationDone
  try dsimp only
  repeat' first | with_reducible assumption | with_reducible apply RestsAns.next | with_reducible apply State.setF_rests | with_reducible apply State.otpNext_rests | with_reducible apply State.otpShow_rests | with_reducible apply State.programThermo_rests | with_reducible apply State.readWord_rests | with_reducible apply State.setOtpWord_rests | with_reducible apply State.programRow_rests | (refine Rests.of_snd ?_ (by assumption)) | with_reducible refine RestsAns.ite ?_ ?_ | with_reducible refine Rests.ite ?_ ?_ | with_reducible refine Rests.ite_snd ?_ ?_ | with_reducible refine Rests.ite_fst ?_ ?_ | split | (with_reducible apply Rests.upd; first | with_reducible assumption | with_reducible apply State.setF_rests | with_reducible apply State.otpNext_rests | with_reducible apply State.otpShow_rests | with_reducible apply State.programThermo_rests | with_reducible apply State.readWord_rests | with_reducible apply State.setOtpWord_rests | with_reducible apply State.programRow_rests) | dsimp only

theorem State.setVariant_rests {s₀ s : State} (h : Rests s₀ s) (v : Variant) : Rests s₀ (State.setVariant s v) :=
  ⟨h.dram, h.tile, h.spool⟩

theorem State.latchFuses_rests {s₀ s : State} (h : Rests s₀ s) : Rests s₀ (State.latchFuses s) := by
  unfold State.latchFuses
  repeat' first | (extract_lets +onlyGivenNames z; first | (refine Rests.cut (s₀ := s₀) z ?_ ?_; rotate_left; clear_value z; intro hz; rotate_left; subst z) | clear_value z) | with_reducible assumption | with_reducible apply State.setVariant_rests | with_reducible apply State.setF_rests | with_reducible apply State.setWord_rests | with_reducible apply State.otpReport_rests | (with_reducible apply Rests.foldl; intro _ _ _) | with_reducible refine Rests.ite ?_ ?_

theorem State.lcRefused_rests {s₀ s : State} (h : Rests s₀ s) : Rests s₀ (State.lcRefused s) := by
  unfold State.lcRefused
  repeat' first | with_reducible assumption | with_reducible apply State.raise_rests

theorem State.askSecured_rests {s₀ s : State} (h : Rests s₀ s) (key : Nat) : Rests s₀ (State.askSecured s key) := by
  unfold State.askSecured
  repeat' first | with_reducible assumption | with_reducible apply State.otpInternal_rests | with_reducible apply State.lcRefused_rests | with_reducible refine Rests.ite ?_ ?_

theorem State.askReturned_rests {s₀ s : State} (h : Rests s₀ s) (key : Nat) : Rests s₀ (State.askReturned s key) := by
  unfold State.askReturned
  repeat' first | with_reducible assumption | with_reducible apply State.otpInternal_rests | with_reducible apply State.lcRefused_rests | with_reducible refine Rests.ite ?_ ?_

theorem State.lcRequest_rests {s₀ s : State} (h : Rests s₀ s) (key : Nat) (target : Nat) : Rests s₀ (State.lcRequest s key target) := by
  unfold State.lcRequest
  repeat' first | with_reducible assumption | with_reducible apply State.askSecured_rests | with_reducible apply State.askReturned_rests | with_reducible apply State.lcRefused_rests | with_reducible refine Rests.ite ?_ ?_

theorem execLcRequestSecured_rests {s₀ s : State} (h : Rests s₀ s) (key : Nat) : RestsAns s₀ (execLcRequestSecured key s) := by
  unfold execLcRequestSecured
  repeat' first | with_reducible assumption | with_reducible apply RestsAns.next | with_reducible apply State.darkWrite_rests | with_reducible apply State.askSecured_rests | with_reducible refine RestsAns.ite ?_ ?_ | with_reducible refine Rests.ite ?_ ?_

theorem execLcRequestReturned_rests {s₀ s : State} (h : Rests s₀ s) (key : Nat) : RestsAns s₀ (execLcRequestReturned key s) := by
  unfold execLcRequestReturned
  repeat' first | with_reducible assumption | with_reducible apply RestsAns.next | with_reducible apply State.darkWrite_rests | with_reducible apply State.askReturned_rests | with_reducible refine RestsAns.ite ?_ ?_ | with_reducible refine Rests.ite ?_ ?_

theorem State.setMarker_rests {s₀ s : State} (h : Rests s₀ s) (n : Nat) : Rests s₀ (State.setMarker s n) := by
  unfold State.setMarker
  repeat' first | (extract_lets +onlyGivenNames z; first | (refine Rests.cut (s₀ := s₀) z ?_ ?_; rotate_left; clear_value z; intro hz; rotate_left; subst z) | clear_value z) | with_reducible assumption | with_reducible apply State.setOtpWord_rests | (with_reducible apply Rests.upd; with_reducible assumption)

theorem State.lcDone_rests {s₀ s : State} (h : Rests s₀ s) (target : Nat) : Rests s₀ (State.lcDone s target) := by
  unfold State.lcDone
  try dsimp only
  repeat' first | with_reducible assumption | with_reducible apply State.setMarker_rests | with_reducible apply State.latchFuses_rests | with_reducible apply State.closeSession_rests | with_reducible apply State.secReport_rests | with_reducible apply State.record_rests

theorem State.writeKeys_rests {s₀ s : State} (h : Rests s₀ s) : Rests s₀ (State.writeKeys s) := by
  unfold State.writeKeys
  repeat' first | (extract_lets +onlyGivenNames z; first | (refine Rests.cut (s₀ := s₀) z ?_ ?_; rotate_left; clear_value z; intro hz; rotate_left; subst z) | clear_value z) | with_reducible assumption | with_reducible apply State.setOtpWord_rests | with_reducible apply State.drew_rests | (with_reducible apply Rests.foldl; intro _ _ _) | with_reducible refine Rests.ite ?_ ?_ | (with_reducible apply Rests.upd; with_reducible assumption)

theorem State.obliterate_rests {s₀ s : State} (h : Rests s₀ s) : Rests s₀ (State.obliterate s) := by
  unfold State.obliterate
  try dsimp only
  repeat' first | with_reducible assumption | with_reducible apply State.setOtpWord_rests | with_reducible apply State.spoolOff_rests | (with_reducible apply Rests.foldl; intro _ _ _) | with_reducible refine Rests.ite ?_ ?_ | (with_reducible apply Rests.upd; with_reducible assumption)

theorem execLcTransitionDone_rests {s₀ s : State} (h : Rests s₀ s) (bad : Bool) : RestsAns s₀ (execLcTransitionDone bad s) := by
  unfold execLcTransitionDone
  repeat' first | (extract_lets +onlyGivenNames z; first | (refine Rests.cut (s₀ := s₀) z ?_ ?_; rotate_left; clear_value z; intro hz; rotate_left; subst z) | clear_value z) | with_reducible assumption | with_reducible apply RestsAns.next | with_reducible apply State.lcRefused_rests | with_reducible apply State.otpNext_rests | with_reducible apply State.writeKeys_rests | with_reducible apply State.setOtpWord_rests | with_reducible apply State.setF_rests | with_reducible apply State.lcDone_rests | with_reducible apply State.obliterate_rests | with_reducible refine RestsAns.ite ?_ ?_ | with_reducible refine Rests.ite ?_ ?_ | split | (with_reducible apply Rests.upd; with_reducible assumption)

theorem State.svnCommit_rests {s₀ s : State} (h : Rests s₀ s) : Rests s₀ (State.svnCommit s) := by
  unfold State.svnCommit
  try dsimp only
  repeat' first | with_reducible assumption | with_reducible apply State.otpInternal_rests | with_reducible refine Rests.ite ?_ ?_

theorem execSvnCommit_rests {s₀ s : State} (h : Rests s₀ s) : RestsAns s₀ (execSvnCommit s) := by
  unfold execSvnCommit
  repeat' first | with_reducible assumption | with_reducible apply RestsAns.next | with_reducible apply State.darkWrite_rests | with_reducible apply State.svnCommit_rests | with_reducible refine RestsAns.ite ?_ ?_ | with_reducible refine Rests.ite ?_ ?_

theorem execTokenRevoke_rests {s₀ s : State} (h : Rests s₀ s) (count : Nat) : RestsAns s₀ (execTokenRevoke count s) := by
  unfold execTokenRevoke
  try dsimp only
  repeat' first | with_reducible assumption | with_reducible apply RestsAns.next | with_reducible apply State.darkWrite_rests | with_reducible apply State.reportAccess_rests | with_reducible apply State.otpInternal_rests | with_reducible refine RestsAns.ite ?_ ?_ | with_reducible refine Rests.ite ?_ ?_

theorem State.drawChallenge_rests {s₀ s : State} (h : Rests s₀ s) : Rests s₀ (State.drawChallenge s) := by
  unfold State.drawChallenge
  repeat' first | (extract_lets +onlyGivenNames z; first | (refine Rests.cut (s₀ := s₀) z ?_ ?_; rotate_left; clear_value z; intro hz; rotate_left; subst z) | clear_value z) | with_reducible assumption | with_reducible apply State.setWord_rests | with_reducible apply State.set64_rests | with_reducible apply State.drew_rests | (with_reducible apply Rests.foldl; intro _ _ _) | with_reducible refine Rests.ite ?_ ?_ | (with_reducible apply Rests.upd; with_reducible assumption)

theorem execChallengeRead_rests {s₀ s : State} (h : Rests s₀ s) : RestsAns s₀ (execChallengeRead s) := by
  unfold execChallengeRead
  try dsimp only
  repeat' first | with_reducible assumption | with_reducible apply RestsAns.next | with_reducible apply State.reportAccess_rests | with_reducible apply State.emit_rests | with_reducible apply State.drawChallenge_rests | with_reducible refine RestsAns.ite ?_ ?_ | with_reducible refine Rests.ite ?_ ?_

theorem State.tokenJudged_rests {s₀ s : State} (h : Rests s₀ s) (code : Nat) : Rests s₀ (State.tokenJudged s code) := by
  unfold State.tokenJudged
  repeat' first | (extract_lets +onlyGivenNames z; first | (refine Rests.cut (s₀ := s₀) z ?_ ?_; rotate_left; clear_value z; intro hz; rotate_left; subst z) | clear_value z) | with_reducible assumption | with_reducible apply State.setF_rests | with_reducible apply State.satInc_rests | with_reducible apply State.secReport_rests | with_reducible refine Rests.ite ?_ ?_ | (with_reducible apply Rests.upd; with_reducible assumption)

theorem State.submit_rests {s₀ s : State} (h : Rests s₀ s) (t : List Byte) : Rests s₀ (State.submit s t) := by
  unfold State.submit
  repeat' first | (extract_lets +onlyGivenNames z; first | (refine Rests.cut (s₀ := s₀) z ?_ ?_; rotate_left; clear_value z; intro hz; rotate_left; subst z) | clear_value z) | with_reducible assumption | with_reducible apply State.raise_rests | with_reducible apply State.setF_rests | with_reducible refine Rests.ite ?_ ?_ | (with_reducible apply Rests.upd; with_reducible assumption)

theorem execTokenSubmit_rests {s₀ s : State} (h : Rests s₀ s) (token : Option (List (BitVec 8))) : RestsAns s₀ (execTokenSubmit token s) := by
  unfold execTokenSubmit
  try dsimp only
  repeat' first | with_reducible assumption | with_reducible apply RestsAns.next | with_reducible apply State.darkWrite_rests | with_reducible apply State.submit_rests | with_reducible refine RestsAns.ite ?_ ?_ | with_reducible refine Rests.ite ?_ ?_

theorem State.openSession_rests {s₀ s : State} (h : Rests s₀ s) (level : Nat) (life : Nat) : Rests s₀ (State.openSession s level life) := by
  unfold State.openSession
  repeat' first | (extract_lets +onlyGivenNames z; first | (refine Rests.cut (s₀ := s₀) z ?_ ?_; rotate_left; clear_value z; intro hz; rotate_left; subst z) | clear_value z) | with_reducible assumption | with_reducible apply State.setF_rests | with_reducible apply State.closeSession_rests | with_reducible apply State.satInc_rests | with_reducible refine Rests.ite ?_ ?_ | (with_reducible apply Rests.upd; with_reducible assumption)

theorem execTokenCheckDone_rests {s₀ s : State} (h : Rests s₀ s) : RestsAns s₀ (execTokenCheckDone s) := by
  unfold execTokenCheckDone
  repeat' first | (extract_lets +onlyGivenNames z; first | (refine Rests.cut (s₀ := s₀) z ?_ ?_; rotate_left; clear_value z; intro hz; rotate_left; subst z) | clear_value z) | with_reducible assumption | with_reducible apply RestsAns.next | with_reducible apply State.setF_rests | with_reducible apply State.tokenJudged_rests | with_reducible apply State.otpInternal_rests | with_reducible apply State.openSession_rests | with_reducible refine RestsAns.ite ?_ ?_ | with_reducible refine Rests.ite ?_ ?_ | split | (with_reducible apply Rests.upd; with_reducible assumption)

theorem execSessionClose_rests {s₀ s : State} (h : Rests s₀ s) : RestsAns s₀ (execSessionClose s) := by
  unfold execSessionClose
  try dsimp only
  repeat' first | with_reducible assumption | with_reducible apply RestsAns.next | with_reducible apply State.darkWrite_rests | with_reducible apply State.closeSession_rests | with_reducible refine RestsAns.ite ?_ ?_ | with_reducible refine Rests.ite ?_ ?_

theorem execSessionExpired_rests {s₀ s : State} (h : Rests s₀ s) : RestsAns s₀ (execSessionExpired s) := by
  unfold execSessionExpired
  repeat' first | with_reducible assumption | with_reducible apply RestsAns.next | with_reducible apply State.closeSession_rests | with_reducible refine RestsAns.ite ?_ ?_ | with_reducible refine Rests.ite ?_ ?_

theorem execTrngHealthFail_rests {s₀ s : State} (h : Rests s₀ s) : RestsAns s₀ (execTrngHealthFail s) := by
  unfold execTrngHealthFail
  try dsimp only
  repeat' first | with_reducible assumption | with_reducible apply RestsAns.next | with_reducible apply State.setF_rests | with_reducible apply State.secReport_rests | with_reducible refine RestsAns.ite ?_ ?_ | with_reducible refine Rests.ite ?_ ?_ | (with_reducible apply Rests.upd; with_reducible assumption)

theorem execTrngRecover_rests {s₀ s : State} (h : Rests s₀ s) : RestsAns s₀ (execTrngRecover s) := by
  unfold execTrngRecover
  repeat' first | with_reducible assumption | with_reducible apply RestsAns.next | with_reducible apply State.setF_rests | with_reducible refine RestsAns.ite ?_ ?_ | with_reducible refine Rests.ite ?_ ?_

end Sys2Proof.Machine
end

