-- ==== Sys2Proof/Laws/RestRecords.lean ====
section
/-! SUPPORT. Which operations of Machine/Records.lean leave the memories as they are (Laws/Rest.lean). -/
namespace Sys2Proof.Machine
set_option Elab.async false
set_option linter.all false

theorem State.setEvr_rests {s₀ s : State} (h : Rests s₀ s) (e : Evr) : Rests s₀ (State.setEvr s e) := by
  unfold State.setEvr
  repeat' first | (extract_lets +onlyGivenNames z; first | (refine Rests.cut (s₀ := s₀) z ?_ ?_; rotate_left; clear_value z; intro hz; rotate_left; subst z) | clear_value z) | with_reducible assumption | (with_reducible apply Rests.upd; with_reducible assumption)

theorem State.flushing_rests {s₀ s : State} (h : Rests s₀ s) : Rests s₀ (State.flushing s) := by
  unfold State.flushing
  repeat' first | with_reducible assumption | with_reducible apply State.setB_rests

theorem State.eraseSector_rests {s₀ s : State} (h : Rests s₀ s) (slot : Nat) (seq : BitVec 32) : Rests s₀ (State.eraseSector s slot seq) := by
  unfold State.eraseSector
  try dsimp only
  repeat' first | with_reducible assumption | with_reducible apply State.setEvr_rests | with_reducible apply State.setF_rests | with_reducible refine Rests.ite ?_ ?_ | (with_reducible apply Rests.upd; with_reducible assumption)

theorem execRecordFlashWrite_rests {s₀ s : State} (h : Rests s₀ s) (ok : Bool) : RestsAns s₀ (execRecordFlashWrite ok s) := by
  unfold execRecordFlashWrite
  try dsimp only
  repeat' first | with_reducible assumption | with_reducible apply RestsAns.next | with_reducible apply State.setF_rests | with_reducible apply State.report_rests | with_reducible apply State.eraseSector_rests | with_reducible apply State.setEvr_rests | with_reducible apply State.flushing_rests | with_reducible refine RestsAns.ite ?_ ?_ | with_reducible refine Rests.ite ?_ ?_ | split | (with_reducible apply Rests.upd; with_reducible assumption)

theorem State.showRecord_rests {s₀ s : State} (h : Rests s₀ s) (b : List Byte) : Rests s₀ (State.showRecord s b) := by
  unfold State.showRecord
  repeat' first | with_reducible assumption | with_reducible apply State.setWord_rests | (with_reducible apply Rests.foldl; intro _ _ _)

theorem State.showNoRecord_rests {s₀ s : State} (h : Rests s₀ s) : Rests s₀ (State.showNoRecord s) := by
  unfold State.showNoRecord
  repeat' first | with_reducible assumption | with_reducible apply State.set64_rests | with_reducible apply State.drew_rests | (with_reducible apply Rests.foldl; intro _ _ _)

theorem State.readRecord_rests {s₀ s : State} (h : Rests s₀ s) (seq : BitVec 32) : Rests s₀ (State.readRecord s seq) := by
  unfold State.readRecord
  try dsimp only
  repeat' first | with_reducible assumption | with_reducible apply State.setWord_rests | with_reducible apply State.setF_rests | with_reducible apply State.setB_rests | with_reducible apply State.showNoRecord_rests | with_reducible apply State.showRecord_rests | with_reducible refine Rests.ite ?_ ?_ | split

theorem execRecordRead_rests {s₀ s : State} (h : Rests s₀ s) (seq : BitVec 32) : RestsAns s₀ (execRecordRead seq s) := by
  unfold execRecordRead
  repeat' first | with_reducible assumption | with_reducible apply RestsAns.next | with_reducible apply State.darkWrite_rests | with_reducible apply State.readRecord_rests | with_reducible refine RestsAns.ite ?_ ?_ | with_reducible refine Rests.ite ?_ ?_

theorem State.startClear_rests {s₀ s : State} (h : Rests s₀ s) (epoch : Nat) : Rests s₀ (State.startClear s epoch) := by
  unfold State.startClear
  repeat' first | (extract_lets +onlyGivenNames z; first | (refine Rests.cut (s₀ := s₀) z ?_ ?_; rotate_left; clear_value z; intro hz; rotate_left; subst z) | clear_value z) | with_reducible assumption | with_reducible apply State.setEvr_rests | with_reducible apply State.record_rests | with_reducible apply State.setF_rests | with_reducible apply State.flushing_rests | (with_reducible apply Rests.upd; with_reducible assumption)

theorem State.askClear_rests {s₀ s : State} (h : Rests s₀ s) (token : List Byte) : Rests s₀ (State.askClear s token).2 := by
  unfold State.askClear
  try dsimp only
  repeat' first | with_reducible assumption | with_reducible apply State.raise_rests | with_reducible apply State.startClear_rests | with_reducible apply State.tokenJudged_rests | with_reducible refine Rests.ite ?_ ?_ | with_reducible refine Rests.ite_snd ?_ ?_ | with_reducible refine Rests.ite_fst ?_ ?_ | split | dsimp only

theorem execRecordClear_rests {s₀ s : State} (h : Rests s₀ s) (value : BitVec 32) : RestsAns s₀ (execRecordClear value s) := by
  unfold execRecordClear
  repeat' first | with_reducible assumption | with_reducible apply RestsAns.next | with_reducible apply State.darkWrite_rests | with_reducible apply State.askClear_rests | (refine Rests.of_snd ?_ (by assumption)) | with_reducible refine RestsAns.ite ?_ ?_ | with_reducible refine Rests.ite ?_ ?_ | with_reducible refine Rests.ite_snd ?_ ?_ | with_reducible refine Rests.ite_fst ?_ ?_ | split | dsimp only

theorem State.clearSectors_rests {s₀ s : State} (h : Rests s₀ s) (seq : Nat) : Rests s₀ (State.clearSectors s seq) := by
  unfold State.clearSectors
  try dsimp only
  repeat' first | with_reducible assumption | with_reducible apply State.setEvr_rests | (with_reducible apply Rests.upd; with_reducible assumption)

theorem execRecordClearDone_rests {s₀ s : State} (h : Rests s₀ s) : RestsAns s₀ (execRecordClearDone s) := by
  unfold execRecordClearDone
  repeat' first | with_reducible assumption | with_reducible apply RestsAns.next | with_reducible apply State.clearSectors_rests | with_reducible apply State.setF_rests | with_reducible apply State.flushing_rests | with_reducible refine RestsAns.ite ?_ ?_ | with_reducible refine Rests.ite ?_ ?_

theorem State.scanRing_rests {s₀ s : State} (h : Rests s₀ s) : Rests s₀ (State.scanRing s) := by
  unfold State.scanRing
  repeat' first | (extract_lets +onlyGivenNames z; first | (refine Rests.cut (s₀ := s₀) z ?_ ?_; rotate_left; clear_value z; intro hz; rotate_left; subst z) | clear_value z) | with_reducible assumption | with_reducible apply State.setEvr_rests | with_reducible apply State.setF_rests | with_reducible apply State.flushing_rests | with_reducible apply State.satInc_rests | with_reducible apply State.setWord_rests | (with_reducible apply Rests.foldl; intro _ _ _) | with_reducible refine Rests.ite ?_ ?_ | split | (with_reducible apply Rests.upd; with_reducible assumption)

theorem State.flushLastWords_rests {s₀ s : State} (h : Rests s₀ s) : Rests s₀ (State.flushLastWords s) := by
  unfold State.flushLastWords
  repeat' first | (extract_lets +onlyGivenNames z; first | (refine Rests.cut (s₀ := s₀) z ?_ ?_; rotate_left; clear_value z; intro hz; rotate_left; subst z) | clear_value z) | with_reducible assumption | with_reducible apply State.record_rests | with_reducible apply State.setF_rests | (with_reducible apply Rests.foldl; intro _ _ _) | (with_reducible apply Rests.upd; with_reducible assumption)

theorem State.calShow_rests {s₀ s : State} (h : Rests s₀ s) : Rests s₀ (State.calShow s) := by
  unfold State.calShow
  try dsimp only
  repeat' first | with_reducible assumption | with_reducible apply State.setB_rests | with_reducible apply State.setWord_rests | with_reducible apply State.setF_rests | split

theorem State.calStore_rests {s₀ s : State} (h : Rests s₀ s) (payload : List Byte) : Rests s₀ (State.calStore s payload) := by
  unfold State.calStore
  try dsimp only
  repeat' first | with_reducible assumption | with_reducible apply State.setEvr_rests | with_reducible apply State.calShow_rests | (with_reducible apply Rests.upd; with_reducible assumption)

theorem State.calStored_rests {s₀ s : State} (h : Rests s₀ s) (ok : Bool) : Rests s₀ (State.calStored s ok) := by
  unfold State.calStored
  try dsimp only
  repeat' first | with_reducible assumption | with_reducible apply State.setEvr_rests | with_reducible apply State.calShow_rests | with_reducible apply State.record_rests | with_reducible refine Rests.ite ?_ ?_ | split | (with_reducible apply Rests.upd; with_reducible assumption)

end Sys2Proof.Machine
end

