-- ==== Sys2Proof/Laws/RestRing.lean ====
section
/-! SUPPORT. Which operations of Machine/Ring.lean leave the memories as they are (Laws/Rest.lean). -/
namespace Sys2Proof.Machine
set_option Elab.async false
set_option linter.all false

theorem execCulEnable_rests {s₀ s : State} (h : Rests s₀ s) (on : Bool) : RestsAns s₀ (execCulEnable on s) := by
  unfold execCulEnable
  try dsimp only
  repeat' first | with_reducible assumption | with_reducible apply RestsAns.next | with_reducible apply State.darkWrite_rests | with_reducible apply State.setF_rests | with_reducible apply State.ringStart_rests | with_reducible apply State.ringStop_rests | with_reducible refine RestsAns.ite ?_ ?_ | with_reducible refine Rests.ite ?_ ?_

theorem execCulRestart_rests {s₀ s : State} (h : Rests s₀ s) : RestsAns s₀ (execCulRestart s) := by
  unfold execCulRestart
  repeat' first | with_reducible assumption | with_reducible apply RestsAns.next | with_reducible apply State.darkWrite_rests | with_reducible apply State.raise_rests | with_reducible apply State.ringStart_rests | with_reducible refine RestsAns.ite ?_ ?_ | with_reducible refine Rests.ite ?_ ?_

theorem State.unfoldCheck_rests {s₀ s : State} (h : Rests s₀ s) : Rests s₀ (State.unfoldCheck s) := by
  unfold State.unfoldCheck
  try dsimp only
  repeat' first | with_reducible assumption | with_reducible apply State.culBroadcast_rests | with_reducible refine Rests.ite ?_ ?_ | (with_reducible apply Rests.upd; with_reducible assumption)

theorem execCulUnfold_rests {s₀ s : State} (h : Rests s₀ s) : RestsAns s₀ (execCulUnfold s) := by
  unfold execCulUnfold
  try dsimp only
  repeat' first | with_reducible assumption | with_reducible apply RestsAns.next | with_reducible apply State.darkWrite_rests | with_reducible apply State.unfoldCheck_rests | with_reducible refine RestsAns.ite ?_ ?_ | with_reducible refine Rests.ite ?_ ?_ | (with_reducible apply Rests.upd; with_reducible assumption)

theorem State.culResend_rests {s₀ s : State} (h : Rests s₀ s) (l : List (List Byte)) : Rests s₀ (State.culResend s l) := by
  unfold State.culResend
  repeat' first | with_reducible assumption | with_reducible apply State.culOut_rests | with_reducible apply State.satInc_rests | (with_reducible apply Rests.foldl; intro _ _ _)

theorem State.foldResend_rests {s₀ s : State} (h : Rests s₀ s) : Rests s₀ (State.foldResend s) := by
  unfold State.foldResend
  try dsimp only
  repeat' first | with_reducible assumption | with_reducible apply State.culResend_rests | with_reducible refine Rests.ite ?_ ?_

theorem State.ringSplit_rests {s₀ s : State} (h : Rests s₀ s) (d : Nat) (e : Nat) : Rests s₀ (State.ringSplit s d e) := by
  unfold State.ringSplit
  try dsimp only
  repeat' first | with_reducible assumption | with_reducible apply State.setF_rests | with_reducible apply State.satInc_rests | with_reducible apply State.setCul_rests | with_reducible apply State.culReport_rests | (with_reducible apply Rests.foldl; intro _ _ _) | with_reducible refine Rests.ite ?_ ?_

theorem State.foldHeard_rests {s₀ s : State} (h : Rests s₀ s) (d : Nat) : Rests s₀ (State.foldHeard s d) := by
  unfold State.foldHeard
  try dsimp only
  repeat' first | with_reducible assumption | with_reducible apply State.setF_rests | with_reducible apply State.setCul_rests | with_reducible apply State.foldResend_rests | with_reducible apply State.ringSplit_rests | with_reducible refine Rests.ite ?_ ?_

theorem State.countFold_rests {s₀ s : State} (h : Rests s₀ s) (link : Nat) : Rests s₀ (State.countFold s link) := by
  unfold State.countFold
  repeat' first | with_reducible assumption | with_reducible apply State.satInc_rests | with_reducible refine Rests.ite ?_ ?_

theorem State.wrapPort_rests {s₀ s : State} (h : Rests s₀ s) (east : Bool) : Rests s₀ (State.wrapPort s east) := by
  unfold State.wrapPort
  repeat' first | (extract_lets +onlyGivenNames z; first | (refine Rests.cut (s₀ := s₀) z ?_ ?_; rotate_left; clear_value z; intro hz; rotate_left; subst z) | clear_value z) | with_reducible assumption | with_reducible apply State.setPortState_rests | with_reducible apply State.emit_rests | with_reducible apply State.countFold_rests | with_reducible apply State.culReport_rests | with_reducible apply State.setCul_rests | with_reducible apply State.pf_rests | with_reducible apply State.foldHeard_rests | with_reducible apply State.setF_rests | with_reducible apply State.culSend_rests | with_reducible refine Rests.ite ?_ ?_ | (with_reducible apply Rests.upd; with_reducible assumption)

theorem State.setLanes_rests {s₀ s : State} (h : Rests s₀ s) (east : Bool) (v : Nat) : Rests s₀ (State.setLanes s east v) := by
  unfold State.setLanes
  repeat' first | with_reducible assumption | with_reducible apply State.setF_rests | with_reducible refine Rests.ite ?_ ?_

theorem execCulPortUp_rests {s₀ s : State} (h : Rests s₀ s) (east : Bool) : RestsAns s₀ (execCulPortUp east s) := by
  unfold execCulPortUp
  repeat' first | (extract_lets +onlyGivenNames z; first | (refine Rests.cut (s₀ := s₀) z ?_ ?_; rotate_left; clear_value z; intro hz; rotate_left; subst z) | clear_value z) | with_reducible assumption | with_reducible apply RestsAns.next | with_reducible apply State.setLanes_rests | with_reducible apply State.setPortState_rests | with_reducible apply State.setCul_rests | with_reducible refine RestsAns.ite ?_ ?_ | with_reducible refine Rests.ite ?_ ?_ | (with_reducible apply Rests.upd; with_reducible assumption)

theorem execCulPortDown_rests {s₀ s : State} (h : Rests s₀ s) (east : Bool) (lanes : BitVec 4) : RestsAns s₀ (execCulPortDown east lanes s) := by
  unfold execCulPortDown
  repeat' first | (extract_lets +onlyGivenNames z; first | (refine Rests.cut (s₀ := s₀) z ?_ ?_; rotate_left; clear_value z; intro hz; rotate_left; subst z) | clear_value z) | with_reducible assumption | with_reducible apply RestsAns.next | with_reducible apply State.setLanes_rests | with_reducible apply State.wrapPort_rests | with_reducible apply State.setPortState_rests | with_reducible apply State.setF_rests | with_reducible apply State.setCul_rests | with_reducible refine RestsAns.ite ?_ ?_ | with_reducible refine Rests.ite ?_ ?_ | (with_reducible apply Rests.upd; with_reducible assumption)

theorem execCulFoldReceived_rests {s₀ s : State} (h : Rests s₀ s) (east : Bool) : RestsAns s₀ (execCulFoldReceived east s) := by
  unfold execCulFoldReceived
  repeat' first | with_reducible assumption | with_reducible apply RestsAns.next | with_reducible apply State.wrapPort_rests | with_reducible refine RestsAns.ite ?_ ?_ | with_reducible refine Rests.ite ?_ ?_

theorem execCulFoldNotice_rests {s₀ s : State} (h : Rests s₀ s) (east : Bool) (msg : List (BitVec 8)) : RestsAns s₀ (execCulFoldNotice east msg s) := by
  unfold execCulFoldNotice
  repeat' first | (extract_lets +onlyGivenNames z; first | (refine Rests.cut (s₀ := s₀) z ?_ ?_; rotate_left; clear_value z; intro hz; rotate_left; subst z) | (refine Rests.cut (s₀ := s₀) (z : _ × State).2 ?_ ?_; rotate_left; clear_value z; intro hz; rotate_left; subst z) | (refine Rests.cut (s₀ := s₀) (z : State × _).1 ?_ ?_; rotate_left; clear_value z; intro hz; rotate_left; subst z) | (refine Rests.cut (s₀ := s₀) (z : _ × _ × State).2.2 ?_ ?_; rotate_left; clear_value z; intro hz; rotate_left; subst z) | clear_value z) | with_reducible assumption | with_reducible apply RestsAns.next | with_reducible apply State.culTake_rests | with_reducible apply State.countFold_rests | with_reducible apply State.foldHeard_rests | with_reducible apply State.setF_rests | with_reducible apply State.setCul_rests | with_reducible apply State.foldResend_rests | (refine Rests.of_snd ?_ (by assumption)) | with_reducible refine RestsAns.ite ?_ ?_ | with_reducible refine Rests.ite ?_ ?_ | with_reducible refine Rests.ite_snd ?_ ?_ | with_reducible refine Rests.ite_fst ?_ ?_ | split | dsimp only

theorem execCulUnfoldCheck_rests {s₀ s : State} (h : Rests s₀ s) : RestsAns s₀ (execCulUnfoldCheck s) := by
  unfold execCulUnfoldCheck
  repeat' first | with_reducible assumption | with_reducible apply RestsAns.next | with_reducible apply State.unfoldCheck_rests

theorem execCulUnfoldMsg_rests {s₀ s : State} (h : Rests s₀ s) (east : Bool) (msg : List (BitVec 8)) : RestsAns s₀ (execCulUnfoldMsg east msg s) := by
  unfold execCulUnfoldMsg
  try dsimp only
  repeat' first | with_reducible assumption | with_reducible apply RestsAns.next | with_reducible apply State.culTake_rests | (refine Rests.of_snd ?_ (by assumption)) | with_reducible refine RestsAns.ite ?_ ?_ | with_reducible refine Rests.ite ?_ ?_ | with_reducible refine Rests.ite_snd ?_ ?_ | with_reducible refine Rests.ite_fst ?_ ?_ | split | (with_reducible apply Rests.upd; first | with_reducible assumption | with_reducible apply State.culTake_rests) | dsimp only

theorem State.unwrapPort_rests {s₀ s : State} (h : Rests s₀ s) (east : Bool) : Rests s₀ (State.unwrapPort s east) := by
  unfold State.unwrapPort
  repeat' first | with_reducible assumption | with_reducible apply State.setPortState_rests | with_reducible refine Rests.ite ?_ ?_

theorem execCulUnwrap_rests {s₀ s : State} (h : Rests s₀ s) : RestsAns s₀ (execCulUnwrap s) := by
  unfold execCulUnwrap
  try dsimp only
  repeat' first | with_reducible assumption | with_reducible apply RestsAns.next | with_reducible apply State.unwrapPort_rests | with_reducible apply State.setF_rests | with_reducible apply State.setCul_rests | with_reducible refine RestsAns.ite ?_ ?_ | with_reducible refine Rests.ite ?_ ?_ | split | (with_reducible apply Rests.upd; with_reducible assumption)

theorem State.culConflict_rests {s₀ s : State} (h : Rests s₀ s) : Rests s₀ (State.culConflict s) := by
  unfold State.culConflict
  repeat' first | with_reducible assumption | with_reducible apply State.setCul_rests | with_reducible apply State.culReport_rests | with_reducible refine Rests.ite ?_ ?_

theorem State.takeTable_rests {s₀ s : State} (h : Rests s₀ s) (body : List Byte) : Rests s₀ (State.takeTable s body) := by
  unfold State.takeTable
  repeat' first | (extract_lets +onlyGivenNames z; first | (refine Rests.cut (s₀ := s₀) z ?_ ?_; rotate_left; clear_value z; intro hz; rotate_left; subst z) | clear_value z) | with_reducible assumption | with_reducible apply State.setWord_rests | with_reducible apply State.setF_rests | with_reducible apply State.setCul_rests | (with_reducible apply Rests.foldl; intro _ _ _) | with_reducible refine Rests.ite ?_ ?_

theorem State.delayAsk_rests {s₀ s : State} (h : Rests s₀ s) : Rests s₀ (State.delayAsk s) := by
  unfold State.delayAsk
  try dsimp only
  repeat' first | with_reducible assumption | with_reducible apply State.culSend_rests | split | (with_reducible apply Rests.upd; with_reducible assumption)

theorem State.delayStart_rests {s₀ s : State} (h : Rests s₀ s) : Rests s₀ (State.delayStart s) := by
  unfold State.delayStart
  try dsimp only
  repeat' first | with_reducible assumption | with_reducible apply State.setCul_rests | with_reducible apply State.delayAsk_rests | with_reducible refine Rests.ite ?_ ?_ | (with_reducible apply Rests.upd; with_reducible assumption)

theorem execCulIndexSend_rests {s₀ s : State} (h : Rests s₀ s) : RestsAns s₀ (execCulIndexSend s) := by
  unfold execCulIndexSend
  repeat' first | (extract_lets +onlyGivenNames z; first | (refine Rests.cut (s₀ := s₀) z ?_ ?_; rotate_left; clear_value z; intro hz; rotate_left; subst z) | (refine Rests.cut (s₀ := s₀) (z : _ × State).2 ?_ ?_; rotate_left; clear_value z; intro hz; rotate_left; subst z) | (refine Rests.cut (s₀ := s₀) (z : State × _).1 ?_ ?_; rotate_left; clear_value z; intro hz; rotate_left; subst z) | (refine Rests.cut (s₀ := s₀) (z : _ × _ × State).2.2 ?_ ?_; rotate_left; clear_value z; intro hz; rotate_left; subst z) | clear_value z) | with_reducible assumption | with_reducible apply RestsAns.next | with_reducible apply State.setF_rests | with_reducible apply State.culMake_rests | with_reducible apply State.culOut_rests | (refine Rests.of_snd ?_ (by assumption)) | with_reducible refine RestsAns.ite ?_ ?_ | with_reducible refine Rests.ite ?_ ?_ | with_reducible refine Rests.ite_snd ?_ ?_ | with_reducible refine Rests.ite_fst ?_ ?_ | split | dsimp only

theorem State.takeIndex_rests {s₀ s : State} (h : Rests s₀ s) (east : Bool) (m : List Byte) : Rests s₀ (State.takeIndex s east m) := by
  unfold State.takeIndex
  try dsimp only
  repeat' first | with_reducible assumption | with_reducible apply State.culForward_rests | with_reducible apply State.setF_rests | with_reducible apply State.setCul_rests | with_reducible refine Rests.ite ?_ ?_

theorem execCulIndex_rests {s₀ s : State} (h : Rests s₀ s) (east : Bool) (msg : List (BitVec 8)) : RestsAns s₀ (execCulIndex east msg s) := by
  unfold execCulIndex
  repeat' first | (extract_lets +onlyGivenNames z; first | (refine Rests.cut (s₀ := s₀) z ?_ ?_; rotate_left; clear_value z; intro hz; rotate_left; subst z) | (refine Rests.cut (s₀ := s₀) (z : _ × State).2 ?_ ?_; rotate_left; clear_value z; intro hz; rotate_left; subst z) | (refine Rests.cut (s₀ := s₀) (z : State × _).1 ?_ ?_; rotate_left; clear_value z; intro hz; rotate_left; subst z) | (refine Rests.cut (s₀ := s₀) (z : _ × _ × State).2.2 ?_ ?_; rotate_left; clear_value z; intro hz; rotate_left; subst z) | clear_value z) | with_reducible assumption | with_reducible apply RestsAns.next | with_reducible apply State.satInc_rests | with_reducible apply State.culConflict_rests | with_reducible apply State.takeTable_rests | with_reducible apply State.culMake_rests | with_reducible apply State.culOut_rests | with_reducible apply State.delayStart_rests | with_reducible apply State.culForward_rests | with_reducible apply State.takeIndex_rests | (refine Rests.of_snd ?_ (by assumption)) | with_reducible refine RestsAns.ite ?_ ?_ | with_reducible refine Rests.ite ?_ ?_ | with_reducible refine Rests.ite_snd ?_ ?_ | with_reducible refine Rests.ite_fst ?_ ?_ | split | dsimp only

theorem execCulDelayReq_rests {s₀ s : State} (h : Rests s₀ s) (east : Bool) (turn : Nat) (msg : List (BitVec 8)) : RestsAns s₀ (execCulDelayReq east turn msg s) := by
  unfold execCulDelayReq
  try dsimp only
  repeat' first | with_reducible assumption | with_reducible apply RestsAns.next | with_reducible apply State.culTake_rests | with_reducible apply State.culSend_rests | (refine Rests.of_snd ?_ (by assumption)) | with_reducible refine RestsAns.ite ?_ ?_ | with_reducible refine Rests.ite ?_ ?_ | with_reducible refine Rests.ite_snd ?_ ?_ | with_reducible refine Rests.ite_fst ?_ ?_ | split | dsimp only

theorem execCulDelayRsp_rests {s₀ s : State} (h : Rests s₀ s) (east : Bool) (msg : List (BitVec 8)) : RestsAns s₀ (execCulDelayRsp east msg s) := by
  unfold execCulDelayRsp
  repeat' first | (extract_lets +onlyGivenNames z; first | (refine Rests.cut (s₀ := s₀) z ?_ ?_; rotate_left; clear_value z; intro hz; rotate_left; subst z) | (refine Rests.cut (s₀ := s₀) (z : _ × State).2 ?_ ?_; rotate_left; clear_value z; intro hz; rotate_left; subst z) | (refine Rests.cut (s₀ := s₀) (z : State × _).1 ?_ ?_; rotate_left; clear_value z; intro hz; rotate_left; subst z) | (refine Rests.cut (s₀ := s₀) (z : _ × _ × State).2.2 ?_ ?_; rotate_left; clear_value z; intro hz; rotate_left; subst z) | clear_value z) | with_reducible assumption | with_reducible apply RestsAns.next | with_reducible apply State.culTake_rests | with_reducible apply State.delayAsk_rests | with_reducible apply State.setF_rests | with_reducible apply State.setCul_rests | (refine Rests.of_snd ?_ (by assumption)) | with_reducible refine RestsAns.ite ?_ ?_ | with_reducible refine Rests.ite ?_ ?_ | with_reducible refine Rests.ite_snd ?_ ?_ | with_reducible refine Rests.ite_fst ?_ ?_ | split | (with_reducible apply Rests.upd; first | with_reducible assumption | with_reducible apply State.culTake_rests | with_reducible apply State.delayAsk_rests | with_reducible apply State.setF_rests | with_reducible apply State.setCul_rests) | dsimp only

theorem execCulTimebaseSend_rests {s₀ s : State} (h : Rests s₀ s) : RestsAns s₀ (execCulTimebaseSend s) := by
  unfold execCulTimebaseSend
  repeat' first | (extract_lets +onlyGivenNames z; first | (refine Rests.cut (s₀ := s₀) z ?_ ?_; rotate_left; clear_value z; intro hz; rotate_left; subst z) | (refine Rests.cut (s₀ := s₀) (z : _ × State).2 ?_ ?_; rotate_left; clear_value z; intro hz; rotate_left; subst z) | (refine Rests.cut (s₀ := s₀) (z : State × _).1 ?_ ?_; rotate_left; clear_value z; intro hz; rotate_left; subst z) | (refine Rests.cut (s₀ := s₀) (z : _ × _ × State).2.2 ?_ ?_; rotate_left; clear_value z; intro hz; rotate_left; subst z) | clear_value z) | with_reducible assumption | with_reducible apply RestsAns.next | with_reducible apply State.syncSpeed_rests | with_reducible apply State.culMake_rests | with_reducible apply State.culOut_rests | (refine Rests.of_snd ?_ (by assumption)) | with_reducible refine RestsAns.ite ?_ ?_ | with_reducible refine Rests.ite ?_ ?_ | with_reducible refine Rests.ite_snd ?_ ?_ | with_reducible refine Rests.ite_fst ?_ ?_ | split | (with_reducible apply Rests.upd; first | with_reducible assumption | with_reducible apply State.syncSpeed_rests | with_reducible apply State.culMake_rests | with_reducible apply State.culOut_rests) | dsimp only

theorem State.culPath_rests {s₀ s : State} (h : Rests s₀ s) (east : Bool) : Rests s₀ (State.culPath s east).2 := by
  unfold State.culPath
  try dsimp only
  repeat' first | with_reducible assumption | with_reducible apply State.drew_rests | with_reducible refine Rests.ite ?_ ?_ | with_reducible refine Rests.ite_snd ?_ ?_ | with_reducible refine Rests.ite_fst ?_ ?_ | split | (with_reducible apply Rests.upd; first | with_reducible assumption | with_reducible apply State.drew_rests) | dsimp only

theorem State.followMaster_rests {s₀ s : State} (h : Rests s₀ s) (cls : Nat) (scnState : Nat) (engine : Nat) : Rests s₀ (State.followMaster s cls scnState engine) := by
  unfold State.followMaster
  try dsimp only
  repeat' first | with_reducible assumption | with_reducible apply State.setF_rests | with_reducible apply State.leaveRun_rests | with_reducible apply State.noteRefusal_rests | with_reducible apply State.enterRun_rests | with_reducible apply State.classStart_rests | with_reducible apply State.settle_rests | with_reducible refine Rests.ite ?_ ?_ | split

theorem State.followWeb_rests {s₀ s : State} (h : Rests s₀ s) (line : Nat) (speed : Int) (ns : Nat) : Rests s₀ (State.followWeb s line speed ns) := by
  unfold State.followWeb
  repeat' first | with_reducible assumption | with_reducible apply State.moveWeb_rests | with_reducible refine Rests.ite ?_ ?_

theorem State.takeOffset_rests {s₀ s : State} (h : Rests s₀ s) (off : Int) : Rests s₀ (State.takeOffset s off) := by
  unfold State.takeOffset
  repeat' first | (extract_lets +onlyGivenNames z; first | (refine Rests.cut (s₀ := s₀) z ?_ ?_; rotate_left; clear_value z; intro hz; rotate_left; subst z) | clear_value z) | with_reducible assumption | with_reducible apply State.setF_rests | with_reducible apply State.culReport_rests | with_reducible apply State.setB_rests | with_reducible refine Rests.ite ?_ ?_ | (with_reducible apply Rests.upd; with_reducible assumption)

theorem State.applyTimebase_rests {s₀ s : State} (h : Rests s₀ s) (east : Bool) (m : List Byte) : Rests s₀ (State.applyTimebase s east m) := by
  unfold State.applyTimebase
  repeat' first | (extract_lets +onlyGivenNames z; first | (refine Rests.cut (s₀ := s₀) z ?_ ?_; rotate_left; clear_value z; intro hz; rotate_left; subst z) | (refine Rests.cut (s₀ := s₀) (z : _ × State).2 ?_ ?_; rotate_left; clear_value z; intro hz; rotate_left; subst z) | (refine Rests.cut (s₀ := s₀) (z : State × _).1 ?_ ?_; rotate_left; clear_value z; intro hz; rotate_left; subst z) | (refine Rests.cut (s₀ := s₀) (z : _ × _ × State).2.2 ?_ ?_; rotate_left; clear_value z; intro hz; rotate_left; subst z) | clear_value z) | with_reducible assumption | with_reducible apply State.satInc_rests | with_reducible apply State.culPath_rests | with_reducible apply State.setF_rests | with_reducible apply State.takeOffset_rests | with_reducible apply State.setCul_rests | with_reducible apply State.followWeb_rests | with_reducible apply State.followMaster_rests | (refine Rests.of_snd ?_ (by assumption)) | with_reducible refine Rests.ite ?_ ?_ | with_reducible refine Rests.ite_snd ?_ ?_ | with_reducible refine Rests.ite_fst ?_ ?_ | split | (with_reducible apply Rests.upd; first | with_reducible assumption | with_reducible apply State.satInc_rests | with_reducible apply State.culPath_rests | with_reducible apply State.setF_rests | with_reducible apply State.takeOffset_rests | with_reducible apply State.setCul_rests | with_reducible apply State.followWeb_rests | with_reducible apply State.followMaster_rests) | dsimp only

theorem execCulTimebase_rests {s₀ s : State} (h : Rests s₀ s) (east : Bool) (wait : Nat) (msg : List (BitVec 8)) : RestsAns s₀ (execCulTimebase east wait msg s) := by
  unfold execCulTimebase
  try dsimp only
  repeat' first | with_reducible assumption | with_reducible apply RestsAns.next | with_reducible apply State.satInc_rests | with_reducible apply State.culForward_rests | with_reducible apply State.applyTimebase_rests | with_reducible refine RestsAns.ite ?_ ?_ | with_reducible refine Rests.ite ?_ ?_

theorem execCulTimebaseLost_rests {s₀ s : State} (h : Rests s₀ s) : RestsAns s₀ (execCulTimebaseLost s) := by
  unfold execCulTimebaseLost
  try dsimp only
  repeat' first | with_reducible assumption | with_reducible apply RestsAns.next | with_reducible apply State.setF_rests | with_reducible apply State.culReport_rests | with_reducible apply State.setCul_rests | with_reducible refine RestsAns.ite ?_ ?_ | with_reducible refine Rests.ite ?_ ?_ | (with_reducible apply Rests.upd; with_reducible assumption)

theorem execCulStatusSend_rests {s₀ s : State} (h : Rests s₀ s) : RestsAns s₀ (execCulStatusSend s) := by
  unfold execCulStatusSend
  try dsimp only
  repeat' first | with_reducible assumption | with_reducible apply RestsAns.next | with_reducible apply State.culSend_rests | with_reducible refine RestsAns.ite ?_ ?_ | with_reducible refine Rests.ite ?_ ?_

theorem execCulStatus_rests {s₀ s : State} (h : Rests s₀ s) (east : Bool) (msg : List (BitVec 8)) : RestsAns s₀ (execCulStatus east msg s) := by
  unfold execCulStatus
  repeat' first | (extract_lets +onlyGivenNames z; first | (refine Rests.cut (s₀ := s₀) z ?_ ?_; rotate_left; clear_value z; intro hz; rotate_left; subst z) | (refine Rests.cut (s₀ := s₀) (z : _ × State).2 ?_ ?_; rotate_left; clear_value z; intro hz; rotate_left; subst z) | (refine Rests.cut (s₀ := s₀) (z : State × _).1 ?_ ?_; rotate_left; clear_value z; intro hz; rotate_left; subst z) | (refine Rests.cut (s₀ := s₀) (z : _ × _ × State).2.2 ?_ ?_; rotate_left; clear_value z; intro hz; rotate_left; subst z) | clear_value z) | with_reducible assumption | with_reducible apply RestsAns.next | with_reducible apply State.culTake_rests | with_reducible apply State.setF_rests | with_reducible apply State.setCul_rests | (refine Rests.of_snd ?_ (by assumption)) | with_reducible refine RestsAns.ite ?_ ?_ | with_reducible refine Rests.ite ?_ ?_ | with_reducible refine Rests.ite_snd ?_ ?_ | with_reducible refine Rests.ite_fst ?_ ?_ | split | (with_reducible apply Rests.upd; first | with_reducible assumption | with_reducible apply State.culTake_rests | with_reducible apply State.setF_rests | with_reducible apply State.setCul_rests) | dsimp only

theorem execCulFault_rests {s₀ s : State} (h : Rests s₀ s) (east : Bool) (msg : List (BitVec 8)) : RestsAns s₀ (execCulFault east msg s) := by
  unfold execCulFault
  try dsimp only
  repeat' first | with_reducible assumption | with_reducible apply RestsAns.next | with_reducible apply State.culTake_rests | with_reducible apply State.culReport_rests | (refine Rests.of_snd ?_ (by assumption)) | with_reducible refine RestsAns.ite ?_ ?_ | with_reducible refine Rests.ite ?_ ?_ | with_reducible refine Rests.ite_snd ?_ ?_ | with_reducible refine Rests.ite_fst ?_ ?_ | split | dsimp only

theorem execCulMessageForward_rests {s₀ s : State} (h : Rests s₀ s) (east : Bool) (good : Bool) (msg : List (BitVec 8)) : RestsAns s₀ (execCulMessageForward east good msg s) := by
  unfold execCulMessageForward
  try dsimp only
  repeat' first | with_reducible assumption | with_reducible apply RestsAns.next | with_reducible apply State.satInc_rests | with_reducible apply State.culForward_rests | with_reducible refine RestsAns.ite ?_ ?_ | with_reducible refine Rests.ite ?_ ?_

end Sys2Proof.Machine
end

