-- ==== Sys2Proof/Laws/RestXcal.lean ====
section
/-! SUPPORT. Which operations of Machine/Xcal.lean leave the memories as they are (Laws/Rest.lean). -/
namespace Sys2Proof.Machine
set_option Elab.async false
set_option linter.all false

theorem execXcalStart_rests {s₀ s : State} (h : Rests s₀ s) : RestsAns s₀ (execXcalStart s) := by
  unfold execXcalStart
  repeat' first | (extract_lets +onlyGivenNames z; first | (refine Rests.cut (s₀ := s₀) z ?_ ?_; rotate_left; clear_value z; intro hz; rotate_left; subst z) | clear_value z) | with_reducible assumption | with_reducible apply RestsAns.next | with_reducible apply State.darkWrite_rests | with_reducible apply State.raise_rests | with_reducible apply State.setF_rests | with_reducible apply State.culBroadcast_rests | with_reducible refine RestsAns.ite ?_ ?_ | with_reducible refine Rests.ite ?_ ?_ | (with_reducible apply Rests.upd; with_reducible assumption)

theorem execXcalAbort_rests {s₀ s : State} (h : Rests s₀ s) : RestsAns s₀ (execXcalAbort s) := by
  unfold execXcalAbort
  repeat' first | with_reducible assumption | with_reducible apply RestsAns.next | with_reducible apply State.darkWrite_rests | with_reducible apply State.xcalAbandon_rests | with_reducible refine RestsAns.ite ?_ ?_ | with_reducible refine Rests.ite ?_ ?_

theorem State.xcalTargetsOf_rests {s₀ : State}  (fuel : Nat) : ∀ (s : State) (_ : Rests s₀ s), Rests s₀ (State.xcalTargetsOf s fuel).2 := by
  induction fuel with
  | zero => intro s h; unfold State.xcalTargetsOf; exact h
  | succ fuel ih =>
    intro s h
    unfold State.xcalTargetsOf
    repeat' first | (extract_lets +onlyGivenNames z; first | (refine Rests.cut (s₀ := s₀) z ?_ ?_; rotate_left; clear_value z; intro hz; rotate_left; subst z) | (refine Rests.cut (s₀ := s₀) (z : _ × State).2 ?_ ?_; rotate_left; clear_value z; intro hz; rotate_left; subst z) | (refine Rests.cut (s₀ := s₀) (z : State × _).1 ?_ ?_; rotate_left; clear_value z; intro hz; rotate_left; subst z) | (refine Rests.cut (s₀ := s₀) (z : _ × _ × State).2.2 ?_ ?_; rotate_left; clear_value z; intro hz; rotate_left; subst z) | clear_value z) | with_reducible assumption | with_reducible apply ih | with_reducible apply State.drew_rests | with_reducible refine Rests.ite ?_ ?_ | with_reducible refine Rests.ite_snd ?_ ?_ | with_reducible refine Rests.ite_fst ?_ ?_ | split | dsimp only

theorem State.xcalStep_rests {s₀ s : State} (h : Rests s₀ s) (d : Nat) : Rests s₀ (State.xcalStep s d) := by
  unfold State.xcalStep
  try dsimp only
  repeat' first | with_reducible assumption | with_reducible apply State.xcalTargetsOf_rests | with_reducible apply State.culSend_rests | (refine Rests.of_snd ?_ (by assumption)) | split | (with_reducible apply Rests.upd; first | with_reducible assumption | with_reducible apply State.xcalTargetsOf_rests | with_reducible apply State.culSend_rests) | dsimp only

theorem State.xcalAdopt_rests {s₀ s : State} (h : Rests s₀ s) : Rests s₀ (State.xcalAdopt s) := by
  unfold State.xcalAdopt
  try dsimp only
  repeat' first | with_reducible assumption | (with_reducible apply Rests.foldl; intro _ _ _) | split | (with_reducible apply Rests.upd; with_reducible assumption)

theorem State.xcalFinish_rests {s₀ s : State} (h : Rests s₀ s) : Rests s₀ (State.xcalFinish s) := by
  unfold State.xcalFinish
  try dsimp only
  repeat' first | with_reducible assumption | with_reducible apply State.culBroadcast_rests | with_reducible apply State.setF_rests | with_reducible apply State.xcalAdopt_rests

theorem State.xcalNext_rests {s₀ s : State} (h : Rests s₀ s) (l : List Nat) : Rests s₀ (State.xcalNext s l) := by
  unfold State.xcalNext
  repeat' first | with_reducible assumption | with_reducible apply State.xcalStep_rests | with_reducible apply State.xcalFinish_rests | split

theorem execXcalCollect_rests {s₀ s : State} (h : Rests s₀ s) : RestsAns s₀ (execXcalCollect s) := by
  unfold execXcalCollect
  repeat' first | (extract_lets +onlyGivenNames z; first | (refine Rests.cut (s₀ := s₀) z ?_ ?_; rotate_left; clear_value z; intro hz; rotate_left; subst z) | (refine Rests.cut (s₀ := s₀) (z : _ × State).2 ?_ ?_; rotate_left; clear_value z; intro hz; rotate_left; subst z) | (refine Rests.cut (s₀ := s₀) (z : State × _).1 ?_ ?_; rotate_left; clear_value z; intro hz; rotate_left; subst z) | (refine Rests.cut (s₀ := s₀) (z : _ × _ × State).2.2 ?_ ?_; rotate_left; clear_value z; intro hz; rotate_left; subst z) | clear_value z) | with_reducible assumption | with_reducible apply RestsAns.next | with_reducible apply State.xcalTargetsOf_rests | with_reducible apply State.setF_rests | with_reducible apply State.xcalNext_rests | (refine Rests.of_snd ?_ (by assumption)) | with_reducible refine RestsAns.ite ?_ ?_ | with_reducible refine Rests.ite ?_ ?_ | with_reducible refine Rests.ite_snd ?_ ?_ | with_reducible refine Rests.ite_fst ?_ ?_ | split | (with_reducible apply Rests.upd; first | with_reducible assumption | with_reducible apply State.xcalTargetsOf_rests | with_reducible apply State.setF_rests | with_reducible apply State.xcalNext_rests) | dsimp only

theorem execXcalStepTimeout_rests {s₀ s : State} (h : Rests s₀ s) : RestsAns s₀ (execXcalStepTimeout s) := by
  unfold execXcalStepTimeout
  try dsimp only
  repeat' first | with_reducible assumption | with_reducible apply RestsAns.next | with_reducible apply State.culAnswered_rests | with_reducible apply State.xcalAbandon_rests | (with_reducible apply Rests.foldl; intro _ _ _) | with_reducible refine RestsAns.ite ?_ ?_ | with_reducible refine Rests.ite ?_ ?_

theorem State.xcalForget_rests {s₀ s : State} (h : Rests s₀ s) : Rests s₀ (State.xcalForget s) := by
  unfold State.xcalForget
  try dsimp only
  repeat' first | with_reducible assumption | (with_reducible apply Rests.upd; with_reducible assumption)

theorem execXcalTargetTimeout_rests {s₀ s : State} (h : Rests s₀ s) : RestsAns s₀ (execXcalTargetTimeout s) := by
  unfold execXcalTargetTimeout
  repeat' first | with_reducible assumption | with_reducible apply RestsAns.next | with_reducible apply State.xcalForget_rests | with_reducible refine RestsAns.ite ?_ ?_ | with_reducible refine Rests.ite ?_ ?_

theorem execXcalStartMsg_rests {s₀ s : State} (h : Rests s₀ s) (east : Bool) (msg : List (BitVec 8)) : RestsAns s₀ (execXcalStartMsg east msg s) := by
  unfold execXcalStartMsg
  repeat' first | (extract_lets +onlyGivenNames z; first | (refine Rests.cut (s₀ := s₀) z ?_ ?_; rotate_left; clear_value z; intro hz; rotate_left; subst z) | (refine Rests.cut (s₀ := s₀) (z : _ × State).2 ?_ ?_; rotate_left; clear_value z; intro hz; rotate_left; subst z) | (refine Rests.cut (s₀ := s₀) (z : State × _).1 ?_ ?_; rotate_left; clear_value z; intro hz; rotate_left; subst z) | (refine Rests.cut (s₀ := s₀) (z : _ × _ × State).2.2 ?_ ?_; rotate_left; clear_value z; intro hz; rotate_left; subst z) | clear_value z) | with_reducible assumption | with_reducible apply RestsAns.next | with_reducible apply State.culTake_rests | (refine Rests.of_snd ?_ (by assumption)) | with_reducible refine RestsAns.ite ?_ ?_ | with_reducible refine Rests.ite ?_ ?_ | with_reducible refine Rests.ite_snd ?_ ?_ | with_reducible refine Rests.ite_fst ?_ ?_ | split | (with_reducible apply Rests.upd; first | with_reducible assumption | with_reducible apply State.culTake_rests) | dsimp only

theorem execXcalFeatures_rests {s₀ s : State} (h : Rests s₀ s) (east : Bool) (msg : List (BitVec 8)) : RestsAns s₀ (execXcalFeatures east msg s) := by
  unfold execXcalFeatures
  repeat' first | (extract_lets +onlyGivenNames z; first | (refine Rests.cut (s₀ := s₀) z ?_ ?_; rotate_left; clear_value z; intro hz; rotate_left; subst z) | (refine Rests.cut (s₀ := s₀) (z : _ × State).2 ?_ ?_; rotate_left; clear_value z; intro hz; rotate_left; subst z) | (refine Rests.cut (s₀ := s₀) (z : State × _).1 ?_ ?_; rotate_left; clear_value z; intro hz; rotate_left; subst z) | (refine Rests.cut (s₀ := s₀) (z : _ × _ × State).2.2 ?_ ?_; rotate_left; clear_value z; intro hz; rotate_left; subst z) | clear_value z) | with_reducible assumption | with_reducible apply RestsAns.next | with_reducible apply State.culTake_rests | (refine Rests.of_snd ?_ (by assumption)) | with_reducible refine RestsAns.ite ?_ ?_ | with_reducible refine Rests.ite ?_ ?_ | with_reducible refine Rests.ite_snd ?_ ?_ | with_reducible refine Rests.ite_fst ?_ ?_ | split | (with_reducible apply Rests.upd; first | with_reducible assumption | with_reducible apply State.culTake_rests) | dsimp only

theorem execXcalTargets_rests {s₀ s : State} (h : Rests s₀ s) (east : Bool) (msg : List (BitVec 8)) : RestsAns s₀ (execXcalTargets east msg s) := by
  unfold execXcalTargets
  repeat' first | (extract_lets +onlyGivenNames z; first | (refine Rests.cut (s₀ := s₀) z ?_ ?_; rotate_left; clear_value z; intro hz; rotate_left; subst z) | (refine Rests.cut (s₀ := s₀) (z : _ × State).2 ?_ ?_; rotate_left; clear_value z; intro hz; rotate_left; subst z) | (refine Rests.cut (s₀ := s₀) (z : State × _).1 ?_ ?_; rotate_left; clear_value z; intro hz; rotate_left; subst z) | (refine Rests.cut (s₀ := s₀) (z : _ × _ × State).2.2 ?_ ?_; rotate_left; clear_value z; intro hz; rotate_left; subst z) | clear_value z) | with_reducible assumption | with_reducible apply RestsAns.next | with_reducible apply State.culTake_rests | with_reducible apply State.culSend_rests | (refine Rests.of_snd ?_ (by assumption)) | with_reducible refine RestsAns.ite ?_ ?_ | with_reducible refine Rests.ite ?_ ?_ | with_reducible refine Rests.ite_snd ?_ ?_ | with_reducible refine Rests.ite_fst ?_ ?_ | split | (with_reducible apply Rests.upd; first | with_reducible assumption | with_reducible apply State.culTake_rests | with_reducible apply State.culSend_rests) | dsimp only

theorem execXcalReply_rests {s₀ s : State} (h : Rests s₀ s) (east : Bool) (msg : List (BitVec 8)) : RestsAns s₀ (execXcalReply east msg s) := by
  unfold execXcalReply
  repeat' first | (extract_lets +onlyGivenNames z; first | (refine Rests.cut (s₀ := s₀) z ?_ ?_; rotate_left; clear_value z; intro hz; rotate_left; subst z) | (refine Rests.cut (s₀ := s₀) (z : _ × State).2 ?_ ?_; rotate_left; clear_value z; intro hz; rotate_left; subst z) | (refine Rests.cut (s₀ := s₀) (z : State × _).1 ?_ ?_; rotate_left; clear_value z; intro hz; rotate_left; subst z) | (refine Rests.cut (s₀ := s₀) (z : _ × _ × State).2.2 ?_ ?_; rotate_left; clear_value z; intro hz; rotate_left; subst z) | clear_value z) | with_reducible assumption | with_reducible apply RestsAns.next | with_reducible apply State.culTake_rests | with_reducible apply State.culAnswered_rests | with_reducible apply State.xcalAbandon_rests | with_reducible apply State.setF_rests | with_reducible apply State.xcalNext_rests | (refine Rests.of_snd ?_ (by assumption)) | with_reducible refine RestsAns.ite ?_ ?_ | with_reducible refine Rests.ite ?_ ?_ | with_reducible refine Rests.ite_snd ?_ ?_ | with_reducible refine Rests.ite_fst ?_ ?_ | split | dsimp only

theorem execXcalCommit_rests {s₀ s : State} (h : Rests s₀ s) (east : Bool) (msg : List (BitVec 8)) : RestsAns s₀ (execXcalCommit east msg s) := by
  unfold execXcalCommit
  try dsimp only
  repeat' first | with_reducible assumption | with_reducible apply RestsAns.next | with_reducible apply State.culTake_rests | with_reducible apply State.xcalAdopt_rests | (refine Rests.of_snd ?_ (by assumption)) | with_reducible refine RestsAns.ite ?_ ?_ | with_reducible refine Rests.ite ?_ ?_ | with_reducible refine Rests.ite_snd ?_ ?_ | with_reducible refine Rests.ite_fst ?_ ?_ | split | dsimp only

theorem execXcalAbandon_rests {s₀ s : State} (h : Rests s₀ s) (east : Bool) (msg : List (BitVec 8)) : RestsAns s₀ (execXcalAbandon east msg s) := by
  unfold execXcalAbandon
  try dsimp only
  repeat' first | with_reducible assumption | with_reducible apply RestsAns.next | with_reducible apply State.culTake_rests | with_reducible apply State.xcalForget_rests | (refine Rests.of_snd ?_ (by assumption)) | with_reducible refine RestsAns.ite ?_ ?_ | with_reducible refine Rests.ite ?_ ?_ | with_reducible refine Rests.ite_snd ?_ ?_ | with_reducible refine Rests.ite_fst ?_ ?_ | split | dsimp only

end Sys2Proof.Machine
end

