-- ==== Sys2Proof/Laws/RestAccess.lean ====
section
/-! SUPPORT. Which operations of Machine/Access.lean leave the memories as they are (Laws/Rest.lean). -/
namespace Sys2Proof.Machine
set_option Elab.async false
set_option linter.all false

theorem after_rests {s₀ s : State} (h : Rests s₀ s) (o : Host.Outcome State Fault Refusal) (ho : RestsAns s₀ o) : Rests s₀ (after o s) := by
  unfold after
  split
  · exact ho _ rfl
  · exact h

theorem State.reject_rests {s₀ s : State} (h : Rests s₀ s) (w : Wr) (cause : Nat) : Rests s₀ (State.reject s w cause) := by
  unfold State.reject
  repeat' first | with_reducible assumption | with_reducible apply State.reportAccess_rests | with_reducible refine Rests.ite ?_ ?_

theorem State.plain_rests {s₀ s : State} (h : Rests s₀ s) (w : Wr) (r : RegRow) : Rests s₀ (State.plain s w r) := by
  unfold State.plain
  repeat' first | with_reducible assumption | with_reducible apply State.setWord_rests

theorem State.ranged_rests {s₀ s : State} (h : Rests s₀ s) (w : Wr) (r : RegRow) (opened : Bool) (take : Nat → Nat → Bool) : Rests s₀ (State.ranged s w r opened take) := by
  unfold State.ranged
  repeat' first | with_reducible assumption | with_reducible apply State.setWord_rests

theorem State.flagged_rests {s₀ s : State} (h : Rests s₀ s) (w : Wr) (r : RegRow) (flag : Fld) (opened : Bool) (take : Nat → Nat → Bool) : Rests s₀ (State.flagged s w r flag opened take) := by
  unfold State.flagged
  try dsimp only
  repeat' first | with_reducible assumption | with_reducible apply State.setWord_rests | with_reducible apply State.raise_rests | with_reducible refine Rests.ite ?_ ?_

theorem State.bounded_rests {s₀ s : State} (h : Rests s₀ s) (w : Wr) (r : RegRow) (flag : Fld) (opened : Bool) (take : Nat → Nat → Bool) : Rests s₀ (State.bounded s w r flag opened take) := by
  unfold State.bounded
  repeat' first | with_reducible assumption | with_reducible apply State.flagged_rests | with_reducible apply State.raise_rests | with_reducible refine Rests.ite ?_ ?_

theorem State.whole_rests {s₀ s : State} (h : Rests s₀ s) (w : Wr) (r : RegRow) (flag : Fld) (ok : Bool) : Rests s₀ (State.whole s w r flag ok) := by
  unfold State.whole
  repeat' first | with_reducible assumption | with_reducible apply State.plain_rests | with_reducible apply State.raise_rests | with_reducible refine Rests.ite ?_ ?_

theorem State.wrQCtrl_rests {s₀ s : State} (h : Rests s₀ s) (w : Wr) (fn : Nat) : Rests s₀ (State.wrQCtrl s w fn) := by
  unfold State.wrQCtrl
  try dsimp only
  repeat' first | with_reducible assumption | with_reducible apply RestsAns.next | with_reducible apply after_rests | with_reducible apply execQEnable_rests | with_reducible apply execQDisable_rests | with_reducible apply execQPause_rests | with_reducible apply execQResume_rests | with_reducible refine RestsAns.ite ?_ ?_ | with_reducible refine Rests.ite ?_ ?_

theorem State.wrQueue_rests {s₀ s : State} (h : Rests s₀ s) (w : Wr) (r : RegRow) (fn : Nat) : Rests s₀ (State.wrQueue s w r fn) := by
  unfold State.wrQueue
  try dsimp only
  repeat' first | with_reducible assumption | with_reducible apply RestsAns.next | with_reducible apply State.pf_rests | with_reducible apply after_rests | with_reducible apply execQPause_rests | with_reducible apply execQResume_rests | with_reducible apply State.reject_rests | with_reducible apply execSqDoorbell_rests | with_reducible apply execCqHeadWrite_rests | with_reducible apply State.wrQCtrl_rests | with_reducible apply State.flagged_rests | with_reducible refine RestsAns.ite ?_ ?_ | with_reducible refine Rests.ite ?_ ?_

theorem State.wrMsix_rests {s₀ s : State} (h : Rests s₀ s) (w : Wr) (fn : Nat) : Rests s₀ (State.wrMsix s w fn) := by
  unfold State.wrMsix
  try dsimp only
  repeat' first | with_reducible assumption | with_reducible apply RestsAns.next | with_reducible apply State.setWord_rests | with_reducible apply after_rests | with_reducible apply execMsixUnmask_rests | with_reducible refine RestsAns.ite ?_ ?_ | with_reducible refine Rests.ite ?_ ?_

theorem State.wrHif_rests {s₀ s : State} (h : Rests s₀ s) (w : Wr) (r : RegRow) : Rests s₀ (State.wrHif s w r) := by
  unfold State.wrHif
  repeat' first | with_reducible assumption | with_reducible apply State.ranged_rests | with_reducible apply State.wrQueue_rests | with_reducible apply State.wrMsix_rests | with_reducible apply State.plain_rests | with_reducible refine Rests.ite ?_ ?_

theorem State.wrChannel_rests {s₀ s : State} (h : Rests s₀ s) (w : Wr) (r : RegRow) (ch : Nat) : Rests s₀ (State.wrChannel s w r ch) := by
  unfold State.wrChannel
  try dsimp only
  repeat' first | with_reducible assumption | with_reducible apply RestsAns.next | with_reducible apply after_rests | with_reducible apply execChDoorbell_rests | with_reducible apply execChEnable_rests | with_reducible apply execChDisable_rests | with_reducible apply execChAbort_rests | with_reducible apply execChResume_rests | with_reducible apply State.flagged_rests | with_reducible refine RestsAns.ite ?_ ?_ | with_reducible refine Rests.ite ?_ ?_

theorem State.wrSip_rests {s₀ s : State} (h : Rests s₀ s) (w : Wr) (r : RegRow) : Rests s₀ (State.wrSip s w r) := by
  unfold State.wrSip
  repeat' first | with_reducible assumption | with_reducible apply RestsAns.next | with_reducible apply State.ranged_rests | with_reducible apply after_rests | with_reducible apply execChAssignWrite_rests | with_reducible apply execFnWinWrite_rests | with_reducible apply State.wrChannel_rests | with_reducible apply State.plain_rests | with_reducible refine RestsAns.ite ?_ ?_ | with_reducible refine Rests.ite ?_ ?_

theorem State.wrFlm_rests {s₀ s : State} (h : Rests s₀ s) (w : Wr) (r : RegRow) : Rests s₀ (State.wrFlm s w r) := by
  unfold State.wrFlm
  try dsimp only
  repeat' first | with_reducible assumption | with_reducible apply RestsAns.next | with_reducible apply State.flagged_rests | with_reducible apply State.whole_rests | with_reducible apply after_rests | with_reducible apply execFlumeUnfence_rests | with_reducible apply execStationTableWrite_rests | with_reducible apply State.plain_rests | with_reducible refine RestsAns.ite ?_ ?_ | with_reducible refine Rests.ite ?_ ?_

theorem State.takeTrk_rests {s₀ s : State} (h : Rests s₀ s) (st : Nat) : Rests s₀ (State.takeTrk s st) := by
  unfold State.takeTrk
  try dsimp only
  repeat' first | with_reducible assumption | with_reducible apply State.setF_rests | with_reducible refine Rests.ite ?_ ?_

theorem State.wrScnStation_rests {s₀ s : State} (h : Rests s₀ s) (w : Wr) (r : RegRow) (st : Nat) : Rests s₀ (State.wrScnStation s w r st) := by
  unfold State.wrScnStation
  try dsimp only
  repeat' first | with_reducible assumption | with_reducible apply RestsAns.next | with_reducible apply after_rests | with_reducible apply execRouteWrite_rests | with_reducible apply execOffsetWrite_rests | with_reducible apply State.ranged_rests | with_reducible apply State.takeTrk_rests | with_reducible apply State.plain_rests | with_reducible apply State.touch_rests | with_reducible refine RestsAns.ite ?_ ?_ | with_reducible refine Rests.ite ?_ ?_

theorem State.wrPort_rests {s₀ s : State} (h : Rests s₀ s) (w : Wr) (r : RegRow) (bl : Nat) : Rests s₀ (State.wrPort s w r bl) := by
  unfold State.wrPort
  try dsimp only
  repeat' first | with_reducible assumption | with_reducible apply RestsAns.next | with_reducible apply State.ranged_rests | with_reducible apply after_rests | with_reducible apply execBlEnable_rests | with_reducible apply execBlDisable_rests | with_reducible apply execBlRetrain_rests | with_reducible apply State.plain_rests | with_reducible refine RestsAns.ite ?_ ?_ | with_reducible refine Rests.ite ?_ ?_

theorem State.wrScn_rests {s₀ s : State} (h : Rests s₀ s) (w : Wr) (r : RegRow) : Rests s₀ (State.wrScn s w r) := by
  unfold State.wrScn
  repeat' first | (extract_lets +onlyGivenNames z; first | (refine Rests.cut (s₀ := s₀) z ?_ ?_; rotate_left; clear_value z; intro hz; rotate_left; subst z) | clear_value z) | with_reducible assumption | with_reducible apply RestsAns.next | with_reducible apply State.ranged_rests | with_reducible apply after_rests | with_reducible apply execHalfAdvanceWrite_rests | with_reducible apply execClassRequest_rests | with_reducible apply State.plain_rests | with_reducible apply State.wrScnStation_rests | with_reducible apply State.wrPort_rests | with_reducible refine RestsAns.ite ?_ ?_ | with_reducible refine Rests.ite ?_ ?_

theorem State.wrClk_rests {s₀ s : State} (h : Rests s₀ s) (w : Wr) (r : RegRow) : Rests s₀ (State.wrClk s w r) := by
  unfold State.wrClk
  try dsimp only
  repeat' first | with_reducible assumption | with_reducible apply RestsAns.next | with_reducible apply after_rests | with_reducible apply execPllRelock_rests | with_reducible apply State.plain_rests | with_reducible refine RestsAns.ite ?_ ?_ | with_reducible refine Rests.ite ?_ ?_

theorem State.sendHead_rests {s₀ s : State} (h : Rests s₀ s) (st : Nat) (addr : Nat) (v : BitVec 32) : Rests s₀ (State.sendHead s st addr v) := by
  unfold State.sendHead
  repeat' first | with_reducible assumption | with_reducible apply State.headWrite_rests | with_reducible refine Rests.ite ?_ ?_

theorem State.deadWritten_rests {s₀ s : State} (h : Rests s₀ s) (st : Nat) : Rests s₀ (State.deadWritten s st) := by
  unfold State.deadWritten
  repeat' first | (extract_lets +onlyGivenNames z; first | (refine Rests.cut (s₀ := s₀) z ?_ ?_; rotate_left; clear_value z; intro hz; rotate_left; subst z) | clear_value z) | with_reducible assumption | with_reducible apply State.takeExposure_rests | with_reducible apply State.coverFrom_rests | with_reducible apply State.deadChanged_rests | with_reducible apply State.sendCur_rests | with_reducible refine Rests.ite ?_ ?_

theorem State.wrWindow_rests {s₀ s : State} (h : Rests s₀ s) (w : Wr) (r : RegRow) (st : Nat) : Rests s₀ (State.wrWindow s w r st) := by
  unfold State.wrWindow
  try dsimp only
  repeat' first | with_reducible assumption | with_reducible apply State.bounded_rests | with_reducible apply State.setF_rests | with_reducible apply State.askMove_rests | with_reducible refine Rests.ite ?_ ?_

theorem State.wrExpStation_rests {s₀ s : State} (h : Rests s₀ s) (w : Wr) (r : RegRow) (st : Nat) : Rests s₀ (State.wrExpStation s w r st) := by
  unfold State.wrExpStation
  try dsimp only
  repeat' first | with_reducible assumption | with_reducible apply State.wrWindow_rests | with_reducible apply State.bounded_rests | with_reducible apply State.sendHead_rests | with_reducible apply State.syncBdEmit_rests | with_reducible apply State.plain_rests | with_reducible apply State.deadWritten_rests | with_reducible apply State.touch_rests | with_reducible apply State.takeExposure_rests | with_reducible apply State.coverFrom_rests | with_reducible refine Rests.ite ?_ ?_

theorem State.wrExp_rests {s₀ s : State} (h : Rests s₀ s) (w : Wr) (r : RegRow) : Rests s₀ (State.wrExp s w r) := by
  unfold State.wrExp
  try dsimp only
  repeat' first | with_reducible assumption | with_reducible apply State.bounded_rests | with_reducible apply State.sendHead_rests | with_reducible apply State.wrExpStation_rests | with_reducible apply State.plain_rests | (with_reducible apply Rests.foldl; intro _ _ _) | with_reducible refine Rests.ite ?_ ?_

theorem State.wrHdg_rests {s₀ s : State} (h : Rests s₀ s) (w : Wr) (r : RegRow) : Rests s₀ (State.wrHdg s w r) := by
  unfold State.wrHdg
  repeat' first | with_reducible assumption | with_reducible apply RestsAns.next | with_reducible apply after_rests | with_reducible apply execHdgLimitWrite_rests | with_reducible apply State.plain_rests | with_reducible refine RestsAns.ite ?_ ?_ | with_reducible refine Rests.ite ?_ ?_

theorem State.wrInsCtrl_rests {s₀ s : State} (h : Rests s₀ s) (w : Wr) (r : RegRow) : Rests s₀ (State.wrInsCtrl s w r) := by
  unfold State.wrInsCtrl
  try dsimp only
  repeat' first | with_reducible assumption | with_reducible apply State.plain_rests | with_reducible apply State.insLinkDown_rests | with_reducible apply State.setInsLink_rests | (with_reducible apply Rests.foldl; intro _ _ _) | with_reducible refine Rests.ite ?_ ?_

theorem State.wrInsSide_rests {s₀ s : State} (h : Rests s₀ s) (w : Wr) (r : RegRow) (side : Nat) : Rests s₀ (State.wrInsSide s w r side) := by
  unfold State.wrInsSide
  try dsimp only
  repeat' first | with_reducible assumption | with_reducible apply RestsAns.next | with_reducible apply after_rests | with_reducible apply execCalWhite_rests | with_reducible apply execCalChart_rests | with_reducible apply State.raise_rests | with_reducible apply execInsAck_rests | with_reducible apply State.bounded_rests | with_reducible refine RestsAns.ite ?_ ?_ | with_reducible refine Rests.ite ?_ ?_ | split

theorem State.wrIns_rests {s₀ s : State} (h : Rests s₀ s) (w : Wr) (r : RegRow) : Rests s₀ (State.wrIns s w r) := by
  unfold State.wrIns
  repeat' first | (extract_lets +onlyGivenNames z; first | (refine Rests.cut (s₀ := s₀) z ?_ ?_; rotate_left; clear_value z; intro hz; rotate_left; subst z) | clear_value z) | with_reducible assumption | with_reducible apply RestsAns.next | with_reducible apply State.wrInsCtrl_rests | with_reducible apply State.bounded_rests | with_reducible apply after_rests | with_reducible apply execXcalAbort_rests | with_reducible apply execXcalStart_rests | with_reducible apply State.plain_rests | with_reducible apply execAuditExport_rests | with_reducible apply State.wrInsSide_rests | with_reducible refine RestsAns.ite ?_ ?_ | with_reducible refine Rests.ite ?_ ?_

theorem State.wrLoopField_rests {s₀ s : State} (h : Rests s₀ s) (w : Wr) (r : RegRow) (lp : Nat) (take : Nat → Nat → Bool) : Rests s₀ (State.wrLoopField s w r lp take) := by
  unfold State.wrLoopField
  try dsimp only
  repeat' first | with_reducible assumption | with_reducible apply State.setWord_rests | with_reducible apply State.raise_rests | with_reducible apply State.satInc_rests | with_reducible apply State.lpReclose_rests | with_reducible refine Rests.ite ?_ ?_

theorem State.wrLpe_rests {s₀ s : State} (h : Rests s₀ s) (w : Wr) (r : RegRow) : Rests s₀ (State.wrLpe s w r) := by
  unfold State.wrLpe
  try dsimp only
  repeat' first | with_reducible assumption | with_reducible apply RestsAns.next | with_reducible apply State.satInc_rests | with_reducible apply State.ranged_rests | with_reducible apply after_rests | with_reducible apply execLoopOff_rests | with_reducible apply execLoopOpen_rests | with_reducible apply execLoopClose_rests | with_reducible apply State.wrLoopField_rests | with_reducible apply State.plain_rests | with_reducible refine RestsAns.ite ?_ ?_ | with_reducible refine Rests.ite ?_ ?_ | split

theorem State.wrAxCmd_rests {s₀ s : State} (h : Rests s₀ s) (w : Wr) (ax : Nat) : Rests s₀ (State.wrAxCmd s w ax) := by
  unfold State.wrAxCmd
  try dsimp only
  repeat' first | with_reducible assumption | with_reducible apply RestsAns.next | with_reducible apply after_rests | with_reducible apply execAxEnable_rests | with_reducible apply execAxDisable_rests | with_reducible apply execAxMoveAbs_rests | with_reducible apply execAxMoveRel_rests | with_reducible apply execAxJogPos_rests | with_reducible apply execAxJogNeg_rests | with_reducible apply execAxStop_rests | with_reducible apply execAxQstop_rests | with_reducible apply execAxResume_rests | with_reducible apply execAxSetpos_rests | with_reducible apply execAxClear_rests | split

theorem State.wrMot_rests {s₀ s : State} (h : Rests s₀ s) (w : Wr) (r : RegRow) : Rests s₀ (State.wrMot s w r) := by
  unfold State.wrMot
  try dsimp only
  repeat' first | with_reducible assumption | with_reducible apply State.flagged_rests | with_reducible apply State.wrAxCmd_rests | with_reducible apply State.setWord_rests | with_reducible apply State.raise_rests | with_reducible apply State.ranged_rests | with_reducible apply State.plain_rests | with_reducible refine Rests.ite ?_ ?_

theorem State.wrLatPort_rests {s₀ s : State} (h : Rests s₀ s) (w : Wr) (r : RegRow) (p : Nat) : Rests s₀ (State.wrLatPort s w r p) := by
  unfold State.wrLatPort
  try dsimp only
  repeat' first | with_reducible assumption | with_reducible apply RestsAns.next | with_reducible apply after_rests | with_reducible apply execLatPortEnable_rests | with_reducible apply execLatPortDisable_rests | with_reducible apply execLatRescan_rests | with_reducible apply State.setWord_rests | with_reducible apply State.raise_rests | with_reducible apply State.ranged_rests | with_reducible apply State.latMbxGo_rests | with_reducible apply State.plain_rests | with_reducible refine RestsAns.ite ?_ ?_ | with_reducible refine Rests.ite ?_ ?_

theorem State.wrFan_rests {s₀ s : State} (h : Rests s₀ s) (w : Wr) (r : RegRow) (fc : Nat) : Rests s₀ (State.wrFan s w r fc) := by
  unfold State.wrFan
  try dsimp only
  repeat' first | with_reducible assumption | with_reducible apply RestsAns.next | with_reducible apply State.ranged_rests | with_reducible apply after_rests | with_reducible apply execFanDutyWrite_rests | with_reducible apply execFanClear_rests | with_reducible apply State.plain_rests | with_reducible refine RestsAns.ite ?_ ?_ | with_reducible refine Rests.ite ?_ ?_

theorem State.wrLat_rests {s₀ s : State} (h : Rests s₀ s) (w : Wr) (r : RegRow) : Rests s₀ (State.wrLat s w r) := by
  unfold State.wrLat
  try dsimp only
  repeat' first | with_reducible assumption | with_reducible apply RestsAns.next | with_reducible apply State.wrLatPort_rests | with_reducible apply State.flagged_rests | with_reducible apply State.wrFan_rests | with_reducible apply after_rests | with_reducible apply execLatOimgWrite_rests | with_reducible apply State.plain_rests | with_reducible refine RestsAns.ite ?_ ?_ | with_reducible refine Rests.ite ?_ ?_

theorem State.wrTask_rests {s₀ s : State} (h : Rests s₀ s) (w : Wr) (r : RegRow) (tk : Nat) : Rests s₀ (State.wrTask s w r tk) := by
  unfold State.wrTask
  try dsimp only
  repeat' first | with_reducible assumption | with_reducible apply RestsAns.next | with_reducible apply after_rests | with_reducible apply execTaskConfigWrite_rests | with_reducible apply State.plain_rests | with_reducible apply execTaskAck_rests | with_reducible refine RestsAns.ite ?_ ?_ | with_reducible refine Rests.ite ?_ ?_

theorem State.wrTrn_rests {s₀ s : State} (h : Rests s₀ s) (w : Wr) (r : RegRow) : Rests s₀ (State.wrTrn s w r) := by
  unfold State.wrTrn
  try dsimp only
  repeat' first | with_reducible assumption | with_reducible apply RestsAns.next | with_reducible apply after_rests | with_reducible apply execSwEventRaise_rests | with_reducible apply State.ranged_rests | with_reducible apply State.startTimer_rests | with_reducible apply execWebCompareArm_rests | with_reducible apply State.raise_rests | with_reducible apply State.wrTask_rests | with_reducible apply State.plain_rests | with_reducible refine RestsAns.ite ?_ ?_ | with_reducible refine Rests.ite ?_ ?_

theorem State.wrCul_rests {s₀ s : State} (h : Rests s₀ s) (w : Wr) (r : RegRow) : Rests s₀ (State.wrCul s w r) := by
  unfold State.wrCul
  repeat' first | (extract_lets +onlyGivenNames z; first | (refine Rests.cut (s₀ := s₀) z ?_ ?_; rotate_left; clear_value z; intro hz; rotate_left; subst z) | clear_value z) | with_reducible assumption | with_reducible apply RestsAns.next | with_reducible apply after_rests | with_reducible apply execCulEnable_rests | with_reducible apply execCulRestart_rests | with_reducible apply execCulUnfold_rests | with_reducible apply State.plain_rests | with_reducible refine RestsAns.ite ?_ ?_ | with_reducible refine Rests.ite ?_ ?_

theorem State.wrEctCtrl_rests {s₀ s : State} (h : Rests s₀ s) (w : Wr) (r : RegRow) : Rests s₀ (State.wrEctCtrl s w r) := by
  unfold State.wrEctCtrl
  repeat' first | (extract_lets +onlyGivenNames z; first | (refine Rests.cut (s₀ := s₀) z ?_ ?_; rotate_left; clear_value z; intro hz; rotate_left; subst z) | clear_value z) | with_reducible assumption | with_reducible apply State.ranged_rests | with_reducible apply State.linkTo_rests | with_reducible apply State.setF_rests | with_reducible apply State.alDrop_rests | with_reducible refine Rests.ite ?_ ?_

theorem State.wrEct_rests {s₀ s : State} (h : Rests s₀ s) (w : Wr) (r : RegRow) : Rests s₀ (State.wrEct s w r) := by
  unfold State.wrEct
  repeat' first | with_reducible assumption | with_reducible apply State.wrEctCtrl_rests | with_reducible apply State.plain_rests | with_reducible apply State.takeShadow_rests | with_reducible refine Rests.ite ?_ ?_

theorem State.wrRail_rests {s₀ s : State} (h : Rests s₀ s) (w : Wr) (r : RegRow) (k : Nat) : Rests s₀ (State.wrRail s w r k) := by
  unfold State.wrRail
  try dsimp only
  repeat' first | with_reducible assumption | with_reducible apply State.raise_rests | with_reducible apply State.whole_rests | with_reducible apply State.flagged_rests | with_reducible refine Rests.ite ?_ ?_

theorem State.wrPwr_rests {s₀ s : State} (h : Rests s₀ s) (w : Wr) (r : RegRow) : Rests s₀ (State.wrPwr s w r) := by
  unfold State.wrPwr
  try dsimp only
  repeat' first | with_reducible assumption | with_reducible apply RestsAns.next | with_reducible apply State.ranged_rests | with_reducible apply after_rests | with_reducible apply execPowerStateRequest_rests | with_reducible apply State.bounded_rests | with_reducible apply State.whole_rests | with_reducible apply State.flagged_rests | with_reducible apply execSeqProgramWrite_rests | with_reducible apply State.wrRail_rests | with_reducible apply State.plain_rests | with_reducible refine RestsAns.ite ?_ ?_ | with_reducible refine Rests.ite ?_ ?_

theorem State.wrThm_rests {s₀ s : State} (h : Rests s₀ s) (w : Wr) (r : RegRow) : Rests s₀ (State.wrThm s w r) := by
  unfold State.wrThm
  try dsimp only
  repeat' first | with_reducible assumption | with_reducible apply State.plain_rests | with_reducible apply State.ranged_rests | with_reducible refine Rests.ite ?_ ?_

theorem State.wrOtp_rests {s₀ s : State} (h : Rests s₀ s) (w : Wr) (r : RegRow) : Rests s₀ (State.wrOtp s w r) := by
  unfold State.wrOtp
  repeat' first | with_reducible assumption | with_reducible apply State.otpCmdWrite_rests | with_reducible apply State.plain_rests | with_reducible refine Rests.ite ?_ ?_

theorem State.wrSec_rests {s₀ s : State} (h : Rests s₀ s) (w : Wr) (r : RegRow) : Rests s₀ (State.wrSec s w r) := by
  unfold State.wrSec
  try dsimp only
  repeat' first | with_reducible assumption | with_reducible apply RestsAns.next | with_reducible apply State.lcRequest_rests | with_reducible apply after_rests | with_reducible apply execSvnCommit_rests | with_reducible apply State.reject_rests | with_reducible apply execTokenRevoke_rests | with_reducible apply execSessionClose_rests | with_reducible apply execTokenSubmit_rests | with_reducible apply State.plain_rests | with_reducible refine RestsAns.ite ?_ ?_ | with_reducible refine Rests.ite ?_ ?_

theorem State.wrFlt_rests {s₀ s : State} (h : Rests s₀ s) (w : Wr) (r : RegRow) : Rests s₀ (State.wrFlt s w r) := by
  unfold State.wrFlt
  repeat' first | (extract_lets +onlyGivenNames z; first | (refine Rests.cut (s₀ := s₀) z ?_ ?_; rotate_left; clear_value z; intro hz; rotate_left; subst z) | clear_value z) | with_reducible assumption | with_reducible apply RestsAns.next | with_reducible apply State.reject_rests | with_reducible apply State.plain_rests | with_reducible apply after_rests | with_reducible apply execSumpRearm_rests | with_reducible apply execSumpRelease_rests | with_reducible apply execHeartbeatKick_rests | with_reducible apply execSumpPop_rests | with_reducible refine RestsAns.ite ?_ ?_ | with_reducible refine Rests.ite ?_ ?_

theorem State.wrEvr_rests {s₀ s : State} (h : Rests s₀ s) (w : Wr) (r : RegRow) : Rests s₀ (State.wrEvr s w r) := by
  unfold State.wrEvr
  repeat' first | with_reducible assumption | with_reducible apply RestsAns.next | with_reducible apply after_rests | with_reducible apply execRecordRead_rests | with_reducible apply execRecordClear_rests | with_reducible apply State.plain_rests | with_reducible refine RestsAns.ite ?_ ?_ | with_reducible refine Rests.ite ?_ ?_

theorem State.recount_rests {s₀ s : State} (h : Rests s₀ s) (ns : Nat) (x : Fld) : Rests s₀ (State.recount s ns x) := by
  unfold State.recount
  try dsimp only
  repeat' first | with_reducible assumption | with_reducible apply State.setF_rests | (with_reducible apply Rests.foldl; intro _ _ _) | with_reducible refine Rests.ite ?_ ?_

theorem State.recountAll_rests {s₀ s : State} (h : Rests s₀ s) (w : Wr) (r : RegRow) : Rests s₀ (State.recountAll s w r) := by
  unfold State.recountAll
  repeat' first | with_reducible assumption | with_reducible apply State.recount_rests | (with_reducible apply Rests.foldl; intro _ _ _) | with_reducible refine Rests.ite ?_ ?_

theorem State.readAt_rests {s₀ s : State} (h : Rests s₀ s) (fn : Nat) (off : Nat) : Rests s₀ (State.readAt s fn off).2 := by
  unfold State.readAt
  try dsimp only
  repeat' first | with_reducible assumption | with_reducible apply State.reportAccess_rests | with_reducible apply State.setFn_rests | with_reducible refine Rests.ite ?_ ?_ | with_reducible refine Rests.ite_snd ?_ ?_ | with_reducible refine Rests.ite_fst ?_ ?_ | split | (with_reducible apply Rests.upd; first | with_reducible assumption | with_reducible apply State.reportAccess_rests | with_reducible apply State.setFn_rests) | dsimp only

theorem State.unsupported_rests {s₀ s : State} (h : Rests s₀ s) (master : Nat) (off : Nat) (write : Bool) : Rests s₀ (State.unsupported s master off write) := by
  unfold State.unsupported
  try dsimp only
  repeat' first | with_reducible assumption | with_reducible apply State.reportAccess_rests | with_reducible apply State.emit_rests | with_reducible refine Rests.ite ?_ ?_

theorem State.closedRead_rests {s₀ s : State} (h : Rests s₀ s) (fn : Nat) : Rests s₀ (State.closedRead s fn) := by
  unfold State.closedRead
  repeat' first | with_reducible assumption | with_reducible apply State.emit_rests | with_reducible refine Rests.ite ?_ ?_

theorem execLowWordRead_rests {s₀ s : State} (h : Rests s₀ s) (fn : Nat) (off : Nat) (wide : Bool) : RestsAns s₀ (execLowWordRead fn off wide s) := by
  unfold execLowWordRead
  try dsimp only
  repeat' first | with_reducible assumption | with_reducible apply RestsAns.next | with_reducible apply State.closedRead_rests | with_reducible apply State.unsupported_rests | with_reducible apply State.readAt_rests | with_reducible apply State.emit_rests | (refine Rests.of_snd ?_ (by assumption)) | with_reducible refine RestsAns.ite ?_ ?_ | with_reducible refine Rests.ite ?_ ?_ | with_reducible refine Rests.ite_snd ?_ ?_ | with_reducible refine Rests.ite_fst ?_ ?_ | split | dsimp only

theorem execReservedAccess_rests {s₀ s : State} (h : Rests s₀ s) (master : Nat) (off : Nat) (write : Option (BitVec 32)) : RestsAns s₀ (execReservedAccess master off write s) := by
  unfold execReservedAccess
  try dsimp only
  repeat' first | with_reducible assumption | with_reducible apply RestsAns.next | with_reducible apply State.closedRead_rests | with_reducible apply State.reportAccess_rests | with_reducible apply State.emit_rests | with_reducible refine RestsAns.ite ?_ ?_ | with_reducible refine Rests.ite ?_ ?_ | split

theorem execUnsupportedAccess_rests {s₀ s : State} (h : Rests s₀ s) (master : Nat) (off : Nat) (write : Bool) : RestsAns s₀ (execUnsupportedAccess master off write s) := by
  unfold execUnsupportedAccess
  repeat' first | with_reducible assumption | with_reducible apply RestsAns.next | with_reducible apply State.closedRead_rests | with_reducible apply State.unsupported_rests | with_reducible refine RestsAns.ite ?_ ?_ | with_reducible refine Rests.ite ?_ ?_

theorem State.clkReport_rests {s₀ s : State} (h : Rests s₀ s) (d : Nat) (cls : Nat) : Rests s₀ (State.clkReport s d cls) := by
  unfold State.clkReport
  repeat' first | with_reducible assumption | with_reducible apply State.report_rests

theorem execClockLoss_rests {s₀ s : State} (h : Rests s₀ s) (domain : Nat) : RestsAns s₀ (execClockLoss domain s) := by
  unfold execClockLoss
  repeat' first | (extract_lets +onlyGivenNames z; first | (refine Rests.cut (s₀ := s₀) z ?_ ?_; rotate_left; clear_value z; intro hz; rotate_left; subst z) | clear_value z) | with_reducible assumption | with_reducible apply RestsAns.next | with_reducible apply State.clkReport_rests | with_reducible apply State.pllSearch_rests | with_reducible apply State.modPll_rests | with_reducible apply State.setF_rests | with_reducible apply State.satInc_rests | with_reducible apply State.linkOff_rests | with_reducible apply State.hostReset_rests | with_reducible apply State.refreshRefusal_rests | with_reducible refine RestsAns.ite ?_ ?_ | with_reducible refine Rests.ite ?_ ?_ | (with_reducible apply Rests.upd; with_reducible assumption)

theorem execClockRelock_rests {s₀ s : State} (h : Rests s₀ s) (domain : Nat) : RestsAns s₀ (execClockRelock domain s) := by
  unfold execClockRelock
  try dsimp only
  repeat' first | with_reducible assumption | with_reducible apply RestsAns.next | with_reducible apply State.setF_rests | with_reducible apply State.refreshRefusal_rests | with_reducible refine RestsAns.ite ?_ ?_ | with_reducible refine Rests.ite ?_ ?_ | (with_reducible apply Rests.upd; with_reducible assumption)

end Sys2Proof.Machine
end

