-- ==== Sys2Proof/Laws/RestDict.lean ====
section
/-! SUPPORT. Which operations of Machine/Dict.lean leave the memories as they are (Laws/Rest.lean). -/
namespace Sys2Proof.Machine
set_option Elab.async false
set_option linter.all false

theorem State.odReport_rests {s₀ s : State} (h : Rests s₀ s) (src : Nat) (cause : Nat) (index : Nat) (sub : Nat) (value : Nat) : Rests s₀ (State.odReport s src cause index sub value) := by
  unfold State.odReport
  repeat' first | with_reducible assumption | with_reducible apply State.reportAccess_rests

theorem State.odMissing_rests {s₀ s : State} (h : Rests s₀ s) (code : Nat) (index : Nat) (sub : Nat) : Rests s₀ (State.odMissing s code index sub) := by
  unfold State.odMissing
  repeat' first | with_reducible assumption | with_reducible apply State.odReport_rests | with_reducible refine Rests.ite ?_ ?_

theorem State.odOwn_rests {s₀ s : State} (h : Rests s₀ s) (index : Nat) (sub : Nat) : Rests s₀ (State.odOwn s index sub).2 := by
  unfold State.odOwn
  try dsimp only
  repeat' first | with_reducible assumption | with_reducible apply State.freeBytes_rests | with_reducible apply State.drawChallenge_rests | (with_reducible apply Rests.foldl; intro _ _ _) | (with_reducible apply Rests.foldl_snd; intro _ _ _) | (with_reducible apply Rests.foldl_fst; intro _ _ _) | (refine Rests.of_snd ?_ (by assumption)) | with_reducible refine Rests.ite ?_ ?_ | with_reducible refine Rests.ite_snd ?_ ?_ | with_reducible refine Rests.ite_fst ?_ ?_ | split | dsimp only

theorem State.odBytes_rests {s₀ s : State} (h : Rests s₀ s) (index : Nat) (o : Obj) : Rests s₀ (State.odBytes s index o).2 := by
  unfold State.odBytes
  try dsimp only
  repeat' first | with_reducible assumption | with_reducible apply State.odOwn_rests | (refine Rests.of_snd ?_ (by assumption)) | split | dsimp only

theorem State.odReadObj_rests {s₀ s : State} (h : Rests s₀ s) (index : Nat) (o : Obj) : Rests s₀ (State.odReadObj s index o).2.2 := by
  unfold State.odReadObj
  try dsimp only
  repeat' first | with_reducible assumption | with_reducible apply State.odReport_rests | with_reducible apply State.odBytes_rests | (refine Rests.of_snd ?_ (by assumption)) | with_reducible refine Rests.ite ?_ ?_ | with_reducible refine Rests.ite_snd ?_ ?_ | with_reducible refine Rests.ite_fst ?_ ?_ | split | dsimp only

theorem State.odRead_rests {s₀ s : State} (h : Rests s₀ s) (index : Nat) (sub : Nat) : Rests s₀ (State.odRead s index sub).2 := by
  unfold State.odRead
  try dsimp only
  repeat' first | with_reducible assumption | with_reducible apply State.odMissing_rests | with_reducible apply State.odReadObj_rests | (refine Rests.of_thd ?_ (by assumption)) | with_reducible refine Rests.ite ?_ ?_ | with_reducible refine Rests.ite_snd ?_ ?_ | with_reducible refine Rests.ite_fst ?_ ?_ | split | dsimp only

theorem State.odWriteCell_rests {s₀ s : State} (h : Rests s₀ s) (index : Nat) (o : Obj) (lo : Nat) (hi : Nat) (v : Nat) (boot : Bool) : Rests s₀ (State.odWriteCell s index o lo hi v boot).2 := by
  unfold State.odWriteCell
  repeat' first | with_reducible assumption | with_reducible apply State.setObj_rests | with_reducible refine Rests.ite ?_ ?_ | with_reducible refine Rests.ite_snd ?_ ?_ | with_reducible refine Rests.ite_fst ?_ ?_ | split | dsimp only

theorem State.odInsStore_rests {s₀ s : State} (h : Rests s₀ s) (side : Nat) (ok : Bool) (same : Bool) (put : State → State) (hput : ∀ t, Rests s₀ t → Rests s₀ (put t)) : Rests s₀ (State.odInsStore s side ok same put).2 := by
  unfold State.odInsStore
  repeat' first | with_reducible assumption | with_reducible apply hput | with_reducible apply State.raise_rests | with_reducible refine Rests.ite ?_ ?_ | with_reducible refine Rests.ite_snd ?_ ?_ | with_reducible refine Rests.ite_fst ?_ ?_ | split | dsimp only

theorem State.odReadAll_rests {s₀ s : State} (h : Rests s₀ s) (index start : Nat) : Rests s₀ (State.odReadAll s index start).2 := by
  unfold State.odReadAll
  extract_lets os r
  have hr : Rests s₀ r.2.2 := Rests.foldl_by (fun b : Nat × List Byte × State => b.2.2) (fun a o ha => by
    dsimp only
    split
    · exact ha
    · split
      · exact ha
      · exact State.odReadObj_rests ha _ _) h
  clear_value r
  repeat' first | exact hr | exact h | split | exact State.odMissing_rests h _ _ _ | dsimp only

end Sys2Proof.Machine
end

