-- ==== Sys2Proof/Laws/RestServer.lean ====
section
/-! SUPPORT. Which operations of Machine/Server.lean leave the memories as they are (Laws/Rest.lean). -/
namespace Sys2Proof.Machine
set_option Elab.async false
set_option linter.all false

theorem State.setMbxRsp_rests {s₀ s : State} (h : Rests s₀ s) (b : List Byte) : Rests s₀ (State.setMbxRsp s b) := by
  unfold State.setMbxRsp
  try dsimp only
  repeat' first | with_reducible assumption | with_reducible apply State.setWord_rests | (with_reducible apply Rests.foldl; intro _ _ _)

theorem State.mbxRespond_rests {s₀ s : State} (h : Rests s₀ s) (req : List Byte) (abort : Nat) (data : List Byte) (more : Bool) (total : Nat) : Rests s₀ (State.mbxRespond s req abort data more total) := by
  unfold State.mbxRespond
  try dsimp only
  repeat' first | with_reducible assumption | with_reducible apply State.setF_rests | with_reducible apply State.setMbxRsp_rests | with_reducible apply State.raise_rests | with_reducible apply State.pf_rests | with_reducible refine Rests.ite ?_ ?_ | (with_reducible apply Rests.upd; with_reducible assumption)

theorem State.mbxAbort_rests {s₀ s : State} (h : Rests s₀ s) (req : List Byte) (code : Nat) : Rests s₀ (State.mbxAbort s req code) := by
  unfold State.mbxAbort
  try dsimp only
  repeat' first | with_reducible assumption | with_reducible apply State.mbxRespond_rests | (with_reducible apply Rests.upd; with_reducible assumption)

theorem State.mbxPiece_rests {s₀ s : State} (h : Rests s₀ s) (req : List Byte) (x : MbxXfer) : Rests s₀ (State.mbxPiece s req x) := by
  unfold State.mbxPiece
  try dsimp only
  repeat' first | with_reducible assumption | with_reducible apply State.mbxRespond_rests | with_reducible refine Rests.ite ?_ ?_ | (with_reducible apply Rests.upd; with_reducible assumption)

theorem State.mbxFinish_rests {s₀ s : State} (h : Rests s₀ s) (req : List Byte) (abort : Nat) (data : List Byte) : Rests s₀ (State.mbxFinish s req abort data) := by
  unfold State.mbxFinish
  try dsimp only
  repeat' first | with_reducible assumption | with_reducible apply State.mbxAbort_rests | with_reducible apply State.mbxRespond_rests | with_reducible apply State.mbxPiece_rests | with_reducible refine Rests.ite ?_ ?_ | (with_reducible apply Rests.upd; with_reducible assumption)

theorem State.sdoAnswer_rests {s₀ s : State} (h : Rests s₀ s) (r : SdoReq) (abort : Nat) (data : List Byte) : Rests s₀ (State.sdoAnswer s r abort data) := by
  unfold State.sdoAnswer
  repeat' first | with_reducible assumption | with_reducible apply State.emit_rests | with_reducible apply State.mbxFinish_rests | with_reducible apply State.culSend_rests | with_reducible refine Rests.ite ?_ ?_ | split

theorem State.tunnelEnd_rests {s₀ s : State} (h : Rests s₀ s) (r : SdoReq) (abort : Nat) (data : List Byte) : Rests s₀ (State.tunnelEnd s r abort data) := by
  unfold State.tunnelEnd
  try dsimp only
  repeat' first | with_reducible assumption | with_reducible apply State.setObj_rests | with_reducible apply State.sdoAnswer_rests | (with_reducible apply Rests.upd; with_reducible assumption)

theorem State.tunnelStart_rests {s₀ s : State} (h : Rests s₀ s) (r : SdoReq) (upload : Bool) (data : List Byte) : Rests s₀ (State.tunnelStart s r upload data) := by
  unfold State.tunnelStart
  try dsimp only
  repeat' first | with_reducible assumption | with_reducible apply State.tunnelEnd_rests | with_reducible apply State.culSend_rests | with_reducible refine Rests.ite ?_ ?_ | (with_reducible apply Rests.upd; with_reducible assumption)

theorem State.sdoConclude_rests {s₀ s : State} (h : Rests s₀ s) (r : SdoReq) (a : OdAct) : Rests s₀ (State.sdoConclude s r a) := by
  unfold State.sdoConclude
  try dsimp only
  repeat' first | with_reducible assumption | with_reducible apply State.sdoAnswer_rests | with_reducible apply State.tunnelStart_rests | split | (with_reducible apply Rests.upd; with_reducible assumption)

theorem State.mbxUp_rests {s₀ s : State} (h : Rests s₀ s) (req : List Byte) : Rests s₀ (State.mbxUp s req).2 := by
  unfold State.mbxUp
  try dsimp only
  repeat' first | with_reducible assumption | with_reducible apply State.odRead_rests | with_reducible apply State.odReadAll_rests | (refine Rests.of_snd ?_ (by assumption)) | split | dsimp only

theorem execMbxSegmentTimeout_rests {s₀ s : State} (h : Rests s₀ s) : RestsAns s₀ (execMbxSegmentTimeout s) := by
  unfold execMbxSegmentTimeout
  repeat' first | with_reducible assumption | with_reducible apply RestsAns.next | with_reducible apply State.mbxAbort_rests | with_reducible refine RestsAns.ite ?_ ?_ | with_reducible refine Rests.ite ?_ ?_

theorem execCalStoreComplete_rests {s₀ s : State} (h : Rests s₀ s) (ok : Bool) : RestsAns s₀ (execCalStoreComplete ok s) := by
  unfold execCalStoreComplete
  repeat' first | (extract_lets +onlyGivenNames z; first | (refine Rests.cut (s₀ := s₀) z ?_ ?_; rotate_left; clear_value z; intro hz; rotate_left; subst z) | clear_value z) | with_reducible assumption | with_reducible apply RestsAns.next | with_reducible apply State.calStored_rests | with_reducible apply State.sdoAnswer_rests | with_reducible refine RestsAns.ite ?_ ?_ | with_reducible refine Rests.ite ?_ ?_ | split | (with_reducible apply Rests.upd; with_reducible assumption)

theorem execCulOdRsp_rests {s₀ s : State} (h : Rests s₀ s) (east : Bool) (msg : List (BitVec 8)) : RestsAns s₀ (execCulOdRsp east msg s) := by
  unfold execCulOdRsp
  repeat' first | (extract_lets +onlyGivenNames z; first | (refine Rests.cut (s₀ := s₀) z ?_ ?_; rotate_left; clear_value z; intro hz; rotate_left; subst z) | (refine Rests.cut (s₀ := s₀) (z : _ × State).2 ?_ ?_; rotate_left; clear_value z; intro hz; rotate_left; subst z) | (refine Rests.cut (s₀ := s₀) (z : State × _).1 ?_ ?_; rotate_left; clear_value z; intro hz; rotate_left; subst z) | (refine Rests.cut (s₀ := s₀) (z : _ × _ × State).2.2 ?_ ?_; rotate_left; clear_value z; intro hz; rotate_left; subst z) | clear_value z) | with_reducible assumption | with_reducible apply RestsAns.next | with_reducible apply State.culTake_rests | with_reducible apply State.culAnswered_rests | with_reducible apply State.tunnelEnd_rests | (refine Rests.of_snd ?_ (by assumption)) | with_reducible refine RestsAns.ite ?_ ?_ | with_reducible refine Rests.ite ?_ ?_ | with_reducible refine Rests.ite_snd ?_ ?_ | with_reducible refine Rests.ite_fst ?_ ?_ | split | dsimp only

theorem execCulTunnelTimeout_rests {s₀ s : State} (h : Rests s₀ s) : RestsAns s₀ (execCulTunnelTimeout s) := by
  unfold execCulTunnelTimeout
  repeat' first | with_reducible assumption | with_reducible apply RestsAns.next | with_reducible apply State.culAnswered_rests | with_reducible apply State.tunnelEnd_rests | split

end Sys2Proof.Machine
end

