-- ==== Sys2Proof/Laws/RestEct.lean ====
section
/-! SUPPORT. Which operations of Machine/Ect.lean leave the memories as they are (Laws/Rest.lean). -/
namespace Sys2Proof.Machine
set_option Elab.async false
set_option linter.all false

theorem State.sampleTx_rests {s₀ s : State} (h : Rests s₀ s) : Rests s₀ (State.sampleTx s) := by
  unfold State.sampleTx
  try dsimp only
  repeat' first | with_reducible assumption | (with_reducible apply Rests.foldl; intro _ _ _) | with_reducible refine Rests.ite ?_ ?_ | (with_reducible apply Rests.upd; with_reducible assumption)

theorem execAlStateRequest_rests {s₀ s : State} (h : Rests s₀ s) (target : Nat) (station : BitVec 16) (mbxOk : Bool) (sm2 : Nat) (sm3 : Nat) (sync0 : Nat) (siiOk : Bool) : RestsAns s₀ (execAlStateRequest target station mbxOk sm2 sm3 sync0 siiOk s) := by
  unfold execAlStateRequest
  repeat' first | (extract_lets +onlyGivenNames z; first | (refine Rests.cut (s₀ := s₀) z ?_ ?_; rotate_left; clear_value z; intro hz; rotate_left; subst z) | clear_value z) | with_reducible assumption | with_reducible apply RestsAns.next | with_reducible apply State.setF_rests | with_reducible apply State.setAl_rests | with_reducible apply State.satInc_rests | with_reducible apply State.ectReport_rests | with_reducible apply State.alDrop_rests | with_reducible apply State.sampleTx_rests | with_reducible refine RestsAns.ite ?_ ?_ | with_reducible refine Rests.ite ?_ ?_ | split | (with_reducible apply Rests.upd; with_reducible assumption)

theorem execSm2Watchdog_rests {s₀ s : State} (h : Rests s₀ s) : RestsAns s₀ (execSm2Watchdog s) := by
  unfold execSm2Watchdog
  repeat' first | with_reducible assumption | with_reducible apply RestsAns.next | with_reducible apply State.alDrop_rests | with_reducible apply State.setAl_rests | with_reducible apply State.pdoLost_rests | with_reducible refine RestsAns.ite ?_ ?_ | with_reducible refine Rests.ite ?_ ?_

theorem State.measureDc_rests {s₀ s : State} (h : Rests s₀ s) (dcTime : BitVec 64) : Rests s₀ (State.measureDc s dcTime) := by
  unfold State.measureDc
  try dsimp only
  repeat' first | with_reducible assumption | with_reducible apply State.set64_rests

theorem execSync0Edge_rests {s₀ s : State} (h : Rests s₀ s) (dcTime : BitVec 64) (fresh : Bool) : RestsAns s₀ (execSync0Edge dcTime fresh s) := by
  unfold execSync0Edge
  repeat' first | (extract_lets +onlyGivenNames z; first | (refine Rests.cut (s₀ := s₀) z ?_ ?_; rotate_left; clear_value z; intro hz; rotate_left; subst z) | clear_value z) | with_reducible assumption | with_reducible apply RestsAns.next | with_reducible apply State.measureDc_rests | with_reducible apply State.set64_rests | with_reducible apply State.sampleTx_rests | with_reducible apply State.setObj_rests | with_reducible apply State.satInc_rests | with_reducible apply State.ectReport_rests | with_reducible refine RestsAns.ite ?_ ?_ | with_reducible refine Rests.ite ?_ ?_

theorem execSm3ReadComplete_rests {s₀ s : State} (h : Rests s₀ s) : RestsAns s₀ (execSm3ReadComplete s) := by
  unfold execSm3ReadComplete
  repeat' first | with_reducible assumption | with_reducible apply RestsAns.next | with_reducible apply State.sampleTx_rests | with_reducible refine RestsAns.ite ?_ ?_ | with_reducible refine Rests.ite ?_ ?_

theorem execDcOffsetMeasure_rests {s₀ s : State} (h : Rests s₀ s) (dcTime : BitVec 64) : RestsAns s₀ (execDcOffsetMeasure dcTime s) := by
  unfold execDcOffsetMeasure
  repeat' first | with_reducible assumption | with_reducible apply RestsAns.next | with_reducible apply State.measureDc_rests | with_reducible refine RestsAns.ite ?_ ?_ | with_reducible refine Rests.ite ?_ ?_

theorem execEctLinkChange_rests {s₀ s : State} (h : Rests s₀ s) (port : Nat) (up : Bool) : RestsAns s₀ (execEctLinkChange port up s) := by
  unfold execEctLinkChange
  try dsimp only
  repeat' first | with_reducible assumption | with_reducible apply RestsAns.next | with_reducible apply State.linkTo_rests | with_reducible apply State.satInc_rests | with_reducible refine RestsAns.ite ?_ ?_ | with_reducible refine Rests.ite ?_ ?_

theorem State.foeReply_rests {s₀ s : State} (h : Rests s₀ s) (op : Nat) (v : Nat) : Rests s₀ (State.foeReply s op v) := by
  unfold State.foeReply
  repeat' first | with_reducible assumption | with_reducible apply State.emit_rests

theorem State.foeError_rests {s₀ s : State} (h : Rests s₀ s) (code : Nat) : Rests s₀ (State.foeError s code) := by
  unfold State.foeError
  try dsimp only
  repeat' first | with_reducible assumption | with_reducible apply State.foeReply_rests | (with_reducible apply Rests.upd; with_reducible assumption)

theorem State.foeTake_rests {s₀ s : State} (h : Rests s₀ s) (x : Foe) : Rests s₀ (State.foeTake s x) := by
  unfold State.foeTake
  repeat' first | (extract_lets +onlyGivenNames z; first | (refine Rests.cut (s₀ := s₀) z ?_ ?_; rotate_left; clear_value z; intro hz; rotate_left; subst z) | clear_value z) | with_reducible assumption | with_reducible apply State.emit_rests | with_reducible apply State.otpInternal_rests | with_reducible refine Rests.ite ?_ ?_ | (with_reducible apply Rests.upd; with_reducible assumption)

theorem execFoeWrite_rests {s₀ s : State} (h : Rests s₀ s) (name : String) (password : BitVec 32) (packet : Nat) (data : List (BitVec 8)) (last : Bool) : RestsAns s₀ (execFoeWrite name password packet data last s) := by
  unfold execFoeWrite
  repeat' first | (extract_lets +onlyGivenNames z; first | (refine Rests.cut (s₀ := s₀) z ?_ ?_; rotate_left; clear_value z; intro hz; rotate_left; subst z) | clear_value z) | with_reducible assumption | with_reducible apply RestsAns.next | with_reducible apply State.foeError_rests | with_reducible apply State.foeReply_rests | with_reducible apply State.emit_rests | with_reducible apply State.foeTake_rests | with_reducible refine RestsAns.ite ?_ ?_ | with_reducible refine Rests.ite ?_ ?_ | split | (with_reducible apply Rests.upd; with_reducible assumption)

theorem execFoeRead_rests {s₀ s : State} (h : Rests s₀ s) (name : String) : RestsAns s₀ (execFoeRead name s) := by
  unfold execFoeRead
  repeat' first | with_reducible assumption | with_reducible apply RestsAns.next | with_reducible apply State.foeReply_rests | with_reducible refine RestsAns.ite ?_ ?_ | with_reducible refine Rests.ite ?_ ?_

theorem execMailboxUnsupported_rests {s₀ s : State} (h : Rests s₀ s) (protocol : Nat) : RestsAns s₀ (execMailboxUnsupported protocol s) := by
  unfold execMailboxUnsupported
  repeat' first | with_reducible assumption | with_reducible apply RestsAns.next | with_reducible apply State.emit_rests | with_reducible refine RestsAns.ite ?_ ?_ | with_reducible refine Rests.ite ?_ ?_

end Sys2Proof.Machine
end

