-- ==== Sys2Proof/Laws/RestBoot.lean ====
section
/-! SUPPORT. Which operations of Machine/Boot.lean leave the memories as they are (Laws/Rest.lean). -/
namespace Sys2Proof.Machine
set_option Elab.async false
set_option linter.all false

theorem State.raisePmic_rests {s₀ s : State} (h : Rests s₀ s) (i : Nat) : Rests s₀ (State.raisePmic s i) := by
  unfold State.raisePmic
  repeat' first | (extract_lets +onlyGivenNames z; first | (refine Rests.cut (s₀ := s₀) z ?_ ?_; rotate_left; clear_value z; intro hz; rotate_left; subst z) | clear_value z) | with_reducible assumption | with_reducible apply State.setPmicEn_rests | with_reducible apply State.stageTo_rests | (with_reducible apply Rests.upd; with_reducible assumption)

theorem State.bootStart_rests {s₀ s : State} (h : Rests s₀ s) (cause : Nat) : Rests s₀ (State.bootStart s cause) := by
  unfold State.bootStart
  repeat' first | (extract_lets +onlyGivenNames z; first | (refine Rests.cut (s₀ := s₀) z ?_ ?_; rotate_left; clear_value z; intro hz; rotate_left; subst z) | clear_value z) | with_reducible assumption | with_reducible apply State.setF_rests | with_reducible apply State.hdgSync_rests | with_reducible apply State.raisePmic_rests | (with_reducible apply Rests.upd; with_reducible assumption)

theorem State.bootRom_rests {s₀ s : State} (h : Rests s₀ s) : Rests s₀ (State.bootRom s) := by
  unfold State.bootRom
  repeat' first | (extract_lets +onlyGivenNames z; first | (refine Rests.cut (s₀ := s₀) z ?_ ?_; rotate_left; clear_value z; intro hz; rotate_left; subst z) | clear_value z) | with_reducible assumption | with_reducible apply State.otpShow_rests | with_reducible apply State.stageTo_rests | with_reducible apply State.pllSearch_rests | with_reducible apply State.modPll_rests | with_reducible apply State.scanRing_rests | with_reducible apply State.wrapInc_rests | (with_reducible apply Rests.foldl; intro _ _ _) | with_reducible refine Rests.ite ?_ ?_ | (with_reducible apply Rests.upd; with_reducible assumption)

theorem execPmicPowerGood_rests {s₀ s : State} (h : Rests s₀ s) (enable : Nat) : RestsAns s₀ (execPmicPowerGood enable s) := by
  unfold execPmicPowerGood
  repeat' first | with_reducible assumption | with_reducible apply RestsAns.next | with_reducible apply State.raisePmic_rests | with_reducible apply State.bootRom_rests | with_reducible refine RestsAns.ite ?_ ?_ | with_reducible refine Rests.ite ?_ ?_

theorem execPmicEnableTimeout_rests {s₀ s : State} (h : Rests s₀ s) (enable : Nat) : RestsAns s₀ (execPmicEnableTimeout enable s) := by
  unfold execPmicEnableTimeout
  repeat' first | (extract_lets +onlyGivenNames z; first | (refine Rests.cut (s₀ := s₀) z ?_ ?_; rotate_left; clear_value z; intro hz; rotate_left; subst z) | clear_value z) | with_reducible assumption | with_reducible apply RestsAns.next | with_reducible apply State.pmicOff_rests | with_reducible apply State.lastWord_rests | with_reducible apply State.setF_rests | with_reducible apply State.hdgSync_rests | with_reducible refine RestsAns.ite ?_ ?_ | with_reducible refine Rests.ite ?_ ?_ | (with_reducible apply Rests.upd; with_reducible assumption)

theorem execPmicRetry_rests {s₀ s : State} (h : Rests s₀ s) : RestsAns s₀ (execPmicRetry s) := by
  unfold execPmicRetry
  repeat' first | with_reducible assumption | with_reducible apply RestsAns.next | with_reducible apply State.raisePmic_rests | with_reducible refine RestsAns.ite ?_ ?_ | with_reducible refine Rests.ite ?_ ?_

theorem execWakeNFall_rests {s₀ s : State} (h : Rests s₀ s) : RestsAns s₀ (execWakeNFall s) := by
  unfold execWakeNFall
  repeat' first | with_reducible assumption | with_reducible apply RestsAns.next | with_reducible apply State.bootStart_rests | with_reducible refine RestsAns.ite ?_ ?_ | with_reducible refine Rests.ite ?_ ?_

theorem execDcWakeTimer_rests {s₀ s : State} (h : Rests s₀ s) : RestsAns s₀ (execDcWakeTimer s) := by
  unfold execDcWakeTimer
  repeat' first | with_reducible assumption | with_reducible apply RestsAns.next | with_reducible apply State.bootStart_rests | with_reducible refine RestsAns.ite ?_ ?_ | with_reducible refine Rests.ite ?_ ?_

theorem execThermalRestart_rests {s₀ s : State} (h : Rests s₀ s) : RestsAns s₀ (execThermalRestart s) := by
  unfold execThermalRestart
  repeat' first | with_reducible assumption | with_reducible apply RestsAns.next | with_reducible apply State.setF_rests | with_reducible apply State.bootStart_rests | with_reducible refine RestsAns.ite ?_ ?_ | with_reducible refine Rests.ite ?_ ?_

theorem State.pinsDark_rests {s₀ s : State} (h : Rests s₀ s) : Rests s₀ (State.pinsDark s) := by
  unfold State.pinsDark
  repeat' first | (extract_lets +onlyGivenNames z; first | (refine Rests.cut (s₀ := s₀) z ?_ ?_; rotate_left; clear_value z; intro hz; rotate_left; subst z) | clear_value z) | with_reducible assumption | with_reducible apply State.drivePin_rests | with_reducible apply State.aliveStop_rests | with_reducible apply State.railsOff_rests | with_reducible apply State.pmicOff_rests | with_reducible apply State.setSpool_rests | (with_reducible apply Rests.foldl; intro _ _ _)

theorem State.factoryTaps_rests {s₀ s : State} (h : Rests s₀ s) : Rests s₀ (State.factoryTaps s) := by
  unfold State.factoryTaps
  try dsimp only
  repeat' first | with_reducible assumption | with_reducible apply State.setF_rests | (with_reducible apply Rests.foldl; intro _ _ _) | with_reducible refine Rests.ite ?_ ?_

theorem execSysResetRelease_rests {s₀ s : State} (h : Rests s₀ s) : RestsAns s₀ (execSysResetRelease s) := by
  unfold execSysResetRelease
  try dsimp only
  repeat' first | with_reducible assumption | with_reducible apply RestsAns.next | with_reducible apply State.setF_rests | with_reducible apply State.hdgSync_rests | with_reducible apply State.railSync_rests | with_reducible apply State.bootRom_rests | with_reducible refine RestsAns.ite ?_ ?_ | with_reducible refine Rests.ite ?_ ?_ | (with_reducible apply Rests.upd; with_reducible assumption)

theorem execDramTrained_rests {s₀ s : State} (h : Rests s₀ s) (ok : Bool) (channel : Nat) (installed : Nat) : RestsAns s₀ (execDramTrained ok channel installed s) := by
  unfold execDramTrained
  repeat' first | (extract_lets +onlyGivenNames z; first | (refine Rests.cut (s₀ := s₀) z ?_ ?_; rotate_left; clear_value z; intro hz; rotate_left; subst z) | (refine Rests.cut (s₀ := s₀) (z : _ × State).2 ?_ ?_; rotate_left; clear_value z; intro hz; rotate_left; subst z) | (refine Rests.cut (s₀ := s₀) (z : State × _).1 ?_ ?_; rotate_left; clear_value z; intro hz; rotate_left; subst z) | (refine Rests.cut (s₀ := s₀) (z : _ × _ × State).2.2 ?_ ?_; rotate_left; clear_value z; intro hz; rotate_left; subst z) | clear_value z) | with_reducible assumption | with_reducible apply RestsAns.next | with_reducible apply State.setF_rests | with_reducible apply State.bootStop_rests | with_reducible apply State.drawn_rests | with_reducible apply State.stageTo_rests | (refine Rests.of_snd ?_ (by assumption)) | with_reducible refine RestsAns.ite ?_ ?_ | with_reducible refine Rests.ite ?_ ?_ | with_reducible refine Rests.ite_snd ?_ ?_ | with_reducible refine Rests.ite_fst ?_ ?_ | split | (with_reducible apply Rests.upd; first | with_reducible assumption | with_reducible apply State.setF_rests | with_reducible apply State.bootStop_rests | with_reducible apply State.drawn_rests | with_reducible apply State.stageTo_rests) | dsimp only

theorem State.divideDram_rests {s₀ s : State} (h : Rests s₀ s) : Rests s₀ (State.divideDram s) := by
  unfold State.divideDram
  try dsimp only
  repeat' first | with_reducible assumption | with_reducible apply State.capture_rests | with_reducible apply State.report_rests | with_reducible refine Rests.ite ?_ ?_ | (with_reducible apply Rests.upd; with_reducible assumption)

end Sys2Proof.Machine
end

