-- ==== Sys2Proof/Laws/RestJtag.lean ====
section
/-! SUPPORT. Which operations of Machine/Jtag.lean leave the memories as they are (Laws/Rest.lean). -/
namespace Sys2Proof.Machine
set_option Elab.async false
set_option linter.all false

theorem State.setIr_rests {s₀ s : State} (h : Rests s₀ s) (ir : BitVec 8) : Rests s₀ (State.setIr s ir) := by
  unfold State.setIr
  try dsimp only
  repeat' first | with_reducible assumption | (with_reducible apply Rests.upd; with_reducible assumption)

theorem State.shiftOut_rests {s₀ s : State} (h : Rests s₀ s) (status : Nat) (data : Nat) : Rests s₀ (State.shiftOut s status data) := by
  unfold State.shiftOut
  repeat' first | with_reducible assumption | with_reducible apply State.emit_rests

theorem State.bypass_rests {s₀ s : State} (h : Rests s₀ s) : Rests s₀ (State.bypass s) := by
  unfold State.bypass
  repeat' first | with_reducible assumption | with_reducible apply State.setIr_rests | with_reducible apply State.shiftOut_rests

theorem execJtagBypass_rests {s₀ s : State} (h : Rests s₀ s) : RestsAns s₀ (execJtagBypass s) := by
  unfold execJtagBypass
  repeat' first | with_reducible assumption | with_reducible apply RestsAns.next | with_reducible apply State.bypass_rests | with_reducible refine RestsAns.ite ?_ ?_ | with_reducible refine Rests.ite ?_ ?_

theorem execJtagIdcode_rests {s₀ s : State} (h : Rests s₀ s) : RestsAns s₀ (execJtagIdcode s) := by
  unfold execJtagIdcode
  repeat' first | with_reducible assumption | with_reducible apply RestsAns.next | with_reducible apply State.setIr_rests | with_reducible apply State.shiftOut_rests | with_reducible refine RestsAns.ite ?_ ?_ | with_reducible refine Rests.ite ?_ ?_

theorem execJtagSamplePreload_rests {s₀ s : State} (h : Rests s₀ s) (cells : List Bool) : RestsAns s₀ (execJtagSamplePreload cells s) := by
  unfold execJtagSamplePreload
  repeat' first | (extract_lets +onlyGivenNames z; first | (refine Rests.cut (s₀ := s₀) z ?_ ?_; rotate_left; clear_value z; intro hz; rotate_left; subst z) | clear_value z) | with_reducible assumption | with_reducible apply RestsAns.next | with_reducible apply State.setIr_rests | with_reducible apply State.shiftOut_rests | with_reducible apply State.drew_rests | with_reducible refine RestsAns.ite ?_ ?_ | with_reducible refine Rests.ite ?_ ?_ | (with_reducible apply Rests.upd; with_reducible assumption)

theorem State.pinTest_rests {s₀ s : State} (h : Rests s₀ s) (ir : BitVec 8) : Rests s₀ (State.pinTest s ir) := by
  unfold State.pinTest
  repeat' first | with_reducible assumption | with_reducible apply State.setIr_rests | with_reducible apply State.report_rests | with_reducible refine Rests.ite ?_ ?_

theorem execJtagExtest_rests {s₀ s : State} (h : Rests s₀ s) : RestsAns s₀ (execJtagExtest s) := by
  unfold execJtagExtest
  repeat' first | with_reducible assumption | with_reducible apply RestsAns.next | with_reducible apply State.pinTest_rests

theorem execJtagClamp_rests {s₀ s : State} (h : Rests s₀ s) : RestsAns s₀ (execJtagClamp s) := by
  unfold execJtagClamp
  repeat' first | with_reducible assumption | with_reducible apply RestsAns.next | with_reducible apply State.pinTest_rests

theorem execJtagHighz_rests {s₀ s : State} (h : Rests s₀ s) : RestsAns s₀ (execJtagHighz s) := by
  unfold execJtagHighz
  repeat' first | with_reducible assumption | with_reducible apply RestsAns.next | with_reducible apply State.pinTest_rests

theorem State.tapRead_rests {s₀ s : State} (h : Rests s₀ s) (off : Nat) : Rests s₀ (State.tapRead s off).2 := by
  unfold State.tapRead
  try dsimp only
  repeat' first | with_reducible assumption | with_reducible apply State.reportAccess_rests | with_reducible apply State.drawChallenge_rests | with_reducible refine Rests.ite ?_ ?_ | with_reducible refine Rests.ite_snd ?_ ?_ | with_reducible refine Rests.ite_fst ?_ ?_ | split | dsimp only

theorem execJtagOtpAccess_rests {s₀ s : State} (h : Rests s₀ s) (op : Nat) (addr : Nat) (data : BitVec 64) : RestsAns s₀ (execJtagOtpAccess op addr data s) := by
  unfold execJtagOtpAccess
  repeat' first | with_reducible assumption | with_reducible apply RestsAns.next | with_reducible apply State.bypass_rests | with_reducible apply State.setIr_rests | with_reducible apply State.otpCmd_rests | with_reducible apply State.shiftOut_rests | with_reducible refine RestsAns.ite ?_ ?_ | with_reducible refine Rests.ite ?_ ?_

end Sys2Proof.Machine
end

