-- ==== Sys2Proof/Laws/RestLine.lean ====
section
/-! SUPPORT. Which operations of Machine/Line.lean leave the memories as they are (Laws/Rest.lean). -/
namespace Sys2Proof.Machine
set_option Elab.async false
set_option linter.all false

theorem execCulPartCommit_rests {s₀ s : State} (h : Rests s₀ s) (east : Bool) (msg : List (BitVec 8)) : RestsAns s₀ (execCulPartCommit east msg s) := by
  unfold execCulPartCommit
  repeat' first | (extract_lets +onlyGivenNames z; first | (refine Rests.cut (s₀ := s₀) z ?_ ?_; rotate_left; clear_value z; intro hz; rotate_left; subst z) | (refine Rests.cut (s₀ := s₀) (z : _ × State).2 ?_ ?_; rotate_left; clear_value z; intro hz; rotate_left; subst z) | (refine Rests.cut (s₀ := s₀) (z : State × _).1 ?_ ?_; rotate_left; clear_value z; intro hz; rotate_left; subst z) | (refine Rests.cut (s₀ := s₀) (z : _ × _ × State).2.2 ?_ ?_; rotate_left; clear_value z; intro hz; rotate_left; subst z) | clear_value z) | with_reducible assumption | with_reducible apply RestsAns.next | with_reducible apply State.culTake_rests | (refine Rests.of_snd ?_ (by assumption)) | with_reducible refine RestsAns.ite ?_ ?_ | with_reducible refine Rests.ite ?_ ?_ | with_reducible refine Rests.ite_snd ?_ ?_ | with_reducible refine Rests.ite_fst ?_ ?_ | split | (with_reducible apply Rests.upd; first | with_reducible assumption | with_reducible apply State.culTake_rests) | dsimp only

theorem State.spoilPart_rests {s₀ s : State} (h : Rests s₀ s) (id : BitVec 64) : Rests s₀ (State.spoilPart s id) := by
  unfold State.spoilPart
  repeat' first | with_reducible assumption | with_reducible apply State.spoilPage_rests | split

theorem State.sendSpoil_rests {s₀ s : State} (h : Rests s₀ s) (id : BitVec 64) : Rests s₀ (State.sendSpoil s id) := by
  unfold State.sendSpoil
  repeat' first | with_reducible assumption | with_reducible apply State.culBroadcast_rests

theorem State.lateLine_rests {s₀ s : State} (h : Rests s₀ s) (l : LinePage) : Rests s₀ (State.lateLine s l) := by
  unfold State.lateLine
  repeat' first | (extract_lets +onlyGivenNames z; first | (refine Rests.cut (s₀ := s₀) z ?_ ?_; rotate_left; clear_value z; intro hz; rotate_left; subst z) | clear_value z) | with_reducible assumption | with_reducible apply State.modLine_rests | with_reducible apply State.sendSchedule_rests | with_reducible apply State.latch_rests | with_reducible apply State.sendSpoil_rests | with_reducible apply State.spoilPart_rests | split | (with_reducible apply Rests.upd; with_reducible assumption)

theorem State.joinLine_rests {s₀ s : State} (h : Rests s₀ s) (l : LinePage) (t : Nat) (x : CulPart) : Rests s₀ (State.joinLine s l t x) := by
  unfold State.joinLine
  repeat' first | (extract_lets +onlyGivenNames z; first | (refine Rests.cut (s₀ := s₀) z ?_ ?_; rotate_left; clear_value z; intro hz; rotate_left; subst z) | clear_value z) | with_reducible assumption | with_reducible apply State.remain_rests | with_reducible apply State.latch_rests | with_reducible apply State.modLine_rests | with_reducible apply State.sendSchedule_rests | with_reducible refine Rests.ite ?_ ?_ | (with_reducible apply Rests.upd; with_reducible assumption)

theorem State.takePart_rests {s₀ s : State} (h : Rests s₀ s) (x : CulPart) : Rests s₀ (State.takePart s x) := by
  unfold State.takePart
  try dsimp only
  repeat' first | with_reducible assumption | with_reducible apply State.claims_rests | with_reducible apply State.sendSpoil_rests | with_reducible apply State.spoilPart_rests | with_reducible apply State.lateLine_rests | with_reducible apply State.modLine_rests | with_reducible apply State.remain_rests | with_reducible apply State.latch_rests | with_reducible apply State.joinLine_rests | with_reducible refine Rests.ite ?_ ?_ | split | (with_reducible apply Rests.upd; with_reducible assumption)

theorem execCulPartTake_rests {s₀ s : State} (h : Rests s₀ s) : RestsAns s₀ (execCulPartTake s) := by
  unfold execCulPartTake
  try dsimp only
  repeat' first | with_reducible assumption | with_reducible apply RestsAns.next | with_reducible apply State.takePart_rests | with_reducible refine RestsAns.ite ?_ ?_ | with_reducible refine Rests.ite ?_ ?_ | split | (with_reducible apply Rests.upd; with_reducible assumption)

theorem execCulPartResend_rests {s₀ s : State} (h : Rests s₀ s) (pageId : BitVec 64) : RestsAns s₀ (execCulPartResend pageId s) := by
  unfold execCulPartResend
  try dsimp only
  repeat' first | with_reducible assumption | with_reducible apply RestsAns.next | with_reducible apply State.culSend_rests | with_reducible apply State.satInc_rests | with_reducible refine RestsAns.ite ?_ ?_ | with_reducible refine Rests.ite ?_ ?_ | split | (with_reducible apply Rests.upd; with_reducible assumption)

theorem State.takeSchedule_rests {s₀ s : State} (h : Rests s₀ s) (b : List Byte) : Rests s₀ (State.takeSchedule s b) := by
  unfold State.takeSchedule
  try dsimp only
  repeat' first | with_reducible assumption | with_reducible apply State.latch_rests | with_reducible apply State.layFrame_rests | with_reducible refine Rests.ite ?_ ?_ | (with_reducible apply Rests.upd; with_reducible assumption)

theorem execCulSchedule_rests {s₀ s : State} (h : Rests s₀ s) (east : Bool) (msg : List (BitVec 8)) : RestsAns s₀ (execCulSchedule east msg s) := by
  unfold execCulSchedule
  try dsimp only
  repeat' first | with_reducible assumption | with_reducible apply RestsAns.next | with_reducible apply State.culTake_rests | with_reducible apply State.takeSchedule_rests | (refine Rests.of_snd ?_ (by assumption)) | with_reducible refine RestsAns.ite ?_ ?_ | with_reducible refine Rests.ite ?_ ?_ | with_reducible refine Rests.ite_snd ?_ ?_ | with_reducible refine Rests.ite_fst ?_ ?_ | split | dsimp only

theorem execCulPageSpoil_rests {s₀ s : State} (h : Rests s₀ s) (east : Bool) (msg : List (BitVec 8)) : RestsAns s₀ (execCulPageSpoil east msg s) := by
  unfold execCulPageSpoil
  try dsimp only
  repeat' first | with_reducible assumption | with_reducible apply RestsAns.next | with_reducible apply State.culTake_rests | with_reducible apply State.spoilPart_rests | (refine Rests.of_snd ?_ (by assumption)) | with_reducible refine RestsAns.ite ?_ ?_ | with_reducible refine Rests.ite ?_ ?_ | with_reducible refine Rests.ite_snd ?_ ?_ | with_reducible refine Rests.ite_fst ?_ ?_ | split | dsimp only

end Sys2Proof.Machine
end

