-- ==== Sys2Proof/Laws/RestTick.lean ====
section
/-! SUPPORT. Which operations of Machine/Tick.lean leave the memories as they are (Laws/Rest.lean). -/
namespace Sys2Proof.Machine
set_option Elab.async false
set_option linter.all false

theorem State.steerTick_rests {s₀ s : State} (h : Rests s₀ s) : Rests s₀ (State.steerTick s) := by
  unfold State.steerTick
  try dsimp only
  repeat' first | with_reducible assumption | with_reducible refine Rests.ite ?_ ?_ | (with_reducible apply Rests.upd; with_reducible assumption)

theorem State.coast_rests {s₀ s : State} (h : Rests s₀ s) : Rests s₀ (State.coast s) := by
  unfold State.coast
  try dsimp only
  repeat' first | with_reducible assumption | with_reducible refine Rests.ite ?_ ?_ | (with_reducible apply Rests.upd; with_reducible assumption)

theorem State.remain_rests {s₀ s : State} (h : Rests s₀ s) : Rests s₀ (State.remain s) := by
  unfold State.remain
  repeat' first | with_reducible assumption | with_reducible apply State.setF_rests | with_reducible refine Rests.ite ?_ ?_

theorem State.secondTick_rests {s₀ s : State} (h : Rests s₀ s) : Rests s₀ (State.secondTick s) := by
  unfold State.secondTick
  repeat' first | with_reducible assumption | with_reducible apply State.wrapInc_rests | with_reducible apply State.remain_rests | with_reducible refine Rests.ite ?_ ?_

theorem State.tick_rests {s₀ s : State} (h : Rests s₀ s) : Rests s₀ (State.tick s) := by
  unfold State.tick
  repeat' first | with_reducible assumption | with_reducible apply State.steerTick_rests | with_reducible apply State.coast_rests | with_reducible apply State.secondTick_rests | with_reducible refine Rests.ite ?_ ?_

end Sys2Proof.Machine
end

