-- ==== Sys2Proof/Laws/Runs.lean ====
section
/-! SUPPORT. Every command's meaning answers a next state: no command of the table stops the device. -/
namespace Sys2Proof.Machine
set_option Elab.async false
set_option linter.all false

/-- An outcome that is a next state. -/
def Runs (a : Host.Outcome State Fault Refusal) : Prop := ∃ t, a = .next t

theorem Runs.next (t : State) : Runs (.next t) := ⟨t, rfl⟩

theorem Runs.ite {a b : Host.Outcome State Fault Refusal} {c : Prop} [Decidable c] (ha : Runs a) (hb : Runs b) : Runs (if c then a else b) := by
  split
  · exact ha
  · exact hb

theorem State.axDo_runs (s : State) (ax cmd : Nat) (pass : Bool) (g : State → State) : Runs (s.axDo ax cmd pass g) := by
  unfold State.axDo
  repeat' first | with_reducible exact Runs.next _ | with_reducible refine Runs.ite ?_ ?_ | split

theorem State.task_runs (s : State) (tk : Nat) (g : State → State) : Runs (s.task tk g) := by
  unfold State.task
  repeat' first | with_reducible exact Runs.next _ | with_reducible refine Runs.ite ?_ ?_ | split

theorem execLowWordRead_runs (fn off : Nat) (wide : Bool) (s : State) : Runs (execLowWordRead fn off wide s) := by
  unfold execLowWordRead
  repeat' first | with_reducible exact Runs.next _ | exact State.axDo_runs _ _ _ _ _ | exact State.task_runs _ _ _ | with_reducible refine Runs.ite ?_ ?_ | split | dsimp only
theorem execReservedAccess_runs (master off : Nat) (write : Option (BitVec 32)) (s : State) : Runs (execReservedAccess master off write s) := by
  unfold execReservedAccess
  repeat' first | with_reducible exact Runs.next _ | exact State.axDo_runs _ _ _ _ _ | exact State.task_runs _ _ _ | with_reducible refine Runs.ite ?_ ?_ | split | dsimp only
theorem execUnsupportedAccess_runs (master off : Nat) (write : Bool) (s : State) : Runs (execUnsupportedAccess master off write s) := by
  unfold execUnsupportedAccess
  repeat' first | with_reducible exact Runs.next _ | exact State.axDo_runs _ _ _ _ _ | exact State.task_runs _ _ _ | with_reducible refine Runs.ite ?_ ?_ | split | dsimp only
theorem execClockLoss_runs (domain : Nat) (s : State) : Runs (execClockLoss domain s) := by
  unfold execClockLoss
  repeat' first | with_reducible exact Runs.next _ | exact State.axDo_runs _ _ _ _ _ | exact State.task_runs _ _ _ | with_reducible refine Runs.ite ?_ ?_ | split | dsimp only
theorem execClockRelock_runs (domain : Nat) (s : State) : Runs (execClockRelock domain s) := by
  unfold execClockRelock
  repeat' first | with_reducible exact Runs.next _ | exact State.axDo_runs _ _ _ _ _ | exact State.task_runs _ _ _ | with_reducible refine Runs.ite ?_ ?_ | split | dsimp only
theorem execAxEnable_runs (ax : Nat) (s : State) : Runs (execAxEnable ax s) := by
  unfold execAxEnable
  repeat' first | with_reducible exact Runs.next _ | exact State.axDo_runs _ _ _ _ _ | exact State.task_runs _ _ _ | with_reducible refine Runs.ite ?_ ?_ | split | dsimp only
theorem execAxEnableComplete_runs (ax : Nat) (ta tb : List Nat) (s : State) : Runs (execAxEnableComplete ax ta tb s) := by
  unfold execAxEnableComplete
  repeat' first | with_reducible exact Runs.next _ | exact State.axDo_runs _ _ _ _ _ | exact State.task_runs _ _ _ | with_reducible refine Runs.ite ?_ ?_ | split | dsimp only
theorem execAxDisable_runs (ax : Nat) (s : State) : Runs (execAxDisable ax s) := by
  unfold execAxDisable
  repeat' first | with_reducible exact Runs.next _ | exact State.axDo_runs _ _ _ _ _ | exact State.task_runs _ _ _ | with_reducible refine Runs.ite ?_ ?_ | split | dsimp only
theorem execAxMoveAbs_runs (ax : Nat) (arm : Bool) (s : State) : Runs (execAxMoveAbs ax arm s) := by
  unfold execAxMoveAbs
  repeat' first | with_reducible exact Runs.next _ | exact State.axDo_runs _ _ _ _ _ | exact State.task_runs _ _ _ | with_reducible refine Runs.ite ?_ ?_ | split | dsimp only
theorem execAxMoveRel_runs (ax : Nat) (arm : Bool) (s : State) : Runs (execAxMoveRel ax arm s) := by
  unfold execAxMoveRel
  repeat' first | with_reducible exact Runs.next _ | exact State.axDo_runs _ _ _ _ _ | exact State.task_runs _ _ _ | with_reducible refine Runs.ite ?_ ?_ | split | dsimp only
theorem execAxJogPos_runs (ax : Nat) (arm : Bool) (s : State) : Runs (execAxJogPos ax arm s) := by
  unfold execAxJogPos
  repeat' first | with_reducible exact Runs.next _ | exact State.axDo_runs _ _ _ _ _ | exact State.task_runs _ _ _ | with_reducible refine Runs.ite ?_ ?_ | split | dsimp only
theorem execAxJogNeg_runs (ax : Nat) (arm : Bool) (s : State) : Runs (execAxJogNeg ax arm s) := by
  unfold execAxJogNeg
  repeat' first | with_reducible exact Runs.next _ | exact State.axDo_runs _ _ _ _ _ | exact State.task_runs _ _ _ | with_reducible refine Runs.ite ?_ ?_ | split | dsimp only
theorem execAxStop_runs (ax : Nat) (s : State) : Runs (execAxStop ax s) := by
  unfold execAxStop
  repeat' first | with_reducible exact Runs.next _ | exact State.axDo_runs _ _ _ _ _ | exact State.task_runs _ _ _ | with_reducible refine Runs.ite ?_ ?_ | split | dsimp only
theorem execAxQstop_runs (ax : Nat) (s : State) : Runs (execAxQstop ax s) := by
  unfold execAxQstop
  repeat' first | with_reducible exact Runs.next _ | exact State.axDo_runs _ _ _ _ _ | exact State.task_runs _ _ _ | with_reducible refine Runs.ite ?_ ?_ | split | dsimp only
theorem execAxResume_runs (ax : Nat) (arm : Bool) (s : State) : Runs (execAxResume ax arm s) := by
  unfold execAxResume
  repeat' first | with_reducible exact Runs.next _ | exact State.axDo_runs _ _ _ _ _ | exact State.task_runs _ _ _ | with_reducible refine Runs.ite ?_ ?_ | split | dsimp only
theorem execAxSetpos_runs (ax : Nat) (s : State) : Runs (execAxSetpos ax s) := by
  unfold execAxSetpos
  repeat' first | with_reducible exact Runs.next _ | exact State.axDo_runs _ _ _ _ _ | exact State.task_runs _ _ _ | with_reducible refine Runs.ite ?_ ?_ | split | dsimp only
theorem execAxClear_runs (ax : Nat) (s : State) : Runs (execAxClear ax s) := by
  unfold execAxClear
  repeat' first | with_reducible exact Runs.next _ | exact State.axDo_runs _ _ _ _ _ | exact State.task_runs _ _ _ | with_reducible refine Runs.ite ?_ ?_ | split | dsimp only
theorem execAxStepEvent_runs (ax : Nat) (s : State) : Runs (execAxStepEvent ax s) := by
  unfold execAxStepEvent
  repeat' first | with_reducible exact Runs.next _ | exact State.axDo_runs _ _ _ _ _ | exact State.task_runs _ _ _ | with_reducible refine Runs.ite ?_ ?_ | split | dsimp only
theorem execAxDeviationCheck_runs (ax : Nat) (s : State) : Runs (execAxDeviationCheck ax s) := by
  unfold execAxDeviationCheck
  repeat' first | with_reducible exact Runs.next _ | exact State.axDo_runs _ _ _ _ _ | exact State.task_runs _ _ _ | with_reducible refine Runs.ite ?_ ?_ | split | dsimp only
theorem execAxSettleCheck_runs (ax : Nat) (s : State) : Runs (execAxSettleCheck ax s) := by
  unfold execAxSettleCheck
  repeat' first | with_reducible exact Runs.next _ | exact State.axDo_runs _ _ _ _ _ | exact State.task_runs _ _ _ | with_reducible refine Runs.ite ?_ ?_ | split | dsimp only
theorem execAxHoldTimeout_runs (ax : Nat) (s : State) : Runs (execAxHoldTimeout ax s) := by
  unfold execAxHoldTimeout
  repeat' first | with_reducible exact Runs.next _ | exact State.axDo_runs _ _ _ _ _ | exact State.task_runs _ _ _ | with_reducible refine Runs.ite ?_ ?_ | split | dsimp only
theorem execChopThresholdCross_runs (ax phase : Nat) (s : State) : Runs (execChopThresholdCross ax phase s) := by
  unfold execChopThresholdCross
  repeat' first | with_reducible exact Runs.next _ | exact State.axDo_runs _ _ _ _ _ | exact State.task_runs _ _ _ | with_reducible refine Runs.ite ?_ ?_ | split | dsimp only
theorem execChopMixEnd_runs (ax phase : Nat) (s : State) : Runs (execChopMixEnd ax phase s) := by
  unfold execChopMixEnd
  repeat' first | with_reducible exact Runs.next _ | exact State.axDo_runs _ _ _ _ _ | exact State.task_runs _ _ _ | with_reducible refine Runs.ite ?_ ?_ | split | dsimp only
theorem execChopMaxOnTimeout_runs (ax phase : Nat) (s : State) : Runs (execChopMaxOnTimeout ax phase s) := by
  unfold execChopMaxOnTimeout
  repeat' first | with_reducible exact Runs.next _ | exact State.axDo_runs _ _ _ _ _ | exact State.task_runs _ _ _ | with_reducible refine Runs.ite ?_ ?_ | split | dsimp only
theorem execChopBlankingEnd_runs (ax phase : Nat) (atLevel : Bool) (s : State) : Runs (execChopBlankingEnd ax phase atLevel s) := by
  unfold execChopBlankingEnd
  repeat' first | with_reducible exact Runs.next _ | exact State.axDo_runs _ _ _ _ _ | exact State.task_runs _ _ _ | with_reducible refine Runs.ite ?_ ?_ | split | dsimp only
theorem execPmicPowerGood_runs (enable : Nat) (s : State) : Runs (execPmicPowerGood enable s) := by
  unfold execPmicPowerGood
  repeat' first | with_reducible exact Runs.next _ | exact State.axDo_runs _ _ _ _ _ | exact State.task_runs _ _ _ | with_reducible refine Runs.ite ?_ ?_ | split | dsimp only
theorem execPmicEnableTimeout_runs (enable : Nat) (s : State) : Runs (execPmicEnableTimeout enable s) := by
  unfold execPmicEnableTimeout
  repeat' first | with_reducible exact Runs.next _ | exact State.axDo_runs _ _ _ _ _ | exact State.task_runs _ _ _ | with_reducible refine Runs.ite ?_ ?_ | split | dsimp only
theorem execPmicRetry_runs (s : State) : Runs (execPmicRetry s) := by
  unfold execPmicRetry
  repeat' first | with_reducible exact Runs.next _ | exact State.axDo_runs _ _ _ _ _ | exact State.task_runs _ _ _ | with_reducible refine Runs.ite ?_ ?_ | split | dsimp only
theorem execWakeNFall_runs (s : State) : Runs (execWakeNFall s) := by
  unfold execWakeNFall
  repeat' first | with_reducible exact Runs.next _ | exact State.axDo_runs _ _ _ _ _ | exact State.task_runs _ _ _ | with_reducible refine Runs.ite ?_ ?_ | split | dsimp only
theorem execDcWakeTimer_runs (s : State) : Runs (execDcWakeTimer s) := by
  unfold execDcWakeTimer
  repeat' first | with_reducible exact Runs.next _ | exact State.axDo_runs _ _ _ _ _ | exact State.task_runs _ _ _ | with_reducible refine Runs.ite ?_ ?_ | split | dsimp only
theorem execThermalRestart_runs (s : State) : Runs (execThermalRestart s) := by
  unfold execThermalRestart
  repeat' first | with_reducible exact Runs.next _ | exact State.axDo_runs _ _ _ _ _ | exact State.task_runs _ _ _ | with_reducible refine Runs.ite ?_ ?_ | split | dsimp only
theorem execPowerOnReset_runs (strap testMode siiOk : Bool) (s : State) : Runs (execPowerOnReset strap testMode siiOk s) := by
  unfold execPowerOnReset
  repeat' first | with_reducible exact Runs.next _ | exact State.axDo_runs _ _ _ _ _ | exact State.task_runs _ _ _ | with_reducible refine Runs.ite ?_ ?_ | split | dsimp only
theorem execVddAonLow_runs (s : State) : Runs (execVddAonLow s) := by
  unfold execVddAonLow
  repeat' first | with_reducible exact Runs.next _ | exact State.axDo_runs _ _ _ _ _ | exact State.task_runs _ _ _ | with_reducible refine Runs.ite ?_ ?_ | split | dsimp only
theorem execSysResetAssert_runs (s : State) : Runs (execSysResetAssert s) := by
  unfold execSysResetAssert
  repeat' first | with_reducible exact Runs.next _ | exact State.axDo_runs _ _ _ _ _ | exact State.task_runs _ _ _ | with_reducible refine Runs.ite ?_ ?_ | split | dsimp only
theorem execSysResetRelease_runs (s : State) : Runs (execSysResetRelease s) := by
  unfold execSysResetRelease
  repeat' first | with_reducible exact Runs.next _ | exact State.axDo_runs _ _ _ _ _ | exact State.task_runs _ _ _ | with_reducible refine Runs.ite ?_ ?_ | split | dsimp only
theorem execDramTrained_runs (ok : Bool) (channel installed : Nat) (s : State) : Runs (execDramTrained ok channel installed s) := by
  unfold execDramTrained
  repeat' first | with_reducible exact Runs.next _ | exact State.axDo_runs _ _ _ _ _ | exact State.task_runs _ _ _ | with_reducible refine Runs.ite ?_ ?_ | split | dsimp only
theorem execFirmwareVerified_runs (dir : Nat × Nat × Nat) (hdrA : Option (List (BitVec 8))) (payA : List (BitVec 8)) (hdrB : Option (List (BitVec 8))) (payB : List (BitVec 8)) (journalOk burnOk : Bool) (s : State) : Runs (execFirmwareVerified dir hdrA payA hdrB payB journalOk burnOk s) := by
  unfold execFirmwareVerified
  repeat' first | with_reducible exact Runs.next _ | exact State.axDo_runs _ _ _ _ _ | exact State.task_runs _ _ _ | with_reducible refine Runs.ite ?_ ?_ | split | dsimp only
theorem execPmbusPoll_runs (ok : Bool) (fault : Option Nat) (s : State) : Runs (execPmbusPoll ok fault s) := by
  unfold execPmbusPoll
  repeat' first | with_reducible exact Runs.next _ | exact State.axDo_runs _ _ _ _ _ | exact State.task_runs _ _ _ | with_reducible refine Runs.ite ?_ ?_ | split | dsimp only
theorem execPaceEvaluate_runs (slack : List (BitVec 16)) (vread : Nat) (s : State) : Runs (execPaceEvaluate slack vread s) := by
  unfold execPaceEvaluate
  repeat' first | with_reducible exact Runs.next _ | exact State.axDo_runs _ _ _ _ _ | exact State.task_runs _ _ _ | with_reducible refine Runs.ite ?_ ?_ | split | dsimp only
theorem execVddCoreUndervolt_runs (s : State) : Runs (execVddCoreUndervolt s) := by
  unfold execVddCoreUndervolt
  repeat' first | with_reducible exact Runs.next _ | exact State.axDo_runs _ _ _ _ _ | exact State.task_runs _ _ _ | with_reducible refine Runs.ite ?_ ?_ | split | dsimp only
theorem execPowerStepSleepToHibernate_runs (s : State) : Runs (execPowerStepSleepToHibernate s) := by
  unfold execPowerStepSleepToHibernate
  repeat' first | with_reducible exact Runs.next _ | exact State.axDo_runs _ _ _ _ _ | exact State.task_runs _ _ _ | with_reducible refine Runs.ite ?_ ?_ | split | dsimp only
theorem execPowerStepHibernateToOff_runs (s : State) : Runs (execPowerStepHibernateToOff s) := by
  unfold execPowerStepHibernateToOff
  repeat' first | with_reducible exact Runs.next _ | exact State.axDo_runs _ _ _ _ _ | exact State.task_runs _ _ _ | with_reducible refine Runs.ite ?_ ?_ | split | dsimp only
theorem execThermalSensorRound_runs (temps : List (BitVec 16)) (s : State) : Runs (execThermalSensorRound temps s) := by
  unfold execThermalSensorRound
  repeat' first | with_reducible exact Runs.next _ | exact State.axDo_runs _ _ _ _ _ | exact State.task_runs _ _ _ | with_reducible refine Runs.ite ?_ ?_ | split | dsimp only
theorem execWeirGraceExpiry_runs (s : State) : Runs (execWeirGraceExpiry s) := by
  unfold execWeirGraceExpiry
  repeat' first | with_reducible exact Runs.next _ | exact State.axDo_runs _ _ _ _ _ | exact State.task_runs _ _ _ | with_reducible refine Runs.ite ?_ ?_ | split | dsimp only
theorem execPlacementListLanded_runs (st : Nat) (s : State) : Runs (execPlacementListLanded st s) := by
  unfold execPlacementListLanded
  repeat' first | with_reducible exact Runs.next _ | exact State.axDo_runs _ _ _ _ _ | exact State.task_runs _ _ _ | with_reducible refine Runs.ite ?_ ?_ | split | dsimp only
theorem execDirectoryEntryRead_runs (st : Nat) (failed : Option Nat) (tag : Bool) (s : State) : Runs (execDirectoryEntryRead st failed tag s) := by
  unfold execDirectoryEntryRead
  repeat' first | with_reducible exact Runs.next _ | exact State.axDo_runs _ _ _ _ _ | exact State.task_runs _ _ _ | with_reducible refine Runs.ite ?_ ?_ | split | dsimp only
theorem execTileLoadComplete_runs (fn tile : Nat) (s : State) : Runs (execTileLoadComplete fn tile s) := by
  unfold execTileLoadComplete
  repeat' first | with_reducible exact Runs.next _ | exact State.axDo_runs _ _ _ _ _ | exact State.task_runs _ _ _ | with_reducible refine Runs.ite ?_ ?_ | split | dsimp only
theorem execTileLoadResume_runs (fn tile : Nat) (s : State) : Runs (execTileLoadResume fn tile s) := by
  unfold execTileLoadResume
  repeat' first | with_reducible exact Runs.next _ | exact State.axDo_runs _ _ _ _ _ | exact State.task_runs _ _ _ | with_reducible refine Runs.ite ?_ ?_ | split | dsimp only
theorem execRiskReevaluate_runs (s : State) : Runs (execRiskReevaluate s) := by
  unfold execRiskReevaluate
  repeat' first | with_reducible exact Runs.next _ | exact State.axDo_runs _ _ _ _ _ | exact State.task_runs _ _ _ | with_reducible refine Runs.ite ?_ ?_ | split | dsimp only
theorem execPinEnable_runs (entry : Nat) (value : BitVec 32) (s : State) : Runs (execPinEnable entry value s) := by
  unfold execPinEnable
  repeat' first | with_reducible exact Runs.next _ | exact State.axDo_runs _ _ _ _ _ | exact State.task_runs _ _ _ | with_reducible refine Runs.ite ?_ ?_ | split | dsimp only
theorem execPinDisable_runs (entry : Nat) (value : BitVec 32) (s : State) : Runs (execPinDisable entry value s) := by
  unfold execPinDisable
  repeat' first | with_reducible exact Runs.next _ | exact State.axDo_runs _ _ _ _ _ | exact State.task_runs _ _ _ | with_reducible refine Runs.ite ?_ ?_ | split | dsimp only
theorem execPinResident_runs (entry : Nat) (s : State) : Runs (execPinResident entry s) := by
  unfold execPinResident
  repeat' first | with_reducible exact Runs.next _ | exact State.axDo_runs _ _ _ _ _ | exact State.task_runs _ _ _ | with_reducible refine Runs.ite ?_ ?_ | split | dsimp only
theorem execAlStateRequest_runs (target : Nat) (station : BitVec 16) (mbxOk : Bool) (sm2 sm3 sync0 : Nat) (siiOk : Bool) (s : State) : Runs (execAlStateRequest target station mbxOk sm2 sm3 sync0 siiOk s) := by
  unfold execAlStateRequest
  repeat' first | with_reducible exact Runs.next _ | exact State.axDo_runs _ _ _ _ _ | exact State.task_runs _ _ _ | with_reducible refine Runs.ite ?_ ?_ | split | dsimp only
theorem execSm2Watchdog_runs (s : State) : Runs (execSm2Watchdog s) := by
  unfold execSm2Watchdog
  repeat' first | with_reducible exact Runs.next _ | exact State.axDo_runs _ _ _ _ _ | exact State.task_runs _ _ _ | with_reducible refine Runs.ite ?_ ?_ | split | dsimp only
theorem execRxpdoApply_runs (data : List (BitVec 8)) (s : State) : Runs (execRxpdoApply data s) := by
  unfold execRxpdoApply
  repeat' first | with_reducible exact Runs.next _ | exact State.axDo_runs _ _ _ _ _ | exact State.task_runs _ _ _ | with_reducible refine Runs.ite ?_ ?_ | split | dsimp only
theorem execSync0Edge_runs (dcTime : BitVec 64) (fresh : Bool) (s : State) : Runs (execSync0Edge dcTime fresh s) := by
  unfold execSync0Edge
  repeat' first | with_reducible exact Runs.next _ | exact State.axDo_runs _ _ _ _ _ | exact State.task_runs _ _ _ | with_reducible refine Runs.ite ?_ ?_ | split | dsimp only
theorem execSm3ReadComplete_runs (s : State) : Runs (execSm3ReadComplete s) := by
  unfold execSm3ReadComplete
  repeat' first | with_reducible exact Runs.next _ | exact State.axDo_runs _ _ _ _ _ | exact State.task_runs _ _ _ | with_reducible refine Runs.ite ?_ ?_ | split | dsimp only
theorem execDcOffsetMeasure_runs (dcTime : BitVec 64) (s : State) : Runs (execDcOffsetMeasure dcTime s) := by
  unfold execDcOffsetMeasure
  repeat' first | with_reducible exact Runs.next _ | exact State.axDo_runs _ _ _ _ _ | exact State.task_runs _ _ _ | with_reducible refine Runs.ite ?_ ?_ | split | dsimp only
theorem execEctLinkChange_runs (port : Nat) (up : Bool) (s : State) : Runs (execEctLinkChange port up s) := by
  unfold execEctLinkChange
  repeat' first | with_reducible exact Runs.next _ | exact State.axDo_runs _ _ _ _ _ | exact State.task_runs _ _ _ | with_reducible refine Runs.ite ?_ ?_ | split | dsimp only
theorem execFoeWrite_runs (name : String) (password : BitVec 32) (packet : Nat) (data : List (BitVec 8)) (last : Bool) (s : State) : Runs (execFoeWrite name password packet data last s) := by
  unfold execFoeWrite
  repeat' first | with_reducible exact Runs.next _ | exact State.axDo_runs _ _ _ _ _ | exact State.task_runs _ _ _ | with_reducible refine Runs.ite ?_ ?_ | split | dsimp only
theorem execFoeRead_runs (name : String) (s : State) : Runs (execFoeRead name s) := by
  unfold execFoeRead
  repeat' first | with_reducible exact Runs.next _ | exact State.axDo_runs _ _ _ _ _ | exact State.task_runs _ _ _ | with_reducible refine Runs.ite ?_ ?_ | split | dsimp only
theorem execMailboxUnsupported_runs (protocol : Nat) (s : State) : Runs (execMailboxUnsupported protocol s) := by
  unfold execMailboxUnsupported
  repeat' first | with_reducible exact Runs.next _ | exact State.axDo_runs _ _ _ _ _ | exact State.task_runs _ _ _ | with_reducible refine Runs.ite ?_ ?_ | split | dsimp only
theorem execEncoderCount_runs (n : Nat) (a b : Bool) (s : State) : Runs (execEncoderCount n a b s) := by
  unfold execEncoderCount
  repeat' first | with_reducible exact Runs.next _ | exact State.axDo_runs _ _ _ _ _ | exact State.task_runs _ _ _ | with_reducible refine Runs.ite ?_ ?_ | split | dsimp only
theorem execMonitorRead_runs (st : Nat) (s : State) : Runs (execMonitorRead st s) := by
  unfold execMonitorRead
  repeat' first | with_reducible exact Runs.next _ | exact State.axDo_runs _ _ _ _ _ | exact State.task_runs _ _ _ | with_reducible refine Runs.ite ?_ ?_ | split | dsimp only
theorem execTapCalMeasure_runs (st count : Nat) (s : State) : Runs (execTapCalMeasure st count s) := by
  unfold execTapCalMeasure
  repeat' first | with_reducible exact Runs.next _ | exact State.axDo_runs _ _ _ _ _ | exact State.task_runs _ _ _ | with_reducible refine Runs.ite ?_ ?_ | split | dsimp only
theorem execHalfAdvanceWrite_runs (master : Nat) (value : BitVec 32) (s : State) : Runs (execHalfAdvanceWrite master value s) := by
  unfold execHalfAdvanceWrite
  repeat' first | with_reducible exact Runs.next _ | exact State.axDo_runs _ _ _ _ _ | exact State.task_runs _ _ _ | with_reducible refine Runs.ite ?_ ?_ | split | dsimp only
theorem execFurrowRelease_runs (st : Nat) (s : State) : Runs (execFurrowRelease st s) := by
  unfold execFurrowRelease
  repeat' first | with_reducible exact Runs.next _ | exact State.axDo_runs _ _ _ _ _ | exact State.task_runs _ _ _ | with_reducible refine Runs.ite ?_ ?_ | split | dsimp only
theorem execFurrowComplete_runs (flume : Nat) (ecc : Option Nat) (corrected : Bool) (s : State) : Runs (execFurrowComplete flume ecc corrected s) := by
  unfold execFurrowComplete
  repeat' first | with_reducible exact Runs.next _ | exact State.axDo_runs _ _ _ _ _ | exact State.task_runs _ _ _ | with_reducible refine Runs.ite ?_ ?_ | split | dsimp only
theorem execFurrowDataDeadline_runs (st : Nat) (s : State) : Runs (execFurrowDataDeadline st s) := by
  unfold execFurrowDataDeadline
  repeat' first | with_reducible exact Runs.next _ | exact State.axDo_runs _ _ _ _ _ | exact State.task_runs _ _ _ | with_reducible refine Runs.ite ?_ ?_ | split | dsimp only
theorem execFurrowLate_runs (st : Nat) (s : State) : Runs (execFurrowLate st s) := by
  unfold execFurrowLate
  repeat' first | with_reducible exact Runs.next _ | exact State.axDo_runs _ _ _ _ _ | exact State.task_runs _ _ _ | with_reducible refine Runs.ite ?_ ?_ | split | dsimp only
theorem execFlumeStall_runs (flume : Nat) (s : State) : Runs (execFlumeStall flume s) := by
  unfold execFlumeStall
  repeat' first | with_reducible exact Runs.next _ | exact State.axDo_runs _ _ _ _ _ | exact State.task_runs _ _ _ | with_reducible refine Runs.ite ?_ ?_ | split | dsimp only
theorem execRedoStart_runs (s : State) : Runs (execRedoStart s) := by
  unfold execRedoStart
  repeat' first | with_reducible exact Runs.next _ | exact State.axDo_runs _ _ _ _ _ | exact State.task_runs _ _ _ | with_reducible refine Runs.ite ?_ ?_ | split | dsimp only
theorem execFlumeUnfence_runs (flume : Nat) (s : State) : Runs (execFlumeUnfence flume s) := by
  unfold execFlumeUnfence
  repeat' first | with_reducible exact Runs.next _ | exact State.axDo_runs _ _ _ _ _ | exact State.task_runs _ _ _ | with_reducible refine Runs.ite ?_ ?_ | split | dsimp only
theorem execFlumeTestDone_runs (flume : Nat) (pass : Bool) (s : State) : Runs (execFlumeTestDone flume pass s) := by
  unfold execFlumeTestDone
  repeat' first | with_reducible exact Runs.next _ | exact State.axDo_runs _ _ _ _ _ | exact State.task_runs _ _ _ | with_reducible refine Runs.ite ?_ ?_ | split | dsimp only
theorem execStationTableWrite_runs (master off : Nat) (value : BitVec 32) (s : State) : Runs (execStationTableWrite master off value s) := by
  unfold execStationTableWrite
  repeat' first | with_reducible exact Runs.next _ | exact State.axDo_runs _ _ _ _ _ | exact State.task_runs _ _ _ | with_reducible refine Runs.ite ?_ ?_ | split | dsimp only
theorem execTableLogIdleApply_runs (st : Nat) (s : State) : Runs (execTableLogIdleApply st s) := by
  unfold execTableLogIdleApply
  repeat' first | with_reducible exact Runs.next _ | exact State.axDo_runs _ _ _ _ _ | exact State.task_runs _ _ _ | with_reducible refine Runs.ite ?_ ?_ | split | dsimp only
theorem execPredictorEvaluate_runs (s : State) : Runs (execPredictorEvaluate s) := by
  unfold execPredictorEvaluate
  repeat' first | with_reducible exact Runs.next _ | exact State.axDo_runs _ _ _ _ _ | exact State.task_runs _ _ _ | with_reducible refine Runs.ite ?_ ?_ | split | dsimp only
theorem execPageGapOpen_runs (st : Nat) (s : State) : Runs (execPageGapOpen st s) := by
  unfold execPageGapOpen
  repeat' first | with_reducible exact Runs.next _ | exact State.axDo_runs _ _ _ _ _ | exact State.task_runs _ _ _ | with_reducible refine Runs.ite ?_ ?_ | split | dsimp only
theorem execInterlockChange_runs (cover : Nat) (isOpen : Bool) (s : State) : Runs (execInterlockChange cover isOpen s) := by
  unfold execInterlockChange
  repeat' first | with_reducible exact Runs.next _ | exact State.axDo_runs _ _ _ _ _ | exact State.task_runs _ _ _ | with_reducible refine Runs.ite ?_ ?_ | split | dsimp only
theorem execTachEdge_runs (enc : Nat) (s : State) : Runs (execTachEdge enc s) := by
  unfold execTachEdge
  repeat' first | with_reducible exact Runs.next _ | exact State.axDo_runs _ _ _ _ _ | exact State.task_runs _ _ _ | with_reducible refine Runs.ite ?_ ?_ | split | dsimp only
theorem execSpeedGateTimeout_runs (st : Nat) (s : State) : Runs (execSpeedGateTimeout st s) := by
  unfold execSpeedGateTimeout
  repeat' first | with_reducible exact Runs.next _ | exact State.axDo_runs _ _ _ _ _ | exact State.task_runs _ _ _ | with_reducible refine Runs.ite ?_ ?_ | split | dsimp only
theorem execEmitterOntimeExceeded_runs (st emitter : Nat) (s : State) : Runs (execEmitterOntimeExceeded st emitter s) := by
  unfold execEmitterOntimeExceeded
  repeat' first | with_reducible exact Runs.next _ | exact State.axDo_runs _ _ _ _ _ | exact State.task_runs _ _ _ | with_reducible refine Runs.ite ?_ ?_ | split | dsimp only
theorem execDutyEvaluate_runs (onTimes : List (List Nat)) (s : State) : Runs (execDutyEvaluate onTimes s) := by
  unfold execDutyEvaluate
  repeat' first | with_reducible exact Runs.next _ | exact State.axDo_runs _ _ _ _ _ | exact State.task_runs _ _ _ | with_reducible refine Runs.ite ?_ ?_ | split | dsimp only
theorem execHdgLimitWrite_runs (off : Nat) (value : BitVec 32) (s : State) : Runs (execHdgLimitWrite off value s) := by
  unfold execHdgLimitWrite
  repeat' first | with_reducible exact Runs.next _ | exact State.axDo_runs _ _ _ _ _ | exact State.task_runs _ _ _ | with_reducible refine Runs.ite ?_ ?_ | split | dsimp only
theorem execSqDoorbell_runs (fn tail : Nat) (s : State) : Runs (execSqDoorbell fn tail s) := by
  unfold execSqDoorbell
  repeat' first | with_reducible exact Runs.next _ | exact State.axDo_runs _ _ _ _ _ | exact State.task_runs _ _ _ | with_reducible refine Runs.ite ?_ ?_ | split | dsimp only
theorem execSqServe_runs (s : State) : Runs (execSqServe s) := by
  unfold execSqServe
  repeat' first | with_reducible exact Runs.next _ | exact State.axDo_runs _ _ _ _ _ | exact State.task_runs _ _ _ | with_reducible refine Runs.ite ?_ ?_ | split | dsimp only
theorem execDescriptorReadFailed_runs (fn how : Nat) (s : State) : Runs (execDescriptorReadFailed fn how s) := by
  unfold execDescriptorReadFailed
  repeat' first | with_reducible exact Runs.next _ | exact State.axDo_runs _ _ _ _ _ | exact State.task_runs _ _ _ | with_reducible refine Runs.ite ?_ ?_ | split | dsimp only
theorem execCqHeadWrite_runs (fn head : Nat) (s : State) : Runs (execCqHeadWrite fn head s) := by
  unfold execCqHeadWrite
  repeat' first | with_reducible exact Runs.next _ | exact State.axDo_runs _ _ _ _ _ | exact State.task_runs _ _ _ | with_reducible refine Runs.ite ?_ ?_ | split | dsimp only
theorem execBacklogDrain_runs (fn : Nat) (s : State) : Runs (execBacklogDrain fn s) := by
  unfold execBacklogDrain
  repeat' first | with_reducible exact Runs.next _ | exact State.axDo_runs _ _ _ _ _ | exact State.task_runs _ _ _ | with_reducible refine Runs.ite ?_ ?_ | split | dsimp only
theorem execCqCoalesceTimeout_runs (fn : Nat) (s : State) : Runs (execCqCoalesceTimeout fn s) := by
  unfold execCqCoalesceTimeout
  repeat' first | with_reducible exact Runs.next _ | exact State.axDo_runs _ _ _ _ _ | exact State.task_runs _ _ _ | with_reducible refine Runs.ite ?_ ?_ | split | dsimp only
theorem execQEnable_runs (fn : Nat) (s : State) : Runs (execQEnable fn s) := by
  unfold execQEnable
  repeat' first | with_reducible exact Runs.next _ | exact State.axDo_runs _ _ _ _ _ | exact State.task_runs _ _ _ | with_reducible refine Runs.ite ?_ ?_ | split | dsimp only
theorem execQDisable_runs (fn : Nat) (s : State) : Runs (execQDisable fn s) := by
  unfold execQDisable
  repeat' first | with_reducible exact Runs.next _ | exact State.axDo_runs _ _ _ _ _ | exact State.task_runs _ _ _ | with_reducible refine Runs.ite ?_ ?_ | split | dsimp only
theorem execQPause_runs (fn : Nat) (s : State) : Runs (execQPause fn s) := by
  unfold execQPause
  repeat' first | with_reducible exact Runs.next _ | exact State.axDo_runs _ _ _ _ _ | exact State.task_runs _ _ _ | with_reducible refine Runs.ite ?_ ?_ | split | dsimp only
theorem execQResume_runs (fn : Nat) (s : State) : Runs (execQResume fn s) := by
  unfold execQResume
  repeat' first | with_reducible exact Runs.next _ | exact State.axDo_runs _ _ _ _ _ | exact State.task_runs _ _ _ | with_reducible refine Runs.ite ?_ ?_ | split | dsimp only
theorem execFlrStart_runs (fn : Nat) (s : State) : Runs (execFlrStart fn s) := by
  unfold execFlrStart
  repeat' first | with_reducible exact Runs.next _ | exact State.axDo_runs _ _ _ _ _ | exact State.task_runs _ _ _ | with_reducible refine Runs.ite ?_ ?_ | split | dsimp only
theorem execFlrComplete_runs (fn : Nat) (s : State) : Runs (execFlrComplete fn s) := by
  unfold execFlrComplete
  repeat' first | with_reducible exact Runs.next _ | exact State.axDo_runs _ _ _ _ _ | exact State.task_runs _ _ _ | with_reducible refine Runs.ite ?_ ?_ | split | dsimp only
theorem execPerstAssert_runs (s : State) : Runs (execPerstAssert s) := by
  unfold execPerstAssert
  repeat' first | with_reducible exact Runs.next _ | exact State.axDo_runs _ _ _ _ _ | exact State.task_runs _ _ _ | with_reducible refine Runs.ite ?_ ?_ | split | dsimp only
theorem execPerstDeassert_runs (s : State) : Runs (execPerstDeassert s) := by
  unfold execPerstDeassert
  repeat' first | with_reducible exact Runs.next _ | exact State.axDo_runs _ _ _ _ _ | exact State.task_runs _ _ _ | with_reducible refine Runs.ite ?_ ?_ | split | dsimp only
theorem execLinkDown_runs (hotReset : Bool) (s : State) : Runs (execLinkDown hotReset s) := by
  unfold execLinkDown
  repeat' first | with_reducible exact Runs.next _ | exact State.axDo_runs _ _ _ _ _ | exact State.task_runs _ _ _ | with_reducible refine Runs.ite ?_ ?_ | split | dsimp only
theorem execLinkUp_runs (width speed corrected : Nat) (s : State) : Runs (execLinkUp width speed corrected s) := by
  unfold execLinkUp
  repeat' first | with_reducible exact Runs.next _ | exact State.axDo_runs _ _ _ _ _ | exact State.task_runs _ _ _ | with_reducible refine Runs.ite ?_ ?_ | split | dsimp only
theorem execMsixUnmask_runs (fn vec : Nat) (s : State) : Runs (execMsixUnmask fn vec s) := by
  unfold execMsixUnmask
  repeat' first | with_reducible exact Runs.next _ | exact State.axDo_runs _ _ _ _ _ | exact State.task_runs _ _ _ | with_reducible refine Runs.ite ?_ ?_ | split | dsimp only
theorem execD3hotEntry_runs (fn : Nat) (s : State) : Runs (execD3hotEntry fn s) := by
  unfold execD3hotEntry
  repeat' first | with_reducible exact Runs.next _ | exact State.axDo_runs _ _ _ _ _ | exact State.task_runs _ _ _ | with_reducible refine Runs.ite ?_ ?_ | split | dsimp only
theorem execD0Return_runs (fn : Nat) (s : State) : Runs (execD0Return fn s) := by
  unfold execD0Return
  repeat' first | with_reducible exact Runs.next _ | exact State.axDo_runs _ _ _ _ _ | exact State.task_runs _ _ _ | with_reducible refine Runs.ite ?_ ?_ | split | dsimp only
theorem execConfigRequest_runs (fn : Nat) (write : Option (BitVec 32)) (off : Nat) (s : State) : Runs (execConfigRequest fn write off s) := by
  unfold execConfigRequest
  repeat' first | with_reducible exact Runs.next _ | exact State.axDo_runs _ _ _ _ _ | exact State.task_runs _ _ _ | with_reducible refine Runs.ite ?_ ?_ | split | dsimp only
theorem execScanLinkLock_runs (side : Nat) (s : State) : Runs (execScanLinkLock side s) := by
  unfold execScanLinkLock
  repeat' first | with_reducible exact Runs.next _ | exact State.axDo_runs _ _ _ _ _ | exact State.task_runs _ _ _ | with_reducible refine Runs.ite ?_ ?_ | split | dsimp only
theorem execScanLinkLockLoss_runs (side : Nat) (lanes : BitVec 4) (s : State) : Runs (execScanLinkLockLoss side lanes s) := by
  unfold execScanLinkLockLoss
  repeat' first | with_reducible exact Runs.next _ | exact State.axDo_runs _ _ _ _ _ | exact State.task_runs _ _ _ | with_reducible refine Runs.ite ?_ ?_ | split | dsimp only
theorem execCisLine_runs (side : Nat) (lanes : List (List (Bool × BitVec 64))) (s : State) : Runs (execCisLine side lanes s) := by
  unfold execCisLine
  repeat' first | with_reducible exact Runs.next _ | exact State.axDo_runs _ _ _ _ _ | exact State.task_runs _ _ _ | with_reducible refine Runs.ite ?_ ?_ | split | dsimp only
theorem execInspectionResultComplete_runs (side : Nat) (s : State) : Runs (execInspectionResultComplete side s) := by
  unfold execInspectionResultComplete
  repeat' first | with_reducible exact Runs.next _ | exact State.axDo_runs _ _ _ _ _ | exact State.task_runs _ _ _ | with_reducible refine Runs.ite ?_ ?_ | split | dsimp only
theorem execInsAck_runs (side seq : Nat) (s : State) : Runs (execInsAck side seq s) := by
  unfold execInsAck
  repeat' first | with_reducible exact Runs.next _ | exact State.axDo_runs _ _ _ _ _ | exact State.task_runs _ _ _ | with_reducible refine Runs.ite ?_ ?_ | split | dsimp only
theorem execCalWhite_runs (side : Nat) (s : State) : Runs (execCalWhite side s) := by
  unfold execCalWhite
  repeat' first | with_reducible exact Runs.next _ | exact State.axDo_runs _ _ _ _ _ | exact State.task_runs _ _ _ | with_reducible refine Runs.ite ?_ ?_ | split | dsimp only
theorem execCalChart_runs (side : Nat) (s : State) : Runs (execCalChart side s) := by
  unfold execCalChart
  repeat' first | with_reducible exact Runs.next _ | exact State.axDo_runs _ _ _ _ _ | exact State.task_runs _ _ _ | with_reducible refine Runs.ite ?_ ?_ | split | dsimp only
theorem execCalCaptureDone_runs (side : Nat) (s : State) : Runs (execCalCaptureDone side s) := by
  unfold execCalCaptureDone
  dsimp only
  repeat' first | with_reducible exact Runs.next _ | split
theorem execAuditExport_runs (s : State) : Runs (execAuditExport s) := by
  unfold execAuditExport
  repeat' first | with_reducible exact Runs.next _ | exact State.axDo_runs _ _ _ _ _ | exact State.task_runs _ _ _ | with_reducible refine Runs.ite ?_ ?_ | split | dsimp only
theorem execAuditExportDone_runs (fail : Nat) (s : State) : Runs (execAuditExportDone fail s) := by
  unfold execAuditExportDone
  repeat' first | with_reducible exact Runs.next _ | exact State.axDo_runs _ _ _ _ _ | exact State.task_runs _ _ _ | with_reducible refine Runs.ite ?_ ?_ | split | dsimp only
theorem execJtagBypass_runs (s : State) : Runs (execJtagBypass s) := by
  unfold execJtagBypass
  repeat' first | with_reducible exact Runs.next _ | exact State.axDo_runs _ _ _ _ _ | exact State.task_runs _ _ _ | with_reducible refine Runs.ite ?_ ?_ | split | dsimp only
theorem execJtagIdcode_runs (s : State) : Runs (execJtagIdcode s) := by
  unfold execJtagIdcode
  repeat' first | with_reducible exact Runs.next _ | exact State.axDo_runs _ _ _ _ _ | exact State.task_runs _ _ _ | with_reducible refine Runs.ite ?_ ?_ | split | dsimp only
theorem execJtagSamplePreload_runs (cells : List Bool) (s : State) : Runs (execJtagSamplePreload cells s) := by
  unfold execJtagSamplePreload
  repeat' first | with_reducible exact Runs.next _ | exact State.axDo_runs _ _ _ _ _ | exact State.task_runs _ _ _ | with_reducible refine Runs.ite ?_ ?_ | split | dsimp only
theorem execJtagExtest_runs (s : State) : Runs (execJtagExtest s) := by
  unfold execJtagExtest
  repeat' first | with_reducible exact Runs.next _ | exact State.axDo_runs _ _ _ _ _ | exact State.task_runs _ _ _ | with_reducible refine Runs.ite ?_ ?_ | split | dsimp only
theorem execJtagClamp_runs (s : State) : Runs (execJtagClamp s) := by
  unfold execJtagClamp
  repeat' first | with_reducible exact Runs.next _ | exact State.axDo_runs _ _ _ _ _ | exact State.task_runs _ _ _ | with_reducible refine Runs.ite ?_ ?_ | split | dsimp only
theorem execJtagHighz_runs (s : State) : Runs (execJtagHighz s) := by
  unfold execJtagHighz
  repeat' first | with_reducible exact Runs.next _ | exact State.axDo_runs _ _ _ _ _ | exact State.task_runs _ _ _ | with_reducible refine Runs.ite ?_ ?_ | split | dsimp only
theorem execJtagSecMbx_runs (write : Bool) (off : Nat) (data : BitVec 32) (s : State) : Runs (execJtagSecMbx write off data s) := by
  unfold execJtagSecMbx
  repeat' first | with_reducible exact Runs.next _ | exact State.axDo_runs _ _ _ _ _ | exact State.task_runs _ _ _ | with_reducible refine Runs.ite ?_ ?_ | split | dsimp only
theorem execJtagDbgAccess_runs (op : Nat) (addr : BitVec 64) (data : BitVec 64) (s : State) : Runs (execJtagDbgAccess op addr data s) := by
  unfold execJtagDbgAccess
  repeat' first | with_reducible exact Runs.next _ | exact State.axDo_runs _ _ _ _ _ | exact State.task_runs _ _ _ | with_reducible refine Runs.ite ?_ ?_ | split | dsimp only
theorem execJtagOtpAccess_runs (op addr : Nat) (data : BitVec 64) (s : State) : Runs (execJtagOtpAccess op addr data s) := by
  unfold execJtagOtpAccess
  repeat' first | with_reducible exact Runs.next _ | exact State.axDo_runs _ _ _ _ _ | exact State.task_runs _ _ _ | with_reducible refine Runs.ite ?_ ?_ | split | dsimp only
theorem execKorJobGo_runs (slot : Nat) (flush close : Bool) (s : State) : Runs (execKorJobGo slot flush close s) := by
  unfold execKorJobGo
  repeat' first | with_reducible exact Runs.next _ | exact State.axDo_runs _ _ _ _ _ | exact State.task_runs _ _ _ | with_reducible refine Runs.ite ?_ ?_ | split | dsimp only
theorem execKorJobFlush_runs (slot : Nat) (close : Bool) (s : State) : Runs (execKorJobFlush slot close s) := by
  unfold execKorJobFlush
  repeat' first | with_reducible exact Runs.next _ | exact State.axDo_runs _ _ _ _ _ | exact State.task_runs _ _ _ | with_reducible refine Runs.ite ?_ ?_ | split | dsimp only
theorem execKorJobClose_runs (slot : Nat) (s : State) : Runs (execKorJobClose slot s) := by
  unfold execKorJobClose
  repeat' first | with_reducible exact Runs.next _ | exact State.axDo_runs _ _ _ _ _ | exact State.task_runs _ _ _ | with_reducible refine Runs.ite ?_ ?_ | split | dsimp only
theorem execKorJobAbort_runs (slot : Nat) (s : State) : Runs (execKorJobAbort slot s) := by
  unfold execKorJobAbort
  repeat' first | with_reducible exact Runs.next _ | exact State.axDo_runs _ _ _ _ _ | exact State.task_runs _ _ _ | with_reducible refine Runs.ite ?_ ?_ | split | dsimp only
theorem execKorJobWaiting_runs (slot : Nat) (s : State) : Runs (execKorJobWaiting slot s) := by
  unfold execKorJobWaiting
  repeat' first | with_reducible exact Runs.next _ | exact State.axDo_runs _ _ _ _ _ | exact State.task_runs _ _ _ | with_reducible refine Runs.ite ?_ ?_ | split | dsimp only
theorem execKorJobDone_runs (slot : Nat) (ecc : Option Nat) (s : State) : Runs (execKorJobDone slot ecc s) := by
  unfold execKorJobDone
  repeat' first | with_reducible exact Runs.next _ | exact State.axDo_runs _ _ _ _ _ | exact State.task_runs _ _ _ | with_reducible refine Runs.ite ?_ ?_ | split | dsimp only
theorem execLatPortEnable_runs (p : Nat) (s : State) : Runs (execLatPortEnable p s) := by
  unfold execLatPortEnable
  repeat' first | with_reducible exact Runs.next _ | exact State.axDo_runs _ _ _ _ _ | exact State.task_runs _ _ _ | with_reducible refine Runs.ite ?_ ?_ | split | dsimp only
theorem execLatPortDisable_runs (p : Nat) (s : State) : Runs (execLatPortDisable p s) := by
  unfold execLatPortDisable
  repeat' first | with_reducible exact Runs.next _ | exact State.axDo_runs _ _ _ _ _ | exact State.task_runs _ _ _ | with_reducible refine Runs.ite ?_ ?_ | split | dsimp only
theorem execLatRescan_runs (p : Nat) (s : State) : Runs (execLatRescan p s) := by
  unfold execLatRescan
  repeat' first | with_reducible exact Runs.next _ | exact State.axDo_runs _ _ _ _ _ | exact State.task_runs _ _ _ | with_reducible refine Runs.ite ?_ ?_ | split | dsimp only
theorem execLatEnumSend_runs (p : Nat) (s : State) : Runs (execLatEnumSend p s) := by
  unfold execLatEnumSend
  repeat' first | with_reducible exact Runs.next _ | exact State.axDo_runs _ _ _ _ _ | exact State.task_runs _ _ _ | with_reducible refine Runs.ite ?_ ?_ | split | dsimp only
theorem execLatEnumReturn_runs (p : Nat) (frame : Option (List (BitVec 8))) (s : State) : Runs (execLatEnumReturn p frame s) := by
  unfold execLatEnumReturn
  repeat' first | with_reducible exact Runs.next _ | exact State.axDo_runs _ _ _ _ _ | exact State.task_runs _ _ _ | with_reducible refine Runs.ite ?_ ?_ | split | dsimp only
theorem execLatCycleStart_runs (p : Nat) (s : State) : Runs (execLatCycleStart p s) := by
  unfold execLatCycleStart
  repeat' first | with_reducible exact Runs.next _ | exact State.axDo_runs _ _ _ _ _ | exact State.task_runs _ _ _ | with_reducible refine Runs.ite ?_ ?_ | split | dsimp only
theorem execLatCyclicReturn_runs (p : Nat) (frame : Option (List (BitVec 8))) (s : State) : Runs (execLatCyclicReturn p frame s) := by
  unfold execLatCyclicReturn
  repeat' first | with_reducible exact Runs.next _ | exact State.axDo_runs _ _ _ _ _ | exact State.task_runs _ _ _ | with_reducible refine Runs.ite ?_ ?_ | split | dsimp only
theorem execLatOimgWrite_runs (p node w : Nat) (value : BitVec 32) (s : State) : Runs (execLatOimgWrite p node w value s) := by
  unfold execLatOimgWrite
  repeat' first | with_reducible exact Runs.next _ | exact State.axDo_runs _ _ _ _ _ | exact State.task_runs _ _ _ | with_reducible refine Runs.ite ?_ ?_ | split | dsimp only
theorem execLatMbxRead_runs (p : Nat) (s : State) : Runs (execLatMbxRead p s) := by
  unfold execLatMbxRead
  repeat' first | with_reducible exact Runs.next _ | exact State.axDo_runs _ _ _ _ _ | exact State.task_runs _ _ _ | with_reducible refine Runs.ite ?_ ?_ | split | dsimp only
theorem execLatMbxWrite_runs (p : Nat) (s : State) : Runs (execLatMbxWrite p s) := by
  unfold execLatMbxWrite
  repeat' first | with_reducible exact Runs.next _ | exact State.axDo_runs _ _ _ _ _ | exact State.task_runs _ _ _ | with_reducible refine Runs.ite ?_ ?_ | split | dsimp only
theorem execLatMbxReturn_runs (p : Nat) (frame : Option (List (BitVec 8))) (s : State) : Runs (execLatMbxReturn p frame s) := by
  unfold execLatMbxReturn
  repeat' first | with_reducible exact Runs.next _ | exact State.axDo_runs _ _ _ _ _ | exact State.task_runs _ _ _ | with_reducible refine Runs.ite ?_ ?_ | split | dsimp only
theorem execLatMbxTimeout_runs (p : Nat) (s : State) : Runs (execLatMbxTimeout p s) := by
  unfold execLatMbxTimeout
  repeat' first | with_reducible exact Runs.next _ | exact State.axDo_runs _ _ _ _ _ | exact State.task_runs _ _ _ | with_reducible refine Runs.ite ?_ ?_ | split | dsimp only
theorem execLatJoinSend_runs (p : Nat) (s : State) : Runs (execLatJoinSend p s) := by
  unfold execLatJoinSend
  repeat' first | with_reducible exact Runs.next _ | exact State.axDo_runs _ _ _ _ _ | exact State.task_runs _ _ _ | with_reducible refine Runs.ite ?_ ?_ | split | dsimp only
theorem execLatJoinReturn_runs (p : Nat) (frame : Option (List (BitVec 8))) (s : State) : Runs (execLatJoinReturn p frame s) := by
  unfold execLatJoinReturn
  repeat' first | with_reducible exact Runs.next _ | exact State.axDo_runs _ _ _ _ _ | exact State.task_runs _ _ _ | with_reducible refine Runs.ite ?_ ?_ | split | dsimp only
theorem execFanDutyWrite_runs (fc : Nat) (duty : BitVec 16) (s : State) : Runs (execFanDutyWrite fc duty s) := by
  unfold execFanDutyWrite
  repeat' first | with_reducible exact Runs.next _ | exact State.axDo_runs _ _ _ _ _ | exact State.task_runs _ _ _ | with_reducible refine Runs.ite ?_ ?_ | split | dsimp only
theorem execFanKickEnd_runs (fc rpm : Nat) (s : State) : Runs (execFanKickEnd fc rpm s) := by
  unfold execFanKickEnd
  repeat' first | with_reducible exact Runs.next _ | exact State.axDo_runs _ _ _ _ _ | exact State.task_runs _ _ _ | with_reducible refine Runs.ite ?_ ?_ | split | dsimp only
theorem execFanRetry_runs (fc : Nat) (s : State) : Runs (execFanRetry fc s) := by
  unfold execFanRetry
  repeat' first | with_reducible exact Runs.next _ | exact State.axDo_runs _ _ _ _ _ | exact State.task_runs _ _ _ | with_reducible refine Runs.ite ?_ ?_ | split | dsimp only
theorem execFanMeasure_runs (fc rpm : Nat) (s : State) : Runs (execFanMeasure fc rpm s) := by
  unfold execFanMeasure
  repeat' first | with_reducible exact Runs.next _ | exact State.axDo_runs _ _ _ _ _ | exact State.task_runs _ _ _ | with_reducible refine Runs.ite ?_ ?_ | split | dsimp only
theorem execFanTachLost_runs (fc : Nat) (s : State) : Runs (execFanTachLost fc s) := by
  unfold execFanTachLost
  repeat' first | with_reducible exact Runs.next _ | exact State.axDo_runs _ _ _ _ _ | exact State.task_runs _ _ _ | with_reducible refine Runs.ite ?_ ?_ | split | dsimp only
theorem execFanTachRecover_runs (fc : Nat) (s : State) : Runs (execFanTachRecover fc s) := by
  unfold execFanTachRecover
  repeat' first | with_reducible exact Runs.next _ | exact State.axDo_runs _ _ _ _ _ | exact State.task_runs _ _ _ | with_reducible refine Runs.ite ?_ ?_ | split | dsimp only
theorem execFanClear_runs (fc : Nat) (s : State) : Runs (execFanClear fc s) := by
  unfold execFanClear
  repeat' first | with_reducible exact Runs.next _ | exact State.axDo_runs _ _ _ _ _ | exact State.task_runs _ _ _ | with_reducible refine Runs.ite ?_ ?_ | split | dsimp only
theorem execCulPartCommit_runs (east : Bool) (msg : List (BitVec 8)) (s : State) : Runs (execCulPartCommit east msg s) := by
  unfold execCulPartCommit
  repeat' first | with_reducible exact Runs.next _ | exact State.axDo_runs _ _ _ _ _ | exact State.task_runs _ _ _ | with_reducible refine Runs.ite ?_ ?_ | split | dsimp only
theorem execCulPartTake_runs (s : State) : Runs (execCulPartTake s) := by
  unfold execCulPartTake
  repeat' first | with_reducible exact Runs.next _ | exact State.axDo_runs _ _ _ _ _ | exact State.task_runs _ _ _ | with_reducible refine Runs.ite ?_ ?_ | split | dsimp only
theorem execCulPartResend_runs (pageId : BitVec 64) (s : State) : Runs (execCulPartResend pageId s) := by
  unfold execCulPartResend
  repeat' first | with_reducible exact Runs.next _ | exact State.axDo_runs _ _ _ _ _ | exact State.task_runs _ _ _ | with_reducible refine Runs.ite ?_ ?_ | split | dsimp only
theorem execCulSchedule_runs (east : Bool) (msg : List (BitVec 8)) (s : State) : Runs (execCulSchedule east msg s) := by
  unfold execCulSchedule
  repeat' first | with_reducible exact Runs.next _ | exact State.axDo_runs _ _ _ _ _ | exact State.task_runs _ _ _ | with_reducible refine Runs.ite ?_ ?_ | split | dsimp only
theorem execCulPageSpoil_runs (east : Bool) (msg : List (BitVec 8)) (s : State) : Runs (execCulPageSpoil east msg s) := by
  unfold execCulPageSpoil
  repeat' first | with_reducible exact Runs.next _ | exact State.axDo_runs _ _ _ _ _ | exact State.task_runs _ _ _ | with_reducible refine Runs.ite ?_ ?_ | split | dsimp only
theorem execLoopOff_runs (lp : Nat) (s : State) : Runs (execLoopOff lp s) := by
  unfold execLoopOff
  repeat' first | with_reducible exact Runs.next _ | exact State.axDo_runs _ _ _ _ _ | exact State.task_runs _ _ _ | with_reducible refine Runs.ite ?_ ?_ | split | dsimp only
theorem execLoopOpen_runs (lp : Nat) (s : State) : Runs (execLoopOpen lp s) := by
  unfold execLoopOpen
  repeat' first | with_reducible exact Runs.next _ | exact State.axDo_runs _ _ _ _ _ | exact State.task_runs _ _ _ | with_reducible refine Runs.ite ?_ ?_ | split | dsimp only
theorem execLoopClose_runs (lp : Nat) (s : State) : Runs (execLoopClose lp s) := by
  unfold execLoopClose
  repeat' first | with_reducible exact Runs.next _ | exact State.axDo_runs _ _ _ _ _ | exact State.task_runs _ _ _ | with_reducible refine Runs.ite ?_ ?_ | split | dsimp only
theorem execLoopSample_runs (lp : Nat) (code : BitVec 16) (ecc : Nat) (s : State) : Runs (execLoopSample lp code ecc s) := by
  unfold execLoopSample
  repeat' first | with_reducible exact Runs.next _ | exact State.axDo_runs _ _ _ _ _ | exact State.task_runs _ _ _ | with_reducible refine Runs.ite ?_ ?_ | split | dsimp only
theorem execLoopOutput_runs (lp : Nat) (late : Bool) (s : State) : Runs (execLoopOutput lp late s) := by
  unfold execLoopOutput
  repeat' first | with_reducible exact Runs.next _ | exact State.axDo_runs _ _ _ _ _ | exact State.task_runs _ _ _ | with_reducible refine Runs.ite ?_ ?_ | split | dsimp only
theorem execAdcScanConversion_runs (ch : Nat) (code : BitVec 16) (s : State) : Runs (execAdcScanConversion ch code s) := by
  unfold execAdcScanConversion
  repeat' first | with_reducible exact Runs.next _ | exact State.axDo_runs _ _ _ _ _ | exact State.task_runs _ _ _ | with_reducible refine Runs.ite ?_ ?_ | split | dsimp only
theorem execPwmCarrierPeriod_runs (c : Nat) (s : State) : Runs (execPwmCarrierPeriod c s) := by
  unfold execPwmCarrierPeriod
  repeat' first | with_reducible exact Runs.next _ | exact State.axDo_runs _ _ _ _ _ | exact State.task_runs _ _ _ | with_reducible refine Runs.ite ?_ ?_ | split | dsimp only
theorem execPolySearchShift_runs (st : Nat) (s : State) : Runs (execPolySearchShift st s) := by
  unfold execPolySearchShift
  repeat' first | with_reducible exact Runs.next _ | exact State.axDo_runs _ _ _ _ _ | exact State.task_runs _ _ _ | with_reducible refine Runs.ite ?_ ?_ | split | dsimp only
theorem execOtpReadS_runs (addr : Nat) (s : State) : Runs (execOtpReadS addr s) := by
  unfold execOtpReadS
  repeat' first | with_reducible exact Runs.next _ | exact State.axDo_runs _ _ _ _ _ | exact State.task_runs _ _ _ | with_reducible refine Runs.ite ?_ ?_ | split | dsimp only
theorem execOtpWriteS_runs (addr : Nat) (s : State) : Runs (execOtpWriteS addr s) := by
  unfold execOtpWriteS
  repeat' first | with_reducible exact Runs.next _ | exact State.axDo_runs _ _ _ _ _ | exact State.task_runs _ _ _ | with_reducible refine Runs.ite ?_ ?_ | split | dsimp only
theorem execOtpSetP_runs (addr : Nat) (s : State) : Runs (execOtpSetP addr s) := by
  unfold execOtpSetP
  repeat' first | with_reducible exact Runs.next _ | exact State.axDo_runs _ _ _ _ _ | exact State.task_runs _ _ _ | with_reducible refine Runs.ite ?_ ?_ | split | dsimp only
theorem execOtpOperationDone_runs (bad : BitVec 64) (err : Nat) (s : State) : Runs (execOtpOperationDone bad err s) := by
  unfold execOtpOperationDone
  repeat' first | with_reducible exact Runs.next _ | exact State.axDo_runs _ _ _ _ _ | exact State.task_runs _ _ _ | with_reducible refine Runs.ite ?_ ?_ | split | dsimp only
theorem execLcRequestSecured_runs (key : Nat) (s : State) : Runs (execLcRequestSecured key s) := by
  unfold execLcRequestSecured
  repeat' first | with_reducible exact Runs.next _ | exact State.axDo_runs _ _ _ _ _ | exact State.task_runs _ _ _ | with_reducible refine Runs.ite ?_ ?_ | split | dsimp only
theorem execLcRequestReturned_runs (key : Nat) (s : State) : Runs (execLcRequestReturned key s) := by
  unfold execLcRequestReturned
  repeat' first | with_reducible exact Runs.next _ | exact State.axDo_runs _ _ _ _ _ | exact State.task_runs _ _ _ | with_reducible refine Runs.ite ?_ ?_ | split | dsimp only
theorem execLcTransitionDone_runs (bad : Bool) (s : State) : Runs (execLcTransitionDone bad s) := by
  unfold execLcTransitionDone
  repeat' first | with_reducible exact Runs.next _ | exact State.axDo_runs _ _ _ _ _ | exact State.task_runs _ _ _ | with_reducible refine Runs.ite ?_ ?_ | split | dsimp only
theorem execSvnCommit_runs (s : State) : Runs (execSvnCommit s) := by
  unfold execSvnCommit
  repeat' first | with_reducible exact Runs.next _ | exact State.axDo_runs _ _ _ _ _ | exact State.task_runs _ _ _ | with_reducible refine Runs.ite ?_ ?_ | split | dsimp only
theorem execTokenRevoke_runs (count : Nat) (s : State) : Runs (execTokenRevoke count s) := by
  unfold execTokenRevoke
  repeat' first | with_reducible exact Runs.next _ | exact State.axDo_runs _ _ _ _ _ | exact State.task_runs _ _ _ | with_reducible refine Runs.ite ?_ ?_ | split | dsimp only
theorem execChallengeRead_runs (s : State) : Runs (execChallengeRead s) := by
  unfold execChallengeRead
  repeat' first | with_reducible exact Runs.next _ | exact State.axDo_runs _ _ _ _ _ | exact State.task_runs _ _ _ | with_reducible refine Runs.ite ?_ ?_ | split | dsimp only
theorem execTokenSubmit_runs (token : Option (List (BitVec 8))) (s : State) : Runs (execTokenSubmit token s) := by
  unfold execTokenSubmit
  repeat' first | with_reducible exact Runs.next _ | exact State.axDo_runs _ _ _ _ _ | exact State.task_runs _ _ _ | with_reducible refine Runs.ite ?_ ?_ | split | dsimp only
theorem execTokenCheckDone_runs (s : State) : Runs (execTokenCheckDone s) := by
  unfold execTokenCheckDone
  repeat' first | with_reducible exact Runs.next _ | exact State.axDo_runs _ _ _ _ _ | exact State.task_runs _ _ _ | with_reducible refine Runs.ite ?_ ?_ | split | dsimp only
theorem execSessionClose_runs (s : State) : Runs (execSessionClose s) := by
  unfold execSessionClose
  repeat' first | with_reducible exact Runs.next _ | exact State.axDo_runs _ _ _ _ _ | exact State.task_runs _ _ _ | with_reducible refine Runs.ite ?_ ?_ | split | dsimp only
theorem execSessionExpired_runs (s : State) : Runs (execSessionExpired s) := by
  unfold execSessionExpired
  repeat' first | with_reducible exact Runs.next _ | exact State.axDo_runs _ _ _ _ _ | exact State.task_runs _ _ _ | with_reducible refine Runs.ite ?_ ?_ | split | dsimp only
theorem execTrngHealthFail_runs (s : State) : Runs (execTrngHealthFail s) := by
  unfold execTrngHealthFail
  repeat' first | with_reducible exact Runs.next _ | exact State.axDo_runs _ _ _ _ _ | exact State.task_runs _ _ _ | with_reducible refine Runs.ite ?_ ?_ | split | dsimp only
theorem execTrngRecover_runs (s : State) : Runs (execTrngRecover s) := by
  unfold execTrngRecover
  repeat' first | with_reducible exact Runs.next _ | exact State.axDo_runs _ _ _ _ _ | exact State.task_runs _ _ _ | with_reducible refine Runs.ite ?_ ?_ | split | dsimp only
theorem execPagePrint_runs (fn : Nat) (desc : List (BitVec 8)) (src : Option (List (BitVec 8))) (s : State) : Runs (execPagePrint fn desc src s) := by
  unfold execPagePrint
  repeat' first | with_reducible exact Runs.next _ | exact State.axDo_runs _ _ _ _ _ | exact State.task_runs _ _ _ | with_reducible refine Runs.ite ?_ ?_ | split | dsimp only
theorem execPageReissue_runs (fn : Nat) (desc : List (BitVec 8)) (s : State) : Runs (execPageReissue fn desc s) := by
  unfold execPageReissue
  repeat' first | with_reducible exact Runs.next _ | exact State.axDo_runs _ _ _ _ _ | exact State.task_runs _ _ _ | with_reducible refine Runs.ite ?_ ?_ | split | dsimp only
theorem execPageRelease_runs (fn : Nat) (desc : List (BitVec 8)) (s : State) : Runs (execPageRelease fn desc s) := by
  unfold execPageRelease
  repeat' first | with_reducible exact Runs.next _ | exact State.axDo_runs _ _ _ _ _ | exact State.task_runs _ _ _ | with_reducible refine Runs.ite ?_ ?_ | split | dsimp only
theorem execPageCancel_runs (fn : Nat) (desc : List (BitVec 8)) (s : State) : Runs (execPageCancel fn desc s) := by
  unfold execPageCancel
  repeat' first | with_reducible exact Runs.next _ | exact State.axDo_runs _ _ _ _ _ | exact State.task_runs _ _ _ | with_reducible refine Runs.ite ?_ ?_ | split | dsimp only
theorem execDescriptorInvalid_runs (fn : Nat) (desc : List (BitVec 8)) (s : State) : Runs (execDescriptorInvalid fn desc s) := by
  unfold execDescriptorInvalid
  repeat' first | with_reducible exact Runs.next _ | exact State.axDo_runs _ _ _ _ _ | exact State.task_runs _ _ _ | with_reducible refine Runs.ite ?_ ?_ | split | dsimp only
theorem execFirstLatch_runs (s : State) : Runs (execFirstLatch s) := by
  unfold execFirstLatch
  repeat' first | with_reducible exact Runs.next _ | exact State.axDo_runs _ _ _ _ _ | exact State.task_runs _ _ _ | with_reducible refine Runs.ite ?_ ?_ | split | dsimp only
theorem execStationLatch_runs (st : Nat) (s : State) : Runs (execStationLatch st s) := by
  unfold execStationLatch
  repeat' first | with_reducible exact Runs.next _ | exact State.axDo_runs _ _ _ _ _ | exact State.task_runs _ _ _ | with_reducible refine Runs.ite ?_ ?_ | split | dsimp only
theorem execPageTof_runs (st : Nat) (s : State) : Runs (execPageTof st s) := by
  unfold execPageTof
  repeat' first | with_reducible exact Runs.next _ | exact State.axDo_runs _ _ _ _ _ | exact State.task_runs _ _ _ | with_reducible refine Runs.ite ?_ ?_ | split | dsimp only
theorem execPageLastLine_runs (st : Nat) (s : State) : Runs (execPageLastLine st s) := by
  unfold execPageLastLine
  repeat' first | with_reducible exact Runs.next _ | exact State.axDo_runs _ _ _ _ _ | exact State.task_runs _ _ _ | with_reducible refine Runs.ite ?_ ?_ | split | dsimp only
theorem execFeedRequest_runs (s : State) : Runs (execFeedRequest s) := by
  unfold execFeedRequest
  repeat' first | with_reducible exact Runs.next _ | exact State.axDo_runs _ _ _ _ _ | exact State.task_runs _ _ _ | with_reducible refine Runs.ite ?_ ?_ | split | dsimp only
theorem execSheetEdgeTimeout_runs (s : State) : Runs (execSheetEdgeTimeout s) := by
  unfold execSheetEdgeTimeout
  repeat' first | with_reducible exact Runs.next _ | exact State.axDo_runs _ _ _ _ _ | exact State.task_runs _ _ _ | with_reducible refine Runs.ite ?_ ?_ | split | dsimp only
theorem execSeqProgramWrite_runs (i : Nat) (value : BitVec 32) (s : State) : Runs (execSeqProgramWrite i value s) := by
  unfold execSeqProgramWrite
  repeat' first | with_reducible exact Runs.next _ | exact State.axDo_runs _ _ _ _ _ | exact State.task_runs _ _ _ | with_reducible refine Runs.ite ?_ ?_ | split | dsimp only
theorem execSeqEnd_runs (s : State) : Runs (execSeqEnd s) := by
  unfold execSeqEnd
  repeat' first | with_reducible exact Runs.next _ | exact State.axDo_runs _ _ _ _ _ | exact State.task_runs _ _ _ | with_reducible refine Runs.ite ?_ ?_ | split | dsimp only
theorem execSeqEnable_runs (s : State) : Runs (execSeqEnable s) := by
  unfold execSeqEnable
  repeat' first | with_reducible exact Runs.next _ | exact State.axDo_runs _ _ _ _ _ | exact State.task_runs _ _ _ | with_reducible refine Runs.ite ?_ ?_ | split | dsimp only
theorem execSeqDisable_runs (s : State) : Runs (execSeqDisable s) := by
  unfold execSeqDisable
  repeat' first | with_reducible exact Runs.next _ | exact State.axDo_runs _ _ _ _ _ | exact State.task_runs _ _ _ | with_reducible refine Runs.ite ?_ ?_ | split | dsimp only
theorem execSeqWait_runs (s : State) : Runs (execSeqWait s) := by
  unfold execSeqWait
  repeat' first | with_reducible exact Runs.next _ | exact State.axDo_runs _ _ _ _ _ | exact State.task_runs _ _ _ | with_reducible refine Runs.ite ?_ ?_ | split | dsimp only
theorem execSeqWaitpg_runs (expired : Bool) (s : State) : Runs (execSeqWaitpg expired s) := by
  unfold execSeqWaitpg
  repeat' first | with_reducible exact Runs.next _ | exact State.axDo_runs _ _ _ _ _ | exact State.task_runs _ _ _ | with_reducible refine Runs.ite ?_ ?_ | split | dsimp only
theorem execSeqCheck_runs (s : State) : Runs (execSeqCheck s) := by
  unfold execSeqCheck
  repeat' first | with_reducible exact Runs.next _ | exact State.axDo_runs _ _ _ _ _ | exact State.task_runs _ _ _ | with_reducible refine Runs.ite ?_ ?_ | split | dsimp only
theorem execSeqJump_runs (s : State) : Runs (execSeqJump s) := by
  unfold execSeqJump
  repeat' first | with_reducible exact Runs.next _ | exact State.axDo_runs _ _ _ _ _ | exact State.task_runs _ _ _ | with_reducible refine Runs.ite ?_ ?_ | split | dsimp only
theorem execSeqJumpif_runs (s : State) : Runs (execSeqJumpif s) := by
  unfold execSeqJumpif
  repeat' first | with_reducible exact Runs.next _ | exact State.axDo_runs _ _ _ _ _ | exact State.task_runs _ _ _ | with_reducible refine Runs.ite ?_ ?_ | split | dsimp only
theorem execSeqLimitTimeout_runs (s : State) : Runs (execSeqLimitTimeout s) := by
  unfold execSeqLimitTimeout
  repeat' first | with_reducible exact Runs.next _ | exact State.axDo_runs _ _ _ _ _ | exact State.task_runs _ _ _ | with_reducible refine Runs.ite ?_ ?_ | split | dsimp only
theorem execPowerStateRequest_runs (value : Nat) (s : State) : Runs (execPowerStateRequest value s) := by
  unfold execPowerStateRequest
  repeat' first | with_reducible exact Runs.next _ | exact State.axDo_runs _ _ _ _ _ | exact State.task_runs _ _ _ | with_reducible refine Runs.ite ?_ ?_ | split | dsimp only
theorem execPowerStepReadyToRun_runs (s : State) : Runs (execPowerStepReadyToRun s) := by
  unfold execPowerStepReadyToRun
  repeat' first | with_reducible exact Runs.next _ | exact State.axDo_runs _ _ _ _ _ | exact State.task_runs _ _ _ | with_reducible refine Runs.ite ?_ ?_ | split | dsimp only
theorem execPowerStepRunToReady_runs (s : State) : Runs (execPowerStepRunToReady s) := by
  unfold execPowerStepRunToReady
  repeat' first | with_reducible exact Runs.next _ | exact State.axDo_runs _ _ _ _ _ | exact State.task_runs _ _ _ | with_reducible refine Runs.ite ?_ ?_ | split | dsimp only
theorem execPowerStepReadyToStandby_runs (s : State) : Runs (execPowerStepReadyToStandby s) := by
  unfold execPowerStepReadyToStandby
  repeat' first | with_reducible exact Runs.next _ | exact State.axDo_runs _ _ _ _ _ | exact State.task_runs _ _ _ | with_reducible refine Runs.ite ?_ ?_ | split | dsimp only
theorem execPowerStepStandbyToReady_runs (s : State) : Runs (execPowerStepStandbyToReady s) := by
  unfold execPowerStepStandbyToReady
  repeat' first | with_reducible exact Runs.next _ | exact State.axDo_runs _ _ _ _ _ | exact State.task_runs _ _ _ | with_reducible refine Runs.ite ?_ ?_ | split | dsimp only
theorem execPowerStepStandbyToSleep_runs (s : State) : Runs (execPowerStepStandbyToSleep s) := by
  unfold execPowerStepStandbyToSleep
  repeat' first | with_reducible exact Runs.next _ | exact State.axDo_runs _ _ _ _ _ | exact State.task_runs _ _ _ | with_reducible refine Runs.ite ?_ ?_ | split | dsimp only
theorem execPowerStepSleepToStandby_runs (s : State) : Runs (execPowerStepSleepToStandby s) := by
  unfold execPowerStepSleepToStandby
  repeat' first | with_reducible exact Runs.next _ | exact State.axDo_runs _ _ _ _ _ | exact State.task_runs _ _ _ | with_reducible refine Runs.ite ?_ ?_ | split | dsimp only
theorem execRailMonitorReading_runs (codes : List (BitVec 12)) (s : State) : Runs (execRailMonitorReading codes s) := by
  unfold execRailMonitorReading
  repeat' first | with_reducible exact Runs.next _ | exact State.axDo_runs _ _ _ _ _ | exact State.task_runs _ _ _ | with_reducible refine Runs.ite ?_ ?_ | split | dsimp only
theorem execRailPgDrop_runs (k : Nat) (s : State) : Runs (execRailPgDrop k s) := by
  unfold execRailPgDrop
  repeat' first | with_reducible exact Runs.next _ | exact State.axDo_runs _ _ _ _ _ | exact State.task_runs _ _ _ | with_reducible refine Runs.ite ?_ ?_ | split | dsimp only
theorem execRailPgRise_runs (k : Nat) (s : State) : Runs (execRailPgRise k s) := by
  unfold execRailPgRise
  repeat' first | with_reducible exact Runs.next _ | exact State.axDo_runs _ _ _ _ _ | exact State.task_runs _ _ _ | with_reducible refine Runs.ite ?_ ?_ | split | dsimp only
theorem execRailBlankEnd_runs (k : Nat) (s : State) : Runs (execRailBlankEnd k s) := by
  unfold execRailBlankEnd
  repeat' first | with_reducible exact Runs.next _ | exact State.axDo_runs _ _ _ _ _ | exact State.task_runs _ _ _ | with_reducible refine Runs.ite ?_ ?_ | split | dsimp only
theorem execRecordFlashWrite_runs (ok : Bool) (s : State) : Runs (execRecordFlashWrite ok s) := by
  unfold execRecordFlashWrite
  repeat' first | with_reducible exact Runs.next _ | exact State.axDo_runs _ _ _ _ _ | exact State.task_runs _ _ _ | with_reducible refine Runs.ite ?_ ?_ | split | dsimp only
theorem execRecordRead_runs (seq : BitVec 32) (s : State) : Runs (execRecordRead seq s) := by
  unfold execRecordRead
  repeat' first | with_reducible exact Runs.next _ | exact State.axDo_runs _ _ _ _ _ | exact State.task_runs _ _ _ | with_reducible refine Runs.ite ?_ ?_ | split | dsimp only
theorem execRecordClear_runs (value : BitVec 32) (s : State) : Runs (execRecordClear value s) := by
  unfold execRecordClear
  repeat' first | with_reducible exact Runs.next _ | exact State.axDo_runs _ _ _ _ _ | exact State.task_runs _ _ _ | with_reducible refine Runs.ite ?_ ?_ | split | dsimp only
theorem execRecordClearDone_runs (s : State) : Runs (execRecordClearDone s) := by
  unfold execRecordClearDone
  repeat' first | with_reducible exact Runs.next _ | exact State.axDo_runs _ _ _ _ _ | exact State.task_runs _ _ _ | with_reducible refine Runs.ite ?_ ?_ | split | dsimp only
theorem execCulEnable_runs (on : Bool) (s : State) : Runs (execCulEnable on s) := by
  unfold execCulEnable
  repeat' first | with_reducible exact Runs.next _ | exact State.axDo_runs _ _ _ _ _ | exact State.task_runs _ _ _ | with_reducible refine Runs.ite ?_ ?_ | split | dsimp only
theorem execCulRestart_runs (s : State) : Runs (execCulRestart s) := by
  unfold execCulRestart
  repeat' first | with_reducible exact Runs.next _ | exact State.axDo_runs _ _ _ _ _ | exact State.task_runs _ _ _ | with_reducible refine Runs.ite ?_ ?_ | split | dsimp only
theorem execCulUnfold_runs (s : State) : Runs (execCulUnfold s) := by
  unfold execCulUnfold
  repeat' first | with_reducible exact Runs.next _ | exact State.axDo_runs _ _ _ _ _ | exact State.task_runs _ _ _ | with_reducible refine Runs.ite ?_ ?_ | split | dsimp only
theorem execCulPortUp_runs (east : Bool) (s : State) : Runs (execCulPortUp east s) := by
  unfold execCulPortUp
  repeat' first | with_reducible exact Runs.next _ | exact State.axDo_runs _ _ _ _ _ | exact State.task_runs _ _ _ | with_reducible refine Runs.ite ?_ ?_ | split | dsimp only
theorem execCulPortDown_runs (east : Bool) (lanes : BitVec 4) (s : State) : Runs (execCulPortDown east lanes s) := by
  unfold execCulPortDown
  repeat' first | with_reducible exact Runs.next _ | exact State.axDo_runs _ _ _ _ _ | exact State.task_runs _ _ _ | with_reducible refine Runs.ite ?_ ?_ | split | dsimp only
theorem execCulFoldReceived_runs (east : Bool) (s : State) : Runs (execCulFoldReceived east s) := by
  unfold execCulFoldReceived
  repeat' first | with_reducible exact Runs.next _ | exact State.axDo_runs _ _ _ _ _ | exact State.task_runs _ _ _ | with_reducible refine Runs.ite ?_ ?_ | split | dsimp only
theorem execCulFoldNotice_runs (east : Bool) (msg : List (BitVec 8)) (s : State) : Runs (execCulFoldNotice east msg s) := by
  unfold execCulFoldNotice
  repeat' first | with_reducible exact Runs.next _ | exact State.axDo_runs _ _ _ _ _ | exact State.task_runs _ _ _ | with_reducible refine Runs.ite ?_ ?_ | split | dsimp only
theorem execCulUnfoldCheck_runs (s : State) : Runs (execCulUnfoldCheck s) := by
  unfold execCulUnfoldCheck
  repeat' first | with_reducible exact Runs.next _ | exact State.axDo_runs _ _ _ _ _ | exact State.task_runs _ _ _ | with_reducible refine Runs.ite ?_ ?_ | split | dsimp only
theorem execCulUnfoldMsg_runs (east : Bool) (msg : List (BitVec 8)) (s : State) : Runs (execCulUnfoldMsg east msg s) := by
  unfold execCulUnfoldMsg
  repeat' first | with_reducible exact Runs.next _ | exact State.axDo_runs _ _ _ _ _ | exact State.task_runs _ _ _ | with_reducible refine Runs.ite ?_ ?_ | split | dsimp only
theorem execCulUnwrap_runs (s : State) : Runs (execCulUnwrap s) := by
  unfold execCulUnwrap
  repeat' first | with_reducible exact Runs.next _ | exact State.axDo_runs _ _ _ _ _ | exact State.task_runs _ _ _ | with_reducible refine Runs.ite ?_ ?_ | split | dsimp only
theorem execCulIndexSend_runs (s : State) : Runs (execCulIndexSend s) := by
  unfold execCulIndexSend
  repeat' first | with_reducible exact Runs.next _ | exact State.axDo_runs _ _ _ _ _ | exact State.task_runs _ _ _ | with_reducible refine Runs.ite ?_ ?_ | split | dsimp only
theorem execCulIndex_runs (east : Bool) (msg : List (BitVec 8)) (s : State) : Runs (execCulIndex east msg s) := by
  unfold execCulIndex
  repeat' first | with_reducible exact Runs.next _ | exact State.axDo_runs _ _ _ _ _ | exact State.task_runs _ _ _ | with_reducible refine Runs.ite ?_ ?_ | split | dsimp only
theorem execCulDelayReq_runs (east : Bool) (turn : Nat) (msg : List (BitVec 8)) (s : State) : Runs (execCulDelayReq east turn msg s) := by
  unfold execCulDelayReq
  repeat' first | with_reducible exact Runs.next _ | exact State.axDo_runs _ _ _ _ _ | exact State.task_runs _ _ _ | with_reducible refine Runs.ite ?_ ?_ | split | dsimp only
theorem execCulDelayRsp_runs (east : Bool) (msg : List (BitVec 8)) (s : State) : Runs (execCulDelayRsp east msg s) := by
  unfold execCulDelayRsp
  repeat' first | with_reducible exact Runs.next _ | exact State.axDo_runs _ _ _ _ _ | exact State.task_runs _ _ _ | with_reducible refine Runs.ite ?_ ?_ | split | dsimp only
theorem execCulTimebaseSend_runs (s : State) : Runs (execCulTimebaseSend s) := by
  unfold execCulTimebaseSend
  repeat' first | with_reducible exact Runs.next _ | exact State.axDo_runs _ _ _ _ _ | exact State.task_runs _ _ _ | with_reducible refine Runs.ite ?_ ?_ | split | dsimp only
theorem execCulTimebase_runs (east : Bool) (wait : Nat) (msg : List (BitVec 8)) (s : State) : Runs (execCulTimebase east wait msg s) := by
  unfold execCulTimebase
  repeat' first | with_reducible exact Runs.next _ | exact State.axDo_runs _ _ _ _ _ | exact State.task_runs _ _ _ | with_reducible refine Runs.ite ?_ ?_ | split | dsimp only
theorem execCulTimebaseLost_runs (s : State) : Runs (execCulTimebaseLost s) := by
  unfold execCulTimebaseLost
  repeat' first | with_reducible exact Runs.next _ | exact State.axDo_runs _ _ _ _ _ | exact State.task_runs _ _ _ | with_reducible refine Runs.ite ?_ ?_ | split | dsimp only
theorem execCulStatusSend_runs (s : State) : Runs (execCulStatusSend s) := by
  unfold execCulStatusSend
  repeat' first | with_reducible exact Runs.next _ | exact State.axDo_runs _ _ _ _ _ | exact State.task_runs _ _ _ | with_reducible refine Runs.ite ?_ ?_ | split | dsimp only
theorem execCulStatus_runs (east : Bool) (msg : List (BitVec 8)) (s : State) : Runs (execCulStatus east msg s) := by
  unfold execCulStatus
  repeat' first | with_reducible exact Runs.next _ | exact State.axDo_runs _ _ _ _ _ | exact State.task_runs _ _ _ | with_reducible refine Runs.ite ?_ ?_ | split | dsimp only
theorem execCulFault_runs (east : Bool) (msg : List (BitVec 8)) (s : State) : Runs (execCulFault east msg s) := by
  unfold execCulFault
  repeat' first | with_reducible exact Runs.next _ | exact State.axDo_runs _ _ _ _ _ | exact State.task_runs _ _ _ | with_reducible refine Runs.ite ?_ ?_ | split | dsimp only
theorem execCulMessageForward_runs (east : Bool) (good : Bool) (msg : List (BitVec 8)) (s : State) : Runs (execCulMessageForward east good msg s) := by
  unfold execCulMessageForward
  repeat' first | with_reducible exact Runs.next _ | exact State.axDo_runs _ _ _ _ _ | exact State.task_runs _ _ _ | with_reducible refine Runs.ite ?_ ?_ | split | dsimp only
theorem execSweepTrigger_runs (st : Nat) (s : State) : Runs (execSweepTrigger st s) := by
  unfold execSweepTrigger
  repeat' first | with_reducible exact Runs.next _ | exact State.axDo_runs _ _ _ _ _ | exact State.task_runs _ _ _ | with_reducible refine Runs.ite ?_ ?_ | split | dsimp only
theorem execBdPulse_runs (st : Nat) (s : State) : Runs (execBdPulse st s) := by
  unfold execBdPulse
  repeat' first | with_reducible exact Runs.next _ | exact State.axDo_runs _ _ _ _ _ | exact State.task_runs _ _ _ | with_reducible refine Runs.ite ?_ ?_ | split | dsimp only
theorem execBdMissed_runs (st : Nat) (s : State) : Runs (execBdMissed st s) := by
  unfold execBdMissed
  repeat' first | with_reducible exact Runs.next _ | exact State.axDo_runs _ _ _ _ _ | exact State.task_runs _ _ _ | with_reducible refine Runs.ite ?_ ?_ | split | dsimp only
theorem execLockLossTimeout_runs (st : Nat) (s : State) : Runs (execLockLossTimeout st s) := by
  unfold execLockLossTimeout
  repeat' first | with_reducible exact Runs.next _ | exact State.axDo_runs _ _ _ _ _ | exact State.task_runs _ _ _ | with_reducible refine Runs.ite ?_ ?_ | split | dsimp only
theorem execFacetIdDone_runs (st : Nat) (s : State) : Runs (execFacetIdDone st s) := by
  unfold execFacetIdDone
  repeat' first | with_reducible exact Runs.next _ | exact State.axDo_runs _ _ _ _ _ | exact State.task_runs _ _ _ | with_reducible refine Runs.ite ?_ ?_ | split | dsimp only
theorem execScanWindowOpen_runs (st : Nat) (s : State) : Runs (execScanWindowOpen st s) := by
  unfold execScanWindowOpen
  repeat' first | with_reducible exact Runs.next _ | exact State.axDo_runs _ _ _ _ _ | exact State.task_runs _ _ _ | with_reducible refine Runs.ite ?_ ?_ | split | dsimp only
theorem execZoneStart_runs (st zone : Nat) (s : State) : Runs (execZoneStart st zone s) := by
  unfold execZoneStart
  repeat' first | with_reducible exact Runs.next _ | exact State.axDo_runs _ _ _ _ _ | exact State.task_runs _ _ _ | with_reducible refine Runs.ite ?_ ?_ | split | dsimp only
theorem execScanWindowClose_runs (st : Nat) (s : State) : Runs (execScanWindowClose st s) := by
  unfold execScanWindowClose
  repeat' first | with_reducible exact Runs.next _ | exact State.axDo_runs _ _ _ _ _ | exact State.task_runs _ _ _ | with_reducible refine Runs.ite ?_ ?_ | split | dsimp only
theorem execWebEncoderLost_runs (s : State) : Runs (execWebEncoderLost s) := by
  unfold execWebEncoderLost
  repeat' first | with_reducible exact Runs.next _ | exact State.axDo_runs _ _ _ _ _ | exact State.task_runs _ _ _ | with_reducible refine Runs.ite ?_ ?_ | split | dsimp only
theorem execPcEncoderLost_runs (st : Nat) (s : State) : Runs (execPcEncoderLost st s) := by
  unfold execPcEncoderLost
  repeat' first | with_reducible exact Runs.next _ | exact State.axDo_runs _ _ _ _ _ | exact State.task_runs _ _ _ | with_reducible refine Runs.ite ?_ ?_ | split | dsimp only
theorem execPllLockStart_runs (pll : Nat) (s : State) : Runs (execPllLockStart pll s) := by
  unfold execPllLockStart
  repeat' first | with_reducible exact Runs.next _ | exact State.axDo_runs _ _ _ _ _ | exact State.task_runs _ _ _ | with_reducible refine Runs.ite ?_ ?_ | split | dsimp only
theorem execPllLockDeclared_runs (pll : Nat) (s : State) : Runs (execPllLockDeclared pll s) := by
  unfold execPllLockDeclared
  repeat' first | with_reducible exact Runs.next _ | exact State.axDo_runs _ _ _ _ _ | exact State.task_runs _ _ _ | with_reducible refine Runs.ite ?_ ?_ | split | dsimp only
theorem execPllLockLost_runs (pll : Nat) (s : State) : Runs (execPllLockLost pll s) := by
  unfold execPllLockLost
  repeat' first | with_reducible exact Runs.next _ | exact State.axDo_runs _ _ _ _ _ | exact State.task_runs _ _ _ | with_reducible refine Runs.ite ?_ ?_ | split | dsimp only
theorem execPllLockTimeout_runs (pll : Nat) (s : State) : Runs (execPllLockTimeout pll s) := by
  unfold execPllLockTimeout
  repeat' first | with_reducible exact Runs.next _ | exact State.axDo_runs _ _ _ _ _ | exact State.task_runs _ _ _ | with_reducible refine Runs.ite ?_ ?_ | split | dsimp only
theorem execPllRetry_runs (pll : Nat) (s : State) : Runs (execPllRetry pll s) := by
  unfold execPllRetry
  repeat' first | with_reducible exact Runs.next _ | exact State.axDo_runs _ _ _ _ _ | exact State.task_runs _ _ _ | with_reducible refine Runs.ite ?_ ?_ | split | dsimp only
theorem execPllRelock_runs (pll : Nat) (s : State) : Runs (execPllRelock pll s) := by
  unfold execPllRelock
  repeat' first | with_reducible exact Runs.next _ | exact State.axDo_runs _ _ _ _ _ | exact State.task_runs _ _ _ | with_reducible refine Runs.ite ?_ ?_ | split | dsimp only
theorem execClassRequest_runs (master : Nat) (value : BitVec 32) (s : State) : Runs (execClassRequest master value s) := by
  unfold execClassRequest
  repeat' first | with_reducible exact Runs.next _ | exact State.axDo_runs _ _ _ _ _ | exact State.task_runs _ _ _ | with_reducible refine Runs.ite ?_ ?_ | split | dsimp only
theorem execClassChangeStart_runs (s : State) : Runs (execClassChangeStart s) := by
  unfold execClassChangeStart
  repeat' first | with_reducible exact Runs.next _ | exact State.axDo_runs _ _ _ _ _ | exact State.task_runs _ _ _ | with_reducible refine Runs.ite ?_ ?_ | split | dsimp only
theorem execClassSettled_runs (s : State) : Runs (execClassSettled s) := by
  unfold execClassSettled
  repeat' first | with_reducible exact Runs.next _ | exact State.axDo_runs _ _ _ _ _ | exact State.task_runs _ _ _ | with_reducible refine Runs.ite ?_ ?_ | split | dsimp only
theorem execClassRampTimeout_runs (s : State) : Runs (execClassRampTimeout s) := by
  unfold execClassRampTimeout
  repeat' first | with_reducible exact Runs.next _ | exact State.axDo_runs _ _ _ _ _ | exact State.task_runs _ _ _ | with_reducible refine Runs.ite ?_ ?_ | split | dsimp only
theorem execBlEnable_runs (bl : Nat) (s : State) : Runs (execBlEnable bl s) := by
  unfold execBlEnable
  repeat' first | with_reducible exact Runs.next _ | exact State.axDo_runs _ _ _ _ _ | exact State.task_runs _ _ _ | with_reducible refine Runs.ite ?_ ?_ | split | dsimp only
theorem execBlDisable_runs (bl : Nat) (s : State) : Runs (execBlDisable bl s) := by
  unfold execBlDisable
  repeat' first | with_reducible exact Runs.next _ | exact State.axDo_runs _ _ _ _ _ | exact State.task_runs _ _ _ | with_reducible refine Runs.ite ?_ ?_ | split | dsimp only
theorem execBlRetrain_runs (bl : Nat) (s : State) : Runs (execBlRetrain bl s) := by
  unfold execBlRetrain
  repeat' first | with_reducible exact Runs.next _ | exact State.axDo_runs _ _ _ _ _ | exact State.task_runs _ _ _ | with_reducible refine Runs.ite ?_ ?_ | split | dsimp only
theorem execBlTrainAlign_runs (bl : Nat) (s : State) : Runs (execBlTrainAlign bl s) := by
  unfold execBlTrainAlign
  repeat' first | with_reducible exact Runs.next _ | exact State.axDo_runs _ _ _ _ _ | exact State.task_runs _ _ _ | with_reducible refine Runs.ite ?_ ?_ | split | dsimp only
theorem execBlTrainPoll_runs (bl : Nat) (s : State) : Runs (execBlTrainPoll bl s) := by
  unfold execBlTrainPoll
  repeat' first | with_reducible exact Runs.next _ | exact State.axDo_runs _ _ _ _ _ | exact State.task_runs _ _ _ | with_reducible refine Runs.ite ?_ ?_ | split | dsimp only
theorem execBlTrainTimeout_runs (bl : Nat) (s : State) : Runs (execBlTrainTimeout bl s) := by
  unfold execBlTrainTimeout
  repeat' first | with_reducible exact Runs.next _ | exact State.axDo_runs _ _ _ _ _ | exact State.task_runs _ _ _ | with_reducible refine Runs.ite ?_ ?_ | split | dsimp only
theorem execLinkPoll_runs (bl : Nat) (s : State) : Runs (execLinkPoll bl s) := by
  unfold execLinkPoll
  repeat' first | with_reducible exact Runs.next _ | exact State.axDo_runs _ _ _ _ _ | exact State.task_runs _ _ _ | with_reducible refine Runs.ite ?_ ?_ | split | dsimp only
theorem execSidebandTransaction_runs (bl : Nat) (s : State) : Runs (execSidebandTransaction bl s) := by
  unfold execSidebandTransaction
  repeat' first | with_reducible exact Runs.next _ | exact State.axDo_runs _ _ _ _ _ | exact State.task_runs _ _ _ | with_reducible refine Runs.ite ?_ ?_ | split | dsimp only
theorem execSidebandResponse_runs (bl : Nat) (data : List (BitVec 8)) (s : State) : Runs (execSidebandResponse bl data s) := by
  unfold execSidebandResponse
  repeat' first | with_reducible exact Runs.next _ | exact State.axDo_runs _ _ _ _ _ | exact State.task_runs _ _ _ | with_reducible refine Runs.ite ?_ ?_ | split | dsimp only
theorem execSidebandTimeout_runs (bl : Nat) (s : State) : Runs (execSidebandTimeout bl s) := by
  unfold execSidebandTimeout
  repeat' first | with_reducible exact Runs.next _ | exact State.axDo_runs _ _ _ _ _ | exact State.task_runs _ _ _ | with_reducible refine Runs.ite ?_ ?_ | split | dsimp only
theorem execSidebandBusyRetry_runs (bl : Nat) (s : State) : Runs (execSidebandBusyRetry bl s) := by
  unfold execSidebandBusyRetry
  repeat' first | with_reducible exact Runs.next _ | exact State.axDo_runs _ _ _ _ _ | exact State.task_runs _ _ _ | with_reducible refine Runs.ite ?_ ?_ | split | dsimp only
theorem execRouteWrite_runs (st : Nat) (value : BitVec 32) (s : State) : Runs (execRouteWrite st value s) := by
  unfold execRouteWrite
  repeat' first | with_reducible exact Runs.next _ | exact State.axDo_runs _ _ _ _ _ | exact State.task_runs _ _ _ | with_reducible refine Runs.ite ?_ ?_ | split | dsimp only
theorem execRouteExchangeApply_runs (s : State) : Runs (execRouteExchangeApply s) := by
  unfold execRouteExchangeApply
  repeat' first | with_reducible exact Runs.next _ | exact State.axDo_runs _ _ _ _ _ | exact State.task_runs _ _ _ | with_reducible refine Runs.ite ?_ ?_ | split | dsimp only
theorem execOffsetWrite_runs (st : Nat) (value : BitVec 32) (s : State) : Runs (execOffsetWrite st value s) := by
  unfold execOffsetWrite
  repeat' first | with_reducible exact Runs.next _ | exact State.axDo_runs _ _ _ _ _ | exact State.task_runs _ _ _ | with_reducible refine Runs.ite ?_ ?_ | split | dsimp only
theorem execCalrefOkChange_runs (present : Bool) (err : BitVec 16) (s : State) : Runs (execCalrefOkChange present err s) := by
  unfold execCalrefOkChange
  repeat' first | with_reducible exact Runs.next _ | exact State.axDo_runs _ _ _ _ _ | exact State.task_runs _ _ _ | with_reducible refine Runs.ite ?_ ?_ | split | dsimp only
theorem execMbxUpload_runs (s : State) : Runs (execMbxUpload s) := by
  unfold execMbxUpload
  repeat' first | with_reducible exact Runs.next _ | exact State.axDo_runs _ _ _ _ _ | exact State.task_runs _ _ _ | with_reducible refine Runs.ite ?_ ?_ | split | dsimp only
theorem execMbxDownload_runs (s : State) : Runs (execMbxDownload s) := by
  unfold execMbxDownload
  repeat' first | with_reducible exact Runs.next _ | exact State.axDo_runs _ _ _ _ _ | exact State.task_runs _ _ _ | with_reducible refine Runs.ite ?_ ?_ | split | dsimp only
theorem execMbxUploadComplete_runs (s : State) : Runs (execMbxUploadComplete s) := by
  unfold execMbxUploadComplete
  repeat' first | with_reducible exact Runs.next _ | exact State.axDo_runs _ _ _ _ _ | exact State.task_runs _ _ _ | with_reducible refine Runs.ite ?_ ?_ | split | dsimp only
theorem execMbxDownloadComplete_runs (s : State) : Runs (execMbxDownloadComplete s) := by
  unfold execMbxDownloadComplete
  repeat' first | with_reducible exact Runs.next _ | exact State.axDo_runs _ _ _ _ _ | exact State.task_runs _ _ _ | with_reducible refine Runs.ite ?_ ?_ | split | dsimp only
theorem execMbxGetOdList_runs (s : State) : Runs (execMbxGetOdList s) := by
  unfold execMbxGetOdList
  repeat' first | with_reducible exact Runs.next _ | exact State.axDo_runs _ _ _ _ _ | exact State.task_runs _ _ _ | with_reducible refine Runs.ite ?_ ?_ | split | dsimp only
theorem execMbxGetObjectDesc_runs (s : State) : Runs (execMbxGetObjectDesc s) := by
  unfold execMbxGetObjectDesc
  repeat' first | with_reducible exact Runs.next _ | exact State.axDo_runs _ _ _ _ _ | exact State.task_runs _ _ _ | with_reducible refine Runs.ite ?_ ?_ | split | dsimp only
theorem execMbxGetEntryDesc_runs (s : State) : Runs (execMbxGetEntryDesc s) := by
  unfold execMbxGetEntryDesc
  repeat' first | with_reducible exact Runs.next _ | exact State.axDo_runs _ _ _ _ _ | exact State.task_runs _ _ _ | with_reducible refine Runs.ite ?_ ?_ | split | dsimp only
theorem execMbxSegmentTimeout_runs (s : State) : Runs (execMbxSegmentTimeout s) := by
  unfold execMbxSegmentTimeout
  repeat' first | with_reducible exact Runs.next _ | exact State.axDo_runs _ _ _ _ _ | exact State.task_runs _ _ _ | with_reducible refine Runs.ite ?_ ?_ | split | dsimp only
theorem execCoeSdoUpload_runs (index sub : Nat) (complete : Bool) (s : State) : Runs (execCoeSdoUpload index sub complete s) := by
  unfold execCoeSdoUpload
  repeat' first | with_reducible exact Runs.next _ | exact State.axDo_runs _ _ _ _ _ | exact State.task_runs _ _ _ | with_reducible refine Runs.ite ?_ ?_ | split | dsimp only
theorem execCoeSdoDownload_runs (index sub : Nat) (complete : Bool) (data : List (BitVec 8)) (s : State) : Runs (execCoeSdoDownload index sub complete data s) := by
  unfold execCoeSdoDownload
  repeat' first | with_reducible exact Runs.next _ | exact State.axDo_runs _ _ _ _ _ | exact State.task_runs _ _ _ | with_reducible refine Runs.ite ?_ ?_ | split | dsimp only
theorem execCoeSdoInformation_runs (data : List (BitVec 8)) (s : State) : Runs (execCoeSdoInformation data s) := by
  unfold execCoeSdoInformation
  repeat' first | with_reducible exact Runs.next _ | exact State.axDo_runs _ _ _ _ _ | exact State.task_runs _ _ _ | with_reducible refine Runs.ite ?_ ?_ | split | dsimp only
theorem execSdoQueuedStart_runs (s : State) : Runs (execSdoQueuedStart s) := by
  unfold execSdoQueuedStart
  repeat' first | with_reducible exact Runs.next _ | exact State.axDo_runs _ _ _ _ _ | exact State.task_runs _ _ _ | with_reducible refine Runs.ite ?_ ?_ | split | dsimp only
theorem execStoreParameters_runs (s : State) : Runs (execStoreParameters s) := by
  unfold execStoreParameters
  repeat' first | with_reducible exact Runs.next _ | exact State.axDo_runs _ _ _ _ _ | exact State.task_runs _ _ _ | with_reducible refine Runs.ite ?_ ?_ | split | dsimp only
theorem execRestoreDefaults_runs (s : State) : Runs (execRestoreDefaults s) := by
  unfold execRestoreDefaults
  repeat' first | with_reducible exact Runs.next _ | exact State.axDo_runs _ _ _ _ _ | exact State.task_runs _ _ _ | with_reducible refine Runs.ite ?_ ?_ | split | dsimp only
theorem execCalSetWrite_runs (payload : List (BitVec 8)) (s : State) : Runs (execCalSetWrite payload s) := by
  unfold execCalSetWrite
  repeat' first | with_reducible exact Runs.next _ | exact State.axDo_runs _ _ _ _ _ | exact State.task_runs _ _ _ | with_reducible refine Runs.ite ?_ ?_ | split | dsimp only
theorem execCalStoreComplete_runs (ok : Bool) (s : State) : Runs (execCalStoreComplete ok s) := by
  unfold execCalStoreComplete
  repeat' first | with_reducible exact Runs.next _ | exact State.axDo_runs _ _ _ _ _ | exact State.task_runs _ _ _ | with_reducible refine Runs.ite ?_ ?_ | split | dsimp only
theorem execCulOdReq_runs (east : Bool) (msg : List (BitVec 8)) (s : State) : Runs (execCulOdReq east msg s) := by
  unfold execCulOdReq
  repeat' first | with_reducible exact Runs.next _ | exact State.axDo_runs _ _ _ _ _ | exact State.task_runs _ _ _ | with_reducible refine Runs.ite ?_ ?_ | split | dsimp only
theorem execCulOdRsp_runs (east : Bool) (msg : List (BitVec 8)) (s : State) : Runs (execCulOdRsp east msg s) := by
  unfold execCulOdRsp
  repeat' first | with_reducible exact Runs.next _ | exact State.axDo_runs _ _ _ _ _ | exact State.task_runs _ _ _ | with_reducible refine Runs.ite ?_ ?_ | split | dsimp only
theorem execCulTunnelTimeout_runs (s : State) : Runs (execCulTunnelTimeout s) := by
  unfold execCulTunnelTimeout
  repeat' first | with_reducible exact Runs.next _ | exact State.axDo_runs _ _ _ _ _ | exact State.task_runs _ _ _ | with_reducible refine Runs.ite ?_ ?_ | split | dsimp only
theorem execRegisterWrite_runs (master off : Nat) (value : BitVec 32) (high : Option (BitVec 32)) (s : State) : Runs (execRegisterWrite master off value high s) := by
  unfold execRegisterWrite
  repeat' first | with_reducible exact Runs.next _ | exact State.axDo_runs _ _ _ _ _ | exact State.task_runs _ _ _ | with_reducible refine Runs.ite ?_ ?_ | split | dsimp only
theorem execChAssignWrite_runs (ch : Nat) (value : BitVec 32) (s : State) : Runs (execChAssignWrite ch value s) := by
  unfold execChAssignWrite
  repeat' first | with_reducible exact Runs.next _ | exact State.axDo_runs _ _ _ _ _ | exact State.task_runs _ _ _ | with_reducible refine Runs.ite ?_ ?_ | split | dsimp only
theorem execFnWinWrite_runs (fn : Nat) (value : BitVec 32) (s : State) : Runs (execFnWinWrite fn value s) := by
  unfold execFnWinWrite
  repeat' first | with_reducible exact Runs.next _ | exact State.axDo_runs _ _ _ _ _ | exact State.task_runs _ _ _ | with_reducible refine Runs.ite ?_ ?_ | split | dsimp only
theorem execChEnable_runs (ch : Nat) (s : State) : Runs (execChEnable ch s) := by
  unfold execChEnable
  repeat' first | with_reducible exact Runs.next _ | exact State.axDo_runs _ _ _ _ _ | exact State.task_runs _ _ _ | with_reducible refine Runs.ite ?_ ?_ | split | dsimp only
theorem execChDisable_runs (ch : Nat) (s : State) : Runs (execChDisable ch s) := by
  unfold execChDisable
  repeat' first | with_reducible exact Runs.next _ | exact State.axDo_runs _ _ _ _ _ | exact State.task_runs _ _ _ | with_reducible refine Runs.ite ?_ ?_ | split | dsimp only
theorem execChDoorbell_runs (ch tail : Nat) (s : State) : Runs (execChDoorbell ch tail s) := by
  unfold execChDoorbell
  repeat' first | with_reducible exact Runs.next _ | exact State.axDo_runs _ _ _ _ _ | exact State.task_runs _ _ _ | with_reducible refine Runs.ite ?_ ?_ | split | dsimp only
theorem execChResume_runs (ch : Nat) (s : State) : Runs (execChResume ch s) := by
  unfold execChResume
  repeat' first | with_reducible exact Runs.next _ | exact State.axDo_runs _ _ _ _ _ | exact State.task_runs _ _ _ | with_reducible refine Runs.ite ?_ ?_ | split | dsimp only
theorem execChAbort_runs (ch : Nat) (resume : Bool) (s : State) : Runs (execChAbort ch resume s) := by
  unfold execChAbort
  repeat' first | with_reducible exact Runs.next _ | exact State.axDo_runs _ _ _ _ _ | exact State.task_runs _ _ _ | with_reducible refine Runs.ite ?_ ?_ | split | dsimp only
theorem execChDescriptorFetch_runs (ch : Nat) (s : State) : Runs (execChDescriptorFetch ch s) := by
  unfold execChDescriptorFetch
  repeat' first | with_reducible exact Runs.next _ | exact State.axDo_runs _ _ _ _ _ | exact State.task_runs _ _ _ | with_reducible refine Runs.ite ?_ ?_ | split | dsimp only
theorem execChDescriptor_runs (ch : Nat) (desc : Option (List (BitVec 8))) (s : State) : Runs (execChDescriptor ch desc s) := by
  unfold execChDescriptor
  repeat' first | with_reducible exact Runs.next _ | exact State.axDo_runs _ _ _ _ _ | exact State.task_runs _ _ _ | with_reducible refine Runs.ite ?_ ?_ | split | dsimp only
theorem execSipBurst_runs (ch : Nat) (data : List (BitVec 8)) (offs : List (BitVec 32)) (fail : Nat) (s : State) : Runs (execSipBurst ch data offs fail s) := by
  unfold execSipBurst
  repeat' first | with_reducible exact Runs.next _ | exact State.axDo_runs _ _ _ _ _ | exact State.task_runs _ _ _ | with_reducible refine Runs.ite ?_ ?_ | split | dsimp only
theorem execDescriptorComplete_runs (ch : Nat) (s : State) : Runs (execDescriptorComplete ch s) := by
  unfold execDescriptorComplete
  repeat' first | with_reducible exact Runs.next _ | exact State.axDo_runs _ _ _ _ _ | exact State.task_runs _ _ _ | with_reducible refine Runs.ite ?_ ?_ | split | dsimp only
theorem execBarrierReadComplete_runs (ch : Nat) (ok : Bool) (s : State) : Runs (execBarrierReadComplete ch ok s) := by
  unfold execBarrierReadComplete
  repeat' first | with_reducible exact Runs.next _ | exact State.axDo_runs _ _ _ _ _ | exact State.task_runs _ _ _ | with_reducible refine Runs.ite ?_ ?_ | split | dsimp only
theorem execSpoolEnable_runs (s : State) : Runs (execSpoolEnable s) := by
  unfold execSpoolEnable
  repeat' first | with_reducible exact Runs.next _ | exact State.axDo_runs _ _ _ _ _ | exact State.task_runs _ _ _ | with_reducible refine Runs.ite ?_ ?_ | split | dsimp only
theorem execSpoolDisable_runs (s : State) : Runs (execSpoolDisable s) := by
  unfold execSpoolDisable
  repeat' first | with_reducible exact Runs.next _ | exact State.axDo_runs _ _ _ _ _ | exact State.task_runs _ _ _ | with_reducible refine Runs.ite ?_ ?_ | split | dsimp only
theorem execDriveReady_runs (d : Nat) (fits : Bool) (capacity : Nat) (s : State) : Runs (execDriveReady d fits capacity s) := by
  unfold execDriveReady
  repeat' first | with_reducible exact Runs.next _ | exact State.axDo_runs _ _ _ _ _ | exact State.task_runs _ _ _ | with_reducible refine Runs.ite ?_ ?_ | split | dsimp only
theorem execDriveReadyTimeout_runs (d : Nat) (s : State) : Runs (execDriveReadyTimeout d s) := by
  unfold execDriveReadyTimeout
  repeat' first | with_reducible exact Runs.next _ | exact State.axDo_runs _ _ _ _ _ | exact State.task_runs _ _ _ | with_reducible refine Runs.ite ?_ ?_ | split | dsimp only
theorem execSpoolLinkTrained_runs (d : Nat) (up : Bool) (s : State) : Runs (execSpoolLinkTrained d up s) := by
  unfold execSpoolLinkTrained
  repeat' first | with_reducible exact Runs.next _ | exact State.axDo_runs _ _ _ _ _ | exact State.task_runs _ _ _ | with_reducible refine Runs.ite ?_ ?_ | split | dsimp only
theorem execSpoolRecoveryDone_runs (s : State) : Runs (execSpoolRecoveryDone s) := by
  unfold execSpoolRecoveryDone
  repeat' first | with_reducible exact Runs.next _ | exact State.axDo_runs _ _ _ _ _ | exact State.task_runs _ _ _ | with_reducible refine Runs.ite ?_ ?_ | split | dsimp only
theorem execNvmeCommandComplete_runs (id : Nat) (result : Nat) (s : State) : Runs (execNvmeCommandComplete id result s) := by
  unfold execNvmeCommandComplete
  repeat' first | with_reducible exact Runs.next _ | exact State.axDo_runs _ _ _ _ _ | exact State.task_runs _ _ _ | with_reducible refine Runs.ite ?_ ?_ | split | dsimp only
theorem execNvmeCommandTimeout_runs (id : Nat) (s : State) : Runs (execNvmeCommandTimeout id s) := by
  unfold execNvmeCommandTimeout
  repeat' first | with_reducible exact Runs.next _ | exact State.axDo_runs _ _ _ _ _ | exact State.task_runs _ _ _ | with_reducible refine Runs.ite ?_ ?_ | split | dsimp only
theorem execDriveFailed_runs (d : Nat) (s : State) : Runs (execDriveFailed d s) := by
  unfold execDriveFailed
  repeat' first | with_reducible exact Runs.next _ | exact State.axDo_runs _ _ _ _ _ | exact State.task_runs _ _ _ | with_reducible refine Runs.ite ?_ ?_ | split | dsimp only
theorem execEpochRollover_runs (journalOk burnOk saltOk : Bool) (s : State) : Runs (execEpochRollover journalOk burnOk saltOk s) := by
  unfold execEpochRollover
  repeat' first | with_reducible exact Runs.next _ | exact State.axDo_runs _ _ _ _ _ | exact State.task_runs _ _ _ | with_reducible refine Runs.ite ?_ ?_ | split | dsimp only
theorem execSliceQuotaWrite_runs (fn : Nat) (direct : Bool) (value : BitVec 32) (s : State) : Runs (execSliceQuotaWrite fn direct value s) := by
  unfold execSliceQuotaWrite
  repeat' first | with_reducible exact Runs.next _ | exact State.axDo_runs _ _ _ _ _ | exact State.task_runs _ _ _ | with_reducible refine Runs.ite ?_ ?_ | split | dsimp only
theorem execSliceTrim_runs (fn count : Nat) (s : State) : Runs (execSliceTrim fn count s) := by
  unfold execSliceTrim
  repeat' first | with_reducible exact Runs.next _ | exact State.axDo_runs _ _ _ _ _ | exact State.task_runs _ _ _ | with_reducible refine Runs.ite ?_ ?_ | split | dsimp only
theorem execSliceTrimDone_runs (fn : Nat) (s : State) : Runs (execSliceTrimDone fn s) := by
  unfold execSliceTrimDone
  repeat' first | with_reducible exact Runs.next _ | exact State.axDo_runs _ _ _ _ _ | exact State.task_runs _ _ _ | with_reducible refine Runs.ite ?_ ?_ | split | dsimp only
theorem execSliceEnum_runs (fn max : Nat) (s : State) : Runs (execSliceEnum fn max s) := by
  unfold execSliceEnum
  repeat' first | with_reducible exact Runs.next _ | exact State.axDo_runs _ _ _ _ _ | exact State.task_runs _ _ _ | with_reducible refine Runs.ite ?_ ?_ | split | dsimp only
theorem execSliceEnumDone_runs (fn : Nat) (s : State) : Runs (execSliceEnumDone fn s) := by
  unfold execSliceEnumDone
  repeat' first | with_reducible exact Runs.next _ | exact State.axDo_runs _ _ _ _ _ | exact State.task_runs _ _ _ | with_reducible refine Runs.ite ?_ ?_ | split | dsimp only
theorem execSumpReport_runs (s : State) : Runs (execSumpReport s) := by
  unfold execSumpReport
  repeat' first | with_reducible exact Runs.next _ | exact State.axDo_runs _ _ _ _ _ | exact State.task_runs _ _ _ | with_reducible refine Runs.ite ?_ ?_ | split | dsimp only
theorem execSumpReportLost_runs (s : State) : Runs (execSumpReportLost s) := by
  unfold execSumpReportLost
  repeat' first | with_reducible exact Runs.next _ | exact State.axDo_runs _ _ _ _ _ | exact State.task_runs _ _ _ | with_reducible refine Runs.ite ?_ ?_ | split | dsimp only
theorem execSumpRearm_runs (s : State) : Runs (execSumpRearm s) := by
  unfold execSumpRearm
  repeat' first | with_reducible exact Runs.next _ | exact State.axDo_runs _ _ _ _ _ | exact State.task_runs _ _ _ | with_reducible refine Runs.ite ?_ ?_ | split | dsimp only
theorem execSumpPop_runs (s : State) : Runs (execSumpPop s) := by
  unfold execSumpPop
  repeat' first | with_reducible exact Runs.next _ | exact State.axDo_runs _ _ _ _ _ | exact State.task_runs _ _ _ | with_reducible refine Runs.ite ?_ ?_ | split | dsimp only
theorem execSumpRelease_runs (s : State) : Runs (execSumpRelease s) := by
  unfold execSumpRelease
  repeat' first | with_reducible exact Runs.next _ | exact State.axDo_runs _ _ _ _ _ | exact State.task_runs _ _ _ | with_reducible refine Runs.ite ?_ ?_ | split | dsimp only
theorem execSumpRecovery_runs (s : State) : Runs (execSumpRecovery s) := by
  unfold execSumpRecovery
  repeat' first | with_reducible exact Runs.next _ | exact State.axDo_runs _ _ _ _ _ | exact State.task_runs _ _ _ | with_reducible refine Runs.ite ?_ ?_ | split | dsimp only
theorem execSelfCheckCompare_runs (flt hdg : Bool) (s : State) : Runs (execSelfCheckCompare flt hdg s) := by
  unfold execSelfCheckCompare
  repeat' first | with_reducible exact Runs.next _ | exact State.axDo_runs _ _ _ _ _ | exact State.task_runs _ _ _ | with_reducible refine Runs.ite ?_ ?_ | split | dsimp only
theorem execHeartbeatKick_runs (s : State) : Runs (execHeartbeatKick s) := by
  unfold execHeartbeatKick
  repeat' first | with_reducible exact Runs.next _ | exact State.axDo_runs _ _ _ _ _ | exact State.task_runs _ _ _ | with_reducible refine Runs.ite ?_ ?_ | split | dsimp only
theorem execHeartbeatTimeout_runs (s : State) : Runs (execHeartbeatTimeout s) := by
  unfold execHeartbeatTimeout
  repeat' first | with_reducible exact Runs.next _ | exact State.axDo_runs _ _ _ _ _ | exact State.task_runs _ _ _ | with_reducible refine Runs.ite ?_ ?_ | split | dsimp only
theorem execAliveToggle_runs (s : State) : Runs (execAliveToggle s) := by
  unfold execAliveToggle
  repeat' first | with_reducible exact Runs.next _ | exact State.axDo_runs _ _ _ _ _ | exact State.task_runs _ _ _ | with_reducible refine Runs.ite ?_ ?_ | split | dsimp only
theorem execTurnoutRound_runs (s : State) : Runs (execTurnoutRound s) := by
  unfold execTurnoutRound
  repeat' first | with_reducible exact Runs.next _ | exact State.axDo_runs _ _ _ _ _ | exact State.task_runs _ _ _ | with_reducible refine Runs.ite ?_ ?_ | split | dsimp only
theorem execTaskAxGo_runs (ax : Nat) (s : State) : Runs (execTaskAxGo ax s) := by
  unfold execTaskAxGo
  repeat' first | with_reducible exact Runs.next _ | exact State.axDo_runs _ _ _ _ _ | exact State.task_runs _ _ _ | with_reducible refine Runs.ite ?_ ?_ | split | dsimp only
theorem execTaskAxStop_runs (ax : Nat) (s : State) : Runs (execTaskAxStop ax s) := by
  unfold execTaskAxStop
  repeat' first | with_reducible exact Runs.next _ | exact State.axDo_runs _ _ _ _ _ | exact State.task_runs _ _ _ | with_reducible refine Runs.ite ?_ ?_ | split | dsimp only
theorem execTaskAxQstop_runs (ax : Nat) (s : State) : Runs (execTaskAxQstop ax s) := by
  unfold execTaskAxQstop
  repeat' first | with_reducible exact Runs.next _ | exact State.axDo_runs _ _ _ _ _ | exact State.task_runs _ _ _ | with_reducible refine Runs.ite ?_ ?_ | split | dsimp only
theorem execTaskAxCapture_runs (ax : Nat) (s : State) : Runs (execTaskAxCapture ax s) := by
  unfold execTaskAxCapture
  repeat' first | with_reducible exact Runs.next _ | exact State.axDo_runs _ _ _ _ _ | exact State.task_runs _ _ _ | with_reducible refine Runs.ite ?_ ?_ | split | dsimp only
theorem execTaskLoopIndex_runs (lp : Nat) (s : State) : Runs (execTaskLoopIndex lp s) := by
  unfold execTaskLoopIndex
  repeat' first | with_reducible exact Runs.next _ | exact State.axDo_runs _ _ _ _ _ | exact State.task_runs _ _ _ | with_reducible refine Runs.ite ?_ ?_ | split | dsimp only
theorem execTaskEncCapture_runs (n : Nat) (s : State) : Runs (execTaskEncCapture n s) := by
  unfold execTaskEncCapture
  repeat' first | with_reducible exact Runs.next _ | exact State.axDo_runs _ _ _ _ _ | exact State.task_runs _ _ _ | with_reducible refine Runs.ite ?_ ?_ | split | dsimp only
theorem execTaskTimerStart_runs (s : State) : Runs (execTaskTimerStart s) := by
  unfold execTaskTimerStart
  repeat' first | with_reducible exact Runs.next _ | exact State.axDo_runs _ _ _ _ _ | exact State.task_runs _ _ _ | with_reducible refine Runs.ite ?_ ?_ | split | dsimp only
theorem execTaskLatPulse_runs (i : Nat) (s : State) : Runs (execTaskLatPulse i s) := by
  unfold execTaskLatPulse
  repeat' first | with_reducible exact Runs.next _ | exact State.axDo_runs _ _ _ _ _ | exact State.task_runs _ _ _ | with_reducible refine Runs.ite ?_ ?_ | split | dsimp only
theorem execTaskTofCapture_runs (s : State) : Runs (execTaskTofCapture s) := by
  unfold execTaskTofCapture
  repeat' first | with_reducible exact Runs.next _ | exact State.axDo_runs _ _ _ _ _ | exact State.task_runs _ _ _ | with_reducible refine Runs.ite ?_ ?_ | split | dsimp only
theorem execTaskSwSignal_runs (i : Nat) (s : State) : Runs (execTaskSwSignal i s) := by
  unfold execTaskSwSignal
  repeat' first | with_reducible exact Runs.next _ | exact State.axDo_runs _ _ _ _ _ | exact State.task_runs _ _ _ | with_reducible refine Runs.ite ?_ ?_ | split | dsimp only
theorem execTaskAck_runs (tk n : Nat) (s : State) : Runs (execTaskAck tk n s) := by
  unfold execTaskAck
  repeat' first | with_reducible exact Runs.next _ | exact State.axDo_runs _ _ _ _ _ | exact State.task_runs _ _ _ | with_reducible refine Runs.ite ?_ ?_ | split | dsimp only
theorem execTaskConfigWrite_runs (tk : Nat) (source : Bool) (value : BitVec 32) (s : State) : Runs (execTaskConfigWrite tk source value s) := by
  unfold execTaskConfigWrite
  repeat' first | with_reducible exact Runs.next _ | exact State.axDo_runs _ _ _ _ _ | exact State.task_runs _ _ _ | with_reducible refine Runs.ite ?_ ?_ | split | dsimp only
theorem execSwEventRaise_runs (bits : BitVec 8) (s : State) : Runs (execSwEventRaise bits s) := by
  unfold execSwEventRaise
  repeat' first | with_reducible exact Runs.next _ | exact State.axDo_runs _ _ _ _ _ | exact State.task_runs _ _ _ | with_reducible refine Runs.ite ?_ ?_ | split | dsimp only
theorem execTimerExpire_runs (i : Nat) (s : State) : Runs (execTimerExpire i s) := by
  unfold execTimerExpire
  repeat' first | with_reducible exact Runs.next _ | exact State.axDo_runs _ _ _ _ _ | exact State.task_runs _ _ _ | with_reducible refine Runs.ite ?_ ?_ | split | dsimp only
theorem execWebCompareArm_runs (i : Nat) (value : BitVec 32) (s : State) : Runs (execWebCompareArm i value s) := by
  unfold execWebCompareArm
  repeat' first | with_reducible exact Runs.next _ | exact State.axDo_runs _ _ _ _ _ | exact State.task_runs _ _ _ | with_reducible refine Runs.ite ?_ ?_ | split | dsimp only
theorem execWebCompareFire_runs (i : Nat) (s : State) : Runs (execWebCompareFire i s) := by
  unfold execWebCompareFire
  repeat' first | with_reducible exact Runs.next _ | exact State.axDo_runs _ _ _ _ _ | exact State.task_runs _ _ _ | with_reducible refine Runs.ite ?_ ?_ | split | dsimp only
theorem execXcalStart_runs (s : State) : Runs (execXcalStart s) := by
  unfold execXcalStart
  repeat' first | with_reducible exact Runs.next _ | exact State.axDo_runs _ _ _ _ _ | exact State.task_runs _ _ _ | with_reducible refine Runs.ite ?_ ?_ | split | dsimp only
theorem execXcalAbort_runs (s : State) : Runs (execXcalAbort s) := by
  unfold execXcalAbort
  repeat' first | with_reducible exact Runs.next _ | exact State.axDo_runs _ _ _ _ _ | exact State.task_runs _ _ _ | with_reducible refine Runs.ite ?_ ?_ | split | dsimp only
theorem execXcalCollect_runs (s : State) : Runs (execXcalCollect s) := by
  unfold execXcalCollect
  repeat' first | with_reducible exact Runs.next _ | exact State.axDo_runs _ _ _ _ _ | exact State.task_runs _ _ _ | with_reducible refine Runs.ite ?_ ?_ | split | dsimp only
theorem execXcalStepTimeout_runs (s : State) : Runs (execXcalStepTimeout s) := by
  unfold execXcalStepTimeout
  repeat' first | with_reducible exact Runs.next _ | exact State.axDo_runs _ _ _ _ _ | exact State.task_runs _ _ _ | with_reducible refine Runs.ite ?_ ?_ | split | dsimp only
theorem execXcalTargetTimeout_runs (s : State) : Runs (execXcalTargetTimeout s) := by
  unfold execXcalTargetTimeout
  repeat' first | with_reducible exact Runs.next _ | exact State.axDo_runs _ _ _ _ _ | exact State.task_runs _ _ _ | with_reducible refine Runs.ite ?_ ?_ | split | dsimp only
theorem execXcalStartMsg_runs (east : Bool) (msg : List (BitVec 8)) (s : State) : Runs (execXcalStartMsg east msg s) := by
  unfold execXcalStartMsg
  repeat' first | with_reducible exact Runs.next _ | exact State.axDo_runs _ _ _ _ _ | exact State.task_runs _ _ _ | with_reducible refine Runs.ite ?_ ?_ | split | dsimp only
theorem execXcalFeatures_runs (east : Bool) (msg : List (BitVec 8)) (s : State) : Runs (execXcalFeatures east msg s) := by
  unfold execXcalFeatures
  repeat' first | with_reducible exact Runs.next _ | exact State.axDo_runs _ _ _ _ _ | exact State.task_runs _ _ _ | with_reducible refine Runs.ite ?_ ?_ | split | dsimp only
theorem execXcalTargets_runs (east : Bool) (msg : List (BitVec 8)) (s : State) : Runs (execXcalTargets east msg s) := by
  unfold execXcalTargets
  repeat' first | with_reducible exact Runs.next _ | exact State.axDo_runs _ _ _ _ _ | exact State.task_runs _ _ _ | with_reducible refine Runs.ite ?_ ?_ | split | dsimp only
theorem execXcalReply_runs (east : Bool) (msg : List (BitVec 8)) (s : State) : Runs (execXcalReply east msg s) := by
  unfold execXcalReply
  repeat' first | with_reducible exact Runs.next _ | exact State.axDo_runs _ _ _ _ _ | exact State.task_runs _ _ _ | with_reducible refine Runs.ite ?_ ?_ | split | dsimp only
theorem execXcalCommit_runs (east : Bool) (msg : List (BitVec 8)) (s : State) : Runs (execXcalCommit east msg s) := by
  unfold execXcalCommit
  repeat' first | with_reducible exact Runs.next _ | exact State.axDo_runs _ _ _ _ _ | exact State.task_runs _ _ _ | with_reducible refine Runs.ite ?_ ?_ | split | dsimp only
theorem execXcalAbandon_runs (east : Bool) (msg : List (BitVec 8)) (s : State) : Runs (execXcalAbandon east msg s) := by
  unfold execXcalAbandon
  repeat' first | with_reducible exact Runs.next _ | with_reducible refine Runs.ite ?_ ?_ | split | dsimp only

end Sys2Proof.Machine
end

