-- ==== Sys2Proof/Laws/State.lean ====
section
/-! SUPPORT. What each update of State leaves as it was, field by field, and what a register field reads after it is written. -/
namespace Sys2Proof.Machine
set_option Elab.async false
set_option linter.all false

/-! ## setWord -/

@[simp] theorem State.setWord_variant (s : State) (off : Nat) (w : Word) : (s.setWord off w).variant = s.variant := rfl
@[simp] theorem State.setWord_now (s : State) (off : Nat) (w : Word) : (s.setWord off w).now = s.now := rfl
@[simp] theorem State.setWord_work (s : State) (off : Nat) (w : Word) : (s.setWord off w).work = s.work := rfl
@[simp] theorem State.setWord_objs (s : State) (off : Nat) (w : Word) : (s.setWord off w).objs = s.objs := rfl
@[simp] theorem State.setWord_dram (s : State) (off : Nat) (w : Word) : (s.setWord off w).dram = s.dram := rfl
@[simp] theorem State.setWord_tile (s : State) (off : Nat) (w : Word) : (s.setWord off w).tile = s.tile := rfl
@[simp] theorem State.setWord_spool (s : State) (off : Nat) (w : Word) : (s.setWord off w).spool = s.spool := rfl
@[simp] theorem State.setWord_pages (s : State) (off : Nat) (w : Word) : (s.setWord off w).pages = s.pages := rfl
@[simp] theorem State.setWord_hif (s : State) (off : Nat) (w : Word) : (s.setWord off w).hif = s.hif := rfl
@[simp] theorem State.setWord_sip (s : State) (off : Nat) (w : Word) : (s.setWord off w).sip = s.sip := rfl
@[simp] theorem State.setWord_kor (s : State) (off : Nat) (w : Word) : (s.setWord off w).kor = s.kor := rfl
@[simp] theorem State.setWord_cmp (s : State) (off : Nat) (w : Word) : (s.setWord off w).cmp = s.cmp := rfl
@[simp] theorem State.setWord_flm (s : State) (off : Nat) (w : Word) : (s.setWord off w).flm = s.flm := rfl
@[simp] theorem State.setWord_spl (s : State) (off : Nat) (w : Word) : (s.setWord off w).spl = s.spl := rfl
@[simp] theorem State.setWord_scn (s : State) (off : Nat) (w : Word) : (s.setWord off w).scn = s.scn := rfl
@[simp] theorem State.setWord_exp (s : State) (off : Nat) (w : Word) : (s.setWord off w).exp = s.exp := rfl
@[simp] theorem State.setWord_ins (s : State) (off : Nat) (w : Word) : (s.setWord off w).ins = s.ins := rfl
@[simp] theorem State.setWord_lpe (s : State) (off : Nat) (w : Word) : (s.setWord off w).lpe = s.lpe := rfl
@[simp] theorem State.setWord_mot (s : State) (off : Nat) (w : Word) : (s.setWord off w).mot = s.mot := rfl
@[simp] theorem State.setWord_lat (s : State) (off : Nat) (w : Word) : (s.setWord off w).lat = s.lat := rfl
@[simp] theorem State.setWord_trn (s : State) (off : Nat) (w : Word) : (s.setWord off w).trn = s.trn := rfl
@[simp] theorem State.setWord_cul (s : State) (off : Nat) (w : Word) : (s.setWord off w).cul = s.cul := rfl
@[simp] theorem State.setWord_ect (s : State) (off : Nat) (w : Word) : (s.setWord off w).ect = s.ect := rfl
@[simp] theorem State.setWord_boot (s : State) (off : Nat) (w : Word) : (s.setWord off w).boot = s.boot := rfl
@[simp] theorem State.setWord_pwr (s : State) (off : Nat) (w : Word) : (s.setWord off w).pwr = s.pwr := rfl
@[simp] theorem State.setWord_otp (s : State) (off : Nat) (w : Word) : (s.setWord off w).otp = s.otp := rfl
@[simp] theorem State.setWord_sec (s : State) (off : Nat) (w : Word) : (s.setWord off w).sec = s.sec := rfl
@[simp] theorem State.setWord_tap (s : State) (off : Nat) (w : Word) : (s.setWord off w).tap = s.tap := rfl
@[simp] theorem State.setWord_flt (s : State) (off : Nat) (w : Word) : (s.setWord off w).flt = s.flt := rfl
@[simp] theorem State.setWord_hdg (s : State) (off : Nat) (w : Word) : (s.setWord off w).hdg = s.hdg := rfl
@[simp] theorem State.setWord_evr (s : State) (off : Nat) (w : Word) : (s.setWord off w).evr = s.evr := rfl
@[simp] theorem State.setWord_waiting (s : State) (off : Nat) (w : Word) : (s.setWord off w).waiting = s.waiting := rfl
@[simp] theorem State.setWord_out (s : State) (off : Nat) (w : Word) : (s.setWord off w).out = s.out := rfl
@[simp] theorem State.setWord_freeCtr (s : State) (off : Nat) (w : Word) : (s.setWord off w).freeCtr = s.freeCtr := rfl
@[simp] theorem State.setWord_pending (s : State) (off : Nat) (w : Word) : (s.setWord off w).pending = s.pending := rfl
@[simp] theorem State.setWord_marks (s : State) (off : Nat) (w : Word) : (s.setWord off w).marks = s.marks := rfl

/-! ## setF -/

@[simp] theorem State.setF_variant (s : State) (x : Fld) (v : Nat) : (s.setF x v).variant = s.variant := rfl
@[simp] theorem State.setF_now (s : State) (x : Fld) (v : Nat) : (s.setF x v).now = s.now := rfl
@[simp] theorem State.setF_work (s : State) (x : Fld) (v : Nat) : (s.setF x v).work = s.work := rfl
@[simp] theorem State.setF_objs (s : State) (x : Fld) (v : Nat) : (s.setF x v).objs = s.objs := rfl
@[simp] theorem State.setF_dram (s : State) (x : Fld) (v : Nat) : (s.setF x v).dram = s.dram := rfl
@[simp] theorem State.setF_tile (s : State) (x : Fld) (v : Nat) : (s.setF x v).tile = s.tile := rfl
@[simp] theorem State.setF_spool (s : State) (x : Fld) (v : Nat) : (s.setF x v).spool = s.spool := rfl
@[simp] theorem State.setF_pages (s : State) (x : Fld) (v : Nat) : (s.setF x v).pages = s.pages := rfl
@[simp] theorem State.setF_hif (s : State) (x : Fld) (v : Nat) : (s.setF x v).hif = s.hif := rfl
@[simp] theorem State.setF_sip (s : State) (x : Fld) (v : Nat) : (s.setF x v).sip = s.sip := rfl
@[simp] theorem State.setF_kor (s : State) (x : Fld) (v : Nat) : (s.setF x v).kor = s.kor := rfl
@[simp] theorem State.setF_cmp (s : State) (x : Fld) (v : Nat) : (s.setF x v).cmp = s.cmp := rfl
@[simp] theorem State.setF_flm (s : State) (x : Fld) (v : Nat) : (s.setF x v).flm = s.flm := rfl
@[simp] theorem State.setF_spl (s : State) (x : Fld) (v : Nat) : (s.setF x v).spl = s.spl := rfl
@[simp] theorem State.setF_scn (s : State) (x : Fld) (v : Nat) : (s.setF x v).scn = s.scn := rfl
@[simp] theorem State.setF_exp (s : State) (x : Fld) (v : Nat) : (s.setF x v).exp = s.exp := rfl
@[simp] theorem State.setF_ins (s : State) (x : Fld) (v : Nat) : (s.setF x v).ins = s.ins := rfl
@[simp] theorem State.setF_lpe (s : State) (x : Fld) (v : Nat) : (s.setF x v).lpe = s.lpe := rfl
@[simp] theorem State.setF_mot (s : State) (x : Fld) (v : Nat) : (s.setF x v).mot = s.mot := rfl
@[simp] theorem State.setF_lat (s : State) (x : Fld) (v : Nat) : (s.setF x v).lat = s.lat := rfl
@[simp] theorem State.setF_trn (s : State) (x : Fld) (v : Nat) : (s.setF x v).trn = s.trn := rfl
@[simp] theorem State.setF_cul (s : State) (x : Fld) (v : Nat) : (s.setF x v).cul = s.cul := rfl
@[simp] theorem State.setF_ect (s : State) (x : Fld) (v : Nat) : (s.setF x v).ect = s.ect := rfl
@[simp] theorem State.setF_boot (s : State) (x : Fld) (v : Nat) : (s.setF x v).boot = s.boot := rfl
@[simp] theorem State.setF_pwr (s : State) (x : Fld) (v : Nat) : (s.setF x v).pwr = s.pwr := rfl
@[simp] theorem State.setF_otp (s : State) (x : Fld) (v : Nat) : (s.setF x v).otp = s.otp := rfl
@[simp] theorem State.setF_sec (s : State) (x : Fld) (v : Nat) : (s.setF x v).sec = s.sec := rfl
@[simp] theorem State.setF_tap (s : State) (x : Fld) (v : Nat) : (s.setF x v).tap = s.tap := rfl
@[simp] theorem State.setF_flt (s : State) (x : Fld) (v : Nat) : (s.setF x v).flt = s.flt := rfl
@[simp] theorem State.setF_hdg (s : State) (x : Fld) (v : Nat) : (s.setF x v).hdg = s.hdg := rfl
@[simp] theorem State.setF_evr (s : State) (x : Fld) (v : Nat) : (s.setF x v).evr = s.evr := rfl
@[simp] theorem State.setF_waiting (s : State) (x : Fld) (v : Nat) : (s.setF x v).waiting = s.waiting := rfl
@[simp] theorem State.setF_out (s : State) (x : Fld) (v : Nat) : (s.setF x v).out = s.out := rfl
@[simp] theorem State.setF_freeCtr (s : State) (x : Fld) (v : Nat) : (s.setF x v).freeCtr = s.freeCtr := rfl
@[simp] theorem State.setF_pending (s : State) (x : Fld) (v : Nat) : (s.setF x v).pending = s.pending := rfl
@[simp] theorem State.setF_marks (s : State) (x : Fld) (v : Nat) : (s.setF x v).marks = s.marks := rfl

/-! ## setB -/

@[simp] theorem State.setB_variant (s : State) (x : Fld) (v : Bool) : (s.setB x v).variant = s.variant := rfl
@[simp] theorem State.setB_now (s : State) (x : Fld) (v : Bool) : (s.setB x v).now = s.now := rfl
@[simp] theorem State.setB_work (s : State) (x : Fld) (v : Bool) : (s.setB x v).work = s.work := rfl
@[simp] theorem State.setB_objs (s : State) (x : Fld) (v : Bool) : (s.setB x v).objs = s.objs := rfl
@[simp] theorem State.setB_dram (s : State) (x : Fld) (v : Bool) : (s.setB x v).dram = s.dram := rfl
@[simp] theorem State.setB_tile (s : State) (x : Fld) (v : Bool) : (s.setB x v).tile = s.tile := rfl
@[simp] theorem State.setB_spool (s : State) (x : Fld) (v : Bool) : (s.setB x v).spool = s.spool := rfl
@[simp] theorem State.setB_pages (s : State) (x : Fld) (v : Bool) : (s.setB x v).pages = s.pages := rfl
@[simp] theorem State.setB_hif (s : State) (x : Fld) (v : Bool) : (s.setB x v).hif = s.hif := rfl
@[simp] theorem State.setB_sip (s : State) (x : Fld) (v : Bool) : (s.setB x v).sip = s.sip := rfl
@[simp] theorem State.setB_kor (s : State) (x : Fld) (v : Bool) : (s.setB x v).kor = s.kor := rfl
@[simp] theorem State.setB_cmp (s : State) (x : Fld) (v : Bool) : (s.setB x v).cmp = s.cmp := rfl
@[simp] theorem State.setB_flm (s : State) (x : Fld) (v : Bool) : (s.setB x v).flm = s.flm := rfl
@[simp] theorem State.setB_spl (s : State) (x : Fld) (v : Bool) : (s.setB x v).spl = s.spl := rfl
@[simp] theorem State.setB_scn (s : State) (x : Fld) (v : Bool) : (s.setB x v).scn = s.scn := rfl
@[simp] theorem State.setB_exp (s : State) (x : Fld) (v : Bool) : (s.setB x v).exp = s.exp := rfl
@[simp] theorem State.setB_ins (s : State) (x : Fld) (v : Bool) : (s.setB x v).ins = s.ins := rfl
@[simp] theorem State.setB_lpe (s : State) (x : Fld) (v : Bool) : (s.setB x v).lpe = s.lpe := rfl
@[simp] theorem State.setB_mot (s : State) (x : Fld) (v : Bool) : (s.setB x v).mot = s.mot := rfl
@[simp] theorem State.setB_lat (s : State) (x : Fld) (v : Bool) : (s.setB x v).lat = s.lat := rfl
@[simp] theorem State.setB_trn (s : State) (x : Fld) (v : Bool) : (s.setB x v).trn = s.trn := rfl
@[simp] theorem State.setB_cul (s : State) (x : Fld) (v : Bool) : (s.setB x v).cul = s.cul := rfl
@[simp] theorem State.setB_ect (s : State) (x : Fld) (v : Bool) : (s.setB x v).ect = s.ect := rfl
@[simp] theorem State.setB_boot (s : State) (x : Fld) (v : Bool) : (s.setB x v).boot = s.boot := rfl
@[simp] theorem State.setB_pwr (s : State) (x : Fld) (v : Bool) : (s.setB x v).pwr = s.pwr := rfl
@[simp] theorem State.setB_otp (s : State) (x : Fld) (v : Bool) : (s.setB x v).otp = s.otp := rfl
@[simp] theorem State.setB_sec (s : State) (x : Fld) (v : Bool) : (s.setB x v).sec = s.sec := rfl
@[simp] theorem State.setB_tap (s : State) (x : Fld) (v : Bool) : (s.setB x v).tap = s.tap := rfl
@[simp] theorem State.setB_flt (s : State) (x : Fld) (v : Bool) : (s.setB x v).flt = s.flt := rfl
@[simp] theorem State.setB_hdg (s : State) (x : Fld) (v : Bool) : (s.setB x v).hdg = s.hdg := rfl
@[simp] theorem State.setB_evr (s : State) (x : Fld) (v : Bool) : (s.setB x v).evr = s.evr := rfl
@[simp] theorem State.setB_waiting (s : State) (x : Fld) (v : Bool) : (s.setB x v).waiting = s.waiting := rfl
@[simp] theorem State.setB_out (s : State) (x : Fld) (v : Bool) : (s.setB x v).out = s.out := rfl
@[simp] theorem State.setB_freeCtr (s : State) (x : Fld) (v : Bool) : (s.setB x v).freeCtr = s.freeCtr := rfl
@[simp] theorem State.setB_pending (s : State) (x : Fld) (v : Bool) : (s.setB x v).pending = s.pending := rfl
@[simp] theorem State.setB_marks (s : State) (x : Fld) (v : Bool) : (s.setB x v).marks = s.marks := rfl

/-! ## satInc -/

@[simp] theorem State.satInc_variant (s : State) (x : Fld) (n : Nat) : (s.satInc x n).variant = s.variant := rfl
@[simp] theorem State.satInc_now (s : State) (x : Fld) (n : Nat) : (s.satInc x n).now = s.now := rfl
@[simp] theorem State.satInc_work (s : State) (x : Fld) (n : Nat) : (s.satInc x n).work = s.work := rfl
@[simp] theorem State.satInc_objs (s : State) (x : Fld) (n : Nat) : (s.satInc x n).objs = s.objs := rfl
@[simp] theorem State.satInc_dram (s : State) (x : Fld) (n : Nat) : (s.satInc x n).dram = s.dram := rfl
@[simp] theorem State.satInc_tile (s : State) (x : Fld) (n : Nat) : (s.satInc x n).tile = s.tile := rfl
@[simp] theorem State.satInc_spool (s : State) (x : Fld) (n : Nat) : (s.satInc x n).spool = s.spool := rfl
@[simp] theorem State.satInc_pages (s : State) (x : Fld) (n : Nat) : (s.satInc x n).pages = s.pages := rfl
@[simp] theorem State.satInc_hif (s : State) (x : Fld) (n : Nat) : (s.satInc x n).hif = s.hif := rfl
@[simp] theorem State.satInc_sip (s : State) (x : Fld) (n : Nat) : (s.satInc x n).sip = s.sip := rfl
@[simp] theorem State.satInc_kor (s : State) (x : Fld) (n : Nat) : (s.satInc x n).kor = s.kor := rfl
@[simp] theorem State.satInc_cmp (s : State) (x : Fld) (n : Nat) : (s.satInc x n).cmp = s.cmp := rfl
@[simp] theorem State.satInc_flm (s : State) (x : Fld) (n : Nat) : (s.satInc x n).flm = s.flm := rfl
@[simp] theorem State.satInc_spl (s : State) (x : Fld) (n : Nat) : (s.satInc x n).spl = s.spl := rfl
@[simp] theorem State.satInc_scn (s : State) (x : Fld) (n : Nat) : (s.satInc x n).scn = s.scn := rfl
@[simp] theorem State.satInc_exp (s : State) (x : Fld) (n : Nat) : (s.satInc x n).exp = s.exp := rfl
@[simp] theorem State.satInc_ins (s : State) (x : Fld) (n : Nat) : (s.satInc x n).ins = s.ins := rfl
@[simp] theorem State.satInc_lpe (s : State) (x : Fld) (n : Nat) : (s.satInc x n).lpe = s.lpe := rfl
@[simp] theorem State.satInc_mot (s : State) (x : Fld) (n : Nat) : (s.satInc x n).mot = s.mot := rfl
@[simp] theorem State.satInc_lat (s : State) (x : Fld) (n : Nat) : (s.satInc x n).lat = s.lat := rfl
@[simp] theorem State.satInc_trn (s : State) (x : Fld) (n : Nat) : (s.satInc x n).trn = s.trn := rfl
@[simp] theorem State.satInc_cul (s : State) (x : Fld) (n : Nat) : (s.satInc x n).cul = s.cul := rfl
@[simp] theorem State.satInc_ect (s : State) (x : Fld) (n : Nat) : (s.satInc x n).ect = s.ect := rfl
@[simp] theorem State.satInc_boot (s : State) (x : Fld) (n : Nat) : (s.satInc x n).boot = s.boot := rfl
@[simp] theorem State.satInc_pwr (s : State) (x : Fld) (n : Nat) : (s.satInc x n).pwr = s.pwr := rfl
@[simp] theorem State.satInc_otp (s : State) (x : Fld) (n : Nat) : (s.satInc x n).otp = s.otp := rfl
@[simp] theorem State.satInc_sec (s : State) (x : Fld) (n : Nat) : (s.satInc x n).sec = s.sec := rfl
@[simp] theorem State.satInc_tap (s : State) (x : Fld) (n : Nat) : (s.satInc x n).tap = s.tap := rfl
@[simp] theorem State.satInc_flt (s : State) (x : Fld) (n : Nat) : (s.satInc x n).flt = s.flt := rfl
@[simp] theorem State.satInc_hdg (s : State) (x : Fld) (n : Nat) : (s.satInc x n).hdg = s.hdg := rfl
@[simp] theorem State.satInc_evr (s : State) (x : Fld) (n : Nat) : (s.satInc x n).evr = s.evr := rfl
@[simp] theorem State.satInc_waiting (s : State) (x : Fld) (n : Nat) : (s.satInc x n).waiting = s.waiting := rfl
@[simp] theorem State.satInc_out (s : State) (x : Fld) (n : Nat) : (s.satInc x n).out = s.out := rfl
@[simp] theorem State.satInc_freeCtr (s : State) (x : Fld) (n : Nat) : (s.satInc x n).freeCtr = s.freeCtr := rfl
@[simp] theorem State.satInc_pending (s : State) (x : Fld) (n : Nat) : (s.satInc x n).pending = s.pending := rfl

/-! ## wrapInc -/

@[simp] theorem State.wrapInc_variant (s : State) (x : Fld) (n : Nat) : (s.wrapInc x n).variant = s.variant := rfl
@[simp] theorem State.wrapInc_now (s : State) (x : Fld) (n : Nat) : (s.wrapInc x n).now = s.now := rfl
@[simp] theorem State.wrapInc_work (s : State) (x : Fld) (n : Nat) : (s.wrapInc x n).work = s.work := rfl
@[simp] theorem State.wrapInc_objs (s : State) (x : Fld) (n : Nat) : (s.wrapInc x n).objs = s.objs := rfl
@[simp] theorem State.wrapInc_dram (s : State) (x : Fld) (n : Nat) : (s.wrapInc x n).dram = s.dram := rfl
@[simp] theorem State.wrapInc_tile (s : State) (x : Fld) (n : Nat) : (s.wrapInc x n).tile = s.tile := rfl
@[simp] theorem State.wrapInc_spool (s : State) (x : Fld) (n : Nat) : (s.wrapInc x n).spool = s.spool := rfl
@[simp] theorem State.wrapInc_pages (s : State) (x : Fld) (n : Nat) : (s.wrapInc x n).pages = s.pages := rfl
@[simp] theorem State.wrapInc_hif (s : State) (x : Fld) (n : Nat) : (s.wrapInc x n).hif = s.hif := rfl
@[simp] theorem State.wrapInc_sip (s : State) (x : Fld) (n : Nat) : (s.wrapInc x n).sip = s.sip := rfl
@[simp] theorem State.wrapInc_kor (s : State) (x : Fld) (n : Nat) : (s.wrapInc x n).kor = s.kor := rfl
@[simp] theorem State.wrapInc_cmp (s : State) (x : Fld) (n : Nat) : (s.wrapInc x n).cmp = s.cmp := rfl
@[simp] theorem State.wrapInc_flm (s : State) (x : Fld) (n : Nat) : (s.wrapInc x n).flm = s.flm := rfl
@[simp] theorem State.wrapInc_spl (s : State) (x : Fld) (n : Nat) : (s.wrapInc x n).spl = s.spl := rfl
@[simp] theorem State.wrapInc_scn (s : State) (x : Fld) (n : Nat) : (s.wrapInc x n).scn = s.scn := rfl
@[simp] theorem State.wrapInc_exp (s : State) (x : Fld) (n : Nat) : (s.wrapInc x n).exp = s.exp := rfl
@[simp] theorem State.wrapInc_ins (s : State) (x : Fld) (n : Nat) : (s.wrapInc x n).ins = s.ins := rfl
@[simp] theorem State.wrapInc_lpe (s : State) (x : Fld) (n : Nat) : (s.wrapInc x n).lpe = s.lpe := rfl
@[simp] theorem State.wrapInc_mot (s : State) (x : Fld) (n : Nat) : (s.wrapInc x n).mot = s.mot := rfl
@[simp] theorem State.wrapInc_lat (s : State) (x : Fld) (n : Nat) : (s.wrapInc x n).lat = s.lat := rfl
@[simp] theorem State.wrapInc_trn (s : State) (x : Fld) (n : Nat) : (s.wrapInc x n).trn = s.trn := rfl
@[simp] theorem State.wrapInc_cul (s : State) (x : Fld) (n : Nat) : (s.wrapInc x n).cul = s.cul := rfl
@[simp] theorem State.wrapInc_ect (s : State) (x : Fld) (n : Nat) : (s.wrapInc x n).ect = s.ect := rfl
@[simp] theorem State.wrapInc_boot (s : State) (x : Fld) (n : Nat) : (s.wrapInc x n).boot = s.boot := rfl
@[simp] theorem State.wrapInc_pwr (s : State) (x : Fld) (n : Nat) : (s.wrapInc x n).pwr = s.pwr := rfl
@[simp] theorem State.wrapInc_otp (s : State) (x : Fld) (n : Nat) : (s.wrapInc x n).otp = s.otp := rfl
@[simp] theorem State.wrapInc_sec (s : State) (x : Fld) (n : Nat) : (s.wrapInc x n).sec = s.sec := rfl
@[simp] theorem State.wrapInc_tap (s : State) (x : Fld) (n : Nat) : (s.wrapInc x n).tap = s.tap := rfl
@[simp] theorem State.wrapInc_flt (s : State) (x : Fld) (n : Nat) : (s.wrapInc x n).flt = s.flt := rfl
@[simp] theorem State.wrapInc_hdg (s : State) (x : Fld) (n : Nat) : (s.wrapInc x n).hdg = s.hdg := rfl
@[simp] theorem State.wrapInc_evr (s : State) (x : Fld) (n : Nat) : (s.wrapInc x n).evr = s.evr := rfl
@[simp] theorem State.wrapInc_waiting (s : State) (x : Fld) (n : Nat) : (s.wrapInc x n).waiting = s.waiting := rfl
@[simp] theorem State.wrapInc_out (s : State) (x : Fld) (n : Nat) : (s.wrapInc x n).out = s.out := rfl
@[simp] theorem State.wrapInc_freeCtr (s : State) (x : Fld) (n : Nat) : (s.wrapInc x n).freeCtr = s.freeCtr := rfl
@[simp] theorem State.wrapInc_pending (s : State) (x : Fld) (n : Nat) : (s.wrapInc x n).pending = s.pending := rfl

/-! ## mark -/

@[simp] theorem State.mark_variant (s : State) (what arg : Nat) : (s.mark what arg).variant = s.variant := rfl
@[simp] theorem State.mark_now (s : State) (what arg : Nat) : (s.mark what arg).now = s.now := rfl
@[simp] theorem State.mark_regs (s : State) (what arg : Nat) : (s.mark what arg).regs = s.regs := rfl
@[simp] theorem State.mark_work (s : State) (what arg : Nat) : (s.mark what arg).work = s.work := rfl
@[simp] theorem State.mark_objs (s : State) (what arg : Nat) : (s.mark what arg).objs = s.objs := rfl
@[simp] theorem State.mark_dram (s : State) (what arg : Nat) : (s.mark what arg).dram = s.dram := rfl
@[simp] theorem State.mark_tile (s : State) (what arg : Nat) : (s.mark what arg).tile = s.tile := rfl
@[simp] theorem State.mark_spool (s : State) (what arg : Nat) : (s.mark what arg).spool = s.spool := rfl
@[simp] theorem State.mark_pages (s : State) (what arg : Nat) : (s.mark what arg).pages = s.pages := rfl
@[simp] theorem State.mark_hif (s : State) (what arg : Nat) : (s.mark what arg).hif = s.hif := rfl
@[simp] theorem State.mark_sip (s : State) (what arg : Nat) : (s.mark what arg).sip = s.sip := rfl
@[simp] theorem State.mark_kor (s : State) (what arg : Nat) : (s.mark what arg).kor = s.kor := rfl
@[simp] theorem State.mark_cmp (s : State) (what arg : Nat) : (s.mark what arg).cmp = s.cmp := rfl
@[simp] theorem State.mark_flm (s : State) (what arg : Nat) : (s.mark what arg).flm = s.flm := rfl
@[simp] theorem State.mark_spl (s : State) (what arg : Nat) : (s.mark what arg).spl = s.spl := rfl
@[simp] theorem State.mark_scn (s : State) (what arg : Nat) : (s.mark what arg).scn = s.scn := rfl
@[simp] theorem State.mark_exp (s : State) (what arg : Nat) : (s.mark what arg).exp = s.exp := rfl
@[simp] theorem State.mark_ins (s : State) (what arg : Nat) : (s.mark what arg).ins = s.ins := rfl
@[simp] theorem State.mark_lpe (s : State) (what arg : Nat) : (s.mark what arg).lpe = s.lpe := rfl
@[simp] theorem State.mark_mot (s : State) (what arg : Nat) : (s.mark what arg).mot = s.mot := rfl
@[simp] theorem State.mark_lat (s : State) (what arg : Nat) : (s.mark what arg).lat = s.lat := rfl
@[simp] theorem State.mark_trn (s : State) (what arg : Nat) : (s.mark what arg).trn = s.trn := rfl
@[simp] theorem State.mark_cul (s : State) (what arg : Nat) : (s.mark what arg).cul = s.cul := rfl
@[simp] theorem State.mark_ect (s : State) (what arg : Nat) : (s.mark what arg).ect = s.ect := rfl
@[simp] theorem State.mark_boot (s : State) (what arg : Nat) : (s.mark what arg).boot = s.boot := rfl
@[simp] theorem State.mark_pwr (s : State) (what arg : Nat) : (s.mark what arg).pwr = s.pwr := rfl
@[simp] theorem State.mark_otp (s : State) (what arg : Nat) : (s.mark what arg).otp = s.otp := rfl
@[simp] theorem State.mark_sec (s : State) (what arg : Nat) : (s.mark what arg).sec = s.sec := rfl
@[simp] theorem State.mark_tap (s : State) (what arg : Nat) : (s.mark what arg).tap = s.tap := rfl
@[simp] theorem State.mark_flt (s : State) (what arg : Nat) : (s.mark what arg).flt = s.flt := rfl
@[simp] theorem State.mark_hdg (s : State) (what arg : Nat) : (s.mark what arg).hdg = s.hdg := rfl
@[simp] theorem State.mark_evr (s : State) (what arg : Nat) : (s.mark what arg).evr = s.evr := rfl
@[simp] theorem State.mark_waiting (s : State) (what arg : Nat) : (s.mark what arg).waiting = s.waiting := rfl
@[simp] theorem State.mark_out (s : State) (what arg : Nat) : (s.mark what arg).out = s.out := rfl
@[simp] theorem State.mark_freeCtr (s : State) (what arg : Nat) : (s.mark what arg).freeCtr = s.freeCtr := rfl
@[simp] theorem State.mark_pending (s : State) (what arg : Nat) : (s.mark what arg).pending = s.pending := rfl

/-! ## raise -/

@[simp] theorem State.raise_variant (s : State) (x : Fld) : (s.raise x).variant = s.variant := rfl
@[simp] theorem State.raise_now (s : State) (x : Fld) : (s.raise x).now = s.now := rfl
@[simp] theorem State.raise_work (s : State) (x : Fld) : (s.raise x).work = s.work := rfl
@[simp] theorem State.raise_objs (s : State) (x : Fld) : (s.raise x).objs = s.objs := rfl
@[simp] theorem State.raise_dram (s : State) (x : Fld) : (s.raise x).dram = s.dram := rfl
@[simp] theorem State.raise_tile (s : State) (x : Fld) : (s.raise x).tile = s.tile := rfl
@[simp] theorem State.raise_spool (s : State) (x : Fld) : (s.raise x).spool = s.spool := rfl
@[simp] theorem State.raise_pages (s : State) (x : Fld) : (s.raise x).pages = s.pages := rfl
@[simp] theorem State.raise_hif (s : State) (x : Fld) : (s.raise x).hif = s.hif := rfl
@[simp] theorem State.raise_sip (s : State) (x : Fld) : (s.raise x).sip = s.sip := rfl
@[simp] theorem State.raise_kor (s : State) (x : Fld) : (s.raise x).kor = s.kor := rfl
@[simp] theorem State.raise_cmp (s : State) (x : Fld) : (s.raise x).cmp = s.cmp := rfl
@[simp] theorem State.raise_flm (s : State) (x : Fld) : (s.raise x).flm = s.flm := rfl
@[simp] theorem State.raise_spl (s : State) (x : Fld) : (s.raise x).spl = s.spl := rfl
@[simp] theorem State.raise_scn (s : State) (x : Fld) : (s.raise x).scn = s.scn := rfl
@[simp] theorem State.raise_exp (s : State) (x : Fld) : (s.raise x).exp = s.exp := rfl
@[simp] theorem State.raise_ins (s : State) (x : Fld) : (s.raise x).ins = s.ins := rfl
@[simp] theorem State.raise_lpe (s : State) (x : Fld) : (s.raise x).lpe = s.lpe := rfl
@[simp] theorem State.raise_mot (s : State) (x : Fld) : (s.raise x).mot = s.mot := rfl
@[simp] theorem State.raise_lat (s : State) (x : Fld) : (s.raise x).lat = s.lat := rfl
@[simp] theorem State.raise_trn (s : State) (x : Fld) : (s.raise x).trn = s.trn := rfl
@[simp] theorem State.raise_cul (s : State) (x : Fld) : (s.raise x).cul = s.cul := rfl
@[simp] theorem State.raise_ect (s : State) (x : Fld) : (s.raise x).ect = s.ect := rfl
@[simp] theorem State.raise_boot (s : State) (x : Fld) : (s.raise x).boot = s.boot := rfl
@[simp] theorem State.raise_pwr (s : State) (x : Fld) : (s.raise x).pwr = s.pwr := rfl
@[simp] theorem State.raise_otp (s : State) (x : Fld) : (s.raise x).otp = s.otp := rfl
@[simp] theorem State.raise_sec (s : State) (x : Fld) : (s.raise x).sec = s.sec := rfl
@[simp] theorem State.raise_tap (s : State) (x : Fld) : (s.raise x).tap = s.tap := rfl
@[simp] theorem State.raise_flt (s : State) (x : Fld) : (s.raise x).flt = s.flt := rfl
@[simp] theorem State.raise_hdg (s : State) (x : Fld) : (s.raise x).hdg = s.hdg := rfl
@[simp] theorem State.raise_evr (s : State) (x : Fld) : (s.raise x).evr = s.evr := rfl
@[simp] theorem State.raise_waiting (s : State) (x : Fld) : (s.raise x).waiting = s.waiting := rfl
@[simp] theorem State.raise_out (s : State) (x : Fld) : (s.raise x).out = s.out := rfl
@[simp] theorem State.raise_freeCtr (s : State) (x : Fld) : (s.raise x).freeCtr = s.freeCtr := rfl
@[simp] theorem State.raise_pending (s : State) (x : Fld) : (s.raise x).pending = s.pending := rfl

/-! ## set64 -/

@[simp] theorem State.set64_variant (s : State) (lo v : Nat) : (s.set64 lo v).variant = s.variant := rfl
@[simp] theorem State.set64_now (s : State) (lo v : Nat) : (s.set64 lo v).now = s.now := rfl
@[simp] theorem State.set64_work (s : State) (lo v : Nat) : (s.set64 lo v).work = s.work := rfl
@[simp] theorem State.set64_objs (s : State) (lo v : Nat) : (s.set64 lo v).objs = s.objs := rfl
@[simp] theorem State.set64_dram (s : State) (lo v : Nat) : (s.set64 lo v).dram = s.dram := rfl
@[simp] theorem State.set64_tile (s : State) (lo v : Nat) : (s.set64 lo v).tile = s.tile := rfl
@[simp] theorem State.set64_spool (s : State) (lo v : Nat) : (s.set64 lo v).spool = s.spool := rfl
@[simp] theorem State.set64_pages (s : State) (lo v : Nat) : (s.set64 lo v).pages = s.pages := rfl
@[simp] theorem State.set64_hif (s : State) (lo v : Nat) : (s.set64 lo v).hif = s.hif := rfl
@[simp] theorem State.set64_sip (s : State) (lo v : Nat) : (s.set64 lo v).sip = s.sip := rfl
@[simp] theorem State.set64_kor (s : State) (lo v : Nat) : (s.set64 lo v).kor = s.kor := rfl
@[simp] theorem State.set64_cmp (s : State) (lo v : Nat) : (s.set64 lo v).cmp = s.cmp := rfl
@[simp] theorem State.set64_flm (s : State) (lo v : Nat) : (s.set64 lo v).flm = s.flm := rfl
@[simp] theorem State.set64_spl (s : State) (lo v : Nat) : (s.set64 lo v).spl = s.spl := rfl
@[simp] theorem State.set64_scn (s : State) (lo v : Nat) : (s.set64 lo v).scn = s.scn := rfl
@[simp] theorem State.set64_exp (s : State) (lo v : Nat) : (s.set64 lo v).exp = s.exp := rfl
@[simp] theorem State.set64_ins (s : State) (lo v : Nat) : (s.set64 lo v).ins = s.ins := rfl
@[simp] theorem State.set64_lpe (s : State) (lo v : Nat) : (s.set64 lo v).lpe = s.lpe := rfl
@[simp] theorem State.set64_mot (s : State) (lo v : Nat) : (s.set64 lo v).mot = s.mot := rfl
@[simp] theorem State.set64_lat (s : State) (lo v : Nat) : (s.set64 lo v).lat = s.lat := rfl
@[simp] theorem State.set64_trn (s : State) (lo v : Nat) : (s.set64 lo v).trn = s.trn := rfl
@[simp] theorem State.set64_cul (s : State) (lo v : Nat) : (s.set64 lo v).cul = s.cul := rfl
@[simp] theorem State.set64_ect (s : State) (lo v : Nat) : (s.set64 lo v).ect = s.ect := rfl
@[simp] theorem State.set64_boot (s : State) (lo v : Nat) : (s.set64 lo v).boot = s.boot := rfl
@[simp] theorem State.set64_pwr (s : State) (lo v : Nat) : (s.set64 lo v).pwr = s.pwr := rfl
@[simp] theorem State.set64_otp (s : State) (lo v : Nat) : (s.set64 lo v).otp = s.otp := rfl
@[simp] theorem State.set64_sec (s : State) (lo v : Nat) : (s.set64 lo v).sec = s.sec := rfl
@[simp] theorem State.set64_tap (s : State) (lo v : Nat) : (s.set64 lo v).tap = s.tap := rfl
@[simp] theorem State.set64_flt (s : State) (lo v : Nat) : (s.set64 lo v).flt = s.flt := rfl
@[simp] theorem State.set64_hdg (s : State) (lo v : Nat) : (s.set64 lo v).hdg = s.hdg := rfl
@[simp] theorem State.set64_evr (s : State) (lo v : Nat) : (s.set64 lo v).evr = s.evr := rfl
@[simp] theorem State.set64_waiting (s : State) (lo v : Nat) : (s.set64 lo v).waiting = s.waiting := rfl
@[simp] theorem State.set64_out (s : State) (lo v : Nat) : (s.set64 lo v).out = s.out := rfl
@[simp] theorem State.set64_freeCtr (s : State) (lo v : Nat) : (s.set64 lo v).freeCtr = s.freeCtr := rfl
@[simp] theorem State.set64_pending (s : State) (lo v : Nat) : (s.set64 lo v).pending = s.pending := rfl
@[simp] theorem State.set64_marks (s : State) (lo v : Nat) : (s.set64 lo v).marks = s.marks := rfl

/-! ## resetRegs -/

@[simp] theorem State.resetRegs_variant (s : State) (lo hi : Nat) : (s.resetRegs lo hi).variant = s.variant := rfl
@[simp] theorem State.resetRegs_now (s : State) (lo hi : Nat) : (s.resetRegs lo hi).now = s.now := rfl
@[simp] theorem State.resetRegs_work (s : State) (lo hi : Nat) : (s.resetRegs lo hi).work = s.work := rfl
@[simp] theorem State.resetRegs_objs (s : State) (lo hi : Nat) : (s.resetRegs lo hi).objs = s.objs := rfl
@[simp] theorem State.resetRegs_dram (s : State) (lo hi : Nat) : (s.resetRegs lo hi).dram = s.dram := rfl
@[simp] theorem State.resetRegs_tile (s : State) (lo hi : Nat) : (s.resetRegs lo hi).tile = s.tile := rfl
@[simp] theorem State.resetRegs_spool (s : State) (lo hi : Nat) : (s.resetRegs lo hi).spool = s.spool := rfl
@[simp] theorem State.resetRegs_pages (s : State) (lo hi : Nat) : (s.resetRegs lo hi).pages = s.pages := rfl
@[simp] theorem State.resetRegs_hif (s : State) (lo hi : Nat) : (s.resetRegs lo hi).hif = s.hif := rfl
@[simp] theorem State.resetRegs_sip (s : State) (lo hi : Nat) : (s.resetRegs lo hi).sip = s.sip := rfl
@[simp] theorem State.resetRegs_kor (s : State) (lo hi : Nat) : (s.resetRegs lo hi).kor = s.kor := rfl
@[simp] theorem State.resetRegs_cmp (s : State) (lo hi : Nat) : (s.resetRegs lo hi).cmp = s.cmp := rfl
@[simp] theorem State.resetRegs_flm (s : State) (lo hi : Nat) : (s.resetRegs lo hi).flm = s.flm := rfl
@[simp] theorem State.resetRegs_spl (s : State) (lo hi : Nat) : (s.resetRegs lo hi).spl = s.spl := rfl
@[simp] theorem State.resetRegs_scn (s : State) (lo hi : Nat) : (s.resetRegs lo hi).scn = s.scn := rfl
@[simp] theorem State.resetRegs_exp (s : State) (lo hi : Nat) : (s.resetRegs lo hi).exp = s.exp := rfl
@[simp] theorem State.resetRegs_ins (s : State) (lo hi : Nat) : (s.resetRegs lo hi).ins = s.ins := rfl
@[simp] theorem State.resetRegs_lpe (s : State) (lo hi : Nat) : (s.resetRegs lo hi).lpe = s.lpe := rfl
@[simp] theorem State.resetRegs_mot (s : State) (lo hi : Nat) : (s.resetRegs lo hi).mot = s.mot := rfl
@[simp] theorem State.resetRegs_lat (s : State) (lo hi : Nat) : (s.resetRegs lo hi).lat = s.lat := rfl
@[simp] theorem State.resetRegs_trn (s : State) (lo hi : Nat) : (s.resetRegs lo hi).trn = s.trn := rfl
@[simp] theorem State.resetRegs_cul (s : State) (lo hi : Nat) : (s.resetRegs lo hi).cul = s.cul := rfl
@[simp] theorem State.resetRegs_ect (s : State) (lo hi : Nat) : (s.resetRegs lo hi).ect = s.ect := rfl
@[simp] theorem State.resetRegs_boot (s : State) (lo hi : Nat) : (s.resetRegs lo hi).boot = s.boot := rfl
@[simp] theorem State.resetRegs_pwr (s : State) (lo hi : Nat) : (s.resetRegs lo hi).pwr = s.pwr := rfl
@[simp] theorem State.resetRegs_otp (s : State) (lo hi : Nat) : (s.resetRegs lo hi).otp = s.otp := rfl
@[simp] theorem State.resetRegs_sec (s : State) (lo hi : Nat) : (s.resetRegs lo hi).sec = s.sec := rfl
@[simp] theorem State.resetRegs_tap (s : State) (lo hi : Nat) : (s.resetRegs lo hi).tap = s.tap := rfl
@[simp] theorem State.resetRegs_flt (s : State) (lo hi : Nat) : (s.resetRegs lo hi).flt = s.flt := rfl
@[simp] theorem State.resetRegs_hdg (s : State) (lo hi : Nat) : (s.resetRegs lo hi).hdg = s.hdg := rfl
@[simp] theorem State.resetRegs_evr (s : State) (lo hi : Nat) : (s.resetRegs lo hi).evr = s.evr := rfl
@[simp] theorem State.resetRegs_waiting (s : State) (lo hi : Nat) : (s.resetRegs lo hi).waiting = s.waiting := rfl
@[simp] theorem State.resetRegs_out (s : State) (lo hi : Nat) : (s.resetRegs lo hi).out = s.out := rfl
@[simp] theorem State.resetRegs_freeCtr (s : State) (lo hi : Nat) : (s.resetRegs lo hi).freeCtr = s.freeCtr := rfl
@[simp] theorem State.resetRegs_pending (s : State) (lo hi : Nat) : (s.resetRegs lo hi).pending = s.pending := rfl
@[simp] theorem State.resetRegs_marks (s : State) (lo hi : Nat) : (s.resetRegs lo hi).marks = s.marks := rfl

/-! ## setWork -/

@[simp] theorem State.setWork_variant (s : State) (off : Nat) (w : Word) : (s.setWork off w).variant = s.variant := rfl
@[simp] theorem State.setWork_now (s : State) (off : Nat) (w : Word) : (s.setWork off w).now = s.now := rfl
@[simp] theorem State.setWork_regs (s : State) (off : Nat) (w : Word) : (s.setWork off w).regs = s.regs := rfl
@[simp] theorem State.setWork_objs (s : State) (off : Nat) (w : Word) : (s.setWork off w).objs = s.objs := rfl
@[simp] theorem State.setWork_dram (s : State) (off : Nat) (w : Word) : (s.setWork off w).dram = s.dram := rfl
@[simp] theorem State.setWork_tile (s : State) (off : Nat) (w : Word) : (s.setWork off w).tile = s.tile := rfl
@[simp] theorem State.setWork_spool (s : State) (off : Nat) (w : Word) : (s.setWork off w).spool = s.spool := rfl
@[simp] theorem State.setWork_pages (s : State) (off : Nat) (w : Word) : (s.setWork off w).pages = s.pages := rfl
@[simp] theorem State.setWork_hif (s : State) (off : Nat) (w : Word) : (s.setWork off w).hif = s.hif := rfl
@[simp] theorem State.setWork_sip (s : State) (off : Nat) (w : Word) : (s.setWork off w).sip = s.sip := rfl
@[simp] theorem State.setWork_kor (s : State) (off : Nat) (w : Word) : (s.setWork off w).kor = s.kor := rfl
@[simp] theorem State.setWork_cmp (s : State) (off : Nat) (w : Word) : (s.setWork off w).cmp = s.cmp := rfl
@[simp] theorem State.setWork_flm (s : State) (off : Nat) (w : Word) : (s.setWork off w).flm = s.flm := rfl
@[simp] theorem State.setWork_spl (s : State) (off : Nat) (w : Word) : (s.setWork off w).spl = s.spl := rfl
@[simp] theorem State.setWork_scn (s : State) (off : Nat) (w : Word) : (s.setWork off w).scn = s.scn := rfl
@[simp] theorem State.setWork_exp (s : State) (off : Nat) (w : Word) : (s.setWork off w).exp = s.exp := rfl
@[simp] theorem State.setWork_ins (s : State) (off : Nat) (w : Word) : (s.setWork off w).ins = s.ins := rfl
@[simp] theorem State.setWork_lpe (s : State) (off : Nat) (w : Word) : (s.setWork off w).lpe = s.lpe := rfl
@[simp] theorem State.setWork_mot (s : State) (off : Nat) (w : Word) : (s.setWork off w).mot = s.mot := rfl
@[simp] theorem State.setWork_lat (s : State) (off : Nat) (w : Word) : (s.setWork off w).lat = s.lat := rfl
@[simp] theorem State.setWork_trn (s : State) (off : Nat) (w : Word) : (s.setWork off w).trn = s.trn := rfl
@[simp] theorem State.setWork_cul (s : State) (off : Nat) (w : Word) : (s.setWork off w).cul = s.cul := rfl
@[simp] theorem State.setWork_ect (s : State) (off : Nat) (w : Word) : (s.setWork off w).ect = s.ect := rfl
@[simp] theorem State.setWork_boot (s : State) (off : Nat) (w : Word) : (s.setWork off w).boot = s.boot := rfl
@[simp] theorem State.setWork_pwr (s : State) (off : Nat) (w : Word) : (s.setWork off w).pwr = s.pwr := rfl
@[simp] theorem State.setWork_otp (s : State) (off : Nat) (w : Word) : (s.setWork off w).otp = s.otp := rfl
@[simp] theorem State.setWork_sec (s : State) (off : Nat) (w : Word) : (s.setWork off w).sec = s.sec := rfl
@[simp] theorem State.setWork_tap (s : State) (off : Nat) (w : Word) : (s.setWork off w).tap = s.tap := rfl
@[simp] theorem State.setWork_flt (s : State) (off : Nat) (w : Word) : (s.setWork off w).flt = s.flt := rfl
@[simp] theorem State.setWork_hdg (s : State) (off : Nat) (w : Word) : (s.setWork off w).hdg = s.hdg := rfl
@[simp] theorem State.setWork_evr (s : State) (off : Nat) (w : Word) : (s.setWork off w).evr = s.evr := rfl
@[simp] theorem State.setWork_waiting (s : State) (off : Nat) (w : Word) : (s.setWork off w).waiting = s.waiting := rfl
@[simp] theorem State.setWork_out (s : State) (off : Nat) (w : Word) : (s.setWork off w).out = s.out := rfl
@[simp] theorem State.setWork_freeCtr (s : State) (off : Nat) (w : Word) : (s.setWork off w).freeCtr = s.freeCtr := rfl
@[simp] theorem State.setWork_pending (s : State) (off : Nat) (w : Word) : (s.setWork off w).pending = s.pending := rfl
@[simp] theorem State.setWork_marks (s : State) (off : Nat) (w : Word) : (s.setWork off w).marks = s.marks := rfl

/-! ## takeShadow -/

@[simp] theorem State.takeShadow_variant (s : State) (off : Nat) : (s.takeShadow off).variant = s.variant := rfl
@[simp] theorem State.takeShadow_now (s : State) (off : Nat) : (s.takeShadow off).now = s.now := rfl
@[simp] theorem State.takeShadow_regs (s : State) (off : Nat) : (s.takeShadow off).regs = s.regs := rfl
@[simp] theorem State.takeShadow_objs (s : State) (off : Nat) : (s.takeShadow off).objs = s.objs := rfl
@[simp] theorem State.takeShadow_dram (s : State) (off : Nat) : (s.takeShadow off).dram = s.dram := rfl
@[simp] theorem State.takeShadow_tile (s : State) (off : Nat) : (s.takeShadow off).tile = s.tile := rfl
@[simp] theorem State.takeShadow_spool (s : State) (off : Nat) : (s.takeShadow off).spool = s.spool := rfl
@[simp] theorem State.takeShadow_pages (s : State) (off : Nat) : (s.takeShadow off).pages = s.pages := rfl
@[simp] theorem State.takeShadow_hif (s : State) (off : Nat) : (s.takeShadow off).hif = s.hif := rfl
@[simp] theorem State.takeShadow_sip (s : State) (off : Nat) : (s.takeShadow off).sip = s.sip := rfl
@[simp] theorem State.takeShadow_kor (s : State) (off : Nat) : (s.takeShadow off).kor = s.kor := rfl
@[simp] theorem State.takeShadow_cmp (s : State) (off : Nat) : (s.takeShadow off).cmp = s.cmp := rfl
@[simp] theorem State.takeShadow_flm (s : State) (off : Nat) : (s.takeShadow off).flm = s.flm := rfl
@[simp] theorem State.takeShadow_spl (s : State) (off : Nat) : (s.takeShadow off).spl = s.spl := rfl
@[simp] theorem State.takeShadow_scn (s : State) (off : Nat) : (s.takeShadow off).scn = s.scn := rfl
@[simp] theorem State.takeShadow_exp (s : State) (off : Nat) : (s.takeShadow off).exp = s.exp := rfl
@[simp] theorem State.takeShadow_ins (s : State) (off : Nat) : (s.takeShadow off).ins = s.ins := rfl
@[simp] theorem State.takeShadow_lpe (s : State) (off : Nat) : (s.takeShadow off).lpe = s.lpe := rfl
@[simp] theorem State.takeShadow_mot (s : State) (off : Nat) : (s.takeShadow off).mot = s.mot := rfl
@[simp] theorem State.takeShadow_lat (s : State) (off : Nat) : (s.takeShadow off).lat = s.lat := rfl
@[simp] theorem State.takeShadow_trn (s : State) (off : Nat) : (s.takeShadow off).trn = s.trn := rfl
@[simp] theorem State.takeShadow_cul (s : State) (off : Nat) : (s.takeShadow off).cul = s.cul := rfl
@[simp] theorem State.takeShadow_ect (s : State) (off : Nat) : (s.takeShadow off).ect = s.ect := rfl
@[simp] theorem State.takeShadow_boot (s : State) (off : Nat) : (s.takeShadow off).boot = s.boot := rfl
@[simp] theorem State.takeShadow_pwr (s : State) (off : Nat) : (s.takeShadow off).pwr = s.pwr := rfl
@[simp] theorem State.takeShadow_otp (s : State) (off : Nat) : (s.takeShadow off).otp = s.otp := rfl
@[simp] theorem State.takeShadow_sec (s : State) (off : Nat) : (s.takeShadow off).sec = s.sec := rfl
@[simp] theorem State.takeShadow_tap (s : State) (off : Nat) : (s.takeShadow off).tap = s.tap := rfl
@[simp] theorem State.takeShadow_flt (s : State) (off : Nat) : (s.takeShadow off).flt = s.flt := rfl
@[simp] theorem State.takeShadow_hdg (s : State) (off : Nat) : (s.takeShadow off).hdg = s.hdg := rfl
@[simp] theorem State.takeShadow_evr (s : State) (off : Nat) : (s.takeShadow off).evr = s.evr := rfl
@[simp] theorem State.takeShadow_waiting (s : State) (off : Nat) : (s.takeShadow off).waiting = s.waiting := rfl
@[simp] theorem State.takeShadow_out (s : State) (off : Nat) : (s.takeShadow off).out = s.out := rfl
@[simp] theorem State.takeShadow_freeCtr (s : State) (off : Nat) : (s.takeShadow off).freeCtr = s.freeCtr := rfl
@[simp] theorem State.takeShadow_pending (s : State) (off : Nat) : (s.takeShadow off).pending = s.pending := rfl
@[simp] theorem State.takeShadow_marks (s : State) (off : Nat) : (s.takeShadow off).marks = s.marks := rfl

/-! ## setObj -/

@[simp] theorem State.setObj_variant (s : State) (i b v : Nat) : (s.setObj i b v).variant = s.variant := rfl
@[simp] theorem State.setObj_now (s : State) (i b v : Nat) : (s.setObj i b v).now = s.now := rfl
@[simp] theorem State.setObj_regs (s : State) (i b v : Nat) : (s.setObj i b v).regs = s.regs := rfl
@[simp] theorem State.setObj_work (s : State) (i b v : Nat) : (s.setObj i b v).work = s.work := rfl
@[simp] theorem State.setObj_dram (s : State) (i b v : Nat) : (s.setObj i b v).dram = s.dram := rfl
@[simp] theorem State.setObj_tile (s : State) (i b v : Nat) : (s.setObj i b v).tile = s.tile := rfl
@[simp] theorem State.setObj_spool (s : State) (i b v : Nat) : (s.setObj i b v).spool = s.spool := rfl
@[simp] theorem State.setObj_pages (s : State) (i b v : Nat) : (s.setObj i b v).pages = s.pages := rfl
@[simp] theorem State.setObj_hif (s : State) (i b v : Nat) : (s.setObj i b v).hif = s.hif := rfl
@[simp] theorem State.setObj_sip (s : State) (i b v : Nat) : (s.setObj i b v).sip = s.sip := rfl
@[simp] theorem State.setObj_kor (s : State) (i b v : Nat) : (s.setObj i b v).kor = s.kor := rfl
@[simp] theorem State.setObj_cmp (s : State) (i b v : Nat) : (s.setObj i b v).cmp = s.cmp := rfl
@[simp] theorem State.setObj_flm (s : State) (i b v : Nat) : (s.setObj i b v).flm = s.flm := rfl
@[simp] theorem State.setObj_spl (s : State) (i b v : Nat) : (s.setObj i b v).spl = s.spl := rfl
@[simp] theorem State.setObj_scn (s : State) (i b v : Nat) : (s.setObj i b v).scn = s.scn := rfl
@[simp] theorem State.setObj_exp (s : State) (i b v : Nat) : (s.setObj i b v).exp = s.exp := rfl
@[simp] theorem State.setObj_ins (s : State) (i b v : Nat) : (s.setObj i b v).ins = s.ins := rfl
@[simp] theorem State.setObj_lpe (s : State) (i b v : Nat) : (s.setObj i b v).lpe = s.lpe := rfl
@[simp] theorem State.setObj_mot (s : State) (i b v : Nat) : (s.setObj i b v).mot = s.mot := rfl
@[simp] theorem State.setObj_lat (s : State) (i b v : Nat) : (s.setObj i b v).lat = s.lat := rfl
@[simp] theorem State.setObj_trn (s : State) (i b v : Nat) : (s.setObj i b v).trn = s.trn := rfl
@[simp] theorem State.setObj_cul (s : State) (i b v : Nat) : (s.setObj i b v).cul = s.cul := rfl
@[simp] theorem State.setObj_ect (s : State) (i b v : Nat) : (s.setObj i b v).ect = s.ect := rfl
@[simp] theorem State.setObj_boot (s : State) (i b v : Nat) : (s.setObj i b v).boot = s.boot := rfl
@[simp] theorem State.setObj_pwr (s : State) (i b v : Nat) : (s.setObj i b v).pwr = s.pwr := rfl
@[simp] theorem State.setObj_otp (s : State) (i b v : Nat) : (s.setObj i b v).otp = s.otp := rfl
@[simp] theorem State.setObj_sec (s : State) (i b v : Nat) : (s.setObj i b v).sec = s.sec := rfl
@[simp] theorem State.setObj_tap (s : State) (i b v : Nat) : (s.setObj i b v).tap = s.tap := rfl
@[simp] theorem State.setObj_flt (s : State) (i b v : Nat) : (s.setObj i b v).flt = s.flt := rfl
@[simp] theorem State.setObj_hdg (s : State) (i b v : Nat) : (s.setObj i b v).hdg = s.hdg := rfl
@[simp] theorem State.setObj_evr (s : State) (i b v : Nat) : (s.setObj i b v).evr = s.evr := rfl
@[simp] theorem State.setObj_waiting (s : State) (i b v : Nat) : (s.setObj i b v).waiting = s.waiting := rfl
@[simp] theorem State.setObj_out (s : State) (i b v : Nat) : (s.setObj i b v).out = s.out := rfl
@[simp] theorem State.setObj_freeCtr (s : State) (i b v : Nat) : (s.setObj i b v).freeCtr = s.freeCtr := rfl
@[simp] theorem State.setObj_pending (s : State) (i b v : Nat) : (s.setObj i b v).pending = s.pending := rfl
@[simp] theorem State.setObj_marks (s : State) (i b v : Nat) : (s.setObj i b v).marks = s.marks := rfl

/-! ## setFn -/

@[simp] theorem State.setFn_variant (s : State) (fn : Nat) (x : FnState) : (s.setFn fn x).variant = s.variant := rfl
@[simp] theorem State.setFn_now (s : State) (fn : Nat) (x : FnState) : (s.setFn fn x).now = s.now := rfl
@[simp] theorem State.setFn_regs (s : State) (fn : Nat) (x : FnState) : (s.setFn fn x).regs = s.regs := rfl
@[simp] theorem State.setFn_work (s : State) (fn : Nat) (x : FnState) : (s.setFn fn x).work = s.work := rfl
@[simp] theorem State.setFn_objs (s : State) (fn : Nat) (x : FnState) : (s.setFn fn x).objs = s.objs := rfl
@[simp] theorem State.setFn_dram (s : State) (fn : Nat) (x : FnState) : (s.setFn fn x).dram = s.dram := rfl
@[simp] theorem State.setFn_tile (s : State) (fn : Nat) (x : FnState) : (s.setFn fn x).tile = s.tile := rfl
@[simp] theorem State.setFn_spool (s : State) (fn : Nat) (x : FnState) : (s.setFn fn x).spool = s.spool := rfl
@[simp] theorem State.setFn_pages (s : State) (fn : Nat) (x : FnState) : (s.setFn fn x).pages = s.pages := rfl
@[simp] theorem State.setFn_sip (s : State) (fn : Nat) (x : FnState) : (s.setFn fn x).sip = s.sip := rfl
@[simp] theorem State.setFn_kor (s : State) (fn : Nat) (x : FnState) : (s.setFn fn x).kor = s.kor := rfl
@[simp] theorem State.setFn_cmp (s : State) (fn : Nat) (x : FnState) : (s.setFn fn x).cmp = s.cmp := rfl
@[simp] theorem State.setFn_flm (s : State) (fn : Nat) (x : FnState) : (s.setFn fn x).flm = s.flm := rfl
@[simp] theorem State.setFn_spl (s : State) (fn : Nat) (x : FnState) : (s.setFn fn x).spl = s.spl := rfl
@[simp] theorem State.setFn_scn (s : State) (fn : Nat) (x : FnState) : (s.setFn fn x).scn = s.scn := rfl
@[simp] theorem State.setFn_exp (s : State) (fn : Nat) (x : FnState) : (s.setFn fn x).exp = s.exp := rfl
@[simp] theorem State.setFn_ins (s : State) (fn : Nat) (x : FnState) : (s.setFn fn x).ins = s.ins := rfl
@[simp] theorem State.setFn_lpe (s : State) (fn : Nat) (x : FnState) : (s.setFn fn x).lpe = s.lpe := rfl
@[simp] theorem State.setFn_mot (s : State) (fn : Nat) (x : FnState) : (s.setFn fn x).mot = s.mot := rfl
@[simp] theorem State.setFn_lat (s : State) (fn : Nat) (x : FnState) : (s.setFn fn x).lat = s.lat := rfl
@[simp] theorem State.setFn_trn (s : State) (fn : Nat) (x : FnState) : (s.setFn fn x).trn = s.trn := rfl
@[simp] theorem State.setFn_cul (s : State) (fn : Nat) (x : FnState) : (s.setFn fn x).cul = s.cul := rfl
@[simp] theorem State.setFn_ect (s : State) (fn : Nat) (x : FnState) : (s.setFn fn x).ect = s.ect := rfl
@[simp] theorem State.setFn_boot (s : State) (fn : Nat) (x : FnState) : (s.setFn fn x).boot = s.boot := rfl
@[simp] theorem State.setFn_pwr (s : State) (fn : Nat) (x : FnState) : (s.setFn fn x).pwr = s.pwr := rfl
@[simp] theorem State.setFn_otp (s : State) (fn : Nat) (x : FnState) : (s.setFn fn x).otp = s.otp := rfl
@[simp] theorem State.setFn_sec (s : State) (fn : Nat) (x : FnState) : (s.setFn fn x).sec = s.sec := rfl
@[simp] theorem State.setFn_tap (s : State) (fn : Nat) (x : FnState) : (s.setFn fn x).tap = s.tap := rfl
@[simp] theorem State.setFn_flt (s : State) (fn : Nat) (x : FnState) : (s.setFn fn x).flt = s.flt := rfl
@[simp] theorem State.setFn_hdg (s : State) (fn : Nat) (x : FnState) : (s.setFn fn x).hdg = s.hdg := rfl
@[simp] theorem State.setFn_evr (s : State) (fn : Nat) (x : FnState) : (s.setFn fn x).evr = s.evr := rfl
@[simp] theorem State.setFn_waiting (s : State) (fn : Nat) (x : FnState) : (s.setFn fn x).waiting = s.waiting := rfl
@[simp] theorem State.setFn_out (s : State) (fn : Nat) (x : FnState) : (s.setFn fn x).out = s.out := rfl
@[simp] theorem State.setFn_freeCtr (s : State) (fn : Nat) (x : FnState) : (s.setFn fn x).freeCtr = s.freeCtr := rfl
@[simp] theorem State.setFn_pending (s : State) (fn : Nat) (x : FnState) : (s.setFn fn x).pending = s.pending := rfl
@[simp] theorem State.setFn_marks (s : State) (fn : Nat) (x : FnState) : (s.setFn fn x).marks = s.marks := rfl

/-! ## emit -/

@[simp] theorem State.emit_variant (s : State) (o : Output) : (s.emit o).variant = s.variant := rfl
@[simp] theorem State.emit_now (s : State) (o : Output) : (s.emit o).now = s.now := rfl
@[simp] theorem State.emit_regs (s : State) (o : Output) : (s.emit o).regs = s.regs := rfl
@[simp] theorem State.emit_work (s : State) (o : Output) : (s.emit o).work = s.work := rfl
@[simp] theorem State.emit_objs (s : State) (o : Output) : (s.emit o).objs = s.objs := rfl
@[simp] theorem State.emit_dram (s : State) (o : Output) : (s.emit o).dram = s.dram := rfl
@[simp] theorem State.emit_tile (s : State) (o : Output) : (s.emit o).tile = s.tile := rfl
@[simp] theorem State.emit_spool (s : State) (o : Output) : (s.emit o).spool = s.spool := rfl
@[simp] theorem State.emit_pages (s : State) (o : Output) : (s.emit o).pages = s.pages := rfl
@[simp] theorem State.emit_hif (s : State) (o : Output) : (s.emit o).hif = s.hif := rfl
@[simp] theorem State.emit_sip (s : State) (o : Output) : (s.emit o).sip = s.sip := rfl
@[simp] theorem State.emit_kor (s : State) (o : Output) : (s.emit o).kor = s.kor := rfl
@[simp] theorem State.emit_cmp (s : State) (o : Output) : (s.emit o).cmp = s.cmp := rfl
@[simp] theorem State.emit_flm (s : State) (o : Output) : (s.emit o).flm = s.flm := rfl
@[simp] theorem State.emit_spl (s : State) (o : Output) : (s.emit o).spl = s.spl := rfl
@[simp] theorem State.emit_scn (s : State) (o : Output) : (s.emit o).scn = s.scn := rfl
@[simp] theorem State.emit_exp (s : State) (o : Output) : (s.emit o).exp = s.exp := rfl
@[simp] theorem State.emit_ins (s : State) (o : Output) : (s.emit o).ins = s.ins := rfl
@[simp] theorem State.emit_lpe (s : State) (o : Output) : (s.emit o).lpe = s.lpe := rfl
@[simp] theorem State.emit_mot (s : State) (o : Output) : (s.emit o).mot = s.mot := rfl
@[simp] theorem State.emit_lat (s : State) (o : Output) : (s.emit o).lat = s.lat := rfl
@[simp] theorem State.emit_trn (s : State) (o : Output) : (s.emit o).trn = s.trn := rfl
@[simp] theorem State.emit_cul (s : State) (o : Output) : (s.emit o).cul = s.cul := rfl
@[simp] theorem State.emit_ect (s : State) (o : Output) : (s.emit o).ect = s.ect := rfl
@[simp] theorem State.emit_boot (s : State) (o : Output) : (s.emit o).boot = s.boot := rfl
@[simp] theorem State.emit_pwr (s : State) (o : Output) : (s.emit o).pwr = s.pwr := rfl
@[simp] theorem State.emit_otp (s : State) (o : Output) : (s.emit o).otp = s.otp := rfl
@[simp] theorem State.emit_sec (s : State) (o : Output) : (s.emit o).sec = s.sec := rfl
@[simp] theorem State.emit_tap (s : State) (o : Output) : (s.emit o).tap = s.tap := rfl
@[simp] theorem State.emit_flt (s : State) (o : Output) : (s.emit o).flt = s.flt := rfl
@[simp] theorem State.emit_hdg (s : State) (o : Output) : (s.emit o).hdg = s.hdg := rfl
@[simp] theorem State.emit_evr (s : State) (o : Output) : (s.emit o).evr = s.evr := rfl
@[simp] theorem State.emit_waiting (s : State) (o : Output) : (s.emit o).waiting = s.waiting := rfl
@[simp] theorem State.emit_freeCtr (s : State) (o : Output) : (s.emit o).freeCtr = s.freeCtr := rfl
@[simp] theorem State.emit_pending (s : State) (o : Output) : (s.emit o).pending = s.pending := rfl
@[simp] theorem State.emit_marks (s : State) (o : Output) : (s.emit o).marks = s.marks := rfl

/-! ## drew -/

@[simp] theorem State.drew_variant (s : State) : (s.drew).variant = s.variant := rfl
@[simp] theorem State.drew_now (s : State) : (s.drew).now = s.now := rfl
@[simp] theorem State.drew_regs (s : State) : (s.drew).regs = s.regs := rfl
@[simp] theorem State.drew_work (s : State) : (s.drew).work = s.work := rfl
@[simp] theorem State.drew_objs (s : State) : (s.drew).objs = s.objs := rfl
@[simp] theorem State.drew_dram (s : State) : (s.drew).dram = s.dram := rfl
@[simp] theorem State.drew_tile (s : State) : (s.drew).tile = s.tile := rfl
@[simp] theorem State.drew_spool (s : State) : (s.drew).spool = s.spool := rfl
@[simp] theorem State.drew_pages (s : State) : (s.drew).pages = s.pages := rfl
@[simp] theorem State.drew_hif (s : State) : (s.drew).hif = s.hif := rfl
@[simp] theorem State.drew_sip (s : State) : (s.drew).sip = s.sip := rfl
@[simp] theorem State.drew_kor (s : State) : (s.drew).kor = s.kor := rfl
@[simp] theorem State.drew_cmp (s : State) : (s.drew).cmp = s.cmp := rfl
@[simp] theorem State.drew_flm (s : State) : (s.drew).flm = s.flm := rfl
@[simp] theorem State.drew_spl (s : State) : (s.drew).spl = s.spl := rfl
@[simp] theorem State.drew_scn (s : State) : (s.drew).scn = s.scn := rfl
@[simp] theorem State.drew_exp (s : State) : (s.drew).exp = s.exp := rfl
@[simp] theorem State.drew_ins (s : State) : (s.drew).ins = s.ins := rfl
@[simp] theorem State.drew_lpe (s : State) : (s.drew).lpe = s.lpe := rfl
@[simp] theorem State.drew_mot (s : State) : (s.drew).mot = s.mot := rfl
@[simp] theorem State.drew_lat (s : State) : (s.drew).lat = s.lat := rfl
@[simp] theorem State.drew_trn (s : State) : (s.drew).trn = s.trn := rfl
@[simp] theorem State.drew_cul (s : State) : (s.drew).cul = s.cul := rfl
@[simp] theorem State.drew_ect (s : State) : (s.drew).ect = s.ect := rfl
@[simp] theorem State.drew_boot (s : State) : (s.drew).boot = s.boot := rfl
@[simp] theorem State.drew_pwr (s : State) : (s.drew).pwr = s.pwr := rfl
@[simp] theorem State.drew_otp (s : State) : (s.drew).otp = s.otp := rfl
@[simp] theorem State.drew_sec (s : State) : (s.drew).sec = s.sec := rfl
@[simp] theorem State.drew_tap (s : State) : (s.drew).tap = s.tap := rfl
@[simp] theorem State.drew_flt (s : State) : (s.drew).flt = s.flt := rfl
@[simp] theorem State.drew_hdg (s : State) : (s.drew).hdg = s.hdg := rfl
@[simp] theorem State.drew_evr (s : State) : (s.drew).evr = s.evr := rfl
@[simp] theorem State.drew_waiting (s : State) : (s.drew).waiting = s.waiting := rfl
@[simp] theorem State.drew_out (s : State) : (s.drew).out = s.out := rfl
@[simp] theorem State.drew_pending (s : State) : (s.drew).pending = s.pending := rfl
@[simp] theorem State.drew_marks (s : State) : (s.drew).marks = s.marks := rfl

/-! ## report -/

@[simp] theorem State.report_variant (s : State) (a b c d e f g : Nat) : (s.report a b c d e f g).variant = s.variant := rfl
@[simp] theorem State.report_now (s : State) (a b c d e f g : Nat) : (s.report a b c d e f g).now = s.now := rfl
@[simp] theorem State.report_regs (s : State) (a b c d e f g : Nat) : (s.report a b c d e f g).regs = s.regs := rfl
@[simp] theorem State.report_work (s : State) (a b c d e f g : Nat) : (s.report a b c d e f g).work = s.work := rfl
@[simp] theorem State.report_objs (s : State) (a b c d e f g : Nat) : (s.report a b c d e f g).objs = s.objs := rfl
@[simp] theorem State.report_dram (s : State) (a b c d e f g : Nat) : (s.report a b c d e f g).dram = s.dram := rfl
@[simp] theorem State.report_tile (s : State) (a b c d e f g : Nat) : (s.report a b c d e f g).tile = s.tile := rfl
@[simp] theorem State.report_spool (s : State) (a b c d e f g : Nat) : (s.report a b c d e f g).spool = s.spool := rfl
@[simp] theorem State.report_pages (s : State) (a b c d e f g : Nat) : (s.report a b c d e f g).pages = s.pages := rfl
@[simp] theorem State.report_hif (s : State) (a b c d e f g : Nat) : (s.report a b c d e f g).hif = s.hif := rfl
@[simp] theorem State.report_sip (s : State) (a b c d e f g : Nat) : (s.report a b c d e f g).sip = s.sip := rfl
@[simp] theorem State.report_kor (s : State) (a b c d e f g : Nat) : (s.report a b c d e f g).kor = s.kor := rfl
@[simp] theorem State.report_cmp (s : State) (a b c d e f g : Nat) : (s.report a b c d e f g).cmp = s.cmp := rfl
@[simp] theorem State.report_flm (s : State) (a b c d e f g : Nat) : (s.report a b c d e f g).flm = s.flm := rfl
@[simp] theorem State.report_spl (s : State) (a b c d e f g : Nat) : (s.report a b c d e f g).spl = s.spl := rfl
@[simp] theorem State.report_scn (s : State) (a b c d e f g : Nat) : (s.report a b c d e f g).scn = s.scn := rfl
@[simp] theorem State.report_exp (s : State) (a b c d e f g : Nat) : (s.report a b c d e f g).exp = s.exp := rfl
@[simp] theorem State.report_ins (s : State) (a b c d e f g : Nat) : (s.report a b c d e f g).ins = s.ins := rfl
@[simp] theorem State.report_lpe (s : State) (a b c d e f g : Nat) : (s.report a b c d e f g).lpe = s.lpe := rfl
@[simp] theorem State.report_mot (s : State) (a b c d e f g : Nat) : (s.report a b c d e f g).mot = s.mot := rfl
@[simp] theorem State.report_lat (s : State) (a b c d e f g : Nat) : (s.report a b c d e f g).lat = s.lat := rfl
@[simp] theorem State.report_trn (s : State) (a b c d e f g : Nat) : (s.report a b c d e f g).trn = s.trn := rfl
@[simp] theorem State.report_cul (s : State) (a b c d e f g : Nat) : (s.report a b c d e f g).cul = s.cul := rfl
@[simp] theorem State.report_ect (s : State) (a b c d e f g : Nat) : (s.report a b c d e f g).ect = s.ect := rfl
@[simp] theorem State.report_boot (s : State) (a b c d e f g : Nat) : (s.report a b c d e f g).boot = s.boot := rfl
@[simp] theorem State.report_pwr (s : State) (a b c d e f g : Nat) : (s.report a b c d e f g).pwr = s.pwr := rfl
@[simp] theorem State.report_otp (s : State) (a b c d e f g : Nat) : (s.report a b c d e f g).otp = s.otp := rfl
@[simp] theorem State.report_sec (s : State) (a b c d e f g : Nat) : (s.report a b c d e f g).sec = s.sec := rfl
@[simp] theorem State.report_tap (s : State) (a b c d e f g : Nat) : (s.report a b c d e f g).tap = s.tap := rfl
@[simp] theorem State.report_flt (s : State) (a b c d e f g : Nat) : (s.report a b c d e f g).flt = s.flt := rfl
@[simp] theorem State.report_hdg (s : State) (a b c d e f g : Nat) : (s.report a b c d e f g).hdg = s.hdg := rfl
@[simp] theorem State.report_evr (s : State) (a b c d e f g : Nat) : (s.report a b c d e f g).evr = s.evr := rfl
@[simp] theorem State.report_out (s : State) (a b c d e f g : Nat) : (s.report a b c d e f g).out = s.out := rfl
@[simp] theorem State.report_freeCtr (s : State) (a b c d e f g : Nat) : (s.report a b c d e f g).freeCtr = s.freeCtr := rfl
@[simp] theorem State.report_pending (s : State) (a b c d e f g : Nat) : (s.report a b c d e f g).pending = s.pending := rfl
@[simp] theorem State.report_marks (s : State) (a b c d e f g : Nat) : (s.report a b c d e f g).marks = s.marks := rfl

/-! ## reportAccess -/

@[simp] theorem State.reportAccess_variant (s : State) (a b c d e f : Nat) : (s.reportAccess a b c d e f).variant = s.variant := rfl
@[simp] theorem State.reportAccess_now (s : State) (a b c d e f : Nat) : (s.reportAccess a b c d e f).now = s.now := rfl
@[simp] theorem State.reportAccess_regs (s : State) (a b c d e f : Nat) : (s.reportAccess a b c d e f).regs = s.regs := rfl
@[simp] theorem State.reportAccess_work (s : State) (a b c d e f : Nat) : (s.reportAccess a b c d e f).work = s.work := rfl
@[simp] theorem State.reportAccess_objs (s : State) (a b c d e f : Nat) : (s.reportAccess a b c d e f).objs = s.objs := rfl
@[simp] theorem State.reportAccess_dram (s : State) (a b c d e f : Nat) : (s.reportAccess a b c d e f).dram = s.dram := rfl
@[simp] theorem State.reportAccess_tile (s : State) (a b c d e f : Nat) : (s.reportAccess a b c d e f).tile = s.tile := rfl
@[simp] theorem State.reportAccess_spool (s : State) (a b c d e f : Nat) : (s.reportAccess a b c d e f).spool = s.spool := rfl
@[simp] theorem State.reportAccess_pages (s : State) (a b c d e f : Nat) : (s.reportAccess a b c d e f).pages = s.pages := rfl
@[simp] theorem State.reportAccess_hif (s : State) (a b c d e f : Nat) : (s.reportAccess a b c d e f).hif = s.hif := rfl
@[simp] theorem State.reportAccess_sip (s : State) (a b c d e f : Nat) : (s.reportAccess a b c d e f).sip = s.sip := rfl
@[simp] theorem State.reportAccess_kor (s : State) (a b c d e f : Nat) : (s.reportAccess a b c d e f).kor = s.kor := rfl
@[simp] theorem State.reportAccess_cmp (s : State) (a b c d e f : Nat) : (s.reportAccess a b c d e f).cmp = s.cmp := rfl
@[simp] theorem State.reportAccess_flm (s : State) (a b c d e f : Nat) : (s.reportAccess a b c d e f).flm = s.flm := rfl
@[simp] theorem State.reportAccess_spl (s : State) (a b c d e f : Nat) : (s.reportAccess a b c d e f).spl = s.spl := rfl
@[simp] theorem State.reportAccess_scn (s : State) (a b c d e f : Nat) : (s.reportAccess a b c d e f).scn = s.scn := rfl
@[simp] theorem State.reportAccess_exp (s : State) (a b c d e f : Nat) : (s.reportAccess a b c d e f).exp = s.exp := rfl
@[simp] theorem State.reportAccess_ins (s : State) (a b c d e f : Nat) : (s.reportAccess a b c d e f).ins = s.ins := rfl
@[simp] theorem State.reportAccess_lpe (s : State) (a b c d e f : Nat) : (s.reportAccess a b c d e f).lpe = s.lpe := rfl
@[simp] theorem State.reportAccess_mot (s : State) (a b c d e f : Nat) : (s.reportAccess a b c d e f).mot = s.mot := rfl
@[simp] theorem State.reportAccess_lat (s : State) (a b c d e f : Nat) : (s.reportAccess a b c d e f).lat = s.lat := rfl
@[simp] theorem State.reportAccess_trn (s : State) (a b c d e f : Nat) : (s.reportAccess a b c d e f).trn = s.trn := rfl
@[simp] theorem State.reportAccess_cul (s : State) (a b c d e f : Nat) : (s.reportAccess a b c d e f).cul = s.cul := rfl
@[simp] theorem State.reportAccess_ect (s : State) (a b c d e f : Nat) : (s.reportAccess a b c d e f).ect = s.ect := rfl
@[simp] theorem State.reportAccess_boot (s : State) (a b c d e f : Nat) : (s.reportAccess a b c d e f).boot = s.boot := rfl
@[simp] theorem State.reportAccess_pwr (s : State) (a b c d e f : Nat) : (s.reportAccess a b c d e f).pwr = s.pwr := rfl
@[simp] theorem State.reportAccess_otp (s : State) (a b c d e f : Nat) : (s.reportAccess a b c d e f).otp = s.otp := rfl
@[simp] theorem State.reportAccess_sec (s : State) (a b c d e f : Nat) : (s.reportAccess a b c d e f).sec = s.sec := rfl
@[simp] theorem State.reportAccess_tap (s : State) (a b c d e f : Nat) : (s.reportAccess a b c d e f).tap = s.tap := rfl
@[simp] theorem State.reportAccess_flt (s : State) (a b c d e f : Nat) : (s.reportAccess a b c d e f).flt = s.flt := rfl
@[simp] theorem State.reportAccess_hdg (s : State) (a b c d e f : Nat) : (s.reportAccess a b c d e f).hdg = s.hdg := rfl
@[simp] theorem State.reportAccess_evr (s : State) (a b c d e f : Nat) : (s.reportAccess a b c d e f).evr = s.evr := rfl
@[simp] theorem State.reportAccess_out (s : State) (a b c d e f : Nat) : (s.reportAccess a b c d e f).out = s.out := rfl
@[simp] theorem State.reportAccess_freeCtr (s : State) (a b c d e f : Nat) : (s.reportAccess a b c d e f).freeCtr = s.freeCtr := rfl
@[simp] theorem State.reportAccess_pending (s : State) (a b c d e f : Nat) : (s.reportAccess a b c d e f).pending = s.pending := rfl
@[simp] theorem State.reportAccess_marks (s : State) (a b c d e f : Nat) : (s.reportAccess a b c d e f).marks = s.marks := rfl

/-! ## darkWrite -/

@[simp] theorem State.darkWrite_variant (s : State) (a b c : Nat) : (s.darkWrite a b c).variant = s.variant := rfl
@[simp] theorem State.darkWrite_now (s : State) (a b c : Nat) : (s.darkWrite a b c).now = s.now := rfl
@[simp] theorem State.darkWrite_regs (s : State) (a b c : Nat) : (s.darkWrite a b c).regs = s.regs := rfl
@[simp] theorem State.darkWrite_work (s : State) (a b c : Nat) : (s.darkWrite a b c).work = s.work := rfl
@[simp] theorem State.darkWrite_objs (s : State) (a b c : Nat) : (s.darkWrite a b c).objs = s.objs := rfl
@[simp] theorem State.darkWrite_dram (s : State) (a b c : Nat) : (s.darkWrite a b c).dram = s.dram := rfl
@[simp] theorem State.darkWrite_tile (s : State) (a b c : Nat) : (s.darkWrite a b c).tile = s.tile := rfl
@[simp] theorem State.darkWrite_spool (s : State) (a b c : Nat) : (s.darkWrite a b c).spool = s.spool := rfl
@[simp] theorem State.darkWrite_pages (s : State) (a b c : Nat) : (s.darkWrite a b c).pages = s.pages := rfl
@[simp] theorem State.darkWrite_hif (s : State) (a b c : Nat) : (s.darkWrite a b c).hif = s.hif := rfl
@[simp] theorem State.darkWrite_sip (s : State) (a b c : Nat) : (s.darkWrite a b c).sip = s.sip := rfl
@[simp] theorem State.darkWrite_kor (s : State) (a b c : Nat) : (s.darkWrite a b c).kor = s.kor := rfl
@[simp] theorem State.darkWrite_cmp (s : State) (a b c : Nat) : (s.darkWrite a b c).cmp = s.cmp := rfl
@[simp] theorem State.darkWrite_flm (s : State) (a b c : Nat) : (s.darkWrite a b c).flm = s.flm := rfl
@[simp] theorem State.darkWrite_spl (s : State) (a b c : Nat) : (s.darkWrite a b c).spl = s.spl := rfl
@[simp] theorem State.darkWrite_scn (s : State) (a b c : Nat) : (s.darkWrite a b c).scn = s.scn := rfl
@[simp] theorem State.darkWrite_exp (s : State) (a b c : Nat) : (s.darkWrite a b c).exp = s.exp := rfl
@[simp] theorem State.darkWrite_ins (s : State) (a b c : Nat) : (s.darkWrite a b c).ins = s.ins := rfl
@[simp] theorem State.darkWrite_lpe (s : State) (a b c : Nat) : (s.darkWrite a b c).lpe = s.lpe := rfl
@[simp] theorem State.darkWrite_mot (s : State) (a b c : Nat) : (s.darkWrite a b c).mot = s.mot := rfl
@[simp] theorem State.darkWrite_lat (s : State) (a b c : Nat) : (s.darkWrite a b c).lat = s.lat := rfl
@[simp] theorem State.darkWrite_trn (s : State) (a b c : Nat) : (s.darkWrite a b c).trn = s.trn := rfl
@[simp] theorem State.darkWrite_cul (s : State) (a b c : Nat) : (s.darkWrite a b c).cul = s.cul := rfl
@[simp] theorem State.darkWrite_ect (s : State) (a b c : Nat) : (s.darkWrite a b c).ect = s.ect := rfl
@[simp] theorem State.darkWrite_boot (s : State) (a b c : Nat) : (s.darkWrite a b c).boot = s.boot := rfl
@[simp] theorem State.darkWrite_pwr (s : State) (a b c : Nat) : (s.darkWrite a b c).pwr = s.pwr := rfl
@[simp] theorem State.darkWrite_otp (s : State) (a b c : Nat) : (s.darkWrite a b c).otp = s.otp := rfl
@[simp] theorem State.darkWrite_sec (s : State) (a b c : Nat) : (s.darkWrite a b c).sec = s.sec := rfl
@[simp] theorem State.darkWrite_tap (s : State) (a b c : Nat) : (s.darkWrite a b c).tap = s.tap := rfl
@[simp] theorem State.darkWrite_flt (s : State) (a b c : Nat) : (s.darkWrite a b c).flt = s.flt := rfl
@[simp] theorem State.darkWrite_hdg (s : State) (a b c : Nat) : (s.darkWrite a b c).hdg = s.hdg := rfl
@[simp] theorem State.darkWrite_evr (s : State) (a b c : Nat) : (s.darkWrite a b c).evr = s.evr := rfl
@[simp] theorem State.darkWrite_out (s : State) (a b c : Nat) : (s.darkWrite a b c).out = s.out := rfl
@[simp] theorem State.darkWrite_freeCtr (s : State) (a b c : Nat) : (s.darkWrite a b c).freeCtr = s.freeCtr := rfl
@[simp] theorem State.darkWrite_pending (s : State) (a b c : Nat) : (s.darkWrite a b c).pending = s.pending := rfl
@[simp] theorem State.darkWrite_marks (s : State) (a b c : Nat) : (s.darkWrite a b c).marks = s.marks := rfl

/-! ## Fields of a word -/

theorem getField_lt (w : Word) (lo n : Nat) : getField w lo n < 2 ^ n := Nat.mod_lt _ (Nat.two_pow_pos n)

theorem getField_testBit (w : Word) (lo n i : Nat) : (getField w lo n).testBit i = (decide (i < n) && w.getLsbD (lo + i)) := by
  unfold getField
  rw [Nat.testBit_mod_two_pow, Nat.testBit_div_two_pow, BitVec.testBit_toNat, Nat.add_comm]

theorem putField_getLsbD (w : Word) {lo n : Nat} (v : Nat) {i : Nat} (hw : lo + n ≤ 32) (hi : i < 32) :
    (putField w lo n v).getLsbD i = if lo ≤ i ∧ i < lo + n then v.testBit (i - lo) else w.getLsbD i := by
  have hm : ∀ j, j < 32 → (BitVec.ofNat 32 (2 ^ n - 1)).getLsbD j = decide (j < n) := by
    intro j hj
    rw [BitVec.getLsbD_ofNat, Nat.testBit_two_pow_sub_one]
    simp [hj]
  simp only [putField, BitVec.getLsbD_or, BitVec.getLsbD_and, BitVec.getLsbD_not, BitVec.getLsbD_shiftLeft, hi, decide_true, Bool.true_and]
  by_cases h1 : i < lo
  · have : ¬ (lo ≤ i ∧ i < lo + n) := by omega
    simp [h1, this]
  · have e : (BitVec.ofNat 32 (2 ^ n - 1)).getLsbD (i - lo) = decide (i - lo < n) := hm _ (by omega)
    by_cases h2 : i - lo < n
    · have h3 : lo ≤ i ∧ i < lo + n := by omega
      have h4 : i - lo < 32 := by omega
      rw [if_pos h3, e, BitVec.getLsbD_ofNat]
      simp only [h1, h2, h4, decide_true, decide_false, Bool.not_true, Bool.not_false, Bool.and_false, Bool.false_or, Bool.true_and, Bool.and_true]
    · have h3 : ¬ (lo ≤ i ∧ i < lo + n) := by omega
      simp [h1, e, h2, h3]

/-- A field reads the value written into it. -/
theorem getField_putField (w : Word) {lo n : Nat} (v : Nat) (hw : lo + n ≤ 32) : getField (putField w lo n v) lo n = v % 2 ^ n := by
  apply Nat.eq_of_testBit_eq
  intro i
  rw [getField_testBit, Nat.testBit_mod_two_pow]
  by_cases h : i < n
  · have h1 : lo + i < 32 := by omega
    have h2 : lo ≤ lo + i ∧ lo + i < lo + n := by omega
    rw [putField_getLsbD w v hw h1]
    simp [h, h2]
  · simp [h]

/-- A field that shares no bit with the one written reads as before. -/
theorem getField_putField_ne (w : Word) {lo n lo' n' : Nat} (v : Nat) (hw : lo + n ≤ 32) (hw' : lo' + n' ≤ 32) (hd : lo + n ≤ lo' ∨ lo' + n' ≤ lo) :
    getField (putField w lo n v) lo' n' = getField w lo' n' := by
  apply Nat.eq_of_testBit_eq
  intro i
  rw [getField_testBit, getField_testBit]
  by_cases h : i < n'
  · have h1 : lo' + i < 32 := by omega
    have h2 : ¬ (lo ≤ lo' + i ∧ lo' + i < lo + n) := by omega
    rw [putField_getLsbD w v hw h1]
    simp [h, h2]
  · simp [h]

/-! ## Reading a register after writing one -/

theorem State.Canonical.rises {s : State} (h : s.Canonical) : s.regs.risesFrom 0 = true := (Store.wf_iff.1 h.regs).1

theorem State.word_setWord_self {s : State} (h : s.Canonical) (off : Nat) (w : Word) : (s.setWord off w).word off = w :=
  Store.getD_set_self off w h.rises

theorem State.word_setWord_ne {s : State} (h : s.Canonical) {off m : Nat} (w : Word) (hm : m ≠ off) : (s.setWord off w).word m = s.word m :=
  Store.getD_set_ne w h.rises hm

theorem State.word_setF_self {s : State} (h : s.Canonical) (x : Fld) (v : Nat) : (s.setF x v).word x.off = putField (s.word x.off) x.lo x.w v :=
  State.word_setWord_self h _ _

theorem State.word_setF_ne {s : State} (h : s.Canonical) (x : Fld) (v : Nat) {m : Nat} (hm : m ≠ x.off) : (s.setF x v).word m = s.word m :=
  State.word_setWord_ne h _ hm

/-- A field reads the value written to it. -/
theorem State.f_setF_self {s : State} (h : s.Canonical) (x : Fld) (v : Nat) (hw : x.lo + x.w ≤ 32) : (s.setF x v).f x = v % 2 ^ x.w := by
  unfold State.f
  rw [State.word_setF_self h]
  exact getField_putField _ _ hw

/-- A field of another register reads as before. -/
theorem State.f_setF_ne {s : State} (h : s.Canonical) (x y : Fld) (v : Nat) (hm : y.off ≠ x.off) : (s.setF x v).f y = s.f y := by
  unfold State.f
  rw [State.word_setF_ne h x v hm]

/-- A field of the same register that shares no bit with the one written reads as before. -/
theorem State.f_setF_beside {s : State} (h : s.Canonical) (x y : Fld) (v : Nat) (ho : y.off = x.off) (hx : x.lo + x.w ≤ 32) (hy : y.lo + y.w ≤ 32)
    (hd : x.lo + x.w ≤ y.lo ∨ y.lo + y.w ≤ x.lo) : (s.setF x v).f y = s.f y := by
  unfold State.f
  rw [ho, State.word_setF_self h]
  exact getField_putField_ne _ _ hx hy hd

/-- A raised flag reads 1. -/
theorem State.f_raise_self {s : State} (h : s.Canonical) (x : Fld) (hw : x.lo + x.w ≤ 32) : (s.raise x).f x = 1 % 2 ^ x.w := State.f_setF_self h x 1 hw

theorem State.word_raise_ne {s : State} (h : s.Canonical) (x : Fld) {m : Nat} (hm : m ≠ x.off) : (s.raise x).word m = s.word m :=
  State.word_setF_ne h x 1 hm

/-- A saturating counter reads its sum, up to all ones. -/
theorem State.f_satInc_self {s : State} (h : s.Canonical) (x : Fld) (n : Nat) (hw : x.lo + x.w ≤ 32) :
    (s.satInc x n).f x = min (s.f x + n) (2 ^ x.w - 1) % 2 ^ x.w := State.f_setF_self h x _ hw

theorem State.word_satInc_ne {s : State} (h : s.Canonical) (x : Fld) (n : Nat) {m : Nat} (hm : m ≠ x.off) : (s.satInc x n).word m = s.word m :=
  State.word_setF_ne h x _ hm

theorem State.setWord_canonical {s : State} (h : s.Canonical) (off : Nat) (w : Word) : (s.setWord off w).Canonical :=
  (State.setWord_keeps Keeps.rfl' off w).canonical h

theorem State.setF_canonical {s : State} (h : s.Canonical) (x : Fld) (v : Nat) : (s.setF x v).Canonical := State.setWord_canonical h _ _

end Sys2Proof.Machine
end

