-- ==== Sys2Proof/Tests/Slice0.lean ====
section
/-! SUPPORT. Witnesses that the hypotheses of every statement can be met together, clause by clause; ill-formed commands; and a few examples. -/
namespace Sys2Proof.Tests
open Sys2Proof.Machine
set_option Elab.async false
set_option linter.unusedVariables false

/-! ## States and operands the witnesses use -/

/-- The device in a power state, with its control cores running, its memory measured and the host interface ready. -/
def at_ (p : Nat) : State :=
  { (State.reset.setF PWR_STATE.NOW p).setF HIF_DEV_STATE.STATE 1 with
    boot := { cores := true, ring := 64, tiles := 64, dramOk := true, dramDone := true, installed := 4096 },
    hif := { perst := true, memEn := true, fetching := some 0 } }
def run : State := at_ pwrRUN
def ready : State := at_ pwrREADY
def standby : State := at_ pwrSTANDBY
def sleep : State := at_ pwrSLEEP

/-- A descriptor of 60 bytes with its CHECK. -/
def sealed (d : List Byte) : List Byte := d ++ leBytes 4 (crc32c d).toNat
/-- A page descriptor: identifier, opcode, stations, flags. -/
def pageBytes (id op sp st flags len gap srclen : Nat) : List Byte :=
  sealed (leBytes 8 id ++ leBytes 1 op ++ leBytes 1 sp ++ leBytes 2 st ++ [0, 0, 0, 0] ++ leBytes 4 len ++ leBytes 2 gap ++ leBytes 2 flags ++ leBytes 8 0 ++
    leBytes 4 srclen ++ leBytes 4 0 ++ leBytes 8 0 ++ leBytes 8 0 ++ leBytes 4 0)
/-- The source table of one station's stream of format 0. -/
def srcBytes (len : Nat) : List Byte := leBytes 8 0 ++ leBytes 4 len ++ [1, 0, 0, 0]
/-- A page of station 0. -/
def pg : Page := { seq := 1, desc := { pageId := 7, opcode := 1, speed := 0xFF, stations := 1, length := 1024, gap := 256, srcLen := 16 }, phase := .claimed }
def fr : Frame := { tof := 4096, len := 1024, pitch := 1280, page := some 1, firstLatch := 0 }
def withPage (s : State) (p : Page) (f : Frame) : State := { s with pages := { s.pages with pages := [p], frames := [f] } }


/-! ## A signed token and a signed firmware package, under one key -/

/-- The six fuse words, from word `w` on, that hold the hash of the test key. -/
def rootWords (w : Nat) : Store OtpWord :=
  (List.range 6).map (fun i => (w + i, { written := true, data := BitVec.ofNat 64 (0x29BEC10797E7DA495019635271D3C4BEE2D41CB4072B9B2B6134F867DAE87C39C18FD41D91BCC8AD6168C7A98A31D594 >>> (64 * i)) }))
/-- A token of level 1 for 600 seconds that answers the challenge of 32 bytes 5. -/
def goodToken : List Byte := leBytes 272 0x6E0868AB7BE94F96D4085848538180B812FEE99B4ECE4A5B1DC5163972542837CAE99FD1FD23811881C2A64B9FE8C5D8CBD12DF76B503C0DD8BDCAB30FCB6BBEB13342A8BABEAC4090D13664BE5704FF8A796C2B574305E36E9F10500879EB66839439E92511C9A44925AB5F1C58770FB6718ABBE775BD927FA5F81BFA985A0EC42B93FC224C52825FE95273CF8E495A6BDC895FC87C46C4C4CCB1D489042EFE6B06D36334027056B78233D3A0BDBE76EE5FE4DEC4BB3E8D72A6E9D12E6E748000000000000000000000000000000000000000000000000000002580000000005050505050505050505050505050505050505050505050505050505050505050000000000000000000001014E4B5444
/-- The header of a firmware package whose payload is one zero byte. -/
def goodPackage : List Byte := leBytes 272 0x15B8098EF765A8F4AC8AE253FF0418805B14CF1AC0FC3F245F0BDD461FD7DD09D0FD2459B96286674DE7BCB899F29D278CBD12DF76B503C0DD8BDCAB30FCB6BBEB13342A8BABEAC4090D13664BE5704FF8A796C2B574305E36E9F10500879EB66839439E92511C9A44925AB5F1C58770FB6718ABBE775BD927FA5F81BFA985A0EC42B93FC224C52825FE95273CF8E495A6BDC895FC87C46C4C4CCB1D489042EFE6B06D36334027056B78233D3A0BDBE76EE5FE4DEC4BB3E8D72A6E9D12E6E7481717A108C2A91768966534412BEC33596536663DE1860D5F4EE206D2BDA9D3837030B4C212E0349106E368F3B421C0BE000000000000000000000000000000010000FFFF000000000000010153465058 ++ List.replicate 240 0

theorem leAt_append (d t : List Byte) (n : Nat) (h : d.length = n) (k : Nat) : leAt (d ++ t) n k = leAt t 0 k := by
  subst h; simp [leAt]
theorem leNat_leBytes4 (c : BitVec 32) : BitVec.ofNat 32 (leAt (leBytes 4 c.toNat) 0 4) = c := by
  have h : leBytes 4 c.toNat = [BitVec.ofNat 8 c.toNat, BitVec.ofNat 8 (c.toNat / 256), BitVec.ofNat 8 (c.toNat / 256 / 256),
    BitVec.ofNat 8 (c.toNat / 256 / 256 / 256)] := rfl
  apply BitVec.eq_of_toNat_eq
  rw [h]
  have hc := c.isLt
  simp only [leAt, List.drop, List.take, leNat, BitVec.toNat_ofNat]
  omega
/-- A lateral frame that carries its own check is good. -/
theorem sealed_good (ty n : Nat) (d : List Byte) (hn : d.length + 4 = n) (ht : leAt (d.take 1) 0 1 = ty) (hd : 1 ≤ d.length) :
    latGood ty n (some (sealed d)) = some (sealed d) := by
  have h1 : (sealed d).length = n := by simp [sealed, leBytes]; omega
  have h2 : leAt (sealed d) 0 1 = ty := by
    rw [← ht]
    cases d with
    | nil => simp at hd
    | cons a t => rfl
  have h3 : (sealed d).take (n - 4) = d := by
    have : n - 4 = d.length := by omega
    rw [this, sealed, List.take_left]
  have h4 : BitVec.ofNat 32 (leAt (sealed d) (n - 4) 4) = crc32c d := by
    rw [sealed, leAt_append d _ (n - 4) (by omega), leNat_leBytes4]
  unfold latGood
  simp only [h1, h2, h3, h4, and_self, if_true]
theorem sealed_zeros (ty : Nat) (h : ty < 256) (n : Nat) :
    latGood ty (n + 5) (some (sealed (BitVec.ofNat 8 ty :: List.replicate n 0))) = some (sealed (BitVec.ofNat 8 ty :: List.replicate n 0)) := by
  refine sealed_good ty (n + 5) _ ?_ ?_ ?_
  · rw [List.length_cons, List.length_replicate]
  · simp only [List.take_succ_cons, leAt, List.drop_zero, List.take, leNat, BitVec.toNat_ofNat]; omega
  · rw [List.length_cons]; exact Nat.le_add_left 1 _
theorem leNat_zeros (m : Nat) : leNat (List.replicate m (0 : Byte)) = 0 := by
  induction m with
  | zero => rfl
  | succ m ih => rw [List.replicate_succ, leNat, ih]; rfl
/-- A stream of zero bytes decodes: every block is a constant one. -/
theorem decodeRun_zeros (f2 : Bool) (n m : Nat) : ∃ bs, decodeRun f2 n (List.replicate m 0) = some bs := by
  induction n generalizing m with
  | zero => exact ⟨_, rfl⟩
  | succ n ih =>
    obtain ⟨t, ht⟩ := ih (m - blockBytes f2)
    refine ⟨List.replicate 64 (0, 0) :: t, ?_⟩
    rw [decodeRun, List.drop_replicate, ht, List.take_replicate, leNat_zeros]
    rfl
/-- A stream of `m` zero bytes, and the state in which Flume 0 works on its first furrow. -/
def zeroStream (m : Nat) : Stream := { page := 1, st := 0, len := m, data := List.replicate m 0 }
def zeroState (m : Nat) : State :=
  { (withPage run { pg with phase := .latched } fr).setF (FLM_SLICE_STATE.STATE 0) flBUSY with
    pages := { (withPage run { pg with phase := .latched } fr).pages with streams := [zeroStream m] },
    flm := { run.flm with furrows := [{ page := 1, st := 0, k := 0, flume := some 0 }] } }
theorem zeroState_lines (m : Nat) : ((zeroState m).furrowLines { pg with phase := .latched } 0 0).1 = 0 := by
  unfold State.furrowLines
  obtain ⟨bs, h⟩ := decodeRun_zeros false ((4 : Nat) * 3000) m
  have e2 : ({ pg with phase := .latched } : Page).desc.format = 0 := rfl
  have e3 : ({ pg with phase := .latched } : Page).desc.furrowRows 0 = 4 := by decide
  have e4 : sourceAt ({ pg with phase := .latched } : Page).desc (zeroStream m) 0 = 0 := rfl
  have e5 : (zeroStream m).data = List.replicate m 0 := rfl
  show (if ({ pg with phase := .latched } : Page).desc.format = 3 then _ else _ : Nat × List (List Pixel)).1 = 0
  rw [if_neg (by rw [e2]; decide)]
  rw [show (zeroState m).streamOf ({ pg with phase := .latched } : Page).seq 0 = some (zeroStream m) from rfl]
  dsimp only
  rw [if_neg (by rw [e2]; decide), e3, e4, e5, List.drop_zero, show decide (({ pg with phase := .latched } : Page).desc.format = 1) = false from rfl, h]
theorem zeroState_decodes (m : Nat) :
    (zeroState m).furrowLines { pg with phase := .latched } 0 0 = (0, ((zeroState m).furrowLines { pg with phase := .latched } 0 0).2) :=
  Prod.ext (zeroState_lines m) rfl
/-- A sheet was asked for at line 0, and the press has gone on past every line its edge could come at. -/
def sheetState : State :=
  { run.setObj 0x2101 1 1 with pages := { run.pages with sheetReq := [(1, 0)] }, scn := { run.scn with webLine := Config.feedLines + 1000 } }
theorem sheet_missed : sheetState.edgeMissed 0 = true := by
  have h : sheetState.obj 0x2101 5 ≤ 1000 := by
    show (run.setObj 0x2101 1 1).obj 0x2101 5 ≤ 1000
    decide +kernel
  have w : sheetState.scn.webLine = Config.feedLines + 1000 := rfl
  unfold State.edgeMissed
  rw [w]
  exact decide_eq_true (by omega)

/-- The blocks of one scanner lane: a leading block, its payload, a closing block that carries the payload's check. -/
def cisLane (a : BitVec 64) (k : Nat) (pay : List (BitVec 64)) : List (Bool × BitVec 64) :=
  (false, a) :: (pay.map (fun w => (true, w)) ++ [(false, BitVec.ofNat 64 (k + (crc32c ((pay.map (fun w => leBytes 8 w.toNat)).flatten)).toNat * 4294967296))])

theorem leAt_leBytes8 (n : Nat) :
    leAt (leBytes 8 n) 0 1 = n % 256 ∧ leAt (leBytes 8 n) 1 1 = n / 256 % 256 ∧
    leAt (leBytes 8 n) 2 2 = n / 65536 % 65536 ∧ leAt (leBytes 8 n) 4 4 = n / 4294967296 % 4294967296 := by
  have h : leBytes 8 n = [BitVec.ofNat 8 n, BitVec.ofNat 8 (n/256), BitVec.ofNat 8 (n/256/256), BitVec.ofNat 8 (n/256/256/256), BitVec.ofNat 8 (n/256/256/256/256), BitVec.ofNat 8 (n/256/256/256/256/256), BitVec.ofNat 8 (n/256/256/256/256/256/256), BitVec.ofNat 8 (n/256/256/256/256/256/256/256)] := rfl
  rw [h]
  simp only [leAt, List.drop, List.take, leNat, BitVec.toNat_ofNat]
  refine ⟨?_, ?_, ?_, ?_⟩ <;> omega
theorem closing_fields (k : Nat) (hk : k < 4294967296) (c : BitVec 32) :
    leAt (leBytes 8 (BitVec.ofNat 64 (k + c.toNat * 4294967296)).toNat) 0 1 = k % 256 ∧
    leAt (leBytes 8 (BitVec.ofNat 64 (k + c.toNat * 4294967296)).toNat) 1 1 = k / 256 % 256 ∧
    leAt (leBytes 8 (BitVec.ofNat 64 (k + c.toNat * 4294967296)).toNat) 2 2 = k / 65536 ∧
    BitVec.ofNat 32 (leAt (leBytes 8 (BitVec.ofNat 64 (k + c.toNat * 4294967296)).toNat) 4 4) = c := by
  have hc := c.isLt
  have h := leAt_leBytes8 (BitVec.ofNat 64 (k + c.toNat * 4294967296)).toNat
  have e : (BitVec.ofNat 64 (k + c.toNat * 4294967296)).toNat = k + c.toNat * 4294967296 := by
    rw [BitVec.toNat_ofNat]; omega
  rw [e] at h ⊢
  refine ⟨by omega, by omega, by omega, ?_⟩
  apply BitVec.eq_of_toNat_eq
  rw [h.2.2.2, BitVec.toNat_ofNat]; omega

theorem laneLine_cisLane (lane : Nat) (a : BitVec 64) (k : Nat) (pay : List (BitVec 64)) (hk : k < 4294967296)
    (ha : leAt (leBytes 8 a.toNat) 0 1 = 0x55 ∧ leAt (leBytes 8 a.toNat) 1 1 = lane ∧
      lineCrc8 ((leBytes 8 a.toNat).take 7) = BitVec.ofNat 8 (leAt (leBytes 8 a.toNat) 7 1))
    (hz : k % 256 = 0x66 ∧ k / 256 % 256 = lane ∧ k / 65536 = pay.length) (hn : pay.length = if lane < 2 then 1688 else 1687) :
    laneLine lane (cisLane a k pay) = some (BitVec.ofNat 32 (leAt (leBytes 8 a.toNat) 3 4), pay) := by
  have hf := closing_fields k hk (crc32c ((pay.map (fun w => leBytes 8 w.toNat)).flatten))
  have hd : ((cisLane a k pay).drop 1).dropLast = pay.map (fun w => (true, w)) := by simp [cisLane]
  have hl : (cisLane a k pay).getLast? = some (false, BitVec.ofNat 64 (k + (crc32c ((pay.map (fun w => leBytes 8 w.toNat)).flatten)).toNat * 4294967296)) := by
    simp [cisLane, List.getLast?_cons]
  have hh : (cisLane a k pay).head? = some (false, a) := rfl
  have hp : ((pay.map (fun w => (true, w))).filter (fun x => x.1)).map (fun x => x.2) = pay := by
    simp [List.filter_map, Function.comp_def]
  unfold laneLine
  rw [hh, hl]
  simp only [hd, hp, hf]
  simp [ha, hz, hn, List.all_map, Function.comp_def]
def lane0 (l w : Nat) : List (Bool × BitVec 64) := cisLane (BitVec.ofNat 64 (leAt ([0x55#8, BitVec.ofNat 8 l, 0, 5, 0, 0, 0] ++ [lineCrc8 [0x55#8, BitVec.ofNat 8 l, 0, 5, 0, 0, 0]]) 0 8)) (0x66 + l * 256 + w * 65536) (List.replicate w 0)
def cisLanes : List (List (Bool × BitVec 64)) := [lane0 0 1688, lane0 1 1688, lane0 2 1687, lane0 3 1687]
theorem lane0_ok (l w : Nat) (hl : l < 4) (hw : w = if l < 2 then 1688 else 1687) :
    laneLine l (lane0 l w) = some (5#32, List.replicate w 0) := by
  have hw' : w < 2000 := by split at hw <;> omega
  have ha : leAt (leBytes 8 (BitVec.ofNat 64 (leAt ([0x55#8, BitVec.ofNat 8 l, 0, 5, 0, 0, 0] ++ [lineCrc8 [0x55#8, BitVec.ofNat 8 l, 0, 5, 0, 0, 0]]) 0 8)).toNat) 3 4 = 5 := by
    clear hw hw'
    revert l; decide +kernel
  have := laneLine_cisLane l (BitVec.ofNat 64 (leAt ([0x55#8, BitVec.ofNat 8 l, 0, 5, 0, 0, 0] ++ [lineCrc8 [0x55#8, BitVec.ofNat 8 l, 0, 5, 0, 0, 0]]) 0 8))
    (0x66 + l * 256 + w * 65536) (List.replicate w 0) (by omega) (by clear hw hw' ha; revert l; decide +kernel)
    (by rw [List.length_replicate]; omega) (by rw [List.length_replicate]; exact hw)
  rw [ha] at this
  exact this
theorem cisBytes_isSome (ls : List (List (Bool × BitVec 64))) (q : BitVec 32) (a b c d : List (BitVec 64)) (h0 : laneLine 0 (ls.getD 0 []) = some (q, a))
    (h1 : laneLine 1 (ls.getD 1 []) = some (q, b)) (h2 : laneLine 2 (ls.getD 2 []) = some (q, c)) (h3 : laneLine 3 (ls.getD 3 []) = some (q, d)) :
    ∃ px, cisBytes ls = some (q, px) := by
  have e : (List.range 4).mapM (fun l => laneLine l (ls.getD l [])) = some [(q, a), (q, b), (q, c), (q, d)] := by
    have r : List.range 4 = [0, 1, 2, 3] := by decide
    rw [r, List.mapM_cons, List.mapM_cons, List.mapM_cons, List.mapM_cons, List.mapM_nil, h0, h1, h2, h3]; rfl
  unfold cisBytes
  rw [e]
  exact ⟨_, if_pos ⟨rfl, rfl, rfl⟩⟩
theorem cis_ok : ∃ px, cisBytes cisLanes = some (5, px) :=
  cisBytes_isSome cisLanes 5 _ _ _ _ (lane0_ok 0 1688 (by decide) (by decide)) (lane0_ok 1 1688 (by decide) (by decide)) (lane0_ok 2 1687 (by decide) (by decide)) (lane0_ok 3 1687 (by decide) (by decide))

theorem leAt_replicate (m a : Nat) (h : a + 2 ≤ m) : leAt (List.replicate m 0xFF#8) a 2 = 65535 := by
  obtain ⟨n, rfl⟩ : ∃ n, m = a + (n + 2) := ⟨m - a - 2, by omega⟩
  unfold leAt
  rw [List.drop_replicate, Nat.add_sub_cancel_left, List.replicate_succ, List.replicate_succ]
  change leNat [0xFF#8, 0xFF#8] = 65535
  decide
theorem lineCode_full (i m : Nat) (hi : 3 * i / 2 + 2 ≤ m) : lineCode (List.replicate m 0xFF#8) i = 4095 := by
  unfold lineCode
  rw [leAt_replicate m _ hi]
  split <;> decide
theorem foldl_replicate_add (f : CisLine → Nat) (x : CisLine) (n a : Nat) :
    (List.replicate n x).foldl (fun a x => a + f x) a = a + n * f x := by
  induction n generalizing a with
  | zero => simp
  | succ n ih => rw [List.replicate_succ, List.foldl_cons, ih, Nat.succ_mul]; omega
theorem mapM_const {α : Type} (l : List Nat) (f : Nat → Option α) (v : α) (h : ∀ i ∈ l, f i = some v) :
    l.mapM f = some (List.replicate l.length v) := by
  induction l with
  | nil => rfl
  | cons a t ih =>
    rw [List.mapM_cons, h a (by simp), ih (fun i hi => h i (List.mem_cons_of_mem a hi))]; rfl
theorem white_ok : whiteGains (List.replicate 1024 { px := List.replicate 54000 0xFF#8 }) = some (List.replicate 36000 16004) := by
  unfold whiteGains
  rw [mapM_const (v := 16004), List.length_range]
  intro i hi
  rw [List.mem_range] at hi
  rw [foldl_replicate_add (fun x => lineCode x.px i)]
  simp only [lineCode_full i 54000 (by omega), List.length_replicate]
  rfl

/-! ## One witness theorem for every statement that has hypotheses: its conjuncts are the statement's clauses, in order -/

theorem witness_StepRunsFrontCommand :
    ∃ (s : State) (c : Instr) (rest : List Instr), (s.pending = c :: rest) :=
  ⟨{ run with pending := [.sqServe, .mbxUpload] }, .sqServe, [.mbxUpload], by decide +kernel⟩

theorem witness_IdleStepTicks :
    ∃ (s : State), (s.pending = []) :=
  ⟨(at_ pwrRUN), by decide +kernel⟩

theorem witness_StepsKeepCanonical :
    ∃ (s : State) (t : State), (s.Canonical) ∧ (step s = .next t) :=
  ⟨{ run with pending := [.trngRecover] }, _, ⟨by decide +kernel, by decide +kernel, by decide +kernel, by decide +kernel, by decide +kernel⟩, rfl⟩

theorem witness_RunsAreSafe :
    ∃ (n : Nat) (s : State), (s.Canonical) :=
  ⟨2, run, ⟨by decide +kernel, by decide +kernel, by decide +kernel, by decide +kernel, by decide +kernel⟩⟩

theorem witness_StepsTakeOneCommand :
    ∃ (s : State) (t : State), (step s = .next t) :=
  ⟨{ run with pending := [.trngRecover] }, _, rfl⟩

theorem witness_SentStaysSent :
    ∃ (s : State) (t : State), (step s = .next t) :=
  ⟨{ run with pending := [.jtagIdcode] }, _, rfl⟩

theorem witness_OthersLeaveMemory :
    ∃ (c : Instr) (s : State) (t : State), (c.mayStore = false) ∧ (exec c s = .next t) :=
  ⟨.jtagIdcode, run, _, by decide +kernel, rfl⟩

theorem witness_AccessesComplete :
    (∃ (s : State) (fn : Nat) (off : Nat) (o : Nat) (src : Nat), (s.fnOpen fn = true) ∧ (off % 4 = 0) ∧ ((if fn = 0 then (some off, srcOf off) else
      s.vfTarget fn off) = (some o, src)) ∧ (o < 0x4000000) ∧ (s.barred o = none) ∧ (isLowWord o = true)) ∧
    (∃ (s : State) (fn : Nat) (off : Nat) (o : Nat) (src : Nat) (v : BitVec 32), (s.fnOpen fn = true) ∧ (off % 4 = 0) ∧ ((if fn = 0 then (some off, srcOf
      off) else s.vfTarget fn off) = (some o, src)) ∧ (o < 0x4000000) ∧ (s.barred o = none) ∧ (isLowWord o = false) ∧ ((s.fn fn).shadow = some (o, v))) ∧
    (∃ (s : State) (t : State) (fn : Nat) (off : Nat), (s.fnOpen fn = true) ∧ (off % 8 = 0) ∧ (exec (.lowWordRead fn off false) s = .next t)) ∧
    (∃ (s : State) (fn : Nat) (off : Nat), (s.fnOpen fn = true) ∧ (s.undefinedAt fn off = true)) ∧
    (∃ (s : State) (fn : Nat) (off : Nat) (v : BitVec 32), (s.fnOpen fn = true) ∧ (s.undefinedAt fn off = true)) ∧
    (∃ (s : State) (fn : Nat) (off : Nat), (s.fnOpen fn = true)) ∧
    (∃ (s : State) (off : Nat) (r : RegRow) (v : BitVec 32), (s.fnOpen 0 = true) ∧ (off % 4 = 0) ∧ (findReg off = some r) ∧ (s.barred off = none) ∧ (off ≠
      HIF_MBX_CTRL.word) ∧ (s.marks = [])) ∧
    (∃ (s : State) (t : State) (fn : Nat) (off : Nat) (v : BitVec 32) (h : BitVec 32), (fn ≤ 15) ∧ (s.fnOpen fn = true) ∧ (off % 8 = 0) ∧ (exec
      (.registerWrite fn off v none) s = .next t)) :=
  ⟨⟨run, 0, 0x100008, 0x100008, 2, by decide +kernel⟩,
   ⟨run.setFn 0 { run.fn 0 with shadow := some (0x10000C, 5) }, 0, 0x10000C, 0x10000C, 2, 5, by decide +kernel⟩,
   ⟨(at_ pwrRUN), _, 0, 0, by decide +kernel, by decide +kernel, rfl⟩,
   ⟨run, 0, 0x20, by decide +kernel⟩,
   ⟨run, 0, 0x20, 0, by decide +kernel⟩,
   ⟨(at_ pwrRUN), 0, 0, by decide +kernel⟩,
   ⟨(at_ pwrRUN), 0, _, 0, by decide +kernel, by decide +kernel, rfl, by decide +kernel⟩,
   ⟨(at_ pwrRUN), _, 0, 0, 0, 0, by decide +kernel, by decide +kernel, by decide +kernel, rfl⟩⟩

theorem witness_WriteFollowsAccessCodes :
    ∃ (s : State) (off : Nat) (r : RegRow) (v : BitVec 32), (s.Canonical) ∧ (s.fnOpen 0 = true) ∧ (off % 4 = 0) ∧ (findReg off = some r) ∧ (s.barred off =
      none) ∧ (off ≠ HIF_MBX_CTRL.word) ∧ (s.marks = []) ∧ (s.wrBlock ⟨0, off, srcOf off, off, v, 0xFFFFFFFF#32⟩ r = s.plain ⟨0, off, srcOf off, off, v,
      0xFFFFFFFF#32⟩ r) :=
  ⟨ready, 0xC1000C, _, 7, ⟨by decide +kernel, by decide +kernel, by decide +kernel, by decide +kernel, by decide +kernel⟩, by decide +kernel,
    by decide +kernel, rfl, by decide +kernel, by decide +kernel, by decide +kernel, rfl⟩

theorem witness_ClocksComplete :
    (∃ (s : State) (d : Nat), (d < 12) ∧ (s.clkRuns d = true) ∧ (d ∉ s.scn.clkLost)) ∧
    (∃ (s : State), (s.clkRuns 23 = true) ∧ (23 ∉ s.scn.clkLost)) ∧
    (∃ (s : State) (d : Nat), (d = 12 ∨ d = 22) ∧ (s.clkRuns d = true) ∧ (d ∉ s.scn.clkLost)) ∧
    (∃ (s : State), (s.clkRuns 15 = true) ∧ (15 ∉ s.scn.clkLost)) ∧
    (∃ (s : State) (u : State), (s.clkRuns 13 = true) ∧ (13 ∉ s.scn.clkLost) ∧ (u = ({ s with scn := { s.scn with clkLost := 13 :: s.scn.clkLost } } :
      State).clkReport 13 3)) ∧
    (∃ (s : State), (s.clkRuns 14 = true) ∧ (14 ∉ s.scn.clkLost) ∧ (s.spl.copies.any Copy.isOpen = false)) ∧
    (∃ (s : State), (s.clkRuns 14 = true) ∧ (14 ∉ s.scn.clkLost) ∧ (s.spl.copies.any Copy.isOpen = true)) ∧
    (∃ (s : State) (d : Nat), (16 ≤ d) ∧ (d ≠ 22) ∧ (d ≠ 23) ∧ (s.clkRuns d = true) ∧ (d ∉ s.scn.clkLost)) ∧
    (∃ (s : State), (23 ∈ s.scn.clkLost)) ∧
    (∃ (s : State), (14 ∈ s.scn.clkLost)) ∧
    (∃ (s : State) (d : Nat), (d ≠ 14) ∧ (d ≠ 23) ∧ (d ∈ s.scn.clkLost)) :=
  ⟨⟨(at_ pwrRUN), 0, by decide +kernel⟩,
   ⟨(at_ pwrRUN), by decide +kernel⟩,
   ⟨run, 12, by decide +kernel⟩,
   ⟨(at_ pwrRUN), by decide +kernel⟩,
   ⟨(at_ pwrRUN), _, by decide +kernel, by decide +kernel, rfl⟩,
   ⟨(at_ pwrRUN), by decide +kernel⟩,
   ⟨{ run with spl := { run.spl with copies := [{}] } }, by decide +kernel⟩,
   ⟨run, 16, by decide +kernel⟩,
   ⟨{ run with scn := { run.scn with clkLost := [23] } }, by decide +kernel⟩,
   ⟨{ run with scn := { run.scn with clkLost := [14] } }, by decide +kernel⟩,
   ⟨{ run with scn := { run.scn with clkLost := [3] } }, 3, by decide +kernel⟩⟩

theorem witness_SdoTransfersComplete :
    (∃ (s : State) (index : Nat) (sub : Nat) (whole : Bool), (s.coeOpen = true) ∧ (s.serverRuns = true) ∧ (s.sdoBusy = false) ∧ (s.hif.sdoWait = [])) ∧
    (∃ (s : State) (index : Nat) (sub : Nat) (whole : Bool) (data : List (BitVec 8)), (s.coeOpen = true) ∧ (s.serverRuns = true) ∧ (s.sdoBusy = false) ∧
      (s.hif.sdoWait = [])) ∧
    (∃ (s : State) (data : List (BitVec 8)), (s.coeOpen = true) ∧ (s.serverRuns = true) ∧ (s.sdoBusy = false) ∧ (s.hif.sdoWait = [])) ∧
    (∃ (s : State) (index : Nat) (sub : Nat) (whole : Bool), (s.coeOpen = true) ∧ (s.sdoBusy = true)) ∧
    (∃ (s : State) (r : SdoReq) (rest : List SdoReq), (s.hif.sdoWait = r :: rest) ∧ (s.serverRuns = true) ∧ (s.sdoBusy = false)) :=
  ⟨⟨((run.setF ECT_CTRL.ENABLE 1).setF ECT_STATUS.AL_STATE 8), 0x1018, 1, false, by decide +kernel⟩,
   ⟨((run.setF ECT_CTRL.ENABLE 1).setF ECT_STATUS.AL_STATE 8), 0x1018, 1, false, [], by decide +kernel⟩,
   ⟨((run.setF ECT_CTRL.ENABLE 1).setF ECT_STATUS.AL_STATE 8), [], by decide +kernel⟩,
   ⟨{ ((run.setF ECT_CTRL.ENABLE 1).setF ECT_STATUS.AL_STATE 8) with hif := { run.hif with xfer := some {} } }, 0, 0, false, by decide +kernel⟩,
   ⟨{ run with hif := { run.hif with sdoWait := [.mailbox []] } }, .mailbox [], [], by decide +kernel⟩⟩

theorem witness_DescriptorsComplete :
    (∃ (s : State) (fn : Nat) (desc : List (BitVec 8)) (src : Option (List (BitVec 8))), (s.reading fn = true) ∧ ((parsePage desc).opcode = 1) ∧ (descCheck
      (s.entryRead fn) fn (parsePage desc) (src.map (parseSource (stationList (parsePage desc).stations).length)) = none)) ∧
    (∃ (s : State) (fn : Nat) (c : Nat) (desc : List (BitVec 8)) (src : Option (List (BitVec 8))), (s.reading fn = true) ∧ ((parsePage desc).opcode = 1) ∧
      (descCheck (s.entryRead fn) fn (parsePage desc) (src.map (parseSource (stationList (parsePage desc).stations).length)) = some c)) ∧
    (∃ (s : State) (fn : Nat) (desc : List (BitVec 8)) (p : Page), (s.reading fn = true) ∧ ((parsePage desc).opcode = 2) ∧ (descCheck (s.entryRead fn) fn
      (parsePage desc) none = none) ∧ ((s.entryRead fn).namedPage fn (parsePage desc) = some p)) ∧
    (∃ (s : State) (fn : Nat) (desc : List (BitVec 8)) (p : Page), (s.reading fn = true) ∧ ((parsePage desc).opcode = 3) ∧ (descCheck (s.entryRead fn) fn
      (parsePage desc) none = none) ∧ ((s.entryRead fn).namedPage fn (parsePage desc) = some p)) ∧
    (∃ (s : State) (fn : Nat) (desc : List (BitVec 8)) (p : Page), (s.reading fn = true) ∧ ((parsePage desc).opcode = 4) ∧ (descCheck (s.entryRead fn) fn
      (parsePage desc) none = none) ∧ ((s.entryRead fn).namedPage fn (parsePage desc) = some p)) ∧
    (∃ (s : State) (fn : Nat) (desc : List (BitVec 8)), (s.reading fn = true) ∧ ((parsePage desc).checkOk = false)) ∧
    (∃ (s : State) (fn : Nat) (desc : List (BitVec 8)), (s.reading fn = true) ∧ ((parsePage desc).checkOk = true) ∧ ((parsePage desc).opcode = 0 ∨ 5 ≤
      (parsePage desc).opcode)) :=
  ⟨⟨run, 0, pageBytes 7 1 0xFF 1 2 1024 256 16, some (srcBytes (64 * 60000)), by decide +kernel⟩,
   ⟨run, 0, 0x25, pageBytes 7 1 0xFF 1 2 1024 200 16, some (srcBytes (64 * 60000)), by decide +kernel⟩,
   ⟨{ withPage run { pg with phase := .final 2 0 } fr with spl := { run.spl with copies := [{ fn := 0, pageId := 7, stage := .complete }] } }, 0, pageBytes
     7 2 0 0 0 0 0 0, _, by decide +kernel, by decide +kernel, by decide +kernel, rfl⟩,
   ⟨withPage run pg fr, 0, pageBytes 7 3 0 0 0 0 0 0, _, by decide +kernel, by decide +kernel, by decide +kernel, rfl⟩,
   ⟨withPage run pg fr, 0, pageBytes 7 4 0 0 0 0 0 0, _, by decide +kernel, by decide +kernel, by decide +kernel, rfl⟩,
   ⟨run, 0, (pageBytes 7 1 0 0 0 0 0 0).set 0 9, by decide +kernel⟩,
   ⟨run, 0, pageBytes 7 5 0 0 0 0 0 0, by decide +kernel⟩⟩

theorem witness_PageProgressComplete :
    (∃ (s : State) (u : State), (s.sweepFrames = u) ∧ (u.leaving = false) ∧ (u.blankDue = true)) ∧
    (∃ (s : State) (u : State) (w : State) (f : Frame) (p : Page), (s.sweepFrames = u) ∧ (u.leaving = false) ∧ (u.blankDue = false) ∧ (u.nextLatch = some
      f) ∧ (f.firstLatch ≤ u.scn.webLine) ∧ (u.pages.frames.find? (fun g => g.tof = f.tof) = some f) ∧ ((∀ q, f.page.bind u.page? = some q →
      ((u.cmp.judged.get? q.seq).any (fun j => j.2) && q.phase = .claimed) = false)) ∧ (w =
      ({ u with pages := { u.pages with frames := u.pages.frames.map (fun g => if g.tof = f.tof then { g with latched := true } else g) } } : State).event
      153) ∧ (f.page.bind w.page? = some p)) ∧
    (∃ (s : State) (st : Nat) (f : Frame) (p : Page), (s.frameAt st (·.latchedSt) = some (f, p)) ∧ (s.topAt f st ≤ s.lineAt st + 2048) ∧ (p.desc.format ≠
      3)) ∧
    (∃ (s : State) (st : Nat) (f : Frame) (p : Page), (s.frameAt st (·.latchedSt) = some (f, p)) ∧ (s.topAt f st ≤ s.lineAt st + 2048) ∧ (p.desc.format =
      3) ∧ (s.firstStation (stationList p.desc.stations) = some st)) ∧
    (∃ (s : State) (u : State) (st : Nat) (f : Frame) (p : Page), (s.frameAt st (·.tofSt) = some (f, p)) ∧ (s.topAt f st ≤ s.lineAt st) ∧ (u = ((s.modPage
      p.seq (fun q => { q with tofSt := markSt q.tofSt st })).insPageTof p st).event (104 + st))) ∧
    (∃ (s : State) (st : Nat) (f : Frame) (p : Page), (s.frameAt st (·.doneSt) = some (f, p)) ∧ (s.topAt f st + f.len ≤ s.lineAt st) ∧ (p.desc.inspected =
      true) ∧ (p.isFinal = false)) :=
  ⟨⟨{ run with scn := { run.scn with webLine := 9000 }, pages := { run.pages with nextTof := some 1 } }, _, rfl, rfl, rfl⟩,
   ⟨withPage run pg fr, _, _, fr, pg, rfl, rfl, rfl, rfl, by decide +kernel, rfl, fun q _ => rfl, rfl, rfl⟩,
   ⟨{ withPage run pg { fr with latched := true } with scn := { run.scn with webLine := 9000, pos := 9000 * 65536 } }, 0, _, _, rfl, by decide +kernel⟩,
   ⟨{ withPage run { pg with desc := { pg.desc with format := 3 } } { fr with latched := true } with scn := { run.scn with webLine := 9000, pos := 9000 * 65536 } },
     0, _, _, rfl, by decide +kernel, rfl, rfl⟩,
   ⟨{ withPage run { pg with phase := .final 2 0 } { fr with latched := true } with scn := { run.scn with webLine := 9000, pos := 9000 * 65536 } }, _, 0,
     _, _, rfl, by decide +kernel, rfl⟩,
   ⟨{ withPage run { pg with desc := { pg.desc with inspect := 1 } } { fr with latched := true } with scn := { run.scn with webLine := 9000, pos := 9000 * 65536 } },
     0, _, _, rfl, by decide +kernel, rfl, rfl⟩⟩

theorem witness_SheetsComplete :
    (∃ (s : State) (p : Page), (s.ringMember = false) ∧ (s.ringMaster = false) ∧ (s.pages.pages.find? (fun p => p.phase = .waiting && !p.feedReq) = some p)
      ∧ (s.sheetMode = true) ∧ (s.inRun = true) ∧ (s.wantsClass p = none) ∧ (s.settled = true) ∧ (s.feedDue = true)) ∧
    (∃ (s : State) (x : Nat × Nat) (t : List (Nat × Nat)), (s.ringMaster = false) ∧ (s.pages.sheetReq = x :: t) ∧ (s.sheetMode = true) ∧ (s.edgeMissed x.2
      = true)) :=
  ⟨⟨{ (run.setObj 0x2101 1 1).setF SCN_STATE.STATE 2 with pages := { run.pages with pages := [{ pg with phase := .waiting }] } },
     { pg with phase := .waiting }, by decide +kernel⟩,
   ⟨sheetState, (1, 0), [], by decide +kernel, by decide +kernel, by decide +kernel, sheet_missed⟩⟩

theorem witness_QueuesComplete :
    (∃ (s : State) (fn : Nat), (s.fnOpen fn = true) ∧ (s.qState fn = qDISABLED) ∧ (s.f HIF_DEV_STATE.STATE ≠ 2) ∧ (4 ≤ s.f (HIF_SQ_SIZE.LOG2 fn)) ∧ (s.f
      (HIF_SQ_SIZE.LOG2 fn) ≤ 12) ∧ (6 ≤ s.f (HIF_CQ_SIZE.LOG2 fn)) ∧ (s.f (HIF_CQ_SIZE.LOG2 fn) ≤ 16)) ∧
    (∃ (s : State) (fn : Nat), (s.fnOpen fn = true) ∧ (s.qState fn ≠ qDISABLED) ∧ (s.activePages fn = 0) ∧ ((s.fn fn).backlog = [])) ∧
    (∃ (s : State) (fn : Nat), (s.fnOpen fn = true) ∧ (s.qState fn ≠ qDISABLED) ∧ (s.activePages fn ≠ 0 ∨ (s.fn fn).backlog ≠ [])) ∧
    (∃ (s : State) (fn : Nat) (tail : Nat), (s.fnOpen fn = true) ∧ (s.qState fn = qRUNNING) ∧ (tail < 4096) ∧ (tail < s.sqSlots fn)) ∧
    (∃ (s : State) (fn : Nat) (tail : Nat), (s.fnOpen fn = true) ∧ (s.qState fn = qRUNNING) ∧ (tail < 4096) ∧ (s.sqSlots fn ≤ tail)) ∧
    (∃ (s : State) (fn : Nat), (s.hif.fetching = some fn)) ∧
    (∃ (s : State) (u : State) (fn : Nat) (how : Nat), (s.hif.fetching = some fn) ∧ (2 ≤ how) ∧ (u = (s.satInc HIF_AER_CNT.UNCORR).report 0x01 0 0x0F fn)) ∧
    (∃ (s : State) (fn : Nat) (head : Nat), (s.fnOpen fn = true) ∧ (head < 65536) ∧ (head < s.cqSlots fn)) ∧
    (∃ (s : State) (fn : Nat), (fn < 16) ∧ ((s.fn fn).inFlr = false)) ∧
    (∃ (s : State) (fn : Nat), (fn < 16) ∧ (s.f (HIF_CQ_COAL.TIME fn) ≠ 0) ∧ ((s.fn fn).unsig ≠ 0)) :=
  ⟨⟨((run.setF (HIF_SQ_SIZE.LOG2 0) 4).setF (HIF_CQ_SIZE.LOG2 0) 6), 0, by decide +kernel⟩,
   ⟨{ (((run.setF (HIF_SQ_SIZE.LOG2 0) 4).setF (HIF_CQ_SIZE.LOG2 0) 6).setF (HIF_Q_STATUS.STATE 0) qRUNNING) with hif := { run.hif with fetching := none } },
     0, by decide +kernel⟩,
   ⟨withPage (((run.setF (HIF_SQ_SIZE.LOG2 0) 4).setF (HIF_CQ_SIZE.LOG2 0) 6).setF (HIF_Q_STATUS.STATE 0) qRUNNING) pg fr, 0, by decide +kernel⟩,
   ⟨(((run.setF (HIF_SQ_SIZE.LOG2 0) 4).setF (HIF_CQ_SIZE.LOG2 0) 6).setF (HIF_Q_STATUS.STATE 0) qRUNNING), 0, 3, by decide +kernel⟩,
   ⟨(((run.setF (HIF_SQ_SIZE.LOG2 0) 4).setF (HIF_CQ_SIZE.LOG2 0) 6).setF (HIF_Q_STATUS.STATE 0) qRUNNING), 0, 20, by decide +kernel⟩,
   ⟨run, 0, by decide +kernel⟩,
   ⟨run, _, 0, 2, by decide +kernel, by decide +kernel, rfl⟩,
   ⟨(at_ pwrRUN), 0, 0, by decide +kernel⟩,
   ⟨(at_ pwrRUN), 0, by decide +kernel⟩,
   ⟨(run.setF (HIF_CQ_COAL.TIME 0) 5).setFn 0 { unsig := 1 }, 0, by decide +kernel⟩⟩

theorem witness_QueueServiceComplete :
    (∃ (s : State) (fn : Nat), (fn < 16) ∧ (s.qState fn = qRUNNING)) ∧
    (∃ (s : State) (fn : Nat), (fn < 16) ∧ (s.qState fn = qPAUSED) ∧ (s.stopActive = false) ∧ (s.inD3 fn = false)) ∧
    (∃ (s : State) (fn : Nat), (s.hif.fetching = none) ∧ (s.f HIF_DEV_STATE.STATE = 1) ∧ (((List.range 16).map (fun i => (s.hif.lastFn + 1 + i) %
      16)).find? s.sqWaits = some fn)) ∧
    (∃ (s : State) (fn : Nat) (vec : Nat), (s.fnOpen fn = true) ∧ (vec < msixCount fn)) ∧
    (∃ (s : State) (fn : Nat), (fn ≠ 0) ∧ (s.fnThere fn = true) ∧ ((s.fn fn).d3 = false)) ∧
    (∃ (s : State) (u : State), (s.fnThere 0 = true) ∧ ((s.fn 0).d3 = false) ∧ (u = (List.range 16).foldl (fun (s : State) f => s.pauseQueue f 4) s)) ∧
    (∃ (s : State) (fn : Nat), (fn ≠ 0) ∧ (fn < 16) ∧ ((s.fn fn).d3 = true)) ∧
    (∃ (s : State), ((s.fn 0).d3 = true)) ∧
    (∃ (s : State) (fn : Nat), (fn ≠ 0) ∧ (s.fnThere fn = true) ∧ ((s.fn fn).inFlr = false)) ∧
    (∃ (s : State) (u : State), (s.fnThere 0 = true) ∧ ((s.fn 0).inFlr = false) ∧ (u = (List.range 16).foldl (fun (s : State) f => s.flrBegin f) s)) ∧
    (∃ (s : State) (fn : Nat), (fn ≠ 0) ∧ (fn < 16) ∧ ((s.fn fn).inFlr = true)) ∧
    (∃ (s : State), ((s.fn 0).inFlr = true)) :=
  ⟨⟨(((run.setF (HIF_SQ_SIZE.LOG2 0) 4).setF (HIF_CQ_SIZE.LOG2 0) 6).setF (HIF_Q_STATUS.STATE 0) qRUNNING), 0, by decide +kernel⟩,
   ⟨run.setF (HIF_Q_STATUS.STATE 0) qPAUSED, 0, by decide +kernel⟩,
   ⟨{ (((run.setF (HIF_SQ_SIZE.LOG2 0) 4).setF (HIF_CQ_SIZE.LOG2 0) 6).setF (HIF_Q_STATUS.STATE 0) qRUNNING).setF (HIF_SQ_TAIL.TAIL 0) 1 with hif := { run.hif with fetching := none } },
     0, by decide +kernel⟩,
   ⟨(at_ pwrRUN), 0, 0, by decide +kernel⟩,
   ⟨{ run with hif := { run.hif with vfEnable := true, numVfs := 4 } }, 2, by decide +kernel⟩,
   ⟨(at_ pwrRUN), _, by decide +kernel, by decide +kernel, rfl⟩,
   ⟨run.setFn 2 { d3 := true }, 2, by decide +kernel⟩,
   ⟨run.setFn 0 { d3 := true }, by decide +kernel⟩,
   ⟨{ run with hif := { run.hif with vfEnable := true, numVfs := 4 } }, 2, by decide +kernel⟩,
   ⟨(at_ pwrRUN), _, by decide +kernel, by decide +kernel, rfl⟩,
   ⟨run.setFn 2 { inFlr := true }, 2, by decide +kernel⟩,
   ⟨run.setFn 0 { inFlr := true }, by decide +kernel⟩⟩

theorem witness_LinkComplete :
    (∃ (s : State), (s.hif.perst = true)) ∧
    (∃ (s : State) (hot : Bool), (s.b HIF_LINK_STATUS.UP = true)) ∧
    (∃ (s : State) (width : Nat) (speed : Nat), (s.b HIF_LINK_STATUS.UP = false) ∧ (s.hif.perst = true) ∧ (s.hif.clkDown = false) ∧ (s.power ≠
      pwrHIBERNATE) ∧ (width ∈ [1, 2, 4, 8, 16]) ∧ (1 ≤ speed) ∧ (speed ≤ 5)) ∧
    (∃ (s : State) (fn : Nat) (off : Nat) (w : Option (BitVec 32)), (s.hif.perst = true) ∧ (s.f HIF_DEV_STATE.STATE = 0 ∨ (s.fn fn).inFlr = true)) ∧
    (∃ (s : State) (fn : Nat) (off : Nat) (v : BitVec 32), (s.hif.perst = true) ∧ (s.f HIF_DEV_STATE.STATE ≠ 0) ∧ ((s.fn fn).inFlr = false) ∧ (s.fnThere fn
      = true)) :=
  ⟨⟨(at_ pwrRUN), by decide +kernel⟩,
   ⟨run.setF HIF_LINK_STATUS.UP 1, false, by decide +kernel⟩,
   ⟨run, 4, 3, by decide +kernel⟩,
   ⟨run.setF HIF_DEV_STATE.STATE 0, 0, 0, none, by decide +kernel⟩,
   ⟨(at_ pwrRUN), 0, 0, 0, by decide +kernel⟩⟩

theorem witness_MailboxComplete :
    (∃ (s : State) (cmd : Nat) (c : Instr), ((cmd, c) ∈ [(1, Instr.mbxUpload), (2, .mbxDownload), (3, .mbxUploadComplete), (4, .mbxDownloadComplete), (5,
      .mbxGetOdList), (6, .mbxGetObjectDesc), (7, .mbxGetEntryDesc)]) ∧ (s.fnOpen 0 = true) ∧ (s.darkAt HIF_MBX_CTRL.word = false) ∧ (bits (s.word
      (HIF_MBX_REQ.word 0)).toNat 0 8 = cmd)) ∧
    (∃ (s : State), (s.hif.xfer.isSome = true) ∧ (s.b HIF_MBX_STATUS.BUSY = false)) :=
  ⟨⟨run.setWord (HIF_MBX_REQ.word 0) 1, 1, .mbxUpload, by decide +kernel⟩,
   ⟨{ run with hif := { run.hif with xfer := some {} } }, by decide +kernel⟩⟩

theorem witness_ChannelsComplete :
    (∃ (s : State) (ch : Nat) (v : BitVec 32), (ch < 64) ∧ (s.poweredDown (SIP_CH_ASSIGN.word ch) = false) ∧ (s.chState ch = chDISABLED ∨ (s.chRole ch ≠ 0
      ∧ s.chState ch = chIDLE)) ∧ (getField v 4 2 < 2 ∨ getField v 0 4 = 0) ∧ (v &&& 0x003F3F3F#32 ≠ s.word (SIP_CH_ASSIGN.word ch))) ∧
    (∃ (s : State) (ch : Nat) (v : BitVec 32), (ch < 64) ∧ (s.poweredDown (SIP_CH_ASSIGN.word ch) = false) ∧ (s.chState ch = chACTIVE) ∧ (v &&&
      0x003F3F3F#32 ≠ s.word (SIP_CH_ASSIGN.word ch))) ∧
    (∃ (s : State) (fn : Nat) (v : BitVec 32), (1 ≤ fn) ∧ (fn < 16) ∧ (s.poweredDown (SIP_FN_WIN.word fn) = false) ∧ ((∀ ch < 64, s.chOwner ch = fn →
      s.chState ch ≤ chIDLE))) ∧
    (∃ (s : State) (ch : Nat), (ch < 64) ∧ (s.poweredDown (SIP_CH_CTRL.word ch) = false) ∧ (s.b (SIP_CH_CTRL.ENABLE ch) = false) ∧ (s.chRole ch = 0) ∧ (4 ≤
      s.f (SIP_CH_RING_SIZE.LOG2 ch)) ∧ (s.f (SIP_CH_RING_SIZE.LOG2 ch) ≤ 12)) ∧
    (∃ (s : State) (ch : Nat), (ch < 64) ∧ (s.poweredDown (SIP_CH_CTRL.word ch) = false) ∧ (s.b (SIP_CH_CTRL.ENABLE ch) = true) ∧ (s.chRole ch = 0) ∧
      (s.chState ch ≠ chACTIVE)) ∧
    (∃ (s : State) (ch : Nat) (tail : Nat), (ch < 64) ∧ (s.poweredDown (SIP_CH_TAIL.word ch) = false) ∧ (s.chRole ch = 0) ∧ (s.chState ch ≠ chDISABLED) ∧
      (tail < 2 ^ s.f (SIP_CH_RING_SIZE.LOG2 ch)) ∧ ((∀ base, base = s.f (SIP_CH_HEAD.HEAD ch) + (if s.chState ch = chACTIVE then 1 else 0) → (s.f
      (SIP_CH_TAIL.TAIL ch) + 2 * 2 ^ s.f (SIP_CH_RING_SIZE.LOG2 ch) - base) % 2 ^ s.f (SIP_CH_RING_SIZE.LOG2 ch) ≤ (tail + 2 * 2 ^ s.f
      (SIP_CH_RING_SIZE.LOG2 ch) - base) % 2 ^ s.f (SIP_CH_RING_SIZE.LOG2 ch)))) ∧
    (∃ (s : State) (ch : Nat) (tail : Nat), (ch < 64) ∧ (s.poweredDown (SIP_CH_TAIL.word ch) = false) ∧ (s.chRole ch = 0) ∧ (s.chState ch = chIDLE) ∧ (2 ^
      s.f (SIP_CH_RING_SIZE.LOG2 ch) ≤ tail)) ∧
    (∃ (s : State) (ch : Nat) (go : Bool) (x : SipXfer), (ch < 64) ∧ (s.poweredDown (SIP_CH_CTRL.word ch) = false) ∧ (s.chRole ch = 0) ∧ (s.chState ch =
      chACTIVE) ∧ ((s.chan ch).xfer = some x) ∧ (x.code = none)) ∧
    (∃ (s : State) (ch : Nat), (ch < 64) ∧ (s.poweredDown (SIP_CH_CTRL.word ch) = false) ∧ (s.chRole ch = 0) ∧ (s.chState ch = chSTOPPED) ∧ (s.stopActive =
      false)) ∧
    (∃ (s : State) (ch : Nat) (go : Bool), (ch < 64) ∧ (s.poweredDown (SIP_CH_CTRL.word ch) = false) ∧ (s.chRole ch ≠ 0)) :=
  ⟨⟨(at_ pwrRUN), 0, 0, by decide +kernel⟩,
   ⟨(run.setF (SIP_CH_STATE.STATE 8) chACTIVE), 8, 0, by decide +kernel⟩,
   ⟨run, 3, 0, by decide +kernel⟩,
   ⟨((run.setF (SIP_CH_CTRL.ENABLE 8) 0).setF (SIP_CH_RING_SIZE.LOG2 8) 4), 8, by decide +kernel⟩,
   ⟨((run.setF (SIP_CH_STATE.STATE 8) chIDLE).setF (SIP_CH_CTRL.ENABLE 8) 1), 8, by decide +kernel⟩,
   ⟨((run.setF (SIP_CH_STATE.STATE 8) chIDLE).setF (SIP_CH_RING_SIZE.LOG2 8) 4), 8, 3, by decide +kernel, by decide +kernel, by decide +kernel,
     by decide +kernel, by decide +kernel, fun b hb => by subst hb; decide +kernel⟩,
   ⟨((run.setF (SIP_CH_STATE.STATE 8) chIDLE).setF (SIP_CH_RING_SIZE.LOG2 8) 4), 8, 20, by decide +kernel⟩,
   ⟨(run.setF (SIP_CH_STATE.STATE 8) chACTIVE).setChan 8 { xfer := some { started := true, desc := { count := 4096 } } }, 8, true,
     { started := true, desc := { count := 4096 } }, by decide +kernel⟩,
   ⟨run.setF (SIP_CH_STATE.STATE 8) chSTOPPED, 8, by decide +kernel⟩,
   ⟨(at_ pwrRUN), 0, false, by decide +kernel⟩⟩

theorem witness_TransfersComplete :
    (∃ (s : State) (ch : Nat), (ch < 64) ∧ (s.chRole ch = 0) ∧ (s.chState ch = chIDLE) ∧ ((s.chan ch).fetching = false) ∧ (s.sip.off = false) ∧
      (s.hostRequests < 512) ∧ (s.f (SIP_CH_TAIL.TAIL ch) ≠ s.f (SIP_CH_HEAD.HEAD ch))) ∧
    (∃ (s : State) (ch : Nat) (b : List (BitVec 8)), (ch < 64) ∧ (s.chRole ch = 0) ∧ (s.chState ch = chIDLE) ∧ ((s.chan ch).fetching = true) ∧ (s.sip.off =
      false)) ∧
    (∃ (s : State) (ch : Nat) (j : SipJob) (d : SipDesc) (t : List (SipJob × SipDesc)) (b : Option (List (BitVec 8))), (ch < 64) ∧ (s.chRole ch ≠ 0) ∧
      ((s.chan ch).todo = (j, d) :: t) ∧ ((s.chan ch).xfer = none) ∧ (s.sip.held = false) ∧ (s.sip.off = false)) ∧
    (∃ (s : State) (ch : Nat) (fail : Nat) (x : SipXfer) (sip : Sip) (data : List (BitVec 8)) (offs : List (BitVec 32)), (s.grant = some (ch, sip)) ∧
      ((s.chan ch).xfer = some x) ∧ (x.job = none)) ∧
    (∃ (s : State) (ch : Nat) (fail : Nat) (st : Nat) (page : Nat) (x : SipXfer) (sip : Sip) (data : List (BitVec 8)) (offs : List (BitVec 32)), (s.grant =
      some (ch, sip)) ∧ ((s.chan ch).xfer = some x) ∧ (x.job = some (.ingest page st))) ∧
    (∃ (s : State) (ch : Nat) (code : Nat) (x : SipXfer), (ch < 64) ∧ ((s.chan ch).xfer = some x) ∧ (x.code = some code) ∧ (x.barrierWait = false) ∧
      (x.desc.flags.getLsbD 0 = false)) ∧
    (∃ (s : State) (u : State) (ch : Nat) (code : Nat) (x : SipXfer), (ch < 64) ∧ ((s.chan ch).xfer = some x) ∧ (x.code = some code) ∧ (x.barrierWait =
      false) ∧ (x.desc.flags.getLsbD 0 = true) ∧ (x.started = true) ∧ (x.barrierMet = false) ∧ (x.moved ≠ 0) ∧ (x.job = none) ∧ (x.desc.dstSpace = spHOST) ∧
      (u = s.sealPart (s.chOwner ch) x) ∧ (u.hostRequests < 512)) ∧
    (∃ (s : State) (ch : Nat) (x : SipXfer), (ch < 64) ∧ ((s.chan ch).xfer = some x) ∧ (x.barrierWait = true) ∧ (x.desc.dstSpace = spHOST)) :=
  ⟨⟨((run.setF (SIP_CH_STATE.STATE 8) chIDLE).setF (SIP_CH_RING_SIZE.LOG2 8) 4).setF (SIP_CH_TAIL.TAIL 8) 3, 8, by decide +kernel⟩,
   ⟨(run.setF (SIP_CH_STATE.STATE 8) chIDLE).setChan 8 { fetching := true }, 8, List.replicate 64 0, by decide +kernel⟩,
   ⟨(run.setF (SIP_CH_ASSIGN.ROLE 8) 1).setChan 8 { todo := [(.ingest 1 0, {})] }, 8, .ingest 1 0, {}, [], none, by decide +kernel⟩,
   ⟨(run.setF (SIP_CH_STATE.STATE 8) chACTIVE).setChan 8 { xfer := some { started := true, desc := { count := 4096 } } }, 8, 0,
     { started := true, desc := { count := 4096 } }, _, [1, 2, 3, 4], [], rfl, by decide +kernel⟩,
   ⟨(run.setF (SIP_CH_STATE.STATE 8) chACTIVE).setChan 8 { xfer := some { started := true, desc := { count := 4096 }, job := some (.ingest 1 0) } }, 8, 0,
     0, 1, { started := true, desc := { count := 4096 }, job := some (.ingest 1 0) }, _, [], [], rfl, by decide +kernel⟩,
   ⟨(run.setF (SIP_CH_STATE.STATE 8) chACTIVE).setChan 8 { xfer := some { started := true, code := some 0 } }, 8, 0, { started := true, code := some 0 },
     by decide +kernel⟩,
   by refine ⟨(run.setF (SIP_CH_STATE.STATE 8) chACTIVE).setChan 8
     { xfer := some { started := true, code := some 0, moved := 64, desc := { flags := 1 } } }, _, 8, 0,
     { started := true, code := some 0, moved := 64, desc := { flags := 1 } }, ?_, ?_, ?_, ?_, ?_, ?_, ?_, ?_, ?_, ?_, rfl, ?_⟩ <;> decide +kernel,
   ⟨(run.setF (SIP_CH_STATE.STATE 8) chACTIVE).setChan 8 { xfer := some { started := true, code := some 0, barrierWait := true, moved := 64 } }, 8,
     { started := true, code := some 0, barrierWait := true, moved := 64 }, by decide +kernel⟩⟩

theorem witness_SpoolDrivesComplete :
    (∃ (s : State), (s.poweredDown SPL_CTRL.word = false) ∧ (s.b SPL_CTRL.ENABLE = false) ∧ (s.b SPL_CTRL.MIRROR = false) ∧ (s.f SEC_LC.STATE ≠ 0) ∧ (s.f
      SEC_LC.STATE ≠ 3)) ∧
    (∃ (s : State), (s.poweredDown SPL_CTRL.word = false) ∧ (s.b SPL_CTRL.ENABLE = true)) ∧
    (∃ (s : State) (d : Nat) (up : Bool), (d < 4) ∧ (s.spl.starting = true) ∧ ((s.drive d).linkDone = false)) ∧
    (∃ (s : State) (d : Nat) (cap : Nat), (d < 4) ∧ (s.spl.starting = true) ∧ ((s.drive d).linkUp = true) ∧ ((s.drive d).decided = false)) ∧
    (∃ (s : State) (u : State) (v : State) (d : Nat) (cap : Nat), (d < 4) ∧ (s.spl.starting = true) ∧ ((s.drive d).linkUp = true) ∧ ((s.drive d).decided =
      false) ∧ (u = ([6, 7] ++ List.replicate 8 8).foldl (fun (t : State) k => t.emit (.nvme d k)) (s.emit (.nvme d 5))) ∧ (v = (u.setF
      SPL_STATUS.SSD_PRESENT (setBit (u.f SPL_STATUS.SSD_PRESENT) d true)).setDrive d { s.drive d with decided := true, capacity := cap, queues := 8 })) ∧
    (∃ (s : State) (d : Nat), (d < 4) ∧ (s.spl.starting = true) ∧ ((s.drive d).linkUp = true) ∧ ((s.drive d).decided = false)) ∧
    (∃ (s : State) (d : Nat), (d < 4) ∧ (bit (s.f SPL_STATUS.SSD_PRESENT) d = true ∨ (s.spl.starting = true ∧ (s.drive d).linkUp = true ∧ (s.drive
      d).decided = false))) ∧
    (∃ (s : State) (u : State), (s.b SPL_STATUS.RECOVERING = true) ∧ (u = (s.spl.catalogue.filter (fun c => !s.recovers c)).foldl (fun t c => t.unmap
      c.drives) s)) ∧
    (∃ (s : State) (j : Bool) (b : Bool), (s.ctrSpent = true)) ∧
    (∃ (s : State) (j : Bool) (b : Bool), (s.ctrSpent = true) ∧ ((s.startEpoch j b).spl.journalOk = true)) :=
  ⟨⟨(run.setF SEC_LC.STATE 1), by decide +kernel⟩,
   ⟨run.setF SPL_CTRL.ENABLE 1, by decide +kernel⟩,
   ⟨{ run with spl := { run.spl with starting := true } }, 0, false, by decide +kernel⟩,
   ⟨{ run.setDrive 0 { linkDone := true, linkUp := true } with spl := { (run.setDrive 0 { linkDone := true, linkUp := true }).spl with starting := true } },
     0, 1000, by decide +kernel⟩,
   ⟨{ run.setDrive 0 { linkDone := true, linkUp := true } with spl := { (run.setDrive 0 { linkDone := true, linkUp := true }).spl with starting := true } },
     _, _, 0, 1000, by decide +kernel, by decide +kernel, by decide +kernel, by decide +kernel, rfl, rfl⟩,
   ⟨{ run.setDrive 0 { linkDone := true, linkUp := true } with spl := { (run.setDrive 0 { linkDone := true, linkUp := true }).spl with starting := true } },
     0, by decide +kernel⟩,
   ⟨run.setF SPL_STATUS.SSD_PRESENT 1, 0, by decide +kernel⟩,
   ⟨run.setF SPL_STATUS.RECOVERING 1, _, by decide +kernel, rfl⟩,
   ⟨run.set64 SPL_CTR_LO.word (2 ^ 63), true, true, by decide +kernel⟩,
   ⟨run.set64 SPL_CTR_LO.word (2 ^ 63), true, true, by decide +kernel⟩⟩

theorem witness_SlicesComplete :
    (∃ (s : State) (u : State) (v : State) (id : Nat) (c : NvmeCmd), (s.spl.cmds.find? (fun c => c.id = id) = some c) ∧ (u =
      { s with spl := { s.spl with cmds := s.spl.cmds.filter (fun x => x.id ≠ id) } }) ∧ (v = u.cmdDone c.op)) ∧
    (∃ (s : State) (u : State) (v : State) (id : Nat) (c : NvmeCmd), (s.spl.cmds.find? (fun c => c.id = id) = some c) ∧ (u =
      { s with spl := { s.spl with cmds := s.spl.cmds.filter (fun x => x.id ≠ id) } }) ∧ (v = (u.cmdFailed c.op).countFailure c.drive)) ∧
    (∃ (s : State) (u : State) (id : Nat) (ch : Nat) (e : Nat) (c : NvmeCmd) (x : SipXfer), (s.spl.cmds.find? (fun c => c.id = id) = some c) ∧ (c.op =
      .read ch e) ∧ (u = { s with spl := { s.spl with cmds := s.spl.cmds.filter (fun x => x.id ≠ id) } }) ∧ ((u.chan ch).xfer = some x)) ∧
    (∃ (s : State) (u : State) (id : Nat) (c : NvmeCmd), (s.spl.cmds.find? (fun c => c.id = id) = some c) ∧ (u = s.countFailure c.drive)) ∧
    (∃ (s : State) (fn : Nat) (v : BitVec 32), (fn < 16) ∧ (s.poweredDown (SPL_QUOTA.word fn) = false)) ∧
    (∃ (s : State) (fn : Nat) (v : BitVec 32), (fn < 16) ∧ (s.poweredDown (SPL_DIRECT.word fn) = false)) ∧
    (∃ (s : State) (u : State) (fn : Nat) (n : Nat) (a : Nat), (fn < 16) ∧ (s.poweredDown (SPL_SL_TRIM.word fn) = false) ∧ (n ≠ 0) ∧ (s.spl.trims.get? fn =
      none) ∧ (a = s.f (SPL_SL_TRIM_START.EXTENT fn)) ∧ (u = s.dropDirect fn (fun d => decide (a ≤ d.ext ∧ d.ext < a + n) && !d.inFlight))) ∧
    (∃ (s : State) (fn : Nat) (k : Nat), (s.spl.trims.get? fn = some k)) ∧
    (∃ (s : State) (fn : Nat) (n : Nat), (fn < 16) ∧ (s.poweredDown (SPL_SL_ENUM_CTRL.word fn) = false) ∧ (n ≠ 0) ∧ (s.spl.enums.get? fn = none)) ∧
    (∃ (s : State) (u : State) (fn : Nat) (k : Nat) (ids : List (BitVec 64)), (s.spl.enums.get? fn = some k) ∧ (ids = ((s.spl.copies.filter (fun c => c.fn
      = fn)).map (fun c => c.pageId)).take k) ∧ (ids ≠ []) ∧ (u = ({ s with spl := { s.spl with enums := s.spl.enums.erase fn } } : State).emit (.hostWrite
      fn (BitVec.ofNat 64 (s.f (SPL_SL_ENUM_HI.ADDR fn) * 2 ^ 32 + s.f (SPL_SL_ENUM_LO.ADDR fn) * 64)) (ids.flatMap (fun i => leBytes 8 i.toNat))))) :=
  ⟨⟨{ run with spl := { run.spl with cmds := [{ id := 5, drive := 1, op := .flush 0 }] } }, _, _, 5, { id := 5, drive := 1, op := .flush 0 },
     by decide +kernel, rfl, rfl⟩,
   ⟨{ run with spl := { run.spl with cmds := [{ id := 5, drive := 1, op := .flush 0 }] } }, _, _, 5, { id := 5, drive := 1, op := .flush 0 },
     by decide +kernel, rfl, rfl⟩,
   ⟨{ (run.setF (SIP_CH_STATE.STATE 8) chACTIVE).setChan 8 { xfer := some { started := true, desc := { count := 4096 } } } with spl := { run.spl with cmds := [{ id := 5, op := .read 8 0 }] } },
     _, 5, 8, 0, { id := 5, op := .read 8 0 }, { started := true, desc := { count := 4096 } }, by decide +kernel, by decide +kernel, rfl, rfl⟩,
   ⟨{ run with spl := { run.spl with cmds := [{ id := 5, drive := 1, op := .flush 0 }] } }, _, 5, { id := 5, drive := 1, op := .flush 0 },
     by decide +kernel, rfl⟩,
   ⟨(at_ pwrRUN), 0, 0, by decide +kernel⟩,
   ⟨(at_ pwrRUN), 0, 0, by decide +kernel⟩,
   ⟨run, _, 3, 4, _, by decide +kernel, by decide +kernel, by decide +kernel, by decide +kernel, rfl, rfl⟩,
   ⟨{ run with spl := { run.spl with trims := [(3, 2)] } }, 3, 2, by decide +kernel⟩,
   ⟨run, 3, 4, by decide +kernel⟩,
   ⟨{ run with spl := { run.spl with enums := [(3, 2)], copies := [{ fn := 3, pageId := 7, stage := .complete }] } }, _, 3, 2, _, by decide +kernel, rfl,
     by decide +kernel, rfl⟩⟩

theorem witness_CodecComplete :
    (∃ (s : State) (j : Nat) (flush : Bool) (close : Bool), (s.jobCtrl j (1 + (if flush then 2 else 0) + (if close then 4 else 0)) = none)) ∧
    (∃ (s : State) (j : Nat) (close : Bool), (s.jobCtrl j (2 + (if close then 4 else 0)) = none)) ∧
    (∃ (s : State) (j : Nat), (s.jobCtrl j 4 = none)) ∧
    (∃ (s : State) (j : Nat), (s.jobCtrl j 8 = none)) ∧
    (∃ (s : State) (j : Nat) (v : Nat), (j < 6) ∧ (s.poweredDown (KOR_JOB_CTRL.word j) = false)) ∧
    (∃ (s : State) (j : Nat), (6 ≤ j) ∧ (j < 8) ∧ (s.poweredDown (KOR_JOB_CTRL.word j) = false)) ∧
    (∃ (s : State) (j : Nat), (j < 6) ∧ (s.jobState j = jobRUNNING) ∧ (s.jobOpen j = false)) ∧
    (∃ (s : State) (j : Nat) (a : Nat), (j < 6) ∧ (s.jobState j = jobRUNNING) ∧ (s.jobOpen j = false) ∧ (a < s.jobLen j)) ∧
    (∃ (s : State) (u : State) (v : State) (j : Nat), (j < 6) ∧ (s.jobState j = jobRUNNING) ∧ (s.jobOpen j = true) ∧ ((s.job j).flush = false) ∧ ((s.job
      j).close = false) ∧ (u = (s.setJob j
      { s.job j with input := (s.job j).input ++ s.dram.bytes (s.jobSrc j + (s.job j).input.length) (s.jobLen j - (s.job j).input.length) }).setF
      (KOR_JOB_IN_DONE.BYTES j) (s.jobLen j)) ∧ (u.f (KOR_JOB_OUT_DONE.BYTES j) ≠ 0) ∧ (u.jobState j = jobRUNNING) ∧ (v = u.openEmit j false (u.openFuel j))
      ∧ (v.jobState j = jobRUNNING)) :=
  ⟨⟨(at_ pwrRUN), 0, false, false, by decide +kernel⟩,
   ⟨(at_ pwrRUN), 0, false, by decide +kernel⟩,
   ⟨(at_ pwrRUN), 0, by decide +kernel⟩,
   ⟨(at_ pwrRUN), 0, by decide +kernel⟩,
   ⟨(at_ pwrRUN), 0, 0, by decide +kernel⟩,
   ⟨run, 6, by decide +kernel⟩,
   ⟨(run.setF (KOR_JOB_STATUS.STATE 0) jobRUNNING).setF (KOR_JOB_LEN.BYTES 0) 64, 0, by decide +kernel⟩,
   ⟨(run.setF (KOR_JOB_STATUS.STATE 0) jobRUNNING).setF (KOR_JOB_LEN.BYTES 0) 64, 0, 5, by decide +kernel⟩,
   ⟨(((run.setF (KOR_JOB_STATUS.STATE 0) jobRUNNING).setF (KOR_JOB_CFG.OPEN 0) 1).setF (KOR_JOB_LEN.BYTES 0) 64).setF (KOR_JOB_OUT_DONE.BYTES 0) 10, _, _,
     0, by decide +kernel, by decide +kernel, by decide +kernel, by decide +kernel, by decide +kernel, rfl, by decide +kernel, rfl, rfl, rfl⟩⟩

theorem witness_ComposerComplete :
    (∃ (s : State) (st : Nat) (p : Page) (x : Stream), (s.freshList st = some (p, x)) ∧ (listHeaderOk p.desc x.layers x.len x.data = true) ∧ (entriesOk
      p.desc.rows x.layers ((x.len - 32) / 16) (x.data.drop 32) 0 = true)) ∧
    (∃ (s : State) (u : State) (v : State) (st : Nat) (l : PList) (p : Page) (es : List Placement) (tag : Bool), (s.cmp.lists.find? (fun l => l.st = st &&
      !l.read && (s.page? l.page).any (fun p => p.active)) = some l) ∧ (s.page? l.page = some p) ∧ (es = l.entries.map (fun e =>
      ({ e with dir := s.dirEntry e.fn e.tile } : Placement))) ∧ (u =
      { s with cmp := { s.cmp with lists := s.cmp.lists.map (fun x => if x.page = l.page && x.st = st then { x with read := true, entries := es } else x) } })
      ∧ (es.find? (fun e => !e.dir.valid) = none) ∧ (es.find? (fun e => e.dir.f2 ≠ bit l.modes e.layer) = none) ∧ (coverOk p.desc es = true) ∧ (v = es.foldl
      (fun s e => s.wantTile e.fn e.tile) u)) ∧
    (∃ (s : State) (fn : Nat) (tile : Nat) (t : TileRes), (s.stored fn tile = some t) ∧ (t.loading = true) ∧ (t.waits = false) ∧ (t.again = false) ∧ (t.err
      = none) ∧ (t.size ≤ t.got)) ∧
    (∃ (s : State) (fn : Nat) (tile : Nat) (t : TileRes), (s.stored fn tile = some t) ∧ (t.waits = true)) ∧
    (∃ (s : State) (i : Nat) (v : BitVec 32), (s.pinWrite i v = none) ∧ (v.getLsbD 31 = true) ∧ ((s.word (CMP_PIN_ID.word i) ^^^ v) &&& 0x803FFFFF#32 ≠ 0)) ∧
    (∃ (s : State) (i : Nat) (v : BitVec 32), (s.pinWrite i v = none) ∧ (v.getLsbD 31 = false) ∧ ((s.word (CMP_PIN_ID.word i) ^^^ v) &&& 0x803FFFFF#32 ≠
      0)) ∧
    (∃ (s : State) (i : Nat), (i < 16) ∧ (s.b (CMP_PIN_ID.EN i) = true) ∧ ((s.pinOf i).accepted = true) ∧ ((s.pinOf i).copied = true) ∧ ((∀ t ∈ s.pinTiles
      i, s.tileResident (s.pinRange i).1 t = true))) ∧
    (∃ (s : State) (u : State) (f : Frame) (p : Page) (j : Nat × Bool), (s.nextLatch = some f) ∧ (f.page.bind s.page? = some p) ∧ (s.cmp.judged.get? p.seq
      = some j) ∧ (p.isFinal = false) ∧ (f.firstLatch ≤ s.scn.webLine + 1) ∧ (u = (if j.1 = s.classNow then s else s.judge p))) :=
  ⟨⟨{ withPage run ({ pg with desc := { pg.desc with format := 3 } }) fr with pages := { (withPage run ({ pg with desc := { pg.desc with format := 3 } }) fr).pages with streams := [{ page := 1, st := 0, len := 32, layers := 1, data := (leBytes 4 0x4C504D43 ++ [1, 1, 1, 0] ++ leBytes 4 0 ++ leBytes 4 64 ++ List.replicate 16 0) }] } },
     0, { pg with desc := { pg.desc with format := 3 } },
     { page := 1, st := 0, len := 32, layers := 1, data := (leBytes 4 0x4C504D43 ++ [1, 1, 1, 0] ++ leBytes 4 0 ++ leBytes 4 64 ++ List.replicate 16 0) },
     by decide +kernel⟩,
   ⟨{ withPage run ({ pg with desc := { pg.desc with format := 3 } }) fr with cmp := { run.cmp with lists := [{ page := 1, st := 0 }] } }, _, _, 0,
     { page := 1, st := 0 }, { pg with desc := { pg.desc with format := 3 } }, _, false, by decide +kernel, by decide +kernel, rfl, rfl, rfl, rfl, rfl, rfl⟩,
   ⟨{ run with cmp := { run.cmp with store := [{ fn := 3, tile := 9, first := 128, exts := 1, size := 60000, got := 60000 }] } }, 3, 9,
     { fn := 3, tile := 9, first := 128, exts := 1, size := 60000, got := 60000 }, by decide +kernel⟩,
   ⟨{ run with cmp := { run.cmp with store := [{ fn := 3, tile := 9, first := 128, exts := 1, size := 60000, waits := true }] } }, 3, 9,
     { fn := 3, tile := 9, first := 128, exts := 1, size := 60000, waits := true }, by decide +kernel⟩,
   ⟨ready, 0, 0x80000005, by decide +kernel⟩,
   ⟨ready, 0, 5, rfl, by decide +kernel⟩,
   ⟨{ (ready.setF (CMP_PIN_ID.EN 0) 1).setF (CMP_PIN_CNT.COUNT 0) 1 with cmp := { run.cmp with pins := [(0, { accepted := true, copied := true })], store := [{ fn := 0, tile := 0, first := 128, exts := 1, size := 60000, loading := false }] } },
     0, by decide +kernel⟩,
   ⟨{ withPage run pg fr with cmp := { run.cmp with judged := [(1, (1, false))] } }, _, fr, pg, (1, false), by decide +kernel, by decide +kernel,
     by decide +kernel, by decide +kernel, by decide +kernel, rfl⟩⟩

theorem witness_FlumesComplete :
    (∃ (s : State) (st : Nat) (n : Nat) (k : Nat) (f : Frame) (p : Page), (s.releaseNext st = some (f, p, k)) ∧ ((s.flumesIn flIDLE).head? = some n) ∧
      (s.inRun = true) ∧ (s.stopActive = false) ∧ (s.flm.lost = []) ∧ (s.releaseTurn = some st)) ∧
    (∃ (s : State) (u : State) (v : State) (w : State) (n : Nat) (f : Furrow) (p : Page) (x : Stream) (above : List Pixel) (lines : List (List Pixel)),
      (s.flm.furrows.find? (fun f => f.flume = some n) = some f) ∧ (s.flState n = flBUSY) ∧ (s.page? f.page = some p) ∧ (s.boundary f.page f.st f.k = some
      above) ∧ (p.desc.format ≠ 3 ∨ (s.filled f.page f.st f.k).isSome = true) ∧ (s.furrowLines p f.st f.k = (0, lines)) ∧ (p.spoil = none) ∧ (u = s.modFurrow
      f.page f.st f.k (fun g =>
      { g with flume := none, done := true, blank := false, codes := s.furrowCodes p.desc f.st f.k lines above, last := lines.getD 31 [] })) ∧ (v =
      (u.wrapInc (FLM_SLICE_DONE.COUNT n)).event (128 + f.st)) ∧ (w = ((if f.redo && (s.frameOf f.page).any (fun fr => decide (s.lineAt f.st ≤ s.deadline fr
      f.st f.k)) then v.satInc FLM_REDO_CNT.REDONE else v).dropFill n).freeFlume n) ∧ (w.streamOf f.page f.st = some x)) ∧
    (∃ (s : State) (n : Nat) (f : Furrow), (s.flm.furrows.find? (fun f => f.flume = some n) = some f) ∧ (s.flState n = flBUSY) ∧ (s.page? f.page = none)) ∧
    (∃ (s : State) (st : Nat) (k : Nat) (f : Frame) (p : Page), (s.releaseNext st = some (f, p, k)) ∧ (s.dataThere p st k = false) ∧ (s.deadlineNear f st k
      = true) ∧ (p.flr = false) ∧ (p.desc.format ≠ 3)) ∧
    (∃ (s : State) (st : Nat) (k : Nat) (p : Page), (s.lateFurrow st = some (p, k)) ∧ (s.furrowAt p.seq st k = none) ∧ (s.flm.lost = [])) ∧
    (∃ (s : State) (u : State) (n : Nat) (f : Furrow), (n < 16) ∧ (s.flm.furrows.find? (fun f => f.flume = some n) = some f) ∧ (s.flState n = flBUSY) ∧ (u
      = (((s.dropFill n).setFurrows (s.flm.furrows.filter (fun g => g.flume ≠ some n))).report 0x06 1 0x40 (f.k / 256 * 2 ^ 24 + flParam n f.st + f.k % 256)
      (((s.page? f.page).map (fun p => idAddr p.desc.pageId)).getD 0)).pf (84 + n))) ∧
    (∃ (s : State) (n : Nat), (n < 16) ∧ (s.poweredDown (FLM_SLICE_CTRL.word n) = false)) ∧
    (∃ (s : State) (n : Nat), (n < 16) ∧ (s.flState n = flTESTING)) ∧
    (∃ (s : State) (st : Nat) (off : Nat) (m : Nat) (v : BitVec 32), (tableStation off = some st) ∧ (s.tablesDark off = false) ∧ (s.stationOn st = true) ∧
      (¬ (0x804000 ≤ off ∧ off < 0x900000 ∧ off % 8 = 4 ∧ v &&& 0xFFF#32 = 0)) ∧ (s.flm.log.length < 262144)) ∧
    (∃ (s : State) (st : Nat), (s.stationBusy st = false)) ∧
    (∃ (s : State) (seq : Nat) (st : Nat) (k : Nat) (n : Nat) (t : List (Nat × Nat × Nat)), (s.flm.lost = (seq, st, k) :: t) ∧ ((s.flumesIn flRESERVE ++
      s.flumesIn flIDLE).head? = some n)) ∧
    (∃ (s : State), (pwrREADY ≤ s.power) ∧ (s.poweredDown FLM_PRED_CFG.word = false) ∧ (s.predictAll.2.2 = []) ∧ (s.predictAll.2.1 = false)) :=
  ⟨⟨{ withPage run { pg with desc := { pg.desc with format := 3 }, latchedSt := 1 } { fr with latched := true } with scn := { run.scn with webLine := 4000 }, cmp := { run.cmp with lists := [{ page := 1, st := 0, read := true }] } },
     0, 0, 0, { fr with latched := true }, { pg with desc := { pg.desc with format := 3 }, latchedSt := 1 }, by rfl, by decide +kernel⟩,
   ⟨zeroState 64, _, _, _, 0, { page := 1, st := 0, k := 0, flume := some 0 }, { pg with phase := .latched }, zeroStream 64, [], ((zeroState
     64).furrowLines { pg with phase := .latched } 0 0).2, by decide +kernel, by decide +kernel, by decide +kernel, rfl, by decide +kernel, zeroState_decodes
     64, by decide +kernel, rfl, rfl, rfl, by decide +kernel⟩,
   ⟨{ run.setF (FLM_SLICE_STATE.STATE 0) flBUSY with flm := { run.flm with furrows := [{ page := 9, st := 0, k := 2, flume := some 0 }] } }, 0,
     { page := 9, st := 0, k := 2, flume := some 0 }, by decide +kernel⟩,
   ⟨{ withPage run { pg with desc := { pg.desc with format := 1 }, latchedSt := 1 } { fr with latched := true } with scn := { run.scn with webLine := 9000 } },
     0, 0, { fr with latched := true }, { pg with desc := { pg.desc with format := 1 }, latchedSt := 1 }, by rfl, by decide +kernel⟩,
   ⟨{ withPage run { pg with desc := { pg.desc with format := 1 }, latchedSt := 1 } { fr with latched := true } with scn := { run.scn with webLine := 4096 } },
     0, 0, { pg with desc := { pg.desc with format := 1 }, latchedSt := 1 }, by rfl, by decide +kernel⟩,
   ⟨{ run.setF (FLM_SLICE_STATE.STATE 0) flBUSY with flm := { run.flm with furrows := [{ page := 9, st := 0, k := 2, flume := some 0 }] } }, _, 0,
     { page := 9, st := 0, k := 2, flume := some 0 }, by decide +kernel, by decide +kernel, by decide +kernel, rfl⟩,
   ⟨(at_ pwrRUN), 0, by decide +kernel⟩,
   ⟨run.setF (FLM_SLICE_STATE.STATE 0) flTESTING, 0, by decide +kernel⟩,
   ⟨ready, 0, 0x803000, 0, 0, by decide +kernel⟩,
   ⟨(at_ pwrRUN), 0, by decide +kernel⟩,
   ⟨{ run with flm := { run.flm with lost := [(1, 0, 3)] } }, 1, 0, 3, 0, [], by decide +kernel⟩,
   ⟨{ ((withPage run pg fr).setF FLM_PRED_CFG.RAMP_MS 0).setF FLM_PRED_CFG.GUARD_MS 0 with pages := { (withPage run pg fr).pages with streams := [{ page := 1, st := 0, len := 64 * 60000 }] } },
     by decide +kernel⟩⟩

theorem witness_ScanTimingComplete :
    (∃ (s : State) (st : Nat), (s.stationOn st = true) ∧ (s.poweredDown (SCN_OFS.word st) = false) ∧ (s.printing st = false)) ∧
    (∃ (s : State) (st : Nat), (s.stationOn st = true) ∧ (s.poweredDown (SCN_ROUTE.word st) = false) ∧ (s.trigNow st ≤ s.line16 st)) ∧
    (∃ (s : State) (t : State) (st : Nat) (pos : Nat) (k : Nat) (f : Frame) (p : Page), (s.sweepAt st pos = some (f, p, k)) ∧ (f.blank = false) ∧ (p.spoil
      = none) ∧ (s.carries p st k = true) ∧ ((s.port (s.portOf st)).laneBad = false) ∧ (s.poly st = polyLOCKED) ∧ (s.f (CLK_PLL_STATE.STATE st) = 3) ∧
      (s.blState (s.portOf st) = blUP) ∧ (s.f (EXP_HEAD_STATE.STATE st) ≠ 3) ∧ (t = s.modScnSt st (fun x =>
      { x with sweep := ⟨some p.seq, k, true, s.facetNext st⟩ }))) ∧
    (∃ (s : State) (st : Nat), (s.stationOn st = true) ∧ (s.poweredDown (SCN_ROUTE.word st) = false)) ∧
    (∃ (s : State) (st : Nat) (e : Int), (s.poly st = polyACQUIRE) ∧ (absI e ≤ s.scaled (s.f (SCN_LOCK.WIN_NS st))) ∧ (63 ≤ (s.scnSt st).inWin)) ∧
    (∃ (s : State) (st : Nat) (e : Int), (s.poly st = polyACQUIRE) ∧ (s.scaled (s.f (SCN_LOCK.WIN_NS st)) < absI e)) ∧
    (∃ (s : State) (u : State) (st : Nat), (s.stationOn st = true) ∧ (s.poly st = polyLOCKED) ∧ (s.printing st = false) ∧ (u = ((s.satInc (SCN_BD_CNT.MISS
      st)).scnReport 0 0x14 st (s.facetNow st)).modScnSt st (fun x => { x with missRun := x.missRun + 1 }))) ∧
    (∃ (s : State) (st : Nat), (s.stationOn st = true) ∧ (s.poly st = polyLOCKED) ∧ (s.printing st = true) ∧ ((s.scnSt st).bdSeen = false)) ∧
    (∃ (s : State) (st : Nat) (m : Nat) (second : Nat), (s.stationOn st = true) ∧ (s.poly st = polyLOCKED) ∧ (2048 ≤ (s.scnSt st).facets) ∧ ((s.scnSt
      st).facet0 = none) ∧ (s.b (SCN_ST_STATE.FID_FAIL st) = false) ∧ (m = argMax (s.scnSt st).fidSum) ∧ (second = ((List.range 8).filter (fun i => i ≠
      m)).foldl (fun (a i : Nat) => max a ((s.scnSt st).fidSum.getD i 0)) 0)) ∧
    (∃ (s : State) (st : Nat), (s.stationOn st = true) ∧ ((s.scnSt st).sweep.print = true) ∧ ((s.scnSt st).bdSeen = true) ∧ ((s.scnSt st).isOpen = false) ∧
      (s.poly st = polyLOCKED)) ∧
    (∃ (s : State) (st : Nat), (s.stationOn st = true) ∧ ((s.scnSt st).isOpen = true) ∧ ((s.scnSt st).zone < 31)) ∧
    (∃ (s : State) (st : Nat), (s.stationOn st = true) ∧ ((s.scnSt st).isOpen = true)) ∧
    (∃ (s : State), (s.f SCN_WEB_CFG.SRC = 0) ∧ (s.poweredDown SCN_WEB_CFG.word = false) ∧ (s.encLost (s.f SCN_WEB_CFG.ENC) (s.f SCN_WEB_SCALE.SCALE) =
      true)) ∧
    (∃ (s : State) (st : Nat), (s.stationOn st = true) ∧ (s.f (SCN_ST_STATE.TRK st) = 1) ∧ (s.poweredDown SCN_WEB_CFG.word = false) ∧ (s.encLost (s.f
      (SCN_TRK.PC_ENC st)) (s.f (SCN_PC_SCALE.SCALE st)) = true)) :=
  ⟨⟨(at_ pwrRUN), 0, by decide +kernel⟩,
   ⟨(at_ pwrRUN), 0, by decide +kernel⟩,
   by refine
     ⟨{ withPage ((((run.setF (SCN_ST_STATE.POLY 0) polyLOCKED).setF (CLK_PLL_STATE.STATE 0) 3).setF (SCN_BL_STATUS.STATE 0) blUP)) { pg with latchedSt := 1 } { fr with latched := true } with scn := { run.scn with webLine := 4200 } },
     _, 0, 4200 * 16, 1, { fr with latched := true }, { pg with latchedSt := 1 }, by rfl, ?_, ?_, ?_, ?_, ?_, ?_, ?_, ?_, rfl⟩ <;> decide +kernel,
   ⟨(at_ pwrRUN), 0, by decide +kernel⟩,
   ⟨(run.setF (SCN_ST_STATE.POLY 0) polyACQUIRE).modScnSt 0 (fun x => { x with inWin := 63 }), 0, 0, by decide +kernel⟩,
   ⟨(run.setF (SCN_ST_STATE.POLY 0) polyACQUIRE), 0, 1000000, by decide +kernel⟩,
   ⟨(run.setF (SCN_ST_STATE.POLY 0) polyLOCKED), _, 0, by decide +kernel, by decide +kernel, by decide +kernel, rfl⟩,
   ⟨withPage ((run.setF (SCN_ST_STATE.POLY 0) polyLOCKED)) { pg with latchedSt := 1 } { fr with latched := true, tof := 0 }, 0, by decide +kernel⟩,
   ⟨(run.setF (SCN_ST_STATE.POLY 0) polyLOCKED).modScnSt 0 (fun x => { x with facets := 2048, fidSum := [5, 9, 1, 1, 1, 1, 1, 1] }), 0, _, _,
     by decide +kernel, by decide +kernel, by decide +kernel, by decide +kernel, by decide +kernel, rfl, rfl⟩,
   ⟨(run.setF (SCN_ST_STATE.POLY 0) polyLOCKED).modScnSt 0 (fun x =>
     { x with sweep := { page := some 1, k := 0, print := true, facet := 0 }, bdSeen := true }), 0, by decide +kernel⟩,
   ⟨(run.setF (SCN_ST_STATE.POLY 0) polyLOCKED).modScnSt 0 (fun x => { x with isOpen := true, zone := 3 }), 0, by decide +kernel⟩,
   ⟨(run.setF (SCN_ST_STATE.POLY 0) polyLOCKED).modScnSt 0 (fun x => { x with isOpen := true, zone := 3 }), 0, by decide +kernel⟩,
   ⟨{ run.setF SCN_WEB_CFG.ENC 0 with lpe := { run.lpe with enc := [(0, { ill := [0, 0, 0, 0, 0] })] } }, by decide +kernel⟩,
   ⟨{ run.setF (SCN_ST_STATE.TRK 0) 1 with lpe := { run.lpe with enc := [(0, { ill := [0, 0, 0, 0, 0] })] } }, 0, by decide +kernel⟩⟩

theorem witness_ClassesComplete :
    (∃ (s : State) (pll : Nat), (pll < 16) ∧ (s.f (CLK_PLL_STATE.STATE pll) < 2)) ∧
    (∃ (s : State) (pll : Nat), (pll < 16) ∧ (s.f (CLK_PLL_STATE.STATE pll) = 2)) ∧
    (∃ (s : State) (u : State) (pll : Nat), (pll < 16) ∧ (s.f (CLK_PLL_STATE.STATE pll) = 3) ∧ (u = (s.pllSearch pll).modPll pll (fun p =>
      { p with attempts := 0 }))) ∧
    (∃ (s : State) (pll : Nat) (n : Nat), (pll < 16) ∧ (s.f (CLK_PLL_STATE.STATE pll) ≠ 0) ∧ (s.f (CLK_PLL_STATE.STATE pll) < 3) ∧ (n = (s.scn.plls.getD
      ({} : PllSt) pll).attempts + 1) ∧ (n < 3)) ∧
    (∃ (s : State) (pll : Nat), (pll < 12) ∧ (s.f (CLK_PLL_STATE.STATE pll) = 4) ∧ (s.stationBusy pll = false)) ∧
    (∃ (s : State) (pll : Nat), (pll < 12) ∧ (s.f (CLK_PLL_STATE.STATE pll) ≠ 0) ∧ (s.printing pll = false)) ∧
    (∃ (s : State) (u : State) (m : Nat) (c : Nat) (v : BitVec 32), (s.poweredDown SCN_CTRL.word = false) ∧ (s.ringMember = false) ∧ (c = v.toNat % 8) ∧
      (s.classRefusal c = 0) ∧ (u = (s.setF SCN_STATE.REFUSE 0).setF SCN_CTRL.CLASS c)) ∧
    (∃ (s : State) (m : Nat) (v : BitVec 32), (s.poweredDown SCN_CTRL.word = false) ∧ (s.ringMember = false) ∧ (s.classRefusal (v.toNat % 8) ≠ 0)) ∧
    (∃ (s : State), (s.inRun = true) ∧ (s.leaving = false) ∧ (s.ramping = false) ∧ (s.enabledStations.any s.stationBusy = false) ∧ (¬ (s.settled = true ∧
      s.nextClass = s.classNow))) ∧
    (∃ (s : State), (s.inRun = true) ∧ (s.ramping = true) ∧ (s.ringMember = false) ∧ (s.allLocked = true) ∧ (s.ringMaster = false)) ∧
    (∃ (s : State), (s.ramping = true)) :=
  ⟨⟨(at_ pwrRUN), 0, by decide +kernel⟩,
   ⟨(run.setF (CLK_PLL_STATE.STATE 0) 2), 0, by decide +kernel⟩,
   ⟨(run.setF (CLK_PLL_STATE.STATE 0) 3), _, 0, by decide +kernel, by decide +kernel, rfl⟩,
   ⟨(run.setF (CLK_PLL_STATE.STATE 0) 1), 0, _, by decide +kernel, by decide +kernel, by decide +kernel, rfl, by decide +kernel⟩,
   ⟨(run.setF (CLK_PLL_STATE.STATE 0) 4), 0, by decide +kernel⟩,
   ⟨(run.setF (CLK_PLL_STATE.STATE 0) 3), 0, by decide +kernel⟩,
   ⟨(at_ pwrRUN), _, 0, _, 0, by decide +kernel, by decide +kernel, rfl, rfl, rfl⟩,
   ⟨run, 0, 7, by decide +kernel⟩,
   ⟨(at_ pwrRUN), by decide +kernel⟩,
   ⟨((List.range 12).foldl (fun (s : State) st => s.setF (SCN_ST_STATE.POLY st) polyLOCKED) (run.setF SCN_STATE.STATE 1)), by decide +kernel⟩,
   ⟨(run.setF SCN_STATE.STATE 1), by decide +kernel⟩⟩

theorem witness_BeamLinksComplete :
    (∃ (s : State) (bl : Nat), (s.poweredDown (SCN_BL_CTRL.word bl) = false) ∧ (s.stationOn bl = true) ∧ (s.b (SCN_BL_CTRL.ENABLE bl) = false)) ∧
    (∃ (s : State) (bl : Nat), (s.poweredDown (SCN_BL_CTRL.word bl) = false) ∧ (s.stationOn bl = true) ∧ (s.blPrinting bl = false)) ∧
    (∃ (s : State) (bl : Nat), (s.poweredDown (SCN_BL_CTRL.word bl) = false) ∧ (s.stationOn bl = true) ∧ (s.b (SCN_BL_CTRL.ENABLE bl) = true)) ∧
    (∃ (s : State) (bl : Nat), (s.stationOn bl = true) ∧ (s.blState bl = blTRAIN)) ∧
    (∃ (s : State) (bl : Nat), (s.stationOn bl = true) ∧ (s.blState bl = blALIGN)) ∧
    (∃ (s : State) (u : State) (bl : Nat), (s.stationOn bl = true) ∧ ((s.blState bl = blTRAIN ∨ s.blState bl = blALIGN)) ∧ ((s.port bl).attempts + 1 < 3) ∧
      (u = (s.satInc (SCN_BL_ERR.TRAIN_FAIL bl)).setF (SCN_BL_STATUS.CAUSE bl) (if (s.port bl).orderErr then 2 else 1))) ∧
    (∃ (s : State) (u : State) (v : State) (bl : Nat) (st : Nat), (s.stationOn bl = true) ∧ ((s.blState bl = blTRAIN ∨ s.blState bl = blALIGN)) ∧ (3 ≤
      (s.port bl).attempts + 1) ∧ (u = (s.satInc (SCN_BL_ERR.TRAIN_FAIL bl)).setF (SCN_BL_STATUS.CAUSE bl) (if (s.port bl).orderErr then 2 else 1)) ∧ (v =
      (u.setPort bl { s.port bl with attempts := 3, queue := [], cur := none, fails := 0, busy := false }).setBl bl blFAILED) ∧ (v.stationOf bl = some st)) ∧
    (∃ (s : State) (bl : Nat), (s.stationOn bl = true) ∧ (s.blState bl = blUP)) ∧
    (∃ (s : State) (bl : Nat) (r : SbReq) (t : List SbReq), (s.stationOn bl = true) ∧ (s.blState bl ≠ blDOWN) ∧ (s.blState bl ≠ blFAILED) ∧ ((s.port
      bl).cur = none) ∧ ((s.port bl).queue = r :: t)) ∧
    (∃ (s : State) (bl : Nat) (r : SbReq) (body : List Byte), (s.stationOn bl = true) ∧ ((s.port bl).busy = false) ∧ ((s.port bl).cur = some r) ∧ (r.write
      = false) ∧ (body.length = 2 + 4 * r.len) ∧ (leAt body 0 1 = 0) ∧ (leAt body 1 1 = (s.port bl).tag)) ∧
    (∃ (s : State) (bl : Nat) (r : SbReq) (body : List Byte), (s.stationOn bl = true) ∧ ((s.port bl).busy = false) ∧ ((s.port bl).cur = some r) ∧ (2 ≤
      body.length) ∧ (leAt body 0 1 = 3) ∧ (leAt body 1 1 = (s.port bl).tag)) ∧
    (∃ (s : State) (bl : Nat) (r : SbReq), (s.stationOn bl = true) ∧ ((s.port bl).busy = false) ∧ ((s.port bl).cur = some r)) ∧
    (∃ (s : State) (bl : Nat) (r : SbReq), ((s.port bl).busy = true) ∧ ((s.port bl).cur = some r)) :=
  ⟨⟨(at_ pwrRUN), 0, by decide +kernel⟩,
   ⟨(at_ pwrRUN), 0, by decide +kernel⟩,
   ⟨run.setF (SCN_BL_CTRL.ENABLE 0) 1, 0, by decide +kernel⟩,
   ⟨(run.setF (SCN_BL_STATUS.STATE 0) blTRAIN), 0, by decide +kernel⟩,
   ⟨(run.setF (SCN_BL_STATUS.STATE 0) blALIGN), 0, by decide +kernel⟩,
   ⟨(run.setF (SCN_BL_STATUS.STATE 0) blTRAIN), _, 0, by decide +kernel, by decide +kernel, by decide +kernel, rfl⟩,
   ⟨(run.setF (SCN_BL_STATUS.STATE 0) blALIGN).setPort 0 { attempts := 2 }, _, _, 0, 0, by decide +kernel, by decide +kernel, by decide +kernel, rfl, rfl,
     rfl⟩,
   ⟨(run.setF (SCN_BL_STATUS.STATE 0) blUP), 0, by decide +kernel⟩,
   ⟨(run.setF (SCN_BL_STATUS.STATE 0) blUP).setPort 0 { queue := [{ addr := 0x40 }] }, 0, { addr := 0x40 }, [], by decide +kernel⟩,
   ⟨(run.setF (SCN_BL_STATUS.STATE 0) blUP).setPort 0 { cur := some { addr := 0x40 }, tag := 7 }, 0, { addr := 0x40 }, [0, 7, 1, 2, 3, 4],
     by decide +kernel⟩,
   ⟨(run.setF (SCN_BL_STATUS.STATE 0) blUP).setPort 0 { cur := some { addr := 0x40 }, tag := 7 }, 0, { addr := 0x40 }, [3, 7], by decide +kernel⟩,
   ⟨(run.setF (SCN_BL_STATUS.STATE 0) blUP).setPort 0 { cur := some { addr := 0x40 }, tag := 7 }, 0, { addr := 0x40 }, by decide +kernel⟩,
   ⟨(run.setF (SCN_BL_STATUS.STATE 0) blUP).setPort 0 { cur := some { addr := 0x40 }, tag := 7, busy := true }, 0, { addr := 0x40 }, by decide +kernel⟩⟩

theorem witness_RoutesComplete :
    (∃ (s : State) (st : Nat) (v : BitVec 32), (s.poweredDown (SCN_ROUTE.word st) = false) ∧ (s.stationOn st = true) ∧ (s.routeOk st (v.toNat % 16) =
      true)) ∧
    (∃ (s : State) (st : Nat) (v : BitVec 32), (s.poweredDown (SCN_ROUTE.word st) = false) ∧ (s.stationOn st = true) ∧ (s.routeOk st (v.toNat % 16) =
      false)) ∧
    (∃ (s : State) (st : Nat) (v : BitVec 32), (s.poweredDown (SCN_ROUTE.word st) = false) ∧ (s.stationOn st = false)) ∧
    (∃ (s : State) (st : Nat) (v : BitVec 32), (s.poweredDown (SCN_OFS.word st) = false) ∧ (s.stationOn st = true)) :=
  ⟨⟨(at_ pwrRUN), 0, 0, by decide +kernel⟩,
   ⟨run, 0, 15, by decide +kernel⟩,
   ⟨{ run with variant := .sx0432 }, 9, 0, by decide +kernel⟩,
   ⟨(at_ pwrRUN), 0, 0, by decide +kernel⟩⟩

theorem witness_ExposureComplete :
    (∃ (s : State) (st : Nat), (s.stationOn st = true) ∧ (s.poweredDown (EXP_WIN.word st) = false) ∧ (s.blState (s.portOf st) = blUP) ∧ (s.f
      (EXP_HEAD_STATE.STATE st) = 2) ∧ ((s.port (s.portOf st)).queue.any (fun q => q.prio = 3) = false)) ∧
    (∃ (s : State) (st : Nat) (n : Nat), (s.stationOn st = true) ∧ (s.poweredDown (EXP_WIN.word st) = false) ∧ (s.b EXP_CTRL.CAL_EN = true) ∧ (s.b
      CLK_STATUS.CALREF_OK = true) ∧ ((s.expSt st).calT = 0)) ∧
    (∃ (s : State) (st : Nat) (n : Nat) (r : Nat × Nat), (s.stationOn st = true) ∧ (s.poweredDown (EXP_WIN.word st) = false) ∧ (s.b EXP_CTRL.CAL_EN = true)
      ∧ (s.b CLK_STATUS.CALREF_OK = true) ∧ ((s.expSt st).calT ≠ 0) ∧ ((s.expSt st).calT < 63) ∧ (0 < n) ∧ (n < (s.expSt st).count0) ∧ (r = tapMeasure
      (s.tapN st (s.expSt st).calT) (s.expSt st).calT (s.expSt st).count0 n s.classNow)) ∧
    (∃ (s : State) (u : State) (m : Nat) (v : BitVec 32), (s.poweredDown SCN_CTRL.word = false) ∧ (s.inRun = false) ∧ (v.getLsbD 7 ≠ s.b SCN_CTRL.HALF) ∧
      (u = (s.setB SCN_CTRL.HALF (v.getLsbD 7)).setB EXP_STATUS.HALF_ACTIVE (v.getLsbD 7))) :=
  ⟨⟨(run.setF (SCN_BL_STATUS.STATE 0) blUP).setF (EXP_HEAD_STATE.STATE 0) 2, 0, by decide +kernel⟩,
   ⟨((run.setF EXP_CTRL.CAL_EN 1).setF CLK_STATUS.CALREF_OK 1), 0, 900, by decide +kernel⟩,
   by refine ⟨((run.setF EXP_CTRL.CAL_EN 1).setF CLK_STATUS.CALREF_OK 1).setExpSt 0 { calT := 3, count0 := 1000 }, 0, 900, _, ?_, ?_, ?_, ?_, ?_, ?_, ?_,
     ?_, rfl⟩ <;> decide +kernel,
   ⟨ready, _, 0, 0x80, by decide +kernel, by decide +kernel, by decide +kernel, rfl⟩⟩

theorem witness_InspectionComplete :
    (∃ (s : State) (u : State) (side : Nat), (s.sideOn side = true) ∧ (s.insRuns = true) ∧ (s.sideEnabled side = true) ∧ (s.insUp side = false) ∧ (u =
      (s.setF (INS_LINK.LANE_LOCK side) 15).setInsLink side 2)) ∧
    (∃ (s : State) (side : Nat) (l : BitVec 4), (s.sideOn side = true) ∧ (s.insUp side = true) ∧ (l ≠ 15#4)) ∧
    (∃ (s : State) (side : Nat) (ls : List (List (Bool × BitVec 64))) (q : BitVec 32) (px : List Byte) (a : CisLine) (b : CisLine), (s.sideOn side = true)
      ∧ (s.insRuns = true) ∧ (s.sideEnabled side = true) ∧ (s.insUp side = true) ∧ (cisBytes ls = some (q, px)) ∧ ((s.insSide side).lseq = some (q - 1)) ∧
      ((s.insSide side).last = some a) ∧ (b = ⟨s.posAt (s.now.toNat - 100 * s.f (INS_CIS_CFG.LAT side)), s.now.toNat, px⟩)) ∧
    (∃ (s : State) (side : Nat) (ls : List (List (Bool × BitVec 64))), (s.sideOn side = true) ∧ (s.insRuns = true) ∧ (s.sideEnabled side = true) ∧
      (cisBytes ls = none)) ∧
    (∃ (s : State) (side : Nat) (y : InsPage) (p : Page), ((s.insSide side).pages.head? = some y) ∧ (s.page? y.page = some p) ∧ (p.isFinal = false) ∧
      ((s.inRun = true → s.rowPos y (p.desc.cisRows - 1) ≤ s.scn.pos / 4096))) ∧
    (∃ (s : State) (side : Nat) (q : Nat), (s.poweredDown (INS_ACK.word side) = false) ∧ (s.sideOn side = true) ∧ (s.b (INS_RESULT.READY side) = true) ∧
      (s.f (INS_RESULT.SEQ side) = q % 65536) ∧ (side ∉ s.roundOf 4 mkReady)) ∧
    (∃ (s : State) (side : Nat), (s.poweredDown (INS_CAL_CTRL.word side) = false) ∧ (s.sideOn side = true) ∧ (s.power = pwrREADY) ∧ (s.b
      (INS_CAL_STATUS.BUSY side) = false) ∧ (s.insUp side = true)) ∧
    (∃ (s : State) (side : Nat) (g : List Nat), (s.sideOn side = true) ∧ (s.b (INS_CAL_STATUS.BUSY side) = true) ∧ (1024 ≤ (s.insSide
      side).capLines.length) ∧ ((s.insSide side).capOp = 1) ∧ (whiteGains (s.insSide side).capLines = some g)) ∧
    (∃ (s : State), (s.poweredDown INS_AUDIT_CTRL.word = false) ∧ (s.f INS_AUDIT_CTRL.STATE ≠ 1)) ∧
    (∃ (s : State) (a : Audit) (d : Nat), (s.f INS_AUDIT_CTRL.STATE = 1) ∧ (s.auditNamed = some a) ∧ (a.data.length ≤ s.f INS_AUDIT_LIMIT.BYTES) ∧ (d = s.f
      INS_AUDIT_DST_HI.ADDR * 2 ^ 32 + s.f INS_AUDIT_DST_LO.ADDR * 64) ∧ (s.freeBase ≤ d) ∧ (d + a.data.length ≤ s.dramEnd)) :=
  ⟨⟨(run.setF INS_CTRL.EN0 1), _, 0, by decide +kernel, by decide +kernel, by decide +kernel, by decide +kernel, rfl⟩,
   ⟨((run.setF INS_CTRL.EN0 1).setF (INS_LINK.STATE 0) 2), 0, 7, by decide +kernel⟩,
   cis_ok.elim fun px h => ⟨((run.setF INS_CTRL.EN0 1).setF (INS_LINK.STATE 0) 2).setInsSide 0 { lseq := some (5 - 1), last := some {} }, 0, cisLanes, 5,
     px, {}, _, by decide +kernel, by decide +kernel, by decide +kernel, by decide +kernel, h, by decide +kernel, by decide +kernel, rfl⟩,
   ⟨((run.setF INS_CTRL.EN0 1).setF (INS_LINK.STATE 0) 2), 0, [], by decide +kernel⟩,
   ⟨(withPage ready ({ pg with desc := { pg.desc with inspect := 1 }, phase := .printed }) fr).setInsSide 0
     { pages := [{ page := 1, side := 0, on := true }] }, 0, { page := 1, side := 0, on := true },
     { pg with desc := { pg.desc with inspect := 1 }, phase := .printed }, by decide +kernel⟩,
   ⟨(run.setF (INS_RESULT.READY 0) 1).setF (INS_RESULT.SEQ 0) 7, 0, 7, by decide +kernel⟩,
   ⟨ready.setF (INS_LINK.STATE 0) 2, 0, by decide +kernel⟩,
   ⟨(ready.setF (INS_CAL_STATUS.BUSY 0) 1).setInsSide 0 { capOp := 1, capLines := List.replicate 1024 { px := List.replicate 54000 0xFF#8 } }, 0,
     List.replicate 36000 16004, by decide +kernel, by decide +kernel, Nat.le_of_eq List.length_replicate.symm, rfl, white_ok⟩,
   ⟨(at_ pwrRUN), by decide +kernel⟩,
   ⟨{ ((((run.setF INS_AUDIT_CTRL.STATE 1).set64 INS_AUDIT_PAGE_LO.word 7).setF INS_AUDIT_LIMIT.BYTES 4096)).setF INS_AUDIT_DST_LO.ADDR (0xF0000000 / 64) with spl := { run.spl with audits := [{ key := 3, fn := 0, pageId := 7, data := [1, 2, 3], complete := true }] } },
     { key := 3, fn := 0, pageId := 7, data := [1, 2, 3], complete := true }, _, by decide +kernel, by decide +kernel, by decide +kernel, rfl,
     by decide +kernel⟩⟩

theorem witness_LoopsComplete :
    (∃ (s : State) (lp : Nat), (lp < 64) ∧ (s.poweredDown (LPE_LP_CMD.word lp) = false) ∧ (s.lpState lp ≠ lpOFF)) ∧
    (∃ (s : State) (t : State) (lp : Nat), (lp < 64) ∧ (s.poweredDown (LPE_LP_CMD.word lp) = false) ∧ (s.lpState lp = lpOFF) ∧ (s.lpOpenCheck lp = 0) ∧ (t
      = s.setLoop lp
      { u := (s.loop lp).u, prime := true, zero := s.lpPosCount lp, pcnt := s.lpPosCount lp, open0 := (s.encIn (s.f (LPE_LP_IN.INDEX lp))).cnt, cnt := (s.encIn (s.f (LPE_LP_IN.INDEX lp))).cnt, ofs := s.word (LPE_LP_POS_OFS.word lp) })) ∧
    (∃ (s : State) (lp : Nat), (lp < 64) ∧ (s.poweredDown (LPE_LP_CMD.word lp) = false) ∧ (s.lpState lp = lpOFF) ∧ (s.lpOpenCheck lp ≠ 0)) ∧
    (∃ (s : State) (lp : Nat), (lp < 64) ∧ (s.poweredDown (LPE_LP_CMD.word lp) = false) ∧ (s.lpState lp = lpOPEN) ∧ (s.lpCloseOk lp = true)) ∧
    (∃ (s : State) (u : State) (t : State) (lp : Nat) (c : BitVec 16) (ecc : Nat), (lp < 64) ∧ (ecc = 0) ∧ (s.lpRuns lp = true) ∧ (s.awake = true) ∧ (t =
      (if s.lpAdc lp then s.setF (LPE_ADC_VAL.CODE (s.f (LPE_LP_IN.INDEX lp))) c.toNat else s)) ∧ (t.lpLost lp = false) ∧ (t.lpStale lp = false) ∧ (u =
      ((s.lpArrive lp c).lpRaw lp c).2.2)) ∧
    (∃ (s : State) (lp : Nat) (c : BitVec 16), (lp < 64) ∧ (s.lpRuns lp = true) ∧ (s.awake = true)) ∧
    (∃ (s : State) (lp : Nat) (u : F32), (lp < 64) ∧ (s.awake = true) ∧ ((s.loop lp).due = some u) ∧ (s.lpState lp ≠ lpFAULT) ∧ ((s.modLoop lp (fun x =>
      { x with due := none, late := 0 })).lpState lp = s.lpState lp)) ∧
    (∃ (s : State) (t : State) (lp : Nat), (lp < 64) ∧ (s.awake = true) ∧ (s.lpRuns lp = true) ∧ (t = (s.modLoop lp (fun x =>
      { x with late := (s.loop lp).late + 1, due := none })).satInc (LPE_LP_CNT.OVERRUN lp))) ∧
    (∃ (s : State) (ch : Nat) (c : BitVec 16), (s.awake = true) ∧ (s.scanTurn = some ch)) ∧
    (∃ (s : State) (t : State) (c : Nat), (c < 32) ∧ (s.awake = true) ∧ (t =
      { s with lpe := { s.lpe with pwm := s.lpe.pwm.set 0 c (s.f (LPE_PWM_DUTY.DUTY c)) } })) ∧
    (∃ (s : State) (st : Nat) (lp : Nat), (s.polyLoop st = some lp) ∧ (s.lpState lp = lpCLOSED) ∧ (s.poly st = polyACQUIRE) ∧ (((s.scnSt st).acqAt ::
      (s.scnSt st).bd).any (fun t => decide (s.now.toNat < t + 64 * s.period)) = false)) :=
  ⟨⟨(run.setF (LPE_LP_STATUS.STATE 0) lpOPEN), 0, by decide +kernel⟩,
   ⟨(at_ pwrRUN), _, 0, by decide +kernel, by decide +kernel, by decide +kernel, by decide +kernel, rfl⟩,
   ⟨run.setF (LPE_LP_IN.KIND 0) 9, 0, by decide +kernel⟩,
   ⟨(run.setF (LPE_LP_STATUS.STATE 0) lpOPEN), 0, by decide +kernel⟩,
   ⟨(run.setF (LPE_LP_STATUS.STATE 0) lpOPEN).setF (LPE_LP_IN.KIND 0) 1, _, _, 0, 0x8000, _, by decide +kernel, rfl, by decide +kernel, by decide +kernel,
     rfl, rfl, rfl, rfl⟩,
   ⟨(run.setF (LPE_LP_STATUS.STATE 0) lpOPEN), 0, 0, by decide +kernel⟩,
   ⟨(run.setF (LPE_LP_STATUS.STATE 0) lpCLOSED).modLoop 0 (fun x => { x with due := some 0x3F800000 }), 0, 0x3F800000, by decide +kernel⟩,
   ⟨(run.setF (LPE_LP_STATUS.STATE 0) lpCLOSED), _, 0, by decide +kernel, by decide +kernel, by decide +kernel, rfl⟩,
   ⟨run.setF LPE_ADC_SCAN.MASK 1, 0, 77, by decide +kernel⟩,
   ⟨(at_ pwrRUN), _, 0, by decide +kernel, by decide +kernel, rfl⟩,
   ⟨{ ((run.setF (LPE_LP_STATUS.STATE 5) lpCLOSED).setF (LPE_LP_IN.KIND 5) 4).setF (SCN_ST_STATE.POLY 0) polyACQUIRE with now := 10 ^ 12 }, 0, 5,
     by decide +kernel⟩⟩

theorem witness_AxesComplete :
    (∃ (s : State) (ax : Nat) (c : Nat) (p : Bool), (ax < 24) ∧ (s.poweredDown (MOT_AX_CMD.word ax) = false) ∧ ((s.stopActive = false ∨ p = true))) ∧
    (∃ (s : State) (ax : Nat), (s.axGuard ax 1 false = none) ∧ (s.stopReports = false) ∧ (s.axState ax = axDISABLED) ∧ ((s.axis ax).enabling = false) ∧
      (s.axEncTaken ax = false)) ∧
    (∃ (s : State) (t : State) (ax : Nat) (ta : List Nat) (tb : List Nat), ((s.axis ax).enabling = true) ∧ (t = ((((s.setF (MOT_AX_TD.TD_A ax) (min 65535
      (meanDelay ta))).setF (MOT_AX_TD.TD_B ax) (min 65535 (meanDelay tb))).modAxis ax (fun x => { x with enabling := false, jog := 0 })).axTo ax
      axIDLE).bridges ax false false)) ∧
    (∃ (s : State) (ax : Nat), (s.axGuard ax 2 true = none) ∧ ((s.axRests ax = true ∨ s.axState ax = axFAULT))) ∧
    (∃ (s : State) (ax : Nat) (t : Int), (s.axGuard ax 3 false = none) ∧ (s.stopReports = false) ∧ (s.axRests ax = true) ∧ (s.axRateBad ax = false) ∧ (t =
      s.i32 (MOT_AX_TARGET.word ax)) ∧ ((t - s.axPos ax) % (s.axStepSize ax : Int) = 0) ∧ (s.axOutside ax t = false)) ∧
    (∃ (s : State) (ax : Nat), (s.axGuard ax 4 false = none) ∧ (s.stopReports = false) ∧ (s.axState ax ≠ axMOVING) ∧ (s.axRests ax = true) ∧ (s.axRateBad
      ax = false) ∧ (s.i32 (MOT_AX_TARGET.word ax) % (s.axStepSize ax : Int) = 0) ∧ (s.axOutside ax (s.axPos ax + s.i32 (MOT_AX_TARGET.word ax)) = false)) ∧
    (∃ (s : State) (ax : Nat), (s.axGuard ax 5 false = none) ∧ (s.stopReports = false) ∧ (s.axRests ax = true) ∧ (s.axRateBad ax = false) ∧ (s.axAtLimit ax
      1 = false)) ∧
    (∃ (s : State) (ax : Nat), (s.axGuard ax 6 false = none) ∧ (s.stopReports = false) ∧ (s.axRests ax = true) ∧ (s.axRateBad ax = false) ∧ (s.axAtLimit ax
      (-1) = false)) ∧
    (∃ (s : State) (ax : Nat), (s.axGuard ax 7 true = none) ∧ (s.axNew ax = false) ∧ (s.axState ax ≠ axSTOPPING) ∧ (s.axState ax ≠ axFAULT)) ∧
    (∃ (s : State) (ax : Nat), (s.axGuard ax 8 true = none) ∧ (s.axNew ax = false) ∧ (s.axState ax ≠ axFAULT)) ∧
    (∃ (s : State) (ax : Nat), (s.axGuard ax 9 false = none) ∧ (s.stopReports = false) ∧ (s.axState ax = axSTOPPED) ∧ ((s.axis ax).jog = 0) ∧ (s.axRateBad
      ax = false) ∧ (s.axOutside ax (s.i32 (MOT_AX_TGT_NOW.word ax)) = false)) ∧
    (∃ (s : State) (t : State) (ax : Nat), (s.axGuard ax 10 false = none) ∧ (s.stopReports = false) ∧ (s.axRests ax = true) ∧ (t = (((((s.setWord
      (MOT_AX_POS.word ax) (s.word (MOT_AX_TARGET.word ax))).setI32 (MOT_AX_REM.word ax) 0).modAxis ax (fun x => { x with jog := 0 })).setF
      (MOT_AX_STATUS.POS_LOST ax) 0).axTo ax axIDLE).setCodes ax)) ∧
    (∃ (s : State) (t : State) (u : State) (ax : Nat), (s.axGuard ax 11 false = none) ∧ (s.stopReports = false) ∧ (s.axState ax = axFAULT) ∧ (t = ((s.setF
      (MOT_AX_STATUS.FAULT ax) 0).axTo ax axSTOPPED).bridges ax false false) ∧ (u = (if t.axEnc ax then t.axResync ax else t))) ∧
    (∃ (s : State) (ax : Nat), (ax < 24) ∧ ((s.axState ax = axMOVING ∨ s.axState ax = axSTOPPING))) ∧
    (∃ (s : State) (t : State) (u : State) (ax : Nat) (n : Nat), (ax < 24) ∧ (s.axState ax ≠ axDISABLED) ∧ (s.axEnc ax = true) ∧ (t = s.axShowEnc ax) ∧ (n
      = (if t.f (MOT_AX_DEVWIN.WIN ax) < (t.axDev ax).natAbs then (t.axis ax).dev + 1 else 0)) ∧ (u = t.modAxis ax (fun x => { x with dev := n }))) ∧
    (∃ (s : State) (t : State) (ax : Nat), (ax < 24) ∧ (s.axEnc ax = true) ∧ ((s.axis ax).resync = false) ∧ ((s.axis ax).settle = true) ∧ (s.axRests ax =
      true) ∧ (64 ≤ (s.axDev ax).natAbs) ∧ (t = ((s.modAxis ax (fun x => { x with settle := false })).satInc (MOT_AX_CNT.LOST ax) ((s.axDev ax).natAbs /
      64)).report 0x0C 0 0x0F ax)) ∧
    (∃ (s : State) (ax : Nat), (ax < 24) ∧ (s.axRests ax = true) ∧ (s.b (MOT_AX_STATUS.HOLD ax) = false)) ∧
    (∃ (s : State) (ax : Nat) (ph : Nat), (s.chops ax ph = true) ∧ ((s.phase ax ph).blank = false)) ∧
    (∃ (s : State) (ax : Nat) (ph : Nat), (s.chops ax ph = true) ∧ ((s.phase ax ph).fast = true)) ∧
    (∃ (s : State) (t : State) (ax : Nat) (ph : Nat), (s.chops ax ph = true) ∧ ((s.phase ax ph).drive = true) ∧ (32 ≤ (s.axCode ax ph).natAbs) ∧ (t =
      s.setPhase ax ph { s.phase ax ph with openN := (s.phase ax ph).openN + 1 })) ∧
    (∃ (s : State) (ax : Nat) (ph : Nat), (ax < 24) ∧ (ph < 2) ∧ ((s.phase ax ph).blank = true) ∧ ((s.phase ax ph).drive = true)) ∧
    (∃ (s : State) (n : Nat), (n < 28) ∧ ((s.encIn n).a = false) ∧ ((s.encIn n).b = false) ∧ (s.awake = false)) ∧
    (∃ (s : State) (t : State) (u : State) (n : Nat), (n < 28) ∧ ((s.encIn n).a = false) ∧ ((s.encIn n).b = false) ∧ (t = s.setEncIn n
      { s.encIn n with a := true, b := false, cnt := (s.encIn n).cnt + 1, dir := 1, gap := s.now.toNat - (s.encIn n).at', at' := s.now.toNat, fg := (s.encIn n).fg + 1, fgGap := s.now.toNat - (s.encIn n).fgAt, fgAt := s.now.toNat })
      ∧ (t.awake = true) ∧ (u = (t.turnoutCount n 1).trackCount n 1)) :=
  ⟨⟨(at_ pwrRUN), 0, 0, false, by decide +kernel⟩,
   ⟨(at_ pwrRUN), 0, by decide +kernel⟩,
   ⟨(ready.setF (MOT_AX_STATUS.STATE 0) axDISABLED).modAxis 0 (fun x => { x with enabling := true }), _, 0, [100], [120], by decide +kernel, rfl⟩,
   ⟨(ready.setF (MOT_AX_STATUS.STATE 0) axIDLE), 0, by decide +kernel⟩,
   ⟨(ready.setF (MOT_AX_STATUS.STATE 0) axIDLE).setF (MOT_AX_TARGET.VALUE 0) 640, 0, _, by decide +kernel, by decide +kernel, by decide +kernel,
     by decide +kernel, rfl, rfl, rfl⟩,
   ⟨(ready.setF (MOT_AX_STATUS.STATE 0) axIDLE).setF (MOT_AX_TARGET.VALUE 0) 640, 0, by decide +kernel⟩,
   ⟨(ready.setF (MOT_AX_STATUS.STATE 0) axIDLE), 0, by decide +kernel⟩,
   ⟨(ready.setF (MOT_AX_STATUS.STATE 0) axIDLE), 0, by decide +kernel⟩,
   ⟨(at_ pwrRUN), 0, by decide +kernel⟩,
   ⟨(at_ pwrRUN), 0, by decide +kernel⟩,
   ⟨(ready.setF (MOT_AX_STATUS.STATE 0) axSTOPPED), 0, by decide +kernel⟩,
   ⟨(ready.setF (MOT_AX_STATUS.STATE 0) axIDLE), _, 0, by decide +kernel, by decide +kernel, by decide +kernel, rfl⟩,
   ⟨(ready.setF (MOT_AX_STATUS.STATE 0) axFAULT), _, _, 0, by decide +kernel, by decide +kernel, by decide +kernel, rfl, rfl⟩,
   ⟨(ready.setF (MOT_AX_STATUS.STATE 0) axMOVING), 0, by decide +kernel⟩,
   ⟨(ready.setF (MOT_AX_STATUS.STATE 0) axIDLE).setF (MOT_AX_CFG.ENC_EN 0) 1, _, _, 0, _, by decide +kernel, by decide +kernel, by decide +kernel, rfl,
     rfl, rfl⟩,
   ⟨(((ready.setF (MOT_AX_STATUS.STATE 0) axIDLE).setF (MOT_AX_CFG.ENC_EN 0) 1).setF (MOT_AX_POS.VALUE 0) 640).modAxis 0 (fun x =>
     { x with settle := true }), _, 0, by decide +kernel, by decide +kernel, by decide +kernel, by decide +kernel, by decide +kernel, by decide +kernel, rfl⟩,
   ⟨(ready.setF (MOT_AX_STATUS.STATE 0) axIDLE), 0, by decide +kernel⟩,
   ⟨(((ready.setF (MOT_AX_STATUS.STATE 0) axIDLE).setF (MOT_AX_POS.VALUE 0) 32).modAxis 0 (fun x =>
     { x with off := false, phA := { drive := true, fast := true } })), 0, 0, by decide +kernel⟩,
   ⟨(((ready.setF (MOT_AX_STATUS.STATE 0) axIDLE).setF (MOT_AX_POS.VALUE 0) 32).modAxis 0 (fun x =>
     { x with off := false, phA := { drive := true, fast := true } })), 0, 0, by decide +kernel⟩,
   ⟨(((ready.setF (MOT_AX_STATUS.STATE 0) axIDLE).setF (MOT_AX_POS.VALUE 0) 32).modAxis 0 (fun x =>
     { x with off := false, phA := { drive := true, fast := true } })), _, 0, 0, by decide +kernel, by decide +kernel, by decide +kernel, rfl⟩,
   ⟨(ready.setF (MOT_AX_STATUS.STATE 0) axIDLE).modAxis 0 (fun x => { x with phA := { drive := true, blank := true } }), 0, 0, by decide +kernel⟩,
   ⟨(at_ pwrSLEEP), 0, by decide +kernel⟩,
   ⟨(at_ pwrRUN), _, _, 0, by decide +kernel, by decide +kernel, by decide +kernel, rfl, rfl, rfl⟩⟩

theorem witness_LateralComplete :
    (∃ (s : State) (p : Nat), (p < 4) ∧ (s.poweredDown (LAT_PORT_CTRL.word p) = false) ∧ (s.f (LAT_PORT_STATUS.STATE p) = latOFF)) ∧
    (∃ (s : State) (p : Nat), (p < 4) ∧ (s.poweredDown (LAT_PORT_CTRL.word p) = false) ∧ (s.f (LAT_PORT_CTRL.ENABLE p) ≠ 0) ∧ (s.latBound p = false)) ∧
    (∃ (s : State) (p : Nat), (p < 4) ∧ (s.poweredDown (LAT_PORT_CTRL.word p) = false) ∧ (s.inRun = false) ∧ (s.f (LAT_PORT_CTRL.ENABLE p) ≠ 0)) ∧
    (∃ (s : State) (t : State) (p : Nat), (p < 4) ∧ (s.latRuns = true) ∧ (s.f (LAT_PORT_STATUS.STATE p) = latENUM) ∧ (t = s.modLatPort p (fun x =>
      { x with enumAt := some s.now.toNat }))) ∧
    (∃ (s : State) (p : Nat) (t0 : Nat) (n : Nat) (f : List Byte) (b : List Byte) (ds : List (List Byte)), (p < 4) ∧ (s.f (LAT_PORT_STATUS.STATE p) =
      latENUM) ∧ ((s.latPort p).enumAt = some t0) ∧ (latGood 0x02 4112 (some f) = some b) ∧ (n = min 256 (leAt b 8 2)) ∧ (ds = (List.range n).map (fun i =>
      (b.drop (12 + 16 * i)).take 16))) ∧
    (∃ (s : State) (t : State) (u : State) (p : Nat), (p < 4) ∧ (s.latRuns = true) ∧ (s.f (LAT_PORT_STATUS.STATE p) ≠ latOFF) ∧ (s.f (LAT_PORT_STATUS.STATE
      p) ≠ latENUM) ∧ (s.f (LAT_PORT_STATUS.STATE p) ≠ latMISMATCH) ∧ (t = (if (s.latPort p).away then s.badCycle p else s)) ∧ (u = (t.setB
      (LAT_PORT_STATUS.SAFE_ALL p) (decide (t.f FLT_STATUS.ACTIVE = 4))).setF (LAT_PORT_STATUS.CYCLE_NOW p) (t.latCycleUs p))) ∧
    (∃ (s : State) (p : Nat) (f : Option (List Byte)), (p < 4) ∧ ((s.latPort p).away = true)) ∧
    (∃ (s : State) (p : Nat) (n : Nat) (w : Nat) (v : BitVec 32), (p < 4) ∧ (n < 256) ∧ (w < 16) ∧ (s.poweredDown (LAT_OIMG.word p n w) = false) ∧ ((∀ i <
      4, s.outBound p n (4 * w + i) = false))) ∧
    (∃ (s : State) (t : State) (p : Nat) (c : Nat) (x : LatPort) (m : LatMbx), (p < 4) ∧ ((c = 1 ∨ c = 2)) ∧ (s.poweredDown (LAT_MBX_CTRL.word p) = false)
      ∧ (s.b (LAT_MBX_STATUS.BUSY p) = false) ∧ (s.f (LAT_PORT_STATUS.STATE p) = latRUN) ∧ (t = s.setF (LAT_MBX_CTRL.CMD p) c) ∧ (x = t.latPort p) ∧ (x.mbx =
      none) ∧ (m =
      { cmd := c, node := t.f (LAT_MBX_CTRL.NODE p), addr := t.f (LAT_MBX_ADDR.NADDR p), len := t.f (LAT_MBX_CTRL.LEN p), data := if c = 2 then ((List.range 32).flatMap (fun w => leBytes 4 (t.word (LAT_MBX_DATA.word p w)).toNat)).take (t.f (LAT_MBX_CTRL.LEN p)) else [], tag := (x.tag + 1) % 256 })) ∧
    (∃ (s : State) (p : Nat) (m : LatMbx) (f : List Byte) (b : List Byte), (p < 4) ∧ ((s.latPort p).mbx = some m) ∧ (m.sent = true) ∧ (latGood 0x03 152
      (some f) = some b) ∧ (leAt b 8 1 = m.node) ∧ (leAt b 10 1 = m.tag) ∧ (leAt b 11 1 = 2)) ∧
    (∃ (s : State) (p : Nat) (m : LatMbx), (p < 4) ∧ ((s.latPort p).mbx = some m) ∧ (m.polling = true) ∧ (m.since + 100000000 ≤ s.now.toNat)) ∧
    (∃ (s : State) (p : Nat) (n : Nat), (p < 4) ∧ (s.latRuns = true) ∧ (((s.lostNodes p).find? (fun i => decide ((s.latPort p).joinTo < i))).or
      (s.lostNodes p).head? = some n)) ∧
    (∃ (s : State) (p : Nat) (f : List Byte) (b : List Byte), (p < 4) ∧ (latGood 0x04 16 (some f) = some b) ∧ (leAt b 10 1 < leAt b 8 2)) :=
  ⟨⟨(at_ pwrRUN), 0, by decide +kernel⟩,
   ⟨(ready.setF (LAT_PORT_CTRL.ENABLE 0) 1), 0, by decide +kernel⟩,
   ⟨(ready.setF (LAT_PORT_CTRL.ENABLE 0) 1), 0, by decide +kernel⟩,
   ⟨(run.setF (LAT_PORT_STATUS.STATE 0) latENUM), _, 0, by decide +kernel, by decide +kernel, by decide +kernel, rfl⟩,
   ⟨(run.setF (LAT_PORT_STATUS.STATE 0) latENUM).modLatPort 0 (fun x => { x with enumAt := some 0 }), 0, 0, _, sealed (BitVec.ofNat 8 2 :: List.replicate
     4107 0), sealed (BitVec.ofNat 8 2 :: List.replicate 4107 0), _, by decide +kernel, by decide +kernel, by decide +kernel, sealed_zeros 2 (by decide)
     4107, rfl, rfl⟩,
   ⟨(run.setF (LAT_PORT_STATUS.STATE 0) latRUN), _, _, 0, by decide +kernel, by decide +kernel, by decide +kernel, by decide +kernel, by decide +kernel,
     rfl, rfl⟩,
   ⟨(run.setF (LAT_PORT_STATUS.STATE 0) latRUN).modLatPort 0 (fun x => { x with away := true }), 0, none, by decide +kernel⟩,
   ⟨(at_ pwrRUN), 0, 0, 0, 0, by decide +kernel⟩,
   ⟨(run.setF (LAT_PORT_STATUS.STATE 0) latRUN), _, 0, 2, _, _, by decide +kernel, by decide +kernel, by decide +kernel, by decide +kernel,
     by decide +kernel, rfl, rfl, rfl, rfl⟩,
   ⟨(run.setF (LAT_PORT_STATUS.STATE 0) latRUN).modLatPort 0 (fun x =>
     { x with mbx := some { cmd := 1, node := 4, tag := 9, sent := true, polling := true } }), 0,
     { cmd := 1, node := 4, tag := 9, sent := true, polling := true }, sealed (leBytes 8 3 ++ [4, 0, 9, 2] ++ List.replicate 136 0), sealed (leBytes 8 3 ++
     [4, 0, 9, 2] ++ List.replicate 136 0), by decide +kernel, by decide +kernel, by decide +kernel, sealed_good 3 152 _ (by decide +kernel)
     (by decide +kernel) (by decide +kernel), by decide +kernel⟩,
   ⟨{ (run.setF (LAT_PORT_STATUS.STATE 0) latRUN).modLatPort 0 (fun x => { x with mbx := some { cmd := 1, node := 4, tag := 9, sent := true, polling := true } }) with now := 10 ^ 9 },
     0, { cmd := 1, node := 4, tag := 9, sent := true, polling := true }, by decide +kernel⟩,
   ⟨((run.setF (LAT_PORT_STATUS.STATE 0) latBROKEN).setF (LAT_PORT_STATUS.NODES 0) 3).setF (LAT_NODE.STATE 0 1) nodeLOST, 0, 1, by decide +kernel⟩,
   ⟨(run.setF (LAT_PORT_STATUS.STATE 0) latRUN), 0, sealed [4, 0, 0, 0, 0, 0, 0, 0, 3, 0, 1, 0], sealed [4, 0, 0, 0, 0, 0, 0, 0, 3, 0, 1, 0],
     by decide +kernel⟩⟩

theorem witness_FansComplete :
    (∃ (s : State) (t : State) (fc : Nat) (d : BitVec 16), (fc < 8) ∧ (s.poweredDown (LAT_FAN_CTRL.word fc) = false) ∧ (t = s.setF (LAT_FAN_CTRL.DUTY fc)
      d.toNat)) ∧
    (∃ (s : State) (fc : Nat) (n : Nat), (fc < 8) ∧ (s.fanState fc = fanKICK) ∧ ((s.fan fc).kickAt + 2000000000 ≤ s.now.toNat)) ∧
    (∃ (s : State) (fc : Nat), (fc < 8) ∧ (s.fanState fc = fanWAIT) ∧ ((s.fan fc).kickAt + 5000000000 ≤ s.now.toNat)) ∧
    (∃ (s : State) (t : State) (fc : Nat) (n : Nat), (fc < 8) ∧ (s.latRuns = true) ∧ (t = s.setF (LAT_FAN_STATUS.RPM fc) (min 65535 n))) ∧
    (∃ (s : State) (t : State) (fc : Nat), (fc < 8) ∧ (s.fanState fc = fanRUN) ∧ (s.f (LAT_FAN_CFG.TKIND fc) = 1) ∧ (t = s.setFan fc
      { s.fan fc with temp := some (1, s.f (THM_SENS.TEMP (s.f (LAT_FAN_CFG.TSRC fc)))) })) ∧
    (∃ (s : State) (fc : Nat), (fc < 8) ∧ (s.fanState fc = fanLOST)) ∧
    (∃ (s : State) (t : State) (fc : Nat), (fc < 8) ∧ (s.poweredDown (LAT_FAN_CTRL.word fc) = false) ∧ (s.fanState fc = fanFAULT) ∧ (t = s.fanTo fc fanOFF
      0)) :=
  ⟨⟨(at_ pwrRUN), _, 0, 0, by decide +kernel, by decide +kernel, rfl⟩,
   ⟨{ run.setF (LAT_FAN_STATUS.STATE 0) fanKICK with now := 10 ^ 10 }, 0, 500, by decide +kernel⟩,
   ⟨{ run.setF (LAT_FAN_STATUS.STATE 0) fanWAIT with now := 10 ^ 10 }, 0, by decide +kernel⟩,
   ⟨(at_ pwrRUN), _, 0, 0, by decide +kernel, by decide +kernel, rfl⟩,
   ⟨(run.setF (LAT_FAN_STATUS.STATE 0) fanRUN).setF (LAT_FAN_CFG.TKIND 0) 1, _, 0, by decide +kernel, by decide +kernel, by decide +kernel, rfl⟩,
   ⟨(run.setF (LAT_FAN_STATUS.STATE 0) fanLOST), 0, by decide +kernel⟩,
   ⟨(run.setF (LAT_FAN_STATUS.STATE 0) fanFAULT), _, 0, by decide +kernel, by decide +kernel, by decide +kernel, rfl⟩⟩

theorem witness_TurnoutComplete :
    (∃ (s : State), (s.trnRuns = true)) ∧
    (∃ (s : State) (t : State) (ax : Nat) (tk : Nat), (ax < 24) ∧ (s.trnRuns = true) ∧ (s.f (TRN_TK_STATE.PEND tk) ≠ 0) ∧ (t = s.setF (TRN_TK_STATE.PEND
      tk) (s.f (TRN_TK_STATE.PEND tk) - 1))) ∧
    (∃ (s : State) (t : State) (i : Nat) (tk : Nat), (s.trnRuns = true) ∧ (s.f (TRN_TK_STATE.PEND tk) ≠ 0) ∧ (t = s.setF (TRN_TK_STATE.PEND tk) (s.f
      (TRN_TK_STATE.PEND tk) - 1))) ∧
    (∃ (s : State) (i : Nat), (i < 48) ∧ (s.trn.owed.getD 0 (208 + i) ≠ 0)) ∧
    (∃ (s : State) (tk : Nat) (n : Nat), (208 ≤ tk) ∧ (tk < 256) ∧ (s.poweredDown (TRN_TK_STATE.word tk) = false) ∧ (tk ∉ s.roundOf 4 mkAck)) ∧
    (∃ (s : State) (t : State) (tk : Nat) (v : BitVec 32), (tk < 256) ∧ (taskUsed tk = true) ∧ (s.poweredDown (TRN_TK_CFG.word tk) = false) ∧ (t =
      s.setWord (TRN_TK_CFG.word tk) (v &&& 0x13F#32))) ∧
    (∃ (s : State) (b : BitVec 8), (s.poweredDown TRN_SW.word = false)) ∧
    (∃ (s : State) (t : State) (i : Nat), (i < 4) ∧ (s.trnRuns = true) ∧ (s.b (TRN_TIMER.EN i) = true) ∧ (s.trn.timers.getD 0 i + s.f (TRN_TIMER.PERIOD_US
      i) * 1000 ≤ s.now.toNat) ∧ (t = (s.event (172 + i)).startTimer i)) ∧
    (∃ (s : State) (i : Nat) (v : BitVec 32), (i < 8) ∧ (s.poweredDown (TRN_WC_HI.word i) = false)) ∧
    (∃ (s : State) (i : Nat), (s.trnRuns = true) ∧ (s.trn.armed.contains i = true) ∧ (s.get64 (TRN_WC_LO.word i) ≤ s.scn.webLine)) :=
  ⟨⟨(at_ pwrRUN), by decide +kernel⟩,
   ⟨run.setF (TRN_TK_STATE.PEND 5) 1, _, 5, 5, by decide +kernel, by decide +kernel, by decide +kernel, rfl⟩,
   ⟨run.setF (TRN_TK_STATE.PEND 5) 1, _, 0, 5, by decide +kernel, by decide +kernel, rfl⟩,
   ⟨{ run with trn := { run.trn with owed := [(208, 1)] } }, 0, by decide +kernel⟩,
   ⟨run, 210, 1, by decide +kernel⟩,
   ⟨(at_ pwrRUN), _, 0, 0, by decide +kernel, by decide +kernel, by decide +kernel, rfl⟩,
   ⟨(at_ pwrRUN), 0, by decide +kernel⟩,
   ⟨{ run.setF (TRN_TIMER.EN 0) 1 with now := 10 ^ 12 }, _, 0, by decide +kernel, by decide +kernel, by decide +kernel, by decide +kernel, rfl⟩,
   ⟨(at_ pwrRUN), 0, 0, by decide +kernel⟩,
   ⟨{ run with trn := { run.trn with armed := [2] } }, 2, by decide +kernel⟩⟩

theorem witness_RingComplete :
    (∃ (s : State), (s.poweredDown CUL_CTRL.word = false) ∧ (s.b CUL_CTRL.ENABLE = false)) ∧
    (∃ (s : State), (s.poweredDown CUL_CTRL.word = false) ∧ (s.b CUL_CTRL.ENABLE = true) ∧ (s.inRun = false)) ∧
    (∃ (s : State), (s.poweredDown CUL_CTRL.word = false) ∧ (s.b CUL_STATUS.MASTER = true) ∧ (s.b CUL_CTRL.ENABLE = true) ∧ (s.inRun = false)) ∧
    (∃ (s : State), (s.poweredDown CUL_CTRL.word = false) ∧ (s.b CUL_STATUS.MASTER = true) ∧ (s.b CUL_CTRL.ENABLE = true) ∧ (s.culState = culFOLDED) ∧
      ((s.portState true = 3 ∧ s.cul.backE = false) ∨ (s.portState false = 3 ∧ s.cul.backW = false))) ∧
    (∃ (s : State) (q : Nat), (s.poweredDown CUL_CTRL.word = false) ∧ (s.ringMaster = true) ∧ (s.b CUL_STATUS.MASTER = true) ∧ (s.b CUL_CTRL.ENABLE = true)
      ∧ (s.culState = culFOLDED) ∧ ((s.portState true = 3 → s.cul.backE = true)) ∧ ((s.portState false = 3 → s.cul.backW = true)) ∧ (s.cul.backAt + 100000000
      ≤ s.now.toNat) ∧ (q = (s.cul.tbSeq.getD 0 + 101) % 65536)) ∧
    (∃ (s : State) (t : State) (e : Bool), (s.culHears = true) ∧ (t = s.setLanes e 15) ∧ (t.portState e ≠ 3)) ∧
    (∃ (s : State) (t : State) (e : Bool) (l : BitVec 4), (s.culHears = true) ∧ (t = s.setLanes e l.toNat) ∧ (t.culState = culRING) ∧ (t.portState e ≠ 3)) ∧
    (∃ (s : State) (e : Bool), (s.culHears = true) ∧ (s.portState e = 2) ∧ (s.culState = culRING)) ∧
    (∃ (s : State) (t : State) (e : Bool) (m : List Byte), (s.culTake 0x50 e m = (true, t))) ∧
    (∃ (s : State) (q : Nat), (s.ringMaster = true) ∧ (s.culState = culFOLDED) ∧ ((s.portState true = 3 → s.cul.backE = true)) ∧ ((s.portState false = 3 →
      s.cul.backW = true)) ∧ (s.cul.backAt + 100000000 ≤ s.now.toNat) ∧ (q = (s.cul.tbSeq.getD 0 + 101) % 65536)) ∧
    (∃ (s : State) (t : State) (e : Bool) (m : List Byte), (s.culTake 0x51 e m = (true, t))) ∧
    (∃ (s : State) (t : State) (q : Nat), (s.culHears = true) ∧ (s.cul.unfold = some q) ∧ (s.seqReached q = true) ∧ (t =
      (({ s with cul := { s.cul with unfold := none } } : State).unwrapPort true).unwrapPort false)) ∧
    (∃ (s : State) (t : State), (s.culHears = true) ∧ (s.b CUL_STATUS.MASTER = true) ∧ (s.culState = culINDEX) ∧ (t = s.setF CUL_STATUS.INDEX 0)) ∧
    (∃ (s : State) (t : State) (e : Bool) (m : List Byte) (b : List Byte), (s.culHears = true) ∧ (msgType m = 0x01) ∧ (msgOk m = true) ∧ (s.b
      CUL_STATUS.MASTER = true) ∧ (s.ownIndex m = true) ∧ (s.culState = culINDEX) ∧ (msgWrapped m = false) ∧ (b = msgBody m) ∧ (leAt b 1 1 = 0) ∧ (msgHops m
      + 1 = leAt b 0 1) ∧ (t = s.takeTable b)) ∧
    (∃ (s : State) (e : Bool) (m : List Byte), (s.culHears = true) ∧ (msgType m = 0x01) ∧ (msgOk m = true) ∧ (s.b CUL_STATUS.MASTER = false) ∧ (s.culState
      ≠ culCONFLICT) ∧ (s.inRun = false) ∧ (leAt (msgBody m) 1 1 = 0)) :=
  ⟨⟨(at_ pwrRUN), by decide +kernel⟩,
   ⟨((((ready.setF CUL_CTRL.ENABLE 1).setF CUL_STATUS.STATE culRING).setF CUL_STATUS.MASTER 1).setF CUL_STATUS.INDEX 0), by decide +kernel⟩,
   ⟨((((ready.setF CUL_CTRL.ENABLE 1).setF CUL_STATUS.STATE culRING).setF CUL_STATUS.MASTER 1).setF CUL_STATUS.INDEX 0), by decide +kernel⟩,
   ⟨((((ready.setF CUL_CTRL.ENABLE 1).setF CUL_STATUS.STATE culFOLDED).setF CUL_STATUS.MASTER 1).setF CUL_STATUS.INDEX 0).setF CUL_PORT_E.STATE 3,
     by decide +kernel⟩,
   by refine
     ⟨{ ((((ready.setF CUL_CTRL.ENABLE 1).setF CUL_STATUS.STATE culFOLDED).setF CUL_STATUS.MASTER 1).setF CUL_STATUS.INDEX 0).setF CUL_PORT_E.STATE 3 with cul := { (((((ready.setF CUL_CTRL.ENABLE 1).setF CUL_STATUS.STATE culFOLDED).setF CUL_STATUS.MASTER 1).setF CUL_STATUS.INDEX 0).setF CUL_PORT_E.STATE 3).cul with backE := true }, now := 10 ^ 9 },
     _, ?_, ?_, ?_, ?_, ?_, ?_, ?_, ?_, rfl⟩ <;> decide +kernel,
   ⟨((((ready.setF CUL_CTRL.ENABLE 1).setF CUL_STATUS.STATE culTRAIN).setF CUL_STATUS.MASTER 1).setF CUL_STATUS.INDEX 0), _, false, by decide +kernel, rfl,
     by decide +kernel⟩,
   ⟨((((ready.setF CUL_CTRL.ENABLE 1).setF CUL_STATUS.STATE culRING).setF CUL_STATUS.MASTER 1).setF CUL_STATUS.INDEX 0), _, false, 3, by decide +kernel,
     rfl, rfl, by decide +kernel⟩,
   ⟨((((ready.setF CUL_CTRL.ENABLE 1).setF CUL_STATUS.STATE culRING).setF CUL_STATUS.MASTER 1).setF CUL_STATUS.INDEX 0).setF CUL_PORT_W.STATE 2, false,
     by decide +kernel⟩,
   ⟨((((ready.setF CUL_CTRL.ENABLE 1).setF CUL_STATUS.STATE culRING).setF CUL_STATUS.MASTER 0).setF CUL_STATUS.INDEX 2), ((((((ready.setF CUL_CTRL.ENABLE
     1).setF CUL_STATUS.STATE culRING).setF CUL_STATUS.MASTER 0).setF CUL_STATUS.INDEX 2)).culTake 0x50 true ([80, 240, 0, 1, 0, 1, 0] ++ ([1] ++
     List.replicate 7 0))).2, true, [80, 240, 0, 1, 0, 1, 0] ++ ([1] ++ List.replicate 7 0), Prod.ext (by decide +kernel) rfl⟩,
   ⟨{ ((((ready.setF CUL_CTRL.ENABLE 1).setF CUL_STATUS.STATE culFOLDED).setF CUL_STATUS.MASTER 1).setF CUL_STATUS.INDEX 0).setF CUL_PORT_E.STATE 3 with cul := { (((((ready.setF CUL_CTRL.ENABLE 1).setF CUL_STATUS.STATE culFOLDED).setF CUL_STATUS.MASTER 1).setF CUL_STATUS.INDEX 0).setF CUL_PORT_E.STATE 3).cul with backE := true }, now := 10 ^ 9 },
     _, by decide +kernel, by decide +kernel, by decide +kernel, by decide +kernel, by decide +kernel, rfl⟩,
   ⟨((((ready.setF CUL_CTRL.ENABLE 1).setF CUL_STATUS.STATE culRING).setF CUL_STATUS.MASTER 0).setF CUL_STATUS.INDEX 2), ((((((ready.setF CUL_CTRL.ENABLE
     1).setF CUL_STATUS.STATE culRING).setF CUL_STATUS.MASTER 0).setF CUL_STATUS.INDEX 2)).culTake 0x51 true ([81, 240, 0, 1, 0, 1, 0] ++ ([5] ++
     List.replicate 7 0))).2, true, [81, 240, 0, 1, 0, 1, 0] ++ ([5] ++ List.replicate 7 0), Prod.ext (by decide +kernel) rfl⟩,
   ⟨{ ((((ready.setF CUL_CTRL.ENABLE 1).setF CUL_STATUS.STATE culFOLDED).setF CUL_STATUS.MASTER 0).setF CUL_STATUS.INDEX 2) with cul := { (((((ready.setF CUL_CTRL.ENABLE 1).setF CUL_STATUS.STATE culFOLDED).setF CUL_STATUS.MASTER 0).setF CUL_STATUS.INDEX 2)).cul with unfold := some 5, tbSeq := some 6 } },
     _, 5, by decide +kernel, by decide +kernel, by decide +kernel, rfl⟩,
   ⟨((((ready.setF CUL_CTRL.ENABLE 1).setF CUL_STATUS.STATE culINDEX).setF CUL_STATUS.MASTER 1).setF CUL_STATUS.INDEX 0), _, by decide +kernel,
     by decide +kernel, by decide +kernel, rfl⟩,
   ⟨{ ((((ready.setF CUL_CTRL.ENABLE 1).setF CUL_STATUS.STATE culINDEX).setF CUL_STATUS.MASTER 1).setF CUL_STATUS.INDEX 0) with cul := { (((((ready.setF CUL_CTRL.ENABLE 1).setF CUL_STATUS.STATE culINDEX).setF CUL_STATUS.MASTER 1).setF CUL_STATUS.INDEX 0)).cul with seqs := [(1, 1)] } },
     _, false, [1, 0xF0, 2, 0, 0, 5, 0] ++ ([3, 0, 0, 0] ++ run.indexEntry ++ List.replicate 32 0), _, by decide +kernel, by decide +kernel,
     by decide +kernel, rfl, by decide +kernel, by decide +kernel, by decide +kernel, rfl, rfl, rfl, rfl⟩,
   ⟨((((ready.setF CUL_CTRL.ENABLE 1).setF CUL_STATUS.STATE culTRAIN).setF CUL_STATUS.MASTER 0).setF CUL_STATUS.INDEX 2), false, [1, 0xF0, 1, 0, 0, 5, 0]
     ++ ([3, 0, 0, 0] ++ run.indexEntry ++ List.replicate 32 0), by decide +kernel⟩⟩

theorem witness_RingMessagesComplete :
    (∃ (s : State) (t : State) (e : Bool) (n : Nat) (m : List Byte), (s.culTake 0x02 e m = (true, t))) ∧
    (∃ (s : State) (t : State) (e : Bool) (m : List Byte) (d : CulDelay), (s.culTake 0x03 e m = (true, t)) ∧ (t.cul.delay = some d) ∧ (t.culState =
      culDELAY) ∧ (msgSrc m = d.dev) ∧ (leAt (msgBody m) 0 4 = d.round) ∧ (d.round < 8)) ∧
    (∃ (s : State) (m : State) (q : List Byte), (s.culLive = true) ∧ (s.b CUL_STATUS.MASTER = true) ∧ (s.syncSpeed.culMake 0x10 15 s.syncSpeed.timebaseBody
      = (q, m))) ∧
    (∃ (s : State) (t : State) (e : Bool) (w : Nat) (m : List Byte), (s.culHears = true) ∧ (msgType m = 0x10) ∧ (msgOk m = true) ∧ (s.ownBack m = false) ∧
      (t = s.culForward e (m.take 35 ++ leBytes 4 (leAt m 35 4 + w) ++ m.drop 39)) ∧ (t.b CUL_STATUS.MASTER = false) ∧ (msgWrapped m = false) ∧ (t.culLive =
      true) ∧ (t.tbOld (msgSeq m) = false)) ∧
    (∃ (s : State) (t : State), (s.culLive = true) ∧ (s.b CUL_STATUS.MASTER = false) ∧ (s.cul.tbSeq.isSome = true) ∧ (s.cul.tbAt + 30000 ≤ s.now.toNat) ∧
      (t = ({ s with cul := { s.cul with tbSeq := none } } : State).setF CUL_TB.LOCKED 0)) ∧
    (∃ (s : State), (s.culLive = true) ∧ (s.b CUL_STATUS.MASTER = false) ∧ (s.b CUL_TB.LOCKED = true)) ∧
    (∃ (s : State) (t : State) (u : State) (e : Bool) (m : List Byte) (b : List Byte), (s.culTake 0x11 e m = (true, t)) ∧ (t.culLive = true) ∧ (t.b
      CUL_STATUS.MASTER = true) ∧ (msgSrc m < 8) ∧ (b = msgBody m) ∧ (t.culState ≠ culLOCKING) ∧ (u =
      { t with cul := { t.cul with stats := t.cul.stats.set {} (msgSrc m) { engine := leAt b 0 1, locked := bit (leAt b 1 1) 0, fault := bit (leAt b 1 1) 1, weir := leAt b 2 1 % 8 }, heard := t.cul.heard ||| BitVec.ofNat 8 (2 ^ msgSrc m) } })
      ∧ (u.culState = t.culState)) ∧
    (∃ (s : State) (t : State) (e : Bool) (m : List Byte), (s.culTake 0x12 e m = (true, t)) ∧ ((leAt (msgBody m) 1 1 = 3 ∨ leAt (msgBody m) 1 1 = 4))) ∧
    (∃ (s : State) (e : Bool) (m : List Byte), (s.culHears = true) ∧ (msgOk m = true) ∧ (s.ownBack m = false) ∧ (msgDst m ≠ s.culIndex) ∧ (msgDst m ≠ 15)) ∧
    (∃ (s : State) (e : Bool) (m : List Byte), (s.culHears = true)) ∧
    (∃ (s : State) (t : State) (e : Bool) (m : List Byte) (x : CulPart), (s.culTake 0x20 e m = (true, t)) ∧ (t.ringMaster = true) ∧ (x = parsePart (msgSrc
      m) (msgBody m)) ∧ (t.cul.parts.any (fun p => p.same x) = false) ∧ (t.cul.lines.any (fun l => l.parts.any (fun p => p.same x)) = false)) ∧
    (∃ (s : State) (x : CulPart), (firstPart s.cul.parts = some x) ∧ (s.ringMaster = true) ∧ (x.stamp + 20000 ≤ s.now.toNat)) ∧
    (∃ (s : State) (t : State) (i : BitVec 64) (m : List Byte) (b : List Byte), (s.cul.owed.find? (isPartOf i) = some m) ∧ (s.ringMember = true) ∧
      ((s.partPage i).isSome = true) ∧ (s.pages.frames.any (fun f => f.line = some i) = false) ∧ (b = msgBody m) ∧ (t =
      { s with cul := { s.cul with owed := s.cul.owed.filter (fun x => !isPartOf i x) } })) ∧
    (∃ (s : State) (t : State) (e : Bool) (m : List Byte), (s.culTake 0x21 e m = (true, t)) ∧ (t.inRun = true)) ∧
    (∃ (s : State) (t : State) (e : Bool) (m : List Byte), (s.culTake 0x22 e m = (true, t)) ∧ (leAt (msgBody m) 8 1 = 6)) :=
  ⟨⟨((((ready.setF CUL_CTRL.ENABLE 1).setF CUL_STATUS.STATE culRING).setF CUL_STATUS.MASTER 0).setF CUL_STATUS.INDEX 2), ((((((ready.setF CUL_CTRL.ENABLE
     1).setF CUL_STATUS.STATE culRING).setF CUL_STATUS.MASTER 0).setF CUL_STATUS.INDEX 2)).culTake 0x02 true ([2, 32, 0, 1, 0, 1, 0] ++ ([1] ++
     List.replicate 7 0))).2, true, 0, [2, 32, 0, 1, 0, 1, 0] ++ ([1] ++ List.replicate 7 0), Prod.ext (by decide +kernel) rfl⟩,
   ⟨{ ((((ready.setF CUL_CTRL.ENABLE 1).setF CUL_STATUS.STATE culDELAY).setF CUL_STATUS.MASTER 1).setF CUL_STATUS.INDEX 0) with cul := { (((((ready.setF CUL_CTRL.ENABLE 1).setF CUL_STATUS.STATE culDELAY).setF CUL_STATUS.MASTER 1).setF CUL_STATUS.INDEX 0)).cul with delay := some {} } },
     (({ ((((ready.setF CUL_CTRL.ENABLE 1).setF CUL_STATUS.STATE culDELAY).setF CUL_STATUS.MASTER 1).setF CUL_STATUS.INDEX 0) with cul := { (((((ready.setF CUL_CTRL.ENABLE 1).setF CUL_STATUS.STATE culDELAY).setF CUL_STATUS.MASTER 1).setF CUL_STATUS.INDEX 0)).cul with delay := some {} } }).culTake
     0x03 true ([3, 1, 0, 1, 0, 1, 0] ++ ([1] ++ List.replicate 7 0))).2, true, [3, 1, 0, 1, 0, 1, 0] ++ ([1] ++ List.replicate 7 0), {}, Prod.ext
     (by decide +kernel) rfl, by decide +kernel⟩,
   ⟨((((ready.setF CUL_CTRL.ENABLE 1).setF CUL_STATUS.STATE culRING).setF CUL_STATUS.MASTER 1).setF CUL_STATUS.INDEX 0), _, _, by decide +kernel,
     by decide +kernel, rfl⟩,
   ⟨((((ready.setF CUL_CTRL.ENABLE 1).setF CUL_STATUS.STATE culRING).setF CUL_STATUS.MASTER 0).setF CUL_STATUS.INDEX 2), _, false, 40, [16, 240, 0, 1, 0,
     4, 0] ++ ([9] ++ List.replicate 31 0), by decide +kernel, by decide +kernel, by decide +kernel, by decide +kernel, rfl, rfl, by decide +kernel, rfl,
     rfl⟩,
   ⟨{ ((((ready.setF CUL_CTRL.ENABLE 1).setF CUL_STATUS.STATE culRING).setF CUL_STATUS.MASTER 0).setF CUL_STATUS.INDEX 2) with cul := { (((((ready.setF CUL_CTRL.ENABLE 1).setF CUL_STATUS.STATE culRING).setF CUL_STATUS.MASTER 0).setF CUL_STATUS.INDEX 2)).cul with tbSeq := some 3 }, now := 10 ^ 6 },
     _, by decide +kernel, by decide +kernel, by decide +kernel, by decide +kernel, rfl⟩,
   ⟨((((ready.setF CUL_CTRL.ENABLE 1).setF CUL_STATUS.STATE culRING).setF CUL_STATUS.MASTER 0).setF CUL_STATUS.INDEX 2).setF CUL_TB.LOCKED 1,
     by decide +kernel⟩,
   ⟨((((ready.setF CUL_CTRL.ENABLE 1).setF CUL_STATUS.STATE culRING).setF CUL_STATUS.MASTER 1).setF CUL_STATUS.INDEX 0), ((((((ready.setF CUL_CTRL.ENABLE
     1).setF CUL_STATUS.STATE culRING).setF CUL_STATUS.MASTER 1).setF CUL_STATUS.INDEX 0)).culTake 0x11 true ([17, 1, 0, 1, 0, 1, 0] ++ ([1, 1, 7] ++
     List.replicate 5 0))).2, _, true, [17, 1, 0, 1, 0, 1, 0] ++ ([1, 1, 7] ++ List.replicate 5 0), _, Prod.ext (by decide +kernel) rfl, by decide +kernel,
     rfl, by decide +kernel, rfl, by decide +kernel, rfl, rfl⟩,
   ⟨((((ready.setF CUL_CTRL.ENABLE 1).setF CUL_STATUS.STATE culRING).setF CUL_STATUS.MASTER 0).setF CUL_STATUS.INDEX 2), ((((((ready.setF CUL_CTRL.ENABLE
     1).setF CUL_STATUS.STATE culRING).setF CUL_STATUS.MASTER 0).setF CUL_STATUS.INDEX 2)).culTake 0x12 true ([18, 240, 0, 1, 0, 1, 0] ++ ([0, 3] ++
     List.replicate 6 0))).2, true, [18, 240, 0, 1, 0, 1, 0] ++ ([0, 3] ++ List.replicate 6 0), Prod.ext (by decide +kernel) rfl, by decide +kernel⟩,
   ⟨((((ready.setF CUL_CTRL.ENABLE 1).setF CUL_STATUS.STATE culRING).setF CUL_STATUS.MASTER 0).setF CUL_STATUS.INDEX 2), false, [34, 80, 0, 1, 0, 2, 0] ++
     List.replicate 16 0, by decide +kernel⟩,
   ⟨((((ready.setF CUL_CTRL.ENABLE 1).setF CUL_STATUS.STATE culRING).setF CUL_STATUS.MASTER 0).setF CUL_STATUS.INDEX 2), false, [], by decide +kernel⟩,
   ⟨((((ready.setF CUL_CTRL.ENABLE 1).setF CUL_STATUS.STATE culRING).setF CUL_STATUS.MASTER 1).setF CUL_STATUS.INDEX 0), ((((((ready.setF CUL_CTRL.ENABLE
     1).setF CUL_STATUS.STATE culRING).setF CUL_STATUS.MASTER 1).setF CUL_STATUS.INDEX 0)).culTake 0x20 true ([32, 1, 0, 1, 0, 5, 0] ++ ([7] ++
     List.replicate 39 0))).2, true, [32, 1, 0, 1, 0, 5, 0] ++ ([7] ++ List.replicate 39 0), _, Prod.ext (by decide +kernel) rfl, by decide +kernel, rfl,
     rfl, rfl⟩,
   ⟨{ { ((((ready.setF CUL_CTRL.ENABLE 1).setF CUL_STATUS.STATE culRING).setF CUL_STATUS.MASTER 1).setF CUL_STATUS.INDEX 0) with cul := { (((((ready.setF CUL_CTRL.ENABLE 1).setF CUL_STATUS.STATE culRING).setF CUL_STATUS.MASTER 1).setF CUL_STATUS.INDEX 0)).cul with parts := [{ dev := 1, pageId := 7, stamp := 500 }] } } with now := 30000 },
     { dev := 1, pageId := 7, stamp := 500 }, by decide +kernel⟩,
   ⟨{ { ((((ready.setF CUL_CTRL.ENABLE 1).setF CUL_STATUS.STATE culRING).setF CUL_STATUS.MASTER 0).setF CUL_STATUS.INDEX 2) with pages := { ((((ready.setF CUL_CTRL.ENABLE 1).setF CUL_STATUS.STATE culRING).setF CUL_STATUS.MASTER 0).setF CUL_STATUS.INDEX 2).pages with pages := [{ pg with phase := .waiting }] } } with cul := { ({ ((((ready.setF CUL_CTRL.ENABLE 1).setF CUL_STATUS.STATE culRING).setF CUL_STATUS.MASTER 0).setF CUL_STATUS.INDEX 2) with pages := { ((((ready.setF CUL_CTRL.ENABLE 1).setF CUL_STATUS.STATE culRING).setF CUL_STATUS.MASTER 0).setF CUL_STATUS.INDEX 2).pages with pages := [{ pg with phase := .waiting }] } }).cul with owed := [[32, 2, 0, 1, 0, 5, 0] ++ ([7] ++ List.replicate 39 0)] } },
     _, 7, [32, 2, 0, 1, 0, 5, 0] ++ ([7] ++ List.replicate 39 0), _, by rfl, by decide +kernel, by decide +kernel, by decide +kernel, rfl, rfl⟩,
   ⟨((((run.setF CUL_CTRL.ENABLE 1).setF CUL_STATUS.STATE culRING).setF CUL_STATUS.MASTER 0).setF CUL_STATUS.INDEX 2), ((((((run.setF CUL_CTRL.ENABLE
     1).setF CUL_STATUS.STATE culRING).setF CUL_STATUS.MASTER 0).setF CUL_STATUS.INDEX 2)).culTake 0x21 true ([33, 240, 0, 1, 0, 5, 0] ++ ([7] ++
     List.replicate 39 0))).2, true, [33, 240, 0, 1, 0, 5, 0] ++ ([7] ++ List.replicate 39 0), Prod.ext (by decide +kernel) rfl, by decide +kernel⟩,
   ⟨((((run.setF CUL_CTRL.ENABLE 1).setF CUL_STATUS.STATE culRING).setF CUL_STATUS.MASTER 0).setF CUL_STATUS.INDEX 2), ((((((run.setF CUL_CTRL.ENABLE
     1).setF CUL_STATUS.STATE culRING).setF CUL_STATUS.MASTER 0).setF CUL_STATUS.INDEX 2)).culTake 0x22 true ([34, 240, 0, 1, 0, 2, 0] ++ ([7, 0, 0, 0, 0, 0,
     0, 0, 6] ++ List.replicate 7 0))).2, true, [34, 240, 0, 1, 0, 2, 0] ++ ([7, 0, 0, 0, 0, 0, 0, 0, 6] ++ List.replicate 7 0), Prod.ext (by decide +kernel)
     rfl, by decide +kernel⟩⟩

theorem witness_SweepCalibrationComplete :
    (∃ (s : State) (t : State), (s.poweredDown INS_XCAL_CTRL.word = false) ∧ (s.ringMaster = true) ∧ (s.cul.xrun = false) ∧ (s.f INS_XCAL_CTRL.PAGES ≠ 0) ∧
      (t = ((s.setF INS_XCAL_STATUS.STATE xcMEASURING).setF INS_XCAL_STATUS.STEPS 0).setF INS_XCAL_STATUS.ABSENT 0)) ∧
    (∃ (s : State), (s.poweredDown INS_XCAL_CTRL.word = false) ∧ (s.b CUL_STATUS.MASTER = true)) ∧
    (∃ (s : State) (t : State) (own : List (Nat × Option Nat × Option Nat)), (s.cul.xrun = true) ∧ (s.ringMaster = true) ∧ (s.f INS_XCAL_STATUS.STATE =
      xcMEASURING) ∧ ((s.cul.xmeas = s.culIndex → s.cul.xpages = 0)) ∧ (s.xcalTargetsOf s.variant.stations = (own, t))) ∧
    (∃ (s : State), (s.cul.xrun = true) ∧ (s.b CUL_STATUS.MASTER = true) ∧ (s.f INS_XCAL_STATUS.STATE = xcCOLLECTING)) ∧
    (∃ (s : State), (s.cul.xheld.isSome = true) ∧ (s.b CUL_STATUS.MASTER = false)) ∧
    (∃ (s : State) (t : State) (e : Bool) (m : List Byte) (b : List Byte), (b = msgBody m) ∧ (s.culTake 0x30 e m = (true, t))) ∧
    (∃ (s : State) (t : State) (e : Bool) (m : List Byte), (s.culTake 0x31 e m = (true, t)) ∧ (t.cul.xrun = true) ∧ (leAt (msgBody m) 10 1 = t.cul.xsweep)) ∧
    (∃ (s : State) (t : State) (e : Bool) (m : List Byte) (b : List Byte), (s.culTake 0x32 e m = (true, t)) ∧ (t.cul.xrun = true) ∧ (b = msgBody m) ∧ (leAt
      b 0 1 = t.cul.xsweep)) ∧
    (∃ (s : State) (t : State) (e : Bool) (m : List Byte) (b : List Byte) (d : Nat), (s.culTake 0x33 e m = (true, t)) ∧ (t.cul.xrun = true) ∧ (t.b
      CUL_STATUS.MASTER = true) ∧ (t.f INS_XCAL_STATUS.STATE = xcCOLLECTING) ∧ (d = msgSrc m) ∧ (d = t.cul.xstep) ∧ (b = msgBody m) ∧ (leAt b 0 1 =
      t.cul.xsweep) ∧ (leAt b 2 1 = 0)) ∧
    (∃ (s : State) (t : State) (e : Bool) (m : List Byte), (s.culTake 0x34 e m = (true, t)) ∧ (t.cul.xrun = true) ∧ (leAt (msgBody m) 0 1 = t.cul.xsweep)) ∧
    (∃ (s : State) (t : State) (e : Bool) (m : List Byte), (s.culTake 0x35 e m = (true, t)) ∧ (t.cul.xrun = true) ∧ (leAt (msgBody m) 0 1 = t.cul.xsweep)) :=
  ⟨⟨((((ready.setF CUL_CTRL.ENABLE 1).setF CUL_STATUS.STATE culRING).setF CUL_STATUS.MASTER 1).setF CUL_STATUS.INDEX 0).setF INS_XCAL_CTRL.PAGES 3, _,
     by decide +kernel, by decide +kernel, by decide +kernel, by decide +kernel, rfl⟩,
   ⟨(at_ pwrRUN), by decide +kernel⟩,
   ⟨{ ((((ready.setF CUL_CTRL.ENABLE 1).setF CUL_STATUS.STATE culRING).setF CUL_STATUS.MASTER 1).setF CUL_STATUS.INDEX 0).setF INS_XCAL_STATUS.STATE xcMEASURING with cul := { (((((ready.setF CUL_CTRL.ENABLE 1).setF CUL_STATUS.STATE culRING).setF CUL_STATUS.MASTER 1).setF CUL_STATUS.INDEX 0).setF INS_XCAL_STATUS.STATE xcMEASURING).cul with xrun := true } },
     (({ ((((ready.setF CUL_CTRL.ENABLE 1).setF CUL_STATUS.STATE culRING).setF CUL_STATUS.MASTER 1).setF CUL_STATUS.INDEX 0).setF INS_XCAL_STATUS.STATE xcMEASURING with cul := { (((((ready.setF CUL_CTRL.ENABLE 1).setF CUL_STATUS.STATE culRING).setF CUL_STATUS.MASTER 1).setF CUL_STATUS.INDEX 0).setF INS_XCAL_STATUS.STATE xcMEASURING).cul with xrun := true } }
     : State).xcalTargetsOf State.reset.variant.stations).2,
     (({ ((((ready.setF CUL_CTRL.ENABLE 1).setF CUL_STATUS.STATE culRING).setF CUL_STATUS.MASTER 1).setF CUL_STATUS.INDEX 0).setF INS_XCAL_STATUS.STATE xcMEASURING with cul := { (((((ready.setF CUL_CTRL.ENABLE 1).setF CUL_STATUS.STATE culRING).setF CUL_STATUS.MASTER 1).setF CUL_STATUS.INDEX 0).setF INS_XCAL_STATUS.STATE xcMEASURING).cul with xrun := true } }
     : State).xcalTargetsOf State.reset.variant.stations).1, by decide +kernel, by decide +kernel, by decide +kernel, by decide +kernel, rfl⟩,
   ⟨{ ((((ready.setF CUL_CTRL.ENABLE 1).setF CUL_STATUS.STATE culRING).setF CUL_STATUS.MASTER 1).setF CUL_STATUS.INDEX 0).setF INS_XCAL_STATUS.STATE xcCOLLECTING with cul := { (((((ready.setF CUL_CTRL.ENABLE 1).setF CUL_STATUS.STATE culRING).setF CUL_STATUS.MASTER 1).setF CUL_STATUS.INDEX 0).setF INS_XCAL_STATUS.STATE xcCOLLECTING).cul with xrun := true, xsweep := 4, xstep := 1 } },
     by decide +kernel⟩,
   ⟨{ ((((ready.setF CUL_CTRL.ENABLE 1).setF CUL_STATUS.STATE culRING).setF CUL_STATUS.MASTER 0).setF CUL_STATUS.INDEX 2) with cul := { (((((ready.setF CUL_CTRL.ENABLE 1).setF CUL_STATUS.STATE culRING).setF CUL_STATUS.MASTER 0).setF CUL_STATUS.INDEX 2)).cul with xheld := some [] } },
     by decide +kernel⟩,
   ⟨((((ready.setF CUL_CTRL.ENABLE 1).setF CUL_STATUS.STATE culRING).setF CUL_STATUS.MASTER 0).setF CUL_STATUS.INDEX 2), ((((((ready.setF CUL_CTRL.ENABLE
     1).setF CUL_STATUS.STATE culRING).setF CUL_STATUS.MASTER 0).setF CUL_STATUS.INDEX 2)).culTake 0x30 true ([48, 240, 0, 1, 0, 1, 0] ++ ([4] ++
     List.replicate 7 0))).2, true, [48, 240, 0, 1, 0, 1, 0] ++ ([4] ++ List.replicate 7 0), _, rfl, Prod.ext (by decide +kernel) rfl⟩,
   ⟨{ ((((ready.setF CUL_CTRL.ENABLE 1).setF CUL_STATUS.STATE culRING).setF CUL_STATUS.MASTER 0).setF CUL_STATUS.INDEX 2) with cul := { (((((ready.setF CUL_CTRL.ENABLE 1).setF CUL_STATUS.STATE culRING).setF CUL_STATUS.MASTER 0).setF CUL_STATUS.INDEX 2)).cul with xrun := true, xsweep := 4 } },
     (({ ((((ready.setF CUL_CTRL.ENABLE 1).setF CUL_STATUS.STATE culRING).setF CUL_STATUS.MASTER 0).setF CUL_STATUS.INDEX 2) with cul := { (((((ready.setF CUL_CTRL.ENABLE 1).setF CUL_STATUS.STATE culRING).setF CUL_STATUS.MASTER 0).setF CUL_STATUS.INDEX 2)).cul with xrun := true, xsweep := 4 } }).culTake
     0x31 true ([49, 240, 0, 1, 0, 2, 0] ++ ([0, 0, 0, 0, 0, 0, 0, 0, 0, 0, 4] ++ List.replicate 5 0))).2, true, [49, 240, 0, 1, 0, 2, 0] ++ ([0, 0, 0, 0, 0,
     0, 0, 0, 0, 0, 4] ++ List.replicate 5 0), Prod.ext (by decide +kernel) rfl, by decide +kernel⟩,
   ⟨{ ((((ready.setF CUL_CTRL.ENABLE 1).setF CUL_STATUS.STATE culRING).setF CUL_STATUS.MASTER 0).setF CUL_STATUS.INDEX 2) with cul := { (((((ready.setF CUL_CTRL.ENABLE 1).setF CUL_STATUS.STATE culRING).setF CUL_STATUS.MASTER 0).setF CUL_STATUS.INDEX 2)).cul with xrun := true, xsweep := 4 } },
     (({ ((((ready.setF CUL_CTRL.ENABLE 1).setF CUL_STATUS.STATE culRING).setF CUL_STATUS.MASTER 0).setF CUL_STATUS.INDEX 2) with cul := { (((((ready.setF CUL_CTRL.ENABLE 1).setF CUL_STATUS.STATE culRING).setF CUL_STATUS.MASTER 0).setF CUL_STATUS.INDEX 2)).cul with xrun := true, xsweep := 4 } }).culTake
     0x32 true ([50, 32, 0, 1, 0, 2, 0] ++ ([4] ++ List.replicate 15 0))).2, true, [50, 32, 0, 1, 0, 2, 0] ++ ([4] ++ List.replicate 15 0), _, Prod.ext
     (by decide +kernel) rfl, by decide +kernel, rfl, rfl⟩,
   ⟨{ ((((ready.setF CUL_CTRL.ENABLE 1).setF CUL_STATUS.STATE culRING).setF CUL_STATUS.MASTER 1).setF CUL_STATUS.INDEX 0).setF INS_XCAL_STATUS.STATE xcCOLLECTING with cul := { (((((ready.setF CUL_CTRL.ENABLE 1).setF CUL_STATUS.STATE culRING).setF CUL_STATUS.MASTER 1).setF CUL_STATUS.INDEX 0).setF INS_XCAL_STATUS.STATE xcCOLLECTING).cul with xrun := true, xsweep := 4, xstep := 1 } },
     (({ ((((ready.setF CUL_CTRL.ENABLE 1).setF CUL_STATUS.STATE culRING).setF CUL_STATUS.MASTER 1).setF CUL_STATUS.INDEX 0).setF INS_XCAL_STATUS.STATE xcCOLLECTING with cul := { (((((ready.setF CUL_CTRL.ENABLE 1).setF CUL_STATUS.STATE culRING).setF CUL_STATUS.MASTER 1).setF CUL_STATUS.INDEX 0).setF INS_XCAL_STATUS.STATE xcCOLLECTING).cul with xrun := true, xsweep := 4, xstep := 1 } }).culTake
     0x33 true ([51, 1, 0, 1, 0, 2, 0] ++ ([4, 1] ++ List.replicate 14 0))).2, true, [51, 1, 0, 1, 0, 2, 0] ++ ([4, 1] ++ List.replicate 14 0), _, _,
     Prod.ext (by decide +kernel) rfl, by decide +kernel, rfl, by decide +kernel, rfl, rfl, rfl, rfl, rfl⟩,
   ⟨{ ((((ready.setF CUL_CTRL.ENABLE 1).setF CUL_STATUS.STATE culRING).setF CUL_STATUS.MASTER 0).setF CUL_STATUS.INDEX 2) with cul := { (((((ready.setF CUL_CTRL.ENABLE 1).setF CUL_STATUS.STATE culRING).setF CUL_STATUS.MASTER 0).setF CUL_STATUS.INDEX 2)).cul with xrun := true, xsweep := 4 } },
     (({ ((((ready.setF CUL_CTRL.ENABLE 1).setF CUL_STATUS.STATE culRING).setF CUL_STATUS.MASTER 0).setF CUL_STATUS.INDEX 2) with cul := { (((((ready.setF CUL_CTRL.ENABLE 1).setF CUL_STATUS.STATE culRING).setF CUL_STATUS.MASTER 0).setF CUL_STATUS.INDEX 2)).cul with xrun := true, xsweep := 4 } }).culTake
     0x34 true ([52, 240, 0, 1, 0, 1, 0] ++ ([4] ++ List.replicate 7 0))).2, true, [52, 240, 0, 1, 0, 1, 0] ++ ([4] ++ List.replicate 7 0), Prod.ext
     (by decide +kernel) rfl, by decide +kernel⟩,
   ⟨{ ((((ready.setF CUL_CTRL.ENABLE 1).setF CUL_STATUS.STATE culRING).setF CUL_STATUS.MASTER 0).setF CUL_STATUS.INDEX 2) with cul := { (((((ready.setF CUL_CTRL.ENABLE 1).setF CUL_STATUS.STATE culRING).setF CUL_STATUS.MASTER 0).setF CUL_STATUS.INDEX 2)).cul with xrun := true, xsweep := 4 } },
     (({ ((((ready.setF CUL_CTRL.ENABLE 1).setF CUL_STATUS.STATE culRING).setF CUL_STATUS.MASTER 0).setF CUL_STATUS.INDEX 2) with cul := { (((((ready.setF CUL_CTRL.ENABLE 1).setF CUL_STATUS.STATE culRING).setF CUL_STATUS.MASTER 0).setF CUL_STATUS.INDEX 2)).cul with xrun := true, xsweep := 4 } }).culTake
     0x35 true ([53, 240, 0, 1, 0, 1, 0] ++ ([4] ++ List.replicate 7 0))).2, true, [53, 240, 0, 1, 0, 1, 0] ++ ([4] ++ List.replicate 7 0), Prod.ext
     (by decide +kernel) rfl, by decide +kernel⟩⟩

theorem witness_FieldNetworkComplete :
    (∃ (s : State) (t : State) (g : Nat) (w : BitVec 16) (mo : Bool) (si : Bool) (a : Nat) (b : Nat) (c : Nat), (s.escOn = true) ∧ (t = (s.setF
      ECT_ADDR.STATION w.toNat).setF ECT_SYNC.CYCLE_NS c) ∧ (t.alCode g mo a b c = none) ∧ (g ≠ alINIT) ∧ (g ≠ alSAFEOP)) ∧
    (∃ (s : State) (t : State) (g : Nat) (code : Nat) (w : BitVec 16) (mo : Bool) (si : Bool) (a : Nat) (b : Nat) (c : Nat), (s.escOn = true) ∧ (t =
      (s.setF ECT_ADDR.STATION w.toNat).setF ECT_SYNC.CYCLE_NS c) ∧ (t.alCode g mo a b c = some code)) ∧
    (∃ (s : State), (s.escOn = true) ∧ (s.rxAssigned = true) ∧ (s.alState = alOP)) ∧
    (∃ (s : State) (d : List Byte), (s.escOn = true) ∧ (s.alState = alOP) ∧ (s.rxAssigned = true) ∧ (s.serverRuns = true) ∧ (d.length = s.pdoBytes true)) ∧
    (∃ (s : State) (t : State) (u : State) (dc : BitVec 64) (fresh : Bool), (s.escOn = true) ∧ (s.f ECT_SYNC.CYCLE_NS ≠ 0) ∧ (t = (s.measureDc dc).set64
      ECT_SYNC_TB_LO.word s.now.toNat) ∧ (u = (if t.dcSync && t.pdoRuns then t.sampleTx else t)) ∧ ((u.rxAssigned = false ∨ fresh = true))) ∧
    (∃ (s : State), (s.escOn = true) ∧ (s.pdoRuns = true) ∧ (s.dcSync = false)) ∧
    (∃ (s : State) (dc : BitVec 64), (s.escOn = true) ∧ (s.f ECT_SYNC.CYCLE_NS = 0)) ∧
    (∃ (s : State), (s.escOn = true) ∧ (s.b ECT_STATUS.LINK0 = false)) ∧
    (∃ (s : State), (s.escOn = true) ∧ (s.b ECT_STATUS.LINK1 = true)) ∧
    (∃ (s : State) (n : String) (d : List Byte) (l : Bool), (s.escOn = true) ∧ (s.alState = alBOOT) ∧ ((n = "SX-FW" ∨ n = "SX-SII"))) ∧
    (∃ (s : State) (n : String) (pw : BitVec 32) (k : Nat) (d : List Byte) (x : Foe), (s.escOn = true) ∧ (s.alState = alBOOT) ∧ (k ≠ 0) ∧ (s.ect.foe = some
      x) ∧ (x.packet = k) ∧ (x.sii = true) ∧ ((x.data ++ d).length ≤ 512 + 2048)) ∧
    (∃ (s : State) (t : State) (n : String) (pw : BitVec 32) (k : Nat) (d : List Byte) (x : Foe), (s.escOn = true) ∧ (s.alState = alBOOT) ∧ (k ≠ 0) ∧
      (s.ect.foe = some x) ∧ (x.packet = k) ∧ (x.sii = false) ∧ ((x.data ++ d).length ≤ 2 ^ 26) ∧ (t = s.emit (.bootFlash (slotBase (1 - s.boot.slot) +
      x.data.length) d))) ∧
    (∃ (s : State) (n : String), (s.escOn = true) ∧ (s.alState ≠ alINIT)) ∧
    (∃ (s : State) (p : Nat), (s.escOn = true) ∧ (s.alState ≠ alINIT) ∧ (p ≠ 3) ∧ (p ≠ 4)) ∧
    (∃ (s : State), (s.coeOpen = true)) ∧
    (∃ (s : State) (d : List Byte), (s.coeOpen = true)) ∧
    (∃ (s : State) (ok : Bool), (s.evr.stores.isEmpty = false) ∧ ((s.calStored ok).hif.hold = none)) ∧
    (∃ (s : State) (t : State) (e : Bool) (m : List Byte) (b : List Byte), (s.culTake 0x40 e m = (true, t)) ∧ (t.ringMember = true) ∧ (b = msgBody m)) ∧
    (∃ (s : State) (u : State) (e : Bool) (m : List Byte) (b : List Byte) (t : Tunnel) (q : SdoReq), (s.culTake 0x41 e m = (true, u)) ∧ (u.hif.tunnel =
      some t) ∧ (u.hif.hold = some q) ∧ (b = msgBody m) ∧ (t.dev = msgSrc m) ∧ (t.index = leAt b 0 2) ∧ (t.sub = leAt b 2 1)) ∧
    (∃ (s : State) (t : Tunnel) (q : SdoReq), (s.hif.tunnel = some t) ∧ (s.hif.hold = some q)) :=
  ⟨⟨((ready.setF ECT_CTRL.ENABLE 1).setF ECT_STATUS.AL_STATE alINIT), _, alPREOP, 0, true, true, 0, 0, 0, by decide +kernel, rfl, rfl, by decide +kernel⟩,
   ⟨((ready.setF ECT_CTRL.ENABLE 1).setF ECT_STATUS.AL_STATE alINIT), _, alOP, 0x0011, 0, true, true, 0, 0, 0, by decide +kernel, rfl, rfl⟩,
   ⟨((((ready.setF ECT_CTRL.ENABLE 1).setF ECT_STATUS.AL_STATE alOP).setObj 0x1C12 0 1).setObj 0x1C12 1 0x1600), by decide +kernel⟩,
   ⟨((((ready.setF ECT_CTRL.ENABLE 1).setF ECT_STATUS.AL_STATE alOP).setObj 0x1C12 0 1).setObj 0x1C12 1 0x1600), [], by decide +kernel⟩,
   ⟨((ready.setF ECT_CTRL.ENABLE 1).setF ECT_STATUS.AL_STATE alOP).setF ECT_SYNC.CYCLE_NS 1000000, (((((ready.setF ECT_CTRL.ENABLE 1).setF
     ECT_STATUS.AL_STATE alOP).setF ECT_SYNC.CYCLE_NS 1000000).measureDc 5000).set64 ECT_SYNC_TB_LO.word (((ready.setF ECT_CTRL.ENABLE 1).setF
     ECT_STATUS.AL_STATE alOP).setF ECT_SYNC.CYCLE_NS 1000000).now.toNat), (if (((((ready.setF ECT_CTRL.ENABLE 1).setF ECT_STATUS.AL_STATE alOP).setF
     ECT_SYNC.CYCLE_NS 1000000).measureDc 5000).set64 ECT_SYNC_TB_LO.word (((ready.setF ECT_CTRL.ENABLE 1).setF ECT_STATUS.AL_STATE alOP).setF
     ECT_SYNC.CYCLE_NS 1000000).now.toNat).dcSync && (((((ready.setF ECT_CTRL.ENABLE 1).setF ECT_STATUS.AL_STATE alOP).setF ECT_SYNC.CYCLE_NS
     1000000).measureDc 5000).set64 ECT_SYNC_TB_LO.word (((ready.setF ECT_CTRL.ENABLE 1).setF ECT_STATUS.AL_STATE alOP).setF ECT_SYNC.CYCLE_NS
     1000000).now.toNat).pdoRuns then (((((ready.setF ECT_CTRL.ENABLE 1).setF ECT_STATUS.AL_STATE alOP).setF ECT_SYNC.CYCLE_NS 1000000).measureDc 5000).set64
     ECT_SYNC_TB_LO.word (((ready.setF ECT_CTRL.ENABLE 1).setF ECT_STATUS.AL_STATE alOP).setF ECT_SYNC.CYCLE_NS 1000000).now.toNat).sampleTx else
     (((((ready.setF ECT_CTRL.ENABLE 1).setF ECT_STATUS.AL_STATE alOP).setF ECT_SYNC.CYCLE_NS 1000000).measureDc 5000).set64 ECT_SYNC_TB_LO.word
     (((ready.setF ECT_CTRL.ENABLE 1).setF ECT_STATUS.AL_STATE alOP).setF ECT_SYNC.CYCLE_NS 1000000).now.toNat)), 5000, true, by decide +kernel,
     by decide +kernel, rfl, rfl, by decide +kernel⟩,
   ⟨((ready.setF ECT_CTRL.ENABLE 1).setF ECT_STATUS.AL_STATE alOP), by decide +kernel⟩,
   ⟨(at_ pwrRUN), 0, by decide +kernel⟩,
   ⟨(at_ pwrRUN), by decide +kernel⟩,
   ⟨((ready.setF ECT_CTRL.ENABLE 1).setF ECT_STATUS.AL_STATE alOP).setF ECT_STATUS.LINK1 1, by decide +kernel⟩,
   ⟨((ready.setF ECT_CTRL.ENABLE 1).setF ECT_STATUS.AL_STATE alBOOT), "SX-FW", [], false, by decide +kernel⟩,
   ⟨{ ((ready.setF ECT_CTRL.ENABLE 1).setF ECT_STATUS.AL_STATE alBOOT) with ect := { run.ect with foe := some { sii := true, packet := 2, data := [1, 2] } } },
     "SX-SII", 0, 2, [3], { sii := true, packet := 2, data := [1, 2] }, by decide +kernel⟩,
   by refine
     ⟨{ ((ready.setF ECT_CTRL.ENABLE 1).setF ECT_STATUS.AL_STATE alBOOT) with ect := { run.ect with foe := some { packet := 2, data := [1, 2] } } }, _,
     "SX-FW", 0, 2, [3], { packet := 2, data := [1, 2] }, ?_, ?_, ?_, ?_, ?_, ?_, ?_, rfl⟩ <;> decide +kernel,
   ⟨((ready.setF ECT_CTRL.ENABLE 1).setF ECT_STATUS.AL_STATE alPREOP), "SX-FW", by decide +kernel⟩,
   ⟨((ready.setF ECT_CTRL.ENABLE 1).setF ECT_STATUS.AL_STATE alPREOP), 5, by decide +kernel⟩,
   ⟨((ready.setF ECT_CTRL.ENABLE 1).setF ECT_STATUS.AL_STATE alOP), by decide +kernel⟩,
   ⟨((ready.setF ECT_CTRL.ENABLE 1).setF ECT_STATUS.AL_STATE alOP), [1], by decide +kernel⟩,
   ⟨{ ready with evr := { ready.evr with stores := [[1, 2]] } }, true, by decide +kernel⟩,
   ⟨((((run.setF CUL_CTRL.ENABLE 1).setF CUL_STATUS.STATE culRING).setF CUL_STATUS.MASTER 0).setF CUL_STATUS.INDEX 2), ((((((run.setF CUL_CTRL.ENABLE
     1).setF CUL_STATUS.STATE culRING).setF CUL_STATUS.MASTER 0).setF CUL_STATUS.INDEX 2)).culTake 0x40 true ([64, 32, 0, 1, 0, 1, 0] ++ [24, 16, 1, 1, 0, 0,
     0, 0])).2, true, [64, 32, 0, 1, 0, 1, 0] ++ [24, 16, 1, 1, 0, 0, 0, 0], _, Prod.ext (by decide +kernel) rfl, by decide +kernel, rfl⟩,
   ⟨{ ((((ready.setF CUL_CTRL.ENABLE 1).setF CUL_STATUS.STATE culRING).setF CUL_STATUS.MASTER 1).setF CUL_STATUS.INDEX 0) with hif := { run.hif with tunnel := some { dev := 2, index := 0x1018, sub := 1 }, hold := some (.coe (.upload 0x1018 1 false)) } },
     (({ ((((ready.setF CUL_CTRL.ENABLE 1).setF CUL_STATUS.STATE culRING).setF CUL_STATUS.MASTER 1).setF CUL_STATUS.INDEX 0) with hif := { run.hif with tunnel := some { dev := 2, index := 0x1018, sub := 1 }, hold := some (.coe (.upload 0x1018 1 false)) } }).culTake
     0x41 true ([65, 2, 0, 1, 0, 2, 0] ++ ([24, 16, 1, 1] ++ List.replicate 12 0))).2, true, [65, 2, 0, 1, 0, 2, 0] ++ ([24, 16, 1, 1] ++ List.replicate 12
     0), _, { dev := 2, index := 0x1018, sub := 1 }, .coe (.upload 0x1018 1 false), Prod.ext (by decide +kernel) rfl, by decide +kernel, by decide +kernel,
     rfl, by decide +kernel, rfl, rfl⟩,
   ⟨{ ((((ready.setF CUL_CTRL.ENABLE 1).setF CUL_STATUS.STATE culRING).setF CUL_STATUS.MASTER 1).setF CUL_STATUS.INDEX 0) with hif := { run.hif with tunnel := some { dev := 2, index := 0x1018, sub := 1 }, hold := some (.coe (.upload 0x1018 1 false)) } },
     { dev := 2, index := 0x1018, sub := 1 }, .coe (.upload 0x1018 1 false), by decide +kernel⟩⟩

theorem witness_SequencerComplete :
    (∃ (s : State) (i : Nat) (v : BitVec 32), (i < 64) ∧ (s.poweredDown (PWR_SEQ_PROG.word i) = false) ∧ (s.word (PWR_SEQ_PROG.word i) ≠ v) ∧ (s.seqOpen =
      true) ∧ (seqWordOk v.toNat = true)) ∧
    (∃ (s : State) (i : Nat) (v : BitVec 32), (i < 64) ∧ (s.poweredDown (PWR_SEQ_PROG.word i) = false) ∧ (s.word (PWR_SEQ_PROG.word i) ≠ v) ∧ ((s.seqOpen =
      false ∨ seqWordOk v.toNat = false))) ∧
    (∃ (s : State), (s.seqAt 0 = true)) ∧
    (∃ (s : State), (s.seqAt 1 = true)) ∧
    (∃ (s : State) (t : State) (k : Nat), (s.seqAt 2 = true) ∧ (k = bits s.seqWord 0 5) ∧ (t = s.setF (PWR_RAIL_STATUS.LATCH k) 0)) ∧
    (∃ (s : State), (s.seqAt 3 = true)) ∧
    (∃ (s : State) (x : Bool), (s.seqAt 4 = true) ∧ ((s.railGood (bits s.seqWord 16 5) = true ∨ x = true))) ∧
    (∃ (s : State) (k : Nat), (s.seqAt 5 = true) ∧ (k = bits s.seqWord 16 5) ∧ (bits s.seqWord 21 3 = 4)) ∧
    (∃ (s : State), (s.seqAt 6 = true)) ∧
    (∃ (s : State), (s.seqAt 7 = true)) ∧
    (∃ (s : State), (s.power ≠ pwrOFF) ∧ (s.f PWR_SEQ_STATUS.STATE = sqRUNNING)) :=
  ⟨⟨ready, 0, 1, by decide +kernel⟩,
   ⟨ready, 0, 0xFFFFFFFF, by decide +kernel⟩,
   ⟨((ready.setF PWR_SEQ_STATUS.STATE sqRUNNING).setF (PWR_SEQ_PROG.WORD 0) (0 * 2 ^ 28 + 3)), by decide +kernel⟩,
   ⟨((ready.setF PWR_SEQ_STATUS.STATE sqRUNNING).setF (PWR_SEQ_PROG.WORD 0) (1 * 2 ^ 28 + 3)), by decide +kernel⟩,
   ⟨((ready.setF PWR_SEQ_STATUS.STATE sqRUNNING).setF (PWR_SEQ_PROG.WORD 0) (2 * 2 ^ 28 + 3)), _, _, by decide +kernel, rfl, rfl⟩,
   ⟨((ready.setF PWR_SEQ_STATUS.STATE sqRUNNING).setF (PWR_SEQ_PROG.WORD 0) (3 * 2 ^ 28 + 3)), by decide +kernel⟩,
   ⟨((ready.setF PWR_SEQ_STATUS.STATE sqRUNNING).setF (PWR_SEQ_PROG.WORD 0) (4 * 2 ^ 28 + 100)), true, by decide +kernel⟩,
   ⟨((ready.setF PWR_SEQ_STATUS.STATE sqRUNNING).setF (PWR_SEQ_PROG.WORD 0) (5 * 2 ^ 28 + 8388608)), _, by decide +kernel, rfl, by decide +kernel⟩,
   ⟨((ready.setF PWR_SEQ_STATUS.STATE sqRUNNING).setF (PWR_SEQ_PROG.WORD 0) (6 * 2 ^ 28 + 3)), by decide +kernel⟩,
   ⟨((ready.setF PWR_SEQ_STATUS.STATE sqRUNNING).setF (PWR_SEQ_PROG.WORD 0) (7 * 2 ^ 28 + 3)), by decide +kernel⟩,
   ⟨((ready.setF PWR_SEQ_STATUS.STATE sqRUNNING).setF (PWR_SEQ_PROG.WORD 0) (3 * 2 ^ 28 + 5)), by decide +kernel⟩⟩

theorem witness_SuppliesComplete :
    (∃ (s : State) (t : State) (f : Option Nat), (s.boot.cores = true) ∧ (s.power ≠ pwrHIBERNATE) ∧ (s.power ≠ pwrOFF) ∧ (t =
      { s with pwr := { s.pwr with pmbusUsed := true } })) ∧
    (∃ (s : State) (t : State) (u : State) (sl : List (BitVec 16)) (x : Int) (r : List Int), (s.boot.cores = true) ∧ (s.power ≠ pwrHIBERNATE) ∧ (s.power ≠
      pwrOFF) ∧ (t = (List.range 20).foldl (fun (t : State) m => t.setF (PWR_PACE.SLACK m) (if s.paceOn m then (sl.getD m 0).toNat else 0x8000)) s) ∧ (u =
      { t.setF PWR_AVS_STATUS.VREAD (min (s.f PWR_AVS_STATUS.VSET) 2047) with pwr := { s.pwr with avsFails := 0 } }) ∧ (((List.range 20).filter s.paceOn).map
      (fun m => (sl.getD m 0).toInt) = x :: r)) ∧
    (∃ (s : State), (s.power ≠ pwrHIBERNATE) ∧ (s.power ≠ pwrOFF)) ∧
    (∃ (s : State) (cs : List (BitVec 12)), (s.power ≠ pwrOFF)) ∧
    (∃ (s : State) (t : State) (k : Nat), (k < 32) ∧ (s.power ≠ pwrOFF) ∧ (t = s.setF (PWR_RAIL_STATUS.PG k) 0) ∧ (t.railChecked k = true) ∧ (t.b
      (PWR_RAIL_CFG.PG_EN k) = true) ∧ ((t.rail k).hitPg = false)) ∧
    (∃ (s : State) (k : Nat), (k < 32) ∧ (s.power ≠ pwrOFF)) ∧
    (∃ (s : State) (k : Nat), (k < 32) ∧ (s.railEn k = true) ∧ ((s.rail k).blanked = false)) ∧
    (∃ (s : State) (ts : List (BitVec 16)), (s.power ≠ pwrOFF) ∧ (s.b CLK_STATUS.REFCLK_OK = true)) ∧
    (∃ (s : State) (t : State), (s.pwr.grace = true) ∧ (s.pwr.changed = false) ∧ (t = { s with pwr := { s.pwr with grace := false, changed := false } }) ∧
      (bit (t.f THM_WEIR.ACTIVE) 0 = true) ∧ (t.classNow < t.scn.asks.getD 0 0)) :=
  ⟨⟨(at_ pwrRUN), _, none, by decide +kernel, by decide +kernel, by decide +kernel, rfl⟩,
   ⟨ready, _, _, List.replicate 20 50, _, _, by decide +kernel, by decide +kernel, by decide +kernel, rfl, rfl, by rfl⟩,
   ⟨(at_ pwrRUN), by decide +kernel⟩,
   ⟨(at_ pwrRUN), [], by decide +kernel⟩,
   ⟨((run.setF PWR_RAIL_EN.EN 1).setF (PWR_RAIL_CFG.PG_EN 0) 1).setRail 0 { blanked := true }, _, 0, by decide +kernel, by decide +kernel, rfl, rfl, rfl,
     rfl⟩,
   ⟨(at_ pwrRUN), 0, by decide +kernel⟩,
   ⟨((run.setF PWR_RAIL_EN.EN 1).setF (PWR_RAIL_CFG.PG_EN 0) 1), 0, by decide +kernel⟩,
   ⟨run.setF CLK_STATUS.REFCLK_OK 1, [300], by decide +kernel⟩,
   ⟨{ run.setF THM_WEIR.ACTIVE 1 with pwr := { run.pwr with grace := true }, scn := { run.scn with asks := [(0, 3)] } }, _, by decide +kernel,
     by decide +kernel, rfl, rfl, by decide +kernel⟩⟩

theorem witness_PowerStatesComplete :
    (∃ (s : State) (v : Nat), (s.poweredDown PWR_STATE.word = false) ∧ (v ≤ 5) ∧ ((s.ringMember = true → v ≠ pwrRUN))) ∧
    (∃ (s : State) (v : Nat), (s.poweredDown PWR_STATE.word = false) ∧ (5 < v)) ∧
    (∃ (s : State), (s.goesUp pwrREADY = true) ∧ (s.ringMember = false) ∧ (s.runRefusal = none)) ∧
    (∃ (s : State), (s.goesDown pwrRUN = true) ∧ (s.pwr.runUp = false)) ∧
    (∃ (s : State), (s.syncSpeed.goesDown pwrREADY = true) ∧ (s.syncSpeed.f SCN_WEB_SPEED.SPEED < 10000) ∧ (s.syncSpeed.ringMaster = false)) ∧
    (∃ (s : State), (s.goesUp pwrSTANDBY = true)) ∧
    (∃ (s : State), (s.goesDown pwrSTANDBY = true) ∧ (s.b PWR_STATE.STEPPING = false)) ∧
    (∃ (s : State), (s.goesUp pwrSLEEP = true) ∧ (s.b PWR_STATE.STEPPING = false) ∧ (s.boot.cores = true) ∧ (bit (s.f THM_WEIR.ACTIVE) 0 = false)) ∧
    (∃ (s : State), (s.goesDown pwrSLEEP = true) ∧ (s.b PWR_STATE.STEPPING = false)) ∧
    (∃ (s : State) (t : State), (s.goesDown pwrHIBERNATE = true) ∧ (t = (s.pmicOff.railsOff).resetRegs 0x800000 0xC00000)) ∧
    (∃ (s : State), (s.power = pwrHIBERNATE) ∧ (s.b THM_SHUT.ACTIVE = false)) ∧
    (∃ (s : State), (s.power = pwrHIBERNATE) ∧ (s.b THM_SHUT.ACTIVE = false) ∧ (s.pwr.dcWake = true)) ∧
    (∃ (s : State), (s.b THM_SHUT.ACTIVE = true) ∧ (restartRounds ≤ s.pwr.cool)) :=
  ⟨⟨(at_ pwrRUN), 0, by decide +kernel⟩,
   ⟨ready, 9, by decide +kernel⟩,
   ⟨((at_ pwrREADY).setF PWR_STATE.REQ pwrRUN).setF SEC_LC.STATE 1, by decide +kernel⟩,
   ⟨(at_ pwrRUN), by decide +kernel⟩,
   ⟨((at_ pwrREADY).setF PWR_STATE.REQ pwrSTANDBY), by decide +kernel⟩,
   ⟨((at_ pwrSTANDBY).setF PWR_STATE.REQ pwrREADY), by decide +kernel⟩,
   ⟨((at_ pwrSTANDBY).setF PWR_STATE.REQ pwrSLEEP), by decide +kernel⟩,
   ⟨(at_ pwrSLEEP), by decide +kernel⟩,
   ⟨((at_ pwrSLEEP).setF PWR_STATE.REQ pwrHIBERNATE), by decide +kernel⟩,
   ⟨((at_ pwrHIBERNATE).setF PWR_STATE.REQ pwrOFF), _, by decide +kernel, rfl⟩,
   ⟨at_ pwrHIBERNATE, by decide +kernel⟩,
   ⟨{ at_ pwrHIBERNATE with pwr := { dcWake := true } }, by decide +kernel⟩,
   ⟨{ (at_ pwrOFF).setF THM_SHUT.ACTIVE 1 with pwr := { cool := 90938 } }, by decide +kernel⟩⟩

theorem witness_BootComplete :
    (∃ (s : State) (e : Nat), (s.boot.running = true) ∧ (s.pwr.enable = some e)) ∧
    (∃ (s : State) (t : State) (e : Nat), (s.boot.running = true) ∧ (s.pwr.enable = some e) ∧ (s.pwr.tries + 1 < 3) ∧ (t = (s.pmicOff.lastWord 0x11 0x10 0
      0 (e * 256)).setF PWR_BOOT.CAUSE (0x30 + e))) ∧
    (∃ (s : State), (s.boot.running = true) ∧ (s.pwr.retry = true)) ∧
    (∃ (s : State) (t : State) (ch : Nat) (n : Nat) (k : List Byte), (s.boot.running = true) ∧ (3 ≤ s.f PWR_BOOT.STAGE) ∧ (s.boot.dramDone = false) ∧ ((∀ p
      ∈ [12, 13, 14, 15], bit (s.f CLK_STATUS.LOCKED) p = true)) ∧ (s.b SEC_STATUS.TRNG_FAIL = false) ∧ (s.drawn 8 = (t, k))) ∧
    (∃ (s : State) (t : State) (dir : Nat × Nat × Nat) (ha : List Byte) (pa : List Byte) (pb : List Byte) (hb : Option (List Byte)) (jo : Bool) (bo :
      Bool), (s.boot.running = true) ∧ (s.boot.dramDone = true) ∧ (dir.1 % 2 = 0) ∧ (t =
      { s with boot := { s.boot with dirSeq := dir.2.1, dirRec := dir.2.2 % 2 } }) ∧ (t.slotCode (some ha) pa = 0)) ∧
    (∃ (s : State) (t : State) (dir : Nat × Nat × Nat) (hb : List Byte) (pa : List Byte) (pb : List Byte) (ha : Option (List Byte)) (jo : Bool) (bo :
      Bool), (s.boot.running = true) ∧ (s.boot.dramDone = true) ∧ (dir.1 % 2 = 0) ∧ (t =
      { s with boot := { s.boot with dirSeq := dir.2.1, dirRec := dir.2.2 % 2 } }) ∧ (t.slotCode ha pa ≠ 0) ∧ (t.slotCode (some hb) pb = 0)) ∧
    (∃ (s : State) (t : State) (u : State) (st : Bool) (tm : Bool) (si : Bool), (t = (s.porBase false).latchFuses.otpShow.factoryTaps) ∧ (u = ((if
      s.sessionLevel ≠ 0 then t.setF SEC_DBG_STATUS.CLOSE_CAUSE 4 else t).setB CUL_STATUS.MASTER st).setF CLK_STATUS.REFCLK_OK 1)) ∧
    (∃ (s : State) (t : State), (s.power ≠ pwrHIBERNATE) ∧ (s.power ≠ pwrOFF) ∧ (s.b THM_SHUT.ACTIVE = false) ∧ (s.boot.sysReset = false) ∧ (s.sessionLevel
      = 0) ∧ (t = (((({ s with boot := { s.boot with sysReset := true } } : State).hdgSync.aliveStop.lastWord 0x16 0x22).seqStop.railSync.engineStop
      4).darken true).gatesShut)) ∧
    (∃ (s : State) (t : State), (s.boot.sysReset = true) ∧ (t =
      { s with now := 0, boot := { s.boot with sysReset := false, running := true, stopped := false } })) :=
  ⟨⟨{ State.reset with boot := { running := true }, pwr := { enable := some 1 } }, 1, by decide +kernel⟩,
   ⟨{ State.reset with boot := { running := true }, pwr := { enable := some 1 } }, _, 1, by decide +kernel, by decide +kernel, by decide +kernel, rfl⟩,
   ⟨{ State.reset with boot := { running := true }, pwr := { retry := true } }, by decide +kernel⟩,
   ⟨(({ State.reset with boot := { running := true } } : State).setF PWR_BOOT.STAGE 3).setF CLK_STATUS.LOCKED 0xFFFF,
     (((({ State.reset with boot := { running := true } } : State).setF PWR_BOOT.STAGE 3).setF CLK_STATUS.LOCKED 0xFFFF).drawn 8).1, 0, 4096,
     (((({ State.reset with boot := { running := true } } : State).setF PWR_BOOT.STAGE 3).setF CLK_STATUS.LOCKED 0xFFFF).drawn 8).2, by decide +kernel,
     by decide +kernel, by decide +kernel, by decide +kernel, by decide +kernel, rfl⟩,
   ⟨{ State.reset with boot := { running := true, dramDone := true }, otp := { words := rootWords 8 } }, _, (0, 1, 0), goodPackage, sha384 [0#8], [], none,
     false, false, by decide +kernel, by decide +kernel, by decide +kernel, rfl, by decide +kernel⟩,
   ⟨{ State.reset with boot := { running := true, dramDone := true }, otp := { words := rootWords 8 } }, _, (0, 1, 0), goodPackage, [], sha384 [0#8], none,
     false, false, by decide +kernel, by decide +kernel, by decide +kernel, rfl, by decide +kernel⟩,
   ⟨(at_ pwrRUN), _, _, false, false, false, rfl, rfl⟩,
   ⟨(at_ pwrRUN), _, by decide +kernel, by decide +kernel, by decide +kernel, by decide +kernel, by decide +kernel, rfl⟩,
   ⟨{ State.reset with boot := { sysReset := true } }, _, by decide +kernel, rfl⟩⟩

theorem witness_SecurityComplete :
    (∃ (s : State) (a : Nat), (s.poweredDown OTP_CMD.word = false)) ∧
    (∃ (s : State) (w : Nat) (d : BitVec 64) (bad : BitVec 64) (e : Nat), (s.otp.op = some (.writeS w d)) ∧ (s.otp.code = 0)) ∧
    (∃ (s : State) (k : Nat), (s.poweredDown SEC_LC.word = false)) ∧
    (∃ (s : State), (s.lc = lcBLANK) ∧ (s.provisioned = true) ∧ (s.b SEC_STATUS.TRNG_FAIL = false)) ∧
    (∃ (s : State) (b : Bool), (s.otp.op = some (.transition lcFIELD)) ∧ (s.lc = lcSECURED)) ∧
    (∃ (s : State) (b : Bool), (s.otp.op = some (.transition lcRETURNED)) ∧ (s.lc ≠ lcRETURNED)) ∧
    (∃ (s : State), (s.poweredDown SEC_SVN_CTRL.word = false)) ∧
    (∃ (s : State) (n : Nat), (s.poweredDown SEC_TOKEN_EPOCH.word = false) ∧ (n ≤ 256) ∧ (s.thermo rowsToken 8 < n)) ∧
    (∃ (s : State), (s.poweredDown (SEC_CHAL.word 0) = false)) ∧
    (∃ (s : State) (t : List Byte), (s.poweredDown SEC_DBG_CTRL.word = false) ∧ (s.sec.token = none)) ∧
    (∃ (s : State) (u : State) (t : List Byte), (s.sec.token = some t) ∧ (s.tokenCode t false = 0) ∧ (leAt t 5 1 ≠ 3) ∧ (u =
      ({ s.setF SEC_DBG_STATUS.STATE (if s.sessionLevel = 0 then 0 else 2) with sec := { s.sec with token := none } } : State).tokenJudged 0)) ∧
    (∃ (s : State), (s.poweredDown SEC_DBG_CTRL.word = false)) ∧
    (∃ (s : State), (s.sessionLevel ≠ 0) ∧ (s.sec.opened + s.sec.life * 1000000000 ≤ s.now.toNat)) ∧
    (∃ (s : State) (t : State), (s.b SEC_STATUS.TRNG_FAIL = false) ∧ (t = { s with sec := { s.sec with trngAt := some s.now.toNat } })) ∧
    (∃ (s : State), ((∀ a, s.sec.trngAt = some a → a + 1000000 ≤ s.now.toNat))) :=
  ⟨⟨(at_ pwrRUN), 0, by decide +kernel⟩,
   ⟨{ ready with otp := { op := some (.writeS 30 77) } }, 30, 77, 0, 0, by decide +kernel⟩,
   ⟨(at_ pwrRUN), 0, by decide +kernel⟩,
   ⟨{ ready.setF SEC_LC.STATE lcBLANK with otp := { words := [0, 4, 8, 9, 10, 11, 12, 13, 14, 15, 16, 17, 18, 19].map (fun i => (i, { written := true })) } },
     by decide +kernel⟩,
   ⟨{ ready.setF SEC_LC.STATE lcSECURED with otp := { op := some (.transition lcFIELD) } }, true, by decide +kernel⟩,
   ⟨{ ready with otp := { op := some (.transition lcRETURNED) } }, true, by decide +kernel⟩,
   ⟨(at_ pwrRUN), by decide +kernel⟩,
   ⟨ready, 3, by decide +kernel⟩,
   ⟨(at_ pwrRUN), by decide +kernel⟩,
   ⟨(at_ pwrRUN), [], by decide +kernel⟩,
   ⟨{ ready.setF SEC_LC.STATE lcFIELD with otp := { words := rootWords 14 }, sec := { ready.sec with token := some goodToken, chal := some (List.replicate 32 5), chalAt := some 0 } },
     _, goodToken, by decide +kernel, by decide +kernel, by decide +kernel, rfl⟩,
   ⟨(at_ pwrRUN), by decide +kernel⟩,
   ⟨{ ready.setF SEC_DBG_STATUS.LEVEL 1 with now := 10 ^ 12, sec := { ready.sec with life := 600 } }, by decide +kernel⟩,
   ⟨(at_ pwrRUN), _, by decide +kernel, rfl⟩,
   ⟨(at_ pwrRUN), by decide +kernel⟩⟩

theorem witness_DebugPortComplete :
    (∃ (s : State), (s.tapOn = true)) ∧
    (∃ (s : State), (s.tapOn = true)) ∧
    (∃ (s : State) (t : State) (cs : List Bool), (s.tapOn = true) ∧ (t = { s.setIr 0x02#8 with tap := { s.tap with ir := 0x02#8, cells := cs } })) ∧
    (∃ (s : State), (s.tapOn = true)) ∧
    (∃ (s : State) (t : State) (off : Nat) (d : BitVec 32), (s.tapOn = true) ∧ (secMbxReaches off = true) ∧ (t =
      { s with tap := { s.tap with ir := 0x10#8, dr := BitVec.ofNat 64 (off * 2 ^ 32 + d.toNat) } })) ∧
    (∃ (s : State) (a : BitVec 64) (d : BitVec 64), (s.tapOn = true) ∧ (reachO ≤ s.reach)) ∧
    (∃ (s : State) (op : Nat) (a : BitVec 64) (d : BitVec 64), (s.tapOn = true) ∧ (reachC ≤ s.reach) ∧ (op ≠ dbgRegRead) ∧ ((s.setIr 0x20#8).reach =
      s.reach)) ∧
    (∃ (s : State) (op : Nat) (a : BitVec 64) (d : BitVec 64), (s.tapOn = true) ∧ (s.reach < reachO)) ∧
    (∃ (s : State) (op : Nat) (a : Nat) (d : BitVec 64), (s.tapOn = true) ∧ (reachP ≤ s.reach)) :=
  ⟨⟨(at_ pwrRUN), by decide +kernel⟩,
   ⟨(at_ pwrRUN), by decide +kernel⟩,
   ⟨(at_ pwrRUN), _, [], by decide +kernel, rfl⟩,
   ⟨(at_ pwrRUN), by decide +kernel⟩,
   ⟨ready, _, 0x3200000, 1, by decide +kernel, by decide +kernel, rfl⟩,
   ⟨(at_ pwrRUN), 0, 0, by decide +kernel⟩,
   ⟨ready.setF SEC_LC.STATE lcRETURNED, 1, 0, 0, by decide +kernel⟩,
   ⟨ready.setF SEC_LC.STATE lcSECURED, 0, 0, 0, by decide +kernel⟩,
   ⟨(at_ pwrRUN), 0, 0, 0, by decide +kernel⟩⟩

theorem witness_SafetyComplete :
    (∃ (s : State) (t : State) (r : Report), (firstReport s.waiting = some r) ∧ (s.roundOf 20 mkTake = []) ∧ (t =
      (((({ s with waiting := s.waiting.erase r } : State).mark mkTake 0).event (154 + r.cls)).capture r).enqueue r)) ∧
    (∃ (s : State) (r : Report), (lastReport s.waiting = some r) ∧ (r.stamp.toNat + 1000 ≤ s.now.toNat)) ∧
    (∃ (s : State), (s.poweredDown FLT_CTRL.word = false)) ∧
    (∃ (s : State), (s.poweredDown FLT_Q_POP.word = false) ∧ (((s.roundOf 20 mkTake).filter (· = 1)).length < s.flt.queue.length)) ∧
    (∃ (s : State) (t : State) (u : State), (s.quietOver = true) ∧ (t = (List.range 12).foldl (fun (s : State) st => s.setF (HDG_ST_STATUS.CUT st) 0)
      ((s.setF FLT_STATUS.ACTIVE 0).setF FLT_STATUS.QUIET 0)) ∧ (u = ((t.hdgSync.railSync).resumeChannels.composerResume).loopsResume)) ∧
    (∃ (s : State), (s.power ≠ pwrOFF) ∧ (s.quietSync.b FLT_STATUS.SELF_FAIL = false)) ∧
    (∃ (s : State), (s.poweredDown FLT_HB.word = false)) ∧
    (∃ (s : State), (s.b FLT_HB_CFG.EN = true) ∧ (s.boot.cores = true) ∧ (s.sec.halted = false) ∧ (s.flt.kickAt + s.f FLT_HB_CFG.MS * 1000000 ≤
      s.now.toNat)) ∧
    (∃ (s : State), (s.aliveOk = true)) ∧
    (∃ (s : State) (t : State) (c : Nat), (c < 4) ∧ (s.hdgOn = true) ∧ (bit (s.f HDG_STATUS.IL_OPEN) c = false) ∧ (t = s.setF HDG_STATUS.IL_OPEN (setBit
      (s.f HDG_STATUS.IL_OPEN) c true))) ∧
    (∃ (s : State) (e : Nat), (s.hdgOn = true) ∧ (e < 28)) ∧
    (∃ (s : State) (st : Nat), (s.hdgOn = true) ∧ (s.stationOn st = true) ∧ ((∀ l, (s.hdgSt st).last = some l → s.tachOk st (s.now.toNat - l) = false))) ∧
    (∃ (s : State) (t : State) (st : Nat) (e : Nat), (s.hdgOn = true) ∧ (s.stationOn st = true) ∧ (e < 72) ∧ (t = ((s.setF (HDG_ST_STATUS.CUT st) 1).setF
      (HDG_ST_STATUS.LAST_CAUSE st) 1).setF (HDG_ST_STATUS.EMITTER st) e)) ∧
    (∃ (s : State) (on : List (List Nat)), (s.hdgOn = true)) ∧
    (∃ (s : State) (v : BitVec 32), (s.poweredDown HDG_DUTY.word = false) ∧ (s.inRun = false) ∧ (10 ≤ v.toNat % 65536) ∧ (v.toNat % 65536 ≤ 90) ∧ (v.toNat
      / 65536 = 65535 - v.toNat % 65536) ∧ (s.word HDG_DUTY.word ≠ v)) ∧
    (∃ (s : State) (r : EvrRec), (s.b EVR_STATUS.NOR_FAIL = false) ∧ (s.b EVR_STATUS.CLEARING = false) ∧ ((s.evr.mirror.drop (s.evr.mirror.length -
      s.evr.unwritten)).head? = some r)) ∧
    (∃ (s : State) (q : BitVec 32), (s.poweredDown EVR_RD_SEQ.word = false)) ∧
    (∃ (s : State), (s.poweredDown EVR_CLEAR.word = false) ∧ (s.b EVR_STATUS.CLEARING = false) ∧ ((s.lc = lcBLANK ∨ s.lc = lcRETURNED))) ∧
    (∃ (s : State), (s.b EVR_STATUS.CLEARING = true)) :=
  ⟨⟨{ run with waiting := [{ cls := 2, src := 9, cause := 0x12 }] }, _, { cls := 2, src := 9, cause := 0x12 }, by decide +kernel, by decide +kernel, rfl⟩,
   ⟨{ run with waiting := [{ cls := 2, src := 9, cause := 0x12 }], now := 5000 }, { cls := 2, src := 9, cause := 0x12 }, by decide +kernel⟩,
   ⟨(at_ pwrRUN), by decide +kernel⟩,
   ⟨{ ready with flt := { ready.flt with queue := [{ cls := 2, src := 9, cause := 0x12 }] } }, by decide +kernel⟩,
   ⟨{ ready.setF FLT_STATUS.ACTIVE 3 with now := 10 ^ 12, flt := { ready.flt with quietAt := some 0 } }, _, _, by decide +kernel, rfl, rfl⟩,
   ⟨(at_ pwrRUN), by decide +kernel⟩,
   ⟨(at_ pwrRUN), by decide +kernel⟩,
   ⟨{ run.setF FLT_HB_CFG.EN 1 with now := 10 ^ 12 }, by decide +kernel⟩,
   ⟨(at_ pwrRUN), by decide +kernel⟩,
   ⟨(at_ pwrRUN), _, 0, by decide +kernel, by decide +kernel, by decide +kernel, rfl⟩,
   ⟨(at_ pwrRUN), 0, by decide +kernel⟩,
   ⟨(at_ pwrRUN), 0, by decide +kernel⟩,
   ⟨(at_ pwrRUN), _, 0, 0, by decide +kernel, by decide +kernel, by decide +kernel, rfl⟩,
   ⟨(at_ pwrRUN), [], by decide +kernel⟩,
   ⟨ready, 0xFFCD0032, by decide +kernel⟩,
   ⟨{ run with evr := { run.evr with mirror := [{ seq := 4 }], unwritten := 1 } }, { seq := 4 }, by decide +kernel⟩,
   ⟨(at_ pwrRUN), 0, by decide +kernel⟩,
   ⟨(at_ pwrRUN), by decide +kernel⟩,
   ⟨run.setF EVR_STATUS.CLEARING 1, by decide +kernel⟩⟩

theorem witness_BusyQueueStaysOn :
    ∃ (s : State) (fn : Nat), (s.Canonical) ∧ (s.fnOpen fn = true) ∧ (s.qState fn ≠ qDISABLED) :=
  ⟨run.setF (HIF_Q_STATUS.STATE 0) qRUNNING, 0, ⟨by decide +kernel, by decide +kernel, by decide +kernel, by decide +kernel, by decide +kernel⟩,
    by decide +kernel⟩

theorem witness_BoundPortStaysOn :
    ∃ (s : State) (p : Nat), (p < 4) ∧ (s.poweredDown (LAT_PORT_CTRL.word p) = false) ∧ (s.latBound p = true) :=
  ⟨((run.setF (LPE_LP_STATUS.STATE 0) lpOPEN).setF (LPE_LP_OUT.KIND 0) 2), 0, by decide +kernel⟩

theorem witness_FasterClassRefused :
    ∃ (s : State) (m : Nat) (v : BitVec 32), (s.Canonical) ∧ (v.toNat % 8 < s.variant.fastest) :=
  ⟨{ run with variant := .sx0432 }, 0, 0, ⟨by decide +kernel, by decide +kernel, by decide +kernel, by decide +kernel, by decide +kernel⟩,
    by decide +kernel⟩

theorem witness_RingHeadNeverPassesTail :
    ∃ (s : State) (fn : Nat) (head : Nat), (s.fnOpen fn = true) ∧ (head < 65536) :=
  ⟨(at_ pwrRUN), 0, 0, by decide +kernel⟩

theorem witness_BothReprintFlagsRefused :
    ∃ (s : State) (fn : Nat) (desc : List Byte) (src : Option (List Byte)), (s.reading fn = true) ∧ ((parsePage desc).opcode = 1) ∧ ((parsePage
      desc).checkOk = true) ∧ ((parsePage desc).noSpool = true) ∧ ((parsePage desc).reprintOnSpoil = true) :=
  ⟨run, 0, pageBytes 7 1 0xFF 1 6 1024 256 16, none, by decide +kernel⟩

theorem witness_LatchedSumpWaitsForRelease :
    (∃ (s : State), (s.Canonical) ∧ (s.poweredDown FLT_CTRL.word = false) ∧ (s.b FLT_STATUS.LATCHED = true)) ∧
    (∃ (s : State), (s.poweredDown FLT_CTRL.word = false) ∧ (s.b FLT_STATUS.LATCHED = false)) ∧
    (∃ (s : State), (s.b FLT_STATUS.LATCHED = true)) :=
  ⟨⟨ready.setF FLT_STATUS.LATCHED 1, ⟨by decide +kernel, by decide +kernel, by decide +kernel, by decide +kernel, by decide +kernel⟩, by decide +kernel⟩,
   ⟨(at_ pwrRUN), by decide +kernel⟩,
   ⟨ready.setF FLT_STATUS.LATCHED 1, by decide +kernel⟩⟩

theorem witness_DarkBlocksReadZero :
    (∃ (s : State) (fn : Nat) (off : Nat) (o : Nat) (src : Nat), (s.fnOpen fn = true) ∧ ((if fn = 0 then (some off, srcOf off) else s.vfTarget fn off) =
      (some o, src)) ∧ (off % 4 = 0) ∧ (o < 0x4000000) ∧ ((findReg o).isSome = true) ∧ (s.darkAt o = true)) ∧
    (∃ (s : State) (fn : Nat) (off : Nat) (o : Nat) (src : Nat) (v : BitVec 32), (s.fnOpen fn = true) ∧ (fn < 16) ∧ ((if fn = 0 then (some off, srcOf off)
      else s.vfTarget fn off) = (some o, src)) ∧ (off % 4 = 0) ∧ (o < 0x4000000) ∧ ((findReg o).isSome = true) ∧ (s.darkAt o = true)) :=
  ⟨⟨sleep, 0, 0x100008, 0x100008, 2, by decide +kernel⟩,
   ⟨sleep, 0, 0x100008, 0x100008, 2, 0, by decide +kernel⟩⟩

theorem witness_NamedWordsOnly :
    ∃ (c : Instr) (s : State) (t : State) (l : List Nat), (s.Canonical) ∧ (writtenWords c = some l) ∧ (exec c s = .next t) :=
  ⟨.jtagBypass, run, _, [], ⟨by decide +kernel, by decide +kernel, by decide +kernel, by decide +kernel, by decide +kernel⟩, by decide +kernel, rfl⟩

theorem witness_StoredBytesOnly :
    (∃ (s : State) (t : State) (fail : Nat) (a : Nat), (s.Canonical) ∧ (exec (.auditExportDone fail) s = .next t) ∧ ((a < s.f INS_AUDIT_DST_HI.ADDR * 2 ^
      32 + s.f INS_AUDIT_DST_LO.ADDR * 64 ∨ s.f INS_AUDIT_DST_HI.ADDR * 2 ^ 32 + s.f INS_AUDIT_DST_LO.ADDR * 64 + s.f INS_AUDIT_LIMIT.BYTES ≤ a))) ∧
    (∃ (s : State) (t : State) (addr : BitVec 64) (data : BitVec 64) (a : Nat), (s.Canonical) ∧ (exec (.jtagDbgAccess dbgMemWrite addr data) s = .next t) ∧
      ((a < addr.toNat ∨ addr.toNat + 8 ≤ a))) :=
  ⟨⟨(at_ pwrRUN), _, 0, 0, ⟨by decide +kernel, by decide +kernel, by decide +kernel, by decide +kernel, by decide +kernel⟩, rfl, by decide +kernel⟩,
   ⟨ready, _, 0, 0, 100, ⟨by decide +kernel, by decide +kernel, by decide +kernel, by decide +kernel, by decide +kernel⟩, rfl, by decide +kernel⟩⟩

/-! ## Ill-formed commands: one for each kind of check of `Instr.wellFormed` -/

theorem test_illformed_offset : (Instr.registerWrite 0 0x4000000 5 none).wellFormed = false := by decide
theorem test_illformed_alignment : (Instr.registerWrite 0 0x800002 5 none).wellFormed = false := by decide
theorem test_illformed_function : (Instr.qEnable 16).wellFormed = false := by decide
theorem test_illformed_master : (Instr.unsupportedAccess 16 0 false).wellFormed = false := by decide
theorem test_illformed_clock : (Instr.clockLoss 24).wellFormed = false := by decide
theorem test_illformed_index : (Instr.coeSdoUpload 0x10000 0 false).wellFormed = false := by decide
theorem test_illformed_descriptor : (Instr.pageRelease 0 [1, 2, 3]).wellFormed = false := by decide
theorem test_illformed_config_offset : (Instr.configRequest 0 none 4096).wellFormed = false := by decide
theorem test_illformed_vector : (Instr.msixUnmask 0 2048).wellFormed = false := by decide
theorem test_illformed_width : (Instr.linkUp 3 1 0).wellFormed = false := by decide
theorem test_illformed_speed : (Instr.linkUp 4 6 0).wellFormed = false := by decide
theorem test_illformed_channel : (Instr.chEnable 64).wellFormed = false := by decide
theorem test_illformed_channel_descriptor : (Instr.chDescriptor 0 (some [1])).wellFormed = false := by decide
theorem test_illformed_drive : (Instr.driveFailed 4).wellFormed = false := by decide
theorem test_illformed_slot : (Instr.korJobAbort 8).wellFormed = false := by decide
theorem test_illformed_tile : (Instr.tileLoadResume 0 0x40000).wellFormed = false := by decide
theorem test_illformed_pin_entry : (Instr.pinResident 16).wellFormed = false := by decide
theorem test_illformed_flume : (Instr.flumeStall 16).wellFormed = false := by decide
theorem test_illformed_station : (Instr.bdPulse 12).wellFormed = false := by decide
theorem test_illformed_zone : (Instr.zoneStart 0 32).wellFormed = false := by decide
theorem test_illformed_emitter : (Instr.emitterOntimeExceeded 0 72).wellFormed = false := by decide
theorem test_illformed_pll : (Instr.pllLockLost 16).wellFormed = false := by decide
theorem test_illformed_port : (Instr.linkPoll 12).wellFormed = false := by decide
theorem test_illformed_side : (Instr.calWhite 2).wellFormed = false := by decide
theorem test_illformed_lanes : (Instr.cisLine 0 []).wellFormed = false := by decide
theorem test_illformed_loop : (Instr.loopOpen 64).wellFormed = false := by decide
theorem test_illformed_adc : (Instr.adcScanConversion 32 0).wellFormed = false := by decide
theorem test_illformed_encoder : (Instr.tachEdge 28).wellFormed = false := by decide
theorem test_illformed_axis : (Instr.axEnable 24).wellFormed = false := by decide
theorem test_illformed_dead_times : (Instr.axEnableComplete 0 [1] [1]).wellFormed = false := by decide
theorem test_illformed_phase : (Instr.chopMixEnd 0 2).wellFormed = false := by decide
theorem test_illformed_task : (Instr.taskAck 256 0).wellFormed = false := by decide
theorem test_illformed_timer : (Instr.timerExpire 4).wellFormed = false := by decide
theorem test_illformed_lateral : (Instr.latRescan 4).wellFormed = false := by decide
theorem test_illformed_node : (Instr.latOimgWrite 0 256 0 0).wellFormed = false := by decide
theorem test_illformed_fan : (Instr.fanClear 8).wellFormed = false := by decide
theorem test_illformed_al_state : (Instr.alStateRequest 5 0 true 0 0 0 true).wellFormed = false := by decide
theorem test_illformed_mailbox_type : (Instr.mailboxUnsupported 16).wellFormed = false := by decide
theorem test_illformed_power_state : (Instr.powerStateRequest 8).wellFormed = false := by decide
theorem test_illformed_enable : (Instr.pmicPowerGood 4).wellFormed = false := by decide
theorem test_illformed_rail : (Instr.railPgDrop 32).wellFormed = false := by decide
theorem test_illformed_sequence_word : (Instr.seqProgramWrite 64 0).wellFormed = false := by decide
theorem test_illformed_cover : (Instr.interlockChange 4 true).wellFormed = false := by decide

/-! ## Examples: the spec's worked examples, and steps whose outcome its rules give -/

/-- The standard check value of the CRC of R11. -/
theorem test_crc32c : crc32c [0x31, 0x32, 0x33, 0x34, 0x35, 0x36, 0x37, 0x38, 0x39] = 0xE3069283#32 := by decide +kernel
/-- FIPS 180-4: the digest of "abc". -/
theorem test_sha384 : sha384 [0x61, 0x62, 0x63] =
    beBytes 48 0xCB00753F45A35E8BB5A03D699AC65007272C32AB0EDED1631A8B605A43FF5BED8086072BA1E7CC2358BAECA134C825A7 := by decide +kernel
/-- FIPS 197, section 5.1.1: the S-box takes 0x53 to 0xED. -/
theorem test_aes_sbox : aesS 0x53 = 0xED := by decide +kernel
/-- A signature is good for the bytes it signs and for no others (R650). -/
theorem test_signature :
    signCode (some (sha384 ((goodToken.drop 80).take 96))) goodToken = 0 ∧ signCode (some (sha384 ((goodToken.drop 80).take 96))) (goodToken.set 5 2) = 2 ∧
      signCode none goodToken = 1 := by decide +kernel
/-- Worked example of 00_scope.md: the facet period at class 2 is 338.67 µs. -/
theorem test_facet_period : facetNs 2 = 338666 := by decide
/-- Worked example of 02_pages_and_frames.md: 28,063 lines and a gap of 256 take a pitch of 28,352. -/
theorem test_pitch : up64 (28063 + 256) = 28352 := by decide
/-- Worked example of 04_siphon_dma.md: the tile store of a full SX-1296 with the default regions starts at 0xC_1000_0000. -/
theorem test_tile_store : ({ State.reset with boot := { ring := 4096 } } : State).tileBase = 0xC10000000 := by decide +kernel
/-- Worked example of 05_spool.md: four streams of 105,240,000 bytes make a copy of 6,424 extents. -/
theorem test_copy_extents : copyExtents 64 (List.replicate 4 { len := 105240000 }) = 6424 := by decide +kernel
/-- Worked example of 06_korip_codec.md: rows 0 and 7 of the F4 PLANE block. -/
theorem test_plane_block :
    (decodeBlock false (leNat [0x02, 0x90, 0xC1, 0x80, 0x41, 0xA8, 0xAA, 0xAA, 0xAA, 0xAA, 0xAA, 0xAA, 0xAA, 0x02, 0, 0, 0, 0, 0, 0])).map
      (fun px => let b := rawBlock px; (b.take 8, (b.drop 56).take 8, b.drop 64)) =
    some ([0x63, 0x68, 0x69, 0x6E, 0x6F, 0x74, 0x75, 0x7A], [110, 115, 116, 121, 122, 127, 128, 133], List.replicate 16 0) := by decide +kernel
/-- Worked example of 06_korip_codec.md: the F2 DETAIL block with TMODE 1. -/
theorem test_detail_block :
    (decodeBlock true (leNat ([0x13, 0xC1, 0xC3, 0xC3, 0xC3, 0xC3, 0xC3, 0xC3, 0xC3, 0xF3, 0x1C] ++
      (List.replicate 8 [0xA2, 0xB1, 0x3E]).flatten ++ List.replicate 5 0))).map (fun px => let b := rawBlock px; (b.take 8, (b.drop 56).take 10)) =
    some ([0x44, 0x54, 0x64, 0x74, 0x84, 0x94, 0xA4, 0xB4], [0x44, 0x54, 0x64, 0x74, 0x84, 0x94, 0xA4, 0xB4, 0x00, 0x55]) := by decide +kernel
/-- The L stream of the worked example of 06_korip_codec.md. -/
def lExample : List Byte :=
  [0x4C, 0x4B, 1, 0, 0, 0, 0, 0, 8, 0, 0, 0, 7, 0, 0, 0x40, 2, 0x41, 0x42, 0x43, 0x81, 2, 0, 0, 0, 0, 0, 0, 0, 0, 0x80]
theorem test_l_stream : (decodeL lExample 8).1 = 0 ∧ (decodeL lExample 8).2.1.rout.reverse = [0x41, 0x42, 0x43, 0x41, 0x42, 0x43, 0x41, 0x42] := by decide +kernel
theorem test_l_stream_limit : (decodeL lExample 6).1 = 0x22 ∧ (decodeL lExample 6).2.1.rout.reverse = [0x41, 0x42, 0x43, 0x41, 0x42, 0x43] := by decide +kernel
/-- Worked example of 09_scan_timing.md: SLOPE −16 and BASE 3 give 3 lines at group 0 and none at group 749. -/
theorem test_skew : (run.setWork (SCN_SKEW.word 2) 0x00030FF0).offOf 2 0 = 3 ∧ (run.setWork (SCN_SKEW.word 2) 0x00030FF0).offOf 2 749 = 0 := by decide +kernel
/-- R602: a requested state above RUN is refused. -/
theorem test_power_state_refused : exec (.powerStateRequest 7) ready = .next (ready.raise PWR_STATE.REFUSED) := by rfl
/-- R657 and R716: a failing source of random numbers is reported with class 1. -/
theorem test_trng_fail : (match exec .trngHealthFail run with | .next t => t.waiting.map (fun r => (r.cls, r.src, r.cause)) | _ => []) = [(1, 0x15, 0x17)] := by
  decide +kernel
/-- R716: an undervoltage of VDD_CORE is a fault of class 4. -/
theorem test_core_undervolt : (match exec .vddCoreUndervolt run with | .next t => t.waiting.map (fun r => r.cls) | _ => []) = [4] := by decide +kernel
/-- R530: software event 3 is event 235. -/
theorem test_software_event : (match exec (.swEventRaise 8) run with | .next t => t.trn.events | _ => []) = [235] := by decide +kernel
/-- R54: a page with NO_SPOOL and REPRINT_ON_SPOIL is refused, so the queue takes no page. -/
theorem test_reprint_flags :
    (match exec (.pagePrint 0 (pageBytes 7 1 0xFF 1 6 1024 256 16) none) run with | .next t => t.pages.pages | _ => [pg]) = [] := by decide +kernel
/-- R480: an axis that is disabled does not move. -/
theorem test_disabled_axis : (match exec (.axMoveAbs 3 false) run with | .next t => (t.b (MOT_AX_STATUS.CMD_REFUSED 3), t.axState 3) | _ => (false, 0)) =
    (true, axDISABLED) := by decide +kernel
/-- A command at an index the device has not got changes nothing (assumption log 1). -/
theorem test_absent_fan : exec (.fanClear 8) run = .next run := by rfl

end Sys2Proof.Tests
end

section
/-! PROOFS. Steps and runs (O5, O6) and the reset state (O3): every command answers a next state and keeps the canonical form. -/
namespace Sys2Proof.Machine

/-- Every command answers a next state, and keeps what `Keeps` names: its meaning's two laws, one pair for each command of the table. -/
theorem exec_runs_and_keeps (c : Instr) (s : State) : Runs (exec c s) ∧ KeepsAns s (exec c s) :=
  match c with
  | .registerWrite master off value high => ⟨execRegisterWrite_runs master off value high s, execRegisterWrite_keeps .rfl' master off value high⟩
  | .lowWordRead fn off wide => ⟨execLowWordRead_runs fn off wide s, execLowWordRead_keeps .rfl' fn off wide⟩
  | .reservedAccess master off write => ⟨execReservedAccess_runs master off write s, execReservedAccess_keeps .rfl' master off write⟩
  | .unsupportedAccess master off write => ⟨execUnsupportedAccess_runs master off write s, execUnsupportedAccess_keeps .rfl' master off write⟩
  | .clockLoss domain => ⟨execClockLoss_runs domain s, execClockLoss_keeps .rfl' domain⟩
  | .coeSdoUpload index sub complete => ⟨execCoeSdoUpload_runs index sub complete s, execCoeSdoUpload_keeps .rfl' index sub complete⟩
  | .coeSdoDownload index sub complete data =>
    ⟨execCoeSdoDownload_runs index sub complete data s, execCoeSdoDownload_keeps .rfl' index sub complete data⟩
  | .coeSdoInformation data => ⟨execCoeSdoInformation_runs data s, execCoeSdoInformation_keeps .rfl' data⟩
  | .sdoQueuedStart => ⟨execSdoQueuedStart_runs s, execSdoQueuedStart_keeps .rfl'⟩
  | .clockRelock domain => ⟨execClockRelock_runs domain s, execClockRelock_keeps .rfl' domain⟩
  | .pagePrint fn desc src => ⟨execPagePrint_runs fn desc src s, execPagePrint_keeps .rfl' fn desc src⟩
  | .pageReissue fn desc => ⟨execPageReissue_runs fn desc s, execPageReissue_keeps .rfl' fn desc⟩
  | .pageRelease fn desc => ⟨execPageRelease_runs fn desc s, execPageRelease_keeps .rfl' fn desc⟩
  | .pageCancel fn desc => ⟨execPageCancel_runs fn desc s, execPageCancel_keeps .rfl' fn desc⟩
  | .descriptorInvalid fn desc => ⟨execDescriptorInvalid_runs fn desc s, execDescriptorInvalid_keeps .rfl' fn desc⟩
  | .firstLatch => ⟨execFirstLatch_runs s, execFirstLatch_keeps .rfl'⟩
  | .stationLatch st => ⟨execStationLatch_runs st s, execStationLatch_keeps .rfl' st⟩
  | .pageTof st => ⟨execPageTof_runs st s, execPageTof_keeps .rfl' st⟩
  | .pageLastLine st => ⟨execPageLastLine_runs st s, execPageLastLine_keeps .rfl' st⟩
  | .pageGapOpen st => ⟨execPageGapOpen_runs st s, execPageGapOpen_keeps .rfl' st⟩
  | .feedRequest => ⟨execFeedRequest_runs s, execFeedRequest_keeps .rfl'⟩
  | .sheetEdgeTimeout => ⟨execSheetEdgeTimeout_runs s, execSheetEdgeTimeout_keeps .rfl'⟩
  | .mbxUpload => ⟨execMbxUpload_runs s, execMbxUpload_keeps .rfl'⟩
  | .mbxDownload => ⟨execMbxDownload_runs s, execMbxDownload_keeps .rfl'⟩
  | .mbxUploadComplete => ⟨execMbxUploadComplete_runs s, execMbxUploadComplete_keeps .rfl'⟩
  | .mbxDownloadComplete => ⟨execMbxDownloadComplete_runs s, execMbxDownloadComplete_keeps .rfl'⟩
  | .mbxGetOdList => ⟨execMbxGetOdList_runs s, execMbxGetOdList_keeps .rfl'⟩
  | .mbxGetObjectDesc => ⟨execMbxGetObjectDesc_runs s, execMbxGetObjectDesc_keeps .rfl'⟩
  | .mbxGetEntryDesc => ⟨execMbxGetEntryDesc_runs s, execMbxGetEntryDesc_keeps .rfl'⟩
  | .mbxSegmentTimeout => ⟨execMbxSegmentTimeout_runs s, execMbxSegmentTimeout_keeps .rfl'⟩
  | .sqDoorbell fn tail => ⟨execSqDoorbell_runs fn tail s, execSqDoorbell_keeps .rfl' fn tail⟩
  | .sqServe => ⟨execSqServe_runs s, execSqServe_keeps .rfl'⟩
  | .descriptorReadFailed fn how => ⟨execDescriptorReadFailed_runs fn how s, execDescriptorReadFailed_keeps .rfl' fn how⟩
  | .cqHeadWrite fn head => ⟨execCqHeadWrite_runs fn head s, execCqHeadWrite_keeps .rfl' fn head⟩
  | .backlogDrain fn => ⟨execBacklogDrain_runs fn s, execBacklogDrain_keeps .rfl' fn⟩
  | .cqCoalesceTimeout fn => ⟨execCqCoalesceTimeout_runs fn s, execCqCoalesceTimeout_keeps .rfl' fn⟩
  | .qEnable fn => ⟨execQEnable_runs fn s, execQEnable_keeps .rfl' fn⟩
  | .qDisable fn => ⟨execQDisable_runs fn s, execQDisable_keeps .rfl' fn⟩
  | .qPause fn => ⟨execQPause_runs fn s, execQPause_keeps .rfl' fn⟩
  | .qResume fn => ⟨execQResume_runs fn s, execQResume_keeps .rfl' fn⟩
  | .flrStart fn => ⟨execFlrStart_runs fn s, execFlrStart_keeps .rfl' fn⟩
  | .flrComplete fn => ⟨execFlrComplete_runs fn s, execFlrComplete_keeps .rfl' fn⟩
  | .configRequest fn write off => ⟨execConfigRequest_runs fn write off s, execConfigRequest_keeps .rfl' fn write off⟩
  | .perstAssert => ⟨execPerstAssert_runs s, execPerstAssert_keeps .rfl'⟩
  | .linkDown hotReset => ⟨execLinkDown_runs hotReset s, execLinkDown_keeps .rfl' hotReset⟩
  | .linkUp width speed corrected => ⟨execLinkUp_runs width speed corrected s, execLinkUp_keeps .rfl' width speed corrected⟩
  | .msixUnmask fn vec => ⟨execMsixUnmask_runs fn vec s, execMsixUnmask_keeps .rfl' fn vec⟩
  | .d3hotEntry fn => ⟨execD3hotEntry_runs fn s, execD3hotEntry_keeps .rfl' fn⟩
  | .d0Return fn => ⟨execD0Return_runs fn s, execD0Return_keeps .rfl' fn⟩
  | .perstDeassert => ⟨execPerstDeassert_runs s, execPerstDeassert_keeps .rfl'⟩
  | .chAssignWrite ch value => ⟨execChAssignWrite_runs ch value s, execChAssignWrite_keeps .rfl' ch value⟩
  | .fnWinWrite fn value => ⟨execFnWinWrite_runs fn value s, execFnWinWrite_keeps .rfl' fn value⟩
  | .chEnable ch => ⟨execChEnable_runs ch s, execChEnable_keeps .rfl' ch⟩
  | .chDisable ch => ⟨execChDisable_runs ch s, execChDisable_keeps .rfl' ch⟩
  | .chDoorbell ch tail => ⟨execChDoorbell_runs ch tail s, execChDoorbell_keeps .rfl' ch tail⟩
  | .chAbort ch resume => ⟨execChAbort_runs ch resume s, execChAbort_keeps .rfl' ch resume⟩
  | .chResume ch => ⟨execChResume_runs ch s, execChResume_keeps .rfl' ch⟩
  | .chDescriptorFetch ch => ⟨execChDescriptorFetch_runs ch s, execChDescriptorFetch_keeps .rfl' ch⟩
  | .chDescriptor ch desc => ⟨execChDescriptor_runs ch desc s, execChDescriptor_keeps .rfl' ch desc⟩
  | .sipBurst ch data offs fail => ⟨execSipBurst_runs ch data offs fail s, execSipBurst_keeps .rfl' ch data offs fail⟩
  | .descriptorComplete ch => ⟨execDescriptorComplete_runs ch s, execDescriptorComplete_keeps .rfl' ch⟩
  | .barrierReadComplete ch ok => ⟨execBarrierReadComplete_runs ch ok s, execBarrierReadComplete_keeps .rfl' ch ok⟩
  | .spoolEnable => ⟨execSpoolEnable_runs s, execSpoolEnable_keeps .rfl'⟩
  | .spoolDisable => ⟨execSpoolDisable_runs s, execSpoolDisable_keeps .rfl'⟩
  | .driveReady d fits capacity => ⟨execDriveReady_runs d fits capacity s, execDriveReady_keeps .rfl' d fits capacity⟩
  | .driveReadyTimeout d => ⟨execDriveReadyTimeout_runs d s, execDriveReadyTimeout_keeps .rfl' d⟩
  | .spoolRecoveryDone => ⟨execSpoolRecoveryDone_runs s, execSpoolRecoveryDone_keeps .rfl'⟩
  | .nvmeCommandComplete id result => ⟨execNvmeCommandComplete_runs id result s, execNvmeCommandComplete_keeps .rfl' id result⟩
  | .nvmeCommandTimeout id => ⟨execNvmeCommandTimeout_runs id s, execNvmeCommandTimeout_keeps .rfl' id⟩
  | .driveFailed d => ⟨execDriveFailed_runs d s, execDriveFailed_keeps .rfl' d⟩
  | .epochRollover journalOk burnOk saltOk =>
    ⟨execEpochRollover_runs journalOk burnOk saltOk s, execEpochRollover_keeps .rfl' journalOk burnOk saltOk⟩
  | .sliceQuotaWrite fn direct value => ⟨execSliceQuotaWrite_runs fn direct value s, execSliceQuotaWrite_keeps .rfl' fn direct value⟩
  | .sliceTrim fn count => ⟨execSliceTrim_runs fn count s, execSliceTrim_keeps .rfl' fn count⟩
  | .sliceTrimDone fn => ⟨execSliceTrimDone_runs fn s, execSliceTrimDone_keeps .rfl' fn⟩
  | .sliceEnum fn max => ⟨execSliceEnum_runs fn max s, execSliceEnum_keeps .rfl' fn max⟩
  | .sliceEnumDone fn => ⟨execSliceEnumDone_runs fn s, execSliceEnumDone_keeps .rfl' fn⟩
  | .spoolLinkTrained d up => ⟨execSpoolLinkTrained_runs d up s, execSpoolLinkTrained_keeps .rfl' d up⟩
  | .korJobGo slot flush close => ⟨execKorJobGo_runs slot flush close s, execKorJobGo_keeps .rfl' slot flush close⟩
  | .korJobFlush slot close => ⟨execKorJobFlush_runs slot close s, execKorJobFlush_keeps .rfl' slot close⟩
  | .korJobClose slot => ⟨execKorJobClose_runs slot s, execKorJobClose_keeps .rfl' slot⟩
  | .korJobAbort slot => ⟨execKorJobAbort_runs slot s, execKorJobAbort_keeps .rfl' slot⟩
  | .korJobWaiting slot => ⟨execKorJobWaiting_runs slot s, execKorJobWaiting_keeps .rfl' slot⟩
  | .korJobDone slot ecc => ⟨execKorJobDone_runs slot ecc s, execKorJobDone_keeps .rfl' slot ecc⟩
  | .placementListLanded st => ⟨execPlacementListLanded_runs st s, execPlacementListLanded_keeps .rfl' st⟩
  | .directoryEntryRead st failed tag => ⟨execDirectoryEntryRead_runs st failed tag s, execDirectoryEntryRead_keeps .rfl' st failed tag⟩
  | .tileLoadComplete fn tile => ⟨execTileLoadComplete_runs fn tile s, execTileLoadComplete_keeps .rfl' fn tile⟩
  | .tileLoadResume fn tile => ⟨execTileLoadResume_runs fn tile s, execTileLoadResume_keeps .rfl' fn tile⟩
  | .riskReevaluate => ⟨execRiskReevaluate_runs s, execRiskReevaluate_keeps .rfl'⟩
  | .pinEnable entry value => ⟨execPinEnable_runs entry value s, execPinEnable_keeps .rfl' entry value⟩
  | .pinDisable entry value => ⟨execPinDisable_runs entry value s, execPinDisable_keeps .rfl' entry value⟩
  | .pinResident entry => ⟨execPinResident_runs entry s, execPinResident_keeps .rfl' entry⟩
  | .furrowRelease st => ⟨execFurrowRelease_runs st s, execFurrowRelease_keeps .rfl' st⟩
  | .furrowComplete flume ecc corrected => ⟨execFurrowComplete_runs flume ecc corrected s, execFurrowComplete_keeps .rfl' flume ecc corrected⟩
  | .furrowDataDeadline st => ⟨execFurrowDataDeadline_runs st s, execFurrowDataDeadline_keeps .rfl' st⟩
  | .furrowLate st => ⟨execFurrowLate_runs st s, execFurrowLate_keeps .rfl' st⟩
  | .flumeStall flume => ⟨execFlumeStall_runs flume s, execFlumeStall_keeps .rfl' flume⟩
  | .redoStart => ⟨execRedoStart_runs s, execRedoStart_keeps .rfl'⟩
  | .flumeUnfence flume => ⟨execFlumeUnfence_runs flume s, execFlumeUnfence_keeps .rfl' flume⟩
  | .flumeTestDone flume pass => ⟨execFlumeTestDone_runs flume pass s, execFlumeTestDone_keeps .rfl' flume pass⟩
  | .stationTableWrite master off value => ⟨execStationTableWrite_runs master off value s, execStationTableWrite_keeps .rfl' master off value⟩
  | .tableLogIdleApply st => ⟨execTableLogIdleApply_runs st s, execTableLogIdleApply_keeps .rfl' st⟩
  | .predictorEvaluate => ⟨execPredictorEvaluate_runs s, execPredictorEvaluate_keeps .rfl'⟩
  | .encoderCount n a b => ⟨execEncoderCount_runs n a b s, execEncoderCount_keeps .rfl' n a b⟩
  | .webEncoderLost => ⟨execWebEncoderLost_runs s, execWebEncoderLost_keeps .rfl'⟩
  | .pcEncoderLost st => ⟨execPcEncoderLost_runs st s, execPcEncoderLost_keeps .rfl' st⟩
  | .sweepTrigger st => ⟨execSweepTrigger_runs st s, execSweepTrigger_keeps .rfl' st⟩
  | .bdPulse st => ⟨execBdPulse_runs st s, execBdPulse_keeps .rfl' st⟩
  | .bdMissed st => ⟨execBdMissed_runs st s, execBdMissed_keeps .rfl' st⟩
  | .lockLossTimeout st => ⟨execLockLossTimeout_runs st s, execLockLossTimeout_keeps .rfl' st⟩
  | .facetIdDone st => ⟨execFacetIdDone_runs st s, execFacetIdDone_keeps .rfl' st⟩
  | .scanWindowOpen st => ⟨execScanWindowOpen_runs st s, execScanWindowOpen_keeps .rfl' st⟩
  | .zoneStart st zone => ⟨execZoneStart_runs st zone s, execZoneStart_keeps .rfl' st zone⟩
  | .scanWindowClose st => ⟨execScanWindowClose_runs st s, execScanWindowClose_keeps .rfl' st⟩
  | .classRequest master value => ⟨execClassRequest_runs master value s, execClassRequest_keeps .rfl' master value⟩
  | .classChangeStart => ⟨execClassChangeStart_runs s, execClassChangeStart_keeps .rfl'⟩
  | .classSettled => ⟨execClassSettled_runs s, execClassSettled_keeps .rfl'⟩
  | .classRampTimeout => ⟨execClassRampTimeout_runs s, execClassRampTimeout_keeps .rfl'⟩
  | .pllLockStart pll => ⟨execPllLockStart_runs pll s, execPllLockStart_keeps .rfl' pll⟩
  | .pllLockDeclared pll => ⟨execPllLockDeclared_runs pll s, execPllLockDeclared_keeps .rfl' pll⟩
  | .pllLockLost pll => ⟨execPllLockLost_runs pll s, execPllLockLost_keeps .rfl' pll⟩
  | .pllLockTimeout pll => ⟨execPllLockTimeout_runs pll s, execPllLockTimeout_keeps .rfl' pll⟩
  | .pllRetry pll => ⟨execPllRetry_runs pll s, execPllRetry_keeps .rfl' pll⟩
  | .pllRelock pll => ⟨execPllRelock_runs pll s, execPllRelock_keeps .rfl' pll⟩
  | .blEnable bl => ⟨execBlEnable_runs bl s, execBlEnable_keeps .rfl' bl⟩
  | .blDisable bl => ⟨execBlDisable_runs bl s, execBlDisable_keeps .rfl' bl⟩
  | .blRetrain bl => ⟨execBlRetrain_runs bl s, execBlRetrain_keeps .rfl' bl⟩
  | .blTrainAlign bl => ⟨execBlTrainAlign_runs bl s, execBlTrainAlign_keeps .rfl' bl⟩
  | .blTrainPoll bl => ⟨execBlTrainPoll_runs bl s, execBlTrainPoll_keeps .rfl' bl⟩
  | .blTrainTimeout bl => ⟨execBlTrainTimeout_runs bl s, execBlTrainTimeout_keeps .rfl' bl⟩
  | .linkPoll bl => ⟨execLinkPoll_runs bl s, execLinkPoll_keeps .rfl' bl⟩
  | .sidebandTransaction bl => ⟨execSidebandTransaction_runs bl s, execSidebandTransaction_keeps .rfl' bl⟩
  | .sidebandResponse bl data => ⟨execSidebandResponse_runs bl data s, execSidebandResponse_keeps .rfl' bl data⟩
  | .sidebandTimeout bl => ⟨execSidebandTimeout_runs bl s, execSidebandTimeout_keeps .rfl' bl⟩
  | .sidebandBusyRetry bl => ⟨execSidebandBusyRetry_runs bl s, execSidebandBusyRetry_keeps .rfl' bl⟩
  | .routeWrite st value => ⟨execRouteWrite_runs st value s, execRouteWrite_keeps .rfl' st value⟩
  | .routeExchangeApply => ⟨execRouteExchangeApply_runs s, execRouteExchangeApply_keeps .rfl'⟩
  | .offsetWrite st value => ⟨execOffsetWrite_runs st value s, execOffsetWrite_keeps .rfl' st value⟩
  | .calrefOkChange present err => ⟨execCalrefOkChange_runs present err s, execCalrefOkChange_keeps .rfl' present err⟩
  | .monitorRead st => ⟨execMonitorRead_runs st s, execMonitorRead_keeps .rfl' st⟩
  | .tapCalMeasure st count => ⟨execTapCalMeasure_runs st count s, execTapCalMeasure_keeps .rfl' st count⟩
  | .halfAdvanceWrite master value => ⟨execHalfAdvanceWrite_runs master value s, execHalfAdvanceWrite_keeps .rfl' master value⟩
  | .scanLinkLock side => ⟨execScanLinkLock_runs side s, execScanLinkLock_keeps .rfl' side⟩
  | .scanLinkLockLoss side lanes => ⟨execScanLinkLockLoss_runs side lanes s, execScanLinkLockLoss_keeps .rfl' side lanes⟩
  | .cisLine side lanes => ⟨execCisLine_runs side lanes s, execCisLine_keeps .rfl' side lanes⟩
  | .inspectionResultComplete side => ⟨execInspectionResultComplete_runs side s, execInspectionResultComplete_keeps .rfl' side⟩
  | .insAck side seq => ⟨execInsAck_runs side seq s, execInsAck_keeps .rfl' side seq⟩
  | .calWhite side => ⟨execCalWhite_runs side s, execCalWhite_keeps .rfl' side⟩
  | .calChart side => ⟨execCalChart_runs side s, execCalChart_keeps .rfl' side⟩
  | .calCaptureDone side => ⟨execCalCaptureDone_runs side s, execCalCaptureDone_keeps .rfl' side⟩
  | .auditExport => ⟨execAuditExport_runs s, execAuditExport_keeps .rfl'⟩
  | .auditExportDone fail => ⟨execAuditExportDone_runs fail s, execAuditExportDone_keeps .rfl' fail⟩
  | .loopOff lp => ⟨execLoopOff_runs lp s, execLoopOff_keeps .rfl' lp⟩
  | .loopOpen lp => ⟨execLoopOpen_runs lp s, execLoopOpen_keeps .rfl' lp⟩
  | .loopClose lp => ⟨execLoopClose_runs lp s, execLoopClose_keeps .rfl' lp⟩
  | .loopSample lp code ecc => ⟨execLoopSample_runs lp code ecc s, execLoopSample_keeps .rfl' lp code ecc⟩
  | .loopOutput lp late => ⟨execLoopOutput_runs lp late s, execLoopOutput_keeps .rfl' lp late⟩
  | .adcScanConversion ch code => ⟨execAdcScanConversion_runs ch code s, execAdcScanConversion_keeps .rfl' ch code⟩
  | .pwmCarrierPeriod c => ⟨execPwmCarrierPeriod_runs c s, execPwmCarrierPeriod_keeps .rfl' c⟩
  | .polySearchShift st => ⟨execPolySearchShift_runs st s, execPolySearchShift_keeps .rfl' st⟩
  | .axEnable ax => ⟨execAxEnable_runs ax s, execAxEnable_keeps .rfl' ax⟩
  | .axEnableComplete ax ta tb => ⟨execAxEnableComplete_runs ax ta tb s, execAxEnableComplete_keeps .rfl' ax ta tb⟩
  | .axDisable ax => ⟨execAxDisable_runs ax s, execAxDisable_keeps .rfl' ax⟩
  | .axMoveAbs ax arm => ⟨execAxMoveAbs_runs ax arm s, execAxMoveAbs_keeps .rfl' ax arm⟩
  | .axMoveRel ax arm => ⟨execAxMoveRel_runs ax arm s, execAxMoveRel_keeps .rfl' ax arm⟩
  | .axJogPos ax arm => ⟨execAxJogPos_runs ax arm s, execAxJogPos_keeps .rfl' ax arm⟩
  | .axJogNeg ax arm => ⟨execAxJogNeg_runs ax arm s, execAxJogNeg_keeps .rfl' ax arm⟩
  | .axStop ax => ⟨execAxStop_runs ax s, execAxStop_keeps .rfl' ax⟩
  | .axQstop ax => ⟨execAxQstop_runs ax s, execAxQstop_keeps .rfl' ax⟩
  | .axResume ax arm => ⟨execAxResume_runs ax arm s, execAxResume_keeps .rfl' ax arm⟩
  | .axSetpos ax => ⟨execAxSetpos_runs ax s, execAxSetpos_keeps .rfl' ax⟩
  | .axClear ax => ⟨execAxClear_runs ax s, execAxClear_keeps .rfl' ax⟩
  | .axStepEvent ax => ⟨execAxStepEvent_runs ax s, execAxStepEvent_keeps .rfl' ax⟩
  | .axDeviationCheck ax => ⟨execAxDeviationCheck_runs ax s, execAxDeviationCheck_keeps .rfl' ax⟩
  | .axSettleCheck ax => ⟨execAxSettleCheck_runs ax s, execAxSettleCheck_keeps .rfl' ax⟩
  | .axHoldTimeout ax => ⟨execAxHoldTimeout_runs ax s, execAxHoldTimeout_keeps .rfl' ax⟩
  | .chopThresholdCross ax phase => ⟨execChopThresholdCross_runs ax phase s, execChopThresholdCross_keeps .rfl' ax phase⟩
  | .chopMixEnd ax phase => ⟨execChopMixEnd_runs ax phase s, execChopMixEnd_keeps .rfl' ax phase⟩
  | .chopMaxOnTimeout ax phase => ⟨execChopMaxOnTimeout_runs ax phase s, execChopMaxOnTimeout_keeps .rfl' ax phase⟩
  | .chopBlankingEnd ax phase atLevel => ⟨execChopBlankingEnd_runs ax phase atLevel s, execChopBlankingEnd_keeps .rfl' ax phase atLevel⟩
  | .turnoutRound => ⟨execTurnoutRound_runs s, execTurnoutRound_keeps .rfl'⟩
  | .taskAxGo ax => ⟨execTaskAxGo_runs ax s, execTaskAxGo_keeps .rfl' ax⟩
  | .taskAxStop ax => ⟨execTaskAxStop_runs ax s, execTaskAxStop_keeps .rfl' ax⟩
  | .taskAxQstop ax => ⟨execTaskAxQstop_runs ax s, execTaskAxQstop_keeps .rfl' ax⟩
  | .taskAxCapture ax => ⟨execTaskAxCapture_runs ax s, execTaskAxCapture_keeps .rfl' ax⟩
  | .taskLoopIndex lp => ⟨execTaskLoopIndex_runs lp s, execTaskLoopIndex_keeps .rfl' lp⟩
  | .taskEncCapture n => ⟨execTaskEncCapture_runs n s, execTaskEncCapture_keeps .rfl' n⟩
  | .taskTimerStart => ⟨execTaskTimerStart_runs s, execTaskTimerStart_keeps .rfl'⟩
  | .taskLatPulse n => ⟨execTaskLatPulse_runs n s, execTaskLatPulse_keeps .rfl' n⟩
  | .taskTofCapture => ⟨execTaskTofCapture_runs s, execTaskTofCapture_keeps .rfl'⟩
  | .taskSwSignal n => ⟨execTaskSwSignal_runs n s, execTaskSwSignal_keeps .rfl' n⟩
  | .taskAck tk n => ⟨execTaskAck_runs tk n s, execTaskAck_keeps .rfl' tk n⟩
  | .taskConfigWrite tk source value => ⟨execTaskConfigWrite_runs tk source value s, execTaskConfigWrite_keeps .rfl' tk source value⟩
  | .swEventRaise bits => ⟨execSwEventRaise_runs bits s, execSwEventRaise_keeps .rfl' bits⟩
  | .timerExpire n => ⟨execTimerExpire_runs n s, execTimerExpire_keeps .rfl' n⟩
  | .webCompareArm n value => ⟨execWebCompareArm_runs n value s, execWebCompareArm_keeps .rfl' n value⟩
  | .webCompareFire n => ⟨execWebCompareFire_runs n s, execWebCompareFire_keeps .rfl' n⟩
  | .latPortEnable p => ⟨execLatPortEnable_runs p s, execLatPortEnable_keeps .rfl' p⟩
  | .latPortDisable p => ⟨execLatPortDisable_runs p s, execLatPortDisable_keeps .rfl' p⟩
  | .latRescan p => ⟨execLatRescan_runs p s, execLatRescan_keeps .rfl' p⟩
  | .latEnumSend p => ⟨execLatEnumSend_runs p s, execLatEnumSend_keeps .rfl' p⟩
  | .latEnumReturn p frame => ⟨execLatEnumReturn_runs p frame s, execLatEnumReturn_keeps .rfl' p frame⟩
  | .latCycleStart p => ⟨execLatCycleStart_runs p s, execLatCycleStart_keeps .rfl' p⟩
  | .latCyclicReturn p frame => ⟨execLatCyclicReturn_runs p frame s, execLatCyclicReturn_keeps .rfl' p frame⟩
  | .latOimgWrite p node w value => ⟨execLatOimgWrite_runs p node w value s, execLatOimgWrite_keeps .rfl' p node w value⟩
  | .latMbxRead p => ⟨execLatMbxRead_runs p s, execLatMbxRead_keeps .rfl' p⟩
  | .latMbxWrite p => ⟨execLatMbxWrite_runs p s, execLatMbxWrite_keeps .rfl' p⟩
  | .latMbxReturn p frame => ⟨execLatMbxReturn_runs p frame s, execLatMbxReturn_keeps .rfl' p frame⟩
  | .latMbxTimeout p => ⟨execLatMbxTimeout_runs p s, execLatMbxTimeout_keeps .rfl' p⟩
  | .latJoinSend p => ⟨execLatJoinSend_runs p s, execLatJoinSend_keeps .rfl' p⟩
  | .latJoinReturn p frame => ⟨execLatJoinReturn_runs p frame s, execLatJoinReturn_keeps .rfl' p frame⟩
  | .fanDutyWrite fc duty => ⟨execFanDutyWrite_runs fc duty s, execFanDutyWrite_keeps .rfl' fc duty⟩
  | .fanKickEnd fc rpm => ⟨execFanKickEnd_runs fc rpm s, execFanKickEnd_keeps .rfl' fc rpm⟩
  | .fanRetry fc => ⟨execFanRetry_runs fc s, execFanRetry_keeps .rfl' fc⟩
  | .fanMeasure fc rpm => ⟨execFanMeasure_runs fc rpm s, execFanMeasure_keeps .rfl' fc rpm⟩
  | .fanTachLost fc => ⟨execFanTachLost_runs fc s, execFanTachLost_keeps .rfl' fc⟩
  | .fanTachRecover fc => ⟨execFanTachRecover_runs fc s, execFanTachRecover_keeps .rfl' fc⟩
  | .fanClear fc => ⟨execFanClear_runs fc s, execFanClear_keeps .rfl' fc⟩
  | .xcalStart => ⟨execXcalStart_runs s, execXcalStart_keeps .rfl'⟩
  | .xcalAbort => ⟨execXcalAbort_runs s, execXcalAbort_keeps .rfl'⟩
  | .xcalCollect => ⟨execXcalCollect_runs s, execXcalCollect_keeps .rfl'⟩
  | .xcalStepTimeout => ⟨execXcalStepTimeout_runs s, execXcalStepTimeout_keeps .rfl'⟩
  | .xcalTargetTimeout => ⟨execXcalTargetTimeout_runs s, execXcalTargetTimeout_keeps .rfl'⟩
  | .xcalStartMsg east msg => ⟨execXcalStartMsg_runs east msg s, execXcalStartMsg_keeps .rfl' east msg⟩
  | .xcalFeatures east msg => ⟨execXcalFeatures_runs east msg s, execXcalFeatures_keeps .rfl' east msg⟩
  | .xcalTargets east msg => ⟨execXcalTargets_runs east msg s, execXcalTargets_keeps .rfl' east msg⟩
  | .xcalReply east msg => ⟨execXcalReply_runs east msg s, execXcalReply_keeps .rfl' east msg⟩
  | .xcalCommit east msg => ⟨execXcalCommit_runs east msg s, execXcalCommit_keeps .rfl' east msg⟩
  | .xcalAbandon east msg => ⟨execXcalAbandon_runs east msg s, execXcalAbandon_keeps .rfl' east msg⟩
  | .culEnable on => ⟨execCulEnable_runs on s, execCulEnable_keeps .rfl' on⟩
  | .culRestart => ⟨execCulRestart_runs s, execCulRestart_keeps .rfl'⟩
  | .culUnfold => ⟨execCulUnfold_runs s, execCulUnfold_keeps .rfl'⟩
  | .culPortUp east => ⟨execCulPortUp_runs east s, execCulPortUp_keeps .rfl' east⟩
  | .culPortDown east lanes => ⟨execCulPortDown_runs east lanes s, execCulPortDown_keeps .rfl' east lanes⟩
  | .culFoldReceived east => ⟨execCulFoldReceived_runs east s, execCulFoldReceived_keeps .rfl' east⟩
  | .culIndexSend => ⟨execCulIndexSend_runs s, execCulIndexSend_keeps .rfl'⟩
  | .culIndex east msg => ⟨execCulIndex_runs east msg s, execCulIndex_keeps .rfl' east msg⟩
  | .culDelayReq east turn msg => ⟨execCulDelayReq_runs east turn msg s, execCulDelayReq_keeps .rfl' east turn msg⟩
  | .culDelayRsp east msg => ⟨execCulDelayRsp_runs east msg s, execCulDelayRsp_keeps .rfl' east msg⟩
  | .culTimebaseSend => ⟨execCulTimebaseSend_runs s, execCulTimebaseSend_keeps .rfl'⟩
  | .culTimebase east wait msg => ⟨execCulTimebase_runs east wait msg s, execCulTimebase_keeps .rfl' east wait msg⟩
  | .culTimebaseLost => ⟨execCulTimebaseLost_runs s, execCulTimebaseLost_keeps .rfl'⟩
  | .culStatusSend => ⟨execCulStatusSend_runs s, execCulStatusSend_keeps .rfl'⟩
  | .culStatus east msg => ⟨execCulStatus_runs east msg s, execCulStatus_keeps .rfl' east msg⟩
  | .culFault east msg => ⟨execCulFault_runs east msg s, execCulFault_keeps .rfl' east msg⟩
  | .culPartCommit east msg => ⟨execCulPartCommit_runs east msg s, execCulPartCommit_keeps .rfl' east msg⟩
  | .culPartTake => ⟨execCulPartTake_runs s, execCulPartTake_keeps .rfl'⟩
  | .culPartResend pageId => ⟨execCulPartResend_runs pageId s, execCulPartResend_keeps .rfl' pageId⟩
  | .culSchedule east msg => ⟨execCulSchedule_runs east msg s, execCulSchedule_keeps .rfl' east msg⟩
  | .culPageSpoil east msg => ⟨execCulPageSpoil_runs east msg s, execCulPageSpoil_keeps .rfl' east msg⟩
  | .culOdReq east msg => ⟨execCulOdReq_runs east msg s, execCulOdReq_keeps .rfl' east msg⟩
  | .culOdRsp east msg => ⟨execCulOdRsp_runs east msg s, execCulOdRsp_keeps .rfl' east msg⟩
  | .culTunnelTimeout => ⟨execCulTunnelTimeout_runs s, execCulTunnelTimeout_keeps .rfl'⟩
  | .culFoldNotice east msg => ⟨execCulFoldNotice_runs east msg s, execCulFoldNotice_keeps .rfl' east msg⟩
  | .culUnfoldCheck => ⟨execCulUnfoldCheck_runs s, execCulUnfoldCheck_keeps .rfl'⟩
  | .culUnfoldMsg east msg => ⟨execCulUnfoldMsg_runs east msg s, execCulUnfoldMsg_keeps .rfl' east msg⟩
  | .culUnwrap => ⟨execCulUnwrap_runs s, execCulUnwrap_keeps .rfl'⟩
  | .culMessageForward east good msg => ⟨execCulMessageForward_runs east good msg s, execCulMessageForward_keeps .rfl' east good msg⟩
  | .alStateRequest target station mbxOk sm2 sm3 sync0 siiOk =>
    ⟨execAlStateRequest_runs target station mbxOk sm2 sm3 sync0 siiOk s, execAlStateRequest_keeps .rfl' target station mbxOk sm2 sm3 sync0 siiOk⟩
  | .sm2Watchdog => ⟨execSm2Watchdog_runs s, execSm2Watchdog_keeps .rfl'⟩
  | .rxpdoApply data => ⟨execRxpdoApply_runs data s, execRxpdoApply_keeps .rfl' data⟩
  | .sync0Edge dcTime fresh => ⟨execSync0Edge_runs dcTime fresh s, execSync0Edge_keeps .rfl' dcTime fresh⟩
  | .sm3ReadComplete => ⟨execSm3ReadComplete_runs s, execSm3ReadComplete_keeps .rfl'⟩
  | .dcOffsetMeasure dcTime => ⟨execDcOffsetMeasure_runs dcTime s, execDcOffsetMeasure_keeps .rfl' dcTime⟩
  | .foeWrite name password packet data last =>
    ⟨execFoeWrite_runs name password packet data last s, execFoeWrite_keeps .rfl' name password packet data last⟩
  | .foeRead name => ⟨execFoeRead_runs name s, execFoeRead_keeps .rfl' name⟩
  | .mailboxUnsupported protocol => ⟨execMailboxUnsupported_runs protocol s, execMailboxUnsupported_keeps .rfl' protocol⟩
  | .ectLinkChange port up => ⟨execEctLinkChange_runs port up s, execEctLinkChange_keeps .rfl' port up⟩
  | .storeParameters => ⟨execStoreParameters_runs s, execStoreParameters_keeps .rfl'⟩
  | .restoreDefaults => ⟨execRestoreDefaults_runs s, execRestoreDefaults_keeps .rfl'⟩
  | .calSetWrite payload => ⟨execCalSetWrite_runs payload s, execCalSetWrite_keeps .rfl' payload⟩
  | .calStoreComplete ok => ⟨execCalStoreComplete_runs ok s, execCalStoreComplete_keeps .rfl' ok⟩
  | .powerStateRequest value => ⟨execPowerStateRequest_runs value s, execPowerStateRequest_keeps .rfl' value⟩
  | .powerStepReadyToRun => ⟨execPowerStepReadyToRun_runs s, execPowerStepReadyToRun_keeps .rfl'⟩
  | .powerStepRunToReady => ⟨execPowerStepRunToReady_runs s, execPowerStepRunToReady_keeps .rfl'⟩
  | .powerStepReadyToStandby => ⟨execPowerStepReadyToStandby_runs s, execPowerStepReadyToStandby_keeps .rfl'⟩
  | .powerStepStandbyToReady => ⟨execPowerStepStandbyToReady_runs s, execPowerStepStandbyToReady_keeps .rfl'⟩
  | .powerStepStandbyToSleep => ⟨execPowerStepStandbyToSleep_runs s, execPowerStepStandbyToSleep_keeps .rfl'⟩
  | .powerStepSleepToStandby => ⟨execPowerStepSleepToStandby_runs s, execPowerStepSleepToStandby_keeps .rfl'⟩
  | .powerStepSleepToHibernate => ⟨execPowerStepSleepToHibernate_runs s, execPowerStepSleepToHibernate_keeps .rfl'⟩
  | .powerStepHibernateToOff => ⟨execPowerStepHibernateToOff_runs s, execPowerStepHibernateToOff_keeps .rfl'⟩
  | .wakeNFall => ⟨execWakeNFall_runs s, execWakeNFall_keeps .rfl'⟩
  | .dcWakeTimer => ⟨execDcWakeTimer_runs s, execDcWakeTimer_keeps .rfl'⟩
  | .powerOnReset strap testMode siiOk => ⟨execPowerOnReset_runs strap testMode siiOk s, execPowerOnReset_keeps .rfl' strap testMode siiOk⟩
  | .pmicPowerGood enable => ⟨execPmicPowerGood_runs enable s, execPmicPowerGood_keeps .rfl' enable⟩
  | .pmicEnableTimeout enable => ⟨execPmicEnableTimeout_runs enable s, execPmicEnableTimeout_keeps .rfl' enable⟩
  | .pmicRetry => ⟨execPmicRetry_runs s, execPmicRetry_keeps .rfl'⟩
  | .vddAonLow => ⟨execVddAonLow_runs s, execVddAonLow_keeps .rfl'⟩
  | .pmbusPoll ok fault => ⟨execPmbusPoll_runs ok fault s, execPmbusPoll_keeps .rfl' ok fault⟩
  | .paceEvaluate slack vread => ⟨execPaceEvaluate_runs slack vread s, execPaceEvaluate_keeps .rfl' slack vread⟩
  | .vddCoreUndervolt => ⟨execVddCoreUndervolt_runs s, execVddCoreUndervolt_keeps .rfl'⟩
  | .railMonitorReading codes => ⟨execRailMonitorReading_runs codes s, execRailMonitorReading_keeps .rfl' codes⟩
  | .railPgDrop k => ⟨execRailPgDrop_runs k s, execRailPgDrop_keeps .rfl' k⟩
  | .railPgRise k => ⟨execRailPgRise_runs k s, execRailPgRise_keeps .rfl' k⟩
  | .railBlankEnd k => ⟨execRailBlankEnd_runs k s, execRailBlankEnd_keeps .rfl' k⟩
  | .seqProgramWrite n value => ⟨execSeqProgramWrite_runs n value s, execSeqProgramWrite_keeps .rfl' n value⟩
  | .seqEnd => ⟨execSeqEnd_runs s, execSeqEnd_keeps .rfl'⟩
  | .seqEnable => ⟨execSeqEnable_runs s, execSeqEnable_keeps .rfl'⟩
  | .seqDisable => ⟨execSeqDisable_runs s, execSeqDisable_keeps .rfl'⟩
  | .seqWait => ⟨execSeqWait_runs s, execSeqWait_keeps .rfl'⟩
  | .seqWaitpg expired => ⟨execSeqWaitpg_runs expired s, execSeqWaitpg_keeps .rfl' expired⟩
  | .seqCheck => ⟨execSeqCheck_runs s, execSeqCheck_keeps .rfl'⟩
  | .seqJump => ⟨execSeqJump_runs s, execSeqJump_keeps .rfl'⟩
  | .seqJumpif => ⟨execSeqJumpif_runs s, execSeqJumpif_keeps .rfl'⟩
  | .seqLimitTimeout => ⟨execSeqLimitTimeout_runs s, execSeqLimitTimeout_keeps .rfl'⟩
  | .thermalSensorRound temps => ⟨execThermalSensorRound_runs temps s, execThermalSensorRound_keeps .rfl' temps⟩
  | .weirGraceExpiry => ⟨execWeirGraceExpiry_runs s, execWeirGraceExpiry_keeps .rfl'⟩
  | .thermalRestart => ⟨execThermalRestart_runs s, execThermalRestart_keeps .rfl'⟩
  | .sysResetAssert => ⟨execSysResetAssert_runs s, execSysResetAssert_keeps .rfl'⟩
  | .sysResetRelease => ⟨execSysResetRelease_runs s, execSysResetRelease_keeps .rfl'⟩
  | .dramTrained ok channel installed => ⟨execDramTrained_runs ok channel installed s, execDramTrained_keeps .rfl' ok channel installed⟩
  | .firmwareVerified dir hdrA payA hdrB payB journalOk burnOk =>
    ⟨execFirmwareVerified_runs dir hdrA payA hdrB payB journalOk burnOk s, execFirmwareVerified_keeps .rfl' dir hdrA payA hdrB payB journalOk burnOk⟩
  | .otpReadS addr => ⟨execOtpReadS_runs addr s, execOtpReadS_keeps .rfl' addr⟩
  | .otpWriteS addr => ⟨execOtpWriteS_runs addr s, execOtpWriteS_keeps .rfl' addr⟩
  | .otpSetP addr => ⟨execOtpSetP_runs addr s, execOtpSetP_keeps .rfl' addr⟩
  | .otpOperationDone bad err => ⟨execOtpOperationDone_runs bad err s, execOtpOperationDone_keeps .rfl' bad err⟩
  | .lcRequestSecured key => ⟨execLcRequestSecured_runs key s, execLcRequestSecured_keeps .rfl' key⟩
  | .lcRequestReturned key => ⟨execLcRequestReturned_runs key s, execLcRequestReturned_keeps .rfl' key⟩
  | .lcTransitionDone bad => ⟨execLcTransitionDone_runs bad s, execLcTransitionDone_keeps .rfl' bad⟩
  | .svnCommit => ⟨execSvnCommit_runs s, execSvnCommit_keeps .rfl'⟩
  | .tokenRevoke count => ⟨execTokenRevoke_runs count s, execTokenRevoke_keeps .rfl' count⟩
  | .challengeRead => ⟨execChallengeRead_runs s, execChallengeRead_keeps .rfl'⟩
  | .tokenSubmit token => ⟨execTokenSubmit_runs token s, execTokenSubmit_keeps .rfl' token⟩
  | .tokenCheckDone => ⟨execTokenCheckDone_runs s, execTokenCheckDone_keeps .rfl'⟩
  | .sessionClose => ⟨execSessionClose_runs s, execSessionClose_keeps .rfl'⟩
  | .sessionExpired => ⟨execSessionExpired_runs s, execSessionExpired_keeps .rfl'⟩
  | .trngHealthFail => ⟨execTrngHealthFail_runs s, execTrngHealthFail_keeps .rfl'⟩
  | .trngRecover => ⟨execTrngRecover_runs s, execTrngRecover_keeps .rfl'⟩
  | .jtagBypass => ⟨execJtagBypass_runs s, execJtagBypass_keeps .rfl'⟩
  | .jtagIdcode => ⟨execJtagIdcode_runs s, execJtagIdcode_keeps .rfl'⟩
  | .jtagSamplePreload cells => ⟨execJtagSamplePreload_runs cells s, execJtagSamplePreload_keeps .rfl' cells⟩
  | .jtagExtest => ⟨execJtagExtest_runs s, execJtagExtest_keeps .rfl'⟩
  | .jtagClamp => ⟨execJtagClamp_runs s, execJtagClamp_keeps .rfl'⟩
  | .jtagHighz => ⟨execJtagHighz_runs s, execJtagHighz_keeps .rfl'⟩
  | .jtagSecMbx write off data => ⟨execJtagSecMbx_runs write off data s, execJtagSecMbx_keeps .rfl' write off data⟩
  | .jtagDbgAccess op addr data => ⟨execJtagDbgAccess_runs op addr data s, execJtagDbgAccess_keeps .rfl' op addr data⟩
  | .jtagOtpAccess op addr data => ⟨execJtagOtpAccess_runs op addr data s, execJtagOtpAccess_keeps .rfl' op addr data⟩
  | .sumpReport => ⟨execSumpReport_runs s, execSumpReport_keeps .rfl'⟩
  | .sumpReportLost => ⟨execSumpReportLost_runs s, execSumpReportLost_keeps .rfl'⟩
  | .sumpRearm => ⟨execSumpRearm_runs s, execSumpRearm_keeps .rfl'⟩
  | .sumpPop => ⟨execSumpPop_runs s, execSumpPop_keeps .rfl'⟩
  | .sumpRelease => ⟨execSumpRelease_runs s, execSumpRelease_keeps .rfl'⟩
  | .sumpRecovery => ⟨execSumpRecovery_runs s, execSumpRecovery_keeps .rfl'⟩
  | .selfCheckCompare flt hdg => ⟨execSelfCheckCompare_runs flt hdg s, execSelfCheckCompare_keeps .rfl' flt hdg⟩
  | .heartbeatKick => ⟨execHeartbeatKick_runs s, execHeartbeatKick_keeps .rfl'⟩
  | .heartbeatTimeout => ⟨execHeartbeatTimeout_runs s, execHeartbeatTimeout_keeps .rfl'⟩
  | .aliveToggle => ⟨execAliveToggle_runs s, execAliveToggle_keeps .rfl'⟩
  | .interlockChange cover isOpen => ⟨execInterlockChange_runs cover isOpen s, execInterlockChange_keeps .rfl' cover isOpen⟩
  | .tachEdge enc => ⟨execTachEdge_runs enc s, execTachEdge_keeps .rfl' enc⟩
  | .speedGateTimeout st => ⟨execSpeedGateTimeout_runs st s, execSpeedGateTimeout_keeps .rfl' st⟩
  | .emitterOntimeExceeded st emitter => ⟨execEmitterOntimeExceeded_runs st emitter s, execEmitterOntimeExceeded_keeps .rfl' st emitter⟩
  | .dutyEvaluate onTimes => ⟨execDutyEvaluate_runs onTimes s, execDutyEvaluate_keeps .rfl' onTimes⟩
  | .hdgLimitWrite off value => ⟨execHdgLimitWrite_runs off value s, execHdgLimitWrite_keeps .rfl' off value⟩
  | .recordFlashWrite ok => ⟨execRecordFlashWrite_runs ok s, execRecordFlashWrite_keeps .rfl' ok⟩
  | .recordRead seq => ⟨execRecordRead_runs seq s, execRecordRead_keeps .rfl' seq⟩
  | .recordClear value => ⟨execRecordClear_runs value s, execRecordClear_keeps .rfl' value⟩
  | .recordClearDone => ⟨execRecordClearDone_runs s, execRecordClearDone_keeps .rfl'⟩

theorem exec_runs (c : Instr) (s : State) : Runs (exec c s) := (exec_runs_and_keeps c s).1

theorem exec_keeps (c : Instr) (s : State) : KeepsAns s (exec c s) := (exec_runs_and_keeps c s).2

theorem step_of_pending_nil {s : State} (h : s.pending = []) : step s = .next s.tick := by simp only [step, h]

theorem step_of_pending_cons {s : State} {c : Instr} {rest : List Instr} (h : s.pending = c :: rest) :
    step s = exec c { s with pending := rest } := by simp only [step, h]

/-- The queue is no part of the canonical form. -/
theorem State.Canonical.withPending {s : State} (h : s.Canonical) (l : List Instr) : ({ s with pending := l } : State).Canonical :=
  ⟨h.regs, h.work, h.dram, h.tile, h.spool⟩

theorem step_runs (s : State) : Runs (step s) := by
  cases hp : s.pending with
  | nil => exact ⟨_, step_of_pending_nil hp⟩
  | cons c rest =>
    rw [step_of_pending_cons hp]
    exact exec_runs c _

theorem step_canonical {s t : State} (h : s.Canonical) (ht : step s = .next t) : t.Canonical := by
  cases hp : s.pending with
  | nil =>
    rw [step_of_pending_nil hp] at ht
    cases ht
    exact (State.tick_keeps .rfl').canonical h
  | cons c rest =>
    rw [step_of_pending_cons hp] at ht
    exact (exec_keeps c _ t ht).canonical (h.withPending rest)

/-- Settles O5: an idle step and each command's meaning keep the canonical form. -/
theorem stepsKeepCanonical : Obligations.StepsKeepCanonical := fun _ _ h ht => step_canonical h ht

/-- Settles O6, by induction on the length of the run: a step answers a next state, which is canonical again. -/
theorem runsAreSafe : Obligations.RunsAreSafe := by
  intro n
  induction n with
  | zero => exact fun _ h => h
  | succ n ih =>
    intro s h
    obtain ⟨t, ht⟩ := step_runs s
    exact ⟨h, t, ht, ih t (step_canonical h ht)⟩

/-- The reset state lists no register and no byte of memory. -/
theorem State.reset_canonical : State.reset.Canonical :=
  ⟨Store.wf_nil _, Store.wf_nil _, Store.wf_nil _, Store.wf_nil _, Store.wf_nil _⟩

/-- Settles O3: every store of the reset state is empty, so every register and byte reads as an unlisted one. -/
theorem resetState : Obligations.ResetState :=
  ⟨State.reset_canonical, rfl, rfl, rfl, fun _ => rfl, fun _ => rfl⟩

end Sys2Proof.Machine
end

section
/-! PROOFS. Accesses of BAR0 (O12): what a read answers, and what a write does in a round that has seen nothing else. -/
namespace Sys2Proof.Machine

/-! ## Reads (R15) -/

theorem exec_lowWordRead_narrow {s : State} {fn off : Nat} (ho : s.fnOpen fn = true) (ha : off % 4 = 0) :
    exec (.lowWordRead fn off false) s = .next ((s.readAt fn off).2.emit (.completion 0 (s.readAt fn off).1)) := by
  show execLowWordRead fn off false s = _
  simp [execLowWordRead, ho, ha]

theorem exec_lowWordRead_wide {s t : State} {fn off : Nat} (ho : s.fnOpen fn = true) (ha : off % 8 = 0)
    (ht : (s.readAt fn off).2.emit (.completion 0 (s.readAt fn off).1) = t) :
    exec (.lowWordRead fn off true) s = .next ((t.readAt fn (off + 4)).2.emit (.completion 0 (t.readAt fn (off + 4)).1)) := by
  subst ht
  show execLowWordRead fn off true s = _
  simp [execLowWordRead, ho, ha]

theorem State.readAt_lowWord {s : State} {fn off o src : Nat} (ht : (if fn = 0 then (some off, srcOf off) else s.vfTarget fn off) = (some o, src))
    (hl : o < 0x4000000) (hb : s.barred o = none) (hw : isLowWord o = true) :
    s.readAt fn off = (s.regRead o, s.setFn fn { s.fn fn with shadow := some (o + 4, s.regRead (o + 4)) }) := by
  have hl' : ¬ 0x4000000 ≤ o := by omega
  simp only [State.readAt, ht, hl', if_false, hb, hw, if_true]

theorem State.readAt_shadowed {s : State} {fn off o src : Nat} {v : BitVec 32}
    (ht : (if fn = 0 then (some off, srcOf off) else s.vfTarget fn off) = (some o, src))
    (hl : o < 0x4000000) (hb : s.barred o = none) (hw : isLowWord o = false) (hs : (s.fn fn).shadow = some (o, v)) :
    s.readAt fn off = (v, s.setFn fn { s.fn fn with shadow := none }) := by
  have hl' : ¬ 0x4000000 ≤ o := by omega
  simp [State.readAt, ht, hl', hb, hw, hs]

/-! ## Accesses that reach no register (R37, R38) -/

theorem exec_reservedAccess_read {s : State} {fn off : Nat} (ho : s.fnOpen fn = true) (hu : s.undefinedAt fn off = true) :
    exec (.reservedAccess fn off none) s =
      .next ((s.reportAccess (if fn = 0 then srcOf off else (s.vfTarget fn off).2) 0x01 1 fn off 0).emit (.completion 0 0)) := by
  show execReservedAccess fn off none s = _
  simp [execReservedAccess, ho, hu]

theorem exec_reservedAccess_write {s : State} {fn off : Nat} (v : BitVec 32) (ho : s.fnOpen fn = true) (hu : s.undefinedAt fn off = true) :
    exec (.reservedAccess fn off (some v)) s =
      .next (s.reportAccess (if fn = 0 then srcOf off else (s.vfTarget fn off).2) 0x01 2 fn off v.toNat) := by
  show execReservedAccess fn off (some v) s = _
  simp [execReservedAccess, ho, hu]

theorem exec_unsupportedAccess {s : State} {fn off : Nat} (ho : s.fnOpen fn = true) (write : Bool) :
    exec (.unsupportedAccess fn off write) s = .next (s.unsupported fn off write) := by
  show execUnsupportedAccess fn off write s = _
  simp [execUnsupportedAccess, ho]

/-! ## Writes in a round without marks (R698, R699) -/

/-- The physical function's write of a whole register. -/
abbrev Wr.pf (off : Nat) (v : BitVec 32) : Wr := ⟨0, off, srcOf off, off, v, 0xFFFFFFFF#32⟩

theorem State.roundOf_of_no_marks {s : State} (h : s.marks = []) (ns what : Nat) : s.roundOf ns what = [] := by simp [State.roundOf, h]

theorem State.setNow_of_no_marks {s : State} (h : s.marks = []) (off : Nat) : s.setNow off = 0 := by
  simp [State.setNow, State.roundOf_of_no_marks h]

theorem State.dictBits_of_no_marks {s : State} (h : s.marks = []) (r : RegRow) (off : Nat) : s.dictBits r off = 0 := by
  simp [State.dictBits, State.roundOf_of_no_marks h]

theorem State.softWrite_of_no_marks {s : State} (h : s.marks = []) (w : Wr) (r : RegRow) :
    s.softWrite w r = ((s.wrBlock w r).recountAll w r).mark mkSoft (w.off * 2 ^ 32 + (w.mask &&& r.configBits).toNat) := by
  have hm : w.mask &&& ~~~ 0 = w.mask := BitVec.and_allOnes
  simp only [State.softWrite, State.setNow_of_no_marks h, hm]

theorem State.regWrite_pf_of_no_marks {s : State} {off : Nat} {r : RegRow} (v : BitVec 32) (hr : findReg off = some r) (hb : s.barred off = none)
    (hm : s.marks = []) :
    s.regWrite (Wr.pf off v) = s.softWrite (Wr.pf off v) r := by
  simp [State.regWrite, hb, hr, State.dictBits_of_no_marks hm]

/-- Outside the mailbox's GO a write of the PF is a write of the register. -/
theorem State.writeAt_pf {s : State} {off : Nat} (v : BitVec 32) (hx : off ≠ HIF_MBX_CTRL.word) :
    s.writeAt 0 off v = s.regWrite (Wr.pf off v) := by
  simp [State.writeAt, State.hostWriteAt, hx]

theorem exec_registerWrite_narrow {s : State} {fn off : Nat} (v : BitVec 32) (ho : s.fnOpen fn = true) (ha : off % 4 = 0) :
    exec (.registerWrite fn off v none) s = .next (s.writeAt fn off v) := by
  show execRegisterWrite fn off v none s = _
  simp [execRegisterWrite, ho, ha]

theorem exec_registerWrite_wide {s : State} {fn off : Nat} (v h : BitVec 32) (ho : s.fnOpen fn = true) (ha : off % 8 = 0) :
    exec (.registerWrite fn off v (some h)) s = .next ((s.writeAt fn off v).writeAt fn (off + 4) h) := by
  show execRegisterWrite fn off v (some h) s = _
  simp [execRegisterWrite, ho, ha]

theorem exec_registerWrite_pf {s : State} {off : Nat} {r : RegRow} (v : BitVec 32) (ho : s.fnOpen 0 = true) (ha : off % 4 = 0)
    (hr : findReg off = some r) (hb : s.barred off = none) (hx : off ≠ HIF_MBX_CTRL.word) (hm : s.marks = []) :
    exec (.registerWrite 0 off v none) s =
      .next (((s.wrBlock (Wr.pf off v) r).recountAll (Wr.pf off v) r).mark mkSoft
        (off * 2 ^ 32 + r.configBits.toNat)) := by
  rw [exec_registerWrite_narrow v ho ha, State.writeAt_pf v hx, State.regWrite_pf_of_no_marks v hr hb hm, State.softWrite_of_no_marks hm]
  have hall : 0xFFFFFFFF#32 &&& r.configBits = r.configBits := BitVec.allOnes_and
  simp only [hall]

/-- Settles O12, clause by clause from what a read, an access that reaches no register, and a write do. -/
theorem accessesComplete : Obligations.AccessesComplete := by
  refine ⟨?_, ?_, ?_, ?_, ?_, ?_, ?_, ?_⟩
  · intro s fn off o src ho ha ht hl hb hw
    rw [exec_lowWordRead_narrow ho ha, State.readAt_lowWord ht hl hb hw]
  · intro s fn off o src v ho ha ht hl hb hw hs
    rw [exec_lowWordRead_narrow ho ha, State.readAt_shadowed ht hl hb hw hs]
  · intro s t fn off ho ha ht
    rw [exec_lowWordRead_narrow ho (by omega)] at ht
    exact exec_lowWordRead_wide ho ha (Host.Outcome.next.inj ht)
  · intro s fn off ho hu
    exact exec_reservedAccess_read ho hu
  · intro s fn off v ho hu
    exact exec_reservedAccess_write v ho hu
  · intro s fn off ho
    exact ⟨exec_unsupportedAccess ho false, exec_unsupportedAccess ho true⟩
  · intro s off r v ho ha hr hb hx hm
    exact exec_registerWrite_pf v ho ha hr hb hx hm
  · intro s t fn off v h _ ho ha ht
    rw [exec_registerWrite_narrow v ho (by omega)] at ht
    rw [exec_registerWrite_wide v h ho ha, Host.Outcome.next.inj ht]

end Sys2Proof.Machine
end

section
/-! PROOFS. A write follows the access code of each field (O13, R17): the fields of a row share no bit, so each is judged for itself. -/
namespace Sys2Proof.Machine

/-! ## The register tables: fields fit their word and share no bit -/

/-- A field is not empty and lies in its register's 32 bits. -/
abbrev FieldRow.Fits (f : FieldRow) : Prop := 0 < f.w ∧ f.lo + f.w ≤ 32

/-- Two fields share no bit. -/
abbrev FieldRow.Apart (f g : FieldRow) : Prop := f.lo + f.w ≤ g.lo ∨ g.lo + g.w ≤ f.lo

/-- The fields of a register fit it and share no bit. -/
abbrev RegRow.Tidy (r : RegRow) : Prop := (∀ f ∈ r.fields, f.Fits) ∧ r.fields.Pairwise FieldRow.Apart

theorem tidy_of_mem_blockTables : ∀ e ∈ blockTables, ∀ r ∈ e.2, r.Tidy := by decide +kernel

theorem mem_of_mem_tableOf {r : RegRow} {off : Nat} : ∀ {l : List (Nat × List RegRow)}, r ∈ tableOf l off → ∃ e ∈ l, r ∈ e.2
  | [], h => nomatch h
  | (e, t) :: l, h => by
    simp only [tableOf] at h
    split at h
    · exact ⟨(e, t), List.mem_cons_self, h⟩
    · obtain ⟨x, hx, hr⟩ := mem_of_mem_tableOf h
      exact ⟨x, List.mem_cons_of_mem _ hx, hr⟩

theorem tidy_of_findReg {off : Nat} {r : RegRow} (h : findReg off = some r) : r.Tidy := by
  obtain ⟨e, he, hr⟩ := mem_of_mem_tableOf (List.mem_of_find?_eq_some h)
  exact tidy_of_mem_blockTables e he r hr

/-! ## One field -/

/-- What a bit of a field holds after a write, from what it held and what was written: RWO is open. -/
def Acc.bitAfter (a : Acc) (old new : Bool) : Bool :=
  match a with
  | .rw | .rwo => new
  | .ro | .wo | .rc => old
  | .w1c => old && !new
  | .w1s => old || new

theorem getField_testBit_sub (v : Word) {lo n i : Nat} (h : lo ≤ i ∧ i < lo + n) : (getField v lo n).testBit (i - lo) = v.getLsbD i := by
  have h1 : i - lo < n := by omega
  have h2 : lo + (i - lo) = i := by omega
  simp [getField_testBit, h1, h2]

theorem putField_getField_getLsbD (w v : Word) {lo n i : Nat} (hw : lo + n ≤ 32) (hi : i < 32) :
    (putField w lo n (getField v lo n)).getLsbD i = if lo ≤ i ∧ i < lo + n then v.getLsbD i else w.getLsbD i := by
  rw [putField_getLsbD w _ hw hi]
  split
  · next h => exact getField_testBit_sub v h
  · rfl

/-- A field written with what it holds leaves the word as it was. -/
theorem putField_getField_self (w : Word) {lo n : Nat} (hw : lo + n ≤ 32) : putField w lo n (getField w lo n) = w := by
  apply BitVec.eq_of_getLsbD_eq
  intro i hi
  rw [putField_getField_getLsbD w w hw hi, ite_self]

/-- A field written with its old bits and others has both. -/
theorem putField_getField_or_getLsbD (w v : Word) {lo n i : Nat} (hw : lo + n ≤ 32) (hi : i < 32) :
    (putField w lo n (getField w lo n ||| getField v lo n)).getLsbD i =
      if lo ≤ i ∧ i < lo + n then w.getLsbD i || v.getLsbD i else w.getLsbD i := by
  rw [putField_getLsbD w _ hw hi]
  split
  · next h => rw [Nat.testBit_or, getField_testBit_sub w h, getField_testBit_sub v h]
  · rfl

/-- The bits of a field and no others. -/
theorem putField_ones_getLsbD {lo n i : Nat} (hw : lo + n ≤ 32) (hi : i < 32) :
    (putField 0 lo n (2 ^ n - 1)).getLsbD i = decide (lo ≤ i ∧ i < lo + n) := by
  rw [putField_getLsbD 0 _ hw hi]
  by_cases h : lo ≤ i ∧ i < lo + n
  · have h1 : i - lo < n := by omega
    simp [h, Nat.testBit_two_pow_sub_one, h1]
  · simp [h]

/-- A field that the whole write reaches is judged by its access code alone. -/
theorem judgeField_word {w : Wr} (hm : w.mask = 0xFFFFFFFF#32) (j : Judged) {f : FieldRow} (hf : f.Fits) :
    (judgeField w true takeAll j f).word =
      match f.acc with
      | .rw | .rwo => putField j.word f.lo f.w (getField w.value f.lo f.w)
      | .ro | .wo | .rc => j.word
      | .w1c => j.word &&& ~~~ (w.value &&& putField 0 f.lo f.w (2 ^ f.w - 1))
      | .w1s => putField j.word f.lo f.w (getField j.word f.lo f.w ||| getField w.value f.lo f.w) := by
  obtain ⟨hw, hf⟩ := hf
  have hb : w.mask.getLsbD f.lo = true := by
    rw [hm, show (0xFFFFFFFF#32) = BitVec.allOnes 32 from rfl, BitVec.getLsbD_allOnes]
    exact decide_eq_true (by omega)
  cases ha : f.acc with
  | rw => simp [judgeField, ha, hb, takeAll]
  | ro => simp [judgeField, ha, hb]
  | wo => simp [judgeField, ha, hb]
  | rc => simp [judgeField, ha, hb]
  | w1s => simp [judgeField, ha, hb]
  | w1c =>
    have hv : w.value &&& 0xFFFFFFFF#32 = w.value := BitVec.and_allOnes
    simp [judgeField, ha, hm, hv]
  | rwo =>
    by_cases ho : getField j.word f.lo f.w = getField w.value f.lo f.w
    · have hs : putField j.word f.lo f.w (getField w.value f.lo f.w) = j.word := ho ▸ putField_getField_self j.word hf
      simp [judgeField, ha, hb, ho, hs]
    · simp [judgeField, ha, hb, ho, takeAll]

theorem judgeField_getLsbD {w : Wr} (hm : w.mask = 0xFFFFFFFF#32) (j : Judged) {f : FieldRow} (hf : f.Fits) {b : Nat} (hb : b < 32) :
    (judgeField w true takeAll j f).word.getLsbD b =
      if f.lo ≤ b ∧ b < f.lo + f.w then f.acc.bitAfter (j.word.getLsbD b) (w.value.getLsbD b) else j.word.getLsbD b := by
  rw [judgeField_word hm j hf]
  replace hf := hf.2
  cases f.acc with
  | rw => exact putField_getField_getLsbD _ _ hf hb
  | rwo => exact putField_getField_getLsbD _ _ hf hb
  | ro => exact (ite_self _).symm
  | wo => exact (ite_self _).symm
  | rc => exact (ite_self _).symm
  | w1s => exact putField_getField_or_getLsbD _ _ hf hb
  | w1c =>
    simp only [BitVec.getLsbD_and, BitVec.getLsbD_not, hb, putField_ones_getLsbD hf hb, decide_true, Bool.true_and, Acc.bitAfter]
    split
    · next h => simp [h]
    · next h => simp [h]

/-! ## All fields of a register -/

theorem foldl_judgeField_getLsbD_outside {w : Wr} (hm : w.mask = 0xFFFFFFFF#32) {b : Nat} (hb : b < 32) :
    ∀ {l : List FieldRow} (j : Judged), (∀ f ∈ l, f.Fits) → (∀ f ∈ l, ¬ (f.lo ≤ b ∧ b < f.lo + f.w)) →
      (l.foldl (judgeField w true takeAll) j).word.getLsbD b = j.word.getLsbD b
  | [], _, _, _ => rfl
  | f :: l, j, hl, ho => by
    obtain ⟨hf, hl'⟩ := List.forall_mem_cons.1 hl
    obtain ⟨hof, ho'⟩ := List.forall_mem_cons.1 ho
    rw [List.foldl_cons, foldl_judgeField_getLsbD_outside hm hb _ hl' ho', judgeField_getLsbD hm j hf hb]
    exact if_neg hof

/-- The one field that holds a bit decides it. -/
theorem foldl_judgeField_getLsbD {w : Wr} (hm : w.mask = 0xFFFFFFFF#32) {b : Nat} {g : FieldRow} (hlo : g.lo ≤ b) (hhi : b < g.lo + g.w) :
    ∀ {l : List FieldRow} (j : Judged), (∀ f ∈ l, f.Fits) → l.Pairwise FieldRow.Apart → g ∈ l →
      (l.foldl (judgeField w true takeAll) j).word.getLsbD b = g.acc.bitAfter (j.word.getLsbD b) (w.value.getLsbD b)
  | f :: l, j, hl, hp, hmem => by
    obtain ⟨hf, hl'⟩ := List.forall_mem_cons.1 hl
    obtain ⟨hpf, hp'⟩ := List.pairwise_cons.1 hp
    rw [List.foldl_cons]
    rcases List.mem_cons.1 hmem with rfl | hmem
    · have ho : ∀ x ∈ l, ¬ (x.lo ≤ b ∧ b < x.lo + x.w) := fun x hx ⟨h1, h2⟩ => by have := hpf x hx; omega
      have hb : b < 32 := by omega
      rw [foldl_judgeField_getLsbD_outside hm hb _ hl' ho, judgeField_getLsbD hm j hf hb]
      exact if_pos ⟨hlo, hhi⟩
    · have hb : b < 32 := by have := (hl' g hmem).2; omega
      have hn : ¬ (f.lo ≤ b ∧ b < f.lo + f.w) := by have := hpf g hmem; omega
      rw [foldl_judgeField_getLsbD hm hlo hhi _ hl' hp' hmem, judgeField_getLsbD hm j hf hb, if_neg hn]

/-- What the write of a whole word leaves in a bit of a field. -/
theorem State.judgeWrite_getLsbD {s : State} {w : Wr} {r : RegRow} (hm : w.mask = 0xFFFFFFFF#32) (hr : r.Tidy) {g : FieldRow} (hg : g ∈ r.fields)
    {b : Nat} (hlo : g.lo ≤ b) (hhi : b < g.lo + g.w) :
    (s.judgeWrite w r true takeAll).word.getLsbD b = g.acc.bitAfter ((s.word w.off).getLsbD b) (w.value.getLsbD b) :=
  foldl_judgeField_getLsbD hm hlo hhi _ hr.1 hr.2 hg

/-! ## The write as a whole -/

theorem State.recount_of_no_marks {s : State} (h : s.marks = []) (ns : Nat) (x : Fld) : s.recount ns x = s := by
  simp [State.recount, State.roundOf_of_no_marks h]

/-- In a round without marks no counter is counted on. -/
theorem State.recountAll_of_no_marks {s : State} (h : s.marks = []) (w : Wr) (r : RegRow) : s.recountAll w r = s := by
  unfold State.recountAll
  induction r.fields with
  | nil => rfl
  | cons f l ih => rw [List.foldl_cons, State.recount_of_no_marks h, ite_self, ih]

theorem State.word_mark (s : State) (what arg off : Nat) : (s.mark what arg).word off = s.word off := rfl

/-- Settles O13: such a write stores the judged word and nothing else, and each field is judged by its access code. -/
theorem writeFollowsAccessCodes : Obligations.WriteFollowsAccessCodes := by
  intro s off r v hc ho ha hr hb hx hm hplain
  refine ⟨_, exec_registerWrite_pf v ho ha hr hb hx hm, ?_⟩
  have hmp : (s.plain (Wr.pf off v) r).marks = [] := hm
  rw [hplain, State.recountAll_of_no_marks hmp]
  refine ⟨fun a ha => ?_, fun g hg b hlo hhi => ?_⟩
  · rw [State.word_mark]
    exact State.word_setWord_ne hc _ ha
  · rw [State.word_mark]
    refine (congrArg (·.getLsbD b) (State.word_setWord_self hc off _)).trans ?_
    exact State.judgeWrite_getLsbD rfl (tidy_of_findReg hr) hg hlo hhi

end Sys2Proof.Machine
end

section
/-! PROOFS. A request for a speed class that the part does not permit (O54). -/
namespace Sys2Proof.Machine

theorem Variant.fastest_le (v : Variant) : v.fastest ≤ 2 := by cases v <;> decide

/-- A class faster than the fuses permit is refused as an absent feature, on a ring's master too. -/
theorem State.classRefusal_of_lt_fastest {s : State} {c : Nat} (h : c < s.variant.fastest) : s.classRefusal c = 1 := by
  have h4 : ¬ 4 < c := by have := Variant.fastest_le s.variant; omega
  have hp : s.permits c = false := by
    have : ¬ s.variant.fastest ≤ c := by omega
    simp [State.permits, this]
  simp [State.classRefusal, h4, hp]

theorem exec_classRequest_dark {s : State} (m : Nat) (v : BitVec 32) (hd : s.poweredDown SCN_CTRL.word = true) :
    exec (.classRequest m v) s = .next (s.darkWrite SCN_CTRL.word v.toNat m) := by
  show execClassRequest m v s = _
  simp [execClassRequest, hd]

theorem exec_classRequest_member {s : State} (m : Nat) (v : BitVec 32) (hd : s.poweredDown SCN_CTRL.word = false) (hm : s.ringMember = true) :
    exec (.classRequest m v) s = .next (s.raise CUL_STATUS.CTRL_REFUSED) := by
  show execClassRequest m v s = _
  simp [execClassRequest, hd, hm]

theorem exec_classRequest_refused {s : State} (m : Nat) (v : BitVec 32) (hd : s.poweredDown SCN_CTRL.word = false) (hm : s.ringMember = false)
    (hr : s.classRefusal (v.toNat % 8) ≠ 0) :
    exec (.classRequest m v) s = .next (s.setF SCN_STATE.REFUSE (s.classRefusal (v.toNat % 8))) := by
  show execClassRequest m v s = _
  simp [execClassRequest, hd, hm, hr]

/-- Settles O54: the refusal writes REFUSE alone, which shares no bit with CLASS_NOW. -/
theorem fasterClassRefused : Obligations.FasterClassRefused := by
  intro s m v hc hlt
  have hr := State.classRefusal_of_lt_fastest hlt
  refine ⟨fun hd hm => ⟨s.setF SCN_STATE.REFUSE 1, ?_, ?_, ?_, ?_, rfl⟩, exec_classRequest_member m v, exec_classRequest_dark m v⟩
  · rw [exec_classRequest_refused m v hd hm (by simp [hr]), hr]
  · exact State.f_setF_self hc SCN_STATE.REFUSE 1 (by decide)
  · exact State.f_setF_beside hc SCN_STATE.REFUSE SCN_STATE.CLASS_NOW 1 rfl (by decide) (by decide) (by decide)
  · intro off hoff
    exact State.word_setF_ne hc SCN_STATE.REFUSE 1 (by simpa using hoff)

end Sys2Proof.Machine
end

section
/-! PROOFS. The island clocks (O14, R25): what the loss of each clock reports and what it takes with it, and what its return ends. -/
namespace Sys2Proof.Machine

/-- The state that has just noted the loss of a clock, before anything is reported. -/
abbrev State.noteLoss (s : State) (d : Nat) : State := { s with scn := { s.scn with clkLost := d :: s.scn.clkLost } }

/-- The state that has just noted the return of a clock. -/
abbrev State.noteReturn (s : State) (d : Nat) : State := { s with scn := { s.scn with clkLost := s.scn.clkLost.filter (fun e => e ≠ d) } }

/-- Noting the loss does not change which stations are printing: the class of the report may be taken before or after. -/
theorem State.printing_noteLoss (s : State) (d st : Nat) : (s.noteLoss d).printing st = s.printing st := rfl

/-! ## Losses -/

section
variable {s : State} {d : Nat} (hr : s.clkRuns d = true) (hl : d ∉ s.scn.clkLost)
include hr hl

/-- A running clock that was not lost before is the case that CLOCK_LOSS acts on. -/
theorem State.clockLoss_acts : (!s.clkRuns d || s.scn.clkLost.contains d) = false := by
  simp [hr, hl]

theorem exec_clockLoss_pixel (hd : d < 12) :
    exec (.clockLoss d) s =
      .next ((((s.noteLoss d).clkReport d (if s.printing d then 3 else 1)).pllSearch d).modPll d (fun p => { p with attempts := 0 })) := by
  show execClockLoss d s = _
  simp only [execClockLoss, State.clockLoss_acts hr hl, hd, if_true, Bool.false_eq_true, if_false, State.printing_noteLoss]
  rfl

theorem exec_clockLoss_fatal (hd : d = 12 ∨ d = 22) : exec (.clockLoss d) s = .next ((s.noteLoss d).clkReport d 4) := by
  show execClockLoss d s = _
  have hp : ¬ d < 12 := by omega
  have hk : d ≠ 23 := by omega
  simp only [execClockLoss, State.clockLoss_acts hr hl, hp, hk, hd, if_true, Bool.false_eq_true, if_false]

/-- EtherCAT, Culvert, the lateral chain and the scan links: C1, and what follows is left to each interface. -/
theorem exec_clockLoss_other (h16 : 16 ≤ d) (h22 : d ≠ 22) (h23 : d ≠ 23) :
    exec (.clockLoss d) s = .next ((s.noteLoss d).clkReport d 1) := by
  show execClockLoss d s = _
  simp only [execClockLoss, State.clockLoss_acts hr hl, Bool.false_eq_true, if_false]
  simp (disch := omega) only [if_neg]

end

section
variable {s : State}

theorem exec_clockLoss_refclk (hr : s.clkRuns 23 = true) (hl : 23 ∉ s.scn.clkLost) :
    exec (.clockLoss 23) s = .next (((s.noteLoss 23).setF CLK_STATUS.REFCLK_OK 0).clkReport 23 4) := by
  show execClockLoss 23 s = _
  simp only [execClockLoss, State.clockLoss_acts hr hl, Bool.false_eq_true, if_false]
  rfl

theorem exec_clockLoss_dram (hr : s.clkRuns 15 = true) (hl : 15 ∉ s.scn.clkLost) :
    exec (.clockLoss 15) s = .next ((s.noteLoss 15).clkReport 15 3) := by
  show execClockLoss 15 s = _
  simp only [execClockLoss, State.clockLoss_acts hr hl, Bool.false_eq_true, if_false]
  rfl

/-- The loss of the endpoint's clock takes a link that is up down, as a loss of the link does. -/
theorem exec_clockLoss_endpoint {u : State} (hr : s.clkRuns 13 = true) (hl : 13 ∉ s.scn.clkLost) (hu : u = (s.noteLoss 13).clkReport 13 3) :
    exec (.clockLoss 13) s =
      .next (if u.b HIF_LINK_STATUS.UP then ({ (u.satInc HIF_LINK_CNT.DL_DOWN).linkOff with hif := { u.hif with clkDown := true } } : State).hostReset
        else { u with hif := { u.hif with clkDown := true } }) := by
  subst hu
  show execClockLoss 13 s = _
  simp only [execClockLoss, State.clockLoss_acts hr hl, Bool.false_eq_true, if_false]
  rfl

theorem exec_clockLoss_rootPort_idle (hr : s.clkRuns 14 = true) (hl : 14 ∉ s.scn.clkLost) (ho : s.spl.copies.any Copy.isOpen = false) :
    exec (.clockLoss 14) s =
      .next (({ (s.noteLoss 14).clkReport 14 1 with spl := { s.spl with rootDown := true } } : State).refreshRefusal) := by
  show execClockLoss 14 s = _
  simp only [execClockLoss, State.clockLoss_acts hr hl, ho, Bool.false_eq_true, if_false]
  rfl

/-- R25's C1 is for a spool with no write open; with one open the clock itself reports nothing. -/
theorem exec_clockLoss_rootPort_writing (hr : s.clkRuns 14 = true) (hl : 14 ∉ s.scn.clkLost) (ho : s.spl.copies.any Copy.isOpen = true) :
    exec (.clockLoss 14) s = .next (({ s.noteLoss 14 with spl := { s.spl with rootDown := true } } : State).refreshRefusal) := by
  show execClockLoss 14 s = _
  simp only [execClockLoss, State.clockLoss_acts hr hl, ho, Bool.false_eq_true, if_false]
  rfl

/-! ## Returns -/

/-- A clock that is lost is the case that CLOCK_RELOCK acts on. -/
theorem State.clockRelock_acts {d : Nat} (hl : d ∈ s.scn.clkLost) : (!s.scn.clkLost.contains d) = false := by
  simp [hl]

theorem exec_clockRelock_refclk (hl : 23 ∈ s.scn.clkLost) : exec (.clockRelock 23) s = .next ((s.noteReturn 23).setF CLK_STATUS.REFCLK_OK 1) := by
  show execClockRelock 23 s = _
  simp only [execClockRelock, State.clockRelock_acts hl, Bool.false_eq_true, if_false, if_true]

theorem exec_clockRelock_rootPort (hl : 14 ∈ s.scn.clkLost) :
    exec (.clockRelock 14) s = .next (({ s.noteReturn 14 with spl := { s.spl with rootDown := false } } : State).refreshRefusal) := by
  show execClockRelock 14 s = _
  simp only [execClockRelock, State.clockRelock_acts hl, Bool.false_eq_true, if_false]
  rfl

theorem exec_clockRelock_other {d : Nat} (h14 : d ≠ 14) (h23 : d ≠ 23) (hl : d ∈ s.scn.clkLost) :
    exec (.clockRelock d) s = .next (s.noteReturn d) := by
  show execClockRelock d s = _
  simp only [execClockRelock, State.clockRelock_acts hl, h14, h23, Bool.false_eq_true, if_false]

end

/-- Settles O14, one clause for each kind of clock of R25. -/
theorem clocksComplete : Obligations.ClocksComplete :=
  ⟨fun _ _ hd hr hl => exec_clockLoss_pixel hr hl hd, fun _ hr hl => exec_clockLoss_refclk hr hl, fun _ _ hd hr hl => exec_clockLoss_fatal hr hl hd,
    fun _ hr hl => exec_clockLoss_dram hr hl, fun _ _ hr hl hu => exec_clockLoss_endpoint hr hl hu,
    fun _ hr hl ho => exec_clockLoss_rootPort_idle hr hl ho, fun _ hr hl ho => exec_clockLoss_rootPort_writing hr hl ho,
    fun _ _ h16 h22 h23 hr hl => exec_clockLoss_other hr hl h16 h22 h23, fun _ hl => exec_clockRelock_refclk hl,
    fun _ hl => exec_clockRelock_rootPort hl, fun _ _ h14 h23 hl => exec_clockRelock_other h14 h23 hl⟩

end Sys2Proof.Machine
end

section
/-! PROOFS. The dictionary server (O15, R43): a transfer that arrives is carried out at once or waits, and the oldest waiting one starts next. -/
namespace Sys2Proof.Machine

/-! ## Arrivals -/

/-- A server that runs, serves nothing and has nobody waiting carries out what arrives. -/
theorem State.sdoArrive_of_free {s : State} (hr : s.serverRuns = true) (hb : s.sdoBusy = false) (hw : s.hif.sdoWait = []) (r : SdoReq) :
    s.sdoArrive r = s.sdoServe r := by
  simp [State.sdoArrive, hr, hb, hw]

/-- While the server is busy only a segment of the mailbox's own transfer is served: what arrives over CoE waits behind the others. -/
theorem State.sdoArrive_coe_of_busy {s : State} (hb : s.sdoBusy = true) (op : SdoOp) :
    s.sdoArrive (.coe op) = { s with hif := { s.hif with sdoWait := s.hif.sdoWait ++ [.coe op] } } := by
  have hc : s.mbxContinues (.coe op) = false := rfl
  simp [State.sdoArrive, hb, hc]

/-! ## The commands -/

theorem exec_coeSdoUpload {s : State} (ho : s.coeOpen = true) (index sub : Nat) (whole : Bool) :
    exec (.coeSdoUpload index sub whole) s = .next (s.sdoArrive (.coe (.upload index sub whole))) := by
  show execCoeSdoUpload index sub whole s = _
  simp only [execCoeSdoUpload, ho, if_true]

theorem exec_coeSdoDownload {s : State} (ho : s.coeOpen = true) (index sub : Nat) (whole : Bool) (data : List (BitVec 8)) :
    exec (.coeSdoDownload index sub whole data) s = .next (s.sdoArrive (.coe (.download index sub whole data))) := by
  show execCoeSdoDownload index sub whole data s = _
  simp only [execCoeSdoDownload, ho, if_true]

theorem exec_coeSdoInformation {s : State} (ho : s.coeOpen = true) (data : List (BitVec 8)) :
    exec (.coeSdoInformation data) s = .next (s.sdoArrive (.coe (.info data))) := by
  show execCoeSdoInformation data s = _
  simp only [execCoeSdoInformation, ho, if_true]

theorem exec_sdoQueuedStart_of_free {s : State} {r : SdoReq} {rest : List SdoReq} (hw : s.hif.sdoWait = r :: rest) (hr : s.serverRuns = true)
    (hb : s.sdoBusy = false) :
    exec .sdoQueuedStart s = .next (({ s with hif := { s.hif with sdoWait := rest } } : State).sdoServe r) := by
  show execSdoQueuedStart s = _
  simp [execSdoQueuedStart, hw, hr, hb]

/-- Settles O15: each command is an arrival, which a free server serves and a busy one makes wait. -/
theorem sdoTransfersComplete : Obligations.SdoTransfersComplete := by
  refine ⟨?_, ?_, ?_, ?_, ?_⟩
  · intro s index sub whole ho hr hb hw
    rw [exec_coeSdoUpload ho, State.sdoArrive_of_free hr hb hw]
  · intro s index sub whole data ho hr hb hw
    rw [exec_coeSdoDownload ho, State.sdoArrive_of_free hr hb hw]
  · intro s data ho hr hb hw
    rw [exec_coeSdoInformation ho, State.sdoArrive_of_free hr hb hw]
  · intro s index sub whole ho hb
    rw [exec_coeSdoUpload ho, State.sdoArrive_coe_of_busy hb]
  · intro s r rest hw hr hb
    exact exec_sdoQueuedStart_of_free hw hr hb

end Sys2Proof.Machine
end

section
/-! PROOFS. Accesses of a block that is powered down (O58, R39). -/
namespace Sys2Proof.Machine

/-- A defined register of a dark block is barred with cause 0x03. -/
theorem State.barred_of_dark {s : State} {o : Nat} (hf : (findReg o).isSome = true) (hd : s.darkAt o = true) : s.barred o = some 0x03 := by
  simp [State.barred, Option.isNone_eq_false_iff.mpr hf, hd]

/-- A read that leads to a barred register shows zero and reports the cause; the function's shadow stays as it was. -/
theorem State.readAt_barred {s : State} {fn off o src c : Nat} (ht : (if fn = 0 then (some off, srcOf off) else s.vfTarget fn off) = (some o, src))
    (hl : o < 0x4000000) (hb : s.barred o = some c) : s.readAt fn off = (0, s.reportAccess src c 1 fn off 0) := by
  have hl' : ¬ 0x4000000 ≤ o := by omega
  simp [State.readAt, ht, hl', hb]

theorem State.regWrite_barred {s : State} {w : Wr} {c : Nat} (hb : s.barred w.off = some c) : s.regWrite w = s.reject w c := by
  simp only [State.regWrite, hb]

/-- A write of a host function that leads to a barred register is refused and reported, in the PF's own BAR0 and in a VF's window alike. -/
theorem State.hostWriteAt_barred {s : State} {fn off o src c : Nat} (v : BitVec 32) (hn : fn < 16)
    (ht : (if fn = 0 then (some off, srcOf off) else s.vfTarget fn off) = (some o, src)) (hl : o < 0x4000000) (hb : s.barred o = some c) :
    s.hostWriteAt fn off v = s.reportAccess src c 2 fn off v.toNat := by
  by_cases h0 : fn = 0
  · subst h0
    obtain ⟨rfl, rfl⟩ : off = o ∧ srcOf off = src := by simpa using ht
    simp [State.hostWriteAt, State.regWrite_barred, hb, State.reject]
  · have h15 : ¬ 15 < fn := by omega
    have h16 : fn ≠ 0x10 := by omega
    rw [if_neg h0] at ht
    simp [State.hostWriteAt, h0, h15, h16, ht, hl, State.regWrite_barred, hb, State.reject]

/-- The mailbox's GO does not act in a dark block, so a write of a dark register is the write of its offset alone. -/
theorem State.writeAt_of_dark {s : State} {fn off o src : Nat} (v : BitVec 32)
    (ht : (if fn = 0 then (some off, srcOf off) else s.vfTarget fn off) = (some o, src)) (hd : s.darkAt o = true) :
    s.writeAt fn off v = s.hostWriteAt fn off v := by
  by_cases h0 : fn = 0
  · subst h0
    obtain ⟨rfl, -⟩ : off = o ∧ srcOf off = src := by simpa using ht
    simp [State.writeAt, hd]
  · simp [State.writeAt, h0]

/-- Settles O58: a dark register is barred, and a barred one shows zero and takes no write. -/
theorem darkBlocksReadZero : Obligations.DarkBlocksReadZero := by
  refine ⟨?_, ?_⟩
  · intro s fn off o src ho ht ha hl hf hd
    rw [exec_lowWordRead_narrow ho ha, State.readAt_barred ht hl (State.barred_of_dark hf hd)]
  · intro s fn off o src v ho hn ht ha hl hf hd
    rw [exec_registerWrite_narrow v ho ha, State.writeAt_of_dark v ht hd, State.hostWriteAt_barred v hn ht hl (State.barred_of_dark hf hd)]

end Sys2Proof.Machine
end

section
/-! PROOFS. Descriptors (O16, O56, R52 to R54, R61, R76, R85): what each page descriptor that has been read does, and how a bad one is refused. -/
namespace Sys2Proof.Machine

/-- A PRINT that names a page which is there takes that page's place: its spool copy, its audits and the page itself are freed (R55). -/
def State.freeReplaced (s : State) (fn : Nat) (id : BitVec 64) : State :=
  match s.findPage fn id with
  | some p => ((s.freeCopy fn id).freeAudits fn id).dropPage p.seq
  | none => s

section
variable {s : State} {fn : Nat} {desc : List (BitVec 8)} (hr : s.reading fn = true)
include hr

/-! ## PRINT -/

theorem exec_pagePrint_accepted {src : Option (List (BitVec 8))} (ho : (parsePage desc).opcode = 1)
    (hc : descCheck (s.entryRead fn) fn (parsePage desc) (src.map (parseSource (stationList (parsePage desc).stations).length)) = none) :
    exec (.pagePrint fn desc src) s =
      .next ((if (parsePage desc).noSpool then (s.entryRead fn).freeReplaced fn (parsePage desc).pageId
              else ((s.entryRead fn).freeReplaced fn (parsePage desc).pageId).newCopy fn (parsePage desc)
                ((src.map (parseSource (stationList (parsePage desc).stations).length)).getD [])).acceptPage fn (parsePage desc)
        { fn := fn, desc := parsePage desc, src := (src.map (parseSource (stationList (parsePage desc).stations).length)).getD [],
          last := (parsePage desc).last }) := by
  show execPagePrint fn desc src s = _
  simp only [execPagePrint, hr, ho, hc]
  rfl

theorem exec_pagePrint_refused {src : Option (List (BitVec 8))} {c : Nat} (ho : (parsePage desc).opcode = 1)
    (hc : descCheck (s.entryRead fn) fn (parsePage desc) (src.map (parseSource (stationList (parsePage desc).stations).length)) = some c) :
    exec (.pagePrint fn desc src) s = .next ((s.entryRead fn).refuse fn (parsePage desc) c) := by
  show execPagePrint fn desc src s = _
  simp only [execPagePrint, hr, ho, hc]
  rfl

/-! ## Descriptors that name a page -/

theorem exec_pageReissue_accepted {p : Page} (ho : (parsePage desc).opcode = 2)
    (hc : descCheck (s.entryRead fn) fn (parsePage desc) none = none) (hp : (s.entryRead fn).namedPage fn (parsePage desc) = some p) :
    exec (.pageReissue fn desc) s =
      .next ((if ((s.entryRead fn).findPage fn (parsePage desc).pageId).isSome then (s.entryRead fn).dropPage p.seq else s.entryRead fn).acceptPage fn
        (parsePage desc)
        { p with last := (parsePage desc).last, reissued := true, auto := false, spoil := none, latchedSt := 0, tofSt := 0, doneSt := 0, verdicts := [],
                 feedReq := false, releaseReq := false, muted := false, flr := false, heard := false }) := by
  show execPageReissue fn desc s = _
  simp only [execPageReissue, hr, ho, hc, hp]
  rfl

theorem exec_pageRelease_accepted {p : Page} (ho : (parsePage desc).opcode = 3)
    (hc : descCheck (s.entryRead fn) fn (parsePage desc) none = none) (hp : (s.entryRead fn).namedPage fn (parsePage desc) = some p) :
    exec (.pageRelease fn desc) s =
      .next (if p.isFinal then ((s.entryRead fn).accept fn (parsePage desc)).releaseNow { p with muted := false }
             else if p.auto && (p.phase = .waiting || p.phase = .claimed) then
               (((((s.entryRead fn).accept fn (parsePage desc)).modPage p.seq (fun q => { q with releaseReq := true, heard := true })).withdraw p.seq
                 0x06).claims.syncQueue fn)
             else ((s.entryRead fn).accept fn (parsePage desc)).modPage p.seq (fun q => { q with releaseReq := true, heard := true })) := by
  show execPageRelease fn desc s = _
  simp only [execPageRelease, hr, ho, hc, hp, apply_ite Host.Outcome.next]
  rfl

theorem exec_pageCancel_accepted {p : Page} (ho : (parsePage desc).opcode = 4)
    (hc : descCheck (s.entryRead fn) fn (parsePage desc) none = none) (hp : (s.entryRead fn).namedPage fn (parsePage desc) = some p) :
    exec (.pageCancel fn desc) s = .next ((((s.entryRead fn).accept fn (parsePage desc)).withdraw p.seq 0x06).claims.syncQueue fn) := by
  show execPageCancel fn desc s = _
  simp only [execPageCancel, hr, ho, hc, hp]
  rfl

/-! ## Descriptors that are none of the four -/

theorem exec_descriptorInvalid_badCheck (hk : (parsePage desc).checkOk = false) :
    exec (.descriptorInvalid fn desc) s = .next ((s.entryRead fn).refuse fn (parsePage desc) 0x24) := by
  show execDescriptorInvalid fn desc s = _
  simp [execDescriptorInvalid, hr, hk]

theorem exec_descriptorInvalid_badOpcode (hk : (parsePage desc).checkOk = true) (ho : (parsePage desc).opcode = 0 ∨ 5 ≤ (parsePage desc).opcode) :
    exec (.descriptorInvalid fn desc) s = .next ((s.entryRead fn).refuse fn (parsePage desc) 0x25) := by
  have hn : ¬ (1 ≤ (parsePage desc).opcode ∧ (parsePage desc).opcode ≤ 4) := by omega
  show execDescriptorInvalid fn desc s = _
  simp [execDescriptorInvalid, hr, hk, hn]

end

/-- Settles O16, one clause for each answer that a descriptor gets. -/
theorem descriptorsComplete : Obligations.DescriptorsComplete :=
  ⟨fun _ _ _ _ hr ho hc => exec_pagePrint_accepted hr ho hc, fun _ _ _ _ _ hr ho hc => exec_pagePrint_refused hr ho hc,
    fun _ _ _ _ hr ho hc hp => exec_pageReissue_accepted hr ho hc hp, fun _ _ _ _ hr ho hc hp => exec_pageRelease_accepted hr ho hc hp,
    fun _ _ _ _ hr ho hc hp => exec_pageCancel_accepted hr ho hc hp, fun _ _ _ hr hk => exec_descriptorInvalid_badCheck hr hk,
    fun _ _ _ hr hk ho => exec_descriptorInvalid_badOpcode hr hk ho⟩

/-! ## NO_SPOOL with REPRINT_ON_SPOIL -/

/-- A page that keeps no spool copy cannot ask to be printed again when it spoils: the ranges of such a PRINT are bad. -/
theorem printRangesOk_of_both_flags {d : PageDesc} (s : State) (src : Option (List SourceEntry)) (hn : d.noSpool = true) (hp : d.reprintOnSpoil = true) :
    printRangesOk s d src = false := by
  simp [printRangesOk, hn, hp]

theorem descCheck_of_bad_ranges {s : State} {fn : Nat} {d : PageDesc} {src : Option (List SourceEntry)} (hk : d.checkOk = true) (ho : d.opcode = 1)
    (hb : printRangesOk s d src = false) : descCheck s fn d src = some 0x25 := by
  simp [descCheck, hk, ho, hb]

/-- Settles O56: both flags make the ranges bad, and bad ranges are refused before any check but CHECK itself. -/
theorem bothReprintFlagsRefused : Obligations.BothReprintFlagsRefused :=
  fun _ _ _ _ hr ho hk hn hp => exec_pagePrint_refused hr ho (descCheck_of_bad_ranges hk ho (printRangesOk_of_both_flags _ _ hn hp))

end Sys2Proof.Machine
end

section
/-! PROOFS. The page's way down the web (O17, R46, R64, R66, R77): the first latch, each station's latch and top-of-form, and the last line. -/
namespace Sys2Proof.Machine

/-! ## The first latch -/

/-- The state in which a frame has latched and PAGE_LATCH is raised. -/
abbrev State.latchFrame (s : State) (f : Frame) : State :=
  ({ s with pages := { s.pages with frames := s.pages.frames.map (fun g => if g.tof = f.tof then { g with latched := true } else g) } } : State).event 153

theorem exec_firstLatch_blank {s : State} (hl : s.sweepFrames.leaving = false) (hb : s.sweepFrames.blankDue = true) :
    exec .firstLatch s = .next ((s.sweepFrames.blankFrame.event 153).claims) := by
  show execFirstLatch s = _
  simp only [execFirstLatch, hl, hb, Bool.false_eq_true, if_false, if_true]

/-- A frame whose claimed page is not judged at risk latches with its page on it. -/
theorem exec_firstLatch_page {s u : State} {f : Frame} {p : Page} (hu : s.sweepFrames = u) (hl : u.leaving = false) (hb : u.blankDue = false)
    (hf : u.nextLatch = some f) (hline : f.firstLatch ≤ u.scn.webLine) (hfind : u.pages.frames.find? (fun g => g.tof = f.tof) = some f)
    (hrisk : ∀ q, f.page.bind u.page? = some q → ((u.cmp.judged.get? q.seq).any (fun j => j.2) && q.phase = .claimed) = false)
    (hp : f.page.bind (u.latchFrame f).page? = some p) :
    exec .firstLatch s =
      .next ((if p.isFinal then (u.latchFrame f).modPage p.seq (fun q => if q.isFinal then q else { q with phase := .latched })
              else (((u.latchFrame f).modPage p.seq (fun q => if q.isFinal then q else { q with phase := .latched })).insFirstLatch f p).pageEvent p 0x01 0
                (((u.latchFrame f).firstStation (stationList p.desc.stations)).getD 0)).claims) := by
  have hline' : ¬ u.scn.webLine < f.firstLatch := by omega
  show execFirstLatch s = _
  cases hq : f.page.bind u.page? with
  | none => simp only [execFirstLatch, hu, hl, hb, hf, hline', hq, hfind, Option.getD_some, hp, Bool.false_eq_true, if_false]
  | some q => simp only [execFirstLatch, hu, hl, hb, hf, hline', hq, hrisk q hq, hfind, Option.getD_some, hp, Bool.false_eq_true, if_false]

/-! ## A station's latch, top-of-form and last line -/

@[simp] theorem State.event_ins (s : State) (ev : Nat) : (s.event ev).ins = s.ins := by
  unfold State.event
  split <;> rfl

@[simp] theorem State.modPage_ins (s : State) (seq : Nat) (g : Page → Page) : (s.modPage seq g).ins = s.ins := rfl

@[simp] theorem State.modFrame_ins (s : State) (seq : Nat) (g : Frame → Frame) : (s.modFrame seq g).ins = s.ins := rfl

section
variable {s : State} {st : Nat} {f : Frame} {p : Page}

/-- Only a page of placement lists (format 3) counts in CMP_PAGES, and only at its first station. -/
theorem exec_stationLatch_reached (hf : s.frameAt st (·.latchedSt) = some (f, p)) (hline : s.topAt f st ≤ s.lineAt st + 2048) :
    exec (.stationLatch st) s =
      .next (((if p.desc.format = 3 ∧ s.firstStation (stationList p.desc.stations) = some st then s.wrapInc CMP_PAGES.COUNT else s).modPage p.seq
        (fun q => { q with latchedSt := markSt q.latchedSt st })).insStationLatch p st) := by
  have hline' : ¬ s.lineAt st + 2048 < s.topAt f st := by omega
  show execStationLatch st s = _
  simp only [execStationLatch, hf, hline', if_false, Bool.and_eq_true, decide_eq_true_eq]

theorem exec_pageTof_reached (hf : s.frameAt st (·.tofSt) = some (f, p)) (hline : s.topAt f st ≤ s.lineAt st) {u : State}
    (hu : u = ((s.modPage p.seq (fun q => { q with tofSt := markSt q.tofSt st })).insPageTof p st).event (104 + st)) :
    exec (.pageTof st) s = .next (if u.firstStation (stationList p.desc.stations) = some st ∧ ¬ p.isFinal then u.pageEvent p 0x02 0 st else u) := by
  have hline' : ¬ s.lineAt st < s.topAt f st := by omega
  show execPageTof st s = _
  simp only [execPageTof, hf, hline', if_false, apply_ite Host.Outcome.next, hu]

theorem exec_pageLastLine_inspected (hf : s.frameAt st (·.doneSt) = some (f, p)) (hline : s.topAt f st + f.len ≤ s.lineAt st)
    (hi : p.desc.inspected = true) (hn : p.isFinal = false) :
    exec (.pageLastLine st) s =
      .next (if (stationList p.desc.stations).any (fun u => !(markSt p.doneSt st).getLsbD u) then
               (s.modPage p.seq (fun q => { q with doneSt := markSt p.doneSt st })).event (116 + st)
             else ((((((s.modPage p.seq (fun q => { q with doneSt := markSt p.doneSt st })).event (116 + st)).modFrame p.seq
               (fun g => { g with page := none, blank := true })).sendFeatures p.desc.pageId
                 (s.ins.sweepSide.any (fun i => p.desc.inspect.getLsbD i))).modPage p.seq (fun q => { q with phase := .printed })).pageEvent p 0x03 0)) := by
  have hline' : ¬ s.lineAt st < s.topAt f st + f.len := by omega
  show execPageLastLine st s = _
  simp only [execPageLastLine, hf, hline', hi, hn, apply_ite Host.Outcome.next, Bool.not_false, Bool.and_self, Bool.false_eq_true, if_true, if_false,
    State.modFrame_ins, State.event_ins, State.modPage_ins]

end

/-- Settles O17: the frame's latch, then the station's three events for the page on it. -/
theorem pageProgressComplete : Obligations.PageProgressComplete := by
  refine ⟨?_, ?_, ?_, ?_, ?_, ?_⟩
  · rintro s u rfl hl hb
    exact exec_firstLatch_blank hl hb
  · rintro s u w f p hu hl hb hf hline hfind hrisk rfl hp
    exact exec_firstLatch_page hu hl hb hf hline hfind hrisk hp
  · intro s st f p hf hline h3
    rw [exec_stationLatch_reached hf hline, if_neg (fun h => h3 h.1)]
  · intro s st f p hf hline h3 hfirst
    rw [exec_stationLatch_reached hf hline, if_pos ⟨h3, hfirst⟩]
  · exact fun s u st f p hf hline hu => exec_pageTof_reached hf hline hu
  · exact fun s st f p hf hline hi hn => exec_pageLastLine_inspected hf hline hi hn

end Sys2Proof.Machine
end

section
/-! PROOFS. Sheets (O18, R92, R94): the request for the oldest waiting sheet of a device in no ring, and the sheet that does not come. -/
namespace Sys2Proof.Machine

/-- The state in which a page's sheet is asked for: the page is marked, and the request stands with the line it was made at. -/
abbrev State.requestSheet (s : State) (p : Page) : State :=
  { s.modPage p.seq (fun q => { q with feedReq := true }) with
    pages := { (s.modPage p.seq (fun q => { q with feedReq := true })).pages with
      sheetReq := (s.modPage p.seq (fun q => { q with feedReq := true })).pages.sheetReq ++ [(p.seq, s.scn.webLine)] } }

theorem exec_feedRequest_due {s : State} {p : Page} (hm : s.ringMember = false) (hr : s.ringMaster = false)
    (hp : s.pages.pages.find? (fun p => p.phase = .waiting && !p.feedReq) = some p) (hs : s.sheetMode = true) (hi : s.inRun = true)
    (hw : s.wantsClass p = none) (ht : s.settled = true) (hd : s.feedDue = true) :
    exec .feedRequest s = .next ((s.requestSheet p).event 152) := by
  show execFeedRequest s = _
  simp only [execFeedRequest, hm, hr, hp, hs, hi, hw, ht, hd, Bool.not_true, Bool.or_self, Bool.false_eq_true, if_false]
  rfl

theorem exec_sheetEdgeTimeout_missed {s : State} {x : Nat × Nat} {t : List (Nat × Nat)} (hr : s.ringMaster = false) (hx : s.pages.sheetReq = x :: t)
    (hs : s.sheetMode = true) (he : s.edgeMissed x.2 = true) :
    exec .sheetEdgeTimeout s = .next (({ s with pages := { s.pages with sheetReq := t } } : State).report 0x01 3 0x0F) := by
  show execSheetEdgeTimeout s = _
  simp only [execSheetEdgeTimeout, hr, hx, hs, he, Bool.not_true, Bool.or_self, Bool.false_eq_true, if_false]

/-- Settles O18. -/
theorem sheetsComplete : Obligations.SheetsComplete :=
  ⟨fun _ _ hm hr hp hs hi hw ht hd => exec_feedRequest_due hm hr hp hs hi hw ht hd,
    fun _ _ _ hr hx hs he => exec_sheetEdgeTimeout_missed hr hx hs he⟩

end Sys2Proof.Machine
end

section
/-! PROOFS. The tile composer (O28, R64, R265, R266, R270): placement lists, directory entries, tile loads, pins, and the page judged at its latch. -/
namespace Sys2Proof.Machine

/-! ## Placement lists and the directory -/

theorem exec_placementListLanded_good {s : State} {st : Nat} {p : Page} {x : Stream} (hx : s.freshList st = some (p, x))
    (hh : listHeaderOk p.desc x.layers x.len x.data = true)
    (he : entriesOk p.desc.rows x.layers ((x.len - 32) / 16) (x.data.drop 32) 0 = true) :
    exec (.placementListLanded st) s =
      .next { s with cmp := { s.cmp with lists := s.cmp.lists.filter (fun l => (s.page? l.page).any (fun q => q.active)) ++
                                [{ page := p.seq, st := st, layers := x.layers, modes := leAt x.data 6 1,
                                   entries := parsePlacements p.fn ((x.len - 32) / 16) (x.data.drop 32) }] } } := by
  show execPlacementListLanded st s = _
  simp only [execPlacementListLanded, hx, hh, he, Bool.not_true, Bool.false_eq_true, if_false]

/-- The state in which a list's entries are read from the directory. -/
abbrev State.listRead (s : State) (l : PList) (st : Nat) (es : List Placement) : State :=
  { s with cmp := { s.cmp with lists := s.cmp.lists.map (fun x => if x.page = l.page && x.st = st then { x with read := true, entries := es } else x) } }

theorem exec_directoryEntryRead_covered {s v : State} {st : Nat} {l : PList} {p : Page} {es : List Placement} (tag : Bool)
    (hl : s.cmp.lists.find? (fun l => l.st = st && !l.read && (s.page? l.page).any (fun p => p.active)) = some l) (hp : s.page? l.page = some p)
    (hes : es = l.entries.map (fun e => ({ e with dir := s.dirEntry e.fn e.tile } : Placement))) (hvalid : es.find? (fun e => !e.dir.valid) = none)
    (hmode : es.find? (fun e => e.dir.f2 ≠ bit l.modes e.layer) = none) (hcover : coverOk p.desc es = true)
    (hv : v = es.foldl (fun s e => s.wantTile e.fn e.tile) (s.listRead l st es)) :
    exec (.directoryEntryRead st none tag) s = .next (if v.listsRead p then v.judge p else v) := by
  show execDirectoryEntryRead st none tag s = _
  simp only [execDirectoryEntryRead, hl, hp, ← hes, hvalid, hmode, hcover, Option.bind_none, Bool.not_true, Bool.false_eq_true, if_false, hv]

/-! ## Tile loads -/

theorem exec_tileLoadComplete_landed {s : State} {fn tile : Nat} {t : TileRes} (ht : s.stored fn tile = some t) (hl : t.loading = true)
    (hw : t.waits = false) (ha : t.again = false) (he : t.err = none) (hg : t.size ≤ t.got) :
    exec (.tileLoadComplete fn tile) s =
      .next (if t.stale then s.startLoad fn tile else (s.modTile fn tile (fun x => { x with loading := false })).pinCopies) := by
  have hg' : ¬ t.got < t.size := by omega
  show execTileLoadComplete fn tile s = _
  simp only [execTileLoadComplete, ht, hl, hw, ha, he, hg', Bool.not_true, Bool.or_self, Bool.false_eq_true, if_false, apply_ite Host.Outcome.next]

theorem exec_tileLoadResume_waiting {s : State} {fn tile : Nat} {t : TileRes} (ht : s.stored fn tile = some t) (hw : t.waits = true) :
    exec (.tileLoadResume fn tile) s = .next (s.startLoad fn tile) := by
  show execTileLoadResume fn tile s = _
  simp only [execTileLoadResume, ht, hw, if_true]

/-! ## Pins -/

section
variable {s : State} {i : Nat} {v : BitVec 32} (hw : s.pinWrite i v = none) (hd : (s.word (CMP_PIN_ID.word i) ^^^ v) &&& 0x803FFFFF#32 ≠ 0)
include hw hd

theorem exec_pinEnable_changed (hb : v.getLsbD 31 = true) :
    exec (.pinEnable i v) s = .next (((s.unpin i).setWord (CMP_PIN_ID.word i) (v &&& 0x803FFFFF#32)).pin i) := by
  show execPinEnable i v s = _
  simp only [execPinEnable, hw, hd, hb, false_and, Bool.not_true, Bool.false_eq_true, if_false]

theorem exec_pinDisable_changed (hb : v.getLsbD 31 = false) :
    exec (.pinDisable i v) s = .next ((s.unpin i).setWord (CMP_PIN_ID.word i) (v &&& 0x003FFFFF#32)) := by
  show execPinDisable i v s = _
  simp only [execPinDisable, hw, hd, hb, false_and, Bool.false_eq_true, if_false]

end

theorem exec_pinResident_loaded {s : State} {i : Nat} (hi : i < 16) (hen : s.b (CMP_PIN_ID.EN i) = true) (ha : (s.pinOf i).accepted = true)
    (hc : (s.pinOf i).copied = true) (ht : ∀ t ∈ s.pinTiles i, s.tileResident (s.pinRange i).1 t = true) :
    exec (.pinResident i) s = .next (s.setF (CMP_PIN_ID.RESIDENT i) 1) := by
  show execPinResident i s = _
  exact if_pos ⟨hi, hen, ha, hc, List.all_eq_true.2 ht⟩

/-! ## The page at its latch -/

/-- A page judged for another class is judged again before its risk counts. -/
theorem exec_riskReevaluate_due {s u : State} {f : Frame} {p : Page} {j : Nat × Bool} (hf : s.nextLatch = some f) (hp : f.page.bind s.page? = some p)
    (hj : s.cmp.judged.get? p.seq = some j) (hn : p.isFinal = false) (hline : f.firstLatch ≤ s.scn.webLine + 1)
    (hu : u = if j.1 = s.classNow then s else s.judge p) :
    exec .riskReevaluate s = .next (if (u.cmp.judged.get? p.seq).any (fun j => j.2) then u.failCompose p.seq 0x45 0x3FFFF else u) := by
  have hline' : ¬ s.scn.webLine + 1 < f.firstLatch := by omega
  show execRiskReevaluate s = _
  simp only [execRiskReevaluate, hf, hp, hj, hn, hline', decide_false, Bool.or_self, Bool.false_eq_true, if_false, ← hu]

/-- Settles O28, one clause for each command of the composer. -/
theorem composerComplete : Obligations.ComposerComplete := by
  refine ⟨?_, ?_, ?_, ?_, ?_, ?_, ?_, ?_⟩
  · exact fun s st p x hx hh he => exec_placementListLanded_good hx hh he
  · rintro s u v st l p es tag hl hp hes rfl hvalid hmode hcover hv
    exact exec_directoryEntryRead_covered tag hl hp hes hvalid hmode hcover hv
  · exact fun s fn tile t ht hl hw ha he hg => exec_tileLoadComplete_landed ht hl hw ha he hg
  · exact fun s fn tile t ht hw => exec_tileLoadResume_waiting ht hw
  · exact fun s i v hw hb hd => exec_pinEnable_changed hw hd hb
  · exact fun s i v hw hb hd => exec_pinDisable_changed hw hd hb
  · exact fun s i hi hen ha hc ht => exec_pinResident_loaded hi hen ha hc ht
  · exact fun s u f p j hf hp hj hn hline hu => exec_riskReevaluate_due hf hp hj hn hline hu

end Sys2Proof.Machine
end

section
/-! PROOFS. Scan timing (O30, R67, R320 to R339): the page gap, the trigger and its sweep, the beam-detect pulse, facet identification, the scan window
and the loss of an encoder. -/
namespace Sys2Proof.Machine

/-! ## The page gap and the trigger -/

/-- A page gap opens at a station that is on, lit and between pages. -/
theorem State.gapOpen_acts {s : State} {st : Nat} (ho : s.stationOn st = true) (hd : s.poweredDown (SCN_OFS.word st) = false)
    (hp : s.printing st = false) : ¬ (!s.stationOn st || s.poweredDown (SCN_OFS.word st) || s.printing st) = true := by
  simp [ho, hd, hp]

theorem exec_sweepTrigger_due {s : State} {st : Nat} (ho : s.stationOn st = true) (hd : s.poweredDown (SCN_ROUTE.word st) = false)
    (hl : s.trigNow st ≤ s.line16 st) :
    exec (.sweepTrigger st) s = .next ((s.fireTrigger st (s.trigNow st)).runSweep st (s.trigNow st)) := by
  have hl' : ¬ s.line16 st < s.trigNow st := by omega
  show execSweepTrigger st s = _
  simp only [execSweepTrigger, ho, hd, hl', decide_false, Bool.not_true, Bool.or_self, Bool.false_eq_true, if_false]

/-! ## The sweep -/

section
variable {s : State} {st k : Nat} {f : Frame} {p : Page}

/-- With the port UP and the polygon in lock a page's sweep meets nothing. -/
theorem State.sweepChecks_of_good (f : Frame) (p : Page) (k : Nat) (hu : s.blState (s.portOf st) = blUP) (hh : s.f (EXP_HEAD_STATE.STATE st) ≠ 3)
    (hl : s.poly st = polyLOCKED) : s.sweepChecks st f p k = s := by
  simp [State.sweepChecks, hu, hh, hl]

theorem State.sweepPrints_of_good (hb : f.blank = false) (hs : p.spoil = none) (hc : s.carries p st k = true)
    (hn : (s.port (s.portOf st)).laneBad = false) (hl : s.poly st = polyLOCKED) (hp : s.f (CLK_PLL_STATE.STATE st) = 3) :
    s.sweepPrints st f p k = true := by
  simp [State.sweepPrints, hb, hs, hc, hn, hl, hp]

/-- A sweep that may print carries its page's columns, and its last flag says whether the next one has none. -/
theorem State.goSweep_of_prints {t : State} (hp : s.sweepPrints st f p k = true) (hb : f.blank = false)
    (ht : t = s.modScnSt st (fun x => { x with sweep := ⟨some p.seq, k, true, s.facetNext st⟩ })) :
    s.goSweep st (some (f, p, k)) =
      if t.blState (t.portOf st) = blUP then t.sendSweep (t.portOf st) st (s.facetNext st) (some (p, k)) (!s.carries p st (k + 1)) else t := by
  subst ht
  simp [State.goSweep, hp, hb]

theorem State.runSweep_of_good {t : State} {pos : Nat} (ha : s.sweepAt st pos = some (f, p, k)) (hb : f.blank = false) (hs : p.spoil = none)
    (hc : s.carries p st k = true) (hn : (s.port (s.portOf st)).laneBad = false) (hl : s.poly st = polyLOCKED) (hp : s.f (CLK_PLL_STATE.STATE st) = 3)
    (hu : s.blState (s.portOf st) = blUP) (hh : s.f (EXP_HEAD_STATE.STATE st) ≠ 3)
    (ht : t = s.modScnSt st (fun x => { x with sweep := ⟨some p.seq, k, true, s.facetNext st⟩ })) :
    s.runSweep st pos =
      if t.blState (t.portOf st) = blUP then t.sendSweep (t.portOf st) st (s.facetNext st) (some (p, k)) (!s.carries p st (k + 1)) else t := by
  have hgo := State.goSweep_of_prints (State.sweepPrints_of_good hb hs hc hn hl hp) hb ht
  simp only [State.runSweep, ha, State.sweepChecks_of_good f p k hu hh hl, hgo]

end

/-! ## The beam-detect pulse -/

section
variable {s : State} {st : Nat}

theorem exec_bdPulse_on (ho : s.stationOn st = true) (hd : s.poweredDown (SCN_ROUTE.word st) = false) :
    exec (.bdPulse st) s = .next (((s.noteBd st).polyAfterBd st (s.phaseError st)).startDelay st) := by
  show execBdPulse st s = _
  simp only [execBdPulse, ho, hd, Bool.not_true, Bool.or_self, Bool.false_eq_true, if_false]

theorem State.polyAfterBd_locks {e : Int} (hp : s.poly st = polyACQUIRE) (he : absI e ≤ s.scaled (s.f (SCN_LOCK.WIN_NS st)))
    (hn : 63 ≤ (s.scnSt st).inWin) : s.polyAfterBd st e = s.setPoly st polyLOCKED := by
  have h64 : 64 ≤ (s.scnSt st).inWin + 1 := by omega
  simp only [State.polyAfterBd, hp, he, h64, if_true]

theorem State.polyAfterBd_restarts {e : Int} (hp : s.poly st = polyACQUIRE) (he : s.scaled (s.f (SCN_LOCK.WIN_NS st)) < absI e) :
    s.polyAfterBd st e = s.modScnSt st (fun x => { x with inWin := 0 }) := by
  have he' : ¬ absI e ≤ s.scaled (s.f (SCN_LOCK.WIN_NS st)) := by omega
  have h64 : ¬ 64 ≤ 0 := by omega
  simp only [State.polyAfterBd, hp, he', h64, if_true, if_false]

variable (ho : s.stationOn st = true)
include ho

/-- Two missed pulses in a row are a loss of lock (R333). -/
theorem exec_bdMissed_idle {u : State} (hp : s.poly st = polyLOCKED) (hn : s.printing st = false)
    (hu : u = ((s.satInc (SCN_BD_CNT.MISS st)).scnReport 0 0x14 st (s.facetNow st)).modScnSt st (fun x => { x with missRun := x.missRun + 1 })) :
    exec (.bdMissed st) s = .next (if 2 ≤ (u.scnSt st).missRun then u.lockLoss st else u) := by
  show execBdMissed st s = _
  simp only [execBdMissed, ho, hp, hn, ne_eq, not_true, decide_false, Bool.not_true, Bool.or_self, Bool.false_eq_true, if_false, ← hu]

theorem exec_lockLossTimeout_printing (hp : s.poly st = polyLOCKED) (hn : s.printing st = true) (hb : (s.scnSt st).bdSeen = false) :
    exec (.lockLossTimeout st) s = .next (s.lockLoss st) := by
  show execLockLossTimeout st s = _
  simp only [execLockLossTimeout, ho, hp, hn, hb, ne_eq, not_true, decide_false, Bool.not_true, Bool.or_self, Bool.false_eq_true, if_false]

/-! ## Facet identification -/

theorem exec_facetIdDone_counted {m second : Nat} (hp : s.poly st = polyLOCKED) (hc : 2048 ≤ (s.scnSt st).facets) (hf : (s.scnSt st).facet0 = none)
    (hn : s.b (SCN_ST_STATE.FID_FAIL st) = false) (hm : m = argMax (s.scnSt st).fidSum)
    (hs : second = ((List.range 8).filter (fun i => i ≠ m)).foldl (fun (a i : Nat) => max a ((s.scnSt st).fidSum.getD i 0)) 0) :
    exec (.facetIdDone st) s =
      .next (if ((s.scnSt st).fidSum.getD m 0 - second) * 1000 * facetNs 0 < s.f SCN_FID_CFG.MIN_SEP_PS * 256 * s.period
             then (s.setF (SCN_ST_STATE.FID_FAIL st) 1).scnReport 1 0x15 st
             else (s.setScnSt st { s.scnSt st with facet0 := some m }).setF (SCN_ST_STATE.FACET st) (((s.scnSt st).facets + 8 - m) % 8)) := by
  have hc' : ¬ (s.scnSt st).facets < 2048 := by omega
  subst hs hm
  show execFacetIdDone st s = _
  simp only [execFacetIdDone, ho, hp, hc', hf, hn, ne_eq, not_true, decide_false, Option.isSome_none, Bool.not_true, Bool.or_self, Bool.false_eq_true,
    if_false, apply_ite Host.Outcome.next]

/-! ## The scan window -/

theorem exec_scanWindowOpen_locked (hs : (s.scnSt st).sweep.print = true) (hb : (s.scnSt st).bdSeen = true) (hi : (s.scnSt st).isOpen = false)
    (hp : s.poly st = polyLOCKED) :
    exec (.scanWindowOpen st) s =
      .next (((s.modScnSt st (fun x => { x with isOpen := true })).modWord st (s.scnSt st).sweep.facet 0).emit (.clock (s.portOf st) true)) := by
  show execScanWindowOpen st s = _
  simp only [execScanWindowOpen, ho, hs, hb, hi, hp, ne_eq, not_true, decide_false, Bool.not_true, Bool.or_self, Bool.false_eq_true, if_false]

theorem exec_zoneStart_next (hi : (s.scnSt st).isOpen = true) (hz : (s.scnSt st).zone < 31) :
    exec (.zoneStart st ((s.scnSt st).zone + 1)) s = .next (s.modWord st (s.scnSt st).sweep.facet ((s.scnSt st).zone + 1)) := by
  have hz' : ¬ 32 ≤ (s.scnSt st).zone + 1 := by omega
  show execZoneStart st _ s = _
  simp only [execZoneStart, ho, hi, hz', ne_eq, not_true, decide_false, Bool.not_true, Bool.or_self, Bool.false_eq_true, if_false]

theorem exec_scanWindowClose_open (hi : (s.scnSt st).isOpen = true) :
    exec (.scanWindowClose st) s =
      .next (((s.modScnSt st (fun x => { x with isOpen := false })).emit (.clock (s.portOf st) false)).queuePoll (s.portOf st)) := by
  show execScanWindowClose st s = _
  simp only [execScanWindowClose, ho, hi, Bool.not_true, Bool.or_self, Bool.false_eq_true, if_false]

/-! ## Encoders -/

theorem exec_pcEncoderLost_tracking (ht : s.f (SCN_ST_STATE.TRK st) = 1) (hd : s.poweredDown SCN_WEB_CFG.word = false)
    (hl : s.encLost (s.f (SCN_TRK.PC_ENC st)) (s.f (SCN_PC_SCALE.SCALE st)) = true) :
    exec (.pcEncoderLost st) s = .next (((s.satInc SCN_ENC_ERR.LOST).setF (SCN_ST_STATE.TRK st) 2).scnReport 1 0x11 st) := by
  show execPcEncoderLost st s = _
  simp only [execPcEncoderLost, ho, ht, hd, hl, ne_eq, not_true, decide_false, Bool.not_true, Bool.or_self, Bool.false_eq_true, if_false]

end

theorem exec_webEncoderLost_source {s : State} (h0 : s.f SCN_WEB_CFG.SRC = 0) (hd : s.poweredDown SCN_WEB_CFG.word = false)
    (hl : s.encLost (s.f SCN_WEB_CFG.ENC) (s.f SCN_WEB_SCALE.SCALE) = true) :
    exec .webEncoderLost s = .next ((s.satInc SCN_ENC_ERR.LOST).report 0x07 4 0x10 0xFFFF) := by
  show execWebEncoderLost s = _
  simp only [execWebEncoderLost, h0, hd, hl, ne_eq, not_true, decide_false, Bool.not_true, Bool.or_self, Bool.false_eq_true, if_false]

/-- Settles O30, one clause for each command of a station's scan timing. -/
theorem scanTimingComplete : Obligations.ScanTimingComplete := by
  refine ⟨?_, ?_, ?_, ?_, ?_, ?_, ?_, ?_, ?_, ?_, ?_, ?_, ?_, ?_⟩
  · intro s st ho hd hp
    show execPageGapOpen st s = _
    exact if_neg (State.gapOpen_acts ho hd hp)
  · exact fun s st ho hd hl => exec_sweepTrigger_due ho hd hl
  · exact fun s t st pos k f p ha hb hs hc hn hl hp hu hh ht => State.runSweep_of_good ha hb hs hc hn hl hp hu hh ht
  · exact fun s st ho hd => exec_bdPulse_on ho hd
  · exact fun s st e hp he hn => State.polyAfterBd_locks hp he hn
  · exact fun s st e hp he => State.polyAfterBd_restarts hp he
  · exact fun s u st ho hp hn hu => exec_bdMissed_idle ho hp hn hu
  · exact fun s st ho hp hn hb => exec_lockLossTimeout_printing ho hp hn hb
  · exact fun s st m second ho hp hc hf hn hm hs => exec_facetIdDone_counted ho hp hc hf hn hm hs
  · exact fun s st ho hs hb hi hp => exec_scanWindowOpen_locked ho hs hb hi hp
  · exact fun s st ho hi hz => exec_zoneStart_next ho hi hz
  · exact fun s st ho hi => exec_scanWindowClose_open ho hi
  · exact fun s h0 hd hl => exec_webEncoderLost_source h0 hd hl
  · exact fun s st ho ht hd hl => exec_pcEncoderLost_tracking ho ht hd hl

end Sys2Proof.Machine
end

section
/-! PROOFS. The turnout (O40, R93, R458, R482, R483, R499, R529 to R534): the round, the tasks it owes, and what raises an event. -/
namespace Sys2Proof.Machine

theorem exec_turnoutRound_runs {s : State} (hr : s.trnRuns = true) :
    exec .turnoutRound s =
      .next (((List.range 256).filterMap (fun tk => if taskUsed tk ∧ s.firings tk ≠ 0 then some (tk, s.firings tk) else none)).foldl
        (fun s x => s.countTask x.1 x.2) { s with trn := { s.trn with events := [], srcOld := [], cancelled := [] } }) := by
  show execTurnoutRound s = _
  simp only [execTurnoutRound, hr, Bool.not_true, Bool.false_eq_true, if_false]

/-! ## Hardware tasks -/

/-- The state in which one pending firing of a task is taken off. -/
abbrev State.takeFiring (s : State) (tk : Nat) : State := s.setF (TRN_TK_STATE.PEND tk) (s.f (TRN_TK_STATE.PEND tk) - 1)

section
variable {s : State} (hr : s.trnRuns = true)
include hr

/-- A hardware task with a firing pending takes one and acts once (R531). -/
theorem State.task_of_pending {tk : Nat} (hn : s.f (TRN_TK_STATE.PEND tk) ≠ 0) (g : State → State) : s.task tk g = .next (g (s.takeFiring tk)) := by
  simp [State.task, hr, hn]

section
variable {ax : Nat} (ha : ax < 24)
include ha

theorem exec_taskAxGo_pending (hn : s.f (TRN_TK_STATE.PEND ax) ≠ 0) : exec (.taskAxGo ax) s = .next ((s.takeFiring ax).axGo ax) := by
  show execTaskAxGo ax s = _
  rw [execTaskAxGo, if_neg (by omega), State.task_of_pending hr hn]

theorem exec_taskAxStop_pending (hn : s.f (TRN_TK_STATE.PEND (24 + ax)) ≠ 0) :
    exec (.taskAxStop ax) s = .next ((s.takeFiring (24 + ax)).axStopCmd ax) := by
  show execTaskAxStop ax s = _
  rw [execTaskAxStop, if_neg (by omega), State.task_of_pending hr hn]

theorem exec_taskAxQstop_pending (hn : s.f (TRN_TK_STATE.PEND (48 + ax)) ≠ 0) :
    exec (.taskAxQstop ax) s = .next ((s.takeFiring (48 + ax)).axQstopCmd ax) := by
  show execTaskAxQstop ax s = _
  rw [execTaskAxQstop, if_neg (by omega), State.task_of_pending hr hn]

/-- An axis capture keeps the axis' position and its encoder (R499). -/
theorem exec_taskAxCapture_pending {t : State} (hn : s.f (TRN_TK_STATE.PEND (72 + ax)) ≠ 0) (ht : t = s.takeFiring (72 + ax)) :
    exec (.taskAxCapture ax) s =
      .next ((t.setI32 (MOT_AX_CAP_POS.word ax) (t.axPos ax)).setWord (MOT_AX_CAP_ENC.word ax) (t.word (MOT_AX_ENC_POS.word ax))) := by
  show execTaskAxCapture ax s = _
  rw [execTaskAxCapture, if_neg (by omega), State.task_of_pending hr hn, ht]

end

variable {t : State} {i : Nat}

theorem exec_taskLoopIndex_pending (hi : i < 64) (hn : s.f (TRN_TK_STATE.PEND (96 + i)) ≠ 0) (ht : t = s.takeFiring (96 + i)) :
    exec (.taskLoopIndex i) s = .next (t.modLoop i (fun x => { x with zero := t.lpPosCount i })) := by
  show execTaskLoopIndex i s = _
  rw [execTaskLoopIndex, if_neg (by omega), State.task_of_pending hr hn, ht]

theorem exec_taskEncCapture_pending (hi : i < 28) (hn : s.f (TRN_TK_STATE.PEND (160 + i)) ≠ 0) (ht : t = s.takeFiring (160 + i)) :
    exec (.taskEncCapture i) s = .next (t.setWord (TRN_ENC_CAP.word i) (t.word (TRN_ENC_CNT.word i))) := by
  show execTaskEncCapture i s = _
  rw [execTaskEncCapture, if_neg (by omega), State.task_of_pending hr hn, ht]

theorem exec_taskTimerStart_pending (hn : s.f (TRN_TK_STATE.PEND 188) ≠ 0) :
    exec .taskTimerStart s =
      .next ((List.range 4).foldl (fun s j => if s.b (TRN_TIMER.EN j) then s.startTimer j else s) (s.takeFiring 188)) := by
  show execTaskTimerStart s = _
  rw [execTaskTimerStart, State.task_of_pending hr hn]

/-- A pulse starts only where no port still sends one of the same number (R534). -/
theorem exec_taskLatPulse_pending (hi : i < 8) (hn : s.f (TRN_TK_STATE.PEND (192 + i)) ≠ 0) (ht : t = s.takeFiring (192 + i))
    (hq : ∀ q < 4, (s.latPort q).pulses.any (fun x => x.i = i) = false) :
    exec (.taskLatPulse i) s = .next (t.modLatPort (s.f (TRN_LP_CFG.PORT i)) (fun x => { x with pulses := x.pulses ++
      [⟨i, t.f (TRN_LP_CFG.CYCLES i), t.f (TRN_LP_CFG.NODE i), t.f (TRN_LP_CFG.BYTE i), t.f (TRN_LP_CFG.BIT i), t.b (TRN_LP_CFG.LEVEL i)⟩] })) := by
  have hb : (List.range 4).any (fun q => (s.latPort q).pulses.any (fun x => x.i = i)) = false :=
    List.any_eq_false.2 fun q hm => Bool.eq_false_iff.1 (hq q (List.mem_range.1 hm))
  have hi' : ¬ 8 ≤ i := by omega
  show execTaskLatPulse i s = _
  simp only [execTaskLatPulse, hi', hb, Bool.false_eq_true, or_self, if_false, State.task_of_pending hr hn, ht]

/-- The captured top-of-form is a sheet's edge in sheet mode, except on a ring's member (R93). -/
theorem exec_taskTofCapture_pending {u : State} (hn : s.f (TRN_TK_STATE.PEND 200) ≠ 0)
    (hu : u = (s.takeFiring 200).set64 TRN_TOF_LO.word (s.takeFiring 200).scn.webLine) :
    exec .taskTofCapture s = .next (if u.sheetMode && u.inRun && !u.ringMember then u.sheetEdge else u) := by
  show execTaskTofCapture s = _
  rw [execTaskTofCapture, State.task_of_pending hr hn, hu]

end

/-! ## Software tasks and their registers -/

theorem exec_taskSwSignal_owed {s : State} {i : Nat} (hi : i < 48) (hn : s.trn.owed.getD 0 (208 + i) ≠ 0) :
    exec (.taskSwSignal i) s =
      .next ({ s with trn := { s.trn with owed := s.trn.owed.set 0 (208 + i) (s.trn.owed.getD 0 (208 + i) - 1) } }.pf (194 + (208 + i))) := by
  have hi' : ¬ 48 ≤ i := by omega
  show execTaskSwSignal i s = _
  simp only [execTaskSwSignal, hi', hn, or_self, if_false]

/-- The software tasks are all in use. -/
theorem taskUsed_of_software {tk : Nat} (hl : 208 ≤ tk) (hu : tk < 256) : taskUsed tk = true := by
  have h1 : ¬ tk ≤ 191 := by omega
  have h2 : ¬ tk ≤ 207 := by omega
  simp [taskUsed, hu, h1, h2]

theorem State.trnGuard_of_powered {s : State} {off : Nat} (hd : s.poweredDown off = false) (value : Nat) : s.trnGuard off value = none := by
  simp [State.trnGuard, hd]

theorem exec_taskAck_software {s : State} {tk : Nat} (n : Nat) (hl : 208 ≤ tk) (hu : tk < 256) (hd : s.poweredDown (TRN_TK_STATE.word tk) = false)
    (hm : tk ∉ s.roundOf 4 mkAck) :
    exec (.taskAck tk n) s = .next (s.setF (TRN_TK_STATE.PEND tk) (s.f (TRN_TK_STATE.PEND tk) - n)) := by
  have hu' : ¬ 256 ≤ tk := by omega
  have hl' : ¬ tk < 208 := by omega
  show execTaskAck tk n s = _
  simp only [execTaskAck, hu', taskUsed_of_software hl hu, State.trnGuard_of_powered hd, hl', List.contains_iff_mem, hm, Bool.not_true, Bool.false_eq_true,
    or_self, if_false]

/-- A task that its configuration disables loses what it still owed (R533). -/
theorem exec_taskConfigWrite_config {s t : State} {tk : Nat} (v : BitVec 32) (hu : tk < 256) (hk : taskUsed tk = true)
    (hd : s.poweredDown (TRN_TK_CFG.word tk) = false) (ht : t = s.setWord (TRN_TK_CFG.word tk) (v &&& 0x13F#32)) :
    exec (.taskConfigWrite tk false v) s = .next (if t.b (TRN_TK_CFG.EN tk) then t else t.setF (TRN_TK_STATE.PEND tk) 0) := by
  have hu' : ¬ 256 ≤ tk := by omega
  show execTaskConfigWrite tk false v s = _
  simp only [execTaskConfigWrite, hu', hk, State.trnGuard_of_powered hd, Bool.not_true, Bool.false_eq_true, or_self, if_false, ht]

/-! ## What raises an event -/

theorem exec_swEventRaise_powered {s : State} (b : BitVec 8) (hd : s.poweredDown TRN_SW.word = false) :
    exec (.swEventRaise b) s = .next ((List.range 8).foldl (fun s i => if b.getLsbD i then s.event (232 + i) else s) s) := by
  show execSwEventRaise b s = _
  simp only [execSwEventRaise, State.trnGuard_of_powered hd]

theorem exec_timerExpire_elapsed {s t : State} {i : Nat} (hi : i < 4) (hr : s.trnRuns = true) (he : s.b (TRN_TIMER.EN i) = true)
    (hn : s.trn.timers.getD 0 i + s.f (TRN_TIMER.PERIOD_US i) * 1000 ≤ s.now.toNat) (ht : t = (s.event (172 + i)).startTimer i) :
    exec (.timerExpire i) s = .next (if t.b (TRN_TIMER.ONESHOT i) then t.setF (TRN_TIMER.EN i) 0 else t) := by
  have hi' : ¬ 4 ≤ i := by omega
  have hn' : ¬ s.now.toNat < s.trn.timers.getD 0 i + s.f (TRN_TIMER.PERIOD_US i) * 1000 := by omega
  show execTimerExpire i s = _
  simp only [execTimerExpire, hi', hr, he, hn', Bool.not_true, Bool.false_eq_true, or_self, if_false, ht]

theorem exec_webCompareArm_powered {s : State} {i : Nat} (v : BitVec 32) (hi : i < 8) (hd : s.poweredDown (TRN_WC_HI.word i) = false) :
    exec (.webCompareArm i v) s =
      .next { s.setWord (TRN_WC_HI.word i) v with trn := { s.trn with armed := s.trn.armed.filter (· ≠ i) ++ [i] } } := by
  have hi' : ¬ 8 ≤ i := by omega
  show execWebCompareArm i v s = _
  simp only [execWebCompareArm, hi', State.trnGuard_of_powered hd, if_false]

theorem exec_webCompareFire_reached {s : State} {i : Nat} (hr : s.trnRuns = true) (ha : s.trn.armed.contains i = true)
    (hl : s.get64 (TRN_WC_LO.word i) ≤ s.scn.webLine) :
    exec (.webCompareFire i) s = .next ({ s with trn := { s.trn with armed := s.trn.armed.filter (· ≠ i) } }.event (224 + i)) := by
  have hl' : ¬ s.scn.webLine < s.get64 (TRN_WC_LO.word i) := by omega
  show execWebCompareFire i s = _
  simp only [execWebCompareFire, hr, ha, hl', Bool.not_true, Bool.false_eq_true, or_self, if_false]

/-- Settles O40, one clause for each command of the turnout. -/
theorem turnoutComplete : Obligations.TurnoutComplete := by
  refine ⟨?_, ?_, ?_, ?_, ?_, ?_, ?_, ?_, ?_, ?_⟩
  · exact fun s hr => exec_turnoutRound_runs hr
  · rintro s t ax tk ha hr hn rfl
    refine ⟨?_, ?_, ?_, ?_⟩
    · rintro rfl
      exact exec_taskAxGo_pending hr ha hn
    · rintro rfl
      exact exec_taskAxStop_pending hr ha hn
    · rintro rfl
      exact exec_taskAxQstop_pending hr ha hn
    · rintro rfl
      exact exec_taskAxCapture_pending hr ha hn rfl
  · rintro s t i tk hr hn rfl
    refine ⟨?_, ?_, ?_, ?_, ?_⟩
    · rintro hi rfl
      exact exec_taskLoopIndex_pending hr hi hn rfl
    · rintro hi rfl
      exact exec_taskEncCapture_pending hr hi hn rfl
    · rintro rfl
      exact exec_taskTimerStart_pending hr hn
    · rintro hi rfl hq
      exact exec_taskLatPulse_pending hr hi hn rfl hq
    · rintro rfl
      exact exec_taskTofCapture_pending hr hn rfl
  · exact fun s i hi hn => exec_taskSwSignal_owed hi hn
  · exact fun s tk n hl hu hd hm => exec_taskAck_software n hl hu hd hm
  · exact fun s t tk v hu hk hd ht => exec_taskConfigWrite_config v hu hk hd ht
  · exact fun s b hd => exec_swEventRaise_powered b hd
  · exact fun s t i hi hr he hn ht => exec_timerExpire_elapsed hi hr he hn ht
  · exact fun s i v hi hd => exec_webCompareArm_powered v hi hd
  · exact fun s i hr ha hl => exec_webCompareFire_reached hr ha hl

end Sys2Proof.Machine
end

section
/-! PROOFS. What the device has sent and the free values it has drawn (O9, R111): a step keeps both, as Keeps says of every meaning. -/
namespace Sys2Proof.Machine

/-- Settles O9: an idle step and each command's meaning keep what was sent and drawn, of which the queue is no part. -/
theorem sentStaysSent : Obligations.SentStaysSent := by
  intro s t ht
  cases hp : s.pending with
  | nil =>
    rw [step_of_pending_nil hp] at ht
    cases ht
    have hk : Keeps s s.tick := State.tick_keeps .rfl'
    exact ⟨hk.sent, hk.drawn⟩
  | cons c rest =>
    rw [step_of_pending_cons hp] at ht
    have hk : Keeps { s with pending := rest } t := exec_keeps c _ t ht
    exact ⟨hk.sent, hk.drawn⟩

end Sys2Proof.Machine
end

section
/-! PROOFS. What a meaning leaves as it was outside the register words it names: one rule for each state operation. -/
namespace Sys2Proof.Machine

/-- From `s` to the canonical state `t` no register word outside the list changes, nor any object, page or byte of memory. -/
structure Touches (l : List Nat) (s t : State) : Prop extends Rests s t where
  canonical : t.Canonical
  words     : s.SameWords t l
  objs      : t.objs = s.objs
  pages     : t.pages = s.pages

/-- An outcome touches only these words where it is a next state. -/
def TouchesAns (l : List Nat) (s : State) (a : Host.Outcome State Fault Refusal) : Prop := ∀ t, a = .next t → Touches l s t

theorem State.SameWords.f_eq {s t : State} {l : List Nat} (h : s.SameWords t l) {x : Fld} (hx : x.off ∉ l) : t.f x = s.f x := by
  unfold State.f
  rw [h x.off hx]

theorem Touches.sameMemory {l : List Nat} {s t : State} (h : Touches l s t) : s.SameMemory t :=
  ⟨fun _ => by rw [h.dram], fun _ => by rw [h.tile], fun _ => by rw [h.spool]⟩

theorem Touches.refl {l : List Nat} {s : State} (h : s.Canonical) : Touches l s s := ⟨.rfl', h, fun _ _ => rfl, rfl, rfl⟩

theorem TouchesAns.next {l : List Nat} {s t : State} (h : Touches l s t) : TouchesAns l s (.next t) := by
  intro u hu
  cases hu
  exact h

theorem TouchesAns.ite {l : List Nat} {s : State} {a b : Host.Outcome State Fault Refusal} {c : Prop} [Decidable c] (ha : TouchesAns l s a)
    (hb : TouchesAns l s b) : TouchesAns l s (if c then a else b) := by
  split
  · exact ha
  · exact hb

theorem Touches.ite {l : List Nat} {s u v : State} {c : Prop} [Decidable c] (hu : Touches l s u) (hv : Touches l s v) :
    Touches l s (if c then u else v) := by
  split
  · exact hu
  · exact hv

section
variable {l : List Nat} {s t : State} (h : Touches l s t)
include h

/-- What is neither a register, a working copy, an object, a page nor memory may change. -/
theorem Touches.beside {u : State} (hv : u.variant = t.variant := by rfl) (hr : u.regs = t.regs := by rfl) (hw : u.work = t.work := by rfl)
    (ho : u.objs = t.objs := by rfl) (hp : u.pages = t.pages := by rfl) (hd : u.dram = t.dram := by rfl) (ht : u.tile = t.tile := by rfl)
    (hs : u.spool = t.spool := by rfl) : Touches l s u where
  dram := hd.trans h.dram
  tile := ht.trans h.tile
  spool := hs.trans h.spool
  canonical := ⟨by rw [hr, hv]; exact h.canonical.regs, by rw [hw, hv]; exact h.canonical.work, by rw [hd]; exact h.canonical.dram,
    by rw [ht]; exact h.canonical.tile, by rw [hs]; exact h.canonical.spool⟩
  words off hoff := by
    rw [← h.words off hoff]
    simp only [State.word, hr, hv]
  objs := ho.trans h.objs
  pages := hp.trans h.pages

theorem Touches.setWord {off : Nat} (ho : off ∈ l) (w : Word) : Touches l s (t.setWord off w) where
  toRests := State.setWord_rests h.toRests off w
  canonical := State.setWord_canonical h.canonical off w
  words m hm := (State.word_setWord_ne h.canonical w (ne_of_mem_of_not_mem ho hm).symm).trans (h.words m hm)
  objs := h.objs
  pages := h.pages

theorem Touches.setF {x : Fld} (hx : x.off ∈ l) (v : Nat) : Touches l s (t.setF x v) := h.setWord hx _

theorem Touches.setB {x : Fld} (hx : x.off ∈ l) (v : Bool) : Touches l s (t.setB x v) := h.setF hx _

theorem Touches.mark (what arg : Nat) : Touches l s (t.mark what arg) := h.beside

theorem Touches.raise {x : Fld} (hx : x.off ∈ l) : Touches l s (t.raise x) := (h.setF hx 1).mark mkSet _

theorem Touches.satInc {x : Fld} (hx : x.off ∈ l) (n : Nat) : Touches l s (t.satInc x n) := (h.setF hx _).mark mkInc _

theorem Touches.emit (o : Output) : Touches l s (t.emit o) := h.beside

theorem Touches.drew : Touches l s t.drew := h.beside

theorem Touches.report (src cls cause param addr access master : Nat) : Touches l s (t.report src cls cause param addr access master) := h.beside

theorem Touches.reportAccess (src cause access master addr value : Nat) : Touches l s (t.reportAccess src cause access master addr value) :=
  h.report _ _ _ _ _ _ _

theorem Touches.darkWrite (off value master : Nat) : Touches l s (t.darkWrite off value master) := h.reportAccess _ _ _ _ _ _

theorem Touches.event (ev : Nat) : Touches l s (t.event ev) := by
  unfold State.event
  split
  · exact h
  · exact h.beside

/-- A signalled vector may set its pending bit. -/
theorem Touches.signal {fn vec : Nat} (hv : msixPba fn + vec / 32 * 4 ∈ l) : Touches l s (t.signal fn vec) := by
  unfold State.signal
  split
  · exact h
  · split
    · exact h.setWord hv _
    · exact h.emit _

end

theorem Touches.foldl {l : List Nat} {s : State} {α : Type} {f : State → α → State} (hf : ∀ t a, Touches l s t → Touches l s (f t a)) {as : List α}
    {t : State} (h : Touches l s t) : Touches l s (as.foldl f t) := by
  induction as generalizing t with
  | nil => exact h
  | cons a as ih => exact ih (hf t a h)

end Sys2Proof.Machine
end

section
/-! PROOFS. Commands that change only the register words named for them (O59): one lemma for each command that `writtenWords` lists. -/
namespace Sys2Proof.Machine

section
variable {l : List Nat} {s : State} (h : s.Canonical)
include h

/-! ## Accesses that reach no register -/

theorem State.closedRead_touches (fn : Nat) : Touches l s (s.closedRead fn) := by
  unfold State.closedRead
  exact .ite ((Touches.refl h).emit _) (.refl h)

theorem execReservedAccess_touches (master off : Nat) (write : Option (BitVec 32)) : TouchesAns l s (execReservedAccess master off write s) := by
  unfold execReservedAccess
  refine .ite (.next (.ite (State.closedRead_touches h master) (.refl h))) (.ite (.next (.refl h)) ?_)
  cases write with
  | none => exact .next (((Touches.refl h).reportAccess _ _ _ _ _ _).emit _)
  | some v => exact .next ((Touches.refl h).reportAccess _ _ _ _ _ _)

theorem execUnsupportedAccess_touches (master off : Nat) (write : Bool) : TouchesAns l s (execUnsupportedAccess master off write s) := by
  unfold execUnsupportedAccess
  refine .ite (.next (.ite (.refl h) (State.closedRead_touches h master))) (.next ?_)
  exact .ite ((Touches.refl h).reportAccess _ _ _ _ _ _) (((Touches.refl h).reportAccess _ _ _ _ _ _).emit _)

/-! ## The heartbeat and the test access port -/

theorem execHeartbeatKick_touches : TouchesAns l s (execHeartbeatKick s) := by
  unfold execHeartbeatKick
  exact .ite (.next ((Touches.refl h).darkWrite _ _ _)) (.next (Touches.refl h).beside)

theorem State.shiftOut_setIr_touches (ir : BitVec 8) (status data : Nat) : Touches l s ((s.setIr ir).shiftOut status data) := (Touches.refl h).beside

theorem execJtagBypass_touches : TouchesAns l s (execJtagBypass s) := by
  unfold execJtagBypass
  exact .ite (.next (State.shiftOut_setIr_touches h _ _ _)) (.next (.refl h))

theorem execJtagIdcode_touches : TouchesAns l s (execJtagIdcode s) := by
  unfold execJtagIdcode
  exact .ite (.next (.refl h)) (.next (State.shiftOut_setIr_touches h _ _ _))

theorem execJtagSamplePreload_touches (cells : List Bool) : TouchesAns l s (execJtagSamplePreload cells s) := by
  unfold execJtagSamplePreload
  exact .ite (.next (.refl h)) (.next (Touches.refl h).beside)

/-! ## The turnout -/

/-- A write that the turnout's guard stops is only reported. -/
theorem State.trnGuard_touches {off value : Nat} {t : State} (ht : s.trnGuard off value = some t) : Touches l s t := by
  unfold State.trnGuard at ht
  split at ht
  · cases ht
    exact (Touches.refl h).darkWrite _ _ _
  · cases ht

/-- A task touches its own state word and what its action touches. -/
theorem State.task_touches {tk : Nat} {g : State → State} (hk : TRN_TK_STATE.word tk ∈ l) (hg : ∀ t, Touches l s t → Touches l s (g t)) :
    TouchesAns l s (s.task tk g) := by
  unfold State.task
  exact .ite (.next (.refl h)) (.next (hg _ ((Touches.refl h).setF hk _)))

theorem execSwEventRaise_touches (b : BitVec 8) : TouchesAns l s (execSwEventRaise b s) := by
  unfold execSwEventRaise
  split
  · next t ht => exact .next (State.trnGuard_touches h ht)
  · exact .next (.foldl (fun t i ht => .ite (ht.event _) ht) (.refl h))

theorem execTaskEncCapture_touches (n : Nat) :
    TouchesAns [TRN_TK_STATE.word (160 + n), TRN_ENC_CAP.word n] s (execTaskEncCapture n s) := by
  unfold execTaskEncCapture
  exact .ite (.next (.refl h)) (State.task_touches h (by simp) (fun t ht => ht.setWord (by simp) _))

theorem execTaskAxCapture_touches (ax : Nat) :
    TouchesAns [TRN_TK_STATE.word (72 + ax), MOT_AX_CAP_POS.word ax, MOT_AX_CAP_ENC.word ax] s (execTaskAxCapture ax s) := by
  unfold execTaskAxCapture
  exact .ite (.next (.refl h)) (State.task_touches h (by simp) (fun t ht => (ht.setWord (by simp) _).setWord (by simp) _))

theorem execTaskLoopIndex_touches (lp : Nat) : TouchesAns [TRN_TK_STATE.word (96 + lp)] s (execTaskLoopIndex lp s) := by
  unfold execTaskLoopIndex
  exact .ite (.next (.refl h)) (State.task_touches h (by simp) (fun t ht => ht.beside))

theorem execTaskAck_touches (tk n : Nat) : TouchesAns [TRN_STATUS.word, TRN_TK_STATE.word tk] s (execTaskAck tk n s) := by
  unfold execTaskAck
  refine .ite (.next (.refl h)) ?_
  split
  · next t ht => exact .next (State.trnGuard_touches h ht)
  · exact .ite (.next (.ite (.refl h) ((Touches.refl h).raise (by simp)))) (.ite (.next (.refl h)) (.next ((Touches.refl h).setF (by simp) _)))

theorem execTaskConfigWrite_touches (tk : Nat) (source : Bool) (v : BitVec 32) :
    TouchesAns [TRN_TK_SRC.word tk, TRN_TK_CFG.word tk, TRN_TK_STATE.word tk] s (execTaskConfigWrite tk source v s) := by
  unfold execTaskConfigWrite
  refine .ite (.next (.refl h)) ?_
  split
  · next t ht => exact .next (State.trnGuard_touches h ht)
  · cases source with
    | true => exact .next (Touches.setWord (.ite (.refl h) (Touches.refl h).beside) (by simp) _)
    | false =>
      have hcfg : Touches [TRN_TK_SRC.word tk, TRN_TK_CFG.word tk, TRN_TK_STATE.word tk] s (s.setWord (TRN_TK_CFG.word tk) (v &&& 0x13F#32)) :=
        (Touches.refl h).setWord (by simp) _
      exact .next (.ite hcfg (hcfg.setF (by simp) 0))

theorem execWebCompareArm_touches (i : Nat) (v : BitVec 32) : TouchesAns [TRN_WC_HI.word i] s (execWebCompareArm i v s) := by
  unfold execWebCompareArm
  refine .ite (.next (.refl h)) ?_
  split
  · next t ht => exact .next (State.trnGuard_touches h ht)
  · exact .next ((Touches.refl h).setWord (off := TRN_WC_HI.word i) (by simp) v).beside

/-! ## Queues, Siphon, loops, clocks and audits -/

theorem execCqHeadWrite_touches (fn head : Nat) : TouchesAns [HIF_CQ_HEAD.word fn, HIF_Q_STATUS.word fn] s (execCqHeadWrite fn head s) := by
  unfold execCqHeadWrite
  exact .ite (.next (.refl h)) (.ite (.next ((Touches.refl h).raise (by simp))) (.next ((Touches.refl h).setF (by simp) _)))

theorem execFnWinWrite_touches (fn : Nat) (v : BitVec 32) : TouchesAns [SIP_FN_WIN.word fn, SIP_STATUS.word] s (execFnWinWrite fn v s) := by
  unfold execFnWinWrite
  exact .ite (.next (.refl h)) (.ite (.next ((Touches.refl h).darkWrite _ _ _))
    (.ite (.next ((Touches.refl h).setWord (by simp) _)) (.next ((Touches.refl h).raise (by simp)))))

theorem execAdcScanConversion_touches (ch : Nat) (code : BitVec 16) : TouchesAns [LPE_ADC_VAL.word ch] s (execAdcScanConversion ch code s) := by
  unfold execAdcScanConversion
  exact .ite (.next (.refl h)) (.next ((Touches.refl h).beside.setF (by simp) _))

theorem execCalrefOkChange_touches (present : Bool) (err : BitVec 16) :
    TouchesAns [CLK_STATUS.word, CLK_CALREF.word] s (execCalrefOkChange present err s) := by
  have hset : Touches [CLK_STATUS.word, CLK_CALREF.word] s ((s.setB CLK_STATUS.CALREF_OK present).setF CLK_CALREF.ERR err.toNat) :=
    ((Touches.refl h).setB (by simp) _).setF (by simp) _
  unfold execCalrefOkChange
  exact .ite (.next hset.beside) (.ite (.next hset) (.next (hset.beside.report _ _ _ _ _ _ _)))

theorem execAuditExport_touches : TouchesAns [INS_AUDIT_CTRL.word, INS_STATUS.word] s (execAuditExport s) := by
  unfold execAuditExport
  exact .ite (.next ((Touches.refl h).darkWrite _ _ _)) (.ite (.next ((Touches.refl h).raise (by simp))) (.next ((Touches.refl h).setF (by simp) _)))

/-! ## The lateral chain and the field network -/

theorem State.latGuard_touches {p off value : Nat} {t : State} (ht : s.latGuard p off value = some t) : Touches l s t := by
  unfold State.latGuard at ht
  split at ht
  · cases ht
    exact .refl h
  · split at ht
    · cases ht
      exact (Touches.refl h).darkWrite _ _ _
    · cases ht

theorem execLatOimgWrite_touches (p node w : Nat) (v : BitVec 32) :
    TouchesAns [LAT_OIMG.word p node w, LPE_WR_ERR.word] s (execLatOimgWrite p node w v s) := by
  unfold execLatOimgWrite
  refine .ite (.next (.refl h)) ?_
  split
  · next t ht => exact .next (State.latGuard_touches h ht)
  · exact .next (Touches.setWord (.ite ((Touches.refl h).satInc (by simp) _) (.refl h)) (by simp) _)

theorem State.linkTo_touches {x : Fld} (hx : x.off ∈ l) (hv : msixPba 0 + 56 ∈ l) (up : Bool) : Touches l s (s.linkTo x up) := by
  unfold State.linkTo
  exact .ite (.refl h) (((Touches.refl h).setB hx up).signal hv)

theorem execEctLinkChange_touches (port : Nat) (up : Bool) :
    TouchesAns [ECT_STATUS.word, ECT_ERR.word, msixPba 0 + 56] s (execEctLinkChange port up s) := by
  have hoff : (if port = 0 then ECT_STATUS.LINK0 else ECT_STATUS.LINK1).off = ECT_STATUS.word := by split <;> rfl
  have hlink (b : Bool) := State.linkTo_touches (l := [ECT_STATUS.word, ECT_ERR.word, msixPba 0 + 56]) h
    (x := if port = 0 then ECT_STATUS.LINK0 else ECT_STATUS.LINK1) (by rw [hoff]; simp) (by simp) b
  unfold execEctLinkChange
  refine .ite (.next (.refl h)) ?_
  exact .ite (.ite (.next (.refl h)) (.next (hlink true))) (.ite (.next ((hlink false).satInc (by simp) _)) (.next (.refl h)))

/-! ## Power, security and the Sump -/

theorem execPowerStateRequest_touches (value : Nat) : TouchesAns [PWR_STATE.word, CUL_STATUS.word] s (execPowerStateRequest value s) := by
  unfold execPowerStateRequest
  exact .ite (.next ((Touches.refl h).darkWrite _ _ _)) (.ite (.next ((Touches.refl h).raise (by simp)))
    (.ite (.next ((Touches.refl h).raise (by simp))) (.next ((Touches.refl h).setF (by simp) _))))

theorem execSeqProgramWrite_touches (i : Nat) (v : BitVec 32) : TouchesAns [PWR_SEQ_PROG.word i, PWR_STATUS.word] s (execSeqProgramWrite i v s) := by
  unfold execSeqProgramWrite
  exact .ite (.next ((Touches.refl h).reportAccess _ _ _ _ _ _)) (.ite (.next ((Touches.refl h).darkWrite _ _ _))
    (.ite (.next (.refl h)) (.ite (.next ((Touches.refl h).setWord (by simp) v)) (.next ((Touches.refl h).raise (by simp))))))

theorem execTrngRecover_touches : TouchesAns [SEC_STATUS.word] s (execTrngRecover s) := by
  unfold execTrngRecover
  exact .ite (.next (.refl h)) (.next ((Touches.refl h).setF (by simp) 0))

theorem execSumpRearm_touches : TouchesAns [FLT_STATUS.word, FLT_FE_INFO.word] s (execSumpRearm s) := by
  unfold execSumpRearm
  exact .ite (.next ((Touches.refl h).darkWrite _ _ _)) (.next (((Touches.refl h).setF (by simp) 0).setWord (by simp) _))

end

/-- Each command for which words are named touches those words alone, one line for each row of `writtenWords`. -/
theorem exec_touches {c : Instr} {s : State} {l : List Nat} (h : s.Canonical) (hl : writtenWords c = some l) : TouchesAns l s (exec c s) := by
  cases c with
  | reservedAccess m off w =>
    cases hl
    exact execReservedAccess_touches h m off w
  | unsupportedAccess m off w =>
    cases hl
    exact execUnsupportedAccess_touches h m off w
  | heartbeatKick =>
    cases hl
    exact execHeartbeatKick_touches h
  | jtagBypass =>
    cases hl
    exact execJtagBypass_touches h
  | jtagIdcode =>
    cases hl
    exact execJtagIdcode_touches h
  | jtagSamplePreload cells =>
    cases hl
    exact execJtagSamplePreload_touches h cells
  | swEventRaise b =>
    cases hl
    exact execSwEventRaise_touches h b
  | cqHeadWrite fn head =>
    cases hl
    exact execCqHeadWrite_touches h fn head
  | fnWinWrite fn v =>
    cases hl
    exact execFnWinWrite_touches h fn v
  | adcScanConversion ch code =>
    cases hl
    exact execAdcScanConversion_touches h ch code
  | calrefOkChange present err =>
    cases hl
    exact execCalrefOkChange_touches h present err
  | auditExport =>
    cases hl
    exact execAuditExport_touches h
  | taskEncCapture n =>
    cases hl
    exact execTaskEncCapture_touches h n
  | taskAxCapture ax =>
    cases hl
    exact execTaskAxCapture_touches h ax
  | taskLoopIndex lp =>
    cases hl
    exact execTaskLoopIndex_touches h lp
  | taskAck tk n =>
    cases hl
    exact execTaskAck_touches h tk n
  | taskConfigWrite tk source v =>
    cases hl
    exact execTaskConfigWrite_touches h tk source v
  | webCompareArm i v =>
    cases hl
    exact execWebCompareArm_touches h i v
  | latOimgWrite p node w v =>
    cases hl
    exact execLatOimgWrite_touches h p node w v
  | ectLinkChange port up =>
    cases hl
    exact execEctLinkChange_touches h port up
  | powerStateRequest value =>
    cases hl
    exact execPowerStateRequest_touches h value
  | seqProgramWrite i v =>
    cases hl
    exact execSeqProgramWrite_touches h i v
  | trngRecover =>
    cases hl
    exact execTrngRecover_touches h
  | sumpRearm =>
    cases hl
    exact execSumpRearm_touches h
  | _ => cases hl

/-- Settles O59: what a command touches is its named words. -/
theorem namedWordsOnly : Obligations.NamedWordsOnly := by
  intro c s t l hc hl ht
  have h := exec_touches hc hl t ht
  exact ⟨h.words, h.objs, h.pages, h.sameMemory⟩

end Sys2Proof.Machine
end

section
/-! PROOFS. Queues (O19, O52, O55, R104 to R121): what enabling and disabling do, what a doorbell and a head write are taken for, a failed read. -/
namespace Sys2Proof.Machine

/-! ## Completion-ring heads -/

/-- A head that names no slot counts as one that passes the tail (assumption log 13). -/
theorem exec_cqHeadWrite_open {s : State} {fn head : Nat} (ho : s.fnOpen fn = true) (hh : head < 65536) :
    exec (.cqHeadWrite fn head) s =
      .next (if s.cqSlots fn ≤ head ∨ (s.f (HIF_CQ_TAIL.TAIL fn) + s.cqSlots fn - s.f (HIF_CQ_HEAD.HEAD fn)) % s.cqSlots fn <
          (s.f (HIF_CQ_TAIL.TAIL fn) + s.cqSlots fn - head) % s.cqSlots fn
        then s.raise (HIF_Q_STATUS.CQ_HEAD_ERR fn)
        else s.setF (HIF_CQ_HEAD.HEAD fn) head) := by
  show execCqHeadWrite fn head s = _
  simp only [execCqHeadWrite, ho, Nat.mod_eq_of_lt hh, Bool.not_true, Bool.false_eq_true, if_false, apply_ite Host.Outcome.next]

/-- Settles O55, the whole of what the command does for a function that is open. -/
theorem ringHeadNeverPassesTail : Obligations.RingHeadNeverPassesTail := fun _ _ _ ho hh => exec_cqHeadWrite_open ho hh

section
variable {s : State} {fn : Nat}

/-! ## Enabling and disabling -/

/-- The state in which a queue's pointers are zero and it runs (R105). -/
abbrev State.startQueue (s : State) (fn : Nat) : State :=
  ((((((((s.setF (HIF_SQ_HEAD.HEAD fn) 0).setF (HIF_SQ_TAIL.TAIL fn) 0).setF (HIF_CQ_HEAD.HEAD fn) 0).setF (HIF_CQ_TAIL.TAIL fn) 0).setF
    (HIF_CQ_TAIL.PHASE fn) 1).setF (HIF_Q_CTRL.ENABLE fn) 1).setF (HIF_Q_STATUS.STATE fn) qRUNNING).setF (HIF_Q_STATUS.ERR_CODE fn) 0).setF
    (HIF_Q_STATUS.PAUSE_CAUSE fn) 0

/-- The state in which a queue is off (R121). -/
abbrev State.stopQueue (s : State) (fn : Nat) : State :=
  ((s.setF (HIF_Q_CTRL.ENABLE fn) 0).setF (HIF_Q_STATUS.STATE fn) qDISABLED).setF (HIF_Q_STATUS.PAUSE_CAUSE fn) 0

/-- A queue runs where its sizes are within R104 and the device is not in a failed boot. -/
theorem exec_qEnable_good (ho : s.fnOpen fn = true) (hq : s.qState fn = qDISABLED) (hb : s.f HIF_DEV_STATE.STATE ≠ 2)
    (hsq : 4 ≤ s.f (HIF_SQ_SIZE.LOG2 fn)) (hsq' : s.f (HIF_SQ_SIZE.LOG2 fn) ≤ 12) (hcq : 6 ≤ s.f (HIF_CQ_SIZE.LOG2 fn))
    (hcq' : s.f (HIF_CQ_SIZE.LOG2 fn) ≤ 16) :
    exec (.qEnable fn) s = .next (((s.startQueue fn).setFn fn { (s.startQueue fn).fn fn with seq := 0, unsig := 0, also := 0 }).syncQueue fn) := by
  have hok : ¬ (s.f HIF_DEV_STATE.STATE = 2 ∨ s.f (HIF_SQ_SIZE.LOG2 fn) < 4 ∨ 12 < s.f (HIF_SQ_SIZE.LOG2 fn) ∨ s.f (HIF_CQ_SIZE.LOG2 fn) < 6 ∨
      16 < s.f (HIF_CQ_SIZE.LOG2 fn)) := by omega
  show execQEnable fn s = _
  simp only [execQEnable, ho, hq, hok, ne_eq, not_true, decide_false, Bool.not_true, Bool.or_self, Bool.false_eq_true, if_false]

/-- A queue that is on is the case that Q_DISABLE and SQ_DOORBELL act on. -/
theorem State.queueOn_acts (ho : s.fnOpen fn = true) (hq : s.qState fn ≠ qDISABLED) :
    (!s.fnOpen fn || decide (s.qState fn = qDISABLED)) = false := by
  simp only [ho, hq, decide_false, Bool.not_true, Bool.or_self]

theorem exec_qDisable_busy (ho : s.fnOpen fn = true) (hq : s.qState fn ≠ qDISABLED) (hb : s.activePages fn ≠ 0 ∨ (s.fn fn).backlog ≠ []) :
    exec (.qDisable fn) s = .next (s.raise (HIF_Q_STATUS.CTRL_REFUSED fn)) := by
  show execQDisable fn s = _
  simp only [execQDisable, State.queueOn_acts ho hq, hb, Bool.false_eq_true, if_false, if_true]

/-- A fetch of the queue that is under way is dropped (assumption log 100). -/
theorem exec_qDisable_idle (ho : s.fnOpen fn = true) (hq : s.qState fn ≠ qDISABLED) (hp : s.activePages fn = 0)
    (hb : (s.fn fn).backlog = []) :
    exec (.qDisable fn) s =
      .next (((if s.hif.fetching = some fn then { s.stopQueue fn with hif := { (s.stopQueue fn).hif with fetching := none } }
        else s.stopQueue fn).setF (HIF_SQ_TAIL.TAIL fn) 0).syncQueue fn) := by
  show execQDisable fn s = _
  simp only [execQDisable, State.queueOn_acts ho hq, hp, hb, ne_eq, not_true, or_self, Bool.false_eq_true, if_false]
  rfl

/-! ## Doorbells -/

/-- A RUNNING queue is neither DISABLED nor in ERROR. -/
theorem State.queueStates_of_running (hq : s.qState fn = qRUNNING) : s.qState fn ≠ qDISABLED ∧ s.qState fn ≠ qERROR := by
  rw [hq]
  decide

theorem exec_sqDoorbell_within {tail : Nat} (ho : s.fnOpen fn = true) (hq : s.qState fn = qRUNNING) (ht : tail < 4096) (hn : tail < s.sqSlots fn) :
    exec (.sqDoorbell fn tail) s =
      .next (if s.sqPending fn tail < s.sqPending fn (s.f (HIF_SQ_TAIL.TAIL fn)) then s.errorQueue fn 2 else s.setF (HIF_SQ_TAIL.TAIL fn) tail) := by
  have hn' : ¬ s.sqSlots fn ≤ tail := by omega
  have hon := State.queueOn_acts ho (State.queueStates_of_running hq).1
  show execSqDoorbell fn tail s = _
  simp only [execSqDoorbell, hon, eq_true hq, Nat.mod_eq_of_lt ht, hn', true_and, Bool.false_eq_true, if_false, apply_ite Host.Outcome.next]

theorem exec_sqDoorbell_beyond {tail : Nat} (ho : s.fnOpen fn = true) (hq : s.qState fn = qRUNNING) (ht : tail < 4096) (hn : s.sqSlots fn ≤ tail) :
    exec (.sqDoorbell fn tail) s = .next (s.errorQueue fn 1) := by
  obtain ⟨hoff, herr⟩ := State.queueStates_of_running hq
  show execSqDoorbell fn tail s = _
  simp only [execSqDoorbell, State.queueOn_acts ho hoff, Nat.mod_eq_of_lt ht, hn, herr, Bool.false_eq_true, if_false, if_true]

/-! ## Failed reads -/

/-- Only what AER logs is counted: a poisoned completion and a completion timeout. -/
theorem exec_descriptorReadFailed {how : Nat} {u : State} (hf : s.hif.fetching = some fn) (hu : u = if 2 ≤ how then s.aerUncorr fn else s) :
    exec (.descriptorReadFailed fn how) s = .next (({ u with hif := { u.hif with fetching := none } } : State).errorQueue fn 3) := by
  subst hu
  show execDescriptorReadFailed fn how s = _
  simp only [execDescriptorReadFailed, hf, ne_eq, not_true, if_false]

/-! ## Backlog and coalescing -/

theorem exec_backlogDrain_open (hn : fn < 16) (hf : (s.fn fn).inFlr = false) :
    exec (.backlogDrain fn) s = .next ((s.drainBacklog fn (s.fn fn).backlog.length).syncQueue fn) := by
  have hn' : ¬ 16 ≤ fn := by omega
  show execBacklogDrain fn s = _
  simp only [execBacklogDrain, hn', hf, Bool.false_eq_true, or_self, if_false]

theorem exec_cqCoalesceTimeout_owed (hn : fn < 16) (ht : s.f (HIF_CQ_COAL.TIME fn) ≠ 0) (hu : (s.fn fn).unsig ≠ 0) :
    exec (.cqCoalesceTimeout fn) s = .next ((s.setFn fn { s.fn fn with unsig := 0 }).signal fn 0) := by
  have hn' : ¬ 16 ≤ fn := by omega
  show execCqCoalesceTimeout fn s = _
  simp only [execCqCoalesceTimeout, hn', ht, hu, or_self, if_false]

end

/-- Settles O19, one clause for each command of a queue. -/
theorem queuesComplete : Obligations.QueuesComplete := by
  refine ⟨?_, ?_, ?_, ?_, ?_, ?_, ?_, ?_, ?_, ?_⟩
  · rintro s fn ho hq hb hsq hsq' hcq hcq' _ rfl
    exact exec_qEnable_good ho hq hb hsq hsq' hcq hcq'
  · rintro s fn ho hq hp hb _ rfl
    exact exec_qDisable_idle ho hq hp hb
  · exact fun s fn ho hq hb => exec_qDisable_busy ho hq hb
  · exact fun s fn tail ho hq ht hn => exec_sqDoorbell_within ho hq ht hn
  · exact fun s fn tail ho hq ht hn => exec_sqDoorbell_beyond ho hq ht hn
  · exact fun s fn hf => exec_descriptorReadFailed hf rfl
  · exact fun s u fn how hf hw hu => exec_descriptorReadFailed hf (hu.trans (if_pos hw).symm)
  · intro s fn head ho hh hn
    have hn' : ¬ s.cqSlots fn ≤ head := by omega
    rw [exec_cqHeadWrite_open ho hh]
    simp only [hn', false_or]
  · exact fun s fn hn hf => exec_backlogDrain_open hn hf
  · exact fun s fn hn ht hu => exec_cqCoalesceTimeout_owed hn ht hu

/-! ## A queue with work stays on -/

/-- In a canonical state a field reads a number. -/
structure Reads (x : Fld) (n : Nat) (s : State) : Prop where
  canonical : s.Canonical
  value     : s.f x = n

/-- A field lies in the 32 bits of its register. -/
@[simp] def Fld.Fits (x : Fld) : Prop := x.lo + x.w ≤ 32

/-- A write of field `y` is none of field `x`: they share no bit. -/
@[simp] def Fld.Apart (x y : Fld) : Prop := y.Fits ∧ (x.off ≠ y.off ∨ x.lo + x.w ≤ y.lo ∨ y.lo + y.w ≤ x.lo)

theorem Reads.setF_self {s : State} (h : s.Canonical) (x : Fld) (v : Nat) (hx : x.Fits) : Reads x (v % 2 ^ x.w) (s.setF x v) :=
  ⟨State.setF_canonical h x v, State.f_setF_self h x v hx⟩

theorem Reads.ite {x : Fld} {n : Nat} {s t : State} {c : Prop} [Decidable c] (hs : Reads x n s) (ht : Reads x n t) :
    Reads x n (if c then s else t) := by
  split
  · exact hs
  · exact ht

section
variable {x : Fld} {n : Nat} {s : State} (h : Reads x n s)
include h

theorem Reads.setF {y : Fld} (hx : x.Fits) (ha : x.Apart y) (v : Nat) : Reads x n (s.setF y v) where
  canonical := State.setF_canonical h.canonical y v
  value := by
    by_cases ho : x.off = y.off
    · exact (State.f_setF_beside h.canonical y x v ho ha.1 hx (ha.2.resolve_left (not_not_intro ho)).symm).trans h.value
    · exact (State.f_setF_ne h.canonical y x v ho).trans h.value

theorem Reads.dropFetch : Reads x n { s with hif := { s.hif with fetching := none } } :=
  ⟨⟨h.canonical.regs, h.canonical.work, h.canonical.dram, h.canonical.tile, h.canonical.spool⟩, h.value⟩

theorem Reads.syncQueue {fn : Nat} (hx : x.Fits)
    (ha : ∀ y ∈ [HIF_Q_LOAD.ACTIVE fn, HIF_Q_LOAD.BACKLOG fn, HIF_Q_STATUS.LIMIT fn, HIF_Q_STATUS.BACKLOG fn, HIF_FN_STATE.QUEUE_ON], x.Apart y) :
    Reads x n (s.syncQueue fn) := by
  simp only [List.forall_mem_cons] at ha
  obtain ⟨hact, hback, hlim, hflag, hon, -⟩ := ha
  unfold State.syncQueue State.setB
  exact ((((h.setF hx hact _).setF hx hback _).setF hx hlim _).setF hx hflag _).setF hx hon _

end

/-- What Q_DISABLE writes after it has stopped the queue leaves a field that shares no bit with it as it was. -/
theorem Reads.qDisable {x : Fld} {n fn : Nat} {s : State} (h : Reads x n (s.stopQueue fn)) (hx : x.Fits)
    (ha : ∀ y ∈ [HIF_SQ_TAIL.TAIL fn, HIF_Q_LOAD.ACTIVE fn, HIF_Q_LOAD.BACKLOG fn, HIF_Q_STATUS.LIMIT fn, HIF_Q_STATUS.BACKLOG fn,
      HIF_FN_STATE.QUEUE_ON], x.Apart y) :
    Reads x n (((if s.hif.fetching = some fn then { s.stopQueue fn with hif := { (s.stopQueue fn).hif with fetching := none } }
      else s.stopQueue fn).setF (HIF_SQ_TAIL.TAIL fn) 0).syncQueue fn) := by
  rw [List.forall_mem_cons] at ha
  exact ((Reads.ite h.dropFetch h).setF hx ha.1 _).syncQueue hx ha.2

/-- Settles O52: the fields that are written beside ENABLE and STATE share no bit with them. -/
theorem busyQueueStaysOn : Obligations.BusyQueueStaysOn := by
  intro s fn hc ho hq
  refine ⟨exec_qDisable_busy ho hq, fun hp hb => ⟨_, exec_qDisable_idle ho hq hp hb, ?_, ?_⟩⟩
  · have hx : (HIF_Q_CTRL.ENABLE fn).Fits := by simp
    have h : Reads (HIF_Q_CTRL.ENABLE fn) 0 (s.stopQueue fn) :=
      ((Reads.setF_self hc (HIF_Q_CTRL.ENABLE fn) 0 hx).setF hx (by simp) _).setF hx (by simp) _
    refine (h.qDisable hx ?_).value
    simp only [List.forall_mem_cons, List.not_mem_nil, false_imp_iff, implies_true, and_true, Fld.Apart, Fld.Fits]
    omega
  · have hx : (HIF_Q_STATUS.STATE fn).Fits := by simp
    have h : Reads (HIF_Q_STATUS.STATE fn) qDISABLED (s.stopQueue fn) :=
      (Reads.setF_self (State.setF_canonical hc _ _) (HIF_Q_STATUS.STATE fn) 0 hx).setF hx (by simp) _
    refine (h.qDisable hx ?_).value
    simp only [List.forall_mem_cons, List.not_mem_nil, false_imp_iff, implies_true, and_true, Fld.Apart, Fld.Fits]
    omega

end Sys2Proof.Machine
end

section
/-! PROOFS. Pausing and serving queues (O20, R108, R119 to R136): pauses and their ends, D3hot, Function Level
Reset, the queue served next, unmasking. -/
namespace Sys2Proof.Machine

section
variable {s : State} {fn : Nat}

/-! ## Pauses -/

theorem exec_qPause_running (hn : fn < 16) (hq : s.qState fn = qRUNNING) :
    exec (.qPause fn) s = .next (((s.setF (HIF_Q_STATUS.STATE fn) qPAUSED).setF (HIF_Q_STATUS.PAUSE_CAUSE fn) 1).signal fn 1) := by
  have hn' : ¬ 16 ≤ fn := by omega
  show execQPause fn s = _
  simp only [execQPause, hn', State.pauseQueue, hq, if_true, if_false]

theorem exec_qResume_paused (hn : fn < 16) (hq : s.qState fn = qPAUSED) (hs : s.stopActive = false) (hd : s.inD3 fn = false) :
    exec (.qResume fn) s = .next (((s.setF (HIF_Q_STATUS.STATE fn) qRUNNING).setF (HIF_Q_STATUS.PAUSE_CAUSE fn) 0).signal fn 1) := by
  have hn' : ¬ 16 ≤ fn := by omega
  show execQResume fn s = _
  simp only [execQResume, hn', hq, hs, hd, ne_eq, not_true, or_self, Bool.false_eq_true, if_false]

/-! ## Service and vectors -/

theorem exec_sqServe_next (hf : s.hif.fetching = none) (hd : s.f HIF_DEV_STATE.STATE = 1)
    (hw : ((List.range 16).map (fun i => (s.hif.lastFn + 1 + i) % 16)).find? s.sqWaits = some fn) :
    exec .sqServe s = .next { s with hif := { s.hif with fetching := some fn, lastFn := fn } } := by
  show execSqServe s = _
  simp only [execSqServe, hf, hd, hw, Option.isSome_none, ne_eq, not_true, decide_false, Bool.or_self, Bool.false_eq_true, if_false]

theorem exec_msixUnmask_open {vec : Nat} (ho : s.fnOpen fn = true) (hv : vec < msixCount fn) :
    exec (.msixUnmask fn vec) s =
      .next ((s.setWord (msixTable fn + vec * 16 + 12) (s.word (msixTable fn + vec * 16 + 12) &&& 0xFFFFFFFE#32)).sendPending fn vec) := by
  have hv' : ¬ msixCount fn ≤ vec := by omega
  show execMsixUnmask fn vec s = _
  simp only [execMsixUnmask, ho, hv', decide_false, Bool.not_true, Bool.or_self, Bool.false_eq_true, if_false]

/-! ## D3hot -/

theorem exec_d3hotEntry_there (ht : s.fnThere fn = true) (hd : (s.fn fn).d3 = false) : exec (.d3hotEntry fn) s = .next (s.enterD3 fn) := by
  show execD3hotEntry fn s = _
  simp only [execD3hotEntry, ht, hd, Bool.not_true, Bool.or_self, Bool.false_eq_true, if_false]

/-- A VF's entry pauses its own queue; the PF's pauses every function's (assumption log 12). -/
theorem State.enterD3_vf (h0 : fn ≠ 0) : s.enterD3 fn = (s.pauseQueue fn 4).setFn fn { (s.pauseQueue fn 4).fn fn with d3 := true } := by
  simp only [State.enterD3, h0, if_false, List.foldl_cons, List.foldl_nil]

theorem exec_d0Return_held (hn : fn < 16) (hd : (s.fn fn).d3 = true) : exec (.d0Return fn) s = .next (s.returnD0 fn) := by
  have hn' : ¬ 16 ≤ fn := by omega
  show execD0Return fn s = _
  simp only [execD0Return, hn', hd, not_true, or_self, if_false]

theorem State.returnD0_vf (h0 : fn ≠ 0) : s.returnD0 fn = (s.setFn fn { s.fn fn with d3 := false }).leaveD3 fn := by
  simp only [State.returnD0, h0, if_false, List.foldl_cons, List.foldl_nil]

/-! ## Function Level Reset -/

theorem exec_flrStart_there (ht : s.fnThere fn = true) (hf : (s.fn fn).inFlr = false) : exec (.flrStart fn) s = .next (s.flrStart fn) := by
  show execFlrStart fn s = _
  simp only [execFlrStart, ht, hf, Bool.not_true, Bool.or_self, Bool.false_eq_true, if_false]

theorem exec_flrComplete_vf (h0 : fn ≠ 0) (hn : fn < 16) (hf : (s.fn fn).inFlr = true) :
    exec (.flrComplete fn) s = .next ((s.flrEnd fn).pf 7) := by
  have hn' : ¬ 16 ≤ fn := by omega
  show execFlrComplete fn s = _
  simp only [execFlrComplete, h0, hn', hf, not_true, or_self, if_false]

theorem exec_flrComplete_pf (hf : (s.fn 0).inFlr = true) : exec (.flrComplete 0) s = .next s.flrEndAll := by
  show execFlrComplete 0 s = _
  simp [execFlrComplete, hf]

end

/-- Settles O20, one clause for each command; the PF's D3hot, D0 and FLR are every function's. -/
theorem queueServiceComplete : Obligations.QueueServiceComplete := by
  refine ⟨?_, ?_, ?_, ?_, ?_, ?_, ?_, ?_, ?_, ?_, ?_, ?_⟩
  · exact fun s fn hn hq => exec_qPause_running hn hq
  · exact fun s fn hn hq hs hd => exec_qResume_paused hn hq hs hd
  · exact fun s fn hf hd hw => exec_sqServe_next hf hd hw
  · exact fun s fn vec ho hv => exec_msixUnmask_open ho hv
  · intro s fn h0 ht hd
    rw [exec_d3hotEntry_there ht hd, State.enterD3_vf h0]
  · rintro s u ht hd rfl
    exact exec_d3hotEntry_there ht hd
  · intro s fn h0 hn hd
    rw [exec_d0Return_held hn hd, State.returnD0_vf h0]
  · exact fun s hd => exec_d0Return_held (by decide) hd
  · intro s fn h0 ht hf
    rw [exec_flrStart_there ht hf, State.flrStart, if_pos h0]
  · rintro s u ht hf rfl
    exact exec_flrStart_there ht hf
  · exact fun s fn h0 hn hf => exec_flrComplete_vf h0 hn hf
  · exact fun s hf => exec_flrComplete_pf hf

end Sys2Proof.Machine
end

section
/-! PROOFS. The PCIe link (O21, R100, R101, R134, R135): PERST and the loss of the link, training, configuration requests. -/
namespace Sys2Proof.Machine

section
variable {s : State}

/-! ## The link -/

theorem exec_perstAssert_high (hp : s.hif.perst = true) :
    exec .perstAssert s =
      .next ((({ s with hif := { s.hif with perst := false, clkDown := false } } : State).satInc HIF_LINK_CNT.PERST).linkOff.hostReset) := by
  show execPerstAssert s = _
  simp only [execPerstAssert, hp, Bool.not_true, Bool.false_eq_true, if_false]

/-- A hot reset and DL_Down alike are counted and reset the host interface (R134). -/
theorem exec_linkDown_up (hot : Bool) (hu : s.b HIF_LINK_STATUS.UP = true) :
    exec (.linkDown hot) s = .next ((s.satInc HIF_LINK_CNT.DL_DOWN).linkOff.hostReset) := by
  show execLinkDown hot s = _
  simp only [execLinkDown, hu, Bool.not_true, Bool.false_eq_true, if_false]

theorem exec_linkUp_trained {width speed : Nat} (hu : s.b HIF_LINK_STATUS.UP = false) (hp : s.hif.perst = true) (hk : s.hif.clkDown = false)
    (hh : s.power ≠ pwrHIBERNATE) (hw : width ∈ [1, 2, 4, 8, 16]) (h1 : 1 ≤ speed) (h5 : speed ≤ 5) :
    exec (.linkUp width speed 0) s =
      .next ((((s.setF HIF_LINK_STATUS.UP 1).setF HIF_LINK_STATUS.WIDTH width).setF HIF_LINK_STATUS.SPEED speed).pf 7) := by
  have hw' : [1, 2, 4, 8, 16].contains width = true := List.contains_iff_mem.2 hw
  have hs : ¬ (speed = 0 ∨ 5 < speed) := by omega
  show execLinkUp width speed 0 s = _
  simp only [execLinkUp, hu, hp, hk, hh, hw', hs, decide_false, Bool.not_true, Bool.or_self, Bool.false_eq_true, if_false, List.range_zero,
    List.foldl_nil]

/-! ## Configuration requests -/

/-- During boot and during the function's FLR the answer is RRS (R101, R131). -/
theorem exec_configRequest_retry {fn off : Nat} (w : Option (BitVec 32)) (hp : s.hif.perst = true)
    (hb : s.f HIF_DEV_STATE.STATE = 0 ∨ (s.fn fn).inFlr = true) : exec (.configRequest fn w off) s = .next (s.emit (.completion 2 0)) := by
  show execConfigRequest fn w off s = _
  simp only [execConfigRequest, hp, hb, Bool.not_true, Bool.false_eq_true, if_false, if_true]

section
variable {fn off : Nat} (hp : s.hif.perst = true) (hb : s.f HIF_DEV_STATE.STATE ≠ 0) (hf : (s.fn fn).inFlr = false) (ht : s.fnThere fn = true)
include hp hb hf ht

theorem exec_configRequest_write (v : BitVec 32) :
    exec (.configRequest fn (some v) off) s = .next ((s.cfgWrite fn off v).emit (.completion 0 0)) := by
  show execConfigRequest fn (some v) off s = _
  simp only [execConfigRequest, hp, hb, hf, ht, Bool.not_true, Bool.false_eq_true, or_self, if_false]

theorem exec_configRequest_read : exec (.configRequest fn none off) s = .next (s.emit (.completion 0 (s.cfgRead fn off))) := by
  show execConfigRequest fn none off s = _
  simp only [execConfigRequest, hp, hb, hf, ht, Bool.not_true, Bool.false_eq_true, or_self, if_false]

end

end

/-- Settles O21, one clause for each command of the link. -/
theorem linkComplete : Obligations.LinkComplete := by
  refine ⟨?_, ?_, ?_, ?_, ?_, ?_⟩
  · exact fun s hp => exec_perstAssert_high hp
  · exact fun s => rfl
  · exact fun s hot hu => exec_linkDown_up hot hu
  · exact fun s width speed hu hp hk hh hw h1 h5 => exec_linkUp_trained hu hp hk hh hw h1 h5
  · exact fun s fn off w hp hb => exec_configRequest_retry w hp hb
  · exact fun s fn off v hp hb hf ht => ⟨exec_configRequest_write hp hb hf ht v, exec_configRequest_read hp hb hf ht⟩

end Sys2Proof.Machine
end

section
/-! PROOFS. The mailbox (O22, R137 to R140): a GO with each command's request, and a transfer whose next segment does not come. -/
namespace Sys2Proof.Machine

/-- The meaning of each mailbox command is a GO whose request has the command's number. -/
theorem exec_mbxCommand {s : State} {cmd : Nat} {c : Instr}
    (hc : (cmd, c) ∈ [(1, Instr.mbxUpload), (2, .mbxDownload), (3, .mbxUploadComplete), (4, .mbxDownloadComplete), (5, .mbxGetOdList),
      (6, .mbxGetObjectDesc), (7, .mbxGetEntryDesc)]) : exec c s = .next (s.mbxGoAs cmd) := by
  simp only [List.mem_cons, Prod.mk.injEq, List.not_mem_nil, or_false] at hc
  obtain ⟨rfl, rfl⟩ | ⟨rfl, rfl⟩ | ⟨rfl, rfl⟩ | ⟨rfl, rfl⟩ | ⟨rfl, rfl⟩ | ⟨rfl, rfl⟩ | ⟨rfl, rfl⟩ := hc <;> rfl

theorem State.mbxGoAs_of_request {s : State} {cmd : Nat} (ho : s.fnOpen 0 = true) (hd : s.darkAt HIF_MBX_CTRL.word = false)
    (hr : bits (s.word (HIF_MBX_REQ.word 0)).toNat 0 8 = cmd) : s.mbxGoAs cmd = s.mbxGo := by
  simp [State.mbxGoAs, ho, hd, hr]

theorem exec_mbxSegmentTimeout_waiting {s : State} (hx : s.hif.xfer.isSome = true) (hb : s.b HIF_MBX_STATUS.BUSY = false) :
    exec .mbxSegmentTimeout s = .next (s.mbxAbort s.mbxRspBytes 0x05040000) := by
  have hx' : s.hif.xfer.isNone = false := Option.isNone_eq_false_iff.2 hx
  show execMbxSegmentTimeout s = _
  simp only [execMbxSegmentTimeout, hx', hb, Bool.or_self, Bool.false_eq_true, if_false]

/-- Settles O22: the seven commands share one meaning, and the eighth ends a transfer. -/
theorem mailboxComplete : Obligations.MailboxComplete := by
  refine ⟨?_, ?_⟩
  · intro s cmd c hc ho hd hr
    rw [exec_mbxCommand hc, State.mbxGoAs_of_request ho hd hr]
    rfl
  · exact fun s hx hb => exec_mbxSegmentTimeout_waiting hx hb

end Sys2Proof.Machine
end

section
/-! PROOFS. Spool drives (O25, R182, R183, R193, R201, R204, R736): starting and stopping the spool, its drives, the catalogue, and the next epoch. -/
namespace Sys2Proof.Machine

/-! ## Enabling and disabling -/

theorem exec_spoolEnable_off {s : State} (hd : s.poweredDown SPL_CTRL.word = false) (he : s.b SPL_CTRL.ENABLE = false)
    (hm : s.b SPL_CTRL.MIRROR = false) (h0 : s.f SEC_LC.STATE ≠ 0) (h3 : s.f SEC_LC.STATE ≠ 3) :
    exec .spoolEnable s = .next (s.setSpool true).spoolStart := by
  show execSpoolEnable s = _
  simp only [execSpoolEnable, hd, he, hm, h0, h3, decide_false, Bool.false_and, Bool.or_self, Bool.false_eq_true, if_false]

theorem exec_spoolDisable_on {s : State} (hd : s.poweredDown SPL_CTRL.word = false) (he : s.b SPL_CTRL.ENABLE = true) :
    exec .spoolDisable s = .next s.spoolOff := by
  show execSpoolDisable s = _
  simp only [execSpoolDisable, hd, he, Bool.false_eq_true, if_false, if_true]

/-! ## Drives that start (R736) -/

section
variable {s : State} {d : Nat} (hn : d < 4) (hs : s.spl.starting = true)
include hn hs

theorem exec_spoolLinkTrained_starting (up : Bool) (hl : (s.drive d).linkDone = false) :
    exec (.spoolLinkTrained d up) s =
      .next ((s.setDrive d { s.drive d with linkDone := true, linkUp := up, decided := (s.drive d).decided || !up }).driveCheck) := by
  have hn' : ¬ 4 ≤ d := by omega
  show execSpoolLinkTrained d up s = _
  simp only [execSpoolLinkTrained, hn', hs, hl, not_true, Bool.false_eq_true, or_self, if_false]

variable (hu : (s.drive d).linkUp = true) (hd : (s.drive d).decided = false)
include hu hd

/-- A drive that is up and not yet decided on is the case that DRIVE_READY and its timeout act on. -/
theorem State.driveReady_acts : ¬ (4 ≤ d ∨ ¬ s.spl.starting = true ∨ ¬ (s.drive d).linkUp = true ∨ (s.drive d).decided = true) := by
  have hn' : ¬ 4 ≤ d := by omega
  simp [hn', hs, hu, hd]

theorem exec_driveReady_unfit (cap : Nat) :
    exec (.driveReady d false cap) s = .next (((s.emit (.nvme d 5)).setDrive d { s.drive d with decided := true }).driveCheck) := by
  show execDriveReady d false cap s = _
  simp only [execDriveReady, State.driveReady_acts hn hs hu hd, Bool.not_false, if_true, if_false]

/-- An admitted drive gets its 8 queue pairs and counts in the capacity (R184). -/
theorem exec_driveReady_admitted {u v : State} {cap : Nat}
    (hu' : u = ([6, 7] ++ List.replicate 8 8).foldl (fun (t : State) k => t.emit (.nvme d k)) (s.emit (.nvme d 5)))
    (hv : v = (u.setF SPL_STATUS.SSD_PRESENT (setBit (u.f SPL_STATUS.SSD_PRESENT) d true)).setDrive d
      { s.drive d with decided := true, capacity := cap, queues := 8 }) :
    exec (.driveReady d true cap) s = .next (((v.syncCap.pf 452).refreshRefusal).driveCheck) := by
  subst hv hu'
  show execDriveReady d true cap s = _
  simp only [execDriveReady, State.driveReady_acts hn hs hu hd, Bool.not_true, Bool.false_eq_true, if_false]

theorem exec_driveReadyTimeout_starting : exec (.driveReadyTimeout d) s = .next ((s.failDrive d).driveCheck) := by
  show execDriveReadyTimeout d s = _
  simp only [execDriveReadyTimeout, State.driveReady_acts hn hs hu hd, if_false]

end

/-- A drive fails that is admitted, or that is up and not yet decided on. -/
theorem exec_driveFailed_known {s : State} {d : Nat} (hn : d < 4)
    (hk : bit (s.f SPL_STATUS.SSD_PRESENT) d = true ∨ (s.spl.starting = true ∧ (s.drive d).linkUp = true ∧ (s.drive d).decided = false)) :
    exec (.driveFailed d) s = .next ((s.failDrive d).driveCheck).spoolNext := by
  have hn' : ¬ 4 ≤ d := by omega
  show execDriveFailed d s = _
  simp only [execDriveFailed, hn', Bool.not_eq_true, hk, not_true, or_self, if_false]

/-! ## The catalogue and the next epoch -/

theorem exec_spoolRecoveryDone_recovering {s u : State} (hr : s.b SPL_STATUS.RECOVERING = true)
    (hu : u = (s.spl.catalogue.filter (fun c => !s.recovers c)).foldl (fun t c => t.unmap c.drives) s) :
    exec .spoolRecoveryDone s =
      .next (((({ u with spl := { u.spl with copies := u.spl.copies ++ s.spl.catalogue.filter s.recovers, catalogue := [] } } :
        State).recharge.retrySalts).setF SPL_STATUS.RECOVERING 0).pf 452) := by
  subst hu
  show execSpoolRecoveryDone s = _
  simp only [execSpoolRecoveryDone, hr, Bool.not_true, Bool.false_eq_true, if_false]

/-- The salts of the new epoch are written where its journal record stands. -/
theorem exec_epochRollover_spent {s t : State} (j b salts : Bool) (hs : s.ctrSpent = true) (ht : t = s.startEpoch j b) :
    exec (.epochRollover j b salts) s = .next (if salts && t.spl.journalOk then t.writeSalts else t).refreshRefusal.sealAll := by
  subst ht
  show execEpochRollover j b salts s = _
  simp only [execEpochRollover, hs, Bool.not_true, Bool.false_eq_true, if_false]

/-- Settles O25, one clause for each command of the drives. -/
theorem spoolDrivesComplete : Obligations.SpoolDrivesComplete := by
  refine ⟨?_, ?_, ?_, ?_, ?_, ?_, ?_, ?_, ?_, ?_⟩
  · exact fun s hd he hm h0 h3 => exec_spoolEnable_off hd he hm h0 h3
  · exact fun s hd he => exec_spoolDisable_on hd he
  · exact fun s d up hn hs hl => exec_spoolLinkTrained_starting hn hs up hl
  · exact fun s d cap hn hs hu hd => exec_driveReady_unfit hn hs hu hd cap
  · exact fun s u v d cap hn hs hu hd hu' hv => exec_driveReady_admitted hn hs hu hd hu' hv
  · exact fun s d hn hs hu hd => exec_driveReadyTimeout_starting hn hs hu hd
  · exact fun s d hn hk => exec_driveFailed_known hn hk
  · exact fun s u hr hu => exec_spoolRecoveryDone_recovering hr hu
  · exact fun s j b hs => exec_epochRollover_spent j b false hs rfl
  · intro s j b hs hj
    rw [exec_epochRollover_spent j b true hs rfl, hj]
    rfl

end Sys2Proof.Machine
end

section
/-! PROOFS. Siphon channels (O23): what each write of a channel's registers does where it is taken and where the channel's state or role forbids it. -/
namespace Sys2Proof.Machine

/-- The entries not yet fetched, were the tail at `tail`: an ACTIVE channel has fetched the one at its head. -/
abbrev State.chPending (s : State) (ch tail : Nat) : Nat :=
  (tail + 2 * 2 ^ s.f (SIP_CH_RING_SIZE.LOG2 ch) - (s.f (SIP_CH_HEAD.HEAD ch) + if s.chState ch = chACTIVE then 1 else 0)) %
    2 ^ s.f (SIP_CH_RING_SIZE.LOG2 ch)

section
variable {s : State} {ch : Nat} (hc : ch < 64)
include hc

/-! ## Owner and role (R145) -/

section
variable {v : BitVec 32} (hd : s.poweredDown (SIP_CH_ASSIGN.word ch) = false) (hw : v &&& 0x003F3F3F#32 ≠ s.word (SIP_CH_ASSIGN.word ch))
include hd hw

/-- COMPOSE and SPOOL are roles of the PF alone; what waits on the channel goes to another of the role it had. -/
theorem exec_chAssignWrite_free (hf : s.chState ch = chDISABLED ∨ (s.chRole ch ≠ 0 ∧ s.chState ch = chIDLE))
    (hr : getField v 4 2 < 2 ∨ getField v 0 4 = 0) :
    exec (.chAssignWrite ch v) s =
      .next ((s.chan ch).todo.foldl (fun (t : State) j => t.moveJob (s.chRole ch) (s.chOwner ch) j)
        ((((s.setWord (SIP_CH_ASSIGN.word ch) (v &&& 0x003F3F3F#32)).setB (SIP_CH_CTRL.ENABLE ch) (getField v 4 2 ≠ 0)).setChan ch {}).setCh ch
          (if getField v 4 2 = 0 then chDISABLED else chIDLE))).endEngineShort := by
  have hfree : (decide (s.chState ch = chDISABLED) || decide (s.chRole ch ≠ 0) && decide (s.chState ch = chIDLE)) = true := by
    simpa only [Bool.or_eq_true, Bool.and_eq_true, decide_eq_true_eq] using hf
  have hrole : (decide (2 ≤ getField v 4 2) && decide (getField v 0 4 ≠ 0)) = false := by
    simp only [Bool.and_eq_false_iff, decide_eq_false_iff_not]
    omega
  show execChAssignWrite ch v s = _
  simp only [execChAssignWrite, Nat.not_le.2 hc, hd, hw, hfree, hrole, Bool.not_false, Bool.and_self, Bool.false_eq_true, if_false, if_true]

theorem exec_chAssignWrite_busy (ha : s.chState ch = chACTIVE) : exec (.chAssignWrite ch v) s = .next (s.raise SIP_STATUS.ASSIGN_REFUSED) := by
  have hon : chACTIVE ≠ chDISABLED := by decide
  have hrest : chACTIVE ≠ chIDLE := by decide
  show execChAssignWrite ch v s = _
  simp only [execChAssignWrite, Nat.not_le.2 hc, hd, hw, ha, hon, hrest, decide_false, Bool.and_false, Bool.or_self, Bool.false_and,
    Bool.false_eq_true, if_false]

end

/-! ## Enabling and disabling (R160, R163) -/

section
variable (hd : s.poweredDown (SIP_CH_CTRL.word ch) = false)
include hd

theorem exec_chEnable_off (he : s.b (SIP_CH_CTRL.ENABLE ch) = false) (hr : s.chRole ch = 0) (h4 : 4 ≤ s.f (SIP_CH_RING_SIZE.LOG2 ch))
    (h12 : s.f (SIP_CH_RING_SIZE.LOG2 ch) ≤ 12) :
    exec (.chEnable ch) s =
      .next (((((s.setF (SIP_CH_HEAD.HEAD ch) 0).setF (SIP_CH_TAIL.TAIL ch) 0).setF (SIP_CH_CTRL.ENABLE ch) 1).setChan ch {}).setCh ch chIDLE) := by
  show execChEnable ch s = _
  simp only [execChEnable, Nat.not_le.2 hc, hd, he, hr, h4, h12, Bool.false_eq_true, and_false, and_self, or_self, if_false, if_true]

theorem exec_chDisable_on (he : s.b (SIP_CH_CTRL.ENABLE ch) = true) (hr : s.chRole ch = 0) (ha : s.chState ch ≠ chACTIVE) :
    exec (.chDisable ch) s =
      .next ((((s.setF (SIP_CH_CTRL.ENABLE ch) 0).setF (SIP_CH_TAIL.TAIL ch) 0).setChan ch {}).setCh ch chDISABLED) := by
  show execChDisable ch s = _
  simp only [execChDisable, Nat.not_le.2 hc, hd, he, hr, ha, ne_eq, not_true, Bool.false_eq_true, and_false, or_self, if_false]

/-! ## Aborting and resuming (R171, R173) -/

/-- The descriptor in hand has not ended yet: it ends ABORTED, whether or not RESUME is written with ABORT. -/
theorem exec_chAbort_active (go : Bool) {x : SipXfer} (hr : s.chRole ch = 0) (ha : s.chState ch = chACTIVE) (hx : (s.chan ch).xfer = some x)
    (hk : x.code = none) :
    exec (.chAbort ch go) s = .next (s.setChan ch { s.chan ch with xfer := some { x with code := some 0x01 } }) := by
  show execChAbort ch go s = _
  simp only [execChAbort, Nat.not_le.2 hc, hd, hr, ha, hx, hk, ne_eq, not_true, Bool.false_eq_true, and_false, if_false]

theorem exec_chAbort_deviceDriven (go : Bool) (hr : s.chRole ch ≠ 0) : exec (.chAbort ch go) s = .next (s.raise (SIP_CH_STATE.CTRL_REFUSED ch)) := by
  show execChAbort ch go s = _
  simp only [execChAbort, Nat.not_le.2 hc, hd, eq_true hr, Bool.false_eq_true, and_false, if_false, if_true]

theorem exec_chResume_stopped (hr : s.chRole ch = 0) (hs : s.chState ch = chSTOPPED) (hstop : s.stopActive = false) :
    exec (.chResume ch) s = .next (s.setCh ch chIDLE) := by
  show execChResume ch s = _
  simp only [execChResume, Nat.not_le.2 hc, hd, hr, hs, hstop, ne_eq, not_true, not_false_eq_true, Bool.false_eq_true, and_false, and_self, if_false, if_true]

theorem exec_chResume_deviceDriven (hr : s.chRole ch ≠ 0) : exec (.chResume ch) s = .next (s.raise (SIP_CH_STATE.CTRL_REFUSED ch)) := by
  show execChResume ch s = _
  simp only [execChResume, Nat.not_le.2 hc, hd, eq_true hr, Bool.false_eq_true, and_false, if_false, if_true]

end

/-! ## Doorbells (R161) -/

section
variable {tail : Nat} (hd : s.poweredDown (SIP_CH_TAIL.word ch) = false) (hr : s.chRole ch = 0)
include hd hr

theorem exec_chDoorbell_forward (hs : s.chState ch ≠ chDISABLED) (ht : tail < 2 ^ s.f (SIP_CH_RING_SIZE.LOG2 ch))
    (hp : s.chPending ch (s.f (SIP_CH_TAIL.TAIL ch)) ≤ s.chPending ch tail) :
    exec (.chDoorbell ch tail) s = .next (s.setF (SIP_CH_TAIL.TAIL ch) tail) := by
  show execChDoorbell ch tail s = _
  simp only [execChDoorbell, Nat.not_le.2 hc, hd, hr, hs, Nat.not_le.2 ht, Nat.not_lt.2 hp, ne_eq, not_true, decide_false, Bool.or_self, Bool.false_and,
    Bool.false_eq_true, and_false, or_self, if_false]

theorem exec_chDoorbell_beyond (hs : s.chState ch = chIDLE) (ht : 2 ^ s.f (SIP_CH_RING_SIZE.LOG2 ch) ≤ tail) :
    exec (.chDoorbell ch tail) s = .next ((s.setChan ch { s.chan ch with fetching := false }).ringError ch) := by
  have hon : chIDLE ≠ chDISABLED := by decide
  have hgo : chIDLE ≠ chSTOPPED := by decide
  have hrest : chIDLE ≠ chACTIVE := by decide
  show execChDoorbell ch tail s = _
  simp only [execChDoorbell, Nat.not_le.2 hc, hd, hr, hs, ht, hon, hgo, hrest, ne_eq, not_true, not_false_eq_true, decide_true, Bool.true_or,
    Bool.and_self, Bool.false_eq_true, and_false, or_self, if_false, if_true]

end
end

/-! ## DRAM windows (R151) -/

/-- While the function's channels are quiet only a window outside the free pool is ignored (assumption log 20). -/
theorem exec_fnWinWrite_quiet {s : State} {fn : Nat} {v : BitVec 32} (h1 : 1 ≤ fn) (h16 : fn < 16) (hd : s.poweredDown (SIP_FN_WIN.word fn) = false)
    (hq : ∀ ch < 64, s.chOwner ch = fn → s.chState ch ≤ chIDLE) :
    exec (.fnWinWrite fn v) s =
      .next (if getField v 16 12 * 64 * MiB = 0 ∨
                (s.freeBase ≤ getField v 0 12 * 64 * MiB ∧ getField v 0 12 * 64 * MiB + getField v 16 12 * 64 * MiB ≤ s.dramEnd)
             then s.setWord (SIP_FN_WIN.word fn) (v &&& 0x0FFF0FFF#32) else s.raise SIP_STATUS.WIN_REFUSED) := by
  have hfn : ¬ (fn = 0 ∨ 16 ≤ fn) := by omega
  have hquiet : (List.range 64).all (fun ch => s.chOwner ch ≠ fn || decide (s.chState ch ≤ chIDLE)) = true := by
    simpa only [List.all_eq_true, List.mem_range, Bool.or_eq_true, decide_eq_true_eq, Decidable.or_iff_not_imp_left, ne_eq, Decidable.not_not] using hq
  show execFnWinWrite fn v s = _
  simp only [execFnWinWrite, hfn, hd, hquiet, Bool.true_and, Bool.or_eq_true, Bool.and_eq_true, decide_eq_true_eq, Bool.false_eq_true, if_false,
    apply_ite Host.Outcome.next]

/-- Settles O23, one clause for each write that a channel or a window takes or refuses. -/
theorem channelsComplete : Obligations.ChannelsComplete := by
  refine ⟨?_, ?_, ?_, ?_, ?_, ?_, ?_, ?_, ?_, ?_⟩
  · exact fun s ch v hc hd hf hr hw => exec_chAssignWrite_free hc hd hw hf hr
  · exact fun s ch v hc hd ha hw => exec_chAssignWrite_busy hc hd hw ha
  · exact fun s fn v h1 h16 hd hq => exec_fnWinWrite_quiet h1 h16 hd hq
  · exact fun s ch hc hd he hr h4 h12 => exec_chEnable_off hc hd he hr h4 h12
  · exact fun s ch hc hd he hr ha => exec_chDisable_on hc hd he hr ha
  · exact fun s ch tail hc hd hr hs ht hp => exec_chDoorbell_forward hc hd hr hs ht (hp _ rfl)
  · exact fun s ch tail hc hd hr hs ht => exec_chDoorbell_beyond hc hd hr hs ht
  · exact fun s ch go x hc hd hr ha hx hk => exec_chAbort_active hc hd go hr ha hx hk
  · exact fun s ch hc hd hr hs hstop => exec_chResume_stopped hc hd hr hs hstop
  · exact fun s ch go hc hd hr => ⟨exec_chAbort_deviceDriven hc hd go hr, exec_chResume_deviceDriven hc hd hr⟩

end Sys2Proof.Machine
end

section
/-! PROOFS. Siphon transfers (O24): a descriptor is fetched, checked and begun, moves its data in granted bursts and completes. -/
namespace Sys2Proof.Machine

section
variable {s : State} {ch : Nat} (hc : ch < 64)
include hc

/-! ## Descriptors (R153, R162) -/

section
variable (hoff : s.sip.off = false)
include hoff

/-- A channel of a Siphon that is on is the case that CH_DESCRIPTOR acts on. -/
theorem State.chDescriptor_acts : ¬ (64 ≤ ch ∨ s.sip.off = true) := by
  simp only [Nat.not_le.2 hc, hoff, Bool.false_eq_true, or_self, not_false_eq_true]

theorem exec_chDescriptorFetch_waiting (hr : s.chRole ch = 0) (hs : s.chState ch = chIDLE) (hf : (s.chan ch).fetching = false)
    (hq : s.hostRequests < 512) (ht : s.f (SIP_CH_TAIL.TAIL ch) ≠ s.f (SIP_CH_HEAD.HEAD ch)) :
    exec (.chDescriptorFetch ch) s = .next (s.setChan ch { s.chan ch with fetching := true }) := by
  show execChDescriptorFetch ch s = _
  simp only [execChDescriptorFetch, Nat.not_le.2 hc, hr, hs, hf, hoff, Nat.not_le.2 hq, ht, ne_eq, not_true, Bool.false_eq_true, or_self, if_false]

/-- The descriptor that arrives begins, or is to complete with the code of the check it fails. -/
theorem exec_chDescriptor_fetched (b : List (BitVec 8)) (hr : s.chRole ch = 0) (hs : s.chState ch = chIDLE) (hf : (s.chan ch).fetching = true) :
    exec (.chDescriptor ch (some b)) s =
      .next (((s.setChan ch { s.chan ch with
        fetching := false,
        xfer := some (if s.sipCheck ch (parseSip b) ≠ 0 then { desc := parseSip b, code := some (s.sipCheck ch (parseSip b)) }
                      else if (parseSip b).dstSpace = spSPOOL ∧ s.splRefused = true then { desc := parseSip b, code := some 0x32 }
                      else { desc := parseSip b, started := true }) }).setCh ch chACTIVE).fetchReads ch) := by
  show execChDescriptor ch (some b) s = _
  simp only [execChDescriptor, State.chDescriptor_acts hc hoff, hr, hs, hf, ne_eq, not_true, decide_false, Bool.not_true, Bool.or_self,
    Bool.false_eq_true, if_false, if_true]

/-- A device-driven channel takes its next descriptor from the device, whatever a host read would answer. -/
theorem exec_chDescriptor_next {j : SipJob} {d : SipDesc} {t : List (SipJob × SipDesc)} (b : Option (List (BitVec 8))) (hr : s.chRole ch ≠ 0)
    (ht : (s.chan ch).todo = (j, d) :: t) (hx : (s.chan ch).xfer = none) (hh : s.sip.held = false) :
    exec (.chDescriptor ch b) s =
      .next (((s.setChan ch { s.chan ch with todo := t, xfer := some { desc := d, job := some j, started := true } }).setCh ch chACTIVE).fetchReads ch) := by
  show execChDescriptor ch b s = _
  simp only [execChDescriptor, State.chDescriptor_acts hc hoff, hr, ht, hx, hh, Option.isSome_none, Bool.or_self, Bool.false_eq_true, if_false]

end

/-! ## Completion (R164, R165) -/

section
variable {x : SipXfer} {code : Nat} (hx : (s.chan ch).xfer = some x) (hk : x.code = some code) (hw : x.barrierWait = false)
include hx hk hw

theorem exec_descriptorComplete_plain (hb : x.desc.flags.getLsbD 0 = false) :
    exec (.descriptorComplete ch) s = .next ((s.sealPart (s.chOwner ch) x).finishDesc ch x code) := by
  show execDescriptorComplete ch s = _
  simp only [execDescriptorComplete, Nat.not_le.2 hc, hx, hk, hw, hb, Bool.false_and, Bool.false_eq_true, if_false]

/-- A barrier toward the host that is still to be met: a zero-length read at the address last written goes out first (R165). -/
theorem exec_descriptorComplete_hostBarrier {u : State} (hb : x.desc.flags.getLsbD 0 = true) (hs : x.started = true) (hm : x.barrierMet = false)
    (hn : x.moved ≠ 0) (hj : x.job = none) (hd : x.desc.dstSpace = spHOST) (hu : u = s.sealPart (s.chOwner ch) x) (hq : u.hostRequests < 512) :
    exec (.descriptorComplete ch) s =
      .next ((u.setChan ch { u.chan ch with xfer := some { x with barrierWait := true } }).emit
        (.hostZeroRead (u.chOwner ch) (BitVec.ofNat 64 x.lastDst))) := by
  subst hu
  have hdue : (x.desc.flags.getLsbD 0 && x.started && !x.barrierMet && decide (x.moved ≠ 0) && x.job.isNone) = true := by
    simp only [hb, hs, hm, hn, hj, ne_eq, not_false_eq_true, decide_true, Option.isNone_none, Bool.not_false, Bool.and_self]
  show execDescriptorComplete ch s = _
  simp only [execDescriptorComplete, Nat.not_le.2 hc, hx, hk, hw, hdue, hd, Nat.not_le.2 hq, Bool.false_eq_true, if_false, if_true]

end

/-- The zero-length read answers, or fails and takes the descriptor with it. -/
theorem exec_barrierReadComplete_waiting {x : SipXfer} (ok : Bool) (hx : (s.chan ch).xfer = some x) (hw : x.barrierWait = true)
    (hd : x.desc.dstSpace = spHOST) :
    exec (.barrierReadComplete ch ok) s =
      .next (if ok then s.finishDesc ch { x with barrierMet := true, barrierWait := false } (x.code.getD 0)
        else s.finishDesc ch { x with barrierWait := false, abortLate := false } 0x21) := by
  show execBarrierReadComplete ch ok s = _
  simp only [execBarrierReadComplete, Nat.not_le.2 hc, hx, hw, hd, ne_eq, not_true, decide_false, Bool.not_true, Bool.or_self, Bool.false_eq_true, if_false,
    apply_ite Host.Outcome.next]

end

/-! ## Bursts (R159) -/

section
variable {s : State} {ch : Nat} {x : SipXfer} {sip : Sip} (hg : s.grant = some (ch, sip)) (hx : (s.chan ch).xfer = some x)
  (data : List (BitVec 8)) (offs : List (BitVec 32)) (fail : Nat)
include hg hx

theorem exec_sipBurst_host (hj : x.job = none) :
    exec (.sipBurst ch data offs fail) s = .next ((({ s with sip := sip } : State).hostBurst ch x data offs fail).fetchReads ch) := by
  show execSipBurst ch data offs fail s = _
  simp only [execSipBurst, hg, hx, hj, ne_eq, not_true, if_false]

/-- Room is made in the station's raster ring before the bytes of its stream land there (R411). -/
theorem exec_sipBurst_ingest {page st : Nat} (hj : x.job = some (.ingest page st)) :
    exec (.sipBurst ch data offs fail) s =
      .next (((({ s with sip := sip } : State).ringRoom st (min 4096 (x.desc.count - x.moved)) 8192).jobBurst ch x (.ingest page st) data
        fail).fetchReads ch) := by
  show execSipBurst ch data offs fail s = _
  simp only [execSipBurst, hg, hx, hj, ne_eq, not_true, if_false]

end

/-- Settles O24, one clause for each command of a transfer. -/
theorem transfersComplete : Obligations.TransfersComplete := by
  refine ⟨?_, ?_, ?_, ?_, ?_, ?_, ?_, ?_⟩
  · exact fun s ch hc hr hs hf hoff hq ht => exec_chDescriptorFetch_waiting hc hoff hr hs hf hq ht
  · exact fun s ch b hc hr hs hf hoff => exec_chDescriptor_fetched hc hoff b hr hs hf
  · exact fun s ch j d t b hc hr ht hx hh hoff => exec_chDescriptor_next hc hoff b hr ht hx hh
  · exact fun s ch fail x sip data offs hg hx hj => exec_sipBurst_host hg hx data offs fail hj
  · exact fun s ch fail st page x sip data offs hg hx hj => exec_sipBurst_ingest hg hx data offs fail hj
  · exact fun s ch code x hc hx hk hw hb => exec_descriptorComplete_plain hc hx hk hw hb
  · exact fun s u ch code x hc hx hk hw hb hs hm hn hj hd hu hq => exec_descriptorComplete_hostBarrier hc hx hk hw hb hs hm hn hj hd hu hq
  · exact fun s ch x hc hx hw hd =>
      ⟨exec_barrierReadComplete_waiting hc true hx hw hd, exec_barrierReadComplete_waiting hc false hx hw hd⟩

end Sys2Proof.Machine
end

section
/-! PROOFS. NVMe commands and slices (O26, R183, R187, R190, R194, R206): how a command to a drive ends, and what a slice's quota, direct region, trim and
listing come to. -/
namespace Sys2Proof.Machine

/-! ## Commands to the drives (R183, R190) -/

section
variable {s u : State} {id : Nat} {c : NvmeCmd} (hc : s.spl.cmds.find? (fun c => c.id = id) = some c)
include hc

section
variable (hu : u = { s with spl := { s.spl with cmds := s.spl.cmds.filter (fun x => x.id ≠ id) } })
include hu

theorem exec_nvmeCommandComplete_done : exec (.nvmeCommandComplete id 0) s = .next (u.cmdDone c.op).spoolNext := by
  subst hu
  show execNvmeCommandComplete id 0 s = _
  simp only [execNvmeCommandComplete, hc]

/-- A command that failed counts against its drive, whichever operation it was for (R183). -/
theorem exec_nvmeCommandComplete_failed :
    exec (.nvmeCommandComplete id 1) s = .next ((u.cmdFailed c.op).countFailure c.drive).spoolNext := by
  subst hu
  show execNvmeCommandComplete id 1 s = _
  simp only [execNvmeCommandComplete, hc]

/-- A read whose extent does not verify fails its descriptor; the drive did its part and no failure is counted against it (R205). -/
theorem exec_nvmeCommandComplete_unverified {ch e : Nat} {x : SipXfer} (ho : c.op = .read ch e) (hx : (u.chan ch).xfer = some x) :
    exec (.nvmeCommandComplete id 2) s = .next ((u.readFailed (u.readFn ch x) true).endRead ch e false).spoolNext := by
  subst hu
  show execNvmeCommandComplete id 2 s = _
  simp only [execNvmeCommandComplete, hc, ho, hx]

end

/-- The command is sent again unless the failure it counts as took its drive, and the command with it. -/
theorem exec_nvmeCommandTimeout_open (hu : u = s.countFailure c.drive) :
    exec (.nvmeCommandTimeout id) s =
      .next (if u.spl.cmds.any (fun x => x.id = id) then u.emit (.nvme c.drive c.op.kind) else u.spoolNext) := by
  subst hu
  show execNvmeCommandTimeout id s = _
  simp only [execNvmeCommandTimeout, hc]

end

/-! ## Writes of a slice's registers -/

section
variable {s : State} {fn : Nat} (hfn : fn < 16)
include hfn

theorem exec_sliceQuotaWrite_quota {v : BitVec 32} (hd : s.poweredDown (SPL_QUOTA.word fn) = false) :
    exec (.sliceQuotaWrite fn false v) s =
      .next ((s.setF (SPL_QUOTA.EXTENTS fn) (getField v 0 30)).setF (SPL_SL_QUOTA.EXTENTS fn) (getField v 0 30)) := by
  show execSliceQuotaWrite fn false v s = _
  simp only [execSliceQuotaWrite, hd, Nat.not_le.2 hfn, Bool.false_eq_true, and_false, if_false]

/-- A direct region above the quota is refused; a lower one gives back the extents from its new end on (R187). -/
theorem exec_sliceQuotaWrite_direct {v : BitVec 32} (hd : s.poweredDown (SPL_DIRECT.word fn) = false) :
    exec (.sliceQuotaWrite fn true v) s =
      .next (if s.f (SPL_QUOTA.EXTENTS fn) < getField v 0 30 then s.raise (SPL_SL_STATUS.CFG_REFUSED fn)
             else ((s.setF (SPL_DIRECT.EXTENTS fn) (getField v 0 30)).setF (SPL_SL_DIRECT.EXTENTS fn) (getField v 0 30)).dropDirect fn
               (fun d => decide (getField v 0 30 ≤ d.ext))) := by
  show execSliceQuotaWrite fn true v s = _
  simp only [execSliceQuotaWrite, hd, Nat.not_le.2 hfn, Bool.false_eq_true, and_false, if_false, if_true, apply_ite Host.Outcome.next]

section
variable {n : Nat} (hn : n ≠ 0)
include hn

/-- The extents in flight are counted on the state before the others are dropped. -/
theorem exec_sliceTrim_idle {u : State} {a : Nat} (hd : s.poweredDown (SPL_SL_TRIM.word fn) = false) (ht : s.spl.trims.get? fn = none)
    (ha : a = s.f (SPL_SL_TRIM_START.EXTENT fn))
    (hu : u = s.dropDirect fn (fun d => decide (a ≤ d.ext ∧ d.ext < a + n) && !d.inFlight)) :
    exec (.sliceTrim fn n) s =
      .next { u with spl := { u.spl with
        trims := u.spl.trims.put fn
          (s.spl.direct.filter (fun d => d.fn = fn && decide (a ≤ d.ext ∧ d.ext < a + n) && d.inFlight)).length } } := by
  subst hu ha
  show execSliceTrim fn n s = _
  simp only [execSliceTrim, hd, Nat.not_le.2 hfn, hn, ht, Option.isSome_none, Bool.false_eq_true, and_false, or_self, if_false]

theorem exec_sliceEnum_idle (hd : s.poweredDown (SPL_SL_ENUM_CTRL.word fn) = false) (he : s.spl.enums.get? fn = none) :
    exec (.sliceEnum fn n) s = .next { s with spl := { s.spl with enums := s.spl.enums.put fn n } } := by
  show execSliceEnum fn n s = _
  simp only [execSliceEnum, hd, Nat.not_le.2 hfn, hn, he, Option.isSome_none, Bool.false_eq_true, and_false, or_self, if_false]

end

end

/-! ## Ends of a trim and of a listing (R194, R206) -/

theorem exec_sliceTrimDone_running {s : State} {fn k : Nat} (ht : s.spl.trims.get? fn = some k) :
    exec (.sliceTrimDone fn) s =
      .next (((({ s with spl := { s.spl with trims := s.spl.trims.erase fn } } : State).setF (SPL_SL_TRIM_DONE.SKIPPED fn) k).raise
        (SPL_SL_STATUS.TRIM_DONE fn)).sliceVector fn) := by
  show execSliceTrimDone fn s = _
  simp only [execSliceTrimDone, ht]

/-- A listing that finds a page is written to host memory before its count is shown. -/
theorem exec_sliceEnumDone_running {s u : State} {fn k : Nat} {ids : List (BitVec 64)} (he : s.spl.enums.get? fn = some k)
    (hids : ids = ((s.spl.copies.filter (fun c => c.fn = fn)).map (fun c => c.pageId)).take k) (hne : ids ≠ [])
    (hu : u = ({ s with spl := { s.spl with enums := s.spl.enums.erase fn } } : State).emit
      (.hostWrite fn (BitVec.ofNat 64 (s.f (SPL_SL_ENUM_HI.ADDR fn) * 2 ^ 32 + s.f (SPL_SL_ENUM_LO.ADDR fn) * 64))
        (ids.flatMap (fun i => leBytes 8 i.toNat)))) :
    exec (.sliceEnumDone fn) s =
      .next (((u.setF (SPL_SL_ENUM_CNT.COUNT fn) ids.length).raise (SPL_SL_STATUS.ENUM_DONE fn)).sliceVector fn) := by
  have hempty : ids.isEmpty = false := List.isEmpty_eq_false_iff.2 hne
  subst hu hids
  show execSliceEnumDone fn s = _
  simp only [execSliceEnumDone, he, hempty, Bool.false_eq_true, if_false]

/-- Settles O26, one clause for each end of a command and each command of a slice. -/
theorem slicesComplete : Obligations.SlicesComplete := by
  refine ⟨?_, ?_, ?_, ?_, ?_, ?_, ?_, ?_, ?_, ?_⟩
  · rintro s u v id c hc hu rfl
    exact exec_nvmeCommandComplete_done hc hu
  · rintro s u v id c hc hu rfl
    exact exec_nvmeCommandComplete_failed hc hu
  · exact fun s u id ch e c x hc ho hu hx => exec_nvmeCommandComplete_unverified hc hu ho hx
  · exact fun s u id c hc hu => exec_nvmeCommandTimeout_open hc hu
  · exact fun s fn v hfn hd => exec_sliceQuotaWrite_quota hfn hd
  · exact fun s fn v hfn hd => exec_sliceQuotaWrite_direct hfn hd
  · exact fun s u fn n a hfn hd hn ht ha hu => exec_sliceTrim_idle hfn hn hd ht ha hu
  · exact fun s fn k ht => exec_sliceTrimDone_running ht
  · exact fun s fn n hfn hd hn he => exec_sliceEnum_idle hfn hn hd he
  · exact fun s u fn k ids he hids hne hu => exec_sliceEnumDone_running he hids hne hu

end Sys2Proof.Machine
end

section
/-! PROOFS. Codec jobs (O27, R240, R243, R244, R245, R247): the controls of a slot, a job that ends, and an open encode that waits for input. -/
namespace Sys2Proof.Machine

/-! ## A write of KOR_JOB_CTRL (R240) -/

section
variable {s : State} {j : Nat} (hd : s.poweredDown (KOR_JOB_CTRL.word j) = false)
include hd

theorem State.jobCtrl_hostSlot (v : Nat) (hj : j < 6) : s.jobCtrl j v = none := by
  have hj8 : ¬ 8 ≤ j := by omega
  simp only [State.jobCtrl, hj8, hd, Nat.not_le.2 hj, Bool.false_eq_true, if_false]

theorem State.jobCtrl_deviceSlot (v : Nat) (hj : 6 ≤ j) (hj8 : j < 8) :
    s.jobCtrl j v = some (s.reportAccess 0x04 0x05 2 0 (KOR_JOB_CTRL.word j) v) := by
  simp only [State.jobCtrl, Nat.not_le.2 hj8, hd, hj, Bool.false_eq_true, if_false, if_true]

theorem exec_korJobAbort_deviceSlot (hj : 6 ≤ j) (hj8 : j < 8) :
    exec (.korJobAbort j) s = .next (s.reportAccess 0x04 0x05 2 0 (KOR_JOB_CTRL.word j) 8) := by
  show execKorJobAbort j s = _
  simp only [execKorJobAbort, State.jobCtrl_deviceSlot hd 8 hj hj8]

end

/-! ## Controls that reach a slot (R243, R244, R245) -/

/-- FLUSH and CLOSE of the write are carried out after its GO, in that order. -/
theorem exec_korJobGo_reached {s : State} {j : Nat} {flush close : Bool}
    (hc : s.jobCtrl j (1 + (if flush then 2 else 0) + (if close then 4 else 0)) = none) :
    exec (.korJobGo j flush close) s =
      .next (if close then (if flush then (s.jobGo j).jobFlush j else s.jobGo j).jobClose j
             else if flush then (s.jobGo j).jobFlush j else s.jobGo j) := by
  show execKorJobGo j flush close s = _
  simp only [execKorJobGo, hc]

theorem exec_korJobFlush_reached {s : State} {j : Nat} {close : Bool} (hc : s.jobCtrl j (2 + (if close then 4 else 0)) = none) :
    exec (.korJobFlush j close) s = .next (if close then (s.jobFlush j).jobClose j else s.jobFlush j) := by
  show execKorJobFlush j close s = _
  simp only [execKorJobFlush, hc]

theorem exec_korJobClose_reached {s : State} {j : Nat} (hc : s.jobCtrl j 4 = none) :
    exec (.korJobClose j) s = .next (s.jobClose j) := by
  show execKorJobClose j s = _
  simp only [execKorJobClose, hc]

theorem exec_korJobAbort_reached {s : State} {j : Nat} (hc : s.jobCtrl j 8 = none) :
    exec (.korJobAbort j) s =
      .next (if s.jobEndsNow j then s else if s.jobState j = jobRUNNING ∨ s.jobState j = jobWAITING then s.cutJob j 0x01 (s.jobLen j)
             else s.jobRefused j) := by
  show execKorJobAbort j s = _
  simp only [execKorJobAbort, hc]

/-! ## A running job meets the end of its input (R244, R246, R247) -/

section
variable {s : State} {j : Nat} (hj : j < 6) (hr : s.jobState j = jobRUNNING)
include hj hr

/-- A running job of a host slot is the case that KOR_JOB_DONE acts on. -/
theorem State.korJobDone_acts : ¬ (6 ≤ j ∨ s.jobState j ≠ jobRUNNING) :=
  not_or.2 ⟨Nat.not_le.2 hj, fun hne => hne hr⟩

theorem exec_korJobDone_whole (ho : s.jobOpen j = false) :
    exec (.korJobDone j none) s = .next ((s.showRun j (s.runSlot j (s.jobLen j))).endJob j (s.runSlot j (s.jobLen j)).code) := by
  show execKorJobDone j none s = _
  simp only [execKorJobDone, State.korJobDone_acts hj hr, ho, Bool.false_eq_true, if_false]

/-- An uncorrectable error within the input ends the job at the byte that it hit. -/
theorem exec_korJobDone_uncorrectable {a : Nat} (ho : s.jobOpen j = false) (ha : a < s.jobLen j) :
    exec (.korJobDone j (some a)) s = .next (s.cutJob j 0x30 a) := by
  show execKorJobDone j (some a) s = _
  simp only [execKorJobDone, State.korJobDone_acts hj hr, ho, ha, decide_true, Option.getD_some, Bool.false_eq_true, if_false, if_true]

/-- An open encode whose header is out and that holds neither FLUSH nor CLOSE emits the full blocks of its new input, and waits for more. -/
theorem exec_korJobWaiting_consumed {u v : State} (ho : s.jobOpen j = true) (hf : (s.job j).flush = false) (hc : (s.job j).close = false)
    (hu : u = (s.setJob j { s.job j with
        input := (s.job j).input ++ s.dram.bytes (s.jobSrc j + (s.job j).input.length) (s.jobLen j - (s.job j).input.length) }).setF
      (KOR_JOB_IN_DONE.BYTES j) (s.jobLen j))
    (hheader : u.f (KOR_JOB_OUT_DONE.BYTES j) ≠ 0) (hur : u.jobState j = jobRUNNING) (hv : v = u.openEmit j false (u.openFuel j))
    (hvr : v.jobState j = jobRUNNING) :
    exec (.korJobWaiting j) s = .next ((v.setJobState j jobWAITING).event (96 + j)) := by
  have hacts : ¬ (6 ≤ j ∨ s.jobState j ≠ jobRUNNING ∨ ¬ s.jobOpen j = true) :=
    not_or.2 ⟨Nat.not_le.2 hj, not_or.2 ⟨fun hne => hne hr, fun hno => hno ho⟩⟩
  -- `u` keeps the two held controls as fields of the slot, so the steps are followed to `v` before `hf` and `hc` give their values.
  dsimp only at hu
  show execKorJobWaiting j s = _
  simp only [execKorJobWaiting, hacts, ← hu, hheader, hur, ← hv, hvr, ne_eq, not_true, if_false, if_true]
  simp only [hf, hc, Bool.false_and, Bool.false_eq_true, if_false]

end

/-- Settles O27, one clause for each control of a slot and each end of its input. -/
theorem codecComplete : Obligations.CodecComplete := by
  refine ⟨?_, ?_, ?_, ?_, ?_, ?_, ?_, ?_, ?_⟩
  · exact fun s j flush close hc => exec_korJobGo_reached hc
  · exact fun s j close hc => exec_korJobFlush_reached hc
  · exact fun s j hc => exec_korJobClose_reached hc
  · exact fun s j hc => exec_korJobAbort_reached hc
  · exact fun s j v hj hd => State.jobCtrl_hostSlot hd v hj
  · exact fun s j hj hj8 hd => exec_korJobAbort_deviceSlot hd hj hj8
  · exact fun s j hj hr ho => exec_korJobDone_whole hj hr ho
  · exact fun s j a hj hr ho ha => exec_korJobDone_uncorrectable hj hr ho ha
  · exact fun s u v j hj hr ho hf hc hu hheader hur hv hvr => exec_korJobWaiting_consumed hj hr ho hf hc hu hheader hur hv hvr

end Sys2Proof.Machine
end

section
/-! PROOFS. Flumes (O29, R293 to R307): a furrow's release, completion and loss, the Flume that stalls and is tested again, the station tables, and an
evaluation of the predictor. -/
namespace Sys2Proof.Machine

/-! ## Releasing furrows (R295, R303) -/

/-- The scheduler releases the furrow whose turn it is while nothing is lost and no stop is active. -/
theorem exec_furrowRelease_turn {s : State} {st n k : Nat} {f : Frame} {p : Page} (hnext : s.releaseNext st = some (f, p, k))
    (hn : (s.flumesIn flIDLE).head? = some n) (hrun : s.inRun = true) (hstop : s.stopActive = false) (hlost : s.flm.lost = [])
    (hturn : s.releaseTurn = some st) :
    exec (.furrowRelease st) s =
      .next (({ (s.dropPrinted st).assign n p.seq st k false with
        flm := { ((s.dropPrinted st).assign n p.seq st k false).flm with
                 next := ((s.dropPrinted st).assign n p.seq st k false).flm.next.put (p.seq * 16 + st) (k + 1) } } : State).setF FLM_STATUS.SCHED_RUN 1) := by
  show execFurrowRelease st s = _
  simp only [execFurrowRelease, hnext, hn, hrun, hstop, hlost, hturn, List.isEmpty_nil, Bool.not_true, ne_eq, not_true, decide_false, Bool.or_self,
    Bool.false_eq_true, if_false]

/-- The reserve goes before the idle Flumes; which idle Flume is named reserve after it is a free value (assumption log 28). -/
theorem exec_redoStart_lost {s : State} {seq st k n : Nat} {t : List (Nat × Nat × Nat)} (hlost : s.flm.lost = (seq, st, k) :: t)
    (hn : (s.flumesIn flRESERVE ++ s.flumesIn flIDLE).head? = some n) :
    exec .redoStart s = .next ((({ s with flm := { s.flm with lost := t } } : State).assign n seq st k true).nameReserve) := by
  show execRedoStart s = _
  simp only [execRedoStart, hlost, hn]

/-! ## A Flume that holds a furrow (R297, R302) -/

section
variable {s : State} {n : Nat} {f : Furrow} (hf : s.flm.furrows.find? (fun f => f.flume = some n) = some f) (hb : s.flState n = flBUSY)
include hf hb

/-- A furrow of a good page whose source decodes is written, counted and its Flume freed; a page that no inspection waits for releases its source. -/
theorem exec_furrowComplete_good {u v w : State} {p : Page} {x : Stream} {above : List Pixel} {lines : List (List Pixel)}
    (hp : s.page? f.page = some p) (ha : s.boundary f.page f.st f.k = some above)
    (hfill : p.desc.format ≠ 3 ∨ (s.filled f.page f.st f.k).isSome = true) (hl : s.furrowLines p f.st f.k = (0, lines)) (hgood : p.spoil = none)
    (hu : u = s.modFurrow f.page f.st f.k (fun g => { g with flume := none, done := true, blank := false,
                                                              codes := s.furrowCodes p.desc f.st f.k lines above, last := lines.getD 31 [] }))
    (hv : v = (u.wrapInc (FLM_SLICE_DONE.COUNT n)).event (128 + f.st))
    (hw : w = ((if f.redo && (s.frameOf f.page).any (fun fr => decide (s.lineAt f.st ≤ s.deadline fr f.st f.k)) then v.satInc FLM_REDO_CNT.REDONE
                else v).dropFill n).freeFlume n)
    (hx : w.streamOf f.page f.st = some x) :
    exec (.furrowComplete n none false) s = .next (if p.desc.inspected then w else w.useStream f.page f.st (sourceEnd p.desc x f.k)) := by
  have hthere : ¬ (p.desc.format = 3 ∧ (s.listOf f.page f.st).isSome = true ∧ (s.filled f.page f.st f.k).isNone = true) := by
    rintro ⟨h3, -, hnone⟩
    simp [h3, Option.isNone_iff_eq_none.1 hnone] at hfill
  show execFurrowComplete n none false s = _
  simp only [execFurrowComplete, hf, hb, hp, ha, hl, hgood, hthere, ne_eq, not_true, decide_false, Option.isNone_none, Option.isSome_none, true_and,
    Bool.or_self, Bool.false_eq_true, if_false, if_true, ← hu, ← hv, ← hw, hx]

/-- The page is gone: its furrow goes with it and the Flume is free. -/
theorem exec_furrowComplete_pageGone (hp : s.page? f.page = none) :
    exec (.furrowComplete n none false) s =
      .next (((s.dropFill n).setFurrows (s.flm.furrows.filter (fun g => g.flume ≠ some n))).freeFlume n) := by
  show execFurrowComplete n none false s = _
  simp only [execFurrowComplete, hf, hb, hp, ne_eq, not_true, if_false]

/-- The record's parameter has the furrow index in bits 7:0 and its upper part in bits 31:24 (assumption log 105). -/
theorem exec_flumeStall_busy {u : State} (hn : n < 16)
    (hu : u = (((s.dropFill n).setFurrows (s.flm.furrows.filter (fun g => g.flume ≠ some n))).report 0x06 1 0x40
      (f.k / 256 * 2 ^ 24 + flParam n f.st + f.k % 256)
      (((s.page? f.page).map (fun p => idAddr p.desc.pageId)).getD 0)).pf (84 + n)) :
    exec (.flumeStall n) s = .next (({ u with flm := { u.flm with lost := u.flm.lost ++ [(f.page, f.st, f.k)] } } : State).fence n) := by
  show execFlumeStall n s = _
  simp only [execFlumeStall, hf, hb, Nat.not_le.2 hn, ne_eq, not_true, or_self, if_false, ← hu]

end

/-! ## Furrows that are late (R298) -/

theorem exec_furrowDataDeadline_absent {s : State} {st k : Nat} {f : Frame} {p : Page} (hnext : s.releaseNext st = some (f, p, k))
    (hd : s.dataThere p st k = false) (hnear : s.deadlineNear f st k = true) (hflr : p.flr = false) (h3 : p.desc.format ≠ 3) :
    exec (.furrowDataDeadline st) s = .next ((s.satInc (FLM_ST_ERR.MISSING st)).spoilPage p.seq 0x01 0x06 (flParam 0xFF st) st) := by
  show execFurrowDataDeadline st s = _
  simp only [execFurrowDataDeadline, hnext, hd, hnear, hflr, h3, Bool.not_true, Bool.or_self, Bool.false_eq_true, if_false]

/-- A late furrow that no Flume holds and that waits for no redo names Flume 0xFF. -/
theorem exec_furrowLate_unreleased {s : State} {st k : Nat} {p : Page} (hlate : s.lateFurrow st = some (p, k)) (hf : s.furrowAt p.seq st k = none)
    (hlost : s.flm.lost = []) :
    exec (.furrowLate st) s =
      .next ((({ s with flm := { s.flm with lost := [] } } : State).satInc (FLM_ST_ERR.LOST st)).spoilPage p.seq 0x02 0x06 (flParam 0xFF st) st) := by
  show execFurrowLate st s = _
  simp only [execFurrowLate, hlate, hf, hlost, Option.any_none, Option.bind_none, Option.getD_none, List.contains_nil, List.filter_nil, Bool.or_self,
    Bool.false_eq_true, if_false]

/-! ## Return to service (R305, R306) -/

section
variable {s : State} {n : Nat} (hn : n < 16)
include hn

theorem exec_flumeUnfence_powered (hd : s.poweredDown (FLM_SLICE_CTRL.word n) = false) :
    exec (.flumeUnfence n) s =
      .next (if s.power = pwrREADY ∧ s.flState n = flFENCED then s.setFl n flTESTING else s.raise FLM_STATUS.CTRL_REFUSED) := by
  show execFlumeUnfence n s = _
  simp only [execFlumeUnfence, Nat.not_le.2 hn, hd, Bool.false_eq_true, if_false, apply_ite Host.Outcome.next]

/-- The Flume leaves FLM_FENCED and counts as live again before the capacity is checked and a reserve named. -/
theorem exec_flumeTestDone_passed (ht : s.flState n = flTESTING) :
    exec (.flumeTestDone n true) s =
      .next (((s.setF FLM_FENCED.MASK (setBit (s.f FLM_FENCED.MASK) n false)).setFl n flIDLE).checkCapacity.nameReserve) := by
  show execFlumeTestDone n true s = _
  simp only [execFlumeTestDone, Nat.not_le.2 hn, ht, ne_eq, not_true, or_self, if_false, if_true]

end

/-! ## Station tables (R293, R294) -/

theorem exec_stationTableWrite_logged {s : State} {st off : Nat} {v : BitVec 32} (m : Nat) (hst : tableStation off = some st)
    (hd : s.tablesDark off = false) (hon : s.stationOn st = true)
    (hramp : ¬ (0x804000 ≤ off ∧ off < 0x900000 ∧ off % 8 = 4 ∧ v &&& 0xFFF#32 = 0)) (hroom : s.flm.log.length < 262144) :
    exec (.stationTableWrite m off v) s =
      .next (({ s with flm := { s.flm with log := s.flm.log ++ [(⟨st, off, v &&& tableMask off⟩ : LogEntry)] } } : State).setF FLM_LOG_PEND.ENTRIES
        (s.flm.log ++ [(⟨st, off, v &&& tableMask off⟩ : LogEntry)]).length) := by
  show execStationTableWrite m off v s = _
  simp only [execStationTableWrite, hst, hd, hon, hramp, Nat.not_le.2 hroom, Bool.not_true, Bool.false_eq_true, if_false]

theorem exec_tableLogIdleApply_idle {s : State} {st : Nat} (hi : s.stationBusy st = false) : exec (.tableLogIdleApply st) s = .next (s.applyLog st) := by
  show execTableLogIdleApply st s = _
  simp only [execTableLogIdleApply, hi, Bool.false_eq_true, if_false]

/-! ## The predictor (R307 to R309) -/

/-- With no station at risk nothing is ordered; with one that is not calm the run of calm evaluations starts again, so UNDERRUN does not clear. -/
theorem exec_predictorEvaluate_noOrder {s : State} (hr : pwrREADY ≤ s.power) (hd : s.poweredDown FLM_PRED_CFG.word = false)
    (hrisk : s.predictAll.2.2 = []) (hcalm : s.predictAll.2.1 = false) :
    exec .predictorEvaluate s = .next { s.predictAll.1 with flm := { s.predictAll.1.flm with calm := 0 } } := by
  have hshort : ¬ 1000 ≤ 0 := by decide
  show execPredictorEvaluate s = _
  simp only [execPredictorEvaluate, Nat.not_lt.2 hr, hd, hrisk, hcalm, hshort, List.any_nil, List.isEmpty_nil, Bool.not_true, Bool.false_and,
    Bool.or_self, Bool.false_eq_true, or_self, and_false, if_false]

/-- Settles O29, one clause for each command of the Flumes and of their station tables, two for the completion of a furrow. -/
theorem flumesComplete : Obligations.FlumesComplete := by
  refine ⟨?_, ?_, ?_, ?_, ?_, ?_, ?_, ?_, ?_, ?_, ?_, ?_⟩
  · exact fun s st n k f p hnext hn hrun hstop hlost hturn => exec_furrowRelease_turn hnext hn hrun hstop hlost hturn
  · exact fun s u v w n f p x above lines hf hb hp ha hfill hl hgood hu hv hw hx => exec_furrowComplete_good hf hb hp ha hfill hl hgood hu hv hw hx
  · exact fun s n f hf hb hp => exec_furrowComplete_pageGone hf hb hp
  · exact fun s st k f p hnext hd hnear hflr h3 => exec_furrowDataDeadline_absent hnext hd hnear hflr h3
  · exact fun s st k p hlate hf hlost => exec_furrowLate_unreleased hlate hf hlost
  · exact fun s u n f hn hf hb hu => exec_flumeStall_busy hf hb hn hu
  · exact fun s n hn hd => exec_flumeUnfence_powered hn hd
  · exact fun s n hn ht => exec_flumeTestDone_passed hn ht
  · exact fun s st off m v hst hd hon hramp hroom => exec_stationTableWrite_logged m hst hd hon hramp hroom
  · exact fun s st hi => exec_tableLogIdleApply_idle hi
  · exact fun s seq st k n t hlost hn => exec_redoStart_lost hlost hn
  · exact fun s hr hd hrisk hcalm => exec_predictorEvaluate_noOrder hr hd hrisk hcalm

end Sys2Proof.Machine
end

section
/-! PROOFS. Speed classes (O31, R340 to R349): a PLL's lock and its attempts, the request of a class, its change and its end. -/
namespace Sys2Proof.Machine

/-! ## Locks of a PLL (R343, R345, R347) -/

section
variable {s : State} {pll : Nat}

/-- A PLL that is off or searches closes its loop: its band is chosen after the seed is loaded. -/
theorem exec_pllLockStart_searching (h16 : pll < 16) (hs : s.f (CLK_PLL_STATE.STATE pll) < 2) :
    exec (.pllLockStart pll) s =
      (let s1 := s.modPll pll (fun p => { p with lfsr := BitVec.ofNat 16 (max 1 (s.f (CLK_PLL_SEED.SEED pll))), dither := s.b (CLK_PLL_CFG.DITHER pll) })
       .next (((s1.setF (CLK_PLL_STATE.BAND pll) (s1.pllBand pll)).setF (CLK_PLL_STATE.STATE pll) 2).setF (CLK_PLL_STATE.LOCKF pll) 0)) := by
  have hacts : ¬ (16 ≤ pll ∨ 2 ≤ s.f (CLK_PLL_STATE.STATE pll)) := by omega
  show execPllLockStart pll s = _
  exact if_neg hacts

theorem exec_pllLockDeclared_locking (h16 : pll < 16) (hs : s.f (CLK_PLL_STATE.STATE pll) = 2) :
    exec (.pllLockDeclared pll) s =
      .next ((((((s.setF (CLK_PLL_STATE.STATE pll) 3).setF (CLK_PLL_STATE.LOCKF pll) 1).satInc (CLK_PLL_STATE.LOCKS pll)).setLocked pll true)).modPll pll
        (fun p => { p with attempts := 0 })) := by
  have hacts : ¬ (16 ≤ pll ∨ s.f (CLK_PLL_STATE.STATE pll) ≠ 2) := by omega
  show execPllLockDeclared pll s = _
  exact if_neg hacts

/-- The class of the report is taken from what the station did when the lock was lost, before the new search. -/
theorem exec_pllLockLost_locked {u : State} (h16 : pll < 16) (hs : s.f (CLK_PLL_STATE.STATE pll) = 3)
    (hu : u = (s.pllSearch pll).modPll pll (fun p => { p with attempts := 0 })) :
    exec (.pllLockLost pll) s =
      .next (if 12 ≤ pll ∨ ¬ u.stationOn pll then u
             else if s.printing pll then (u.scnReport 3 0x19 pll).modScnSt pll (fun x => { x with isOpen := false }) else u.scnReport 1 0x1A pll) := by
  have hacts : ¬ (16 ≤ pll ∨ s.f (CLK_PLL_STATE.STATE pll) ≠ 3) := by omega
  show execPllLockLost pll s = _
  simp only [execPllLockLost, hacts, if_false, ← hu, apply_ite Host.Outcome.next]

/-- The first and the second failed attempt in a row: the PLL searches again. -/
theorem exec_pllLockTimeout_again {n : Nat} (h16 : pll < 16) (h0 : s.f (CLK_PLL_STATE.STATE pll) ≠ 0) (h3 : s.f (CLK_PLL_STATE.STATE pll) < 3)
    (hn : n = (s.scn.plls.getD ({} : PllSt) pll).attempts + 1) (hn3 : n < 3) :
    exec (.pllLockTimeout pll) s = .next (((s.satInc (CLK_PLL_STATE.FAILS pll)).modPll pll (fun p => { p with attempts := n })).pllSearch pll) := by
  have hacts : ¬ (16 ≤ pll ∨ s.f (CLK_PLL_STATE.STATE pll) = 0 ∨ 3 ≤ s.f (CLK_PLL_STATE.STATE pll)) := by omega
  show execPllLockTimeout pll s = _
  simp only [execPllLockTimeout, hacts, if_false, ← hn, hn3, if_true]

/-- A retry is one attempt: with two counted before it, its failure is the third (assumption log 32). -/
theorem exec_pllRetry_idle (h12 : pll < 12) (hs : s.f (CLK_PLL_STATE.STATE pll) = 4) (hi : s.stationBusy pll = false) :
    exec (.pllRetry pll) s = .next ((s.pllSearch pll).modPll pll (fun p => { p with attempts := 2 })) := by
  have hacts : ¬ (12 ≤ pll ∨ s.f (CLK_PLL_STATE.STATE pll) ≠ 4 ∨ s.stationBusy pll = true) := by simp [hs, hi, h12]
  show execPllRetry pll s = _
  exact if_neg hacts

theorem exec_pllRelock_notPrinting (h12 : pll < 12) (h0 : s.f (CLK_PLL_STATE.STATE pll) ≠ 0) (hp : s.printing pll = false) :
    exec (.pllRelock pll) s = .next ((s.pllSearch pll).modPll pll (fun p => { p with attempts := 0 })) := by
  have hacts : ¬ (12 ≤ pll ∨ s.printing pll = true ∨ s.f (CLK_PLL_STATE.STATE pll) = 0) := by simp [h0, hp, h12]
  show execPllRelock pll s = _
  exact if_neg hacts

end

/-! ## A class is requested, begins and is in force (R348, R349) -/

section
variable {s : State}

/-- In RUN the class waits for the gap after the last latched page; outside it a class other than the one in force is taken at once. -/
theorem exec_classRequest_accepted {u : State} {c : Nat} (m : Nat) {v : BitVec 32} (hd : s.poweredDown SCN_CTRL.word = false)
    (hm : s.ringMember = false) (hc : c = v.toNat % 8) (hr : s.classRefusal c = 0) (hu : u = (s.setF SCN_STATE.REFUSE 0).setF SCN_CTRL.CLASS c) :
    exec (.classRequest m v) s =
      .next (if u.inRun then { u with scn := { u.scn with hostAsk := some c } }
             else if c = u.classNow then u else (((u.scaleTaps u.classNow c).setClass c).retunePlls c).sendBdWins) := by
  show execClassRequest m v s = _
  simp only [execClassRequest, hd, hm, ← hc, hr, ← hu, ne_eq, not_true, Bool.false_eq_true, if_false, apply_ite Host.Outcome.next]

theorem exec_classChangeStart_idle (hrun : s.inRun = true) (hl : s.leaving = false) (hramp : s.ramping = false)
    (hidle : s.enabledStations.any s.stationBusy = false) (hnew : ¬ (s.settled = true ∧ s.nextClass = s.classNow)) :
    exec .classChangeStart s = .next (s.classStart s.nextClass) := by
  show execClassChangeStart s = _
  simp only [execClassChangeStart, hrun, hl, hramp, hidle, hnew, Bool.not_true, Bool.or_self, Bool.false_eq_true, if_false]

/-- On a device that is master of no ring the locks of its own stations are enough. -/
theorem exec_classSettled_locked (hrun : s.inRun = true) (hramp : s.ramping = true) (hm : s.ringMember = false) (hlock : s.allLocked = true)
    (hmaster : s.ringMaster = false) : exec .classSettled s = .next s.settle := by
  show execClassSettled s = _
  simp only [execClassSettled, hrun, hramp, hm, hlock, hmaster, Bool.not_true, Bool.false_and, Bool.or_self, Bool.false_eq_true, if_false]

theorem exec_classRampTimeout_ramping (hramp : s.ramping = true) : exec .classRampTimeout s = .next (s.report 0x07 3 0x1F 0xFFFF) := by
  show execClassRampTimeout s = _
  simp only [execClassRampTimeout, hramp, Bool.not_true, Bool.false_eq_true, if_false]

end

/-- CALREF within 100 ppm: its next absence is reported again (R340). -/
theorem exec_calrefOkChange_present (s : State) (e : BitVec 16) :
    exec (.calrefOkChange true e) s =
      .next { (s.setB CLK_STATUS.CALREF_OK true).setF CLK_CALREF.ERR e.toNat with
              scn := { ((s.setB CLK_STATUS.CALREF_OK true).setF CLK_CALREF.ERR e.toNat).scn with calrefSaid := false } } := by
  show execCalrefOkChange true e s = _
  simp only [execCalrefOkChange, if_true]

/-- Settles O31, one clause for each command of a PLL's lock and of a class, two for the answers to a request. -/
theorem classesComplete : Obligations.ClassesComplete := by
  refine ⟨?_, ?_, ?_, ?_, ?_, ?_, ?_, ?_, ?_, ?_, ?_, ?_⟩
  · exact fun s pll h16 hs => exec_pllLockStart_searching h16 hs
  · exact fun s pll h16 hs => exec_pllLockDeclared_locking h16 hs
  · exact fun s u pll h16 hs hu => exec_pllLockLost_locked h16 hs hu
  · exact fun s pll n h16 h0 h3 hn hn3 => exec_pllLockTimeout_again h16 h0 h3 hn hn3
  · exact fun s pll h12 hs hi => exec_pllRetry_idle h12 hs hi
  · exact fun s pll h12 h0 hp => exec_pllRelock_notPrinting h12 h0 hp
  · exact fun s u m c v hd hm hc hr hu => exec_classRequest_accepted m hd hm hc hr hu
  · exact fun s m v hd hm hr => exec_classRequest_refused m v hd hm hr
  · exact fun s hrun hl hramp hidle hnew => exec_classChangeStart_idle hrun hl hramp hidle hnew
  · exact fun s hrun hramp hm hlock hmaster => exec_classSettled_locked hrun hramp hm hlock hmaster
  · exact fun s hramp => exec_classRampTimeout_ramping hramp
  · exact exec_calrefOkChange_present

end Sys2Proof.Machine
end

section
/-! PROOFS. Beam-link ports (O32, R355 to R359): a port's control, its training and its polls, and the sideband's requests and answers. -/
namespace Sys2Proof.Machine

/-- The two bytes of a CRC spell it again, wherever they stand. -/
theorem leAt_append_leBytes_two (body : List Byte) (c : BitVec 16) : BitVec.ofNat 16 (leAt (body ++ leBytes 2 c.toNat) body.length 2) = c := by
  apply BitVec.eq_of_toNat_eq
  have hc := c.isLt
  simp only [leAt, List.drop_left, leBytes, List.take, leNat, BitVec.toNat_ofNat]
  omega

section
variable {s : State} {bl : Nat}

/-! ## The control of a port (R355) -/

/-- A write to a port that is on, in a block that is up, reaches the port. -/
theorem State.portGuard_of_on {off : Nat} (v : Nat) (hd : s.poweredDown off = false) (ho : s.stationOn bl = true) : s.portGuard bl off v = none := by
  simp [State.portGuard, hd, ho]

theorem exec_blEnable_disabled (hd : s.poweredDown (SCN_BL_CTRL.word bl) = false) (ho : s.stationOn bl = true)
    (he : s.b (SCN_BL_CTRL.ENABLE bl) = false) : exec (.blEnable bl) s = .next ((s.setF (SCN_BL_CTRL.ENABLE bl) 1).retrain bl) := by
  show execBlEnable bl s = _
  simp only [execBlEnable, State.portGuard_of_on 1 hd ho, he, Bool.false_eq_true, if_false]

/-- A port whose station prints nothing stops with its queue empty and no request in flight. -/
theorem exec_blDisable_notPrinting (hd : s.poweredDown (SCN_BL_CTRL.word bl) = false) (ho : s.stationOn bl = true) (hp : s.blPrinting bl = false) :
    exec (.blDisable bl) s =
      .next (((s.setF (SCN_BL_CTRL.ENABLE bl) 0).modPort bl
        (fun p => { p with queue := [], cur := none, fails := 0, busy := false, laneBad := false })).setBl bl blDOWN) := by
  show execBlDisable bl s = _
  simp only [execBlDisable, State.portGuard_of_on 0 hd ho, hp, Bool.false_eq_true, if_false]

theorem exec_blRetrain_enabled (hd : s.poweredDown (SCN_BL_CTRL.word bl) = false) (ho : s.stationOn bl = true)
    (he : s.b (SCN_BL_CTRL.ENABLE bl) = true) : exec (.blRetrain bl) s = .next (s.retrain bl) := by
  show execBlRetrain bl s = _
  simp only [execBlRetrain, State.portGuard_of_on 2 hd ho, he, if_true]

variable (ho : s.stationOn bl = true)
include ho

/-! ## Training and polls (R355, R356) -/

theorem exec_blTrainAlign_train (ht : s.blState bl = blTRAIN) : exec (.blTrainAlign bl) s = .next (s.setBl bl blALIGN) := by
  show execBlTrainAlign bl s = _
  exact if_pos ⟨ho, ht⟩

theorem exec_blTrainPoll_align (ha : s.blState bl = blALIGN) : exec (.blTrainPoll bl) s = .next (s.queuePoll bl) := by
  show execBlTrainPoll bl s = _
  exact if_pos ⟨ho, ha⟩

theorem exec_linkPoll_up (hu : s.blState bl = blUP) : exec (.linkPoll bl) s = .next (s.queuePoll bl) := by
  show execLinkPoll bl s = _
  exact if_pos ⟨ho, hu⟩

/-- A port in step 2 or 3 of R355 is one whose attempt can fail. -/
theorem State.blTraining_acts (ht : s.blState bl = blTRAIN ∨ s.blState bl = blALIGN) :
    (!s.stationOn bl || !(decide (s.blState bl = blTRAIN) || decide (s.blState bl = blALIGN))) = false := by
  rcases ht with ht | ht <;> simp [ho, ht]

section
variable {u : State} (ht : s.blState bl = blTRAIN ∨ s.blState bl = blALIGN)
  (hu : u = (s.satInc (SCN_BL_ERR.TRAIN_FAIL bl)).setF (SCN_BL_STATUS.CAUSE bl) (if (s.port bl).orderErr then 2 else 1))
include ht hu

theorem exec_blTrainTimeout_again (hn : (s.port bl).attempts + 1 < 3) :
    exec (.blTrainTimeout bl) s = .next ((u.setPort bl { s.port bl with attempts := (s.port bl).attempts + 1 }).train bl) := by
  show execBlTrainTimeout bl s = _
  simp only [execBlTrainTimeout, State.blTraining_acts ho ht, hn, ← hu, Bool.false_eq_true, if_false, if_true]

/-- The third failed attempt: the port is FAILED, which its station reports by whether it is busy (R357). -/
theorem exec_blTrainTimeout_failed {v : State} {st : Nat} (hn : 3 ≤ (s.port bl).attempts + 1)
    (hv : v = (u.setPort bl { s.port bl with attempts := 3, queue := [], cur := none, fails := 0, busy := false }).setBl bl blFAILED)
    (hst : v.stationOf bl = some st) :
    exec (.blTrainTimeout bl) s = .next (v.scnReport (if v.stationBusy st then 3 else 1) 0x1D st bl) := by
  show execBlTrainTimeout bl s = _
  simp only [execBlTrainTimeout, State.blTraining_acts ho ht, Nat.not_lt.2 hn, ← hu, ← hv, hst, Bool.false_eq_true, if_false]

end

/-! ## The sideband (R358, R359) -/

/-- The first request of the queue goes out under the next tag (assumption log 33). -/
theorem exec_sidebandTransaction_next {r : SbReq} {t : List SbReq} (hdown : s.blState bl ≠ blDOWN) (hfail : s.blState bl ≠ blFAILED)
    (hc : (s.port bl).cur = none) (hq : (s.port bl).queue = r :: t) :
    exec (.sidebandTransaction bl) s =
      .next (((s.setPort bl { s.port bl with queue := t, cur := some r, tag := ((s.port bl).tag + 1) % 256, fails := 0, busy := false }).noteSent bl r).emit
        (.sideband bl (sbRequest r (((s.port bl).tag + 1) % 256)))) := by
  show execSidebandTransaction bl s = _
  simp only [execSidebandTransaction, hc, hq, ho, hdown, hfail, decide_false, Bool.not_true, Bool.or_self, Bool.false_eq_true, if_false]

theorem exec_sidebandTimeout_waiting (hb : (s.port bl).busy = false) : exec (.sidebandTimeout bl) s = .next (s.sbFailed bl) := by
  show execSidebandTimeout bl s = _
  simp only [execSidebandTimeout, ho, hb, Bool.not_true, Bool.or_self, Bool.false_eq_true, if_false]

/-- What a response does whose CRC and TAG are those of the request in flight: BUSY waits, OK with the expected length ends the request, and
every other STATUS or length counts as a failure. -/
theorem exec_sidebandResponse_sealed {r : SbReq} {body : List Byte} (hb : (s.port bl).busy = false) (hc : (s.port bl).cur = some r)
    (hn : 2 ≤ body.length) (ht : leAt body 1 1 = (s.port bl).tag) :
    exec (.sidebandResponse bl (body ++ leBytes 2 (crc16 body).toNat)) s =
      .next (if leAt body 0 1 = 3 then s.setPort bl { s.port bl with busy := true }
             else if leAt body 0 1 = 0 ∧ body.length = 2 + (if r.write then 0 else 4 * r.len) then
               (if r.write then s.setPort bl { s.port bl with cur := none, fails := 0 }
                else (s.setPort bl { s.port bl with cur := none, fails := 0 }).readDone bl r
                  ((List.range r.len).map (fun i => BitVec.ofNat 32 (leAt body (2 + 4 * i) 4))))
             else s.sbFailed bl) := by
  have hlen : (body ++ leBytes 2 (crc16 body).toNat).length - 2 = body.length := by simp [leBytes]
  have hcrc := leAt_append_leBytes_two body (crc16 body)
  show execSidebandResponse bl _ s = _
  simp only [execSidebandResponse, hc, ho, hb, hlen, hn, ht, List.take_left, hcrc, decide_true, Bool.not_true, Bool.or_self, Bool.true_and,
    Bool.false_eq_true, if_false, Bool.and_eq_true, decide_eq_true_eq, apply_ite Host.Outcome.next]

theorem exec_sidebandResponse_read {r : SbReq} {body : List Byte} (hb : (s.port bl).busy = false) (hc : (s.port bl).cur = some r)
    (hw : r.write = false) (hn : body.length = 2 + 4 * r.len) (hok : leAt body 0 1 = 0) (ht : leAt body 1 1 = (s.port bl).tag) :
    exec (.sidebandResponse bl (body ++ leBytes 2 (crc16 body).toNat)) s =
      .next ((s.setPort bl { s.port bl with cur := none, fails := 0 }).readDone bl r
        ((List.range r.len).map (fun i => BitVec.ofNat 32 (leAt body (2 + 4 * i) 4)))) := by
  rw [exec_sidebandResponse_sealed ho hb hc (by omega) ht]
  simp [hok, hn, hw]

theorem exec_sidebandResponse_busy {r : SbReq} {body : List Byte} (hb : (s.port bl).busy = false) (hc : (s.port bl).cur = some r)
    (hn : 2 ≤ body.length) (hbusy : leAt body 0 1 = 3) (ht : leAt body 1 1 = (s.port bl).tag) :
    exec (.sidebandResponse bl (body ++ leBytes 2 (crc16 body).toNat)) s = .next (s.setPort bl { s.port bl with busy := true }) := by
  rw [exec_sidebandResponse_sealed ho hb hc hn ht, if_pos hbusy]

end

/-- BUSY was an answer: the same request goes out again under its tag. -/
theorem exec_sidebandBusyRetry_busy {s : State} {bl : Nat} {r : SbReq} (hb : (s.port bl).busy = true) (hc : (s.port bl).cur = some r) :
    exec (.sidebandBusyRetry bl) s = .next ((s.setPort bl { s.port bl with busy := false }).emit (.sideband bl (sbRequest r (s.port bl).tag))) := by
  show execSidebandBusyRetry bl s = _
  simp only [execSidebandBusyRetry, hc, hb, if_true]

/-- Settles O32, one clause for each command of a port, two for the last attempts of a training and for a response. -/
theorem beamLinksComplete : Obligations.BeamLinksComplete := by
  refine ⟨?_, ?_, ?_, ?_, ?_, ?_, ?_, ?_, ?_, ?_, ?_, ?_, ?_⟩
  · exact fun s bl hd ho he => exec_blEnable_disabled hd ho he
  · exact fun s bl hd ho hp => exec_blDisable_notPrinting hd ho hp
  · exact fun s bl hd ho he => exec_blRetrain_enabled hd ho he
  · exact fun s bl ho ht => exec_blTrainAlign_train ho ht
  · exact fun s bl ho ha => exec_blTrainPoll_align ho ha
  · exact fun s u bl ho ht hn hu => exec_blTrainTimeout_again ho ht hu hn
  · exact fun s u v bl st ho ht hn hu hv hst => exec_blTrainTimeout_failed ho ht hu hn hv hst
  · exact fun s bl ho hu => exec_linkPoll_up ho hu
  · exact fun s bl r t ho hdown hfail hc hq => exec_sidebandTransaction_next ho hdown hfail hc hq
  · exact fun s bl r body ho hb hc hw hn hok ht => exec_sidebandResponse_read ho hb hc hw hn hok ht
  · exact fun s bl r body ho hb hc hn hbusy ht => exec_sidebandResponse_busy ho hb hc hn hbusy ht
  · exact fun s bl r ho hb _ => exec_sidebandTimeout_waiting ho hb
  · exact fun s bl r hb hc => exec_sidebandBusyRetry_busy hb hc

end Sys2Proof.Machine
end

section
/-! PROOFS. Routes and offsets (O33, R325, R360, R362): the write of a route and its refusal, the exchange, and the write of an offset. -/
namespace Sys2Proof.Machine

section
variable {s : State} {st : Nat}

section
variable {v : BitVec 32} (hd : s.poweredDown (SCN_ROUTE.word st) = false)
include hd

/-- A route that names a free port waits exactly where it differs from the one in force (assumption log 34). -/
theorem exec_routeWrite_taken (ho : s.stationOn st = true) (hr : s.routeOk st (v.toNat % 16) = true) :
    exec (.routeWrite st v) s =
      (let u := (s.setF (SCN_ROUTE.PORT st) (v.toNat % 16)).setF (SCN_ROUTE.SIDE st) (v.toNat / 256 % 2)
       .next (u.setB (SCN_ROUTE.PEND st) (decide (v.toNat % 16 ≠ u.portOf st ∨ v.toNat / 256 % 2 ≠ u.wf (SCN_ROUTE.SIDE st))))) := by
  show execRouteWrite st v s = _
  simp only [execRouteWrite, hd, ho, hr, Bool.not_true, Bool.false_eq_true, if_false]

theorem exec_routeWrite_refused (ho : s.stationOn st = true) (hr : s.routeOk st (v.toNat % 16) = false) :
    exec (.routeWrite st v) s = .next (s.raise (SCN_ST_STATE.ROUTE_REFUSED st)) := by
  show execRouteWrite st v s = _
  simp only [execRouteWrite, hd, ho, hr, Bool.not_true, Bool.not_false, Bool.false_eq_true, if_false, if_true]

/-- A station that the part has not got: a faulty access, reported for master 0 (assumption log 77). -/
theorem exec_routeWrite_absent (ho : s.stationOn st = false) :
    exec (.routeWrite st v) s = .next (s.reportAccess 0x07 0x04 2 0 (SCN_ROUTE.word st) v.toNat) := by
  show execRouteWrite st v s = _
  simp only [execRouteWrite, hd, ho, Bool.not_false, Bool.false_eq_true, if_false, if_true]

end

theorem exec_offsetWrite_on {v : BitVec 32} (hd : s.poweredDown (SCN_OFS.word st) = false) (ho : s.stationOn st = true) :
    exec (.offsetWrite st v) s = .next (((s.setF (SCN_OFS.LINES st) (v.toNat % 4194304)).askMove st).touch (SCN_OFS.word st)) := by
  show execOffsetWrite st v s = _
  simp only [execOffsetWrite, hd, ho, Bool.not_true, Bool.false_eq_true, if_false]

end

/-- Of the waiting routes of stations that do not print, the largest set that can change together takes effect (R362). -/
theorem exec_routeExchangeApply (s : State) :
    exec .routeExchangeApply s =
      .next ((s.routeSet 12 (s.enabledStations.filter (fun st => s.b (SCN_ROUTE.PEND st) && !s.printing st))).foldl (fun s st => s.takeRoute st) s) := by
  show execRouteExchangeApply s = _
  rw [execRouteExchangeApply, State.applyRoutes]

/-- Settles O33, three clauses for the answers to a route, then the exchange and the offset. -/
theorem routesComplete : Obligations.RoutesComplete := by
  refine ⟨?_, ?_, ?_, ?_, ?_⟩
  · exact fun s st v hd ho hr => exec_routeWrite_taken hd ho hr
  · exact fun s st v hd ho hr => exec_routeWrite_refused hd ho hr
  · exact fun s st v hd ho => exec_routeWrite_absent hd ho
  · exact exec_routeExchangeApply
  · exact fun s st v hd ho => exec_offsetWrite_on hd ho

end Sys2Proof.Machine
end

section
/-! PROOFS. Exposure (O34, R381, R384, R394): the monitor reads of a head, the steps of a tap calibration pass, and half-advance outside RUN. -/
namespace Sys2Proof.Machine

section
variable {s : State} {st : Nat} (ho : s.stationOn st = true) (hd : s.poweredDown (EXP_WIN.word st) = false)
include ho hd

/-- The four reads are queued only while none of an earlier monitor read waits; their place among the other requests is R392's. -/
theorem exec_monitorRead_up (hu : s.blState (s.portOf st) = blUP) (hh : s.f (EXP_HEAD_STATE.STATE st) = 2)
    (hq : (s.port (s.portOf st)).queue.any (fun q => q.prio = 3) = false) :
    exec (.monitorRead st) s =
      .next ((((s.sbQueue (s.portOf st) { prio := 3, addr := 0x104, len := 1 }).sbQueue (s.portOf st) { prio := 3, addr := 0x118, len := 1 }).sbQueue
        (s.portOf st) { prio := 3, addr := 0x400, len := 64 }).sbQueue (s.portOf st) { prio := 3, addr := 0x500, len := 8 }) := by
  show execMonitorRead st s = _
  simp only [execMonitorRead, ho, hd, hu, hh, hq, ne_eq, not_true_eq_false, decide_false, Bool.not_true, Bool.or_self, Bool.false_eq_true, if_false]

/-! ## Tap calibration (R394) -/

section
variable {n : Nat} (he : s.b EXP_CTRL.CAL_EN = true) (hr : s.b CLK_STATUS.CALREF_OK = true)
include he hr

/-- Calibration enabled and its reference in order: a measurement counts. -/
theorem State.tapCal_acts :
    (!s.stationOn st || s.poweredDown (EXP_WIN.word st) || !s.b EXP_CTRL.CAL_EN || !s.b CLK_STATUS.CALREF_OK) = false := by
  simp [ho, hd, he, hr]

/-- The first measurement of a pass is the return path alone, against which every tap is taken. -/
theorem exec_tapCalMeasure_first (ht : (s.expSt st).calT = 0) :
    exec (.tapCalMeasure st n) s =
      .next ((s.setExpSt st { s.expSt st with calT := 1, count0 := n, meas := [0], err := 0 }).setF EXP_STATUS.CAL_RUN 1) := by
  show execTapCalMeasure st n s = _
  simp only [execTapCalMeasure, State.tapCal_acts ho hd he hr, ht, Bool.false_eq_true, if_false, if_true]

/-- A tap's ring is longer than the return path's, so it counts fewer oscillations; before the 64th measurement the pass goes on. -/
theorem exec_tapCalMeasure_tap (hne : (s.expSt st).calT ≠ 0) (hlt : (s.expSt st).calT < 63) (hn : 0 < n) (hn0 : n < (s.expSt st).count0)
    {r : Nat × Nat} (hm : r = tapMeasure (s.tapN st (s.expSt st).calT) (s.expSt st).calT (s.expSt st).count0 n s.classNow) :
    exec (.tapCalMeasure st n) s =
      .next (s.setExpSt st { s.expSt st with calT := (s.expSt st).calT + 1, meas := r.1 :: (s.expSt st).meas,
                                             err := max (s.expSt st).err (min 65535 r.2) }) := by
  have hok : decide (0 < n ∧ n < (s.expSt st).count0) = true := decide_eq_true ⟨hn, hn0⟩
  show execTapCalMeasure st n s = _
  simp only [execTapCalMeasure, State.tapCal_acts ho hd he hr, hne, hlt, hok, ← hm, Bool.false_eq_true, if_false, if_true]

end

end

/-- HALF changes: the triggers and moves of every station lapse, and the set-points are scaled (R381). -/
theorem exec_halfAdvanceWrite_changes {s u : State} (m : Nat) {v : BitVec 32} (hd : s.poweredDown SCN_CTRL.word = false) (hrun : s.inRun = false)
    (hv : v.getLsbD 7 ≠ s.b SCN_CTRL.HALF)
    (hu : u = (s.setB SCN_CTRL.HALF (v.getLsbD 7)).setB EXP_STATUS.HALF_ACTIVE (v.getLsbD 7)) :
    exec (.halfAdvanceWrite m v) s =
      .next (({ u with scn := { u.scn with sts := u.scn.sts.map (fun (e : Nat × ScnSt) => (e.1, { e.2 with trig := none, moving := 0 })) } } : State).halfChanged
        (v.getLsbD 7)) := by
  show execHalfAdvanceWrite m v s = _
  simp only [execHalfAdvanceWrite, hd, hrun, hv, ← hu, Bool.false_eq_true, or_self, if_false]

/-- Settles O34, one clause for each command, two for the measurements of a pass. -/
theorem exposureComplete : Obligations.ExposureComplete := by
  refine ⟨?_, ?_, ?_, ?_⟩
  · exact fun s st ho hd hu hh hq => exec_monitorRead_up ho hd hu hh hq
  · exact fun s st n ho hd he hr ht => exec_tapCalMeasure_first ho hd he hr ht
  · exact fun s st n r ho hd he hr hne hlt hn hn0 hm => exec_tapCalMeasure_tap ho hd he hr hne hlt hn hn0 hm
  · exact fun s u m v hd hrun hv hu => exec_halfAdvanceWrite_changes m hd hrun hv hu

end Sys2Proof.Machine
end

section
/-! PROOFS. Inspection (O35, R403, R404, R421, R425, R432, R433, R440): the scan link, the lines of the array, a side's results, calibration captures
and audit exports. -/
namespace Sys2Proof.Machine

section
variable {s : State} {side : Nat}

/-! ## A page's side (R421) -/

/-- The page in front of a side is judged once its last row is at the bar, or at once outside RUN. -/
theorem exec_inspectionResultComplete_passed {y : InsPage} {p : Page} (hy : (s.insSide side).pages.head? = some y) (hp : s.page? y.page = some p)
    (hf : p.isFinal = false) (hrow : s.inRun = true → s.rowPos y (p.desc.cisRows - 1) ≤ s.scn.pos / 4096) :
    exec (.inspectionResultComplete side) s = .next ((s.sideResult side y p).pageVerdict p) := by
  have hpassed : (s.inRun && decide (s.scn.pos / 4096 < s.rowPos y (p.desc.cisRows - 1))) = false := by
    simpa only [Bool.and_eq_false_imp, decide_eq_false_iff_not, Int.not_lt] using hrow
  show execInspectionResultComplete side s = _
  simp only [execInspectionResultComplete, hy, hp, hf, hpassed, Bool.false_eq_true, if_false]

section
variable (ho : s.sideOn side = true)
include ho

/-! ## The scan link (R404, R434) -/

/-- A page with a row at the bar between the loss of the link and this lock is marked. -/
theorem exec_scanLinkLock_down (hr : s.insRuns = true) (he : s.sideEnabled side = true) (hup : s.insUp side = false) {u : State}
    (hu : u = (s.setF (INS_LINK.LANE_LOCK side) 15).setInsLink side 2) :
    exec (.scanLinkLock side) s =
      .next (u.setInsSide side { u.insSide side with
        downAt := none, last := none, lseq := none,
        pages := (u.insSide side).pages.map (fun y => if (u.insSide side).downAt.any (fun d =>
          decide (d ≤ u.rowPos y (((u.page? y.page).map (fun p => p.desc.cisRows)).getD 1 - 1) ∧ u.rowPos y 0 ≤ u.scn.pos / 4096))
          then { y with linkLost := true } else y) }) := by
  show execScanLinkLock side s = _
  simp only [execScanLinkLock, ho, hr, he, hup, ← hu, Bool.not_true, Bool.or_self, Bool.false_eq_true, if_false]

theorem exec_scanLinkLockLoss_up (hup : s.insUp side = true) {l : BitVec 4} (hl : l ≠ 15#4) :
    exec (.scanLinkLockLoss side l) s = .next ((s.satInc (INS_LINK_ERR.LOCK_LOSS side)).insLinkDown side 1 l.toNat) := by
  show execScanLinkLockLoss side l s = _
  simp only [execScanLinkLockLoss, ho, hup, hl, Bool.not_true, decide_false, Bool.or_self, Bool.false_eq_true, if_false]

/-! ## Lines of the array (R403, R405) -/

section
variable {ls : List (List (Bool × BitVec 64))} (hr : s.insRuns = true) (he : s.sideEnabled side = true)
include hr he

/-- A line that follows the last good one (assumption log 38) closes the rows between the two places of the web. -/
theorem exec_cisLine_next (hup : s.insUp side = true) {q : BitVec 32} {px : List Byte} (hb : cisBytes ls = some (q, px))
    (hq : (s.insSide side).lseq = some (q - 1)) {a b : CisLine} (ha : (s.insSide side).last = some a)
    (hpos : b = ⟨s.posAt (s.now.toNat - 100 * s.f (INS_CIS_CFG.LAT side)), s.now.toNat, px⟩) :
    exec (.cisLine side ls) s =
      .next ((s.noteLine side q b).rowsBetween side a b
        (decide (b.pos - a.pos ≤ 8 * 65536) && !((s.cisRate side s.now.toNat).any (fun r => r.2)))) := by
  have hseq : (s.insSide side).lseq.any (fun l => decide (q ≠ l + 1)) = false := by
    simp only [hq, Option.any_some, BitVec.sub_add_cancel, ne_eq, not_true, decide_false]
  subst hpos
  show execCisLine side ls s = _
  simp only [execCisLine, ho, hr, he, hup, hb, hseq, ha, Bool.not_true, Bool.or_self, Bool.false_eq_true, if_false]

/-- A line whose blocks or checks fail is counted once, whatever the state of the port (assumption log 38). -/
theorem exec_cisLine_bad (hb : cisBytes ls = none) : exec (.cisLine side ls) s = .next (s.satInc (INS_LINK_ERR.BAD_LINES side)) := by
  show execCisLine side ls s = _
  cases hup : s.insUp side <;> simp only [execCisLine, ho, hr, he, hup, hb, Bool.not_true, Bool.or_self, Bool.false_eq_true, if_false]

end

/-! ## Results (R425) -/

/-- The head result is acknowledged by its SEQ, unless the result raised READY in this round. -/
theorem exec_insAck_head {q : Nat} (hd : s.poweredDown (INS_ACK.word side) = false) (hready : s.b (INS_RESULT.READY side) = true)
    (hq : s.f (INS_RESULT.SEQ side) = q % 65536) (hround : side ∉ s.roundOf 4 mkReady) :
    exec (.insAck side q) s = .next ((s.setInsSide side { s.insSide side with queue := (s.insSide side).queue.drop 1 }).insWindow side) := by
  have hearlier : (s.roundOf 4 mkReady).contains side = false := by simpa only [List.contains_eq_mem, decide_eq_false_iff_not] using hround
  show execInsAck side q s = _
  simp only [execInsAck, hd, ho, hready, hq, hearlier, Bool.not_true, Bool.not_false, decide_true, Bool.and_self, Bool.false_eq_true, false_and,
    if_false, if_true]

/-! ## Calibration captures (R432, R433) -/

theorem State.calGo_ready (op : Nat) (hd : s.poweredDown (INS_CAL_CTRL.word side) = false) (hp : s.power = pwrREADY)
    (hb : s.b (INS_CAL_STATUS.BUSY side) = false) (hup : s.insUp side = true) :
    s.calGo side op = (s.modInsSide side (fun x => { x with capOp := op, capLines := [] })).setF (INS_CAL_STATUS.BUSY side) 1 := by
  simp only [State.calGo, hd, ho, hp, hb, hup, Bool.not_true, ne_eq, not_true, Bool.false_eq_true, or_self, if_false]

/-- The gains of a WHITE capture wait beside the calibration in force, with what an earlier capture left there (R433). -/
theorem exec_calCaptureDone_white {g : List Nat} (hb : s.b (INS_CAL_STATUS.BUSY side) = true) (hn : 1024 ≤ (s.insSide side).capLines.length)
    (hop : (s.insSide side).capOp = 1) (hg : whiteGains (s.insSide side).capLines = some g) :
    exec (.calCaptureDone side) s =
      .next (((s.setInsSide side { s.insSide side with
        newCal := some { (s.insSide side).newCal.getD (s.insSide side).cal with gains := g } }).setF (INS_CAL_STATUS.VALID_WHITE side) 1).endCapture
          side 0) := by
  show execCalCaptureDone side s = _
  simp only [execCalCaptureDone, ho, hb, Nat.not_lt.2 hn, hop, hg, Bool.not_true, decide_false, Bool.or_self, Bool.false_eq_true, if_false, if_true]

end
end

/-! ## Audit exports (R440) -/

theorem exec_auditExport_idle {s : State} (hd : s.poweredDown INS_AUDIT_CTRL.word = false) (hs : s.f INS_AUDIT_CTRL.STATE ≠ 1) :
    exec .auditExport s = .next (s.setF INS_AUDIT_CTRL.STATE 1) := by
  show execAuditExport s = _
  simp only [execAuditExport, hd, hs, Bool.false_eq_true, if_false]

/-- A capture within the limit and the free pool is copied whole. -/
theorem exec_auditExportDone_whole {s : State} {a : Audit} {d : Nat} (hs : s.f INS_AUDIT_CTRL.STATE = 1) (ha : s.auditNamed = some a)
    (hlim : a.data.length ≤ s.f INS_AUDIT_LIMIT.BYTES) (hd : d = s.f INS_AUDIT_DST_HI.ADDR * 2 ^ 32 + s.f INS_AUDIT_DST_LO.ADDR * 64)
    (hlo : s.freeBase ≤ d) (hhi : d + a.data.length ≤ s.dramEnd) :
    exec (.auditExportDone 0) s = .next ({ s with dram := s.dram.putBytes d a.data }.endAudit 0x00 a.data.length) := by
  show execAuditExportDone 0 s = _
  simp only [execAuditExportDone, hs, ha, ← hd, Nat.min_eq_left hlim, hlo, hhi, Nat.not_lt.2 hlim, ne_eq, not_true, and_self, decide_true, Bool.not_true,
    Bool.false_eq_true, if_false]

/-- Settles O35, one clause for each command, two for the lines of the array, and one for the two captures that begin alike. -/
theorem inspectionComplete : Obligations.InspectionComplete := by
  refine ⟨?_, ?_, ?_, ?_, ?_, ?_, ?_, ?_, ?_, ?_⟩
  · exact fun s u side ho hr he hup hu => exec_scanLinkLock_down ho hr he hup hu
  · exact fun s side l ho hup hl => exec_scanLinkLockLoss_up ho hup hl
  · exact fun s side ls q px a b ho hr he hup hb hq ha hpos => exec_cisLine_next ho hr he hup hb hq ha hpos
  · exact fun s side ls ho hr he hb => exec_cisLine_bad ho hr he hb
  · exact fun s side y p hy hp hf hrow => exec_inspectionResultComplete_passed hy hp hf hrow
  · exact fun s side q hd ho hready hq hround => exec_insAck_head ho hd hready hq hround
  · exact fun s side hd ho hp hb hup =>
      ⟨congrArg Host.Outcome.next (State.calGo_ready ho 1 hd hp hb hup), congrArg Host.Outcome.next (State.calGo_ready ho 2 hd hp hb hup)⟩
  · exact fun s side g ho hb hn hop hg => exec_calCaptureDone_white ho hb hn hop hg
  · exact fun s hd hs => exec_auditExport_idle hd hs
  · exact fun s a d hs ha hlim hd hlo hhi => exec_auditExportDone_whole hs ha hlim hd hlo hhi

end Sys2Proof.Machine
end

section
/-! PROOFS. The calibration sweep over the ring (O43, R436, R437, R438, R548, R567): what the master's commands and timers do, and what each message of a
sweep does where it is taken. -/
namespace Sys2Proof.Machine

/-! ## On the master (R436, R437, R438) -/

section
variable {s : State}

theorem exec_xcalStart_idle (hd : s.poweredDown INS_XCAL_CTRL.word = false) (hm : s.ringMaster = true) (hrun : s.cul.xrun = false)
    (hp : s.f INS_XCAL_CTRL.PAGES ≠ 0) {t : State}
    (ht : t = ((s.setF INS_XCAL_STATUS.STATE xcMEASURING).setF INS_XCAL_STATUS.STEPS 0).setF INS_XCAL_STATUS.ABSENT 0) :
    exec .xcalStart s =
      .next (({ t with cul := { t.cul with xsweep := (s.cul.xsweep + 1) % 256, xrun := true, xmeas := s.f INS_XCAL_CTRL.MEAS,
                                           xpages := s.f INS_XCAL_CTRL.PAGES, xfeats := [], xheld := none },
                       ins := { t.ins with sweepSide := some (s.f INS_XCAL_CTRL.SIDE) } } : State).culBroadcast 0x30
        (leBytes 1 (s.f INS_XCAL_CTRL.PAGES) ++ leBytes 1 (s.f INS_XCAL_CTRL.SIDE) ++ leBytes 1 (s.f INS_XCAL_CTRL.MEAS) ++
          leBytes 1 ((s.cul.xsweep + 1) % 256) ++ leBytes 4 0)) := by
  show execXcalStart s = _
  simp only [execXcalStart, hd, hm, hrun, hp, ← ht, Bool.not_true, decide_false, Bool.or_self, Bool.false_eq_true, if_false]

theorem exec_xcalAbort_master (hd : s.poweredDown INS_XCAL_CTRL.word = false) (hm : s.b CUL_STATUS.MASTER = true) :
    exec .xcalAbort s = .next (s.xcalAbandon 0) := by
  show execXcalAbort s = _
  simp only [execXcalAbort, hd, hm, Bool.false_eq_true, if_false, if_true]

/-- The master takes its own targets too (assumption log 54) and begins with the lowest index; where it measures itself, it waits for its last page. -/
theorem exec_xcalCollect_measured (hrun : s.cul.xrun = true) (hm : s.ringMaster = true) (hs : s.f INS_XCAL_STATUS.STATE = xcMEASURING)
    (hp : s.cul.xmeas = s.culIndex → s.cul.xpages = 0) {t : State} {own : List (Nat × Option Nat × Option Nat)}
    (ht : s.xcalTargetsOf s.variant.stations = (own, t)) :
    exec .xcalCollect s =
      (let u := ({ t with cul := { t.cul with xheld := some own } } : State).setF INS_XCAL_STATUS.STATE xcCOLLECTING
       .next (u.xcalNext u.culOthers)) := by
  have hmeasured : (decide (s.cul.xmeas = s.culIndex) && decide (s.cul.xpages ≠ 0)) = false := by
    simpa only [Bool.and_eq_false_imp, decide_eq_true_eq, decide_eq_false_iff_not, ne_eq, Decidable.not_not] using hp
  show execXcalCollect s = _
  simp only [execXcalCollect, hrun, hm, hs, hmeasured, ht, Bool.not_true, ne_eq, not_true, decide_false, Bool.or_self, Bool.false_eq_true, if_false]

/-- The device of the step is absent, and with it every later one beyond the break that cuts it off. -/
theorem exec_xcalStepTimeout_collecting (hrun : s.cul.xrun = true) (hm : s.b CUL_STATUS.MASTER = true) (hs : s.f INS_XCAL_STATUS.STATE = xcCOLLECTING) :
    exec .xcalStepTimeout s =
      .next ((s.culAnswered 0x32 s.cul.xstep).xcalAbandon
        ((s.culOthers.filter
          (fun d => decide (d = s.cul.xstep ∨ (s.f CUL_MEMBERS.FOLD_AT < s.cul.xstep ∧ s.cul.xstep < d)))).foldl (fun (a : Nat) d => a + 2 ^ d) 0)) := by
  show execXcalStepTimeout s = _
  simp only [execXcalStepTimeout, hrun, hm, hs, Bool.not_true, ne_eq, not_true, decide_false, Bool.or_self, Bool.false_eq_true, if_false]

/-- A member that holds targets without an answer ends the sweep for itself (assumption log 54). -/
theorem exec_xcalTargetTimeout_held (hh : s.cul.xheld.isSome = true) (hm : s.b CUL_STATUS.MASTER = false) :
    exec .xcalTargetTimeout s = .next s.xcalForget := by
  have hsome : s.cul.xheld.isNone = false := by rw [← Option.not_isSome, hh, Bool.not_true]
  show execXcalTargetTimeout s = _
  simp only [execXcalTargetTimeout, hsome, hm, Bool.or_self, Bool.false_eq_true, if_false]

end

/-! ## Messages of a sweep (R436, R437, R438): `t` is the state in which the message has been taken -/

section
variable {s t : State} {e : Bool} {m : List Byte}

theorem exec_xcalStartMsg_taken (ht : s.culTake 0x30 e m = (true, t)) :
    exec (.xcalStartMsg e m) s =
      .next { t with cul := { t.cul with xsweep := leAt (msgBody m) 3 1, xrun := true, xmeas := leAt (msgBody m) 2 1, xpages := leAt (msgBody m) 0 1,
                                         xfeats := [], xheld := none },
                     ins := { t.ins with sweepSide := some (leAt (msgBody m) 1 1 % 2) } } := by
  show execXcalStartMsg e m s = _
  simp only [execXcalStartMsg, ht, Bool.not_true, Bool.false_eq_true, if_false]

section
variable (hrun : t.cul.xrun = true)
include hrun

theorem exec_xcalFeatures_taken (ht : s.culTake 0x31 e m = (true, t)) (hid : leAt (msgBody m) 10 1 = t.cul.xsweep) :
    exec (.xcalFeatures e m) s = .next { t with cul := { t.cul with xfeats := t.cul.xfeats ++ [(msgSrc m, msgBody m)] } } := by
  show execXcalFeatures e m s = _
  simp only [execXcalFeatures, ht, hrun, hid, Bool.not_true, ne_eq, not_true, decide_false, Bool.or_self, Bool.false_eq_true, if_false]

section
variable (hid : leAt (msgBody m) 0 1 = t.cul.xsweep)
include hid

/-- Targets that cannot be taken are answered too, with STATUS 1 and none held. -/
theorem exec_xcalTargets_taken (ht : s.culTake 0x32 e m = (true, t)) :
    exec (.xcalTargets e m) s =
      .next (({ t with cul := { t.cul with xheld := t.readTargets (msgBody m) } } : State).culSend 0x33 (msgSrc m)
        (leBytes 1 t.cul.xsweep ++ leBytes 1 (((t.readTargets (msgBody m)).map List.length).getD 0) ++
          leBytes 1 (if (t.readTargets (msgBody m)).isSome then 0 else 1) ++ leBytes 5 0) (!e)) := by
  show execXcalTargets e m s = _
  simp only [execXcalTargets, ht, hrun, hid, Bool.not_true, ne_eq, not_true, decide_false, Bool.or_self, Bool.false_eq_true, if_false]

/-- A good reply of the step's device completes the step, and the sweep goes on with the next higher index. -/
theorem exec_xcalReply_completed (ht : s.culTake 0x33 e m = (true, t)) (hm : t.b CUL_STATUS.MASTER = true)
    (hs : t.f INS_XCAL_STATUS.STATE = xcCOLLECTING) (hd : msgSrc m = t.cul.xstep) (hok : leAt (msgBody m) 2 1 = 0) :
    exec (.xcalReply e m) s =
      (let u := t.culAnswered 0x32 (msgSrc m)
       let v := u.setF INS_XCAL_STATUS.STEPS (u.f INS_XCAL_STATUS.STEPS + 1)
       .next (v.xcalNext (u.culOthers.filter (fun k => decide (msgSrc m < k))))) := by
  show execXcalReply e m s = _
  simp only [execXcalReply, ht, hrun, hm, hs, hd, hid, hok, Bool.not_true, ne_eq, not_true, decide_false, Bool.or_self, Bool.false_eq_true, if_false]

theorem exec_xcalCommit_taken (ht : s.culTake 0x34 e m = (true, t)) : exec (.xcalCommit e m) s = .next t.xcalAdopt := by
  show execXcalCommit e m s = _
  simp only [execXcalCommit, ht, hrun, hid, decide_true, Bool.and_self, if_true]

theorem exec_xcalAbandon_taken (ht : s.culTake 0x35 e m = (true, t)) : exec (.xcalAbandon e m) s = .next t.xcalForget := by
  show execXcalAbandon e m s = _
  simp only [execXcalAbandon, ht, hrun, hid, decide_true, Bool.and_self, if_true]

end
end
end

/-- Settles O43, five clauses for the sweep's commands and timers and one for each of its messages. -/
theorem sweepCalibrationComplete : Obligations.SweepCalibrationComplete := by
  refine ⟨?_, ?_, ?_, ?_, ?_, ?_, ?_, ?_, ?_, ?_, ?_⟩
  · exact fun s t hd hm hrun hp ht => exec_xcalStart_idle hd hm hrun hp ht
  · exact fun s hd hm => exec_xcalAbort_master hd hm
  · exact fun s t own hrun hm hs hp ht => exec_xcalCollect_measured hrun hm hs hp ht
  · exact fun s hrun hm hs => exec_xcalStepTimeout_collecting hrun hm hs
  · exact fun s hh hm => exec_xcalTargetTimeout_held hh hm
  · rintro s t e m _ rfl ht
    exact exec_xcalStartMsg_taken ht
  · exact fun s t e m ht hrun hid => exec_xcalFeatures_taken hrun ht hid
  · rintro s t e m _ ht hrun rfl hid
    exact exec_xcalTargets_taken hrun hid ht
  · rintro s t e m _ _ ht hrun hm hs rfl hd rfl hid hok
    exact exec_xcalReply_completed hrun hid ht hm hs hd hok
  · exact fun s t e m ht hrun hid => exec_xcalCommit_taken hrun hid ht
  · exact fun s t e m ht hrun hid => exec_xcalAbandon_taken hrun hid ht

end Sys2Proof.Machine
end

section
/-! PROOFS. The queue and the memories (O1, O4, O8, O10, O11): a step takes the command at its front, which always answers, and only the commands listed
as storing change a byte. -/
namespace Sys2Proof.Machine

/-! ## The queue -/

/-- Settles O1, as the step is defined. -/
theorem stepRunsFrontCommand : Obligations.StepRunsFrontCommand := fun _ _ _ h => step_of_pending_cons h

/-- Settles O4: each command's meaning has its law in Laws/Runs.lean. -/
theorem everyCommandRuns : Obligations.EveryCommandRuns := fun c s => exec_runs c s

/-- Settles O8: neither an idle step nor a meaning touches the queue, from which the step has taken the front. -/
theorem stepsTakeOneCommand : Obligations.StepsTakeOneCommand := by
  intro s t ht
  cases hp : s.pending with
  | nil =>
    rw [step_of_pending_nil hp] at ht
    cases ht
    have hk : Keeps s s.tick := State.tick_keeps .rfl'
    rw [hk.queue, hp, List.tail_nil]
  | cons c rest =>
    rw [step_of_pending_cons hp] at ht
    have hk : Keeps { s with pending := rest } t := exec_keeps c _ t ht
    rw [hk.queue, List.tail_cons]

/-! ## The memories -/

theorem Rests.sameMemory {s t : State} (h : Rests s t) : s.SameMemory t :=
  ⟨fun _ => by rw [h.dram], fun _ => by rw [h.tile], fun _ => by rw [h.spool]⟩

/-- Settles O11: what an idle step changes is no memory. -/
theorem idleLeavesMemory : Obligations.IdleLeavesMemory := fun _ => (State.tick_rests .rfl').sameMemory

/-- A command that is not listed as storing leaves the memories: its meaning's law, one for each such command of the table. -/
theorem exec_rests (c : Instr) (s : State) (hc : c.mayStore = false) : RestsAns s (exec c s) :=
  match c, hc with
  | .lowWordRead fn off wide, _ => execLowWordRead_rests .rfl' fn off wide
  | .reservedAccess master off write, _ => execReservedAccess_rests .rfl' master off write
  | .unsupportedAccess master off write, _ => execUnsupportedAccess_rests .rfl' master off write
  | .clockLoss domain, _ => execClockLoss_rests .rfl' domain
  | .clockRelock domain, _ => execClockRelock_rests .rfl' domain
  | .pagePrint fn desc src, _ => execPagePrint_rests .rfl' fn desc src
  | .pageReissue fn desc, _ => execPageReissue_rests .rfl' fn desc
  | .pageRelease fn desc, _ => execPageRelease_rests .rfl' fn desc
  | .pageCancel fn desc, _ => execPageCancel_rests .rfl' fn desc
  | .descriptorInvalid fn desc, _ => execDescriptorInvalid_rests .rfl' fn desc
  | .firstLatch, _ => execFirstLatch_rests .rfl'
  | .stationLatch st, _ => execStationLatch_rests .rfl' st
  | .pageTof st, _ => execPageTof_rests .rfl' st
  | .pageLastLine st, _ => execPageLastLine_rests .rfl' st
  | .pageGapOpen st, _ => execPageGapOpen_rests .rfl' st
  | .feedRequest, _ => execFeedRequest_rests .rfl'
  | .sheetEdgeTimeout, _ => execSheetEdgeTimeout_rests .rfl'
  | .mbxSegmentTimeout, _ => execMbxSegmentTimeout_rests .rfl'
  | .sqDoorbell fn tail, _ => execSqDoorbell_rests .rfl' fn tail
  | .sqServe, _ => execSqServe_rests .rfl'
  | .descriptorReadFailed fn how, _ => execDescriptorReadFailed_rests .rfl' fn how
  | .cqHeadWrite fn head, _ => execCqHeadWrite_rests .rfl' fn head
  | .backlogDrain fn, _ => execBacklogDrain_rests .rfl' fn
  | .cqCoalesceTimeout fn, _ => execCqCoalesceTimeout_rests .rfl' fn
  | .qEnable fn, _ => execQEnable_rests .rfl' fn
  | .qDisable fn, _ => execQDisable_rests .rfl' fn
  | .qPause fn, _ => execQPause_rests .rfl' fn
  | .qResume fn, _ => execQResume_rests .rfl' fn
  | .flrStart fn, _ => execFlrStart_rests .rfl' fn
  | .flrComplete fn, _ => execFlrComplete_rests .rfl' fn
  | .configRequest fn write off, _ => execConfigRequest_rests .rfl' fn write off
  | .perstAssert, _ => execPerstAssert_rests .rfl'
  | .linkDown hotReset, _ => execLinkDown_rests .rfl' hotReset
  | .linkUp width speed corrected, _ => execLinkUp_rests .rfl' width speed corrected
  | .msixUnmask fn vec, _ => execMsixUnmask_rests .rfl' fn vec
  | .d3hotEntry fn, _ => execD3hotEntry_rests .rfl' fn
  | .d0Return fn, _ => execD0Return_rests .rfl' fn
  | .perstDeassert, _ => execPerstDeassert_rests .rfl'
  | .chAssignWrite ch value, _ => execChAssignWrite_rests .rfl' ch value
  | .fnWinWrite fn value, _ => execFnWinWrite_rests .rfl' fn value
  | .chEnable ch, _ => execChEnable_rests .rfl' ch
  | .chDisable ch, _ => execChDisable_rests .rfl' ch
  | .chDoorbell ch tail, _ => execChDoorbell_rests .rfl' ch tail
  | .chAbort ch resume, _ => execChAbort_rests .rfl' ch resume
  | .chResume ch, _ => execChResume_rests .rfl' ch
  | .chDescriptorFetch ch, _ => execChDescriptorFetch_rests .rfl' ch
  | .chDescriptor ch desc, _ => execChDescriptor_rests .rfl' ch desc
  | .spoolEnable, _ => execSpoolEnable_rests .rfl'
  | .spoolDisable, _ => execSpoolDisable_rests .rfl'
  | .spoolRecoveryDone, _ => execSpoolRecoveryDone_rests .rfl'
  | .epochRollover journalOk burnOk saltOk, _ => execEpochRollover_rests .rfl' journalOk burnOk saltOk
  | .sliceTrimDone fn, _ => execSliceTrimDone_rests .rfl' fn
  | .sliceEnum fn max, _ => execSliceEnum_rests .rfl' fn max
  | .sliceEnumDone fn, _ => execSliceEnumDone_rests .rfl' fn
  | .placementListLanded st, _ => execPlacementListLanded_rests .rfl' st
  | .directoryEntryRead st failed tag, _ => execDirectoryEntryRead_rests .rfl' st failed tag
  | .tileLoadResume fn tile, _ => execTileLoadResume_rests .rfl' fn tile
  | .riskReevaluate, _ => execRiskReevaluate_rests .rfl'
  | .pinResident entry, _ => execPinResident_rests .rfl' entry
  | .furrowRelease st, _ => execFurrowRelease_rests .rfl' st
  | .furrowComplete flume ecc corrected, _ => execFurrowComplete_rests .rfl' flume ecc corrected
  | .furrowDataDeadline st, _ => execFurrowDataDeadline_rests .rfl' st
  | .furrowLate st, _ => execFurrowLate_rests .rfl' st
  | .flumeStall flume, _ => execFlumeStall_rests .rfl' flume
  | .redoStart, _ => execRedoStart_rests .rfl'
  | .flumeUnfence flume, _ => execFlumeUnfence_rests .rfl' flume
  | .flumeTestDone flume pass, _ => execFlumeTestDone_rests .rfl' flume pass
  | .stationTableWrite master off value, _ => execStationTableWrite_rests .rfl' master off value
  | .tableLogIdleApply st, _ => execTableLogIdleApply_rests .rfl' st
  | .predictorEvaluate, _ => execPredictorEvaluate_rests .rfl'
  | .encoderCount n a b, _ => execEncoderCount_rests .rfl' n a b
  | .webEncoderLost, _ => execWebEncoderLost_rests .rfl'
  | .pcEncoderLost st, _ => execPcEncoderLost_rests .rfl' st
  | .sweepTrigger st, _ => execSweepTrigger_rests .rfl' st
  | .bdPulse st, _ => execBdPulse_rests .rfl' st
  | .bdMissed st, _ => execBdMissed_rests .rfl' st
  | .lockLossTimeout st, _ => execLockLossTimeout_rests .rfl' st
  | .facetIdDone st, _ => execFacetIdDone_rests .rfl' st
  | .scanWindowOpen st, _ => execScanWindowOpen_rests .rfl' st
  | .zoneStart st zone, _ => execZoneStart_rests .rfl' st zone
  | .scanWindowClose st, _ => execScanWindowClose_rests .rfl' st
  | .classRequest master value, _ => execClassRequest_rests .rfl' master value
  | .classChangeStart, _ => execClassChangeStart_rests .rfl'
  | .classSettled, _ => execClassSettled_rests .rfl'
  | .classRampTimeout, _ => execClassRampTimeout_rests .rfl'
  | .pllLockStart pll, _ => execPllLockStart_rests .rfl' pll
  | .pllLockDeclared pll, _ => execPllLockDeclared_rests .rfl' pll
  | .pllLockLost pll, _ => execPllLockLost_rests .rfl' pll
  | .pllLockTimeout pll, _ => execPllLockTimeout_rests .rfl' pll
  | .pllRetry pll, _ => execPllRetry_rests .rfl' pll
  | .pllRelock pll, _ => execPllRelock_rests .rfl' pll
  | .blEnable bl, _ => execBlEnable_rests .rfl' bl
  | .blDisable bl, _ => execBlDisable_rests .rfl' bl
  | .blRetrain bl, _ => execBlRetrain_rests .rfl' bl
  | .blTrainAlign bl, _ => execBlTrainAlign_rests .rfl' bl
  | .blTrainPoll bl, _ => execBlTrainPoll_rests .rfl' bl
  | .blTrainTimeout bl, _ => execBlTrainTimeout_rests .rfl' bl
  | .linkPoll bl, _ => execLinkPoll_rests .rfl' bl
  | .sidebandTransaction bl, _ => execSidebandTransaction_rests .rfl' bl
  | .sidebandResponse bl data, _ => execSidebandResponse_rests .rfl' bl data
  | .sidebandTimeout bl, _ => execSidebandTimeout_rests .rfl' bl
  | .sidebandBusyRetry bl, _ => execSidebandBusyRetry_rests .rfl' bl
  | .routeWrite st value, _ => execRouteWrite_rests .rfl' st value
  | .routeExchangeApply, _ => execRouteExchangeApply_rests .rfl'
  | .offsetWrite st value, _ => execOffsetWrite_rests .rfl' st value
  | .calrefOkChange present err, _ => execCalrefOkChange_rests .rfl' present err
  | .monitorRead st, _ => execMonitorRead_rests .rfl' st
  | .tapCalMeasure st count, _ => execTapCalMeasure_rests .rfl' st count
  | .halfAdvanceWrite master value, _ => execHalfAdvanceWrite_rests .rfl' master value
  | .scanLinkLock side, _ => execScanLinkLock_rests .rfl' side
  | .scanLinkLockLoss side lanes, _ => execScanLinkLockLoss_rests .rfl' side lanes
  | .cisLine side lanes, _ => execCisLine_rests .rfl' side lanes
  | .inspectionResultComplete side, _ => execInspectionResultComplete_rests .rfl' side
  | .insAck side seq, _ => execInsAck_rests .rfl' side seq
  | .calWhite side, _ => execCalWhite_rests .rfl' side
  | .calChart side, _ => execCalChart_rests .rfl' side
  | .calCaptureDone side, _ => execCalCaptureDone_rests .rfl' side
  | .auditExport, _ => execAuditExport_rests .rfl'
  | .loopOff lp, _ => execLoopOff_rests .rfl' lp
  | .loopOpen lp, _ => execLoopOpen_rests .rfl' lp
  | .loopClose lp, _ => execLoopClose_rests .rfl' lp
  | .loopSample lp code ecc, _ => execLoopSample_rests .rfl' lp code ecc
  | .loopOutput lp late, _ => execLoopOutput_rests .rfl' lp late
  | .adcScanConversion ch code, _ => execAdcScanConversion_rests .rfl' ch code
  | .pwmCarrierPeriod c, _ => execPwmCarrierPeriod_rests .rfl' c
  | .polySearchShift st, _ => execPolySearchShift_rests .rfl' st
  | .axEnable ax, _ => execAxEnable_rests .rfl' ax
  | .axEnableComplete ax ta tb, _ => execAxEnableComplete_rests .rfl' ax ta tb
  | .axDisable ax, _ => execAxDisable_rests .rfl' ax
  | .axMoveAbs ax arm, _ => execAxMoveAbs_rests .rfl' ax arm
  | .axMoveRel ax arm, _ => execAxMoveRel_rests .rfl' ax arm
  | .axJogPos ax arm, _ => execAxJogPos_rests .rfl' ax arm
  | .axJogNeg ax arm, _ => execAxJogNeg_rests .rfl' ax arm
  | .axStop ax, _ => execAxStop_rests .rfl' ax
  | .axQstop ax, _ => execAxQstop_rests .rfl' ax
  | .axResume ax arm, _ => execAxResume_rests .rfl' ax arm
  | .axSetpos ax, _ => execAxSetpos_rests .rfl' ax
  | .axClear ax, _ => execAxClear_rests .rfl' ax
  | .axStepEvent ax, _ => execAxStepEvent_rests .rfl' ax
  | .axDeviationCheck ax, _ => execAxDeviationCheck_rests .rfl' ax
  | .axSettleCheck ax, _ => execAxSettleCheck_rests .rfl' ax
  | .axHoldTimeout ax, _ => execAxHoldTimeout_rests .rfl' ax
  | .chopThresholdCross ax phase, _ => execChopThresholdCross_rests .rfl' ax phase
  | .chopMixEnd ax phase, _ => execChopMixEnd_rests .rfl' ax phase
  | .chopMaxOnTimeout ax phase, _ => execChopMaxOnTimeout_rests .rfl' ax phase
  | .chopBlankingEnd ax phase atLevel, _ => execChopBlankingEnd_rests .rfl' ax phase atLevel
  | .turnoutRound, _ => execTurnoutRound_rests .rfl'
  | .taskAxGo ax, _ => execTaskAxGo_rests .rfl' ax
  | .taskAxStop ax, _ => execTaskAxStop_rests .rfl' ax
  | .taskAxQstop ax, _ => execTaskAxQstop_rests .rfl' ax
  | .taskAxCapture ax, _ => execTaskAxCapture_rests .rfl' ax
  | .taskLoopIndex lp, _ => execTaskLoopIndex_rests .rfl' lp
  | .taskEncCapture n, _ => execTaskEncCapture_rests .rfl' n
  | .taskTimerStart, _ => execTaskTimerStart_rests .rfl'
  | .taskLatPulse n, _ => execTaskLatPulse_rests .rfl' n
  | .taskTofCapture, _ => execTaskTofCapture_rests .rfl'
  | .taskSwSignal n, _ => execTaskSwSignal_rests .rfl' n
  | .taskAck tk n, _ => execTaskAck_rests .rfl' tk n
  | .taskConfigWrite tk source value, _ => execTaskConfigWrite_rests .rfl' tk source value
  | .swEventRaise bits, _ => execSwEventRaise_rests .rfl' bits
  | .timerExpire n, _ => execTimerExpire_rests .rfl' n
  | .webCompareArm n value, _ => execWebCompareArm_rests .rfl' n value
  | .webCompareFire n, _ => execWebCompareFire_rests .rfl' n
  | .latPortEnable p, _ => execLatPortEnable_rests .rfl' p
  | .latPortDisable p, _ => execLatPortDisable_rests .rfl' p
  | .latRescan p, _ => execLatRescan_rests .rfl' p
  | .latEnumSend p, _ => execLatEnumSend_rests .rfl' p
  | .latEnumReturn p frame, _ => execLatEnumReturn_rests .rfl' p frame
  | .latCycleStart p, _ => execLatCycleStart_rests .rfl' p
  | .latCyclicReturn p frame, _ => execLatCyclicReturn_rests .rfl' p frame
  | .latOimgWrite p node w value, _ => execLatOimgWrite_rests .rfl' p node w value
  | .latMbxRead p, _ => execLatMbxRead_rests .rfl' p
  | .latMbxWrite p, _ => execLatMbxWrite_rests .rfl' p
  | .latMbxReturn p frame, _ => execLatMbxReturn_rests .rfl' p frame
  | .latMbxTimeout p, _ => execLatMbxTimeout_rests .rfl' p
  | .latJoinSend p, _ => execLatJoinSend_rests .rfl' p
  | .latJoinReturn p frame, _ => execLatJoinReturn_rests .rfl' p frame
  | .fanDutyWrite fc duty, _ => execFanDutyWrite_rests .rfl' fc duty
  | .fanKickEnd fc rpm, _ => execFanKickEnd_rests .rfl' fc rpm
  | .fanRetry fc, _ => execFanRetry_rests .rfl' fc
  | .fanMeasure fc rpm, _ => execFanMeasure_rests .rfl' fc rpm
  | .fanTachLost fc, _ => execFanTachLost_rests .rfl' fc
  | .fanTachRecover fc, _ => execFanTachRecover_rests .rfl' fc
  | .fanClear fc, _ => execFanClear_rests .rfl' fc
  | .xcalStart, _ => execXcalStart_rests .rfl'
  | .xcalAbort, _ => execXcalAbort_rests .rfl'
  | .xcalCollect, _ => execXcalCollect_rests .rfl'
  | .xcalStepTimeout, _ => execXcalStepTimeout_rests .rfl'
  | .xcalTargetTimeout, _ => execXcalTargetTimeout_rests .rfl'
  | .xcalStartMsg east msg, _ => execXcalStartMsg_rests .rfl' east msg
  | .xcalFeatures east msg, _ => execXcalFeatures_rests .rfl' east msg
  | .xcalTargets east msg, _ => execXcalTargets_rests .rfl' east msg
  | .xcalReply east msg, _ => execXcalReply_rests .rfl' east msg
  | .xcalCommit east msg, _ => execXcalCommit_rests .rfl' east msg
  | .xcalAbandon east msg, _ => execXcalAbandon_rests .rfl' east msg
  | .culEnable on, _ => execCulEnable_rests .rfl' on
  | .culRestart, _ => execCulRestart_rests .rfl'
  | .culUnfold, _ => execCulUnfold_rests .rfl'
  | .culPortUp east, _ => execCulPortUp_rests .rfl' east
  | .culPortDown east lanes, _ => execCulPortDown_rests .rfl' east lanes
  | .culFoldReceived east, _ => execCulFoldReceived_rests .rfl' east
  | .culIndexSend, _ => execCulIndexSend_rests .rfl'
  | .culIndex east msg, _ => execCulIndex_rests .rfl' east msg
  | .culDelayReq east turn msg, _ => execCulDelayReq_rests .rfl' east turn msg
  | .culDelayRsp east msg, _ => execCulDelayRsp_rests .rfl' east msg
  | .culTimebaseSend, _ => execCulTimebaseSend_rests .rfl'
  | .culTimebase east wait msg, _ => execCulTimebase_rests .rfl' east wait msg
  | .culTimebaseLost, _ => execCulTimebaseLost_rests .rfl'
  | .culStatusSend, _ => execCulStatusSend_rests .rfl'
  | .culStatus east msg, _ => execCulStatus_rests .rfl' east msg
  | .culFault east msg, _ => execCulFault_rests .rfl' east msg
  | .culPartCommit east msg, _ => execCulPartCommit_rests .rfl' east msg
  | .culPartTake, _ => execCulPartTake_rests .rfl'
  | .culPartResend pageId, _ => execCulPartResend_rests .rfl' pageId
  | .culSchedule east msg, _ => execCulSchedule_rests .rfl' east msg
  | .culPageSpoil east msg, _ => execCulPageSpoil_rests .rfl' east msg
  | .culOdRsp east msg, _ => execCulOdRsp_rests .rfl' east msg
  | .culTunnelTimeout, _ => execCulTunnelTimeout_rests .rfl'
  | .culFoldNotice east msg, _ => execCulFoldNotice_rests .rfl' east msg
  | .culUnfoldCheck, _ => execCulUnfoldCheck_rests .rfl'
  | .culUnfoldMsg east msg, _ => execCulUnfoldMsg_rests .rfl' east msg
  | .culUnwrap, _ => execCulUnwrap_rests .rfl'
  | .culMessageForward east good msg, _ => execCulMessageForward_rests .rfl' east good msg
  | .alStateRequest target station mbxOk sm2 sm3 sync0 siiOk, _ => execAlStateRequest_rests .rfl' target station mbxOk sm2 sm3 sync0 siiOk
  | .sm2Watchdog, _ => execSm2Watchdog_rests .rfl'
  | .sync0Edge dcTime fresh, _ => execSync0Edge_rests .rfl' dcTime fresh
  | .sm3ReadComplete, _ => execSm3ReadComplete_rests .rfl'
  | .dcOffsetMeasure dcTime, _ => execDcOffsetMeasure_rests .rfl' dcTime
  | .foeWrite name password packet data last, _ => execFoeWrite_rests .rfl' name password packet data last
  | .foeRead name, _ => execFoeRead_rests .rfl' name
  | .mailboxUnsupported protocol, _ => execMailboxUnsupported_rests .rfl' protocol
  | .ectLinkChange port up, _ => execEctLinkChange_rests .rfl' port up
  | .calStoreComplete ok, _ => execCalStoreComplete_rests .rfl' ok
  | .powerStateRequest value, _ => execPowerStateRequest_rests .rfl' value
  | .powerStepReadyToRun, _ => execPowerStepReadyToRun_rests .rfl'
  | .powerStepRunToReady, _ => execPowerStepRunToReady_rests .rfl'
  | .powerStepReadyToStandby, _ => execPowerStepReadyToStandby_rests .rfl'
  | .powerStepStandbyToReady, _ => execPowerStepStandbyToReady_rests .rfl'
  | .powerStepSleepToStandby, _ => execPowerStepSleepToStandby_rests .rfl'
  | .powerStepHibernateToOff, _ => execPowerStepHibernateToOff_rests .rfl'
  | .wakeNFall, _ => execWakeNFall_rests .rfl'
  | .dcWakeTimer, _ => execDcWakeTimer_rests .rfl'
  | .pmicPowerGood enable, _ => execPmicPowerGood_rests .rfl' enable
  | .pmicEnableTimeout enable, _ => execPmicEnableTimeout_rests .rfl' enable
  | .pmicRetry, _ => execPmicRetry_rests .rfl'
  | .pmbusPoll ok fault, _ => execPmbusPoll_rests .rfl' ok fault
  | .paceEvaluate slack vread, _ => execPaceEvaluate_rests .rfl' slack vread
  | .vddCoreUndervolt, _ => execVddCoreUndervolt_rests .rfl'
  | .railMonitorReading codes, _ => execRailMonitorReading_rests .rfl' codes
  | .railPgDrop k, _ => execRailPgDrop_rests .rfl' k
  | .railPgRise k, _ => execRailPgRise_rests .rfl' k
  | .railBlankEnd k, _ => execRailBlankEnd_rests .rfl' k
  | .seqProgramWrite n value, _ => execSeqProgramWrite_rests .rfl' n value
  | .seqEnd, _ => execSeqEnd_rests .rfl'
  | .seqEnable, _ => execSeqEnable_rests .rfl'
  | .seqDisable, _ => execSeqDisable_rests .rfl'
  | .seqWait, _ => execSeqWait_rests .rfl'
  | .seqWaitpg expired, _ => execSeqWaitpg_rests .rfl' expired
  | .seqCheck, _ => execSeqCheck_rests .rfl'
  | .seqJump, _ => execSeqJump_rests .rfl'
  | .seqJumpif, _ => execSeqJumpif_rests .rfl'
  | .seqLimitTimeout, _ => execSeqLimitTimeout_rests .rfl'
  | .weirGraceExpiry, _ => execWeirGraceExpiry_rests .rfl'
  | .thermalRestart, _ => execThermalRestart_rests .rfl'
  | .sysResetRelease, _ => execSysResetRelease_rests .rfl'
  | .dramTrained ok channel installed, _ => execDramTrained_rests .rfl' ok channel installed
  | .otpReadS addr, _ => execOtpReadS_rests .rfl' addr
  | .otpWriteS addr, _ => execOtpWriteS_rests .rfl' addr
  | .otpSetP addr, _ => execOtpSetP_rests .rfl' addr
  | .otpOperationDone bad err, _ => execOtpOperationDone_rests .rfl' bad err
  | .lcRequestSecured key, _ => execLcRequestSecured_rests .rfl' key
  | .lcRequestReturned key, _ => execLcRequestReturned_rests .rfl' key
  | .lcTransitionDone bad, _ => execLcTransitionDone_rests .rfl' bad
  | .svnCommit, _ => execSvnCommit_rests .rfl'
  | .tokenRevoke count, _ => execTokenRevoke_rests .rfl' count
  | .challengeRead, _ => execChallengeRead_rests .rfl'
  | .tokenSubmit token, _ => execTokenSubmit_rests .rfl' token
  | .tokenCheckDone, _ => execTokenCheckDone_rests .rfl'
  | .sessionClose, _ => execSessionClose_rests .rfl'
  | .sessionExpired, _ => execSessionExpired_rests .rfl'
  | .trngHealthFail, _ => execTrngHealthFail_rests .rfl'
  | .trngRecover, _ => execTrngRecover_rests .rfl'
  | .jtagBypass, _ => execJtagBypass_rests .rfl'
  | .jtagIdcode, _ => execJtagIdcode_rests .rfl'
  | .jtagSamplePreload cells, _ => execJtagSamplePreload_rests .rfl' cells
  | .jtagExtest, _ => execJtagExtest_rests .rfl'
  | .jtagClamp, _ => execJtagClamp_rests .rfl'
  | .jtagHighz, _ => execJtagHighz_rests .rfl'
  | .jtagOtpAccess op addr data, _ => execJtagOtpAccess_rests .rfl' op addr data
  | .sumpRearm, _ => execSumpRearm_rests .rfl'
  | .sumpPop, _ => execSumpPop_rests .rfl'
  | .sumpRelease, _ => execSumpRelease_rests .rfl'
  | .selfCheckCompare flt hdg, _ => execSelfCheckCompare_rests .rfl' flt hdg
  | .heartbeatKick, _ => execHeartbeatKick_rests .rfl'
  | .heartbeatTimeout, _ => execHeartbeatTimeout_rests .rfl'
  | .aliveToggle, _ => execAliveToggle_rests .rfl'
  | .interlockChange cover isOpen, _ => execInterlockChange_rests .rfl' cover isOpen
  | .tachEdge enc, _ => execTachEdge_rests .rfl' enc
  | .speedGateTimeout st, _ => execSpeedGateTimeout_rests .rfl' st
  | .emitterOntimeExceeded st emitter, _ => execEmitterOntimeExceeded_rests .rfl' st emitter
  | .dutyEvaluate onTimes, _ => execDutyEvaluate_rests .rfl' onTimes
  | .hdgLimitWrite off value, _ => execHdgLimitWrite_rests .rfl' off value
  | .recordFlashWrite ok, _ => execRecordFlashWrite_rests .rfl' ok
  | .recordRead seq, _ => execRecordRead_rests .rfl' seq
  | .recordClear value, _ => execRecordClear_rests .rfl' value
  | .recordClearDone, _ => execRecordClearDone_rests .rfl'
  | .registerWrite .., h | .coeSdoUpload .., h | .coeSdoDownload .., h | .coeSdoInformation .., h | .sdoQueuedStart, h | .mbxUpload, h
  | .mbxDownload, h | .mbxUploadComplete, h | .mbxDownloadComplete, h | .mbxGetOdList, h | .mbxGetObjectDesc, h | .mbxGetEntryDesc, h
  | .sipBurst .., h | .descriptorComplete .., h | .barrierReadComplete .., h | .driveReady .., h | .driveReadyTimeout .., h
  | .nvmeCommandComplete .., h | .nvmeCommandTimeout .., h | .driveFailed .., h | .sliceQuotaWrite .., h | .sliceTrim .., h
  | .spoolLinkTrained .., h | .korJobGo .., h | .korJobFlush .., h | .korJobClose .., h | .korJobAbort .., h | .korJobWaiting .., h
  | .korJobDone .., h | .tileLoadComplete .., h | .pinEnable .., h | .pinDisable .., h | .auditExportDone .., h | .culOdReq .., h
  | .rxpdoApply .., h | .storeParameters, h | .restoreDefaults, h | .calSetWrite .., h | .powerStepStandbyToSleep, h
  | .powerStepSleepToHibernate, h | .powerOnReset .., h | .vddAonLow, h | .thermalSensorRound .., h | .sysResetAssert, h | .firmwareVerified .., h
  | .jtagSecMbx .., h | .jtagDbgAccess .., h | .sumpReport, h | .sumpReportLost, h | .sumpRecovery, h => nomatch h

/-- Settles O10: the memories themselves are the same, and so is every byte of them. -/
theorem othersLeaveMemory : Obligations.OthersLeaveMemory := fun c s t hc ht => (exec_rests c s hc t ht).sameMemory

end Sys2Proof.Machine
end

section
/-! PROOFS. Loops (O36, R445, R448, R450, R453, R463, R466): the commands of a loop, its samples and their outputs, and the events of the loop engine's
other parts. -/
namespace Sys2Proof.Machine

section
variable {s : State} {lp : Nat} (hlp : lp < 64)
include hlp

/-! ## Commands (R445) -/

section
variable (hd : s.poweredDown (LPE_LP_CMD.word lp) = false)
include hd

theorem exec_loopOff_on (hs : s.lpState lp ≠ lpOFF) : exec (.loopOff lp) s = .next (s.lpOff lp) := by
  show execLoopOff lp s = _
  simp only [execLoopOff, Nat.not_le.2 hlp, hd, hs, Bool.false_eq_true, if_false]

/-- The positions and counts of the moment are the zeros the loop counts from. -/
theorem exec_loopOpen_off (hs : s.lpState lp = lpOFF) (hc : s.lpOpenCheck lp = 0) {t : State}
    (ht : t = s.setLoop lp { u := (s.loop lp).u, prime := true, zero := s.lpPosCount lp, pcnt := s.lpPosCount lp,
                             open0 := (s.encIn (s.f (LPE_LP_IN.INDEX lp))).cnt, cnt := (s.encIn (s.f (LPE_LP_IN.INDEX lp))).cnt,
                             ofs := s.word (LPE_LP_POS_OFS.word lp) }) :
    exec (.loopOpen lp) s = .next ((t.setF (LPE_LP_STATUS.FAULT lp) 0).lpTo lp lpOPEN) := by
  have hclosed : lpOFF ≠ lpCLOSED := by decide
  show execLoopOpen lp s = _
  simp only [execLoopOpen, Nat.not_le.2 hlp, hd, hs, hc, hclosed, ← ht, ne_eq, not_true, Bool.false_eq_true, if_false]

theorem exec_loopOpen_refused (hs : s.lpState lp = lpOFF) (hc : s.lpOpenCheck lp ≠ 0) :
    exec (.loopOpen lp) s = .next (s.lpRefuse lp (s.lpOpenCheck lp)) := by
  have hclosed : lpOFF ≠ lpCLOSED := by decide
  show execLoopOpen lp s = _
  simp only [execLoopOpen, Nat.not_le.2 hlp, hd, hs, hc, hclosed, ne_eq, not_true, not_false_eq_true, Bool.false_eq_true, if_false, if_true]

theorem exec_loopClose_open (hs : s.lpState lp = lpOPEN) (hok : s.lpCloseOk lp = true) :
    exec (.loopClose lp) s = .next ((s.lpConstants lp).lpTo lp lpCLOSED) := by
  show execLoopClose lp s = _
  simp only [execLoopClose, Nat.not_le.2 hlp, hd, hs, hok, ne_eq, not_true, Bool.not_true, Bool.false_eq_true, if_false]

end

/-! ## Samples and outputs (R447, R448, R468) -/

section
variable (haw : s.awake = true)
include haw

section
variable (hrun : s.lpRuns lp = true)
include hrun

/-- A source that is there and not stale gives a measurement, which is evaluated. -/
theorem exec_loopSample_fresh {t : State} (c : BitVec 16)
    (ht : t = if s.lpAdc lp then s.setF (LPE_ADC_VAL.CODE (s.f (LPE_LP_IN.INDEX lp))) c.toNat else s)
    (hl : t.lpLost lp = false) (hst : t.lpStale lp = false) {u : State} (hu : u = ((s.lpArrive lp c).lpRaw lp c).2.2) :
    exec (.loopSample lp c 0) s =
      .next (u.lpConclude lp (u.lpEvaluate lp (((s.lpArrive lp c).lpRaw lp c).1, ((s.lpArrive lp c).lpRaw lp c).2.1))) := by
  show execLoopSample lp c 0 s = _
  simp only [execLoopSample, Nat.not_le.2 hlp, hrun, haw, ← ht, hl, hst, ← hu, Nat.reduceEqDiff, Nat.zero_ne_one, Bool.not_true, Bool.false_eq_true,
    or_self, if_false]

/-- The sample whose tables meet an uncorrectable error gives no output (assumption log 99). -/
theorem exec_loopSample_uncorrectable (c : BitVec 16) : exec (.loopSample lp c 2) s = .next (s.report 0x0B 3 0x0C lp) := by
  show execLoopSample lp c 2 s = _
  simp only [execLoopSample, Nat.not_le.2 hlp, hrun, haw, Bool.not_true, Bool.false_eq_true, or_self, if_false, if_true]

/-- An output that is late is dropped and counted; the third late one in a row is fault 5. -/
theorem exec_loopOutput_late {t : State}
    (ht : t = (s.modLoop lp (fun x => { x with late := (s.loop lp).late + 1, due := none })).satInc (LPE_LP_CNT.OVERRUN lp)) :
    exec (.loopOutput lp true) s = .next (if 3 ≤ (s.loop lp).late + 1 then t.lpFault lp 5 else t) := by
  show execLoopOutput lp true s = _
  simp only [execLoopOutput, Nat.not_le.2 hlp, hrun, haw, ← ht, Bool.not_true, Bool.and_self, Bool.false_eq_true, or_self, if_false, if_true]

end

theorem exec_loopOutput_due {u : F32} (hdue : (s.loop lp).due = some u) (hs : s.lpState lp ≠ lpFAULT)
    (hsame : (s.modLoop lp (fun x => { x with due := none, late := 0 })).lpState lp = s.lpState lp) :
    exec (.loopOutput lp false) s = .next ((s.modLoop lp (fun x => { x with due := none, late := 0 })).lpDrive lp u) := by
  show execLoopOutput lp false s = _
  simp only [execLoopOutput, Nat.not_le.2 hlp, haw, hdue, hsame, hs, Bool.not_true, Bool.false_and, Bool.false_eq_true, or_self, if_false]

end
end

/-! ## Converter, carriers and polygons (R450, R463, R466) -/

section
variable {s : State}

theorem exec_adcScanConversion_turn (haw : s.awake = true) {ch : Nat} (ht : s.scanTurn = some ch) (c : BitVec 16) :
    exec (.adcScanConversion ch c) s =
      .next (({ s with lpe := { s.lpe with scan := ch + 1 } } : State).setF (LPE_ADC_VAL.CODE ch) c.toNat) := by
  show execAdcScanConversion ch c s = _
  simp only [execAdcScanConversion, haw, ht, ne_eq, not_true, decide_false, Bool.not_true, Bool.or_self, Bool.false_eq_true, if_false]

theorem exec_pwmCarrierPeriod_awake (haw : s.awake = true) {c : Nat} (hc : c < 32) {t : State}
    (ht : t = { s with lpe := { s.lpe with pwm := s.lpe.pwm.set 0 c (s.f (LPE_PWM_DUTY.DUTY c)) } }) :
    exec (.pwmCarrierPeriod c) s = .next (t.emit (.wire (2000 + c) (xor (decide (s.f (LPE_PWM_DUTY.DUTY c) ≠ 0)) (t.b (LPE_PWM_CFG.INV c))))) := by
  show execPwmCarrierPeriod c s = _
  simp only [execPwmCarrierPeriod, haw, Nat.not_le.2 hc, ← ht, Bool.not_true, Bool.false_eq_true, or_self, if_false]

/-- The search moves by 15/800 of a revolution (assumption log 43). -/
theorem exec_polySearchShift_unfound {st lp : Nat} (hl : s.polyLoop st = some lp) (hs : s.lpState lp = lpCLOSED) (hp : s.poly st = polyACQUIRE)
    (hnone : ((s.scnSt st).acqAt :: (s.scnSt st).bd).any (fun t => decide (s.now.toNat < t + 64 * s.period)) = false) :
    exec (.polySearchShift st) s =
      .next ((s.modScnSt st (fun x => { x with acqAt := s.now.toNat })).modLoop lp
        (fun x => { x with ofs := Flt.add x.ofs (Flt.ofRat 15 800), anchor := true })) := by
  show execPolySearchShift st s = _
  simp only [execPolySearchShift, hl, hs, hp, hnone, ne_eq, not_true, Bool.false_eq_true, or_self, if_false]

end

/-- Settles O36, one clause for each command, two for each of OPEN, a sample and an output. -/
theorem loopsComplete : Obligations.LoopsComplete := by
  refine ⟨?_, ?_, ?_, ?_, ?_, ?_, ?_, ?_, ?_, ?_, ?_⟩
  · exact fun s lp hlp hd hs => exec_loopOff_on hlp hd hs
  · exact fun s t lp hlp hd hs hc ht => exec_loopOpen_off hlp hd hs hc ht
  · exact fun s lp hlp hd hs hc => exec_loopOpen_refused hlp hd hs hc
  · exact fun s lp hlp hd hs hok => exec_loopClose_open hlp hd hs hok
  · rintro s u t lp c _ hlp rfl hrun haw ht hl hst hu
    exact exec_loopSample_fresh hlp haw hrun c ht hl hst hu
  · exact fun s lp c hlp hrun haw => exec_loopSample_uncorrectable hlp haw hrun c
  · exact fun s lp u hlp haw hdue hs hsame => exec_loopOutput_due hlp haw hdue hs hsame
  · exact fun s t lp hlp haw hrun ht => exec_loopOutput_late hlp haw hrun ht
  · exact fun s ch c haw ht => exec_adcScanConversion_turn haw ht c
  · exact fun s t c hc haw ht => exec_pwmCarrierPeriod_awake haw hc ht
  · exact fun s st lp hl hs hp hnone => exec_polySearchShift_unfound hl hs hp hnone

end Sys2Proof.Machine
end

section
/-! PROOFS. The lateral chain (O38, O53, R509 to R523, R537): a port's controls and its enumeration, its cycles and images, the mailbox, and nodes that
join again. -/
namespace Sys2Proof.Machine

/-- Where no byte is held at its old value `w`, the low bytes of a number, each put back in its place, are the number's remainder. -/
theorem foldl_unheld_bytes {held : Nat → Bool} {n : Nat} (hb : ∀ i < n, held i = false) (w v : Nat) :
    (List.range n).foldl (fun (a : Nat) i => if held i then a + bits w (8 * i) 8 * 2 ^ (8 * i) else a + bits v (8 * i) 8 * 2 ^ (8 * i)) 0 =
      v % 2 ^ (8 * n) := by
  induction n with
  | zero => rw [List.range_zero, List.foldl_nil, Nat.mul_zero, Nat.pow_zero, Nat.mod_one]
  | succ n ih =>
    rw [List.range_succ, List.foldl_append, ih fun i hi => hb i (Nat.lt_succ_of_lt hi), List.foldl_cons, List.foldl_nil, hb n (Nat.lt_succ_self n),
      if_neg Bool.false_ne_true, bits, Nat.mul_succ, Nat.pow_add, Nat.mod_mul, Nat.mul_comm (2 ^ (8 * n))]

section
variable {s : State} {p : Nat} (hp : p < 4)
include hp

theorem State.latGuard_lit {off : Nat} (hd : s.poweredDown off = false) (v : Nat) : s.latGuard p off v = none := by
  simp only [State.latGuard, Nat.not_le.2 hp, hd, Bool.false_eq_true, if_false]

/-! ## The control of a port (R511, R537) -/

section
variable (hd : s.poweredDown (LAT_PORT_CTRL.word p) = false)
include hd

theorem exec_latPortEnable_off (hs : s.f (LAT_PORT_STATUS.STATE p) = latOFF) :
    exec (.latPortEnable p) s = .next ((s.setF (LAT_PORT_CTRL.ENABLE p) 1).latEnum p) := by
  show execLatPortEnable p s = _
  simp only [execLatPortEnable, State.latGuard_lit hp hd, hs, true_or, if_true]

theorem exec_latPortDisable_unbound (he : s.f (LAT_PORT_CTRL.ENABLE p) ≠ 0) (hb : s.latBound p = false) :
    exec (.latPortDisable p) s =
      .next (((s.modLatPort p (fun x => { x with enumAt := none, away := false, joins := [], joinDue := false, pulses := [] })).setF
        (LAT_PORT_CTRL.ENABLE p) 0).latTo p latOFF) := by
  show execLatPortDisable p s = _
  simp only [execLatPortDisable, State.latGuard_lit hp hd, he, hb, Bool.false_eq_true, if_false]

theorem exec_latPortDisable_bound (hb : s.latBound p = true) : exec (.latPortDisable p) s = .next (s.raise LAT_STATUS.CTRL_REFUSED) := by
  show execLatPortDisable p s = _
  simp only [execLatPortDisable, State.latGuard_lit hp hd, hb, if_true]

theorem exec_latRescan_enabled (hr : s.inRun = false) (he : s.f (LAT_PORT_CTRL.ENABLE p) ≠ 0) : exec (.latRescan p) s = .next (s.latEnum p) := by
  show execLatRescan p s = _
  simp only [execLatRescan, State.latGuard_lit hp hd, hr, he, Bool.false_eq_true, if_false]

end

/-! ## Enumeration (R509, R511) -/

section
variable (hs : s.f (LAT_PORT_STATUS.STATE p) = latENUM)
include hs

theorem exec_latEnumSend_enum (hr : s.latRuns = true) {t : State} (ht : t = s.modLatPort p (fun x => { x with enumAt := some s.now.toNat })) :
    exec (.latEnumSend p) s = .next (t.emit (.lateral p (s.latFrame p 0x02 (leBytes 2 0 ++ leBytes 2 0 ++ List.replicate 4096 0#8)))) := by
  show execLatEnumSend p s = _
  simp only [execLatEnumSend, Nat.not_le.2 hp, hr, hs, ← ht, ne_eq, not_true, Bool.not_true, Bool.false_eq_true, or_self, if_false]

/-- The nodes found replace those of the port's table only where they keep their layout and meet what is expected. -/
theorem exec_latEnumReturn_good {t0 n : Nat} {f b : List Byte} {ds : List (List Byte)} (h0 : (s.latPort p).enumAt = some t0)
    (hg : latGood 0x02 4112 (some f) = some b) (hn : n = min 256 (leAt b 8 2))
    (hds : ds = (List.range n).map (fun i => (b.drop (12 + 16 * i)).take 16)) :
    exec (.latEnumReturn p (some f)) s =
      (let s := (s.setF (LAT_PORT_RING.RING_NS p) (min 65535 (s.now.toNat - t0))).setF (LAT_PORT_STATUS.NODES p) n
       let s := s.modLatPort p (fun x => { x with enumAt := none, descs := ds, fresh := [], silent := [] })
       let t := (List.range n).foldl (fun s i =>
         ((((s.setF (LAT_NODE.OLEN p i) (leAt (ds.getD i []) 10 1)).setF (LAT_NODE.ILEN p i) (leAt (ds.getD i []) 11 1)).setF (LAT_NODE.STATE p i) nodeOK).setWord
           (LAT_NODE_ID.word p i) (BitVec.ofNat 32 (leAt (ds.getD i []) 0 4))))
         ((List.range 256).foldl (fun s i =>
           (s.setWord (LAT_NODE.word p i) (s.word (LAT_NODE.word p i) &&& 0xFFC00000#32)).setWord (LAT_NODE_ID.word p i) 0) s)
       .next (if !ds.all descOk || !s.expectOk p ds then s.latMismatch p
              else if 1000 < t.latMinUs p then t.latMismatch p
              else (t.setF (LAT_PORT_STATUS.CYCLE_NOW p) (t.latCycleUs p)).latTo p latRUN)) := by
  show execLatEnumReturn p (some f) s = _
  simp only [execLatEnumReturn, h0, hg, Nat.not_le.2 hp, hs, ← hn, ← hds, ne_eq, not_true, or_self, if_false, apply_ite Host.Outcome.next]

end

/-! ## Cycles and images (R512, R513, R516) -/

/-- A frame that is still away when the next cycle starts makes its own a bad cycle. -/
theorem exec_latCycleStart_cyclic (hr : s.latRuns = true) (hoff : s.f (LAT_PORT_STATUS.STATE p) ≠ latOFF)
    (henum : s.f (LAT_PORT_STATUS.STATE p) ≠ latENUM) (hmis : s.f (LAT_PORT_STATUS.STATE p) ≠ latMISMATCH) {t u : State}
    (ht : t = if (s.latPort p).away then s.badCycle p else s)
    (hu : u = (t.setB (LAT_PORT_STATUS.SAFE_ALL p) (decide (t.f FLT_STATUS.ACTIVE = 4))).setF (LAT_PORT_STATUS.CYCLE_NOW p) (t.latCycleUs p)) :
    exec (.latCycleStart p) s =
      .next (((u.emit (.lateral p (u.latFrame p 0x01 ((List.range (u.latNodes p)).map (fun i => u.segment p i)).flatten))).modLatPort p
        (fun x => { x.spend with away := true, seq := (x.seq + 1) % 65536 })).latSlot p) := by
  show execLatCycleStart p s = _
  simp only [execLatCycleStart, Nat.not_le.2 hp, hr, hoff, henum, hmis, ← ht, ← hu, Bool.not_true, Bool.false_eq_true, or_self, if_false]

theorem exec_latCyclicReturn_away (f : Option (List Byte)) (ha : (s.latPort p).away = true) :
    exec (.latCyclicReturn p f) s = .next (match latGood 0x01 (12 + s.segSum p) f with | some b => s.goodCycle p b | none => s.badCycle p) := by
  show execLatCyclicReturn p f s = _
  simp only [execLatCyclicReturn, Nat.not_le.2 hp, ha, Bool.not_true, Bool.false_eq_true, or_self, if_false]
  cases latGood 0x01 (12 + s.segSum p) f <;> rfl

/-- Where no byte of the word is bound, the word is stored whole. -/
theorem exec_latOimgWrite_unbound {n w : Nat} (v : BitVec 32) (hn : n < 256) (hw : w < 16) (hd : s.poweredDown (LAT_OIMG.word p n w) = false)
    (hb : ∀ i < 4, s.outBound p n (4 * w + i) = false) : exec (.latOimgWrite p n w v) s = .next (s.setWord (LAT_OIMG.word p n w) v) := by
  have hany : (List.range 4).any (fun i => s.outBound p n (4 * w + i)) = false := by
    simpa only [List.any_eq_false, List.mem_range, Bool.not_eq_true] using hb
  have hbytes : (List.range 4).foldl (fun (a : Nat) i =>
      if s.outBound p n (4 * w + i) then a + bits (s.word (LAT_OIMG.word p n w)).toNat (8 * i) 8 * 2 ^ (8 * i)
      else a + bits v.toNat (8 * i) 8 * 2 ^ (8 * i)) 0 = v.toNat :=
    (foldl_unheld_bytes hb _ v.toNat).trans (Nat.mod_eq_of_lt v.isLt)
  show execLatOimgWrite p n w v s = _
  simp only [execLatOimgWrite, Nat.not_le.2 hn, Nat.not_le.2 hw, State.latGuard_lit hp hd, hany, hbytes, BitVec.ofNat_toNat, BitVec.setWidth_eq,
    Bool.false_eq_true, or_self, if_false]

/-! ## The mailbox (R518) -/

/-- A transfer of the software that begins where none of the device's own runs. -/
theorem State.latMbxGo_run {c : Nat} (hc : c = 1 ∨ c = 2) (hd : s.poweredDown (LAT_MBX_CTRL.word p) = false) (hb : s.b (LAT_MBX_STATUS.BUSY p) = false)
    (hs : s.f (LAT_PORT_STATUS.STATE p) = latRUN) {t : State} {x : LatPort} {m : LatMbx} (ht : t = s.setF (LAT_MBX_CTRL.CMD p) c)
    (hx : x = t.latPort p) (hm : x.mbx = none)
    (hmd : m = { cmd := c, node := t.f (LAT_MBX_CTRL.NODE p), addr := t.f (LAT_MBX_ADDR.NADDR p), len := t.f (LAT_MBX_CTRL.LEN p),
                 data := if c = 2 then ((List.range 32).flatMap (fun w => leBytes 4 (t.word (LAT_MBX_DATA.word p w)).toNat)).take (t.f (LAT_MBX_CTRL.LEN p)) else [],
                 tag := (x.tag + 1) % 256 }) :
    s.latMbxGo p c = (t.setLatPort p { x with mbx := some m, tag := m.tag }).setF (LAT_MBX_STATUS.BUSY p) 1 := by
  have hcmd : ¬ (c ≠ 1 ∧ c ≠ 2) := by omega
  subst hmd
  simp only [State.latMbxGo, State.latGuard_lit hp hd, hb, hs, hcmd, ← ht, ← hx, hm, ne_eq, not_true, false_and, Bool.false_eq_true, if_false]

section
variable {m : LatMbx} (hm : (s.latPort p).mbx = some m)
include hm

theorem exec_latMbxReturn_done {f b : List Byte} (hsent : m.sent = true) (hg : latGood 0x03 152 (some f) = some b) (hnode : leAt b 8 1 = m.node)
    (htag : leAt b 10 1 = m.tag) (hst : leAt b 11 1 = 2) :
    exec (.latMbxReturn p (some f)) s = .next (s.mbxOver p m 0 (some ((b.drop 20).take 128))) := by
  show execLatMbxReturn p (some f) s = _
  simp only [execLatMbxReturn, hm, Nat.not_le.2 hp, hsent, hg, hnode, htag, hst, ne_eq, not_true, Bool.not_true, Bool.false_eq_true, or_self, if_false]

theorem exec_latMbxTimeout_polling (hpoll : m.polling = true) (hlate : m.since + 100000000 ≤ s.now.toNat) :
    exec (.latMbxTimeout p) s = .next (s.mbxOver p m 4 none) := by
  show execLatMbxTimeout p s = _
  simp only [execLatMbxTimeout, hm, Nat.not_le.2 hp, hpoll, Nat.not_lt.2 hlate, Bool.not_true, Bool.false_eq_true, or_self, if_false]

end

/-! ## Nodes that join again (R522) -/

theorem exec_latJoinSend_next (hr : s.latRuns = true) {n : Nat}
    (hn : ((s.lostNodes p).find? (fun i => decide ((s.latPort p).joinTo < i))).or (s.lostNodes p).head? = some n) :
    exec (.latJoinSend p) s = .next (s.setLatPort p { s.latPort p with joinTo := n, joinDue := true }) := by
  show execLatJoinSend p s = _
  simp only [execLatJoinSend, hn, Nat.not_le.2 hp, hr, Bool.not_true, Bool.false_eq_true, or_self, if_false]

theorem exec_latJoinReturn_taken {f b : List Byte} (hg : latGood 0x04 16 (some f) = some b) (ht : leAt b 10 1 < leAt b 8 2) :
    exec (.latJoinReturn p (some f)) s = .next (s.modLatPort p (fun x => { x with brk := x.brk.filter (· ≠ leAt b 10 1) })) := by
  show execLatJoinReturn p (some f) s = _
  simp only [execLatJoinReturn, hg, Nat.not_le.2 hp, Nat.not_le.2 ht, or_self, if_false]

end

/-- Settles O38, one clause for each command, and one for the two that start a mailbox transfer. -/
theorem lateralComplete : Obligations.LateralComplete := by
  refine ⟨?_, ?_, ?_, ?_, ?_, ?_, ?_, ?_, ?_, ?_, ?_, ?_, ?_⟩
  · exact fun s p hp hd hs => exec_latPortEnable_off hp hd hs
  · exact fun s p hp hd he hb => exec_latPortDisable_unbound hp hd he hb
  · exact fun s p hp hd hr he => exec_latRescan_enabled hp hd hr he
  · exact fun s t p hp hr hs ht => exec_latEnumSend_enum hp hs hr ht
  · exact fun s p t0 n f b ds hp hs h0 hg hn hds => exec_latEnumReturn_good hp hs h0 hg hn hds
  · exact fun s t u p hp hr hoff henum hmis ht hu => exec_latCycleStart_cyclic hp hr hoff henum hmis ht hu
  · exact fun s p f hp ha => exec_latCyclicReturn_away hp f ha
  · exact fun s p n w v hp hn hw hd hb => exec_latOimgWrite_unbound hp v hn hw hd hb
  · intro s t p c x m hp hc hd hb hs ht hx hm hmd
    rw [← State.latMbxGo_run hp hc hd hb hs ht hx hm hmd]
    obtain rfl | rfl := hc <;> rfl
  · exact fun s p m f b hp hm hsent hg hnode htag hst => exec_latMbxReturn_done hp hm hsent hg hnode htag hst
  · exact fun s p m hp hm hpoll hlate => exec_latMbxTimeout_polling hp hm hpoll hlate
  · exact fun s p n hp hr hn => exec_latJoinSend_next hp hr hn
  · exact fun s p f b hp hg ht => exec_latJoinReturn_taken hp hg ht

/-- Settles O53: the bound port is looked at before its ENABLE. -/
theorem boundPortStaysOn : Obligations.BoundPortStaysOn := fun _ _ hp hd hb => exec_latPortDisable_bound hp hd hb

end Sys2Proof.Machine
end

section
/-! PROOFS. Fans (O39, R524 to R527): a duty, the end of a kick and the try after it, a measurement, a tachometer that is lost and comes back, a fault
that is cleared. -/
namespace Sys2Proof.Machine

section
variable {s : State} {fc : Nat} (hfc : fc < 8)
include hfc

/-! ## Commands (R524, R527) -/

section
variable (hd : s.poweredDown (LAT_FAN_CTRL.word fc) = false)
include hd

theorem exec_fanDutyWrite_lit (d : BitVec 16) {t : State} (ht : t = s.setF (LAT_FAN_CTRL.DUTY fc) d.toNat) :
    exec (.fanDutyWrite fc d) s =
      .next (if t.fanState fc = fanFAULT then t else if d = 0 then t.fanTo fc fanOFF 0 else if t.fanState fc = fanOFF then t.fanStart fc
             else if t.fanState fc = fanRUN then t.fanTo fc fanRUN d.toNat else t) := by
  show execFanDutyWrite fc d s = _
  simp only [execFanDutyWrite, Nat.not_le.2 hfc, hd, ← ht, Bool.false_eq_true, if_false, apply_ite Host.Outcome.next]

theorem exec_fanClear_fault (hs : s.fanState fc = fanFAULT) {t : State} (ht : t = s.fanTo fc fanOFF 0) :
    exec (.fanClear fc) s = .next (if t.f (LAT_FAN_CTRL.DUTY fc) = 0 then t else t.fanStart fc) := by
  show execFanClear fc s = _
  simp only [execFanClear, Nat.not_le.2 hfc, hd, hs, ← ht, ne_eq, not_true, Bool.false_eq_true, if_false]

end

/-! ## Kicks (R525) -/

/-- After 2 s the fan runs, is given up at the third attempt, or waits to be tried again. -/
theorem exec_fanKickEnd_over (n : Nat) (hs : s.fanState fc = fanKICK) (ht : (s.fan fc).kickAt + 2000000000 ≤ s.now.toNat) :
    exec (.fanKickEnd fc n) s =
      .next (if s.f (LAT_FAN_CFG.RPM_MAX fc) < 5 * n then s.fanTo fc fanRUN (s.f (LAT_FAN_CTRL.DUTY fc))
             else if 3 ≤ s.f (LAT_FAN_STATUS.ATTEMPT fc) then s.fanFault fc 0 else s.fanTo fc fanWAIT 0) := by
  show execFanKickEnd fc n s = _
  simp only [execFanKickEnd, State.fanTurns, Nat.not_le.2 hfc, hs, Nat.not_lt.2 ht, decide_eq_true_eq, ne_eq, not_true, or_self, if_false,
    apply_ite Host.Outcome.next]

theorem exec_fanRetry_over (hs : s.fanState fc = fanWAIT) (ht : (s.fan fc).kickAt + 5000000000 ≤ s.now.toNat) :
    exec (.fanRetry fc) s = .next (s.fanKick fc) := by
  show execFanRetry fc s = _
  simp only [execFanRetry, Nat.not_le.2 hfc, hs, Nat.not_lt.2 ht, ne_eq, not_true, or_self, if_false]

/-! ## Tachometers (R524, R526, R527) -/

theorem exec_fanMeasure_running (n : Nat) (hr : s.latRuns = true) {t : State} (ht : t = s.setF (LAT_FAN_STATUS.RPM fc) (min 65535 n)) :
    exec (.fanMeasure fc n) s = .next (if t.fanState fc = fanLOST ∧ t.fanHot fc then t.fanFault fc 65536 else t) := by
  show execFanMeasure fc n s = _
  simp only [execFanMeasure, Nat.not_le.2 hfc, hr, ← ht, Bool.not_true, Bool.false_eq_true, or_self, if_false]

/-- A fan whose source is a sensor of the device runs on at full speed, with the temperature of the moment kept (assumption log 46). -/
theorem exec_fanTachLost_sensor (hs : s.fanState fc = fanRUN) (hk : s.f (LAT_FAN_CFG.TKIND fc) = 1) {t : State}
    (ht : t = s.setFan fc { s.fan fc with temp := some (1, s.f (THM_SENS.TEMP (s.f (LAT_FAN_CFG.TSRC fc)))) }) :
    exec (.fanTachLost fc) s =
      .next (((((t.fanTo fc fanLOST 65536).raise (LAT_FAN_STATUS.WARN fc)).report 0x0D 0 0x16 (0x80000000 + fc * 65536)).pf 5).event (160 + fc)) := by
  show execFanTachLost fc s = _
  simp only [execFanTachLost, Nat.not_le.2 hfc, hs, hk, ← ht, ne_eq, not_true, or_self, Nat.one_ne_zero, if_false, if_true]

theorem exec_fanTachRecover_lost (hs : s.fanState fc = fanLOST) :
    exec (.fanTachRecover fc) s = .next (s.fanTo fc fanRUN (s.f (LAT_FAN_CTRL.DUTY fc))) := by
  show execFanTachRecover fc s = _
  simp only [execFanTachRecover, Nat.not_le.2 hfc, hs, ne_eq, not_true, or_self, if_false]

end

/-- Settles O39, one clause for each command. -/
theorem fansComplete : Obligations.FansComplete := by
  refine ⟨?_, ?_, ?_, ?_, ?_, ?_, ?_⟩
  · exact fun s t fc d hfc hd ht => exec_fanDutyWrite_lit hfc hd d ht
  · exact fun s fc n hfc hs ht => exec_fanKickEnd_over hfc n hs ht
  · exact fun s fc hfc hs ht => exec_fanRetry_over hfc hs ht
  · exact fun s t fc n hfc hr ht => exec_fanMeasure_running hfc n hr ht
  · exact fun s t fc hfc hs hk ht => exec_fanTachLost_sensor hfc hs hk ht
  · exact fun s fc hfc hs => exec_fanTachRecover_lost hfc hs
  · exact fun s t fc hfc hd hs ht => exec_fanClear_fault hfc hd hs ht

end Sys2Proof.Machine
end

section
/-! PROOFS. The ring and its ports (O41, R542 to R548, R561 to R565): its controls, its ports as they come up, wrap and unwrap, and the INDEX. -/
namespace Sys2Proof.Machine

/-! ## Controls (R542, R548, R571) -/

section
variable {s : State}

section
variable (hd : s.poweredDown CUL_CTRL.word = false)
include hd

theorem exec_culEnable_on (he : s.b CUL_CTRL.ENABLE = false) : exec (.culEnable true) s = .next (s.setF CUL_CTRL.ENABLE 1).ringStart := by
  show execCulEnable true s = _
  simp only [execCulEnable, hd, he, Bool.false_eq_true, if_false, if_true]

theorem exec_culEnable_off (he : s.b CUL_CTRL.ENABLE = true) (hr : s.inRun = false) :
    exec (.culEnable false) s =
      .next (((((s.ringStop.setF CUL_CTRL.ENABLE 0).setF CUL_STATUS.INDEX 15).setF CUL_MEMBERS.PRESENT 0).setF CUL_MEMBERS.ABSENT 0).setF
        CUL_MEMBERS.FOLD_AT 15) := by
  show execCulEnable false s = _
  simp only [execCulEnable, hd, he, hr, Bool.true_eq_false, Bool.false_eq_true, if_false]

section
variable (hm : s.b CUL_STATUS.MASTER = true) (he : s.b CUL_CTRL.ENABLE = true)
include hm he

theorem exec_culRestart_master (hr : s.inRun = false) : exec .culRestart s = .next s.ringStart := by
  show execCulRestart s = _
  simp only [execCulRestart, hd, hm, he, hr, Bool.not_true, Bool.or_self, Bool.false_eq_true, if_false]

theorem exec_culUnfold_folded (hs : s.culState = culFOLDED) :
    exec .culUnfold s = .next ({ s with cul := { s.cul with check := true } } : State).unfoldCheck := by
  show execCulUnfold s = _
  simp only [execCulUnfold, hd, hm, he, hs, decide_true, Bool.and_self, Bool.false_eq_true, if_false, if_true]

end
end

/-! ## The unfold check (R565) -/

/-- A wrapped port that is not UP again keeps the ring folded. -/
theorem State.unfoldCheck_wrapped (h : (s.portState true = 3 ∧ s.cul.backE = false) ∨ (s.portState false = 3 ∧ s.cul.backW = false)) :
    s.unfoldCheck = s := by
  obtain ⟨hp, hb⟩ | ⟨hp, hb⟩ := h <;>
    simp only [State.unfoldCheck, hp, hb, decide_true, Bool.not_false, Bool.and_self, Bool.or_true, Bool.true_or, if_true]

/-- The state in which the master has named the TIMEBASE `q` at which the ring unfolds. -/
theorem State.unfoldCheck_ready {q : Nat} (hm : s.ringMaster = true) (hs : s.culState = culFOLDED) (hE : s.portState true = 3 → s.cul.backE = true)
    (hW : s.portState false = 3 → s.cul.backW = true) (hat : s.cul.backAt + 100000000 ≤ s.now.toNat) (hq : q = (s.cul.tbSeq.getD 0 + 101) % 65536) :
    s.unfoldCheck = ({ s with cul := { s.cul with check := false, unfold := some q } } : State).culBroadcast 0x51 (leBytes 2 q ++ leBytes 6 0) := by
  have hE' : (decide (s.portState true = 3) && !s.cul.backE) = false := by
    simpa only [Bool.and_eq_false_imp, decide_eq_true_eq, Bool.not_eq_false'] using hE
  have hW' : (decide (s.portState false = 3) && !s.cul.backW) = false := by
    simpa only [Bool.and_eq_false_imp, decide_eq_true_eq, Bool.not_eq_false'] using hW
  simp only [State.unfoldCheck, hm, hs, hE', hW', Nat.not_lt.2 hat, ← hq, ne_eq, not_true, decide_false, Bool.not_true, Bool.or_self, Bool.false_eq_true,
    if_false]

theorem exec_culUnfoldMsg_taken {t : State} {e : Bool} {m : List Byte} (ht : s.culTake 0x51 e m = (true, t)) :
    exec (.culUnfoldMsg e m) s = .next { t with cul := { t.cul with unfold := some (leAt (msgBody m) 0 2) } } := by
  show execCulUnfoldMsg e m s = _
  simp only [execCulUnfoldMsg, ht, if_true]

/-! ## Folds (R561, R562) -/

theorem exec_culFoldNotice_taken {t : State} {e : Bool} {m : List Byte} (ht : s.culTake 0x50 e m = (true, t)) :
    exec (.culFoldNotice e m) s =
      (let d := t.linkAt (leAt (msgBody m) 0 1 % 16) (leAt (msgBody m) 1 1 = 0)
       .next ((if t.culState = culRING then t.countFold d else t).foldHeard d)) := by
  show execCulFoldNotice e m s = _
  simp only [execCulFoldNotice, ht, if_true]

section
variable (hh : s.culHears = true)
include hh

theorem exec_culPortUp_unwrapped {t : State} {e : Bool} (ht : t = s.setLanes e 15) (hp : t.portState e ≠ 3) :
    exec (.culPortUp e) s =
      .next (if (t.setPortState e 2).culState = culTRAIN && (t.setPortState e 2).portState true = 2 && (t.setPortState e 2).portState false = 2
             then (t.setPortState e 2).setCul culINDEX else t.setPortState e 2) := by
  show execCulPortUp e s = _
  simp only [execCulPortUp, hh, ← ht, hp, Bool.not_true, Bool.false_eq_true, if_false]

theorem exec_culPortDown_ring {t : State} {e : Bool} {l : BitVec 4} (ht : t = s.setLanes e l.toNat) (hs : t.culState = culRING)
    (hp : t.portState e ≠ 3) : exec (.culPortDown e l) s = .next (t.wrapPort e) := by
  show execCulPortDown e l s = _
  simp only [execCulPortDown, hh, ← ht, hs, hp, Bool.not_true, Bool.false_eq_true, true_or, if_false, if_true]

theorem exec_culFoldReceived_ring {e : Bool} (hp : s.portState e = 2) (hs : s.culState = culRING) :
    exec (.culFoldReceived e) s = .next (s.wrapPort e) := by
  show execCulFoldReceived e s = _
  simp only [execCulFoldReceived, hh, hp, hs, decide_true, Bool.true_or, Bool.and_self, if_true]

theorem exec_culUnwrap_reached {t : State} {q : Nat} (hq : s.cul.unfold = some q) (hr : s.seqReached q = true)
    (ht : t = (({ s with cul := { s.cul with unfold := none } } : State).unwrapPort true).unwrapPort false) :
    exec .culUnwrap s =
      .next (if t.culState = culFOLDED && t.portState true = 2 && t.portState false = 2 then (t.setF CUL_MEMBERS.FOLD_AT 15).setCul culRING else t) := by
  show execCulUnwrap s = _
  simp only [execCulUnwrap, hq, hh, hr, ← ht, Bool.not_true, Bool.or_self, Bool.false_eq_true, if_false]

/-! ## The INDEX (R547, R548) -/

theorem exec_culIndexSend_master (hm : s.b CUL_STATUS.MASTER = true) (hs : s.culState = culINDEX) {t : State} (ht : t = s.setF CUL_STATUS.INDEX 0) :
    exec .culIndexSend s =
      .next ((t.culMake 0x01 15 (indexBody 1 false t.indexEntry)).2.culOut true (t.culMake 0x01 15 (indexBody 1 false t.indexEntry)).1) := by
  show execCulIndexSend s = _
  simp only [execCulIndexSend, hh, hm, hs, ← ht, ne_eq, not_true, decide_false, Bool.not_true, Bool.or_self, Bool.false_eq_true, if_false]

section
variable {e : Bool} {m : List Byte} (hty : msgType m = 0x01) (hok : msgOk m = true)
include hty hok

/-- The master's own INDEX has come round with a count that its HOPS confirms: it is final and goes out once more. -/
theorem exec_culIndex_home (hm : s.b CUL_STATUS.MASTER = true) (hown : s.ownIndex m = true) (hs : s.culState = culINDEX) (hw : msgWrapped m = false)
    {b : List Byte} (hb : b = msgBody m) (hf : leAt b 1 1 = 0) (hn : msgHops m + 1 = leAt b 0 1) {t : State} (ht : t = s.takeTable b) :
    exec (.culIndex e m) s =
      .next ((t.culMake 0x01 15 (indexBody (leAt b 0 1) true ((b.drop 4).take 32))).2.culOut true
        (t.culMake 0x01 15 (indexBody (leAt b 0 1) true ((b.drop 4).take 32))).1).delayStart := by
  show execCulIndex e m s = _
  simp only [execCulIndex, hh, hty, hok, hm, hown, hs, hw, ← hb, hf, hn, ← ht, ne_eq, not_true, and_false, decide_false, Bool.not_true, Bool.or_self,
    Bool.false_eq_true, if_false, if_true]

theorem exec_culIndex_member (hm : s.b CUL_STATUS.MASTER = false) (hs : s.culState ≠ culCONFLICT) (hr : s.inRun = false)
    (hf : leAt (msgBody m) 1 1 = 0) : exec (.culIndex e m) s = .next (s.takeIndex e m) := by
  show execCulIndex e m s = _
  simp only [execCulIndex, hh, hty, hok, hm, hs, hr, hf, ne_eq, not_true, and_false, decide_false, Bool.not_true, Bool.or_self, Bool.false_eq_true,
    if_false, if_true]

end
end
end

/-- Settles O41, one clause for each command, two for the unfold that is asked for and for an INDEX that comes in. -/
theorem ringComplete : Obligations.RingComplete := by
  refine ⟨?_, ?_, ?_, ?_, ?_, ?_, ?_, ?_, ?_, ?_, ?_, ?_, ?_, ?_, ?_⟩
  · exact fun s hd he => exec_culEnable_on hd he
  · exact fun s hd he hr => exec_culEnable_off hd he hr
  · exact fun s hd hm he hr => exec_culRestart_master hd hm he hr
  · intro s hd hm he hs hw
    rw [exec_culUnfold_folded hd hm he hs]
    exact congrArg _ (State.unfoldCheck_wrapped hw)
  · intro s q hd hr hm he hs hE hW hat hq
    rw [exec_culUnfold_folded hd hm he hs]
    exact congrArg _ (State.unfoldCheck_ready hr hs hE hW hat hq)
  · exact fun s t e hh ht hp => exec_culPortUp_unwrapped hh ht hp
  · exact fun s t e l hh ht hs hp => exec_culPortDown_ring hh ht hs hp
  · exact fun s e hh hp hs => exec_culFoldReceived_ring hh hp hs
  · exact fun s t e m ht => exec_culFoldNotice_taken ht
  · exact fun s q hr hs hE hW hat hq => congrArg Host.Outcome.next (State.unfoldCheck_ready hr hs hE hW hat hq)
  · exact fun s t e m ht => exec_culUnfoldMsg_taken ht
  · exact fun s t q hh hq hr ht => exec_culUnwrap_reached hh hq hr ht
  · exact fun s t hh hm hs ht => exec_culIndexSend_master hh hm hs ht
  · exact fun s t e m b hh hty hok hm hown hs hw hb hf hn ht => exec_culIndex_home hh hty hok hm hown hs hw hb hf hn ht
  · exact fun s e m hh hty hok hm hs hr hf => exec_culIndex_member hh hty hok hm hs hr hf

end Sys2Proof.Machine
end

section
/-! PROOFS. Messages of the ring (O42, R545 to R560): path delays, the timebase, status and faults, messages that pass, and the parts of a line page.
`t` is the state in which a message has been taken. -/
namespace Sys2Proof.Machine

section
variable {s t : State} {e : Bool} {m : List Byte}

/-! ## Path delays (R549) -/

theorem exec_culDelayReq_taken (n : Nat) (ht : s.culTake 0x02 e m = (true, t)) :
    exec (.culDelayReq e n m) s = .next (t.culSend 0x03 (msgSrc m) ((msgBody m).take 4 ++ leBytes 4 n) (!e)) := by
  show execCulDelayReq e n m s = _
  simp only [execCulDelayReq, ht, if_true]

/-- An answer of the round in progress is added up, and the next round is asked for. -/
theorem exec_culDelayRsp_round {d : CulDelay} (ht : s.culTake 0x03 e m = (true, t)) (hd : t.cul.delay = some d) (hs : t.culState = culDELAY)
    (hsrc : msgSrc m = d.dev) (hr : leAt (msgBody m) 0 4 = d.round) (h8 : d.round < 8) :
    exec (.culDelayRsp e m) s =
      .next { t with cul := { t.cul with delay := some { d with round := d.round + 1, sum := d.sum + (t.now.toNat - d.sent - leAt (msgBody m) 4 4) } } }.delayAsk := by
  show execCulDelayRsp e m s = _
  simp only [execCulDelayRsp, ht, hd, hs, hsrc, hr, h8, ne_eq, not_true, decide_false, Bool.not_true, Bool.or_self, Bool.false_eq_true, if_false, if_true]

/-! ## The timebase (R550, R552) -/

theorem exec_culTimebaseSend_master {q : List Byte} (hl : s.culLive = true) (hm : s.b CUL_STATUS.MASTER = true)
    (hq : s.syncSpeed.culMake 0x10 15 s.syncSpeed.timebaseBody = (q, t)) :
    exec .culTimebaseSend s =
      .next (({ t with cul := { t.cul with tbSeq := some (msgSeq q), tbAt := t.now.toNat,
                                           ending := t.cul.ending.map (fun n => n + 1) } } : State).culOut true q |>.culOut false q) := by
  show execCulTimebaseSend s = _
  simp only [execCulTimebaseSend, hl, hm, hq, Bool.not_true, Bool.or_self, Bool.false_eq_true, if_false]

/-- A member passes the message on with the time it has waited, and applies the first copy that is not turned. -/
theorem exec_culTimebase_first {w : Nat} (hh : s.culHears = true) (hty : msgType m = 0x10) (hok : msgOk m = true) (hb : s.ownBack m = false)
    (ht : t = s.culForward e (m.take 35 ++ leBytes 4 (leAt m 35 4 + w) ++ m.drop 39)) (hm : t.b CUL_STATUS.MASTER = false)
    (hw : msgWrapped m = false) (hl : t.culLive = true) (hold : t.tbOld (msgSeq m) = false) :
    exec (.culTimebase e w m) s = .next (t.applyTimebase e m) := by
  show execCulTimebase e w m s = _
  simp only [execCulTimebase, hh, hty, hok, hb, ← ht, hm, hw, hl, hold, ne_eq, not_true, and_false, decide_false, Bool.not_true, Bool.true_or,
    Bool.or_self, Bool.false_eq_true, if_false]

section
variable (hl : s.culLive = true) (hm : s.b CUL_STATUS.MASTER = false)
include hl hm

/-- The loss is a C4 while the web ran faster than 0.1 m/s. -/
theorem exec_culTimebaseLost_late (hq : s.cul.tbSeq.isSome = true) (hat : s.cul.tbAt + 30000 ≤ s.now.toNat)
    (ht : t = ({ s with cul := { s.cul with tbSeq := none } } : State).setF CUL_TB.LOCKED 0) :
    exec .culTimebaseLost s =
      .next (if 100000 < s.cul.tbSpeed.natAbs then t.culReport 4 0x13 t.culIndex else (t.setCul culLOCKING).culReport 1 0x13 t.culIndex) := by
  have hsome : s.cul.tbSeq.isNone = false := by rw [← Option.not_isSome, hq, Bool.not_true]
  have hspeed : t.cul.tbSpeed = s.cul.tbSpeed := by rw [ht]; rfl
  show execCulTimebaseLost s = _
  simp only [execCulTimebaseLost, hl, hm, hsome, Nat.not_lt.2 hat, ← ht, hspeed, decide_false, Bool.not_true, Bool.or_self, Bool.false_eq_true, if_false,
    apply_ite Host.Outcome.next]

/-! ## Status and faults (R554, R555) -/

theorem exec_culStatusSend_locked (hk : s.b CUL_TB.LOCKED = true) :
    exec .culStatusSend s =
      .next (s.culSend 0x11 0 (leBytes 1 s.power ++ leBytes 1 ((if s.allLocked then 1 else 0) + (if s.stopActive then 2 else 0)) ++
        leBytes 1 (s.ownOrder.getD 7) ++ leBytes 1 0 ++ leBytes 2 (s.cul.tbSeq.getD 0) ++ leBytes 2 0)) := by
  show execCulStatusSend s = _
  simp only [execCulStatusSend, hl, hm, hk, Bool.not_true, Bool.or_self, Bool.false_eq_true, if_false]

end

/-- The status of a member is kept; on a ring that is past LOCKING it changes nothing else. -/
theorem exec_culStatus_up {u : State} {b : List Byte} (ht : s.culTake 0x11 e m = (true, t)) (hl : t.culLive = true) (hm : t.b CUL_STATUS.MASTER = true)
    (hd : msgSrc m < 8) (hb : b = msgBody m) (hs : t.culState ≠ culLOCKING)
    (hu : u = { t with cul := { t.cul with
        stats := t.cul.stats.set {} (msgSrc m) { engine := leAt b 0 1, locked := bit (leAt b 1 1) 0, fault := bit (leAt b 1 1) 1, weir := leAt b 2 1 % 8 },
        heard := t.cul.heard ||| BitVec.ofNat 8 (2 ^ msgSrc m) } }) (hus : u.culState = t.culState) :
    exec (.culStatus e m) s = .next u := by
  show execCulStatus e m s = _
  simp only [execCulStatus, ht, hl, hm, Nat.not_le.2 hd, ← hb, ← hu, hus, hs, decide_false, Bool.false_and, Bool.not_true, Bool.or_self,
    Bool.false_eq_true, if_false]

theorem exec_culFault_taken (ht : s.culTake 0x12 e m = (true, t)) (hc : leAt (msgBody m) 1 1 = 3 ∨ leAt (msgBody m) 1 1 = 4) :
    exec (.culFault e m) s = .next (t.culReport (leAt (msgBody m) 1 1) 0x15 (leAt (msgBody m) 0 1)) := by
  have hclass : (decide (leAt (msgBody m) 1 1 = 3) || decide (leAt (msgBody m) 1 1 = 4)) = true := by
    simpa only [Bool.or_eq_true, decide_eq_true_eq] using hc
  show execCulFault e m s = _
  simp only [execCulFault, ht, hclass, Bool.and_self, if_true]

/-! ## Messages that pass (R545) -/

section
variable (hh : s.culHears = true)
include hh

theorem exec_culMessageForward_other (hok : msgOk m = true) (hb : s.ownBack m = false) (hd : msgDst m ≠ s.culIndex) (hall : msgDst m ≠ 15) :
    exec (.culMessageForward e true m) s = .next (s.culForward e m) := by
  show execCulMessageForward e true m s = _
  simp only [execCulMessageForward, hh, hok, hb, hd, hall, decide_false, Bool.not_true, Bool.false_and, Bool.or_self, Bool.false_eq_true, if_false]

theorem exec_culMessageForward_bad : exec (.culMessageForward e false m) s = .next (s.satInc CUL_ERR.BAD_MSG) := by
  show execCulMessageForward e false m s = _
  simp only [execCulMessageForward, hh, Bool.not_true, Bool.not_false, Bool.true_or, Bool.false_eq_true, if_false, if_true]

end

/-! ## Parts of a line page (R556 to R560) -/

theorem exec_culPartCommit_new {x : CulPart} (ht : s.culTake 0x20 e m = (true, t)) (hr : t.ringMaster = true) (hx : x = parsePart (msgSrc m) (msgBody m))
    (hp : t.cul.parts.any (fun p => p.same x) = false) (hl : t.cul.lines.any (fun l => l.parts.any (fun p => p.same x)) = false) :
    exec (.culPartCommit e m) s = .next { t with cul := { t.cul with parts := t.cul.parts ++ [x] } } := by
  show execCulPartCommit e m s = _
  simp only [execCulPartCommit, ht, hr, ← hx, hp, hl, Bool.not_true, Bool.or_self, Bool.false_eq_true, if_false]

theorem exec_culPartTake_due {x : CulPart} (hx : firstPart s.cul.parts = some x) (hr : s.ringMaster = true) (hat : x.stamp + 20000 ≤ s.now.toNat) :
    exec .culPartTake s = .next (({ s with cul := { s.cul with parts := s.cul.parts.filter (fun p => p ≠ x) } } : State).takePart x) := by
  show execCulPartTake s = _
  simp only [execCulPartTake, hx, hr, Nat.not_lt.2 hat, decide_false, Bool.not_true, Bool.or_self, Bool.false_eq_true, if_false]

/-- A committed part that no SCHEDULE has named goes out again, marked as a repeat. -/
theorem exec_culPartResend_owed {i : BitVec 64} {b : List Byte} (hm : s.cul.owed.find? (isPartOf i) = some m) (hr : s.ringMember = true)
    (hp : (s.partPage i).isSome = true) (hf : s.pages.frames.any (fun f => f.line = some i) = false) (hb : b = msgBody m)
    (ht : t = { s with cul := { s.cul with owed := s.cul.owed.filter (fun x => !isPartOf i x) } }) :
    exec (.culPartResend i) s =
      .next ((t.culSend 0x20 0 (b.take 35 ++ leBytes 1 (leAt b 35 1 ||| 2) ++ b.drop 36) true true).satInc CUL_ERR2.RESENT) := by
  have hsome : (s.partPage i).isNone = false := by rw [← Option.not_isSome, hp, Bool.not_true]
  show execCulPartResend i s = _
  simp only [execCulPartResend, hm, hr, hsome, hf, ← hb, ← ht, Bool.not_true, Bool.or_self, Bool.false_eq_true, if_false]

theorem exec_culSchedule_run (ht : s.culTake 0x21 e m = (true, t)) (hr : t.inRun = true) :
    exec (.culSchedule e m) s = .next (t.takeSchedule (msgBody m)) := by
  show execCulSchedule e m s = _
  simp only [execCulSchedule, ht, hr, Bool.and_self, if_true]

theorem exec_culPageSpoil_taken (ht : s.culTake 0x22 e m = (true, t)) (hc : leAt (msgBody m) 8 1 = 6) :
    exec (.culPageSpoil e m) s = .next (t.spoilPart (BitVec.ofNat 64 (leAt (msgBody m) 0 8))) := by
  show execCulPageSpoil e m s = _
  simp only [execCulPageSpoil, ht, hc, decide_true, Bool.and_self, if_true]

end

/-- Settles O42, one clause for each message and each end of a time, two for a message that passes. -/
theorem ringMessagesComplete : Obligations.RingMessagesComplete := by
  refine ⟨?_, ?_, ?_, ?_, ?_, ?_, ?_, ?_, ?_, ?_, ?_, ?_, ?_, ?_, ?_⟩
  · exact fun s t e n m ht => exec_culDelayReq_taken n ht
  · exact fun s t e m d ht hd hs hsrc hr h8 => exec_culDelayRsp_round ht hd hs hsrc hr h8
  · exact fun s m q hl hm hq => exec_culTimebaseSend_master hl hm hq
  · exact fun s t e w m hh hty hok hb ht hm hw hl hold => exec_culTimebase_first hh hty hok hb ht hm hw hl hold
  · exact fun s t hl hm hq hat ht => exec_culTimebaseLost_late hl hm hq hat ht
  · exact fun s hl hm hk => exec_culStatusSend_locked hl hm hk
  · exact fun s t u e m b ht hl hm hd hb hs hu hus => exec_culStatus_up ht hl hm hd hb hs hu hus
  · exact fun s t e m ht hc => exec_culFault_taken ht hc
  · exact fun s e m hh hok hb hd hall => exec_culMessageForward_other hh hok hb hd hall
  · exact fun s e m hh => exec_culMessageForward_bad hh
  · exact fun s t e m x ht hr hx hp hl => exec_culPartCommit_new ht hr hx hp hl
  · exact fun s x hx hr hat => exec_culPartTake_due hx hr hat
  · exact fun s t i m b hm hr hp hf hb ht => exec_culPartResend_owed hm hr hp hf hb ht
  · exact fun s t e m ht hr => exec_culSchedule_run ht hr
  · exact fun s t e m ht hc => exec_culPageSpoil_taken ht hc

end Sys2Proof.Machine
end

section
/-! PROOFS. The field network (O44, R566, R573 to R593, R707, R708): AL states, process data, links, files and mailboxes, stores, and the accesses that
the ring tunnels. -/
namespace Sys2Proof.Machine

section
variable {s : State}

section
variable (ho : s.escOn = true)
include ho

/-! ## AL states (R576, R579) -/

section
variable {t : State} {g c : Nat} {w : BitVec 16} {mo : Bool} {a b : Nat} (ht : t = (s.setF ECT_ADDR.STATION w.toNat).setF ECT_SYNC.CYCLE_NS c)
include ht

/-- INIT takes the SII's check with it and SAFE-OP samples the inputs; every other state is put in force, or fallen to, alone. -/
theorem exec_alStateRequest_granted (si : Bool) (hc : t.alCode g mo a b c = none) (hi : g ≠ alINIT) (hs : g ≠ alSAFEOP) :
    exec (.alStateRequest g w mo a b c si) s = .next (if g < t.alState ∨ g = alBOOT then t.alDrop g 0 else t.setAl g 0) := by
  show execAlStateRequest g w mo a b c si s = _
  simp only [execAlStateRequest, ho, ← ht, hc, hi, hs, Bool.not_true, Bool.false_eq_true, if_false]

theorem exec_alStateRequest_refused (si : Bool) {code : Nat} (hc : t.alCode g mo a b c = some code) :
    exec (.alStateRequest g w mo a b c si) s = .next (((t.setAl t.alState code).satInc ECT_ERR2.STATE_ERR).ectReport 0 0x12) := by
  show execAlStateRequest g w mo a b c si s = _
  simp only [execAlStateRequest, ho, ← ht, hc, Bool.not_true, Bool.false_eq_true, if_false]

end

theorem exec_sm2Watchdog_op (hr : s.rxAssigned = true) (hs : s.alState = alOP) : exec .sm2Watchdog s = .next (s.alDrop alSAFEOP 0x001B) := by
  show execSm2Watchdog s = _
  simp only [execSm2Watchdog, ho, hr, hs, Bool.not_true, Bool.or_self, Bool.false_eq_true, if_false, if_true]

/-! ## Process data (R582, R584, R586) -/

theorem exec_rxpdoApply_op {d : List Byte} (hs : s.alState = alOP) (hr : s.rxAssigned = true) (hv : s.serverRuns = true)
    (hl : d.length = s.pdoBytes true) :
    exec (.rxpdoApply d) s =
      .next ((({ s with ect := { s.ect with outs := d } } : State).pdoLayout true).foldl (fun (t : State) (e : Nat × Nat × Nat × Nat) =>
        if e.2.1 = 0 then t else t.applyEntry e.2.1 e.2.2.1 (bits (leNat d) e.1 e.2.2.2)) { s with ect := { s.ect with outs := d } }) := by
  show execRxpdoApply d s = _
  simp only [execRxpdoApply, ho, hs, hr, hv, hl, ne_eq, not_true, decide_false, Bool.not_true, Bool.or_self, Bool.false_eq_true, if_false]

/-- An edge that owes no new output buffer counts no error. -/
theorem exec_sync0Edge_fresh {t u : State} {dc : BitVec 64} {fresh : Bool} (hc : s.f ECT_SYNC.CYCLE_NS ≠ 0)
    (ht : t = (s.measureDc dc).set64 ECT_SYNC_TB_LO.word s.now.toNat) (hu : u = if t.dcSync && t.pdoRuns then t.sampleTx else t)
    (hf : u.rxAssigned = false ∨ fresh = true) : exec (.sync0Edge dc fresh) s = .next u := by
  have hgood : (u.rxAssigned && !fresh) = false := by
    obtain h | h := hf <;> simp only [h, Bool.false_and, Bool.not_true, Bool.and_false]
  show execSync0Edge dc fresh s = _
  simp only [execSync0Edge, ho, hc, ← ht, ← hu, Bool.and_assoc, hgood, decide_false, Bool.and_false, Bool.not_true, Bool.or_self, Bool.false_eq_true,
    if_false]

theorem exec_sm3ReadComplete_free (hp : s.pdoRuns = true) (hd : s.dcSync = false) : exec .sm3ReadComplete s = .next s.sampleTx := by
  show execSm3ReadComplete s = _
  simp only [execSm3ReadComplete, ho, hp, hd, Bool.not_false, Bool.and_self, if_true]

theorem exec_dcOffsetMeasure_free (dc : BitVec 64) (hc : s.f ECT_SYNC.CYCLE_NS = 0) : exec (.dcOffsetMeasure dc) s = .next (s.measureDc dc) := by
  show execDcOffsetMeasure dc s = _
  simp only [execDcOffsetMeasure, ho, hc, decide_true, Bool.and_self, if_true]

/-! ## Links (R573, R599) -/

theorem exec_ectLinkChange_up (hl : s.b ECT_STATUS.LINK0 = false) : exec (.ectLinkChange 0 true) s = .next ((s.setF ECT_STATUS.LINK0 1).pf 451) := by
  show execEctLinkChange 0 true s = _
  simp only [execEctLinkChange, State.linkTo, State.setB, ho, hl, Nat.reduceLeDiff, Nat.zero_ne_one, false_and, decide_false, Bool.not_true,
    Bool.or_self, Bool.false_eq_true, if_false, if_true]

theorem exec_ectLinkChange_down (hl : s.b ECT_STATUS.LINK1 = true) :
    exec (.ectLinkChange 1 false) s = .next (((s.setF ECT_STATUS.LINK1 0).pf 451).satInc ECT_ERR.LINK_LOSS) := by
  show execEctLinkChange 1 false s = _
  simp only [execEctLinkChange, State.linkTo, State.setB, ho, hl, Nat.reduceLeDiff, Nat.one_ne_zero, decide_false, Bool.not_true, Bool.or_self,
    Bool.true_eq_false, Bool.false_eq_true, if_false, if_true]

/-! ## Files and mailboxes (R573, R588, R589) -/

section
variable (hs : s.alState = alBOOT)
include hs

theorem exec_foeWrite_request {n : String} (d : List Byte) (l : Bool) (hn : n = "SX-FW" ∨ n = "SX-SII") :
    exec (.foeWrite n 0 0 d l) s = .next (({ s with ect := { s.ect with foe := some { sii := decide (n = "SX-SII") } } } : State).foeReply 4 0) := by
  have hinit : alBOOT ≠ alINIT := by decide
  have hname : ¬ (n ≠ "SX-FW" ∧ n ≠ "SX-SII") := fun h => hn.elim h.1 h.2
  show execFoeWrite n 0 0 d l s = _
  simp only [execFoeWrite, ho, hs, hinit, hname, ne_eq, not_true, decide_false, Bool.not_true, Bool.or_self, Bool.false_eq_true, if_false, if_true]

section
variable (n : String) (pw : BitVec 32) {k : Nat} {d : List Byte} {x : Foe} (hk : k ≠ 0) (hx : s.ect.foe = some x) (hp : x.packet = k)
include hk hx hp

/-- A piece of an SII package is kept; nothing is staged in the boot flash before the last. -/
theorem exec_foeWrite_sii (hsii : x.sii = true) (hl : (x.data ++ d).length ≤ 512 + 2048) :
    exec (.foeWrite n pw k d false) s =
      .next (({ s with ect := { s.ect with foe := some { x with packet := k + 1, data := x.data ++ d } } } : State).foeReply 4 k) := by
  have hinit : alBOOT ≠ alINIT := by decide
  show execFoeWrite n pw k d false s = _
  simp only [execFoeWrite, ho, hs, hinit, hk, hx, hp, hsii, Nat.not_lt.2 hl, ne_eq, not_true, decide_false, Bool.not_true, Bool.not_false, Bool.or_self,
    Bool.false_eq_true, if_false, if_true]

theorem exec_foeWrite_firmware (hsii : x.sii = false) (hl : (x.data ++ d).length ≤ 2 ^ 26) {t : State}
    (ht : t = s.emit (.bootFlash (slotBase (1 - s.boot.slot) + x.data.length) d)) :
    exec (.foeWrite n pw k d false) s =
      .next (({ t with ect := { t.ect with foe := some { x with packet := k + 1, data := x.data ++ d } } } : State).foeReply 4 k) := by
  have hinit : alBOOT ≠ alINIT := by decide
  show execFoeWrite n pw k d false s = _
  simp only [execFoeWrite, ho, hs, hinit, hk, hx, hp, hsii, Nat.not_lt.2 hl, ← ht, ne_eq, not_true, decide_false, Bool.not_true, Bool.not_false,
    Bool.or_self, Bool.false_eq_true, if_false, if_true]

end
end

theorem exec_foeRead_on (n : String) (hs : s.alState ≠ alINIT) :
    exec (.foeRead n) s = .next (s.foeReply 5 (if n = "SX-FW" ∨ n = "SX-SII" then 0x8002 else 0x8001)) := by
  show execFoeRead n s = _
  simp only [execFoeRead, ho, hs, decide_false, Bool.not_true, Bool.or_self, Bool.false_eq_true, if_false]

theorem exec_mailboxUnsupported_on {p : Nat} (hs : s.alState ≠ alINIT) (h3 : p ≠ 3) (h4 : p ≠ 4) :
    exec (.mailboxUnsupported p) s = .next (s.emit (.ect (leBytes 2 1 ++ leBytes 2 2))) := by
  show execMailboxUnsupported p s = _
  simp only [execMailboxUnsupported, ho, hs, h3, h4, decide_false, Bool.not_true, Bool.or_self, Bool.false_eq_true, if_false]

end

/-! ## Stores (R593, R708) -/

section
variable (hc : s.coeOpen = true)
include hc

theorem exec_storeParameters_open :
    exec .storeParameters s = .next (s.sdoArrive (.coe (.download 0x1010 1 false (leBytes 4 0x65766173)))) := by
  show execStoreParameters s = _
  simp only [execStoreParameters, hc, if_true]

theorem exec_restoreDefaults_open :
    exec .restoreDefaults s = .next (s.sdoArrive (.coe (.download 0x1011 1 false (leBytes 4 0x64616F6C)))) := by
  show execRestoreDefaults s = _
  simp only [execRestoreDefaults, hc, if_true]

theorem exec_calSetWrite_open (d : List Byte) : exec (.calSetWrite d) s = .next (s.sdoArrive (.coe (.download 0x5800 3 false d))) := by
  show execCalSetWrite d s = _
  simp only [execCalSetWrite, hc, if_true]

end

/-- A store that no transfer waits for ends by itself. -/
theorem exec_calStoreComplete_unheld {ok : Bool} (hs : s.evr.stores.isEmpty = false) (hh : (s.calStored ok).hif.hold = none) :
    exec (.calStoreComplete ok) s = .next (s.calStored ok) := by
  show execCalStoreComplete ok s = _
  simp only [execCalStoreComplete, hs, hh, Bool.false_eq_true, if_false]

/-! ## Tunnelled accesses (R566) -/

theorem exec_culOdReq_member {t : State} {e : Bool} {m b : List Byte} (ht : s.culTake 0x40 e m = (true, t)) (hr : t.ringMember = true)
    (hb : b = msgBody m) :
    exec (.culOdReq e m) s = .next (t.sdoArrive (.ring (msgSrc m) (leAt b 0 2) (leAt b 2 1) (leAt b 3 1) ((b.drop 12).take (leAt b 4 2)))) := by
  show execCulOdReq e m s = _
  simp only [execCulOdReq, ht, hr, ← hb, Bool.not_true, Bool.or_self, Bool.false_eq_true, if_false]

theorem exec_culOdRsp_awaited {u : State} {e : Bool} {m b : List Byte} {t : Tunnel} {q : SdoReq} (hu : s.culTake 0x41 e m = (true, u))
    (ht : u.hif.tunnel = some t) (hq : u.hif.hold = some q) (hb : b = msgBody m) (hd : t.dev = msgSrc m) (hi : t.index = leAt b 0 2)
    (hs : t.sub = leAt b 2 1) :
    exec (.culOdRsp e m) s =
      .next ((u.culAnswered 0x40 t.dev).tunnelEnd q (leAt b 8 4) (if t.upload then (b.drop 12).take (leAt b 4 2) else [])) := by
  show execCulOdRsp e m s = _
  simp only [execCulOdRsp, hu, ht, hq, ← hb, hd, hi, hs, and_self, if_true]

theorem exec_culTunnelTimeout_waiting {t : Tunnel} {q : SdoReq} (ht : s.hif.tunnel = some t) (hq : s.hif.hold = some q) :
    exec .culTunnelTimeout s = .next ((s.culAnswered 0x40 t.dev).tunnelEnd q 0x05040000 []) := by
  show execCulTunnelTimeout s = _
  simp only [execCulTunnelTimeout, ht, hq]

end

/-- Settles O44, one clause for each command, two for a state request and a link, three for a file that is written, one for the two stores. -/
theorem fieldNetworkComplete : Obligations.FieldNetworkComplete := by
  refine ⟨?_, ?_, ?_, ?_, ?_, ?_, ?_, ?_, ?_, ?_, ?_, ?_, ?_, ?_, ?_, ?_, ?_, ?_, ?_, ?_⟩
  · exact fun s t g w mo si a b c ho ht hc hi hs => exec_alStateRequest_granted ho ht si hc hi hs
  · exact fun s t g code w mo si a b c ho ht hc => exec_alStateRequest_refused ho ht si hc
  · exact fun s ho hr hs => exec_sm2Watchdog_op ho hr hs
  · exact fun s d ho hs hr hv hl => exec_rxpdoApply_op ho hs hr hv hl
  · exact fun s t u dc fresh ho hc ht hu hf => exec_sync0Edge_fresh ho hc ht hu hf
  · exact fun s ho hp hd => exec_sm3ReadComplete_free ho hp hd
  · exact fun s dc ho hc => exec_dcOffsetMeasure_free ho dc hc
  · exact fun s ho hl => exec_ectLinkChange_up ho hl
  · exact fun s ho hl => exec_ectLinkChange_down ho hl
  · exact fun s n d l ho hs hn => exec_foeWrite_request ho hs d l hn
  · exact fun s n pw k d x ho hs hk hx hp hsii hl => exec_foeWrite_sii ho hs n pw hk hx hp hsii hl
  · exact fun s t n pw k d x ho hs hk hx hp hsii hl ht => exec_foeWrite_firmware ho hs n pw hk hx hp hsii hl ht
  · exact fun s n ho hs => exec_foeRead_on ho n hs
  · exact fun s p ho hs h3 h4 => exec_mailboxUnsupported_on ho hs h3 h4
  · exact fun s hc => ⟨exec_storeParameters_open hc, exec_restoreDefaults_open hc⟩
  · exact fun s d hc => exec_calSetWrite_open hc d
  · exact fun s ok hs hh => exec_calStoreComplete_unheld hs hh
  · exact fun s t e m b ht hr hb => exec_culOdReq_member ht hr hb
  · exact fun s u e m b t q hu ht hq hb hd hi hs => exec_culOdRsp_awaited hu ht hq hb hd hi hs
  · exact fun s t q ht hq => exec_culTunnelTimeout_waiting ht hq

end Sys2Proof.Machine
end

section
/-! PROOFS. The power sequencer (O45, R616, R617): a word of the program that is written, each opcode of the word at the counter, and the limit of a
run. -/
namespace Sys2Proof.Machine

section
variable {s : State}

/-! ## The program (R616) -/

section
variable {i : Nat} {v : BitVec 32} (hi : i < 64) (hd : s.poweredDown (PWR_SEQ_PROG.word i) = false) (hv : s.word (PWR_SEQ_PROG.word i) ≠ v)
include hi hd hv

theorem exec_seqProgramWrite_taken (ho : s.seqOpen = true) (hok : seqWordOk v.toNat = true) :
    exec (.seqProgramWrite i v) s = .next (s.setWord (PWR_SEQ_PROG.word i) v) := by
  show execSeqProgramWrite i v s = _
  simp only [execSeqProgramWrite, Nat.not_le.2 hi, hd, hv, ho, hok, Bool.and_self, Bool.false_eq_true, if_false, if_true]

theorem exec_seqProgramWrite_refused (h : s.seqOpen = false ∨ seqWordOk v.toNat = false) :
    exec (.seqProgramWrite i v) s = .next (s.raise PWR_STATUS.CTRL_REFUSED) := by
  have hbad : (s.seqOpen && seqWordOk v.toNat) = false := Bool.and_eq_false_iff.2 h
  show execSeqProgramWrite i v s = _
  simp only [execSeqProgramWrite, Nat.not_le.2 hi, hd, hv, hbad, Bool.false_eq_true, if_false]

end

/-! ## Opcodes (R616, R617) -/

theorem exec_seqEnd_at (h : s.seqAt 0 = true) : exec .seqEnd s = .next (s.seqOver (bits s.seqWord 0 8)) := by
  show execSeqEnd s = _
  simp only [execSeqEnd, h, if_true]

theorem exec_seqEnable_at (h : s.seqAt 1 = true) :
    exec .seqEnable s = .next (((s.setF PWR_RAIL_REQ.REQ (setBit (s.f PWR_RAIL_REQ.REQ) (bits s.seqWord 0 5) true)).railSync).seqNext false none) := by
  show execSeqEnable s = _
  simp only [execSeqEnable, h, if_true]

/-- The rail's latch is cleared with its request (R615). -/
theorem exec_seqDisable_at (h : s.seqAt 2 = true) {t : State} {k : Nat} (hk : k = bits s.seqWord 0 5) (ht : t = s.setF (PWR_RAIL_STATUS.LATCH k) 0) :
    exec .seqDisable s = .next ((t.setF PWR_RAIL_REQ.REQ (setBit (s.f PWR_RAIL_REQ.REQ) k false)).railSync.seqNext false none) := by
  show execSeqDisable s = _
  simp only [execSeqDisable, h, ← hk, ← ht, if_true]

theorem exec_seqWait_at (h : s.seqAt 3 = true) : exec .seqWait s = .next (s.seqNext true none) := by
  show execSeqWait s = _
  simp only [execSeqWait, h, if_true]

theorem exec_seqWaitpg_over {x : Bool} (h : s.seqAt 4 = true) (hg : s.railGood (bits s.seqWord 16 5) = true ∨ x = true) :
    exec (.seqWaitpg x) s = .next ((s.setB PWR_SEQ_STATUS.F (s.railGood (bits s.seqWord 16 5))).seqNext true none) := by
  have hover : (s.railGood (bits s.seqWord 16 5) || x) = true := (Bool.or_eq_true _ _).mpr hg
  show execSeqWaitpg x s = _
  simp only [execSeqWaitpg, h, hover, Bool.true_or, Bool.not_true, Bool.false_eq_true, if_false, if_true]

/-- COND 4 asks whether the rail reads between its two warning levels. -/
theorem exec_seqCheck_between {k : Nat} (h : s.seqAt 5 = true) (hk : k = bits s.seqWord 16 5) (hc : bits s.seqWord 21 3 = 4) :
    exec .seqCheck s =
      .next ((s.setB PWR_SEQ_STATUS.F (decide (s.f (PWR_RAIL_UV.WARN k) ≤ s.f (PWR_RAIL_STATUS.MV k) ∧ s.f (PWR_RAIL_STATUS.MV k) ≤ s.f (PWR_RAIL_OV.WARN k)))).seqNext
        false none) := by
  show execSeqCheck s = _
  simp only [execSeqCheck, h, ← hk, hc, Bool.not_true, Bool.false_eq_true, if_false]

theorem exec_seqJump_at (h : s.seqAt 6 = true) : exec .seqJump s = .next (s.seqNext false (some (bits s.seqWord 0 6))) := by
  show execSeqJump s = _
  simp only [execSeqJump, h, if_true]

theorem exec_seqJumpif_at (h : s.seqAt 7 = true) :
    exec .seqJumpif s = .next (s.seqNext false (if s.b PWR_SEQ_STATUS.F = bit s.seqWord 8 then some (bits s.seqWord 0 6) else none)) := by
  show execSeqJumpif s = _
  simp only [execSeqJumpif, h, if_true]

/-! ## The limit of a run (R617) -/

theorem exec_seqLimitTimeout_running (hp : s.power ≠ pwrOFF) (hs : s.f PWR_SEQ_STATUS.STATE = sqRUNNING) :
    exec .seqLimitTimeout s = .next (s.seqOver 0xFF) := by
  show execSeqLimitTimeout s = _
  simp only [execSeqLimitTimeout, hp, hs, ne_eq, not_false_eq_true, and_self, if_true]

end

/-- Settles O45, two clauses for a word that is written, one for each opcode, and one for the limit. -/
theorem sequencerComplete : Obligations.SequencerComplete := by
  refine ⟨?_, ?_, ?_, ?_, ?_, ?_, ?_, ?_, ?_, ?_, ?_⟩
  · exact fun s i v hi hd hv ho hok => exec_seqProgramWrite_taken hi hd hv ho hok
  · exact fun s i v hi hd hv h => exec_seqProgramWrite_refused hi hd hv h
  · exact fun s h => exec_seqEnd_at h
  · exact fun s h => exec_seqEnable_at h
  · exact fun s t k h hk ht => exec_seqDisable_at h hk ht
  · exact fun s h => exec_seqWait_at h
  · exact fun s x h hg => exec_seqWaitpg_over h hg
  · exact fun s k h hk hc => exec_seqCheck_between h hk hc
  · exact fun s h => exec_seqJump_at h
  · exact fun s h => exec_seqJumpif_at h
  · exact fun s hp hs => exec_seqLimitTimeout_running hp hs

end Sys2Proof.Machine
end

section
/-! PROOFS. Supplies, rails and temperature (O46, R607 to R613, R620, R621): the PMIC and the core supply, a rail's readings and its power-good, the
sensors' round and the weir's grace. -/
namespace Sys2Proof.Machine

section
variable {s : State}

/-! ## Supplies (R607 to R611) -/

section
variable (hc : s.boot.cores = true) (hh : s.power ≠ pwrHIBERNATE) (ho : s.power ≠ pwrOFF)
include hc hh ho

section
variable {t : State} (ht : t = { s with pwr := { s.pwr with pmbusUsed := true } })
include ht

theorem exec_pmbusPoll_failed (f : Option Nat) : exec (.pmbusPoll false f) s = .next (((t.raise PWR_PMIC.BUS_ERR).report 0x11 1 0x11).pf 6) := by
  show execPmbusPoll false f s = _
  simp only [execPmbusPoll, hc, hh, ho, ← ht, decide_false, Bool.not_true, Bool.not_false, Bool.or_self, Bool.false_eq_true, if_false, if_true]

theorem exec_pmbusPoll_quiet : exec (.pmbusPoll true none) s = .next t := by
  show execPmbusPoll true none s = _
  simp only [execPmbusPoll, hc, hh, ho, ← ht, decide_false, Bool.not_true, Bool.or_self, Bool.false_eq_true, if_false]

end

/-- Where the supply reads what was asked for, the governor and the condition PACE follow the least slack. -/
theorem exec_paceEvaluate_matched {t u : State} {sl : List (BitVec 16)} {x : Int} {r : List Int}
    (ht : t = (List.range 20).foldl (fun (t : State) m => t.setF (PWR_PACE.SLACK m) (if s.paceOn m then (sl.getD m 0).toNat else 0x8000)) s)
    (hu : u = { t.setF PWR_AVS_STATUS.VREAD (min (s.f PWR_AVS_STATUS.VSET) 2047) with pwr := { s.pwr with avsFails := 0 } })
    (hx : ((List.range 20).filter s.paceOn).map (fun m => (sl.getD m 0).toInt) = x :: r) :
    exec (.paceEvaluate sl (s.f PWR_AVS_STATUS.VSET)) s =
      .next ((u.govern (r.foldl (fun (a : Int) y => min a y) x)).pace (r.foldl (fun (a : Int) y => min a y) x)) := by
  have hnear : ∀ v : Nat, ¬ v + 15 < v := fun v => by omega
  show execPaceEvaluate sl (s.f PWR_AVS_STATUS.VSET) s = _
  simp only [execPaceEvaluate, hc, hh, ho, hnear, hx, ← ht, ← hu, Nat.reduceEqDiff, false_and, or_self, decide_false, Bool.not_true, Bool.or_self,
    Bool.false_eq_true, if_false]

end

theorem exec_vddCoreUndervolt_on (hh : s.power ≠ pwrHIBERNATE) (ho : s.power ≠ pwrOFF) :
    exec .vddCoreUndervolt s = .next ((s.report 0x11 4 0x14).pf 6) := by
  show execVddCoreUndervolt s = _
  simp only [execVddCoreUndervolt, hh, ho, or_self, if_false]

/-! ## Rails (R612, R613) -/

theorem exec_railMonitorReading_on (cs : List (BitVec 12)) (ho : s.power ≠ pwrOFF) :
    exec (.railMonitorReading cs) s =
      .next ((List.range 32).foldl (fun (s : State) k =>
        let v := (cs.getD k 0).toNat * s.f (PWR_RAIL_CFG.SCALE k) / 4096
        let t := s.setF (PWR_RAIL_STATUS.MV k) v
        if t.railChecked k && t.railMon k then t.railCheck k v else t) s).railSync := by
  show execRailMonitorReading cs s = _
  simp only [execRailMonitorReading, ho, if_false]

section
variable {k : Nat} (hk : k < 32)
include hk

/-- A drop fires once until the power-good is back (assumption log 65). -/
theorem exec_railPgDrop_armed {t : State} (ho : s.power ≠ pwrOFF) (ht : t = s.setF (PWR_RAIL_STATUS.PG k) 0) (hc : t.railChecked k = true)
    (he : t.b (PWR_RAIL_CFG.PG_EN k) = true) (ha : (t.rail k).hitPg = false) :
    exec (.railPgDrop k) s =
      .next (((t.setRail k { t.rail k with hitPg := true }).satInc (PWR_RAIL_CNT2.PGDROP k)).railFault k 0x17).railSync := by
  show execRailPgDrop k s = _
  simp only [execRailPgDrop, Nat.not_le.2 hk, ho, ← ht, hc, he, ha, Bool.not_false, Bool.and_self, or_self, if_false, if_true]

theorem exec_railPgRise_on (ho : s.power ≠ pwrOFF) :
    exec (.railPgRise k) s = .next ((s.setF (PWR_RAIL_STATUS.PG k) 1).setRail k { s.rail k with hitPg := false }).railSync := by
  show execRailPgRise k s = _
  simp only [execRailPgRise, Nat.not_le.2 hk, ho, or_self, if_false]

theorem exec_railBlankEnd_blanking (he : s.railEn k = true) (hb : (s.rail k).blanked = false) :
    exec (.railBlankEnd k) s = .next (s.setRail k { s.rail k with blanked := true }).railSync := by
  show execRailBlankEnd k s = _
  simp only [execRailBlankEnd, Nat.not_le.2 hk, he, hb, Bool.not_true, Bool.false_eq_true, or_self, if_false]

end

/-! ## Temperature (R620, R621) -/

theorem exec_thermalSensorRound_clocked (ts : List (BitVec 16)) (ho : s.power ≠ pwrOFF) (hr : s.b CLK_STATUS.REFCLK_OK = true) :
    exec (.thermalSensorRound ts) s = .next (s.thermalRound ts) := by
  show execThermalSensorRound ts s = _
  simp only [execThermalSensorRound, ho, hr, not_true, or_self, if_false]

/-- The first grace time orders the class asked for where a faster one is in force. -/
theorem exec_weirGraceExpiry_first {t : State} (hg : s.pwr.grace = true) (hch : s.pwr.changed = false)
    (ht : t = { s with pwr := { s.pwr with grace := false, changed := false } }) (ha : bit (t.f THM_WEIR.ACTIVE) 0 = true)
    (hcls : t.classNow < t.scn.asks.getD 0 0) :
    exec .weirGraceExpiry s = .next { (t.satInc THM_WEIR.ENFORCED).pf 5 with pwr := { t.pwr with ordered := true } } := by
  have hask : t.classNow < s.scn.asks.getD 0 0 := by rw [ht] at hcls ⊢; exact hcls
  have hpwr : t.pwr = { s.pwr with grace := false, changed := false } := by rw [ht]
  show execWeirGraceExpiry s = _
  simp only [execWeirGraceExpiry, hg, hch, ← ht, ha, hask, hpwr, Bool.not_true, Bool.false_eq_true, if_false, if_true]

end

/-- Settles O46, one clause for each command, the PMIC's two polls together. -/
theorem suppliesComplete : Obligations.SuppliesComplete := by
  refine ⟨?_, ?_, ?_, ?_, ?_, ?_, ?_, ?_, ?_⟩
  · exact fun s t f hc hh ho ht => ⟨exec_pmbusPoll_failed hc hh ho ht f, exec_pmbusPoll_quiet hc hh ho ht⟩
  · exact fun s t u sl x r hc hh ho ht hu hx => exec_paceEvaluate_matched hc hh ho ht hu hx
  · exact fun s hh ho => exec_vddCoreUndervolt_on hh ho
  · exact fun s cs ho => exec_railMonitorReading_on cs ho
  · exact fun s t k hk ho ht hc he ha => exec_railPgDrop_armed hk ho ht hc he ha
  · exact fun s k hk ho => exec_railPgRise_on hk ho
  · exact fun s k hk he hb => exec_railBlankEnd_blanking hk he hb
  · exact fun s ts ho hr => exec_thermalSensorRound_clocked ts ho hr
  · exact fun s t hg hch ht ha hcls => exec_weirGraceExpiry_first hg hch ht ha hcls

end Sys2Proof.Machine
end

section
/-! PROOFS. Power states (O47, R587, R602 to R604, R625, R718): a request, each step where its conditions hold, and the ways into boot and reset. -/
namespace Sys2Proof.Machine

section
variable {s : State}

/-! ## Requests (R602) -/

section
variable {v : Nat} (hd : s.poweredDown PWR_STATE.word = false)
include hd

theorem exec_powerStateRequest_taken (hv : v ≤ 5) (hr : s.ringMember = true → v ≠ pwrRUN) :
    exec (.powerStateRequest v) s = .next (s.setF PWR_STATE.REQ v) := by
  have hrun : ¬ (s.ringMember = true ∧ v = pwrRUN) := fun h => hr h.1 h.2
  show execPowerStateRequest v s = _
  simp only [execPowerStateRequest, hd, Nat.not_lt.2 hv, hrun, Bool.false_eq_true, if_false]

theorem exec_powerStateRequest_undefined (hv : 5 < v) : exec (.powerStateRequest v) s = .next (s.raise PWR_STATE.REFUSED) := by
  show execPowerStateRequest v s = _
  simp only [execPowerStateRequest, hd, hv, Bool.false_eq_true, if_false, if_true]

end

/-! ## Steps (R603) -/

theorem exec_powerStepReadyToRun_free (hg : s.goesUp pwrREADY = true) (hr : s.ringMember = false) (hn : s.runRefusal = none) :
    exec .powerStepReadyToRun s = .next (s.enterRun s.nextClass) := by
  show execPowerStepReadyToRun s = _
  simp only [execPowerStepReadyToRun, hg, hr, hn, Bool.not_true, Bool.or_self, Bool.false_eq_true, if_false]

theorem exec_powerStepRunToReady_settled (hg : s.goesDown pwrRUN = true) (hu : s.pwr.runUp = false) :
    exec .powerStepRunToReady s = .next s.leaveRun := by
  show execPowerStepRunToReady s = _
  simp only [execPowerStepRunToReady, hg, hu, Bool.not_false, Bool.and_self, if_true]

/-- The web is at rest below 10,000 µm/s (assumption log 60). -/
theorem exec_powerStepReadyToStandby_rest (hg : s.syncSpeed.goesDown pwrREADY = true) (hw : s.syncSpeed.f SCN_WEB_SPEED.SPEED < 10000)
    (hm : s.syncSpeed.ringMaster = false) : exec .powerStepReadyToStandby s = .next (s.syncSpeed.linksOff.stepDone pwrSTANDBY) := by
  show execPowerStepReadyToStandby s = _
  simp only [execPowerStepReadyToStandby, hg, Nat.not_le.2 hw, hm, Bool.not_true, Bool.false_eq_true, false_and, if_false]

theorem exec_powerStepStandbyToReady_up (hg : s.goesUp pwrSTANDBY = true) :
    exec .powerStepStandbyToReady s = .next (((s.stepDone pwrREADY).linksOn).stageTo 11) := by
  show execPowerStepStandbyToReady s = _
  simp only [execPowerStepStandbyToReady, hg, Bool.not_true, Bool.false_eq_true, if_false]

section
variable (hs : s.b PWR_STATE.STEPPING = false)
include hs

theorem exec_powerStepStandbyToSleep_down (hg : s.goesDown pwrSTANDBY = true) :
    exec .powerStepStandbyToSleep s = .next (((s.setF PWR_STATE.STEPPING 1).goToSleep).seqStart false) := by
  show execPowerStepStandbyToSleep s = _
  simp only [execPowerStepStandbyToSleep, hg, hs, Bool.not_true, Bool.or_self, Bool.false_eq_true, if_false]

theorem exec_powerStepSleepToStandby_cool (hg : s.goesUp pwrSLEEP = true) (hc : s.boot.cores = true) (hw : bit (s.f THM_WEIR.ACTIVE) 0 = false) :
    exec .powerStepSleepToStandby s = .next (((s.setF PWR_STATE.STEPPING 1).seqStart true).stageTo 9) := by
  show execPowerStepSleepToStandby s = _
  simp only [execPowerStepSleepToStandby, hg, hs, hc, hw, Bool.not_true, Bool.or_self, Bool.false_eq_true, if_false]

theorem exec_powerStepSleepToHibernate_down (hg : s.goesDown pwrSLEEP = true) : exec .powerStepSleepToHibernate s = .next s.armWake.hibernate := by
  show execPowerStepSleepToHibernate s = _
  simp only [execPowerStepSleepToHibernate, hg, hs, Bool.not_true, Bool.or_self, Bool.false_eq_true, if_false]

end

theorem exec_powerStepHibernateToOff_down (hg : s.goesDown pwrHIBERNATE = true) {t : State} (ht : t = (s.pmicOff.railsOff).resetRegs 0x800000 0xC00000) :
    exec .powerStepHibernateToOff s = .next ((({ t with pwr := { t.pwr with dcWake := false } } : State).setF PWR_STATE.NOW pwrOFF).hdgSync) := by
  show execPowerStepHibernateToOff s = _
  simp only [execPowerStepHibernateToOff, hg, ← ht, Bool.not_true, Bool.false_eq_true, if_false]

/-! ## Ways into boot and reset (R587, R604, R625, R718) -/

section
variable (hp : s.power = pwrHIBERNATE) (hsh : s.b THM_SHUT.ACTIVE = false)
include hp hsh

theorem exec_wakeNFall_hibernate : exec .wakeNFall s = .next (s.bootStart 1) := by
  show execWakeNFall s = _
  simp only [execWakeNFall, hp, hsh, ne_eq, not_true, decide_false, Bool.or_self, Bool.false_eq_true, if_false]

theorem exec_dcWakeTimer_armed (hw : s.pwr.dcWake = true) : exec .dcWakeTimer s = .next (s.bootStart 2) := by
  show execDcWakeTimer s = _
  simp only [execDcWakeTimer, hp, hsh, hw, ne_eq, not_true, decide_false, Bool.not_true, Bool.or_self, Bool.false_eq_true, if_false]

end

theorem exec_thermalRestart_cool (hsh : s.b THM_SHUT.ACTIVE = true) (hc : restartRounds ≤ s.pwr.cool) :
    exec .thermalRestart s = .next ((s.setF THM_SHUT.ACTIVE 0).bootStart 3) := by
  show execThermalRestart s = _
  simp only [execThermalRestart, hsh, Nat.not_lt.2 hc, decide_false, Bool.not_true, Bool.or_self, Bool.false_eq_true, if_false]

end

/-- Settles O47, two clauses for a request, one for each step and each way into boot or reset, the last by the command's own meaning. -/
theorem powerStatesComplete : Obligations.PowerStatesComplete := by
  refine ⟨?_, ?_, ?_, ?_, ?_, ?_, ?_, ?_, ?_, ?_, ?_, ?_, ?_, ?_⟩
  · exact fun s v hd hv hr => exec_powerStateRequest_taken hd hv hr
  · exact fun s v hd hv => exec_powerStateRequest_undefined hd hv
  · exact fun s hg hr hn => exec_powerStepReadyToRun_free hg hr hn
  · exact fun s hg hu => exec_powerStepRunToReady_settled hg hu
  · exact fun s hg hw hm => exec_powerStepReadyToStandby_rest hg hw hm
  · exact fun s hg => exec_powerStepStandbyToReady_up hg
  · exact fun s hg hs => exec_powerStepStandbyToSleep_down hs hg
  · exact fun s hg hs hc hw => exec_powerStepSleepToStandby_cool hs hg hc hw
  · exact fun s hg hs => exec_powerStepSleepToHibernate_down hs hg
  · exact fun s t hg ht => exec_powerStepHibernateToOff_down hg ht
  · exact fun s hp hsh => exec_wakeNFall_hibernate hp hsh
  · exact fun s hp hsh hw => exec_dcWakeTimer_armed hp hsh hw
  · exact fun s hsh hc => exec_thermalRestart_cool hsh hc
  · exact fun s => rfl

end Sys2Proof.Machine
end

section
/-! PROOFS. Boot and reset (O48, R606, R626, R652, R730, R738): the supplies, DRAM training, the firmware that is verified, and the resets. -/
namespace Sys2Proof.Machine

section
variable {s : State}

/-! ## A boot that runs (R606, R626, R652) -/

section
variable (hr : s.boot.running = true)
include hr

section
variable {e : Nat} (he : s.pwr.enable = some e)
include he

theorem exec_pmicPowerGood_awaited : exec (.pmicPowerGood e) s = .next (if e < 3 then s.raisePmic (e + 1) else s.bootRom) := by
  show execPmicPowerGood e s = _
  simp only [execPmicPowerGood, hr, he, ne_eq, not_true, decide_false, Bool.not_true, Bool.or_self, Bool.false_eq_true, if_false,
    apply_ite Host.Outcome.next]

/-- The first two failures of a supply leave the boot running, to be tried again. -/
theorem exec_pmicEnableTimeout_again (hn : s.pwr.tries + 1 < 3) {t : State}
    (ht : t = (s.pmicOff.lastWord 0x11 0x10 0 0 (e * 256)).setF PWR_BOOT.CAUSE (0x30 + e)) :
    exec (.pmicEnableTimeout e) s =
      .next { t with pwr := { t.pwr with enable := none, tries := s.pwr.tries + 1, retry := true, supCause := some e } } := by
  show execPmicEnableTimeout e s = _
  simp only [execPmicEnableTimeout, hr, he, hn, ← ht, ne_eq, not_true, decide_true, decide_false, Bool.not_true, Bool.or_self, Bool.false_eq_true,
    if_false, if_true]

end

theorem exec_pmicRetry_due (hp : s.pwr.retry = true) : exec .pmicRetry s = .next (s.raisePmic 0) := by
  show execPmicRetry s = _
  simp only [execPmicRetry, hr, hp, Bool.and_self, if_true]

/-- With every system PLL locked and a random source for its keys, the trained memory is in service. -/
theorem exec_dramTrained_good (ch n : Nat) {t : State} {k : List Byte} (hs : 3 ≤ s.f PWR_BOOT.STAGE) (hd : s.boot.dramDone = false)
    (hl : ∀ p ∈ [12, 13, 14, 15], bit (s.f CLK_STATUS.LOCKED) p = true) (hf : s.b SEC_STATUS.TRNG_FAIL = false) (hk : s.drawn 8 = (t, k)) :
    exec (.dramTrained true ch n) s =
      .next { t.stageTo 6 with boot := { s.boot with dramDone := true, installed := n, xts := k } } := by
  have hlocked : List.all [12, 13, 14, 15] (fun p => bit (s.f CLK_STATUS.LOCKED) p) = true := List.all_eq_true.2 hl
  show execDramTrained true ch n s = _
  simp only [execDramTrained, hr, Nat.not_lt.2 hs, hd, hlocked, hf, hk, decide_false, Bool.not_true, Bool.or_self, Bool.false_eq_true, if_false]

section
variable {t : State} {dir : Nat × Nat × Nat} (hd : s.boot.dramDone = true) (h0 : dir.1 % 2 = 0)
  (ht : t = { s with boot := { s.boot with dirSeq := dir.2.1, dirRec := dir.2.2 % 2 } }) (jo bo : Bool)
include hd h0 ht

theorem exec_firmwareVerified_first {ha pa : List Byte} (hb : Option (List Byte)) (pb : List Byte) (hc : t.slotCode (some ha) pa = 0) :
    exec (.firmwareVerified dir (some ha) pa hb pb jo bo) s = .next (t.startCores 0 (leAt ha 8 4) false jo bo) := by
  have hready : (!s.boot.running || !s.boot.dramDone) = false := by rw [hr, hd]; rfl
  show execFirmwareVerified dir (some ha) pa hb pb jo bo s = _
  simp only [execFirmwareVerified, hready, h0, ← ht, hc, Option.getD_some, Bool.false_eq_true, if_false, if_true]

/-- The other slot starts only where the first does not pass. -/
theorem exec_firmwareVerified_fallback {ha : Option (List Byte)} {pa hb pb : List Byte} (hc : t.slotCode ha pa ≠ 0)
    (hc' : t.slotCode (some hb) pb = 0) :
    exec (.firmwareVerified dir ha pa (some hb) pb jo bo) s = .next (t.startCores 1 (leAt hb 8 4) true jo bo) := by
  have hready : (!s.boot.running || !s.boot.dramDone) = false := by rw [hr, hd]; rfl
  show execFirmwareVerified dir ha pa (some hb) pb jo bo s = _
  simp only [execFirmwareVerified, hready, h0, ← ht, hc, hc', Nat.sub_zero, Nat.one_ne_zero, Option.getD_some, Bool.false_eq_true, if_false, if_true]

end
end

/-! ## Resets (R730, R738) -/

/-- A session that was open is closed by the reset, and a part in TEST_MODE does not boot. -/
theorem exec_powerOnReset {t u : State} (st tm si : Bool) (ht : t = (s.porBase false).latchFuses.otpShow.factoryTaps)
    (hu : u = ((if s.sessionLevel ≠ 0 then t.setF SEC_DBG_STATUS.CLOSE_CAUSE 4 else t).setB CUL_STATUS.MASTER st).setF CLK_STATUS.REFCLK_OK 1) :
    exec (.powerOnReset st tm si) s =
      .next (if tm then { u with boot := { strap := st, testMode := tm }, ect := { siiOk := si } }
             else ({ u with boot := { strap := st, testMode := tm }, ect := { siiOk := si } } : State).bootStart 0) := by
  show execPowerOnReset st tm si s = _
  simp only [execPowerOnReset, ← ht, decide_eq_true_eq, ← hu]

theorem exec_sysResetAssert_on {t : State} (hh : s.power ≠ pwrHIBERNATE) (ho : s.power ≠ pwrOFF) (hsh : s.b THM_SHUT.ACTIVE = false)
    (hs : s.boot.sysReset = false) (hl : s.sessionLevel = 0)
    (ht : t = (((({ s with boot := { s.boot with sysReset := true } } : State).hdgSync.aliveStop.lastWord 0x16 0x22).seqStop.railSync.engineStop 4).darken
      true).gatesShut) :
    exec .sysResetAssert s =
      .next (((({ t with boot := { t.boot with sysReset := true }, pwr := { t.pwr with runUp := false } } : State).setF PWR_STATE.STEPPING 0).setF PWR_STATE.NOW pwrSLEEP).setB
        CUL_STATUS.MASTER t.boot.strap).hdgSync.railSync := by
  show execSysResetAssert s = _
  simp only [execSysResetAssert, hh, ho, hsh, hs, hl, ← ht, ne_eq, not_true, decide_false, Bool.or_self, Bool.false_eq_true, if_false]

theorem exec_sysResetRelease_asserted {t : State} (hs : s.boot.sysReset = true)
    (ht : t = { s with now := 0, boot := { s.boot with sysReset := false, running := true, stopped := false } }) :
    exec .sysResetRelease s = .next ((t.setF PWR_BOOT.CAUSE 0).setF PWR_BOOT.STAGE 3).hdgSync.railSync.bootRom := by
  show execSysResetRelease s = _
  simp only [execSysResetRelease, hs, ← ht, Bool.not_true, Bool.false_eq_true, if_false]

end

/-- Settles O48, one clause for each command, two for the firmware. -/
theorem bootComplete : Obligations.BootComplete := by
  refine ⟨?_, ?_, ?_, ?_, ?_, ?_, ?_, ?_, ?_⟩
  · exact fun s e hr he => exec_pmicPowerGood_awaited hr he
  · exact fun s t e hr he hn ht => exec_pmicEnableTimeout_again hr he hn ht
  · exact fun s hr hp => exec_pmicRetry_due hr hp
  · exact fun s t ch n k hr hs hd hl hf hk => exec_dramTrained_good hr ch n hs hd hl hf hk
  · exact fun s t dir ha pa pb hb jo bo hr hd h0 ht hc => exec_firmwareVerified_first hr hd h0 ht jo bo hb pb hc
  · exact fun s t dir hb pa pb ha jo bo hr hd h0 ht hc hc' => exec_firmwareVerified_fallback hr hd h0 ht jo bo hc hc'
  · exact fun s t u st tm si ht hu => exec_powerOnReset st tm si ht hu
  · exact fun s t hh ho hsh hs hl ht => exec_sysResetAssert_on hh ho hsh hs hl ht
  · exact fun s t hs ht => exec_sysResetRelease_asserted hs ht

end Sys2Proof.Machine
end

section
/-! PROOFS. OTP, life cycle and debug tokens (O49, R635 to R661): the port's commands, life-cycle steps, the thermometers, challenges, tokens and
sessions, and the random source. -/
namespace Sys2Proof.Machine

section
variable {s : State}

/-! ## The OTP port (R635, R639) -/

section
variable (a : Nat) (hd : s.poweredDown OTP_CMD.word = false)
include hd

theorem exec_otpReadS_lit : exec (.otpReadS a) s = .next (s.otpStart (.readS (a % 2048))) := by
  show execOtpReadS a s = _
  simp only [execOtpReadS, State.otpCmdWrite, hd, State.otpCmd, Bool.false_eq_true, if_false]

theorem exec_otpWriteS_lit : exec (.otpWriteS a) s = .next (s.otpStart (.writeS (a % 2048) s.otpData)) := by
  show execOtpWriteS a s = _
  simp only [execOtpWriteS, State.otpCmdWrite, hd, State.otpCmd, Bool.false_eq_true, if_false]

theorem exec_otpSetP_lit : exec (.otpSetP a) s = .next (s.otpStart (.setP (a % 2048) (s.otpData.setWidth 32))) := by
  show execOtpSetP a s = _
  simp only [execOtpSetP, State.otpCmdWrite, hd, State.otpCmd, Bool.false_eq_true, if_false]

end

/-- A word with a bit that did not take is written all the same, and damaged. -/
theorem exec_otpOperationDone_write {w : Nat} {d : BitVec 64} (bad : BitVec 64) (e : Nat) (ho : s.otp.op = some (.writeS w d)) (hc : s.otp.code = 0) :
    exec (.otpOperationDone bad e) s =
      .next ((((s.setOtpWord w { written := true, data := d, err := if d &&& bad ≠ 0#64 then 2 else 0 }).setF OTP_STATUS.CODE
        (if d &&& bad ≠ 0#64 then 3 else 0)).otpNext).otpShow) := by
  show execOtpOperationDone bad e s = _
  simp only [execOtpOperationDone, ho, hc, ne_eq, not_true, decide_eq_true_eq, if_false]

/-! ## Life cycle (R646 to R648) -/

section
variable (k : Nat) (hd : s.poweredDown SEC_LC.word = false)
include hd

theorem exec_lcRequestSecured_lit : exec (.lcRequestSecured k) s = .next (s.askSecured k) := by
  show execLcRequestSecured k s = _
  simp only [execLcRequestSecured, hd, Bool.false_eq_true, if_false]

theorem exec_lcRequestReturned_lit : exec (.lcRequestReturned k) s = .next (s.askReturned k) := by
  show execLcRequestReturned k s = _
  simp only [execLcRequestReturned, hd, Bool.false_eq_true, if_false]

end

theorem State.askSecured_provisioned (hl : s.lc = lcBLANK) (hp : s.provisioned = true) (hf : s.b SEC_STATUS.TRNG_FAIL = false) :
    s.askSecured 0xA5 = s.otpInternal (.transition lcSECURED) := by
  simp only [State.askSecured, hl, hp, hf, Bool.false_eq_true, not_false_eq_true, and_self, if_true]

theorem State.lcFrom_field (hl : s.lc = lcSECURED) : s.lcFrom lcFIELD = true := by
  have hs : lcFIELD ≠ lcSECURED := by decide
  have hr : lcFIELD ≠ lcRETURNED := by decide
  simp only [State.lcFrom, hs, hr, hl, decide_true, if_false]

theorem State.lcFrom_returned (hl : s.lc ≠ lcRETURNED) : s.lcFrom lcRETURNED = true := by
  have hs : lcRETURNED ≠ lcSECURED := by decide
  simp only [State.lcFrom, hs, hl, ne_eq, not_false_eq_true, decide_true, if_false, if_true]

theorem exec_lcTransitionDone_field (b : Bool) (ho : s.otp.op = some (.transition lcFIELD)) (hl : s.lc = lcSECURED) :
    exec (.lcTransitionDone b) s = .next (s.lcDone lcFIELD).otpNext := by
  have hs : lcFIELD ≠ lcSECURED := by decide
  have hr : lcFIELD ≠ lcRETURNED := by decide
  show execLcTransitionDone b s = _
  simp only [execLcTransitionDone, ho, State.lcFrom_field hl, hs, hr, Bool.not_true, Bool.false_eq_true, if_false]

theorem exec_lcTransitionDone_returned (b : Bool) (ho : s.otp.op = some (.transition lcRETURNED)) (hl : s.lc ≠ lcRETURNED) :
    exec (.lcTransitionDone b) s = .next (s.obliterate.lcDone lcRETURNED).otpNext := by
  have hs : lcRETURNED ≠ lcSECURED := by decide
  show execLcTransitionDone b s = _
  simp only [execLcTransitionDone, ho, State.lcFrom_returned hl, hs, Bool.not_true, Bool.false_eq_true, if_false, if_true]

/-! ## Versions and revocation (R654, R659) -/

theorem exec_svnCommit_lit (hd : s.poweredDown SEC_SVN_CTRL.word = false) : exec .svnCommit s = .next s.svnCommit := by
  show execSvnCommit s = _
  simp only [execSvnCommit, hd, Bool.false_eq_true, if_false]

theorem exec_tokenRevoke_higher {n : Nat} (hd : s.poweredDown SEC_TOKEN_EPOCH.word = false) (hn : n ≤ 256) (hlt : s.thermo rowsToken 8 < n) :
    exec (.tokenRevoke n) s = .next (s.otpInternal (.thermo rowsToken 8 n)) := by
  show execTokenRevoke n s = _
  simp only [execTokenRevoke, hd, Nat.not_lt.2 hn, hlt, Bool.false_eq_true, if_false, if_true]

/-! ## Challenges, tokens and sessions (R657, R659, R661) -/

theorem exec_challengeRead_lit (hd : s.poweredDown (SEC_CHAL.word 0) = false) :
    exec .challengeRead s = .next (s.drawChallenge.emit (.completion 0 (s.drawChallenge.word (SEC_CHAL.word 0)))) := by
  show execChallengeRead s = _
  simp only [execChallengeRead, hd, Bool.false_eq_true, if_false]

section
variable (hd : s.poweredDown SEC_DBG_CTRL.word = false)
include hd

theorem exec_tokenSubmit_free (t : List Byte) (hn : s.sec.token = none) :
    exec (.tokenSubmit (some t)) s = .next { s.setF SEC_DBG_STATUS.STATE 1 with sec := { s.sec with token := some t } } := by
  show execTokenSubmit (some t) s = _
  simp only [execTokenSubmit, State.submit, hd, hn, Option.getD_some, Option.isSome_none, Bool.false_eq_true, if_false]

theorem exec_sessionClose_lit : exec .sessionClose s = .next (s.closeSession 1) := by
  show execSessionClose s = _
  simp only [execSessionClose, hd, Bool.false_eq_true, if_false]

end

/-- A good token opens a session of its level, unless it asks for FIELD. -/
theorem exec_tokenCheckDone_good {u : State} {t : List Byte} (ht : s.sec.token = some t) (hc : s.tokenCode t false = 0) (hl : leAt t 5 1 ≠ 3)
    (hu : u = ({ s.setF SEC_DBG_STATUS.STATE (if s.sessionLevel = 0 then 0 else 2) with sec := { s.sec with token := none } } : State).tokenJudged 0) :
    exec .tokenCheckDone s = .next (u.openSession (leAt t 5 1) (leAt t 52 4)) := by
  show execTokenCheckDone s = _
  simp only [execTokenCheckDone, ht, hc, hl, ← hu, ne_eq, not_true, if_false]

theorem exec_sessionExpired_over (hl : s.sessionLevel ≠ 0) (ht : s.sec.opened + s.sec.life * 1000000000 ≤ s.now.toNat) :
    exec .sessionExpired s = .next (s.closeSession 2) := by
  show execSessionExpired s = _
  simp only [execSessionExpired, hl, Nat.not_lt.2 ht, or_self, if_false]

/-! ## The random source (R656) -/

theorem exec_trngHealthFail_good {t : State} (hf : s.b SEC_STATUS.TRNG_FAIL = false)
    (ht : t = { s with sec := { s.sec with trngAt := some s.now.toNat } }) :
    exec .trngHealthFail s = .next ((t.setF SEC_STATUS.TRNG_FAIL 1).secReport 1 0x17 0) := by
  have hft : t.b SEC_STATUS.TRNG_FAIL = false := by rw [ht]; exact hf
  show execTrngHealthFail s = _
  simp only [execTrngHealthFail, ← ht, hft, Bool.false_eq_true, if_false]

theorem exec_trngRecover_passed (h : ∀ a, s.sec.trngAt = some a → a + 1000000 ≤ s.now.toNat) :
    exec .trngRecover s = .next (s.setF SEC_STATUS.TRNG_FAIL 0) := by
  have hpassed : s.sec.trngAt.any (fun t => decide (s.now.toNat < t + 1000000)) = false := by
    simpa only [Option.any_eq_false, decide_eq_true_eq, Bool.not_eq_true, decide_eq_false_iff_not, Nat.not_lt] using h
  show execTrngRecover s = _
  simp only [execTrngRecover, hpassed, Bool.false_eq_true, if_false]

end

/-- Settles O49, one clause for each command, the port's three and the two life-cycle requests each together, two for a transition that is done. -/
theorem securityComplete : Obligations.SecurityComplete := by
  refine ⟨?_, ?_, ?_, ?_, ?_, ?_, ?_, ?_, ?_, ?_, ?_, ?_, ?_, ?_, ?_⟩
  · exact fun s a hd => ⟨exec_otpReadS_lit a hd, exec_otpWriteS_lit a hd, exec_otpSetP_lit a hd⟩
  · exact fun s w d bad e ho hc => exec_otpOperationDone_write bad e ho hc
  · exact fun s k hd => ⟨exec_lcRequestSecured_lit k hd, exec_lcRequestReturned_lit k hd⟩
  · exact fun s hl hp hf => State.askSecured_provisioned hl hp hf
  · exact fun s b ho hl => exec_lcTransitionDone_field b ho hl
  · exact fun s b ho hl => exec_lcTransitionDone_returned b ho hl
  · exact fun s hd => exec_svnCommit_lit hd
  · exact fun s n hd hn hlt => exec_tokenRevoke_higher hd hn hlt
  · exact fun s hd => exec_challengeRead_lit hd
  · exact fun s t hd hn => exec_tokenSubmit_free hd t hn
  · exact fun s u t ht hc hl hu => exec_tokenCheckDone_good ht hc hl hu
  · exact fun s hd => exec_sessionClose_lit hd
  · exact fun s hl ht => exec_sessionExpired_over hl ht
  · exact fun s t hf ht => exec_trngHealthFail_good hf ht
  · exact fun s h => exec_trngRecover_passed h

end Sys2Proof.Machine
end

section
/-! PROOFS. The debug port (O50, R660 to R665): each instruction, where the port is powered and the reach of debug lets it act. -/
namespace Sys2Proof.Machine

section
variable {s : State} (ho : s.tapOn = true)
include ho

/-! ## Instructions of the standard (R662 to R664) -/

theorem exec_jtagBypass_on : exec .jtagBypass s = .next s.bypass := by
  show execJtagBypass s = _
  simp only [execJtagBypass, ho, if_true]

theorem exec_jtagIdcode_on :
    exec .jtagIdcode s = .next ((s.setIr 0x01#8).shiftOut 0 (s.f HIF_REV.DIE_REV % 16 * 2 ^ 28 + s.variant.code * 2 ^ 12 + 0x1E7)) := by
  show execJtagIdcode s = _
  simp only [execJtagIdcode, ho, Bool.not_true, Bool.false_eq_true, if_false]

theorem exec_jtagSamplePreload_on {t : State} {cs : List Bool} (ht : t = { s.setIr 0x02#8 with tap := { s.tap with ir := 0x02#8, cells := cs } }) :
    exec (.jtagSamplePreload cs) s = .next (t.shiftOut 0 t.free.toNat).drew := by
  show execJtagSamplePreload cs s = _
  simp only [execJtagSamplePreload, ho, ← ht, Bool.not_true, Bool.false_eq_true, if_false]

/-- The three instructions that take the pins are a C4 each (assumption log 64). -/
theorem State.pinTest_on (ir : BitVec 8) : s.pinTest ir = (s.setIr ir).report 0x15 4 0x1A := by
  simp only [State.pinTest, ho, if_true]

/-! ## SEC_MBX (R663) -/

section
variable {t : State} {off : Nat} {d : BitVec 32} (hr : secMbxReaches off = true)
  (ht : t = { s with tap := { s.tap with ir := 0x10#8, dr := BitVec.ofNat 64 (off * 2 ^ 32 + d.toNat) } })
include hr ht

theorem exec_jtagSecMbx_write : exec (.jtagSecMbx true off d) s = .next ((t.regWrite (tapWr off d)).shiftOut 0 0) := by
  show execJtagSecMbx true off d s = _
  simp only [execJtagSecMbx, ho, hr, ← ht, Bool.not_true, Bool.false_eq_true, if_false, if_true]

theorem exec_jtagSecMbx_read : exec (.jtagSecMbx false off d) s = .next ((t.tapRead off).2.shiftOut 0 (t.tapRead off).1.toNat) := by
  show execJtagSecMbx false off d s = _
  simp only [execJtagSecMbx, ho, hr, ← ht, Bool.not_true, Bool.false_eq_true, if_false]

end

/-! ## DBG_ACCESS and OTP_ACCESS (R660, R663, R665) -/

section
variable {op : Nat} {a d : BitVec 64}

theorem exec_jtagDbgAccess_read (hr : reachO ≤ s.reach) :
    exec (.jtagDbgAccess dbgRegRead a d) s =
      .next (((s.setIr 0x20#8).tapRead a.toNat).2.shiftOut 0 ((s.setIr 0x20#8).tapRead a.toNat).1.toNat) := by
  show execJtagDbgAccess dbgRegRead a d s = _
  simp only [execJtagDbgAccess, ho, Nat.not_lt.2 hr, Bool.not_true, Bool.false_eq_true, if_false, if_true]

/-- The instruction that is put in force is no part of the reach. -/
theorem exec_jtagDbgAccess_control (hr : reachC ≤ s.reach) (hop : op ≠ dbgRegRead) (hsame : (s.setIr 0x20#8).reach = s.reach) :
    exec (.jtagDbgAccess op a d) s = .next ((s.setIr 0x20#8).dbgControl op a d) := by
  have hO : ¬ s.reach < reachO := Nat.not_lt.2 (Nat.le_of_succ_le hr)
  show execJtagDbgAccess op a d s = _
  simp only [execJtagDbgAccess, ho, hO, hop, hsame, hr, Bool.not_true, Bool.false_eq_true, if_false, if_true]

theorem exec_jtagDbgAccess_beyond (hr : s.reach < reachO) : exec (.jtagDbgAccess op a d) s = .next s.bypass := by
  show execJtagDbgAccess op a d s = _
  simp only [execJtagDbgAccess, ho, hr, Bool.not_true, Bool.false_eq_true, if_false, if_true]

end

theorem exec_jtagOtpAccess_reached {op a : Nat} {d : BitVec 64} (hr : reachP ≤ s.reach) :
    exec (.jtagOtpAccess op a d) s = .next (((s.setIr 0x21#8).otpCmd op a d).shiftOut 0 0) := by
  show execJtagOtpAccess op a d s = _
  simp only [execJtagOtpAccess, ho, Nat.not_lt.2 hr, Bool.not_true, Bool.false_eq_true, if_false]

end

/-- Settles O50, one clause for each instruction, three for DBG_ACCESS, one for the three that take the pins and one for SEC_MBX. -/
theorem debugPortComplete : Obligations.DebugPortComplete := by
  refine ⟨?_, ?_, ?_, ?_, ?_, ?_, ?_, ?_, ?_⟩
  · exact fun s ho => exec_jtagBypass_on ho
  · exact fun s ho => exec_jtagIdcode_on ho
  · exact fun s t cs ho ht => exec_jtagSamplePreload_on ho ht
  · exact fun s ho => ⟨congrArg Host.Outcome.next (State.pinTest_on ho _), congrArg Host.Outcome.next (State.pinTest_on ho _),
      congrArg Host.Outcome.next (State.pinTest_on ho _)⟩
  · exact fun s t off d ho hr ht => ⟨exec_jtagSecMbx_write ho hr ht, exec_jtagSecMbx_read ho hr ht⟩
  · exact fun s a d ho hr => exec_jtagDbgAccess_read ho hr
  · exact fun s op a d ho hr hop hsame => exec_jtagDbgAccess_control ho hr hop hsame
  · exact fun s op a d ho hr => exec_jtagDbgAccess_beyond ho hr
  · exact fun s op a d ho hr => exec_jtagOtpAccess_reached ho hr

end Sys2Proof.Machine
end

section
/-! PROOFS. A latched Sump (O57, R684, R685, R687): RELEASE frees it, and until then it does not recover. -/
namespace Sys2Proof.Machine

section
variable {s : State}

/-- With the recoveries forgotten none of them lies in the window. -/
theorem State.releaseLatch_latched (hl : s.b FLT_STATUS.LATCHED = true) :
    s.releaseLatch = ({ s.setF FLT_STATUS.LATCHED 0 with flt := { s.flt with recovs := [] } } : State).setF FLT_RECOV_CNT.IN_WINDOW 0 := by
  simp only [State.releaseLatch, hl, if_true, State.syncWindow, List.filter_nil, List.length_nil, Nat.min_zero]

theorem State.releaseLatch_unlatched (hl : s.b FLT_STATUS.LATCHED = false) : s.releaseLatch = s := by
  simp only [State.releaseLatch, hl, Bool.false_eq_true, if_false]

theorem exec_sumpRelease_lit (hd : s.poweredDown FLT_CTRL.word = false) : exec .sumpRelease s = .next s.releaseLatch := by
  show execSumpRelease s = _
  simp only [execSumpRelease, hd, Bool.false_eq_true, if_false]

/-- The quiet time does not run while the Sump is latched (R684). -/
theorem State.quietOver_latched (hl : s.b FLT_STATUS.LATCHED = true) : s.quietOver = false := by
  simp only [State.quietOver, State.quiet, hl, Bool.not_true, Bool.and_false, Bool.false_and]

theorem exec_sumpRecovery_latched (hl : s.b FLT_STATUS.LATCHED = true) : exec .sumpRecovery s = .next s := by
  show execSumpRecovery s = _
  simp only [execSumpRecovery, State.quietOver_latched hl, Bool.not_false, if_true]

end

/-- Settles O57: RELEASE writes LATCHED and IN_WINDOW alone, which lie in two registers. -/
theorem latchedSumpWaitsForRelease : Obligations.LatchedSumpWaitsForRelease := by
  refine ⟨fun s hc hd hl => ?_, fun s hd hl => ?_, fun s hl => exec_sumpRecovery_latched hl⟩
  · have hcleared : Touches [FLT_STATUS.word, FLT_RECOV_CNT.word] s (s.setF FLT_STATUS.LATCHED 0) :=
      (Touches.refl hc).setF (x := FLT_STATUS.LATCHED) (List.mem_cons_self ..) 0
    have hu : Touches [FLT_STATUS.word, FLT_RECOV_CNT.word] s { s.setF FLT_STATUS.LATCHED 0 with flt := { s.flt with recovs := [] } } :=
      hcleared.beside
    have ht := hu.setF (x := FLT_RECOV_CNT.IN_WINDOW) (List.mem_cons_of_mem _ (List.mem_cons_self ..)) 0
    refine ⟨_, (exec_sumpRelease_lit hd).trans (congrArg _ (State.releaseLatch_latched hl)), ?_, rfl, ?_, ht.words⟩
    · exact (State.f_setF_ne hu.canonical FLT_RECOV_CNT.IN_WINDOW FLT_STATUS.LATCHED 0 (by decide)).trans
        (State.f_setF_self hc FLT_STATUS.LATCHED 0 (by decide))
    · exact State.f_setF_self hu.canonical FLT_RECOV_CNT.IN_WINDOW 0 (by decide)
  · rw [exec_sumpRelease_lit hd, State.releaseLatch_unlatched hl]

end Sys2Proof.Machine
end

section
/-! PROOFS. Safety (O51): reports and the Sump (R672 to R687), Headgate (R688 to R694), records (R700 to R705). -/
namespace Sys2Proof.Machine

section
variable {s t u : State}

/-! ## Reports (R672, R674, R678 to R680) -/

theorem exec_sumpReport_taken {r : Report} (hw : firstReport s.waiting = some r) (hround : s.roundOf 20 mkTake = [])
    (ht : t = (((({ s with waiting := s.waiting.erase r } : State).mark mkTake 0).event (154 + r.cls)).capture r).enqueue r) :
    exec .sumpReport s =
      .next ((if (!s.b FLT_STATUS.FE_VALID && decide (s.f FLT_CTRL.FE_MIN ≤ r.cls)) || decide (2 ≤ r.cls) then t.pf 3 else t).classEffect r |>.boundaryTest r) := by
  show execSumpReport s = _
  simp only [execSumpReport, hw, hround, ← ht, ne_eq, not_true, if_false]

/-- A report that has waited 1 µs is lost, but its class acts (assumption log 70). -/
theorem exec_sumpReportLost_late {r : Report} (hw : lastReport s.waiting = some r) (hlate : r.stamp.toNat + 1000 ≤ s.now.toNat) :
    exec .sumpReportLost s =
      .next ((({ s with waiting := s.waiting.erase r } : State).satInc (FLT_OVR.LOST r.cls)).classEffect r |>.boundaryTest r) := by
  show execSumpReportLost s = _
  simp only [execSumpReportLost, hw, Nat.not_lt.2 hlate, if_false]

theorem exec_sumpRearm_lit (hd : s.poweredDown FLT_CTRL.word = false) :
    exec .sumpRearm s = .next ((s.setF FLT_STATUS.FE_VALID 0).setWord FLT_FE_INFO.word (s.word FLT_FE_INFO.word &&& 0xEFFFFFFF#32)) := by
  show execSumpRearm s = _
  simp only [execSumpRearm, hd, Bool.false_eq_true, if_false]

/-- A pop takes only what was queued before this round. -/
theorem exec_sumpPop_queued (hd : s.poweredDown FLT_Q_POP.word = false)
    (hq : ((s.roundOf 20 mkTake).filter (· = 1)).length < s.flt.queue.length) :
    exec .sumpPop s = .next ({ s with flt := { s.flt with queue := s.flt.queue.drop 1 } } : State).showQueue := by
  show execSumpPop s = _
  simp only [execSumpPop, hd, Nat.not_le.2 hq, Bool.false_eq_true, if_false]

/-! ## Recovery (R684, R685) -/

theorem exec_sumpRecovery_quiet (hq : s.quietOver = true)
    (ht : t = (List.range 12).foldl (fun (s : State) st => s.setF (HDG_ST_STATUS.CUT st) 0) ((s.setF FLT_STATUS.ACTIVE 0).setF FLT_STATUS.QUIET 0))
    (hu : u = ((t.hdgSync.railSync).resumeChannels.composerResume).loopsResume) :
    exec .sumpRecovery s =
      (let v := ({ u with flt := { u.flt with quietAt := none, recovs := u.now.toNat :: u.flt.recovs } } : State).syncWindow
       let w := (v.satInc FLT_RECOV_CNT.TOTAL)
       let x := w.record 0x17 0x02 5 (s.f FLT_STATUS.ACTIVE) (v.f FLT_RECOV_CNT.IN_WINDOW)
       .next (if 10 * (x.f THM_CFG.CRIT : Int) - 10 * (x.f THM_CFG.HYST : Int) ≤ x.fi THM_STATUS.HOT
              then (x.report 0x12 3 0x1D (x.f THM_STATUS.HOT_S)).pf 5 else x)) := by
  show execSumpRecovery s = _
  simp only [execSumpRecovery, hq, ← ht, ← hu, Bool.not_true, Bool.false_eq_true, if_false, decide_eq_true_eq]

/-! ## Self-checks, heartbeat, ALIVE (R681 to R683) -/

theorem exec_selfCheckCompare_flt (hp : s.power ≠ pwrOFF) (hf : s.quietSync.b FLT_STATUS.SELF_FAIL = false) :
    exec (.selfCheckCompare true false) s = .next (s.quietSync.selfFail 0x16) := by
  show execSelfCheckCompare true false s = _
  simp only [execSelfCheckCompare, hp, hf, Bool.false_eq_true, if_false, if_true]

theorem exec_selfCheckCompare_hdg (hp : s.power ≠ pwrOFF) (hf : s.quietSync.b FLT_STATUS.SELF_FAIL = false) :
    exec (.selfCheckCompare false true) s = .next (s.quietSync.selfFail 0x09) := by
  show execSelfCheckCompare false true s = _
  simp only [execSelfCheckCompare, hp, hf, Bool.true_or, Bool.false_eq_true, if_false, if_true]

theorem exec_heartbeatKick_lit (hd : s.poweredDown FLT_HB.word = false) :
    exec .heartbeatKick s = .next { s with flt := { s.flt with kickAt := s.now.toNat } } := by
  show execHeartbeatKick s = _
  simp only [execHeartbeatKick, hd, Bool.false_eq_true, if_false]

theorem exec_heartbeatTimeout_late (he : s.b FLT_HB_CFG.EN = true) (hc : s.boot.cores = true) (hh : s.sec.halted = false)
    (hlate : s.flt.kickAt + s.f FLT_HB_CFG.MS * 1000000 ≤ s.now.toNat) :
    exec .heartbeatTimeout s = .next (({ s with flt := { s.flt with kickAt := s.now.toNat } } : State).report 0x16 4 0x21) := by
  show execHeartbeatTimeout s = _
  simp only [execHeartbeatTimeout, he, hc, hh, Nat.not_lt.2 hlate, decide_false, Bool.not_true, Bool.or_self, Bool.false_eq_true, if_false]

theorem exec_aliveToggle_ok (ha : s.aliveOk = true) :
    exec .aliveToggle s = .next { s.drivePin wireAlive s.hdg.alive (!s.hdg.alive) with hdg := { s.hdg with alive := !s.hdg.alive } } := by
  show execAliveToggle s = _
  simp only [execAliveToggle, ha, if_true]

end

/-! ## Headgate (R688 to R694) -/

section
variable {s t : State} (ho : s.hdgOn = true)
include ho

theorem exec_interlockChange_open {c : Nat} (hc : c < 4) (hshut : bit (s.f HDG_STATUS.IL_OPEN) c = false)
    (ht : t = s.setF HDG_STATUS.IL_OPEN (setBit (s.f HDG_STATUS.IL_OPEN) c true)) :
    exec (.interlockChange c true) s =
      (let u := t.enabledStations.foldl (fun (s : State) st =>
         if bit (s.f (HDG_IL_MAP.MAP c)) st then s.setF (HDG_ST_STATUS.LAST_CAUSE st) 3 else s) t
       .next (((u.satInc HDG_CNT.IL).hdgSync).hdgReport (if u.inRun then 4 else 0) 0x12 0xFF c)) := by
  show execInterlockChange c true s = _
  simp only [execInterlockChange, ho, hshut, Nat.not_le.2 hc, ← ht, Bool.not_true, Bool.false_eq_true, or_self, if_false]

theorem exec_tachEdge_on {e : Nat} (he : e < 28) :
    exec (.tachEdge e) s =
      .next (s.enabledStations.foldl (fun (u : State) st =>
        if u.f (HDG_ST_CFG.TACH st) = e then
          (u.setHdgSt st { u.hdgSt st with last := some s.now.toNat }).gateTo st (!((u.hdgSt st).last.any (fun l => u.tachOk st (s.now.toNat - l))))
        else u) s) := by
  show execTachEdge e s = _
  simp only [execTachEdge, ho, Nat.not_le.2 he, decide_false, Bool.not_true, Bool.or_self, Bool.false_eq_true, if_false]

theorem exec_speedGateTimeout_slow {st : Nat} (hon : s.stationOn st = true)
    (hslow : ∀ l, (s.hdgSt st).last = some l → s.tachOk st (s.now.toNat - l) = false) :
    exec (.speedGateTimeout st) s = .next (s.gateTo st true) := by
  have hany : (s.hdgSt st).last.any (fun l => s.tachOk st (s.now.toNat - l)) = false :=
    (Option.any_eq_false _ _).2 fun l hl => by rw [hslow l hl]
  show execSpeedGateTimeout st s = _
  simp only [execSpeedGateTimeout, ho, hon, hany, Bool.not_true, Bool.or_self, Bool.false_eq_true, if_false]

theorem exec_emitterOntimeExceeded_on {st e : Nat} (hon : s.stationOn st = true) (he : e < 72)
    (ht : t = ((s.setF (HDG_ST_STATUS.CUT st) 1).setF (HDG_ST_STATUS.LAST_CAUSE st) 1).setF (HDG_ST_STATUS.EMITTER st) e) :
    exec (.emitterOntimeExceeded st e) s =
      .next ((((t.setHdgSt st { t.hdgSt st with low := 0 }).satInc HDG_CNT.ONTIME).hdgSync).hdgReport 4 0x10 st e) := by
  show execEmitterOntimeExceeded st e s = _
  simp only [execEmitterOntimeExceeded, ho, hon, Nat.not_le.2 he, ← ht, decide_false, Bool.not_true, Bool.or_self, Bool.false_eq_true, if_false]

theorem exec_dutyEvaluate_on (on : List (List Nat)) :
    exec (.dutyEvaluate on) s = .next (s.enabledStations.foldl (fun (s : State) st => s.dutyStep st (on.getD st [])) s).quietSync := by
  show execDutyEvaluate on s = _
  simp only [execDutyEvaluate, ho, Bool.not_true, Bool.false_eq_true, if_false]

end

/-- The duty limit is in range beside its exact complement (R692, R694). -/
theorem hdgLimitOk_duty {v : BitVec 32} (hlo : 10 ≤ v.toNat % 65536) (hhi : v.toNat % 65536 ≤ 90)
    (hn : v.toNat / 65536 = 65535 - v.toNat % 65536) : hdgLimitOk HDG_DUTY.word v = some true := by
  have hval : bits v.toNat 0 16 = v.toNat % 65536 := by simp only [bits, Nat.pow_zero, Nat.div_one, Nat.reducePow]
  have hcompl : bits v.toNat 16 16 = v.toNat / 65536 := by simp only [bits]; omega
  have hwhole : v.toNat % 65536 + v.toNat / 65536 = 65535 := by omega
  have halign : ¬ HDG_DUTY.word % 4 ≠ 0 := by decide
  have honmax : ¬ (HDG_ONMAX.word 0 ≤ HDG_DUTY.word ∧ HDG_DUTY.word ≤ HDG_ONMAX.word 4) := by decide
  simp only [hdgLimitOk, halign, honmax, hval, hcompl, hwhole, hlo, hhi, and_self, decide_true, Bool.and_self, if_false, if_true]

section
variable {s : State}

theorem State.hdgLimit_duty {v : BitVec 32} (hrun : s.inRun = false) (hne : s.word HDG_DUTY.word ≠ v) :
    s.hdgLimit HDG_DUTY.word v true = (s.setWord HDG_DUTY.word v).hdgSync := by
  have hmap : ¬ (HDG_IL_MAP.word 0 ≤ HDG_DUTY.word ∧ HDG_DUTY.word ≤ HDG_IL_MAP.word 3) := by decide
  simp only [State.hdgLimit, hmap, hne, hrun, Bool.not_true, Bool.or_self, Bool.false_eq_true, if_false]

theorem exec_hdgLimitWrite_duty {v : BitVec 32} (hd : s.poweredDown HDG_DUTY.word = false) (hrun : s.inRun = false) (hlo : 10 ≤ v.toNat % 65536)
    (hhi : v.toNat % 65536 ≤ 90) (hn : v.toNat / 65536 = 65535 - v.toNat % 65536) (hne : s.word HDG_DUTY.word ≠ v) :
    exec (.hdgLimitWrite HDG_DUTY.word v) s = .next (s.setWord HDG_DUTY.word v).hdgSync := by
  have hstation : ¬ HDG_ST_CFG.word 0 ≤ HDG_DUTY.word := by decide
  show execHdgLimitWrite HDG_DUTY.word v s = _
  simp only [execHdgLimitWrite, hdgLimitOk_duty hlo hhi hn, hd, hstation, State.hdgLimit_duty hrun hne, false_and, Bool.false_eq_true, if_false]

/-! ## Records (R700 to R705) -/

theorem exec_recordFlashWrite_ok {r : EvrRec} (hf : s.b EVR_STATUS.NOR_FAIL = false) (hc : s.b EVR_STATUS.CLEARING = false)
    (hr : (s.evr.mirror.drop (s.evr.mirror.length - s.evr.unwritten)).head? = some r) :
    exec (.recordFlashWrite true) s =
      (let t := if r.slot % 128 = 0 then s.eraseSector r.slot r.seq else s
       .next (t.setEvr { t.evr with flash := t.evr.flash.put r.slot r, badSlots := t.evr.badSlots.filter (fun k => k ≠ r.slot),
                                    unwritten := t.evr.unwritten - 1 }).flushing) := by
  show execRecordFlashWrite true s = _
  simp only [execRecordFlashWrite, hf, hc, hr, Bool.not_true, Bool.or_self, Bool.false_eq_true, if_false]

theorem exec_recordRead_lit (q : BitVec 32) (hd : s.poweredDown EVR_RD_SEQ.word = false) : exec (.recordRead q) s = .next (s.readRecord q) := by
  show execRecordRead q s = _
  simp only [execRecordRead, hd, Bool.false_eq_true, if_false]

/-- In BLANK and RETURNED a clear needs no token (R705). -/
theorem State.askClear_noToken {tok : List Byte} (hc : s.b EVR_STATUS.CLEARING = false) (hl : s.lc = lcBLANK ∨ s.lc = lcRETURNED) :
    (s.askClear tok).2 = s.startClear 0xFFFFFFFF := by
  simp only [State.askClear, hc, hl, Bool.false_eq_true, if_false, if_true]

theorem exec_recordClear_noToken (hd : s.poweredDown EVR_CLEAR.word = false) (hc : s.b EVR_STATUS.CLEARING = false)
    (hl : s.lc = lcBLANK ∨ s.lc = lcRETURNED) : exec (.recordClear 0xC101#32) s = .next (s.startClear 0xFFFFFFFF) := by
  have hcode : ¬ (bits (0xC101#32).toNat 8 8 ≠ 0xC1 ∨ (!bit (0xC101#32).toNat 0) = true) := by decide
  show execRecordClear _ s = _
  simp only [execRecordClear, hd, hcode, State.askClear_noToken hc hl, Bool.false_eq_true, if_false]

theorem exec_recordClearDone_clearing (hc : s.b EVR_STATUS.CLEARING = true) :
    exec .recordClearDone s = .next (((s.clearSectors (s.f EVR_OLDEST.SEQ)).setF EVR_STATUS.CLEARING 0).flushing) := by
  show execRecordClearDone s = _
  simp only [execRecordClearDone, hc, if_true]

end

/-- Settles O51, a lemma to each clause. -/
theorem safetyComplete : Obligations.SafetyComplete := by
  refine ⟨?_, ?_, ?_, ?_, ?_, ?_, ?_, ?_, ?_, ?_, ?_, ?_, ?_, ?_, ?_, ?_, ?_, ?_, ?_⟩
  · exact fun _ _ _ => exec_sumpReport_taken
  · exact fun _ _ => exec_sumpReportLost_late
  · exact fun _ hd => ⟨exec_sumpRearm_lit hd, exec_sumpRelease_lit hd⟩
  · exact fun _ => exec_sumpPop_queued
  · exact fun _ _ _ => exec_sumpRecovery_quiet
  · exact fun _ hp hf => ⟨exec_selfCheckCompare_flt hp hf, exec_selfCheckCompare_hdg hp hf⟩
  · exact fun _ => exec_heartbeatKick_lit
  · exact fun _ => exec_heartbeatTimeout_late
  · exact fun _ => exec_aliveToggle_ok
  · exact fun _ _ _ hc ho => exec_interlockChange_open ho hc
  · exact fun _ _ ho => exec_tachEdge_on ho
  · exact fun _ _ ho => exec_speedGateTimeout_slow ho
  · exact fun _ _ _ _ ho => exec_emitterOntimeExceeded_on ho
  · exact fun _ on ho => exec_dutyEvaluate_on ho on
  · exact fun _ _ => exec_hdgLimitWrite_duty
  · exact fun _ _ => exec_recordFlashWrite_ok
  · exact fun _ q => exec_recordRead_lit q
  · exact fun _ => exec_recordClear_noToken
  · exact fun _ => exec_recordClearDone_clearing

end Sys2Proof.Machine
end

section
/-! PROOFS. Axes (O37, R474 to R498) and encoder inputs (R315, R488, R534). -/
namespace Sys2Proof.Machine

/-! ## Acceptance (R479, R483) -/

section
variable {s : State} {ax c : Nat}

theorem State.axGuard_none {p : Bool} (hx : ax < 24) (hd : s.poweredDown (MOT_AX_CMD.word ax) = false) (ha : s.stopActive = false ∨ p = true) :
    s.axGuard ax c p = none := by
  have hstop : (s.stopActive && !p) = false := by
    rcases ha with ha | hp
    · rw [ha, Bool.false_and]
    · rw [hp, Bool.not_true, Bool.and_false]
  simp only [State.axGuard, Nat.not_le.2 hx, hd, hstop, Bool.false_eq_true, if_false]

/-- An axis in one given state at rest rests. -/
theorem State.axRests_of_stopped (h : s.axState ax = axSTOPPED) : s.axRests ax = true := by
  simp only [State.axRests, h, decide_true, Bool.or_true]

theorem State.not_moving_of_axRests (h : s.axRests ax = true) : s.axState ax ≠ axMOVING := by
  intro hm
  rw [State.axRests, hm] at h
  exact absurd h (by decide)

theorem State.axDo_pass (hg : s.axGuard ax c true = none) (g : State → State) : s.axDo ax c true g = .next (g s) := by
  simp only [State.axDo, hg, if_true]

/-- At rest a command marks its axis, for the stops of the round that come before it. -/
theorem State.axDo_resting (hg : s.axGuard ax c false = none) (hs : s.stopReports = false) (hr : s.axRests ax = true) (g : State → State) :
    s.axDo ax c false g = .next ((g s).mark mkAxis ax) := by
  simp only [State.axDo, hg, hs, State.not_moving_of_axRests hr, hr, decide_false, Bool.false_and, Bool.false_eq_true, if_false, if_true]

theorem State.axDo_inert (hg : s.axGuard ax c false = none) (hs : s.stopReports = false) (hm : s.axState ax ≠ axMOVING) (hr : s.axRests ax = false)
    (g : State → State) : s.axDo ax c false g = .next (g s) := by
  simp only [State.axDo, hg, hs, hm, hr, decide_false, Bool.false_and, Bool.false_eq_true, if_false]

/-- Neither a disabled axis nor one in FAULT moves or rests. -/
theorem State.axDo_of_state (hg : s.axGuard ax c false = none) (hs : s.stopReports = false) (h : s.axState ax = axDISABLED ∨ s.axState ax = axFAULT)
    (g : State → State) : s.axDo ax c false g = .next (g s) := by
  rcases h with h | h
  all_goals
    have hm : s.axState ax ≠ axMOVING := by rw [h]; decide
    have hr : s.axRests ax = false := by rw [State.axRests, h]; decide
    exact State.axDo_inert hg hs hm hr g

/-! ## Moves and jogs (R475, R477, R481, R482, R492) -/

section
variable {t : Int} (hr : s.axRests ax = true) (hrate : s.axRateBad ax = false)
include hr hrate

theorem State.axMove_resting (hstep : (t - s.axPos ax) % (s.axStepSize ax : Int) = 0) (hlim : s.axOutside ax t = false) (arm : Bool) :
    s.axMove ax t arm = if arm then s.axHold ax ⟨0, t⟩ else s.axStart ax 0 t := by
  simp only [State.axMove, hr, hrate, hstep, hlim, State.not_moving_of_axRests hr, ne_eq, not_true, Bool.not_true, Bool.false_and, Bool.false_eq_true,
    if_false]

theorem State.axJog_resting {dir : Int} (hlim : s.axAtLimit ax dir = false) : s.axJog ax dir false = s.axStart ax dir 0 := by
  simp only [State.axJog, hr, hrate, hlim, Bool.not_true, Bool.false_eq_true, if_false]

end

end

/-! ## Commands (R479) -/

section
variable {s t u : State} {ax : Nat}

theorem exec_axEnable_disabled (hg : s.axGuard ax 1 false = none) (hs : s.stopReports = false) (hst : s.axState ax = axDISABLED)
    (hen : (s.axis ax).enabling = false) (he : s.axEncTaken ax = false) :
    exec (.axEnable ax) s = .next (s.modAxis ax (fun x => { x with enabling := true })) := by
  show execAxEnable ax s = _
  rw [execAxEnable, State.axDo_of_state hg hs (.inl hst)]
  simp only [hst, hen, he, ne_eq, not_true, Bool.false_eq_true, or_self, if_false]

theorem exec_axEnableComplete_enabling {ta tb : List Nat} (hen : (s.axis ax).enabling = true)
    (ht : t = ((((s.setF (MOT_AX_TD.TD_A ax) (min 65535 (meanDelay ta))).setF (MOT_AX_TD.TD_B ax) (min 65535 (meanDelay tb))).modAxis ax
      (fun x => { x with enabling := false, jog := 0 })).axTo ax axIDLE).bridges ax false false) :
    exec (.axEnableComplete ax ta tb) s = .next (if t.axEnc ax then t.axSync ax else t) := by
  show execAxEnableComplete ax ta tb s = _
  simp only [execAxEnableComplete, hen, ← ht, Bool.not_true, Bool.false_eq_true, if_false]

theorem exec_axDisable_still (hg : s.axGuard ax 2 true = none) (hst : s.axRests ax = true ∨ s.axState ax = axFAULT) :
    exec (.axDisable ax) s = .next (((s.axTo ax axDISABLED).setI32 (MOT_AX_REM.word ax) 0).bridges ax true false) := by
  have hstill : (!s.axRests ax && decide (s.axState ax ≠ axFAULT)) = false := by
    rcases hst with h | h
    · rw [h, Bool.not_true, Bool.false_and]
    · rw [h, decide_eq_false (not_not_intro rfl), Bool.and_false]
  show execAxDisable ax s = _
  rw [execAxDisable, State.axDo_pass hg]
  simp only [hstill, Bool.false_eq_true, if_false]

theorem exec_axMoveAbs_resting {g : Int} (hg : s.axGuard ax 3 false = none) (hs : s.stopReports = false) (hr : s.axRests ax = true)
    (hrate : s.axRateBad ax = false) (hgoal : g = s.i32 (MOT_AX_TARGET.word ax)) (hstep : (g - s.axPos ax) % (s.axStepSize ax : Int) = 0)
    (hlim : s.axOutside ax g = false) (arm : Bool) :
    exec (.axMoveAbs ax arm) s = .next ((if arm then s.axHold ax ⟨0, g⟩ else s.axStart ax 0 g).mark mkAxis ax) := by
  show execAxMoveAbs ax arm s = _
  rw [execAxMoveAbs, State.axDo_resting hg hs hr, ← hgoal, State.axMove_resting hr hrate hstep hlim]

/-- At rest a relative move counts from the position. -/
theorem exec_axMoveRel_resting (hg : s.axGuard ax 4 false = none) (hs : s.stopReports = false) (hm : s.axState ax ≠ axMOVING)
    (hr : s.axRests ax = true) (hrate : s.axRateBad ax = false) (hstep : s.i32 (MOT_AX_TARGET.word ax) % (s.axStepSize ax : Int) = 0)
    (hlim : s.axOutside ax (s.axPos ax + s.i32 (MOT_AX_TARGET.word ax)) = false) :
    exec (.axMoveRel ax false) s = .next ((s.axStart ax 0 (s.axPos ax + s.i32 (MOT_AX_TARGET.word ax))).mark mkAxis ax) := by
  have hdist : (s.axPos ax + s.i32 (MOT_AX_TARGET.word ax) - s.axPos ax) % (s.axStepSize ax : Int) = 0 := by rw [Int.add_comm (s.axPos ax), Int.add_sub_cancel, hstep]
  show execAxMoveRel ax false s = _
  rw [execAxMoveRel, State.axDo_resting hg hs hr]
  simp only [hm, false_and, if_false, State.axMove_resting hr hrate hdist hlim, Bool.false_eq_true]

theorem exec_axJogPos_resting (hg : s.axGuard ax 5 false = none) (hs : s.stopReports = false) (hr : s.axRests ax = true)
    (hrate : s.axRateBad ax = false) (hlim : s.axAtLimit ax 1 = false) :
    exec (.axJogPos ax false) s = .next ((s.axStart ax 1 0).mark mkAxis ax) := by
  show execAxJogPos ax false s = _
  rw [execAxJogPos, State.axDo_resting hg hs hr, State.axJog_resting hr hrate hlim]

theorem exec_axJogNeg_resting (hg : s.axGuard ax 6 false = none) (hs : s.stopReports = false) (hr : s.axRests ax = true)
    (hrate : s.axRateBad ax = false) (hlim : s.axAtLimit ax (-1) = false) :
    exec (.axJogNeg ax false) s = .next ((s.axStart ax (-1) 0).mark mkAxis ax) := by
  show execAxJogNeg ax false s = _
  rw [execAxJogNeg, State.axDo_resting hg hs hr, State.axJog_resting hr hrate hlim]

theorem exec_axStop_taken (hg : s.axGuard ax 7 true = none) (hn : s.axNew ax = false) (hst : s.axState ax ≠ axSTOPPING) (hf : s.axState ax ≠ axFAULT) :
    exec (.axStop ax) s = .next (s.axAskStop ax (s.axis ax).dec) := by
  show execAxStop ax s = _
  rw [execAxStop, State.axDo_pass hg]
  simp only [State.axStopCmd, hn, hst, hf, Bool.false_eq_true, or_self, if_false]

theorem exec_axQstop_taken (hg : s.axGuard ax 8 true = none) (hn : s.axNew ax = false) (hf : s.axState ax ≠ axFAULT) :
    exec (.axQstop ax) s = .next (s.axAskStop ax (s.axQdec ax)) := by
  show execAxQstop ax s = _
  rw [execAxQstop, State.axDo_pass hg]
  simp only [State.axQstopCmd, hn, hf, Bool.false_eq_true, if_false]

theorem exec_axResume_stopped (hg : s.axGuard ax 9 false = none) (hs : s.stopReports = false) (hst : s.axState ax = axSTOPPED)
    (hj : (s.axis ax).jog = 0) (hrate : s.axRateBad ax = false) (hlim : s.axOutside ax (s.i32 (MOT_AX_TGT_NOW.word ax)) = false) :
    exec (.axResume ax false) s = .next ((s.axStart ax 0 (s.i32 (MOT_AX_TGT_NOW.word ax))).mark mkAxis ax) := by
  show execAxResume ax false s = _
  rw [execAxResume, State.axDo_resting hg hs (State.axRests_of_stopped hst)]
  simp only [hst, hj, hrate, hlim, ne_eq, not_true, Bool.false_eq_true, if_false]

theorem exec_axSetpos_resting (hg : s.axGuard ax 10 false = none) (hs : s.stopReports = false) (hr : s.axRests ax = true)
    (ht : t = (((((s.setWord (MOT_AX_POS.word ax) (s.word (MOT_AX_TARGET.word ax))).setI32 (MOT_AX_REM.word ax) 0).modAxis ax
      (fun x => { x with jog := 0 })).setF (MOT_AX_STATUS.POS_LOST ax) 0).axTo ax axIDLE).setCodes ax) :
    exec (.axSetpos ax) s = .next ((if t.axEnc ax then t.axSync ax else t).mark mkAxis ax) := by
  show execAxSetpos ax s = _
  rw [execAxSetpos, State.axDo_resting hg hs hr]
  simp only [hr, ← ht, Bool.not_true, Bool.false_eq_true, if_false]

theorem exec_axClear_fault (hg : s.axGuard ax 11 false = none) (hs : s.stopReports = false) (hst : s.axState ax = axFAULT)
    (ht : t = ((s.setF (MOT_AX_STATUS.FAULT ax) 0).axTo ax axSTOPPED).bridges ax false false) (hu : u = if t.axEnc ax then t.axResync ax else t) :
    exec (.axClear ax) s = .next (u.setI32 (MOT_AX_REM.word ax) (u.axRemain ax)) := by
  show execAxClear ax s = _
  rw [execAxClear, State.axDo_of_state hg hs (.inr hst)]
  simp only [hst, ← ht, ← hu, ne_eq, not_true, if_false]

end

/-! ## Events of an axis (R474, R490, R491, R497) -/

section
variable {s t u : State} {ax : Nat} (hx : ax < 24)
include hx

theorem exec_axStepEvent_moving (hst : s.axState ax = axMOVING ∨ s.axState ax = axSTOPPING) : exec (.axStepEvent ax) s = .next (s.axStepEvent ax) := by
  have hmoves : ¬ (24 ≤ ax ∨ (s.axState ax ≠ axMOVING ∧ s.axState ax ≠ axSTOPPING)) := by
    simp only [Nat.not_le.2 hx, false_or, ne_eq, ← not_or, hst, not_true, not_false_eq_true]
  show execAxStepEvent ax s = _
  simp only [execAxStepEvent, hmoves, if_false]

theorem exec_axDeviationCheck_on {n : Nat} (hst : s.axState ax ≠ axDISABLED) (he : s.axEnc ax = true) (ht : t = s.axShowEnc ax)
    (hn : n = if t.f (MOT_AX_DEVWIN.WIN ax) < (t.axDev ax).natAbs then (t.axis ax).dev + 1 else 0) (hu : u = t.modAxis ax (fun x => { x with dev := n })) :
    exec (.axDeviationCheck ax) s = .next (if n = 2 ∧ u.axState ax ≠ axFAULT then (u.satInc (MOT_AX_CNT.STALL ax)).axFault ax 1 else u) := by
  show execAxDeviationCheck ax s = _
  simp only [execAxDeviationCheck, Nat.not_le.2 hx, hst, he, ← ht, ← hn, ← hu, Bool.not_true, Bool.false_eq_true, or_self, if_false]

theorem exec_axSettleCheck_lost (he : s.axEnc ax = true) (hresync : (s.axis ax).resync = false) (hsettle : (s.axis ax).settle = true)
    (hr : s.axRests ax = true) (hdev : 64 ≤ (s.axDev ax).natAbs)
    (ht : t = ((s.modAxis ax (fun x => { x with settle := false })).satInc (MOT_AX_CNT.LOST ax) ((s.axDev ax).natAbs / 64)).report 0x0C 0 0x0F ax) :
    exec (.axSettleCheck ax) s = .next (if t.b (MOT_AX_CFG.ENC_CORR ax) then t.axResync ax else t) := by
  show execAxSettleCheck ax s = _
  simp only [execAxSettleCheck, Nat.not_le.2 hx, Nat.not_lt.2 hdev, he, hresync, hsettle, hr, ← ht, Bool.not_true, Bool.false_and, Bool.or_self,
    Bool.false_eq_true, or_self, if_false]

theorem exec_axHoldTimeout_running (hr : s.axRests ax = true) (hh : s.b (MOT_AX_STATUS.HOLD ax) = false) :
    exec (.axHoldTimeout ax) s = .next (((s.modAxis ax (fun x => { x with run := false })).setF (MOT_AX_STATUS.HOLD ax) 1).setCodes ax) := by
  show execAxHoldTimeout ax s = _
  simp only [execAxHoldTimeout, Nat.not_le.2 hx, hr, hh, Bool.not_true, Bool.false_eq_true, or_self, if_false]

/-! ## The chopper (R495, R498) -/

theorem exec_chopBlankingEnd_below {ph : Nat} (hph : ph < 2) (hb : (s.phase ax ph).blank = true) (hdrive : (s.phase ax ph).drive = true) :
    exec (.chopBlankingEnd ax ph false) s = .next (s.setPhase ax ph { s.phase ax ph with blank := false, overs := 0 }) := by
  have hcount : ¬ 3 ≤ 0 := by decide
  show execChopBlankingEnd ax ph false s = _
  simp only [execChopBlankingEnd, Nat.not_le.2 hx, Nat.not_le.2 hph, hb, hdrive, hcount, decide_false, Bool.not_true, Bool.and_false, Bool.false_and,
    Bool.or_self, Bool.false_eq_true, or_self, if_false, if_true]

end

section
variable {s t : State} {ax ph : Nat} (hc : s.chops ax ph = true)
include hc

theorem exec_chopThresholdCross_open (hb : (s.phase ax ph).blank = false) : exec (.chopThresholdCross ax ph) s = .next (s.chopToggle ax ph) := by
  show execChopThresholdCross ax ph s = _
  simp only [execChopThresholdCross, hc, hb, Bool.not_true, Bool.or_self, Bool.false_eq_true, if_false]

theorem exec_chopMixEnd_fast (hf : (s.phase ax ph).fast = true) :
    exec (.chopMixEnd ax ph) s = .next ((s.setPhase ax ph { s.phase ax ph with fast := false }).gates ax ph 3) := by
  show execChopMixEnd ax ph s = _
  simp only [execChopMixEnd, hc, hf, Bool.not_true, Bool.or_self, Bool.false_eq_true, if_false]

theorem exec_chopMaxOnTimeout_drive (hdrive : (s.phase ax ph).drive = true) (hcode : 32 ≤ (s.axCode ax ph).natAbs)
    (ht : t = s.setPhase ax ph { s.phase ax ph with openN := (s.phase ax ph).openN + 1 }) :
    exec (.chopMaxOnTimeout ax ph) s = .next (if 3 ≤ (s.phase ax ph).openN + 1 then t.axFault ax 3 else t) := by
  have hready : (!s.chops ax ph || !(s.phase ax ph).drive || decide ((s.axCode ax ph).natAbs < 32)) = false := by
    rw [hc, hdrive, decide_eq_false (Nat.not_lt.2 hcode)]; rfl
  show execChopMaxOnTimeout ax ph s = _
  simp only [execChopMaxOnTimeout, hready, ← ht, Bool.false_eq_true, if_false]

end

/-! ## Encoder inputs (R315, R488, R534) -/

section
variable {s t u : State} {n : Nat} (hn : n < 28) (ha : (s.encIn n).a = false) (hb : (s.encIn n).b = false)
include hn ha hb

/-- B ahead of A counts down; a device that is not awake does no more (assumption log 30). -/
theorem exec_encoderCount_down (hw : s.awake = false) :
    exec (.encoderCount n false true) s =
      .next (s.setEncIn n { s.encIn n with a := false, b := true, cnt := (s.encIn n).cnt - 1, dir := -1, gap := s.now.toNat - (s.encIn n).at',
                                           at' := s.now.toNat }) := by
  have hasleep : ∀ e, (s.setEncIn n e).awake = false := fun _ => hw
  show execEncoderCount n false true s = _
  simp only [execEncoderCount, Nat.not_le.2 hn, ha, hb, hasleep, Int.sub_eq_add_neg]
  rfl

/-- A ahead of B counts up (assumption log 30); the rising edge of A counts for the FG. -/
theorem exec_encoderCount_up
    (ht : t = s.setEncIn n { s.encIn n with a := true, b := false, cnt := (s.encIn n).cnt + 1, dir := 1, gap := s.now.toNat - (s.encIn n).at',
                                            at' := s.now.toNat, fg := (s.encIn n).fg + 1, fgGap := s.now.toNat - (s.encIn n).fgAt, fgAt := s.now.toNat })
    (hw : t.awake = true) (hu : u = (t.turnoutCount n 1).trackCount n 1) :
    exec (.encoderCount n true false) s =
      .next (axisList.foldl (fun s ax => if s.axEnc ax && s.f (MOT_AX_CFG.ENC ax) = n && s.axState ax ≠ axDISABLED then s.axShowEnc ax else s) u) := by
  show execEncoderCount n true false s = _
  simp [execEncoderCount, Nat.not_le.2 hn, ha, hb, ← ht, hw, ← hu]

end

/-- Settles O37, a lemma to each clause. -/
theorem axesComplete : Obligations.AxesComplete := by
  refine ⟨?_, ?_, ?_, ?_, ?_, ?_, ?_, ?_, ?_, ?_, ?_, ?_, ?_, ?_, ?_, ?_, ?_, ?_, ?_, ?_, ?_, ?_, ?_⟩
  · exact fun _ _ _ _ => State.axGuard_none
  · exact fun _ _ => exec_axEnable_disabled
  · exact fun _ _ _ _ _ => exec_axEnableComplete_enabling
  · exact fun _ _ => exec_axDisable_still
  · exact fun _ _ _ hg hs hr hrate hgoal hstep hlim =>
      ⟨exec_axMoveAbs_resting hg hs hr hrate hgoal hstep hlim false, exec_axMoveAbs_resting hg hs hr hrate hgoal hstep hlim true⟩
  · exact fun _ _ => exec_axMoveRel_resting
  · exact fun _ _ => exec_axJogPos_resting
  · exact fun _ _ => exec_axJogNeg_resting
  · exact fun _ _ => exec_axStop_taken
  · exact fun _ _ => exec_axQstop_taken
  · exact fun _ _ => exec_axResume_stopped
  · exact fun _ _ _ => exec_axSetpos_resting
  · exact fun _ _ _ _ => exec_axClear_fault
  · exact fun _ _ => exec_axStepEvent_moving
  · exact fun _ _ _ _ _ hx => exec_axDeviationCheck_on hx
  · exact fun _ _ _ hx => exec_axSettleCheck_lost hx
  · exact fun _ _ hx => exec_axHoldTimeout_running hx
  · exact fun _ _ _ hc => exec_chopThresholdCross_open hc
  · exact fun _ _ _ hc => exec_chopMixEnd_fast hc
  · exact fun _ _ _ _ hc => exec_chopMaxOnTimeout_drive hc
  · exact fun _ _ _ hx => exec_chopBlankingEnd_below hx
  · exact fun _ _ hn ha hb => exec_encoderCount_down hn ha hb
  · exact fun _ _ _ _ hn ha hb => exec_encoderCount_up hn ha hb

end Sys2Proof.Machine
end
